-- ==== Sys2Proof/Word.lean ====
section
/-!
DEFINITION. Words: a register of the device is 64 bits (R11), a byte of a memory is 8 bits, a parse register 32 bits.
-/

namespace Sys2Proof

/-- A 64-bit register or doubleword. -/
abbrev Word := BitVec 64

/-- A byte of a memory, a frame or a payload. -/
abbrev Byte := BitVec 8

end Sys2Proof
end

