-- ==== Sys2Proof/Syntax.lean ====
section
/-!
DEFINITION. The commands of the block: one constructor for each row of spec/opcode_table.json. A command carries the
operands its rule names: who acts (where the rule depends on the agent), which slice, port, ring, queue or instance it is
about, the bytes that arrive, and the outcomes that are settled outside the device (an edge's spacing, a lock reached, a
decode result). Everything else a command does follows from the state (log entries 1 and 2).
-/

namespace Sys2Proof

/-- What the link found an inbound TLP, or an error of the link, to be (R429): a request that hits no BAR, an I/O or locked request, a Type 1
configuration request, a memory or configuration request to a function, a poisoned write to a BAR, the uncorrectable errors and the
correctable errors of R429. -/
inductive InboundTlp where
  | noBar | ioOrLocked | typeOne | memory | config | poisonedWrite | malformed | ecrc | overflow | dataLink | flowControl | uncorrectableInternal
  | receiver | badTlp | badDllp | replayTimer | replayRollover | correctedInternal
  deriving DecidableEq, Repr

/-- Who issues a register access (R585): the manager through PF0, the Keeper, the debug module, a hart (slice, cluster,
local index) or a host through a function's own BAR0. -/
inductive Agent where
  | manager
  | keeper
  | debug
  | hart (slice cluster thread : Nat)
  | host (fn : Nat)
  deriving DecidableEq, Repr

/-- One request at an arbiter in a cycle (R79 request wires): SOURCE, DEADLINE (as a FT_MONO value, of which the wires carry the low 32 bits) and
CLASS; the in-order stream of that source it belongs to (R82), 0 for none; and the lane of the destination it needs (R81): at a slice's port 0
8 × port position + priority, at a Korrum Link egress port its virtual channel; and what it is for: the packet buffer address, device HBM address or Flow
Handle by which R24 interleaves the ports. -/
structure ArbReq where
  source : Nat
  deadline : Nat
  cls : Nat
  stream : Nat := 0
  lane : Nat := 0
  target : Nat := 0
  deriving DecidableEq, Repr

/-- What reaches a point in a cycle from outside (R74). At the HBM scheduler: the accesses that have reached it, the addresses that its timing permits now,
and whether a refresh is due. -/
structure PointCycle where
  reqs : List ArbReq
  timed : List Nat := []
  refresh : Bool := false
  deriving DecidableEq, Repr

/-- An edge of TIME_PPS (R52): rising or falling, and the periods of TIME_10M since the rising edge before it. -/
structure PpsEdge where
  rising : Bool
  spacing : Nat
  deriving DecidableEq, Repr

/-- Where a reference is lost (R54): the port of a PTP source, and whether TIME_10M is absent too. -/
structure RefLoss where
  port : Nat
  no10M : Bool := false
  deriving DecidableEq, Repr

/-- A message of IEEE 1588-2019 that the PTP client takes (R51): its messageType (0x0 Sync, 0x2 Pdelay_Req, 0x3 Pdelay_Resp, 0x8 Follow_Up, 0x9 Delay_Resp,
0xA Pdelay_Resp_Follow_Up, 0xB Announce), domain, networkProtocol, sequenceId, twoStepFlag, and the timestamp it carries with its correctionField, in
units of 0.125 ns. -/
structure PtpMsg where
  kind : Nat
  domain : Nat
  transport : Nat
  seq : Nat
  twoStep : Bool := false
  stamp : Nat := 0
  corr : Int := 0
  deriving DecidableEq, Repr

/-- What a peer's LINK_CAPS, its proof and its training say (R297, R302): the version, federation ID and FED_VALID, OWN_EPOCH, FED_EPOCH, its
master, whether it is a MEMBER, its nonce, the 16-byte proof, and the buffer flits it advertises for each virtual channel. -/
structure PeerCaps where
  version : Nat
  fed : Nat
  valid : Bool
  own : Nat
  epoch : Nat
  master : Nat
  member : Bool
  nonce : List Byte
  proof : List Byte
  buffers : List Nat
  deriving DecidableEq, Repr

/-- What MOVE_BEGIN says (R309): generation, member set, link map (by member, the ports with a link), MASTER_ELIGIBLE members, federation
epoch, T_SWITCH in Fabric Time units of 0.125 ns, and the master that sends it. -/
structure MoveMsg where
  gen : Nat
  members : Nat
  links : List Nat
  eligible : Nat
  epoch : Nat
  tSwitch : Nat
  master : Nat
  deriving DecidableEq, Repr

/-- A die that discovery finds (R364, R365): whether the firmware holds a profile for it, that profile's geometry code, and its factory bad
blocks. -/
structure DieFound where
  slice : Nat
  die : Nat
  profile : Bool
  geometry : Nat
  bad : List Nat
  deriving DecidableEq, Repr

/-- What a start of the device finds that the device does not decide (R364 to R366, R478, R483, R484, R497): whether the trial record, the revert
record and the migrated configuration bank read back right, the sealed key copies whose tag fails, the trainings that failed on each populated
channel (slice, channel, number), and the dies. -/
structure BootInfo where
  trialWrite : Bool
  revertWrite : Bool
  configWrite : Bool
  badKeys : List Nat
  channels : List (Nat × Nat × Nat)
  dies : List DieFound
  deriving DecidableEq, Repr

/-- The commands of the block, one constructor for each row of spec/opcode_table.json, in the table's order. -/
inductive Instr where
  /-- RESET_N_RISE (R563). RESET_N rises: the straps are latched and a device reset ends, starting Plinth ROM and the configuration that applies at reset. -/
  | resetNRise (straps : Nat) (power : Bool)
  /-- INTERNAL_DEVICE_RESET (R564). A device reset started inside the device (DEVICE_RESET, the trial watchdog, RESET_NOW, the restart after a save) ends and the straps are latched again. -/
  | internalDeviceReset (straps : Nat)
  /-- PLINTH_ROM_BOOT (R481). Plinth ROM builds the candidate list, stages and verifies each candidate in turn, and jumps to STAGE1 or enters Recovery. -/
  | plinthRomBoot (info : BootInfo)
  /-- TRIAL_WATCHDOG (R486). The trial watchdog expires before the package is confirmed and resets the device. -/
  | trialWatchdog
  /-- RCV_CTRL_ENABLE (R487). A write of RCV_CTRL.ENABLE puts both Recovery management rings in ACTIVE with heads and tails zero. -/
  | rcvCtrlEnable (agent : Agent)
  /-- REGISTER_WRITE (R587). A write to a register that has no behaviour of its own is applied under the access rule, or ignored as a violation. -/
  | registerWrite (agent : Agent) (addr : Nat) (size : Nat) (value : Nat)
  /-- RC_REGISTER_READ (R13). A read of an RC register returns its value and restarts it from the current level or from zero. -/
  | rcRegisterRead (agent : Agent) (addr : Nat) (size : Nat)
  /-- KEEPER_EVENT_LOG (R45). An enabled status bit rises, interrupting the Keeper, which records the event and forwards it to the manager as an asynchronous event where required. -/
  | keeperEventLog
  /-- ETH_LINK_UP (R22). An Ethernet port completes auto-negotiation and link training at its mode's rate, and its link comes up. -/
  | ethLinkUp (slice : Nat) (port : Nat)
  /-- ETH_LINK_DOWN (R22). An Ethernet port loses link; ETH_LINK_DOWN counts it, and frames that are to leave on the port are dropped. -/
  | ethLinkDown (slice : Nat) (port : Nat)
  /-- FRAME_RECEIVE (R154). A frame begins to arrive at a MAC group, takes its begin instant and its ingress cells, and issues any Address Table prefetches. -/
  | frameReceive (slice : Nat) (port : Nat) (data : List Byte) (arrived : Nat) (fcsOk : Bool)
  /-- PARSE_ENQUEUE (R154). A frame enters the parse queue once 256 bytes or the whole frame are buffered, or is dropped when the queue is full. -/
  | parseEnqueue (frame : Nat)
  /-- PARSE_DISPATCH (R156). A free parse context takes the oldest queued frame and loads its header window. -/
  | parseDispatch (slice : Nat)
  /-- PARSE_NOP (R161). The parse instruction NOP does nothing. -/
  | parseNop (slice : Nat) (engine : Nat) (context : Nat)
  /-- LDB (R161). The parse instruction LDB loads one window byte into a scratch register. -/
  | ldb (slice : Nat) (engine : Nat) (context : Nat)
  /-- LDH (R161). The parse instruction LDH loads two window bytes into a scratch register. -/
  | ldh (slice : Nat) (engine : Nat) (context : Nat)
  /-- LDW (R161). The parse instruction LDW loads four window bytes into a scratch register. -/
  | ldw (slice : Nat) (engine : Nat) (context : Nat)
  /-- LDP (R164). The parse instruction LDP loads a parameter, the frame length or the port position. -/
  | ldp (slice : Nat) (engine : Nat) (context : Nat)
  /-- MOVI (R161). The parse instruction MOVI loads an immediate value. -/
  | movi (slice : Nat) (engine : Nat) (context : Nat)
  /-- ADDI (R161). The parse instruction ADDI adds an immediate and sets Z and C. -/
  | addi (slice : Nat) (engine : Nat) (context : Nat)
  /-- ANDI (R161). The parse instruction ANDI masks with an immediate and sets Z. -/
  | andi (slice : Nat) (engine : Nat) (context : Nat)
  /-- SHI (R161). The parse instruction SHI shifts a register left or right. -/
  | shi (slice : Nat) (engine : Nat) (context : Nat)
  /-- ADD (R161). The parse instruction ADD adds two registers and sets Z and C. -/
  | add (slice : Nat) (engine : Nat) (context : Nat)
  /-- CMPI (R161). The parse instruction CMPI compares a register with an immediate. -/
  | cmpi (slice : Nat) (engine : Nat) (context : Nat)
  /-- CMP (R161). The parse instruction CMP compares two registers. -/
  | cmp (slice : Nat) (engine : Nat) (context : Nat)
  /-- ADV (R161). The parse instruction ADV advances the cursor. -/
  | adv (slice : Nat) (engine : Nat) (context : Nat)
  /-- BR (R162). The parse instruction BR branches when its condition holds. -/
  | br (slice : Nat) (engine : Nat) (context : Nat)
  /-- JTAB (R161). The parse instruction JTAB jumps through a table when the index is in range. -/
  | jtab (slice : Nat) (engine : Nat) (context : Nat)
  /-- CALL (R161). The parse instruction CALL pushes the return PC and jumps. -/
  | call (slice : Nat) (engine : Nat) (context : Nat)
  /-- RET (R161). The parse instruction RET pops the return PC. -/
  | ret (slice : Nat) (engine : Nat) (context : Nat)
  /-- STV (R161). The parse instruction STV stores register bytes into the header vector. -/
  | stv (slice : Nat) (engine : Nat) (context : Nat)
  /-- CPYV (R161). The parse instruction CPYV copies window bytes into the header vector. -/
  | cpyv (slice : Nat) (engine : Nat) (context : Nat)
  /-- SETL (R161). The parse instruction SETL records a layer offset and protocol. -/
  | setl (slice : Nat) (engine : Nat) (context : Nat)
  /-- CSUM (R161). The parse instruction CSUM checks a ones-complement sum. -/
  | csum (slice : Nat) (engine : Nat) (context : Nat)
  /-- MAL (R161). The parse instruction MAL raises a malformed class and may end the program. -/
  | mal (slice : Nat) (engine : Nat) (context : Nat)
  /-- CLS (R161). The parse instruction CLS sets the class and may end the program. -/
  | cls (slice : Nat) (engine : Nat) (context : Nat)
  /-- PARSE_STEP_LIMIT (R163). The step count reaches PARSE_STEP_LIMIT without an end, and the program ends as PROGRAM_FAULT with reason 2. -/
  | parseStepLimit (slice : Nat) (engine : Nat) (context : Nat)
  /-- PARSE_PROGRAM_END (R157). The program has ended: FLOW_HASH is computed, MAL_ACTION is applied, and the header vector is released in per-port order. -/
  | parseProgramEnd (slice : Nat) (engine : Nat) (context : Nat)
  /-- CLASSIFICATION_LOOKUP (R175). The rule table lookup completes, and the winning entry or RULE_MISS_ACTION decides the Flow Handle and learning. -/
  | classificationLookup (frame : Nat)
  /-- MAC_LATE_VERDICT (R172). The MAC gives its FCS_ERROR or OVERSIZE verdict at the frame end and applies MAL_ACTION to a frame still held. -/
  | macLateVerdict (frame : Nat)
  /-- PARSE_BANK_SWITCH (R159). A write of PARSE_BANK.SWITCH makes the inactive microcode bank active and starts the drain. -/
  | parseBankSwitch (agent : Agent) (slice : Nat)
  /-- PARSE_BANK_DRAINED (R159). The last frame dispatched on the old bank ends, and DRAINING clears. -/
  | parseBankDrained (slice : Nat)
  /-- RULE_COMMIT (R178). RULE_COMMIT with VALID = 1 copies the staged entry into the rule table and zeroes its hit count. -/
  | ruleCommit (agent : Agent) (slice : Nat) (slot : Nat) (value : Word)
  /-- RULE_INVALIDATE (R178). RULE_COMMIT with VALID = 0 clears the VALID bit of the entry. -/
  | ruleInvalidate (agent : Agent) (slice : Nat) (slot : Nat) (value : Word)
  /-- FRAME_HANDOFF (R32). The home slice receives a handed-off frame over the spine and decides its admission. -/
  | frameHandoff (frame : Nat)
  /-- QUEUED_POINT_DECISION (R74). A point without back-off (packet buffer pool, tag pool, HBM scheduler, cipher dispatch) grants its units to the nearest deadlines in a fabric cycle. -/
  | queuedPointDecision (slice : Nat) (point : Nat) (cycle : PointCycle)
  /-- ARBITRATION_CYCLE (R80). A destination with back-off ranks its requests, drives GRANT to one and BACKOFF to the others, and moves the previous winner's flit. -/
  | arbitrationCycle (hub : Bool) (slice : Nat) (dest : Nat) (reqs : List ArbReq) (ready : Bool)
  /-- BACKOFF_EXPIRE (R85). A requester's back-off count runs out, and it may present its request again. -/
  | backoffExpire (hub : Bool) (slice : Nat) (dest : Nat) (source : Nat)
  /-- ARB_CLASS_WRITE (R79). A write to ARB_DEADLINE or ARB_UNIT_CLASS starts its propagation and sets ARB_SYNC.PENDING. -/
  | arbClassWrite (agent : Agent) (addr : Nat) (value : Nat)
  /-- ARB_SYNC_DONE (R79). The last class write reaches every slice and the hub, and PENDING clears. -/
  | arbSyncDone
  /-- PB_COMMIT (R40). A write of PB_COMMIT.GO applies the staged minimums and maximums, or sets COMMIT_ERR. -/
  | pbCommit (agent : Agent) (slice : Nat)
  /-- SRAM_ERROR (R42). A SECDED read corrects a single-bit error, or counts and poisons a double-bit error. -/
  | sramError (slice : Nat) (addr : Nat) (double : Bool)
  /-- HBM_SCRUB (R43). The scrubber reads an HBM location on its 24-hour pass and completes passes. -/
  | hbmScrub (addr : Nat) (severity : Nat) (last : Bool)
  /-- TIME_PPS_EDGE (R52). A TIME_PPS rising edge is qualified, serves as an offset measurement, and may load the seconds count. -/
  | timePpsEdge (edge : PpsEdge)
  /-- PTP_MESSAGE_RECEIVE (R51). The Keeper's PTP client takes a Sync, Follow_Up or delay message and measures the offset. -/
  | ptpMessageReceive (port : Nat) (msg : PtpMsg)
  /-- REF_SOURCE_LOST (R54). A configured reference is declared lost, and the discipline machine moves to the other source, HOLDOVER or FREERUN. -/
  | refSourceLost (code : Nat) (loss : RefLoss)
  /-- HOLDOVER_EXPIRE (R55). FT_HOLDOVER_LIMIT seconds pass in HOLDOVER, and the state becomes FREERUN. -/
  | holdoverExpire
  /-- PRIMARY_RETURN (R56). The primary has been valid for 60 s while the backup is in use, and measurement returns to it. -/
  | primaryReturn
  /-- FT_SRC_RESELECT (R55). A write that changes the source fields or BACKUP_EN restarts measurement on the configured sources. -/
  | ftSrcReselect (agent : Agent) (addr : Nat) (value : Word)
  /-- HOST_LOCK_WRITE (R53). A change of FT_CTRL.HOST_LOCK under source 4 moves the state between ACQUIRE and LOCKED. -/
  | hostLockWrite (agent : Agent) (lock : Bool)
  /-- FT_STEP_WRITE (R58). A write to FT_STEP under source 4 or in FREERUN steps Fabric Time at the next tick. -/
  | ftStepWrite (agent : Agent) (value : Word)
  /-- FT_NOW_SEC_READ (R591). A read of FT_NOW_SEC latches the fraction into the reading agent's FT_NOW_FRAC. -/
  | ftNowSecRead (agent : Agent)
  /-- TW_ARM (R63). A 64-bit write of TW_ARM_CTRL inserts a firmware timer, or refuses it when the share is full. -/
  | twArm (agent : Agent) (slice : Nat) (ctrl : Word)
  /-- TW_LEAD_WRITE (R62). A write to TW_LEAD changes the lead of pending entries and delivers overdue ones at once. -/
  | twLeadWrite (agent : Agent) (slice : Nat) (value : Nat)
  /-- TIMER_DELIVER (R62). A timer wheel entry reaches its delivery instant TW_LEAD before expiry and goes to its consumer. -/
  | timerDeliver (slice : Nat)
  /-- TIMER_EXPIRY (R62). A held entry reaches its expiry instant and takes effect at its consumer. -/
  | timerExpiry (slice : Nat)
  /-- LAUNCH_RELEASE (R68). A launch-time frame reaches its launch instant, is tested for lock, and starts, or is handled as late. -/
  | launchRelease (slice : Nat) (egress : Nat)
  /-- FTREAD (R101). The FTREAD instruction returns the seconds with a fraction latch, the latched fraction, or FT_MONO. -/
  | ftread (slice : Nat) (cluster : Nat) (thread : Nat) (rd : Nat) (sel : Nat)
  /-- WAITSPIN (R99). The WAITSPIN instruction pauses the thread and sets its spinning mark. -/
  | waitspin (slice : Nat) (cluster : Nat) (thread : Nat)
  /-- WFI (R94). WFI executes exactly as WAITSPIN. -/
  | wfi (slice : Nat) (cluster : Nat) (thread : Nat)
  /-- WAITSPIN_PAUSE_END (R99). The WAITSPIN_PAUSE count runs out, and the thread is ready again. -/
  | waitspinPauseEnd (slice : Nat) (cluster : Nat) (thread : Nat)
  /-- SPIN_WINDOW_EXPIRE (R99). SPIN_WINDOW cycles pass without a WAITSPIN, and the spinning mark clears. -/
  | spinWindowExpire (slice : Nat) (cluster : Nat) (thread : Nat)
  /-- CHOPEN (R106). The CHOPEN instruction opens a FREE channel for writing or returns BUSY, DENIED or ALREADY_WRITING. -/
  | chopen (slice : Nat) (cluster : Nat) (thread : Nat) (rd : Nat) (rs1 : Nat)
  /-- CHPUT (R107). The CHPUT instruction appends a doubleword to the open channel, or traps. -/
  | chput (slice : Nat) (cluster : Nat) (thread : Nat) (rs1 : Nat) (rs2 : Nat)
  /-- CHCLOSE (R107). The CHCLOSE instruction fences and makes the message READY, or traps. -/
  | chclose (slice : Nat) (cluster : Nat) (thread : Nat) (rs1 : Nat)
  /-- CHGET (R108). The CHGET instruction returns status or a doubleword, and in modes 2 and 3 frees the channel. -/
  | chget (slice : Nat) (cluster : Nat) (thread : Nat) (rd : Nat) (rs1 : Nat)
  /-- CORE_INSTRUCTION (R89). A standard RV64IMAC, Zicsr, Zifencei, Zba or Zbb instruction executes under the memory regions and misalignment rules. -/
  | coreInstruction (slice : Nat) (cluster : Nat) (thread : Nat) (word : Nat)
  /-- COUNTER_CSR_READ (R544). A U-mode read of a counter CSR returns the counter when CTR_UREAD permits it, and zero otherwise. -/
  | counterCsrRead (slice : Nat) (cluster : Nat) (thread : Nat) (rd : Nat) (csr : Nat)
  /-- THREAD_TRAP (R113). A thread other than the Curator traps, stops in FAULTED and queues a fault record, which sets CFIP. -/
  | threadTrap (slice : Nat) (cluster : Nat) (thread : Nat) (code : Nat) (tval : Nat)
  /-- CURATOR_TRAP (R116). The Curator traps through mtvec, or, when nested, halts and raises CURATOR_FAULT to the Keeper. -/
  | curatorTrap (slice : Nat) (cluster : Nat) (interrupt : Bool) (code : Nat) (tval : Nat)
  /-- MRET (R116). MRET clears CURATOR_STATUS.IN_TRAP. -/
  | mret (slice : Nat) (cluster : Nat) (thread : Nat)
  /-- HW_CHANNEL_DELIVERY (R111). A hardware writer delivers a whole message to a channel, which defers it or loses it when the channel is not FREE. -/
  | hwChannelDelivery (slice : Nat) (cluster : Nat) (channel : Nat) (dws : List Nat)
  /-- DEFERRED_DELIVERY_RELEASE (R111). A channel becomes FREE, and the oldest deferred hardware message for it is delivered. -/
  | deferredDeliveryRelease (slice : Nat) (cluster : Nat) (channel : Nat)
  /-- CH_ABORT (R125). A write of CH_ABORT by the debug module or the Keeper discards the channel's message and frees the channel. -/
  | chAbort (agent : Agent) (slice : Nat) (cluster : Nat) (channel : Nat)
  /-- THREAD_RESUME (R114). The THREAD_CTRL command RESUME continues a stopped thread at THREAD_PC. -/
  | threadResume (agent : Agent) (slice : Nat) (cluster : Nat) (thread : Nat)
  /-- THREAD_RESTART (R114). The THREAD_CTRL command RESTART continues a thread with ABORTED clear and aborts its open channel. -/
  | threadRestart (agent : Agent) (slice : Nat) (cluster : Nat) (thread : Nat)
  /-- THREAD_PARK (R114). The THREAD_CTRL command PARK stops a thread in PARKED and aborts its open channel. -/
  | threadPark (agent : Agent) (slice : Nat) (cluster : Nat) (thread : Nat)
  /-- FAULT_POP (R113). A write of FAULT_POP moves the oldest fault record into the FAULT registers. -/
  | faultPop (agent : Agent) (slice : Nat) (cluster : Nat)
  /-- CLUSTER_CTRL_GO (R97). A write of CLUSTER_CTRL.GO starts the Curator in M-mode at CURATOR_ENTRY. -/
  | clusterCtrlGo (agent : Agent) (slice : Nat) (cluster : Nat)
  /-- CLUSTER_CTRL_RESET (R123). A write of CLUSTER_CTRL.RESET starts a cluster reset: issue stops, channels free, caches are written back and invalidated. -/
  | clusterCtrlReset (agent : Agent) (slice : Nat) (cluster : Nat)
  /-- CLUSTER_RESET_DONE (R123). The cluster reset finishes, every thread is PARKED and CLUSTER_STATE reads PARKED. -/
  | clusterResetDone (slice : Nat) (cluster : Nat)
  /-- CLUSTER_STALL (R120). SPIN_COUNT reaches SPIN_LIMIT, and one CLUSTER_STALL record is queued for the Curator. -/
  | clusterStall (slice : Nat) (cluster : Nat)
  /-- CLUSTER_DEADLOCK (R121). DEADLOCK_COUNT reaches SPIN_LIMIT, the Keeper is notified, and CLUSTER_STATE becomes DEADLOCKED. -/
  | clusterDeadlock (slice : Nat) (cluster : Nat)
  /-- KEEPER_DEADLOCK_ACTION (R122). The Keeper logs CLUSTER_DEADLOCK or CURATOR_FAULT and applies its deadlock action: log, dump, or dump and reset. -/
  | keeperDeadlockAction (slice : Nat) (cluster : Nat)
  /-- DEBUG_HALT (R124). A debug halt request, trigger or EBREAK halts the selected thread and clears its spinning mark. -/
  | debugHalt (slice : Nat) (cluster : Nat) (thread : Nat) (cause : Nat)
  /-- DEBUG_RESUME (R124). The debugger resumes a halted thread, applying any pending THREAD_CTRL command. -/
  | debugResume (slice : Nat) (cluster : Nat) (thread : Nat)
  /-- SQ_DOORBELL (R137). A submission doorbell is checked against head and tail and accepted, or ignored as OVERRUN, STALE or INACTIVE. -/
  | sqDoorbell (inst : Nat) (ring : Nat) (value : Nat)
  /-- CQ_HEAD_DOORBELL (R137). A completion head doorbell is checked and, when accepted, releases slots so that held completions are written. -/
  | cqHeadDoorbell (inst : Nat) (ring : Nat) (value : Nat)
  /-- DESCRIPTOR_FETCH (R139). Fetched descriptors return, are checked for phase and chaining, and complete a job once LAST has arrived. -/
  | descriptorFetch (slice : Nat) (ring : Nat) (count : Nat)
  /-- JOB_START (R143). A fetched job starts when a completion credit is available, and its published head advances. -/
  | jobStart (slice : Nat) (ring : Nat)
  /-- COMPLETION_WRITE (R144). A finished job's completion is written to its ring after its data, or joins the holding area. -/
  | completionWrite (slice : Nat) (ring : Nat)
  /-- RING_MOD_TIMER (R147). The MOD_TIME timer expires, and the completion ring signals its unsignalled completions. -/
  | ringModTimer (slice : Nat) (ring : Nat)
  /-- NOP (R130). The ring opcode NOP completes with SUCCESS. -/
  | nop (slice : Nat) (ring : Nat)
  /-- TX_FRAME (R151). The ring opcode TX_FRAME checks and queues one frame for a port, with optional launch time and timestamping. -/
  | txFrame (slice : Nat) (ring : Nat)
  /-- FRAME_TRANSMITTED (R61). A frame leaves its egress port with any one-step timestamp written, and its transmit completion carries the bytes or the two-step timestamp. -/
  | frameTransmitted (egress : Nat)
  /-- RX_POST (R152). The ring opcode RX_POST posts one receive buffer for frames steered to the ring. -/
  | rxPost (slice : Nat) (ring : Nat)
  /-- SR_ENABLE (R148). A write of SR_CTRL.ENABLE = 1 activates a submission ring, or puts it in ERROR for a bad configuration or quota. -/
  | srEnable (agent : Agent) (slice : Nat) (ring : Nat)
  /-- SR_DISABLE (R148). A write of SR_CTRL.ENABLE = 0 stops starting jobs and moves the ring to STOPPING or DISABLED. -/
  | srDisable (agent : Agent) (slice : Nat) (ring : Nat)
  /-- CR_ENABLE (R148). A write of CR_CTRL.ENABLE = 1 activates a completion ring, or puts it in ERROR for a bad configuration, commit or quota. -/
  | crEnable (agent : Agent) (slice : Nat) (ring : Nat)
  /-- CR_DISABLE (R148). A write of CR_CTRL.ENABLE = 0, with every bound submission ring DISABLED, disables the ring and discards its held entries. -/
  | crDisable (agent : Agent) (slice : Nat) (ring : Nat)
  /-- RING_DRAINED (R148). The last started job of a STOPPING or ERROR ring retires, and the ring publishes its head and becomes DISABLED. -/
  | ringDrained (slice : Nat) (ring : Nat)
  /-- CATALOGUE_LOOKUP (R186). An operation reads its Catalogue entry in its home slice and is steered, transformed or dropped as the entry says. -/
  | catalogueLookup (frame : Nat)
  /-- CATALOGUE_WRITEBACK (R194). A lookup's write-back of HIT, the counters and STATE lands on the entry, with STATE discarded on a GEN mismatch. -/
  | catalogueWriteback (slice : Nat)
  /-- DELIVER_RELEASE (R191). DELIVER_CTRL OP 1 frees the frame's cells and its token. -/
  | deliverRelease (agent : Agent) (slice : Nat) (value : Word)
  /-- DELIVER_RESUBMIT (R191). DELIVER_CTRL OP 2 restarts the frame as a new operation on HANDLE and frees the token. -/
  | deliverResubmit (agent : Agent) (slice : Nat) (value : Word)
  /-- CAT_COMMIT (R192). CAT_COMMIT with INVALIDATE = 0 copies the staged entry into the quarter, keeping the selected fields. -/
  | catCommit (agent : Agent) (slice : Nat) (slot : Nat) (value : Word)
  /-- CAT_INVALIDATE (R192). CAT_COMMIT with INVALIDATE = 1 clears the entry's VALID bit and advances GEN. -/
  | catInvalidate (agent : Agent) (slice : Nat) (slot : Nat) (value : Word)
  /-- CAT_READ (R195). A write of CAT_READ snapshots an entry into CAT_SNAP, optionally clearing its counters and HIT. -/
  | catRead (agent : Agent) (slice : Nat) (slot : Nat) (value : Word)
  /-- ADDR_LOOKUP (R199). An Address Table lookup completes and resolves an ACTION 3 frame's handle or its Korrum Link destination. -/
  | addrLookup (frame : Nat)
  /-- INSERT_STATIC (R200). ADDR_CMD OP 1 inserts or overwrites a static entry. -/
  | insertStatic (agent : Agent) (slice : Nat) (slot : Nat)
  /-- ADDR_DELETE (R200). ADDR_CMD OP 2 deletes the key's entry and withdraws it. -/
  | addrDelete (agent : Agent) (slice : Nat) (slot : Nat)
  /-- ADDR_CMD_LOOKUP (R200). ADDR_CMD OP 3 copies the key's entry into ADDR_STAGE. -/
  | addrCmdLookup (agent : Agent) (slice : Nat) (slot : Nat)
  /-- FLUSH_PORT (R200). ADDR_CMD OP 4 removes the non-static local entries of a port. -/
  | flushPort (agent : Agent) (slice : Nat) (slot : Nat)
  /-- FLUSH_BD (R200). ADDR_CMD OP 5 removes the non-static entries of a bridge domain. -/
  | flushBd (agent : Agent) (slice : Nat) (slot : Nat)
  /-- FLUSH_DYNAMIC (R200). ADDR_CMD OP 6 removes every non-static entry. -/
  | flushDynamic (agent : Agent) (slice : Nat) (slot : Nat)
  /-- LEARN (R201). The learning unit takes a learn request and refreshes, moves, inserts or refuses the source address. -/
  | learn (slice : Nat)
  /-- PROVENANCE_LEARN (R206). A received LEARN message replaces the entry by the stamp rules, or is discarded as stale. -/
  | provenanceLearn (slice : Nat)
  /-- PROVENANCE_REFRESH (R206). A received REFRESH updates LAST_SEEN, or is handled as a LEARN. -/
  | provenanceRefresh (slice : Nat)
  /-- PROVENANCE_WITHDRAW (R207). A received WITHDRAW removes the matching entry, or is discarded. -/
  | provenanceWithdraw (slice : Nat)
  /-- ADDR_AGEING_VISIT (R208). The ageing pass visits an entry and removes it when it has not been seen for ADDR_AGE_TIME. -/
  | addrAgeingVisit (slice : Nat) (slot : Nat)
  /-- ROOT_KEY_GENERATE (R213). The ROOT_KEY_GENERATE opcode loads an EMPTY slot from the hub DRBG and persists it. -/
  | rootKeyGenerate
  /-- ROOT_KEY_IMPORT (R215). The ROOT_KEY_IMPORT opcode unwraps an export blob into an EMPTY slot. -/
  | rootKeyImport
  /-- ROOT_KEY_INSTALL (R213). The ROOT_KEY_INSTALL opcode loads a clear key over MCTP while ROOT_PROVISION is unburnt. -/
  | rootKeyInstall
  /-- ROOT_KEY_EXPORT (R215). The ROOT_KEY_EXPORT opcode returns the 80-byte wrapped blob of an exportable slot. -/
  | rootKeyExport
  /-- ROOT_KEY_ERASE (R217). The ROOT_KEY_ERASE opcode moves a slot to ERASING and invalidates its cached keys. -/
  | rootKeyErase
  /-- ROOT_KEY_ERASE_DONE (R217). The last job that holds the slot's key retires, the slot becomes EMPTY, and the erase reply is sent. -/
  | rootKeyEraseDone (slot : Nat)
  /-- ROOT_KEY_RESTORE (R246). The ROOT_KEY_RESTORE opcode reloads the slots after the automatic reloads are used up. -/
  | rootKeyRestore
  /-- ROOT_KEY_STATUS (R520). The ROOT_KEY_STATUS opcode returns the eight ROOT_SLOT words. -/
  | rootKeyStatus
  /-- RNG_STARTUP_TEST (R218). The entropy start-up test passes, and every DRBG is seeded and dispatch resumes. -/
  | rngStartupTest
  /-- RNG_HEALTH_FAIL (R220). A continuous health test fails, every DRBG stops and cipher dispatch halts. -/
  | rngHealthFail
  /-- DRBG_RESEED (R219). A slice DRBG reseeds after 2^20 requests or 1 s. -/
  | drbgReseed (slice : Nat)
  /-- MASK_RESEED (R241). An AES core's mask stream is reseeded every 65,536 fabric cycles. -/
  | maskReseed (slice : Nat) (pair : Nat) (core : Nat)
  /-- RENNET_DERIVATION (R224). A derivation unit completes a derivation on both paths, compares them and fills the key cache. -/
  | rennetDerivation (slice : Nat) (unit : Nat) (equal : Bool)
  /-- ENCRYPT (R238). The cipher opcode ENCRYPT writes ciphertext, with a tag for GCM. -/
  | encrypt (slice : Nat) (ring : Nat)
  /-- DECRYPT (R238). The cipher opcode DECRYPT writes plaintext after tag verification for GCM. -/
  | decrypt (slice : Nat) (ring : Nat)
  /-- CMAC_GEN (R238). The cipher opcode CMAC_GEN writes a 16-byte tag. -/
  | cmacGen (slice : Nat) (ring : Nat)
  /-- CMAC_VERIFY (R238). The cipher opcode CMAC_VERIFY checks a tag against IV_TWEAK. -/
  | cmacVerify (slice : Nat) (ring : Nat)
  /-- KEY_BIND (R229). The cipher opcode KEY_BIND masks a session key into the Bound Key Table and returns its LABEL. -/
  | keyBind (slice : Nat) (ring : Nat)
  /-- KEY_UNBIND (R229). The cipher opcode KEY_UNBIND zeroes a bound record and invalidates its cache entries. -/
  | keyUnbind (slice : Nat) (ring : Nat)
  /-- RNG_FILL (R238). The cipher opcode RNG_FILL writes DRBG bytes. -/
  | rngFill (slice : Nat) (ring : Nat)
  /-- ESP_OUT (R233). The inline transform ESP_OUT assigns a sequence number and encrypts an outbound ESP frame. -/
  | espOut (frame : Nat)
  /-- ESP_IN (R233). The inline transform ESP_IN checks the replay window, verifies and decrypts an inbound ESP frame. -/
  | espIn (frame : Nat)
  /-- TLS_OUT (R234). The inline transform TLS_OUT encrypts one TLS record in an outbound frame. -/
  | tlsOut (frame : Nat)
  /-- TLS_IN (R234). The inline transform TLS_IN decrypts an in-sequence whole record, or passes the frame on unchanged. -/
  | tlsIn (frame : Nat)
  /-- PAIR_JOB_DONE (R242). A cipher pair finishes a job, compares both cores' results and releases the output, or raises an alarm. -/
  | pairJobDone (slice : Nat) (pair : Nat) (equal : Bool)
  /-- TAMPER (R244). A tamper detector trips, erasing the root key store, every cache and every pair. -/
  | tamper (detectors : Nat)
  /-- TAMPER_RELOAD (R246). Every detector has been in window for 1 s, and the Keeper reloads the root slots, at most three times in 24 h. -/
  | tamperReload (bad : List Nat)
  /-- PAIR_SELFTEST_DONE (R245). A pair's known-answer self-test ends, and the pair becomes ONLINE or FAILED. -/
  | pairSelftestDone (slice : Nat) (pair : Nat) (pass : Bool)
  /-- CIPHER_SELFTEST (R245). A Keeper write of a CIPHER_SELFTEST bit starts a self-test of a FAILED pair. -/
  | cipherSelftest (agent : Agent) (slice : Nat) (value : Word)
  /-- KRA_WRITE (R265). The work request KRA_WRITE sends a remote write on its queue pair. -/
  | kraWrite (slice : Nat) (ring : Nat)
  /-- KRA_WRITE_IMM (R265). The work request KRA_WRITE_IMM sends a remote write with an immediate value. -/
  | kraWriteImm (slice : Nat) (ring : Nat)
  /-- KRA_SEND (R265). The work request KRA_SEND sends a message into the peer's receive buffer. -/
  | kraSend (slice : Nat) (ring : Nat)
  /-- KRA_READ (R265). The work request KRA_READ reads remote memory into a local buffer. -/
  | kraRead (slice : Nat) (ring : Nat)
  /-- KRA_RECV_POST (R266). The work request KRA_RECV_POST posts a receive buffer for SEND messages. -/
  | kraRecvPost (slice : Nat) (ring : Nat)
  /-- MR_REGISTER (R275). The work request MR_REGISTER creates a registration and returns its access key. -/
  | mrRegister (slice : Nat) (ring : Nat)
  /-- MR_REVOKE (R279). The work request MR_REVOKE moves a registration to DRAINING. -/
  | mrRevoke (slice : Nat) (ring : Nat)
  /-- REVOKE_DRAINED (R279). INFLIGHT reaches zero, the registration becomes FREE, and the revoke completes. -/
  | revokeDrained (key : Nat)
  /-- KRA_DRAIN_LIMIT (R279). KRA_DRAIN_LIMIT passes before the drain ends, and the revoke completes with REVOKE_FORCED. -/
  | kraDrainLimit (key : Nat)
  /-- KRA_PACKET_SEND (R267). The requester sends the next request packet within its window, encrypted with a fresh TX_COUNT. -/
  | kraPacketSend (slice : Nat) (qp : Nat)
  /-- KRA_CONTEXT_FETCH_DONE (R257). A queue-pair context fetch completes, and the packets waiting in the context-miss buffer proceed or are dropped. -/
  | kraContextFetchDone (slice : Nat) (qp : Nat)
  /-- WRITE (R268). A received WRITE packet is authenticated, sequence-checked, key-checked and placed. -/
  | write (frame : Nat)
  /-- WRITE_IMM (R273). A received WRITE_IMM packet is placed and writes the responder completion on its LAST packet. -/
  | writeImm (frame : Nat)
  /-- SEND (R266). A received SEND packet fills the next receive buffer, or draws NAK RNR. -/
  | send (frame : Nat)
  /-- READ_REQ (R284). A received READ_REQ is key-checked and answered with READ_RESP packets. -/
  | readReq (frame : Nat)
  /-- READ_RESP (R284). A received READ_RESP is placed when its RSN belongs to the current issue, and discarded otherwise. -/
  | readResp (frame : Nat)
  /-- ACK (R271). A received ACK advances SEQ_UNACKED and completes jobs in ring order. -/
  | ack (frame : Nat)
  /-- NAK (R287). A received NAK retransmits, waits for RNR, or fails the job and puts the queue pair in ERROR. -/
  | nak (frame : Nat)
  /-- ACCESS_KEY_CHECK (R276). The registration unit of the key's home slice checks the state word and the entry, and raises INFLIGHT or fails the access. -/
  | accessKeyCheck (frame : Nat)
  /-- ACCESS_RETIRE (R276). A checked access writes or reads its last byte and lowers INFLIGHT. -/
  | accessRetire (frame : Nat)
  /-- KRA_ACK_DELAY (R270). KRA_ACK_DELAY passes after the oldest unacknowledged request, and an ACK is sent. -/
  | kraAckDelay (slice : Nat) (qp : Nat)
  /-- RETRY_TIMEOUT (R285). The retransmit timer expires: RETRY_COUNT rises and unacknowledged packets are resent, or the job fails with RETRY_EXCEEDED. -/
  | retryTimeout (slice : Nat) (qp : Nat)
  /-- RNR_TIMER (R286). The RNR wait ends, and retransmission from ACK_SEQ starts. -/
  | rnrTimer (slice : Nat) (qp : Nat)
  /-- QP_CREATE (R289). KRA_QP_CMD CREATE writes a context from the stage and puts the queue pair in INIT. -/
  | qpCreate (agent : Agent) (slice : Nat) (qp : Nat)
  /-- QP_ACTIVATE (R289). KRA_QP_CMD ACTIVATE moves the queue pair to ACTIVE and starts waiting jobs. -/
  | qpActivate (agent : Agent) (slice : Nat) (qp : Nat)
  /-- QP_MODIFY (R289). KRA_QP_CMD MODIFY changes the permitted context fields. -/
  | qpModify (agent : Agent) (slice : Nat) (qp : Nat)
  /-- QP_QUERY (R289). KRA_QP_CMD QUERY copies the context into the stage. -/
  | qpQuery (agent : Agent) (slice : Nat) (qp : Nat)
  /-- QP_DRAIN (R289). KRA_QP_CMD DRAIN flushes jobs not yet sent and moves the queue pair to SQ_DRAIN. -/
  | qpDrain (agent : Agent) (slice : Nat) (qp : Nat)
  /-- QP_DRAIN_DONE (R289). No packet is left unacknowledged, and the DRAIN result becomes done. -/
  | qpDrainDone (slice : Nat) (qp : Nat)
  /-- QP_RESET (R289). KRA_QP_CMD RESET releases the context and discards the cached copy. -/
  | qpReset (agent : Agent) (slice : Nat) (qp : Nat)
  /-- QP_ERROR (R289). KRA_QP_CMD ERROR puts the queue pair in ERROR and flushes its jobs. -/
  | qpError (agent : Agent) (slice : Nat) (qp : Nat)
  /-- KL_ENABLE (R301). A write of KL_CTRL.ENABLE = 1 moves a Korrum Link port to DETECT. -/
  | klEnable (agent : Agent) (port : Nat)
  /-- KL_DISABLE (R301). A write of ENABLE = 0 discards the port's replay buffer and partial packets and disables it. -/
  | klDisable (agent : Agent) (port : Nat)
  /-- KL_SIGNAL_DETECT (R301). Signal on all four lanes moves the port to EQUALISE. -/
  | klSignalDetect (port : Nat)
  /-- KL_TRAINING_COMPLETE (R301). Training completes on all lanes within 500 ms, and the port moves to ALIGN. -/
  | klTrainingComplete (port : Nat)
  /-- KL_EQUALISE_TIMEOUT (R301). 500 ms pass in EQUALISE, and the port returns to DETECT. -/
  | klEqualiseTimeout (port : Nat)
  /-- KL_ALIGN_LOCK (R301). FEC, deskew and block lock are reached, and the port moves to NEGOTIATE. -/
  | klAlignLock (port : Nat)
  /-- LINK_CAPS (R302). The LINK_CAPS exchange and proof complete, and the link becomes ACTIVE or REFUSED. -/
  | linkCaps (port : Nat) (caps : PeerCaps)
  /-- KL_LINK_FAULT (R301). The replay limit, a loss of lock or too many uncorrectable codewords move an ACTIVE port to RETRAIN. -/
  | klLinkFault (port : Nat) (lost : Bool)
  /-- KL_RETRAIN_LOCK (R301). Lock returns within 10 ms in RETRAIN, and the port moves to NEGOTIATE. -/
  | klRetrainLock (port : Nat)
  /-- KL_RETRAIN_TIMEOUT (R301). 10 ms pass in RETRAIN, and the port returns to DETECT. -/
  | klRetrainTimeout (port : Nat)
  /-- KL_REFUSED_RETRY (R301). 1 s passes in REFUSED, and the negotiation is repeated. -/
  | klRefusedRetry (port : Nat)
  /-- LINK_BLOCK_SEND (R296). An ACTIVE port sends its next link block with current ACK_SEQ and credits. -/
  | linkBlockSend (port : Nat) (vcs : List Nat)
  /-- LINK_BLOCK_RECEIVE (R299). A received link block is accepted or discarded, and its acknowledgement, retry request and credits are applied. -/
  | linkBlockReceive (port : Nat) (block : List Byte)
  /-- REPLAY_TIMEOUT (R299). 4 µs pass with blocks held and no ACK_SEQ advance, and the sender replays. -/
  | replayTimeout (port : Nat)
  /-- KORRUM_PACKET_RECEIVE (R305). A complete Korrum Link packet is delivered locally, switched in transit, or dropped. -/
  | korrumPacketReceive (port : Nat)
  /-- JOIN_REQ (R308). The master receives JOIN_REQ and admits the device by a move, or refuses it. -/
  | joinReq (src : Nat) (own : Nat) (links : Nat) (eligible : Bool)
  /-- JOIN_REFUSE (R308). A joining device receives JOIN_REFUSE and returns to ALONE. -/
  | joinRefuse (reason : Nat)
  /-- FED_ALONE_TIMEOUT (R308). 2 s pass ALONE with no member link, and an eligible device becomes master of a federation of one. -/
  | fedAloneTimeout
  /-- FED_JOIN_RETRY (R308). 10 s after a refusal, the device sends JOIN_REQ again. -/
  | fedJoinRetry
  /-- FED_LEAVE (R308). The FED_LEAVE opcode sends LEAVE_REQ and moves the device to LEAVING. -/
  | fedLeave
  /-- LEAVE_REQ (R308). The master receives LEAVE_REQ and makes the move that removes the member. -/
  | leaveReq (src : Nat)
  /-- DISSOLVE (R310). A member receives DISSOLVE, drops its bindings and routes, and returns to ALONE. -/
  | dissolve (src : Nat)
  /-- MOVE_BEGIN (R309). A member receives MOVE_BEGIN, computes its routes and answers MOVE_READY. -/
  | moveBegin (m : MoveMsg)
  /-- MOVE_READY (R309). The master receives a MOVE_READY answer. -/
  | moveReady (src : Nat) (gen : Nat)
  /-- MOVE_SWITCH (R309). T_SWITCH arrives: members install their routes, or the master starts a new move without the unready members. -/
  | moveSwitch
  /-- HEARTBEAT_TIMER (R310). Every 10 ms the master sends HEARTBEAT and declares lost a member that has missed three answers. -/
  | heartbeatTimer
  /-- HEARTBEAT (R310). A member receives HEARTBEAT and answers with its OWN_EPOCH and state. -/
  | heartbeat (src : Nat)
  /-- HEARTBEAT_ANSWER (R310). The master receives a member's heartbeat answer. -/
  | heartbeatAnswer (src : Nat) (own : Nat) (boot : Nat) (links : Nat) (eligible : Bool)
  /-- MASTER_LOSS (R310). A member misses three heartbeats, declares the master lost and sends MASTER_CLAIM. -/
  | masterLoss
  /-- MASTER_CLAIM (R310). A member receives a MASTER_CLAIM and adopts the lowest claim within 20 ms. -/
  | masterClaim (id : Nat)
  /-- FE_DOORBELL (R313). The home receives a forwarded doorbell or NVMe register write and checks it as if it were local. -/
  | feDoorbell
  /-- FE_READ (R313). The anchor receives FE_READ, translates it and reads host memory for the home. -/
  | feRead
  /-- FE_READ_CPL (R313). The home receives FE_READ_CPL and retires the read tag, or discards a late completion. -/
  | feReadCpl
  /-- FE_WRITE (R313). The anchor receives FE_WRITE and issues it to PCIe in order. -/
  | feWrite
  /-- FE_MSI (R313). The anchor receives FE_MSI and signals the function's vector. -/
  | feMsi
  /-- FE_BME_OFF (R315). The home receives FE_CONTROL BME_OFF and applies Bus Master Enable clear to the instance. -/
  | feBmeOff
  /-- FE_BME_ON (R312). The home receives FE_CONTROL BME_ON. -/
  | feBmeOn
  /-- FE_FLR (R315). The home receives FE_CONTROL FLR, applies a local reset and answers FLR_DONE. -/
  | feFlr
  /-- FE_FLR_DONE (R315). The anchor receives FE_CONTROL FLR_DONE. -/
  | feFlrDone
  /-- FE_FLR_TIMEOUT (R315). 50 ms pass without FLR_DONE, and the anchor handles the binding as home-lost. -/
  | feFlrTimeout (inst : Nat)
  /-- FE_UNBOUND (R314). An end receives FE_CONTROL UNBOUND and moves its side of the binding to DETACHED. -/
  | feUnbound
  /-- FE_MMIO_READ (R313). The home receives FE_CONTROL MMIO_READ and answers MMIO_CPL. -/
  | feMmioRead
  /-- FE_MMIO_CPL (R313). The anchor receives MMIO_CPL and completes the host read. -/
  | feMmioCpl
  /-- FE_MMIO_TIMEOUT (R313). 1 ms passes without MMIO_CPL, and the anchor completes the read with all bits set. -/
  | feMmioTimeout (inst : Nat)
  /-- FE_READ_TIMEOUT (R313). FE_READ_TIMEOUT passes without a completion, and the home retires the read with FED_ANCHOR_TIMEOUT. -/
  | feReadTimeout (rtag : Nat)
  /-- FE_SEQ_GAP_TIMEOUT (R314). An FE_SEQ gap lasts 200 µs, and the binding enters ERROR with FED_FE_LOSS. -/
  | feSeqGapTimeout (anchor : Bool) (inst : Nat)
  /-- TIME_SYNC_TIMER (R318). An upstream port sends TIME_SYNC 64 times a second. -/
  | timeSyncTimer (port : Nat)
  /-- TIME_SYNC (R318). A downstream port receives TIME_SYNC, stamps it and answers TIME_DELAY_REQ. -/
  | timeSync (port : Nat) (ftState : Nat)
  /-- TIME_DELAY_REQ (R318). The upstream port receives TIME_DELAY_REQ and returns TIME_DELAY_RESP. -/
  | timeDelayReq (port : Nat)
  /-- TIME_DELAY_RESP (R318). The downstream port receives TIME_DELAY_RESP and computes the offset and link delay as a source 3 measurement. -/
  | timeDelayResp (port : Nat) (t1 : Nat) (t4 : Nat)
  /-- EPOCH_RAISE (R320). A member receives EPOCH_RAISE and answers EPOCH_ACK. -/
  | epochRaise (epoch : Nat) (tRaise : Nat)
  /-- EPOCH_ACK (R320). The master receives an EPOCH_ACK. -/
  | epochAck (src : Nat) (epoch : Nat)
  /-- EPOCH_ABORT (R320). A member receives EPOCH_ABORT and cancels the pending raise. -/
  | epochAbort
  /-- T_RAISE (R320). T_RAISE arrives, and acknowledged members move to the new epoch, or the master aborts when an ACK is missing at T_RAISE − 10 ms. -/
  | tRaise
  /-- NVME_SQ_DOORBELL (R336). An NVMe submission tail doorbell is checked and recorded, or ignored with an asynchronous event. -/
  | nvmeSqDoorbell (inst : Nat) (qid : Nat) (value : Nat)
  /-- NVME_CQ_DOORBELL (R336). An NVMe completion head doorbell is checked and releases entries, or is ignored. -/
  | nvmeCqDoorbell (inst : Nat) (qid : Nat) (value : Nat)
  /-- NVME_COMMAND_FETCH (R335). The fetch unit takes the nearest-deadline SQ and fetches commands while CQ room allows. -/
  | nvmeCommandFetch (slice : Nat)
  /-- NVME_COMPLETION_POST (R337). A command's completion is posted after its data, followed by its interrupt. -/
  | nvmeCompletionPost (inst : Nat) (sq : Nat) (cid : Nat)
  /-- NVME_COALESCE_TIMER (R337). The interrupt coalescing time limit expires, and the vector is signalled. -/
  | nvmeCoalesceTimer (inst : Nat) (vector : Nat)
  /-- DELETE_IO_SQ (R338). Delete I/O SQ aborts fetched commands that were not issued and deletes the queue. -/
  | deleteIoSq (inst : Nat) (cid : Nat)
  /-- DELETE_IO_CQ (R338). Delete I/O CQ deletes the queue, or fails while an SQ is still bound. -/
  | deleteIoCq (inst : Nat) (cid : Nat)
  /-- CREATE_IO_SQ (R334). Create I/O SQ places a queue in its CQ's slice. -/
  | createIoSq (inst : Nat) (cid : Nat)
  /-- CREATE_IO_CQ (R334). Create I/O CQ places a queue in the slice that NVME_CQ_SLICE names. -/
  | createIoCq (inst : Nat) (cid : Nat)
  /-- GET_LOG_PAGE (R330). Get Log Page returns a supported standard or vendor page. -/
  | getLogPage (inst : Nat) (cid : Nat)
  /-- NVME_IDENTIFY (R331). Identify returns the controller, namespace or list structure. -/
  | nvmeIdentify (inst : Nat) (cid : Nat)
  /-- NVME_ABORT (R338). Abort completes a command that was not issued with Command Abort Requested, or refuses. -/
  | nvmeAbort (inst : Nat) (cid : Nat)
  /-- SET_FEATURES (R329). Set Features sets a supported feature. -/
  | setFeatures (inst : Nat) (cid : Nat)
  /-- GET_FEATURES (R329). Get Features returns a supported feature. -/
  | getFeatures (inst : Nat) (cid : Nat)
  /-- ASYNC_EVENT_REQUEST (R336). Asynchronous Event Request waits to report a pending event. -/
  | asyncEventRequest (inst : Nat) (cid : Nat)
  /-- NAMESPACE_MANAGEMENT (R325). Namespace Management creates or deletes a namespace. -/
  | namespaceManagement (inst : Nat) (cid : Nat)
  /-- NAMESPACE_ATTACHMENT (R324). Namespace Attachment attaches or detaches controllers. -/
  | namespaceAttachment (inst : Nat) (cid : Nat)
  /-- DEVICE_SELF_TEST (R345). Device Self-test starts a short or extended test, or aborts the running one. -/
  | deviceSelfTest (inst : Nat) (cid : Nat)
  /-- SELFTEST_STEP (R347). A self-test step runs on one idle die or pair, and the test ends at a failing segment or its last one. -/
  | selftestStep (pass : Bool) (waitNs : Option Nat)
  /-- FORMAT_NVM (R342). Format NVM deallocates or erases a namespace cryptographically. -/
  | formatNvm (inst : Nat) (cid : Nat)
  /-- FLUSH (R340). Flush completes once every earlier completed write is durable. -/
  | flush (inst : Nat) (sq : Nat) (cid : Nat)
  /-- NVME_WRITE (R340). Write admits its pieces to the protected write buffer and completes. -/
  | nvmeWrite (inst : Nat) (sq : Nat) (cid : Nat)
  /-- NVME_READ (R379). Read returns the newest committed data from the buffer or from flash. -/
  | nvmeRead (inst : Nat) (sq : Nat) (cid : Nat)
  /-- WRITE_ZEROES (R377). Write Zeroes enters the buffer as trim records. -/
  | writeZeroes (inst : Nat) (sq : Nat) (cid : Nat)
  /-- DATASET_MANAGEMENT (R377). Dataset Management deallocates ranges as trim records. -/
  | datasetManagement (inst : Nat) (sq : Nat) (cid : Nat)
  /-- VERIFY (R356). Verify reads and decodes a range and, on Accession namespaces, recomputes the seal chains. -/
  | verify (inst : Nat) (sq : Nat) (cid : Nat)
  /-- ZONE_OPEN (R351). The zone action Open opens a zone, fixing retention on an Accession zone. -/
  | zoneOpen (inst : Nat) (sq : Nat) (cid : Nat)
  /-- ZONE_CLOSE (R328). The zone action Close closes a zone. -/
  | zoneClose (inst : Nat) (sq : Nat) (cid : Nat)
  /-- ZONE_FINISH (R328). The zone action Finish finishes a zone. -/
  | zoneFinish (inst : Nat) (sq : Nat) (cid : Nat)
  /-- ZONE_RESET (R352). The zone action Reset resets a zone, refused on an Accession zone before retention passes. -/
  | zoneReset (inst : Nat) (sq : Nat) (cid : Nat)
  /-- ZONE_OFFLINE (R350). The zone action Offline takes a zone offline, denied on Accession namespaces. -/
  | zoneOffline (inst : Nat) (sq : Nat) (cid : Nat)
  /-- SET_ZONE_DESCRIPTOR_EXTENSION (R351). Set Zone Descriptor Extension sets the descriptor extension and RETAIN_UNTIL. -/
  | setZoneDescriptorExtension (inst : Nat) (sq : Nat) (cid : Nat)
  /-- REPORT_ZONES (R328). Zone Management Receive Report Zones returns zone descriptors. -/
  | reportZones (inst : Nat) (sq : Nat) (cid : Nat)
  /-- EXTENDED_REPORT_ZONES (R351). Extended Report Zones returns descriptors with their extensions. -/
  | extendedReportZones (inst : Nat) (sq : Nat) (cid : Nat)
  /-- ZONE_APPEND (R355). Zone Append places a record at the write pointer and seals it on Accession zones. -/
  | zoneAppend (inst : Nat) (sq : Nat) (cid : Nat)
  /-- SEAL_COMPUTE (R354). A record's seal is computed once its predecessor's seal is done. -/
  | sealCompute (nsid : Nat) (zone : Nat) (alarm : Bool)
  /-- ACCESSION_READ (R355). Accession Read returns a record and its 128-byte seal trailer. -/
  | accessionRead (inst : Nat) (sq : Nat) (cid : Nat)
  /-- CC_ENABLE (R334). CC.EN going from 0 to 1 enables the controller, or sets CSTS.CFS for a wrong CC.CSS. -/
  | ccEnable (inst : Nat) (cc : Nat)
  /-- CC_DISABLE (R339). CC.EN going from 1 to 0 stops fetching, suppresses completions and deletes the I/O queues. -/
  | ccDisable (inst : Nat) (cc : Nat)
  /-- CC_SHUTDOWN (R339). A write of CC.SHN sets CSTS.SHST to complete. -/
  | ccShutdown (inst : Nat) (cc : Nat)
  /-- APST_IDLE_TIMER (R533). The Autonomous Power State Transition idle timer expires, and the controller moves to a lower state. -/
  | apstIdleTimer (inst : Nat)
  /-- WRITE_BUFFER_ADMIT (R378). A write piece is admitted whole to the write buffer once B_max and the slice limit allow it. -/
  | writeBufferAdmit (slice : Nat)
  /-- FLASH_READ_DONE (R383). A die read completes and the codeword runs through the recovery ladder. -/
  | flashReadDone (slice : Nat) (stage : Option Nat) (bits : Nat)
  /-- FLASH_PROGRAM_DONE (R394). A program completes and its row is mapped, or a program fail starts a rewrite and retires the block. -/
  | flashProgramDone (slice : Nat) (ok : Bool)
  /-- FLASH_ERASE_DONE (R394). An erase completes, or an erase fail retires the block. -/
  | flashEraseDone (slice : Nat) (die : Nat) (block : Nat) (ok : Bool)
  /-- FLASH_CHANNEL_TIMEOUT (R366). A Read Status on a channel times out after 100 ms, and the channel enters FAILED. -/
  | flashChannelTimeout (slice : Nat) (ch : Nat)
  /-- DIE_RETIRE (R395). A die that retires 16 blocks in 24 h or stops answering enters RETIRING, and its members are rebuilt. -/
  | dieRetire (slice : Nat) (die : Nat) (dead : Bool)
  /-- GARBAGE_COLLECT (R386). Free bands fall below AFF_GC_LOW, and the closed band with the least valid data is collected. -/
  | garbageCollect (slice : Nat)
  /-- RETENTION_AGE_UPDATE (R390). Every 60 s the band ages advance, and bands that reach AFF_RET_LIMIT are relocated. -/
  | retentionAgeUpdate (temps : List (Nat × Nat × Nat))
  /-- READ_DISTURB_LIMIT (R391). A block's read count reaches AFF_RD_LIMIT, and its valid data is relocated. -/
  | readDisturbLimit (slice : Nat) (die : Nat) (block : Nat)
  /-- MAINTENANCE_WINDOW (R392). A maintenance window opens and runs patrol, wear levelling and self-test steps. -/
  | maintenanceWindow (slice : Nat)
  /-- HOLDUP_SAMPLE (R399). Every 1 ms the bank voltage is sampled and B_max is recomputed, detecting power loss by voltage. -/
  | holdupSample (mv : Nat)
  /-- HOLDUP_TEST (R400). Every 24 h and 60 s after start, the bank test switches in the test load. -/
  | holdupTest
  /-- HOLDUP_TEST_END (R400). The 100 ms test ends, C_MEAS is computed, and the bank is judged on it and on recharge. -/
  | holdupTestEnd (droop : Nat) (recharged : Bool)
  /-- PWRFAIL_N_FALL (R401). PWRFAIL_N falls and the hold-up save begins: admission closes and the dies go idle. -/
  | pwrfailNFall
  /-- SAVE_DONE (R401). The save set is written and the SAVE_DONE record is written, after which the device holds itself in reset. -/
  | saveDone (ok : Bool) (saved : Nat)
  /-- PWRFAIL_N_RISE (R570). PWRFAIL_N rises; after a save, the device restarts once power has held for 10 ms. -/
  | pwrfailNRise
  /-- PCIE_LINK_UP (R569). A PCIe link leaves Detect once DEV_READY and PERST_N are high, and trains. -/
  | pcieLinkUp (link : Nat) (speed : Nat) (width : Nat) (flit : Bool) (recoveries : Nat)
  /-- PCIE_LINK_DOWN (R436). A PCIe link goes down, by Hot Reset or PERST_N, and every function on it is reset. -/
  | pcieLinkDown (link : Nat) (hotReset : Bool) (perst : Bool)
  /-- BUS_MASTER_ENABLE_CLEAR (R434). Clearing Bus Master Enable stops upstream requests and stalls rings, queue pairs, NVMe queues and bindings. -/
  | busMasterEnableClear (inst : Nat)
  /-- BUS_MASTER_ENABLE_SET (R434). Setting Bus Master Enable again sends pending messages and resumes nothing else. -/
  | busMasterEnableSet (inst : Nat)
  /-- FUNCTION_LEVEL_RESET (R435). Initiate FLR resets the function's rings, queue pairs, registrations, NVMe queues and binding. -/
  | functionLevelReset (inst : Nat)
  /-- FLR_COMPLETE (R435). Within 100 ms the function's configuration, tables and gate are at reset values, and it answers normally. -/
  | flrComplete (inst : Nat)
  /-- D3HOT_ENTRY (R534). Entry into D3hot has the effects of clearing Bus Master Enable. -/
  | d3hotEntry (inst : Nat)
  /-- INTERRUPT_MODE_WRITE (R423). A write of Interrupt Disable, MSI Enable or MSI-X Enable changes the INTA state. -/
  | interruptModeWrite (inst : Nat) (intDisable : Bool) (msiEnable : Bool) (msixEnable : Bool)
  /-- MSIX_UNMASK (R422). A mask clears, and a pending MSI or MSI-X vector is sent once. -/
  | msixUnmask (inst : Nat) (which : Nat) (n : Nat)
  /-- FN_INTX_PENDING_CLEAR (R423). A write to FN_INTX_PENDING clears serviced bits and may deassert INTA. -/
  | fnIntxPendingClear (inst : Nat) (w : Nat) (value : Word)
  /-- PCIE_READ_COMPLETION (R427). A read completion arrives; a good one is used, a failed one is reissued, and one for a retired tag is unexpected. -/
  | pcieReadCompletion (link : Nat) (tag : Nat) (inst : Nat) (status : Nat) (data : List Byte) (header : List Nat)
  /-- COMPLETION_TIMEOUT (R426). A read's completion timer fires: the tag is quarantined, AER is logged, and the read is reissued. -/
  | completionTimeout (link : Nat) (tag : Nat)
  /-- TAG_QUARANTINE_END (R426). Four times the timeout passes, and a quarantined tag becomes usable. -/
  | tagQuarantineEnd (link : Nat) (tag : Nat)
  /-- PCIE_GATE_OPEN (R428). A write of PCIE_GATE_OPEN reopens an instance's gate. -/
  | pcieGateOpen (agent : Agent) (value : Word)
  /-- INBOUND_PCIE_REQUEST (R429). A host TLP that hits no BAR, or is poisoned, malformed or to D3hot, is logged in AER and answered. -/
  | inboundPcieRequest (link : Nat) (fn : Option Nat) (tlp : InboundTlp) (nonPosted : Bool) (header : List Nat)
  /-- ATS_INVALIDATION (R456). An ATS Invalidation Request removes HOST_ATS translations and is completed after their users retire. -/
  | atsInvalidation (link : Nat) (inst : Nat) (addr : Nat) (n : Nat)
  /-- ANNEX_LAUNCH (R442). A write to ANX_OPCODE checks the command and makes it PENDING, or ends it in DONE. -/
  | annexLaunch (agent : Agent) (opcode : Nat)
  /-- ANNEX_CONSUME (R444). Writing 0 to ANX_STATUS in DONE or BUSY returns the Annex to IDLE and frees the slot. -/
  | annexConsume (agent : Agent)
  /-- ANNEX_HOLD (R446). Each second an unconsumed DONE holds the slot beyond 1 s, the Keeper logs ANNEX_HOLD. -/
  | annexHold
  /-- INSTANCE_ENABLE (R461). A write of INST_CFG.ENABLE = 1 moves a DISABLED instance to ENABLED. -/
  | instanceEnable (agent : Agent) (inst : Nat)
  /-- INSTANCE_DISABLE (R461). A write of ENABLE = 0 discards the instance's objects, with a loss report outside QUIESCED and FROZEN. -/
  | instanceDisable (agent : Agent) (inst : Nat)
  /-- QUIESCE_DONE (R461). Nothing is left in flight, the QUIESCE reply is SUCCESS, and the state becomes QUIESCED. -/
  | quiesceDone (inst : Nat)
  /-- INST_QUIESCE_LIMIT (R461). INST_QUIESCE_LIMIT passes while QUIESCING, and QUIESCE replies QUIESCE_TIMEOUT. -/
  | instQuiesceLimit (inst : Nat)
  /-- TABLE_WALK (R451). An IOTLB miss walks the instance tables and fills the IOTLB, or faults. -/
  | tableWalk (slice : Nat) (inst : Nat) (unit : Nat) (ia : Nat) (write : Bool)
  /-- INVALIDATE_INSTANCE (R455). INST_INVAL_CMD scope 0 drops every IOTLB entry of an instance. -/
  | invalidateInstance (agent : Agent) (inst : Nat)
  /-- INVALIDATE_REGION (R455). INST_INVAL_CMD scope 1 drops the entries of one 2 MiB region. -/
  | invalidateRegion (agent : Agent) (inst : Nat)
  /-- INVALIDATE_ALL (R455). INST_INVAL_CMD scope 2 drops the entries of every instance. -/
  | invalidateAll (agent : Agent)
  /-- INVALIDATION_DONE (R455). Every slice has dropped the entries and their accesses have retired, and BUSY clears. -/
  | invalidationDone
  /-- INST_FAULT_POP (R459). A write of INST_FAULT_POP latches the oldest fault record. -/
  | instFaultPop (agent : Agent)
  /-- MGMT_CMD (R507). The ring opcode MGMT_CMD on the PF0 management ring checks a command packet and queues it for the intake slot. -/
  | mgmtCmd (slice : Nat) (ring : Nat)
  /-- MCTP_COMMAND (R510). A management packet arrives over MCTP, is checked and queued, or is answered MGMT_BUSY. -/
  | mctpCommand (bus : Nat) (packet : List Byte)
  /-- RELAY_COMMAND (R515). A relayed command from another Keeper is checked and queued on the relay route. -/
  | relayCommand (origin : Nat) (ref : Nat) (route : Nat) (packet : List Byte)
  /-- RELAY_REPLY (R515). A relayed reply returns to the origin and is delivered on the origin route, or discarded as late. -/
  | relayReply (ref : Nat) (packet : List Byte)
  /-- INTAKE_CLAIM (R511). In a Keeper cycle with the slot free, the Annex or the next rotation route claims it and the command executes. -/
  | intakeClaim
  /-- SLOT_RELEASE (R512). The holder's status is consumed, and the intake slot is freed. -/
  | slotRelease
  /-- MGMT_COMMAND_TIMEOUT (R513). A waiting command's clock reaches its timeout, and it is answered MGMT_TIMEOUT. -/
  | mgmtCommandTimeout (route : Nat)
  /-- RELAY_TIMEOUT (R516). The origin clock reaches TIMEOUT_MS plus 10 ms without a relayed reply, and MGMT_TIMEOUT is answered. -/
  | relayTimeout (ref : Nat)
  /-- MCTP_REPLY_RETRY (R510). An MCTP reply is transmitted, and is discarded after three failed attempts. -/
  | mctpReplyRetry (ok : Bool)
  /-- BULK_EXPIRE (R518). 60 s pass after the last read of a bulk object, and it is released. -/
  | bulkExpire
  /-- SET_ENDPOINT_ID (R509). The MCTP control message Set Endpoint ID assigns the endpoint ID. -/
  | setEndpointId (bus : Nat) (iid : Nat) (op : Nat) (eid : Nat)
  /-- GET_ENDPOINT_ID (R509). The MCTP control message Get Endpoint ID returns the endpoint ID. -/
  | getEndpointId (bus : Nat) (iid : Nat)
  /-- GET_MCTP_VERSION_SUPPORT (R509). The MCTP control message Get MCTP Version Support returns the supported versions. -/
  | getMctpVersionSupport (bus : Nat) (iid : Nat) (typ : Nat)
  /-- GET_MESSAGE_TYPE_SUPPORT (R509). The MCTP control message Get Message Type Support returns the supported types. -/
  | getMessageTypeSupport (bus : Nat) (iid : Nat)
  /-- GET_VENDOR_DEFINED_MSG_SUPPORT (R509). The MCTP control message Get Vendor Defined Message Support returns vendor 0x1D7C. -/
  | getVendorDefinedMsgSupport (bus : Nat) (iid : Nat) (selector : Nat)
  /-- NVME_MI_COMMAND (R333). An NVMe-MI message over MCTP is served outside the intake slot. -/
  | nvmeMiCommand (bus : Nat) (kind : Nat) (inst : Nat) (arg : Nat) (value : Nat) (sqe : List Byte)
  /-- IDENTIFY (R520). The opcode IDENTIFY returns revision, serial, version, epoch and state. -/
  | identify
  /-- HEALTH (R520). The opcode HEALTH returns temperatures, power and subsystem states. -/
  | health
  /-- CONFIG_GET (R521). The opcode CONFIG_GET returns a configuration item. -/
  | configGet
  /-- CONFIG_SET (R496). The opcode CONFIG_SET writes an item into the other configuration bank. -/
  | configSet (nor : Bool)
  /-- NS_CREATE (R325). The opcode NS_CREATE creates a namespace. -/
  | nsCreate
  /-- NS_DELETE (R352). The opcode NS_DELETE deletes a namespace unless retention forbids it. -/
  | nsDelete
  /-- NS_ATTACH (R324). The opcode NS_ATTACH attaches a namespace to controllers. -/
  | nsAttach
  /-- NS_DETACH (R324). The opcode NS_DETACH detaches a namespace. -/
  | nsDetach
  /-- NS_FORMAT (R342). The opcode NS_FORMAT formats a namespace. -/
  | nsFormat
  /-- FW_WRITE_BEGIN (R489). The opcode FW_WRITE_BEGIN opens a write session and uncommits the target slot. -/
  | fwWriteBegin (nor : Bool)
  /-- FW_WRITE_CHUNK (R489). The opcode FW_WRITE_CHUNK writes the next package bytes in order. -/
  | fwWriteChunk (nor : Bool)
  /-- FW_WRITE_END (R489). The opcode FW_WRITE_END reads back, verifies and commits the slot. -/
  | fwWriteEnd (nor : Bool)
  /-- FW_ACTIVATE (R491). The opcode FW_ACTIVATE writes a CONFIRMED or TRIAL active-flag record naming the slot. -/
  | fwActivate (nor : Bool)
  /-- FW_CONFIRM (R489). The opcode FW_CONFIRM confirms the trial package. -/
  | fwConfirm (nor : Bool)
  /-- FW_REVERT (R489). The opcode FW_REVERT writes the revert record in a trial boot. -/
  | fwRevert (nor : Bool)
  /-- FW_QUERY (R489). The opcode FW_QUERY reports the slots, the ruling record and BOOT_STATUS. -/
  | fwQuery
  /-- KEY_REVOKE (R480). The opcode KEY_REVOKE burns a key slot's revocation bits after checking the statement. -/
  | keyRevoke
  /-- CUSTODY_SET (R495). The opcode CUSTODY_SET stores the owner key digest and sets the Custody Lock. -/
  | custodySet (nor : Bool)
  /-- CUSTODY_CHALLENGE (R495). The opcode CUSTODY_CHALLENGE returns a one-use nonce. -/
  | custodyChallenge
  /-- CUSTODY_CLEAR (R495). The opcode CUSTODY_CLEAR clears the lock on a valid owner signature. -/
  | custodyClear (nor : Bool)
  /-- LOG_READ (R518). The opcode LOG_READ downloads a log, loss report or dump. -/
  | logRead
  /-- LOG_CLEAR (R520). The opcode LOG_CLEAR clears an instance event log. -/
  | logClear
  /-- EVENT_RING_SET (R519). The opcode EVENT_RING_SET names the asynchronous event ring and the federation sink. -/
  | eventRingSet
  /-- BULK_RELEASE (R518). The opcode BULK_RELEASE frees a bulk object. -/
  | bulkRelease
  /-- INST_QUIESCE (R462). The opcode INST_QUIESCE stops the instance starting work and moves it to QUIESCING. -/
  | instQuiesce
  /-- INST_RESUME (R461). The opcode INST_RESUME restarts fetching and enables the instance. -/
  | instResume
  /-- INST_FREEZE (R461). The opcode INST_FREEZE moves a QUIESCED instance to FROZEN. -/
  | instFreeze
  /-- INST_SAVE (R465). The opcode INST_SAVE returns the encrypted state image. -/
  | instSave
  /-- INST_RESTORE (R468). The opcode INST_RESTORE checks an uploaded image and creates every object, or nothing. -/
  | instRestore
  /-- INST_THAW (R461). The opcode INST_THAW restarts fetching of a FROZEN instance. -/
  | instThaw
  /-- INST_DISCARD (R461). The opcode INST_DISCARD deletes the objects of a quiesced or frozen instance. -/
  | instDiscard
  /-- FE_BIND (R520). The opcode FE_BIND binds an anchor instance to a home instance. -/
  | feBind
  /-- FE_UNBIND (R520). The opcode FE_UNBIND removes a binding. -/
  | feUnbind
  /-- FED_STATUS (R520). The opcode FED_STATUS returns the FED block and the members' heartbeat data. -/
  | fedStatus
  /-- FED_LINK_MAP (R520). The opcode FED_LINK_MAP returns every member's ports and peers. -/
  | fedLinkMap
  /-- CLUSTER_DUMP (R122). The opcode CLUSTER_DUMP captures a cluster's state for LOG_READ. -/
  | clusterDump
  /-- CLUSTER_RESET (R123). The opcode CLUSTER_RESET resets a cluster. -/
  | clusterReset
  /-- CLUSTER_START (R97). The opcode CLUSTER_START writes CURATOR_ENTRY and then CLUSTER_CTRL.GO. -/
  | clusterStart
  /-- DEVICE_RESET (R520). The opcode DEVICE_RESET resets the device 100 ms after its reply. -/
  | deviceReset
  /-- REG_READ (R520). The opcode REG_READ reads a device-internal register under its access rule. -/
  | regRead
  /-- REG_WRITE (R520). The opcode REG_WRITE writes a device-internal register under its access rule. -/
  | regWrite
  /-- TIME_PTP_CFG (R51). The opcode TIME_PTP_CFG sets the PTP client's domain, mechanism and transport. -/
  | timePtpCfg
  /-- TIME_STATUS (R520). The opcode TIME_STATUS returns the Fabric Time status. -/
  | timeStatus
  /-- GET_VERSION (R523). The AD3120 opcode GET_VERSION executes as IDENTIFY. -/
  | getVersion
  /-- GET_STATUS (R523). The AD3120 opcode GET_STATUS executes as HEALTH. -/
  | getStatus
  /-- READ_LOG (R523). The AD3120 opcode READ_LOG executes as LOG_READ of the device event log. -/
  | readLog
  /-- FW_DOWNLOAD (R523). The AD3120 opcode FW_DOWNLOAD executes as FW_WRITE_BEGIN and FW_WRITE_CHUNK. -/
  | fwDownload (nor : Bool)
  /-- FW_COMMIT (R523). The AD3120 opcode FW_COMMIT executes as FW_WRITE_END. -/
  | fwCommit (nor : Bool)
  /-- ANNEX_FW_ACTIVATE (R523). The AD3120 opcode FW_ACTIVATE executes as FW_ACTIVATE without RESET_NOW. -/
  | annexFwActivate (nor : Bool)
  /-- GET_TEMPERATURE (R523). The AD3120 opcode GET_TEMPERATURE returns the highest junction temperature. -/
  | getTemperature
  /-- ANNEX_RESET (R523). The AD3120 opcode RESET executes as DEVICE_RESET. -/
  | annexReset
  /-- IDLE_EVALUATE (R527). Idleness has held for PWR_IDLE_DWELL, or the horizon or ceiling has changed, and the slice enters the deepest qualifying idle state. -/
  | idleEvaluate (slice : Nat)
  /-- IDLE_EXIT_TIMER (R527). EVENT_HORIZON minus the exit latency is reached, and the slice begins its exit. -/
  | idleExitTimer (slice : Nat)
  /-- SLICE_WAKE (R529). A wake event leaves or reverses an idle state. -/
  | sliceWake (slice : Nat)
  /-- POWER_CONTROL_TICK (R538). Every 100 µs the power controller measures power and temperature and steps the core clock. -/
  | powerControlTick (power : Nat) (domains : List Nat) (temps : List Int)
  /-- AVS_COMMAND (R566). An AVSBus command to the VDD_CPU regulator is acknowledged, or fails and stops further clock rises. -/
  | avsCommand (ack : Bool)
  /-- ASPM_L1_ENTRY (R535). A link idle for PWR_ASPM_IDLE with ASPM enabled enters L1. -/
  | aspmL1Entry (link : Nat)
  /-- LTR_MESSAGE (R536). An LTR message is sent when the latency value changes or LTR is enabled. -/
  | ltrMessage (link : Nat)
  /-- PMU_FREEZE_GO (R551). A write of PMU_FREEZE.GO schedules a device-wide freeze or release 16 ticks later. -/
  | pmuFreezeGo (agent : Agent) (value : Word)
  /-- PMU_FREEZE_APPLY (R551). The scheduled instant arrives, and every counter freezes or resumes. -/
  | pmuFreezeApply
  /-- TEMP_LOG_HOURLY (R581). Once an hour the Keeper records TEMP_MAX in the device event log. -/
  | tempLogHourly
  /-- RESET_N_FALL (R570). RESET_N falls: a device reset begins, DEV_READY falls, every link goes down, and a running hold-up save stops without SAVE_DONE. -/
  | resetNFall (saved : Nat)
  /-- PRIORITY_PAUSE_RECEIVE (R81). An 802.1Qbb priority flow control frame arrives and is consumed by the MAC group, pausing egress of its priorities on the port. -/
  | priorityPauseReceive (slice : Nat) (port : Nat) (priority : Nat) (quanta : Nat)
  /-- PRIORITY_PAUSE_EXPIRY (R81). The pause time of a priority runs out and the egress destination may arbitrate again for it. -/
  | priorityPauseExpiry (slice : Nat) (port : Nat) (priority : Nat)
  /-- MASTER_CLAIM_WINDOW_END (R310). The 20 ms claim window after a master loss closes, the lowest claim is adopted and the new master makes a move. -/
  | masterClaimWindowEnd
  /-- D3HOT_EXIT (R534). A function returns from D3hot to D0, keeping configuration space, and memory requests to it are no longer answered as Unsupported Request. -/
  | d3hotExit (inst : Nat)
  /-- ATS_TRANSLATION_COMPLETION (R453). The host's answer to an ATS Translation Request arrives, is cached in the IOTLB entry, and the request is issued as translated or faults with ATS_DENIED. -/
  | atsTranslationCompletion (slice : Nat) (inst : Nat) (page : Nat) (translated : Nat) (read : Bool) (write : Bool)
  /-- BOUND_STATUS_WINDOW_READ (R313). A host read of a bound function's ring status window or NVMe register set at the anchor is forwarded to the home as MMIO_READ and armed with its 1 ms timeout. -/
  | boundStatusWindowRead (inst : Nat) (off : Nat)
  /-- IDLE_ENTRY_DONE (R525). Entry into an idle state SI1 to SI3 completes, the slice is in that state and PWR_SI_ENTRIES counts it. -/
  | idleEntryDone (slice : Nat)
  /-- IDLE_EXIT_DONE (R530). A slice's exit from an idle state completes within the exit latency, and work that waited during the exit starts. -/
  | idleExitDone (slice : Nat)
  /-- ACC_TIME_FLOOR_WRITE (R499). The Keeper writes ACC_TIME_FLOOR into the durable part, at most once every 3,600 s. -/
  | accTimeFloorWrite
  deriving DecidableEq, Repr

end Sys2Proof
end

