-- ==== Sys2Proof/Machine/Maps.lean ====
section
/-!
DEFINITION. Sparse tables as plain data. A table is a list of (key, value) pairs; a key that is not listed has the table's
default. The canonical form is: keys strictly rising, and no entry equal to the default, so equal tables are equal lists.
Register files, memories and the large tables of the device are held so.
-/

namespace Sys2Proof.Machine

/-- A sparse table: keys with values, in rising order of the keys. -/
abbrev Map (α : Type) := List (Nat × α)

variable {α : Type}

/-- The value listed for key a, if one is. -/
def Map.find? : Map α → Nat → Option α
  | [], _ => none
  | (k, v) :: m, a => if a = k then some v else Map.find? m a

/-- List v for key a, in place. -/
def Map.insert : Map α → Nat → α → Map α
  | [], a, v => [(a, v)]
  | (k, w) :: m, a, v =>
    if a < k then (a, v) :: (k, w) :: m
    else if a = k then (a, v) :: m
    else (k, w) :: Map.insert m a v

/-- List nothing for key a. -/
def Map.erase : Map α → Nat → Map α
  | [], _ => []
  | (k, w) :: m, a => if a = k then Map.erase m a else (k, w) :: Map.erase m a

/-- Read key a of a table whose unlisted keys read as d. -/
def Map.get (d : Nat → α) (m : Map α) (a : Nat) : α := (Map.find? m a).getD (d a)

/-- Write key a, keeping the canonical form: a value equal to the default is not listed. -/
def Map.put [DecidableEq α] (d : Nat → α) (m : Map α) (a : Nat) (v : α) : Map α :=
  if v = d a then Map.erase m a else Map.insert m a v

/-- Every key of m is above lo. -/
def Map.above (lo : Nat) : Map α → Bool
  | [] => true
  | (k, _) :: m => decide (lo < k) && Map.above lo m

/-- Keys strictly rise. -/
def Map.sorted : Map α → Bool
  | [] => true
  | (k, _) :: m => Map.above k m && Map.sorted m

/-- The canonical form: keys strictly rise and no entry equals the default. -/
def Map.wf [DecidableEq α] (d : Nat → α) (m : Map α) : Bool :=
  Map.sorted m && m.all (fun e => decide (e.2 ≠ d e.1))

/-- Drop every listed key that p holds of. -/
def Map.eraseIf (p : Nat → α → Bool) (m : Map α) : Map α := m.filter (fun e => ! p e.1 e.2)

/-- The number of listed keys that p holds of. -/
def Map.countIf (p : Nat → α → Bool) (m : Map α) : Nat := (m.filter (fun e => p e.1 e.2)).length

/-- Apply f to each listed value that p holds of, leaving the keys. -/
def Map.mapIf (p : Nat → α → Bool) (f : α → α) (m : Map α) : Map α :=
  m.map (fun e => if p e.1 e.2 then (e.1, f e.2) else e)

/-! Lists used as queues. -/

/-- Split off the first element that p holds of. -/
def takeFirst (p : α → Bool) : List α → Option (α × List α)
  | [] => none
  | x :: xs =>
    if p x then some (x, xs)
    else match takeFirst p xs with
      | some (y, ys) => some (y, x :: ys)
      | none => none

/-- The element with the least key, the first of those when several share it. -/
def leastBy (key : α → Int) : List α → Option α
  | [] => none
  | x :: xs =>
    match leastBy key xs with
    | none => some x
    | some y => if key y < key x then some y else some x

/-- Put x in a list kept in rising order of key, after the elements that share its key. -/
def insertBy (key : α → Int) (x : α) : List α → List α
  | [] => [x]
  | y :: ys => if key x < key y then x :: y :: ys else y :: insertBy key x ys

/-- Apply f to the elements that p holds of. -/
def updateIf (p : α → Bool) (f : α → α) (l : List α) : List α := l.map (fun x => if p x then f x else x)

/-! Bits and bytes. -/

/-- Bits hi..lo of x, as a number. -/
def bitsOf (x hi lo : Nat) : Nat := x / 2 ^ lo % 2 ^ (hi + 1 - lo)

/-- Bit i of x. -/
def bitOf (x i : Nat) : Bool := x / 2 ^ i % 2 = 1

/-- x with bits hi..lo replaced by v, cut to their width. -/
def setBits (x hi lo v : Nat) : Nat := x - bitsOf x hi lo * 2 ^ lo + v % 2 ^ (hi + 1 - lo) * 2 ^ lo

/-- A number from its 64-bit words, the lowest first. -/
def natOfWords : List Nat → Nat
  | [] => 0
  | w :: ws => w % 2 ^ 64 + 2 ^ 64 * natOfWords ws

/-- The n low 64-bit words of a number, the lowest first. -/
def wordsOf (n x : Nat) : List Nat := (List.range n).map (fun i => x / 2 ^ (64 * i) % 2 ^ 64)

/-- The low w bits of x, read as a signed number. -/
def signed (w x : Nat) : Int := if x % 2 ^ w < 2 ^ (w - 1) then (x % 2 ^ w : Nat) else (x % 2 ^ w : Nat) - (2 ^ w : Nat)

/-- A signed number as a w-bit pattern. -/
def unsigned (w : Nat) (i : Int) : Nat := (i % (2 ^ w : Nat)).toNat

/-- One for true. -/
def b2n (b : Bool) : Nat := if b then 1 else 0

/-- x held between lo and hi. -/
def clampI (lo hi x : Int) : Int := if x < lo then lo else if hi < x then hi else x

/-- A little-endian number from its bytes (R14). -/
def leNat : List Byte → Nat
  | [] => 0
  | b :: bs => b.toNat + 256 * leNat bs

/-- The n little-endian bytes of x (R14). -/
def leBytes : Nat → Nat → List Byte
  | 0, _ => []
  | n + 1, x => BitVec.ofNat 8 x :: leBytes n (x / 256)

/-- A big-endian (wire order) number from its bytes. -/
def beNat (l : List Byte) : Nat := l.foldl (fun a b => 256 * a + b.toNat) 0

/-- The n big-endian bytes of x. -/
def beBytes (n x : Nat) : List Byte := (leBytes n x).reverse

/-- n bytes of l from offset o; bytes past the end read zero. -/
def slice (l : List Byte) (o n : Nat) : List Byte := (List.range n).map (fun i => l.getD (o + i) 0)

/-- The little-endian field of n bytes at offset o. -/
def leAt (l : List Byte) (o n : Nat) : Nat := leNat (slice l o n)

/-- The big-endian field of n bytes at offset o. -/
def beAt (l : List Byte) (o n : Nat) : Nat := beNat (slice l o n)

/-- The doubleword i of a little-endian image. -/
def dwAt (l : List Byte) (i : Nat) : Nat := leAt l (8 * i) 8

/-- Replace the bytes of l from offset o by bs. -/
def splice (l : List Byte) (o : Nat) (bs : List Byte) : List Byte :=
  l.take o ++ List.replicate (o - l.length) 0 ++ bs ++ l.drop (o + bs.length)

/-- A list of doublewords as bytes. -/
def dwsBytes (l : List Nat) : List Byte := (l.map (leBytes 8)).flatten

end Sys2Proof.Machine
end

