-- ==== Sys2Proof/Config.lean ====
section
/-!
DEFINITION. What one implementation fixes and the spec leaves open: free values. Each is a constant without a body, so
nothing can be proved of its value; a claim that holds, holds whatever it is. The argument named n is the state's draw
counter (`freeCtr`, the model's own field): each draw reads it and advances it, so two draws are not tied to each other.
-/

namespace Sys2Proof.Config

/-- The frequency adjustment that the Keeper's discipline firmware chooses (R58: its control law is not published). -/
opaque slewAdjust (n : Nat) : Int

/-- Which of the values of a class register an operation that begins at FT_MONO t may use it uses while ARB_SYNC.PENDING reads 1 (R79). -/
opaque classPick (addr t : Nat) : Nat

/-- A number that the spec says an operation yields without saying which one. -/
opaque unstated (n : Nat) : Nat

/-- Bytes of the deterministic random bit generators (R219). -/
opaque random (n i : Nat) : BitVec 8

/-- The 256-bit device secret that the fuses hold (R212). -/
opaque deviceSecret : Nat

/-- The 64-bit serial number that the fuses hold (R414), and its text in the NVMe identity (R323). -/
opaque serialNumber : Nat
opaque serialText : List (BitVec 8)

/-- The fused digests of the four key slots (R479). -/
opaque keyDigest (k : Nat) : List (BitVec 8)

/-- The IEEE OUI and the firmware revision text of the NVMe identity, by package version (NVMe 2.0; the spec gives neither). -/
opaque oui : Nat
opaque versionText (v : Nat) : List (BitVec 8)

/-- Where the fields stand of a page, identifier or message whose fields the spec names without giving their places (R302, R361, R520): field i of
page p is the fieldRank-th, stands after fieldGap bytes of zero, and is one byte wider than fieldWidth says. -/
opaque fieldRank (p i : Nat) : Nat
opaque fieldGap (p i : Nat) : Nat
opaque fieldWidth (p i : Nat) : Nat

/-- Where the silicon revision stands among the 256 bytes that IDENTIFY answers (R5, R520). -/
opaque revisionAt : Nat

/-- Which 64-byte word of a cluster's L2 holds an HBM line (R91: its organisation is not given). -/
opaque l2Word (line : Nat) : Nat

/-- Which frame holds the packet buffer cell that a word of it belongs to (R42: the spec gives cells no places). -/
opaque cellOwner (n : Nat) : Nat

/-- The set of the derived-key cache that a tag falls in (R225: 2,048 sets; which one is not stated). -/
opaque keyCacheSet (tag : Nat) : Nat

/-- Which of the free ONLINE pairs a job is dispatched to (R245, R247). -/
opaque pairPick (n : Nat) : Nat

/-- Field i, in the order that R521 and the rules it cites list them, of a configuration item's value: the spec gives no layout of the items. -/
opaque itemField (item : Nat) (value : List (BitVec 8)) (i : Nat) : Nat

/-- The default value of a configuration item, which the spec does not state (R497, R521). -/
opaque itemDefault (item : Nat) : List (BitVec 8)

/-- The correction that an asymmetry of KL_TIME_ADJ, in units of 0.125 ns, makes to a measured offset (R318: its sign and scale are not stated). -/
opaque timeAdjust (adj : Int) : Int

/-- A doubleword of a function's configuration space that the spec leaves to the base specification or to the host's assignments (R413, R414). -/
opaque cfgWord (fn offset : Nat) : Nat

/-- The contents of the Plinth ROM (R582), which the spec does not publish. -/
opaque romByte (offset : Nat) : BitVec 8

/-- The values of the machine information CSRs (RISC-V leaves them to the implementation). -/
opaque csrId (num : Nat) : BitVec 64

/-- What mtval and FAULT_TVAL hold after an exception for which RISC-V lets the implementation choose: by its code and the instruction word. -/
opaque trapTval (code word : Nat) : Nat

end Sys2Proof.Config
end

