-- ==== Sys2Proof/Machine/RegMap.lean ====
section
/-!
DEFINITION. The register maps of the device (R11, R582 to R584 and the "| Offset | Name |" table of every chapter): the
address of each register under its own name (`R.<NAME>`, with the slice s, the cluster k and the indices of its block as
arguments), each field under its own name (`F.<REGISTER>_<FIELD>`: the register's address, the field's lowest bit and its
width), and the table of rows with access types, reset values and the agents the owning chapter opens the register to.
A register is kept whole (64 bits, or 32 where its stride is 4) at its address. The FN page of function f, the Annex window
and the Recovery page are host windows, not device-internal addresses; they are kept above 2^40 (log entry 3).
-/

namespace Sys2Proof.Machine

/-- A field of a register: the register's address, its lowest bit and its width. -/
structure Fld where
  addr : Nat
  lo : Nat
  width : Nat
  deriving DecidableEq, Repr

/-- The access types of R11. -/
inductive Acc where
  | ro | rw | rw1c | rw1s | wo | rc | rsv
  deriving DecidableEq, Repr

/-- Which agents the owning chapter opens a register to (R585). -/
inductive Opn where
  /-- the manager through PF0 and the Keeper -/
  | managerKeeper
  /-- read by the manager and the Keeper, written by the Keeper alone -/
  | keeperWrites
  /-- the Keeper alone (ROOTKEY) -/
  | keeperOnly
  /-- the cluster's own Curator in M-mode, the Keeper and the debug module -/
  | cluster
  /-- as cluster, and writes of the Curator are ignored (Meaning column "Keeper") -/
  | clusterKeeperWrites
  /-- written by the debug module and the Keeper alone (R125) -/
  | chAbort
  /-- Curator in M-mode, Keeper, debug module and manager (R547) -/
  | pmuCore
  /-- manager, Keeper and harts of the slice: the banked TW registers (R591) -/
  | sliceHarts
  /-- the owner of staging slot w: 0 manager, 1 Keeper, 2 + k cluster k of the slice (R178, R192) -/
  | slotOwner
  /-- the owner of Address Table slot w: 0 manager, 1 Keeper (R200) -/
  | addrSlotOwner
  /-- cluster firmware of the slice and the Keeper (DELIVER_CTRL) -/
  | deliver
  /-- a host, in the function's own BAR0 (FN page) -/
  | hostFunction
  /-- a host, in PF0's BAR0 (Annex window, Recovery page) -/
  | pf0Host
  deriving DecidableEq, Repr

/-- A field's place and access type. -/
structure FieldAcc where
  lo : Nat
  width : Nat
  acc : Acc
  deriving DecidableEq, Repr

/-- A row of a register map: name, first address, (stride, count) of the slice, the cluster and each index, bytes, fields,
reset value and the agents it is open to. -/
structure RegRow where
  name : String
  base : Nat
  dims : List (Nat × Nat)
  bytes : Nat
  fields : List FieldAcc
  reset : Nat
  opn : Opn
  deriving DecidableEq, Repr

/-- Address of PB_STATUS, PB block (01). -/
abbrev R.PB_STATUS (s : Nat) : Nat := 0x4010000 + 0x1000000 * s
/-- Address of PB_COMMIT, PB block (01). -/
abbrev R.PB_COMMIT (s : Nat) : Nat := 0x4010008 + 0x1000000 * s
/-- Address of PB_SHARED_FREE, PB block (01). -/
abbrev R.PB_SHARED_FREE (s : Nat) : Nat := 0x4010010 + 0x1000000 * s
/-- Address of PB_SHARED_SIZE, PB block (01). -/
abbrev R.PB_SHARED_SIZE (s : Nat) : Nat := 0x4010018 + 0x1000000 * s
/-- Address of PB_CLASS_MIN[n], PB block (01). -/
abbrev R.PB_CLASS_MIN (s : Nat) (n : Nat) : Nat := 0x4010100 + 0x1000000 * s + 0x8 * n
/-- Address of PB_CLASS_MAX[n], PB block (01). -/
abbrev R.PB_CLASS_MAX (s : Nat) (n : Nat) : Nat := 0x4010120 + 0x1000000 * s + 0x8 * n
/-- Address of PB_CLASS_USE[n], PB block (01). -/
abbrev R.PB_CLASS_USE (s : Nat) (n : Nat) : Nat := 0x4010140 + 0x1000000 * s + 0x8 * n
/-- Address of PB_CLASS_PEAK[n], PB block (01). -/
abbrev R.PB_CLASS_PEAK (s : Nat) (n : Nat) : Nat := 0x4010160 + 0x1000000 * s + 0x8 * n
/-- Address of PB_ADMIT[n], PB block (01). -/
abbrev R.PB_ADMIT (s : Nat) (n : Nat) : Nat := 0x4010200 + 0x1000000 * s + 0x8 * n
/-- Address of PB_DROP[n], PB block (01). -/
abbrev R.PB_DROP (s : Nat) (n : Nat) : Nat := 0x4010220 + 0x1000000 * s + 0x8 * n
/-- Address of PB_WAIT[n], PB block (01). -/
abbrev R.PB_WAIT (s : Nat) (n : Nat) : Nat := 0x4010240 + 0x1000000 * s + 0x8 * n
/-- Address of PB_SHARED_LOSS, PB block (01). -/
abbrev R.PB_SHARED_LOSS (s : Nat) : Nat := 0x4010260 + 0x1000000 * s
/-- Address of SLICE_ID, SLICE_ORG block (01). -/
abbrev R.SLICE_ID (s : Nat) : Nat := 0x4000000 + 0x1000000 * s
/-- Address of SLICE_CAPS, SLICE_ORG block (01). -/
abbrev R.SLICE_CAPS (s : Nat) : Nat := 0x4000008 + 0x1000000 * s
/-- Address of TAG_INUSE, SLICE_ORG block (01). -/
abbrev R.TAG_INUSE (s : Nat) : Nat := 0x4000010 + 0x1000000 * s
/-- Address of TAG_WAIT, SLICE_ORG block (01). -/
abbrev R.TAG_WAIT (s : Nat) : Nat := 0x4000018 + 0x1000000 * s
/-- Address of TAG_PEAK, SLICE_ORG block (01). -/
abbrev R.TAG_PEAK (s : Nat) : Nat := 0x4000020 + 0x1000000 * s
/-- Address of SPINE_OUT, SLICE_ORG block (01). -/
abbrev R.SPINE_OUT (s : Nat) : Nat := 0x4000040 + 0x1000000 * s
/-- Address of SPINE_IN, SLICE_ORG block (01). -/
abbrev R.SPINE_IN (s : Nat) : Nat := 0x4000048 + 0x1000000 * s
/-- Address of SRAM_CE, SLICE_ORG block (01). -/
abbrev R.SRAM_CE (s : Nat) : Nat := 0x4000080 + 0x1000000 * s
/-- Address of SRAM_UE, SLICE_ORG block (01). -/
abbrev R.SRAM_UE (s : Nat) : Nat := 0x4000088 + 0x1000000 * s
/-- Address of SRAM_ERR_ADDR, SLICE_ORG block (01). -/
abbrev R.SRAM_ERR_ADDR (s : Nat) : Nat := 0x4000090 + 0x1000000 * s
/-- Address of HBM_CE, SLICE_ORG block (01). -/
abbrev R.HBM_CE (s : Nat) : Nat := 0x40000a0 + 0x1000000 * s
/-- Address of HBM_UE, SLICE_ORG block (01). -/
abbrev R.HBM_UE (s : Nat) : Nat := 0x40000a8 + 0x1000000 * s
/-- Address of HBM_ERR_ADDR, SLICE_ORG block (01). -/
abbrev R.HBM_ERR_ADDR (s : Nat) : Nat := 0x40000b0 + 0x1000000 * s
/-- Address of HBM_SCRUB_PASS, SLICE_ORG block (01). -/
abbrev R.HBM_SCRUB_PASS (s : Nat) : Nat := 0x40000b8 + 0x1000000 * s
/-- Address of ORG_INT_STATUS, SLICE_ORG block (01). -/
abbrev R.ORG_INT_STATUS (s : Nat) : Nat := 0x40000c0 + 0x1000000 * s
/-- Address of ORG_INT_ENABLE, SLICE_ORG block (01). -/
abbrev R.ORG_INT_ENABLE (s : Nat) : Nat := 0x40000c8 + 0x1000000 * s
/-- Address of ETH_PORT_MODE, SLICE_ORG block (01). -/
abbrev R.ETH_PORT_MODE (s : Nat) : Nat := 0x40000d0 + 0x1000000 * s
/-- Address of ETH_LINK_STATUS, SLICE_ORG block (01). -/
abbrev R.ETH_LINK_STATUS (s : Nat) : Nat := 0x40000d8 + 0x1000000 * s
/-- Address of ETH_LINK_DOWN[p], SLICE_ORG block (01). -/
abbrev R.ETH_LINK_DOWN (s : Nat) (p : Nat) : Nat := 0x4000100 + 0x1000000 * s + 0x8 * p
/-- Address of FT_CTRL, FT block (02). -/
abbrev R.FT_CTRL : Nat := 0x8100000
/-- Address of FT_SRC_SEL, FT block (02). -/
abbrev R.FT_SRC_SEL : Nat := 0x8100008
/-- Address of FT_STATUS, FT block (02). -/
abbrev R.FT_STATUS : Nat := 0x8100010
/-- Address of FT_NOW_SEC, FT block (02). -/
abbrev R.FT_NOW_SEC : Nat := 0x8100018
/-- Address of FT_NOW_FRAC, FT block (02). -/
abbrev R.FT_NOW_FRAC : Nat := 0x8100020
/-- Address of FT_MONO, FT block (02). -/
abbrev R.FT_MONO : Nat := 0x8100028
/-- Address of FT_OFFSET, FT block (02). -/
abbrev R.FT_OFFSET : Nat := 0x8100030
/-- Address of FT_FREQ_ADJ, FT block (02). -/
abbrev R.FT_FREQ_ADJ : Nat := 0x8100038
/-- Address of FT_STEP, FT block (02). -/
abbrev R.FT_STEP : Nat := 0x8100040
/-- Address of FT_STEP_THRESH, FT block (02). -/
abbrev R.FT_STEP_THRESH : Nat := 0x8100048
/-- Address of FT_SLEW_MAX, FT block (02). -/
abbrev R.FT_SLEW_MAX : Nat := 0x8100050
/-- Address of FT_LOCK_THRESH, FT block (02). -/
abbrev R.FT_LOCK_THRESH : Nat := 0x8100058
/-- Address of FT_UNLOCK_THRESH, FT block (02). -/
abbrev R.FT_UNLOCK_THRESH : Nat := 0x8100060
/-- Address of FT_HOLDOVER_LIMIT, FT block (02). -/
abbrev R.FT_HOLDOVER_LIMIT : Nat := 0x8100068
/-- Address of FT_PPS_DELAY, FT block (02). -/
abbrev R.FT_PPS_DELAY : Nat := 0x8100070
/-- Address of FT_PPS_NEXT_SEC, FT block (02). -/
abbrev R.FT_PPS_NEXT_SEC : Nat := 0x8100078
/-- Address of FT_STEPS, FT block (02). -/
abbrev R.FT_STEPS : Nat := 0x8100080
/-- Address of FT_LAST_STEP, FT block (02). -/
abbrev R.FT_LAST_STEP : Nat := 0x8100088
/-- Address of FT_LOSS, FT block (02). -/
abbrev R.FT_LOSS : Nat := 0x8100090
/-- Address of FT_PPS_GLITCH, FT block (02). -/
abbrev R.FT_PPS_GLITCH : Nat := 0x8100098
/-- Address of FT_INT_STATUS, FT block (02). -/
abbrev R.FT_INT_STATUS : Nat := 0x81000a0
/-- Address of FT_INT_ENABLE, FT block (02). -/
abbrev R.FT_INT_ENABLE : Nat := 0x81000a8
/-- Address of TW_ENTRIES, TW block (02). -/
abbrev R.TW_ENTRIES (s : Nat) : Nat := 0x4020000 + 0x1000000 * s
/-- Address of EVENT_HORIZON, TW block (02). -/
abbrev R.EVENT_HORIZON (s : Nat) : Nat := 0x4020008 + 0x1000000 * s
/-- Address of TW_LEAD, TW block (02). -/
abbrev R.TW_LEAD (s : Nat) : Nat := 0x4020010 + 0x1000000 * s
/-- Address of TW_ARM_TIME, TW block (02). -/
abbrev R.TW_ARM_TIME (s : Nat) : Nat := 0x4020018 + 0x1000000 * s
/-- Address of TW_ARM_CTRL, TW block (02). -/
abbrev R.TW_ARM_CTRL (s : Nat) : Nat := 0x4020020 + 0x1000000 * s
/-- Address of TW_ARM_RESULT, TW block (02). -/
abbrev R.TW_ARM_RESULT (s : Nat) : Nat := 0x4020028 + 0x1000000 * s
/-- Address of TW_FIRED, TW block (02). -/
abbrev R.TW_FIRED (s : Nat) : Nat := 0x4020030 + 0x1000000 * s
/-- Address of TW_STEP_FIRED, TW block (02). -/
abbrev R.TW_STEP_FIRED (s : Nat) : Nat := 0x4020038 + 0x1000000 * s
/-- Address of TW_FULL, TW block (02). -/
abbrev R.TW_FULL (s : Nat) : Nat := 0x4020040 + 0x1000000 * s
/-- Address of TW_PEAK, TW block (02). -/
abbrev R.TW_PEAK (s : Nat) : Nat := 0x4020048 + 0x1000000 * s
/-- Address of TS_RX_ADJ[p], PTP_TS block (02). -/
abbrev R.TS_RX_ADJ (s : Nat) (p : Nat) : Nat := 0x4030000 + 0x1000000 * s + 0x8 * p
/-- Address of TS_TX_ADJ[p], PTP_TS block (02). -/
abbrev R.TS_TX_ADJ (s : Nat) (p : Nat) : Nat := 0x4030040 + 0x1000000 * s + 0x8 * p
/-- Address of TX_LAUNCH_CTRL[p], PTP_TS block (02). -/
abbrev R.TX_LAUNCH_CTRL (s : Nat) (p : Nat) : Nat := 0x4030080 + 0x1000000 * s + 0x8 * p
/-- Address of LAUNCH_SENT[p], PTP_TS block (02). -/
abbrev R.LAUNCH_SENT (s : Nat) (p : Nat) : Nat := 0x4030100 + 0x1000000 * s + 0x8 * p
/-- Address of LAUNCH_LATE[p], PTP_TS block (02). -/
abbrev R.LAUNCH_LATE (s : Nat) (p : Nat) : Nat := 0x4030140 + 0x1000000 * s + 0x8 * p
/-- Address of LAUNCH_DROP[p], PTP_TS block (02). -/
abbrev R.LAUNCH_DROP (s : Nat) (p : Nat) : Nat := 0x4030180 + 0x1000000 * s + 0x8 * p
/-- Address of LAUNCH_FAR[p], PTP_TS block (02). -/
abbrev R.LAUNCH_FAR (s : Nat) (p : Nat) : Nat := 0x40301c0 + 0x1000000 * s + 0x8 * p
/-- Address of ARB_DEADLINE[n], ARB_CLASS block (03). -/
abbrev R.ARB_DEADLINE (n : Nat) : Nat := 0x8110000 + 0x8 * n
/-- Address of ARB_UNIT_CLASS[u], ARB_CLASS block (03). -/
abbrev R.ARB_UNIT_CLASS (u : Nat) : Nat := 0x8110100 + 0x8 * u
/-- Address of ARB_SYNC, ARB_CLASS block (03). -/
abbrev R.ARB_SYNC : Nat := 0x8110200
/-- Address of ARB_INT_STATUS, ARB block (03). -/
abbrev R.ARB_INT_STATUS (s : Nat) : Nat := 0x4040000 + 0x1000000 * s
/-- Address of ARB_INT_ENABLE, ARB block (03). -/
abbrev R.ARB_INT_ENABLE (s : Nat) : Nat := 0x4040008 + 0x1000000 * s
/-- Address of ARB_GRANTS[d], ARB block (03). -/
abbrev R.ARB_GRANTS (s : Nat) (d : Nat) : Nat := 0x4040100 + 0x1000000 * s + 0x8 * d
/-- Address of ARB_LOSSES[d], ARB block (03). -/
abbrev R.ARB_LOSSES (s : Nat) (d : Nat) : Nat := 0x4040200 + 0x1000000 * s + 0x8 * d
/-- Address of ARB_BACKOFF[d], ARB block (03). -/
abbrev R.ARB_BACKOFF (s : Nat) (d : Nat) : Nat := 0x4040300 + 0x1000000 * s + 0x8 * d
/-- Address of ARB_CAPPED[d], ARB block (03). -/
abbrev R.ARB_CAPPED (s : Nat) (d : Nat) : Nat := 0x4040400 + 0x1000000 * s + 0x8 * d
/-- Address of ARB_LATE[d], ARB block (03). -/
abbrev R.ARB_LATE (s : Nat) (d : Nat) : Nat := 0x4040500 + 0x1000000 * s + 0x8 * d
/-- Address of ARB_WAIT_MAX[d], ARB block (03). -/
abbrev R.ARB_WAIT_MAX (s : Nat) (d : Nat) : Nat := 0x4040600 + 0x1000000 * s + 0x8 * d
/-- Address of ARB_CLASS_GRANTS[n], ARB block (03). -/
abbrev R.ARB_CLASS_GRANTS (s : Nat) (n : Nat) : Nat := 0x4040700 + 0x1000000 * s + 0x8 * n
/-- Address of ARB_CLASS_LATE[n], ARB block (03). -/
abbrev R.ARB_CLASS_LATE (s : Nat) (n : Nat) : Nat := 0x4040780 + 0x1000000 * s + 0x8 * n
/-- Address of ARB_CLASS_WAIT_MAX[n], ARB block (03). -/
abbrev R.ARB_CLASS_WAIT_MAX (s : Nat) (n : Nat) : Nat := 0x4040800 + 0x1000000 * s + 0x8 * n
/-- Address of ARB_ARBS[d], ARB block (03). -/
abbrev R.ARB_ARBS (s : Nat) (d : Nat) : Nat := 0x4040900 + 0x1000000 * s + 0x8 * d
/-- Address of CLUSTER_STATE, CLUSTER block (04). -/
abbrev R.CLUSTER_STATE (s : Nat) (k : Nat) : Nat := 0x4050000 + 0x1000000 * s + 0x4000 * k
/-- Address of CURATOR_ENTRY, CLUSTER block (04). -/
abbrev R.CURATOR_ENTRY (s : Nat) (k : Nat) : Nat := 0x4050008 + 0x1000000 * s + 0x4000 * k
/-- Address of CLUSTER_CTRL, CLUSTER block (04). -/
abbrev R.CLUSTER_CTRL (s : Nat) (k : Nat) : Nat := 0x4050010 + 0x1000000 * s + 0x4000 * k
/-- Address of CURATOR_STATUS, CLUSTER block (04). -/
abbrev R.CURATOR_STATUS (s : Nat) (k : Nat) : Nat := 0x4050018 + 0x1000000 * s + 0x4000 * k
/-- Address of SPIN_LIMIT, CLUSTER block (04). -/
abbrev R.SPIN_LIMIT (s : Nat) (k : Nat) : Nat := 0x4050020 + 0x1000000 * s + 0x4000 * k
/-- Address of SPIN_WINDOW, CLUSTER block (04). -/
abbrev R.SPIN_WINDOW (s : Nat) (k : Nat) : Nat := 0x4050028 + 0x1000000 * s + 0x4000 * k
/-- Address of WAITSPIN_PAUSE, CLUSTER block (04). -/
abbrev R.WAITSPIN_PAUSE (s : Nat) (k : Nat) : Nat := 0x4050030 + 0x1000000 * s + 0x4000 * k
/-- Address of SPIN_COUNT, CLUSTER block (04). -/
abbrev R.SPIN_COUNT (s : Nat) (k : Nat) : Nat := 0x4050038 + 0x1000000 * s + 0x4000 * k
/-- Address of DEADLOCK_COUNT, CLUSTER block (04). -/
abbrev R.DEADLOCK_COUNT (s : Nat) (k : Nat) : Nat := 0x4050040 + 0x1000000 * s + 0x4000 * k
/-- Address of STALL_EVENTS, CLUSTER block (04). -/
abbrev R.STALL_EVENTS (s : Nat) (k : Nat) : Nat := 0x4050048 + 0x1000000 * s + 0x4000 * k
/-- Address of DEADLOCK_EVENTS, CLUSTER block (04). -/
abbrev R.DEADLOCK_EVENTS (s : Nat) (k : Nat) : Nat := 0x4050050 + 0x1000000 * s + 0x4000 * k
/-- Address of SPINNING, CLUSTER block (04). -/
abbrev R.SPINNING (s : Nat) (k : Nat) : Nat := 0x4050058 + 0x1000000 * s + 0x4000 * k
/-- Address of HALTED, CLUSTER block (04). -/
abbrev R.HALTED (s : Nat) (k : Nat) : Nat := 0x4050060 + 0x1000000 * s + 0x4000 * k
/-- Address of FAULTED, CLUSTER block (04). -/
abbrev R.FAULTED (s : Nat) (k : Nat) : Nat := 0x4050068 + 0x1000000 * s + 0x4000 * k
/-- Address of FAULT_COUNT, CLUSTER block (04). -/
abbrev R.FAULT_COUNT (s : Nat) (k : Nat) : Nat := 0x4050080 + 0x1000000 * s + 0x4000 * k
/-- Address of FAULT_POP, CLUSTER block (04). -/
abbrev R.FAULT_POP (s : Nat) (k : Nat) : Nat := 0x4050088 + 0x1000000 * s + 0x4000 * k
/-- Address of FAULT_INFO, CLUSTER block (04). -/
abbrev R.FAULT_INFO (s : Nat) (k : Nat) : Nat := 0x4050090 + 0x1000000 * s + 0x4000 * k
/-- Address of FAULT_PC, CLUSTER block (04). -/
abbrev R.FAULT_PC (s : Nat) (k : Nat) : Nat := 0x4050098 + 0x1000000 * s + 0x4000 * k
/-- Address of FAULT_TVAL, CLUSTER block (04). -/
abbrev R.FAULT_TVAL (s : Nat) (k : Nat) : Nat := 0x40500a0 + 0x1000000 * s + 0x4000 * k
/-- Address of FAULT_TIME, CLUSTER block (04). -/
abbrev R.FAULT_TIME (s : Nat) (k : Nat) : Nat := 0x40500a8 + 0x1000000 * s + 0x4000 * k
/-- Address of THREAD_CTRL[i], CLUSTER block (04). -/
abbrev R.THREAD_CTRL (s : Nat) (k : Nat) (i : Nat) : Nat := 0x4050100 + 0x1000000 * s + 0x4000 * k + 0x8 * i
/-- Address of THREAD_PC[i], CLUSTER block (04). -/
abbrev R.THREAD_PC (s : Nat) (k : Nat) (i : Nat) : Nat := 0x4050200 + 0x1000000 * s + 0x4000 * k + 0x8 * i
/-- Address of THREAD_STATE[i], CLUSTER block (04). -/
abbrev R.THREAD_STATE (s : Nat) (k : Nat) (i : Nat) : Nat := 0x4050300 + 0x1000000 * s + 0x4000 * k + 0x8 * i
/-- Address of CH_BIND[m], CLUSTER block (04). -/
abbrev R.CH_BIND (s : Nat) (k : Nat) (m : Nat) : Nat := 0x4050400 + 0x1000000 * s + 0x4000 * k + 0x8 * m
/-- Address of CH_STATE[m], CLUSTER block (04). -/
abbrev R.CH_STATE (s : Nat) (k : Nat) (m : Nat) : Nat := 0x4050600 + 0x1000000 * s + 0x4000 * k + 0x8 * m
/-- Address of CH_ABORT, CLUSTER block (04). -/
abbrev R.CH_ABORT (s : Nat) (k : Nat) : Nat := 0x4050800 + 0x1000000 * s + 0x4000 * k
/-- Address of CH_MSGS, CLUSTER block (04). -/
abbrev R.CH_MSGS (s : Nat) (k : Nat) : Nat := 0x4050808 + 0x1000000 * s + 0x4000 * k
/-- Address of CH_OPEN_BUSY, CLUSTER block (04). -/
abbrev R.CH_OPEN_BUSY (s : Nat) (k : Nat) : Nat := 0x4050810 + 0x1000000 * s + 0x4000 * k
/-- Address of CH_ABORTS, CLUSTER block (04). -/
abbrev R.CH_ABORTS (s : Nat) (k : Nat) : Nat := 0x4050818 + 0x1000000 * s + 0x4000 * k
/-- Address of CH_HW_DEFER, CLUSTER block (04). -/
abbrev R.CH_HW_DEFER (s : Nat) (k : Nat) : Nat := 0x4050820 + 0x1000000 * s + 0x4000 * k
/-- Address of CH_HW_DROP, CLUSTER block (04). -/
abbrev R.CH_HW_DROP (s : Nat) (k : Nat) : Nat := 0x4050828 + 0x1000000 * s + 0x4000 * k
/-- Address of REGION_BASE[j], CLUSTER block (04). -/
abbrev R.REGION_BASE (s : Nat) (k : Nat) (j : Nat) : Nat := 0x4050900 + 0x1000000 * s + 0x4000 * k + 0x8 * j
/-- Address of REGION_LIMIT[j], CLUSTER block (04). -/
abbrev R.REGION_LIMIT (s : Nat) (k : Nat) (j : Nat) : Nat := 0x4050980 + 0x1000000 * s + 0x4000 * k + 0x8 * j
/-- Address of REGION_CFG[j], CLUSTER block (04). -/
abbrev R.REGION_CFG (s : Nat) (k : Nat) (j : Nat) : Nat := 0x4050a00 + 0x1000000 * s + 0x4000 * k + 0x8 * j
/-- Address of THREAD_GPR[i], CLUSTER block (04). -/
abbrev R.THREAD_GPR (s : Nat) (k : Nat) (i : Nat) (r : Nat) : Nat := 0x4052000 + 0x1000000 * s + 0x4000 * k + 0x100 * i + 0x8 * r
/-- Address of RING_POOL_FREE, RING block (05). -/
abbrev R.RING_POOL_FREE (s : Nat) : Nat := 0x4200000 + 0x1000000 * s
/-- Address of RING_POOL_COMMIT, RING block (05). -/
abbrev R.RING_POOL_COMMIT (s : Nat) : Nat := 0x4200008 + 0x1000000 * s
/-- Address of RING_SLICE_CFG, RING block (05). -/
abbrev R.RING_SLICE_CFG (s : Nat) : Nat := 0x4200010 + 0x1000000 * s
/-- Address of RING_POOL_PEAK, RING block (05). -/
abbrev R.RING_POOL_PEAK (s : Nat) : Nat := 0x4200018 + 0x1000000 * s
/-- Address of RING_INT_STATUS, RING block (05). -/
abbrev R.RING_INT_STATUS (s : Nat) : Nat := 0x4200020 + 0x1000000 * s
/-- Address of RING_INT_ENABLE, RING block (05). -/
abbrev R.RING_INT_ENABLE (s : Nat) : Nat := 0x4200028 + 0x1000000 * s
/-- Address of SR_BASE[q], RING block (05). -/
abbrev R.SR_BASE (s : Nat) (q : Nat) : Nat := 0x4300000 + 0x1000000 * s + 0x80 * q
/-- Address of SR_CFG[q], RING block (05). -/
abbrev R.SR_CFG (s : Nat) (q : Nat) : Nat := 0x4300008 + 0x1000000 * s + 0x80 * q
/-- Address of SR_CTRL[q], RING block (05). -/
abbrev R.SR_CTRL (s : Nat) (q : Nat) : Nat := 0x4300010 + 0x1000000 * s + 0x80 * q
/-- Address of SR_STATE[q], RING block (05). -/
abbrev R.SR_STATE (s : Nat) (q : Nat) : Nat := 0x4300018 + 0x1000000 * s + 0x80 * q
/-- Address of SR_HEAD[q], RING block (05). -/
abbrev R.SR_HEAD (s : Nat) (q : Nat) : Nat := 0x4300020 + 0x1000000 * s + 0x80 * q
/-- Address of SR_TAIL[q], RING block (05). -/
abbrev R.SR_TAIL (s : Nat) (q : Nat) : Nat := 0x4300028 + 0x1000000 * s + 0x80 * q
/-- Address of SR_JOBS[q], RING block (05). -/
abbrev R.SR_JOBS (s : Nat) (q : Nat) : Nat := 0x4300030 + 0x1000000 * s + 0x80 * q
/-- Address of SR_DB_ERR[q], RING block (05). -/
abbrev R.SR_DB_ERR (s : Nat) (q : Nat) : Nat := 0x4300038 + 0x1000000 * s + 0x80 * q
/-- Address of SR_CHAIN_ERR[q], RING block (05). -/
abbrev R.SR_CHAIN_ERR (s : Nat) (q : Nat) : Nat := 0x4300040 + 0x1000000 * s + 0x80 * q
/-- Address of SR_RX_DROP[q], RING block (05). -/
abbrev R.SR_RX_DROP (s : Nat) (q : Nat) : Nat := 0x4300048 + 0x1000000 * s + 0x80 * q
/-- Address of CR_BASE[c], RING block (05). -/
abbrev R.CR_BASE (s : Nat) (c : Nat) : Nat := 0x4400000 + 0x1000000 * s + 0x80 * c
/-- Address of CR_CFG[c], RING block (05). -/
abbrev R.CR_CFG (s : Nat) (c : Nat) : Nat := 0x4400008 + 0x1000000 * s + 0x80 * c
/-- Address of CR_CTRL[c], RING block (05). -/
abbrev R.CR_CTRL (s : Nat) (c : Nat) : Nat := 0x4400010 + 0x1000000 * s + 0x80 * c
/-- Address of CR_STATE[c], RING block (05). -/
abbrev R.CR_STATE (s : Nat) (c : Nat) : Nat := 0x4400018 + 0x1000000 * s + 0x80 * c
/-- Address of CR_HEAD[c], RING block (05). -/
abbrev R.CR_HEAD (s : Nat) (c : Nat) : Nat := 0x4400020 + 0x1000000 * s + 0x80 * c
/-- Address of CR_TAIL[c], RING block (05). -/
abbrev R.CR_TAIL (s : Nat) (c : Nat) : Nat := 0x4400028 + 0x1000000 * s + 0x80 * c
/-- Address of CR_INT_CFG[c], RING block (05). -/
abbrev R.CR_INT_CFG (s : Nat) (c : Nat) : Nat := 0x4400030 + 0x1000000 * s + 0x80 * c
/-- Address of CR_WRITTEN[c], RING block (05). -/
abbrev R.CR_WRITTEN (s : Nat) (c : Nat) : Nat := 0x4400038 + 0x1000000 * s + 0x80 * c
/-- Address of CR_HELD_TOTAL[c], RING block (05). -/
abbrev R.CR_HELD_TOTAL (s : Nat) (c : Nat) : Nat := 0x4400040 + 0x1000000 * s + 0x80 * c
/-- Address of CR_OVERFLOW_EVENTS[c], RING block (05). -/
abbrev R.CR_OVERFLOW_EVENTS (s : Nat) (c : Nat) : Nat := 0x4400048 + 0x1000000 * s + 0x80 * c
/-- Address of CR_LOST[c], RING block (05). -/
abbrev R.CR_LOST (s : Nat) (c : Nat) : Nat := 0x4400050 + 0x1000000 * s + 0x80 * c
/-- Address of CR_DB_ERR[c], RING block (05). -/
abbrev R.CR_DB_ERR (s : Nat) (c : Nat) : Nat := 0x4400058 + 0x1000000 * s + 0x80 * c
/-- Address of PARSE_BANK, PARSE block (06). -/
abbrev R.PARSE_BANK (s : Nat) : Nat := 0x4060000 + 0x1000000 * s
/-- Address of PARSE_STEP_LIMIT, PARSE block (06). -/
abbrev R.PARSE_STEP_LIMIT (s : Nat) : Nat := 0x4060008 + 0x1000000 * s
/-- Address of PARSE_QUEUE_DEPTH, PARSE block (06). -/
abbrev R.PARSE_QUEUE_DEPTH (s : Nat) : Nat := 0x4060010 + 0x1000000 * s
/-- Address of PARSE_QUEUE_PEAK, PARSE block (06). -/
abbrev R.PARSE_QUEUE_PEAK (s : Nat) : Nat := 0x4060018 + 0x1000000 * s
/-- Address of PARSE_QUEUE_DROP, PARSE block (06). -/
abbrev R.PARSE_QUEUE_DROP (s : Nat) : Nat := 0x4060020 + 0x1000000 * s
/-- Address of PARSE_FRAMES, PARSE block (06). -/
abbrev R.PARSE_FRAMES (s : Nat) : Nat := 0x4060028 + 0x1000000 * s
/-- Address of PARSE_SLOTS, PARSE block (06). -/
abbrev R.PARSE_SLOTS (s : Nat) : Nat := 0x4060030 + 0x1000000 * s
/-- Address of PARSE_EXC_HANDLE, PARSE block (06). -/
abbrev R.PARSE_EXC_HANDLE (s : Nat) : Nat := 0x4060038 + 0x1000000 * s
/-- Address of PARSE_EXC_DROP, PARSE block (06). -/
abbrev R.PARSE_EXC_DROP (s : Nat) : Nat := 0x4060040 + 0x1000000 * s
/-- Address of PARSE_INT_STATUS, PARSE block (06). -/
abbrev R.PARSE_INT_STATUS (s : Nat) : Nat := 0x4060048 + 0x1000000 * s
/-- Address of PARSE_INT_ENABLE, PARSE block (06). -/
abbrev R.PARSE_INT_ENABLE (s : Nat) : Nat := 0x4060050 + 0x1000000 * s
/-- Address of PARSE_FAULT_INFO, PARSE block (06). -/
abbrev R.PARSE_FAULT_INFO (s : Nat) : Nat := 0x4060058 + 0x1000000 * s
/-- Address of PARSE_PARAM[n], PARSE block (06). -/
abbrev R.PARSE_PARAM (s : Nat) (n : Nat) : Nat := 0x4060080 + 0x1000000 * s + 0x8 * n
/-- Address of PARSE_PORT_CFG[p], PARSE block (06). -/
abbrev R.PARSE_PORT_CFG (s : Nat) (p : Nat) : Nat := 0x4060100 + 0x1000000 * s + 0x8 * p
/-- Address of MAL_ACTION[m], PARSE block (06). -/
abbrev R.MAL_ACTION (s : Nat) (m : Nat) : Nat := 0x4060200 + 0x1000000 * s + 0x8 * m
/-- Address of MAL_COUNT[m], PARSE block (06). -/
abbrev R.MAL_COUNT (s : Nat) (m : Nat) : Nat := 0x4060280 + 0x1000000 * s + 0x8 * m
/-- Address of PARSE_PROG[a], PARSE block (06). -/
abbrev R.PARSE_PROG (s : Nat) (a : Nat) : Nat := 0x4068000 + 0x1000000 * s + 0x4 * a
/-- Address of RULE_MISS_ACTION, CLS block (06). -/
abbrev R.RULE_MISS_ACTION (s : Nat) : Nat := 0x4600000 + 0x1000000 * s
/-- Address of RULE_MISS, CLS block (06). -/
abbrev R.RULE_MISS (s : Nat) : Nat := 0x4600008 + 0x1000000 * s
/-- Address of RULE_DROP, CLS block (06). -/
abbrev R.RULE_DROP (s : Nat) : Nat := 0x4600010 + 0x1000000 * s
/-- Address of RULE_COMMITS, CLS block (06). -/
abbrev R.RULE_COMMITS (s : Nat) : Nat := 0x4600018 + 0x1000000 * s
/-- Address of CLS_LOOKUPS, CLS block (06). -/
abbrev R.CLS_LOOKUPS (s : Nat) : Nat := 0x4600020 + 0x1000000 * s
/-- Address of KEY_PROFILE[c], CLS block (06). -/
abbrev R.KEY_PROFILE (s : Nat) (c : Nat) : Nat := 0x4600100 + 0x1000000 * s + 0x8 * c
/-- Address of RULE_STAGE[w], CLS block (06). -/
abbrev R.RULE_STAGE (s : Nat) (w : Nat) (u : Nat) : Nat := 0x4601000 + 0x1000000 * s + 0x80 * w + 0x8 * u
/-- Address of RULE_COMMIT[w], CLS block (06). -/
abbrev R.RULE_COMMIT (s : Nat) (w : Nat) : Nat := 0x4601400 + 0x1000000 * s + 0x8 * w
/-- Address of RULE_HITS[i], CLS block (06). -/
abbrev R.RULE_HITS (s : Nat) (i : Nat) : Nat := 0x4700000 + 0x1000000 * s + 0x8 * i
/-- Address of RULE_ENTRY[i], CLS block (06). -/
abbrev R.RULE_ENTRY (s : Nat) (i : Nat) (u : Nat) : Nat := 0x4800000 + 0x1000000 * s + 0x80 * i + 0x8 * u
/-- Address of CAT_LOOKUPS, CAT block (07). -/
abbrev R.CAT_LOOKUPS (s : Nat) : Nat := 0x4070000 + 0x1000000 * s
/-- Address of CAT_INVALID_DROP, CAT block (07). -/
abbrev R.CAT_INVALID_DROP (s : Nat) : Nat := 0x4070008 + 0x1000000 * s
/-- Address of CAT_FAULT_DROP, CAT block (07). -/
abbrev R.CAT_FAULT_DROP (s : Nat) : Nat := 0x4070010 + 0x1000000 * s
/-- Address of CAT_FED_LOOP, CAT block (07). -/
abbrev R.CAT_FED_LOOP (s : Nat) : Nat := 0x4070018 + 0x1000000 * s
/-- Address of CAT_COMMITS, CAT block (07). -/
abbrev R.CAT_COMMITS (s : Nat) : Nat := 0x4070020 + 0x1000000 * s
/-- Address of CAT_STATE_STALE, CAT block (07). -/
abbrev R.CAT_STATE_STALE (s : Nat) : Nat := 0x4070028 + 0x1000000 * s
/-- Address of FLOOD_COPIES, CAT block (07). -/
abbrev R.FLOOD_COPIES (s : Nat) : Nat := 0x4070030 + 0x1000000 * s
/-- Address of DELIVERED, CAT block (07). -/
abbrev R.DELIVERED (s : Nat) : Nat := 0x4070038 + 0x1000000 * s
/-- Address of DELIVER_NO_TOKEN, CAT block (07). -/
abbrev R.DELIVER_NO_TOKEN (s : Nat) : Nat := 0x4070040 + 0x1000000 * s
/-- Address of DELIVER_INUSE, CAT block (07). -/
abbrev R.DELIVER_INUSE (s : Nat) : Nat := 0x4070048 + 0x1000000 * s
/-- Address of DELIVER_BAD, CAT block (07). -/
abbrev R.DELIVER_BAD (s : Nat) : Nat := 0x4070050 + 0x1000000 * s
/-- Address of CAT_INT_STATUS, CAT block (07). -/
abbrev R.CAT_INT_STATUS (s : Nat) : Nat := 0x4070058 + 0x1000000 * s
/-- Address of CAT_INT_ENABLE, CAT block (07). -/
abbrev R.CAT_INT_ENABLE (s : Nat) : Nat := 0x4070060 + 0x1000000 * s
/-- Address of DELIVER_CTRL, CAT block (07). -/
abbrev R.DELIVER_CTRL (s : Nat) : Nat := 0x4070080 + 0x1000000 * s
/-- Address of CAT_STAGE[w], CAT block (07). -/
abbrev R.CAT_STAGE (s : Nat) (w : Nat) (u : Nat) : Nat := 0x4071000 + 0x1000000 * s + 0x40 * w + 0x8 * u
/-- Address of CAT_COMMIT[w], CAT block (07). -/
abbrev R.CAT_COMMIT (s : Nat) (w : Nat) : Nat := 0x4071200 + 0x1000000 * s + 0x8 * w
/-- Address of CAT_READ[w], CAT block (07). -/
abbrev R.CAT_READ (s : Nat) (w : Nat) : Nat := 0x4071300 + 0x1000000 * s + 0x8 * w
/-- Address of CAT_SNAP[w], CAT block (07). -/
abbrev R.CAT_SNAP (s : Nat) (w : Nat) (u : Nat) : Nat := 0x4071400 + 0x1000000 * s + 0x40 * w + 0x8 * u
/-- Address of FLOOD_PORTS[g], CAT block (07). -/
abbrev R.FLOOD_PORTS (s : Nat) (g : Nat) : Nat := 0x4078000 + 0x1000000 * s + 0x8 * g
/-- Address of ADDR_AGE_TIME, ADDR block (07). -/
abbrev R.ADDR_AGE_TIME (s : Nat) : Nat := 0x4080000 + 0x1000000 * s
/-- Address of ADDR_ENTRIES, ADDR block (07). -/
abbrev R.ADDR_ENTRIES (s : Nat) : Nat := 0x4080008 + 0x1000000 * s
/-- Address of ADDR_LOOKUPS, ADDR block (07). -/
abbrev R.ADDR_LOOKUPS (s : Nat) : Nat := 0x4080010 + 0x1000000 * s
/-- Address of ADDR_HITS, ADDR block (07). -/
abbrev R.ADDR_HITS (s : Nat) : Nat := 0x4080018 + 0x1000000 * s
/-- Address of ADDR_LEARNED, ADDR block (07). -/
abbrev R.ADDR_LEARNED (s : Nat) : Nat := 0x4080020 + 0x1000000 * s
/-- Address of ADDR_MOVES, ADDR block (07). -/
abbrev R.ADDR_MOVES (s : Nat) : Nat := 0x4080028 + 0x1000000 * s
/-- Address of ADDR_AGED, ADDR block (07). -/
abbrev R.ADDR_AGED (s : Nat) : Nat := 0x4080030 + 0x1000000 * s
/-- Address of ADDR_COLLIDE, ADDR block (07). -/
abbrev R.ADDR_COLLIDE (s : Nat) : Nat := 0x4080038 + 0x1000000 * s
/-- Address of ADDR_LEARN_QDROP, ADDR block (07). -/
abbrev R.ADDR_LEARN_QDROP (s : Nat) : Nat := 0x4080040 + 0x1000000 * s
/-- Address of ADDR_STATIC_HIT, ADDR block (07). -/
abbrev R.ADDR_STATIC_HIT (s : Nat) : Nat := 0x4080048 + 0x1000000 * s
/-- Address of ADDR_SAME_PORT_DROP, ADDR block (07). -/
abbrev R.ADDR_SAME_PORT_DROP (s : Nat) : Nat := 0x4080050 + 0x1000000 * s
/-- Address of ADDR_POISON, ADDR block (07). -/
abbrev R.ADDR_POISON (s : Nat) : Nat := 0x4080058 + 0x1000000 * s
/-- Address of ADDR_PREFETCH_MISS, ADDR block (07). -/
abbrev R.ADDR_PREFETCH_MISS (s : Nat) : Nat := 0x4080060 + 0x1000000 * s
/-- Address of PROV_TX, ADDR block (07). -/
abbrev R.PROV_TX (s : Nat) : Nat := 0x4080068 + 0x1000000 * s
/-- Address of PROV_RX, ADDR block (07). -/
abbrev R.PROV_RX (s : Nat) : Nat := 0x4080070 + 0x1000000 * s
/-- Address of PROV_STALE, ADDR block (07). -/
abbrev R.PROV_STALE (s : Nat) : Nat := 0x4080078 + 0x1000000 * s
/-- Address of PROV_TX_DROP, ADDR block (07). -/
abbrev R.PROV_TX_DROP (s : Nat) : Nat := 0x4080080 + 0x1000000 * s
/-- Address of PROV_RX_DROP, ADDR block (07). -/
abbrev R.PROV_RX_DROP (s : Nat) : Nat := 0x4080088 + 0x1000000 * s
/-- Address of PROV_IGNORED, ADDR block (07). -/
abbrev R.PROV_IGNORED (s : Nat) : Nat := 0x4080090 + 0x1000000 * s
/-- Address of PROV_BAD, ADDR block (07). -/
abbrev R.PROV_BAD (s : Nat) : Nat := 0x4080098 + 0x1000000 * s
/-- Address of ADDR_INT_STATUS, ADDR block (07). -/
abbrev R.ADDR_INT_STATUS (s : Nat) : Nat := 0x40800a0 + 0x1000000 * s
/-- Address of ADDR_INT_ENABLE, ADDR block (07). -/
abbrev R.ADDR_INT_ENABLE (s : Nat) : Nat := 0x40800a8 + 0x1000000 * s
/-- Address of PROV_CTRL, ADDR block (07). -/
abbrev R.PROV_CTRL (s : Nat) : Nat := 0x40800b0 + 0x1000000 * s
/-- Address of PORT_LEARN_LIMIT[p], ADDR block (07). -/
abbrev R.PORT_LEARN_LIMIT (s : Nat) (p : Nat) : Nat := 0x4080100 + 0x1000000 * s + 0x8 * p
/-- Address of PORT_LEARN_COUNT[p], ADDR block (07). -/
abbrev R.PORT_LEARN_COUNT (s : Nat) (p : Nat) : Nat := 0x4080140 + 0x1000000 * s + 0x8 * p
/-- Address of PORT_L2_CFG[p], ADDR block (07). -/
abbrev R.PORT_L2_CFG (s : Nat) (p : Nat) : Nat := 0x4080180 + 0x1000000 * s + 0x8 * p
/-- Address of ADDR_OVER_LIMIT[p], ADDR block (07). -/
abbrev R.ADDR_OVER_LIMIT (s : Nat) (p : Nat) : Nat := 0x40801c0 + 0x1000000 * s + 0x8 * p
/-- Address of ADDR_STAGE[w], ADDR block (07). -/
abbrev R.ADDR_STAGE (s : Nat) (w : Nat) (u : Nat) : Nat := 0x4080200 + 0x1000000 * s + 0x20 * w + 0x8 * u
/-- Address of ADDR_CMD[w], ADDR block (07). -/
abbrev R.ADDR_CMD (s : Nat) (w : Nat) : Nat := 0x4080240 + 0x1000000 * s + 0x8 * w
/-- Address of ADDR_RESULT[w], ADDR block (07). -/
abbrev R.ADDR_RESULT (s : Nat) (w : Nat) : Nat := 0x4080250 + 0x1000000 * s + 0x8 * w
/-- Address of CIPHER_PAIR_STATE, CIPHER block (08). -/
abbrev R.CIPHER_PAIR_STATE (s : Nat) : Nat := 0x4090000 + 0x1000000 * s
/-- Address of CIPHER_JOBS, CIPHER block (08). -/
abbrev R.CIPHER_JOBS (s : Nat) : Nat := 0x4090008 + 0x1000000 * s
/-- Address of CIPHER_BYTES, CIPHER block (08). -/
abbrev R.CIPHER_BYTES (s : Nat) : Nat := 0x4090010 + 0x1000000 * s
/-- Address of CIPHER_DISPATCH_WAIT, CIPHER block (08). -/
abbrev R.CIPHER_DISPATCH_WAIT (s : Nat) : Nat := 0x4090018 + 0x1000000 * s
/-- Address of KC_HITS, CIPHER block (08). -/
abbrev R.KC_HITS (s : Nat) : Nat := 0x4090020 + 0x1000000 * s
/-- Address of KC_MISSES, CIPHER block (08). -/
abbrev R.KC_MISSES (s : Nat) : Nat := 0x4090028 + 0x1000000 * s
/-- Address of KC_EVICT, CIPHER block (08). -/
abbrev R.KC_EVICT (s : Nat) : Nat := 0x4090030 + 0x1000000 * s
/-- Address of KC_ENTRIES, CIPHER block (08). -/
abbrev R.KC_ENTRIES (s : Nat) : Nat := 0x4090038 + 0x1000000 * s
/-- Address of KDF_DERIVES, CIPHER block (08). -/
abbrev R.KDF_DERIVES (s : Nat) : Nat := 0x4090040 + 0x1000000 * s
/-- Address of CIPHER_AUTH_FAIL, CIPHER block (08). -/
abbrev R.CIPHER_AUTH_FAIL (s : Nat) : Nat := 0x4090048 + 0x1000000 * s
/-- Address of CIPHER_REPLAY, CIPHER block (08). -/
abbrev R.CIPHER_REPLAY (s : Nat) : Nat := 0x4090050 + 0x1000000 * s
/-- Address of CIPHER_SEQ_EXHAUSTED, CIPHER block (08). -/
abbrev R.CIPHER_SEQ_EXHAUSTED (s : Nat) : Nat := 0x4090058 + 0x1000000 * s
/-- Address of CIPHER_TLS_PASSTHRU, CIPHER block (08). -/
abbrev R.CIPHER_TLS_PASSTHRU (s : Nat) : Nat := 0x4090060 + 0x1000000 * s
/-- Address of CIPHER_XFORM_INVALID, CIPHER block (08). -/
abbrev R.CIPHER_XFORM_INVALID (s : Nat) : Nat := 0x4090068 + 0x1000000 * s
/-- Address of CIPHER_ALARMS, CIPHER block (08). -/
abbrev R.CIPHER_ALARMS (s : Nat) : Nat := 0x4090070 + 0x1000000 * s
/-- Address of CIPHER_SLICE_ALARMS, CIPHER block (08). -/
abbrev R.CIPHER_SLICE_ALARMS (s : Nat) : Nat := 0x4090078 + 0x1000000 * s
/-- Address of CIPHER_ALARM_INFO, CIPHER block (08). -/
abbrev R.CIPHER_ALARM_INFO (s : Nat) : Nat := 0x4090080 + 0x1000000 * s
/-- Address of CIPHER_INT_STATUS, CIPHER block (08). -/
abbrev R.CIPHER_INT_STATUS (s : Nat) : Nat := 0x4090088 + 0x1000000 * s
/-- Address of CIPHER_INT_ENABLE, CIPHER block (08). -/
abbrev R.CIPHER_INT_ENABLE (s : Nat) : Nat := 0x4090090 + 0x1000000 * s
/-- Address of CIPHER_SELFTEST, CIPHER block (08). -/
abbrev R.CIPHER_SELFTEST (s : Nat) : Nat := 0x4090098 + 0x1000000 * s
/-- Address of BKT_BINDS, CIPHER block (08). -/
abbrev R.BKT_BINDS (s : Nat) : Nat := 0x40900a0 + 0x1000000 * s
/-- Address of BKT_UNBINDS, CIPHER block (08). -/
abbrev R.BKT_UNBINDS (s : Nat) : Nat := 0x40900a8 + 0x1000000 * s
/-- Address of INFLIGHT_PEAK, CIPHER block (08). -/
abbrev R.INFLIGHT_PEAK (s : Nat) : Nat := 0x40900b0 + 0x1000000 * s
/-- Address of PAIR_JOBS[x], CIPHER block (08). -/
abbrev R.PAIR_JOBS (s : Nat) (x : Nat) : Nat := 0x4090100 + 0x1000000 * s + 0x8 * x
/-- Address of PAIR_ALARMS[x], CIPHER block (08). -/
abbrev R.PAIR_ALARMS (s : Nat) (x : Nat) : Nat := 0x4090180 + 0x1000000 * s + 0x8 * x
/-- Address of ROOT_SLOT[n], ROOTKEY block (08). -/
abbrev R.ROOT_SLOT (n : Nat) : Nat := 0x8130000 + 0x8 * n
/-- Address of RNG_STATUS, ROOTKEY block (08). -/
abbrev R.RNG_STATUS : Nat := 0x8130080
/-- Address of RNG_HEALTH_FAIL, ROOTKEY block (08). -/
abbrev R.RNG_HEALTH_FAIL : Nat := 0x8130088
/-- Address of RNG_RESEEDS, ROOTKEY block (08). -/
abbrev R.RNG_RESEEDS : Nat := 0x8130090
/-- Address of RNG_BYTES, ROOTKEY block (08). -/
abbrev R.RNG_BYTES : Nat := 0x8130098
/-- Address of TAMPER_STATUS, ROOTKEY block (08). -/
abbrev R.TAMPER_STATUS : Nat := 0x81300a0
/-- Address of TAMPER_ERASES, ROOTKEY block (08). -/
abbrev R.TAMPER_ERASES : Nat := 0x81300a8
/-- Address of ROOT_RELOADS, ROOTKEY block (08). -/
abbrev R.ROOT_RELOADS : Nat := 0x81300b0
/-- Address of ROOT_INT_STATUS, ROOTKEY block (08). -/
abbrev R.ROOT_INT_STATUS : Nat := 0x81300b8
/-- Address of ROOT_INT_ENABLE, ROOTKEY block (08). -/
abbrev R.ROOT_INT_ENABLE : Nat := 0x81300c0
/-- Address of ROOT_PROVISION, ROOTKEY block (08). -/
abbrev R.ROOT_PROVISION : Nat := 0x81300c8
/-- Address of KRA_QP_CMD, KRA block (09). -/
abbrev R.KRA_QP_CMD (s : Nat) : Nat := 0x40a0000 + 0x1000000 * s
/-- Address of KRA_QP_RESULT, KRA block (09). -/
abbrev R.KRA_QP_RESULT (s : Nat) : Nat := 0x40a0008 + 0x1000000 * s
/-- Address of KRA_INT_STATUS, KRA block (09). -/
abbrev R.KRA_INT_STATUS (s : Nat) : Nat := 0x40a0010 + 0x1000000 * s
/-- Address of KRA_INT_ENABLE, KRA block (09). -/
abbrev R.KRA_INT_ENABLE (s : Nat) : Nat := 0x40a0018 + 0x1000000 * s
/-- Address of KRA_MR_ACTIVE, KRA block (09). -/
abbrev R.KRA_MR_ACTIVE (s : Nat) : Nat := 0x40a0020 + 0x1000000 * s
/-- Address of KRA_MISS_DEPTH, KRA block (09). -/
abbrev R.KRA_MISS_DEPTH (s : Nat) : Nat := 0x40a0028 + 0x1000000 * s
/-- Address of KRA_MISS_PEAK, KRA block (09). -/
abbrev R.KRA_MISS_PEAK (s : Nat) : Nat := 0x40a0030 + 0x1000000 * s
/-- Address of KRA_CTX_RESIDENT, KRA block (09). -/
abbrev R.KRA_CTX_RESIDENT (s : Nat) : Nat := 0x40a0038 + 0x1000000 * s
/-- Address of KRA_TX_PKTS, KRA block (09). -/
abbrev R.KRA_TX_PKTS (s : Nat) : Nat := 0x40a0100 + 0x1000000 * s
/-- Address of KRA_TX_BYTES, KRA block (09). -/
abbrev R.KRA_TX_BYTES (s : Nat) : Nat := 0x40a0108 + 0x1000000 * s
/-- Address of KRA_RX_PKTS, KRA block (09). -/
abbrev R.KRA_RX_PKTS (s : Nat) : Nat := 0x40a0110 + 0x1000000 * s
/-- Address of KRA_RX_BYTES, KRA block (09). -/
abbrev R.KRA_RX_BYTES (s : Nat) : Nat := 0x40a0118 + 0x1000000 * s
/-- Address of KRA_RETRANSMITS, KRA block (09). -/
abbrev R.KRA_RETRANSMITS (s : Nat) : Nat := 0x40a0120 + 0x1000000 * s
/-- Address of KRA_TIMEOUTS, KRA block (09). -/
abbrev R.KRA_TIMEOUTS (s : Nat) : Nat := 0x40a0128 + 0x1000000 * s
/-- Address of KRA_NAK_TX, KRA block (09). -/
abbrev R.KRA_NAK_TX (s : Nat) : Nat := 0x40a0130 + 0x1000000 * s
/-- Address of KRA_NAK_RX, KRA block (09). -/
abbrev R.KRA_NAK_RX (s : Nat) : Nat := 0x40a0138 + 0x1000000 * s
/-- Address of KRA_RX_AUTH_FAIL, KRA block (09). -/
abbrev R.KRA_RX_AUTH_FAIL (s : Nat) : Nat := 0x40a0140 + 0x1000000 * s
/-- Address of KRA_RX_OUT_OF_SEQ, KRA block (09). -/
abbrev R.KRA_RX_OUT_OF_SEQ (s : Nat) : Nat := 0x40a0148 + 0x1000000 * s
/-- Address of KRA_RX_DUPLICATE, KRA block (09). -/
abbrev R.KRA_RX_DUPLICATE (s : Nat) : Nat := 0x40a0150 + 0x1000000 * s
/-- Address of KRA_LATE_RESPONSE, KRA block (09). -/
abbrev R.KRA_LATE_RESPONSE (s : Nat) : Nat := 0x40a0158 + 0x1000000 * s
/-- Address of KRA_RX_QP_MISMATCH, KRA block (09). -/
abbrev R.KRA_RX_QP_MISMATCH (s : Nat) : Nat := 0x40a0160 + 0x1000000 * s
/-- Address of KRA_RX_NO_QP, KRA block (09). -/
abbrev R.KRA_RX_NO_QP (s : Nat) : Nat := 0x40a0168 + 0x1000000 * s
/-- Address of KRA_RX_BAD_VERSION, KRA block (09). -/
abbrev R.KRA_RX_BAD_VERSION (s : Nat) : Nat := 0x40a0170 + 0x1000000 * s
/-- Address of KRA_ACCESS_VIOLATION, KRA block (09). -/
abbrev R.KRA_ACCESS_VIOLATION (s : Nat) : Nat := 0x40a0178 + 0x1000000 * s
/-- Address of KRA_EVENT_DROP, KRA block (09). -/
abbrev R.KRA_EVENT_DROP (s : Nat) : Nat := 0x40a0180 + 0x1000000 * s
/-- Address of KRA_CTX_HITS, KRA block (09). -/
abbrev R.KRA_CTX_HITS (s : Nat) : Nat := 0x40a0188 + 0x1000000 * s
/-- Address of KRA_CTX_MISSES, KRA block (09). -/
abbrev R.KRA_CTX_MISSES (s : Nat) : Nat := 0x40a0190 + 0x1000000 * s
/-- Address of KRA_CTX_EVICT, KRA block (09). -/
abbrev R.KRA_CTX_EVICT (s : Nat) : Nat := 0x40a0198 + 0x1000000 * s
/-- Address of KRA_CTX_PIN_WAIT, KRA block (09). -/
abbrev R.KRA_CTX_PIN_WAIT (s : Nat) : Nat := 0x40a01a0 + 0x1000000 * s
/-- Address of KRA_MISS_DROP, KRA block (09). -/
abbrev R.KRA_MISS_DROP (s : Nat) : Nat := 0x40a01a8 + 0x1000000 * s
/-- Address of KRA_REG_REMOTE_CHECKS, KRA block (09). -/
abbrev R.KRA_REG_REMOTE_CHECKS (s : Nat) : Nat := 0x40a01b0 + 0x1000000 * s
/-- Address of KRA_REG_WAIT, KRA block (09). -/
abbrev R.KRA_REG_WAIT (s : Nat) : Nat := 0x40a01b8 + 0x1000000 * s
/-- Address of KRA_REVOKES, KRA block (09). -/
abbrev R.KRA_REVOKES (s : Nat) : Nat := 0x40a01c0 + 0x1000000 * s
/-- Address of KRA_REVOKES_FORCED, KRA block (09). -/
abbrev R.KRA_REVOKES_FORCED (s : Nat) : Nat := 0x40a01c8 + 0x1000000 * s
/-- Address of KRA_QP_STAGE[u], KRA block (09). -/
abbrev R.KRA_QP_STAGE (s : Nat) (u : Nat) : Nat := 0x40a0400 + 0x1000000 * s + 0x8 * u
/-- Address of KRA_UDP_PORT, KRA_HUB block (09). -/
abbrev R.KRA_UDP_PORT : Nat := 0x8140000
/-- Address of KRA_DRAIN_LIMIT, KRA_HUB block (09). -/
abbrev R.KRA_DRAIN_LIMIT : Nat := 0x8140008
/-- Address of KRA_ACK_DELAY, KRA_HUB block (09). -/
abbrev R.KRA_ACK_DELAY : Nat := 0x8140010
/-- Address of KRA_CTX_MAP[g], KRA_HUB block (09). -/
abbrev R.KRA_CTX_MAP (g : Nat) : Nat := 0x8140100 + 0x8 * g
/-- Address of KL_CTRL[p], KL block (10). -/
abbrev R.KL_CTRL (p : Nat) : Nat := 0x8150000 + 0x8 * p
/-- Address of KL_STATE[p], KL block (10). -/
abbrev R.KL_STATE (p : Nat) : Nat := 0x8150040 + 0x8 * p
/-- Address of KL_BLOCKS_TX[p], KL block (10). -/
abbrev R.KL_BLOCKS_TX (p : Nat) : Nat := 0x8150080 + 0x8 * p
/-- Address of KL_BLOCKS_RX[p], KL block (10). -/
abbrev R.KL_BLOCKS_RX (p : Nat) : Nat := 0x81500c0 + 0x8 * p
/-- Address of KL_CRC_ERR[p], KL block (10). -/
abbrev R.KL_CRC_ERR (p : Nat) : Nat := 0x8150100 + 0x8 * p
/-- Address of KL_REPLAYS[p], KL block (10). -/
abbrev R.KL_REPLAYS (p : Nat) : Nat := 0x8150140 + 0x8 * p
/-- Address of KL_RETRAINS[p], KL block (10). -/
abbrev R.KL_RETRAINS (p : Nat) : Nat := 0x8150180 + 0x8 * p
/-- Address of KL_FEC_CORR[p], KL block (10). -/
abbrev R.KL_FEC_CORR (p : Nat) : Nat := 0x81501c0 + 0x8 * p
/-- Address of KL_FEC_UNCORR[p], KL block (10). -/
abbrev R.KL_FEC_UNCORR (p : Nat) : Nat := 0x8150200 + 0x8 * p
/-- Address of KL_CREDIT_WAIT[p], KL block (10). -/
abbrev R.KL_CREDIT_WAIT (p : Nat) : Nat := 0x8150240 + 0x8 * p
/-- Address of KL_REPLAY_FULL[p], KL block (10). -/
abbrev R.KL_REPLAY_FULL (p : Nat) : Nat := 0x8150280 + 0x8 * p
/-- Address of KL_TRANSIT_FLITS[p], KL block (10). -/
abbrev R.KL_TRANSIT_FLITS (p : Nat) : Nat := 0x81502c0 + 0x8 * p
/-- Address of KL_LINK_LOSS[p], KL block (10). -/
abbrev R.KL_LINK_LOSS (p : Nat) : Nat := 0x8150300 + 0x8 * p
/-- Address of KL_VC_CREDITS[p], KL block (10). -/
abbrev R.KL_VC_CREDITS (p : Nat) : Nat := 0x8150340 + 0x8 * p
/-- Address of KL_TIME_ADJ[p], KL block (10). -/
abbrev R.KL_TIME_ADJ (p : Nat) : Nat := 0x8150380 + 0x8 * p
/-- Address of KL_TRAIN_FAIL[p], KL block (10). -/
abbrev R.KL_TRAIN_FAIL (p : Nat) : Nat := 0x81503c0 + 0x8 * p
/-- Address of KL_ROUTE[f], KL block (10). -/
abbrev R.KL_ROUTE (f : Nat) : Nat := 0x8150400 + 0x8 * f
/-- Address of KL_HOP_DROP, KL block (10). -/
abbrev R.KL_HOP_DROP : Nat := 0x8150600
/-- Address of KL_UNREACH_DROP, KL block (10). -/
abbrev R.KL_UNREACH_DROP : Nat := 0x8150608
/-- Address of KL_BAD_TYPE, KL block (10). -/
abbrev R.KL_BAD_TYPE : Nat := 0x8150610
/-- Address of KL_IGNORED, KL block (10). -/
abbrev R.KL_IGNORED : Nat := 0x8150618
/-- Address of KL_INT_STATUS, KL block (10). -/
abbrev R.KL_INT_STATUS : Nat := 0x8150620
/-- Address of KL_INT_ENABLE, KL block (10). -/
abbrev R.KL_INT_ENABLE : Nat := 0x8150628
/-- Address of FED_ID, FED block (10). -/
abbrev R.FED_ID : Nat := 0x8160000
/-- Address of FED_STATE, FED block (10). -/
abbrev R.FED_STATE : Nat := 0x8160008
/-- Address of FED_MASTER, FED block (10). -/
abbrev R.FED_MASTER : Nat := 0x8160010
/-- Address of FED_EPOCH, FED block (10). -/
abbrev R.FED_EPOCH : Nat := 0x8160018
/-- Address of FED_MEMBERS, FED block (10). -/
abbrev R.FED_MEMBERS : Nat := 0x8160020
/-- Address of FED_MOVES, FED block (10). -/
abbrev R.FED_MOVES : Nat := 0x8160028
/-- Address of FED_JOIN_REFUSED, FED block (10). -/
abbrev R.FED_JOIN_REFUSED : Nat := 0x8160030
/-- Address of FED_HB_MISS, FED block (10). -/
abbrev R.FED_HB_MISS : Nat := 0x8160038
/-- Address of FED_TIME_STATUS, FED block (10). -/
abbrev R.FED_TIME_STATUS : Nat := 0x8160040
/-- Address of FED_EPOCH_RAISES, FED block (10). -/
abbrev R.FED_EPOCH_RAISES : Nat := 0x8160048
/-- Address of FED_EPOCH_ABORTS, FED block (10). -/
abbrev R.FED_EPOCH_ABORTS : Nat := 0x8160050
/-- Address of FED_INT_STATUS, FED block (10). -/
abbrev R.FED_INT_STATUS : Nat := 0x8160058
/-- Address of FED_INT_ENABLE, FED block (10). -/
abbrev R.FED_INT_ENABLE : Nat := 0x8160060
/-- Address of FE_DB_FWD, FE block (10). -/
abbrev R.FE_DB_FWD : Nat := 0x8170000
/-- Address of FE_DB_IN, FE block (10). -/
abbrev R.FE_DB_IN : Nat := 0x8170008
/-- Address of FE_DB_DROP, FE block (10). -/
abbrev R.FE_DB_DROP : Nat := 0x8170010
/-- Address of FE_READS, FE block (10). -/
abbrev R.FE_READS : Nat := 0x8170018
/-- Address of FE_WRITES, FE block (10). -/
abbrev R.FE_WRITES : Nat := 0x8170020
/-- Address of FE_LATE_CPL, FE block (10). -/
abbrev R.FE_LATE_CPL : Nat := 0x8170028
/-- Address of FE_BIND_MISMATCH, FE block (10). -/
abbrev R.FE_BIND_MISMATCH : Nat := 0x8170030
/-- Address of FE_MMIO_TIMEOUT, FE block (10). -/
abbrev R.FE_MMIO_TIMEOUT : Nat := 0x8170038
/-- Address of FE_SEQ_LOSS, FE block (10). -/
abbrev R.FE_SEQ_LOSS : Nat := 0x8170040
/-- Address of FE_BME_DISCARD, FE block (10). -/
abbrev R.FE_BME_DISCARD : Nat := 0x8170048
/-- Address of FE_READ_TIMEOUT, FE block (10). -/
abbrev R.FE_READ_TIMEOUT : Nat := 0x8170050
/-- Address of FE_BINDINGS, FE block (10). -/
abbrev R.FE_BINDINGS : Nat := 0x8170058
/-- Address of FE_INT_STATUS, FE block (10). -/
abbrev R.FE_INT_STATUS : Nat := 0x8170060
/-- Address of FE_INT_ENABLE, FE block (10). -/
abbrev R.FE_INT_ENABLE : Nat := 0x8170068
/-- Address of NVME_SQ_ACTIVE, NVME block (11). -/
abbrev R.NVME_SQ_ACTIVE (s : Nat) : Nat := 0x40b0000 + 0x1000000 * s
/-- Address of NVME_CQ_ACTIVE, NVME block (11). -/
abbrev R.NVME_CQ_ACTIVE (s : Nat) : Nat := 0x40b0008 + 0x1000000 * s
/-- Address of NVME_CMDS, NVME block (11). -/
abbrev R.NVME_CMDS (s : Nat) : Nat := 0x40b0010 + 0x1000000 * s
/-- Address of NVME_READ_BYTES, NVME block (11). -/
abbrev R.NVME_READ_BYTES (s : Nat) : Nat := 0x40b0018 + 0x1000000 * s
/-- Address of NVME_WRITE_BYTES, NVME block (11). -/
abbrev R.NVME_WRITE_BYTES (s : Nat) : Nat := 0x40b0020 + 0x1000000 * s
/-- Address of NVME_ERR_CPL, NVME block (11). -/
abbrev R.NVME_ERR_CPL (s : Nat) : Nat := 0x40b0028 + 0x1000000 * s
/-- Address of NVME_DB_ERR, NVME block (11). -/
abbrev R.NVME_DB_ERR (s : Nat) : Nat := 0x40b0030 + 0x1000000 * s
/-- Address of NVME_CQ_FULL_WAIT, NVME block (11). -/
abbrev R.NVME_CQ_FULL_WAIT (s : Nat) : Nat := 0x40b0038 + 0x1000000 * s
/-- Address of NVME_SUPPRESSED, NVME block (11). -/
abbrev R.NVME_SUPPRESSED (s : Nat) : Nat := 0x40b0040 + 0x1000000 * s
/-- Address of NVME_PS_DELAYED, NVME block (11). -/
abbrev R.NVME_PS_DELAYED (s : Nat) : Nat := 0x40b0048 + 0x1000000 * s
/-- Address of NVME_SEAL_WAIT, NVME block (11). -/
abbrev R.NVME_SEAL_WAIT (s : Nat) : Nat := 0x40b0050 + 0x1000000 * s
/-- Address of NVME_CAPTURE_RECORDS, NVME block (11). -/
abbrev R.NVME_CAPTURE_RECORDS (s : Nat) : Nat := 0x40b0058 + 0x1000000 * s
/-- Address of NVME_CAPTURE_DROP, NVME block (11). -/
abbrev R.NVME_CAPTURE_DROP (s : Nat) : Nat := 0x40b0060 + 0x1000000 * s
/-- Address of NVME_ABORTED, NVME block (11). -/
abbrev R.NVME_ABORTED (s : Nat) : Nat := 0x40b0068 + 0x1000000 * s
/-- Address of ACC_DENIED, NVME block (11). -/
abbrev R.ACC_DENIED (s : Nat) : Nat := 0x40b0070 + 0x1000000 * s
/-- Address of NVME_INT_STATUS, NVME block (11). -/
abbrev R.NVME_INT_STATUS (s : Nat) : Nat := 0x40b0078 + 0x1000000 * s
/-- Address of NVME_INT_ENABLE, NVME block (11). -/
abbrev R.NVME_INT_ENABLE (s : Nat) : Nat := 0x40b0080 + 0x1000000 * s
/-- Address of NVME_NS_COUNT, NVME_HUB block (11). -/
abbrev R.NVME_NS_COUNT : Nat := 0x8180000
/-- Address of NVME_SELFTEST, NVME_HUB block (11). -/
abbrev R.NVME_SELFTEST : Nat := 0x8180008
/-- Address of NVME_SELFTEST_YIELDS, NVME_HUB block (11). -/
abbrev R.NVME_SELFTEST_YIELDS : Nat := 0x8180010
/-- Address of NVME_SELFTEST_MAX_DELAY, NVME_HUB block (11). -/
abbrev R.NVME_SELFTEST_MAX_DELAY : Nat := 0x8180018
/-- Address of ACC_TIME_FLOOR, NVME_HUB block (11). -/
abbrev R.ACC_TIME_FLOOR : Nat := 0x8180020
/-- Address of ACC_TIME_TRUSTED, NVME_HUB block (11). -/
abbrev R.ACC_TIME_TRUSTED : Nat := 0x8180028
/-- Address of ACC_SEALS, NVME_HUB block (11). -/
abbrev R.ACC_SEALS : Nat := 0x8180030
/-- Address of ACC_RESET_REFUSED, NVME_HUB block (11). -/
abbrev R.ACC_RESET_REFUSED : Nat := 0x8180038
/-- Address of ACC_VERIFY_PASS, NVME_HUB block (11). -/
abbrev R.ACC_VERIFY_PASS : Nat := 0x8180040
/-- Address of ACC_VERIFY_FAIL, NVME_HUB block (11). -/
abbrev R.ACC_VERIFY_FAIL : Nat := 0x8180048
/-- Address of NVME_HUB_INT_STATUS, NVME_HUB block (11). -/
abbrev R.NVME_HUB_INT_STATUS : Nat := 0x8180050
/-- Address of NVME_HUB_INT_ENABLE, NVME_HUB block (11). -/
abbrev R.NVME_HUB_INT_ENABLE : Nat := 0x8180058
/-- Address of NVME_CTRL_CFG[i], NVME_HUB block (11). -/
abbrev R.NVME_CTRL_CFG (i : Nat) : Nat := 0x8410000 + 0x8 * i
/-- Address of NVME_CQ_SLICE[i], NVME_HUB block (11). -/
abbrev R.NVME_CQ_SLICE (i : Nat) (u : Nat) : Nat := 0x8420000 + 0x40 * i + 0x8 * u
/-- Address of FL_CH_STATE[ch], FLASH block (12). -/
abbrev R.FL_CH_STATE (s : Nat) (ch : Nat) : Nat := 0x40c0000 + 0x1000000 * s + 0x8 * ch
/-- Address of FL_CH_BYTES[ch], FLASH block (12). -/
abbrev R.FL_CH_BYTES (s : Nat) (ch : Nat) : Nat := 0x40c0040 + 0x1000000 * s + 0x8 * ch
/-- Address of FL_CH_TIMEOUTS[ch], FLASH block (12). -/
abbrev R.FL_CH_TIMEOUTS (s : Nat) (ch : Nat) : Nat := 0x40c0080 + 0x1000000 * s + 0x8 * ch
/-- Address of FL_CH_TRAIN_FAIL[ch], FLASH block (12). -/
abbrev R.FL_CH_TRAIN_FAIL (s : Nat) (ch : Nat) : Nat := 0x40c00c0 + 0x1000000 * s + 0x8 * ch
/-- Address of FL_DIE_REJECT, FLASH block (12). -/
abbrev R.FL_DIE_REJECT (s : Nat) : Nat := 0x40c0100 + 0x1000000 * s
/-- Address of FL_DIE_STATE[x], FLASH block (12). -/
abbrev R.FL_DIE_STATE (s : Nat) (x : Nat) : Nat := 0x40c0400 + 0x1000000 * s + 0x8 * x
/-- Address of AFF_STATE, AFF block (12). -/
abbrev R.AFF_STATE (s : Nat) : Nat := 0x40d0000 + 0x1000000 * s
/-- Address of AFF_BANDS_FREE, AFF block (12). -/
abbrev R.AFF_BANDS_FREE (s : Nat) : Nat := 0x40d0008 + 0x1000000 * s
/-- Address of AFF_SPARE, AFF block (12). -/
abbrev R.AFF_SPARE (s : Nat) : Nat := 0x40d0010 + 0x1000000 * s
/-- Address of AFF_SPARE_INIT, AFF block (12). -/
abbrev R.AFF_SPARE_INIT (s : Nat) : Nat := 0x40d0018 + 0x1000000 * s
/-- Address of AFF_PE_AVG, AFF block (12). -/
abbrev R.AFF_PE_AVG (s : Nat) : Nat := 0x40d0020 + 0x1000000 * s
/-- Address of AFF_PE_MAX, AFF block (12). -/
abbrev R.AFF_PE_MAX (s : Nat) : Nat := 0x40d0020 + 0x1000000 * s
/-- Address of AFF_PE_MIN, AFF block (12). -/
abbrev R.AFF_PE_MIN (s : Nat) : Nat := 0x40d0020 + 0x1000000 * s
/-- Address of AFF_HOST_BYTES, AFF block (12). -/
abbrev R.AFF_HOST_BYTES (s : Nat) : Nat := 0x40d0028 + 0x1000000 * s
/-- Address of AFF_MEDIA_BYTES, AFF block (12). -/
abbrev R.AFF_MEDIA_BYTES (s : Nat) : Nat := 0x40d0030 + 0x1000000 * s
/-- Address of AFF_ERASES, AFF block (12). -/
abbrev R.AFF_ERASES (s : Nat) : Nat := 0x40d0038 + 0x1000000 * s
/-- Address of AFF_UNRECOVERED, AFF block (12). -/
abbrev R.AFF_UNRECOVERED (s : Nat) : Nat := 0x40d0040 + 0x1000000 * s
/-- Address of AFF_PROG_FAIL, AFF block (12). -/
abbrev R.AFF_PROG_FAIL (s : Nat) : Nat := 0x40d0048 + 0x1000000 * s
/-- Address of AFF_ERASE_FAIL, AFF block (12). -/
abbrev R.AFF_ERASE_FAIL (s : Nat) : Nat := 0x40d0050 + 0x1000000 * s
/-- Address of AFF_GROWN_BAD, AFF block (12). -/
abbrev R.AFF_GROWN_BAD (s : Nat) : Nat := 0x40d0058 + 0x1000000 * s
/-- Address of AFF_FACTORY_BAD, AFF block (12). -/
abbrev R.AFF_FACTORY_BAD (s : Nat) : Nat := 0x40d0060 + 0x1000000 * s
/-- Address of AFF_DIE_RETIRED, AFF block (12). -/
abbrev R.AFF_DIE_RETIRED (s : Nat) : Nat := 0x40d0068 + 0x1000000 * s
/-- Address of AFF_RD_REFRESH, AFF block (12). -/
abbrev R.AFF_RD_REFRESH (s : Nat) : Nat := 0x40d0070 + 0x1000000 * s
/-- Address of AFF_RET_REFRESH, AFF block (12). -/
abbrev R.AFF_RET_REFRESH (s : Nat) : Nat := 0x40d0078 + 0x1000000 * s
/-- Address of AFF_WL_MOVES, AFF block (12). -/
abbrev R.AFF_WL_MOVES (s : Nat) : Nat := 0x40d0080 + 0x1000000 * s
/-- Address of AFF_PATROL_PAGES, AFF block (12). -/
abbrev R.AFF_PATROL_PAGES (s : Nat) : Nat := 0x40d0088 + 0x1000000 * s
/-- Address of AFF_PATROL_PASS, AFF block (12). -/
abbrev R.AFF_PATROL_PASS (s : Nat) : Nat := 0x40d0090 + 0x1000000 * s
/-- Address of AFF_MAP_HITS, AFF block (12). -/
abbrev R.AFF_MAP_HITS (s : Nat) : Nat := 0x40d0098 + 0x1000000 * s
/-- Address of AFF_MAP_MISSES, AFF block (12). -/
abbrev R.AFF_MAP_MISSES (s : Nat) : Nat := 0x40d00a0 + 0x1000000 * s
/-- Address of AFF_WBUF_BYTES, AFF block (12). -/
abbrev R.AFF_WBUF_BYTES (s : Nat) : Nat := 0x40d00a8 + 0x1000000 * s
/-- Address of AFF_WBUF_PEAK, AFF block (12). -/
abbrev R.AFF_WBUF_PEAK (s : Nat) : Nat := 0x40d00b0 + 0x1000000 * s
/-- Address of AFF_WBUF_WAIT, AFF block (12). -/
abbrev R.AFF_WBUF_WAIT (s : Nat) : Nat := 0x40d00b8 + 0x1000000 * s
/-- Address of AFF_GC_BYTES, AFF block (12). -/
abbrev R.AFF_GC_BYTES (s : Nat) : Nat := 0x40d00c0 + 0x1000000 * s
/-- Address of AFF_RELOC_SUPERSEDED, AFF block (12). -/
abbrev R.AFF_RELOC_SUPERSEDED (s : Nat) : Nat := 0x40d00c8 + 0x1000000 * s
/-- Address of AFF_SUSPENDS, AFF block (12). -/
abbrev R.AFF_SUSPENDS (s : Nat) : Nat := 0x40d00d0 + 0x1000000 * s
/-- Address of AFF_INT_STATUS, AFF block (12). -/
abbrev R.AFF_INT_STATUS (s : Nat) : Nat := 0x40d00d8 + 0x1000000 * s
/-- Address of AFF_INT_ENABLE, AFF block (12). -/
abbrev R.AFF_INT_ENABLE (s : Nat) : Nat := 0x40d00e0 + 0x1000000 * s
/-- Address of AFF_GC_LOW, AFF block (12). -/
abbrev R.AFF_GC_LOW (s : Nat) : Nat := 0x40d0100 + 0x1000000 * s
/-- Address of AFF_WL_DELTA, AFF block (12). -/
abbrev R.AFF_WL_DELTA (s : Nat) : Nat := 0x40d0108 + 0x1000000 * s
/-- Address of AFF_RD_LIMIT, AFF block (12). -/
abbrev R.AFF_RD_LIMIT (s : Nat) : Nat := 0x40d0110 + 0x1000000 * s
/-- Address of AFF_RET_LIMIT, AFF block (12). -/
abbrev R.AFF_RET_LIMIT (s : Nat) : Nat := 0x40d0118 + 0x1000000 * s
/-- Address of AFF_PATROL_DAYS, AFF block (12). -/
abbrev R.AFF_PATROL_DAYS (s : Nat) : Nat := 0x40d0120 + 0x1000000 * s
/-- Address of AFF_BG_SHARE, AFF block (12). -/
abbrev R.AFF_BG_SHARE (s : Nat) : Nat := 0x40d0128 + 0x1000000 * s
/-- Address of AFF_REFRESH_STAGE, AFF block (12). -/
abbrev R.AFF_REFRESH_STAGE (s : Nat) : Nat := 0x40d0130 + 0x1000000 * s
/-- Address of AFF_REFRESH_BITS, AFF block (12). -/
abbrev R.AFF_REFRESH_BITS (s : Nat) : Nat := 0x40d0138 + 0x1000000 * s
/-- Address of AFF_MAP_CACHE_GIB, AFF block (12). -/
abbrev R.AFF_MAP_CACHE_GIB (s : Nat) : Nat := 0x40d0140 + 0x1000000 * s
/-- Address of AFF_OP_PCT, AFF block (12). -/
abbrev R.AFF_OP_PCT (s : Nat) : Nat := 0x40d0148 + 0x1000000 * s
/-- Address of AFF_READ_STAGE[n], AFF block (12). -/
abbrev R.AFF_READ_STAGE (s : Nat) (n : Nat) : Nat := 0x40d0200 + 0x1000000 * s + 0x8 * n
/-- Address of HOLDUP_STATE, AFF_HUB block (12). -/
abbrev R.HOLDUP_STATE : Nat := 0x8190000
/-- Address of HOLDUP_MV, AFF_HUB block (12). -/
abbrev R.HOLDUP_MV : Nat := 0x8190008
/-- Address of HOLDUP_CHARGE_PCT, AFF_HUB block (12). -/
abbrev R.HOLDUP_CHARGE_PCT : Nat := 0x8190010
/-- Address of HOLDUP_BUDGET, AFF_HUB block (12). -/
abbrev R.HOLDUP_BUDGET : Nat := 0x8190018
/-- Address of HOLDUP_CMEAS, AFF_HUB block (12). -/
abbrev R.HOLDUP_CMEAS : Nat := 0x8190020
/-- Address of HOLDUP_LAST_TEST, AFF_HUB block (12). -/
abbrev R.HOLDUP_LAST_TEST : Nat := 0x8190028
/-- Address of HOLDUP_SAVES, AFF_HUB block (12). -/
abbrev R.HOLDUP_SAVES : Nat := 0x8190030
/-- Address of HOLDUP_LAST_SAVE_BYTES, AFF_HUB block (12). -/
abbrev R.HOLDUP_LAST_SAVE_BYTES : Nat := 0x8190038
/-- Address of HOLDUP_LOST_BYTES, AFF_HUB block (12). -/
abbrev R.HOLDUP_LOST_BYTES : Nat := 0x8190040
/-- Address of HOLDUP_INT_STATUS, AFF_HUB block (12). -/
abbrev R.HOLDUP_INT_STATUS : Nat := 0x8190048
/-- Address of HOLDUP_INT_ENABLE, AFF_HUB block (12). -/
abbrev R.HOLDUP_INT_ENABLE : Nat := 0x8190050
/-- Address of AFF_WIN_START, AFF_HUB block (12). -/
abbrev R.AFF_WIN_START : Nat := 0x8190058
/-- Address of AFF_WIN_LEN, AFF_HUB block (12). -/
abbrev R.AFF_WIN_LEN : Nat := 0x8190060
/-- Address of FN_STATUS, FN block (13). -/
abbrev R.FN_STATUS (f : Nat) : Nat := 0x10000000000 + 0x1000 * f
/-- Address of FN_INTX_PENDING[w], FN block (13). -/
abbrev R.FN_INTX_PENDING (f : Nat) (w : Nat) : Nat := 0x10000000100 + 0x1000 * f + 0x8 * w
/-- Address of ANX_OPCODE, ANX block (13). -/
abbrev R.ANX_OPCODE : Nat := 0x10010000000
/-- Address of ANX_STATUS, ANX block (13). -/
abbrev R.ANX_STATUS : Nat := 0x10010000004
/-- Address of ANX_LENGTH, ANX block (13). -/
abbrev R.ANX_LENGTH : Nat := 0x10010000008
/-- Address of ANX_SEQ, ANX block (13). -/
abbrev R.ANX_SEQ : Nat := 0x1001000000c
/-- Address of ANX_INT, ANX block (13). -/
abbrev R.ANX_INT : Nat := 0x10010000010
/-- Address of ANX_VERSION, ANX block (13). -/
abbrev R.ANX_VERSION : Nat := 0x10010000014
/-- Address of ANX_PAYLOAD[w], ANX block (13). -/
abbrev R.ANX_PAYLOAD (w : Nat) : Nat := 0x10010000080 + 0x4 * w
/-- Address of PCIE_LINK_STATE[l], PCIE block (13). -/
abbrev R.PCIE_LINK_STATE (l : Nat) : Nat := 0x81a0000 + 0x8 * l
/-- Address of PCIE_TAGS_INUSE[l], PCIE block (13). -/
abbrev R.PCIE_TAGS_INUSE (l : Nat) : Nat := 0x81a0040 + 0x8 * l
/-- Address of PCIE_TAG_WAIT[l], PCIE block (13). -/
abbrev R.PCIE_TAG_WAIT (l : Nat) : Nat := 0x81a0060 + 0x8 * l
/-- Address of PCIE_CPL_TIMEOUTS[l], PCIE block (13). -/
abbrev R.PCIE_CPL_TIMEOUTS (l : Nat) : Nat := 0x81a0080 + 0x8 * l
/-- Address of PCIE_CPL_ERRORS[l], PCIE block (13). -/
abbrev R.PCIE_CPL_ERRORS (l : Nat) : Nat := 0x81a00a0 + 0x8 * l
/-- Address of PCIE_POISON_RX[l], PCIE block (13). -/
abbrev R.PCIE_POISON_RX (l : Nat) : Nat := 0x81a00c0 + 0x8 * l
/-- Address of PCIE_UNEXP_CPL[l], PCIE block (13). -/
abbrev R.PCIE_UNEXP_CPL (l : Nat) : Nat := 0x81a00e0 + 0x8 * l
/-- Address of PCIE_REISSUES[l], PCIE block (13). -/
abbrev R.PCIE_REISSUES (l : Nat) : Nat := 0x81a0100 + 0x8 * l
/-- Address of PCIE_FLR_DISCARD[l], PCIE block (13). -/
abbrev R.PCIE_FLR_DISCARD (l : Nat) : Nat := 0x81a0120 + 0x8 * l
/-- Address of PCIE_RECOVERIES[l], PCIE block (13). -/
abbrev R.PCIE_RECOVERIES (l : Nat) : Nat := 0x81a0140 + 0x8 * l
/-- Address of PCIE_TAGS_QUARANTINED[l], PCIE block (13). -/
abbrev R.PCIE_TAGS_QUARANTINED (l : Nat) : Nat := 0x81a0160 + 0x8 * l
/-- Address of PCIE_VEC_DROP[l], PCIE block (13). -/
abbrev R.PCIE_VEC_DROP (l : Nat) : Nat := 0x81a0180 + 0x8 * l
/-- Address of PCIE_REISSUE_LIMIT, PCIE block (13). -/
abbrev R.PCIE_REISSUE_LIMIT : Nat := 0x81a0200
/-- Address of PCIE_GATE_OPEN, PCIE block (13). -/
abbrev R.PCIE_GATE_OPEN : Nat := 0x81a0208
/-- Address of PCIE_INT_STATUS, PCIE block (13). -/
abbrev R.PCIE_INT_STATUS : Nat := 0x81a0210
/-- Address of PCIE_INT_ENABLE, PCIE block (13). -/
abbrev R.PCIE_INT_ENABLE : Nat := 0x81a0218
/-- Address of ANX_CMDS, PCIE block (13). -/
abbrev R.ANX_CMDS : Nat := 0x81a0220
/-- Address of ANX_BUSY, PCIE block (13). -/
abbrev R.ANX_BUSY : Nat := 0x81a0228
/-- Address of ANX_IGNORED, PCIE block (13). -/
abbrev R.ANX_IGNORED : Nat := 0x81a0230
/-- Address of FN_GATE[i], PCIE block (13). -/
abbrev R.FN_GATE (i : Nat) : Nat := 0x81a1000 + 0x8 * i
/-- Address of INST_FAULT_COUNT, INST block (14). -/
abbrev R.INST_FAULT_COUNT : Nat := 0x81b0000
/-- Address of INST_FAULT_POP, INST block (14). -/
abbrev R.INST_FAULT_POP : Nat := 0x81b0008
/-- Address of INST_FAULT_REC[u], INST block (14). -/
abbrev R.INST_FAULT_REC (u : Nat) : Nat := 0x81b0010 + 0x8 * u
/-- Address of INST_FAULT_OVERFLOW, INST block (14). -/
abbrev R.INST_FAULT_OVERFLOW : Nat := 0x81b0040
/-- Address of INST_QUIESCE_LIMIT, INST block (14). -/
abbrev R.INST_QUIESCE_LIMIT : Nat := 0x81b0048
/-- Address of INST_INT_STATUS, INST block (14). -/
abbrev R.INST_INT_STATUS : Nat := 0x81b0050
/-- Address of INST_INT_ENABLE, INST block (14). -/
abbrev R.INST_INT_ENABLE : Nat := 0x81b0058
/-- Address of INST_INVAL_ADDR, INST block (14). -/
abbrev R.INST_INVAL_ADDR : Nat := 0x81b0060
/-- Address of INST_INVAL_CMD, INST block (14). -/
abbrev R.INST_INVAL_CMD : Nat := 0x81b0068
/-- Address of INST_INVAL_STATUS, INST block (14). -/
abbrev R.INST_INVAL_STATUS : Nat := 0x81b0070
/-- Address of INST_CFG[i], INST block (14). -/
abbrev R.INST_CFG (i : Nat) : Nat := 0x8510000 + 0x8 * i
/-- Address of INST_TABLE[i], INST block (14). -/
abbrev R.INST_TABLE (i : Nat) : Nat := 0x8520000 + 0x8 * i
/-- Address of INST_QUOTA_A[i], INST block (14). -/
abbrev R.INST_QUOTA_A (i : Nat) : Nat := 0x8530000 + 0x8 * i
/-- Address of INST_QUOTA_B[i], INST block (14). -/
abbrev R.INST_QUOTA_B (i : Nat) : Nat := 0x8540000 + 0x8 * i
/-- Address of INST_QUOTA_C[i], INST block (14). -/
abbrev R.INST_QUOTA_C (i : Nat) : Nat := 0x8550000 + 0x8 * i
/-- Address of INST_USE_A[i], INST block (14). -/
abbrev R.INST_USE_A (i : Nat) : Nat := 0x8560000 + 0x8 * i
/-- Address of INST_USE_B[i], INST block (14). -/
abbrev R.INST_USE_B (i : Nat) : Nat := 0x8570000 + 0x8 * i
/-- Address of INST_FAULTS[i], INST block (14). -/
abbrev R.INST_FAULTS (i : Nat) : Nat := 0x8580000 + 0x8 * i
/-- Address of INST_OPS_WAIT[i], INST block (14). -/
abbrev R.INST_OPS_WAIT (i : Nat) : Nat := 0x8590000 + 0x8 * i
/-- Address of ITU_HITS, ITU block (14). -/
abbrev R.ITU_HITS (s : Nat) : Nat := 0x40e0000 + 0x1000000 * s
/-- Address of ITU_MISSES, ITU block (14). -/
abbrev R.ITU_MISSES (s : Nat) : Nat := 0x40e0008 + 0x1000000 * s
/-- Address of ITU_EVICT, ITU block (14). -/
abbrev R.ITU_EVICT (s : Nat) : Nat := 0x40e0010 + 0x1000000 * s
/-- Address of ITU_ATS_REQ, ITU block (14). -/
abbrev R.ITU_ATS_REQ (s : Nat) : Nat := 0x40e0018 + 0x1000000 * s
/-- Address of ITU_ATS_INVAL, ITU block (14). -/
abbrev R.ITU_ATS_INVAL (s : Nat) : Nat := 0x40e0020 + 0x1000000 * s
/-- Address of ITU_FAULTS, ITU block (14). -/
abbrev R.ITU_FAULTS (s : Nat) : Nat := 0x40e0028 + 0x1000000 * s
/-- Address of ITU_ENTRIES, ITU block (14). -/
abbrev R.ITU_ENTRIES (s : Nat) : Nat := 0x40e0030 + 0x1000000 * s
/-- Address of RCV_SR_BASE, RCV block (15). -/
abbrev R.RCV_SR_BASE : Nat := 0x10020000000
/-- Address of RCV_CR_BASE, RCV block (15). -/
abbrev R.RCV_CR_BASE : Nat := 0x10020000008
/-- Address of RCV_CFG, RCV block (15). -/
abbrev R.RCV_CFG : Nat := 0x10020000010
/-- Address of RCV_CTRL, RCV block (15). -/
abbrev R.RCV_CTRL : Nat := 0x10020000018
/-- Address of RCV_STATUS, RCV block (15). -/
abbrev R.RCV_STATUS : Nat := 0x10020000020
/-- Address of BOOT_STATUS, BOOT block (15). -/
abbrev R.BOOT_STATUS : Nat := 0x81c0000
/-- Address of BOOT_SEQ, BOOT block (15). -/
abbrev R.BOOT_SEQ : Nat := 0x81c0008
/-- Address of BOOT_FAIL[n], BOOT block (15). -/
abbrev R.BOOT_FAIL (n : Nat) : Nat := 0x81c0010 + 0x8 * n
/-- Address of BOOT_KEYS, BOOT block (15). -/
abbrev R.BOOT_KEYS : Nat := 0x81c0030
/-- Address of BOOT_CUSTODY, BOOT block (15). -/
abbrev R.BOOT_CUSTODY : Nat := 0x81c0038
/-- Address of BOOT_HOLDUP_THRESH, BOOT block (15). -/
abbrev R.BOOT_HOLDUP_THRESH : Nat := 0x81c0040
/-- Address of BOOT_WATCHDOG, BOOT block (15). -/
abbrev R.BOOT_WATCHDOG : Nat := 0x81c0048
/-- Address of BOOT_COUNT, BOOT block (15). -/
abbrev R.BOOT_COUNT : Nat := 0x81c0050
/-- Address of UPDATE_REFUSED, BOOT block (15). -/
abbrev R.UPDATE_REFUSED : Nat := 0x81c0058
/-- Address of BOOT_INT_STATUS, BOOT block (15). -/
abbrev R.BOOT_INT_STATUS : Nat := 0x81c0060
/-- Address of BOOT_INT_ENABLE, BOOT block (15). -/
abbrev R.BOOT_INT_ENABLE : Nat := 0x81c0068
/-- Address of MGMT_CMDS[r], MGMT block (16). -/
abbrev R.MGMT_CMDS (r : Nat) : Nat := 0x81d0000 + 0x8 * r
/-- Address of MGMT_TIMEOUTS[r], MGMT block (16). -/
abbrev R.MGMT_TIMEOUTS (r : Nat) : Nat := 0x81d0040 + 0x8 * r
/-- Address of MGMT_WAIT_MAX[r], MGMT block (16). -/
abbrev R.MGMT_WAIT_MAX (r : Nat) : Nat := 0x81d0080 + 0x8 * r
/-- Address of MGMT_REJECTS, MGMT block (16). -/
abbrev R.MGMT_REJECTS : Nat := 0x81d00c0
/-- Address of MGMT_SLOT, MGMT block (16). -/
abbrev R.MGMT_SLOT : Nat := 0x81d00c8
/-- Address of MGMT_DEFAULT_TIMEOUT, MGMT block (16). -/
abbrev R.MGMT_DEFAULT_TIMEOUT : Nat := 0x81d00d0
/-- Address of MGMT_RELAYED_OUT, MGMT block (16). -/
abbrev R.MGMT_RELAYED_OUT : Nat := 0x81d00d8
/-- Address of MGMT_RELAYED_IN, MGMT block (16). -/
abbrev R.MGMT_RELAYED_IN : Nat := 0x81d00e0
/-- Address of MGMT_LATE_REPLY, MGMT block (16). -/
abbrev R.MGMT_LATE_REPLY : Nat := 0x81d00e8
/-- Address of MGMT_EVENTS, MGMT block (16). -/
abbrev R.MGMT_EVENTS : Nat := 0x81d00f0
/-- Address of MGMT_EVENT_DROP, MGMT block (16). -/
abbrev R.MGMT_EVENT_DROP : Nat := 0x81d00f8
/-- Address of MGMT_MCTP_BUSY, MGMT block (16). -/
abbrev R.MGMT_MCTP_BUSY : Nat := 0x81d0100
/-- Address of MGMT_REPLY_LOST, MGMT block (16). -/
abbrev R.MGMT_REPLY_LOST : Nat := 0x81d0108
/-- Address of MGMT_BULK_FREE, MGMT block (16). -/
abbrev R.MGMT_BULK_FREE : Nat := 0x81d0110
/-- Address of MGMT_EVENT_CFG, MGMT block (16). -/
abbrev R.MGMT_EVENT_CFG : Nat := 0x81d0118
/-- Address of MGMT_INT_STATUS, MGMT block (16). -/
abbrev R.MGMT_INT_STATUS : Nat := 0x81d0120
/-- Address of MGMT_INT_ENABLE, MGMT block (16). -/
abbrev R.MGMT_INT_ENABLE : Nat := 0x81d0128
/-- Address of PWR_SI_STATE, PWR_SLICE block (17). -/
abbrev R.PWR_SI_STATE (s : Nat) : Nat := 0x40f0000 + 0x1000000 * s
/-- Address of PWR_SI_MAX, PWR_SLICE block (17). -/
abbrev R.PWR_SI_MAX (s : Nat) : Nat := 0x40f0008 + 0x1000000 * s
/-- Address of PWR_IDLE_DWELL, PWR_SLICE block (17). -/
abbrev R.PWR_IDLE_DWELL (s : Nat) : Nat := 0x40f0010 + 0x1000000 * s
/-- Address of PWR_SI_ENTRIES[n], PWR_SLICE block (17). -/
abbrev R.PWR_SI_ENTRIES (s : Nat) (n : Nat) : Nat := 0x40f0040 + 0x1000000 * s + 0x8 * n
/-- Address of PWR_SI_TIME[n], PWR_SLICE block (17). -/
abbrev R.PWR_SI_TIME (s : Nat) (n : Nat) : Nat := 0x40f0060 + 0x1000000 * s + 0x8 * n
/-- Address of PWR_SI_ABORTS, PWR_SLICE block (17). -/
abbrev R.PWR_SI_ABORTS (s : Nat) : Nat := 0x40f0080 + 0x1000000 * s
/-- Address of PWR_WAKE_LATE, PWR_SLICE block (17). -/
abbrev R.PWR_WAKE_LATE (s : Nat) : Nat := 0x40f0088 + 0x1000000 * s
/-- Address of PWR_WAKE_DROP, PWR_SLICE block (17). -/
abbrev R.PWR_WAKE_DROP (s : Nat) : Nat := 0x40f0090 + 0x1000000 * s
/-- Address of PWR_CAP, PWR block (17). -/
abbrev R.PWR_CAP : Nat := 0x81e0000
/-- Address of BOOST_CTRL, PWR block (17). -/
abbrev R.BOOST_CTRL : Nat := 0x81e0008
/-- Address of PWR_TEMP_WARN, PWR block (17). -/
abbrev R.PWR_TEMP_WARN : Nat := 0x81e0010
/-- Address of CORE_FREQ, PWR block (17). -/
abbrev R.CORE_FREQ : Nat := 0x81e0018
/-- Address of PWR_NOW, PWR block (17). -/
abbrev R.PWR_NOW : Nat := 0x81e0020
/-- Address of PWR_AVG, PWR block (17). -/
abbrev R.PWR_AVG : Nat := 0x81e0028
/-- Address of PWR_PEAK, PWR block (17). -/
abbrev R.PWR_PEAK : Nat := 0x81e0030
/-- Address of TEMP_MAX, PWR block (17). -/
abbrev R.TEMP_MAX : Nat := 0x81e0038
/-- Address of PWR_BOOST_TIME, PWR block (17). -/
abbrev R.PWR_BOOST_TIME : Nat := 0x81e0040
/-- Address of PWR_THROTTLE_TIME, PWR block (17). -/
abbrev R.PWR_THROTTLE_TIME : Nat := 0x81e0048
/-- Address of PWR_ASPM_IDLE, PWR block (17). -/
abbrev R.PWR_ASPM_IDLE : Nat := 0x81e0050
/-- Address of PWR_LTR_ACTIVE, PWR block (17). -/
abbrev R.PWR_LTR_ACTIVE : Nat := 0x81e0058
/-- Address of PWR_LTR_IDLE, PWR block (17). -/
abbrev R.PWR_LTR_IDLE : Nat := 0x81e0060
/-- Address of PWR_INT_STATUS, PWR block (17). -/
abbrev R.PWR_INT_STATUS : Nat := 0x81e0068
/-- Address of PWR_INT_ENABLE, PWR block (17). -/
abbrev R.PWR_INT_ENABLE : Nat := 0x81e0070
/-- Address of PWR_DOMAIN[x], PWR block (17). -/
abbrev R.PWR_DOMAIN (x : Nat) : Nat := 0x81e0100 + 0x8 * x
/-- Address of TEMP[j], PWR block (17). -/
abbrev R.TEMP (j : Nat) : Nat := 0x81e0140 + 0x8 * j
/-- Address of CORE_CYCLE[c], PMU_CORE block (18). -/
abbrev R.CORE_CYCLE (s : Nat) (k : Nat) (c : Nat) : Nat := 0x4100000 + 0x1000000 * s + 0x1000 * k + 0x8 * c
/-- Address of THREAD_INSTRET[i], PMU_CORE block (18). -/
abbrev R.THREAD_INSTRET (s : Nat) (k : Nat) (i : Nat) : Nat := 0x4100100 + 0x1000000 * s + 0x1000 * k + 0x8 * i
/-- Address of CORE_HPM[m], PMU_CORE block (18). -/
abbrev R.CORE_HPM (s : Nat) (k : Nat) (m : Nat) : Nat := 0x4100200 + 0x1000000 * s + 0x1000 * k + 0x8 * m
/-- Address of CORE_HPM_EVT[m], PMU_CORE block (18). -/
abbrev R.CORE_HPM_EVT (s : Nat) (k : Nat) (m : Nat) : Nat := 0x4100400 + 0x1000000 * s + 0x1000 * k + 0x8 * m
/-- Address of CORE_INHIBIT[c], PMU_CORE block (18). -/
abbrev R.CORE_INHIBIT (s : Nat) (k : Nat) (c : Nat) : Nat := 0x4100600 + 0x1000000 * s + 0x1000 * k + 0x8 * c
/-- Address of CORE_OVF, PMU_CORE block (18). -/
abbrev R.CORE_OVF (s : Nat) (k : Nat) : Nat := 0x4100680 + 0x1000000 * s + 0x1000 * k
/-- Address of CLUSTER_FREEZE, PMU_CORE block (18). -/
abbrev R.CLUSTER_FREEZE (s : Nat) (k : Nat) : Nat := 0x4100688 + 0x1000000 * s + 0x1000 * k
/-- Address of CTR_UREAD, PMU_CORE block (18). -/
abbrev R.CTR_UREAD (s : Nat) (k : Nat) : Nat := 0x4100690 + 0x1000000 * s + 0x1000 * k
/-- Address of UNC_CYCLE, PMU_UNC block (18). -/
abbrev R.UNC_CYCLE (s : Nat) : Nat := 0x4110000 + 0x1000000 * s
/-- Address of UNC_FREEZE, PMU_UNC block (18). -/
abbrev R.UNC_FREEZE (s : Nat) : Nat := 0x4110008 + 0x1000000 * s
/-- Address of UNC_OVF, PMU_UNC block (18). -/
abbrev R.UNC_OVF (s : Nat) : Nat := 0x4110010 + 0x1000000 * s
/-- Address of PMU_INT_STATUS, PMU_UNC block (18). -/
abbrev R.PMU_INT_STATUS (s : Nat) : Nat := 0x4110018 + 0x1000000 * s
/-- Address of PMU_INT_ENABLE, PMU_UNC block (18). -/
abbrev R.PMU_INT_ENABLE (s : Nat) : Nat := 0x4110020 + 0x1000000 * s
/-- Address of UNC_CTR[n], PMU_UNC block (18). -/
abbrev R.UNC_CTR (s : Nat) (n : Nat) : Nat := 0x4110100 + 0x1000000 * s + 0x8 * n
/-- Address of UNC_EVT[n], PMU_UNC block (18). -/
abbrev R.UNC_EVT (s : Nat) (n : Nat) : Nat := 0x4110140 + 0x1000000 * s + 0x8 * n
/-- Address of UNC_ADDR_BASE[n], PMU_UNC block (18). -/
abbrev R.UNC_ADDR_BASE (s : Nat) (n : Nat) : Nat := 0x4110180 + 0x1000000 * s + 0x8 * n
/-- Address of UNC_ADDR_LIMIT[n], PMU_UNC block (18). -/
abbrev R.UNC_ADDR_LIMIT (s : Nat) (n : Nat) : Nat := 0x41101c0 + 0x1000000 * s + 0x8 * n
/-- Address of PMU_FREEZE, PMU_HUB block (18). -/
abbrev R.PMU_FREEZE : Nat := 0x81f0000
/-- Address of PMU_FREEZE_AT, PMU_HUB block (18). -/
abbrev R.PMU_FREEZE_AT : Nat := 0x81f0008
/-- Address of STRAP_STATUS, PIN block (19). -/
abbrev R.STRAP_STATUS : Nat := 0x8200000
/-- Address of GPIO_DIR, PIN block (19). -/
abbrev R.GPIO_DIR : Nat := 0x8200008
/-- Address of GPIO_OUT, PIN block (19). -/
abbrev R.GPIO_OUT : Nat := 0x8200010
/-- Address of GPIO_IN, PIN block (19). -/
abbrev R.GPIO_IN : Nat := 0x8200018
/-- Address of PIN_STATUS, PIN block (19). -/
abbrev R.PIN_STATUS : Nat := 0x8200020
/-- Address of VDD_CPU_TARGET, PIN block (19). -/
abbrev R.VDD_CPU_TARGET : Nat := 0x8200028
/-- Address of ARB_HUB_INT_STATUS, ARB_HUB block (03). -/
abbrev R.ARB_HUB_INT_STATUS : Nat := 0x8120000
/-- Address of ARB_HUB_INT_ENABLE, ARB_HUB block (03). -/
abbrev R.ARB_HUB_INT_ENABLE : Nat := 0x8120008
/-- Address of ARB_HUB_GRANTS[d], ARB_HUB block (03). -/
abbrev R.ARB_HUB_GRANTS (d : Nat) : Nat := 0x8120100 + 0x8 * d
/-- Address of ARB_HUB_LOSSES[d], ARB_HUB block (03). -/
abbrev R.ARB_HUB_LOSSES (d : Nat) : Nat := 0x8120200 + 0x8 * d
/-- Address of ARB_HUB_BACKOFF[d], ARB_HUB block (03). -/
abbrev R.ARB_HUB_BACKOFF (d : Nat) : Nat := 0x8120300 + 0x8 * d
/-- Address of ARB_HUB_CAPPED[d], ARB_HUB block (03). -/
abbrev R.ARB_HUB_CAPPED (d : Nat) : Nat := 0x8120400 + 0x8 * d
/-- Address of ARB_HUB_LATE[d], ARB_HUB block (03). -/
abbrev R.ARB_HUB_LATE (d : Nat) : Nat := 0x8120500 + 0x8 * d
/-- Address of ARB_HUB_WAIT_MAX[d], ARB_HUB block (03). -/
abbrev R.ARB_HUB_WAIT_MAX (d : Nat) : Nat := 0x8120600 + 0x8 * d
/-- Address of ARB_HUB_CLASS_GRANTS[n], ARB_HUB block (03). -/
abbrev R.ARB_HUB_CLASS_GRANTS (n : Nat) : Nat := 0x8120700 + 0x8 * n
/-- Address of ARB_HUB_CLASS_LATE[n], ARB_HUB block (03). -/
abbrev R.ARB_HUB_CLASS_LATE (n : Nat) : Nat := 0x8120780 + 0x8 * n
/-- Address of ARB_HUB_CLASS_WAIT_MAX[n], ARB_HUB block (03). -/
abbrev R.ARB_HUB_CLASS_WAIT_MAX (n : Nat) : Nat := 0x8120800 + 0x8 * n
/-- Address of ARB_HUB_ARBS[d], ARB_HUB block (03). -/
abbrev R.ARB_HUB_ARBS (d : Nat) : Nat := 0x8120900 + 0x8 * d

/-! Fields. -/

abbrev F.PB_STATUS_COMMIT_ERR (s : Nat) : Fld := ⟨R.PB_STATUS s, 0, 1⟩
abbrev F.PB_STATUS_GEN (s : Nat) : Fld := ⟨R.PB_STATUS s, 16, 16⟩
abbrev F.PB_COMMIT_GO (s : Nat) : Fld := ⟨R.PB_COMMIT s, 0, 1⟩
abbrev F.PB_SHARED_FREE (s : Nat) : Fld := ⟨R.PB_SHARED_FREE s, 0, 17⟩
abbrev F.PB_SHARED_SIZE (s : Nat) : Fld := ⟨R.PB_SHARED_SIZE s, 0, 17⟩
abbrev F.PB_CLASS_MIN (s : Nat) (n : Nat) : Fld := ⟨R.PB_CLASS_MIN s n, 0, 17⟩
abbrev F.PB_CLASS_MAX (s : Nat) (n : Nat) : Fld := ⟨R.PB_CLASS_MAX s n, 0, 17⟩
abbrev F.PB_CLASS_USE (s : Nat) (n : Nat) : Fld := ⟨R.PB_CLASS_USE s n, 0, 17⟩
abbrev F.PB_CLASS_PEAK (s : Nat) (n : Nat) : Fld := ⟨R.PB_CLASS_PEAK s n, 0, 17⟩
abbrev F.PB_ADMIT (s : Nat) (n : Nat) : Fld := ⟨R.PB_ADMIT s n, 0, 64⟩
abbrev F.PB_DROP (s : Nat) (n : Nat) : Fld := ⟨R.PB_DROP s n, 0, 64⟩
abbrev F.PB_WAIT (s : Nat) (n : Nat) : Fld := ⟨R.PB_WAIT s n, 0, 64⟩
abbrev F.PB_SHARED_LOSS (s : Nat) : Fld := ⟨R.PB_SHARED_LOSS s, 0, 64⟩
abbrev F.SLICE_ID (s : Nat) : Fld := ⟨R.SLICE_ID s, 0, 2⟩
abbrev F.SLICE_CAPS_THREADS (s : Nat) : Fld := ⟨R.SLICE_CAPS s, 0, 3⟩
abbrev F.SLICE_CAPS_PARSE_ENGINES (s : Nat) : Fld := ⟨R.SLICE_CAPS s, 8, 8⟩
abbrev F.SLICE_CAPS_CIPHER_PAIRS (s : Nat) : Fld := ⟨R.SLICE_CAPS s, 16, 8⟩
abbrev F.SLICE_CAPS_FLASH_CHANNELS (s : Nat) : Fld := ⟨R.SLICE_CAPS s, 24, 8⟩
abbrev F.SLICE_CAPS_HBM_GIB (s : Nat) : Fld := ⟨R.SLICE_CAPS s, 32, 16⟩
abbrev F.TAG_INUSE (s : Nat) : Fld := ⟨R.TAG_INUSE s, 0, 15⟩
abbrev F.TAG_WAIT (s : Nat) : Fld := ⟨R.TAG_WAIT s, 0, 64⟩
abbrev F.TAG_PEAK (s : Nat) : Fld := ⟨R.TAG_PEAK s, 0, 15⟩
abbrev F.SPINE_OUT (s : Nat) : Fld := ⟨R.SPINE_OUT s, 0, 64⟩
abbrev F.SPINE_IN (s : Nat) : Fld := ⟨R.SPINE_IN s, 0, 64⟩
abbrev F.SRAM_CE (s : Nat) : Fld := ⟨R.SRAM_CE s, 0, 32⟩
abbrev F.SRAM_UE (s : Nat) : Fld := ⟨R.SRAM_UE s, 0, 32⟩
abbrev F.SRAM_ERR_ADDR (s : Nat) : Fld := ⟨R.SRAM_ERR_ADDR s, 0, 28⟩
abbrev F.HBM_CE (s : Nat) : Fld := ⟨R.HBM_CE s, 0, 32⟩
abbrev F.HBM_UE (s : Nat) : Fld := ⟨R.HBM_UE s, 0, 32⟩
abbrev F.HBM_ERR_ADDR (s : Nat) : Fld := ⟨R.HBM_ERR_ADDR s, 0, 37⟩
abbrev F.HBM_SCRUB_PASS (s : Nat) : Fld := ⟨R.HBM_SCRUB_PASS s, 0, 32⟩
abbrev F.ORG_INT_STATUS_SRAM_UE_HIT (s : Nat) : Fld := ⟨R.ORG_INT_STATUS s, 0, 1⟩
abbrev F.ORG_INT_STATUS_HBM_UE_HIT (s : Nat) : Fld := ⟨R.ORG_INT_STATUS s, 1, 1⟩
abbrev F.ORG_INT_STATUS_TAG_EMPTY (s : Nat) : Fld := ⟨R.ORG_INT_STATUS s, 2, 1⟩
abbrev F.ORG_INT_ENABLE (s : Nat) : Fld := ⟨R.ORG_INT_ENABLE s, 0, 3⟩
abbrev F.ETH_PORT_MODE (s : Nat) : Fld := ⟨R.ETH_PORT_MODE s, 0, 2⟩
abbrev F.ETH_LINK_STATUS (s : Nat) : Fld := ⟨R.ETH_LINK_STATUS s, 0, 8⟩
abbrev F.ETH_LINK_DOWN (s : Nat) (p : Nat) : Fld := ⟨R.ETH_LINK_DOWN s p, 0, 32⟩
abbrev F.FT_CTRL_STEP_EN : Fld := ⟨R.FT_CTRL, 0, 1⟩
abbrev F.FT_CTRL_BACKUP_EN : Fld := ⟨R.FT_CTRL, 1, 1⟩
abbrev F.FT_CTRL_HOST_LOCK : Fld := ⟨R.FT_CTRL, 2, 1⟩
abbrev F.FT_SRC_SEL_PRIMARY : Fld := ⟨R.FT_SRC_SEL, 0, 3⟩
abbrev F.FT_SRC_SEL_BACKUP : Fld := ⟨R.FT_SRC_SEL, 4, 3⟩
abbrev F.FT_SRC_SEL_PTP_PORT : Fld := ⟨R.FT_SRC_SEL, 8, 5⟩
abbrev F.FT_SRC_SEL_BACKUP_PTP_PORT : Fld := ⟨R.FT_SRC_SEL, 16, 5⟩
abbrev F.FT_STATUS_STATE : Fld := ⟨R.FT_STATUS, 0, 3⟩
abbrev F.FT_STATUS_ACTIVE_SRC : Fld := ⟨R.FT_STATUS, 4, 3⟩
abbrev F.FT_NOW_SEC : Fld := ⟨R.FT_NOW_SEC, 0, 48⟩
abbrev F.FT_NOW_FRAC : Fld := ⟨R.FT_NOW_FRAC, 0, 48⟩
abbrev F.FT_MONO : Fld := ⟨R.FT_MONO, 0, 64⟩
abbrev F.FT_OFFSET : Fld := ⟨R.FT_OFFSET, 0, 64⟩
abbrev F.FT_FREQ_ADJ : Fld := ⟨R.FT_FREQ_ADJ, 0, 32⟩
abbrev F.FT_STEP : Fld := ⟨R.FT_STEP, 0, 64⟩
abbrev F.FT_STEP_THRESH : Fld := ⟨R.FT_STEP_THRESH, 0, 32⟩
abbrev F.FT_SLEW_MAX : Fld := ⟨R.FT_SLEW_MAX, 0, 7⟩
abbrev F.FT_LOCK_THRESH : Fld := ⟨R.FT_LOCK_THRESH, 0, 32⟩
abbrev F.FT_UNLOCK_THRESH : Fld := ⟨R.FT_UNLOCK_THRESH, 0, 32⟩
abbrev F.FT_HOLDOVER_LIMIT : Fld := ⟨R.FT_HOLDOVER_LIMIT, 0, 32⟩
abbrev F.FT_PPS_DELAY : Fld := ⟨R.FT_PPS_DELAY, 0, 32⟩
abbrev F.FT_PPS_NEXT_SEC_SEC : Fld := ⟨R.FT_PPS_NEXT_SEC, 0, 48⟩
abbrev F.FT_PPS_NEXT_SEC_VALID : Fld := ⟨R.FT_PPS_NEXT_SEC, 48, 1⟩
abbrev F.FT_STEPS : Fld := ⟨R.FT_STEPS, 0, 32⟩
abbrev F.FT_LAST_STEP : Fld := ⟨R.FT_LAST_STEP, 0, 64⟩
abbrev F.FT_LOSS : Fld := ⟨R.FT_LOSS, 0, 32⟩
abbrev F.FT_PPS_GLITCH : Fld := ⟨R.FT_PPS_GLITCH, 0, 32⟩
abbrev F.FT_INT_STATUS_LOCKED_ENTER : Fld := ⟨R.FT_INT_STATUS, 0, 1⟩
abbrev F.FT_INT_STATUS_LOCK_LOST : Fld := ⟨R.FT_INT_STATUS, 1, 1⟩
abbrev F.FT_INT_STATUS_REF_LOST : Fld := ⟨R.FT_INT_STATUS, 2, 1⟩
abbrev F.FT_INT_STATUS_STEPPED : Fld := ⟨R.FT_INT_STATUS, 3, 1⟩
abbrev F.FT_INT_STATUS_HOLDOVER_EXPIRED : Fld := ⟨R.FT_INT_STATUS, 4, 1⟩
abbrev F.FT_INT_STATUS_SRC_SWITCHED : Fld := ⟨R.FT_INT_STATUS, 5, 1⟩
abbrev F.FT_INT_STATUS : Fld := ⟨R.FT_INT_STATUS, 0, 6⟩
abbrev F.FT_INT_ENABLE : Fld := ⟨R.FT_INT_ENABLE, 0, 6⟩
abbrev F.TW_ENTRIES (s : Nat) : Fld := ⟨R.TW_ENTRIES s, 0, 17⟩
abbrev F.EVENT_HORIZON (s : Nat) : Fld := ⟨R.EVENT_HORIZON s, 0, 64⟩
abbrev F.TW_LEAD (s : Nat) : Fld := ⟨R.TW_LEAD s, 0, 16⟩
abbrev F.TW_ARM_TIME (s : Nat) : Fld := ⟨R.TW_ARM_TIME s, 0, 64⟩
abbrev F.TW_ARM_CTRL_BASE (s : Nat) : Fld := ⟨R.TW_ARM_CTRL s, 0, 1⟩
abbrev F.TW_ARM_CTRL_CLUSTER (s : Nat) : Fld := ⟨R.TW_ARM_CTRL s, 1, 2⟩
abbrev F.TW_ARM_CTRL_CHANNEL (s : Nat) : Fld := ⟨R.TW_ARM_CTRL s, 8, 6⟩
abbrev F.TW_ARM_CTRL_COOKIE (s : Nat) : Fld := ⟨R.TW_ARM_CTRL s, 32, 32⟩
abbrev F.TW_ARM_RESULT (s : Nat) : Fld := ⟨R.TW_ARM_RESULT s, 0, 2⟩
abbrev F.TW_FIRED (s : Nat) : Fld := ⟨R.TW_FIRED s, 0, 64⟩
abbrev F.TW_STEP_FIRED (s : Nat) : Fld := ⟨R.TW_STEP_FIRED s, 0, 64⟩
abbrev F.TW_FULL (s : Nat) : Fld := ⟨R.TW_FULL s, 0, 64⟩
abbrev F.TW_PEAK (s : Nat) : Fld := ⟨R.TW_PEAK s, 0, 17⟩
abbrev F.TS_RX_ADJ (s : Nat) (p : Nat) : Fld := ⟨R.TS_RX_ADJ s p, 0, 16⟩
abbrev F.TS_TX_ADJ (s : Nat) (p : Nat) : Fld := ⟨R.TS_TX_ADJ s p, 0, 16⟩
abbrev F.TX_LAUNCH_CTRL_LATE_ACTION (s : Nat) (p : Nat) : Fld := ⟨R.TX_LAUNCH_CTRL s p, 0, 1⟩
abbrev F.TX_LAUNCH_CTRL_GUARD_EN (s : Nat) (p : Nat) : Fld := ⟨R.TX_LAUNCH_CTRL s p, 1, 1⟩
abbrev F.TX_LAUNCH_CTRL_REQUIRE_LOCK (s : Nat) (p : Nat) : Fld := ⟨R.TX_LAUNCH_CTRL s p, 2, 1⟩
abbrev F.TX_LAUNCH_CTRL_RX_TS_ALL (s : Nat) (p : Nat) : Fld := ⟨R.TX_LAUNCH_CTRL s p, 3, 1⟩
abbrev F.LAUNCH_SENT (s : Nat) (p : Nat) : Fld := ⟨R.LAUNCH_SENT s p, 0, 64⟩
abbrev F.LAUNCH_LATE (s : Nat) (p : Nat) : Fld := ⟨R.LAUNCH_LATE s p, 0, 64⟩
abbrev F.LAUNCH_DROP (s : Nat) (p : Nat) : Fld := ⟨R.LAUNCH_DROP s p, 0, 64⟩
abbrev F.LAUNCH_FAR (s : Nat) (p : Nat) : Fld := ⟨R.LAUNCH_FAR s p, 0, 64⟩
abbrev F.ARB_DEADLINE (n : Nat) : Fld := ⟨R.ARB_DEADLINE n, 0, 24⟩
abbrev F.ARB_UNIT_CLASS (u : Nat) : Fld := ⟨R.ARB_UNIT_CLASS u, 0, 4⟩
abbrev F.ARB_SYNC_PENDING : Fld := ⟨R.ARB_SYNC, 0, 1⟩
abbrev F.ARB_INT_STATUS_LATE_SEEN (s : Nat) : Fld := ⟨R.ARB_INT_STATUS s, 0, 1⟩
abbrev F.ARB_INT_STATUS_CAPPED_SEEN (s : Nat) : Fld := ⟨R.ARB_INT_STATUS s, 1, 1⟩
abbrev F.ARB_INT_ENABLE (s : Nat) : Fld := ⟨R.ARB_INT_ENABLE s, 0, 2⟩
abbrev F.ARB_GRANTS (s : Nat) (d : Nat) : Fld := ⟨R.ARB_GRANTS s d, 0, 64⟩
abbrev F.ARB_LOSSES (s : Nat) (d : Nat) : Fld := ⟨R.ARB_LOSSES s d, 0, 64⟩
abbrev F.ARB_BACKOFF (s : Nat) (d : Nat) : Fld := ⟨R.ARB_BACKOFF s d, 0, 64⟩
abbrev F.ARB_CAPPED (s : Nat) (d : Nat) : Fld := ⟨R.ARB_CAPPED s d, 0, 64⟩
abbrev F.ARB_LATE (s : Nat) (d : Nat) : Fld := ⟨R.ARB_LATE s d, 0, 64⟩
abbrev F.ARB_WAIT_MAX (s : Nat) (d : Nat) : Fld := ⟨R.ARB_WAIT_MAX s d, 0, 32⟩
abbrev F.ARB_CLASS_GRANTS (s : Nat) (n : Nat) : Fld := ⟨R.ARB_CLASS_GRANTS s n, 0, 64⟩
abbrev F.ARB_CLASS_LATE (s : Nat) (n : Nat) : Fld := ⟨R.ARB_CLASS_LATE s n, 0, 64⟩
abbrev F.ARB_CLASS_WAIT_MAX (s : Nat) (n : Nat) : Fld := ⟨R.ARB_CLASS_WAIT_MAX s n, 0, 32⟩
abbrev F.ARB_ARBS (s : Nat) (d : Nat) : Fld := ⟨R.ARB_ARBS s d, 0, 64⟩
abbrev F.CLUSTER_STATE (s : Nat) (k : Nat) : Fld := ⟨R.CLUSTER_STATE s k, 0, 2⟩
abbrev F.CURATOR_ENTRY (s : Nat) (k : Nat) : Fld := ⟨R.CURATOR_ENTRY s k, 0, 64⟩
abbrev F.CLUSTER_CTRL_GO (s : Nat) (k : Nat) : Fld := ⟨R.CLUSTER_CTRL s k, 0, 1⟩
abbrev F.CLUSTER_CTRL_RESET (s : Nat) (k : Nat) : Fld := ⟨R.CLUSTER_CTRL s k, 1, 1⟩
abbrev F.CURATOR_STATUS_IN_TRAP (s : Nat) (k : Nat) : Fld := ⟨R.CURATOR_STATUS s k, 0, 1⟩
abbrev F.CURATOR_STATUS_NESTED (s : Nat) (k : Nat) : Fld := ⟨R.CURATOR_STATUS s k, 1, 1⟩
abbrev F.SPIN_LIMIT (s : Nat) (k : Nat) : Fld := ⟨R.SPIN_LIMIT s k, 0, 32⟩
abbrev F.SPIN_WINDOW (s : Nat) (k : Nat) : Fld := ⟨R.SPIN_WINDOW s k, 0, 16⟩
abbrev F.WAITSPIN_PAUSE (s : Nat) (k : Nat) : Fld := ⟨R.WAITSPIN_PAUSE s k, 0, 8⟩
abbrev F.SPIN_COUNT (s : Nat) (k : Nat) : Fld := ⟨R.SPIN_COUNT s k, 0, 32⟩
abbrev F.DEADLOCK_COUNT (s : Nat) (k : Nat) : Fld := ⟨R.DEADLOCK_COUNT s k, 0, 32⟩
abbrev F.STALL_EVENTS (s : Nat) (k : Nat) : Fld := ⟨R.STALL_EVENTS s k, 0, 32⟩
abbrev F.DEADLOCK_EVENTS (s : Nat) (k : Nat) : Fld := ⟨R.DEADLOCK_EVENTS s k, 0, 32⟩
abbrev F.SPINNING (s : Nat) (k : Nat) : Fld := ⟨R.SPINNING s k, 0, 32⟩
abbrev F.HALTED (s : Nat) (k : Nat) : Fld := ⟨R.HALTED s k, 0, 32⟩
abbrev F.FAULTED (s : Nat) (k : Nat) : Fld := ⟨R.FAULTED s k, 0, 32⟩
abbrev F.FAULT_COUNT (s : Nat) (k : Nat) : Fld := ⟨R.FAULT_COUNT s k, 0, 7⟩
abbrev F.FAULT_POP (s : Nat) (k : Nat) : Fld := ⟨R.FAULT_POP s k, 0, 1⟩
abbrev F.FAULT_INFO_THREAD (s : Nat) (k : Nat) : Fld := ⟨R.FAULT_INFO s k, 0, 5⟩
abbrev F.FAULT_INFO_CODE (s : Nat) (k : Nat) : Fld := ⟨R.FAULT_INFO s k, 8, 8⟩
abbrev F.FAULT_INFO_VALID (s : Nat) (k : Nat) : Fld := ⟨R.FAULT_INFO s k, 16, 1⟩
abbrev F.FAULT_INFO_CLUSTER_EVENT (s : Nat) (k : Nat) : Fld := ⟨R.FAULT_INFO s k, 17, 1⟩
abbrev F.FAULT_PC (s : Nat) (k : Nat) : Fld := ⟨R.FAULT_PC s k, 0, 64⟩
abbrev F.FAULT_TVAL (s : Nat) (k : Nat) : Fld := ⟨R.FAULT_TVAL s k, 0, 64⟩
abbrev F.FAULT_TIME (s : Nat) (k : Nat) : Fld := ⟨R.FAULT_TIME s k, 0, 64⟩
abbrev F.THREAD_CTRL_CMD (s : Nat) (k : Nat) (i : Nat) : Fld := ⟨R.THREAD_CTRL s k i, 0, 2⟩
abbrev F.THREAD_CTRL_DOMAIN (s : Nat) (k : Nat) (i : Nat) : Fld := ⟨R.THREAD_CTRL s k i, 8, 1⟩
abbrev F.THREAD_PC (s : Nat) (k : Nat) (i : Nat) : Fld := ⟨R.THREAD_PC s k i, 0, 64⟩
abbrev F.THREAD_STATE_STATE (s : Nat) (k : Nat) (i : Nat) : Fld := ⟨R.THREAD_STATE s k i, 0, 2⟩
abbrev F.THREAD_STATE_SPINNING (s : Nat) (k : Nat) (i : Nat) : Fld := ⟨R.THREAD_STATE s k i, 2, 1⟩
abbrev F.THREAD_STATE_ABORTED (s : Nat) (k : Nat) (i : Nat) : Fld := ⟨R.THREAD_STATE s k i, 3, 1⟩
abbrev F.THREAD_STATE_HOLDS_OPEN (s : Nat) (k : Nat) (i : Nat) : Fld := ⟨R.THREAD_STATE s k i, 4, 1⟩
abbrev F.THREAD_STATE_CHANNEL (s : Nat) (k : Nat) (i : Nat) : Fld := ⟨R.THREAD_STATE s k i, 8, 6⟩
abbrev F.CH_BIND_READER (s : Nat) (k : Nat) (m : Nat) : Fld := ⟨R.CH_BIND s k m, 0, 5⟩
abbrev F.CH_BIND_VENDOR_WRITE (s : Nat) (k : Nat) (m : Nat) : Fld := ⟨R.CH_BIND s k m, 8, 1⟩
abbrev F.CH_BIND_CUSTOMER_WRITE (s : Nat) (k : Nat) (m : Nat) : Fld := ⟨R.CH_BIND s k m, 9, 1⟩
abbrev F.CH_BIND_HW_WRITE (s : Nat) (k : Nat) (m : Nat) : Fld := ⟨R.CH_BIND s k m, 10, 1⟩
abbrev F.CH_STATE_STATE (s : Nat) (k : Nat) (m : Nat) : Fld := ⟨R.CH_STATE s k m, 0, 2⟩
abbrev F.CH_STATE_WRITER (s : Nat) (k : Nat) (m : Nat) : Fld := ⟨R.CH_STATE s k m, 2, 5⟩
abbrev F.CH_STATE_HW (s : Nat) (k : Nat) (m : Nat) : Fld := ⟨R.CH_STATE s k m, 7, 1⟩
abbrev F.CH_STATE_COUNT (s : Nat) (k : Nat) (m : Nat) : Fld := ⟨R.CH_STATE s k m, 8, 4⟩
abbrev F.CH_ABORT_CHANNEL (s : Nat) (k : Nat) : Fld := ⟨R.CH_ABORT s k, 0, 6⟩
abbrev F.CH_ABORT_GO (s : Nat) (k : Nat) : Fld := ⟨R.CH_ABORT s k, 8, 1⟩
abbrev F.CH_MSGS (s : Nat) (k : Nat) : Fld := ⟨R.CH_MSGS s k, 0, 64⟩
abbrev F.CH_OPEN_BUSY (s : Nat) (k : Nat) : Fld := ⟨R.CH_OPEN_BUSY s k, 0, 64⟩
abbrev F.CH_ABORTS (s : Nat) (k : Nat) : Fld := ⟨R.CH_ABORTS s k, 0, 32⟩
abbrev F.CH_HW_DEFER (s : Nat) (k : Nat) : Fld := ⟨R.CH_HW_DEFER s k, 0, 64⟩
abbrev F.CH_HW_DROP (s : Nat) (k : Nat) : Fld := ⟨R.CH_HW_DROP s k, 0, 32⟩
abbrev F.REGION_BASE (s : Nat) (k : Nat) (j : Nat) : Fld := ⟨R.REGION_BASE s k j, 12, 52⟩
abbrev F.REGION_LIMIT (s : Nat) (k : Nat) (j : Nat) : Fld := ⟨R.REGION_LIMIT s k j, 12, 52⟩
abbrev F.REGION_CFG_VENDOR (s : Nat) (k : Nat) (j : Nat) : Fld := ⟨R.REGION_CFG s k j, 0, 3⟩
abbrev F.REGION_CFG_CUSTOMER (s : Nat) (k : Nat) (j : Nat) : Fld := ⟨R.REGION_CFG s k j, 4, 3⟩
abbrev F.REGION_CFG_LOCK (s : Nat) (k : Nat) (j : Nat) : Fld := ⟨R.REGION_CFG s k j, 7, 1⟩
abbrev F.REGION_CFG_ENABLE (s : Nat) (k : Nat) (j : Nat) : Fld := ⟨R.REGION_CFG s k j, 8, 1⟩
abbrev F.THREAD_GPR (s : Nat) (k : Nat) (i : Nat) (r : Nat) : Fld := ⟨R.THREAD_GPR s k i r, 0, 64⟩
abbrev F.RING_POOL_FREE (s : Nat) : Fld := ⟨R.RING_POOL_FREE s, 0, 14⟩
abbrev F.RING_POOL_COMMIT (s : Nat) : Fld := ⟨R.RING_POOL_COMMIT s, 0, 19⟩
abbrev F.RING_SLICE_CFG_HOLD_OVERCOMMIT (s : Nat) : Fld := ⟨R.RING_SLICE_CFG s, 0, 1⟩
abbrev F.RING_POOL_PEAK (s : Nat) : Fld := ⟨R.RING_POOL_PEAK s, 0, 14⟩
abbrev F.RING_INT_STATUS_OVERRUN_SEEN (s : Nat) : Fld := ⟨R.RING_INT_STATUS s, 0, 1⟩
abbrev F.RING_INT_STATUS_RING_ERROR_SEEN (s : Nat) : Fld := ⟨R.RING_INT_STATUS s, 1, 1⟩
abbrev F.RING_INT_STATUS_CQ_LOST_SEEN (s : Nat) : Fld := ⟨R.RING_INT_STATUS s, 2, 1⟩
abbrev F.RING_INT_STATUS (s : Nat) : Fld := ⟨R.RING_INT_STATUS s, 0, 3⟩
abbrev F.RING_INT_ENABLE (s : Nat) : Fld := ⟨R.RING_INT_ENABLE s, 0, 3⟩
abbrev F.SR_BASE (s : Nat) (q : Nat) : Fld := ⟨R.SR_BASE s q, 12, 52⟩
abbrev F.SR_CFG_LOG_SIZE (s : Nat) (q : Nat) : Fld := ⟨R.SR_CFG s q, 0, 5⟩
abbrev F.SR_CFG_RX_TS (s : Nat) (q : Nat) : Fld := ⟨R.SR_CFG s q, 5, 1⟩
abbrev F.SR_CFG_CLASS (s : Nat) (q : Nat) : Fld := ⟨R.SR_CFG s q, 8, 4⟩
abbrev F.SR_CFG_CR (s : Nat) (q : Nat) : Fld := ⟨R.SR_CFG s q, 12, 12⟩
abbrev F.SR_CFG_INSTANCE (s : Nat) (q : Nat) : Fld := ⟨R.SR_CFG s q, 24, 13⟩
abbrev F.SR_CFG_LOCAL (s : Nat) (q : Nat) : Fld := ⟨R.SR_CFG s q, 37, 12⟩
abbrev F.SR_CTRL_ENABLE (s : Nat) (q : Nat) : Fld := ⟨R.SR_CTRL s q, 0, 1⟩
abbrev F.SR_STATE_STATE (s : Nat) (q : Nat) : Fld := ⟨R.SR_STATE s q, 0, 3⟩
abbrev F.SR_STATE_CQ_BLOCKED (s : Nat) (q : Nat) : Fld := ⟨R.SR_STATE s q, 3, 1⟩
abbrev F.SR_STATE_ERR (s : Nat) (q : Nat) : Fld := ⟨R.SR_STATE s q, 16, 16⟩
abbrev F.SR_HEAD (s : Nat) (q : Nat) : Fld := ⟨R.SR_HEAD s q, 0, 17⟩
abbrev F.SR_TAIL (s : Nat) (q : Nat) : Fld := ⟨R.SR_TAIL s q, 0, 17⟩
abbrev F.SR_JOBS (s : Nat) (q : Nat) : Fld := ⟨R.SR_JOBS s q, 0, 64⟩
abbrev F.SR_DB_ERR_OVERRUN (s : Nat) (q : Nat) : Fld := ⟨R.SR_DB_ERR s q, 0, 20⟩
abbrev F.SR_DB_ERR_STALE (s : Nat) (q : Nat) : Fld := ⟨R.SR_DB_ERR s q, 20, 20⟩
abbrev F.SR_DB_ERR_INACTIVE (s : Nat) (q : Nat) : Fld := ⟨R.SR_DB_ERR s q, 40, 20⟩
abbrev F.SR_CHAIN_ERR (s : Nat) (q : Nat) : Fld := ⟨R.SR_CHAIN_ERR s q, 0, 32⟩
abbrev F.SR_RX_DROP (s : Nat) (q : Nat) : Fld := ⟨R.SR_RX_DROP s q, 0, 64⟩
abbrev F.CR_BASE (s : Nat) (c : Nat) : Fld := ⟨R.CR_BASE s c, 12, 52⟩
abbrev F.CR_CFG_LOG_SIZE (s : Nat) (c : Nat) : Fld := ⟨R.CR_CFG s c, 0, 5⟩
abbrev F.CR_CFG_HOLD_LIMIT (s : Nat) (c : Nat) : Fld := ⟨R.CR_CFG s c, 6, 7⟩
abbrev F.CR_CFG_INSTANCE (s : Nat) (c : Nat) : Fld := ⟨R.CR_CFG s c, 13, 13⟩
abbrev F.CR_CFG_LOCAL (s : Nat) (c : Nat) : Fld := ⟨R.CR_CFG s c, 26, 12⟩
abbrev F.CR_CTRL_ENABLE (s : Nat) (c : Nat) : Fld := ⟨R.CR_CTRL s c, 0, 1⟩
abbrev F.CR_STATE_STATE (s : Nat) (c : Nat) : Fld := ⟨R.CR_STATE s c, 0, 3⟩
abbrev F.CR_STATE_CQ_OVERFLOW_PENDING (s : Nat) (c : Nat) : Fld := ⟨R.CR_STATE s c, 3, 1⟩
abbrev F.CR_STATE_CQ_OVERFLOW_LOST (s : Nat) (c : Nat) : Fld := ⟨R.CR_STATE s c, 4, 1⟩
abbrev F.CR_STATE_H (s : Nat) (c : Nat) : Fld := ⟨R.CR_STATE s c, 8, 7⟩
abbrev F.CR_STATE_ERR (s : Nat) (c : Nat) : Fld := ⟨R.CR_STATE s c, 16, 16⟩
abbrev F.CR_HEAD (s : Nat) (c : Nat) : Fld := ⟨R.CR_HEAD s c, 0, 17⟩
abbrev F.CR_TAIL (s : Nat) (c : Nat) : Fld := ⟨R.CR_TAIL s c, 0, 17⟩
abbrev F.CR_INT_CFG_VECTOR (s : Nat) (c : Nat) : Fld := ⟨R.CR_INT_CFG s c, 0, 11⟩
abbrev F.CR_INT_CFG_TARGET (s : Nat) (c : Nat) : Fld := ⟨R.CR_INT_CFG s c, 15, 1⟩
abbrev F.CR_INT_CFG_MOD_COUNT (s : Nat) (c : Nat) : Fld := ⟨R.CR_INT_CFG s c, 16, 8⟩
abbrev F.CR_INT_CFG_MOD_TIME (s : Nat) (c : Nat) : Fld := ⟨R.CR_INT_CFG s c, 24, 16⟩
abbrev F.CR_INT_CFG_CLUSTER (s : Nat) (c : Nat) : Fld := ⟨R.CR_INT_CFG s c, 40, 2⟩
abbrev F.CR_INT_CFG_CHANNEL (s : Nat) (c : Nat) : Fld := ⟨R.CR_INT_CFG s c, 42, 6⟩
abbrev F.CR_INT_CFG_INT_EN (s : Nat) (c : Nat) : Fld := ⟨R.CR_INT_CFG s c, 48, 1⟩
abbrev F.CR_WRITTEN (s : Nat) (c : Nat) : Fld := ⟨R.CR_WRITTEN s c, 0, 64⟩
abbrev F.CR_HELD_TOTAL (s : Nat) (c : Nat) : Fld := ⟨R.CR_HELD_TOTAL s c, 0, 64⟩
abbrev F.CR_OVERFLOW_EVENTS (s : Nat) (c : Nat) : Fld := ⟨R.CR_OVERFLOW_EVENTS s c, 0, 32⟩
abbrev F.CR_LOST (s : Nat) (c : Nat) : Fld := ⟨R.CR_LOST s c, 0, 32⟩
abbrev F.CR_DB_ERR (s : Nat) (c : Nat) : Fld := ⟨R.CR_DB_ERR s c, 0, 32⟩
abbrev F.PARSE_BANK_ACTIVE (s : Nat) : Fld := ⟨R.PARSE_BANK s, 0, 1⟩
abbrev F.PARSE_BANK_DRAINING (s : Nat) : Fld := ⟨R.PARSE_BANK s, 1, 1⟩
abbrev F.PARSE_BANK_SWITCH (s : Nat) : Fld := ⟨R.PARSE_BANK s, 8, 1⟩
abbrev F.PARSE_STEP_LIMIT (s : Nat) : Fld := ⟨R.PARSE_STEP_LIMIT s, 0, 8⟩
abbrev F.PARSE_QUEUE_DEPTH (s : Nat) : Fld := ⟨R.PARSE_QUEUE_DEPTH s, 0, 11⟩
abbrev F.PARSE_QUEUE_PEAK (s : Nat) : Fld := ⟨R.PARSE_QUEUE_PEAK s, 0, 11⟩
abbrev F.PARSE_QUEUE_DROP (s : Nat) : Fld := ⟨R.PARSE_QUEUE_DROP s, 0, 64⟩
abbrev F.PARSE_FRAMES (s : Nat) : Fld := ⟨R.PARSE_FRAMES s, 0, 64⟩
abbrev F.PARSE_SLOTS (s : Nat) : Fld := ⟨R.PARSE_SLOTS s, 0, 64⟩
abbrev F.PARSE_EXC_HANDLE_HANDLE (s : Nat) : Fld := ⟨R.PARSE_EXC_HANDLE s, 0, 21⟩
abbrev F.PARSE_EXC_HANDLE_VALID (s : Nat) : Fld := ⟨R.PARSE_EXC_HANDLE s, 31, 1⟩
abbrev F.PARSE_EXC_DROP (s : Nat) : Fld := ⟨R.PARSE_EXC_DROP s, 0, 64⟩
abbrev F.PARSE_INT_STATUS_QUEUE_DROP_SEEN (s : Nat) : Fld := ⟨R.PARSE_INT_STATUS s, 0, 1⟩
abbrev F.PARSE_INT_STATUS_PROGRAM_FAULT_SEEN (s : Nat) : Fld := ⟨R.PARSE_INT_STATUS s, 1, 1⟩
abbrev F.PARSE_INT_STATUS (s : Nat) : Fld := ⟨R.PARSE_INT_STATUS s, 0, 2⟩
abbrev F.PARSE_INT_ENABLE (s : Nat) : Fld := ⟨R.PARSE_INT_ENABLE s, 0, 2⟩
abbrev F.PARSE_FAULT_INFO_PC (s : Nat) : Fld := ⟨R.PARSE_FAULT_INFO s, 0, 11⟩
abbrev F.PARSE_FAULT_INFO_REASON (s : Nat) : Fld := ⟨R.PARSE_FAULT_INFO s, 16, 4⟩
abbrev F.PARSE_FAULT_INFO_ENGINE (s : Nat) : Fld := ⟨R.PARSE_FAULT_INFO s, 24, 5⟩
abbrev F.PARSE_FAULT_INFO_CONTEXT (s : Nat) : Fld := ⟨R.PARSE_FAULT_INFO s, 32, 2⟩
abbrev F.PARSE_PARAM (s : Nat) (n : Nat) : Fld := ⟨R.PARSE_PARAM s n, 0, 16⟩
abbrev F.PARSE_PORT_CFG_MAX_FRAME (s : Nat) (p : Nat) : Fld := ⟨R.PARSE_PORT_CFG s p, 0, 14⟩
abbrev F.PARSE_PORT_CFG_PB_CLASS (s : Nat) (p : Nat) : Fld := ⟨R.PARSE_PORT_CFG s p, 16, 2⟩
abbrev F.MAL_ACTION (s : Nat) (m : Nat) : Fld := ⟨R.MAL_ACTION s m, 0, 2⟩
abbrev F.MAL_COUNT (s : Nat) (m : Nat) : Fld := ⟨R.MAL_COUNT s m, 0, 64⟩
abbrev F.PARSE_PROG (s : Nat) (a : Nat) : Fld := ⟨R.PARSE_PROG s a, 0, 32⟩
abbrev F.RULE_MISS_ACTION_ACTION (s : Nat) : Fld := ⟨R.RULE_MISS_ACTION s, 0, 4⟩
abbrev F.RULE_MISS_ACTION_LEARN (s : Nat) : Fld := ⟨R.RULE_MISS_ACTION s, 4, 1⟩
abbrev F.RULE_MISS_ACTION_FLOW_HANDLE (s : Nat) : Fld := ⟨R.RULE_MISS_ACTION s, 8, 21⟩
abbrev F.RULE_MISS_ACTION_HASH_BITS (s : Nat) : Fld := ⟨R.RULE_MISS_ACTION s, 29, 5⟩
abbrev F.RULE_MISS_ACTION_BRIDGE_DOMAIN (s : Nat) : Fld := ⟨R.RULE_MISS_ACTION s, 34, 16⟩
abbrev F.RULE_MISS (s : Nat) : Fld := ⟨R.RULE_MISS s, 0, 64⟩
abbrev F.RULE_DROP (s : Nat) : Fld := ⟨R.RULE_DROP s, 0, 64⟩
abbrev F.RULE_COMMITS (s : Nat) : Fld := ⟨R.RULE_COMMITS s, 0, 64⟩
abbrev F.CLS_LOOKUPS (s : Nat) : Fld := ⟨R.CLS_LOOKUPS s, 0, 64⟩
abbrev F.KEY_PROFILE (s : Nat) (c : Nat) : Fld := ⟨R.KEY_PROFILE s c, 0, 60⟩
abbrev F.RULE_STAGE (s : Nat) (w : Nat) (u : Nat) : Fld := ⟨R.RULE_STAGE s w u, 0, 64⟩
abbrev F.RULE_COMMIT_INDEX (s : Nat) (w : Nat) : Fld := ⟨R.RULE_COMMIT s w, 0, 14⟩
abbrev F.RULE_COMMIT_VALID (s : Nat) (w : Nat) : Fld := ⟨R.RULE_COMMIT s w, 16, 1⟩
abbrev F.RULE_HITS (s : Nat) (i : Nat) : Fld := ⟨R.RULE_HITS s i, 0, 64⟩
abbrev F.RULE_ENTRY (s : Nat) (i : Nat) (u : Nat) : Fld := ⟨R.RULE_ENTRY s i u, 0, 64⟩
abbrev F.CAT_LOOKUPS (s : Nat) : Fld := ⟨R.CAT_LOOKUPS s, 0, 64⟩
abbrev F.CAT_INVALID_DROP (s : Nat) : Fld := ⟨R.CAT_INVALID_DROP s, 0, 64⟩
abbrev F.CAT_FAULT_DROP (s : Nat) : Fld := ⟨R.CAT_FAULT_DROP s, 0, 64⟩
abbrev F.CAT_FED_LOOP (s : Nat) : Fld := ⟨R.CAT_FED_LOOP s, 0, 64⟩
abbrev F.CAT_COMMITS (s : Nat) : Fld := ⟨R.CAT_COMMITS s, 0, 64⟩
abbrev F.CAT_STATE_STALE (s : Nat) : Fld := ⟨R.CAT_STATE_STALE s, 0, 64⟩
abbrev F.FLOOD_COPIES (s : Nat) : Fld := ⟨R.FLOOD_COPIES s, 0, 64⟩
abbrev F.DELIVERED (s : Nat) : Fld := ⟨R.DELIVERED s, 0, 64⟩
abbrev F.DELIVER_NO_TOKEN (s : Nat) : Fld := ⟨R.DELIVER_NO_TOKEN s, 0, 64⟩
abbrev F.DELIVER_INUSE (s : Nat) : Fld := ⟨R.DELIVER_INUSE s, 0, 11⟩
abbrev F.DELIVER_BAD (s : Nat) : Fld := ⟨R.DELIVER_BAD s, 0, 32⟩
abbrev F.CAT_INT_STATUS_FAULT_DROP_SEEN (s : Nat) : Fld := ⟨R.CAT_INT_STATUS s, 0, 1⟩
abbrev F.CAT_INT_STATUS_FED_LOOP_SEEN (s : Nat) : Fld := ⟨R.CAT_INT_STATUS s, 1, 1⟩
abbrev F.CAT_INT_STATUS_NO_TOKEN_SEEN (s : Nat) : Fld := ⟨R.CAT_INT_STATUS s, 2, 1⟩
abbrev F.CAT_INT_STATUS (s : Nat) : Fld := ⟨R.CAT_INT_STATUS s, 0, 3⟩
abbrev F.CAT_INT_ENABLE (s : Nat) : Fld := ⟨R.CAT_INT_ENABLE s, 0, 3⟩
abbrev F.DELIVER_CTRL_TOKEN (s : Nat) : Fld := ⟨R.DELIVER_CTRL s, 0, 10⟩
abbrev F.DELIVER_CTRL_OP (s : Nat) : Fld := ⟨R.DELIVER_CTRL s, 10, 2⟩
abbrev F.DELIVER_CTRL_LENGTH (s : Nat) : Fld := ⟨R.DELIVER_CTRL s, 14, 14⟩
abbrev F.DELIVER_CTRL_HANDLE (s : Nat) : Fld := ⟨R.DELIVER_CTRL s, 32, 21⟩
abbrev F.CAT_STAGE (s : Nat) (w : Nat) (u : Nat) : Fld := ⟨R.CAT_STAGE s w u, 0, 64⟩
abbrev F.CAT_COMMIT_INDEX (s : Nat) (w : Nat) : Fld := ⟨R.CAT_COMMIT s w, 0, 19⟩
abbrev F.CAT_COMMIT_INVALIDATE (s : Nat) (w : Nat) : Fld := ⟨R.CAT_COMMIT s w, 20, 1⟩
abbrev F.CAT_COMMIT_KEEP_COUNTERS (s : Nat) (w : Nat) : Fld := ⟨R.CAT_COMMIT s w, 24, 1⟩
abbrev F.CAT_COMMIT_KEEP_STATE (s : Nat) (w : Nat) : Fld := ⟨R.CAT_COMMIT s w, 25, 1⟩
abbrev F.CAT_READ_INDEX (s : Nat) (w : Nat) : Fld := ⟨R.CAT_READ s w, 0, 19⟩
abbrev F.CAT_READ_CLEAR_COUNTERS (s : Nat) (w : Nat) : Fld := ⟨R.CAT_READ s w, 20, 1⟩
abbrev F.CAT_READ_CLEAR_HIT (s : Nat) (w : Nat) : Fld := ⟨R.CAT_READ s w, 21, 1⟩
abbrev F.CAT_SNAP (s : Nat) (w : Nat) (u : Nat) : Fld := ⟨R.CAT_SNAP s w u, 0, 64⟩
abbrev F.FLOOD_PORTS (s : Nat) (g : Nat) : Fld := ⟨R.FLOOD_PORTS s g, 0, 32⟩
abbrev F.ADDR_AGE_TIME (s : Nat) : Fld := ⟨R.ADDR_AGE_TIME s, 0, 32⟩
abbrev F.ADDR_ENTRIES (s : Nat) : Fld := ⟨R.ADDR_ENTRIES s, 0, 19⟩
abbrev F.ADDR_LOOKUPS (s : Nat) : Fld := ⟨R.ADDR_LOOKUPS s, 0, 64⟩
abbrev F.ADDR_HITS (s : Nat) : Fld := ⟨R.ADDR_HITS s, 0, 64⟩
abbrev F.ADDR_LEARNED (s : Nat) : Fld := ⟨R.ADDR_LEARNED s, 0, 64⟩
abbrev F.ADDR_MOVES (s : Nat) : Fld := ⟨R.ADDR_MOVES s, 0, 64⟩
abbrev F.ADDR_AGED (s : Nat) : Fld := ⟨R.ADDR_AGED s, 0, 64⟩
abbrev F.ADDR_COLLIDE (s : Nat) : Fld := ⟨R.ADDR_COLLIDE s, 0, 64⟩
abbrev F.ADDR_LEARN_QDROP (s : Nat) : Fld := ⟨R.ADDR_LEARN_QDROP s, 0, 64⟩
abbrev F.ADDR_STATIC_HIT (s : Nat) : Fld := ⟨R.ADDR_STATIC_HIT s, 0, 64⟩
abbrev F.ADDR_SAME_PORT_DROP (s : Nat) : Fld := ⟨R.ADDR_SAME_PORT_DROP s, 0, 64⟩
abbrev F.ADDR_POISON (s : Nat) : Fld := ⟨R.ADDR_POISON s, 0, 32⟩
abbrev F.ADDR_PREFETCH_MISS (s : Nat) : Fld := ⟨R.ADDR_PREFETCH_MISS s, 0, 64⟩
abbrev F.PROV_TX (s : Nat) : Fld := ⟨R.PROV_TX s, 0, 64⟩
abbrev F.PROV_RX (s : Nat) : Fld := ⟨R.PROV_RX s, 0, 64⟩
abbrev F.PROV_STALE (s : Nat) : Fld := ⟨R.PROV_STALE s, 0, 64⟩
abbrev F.PROV_TX_DROP (s : Nat) : Fld := ⟨R.PROV_TX_DROP s, 0, 64⟩
abbrev F.PROV_RX_DROP (s : Nat) : Fld := ⟨R.PROV_RX_DROP s, 0, 64⟩
abbrev F.PROV_IGNORED (s : Nat) : Fld := ⟨R.PROV_IGNORED s, 0, 64⟩
abbrev F.PROV_BAD (s : Nat) : Fld := ⟨R.PROV_BAD s, 0, 32⟩
abbrev F.ADDR_INT_STATUS_OVER_LIMIT_SEEN (s : Nat) : Fld := ⟨R.ADDR_INT_STATUS s, 0, 1⟩
abbrev F.ADDR_INT_STATUS_COLLIDE_SEEN (s : Nat) : Fld := ⟨R.ADDR_INT_STATUS s, 1, 1⟩
abbrev F.ADDR_INT_STATUS_PROV_BAD_SEEN (s : Nat) : Fld := ⟨R.ADDR_INT_STATUS s, 2, 1⟩
abbrev F.ADDR_INT_STATUS (s : Nat) : Fld := ⟨R.ADDR_INT_STATUS s, 0, 3⟩
abbrev F.ADDR_INT_ENABLE (s : Nat) : Fld := ⟨R.ADDR_INT_ENABLE s, 0, 3⟩
abbrev F.PROV_CTRL_SLICE_EN (s : Nat) : Fld := ⟨R.PROV_CTRL s, 0, 1⟩
abbrev F.PROV_CTRL_FED_EN (s : Nat) : Fld := ⟨R.PROV_CTRL s, 1, 1⟩
abbrev F.PORT_LEARN_LIMIT (s : Nat) (p : Nat) : Fld := ⟨R.PORT_LEARN_LIMIT s p, 0, 19⟩
abbrev F.PORT_LEARN_COUNT (s : Nat) (p : Nat) : Fld := ⟨R.PORT_LEARN_COUNT s p, 0, 19⟩
abbrev F.PORT_L2_CFG_DEFAULT_BD (s : Nat) (p : Nat) : Fld := ⟨R.PORT_L2_CFG s p, 0, 16⟩
abbrev F.PORT_L2_CFG_PREFETCH (s : Nat) (p : Nat) : Fld := ⟨R.PORT_L2_CFG s p, 16, 1⟩
abbrev F.PORT_L2_CFG_OVER_ACTION (s : Nat) (p : Nat) : Fld := ⟨R.PORT_L2_CFG s p, 17, 1⟩
abbrev F.PORT_L2_CFG_HAIRPIN (s : Nat) (p : Nat) : Fld := ⟨R.PORT_L2_CFG s p, 18, 1⟩
abbrev F.PORT_L2_CFG_LEARN_HANDLE (s : Nat) (p : Nat) : Fld := ⟨R.PORT_L2_CFG s p, 32, 21⟩
abbrev F.ADDR_OVER_LIMIT (s : Nat) (p : Nat) : Fld := ⟨R.ADDR_OVER_LIMIT s p, 0, 64⟩
abbrev F.ADDR_STAGE (s : Nat) (w : Nat) (u : Nat) : Fld := ⟨R.ADDR_STAGE s w u, 0, 64⟩
abbrev F.ADDR_CMD_OP (s : Nat) (w : Nat) : Fld := ⟨R.ADDR_CMD s w, 0, 3⟩
abbrev F.ADDR_RESULT (s : Nat) (w : Nat) : Fld := ⟨R.ADDR_RESULT s w, 0, 2⟩
abbrev F.CIPHER_PAIR_STATE (s : Nat) : Fld := ⟨R.CIPHER_PAIR_STATE s, 0, 20⟩
abbrev F.CIPHER_JOBS (s : Nat) : Fld := ⟨R.CIPHER_JOBS s, 0, 64⟩
abbrev F.CIPHER_BYTES (s : Nat) : Fld := ⟨R.CIPHER_BYTES s, 0, 64⟩
abbrev F.CIPHER_DISPATCH_WAIT (s : Nat) : Fld := ⟨R.CIPHER_DISPATCH_WAIT s, 0, 64⟩
abbrev F.KC_HITS (s : Nat) : Fld := ⟨R.KC_HITS s, 0, 64⟩
abbrev F.KC_MISSES (s : Nat) : Fld := ⟨R.KC_MISSES s, 0, 64⟩
abbrev F.KC_EVICT (s : Nat) : Fld := ⟨R.KC_EVICT s, 0, 64⟩
abbrev F.KC_ENTRIES (s : Nat) : Fld := ⟨R.KC_ENTRIES s, 0, 14⟩
abbrev F.KDF_DERIVES (s : Nat) : Fld := ⟨R.KDF_DERIVES s, 0, 64⟩
abbrev F.CIPHER_AUTH_FAIL (s : Nat) : Fld := ⟨R.CIPHER_AUTH_FAIL s, 0, 64⟩
abbrev F.CIPHER_REPLAY (s : Nat) : Fld := ⟨R.CIPHER_REPLAY s, 0, 64⟩
abbrev F.CIPHER_SEQ_EXHAUSTED (s : Nat) : Fld := ⟨R.CIPHER_SEQ_EXHAUSTED s, 0, 64⟩
abbrev F.CIPHER_TLS_PASSTHRU (s : Nat) : Fld := ⟨R.CIPHER_TLS_PASSTHRU s, 0, 64⟩
abbrev F.CIPHER_XFORM_INVALID (s : Nat) : Fld := ⟨R.CIPHER_XFORM_INVALID s, 0, 64⟩
abbrev F.CIPHER_ALARMS (s : Nat) : Fld := ⟨R.CIPHER_ALARMS s, 0, 32⟩
abbrev F.CIPHER_SLICE_ALARMS (s : Nat) : Fld := ⟨R.CIPHER_SLICE_ALARMS s, 0, 32⟩
abbrev F.CIPHER_ALARM_INFO_PAIR (s : Nat) : Fld := ⟨R.CIPHER_ALARM_INFO s, 0, 4⟩
abbrev F.CIPHER_ALARM_INFO_ALARM (s : Nat) : Fld := ⟨R.CIPHER_ALARM_INFO s, 8, 4⟩
abbrev F.CIPHER_ALARM_INFO_TIME (s : Nat) : Fld := ⟨R.CIPHER_ALARM_INFO s, 16, 48⟩
abbrev F.CIPHER_INT_STATUS_PAIR_ALARM_SEEN (s : Nat) : Fld := ⟨R.CIPHER_INT_STATUS s, 0, 1⟩
abbrev F.CIPHER_INT_STATUS_SLICE_ALARM_SEEN (s : Nat) : Fld := ⟨R.CIPHER_INT_STATUS s, 1, 1⟩
abbrev F.CIPHER_INT_STATUS_PAIR_FAILED_SEEN (s : Nat) : Fld := ⟨R.CIPHER_INT_STATUS s, 2, 1⟩
abbrev F.CIPHER_INT_STATUS (s : Nat) : Fld := ⟨R.CIPHER_INT_STATUS s, 0, 3⟩
abbrev F.CIPHER_INT_ENABLE (s : Nat) : Fld := ⟨R.CIPHER_INT_ENABLE s, 0, 3⟩
abbrev F.CIPHER_SELFTEST (s : Nat) : Fld := ⟨R.CIPHER_SELFTEST s, 0, 10⟩
abbrev F.BKT_BINDS (s : Nat) : Fld := ⟨R.BKT_BINDS s, 0, 64⟩
abbrev F.BKT_UNBINDS (s : Nat) : Fld := ⟨R.BKT_UNBINDS s, 0, 64⟩
abbrev F.INFLIGHT_PEAK (s : Nat) : Fld := ⟨R.INFLIGHT_PEAK s, 0, 9⟩
abbrev F.PAIR_JOBS (s : Nat) (x : Nat) : Fld := ⟨R.PAIR_JOBS s x, 0, 64⟩
abbrev F.PAIR_ALARMS (s : Nat) (x : Nat) : Fld := ⟨R.PAIR_ALARMS s x, 0, 8⟩
abbrev F.ROOT_SLOT_STATE (n : Nat) : Fld := ⟨R.ROOT_SLOT n, 0, 2⟩
abbrev F.ROOT_SLOT_USAGE (n : Nat) : Fld := ⟨R.ROOT_SLOT n, 4, 4⟩
abbrev F.ROOT_SLOT_EXPORTABLE (n : Nat) : Fld := ⟨R.ROOT_SLOT n, 8, 1⟩
abbrev F.ROOT_SLOT_ORIGIN (n : Nat) : Fld := ⟨R.ROOT_SLOT n, 9, 2⟩
abbrev F.ROOT_SLOT_GEN (n : Nat) : Fld := ⟨R.ROOT_SLOT n, 16, 16⟩
abbrev F.RNG_STATUS_STATE : Fld := ⟨R.RNG_STATUS, 0, 2⟩
abbrev F.RNG_HEALTH_FAIL : Fld := ⟨R.RNG_HEALTH_FAIL, 0, 32⟩
abbrev F.RNG_RESEEDS : Fld := ⟨R.RNG_RESEEDS, 0, 64⟩
abbrev F.RNG_BYTES : Fld := ⟨R.RNG_BYTES, 0, 64⟩
abbrev F.TAMPER_STATUS_VOLTAGE : Fld := ⟨R.TAMPER_STATUS, 0, 1⟩
abbrev F.TAMPER_STATUS_CLOCK : Fld := ⟨R.TAMPER_STATUS, 1, 1⟩
abbrev F.TAMPER_STATUS_TEMPERATURE : Fld := ⟨R.TAMPER_STATUS, 2, 1⟩
abbrev F.TAMPER_STATUS_KEYSTORE : Fld := ⟨R.TAMPER_STATUS, 3, 1⟩
abbrev F.TAMPER_STATUS : Fld := ⟨R.TAMPER_STATUS, 0, 4⟩
abbrev F.TAMPER_ERASES : Fld := ⟨R.TAMPER_ERASES, 0, 32⟩
abbrev F.ROOT_RELOADS : Fld := ⟨R.ROOT_RELOADS, 0, 2⟩
abbrev F.ROOT_INT_STATUS_TAMPER_SEEN : Fld := ⟨R.ROOT_INT_STATUS, 0, 1⟩
abbrev F.ROOT_INT_STATUS_RNG_FAIL_SEEN : Fld := ⟨R.ROOT_INT_STATUS, 1, 1⟩
abbrev F.ROOT_INT_STATUS_RESTORE_FAIL_SEEN : Fld := ⟨R.ROOT_INT_STATUS, 2, 1⟩
abbrev F.ROOT_INT_STATUS : Fld := ⟨R.ROOT_INT_STATUS, 0, 3⟩
abbrev F.ROOT_INT_ENABLE : Fld := ⟨R.ROOT_INT_ENABLE, 0, 3⟩
abbrev F.ROOT_PROVISION_CLOSED : Fld := ⟨R.ROOT_PROVISION, 0, 1⟩
abbrev F.KRA_QP_CMD_QP (s : Nat) : Fld := ⟨R.KRA_QP_CMD s, 0, 20⟩
abbrev F.KRA_QP_CMD_OP (s : Nat) : Fld := ⟨R.KRA_QP_CMD s, 20, 4⟩
abbrev F.KRA_QP_RESULT (s : Nat) : Fld := ⟨R.KRA_QP_RESULT s, 0, 3⟩
abbrev F.KRA_INT_STATUS_ACCESS_VIOLATION_SEEN (s : Nat) : Fld := ⟨R.KRA_INT_STATUS s, 0, 1⟩
abbrev F.KRA_INT_STATUS_MISS_DROP_SEEN (s : Nat) : Fld := ⟨R.KRA_INT_STATUS s, 1, 1⟩
abbrev F.KRA_INT_STATUS_RETRY_EXCEEDED_SEEN (s : Nat) : Fld := ⟨R.KRA_INT_STATUS s, 2, 1⟩
abbrev F.KRA_INT_STATUS_REVOKE_FORCED_SEEN (s : Nat) : Fld := ⟨R.KRA_INT_STATUS s, 3, 1⟩
abbrev F.KRA_INT_STATUS (s : Nat) : Fld := ⟨R.KRA_INT_STATUS s, 0, 4⟩
abbrev F.KRA_INT_ENABLE (s : Nat) : Fld := ⟨R.KRA_INT_ENABLE s, 0, 4⟩
abbrev F.KRA_MR_ACTIVE (s : Nat) : Fld := ⟨R.KRA_MR_ACTIVE s, 0, 19⟩
abbrev F.KRA_MISS_DEPTH (s : Nat) : Fld := ⟨R.KRA_MISS_DEPTH s, 0, 10⟩
abbrev F.KRA_MISS_PEAK (s : Nat) : Fld := ⟨R.KRA_MISS_PEAK s, 0, 10⟩
abbrev F.KRA_CTX_RESIDENT (s : Nat) : Fld := ⟨R.KRA_CTX_RESIDENT s, 0, 15⟩
abbrev F.KRA_TX_PKTS (s : Nat) : Fld := ⟨R.KRA_TX_PKTS s, 0, 64⟩
abbrev F.KRA_TX_BYTES (s : Nat) : Fld := ⟨R.KRA_TX_BYTES s, 0, 64⟩
abbrev F.KRA_RX_PKTS (s : Nat) : Fld := ⟨R.KRA_RX_PKTS s, 0, 64⟩
abbrev F.KRA_RX_BYTES (s : Nat) : Fld := ⟨R.KRA_RX_BYTES s, 0, 64⟩
abbrev F.KRA_RETRANSMITS (s : Nat) : Fld := ⟨R.KRA_RETRANSMITS s, 0, 64⟩
abbrev F.KRA_TIMEOUTS (s : Nat) : Fld := ⟨R.KRA_TIMEOUTS s, 0, 64⟩
abbrev F.KRA_NAK_TX (s : Nat) : Fld := ⟨R.KRA_NAK_TX s, 0, 64⟩
abbrev F.KRA_NAK_RX (s : Nat) : Fld := ⟨R.KRA_NAK_RX s, 0, 64⟩
abbrev F.KRA_RX_AUTH_FAIL (s : Nat) : Fld := ⟨R.KRA_RX_AUTH_FAIL s, 0, 64⟩
abbrev F.KRA_RX_OUT_OF_SEQ (s : Nat) : Fld := ⟨R.KRA_RX_OUT_OF_SEQ s, 0, 64⟩
abbrev F.KRA_RX_DUPLICATE (s : Nat) : Fld := ⟨R.KRA_RX_DUPLICATE s, 0, 64⟩
abbrev F.KRA_LATE_RESPONSE (s : Nat) : Fld := ⟨R.KRA_LATE_RESPONSE s, 0, 64⟩
abbrev F.KRA_RX_QP_MISMATCH (s : Nat) : Fld := ⟨R.KRA_RX_QP_MISMATCH s, 0, 64⟩
abbrev F.KRA_RX_NO_QP (s : Nat) : Fld := ⟨R.KRA_RX_NO_QP s, 0, 64⟩
abbrev F.KRA_RX_BAD_VERSION (s : Nat) : Fld := ⟨R.KRA_RX_BAD_VERSION s, 0, 64⟩
abbrev F.KRA_ACCESS_VIOLATION (s : Nat) : Fld := ⟨R.KRA_ACCESS_VIOLATION s, 0, 64⟩
abbrev F.KRA_EVENT_DROP (s : Nat) : Fld := ⟨R.KRA_EVENT_DROP s, 0, 64⟩
abbrev F.KRA_CTX_HITS (s : Nat) : Fld := ⟨R.KRA_CTX_HITS s, 0, 64⟩
abbrev F.KRA_CTX_MISSES (s : Nat) : Fld := ⟨R.KRA_CTX_MISSES s, 0, 64⟩
abbrev F.KRA_CTX_EVICT (s : Nat) : Fld := ⟨R.KRA_CTX_EVICT s, 0, 64⟩
abbrev F.KRA_CTX_PIN_WAIT (s : Nat) : Fld := ⟨R.KRA_CTX_PIN_WAIT s, 0, 64⟩
abbrev F.KRA_MISS_DROP (s : Nat) : Fld := ⟨R.KRA_MISS_DROP s, 0, 64⟩
abbrev F.KRA_REG_REMOTE_CHECKS (s : Nat) : Fld := ⟨R.KRA_REG_REMOTE_CHECKS s, 0, 64⟩
abbrev F.KRA_REG_WAIT (s : Nat) : Fld := ⟨R.KRA_REG_WAIT s, 0, 64⟩
abbrev F.KRA_REVOKES (s : Nat) : Fld := ⟨R.KRA_REVOKES s, 0, 64⟩
abbrev F.KRA_REVOKES_FORCED (s : Nat) : Fld := ⟨R.KRA_REVOKES_FORCED s, 0, 32⟩
abbrev F.KRA_QP_STAGE (s : Nat) (u : Nat) : Fld := ⟨R.KRA_QP_STAGE s u, 0, 64⟩
abbrev F.KRA_UDP_PORT : Fld := ⟨R.KRA_UDP_PORT, 0, 16⟩
abbrev F.KRA_DRAIN_LIMIT : Fld := ⟨R.KRA_DRAIN_LIMIT, 0, 16⟩
abbrev F.KRA_ACK_DELAY : Fld := ⟨R.KRA_ACK_DELAY, 0, 16⟩
abbrev F.KRA_CTX_MAP_LOCATION (g : Nat) : Fld := ⟨R.KRA_CTX_MAP g, 0, 2⟩
abbrev F.KRA_CTX_MAP_BASE (g : Nat) : Fld := ⟨R.KRA_CTX_MAP g, 20, 44⟩
abbrev F.KL_CTRL_ENABLE (p : Nat) : Fld := ⟨R.KL_CTRL p, 0, 1⟩
abbrev F.KL_STATE_STATE (p : Nat) : Fld := ⟨R.KL_STATE p, 0, 3⟩
abbrev F.KL_STATE_REFUSE (p : Nat) : Fld := ⟨R.KL_STATE p, 4, 4⟩
abbrev F.KL_STATE_PEER_FED (p : Nat) : Fld := ⟨R.KL_STATE p, 8, 6⟩
abbrev F.KL_BLOCKS_TX (p : Nat) : Fld := ⟨R.KL_BLOCKS_TX p, 0, 64⟩
abbrev F.KL_BLOCKS_RX (p : Nat) : Fld := ⟨R.KL_BLOCKS_RX p, 0, 64⟩
abbrev F.KL_CRC_ERR (p : Nat) : Fld := ⟨R.KL_CRC_ERR p, 0, 64⟩
abbrev F.KL_REPLAYS (p : Nat) : Fld := ⟨R.KL_REPLAYS p, 0, 64⟩
abbrev F.KL_RETRAINS (p : Nat) : Fld := ⟨R.KL_RETRAINS p, 0, 32⟩
abbrev F.KL_FEC_CORR (p : Nat) : Fld := ⟨R.KL_FEC_CORR p, 0, 64⟩
abbrev F.KL_FEC_UNCORR (p : Nat) : Fld := ⟨R.KL_FEC_UNCORR p, 0, 64⟩
abbrev F.KL_CREDIT_WAIT (p : Nat) : Fld := ⟨R.KL_CREDIT_WAIT p, 0, 64⟩
abbrev F.KL_REPLAY_FULL (p : Nat) : Fld := ⟨R.KL_REPLAY_FULL p, 0, 64⟩
abbrev F.KL_TRANSIT_FLITS (p : Nat) : Fld := ⟨R.KL_TRANSIT_FLITS p, 0, 64⟩
abbrev F.KL_LINK_LOSS (p : Nat) : Fld := ⟨R.KL_LINK_LOSS p, 0, 64⟩
abbrev F.KL_VC_CREDITS (p : Nat) : Fld := ⟨R.KL_VC_CREDITS p, 0, 64⟩
abbrev F.KL_TIME_ADJ (p : Nat) : Fld := ⟨R.KL_TIME_ADJ p, 0, 16⟩
abbrev F.KL_TRAIN_FAIL (p : Nat) : Fld := ⟨R.KL_TRAIN_FAIL p, 0, 32⟩
abbrev F.KL_ROUTE (f : Nat) : Fld := ⟨R.KL_ROUTE f, 0, 3⟩
abbrev F.KL_HOP_DROP : Fld := ⟨R.KL_HOP_DROP, 0, 64⟩
abbrev F.KL_UNREACH_DROP : Fld := ⟨R.KL_UNREACH_DROP, 0, 64⟩
abbrev F.KL_BAD_TYPE : Fld := ⟨R.KL_BAD_TYPE, 0, 64⟩
abbrev F.KL_IGNORED : Fld := ⟨R.KL_IGNORED, 0, 64⟩
abbrev F.KL_INT_STATUS_LINK_DOWN_SEEN : Fld := ⟨R.KL_INT_STATUS, 0, 1⟩
abbrev F.KL_INT_STATUS_RETRAIN_SEEN : Fld := ⟨R.KL_INT_STATUS, 1, 1⟩
abbrev F.KL_INT_STATUS_REFUSED_SEEN : Fld := ⟨R.KL_INT_STATUS, 2, 1⟩
abbrev F.KL_INT_STATUS_BAD_TYPE_SEEN : Fld := ⟨R.KL_INT_STATUS, 3, 1⟩
abbrev F.KL_INT_STATUS : Fld := ⟨R.KL_INT_STATUS, 0, 4⟩
abbrev F.KL_INT_ENABLE : Fld := ⟨R.KL_INT_ENABLE, 0, 4⟩
abbrev F.FED_ID_ID : Fld := ⟨R.FED_ID, 0, 6⟩
abbrev F.FED_ID_VALID : Fld := ⟨R.FED_ID, 8, 1⟩
abbrev F.FED_STATE_STATE : Fld := ⟨R.FED_STATE, 0, 2⟩
abbrev F.FED_STATE_MOVING : Fld := ⟨R.FED_STATE, 4, 1⟩
abbrev F.FED_MASTER_ID : Fld := ⟨R.FED_MASTER, 0, 6⟩
abbrev F.FED_MASTER_SELF : Fld := ⟨R.FED_MASTER, 8, 1⟩
abbrev F.FED_EPOCH_EPOCH : Fld := ⟨R.FED_EPOCH, 0, 16⟩
abbrev F.FED_EPOCH_OWN : Fld := ⟨R.FED_EPOCH, 16, 16⟩
abbrev F.FED_MEMBERS : Fld := ⟨R.FED_MEMBERS, 0, 64⟩
abbrev F.FED_MOVES : Fld := ⟨R.FED_MOVES, 0, 32⟩
abbrev F.FED_JOIN_REFUSED : Fld := ⟨R.FED_JOIN_REFUSED, 0, 32⟩
abbrev F.FED_HB_MISS : Fld := ⟨R.FED_HB_MISS, 0, 32⟩
abbrev F.FED_TIME_STATUS_UPSTREAM : Fld := ⟨R.FED_TIME_STATUS, 0, 3⟩
abbrev F.FED_TIME_STATUS_FT_STATE : Fld := ⟨R.FED_TIME_STATUS, 4, 2⟩
abbrev F.FED_TIME_STATUS_LINK_DELAY : Fld := ⟨R.FED_TIME_STATUS, 16, 16⟩
abbrev F.FED_EPOCH_RAISES : Fld := ⟨R.FED_EPOCH_RAISES, 0, 32⟩
abbrev F.FED_EPOCH_ABORTS : Fld := ⟨R.FED_EPOCH_ABORTS, 0, 32⟩
abbrev F.FED_INT_STATUS_MOVING_SEEN : Fld := ⟨R.FED_INT_STATUS, 0, 1⟩
abbrev F.FED_INT_STATUS_MEMBER_LOST_SEEN : Fld := ⟨R.FED_INT_STATUS, 1, 1⟩
abbrev F.FED_INT_STATUS_MASTER_CHANGED : Fld := ⟨R.FED_INT_STATUS, 2, 1⟩
abbrev F.FED_INT_STATUS_EPOCH_RAISED : Fld := ⟨R.FED_INT_STATUS, 3, 1⟩
abbrev F.FED_INT_STATUS_JOIN_REFUSED_SEEN : Fld := ⟨R.FED_INT_STATUS, 4, 1⟩
abbrev F.FED_INT_STATUS : Fld := ⟨R.FED_INT_STATUS, 0, 5⟩
abbrev F.FED_INT_ENABLE : Fld := ⟨R.FED_INT_ENABLE, 0, 5⟩
abbrev F.FE_DB_FWD : Fld := ⟨R.FE_DB_FWD, 0, 64⟩
abbrev F.FE_DB_IN : Fld := ⟨R.FE_DB_IN, 0, 64⟩
abbrev F.FE_DB_DROP : Fld := ⟨R.FE_DB_DROP, 0, 64⟩
abbrev F.FE_READS : Fld := ⟨R.FE_READS, 0, 64⟩
abbrev F.FE_WRITES : Fld := ⟨R.FE_WRITES, 0, 64⟩
abbrev F.FE_LATE_CPL : Fld := ⟨R.FE_LATE_CPL, 0, 64⟩
abbrev F.FE_BIND_MISMATCH : Fld := ⟨R.FE_BIND_MISMATCH, 0, 64⟩
abbrev F.FE_MMIO_TIMEOUT : Fld := ⟨R.FE_MMIO_TIMEOUT, 0, 32⟩
abbrev F.FE_SEQ_LOSS : Fld := ⟨R.FE_SEQ_LOSS, 0, 32⟩
abbrev F.FE_BME_DISCARD : Fld := ⟨R.FE_BME_DISCARD, 0, 64⟩
abbrev F.FE_READ_TIMEOUT : Fld := ⟨R.FE_READ_TIMEOUT, 0, 32⟩
abbrev F.FE_BINDINGS : Fld := ⟨R.FE_BINDINGS, 0, 13⟩
abbrev F.FE_INT_STATUS_HOME_LOST_SEEN : Fld := ⟨R.FE_INT_STATUS, 0, 1⟩
abbrev F.FE_INT_STATUS_ANCHOR_LOST_SEEN : Fld := ⟨R.FE_INT_STATUS, 1, 1⟩
abbrev F.FE_INT_STATUS_FE_LOSS_SEEN : Fld := ⟨R.FE_INT_STATUS, 2, 1⟩
abbrev F.FE_INT_STATUS_MMIO_TIMEOUT_SEEN : Fld := ⟨R.FE_INT_STATUS, 3, 1⟩
abbrev F.FE_INT_STATUS : Fld := ⟨R.FE_INT_STATUS, 0, 4⟩
abbrev F.FE_INT_ENABLE : Fld := ⟨R.FE_INT_ENABLE, 0, 4⟩
abbrev F.NVME_SQ_ACTIVE (s : Nat) : Fld := ⟨R.NVME_SQ_ACTIVE s, 0, 13⟩
abbrev F.NVME_CQ_ACTIVE (s : Nat) : Fld := ⟨R.NVME_CQ_ACTIVE s, 0, 13⟩
abbrev F.NVME_CMDS (s : Nat) : Fld := ⟨R.NVME_CMDS s, 0, 64⟩
abbrev F.NVME_READ_BYTES (s : Nat) : Fld := ⟨R.NVME_READ_BYTES s, 0, 64⟩
abbrev F.NVME_WRITE_BYTES (s : Nat) : Fld := ⟨R.NVME_WRITE_BYTES s, 0, 64⟩
abbrev F.NVME_ERR_CPL (s : Nat) : Fld := ⟨R.NVME_ERR_CPL s, 0, 64⟩
abbrev F.NVME_DB_ERR (s : Nat) : Fld := ⟨R.NVME_DB_ERR s, 0, 32⟩
abbrev F.NVME_CQ_FULL_WAIT (s : Nat) : Fld := ⟨R.NVME_CQ_FULL_WAIT s, 0, 64⟩
abbrev F.NVME_SUPPRESSED (s : Nat) : Fld := ⟨R.NVME_SUPPRESSED s, 0, 64⟩
abbrev F.NVME_PS_DELAYED (s : Nat) : Fld := ⟨R.NVME_PS_DELAYED s, 0, 64⟩
abbrev F.NVME_SEAL_WAIT (s : Nat) : Fld := ⟨R.NVME_SEAL_WAIT s, 0, 64⟩
abbrev F.NVME_CAPTURE_RECORDS (s : Nat) : Fld := ⟨R.NVME_CAPTURE_RECORDS s, 0, 64⟩
abbrev F.NVME_CAPTURE_DROP (s : Nat) : Fld := ⟨R.NVME_CAPTURE_DROP s, 0, 64⟩
abbrev F.NVME_ABORTED (s : Nat) : Fld := ⟨R.NVME_ABORTED s, 0, 64⟩
abbrev F.ACC_DENIED (s : Nat) : Fld := ⟨R.ACC_DENIED s, 0, 64⟩
abbrev F.NVME_INT_STATUS_DB_ERR_SEEN (s : Nat) : Fld := ⟨R.NVME_INT_STATUS s, 0, 1⟩
abbrev F.NVME_INT_STATUS_CAPTURE_DROP_SEEN (s : Nat) : Fld := ⟨R.NVME_INT_STATUS s, 1, 1⟩
abbrev F.NVME_INT_STATUS_SEAL_FAIL_SEEN (s : Nat) : Fld := ⟨R.NVME_INT_STATUS s, 2, 1⟩
abbrev F.NVME_INT_STATUS (s : Nat) : Fld := ⟨R.NVME_INT_STATUS s, 0, 3⟩
abbrev F.NVME_INT_ENABLE (s : Nat) : Fld := ⟨R.NVME_INT_ENABLE s, 0, 3⟩
abbrev F.NVME_NS_COUNT : Fld := ⟨R.NVME_NS_COUNT, 0, 11⟩
abbrev F.NVME_SELFTEST_KIND : Fld := ⟨R.NVME_SELFTEST, 0, 4⟩
abbrev F.NVME_SELFTEST_PERCENT : Fld := ⟨R.NVME_SELFTEST, 8, 7⟩
abbrev F.NVME_SELFTEST_SEGMENT : Fld := ⟨R.NVME_SELFTEST, 16, 4⟩
abbrev F.NVME_SELFTEST_YIELDS : Fld := ⟨R.NVME_SELFTEST_YIELDS, 0, 64⟩
abbrev F.NVME_SELFTEST_MAX_DELAY : Fld := ⟨R.NVME_SELFTEST_MAX_DELAY, 0, 32⟩
abbrev F.ACC_TIME_FLOOR : Fld := ⟨R.ACC_TIME_FLOOR, 0, 48⟩
abbrev F.ACC_TIME_TRUSTED : Fld := ⟨R.ACC_TIME_TRUSTED, 0, 1⟩
abbrev F.ACC_SEALS : Fld := ⟨R.ACC_SEALS, 0, 64⟩
abbrev F.ACC_RESET_REFUSED : Fld := ⟨R.ACC_RESET_REFUSED, 0, 64⟩
abbrev F.ACC_VERIFY_PASS : Fld := ⟨R.ACC_VERIFY_PASS, 0, 32⟩
abbrev F.ACC_VERIFY_FAIL : Fld := ⟨R.ACC_VERIFY_FAIL, 0, 32⟩
abbrev F.NVME_HUB_INT_STATUS_VERIFY_FAIL_SEEN : Fld := ⟨R.NVME_HUB_INT_STATUS, 0, 1⟩
abbrev F.NVME_HUB_INT_STATUS_SELFTEST_FAIL_SEEN : Fld := ⟨R.NVME_HUB_INT_STATUS, 1, 1⟩
abbrev F.NVME_HUB_INT_STATUS : Fld := ⟨R.NVME_HUB_INT_STATUS, 0, 2⟩
abbrev F.NVME_HUB_INT_ENABLE : Fld := ⟨R.NVME_HUB_INT_ENABLE, 0, 2⟩
abbrev F.NVME_CTRL_CFG_ENABLE (i : Nat) : Fld := ⟨R.NVME_CTRL_CFG i, 0, 1⟩
abbrev F.NVME_CTRL_CFG_NS_ADMIN (i : Nat) : Fld := ⟨R.NVME_CTRL_CFG i, 1, 1⟩
abbrev F.NVME_CTRL_CFG_ADMIN_SLICE (i : Nat) : Fld := ⟨R.NVME_CTRL_CFG i, 2, 2⟩
abbrev F.NVME_CTRL_CFG_ADMIN_CLASS (i : Nat) : Fld := ⟨R.NVME_CTRL_CFG i, 8, 4⟩
abbrev F.NVME_CTRL_CFG_URGENT_CLASS (i : Nat) : Fld := ⟨R.NVME_CTRL_CFG i, 12, 4⟩
abbrev F.NVME_CTRL_CFG_HIGH_CLASS (i : Nat) : Fld := ⟨R.NVME_CTRL_CFG i, 16, 4⟩
abbrev F.NVME_CTRL_CFG_MEDIUM_CLASS (i : Nat) : Fld := ⟨R.NVME_CTRL_CFG i, 20, 4⟩
abbrev F.NVME_CTRL_CFG_LOW_CLASS (i : Nat) : Fld := ⟨R.NVME_CTRL_CFG i, 24, 4⟩
abbrev F.NVME_CQ_SLICE (i : Nat) (u : Nat) : Fld := ⟨R.NVME_CQ_SLICE i u, 0, 64⟩
abbrev F.FL_CH_STATE_STATE (s : Nat) (ch : Nat) : Fld := ⟨R.FL_CH_STATE s ch, 0, 2⟩
abbrev F.FL_CH_STATE_DIES (s : Nat) (ch : Nat) : Fld := ⟨R.FL_CH_STATE s ch, 8, 5⟩
abbrev F.FL_CH_BYTES (s : Nat) (ch : Nat) : Fld := ⟨R.FL_CH_BYTES s ch, 0, 64⟩
abbrev F.FL_CH_TIMEOUTS (s : Nat) (ch : Nat) : Fld := ⟨R.FL_CH_TIMEOUTS s ch, 0, 32⟩
abbrev F.FL_CH_TRAIN_FAIL (s : Nat) (ch : Nat) : Fld := ⟨R.FL_CH_TRAIN_FAIL s ch, 0, 32⟩
abbrev F.FL_DIE_REJECT (s : Nat) : Fld := ⟨R.FL_DIE_REJECT s, 0, 8⟩
abbrev F.FL_DIE_STATE_STATE (s : Nat) (x : Nat) : Fld := ⟨R.FL_DIE_STATE s x, 0, 2⟩
abbrev F.FL_DIE_STATE_GEOMETRY (s : Nat) (x : Nat) : Fld := ⟨R.FL_DIE_STATE s x, 8, 8⟩
abbrev F.FL_DIE_STATE_RETIRED (s : Nat) (x : Nat) : Fld := ⟨R.FL_DIE_STATE s x, 16, 16⟩
abbrev F.FL_DIE_STATE_TEMP (s : Nat) (x : Nat) : Fld := ⟨R.FL_DIE_STATE s x, 32, 8⟩
abbrev F.AFF_STATE (s : Nat) : Fld := ⟨R.AFF_STATE s, 0, 3⟩
abbrev F.AFF_BANDS_FREE (s : Nat) : Fld := ⟨R.AFF_BANDS_FREE s, 0, 16⟩
abbrev F.AFF_SPARE (s : Nat) : Fld := ⟨R.AFF_SPARE s, 0, 32⟩
abbrev F.AFF_SPARE_INIT (s : Nat) : Fld := ⟨R.AFF_SPARE_INIT s, 0, 32⟩
abbrev F.AFF_PE_AVG (s : Nat) : Fld := ⟨R.AFF_PE_AVG s, 0, 16⟩
abbrev F.AFF_PE_MAX (s : Nat) : Fld := ⟨R.AFF_PE_MAX s, 16, 16⟩
abbrev F.AFF_PE_MIN (s : Nat) : Fld := ⟨R.AFF_PE_MIN s, 32, 16⟩
abbrev F.AFF_HOST_BYTES (s : Nat) : Fld := ⟨R.AFF_HOST_BYTES s, 0, 64⟩
abbrev F.AFF_MEDIA_BYTES (s : Nat) : Fld := ⟨R.AFF_MEDIA_BYTES s, 0, 64⟩
abbrev F.AFF_ERASES (s : Nat) : Fld := ⟨R.AFF_ERASES s, 0, 64⟩
abbrev F.AFF_UNRECOVERED (s : Nat) : Fld := ⟨R.AFF_UNRECOVERED s, 0, 64⟩
abbrev F.AFF_PROG_FAIL (s : Nat) : Fld := ⟨R.AFF_PROG_FAIL s, 0, 32⟩
abbrev F.AFF_ERASE_FAIL (s : Nat) : Fld := ⟨R.AFF_ERASE_FAIL s, 0, 32⟩
abbrev F.AFF_GROWN_BAD (s : Nat) : Fld := ⟨R.AFF_GROWN_BAD s, 0, 32⟩
abbrev F.AFF_FACTORY_BAD (s : Nat) : Fld := ⟨R.AFF_FACTORY_BAD s, 0, 32⟩
abbrev F.AFF_DIE_RETIRED (s : Nat) : Fld := ⟨R.AFF_DIE_RETIRED s, 0, 8⟩
abbrev F.AFF_RD_REFRESH (s : Nat) : Fld := ⟨R.AFF_RD_REFRESH s, 0, 64⟩
abbrev F.AFF_RET_REFRESH (s : Nat) : Fld := ⟨R.AFF_RET_REFRESH s, 0, 64⟩
abbrev F.AFF_WL_MOVES (s : Nat) : Fld := ⟨R.AFF_WL_MOVES s, 0, 64⟩
abbrev F.AFF_PATROL_PAGES (s : Nat) : Fld := ⟨R.AFF_PATROL_PAGES s, 0, 64⟩
abbrev F.AFF_PATROL_PASS (s : Nat) : Fld := ⟨R.AFF_PATROL_PASS s, 0, 48⟩
abbrev F.AFF_MAP_HITS (s : Nat) : Fld := ⟨R.AFF_MAP_HITS s, 0, 64⟩
abbrev F.AFF_MAP_MISSES (s : Nat) : Fld := ⟨R.AFF_MAP_MISSES s, 0, 64⟩
abbrev F.AFF_WBUF_BYTES (s : Nat) : Fld := ⟨R.AFF_WBUF_BYTES s, 0, 31⟩
abbrev F.AFF_WBUF_PEAK (s : Nat) : Fld := ⟨R.AFF_WBUF_PEAK s, 0, 31⟩
abbrev F.AFF_WBUF_WAIT (s : Nat) : Fld := ⟨R.AFF_WBUF_WAIT s, 0, 64⟩
abbrev F.AFF_GC_BYTES (s : Nat) : Fld := ⟨R.AFF_GC_BYTES s, 0, 64⟩
abbrev F.AFF_RELOC_SUPERSEDED (s : Nat) : Fld := ⟨R.AFF_RELOC_SUPERSEDED s, 0, 64⟩
abbrev F.AFF_SUSPENDS (s : Nat) : Fld := ⟨R.AFF_SUSPENDS s, 0, 64⟩
abbrev F.AFF_INT_STATUS_UNRECOVERED_SEEN (s : Nat) : Fld := ⟨R.AFF_INT_STATUS s, 0, 1⟩
abbrev F.AFF_INT_STATUS_BLOCK_RETIRED_SEEN (s : Nat) : Fld := ⟨R.AFF_INT_STATUS s, 1, 1⟩
abbrev F.AFF_INT_STATUS_DIE_RETIRED_SEEN (s : Nat) : Fld := ⟨R.AFF_INT_STATUS s, 2, 1⟩
abbrev F.AFF_INT_STATUS_SPARE_LOW_SEEN (s : Nat) : Fld := ⟨R.AFF_INT_STATUS s, 3, 1⟩
abbrev F.AFF_INT_STATUS_READ_ONLY_SEEN (s : Nat) : Fld := ⟨R.AFF_INT_STATUS s, 4, 1⟩
abbrev F.AFF_INT_STATUS (s : Nat) : Fld := ⟨R.AFF_INT_STATUS s, 0, 5⟩
abbrev F.AFF_INT_ENABLE (s : Nat) : Fld := ⟨R.AFF_INT_ENABLE s, 0, 5⟩
abbrev F.AFF_GC_LOW (s : Nat) : Fld := ⟨R.AFF_GC_LOW s, 0, 8⟩
abbrev F.AFF_WL_DELTA (s : Nat) : Fld := ⟨R.AFF_WL_DELTA s, 0, 16⟩
abbrev F.AFF_RD_LIMIT (s : Nat) : Fld := ⟨R.AFF_RD_LIMIT s, 0, 32⟩
abbrev F.AFF_RET_LIMIT (s : Nat) : Fld := ⟨R.AFF_RET_LIMIT s, 0, 16⟩
abbrev F.AFF_PATROL_DAYS (s : Nat) : Fld := ⟨R.AFF_PATROL_DAYS s, 0, 8⟩
abbrev F.AFF_BG_SHARE (s : Nat) : Fld := ⟨R.AFF_BG_SHARE s, 0, 7⟩
abbrev F.AFF_REFRESH_STAGE (s : Nat) : Fld := ⟨R.AFF_REFRESH_STAGE s, 0, 4⟩
abbrev F.AFF_REFRESH_BITS (s : Nat) : Fld := ⟨R.AFF_REFRESH_BITS s, 0, 10⟩
abbrev F.AFF_MAP_CACHE_GIB (s : Nat) : Fld := ⟨R.AFF_MAP_CACHE_GIB s, 0, 5⟩
abbrev F.AFF_OP_PCT (s : Nat) : Fld := ⟨R.AFF_OP_PCT s, 0, 6⟩
abbrev F.AFF_READ_STAGE (s : Nat) (n : Nat) : Fld := ⟨R.AFF_READ_STAGE s n, 0, 64⟩
abbrev F.HOLDUP_STATE : Fld := ⟨R.HOLDUP_STATE, 0, 3⟩
abbrev F.HOLDUP_MV : Fld := ⟨R.HOLDUP_MV, 0, 16⟩
abbrev F.HOLDUP_CHARGE_PCT : Fld := ⟨R.HOLDUP_CHARGE_PCT, 0, 7⟩
abbrev F.HOLDUP_BUDGET : Fld := ⟨R.HOLDUP_BUDGET, 0, 33⟩
abbrev F.HOLDUP_CMEAS : Fld := ⟨R.HOLDUP_CMEAS, 0, 32⟩
abbrev F.HOLDUP_LAST_TEST : Fld := ⟨R.HOLDUP_LAST_TEST, 0, 48⟩
abbrev F.HOLDUP_SAVES : Fld := ⟨R.HOLDUP_SAVES, 0, 32⟩
abbrev F.HOLDUP_LAST_SAVE_BYTES : Fld := ⟨R.HOLDUP_LAST_SAVE_BYTES, 0, 33⟩
abbrev F.HOLDUP_LOST_BYTES : Fld := ⟨R.HOLDUP_LOST_BYTES, 0, 64⟩
abbrev F.HOLDUP_INT_STATUS_TEST_FAIL_SEEN : Fld := ⟨R.HOLDUP_INT_STATUS, 0, 1⟩
abbrev F.HOLDUP_INT_STATUS_SAVE_RESTORED_SEEN : Fld := ⟨R.HOLDUP_INT_STATUS, 1, 1⟩
abbrev F.HOLDUP_INT_STATUS_WRITE_LOST_SEEN : Fld := ⟨R.HOLDUP_INT_STATUS, 2, 1⟩
abbrev F.HOLDUP_INT_STATUS : Fld := ⟨R.HOLDUP_INT_STATUS, 0, 3⟩
abbrev F.HOLDUP_INT_ENABLE : Fld := ⟨R.HOLDUP_INT_ENABLE, 0, 3⟩
abbrev F.AFF_WIN_START : Fld := ⟨R.AFF_WIN_START, 0, 17⟩
abbrev F.AFF_WIN_LEN : Fld := ⟨R.AFF_WIN_LEN, 0, 17⟩
abbrev F.FN_STATUS_GATE_CLOSED (f : Nat) : Fld := ⟨R.FN_STATUS f, 0, 1⟩
abbrev F.FN_STATUS_GATE_CAUSE (f : Nat) : Fld := ⟨R.FN_STATUS f, 1, 3⟩
abbrev F.FN_STATUS_INTX_ASSERTED (f : Nat) : Fld := ⟨R.FN_STATUS f, 8, 1⟩
abbrev F.FN_INTX_PENDING (f : Nat) (w : Nat) : Fld := ⟨R.FN_INTX_PENDING f w, 0, 64⟩
abbrev F.ANX_OPCODE : Fld := ⟨R.ANX_OPCODE, 0, 16⟩
abbrev F.ANX_STATUS_STATE : Fld := ⟨R.ANX_STATUS, 0, 3⟩
abbrev F.ANX_STATUS_RESULT : Fld := ⟨R.ANX_STATUS, 16, 16⟩
abbrev F.ANX_LENGTH : Fld := ⟨R.ANX_LENGTH, 0, 12⟩
abbrev F.ANX_SEQ : Fld := ⟨R.ANX_SEQ, 0, 32⟩
abbrev F.ANX_INT_INT_EN : Fld := ⟨R.ANX_INT, 0, 1⟩
abbrev F.ANX_VERSION : Fld := ⟨R.ANX_VERSION, 0, 32⟩
abbrev F.ANX_PAYLOAD (w : Nat) : Fld := ⟨R.ANX_PAYLOAD w, 0, 32⟩
abbrev F.PCIE_LINK_STATE_STATE (l : Nat) : Fld := ⟨R.PCIE_LINK_STATE l, 0, 4⟩
abbrev F.PCIE_LINK_STATE_SPEED (l : Nat) : Fld := ⟨R.PCIE_LINK_STATE l, 4, 4⟩
abbrev F.PCIE_LINK_STATE_WIDTH (l : Nat) : Fld := ⟨R.PCIE_LINK_STATE l, 8, 5⟩
abbrev F.PCIE_LINK_STATE_FLIT (l : Nat) : Fld := ⟨R.PCIE_LINK_STATE l, 13, 1⟩
abbrev F.PCIE_TAGS_INUSE (l : Nat) : Fld := ⟨R.PCIE_TAGS_INUSE l, 0, 13⟩
abbrev F.PCIE_TAG_WAIT (l : Nat) : Fld := ⟨R.PCIE_TAG_WAIT l, 0, 64⟩
abbrev F.PCIE_CPL_TIMEOUTS (l : Nat) : Fld := ⟨R.PCIE_CPL_TIMEOUTS l, 0, 64⟩
abbrev F.PCIE_CPL_ERRORS (l : Nat) : Fld := ⟨R.PCIE_CPL_ERRORS l, 0, 64⟩
abbrev F.PCIE_POISON_RX (l : Nat) : Fld := ⟨R.PCIE_POISON_RX l, 0, 64⟩
abbrev F.PCIE_UNEXP_CPL (l : Nat) : Fld := ⟨R.PCIE_UNEXP_CPL l, 0, 64⟩
abbrev F.PCIE_REISSUES (l : Nat) : Fld := ⟨R.PCIE_REISSUES l, 0, 64⟩
abbrev F.PCIE_FLR_DISCARD (l : Nat) : Fld := ⟨R.PCIE_FLR_DISCARD l, 0, 64⟩
abbrev F.PCIE_RECOVERIES (l : Nat) : Fld := ⟨R.PCIE_RECOVERIES l, 0, 32⟩
abbrev F.PCIE_TAGS_QUARANTINED (l : Nat) : Fld := ⟨R.PCIE_TAGS_QUARANTINED l, 0, 13⟩
abbrev F.PCIE_VEC_DROP (l : Nat) : Fld := ⟨R.PCIE_VEC_DROP l, 0, 64⟩
abbrev F.PCIE_REISSUE_LIMIT : Fld := ⟨R.PCIE_REISSUE_LIMIT, 0, 3⟩
abbrev F.PCIE_GATE_OPEN_INSTANCE : Fld := ⟨R.PCIE_GATE_OPEN, 0, 13⟩
abbrev F.PCIE_GATE_OPEN_GO : Fld := ⟨R.PCIE_GATE_OPEN, 16, 1⟩
abbrev F.PCIE_INT_STATUS_GATE_CLOSED_SEEN : Fld := ⟨R.PCIE_INT_STATUS, 0, 1⟩
abbrev F.PCIE_INT_STATUS_LINK_DOWN_SEEN : Fld := ⟨R.PCIE_INT_STATUS, 1, 1⟩
abbrev F.PCIE_INT_STATUS_FATAL_SEEN : Fld := ⟨R.PCIE_INT_STATUS, 2, 1⟩
abbrev F.PCIE_INT_STATUS_ANNEX_HOLD_SEEN : Fld := ⟨R.PCIE_INT_STATUS, 3, 1⟩
abbrev F.PCIE_INT_STATUS : Fld := ⟨R.PCIE_INT_STATUS, 0, 4⟩
abbrev F.PCIE_INT_ENABLE : Fld := ⟨R.PCIE_INT_ENABLE, 0, 4⟩
abbrev F.ANX_CMDS : Fld := ⟨R.ANX_CMDS, 0, 64⟩
abbrev F.ANX_BUSY : Fld := ⟨R.ANX_BUSY, 0, 64⟩
abbrev F.ANX_IGNORED : Fld := ⟨R.ANX_IGNORED, 0, 64⟩
abbrev F.FN_GATE_CLOSED (i : Nat) : Fld := ⟨R.FN_GATE i, 0, 1⟩
abbrev F.FN_GATE_CAUSE (i : Nat) : Fld := ⟨R.FN_GATE i, 1, 3⟩
abbrev F.INST_FAULT_COUNT : Fld := ⟨R.INST_FAULT_COUNT, 0, 10⟩
abbrev F.INST_FAULT_POP : Fld := ⟨R.INST_FAULT_POP, 0, 1⟩
abbrev F.INST_FAULT_REC (u : Nat) : Fld := ⟨R.INST_FAULT_REC u, 0, 64⟩
abbrev F.INST_FAULT_OVERFLOW : Fld := ⟨R.INST_FAULT_OVERFLOW, 0, 64⟩
abbrev F.INST_QUIESCE_LIMIT : Fld := ⟨R.INST_QUIESCE_LIMIT, 0, 32⟩
abbrev F.INST_INT_STATUS_FAULT_SEEN : Fld := ⟨R.INST_INT_STATUS, 0, 1⟩
abbrev F.INST_INT_STATUS_FAULT_OVERFLOW_SEEN : Fld := ⟨R.INST_INT_STATUS, 1, 1⟩
abbrev F.INST_INT_STATUS_LOSS_REPORT_SEEN : Fld := ⟨R.INST_INT_STATUS, 2, 1⟩
abbrev F.INST_INT_STATUS : Fld := ⟨R.INST_INT_STATUS, 0, 3⟩
abbrev F.INST_INT_ENABLE : Fld := ⟨R.INST_INT_ENABLE, 0, 3⟩
abbrev F.INST_INVAL_ADDR : Fld := ⟨R.INST_INVAL_ADDR, 12, 52⟩
abbrev F.INST_INVAL_CMD_INSTANCE : Fld := ⟨R.INST_INVAL_CMD, 0, 13⟩
abbrev F.INST_INVAL_CMD_SCOPE : Fld := ⟨R.INST_INVAL_CMD, 16, 2⟩
abbrev F.INST_INVAL_STATUS_BUSY : Fld := ⟨R.INST_INVAL_STATUS, 0, 1⟩
abbrev F.INST_CFG_TYPE (i : Nat) : Fld := ⟨R.INST_CFG i, 0, 3⟩
abbrev F.INST_CFG_STATE (i : Nat) : Fld := ⟨R.INST_CFG i, 4, 3⟩
abbrev F.INST_CFG_ENABLE (i : Nat) : Fld := ⟨R.INST_CFG i, 8, 1⟩
abbrev F.INST_CFG_LOG2_SPACE (i : Nat) : Fld := ⟨R.INST_CFG i, 12, 5⟩
abbrev F.INST_CFG_PF (i : Nat) : Fld := ⟨R.INST_CFG i, 20, 3⟩
abbrev F.INST_TABLE (i : Nat) : Fld := ⟨R.INST_TABLE i, 12, 52⟩
abbrev F.INST_QUOTA_A_SR_MAX (i : Nat) : Fld := ⟨R.INST_QUOTA_A i, 0, 13⟩
abbrev F.INST_QUOTA_A_CR_MAX (i : Nat) : Fld := ⟨R.INST_QUOTA_A i, 16, 13⟩
abbrev F.INST_QUOTA_A_NVMEQ_MAX (i : Nat) : Fld := ⟨R.INST_QUOTA_A i, 32, 9⟩
abbrev F.INST_QUOTA_A_IOTLB_MAX (i : Nat) : Fld := ⟨R.INST_QUOTA_A i, 48, 14⟩
abbrev F.INST_QUOTA_B_QP_MAX (i : Nat) : Fld := ⟨R.INST_QUOTA_B i, 0, 21⟩
abbrev F.INST_QUOTA_B_MR_MAX (i : Nat) : Fld := ⟨R.INST_QUOTA_B i, 32, 21⟩
abbrev F.INST_QUOTA_C_OPS_MAX (i : Nat) : Fld := ⟨R.INST_QUOTA_C i, 0, 15⟩
abbrev F.INST_USE_A_SR (i : Nat) : Fld := ⟨R.INST_USE_A i, 0, 13⟩
abbrev F.INST_USE_A_CR (i : Nat) : Fld := ⟨R.INST_USE_A i, 16, 13⟩
abbrev F.INST_USE_A_NVMEQ (i : Nat) : Fld := ⟨R.INST_USE_A i, 32, 9⟩
abbrev F.INST_USE_B_QP (i : Nat) : Fld := ⟨R.INST_USE_B i, 0, 21⟩
abbrev F.INST_USE_B_MR (i : Nat) : Fld := ⟨R.INST_USE_B i, 32, 21⟩
abbrev F.INST_FAULTS (i : Nat) : Fld := ⟨R.INST_FAULTS i, 0, 32⟩
abbrev F.INST_OPS_WAIT (i : Nat) : Fld := ⟨R.INST_OPS_WAIT i, 0, 64⟩
abbrev F.ITU_HITS (s : Nat) : Fld := ⟨R.ITU_HITS s, 0, 64⟩
abbrev F.ITU_MISSES (s : Nat) : Fld := ⟨R.ITU_MISSES s, 0, 64⟩
abbrev F.ITU_EVICT (s : Nat) : Fld := ⟨R.ITU_EVICT s, 0, 64⟩
abbrev F.ITU_ATS_REQ (s : Nat) : Fld := ⟨R.ITU_ATS_REQ s, 0, 64⟩
abbrev F.ITU_ATS_INVAL (s : Nat) : Fld := ⟨R.ITU_ATS_INVAL s, 0, 64⟩
abbrev F.ITU_FAULTS (s : Nat) : Fld := ⟨R.ITU_FAULTS s, 0, 64⟩
abbrev F.ITU_ENTRIES (s : Nat) : Fld := ⟨R.ITU_ENTRIES s, 0, 14⟩
abbrev F.RCV_SR_BASE : Fld := ⟨R.RCV_SR_BASE, 12, 52⟩
abbrev F.RCV_CR_BASE : Fld := ⟨R.RCV_CR_BASE, 12, 52⟩
abbrev F.RCV_CFG_LOG_SIZE : Fld := ⟨R.RCV_CFG, 0, 5⟩
abbrev F.RCV_CFG_VECTOR : Fld := ⟨R.RCV_CFG, 16, 11⟩
abbrev F.RCV_CTRL_ENABLE : Fld := ⟨R.RCV_CTRL, 0, 1⟩
abbrev F.RCV_STATUS : Fld := ⟨R.RCV_STATUS, 0, 16⟩
abbrev F.BOOT_STATUS_BOOTED_SLOT : Fld := ⟨R.BOOT_STATUS, 0, 2⟩
abbrev F.BOOT_STATUS_CAUSE : Fld := ⟨R.BOOT_STATUS, 4, 3⟩
abbrev F.BOOT_STATUS_IMAGE_STATE : Fld := ⟨R.BOOT_STATUS, 8, 1⟩
abbrev F.BOOT_STATUS_TRIAL_BOOTS : Fld := ⟨R.BOOT_STATUS, 9, 3⟩
abbrev F.BOOT_STATUS_GOLDEN : Fld := ⟨R.BOOT_STATUS, 12, 1⟩
abbrev F.BOOT_STATUS_RECOVER : Fld := ⟨R.BOOT_STATUS, 13, 1⟩
abbrev F.BOOT_SEQ : Fld := ⟨R.BOOT_SEQ, 0, 32⟩
abbrev F.BOOT_FAIL (n : Nat) : Fld := ⟨R.BOOT_FAIL n, 0, 4⟩
abbrev F.BOOT_KEYS_PROGRAMMED : Fld := ⟨R.BOOT_KEYS, 0, 4⟩
abbrev F.BOOT_KEYS_REVOKED : Fld := ⟨R.BOOT_KEYS, 4, 4⟩
abbrev F.BOOT_CUSTODY_LOCKED : Fld := ⟨R.BOOT_CUSTODY, 0, 1⟩
abbrev F.BOOT_HOLDUP_THRESH : Fld := ⟨R.BOOT_HOLDUP_THRESH, 0, 7⟩
abbrev F.BOOT_WATCHDOG : Fld := ⟨R.BOOT_WATCHDOG, 0, 16⟩
abbrev F.BOOT_COUNT : Fld := ⟨R.BOOT_COUNT, 0, 32⟩
abbrev F.UPDATE_REFUSED : Fld := ⟨R.UPDATE_REFUSED, 0, 32⟩
abbrev F.BOOT_INT_STATUS_REVERTED_SEEN : Fld := ⟨R.BOOT_INT_STATUS, 0, 1⟩
abbrev F.BOOT_INT_STATUS_FALLBACK_SEEN : Fld := ⟨R.BOOT_INT_STATUS, 1, 1⟩
abbrev F.BOOT_INT_STATUS_GOLDEN_INVALID_SEEN : Fld := ⟨R.BOOT_INT_STATUS, 2, 1⟩
abbrev F.BOOT_INT_STATUS_CONFIG_DEFAULTED_SEEN : Fld := ⟨R.BOOT_INT_STATUS, 3, 1⟩
abbrev F.BOOT_INT_STATUS : Fld := ⟨R.BOOT_INT_STATUS, 0, 4⟩
abbrev F.BOOT_INT_ENABLE : Fld := ⟨R.BOOT_INT_ENABLE, 0, 4⟩
abbrev F.MGMT_CMDS (r : Nat) : Fld := ⟨R.MGMT_CMDS r, 0, 64⟩
abbrev F.MGMT_TIMEOUTS (r : Nat) : Fld := ⟨R.MGMT_TIMEOUTS r, 0, 32⟩
abbrev F.MGMT_WAIT_MAX (r : Nat) : Fld := ⟨R.MGMT_WAIT_MAX r, 0, 32⟩
abbrev F.MGMT_REJECTS : Fld := ⟨R.MGMT_REJECTS, 0, 64⟩
abbrev F.MGMT_SLOT_ROUTE : Fld := ⟨R.MGMT_SLOT, 0, 2⟩
abbrev F.MGMT_SLOT_HELD : Fld := ⟨R.MGMT_SLOT, 2, 1⟩
abbrev F.MGMT_SLOT_OPCODE : Fld := ⟨R.MGMT_SLOT, 16, 16⟩
abbrev F.MGMT_DEFAULT_TIMEOUT : Fld := ⟨R.MGMT_DEFAULT_TIMEOUT, 0, 32⟩
abbrev F.MGMT_RELAYED_OUT : Fld := ⟨R.MGMT_RELAYED_OUT, 0, 64⟩
abbrev F.MGMT_RELAYED_IN : Fld := ⟨R.MGMT_RELAYED_IN, 0, 64⟩
abbrev F.MGMT_LATE_REPLY : Fld := ⟨R.MGMT_LATE_REPLY, 0, 32⟩
abbrev F.MGMT_EVENTS : Fld := ⟨R.MGMT_EVENTS, 0, 64⟩
abbrev F.MGMT_EVENT_DROP : Fld := ⟨R.MGMT_EVENT_DROP, 0, 32⟩
abbrev F.MGMT_MCTP_BUSY : Fld := ⟨R.MGMT_MCTP_BUSY, 0, 32⟩
abbrev F.MGMT_REPLY_LOST : Fld := ⟨R.MGMT_REPLY_LOST, 0, 32⟩
abbrev F.MGMT_BULK_FREE : Fld := ⟨R.MGMT_BULK_FREE, 0, 30⟩
abbrev F.MGMT_EVENT_CFG_RING : Fld := ⟨R.MGMT_EVENT_CFG, 0, 12⟩
abbrev F.MGMT_EVENT_CFG_ENABLE : Fld := ⟨R.MGMT_EVENT_CFG, 12, 1⟩
abbrev F.MGMT_EVENT_CFG_FED_SINK : Fld := ⟨R.MGMT_EVENT_CFG, 13, 1⟩
abbrev F.MGMT_INT_STATUS_TIMEOUT_SEEN : Fld := ⟨R.MGMT_INT_STATUS, 0, 1⟩
abbrev F.MGMT_INT_STATUS_EVENT_DROP_SEEN : Fld := ⟨R.MGMT_INT_STATUS, 1, 1⟩
abbrev F.MGMT_INT_STATUS : Fld := ⟨R.MGMT_INT_STATUS, 0, 2⟩
abbrev F.MGMT_INT_ENABLE : Fld := ⟨R.MGMT_INT_ENABLE, 0, 2⟩
abbrev F.PWR_SI_STATE_STATE (s : Nat) : Fld := ⟨R.PWR_SI_STATE s, 0, 2⟩
abbrev F.PWR_SI_STATE_CEILING (s : Nat) : Fld := ⟨R.PWR_SI_STATE s, 4, 2⟩
abbrev F.PWR_SI_MAX (s : Nat) : Fld := ⟨R.PWR_SI_MAX s, 0, 2⟩
abbrev F.PWR_IDLE_DWELL (s : Nat) : Fld := ⟨R.PWR_IDLE_DWELL s, 0, 16⟩
abbrev F.PWR_SI_ENTRIES (s : Nat) (n : Nat) : Fld := ⟨R.PWR_SI_ENTRIES s n, 0, 64⟩
abbrev F.PWR_SI_TIME (s : Nat) (n : Nat) : Fld := ⟨R.PWR_SI_TIME s n, 0, 64⟩
abbrev F.PWR_SI_ABORTS (s : Nat) : Fld := ⟨R.PWR_SI_ABORTS s, 0, 64⟩
abbrev F.PWR_WAKE_LATE (s : Nat) : Fld := ⟨R.PWR_WAKE_LATE s, 0, 32⟩
abbrev F.PWR_WAKE_DROP (s : Nat) : Fld := ⟨R.PWR_WAKE_DROP s, 0, 64⟩
abbrev F.PWR_CAP : Fld := ⟨R.PWR_CAP, 0, 10⟩
abbrev F.BOOST_CTRL_BOOST_EN : Fld := ⟨R.BOOST_CTRL, 0, 1⟩
abbrev F.BOOST_CTRL_BOOST_MARGIN : Fld := ⟨R.BOOST_CTRL, 8, 8⟩
abbrev F.PWR_TEMP_WARN : Fld := ⟨R.PWR_TEMP_WARN, 0, 7⟩
abbrev F.CORE_FREQ : Fld := ⟨R.CORE_FREQ, 0, 12⟩
abbrev F.PWR_NOW : Fld := ⟨R.PWR_NOW, 0, 20⟩
abbrev F.PWR_AVG : Fld := ⟨R.PWR_AVG, 0, 20⟩
abbrev F.PWR_PEAK : Fld := ⟨R.PWR_PEAK, 0, 20⟩
abbrev F.TEMP_MAX : Fld := ⟨R.TEMP_MAX, 0, 16⟩
abbrev F.PWR_BOOST_TIME : Fld := ⟨R.PWR_BOOST_TIME, 0, 64⟩
abbrev F.PWR_THROTTLE_TIME : Fld := ⟨R.PWR_THROTTLE_TIME, 0, 64⟩
abbrev F.PWR_ASPM_IDLE : Fld := ⟨R.PWR_ASPM_IDLE, 0, 16⟩
abbrev F.PWR_LTR_ACTIVE : Fld := ⟨R.PWR_LTR_ACTIVE, 0, 16⟩
abbrev F.PWR_LTR_IDLE : Fld := ⟨R.PWR_LTR_IDLE, 0, 16⟩
abbrev F.PWR_INT_STATUS_CAP_SEEN : Fld := ⟨R.PWR_INT_STATUS, 0, 1⟩
abbrev F.PWR_INT_STATUS_CAP_UNREACHED_SEEN : Fld := ⟨R.PWR_INT_STATUS, 1, 1⟩
abbrev F.PWR_INT_STATUS_THERMAL_SEEN : Fld := ⟨R.PWR_INT_STATUS, 2, 1⟩
abbrev F.PWR_INT_STATUS_TEMP_WARN_SEEN : Fld := ⟨R.PWR_INT_STATUS, 3, 1⟩
abbrev F.PWR_INT_STATUS : Fld := ⟨R.PWR_INT_STATUS, 0, 4⟩
abbrev F.PWR_INT_ENABLE : Fld := ⟨R.PWR_INT_ENABLE, 0, 4⟩
abbrev F.PWR_DOMAIN (x : Nat) : Fld := ⟨R.PWR_DOMAIN x, 0, 20⟩
abbrev F.TEMP (j : Nat) : Fld := ⟨R.TEMP j, 0, 16⟩
abbrev F.CORE_CYCLE (s : Nat) (k : Nat) (c : Nat) : Fld := ⟨R.CORE_CYCLE s k c, 0, 64⟩
abbrev F.THREAD_INSTRET (s : Nat) (k : Nat) (i : Nat) : Fld := ⟨R.THREAD_INSTRET s k i, 0, 64⟩
abbrev F.CORE_HPM (s : Nat) (k : Nat) (m : Nat) : Fld := ⟨R.CORE_HPM s k m, 0, 64⟩
abbrev F.CORE_HPM_EVT (s : Nat) (k : Nat) (m : Nat) : Fld := ⟨R.CORE_HPM_EVT s k m, 0, 64⟩
abbrev F.CORE_INHIBIT (s : Nat) (k : Nat) (c : Nat) : Fld := ⟨R.CORE_INHIBIT s k c, 0, 9⟩
abbrev F.CORE_OVF (s : Nat) (k : Nat) : Fld := ⟨R.CORE_OVF s k, 0, 48⟩
abbrev F.CLUSTER_FREEZE_FROZEN (s : Nat) (k : Nat) : Fld := ⟨R.CLUSTER_FREEZE s k, 0, 1⟩
abbrev F.CTR_UREAD_VENDOR (s : Nat) (k : Nat) : Fld := ⟨R.CTR_UREAD s k, 0, 9⟩
abbrev F.CTR_UREAD_CUSTOMER (s : Nat) (k : Nat) : Fld := ⟨R.CTR_UREAD s k, 16, 9⟩
abbrev F.UNC_CYCLE (s : Nat) : Fld := ⟨R.UNC_CYCLE s, 0, 64⟩
abbrev F.UNC_FREEZE_FROZEN (s : Nat) : Fld := ⟨R.UNC_FREEZE s, 0, 1⟩
abbrev F.UNC_OVF (s : Nat) : Fld := ⟨R.UNC_OVF s, 0, 8⟩
abbrev F.PMU_INT_STATUS_OVF_SEEN (s : Nat) : Fld := ⟨R.PMU_INT_STATUS s, 0, 1⟩
abbrev F.PMU_INT_ENABLE (s : Nat) : Fld := ⟨R.PMU_INT_ENABLE s, 0, 1⟩
abbrev F.UNC_CTR (s : Nat) (n : Nat) : Fld := ⟨R.UNC_CTR s n, 0, 64⟩
abbrev F.UNC_EVT (s : Nat) (n : Nat) : Fld := ⟨R.UNC_EVT s n, 0, 64⟩
abbrev F.UNC_ADDR_BASE (s : Nat) (n : Nat) : Fld := ⟨R.UNC_ADDR_BASE s n, 6, 58⟩
abbrev F.UNC_ADDR_LIMIT (s : Nat) (n : Nat) : Fld := ⟨R.UNC_ADDR_LIMIT s n, 6, 58⟩
abbrev F.PMU_FREEZE_FREEZE : Fld := ⟨R.PMU_FREEZE, 0, 1⟩
abbrev F.PMU_FREEZE_ON_UNC_OVF : Fld := ⟨R.PMU_FREEZE, 1, 1⟩
abbrev F.PMU_FREEZE_GO : Fld := ⟨R.PMU_FREEZE, 8, 1⟩
abbrev F.PMU_FREEZE_AT : Fld := ⟨R.PMU_FREEZE_AT, 0, 64⟩
abbrev F.STRAP_STATUS_THREADS_SEL : Fld := ⟨R.STRAP_STATUS, 0, 1⟩
abbrev F.STRAP_STATUS_HA_BIFURCATE : Fld := ⟨R.STRAP_STATUS, 1, 1⟩
abbrev F.STRAP_STATUS_HB_BIFURCATE : Fld := ⟨R.STRAP_STATUS, 2, 1⟩
abbrev F.STRAP_STATUS_GOLDEN_N : Fld := ⟨R.STRAP_STATUS, 3, 1⟩
abbrev F.STRAP_STATUS_RECOVER_N : Fld := ⟨R.STRAP_STATUS, 4, 1⟩
abbrev F.STRAP_STATUS_SMB_ADDR_SEL : Fld := ⟨R.STRAP_STATUS, 5, 2⟩
abbrev F.GPIO_DIR : Fld := ⟨R.GPIO_DIR, 0, 8⟩
abbrev F.GPIO_OUT : Fld := ⟨R.GPIO_OUT, 0, 8⟩
abbrev F.GPIO_IN : Fld := ⟨R.GPIO_IN, 0, 8⟩
abbrev F.PIN_STATUS_DEV_READY : Fld := ⟨R.PIN_STATUS, 0, 1⟩
abbrev F.PIN_STATUS_PWRFAIL : Fld := ⟨R.PIN_STATUS, 1, 1⟩
abbrev F.PIN_STATUS_AVS_FAIL : Fld := ⟨R.PIN_STATUS, 2, 1⟩
abbrev F.VDD_CPU_TARGET : Fld := ⟨R.VDD_CPU_TARGET, 0, 10⟩
abbrev F.ARB_HUB_INT_STATUS_LATE_SEEN : Fld := ⟨R.ARB_HUB_INT_STATUS, 0, 1⟩
abbrev F.ARB_HUB_INT_STATUS_CAPPED_SEEN : Fld := ⟨R.ARB_HUB_INT_STATUS, 1, 1⟩
abbrev F.ARB_HUB_INT_ENABLE : Fld := ⟨R.ARB_HUB_INT_ENABLE, 0, 2⟩
abbrev F.ARB_HUB_GRANTS (d : Nat) : Fld := ⟨R.ARB_HUB_GRANTS d, 0, 64⟩
abbrev F.ARB_HUB_LOSSES (d : Nat) : Fld := ⟨R.ARB_HUB_LOSSES d, 0, 64⟩
abbrev F.ARB_HUB_BACKOFF (d : Nat) : Fld := ⟨R.ARB_HUB_BACKOFF d, 0, 64⟩
abbrev F.ARB_HUB_CAPPED (d : Nat) : Fld := ⟨R.ARB_HUB_CAPPED d, 0, 64⟩
abbrev F.ARB_HUB_LATE (d : Nat) : Fld := ⟨R.ARB_HUB_LATE d, 0, 64⟩
abbrev F.ARB_HUB_WAIT_MAX (d : Nat) : Fld := ⟨R.ARB_HUB_WAIT_MAX d, 0, 32⟩
abbrev F.ARB_HUB_CLASS_GRANTS (n : Nat) : Fld := ⟨R.ARB_HUB_CLASS_GRANTS n, 0, 64⟩
abbrev F.ARB_HUB_CLASS_LATE (n : Nat) : Fld := ⟨R.ARB_HUB_CLASS_LATE n, 0, 64⟩
abbrev F.ARB_HUB_CLASS_WAIT_MAX (n : Nat) : Fld := ⟨R.ARB_HUB_CLASS_WAIT_MAX n, 0, 32⟩
abbrev F.ARB_HUB_ARBS (d : Nat) : Fld := ⟨R.ARB_HUB_ARBS d, 0, 64⟩

/-- Rows of the register maps, part 0. -/
def regRows0 : List RegRow := [
  ⟨"SLICE_ID", 0x4000000, [], 8, [⟨0, 2, .ro⟩], 0x0, .managerKeeper⟩,
  ⟨"SLICE_ID", 0x5000000, [], 8, [⟨0, 2, .ro⟩], 0x1, .managerKeeper⟩,
  ⟨"SLICE_ID", 0x6000000, [], 8, [⟨0, 2, .ro⟩], 0x2, .managerKeeper⟩,
  ⟨"SLICE_ID", 0x7000000, [], 8, [⟨0, 2, .ro⟩], 0x3, .managerKeeper⟩,
  ⟨"SLICE_CAPS", 0x4000008, [(0x1000000, 4)], 8, [⟨0, 3, .ro⟩, ⟨8, 8, .ro⟩, ⟨16, 8, .ro⟩, ⟨24, 8, .ro⟩, ⟨32, 16, .ro⟩], 0x18080a2004, .managerKeeper⟩,
  ⟨"TAG_INUSE", 0x4000010, [(0x1000000, 4)], 8, [⟨0, 15, .ro⟩], 0x0, .managerKeeper⟩,
  ⟨"TAG_WAIT", 0x4000018, [(0x1000000, 4)], 8, [⟨0, 64, .ro⟩], 0x0, .managerKeeper⟩,
  ⟨"TAG_PEAK", 0x4000020, [(0x1000000, 4)], 8, [⟨0, 15, .rc⟩], 0x0, .managerKeeper⟩,
  ⟨"SPINE_OUT", 0x4000040, [(0x1000000, 4)], 8, [⟨0, 64, .ro⟩], 0x0, .managerKeeper⟩,
  ⟨"SPINE_IN", 0x4000048, [(0x1000000, 4)], 8, [⟨0, 64, .ro⟩], 0x0, .managerKeeper⟩,
  ⟨"SRAM_CE", 0x4000080, [(0x1000000, 4)], 8, [⟨0, 32, .ro⟩], 0x0, .managerKeeper⟩,
  ⟨"SRAM_UE", 0x4000088, [(0x1000000, 4)], 8, [⟨0, 32, .ro⟩], 0x0, .managerKeeper⟩,
  ⟨"SRAM_ERR_ADDR", 0x4000090, [(0x1000000, 4)], 8, [⟨0, 28, .ro⟩], 0x0, .managerKeeper⟩,
  ⟨"HBM_CE", 0x40000a0, [(0x1000000, 4)], 8, [⟨0, 32, .ro⟩], 0x0, .managerKeeper⟩,
  ⟨"HBM_UE", 0x40000a8, [(0x1000000, 4)], 8, [⟨0, 32, .ro⟩], 0x0, .managerKeeper⟩,
  ⟨"HBM_ERR_ADDR", 0x40000b0, [(0x1000000, 4)], 8, [⟨0, 37, .ro⟩], 0x0, .managerKeeper⟩,
  ⟨"HBM_SCRUB_PASS", 0x40000b8, [(0x1000000, 4)], 8, [⟨0, 32, .ro⟩], 0x0, .managerKeeper⟩,
  ⟨"ORG_INT_STATUS", 0x40000c0, [(0x1000000, 4)], 8, [⟨0, 1, .rw1c⟩, ⟨1, 1, .rw1c⟩, ⟨2, 1, .rw1c⟩], 0x0, .managerKeeper⟩,
  ⟨"ORG_INT_ENABLE", 0x40000c8, [(0x1000000, 4)], 8, [⟨0, 3, .rw⟩], 0x3, .managerKeeper⟩,
  ⟨"ETH_PORT_MODE", 0x40000d0, [(0x1000000, 4)], 8, [⟨0, 2, .ro⟩], 0x0, .managerKeeper⟩,
  ⟨"ETH_LINK_STATUS", 0x40000d8, [(0x1000000, 4)], 8, [⟨0, 8, .ro⟩], 0x0, .managerKeeper⟩,
  ⟨"ETH_LINK_DOWN", 0x4000100, [(0x1000000, 4), (0x8, 8)], 8, [⟨0, 32, .ro⟩], 0x0, .managerKeeper⟩,
  ⟨"PB_STATUS", 0x4010000, [(0x1000000, 4)], 8, [⟨0, 1, .ro⟩, ⟨1, 15, .rsv⟩, ⟨16, 16, .ro⟩], 0x0, .managerKeeper⟩,
  ⟨"PB_COMMIT", 0x4010008, [(0x1000000, 4)], 8, [⟨0, 1, .wo⟩], 0x0, .managerKeeper⟩]

/-- Rows of the register maps, part 1. -/
def regRows1 : List RegRow := [
  ⟨"PB_SHARED_FREE", 0x4010010, [(0x1000000, 4)], 8, [⟨0, 17, .ro⟩], 0xe000, .managerKeeper⟩,
  ⟨"PB_SHARED_SIZE", 0x4010018, [(0x1000000, 4)], 8, [⟨0, 17, .ro⟩], 0xe000, .managerKeeper⟩,
  ⟨"PB_CLASS_MIN", 0x4010100, [(0x1000000, 4)], 8, [⟨0, 17, .rw⟩], 0x4000, .managerKeeper⟩,
  ⟨"PB_CLASS_MIN", 0x4010108, [(0x1000000, 4)], 8, [⟨0, 17, .rw⟩], 0x3000, .managerKeeper⟩,
  ⟨"PB_CLASS_MIN", 0x4010110, [(0x1000000, 4)], 8, [⟨0, 17, .rw⟩], 0x2000, .managerKeeper⟩,
  ⟨"PB_CLASS_MIN", 0x4010118, [(0x1000000, 4)], 8, [⟨0, 17, .rw⟩], 0x1000, .managerKeeper⟩,
  ⟨"PB_CLASS_MAX", 0x4010120, [(0x1000000, 4), (0x8, 4)], 8, [⟨0, 17, .rw⟩], 0x18000, .managerKeeper⟩,
  ⟨"PB_CLASS_USE", 0x4010140, [(0x1000000, 4), (0x8, 4)], 8, [⟨0, 17, .ro⟩], 0x0, .managerKeeper⟩,
  ⟨"PB_CLASS_PEAK", 0x4010160, [(0x1000000, 4), (0x8, 4)], 8, [⟨0, 17, .rc⟩], 0x0, .managerKeeper⟩,
  ⟨"PB_ADMIT", 0x4010200, [(0x1000000, 4), (0x8, 4)], 8, [⟨0, 64, .ro⟩], 0x0, .managerKeeper⟩,
  ⟨"PB_DROP", 0x4010220, [(0x1000000, 4), (0x8, 4)], 8, [⟨0, 64, .ro⟩], 0x0, .managerKeeper⟩,
  ⟨"PB_WAIT", 0x4010240, [(0x1000000, 4), (0x8, 4)], 8, [⟨0, 64, .ro⟩], 0x0, .managerKeeper⟩,
  ⟨"PB_SHARED_LOSS", 0x4010260, [(0x1000000, 4)], 8, [⟨0, 64, .ro⟩], 0x0, .managerKeeper⟩,
  ⟨"TW_ENTRIES", 0x4020000, [(0x1000000, 4)], 8, [⟨0, 17, .ro⟩], 0x0, .managerKeeper⟩,
  ⟨"EVENT_HORIZON", 0x4020008, [(0x1000000, 4)], 8, [⟨0, 64, .ro⟩], 0xffffffffffffffff, .managerKeeper⟩,
  ⟨"TW_LEAD", 0x4020010, [(0x1000000, 4)], 8, [⟨0, 16, .rw⟩], 0x400, .managerKeeper⟩,
  ⟨"TW_ARM_TIME", 0x4020018, [(0x1000000, 4)], 8, [⟨0, 64, .rw⟩], 0x0, .sliceHarts⟩,
  ⟨"TW_ARM_CTRL", 0x4020020, [(0x1000000, 4)], 8, [⟨0, 1, .wo⟩, ⟨1, 2, .wo⟩, ⟨8, 6, .wo⟩, ⟨32, 32, .wo⟩], 0x0, .sliceHarts⟩,
  ⟨"TW_ARM_RESULT", 0x4020028, [(0x1000000, 4)], 8, [⟨0, 2, .ro⟩], 0x0, .sliceHarts⟩,
  ⟨"TW_FIRED", 0x4020030, [(0x1000000, 4)], 8, [⟨0, 64, .ro⟩], 0x0, .managerKeeper⟩,
  ⟨"TW_STEP_FIRED", 0x4020038, [(0x1000000, 4)], 8, [⟨0, 64, .ro⟩], 0x0, .managerKeeper⟩,
  ⟨"TW_FULL", 0x4020040, [(0x1000000, 4)], 8, [⟨0, 64, .ro⟩], 0x0, .managerKeeper⟩,
  ⟨"TW_PEAK", 0x4020048, [(0x1000000, 4)], 8, [⟨0, 17, .rc⟩], 0x0, .managerKeeper⟩,
  ⟨"TS_RX_ADJ", 0x4030000, [(0x1000000, 4), (0x8, 8)], 8, [⟨0, 16, .rw⟩], 0x0, .managerKeeper⟩]

/-- Rows of the register maps, part 2. -/
def regRows2 : List RegRow := [
  ⟨"TS_TX_ADJ", 0x4030040, [(0x1000000, 4), (0x8, 8)], 8, [⟨0, 16, .rw⟩], 0x0, .managerKeeper⟩,
  ⟨"TX_LAUNCH_CTRL", 0x4030080, [(0x1000000, 4), (0x8, 8)], 8, [⟨0, 1, .rw⟩, ⟨1, 1, .rw⟩, ⟨2, 1, .rw⟩, ⟨3, 1, .rw⟩], 0x2, .managerKeeper⟩,
  ⟨"LAUNCH_SENT", 0x4030100, [(0x1000000, 4), (0x8, 8)], 8, [⟨0, 64, .ro⟩], 0x0, .managerKeeper⟩,
  ⟨"LAUNCH_LATE", 0x4030140, [(0x1000000, 4), (0x8, 8)], 8, [⟨0, 64, .ro⟩], 0x0, .managerKeeper⟩,
  ⟨"LAUNCH_DROP", 0x4030180, [(0x1000000, 4), (0x8, 8)], 8, [⟨0, 64, .ro⟩], 0x0, .managerKeeper⟩,
  ⟨"LAUNCH_FAR", 0x40301c0, [(0x1000000, 4), (0x8, 8)], 8, [⟨0, 64, .ro⟩], 0x0, .managerKeeper⟩,
  ⟨"ARB_INT_STATUS", 0x4040000, [(0x1000000, 4)], 8, [⟨0, 1, .rw1c⟩, ⟨1, 1, .rw1c⟩], 0x0, .managerKeeper⟩,
  ⟨"ARB_INT_ENABLE", 0x4040008, [(0x1000000, 4)], 8, [⟨0, 2, .rw⟩], 0x0, .managerKeeper⟩,
  ⟨"ARB_GRANTS", 0x4040100, [(0x1000000, 4), (0x8, 28)], 8, [⟨0, 64, .ro⟩], 0x0, .managerKeeper⟩,
  ⟨"ARB_LOSSES", 0x4040200, [(0x1000000, 4), (0x8, 28)], 8, [⟨0, 64, .ro⟩], 0x0, .managerKeeper⟩,
  ⟨"ARB_BACKOFF", 0x4040300, [(0x1000000, 4), (0x8, 28)], 8, [⟨0, 64, .ro⟩], 0x0, .managerKeeper⟩,
  ⟨"ARB_CAPPED", 0x4040400, [(0x1000000, 4), (0x8, 28)], 8, [⟨0, 64, .ro⟩], 0x0, .managerKeeper⟩,
  ⟨"ARB_LATE", 0x4040500, [(0x1000000, 4), (0x8, 28)], 8, [⟨0, 64, .ro⟩], 0x0, .managerKeeper⟩,
  ⟨"ARB_WAIT_MAX", 0x4040600, [(0x1000000, 4), (0x8, 28)], 8, [⟨0, 32, .rc⟩], 0x0, .managerKeeper⟩,
  ⟨"ARB_CLASS_GRANTS", 0x4040700, [(0x1000000, 4), (0x8, 16)], 8, [⟨0, 64, .ro⟩], 0x0, .managerKeeper⟩,
  ⟨"ARB_CLASS_LATE", 0x4040780, [(0x1000000, 4), (0x8, 16)], 8, [⟨0, 64, .ro⟩], 0x0, .managerKeeper⟩,
  ⟨"ARB_CLASS_WAIT_MAX", 0x4040800, [(0x1000000, 4), (0x8, 16)], 8, [⟨0, 32, .rc⟩], 0x0, .managerKeeper⟩,
  ⟨"ARB_ARBS", 0x4040900, [(0x1000000, 4), (0x8, 28)], 8, [⟨0, 64, .ro⟩], 0x0, .managerKeeper⟩]

/-- Rows of the register maps, part 3. -/
def regRows3 : List RegRow := [
  ⟨"CLUSTER_STATE", 0x4050000, [(0x1000000, 4), (0x4000, 4)], 8, [⟨0, 2, .ro⟩], 0x0, .cluster⟩,
  ⟨"CURATOR_ENTRY", 0x4050008, [(0x1000000, 4), (0x4000, 4)], 8, [⟨0, 64, .rw⟩], 0x0, .clusterKeeperWrites⟩,
  ⟨"CLUSTER_CTRL", 0x4050010, [(0x1000000, 4), (0x4000, 4)], 8, [⟨0, 1, .wo⟩, ⟨1, 1, .wo⟩], 0x0, .clusterKeeperWrites⟩,
  ⟨"CURATOR_STATUS", 0x4050018, [(0x1000000, 4), (0x4000, 4)], 8, [⟨0, 1, .ro⟩, ⟨1, 1, .ro⟩], 0x0, .cluster⟩,
  ⟨"SPIN_LIMIT", 0x4050020, [(0x1000000, 4), (0x4000, 4)], 8, [⟨0, 32, .rw⟩], 0x100000, .cluster⟩,
  ⟨"SPIN_WINDOW", 0x4050028, [(0x1000000, 4), (0x4000, 4)], 8, [⟨0, 16, .rw⟩], 0x1000, .cluster⟩,
  ⟨"WAITSPIN_PAUSE", 0x4050030, [(0x1000000, 4), (0x4000, 4)], 8, [⟨0, 8, .rw⟩], 0x10, .cluster⟩,
  ⟨"SPIN_COUNT", 0x4050038, [(0x1000000, 4), (0x4000, 4)], 8, [⟨0, 32, .ro⟩], 0x0, .cluster⟩,
  ⟨"DEADLOCK_COUNT", 0x4050040, [(0x1000000, 4), (0x4000, 4)], 8, [⟨0, 32, .ro⟩], 0x0, .cluster⟩,
  ⟨"STALL_EVENTS", 0x4050048, [(0x1000000, 4), (0x4000, 4)], 8, [⟨0, 32, .ro⟩], 0x0, .cluster⟩,
  ⟨"DEADLOCK_EVENTS", 0x4050050, [(0x1000000, 4), (0x4000, 4)], 8, [⟨0, 32, .ro⟩], 0x0, .cluster⟩,
  ⟨"SPINNING", 0x4050058, [(0x1000000, 4), (0x4000, 4)], 8, [⟨0, 32, .ro⟩], 0x0, .cluster⟩,
  ⟨"HALTED", 0x4050060, [(0x1000000, 4), (0x4000, 4)], 8, [⟨0, 32, .ro⟩], 0x0, .cluster⟩,
  ⟨"FAULTED", 0x4050068, [(0x1000000, 4), (0x4000, 4)], 8, [⟨0, 32, .ro⟩], 0x0, .cluster⟩,
  ⟨"FAULT_COUNT", 0x4050080, [(0x1000000, 4), (0x4000, 4)], 8, [⟨0, 7, .ro⟩], 0x0, .cluster⟩,
  ⟨"FAULT_POP", 0x4050088, [(0x1000000, 4), (0x4000, 4)], 8, [⟨0, 1, .wo⟩], 0x0, .cluster⟩,
  ⟨"FAULT_INFO", 0x4050090, [(0x1000000, 4), (0x4000, 4)], 8, [⟨0, 5, .ro⟩, ⟨8, 8, .ro⟩, ⟨16, 1, .ro⟩, ⟨17, 1, .ro⟩], 0x0, .cluster⟩,
  ⟨"FAULT_PC", 0x4050098, [(0x1000000, 4), (0x4000, 4)], 8, [⟨0, 64, .ro⟩], 0x0, .cluster⟩,
  ⟨"FAULT_TVAL", 0x40500a0, [(0x1000000, 4), (0x4000, 4)], 8, [⟨0, 64, .ro⟩], 0x0, .cluster⟩,
  ⟨"FAULT_TIME", 0x40500a8, [(0x1000000, 4), (0x4000, 4)], 8, [⟨0, 64, .ro⟩], 0x0, .cluster⟩,
  ⟨"THREAD_CTRL", 0x4050100, [(0x1000000, 4), (0x4000, 4), (0x8, 32)], 8, [⟨0, 2, .wo⟩, ⟨8, 1, .rw⟩], 0x0, .cluster⟩,
  ⟨"THREAD_PC", 0x4050200, [(0x1000000, 4), (0x4000, 4), (0x8, 32)], 8, [⟨0, 64, .rw⟩], 0x0, .cluster⟩,
  ⟨"THREAD_STATE", 0x4050300, [(0x1000000, 4), (0x4000, 4), (0x8, 32)], 8, [⟨0, 2, .ro⟩, ⟨2, 1, .ro⟩, ⟨3, 1, .ro⟩, ⟨4, 1, .ro⟩, ⟨8, 6, .ro⟩], 0x0, .cluster⟩,
  ⟨"CH_BIND", 0x4050400, [(0x1000000, 4), (0x4000, 4), (0x8, 64)], 8, [⟨0, 5, .rw⟩, ⟨8, 1, .rw⟩, ⟨9, 1, .rw⟩, ⟨10, 1, .rw⟩], 0x700, .cluster⟩,
  ⟨"CH_STATE", 0x4050600, [(0x1000000, 4), (0x4000, 4), (0x8, 64)], 8, [⟨0, 2, .ro⟩, ⟨2, 5, .ro⟩, ⟨7, 1, .ro⟩, ⟨8, 4, .ro⟩], 0x0, .cluster⟩,
  ⟨"CH_ABORT", 0x4050800, [(0x1000000, 4), (0x4000, 4)], 8, [⟨0, 6, .wo⟩, ⟨8, 1, .wo⟩], 0x0, .chAbort⟩,
  ⟨"CH_MSGS", 0x4050808, [(0x1000000, 4), (0x4000, 4)], 8, [⟨0, 64, .ro⟩], 0x0, .cluster⟩,
  ⟨"CH_OPEN_BUSY", 0x4050810, [(0x1000000, 4), (0x4000, 4)], 8, [⟨0, 64, .ro⟩], 0x0, .cluster⟩,
  ⟨"CH_ABORTS", 0x4050818, [(0x1000000, 4), (0x4000, 4)], 8, [⟨0, 32, .ro⟩], 0x0, .cluster⟩,
  ⟨"CH_HW_DEFER", 0x4050820, [(0x1000000, 4), (0x4000, 4)], 8, [⟨0, 64, .ro⟩], 0x0, .cluster⟩,
  ⟨"CH_HW_DROP", 0x4050828, [(0x1000000, 4), (0x4000, 4)], 8, [⟨0, 32, .ro⟩], 0x0, .cluster⟩,
  ⟨"REGION_BASE", 0x4050900, [(0x1000000, 4), (0x4000, 4), (0x8, 16)], 8, [⟨12, 52, .rw⟩], 0x0, .cluster⟩,
  ⟨"REGION_LIMIT", 0x4050980, [(0x1000000, 4), (0x4000, 4), (0x8, 16)], 8, [⟨12, 52, .rw⟩], 0x0, .cluster⟩,
  ⟨"REGION_CFG", 0x4050a00, [(0x1000000, 4), (0x4000, 4), (0x8, 16)], 8, [⟨0, 3, .rw⟩, ⟨4, 3, .rw⟩, ⟨7, 1, .rw⟩, ⟨8, 1, .rw⟩], 0x0, .cluster⟩,
  ⟨"THREAD_GPR", 0x4052000, [(0x1000000, 4), (0x4000, 4), (0x100, 32), (0x8, 32)], 8, [⟨0, 64, .rw⟩], 0x0, .cluster⟩]

/-- Rows of the register maps, part 4. -/
def regRows4 : List RegRow := [
  ⟨"PARSE_BANK", 0x4060000, [(0x1000000, 4)], 8, [⟨0, 1, .ro⟩, ⟨1, 1, .ro⟩, ⟨8, 1, .wo⟩], 0x0, .managerKeeper⟩,
  ⟨"PARSE_STEP_LIMIT", 0x4060008, [(0x1000000, 4)], 8, [⟨0, 8, .rw⟩], 0x60, .managerKeeper⟩,
  ⟨"PARSE_QUEUE_DEPTH", 0x4060010, [(0x1000000, 4)], 8, [⟨0, 11, .ro⟩], 0x0, .managerKeeper⟩,
  ⟨"PARSE_QUEUE_PEAK", 0x4060018, [(0x1000000, 4)], 8, [⟨0, 11, .rc⟩], 0x0, .managerKeeper⟩,
  ⟨"PARSE_QUEUE_DROP", 0x4060020, [(0x1000000, 4)], 8, [⟨0, 64, .ro⟩], 0x0, .managerKeeper⟩,
  ⟨"PARSE_FRAMES", 0x4060028, [(0x1000000, 4)], 8, [⟨0, 64, .ro⟩], 0x0, .managerKeeper⟩,
  ⟨"PARSE_SLOTS", 0x4060030, [(0x1000000, 4)], 8, [⟨0, 64, .ro⟩], 0x0, .managerKeeper⟩,
  ⟨"PARSE_EXC_HANDLE", 0x4060038, [(0x1000000, 4)], 8, [⟨0, 21, .rw⟩, ⟨31, 1, .rw⟩], 0x0, .managerKeeper⟩,
  ⟨"PARSE_EXC_DROP", 0x4060040, [(0x1000000, 4)], 8, [⟨0, 64, .ro⟩], 0x0, .managerKeeper⟩,
  ⟨"PARSE_INT_STATUS", 0x4060048, [(0x1000000, 4)], 8, [⟨0, 2, .rw1c⟩], 0x0, .managerKeeper⟩,
  ⟨"PARSE_INT_ENABLE", 0x4060050, [(0x1000000, 4)], 8, [⟨0, 2, .rw⟩], 0x3, .managerKeeper⟩,
  ⟨"PARSE_FAULT_INFO", 0x4060058, [(0x1000000, 4)], 8, [⟨0, 11, .ro⟩, ⟨16, 4, .ro⟩, ⟨24, 5, .ro⟩, ⟨32, 2, .ro⟩], 0x0, .managerKeeper⟩,
  ⟨"PARSE_PARAM", 0x4060080, [(0x1000000, 4)], 8, [⟨0, 16, .rw⟩], 0x12b5, .keeperWrites⟩,
  ⟨"PARSE_PARAM", 0x4060088, [(0x1000000, 4)], 8, [⟨0, 16, .rw⟩], 0x17c1, .keeperWrites⟩,
  ⟨"PARSE_PARAM", 0x4060090, [(0x1000000, 4)], 8, [⟨0, 16, .rw⟩], 0x4452, .keeperWrites⟩,
  ⟨"PARSE_PARAM", 0x4060098, [(0x1000000, 4)], 8, [⟨0, 16, .rw⟩], 0x13f, .keeperWrites⟩,
  ⟨"PARSE_PARAM", 0x40600a0, [(0x1000000, 4)], 8, [⟨0, 16, .rw⟩], 0x140, .keeperWrites⟩,
  ⟨"PARSE_PARAM", 0x40600a8, [(0x1000000, 4)], 8, [⟨0, 16, .rw⟩], 0x88a8, .keeperWrites⟩,
  ⟨"PARSE_PARAM", 0x40600b0, [(0x1000000, 4)], 8, [⟨0, 16, .rw⟩], 0x8100, .keeperWrites⟩,
  ⟨"PARSE_PARAM", 0x40600b8, [(0x1000000, 4), (0x8, 7)], 8, [⟨0, 16, .rw⟩], 0x0, .keeperWrites⟩,
  ⟨"PARSE_PORT_CFG", 0x4060100, [(0x1000000, 4), (0x8, 8)], 8, [⟨0, 14, .rw⟩, ⟨16, 2, .rw⟩], 0x2600, .managerKeeper⟩,
  ⟨"MAL_ACTION", 0x4060208, [(0x1000000, 4), (0x8, 6)], 8, [⟨0, 2, .rw⟩], 0x0, .managerKeeper⟩,
  ⟨"MAL_ACTION", 0x4060238, [(0x1000000, 4)], 8, [⟨0, 2, .rw⟩], 0x2, .managerKeeper⟩,
  ⟨"MAL_ACTION", 0x4060240, [(0x1000000, 4), (0x8, 2)], 8, [⟨0, 2, .rw⟩], 0x0, .managerKeeper⟩]

/-- Rows of the register maps, part 5. -/
def regRows5 : List RegRow := [
  ⟨"MAL_ACTION", 0x4060250, [(0x1000000, 4)], 8, [⟨0, 2, .rw⟩], 0x1, .managerKeeper⟩,
  ⟨"MAL_ACTION", 0x4060258, [(0x1000000, 4), (0x8, 2)], 8, [⟨0, 2, .rw⟩], 0x2, .managerKeeper⟩,
  ⟨"MAL_COUNT", 0x4060288, [(0x1000000, 4), (0x8, 12)], 8, [⟨0, 64, .ro⟩], 0x0, .managerKeeper⟩,
  ⟨"PARSE_PROG", 0x4068000, [(0x1000000, 4), (0x4, 2048)], 4, [⟨0, 32, .rw⟩], 0x0, .keeperWrites⟩,
  ⟨"CAT_LOOKUPS", 0x4070000, [(0x1000000, 4)], 8, [⟨0, 64, .ro⟩], 0x0, .managerKeeper⟩,
  ⟨"CAT_INVALID_DROP", 0x4070008, [(0x1000000, 4)], 8, [⟨0, 64, .ro⟩], 0x0, .managerKeeper⟩,
  ⟨"CAT_FAULT_DROP", 0x4070010, [(0x1000000, 4)], 8, [⟨0, 64, .ro⟩], 0x0, .managerKeeper⟩,
  ⟨"CAT_FED_LOOP", 0x4070018, [(0x1000000, 4)], 8, [⟨0, 64, .ro⟩], 0x0, .managerKeeper⟩,
  ⟨"CAT_COMMITS", 0x4070020, [(0x1000000, 4)], 8, [⟨0, 64, .ro⟩], 0x0, .managerKeeper⟩,
  ⟨"CAT_STATE_STALE", 0x4070028, [(0x1000000, 4)], 8, [⟨0, 64, .ro⟩], 0x0, .managerKeeper⟩,
  ⟨"FLOOD_COPIES", 0x4070030, [(0x1000000, 4)], 8, [⟨0, 64, .ro⟩], 0x0, .managerKeeper⟩,
  ⟨"DELIVERED", 0x4070038, [(0x1000000, 4)], 8, [⟨0, 64, .ro⟩], 0x0, .managerKeeper⟩,
  ⟨"DELIVER_NO_TOKEN", 0x4070040, [(0x1000000, 4)], 8, [⟨0, 64, .ro⟩], 0x0, .managerKeeper⟩,
  ⟨"DELIVER_INUSE", 0x4070048, [(0x1000000, 4)], 8, [⟨0, 11, .ro⟩], 0x0, .managerKeeper⟩,
  ⟨"DELIVER_BAD", 0x4070050, [(0x1000000, 4)], 8, [⟨0, 32, .ro⟩], 0x0, .managerKeeper⟩,
  ⟨"CAT_INT_STATUS", 0x4070058, [(0x1000000, 4)], 8, [⟨0, 3, .rw1c⟩], 0x0, .managerKeeper⟩,
  ⟨"CAT_INT_ENABLE", 0x4070060, [(0x1000000, 4)], 8, [⟨0, 3, .rw⟩], 0x3, .managerKeeper⟩,
  ⟨"DELIVER_CTRL", 0x4070080, [(0x1000000, 4)], 8, [⟨0, 10, .wo⟩, ⟨10, 2, .wo⟩, ⟨14, 14, .wo⟩, ⟨32, 21, .wo⟩], 0x0, .deliver⟩,
  ⟨"CAT_STAGE", 0x4071000, [(0x1000000, 4), (0x40, 6), (0x8, 8)], 8, [⟨0, 64, .rw⟩], 0x0, .slotOwner⟩,
  ⟨"CAT_COMMIT", 0x4071200, [(0x1000000, 4), (0x8, 6)], 8, [⟨0, 19, .wo⟩, ⟨20, 1, .wo⟩, ⟨24, 1, .wo⟩, ⟨25, 1, .wo⟩], 0x0, .slotOwner⟩,
  ⟨"CAT_READ", 0x4071300, [(0x1000000, 4), (0x8, 6)], 8, [⟨0, 19, .wo⟩, ⟨20, 1, .wo⟩, ⟨21, 1, .wo⟩], 0x0, .slotOwner⟩,
  ⟨"CAT_SNAP", 0x4071400, [(0x1000000, 4), (0x40, 6), (0x8, 8)], 8, [⟨0, 64, .ro⟩], 0x0, .slotOwner⟩,
  ⟨"FLOOD_PORTS", 0x4078000, [(0x1000000, 4), (0x8, 4096)], 8, [⟨0, 32, .rw⟩], 0x0, .managerKeeper⟩,
  ⟨"ADDR_AGE_TIME", 0x4080000, [(0x1000000, 4)], 8, [⟨0, 32, .rw⟩], 0x12c, .managerKeeper⟩]

/-- Rows of the register maps, part 6. -/
def regRows6 : List RegRow := [
  ⟨"ADDR_ENTRIES", 0x4080008, [(0x1000000, 4)], 8, [⟨0, 19, .ro⟩], 0x0, .managerKeeper⟩,
  ⟨"ADDR_LOOKUPS", 0x4080010, [(0x1000000, 4)], 8, [⟨0, 64, .ro⟩], 0x0, .managerKeeper⟩,
  ⟨"ADDR_HITS", 0x4080018, [(0x1000000, 4)], 8, [⟨0, 64, .ro⟩], 0x0, .managerKeeper⟩,
  ⟨"ADDR_LEARNED", 0x4080020, [(0x1000000, 4)], 8, [⟨0, 64, .ro⟩], 0x0, .managerKeeper⟩,
  ⟨"ADDR_MOVES", 0x4080028, [(0x1000000, 4)], 8, [⟨0, 64, .ro⟩], 0x0, .managerKeeper⟩,
  ⟨"ADDR_AGED", 0x4080030, [(0x1000000, 4)], 8, [⟨0, 64, .ro⟩], 0x0, .managerKeeper⟩,
  ⟨"ADDR_COLLIDE", 0x4080038, [(0x1000000, 4)], 8, [⟨0, 64, .ro⟩], 0x0, .managerKeeper⟩,
  ⟨"ADDR_LEARN_QDROP", 0x4080040, [(0x1000000, 4)], 8, [⟨0, 64, .ro⟩], 0x0, .managerKeeper⟩,
  ⟨"ADDR_STATIC_HIT", 0x4080048, [(0x1000000, 4)], 8, [⟨0, 64, .ro⟩], 0x0, .managerKeeper⟩,
  ⟨"ADDR_SAME_PORT_DROP", 0x4080050, [(0x1000000, 4)], 8, [⟨0, 64, .ro⟩], 0x0, .managerKeeper⟩,
  ⟨"ADDR_POISON", 0x4080058, [(0x1000000, 4)], 8, [⟨0, 32, .ro⟩], 0x0, .managerKeeper⟩,
  ⟨"ADDR_PREFETCH_MISS", 0x4080060, [(0x1000000, 4)], 8, [⟨0, 64, .ro⟩], 0x0, .managerKeeper⟩,
  ⟨"PROV_TX", 0x4080068, [(0x1000000, 4)], 8, [⟨0, 64, .ro⟩], 0x0, .managerKeeper⟩,
  ⟨"PROV_RX", 0x4080070, [(0x1000000, 4)], 8, [⟨0, 64, .ro⟩], 0x0, .managerKeeper⟩,
  ⟨"PROV_STALE", 0x4080078, [(0x1000000, 4)], 8, [⟨0, 64, .ro⟩], 0x0, .managerKeeper⟩,
  ⟨"PROV_TX_DROP", 0x4080080, [(0x1000000, 4)], 8, [⟨0, 64, .ro⟩], 0x0, .managerKeeper⟩,
  ⟨"PROV_RX_DROP", 0x4080088, [(0x1000000, 4)], 8, [⟨0, 64, .ro⟩], 0x0, .managerKeeper⟩,
  ⟨"PROV_IGNORED", 0x4080090, [(0x1000000, 4)], 8, [⟨0, 64, .ro⟩], 0x0, .managerKeeper⟩,
  ⟨"PROV_BAD", 0x4080098, [(0x1000000, 4)], 8, [⟨0, 32, .ro⟩], 0x0, .managerKeeper⟩,
  ⟨"ADDR_INT_STATUS", 0x40800a0, [(0x1000000, 4)], 8, [⟨0, 3, .rw1c⟩], 0x0, .managerKeeper⟩,
  ⟨"ADDR_INT_ENABLE", 0x40800a8, [(0x1000000, 4)], 8, [⟨0, 3, .rw⟩], 0x6, .managerKeeper⟩,
  ⟨"PROV_CTRL", 0x40800b0, [(0x1000000, 4)], 8, [⟨0, 1, .rw⟩, ⟨1, 1, .rw⟩], 0x1, .managerKeeper⟩,
  ⟨"PORT_LEARN_LIMIT", 0x4080100, [(0x1000000, 4), (0x8, 8)], 8, [⟨0, 19, .rw⟩], 0x1000, .managerKeeper⟩,
  ⟨"PORT_LEARN_COUNT", 0x4080140, [(0x1000000, 4), (0x8, 8)], 8, [⟨0, 19, .ro⟩], 0x0, .managerKeeper⟩]

/-- Rows of the register maps, part 7. -/
def regRows7 : List RegRow := [
  ⟨"PORT_L2_CFG", 0x4080180, [(0x1000000, 4), (0x8, 8)], 8, [⟨0, 16, .rw⟩, ⟨16, 1, .rw⟩, ⟨17, 1, .rw⟩, ⟨18, 1, .rw⟩, ⟨32, 21, .rw⟩], 0x10000, .managerKeeper⟩,
  ⟨"ADDR_OVER_LIMIT", 0x40801c0, [(0x1000000, 4), (0x8, 8)], 8, [⟨0, 64, .ro⟩], 0x0, .managerKeeper⟩,
  ⟨"ADDR_STAGE", 0x4080200, [(0x1000000, 4), (0x20, 2), (0x8, 4)], 8, [⟨0, 64, .rw⟩], 0x0, .addrSlotOwner⟩,
  ⟨"ADDR_CMD", 0x4080240, [(0x1000000, 4), (0x8, 2)], 8, [⟨0, 3, .wo⟩], 0x0, .addrSlotOwner⟩,
  ⟨"ADDR_RESULT", 0x4080250, [(0x1000000, 4), (0x8, 2)], 8, [⟨0, 2, .ro⟩], 0x0, .addrSlotOwner⟩,
  ⟨"CIPHER_PAIR_STATE", 0x4090000, [(0x1000000, 4)], 8, [⟨0, 20, .ro⟩], 0x55555, .managerKeeper⟩,
  ⟨"CIPHER_JOBS", 0x4090008, [(0x1000000, 4)], 8, [⟨0, 64, .ro⟩], 0x0, .managerKeeper⟩,
  ⟨"CIPHER_BYTES", 0x4090010, [(0x1000000, 4)], 8, [⟨0, 64, .ro⟩], 0x0, .managerKeeper⟩,
  ⟨"CIPHER_DISPATCH_WAIT", 0x4090018, [(0x1000000, 4)], 8, [⟨0, 64, .ro⟩], 0x0, .managerKeeper⟩,
  ⟨"KC_HITS", 0x4090020, [(0x1000000, 4)], 8, [⟨0, 64, .ro⟩], 0x0, .managerKeeper⟩,
  ⟨"KC_MISSES", 0x4090028, [(0x1000000, 4)], 8, [⟨0, 64, .ro⟩], 0x0, .managerKeeper⟩,
  ⟨"KC_EVICT", 0x4090030, [(0x1000000, 4)], 8, [⟨0, 64, .ro⟩], 0x0, .managerKeeper⟩,
  ⟨"KC_ENTRIES", 0x4090038, [(0x1000000, 4)], 8, [⟨0, 14, .ro⟩], 0x0, .managerKeeper⟩,
  ⟨"KDF_DERIVES", 0x4090040, [(0x1000000, 4)], 8, [⟨0, 64, .ro⟩], 0x0, .managerKeeper⟩,
  ⟨"CIPHER_AUTH_FAIL", 0x4090048, [(0x1000000, 4)], 8, [⟨0, 64, .ro⟩], 0x0, .managerKeeper⟩,
  ⟨"CIPHER_REPLAY", 0x4090050, [(0x1000000, 4)], 8, [⟨0, 64, .ro⟩], 0x0, .managerKeeper⟩,
  ⟨"CIPHER_SEQ_EXHAUSTED", 0x4090058, [(0x1000000, 4)], 8, [⟨0, 64, .ro⟩], 0x0, .managerKeeper⟩,
  ⟨"CIPHER_TLS_PASSTHRU", 0x4090060, [(0x1000000, 4)], 8, [⟨0, 64, .ro⟩], 0x0, .managerKeeper⟩,
  ⟨"CIPHER_XFORM_INVALID", 0x4090068, [(0x1000000, 4)], 8, [⟨0, 64, .ro⟩], 0x0, .managerKeeper⟩,
  ⟨"CIPHER_ALARMS", 0x4090070, [(0x1000000, 4)], 8, [⟨0, 32, .ro⟩], 0x0, .managerKeeper⟩,
  ⟨"CIPHER_SLICE_ALARMS", 0x4090078, [(0x1000000, 4)], 8, [⟨0, 32, .ro⟩], 0x0, .managerKeeper⟩,
  ⟨"CIPHER_ALARM_INFO", 0x4090080, [(0x1000000, 4)], 8, [⟨0, 4, .ro⟩, ⟨8, 4, .ro⟩, ⟨16, 48, .ro⟩], 0x0, .managerKeeper⟩,
  ⟨"CIPHER_INT_STATUS", 0x4090088, [(0x1000000, 4)], 8, [⟨0, 3, .rw1c⟩], 0x0, .managerKeeper⟩,
  ⟨"CIPHER_INT_ENABLE", 0x4090090, [(0x1000000, 4)], 8, [⟨0, 3, .rw⟩], 0x7, .managerKeeper⟩]

/-- Rows of the register maps, part 8. -/
def regRows8 : List RegRow := [
  ⟨"CIPHER_SELFTEST", 0x4090098, [(0x1000000, 4)], 8, [⟨0, 10, .wo⟩], 0x0, .keeperWrites⟩,
  ⟨"BKT_BINDS", 0x40900a0, [(0x1000000, 4)], 8, [⟨0, 64, .ro⟩], 0x0, .managerKeeper⟩,
  ⟨"BKT_UNBINDS", 0x40900a8, [(0x1000000, 4)], 8, [⟨0, 64, .ro⟩], 0x0, .managerKeeper⟩,
  ⟨"INFLIGHT_PEAK", 0x40900b0, [(0x1000000, 4)], 8, [⟨0, 9, .rc⟩], 0x0, .managerKeeper⟩,
  ⟨"PAIR_JOBS", 0x4090100, [(0x1000000, 4), (0x8, 10)], 8, [⟨0, 64, .ro⟩], 0x0, .managerKeeper⟩,
  ⟨"PAIR_ALARMS", 0x4090180, [(0x1000000, 4), (0x8, 10)], 8, [⟨0, 8, .ro⟩], 0x0, .managerKeeper⟩,
  ⟨"KRA_QP_CMD", 0x40a0000, [(0x1000000, 4)], 8, [⟨0, 20, .wo⟩, ⟨20, 4, .wo⟩], 0x0, .managerKeeper⟩,
  ⟨"KRA_QP_RESULT", 0x40a0008, [(0x1000000, 4)], 8, [⟨0, 3, .ro⟩], 0x1, .managerKeeper⟩,
  ⟨"KRA_INT_STATUS", 0x40a0010, [(0x1000000, 4)], 8, [⟨0, 4, .rw1c⟩], 0x0, .managerKeeper⟩,
  ⟨"KRA_INT_ENABLE", 0x40a0018, [(0x1000000, 4)], 8, [⟨0, 4, .rw⟩], 0xa, .managerKeeper⟩,
  ⟨"KRA_MR_ACTIVE", 0x40a0020, [(0x1000000, 4)], 8, [⟨0, 19, .ro⟩], 0x0, .managerKeeper⟩,
  ⟨"KRA_MISS_DEPTH", 0x40a0028, [(0x1000000, 4)], 8, [⟨0, 10, .ro⟩], 0x0, .managerKeeper⟩,
  ⟨"KRA_MISS_PEAK", 0x40a0030, [(0x1000000, 4)], 8, [⟨0, 10, .rc⟩], 0x0, .managerKeeper⟩,
  ⟨"KRA_CTX_RESIDENT", 0x40a0038, [(0x1000000, 4)], 8, [⟨0, 15, .ro⟩], 0x0, .managerKeeper⟩,
  ⟨"KRA_TX_PKTS", 0x40a0100, [(0x1000000, 4)], 8, [⟨0, 64, .ro⟩], 0x0, .managerKeeper⟩,
  ⟨"KRA_TX_BYTES", 0x40a0108, [(0x1000000, 4)], 8, [⟨0, 64, .ro⟩], 0x0, .managerKeeper⟩,
  ⟨"KRA_RX_PKTS", 0x40a0110, [(0x1000000, 4)], 8, [⟨0, 64, .ro⟩], 0x0, .managerKeeper⟩,
  ⟨"KRA_RX_BYTES", 0x40a0118, [(0x1000000, 4)], 8, [⟨0, 64, .ro⟩], 0x0, .managerKeeper⟩,
  ⟨"KRA_RETRANSMITS", 0x40a0120, [(0x1000000, 4)], 8, [⟨0, 64, .ro⟩], 0x0, .managerKeeper⟩,
  ⟨"KRA_TIMEOUTS", 0x40a0128, [(0x1000000, 4)], 8, [⟨0, 64, .ro⟩], 0x0, .managerKeeper⟩,
  ⟨"KRA_NAK_TX", 0x40a0130, [(0x1000000, 4)], 8, [⟨0, 64, .ro⟩], 0x0, .managerKeeper⟩,
  ⟨"KRA_NAK_RX", 0x40a0138, [(0x1000000, 4)], 8, [⟨0, 64, .ro⟩], 0x0, .managerKeeper⟩,
  ⟨"KRA_RX_AUTH_FAIL", 0x40a0140, [(0x1000000, 4)], 8, [⟨0, 64, .ro⟩], 0x0, .managerKeeper⟩,
  ⟨"KRA_RX_OUT_OF_SEQ", 0x40a0148, [(0x1000000, 4)], 8, [⟨0, 64, .ro⟩], 0x0, .managerKeeper⟩]

/-- Rows of the register maps, part 9. -/
def regRows9 : List RegRow := [
  ⟨"KRA_RX_DUPLICATE", 0x40a0150, [(0x1000000, 4)], 8, [⟨0, 64, .ro⟩], 0x0, .managerKeeper⟩,
  ⟨"KRA_LATE_RESPONSE", 0x40a0158, [(0x1000000, 4)], 8, [⟨0, 64, .ro⟩], 0x0, .managerKeeper⟩,
  ⟨"KRA_RX_QP_MISMATCH", 0x40a0160, [(0x1000000, 4)], 8, [⟨0, 64, .ro⟩], 0x0, .managerKeeper⟩,
  ⟨"KRA_RX_NO_QP", 0x40a0168, [(0x1000000, 4)], 8, [⟨0, 64, .ro⟩], 0x0, .managerKeeper⟩,
  ⟨"KRA_RX_BAD_VERSION", 0x40a0170, [(0x1000000, 4)], 8, [⟨0, 64, .ro⟩], 0x0, .managerKeeper⟩,
  ⟨"KRA_ACCESS_VIOLATION", 0x40a0178, [(0x1000000, 4)], 8, [⟨0, 64, .ro⟩], 0x0, .managerKeeper⟩,
  ⟨"KRA_EVENT_DROP", 0x40a0180, [(0x1000000, 4)], 8, [⟨0, 64, .ro⟩], 0x0, .managerKeeper⟩,
  ⟨"KRA_CTX_HITS", 0x40a0188, [(0x1000000, 4)], 8, [⟨0, 64, .ro⟩], 0x0, .managerKeeper⟩,
  ⟨"KRA_CTX_MISSES", 0x40a0190, [(0x1000000, 4)], 8, [⟨0, 64, .ro⟩], 0x0, .managerKeeper⟩,
  ⟨"KRA_CTX_EVICT", 0x40a0198, [(0x1000000, 4)], 8, [⟨0, 64, .ro⟩], 0x0, .managerKeeper⟩,
  ⟨"KRA_CTX_PIN_WAIT", 0x40a01a0, [(0x1000000, 4)], 8, [⟨0, 64, .ro⟩], 0x0, .managerKeeper⟩,
  ⟨"KRA_MISS_DROP", 0x40a01a8, [(0x1000000, 4)], 8, [⟨0, 64, .ro⟩], 0x0, .managerKeeper⟩,
  ⟨"KRA_REG_REMOTE_CHECKS", 0x40a01b0, [(0x1000000, 4)], 8, [⟨0, 64, .ro⟩], 0x0, .managerKeeper⟩,
  ⟨"KRA_REG_WAIT", 0x40a01b8, [(0x1000000, 4)], 8, [⟨0, 64, .ro⟩], 0x0, .managerKeeper⟩,
  ⟨"KRA_REVOKES", 0x40a01c0, [(0x1000000, 4)], 8, [⟨0, 64, .ro⟩], 0x0, .managerKeeper⟩,
  ⟨"KRA_REVOKES_FORCED", 0x40a01c8, [(0x1000000, 4)], 8, [⟨0, 32, .ro⟩], 0x0, .managerKeeper⟩,
  ⟨"KRA_QP_STAGE", 0x40a0400, [(0x1000000, 4), (0x8, 32)], 8, [⟨0, 64, .rw⟩], 0x0, .managerKeeper⟩,
  ⟨"NVME_SQ_ACTIVE", 0x40b0000, [(0x1000000, 4)], 8, [⟨0, 13, .ro⟩], 0x0, .managerKeeper⟩,
  ⟨"NVME_CQ_ACTIVE", 0x40b0008, [(0x1000000, 4)], 8, [⟨0, 13, .ro⟩], 0x0, .managerKeeper⟩,
  ⟨"NVME_CMDS", 0x40b0010, [(0x1000000, 4)], 8, [⟨0, 64, .ro⟩], 0x0, .managerKeeper⟩,
  ⟨"NVME_READ_BYTES", 0x40b0018, [(0x1000000, 4)], 8, [⟨0, 64, .ro⟩], 0x0, .managerKeeper⟩,
  ⟨"NVME_WRITE_BYTES", 0x40b0020, [(0x1000000, 4)], 8, [⟨0, 64, .ro⟩], 0x0, .managerKeeper⟩,
  ⟨"NVME_ERR_CPL", 0x40b0028, [(0x1000000, 4)], 8, [⟨0, 64, .ro⟩], 0x0, .managerKeeper⟩,
  ⟨"NVME_DB_ERR", 0x40b0030, [(0x1000000, 4)], 8, [⟨0, 32, .ro⟩], 0x0, .managerKeeper⟩]

/-- Rows of the register maps, part 10. -/
def regRows10 : List RegRow := [
  ⟨"NVME_CQ_FULL_WAIT", 0x40b0038, [(0x1000000, 4)], 8, [⟨0, 64, .ro⟩], 0x0, .managerKeeper⟩,
  ⟨"NVME_SUPPRESSED", 0x40b0040, [(0x1000000, 4)], 8, [⟨0, 64, .ro⟩], 0x0, .managerKeeper⟩,
  ⟨"NVME_PS_DELAYED", 0x40b0048, [(0x1000000, 4)], 8, [⟨0, 64, .ro⟩], 0x0, .managerKeeper⟩,
  ⟨"NVME_SEAL_WAIT", 0x40b0050, [(0x1000000, 4)], 8, [⟨0, 64, .ro⟩], 0x0, .managerKeeper⟩,
  ⟨"NVME_CAPTURE_RECORDS", 0x40b0058, [(0x1000000, 4)], 8, [⟨0, 64, .ro⟩], 0x0, .managerKeeper⟩,
  ⟨"NVME_CAPTURE_DROP", 0x40b0060, [(0x1000000, 4)], 8, [⟨0, 64, .ro⟩], 0x0, .managerKeeper⟩,
  ⟨"NVME_ABORTED", 0x40b0068, [(0x1000000, 4)], 8, [⟨0, 64, .ro⟩], 0x0, .managerKeeper⟩,
  ⟨"ACC_DENIED", 0x40b0070, [(0x1000000, 4)], 8, [⟨0, 64, .ro⟩], 0x0, .managerKeeper⟩,
  ⟨"NVME_INT_STATUS", 0x40b0078, [(0x1000000, 4)], 8, [⟨0, 3, .rw1c⟩], 0x0, .managerKeeper⟩,
  ⟨"NVME_INT_ENABLE", 0x40b0080, [(0x1000000, 4)], 8, [⟨0, 3, .rw⟩], 0x6, .managerKeeper⟩,
  ⟨"FL_CH_STATE", 0x40c0000, [(0x1000000, 4), (0x8, 8)], 8, [⟨0, 2, .ro⟩, ⟨8, 5, .ro⟩], 0x0, .managerKeeper⟩,
  ⟨"FL_CH_BYTES", 0x40c0040, [(0x1000000, 4), (0x8, 8)], 8, [⟨0, 64, .ro⟩], 0x0, .managerKeeper⟩,
  ⟨"FL_CH_TIMEOUTS", 0x40c0080, [(0x1000000, 4), (0x8, 8)], 8, [⟨0, 32, .ro⟩], 0x0, .managerKeeper⟩,
  ⟨"FL_CH_TRAIN_FAIL", 0x40c00c0, [(0x1000000, 4), (0x8, 8)], 8, [⟨0, 32, .ro⟩], 0x0, .managerKeeper⟩,
  ⟨"FL_DIE_REJECT", 0x40c0100, [(0x1000000, 4)], 8, [⟨0, 8, .ro⟩], 0x0, .managerKeeper⟩,
  ⟨"FL_DIE_STATE", 0x40c0400, [(0x1000000, 4), (0x8, 128)], 8, [⟨0, 2, .ro⟩, ⟨8, 8, .ro⟩, ⟨16, 16, .ro⟩, ⟨32, 8, .ro⟩], 0x0, .managerKeeper⟩,
  ⟨"AFF_STATE", 0x40d0000, [(0x1000000, 4)], 8, [⟨0, 3, .ro⟩], 0x0, .managerKeeper⟩,
  ⟨"AFF_BANDS_FREE", 0x40d0008, [(0x1000000, 4)], 8, [⟨0, 16, .ro⟩], 0x0, .managerKeeper⟩,
  ⟨"AFF_SPARE", 0x40d0010, [(0x1000000, 4)], 8, [⟨0, 32, .ro⟩], 0x0, .managerKeeper⟩,
  ⟨"AFF_SPARE_INIT", 0x40d0018, [(0x1000000, 4)], 8, [⟨0, 32, .ro⟩], 0x0, .managerKeeper⟩,
  ⟨"AFF_PE_AVG", 0x40d0020, [(0x1000000, 4)], 8, [⟨0, 16, .ro⟩, ⟨16, 16, .ro⟩, ⟨32, 16, .ro⟩], 0x0, .managerKeeper⟩,
  ⟨"AFF_HOST_BYTES", 0x40d0028, [(0x1000000, 4)], 8, [⟨0, 64, .ro⟩], 0x0, .managerKeeper⟩,
  ⟨"AFF_MEDIA_BYTES", 0x40d0030, [(0x1000000, 4)], 8, [⟨0, 64, .ro⟩], 0x0, .managerKeeper⟩,
  ⟨"AFF_ERASES", 0x40d0038, [(0x1000000, 4)], 8, [⟨0, 64, .ro⟩], 0x0, .managerKeeper⟩]

/-- Rows of the register maps, part 11. -/
def regRows11 : List RegRow := [
  ⟨"AFF_UNRECOVERED", 0x40d0040, [(0x1000000, 4)], 8, [⟨0, 64, .ro⟩], 0x0, .managerKeeper⟩,
  ⟨"AFF_PROG_FAIL", 0x40d0048, [(0x1000000, 4)], 8, [⟨0, 32, .ro⟩], 0x0, .managerKeeper⟩,
  ⟨"AFF_ERASE_FAIL", 0x40d0050, [(0x1000000, 4)], 8, [⟨0, 32, .ro⟩], 0x0, .managerKeeper⟩,
  ⟨"AFF_GROWN_BAD", 0x40d0058, [(0x1000000, 4)], 8, [⟨0, 32, .ro⟩], 0x0, .managerKeeper⟩,
  ⟨"AFF_FACTORY_BAD", 0x40d0060, [(0x1000000, 4)], 8, [⟨0, 32, .ro⟩], 0x0, .managerKeeper⟩,
  ⟨"AFF_DIE_RETIRED", 0x40d0068, [(0x1000000, 4)], 8, [⟨0, 8, .ro⟩], 0x0, .managerKeeper⟩,
  ⟨"AFF_RD_REFRESH", 0x40d0070, [(0x1000000, 4)], 8, [⟨0, 64, .ro⟩], 0x0, .managerKeeper⟩,
  ⟨"AFF_RET_REFRESH", 0x40d0078, [(0x1000000, 4)], 8, [⟨0, 64, .ro⟩], 0x0, .managerKeeper⟩,
  ⟨"AFF_WL_MOVES", 0x40d0080, [(0x1000000, 4)], 8, [⟨0, 64, .ro⟩], 0x0, .managerKeeper⟩,
  ⟨"AFF_PATROL_PAGES", 0x40d0088, [(0x1000000, 4)], 8, [⟨0, 64, .ro⟩], 0x0, .managerKeeper⟩,
  ⟨"AFF_PATROL_PASS", 0x40d0090, [(0x1000000, 4)], 8, [⟨0, 48, .ro⟩], 0x0, .managerKeeper⟩,
  ⟨"AFF_MAP_HITS", 0x40d0098, [(0x1000000, 4)], 8, [⟨0, 64, .ro⟩], 0x0, .managerKeeper⟩,
  ⟨"AFF_MAP_MISSES", 0x40d00a0, [(0x1000000, 4)], 8, [⟨0, 64, .ro⟩], 0x0, .managerKeeper⟩,
  ⟨"AFF_WBUF_BYTES", 0x40d00a8, [(0x1000000, 4)], 8, [⟨0, 31, .ro⟩], 0x0, .managerKeeper⟩,
  ⟨"AFF_WBUF_PEAK", 0x40d00b0, [(0x1000000, 4)], 8, [⟨0, 31, .rc⟩], 0x0, .managerKeeper⟩,
  ⟨"AFF_WBUF_WAIT", 0x40d00b8, [(0x1000000, 4)], 8, [⟨0, 64, .ro⟩], 0x0, .managerKeeper⟩,
  ⟨"AFF_GC_BYTES", 0x40d00c0, [(0x1000000, 4)], 8, [⟨0, 64, .ro⟩], 0x0, .managerKeeper⟩,
  ⟨"AFF_RELOC_SUPERSEDED", 0x40d00c8, [(0x1000000, 4)], 8, [⟨0, 64, .ro⟩], 0x0, .managerKeeper⟩,
  ⟨"AFF_SUSPENDS", 0x40d00d0, [(0x1000000, 4)], 8, [⟨0, 64, .ro⟩], 0x0, .managerKeeper⟩,
  ⟨"AFF_INT_STATUS", 0x40d00d8, [(0x1000000, 4)], 8, [⟨0, 5, .rw1c⟩], 0x0, .managerKeeper⟩,
  ⟨"AFF_INT_ENABLE", 0x40d00e0, [(0x1000000, 4)], 8, [⟨0, 5, .rw⟩], 0x1f, .managerKeeper⟩,
  ⟨"AFF_GC_LOW", 0x40d0100, [(0x1000000, 4)], 8, [⟨0, 8, .rw⟩], 0x18, .managerKeeper⟩,
  ⟨"AFF_WL_DELTA", 0x40d0108, [(0x1000000, 4)], 8, [⟨0, 16, .rw⟩], 0xc8, .managerKeeper⟩,
  ⟨"AFF_RD_LIMIT", 0x40d0110, [(0x1000000, 4)], 8, [⟨0, 32, .rw⟩], 0xc350, .managerKeeper⟩]

/-- Rows of the register maps, part 12. -/
def regRows12 : List RegRow := [
  ⟨"AFF_RET_LIMIT", 0x40d0118, [(0x1000000, 4)], 8, [⟨0, 16, .rw⟩], 0x870, .managerKeeper⟩,
  ⟨"AFF_PATROL_DAYS", 0x40d0120, [(0x1000000, 4)], 8, [⟨0, 8, .rw⟩], 0x7, .managerKeeper⟩,
  ⟨"AFF_BG_SHARE", 0x40d0128, [(0x1000000, 4)], 8, [⟨0, 7, .rw⟩], 0x14, .managerKeeper⟩,
  ⟨"AFF_REFRESH_STAGE", 0x40d0130, [(0x1000000, 4)], 8, [⟨0, 4, .rw⟩], 0x2, .managerKeeper⟩,
  ⟨"AFF_REFRESH_BITS", 0x40d0138, [(0x1000000, 4)], 8, [⟨0, 10, .rw⟩], 0x78, .managerKeeper⟩,
  ⟨"AFF_MAP_CACHE_GIB", 0x40d0140, [(0x1000000, 4)], 8, [⟨0, 5, .rw⟩], 0x8, .keeperWrites⟩,
  ⟨"AFF_OP_PCT", 0x40d0148, [(0x1000000, 4)], 8, [⟨0, 6, .rw⟩], 0x7, .keeperWrites⟩,
  ⟨"AFF_READ_STAGE", 0x40d0200, [(0x1000000, 4), (0x8, 12)], 8, [⟨0, 64, .ro⟩], 0x0, .managerKeeper⟩,
  ⟨"ITU_HITS", 0x40e0000, [(0x1000000, 4)], 8, [⟨0, 64, .ro⟩], 0x0, .managerKeeper⟩,
  ⟨"ITU_MISSES", 0x40e0008, [(0x1000000, 4)], 8, [⟨0, 64, .ro⟩], 0x0, .managerKeeper⟩,
  ⟨"ITU_EVICT", 0x40e0010, [(0x1000000, 4)], 8, [⟨0, 64, .ro⟩], 0x0, .managerKeeper⟩,
  ⟨"ITU_ATS_REQ", 0x40e0018, [(0x1000000, 4)], 8, [⟨0, 64, .ro⟩], 0x0, .managerKeeper⟩,
  ⟨"ITU_ATS_INVAL", 0x40e0020, [(0x1000000, 4)], 8, [⟨0, 64, .ro⟩], 0x0, .managerKeeper⟩,
  ⟨"ITU_FAULTS", 0x40e0028, [(0x1000000, 4)], 8, [⟨0, 64, .ro⟩], 0x0, .managerKeeper⟩,
  ⟨"ITU_ENTRIES", 0x40e0030, [(0x1000000, 4)], 8, [⟨0, 14, .ro⟩], 0x0, .managerKeeper⟩,
  ⟨"PWR_SI_STATE", 0x40f0000, [(0x1000000, 4)], 8, [⟨0, 2, .ro⟩, ⟨4, 2, .ro⟩], 0x30, .keeperWrites⟩,
  ⟨"PWR_SI_MAX", 0x40f0008, [(0x1000000, 4)], 8, [⟨0, 2, .rw⟩], 0x3, .managerKeeper⟩,
  ⟨"PWR_IDLE_DWELL", 0x40f0010, [(0x1000000, 4)], 8, [⟨0, 16, .rw⟩], 0x3e8, .keeperWrites⟩,
  ⟨"PWR_SI_ENTRIES", 0x40f0040, [(0x1000000, 4), (0x8, 4)], 8, [⟨0, 64, .ro⟩], 0x0, .keeperWrites⟩,
  ⟨"PWR_SI_TIME", 0x40f0060, [(0x1000000, 4), (0x8, 4)], 8, [⟨0, 64, .ro⟩], 0x0, .keeperWrites⟩,
  ⟨"PWR_SI_ABORTS", 0x40f0080, [(0x1000000, 4)], 8, [⟨0, 64, .ro⟩], 0x0, .keeperWrites⟩,
  ⟨"PWR_WAKE_LATE", 0x40f0088, [(0x1000000, 4)], 8, [⟨0, 32, .ro⟩], 0x0, .keeperWrites⟩,
  ⟨"PWR_WAKE_DROP", 0x40f0090, [(0x1000000, 4)], 8, [⟨0, 64, .ro⟩], 0x0, .keeperWrites⟩]

/-- Rows of the register maps, part 13. -/
def regRows13 : List RegRow := [
  ⟨"CORE_CYCLE", 0x4100000, [(0x1000000, 4), (0x1000, 4), (0x8, 8)], 8, [⟨0, 64, .rw⟩], 0x0, .pmuCore⟩,
  ⟨"THREAD_INSTRET", 0x4100100, [(0x1000000, 4), (0x1000, 4), (0x8, 32)], 8, [⟨0, 64, .rw⟩], 0x0, .pmuCore⟩,
  ⟨"CORE_HPM", 0x4100200, [(0x1000000, 4), (0x1000, 4), (0x8, 48)], 8, [⟨0, 64, .rw⟩], 0x0, .pmuCore⟩,
  ⟨"CORE_HPM_EVT", 0x4100400, [(0x1000000, 4), (0x1000, 4), (0x8, 48)], 8, [⟨0, 64, .rw⟩], 0x0, .pmuCore⟩,
  ⟨"CORE_INHIBIT", 0x4100600, [(0x1000000, 4), (0x1000, 4), (0x8, 8)], 8, [⟨0, 9, .rw⟩], 0x0, .pmuCore⟩,
  ⟨"CORE_OVF", 0x4100680, [(0x1000000, 4), (0x1000, 4)], 8, [⟨0, 48, .rw1c⟩], 0x0, .pmuCore⟩,
  ⟨"CLUSTER_FREEZE", 0x4100688, [(0x1000000, 4), (0x1000, 4)], 8, [⟨0, 1, .rw⟩], 0x0, .pmuCore⟩,
  ⟨"CTR_UREAD", 0x4100690, [(0x1000000, 4), (0x1000, 4)], 8, [⟨0, 9, .rw⟩, ⟨16, 9, .rw⟩], 0x0, .pmuCore⟩,
  ⟨"UNC_CYCLE", 0x4110000, [(0x1000000, 4)], 8, [⟨0, 64, .rw⟩], 0x0, .managerKeeper⟩,
  ⟨"UNC_FREEZE", 0x4110008, [(0x1000000, 4)], 8, [⟨0, 1, .rw⟩], 0x0, .managerKeeper⟩,
  ⟨"UNC_OVF", 0x4110010, [(0x1000000, 4)], 8, [⟨0, 8, .rw1c⟩], 0x0, .managerKeeper⟩,
  ⟨"PMU_INT_STATUS", 0x4110018, [(0x1000000, 4)], 8, [⟨0, 1, .rw1c⟩], 0x0, .managerKeeper⟩,
  ⟨"PMU_INT_ENABLE", 0x4110020, [(0x1000000, 4)], 8, [⟨0, 1, .rw⟩], 0x1, .managerKeeper⟩,
  ⟨"UNC_CTR", 0x4110100, [(0x1000000, 4), (0x8, 8)], 8, [⟨0, 64, .rw⟩], 0x0, .managerKeeper⟩,
  ⟨"UNC_EVT", 0x4110140, [(0x1000000, 4), (0x8, 8)], 8, [⟨0, 64, .rw⟩], 0x0, .managerKeeper⟩,
  ⟨"UNC_ADDR_BASE", 0x4110180, [(0x1000000, 4), (0x8, 8)], 8, [⟨6, 58, .rw⟩], 0x0, .managerKeeper⟩,
  ⟨"UNC_ADDR_LIMIT", 0x41101c0, [(0x1000000, 4), (0x8, 8)], 8, [⟨6, 58, .rw⟩], 0x0, .managerKeeper⟩,
  ⟨"RING_POOL_FREE", 0x4200000, [(0x1000000, 4)], 8, [⟨0, 14, .ro⟩], 0x2000, .managerKeeper⟩,
  ⟨"RING_POOL_COMMIT", 0x4200008, [(0x1000000, 4)], 8, [⟨0, 19, .ro⟩], 0x0, .managerKeeper⟩,
  ⟨"RING_SLICE_CFG", 0x4200010, [(0x1000000, 4)], 8, [⟨0, 1, .rw⟩], 0x0, .managerKeeper⟩,
  ⟨"RING_POOL_PEAK", 0x4200018, [(0x1000000, 4)], 8, [⟨0, 14, .rc⟩], 0x0, .managerKeeper⟩,
  ⟨"RING_INT_STATUS", 0x4200020, [(0x1000000, 4)], 8, [⟨0, 3, .rw1c⟩], 0x0, .managerKeeper⟩,
  ⟨"RING_INT_ENABLE", 0x4200028, [(0x1000000, 4)], 8, [⟨0, 3, .rw⟩], 0x7, .managerKeeper⟩]

/-- Rows of the register maps, part 14. -/
def regRows14 : List RegRow := [
  ⟨"SR_BASE", 0x4300000, [(0x1000000, 4), (0x80, 8192)], 8, [⟨12, 52, .rw⟩], 0x0, .managerKeeper⟩,
  ⟨"SR_CFG", 0x4300008, [(0x1000000, 4), (0x80, 8192)], 8, [⟨0, 5, .rw⟩, ⟨5, 1, .rw⟩, ⟨8, 4, .rw⟩, ⟨12, 12, .rw⟩, ⟨24, 13, .rw⟩, ⟨37, 12, .rw⟩], 0x206, .managerKeeper⟩,
  ⟨"SR_CTRL", 0x4300010, [(0x1000000, 4), (0x80, 8192)], 8, [⟨0, 1, .rw⟩], 0x0, .managerKeeper⟩,
  ⟨"SR_STATE", 0x4300018, [(0x1000000, 4), (0x80, 8192)], 8, [⟨0, 3, .ro⟩, ⟨3, 1, .ro⟩, ⟨16, 16, .ro⟩], 0x0, .managerKeeper⟩,
  ⟨"SR_HEAD", 0x4300020, [(0x1000000, 4), (0x80, 8192)], 8, [⟨0, 17, .rw⟩], 0x0, .managerKeeper⟩,
  ⟨"SR_TAIL", 0x4300028, [(0x1000000, 4), (0x80, 8192)], 8, [⟨0, 17, .ro⟩], 0x0, .managerKeeper⟩,
  ⟨"SR_JOBS", 0x4300030, [(0x1000000, 4), (0x80, 8192)], 8, [⟨0, 64, .ro⟩], 0x0, .managerKeeper⟩,
  ⟨"SR_DB_ERR", 0x4300038, [(0x1000000, 4), (0x80, 8192)], 8, [⟨0, 60, .ro⟩], 0x0, .managerKeeper⟩,
  ⟨"SR_CHAIN_ERR", 0x4300040, [(0x1000000, 4), (0x80, 8192)], 8, [⟨0, 32, .ro⟩], 0x0, .managerKeeper⟩,
  ⟨"SR_RX_DROP", 0x4300048, [(0x1000000, 4), (0x80, 8192)], 8, [⟨0, 64, .ro⟩], 0x0, .managerKeeper⟩,
  ⟨"CR_BASE", 0x4400000, [(0x1000000, 4), (0x80, 4096)], 8, [⟨12, 52, .rw⟩], 0x0, .managerKeeper⟩,
  ⟨"CR_CFG", 0x4400008, [(0x1000000, 4), (0x80, 4096)], 8, [⟨0, 5, .rw⟩, ⟨6, 7, .rw⟩, ⟨13, 13, .rw⟩, ⟨26, 12, .rw⟩], 0x1006, .managerKeeper⟩,
  ⟨"CR_CTRL", 0x4400010, [(0x1000000, 4), (0x80, 4096)], 8, [⟨0, 1, .rw⟩], 0x0, .managerKeeper⟩,
  ⟨"CR_STATE", 0x4400018, [(0x1000000, 4), (0x80, 4096)], 8, [⟨0, 3, .ro⟩, ⟨3, 1, .ro⟩, ⟨4, 1, .ro⟩, ⟨8, 7, .ro⟩, ⟨16, 16, .ro⟩], 0x0, .managerKeeper⟩,
  ⟨"CR_HEAD", 0x4400020, [(0x1000000, 4), (0x80, 4096)], 8, [⟨0, 17, .rw⟩], 0x0, .managerKeeper⟩,
  ⟨"CR_TAIL", 0x4400028, [(0x1000000, 4), (0x80, 4096)], 8, [⟨0, 17, .rw⟩], 0x0, .managerKeeper⟩,
  ⟨"CR_INT_CFG", 0x4400030, [(0x1000000, 4), (0x80, 4096)], 8, [⟨0, 11, .rw⟩, ⟨15, 1, .rw⟩, ⟨16, 8, .rw⟩, ⟨24, 16, .rw⟩, ⟨40, 2, .rw⟩, ⟨42, 6, .rw⟩, ⟨48, 1, .rw⟩], 0x10000, .managerKeeper⟩,
  ⟨"CR_WRITTEN", 0x4400038, [(0x1000000, 4), (0x80, 4096)], 8, [⟨0, 64, .ro⟩], 0x0, .managerKeeper⟩,
  ⟨"CR_HELD_TOTAL", 0x4400040, [(0x1000000, 4), (0x80, 4096)], 8, [⟨0, 64, .ro⟩], 0x0, .managerKeeper⟩,
  ⟨"CR_OVERFLOW_EVENTS", 0x4400048, [(0x1000000, 4), (0x80, 4096)], 8, [⟨0, 32, .ro⟩], 0x0, .managerKeeper⟩,
  ⟨"CR_LOST", 0x4400050, [(0x1000000, 4), (0x80, 4096)], 8, [⟨0, 32, .ro⟩], 0x0, .managerKeeper⟩,
  ⟨"CR_DB_ERR", 0x4400058, [(0x1000000, 4), (0x80, 4096)], 8, [⟨0, 32, .ro⟩], 0x0, .managerKeeper⟩,
  ⟨"RULE_MISS_ACTION", 0x4600000, [(0x1000000, 4)], 8, [⟨0, 4, .rw⟩, ⟨4, 1, .rw⟩, ⟨8, 21, .rw⟩, ⟨29, 5, .rw⟩, ⟨34, 16, .rw⟩], 0x0, .managerKeeper⟩,
  ⟨"RULE_MISS", 0x4600008, [(0x1000000, 4)], 8, [⟨0, 64, .ro⟩], 0x0, .managerKeeper⟩]

/-- Rows of the register maps, part 15. -/
def regRows15 : List RegRow := [
  ⟨"RULE_DROP", 0x4600010, [(0x1000000, 4)], 8, [⟨0, 64, .ro⟩], 0x0, .managerKeeper⟩,
  ⟨"RULE_COMMITS", 0x4600018, [(0x1000000, 4)], 8, [⟨0, 64, .ro⟩], 0x0, .managerKeeper⟩,
  ⟨"CLS_LOOKUPS", 0x4600020, [(0x1000000, 4)], 8, [⟨0, 64, .ro⟩], 0x0, .managerKeeper⟩,
  ⟨"KEY_PROFILE", 0x4600100, [(0x1000000, 4), (0x8, 256)], 8, [⟨0, 60, .rw⟩], 0x0, .managerKeeper⟩,
  ⟨"RULE_STAGE", 0x4601000, [(0x1000000, 4), (0x80, 6), (0x8, 16)], 8, [⟨0, 64, .rw⟩], 0x0, .slotOwner⟩,
  ⟨"RULE_COMMIT", 0x4601400, [(0x1000000, 4), (0x8, 6)], 8, [⟨0, 14, .wo⟩, ⟨16, 1, .wo⟩], 0x0, .slotOwner⟩,
  ⟨"RULE_HITS", 0x4700000, [(0x1000000, 4), (0x8, 16384)], 8, [⟨0, 64, .ro⟩], 0x0, .managerKeeper⟩,
  ⟨"RULE_ENTRY", 0x4800000, [(0x1000000, 4), (0x80, 16384), (0x8, 16)], 8, [⟨0, 64, .ro⟩], 0x0, .managerKeeper⟩,
  ⟨"FT_CTRL", 0x8100000, [], 8, [⟨0, 1, .rw⟩, ⟨1, 1, .rw⟩, ⟨2, 1, .rw⟩, ⟨3, 29, .rsv⟩], 0x1, .managerKeeper⟩,
  ⟨"FT_SRC_SEL", 0x8100008, [], 8, [⟨0, 3, .rw⟩, ⟨4, 3, .rw⟩, ⟨8, 5, .rw⟩, ⟨16, 5, .rw⟩], 0x0, .managerKeeper⟩,
  ⟨"FT_STATUS", 0x8100010, [], 8, [⟨0, 3, .ro⟩, ⟨4, 3, .ro⟩], 0x0, .managerKeeper⟩,
  ⟨"FT_NOW_SEC", 0x8100018, [], 8, [⟨0, 48, .ro⟩], 0x0, .managerKeeper⟩,
  ⟨"FT_NOW_FRAC", 0x8100020, [], 8, [⟨0, 48, .ro⟩], 0x0, .managerKeeper⟩,
  ⟨"FT_MONO", 0x8100028, [], 8, [⟨0, 64, .ro⟩], 0x0, .managerKeeper⟩,
  ⟨"FT_OFFSET", 0x8100030, [], 8, [⟨0, 64, .ro⟩], 0x0, .managerKeeper⟩,
  ⟨"FT_FREQ_ADJ", 0x8100038, [], 8, [⟨0, 32, .rw⟩], 0x0, .managerKeeper⟩,
  ⟨"FT_STEP", 0x8100040, [], 8, [⟨0, 64, .wo⟩], 0x0, .managerKeeper⟩,
  ⟨"FT_STEP_THRESH", 0x8100048, [], 8, [⟨0, 32, .rw⟩], 0x186a0, .managerKeeper⟩,
  ⟨"FT_SLEW_MAX", 0x8100050, [], 8, [⟨0, 7, .rw⟩], 0x32, .managerKeeper⟩,
  ⟨"FT_LOCK_THRESH", 0x8100058, [], 8, [⟨0, 32, .rw⟩], 0x64, .managerKeeper⟩,
  ⟨"FT_UNLOCK_THRESH", 0x8100060, [], 8, [⟨0, 32, .rw⟩], 0x3e8, .managerKeeper⟩,
  ⟨"FT_HOLDOVER_LIMIT", 0x8100068, [], 8, [⟨0, 32, .rw⟩], 0x258, .managerKeeper⟩,
  ⟨"FT_PPS_DELAY", 0x8100070, [], 8, [⟨0, 32, .rw⟩], 0x0, .managerKeeper⟩,
  ⟨"FT_PPS_NEXT_SEC", 0x8100078, [], 8, [⟨0, 48, .rw⟩, ⟨48, 1, .rw⟩], 0x0, .managerKeeper⟩]

/-- Rows of the register maps, part 16. -/
def regRows16 : List RegRow := [
  ⟨"FT_STEPS", 0x8100080, [], 8, [⟨0, 32, .ro⟩], 0x0, .managerKeeper⟩,
  ⟨"FT_LAST_STEP", 0x8100088, [], 8, [⟨0, 64, .ro⟩], 0x0, .managerKeeper⟩,
  ⟨"FT_LOSS", 0x8100090, [], 8, [⟨0, 32, .ro⟩], 0x0, .managerKeeper⟩,
  ⟨"FT_PPS_GLITCH", 0x8100098, [], 8, [⟨0, 32, .ro⟩], 0x0, .managerKeeper⟩,
  ⟨"FT_INT_STATUS", 0x81000a0, [], 8, [⟨0, 6, .rw1c⟩], 0x0, .managerKeeper⟩,
  ⟨"FT_INT_ENABLE", 0x81000a8, [], 8, [⟨0, 6, .rw⟩], 0x3e, .managerKeeper⟩,
  ⟨"ARB_DEADLINE", 0x8110000, [], 8, [⟨0, 24, .rw⟩, ⟨24, 40, .rsv⟩], 0x1e0, .managerKeeper⟩,
  ⟨"ARB_DEADLINE", 0x8110008, [], 8, [⟨0, 24, .rw⟩, ⟨24, 40, .rsv⟩], 0x320, .managerKeeper⟩,
  ⟨"ARB_DEADLINE", 0x8110010, [], 8, [⟨0, 24, .rw⟩, ⟨24, 40, .rsv⟩], 0x640, .managerKeeper⟩,
  ⟨"ARB_DEADLINE", 0x8110018, [], 8, [⟨0, 24, .rw⟩, ⟨24, 40, .rsv⟩], 0xc80, .managerKeeper⟩,
  ⟨"ARB_DEADLINE", 0x8110020, [], 8, [⟨0, 24, .rw⟩, ⟨24, 40, .rsv⟩], 0x1f40, .managerKeeper⟩,
  ⟨"ARB_DEADLINE", 0x8110028, [], 8, [⟨0, 24, .rw⟩, ⟨24, 40, .rsv⟩], 0x3e80, .managerKeeper⟩,
  ⟨"ARB_DEADLINE", 0x8110030, [], 8, [⟨0, 24, .rw⟩, ⟨24, 40, .rsv⟩], 0x13880, .managerKeeper⟩,
  ⟨"ARB_DEADLINE", 0x8110038, [], 8, [⟨0, 24, .rw⟩, ⟨24, 40, .rsv⟩], 0x186a00, .managerKeeper⟩,
  ⟨"ARB_DEADLINE", 0x8110040, [(0x8, 8)], 8, [⟨0, 24, .rw⟩, ⟨24, 40, .rsv⟩], 0x27100, .managerKeeper⟩,
  ⟨"ARB_UNIT_CLASS", 0x8110100, [(0x8, 22)], 8, [⟨0, 4, .rw⟩], 0x2, .managerKeeper⟩,
  ⟨"ARB_UNIT_CLASS", 0x81101b0, [], 8, [⟨0, 4, .rw⟩], 0x6, .managerKeeper⟩,
  ⟨"ARB_UNIT_CLASS", 0x81101b8, [(0x8, 4)], 8, [⟨0, 4, .rw⟩], 0x2, .managerKeeper⟩,
  ⟨"ARB_UNIT_CLASS", 0x81101d8, [], 8, [⟨0, 4, .rw⟩], 0x5, .managerKeeper⟩,
  ⟨"ARB_UNIT_CLASS", 0x81101e0, [(0x8, 2)], 8, [⟨0, 4, .rw⟩], 0x2, .managerKeeper⟩,
  ⟨"ARB_UNIT_CLASS", 0x81101f0, [], 8, [⟨0, 4, .rw⟩], 0x5, .managerKeeper⟩,
  ⟨"ARB_SYNC", 0x8110200, [], 8, [⟨0, 1, .ro⟩], 0x0, .managerKeeper⟩,
  ⟨"ARB_HUB_INT_STATUS", 0x8120000, [], 8, [⟨0, 1, .rw1c⟩, ⟨1, 1, .rw1c⟩], 0x0, .managerKeeper⟩,
  ⟨"ARB_HUB_INT_ENABLE", 0x8120008, [], 8, [⟨0, 2, .rw⟩], 0x0, .managerKeeper⟩]

/-- Rows of the register maps, part 17. -/
def regRows17 : List RegRow := [
  ⟨"ARB_HUB_GRANTS", 0x8120100, [(0x8, 23)], 8, [⟨0, 64, .ro⟩], 0x0, .managerKeeper⟩,
  ⟨"ARB_HUB_LOSSES", 0x8120200, [(0x8, 23)], 8, [⟨0, 64, .ro⟩], 0x0, .managerKeeper⟩,
  ⟨"ARB_HUB_BACKOFF", 0x8120300, [(0x8, 23)], 8, [⟨0, 64, .ro⟩], 0x0, .managerKeeper⟩,
  ⟨"ARB_HUB_CAPPED", 0x8120400, [(0x8, 23)], 8, [⟨0, 64, .ro⟩], 0x0, .managerKeeper⟩,
  ⟨"ARB_HUB_LATE", 0x8120500, [(0x8, 23)], 8, [⟨0, 64, .ro⟩], 0x0, .managerKeeper⟩,
  ⟨"ARB_HUB_WAIT_MAX", 0x8120600, [(0x8, 23)], 8, [⟨0, 32, .rc⟩], 0x0, .managerKeeper⟩,
  ⟨"ARB_HUB_CLASS_GRANTS", 0x8120700, [(0x8, 16)], 8, [⟨0, 64, .ro⟩], 0x0, .managerKeeper⟩,
  ⟨"ARB_HUB_CLASS_LATE", 0x8120780, [(0x8, 16)], 8, [⟨0, 64, .ro⟩], 0x0, .managerKeeper⟩,
  ⟨"ARB_HUB_CLASS_WAIT_MAX", 0x8120800, [(0x8, 16)], 8, [⟨0, 32, .rc⟩], 0x0, .managerKeeper⟩,
  ⟨"ARB_HUB_ARBS", 0x8120900, [(0x8, 23)], 8, [⟨0, 64, .ro⟩], 0x0, .managerKeeper⟩,
  ⟨"ROOT_SLOT", 0x8130000, [(0x8, 8)], 8, [⟨0, 2, .ro⟩, ⟨4, 4, .ro⟩, ⟨8, 1, .ro⟩, ⟨9, 2, .ro⟩, ⟨16, 16, .ro⟩], 0x0, .keeperOnly⟩,
  ⟨"RNG_STATUS", 0x8130080, [], 8, [⟨0, 2, .ro⟩], 0x0, .keeperOnly⟩,
  ⟨"RNG_HEALTH_FAIL", 0x8130088, [], 8, [⟨0, 32, .ro⟩], 0x0, .keeperOnly⟩,
  ⟨"RNG_RESEEDS", 0x8130090, [], 8, [⟨0, 64, .ro⟩], 0x0, .keeperOnly⟩,
  ⟨"RNG_BYTES", 0x8130098, [], 8, [⟨0, 64, .ro⟩], 0x0, .keeperOnly⟩,
  ⟨"TAMPER_STATUS", 0x81300a0, [], 8, [⟨0, 4, .rw1c⟩], 0x0, .keeperOnly⟩,
  ⟨"TAMPER_ERASES", 0x81300a8, [], 8, [⟨0, 32, .ro⟩], 0x0, .keeperOnly⟩,
  ⟨"ROOT_RELOADS", 0x81300b0, [], 8, [⟨0, 2, .ro⟩], 0x0, .keeperOnly⟩,
  ⟨"ROOT_INT_STATUS", 0x81300b8, [], 8, [⟨0, 3, .rw1c⟩], 0x0, .keeperOnly⟩,
  ⟨"ROOT_INT_ENABLE", 0x81300c0, [], 8, [⟨0, 3, .rw⟩], 0x7, .keeperOnly⟩,
  ⟨"ROOT_PROVISION", 0x81300c8, [], 8, [⟨0, 1, .ro⟩], 0x0, .keeperOnly⟩,
  ⟨"KRA_UDP_PORT", 0x8140000, [], 8, [⟨0, 16, .rw⟩], 0x4452, .managerKeeper⟩,
  ⟨"KRA_DRAIN_LIMIT", 0x8140008, [], 8, [⟨0, 16, .rw⟩], 0x64, .managerKeeper⟩,
  ⟨"KRA_ACK_DELAY", 0x8140010, [], 8, [⟨0, 16, .rw⟩], 0x7d0, .managerKeeper⟩]

/-- Rows of the register maps, part 18. -/
def regRows18 : List RegRow := [
  ⟨"KRA_CTX_MAP", 0x8140100, [(0x8, 256)], 8, [⟨0, 2, .rw⟩, ⟨20, 44, .rw⟩], 0x0, .managerKeeper⟩,
  ⟨"KL_CTRL", 0x8150000, [(0x8, 6)], 8, [⟨0, 1, .rw⟩], 0x0, .keeperWrites⟩,
  ⟨"KL_STATE", 0x8150040, [(0x8, 6)], 8, [⟨0, 3, .ro⟩, ⟨4, 4, .ro⟩, ⟨8, 6, .ro⟩], 0x0, .managerKeeper⟩,
  ⟨"KL_BLOCKS_TX", 0x8150080, [(0x8, 6)], 8, [⟨0, 64, .ro⟩], 0x0, .managerKeeper⟩,
  ⟨"KL_BLOCKS_RX", 0x81500c0, [(0x8, 6)], 8, [⟨0, 64, .ro⟩], 0x0, .managerKeeper⟩,
  ⟨"KL_CRC_ERR", 0x8150100, [(0x8, 6)], 8, [⟨0, 64, .ro⟩], 0x0, .managerKeeper⟩,
  ⟨"KL_REPLAYS", 0x8150140, [(0x8, 6)], 8, [⟨0, 64, .ro⟩], 0x0, .managerKeeper⟩,
  ⟨"KL_RETRAINS", 0x8150180, [(0x8, 6)], 8, [⟨0, 32, .ro⟩], 0x0, .managerKeeper⟩,
  ⟨"KL_FEC_CORR", 0x81501c0, [(0x8, 6)], 8, [⟨0, 64, .ro⟩], 0x0, .managerKeeper⟩,
  ⟨"KL_FEC_UNCORR", 0x8150200, [(0x8, 6)], 8, [⟨0, 64, .ro⟩], 0x0, .managerKeeper⟩,
  ⟨"KL_CREDIT_WAIT", 0x8150240, [(0x8, 6)], 8, [⟨0, 64, .ro⟩], 0x0, .managerKeeper⟩,
  ⟨"KL_REPLAY_FULL", 0x8150280, [(0x8, 6)], 8, [⟨0, 64, .ro⟩], 0x0, .managerKeeper⟩,
  ⟨"KL_TRANSIT_FLITS", 0x81502c0, [(0x8, 6)], 8, [⟨0, 64, .ro⟩], 0x0, .managerKeeper⟩,
  ⟨"KL_LINK_LOSS", 0x8150300, [(0x8, 6)], 8, [⟨0, 64, .ro⟩], 0x0, .managerKeeper⟩,
  ⟨"KL_VC_CREDITS", 0x8150340, [(0x8, 6)], 8, [⟨0, 64, .rw⟩], 0x200020002000200, .keeperWrites⟩,
  ⟨"KL_TIME_ADJ", 0x8150380, [(0x8, 6)], 8, [⟨0, 16, .rw⟩], 0x0, .keeperWrites⟩,
  ⟨"KL_TRAIN_FAIL", 0x81503c0, [(0x8, 6)], 8, [⟨0, 32, .ro⟩], 0x0, .managerKeeper⟩,
  ⟨"KL_ROUTE", 0x8150400, [(0x8, 64)], 8, [⟨0, 3, .rw⟩], 0x7, .keeperWrites⟩,
  ⟨"KL_HOP_DROP", 0x8150600, [], 8, [⟨0, 64, .ro⟩], 0x0, .managerKeeper⟩,
  ⟨"KL_UNREACH_DROP", 0x8150608, [], 8, [⟨0, 64, .ro⟩], 0x0, .managerKeeper⟩,
  ⟨"KL_BAD_TYPE", 0x8150610, [], 8, [⟨0, 64, .ro⟩], 0x0, .managerKeeper⟩,
  ⟨"KL_IGNORED", 0x8150618, [], 8, [⟨0, 64, .ro⟩], 0x0, .managerKeeper⟩,
  ⟨"KL_INT_STATUS", 0x8150620, [], 8, [⟨0, 4, .rw1c⟩], 0x0, .managerKeeper⟩,
  ⟨"KL_INT_ENABLE", 0x8150628, [], 8, [⟨0, 4, .rw⟩], 0xf, .managerKeeper⟩]

/-- Rows of the register maps, part 19. -/
def regRows19 : List RegRow := [
  ⟨"FED_ID", 0x8160000, [], 8, [⟨0, 6, .ro⟩, ⟨8, 1, .ro⟩], 0x0, .managerKeeper⟩,
  ⟨"FED_STATE", 0x8160008, [], 8, [⟨0, 2, .ro⟩, ⟨4, 1, .ro⟩], 0x0, .managerKeeper⟩,
  ⟨"FED_MASTER", 0x8160010, [], 8, [⟨0, 6, .ro⟩, ⟨8, 1, .ro⟩], 0x0, .managerKeeper⟩,
  ⟨"FED_EPOCH", 0x8160018, [], 8, [⟨0, 16, .ro⟩, ⟨16, 16, .ro⟩], 0x0, .managerKeeper⟩,
  ⟨"FED_MEMBERS", 0x8160020, [], 8, [⟨0, 64, .ro⟩], 0x0, .managerKeeper⟩,
  ⟨"FED_MOVES", 0x8160028, [], 8, [⟨0, 32, .ro⟩], 0x0, .managerKeeper⟩,
  ⟨"FED_JOIN_REFUSED", 0x8160030, [], 8, [⟨0, 32, .ro⟩], 0x0, .managerKeeper⟩,
  ⟨"FED_HB_MISS", 0x8160038, [], 8, [⟨0, 32, .ro⟩], 0x0, .managerKeeper⟩,
  ⟨"FED_TIME_STATUS", 0x8160040, [], 8, [⟨0, 3, .ro⟩, ⟨4, 2, .ro⟩, ⟨16, 16, .ro⟩], 0x0, .managerKeeper⟩,
  ⟨"FED_EPOCH_RAISES", 0x8160048, [], 8, [⟨0, 32, .ro⟩], 0x0, .managerKeeper⟩,
  ⟨"FED_EPOCH_ABORTS", 0x8160050, [], 8, [⟨0, 32, .ro⟩], 0x0, .managerKeeper⟩,
  ⟨"FED_INT_STATUS", 0x8160058, [], 8, [⟨0, 5, .rw1c⟩], 0x0, .managerKeeper⟩,
  ⟨"FED_INT_ENABLE", 0x8160060, [], 8, [⟨0, 5, .rw⟩], 0x1f, .managerKeeper⟩,
  ⟨"FE_DB_FWD", 0x8170000, [], 8, [⟨0, 64, .ro⟩], 0x0, .managerKeeper⟩,
  ⟨"FE_DB_IN", 0x8170008, [], 8, [⟨0, 64, .ro⟩], 0x0, .managerKeeper⟩,
  ⟨"FE_DB_DROP", 0x8170010, [], 8, [⟨0, 64, .ro⟩], 0x0, .managerKeeper⟩,
  ⟨"FE_READS", 0x8170018, [], 8, [⟨0, 64, .ro⟩], 0x0, .managerKeeper⟩,
  ⟨"FE_WRITES", 0x8170020, [], 8, [⟨0, 64, .ro⟩], 0x0, .managerKeeper⟩,
  ⟨"FE_LATE_CPL", 0x8170028, [], 8, [⟨0, 64, .ro⟩], 0x0, .managerKeeper⟩,
  ⟨"FE_BIND_MISMATCH", 0x8170030, [], 8, [⟨0, 64, .ro⟩], 0x0, .managerKeeper⟩,
  ⟨"FE_MMIO_TIMEOUT", 0x8170038, [], 8, [⟨0, 32, .ro⟩], 0x0, .managerKeeper⟩,
  ⟨"FE_SEQ_LOSS", 0x8170040, [], 8, [⟨0, 32, .ro⟩], 0x0, .managerKeeper⟩,
  ⟨"FE_BME_DISCARD", 0x8170048, [], 8, [⟨0, 64, .ro⟩], 0x0, .managerKeeper⟩,
  ⟨"FE_READ_TIMEOUT", 0x8170050, [], 8, [⟨0, 32, .rw⟩], 0xea60, .managerKeeper⟩]

/-- Rows of the register maps, part 20. -/
def regRows20 : List RegRow := [
  ⟨"FE_BINDINGS", 0x8170058, [], 8, [⟨0, 13, .ro⟩], 0x0, .managerKeeper⟩,
  ⟨"FE_INT_STATUS", 0x8170060, [], 8, [⟨0, 4, .rw1c⟩], 0x0, .managerKeeper⟩,
  ⟨"FE_INT_ENABLE", 0x8170068, [], 8, [⟨0, 4, .rw⟩], 0xf, .managerKeeper⟩,
  ⟨"NVME_NS_COUNT", 0x8180000, [], 8, [⟨0, 11, .ro⟩], 0x0, .managerKeeper⟩,
  ⟨"NVME_SELFTEST", 0x8180008, [], 8, [⟨0, 4, .ro⟩, ⟨8, 7, .ro⟩, ⟨16, 4, .ro⟩], 0x0, .managerKeeper⟩,
  ⟨"NVME_SELFTEST_YIELDS", 0x8180010, [], 8, [⟨0, 64, .ro⟩], 0x0, .managerKeeper⟩,
  ⟨"NVME_SELFTEST_MAX_DELAY", 0x8180018, [], 8, [⟨0, 32, .rc⟩], 0x0, .managerKeeper⟩,
  ⟨"ACC_TIME_FLOOR", 0x8180020, [], 8, [⟨0, 48, .ro⟩], 0x0, .managerKeeper⟩,
  ⟨"ACC_TIME_TRUSTED", 0x8180028, [], 8, [⟨0, 1, .ro⟩], 0x0, .managerKeeper⟩,
  ⟨"ACC_SEALS", 0x8180030, [], 8, [⟨0, 64, .ro⟩], 0x0, .managerKeeper⟩,
  ⟨"ACC_RESET_REFUSED", 0x8180038, [], 8, [⟨0, 64, .ro⟩], 0x0, .managerKeeper⟩,
  ⟨"ACC_VERIFY_PASS", 0x8180040, [], 8, [⟨0, 32, .ro⟩], 0x0, .managerKeeper⟩,
  ⟨"ACC_VERIFY_FAIL", 0x8180048, [], 8, [⟨0, 32, .ro⟩], 0x0, .managerKeeper⟩,
  ⟨"NVME_HUB_INT_STATUS", 0x8180050, [], 8, [⟨0, 2, .rw1c⟩], 0x0, .managerKeeper⟩,
  ⟨"NVME_HUB_INT_ENABLE", 0x8180058, [], 8, [⟨0, 2, .rw⟩], 0x3, .managerKeeper⟩,
  ⟨"HOLDUP_STATE", 0x8190000, [], 8, [⟨0, 3, .ro⟩], 0x0, .managerKeeper⟩,
  ⟨"HOLDUP_MV", 0x8190008, [], 8, [⟨0, 16, .ro⟩], 0x0, .managerKeeper⟩,
  ⟨"HOLDUP_CHARGE_PCT", 0x8190010, [], 8, [⟨0, 7, .ro⟩], 0x0, .managerKeeper⟩,
  ⟨"HOLDUP_BUDGET", 0x8190018, [], 8, [⟨0, 33, .ro⟩], 0x0, .managerKeeper⟩,
  ⟨"HOLDUP_CMEAS", 0x8190020, [], 8, [⟨0, 32, .ro⟩], 0x0, .managerKeeper⟩,
  ⟨"HOLDUP_LAST_TEST", 0x8190028, [], 8, [⟨0, 48, .ro⟩], 0x0, .managerKeeper⟩,
  ⟨"HOLDUP_SAVES", 0x8190030, [], 8, [⟨0, 32, .ro⟩], 0x0, .managerKeeper⟩,
  ⟨"HOLDUP_LAST_SAVE_BYTES", 0x8190038, [], 8, [⟨0, 33, .ro⟩], 0x0, .managerKeeper⟩,
  ⟨"HOLDUP_LOST_BYTES", 0x8190040, [], 8, [⟨0, 64, .ro⟩], 0x0, .managerKeeper⟩]

/-- Rows of the register maps, part 21. -/
def regRows21 : List RegRow := [
  ⟨"HOLDUP_INT_STATUS", 0x8190048, [], 8, [⟨0, 3, .rw1c⟩], 0x0, .managerKeeper⟩,
  ⟨"HOLDUP_INT_ENABLE", 0x8190050, [], 8, [⟨0, 3, .rw⟩], 0x7, .managerKeeper⟩,
  ⟨"AFF_WIN_START", 0x8190058, [], 8, [⟨0, 17, .rw⟩], 0x0, .keeperWrites⟩,
  ⟨"AFF_WIN_LEN", 0x8190060, [], 8, [⟨0, 17, .rw⟩], 0x1c20, .keeperWrites⟩,
  ⟨"PCIE_LINK_STATE", 0x81a0000, [(0x8, 4)], 8, [⟨0, 4, .ro⟩, ⟨4, 4, .ro⟩, ⟨8, 5, .ro⟩, ⟨13, 1, .ro⟩], 0x0, .managerKeeper⟩,
  ⟨"PCIE_TAGS_INUSE", 0x81a0040, [(0x8, 4)], 8, [⟨0, 13, .ro⟩], 0x0, .managerKeeper⟩,
  ⟨"PCIE_TAG_WAIT", 0x81a0060, [(0x8, 4)], 8, [⟨0, 64, .ro⟩], 0x0, .managerKeeper⟩,
  ⟨"PCIE_CPL_TIMEOUTS", 0x81a0080, [(0x8, 4)], 8, [⟨0, 64, .ro⟩], 0x0, .managerKeeper⟩,
  ⟨"PCIE_CPL_ERRORS", 0x81a00a0, [(0x8, 4)], 8, [⟨0, 64, .ro⟩], 0x0, .managerKeeper⟩,
  ⟨"PCIE_POISON_RX", 0x81a00c0, [(0x8, 4)], 8, [⟨0, 64, .ro⟩], 0x0, .managerKeeper⟩,
  ⟨"PCIE_UNEXP_CPL", 0x81a00e0, [(0x8, 4)], 8, [⟨0, 64, .ro⟩], 0x0, .managerKeeper⟩,
  ⟨"PCIE_REISSUES", 0x81a0100, [(0x8, 4)], 8, [⟨0, 64, .ro⟩], 0x0, .managerKeeper⟩,
  ⟨"PCIE_FLR_DISCARD", 0x81a0120, [(0x8, 4)], 8, [⟨0, 64, .ro⟩], 0x0, .managerKeeper⟩,
  ⟨"PCIE_RECOVERIES", 0x81a0140, [(0x8, 4)], 8, [⟨0, 32, .ro⟩], 0x0, .managerKeeper⟩,
  ⟨"PCIE_TAGS_QUARANTINED", 0x81a0160, [(0x8, 4)], 8, [⟨0, 13, .ro⟩], 0x0, .managerKeeper⟩,
  ⟨"PCIE_VEC_DROP", 0x81a0180, [(0x8, 4)], 8, [⟨0, 64, .ro⟩], 0x0, .managerKeeper⟩,
  ⟨"PCIE_REISSUE_LIMIT", 0x81a0200, [], 8, [⟨0, 3, .rw⟩], 0x2, .managerKeeper⟩,
  ⟨"PCIE_GATE_OPEN", 0x81a0208, [], 8, [⟨0, 13, .wo⟩, ⟨16, 1, .wo⟩], 0x0, .managerKeeper⟩,
  ⟨"PCIE_INT_STATUS", 0x81a0210, [], 8, [⟨0, 4, .rw1c⟩], 0x0, .managerKeeper⟩,
  ⟨"PCIE_INT_ENABLE", 0x81a0218, [], 8, [⟨0, 4, .rw⟩], 0xf, .managerKeeper⟩,
  ⟨"ANX_CMDS", 0x81a0220, [], 8, [⟨0, 64, .ro⟩], 0x0, .managerKeeper⟩,
  ⟨"ANX_BUSY", 0x81a0228, [], 8, [⟨0, 64, .ro⟩], 0x0, .managerKeeper⟩,
  ⟨"ANX_IGNORED", 0x81a0230, [], 8, [⟨0, 64, .ro⟩], 0x0, .managerKeeper⟩,
  ⟨"FN_GATE", 0x81a1000, [(0x8, 4104)], 8, [⟨0, 1, .ro⟩, ⟨1, 3, .ro⟩], 0x0, .managerKeeper⟩]

/-- Rows of the register maps, part 22. -/
def regRows22 : List RegRow := [
  ⟨"INST_FAULT_COUNT", 0x81b0000, [], 8, [⟨0, 10, .ro⟩], 0x0, .managerKeeper⟩,
  ⟨"INST_FAULT_POP", 0x81b0008, [], 8, [⟨0, 1, .wo⟩], 0x0, .managerKeeper⟩,
  ⟨"INST_FAULT_REC", 0x81b0010, [(0x8, 4)], 8, [⟨0, 64, .ro⟩], 0x0, .managerKeeper⟩,
  ⟨"INST_FAULT_OVERFLOW", 0x81b0040, [], 8, [⟨0, 64, .ro⟩], 0x0, .managerKeeper⟩,
  ⟨"INST_QUIESCE_LIMIT", 0x81b0048, [], 8, [⟨0, 32, .rw⟩], 0x186a0, .managerKeeper⟩,
  ⟨"INST_INT_STATUS", 0x81b0050, [], 8, [⟨0, 3, .rw1c⟩], 0x0, .managerKeeper⟩,
  ⟨"INST_INT_ENABLE", 0x81b0058, [], 8, [⟨0, 3, .rw⟩], 0x7, .managerKeeper⟩,
  ⟨"INST_INVAL_ADDR", 0x81b0060, [], 8, [⟨12, 52, .rw⟩], 0x0, .managerKeeper⟩,
  ⟨"INST_INVAL_CMD", 0x81b0068, [], 8, [⟨0, 13, .wo⟩, ⟨16, 2, .wo⟩], 0x0, .managerKeeper⟩,
  ⟨"INST_INVAL_STATUS", 0x81b0070, [], 8, [⟨0, 1, .ro⟩], 0x0, .managerKeeper⟩,
  ⟨"BOOT_STATUS", 0x81c0000, [], 8, [⟨0, 2, .ro⟩, ⟨4, 3, .ro⟩, ⟨8, 1, .ro⟩, ⟨9, 3, .ro⟩, ⟨12, 1, .ro⟩, ⟨13, 1, .ro⟩], 0x0, .keeperWrites⟩,
  ⟨"BOOT_SEQ", 0x81c0008, [], 8, [⟨0, 32, .ro⟩], 0x0, .keeperWrites⟩,
  ⟨"BOOT_FAIL", 0x81c0010, [(0x8, 3)], 8, [⟨0, 4, .ro⟩], 0x0, .keeperWrites⟩,
  ⟨"BOOT_KEYS", 0x81c0030, [], 8, [⟨0, 4, .ro⟩, ⟨4, 4, .ro⟩], 0x0, .keeperWrites⟩,
  ⟨"BOOT_CUSTODY", 0x81c0038, [], 8, [⟨0, 1, .ro⟩], 0x0, .keeperWrites⟩,
  ⟨"BOOT_HOLDUP_THRESH", 0x81c0040, [], 8, [⟨0, 7, .rw⟩], 0x55, .keeperWrites⟩,
  ⟨"BOOT_WATCHDOG", 0x81c0048, [], 8, [⟨0, 16, .rw⟩], 0x258, .keeperWrites⟩,
  ⟨"BOOT_COUNT", 0x81c0050, [], 8, [⟨0, 32, .ro⟩], 0x0, .keeperWrites⟩,
  ⟨"UPDATE_REFUSED", 0x81c0058, [], 8, [⟨0, 32, .ro⟩], 0x0, .keeperWrites⟩,
  ⟨"BOOT_INT_STATUS", 0x81c0060, [], 8, [⟨0, 4, .rw1c⟩], 0x0, .keeperWrites⟩,
  ⟨"BOOT_INT_ENABLE", 0x81c0068, [], 8, [⟨0, 4, .rw⟩], 0xf, .keeperWrites⟩,
  ⟨"MGMT_CMDS", 0x81d0000, [(0x8, 4)], 8, [⟨0, 64, .ro⟩], 0x0, .keeperWrites⟩,
  ⟨"MGMT_TIMEOUTS", 0x81d0040, [(0x8, 4)], 8, [⟨0, 32, .ro⟩], 0x0, .keeperWrites⟩,
  ⟨"MGMT_WAIT_MAX", 0x81d0080, [(0x8, 4)], 8, [⟨0, 32, .rc⟩], 0x0, .keeperWrites⟩]

/-- Rows of the register maps, part 23. -/
def regRows23 : List RegRow := [
  ⟨"MGMT_REJECTS", 0x81d00c0, [], 8, [⟨0, 64, .ro⟩], 0x0, .keeperWrites⟩,
  ⟨"MGMT_SLOT", 0x81d00c8, [], 8, [⟨0, 2, .ro⟩, ⟨2, 1, .ro⟩, ⟨16, 16, .ro⟩], 0x0, .keeperWrites⟩,
  ⟨"MGMT_DEFAULT_TIMEOUT", 0x81d00d0, [], 8, [⟨0, 32, .rw⟩], 0x2710, .managerKeeper⟩,
  ⟨"MGMT_RELAYED_OUT", 0x81d00d8, [], 8, [⟨0, 64, .ro⟩], 0x0, .keeperWrites⟩,
  ⟨"MGMT_RELAYED_IN", 0x81d00e0, [], 8, [⟨0, 64, .ro⟩], 0x0, .keeperWrites⟩,
  ⟨"MGMT_LATE_REPLY", 0x81d00e8, [], 8, [⟨0, 32, .ro⟩], 0x0, .keeperWrites⟩,
  ⟨"MGMT_EVENTS", 0x81d00f0, [], 8, [⟨0, 64, .ro⟩], 0x0, .keeperWrites⟩,
  ⟨"MGMT_EVENT_DROP", 0x81d00f8, [], 8, [⟨0, 32, .ro⟩], 0x0, .keeperWrites⟩,
  ⟨"MGMT_MCTP_BUSY", 0x81d0100, [], 8, [⟨0, 32, .ro⟩], 0x0, .keeperWrites⟩,
  ⟨"MGMT_REPLY_LOST", 0x81d0108, [], 8, [⟨0, 32, .ro⟩], 0x0, .keeperWrites⟩,
  ⟨"MGMT_BULK_FREE", 0x81d0110, [], 8, [⟨0, 30, .ro⟩], 0x20000000, .keeperWrites⟩,
  ⟨"MGMT_EVENT_CFG", 0x81d0118, [], 8, [⟨0, 12, .ro⟩, ⟨12, 1, .ro⟩, ⟨13, 1, .ro⟩], 0x0, .keeperWrites⟩,
  ⟨"MGMT_INT_STATUS", 0x81d0120, [], 8, [⟨0, 2, .rw1c⟩], 0x0, .keeperWrites⟩,
  ⟨"MGMT_INT_ENABLE", 0x81d0128, [], 8, [⟨0, 2, .rw⟩], 0x3, .keeperWrites⟩,
  ⟨"PWR_CAP", 0x81e0000, [], 8, [⟨0, 10, .rw⟩], 0x1c2, .managerKeeper⟩,
  ⟨"BOOST_CTRL", 0x81e0008, [], 8, [⟨0, 1, .rw⟩, ⟨8, 8, .rw⟩], 0x2801, .managerKeeper⟩,
  ⟨"PWR_TEMP_WARN", 0x81e0010, [], 8, [⟨0, 7, .rw⟩], 0x64, .managerKeeper⟩,
  ⟨"CORE_FREQ", 0x81e0018, [], 8, [⟨0, 12, .ro⟩], 0x960, .keeperWrites⟩,
  ⟨"PWR_NOW", 0x81e0020, [], 8, [⟨0, 20, .ro⟩], 0x0, .keeperWrites⟩,
  ⟨"PWR_AVG", 0x81e0028, [], 8, [⟨0, 20, .ro⟩], 0x0, .keeperWrites⟩,
  ⟨"PWR_PEAK", 0x81e0030, [], 8, [⟨0, 20, .rc⟩], 0x0, .keeperWrites⟩,
  ⟨"TEMP_MAX", 0x81e0038, [], 8, [⟨0, 16, .ro⟩], 0x0, .keeperWrites⟩,
  ⟨"PWR_BOOST_TIME", 0x81e0040, [], 8, [⟨0, 64, .ro⟩], 0x0, .keeperWrites⟩,
  ⟨"PWR_THROTTLE_TIME", 0x81e0048, [], 8, [⟨0, 64, .ro⟩], 0x0, .keeperWrites⟩]

/-- Rows of the register maps, part 24. -/
def regRows24 : List RegRow := [
  ⟨"PWR_ASPM_IDLE", 0x81e0050, [], 8, [⟨0, 16, .rw⟩], 0xa, .keeperWrites⟩,
  ⟨"PWR_LTR_ACTIVE", 0x81e0058, [], 8, [⟨0, 16, .rw⟩], 0xa, .keeperWrites⟩,
  ⟨"PWR_LTR_IDLE", 0x81e0060, [], 8, [⟨0, 16, .rw⟩], 0x3e8, .keeperWrites⟩,
  ⟨"PWR_INT_STATUS", 0x81e0068, [], 8, [⟨0, 4, .rw1c⟩], 0x0, .keeperWrites⟩,
  ⟨"PWR_INT_ENABLE", 0x81e0070, [], 8, [⟨0, 4, .rw⟩], 0xf, .keeperWrites⟩,
  ⟨"PWR_DOMAIN", 0x81e0100, [(0x8, 8)], 8, [⟨0, 20, .ro⟩], 0x0, .keeperWrites⟩,
  ⟨"TEMP", 0x81e0140, [(0x8, 9)], 8, [⟨0, 16, .ro⟩], 0x0, .keeperWrites⟩,
  ⟨"PMU_FREEZE", 0x81f0000, [], 8, [⟨0, 1, .rw⟩, ⟨1, 1, .rw⟩, ⟨8, 1, .wo⟩], 0x0, .managerKeeper⟩,
  ⟨"PMU_FREEZE_AT", 0x81f0008, [], 8, [⟨0, 64, .ro⟩], 0x0, .managerKeeper⟩,
  ⟨"STRAP_STATUS", 0x8200000, [], 8, [⟨0, 1, .ro⟩, ⟨1, 1, .ro⟩, ⟨2, 1, .ro⟩, ⟨3, 1, .ro⟩, ⟨4, 1, .ro⟩, ⟨5, 2, .ro⟩], 0x1f, .managerKeeper⟩,
  ⟨"GPIO_DIR", 0x8200008, [], 8, [⟨0, 8, .rw⟩], 0x0, .managerKeeper⟩,
  ⟨"GPIO_OUT", 0x8200010, [], 8, [⟨0, 8, .rw⟩], 0x0, .managerKeeper⟩,
  ⟨"GPIO_IN", 0x8200018, [], 8, [⟨0, 8, .ro⟩], 0x0, .managerKeeper⟩,
  ⟨"PIN_STATUS", 0x8200020, [], 8, [⟨0, 1, .ro⟩, ⟨1, 1, .ro⟩, ⟨2, 1, .ro⟩], 0x0, .managerKeeper⟩,
  ⟨"VDD_CPU_TARGET", 0x8200028, [], 8, [⟨0, 10, .ro⟩], 0x320, .managerKeeper⟩,
  ⟨"NVME_CTRL_CFG", 0x8410000, [(0x8, 4104)], 8, [⟨0, 1, .rw⟩, ⟨1, 1, .rw⟩, ⟨2, 2, .rw⟩, ⟨8, 20, .rw⟩], 0x6443500, .managerKeeper⟩,
  ⟨"NVME_CQ_SLICE", 0x8420000, [(0x40, 4104), (0x8, 8)], 8, [⟨0, 64, .rw⟩], 0x0, .managerKeeper⟩,
  ⟨"INST_CFG", 0x8510000, [(0x8, 4104)], 8, [⟨0, 3, .ro⟩, ⟨4, 3, .ro⟩, ⟨8, 1, .rw⟩, ⟨12, 5, .rw⟩, ⟨20, 3, .ro⟩], 0x1e000, .managerKeeper⟩,
  ⟨"INST_TABLE", 0x8520000, [(0x8, 4104)], 8, [⟨12, 52, .rw⟩], 0x0, .managerKeeper⟩,
  ⟨"INST_QUOTA_A", 0x8530000, [(0x8, 4104)], 8, [⟨0, 13, .rw⟩, ⟨16, 13, .rw⟩, ⟨32, 9, .rw⟩, ⟨48, 14, .rw⟩], 0x2000010010001000, .managerKeeper⟩,
  ⟨"INST_QUOTA_B", 0x8540000, [(0x8, 4104)], 8, [⟨0, 21, .rw⟩, ⟨32, 21, .rw⟩], 0x10000000100000, .managerKeeper⟩,
  ⟨"INST_QUOTA_C", 0x8550000, [(0x8, 4104)], 8, [⟨0, 15, .rw⟩], 0x4000, .managerKeeper⟩,
  ⟨"INST_USE_A", 0x8560000, [(0x8, 4104)], 8, [⟨0, 41, .ro⟩], 0x0, .managerKeeper⟩,
  ⟨"INST_USE_B", 0x8570000, [(0x8, 4104)], 8, [⟨0, 53, .ro⟩], 0x0, .managerKeeper⟩]

/-- Rows of the register maps, part 25. -/
def regRows25 : List RegRow := [
  ⟨"INST_FAULTS", 0x8580000, [(0x8, 4104)], 8, [⟨0, 32, .ro⟩], 0x0, .managerKeeper⟩,
  ⟨"INST_OPS_WAIT", 0x8590000, [(0x8, 4104)], 8, [⟨0, 64, .ro⟩], 0x0, .managerKeeper⟩,
  ⟨"FN_STATUS", 0x10000000000, [(0x1000, 4104)], 8, [⟨0, 1, .ro⟩, ⟨1, 3, .ro⟩, ⟨8, 1, .ro⟩, ⟨9, 23, .rsv⟩], 0x0, .hostFunction⟩,
  ⟨"FN_INTX_PENDING", 0x10000000100, [(0x1000, 4104), (0x8, 32)], 8, [⟨0, 64, .rw1c⟩], 0x0, .hostFunction⟩,
  ⟨"ANX_OPCODE", 0x10010000000, [], 4, [⟨0, 16, .rw⟩, ⟨16, 16, .rsv⟩], 0x0, .pf0Host⟩,
  ⟨"ANX_STATUS", 0x10010000004, [], 4, [⟨0, 3, .rw⟩, ⟨3, 13, .rsv⟩, ⟨16, 16, .ro⟩], 0x0, .pf0Host⟩,
  ⟨"ANX_LENGTH", 0x10010000008, [], 4, [⟨0, 12, .rw⟩], 0x0, .pf0Host⟩,
  ⟨"ANX_SEQ", 0x1001000000c, [], 4, [⟨0, 32, .rw⟩], 0x0, .pf0Host⟩,
  ⟨"ANX_INT", 0x10010000010, [], 4, [⟨0, 1, .rw⟩], 0x0, .pf0Host⟩,
  ⟨"ANX_VERSION", 0x10010000014, [], 4, [⟨0, 32, .ro⟩], 0x10003, .pf0Host⟩,
  ⟨"ANX_PAYLOAD", 0x10010000080, [(0x4, 992)], 4, [⟨0, 32, .rw⟩], 0x0, .pf0Host⟩,
  ⟨"RCV_SR_BASE", 0x10020000000, [], 8, [⟨12, 52, .rw⟩], 0x0, .pf0Host⟩,
  ⟨"RCV_CR_BASE", 0x10020000008, [], 8, [⟨12, 52, .rw⟩], 0x0, .pf0Host⟩,
  ⟨"RCV_CFG", 0x10020000010, [], 8, [⟨0, 5, .rw⟩, ⟨16, 11, .rw⟩], 0x6, .pf0Host⟩,
  ⟨"RCV_CTRL", 0x10020000018, [], 8, [⟨0, 1, .rw⟩], 0x0, .pf0Host⟩,
  ⟨"RCV_STATUS", 0x10020000020, [], 8, [⟨0, 16, .ro⟩], 0x0, .pf0Host⟩]

/-- The rows in rising order of their places (R582 to R584), in parts: a part holds every row whose place is below the bound given and not in an
earlier part. -/
def regBanks : List (Nat × List RegRow) :=
  [(0x4010010, regRows0), (0x4030040, regRows1), (0x40409e0, regRows2), (0x4060000, regRows3), (0x4060250, regRows4), (0x4080008, regRows5), (0x4080180, regRows6), (0x4090098, regRows7), (0x40a0150, regRows8), (0x40b0038, regRows9), (0x40d0040, regRows10), (0x40d0118, regRows11), (0x40f0098, regRows12), (0x4200030, regRows13), (0x4600010, regRows14), (0x8100080, regRows15), (0x8120010, regRows16), (0x8140018, regRows17), (0x8150630, regRows18), (0x8170058, regRows19), (0x8190048, regRows20), (0x81a9040, regRows21), (0x81d00a0, regRows22), (0x81e0050, regRows23), (0x8578040, regRows24), (0x10020000028, regRows25)]

/-- Every row of every register map (R582 to R584). -/
def regTable : List RegRow := (regBanks.map (fun b => b.2)).flatten

end Sys2Proof.Machine
end

