-- ==== Sys2Proof/Machine/State.lean ====
section
/-!
DEFINITION. The state of the block: every register (one register file, read by the addresses of RegMap), every memory, table,
queue and buffer the spec gives the device, and the queue of waiting commands. All of it is plain data. A field's default is
its value at reset (State.reset); the log's entries name those the spec gives no reset value.
-/

namespace Sys2Proof.Machine

/-- An interrupt to the Keeper that its event log command has not taken yet (R45): the status register, the bit, and what
the owning chapter records with it. -/
structure KeeperInt where
  addr : Nat
  bit : Nat
  detail : Nat
  deriving DecidableEq, Repr

/-- A record of the device event log (R45, R519): its sequence number, the FT_MONO value, the status register and bit (or a
cause of its own, with addr 0), and the detail. -/
structure LogRec where
  seq : Nat
  time : Nat
  addr : Nat
  bit : Nat
  detail : Nat
  deriving DecidableEq, Repr

/-- A poisoned location (R42 to R44): the memory (0 HBM, 1 + s slice SRAM of s, 5 Keeper SRAM) and the address of its word. -/
abbrev Poison := Nat × Nat

/-! Fabric Time and the timer wheels (chapter 02). -/

/-- What a timer wheel entry drives (R62 table). -/
inductive TwConsumer where
  /-- a launch-time frame, named by its egress id -/
  | launch (egress : Nat)
  /-- a KRA retransmit timer of a queue pair -/
  | kraRetry (qp : Nat)
  /-- a KRA RNR timer of a queue pair -/
  | kraRnr (qp : Nat)
  /-- interrupt moderation of a completion ring -/
  | ringMod (ring : Nat)
  /-- NVMe interrupt coalescing of a completion queue -/
  | nvmeCoalesce (inst cq : Nat)
  /-- Autonomous Power State Transition of a controller -/
  | apst (inst : Nat)
  /-- the flash maintenance window -/
  | window
  /-- a firmware timer: cluster, channel, cookie -/
  | firmware (cluster channel cookie : Nat)
  deriving DecidableEq, Repr

/-- A timer wheel entry: ABS entries expire at a Fabric Time value (96 bits), MONO entries at an FT_MONO value (R62). -/
structure TwEntry where
  abs : Bool
  expiry : Nat
  consumer : TwConsumer
  seq : Nat
  deriving DecidableEq, Repr

/-- The timer wheel of a slice: pending entries in insertion order, entries delivered and held by their consumers, and the
expired consumers whose own command has not run yet. -/
structure Wheel where
  pending : List TwEntry := []
  held : List TwEntry := []
  fired : List TwConsumer := []
  seq : Nat := 0
  deriving DecidableEq, Repr

/-- The Keeper's PTP client on one port (R51): instants in units of 0.125 ns. -/
structure PtpPort where
  port : Nat
  /-- FT_MONO of the last Sync and of the last Announce taken (R54) -/
  syncAt : Nat := 0
  announceAt : Nat := 0
  /-- the Sync whose time is awaited or last used: its sequence number, its arrival in Fabric Time, and its correction; a two-step one waits for
  its Follow_Up -/
  syncSeq : Nat := 0
  syncRx : Nat := 0
  syncCorr : Int := 0
  wait : Bool := false
  /-- the reference's time of the last complete Sync, corrected -/
  sentAt : Int := 0
  /-- the delay request that is out: its sequence number and its departure; then the request's arrival at the peer, as Pdelay_Resp gives it -/
  reqSeq : Nat := 0
  reqTx : Nat := 0
  peerRx : Option Int := none
  respRx : Nat := 0
  /-- the mean path delay, once measured -/
  delay : Option Int := none
  deriving DecidableEq, Repr

/-- Fabric Time, FT_MONO and the discipline state that no register shows. -/
structure TimeState where
  /-- Fabric Time in units of 0.125 ns: a tick is 5 units, a nanosecond 8 (R46, R47) -/
  units : Nat := 0
  /-- FT_MONO (R48) -/
  mono : Nat := 0
  /-- the sources that are valid: (code, PTP port) and the FT_MONO value each became valid at (R54, R56) -/
  valid : List ((Nat × Nat) × Nat) := []
  /-- the source in use is the backup -/
  onBackup : Bool := false
  /-- consecutive measurements within FT_LOCK_THRESH (R55) -/
  smallRun : Nat := 0
  /-- FT_MONO at entry to HOLDOVER (R55) -/
  holdSince : Nat := 0
  /-- an edge has started a spacing, and the accepted edges in a row (R52) -/
  ppsSeen : Bool := false
  ppsRun : Nat := 0
  /-- FT_MONO of the last accepted edge (R54) -/
  ppsAt : Nat := 0
  /-- the PTP client's ports (R51) -/
  ptp : List PtpPort := []
  /-- changes of FT_FREQ_ADJ as (FT_MONO, value), newest first (R55: the average over the last 64 s) -/
  freqLog : List (Nat × Nat) := []
  /-- FT_NOW_FRAC as each agent's last FT_NOW_SEC read latched it (R591) -/
  fracLatch : List (Agent × Nat) := []
  /-- TW_ARM_TIME and TW_ARM_RESULT of each agent and slice (R63) -/
  armTime : List ((Agent × Nat) × Nat) := []
  armResult : List ((Agent × Nat) × Nat) := []
  /-- GPIO7 direction and output value as they were before source 2 was selected (R71) -/
  gpio7 : Option (Nat × Nat) := none
  /-- the PTP client's configuration: domain, delay mechanism, transport (R51) -/
  ptpDomain : Nat := 0
  ptpDelayMech : Nat := 0
  ptpTransport : Nat := 0
  /-- the log sync interval of TIME_PTP_CFG (R520) -/
  ptpLogSync : Nat := 0
  wheels : List Wheel := [{}, {}, {}, {}]
  deriving DecidableEq, Repr

/-! Deadline arbitration (chapter 03). -/

/-- A requester at a destination with back-off (R85): its consecutive losses, the last cycle it must stay silent in, and
the cycle it first presented the request it still waits with. -/
structure Requester where
  source : Nat
  losses : Nat := 0
  silentUntil : Option Nat := none
  first : Option Nat := none
  deriving DecidableEq, Repr

/-- An arbiter with back-off: its requesters, the last tie-winner (R83), the FT_MONO value of its last cycle, and the flits of the last two grants
as (cycle, SOURCE, CLASS): the one granted in cycle n moves on the data path in cycle n + 1 (R80). -/
structure Arbiter where
  requesters : List Requester := []
  tie : Nat := 0
  last : Option Nat := none
  granted : Option (Nat × Nat × Nat) := none
  moved : Option (Nat × Nat × Nat) := none
  deriving DecidableEq, Repr

/-- A resource without back-off (R73). -/
inductive QPoint where
  | pbPool | tagPool | hbm | cipher
  deriving DecidableEq, Repr

/-- What a waiting request asks a resource without back-off for. -/
inductive QWork where
  /-- a packet buffer cell of a class for a frame (by frame id); class 2 belongs to no frame -/
  | cell (cls frame : Nat)
  /-- an operation tag for an operation of an instance -/
  | tag (inst op : Nat)
  /-- an HBM access of a class -/
  | access (addr cls : Nat)
  /-- a cipher job, by its id -/
  | job (id : Nat)
  deriving DecidableEq, Repr

/-- A request waiting at a resource without back-off (R74), in arrival order in the list. -/
structure QReq where
  point : QPoint
  slice : Nat
  deadline : Nat
  source : Nat
  work : QWork
  deriving DecidableEq, Repr

structure ArbState where
  /-- arbiters of the slices, at 32 s + d, and of the hub, at 128 + d -/
  arbiters : Map Arbiter := []
  /-- requests waiting at points without back-off -/
  waiting : List QReq := []
  /-- tags granted to waiting operations and not yet used: slice, instance, operation (R74) -/
  tagGrants : List (Nat × Nat × Nat) := []
  /-- HBM accesses granted after a wait and not yet made: addresses (R74) -/
  hbmGrants : List Nat := []
  /-- the points without back-off that have decided in this fabric cycle: slice, point (R74) -/
  decided : List (Nat × Nat) := []
  /-- tie pointers of the HBM schedulers (s) and the cipher dispatchers (4 + s) (R83) -/
  ties : Map Nat := []
  /-- what operations may use of a class register, newest first: since which FT_MONO value, the register, the values (R79) -/
  classLog : List (Nat × Nat × List Nat) := []
  /-- priorities under 802.1Qbb pause: (slice, port position, priority) and the FT_MONO instant the pause ends (R81) -/
  paused : List ((Nat × Nat × Nat) × Nat) := []
  deriving DecidableEq, Repr

/-! Clusters, threads and channels (chapter 04). What a register shows (thread and channel states, PCs, general registers,
regions, counters) stands in the register file; here stands the rest. -/

/-- A thread, beside its registers. -/
structure ThreadX where
  /-- the core cycle its WAITSPIN pause ends (R99) -/
  pauseUntil : Option Nat := none
  /-- the core cycle of its last WAITSPIN (R99) -/
  lastSpin : Nat := 0
  /-- the fraction FTREAD selector 0 latched (R101) -/
  ftLatch : Nat := 0
  /-- the 64-byte line of its load reservation (R92) -/
  reservation : Option Nat := none
  /-- its state before a debug halt, and a THREAD_CTRL command that waits for the resume (R114, R124) -/
  preHalt : Nat := 0
  pendingCmd : Nat := 0
  deriving DecidableEq, Repr

/-- A record of the cluster fault queue (R113). -/
structure FaultRec where
  thread : Nat
  code : Nat
  clusterEvent : Bool
  pc : Nat
  tval : Nat
  time : Nat
  deriving DecidableEq, Repr

/-- What a hardware message is beside its doublewords: nothing more; a timer's, whose doubleword 2 is FT_MONO at its delivery (R110); or a frame's
under token t of its slice, whose doubleword 3 is FT_MONO at its delivery (R190). -/
inductive HwMsg where
  | plain | timer
  | token (t : Nat)
  deriving DecidableEq, Repr

/-- A cluster, beside its registers. -/
structure ClusterX where
  /-- deferred hardware messages, oldest first: channel, doublewords and kind (R111) -/
  deferred : List (Nat × List Nat × HwMsg) := []
  /-- the fault queue, oldest first (R113) -/
  faults : List FaultRec := []
  /-- CLUSTER_STALL has been raised in the episode under way (R120) -/
  stallRaised : Bool := false
  /-- CLUSTER_DEADLOCK has been raised since DEADLOCK_COUNT last was zero (R121) -/
  deadlockRaised : Bool := false
  /-- the stall condition has failed since SPIN_COUNT last counted (R119) -/
  broken : Bool := false
  deriving DecidableEq, Repr

structure CoreState where
  /-- threads by hart key 128 s + 32 k + i -/
  threads : Map ThreadX := []
  /-- clusters by 4 s + k -/
  clusters : Map ClusterX := []
  /-- the doublewords of each channel's message, by 64 (4 s + k) + m (R103) -/
  chData : Map (List Nat) := []
  /-- CSRs of harts, by 4096 (128 s + 32 k + i) + number; an unlisted one holds its reset value -/
  csrs : Map Word := []
  /-- of each core, by 32 s + 8 k + c: one more than the core cycle of its last issue, and the thread that issued (R96) -/
  issued : Map (Nat × Nat) := []
  /-- the triggers of each core, by 8 × (32 s + 8 k + c) + 2 n: tdata1 of trigger n, and tdata2 after it (R124) -/
  triggers : Map Word := []
  /-- core cycles that the clusters of each slice have run since reset, and the remainder of the conversion from fabric ticks, in 1/1,600 cycle -/
  cycles : List Nat := [0, 0, 0, 0]
  cycleRem : Nat := 0
  /-- mip of each Curator, by 4 s + k: CFIP (bit 16, R113) and CPOIP (bit 17, R549) -/
  cfip : List Bool := List.replicate 16 false
  cpoip : List Bool := List.replicate 16 false
  /-- cluster dumps, newest first: the cluster, FT_MONO, and every captured (address, value) of it (R122) -/
  dumps : List (Nat × Nat × List (Nat × Nat)) := []
  deriving DecidableEq, Repr

/-! Memories. -/

structure MemState where
  /-- HBM, by device HBM address (R20) -/
  hbm : List Host.Cell := []
  /-- Keeper SRAM (R582) -/
  keeperSram : List Host.Cell := []
  deriving DecidableEq, Repr

/-! Work rings (chapter 05). Bases, configuration, states, published heads and tails stand in registers. -/

/-- A fetched descriptor: its extended index, its 64 bytes as eight doublewords (R129), and the FT_MONO value of the doorbell
that made it available (R75). -/
structure Desc where
  index : Nat
  dws : List Nat
  rung : Nat := 0
  deriving DecidableEq, Repr

/-- A job of a submission ring (R139, R142): its descriptors in ring order, and, once its work is done, its outcome. A job with
`preset` ends with that status when it starts (R130, R140). -/
structure RJob where
  id : Nat
  slice : Nat
  ring : Nat
  descs : List Desc
  preset : Option Nat := none
  /-- the command of its opcode has taken it up -/
  taken : Bool := false
  begun : Nat := 0
  /-- its completion is signalled at once, as IRQ_NOW asks (R260, EVENT) -/
  event : Bool := false
  /-- STATUS, RESULT, TS_VALID -/
  outcome : Option (Nat × Nat × Bool) := none
  deriving DecidableEq, Repr

/-- A submission ring, beside its registers. -/
structure SrX where
  /-- the extended index that is fetched next -/
  fetch : Nat := 0
  /-- the open chain (R139) -/
  chain : List Desc := []
  /-- skipping descriptors: 0 no, 1 a run without FIRST, 2 up to the next LAST (R140) -/
  skip : Nat := 0
  /-- fetched jobs that have not started, oldest first -/
  ready : List RJob := []
  /-- started jobs whose completion is neither written nor held, oldest first -/
  started : List RJob := []
  /-- ENABLE = 0 has been written since the ring left ACTIVE (R148) -/
  offWritten : Bool := false
  /-- the Keeper's log is quiet for this ring until this FT_MONO value (R138) -/
  overrunQuiet : Nat := 0
  overrunSeen : Bool := false
  /-- posted receive buffers: started RX_POST jobs are taken from `started` by job id (R152) -/
  posted : List Nat := []
  /-- accepted doorbells whose descriptors are not all fetched: tail and FT_MONO (R75) -/
  bells : List (Nat × Nat) := []
  /-- counted in INST_USE_A (R460) -/
  used : Bool := false
  deriving DecidableEq, Repr

/-- A completion entry (R131), without its PHASE. -/
structure Compl where
  status : Nat
  tsValid : Bool
  sr : Nat
  srHead : Nat
  tag : Nat
  result : Nat
  irq : Bool
  /-- the class of its job, and when that began: its write belongs to the job (R75, R128) -/
  cls : Nat := 0
  begun : Nat := 0
  deriving DecidableEq, Repr

/-- A completion ring, beside its registers. -/
structure CrX where
  /-- o: started jobs whose completion is neither written nor held (R143) -/
  o : Nat := 0
  /-- the holding area, oldest first (R144) -/
  held : List Compl := []
  /-- completions written since the last signal (R147) -/
  unsignalled : Nat := 0
  used : Bool := false
  /-- completions of units whose write waits for a host's answer, oldest first; each still holds its credit (R143, R453) -/
  late : List Compl := []
  deriving DecidableEq, Repr

structure RingState where
  /-- by 8,192 × slice + q -/
  srs : Map SrX := []
  /-- by 4,096 × slice + c -/
  crs : Map CrX := []
  nextJob : Nat := 1
  deriving DecidableEq, Repr

/-! The PCIe endpoint (chapter 13). -/

/-- What a function's configuration space holds that the device acts on. -/
structure FnX where
  bme : Bool := false
  intDisable : Bool := false
  msiEnable : Bool := false
  /-- log2 of the enabled MSI vectors -/
  mme : Nat := 0
  msiAddr : Nat := 0
  msiData : Nat := 0
  msiMask : Nat := 0
  msiPending : Nat := 0
  msixEnable : Bool := false
  functionMask : Bool := false
  /-- Completion Timeout Value -/
  cto : Nat := 0
  /-- Max Read Request Size and Max Payload Size codes: 128 × 2^code bytes -/
  mrrs : Nat := 2
  mps : Nat := 0
  relaxed : Bool := true
  tag10 : Bool := false
  /-- Device Control error reporting enables: correctable, non-fatal, fatal -/
  corEn : Bool := false
  nonFatalEn : Bool := false
  fatalEn : Bool := false
  serr : Bool := false
  /-- AER: uncorrectable status, mask, severity; correctable status, mask; First Error Pointer and header log -/
  uncStatus : Nat := 0
  uncMask : Nat := 0x400000
  uncSev : Nat := 0x462030
  corStatus : Nat := 0
  corMask : Nat := 0x4000
  /-- Device Status: correctable, non-fatal, fatal and unsupported request detected -/
  devStatus : Nat := 0
  firstErr : Option (Nat × List Nat) := none
  atsEnable : Bool := false
  aspm : Nat := 0
  ltrEnable : Bool := false
  ltrMax : Nat := 0
  d3hot : Bool := false
  vfEnable : Bool := false
  numVfs : Nat := 0
  /-- a Function Level Reset that began at this FT_MONO value has not finished (R435) -/
  flrSince : Option Nat := none
  /-- what the host has written to the fields of configuration space that the device only keeps, by the offset of their doubleword (R413, R414) -/
  cfg : Map Nat := []
  deriving DecidableEq, Repr

/-- An entry of an MSI-X table (R421); masked at reset, as the base specification has it. -/
structure MsixEntry where
  addr : Nat := 0
  data : Nat := 0
  mask : Bool := true
  tag : Nat := 0
  deriving DecidableEq, Repr

/-- An outstanding read of host memory (R424 to R427): its link and tag, the function, what it reads, when its timer fires, the
reissues left to it, and whether its data is discarded on arrival (R434, R435). -/
structure HostRead where
  link : Nat
  tag : Nat
  fn : Nat
  slice : Nat
  addr : Nat
  len : Nat
  due : Nat
  /-- it carries a translated address (R453) -/
  translated : Bool := false
  reissues : Nat := 0
  discard : Bool := false
  flr : Bool := false
  deriving DecidableEq, Repr

/-- The Annex Mailbox, beside its window (R440 to R447). -/
structure AnnexX where
  /-- the Annex holds the intake slot -/
  holds : Bool := false
  /-- FT_MONO at which DONE was reached -/
  doneAt : Nat := 0
  /-- seconds of holding already logged (R446) -/
  logged : Nat := 0
  /-- the running command is discarded when it finishes (R447) -/
  discarded : Bool := false
  deriving DecidableEq, Repr

structure PcieState where
  /-- functions by instance id -/
  fns : Map FnX := []
  /-- MSI-X entries by 2,048 × instance + vector -/
  msix : Map MsixEntry := []
  /-- pending bits of MSI-X: 2,048 × instance + vector -/
  pba : List Nat := []
  reads : List HostRead := []
  /-- the next tag to try on each link -/
  nextTag : List Nat := [0, 0, 0, 0]
  /-- links on which a read found no free tag and waits for one (R424) -/
  tagWait : List Nat := []
  /-- data that has arrived and waits for the operation that asked for it: function, address, bytes -/
  arrived : List (Nat × Nat × List Byte) := []
  /-- quarantined tags: link, tag, the FT_MONO value at which it becomes usable (R426) -/
  quarantine : List (Nat × Nat × Nat) := []
  annex : AnnexX := {}
  /-- the link of each PF (R411) -/
  pfLink : List Nat := [0, 0, 0, 0, 0, 0, 0, 0]
  /-- the configured VF count of each PF -/
  vfs : List Nat := [0, 0, 0, 0, 0, 0, 0, 0]
  deriving DecidableEq, Repr

/-! Instances (chapter 14). -/

/-- An IOTLB entry (R454): a leaf of 4 KiB or 2 MiB with its rights and target, and, under HOST_ATS, the host's answers for its
4 KiB pages: page offset, translated page address, readable, writable. -/
structure Iotlb where
  inst : Nat
  large : Bool
  page : Nat
  read : Bool
  write : Bool
  target : Nat
  out : Nat
  ats : List (Nat × Nat × Bool × Bool) := []
  deriving DecidableEq, Repr

/-- A record of the hub fault queue (R459). -/
structure ItuFault where
  inst : Nat
  reason : Nat
  access : Nat
  slice : Nat
  unit : Nat
  count : Nat
  ia : Nat
  time : Nat
  deriving DecidableEq, Repr

/-- The events of an instance event log (R464). -/
inductive InstEvent where
  | flr | bmeCleared | gateClosed | translationFault | quiesced | frozen | saved | restored | thawed | homeLost
  | anchorLost | revokeForced | cqLost | quotaRefused
  /-- a report on a removed instance, for which R464 names no event -/
  | removed
  deriving DecidableEq, Repr

/-- A record of a loss report: KIND, OBJECT, ARG0, ARG1 (R464). -/
structure LossRec where
  kind : Nat
  object : Nat
  arg0 : Nat
  arg1 : Nat
  deriving DecidableEq, Repr

structure LossReport where
  number : Nat
  cause : Nat
  time : Nat
  records : List LossRec
  deriving DecidableEq, Repr

structure InstX where
  /-- the instance event log, oldest first: event, detail, FT_MONO -/
  log : List (InstEvent × Nat × Nat) := []
  reports : List LossReport := []
  nextReport : Nat := 0
  /-- FT_MONO at which QUIESCING began (R461) -/
  quiesceAt : Nat := 0
  /-- a QUIESCE reply waits -/
  quiesceWaits : Bool := false
  /-- TRANSLATION_FAULT entries written in the second given (R459) -/
  faultSecond : Nat := 0
  faultEntries : Nat := 0
  deriving DecidableEq, Repr

structure InstState where
  insts : Map InstX := []
  /-- the IOTLBs of the four slices, newest use first -/
  iotlb : List (List Iotlb) := [[], [], [], []]
  /-- ATS Translation Requests that wait for the host: slice, instance, 4 KiB page of the instance address, output page -/
  atsWait : List (Nat × Nat × Nat × Nat) := []
  faults : List ItuFault := []
  /-- an invalidation in progress: the reads (link, tag) and KRA frames that were translated before it (R455) -/
  inval : Option (List (Nat × Nat) × List Nat) := none
  /-- ATS invalidations that wait for their users: link, instance, and those reads (R456) -/
  atsInval : List (Nat × Nat × List (Nat × Nat)) := []
  /-- tags held in each slice for each instance, by 4 × instance + slice (R34, R460) -/
  tags : Map Nat := []
  deriving DecidableEq, Repr

/-! Federated endpoint and Korrum Link packets (chapter 10). -/

/-- A Korrum Link packet (R303). -/
structure KPkt where
  typ : Nat
  vc : Nat
  cls : Nat
  dest : Nat
  src : Nat
  hops : Nat := 0
  mayIgnore : Bool := false
  handle : Nat := 0
  payload : List Byte
  /-- not on the link: what a TIME packet is (R318) -/
  kind : Nat := 0
  /-- not on the link: FT_MONO when its first flit arrived here, from which its deadline runs (R75, R77) -/
  begun : Nat := 0
  deriving DecidableEq, Repr

/-- One side of a federated binding (R312 to R315). -/
structure FeBinding where
  anchorInst : Nat
  homeInst : Nat
  peer : Nat
  gen : Nat
  /-- this device is the anchor -/
  anchor : Bool
  /-- 1 BOUND, 2 DETACHED, 3 ERROR -/
  state : Nat := 1
  txSeq : Nat := 0
  rxSeq : Nat := 0
  /-- request-class packets ahead of the expected FE_SEQ, and since when the gap lasts (R314) -/
  held : List (Nat × KPkt) := []
  gapSince : Option Nat := none
  /-- the home has applied BME_OFF -/
  bmeOff : Bool := false
  /-- FT_MONO at which FLR was sent to the home and waits for FLR_DONE (R315) -/
  flrSent : Option Nat := none
  deriving DecidableEq, Repr

/-- A read the home has sent to the anchor (R313): its RTAG, binding, slice, address, length, and the FT_MONO value of its
timeout. -/
structure FeRead where
  rtag : Nat
  homeInst : Nat
  slice : Nat
  addr : Nat
  len : Nat
  due : Nat
  deriving DecidableEq, Repr

structure FeState where
  bindings : List FeBinding := []
  /-- how often each pair has been bound: by 2^27 × the other device + 2^13 × anchor instance + home instance + 2^26 at the anchor (R312) -/
  gens : Map Nat := []
  reads : List FeRead := []
  nextRtag : Nat := 0
  /-- reads that ended with a status and that their operation has not seen: instance, address, length, status -/
  failed : List (Nat × Nat × Nat × Nat) := []
  /-- host reads of a bound function's window that wait for MMIO_CPL: anchor instance, BAR offset, FT_MONO of the timeout -/
  mmio : List (Nat × Nat × Nat) := []
  /-- FE packets that are in order and wait for their command, oldest first -/
  inbox : List KPkt := []
  /-- FE_READ packets whose host data has not arrived -/
  serving : List KPkt := []
  deriving DecidableEq, Repr

/-! Frames, parsing, the Catalogue and the Address Table (chapters 01, 06, 07). -/

/-- A header vector as the device and the program have written it so far (R165). -/
structure HVec where
  cls : Nat := 0
  layerOff : List Nat := [255, 255, 255, 255, 255, 255, 255, 255]
  layerProto : List Nat := [0, 0, 0, 0, 0, 0, 0, 0]
  /-- vector bytes 40 to 127 -/
  area : List Byte := List.replicate 88 0
  flowHash : Nat := 0
  steps : Nat := 0
  trunc : Bool := false
  lenKnown : Bool := false
  deriving DecidableEq, Repr

/-- Where a frame (or another operation that carries a Flow Handle) came from (R183). -/
inductive Origin where
  /-- an Ethernet port: slice and port position -/
  | eth (slice port : Nat)
  /-- a Korrum Link packet of a type (R304), from a federation member -/
  | korrum (typ src : Nat)
  /-- a TX_FRAME job -/
  | tx (slice ring job : Nat)
  /-- the device itself -/
  | self
  deriving DecidableEq, Repr

/-- Where a frame stands. -/
inductive FStage where
  /-- arriving, not yet in the parse queue -/
  | arriving
  /-- in the parse queue -/
  | queued
  /-- in a parse context -/
  | parsing
  /-- parsed; waits for the earlier frames of its port (R157) and its rule lookup -/
  | parsed
  /-- waits for its Address Table lookup (R198) -/
  | addrLookup
  /-- waits for the learning verdict (R203) -/
  | learning
  /-- holds a handle; waits for its Catalogue lookup, and for handoff when homed elsewhere -/
  | handled
  /-- looked up; waits for its cipher transform -/
  | transform
  /-- steered; waits to be received whole before it is delivered or sent -/
  | steered
  /-- on an egress queue, through egress entries -/
  | egress
  /-- held by a thread under a token -/
  | token
  /-- at the home slice's KRA receive stage (R272) -/
  | kra
  /-- at the NVMe front end, to be captured (R358) -/
  | capture
  /-- no frame: the packet buffer cells in which an NVMe command stages its data (R36) -/
  | staging
  deriving DecidableEq, Repr

/-- What a Catalogue lookup read (R185), as far as the work still needs it. -/
structure CatRead where
  handle : Nat
  entry : Nat
  deriving DecidableEq, Repr

/-- A frame, or another operation that carries a Flow Handle, inside the device. -/
structure Frame where
  id : Nat
  origin : Origin
  /-- the slice it is in -/
  slice : Nat
  stage : FStage
  /-- all its bytes, without FCS (a frame that is still arriving has only the first `arrived`) -/
  data : List Byte
  arrived : Nat
  /-- malformed classes the MAC raises: 1 RUNT, 2 FCS_ERROR, 3 OVERSIZE (R170) -/
  macMal : List Nat := []
  /-- the MAC's verdict has been given -/
  whole : Bool := false
  rxTs : Nat := 0
  begun : Nat := 0
  /-- cells held: slice, class, number -/
  cells : List (Nat × Nat × Nat) := []
  /-- cells it has asked for and not been granted (R37) -/
  cellWait : Nat := 0
  vec : HVec := {}
  mal : Nat := 0
  /-- the handle it carries -/
  handle : Option Nat := none
  bridge : Nat := 0
  learn : Bool := false
  ruleHandle : Nat := 0
  learnPending : Bool := false
  prefetch : Bool := false
  /-- its PB class and deadline class once looked up -/
  pbClass : Nat := 0
  dlClass : Nat := 0
  looked : Option CatRead := none
  /-- destination for frames that go over Korrum Link: federation id, handle, class -/
  fed : Option (Nat × Nat × Nat) := none
  exception : Bool := false
  /-- flood group it is to be copied to, once whole (R202, R209) -/
  floodTo : Option Nat := none
  /-- it carries a wrong FCS and leaves only with an inverted one (R172) -/
  badFcs : Bool := false
  /-- a packet buffer word of it is poisoned: it is never sent out (R44) -/
  poisoned : Bool := false
  /-- it has crossed the spine to its destination (R32, R186) -/
  crossed : Bool := false
  /-- its destination is its own port: it is dropped once its learning verdict lets it go on (R199, R202) -/
  samePort : Bool := false
  deriving DecidableEq, Repr

/-- A parse context (R160). -/
structure ParseCtx where
  frame : Nat
  /-- the port position its frame came in on (R164) -/
  port : Nat := 0
  bank : Nat
  window : List Byte
  /-- bytes of the frame that the window holds, and its length when it was whole at dispatch -/
  inWindow : Nat
  len : Nat
  g : List Nat := [0, 0, 0, 0, 0, 0, 0, 0]
  cur : Nat := 0
  z : Bool := false
  c : Bool := false
  t : Bool := false
  stack : List Nat := []
  pc : Nat := 0
  steps : Nat := 0
  slots : Nat := 0
  ended : Bool := false
  mal : Nat := 0
  vec : HVec := {}
  deriving DecidableEq, Repr

/-- A frame that waits for, or uses, an egress port. -/
structure Egress where
  id : Nat
  /-- the frame it sends; its bytes stand here -/
  frame : Nat
  slice : Nat
  port : Nat
  data : List Byte
  /-- the TX_FRAME job it completes, if any -/
  job : Option Nat := none
  /-- launch time, as a Fabric Time value (R67) -/
  launch : Option Nat := none
  /-- the class that its port requests carry, and their deadline as a FT_MONO value (R75, R76) -/
  cls : Nat := 0
  deadline : Nat := 0
  /-- the flow whose order it keeps: ingress slice and port position, and handle (R33) -/
  flow : Option (Nat × Nat × Nat) := none
  late : Bool := false
  released : Bool := false
  tsMode : Nat := 0
  ptpOffset : Nat := 0
  pcp : Nat := 0
  badFcs : Bool := false
  /-- its first bit has left the ball, and when, in units of 0.125 ns (R59) -/
  begun : Bool := false
  begunAt : Nat := 0
  /-- the Catalogue entry whose DROPS counts a drop -/
  entry : Option Nat := none
  deriving DecidableEq, Repr

/-- A write-back of a Catalogue lookup that has not landed (R194): entry, bytes, GEN read, and STATE to write. -/
structure CatWb where
  handle : Nat
  bytes : Nat
  gen : Nat
  /-- HIT and the counters are part of it -/
  counts : Bool := true
  /-- STATE to write, when the transform updates it -/
  state : Option Nat := none
  deriving DecidableEq, Repr

/-- A learn request (R201): frame, bridge domain, MAC, port position. -/
structure LearnReq where
  frame : Nat
  bd : Nat
  mac : Nat
  port : Nat
  deriving DecidableEq, Repr

/-- An Address Table entry (R196). -/
structure AddrEntry where
  mac : Nat
  bd : Nat
  handle : Nat
  port : Nat
  isStatic : Bool
  remote : Bool
  origin : Nat
  originSlice : Nat
  stamp : Nat
  lastSeen : Nat
  announced : Nat
  deriving DecidableEq, Repr

/-- A provenance message (R204). -/
structure ProvMsg where
  typ : Nat
  mayIgnore : Bool := false
  origin : Nat
  originSlice : Nat
  bd : Nat
  mac : Nat
  handle : Nat
  port : Nat
  stamp : Nat
  deriving DecidableEq, Repr

structure EthState where
  frames : Map Frame := []
  nextFrame : Nat := 1
  /-- parse queues of the four slices, oldest first -/
  queues : List (List Nat) := [[], [], [], []]
  /-- parse contexts by 128 × slice + 4 × engine + context -/
  ctxs : Map ParseCtx := []
  /-- microcode words by 4,096 × slice + 2,048 × bank + word; unlisted words are zero (R159) -/
  prog : Map Nat := []
  /-- egress entries in queueing order -/
  egress : List Egress := []
  nextEgress : Nat := 1
  /-- ports on which a frame is still leaving: (slice, port position), and until which FT_MONO value (R69) -/
  busy : List ((Nat × Nat) × Nat) := []
  /-- frames dropped before their end: id, slice, and the classes the MAC will still report (R172) -/
  ghosts : List (Nat × Nat × List Nat) := []
  /-- active minimums and maximums of the packet buffer classes, by 4 × slice + class (R40) -/
  pbMin : List Nat := [0x4000, 0x3000, 0x2000, 0x1000, 0x4000, 0x3000, 0x2000, 0x1000, 0x4000, 0x3000, 0x2000, 0x1000,
    0x4000, 0x3000, 0x2000, 0x1000]
  pbMax : List Nat := List.replicate 16 0x18000
  deriving DecidableEq, Repr

structure CatState where
  /-- Catalogue entries by Flow Handle, as 512-bit numbers; an unlisted one is zero -/
  entries : Map Nat := []
  writebacks : List CatWb := []
  /-- tokens: 1,024 × slice + token, and the frame held under it (R190) -/
  tokens : Map Nat := []
  deriving DecidableEq, Repr

structure AddrState where
  /-- slots by 262,144 × slice + 2 × bucket + slot -/
  slots : Map AddrEntry := []
  learnQ : List (List LearnReq) := [[], [], [], []]
  /-- inbound and outbound provenance messages of each slice, oldest first (R205) -/
  provIn : List (List ProvMsg) := [[], [], [], []]
  provOut : List (List ProvMsg) := [[], [], [], []]
  deriving DecidableEq, Repr

/-! The cipher complex and the root key store (chapter 08). -/

/-- A slot of the root key store, beside its ROOT_SLOT register: the 256-bit key (held in shares, R212), and that an erase reply
waits for the last job that holds a key derived from it (R217). -/
structure RootKey where
  key : List Byte
  eraseWaits : Bool := false
  deriving DecidableEq, Repr

/-- A sealed copy of a slot in the configuration area (R216): USAGE, EXPORTABLE, ORIGIN and the key it opens to. -/
structure NorKey where
  slot : Nat
  usage : Nat
  exportable : Bool
  origin : Nat
  nonce : List Byte
  /-- the key, encrypted with AES-256-GCM under the purpose 0x06 derivation from slot 0, and its tag -/
  sealed : List Byte
  tag : List Byte
  deriving DecidableEq, Repr

/-- An entry of a derived-key cache (R225): its tag (slot, generation, context label), its set and its material. -/
structure KcEntry where
  set : Nat
  slot : Nat
  gen : Nat
  label : List Byte
  key : List Byte
  deriving DecidableEq, Repr

/-- A derivation asked for (R224, R225): who asked, the slot and label, and, once it has ended, a status and the material. -/
structure KeyReq where
  slice : Nat
  op : Nat
  slot : Nat
  gen : Nat
  label : List Byte
  /-- the unit whose two paths differed: the other one retries (R244) -/
  failedOn : Option Nat := none
  /-- KEY_BIND asks for the mask itself, which no cache holds (R225, R229) -/
  mask : Bool := false
  result : Option (Nat × List Byte) := none
  deriving DecidableEq, Repr

/-- What a cipher job works for. -/
inductive CipherSrc where
  /-- a job of a submission ring -/
  | ring (ring job : Nat)
  /-- a frame under an inline transform (XFORM code) -/
  | inline (frame xform : Nat)
  deriving DecidableEq, Repr

/-- A job of the cipher complex, from its acceptance to its end. -/
structure CipherJob where
  id : Nat
  slice : Nat
  src : CipherSrc
  slot : Nat
  label : List Byte
  key : List Byte
  /-- the bytes a ring job read -/
  data : List Byte := []
  /-- the sequence number of an inline job, and whether it is settled -/
  seq : Nat := 0
  /-- the pair it runs on -/
  pair : Option Nat := none
  tag : Bool := false
  deriving DecidableEq, Repr

/-- An entry of the in-flight table (R232): the current sequence and window of a handle, the jobs it serves, and the inbound
sequence numbers in flight. -/
structure InFlight where
  slice : Nat
  handle : Nat
  seq : Nat
  window : Nat
  jobs : Nat
  inbound : List Nat := []
  deriving DecidableEq, Repr

structure CipherState where
  /-- root keys by slot; an unlisted slot holds none -/
  keys : Map RootKey := []
  nor : List NorKey := []
  /-- derived-key caches of the four slices, newest use first -/
  cache : List (List KcEntry) := [[], [], [], []]
  keyReqs : List KeyReq := []
  jobs : List CipherJob := []
  nextJob : Nat := 1
  inflight : List InFlight := []
  /-- alarms as (slice, pair, FT_MONO), newest first; units 0 and 1 are 10 and 11 -/
  alarms : List (Nat × Nat × Nat) := []
  /-- generate requests since the last reseed of each slice DRBG, and the FT_MONO value of that reseed (R219) -/
  drbg : List (Nat × Nat) := [(0, 0), (0, 0), (0, 0), (0, 0)]
  /-- FT_MONO at the last reseed of a core's mask stream, by 32 × slice + 2 × pair + core (R241) -/
  maskAt : Map Nat := []
  /-- pairs whose next work for KRA, storage or a seal will end with a mismatch of its two cores (R242) -/
  unitBad : List (Nat × Nat) := []
  /-- FT_MONO until which a derivation unit self-tests, by 2 × slice + unit (R244) -/
  kdfUntil : Map Nat := []
  /-- FT_MONO at the last TAMPER whose reload has not been made (R246) -/
  tamperAt : Option Nat := none
  /-- Fabric Time seconds of the automatic reloads -/
  reloads : List Nat := []
  deriving DecidableEq, Repr

/-! Remote memory access (chapter 09). -/

/-- A KRA packet as its end forms it, before encryption (R260, R261): opcode, SEQ, flag bits 12 to 17, extension and payload. -/
structure KraPkt where
  op : Nat
  seq : Nat
  flags : Nat := 0
  ext : List Byte := []
  payload : List Byte := []
  deriving DecidableEq, Repr

/-- A request packet that is not acknowledged (R267, R270): its sequence number, job, opcode, first byte and length within the job's
buffer, whether it is the first and the last of its message, and whether it holds a tag (R34). -/
structure KraOut where
  seq : Nat
  job : Nat
  op : Nat
  off : Nat
  len : Nat
  first : Bool
  last : Bool
  tag : Bool := false
  deriving DecidableEq, Repr

/-- A READ_REQ whose responses are not all placed (R284): the range of its current issue, and the RSNs placed of it. -/
structure KraRead where
  seq : Nat
  job : Nat
  base : Nat
  count : Nat
  got : List Nat := []
  deriving DecidableEq, Repr

/-- A work request that a queue pair has taken up (R265), in ring order: the bytes formed into packets, and the number after its last
packet once all are formed. -/
structure KraJob where
  id : Nat
  op : Nat
  total : Nat
  sent : Nat := 0
  started : Bool := false
  endSeq : Option Nat := none
  deriving DecidableEq, Repr

/-- A queue pair's working state, beside its context (R254). -/
structure QpX where
  /-- it has been created and not reset -/
  live : Bool := false
  inst : Nat := 0
  slice : Nat := 0
  /-- entered ERROR with this syndrome while its context was not cached -/
  errPend : Option Nat := none
  jobs : List KraJob := []
  out : List KraOut := []
  reads : List KraRead := []
  /-- the number after the last acknowledged request -/
  ackNext : Nat := 0
  /-- the next packet to be sent again -/
  resend : Option Nat := none
  /-- waits for RNR_TIMER (R286) -/
  rnr : Bool := false
  /-- DRAIN's result is awaited -/
  drain : Bool := false
  /-- a NAK SEQ_ERROR has been sent since the last advance of SEQ_EXPECTED (R268) -/
  nakSent : Bool := false
  /-- requests that have taken effect since the last ACK; those not yet acknowledged, as SEQ and FT_MONO, oldest effect first; and the highest that carried
  ACK_REQ and is not acknowledged (R270) -/
  unacked : Nat := 0
  effects : List (Nat × Nat) := []
  ackDue : Option Nat := none
  /-- the receive buffer that a SEND fills, and the bytes in it (R266) -/
  rxJob : Option (Nat × Nat) := none
  /-- address after the last placed WRITE_IMM packet, and its key (R262) -/
  nextAddr : Nat := 0
  nextKey : Nat := 0
  /-- the sequence number of the FIRST packet of the WRITE_IMM message that arrives (R281) -/
  immFirst : Nat := 0
  /-- packets that wait for their key to be derived -/
  ctl : List KraPkt := []
  deriving DecidableEq, Repr

/-- An access under a registration (R276 to R279): the frame that carries it, and its progress: 0 to be checked, 1 checked and being
translated, 2 in flight, 3 forced by a revocation. -/
structure KraAccess where
  frame : Nat
  slice : Nat
  qp : Nat
  inst : Nat
  op : Nat
  seq : Nat
  key : Nat
  addr : Nat
  len : Nat
  data : List Byte := []
  flags : Nat
  imm : Option Nat := none
  /-- it holds a completion credit of RECV_SR's completion ring (R273) -/
  credit : Bool := false
  rsnBase : Nat := 0
  /-- the sequence number of its WRITE_IMM message's FIRST packet (R281) -/
  first : Nat := 0
  /-- it is a repeated READ_REQ (R268) -/
  dup : Bool := false
  fed : Nat
  stage : Nat := 0
  deriving DecidableEq, Repr

/-- A registration's state word (R274): 0 FREE, 1 VALID, 2 DRAINING; INFLIGHT. -/
structure RegWord where
  state : Nat := 0
  inflight : Nat := 0
  deriving DecidableEq, Repr

/-- A revocation in progress (R279): the key, its job, FT_MONO at the DRAINING cycle, and whether its completion has been given. -/
structure Revoke where
  key : Nat
  job : Option (Nat × Nat × Nat)
  since : Nat
  forced : Bool := false
  deriving DecidableEq, Repr

structure KraState where
  /-- context caches of the slices, newest use first: queue pair and 2,048-bit context (R256) -/
  cache : List (List (Nat × Nat)) := [[], [], [], []]
  /-- context fetches in progress: slice, queue pair (R257) -/
  fetch : List (Nat × Nat) := []
  /-- frames in the context-miss buffers, oldest first -/
  miss : List (List Nat) := [[], [], [], []]
  /-- frames that have left the miss buffer and not gone on -/
  resumed : List Nat := []
  /-- frames whose tag has verified and that wait to be placed -/
  counted : List Nat := []
  /-- frames at the receive stages, in the order they reached them (R269) -/
  order : List Nat := []
  qps : Map QpX := []
  /-- a KRA_QP_CMD that waits for its context: slice, queue pair, OP -/
  cmds : List (Nat × Nat × Nat) := []
  accesses : List KraAccess := []
  /-- state words by 262,144 × slice + index -/
  regs : Map RegWord := []
  revokes : List Revoke := []
  deriving DecidableEq, Repr

/-! Korrum Link and the federation (chapter 10). -/

/-- A link block as first sent (R295, R296): BLOCK_SEQ, control bits 24 to 55 (FLIT_VALID, FLIT_START, FLIT_VC), and its eight slots. -/
structure LinkBlk where
  seq : Nat
  masks : Nat
  slots : List (List Byte)
  deriving DecidableEq, Repr

/-- What is left of a packet whose flits leave (R300): its flits, and whether the first is still to go and whether it is in transit. -/
structure OpenPkt where
  flits : List (List Byte)
  fresh : Bool
  transit : Bool
  /-- what a TIME packet is: 1 TIME_SYNC, 2 TIME_DELAY_REQ, 3 TIME_DELAY_RESP -/
  kind : Nat := 0
  deriving DecidableEq, Repr

/-- A Korrum Link port, beside its registers (R295 to R302). -/
structure KLink where
  /-- FT_MONO at entry to its state -/
  since : Nat := 0
  /-- the nonce it sends in LINK_CAPS -/
  nonce : List Byte := []
  /-- the next BLOCK_SEQ to send, the blocks held for replay, the next of them to be replayed -/
  txSeq : Nat := 0
  held : List LinkBlk := []
  replay : Option Nat := none
  /-- the ACK_SEQ that a replay last answered, replays since ACK_SEQ last advanced, the ACK_SEQ last received, FT_MONO of its advance -/
  lastReplay : Option Nat := none
  replays : Nat := 0
  acked : Nat := 1023
  ackAt : Nat := 0
  /-- the BLOCK_SEQ expected, and whether RETRY_REQ is sent -/
  rxSeq : Nat := 0
  retry : Bool := false
  /-- per VC: flits sent, the peer's CREDIT_COUNT and advertised buffer, flits freed here -/
  sent : List Nat := [0, 0, 0, 0]
  credit : List Nat := [0, 0, 0, 0]
  adv : List Nat := [0, 0, 0, 0]
  freed : List Nat := [0, 0, 0, 0]
  /-- packets that wait to leave, in grant order, and whether in transit -/
  outQ : List (KPkt × Bool) := []
  /-- per VC: the packet whose flits are leaving -/
  leaving : List (Option OpenPkt) := [none, none, none, none]
  /-- per VC: the flits received of a packet that is not complete -/
  parts : List (List (List Byte)) := [[], [], [], []]
  /-- per VC: FT_MONO when the first flit of that packet arrived (R75, R77) -/
  partAt : List Nat := [0, 0, 0, 0]
  /-- complete packets that wait to be switched or delivered -/
  inbox : List KPkt := []
  /-- the peer is a member of a federation, and which its master is -/
  peerMember : Bool := false
  peerMaster : Nat := 0
  /-- Fabric Time stamps, in units of 0.125 ns: TIME_SYNC and TIME_DELAY_REQ departures, TIME_SYNC arrival (R318) -/
  t1 : Nat := 0
  t2 : Nat := 0
  t3 : Nat := 0
  /-- FT_MONO of the last TIME_SYNC sent -/
  syncAt : Nat := 0
  deriving DecidableEq, Repr

/-- A move in progress (R309). -/
structure Move where
  msg : MoveMsg
  /-- the members that are ready, as the master counts them -/
  ready : List Nat := []
  /-- the routes this device has computed -/
  routes : List Nat := []
  deriving DecidableEq, Repr

/-- A raise of the federation epoch in progress (R320). -/
structure EpochRaise where
  epoch : Nat
  tRaise : Nat
  /-- the master's own, with the members that have acknowledged -/
  mine : Bool
  acks : List Nat := []
  deriving DecidableEq, Repr

/-- What the master knows of a member (R310). -/
structure Member where
  id : Nat
  own : Nat
  /-- BOOT_STATUS of its last answer -/
  boot : Nat := 0
  links : Nat
  eligible : Bool
  answered : Bool := true
  missed : Nat := 0
  deriving DecidableEq, Repr

structure FedState where
  /-- configuration: FED_LABEL, FED_KEY_SLOT, MASTER_ELIGIBLE (R308) -/
  fedLabel : Nat := 0
  keySlot : Nat := 0
  eligible : Bool := false
  gen : Nat := 0
  move : Option Move := none
  raising : Option EpochRaise := none
  roster : List Member := []
  /-- MASTER_ELIGIBLE members, as the last move named them -/
  eligibleSet : Nat := 0
  /-- FT_MONO since when the device is ALONE without a member's link, and when it may ask to join again -/
  aloneSince : Nat := 0
  retryAt : Option Nat := none
  /-- FT_MONO of the last HEARTBEAT sent or received, and of the last TIME_SYNC accepted -/
  lastBeat : Nat := 0
  lastSync : Nat := 0
  /-- the lowest MASTER_CLAIM received, and FT_MONO of the first -/
  claim : Option (Nat × Nat) := none
  /-- the link map of the last installed move: by member, the ports with a link (R309) -/
  linkMap : List Nat := []
  deriving DecidableEq, Repr

/-! The flash media and the Affinage engine (chapter 12). -/

/-- A codeword on flash (R367): its 4,096 data bytes (ciphertext) and its metadata. -/
structure Codeword where
  data : List Byte
  tag : Nat
  nsid : Nat
  seq : Nat
  typ : Nat
  first : Bool
  last : Bool
  len : Nat
  deriving DecidableEq, Repr

/-- A multi-plane block of a die (R385, R387, R391): P/E count, read count, learned offset, refresh mark, first stage 11 rebuild (FT_MONO),
whether it is bad (1 factory, 2 retired), and the band it belongs to. -/
structure Blk where
  pe : Nat := 0
  reads : Nat := 0
  offset : Nat := 0
  refresh : Bool := false
  rebuilt : Option Nat := none
  bad : Nat := 0
  band : Option Nat := none
  deriving DecidableEq, Repr

/-- A band (R369): its members (die, block), the row and the member that are written next, whether it is open, the Fabric Time at which it was
closed, and its equivalent age in seconds scaled by 2^32 (R390). -/
structure Band where
  id : Nat
  slice : Nat
  members : List (Nat × Nat)
  row : Nat := 0
  col : Nat := 0
  isOpen : Bool := true
  closedAt : Nat := 0
  age : Nat := 0
  /-- its valid data is being moved: 1 collection, 2 retention, 3 read disturb, 4 wear levelling, 5 recovery -/
  moving : Nat := 0
  /-- it was opened from the reserve of R386 -/
  reserve : Bool := false
  deriving DecidableEq, Repr

/-- A piece of a write that waits for admission (R377, R378): its 4 KiB units with their ciphertext, or, for a trim record, the range of
units. -/
structure WPiece where
  id : Nat
  slice : Nat
  nsid : Nat
  trim : Option (Nat × Nat) := none
  units : List (Nat × List Byte) := []
  /-- it is a record of an Accession zone, placed once admitted and sealed -/
  append : Bool := false
  /-- the captured frame whose cells it holds -/
  frame : Option Nat := none
  deriving DecidableEq, Repr

/-- A unit in the write buffer (R377 to R379). -/
structure WUnit where
  piece : Nat
  nsid : Nat
  unit : Nat
  typ : Nat := 0
  /-- units a trim record covers -/
  count : Nat := 1
  seq : Nat
  first : Bool
  last : Bool
  len : Nat
  data : List Byte
  /-- the location a relocated copy must still find in the map (R380) -/
  reloc : Option Nat := none
  /-- where it has been programmed, its row not complete -/
  loc : Option Nat := none
  deriving DecidableEq, Repr

/-- What a flash read is for. -/
inductive ReadFor where
  /-- a host command, a self-test or a Verify -/
  | host
  /-- a map page -/
  | mapPage
  /-- relocation of the unit -/
  | move
  | patrol
  deriving DecidableEq, Repr

/-- A read that waits at its die (R381), oldest first in its list. -/
structure FlashRead where
  slice : Nat
  loc : Nat
  nsid : Nat
  unit : Nat
  use : ReadFor
  deriving DecidableEq, Repr

/-- A hold-up save (R401, R404): the units of the buffers that the save set holds and, when its SAVE_DONE record is not valid, those that did
not reach it; the Fabric Time seconds of the save. -/
structure Save where
  units : List (Nat × WUnit)
  lost : List (Nat × WUnit) := []
  time : Nat
  done : Bool
  deriving DecidableEq, Repr

/-- What a slice knows of its media across a reset (R365, R388, R395): the dies it used, those that retire (2) or have retired (3), and AFF_SPARE
with AFF_SPARE_INIT once they are set. -/
structure SliceMedia where
  used : List Nat := []
  gone : List (Nat × Nat) := []
  spare : Option (Nat × Nat) := none
  deriving DecidableEq, Repr

structure FlashState where
  /-- blocks by 2^18 × slice + 2^11 × die + block -/
  blks : Map Blk := []
  bands : List Band := []
  nextBand : Nat := 1
  /-- codewords by 2^33 × slice + location (R373, bits 32 to 0) -/
  cells : Map Codeword := []
  /-- map entries (R373) by 2^40 × NSID + unit; for a zoned namespace, the entry of a segment stands at its first unit (R375) -/
  map : Map Nat := []
  /-- map pages on flash: location by 2^32 × NSID + chunk, and those changed since (R374) -/
  mapDir : Map Nat := []
  dirty : List Nat := []
  /-- map pages cached, newest use first, of each slice -/
  mapCache : List (List Nat) := [[], [], [], []]
  /-- units whose map page was lost, and that report MEDIA_MAP_LOST: 2^40 × NSID + unit (R385) -/
  mapLost : List Nat := []
  waiting : List WPiece := []
  /-- the write buffers, oldest first -/
  buf : List (List WUnit) := [[], [], [], []]
  reads : List FlashRead := []
  /-- finished reads that their command has not taken: slice, location, and a status or 0 -/
  got : List (Nat × Nat × Nat) := []
  /-- the next WRITE_SEQ of each slice -/
  seqs : List Nat := [0, 0, 0, 0]
  /-- blocks retired lately: slice, die, FT_MONO -/
  retired : List (Nat × Nat × Nat) := []
  /-- FT_MONO at which band ages last advanced (R390) -/
  ageAt : Nat := 0
  /-- codewords that patrol has still to read in this pass, of each slice -/
  patrol : List (List Nat) := [[], [], [], []]
  patrolAt : List Nat := [0, 0, 0, 0]
  /-- Fabric Time seconds at which the last maintenance window of each slice ends (R392) -/
  winUntil : List Nat := [0, 0, 0, 0]
  /-- suspensions of the operation in progress on a die: slice, die, count (R381) -/
  suspended : List (Nat × Nat × Nat) := []
  /-- codewords that the older save set still holds: slice, WRITE_SEQ (R402) -/
  restored : List (Nat × Nat) := []
  /-- over-provisioning has been fixed (R388) -/
  opFixed : Option Nat := none
  /-- bank parameters (R396): C_NOM, V_FULL, V_MIN, EFF, P_SAVE, I_TEST -/
  bank : List Nat := [0, 0, 0, 0, 0, 0]
  /-- bytes lost with the last save (R404); bytes that GET_LOG_PAGE 0xC1 reports as lost -/
  lastLost : Nat := 0
  /-- FT_MONO of the device's start and of the last bank test -/
  startAt : Nat := 0
  testAt : Option Nat := none
  /-- a hold-up save has begun, and its contents -/
  saving : Bool := false
  save : Option Save := none
  /-- the media of the slices, as the last reset left them -/
  kept : List SliceMedia := [{}, {}, {}, {}]
  /-- Fabric Time seconds and bytes of the last 16 saves, newest first (log page 0xC1) -/
  saveLog : List (Nat × Nat) := []
  /-- SMART Critical Warning bit 2: reliability degraded -/
  degraded : Bool := false
  /-- completions with MEDIA_UNRECOVERED, MEDIA_MAP_LOST or MEDIA_WRITE_LOST (R388) -/
  mediaErrors : Nat := 0
  /-- a power fail was seen while CC.SHN had not been written -/
  unsafeShutdowns : Nat := 0
  /-- Fabric Time seconds at the last shutdown (R390) -/
  shutAt : Option Nat := none
  deriving DecidableEq, Repr

/-! Storage command queues and namespaces (chapter 11). -/

/-- How an NVMe command ends: SC + 256 × SCT, DNR where the spec gives it, Dwords 0 and 1, the device status behind it, and the LBA an error
names. -/
structure NvDone where
  status : Nat
  dnr : Option Bool := none
  dw0 : Nat := 0
  dw1 : Nat := 0
  dev : Nat := 0
  lba : Nat := 0
  deriving DecidableEq, Repr

/-- A fetched NVMe command. -/
structure NvCmd where
  id : Nat
  inst : Nat
  sq : Nat
  cid : Nat
  slice : Nat
  sqe : List Byte
  begun : Nat
  /-- its work has been issued to flash or buffer and cannot be aborted (R338) -/
  issued : Bool := false
  /-- its buffer as the PRPs give it, and the data read from it -/
  bufs : Option (List (Nat × Nat)) := none
  data : Option (List Byte) := none
  /-- pieces that are not yet admitted, and pieces that are not yet programmed under write-through (R378, R400) -/
  pieces : List Nat := []
  unprog : List Nat := []
  /-- the frame record under which its staging cells stand (R36 class 2) -/
  cells : Option Nat := none
  /-- it is delayed by a slice's exit from an idle state (R344) -/
  delayed : Bool := false
  done : Option NvDone := none
  deriving DecidableEq, Repr

structure NvSq where
  inst : Nat
  qid : Nat
  slice : Nat
  cq : Nat
  size : Nat
  base : Nat
  prio : Nat := 0
  head : Nat := 0
  tail : Nat := 0
  /-- accepted tails with the FT_MONO value of their doorbells -/
  bells : List (Nat × Nat) := []
  /-- log page 0xC2: commands fetched, the longest fetch wait, cycles blocked under R337 -/
  fetched : Nat := 0
  longest : Nat := 0
  blocked : Nat := 0
  /-- Delete I/O SQ waits: its CID -/
  deleting : Option Nat := none
  deriving DecidableEq, Repr

structure NvCq where
  inst : Nat
  qid : Nat
  slice : Nat
  size : Nat
  base : Nat
  head : Nat := 0
  tail : Nat := 0
  phase : Bool := true
  ien : Bool := false
  vector : Nat := 0
  deriving DecidableEq, Repr

/-- An Error Information entry (R330, R343). -/
structure NvErr where
  count : Nat
  sq : Nat
  cid : Nat
  status : Nat
  lba : Nat
  nsid : Nat
  dev : Nat
  deriving DecidableEq, Repr

/-- An NVMe controller: its registers and features. -/
structure NvCtrl where
  intms : Nat := 0
  /-- vectors that INTMS held back -/
  intPend : List Nat := []
  cc : Nat := 0
  /-- CSTS: RDY bit 0, CFS bit 1, SHST bits 3:2 -/
  csts : Nat := 0
  aqa : Nat := 0
  asq : Nat := 0
  acq : Nat := 0
  /-- feature values: Dword 11 of the last Set Features, by identifier; by 256 × selector + identifier where a feature has several -/
  feats : Map Nat := []
  apst : List Byte := []
  /-- power state and the last operational one (R344) -/
  ps : Nat := 0
  lastOp : Nat := 0
  idleSince : Nat := 0
  /-- the next SQ of its rotation, and what each priority has left under weighted round robin -/
  rotate : Nat := 0
  credits : List Nat := [0, 0, 0]
  /-- asynchronous events that wait: type, information, log page -/
  events : List (Nat × Nat × Nat) := []
  /-- event types reported and not yet cleared by reading their page -/
  masked : List Nat := []
  /-- aborts of commands that are not yet fetched: SQ, CID (R338) -/
  aborts : List (Nat × Nat) := []
  errs : List NvErr := []
  errCount : Nat := 0
  changedNs : List Nat := []
  changedZones : List (Nat × Nat) := []
  /-- completions of each vector that no interrupt has signalled (R337) -/
  unsignalled : Map Nat := []
  /-- CC.SHN has been written since the controller was enabled -/
  shutdown : Bool := false
  /-- SMART counters: data units read and written in 512-byte blocks, host reads and writes, power cycles -/
  readBlocks : Nat := 0
  writeBlocks : Nat := 0
  hostReads : Nat := 0
  hostWrites : Nat := 0
  deriving DecidableEq, Repr

/-- A record of an Accession zone (R354, R375): first LBA, block count, its 64-byte header and its seal. -/
structure ZRec where
  first : Nat
  count : Nat
  header : List Byte
  sealTag : List Byte
  deriving DecidableEq, Repr

/-- A zone: its ZNS state (1 Empty, 2 Implicitly Opened, 3 Explicitly Opened, 4 Closed, 13 Read Only, 14 Full, 15 Offline), write pointer in
blocks from its start, generation, retention, descriptor extension, slice, S_0 of its seal chain, and records. -/
structure Zone where
  state : Nat := 1
  wp : Nat := 0
  gen : Nat := 0
  retain : Nat := 0
  ext : Option (List Byte) := none
  openedAt : Nat := 0
  slice : Nat := 0
  seal0 : List Byte := []
  records : List ZRec := []
  deriving DecidableEq, Repr

structure NsState where
  csi : Nat := 0
  lbaf : Nat := 0
  nsze : Nat := 0
  ncap : Nat := 0
  dataSlot : Nat := 0
  material : List Byte := []
  acc : Bool := false
  sealSlot : Nat := 0
  retain : Nat := 0
  sealMaterial : List Byte := []
  attached : List Nat := []
  zones : Map Zone := []
  /-- Accession Log entries of 64 bytes, oldest first (R357) -/
  accLog : List (List Byte) := []
  deriving DecidableEq, Repr

/-- A record on its way to an Accession zone: from a Zone Append, or from a capture (R355, R359). -/
structure ZApp where
  piece : Nat
  nsid : Nat
  zone : Nat
  count : Nat
  data : List Byte
  /-- the command it belongs to, while the command exists -/
  cmd : Option Nat
  /-- the Flow Handle of a capture -/
  capture : Option Nat := none
  slice : Nat
  placedAt : Nat
  ftState : Nat
  /-- the XTS material -/
  key : List Byte
  admitted : Bool := false
  deriving DecidableEq, Repr

/-- A self-test in progress (R345 to R348): code, controller, NSID field, the segment, dies or pairs it has still to visit, FT_MONO at its
start, and the results so far. -/
structure SelfTest where
  code : Nat
  inst : Nat
  nsid : Nat
  segment : Nat
  step : Nat := 0
  began : Nat
  deriving DecidableEq, Repr

structure NvState where
  ctrls : Map NvCtrl := []
  sqs : List NvSq := []
  cqs : List NvCq := []
  /-- fetched commands in fetching order -/
  cmds : List NvCmd := []
  nextCmd : Nat := 1
  ns : Map NsState := []
  appends : List ZApp := []
  nextPiece : Nat := 1
  /-- ticks of power-on time before this start -/
  powerTicks : Nat := 0
  test : Option SelfTest := none
  /-- the Critical Warning bits that have been reported as events (R336, R360) -/
  warned : Nat := 0
  /-- self-test results, newest first: result byte, segment, NSID, Fabric Time hours -/
  tests : List (Nat × Nat × Nat × Nat) := []
  deriving DecidableEq, Repr

/-! Secure boot and firmware update (chapter 15), straps and pins (chapter 19). -/

/-- An active-flag record (R477): STATE is 0 CONFIRMED or 1 TRIAL. -/
structure FlagRec where
  seq : Nat
  active : Nat
  previous : Nat
  state : Nat
  boots : Nat
  activeDigest : List Byte
  previousDigest : List Byte
  deriving DecidableEq, Repr

/-- A commit record (R476). -/
structure Commit where
  len : Nat
  crc : Nat
  digest : List Byte
  deriving DecidableEq, Repr

/-- A configuration bank (R496): its version, generation and owner, and the items of R521 that it holds, with their bytes. -/
structure Bank where
  version : Nat
  generation : Nat
  owner : List Byte
  items : List (Nat × List Byte)
  deriving DecidableEq, Repr

/-- A write session (R489): target slot, PACKAGE_LEN, the next offset. -/
structure FwSession where
  slot : Nat
  len : Nat
  next : Nat := 0
  deriving DecidableEq, Repr

/-- A Recovery ring pair (R487). -/
structure RcvRing where
  active : Bool := false
  srHead : Nat := 0
  srTail : Nat := 0
  crHead : Nat := 0
  crTail : Nat := 0
  deriving DecidableEq, Repr

structure BootState where
  /-- active-flag copies A and B; none is an invalid copy -/
  flagA : Option FlagRec := none
  flagB : Option FlagRec := none
  /-- the bytes of slots 0 to 2 of the boot NOR; an unlisted byte is erased and reads 0xFF -/
  slots : List (Map Byte) := [[], [], []]
  commits : List (Option Commit) := [none, none, none]
  bankX : Option Bank := none
  bankY : Option Bank := none
  /-- fuses: the burnt bits of KEY_REVOKED[0] to [3], and ROOT_PROVISION (R479, R213) -/
  revoked : List Nat := [0, 0, 0, 0]
  rootProvision : Bool := false
  /-- the durable part (R499), beside the sealed key copies and the save log: owner key digest of the Custody Lock, ACC_TIME_FLOOR and FT_MONO
  when it was written, HOLDUP_SAVES, HOLDUP_LOST_BYTES, the count of boots -/
  custody : Option (List Byte) := none
  accFloor : Nat := 0
  accWritten : Option Nat := none
  saves : Nat := 0
  lostBytes : Nat := 0
  count : Nat := 0
  /-- the signature digest and CONFIG_VERSION of the booted package -/
  owner : List Byte := []
  confVersion : Nat := 0
  /-- the configuration in use: item and bytes -/
  items : List (Nat × List Byte) := []
  /-- held in reset: RESET_N is low, or the device holds itself there -/
  held : Bool := false
  /-- an internal reset waits to end: 0 none, 1 DEVICE_RESET or RESET_NOW, 2 the trial watchdog, 3 the restart after a save -/
  internal : Nat := 0
  /-- a thermal trip: held in reset until power is removed (R538, R571) -/
  tripped : Bool := false
  /-- RESET_N is low -/
  resetLow : Bool := false
  /-- PWRFAIL_N is high, since this FT_MONO value -/
  powerSince : Nat := 0
  /-- Plinth ROM has still to run -/
  romPending : Bool := true
  /-- the device is in Recovery (R487) -/
  recovery : Bool := false
  rcv : RcvRing := {}
  session : Option FwSession := none
  /-- a package staged in Recovery -/
  staged : Map Byte := []
  /-- the Custody nonce and the FT_MONO value when it was given -/
  nonce : Option (List Byte × Nat) := none
  /-- FT_MONO at which the trial watchdog fires -/
  watchdog : Option Nat := none
  /-- the straps as they stand at the balls: THREADS_SEL, HA_BIFURCATE, HB_BIFURCATE, GOLDEN_N, RECOVER_N, SMB_ADDR_SEL -/
  straps : Nat := 0x1F
  /-- TIME_PPS and GPIO input levels -/
  gpioIn : Nat := 0
  /-- links whose PERST_N is high -/
  perstHigh : List Nat := []
  /-- FT_MONO of the last hourly TEMP_MAX record (R581) -/
  tempLogAt : Nat := 0
  deriving DecidableEq, Repr

/-! Power states (chapter 17). -/

/-- A slice's idle controller (R525 to R530): what it is doing (0 settled, 1 entering, 2 leaving), the state it enters or leaves, FT_MONO since
when it has been idle, the bytes in the wake buffer, and the frames that wait there. -/
structure SliceIdle where
  move : Nat := 0
  target : Nat := 0
  moveAt : Nat := 0
  idleSince : Option Nat := none
  wakeBytes : Nat := 0
  wakeFrames : List Nat := []
  deriving DecidableEq, Repr

structure PowerState where
  slices : List SliceIdle := [{}, {}, {}, {}]
  /-- power measurements of the last second and millisecond, newest first: FT_MONO, mW -/
  samples : List (Nat × Nat) := []
  /-- a clock step that waits for its AVSBus command: the frequency it goes to -/
  avsStep : Option Nat := none
  /-- FT_MONO of the last power control tick, and links' last activity -/
  tickAt : Nat := 0
  linkIdle : List Nat := [0, 0, 0, 0]
  /-- how much of what the device has sent was seen for the links' activity -/
  outSeen : Nat := 0
  /-- the LTR value each link last sent (R536) -/
  ltrSent : List (Option Nat) := [none, none, none, none]
  deriving DecidableEq, Repr

/-! Management (chapter 16). -/

/-- A management command (R504) that has passed its checks. Routes: 0 ring, 1 MCTP, 2 Annex, 3 relay. An Annex command carries
its AD3120 opcode plus 0x10000. -/
structure MgmtCmd where
  route : Nat
  /-- for MCTP: 0 SMBus, 1 I3C -/
  bus : Nat := 0
  opcode : Nat
  tag : Nat := 0
  payload : List Byte := []
  last : Bool := false
  objOffset : Nat := 0
  timeoutMs : Nat := 0
  /-- FT_MONO when the clock started, and the ticks the Annex had then held the slot in all (R513) -/
  passedAt : Nat := 0
  annexAt : Nat := 0
  /-- the ring job it came from: slice, ring, job id (R507) -/
  job : Option (Nat × Nat × Nat) := none
  /-- where the reply goes, and how many bytes it has there -/
  replyAddr : Nat := 0
  replyMax : Nat := 0
  /-- a relayed command: the origin's federation ID and the origin's number for it -/
  origin : Nat := 0
  originRef : Nat := 0
  /-- it came from the Recovery ring (R487): JOB_TAG, IRQ_NOW and SKIP of its descriptor -/
  rcv : Option (Nat × Bool × Bool) := none
  deriving DecidableEq, Repr

/-- A reply (R505). -/
structure MgmtReply where
  status : Nat
  payload : List Byte := []
  detail : Nat := 0
  last : Bool := true
  objOffset : Nat := 0
  remaining : Nat := 0
  relayed : Bool := false
  source : Option Nat := none
  /-- the device resets 100 ms after it is sent; the configuration item that applies when it is sent (R489, R520, R521) -/
  resets : Bool := false
  item : Option Nat := none
  deriving DecidableEq, Repr

/-- The intake slot's holder (R511, R512): its command, whether its opcode has begun, and its reply. -/
structure Holder where
  cmd : MgmtCmd
  started : Bool := false
  reply : Option MgmtReply := none
  /-- the reply has gone where it goes; the slot is held until the status is consumed (R512) -/
  delivered : Bool := false
  deriving DecidableEq, Repr

/-- A command relayed out that waits for its reply (R515, R516). -/
structure RelayOut where
  ref : Nat
  target : Nat
  cmd : MgmtCmd
  deriving DecidableEq, Repr

/-- An object in the bulk area (R517, R518): an upload in progress or a download. -/
structure BulkObj where
  upload : Bool
  opcode : Nat
  selector : List Byte
  data : List Byte
  lastRead : Nat
  deriving DecidableEq, Repr

structure MgmtState where
  /-- commands that wait for the slot, in arrival order -/
  queue : List MgmtCmd := []
  holder : Option Holder := none
  /-- the rotation route that last held the slot -/
  lastRoute : Nat := 1
  /-- ticks in which the Annex has held the slot -/
  annexTicks : Nat := 0
  /-- MCTP replies to be transmitted: bus (0 SMBus, 1 I3C), message and the attempts made -/
  mctpOut : List (Nat × List Byte × Nat) := []
  relays : List RelayOut := []
  nextRef : Nat := 1
  bulk : List BulkObj := []
  /-- the endpoint IDs of SMBus and I3C (R574) -/
  eids : List Nat := [0, 0]
  /-- the device resets at this FT_MONO value (R520, DEVICE_RESET) -/
  resetAt : Option Nat := none
  /-- NVMe-MI configuration values that Configuration Set has written, by 256 × port + identifier -/
  miConfig : Map Nat := []
  /-- the federation's event sink (R519) -/
  sink : Option Nat := none
  deriving DecidableEq, Repr

/-- What leaves the device, as the outside world sees it. -/
inductive Emit where
  /-- the data a read returned to the agent that issued it -/
  | readData (agent : Agent) (addr : Nat) (value : Nat)
  /-- a read request on a PCIe link: link, tag, instance, address, length (R424) -/
  | pcieRead (link tag inst addr len : Nat) (translated : Bool)
  /-- a posted write to host memory: link, instance, address, bytes, Relaxed Ordering (R282) -/
  | pcieWrite (link inst addr : Nat) (translated : Bool) (data : List Byte) (relaxed : Bool)
  /-- an ATS Translation Request: link, instance, untranslated page address (R453) -/
  | atsRequest (link inst addr : Nat)
  /-- an MSI or MSI-X message: link, instance, address, data (R422) -/
  | msi (link inst addr data : Nat)
  /-- Assert_INTA (true) or Deassert_INTA of a function (R423) -/
  | inta (inst : Nat) (assert : Bool)
  /-- an AER error message: link, instance, severity 0 ERR_COR, 1 ERR_NONFATAL, 2 ERR_FATAL (R431) -/
  | aerMsg (link inst severity : Nat)
  /-- a completion of an inbound request: link, status (0 successful, 1 Unsupported Request, 2 Request Retry), value -/
  | pcieCpl (link status value : Nat)
  /-- an ATS Invalidation Completion (R456) -/
  | atsInvalDone (link inst : Nat)
  /-- an LTR message: link, value (R536) -/
  | ltr (link value : Nat)
  /-- a frame that left an Ethernet port, and whether its FCS is inverted -/
  | frame (slice port : Nat) (data : List Byte) (badFcs : Bool)
  /-- a Korrum Link block of 544 bytes (R295) -/
  | linkBlock (port : Nat) (bytes : List Byte)
  /-- a delay request or its answer of the PTP client: port, messageType, sequenceId, timestamp in units of 0.125 ns (R51) -/
  | ptp (port kind seq stamp : Nat)
  /-- a message of link negotiation: LINK_CAPS, or the 16-byte proof (R302) -/
  | linkMsg (port : Nat) (bytes : List Byte)
  /-- an MCTP message on SMBus (0) or I3C (1) (R509) -/
  | mctp (bus : Nat) (bytes : List Byte)
  deriving DecidableEq, Repr

/-! The whole state. -/

/-- Why the machine stops with a fault. -/
inductive Fault where
  /-- Raised by no command of this model: every stop the spec backs is a refusal. Safe. -/
  | unreachable
  deriving DecidableEq, Repr

/-- Why a command has no meaning. -/
inductive Refusal where
  /-- Raised by the dispatcher for a command whose meaning is not written. Safe. -/
  | notModelled (mnemonic : String)
  deriving DecidableEq, Repr

/-- The state of the SK6480. -/
structure State where
  /-- every register of every register map, by address; an unlisted one holds its reset value -/
  regs : Map Word := []
  /-- interrupts to the Keeper, oldest first, that KEEPER_EVENT_LOG has not taken yet (R45) -/
  keeperPend : List KeeperInt := []
  /-- the device event log, oldest first (R45, R519) -/
  eventLog : List LogRec := []
  eventSeq : Nat := 0
  /-- poisoned locations (R42, R43) -/
  poisoned : List Poison := []
  /-- status bits that an event has set: by 64 × register + bit, the FT_MONO value of the last such event, and the detail of the one that raised the
  bit (R13, R88) -/
  rises : Map (Nat × Nat) := []
  time : TimeState := {}
  arb : ArbState := {}
  core : CoreState := {}
  mem : MemState := {}
  rings : RingState := {}
  pcie : PcieState := {}
  inst : InstState := {}
  fe : FeState := {}
  eth : EthState := {}
  cat : CatState := {}
  addr : AddrState := {}
  cipher : CipherState := {}
  kra : KraState := {}
  flash : FlashState := {}
  nv : NvState := {}
  mgmt : MgmtState := {}
  boot : BootState := {}
  power : PowerState := {}
  /-- the six Korrum Link ports, and at 6 what the device sends to itself (R292, R306) -/
  links : List KLink := [{}, {}, {}, {}, {}, {}, {}]
  fed : FedState := {}
  /-- a device freeze of the performance counters is in force (R551) -/
  pmuFrozen : Bool := false
  /-- device freezes (true) and releases that take effect at the FT_MONO values given, in that order (R551) -/
  pmuPending : List (Bool × Nat) := []
  /-- what the device has sent out of itself, oldest first -/
  out : List Emit := []
  /-- MODEL'S OWN: the number of free values drawn so far -/
  freeCtr : Nat := 0
  /-- the commands that are waiting, first in, first out -/
  pending : List Instr := []
  deriving DecidableEq, Repr

/-- The machine right after reset: every register at the reset value of its map, every table empty, no command waiting. -/
def State.reset : State := {}

end Sys2Proof.Machine
end

