-- ==== Sys2Proof/Machine/Ops.lean ====
section
/-!
DEFINITION. The named operations over registers, memories, counters, interrupts and time that every meaning uses.
-/

namespace Sys2Proof.Machine

/-! The register file. -/

/-- Does row r name address a, and at which place inside the register? The strides are taken outermost first. -/
def dimsMatch : List (Nat × Nat) → Nat → Nat → Bool
  | [], bytes, off => decide (off < bytes)
  | (st, n) :: ds, bytes, off =>
    if ds.isEmpty then decide (off / st < n) && decide (off % st < bytes)
    else decide (off / st < n) && dimsMatch ds bytes (off % st)

/-- Does row r name address a? -/
def RegRow.covers (r : RegRow) (a : Nat) : Bool :=
  decide (r.base ≤ a) && dimsMatch r.dims r.bytes (a - r.base)

/-- The place of an address in slice 0: the slices' maps are alike (R583). -/
def slicePlace (a : Nat) : Nat := if 0x4000000 ≤ a ∧ a < 0x8000000 then 0x4000000 + a % 0x1000000 else a

/-- The row of the register maps that names byte address a (R582 to R585), if one does. -/
def findRow (a : Nat) : Option RegRow :=
  match regBanks.find? (fun b => decide (slicePlace a < b.1)) with
  | some b => b.2.find? (fun r => r.covers a)
  | none => none

/-- The reset value of the register at address a (R11): what an unlisted register reads as. -/
def resetAt (a : Nat) : Word :=
  match findRow a with
  | some r => BitVec.ofNat 64 r.reset
  | none => 0

/-- The register at address a. -/
def State.rd (s : State) (a : Nat) : Word := Map.get resetAt s.regs a

/-- Write the register at address a, whole. -/
def State.wr (s : State) (a : Nat) (v : Word) : State := { s with regs := Map.put resetAt s.regs a v }

/-- The mask of `width` ones from bit lo. -/
def fldMask (lo width : Nat) : Word := BitVec.ofNat 64 (2 ^ width - 1) <<< lo

/-- Bits lo .. lo + width - 1 of w. -/
def wordFld (w : Word) (lo width : Nat) : Nat := (w >>> lo).toNat % 2 ^ width

/-- w with bits lo .. lo + width - 1 replaced by v. -/
def setWordFld (w : Word) (lo width v : Nat) : Word :=
  (w &&& ~~~ (fldMask lo width)) ||| ((BitVec.ofNat 64 v <<< lo) &&& fldMask lo width)

/-- The value of a field. -/
def State.fld (s : State) (f : Fld) : Nat := wordFld (s.rd f.addr) f.lo f.width

/-- Set a field; the value is cut to the field's width. -/
def State.setFld (s : State) (f : Fld) (v : Nat) : State := s.wr f.addr (setWordFld (s.rd f.addr) f.lo f.width v)

/-- Add n to a counter that wraps at its width. -/
def State.addFld (s : State) (f : Fld) (n : Nat) : State := s.setFld f ((s.fld f + n) % 2 ^ f.width)

/-- Add one to a counter that wraps at its width. -/
def State.incFld (s : State) (f : Fld) : State := s.addFld f 1

/-- Add n to a counter that saturates at all ones. -/
def State.satFld (s : State) (f : Fld) (n : Nat) : State := s.setFld f (min (s.fld f + n) (2 ^ f.width - 1))

/-- Take n from a level (never below zero). -/
def State.subFld (s : State) (f : Fld) (n : Nat) : State := s.setFld f (s.fld f - n)

/-- Raise a register that holds the highest value since its last read (R13). -/
def State.peakFld (s : State) (f : Fld) (v : Nat) : State := s.setFld f (max (s.fld f) (min v (2 ^ f.width - 1)))

/-- Is a one-bit field set? -/
def State.on (s : State) (f : Fld) : Bool := s.fld f = 1

/-! Interrupts to the Keeper (R45). -/

/-- Note an interrupt to the Keeper. -/
def State.notify (s : State) (addr bit detail : Nat) : State :=
  { s with keeperPend := s.keeperPend ++ [⟨addr, bit, detail⟩] }

/-- The key of a status bit in `State.rises`. -/
def riseKey (addr bit : Nat) : Nat := 64 * addr + bit

/-- An event has set a status bit in this fabric cycle (R13). -/
def State.noteRise (s : State) (f : Fld) (detail : Nat) : State :=
  { s with rises := Map.insert s.rises (riseKey f.addr f.lo) (s.time.mono, detail) }

/-- What the event that raised a status bit recorded with it (R88). -/
def State.riseDetail (s : State) (addr bit : Nat) : Nat := ((Map.find? s.rises (riseKey addr bit)).map (fun e => e.2)).getD 0

/-- Has an event set this status bit in the present fabric cycle (R13)? -/
def State.setNow (s : State) (addr bit : Nat) : Bool :=
  (Map.find? s.rises (riseKey addr bit)).any (fun e => decide (e.1 = s.time.mono))

/-- An event sets a status bit. When it rises and its enable (the same bit of register `en`) is set, the Keeper is interrupted; a repeat
while the bit reads 1 raises nothing (R45). -/
def State.raiseWith (s : State) (f : Fld) (en detail : Nat) : State :=
  if s.on f then s.noteRise f (s.riseDetail f.addr f.lo)
  else
    let s1 := (s.setFld f 1).noteRise f detail
    if wordFld (s.rd en) f.lo 1 = 1 then s1.notify f.addr f.lo detail else s1

/-- As raiseWith, with nothing to record beside the bit. -/
def State.raise (s : State) (f : Fld) (en : Nat) : State := s.raiseWith f en 0

/-- Send something out of the device. -/
def State.emit (s : State) (e : Emit) : State := { s with out := s.out ++ [e] }

/-- Add a record to the device event log (R45, R519). -/
def State.logEvent (s : State) (addr bit detail : Nat) : State :=
  { s with eventLog := s.eventLog ++ [⟨s.eventSeq, s.time.mono, addr, bit, detail⟩], eventSeq := s.eventSeq + 1 }

/-- Advance the draw counter of the free values. -/
def State.draw (s : State) : State := { s with freeCtr := s.freeCtr + 1 }

/-! Being up (R401, R487, R570). -/

/-- The device is out of reset, and no hold-up save is running: commands have their effects. -/
def State.running (s : State) : Bool := !s.boot.held && !s.flash.saving

/-- The slices are out of reset too: the device is not in Recovery (R487). -/
def State.slicesUp (s : State) : Bool := s.running && !s.boot.recovery

/-- Does cluster n (4 s + k) hold fault records (R113)? -/
def State.hasFaults (s : State) (n : Nat) : Bool := !(Map.get (fun _ => {}) s.core.clusters n).faults.isEmpty

/-- Does some counter m of cluster n (4 s + k) have OVF and IRQ_EN of CORE_HPM_EVT[m] both set (R549)? -/
def State.hasOverflow (s : State) (n : Nat) : Bool :=
  (List.range 48).any (fun m => let e := (s.rd (R.CORE_HPM_EVT (n / 4) (n % 4) m)).toNat; bitOf e 63 && bitOf e 62)

/-- The end of every command: the queue is as the command found it, and mip of each Curator shows what it stands for (R113, R549). -/
def State.settle (s t : State) : State :=
  { t with core.cfip := (List.range 16).map t.hasFaults, core.cpoip := (List.range 16).map t.hasOverflow, pending := s.pending }

/-- What a command answers, settled. -/
def settled (s : State) (o : Host.Outcome State Fault Refusal) : Host.Outcome State Fault Refusal :=
  match o with
  | .next t => .next (s.settle t)
  | .fault f => .fault f
  | .refused r => .refused r

/-- A command that reaches the device whatever its state. -/
def whenAny (s : State) (o : Host.Outcome State Fault Refusal) : Host.Outcome State Fault Refusal := settled s o

/-- A command that reaches the device only while it is up: otherwise nothing happens. -/
def whenUp (s : State) (o : Host.Outcome State Fault Refusal) : Host.Outcome State Fault Refusal := if s.running then settled s o else .next s

/-- A command that reaches only a device whose slices are up. -/
def whenSlices (s : State) (o : Host.Outcome State Fault Refusal) : Host.Outcome State Fault Refusal := if s.slicesUp then settled s o else .next s

/-! Idle states of a slice (R525, R529, R530) and activity of the PCIe links (R535). -/

def State.idleX (s : State) (k : Nat) : SliceIdle := s.power.slices.getD k {}

def State.setIdleX (s : State) (k : Nat) (x : SliceIdle) : State := { s with power.slices := s.power.slices.set k x }

/-- Is slice k in SI0 and on no way to or from another state: can it start work (R525, R530)? -/
def State.awake (s : State) (k : Nat) : Bool := decide (s.fld (F.PWR_SI_STATE_STATE k) = 0) && decide ((s.idleX k).move = 0)

/-- A wake event reaches slice k (R529, R530): it reverses an entry, which PWR_SI_ABORTS counts, or begins the exit. -/
def State.wakeSlice (s : State) (k : Nat) : State :=
  let x := s.idleX k
  let y := { x with idleSince := none }
  if x.move = 1 then (s.setIdleX k { y with move := 2, moveAt := s.time.mono }).incFld (F.PWR_SI_ABORTS k)
  else if x.move = 0 ∧ s.fld (F.PWR_SI_STATE_STATE k) ≠ 0 then
    s.setIdleX k { y with move := 2, target := s.fld (F.PWR_SI_STATE_STATE k), moveAt := s.time.mono }
  else s.setIdleX k y

/-- Something passes on PCIe link l: it is not idle, and it leaves ASPM L1 (R535). -/
def State.linkBusy (s : State) (l : Nat) : State :=
  let s1 := { s with power.linkIdle := s.power.linkIdle.set l s.time.mono }
  if s1.fld (F.PCIE_LINK_STATE_STATE l) = 4 then s1.setFld (F.PCIE_LINK_STATE_STATE l) 3 else s1

/-! Time (R46 to R49). -/

/-- Units of 0.125 ns in a second. -/
def unitsPerSec : Nat := 8000000000

/-- Fabric ticks in a microsecond, a millisecond and a second of Fabric Time (R47). -/
def ticksPerUs : Nat := 1600
def ticksPerMs : Nat := 1600000
def ticksPerSec : Nat := 1600000000

/-- Fabric Time at u units, as the 96-bit value of R46. -/
def ftValue (u : Nat) : Nat := u * 2 ^ 48 / unitsPerSec

/-- Fabric Time now (R46). -/
def State.ftNow (s : State) : Nat := ftValue s.time.units

/-- Whole seconds of Fabric Time. -/
def State.ftSec (s : State) : Nat := s.ftNow / 2 ^ 48

/-- The 64-bit timestamp of R60: low 16 bits of the seconds, then the fraction. -/
def ts64 (v : Nat) : Nat := v % 2 ^ 64

/-- The Fabric Time value with the low 16 seconds bits and the fraction of ts that lies nearest now; of two equally near, the
later (R63, R67). -/
def completeTs (now ts : Nat) : Nat :=
  let base : Int := (now / 2 ^ 64 * 2 ^ 64 + ts % 2 ^ 64 : Nat)
  let cands : List Int := [base + 2 ^ 64, base, base - 2 ^ 64].filter (fun c => decide (0 ≤ c))
  ((leastBy (fun c => (Int.natAbs (c - (now : Int)) : Int)) cands).getD base).toNat

/-- Ticks from now until Fabric Time first reaches value v; negative when it has passed (R65). -/
def State.ticksTo (s : State) (v : Nat) : Int :=
  let u : Int := ((v * unitsPerSec + (2 ^ 48 - 1)) / 2 ^ 48 : Nat)
  let d : Int := u - (s.time.units : Int)
  if 0 ≤ d then (d + 4) / 5 else d / 5

/-- The FT_MONO instant of Fabric Time value v (R65). -/
def State.monoOf (s : State) (v : Nat) : Nat := ((s.time.mono : Int) + s.ticksTo v).toNat

/-! Deadlines (R75 to R79). -/

/-- The value of a class register that an operation uses which began at FT_MONO t: the one in force then, or, when ARB_SYNC.PENDING read 1, any of the
values R79 allows (a free value picks it). -/
def State.classValAt (s : State) (f : Fld) (t : Nat) : Nat :=
  match s.arb.classLog.find? (fun e => decide (e.2.1 = f.addr ∧ e.1 ≤ t)) with
  | some e => e.2.2.getD (Config.classPick f.addr t % e.2.2.length) (s.fld f)
  | none => s.fld f

/-- The value of a class register that an operation beginning now uses. -/
def State.classVal (s : State) (f : Fld) : Nat := s.classValAt f s.time.mono

/-- The deadline of an operation of class n that began at FT_MONO t: t + ARB_DEADLINE[n], as the register then read (R75, R79). -/
def State.deadlineOf (s : State) (n t : Nat) : Nat := t + s.classValAt (F.ARB_DEADLINE (n % 16)) t

/-- The deadline of an operation of class n that begins now. -/
def State.deadline (s : State) (n : Nat) : Nat := s.deadlineOf n s.time.mono

/-- The class of an operation of unit u that no object names (R76). -/
def State.unitClass (s : State) (u : Nat) : Nat := s.classVal (F.ARB_UNIT_CLASS u)

/-! Pages and messages whose fields the spec names without their places. -/

/-- The fields of page p in the order of their places. -/
def fieldOrder (p n : Nat) : List Nat := (List.range n).foldl (fun l i => insertBy (fun j => (Config.fieldRank p j : Int)) i l) []

/-- A page of named fields: each stands whole in it, little-endian, or big-endian in a payload of the Annex (R14), at a place that the spec does not
give. -/
def pageBytes (p : Nat) (fields : List Nat) : List Byte :=
  ((fieldOrder p fields.length).map (fun i => List.replicate (Config.fieldGap p i) 0 ++
    (if 0x10000 ≤ p then beBytes else leBytes) (Config.fieldWidth p i + 1) (fields.getD i 0))).flatten ++
  List.replicate (Config.fieldGap p fields.length) 0

/-- A message between federation members: its kind and its fields, little-endian (R14, R302, R304, R308 to R310, R318, R320). -/
def fedBytes (kind : Nat) (fields : List Nat) : List Byte := pageBytes (0xF000 + kind) fields

/-! Performance counting (R540 to R551). -/

/-- What an occurrence of an uncore event offers the filters of R545; a filter the event's row of R546 does not list is none. -/
structure UncCtx where
  port : Option Nat := none
  cls : Option Nat := none
  master : Option Nat := none
  addr : Option Nat := none
  priv : Option Nat := none
  deriving DecidableEq, Repr

/-- Is a device freeze in force (R551)? -/
def State.deviceFrozen (s : State) : Bool := s.pmuFrozen

/-- A filter value against an occurrence: enabled and not applicable excludes (R545). -/
def filterOk (en : Bool) (want : Nat) (have? : Option Nat) : Bool :=
  if en then (match have? with | some x => decide (x = want) | none => false) else true

/-- Does uncore counter n of slice k select this occurrence of event ev? -/
def State.uncSelects (s : State) (k n ev : Nat) (c : UncCtx) : Bool :=
  let e := (s.rd (R.UNC_EVT k n)).toNat
  let portOk := match c.port with
    | some d => bitOf e 13 || decide (d = bitsOf e 12 8)
    | none => true
  let addrOk := if bitOf e 25 then
      (match c.addr with
       | some a => decide ((s.rd (R.UNC_ADDR_BASE k n)).toNat / 64 ≤ a / 64) &&
                   decide (a / 64 ≤ (s.rd (R.UNC_ADDR_LIMIT k n)).toNat / 64)
       | none => false) else true
  decide (bitsOf e 7 0 = ev) && portOk && filterOk (bitOf e 18) (bitsOf e 17 14) c.cls &&
  filterOk (bitOf e 24) (bitsOf e 23 19) c.master && addrOk &&
  filterOk (decide (bitsOf e 27 26 ≠ 0)) (bitsOf e 27 26) c.priv

/-- Schedule a device-wide freeze or release at FT_MONO + 16 ticks (R551). -/
def State.scheduleFreeze (s : State) (fz : Bool) : State :=
  { s with pmuPending := s.pmuPending ++ [(fz, s.time.mono + 16)] }

/-- Add n to uncore counter m of slice k: a wrap sets OVF, may freeze and may interrupt (R548 to R551). -/
def State.uncAdd (s : State) (k m n : Nat) : State :=
  let old := s.fld (F.UNC_CTR k m)
  let s1 := s.addFld (F.UNC_CTR k m) n
  if old + n < 2 ^ 64 then s1
  else
    let e := (s.rd (R.UNC_EVT k m)).toNat
    let s2 := (s1.setFld ⟨R.UNC_EVT k m, 63, 1⟩ 1).setFld ⟨R.UNC_OVF k, m, 1⟩ 1
    let s3 := if bitOf e 61 then s2.setFld (F.UNC_FREEZE_FROZEN k) 1 else s2
    let s4 := if bitOf e 62 then s3.raise (F.PMU_INT_STATUS_OVF_SEEN k) (R.PMU_INT_ENABLE k) else s3
    if s4.on F.PMU_FREEZE_ON_UNC_OVF then s4.scheduleFreeze true else s4

/-- Count n occurrences of uncore event ev in slice k (R545, R546). -/
def State.pmuUnc (s : State) (k ev n : Nat) (c : UncCtx) : State :=
  if s.deviceFrozen || s.on (F.UNC_FREEZE_FROZEN k) then s
  else (List.range 8).foldl (fun t m => if s.uncSelects k m ev c then t.uncAdd k m n else t) s

/-- Add n to core counter m (6 c + j) of cluster k of slice sl: a wrap sets OVF and may freeze the core's counters (R548, R550).
CPOIP (mip bit 17) is read from OVF and IRQ_EN (R549). -/
def State.coreAdd (s : State) (sl k m n : Nat) : State :=
  let old := s.fld (F.CORE_HPM sl k m)
  let s1 := s.addFld (F.CORE_HPM sl k m) n
  if old + n < 2 ^ 64 then s1
  else
    let e := (s.rd (R.CORE_HPM_EVT sl k m)).toNat
    let s2 := (s1.setFld ⟨R.CORE_HPM_EVT sl k m, 63, 1⟩ 1).setFld ⟨R.CORE_OVF sl k, m, 1⟩ 1
    if bitOf e 61 then s2.setFld (F.CORE_INHIBIT sl k (m / 6)) 0x1FD else s2

/-- Count n occurrences of a thread event ev of thread i (local index) of cluster k of slice sl, in M-mode or U-mode (R542, R543). -/
def State.pmuThread (s : State) (sl k i : Nat) (mMode : Bool) (ev n : Nat) : State :=
  let c := i / 4
  if s.deviceFrozen || s.on (F.CLUSTER_FREEZE_FROZEN sl k) then s
  else (List.range 6).foldl (fun t j =>
    let m := 6 * c + j
    let e := (s.rd (R.CORE_HPM_EVT sl k m)).toNat
    let inhibited := bitOf (s.rd (R.CORE_INHIBIT sl k c)).toNat (j + 3)
    let maskOk := decide (bitsOf e 11 8 = 0) || bitOf e (8 + i % 4)
    let modeOk := if mMode then bitOf e 13 else bitOf e 12
    if decide (bitsOf e 7 0 = ev) && !inhibited && maskOk && modeOk then t.coreAdd sl k m n else t) s

/-- Count n occurrences of a core event ev of core c (R543: kind "core" ignores the thread filters). -/
def State.pmuCore (s : State) (sl k c ev n : Nat) : State :=
  if s.deviceFrozen || s.on (F.CLUSTER_FREEZE_FROZEN sl k) then s
  else (List.range 6).foldl (fun t j =>
    let m := 6 * c + j
    let e := (s.rd (R.CORE_HPM_EVT sl k m)).toNat
    let inhibited := bitOf (s.rd (R.CORE_INHIBIT sl k c)).toNat (j + 3)
    if decide (bitsOf e 7 0 = ev) && !inhibited then t.coreAdd sl k m n else t) s

end Sys2Proof.Machine
end

