-- ==== Sys2Proof/Machine/Access.lean ====
section
/-!
DEFINITION. Who may reach a register (R585, R587 and the owning chapters), shared by the commands that are register writes.
-/

namespace Sys2Proof.Machine

/-- The slice that address a of the slice register space belongs to (R583). -/
def sliceOf (a : Nat) : Nat := (a - 0x4000000) / 0x1000000

/-- The cluster of its slice that a CLUSTER block address belongs to (R583). -/
def clusterOf (a : Nat) : Nat := ((a - 0x4000000) % 0x1000000 - 0x50000) / 0x4000

/-- The cluster of its slice that a PMU_CORE block address belongs to (R583). -/
def pmuClusterOf (a : Nat) : Nat := ((a - 0x4000000) % 0x1000000 - 0x100000) / 0x1000

/-- The staging slot w that a slot register's address names, from the row's last-but-one or last index. -/
def slotOf (r : RegRow) (a : Nat) : Nat :=
  match r.dims with
  | _ :: (st, _) :: _ => (a - r.base) % 0x1000000 / st
  | _ => 0

/-- The owner of staging slot w of slice k: slot 0 the manager, 1 the Keeper, 2 to 5 the clusters (R178, R192). -/
def ownsSlot (w k : Nat) : Agent → Bool
  | .manager => decide (w = 0)
  | .keeper => decide (w = 1)
  | .hart s c _ => decide (s = k ∧ w = 2 + c)
  | _ => false

/-- May this agent reach a register opened as o, to write (or read) it at address a? -/
def agentOk (o : Opn) (row : RegRow) (a : Nat) (write : Bool) (g : Agent) : Bool :=
  match o, g with
  | .managerKeeper, .manager | .managerKeeper, .keeper => true
  | .keeperWrites, .keeper => true
  | .keeperWrites, .manager => !write
  | .keeperOnly, .keeper => true
  | .cluster, .keeper | .cluster, .debug => true
  | .cluster, .hart s k i => decide (s = sliceOf a ∧ k = clusterOf a ∧ i = 0)
  | .clusterKeeperWrites, .keeper | .clusterKeeperWrites, .debug => true
  | .clusterKeeperWrites, .hart s k i => !write && decide (s = sliceOf a ∧ k = clusterOf a ∧ i = 0)
  | .chAbort, .keeper | .chAbort, .debug => true
  | .pmuCore, .manager | .pmuCore, .keeper | .pmuCore, .debug => true
  | .pmuCore, .hart s k i => decide (s = sliceOf a ∧ k = pmuClusterOf a ∧ i = 0)
  | .sliceHarts, .manager | .sliceHarts, .keeper => true
  | .sliceHarts, .hart s _ _ => decide (s = sliceOf a)
  | .slotOwner, g => ownsSlot (slotOf row a) (sliceOf a) g
  | .addrSlotOwner, .manager => decide (slotOf row a = 0)
  | .addrSlotOwner, .keeper => decide (slotOf row a = 1)
  | .deliver, .keeper => true
  | .deliver, .hart s _ _ => decide (s = sliceOf a)
  | .hostFunction, .host f => decide (f = (a - 0x10000000000) / 0x1000)
  | .hostFunction, .manager => decide ((a - 0x10000000000) / 0x1000 = 0)
  | .pf0Host, .host f => decide (f = 0)
  | .pf0Host, .manager => true
  | _, _ => false

/-- May agent g write (or read) the register at address a? An address that no map names is open to nobody (R585). -/
def accessOk (a : Nat) (write : Bool) (g : Agent) : Bool :=
  match findRow a with
  | some r => agentOk r.opn r a write g
  | none => false

end Sys2Proof.Machine
end

