-- ==== Sys2Proof/Machine/Arb.lean ====
section
/-!
DEFINITION. Deadline arbitration with back-off, the class registers and priority pause (chapter 03).
-/

namespace Sys2Proof.Machine

/-- The arbiter record's key: 32 s + d in slice s, 128 + d in the hub. -/
def arbKey (hub : Bool) (k d : Nat) : Nat := if hub then 128 + d else 32 * k + d

def State.arbiter (s : State) (key : Nat) : Arbiter := Map.get (fun _ => {}) s.arb.arbiters key

def State.setArbiter (s : State) (key : Nat) (a : Arbiter) : State :=
  { s with arb.arbiters := Map.put (fun _ => {}) s.arb.arbiters key a }

/-- A requester's record at an arbiter. -/
def Arbiter.requester (a : Arbiter) (src : Nat) : Requester :=
  (a.requesters.find? (fun r => decide (r.source = src))).getD { source := src }

/-- Replace a requester's record. -/
def Arbiter.setRequester (a : Arbiter) (r : Requester) : Arbiter :=
  { a with requesters := r :: a.requesters.filter (fun x => decide (x.source ≠ r.source)) }

/-- A request's distance from FT_MONO: negative when the deadline has passed; one passed by more than 2^30 ticks ranks as
FT_MONO − 2^30 (R78). -/
def relDeadline (mono deadline : Nat) : Int := max (-(2 ^ 30)) ((deadline : Int) - (mono : Int))

/-- The nearest deadline among a request and those of the same stream. -/
def streamDeadline (mono : Nat) (r : ArbReq) (reqs : List ArbReq) : Nat :=
  ((leastBy (fun x => relDeadline mono x.deadline) (r :: reqs.filter (fun x => decide (x.source = r.source ∧ x.stream = r.stream)))).getD r).deadline

/-- The requests that may be sent next: of an in-order stream, whose flits stand in their order, the first, and it carries the nearest deadline held by
any flit behind it (R82). -/
def streamHeads (mono : Nat) : List ArbReq → List (Nat × Nat) → List ArbReq
  | [], _ => []
  | r :: rs, seen =>
    if r.stream = 0 then r :: streamHeads mono rs seen
    else if seen.contains (r.source, r.stream) then streamHeads mono rs seen
    else { r with deadline := streamDeadline mono r rs } :: streamHeads mono rs ((r.source, r.stream) :: seen)

/-- The nearest request of each requester: a requester presents one request in a cycle (R82). -/
def onePerSource (mono : Nat) : List ArbReq → List ArbReq
  | [] => []
  | r :: rs =>
    let rest := onePerSource mono rs
    match rest.find? (fun x => decide (x.source = r.source)) with
    | some x =>
      if relDeadline mono r.deadline ≤ relDeadline mono x.deadline then
        r :: rest.filter (fun y => decide (y.source ≠ r.source)) else rest
    | none => r :: rest

/-- The requests present: those of requesters that are not backing off (R82, R85). -/
def presentReqs (a : Arbiter) (mono : Nat) (reqs : List ArbReq) : List ArbReq :=
  (onePerSource mono (streamHeads mono reqs [])).filter (fun r =>
    match (a.requester r.source).silentUntil with
    | some t => decide (t < mono)
    | none => true)

/-- The distance of a source after the last tie-winner, ascending and wrapping (R83). -/
def tieRank (tie src : Nat) : Nat := (src + 31 - tie % 32) % 32

/-- The winner of a cycle: nearest deadline, ties to the source that follows the last tie-winner; and whether a tie was
decided (R80, R83). -/
def arbWinner (a : Arbiter) (mono : Nat) (reqs : List ArbReq) : Option (ArbReq × Bool) :=
  match leastBy (fun r => relDeadline mono r.deadline) reqs with
  | none => none
  | some best =>
    let tied := reqs.filter (fun r => decide (relDeadline mono r.deadline = relDeadline mono best.deadline))
    (leastBy (fun r => (tieRank a.tie r.source : Int)) tied).map (fun w => (w, decide (1 < tied.length)))

/-- The back-off count of the k-th consecutive loss (R85). -/
def backoffCount (k : Nat) : Nat := min (2 ^ (k - 1)) 1024

/-- The cycle a requester first presented the request it waits with; now, when it presents a new one. -/
def Arbiter.firstOf (a : Arbiter) (mono src : Nat) : Nat := ((a.requester src).first).getD mono

/-- The arbiter after a cycle in which `w` won over `losers` (R80, R83, R85). -/
def Arbiter.decide (a : Arbiter) (mono : Nat) (w : ArbReq) (tied : Bool) (losers : List ArbReq) : Arbiter :=
  let a1 := a.setRequester { source := w.source }
  let a2 := losers.foldl (fun b r =>
    let q := a.requester r.source
    b.setRequester { source := r.source, losses := q.losses + 1,
                     silentUntil := some (mono + backoffCount (q.losses + 1)), first := some (a.firstOf mono r.source) }) a1
  { a2 with tie := if tied then w.source else a.tie, last := some mono, granted := some (mono, w.source, w.cls), moved := a.granted }

/-- A cycle with no request present (R80). -/
def Arbiter.idle (a : Arbiter) (mono : Nat) : Arbiter := { a with last := some mono, granted := none, moved := a.granted }

/-- The flit on the data path in cycle `mono`: the one granted in the cycle before (R80). -/
def Arbiter.onPath (a : Arbiter) (mono : Nat) : Option (Nat × Nat) :=
  match a.granted, a.moved with
  | some (n, src, cls), m =>
    if n + 1 = mono then some (src, cls) else m.bind (fun e => if e.1 + 1 = mono then some (e.2.1, e.2.2) else none)
  | none, some (n, src, cls) => if n + 1 = mono then some (src, cls) else none
  | none, none => none

/-- The requests of a cycle that could not be arbitrated stay asserted: only their first cycle is noted (R81). -/
def Arbiter.hold (a : Arbiter) (mono : Nat) (reqs : List ArbReq) : Arbiter :=
  reqs.foldl (fun b r => b.setRequester { b.requester r.source with first := some (b.firstOf mono r.source) }) (a.idle mono)

/-! The counters of a destination, in a slice or in the hub. -/

def arbGrants (hub : Bool) (k d : Nat) : Fld := if hub then F.ARB_HUB_GRANTS d else F.ARB_GRANTS k d
def arbLosses (hub : Bool) (k d : Nat) : Fld := if hub then F.ARB_HUB_LOSSES d else F.ARB_LOSSES k d
def arbBackoff (hub : Bool) (k d : Nat) : Fld := if hub then F.ARB_HUB_BACKOFF d else F.ARB_BACKOFF k d
def arbCapped (hub : Bool) (k d : Nat) : Fld := if hub then F.ARB_HUB_CAPPED d else F.ARB_CAPPED k d
def arbLate (hub : Bool) (k d : Nat) : Fld := if hub then F.ARB_HUB_LATE d else F.ARB_LATE k d
def arbWaitMax (hub : Bool) (k d : Nat) : Fld := if hub then F.ARB_HUB_WAIT_MAX d else F.ARB_WAIT_MAX k d
def arbArbs (hub : Bool) (k d : Nat) : Fld := if hub then F.ARB_HUB_ARBS d else F.ARB_ARBS k d
def arbClassGrants (hub : Bool) (k n : Nat) : Fld := if hub then F.ARB_HUB_CLASS_GRANTS n else F.ARB_CLASS_GRANTS k n
def arbClassLate (hub : Bool) (k n : Nat) : Fld := if hub then F.ARB_HUB_CLASS_LATE n else F.ARB_CLASS_LATE k n
def arbClassWaitMax (hub : Bool) (k n : Nat) : Fld := if hub then F.ARB_HUB_CLASS_WAIT_MAX n else F.ARB_CLASS_WAIT_MAX k n
def arbLateSeen (hub : Bool) (k : Nat) : Fld := if hub then F.ARB_HUB_INT_STATUS_LATE_SEEN else F.ARB_INT_STATUS_LATE_SEEN k
def arbCappedSeen (hub : Bool) (k : Nat) : Fld := if hub then F.ARB_HUB_INT_STATUS_CAPPED_SEEN else F.ARB_INT_STATUS_CAPPED_SEEN k
def arbIntEnable (hub : Bool) (k : Nat) : Nat := if hub then R.ARB_HUB_INT_ENABLE else R.ARB_INT_ENABLE k

/-- The counts the losers' back-offs add up to, and how many of them are capped. -/
def lossCounts (a : Arbiter) (losers : List ArbReq) : List Nat :=
  losers.map (fun r => backoffCount ((a.requester r.source).losses + 1))

/-- Count a grant: flits, class, late grants, waits, losses and back-offs of the cycle, and the status bits (R84, R85, R88). -/
def State.countArb (s : State) (hub : Bool) (k d : Nat) (a : Arbiter) (w : ArbReq) (losers : List ArbReq) : State :=
  let counts := lossCounts a losers
  let capped := (counts.filter (fun c => c = 1024)).length
  let late := relDeadline s.time.mono w.deadline < 0
  let wait := s.time.mono - a.firstOf s.time.mono w.source
  let detail := d + 256 * w.cls
  let s1 := ((s.incFld (arbArbs hub k d)).incFld (arbGrants hub k d)).incFld (arbClassGrants hub k w.cls)
  let s2 := ((s1.addFld (arbLosses hub k d) losers.length).addFld (arbBackoff hub k d) counts.sum).addFld (arbCapped hub k d) capped
  let s3 := (s2.peakFld (arbWaitMax hub k d) wait).peakFld (arbClassWaitMax hub k w.cls) wait
  let s4 := if late then
      ((s3.incFld (arbLate hub k d)).incFld (arbClassLate hub k w.cls)).raiseWith (arbLateSeen hub k) (arbIntEnable hub k) detail
    else s3
  let s5 := if 0 < capped then s4.raiseWith (arbCappedSeen hub k) (arbIntEnable hub k) detail else s4
  if hub then (if d < 8 then s5.pmuUnc (d / 2) 0x0F 1 { cls := some w.cls } else s5)
  else
    let c : UncCtx := { port := some d, cls := some w.cls, master := some w.source,
                        addr := if 6 ≤ d ∧ d ≤ 13 then some (0x2000000000 + w.target) else none }
    let s6 := (s5.pmuUnc k 0x02 1 c).pmuUnc k 0x03 losers.length { c with addr := none }
    let s7 := if late then s6.pmuUnc k 0x04 1 c else s6
    if d = 25 ∨ d = 26 then s7.pmuUnc k 0x0E 1 { cls := some w.cls, master := some w.source } else s7

/-- The crossbar port of a slice that serves a packet buffer cell, an HBM address and a Flow Handle (R24). -/
def pbPort (cell : Nat) : Nat := 2 + cell / 256 % 4
def hbmPort (a : Nat) : Nat := 6 + a / 256 % 8
def catPort (h : Nat) : Nat := 14 + h % 2

/-- Does a request for `target` go to destination d: the interleaved ports take what R24 gives them, of the packet buffer by cell address, of HBM by address
and of the Catalogue by handle? -/
def arbReaches (hub : Bool) (d target : Nat) : Bool :=
  if hub then true
  else if 2 ≤ d ∧ d ≤ 5 then decide (pbPort target = d)
  else if 6 ≤ d ∧ d ≤ 13 then decide (hbmPort target = d)
  else if d = 14 ∨ d = 15 then decide (catPort target = d)
  else true

/-- Does this destination exist (R24; ARB_HUB entries 23 to 27 are reserved)? -/
def arbExists (hub : Bool) (k d : Nat) : Bool := if hub then decide (d < 23) else decide (k < 4 ∧ d < 28)

/-- Is a priority of a port paused? -/
def State.isPaused (s : State) (k p pr : Nat) : Bool := s.arb.paused.any (fun e => decide (e.1 = (k, p, pr)))

/-- The credit a sender has on VC v (R298). -/
def KLink.creditOn (l : KLink) (v : Nat) : Nat := l.adv.getD v 0 - unsigned 16 ((l.sent.getD v 0 : Int) - (l.credit.getD v 0 : Int))

/-- Can the destination take a flit of this lane in the next cycle (R81)? At the MAC group (port 0 of a slice) a paused priority and a link that is down
take none; at a Korrum Link egress port a virtual channel without credit takes none. -/
def State.laneOpen (s : State) (hub : Bool) (k d lane : Nat) : Bool :=
  if hub then
    (if 17 ≤ d ∧ d ≤ 22 then decide (0 < (s.links.getD (d - 17) {}).creditOn lane) else true)
  else if d = 0 then !s.isPaused k (lane / 8) (lane % 8) && s.on ⟨R.ETH_LINK_STATUS k, lane / 8, 1⟩
  else true

/-- ARBITRATION_CYCLE (R80 to R86): one cycle of a destination, at most one in a fabric cycle. `asserted` are the requests asserted, of which
those for a target that the destination serves reach it (R24), those of an in-order
stream in their order; of lanes that take no flit the state knows (State.laneOpen), and `ready` is false when the destination cannot accept a flit in the
next cycle for another reason (a full egress queue): then it does not arbitrate. -/
def execArbitrationCycle (hub : Bool) (slice dest : Nat) (asserted : List ArbReq) (ready : Bool) (s : State) :
    Host.Outcome State Fault Refusal := whenSlices s <|
  let reqs := asserted.filter (fun r => arbReaches hub dest r.target)
  let key := arbKey hub slice dest
  let a := s.arbiter key
  if !arbExists hub slice dest ∨ a.last = some s.time.mono then .next s
  else
    let able := presentReqs a s.time.mono (reqs.filter (fun r => s.laneOpen hub slice dest r.lane))
    if !ready ∨ (able = [] ∧ reqs ≠ [] ∧ reqs.all (fun r => !s.laneOpen hub slice dest r.lane)) then
      .next (s.setArbiter key (a.hold s.time.mono (presentReqs a s.time.mono reqs)))
    else
      let present := able
      match arbWinner a s.time.mono present with
      | none =>
        let s1 := s.setArbiter key (a.idle s.time.mono)
        .next (if hub then s1 else s1.pmuUnc slice 0x05 (if (a.onPath s.time.mono).isNone then 1 else 0) { port := some dest })
      | some (w, tied) =>
        let losers := present.filter (fun r => decide (r.source ≠ w.source))
        .next ((s.countArb hub slice dest a w losers).setArbiter key (a.decide s.time.mono w tied losers))

/-- BACKOFF_EXPIRE (R85): a requester's count has run out, and it may present its request again. -/
def execBackoffExpire (hub : Bool) (slice dest source : Nat) (s : State) : Host.Outcome State Fault Refusal := whenSlices s <|
  let key := arbKey hub slice dest
  let a := s.arbiter key
  let r := a.requester source
  match r.silentUntil with
  | some t => if t < s.time.mono then .next (s.setArbiter key (a.setRequester { r with silentUntil := none })) else .next s
  | none => .next s

/-- Is addr one of the class registers of R79? -/
def isClassReg (addr : Nat) : Bool :=
  (List.range 16).any (fun n => decide (addr = R.ARB_DEADLINE n)) || (List.range 31).any (fun u => decide (addr = R.ARB_UNIT_CLASS u))

/-- ARB_CLASS_WRITE (R79): the register takes the value; until ARB_SYNC_DONE an operation that begins may use the value in force
before, or any value written since. -/
def execArbClassWrite (agent : Agent) (addr value : Nat) (s : State) : Host.Outcome State Fault Refusal := whenSlices s <|
  if !(accessOk addr true agent && isClassReg addr) then .next s
  else
    let width := if addr < R.ARB_UNIT_CLASS 0 then 24 else 4
    let f : Fld := ⟨addr, 0, width⟩
    let new := value % 2 ^ width
    let log := match s.arb.classLog.find? (fun e => decide (e.2.1 = addr)) with
      | some e => (s.time.mono, addr, e.2.2 ++ [new]) :: s.arb.classLog
      | none => [(s.time.mono, addr, [s.fld f, new]), (0, addr, [s.fld f])] ++ s.arb.classLog
    .next (({ s with arb.classLog := log }.setFld f value).setFld F.ARB_SYNC_PENDING 1)

/-- ARB_SYNC_DONE (R79): the last class write has reached every slice and the hub. -/
def execArbSyncDone (s : State) : Host.Outcome State Fault Refusal := whenSlices s <|
  let regs := (s.arb.classLog.map (fun e => e.2.1)).eraseDups
  let now := regs.map (fun a => (s.time.mono, a, [(s.rd a).toNat]))
  .next (({ s with arb.classLog := now ++ s.arb.classLog } : State).setFld F.ARB_SYNC_PENDING 0)

/-- Ticks of `quanta` pause quanta (512 bit times each) on a port of the mode in force (R22, R81). -/
def pauseTicks (mode quanta : Nat) : Nat := (quanta * 512 * 2 ^ mode + 499) / 500

/-- PRIORITY_PAUSE_RECEIVE (R81): an 802.1Qbb frame pauses a priority of a port for its quanta; zero quanta release it. The frame
itself is consumed by the MAC. -/
def execPriorityPauseReceive (slice port priority quanta : Nat) (s : State) : Host.Outcome State Fault Refusal := whenSlices s <|
  let rest := s.arb.paused.filter (fun e => decide (e.1 ≠ (slice, port, priority)))
  if quanta = 0 then .next { s with arb.paused := rest }
  else .next { s with arb.paused :=
    ((slice, port, priority), s.time.mono + pauseTicks (s.fld (F.ETH_PORT_MODE slice)) quanta) :: rest }

/-- PRIORITY_PAUSE_EXPIRY (R81): a priority's pause time has run out, and its egress destination arbitrates for it again. -/
def execPriorityPauseExpiry (slice port priority : Nat) (s : State) : Host.Outcome State Fault Refusal := whenSlices s <|
  .next { s with arb.paused := s.arb.paused.filter (fun e => !(decide (e.1 = (slice, port, priority)) && decide (e.2 ≤ s.time.mono))) }

end Sys2Proof.Machine
end

