-- ==== Sys2Proof/Machine/Time.lean ====
section
/-!
DEFINITION. Fabric Time, its sources and discipline, steps, timer wheels and the Event Horizon (chapter 02).
-/

namespace Sys2Proof.Machine

/-! Timer wheels (R62 to R66). -/

def State.wheel (s : State) (k : Nat) : Wheel := s.time.wheels.getD k {}

def State.setWheel (s : State) (k : Nat) (w : Wheel) : State :=
  { s with time.wheels := s.time.wheels.set k w }

/-- The FT_MONO instant at which entry e expires. -/
def State.expiryMono (s : State) (e : TwEntry) : Int :=
  if e.abs then (s.time.mono : Int) + s.ticksTo e.expiry else e.expiry

/-- The FT_MONO instant at which entry e of slice k is delivered: TW_LEAD ticks before it expires, TW_LEAD as it reads now (R62). -/
def State.deliverMono (s : State) (k : Nat) (e : TwEntry) : Int := s.expiryMono e - (s.fld (F.TW_LEAD k) : Int)

/-- EVENT_HORIZON of slice k: the earliest delivery of a pending entry, or all ones (R65). -/
def State.horizon (s : State) (k : Nat) : Nat :=
  match leastBy (s.deliverMono k) (s.wheel k).pending with
  | some e => (s.deliverMono k e).toNat
  | none => 2 ^ 64 - 1

/-- Show EVENT_HORIZON and TW_ENTRIES of slice k as the wheel now stands (R63, R65). -/
def State.showWheel (s : State) (k : Nat) : State :=
  ((s.setFld (F.EVENT_HORIZON k) (s.horizon k)).setFld (F.TW_ENTRIES k) (s.wheel k).pending.length).peakFld
    (F.TW_PEAK k) (s.wheel k).pending.length

/-- Insert an entry in the wheel of slice k. -/
def State.twInsert (s : State) (k : Nat) (abs : Bool) (expiry : Nat) (c : TwConsumer) : State :=
  let w := s.wheel k
  (s.setWheel k { w with pending := w.pending ++ [⟨abs, expiry, c, w.seq⟩], seq := w.seq + 1 }).showWheel k

/-- Take a consumer's entries off the wheel of slice k, pending, held or fired: the consumer no longer needs them. -/
def State.twCancel (s : State) (k : Nat) (c : TwConsumer) : State :=
  let w := s.wheel k
  (s.setWheel k { w with
    pending := w.pending.filter (fun e => decide (e.consumer ≠ c)),
    held := w.held.filter (fun e => decide (e.consumer ≠ c)),
    fired := w.fired.filter (fun x => decide (x ≠ c)) }).showWheel k

/-- Is the entry one of the launch and firmware share (R63)? -/
def TwEntry.sharedHalf (e : TwEntry) : Bool :=
  match e.consumer with
  | .launch _ => true
  | .firmware _ _ _ => true
  | _ => false

/-- Has the share of launch-time frames and firmware timers of slice k no room (R63)? -/
def State.twShareFull (s : State) (k : Nat) : Bool :=
  decide (32768 ≤ ((s.wheel k).pending.filter TwEntry.sharedHalf).length)

/-- Deliver one pending entry of slice k to its consumer, which holds it (R62). -/
def State.twDeliver (s : State) (k : Nat) (e : TwEntry) : State :=
  let w := s.wheel k
  ((s.setWheel k { w with pending := w.pending.filter (fun x => decide (x.seq ≠ e.seq)), held := w.held ++ [e] }).incFld
    (F.TW_FIRED k)).showWheel k

/-- The pending entry of slice k that is due first: delivery instant reached, least expiry, then insertion order (R62). -/
def State.twDue (s : State) (k : Nat) : Option TwEntry :=
  leastBy s.expiryMono ((s.wheel k).pending.filter (fun e => decide (s.deliverMono k e ≤ (s.time.mono : Int))))

/-- The held entry of slice k that has expired first, launches left out: a launch takes effect by LAUNCH_RELEASE (R62, R67). -/
def State.twExpired (s : State) (k : Nat) : Option TwEntry :=
  leastBy s.expiryMono ((s.wheel k).held.filter (fun e =>
    decide (s.expiryMono e ≤ (s.time.mono : Int)) && (match e.consumer with | .launch _ => false | _ => true)))

/-- Take entry e out of the held entries of slice k. -/
def State.twRelease (s : State) (k : Nat) (e : TwEntry) : State :=
  let w := s.wheel k
  s.setWheel k { w with held := w.held.filter (fun x => decide (x.seq ≠ e.seq)) }

/-- Has the timer of consumer c of slice k expired, so that its own command may act? -/
def State.twFired (s : State) (k : Nat) (c : TwConsumer) : Bool := (s.wheel k).fired.contains c

/-- The consumer's command has acted. -/
def State.twTake (s : State) (k : Nat) (c : TwConsumer) : State :=
  let w := s.wheel k
  s.setWheel k { w with fired := w.fired.erase c }

/-! Steps (R52, R55, R58, R64). -/

/-- Deliver every pending ABS entry of slice k whose expiry is not later than Fabric Time now, in expiry order (R64). -/
def State.fireOvertaken (s : State) (k : Nat) : State :=
  let w := s.wheel k
  let due := w.pending.filter (fun e => e.abs && decide (e.expiry ≤ s.ftNow))
  let sorted := due.foldl (fun acc e => insertBy (fun x => (x.expiry : Int)) e acc) []
  let s1 := s.setWheel k { w with
    pending := w.pending.filter (fun e => !(e.abs && decide (e.expiry ≤ s.ftNow))), held := w.held ++ sorted }
  ((s1.addFld (F.TW_FIRED k) due.length).addFld (F.TW_STEP_FIRED k) due.length).showWheel k

/-- Step Fabric Time by a signed number of units, never below zero, with every effect of a step (R52, R55, R58, R64, R65). -/
def State.ftStep (s : State) (delta : Int) : State :=
  let new := max 0 ((s.time.units : Int) + delta)
  let applied := new - (s.time.units : Int)
  let s1 := { s with time.units := new.toNat }
  let s2 := (s1.incFld F.FT_STEPS).setFld F.FT_LAST_STEP (unsigned 64 (applied.tdiv 8))
  let s3 := s2.raise F.FT_INT_STATUS_STEPPED R.FT_INT_ENABLE
  (List.range 4).foldl (fun t k => if 0 < applied then t.fireOvertaken k else t.showWheel k) s3

/-! Sources (R50 to R54). -/

/-- A source code as the device treats it: 5 to 7 are code 0 (R50). -/
def srcCode (c : Nat) : Nat := if 5 ≤ c then 0 else c

/-- The key of the primary source: its code, and its PTP port where the code is 1. A member of a federation uses source 3, its master
source 0 in place of 3 (R316). -/
def State.primKey (s : State) : Nat × Nat :=
  let c0 := srcCode (s.fld F.FT_SRC_SEL_PRIMARY)
  let c := if s.fld F.FED_STATE_STATE < 2 then c0 else if s.on F.FED_MASTER_SELF then (if c0 = 3 then 0 else c0) else 3
  (c, if c = 1 then s.fld F.FT_SRC_SEL_PTP_PORT else 0)

/-- The key of the backup source; code 0 while BACKUP_EN is 0. -/
def State.backKey (s : State) : Nat × Nat :=
  let c := if s.on F.FT_CTRL_BACKUP_EN then srcCode (s.fld F.FT_SRC_SEL_BACKUP) else 0
  (c, if c = 1 then s.fld F.FT_SRC_SEL_BACKUP_PTP_PORT else 0)

/-- Is a source valid? Free run never is, host discipline always (R50, R53). -/
def State.srcValid (s : State) (key : Nat × Nat) : Bool :=
  if key.1 = 0 then false else if key.1 = 4 then true else s.time.valid.any (fun e => decide (e.1 = key))

/-- The key of the source in use. -/
def State.srcInUse (s : State) : Nat × Nat := if s.time.onBackup then s.backKey else s.primKey

/-- FT_STATUS.STATE: 0 FREERUN, 1 ACQUIRE, 2 LOCKED, 3 HOLDOVER. -/
def State.ftState (s : State) : Nat := s.fld F.FT_STATUS_STATE

/-- Enter ACQUIRE on the primary or the backup; with source 4 HOST_LOCK decides between ACQUIRE and LOCKED (R53, R55). -/
def State.acquire (s : State) (backup : Bool) : State :=
  let key := if backup then s.backKey else s.primKey
  let s1 := { s with time.onBackup := backup, time.smallRun := 0 }
  let s2 := s1.setFld F.FT_STATUS_ACTIVE_SRC key.1
  if key.1 = 4 ∧ s.on F.FT_CTRL_HOST_LOCK then
    (s2.setFld F.FT_STATUS_STATE 2).raise F.FT_INT_STATUS_LOCKED_ENTER R.FT_INT_ENABLE
  else s2.setFld F.FT_STATUS_STATE 1

/-- Enter FREERUN: ACTIVE_SRC reads 0 (R55). -/
def State.freerun (s : State) : State :=
  ({ s with time.onBackup := false, time.smallRun := 0 }.setFld F.FT_STATUS_STATE 0).setFld F.FT_STATUS_ACTIVE_SRC 0

/-- In FREERUN and HOLDOVER a valid configured source starts ACQUIRE, the primary first (R55). -/
def State.evaluateSources (s : State) : State :=
  if s.ftState = 0 ∨ s.ftState = 3 then
    if s.srcValid s.primKey then s.acquire false
    else if s.srcValid s.backKey then s.acquire true
    else s
  else s

/-- A source becomes valid, if it was not. -/
def State.srcBecomesValid (s : State) (key : Nat × Nat) : State :=
  if s.time.valid.any (fun e => decide (e.1 = key)) then s
  else { s with time.valid := s.time.valid ++ [(key, s.time.mono)] }.evaluateSources

/-- Set the frequency adjustment, held within ±100 ppm (R47), and remember it for the 64 s average (R55). -/
def State.setFreq (s : State) (v : Int) : State :=
  let c := unsigned 32 (clampI (-(100 * 65536)) (100 * 65536) v)
  { s with time.freqLog := (s.time.mono, c) :: s.time.freqLog }.setFld F.FT_FREQ_ADJ c

/-- FT_SLEW_MAX as FT_FREQ_ADJ counts it. A value of 0 acts as 1 ppm and one above 100 as 100 ppm (DESIGN CHOICE, log entry 48: the spec says nothing of
such values). -/
def State.slewMax (s : State) : Int := (min 100 (max 1 (s.fld F.FT_SLEW_MAX)) * 65536 : Nat)

/-- Slew for an offset in units of 0.125 ns (R55, R58): the adjustment the discipline firmware chooses, a free value held within FT_SLEW_MAX; but an offset
above FT_STEP_THRESH that STEP_EN = 0 forbids to step is removed at FT_SLEW_MAX, towards the reference. -/
def State.slew (s : State) (off : Int) : State :=
  let lim := s.slewMax
  if 8 * s.fld F.FT_STEP_THRESH < Int.natAbs off ∧ !s.on F.FT_CTRL_STEP_EN then s.setFreq (if 0 ≤ off then lim else -lim)
  else (s.setFreq (clampI (-lim) lim (Config.slewAdjust s.freeCtr))).draw

/-- The sum of adjustment × ticks over the part of the log that lies after instant lo, newest first. -/
def freqSum : List (Nat × Nat) → Nat → Nat → Int
  | [], _, _ => 0
  | (t, v) :: l, hi, lo =>
    if t ≤ lo then signed 32 v * ((hi - lo : Nat) : Int)
    else signed 32 v * ((hi - t : Nat) : Int) + freqSum l t lo

/-- The frequency adjustment averaged over the last 64 s (R55). -/
def State.freqAverage (s : State) : Int :=
  let lo := s.time.mono - 64 * ticksPerSec
  if s.time.mono ≤ lo then signed 32 (s.fld F.FT_FREQ_ADJ)
  else freqSum s.time.freqLog s.time.mono lo / ((s.time.mono - lo : Nat) : Int)

/-- One offset measurement of the source in use, in units of 0.125 ns, through the table of R55. FT_OFFSET, as FT_LAST_STEP, takes whole nanoseconds,
rounded toward zero (DESIGN CHOICE, log entry 48: the spec does not say how they round). -/
def State.ftMeasure (s : State) (off : Int) : State :=
  let s0 := s.setFld F.FT_OFFSET (unsigned 64 (off.tdiv 8))
  let mag := Int.natAbs off
  if s.ftState = 2 then
    if 8 * s.fld F.FT_UNLOCK_THRESH < mag then
      ({ s0 with time.smallRun := 0 }.setFld F.FT_STATUS_STATE 1).raise F.FT_INT_STATUS_LOCK_LOST R.FT_INT_ENABLE
    else s0.slew off
  else if s.ftState = 1 then
    let run := if mag ≤ 8 * s.fld F.FT_LOCK_THRESH then s.time.smallRun + 1 else 0
    let s1 := if 8 * s.fld F.FT_STEP_THRESH < mag ∧ s.on F.FT_CTRL_STEP_EN then s0.ftStep off else s0.slew off
    if 16 ≤ run then
      ({ s1 with time.smallRun := 0 }.setFld F.FT_STATUS_STATE 2).raise F.FT_INT_STATUS_LOCKED_ENTER R.FT_INT_ENABLE
    else { s1 with time.smallRun := run }
  else s0

/-- A measurement of source `key`: it makes the source valid, and counts in ACQUIRE and LOCKED when that source is in use. -/
def State.srcMeasure (s : State) (key : Nat × Nat) (off : Int) : State :=
  let s1 := s.srcBecomesValid key
  if s1.srcInUse = key ∧ (s1.ftState = 1 ∨ s1.ftState = 2) then s1.ftMeasure off else s1

/-! TIME_PPS (R52, R71). -/

/-- Source 2 is the primary, or the backup with BACKUP_EN = 1 (R52, R71). -/
def State.ppsSelected (s : State) : Bool := decide (s.primKey.1 = 2) || decide (s.backKey.1 = 2)

/-- The second boundary that an edge marks, and the offset of Fabric Time from it, in units (R52). It is the one nearest the edge, the later of two equally
near (DESIGN CHOICE, log entry 48: the spec does not say which boundary an edge belongs to). -/
def State.ppsBoundary (s : State) : Int × Int :=
  let t := (s.time.units : Int) + 8 * signed 32 (s.fld F.FT_PPS_DELAY)
  let sec := (t + unitsPerSec / 2) / unitsPerSec
  (sec, sec * unitsPerSec - t)

/-- A TIME_PPS edge is rejected: counted, and the next edge only starts a new spacing (R52). -/
def State.ppsReject (s : State) : State :=
  { s with time.ppsSeen := false, time.ppsRun := 0 }.incFld F.FT_PPS_GLITCH

/-- The seconds count takes FT_PPS_NEXT_SEC.SEC at an accepted edge; a difference is a step of whole seconds (R52). -/
def State.ppsLoad (s : State) : State :=
  if s.on F.FT_PPS_NEXT_SEC_VALID then
    let whole := (s.fld F.FT_PPS_NEXT_SEC_SEC : Int) - s.ppsBoundary.1
    let s1 := s.setFld F.FT_PPS_NEXT_SEC_VALID 0
    if whole = 0 then s1 else s1.ftStep (whole * unitsPerSec)
  else s

/-- TIME_PPS takes a level, which GPIO_IN shows on bit 7 (R71). -/
def State.ppsLevel (s : State) (high : Bool) : State := { s with boot.gpioIn := setBits s.boot.gpioIn 7 7 (b2n high) }

/-- TIME_PPS_EDGE (R52, R71): an edge of TIME_PPS; a rising one comes `edge.spacing` periods of TIME_10M after the one before it. A falling one is no edge in the
sense of R52. -/
def execTimePpsEdge (edge : PpsEdge) (s0 : State) : Host.Outcome State Fault Refusal := whenUp s0 <|
  let s := s0.ppsLevel edge.rising
  if !edge.rising ∨ !s.ppsSelected then .next s
  else if !s.time.ppsSeen then .next { s with time.ppsSeen := true, time.ppsRun := 0 }
  else if edge.spacing < 9999900 ∨ 10000100 < edge.spacing then .next s.ppsReject
  else if s.ftState = 2 ∧ 80000 < Int.natAbs s.ppsBoundary.2 then .next s.ppsReject
  else
    let s1 := { s with time.ppsRun := s.time.ppsRun + 1, time.ppsAt := s.time.mono }
    let s2 := if 2 ≤ s1.time.ppsRun then s1.srcBecomesValid (2, 0) else s1
    let s3 := s2.ppsLoad
    .next (if s3.srcInUse.1 = 2 ∧ (s3.ftState = 1 ∨ s3.ftState = 2) ∧ s3.srcValid (2, 0) then s3.ftMeasure s3.ppsBoundary.2 else s3)

/-! The PTP client (R51): the message exchanges of IEEE 1588-2019 (log entry 48). -/

def State.ptpOf (s : State) (p : Nat) : PtpPort := (s.time.ptp.find? (fun x => decide (x.port = p))).getD { port := p }

def State.setPtp (s : State) (x : PtpPort) : State :=
  { s with time.ptp := x :: s.time.ptp.filter (fun y => decide (y.port ≠ x.port)) }

/-- A Sync's time is complete: with the path delay known it measures the offset; and a delay request goes out, Delay_Req or, under the peer-to-peer
mechanism (2), Pdelay_Req. -/
def State.ptpSynced (s : State) (x : PtpPort) (sentAt : Int) : State :=
  let y := { x with wait := false, sentAt := sentAt, reqSeq := (x.reqSeq + 1) % 65536, reqTx := s.time.units, peerRx := none }
  let s1 := (s.setPtp y).emit (.ptp x.port (if s.time.ptpDelayMech = 2 then 2 else 1) y.reqSeq s.time.units)
  match x.delay with
  | some d => s1.srcMeasure (1, x.port) (sentAt + d - x.syncRx)
  | none => s1

/-- The PTP client takes one message on port p. -/
def State.ptpTake (s : State) (p : Nat) (m : PtpMsg) : State :=
  let x := s.ptpOf p
  let p2p := decide (s.time.ptpDelayMech = 2)
  let now : Int := s.time.units
  if m.kind = 0xB then s.setPtp { x with announceAt := s.time.mono }
  else if m.kind = 0 then
    let y := { x with syncAt := s.time.mono, syncSeq := m.seq, syncRx := s.time.units, syncCorr := m.corr, wait := m.twoStep }
    if m.twoStep then s.setPtp y else s.ptpSynced y (m.stamp + m.corr)
  else if m.kind = 8 then (if x.wait ∧ m.seq = x.syncSeq then s.ptpSynced x (m.stamp + x.syncCorr + m.corr) else s)
  else if m.kind = 9 then
    (if !p2p ∧ m.seq = x.reqSeq then s.setPtp { x with delay := some (((x.syncRx - x.sentAt) + (m.stamp - m.corr - x.reqTx)) / 2) } else s)
  else if m.kind = 3 then
    (if p2p ∧ m.seq = x.reqSeq then
      (if m.twoStep then s.setPtp { x with peerRx := some (m.stamp + m.corr), respRx := s.time.units }
       else s.setPtp { x with delay := some ((now - x.reqTx - m.corr) / 2) })
     else s)
  else if m.kind = 0xA then
    (match x.peerRx with
     | some t2 => if p2p ∧ m.seq = x.reqSeq then
         s.setPtp { x with peerRx := none, delay := some (((x.respRx : Int) - x.reqTx - (m.stamp + m.corr - t2)) / 2) } else s
     | none => s)
  else if m.kind = 2 ∧ p2p then (s.emit (.ptp p 3 m.seq s.time.units)).emit (.ptp p 0xA m.seq s.time.units)
  else s

/-- PTP_MESSAGE_RECEIVE (R51): the Keeper's PTP client takes a message of its domain and transport on a configured port of source 1; one that completes
an offset measurement is a measurement of source 1 on that port. -/
def execPtpMessageReceive (port : Nat) (msg : PtpMsg) (s : State) : Host.Outcome State Fault Refusal := whenUp s <|
  if (s.primKey = (1, port) ∨ s.backKey = (1, port)) ∧ msg.domain = s.time.ptpDomain ∧ msg.transport = s.time.ptpTransport then
    .next (s.ptpTake port msg)
  else .next s

/-- Ticks of a PTP message interval of 2^n seconds. -/
def ptpInterval (n : Int) : Nat := if 0 ≤ n then ticksPerSec * 2 ^ n.toNat else ticksPerSec / 2 ^ (-n).toNat

/-- Has source 1 on port p missed what R54 names: three sync intervals without a Sync, or the Announce receipt timeout of the default profile, three
intervals of 2 s? -/
def State.ptpSilent (s : State) (p : Nat) : Bool :=
  let x := s.ptpOf p
  decide (x.syncAt + 3 * ptpInterval (signed 8 s.time.ptpLogSync) ≤ s.time.mono) || decide (x.announceAt + 3 * ptpInterval 1 ≤ s.time.mono)

/-- Has source 2 missed what R54 names: 1.1 s without an edge after the last accepted one, or TIME_10M (`no10M`: no edge of it for 1 µs)? -/
def State.ppsSilent (s : State) (no10M : Bool) : Bool := no10M || decide (s.time.ppsAt + ticksPerSec * 11 / 10 ≤ s.time.mono)

/-- A source is lost (R54, R55). -/
def State.srcLost (s : State) (key : Nat × Nat) : State :=
  let s0 := if key.1 = 2 then { s with time.ppsSeen := false, time.ppsRun := 0 } else s
  let s1 := { s0 with time.valid := s0.time.valid.filter (fun e => decide (e.1 ≠ key)) }
  let s2 := if s.primKey = key ∨ s.backKey = key then s1.incFld F.FT_LOSS else s1
  if s.srcInUse = key ∧ (s.ftState = 1 ∨ s.ftState = 2) then
    let s3 := s2.raise F.FT_INT_STATUS_REF_LOST R.FT_INT_ENABLE
    let other := if s.time.onBackup then s2.primKey else s2.backKey
    if s2.srcValid other then
      (s3.acquire (!s.time.onBackup)).raise F.FT_INT_STATUS_SRC_SWITCHED R.FT_INT_ENABLE
    else if s.ftState = 2 then
      { s3.setFreq s3.freqAverage with time.holdSince := s3.time.mono }.setFld F.FT_STATUS_STATE 3
    else s3.freerun
  else s2

/-- Has a source gone silent for as long as R54 and R317 say: source 3 when no TIME_SYNC has been accepted for 50 ms? -/
def State.srcSilent (s : State) (code port : Nat) (no10M : Bool) : Bool :=
  if code = 1 then s.ptpSilent port
  else if code = 2 then s.ppsSilent no10M
  else decide (s.fed.lastSync + 50 * ticksPerMs ≤ s.time.mono)

/-- REF_SOURCE_LOST (R54, R317): a configured source that was valid and has gone silent is declared lost. Source 4 is never lost. -/
def execRefSourceLost (code : Nat) (loss : RefLoss) (s : State) : Host.Outcome State Fault Refusal := whenUp s <|
  let key := (code, if code = 1 then loss.port else 0)
  if s.time.valid.any (fun e => decide (e.1 = key)) && s.srcSilent code loss.port loss.no10M then .next (s.srcLost key) else .next s

/-- HOLDOVER_EXPIRE (R55): FT_HOLDOVER_LIMIT seconds have passed in HOLDOVER. -/
def execHoldoverExpire (s : State) : Host.Outcome State Fault Refusal := whenUp s <|
  if s.ftState = 3 ∧ s.time.holdSince + s.fld F.FT_HOLDOVER_LIMIT * ticksPerSec ≤ s.time.mono then
    .next (s.freerun.raise F.FT_INT_STATUS_HOLDOVER_EXPIRED R.FT_INT_ENABLE)
  else .next s

/-- PRIMARY_RETURN (R56): on the backup, the primary has been valid for 60 s without a break. -/
def execPrimaryReturn (s : State) : Host.Outcome State Fault Refusal := whenUp s <|
  let since := if s.primKey.1 = 4 then 0 else ((s.time.valid.find? (fun e => decide (e.1 = s.primKey))).map (·.2)).getD s.time.mono
  if s.time.onBackup ∧ (s.ftState = 1 ∨ s.ftState = 2) ∧ s.srcValid s.primKey ∧ since + 60 * ticksPerSec ≤ s.time.mono then
    .next ((s.acquire false).raise F.FT_INT_STATUS_SRC_SWITCHED R.FT_INT_ENABLE)
  else .next s

/-- GPIO7 as source 2 is selected or deselected: its driver goes off, and later it returns to what it held before (R71). -/
def State.gpio7Follow (s : State) : State :=
  if s.ppsSelected then
    match s.time.gpio7 with
    | some _ => s
    | none => { s with time.gpio7 := some (wordFld (s.rd R.GPIO_DIR) 7 1, wordFld (s.rd R.GPIO_OUT) 7 1) }
  else
    match s.time.gpio7 with
    | some (d, o) => ({ s with time.gpio7 := none }.setFld ⟨R.GPIO_DIR, 7, 1⟩ d).setFld ⟨R.GPIO_OUT, 7, 1⟩ o
    | none => s

/-- Reselection: measurement and qualification restart for the sources now configured (R52, R55). Source 2 qualifies anew; sources 1 and 3 stay valid if
they were (DESIGN CHOICE, log entry 48: the spec says that qualification starts afresh only of source 2). -/
def State.reselect (s : State) : State :=
  let s1 := { s with time.ppsSeen := false, time.ppsRun := 0,
                     time.valid := s.time.valid.filter (fun e => decide (e.1 ≠ (2, 0))) }
  let s2 := s1.gpio7Follow
  if s2.srcValid s2.primKey then s2.acquire false
  else if s2.srcValid s2.backKey then s2.acquire true
  else s2.freerun

/-- FT_SRC_RESELECT (R55): a write to FT_SRC_SEL or FT_CTRL that changes PRIMARY, BACKUP, PTP_PORT, BACKUP_PTP_PORT or
BACKUP_EN. A write that leaves all five as they were reselects nothing. -/
def execFtSrcReselect (agent : Agent) (addr : Nat) (value : Word) (s : State) : Host.Outcome State Fault Refusal := whenUp s <|
  if !accessOk addr true agent then .next s
  else if addr = R.FT_SRC_SEL then
    let s1 := (((s.setFld F.FT_SRC_SEL_PRIMARY (wordFld value 0 3)).setFld F.FT_SRC_SEL_BACKUP (wordFld value 4 3)).setFld
      F.FT_SRC_SEL_PTP_PORT (wordFld value 8 5)).setFld F.FT_SRC_SEL_BACKUP_PTP_PORT (wordFld value 16 5)
    .next (if s1.rd R.FT_SRC_SEL = s.rd R.FT_SRC_SEL then s else s1.reselect)
  else if addr = R.FT_CTRL then
    let s1 := (s.setFld F.FT_CTRL_STEP_EN (wordFld value 0 1)).setFld F.FT_CTRL_BACKUP_EN (wordFld value 1 1)
    .next (if s1.fld F.FT_CTRL_BACKUP_EN = s.fld F.FT_CTRL_BACKUP_EN then s1 else s1.reselect)
  else .next s

/-- HOST_LOCK_WRITE (R53): a change of FT_CTRL.HOST_LOCK while source 4 is the source in use moves the state. -/
def execHostLockWrite (agent : Agent) (lock : Bool) (s : State) : Host.Outcome State Fault Refusal := whenUp s <|
  if !accessOk R.FT_CTRL true agent then .next s
  else
    let was := s.on F.FT_CTRL_HOST_LOCK
    let s1 := s.setFld F.FT_CTRL_HOST_LOCK (b2n lock)
    if s.srcInUse.1 = 4 ∧ (s.ftState = 1 ∨ s.ftState = 2) ∧ was ≠ lock then
      if lock then .next ((s1.setFld F.FT_STATUS_STATE 2).raise F.FT_INT_STATUS_LOCKED_ENTER R.FT_INT_ENABLE)
      else .next ((s1.setFld F.FT_STATUS_STATE 1).raise F.FT_INT_STATUS_LOCK_LOST R.FT_INT_ENABLE)
    else .next s1

/-- FT_STEP_WRITE (R58): honoured only when the active source is 4 or the state is FREERUN. -/
def execFtStepWrite (agent : Agent) (value : Word) (s : State) : Host.Outcome State Fault Refusal := whenUp s <|
  if accessOk R.FT_STEP true agent ∧ (s.fld F.FT_STATUS_ACTIVE_SRC = 4 ∨ s.ftState = 0) then
    .next (s.ftStep (8 * signed 64 value.toNat))
  else .next s

/-- FT_NOW_SEC_READ (R591): the read returns the seconds and latches the fraction for the reading agent. -/
def execFtNowSecRead (agent : Agent) (s : State) : Host.Outcome State Fault Refusal := whenUp s <|
  if accessOk R.FT_NOW_SEC false agent then
    .next ({ s with time.fracLatch := (agent, s.ftNow % 2 ^ 48) :: s.time.fracLatch.filter (fun e => decide (e.1 ≠ agent)) }.emit
      (.readData agent R.FT_NOW_SEC (s.ftSec % 2 ^ 48)))
  else .next (s.emit (.readData agent R.FT_NOW_SEC 0))

/-- The banked TW_ARM_TIME of an agent in slice k (R63). -/
def State.armTimeOf (s : State) (g : Agent) (k : Nat) : Nat :=
  ((s.time.armTime.find? (fun e => decide (e.1 = (g, k)))).map (·.2)).getD 0

/-- Set the banked TW_ARM_TIME of an agent in slice k. -/
def State.setArmTime (s : State) (g : Agent) (k v : Nat) : State :=
  { s with time.armTime := ((g, k), v) :: s.time.armTime.filter (fun e => decide (e.1 ≠ (g, k))) }

/-- Set the banked TW_ARM_RESULT of an agent in slice k. -/
def State.setArmResult (s : State) (g : Agent) (k v : Nat) : State :=
  { s with time.armResult := ((g, k), v) :: s.time.armResult.filter (fun e => decide (e.1 ≠ (g, k))) }

/-- TW_ARM (R63): a 64-bit write of TW_ARM_CTRL inserts a firmware timer with the agent's TW_ARM_TIME, or is refused when the
launch and firmware share is full. -/
def execTwArm (agent : Agent) (slice : Nat) (ctrl : Word) (s : State) : Host.Outcome State Fault Refusal := whenUp s <|
  if !accessOk (R.TW_ARM_CTRL slice) true agent then .next s
  else if s.twShareFull slice then .next ((s.setArmResult agent slice 2).incFld (F.TW_FULL slice))
  else
    let t := s.armTimeOf agent slice
    let abs := decide (wordFld ctrl 0 1 = 0)
    let e := if abs then completeTs s.ftNow t else t
    .next ((s.twInsert slice abs e (.firmware (wordFld ctrl 1 2) (wordFld ctrl 8 6) (wordFld ctrl 32 32))).setArmResult agent slice 1)

/-- TW_LEAD_WRITE (R62, R65): the new lead applies to the entries already pending. -/
def execTwLeadWrite (agent : Agent) (slice value : Nat) (s : State) : Host.Outcome State Fault Refusal := whenUp s <|
  if accessOk (R.TW_LEAD slice) true agent then .next ((s.setFld (F.TW_LEAD slice) value).showWheel slice) else .next s

/-- TIMER_DELIVER (R62, R527): the pending entry whose delivery instant has come goes to its consumer, which holds it; once the slice is ready. -/
def execTimerDeliver (slice : Nat) (s : State) : Host.Outcome State Fault Refusal := whenUp s <|
  if !s.awake slice then .next s else
  match s.twDue slice with
  | some e => .next (s.twDeliver slice e)
  | none => .next s

end Sys2Proof.Machine
end

