-- ==== Sys2Proof/Machine/Cells.lean ====
section
/-!
DEFINITION. Frames in the packet buffer: their records, the cells they hold by class, the tokens that threads hold them under, and the spine they cross
(chapters 01 and 07: R32, R36 to R41, R187, R189, R190).
-/

namespace Sys2Proof.Machine

/-! Frames and cells (R36 to R41). -/

def emptyFrame : Frame := { id := 0, origin := .korrum 0 0, slice := 0, stage := .arriving, data := [], arrived := 0 }

def State.frame? (s : State) (id : Nat) : Option Frame := Map.find? s.eth.frames id

def State.setFrame (s : State) (f : Frame) : State := { s with eth.frames := Map.insert s.eth.frames f.id f }

def State.pbMin (s : State) (k n : Nat) : Nat := s.eth.pbMin.getD (4 * k + n) 0
def State.pbMax (s : State) (k n : Nat) : Nat := s.eth.pbMax.getD (4 * k + n) 0
def State.pbUse (s : State) (k n : Nat) : Nat := s.fld (F.PB_CLASS_USE k n)

/-- The cells of a slice's packet buffer. -/
def pbCells : Nat := 98304

/-- Free shared cells: 98,304 minus the sum over the classes of the larger of use and minimum (R40). -/
def State.sharedFree (s : State) (k : Nat) : Nat := pbCells - ((List.range 4).map (fun n => max (s.pbUse k n) (s.pbMin k n))).sum

/-- Charge d more (or fewer) cells to class n of slice k, and show it. -/
def State.setUse (s : State) (k n use : Nat) : State :=
  let s1 := (s.setFld (F.PB_CLASS_USE k n) use).peakFld (F.PB_CLASS_PEAK k n) use
  s1.setFld (F.PB_SHARED_FREE k) (s1.sharedFree k)

/-- How one cell request of class n is decided at once (R36): granted from the reservation, sent to the contention for the shared
pool, or refused. -/
inductive CellAnswer where
  | grant | contend | refuse
  deriving DecidableEq, Repr

def State.cellAnswer (s : State) (k n : Nat) : CellAnswer :=
  if s.pbUse k n < s.pbMin k n then .grant
  else if s.pbUse k n < s.pbMax k n ∧ 0 < s.sharedFree k then .contend
  else .refuse

/-- Add a cell of class n in slice k to a frame's list. -/
def addCell (k n : Nat) : List (Nat × Nat × Nat) → List (Nat × Nat × Nat)
  | [] => [(k, n, 1)]
  | (k', n', m) :: l => if k' = k ∧ n' = n then (k', n', m + 1) :: l else (k', n', m) :: addCell k n l

/-- Give a frame one cell of class n of slice k. -/
def State.grantCell (s : State) (k n : Nat) (f : Frame) : State :=
  ((s.setUse k n (s.pbUse k n + 1)).pmuUnc k 0x09 1 { cls := some f.dlClass }).setFrame { f with cells := addCell k n f.cells }

/-- Free every cell of a frame that stands in slice k (all slices when `every`). -/
def State.freeCells (s : State) (f : Frame) (every : Bool) (k : Nat) : State :=
  let go := f.cells.filter (fun c => every || decide (c.1 = k))
  let s1 := go.foldl (fun t c => t.setUse c.1 c.2.1 (t.pbUse c.1 c.2.1 - c.2.2)) s
  { s1 with arb.waiting := s1.arb.waiting.filter (fun r => match r.work with
      | .cell _ fr => !(decide (fr = f.id) && (every || decide (r.slice = k)))
      | _ => true) }.setFrame { f with cells := f.cells.filter (fun c => !(every || decide (c.1 = k))), cellWait := 0 }

/-! Catalogue counters that a drop touches (R185, R189). -/

/-- The live Catalogue entry of a handle. -/
def State.catEntry (s : State) (h : Nat) : Nat := Map.get (fun _ => 0) s.cat.entries h

def State.setCat (s : State) (h e : Nat) : State := { s with cat.entries := Map.put (fun _ => 0) s.cat.entries h e }

/-- One more in the DROPS of a handle's live entry. -/
def State.catDrop (s : State) (h : Nat) : State :=
  let e := s.catEntry h
  s.setCat h (setBits e 247 216 (bitsOf e 247 216 + 1))

/-- A frame leaves the device's tables: its cells are freed and nothing names it any more. -/
def State.eraseFrame (s : State) (f : Frame) : State :=
  let s1 := s.freeCells f true 0
  { s1 with eth.frames := Map.erase s1.eth.frames f.id, eth.queues := s1.eth.queues.map (fun q => q.filter (fun x => decide (x ≠ f.id))),
            cat.tokens := Map.eraseIf (fun _ x => decide (x = f.id)) s1.cat.tokens }

/-- Work crosses the spine from slice a to slice b. -/
def State.spineCross (s : State) (a b : Nat) : State :=
  if a = b then s else (s.incFld (F.SPINE_OUT a)).incFld (F.SPINE_IN b)

/-- Show the tokens held in slice k. -/
def State.showTokens (s : State) (k : Nat) : State :=
  s.setFld (F.DELIVER_INUSE k) (Map.countIf (fun n _ => decide (n / 1024 = k)) s.cat.tokens)

/-- Free a token. -/
def State.freeTok (s : State) (k t : Nat) : State :=
  { s with cat.tokens := Map.erase s.cat.tokens (1024 * k + t) }.showTokens k

/-- A frame that a thread held under a token is dropped: its entry counts it, and its token and its cells are free (R189, R190). -/
def State.dropToken (s : State) (k t : Nat) : State :=
  match (Map.find? s.cat.tokens (1024 * k + t)).bind s.frame? with
  | none => s
  | some f =>
    let s1 := match f.looked with
      | some r => s.catDrop r.handle
      | none => s
    (s1.freeTok k t).eraseFrame f

end Sys2Proof.Machine
end

