-- ==== Sys2Proof/Machine/Cores.lean ====
section
/-!
DEFINITION. Clusters: threads, their traps and commands, channels, stall and deadlock detection, debug (chapter 04). A thread
is named by slice s, cluster k and local index i = 4 c + t (R96).
-/

namespace Sys2Proof.Machine

/-! Names. -/

/-- The cluster's number in the device: 4 s + k. -/
def clKey (s k : Nat) : Nat := 4 * s + k

/-- The thread's number in the device. -/
def thKey (s k i : Nat) : Nat := 128 * s + 32 * k + i

/-- The hart ID of thread s.k.c.t with i = 4 c + t (R7). -/
def hartId (s k i : Nat) : Nat := (s * 32 + k * 8 + i / 4) * 4 + i % 4

/-- Thread states (R96). -/
def thParked : Nat := 0
def thRunning : Nat := 1
def thFaulted : Nat := 2
def thHalted : Nat := 3

/-- Threads per core, from the strap (R95). -/
def State.threadsPerCore (s : State) : Nat := if s.on F.STRAP_STATUS_THREADS_SEL then 4 else 2

/-- Does thread i of cluster k of slice sl exist (R6, R95)? -/
def State.threadExists (s : State) (sl k i : Nat) : Bool := decide (sl < 4 ∧ k < 4 ∧ i < 32 ∧ i % 4 < s.threadsPerCore)

/-! Accessors. -/

def State.thx (s : State) (sl k i : Nat) : ThreadX := Map.get (fun _ => {}) s.core.threads (thKey sl k i)

def State.setThx (s : State) (sl k i : Nat) (t : ThreadX) : State :=
  { s with core.threads := Map.put (fun _ => {}) s.core.threads (thKey sl k i) t }

def State.clx (s : State) (sl k : Nat) : ClusterX := Map.get (fun _ => {}) s.core.clusters (clKey sl k)

def State.setClx (s : State) (sl k : Nat) (c : ClusterX) : State :=
  { s with core.clusters := Map.put (fun _ => {}) s.core.clusters (clKey sl k) c }

def State.thState (s : State) (sl k i : Nat) : Nat := s.fld (F.THREAD_STATE_STATE sl k i)

/-- A thread other than the Curator has stopped, or lost its spinning mark: the stall condition fails in some core cycle (R119). -/
def State.breakStall (s : State) (sl k i : Nat) : State := if i = 0 then s else s.setClx sl k { s.clx sl k with broken := true }

/-- Set a thread's state, with the HALTED and FAULTED bitmaps that show it. -/
def State.setThState (s : State) (sl k i v : Nat) : State :=
  (((s.breakStall sl k i).setFld (F.THREAD_STATE_STATE sl k i) v).setFld ⟨R.HALTED sl k, i, 1⟩ (b2n (decide (v = 3)))).setFld
    ⟨R.FAULTED sl k, i, 1⟩ (b2n (decide (v = 2)))

/-- Set a thread's spinning mark, with the SPINNING bitmap that shows it (R99). -/
def State.setSpin (s : State) (sl k i v : Nat) : State :=
  ((if v = 0 then s.breakStall sl k i else s).setFld (F.THREAD_STATE_SPINNING sl k i) v).setFld ⟨R.SPINNING sl k, i, 1⟩ v

/-- General register r of a thread; x0 reads zero (R114). -/
def State.xreg (s : State) (sl k i r : Nat) : Word := if r = 0 then 0 else s.rd (R.THREAD_GPR sl k i r)

/-- Write general register r of a thread; writes of x0 are discarded. -/
def State.setXreg (s : State) (sl k i r : Nat) (v : Word) : State := if r = 0 then s else s.wr (R.THREAD_GPR sl k i r) v

def State.pc (s : State) (sl k i : Nat) : Nat := (s.rd (R.THREAD_PC sl k i)).toNat

def State.setPc (s : State) (sl k i : Nat) (v : Nat) : State := s.wr (R.THREAD_PC sl k i) (BitVec.ofNat 64 v)

/-- A CSR of a thread, by number; unlisted it reads as the reset value given. -/
def State.csr (s : State) (sl k i n : Nat) (dflt : Word) : Word := Map.get (fun _ => dflt) s.core.csrs (4096 * thKey sl k i + n)

def State.setCsr (s : State) (sl k i n : Nat) (dflt v : Word) : State :=
  { s with core.csrs := Map.put (fun _ => dflt) s.core.csrs (4096 * thKey sl k i + n) v }

/-- Curator CSRs by name: mstatus (MIE bit 3, MPIE bit 7, MPP fixed at M), mtvec, mepc, mcause, mtval, mie (0 at reset but for the
fixed MPP). -/
def csrMstatus : Nat := 0x300
def csrMie : Nat := 0x304
def csrMtvec : Nat := 0x305
def csrMepc : Nat := 0x341
def csrMcause : Nat := 0x342
def csrMtval : Nat := 0x343

/-- mstatus at reset: MIE = 0, MPP = M (the Curator has no other mode, R97). -/
def mstatusReset : Word := 0x1800

/-- Runs in M-mode: the Curator, thread 0 of the cluster (R97, R112). -/
def isCurator (i : Nat) : Bool := decide (i = 0)

/-- Is the thread ready: it exists, its slice is in SI0 with its core clock running (R525, R541), it is RUNNING and is not in a WAITSPIN pause (R96)? A
thread waits for no cache miss, store buffer or channel operation: every access is done when its command has run. -/
def State.ready (s : State) (sl k i : Nat) : Bool :=
  s.threadExists sl k i && s.awake sl && s.power.avsStep.isNone && decide (s.thState sl k i = thRunning) && (s.thx sl k i).pauseUntil.isNone

/-- The core cycles that the clusters of slice sl have run. -/
def State.sliceCycles (s : State) (sl : Nat) : Nat := s.core.cycles.getD sl 0

/-- The issue record of the core of thread i; before the first issue, thread 0 comes first. -/
def State.issueRec (s : State) (sl k i : Nat) : Nat × Nat := Map.get (fun _ => (0, 3)) s.core.issued (32 * sl + 8 * k + i / 4)

/-- Has thread i the issue slot of its core: the core has issued nothing in this cycle, and no thread between the last that issued and this one, in
ascending order and wrapping, is ready (R96)? -/
def State.hasSlot (s : State) (sl k i : Nat) : Bool :=
  let r := s.issueRec sl k i
  decide (r.1 ≤ s.sliceCycles sl) && (List.range ((i % 4 + 3 - r.2 % 4) % 4)).all (fun j => !s.ready sl k (i / 4 * 4 + (r.2 + 1 + j) % 4))

/-- Can the thread execute an instruction now: it is ready, and has the issue slot of its core (R96)? -/
def State.canIssue (s : State) (sl k i : Nat) : Bool := s.ready sl k i && s.hasSlot sl k i

/-- The thread takes its core's issue slot of this cycle (R96). -/
def State.issueSlot (s : State) (sl k i : Nat) : State :=
  { s with core.issued := Map.put (fun _ => (0, 3)) s.core.issued (32 * sl + 8 * k + i / 4) (s.sliceCycles sl + 1, i % 4) }

/-! The fault queue (R113, R120). -/

/-- Queue a record: CFIP reads 1 while the queue is not empty. -/
def State.queueFault (s : State) (sl k : Nat) (r : FaultRec) : State :=
  let c := s.clx sl k
  (s.setClx sl k { c with faults := c.faults ++ [r] }).setFld (F.FAULT_COUNT sl k) (c.faults.length + 1)

/-- mip of the cluster's Curator: CFIP (bit 16) while the fault queue is not empty (R113), CPOIP (bit 17) while a core counter has
OVF and IRQ_EN both set (R549). -/
def State.curatorMip (s : State) (sl k : Nat) : Nat :=
  65536 * b2n (s.core.cfip.getD (clKey sl k) false) + 131072 * b2n (s.core.cpoip.getD (clKey sl k) false)

/-! Traps (R112 to R116). -/

/-- A trap of a thread other than the Curator (R113): it stops in FAULTED, its PC, registers and open channel are kept, and one
record enters the fault queue. -/
def State.threadTrap (s : State) (sl k i code tval : Nat) : State :=
  let s1 := ((s.setThState sl k i thFaulted).setSpin sl k i 0).pmuThread sl k i false 0x14 1
  let s2 := s1.setThx sl k i { s1.thx sl k i with pauseUntil := none }
  s2.queueFault sl k ⟨i, code, false, s.pc sl k i, tval, s.time.mono⟩

/-- Where a trap of the Curator goes: mtvec's base, or base + 4 × cause for an interrupt in vectored mode. -/
def mtvecTarget (mtvec : Word) (interrupt : Bool) (code : Nat) : Nat :=
  let base := mtvec.toNat / 4 * 4
  if interrupt ∧ mtvec.toNat % 4 = 1 then base + 4 * code else base

/-- A trap of the Curator: through mtvec under the standard rules, or, while IN_TRAP is set, a stop in HALTED with NESTED set
and CURATOR_FAULT to the Keeper (R112, R116). -/
def State.curatorTrap (s : State) (sl k : Nat) (interrupt : Bool) (code tval : Nat) : State :=
  let s1 := ((s.setSpin sl k 0 0).setThx sl k 0 { s.thx sl k 0 with pauseUntil := none }).pmuThread sl k 0 true 0x14 1
  if s.on (F.CURATOR_STATUS_IN_TRAP sl k) then
    (((s1.setThx sl k 0 { s1.thx sl k 0 with preHalt := thRunning }).setThState sl k 0 thHalted).setFld
      (F.CURATOR_STATUS_NESTED sl k) 1).notify (R.CURATOR_STATUS sl k) 1 code
  else
    let ms := s1.csr sl k 0 csrMstatus mstatusReset
    let ms' := setWordFld (setWordFld ms 7 1 (wordFld ms 3 1)) 3 1 0
    let cause : Word := BitVec.ofNat 64 (b2n interrupt * 2 ^ 63 + code)
    let s2 := s1.setCsr sl k 0 csrMstatus mstatusReset ms'
    let s3 := ((s2.setCsr sl k 0 csrMepc 0 (BitVec.ofNat 64 (s.pc sl k 0))).setCsr sl k 0 csrMcause 0 cause).setCsr sl k 0 csrMtval 0
      (BitVec.ofNat 64 tval)
    (s3.setFld (F.CURATOR_STATUS_IN_TRAP sl k) 1).setPc sl k 0 (mtvecTarget (s1.csr sl k 0 csrMtvec 0) interrupt code)

/-- A trap of any thread (R112, R113). -/
def State.trap (s : State) (sl k i code tval : Nat) : State :=
  if isCurator i then s.curatorTrap sl k false code tval else s.threadTrap sl k i code tval

/-- An instruction of n bytes retires: the PC moves on and minstret counts, unless inhibited or frozen (R540, R543, R550). -/
def State.retireTo (s : State) (sl k i pc : Nat) : State :=
  let s1 := s.setPc sl k i pc
  let stop := s1.deviceFrozen || s1.on (F.CLUSTER_FREEZE_FROZEN sl k) || bitOf (s1.rd (R.CORE_INHIBIT sl k (i / 4))).toNat 2
  let s2 := if stop then s1 else s1.incFld (F.THREAD_INSTRET sl k i)
  s2.pmuThread sl k i (isCurator i) 0x02 1

/-- A custom instruction (4 bytes) retires with a result for rd. -/
def State.retireRd (s : State) (sl k i rd : Nat) (v : Word) : State :=
  (s.setXreg sl k i rd v).retireTo sl k i (s.pc sl k i + 4)

/-! Channels (R102 to R111). Channel operations name a channel by bits [5:0] of their operand. -/

def chFree : Nat := 0
def chOpenSt : Nat := 1
def chReady : Nat := 2

def State.chState (s : State) (sl k m : Nat) : Nat := s.fld (F.CH_STATE_STATE sl k m)

/-- The doublewords put or delivered to a channel. -/
def State.chMsg (s : State) (sl k m : Nat) : List Nat := Map.get (fun _ => []) s.core.chData (64 * clKey sl k + m)

def State.setChMsg (s : State) (sl k m : Nat) (l : List Nat) : State :=
  { s with core.chData := Map.put (fun _ => []) s.core.chData (64 * clKey sl k + m) l }.setFld (F.CH_STATE_COUNT sl k m) l.length

/-- A channel becomes FREE and empty. -/
def State.chClear (s : State) (sl k m : Nat) : State :=
  (((s.setChMsg sl k m []).setFld (F.CH_STATE_STATE sl k m) chFree).setFld (F.CH_STATE_WRITER sl k m) 0).setFld (F.CH_STATE_HW sl k m) 0

/-- The thread no longer holds a channel open. -/
def State.dropHold (s : State) (sl k i : Nat) : State :=
  (s.setFld (F.THREAD_STATE_HOLDS_OPEN sl k i) 0).setFld (F.THREAD_STATE_CHANNEL sl k i) 0

/-- Does thread i hold channel m open? -/
def State.holdsOpen (s : State) (sl k i m : Nat) : Bool :=
  s.on (F.THREAD_STATE_HOLDS_OPEN sl k i) && decide (s.fld (F.THREAD_STATE_CHANNEL sl k i) = m)

/-- Discard a channel's message under R103, setting the writer's ABORTED flag where the table says so. -/
def State.chAbort (s : State) (sl k m : Nat) (flag : Bool) : State :=
  if s.chState sl k m = chOpenSt then
    let w := s.fld (F.CH_STATE_WRITER sl k m)
    let s1 := ((s.dropHold sl k w).chClear sl k m).incFld (F.CH_ABORTS sl k)
    if flag then s1.setFld (F.THREAD_STATE_ABORTED sl k w) 1 else s1
  else if s.chState sl k m = chReady then (s.chClear sl k m).incFld (F.CH_ABORTS sl k)
  else s

/-- May thread i write to channel m: the bit of its domain; the Curator by VENDOR_WRITE (R106)? -/
def State.mayWriteCh (s : State) (sl k i m : Nat) : Bool :=
  if !isCurator i && s.on (F.THREAD_CTRL_DOMAIN sl k i) then s.on (F.CH_BIND_CUSTOMER_WRITE sl k m)
  else s.on (F.CH_BIND_VENDOR_WRITE sl k m)

/-- The result of CHOPEN (R106): 2 DENIED, 3 ALREADY_WRITING where the thread holds another channel open, 1 BUSY, 0 OPENED, in that order of test. -/
def State.chOpenResult (s : State) (sl k i m : Nat) : Nat :=
  if !s.mayWriteCh sl k i m then 2
  else if s.on (F.THREAD_STATE_HOLDS_OPEN sl k i) ∧ !s.holdsOpen sl k i m then 3
  else if s.chState sl k m ≠ chFree then 1
  else 0

/-- The effect of CHOPEN on channel m, and its result. -/
def State.chOpen (s : State) (sl k i m : Nat) : State × Nat :=
  let r := s.chOpenResult sl k i m
  if r = 0 then
    (((((s.setChMsg sl k m []).setFld (F.CH_STATE_STATE sl k m) chOpenSt).setFld (F.CH_STATE_WRITER sl k m) i).setFld
      (F.THREAD_STATE_HOLDS_OPEN sl k i) 1).setFld (F.THREAD_STATE_CHANNEL sl k i) m |>.setSpin sl k i 0, 0)
  else if r = 1 then ((s.incFld (F.CH_OPEN_BUSY sl k)).pmuThread sl k i (isCurator i) 0x12 1, 1)
  else (s, r)

/-- What stops a CHPUT or CHCLOSE (R107), in order: CHANNEL_ABORTED (the flag clears), CHANNEL_NOT_OWNER. -/
def State.chWriteStop (s : State) (sl k i m : Nat) : Option Nat :=
  if s.on (F.THREAD_STATE_ABORTED sl k i) then some 26
  else if !s.holdsOpen sl k i m then some 24
  else none

/-- Trap a channel instruction; CHANNEL_ABORTED clears the thread's flag (R107). The spec gives these codes no mtval or FAULT_TVAL: it is 0 (DESIGN CHOICE,
log entry 8). -/
def State.chTrap (s : State) (sl k i code : Nat) : State :=
  (if code = 26 then s.setFld (F.THREAD_STATE_ABORTED sl k i) 0 else s).trap sl k i code 0

/-- Put a doubleword, length below 8 (R103). -/
def State.chPut (s : State) (sl k i m d : Nat) : State :=
  (s.setChMsg sl k m (s.chMsg sl k m ++ [d])).setSpin sl k i 0

/-- Close the message: it becomes READY (R103, R105). -/
def State.chClose (s : State) (sl k i m : Nat) : State :=
  (((s.setFld (F.CH_STATE_STATE sl k m) chReady).dropHold sl k i).incFld (F.CH_MSGS sl k)).setSpin sl k i 0

/-- The status word CHGET mode 0 returns (R108). -/
def State.chStatus (s : State) (sl k m : Nat) : Nat :=
  let ready := decide (s.chState sl k m = chReady)
  let hw := s.on (F.CH_STATE_HW sl k m)
  b2n ready + 2 * (if ready then (s.chMsg sl k m).length else 0) +
    256 * (if hw then 0 else s.fld (F.CH_STATE_WRITER sl k m)) + 8192 * b2n hw

/-- The doubleword CHGET modes 1 and 2 return (R108). -/
def State.chWord (s : State) (sl k m ix : Nat) : Nat :=
  if s.chState sl k m = chReady then (s.chMsg sl k m).getD ix 0 else 0

/-- The effect of a reader's CHGET, and its result (R108). -/
def State.chGet (s : State) (sl k i m ix mode : Nat) : State × Nat :=
  if mode = 0 then
    ((if s.chState sl k m = chReady then s else s.pmuThread sl k i (isCurator i) 0x13 1), s.chStatus sl k m)
  else
    let v := if mode = 3 then 0 else s.chWord sl k m ix
    let s1 := if 2 ≤ mode ∧ s.chState sl k m = chReady then s.chClear sl k m else s
    (s1.setSpin sl k i 0, v)

/-- The doublewords of a hardware message that is delivered now: FT_MONO stands where the kind of message has it (R110, R190). -/
def HwMsg.stamped (h : HwMsg) (now : Nat) (dws : List Nat) : List Nat :=
  match h with
  | .plain => dws
  | .timer => dws.set 2 now
  | .token _ => dws.set 3 now

/-- A hardware message makes a FREE channel READY with HW set (R103). -/
def State.chDeliver (s : State) (sl k m : Nat) (dws : List Nat) (h : HwMsg) : State :=
  (((s.setChMsg sl k m (h.stamped s.time.mono dws)).setFld (F.CH_STATE_STATE sl k m) chReady).setFld (F.CH_STATE_HW sl k m) 1).incFld (F.CH_MSGS sl k)

/-- What goes with a hardware message that is lost: a frame's token and the frame (R190). -/
def State.msgLost (s : State) (sl : Nat) (h : HwMsg) : State :=
  match h with
  | .token t => s.dropToken sl t
  | _ => s

/-- A hardware message is lost (R111, R190). -/
def State.chLost (s : State) (sl k m : Nat) (h : HwMsg) : State :=
  let s1 := (s.msgLost sl h).incFld (F.CH_HW_DROP sl k)
  if (s.clx sl k).faults.any (fun r => decide (r.code = 49)) then s1
  else s1.queueFault sl k ⟨0, 49, true, 0, m, s.time.mono⟩

/-- A hardware writer delivers a message to a channel (R111): at once where the channel is FREE and none of its messages wait,
else through the deferred-delivery queue of 32, or it is lost. -/
def State.hwDeliver (s : State) (sl k m : Nat) (dws : List Nat) (h : HwMsg) : State :=
  let c := s.clx sl k
  if !s.on (F.CH_BIND_HW_WRITE sl k m) then s.chLost sl k m h
  else if s.chState sl k m = chFree ∧ !c.deferred.any (fun e => decide (e.1 = m)) then s.chDeliver sl k m dws h
  else if c.deferred.length < 32 then
    (s.setClx sl k { c with deferred := c.deferred ++ [(m, dws, h)] }).incFld (F.CH_HW_DEFER sl k)
  else s.chLost sl k m h

/-! The custom instructions (R98 to R108). -/

/-- WAITSPIN: a pause of WAITSPIN_PAUSE core cycles, and the spinning mark (R99). -/
def State.waitspin (s : State) (sl k i : Nat) : State :=
  let s1 := (s.setSpin sl k i 1).setThx sl k i
    { s.thx sl k i with pauseUntil := some (s.sliceCycles sl + s.fld (F.WAITSPIN_PAUSE sl k)), lastSpin := s.sliceCycles sl }
  (s1.pmuThread sl k i (isCurator i) 0x04 1).retireTo sl k i (s.pc sl k i + 4)

/-- WAITSPIN. -/
def execWaitspin (slice cluster thread : Nat) (s : State) : Host.Outcome State Fault Refusal := whenSlices s <|
  if s.canIssue slice cluster thread then .next ((s.issueSlot slice cluster thread).waitspin slice cluster thread) else .next s

/-- WFI executes exactly as WAITSPIN (R94). -/
def execWfi (slice cluster thread : Nat) (s : State) : Host.Outcome State Fault Refusal := whenSlices s <|
  if s.canIssue slice cluster thread then .next ((s.issueSlot slice cluster thread).waitspin slice cluster thread) else .next s

/-- FTREAD (R101): selector 0 returns the seconds and latches the fraction, 1 returns the latch, 2 FT_MONO; above 2 it is an
illegal instruction (R98). -/
def State.ftread (s : State) (sl k i rd sel : Nat) : State :=
  match sel with
  | 0 => (s.setThx sl k i { s.thx sl k i with ftLatch := s.ftNow % 2 ^ 48 }).retireRd sl k i rd (BitVec.ofNat 64 (s.ftSec % 2 ^ 48))
  | 1 => s.retireRd sl k i rd (BitVec.ofNat 64 (s.thx sl k i).ftLatch)
  | 2 => s.retireRd sl k i rd (BitVec.ofNat 64 s.time.mono)
  | _ => s.trap sl k i 2 (Config.trapTval 2 (0x500B + 128 * rd + 2 ^ 25 * sel))

/-- FTREAD rd, sel. -/
def execFtread (slice cluster thread rd sel : Nat) (s : State) : Host.Outcome State Fault Refusal := whenSlices s <|
  if s.canIssue slice cluster thread then .next ((s.issueSlot slice cluster thread).ftread slice cluster thread rd sel) else .next s

/-- CHOPEN rd, rs1. -/
def State.chopenI (s : State) (sl k i rd rs1 : Nat) : State :=
  let (s1, r) := s.chOpen sl k i ((s.xreg sl k i rs1).toNat % 64)
  s1.retireRd sl k i rd (BitVec.ofNat 64 r)

def execChopen (slice cluster thread rd rs1 : Nat) (s : State) : Host.Outcome State Fault Refusal := whenSlices s <|
  if s.canIssue slice cluster thread then .next ((s.issueSlot slice cluster thread).chopenI slice cluster thread rd rs1) else .next s

/-- CHPUT rs1, rs2 (R107): the ninth doubleword traps CHANNEL_OVERFLOW. -/
def State.chputI (s : State) (sl k i rs1 rs2 : Nat) : State :=
  let m := (s.xreg sl k i rs1).toNat % 64
  match s.chWriteStop sl k i m with
  | some code => s.chTrap sl k i code
  | none =>
    if 8 ≤ (s.chMsg sl k m).length then s.chTrap sl k i 25
    else (s.chPut sl k i m (s.xreg sl k i rs2).toNat).retireTo sl k i (s.pc sl k i + 4)

def execChput (slice cluster thread rs1 rs2 : Nat) (s : State) : Host.Outcome State Fault Refusal := whenSlices s <|
  if s.canIssue slice cluster thread then .next ((s.issueSlot slice cluster thread).chputI slice cluster thread rs1 rs2) else .next s

/-- CHCLOSE rs1 (R107). -/
def State.chcloseI (s : State) (sl k i rs1 : Nat) : State :=
  let m := (s.xreg sl k i rs1).toNat % 64
  match s.chWriteStop sl k i m with
  | some code => s.chTrap sl k i code
  | none => (s.chClose sl k i m).retireTo sl k i (s.pc sl k i + 4)

def execChclose (slice cluster thread rs1 : Nat) (s : State) : Host.Outcome State Fault Refusal := whenSlices s <|
  if s.canIssue slice cluster thread then .next ((s.issueSlot slice cluster thread).chcloseI slice cluster thread rs1) else .next s

/-- CHGET rd, rs1 (R108): by a thread other than the bound reader it traps CHANNEL_NOT_READER in every mode. -/
def State.chgetI (s : State) (sl k i rd rs1 : Nat) : State :=
  let op := (s.xreg sl k i rs1).toNat
  let m := op % 64
  if s.fld (F.CH_BIND_READER sl k m) ≠ i then s.chTrap sl k i 27
  else
    let (s1, v) := s.chGet sl k i m (bitsOf op 10 8) (bitsOf op 13 12)
    s1.retireRd sl k i rd (BitVec.ofNat 64 v)

def execChget (slice cluster thread rd rs1 : Nat) (s : State) : Host.Outcome State Fault Refusal := whenSlices s <|
  if s.canIssue slice cluster thread then .next ((s.issueSlot slice cluster thread).chgetI slice cluster thread rd rs1) else .next s

/-- WAITSPIN_PAUSE_END (R99): the pause has run out, and the thread is ready again. -/
def execWaitspinPauseEnd (slice cluster thread : Nat) (s : State) : Host.Outcome State Fault Refusal := whenSlices s <|
  let t := s.thx slice cluster thread
  match t.pauseUntil with
  | some c => if c ≤ s.sliceCycles slice then .next (s.setThx slice cluster thread { t with pauseUntil := none }) else .next s
  | none => .next s

/-- SPIN_WINDOW in force: 0 acts as 1. -/
def State.spinWindow (s : State) (sl k : Nat) : Nat := max 1 (s.fld (F.SPIN_WINDOW sl k))

/-- SPIN_WINDOW_EXPIRE (R99): SPIN_WINDOW core cycles have passed without a WAITSPIN, and the spinning mark clears. -/
def execSpinWindowExpire (slice cluster thread : Nat) (s : State) : Host.Outcome State Fault Refusal := whenSlices s <|
  if (s.thx slice cluster thread).lastSpin + s.spinWindow slice cluster ≤ s.sliceCycles slice then
    .next (s.setSpin slice cluster thread 0)
  else .next s

/-- A U-mode read of a counter CSR (R93, R544): the counter where CTR_UREAD permits it for the thread's domain, else zero. -/
def State.counterRead (s : State) (sl k i csr : Nat) : Nat :=
  let n := csr - 0xC00
  let bits := if s.on (F.THREAD_CTRL_DOMAIN sl k i) then s.fld (F.CTR_UREAD_CUSTOMER sl k) else s.fld (F.CTR_UREAD_VENDOR sl k)
  if !isCurator i && !(decide (n ≤ 8) && bitOf bits n) then 0
  else if n = 0 then s.fld (F.CORE_CYCLE sl k (i / 4))
  else if n = 1 then s.time.mono
  else if n = 2 then s.fld (F.THREAD_INSTRET sl k i)
  else if n ≤ 8 then s.fld (F.CORE_HPM sl k (6 * (i / 4) + (n - 3)))
  else 0

/-- COUNTER_CSR_READ (R544): a read of cycle, time, instret or hpmcounter3 to hpmcounter31 by a thread; it never traps. -/
def execCounterCsrRead (slice cluster thread rd csr : Nat) (s : State) : Host.Outcome State Fault Refusal := whenSlices s <|
  if s.canIssue slice cluster thread ∧ 0xC00 ≤ csr ∧ csr ≤ 0xC1F then
    .next ((s.issueSlot slice cluster thread).retireRd slice cluster thread rd (BitVec.ofNat 64 (s.counterRead slice cluster thread csr)))
  else .next s

/-- THREAD_TRAP (R113): a RUNNING thread other than the Curator takes a trap. -/
def execThreadTrap (slice cluster thread code tval : Nat) (s : State) : Host.Outcome State Fault Refusal := whenSlices s <|
  if s.threadExists slice cluster thread ∧ !isCurator thread ∧ s.thState slice cluster thread = thRunning then
    .next (s.threadTrap slice cluster thread code tval)
  else .next s

/-- May the Curator take interrupt `code` now: pending, enabled in mie, and mstatus.MIE set? -/
def State.interruptReady (s : State) (sl k code : Nat) : Bool :=
  bitOf (s.curatorMip sl k) code && bitOf (s.csr sl k 0 csrMie 0).toNat code &&
  bitOf (s.csr sl k 0 csrMstatus mstatusReset).toNat 3

/-- CURATOR_TRAP (R112, R116): the running Curator takes an exception, or an interrupt that is pending and enabled. -/
def execCuratorTrap (slice cluster : Nat) (interrupt : Bool) (code tval : Nat) (s : State) : Host.Outcome State Fault Refusal := whenSlices s <|
  if s.thState slice cluster 0 = thRunning ∧ (!interrupt ∨ s.interruptReady slice cluster code) then
    .next (s.curatorTrap slice cluster interrupt code tval)
  else .next s

/-- MRET of the Curator: the standard return, and IN_TRAP clears (R116); of any other thread an illegal instruction (R115). -/
def State.mret (s : State) (sl k i : Nat) : State :=
  if isCurator i then
    let ms := s.csr sl k 0 csrMstatus mstatusReset
    let ms' := setWordFld (setWordFld ms 3 1 (wordFld ms 7 1)) 7 1 1
    ((s.setCsr sl k 0 csrMstatus mstatusReset ms').setFld (F.CURATOR_STATUS_IN_TRAP sl k) 0).retireTo sl k 0
      ((s.csr sl k 0 csrMepc 0).toNat / 2 * 2)
  else s.threadTrap sl k i 2 (Config.trapTval 2 0x30200073)

def execMret (slice cluster thread : Nat) (s : State) : Host.Outcome State Fault Refusal := whenSlices s <|
  if s.canIssue slice cluster thread then .next ((s.issueSlot slice cluster thread).mret slice cluster thread) else .next s

/-- HW_CHANNEL_DELIVERY (R111). -/
def execHwChannelDelivery (slice cluster channel : Nat) (dws : List Nat) (s : State) : Host.Outcome State Fault Refusal := whenSlices s <|
  .next (s.hwDeliver slice cluster (channel % 64) (dws.take 8) .plain)

/-- DEFERRED_DELIVERY_RELEASE (R103, R111): the channel is FREE, and its oldest deferred message is delivered; while HW_WRITE is 0 it is lost. -/
def execDeferredDeliveryRelease (slice cluster channel : Nat) (s : State) : Host.Outcome State Fault Refusal := whenSlices s <|
  let c := s.clx slice cluster
  if s.chState slice cluster channel = chFree then
    match takeFirst (fun e => decide (e.1 = channel)) c.deferred with
    | some (e, rest) =>
      let s1 := s.setClx slice cluster { c with deferred := rest }
      .next (if s.on (F.CH_BIND_HW_WRITE slice cluster channel) then s1.chDeliver slice cluster channel e.2.1 e.2.2 else s1.chLost slice cluster channel e.2.2)
    | none => .next s
  else .next s

/-- CH_ABORT (R103, R125): accepted from the debug module and the Keeper alone. -/
def execChAbort (agent : Agent) (slice cluster channel : Nat) (s : State) : Host.Outcome State Fault Refusal := whenSlices s <|
  if accessOk (R.CH_ABORT slice cluster) true agent then .next (s.chAbort slice cluster channel true) else .next s

/-! Thread commands (R114). -/

/-- Abort the channel a thread holds open, without setting its ABORTED flag: it is being parked or restarted (R103). -/
def State.abortHeld (s : State) (sl k i : Nat) : State :=
  if s.on (F.THREAD_STATE_HOLDS_OPEN sl k i) then s.chAbort sl k (s.fld (F.THREAD_STATE_CHANNEL sl k i)) false else s

/-- RESUME: continue at THREAD_PC[i]; an open channel stays open. -/
def State.resume (s : State) (sl k i : Nat) : State := s.setThState sl k i thRunning

/-- RESTART: continue at THREAD_PC[i] with ABORTED clear; an open channel is aborted. -/
def State.restart (s : State) (sl k i : Nat) : State :=
  ((s.abortHeld sl k i).setFld (F.THREAD_STATE_ABORTED sl k i) 0).setThState sl k i thRunning

/-- PARK: stop in PARKED; an open channel is aborted. -/
def State.park (s : State) (sl k i : Nat) : State :=
  ((s.abortHeld sl k i).setSpin sl k i 0).setThState sl k i thParked

/-- A THREAD_CTRL command: ignored for a RUNNING thread; kept for a HALTED one until the debugger resumes it (R114). The Curator starts by
CLUSTER_CTRL.GO alone (R96), and during a cluster reset nothing starts (R123). -/
def State.threadCmd (s : State) (sl k i cmd : Nat) : State :=
  if !s.threadExists sl k i ∨ s.fld (F.CLUSTER_STATE sl k) = 2 ∨ (i = 0 ∧ cmd ≠ 3) then s
  else if s.thState sl k i = thRunning then s
  else if s.thState sl k i = thHalted then s.setThx sl k i { s.thx sl k i with pendingCmd := cmd }
  else
    match cmd with
    | 1 => s.resume sl k i
    | 2 => s.restart sl k i
    | 3 => s.park sl k i
    | _ => s

/-- THREAD_RESUME. -/
def execThreadResume (agent : Agent) (slice cluster thread : Nat) (s : State) : Host.Outcome State Fault Refusal := whenSlices s <|
  if accessOk (R.THREAD_CTRL slice cluster thread) true agent then .next (s.threadCmd slice cluster thread 1) else .next s

/-- THREAD_RESTART. -/
def execThreadRestart (agent : Agent) (slice cluster thread : Nat) (s : State) : Host.Outcome State Fault Refusal := whenSlices s <|
  if accessOk (R.THREAD_CTRL slice cluster thread) true agent then .next (s.threadCmd slice cluster thread 2) else .next s

/-- THREAD_PARK. -/
def execThreadPark (agent : Agent) (slice cluster thread : Nat) (s : State) : Host.Outcome State Fault Refusal := whenSlices s <|
  if accessOk (R.THREAD_CTRL slice cluster thread) true agent then .next (s.threadCmd slice cluster thread 3) else .next s

/-- Move the oldest fault record into FAULT_INFO, FAULT_PC, FAULT_TVAL and FAULT_TIME; VALID reads 0 if there was none (R113). -/
def State.faultPop (s : State) (sl k : Nat) : State :=
  let c := s.clx sl k
  match c.faults with
  | [] => s.setFld (F.FAULT_INFO_VALID sl k) 0
  | r :: rest =>
    let s1 := (s.setClx sl k { c with faults := rest }).setFld (F.FAULT_COUNT sl k) rest.length
    let info := r.thread + 256 * r.code + 65536 + 131072 * b2n r.clusterEvent
    (((s1.wr (R.FAULT_INFO sl k) (BitVec.ofNat 64 info)).wr (R.FAULT_PC sl k) (BitVec.ofNat 64 r.pc)).wr (R.FAULT_TVAL sl k)
      (BitVec.ofNat 64 r.tval)).wr (R.FAULT_TIME sl k) (BitVec.ofNat 64 r.time)

/-- FAULT_POP (R113). -/
def execFaultPop (agent : Agent) (slice cluster : Nat) (s : State) : Host.Outcome State Fault Refusal := whenSlices s <|
  if accessOk (R.FAULT_POP slice cluster) true agent then .next (s.faultPop slice cluster) else .next s

/-! Cluster start, reset, stall and deadlock (R97, R119 to R123). -/

/-- CLUSTER_CTRL.GO: the Curator starts at CURATOR_ENTRY in M-mode (R97). While CLUSTER_STATE is not PARKED the spec is silent, and GO does nothing (DESIGN
CHOICE, log entry 8). -/
def State.clusterGo (s : State) (sl k : Nat) : State :=
  if s.fld (F.CLUSTER_STATE sl k) = 0 then
    ((s.wr (R.THREAD_PC sl k 0) (s.rd (R.CURATOR_ENTRY sl k))).setThState sl k 0 thRunning).setFld (F.CLUSTER_STATE sl k) 1
  else s

/-- CLUSTER_CTRL_GO. -/
def execClusterCtrlGo (agent : Agent) (slice cluster : Nat) (s : State) : Host.Outcome State Fault Refusal := whenSlices s <|
  if accessOk (R.CLUSTER_CTRL slice cluster) true agent then .next (s.clusterGo slice cluster) else .next s

/-- The counters of the CLUSTER block, which a cluster reset leaves counting (R123). -/
def isClusterCounter (sl k a : Nat) : Bool :=
  decide (a = R.STALL_EVENTS sl k ∨ a = R.DEADLOCK_EVENTS sl k ∨ a = R.CH_MSGS sl k ∨ a = R.CH_OPEN_BUSY sl k ∨
    a = R.CH_ABORTS sl k ∨ a = R.CH_HW_DEFER sl k ∨ a = R.CH_HW_DROP sl k)

/-- Is address a in the CLUSTER block of this cluster? -/
def inCluster (sl k a : Nat) : Bool := decide (R.CLUSTER_STATE sl k ≤ a ∧ a < R.CLUSTER_STATE sl k + 0x4000)

/-- A cluster reset (R123): issue stops, every channel is FREE, deferred messages are counted lost, the fault queue is emptied,
every register of the block but the counters returns to its reset value, and every thread is PARKED. CLUSTER_STATE reads
RESETTING until CLUSTER_RESET_DONE. -/
def State.clusterReset (s : State) (sl k : Nat) : State :=
  let lost := (s.clx sl k).deferred
  let s1 := (lost.foldl (fun t e => t.msgLost sl e.2.2) s).addFld (F.CH_HW_DROP sl k) lost.length
  let s2 := { s1 with
    regs := Map.eraseIf (fun a _ => inCluster sl k a && !isClusterCounter sl k a) s1.regs,
    core.clusters := Map.erase s1.core.clusters (clKey sl k),
    core.threads := Map.eraseIf (fun a _ => decide (a / 32 = clKey sl k)) s1.core.threads,
    core.chData := Map.eraseIf (fun a _ => decide (a / 64 = clKey sl k)) s1.core.chData,
    core.csrs := Map.eraseIf (fun a _ => decide (a / 4096 / 32 = clKey sl k)) s1.core.csrs,
    core.triggers := Map.eraseIf (fun a _ => decide (a / 64 = clKey sl k)) s1.core.triggers }
  s2.setFld (F.CLUSTER_STATE sl k) 2

/-- CLUSTER_CTRL_RESET (R123): written by the Keeper (or the debug module). -/
def execClusterCtrlReset (agent : Agent) (slice cluster : Nat) (s : State) : Host.Outcome State Fault Refusal := whenSlices s <|
  if accessOk (R.CLUSTER_CTRL slice cluster) true agent then .next (s.clusterReset slice cluster) else .next s

/-- CLUSTER_RESET_DONE (R123): CLUSTER_STATE reads PARKED. -/
def execClusterResetDone (slice cluster : Nat) (s : State) : Host.Outcome State Fault Refusal := whenSlices s <|
  if s.fld (F.CLUSTER_STATE slice cluster) = 2 then .next (s.setFld (F.CLUSTER_STATE slice cluster) 0) else .next s

/-- SPIN_LIMIT in force: values below 0x400 act as 0x400. -/
def State.spinLimit (s : State) (sl k : Nat) : Nat := max 0x400 (s.fld (F.SPIN_LIMIT sl k))

/-- The stall condition (R119): some thread other than the Curator is RUNNING, and every one that is not PARKED is RUNNING with
its spinning mark set. -/
def State.stallHolds (s : State) (sl k : Nat) : Bool :=
  let others := (List.range 32).filter (fun i => decide (0 < i))
  others.any (fun i => decide (s.thState sl k i = thRunning)) &&
  others.all (fun i => decide (s.thState sl k i = thParked) ||
    (decide (s.thState sl k i = thRunning) && s.on (F.THREAD_STATE_SPINNING sl k i)))

/-- CLUSTER_STALL (R120): SPIN_COUNT has reached SPIN_LIMIT, the first time in the episode. -/
def execClusterStall (slice cluster : Nat) (s : State) : Host.Outcome State Fault Refusal := whenSlices s <|
  let c := s.clx slice cluster
  if s.stallHolds slice cluster ∧ s.spinLimit slice cluster ≤ s.fld (F.SPIN_COUNT slice cluster) ∧ !c.stallRaised ∧ !c.broken then
    let s1 := (s.setClx slice cluster { c with stallRaised := true }).incFld (F.STALL_EVENTS slice cluster)
    .next (if c.faults.any (fun r => decide (r.code = 48)) then s1
      else s1.queueFault slice cluster ⟨0, 48, true, 0, 0, s.time.mono⟩)
  else .next s

/-- CLUSTER_DEADLOCK (R121): DEADLOCK_COUNT has reached SPIN_LIMIT. -/
def execClusterDeadlock (slice cluster : Nat) (s : State) : Host.Outcome State Fault Refusal := whenSlices s <|
  let c := s.clx slice cluster
  if s.spinLimit slice cluster ≤ s.fld (F.DEADLOCK_COUNT slice cluster) ∧ !c.deadlockRaised then
    .next ((((s.setClx slice cluster { c with deadlockRaised := true }).incFld (F.DEADLOCK_EVENTS slice cluster)).setFld
      (F.CLUSTER_STATE slice cluster) 3).notify (R.CLUSTER_STATE slice cluster) 0 (clKey slice cluster))
  else .next s

/-- Is an interrupt to the Keeper CLUSTER_DEADLOCK or CURATOR_FAULT of cluster s.k (R116, R121)? -/
def isDeadlockInt (sl k : Nat) (e : KeeperInt) : Bool :=
  decide ((e.addr = R.CLUSTER_STATE sl k ∧ e.bit = 0) ∨ (e.addr = R.CURATOR_STATUS sl k ∧ e.bit = 1))

/-- Is an interrupt to the Keeper CLUSTER_DEADLOCK or CURATOR_FAULT of any cluster? -/
def isClusterInt (e : KeeperInt) : Bool := (List.range 16).any (fun n => isDeadlockInt (n / 4) (n % 4) e)

/-- One step of n core cycles of the stall and deadlock counters (R119, R121). At 2^32 − 1 they stay, since the spec does not say that they wrap (DESIGN
CHOICE, log entry 8). A condition that failed since the last step ends the episode, though it holds again. -/
def State.stallTick (s0 : State) (sl k n : Nat) : State :=
  let s := if (s0.clx sl k).broken then
      ((s0.setFld (F.SPIN_COUNT sl k) 0).setFld (F.DEADLOCK_COUNT sl k) 0).setClx sl k
        { s0.clx sl k with stallRaised := false, deadlockRaised := false, broken := false }
    else s0
  let c := s.clx sl k
  if s.stallHolds sl k then
    let s1 := s.satFld (F.SPIN_COUNT sl k) n
    if c.stallRaised ∧ s.thState sl k 0 = thRunning ∧ s.on (F.THREAD_STATE_SPINNING sl k 0) then
      s1.satFld (F.DEADLOCK_COUNT sl k) n
    else (s1.setFld (F.DEADLOCK_COUNT sl k) 0).setClx sl k { c with deadlockRaised := false }
  else
    ((s.setFld (F.SPIN_COUNT sl k) 0).setFld (F.DEADLOCK_COUNT sl k) 0).setClx sl k
      { c with stallRaised := false, deadlockRaised := false }

/-! Debug (R124). -/

/-- DEBUG_HALT: a halt request (3), a step (4), a trigger (2) or EBREAK (1) halts the selected thread; it keeps an open channel and
loses its spinning mark. dcsr.cause and dpc record the halt. -/
def execDebugHalt (slice cluster thread cause : Nat) (s : State) : Host.Outcome State Fault Refusal := whenSlices s <|
  if s.threadExists slice cluster thread ∧ s.thState slice cluster thread ≠ thHalted then
    let t := s.thx slice cluster thread
    let s1 := s.setThx slice cluster thread
      { t with preHalt := s.thState slice cluster thread, pauseUntil := none, pendingCmd := 0 }
    .next ((((s1.setSpin slice cluster thread 0).setThState slice cluster thread thHalted).setCsr slice cluster thread 0x7B0 0
      (BitVec.ofNat 64 (64 * cause))).setCsr slice cluster thread 0x7B1 0 (BitVec.ofNat 64 (s.pc slice cluster thread)))
  else .next s

/-- DEBUG_RESUME: the thread goes on, and a THREAD_CTRL command that waited takes effect (R114, R124). -/
def execDebugResume (slice cluster thread : Nat) (s : State) : Host.Outcome State Fault Refusal := whenSlices s <|
  if s.thState slice cluster thread = thHalted then
    let t := s.thx slice cluster thread
    let s1 := s.setThx slice cluster thread { t with pendingCmd := 0 }
    .next (match t.pendingCmd with
      | 1 => s1.resume slice cluster thread
      | 2 => s1.restart slice cluster thread
      | 3 => s1.park slice cluster thread
      | _ => s1.setThState slice cluster thread t.preHalt)
  else .next s

/-- TIMER_EXPIRY (R62, R110): a held entry reaches its expiry instant. A firmware timer delivers its three-doubleword message; of any
other entry the consumer's own command may now act. -/
def execTimerExpiry (slice : Nat) (s : State) : Host.Outcome State Fault Refusal := whenSlices s <|
  match s.twExpired slice with
  | none => .next s
  | some e =>
    let s1 := s.twRelease slice e
    match e.consumer with
    | .firmware c ch cookie => .next (s1.hwDeliver slice c ch [cookie, ts64 e.expiry, s.time.mono] .timer)
    | other => .next (s1.setWheel slice { s1.wheel slice with fired := (s1.wheel slice).fired ++ [other] })

end Sys2Proof.Machine
end

