-- ==== Sys2Proof/Machine/Status.lean ====
section
/-!
DEFINITION. The shared 16-bit status codes (R588).
-/

namespace Sys2Proof.Machine

abbrev St.SUCCESS : Nat := 0x0000
abbrev St.KRA_WRITE_IMM : Nat := 0x0001
abbrev St.REVOKE_FORCED : Nat := 0x0002
abbrev St.MGMT_EVENT : Nat := 0x0003
abbrev St.TIME_NOT_LOCKED : Nat := 0x1001
abbrev St.LAUNCH_LATE_DROPPED : Nat := 0x1002
abbrev St.LAUNCH_NO_TIMER : Nat := 0x1003
abbrev St.TX_LINK_DOWN : Nat := 0x1004
abbrev St.CIPHER_RNG_UNAVAILABLE : Nat := 0x1010
abbrev St.CIPHER_OFFLINE : Nat := 0x1011
abbrev St.RETRY_EXCEEDED : Nat := 0x1020
abbrev St.RNR_RETRY_EXCEEDED : Nat := 0x1021
abbrev St.WR_FLUSHED : Nat := 0x1022
abbrev St.MR_TABLE_FULL : Nat := 0x1023
abbrev St.QUIESCE_TIMEOUT : Nat := 0x1030
abbrev St.HOLDUP_LOW : Nat := 0x1040
abbrev St.TRIAL_PENDING : Nat := 0x1041
abbrev St.MGMT_TIMEOUT : Nat := 0x1050
abbrev St.MGMT_BUSY : Nat := 0x1051
abbrev St.MGMT_BULK_FULL : Nat := 0x1052
abbrev St.RING_OPCODE_INVALID : Nat := 0x2001
abbrev St.RING_CONFIG_INVALID : Nat := 0x2002
abbrev St.DESC_PHASE_MISMATCH : Nat := 0x2003
abbrev St.DESC_CHAIN_ERROR : Nat := 0x2004
abbrev St.DESC_CHAIN_TOO_LONG : Nat := 0x2005
abbrev St.TX_FRAME_TOO_LONG : Nat := 0x2006
abbrev St.TX_PORT_INVALID : Nat := 0x2007
abbrev St.LAUNCH_TOO_FAR : Nat := 0x2008
abbrev St.TX_PTP_OFFSET_INVALID : Nat := 0x2009
abbrev St.CIPHER_KEY_EMPTY : Nat := 0x2010
abbrev St.CIPHER_KEY_USAGE : Nat := 0x2011
abbrev St.CIPHER_SLOT_BUSY : Nat := 0x2012
abbrev St.CIPHER_MODE_INVALID : Nat := 0x2013
abbrev St.CIPHER_LENGTH_INVALID : Nat := 0x2014
abbrev St.CIPHER_KEY_WEAK : Nat := 0x2015
abbrev St.CIPHER_SEQ_EXHAUSTED : Nat := 0x2016
abbrev St.REMOTE_INVALID_REQUEST : Nat := 0x2020
abbrev St.REMOTE_QP_ERROR : Nat := 0x2021
abbrev St.KRA_QP_INVALID : Nat := 0x2022
abbrev St.KRA_LENGTH_INVALID : Nat := 0x2023
abbrev St.KRA_RECV_OVERFLOW : Nat := 0x2024
abbrev St.MR_INVALID : Nat := 0x2025
abbrev St.MR_KEY_INVALID : Nat := 0x2026
abbrev St.QUOTA_EXCEEDED : Nat := 0x2030
abbrev St.INSTANCE_STATE_INVALID : Nat := 0x2031
abbrev St.STATE_IMAGE_INVALID : Nat := 0x2032
abbrev St.STATE_IMAGE_VERSION : Nat := 0x2033
abbrev St.STATE_IMAGE_CONFLICT : Nat := 0x2034
abbrev St.ANNEX_LENGTH_INVALID : Nat := 0x2040
abbrev St.ANNEX_OPCODE_INVALID : Nat := 0x2041
abbrev St.CUSTODY_LOCKED : Nat := 0x2042
abbrev St.FW_SLOT_INVALID : Nat := 0x2050
abbrev St.FW_CHUNK_ORDER : Nat := 0x2051
abbrev St.FW_IMAGE_INVALID : Nat := 0x2052
abbrev St.FW_STATE_INVALID : Nat := 0x2053
abbrev St.CONFIG_INCOMPATIBLE : Nat := 0x2054
abbrev St.KEY_STATEMENT_INVALID : Nat := 0x2055
abbrev St.LAST_KEY : Nat := 0x2056
abbrev St.MGMT_HEADER_INVALID : Nat := 0x2060
abbrev St.MGMT_LENGTH_INVALID : Nat := 0x2061
abbrev St.MGMT_OPCODE_INVALID : Nat := 0x2062
abbrev St.MGMT_OFFSET_INVALID : Nat := 0x2063
abbrev St.TRANSLATION_FAULT : Nat := 0x3001
abbrev St.CIPHER_AUTH_FAIL : Nat := 0x3010
abbrev St.CIPHER_REPLAY : Nat := 0x3011
abbrev St.CIPHER_BIND_CHECK : Nat := 0x3012
abbrev St.ACCESS_VIOLATION : Nat := 0x3020
abbrev St.KRA_EVENT_ACCESS_VIOLATION : Nat := 0x3021
abbrev St.CUSTODY_AUTH_FAIL : Nat := 0x3030
abbrev St.MGMT_ROUTE_DENIED : Nat := 0x3040
abbrev St.MEDIA_UNRECOVERED : Nat := 0x4001
abbrev St.MEDIA_MAP_LOST : Nat := 0x4002
abbrev St.MEDIA_WRITE_LOST : Nat := 0x4003
abbrev St.MEDIA_READ_ONLY : Nat := 0x4004
abbrev St.MEDIA_WRITE_FAULT : Nat := 0x4005
abbrev St.SEAL_CHAIN_BROKEN : Nat := 0x4010
abbrev St.HBM_UNCORRECTABLE : Nat := 0x5001
abbrev St.SRAM_UNCORRECTABLE : Nat := 0x5002
abbrev St.CQ_OVERFLOW_LOST : Nat := 0x5003
abbrev St.CIPHER_CHECK_FAIL : Nat := 0x5010
abbrev St.CIPHER_KEYS_ERASED : Nat := 0x5011
abbrev St.REMOTE_OPERATION_ERROR : Nat := 0x5020
abbrev St.FUNCTION_RESET : Nat := 0x5021
abbrev St.BUS_MASTER_DISABLED : Nat := 0x5022
abbrev St.FW_NOR_ERROR : Nat := 0x5030
abbrev St.RECOVERY_ACTIVE : Nat := 0x5031
abbrev St.FED_HOME_LOST : Nat := 0x6001
abbrev St.FED_ANCHOR_LOST : Nat := 0x6002
abbrev St.FED_ANCHOR_TIMEOUT : Nat := 0x6003
abbrev St.FED_FE_LOSS : Nat := 0x6004
abbrev St.FED_UNREACHABLE : Nat := 0x6005
abbrev St.EPOCH_GAP : Nat := 0x6010
abbrev St.MEMBERSHIP_MOVING : Nat := 0x6011
abbrev St.UPDATE_IN_PROGRESS : Nat := 0x6012

end Sys2Proof.Machine
end

