-- ==== Sys2Proof/Machine/Dma.lean ====
section
/-!
DEFINITION. Memory, operation tags, the Instance Translation Unit and the device's own requests to host memory (R29, R34, R42 to
R44, R424 to R428, R449 to R460), shared by every command that moves data for an instance.
-/

namespace Sys2Proof.Machine

/-! HBM and poison (R20, R29, R42 to R44). -/

def gib : Nat := 2 ^ 30
def mib : Nat := 2 ^ 20

/-- The device's HBM: four stacks of 24 GiB (R20). -/
def hbmSize : Nat := 96 * gib

/-- A byte of HBM; one that nothing has written reads zero. -/
def State.hbmByte (s : State) (a : Nat) : Byte := Map.get (fun _ => 0) s.mem.hbm a

def State.hbmRead (s : State) (a n : Nat) : List Byte := (List.range n).map (fun i => s.hbmByte (a + i))

/-- The canonical form of a memory: addresses strictly rise, and no byte equal to what an unlisted address reads as is listed. -/
def Memory.wf (m : List Host.Cell) : Bool := Map.wf (fun _ => (0 : Byte)) m

/-- Write bytes into a memory. -/
def memWrite : List Host.Cell → Nat → List Byte → List Host.Cell
  | m, _, [] => m
  | m, a, b :: bs => memWrite (Map.put (fun _ => 0) m a b) (a + 1) bs

/-- Does a thread hold its reservation on a line between lo and hi? -/
def reservedIn (lo hi : Nat) (t : ThreadX) : Bool :=
  match t.reservation with
  | some l => decide (lo ≤ l ∧ l ≤ hi)
  | none => false

/-- A store to the lines lo to hi ends every thread's reservation on them (R92). -/
def breakLines (lo hi : Nat) (m : Map ThreadX) : Map ThreadX :=
  Map.eraseIf (fun _ t => decide (t = {})) (Map.mapIf (fun _ t => reservedIn lo hi t) (fun t => { t with reservation := none }) m)

/-- The 64-byte line of HBM address a, in the device-internal address space (R582). -/
def hbmLine (a : Nat) : Nat := (0x2000000000 + a) / 64

/-- Write HBM; a poisoned word that is written holds good data again (R44), and reservations on the lines end (R92). -/
def State.hbmWrite (s : State) (a : Nat) (bs : List Byte) : State :=
  { s with mem.hbm := memWrite s.mem.hbm a bs,
           core.threads := breakLines (hbmLine a) (hbmLine (a + bs.length - 1)) s.core.threads,
           poisoned := s.poisoned.filter (fun p => !(decide (p.1 = 0) && decide (a < p.2 + 8 ∧ p.2 < a + bs.length))) }

/-- Count an access of n bytes to HBM at a as 64-byte reads (ev 0x06) or writes (ev 0x07) of its stack (R546). -/
def State.hbmCount (s : State) (a n ev : Nat) : State :=
  s.pmuUnc (a / (24 * gib)) ev ((n + 63) / 64) { addr := some (0x2000000000 + a) }

/-- Does a read of n bytes at a touch a poisoned word of HBM? -/
def State.hbmPoisoned (s : State) (a n : Nat) : Bool :=
  s.poisoned.any (fun p => decide (p.1 = 0) && decide (a < p.2 + 8 ∧ p.2 < a + n))

/-- A read of slice SRAM that touches n bytes at offset o: is any poisoned? -/
def State.sramPoisoned (s : State) (k o n : Nat) : Bool :=
  s.poisoned.any (fun p => decide (p.1 = 1 + k) && decide (o < p.2 + 8 ∧ p.2 < o + n))

/-- A poisoned part of slice SRAM is written and holds good data again (R44). -/
def State.sramClean (s : State) (k o n : Nat) : State :=
  { s with poisoned := s.poisoned.filter (fun p => !(decide (p.1 = 1 + k) && decide (o < p.2 + 8 ∧ p.2 < o + n))) }

/-! Where the parts of a slice's SRAM stand (DEDUCED, log entry 20: the spec gives their sizes and no places): the Catalogue quarter at 0, 32 MiB; then the
rule table, 2 MiB; the packet buffer, 24 MiB; the queue-pair context cache, 4 MiB; the L2 of the four clusters, 2 MiB each; descriptor buffers. -/
def ruleBase : Nat := 0x2000000
def pbBase : Nat := 0x2200000
def ctxBase : Nat := 0x3A00000
def l2Base : Nat := 0x3E00000
def descBase : Nat := 0x4600000

/-- The reserved top of every stack: Address Table 8 MiB, Bound Key Table 4 MiB, registrations 16 MiB, write buffer and map
directory 1 GiB each, and the map cache (R196, R227, R274, R376); and the bulk area (R518). -/
def State.hbmReserved (s : State) (a : Nat) : Bool :=
  decide (24 * gib - (28 * mib + 2 * gib + s.fld (F.AFF_MAP_CACHE_GIB (a / (24 * gib))) * gib) ≤ a % (24 * gib)) ||
  decide (a < 0x20000000)

/-- On whose behalf an access is made: the unit that issues it (R459), the deadline and the class of the operation, which every request of it carries
(R75), and whether its writes may carry Relaxed Ordering (R282). -/
structure Op where
  unit : Nat
  deadline : Nat
  cls : Nat
  rx : Bool := false
  deriving DecidableEq, Repr

/-- An operation of class n that began at FT_MONO t, of unit u. -/
def State.classOp (s : State) (u n t : Nat) : Op := { unit := u, deadline := s.deadlineOf n t, cls := n }

/-- An operation of ring q of slice k that began at FT_MONO t (R128). -/
def State.ringOp (s : State) (u k q t : Nat) : Op := s.classOp u (s.fld (F.SR_CFG_CLASS k q)) t

/-- A job's accesses (R75, R128). -/
def State.jobOp (s : State) (u : Nat) (j : RJob) : Op := s.ringOp u j.slice j.ring j.begun

/-! Operation tags (R34, R460). -/

/-- In place of an instance, for an operation that belongs to none: no OPS_MAX bounds it. -/
def noInst : Nat := 0x10000

/-- Tags of slice k that instance i holds. -/
def State.tagsOf (s : State) (k i : Nat) : Nat := Map.get (fun _ => 0) s.inst.tags (4 * i + k)

/-- Is instance i below OPS_MAX in slice k (R460)? -/
def State.belowOps (s : State) (k i : Nat) : Bool := decide (i = noInst) || decide (s.tagsOf k i < s.fld (F.INST_QUOTA_C_OPS_MAX i))

/-- Does an operation wait in the tag pool's queue of slice k? -/
def State.tagQueued (s : State) (k : Nat) : Bool :=
  s.arb.waiting.any (fun r => decide (r.point = .tagPool ∧ r.slice = k))

/-- May a new operation of instance i take a tag in slice k now: the pool has one, no queued operation ranks before it, the pool has not decided in this
cycle yet, and the instance is below OPS_MAX (R34, R74, R460)? -/
def State.tagFree (s : State) (k i : Nat) : Bool :=
  decide (s.fld (F.TAG_INUSE k) < 16384) && s.belowOps k i && !s.tagQueued k &&
  !s.arb.decided.contains (k, 1)

/-- Take a tag. -/
def State.takeTag (s : State) (k i : Nat) : State :=
  let s1 := s.addFld (F.TAG_INUSE k) 1
  let s2 := s1.peakFld (F.TAG_PEAK k) (s1.fld (F.TAG_INUSE k))
  { s2 with inst.tags := Map.put (fun _ => 0) s2.inst.tags (4 * i + k) (s2.tagsOf k i + 1) }.pmuUnc k 0x0C 1 {}

/-- Return a tag: the operation retires. -/
def State.giveTag (s : State) (k i : Nat) : State :=
  let s1 := s.subFld (F.TAG_INUSE k) 1
  { s1 with inst.tags := Map.put (fun _ => 0) s1.inst.tags (4 * i + k) (s1.tagsOf k i - 1) }

/-- An operation finds no tag: it waits in the tag pool's queue, once, ranked by its deadline, and TAG_EMPTY is set where the pool
itself is empty (R34). -/
def State.waitTag (s : State) (k i deadline op : Nat) : State :=
  let here := s.arb.waiting.any (fun r => decide (r.point = .tagPool ∧ r.slice = k ∧ r.work = .tag i op))
  let s1 := if here then s else { s with arb.waiting := s.arb.waiting ++ [({ point := .tagPool, slice := k, deadline := deadline, source := 24, work := .tag i op } : QReq)] }
  if 16384 ≤ s.fld (F.TAG_INUSE k) then s1.raise (F.ORG_INT_STATUS_TAG_EMPTY k) (R.ORG_INT_ENABLE k) else s1

/-- An operation takes its tag: the one granted to it, or the one that the pool gives in this cycle; none where it must wait (R34, R73, R74). -/
def State.getTag (s : State) (k i deadline op : Nat) : State × Bool :=
  if s.arb.tagGrants.contains (k, i, op) then ({ s with arb.tagGrants := s.arb.tagGrants.erase (k, i, op) }, true)
  else if s.tagFree k i then ({ s.takeTag k i with arb.decided := (k, 1) :: s.arb.decided }, true)
  else (s.waitTag k i deadline op, false)

/-- Run an operation of a unit of slice k, of class `cls`, under a tag of the slice's pool: it waits while the pool gives none, and gives the tag back as it
retires (R34). -/
def State.withTag (s : State) (k op cls : Nat) (f : State → State) : State :=
  match s.getTag k noInst (s.deadline cls) op with
  | (s1, false) => s1
  | (s1, true) => (f s1).giveTag k noInst

/-! Instances (R449 to R461). -/

def State.instType (s : State) (i : Nat) : Nat := s.fld (F.INST_CFG_TYPE i)
def State.instState (s : State) (i : Nat) : Nat := s.fld (F.INST_CFG_STATE i)
def instDisabled : Nat := 0
def instEnabled : Nat := 1
def instQuiescing : Nat := 2
def instQuiesced : Nat := 3
def instFrozen : Nat := 4

/-- Instance i starts work: it is ENABLED (R461, R462). -/
def State.instRuns (s : State) (i : Nat) : Bool := decide (s.instState i = instEnabled)

/-- The link of instance i: the link of its PF (R411, R449). -/
def State.instLink (s : State) (i : Nat) : Nat := s.pcie.pfLink.getD (s.fld (F.INST_CFG_PF i)) 0

def State.instX (s : State) (i : Nat) : InstX := Map.get (fun _ => {}) s.inst.insts i
def State.setInstX (s : State) (i : Nat) (x : InstX) : State := { s with inst.insts := Map.put (fun _ => {}) s.inst.insts i x }
def State.fnX (s : State) (i : Nat) : FnX := Map.get (fun _ => {}) s.pcie.fns i
def State.setFnX (s : State) (i : Nat) (x : FnX) : State := { s with pcie.fns := Map.put (fun _ => {}) s.pcie.fns i x }

/-- Write an event into the instance event log, which holds 1,024 entries and overwrites its oldest (R464). -/
def State.instEvent (s : State) (i : Nat) (e : InstEvent) (detail : Nat) : State :=
  let x := s.instX i
  let l := x.log ++ [(e, detail, s.time.mono)]
  s.setInstX i { x with log := l.drop (l.length - 1024) }

/-- The instance refuses a new object for its quota (R460). -/
def State.quotaRefused (s : State) (i detail : Nat) : State := s.instEvent i .quotaRefused detail

/-- The binding under which instance i has its home here (R311). -/
def State.homeBinding (s : State) (i : Nat) : Option FeBinding := s.fe.bindings.find? (fun b => !b.anchor && decide (b.homeInst = i))

/-- The binding of anchor instance i. -/
def State.anchorBinding (s : State) (i : Nat) : Option FeBinding := s.fe.bindings.find? (fun b => b.anchor && decide (b.anchorInst = i))

/-- The PF whose configuration space holds the fields that a VF takes from its PF (R416). -/
def State.pfOf (s : State) (i : Nat) : Nat := if i < 8 then i else s.fld (F.INST_CFG_PF i)

/-- May instance i send upstream requests: Bus Master Enable is set, its gate is open and it is not in D3hot (R428, R434, R534)? -/
def State.busMaster (s : State) (i : Nat) : Bool := (s.fnX i).bme && !s.on (F.FN_GATE_CLOSED i) && !(s.fnX i).d3hot

/-! Translation faults (R457 to R459). -/

def rsnL1 : Nat := 1
def rsnL2 : Nat := 2
def rsnPerm : Nat := 3
def rsnRange : Nat := 4
def rsnPoison : Nat := 5
def rsnHbm : Nat := 6
def rsnAts : Nat := 7
def rsnDisabled : Nat := 8
def rsnReserved : Nat := 9

/-- The instance event log takes at most 16 TRANSLATION_FAULT entries a second (R459). -/
def State.faultEntry (s : State) (i reason : Nat) : State :=
  let x := s.instX i
  let sec := s.time.mono / ticksPerSec
  let n := if x.faultSecond = sec then x.faultEntries else 0
  if n < 16 then (s.setInstX i { x with faultSecond := sec, faultEntries := n + 1 }).instEvent i .translationFault reason
  else s

/-- Report a translation fault: counters, the hub fault queue with its merge, and the events (R459). -/
def State.ituFault (s : State) (k i reason access unit ia : Nat) : State :=
  let s1 := ((s.satFld (F.INST_FAULTS i) 1).incFld (F.ITU_FAULTS k)).faultEntry i reason
  let merge := match s1.inst.faults.getLast? with
    | some f => decide (f.inst = i ∧ f.reason = reason ∧ f.unit = unit ∧ f.ia / 4096 = ia / 4096)
    | none => false
  if merge then
    { s1 with inst.faults := s1.inst.faults.dropLast ++
        (s1.inst.faults.getLast?.map (fun f => { f with count := (f.count + 1) % 2 ^ 32 })).toList }
  else if s1.inst.faults.length < 512 then
    let s2 := { s1 with inst.faults := s1.inst.faults ++ [({ inst := i, reason := reason, access := access, slice := k, unit := unit, count := 1, ia := ia, time := s1.time.mono } : ItuFault)] }
    (s2.setFld F.INST_FAULT_COUNT s2.inst.faults.length).raiseWith F.INST_INT_STATUS_FAULT_SEEN R.INST_INT_ENABLE i
  else (s1.incFld F.INST_FAULT_OVERFLOW).raiseWith F.INST_INT_STATUS_FAULT_OVERFLOW_SEEN R.INST_INT_ENABLE i

/-! The IOTLB and the table walk (R451 to R456). -/

def State.iotlb (s : State) (k : Nat) : List Iotlb := s.inst.iotlb.getD k []

def State.setIotlb (s : State) (k : Nat) (l : List Iotlb) : State :=
  { s with inst.iotlb := s.inst.iotlb.set k l }.setFld (F.ITU_ENTRIES k) l.length

/-- Bits of the instance address space (R451). -/
def State.log2Space (s : State) (i : Nat) : Nat :=
  let n := s.fld (F.INST_CFG_LOG2_SPACE i)
  if 30 ≤ n ∧ n ≤ 46 then n else 30

def Iotlb.covers (e : Iotlb) (i ia : Nat) : Bool :=
  decide (e.inst = i) && (if e.large then decide (e.page / 512 = ia / 0x200000) else decide (e.page = ia / 4096))

/-- Drop the last element that p holds of. -/
def dropLastWhere (p : Iotlb → Bool) (l : List Iotlb) : List Iotlb :=
  match takeFirst p l.reverse with
  | some (_, r) => r.reverse
  | none => l

/-- Put a leaf in the IOTLB of slice k: an instance at IOTLB_MAX replaces its own oldest entry, a full IOTLB the oldest (R454). -/
def State.iotlbFill (s : State) (k : Nat) (e : Iotlb) : State :=
  let l := s.iotlb k
  let own := (l.filter (fun x => decide (x.inst = e.inst))).length
  if s.fld (F.INST_QUOTA_A_IOTLB_MAX e.inst) ≤ own ∧ 0 < own then
    (s.setIotlb k (e :: dropLastWhere (fun x => decide (x.inst = e.inst)) l)).incFld (F.ITU_EVICT k)
  else if 8192 ≤ l.length then (s.setIotlb k (e :: l.dropLast)).incFld (F.ITU_EVICT k)
  else s.setIotlb k (e :: l)

/-- Read an 8-byte table entry from HBM: none when the read is poisoned. -/
def State.tableEntry (s : State) (a : Nat) : Option Nat := if s.hbmPoisoned a 8 then none else some (leNat (s.hbmRead a 8))

/-- A leaf entry as an IOTLB entry, or the reason it is refused (R452, R457). -/
def leafOf (i ia e : Nat) (large : Bool) : Except Nat Iotlb :=
  if bitsOf e 11 6 ≠ 0 ∨ bitsOf e 5 4 = 3 then .error rsnReserved
  else .ok { inst := i, large := large, page := if large then ia / 0x200000 * 512 else ia / 4096, read := bitOf e 2,
             write := bitOf e 3, target := bitsOf e 5 4, out := bitsOf e 63 12 * 4096 }

/-- Walk the instance's tables for address ia (R451, R452). -/
def State.walk (s : State) (i ia : Nat) : Except Nat Iotlb :=
  match s.tableEntry (s.fld (F.INST_TABLE i) * 4096 + 8 * (ia / 0x200000)) with
  | none => .error rsnPoison
  | some e1 =>
    if !bitOf e1 0 then .error rsnL1
    else if bitOf e1 1 then leafOf i ia e1 true
    else if bitsOf e1 11 6 ≠ 0 then .error rsnReserved
    else match s.tableEntry (bitsOf e1 63 12 * 4096 + 8 * (ia / 4096 % 512)) with
      | none => .error rsnPoison
      | some e2 => if !bitOf e2 0 then .error rsnL2 else leafOf i ia e2 false

/-- The IOTLB entry for address ia: a hit moves to the front; a miss walks and fills (R454). -/
def State.iotlbGet (s : State) (k i ia : Nat) : State × Except Nat Iotlb :=
  match takeFirst (fun e => e.covers i ia) (s.iotlb k) with
  | some (e, rest) => ((s.setIotlb k (e :: rest)).incFld (F.ITU_HITS k), .ok e)
  | none =>
    let s1 := (s.incFld (F.ITU_MISSES k)).pmuUnc k 0x0B 1 {}
    match s1.walk i ia with
    | .ok e => (s1.iotlbFill k e, .ok e)
    | .error r => (s1, .error r)

/-- Where an access goes once translated. -/
inductive Xlat where
  /-- host memory through a link, as an untranslated (false) or translated (true) request -/
  | host (link addr : Nat) (translated : Bool)
  /-- device HBM -/
  | hbm (addr : Nat)
  /-- refused, with the reason of R457 -/
  | fault (reason : Nat)
  /-- waits for the host's answer to an ATS Translation Request -/
  | wait
  deriving DecidableEq, Repr

/-- The output address of ia under a leaf (R452). -/
def Iotlb.output (e : Iotlb) (ia : Nat) : Nat := e.out + (if e.large then ia % 0x200000 else ia % 4096)

/-- Use a leaf for an access (R452, R453). -/
def State.useLeaf (s : State) (k i ia : Nat) (write : Bool) (e : Iotlb) : State × Xlat :=
  let out := e.output ia
  if !(if write then e.write else e.read) then (s, .fault rsnPerm)
  else if e.target = 2 then
    (s, if hbmSize ≤ out ∨ s.hbmReserved out then .fault rsnHbm else .hbm out)
  else if e.target = 1 ∧ (s.fnX i).atsEnable then
    match e.ats.find? (fun t => decide (t.1 = ia / 4096)) with
    | some (_, page, r, w) => (s, if (if write then w else r) then .host (s.instLink i) (page + ia % 4096) true else .fault rsnAts)
    | none =>
      let req := (k, i, ia / 4096, out / 4096 * 4096)
      if s.inst.atsWait.contains req then (s, .wait)
      else (({ s with inst.atsWait := s.inst.atsWait ++ [req] }.incFld (F.ITU_ATS_REQ k)).emit
        (.atsRequest (s.instLink i) i (out / 4096 * 4096)), .wait)
  else (s, .host (s.instLink i) out false)

/-- Translate an access of instance i made in slice k (R451 to R457), with every effect but the report of a fault. -/
def State.translate (s : State) (k i ia : Nat) (write : Bool) : State × Xlat :=
  if s.instState i = instDisabled then (s, .fault rsnDisabled)
  else if 2 ^ s.log2Space i ≤ ia then (s, .fault rsnRange)
  else match s.iotlbGet k i ia with
    | (s1, .error r) => (s1, .fault r)
    | (s1, .ok e) => s1.useLeaf k i ia write e

/-- Translate and report a fault (R459). -/
def State.xlate (s : State) (k i ia : Nat) (write : Bool) (unit : Nat) : State × Xlat :=
  match s.translate k i ia write with
  | (s1, .fault r) => (s1.ituFault k i r (if r = rsnAts then 2 else b2n write) unit ia, .fault r)
  | r => r

/-! Requests to host memory (R424 to R427). -/

/-- The completion timeout in ticks (R425). -/
def ctoTicks (v : Nat) : Nat :=
  if v = 1 then 80 * ticksPerUs else if v = 2 then 8 * ticksPerMs else if v = 5 then 40 * ticksPerMs
  else if v = 6 then 160 * ticksPerMs else if v = 9 then 640 * ticksPerMs else if v = 10 then 2500 * ticksPerMs
  else if v = 13 then 10 * ticksPerSec else if v = 14 then 48 * ticksPerSec else 10 * ticksPerMs

/-- The number of tags a link may have outstanding (R424). -/
def State.tagLimit (s : State) (l : Nat) : Nat :=
  if s.on (F.PCIE_LINK_STATE_FLIT l) then (if 16 ≤ s.fld (F.PCIE_LINK_STATE_WIDTH l) then 4096 else 2048)
  else if (List.find? (fun (e : Nat × FnX) => (decide (e.1 < 8) && decide (s.instLink e.1 = l)) && e.2.tag10) s.pcie.fns).isSome then 768 else 256

def State.readsOn (s : State) (l : Nat) : List HostRead := s.pcie.reads.filter (fun r => decide (r.link = l))

/-- The first tag from t on that is neither outstanding nor quarantined on link l. -/
def State.findTag (s : State) (l : Nat) : Nat → Nat → Option Nat
  | _, 0 => none
  | t, n + 1 =>
    let t' := t % 16384
    if (s.readsOn l).any (fun r => decide (r.tag = t')) || s.pcie.quarantine.any (fun q => decide (q.1 = l ∧ q.2.1 = t'))
    then s.findTag l (t' + 1) n else some t'

def State.showTags (s : State) (l : Nat) : State :=
  (s.setFld (F.PCIE_TAGS_INUSE l) (s.readsOn l).length).setFld (F.PCIE_TAGS_QUARANTINED l)
    (s.pcie.quarantine.filter (fun q => decide (q.1 = l))).length

/-- A read of link l waits for a tag (R424). -/
def State.holdTag (s : State) (l : Nat) : State :=
  if s.pcie.tagWait.contains l then s else { s with pcie.tagWait := s.pcie.tagWait ++ [l] }

/-- Issue a read of host memory under a new tag; without a free tag it waits, which State.tickLinks counts (R424). -/
def State.issueRead (s : State) (k i link addr len : Nat) (tr : Bool) (reissues : Nat) : State :=
  if s.tagLimit link ≤ (s.readsOn link).length then s.holdTag link
  else match s.findTag link (s.pcie.nextTag.getD link 0) 16384 with
    | none => s.holdTag link
    | some t =>
      let due := s.time.mono + ctoTicks (s.fnX (s.pfOf i)).cto
      let r : HostRead := { link := link, tag := t, fn := i, slice := k, addr := addr, len := len, due := due, translated := tr, reissues := reissues }
      let s1 := { s with pcie.reads := s.pcie.reads ++ [r], pcie.nextTag := s.pcie.nextTag.set link (t + 1) }
      (s1.showTags link).emit (.pcieRead link t i addr len tr)

/-- What a device read answers. -/
inductive DmaRes where
  | ok (data : List Byte)
  /-- host data has not arrived; the requests are out -/
  | wait
  /-- failed with this status -/
  | fail (status : Nat)
  deriving DecidableEq, Repr

/-- Data that has arrived for a read of n bytes at a by instance i. -/
def State.arrivedAt (s : State) (i a n : Nat) : Option (List Byte) :=
  (s.pcie.arrived.find? (fun e => decide (e.1 = i ∧ e.2.1 = a ∧ e.2.2.length = n))).map (fun e => e.2.2)

/-- Drop data that its operation has used. -/
def State.dropArrived (s : State) (key : Nat × Nat × Nat) : State :=
  match takeFirst (fun e => decide (e.1 = key.1 ∧ e.2.1 = key.2.1 ∧ e.2.2.length = key.2.2)) s.pcie.arrived with
  | some (_, rest) => { s with pcie.arrived := rest }
  | none => s

/-- Split n bytes from a at multiples of m. -/
def chunksOf (m : Nat) : Nat → Nat → Nat → List (Nat × Nat)
  | 0, _, _ => []
  | fuel + 1, a, n =>
    if n = 0 then []
    else
      let c := min n (m - a % m)
      (a, c) :: chunksOf m fuel (a + c) (n - c)

/-- The pieces of a device access of n bytes: no piece crosses a request or a 4 KiB boundary (R424). -/
def pieces (m a n : Nat) : List (Nat × Nat) := chunksOf m (n / m + 2) a n

/-- The federation ID of this device (R308); 0 while it has none (R593). -/
def State.fedId (s : State) : Nat := if s.on F.FED_ID_VALID then s.fld F.FED_ID_ID else 0

def State.link (s : State) (p : Nat) : KLink := s.links.getD p {}
def State.setLink (s : State) (p : Nat) (l : KLink) : State := { s with links := s.links.set p l }

/-- The coordinates of device d: x, y and its shelf (R292). -/
def fedX (d : Nat) : Nat := d % 4
def fedY (d : Nat) : Nat := d / 4 % 4
def fedShelf (d : Nat) : Nat := d / 16 % 4

/-- The device that port p of device d is cabled to (R292). -/
def klPeer (d p : Nat) : Nat :=
  let x := fedX d
  let y := fedY d
  let h := fedShelf d
  match p with
  | 0 => 16 * h + 4 * y + (x + 1) % 4
  | 1 => 16 * h + 4 * y + (x + 3) % 4
  | 2 => 16 * h + 4 * ((y + 1) % 4) + x
  | 3 => 16 * h + 4 * ((y + 3) % 4) + x
  | 4 => 16 * ((h + 1) % 4) + 4 * y + x
  | _ => 16 * ((h + 3) % 4) + 4 * y + x

/-- Is the link on port p of device d a wrap link: between coordinate 3 and coordinate 0 of its dimension (R306)? -/
def klWrap (d p : Nat) : Bool :=
  let c := if p / 2 = 0 then fedX d else if p / 2 = 1 then fedY d else fedShelf d
  decide (c = if p % 2 = 0 then 3 else 0)

/-- The virtual channel of a packet that leaves device d on port p, having come in on port `from` if it did (R297, R306). -/
def klVc (d p : Nat) (came : Option Nat) (vc : Nat) : Nat :=
  let low := match came with
    | some q => if q / 2 = p / 2 then vc % 2 else 0
    | none => 0
  vc / 2 * 2 + (if klWrap d p then 1 else low)

/-- Give a packet to the Korrum hub: it waits at the port its destination is routed to, or at 6 when that is this device; an unreachable one
is dropped (R306, R307). -/
def State.korrumRoute (s : State) (p : KPkt) (came : Option Nat) : State :=
  let port := s.fld (F.KL_ROUTE p.dest)
  if port = 7 then s.incFld F.KL_UNREACH_DROP
  else if port = 6 then s.setLink 6 { s.link 6 with inbox := (s.link 6).inbox ++ [p] }
  else
    let l := s.link port
    s.setLink port { l with outQ := l.outQ ++ [({ p with vc := klVc s.fedId port came p.vc }, came.isSome)] }

/-- The device sends a packet of its own; its begin instant is now (R75). -/
def State.korrumSend (s : State) (p : KPkt) : State := s.korrumRoute { p with begun := s.time.mono } none

/-- The 8-byte FE sub-header (R312). -/
def feHeader (b : FeBinding) (seq : Nat) : List Byte := leBytes 2 b.anchorInst ++ leBytes 2 b.homeInst ++ leBytes 2 b.gen ++ leBytes 2 seq

/-- Show the number of bindings that are BOUND (R313). -/
def State.showBindings (s : State) : State := s.setFld F.FE_BINDINGS (s.fe.bindings.filter (fun b => decide (b.state = 1))).length

/-- Replace a binding's record. -/
def State.setBinding (s : State) (b : FeBinding) : State :=
  State.showBindings { s with fe.bindings := s.fe.bindings.map (fun x => if x.anchor = b.anchor ∧ x.anchorInst = b.anchorInst ∧ x.homeInst = b.homeInst then b else x) }

/-- Send a request-class FE packet to the binding's other end, under the next FE_SEQ (R312). -/
def State.feSend (s : State) (b : FeBinding) (typ : Nat) (body : List Byte) : State :=
  (s.setBinding { b with txSeq := (b.txSeq + 1) % 65536 }).korrumSend
    { typ := typ, vc := 0, cls := s.unitClass 28, dest := b.peer, src := s.fedId, payload := feHeader b b.txSeq ++ body }

/-- Send a reply of the FE kind: FE_SEQ zero, virtual channel class 1 (R304, R312). -/
def State.feReply (s : State) (b : FeBinding) (typ : Nat) (body : List Byte) : State :=
  s.korrumSend { typ := typ, vc := 2, cls := s.unitClass 28, dest := b.peer, src := s.fedId, payload := feHeader b 0 ++ body }

/-- The status of a failed read of n bytes at a by instance i, in a list of such. -/
def failedAt (l : List (Nat × Nat × Nat × Nat)) (i a n : Nat) : Option (Nat × List (Nat × Nat × Nat × Nat)) :=
  (takeFirst (fun (e : Nat × Nat × Nat × Nat) => decide (e.1 = i ∧ e.2.1 = a ∧ e.2.2.1 = n)) l).map (fun r => (r.1.2.2.2, r.2))

/-- Read one piece for an instance whose function is at another device (R313). -/
def State.feReadPiece (s : State) (k : Nat) (b : FeBinding) (a n : Nat) (o : Op) : State × DmaRes :=
  if b.state ≠ 1 then (s, .fail St.FED_ANCHOR_LOST)
  else match s.arrivedAt b.homeInst a n with
    | some d => (s, .ok d)
    | none =>
      match failedAt s.fe.failed b.homeInst a n with
      | some (st, rest) => ({ s with fe.failed := rest }, .fail st)
      | none =>
      if s.fe.reads.any (fun r => decide (r.homeInst = b.homeInst ∧ r.addr = a ∧ r.len = n)) then (s, .wait)
      else match s.getTag k b.homeInst o.deadline a with
        | (s0, false) => (s0, .wait)
        | (s0, true) =>
          let t := s0.fe.nextRtag % 65536
          let due := s0.time.mono + s0.fld F.FE_READ_TIMEOUT * ticksPerUs
          let r : FeRead := ⟨t, b.homeInst, k, a, n, due⟩
          let s1 := { s0 with fe.reads := s0.fe.reads ++ [r], fe.nextRtag := t + 1 }
          (s1.feSend b 4 (leBytes 8 a ++ leBytes 4 n ++ leBytes 2 t), .wait)

/-- Read one piece of host memory at (l, h): data that has arrived, or a request for it. -/
def State.hostReadPiece (s : State) (k i l h : Nat) (tr : Bool) (n : Nat) (o : Op) : State × DmaRes :=
  match s.arrivedAt i h n with
  | some d => (s, .ok d)
  | none =>
    if s.pcie.reads.any (fun r => decide (r.fn = i ∧ r.addr = h ∧ r.len = n) && !r.discard) then (s, .wait)
    else if !s.busMaster i then (s, .wait)
    else
      let r := s.getTag k i o.deadline h
      (if r.2 then r.1.issueRead k i l h n tr 0 else r.1, .wait)

/-- Read one piece of an instance's memory; with it, the key of the arrived data it uses. -/
def State.dmaReadPiece (s : State) (k i a n : Nat) (o : Op) : State × DmaRes × List (Nat × Nat × Nat) :=
  match s.homeBinding i with
  | some b => let r := s.feReadPiece k b a n o; (r.1, r.2, [(i, a, n)])
  | none =>
    match s.xlate k i a false o.unit with
    | (s1, .fault _) => (s1, .fail St.TRANSLATION_FAULT, [])
    | (s1, .wait) => (s1, .wait, [])
    | (s1, .hbm h) =>
      (s1.hbmCount h n 0x06, if s1.hbmPoisoned h n then .fail St.HBM_UNCORRECTABLE else .ok (s1.hbmRead h n), [])
    | (s1, .host l h tr) => let r := s1.hostReadPiece k i l h tr n o; (r.1, r.2, [(i, h, n)])

/-- Read the pieces in order: the first failure is the answer, else a wait, else the bytes. Every piece that must come from a host
is requested. -/
def State.dmaReadPieces (s : State) (k i : Nat) (o : Op) : List (Nat × Nat) → State × DmaRes × List (Nat × Nat × Nat)
  | [] => (s, .ok [], [])
  | (a, n) :: ps =>
    match s.dmaReadPiece k i a n o with
    | (s1, .fail st, _) => (s1, .fail st, [])
    | (s1, .wait, _) =>
      match s1.dmaReadPieces k i o ps with
      | (s2, .fail st, _) => (s2, .fail st, [])
      | (s2, _, _) => (s2, .wait, [])
    | (s1, .ok d, ks) =>
      match s1.dmaReadPieces k i o ps with
      | (s2, .ok d', ks') => (s2, .ok (d ++ d'), ks ++ ks')
      | r => r

/-- The largest read request of instance i: its Max Read Request Size (R424); 4,096 bytes for FE_READ (R312). -/
def State.mrrs (s : State) (i : Nat) : Nat :=
  if (s.homeBinding i).isSome then 4096 else 128 * 2 ^ min (s.fnX (s.pfOf i)).mrrs 5

/-- Read n bytes of instance i at a through slice k. Arrived host data is used only when every piece is there. -/
def State.dmaRead (s : State) (k i a n : Nat) (o : Op) : State × DmaRes :=
  match s.dmaReadPieces k i o (pieces (s.mrrs i) a n) with
  | (s1, .ok d, ks) => (ks.foldl State.dropArrived s1, .ok d)
  | (s1, r, _) => (s1, r)

/-- Read the concatenation of buffers (R139). -/
def State.dmaGather (s : State) (k i : Nat) (o : Op) (bufs : List (Nat × Nat)) : State × DmaRes :=
  match s.dmaReadPieces k i o (bufs.map (fun b => pieces (s.mrrs i) b.1 b.2)).flatten with
  | (s1, .ok d, ks) => (ks.foldl State.dropArrived s1, .ok d)
  | (s1, r, _) => (s1, r)

/-! Writes to an instance's memory. -/

/-- The translated targets of the pieces of a write: all of them, or the first refusal, or a wait. Nothing is written. -/
def State.dmaTargets (s : State) (k i unit : Nat) : List (Nat × Nat) → State × Except (Option Nat) (List Xlat)
  | [] => (s, .ok [])
  | (a, _) :: ps =>
    match s.xlate k i a true unit with
    | (s1, .fault _) => (s1, .error (some St.TRANSLATION_FAULT))
    | (s1, .wait) => (s1, .error none)
    | (s1, x) =>
      match s1.dmaTargets k i unit ps with
      | (s2, .ok xs) => (s2, .ok (x :: xs))
      | r => r

/-- Write bytes at a translated target, with Relaxed Ordering when the writer allows it and Device Control enables it (R282). A function
without Bus Master Enable, or with its gate closed, sends nothing (R434). -/
def State.writeTarget (s : State) (i : Nat) (rx : Bool) (x : Xlat) (bs : List Byte) : State :=
  match x with
  | .hbm h => (s.hbmWrite h bs).hbmCount h bs.length 0x07
  | .host l h tr => if s.busMaster i then s.emit (.pcieWrite l i h tr bs (rx && (s.fnX (s.pfOf i)).relaxed)) else s
  | _ => s

/-- Write the pieces to their targets. -/
def State.writeTargets (s : State) (i : Nat) (rx : Bool) : List (Nat × Nat) → List Xlat → List Byte → State
  | (_, n) :: ps, x :: xs, bs => (s.writeTarget i rx x (bs.take n)).writeTargets i rx ps xs (bs.drop n)
  | _, _, _ => s

/-- The largest write of instance i: its link's Max Payload Size (R424), at most 512 bytes; 4,096 for FE_WRITE. -/
def State.mpsOf (s : State) (i : Nat) : Nat :=
  if (s.homeBinding i).isSome then 4096 else 128 * 2 ^ min (s.fnX (s.pfOf i)).mps 2

/-- Send a write to the anchor (R312, R313). -/
def State.feWritePieces (s : State) (b : FeBinding) (rx : Bool) : List (Nat × Nat) → List Byte → State
  | (a, n) :: ps, bs =>
    let b' := ((s.homeBinding b.homeInst).getD b)
    (s.feSend b' 6 (leBytes 8 a ++ leBytes 4 n ++ leBytes 4 (b2n rx) ++ bs.take n)).feWritePieces b rx ps (bs.drop n)
  | [], _ => s

/-- Write bytes of instance i at a through slice k: all of them or, when a piece is refused, none (R458). -/
def State.dmaWrite (s : State) (k i a : Nat) (o : Op) (bs : List Byte) : State × DmaRes :=
  let ps := pieces (s.mpsOf i) a bs.length
  match s.homeBinding i with
  | some b => if b.state ≠ 1 then (s, .fail St.FED_ANCHOR_LOST) else (s.feWritePieces b o.rx ps bs, .ok [])
  | none =>
    match s.dmaTargets k i o.unit ps with
    | (s1, .error (some st)) => (s1, .fail st)
    | (s1, .error none) => (s1, .wait)
    | (s1, .ok xs) => (s1.writeTargets i o.rx ps xs bs, .ok [])

/-- Write bytes over a chain of buffers, in order; nothing is written when a piece is refused. -/
def State.dmaScatter (s : State) (k i : Nat) (o : Op) (bufs : List (Nat × Nat)) (bs : List Byte) : State × DmaRes :=
  let take := fun (acc : List (Nat × Nat) × Nat) (b : Nat × Nat) =>
    let n := min b.2 acc.2
    (acc.1 ++ pieces (s.mpsOf i) b.1 n, acc.2 - n)
  let ps := (bufs.foldl take ([], bs.length)).1
  match s.homeBinding i with
  | some b => if b.state ≠ 1 then (s, .fail St.FED_ANCHOR_LOST) else (s.feWritePieces b o.rx ps bs, .ok [])
  | none =>
    match s.dmaTargets k i o.unit ps with
    | (s1, .error (some st)) => (s1, .fail st)
    | (s1, .error none) => (s1, .wait)
    | (s1, .ok xs) => (s1.writeTargets i o.rx ps xs bs, .ok [])

/-! Interrupts to hosts (R421 to R423). -/

def State.msixEntry (s : State) (i v : Nat) : MsixEntry := Map.get (fun _ => {}) s.pcie.msix (2048 * i + v)

/-- The number of MSI-X vectors of function i (R421). -/
def vectorCount (i : Nat) : Nat := if i < 8 then 2048 else 64

/-- Send the message of an MSI-X entry. -/
def State.sendMsix (s : State) (i v : Nat) : State :=
  let e := s.msixEntry i v
  s.emit (.msi (s.instLink i) i e.addr e.data)

/-- Send the message of MSI vector v (folded), replacing the low MME bits of the data. -/
def State.sendMsi (s : State) (i v : Nat) : State :=
  let x := s.fnX i
  s.emit (.msi (s.instLink i) i x.msiAddr (x.msiData / 2 ^ x.mme * 2 ^ x.mme + v))

/-- Is the Annex interrupt active (R446)? -/
def State.annexInt (s : State) : Bool :=
  decide (s.fld F.ANX_STATUS_STATE = 3) && s.on F.ANX_INT_INT_EN &&
  !(s.fnX 0).intDisable && !(s.fnX 0).msiEnable && !(s.fnX 0).msixEnable

/-- Is any FN_INTX_PENDING bit of function i set? -/
def State.intxPending (s : State) (i : Nat) : Bool := (List.range 32).any (fun w => decide (s.rd (R.FN_INTX_PENDING i w) ≠ 0))

/-- The level INTA of a PF should have (R423). -/
def State.intaLevel (s : State) (i : Nat) : Bool :=
  let x := s.fnX i
  decide (i < 8) && (s.intxPending i || (decide (i = 0) && s.annexInt)) && !x.intDisable && !x.msiEnable && !x.msixEnable

/-- Bring INTA of a PF to its level, with the message that a change sends (R423). -/
def State.updateInta (s : State) (i : Nat) : State :=
  let want := s.intaLevel i
  if decide (i < 8) && (want != s.on (F.FN_STATUS_INTX_ASSERTED i)) then
    (s.setFld (F.FN_STATUS_INTX_ASSERTED i) (b2n want)).emit (.inta i want)
  else s

/-- Signal vector v of function i, whose configuration space is here: the first applicable row of R422. -/
def State.signalLocal (s : State) (i v : Nat) : State :=
  let x := s.fnX i
  if vectorCount i ≤ v ∨ (x.msiEnable ∧ !x.msixEnable ∧ 32 ≤ v) then s.incFld (F.PCIE_VEC_DROP (s.instLink i))
  else if x.msixEnable then
    if x.functionMask || (s.msixEntry i v).mask || !s.busMaster i then
      (if s.pcie.pba.contains (2048 * i + v) then s else { s with pcie.pba := s.pcie.pba ++ [2048 * i + v] })
    else s.sendMsix i v
  else if x.msiEnable then
    let f := v % 2 ^ x.mme
    if bitOf x.msiMask f || !s.busMaster i then
      s.setFnX i { x with msiPending := if bitOf x.msiPending f then x.msiPending else x.msiPending + 2 ^ f }
    else s.sendMsi i f
  else if i < 8 then (s.setFld ⟨R.FN_INTX_PENDING i (v / 64), v % 64, 1⟩ 1).updateInta i
  else s

/-- Signal vector v of function i: here, or by FE_MSI to the anchor of a bound instance (R313, R422). -/
def State.signalVector (s : State) (i v : Nat) : State :=
  match s.homeBinding i with
  | some b => if b.state = 1 then s.feSend b 7 (leBytes 2 v) else s
  | none => s.signalLocal i v

end Sys2Proof.Machine
end

