-- ==== Sys2Proof/Machine/Rings.lean ====
section
/-!
DEFINITION. Work rings: doorbells, descriptor fetch, job start, completions with credit and holding area, interrupts, ring states
(chapter 05). The commands of single ring opcodes stand with the unit that owns them.
-/

namespace Sys2Proof.Machine

def stDisabled : Nat := 0
def stActive : Nat := 1
def stStopping : Nat := 2
def stStalled : Nat := 3
def stError : Nat := 4

def State.srx (s : State) (k q : Nat) : SrX := Map.get (fun _ => {}) s.rings.srs (8192 * k + q)
def State.setSrx (s : State) (k q : Nat) (x : SrX) : State :=
  { s with rings.srs := Map.put (fun _ => {}) s.rings.srs (8192 * k + q) x }
def State.crx (s : State) (k c : Nat) : CrX := Map.get (fun _ => {}) s.rings.crs (4096 * k + c)
def State.setCrx (s : State) (k c : Nat) (x : CrX) : State :=
  { s with rings.crs := Map.put (fun _ => {}) s.rings.crs (4096 * k + c) x }

/-- Does submission ring q of slice k exist (R126)? -/
def srExists (k q : Nat) : Bool := decide (k < 4 ∧ q < 8192)

/-- Does completion ring c of slice k exist (R126)? -/
def crExists (k c : Nat) : Bool := decide (k < 4 ∧ c < 4096)

/-! Extended indices (R133, R134). -/

/-- (a − b) modulo 2S. -/
def extDiff (n a b : Nat) : Nat := (a + 2 ^ (n + 1) - b % 2 ^ (n + 1)) % 2 ^ (n + 1)

/-- The extended index after x. -/
def extNext (n x : Nat) : Nat := (x + 1) % 2 ^ (n + 1)

/-- The slot of an extended index. -/
def extSlot (n x : Nat) : Nat := x % 2 ^ n

/-- The wrap bit of an extended index. -/
def extWrap (n x : Nat) : Nat := x / 2 ^ n % 2

def State.srLog (s : State) (k q : Nat) : Nat := s.fld (F.SR_CFG_LOG_SIZE k q)
def State.crLog (s : State) (k c : Nat) : Nat := s.fld (F.CR_CFG_LOG_SIZE k c)
def State.srState (s : State) (k q : Nat) : Nat := s.fld (F.SR_STATE_STATE k q)
def State.crState (s : State) (k c : Nat) : Nat := s.fld (F.CR_STATE_STATE k c)
def State.srInst (s : State) (k q : Nat) : Nat := s.fld (F.SR_CFG_INSTANCE k q)
def State.crInst (s : State) (k c : Nat) : Nat := s.fld (F.CR_CFG_INSTANCE k c)

/-- HOLD_LIMIT of a completion ring; larger values act as 64. -/
def State.holdLimit (s : State) (k c : Nat) : Nat := min 64 (s.fld (F.CR_CFG_HOLD_LIMIT k c))

/-- F: free slots of completion ring c. -/
def State.crFree (s : State) (k c : Nat) : Nat :=
  2 ^ s.crLog k c - extDiff (s.crLog k c) (s.fld (F.CR_TAIL k c)) (s.fld (F.CR_HEAD k c))

/-- The credit test o + h < F + L of R143, on an ACTIVE completion ring. -/
def State.credit (s : State) (k c : Nat) : Bool :=
  decide (s.crState k c = stActive) &&
  decide ((s.crx k c).o + (s.crx k c).held.length < s.crFree k c + s.holdLimit k c)

/-- Indices that some register of a block of `count` records of 0x80 bytes at `base` is listed for. -/
def listedIn (base count : Nat) : Map Word → List Nat
  | [] => []
  | (a, _) :: m =>
    let rest := listedIn base count m
    if base ≤ a ∧ a < base + 0x80 * count then
      let i := (a - base) / 0x80
      if rest.contains i then rest else i :: rest
    else rest

/-- The submission rings of slice k that hold anything but reset values. -/
def State.listedSrs (s : State) (k : Nat) : List Nat := listedIn (R.SR_BASE k 0) 8192 s.regs

def State.listedCrs (s : State) (k : Nat) : List Nat := listedIn (R.CR_BASE k 0) 4096 s.regs

/-- The submission rings, as (slice, q), that p holds of. -/
def State.srsWith (s : State) (p : Nat → Nat → Bool) : List (Nat × Nat) :=
  ((List.range 4).map (fun k => ((s.listedSrs k).filter (p k)).map (fun q => (k, q)))).flatten

def State.crsWith (s : State) (p : Nat → Nat → Bool) : List (Nat × Nat) :=
  ((List.range 4).map (fun k => ((s.listedCrs k).filter (p k)).map (fun c => (k, c)))).flatten

/-- The submission ring of function i with local index r: the enabled one, else the first that is configured so (R126, R138). -/
def State.findSr (s : State) (i r : Nat) : Option (Nat × Nat) :=
  let l := s.srsWith (fun k q => decide (s.srInst k q = i ∧ s.fld (F.SR_CFG_LOCAL k q) = r))
  match l.find? (fun e => decide (s.srState e.1 e.2 ≠ stDisabled)) with
  | some e => some e
  | none => l.head?

def State.findCr (s : State) (i r : Nat) : Option (Nat × Nat) :=
  let l := s.crsWith (fun k c => decide (s.crInst k c = i ∧ s.fld (F.CR_CFG_LOCAL k c) = r))
  match l.find? (fun e => decide (s.crState e.1 e.2 ≠ stDisabled)) with
  | some e => some e
  | none => l.head?

/-- The submission rings of slice k that are bound to completion ring c and not DISABLED. -/
def State.boundSrs (s : State) (k c : Nat) : List Nat :=
  (s.listedSrs k).filter (fun q => decide (s.fld (F.SR_CFG_CR k q) = c ∧ s.srState k q ≠ stDisabled))

/-! Signals (R147). -/

/-- Signal the consumer of completion ring c: the function's vector, or a hardware channel message. -/
def State.crSignal (s : State) (k c : Nat) : State :=
  let s1 := (s.setCrx k c { s.crx k c with unsignalled := 0 }).twCancel k (.ringMod c)
  if !s1.on (F.CR_INT_CFG_INT_EN k c) then s1
  else if s1.on (F.CR_INT_CFG_TARGET k c) then
    s1.hwDeliver k (s1.fld (F.CR_INT_CFG_CLUSTER k c)) (s1.fld (F.CR_INT_CFG_CHANNEL k c)) [c + 65536 * s1.fld (F.CR_TAIL k c)] .plain
  else s1.signalVector (s1.crInst k c) (s1.fld (F.CR_INT_CFG_VECTOR k c))

/-- A completion has been written: signal now, or arm the moderation timer (R147). -/
def State.crModerate (s : State) (k c : Nat) (irq : Bool) : State :=
  let x := s.crx k c
  let n := x.unsignalled + 1
  let s1 := s.setCrx k c { x with unsignalled := n }
  if irq ∨ max 1 (s.fld (F.CR_INT_CFG_MOD_COUNT k c)) ≤ n then s1.crSignal k c
  else if n = 1 ∧ s.fld (F.CR_INT_CFG_MOD_TIME k c) ≠ 0 then
    s1.twInsert k false (s.time.mono + s.fld (F.CR_INT_CFG_MOD_TIME k c) * ticksPerUs) (.ringMod c)
  else s1

/-! Credit, overflow and errors (R143 to R149). -/

/-- Show CQ_BLOCKED on every submission ring bound to c (R143). -/
def State.showBlocked (s : State) (k c : Nat) : State :=
  (s.boundSrs k c).foldl (fun t q => t.setFld (F.SR_STATE_CQ_BLOCKED k q) (b2n (!s.credit k c))) s

/-- Set CQ_OVERFLOW_PENDING when F = 0 and o + h = L, and show the credit's state (R143, R145). -/
def State.crCheck (s : State) (k c : Nat) : State :=
  let s1 := s.showBlocked k c
  if s1.crState k c = stActive ∧ s1.crFree k c = 0 ∧ (s1.crx k c).o + (s1.crx k c).held.length = s1.holdLimit k c ∧
      ¬ s1.on (F.CR_STATE_CQ_OVERFLOW_PENDING k c) then
    ((s1.setFld (F.CR_STATE_CQ_OVERFLOW_PENDING k c) 1).incFld (F.CR_OVERFLOW_EVENTS k c)).crSignal k c
  else s1

/-- Stop a submission ring from starting anything: what was fetched and not started is discarded (R142, R148). -/
def State.srStop (s : State) (k q : Nat) : State :=
  s.setSrx k q { s.srx k q with chain := [], skip := 0, ready := [], fetch := s.fld (F.SR_HEAD k q) }

/-- A submission ring enters ERROR with a syndrome (R148, R149). -/
def State.srError (s : State) (k q syn : Nat) : State :=
  (((s.srStop k q).setFld (F.SR_STATE_STATE k q) stError).setFld (F.SR_STATE_ERR k q) syn).raiseWith
    (F.RING_INT_STATUS_RING_ERROR_SEEN k) (R.RING_INT_ENABLE k) (q + 65536 * syn)

/-- Completion ring c leaves ACTIVE, if it was: its HOLD_LIMIT leaves the commit of the slice's pool (R146). -/
def State.crUncommit (s : State) (k c : Nat) : State :=
  if s.crState k c = stActive then s.subFld (F.RING_POOL_COMMIT k) (s.holdLimit k c) else s

/-- A completion ring enters ERROR: it blocks its submission rings and signals its consumer (R147, R149). -/
def State.crError (s : State) (k c syn : Nat) : State :=
  let s1 := (((s.crUncommit k c).setFld (F.CR_STATE_STATE k c) stError).setFld (F.CR_STATE_ERR k c) syn).raiseWith
    (F.RING_INT_STATUS_RING_ERROR_SEEN k) (R.RING_INT_ENABLE k) (8192 + c + 65536 * syn)
  (s1.crSignal k c).showBlocked k c

/-- One job bound to c leaves o. -/
def State.crLeave (s : State) (k c : Nat) : State :=
  s.setCrx k c { s.crx k c with o := (s.crx k c).o - 1 }

/-- Show h, the pool and its peak. -/
def State.setHeld (s : State) (k c : Nat) (l : List Compl) : State :=
  let old := (s.crx k c).held.length
  let s1 := (s.setCrx k c { s.crx k c with held := l }).setFld (F.CR_STATE_H k c) l.length
  let s2 := s1.setFld (F.RING_POOL_FREE k) (s1.fld (F.RING_POOL_FREE k) + old - l.length)
  s2.peakFld (F.RING_POOL_PEAK k) (8192 - s2.fld (F.RING_POOL_FREE k))

/-- The 16 bytes of a completion at extended index x (R131, R133). -/
def Compl.bytes (e : Compl) (held : Bool) (n x : Nat) : List Byte :=
  leBytes 8 (e.status + 65536 * (1 - extWrap n x) + 131072 * b2n held + 262144 * b2n e.tsValid + 2 ^ 19 * e.sr + 2 ^ 31 * e.srHead +
    2 ^ 48 * e.tag) ++ leBytes 8 e.result

/-- Write a completion at the tail of ring c (R144): the tail advances. A refused write puts the ring in ERROR; a write that
waits for a translation is none. -/
def State.crPut (s : State) (k c : Nat) (e : Compl) (held : Bool) : State × Bool :=
  let n := s.crLog k c
  let x := s.fld (F.CR_TAIL k c)
  match s.dmaWrite k (s.crInst k c) (s.fld (F.CR_BASE k c) * 4096 + 16 * extSlot n x) (s.classOp 0 e.cls e.begun) (e.bytes held n x) with
  | (s1, .ok _) =>
    let s2 := (s1.setFld (F.CR_TAIL k c) (extNext n x)).incFld (F.CR_WRITTEN k c)
    let s3 := if held then s2.incFld (F.CR_HELD_TOTAL k c) else s2
    (s3.crModerate k c e.irq, true)
  | (s1, .fail st) => (s1.crError k c st, false)
  | (s1, .wait) => (s1, false)

/-- A completion is lost for want of a holding entry (R146). -/
def State.crLose (s : State) (k c : Nat) : State :=
  let s1 := (s.satFld (F.CR_LOST k c) 1).setFld (F.CR_STATE_CQ_OVERFLOW_LOST k c) 1
  let s2 := s1.raiseWith (F.RING_INT_STATUS_CQ_LOST_SEEN k) (R.RING_INT_ENABLE k) c
  (s2.crError k c St.CQ_OVERFLOW_LOST).instEvent (s.crInst k c) .cqLost (s.fld (F.CR_CFG_LOCAL k c))

/-- Deliver a completion to ring c: written when a slot is free and none is held, else held, else lost; discarded on a ring that
is not ACTIVE (R144, R146, R149). The answer says whether it has left the job. -/
def State.crDeliver (s : State) (k c : Nat) (e : Compl) : State × Bool :=
  if s.crState k c ≠ stActive then (s.satFld (F.CR_LOST k c) 1, true)
  else if 0 < s.crFree k c ∧ (s.crx k c).held.isEmpty then
    let r := s.crPut k c e false
    if r.2 then r
    else if r.1.crState k c ≠ stActive then (r.1.satFld (F.CR_LOST k c) 1, true) else (r.1, false)
  else if s.fld (F.RING_POOL_FREE k) = 0 then (s.crLose k c, true)
  else (s.setHeld k c ((s.crx k c).held ++ [e]), true)

/-- Completions of units that wait for a host's answer are delivered, oldest first, until one must still wait; each gives back its credit. -/
def State.crFlush (s : State) (k c : Nat) : Nat → State
  | 0 => s
  | n + 1 =>
    match (s.crx k c).late with
    | [] => s
    | e :: rest =>
      let r := s.crDeliver k c e
      if r.2 then (((r.1.setCrx k c { r.1.crx k c with late := rest }).crLeave k c).crCheck k c).crFlush k c n else r.1

/-- Deliver a unit's own completion, which holds a credit of ring c (R143, R144): it keeps its order, and waits when the write must. -/
def State.crUnit (s : State) (k c : Nat) (e : Compl) : State :=
  let x := s.crx k c
  (s.setCrx k c { x with late := x.late ++ [e] }).crFlush k c (x.late.length + 1)

/-- Write held completions, oldest first, while slots are free (R144). -/
def State.crRelease (s : State) (k c : Nat) : Nat → State
  | 0 => s
  | n + 1 =>
    match (s.crx k c).held with
    | [] => s
    | e :: rest =>
      if s.crFree k c = 0 ∨ s.crState k c ≠ stActive then s
      else
        let r := s.crPut k c e true
        if r.2 then (r.1.setHeld k c rest).crRelease k c n else r.1

/-! Doorbells (R136 to R138). -/

/-- A submission doorbell reaches its ring (R137, R138). -/
def State.srDoorbell (s : State) (k q value : Nat) : State :=
  let n := s.srLog k q
  let t := value % 2 ^ (n + 1)
  if s.srState k q ≠ stActive then s.satFld (F.SR_DB_ERR_INACTIVE k q) 1
  else
    let head := s.fld (F.SR_HEAD k q)
    let dNew := extDiff n t head
    let dOld := extDiff n (s.fld (F.SR_TAIL k q)) head
    if 2 ^ n < dNew then
      let s1 := s.satFld (F.SR_DB_ERR_OVERRUN k q) 1
      let s2 := if (s1.srx k q).overrunSeen then s1
        else (s1.setSrx k q { s1.srx k q with overrunSeen := true }).raiseWith (F.RING_INT_STATUS_OVERRUN_SEEN k) (R.RING_INT_ENABLE k) q
      if s2.time.mono < (s2.srx k q).overrunQuiet then s2
      else (s2.setSrx k q { s2.srx k q with overrunQuiet := s2.time.mono + ticksPerSec }).logEvent (R.SR_DB_ERR k q) (value % 2 ^ 17) head
    else if dNew < dOld then s.satFld (F.SR_DB_ERR_STALE k q) 1
    else if dNew = dOld then s
    else (s.setSrx k q { s.srx k q with bells := (s.srx k q).bells ++ [(t, s.time.mono)] }).setFld (F.SR_TAIL k q) t

/-- A completion head doorbell reaches its ring (R137, R138, R144, R145). -/
def State.crDoorbell (s : State) (k c value : Nat) : State :=
  let n := s.crLog k c
  let h := value % 2 ^ (n + 1)
  let tail := s.fld (F.CR_TAIL k c)
  if s.crState k c ≠ stActive then s.satFld (F.CR_DB_ERR k c) 1
  else if h = s.fld (F.CR_HEAD k c) then s
  else if extDiff n tail h ≤ extDiff n tail (s.fld (F.CR_HEAD k c)) then
    let s1 := (s.setFld (F.CR_HEAD k c) h).crRelease k c 64
    let s2 := if (s1.crx k c).held.isEmpty then s1.setFld (F.CR_STATE_CQ_OVERFLOW_PENDING k c) 0 else s1
    s2.crCheck k c
  else s.satFld (F.CR_DB_ERR k c) 1

/-- A doorbell of function i at offset `off` of its window, checked here (R136): one without a ring is ignored (R585). -/
def State.doorbellHere (s : State) (i off value : Nat) : State :=
  if off < 0x8000 then
    match s.findSr i (off / 8) with
    | some (k, q) => (s.wakeSlice k).srDoorbell k q value
    | none => s
  else
    match s.findCr i ((off - 0x8000) / 8) with
    | some (k, c) => (s.wakeSlice k).crDoorbell k c value
    | none => s

/-- A doorbell of function i: forwarded to the home of a bound function, else checked here (R136, R313, R314). -/
def State.doorbell (s : State) (i off value : Nat) : State :=
  match s.anchorBinding i with
  | some b =>
    if b.state = 1 then (s.incFld F.FE_DB_FWD).feSend b 3 (leBytes 4 off ++ leBytes 4 (value % 2 ^ 32)) else s.incFld F.FE_DB_DROP
  | none => s.doorbellHere i off value

/-- The Recovery rings' doorbells (R487): local ring 0 of PF0, under the rules of R137; what those rules count elsewhere has no register here. -/
def State.rcvDoorbell (s : State) (completion : Bool) (value : Nat) : State :=
  let n := s.fld F.RCV_CFG_LOG_SIZE
  let r := s.boot.rcv
  let v := value % 2 ^ (n + 1)
  if !r.active then s
  else if completion then
    if extDiff n r.crTail v ≤ extDiff n r.crTail r.crHead then { s with boot.rcv := { r with crHead := v } } else s
  else
    let d := extDiff n v r.srHead
    if 2 ^ n < d ∨ d ≤ extDiff n r.srTail r.srHead then s else { s with boot.rcv := { r with srTail := v } }

/-- A doorbell reaches the Recovery rings. -/
def State.inRecovery (s : State) (inst ring : Nat) : Bool := s.running && s.boot.recovery && decide (inst = 0 ∧ ring = 0)

/-- SQ_DOORBELL (R136 to R138): function i writes `value` to the submission doorbell of its local ring. -/
def execSqDoorbell (inst ring value : Nat) (s : State) : Host.Outcome State Fault Refusal := whenAny s <|
  if s.inRecovery inst ring then .next (s.rcvDoorbell false value)
  else if !s.slicesUp then .next s
  else if 4096 ≤ ring ∨ s.instType inst = 4 then .next s else .next ((s.linkBusy (s.instLink inst)).doorbell inst (8 * ring) value)

/-- CQ_HEAD_DOORBELL (R136 to R138, R144): function i releases entries of its local completion ring. -/
def execCqHeadDoorbell (inst ring value : Nat) (s : State) : Host.Outcome State Fault Refusal := whenAny s <|
  if s.inRecovery inst ring then .next (s.rcvDoorbell true value)
  else if !s.slicesUp then .next s
  else if 4096 ≤ ring ∨ s.instType inst = 4 then .next s else .next ((s.linkBusy (s.instLink inst)).doorbell inst (0x8000 + 8 * ring) value)

/-! Descriptors (R129, R133, R135, R139, R140). -/

def Desc.opcode (d : Desc) : Nat := bitsOf (d.dws.getD 0 0) 7 0
def Desc.phase (d : Desc) : Nat := bitsOf (d.dws.getD 0 0) 8 8
def Desc.first (d : Desc) : Bool := bitOf (d.dws.getD 0 0) 9
def Desc.last (d : Desc) : Bool := bitOf (d.dws.getD 0 0) 10
def Desc.skip (d : Desc) : Bool := bitOf (d.dws.getD 0 0) 11
def Desc.irqNow (d : Desc) : Bool := bitOf (d.dws.getD 0 0) 12
def Desc.jobTag (d : Desc) : Nat := bitsOf (d.dws.getD 0 0) 31 16
def Desc.length (d : Desc) : Nat := bitsOf (d.dws.getD 0 0) 63 32
def Desc.addr (d : Desc) : Nat := d.dws.getD 1 0

def emptyDesc : Desc := { index := 0, dws := [] }

/-- The FIRST descriptor of a job. -/
def RJob.head (j : RJob) : Desc := j.descs.headD emptyDesc

/-- A doubleword of a job's FIRST descriptor. -/
def RJob.dw (j : RJob) (i : Nat) : Nat := j.head.dws.getD i 0

/-- The buffers of a job: address and length of each descriptor, in ring order (R139). -/
def RJob.bufs (j : RJob) : List (Nat × Nat) := j.descs.map (fun d => (d.addr, d.length))

/-- The bytes of a job's buffer. -/
def RJob.total (j : RJob) : Nat := (j.descs.map Desc.length).sum

/-- Append a job to those fetched and not started. -/
def State.queueJob (s : State) (k q : Nat) (descs : List Desc) (preset : Option Nat) : State :=
  let j : RJob := { id := s.rings.nextJob, slice := k, ring := q, descs := descs, preset := preset, begun := (descs.headD emptyDesc).rung }
  let x := s.srx k q
  let s1 := { s with rings.nextJob := s.rings.nextJob + 1 }
  s1.setSrx k q { x with ready := x.ready ++ [j] }

/-- A skipped descriptor is counted to the faulty job it belongs to, if that has not started. -/
def State.absorb (s : State) (k q : Nat) (d : Desc) : State :=
  let x := s.srx k q
  match x.ready.getLast? with
  | some j => if j.preset.isSome then s.setSrx k q { x with ready := x.ready.dropLast ++ [{ j with descs := j.descs ++ [d] }] } else s
  | none => s

/-- One fetched descriptor with a good phase: the chain rules of R139 and R140. -/
def State.takeDesc (s : State) (k q : Nat) (d : Desc) : State :=
  let x := s.srx k q
  if x.skip = 2 then
    (s.setSrx k q { x with skip := if d.last then 0 else 2 }).absorb k q d
  else if d.first then
    let s1 := if x.chain.isEmpty then s else s.queueJob k q x.chain (some St.DESC_CHAIN_ERROR)
    let x1 := s1.srx k q
    if d.last then (s1.setSrx k q { x1 with chain := [], skip := 0 }).queueJob k q [d] none
    else s1.setSrx k q { x1 with chain := [d], skip := 0 }
  else if x.chain.isEmpty then
    if x.skip = 1 then s.absorb k q d
    else (s.setSrx k q { x with skip := 1 }).queueJob k q [d] (some St.DESC_CHAIN_ERROR)
  else
    let chain := x.chain ++ [d]
    if 64 < chain.length then
      (s.setSrx k q { x with chain := [], skip := if d.last then 0 else 2 }).queueJob k q chain (some St.DESC_CHAIN_TOO_LONG)
    else if d.last then (s.setSrx k q { x with chain := [] }).queueJob k q chain none
    else s.setSrx k q { x with chain := chain }

/-- May ring q fetch: ACTIVE, its instance ENABLED, credit on its completion ring, descriptors waiting (R143, R462)? -/
def State.mayFetch (s : State) (k q : Nat) : Bool :=
  decide (s.srState k q = stActive) && s.instRuns (s.srInst k q) && s.credit k (s.fld (F.SR_CFG_CR k q)) &&
  decide ((s.srx k q).fetch ≠ s.fld (F.SR_TAIL k q))

/-- FT_MONO of the doorbell that made the next descriptor of ring q available (R75). -/
def State.descRung (s : State) (k q : Nat) : Nat :=
  (((s.srx k q).bells.dropWhile (fun b => decide (b.1 = (s.srx k q).fetch))).headD (0, s.time.mono)).2

/-- Fetch up to n descriptors, one after another, checking each (R135, R139, R140, R149). -/
def State.fetchDescs (s : State) (k q : Nat) : Nat → State
  | 0 => s
  | n + 1 =>
    if !s.mayFetch k q then s
    else
      let lg := s.srLog k q
      let x := (s.srx k q).fetch
      match s.dmaRead k (s.srInst k q) (s.fld (F.SR_BASE k q) * 4096 + 64 * extSlot lg x) 64 (s.ringOp 0 k q (s.descRung k q)) with
      | (s1, .wait) => s1
      | (s1, .fail st) => s1.srError k q st
      | (s1, .ok bs) =>
        let bells := (s1.srx k q).bells.dropWhile (fun b => decide (b.1 = x))
        let d : Desc := { index := x, dws := (List.range 8).map (dwAt bs), rung := (bells.headD (0, s.time.mono)).2 }
        if d.phase = extWrap lg x then s1.srError k q St.DESC_PHASE_MISMATCH
        else ((s1.setSrx k q { s1.srx k q with fetch := extNext lg x, bells := bells }).takeDesc k q d).fetchDescs k q n

/-- DESCRIPTOR_FETCH (R135, R139, R140, R143): ring q of a slice fetches up to `count` descriptors. -/
def execDescriptorFetch (slice ring count : Nat) (s : State) : Host.Outcome State Fault Refusal := whenSlices s <|
  if srExists slice ring ∧ s.awake slice then .next (s.fetchDescs slice ring count) else .next s

/-! Jobs (R130, R141 to R143, R450). -/

/-- Is a ring opcode valid for an instance of this type (R130, R450)? KEY_BIND, KEY_UNBIND and MGMT_CMD belong to PF0. -/
def opcodeValid (typ inst loc op : Nat) : Bool :=
  let common := decide (op = 0x00) || decide (0x20 ≤ op ∧ op ≤ 0x23) || decide (op = 0x26)
  let kra := decide (0x10 ≤ op ∧ op ≤ 0x14) || decide (op = 0x18 ∨ op = 0x19)
  if typ = 1 then common || kra || decide (op = 0x01 ∨ op = 0x02) || decide ((op = 0x24 ∨ op = 0x25) ∧ inst = 0) ||
    decide (op = 0x30 ∧ inst = 0 ∧ loc = 0)
  else if typ = 2 then common || decide (op = 0x01 ∨ op = 0x02)
  else if typ = 3 then common || kra
  else false

/-- Replace a started job's record. -/
def State.setJob (s : State) (j : RJob) : State :=
  let x := s.srx j.slice j.ring
  s.setSrx j.slice j.ring { x with started := x.started.map (fun y => if y.id = j.id then j else y) }

/-- A started job's work is done: its STATUS, RESULT and TS_VALID (R131). -/
def State.finish (s : State) (j : RJob) (status result : Nat) (ts : Bool) : State :=
  s.setJob { j with taken := true, outcome := some (status, result, ts) }

/-- Start the oldest fetched job of ring q (R142, R143). Of a faulty job that has no LAST descriptor, the published head follows the last descriptor that
was fetched into it (DESIGN CHOICE, log entry 22). -/
def State.startJob (s : State) (k q : Nat) : State :=
  let x := s.srx k q
  let c := s.fld (F.SR_CFG_CR k q)
  match x.ready with
  | [] => s
  | j :: rest =>
    let idx := j.head.index
    let op := j.head.opcode
    let out : Option (Nat × Nat × Bool) := match j.preset with
      | some st => some (st, idx, false)
      | none => if opcodeValid (s.instType (s.srInst k q)) (s.srInst k q) (s.fld (F.SR_CFG_LOCAL k q)) op then none else some (St.RING_OPCODE_INVALID, 0, false)
    let j1 := { j with outcome := out, taken := out.isSome }
    let s1 := s.setSrx k q { x with ready := rest, started := x.started ++ [j1] }
    let s2 := (s1.setFld (F.SR_HEAD k q) (extNext (s.srLog k q) ((j.descs.getLast?.getD emptyDesc).index))).incFld (F.SR_JOBS k q)
    let s3 := s2.setCrx k c { s2.crx k c with o := (s2.crx k c).o + 1 }
    let s4 := if j.preset.isSome then s3.addFld (F.SR_CHAIN_ERR k q) 1 else s3
    s4.crCheck k c

/-- JOB_START (R142, R143): the oldest fetched job of a ring starts when its completion ring has a credit. -/
def execJobStart (slice ring : Nat) (s : State) : Host.Outcome State Fault Refusal := whenSlices s <|
  if !srExists slice ring then .next s
  else if s.srState slice ring = stActive ∧ s.instRuns (s.srInst slice ring) ∧ s.credit slice (s.fld (F.SR_CFG_CR slice ring)) then
    .next (s.startJob slice ring)
  else .next (s.showBlocked slice (s.fld (F.SR_CFG_CR slice ring)))

/-- The oldest started job of ring q with this opcode that no command has taken up. -/
def State.jobFor (s : State) (k q op : Nat) : Option RJob :=
  if !srExists k q ∨ s.srState k q = stStalled ∨ s.srState k q = stDisabled then none
  else (s.srx k q).started.find? (fun j => !j.taken && decide (j.head.opcode = op))

/-- A started job by its id. -/
def State.jobById (s : State) (k q id : Nat) : Option RJob := (s.srx k q).started.find? (fun j => decide (j.id = id))

/-! Completions (R131, R132, R141, R144). -/

/-- The completion of a finished job (R131). A stray descriptor, without FIRST, gives no JOB_TAG and no IRQ_NOW (R129, R139): its completion's tag is a
free value. -/
def State.complOf (s : State) (j : RJob) (o : Nat × Nat × Bool) : Compl :=
  { status := o.1, tsValid := o.2.2, sr := s.fld (F.SR_CFG_LOCAL j.slice j.ring), srHead := s.fld (F.SR_HEAD j.slice j.ring),
    tag := if j.head.first then j.head.jobTag else Config.unstated s.freeCtr % 65536, result := o.2.1,
    irq := (j.head.first && j.head.irqNow) || j.event, cls := s.fld (F.SR_CFG_CLASS j.slice j.ring), begun := j.begun }

/-- The oldest started job of ring q, if it is done, writes its completion (R141, R144). -/
def State.completeOne (s : State) (k q : Nat) : State :=
  let x := s.srx k q
  let c := s.fld (F.SR_CFG_CR k q)
  match x.started with
  | [] => s
  | j :: rest =>
    match j.outcome with
    | none => s
    | some o =>
      if o.1 / 4096 = 0 ∧ j.head.skip then ((s.setSrx k q { x with started := rest }).crLeave k c).crCheck k c
      else
        let r := (if j.head.first then s else s.draw).crDeliver k c (s.complOf j o)
        if r.2 then ((r.1.setSrx k q { r.1.srx k q with started := rest }).crLeave k c).crCheck k c else r.1

/-- COMPLETION_WRITE (R132, R141, R144 to R146): the oldest started job of a ring, when its work is done, leaves with its completion. A
ring stalled by Bus Master Enable writes none (R150). -/
def execCompletionWrite (slice ring : Nat) (s : State) : Host.Outcome State Fault Refusal := whenSlices s <|
  if !srExists slice ring ∨ s.srState slice ring = stStalled ∨ s.srState slice ring = stDisabled then .next s
  else .next ((s.crFlush slice (s.fld (F.SR_CFG_CR slice ring)) 64).completeOne slice ring)

/-- RING_MOD_TIMER (R147): MOD_TIME has passed since the first completion not yet signalled. -/
def execRingModTimer (slice ring : Nat) (s : State) : Host.Outcome State Fault Refusal := whenSlices s <|
  if crExists slice ring ∧ s.twFired slice (.ringMod ring) then .next ((s.twTake slice (.ringMod ring)).crSignal slice ring) else .next s

/-- NOP (R130): completes with SUCCESS. -/
def execNop (slice ring : Nat) (s : State) : Host.Outcome State Fault Refusal := whenSlices s <|
  match s.jobFor slice ring 0x00 with
  | some j => .next (s.finish j St.SUCCESS 0 false)
  | none => .next s

/-! Ring states (R146, R148 to R150, R460). -/

/-- May objects of instance i be enabled: it is present, its type has work rings, and it is not DISABLED (R449, R450, R461)? -/
def State.ringsAllowed (s : State) (i : Nat) : Bool :=
  decide (s.instType i = 1 ∨ s.instType i = 2 ∨ s.instType i = 3) && decide (s.instState i ≠ instDisabled)

/-- Is local index r of instance i in use by another submission ring that is not DISABLED (R126)? -/
def State.srLocalUsed (s : State) (k q : Nat) : Bool :=
  !(s.srsWith (fun k' q' => decide (¬ (k' = k ∧ q' = q)) && decide (s.srInst k' q' = s.srInst k q) &&
    decide (s.fld (F.SR_CFG_LOCAL k' q') = s.fld (F.SR_CFG_LOCAL k q)) && decide (s.srState k' q' ≠ stDisabled))).isEmpty

def State.crLocalUsed (s : State) (k c : Nat) : Bool :=
  !(s.crsWith (fun k' c' => decide (¬ (k' = k ∧ c' = c)) && decide (s.crInst k' c' = s.crInst k c) &&
    decide (s.fld (F.CR_CFG_LOCAL k' c') = s.fld (F.CR_CFG_LOCAL k c)) && decide (s.crState k' c' ≠ stDisabled))).isEmpty

/-- Is the configuration of submission ring q valid (R148)? -/
def State.srValid (s : State) (k q : Nat) : Bool :=
  let n := s.srLog k q
  let c := s.fld (F.SR_CFG_CR k q)
  decide (6 ≤ n ∧ n ≤ 16) && decide (s.crInst k c = s.srInst k q) && decide (s.crState k c = stActive) && !s.srLocalUsed k q &&
  s.ringsAllowed (s.srInst k q)

/-- ENABLE = 1 on a DISABLED submission ring (R148). -/
def State.srEnable (s : State) (k q : Nat) : State :=
  let i := s.srInst k q
  let s0 := s.setFld (F.SR_CTRL_ENABLE k q) 1
  if s.srState k q ≠ stDisabled then s0
  else if !s.srValid k q then (s0.setSrx k q { s0.srx k q with offWritten := false }).srError k q St.RING_CONFIG_INVALID
  else if s.fld (F.INST_QUOTA_A_SR_MAX i) ≤ s.fld (F.INST_USE_A_SR i) then
    ((s0.setSrx k q { s0.srx k q with offWritten := false }).srError k q St.QUOTA_EXCEEDED).quotaRefused i 0
  else
    let head := s.fld (F.SR_HEAD k q)
    let s1 := s0.setSrx k q { s0.srx k q with fetch := head, chain := [], skip := 0, ready := [], started := [], posted := [], offWritten := false, used := true }
    let s2 := (s1.setFld (F.SR_TAIL k q) head).setFld (F.SR_STATE_STATE k q) stActive
    (s2.incFld (F.INST_USE_A_SR i)).setFld (F.SR_STATE_CQ_BLOCKED k q) (b2n (!s.credit k (s.fld (F.SR_CFG_CR k q))))

/-- A submission ring becomes DISABLED: its head stands published, and it no longer counts as used. -/
def State.srDown (s : State) (k q : Nat) : State :=
  let x := s.srx k q
  let c := s.fld (F.SR_CFG_CR k q)
  let s1 := s.setCrx k c { s.crx k c with o := (s.crx k c).o - x.started.length }
  let s2 := s1.setSrx k q { x with started := [], ready := [], chain := [], skip := 0, posted := [], used := false, offWritten := false }
  let s3 := (s2.setFld (F.SR_STATE_STATE k q) stDisabled).setFld (F.SR_STATE_CQ_BLOCKED k q) 0
  if x.used then s3.subFld (F.INST_USE_A_SR (s.srInst k q)) 1 else s3

/-- Are requests of instance i still outstanding at the PCIe links? -/
def State.readsOut (s : State) (i : Nat) : Bool :=
  s.pcie.reads.any (fun r => decide (r.fn = i)) || s.fe.reads.any (fun r => decide (r.homeInst = i))

/-- ENABLE = 0 on a submission ring (R148). -/
def State.srDisable (s : State) (k q : Nat) : State :=
  let st := s.srState k q
  let s0 := (s.setFld (F.SR_CTRL_ENABLE k q) 0).setSrx k q { s.srx k q with offWritten := decide (st ≠ stDisabled) }
  if st = stActive then
    let s1 := s0.srStop k q
    if (s1.srx k q).started.isEmpty then s1.srDown k q else s1.setFld (F.SR_STATE_STATE k q) stStopping
  else if st = stError then (if (s0.srx k q).started.isEmpty then s0.srDown k q else s0)
  else if st = stStalled then (if s0.readsOut (s.srInst k q) then s0 else s0.srDown k q)
  else s0

/-- The commit of the slice's holding pool with completion ring c added (R146). -/
def State.commitWith (s : State) (k c : Nat) : Nat := s.fld (F.RING_POOL_COMMIT k) + s.holdLimit k c

def State.crValid (s : State) (k c : Nat) : Bool :=
  let n := s.crLog k c
  decide (6 ≤ n ∧ n ≤ 16) && !s.crLocalUsed k c && s.ringsAllowed (s.crInst k c) &&
  (s.on (F.RING_SLICE_CFG_HOLD_OVERCOMMIT k) || decide (s.commitWith k c ≤ 8192))

/-- ENABLE = 1 on a DISABLED completion ring (R146, R148). CQ_OVERFLOW_LOST clears here (DESIGN CHOICE, log entry 22: the spec says when it is set and
not when it clears). -/
def State.crEnable (s : State) (k c : Nat) : State :=
  let i := s.crInst k c
  let s0 := s.setFld (F.CR_CTRL_ENABLE k c) 1
  if s.crState k c ≠ stDisabled then s0
  else if !s.crValid k c then s0.crError k c St.RING_CONFIG_INVALID
  else if s.fld (F.INST_QUOTA_A_CR_MAX i) ≤ s.fld (F.INST_USE_A_CR i) then (s0.crError k c St.QUOTA_EXCEEDED).quotaRefused i 1
  else
    let s1 := s0.setCrx k c { used := true }
    let s2 := (s1.setFld (F.CR_TAIL k c) (s.fld (F.CR_HEAD k c))).setFld (F.CR_STATE_STATE k c) stActive
    let s3 := (s2.setFld (F.CR_STATE_CQ_OVERFLOW_PENDING k c) 0).setFld (F.CR_STATE_CQ_OVERFLOW_LOST k c) 0
    (s3.setFld (F.RING_POOL_COMMIT k) (s.commitWith k c)).incFld (F.INST_USE_A_CR i)

/-- A completion ring becomes DISABLED; its held entries are discarded and counted (R148). -/
def State.crDown (s : State) (k c : Nat) : State :=
  let x := s.crx k c
  let s1 := (((s.crUncommit k c).satFld (F.CR_LOST k c) x.held.length).setHeld k c []).twCancel k (.ringMod c)
  let s2 := (s1.setFld (F.CR_STATE_STATE k c) stDisabled).setFld (F.CR_STATE_CQ_OVERFLOW_PENDING k c) 0
  let s3 := if x.used then s2.subFld (F.INST_USE_A_CR (s.crInst k c)) 1 else s2
  s3.setCrx k c {}

/-- ENABLE = 0 on a completion ring, when every bound submission ring is DISABLED; at any other time it is ignored (R148). -/
def State.crDisable (s : State) (k c : Nat) : State :=
  if (s.boundSrs k c).isEmpty then
    let s0 := s.setFld (F.CR_CTRL_ENABLE k c) 0
    if s.crState k c = stDisabled then s0 else s0.crDown k c
  else s

/-- SR_ENABLE (R126, R128, R148, R460). -/
def execSrEnable (agent : Agent) (slice ring : Nat) (s : State) : Host.Outcome State Fault Refusal := whenSlices s <|
  if srExists slice ring && accessOk (R.SR_CTRL slice ring) true agent then .next (s.srEnable slice ring) else .next s

/-- SR_DISABLE (R148). -/
def execSrDisable (agent : Agent) (slice ring : Nat) (s : State) : Host.Outcome State Fault Refusal := whenSlices s <|
  if srExists slice ring && accessOk (R.SR_CTRL slice ring) true agent then .next (s.srDisable slice ring) else .next s

/-- CR_ENABLE (R126, R146, R148, R460). -/
def execCrEnable (agent : Agent) (slice ring : Nat) (s : State) : Host.Outcome State Fault Refusal := whenSlices s <|
  if crExists slice ring && accessOk (R.CR_CTRL slice ring) true agent then .next (s.crEnable slice ring) else .next s

/-- CR_DISABLE (R148). -/
def execCrDisable (agent : Agent) (slice ring : Nat) (s : State) : Host.Outcome State Fault Refusal := whenSlices s <|
  if crExists slice ring && accessOk (R.CR_CTRL slice ring) true agent then .next (s.crDisable slice ring) else .next s

/-- RING_DRAINED (R148): with ENABLE = 0 written and its last started job retired (or, stalled by Bus Master Enable, its last request
retired), the ring publishes its head and becomes DISABLED. -/
def execRingDrained (slice ring : Nat) (s : State) : Host.Outcome State Fault Refusal := whenSlices s <|
  let x := s.srx slice ring
  let st := s.srState slice ring
  if srExists slice ring ∧ x.offWritten ∧ ((st = stStopping ∨ st = stError) ∧ x.started.isEmpty ∨ st = stStalled ∧ !s.readsOut (s.srInst slice ring)) then
    .next (s.srDown slice ring)
  else .next s

/-- Every ring of instance i that is not DISABLED moves to STALLED_BME (R150). -/
def State.stallRings (s : State) (i : Nat) : State :=
  let s1 := (s.srsWith (fun k q => decide (s.srInst k q = i ∧ s.srState k q ≠ stDisabled))).foldl
    (fun t e => (t.srStop e.1 e.2).setFld (F.SR_STATE_STATE e.1 e.2) stStalled) s
  (s.crsWith (fun k c => decide (s.crInst k c = i ∧ s.crState k c ≠ stDisabled))).foldl
    (fun t e => (t.crUncommit e.1 e.2).setFld (F.CR_STATE_STATE e.1 e.2) stStalled) s1

/-- Every ring of instance i returns to DISABLED with head and tail zero; its configuration is kept (R150). -/
def State.resetRings (s : State) (i : Nat) : State :=
  let s1 := (s.srsWith (fun k q => decide (s.srInst k q = i))).foldl
    (fun t e => (((if t.srState e.1 e.2 = stDisabled then t else t.srDown e.1 e.2).setFld (F.SR_CTRL_ENABLE e.1 e.2) 0).setFld
      (F.SR_HEAD e.1 e.2) 0).setFld (F.SR_TAIL e.1 e.2) 0) s
  (s.crsWith (fun k c => decide (s.crInst k c = i))).foldl
    (fun t e => (((if t.crState e.1 e.2 = stDisabled then t else t.crDown e.1 e.2).setFld (F.CR_CTRL_ENABLE e.1 e.2) 0).setFld
      (F.CR_HEAD e.1 e.2) 0).setFld (F.CR_TAIL e.1 e.2) 0) s1

/-- Every ring of instance i that runs enters ERROR with a syndrome (R314). -/
def State.errorRings (s : State) (i syn : Nat) : State :=
  let run := fun st => decide (st = stActive ∨ st = stStopping)
  let s1 := (s.srsWith (fun k q => decide (s.srInst k q = i) && run (s.srState k q))).foldl (fun t e => t.srError e.1 e.2 syn) s
  (s.crsWith (fun k c => decide (s.crInst k c = i) && run (s.crState k c))).foldl (fun t e => t.crError e.1 e.2 syn) s1

/-- The RING_JOBS and COMPLETIONS records of a loss report on instance i (R464). -/
def State.ringLoss (s : State) (i : Nat) : List LossRec :=
  let jobs := (s.srsWith (fun k q => decide (s.srInst k q = i) && !((s.srx k q).started.isEmpty))).map (fun e =>
    (⟨1, s.fld (F.SR_CFG_LOCAL e.1 e.2), (((s.srx e.1 e.2).started.headD { id := 0, slice := 0, ring := 0, descs := [] }).head).index,
      s.fld (F.SR_HEAD e.1 e.2)⟩ : LossRec))
  let cpl := (s.crsWith (fun k c => decide (s.crInst k c = i) && decide ((s.crx k c).o + (s.crx k c).held.length ≠ 0))).map (fun e =>
    (⟨4, s.fld (F.CR_CFG_LOCAL e.1 e.2), (s.crx e.1 e.2).o + (s.crx e.1 e.2).held.length, 0⟩ : LossRec))
  jobs ++ cpl

/-- The words of the ring status window (R153), at offset `off`. -/
def State.ringStatus (s : State) (i off : Nat) : Nat :=
  if off < 0x8000 then
    match s.findSr i (off / 8) with
    | some (k, q) => s.srState k q + 8 * s.fld (F.SR_STATE_CQ_BLOCKED k q) + 65536 * s.fld (F.SR_HEAD k q) +
        2 ^ 48 * s.fld (F.SR_STATE_ERR k q)
    | none => 0
  else
    match s.findCr i ((off - 0x8000) / 8) with
    | some (k, c) => s.crState k c + 8 * s.fld (F.CR_STATE_CQ_OVERFLOW_PENDING k c) + 16 * s.fld (F.CR_STATE_CQ_OVERFLOW_LOST k c) +
        65536 * s.fld (F.CR_HEAD k c) + 2 ^ 48 * s.fld (F.CR_STATE_ERR k c)
    | none => 0

end Sys2Proof.Machine
end

