-- ==== Sys2Proof/Machine/Frames.lean ====
section
/-!
DEFINITION. Ethernet ports, packet buffer cells, frames and the egress of ports (chapters 01, 02, 05: R21 to R23, R32 to R45, R60, R61,
R67 to R70, R81, R151, R154).
-/

namespace Sys2Proof.Machine

/-! Ports (R21, R22). -/

/-- Ports per slice in the mode in force. -/
def State.portsPerSlice (s : State) (k : Nat) : Nat := 2 ^ s.fld (F.ETH_PORT_MODE k)

/-- Does slice k have port position p in the mode in force? -/
def State.portHere (s : State) (k p : Nat) : Bool := decide (k < 4) && decide (p < s.portsPerSlice k)

/-- The device port number of position p of slice k (R21). -/
def State.portNumber (s : State) (k p : Nat) : Nat := k * s.portsPerSlice k + p

/-- Slice and position of a device port, where the mode has it. -/
def State.portAt (s : State) (n : Nat) : Option (Nat × Nat) :=
  let per := s.portsPerSlice 0
  if n < 4 * per then some (n / per, n % per) else none

/-- Is the link of port position p of slice k up? -/
def State.linkUp (s : State) (k p : Nat) : Bool := s.portHere k p && s.on ⟨R.ETH_LINK_STATUS k, p, 1⟩

/-- ETH_LINK_UP (R22): a port of the mode in force has trained at its rate. -/
def execEthLinkUp (slice port : Nat) (s : State) : Host.Outcome State Fault Refusal := whenSlices s <|
  if s.portHere slice port then .next (s.setFld ⟨R.ETH_LINK_STATUS slice, port, 1⟩ 1) else .next s

/-! Drops (R38, R189). -/

/-- Finish the TX_FRAME job that a frame came from. -/
def State.finishTx (s : State) (o : Origin) (status result : Nat) (ts : Bool) : State :=
  match o with
  | .tx k q id => match s.jobById k q id with
    | some j => s.finish j status result ts
    | none => s
  | _ => s

/-- Drop a frame: its cells are freed; work dropped after its lookup counts in the DROPS of its entry (R189); a begun egress ends
with an inverted FCS (R38); a transmit job ends with `status`. -/
def State.dropFrame (s : State) (f : Frame) (status : Nat) : State :=
  let begun := s.eth.egress.any (fun e => decide (e.frame = f.id) && e.begun)
  let s1 := match f.looked with
    | some r => s.catDrop r.handle
    | none => s
  let cut := (s1.eth.egress.filter (fun e => !(decide (e.frame = f.id) && !e.begun))).map (fun (e : Egress) =>
      if e.frame = f.id then { e with badFcs := true } else e)
  let s2 := { s1 with eth.egress := cut }
  let k := match f.origin with | .eth k _ => k | _ => f.slice
  let s2g := if f.whole then s2 else { s2 with eth.ghosts := s2.eth.ghosts ++ [(f.id, k, f.macMal)] }
  let s3 := s2g.finishTx f.origin status 0 false
  if begun then s3.freeCells f true 0 else s3.eraseFrame f

/-- A frame is refused a cell of class n in slice k: it is dropped whole and counted once (R38). -/
def State.refuseFrame (s : State) (k n : Nat) (f : Frame) : State := (s.incFld (F.PB_DROP k n)).dropFrame f St.SUCCESS

/-- Ask for n cells of class c in slice k for a frame, cell by cell (R36, R39). A refused NVMe request (class 2) waits (R38). -/
def State.askCells (s : State) (k c id : Nat) : Nat → State
  | 0 => s
  | n + 1 =>
    match s.frame? id with
    | none => s
    | some f =>
      match s.cellAnswer k c with
      | .grant => (s.grantCell k c f).askCells k c id n
      | .refuse =>
        if c ≠ 2 then s.refuseFrame k c f
        else
          let r : QReq := { point := .pbPool, slice := k, deadline := s.deadlineOf f.dlClass f.begun, source := 0,
                            work := .cell c id }
          ({ s with arb.waiting := s.arb.waiting ++ [r] }.setFrame { f with cellWait := f.cellWait + 1 }).askCells k c id n
      | .contend =>
        let r : QReq := { point := .pbPool, slice := k, deadline := s.deadlineOf f.dlClass f.begun, source := 0,
                          work := .cell c id }
        ({ s with arb.waiting := s.arb.waiting ++ [r] }.setFrame { f with cellWait := f.cellWait + 1 }).askCells k c id n

/-- The cells that n bytes of a frame take. -/
def cellsFor (n : Nat) : Nat := (n + 255) / 256

/-- The class in which a frame's next cells are taken: its ingress class, or the entry's PB_CLASS once looked up (R154, R187). -/
def Frame.cellClass (f : Frame) (s : State) : Nat :=
  if f.looked.isSome then f.pbClass
  else if f.stage = .staging then 2
  else match f.origin with
    | .eth k p => s.fld (F.PARSE_PORT_CFG_PB_CLASS k p)
    | .korrum 1 _ => 1
    | _ => 0

/-- When the last cell of a frame is admitted to a slice, it counts in PB_ADMIT once (R39). -/
def State.countAdmit (s : State) (k id : Nat) : State :=
  match s.frame? id with
  | some f => if f.whole ∧ f.cellWait = 0 then s.incFld (F.PB_ADMIT k (f.cellClass s)) else s
  | none => s

/-! Reception (R22, R154, R170). -/

/-- The malformed classes the MAC raises for a frame of n bytes without FCS on port p of slice k (R170). -/
def State.macClasses (s : State) (k p n : Nat) (fcsOk : Bool) : List Nat :=
  (if n + 4 < 64 then [1] else []) ++ (if fcsOk then [] else [2]) ++ (if s.fld (F.PARSE_PORT_CFG_MAX_FRAME k p) < n + 4 then [3] else [])

/-- A timestamp correction, in units of 0.125 ns (R59). -/
def State.adjOf (s : State) (f : Fld) : Int := signed 16 (s.fld f)

/-- Fabric Time at d units of 0.125 ns from now. -/
def State.ftShifted (s : State) (d : Int) : Nat := ftValue ((s.time.units : Int) + d).toNat

/-- FRAME_RECEIVE (R22, R38, R39, R59, R60, R75, R154): a frame of bytes `data` (without FCS) begins to arrive on a port; its first `arrived`
bytes are written now, the rest by MAC_LATE_VERDICT. A port whose link is down receives nothing; MAC control frames stay in
the MAC. In an idle slice, or one that leaves an idle state, the frame waits in the wake buffer, or is dropped (R529). -/
def execFrameReceive (slice port : Nat) (data : List Byte) (arrived : Nat) (fcsOk : Bool) (s : State) :
    Host.Outcome State Fault Refusal := whenSlices s <|
  if !s.linkUp slice port ∨ beAt data 12 2 = 0x8808 then .next s
  else
    let kept := data.take (s.fld (F.PARSE_PORT_CFG_MAX_FRAME slice port))
    let n := min arrived kept.length
    let f : Frame := { id := s.eth.nextFrame, origin := .eth slice port, slice := slice, stage := .arriving, data := kept, arrived := n,
                       macMal := s.macClasses slice port data.length fcsOk, whole := decide (n = kept.length),
                       rxTs := ts64 (s.ftShifted (-(s.adjOf (F.TS_RX_ADJ slice port)))), begun := s.time.mono, dlClass := s.unitClass 0,
                       prefetch := s.on (F.PORT_L2_CFG_PREFETCH slice port) }
    let s0 := s.wakeSlice slice
    let x := s0.idleX slice
    let s1 := { s0 with eth.nextFrame := s.eth.nextFrame + 1 }.setFrame f
    if s0.awake slice then .next ((s1.askCells slice (f.cellClass s) f.id (cellsFor n)).countAdmit slice f.id)
    else if 262144 < x.wakeBytes + kept.length then .next (s0.incFld (F.PWR_WAKE_DROP slice))
    else
      let s2 := s1.setFrame { f with cellWait := cellsFor n }
      .next (s2.setIdleX slice { x with wakeBytes := x.wakeBytes + kept.length, wakeFrames := x.wakeFrames ++ [f.id] })

/-- Show the depth of the parse queue of slice k. -/
def State.showQueue (s : State) (k : Nat) : State :=
  let n := (s.eth.queues.getD k []).length
  (s.setFld (F.PARSE_QUEUE_DEPTH k) n).peakFld (F.PARSE_QUEUE_PEAK k) n

/-- PARSE_ENQUEUE (R154): a frame with 256 bytes, or all of it, in the buffer enters the parse queue, or is dropped when it is full. -/
def execParseEnqueue (frame : Nat) (s : State) : Host.Outcome State Fault Refusal := whenSlices s <|
  match s.frame? frame with
  | none => .next s
  | some f =>
    if f.stage ≠ .arriving ∨ f.arrived < min 256 f.data.length ∨ f.cellWait ≠ 0 then .next s
    else
      let k := f.slice
      let q := s.eth.queues.getD k []
      if 1024 ≤ q.length then
        .next (((s.incFld (F.PARSE_QUEUE_DROP k)).raise (F.PARSE_INT_STATUS_QUEUE_DROP_SEEN k) (R.PARSE_INT_ENABLE k)).dropFrame f 0)
      else .next (({ s with eth.queues := s.eth.queues.set k (q ++ [frame]) }.setFrame { f with stage := .queued }).showQueue k)

/-! Packet buffer commits (R40, R41). -/

/-- The staged values of slice k, minimums then maximums. -/
def State.pbStaged (s : State) (k : Nat) : List Nat × List Nat :=
  ((List.range 4).map (fun n => s.fld (F.PB_CLASS_MIN k n)), (List.range 4).map (fun n => s.fld (F.PB_CLASS_MAX k n)))

/-- The four conditions of R40. -/
def State.pbCommitOk (s : State) (k : Nat) : Bool :=
  let m := (s.pbStaged k).1
  let x := (s.pbStaged k).2
  decide (m.sum ≤ 90112) && (List.range 4).all (fun n => decide (m.getD n 0 ≤ x.getD n 0)) && x.all (fun v => decide (v ≤ pbCells)) &&
  decide (((List.range 4).map (fun n => max (s.pbUse k n) (m.getD n 0))).sum ≤ pbCells)

/-- Replace four entries of a list of sixteen. -/
def setFour (l : List Nat) (k : Nat) (v : List Nat) : List Nat := l.take (4 * k) ++ v ++ l.drop (4 * k + 4)

/-- Apply the staged values of slice k, or set COMMIT_ERR (R40). -/
def State.pbCommit (s : State) (k : Nat) : State :=
  if s.pbCommitOk k then
    let st := s.pbStaged k
    let s1 := { s with eth.pbMin := setFour s.eth.pbMin k st.1, eth.pbMax := setFour s.eth.pbMax k st.2 }
    let s2 := ((s1.setFld (F.PB_STATUS_COMMIT_ERR k) 0).incFld (F.PB_STATUS_GEN k)).setFld (F.PB_SHARED_SIZE k) (pbCells - st.1.sum)
    s2.setFld (F.PB_SHARED_FREE k) (s2.sharedFree k)
  else s.setFld (F.PB_STATUS_COMMIT_ERR k) 1

/-- PB_COMMIT (R40, R41): a write of PB_COMMIT.GO by an agent the block is open to. -/
def execPbCommit (agent : Agent) (slice : Nat) (s : State) : Host.Outcome State Fault Refusal := whenSlices s <|
  if decide (slice < 4) && accessOk (R.PB_COMMIT slice) true agent then .next (s.pbCommit slice) else .next s

/-! Egress (R22, R35, R61, R67 to R70, R81, R151). -/

def State.egress? (s : State) (id : Nat) : Option Egress := s.eth.egress.find? (fun e => decide (e.id = id))

def State.setEgress (s : State) (e : Egress) : State :=
  { s with eth.egress := s.eth.egress.map (fun x => if x.id = e.id then e else x) }

/-- The frames of a slice's port that wait or leave. -/
def State.portEgress (s : State) (k p : Nat) : List Egress := s.eth.egress.filter (fun e => decide (e.slice = k ∧ e.port = p))

/-- Remove an egress entry; the frame goes when its last copy has gone (R209). -/
def State.endEgress (s : State) (e : Egress) : State :=
  let s1 := { s with eth.egress := s.eth.egress.filter (fun x => decide (x.id ≠ e.id)) }.twCancel e.slice (.launch e.id)
  if s1.eth.egress.any (fun x => decide (x.frame = e.frame)) then s1
  else match s1.frame? e.frame with
    | some f => s1.eraseFrame f
    | none => s1

/-- The job of an egress entry ends. -/
def State.egressStatus (s : State) (e : Egress) (status result : Nat) (ts : Bool) : State :=
  match s.frame? e.frame with
  | some f => s.finishTx f.origin status result ts
  | none => s

/-- An egress entry is dropped: its job ends with `status`, its Catalogue entry counts it, and LAUNCH_DROP a launch-time frame, LAUNCH_TOO_FAR apart
(the PTP_TS table after R72). -/
def State.dropEgress (s : State) (e : Egress) (status : Nat) : State :=
  let s0 := if e.launch.isSome ∧ status ≠ St.LAUNCH_TOO_FAR then s.incFld (F.LAUNCH_DROP e.slice e.port) else s
  let s1 := match e.entry with
    | some h => s0.catDrop h
    | none => s0
  (s1.egressStatus e status 0 false).endEgress e

/-- Is Fabric Time LOCKED or HOLDOVER (R68)? -/
def State.timeLocked (s : State) : Bool := decide (s.ftState = 2 ∨ s.ftState = 3)

/-- Handle a late launch frame by LATE_ACTION (R69). -/
def State.lateLaunch (s : State) (e : Egress) : State :=
  let s1 := s.incFld (F.LAUNCH_LATE e.slice e.port)
  if s.on (F.TX_LAUNCH_CTRL_LATE_ACTION e.slice e.port) then s1.dropEgress e St.LAUNCH_LATE_DROPPED
  else s1.setEgress { e with late := true, released := true }

/-- Queue a frame on a port: with a launch time, the lock, distance and share tests come first (R63, R68, R69), and its requests carry the launch
instant as their deadline (R76). -/
def State.queueEgress (s : State) (e0 : Egress) : State :=
  let e := { e0 with id := s.eth.nextEgress, deadline := match e0.launch with | some v => s.monoOf v | none => e0.deadline }
  let s1 := { s with eth.nextEgress := s.eth.nextEgress + 1, eth.egress := s.eth.egress ++ [e] }
  let k := e.slice
  let p := e.port
  match e.launch with
  | none => s1
  | some v =>
    if s.on (F.TX_LAUNCH_CTRL_REQUIRE_LOCK k p) ∧ !s.timeLocked then
      s1.dropEgress e St.TIME_NOT_LOCKED
    else if s.ftNow + 2 ^ 48 < v then (s1.incFld (F.LAUNCH_FAR k p)).dropEgress e St.LAUNCH_TOO_FAR
    else if v ≤ s.ftNow then s1.lateLaunch e
    else if s.twShareFull k then (s1.incFld (F.TW_FULL k)).dropEgress e St.LAUNCH_NO_TIMER
    else s1.twInsert k true v (.launch e.id)

/-- The held or pending launch of an egress entry, whose instant a step may have overtaken. -/
def State.launchDue (s : State) (e : Egress) : Bool :=
  match e.launch with
  | some v => decide (v ≤ s.ftNow)
  | none => false

/-- The wire time of a frame of n bytes (without FCS) on a port of this mode, in units of 0.125 ns: preamble, gap and FCS are 24
bytes, and 800 Gb/s is 100 bits a unit (R22). -/
def wireUnits (mode n : Nat) : Nat := ((n + 24) * 8 * 2 ^ mode + 99) / 100

/-- Is a frame whose first bit has left the ball still leaving on a port (R69)? -/
def State.portBusy (s : State) (k p : Nat) : Bool :=
  (s.portEgress k p).any (fun x => x.begun) || s.eth.busy.any (fun b => decide (b.1 = (k, p)) && decide (s.time.mono < b.2))

/-- The port is busy with entry e from now on, for the time its bits take (R69). -/
def State.portTaken (s : State) (e : Egress) : State :=
  let gone := s.time.mono + (wireUnits (s.fld (F.ETH_PORT_MODE e.slice)) e.data.length + 4) / 5
  { s with eth.busy := ((e.slice, e.port), gone) :: s.eth.busy.filter (fun b => decide (b.1 ≠ (e.slice, e.port))) }

/-- The first bit of entry e leaves the ball now (R59, R69). -/
def State.beginEgress (s : State) (e : Egress) : State :=
  (s.portTaken e).setEgress { e with released := true, begun := true, begunAt := s.time.units }

/-- Does x leave before e of the same port: an earlier launch time, or an equal one submitted before (R70)? -/
def Egress.leadsLaunch (x e : Egress) : Bool :=
  match x.launch, e.launch with
  | some u, some v => decide (u < v) || (decide (u = v) && decide (x.id < e.id))
  | _, _ => false

/-- LAUNCH_RELEASE (R62, R67 to R70): the consumer holds the delivered entry of a launch-time frame, and its instant has come. Lock is tested again; the
frame is late when its first bit can no longer leave less than 2 ns after the launch time, when another frame is still leaving, when a late frame of an
earlier launch time waits, or when pause holds its priority. An earlier launch of the port that is not yet released comes first. -/
def execLaunchRelease (slice egress : Nat) (s : State) : Host.Outcome State Fault Refusal := whenSlices s <|
  match s.egress? egress with
  | none => .next s
  | some e =>
    let others := (s.portEgress slice e.port).filter (fun x => decide (x.id ≠ e.id) && x.leadsLaunch e && !x.begun)
    if e.slice ≠ slice ∨ e.released ∨ !s.launchDue e ∨ !(s.wheel slice).held.any (fun w => decide (w.consumer = .launch egress)) ∨
      others.any (fun x => !x.released) then .next s
    else
      let s1 := s.twCancel slice (.launch egress)
      if s.on (F.TX_LAUNCH_CTRL_REQUIRE_LOCK slice e.port) ∧ !s.timeLocked then .next (s1.dropEgress e St.TIME_NOT_LOCKED)
      else if !s.linkUp slice e.port then .next (s1.dropEgress e St.TX_LINK_DOWN)
      else
        let passed := decide ((e.launch.getD 0) * unitsPerSec + 16 * 2 ^ 48 ≤ s.time.units * 2 ^ 48)
        if passed || s.portBusy slice e.port || others.any (fun x => x.late) || s.isPaused slice e.port e.pcp then .next (s1.lateLaunch e)
        else .next (s1.beginEgress e)

/-- Does an earlier frame of entry e's flow still wait to leave (R33)? -/
def State.flowBefore (s : State) (e : Egress) : Bool :=
  e.flow.isSome && s.eth.egress.any (fun x => decide (x.id < e.id ∧ x.flow = e.flow ∧ x.frame ≠ e.frame) && !x.begun)

/-- May a frame without a launch time start (R33, R69, R70): no late frame waits on its port, nothing is leaving, no earlier frame of its flow waits, and
under GUARD_EN it would be gone by the next launch time? -/
def State.mayStart (s : State) (e : Egress) : Bool :=
  let others := (s.portEgress e.slice e.port).filter (fun x => decide (x.id ≠ e.id))
  let guard := s.on (F.TX_LAUNCH_CTRL_GUARD_EN e.slice e.port)
  let endsAt := ftValue (s.time.units + wireUnits (s.fld (F.ETH_PORT_MODE e.slice)) e.data.length)
  !s.portBusy e.slice e.port && !others.any (fun x => x.late) && !s.flowBefore e &&
  !(guard && others.any (fun x => !x.released && (match x.launch with | some v => decide (v < endsAt) | none => false)))

/-- May a late frame start: nothing is leaving, and it is the first late frame of its port in launch order (R69, R70)? -/
def State.mayStartLate (s : State) (e : Egress) : Bool :=
  let others := (s.portEgress e.slice e.port).filter (fun x => decide (x.id ≠ e.id))
  !s.portBusy e.slice e.port && !others.any (fun x => x.late && x.leadsLaunch e)

/-- Where the UDP checksum of a frame's outer header stands, if its L3 is UDP over IPv4 (true) or IPv6 (false): the header before
the PTP header. -/
def udpOf (d : List Byte) (ptp : Nat) : Option (Nat × Bool) :=
  let et := beAt d 12 2
  let l3 := if et = 0x8100 ∨ et = 0x88A8 then (if beAt d 16 2 = 0x8100 then 22 else 18) else 14
  let t := beAt d (l3 - 2) 2
  if t = 0x0800 ∧ beAt d (l3 + 9) 1 = 17 then some (ptp - 2, true)
  else if t = 0x86DD ∧ beAt d (l3 + 6) 1 = 17 then some (ptp - 2, false)
  else none

/-- The 16-bit ones' complement sum of a list of bytes, with a start value. -/
def onesSum (init : Nat) : List Byte → Nat
  | a :: b :: rest =>
    let x := onesSum init rest + 256 * a.toNat + b.toNat
    x % 65536 + x / 65536
  | [a] => let x := init + 256 * a.toNat; x % 65536 + x / 65536
  | [] => init

/-- The UDP checksum over IPv6 recomputed for a datagram whose UDP header is at u: pseudo-header, header and data (R61). -/
def udp6Checksum (d : List Byte) (u l3 : Nat) : Nat :=
  let len := beAt d (u + 4) 2
  let body := splice (slice d u len) 6 [0, 0]
  let sum := onesSum 0 (slice d (l3 + 8) 32 ++ beBytes 4 len ++ beBytes 4 17 ++ body)
  let c := 65535 - sum
  if c = 0 then 65535 else c

/-- Write originTimestamp and correctionField of a one-step frame for Fabric Time value t, and settle its UDP checksum (R61). -/
def oneStep (d : List Byte) (ptp t : Nat) : List Byte :=
  let scaled := t % 2 ^ 48 * 1000000000
  let ns := scaled / 2 ^ 48
  let sub := scaled % 2 ^ 48 * 65536 / 2 ^ 48
  let d1 := splice d (ptp + 34) (beBytes 6 (t / 2 ^ 48) ++ beBytes 4 ns)
  let d2 := splice d1 (ptp + 8) (beBytes 8 ((beAt d1 (ptp + 8) 8 + sub) % 2 ^ 64))
  match udpOf d2 ptp with
  | some (c, true) => splice d2 c [0, 0]
  | some (c, false) =>
    let u := c - 6
    let l3 := if beAt d2 12 2 = 0x86DD then 14 else if beAt d2 16 2 = 0x86DD then 18 else 22
    splice d2 c (beBytes 2 (udp6Checksum d2 u l3))
  | none => d2

/-- The transmit timestamp of a frame: the instant its first bit left the ball, plus TS_TX_ADJ; of a launch-time frame sent on time its launch
instant plus TS_TX_ADJ (R59). -/
def State.txStamp (s : State) (e : Egress) : Nat :=
  let adj := s.adjOf (F.TS_TX_ADJ e.slice e.port)
  match e.launch with
  | some v => if e.late then ftValue (((if e.begun then e.begunAt else s.time.units) : Int) + adj).toNat else ((v : Int) + adj * 2 ^ 48 / unitsPerSec).toNat
  | none => ftValue (((if e.begun then e.begunAt else s.time.units) : Int) + adj).toNat

/-- The bytes a frame leaves with. -/
def State.wireBytes (s : State) (e : Egress) : List Byte := if e.tsMode = 1 then oneStep e.data e.ptpOffset (s.txStamp e) else e.data

/-- Is a packet buffer word that an entry's frame holds poisoned (R44)? -/
def State.egressPoisoned (s : State) (e : Egress) : Bool := (s.frame? e.frame).any (fun f => f.poisoned)

/-- The frame has left: it is sent, its job ends with the bytes or the two-step timestamp (R61, R69, R151). One whose poisoned word was met after its
first bit had left ends with an inverted FCS (R38, R44). -/
def State.sendEgress (s0 : State) (e : Egress) : State :=
  let s := if e.begun then s0 else s0.portTaken e
  let s1 := s.emit (.frame e.slice e.port (s.wireBytes e) (e.badFcs || s.egressPoisoned e))
  let s2 := if e.launch.isSome then s1.incFld (F.LAUNCH_SENT e.slice e.port) else s1
  let s3 := if e.tsMode = 2 then s2.egressStatus e St.SUCCESS (ts64 (s.txStamp e)) true
    else s2.egressStatus e St.SUCCESS ((e.data.length + 4) % 2 ^ 32) false
  s3.endEgress e

/-- FRAME_TRANSMITTED (R22, R59, R61, R69, R70, R81, R151): a frame leaves its port, or is dropped when the link is down. A frame that may not start now
(its launch instant has not come, its priority is paused, a late frame or a guard is before it) stays; a cut-through frame that is
still arriving begins, and leaves when it is whole (R35). -/
def execFrameTransmitted (egress : Nat) (s : State) : Host.Outcome State Fault Refusal := whenSlices s <|
  match s.egress? egress with
  | none => .next s
  | some e =>
    let whole := match s.frame? e.frame with
      | some f => f.whole
      | none => true
    if e.begun then (if whole then .next (s.sendEgress e) else .next s)
    else if s.egressPoisoned e then .next (s.dropEgress e St.SRAM_UNCORRECTABLE)
    else if !s.linkUp e.slice e.port then .next (s.dropEgress e St.TX_LINK_DOWN)
    else if s.isPaused e.slice e.port e.pcp then .next s
    else if e.late then (if s.mayStartLate e then .next (s.sendEgress e) else .next s)
    else if e.launch.isSome then .next s
    else if !s.mayStart e then .next s
    else if whole then .next (s.sendEgress e) else .next (s.beginEgress e)

/-- ETH_LINK_DOWN (R22): the loss is counted, and every frame that was to leave on the port and has not begun is dropped. -/
def execEthLinkDown (slice port : Nat) (s : State) : Host.Outcome State Fault Refusal := whenSlices s <|
  if !s.linkUp slice port then .next s
  else
    let s1 := (s.setFld ⟨R.ETH_LINK_STATUS slice, port, 1⟩ 0).satFld (F.ETH_LINK_DOWN slice port) 1
    .next (((s1.portEgress slice port).filter (fun e => !e.begun)).foldl (fun t e => t.dropEgress e St.TX_LINK_DOWN) s1)

/-! Transmit and receive descriptors (R151, R152). -/

/-- The egress entry that a TX_FRAME descriptor asks for (R151), on its port. -/
def txEgress (s : State) (j : RJob) (k p frame : Nat) (data : List Byte) : Egress :=
  let w := j.dw 3
  let ts := bitsOf w 7 6
  { id := 0, frame := frame, slice := k, port := p, data := data, job := some j.id,
    launch := if bitOf w 5 then some (completeTs s.ftNow (j.dw 2)) else none,
    tsMode := if ts = 3 then 0 else ts, ptpOffset := bitsOf w 25 16, pcp := bitsOf w 10 8,
    cls := s.fld (F.SR_CFG_CLASS j.slice j.ring), deadline := s.deadlineOf (s.fld (F.SR_CFG_CLASS j.slice j.ring)) j.begun }

/-- The frame of a TX_FRAME job, with its bytes. -/
def txFrame (s : State) (j : RJob) (data : List Byte) (handle : Option Nat) : Frame :=
  { id := s.eth.nextFrame, origin := .tx j.slice j.ring j.id, slice := j.slice, stage := if handle.isSome then .handled else .egress,
    data := data, arrived := data.length, whole := true, begun := j.begun, handle := handle,
    dlClass := s.fld (F.SR_CFG_CLASS j.slice j.ring) }

/-- TX_FRAME (R21, R61, R68, R151): the ring's oldest such job gathers its frame and queues it on its port, after its Catalogue lookup
when HANDLE_VALID is set, or completes with the check that failed. -/
def execTxFrame (slice ring : Nat) (s : State) : Host.Outcome State Fault Refusal := whenSlices s <|
  match s.jobFor slice ring 0x01 with
  | none => .next s
  | some j =>
    let w := j.dw 3
    let len := j.total
    if len < 14 ∨ 9724 < len then .next (s.finish j St.TX_FRAME_TOO_LONG 0 false)
    else match s.portAt (bitsOf w 4 0) with
      | none => .next (s.finish j St.TX_PORT_INVALID 0 false)
      | some (k, p) =>
        if bitsOf w 7 6 = 1 ∧ len < bitsOf w 25 16 + 44 then .next (s.finish j St.TX_PTP_OFFSET_INVALID 0 false)
        else match s.dmaGather slice (s.srInst slice ring) (s.jobOp 0 j) j.bufs with
          | (s1, .wait) => .next s1
          | (s1, .fail st) => .next (s1.finish j st 0 false)
          | (s1, .ok data) =>
            let h := if bitOf w 53 then some (bitsOf w 52 32) else none
            let f := txFrame s1 j data h
            let s2 := ({ s1 with eth.nextFrame := s1.eth.nextFrame + 1 }.setFrame f).setJob { j with taken := true }
            .next (if h.isSome then s2 else (s2.spineCross slice k).queueEgress (txEgress s2 j k p f.id data))

/-- RX_POST (R152): the ring's oldest such job posts its buffer, which must be at least 64 bytes. -/
def execRxPost (slice ring : Nat) (s : State) : Host.Outcome State Fault Refusal := whenSlices s <|
  match s.jobFor slice ring 0x02 with
  | none => .next s
  | some j =>
    let s1 := s.setJob { j with taken := true }
    let x := s1.srx slice ring
    .next (s1.setSrx slice ring { x with posted := x.posted ++ [j.id] })

/-- The receive timestamp shows when the final class is 0x03 or 0x16, or under RX_TS_ALL (R167). -/
def State.tsValid (s : State) (k p cls : Nat) : Bool := decide (cls = 0x03 ∨ cls = 0x16) || s.on (F.TX_LAUNCH_CTRL_RX_TS_ALL k p)

/-- The receive timestamp a frame carries on, or zero (R60, R167). -/
def State.rxStamp (s : State) (f : Frame) : Nat :=
  match f.origin with
  | .eth k p => if s.tsValid k p f.vec.cls then f.rxTs else 0
  | _ => 0

/-- The oldest posted buffer of ring q whose job has this opcode, and the list without it. -/
def State.takePosted (s : State) (k q op : Nat) : Option (RJob × List Nat) :=
  let isOp := fun id => match s.jobById k q id with | some j => decide (j.head.opcode = op) | none => false
  match takeFirst isOp (s.srx k q).posted with
  | none => none
  | some (id, rest) => (s.jobById k q id).map (fun j => (j, rest))

/-- Does frame f carry a receive timestamp (R167)? -/
def State.hasStamp (s : State) (f : Frame) : Bool :=
  match f.origin with
  | .eth k p => s.tsValid k p f.vec.cls
  | _ => false

/-- May the posted buffers of ring q of slice k still be filled: its started jobs run to their ends while it is STOPPING or in ERROR (R148, R149)? -/
def State.srFills (s : State) (k q : Nat) : Bool := decide (s.srState k q = stActive ∨ s.srState k q = stStopping ∨ s.srState k q = stError)

/-- Write a frame into the next posted buffer of ring q of slice k (R152). A frame without a buffer, or too long for it, is dropped
and counted, and the buffer stays posted; a poisoned one ends its buffer's job (R44). -/
def State.deliverRing (s : State) (k q : Nat) (f : Frame) : State :=
  let i := s.srInst k q
  match s.takePosted k q 0x02 with
  | none => (s.incFld (F.SR_RX_DROP k q)).dropFrame f 0
  | some (j, rest) =>
    let stamp := s.on (F.SR_CFG_RX_TS k q)
    let img := if stamp then leBytes 8 (s.rxStamp f) ++ f.data else f.data
    if j.total < img.length ∨ !s.srFills k q then (s.incFld (F.SR_RX_DROP k q)).dropFrame f 0
    else if f.poisoned then
      ((s.setSrx k q { s.srx k q with posted := rest }).finish j St.SRAM_UNCORRECTABLE 0 false).dropFrame f 0
    else match s.dmaScatter k i (s.classOp 6 f.dlClass f.begun) j.bufs img with
      | (s1, .ok _) =>
        let h := f.looked.map (fun r => r.handle)
        let result := f.data.length % 2 ^ 14 + 2 ^ 14 * h.getD 0 + 2 ^ 35 * b2n h.isSome
        let s2 := s1.setSrx k q { s1.srx k q with posted := rest }
        (s2.finish j St.SUCCESS result (stamp && s.hasStamp f)).eraseFrame f
      | (s1, .fail _) => s1.dropFrame f 0
      | (s1, .wait) => s1.setFrame { f with stage := .steered }

end Sys2Proof.Machine
end

