-- ==== Sys2Proof/Machine/Parse.lean ====
section
/-!
DEFINITION. Parsing and its microcode (chapter 06: R154 to R172). A parse instruction's command names a context; the word it executes is
the one at the context's PC in the bank the context runs, and the command acts when that word carries its OP.
-/

namespace Sys2Proof.Machine

/-! Contexts and the program store (R156, R159, R160). -/

def ctxKey (k e x : Nat) : Nat := 128 * k + 4 * e + x

def State.ctx? (s : State) (key : Nat) : Option ParseCtx := Map.find? s.eth.ctxs key

def State.setCtx (s : State) (key : Nat) (c : ParseCtx) : State := { s with eth.ctxs := Map.insert s.eth.ctxs key c }

/-- A word of a program bank; one that no write has reached is zero (R159). -/
def State.progWord (s : State) (k bank a : Nat) : Nat := Map.get (fun _ => 0) s.eth.prog (4096 * k + 2048 * bank + a)

/-- The lowest-numbered free context of slice k: lowest engine, then lowest context (R154). -/
def State.freeCtx (s : State) (k : Nat) : Option Nat := (List.range 128).find? (fun i => (s.ctx? (128 * k + i)).isNone)

/-- PARSE_DISPATCH (R154 to R156, R160): the slice's oldest queued frame enters its lowest-numbered free context. -/
def execParseDispatch (slice : Nat) (s : State) : Host.Outcome State Fault Refusal := whenSlices s <|
  if !s.awake slice then .next s else
  match s.eth.queues.getD slice [], s.freeCtx slice with
  | id :: rest, some i =>
    match s.frame? id with
    | none => .next s
    | some f =>
      let c : ParseCtx := { frame := id, bank := s.fld (F.PARSE_BANK_ACTIVE slice), window := f.data.take 256,
                            port := (match f.origin with | .eth _ p => p | _ => 0), inWindow := min 256 f.data.length, len := if f.whole then f.data.length else 0,
                            vec := { lenKnown := f.whole } }
      .next (({ s with eth.queues := s.eth.queues.set slice rest }.setFrame { f with stage := .parsing }).setCtx (128 * slice + i) c
        |>.showQueue slice)
  | _, _ => .next s

/-! The instruction word (R161). -/

/-- The bits that the encoding of each OP names, OP itself included. -/
def opNamed (op : Nat) : Nat :=
  0xF8000000 + (match op with
  | 0x01 => 0x07F000FF | 0x02 => 0x07F000FF | 0x03 => 0x07F000FF
  | 0x04 => 0x0700000F
  | 0x05 => 0x0700FFFF
  | 0x06 => 0x07E0FFFF | 0x07 => 0x07E0FFFF
  | 0x08 => 0x07F0001F
  | 0x09 => 0x07FC0000
  | 0x0A => 0x00E0FFFF
  | 0x0B => 0x00FC0000
  | 0x0C => 0x00FF00FF
  | 0x0D => 0x070007FF
  | 0x0E => 0x00FF07FF
  | 0x0F => 0x000007FF
  | 0x11 => 0x00F8007F
  | 0x12 => 0x07FF80FF
  | 0x13 => 0x0700FF00
  | 0x14 => 0x00E00000
  | 0x15 => 0x0000002F
  | 0x16 => 0x000003FF
  | _ => 0)

def opOf (w : Nat) : Nat := bitsOf w 31 27

/-- What one instruction does to its context. -/
inductive PRes where
  /-- the program goes on at the PC given -/
  | go (c : ParseCtx) (pc : Nat)
  /-- the program ends by CLS or MAL -/
  | done (c : ParseCtx)
  /-- window overrun (R155) -/
  | overrun (c : ParseCtx)
  /-- PROGRAM_FAULT with a reason of R163 -/
  | fault (c : ParseCtx) (reason : Nat)
  deriving DecidableEq, Repr

def ParseCtx.reg (c : ParseCtx) (i : Nat) : Nat := c.g.getD i 0
def ParseCtx.setReg (c : ParseCtx) (i v : Nat) : ParseCtx := { c with g := c.g.set i (v % 2 ^ 32) }

/-- n window bytes at a, and whether any lies at or beyond the frame's end (R155). -/
def ParseCtx.window? (c : ParseCtx) (a n : Nat) : Option (List Byte × Bool) :=
  if 256 < a + n then none else some (slice c.window a n, decide (c.inWindow < a + n))

/-- Continue with the next word. -/
def ParseCtx.next (c : ParseCtx) : PRes := .go c (c.pc + 1)

/-- The load address of R162. -/
def ParseCtx.loadAddr (c : ParseCtx) (w : Nat) : Nat :=
  c.cur + bitsOf w 7 0 + (if bitOf w 20 then c.reg (bitsOf w 23 21) % 256 else 0)

/-- LDB, LDH and LDW (R161, R162). -/
def ParseCtx.load (c : ParseCtx) (w n : Nat) : PRes :=
  match c.window? (c.loadAddr w) n with
  | none => .overrun c
  | some (b, t) => ({ c with t := c.t || t }.setReg (bitsOf w 26 24) (beNat b)).next

/-- Write a sum with its Z and C flags (R162). -/
def ParseCtx.sum (c : ParseCtx) (w x : Nat) : PRes :=
  ({ c with z := decide (x % 2 ^ 32 = 0), c := decide (2 ^ 32 ≤ x) }.setReg (bitsOf w 26 24) x).next

/-- A comparison's flags (R161). -/
def ParseCtx.compare (c : ParseCtx) (a b : Nat) : PRes := { c with z := decide (a = b), c := decide (a < b) }.next

/-- LDP's parameter (R164). -/
def State.parseParam (s : State) (k port : Nat) (c : ParseCtx) (i : Nat) : Nat :=
  if i < 14 then s.fld (F.PARSE_PARAM k i) else if i = 14 then c.len else port

/-- Does BR's condition hold (R162)? COND 7 is handled before. -/
def ParseCtx.cond (c : ParseCtx) (n : Nat) : Bool :=
  match n with
  | 0 => true
  | 1 => c.z
  | 2 => !c.z
  | 3 => c.c
  | 4 => !c.c
  | 5 => c.t
  | _ => !c.t

/-- Vector bytes 40 to 127 are the program's (R162). -/
def vecOk (off n : Nat) : Bool := decide (40 ≤ off ∧ off + n ≤ 128)

def ParseCtx.putVec (c : ParseCtx) (off : Nat) (bs : List Byte) : ParseCtx :=
  { c with vec := { c.vec with area := splice c.vec.area (off - 40) bs } }

/-- Raise a malformed class: the lowest number raised stands (R170). -/
def raiseMal (old m : Nat) : Nat := if old = 0 then m else min old m

/-- Latch a PROGRAM_FAULT and end the program (R163, R170). -/
def State.parseFault (s : State) (k e x : Nat) (c : ParseCtx) (reason pc : Nat) : State :=
  let s1 := ((s.setFld (F.PARSE_FAULT_INFO_PC k) pc).setFld (F.PARSE_FAULT_INFO_REASON k) reason).setFld (F.PARSE_FAULT_INFO_ENGINE k) e
  let s2 := (s1.setFld (F.PARSE_FAULT_INFO_CONTEXT k) x).raise (F.PARSE_INT_STATUS_PROGRAM_FAULT_SEEN k) (R.PARSE_INT_ENABLE k)
  s2.setCtx (ctxKey k e x) { c with ended := true, mal := raiseMal c.mal 12 }

/-- Put an instruction's result into its context. -/
def State.parseSettle (s : State) (k e x pc : Nat) (r : PRes) : State :=
  match r with
  | .go c n => if 2047 < n then s.parseFault k e x c 5 2047 else s.setCtx (ctxKey k e x) { c with pc := n }
  | .done c => s.setCtx (ctxKey k e x) { c with ended := true }
  | .overrun c => s.setCtx (ctxKey k e x) { c with ended := true, mal := raiseMal c.mal 11 }
  | .fault c reason => s.parseFault k e x c reason pc

/-- PARSE_STEP_LIMIT in force: values below 0x10 act as 0x10. -/
def State.stepLimit (s : State) (k : Nat) : Nat := max 0x10 (s.fld (F.PARSE_STEP_LIMIT k))

/-- The context after its word has counted its step and slots (R162, R163). -/
def ParseCtx.counted (c : ParseCtx) (w : Nat) : ParseCtx :=
  { c with steps := c.steps + 1, slots := c.slots + (if opOf w = 0x14 then 2 else 1) }

/-- The result of the word w, whose effect is f: a reserved OP or a stray bit is PROGRAM_FAULT 1 (R163). -/
def parseRun (c : ParseCtx) (w : Nat) (f : ParseCtx → Nat → PRes) : PRes :=
  if 0x16 < opOf w ∨ w &&& opNamed (opOf w) ≠ w then .fault c 1 else f c w

/-- Issue the word at the PC of a context: when it carries OP `op` (or a reserved OP), `f` is its effect. Nothing issues in a context
that has ended or has used its steps (R156, R161 to R163). -/
def State.issue (s : State) (k e x op : Nat) (f : ParseCtx → Nat → PRes) : State :=
  if 4 ≤ k ∨ 32 ≤ e ∨ 4 ≤ x then s
  else match s.ctx? (ctxKey k e x) with
    | none => s
    | some c =>
      let w := s.progWord k c.bank c.pc
      if c.ended ∨ s.stepLimit k ≤ c.steps ∨ (opOf w ≠ op ∧ opOf w ≤ 0x16) then s
      else s.parseSettle k e x c.pc (parseRun (c.counted w) w f)

/-! The instructions (R161, R162). -/

/-- PARSE_NOP. -/
def execParseNop (slice engine context : Nat) (s : State) : Host.Outcome State Fault Refusal := whenSlices s <|
  .next (s.issue slice engine context 0x00 (fun c _ => c.next))

/-- LDB: one window byte. -/
def execLdb (slice engine context : Nat) (s : State) : Host.Outcome State Fault Refusal := whenSlices s <|
  .next (s.issue slice engine context 0x01 (fun c w => c.load w 1))

/-- LDH: two window bytes, the first the most significant. -/
def execLdh (slice engine context : Nat) (s : State) : Host.Outcome State Fault Refusal := whenSlices s <|
  .next (s.issue slice engine context 0x02 (fun c w => c.load w 2))

/-- LDW: four window bytes. -/
def execLdw (slice engine context : Nat) (s : State) : Host.Outcome State Fault Refusal := whenSlices s <|
  .next (s.issue slice engine context 0x03 (fun c w => c.load w 4))

/-- LDP: a parameter, the frame length or the port position (R164). -/
def execLdp (slice engine context : Nat) (s : State) : Host.Outcome State Fault Refusal := whenSlices s <|
  .next (s.issue slice engine context 0x04 (fun c w =>
    (c.setReg (bitsOf w 26 24) (s.parseParam slice c.port c (bitsOf w 3 0))).next))

/-- MOVI. -/
def execMovi (slice engine context : Nat) (s : State) : Host.Outcome State Fault Refusal := whenSlices s <|
  .next (s.issue slice engine context 0x05 (fun c w => (c.setReg (bitsOf w 26 24) (bitsOf w 15 0)).next))

/-- ADDI: Z and C of the 32-bit sum. -/
def execAddi (slice engine context : Nat) (s : State) : Host.Outcome State Fault Refusal := whenSlices s <|
  .next (s.issue slice engine context 0x06 (fun c w => c.sum w (c.reg (bitsOf w 23 21) + bitsOf w 15 0)))

/-- ANDI: Z; C is cleared. -/
def execAndi (slice engine context : Nat) (s : State) : Host.Outcome State Fault Refusal := whenSlices s <|
  .next (s.issue slice engine context 0x07 (fun c w => c.sum w (c.reg (bitsOf w 23 21) &&& bitsOf w 15 0)))

/-- SHI: a shift left or right by SH; no flag. -/
def execShi (slice engine context : Nat) (s : State) : Host.Outcome State Fault Refusal := whenSlices s <|
  .next (s.issue slice engine context 0x08 (fun c w =>
    let v := c.reg (bitsOf w 23 21)
    let n := bitsOf w 4 0
    (c.setReg (bitsOf w 26 24) (if bitOf w 20 then v * 2 ^ n else v / 2 ^ n)).next))

/-- ADD. -/
def execAdd (slice engine context : Nat) (s : State) : Host.Outcome State Fault Refusal := whenSlices s <|
  .next (s.issue slice engine context 0x09 (fun c w => c.sum w (c.reg (bitsOf w 23 21) + c.reg (bitsOf w 20 18))))

/-- CMPI. -/
def execCmpi (slice engine context : Nat) (s : State) : Host.Outcome State Fault Refusal := whenSlices s <|
  .next (s.issue slice engine context 0x0A (fun c w => c.compare (c.reg (bitsOf w 23 21)) (bitsOf w 15 0)))

/-- CMP. -/
def execCmp (slice engine context : Nat) (s : State) : Host.Outcome State Fault Refusal := whenSlices s <|
  .next (s.issue slice engine context 0x0B (fun c w => c.compare (c.reg (bitsOf w 23 21)) (c.reg (bitsOf w 20 18))))

/-- ADV: the cursor moves on; beyond byte 255 it is a window overrun (R162). -/
def execAdv (slice engine context : Nat) (s : State) : Host.Outcome State Fault Refusal := whenSlices s <|
  .next (s.issue slice engine context 0x0C (fun c w =>
    let n := c.cur + (if bitOf w 20 then c.reg (bitsOf w 23 21) * 2 ^ bitsOf w 19 16 else 0) + bitsOf w 7 0
    if 255 < n then .overrun c else { c with cur := n }.next))

/-- BR: COND 7 is PROGRAM_FAULT 1 (R162, R163). -/
def execBr (slice engine context : Nat) (s : State) : Host.Outcome State Fault Refusal := whenSlices s <|
  .next (s.issue slice engine context 0x0D (fun c w =>
    if bitsOf w 26 24 = 7 then .fault c 1
    else if c.cond (bitsOf w 26 24) then .go c (bitsOf w 10 0) else c.next))

/-- JTAB: CNT is the table's last index (R162). -/
def execJtab (slice engine context : Nat) (s : State) : Host.Outcome State Fault Refusal := whenSlices s <|
  .next (s.issue slice engine context 0x0E (fun c w =>
    let v := c.reg (bitsOf w 23 21)
    if v ≤ bitsOf w 20 16 then .go c (bitsOf w 10 0 + v) else c.next))

/-- CALL: a fifth nested call is PROGRAM_FAULT 4 (R162, R163). -/
def execCall (slice engine context : Nat) (s : State) : Host.Outcome State Fault Refusal := whenSlices s <|
  .next (s.issue slice engine context 0x0F (fun c w =>
    if 4 ≤ c.stack.length then .fault c 4 else .go { c with stack := (c.pc + 1) :: c.stack } (bitsOf w 10 0)))

/-- RET: with an empty stack it is PROGRAM_FAULT 4 (R162, R163). -/
def execRet (slice engine context : Nat) (s : State) : Host.Outcome State Fault Refusal := whenSlices s <|
  .next (s.issue slice engine context 0x10 (fun c _ =>
    match c.stack with
    | [] => .fault c 4
    | a :: rest => .go { c with stack := rest } a))

/-- STV: the low 1, 2 or 4 bytes of a register, little-endian, within vector bytes 40 to 127 (R162, R163). -/
def execStv (slice engine context : Nat) (s : State) : Host.Outcome State Fault Refusal := whenSlices s <|
  .next (s.issue slice engine context 0x11 (fun c w =>
    let n := 2 ^ bitsOf w 20 19
    if bitsOf w 20 19 = 3 then .fault c 1
    else if !vecOk (bitsOf w 6 0) n then .fault c 3
    else (c.putVec (bitsOf w 6 0) (leBytes n (c.reg (bitsOf w 23 21)))).next))

/-- CPYV: LEN + 1 window bytes in wire order; the vector range is checked before the window (R162, R163). -/
def execCpyv (slice engine context : Nat) (s : State) : Host.Outcome State Fault Refusal := whenSlices s <|
  .next (s.issue slice engine context 0x12 (fun c w =>
    let n := bitsOf w 26 22 + 1
    if !vecOk (bitsOf w 21 15) n then .fault c 3
    else match c.window? (c.cur + bitsOf w 7 0) n with
      | none => .overrun c
      | some (b, t) => ({ c with t := c.t || t }.putVec (bitsOf w 21 15) b).next))

/-- SETL: the layer begins at the cursor. -/
def execSetl (slice engine context : Nat) (s : State) : Host.Outcome State Fault Refusal := whenSlices s <|
  .next (s.issue slice engine context 0x13 (fun c w =>
    let l := bitsOf w 26 24
    { c with vec := { c.vec with layerOff := c.vec.layerOff.set l c.cur, layerProto := c.vec.layerProto.set l (bitsOf w 15 8) } }.next))

/-- CSUM: Z tells whether the ones' complement sum of the GS bytes from CUR is 0xFFFF; GS must be even, 2 to 60 (R162, R163). -/
def execCsum (slice engine context : Nat) (s : State) : Host.Outcome State Fault Refusal := whenSlices s <|
  .next (s.issue slice engine context 0x14 (fun c w =>
    let n := c.reg (bitsOf w 23 21)
    if n = 0 ∨ n % 2 = 1 ∨ 60 < n then .fault c 6
    else match c.window? c.cur n with
      | none => .overrun c
      | some (b, t) => { c with t := c.t || t, z := decide (onesSum 0 b = 0xFFFF) }.next))

/-- MAL: MCLASS 0 or above 12 is PROGRAM_FAULT 1 (R163). -/
def execMal (slice engine context : Nat) (s : State) : Host.Outcome State Fault Refusal := whenSlices s <|
  .next (s.issue slice engine context 0x15 (fun c w =>
    let m := bitsOf w 3 0
    if m = 0 ∨ 12 < m then .fault c 1
    else
      let c1 := { c with mal := raiseMal c.mal m }
      if bitOf w 5 then .done c1 else c1.next))

/-- CLS. -/
def execCls (slice engine context : Nat) (s : State) : Host.Outcome State Fault Refusal := whenSlices s <|
  .next (s.issue slice engine context 0x16 (fun c w =>
    let c1 := if bitOf w 9 then c else { c with vec := { c.vec with cls := bitsOf w 7 0 } }
    if bitOf w 8 then .done c1 else c1.next))

/-- PARSE_STEP_LIMIT (R163): the limit's steps have executed without an end: PROGRAM_FAULT 2, at the PC that would run next. -/
def execParseStepLimit (slice engine context : Nat) (s : State) : Host.Outcome State Fault Refusal := whenSlices s <|
  match s.ctx? (ctxKey slice engine context) with
  | some c =>
    if slice < 4 ∧ engine < 32 ∧ context < 4 ∧ ¬ c.ended ∧ s.stepLimit slice ≤ c.steps then
      .next (s.parseFault slice engine context c 2 c.pc)
    else .next s
  | none => .next s

/-! The program's end and the header vector (R157, R165 to R167, R170 to R172). -/

/-- The lowest malformed class of a list and an earlier one; 0 for none. -/
def lowestMal (m : Nat) (l : List Nat) : Nat := l.foldl raiseMal m

/-- The 128 bytes of the header vector (R165). -/
def State.vector (s : State) (f : Frame) : List Byte :=
  let kp := match f.origin with | .eth k p => (k, p) | _ => (f.slice, 0)
  let v := f.vec
  let w0 := v.cls + 2 ^ 8 * f.mal + 2 ^ 12 * b2n (s.tsValid kp.1 kp.2 v.cls) + 2 ^ 13 * b2n v.trunc + 2 ^ 14 * b2n v.lenKnown +
    2 ^ 16 * s.portNumber kp.1 kp.2 + 2 ^ 24 * (if v.lenKnown then f.data.length else 0) + 2 ^ 40 * (v.steps % 256)
  leBytes 8 w0 ++ leBytes 8 f.rxTs ++ v.layerOff.map (BitVec.ofNat 8) ++ v.layerProto.map (BitVec.ofNat 8) ++ leBytes 4 v.flowHash ++
    leBytes 4 0 ++ v.area

/-- Is the frame first of its ingress port among those that have not left the parse stage (R157)? -/
def State.firstOfPort (s : State) (f : Frame) : Bool :=
  !s.eth.frames.any (fun e => decide (e.2.id < f.id ∧ e.2.origin = f.origin) &&
    (match e.2.stage with | .arriving | .queued | .parsing | .parsed => true | _ => false))

/-- Give a frame the exception handle, or drop it when there is none (R171). -/
def State.exceptionFrame (s : State) (f : Frame) (stage : FStage) : State :=
  let k := match f.origin with | .eth k _ => k | _ => f.slice
  if s.on (F.PARSE_EXC_HANDLE_VALID k) then
    s.setFrame { f with handle := some (s.fld (F.PARSE_EXC_HANDLE_HANDLE k)), exception := true, stage := stage, looked := none, fed := none,
                        floodTo := none }
  else (s.incFld (F.PARSE_EXC_DROP k)).dropFrame f 0

/-- Apply MAL_ACTION of class m to a frame (R171): drop, pass at `stage`, or exception. -/
def State.malAction (s : State) (f : Frame) (m : Nat) (stage : FStage) : State :=
  let k := match f.origin with | .eth k _ => k | _ => f.slice
  if m = 0 then s.setFrame { f with stage := stage }
  else match s.fld (F.MAL_ACTION k m) with
    | 1 => s.setFrame { f with stage := stage }
    | 2 => s.exceptionFrame f stage
    | _ => s.dropFrame f 0

/-- PARSE_PROGRAM_END (R156, R157, R165 to R171): the context is freed, FLOW_HASH is computed, the lowest malformed class raised stands and
its action is applied; the frame waits for its turn to leave. -/
def execParseProgramEnd (slice engine context : Nat) (s : State) : Host.Outcome State Fault Refusal := whenSlices s <|
  let key := ctxKey slice engine context
  match s.ctx? key with
  | none => .next s
  | some c =>
    if ¬ c.ended ∨ 4 ≤ slice ∨ 32 ≤ engine ∨ 4 ≤ context then .next s
    else
      let s1 := { s with eth.ctxs := Map.erase s.eth.ctxs key }
      let s2 := (s1.incFld (F.PARSE_FRAMES slice)).addFld (F.PARSE_SLOTS slice) c.slots
      match s2.frame? c.frame with
      | none => .next s2
      | some f =>
        let m := lowestMal c.mal (if f.whole then f.macMal else [])
        let v := { c.vec with flowHash := crc32c (c.vec.area.take 40), steps := c.steps, trunc := c.t }
        let f1 := { f with vec := v, mal := m, badFcs := f.whole && f.macMal.contains 2 }
        let s3 := if m = 0 then s2 else s2.incFld (F.MAL_COUNT slice m)
        .next (s3.malAction f1 m .parsed)

/-- PARSE_BANK_SWITCH (R159): a Keeper write of 1 to SWITCH makes the inactive bank active, and DRAINING reads 1 until the frames of the
old bank have ended; while DRAINING reads 1 it is ignored. -/
def execParseBankSwitch (agent : Agent) (slice : Nat) (s : State) : Host.Outcome State Fault Refusal := whenSlices s <|
  if 4 ≤ slice ∨ agent ≠ .keeper ∨ s.on (F.PARSE_BANK_DRAINING slice) then .next s
  else
    let old := s.fld (F.PARSE_BANK_ACTIVE slice)
    let busy := s.eth.ctxs.any (fun e => decide (e.1 / 128 = slice ∧ e.2.bank = old))
    .next ((s.setFld (F.PARSE_BANK_ACTIVE slice) (1 - old)).setFld (F.PARSE_BANK_DRAINING slice) (b2n busy))

/-- PARSE_BANK_DRAINED (R159): the last frame of the old bank has ended. -/
def execParseBankDrained (slice : Nat) (s : State) : Host.Outcome State Fault Refusal := whenSlices s <|
  let act := s.fld (F.PARSE_BANK_ACTIVE slice)
  if 4 ≤ slice ∨ s.eth.ctxs.any (fun e => decide (e.1 / 128 = slice) && decide (e.2.bank ≠ act)) then .next s
  else .next (s.setFld (F.PARSE_BANK_DRAINING slice) 0)

end Sys2Proof.Machine
end

