-- ==== Sys2Proof/Machine/Addr.lean ====
section
/-!
DEFINITION. The Address Table, learning, provenance messages, ageing (chapter 07: R196 to R208, R593).
-/

namespace Sys2Proof.Machine

/-! Entries and messages as bits (R196, R204). -/

def AddrEntry.toNat (e : AddrEntry) : Nat :=
  e.mac + 2 ^ 48 * e.bd + 2 ^ 64 * e.handle + 2 ^ 85 * e.port + 2 ^ 90 + 2 ^ 91 * b2n e.isStatic + 2 ^ 92 * b2n e.remote +
  2 ^ 93 * e.origin + 2 ^ 99 * e.originSlice + 2 ^ 128 * e.stamp + 2 ^ 192 * e.lastSeen + 2 ^ 224 * e.announced

def addrEntryOf (x : Nat) : AddrEntry :=
  { mac := bitsOf x 47 0, bd := bitsOf x 63 48, handle := bitsOf x 84 64, port := bitsOf x 89 85, isStatic := bitOf x 91,
    remote := bitOf x 92, origin := bitsOf x 98 93, originSlice := bitsOf x 100 99, stamp := bitsOf x 191 128,
    lastSeen := bitsOf x 223 192, announced := bitsOf x 255 224 }

def ProvMsg.bytes (m : ProvMsg) : List Byte :=
  leBytes 32 (m.typ + 16 * b2n m.mayIgnore + 2 ^ 8 * m.origin + 2 ^ 14 * m.originSlice + 2 ^ 16 * m.bd + 2 ^ 32 * m.mac +
    2 ^ 80 * m.handle + 2 ^ 101 * m.port + 2 ^ 128 * m.stamp)

def provMsgOf (b : List Byte) : ProvMsg :=
  let x := leAt b 0 32
  { typ := bitsOf x 3 0, mayIgnore := bitOf x 4, origin := bitsOf x 13 8, originSlice := bitsOf x 15 14, bd := bitsOf x 31 16,
    mac := bitsOf x 79 32, handle := bitsOf x 100 80, port := bitsOf x 105 101, stamp := bitsOf x 191 128 }

/-! Slots (R197). -/

/-- H: the CRC-32C of the key (R197). -/
def addrHash (bd mac : Nat) : Nat := crc32c (leBytes 2 bd ++ leBytes 6 mac)

/-- The candidate slots of a key, in their order: 2 × bucket + slot (R197). -/
def candidates (bd mac : Nat) : List Nat :=
  let h := addrHash bd mac
  let b1 := bitsOf h 16 0
  let b2 := bitsOf h 31 15
  if b1 = b2 then [2 * b1, 2 * b1 + 1] else [2 * b1, 2 * b1 + 1, 2 * b2, 2 * b2 + 1]

def slotKey (k n : Nat) : Nat := 262144 * k + n

def State.slot? (s : State) (k n : Nat) : Option AddrEntry := Map.find? s.addr.slots (slotKey k n)

/-- The slot that holds a key, if one does. -/
def State.findKey (s : State) (k bd mac : Nat) : Option (Nat × AddrEntry) :=
  (candidates bd mac).findSome? (fun n => match s.slot? k n with
    | some e => if e.bd = bd ∧ e.mac = mac then some (n, e) else none
    | none => none)

/-- The first free candidate slot of a key (R197). -/
def State.freeSlot (s : State) (k bd mac : Nat) : Option Nat := (candidates bd mac).find? (fun n => (s.slot? k n).isNone)

/-- Is the entry local: learned in this slice of this device (R202)? -/
def State.isLocal (s : State) (k : Nat) (e : AddrEntry) : Bool :=
  decide (e.origin = s.fedId ∧ e.originSlice = k) && !e.isStatic && !e.remote

/-- The port position in slice k of a device port (R21), when it is one of the slice's. -/
def State.portPos (s : State) (k n : Nat) : Option Nat :=
  match s.portAt n with
  | some (k', p) => if k' = k then some p else none
  | none => none

/-- Change PORT_LEARN_COUNT of an entry's port by +1 or −1 where the entry is local (R202). -/
def State.countLearn (s : State) (k : Nat) (e : AddrEntry) (up : Bool) : State :=
  if !s.isLocal k e then s
  else match s.portPos k e.port with
    | some p => if up then s.addFld (F.PORT_LEARN_COUNT k p) 1 else s.subFld (F.PORT_LEARN_COUNT k p) 1
    | none => s

/-- Show the number of valid entries of slice k. -/
def State.showAddr (s : State) (k : Nat) : State :=
  s.setFld (F.ADDR_ENTRIES k) (Map.countIf (fun n _ => decide (n / 262144 = k)) s.addr.slots)

/-- Put an entry in a slot, with the counts of the old and the new one. -/
def State.putSlot (s : State) (k n : Nat) (e : AddrEntry) : State :=
  let s1 := match s.slot? k n with
    | some old => s.countLearn k old false
    | none => s
  ({ s1 with addr.slots := Map.insert s1.addr.slots (slotKey k n) e }.countLearn k e true).showAddr k

/-- Empty a slot. -/
def State.clearSlot (s : State) (k n : Nat) : State :=
  match s.slot? k n with
  | some old => ({ s.countLearn k old false with addr.slots := Map.erase s.addr.slots (slotKey k n) }).showAddr k
  | none => s

/-- The low 32 bits of the Fabric Time seconds (R196). -/
def State.sec32 (s : State) : Nat := s.ftSec % 2 ^ 32

/-- ADDR_AGE_TIME; values above 32,767 act as 32,767 (R208). -/
def State.ageTime (s : State) (k : Nat) : Nat := min 32767 (s.fld (F.ADDR_AGE_TIME k))

/-- Put a provenance message in the slice's outbound queue of 1,024, when a direction is enabled (R205). -/
def State.provSend (s : State) (k typ : Nat) (e : AddrEntry) : State :=
  let q := s.addr.provOut.getD k []
  let m : ProvMsg := { typ := typ, origin := e.origin, originSlice := e.originSlice, bd := e.bd, mac := e.mac, handle := e.handle,
                       port := e.port, stamp := e.stamp }
  if !(s.on (F.PROV_CTRL_SLICE_EN k) || s.on (F.PROV_CTRL_FED_EN k)) then s
  else if 1024 ≤ q.length then s.incFld (F.PROV_TX_DROP k)
  else { s with addr.provOut := s.addr.provOut.set k (q ++ [m]) }

/-- Accept a provenance message into a slice's inbound queue of 1,024 (R205). -/
def State.provAccept (s : State) (k : Nat) (m : ProvMsg) : State :=
  let q := s.addr.provIn.getD k []
  if 1024 ≤ q.length then s.incFld (F.PROV_RX_DROP k)
  else { s with addr.provIn := s.addr.provIn.set k (q ++ [m]) }.incFld (F.PROV_RX k)

/-! Poisoned buckets (R44, R199). -/

/-- The HBM address of bucket b of slice k's table: the top 8 MiB of its stack (R196). -/
def bucketAddr (k b : Nat) : Nat := 24 * gib * (k + 1) - 8 * mib + 64 * b

/-- Rewrite bucket b with zeros where it is poisoned, and count it (R199). -/
def State.scrubBucket (s : State) (k b : Nat) : State :=
  if s.hbmPoisoned (bucketAddr k b) 64 then
    ((s.clearSlot k (2 * b)).clearSlot k (2 * b + 1) |>.hbmWrite (bucketAddr k b) (List.replicate 64 0)).satFld (F.ADDR_POISON k) 1
  else s

/-- A search for a key reads its buckets: the poisoned ones act as holding no entry (R199). -/
def State.scrubKey (s : State) (k bd mac : Nat) : State :=
  (((candidates bd mac).map (· / 2)).eraseDups).foldl (fun t b => t.scrubBucket k b) s

/-! Destination lookup (R198, R199). -/

/-- MAC at a byte offset of a frame, as the table holds it: first byte lowest. -/
def macAt (d : List Byte) (o : Nat) : Nat := leAt d o 6

/-- Where a frame goes once its destination lookup and its learning verdict are in: to the Catalogue, or over Korrum Link. -/
def Frame.afterLookup (f : Frame) : Frame :=
  { f with stage := if f.learnPending then .learning else if f.fed.isSome ∨ f.floodTo.isSome then .steered else .handled }

/-! Commands of the table (R200). -/

/-- The staged entry of slot w. -/
def State.addrStaged (s : State) (k w : Nat) : AddrEntry :=
  addrEntryOf (natOfWords ((List.range 4).map (fun u => (s.rd (R.ADDR_STAGE k w u)).toNat)))

/-- Copy an entry into the stage of slot w. -/
def State.addrToStage (s : State) (k w : Nat) (e : AddrEntry) : State :=
  (List.range 4).foldl (fun t u => t.wr (R.ADDR_STAGE k w u) (BitVec.ofNat 64 ((wordsOf 4 e.toNat).getD u 0))) s

/-- May this agent write ADDR_CMD of slot w (R200)? -/
def addrCmdOk (g : Agent) (k w : Nat) : Bool := decide (k < 4 ∧ w < 2) && accessOk (R.ADDR_CMD k w) true g

def State.addrResult (s : State) (k w r : Nat) : State := s.setFld (F.ADDR_RESULT k w) r

/-- Remove an entry by a command; a local one is withdrawn (R200). -/
def State.removeEntry (s : State) (k n : Nat) (e : AddrEntry) : State :=
  (if s.isLocal k e then s.provSend k 2 e else s).clearSlot k n

/-- Remove every entry of slice k that p holds of. -/
def State.flush (s : State) (k : Nat) (p : AddrEntry → Bool) : State :=
  (s.addr.slots.filter (fun x => decide (x.1 / 262144 = k) && !x.2.isStatic && p x.2)).foldl
    (fun t x => t.removeEntry k (x.1 % 262144) x.2) s

/-- INSERT_STATIC (R200): insert, or overwrite the key's entry, with STATIC = 1. -/
def State.insertStatic (s0 : State) (k w : Nat) : State :=
  let e := { s0.addrStaged k w with isStatic := true }
  let s := s0.scrubKey k e.bd e.mac
  match s.findKey k e.bd e.mac with
  | some (n, _) => (s.putSlot k n e).addrResult k w 1
  | none =>
    match s.freeSlot k e.bd e.mac with
    | some n => (s.putSlot k n e).addrResult k w 1
    | none => s.addrResult k w 3

/-- DELETE (R200). -/
def State.addrDelete (s0 : State) (k w : Nat) : State :=
  let e := s0.addrStaged k w
  let s := s0.scrubKey k e.bd e.mac
  match s.findKey k e.bd e.mac with
  | some (n, x) => (s.removeEntry k n x).addrResult k w 1
  | none => s.addrResult k w 2

/-- LOOKUP (R200). -/
def State.addrCmdLookup (s0 : State) (k w : Nat) : State :=
  let e := s0.addrStaged k w
  let s := s0.scrubKey k e.bd e.mac
  match s.findKey k e.bd e.mac with
  | some (_, x) => (s.addrToStage k w x).addrResult k w 1
  | none => s.addrResult k w 2

/-- FLUSH_PORT: non-static local entries with the staged PORT (R200). -/
def State.flushPort (s : State) (k w : Nat) : State :=
  (s.flush k (fun e => s.isLocal k e && decide (e.port = (s.addrStaged k w).port))).addrResult k w 1

/-- FLUSH_BD: non-static entries with the staged BRIDGE_DOMAIN (R200). -/
def State.flushBd (s : State) (k w : Nat) : State :=
  (s.flush k (fun e => decide (e.bd = (s.addrStaged k w).bd))).addrResult k w 1

/-- FLUSH_DYNAMIC: every non-static entry (R200). -/
def State.flushDynamic (s : State) (k w : Nat) : State := (s.flush k (fun _ => true)).addrResult k w 1

/-- A write of an operation code to ADDR_CMD[w] (R200); a code the table does not list does nothing. -/
def State.addrCmd (s : State) (k w op : Nat) : State :=
  match op with
  | 1 => s.insertStatic k w
  | 2 => s.addrDelete k w
  | 3 => s.addrCmdLookup k w
  | 4 => s.flushPort k w
  | 5 => s.flushBd k w
  | 6 => s.flushDynamic k w
  | _ => s

def execInsertStatic (agent : Agent) (slice slot : Nat) (s : State) : Host.Outcome State Fault Refusal := whenSlices s <|
  if addrCmdOk agent slice slot then .next (s.insertStatic slice slot) else .next s

def execAddrDelete (agent : Agent) (slice slot : Nat) (s : State) : Host.Outcome State Fault Refusal := whenSlices s <|
  if addrCmdOk agent slice slot then .next (s.addrDelete slice slot) else .next s

def execAddrCmdLookup (agent : Agent) (slice slot : Nat) (s : State) : Host.Outcome State Fault Refusal := whenSlices s <|
  if addrCmdOk agent slice slot then .next (s.addrCmdLookup slice slot) else .next s

def execFlushPort (agent : Agent) (slice slot : Nat) (s : State) : Host.Outcome State Fault Refusal := whenSlices s <|
  if addrCmdOk agent slice slot then .next (s.flushPort slice slot) else .next s

def execFlushBd (agent : Agent) (slice slot : Nat) (s : State) : Host.Outcome State Fault Refusal := whenSlices s <|
  if addrCmdOk agent slice slot then .next (s.flushBd slice slot) else .next s

def execFlushDynamic (agent : Agent) (slice slot : Nat) (s : State) : Host.Outcome State Fault Refusal := whenSlices s <|
  if addrCmdOk agent slice slot then .next (s.flushDynamic slice slot) else .next s

/-! Learning (R201 to R203). -/

/-- Is stamp a later than b, by the signed 64-bit difference (R206)? -/
def laterStamp (a b : Nat) : Bool := decide (0 < signed 64 (unsigned 64 ((a : Int) - (b : Int))))

/-- The stamp of a local learn: the later of now and one unit past the old one (R203). -/
def learnStamp (now old : Nat) : Nat := if laterStamp now ((old + 1) % 2 ^ 64) then now else (old + 1) % 2 ^ 64

/-- Is this the entry a learn would only refresh (R201, second row)? -/
def State.sameLearn (s : State) (k p : Nat) (e : AddrEntry) : Bool :=
  decide (e.origin = s.fedId ∧ e.originSlice = k ∧ e.port = s.portNumber k p ∧ e.handle = s.fld (F.PORT_L2_CFG_LEARN_HANDLE k p))

/-- A frame waits for the verdict only when its source lookup misses or finds a differing entry (R203). -/
def State.waitsLearn (s : State) (k bd mac p : Nat) : Bool :=
  match s.findKey k bd mac with
  | some (_, e) => !(e.isStatic || s.sameLearn k p e)
  | none => true

/-- Submit a frame for learning: the queue of the slice holds 256 requests (R203). Its source lookup is issued anew where a prefetched one was for another
bridge domain (R198). -/
def State.submitLearn (s00 : State) (f : Frame) (bd p : Nat) : State × Bool :=
  let k := f.slice
  let q := s00.addr.learnQ.getD k []
  let s0 := if f.prefetch ∧ bd ≠ s00.fld (F.PORT_L2_CFG_DEFAULT_BD k p) then s00.incFld (F.ADDR_PREFETCH_MISS k) else s00
  if 256 ≤ q.length then (s0.incFld (F.ADDR_LEARN_QDROP k), false)
  else
    let mac := macAt f.data 6
    let s := s0.scrubKey k bd mac
    let r : LearnReq := { frame := f.id, bd := bd, mac := mac, port := p }
    ({ s with addr.learnQ := s.addr.learnQ.set k (q ++ [r]) }, s.waitsLearn k bd mac p)

/-- The waiting frame of a learn request goes on: `over` is the over-limit action (R202). -/
def State.learnVerdict (s : State) (id : Nat) (bd : Nat) (evict : Option Nat) : State :=
  match s.frame? id with
  | none => s
  | some f =>
    if !f.learnPending then s
    else
      let f1 := { f with learnPending := false }
      match evict with
      | some 0 => s.dropFrame f1 0
      | some _ => s.setFrame { f1 with floodTo := some (bd % 4096), fed := none, stage := .steered }
      | none =>
        if f.samePort then (s.incFld (F.ADDR_SAME_PORT_DROP f.slice)).dropFrame f1 0
        else s.setFrame (if f.stage = .learning then f1.afterLookup else f1)

/-- The new local entry of a learn. -/
def State.localEntry (s : State) (k bd mac p stamp : Nat) : AddrEntry :=
  { mac := mac, bd := bd, handle := s.fld (F.PORT_L2_CFG_LEARN_HANDLE k p), port := s.portNumber k p, isStatic := false, remote := false,
    origin := s.fedId, originSlice := k, stamp := stamp, lastSeen := s.sec32, announced := s.sec32 }

/-- One learn, by the table of R201. -/
def State.learnOne (s0 : State) (k : Nat) (r : LearnReq) : State :=
  let s := s0.scrubKey k r.bd r.mac
  let p := r.port
  let now := ts64 s.ftNow
  let room := decide (s.fld (F.PORT_LEARN_COUNT k p) < s.fld (F.PORT_LEARN_LIMIT k p))
  let passed := fun (t : State) =>
    ((t.incFld (F.ADDR_OVER_LIMIT k p)).raise (F.ADDR_INT_STATUS_OVER_LIMIT_SEEN k) (R.ADDR_INT_ENABLE k)).learnVerdict r.frame r.bd
      (some (s.fld (F.PORT_L2_CFG_OVER_ACTION k p)))
  match s.findKey k r.bd r.mac with
  | some (n, e) =>
    if e.isStatic then (s.incFld (F.ADDR_STATIC_HIT k)).learnVerdict r.frame r.bd none
    else if s.sameLearn k p e then
      let due := decide (((s.ageTime k / 2 : Nat) : Int) ≤ signed 32 (unsigned 32 ((s.sec32 : Int) - (e.announced : Int))))
      let e1 := { e with lastSeen := s.sec32, announced := if due then s.sec32 else e.announced }
      let s1 := { s with addr.slots := Map.insert s.addr.slots (slotKey k n) e1 }
      (if due then s1.provSend k 3 e1 else s1).learnVerdict r.frame r.bd none
    else if room then
      let e1 := s.localEntry k r.bd r.mac p (learnStamp now e.stamp)
      (((s.putSlot k n e1).incFld (F.ADDR_MOVES k)).provSend k 1 e1).learnVerdict r.frame r.bd none
    else passed s
  | none =>
    if !room then passed s
    else match s.freeSlot k r.bd r.mac with
      | some n =>
        let e1 := s.localEntry k r.bd r.mac p now
        (((s.putSlot k n e1).incFld (F.ADDR_LEARNED k)).provSend k 1 e1).learnVerdict r.frame r.bd none
      | none =>
        ((s.incFld (F.ADDR_COLLIDE k)).raise (F.ADDR_INT_STATUS_COLLIDE_SEEN k) (R.ADDR_INT_ENABLE k)).learnVerdict r.frame r.bd none

/-! Provenance (R204 to R207). -/

/-- Does message m replace entry e (R206)? -/
def ProvMsg.replaces (m : ProvMsg) (e : AddrEntry) : Bool :=
  laterStamp m.stamp e.stamp || (decide (m.stamp = e.stamp) && decide (m.origin < e.origin)) ||
  (decide (m.stamp = e.stamp ∧ m.origin = e.origin) && decide (m.originSlice < e.originSlice))

/-- The entry a message makes. -/
def State.remoteEntry (s : State) (m : ProvMsg) : AddrEntry :=
  { mac := m.mac, bd := m.bd, handle := m.handle, port := m.port, isStatic := false, remote := true, origin := m.origin,
    originSlice := m.originSlice, stamp := m.stamp, lastSeen := s.sec32, announced := 0 }

/-- A received LEARN or REFRESH (R206). -/
def State.provLearn (s0 : State) (k : Nat) (m : ProvMsg) : State :=
  let s := s0.scrubKey k m.bd m.mac
  match s.findKey k m.bd m.mac with
  | some (n, e) =>
    if e.isStatic then s.incFld (F.ADDR_STATIC_HIT k)
    else if e.origin = m.origin ∧ e.originSlice = m.originSlice ∧ e.stamp = m.stamp then
      { s with addr.slots := Map.insert s.addr.slots (slotKey k n) { e with lastSeen := s.sec32 } }
    else if m.replaces e then (s.putSlot k n (s.remoteEntry m)).incFld (F.ADDR_MOVES k)
    else s.incFld (F.PROV_STALE k)
  | none =>
    match s.freeSlot k m.bd m.mac with
    | some n => s.putSlot k n (s.remoteEntry m)
    | none => (s.incFld (F.ADDR_COLLIDE k)).raise (F.ADDR_INT_STATUS_COLLIDE_SEEN k) (R.ADDR_INT_ENABLE k)

/-- A received WITHDRAW (R207); a static entry refuses it as it refuses every message (R206). -/
def State.provWithdraw (s0 : State) (k : Nat) (m : ProvMsg) : State :=
  let s := s0.scrubKey k m.bd m.mac
  match s.findKey k m.bd m.mac with
  | some (n, e) =>
    if e.isStatic then s.incFld (F.ADDR_STATIC_HIT k)
    else if e.origin = m.origin ∧ e.originSlice = m.originSlice ∧ e.stamp = m.stamp then s.clearSlot k n
    else s.incFld (F.PROV_STALE k)
  | none => s.incFld (F.PROV_STALE k)

/-- A message of a type unknown here (R207). -/
def State.provUnknown (s : State) (k : Nat) (m : ProvMsg) : State :=
  if m.mayIgnore then s.incFld (F.PROV_IGNORED k)
  else (s.satFld (F.PROV_BAD k) 1).raise (F.ADDR_INT_STATUS_PROV_BAD_SEEN k) (R.ADDR_INT_ENABLE k)

/-- Take the oldest inbound message of slice k when its type satisfies p. -/
def State.provTake (s : State) (k : Nat) (p : Nat → Bool) (f : State → ProvMsg → State) : State :=
  match s.addr.provIn.getD k [] with
  | [] => s
  | m :: rest => if p m.typ then f { s with addr.provIn := s.addr.provIn.set k rest } m else s

/-- PROVENANCE_LEARN (R206): the slice's oldest inbound message, a LEARN. -/
def execProvenanceLearn (slice : Nat) (s : State) : Host.Outcome State Fault Refusal := whenSlices s <|
  .next (s.provTake slice (fun t => decide (t = 1)) (fun t m => t.provLearn slice m))

/-- PROVENANCE_REFRESH (R206): a REFRESH sets LAST_SEEN, or is handled as a LEARN. -/
def execProvenanceRefresh (slice : Nat) (s : State) : Host.Outcome State Fault Refusal := whenSlices s <|
  .next (s.provTake slice (fun t => decide (t = 3)) (fun t m => t.provLearn slice m))

/-- PROVENANCE_WITHDRAW (R207): a WITHDRAW, or a message of a type unknown here. -/
def execProvenanceWithdraw (slice : Nat) (s : State) : Host.Outcome State Fault Refusal := whenSlices s <|
  .next (s.provTake slice (fun t => !decide (t = 1 ∨ t = 3)) (fun t m =>
    if m.typ = 2 then t.provWithdraw slice m else t.provUnknown slice m))

/-- ADDR_AGEING_VISIT (R208): the ageing pass visits slot `slot` of the slice's table (2 × bucket + slot). -/
def execAddrAgeingVisit (slice slot : Nat) (s0 : State) : Host.Outcome State Fault Refusal := whenSlices s0 <|
  let s := s0.scrubBucket slice (slot % 262144 / 2)
  match s.slot? slice (slot % 262144) with
  | none => .next s
  | some e =>
    let age := s.ageTime slice
    let old := (s.sec32 + 2 ^ 32 - e.lastSeen) % 2 ^ 32
    if 4 ≤ slice ∨ e.isStatic ∨ age = 0 ∨ old < age ∨ 2 ^ 31 ≤ old then .next s
    else .next ((s.removeEntry slice (slot % 262144) e).incFld (F.ADDR_AGED slice))

end Sys2Proof.Machine
end

