-- ==== Sys2Proof/Machine/Aes.lean ====
section
/-!
DEFINITION. The block cipher and its modes, as the standards that R226 names give them: AES-128 and AES-256 (FIPS 197); CBC, CFB-128, OFB
and CTR (SP 800-38A); CMAC (SP 800-38B); GCM with a 96-bit IV and a 128-bit tag (SP 800-38D); XTS-AES-256 with ciphertext stealing
(SP 800-38E, IEEE 1619). Blocks and keys are byte lists in the standards' order.
-/

namespace Sys2Proof.Machine

/-! AES (FIPS 197). A state is its 16 bytes, column by column, as numbers below 256. -/

/-- The S-box, byte x at bits 8x + 7 .. 8x. -/
def aesSboxLit : Nat :=
  0x16BB54B00F2D99416842E6BF0D89A18CDF2855CEE9871E9B948ED9691198F8E19E1DC186B95735610EF6034866B53E708A8BBD4B1F74DDE8C6B4A61C2E2578BA08AE7A65EAF4566CA94ED58D6D37C8E779E4959162ACD3C25C2406490A3A32E0DB0B5EDE14B8EE4688902A22DC4F816073195D643D7EA7C41744975FEC130CCDD2F3FF1021DAB6BCF5389D928F40A351A89F3C507F02F94585334D43FBAAEFD0CF584C4A39BECB6A5BB1FC20ED00D153842FE329B3D63B52A05A6E1B1A2C830975B227EBE28012079A059618C323C7041531D871F1E5A534CCF73F362693FDB7C072A49CAFA2D4ADF04759FA7DC982CA76ABD7FE2B670130C56F6BF27B777C63

/-- The inverse S-box. -/
def aesInvLit : Nat :=
  0x7D0C2155631469E126D677BA7E042B17619953833CBBEBC8B0F52AAE4D3BE0A0EF9CC9939F7AE52D0D4AB519A97F51605FEC8027591012B131C7078833A8DD1FF45ACD78FEC0DB9A2079D2C64B3E56FC1BBE18AA0E62B76F89C5291D711AF1476EDF751CE837F9E28535ADE72274AC9673E6B4F0CECFF297EADC674F4111913A6B8A130103BDAFC1020F3FCA8F1E2CD00645B3B80558E4F70AD3BC8C00ABD890849D8DA75746155EDAB9EDFD5048706C92B6655DCC5CA4D41698688664F6F87225D18B6D49A25B76B224D92866A12E084EC3FA420B954CEE3D23C2A632947B54CBE9DEC444438E3487FF2F9B8239E37CFBD7F3819EA340BF38A53630D56A0952

def aesSub (x : Nat) : Nat := aesSboxLit >>> (8 * x) % 256
def aesInvSub (x : Nat) : Nat := aesInvLit >>> (8 * x) % 256

/-- Multiplication by x in GF(2^8). -/
def xtime (a : Nat) : Nat := if a < 128 then 2 * a else (2 * a - 256) ^^^ 0x1B

/-- Multiplication in GF(2^8) by a constant below 16. -/
def gfMul (c a : Nat) : Nat :=
  let a2 := xtime a
  let a4 := xtime a2
  let a8 := xtime a4
  (if bitOf c 0 then a else 0) ^^^ (if bitOf c 1 then a2 else 0) ^^^ (if bitOf c 2 then a4 else 0) ^^^ (if bitOf c 3 then a8 else 0)

/-- A word of the key schedule is four bytes. -/
def xorL : List Nat → List Nat → List Nat := List.zipWith (· ^^^ ·)

/-- Round constant i of the key schedule (i from 1). -/
def rcon : Nat → Nat
  | 0 => 0
  | 1 => 1
  | n + 2 => xtime (rcon (n + 1))

/-- The next word of the key schedule: the words so far, newest first, nk of them the key (FIPS 197, 5.2). -/
def nextWord (nk : Nat) (ws : List (List Nat)) : List Nat :=
  let i := ws.length
  let prev := ws.headD []
  let t := if i % nk = 0 then
      xorL ((prev.drop 1 ++ prev.take 1).map aesSub) [rcon (i / nk), 0, 0, 0]
    else if nk = 8 ∧ i % nk = 4 then prev.map aesSub else prev
  xorL (ws.getD (nk - 1) []) t

def expand (nk : Nat) : Nat → List (List Nat) → List (List Nat)
  | 0, ws => ws
  | n + 1, ws => expand nk n (nextWord nk ws :: ws)

/-- Groups of four bytes. -/
def words4 : List Nat → List (List Nat)
  | a :: b :: c :: d :: r => [a, b, c, d] :: words4 r
  | _ => []

/-- Groups of four words, as 16-byte round keys. -/
def roundKeys : List (List Nat) → List (List Nat)
  | a :: b :: c :: d :: r => (a ++ b ++ c ++ d) :: roundKeys r
  | _ => []

/-- The round keys of a 16-byte or 32-byte key: 11 or 15 of them. -/
def aesKeys (key : List Nat) : List (List Nat) :=
  let nk := key.length / 4
  roundKeys (expand nk (4 * (nk + 7) - nk) (words4 key).reverse).reverse

def shiftRows (st : List Nat) : List Nat := (List.range 16).map (fun i => st.getD ((i + 4 * (i % 4)) % 16) 0)
def invShiftRows (st : List Nat) : List Nat := (List.range 16).map (fun i => st.getD ((i + 12 * (i % 4)) % 16) 0)

/-- One column times the circulant of c0 c1 c2 c3. -/
def mixCol (c0 c1 c2 c3 : Nat) (col : List Nat) : List Nat :=
  match col with
  | [a, b, c, d] =>
    [gfMul c0 a ^^^ gfMul c1 b ^^^ gfMul c2 c ^^^ gfMul c3 d, gfMul c3 a ^^^ gfMul c0 b ^^^ gfMul c1 c ^^^ gfMul c2 d,
     gfMul c2 a ^^^ gfMul c3 b ^^^ gfMul c0 c ^^^ gfMul c1 d, gfMul c1 a ^^^ gfMul c2 b ^^^ gfMul c3 c ^^^ gfMul c0 d]
  | _ => []

def mixColumns (st : List Nat) : List Nat := ((words4 st).map (mixCol 2 3 1 1)).flatten
def invMixColumns (st : List Nat) : List Nat := ((words4 st).map (mixCol 14 11 13 9)).flatten

/-- The rounds after the first key addition. -/
def aesRounds : List Nat → List (List Nat) → List Nat
  | st, [] => st
  | st, [k] => xorL (shiftRows (st.map aesSub)) k
  | st, k :: ks => aesRounds (xorL (mixColumns (shiftRows (st.map aesSub))) k) ks

def aesInvRounds : List Nat → List (List Nat) → List Nat
  | st, [] => st
  | st, [k] => xorL ((invShiftRows st).map aesInvSub) k
  | st, k :: ks => aesInvRounds (invMixColumns (xorL ((invShiftRows st).map aesInvSub) k)) ks

def toNats (l : List Byte) : List Nat := l.map BitVec.toNat
def ofNats (l : List Nat) : List Byte := l.map (BitVec.ofNat 8)

/-- AES encryption of one block. -/
def aesEnc (key blk : List Byte) : List Byte :=
  match aesKeys (toNats key) with
  | k :: ks => ofNats (aesRounds (xorL (toNats blk) k) ks)
  | [] => blk

/-- AES decryption of one block. -/
def aesDec (key blk : List Byte) : List Byte :=
  match (aesKeys (toNats key)).reverse with
  | k :: ks => ofNats (aesInvRounds (xorL (toNats blk) k) ks)
  | [] => blk

/-! Modes. -/

def xorB : List Byte → List Byte → List Byte := List.zipWith (· ^^^ ·)

/-- Blocks of 16 bytes, the last one as long as it is; the number is fuel. -/
def blocksOf : Nat → List Byte → List (List Byte)
  | 0, _ => []
  | n + 1, l => if l.isEmpty then [] else l.take 16 :: blocksOf n (l.drop 16)

def blocks16 (l : List Byte) : List (List Byte) := blocksOf ((l.length + 15) / 16) l

/-- Zero padding to whole blocks. -/
def padZero (l : List Byte) : List Byte := l ++ List.replicate ((16 - l.length % 16) % 16) 0

def cbcEnc (key iv : List Byte) : List (List Byte) → List Byte
  | [] => []
  | b :: bs => let c := aesEnc key (xorB b iv); c ++ cbcEnc key c bs

def cbcDec (key iv : List Byte) : List (List Byte) → List Byte
  | [] => []
  | c :: cs => xorB (aesDec key c) iv ++ cbcDec key c cs

def cfbEnc (key iv : List Byte) : List (List Byte) → List Byte
  | [] => []
  | b :: bs => let c := xorB b (aesEnc key iv); c ++ cfbEnc key c bs

def cfbDec (key iv : List Byte) : List (List Byte) → List Byte
  | [] => []
  | c :: cs => xorB c (aesEnc key iv) ++ cfbDec key c cs

def ofb (key iv : List Byte) : List (List Byte) → List Byte
  | [] => []
  | b :: bs => let o := aesEnc key iv; xorB b o ++ ofb key o bs

/-- The counter block after ctr, counting its low n bytes big-endian. -/
def incCtr (n : Nat) (ctr : List Byte) : List Byte :=
  ctr.take (16 - n) ++ beBytes n ((beNat (ctr.drop (16 - n)) + 1) % 256 ^ n)

def ctrMode (n : Nat) (key ctr : List Byte) : List (List Byte) → List Byte
  | [] => []
  | b :: bs => xorB b (aesEnc key ctr) ++ ctrMode n key (incCtr n ctr) bs

/-- Doubling in GF(2^128), big-endian (CMAC). -/
def dbl (x : Nat) : Nat := if x < 2 ^ 127 then 2 * x else (2 * x - 2 ^ 128) ^^^ 0x87

/-- AES-CMAC (SP 800-38B). -/
def cmac (key msg : List Byte) : List Byte :=
  let l := beNat (aesEnc key (List.replicate 16 0))
  let k1 := dbl l
  let k2 := dbl k1
  let n := max 1 ((msg.length + 15) / 16)
  let head := msg.take (16 * (n - 1))
  let tail := msg.drop (16 * (n - 1))
  let last := if tail.length = 16 then xorB tail (beBytes 16 k1)
    else xorB (tail ++ [0x80] ++ List.replicate (15 - tail.length) 0) (beBytes 16 k2)
  (blocks16 head ++ [last]).foldl (fun c b => aesEnc key (xorB c b)) (List.replicate 16 0)

/-- Multiplication in GCM's field, bit 127 first: n more bits of x. -/
def ghMul (y : Nat) : Nat → Nat → Nat → Nat → Nat
  | 0, _, z, _ => z
  | n + 1, v, z, x => ghMul y n (if v % 2 = 1 then v / 2 ^^^ (0xE1 * 2 ^ 120) else v / 2)
      (if x / 2 ^ n % 2 = 1 then z ^^^ v else z) x

/-- GHASH over whole blocks. -/
def ghash (h : Nat) (bs : List (List Byte)) : Nat := bs.foldl (fun y b => ghMul 0 128 h 0 (y ^^^ beNat b)) 0

/-- The GCM tag of a ciphertext. -/
def gcmTag (key iv aad ct : List Byte) : List Byte :=
  let h := beNat (aesEnc key (List.replicate 16 0))
  let s := ghash h (blocks16 (padZero aad) ++ blocks16 (padZero ct) ++ [beBytes 8 (8 * aad.length) ++ beBytes 8 (8 * ct.length)])
  xorB (beBytes 16 s) (aesEnc key (iv ++ [0, 0, 0, 1]))

/-- GCM encryption: the ciphertext and its tag (SP 800-38D). -/
def gcmEnc (key iv aad pt : List Byte) : List Byte × List Byte :=
  let ct := ctrMode 4 key (iv ++ [0, 0, 0, 2]) (blocks16 pt)
  (ct, gcmTag key iv aad ct)

/-- GCM decryption: the plaintext, when the tag verifies. -/
def gcmDec (key iv aad ct tag : List Byte) : Option (List Byte) :=
  if gcmTag key iv aad ct = tag then some (ctrMode 4 key (iv ++ [0, 0, 0, 2]) (blocks16 ct)) else none

/-- Multiplication of an XTS tweak by alpha: little-endian doubling. -/
def xtsNext (t : List Byte) : List Byte :=
  let x := leNat t
  leBytes 16 (if x < 2 ^ 127 then 2 * x else (2 * x - 2 ^ 128) ^^^ 0x87)

/-- One XTS block under tweak t, forwards or inverse. -/
def xtsBlock (dec : Bool) (key t b : List Byte) : List Byte :=
  xorB (if dec then aesDec key (xorB b t) else aesEnc key (xorB b t)) t

/-- XTS over blocks of which the last may be short: ciphertext stealing joins it with the one before (IEEE 1619). -/
def xtsBlocks (dec : Bool) (key : List Byte) : List Byte → List (List Byte) → List Byte
  | _, [] => []
  | t, [b] => xtsBlock dec key t b
  | t, [b, l] =>
    if l.length = 16 then xtsBlock dec key t b ++ xtsBlock dec key (xtsNext t) l
    else
      let t1 := if dec then xtsNext t else t
      let t2 := if dec then t else xtsNext t
      let c := xtsBlock dec key t1 b
      xtsBlock dec key t2 (l ++ c.drop l.length) ++ c.take l.length
  | t, b :: bs => xtsBlock dec key t b ++ xtsBlocks dec key (xtsNext t) bs

/-- XTS-AES-256 of a data unit (R236, R240): key 1 and key 2 of 32 bytes each, and the data unit number. -/
def xts (dec : Bool) (k1 k2 : List Byte) (unit : Nat) (data : List Byte) : List Byte :=
  xtsBlocks dec k1 (aesEnc k2 (leBytes 16 unit)) (blocks16 data)

end Sys2Proof.Machine
end

