-- ==== Sys2Proof/Machine/Cat.lean ====
section
/-!
DEFINITION. Classification, handoff, the Catalogue, steering and delivery to threads (chapters 01, 06, 07: R32, R33, R35, R171 to R195, R209).
-/

namespace Sys2Proof.Machine

/-! Classification (R173 to R180). -/

/-- The 48-byte key of a frame of class c, from its vector (R173). -/
def State.ruleKey (s : State) (k : Nat) (vec : List Byte) (c : Nat) : Nat :=
  let sel := (s.rd (R.KEY_PROFILE k c)).toNat
  leNat ((List.range 12).map (fun j => slice vec (4 * bitsOf sel (5 * j + 4) (5 * j)) 4)).flatten

/-- The valid entries of the rule table of slice k, in rising order. -/
def State.validRules (s : State) (k : Nat) : List Nat :=
  let base := R.RULE_ENTRY k 0 0
  s.regs.filterMap (fun e =>
    if base ≤ e.1 ∧ e.1 < base + 0x200000 ∧ (e.1 - base) % 0x80 = 0x78 ∧ bitOf e.2.toNat 63 = true then some ((e.1 - base) / 0x80) else none)

/-- Rule entry i of slice k, as a 1,024-bit number (R174). -/
def State.ruleEntry (s : State) (k i : Nat) : Nat := natOfWords ((List.range 16).map (fun u => (s.rd (R.RULE_ENTRY k i u)).toNat))

/-- Does an entry match a frame's key, class and port position (R175)? -/
def ruleMatches (e key cls port : Nat) : Bool :=
  decide ((key ^^^ bitsOf e 383 0) &&& bitsOf e 767 384 = 0) &&
  decide ((cls ^^^ bitsOf e 775 768) &&& bitsOf e 783 776 = 0) && bitOf e (784 + port)

/-- What a rule, or RULE_MISS_ACTION, asks for. -/
structure RuleAct where
  action : Nat
  learn : Bool
  handle : Nat
  hashBits : Nat
  bridge : Nat
  deriving DecidableEq, Repr

/-- The action fields of an entry (R174). -/
def ruleActOf (e : Nat) : RuleAct := ⟨bitsOf e 795 792, bitOf e 796, bitsOf e 820 800, bitsOf e 825 821, bitsOf e 847 832⟩

/-- RULE_MISS_ACTION (R177). -/
def State.missAct (s : State) (k : Nat) : RuleAct :=
  ⟨s.fld (F.RULE_MISS_ACTION_ACTION k), s.on (F.RULE_MISS_ACTION_LEARN k), s.fld (F.RULE_MISS_ACTION_FLOW_HANDLE k),
   s.fld (F.RULE_MISS_ACTION_HASH_BITS k), s.fld (F.RULE_MISS_ACTION_BRIDGE_DOMAIN k)⟩

/-- Submit the frame for learning when the rule asks for it (R176, R203). -/
def State.ruleLearn (s : State) (f : Frame) (a : RuleAct) (p : Nat) : State × Bool :=
  if a.learn ∧ 1 ≤ a.action ∧ a.action ≤ 3 then s.submitLearn f a.bridge p else (s, false)

/-- The handle of ACTION 1, 2, 3 and 5 (R176, R259). A frame with no payload layer has no KRA header: the bits are unstated. -/
def State.ruleHandle (s : State) (f : Frame) (a : RuleAct) : State × Nat :=
  if a.action = 2 then
    let m := 2 ^ min a.hashBits 16
    (s, a.handle / m * m + f.vec.flowHash % m)
  else if a.action = 5 then
    let o := f.vec.layerOff.getD 7 255
    if o = 255 ∨ f.data.length < o + 8 then (s.draw, Config.unstated s.freeCtr % 2 ^ 21) else (s, bitsOf (leAt f.data o 8) 52 32)
  else (s, a.handle)

/-- Apply the winning action to a frame of port p of slice k (R176). -/
def State.applyRule (s : State) (k p : Nat) (f : Frame) (a : RuleAct) : State :=
  if a.action = 4 then s.exceptionFrame f .handled
  else if a.action = 0 ∨ 5 < a.action then (s.incFld (F.RULE_DROP k)).dropFrame f 0
  else
    let r := s.ruleLearn f a p
    let h := r.1.ruleHandle f a
    let f1 := { f with bridge := a.bridge, learn := a.learn, ruleHandle := h.2, learnPending := r.2 }
    if a.action = 3 then h.1.setFrame { f1 with stage := .addrLookup }
    else h.1.setFrame { f1 with handle := some h.2 }.afterLookup

/-- CLASSIFICATION_LOOKUP (R173 to R177, R179): a parsed frame, first of its port, takes the lowest-numbered matching rule's action. A frame
under MAL_ACTION EXCEPTION leaves with its handle and no lookup (R171). A poisoned rule table drops it (R44). -/
def execClassificationLookup (frame : Nat) (s : State) : Host.Outcome State Fault Refusal := whenSlices s <|
  match s.frame? frame with
  | none => .next s
  | some f =>
    match f.origin with
    | .eth k p =>
      if f.stage ≠ .parsed ∨ !s.firstOfPort f then .next s
      else if f.exception then .next (s.setFrame { f with stage := .handled })
      else
        let s1 := s.incFld (F.CLS_LOOKUPS k)
        if s.sramPoisoned k ruleBase 0x200000 then
          .next (((s1.incFld (F.CAT_FAULT_DROP k)).raise (F.CAT_INT_STATUS_FAULT_DROP_SEEN k) (R.CAT_INT_ENABLE k)).dropFrame f 0)
        else
          let key := s.ruleKey k (s.vector f) f.vec.cls
          match (s.validRules k).find? (fun i => ruleMatches (s.ruleEntry k i) key f.vec.cls p) with
          | some i => .next ((s1.incFld (F.RULE_HITS k i)).applyRule k p f (ruleActOf (s.ruleEntry k i)))
          | none => .next ((s1.incFld (F.RULE_MISS k)).applyRule k p f (s.missAct k))
    | _ => .next s

/-- A RULE_COMMIT write of slot w (R178): VALID = 1 copies the stage into INDEX and zeroes its hits; VALID = 0 clears VALID. -/
def State.ruleCommit (s : State) (k w : Nat) (value : Word) : State :=
  let i := wordFld value 0 14
  if wordFld value 16 1 = 1 then
    let s1 := (List.range 16).foldl (fun t u =>
      let d := (t.rd (R.RULE_STAGE k w u)).toNat
      t.wr (R.RULE_ENTRY k i u) (BitVec.ofNat 64 (if u = 15 then setBits d 63 63 1 else d))) s
    (((s1.setFld (F.RULE_HITS k i) 0).incFld (F.RULE_COMMITS k)).sramClean k (ruleBase + 0x80 * i) 0x80)
  else (s.setFld ⟨R.RULE_ENTRY k i 15, 63, 1⟩ 0).incFld (F.RULE_COMMITS k)

/-- May this agent write RULE_COMMIT of slot w (R178)? -/
def ruleSlotOk (g : Agent) (k w : Nat) : Bool := decide (k < 4 ∧ w < 6) && accessOk (R.RULE_COMMIT k w) true g

/-- RULE_COMMIT (R178): the slot owner's 64-bit write with VALID = 1. -/
def execRuleCommit (agent : Agent) (slice slot : Nat) (value : Word) (s : State) : Host.Outcome State Fault Refusal := whenSlices s <|
  if ruleSlotOk agent slice slot && decide (wordFld value 16 1 = 1) then .next (s.ruleCommit slice slot value) else .next s

/-- RULE_INVALIDATE (R178): the slot owner's 64-bit write with VALID = 0. -/
def execRuleInvalidate (agent : Agent) (slice slot : Nat) (value : Word) (s : State) : Host.Outcome State Fault Refusal := whenSlices s <|
  if ruleSlotOk agent slice slot && decide (wordFld value 16 1 = 0) then .next (s.ruleCommit slice slot value) else .next s

/-! Handoff (R32). -/

/-- The home slice of a Flow Handle (R30). -/
def homeOf (h : Nat) : Nat := h / 2 ^ 19 % 4

/-- Has the home slice been asked for the frame's cells? -/
def State.handoffAsked (s : State) (f : Frame) (k : Nat) : Bool :=
  f.cells.any (fun c => decide (c.1 = k)) ||
  s.arb.waiting.any (fun r => decide (r.slice = k) && (match r.work with | .cell _ i => decide (i = f.id) | _ => false))

/-- The home slice has admitted a frame: the ingress slice frees its cells. -/
def State.handoffDone (s : State) (f : Frame) (k : Nat) : State :=
  let s1 := (s.incFld (F.SPINE_IN k)).freeCells f false f.slice
  match s1.frame? f.id with
  | some f1 => (s1.setFrame { f1 with slice := k, cellWait := 0 }).countAdmit k f.id
  | none => s1

/-- FRAME_HANDOFF (R32, R184): a frame whose handle is homed in another slice is sent over the spine; the home slice asks for its cells, and
the ingress slice frees its own once they are granted. A refused frame is dropped (R38). -/
def execFrameHandoff (frame : Nat) (s : State) : Host.Outcome State Fault Refusal := whenSlices s <|
  match s.frame? frame with
  | none => .next s
  | some f =>
    match f.handle with
    | none => .next s
    | some h =>
      let k := homeOf h
      if f.stage ≠ .handled ∨ f.slice = k then .next s
      else
        let s1 := if s.handoffAsked f k then s
          else ((s.wakeSlice k).incFld (F.SPINE_OUT f.slice)).askCells k (f.cellClass s) f.id (cellsFor f.arrived)
        match s1.frame? frame with
        | none => .next s1
        | some f1 => if f1.cellWait = 0 then .next (s1.handoffDone f1 k) else .next s1

/-! Steering (R186, R190, R209). -/

/-- Apply VLAN_OP to a frame's bytes (R185): push before the EtherType, pop or rewrite the outermost tag where there is one. -/
def vlanOp (op tci : Nat) (d : List Byte) : List Byte :=
  let tagged := decide (beAt d 12 2 = 0x8100 ∨ beAt d 12 2 = 0x88A8)
  match op with
  | 1 => d.take 12 ++ beBytes 2 0x8100 ++ beBytes 2 tci ++ d.drop 12
  | 2 => d.take 12 ++ beBytes 2 0x88A8 ++ beBytes 2 tci ++ d.drop 12
  | 3 => if tagged then d.take 12 ++ d.drop 16 else d
  | 4 => if tagged then splice d 14 (beBytes 2 tci) else d
  | _ => d

/-- Queue a copy of a frame on a device port's egress. -/
def State.egressTo (s : State) (f : Frame) (k p : Nat) (data : List Byte) : State :=
  (s.spineCross f.slice k).queueEgress
    { id := 0, frame := f.id, slice := k, port := p, data := data, badFcs := f.badFcs, entry := f.looked.map (fun r => r.handle),
      cls := f.dlClass, deadline := s.deadlineOf f.dlClass f.begun,
      flow := match f.origin with | .eth k' p' => some (k', p', f.handle.getD f.ruleHandle) | _ => none }

/-- STEER 1 (R186, R35): transmitted on the port, unless the mode does not have it or its link is down. -/
def State.steerForward (s : State) (f : Frame) (e : Nat) : State :=
  match s.portAt (bitsOf e 52 48) with
  | none => s.dropFrame f 0
  | some (k, p) =>
    if !s.linkUp k p then s.dropFrame f 0
    else (s.setFrame { f with stage := .egress }).egressTo f k p (vlanOp (bitsOf e 26 24) (bitsOf e 47 32) f.data)

/-- The device ports that a flooded frame leaves on (R209). -/
def State.floodPorts (s : State) (f : Frame) (g : Nat) : List (Nat × Nat) :=
  let mask := s.fld (F.FLOOD_PORTS f.slice g)
  let ingress := match f.origin with | .eth k p => some (k, p) | _ => none
  ((List.range 32).filter (fun n => bitOf mask n)).filterMap (fun n => match s.portAt n with
    | some kp => if some kp ≠ ingress ∧ s.linkUp kp.1 kp.2 = true then some kp else none
    | none => none)

/-- Copy a whole frame to flood group g (R209). -/
def State.flood (s : State) (f : Frame) (g : Nat) : State :=
  match s.floodPorts f g with
  | [] => s.dropFrame f 0
  | ps => ps.foldl (fun t kp => (t.incFld (F.FLOOD_COPIES f.slice)).egressTo f kp.1 kp.2 f.data) (s.setFrame { f with stage := .egress, floodTo := none })

/-- Send a whole frame over Korrum Link to a member with the handle and class given (R186, R199); an unreachable one drops it (R307). -/
def State.sendFed (s : State) (f : Frame) (dest handle cls : Nat) : State :=
  if s.fld (F.KL_ROUTE dest) = 7 then (s.incFld F.KL_UNREACH_DROP).dropFrame f 0
  else (s.korrumSend { typ := 2, vc := 0, cls := cls, dest := dest, src := s.fedId, handle := handle, payload := f.data }).eraseFrame f

/-- STEER 7: to another member; this device's own ID is a loop. -/
def State.steerFed (s : State) (f : Frame) (e : Nat) : State :=
  let dest := bitsOf e 74 69
  if s.on F.FED_ID_VALID ∧ dest = s.fld F.FED_ID_ID then
    ((s.incFld (F.CAT_FED_LOOP f.slice)).raise (F.CAT_INT_STATUS_FED_LOOP_SEEN f.slice) (R.CAT_INT_ENABLE f.slice)).dropFrame f 0
  else s.sendFed f dest (bitsOf e 68 48) (bitsOf e 7 4)

/-- The lowest free token of slice k (R190). -/
def State.freeToken (s : State) (k : Nat) : Option Nat := (List.range 1024).find? (fun t => (Map.find? s.cat.tokens (1024 * k + t)).isNone)

/-- The message of a thread delivery (R190); its delivery writes FT_MONO into doubleword 3. -/
def State.tokenMsg (s : State) (f : Frame) (h e tok : Nat) : List Nat :=
  let fromKl := match f.origin with | .korrum _ _ => true | _ => false
  let port := match f.origin with | .eth k p => s.portNumber k p | _ => 0
  [h + 2 ^ 32 * bitsOf e 127 96, tok + 2 ^ 16 * (f.data.length % 2 ^ 14) + 2 ^ 30 * port + 2 ^ 35 * b2n fromKl, s.rxStamp f, s.time.mono]

/-- STEER 5: to a channel of a cluster of the home slice, under a token (R190). -/
def State.steerThread (s : State) (f : Frame) (h e : Nat) : State :=
  let k := f.slice
  match s.freeToken k with
  | none =>
    ((s.incFld (F.DELIVER_NO_TOKEN k)).raise (F.CAT_INT_STATUS_NO_TOKEN_SEEN k) (R.CAT_INT_ENABLE k)).dropFrame f 0
  | some t =>
    let cl := bitsOf e 49 48
    let s1 := ({ s with cat.tokens := Map.insert s.cat.tokens (1024 * k + t) f.id }.setFrame { f with stage := .token }).showTokens k
    let s2 := s1.hwDeliver k cl (bitsOf e 55 50) (s.tokenMsg f h e t) (.token t)
    if s2.fld (F.CH_HW_DROP k cl) = s1.fld (F.CH_HW_DROP k cl) then s2.incFld (F.DELIVERED k) else s2

/-- Steer a frame that has been looked up (and transformed, when its entry names a transform), by what the lookup read (R186, R193). What
needs the whole frame waits for it at .steered (R35, R172). -/
def State.steerEntry (s : State) (f : Frame) (r : CatRead) : State :=
  let st := bitsOf r.entry 3 1
  if st = 0 then s.dropFrame f 0
  else if st = 1 then s.steerForward f r.entry
  else if !f.whole then s.setFrame { f with stage := .steered }
  else if st = 2 then
    let k := bitsOf r.entry 62 61
    (if f.crossed then s else s.spineCross f.slice k).deliverRing k (bitsOf r.entry 60 48) { f with crossed := true }
  else if f.poisoned then s.dropFrame f 0
  else match st with
    | 3 => { s with kra.order := s.kra.order ++ [f.id] }.setFrame { f with stage := .kra }
    | 4 => s.setFrame { f with stage := .capture }
    | 5 => s.steerThread f r.handle r.entry
    | 6 => s.flood f (bitsOf r.entry 59 48)
    | _ => s.steerFed f r.entry

/-- A transmit job's frame goes to its port after the lookup (R151). -/
def State.steerTx (s : State) (f : Frame) (k q id : Nat) : State :=
  match s.jobById k q id with
  | none => s.eraseFrame f
  | some j =>
    match s.portAt (bitsOf (j.dw 3) 4 0) with
    | none => s.dropFrame f St.TX_PORT_INVALID
    | some (k', p) =>
      ((s.setFrame { f with stage := .egress }).spineCross f.slice k').queueEgress
        { txEgress s j k' p f.id f.data with entry := f.looked.map (fun r => r.handle) }

/-- A frame goes on from where it stands, after its lookup and its transform. -/
def State.steer (s : State) (f : Frame) : State :=
  match f.floodTo, f.fed, f.looked with
  | some g, _, _ => if f.whole then s.flood f g else s.setFrame { f with stage := .steered }
  | none, some (d, h, c), _ => if f.whole then s.sendFed f d h c else s.setFrame { f with stage := .steered }
  | none, none, some r =>
    match f.origin with
    | .tx k q id => if f.poisoned then s.dropFrame f St.SRAM_UNCORRECTABLE else s.steerTx f k q id
    | _ => s.steerEntry f r
  | none, none, none => s

/-! The Catalogue lookup (R182 to R189, R193, R194). -/

/-- Is an entry poisoned? -/
def State.catPoisoned (s : State) (h : Nat) : Bool := s.sramPoisoned (homeOf h) (64 * (h % 2 ^ 19)) 64

/-- Does no earlier frame of the same flow and port still wait here, nor one of the port whose flow is still being looked up (R33)? -/
def State.firstOfFlow (s : State) (f : Frame) : Bool :=
  !s.eth.frames.any (fun e => decide (e.2.id < f.id ∧ e.2.origin = f.origin) &&
    (match e.2.stage with
      | .addrLookup | .learning => true
      | .handled | .transform | .steered => decide (e.2.handle = f.handle)
      | _ => false))

/-- The length a lookup adds to BYTES (R189): the frame without FCS, or a KRA packet's payload. -/
def Frame.countLen (f : Frame) (e : Nat) : Nat :=
  match f.origin with
  | .eth _ _ => if bitsOf e 3 1 = 3 then leAt f.data (f.vec.layerOff.getD 7 255 + 20) 2 else f.data.length
  | _ => f.data.length

/-- The status of a transmit job whose lookup failed: the spec names none. -/
def State.dropLookup (s : State) (f : Frame) : State := (s.draw).dropFrame f (Config.unstated s.freeCtr % 2 ^ 16)

/-- Does a transform apply to the frame: outbound ones to frames to be sent or forwarded, inbound ones to received frames (R230)? -/
def xformApplies (f : Frame) (e : Nat) : Bool :=
  let x := bitsOf e 19 16
  let st := bitsOf e 3 1
  let tx := match f.origin with
    | .tx _ _ _ => true
    | _ => false
  if x = 1 ∨ x = 3 then tx || decide (st = 1 ∨ st = 6 ∨ st = 7) else decide (x = 2 ∨ x = 4) && !tx

/-- The lookup of handle h (R184, R187, R188, R194, R230). -/
def State.catLookup (s : State) (f : Frame) (h : Nat) : State :=
  let k := homeOf h
  let s1 := (s.incFld (F.CAT_LOOKUPS k)).pmuUnc k 0x0A 1 { cls := some f.dlClass }
  let e := s.catEntry h
  if s.catPoisoned h then
    ((s1.incFld (F.CAT_FAULT_DROP k)).raise (F.CAT_INT_STATUS_FAULT_DROP_SEEN k) (R.CAT_INT_ENABLE k)).dropLookup f
  else if !bitOf e 0 then (s1.incFld (F.CAT_INVALID_DROP k)).dropLookup f
  else
    let wb : CatWb := { handle := h, bytes := f.countLen e, gen := bitsOf e 15 12 }
    let f1 := { f with looked := some { handle := h, entry := e }, pbClass := bitsOf e 9 8, dlClass := bitsOf e 7 4 }
    let s2 := { s1 with cat.writebacks := s1.cat.writebacks ++ [wb] }
    if 5 ≤ bitsOf e 19 16 then (s2.incFld (F.CIPHER_XFORM_INVALID k)).dropLookup f1
    else if xformApplies f e then s2.setFrame { f1 with stage := .transform }
    else (s2.setFrame f1).steer f1

/-- One write-back on the entry as it stands (R189, R194). -/
def State.catWriteback (s : State) (w : CatWb) : State :=
  let e := s.catEntry w.handle
  let e1 := if w.counts then
      setBits (setBits (setBits e 10 10 1) 167 128 (bitsOf e 167 128 + 1)) 215 168 (bitsOf e 215 168 + w.bytes)
    else e
  match w.state with
  | none => s.setCat w.handle e1
  | some st =>
    if bitsOf e 15 12 = w.gen then s.setCat w.handle (setBits e1 511 384 st)
    else (s.setCat w.handle e1).incFld (F.CAT_STATE_STALE (homeOf w.handle))

/-- CATALOGUE_WRITEBACK (R194): the slice's oldest write-back lands. -/
def execCatalogueWriteback (slice : Nat) (s : State) : Host.Outcome State Fault Refusal := whenSlices s <|
  match takeFirst (fun (w : CatWb) => decide (homeOf w.handle = slice)) s.cat.writebacks with
  | some (w, rest) => .next ({ s with cat.writebacks := rest }.catWriteback w)
  | none => .next s

/-! Late verdicts (R172). -/

/-- The frame of a late verdict has been dropped: only MAL_COUNT rises. -/
def State.ghostVerdict (s : State) (id : Nat) : State :=
  match takeFirst (fun (g : Nat × Nat × List Nat) => decide (g.1 = id)) s.eth.ghosts with
  | none => s
  | some ((_, k, l), rest) =>
    let s1 := { s with eth.ghosts := rest }
    let m := lowestMal 0 l
    if m = 0 then s1 else s1.incFld (F.MAL_COUNT k m)

/-- Mark the egress of a frame to end with an inverted FCS: all of it, or what has begun. -/
def State.spoilEgress (s : State) (id : Nat) (every : Bool) : State :=
  { s with eth.egress := s.eth.egress.map (fun (e : Egress) => if decide (e.frame = id) && (every || e.begun) then { e with badFcs := true } else e) }

/-- A frame that is held takes its late class m (R172). One that waits for the earlier frames of its port keeps its place under EXCEPTION (R157). -/
def State.lateMal (s : State) (f : Frame) (m : Nat) : State :=
  let k := match f.origin with | .eth k _ => k | _ => f.slice
  let fcs := decide (m = 2) || f.macMal.contains 2
  let f1 := { f with mal := m, badFcs := fcs }
  let begun := s.eth.egress.any (fun e => decide (e.frame = f.id) && e.begun)
  let s1 := ((s.incFld (F.MAL_COUNT k m)).spoilEgress f.id fcs).setFrame f1
  match s.fld (F.MAL_ACTION k m) with
  | 1 => if f.stage = .steered then s1.steer f1 else s1
  | 2 =>
    if begun then s1
    else { s1 with eth.egress := s1.eth.egress.filter (fun e => decide (e.frame ≠ f.id)) }.exceptionFrame { f1 with learnPending := false }
      (if f.stage = FStage.parsed then FStage.parsed else FStage.handled)
  | _ => s1.dropFrame f1 0

/-- The end of a frame that was arriving when its port's link went down: what has arrived is all of it, and its FCS is wrong. Nothing that arrives while
the link is down is received (R22); how the MAC ends such a frame the spec does not say (DESIGN CHOICE, log entry 23). -/
def State.cutFrame (s : State) (f : Frame) : Frame :=
  match f.origin with
  | .eth k p =>
    if s.linkUp k p then f
    else { f with data := f.data.take f.arrived, macMal := (if f.arrived + 4 < 64 then [1] else []) ++ [2] }
  | _ => f

/-- The ingress slice counts a frame that was handed off before it had been received whole (R39). -/
def State.countHandedOff (s : State) (f : Frame) : State :=
  match f.origin with
  | .eth k p => if f.slice = k then s else s.incFld (F.PB_ADMIT k (s.fld (F.PARSE_PORT_CFG_PB_CLASS k p)))
  | _ => s

/-- MAC_LATE_VERDICT (R22, R38, R39, R172): the rest of a frame arrives and the MAC gives its verdict. -/
def execMacLateVerdict (frame : Nat) (s : State) : Host.Outcome State Fault Refusal := whenSlices s <|
  match s.frame? frame with
  | none => .next (s.ghostVerdict frame)
  | some f0 =>
    if f0.whole ∨ (s.idleX f0.slice).wakeFrames.contains frame then .next s
    else
      let f := s.cutFrame f0
      let s1 := (s.setFrame f).askCells f.slice (f.cellClass s) f.id (cellsFor f.data.length - cellsFor f.arrived)
      match s1.frame? frame with
      | none => .next (s1.ghostVerdict frame)
      | some f1 =>
        let f2 := { f1 with whole := true, arrived := f1.data.length }
        let s2 := ((s1.setFrame f2).countAdmit f2.slice frame).countHandedOff f2
        let m := lowestMal 0 f2.macMal
        let parsing := decide (f2.stage = .arriving ∨ f2.stage = .queued ∨ f2.stage = .parsing)
        if parsing then .next s2
        else if m = 0 then .next (if f2.stage = .steered then s2.steer f2 else s2)
        else .next ((s2.spoilEgress frame false).lateMal f2 m)

/-! Threads give frames back (R191). -/

/-- A DELIVER_CTRL write that is ignored (R191). -/
def State.deliverBad (s : State) (k : Nat) : State := s.satFld (F.DELIVER_BAD k) 1

/-- A DELIVER_CTRL write (R191). A resubmitted frame begins a new operation whose class no object names until its lookup; the spec names no unit for
the slice's delivery logic, and the model takes ARB_UNIT_CLASS[0] (DESIGN CHOICE, log entry 23). -/
def State.deliverCtrl (s : State) (k : Nat) (v : Word) : State :=
  let t := wordFld v 0 10
  match (Map.find? s.cat.tokens (1024 * k + t)).bind s.frame? with
  | none => s.deliverBad k
  | some f =>
    match wordFld v 10 2 with
    | 1 => (s.freeTok k t).eraseFrame f
    | 2 =>
      let n := wordFld v 14 14
      let data := if n = 0 then f.data else f.data.take n
      (s.freeTok k t).setFrame { f with stage := .handled, data := data, arrived := data.length, begun := s.time.mono,
                                        handle := some (wordFld v 32 21), looked := none, dlClass := s.unitClass 0 }
    | _ => s.deliverBad k

/-- May this agent write DELIVER_CTRL of slice k (R191)? -/
def deliverOk (g : Agent) (k : Nat) : Bool := decide (k < 4) && accessOk (R.DELIVER_CTRL k) true g

/-- DELIVER_RELEASE (R191): OP 1. -/
def execDeliverRelease (agent : Agent) (slice : Nat) (value : Word) (s : State) : Host.Outcome State Fault Refusal := whenSlices s <|
  if deliverOk agent slice && decide (wordFld value 10 2 = 1) then .next (s.deliverCtrl slice value) else .next s

/-- DELIVER_RESUBMIT (R191): OP 2. -/
def execDeliverResubmit (agent : Agent) (slice : Nat) (value : Word) (s : State) : Host.Outcome State Fault Refusal := whenSlices s <|
  if deliverOk agent slice && decide (wordFld value 10 2 = 2) then .next (s.deliverCtrl slice value) else .next s

/-! Updates of the Catalogue (R192 to R195). -/

/-- The staged entry of slot w. -/
def State.catStaged (s : State) (k w : Nat) : Nat := natOfWords ((List.range 8).map (fun u => (s.rd (R.CAT_STAGE k w u)).toNat))

/-- A CAT_COMMIT write with INVALIDATE = 0 (R192, R194): fields kept, HIT clear, GEN of the device. -/
def State.catCommit (s : State) (k w : Nat) (v : Word) : State :=
  let h := 2 ^ 19 * k + wordFld v 0 19
  let old := s.catEntry h
  let bad := s.catPoisoned h
  let keepC := decide (wordFld v 24 1 = 1) && !bad
  let keepS := decide (wordFld v 25 1 = 1) && !bad
  let e0 := setBits (s.catStaged k w) 10 10 0
  let e1 := if keepC then setBits e0 247 128 (bitsOf old 247 128) else e0
  let e2 := if keepS then setBits e1 511 384 (bitsOf old 511 384) else e1
  let e3 := setBits e2 15 12 (if keepS then bitsOf old 15 12 else bitsOf old 15 12 + 1)
  ((s.setCat h e3).sramClean k (64 * wordFld v 0 19) 64).incFld (F.CAT_COMMITS k)

/-- A CAT_COMMIT write with INVALIDATE = 1 (R192, R194). -/
def State.catInvalidate (s : State) (k : Nat) (v : Word) : State :=
  let h := 2 ^ 19 * k + wordFld v 0 19
  let old := s.catEntry h
  (s.setCat h (setBits (setBits old 0 0 0) 15 12 (bitsOf old 15 12 + 1))).incFld (F.CAT_COMMITS k)

/-- May this agent use slot w of the Catalogue's staging (R192)? -/
def catSlotOk (g : Agent) (k w : Nat) : Bool := decide (k < 4 ∧ w < 6) && accessOk (R.CAT_COMMIT k w) true g

/-- CAT_COMMIT (R192): the slot owner's 64-bit write with INVALIDATE = 0. -/
def execCatCommit (agent : Agent) (slice slot : Nat) (value : Word) (s : State) : Host.Outcome State Fault Refusal := whenSlices s <|
  if catSlotOk agent slice slot && decide (wordFld value 20 1 = 0) then .next (s.catCommit slice slot value) else .next s

/-- CAT_INVALIDATE (R192): the slot owner's 64-bit write with INVALIDATE = 1. -/
def execCatInvalidate (agent : Agent) (slice slot : Nat) (value : Word) (s : State) : Host.Outcome State Fault Refusal := whenSlices s <|
  if catSlotOk agent slice slot && decide (wordFld value 20 1 = 1) then .next (s.catInvalidate slice value) else .next s

/-- CAT_READ (R195): a snapshot of the entry, with its counters and HIT cleared where the write asks for it. -/
def State.catRead (s : State) (k w : Nat) (v : Word) : State :=
  let h := 2 ^ 19 * k + wordFld v 0 19
  let e := s.catEntry h
  let e1 := if wordFld v 20 1 = 1 then setBits e 247 128 0 else e
  let e2 := if wordFld v 21 1 = 1 then setBits e1 10 10 0 else e1
  if s.catPoisoned h then
    { (List.range 8).foldl (fun t u => t.wr (R.CAT_SNAP k w u) (BitVec.ofNat 64 (Config.unstated (s.freeCtr + u)))) s with freeCtr := s.freeCtr + 8 }
  else
  let s1 := (List.range 8).foldl (fun t u => t.wr (R.CAT_SNAP k w u) (BitVec.ofNat 64 ((wordsOf 8 e).getD u 0))) s
  s1.setCat h e2

def execCatRead (agent : Agent) (slice slot : Nat) (value : Word) (s : State) : Host.Outcome State Fault Refusal := whenSlices s <|
  if catSlotOk agent slice slot then .next (s.catRead slice slot value) else .next s

end Sys2Proof.Machine
end

