-- ==== Sys2Proof/Machine/MgmtBase.lean ====
section
/-!
DEFINITION. Running a management opcode (R511 to R514, R520): an opcode's command acts when the intake slot's holder carries that opcode and has
not begun; it leaves the reply with the holder, at once or later.
-/

namespace Sys2Proof.Machine

/-- A reply with a status, a payload and DETAIL. -/
def mkReply (status : Nat) (payload : List Byte) (detail : Nat) : MgmtReply := { status := status, payload := payload, detail := detail }

/-- Run opcode op for the holder, when it is the holder's and has not begun. -/
def State.mgmtRun (s : State) (op : Nat) (f : State → MgmtCmd → State × Option MgmtReply) : State :=
  match s.mgmt.holder with
  | none => s
  | some h =>
    if h.started ∨ h.cmd.opcode ≠ op then s
    else
      let r := f s h.cmd
      { r.1 with mgmt.holder := some { h with started := true, reply := r.2 } }

/-- The reply of a holder whose opcode op has begun and waits. -/
def State.mgmtAnswer (s : State) (op : Nat) (r : MgmtReply) : State :=
  match s.mgmt.holder with
  | none => s
  | some h => if h.started ∧ h.reply.isNone ∧ h.cmd.opcode = op then { s with mgmt.holder := some { h with reply := some r } } else s

/-- A status that the spec says an operation fails with, without naming it: any but success. -/
def State.anyStatus (s : State) : Nat := Config.unstated s.freeCtr % 65535 + 1

/-- Fail a command with a status the spec leaves open. -/
def State.refuseOpen (s : State) : State × Option MgmtReply := (s.draw, some (mkReply s.anyStatus [] 0))

end Sys2Proof.Machine
end

