-- ==== Sys2Proof/Machine/Cipher.lean ====
section
/-!
DEFINITION. The root key store, Rennet key derivation, the cipher complex and its alarms (chapter 08: R211 to R249).
-/

namespace Sys2Proof.Machine

/-! Random numbers (R218 to R220). -/

/-- n bytes from a generator. Slice 0 to 3, which reseeds first when 2^20 requests or 1 s are over, or 4 for the hub, which reseeds on every
request (R219). -/
def State.drbg (s : State) (g n : Nat) : State × List Byte :=
  let bs := (List.range n).map (Config.random s.freeCtr)
  let s1 := (s.draw).addFld F.RNG_BYTES n
  if 4 ≤ g then (s1.incFld F.RNG_RESEEDS, bs)
  else
    let d := s1.cipher.drbg.getD g (0, 0)
    if 2 ^ 20 ≤ d.1 ∨ d.2 + ticksPerSec ≤ s.time.mono then ({ s1 with cipher.drbg := s1.cipher.drbg.set g (1, s.time.mono) }.incFld F.RNG_RESEEDS, bs)
    else ({ s1 with cipher.drbg := s1.cipher.drbg.set g (d.1 + 1, d.2) }, bs)

def rngStartup : Nat := 0
def rngOk : Nat := 1
def rngFailed : Nat := 2

def State.rngState (s : State) : Nat := s.fld F.RNG_STATUS_STATE

/-! Root keys (R212 to R217). -/

def useTraffic : Nat := 0
def useStorage : Nat := 1
def useSeal : Nat := 2
def useWrap : Nat := 3

def slotEmpty : Nat := 0
def slotLoaded : Nat := 1
def slotErasing : Nat := 2

def State.rootKey (s : State) (n : Nat) : List Byte := ((Map.find? s.cipher.keys n).map (fun k => k.key)).getD (List.replicate 32 0)

/-- Does a slot permit a Rennet purpose (R214)? -/
def State.permits (s : State) (n purpose : Nat) : Bool :=
  let u := s.fld (F.ROOT_SLOT_USAGE n)
  if n = 0 then decide (purpose = 6)
  else if purpose = 1 ∨ purpose = 2 ∨ purpose = 5 then bitOf u useTraffic
  else if purpose = 3 then bitOf u useStorage
  else if purpose = 4 then bitOf u useSeal
  else if purpose = 7 then bitOf u useWrap
  else false

/-- Why a derivation from slot n for a purpose fails, if it does (R214, R223). -/
def State.keyRefused (s : State) (n purpose : Nat) : Option Nat :=
  if purpose = 0 ∨ 7 < purpose then some St.CIPHER_MODE_INVALID
  else if s.fld (F.ROOT_SLOT_STATE n) ≠ slotLoaded then some St.CIPHER_KEY_EMPTY
  else if !s.permits n purpose then some St.CIPHER_KEY_USAGE
  else none

/-! Rennet (R221 to R223). -/

/-- The 32 bytes of a context label (R221). -/
def contextLabel (material handle purpose scope : Nat) : List Byte :=
  leBytes 16 material ++ leBytes 3 (handle % 2 ^ 21) ++ leBytes 1 purpose ++ leBytes 4 scope ++ leBytes 7 0 ++ [1]

def labelPurpose (l : List Byte) : Nat := leAt l 19 1

/-- Rennet: n blocks of output under the root key (R222). -/
def rennet (ki label : List Byte) (n : Nat) : List Byte :=
  ((List.range n).map (fun i => cmac ki (leBytes 1 (i + 1) ++ label ++ [0] ++ leBytes 2 (128 * n)))).flatten

/-- The blocks of output that a purpose takes (R223). -/
def purposeBlocks (purpose : Nat) : Nat := if purpose = 4 then 2 else 4

/-! Loading, persisting and erasing slots. -/

/-- The AES-256-GCM key and IV of a sealed copy: slot 0, purpose 0x06, MATERIAL its nonce (R223). -/
def State.sealKeys (s : State) (nonce : List Byte) : List Byte := rennet (s.rootKey 0) (contextLabel (leNat nonce) 0 6 0) 4

/-- What a sealed copy authenticates beside the key: its slot, USAGE, EXPORTABLE and ORIGIN (DESIGN CHOICE, log entry 51). -/
def sealHead (slot usage : Nat) (exportable : Bool) (origin : Nat) : List Byte :=
  leBytes 1 slot ++ leBytes 1 usage ++ leBytes 1 (b2n exportable) ++ leBytes 1 origin

/-- The sealed copy of slot n under a nonce (R216). -/
def State.sealSlot (s : State) (n : Nat) (nonce : List Byte) : NorKey :=
  let k := s.sealKeys nonce
  let usage := s.fld (F.ROOT_SLOT_USAGE n)
  let exportable := s.on (F.ROOT_SLOT_EXPORTABLE n)
  let origin := s.fld (F.ROOT_SLOT_ORIGIN n)
  let g := gcmEnc (k.take 32) (slice k 32 12) (sealHead n usage exportable origin) (s.rootKey n)
  { slot := n, usage := usage, exportable := exportable, origin := origin, nonce := nonce, sealed := g.1, tag := g.2 }

/-- The key in a sealed copy, unless its tag fails (R216). -/
def State.unseal (s : State) (c : NorKey) : Option (List Byte) :=
  let k := s.sealKeys c.nonce
  gcmDec (k.take 32) (slice k 32 12) (sealHead c.slot c.usage c.exportable c.origin) c.sealed c.tag

/-- A sealed copy of every loaded slot from 1 to 7 goes to the configuration area (R216); while slot 0 is EMPTY, nothing can be sealed and the area
keeps what it holds (R214). -/
def State.persistKeys (s : State) : State :=
  if s.fld (F.ROOT_SLOT_STATE 0) ≠ slotLoaded then s
  else
    let loaded := ([1, 2, 3, 4, 5, 6, 7] : List Nat).filter (fun n => decide (s.fld (F.ROOT_SLOT_STATE n) = slotLoaded))
    loaded.foldl (fun t n =>
      let d := t.drbg 4 16
      { d.1 with cipher.nor := d.1.cipher.nor ++ [s.sealSlot n d.2] }) { s with cipher.nor := [] }

/-- Load a key into a slot: its usage, exportability, origin; GEN advances (R213, R217). -/
def State.loadSlot (s : State) (n usage : Nat) (exportable : Bool) (origin : Nat) (key : List Byte) : State :=
  let s1 := { s with cipher.keys := Map.insert s.cipher.keys n { key := key } }
  ((((s1.setFld (F.ROOT_SLOT_STATE n) slotLoaded).setFld (F.ROOT_SLOT_USAGE n) usage).setFld (F.ROOT_SLOT_EXPORTABLE n) (b2n exportable)).setFld
    (F.ROOT_SLOT_ORIGIN n) origin).incFld (F.ROOT_SLOT_GEN n)

/-- Load slot 0 from the fuses (R212). -/
def State.loadDeviceRoot (s : State) : State := s.loadSlot 0 0 false 0 (leBytes 32 Config.deviceSecret)

/-- Show the entries of a slice's derived-key cache. -/
def State.setCache (s : State) (k : Nat) (l : List KcEntry) : State :=
  { s with cipher.cache := s.cipher.cache.set k l }.setFld (F.KC_ENTRIES k) l.length

def State.kc (s : State) (k : Nat) : List KcEntry := s.cipher.cache.getD k []

/-- Drop cache entries in every slice. -/
def State.dropCache (s : State) (p : KcEntry → Bool) : State :=
  ([0, 1, 2, 3] : List Nat).foldl (fun t k => t.setCache k ((t.kc k).filter (fun e => !p e))) s

/-- Restore the sealed copies of EMPTY slots but those whose tag fails (the NOR area returns those in `bad` damaged), which are logged (R216). -/
def State.restoreSlots (s : State) (bad : List Nat) : State :=
  s.cipher.nor.foldl (fun t c =>
    if t.fld (F.ROOT_SLOT_STATE c.slot) ≠ slotEmpty then t
    else match (if bad.contains c.slot then none else t.unseal c) with
      | none => (t.raiseWith F.ROOT_INT_STATUS_RESTORE_FAIL_SEEN R.ROOT_INT_ENABLE c.slot).logEvent (R.ROOT_SLOT c.slot) 0 c.slot
      | some key => t.loadSlot c.slot c.usage c.exportable c.origin key) s

/-- The AES-256-GCM key and IV of an export blob (R215, R223 purpose 0x07). -/
def State.wrapKey (s : State) (wrap : Nat) (nonce : List Byte) : List Byte :=
  rennet (s.rootKey wrap) (contextLabel (leNat nonce) 0 7 0) 4

/-- Payload bytes of a ROOT_KEY opcode: slot, USAGE, EXPORTABLE, WRAP slot, then the blob or the key. -/
def keySlot (c : MgmtCmd) : Nat := leAt c.payload 0 4 % 8
def keyUsage (c : MgmtCmd) : Nat := leAt c.payload 4 4 % 16
def keyExportable (c : MgmtCmd) : Bool := bitOf (leAt c.payload 8 4) 0
def keyWrap (c : MgmtCmd) : Nat := leAt c.payload 12 4 % 8

/-- A slot from 1 to 7 is loaded only while EMPTY (R213). -/
def State.slotBusy (s : State) (n : Nat) : Bool := decide (n = 0) || decide (s.fld (F.ROOT_SLOT_STATE n) ≠ slotEmpty)

/-- ROOT_KEY_GENERATE (R213, R216, R220). -/
def State.rootKeyGenerate (s : State) (c : MgmtCmd) : State × Option MgmtReply :=
  let n := keySlot c
  if s.slotBusy n then (s, some (mkReply St.CIPHER_SLOT_BUSY [] 0))
  else if s.rngState ≠ rngOk then (s, some (mkReply St.CIPHER_RNG_UNAVAILABLE [] 0))
  else
    let r := s.drbg 4 32
    ((r.1.loadSlot n (keyUsage c) (keyExportable c) 1 r.2).persistKeys, some (mkReply St.SUCCESS [] 0))

/-- ROOT_KEY_IMPORT (R213, R215). The nonces of the sealed copies come from the hub generator, so a load is refused while it is stopped (R216, R220). -/
def State.rootKeyImport (s : State) (c : MgmtCmd) : State × Option MgmtReply :=
  let n := keySlot c
  let blob := slice c.payload 16 80
  if s.slotBusy n then (s, some (mkReply St.CIPHER_SLOT_BUSY [] 0))
  else match s.keyRefused (keyWrap c) 7 with
    | some st => (s, some (mkReply st [] 0))
    | none =>
      if s.rngState ≠ rngOk then (s, some (mkReply St.CIPHER_RNG_UNAVAILABLE [] 0)) else
      let k := s.wrapKey (keyWrap c) (slice blob 16 16)
      match gcmDec (k.take 32) (slice k 32 12) (blob.take 16) (slice blob 32 32) (slice blob 64 16) with
      | none => (s, some (mkReply St.CIPHER_AUTH_FAIL [] 0))
      | some key =>
        ((s.loadSlot n (leAt blob 1 1 % 16) (bitOf (leAt blob 2 1) 0) 2 key).persistKeys, some (mkReply St.SUCCESS [] 0))

/-- ROOT_KEY_INSTALL (R213): over MCTP, while the ROOT_PROVISION fuse is not burnt. -/
def State.rootKeyInstall (s : State) (c : MgmtCmd) : State × Option MgmtReply :=
  let n := keySlot c
  if c.route ≠ 1 then (s, some (mkReply St.MGMT_ROUTE_DENIED [] 0))
  else if s.boot.rootProvision || s.on F.ROOT_PROVISION_CLOSED then s.refuseOpen
  else if s.slotBusy n then (s, some (mkReply St.CIPHER_SLOT_BUSY [] 0))
  else if s.rngState ≠ rngOk then (s, some (mkReply St.CIPHER_RNG_UNAVAILABLE [] 0))
  else ((s.loadSlot n (keyUsage c) (keyExportable c) 3 (slice c.payload 16 32)).persistKeys, some (mkReply St.SUCCESS [] 0))

/-- ROOT_KEY_EXPORT (R215): the 80-byte blob of an EXPORTABLE slot. -/
def State.rootKeyExport (s : State) (c : MgmtCmd) : State × Option MgmtReply :=
  let n := keySlot c
  if s.fld (F.ROOT_SLOT_STATE n) ≠ slotLoaded then (s, some (mkReply St.CIPHER_KEY_EMPTY [] 0))
  else if n = 0 ∨ !s.on (F.ROOT_SLOT_EXPORTABLE n) then s.refuseOpen
  else match s.keyRefused (keyWrap c) 7 with
    | some st => (s, some (mkReply st [] 0))
    | none =>
      if s.rngState ≠ rngOk then (s, some (mkReply St.CIPHER_RNG_UNAVAILABLE [] 0))
      else
        let r := s.drbg 4 16
        let k := s.wrapKey (keyWrap c) r.2
        let head := leBytes 1 1 ++ leBytes 1 (s.fld (F.ROOT_SLOT_USAGE n)) ++ leBytes 1 (s.fld (F.ROOT_SLOT_EXPORTABLE n)) ++ leBytes 13 0
        let g := gcmEnc (k.take 32) (slice k 32 12) head (s.rootKey n)
        (r.1, some (mkReply St.SUCCESS (head ++ r.2 ++ g.1 ++ g.2) 0))

/-- ROOT_KEY_ERASE (R217): ERASING, and in the same cycle the slot's cached keys go; the reply waits. -/
def State.rootKeyErase (s : State) (c : MgmtCmd) : State × Option MgmtReply :=
  let n := keySlot c
  if n = 0 then s.refuseOpen
  else match Map.find? s.cipher.keys n with
    | none => (s, some (mkReply St.CIPHER_KEY_EMPTY [] 0))
    | some k =>
      let s1 := { s with cipher.keys := Map.insert s.cipher.keys n { k with eraseWaits := true } }
      (((s1.setFld (F.ROOT_SLOT_STATE n) slotErasing).incFld (F.ROOT_SLOT_GEN n)).dropCache (fun e => decide (e.slot = n)), none)

def execRootKeyGenerate (s : State) : Host.Outcome State Fault Refusal := whenSlices s <| .next (s.mgmtRun 0x0210 State.rootKeyGenerate)
def execRootKeyImport (s : State) : Host.Outcome State Fault Refusal := whenSlices s <| .next (s.mgmtRun 0x0211 State.rootKeyImport)
def execRootKeyInstall (s : State) : Host.Outcome State Fault Refusal := whenSlices s <| .next (s.mgmtRun 0x0212 State.rootKeyInstall)
def execRootKeyExport (s : State) : Host.Outcome State Fault Refusal := whenSlices s <| .next (s.mgmtRun 0x0213 State.rootKeyExport)
def execRootKeyErase (s : State) : Host.Outcome State Fault Refusal := whenSlices s <| .next (s.mgmtRun 0x0214 State.rootKeyErase)

/-- ROOT_KEY_RESTORE (R246): slot 0 from the fuses, the others from their sealed copies. -/
def execRootKeyRestore (s : State) : Host.Outcome State Fault Refusal := whenSlices s <|
  .next (s.mgmtRun 0x0215 (fun t _ =>
    let t1 := if t.fld (F.ROOT_SLOT_STATE 0) = slotLoaded then t else t.loadDeviceRoot
    ({ t1.restoreSlots [] with cipher.tamperAt := none }, some (mkReply St.SUCCESS [] 0))))

/-- ROOT_KEY_STATUS (R520): the eight ROOT_SLOT words. -/
def execRootKeyStatus (s : State) : Host.Outcome State Fault Refusal := whenSlices s <|
  .next (s.mgmtRun 0x0216 (fun t _ =>
    (t, some (mkReply St.SUCCESS (dwsBytes ((List.range 8).map (fun n => (t.rd (R.ROOT_SLOT n)).toNat))) 0))))

/-- Does something that still runs hold a key derived from the slot: a job of the complex, or a derivation's result whose frame or ring job has not
taken it yet (R217)? -/
def State.keyHeld (s : State) (slot : Nat) : Bool :=
  s.cipher.jobs.any (fun j => decide (j.slot = slot)) ||
  s.cipher.keyReqs.any (fun r => decide (r.slot = slot) && (match r.result with | some (0, _) => true | _ => false) &&
    (if 2 ^ 40 ≤ r.op then true
     else if r.op % 2 = 0 then (s.frame? (r.op / 2)).isSome
     else s.rings.srs.any (fun e => e.2.started.any (fun j => decide (j.slice = r.slice ∧ j.id = r.op / 2)))))

/-- ROOT_KEY_ERASE_DONE (R217): no job holds a key derived from the slot any more; the NOR copy is deleted and the reply goes. -/
def execRootKeyEraseDone (slot : Nat) (s : State) : Host.Outcome State Fault Refusal := whenSlices s <|
  match Map.find? s.cipher.keys slot with
  | none => .next s
  | some k =>
    if !k.eraseWaits || s.keyHeld slot then .next s
    else
      let s1 := { s with cipher.keys := Map.erase s.cipher.keys slot, cipher.nor := s.cipher.nor.filter (fun c => decide (c.slot ≠ slot)) }
      .next ((s1.setFld (F.ROOT_SLOT_STATE slot) slotEmpty).mgmtAnswer 0x0214 (mkReply St.SUCCESS [] 0))

/-! Derived keys (R224, R225). -/

def keyTag (slot gen : Nat) (label : List Byte) : Nat := slot + 8 * gen + 2 ^ 19 * leNat label

/-- Put derived material in the cache of slice k: a full set of four replaces its least recently used entry. -/
def State.cacheFill (s : State) (k slot gen : Nat) (label key : List Byte) : State :=
  let set := Config.keyCacheSet (keyTag slot gen label) % 2048
  let l := (s.kc k).filter (fun x => !(decide (x.slot = slot ∧ x.gen = gen ∧ x.label = label)))
  let e : KcEntry := ⟨set, slot, gen, label, key⟩
  if 4 ≤ (l.filter (fun x => decide (x.set = set))).length then
    match takeFirst (fun x => decide (x.set = set)) l.reverse with
    | some (_, r) => (s.setCache k (e :: r.reverse)).incFld (F.KC_EVICT k)
    | none => s.setCache k (e :: l)
  else s.setCache k (e :: l)

/-- What a request for derived material answers. -/
inductive KeyRes where
  | ready (key : List Byte)
  | wait
  | fail (status : Nat)
  deriving DecidableEq, Repr

/-- Ask for the material of a label from a slot, for operation `op` of slice k (R214, R225). A key that has been derived is still delivered while its slot
is ERASING (R217), and never once another generation of the slot holds. -/
def State.needKey (s : State) (k op slot : Nat) (label : List Byte) : State × KeyRes :=
  let mine := fun (r : KeyReq) => decide (r.slice = k ∧ r.op = op ∧ r.slot = slot ∧ r.label = label) && !r.mask
  match takeFirst mine s.cipher.keyReqs with
  | some (r, rest) =>
    match r.result with
    | none => (s, .wait)
    | some (0, key) =>
      if s.fld (F.ROOT_SLOT_GEN slot) = r.gen ∨ s.fld (F.ROOT_SLOT_STATE slot) = slotErasing then ({ s with cipher.keyReqs := rest }, .ready key)
      else ({ s with cipher.keyReqs := rest }, .fail St.CIPHER_KEY_EMPTY)
    | some (st, _) => ({ s with cipher.keyReqs := rest }, .fail st)
  | none =>
    match s.keyRefused slot (labelPurpose label) with
    | some st => (s, .fail st)
    | none =>
      let gen := s.fld (F.ROOT_SLOT_GEN slot)
      match takeFirst (fun e => decide (e.slot = slot ∧ e.gen = gen ∧ e.label = label)) (s.kc k) with
      | some (e, rest) => ((s.setCache k (e :: rest)).incFld (F.KC_HITS k), .ready e.key)
      | none =>
        let r : KeyReq := { slice := k, op := op, slot := slot, gen := gen, label := label }
        (({ s with cipher.keyReqs := s.cipher.keyReqs ++ [r] } : State).incFld (F.KC_MISSES k), .wait)

/-- The address of record i of slice k's Bound Key Table (R227): the 4 MiB below the Address Table. -/
def bktAddr (k i : Nat) : Nat := 24 * gib * (k + 1) - 12 * mib + 64 * (i % 65536)

/-- Recover a bound record with its mask (R227): the 64 bytes, or the status that fails the job. -/
def State.boundRecord (s : State) (k : Nat) (label mask : List Byte) : Except Nat (List Byte) :=
  let a := bktAddr k (leAt label 0 2)
  if s.hbmPoisoned a 64 then .error St.HBM_UNCORRECTABLE
  else
    let rec' := xorB mask (s.hbmRead a 64)
    if leAt rec' 62 2 = 0x5A5A then .ok rec' else .error St.CIPHER_BIND_CHECK

/-- The end of a derivation whose paths agreed. -/
def State.derived (s : State) (r : KeyReq) : State × (Nat × List Byte) :=
  let k := r.slice
  if s.fld (F.ROOT_SLOT_STATE r.slot) ≠ slotLoaded ∨ s.fld (F.ROOT_SLOT_GEN r.slot) ≠ r.gen then (s, (St.CIPHER_KEY_EMPTY, []))
  else
    let p := labelPurpose r.label
    let out := rennet (s.rootKey r.slot) r.label (purposeBlocks p)
    let s1 := s.incFld (F.KDF_DERIVES k)
    if r.mask then (s1, (0, out))
    else if p = 3 ∧ out.take 32 = out.drop 32 then (s1, (St.CIPHER_KEY_WEAK, []))
    else if p = 1 then
      match (s1.hbmCount (bktAddr k (leAt r.label 0 2)) 64 0x06).boundRecord k r.label out with
      | .ok m => (s1.cacheFill k r.slot r.gen r.label m, (0, m))
      | .error st => (s1, (st, []))
    else (s1.cacheFill k r.slot r.gen r.label out, (0, out))

/-! Alarms (R244, R245). -/

def pairOnline : Nat := 0
def pairSelftest : Nat := 1
def pairFailed : Nat := 2

def pairFld (k x : Nat) : Fld := ⟨R.CIPHER_PAIR_STATE k, 2 * x, 2⟩
def State.pairState (s : State) (k x : Nat) : Nat := s.fld (pairFld k x)
def State.setPair (s : State) (k x v : Nat) : State := s.setFld (pairFld k x) v

/-- One of these pairs: which of several is the implementation's choice (R245, R247). -/
def State.pickPair (s : State) (l : List Nat) : Nat :=
  match l with
  | [x] => x
  | _ => l.getD (Config.pairPick s.freeCtr % max 1 l.length) 0

/-- Latch the last alarm of slice k. -/
def State.alarmInfo (s : State) (k pair alarm : Nat) : State :=
  ((s.setFld (F.CIPHER_ALARM_INFO_PAIR k) pair).setFld (F.CIPHER_ALARM_INFO_ALARM k) alarm).setFld (F.CIPHER_ALARM_INFO_TIME k) (s.time.mono % 2 ^ 48)

/-- Is every pair of slice k FAILED (R245)? -/
def State.pairsFailed (s : State) (k : Nat) : Bool := (List.range 10).all (fun x => decide (s.pairState k x = pairFailed))

/-- A job gives its tag back when it retires (R34). -/
def State.cipherTag (s : State) (j : CipherJob) : State :=
  if !j.tag then s
  else match j.src with
    | .ring q _ => s.giveTag j.slice (s.srInst j.slice q)
    | .inline _ _ => s.giveTag j.slice noInst

/-- A cipher job ends without output: its ring job completes with `status`; an inline job's frame is dropped (R220, R244). -/
def State.failCipher (s : State) (j : CipherJob) (status : Nat) : State :=
  let s0 : State := { s with cipher.jobs := s.cipher.jobs.filter (fun x => decide (x.id ≠ j.id)),
                             arb.waiting := s.arb.waiting.filter (fun r => decide (r.work ≠ QWork.job j.id)) }
  match j.src with
  | .ring q id =>
    let s1 := s0.cipherTag j
    (match s1.jobById j.slice q id with
      | some r => s1.finish r status 0 false
      | none => s1)
  | .inline f _ =>
    let s1 := s0.cipherTag j
    match s1.frame? f with
    | some fr => s1.dropFrame fr status
    | none => s1

/-- Fail every cipher job that p holds of. -/
def State.failCipherAll (s : State) (p : CipherJob → Bool) (status : Nat) : State :=
  (s.cipher.jobs.filter p).foldl (fun t j => t.failCipher j status) s

/-- Erase what belongs to the pairs of slice k: running jobs end, the in-flight table empties, every pair self-tests. -/
def State.eraseSlice (s : State) (k status : Nat) : State :=
  let s1 := s.failCipherAll (fun j => decide (j.slice = k) && j.pair.isSome) status
  let s2 := { s1.setCache k [] with cipher.inflight := s1.cipher.inflight.filter (fun e => decide (e.slice ≠ k)) }
  (List.range 10).foldl (fun t x => t.setPair k x pairSelftest) s2

/-- Have three different pairs of slice k raised alarms within 1 ms (R244)? -/
def State.sliceAlarmDue (s : State) (k : Nat) : Bool :=
  let recent := (s.cipher.alarms.filter (fun a => decide (a.1 = k ∧ a.2.1 < 10 ∧ s.time.mono ≤ a.2.2 + ticksPerMs))).map (fun a => a.2.1)
  decide (3 ≤ recent.eraseDups.length)

/-- SLICE_ALARM (R244). -/
def State.sliceAlarm (s : State) (k : Nat) : State :=
  (((s.satFld (F.CIPHER_SLICE_ALARMS k) 1).alarmInfo k (s.fld (F.CIPHER_ALARM_INFO_PAIR k)) 3).raise
    (F.CIPHER_INT_STATUS_SLICE_ALARM_SEEN k) (R.CIPHER_INT_ENABLE k)).eraseSlice k St.CIPHER_CHECK_FAIL

/-- Once every pair of slice k is FAILED, the jobs that wait for one end with CIPHER_OFFLINE (R245). -/
def State.offline (s : State) (k : Nat) : State :=
  if s.pairsFailed k then s.failCipherAll (fun j => decide (j.slice = k) && j.pair.isNone) St.CIPHER_OFFLINE else s

/-- PAIR_MISMATCH on pair x of slice k (R244, R245): the third in a second puts it in FAILED. -/
def State.pairMismatch (s : State) (k x : Nat) : State :=
  let s1 := { s with cipher.alarms := (k, x, s.time.mono) :: s.cipher.alarms.filter (fun a => decide (s.time.mono ≤ a.2.2 + ticksPerSec)) }
  let third := decide (3 ≤ (s1.cipher.alarms.filter (fun a => decide (a.1 = k ∧ a.2.1 = x))).length)
  let s2 := (((s1.satFld (F.PAIR_ALARMS k x) 1).satFld (F.CIPHER_ALARMS k) 1).alarmInfo k x 1).raise
    (F.CIPHER_INT_STATUS_PAIR_ALARM_SEEN k) (R.CIPHER_INT_ENABLE k)
  let s3 := if third then (s2.setPair k x pairFailed).raise (F.CIPHER_INT_STATUS_PAIR_FAILED_SEEN k) (R.CIPHER_INT_ENABLE k)
    else s2.setPair k x pairSelftest
  if s3.sliceAlarmDue k then s3.sliceAlarm k else s3.offline k

/-- Does a derivation unit self-test (R244)? -/
def State.kdfTesting (s : State) (slice unit : Nat) : Bool := decide (s.time.mono < Map.get (fun _ => 0) s.cipher.kdfUntil (2 * slice + unit % 2))

/-- RENNET_DERIVATION (R224, R225, R244): a derivation unit of a slice ends its oldest derivation, its two paths `equal` or not. A mismatch
is an alarm: the unit is erased and self-tests for 20 µs, nothing is cached, and the derivation is retried once, on the other unit. -/
def execRennetDerivation (slice unit : Nat) (equal : Bool) (s : State) : Host.Outcome State Fault Refusal := whenSlices s <|
  if s.kdfTesting slice unit then .next s else
  match s.cipher.keyReqs.find? (fun r => decide (r.slice = slice ∧ r.failedOn ≠ some (unit % 2)) && r.result.isNone) with
  | none => .next s
  | some r =>
    let put := fun (t : State) (r' : KeyReq) => { t with cipher.keyReqs := t.cipher.keyReqs.map (fun x => if x = r then r' else x) }
    if equal then
      let d := s.derived r
      .next (put d.1 { r with result := some d.2 })
    else
      let s0 : State := { s with cipher.kdfUntil := Map.put (fun _ => 0) s.cipher.kdfUntil (2 * slice + unit % 2) (s.time.mono + 20 * ticksPerUs) }
      let s1 := (s0.satFld (F.CIPHER_ALARMS slice) 1).alarmInfo slice (10 + unit % 2) 2
      .next (if r.failedOn.isSome then put s1 { r with result := some (St.CIPHER_CHECK_FAIL, []) } else put s1 { r with failedOn := some (unit % 2) })

/-! Ring cipher jobs (R238 to R240). -/

def modeCbc : Nat := 1
def modeCfb : Nat := 2
def modeOfb : Nat := 3
def modeCtr : Nat := 4
def modeGcm : Nat := 5
def modeXts : Nat := 6
def modeCmac : Nat := 7

def RJob.cMode (j : RJob) : Nat := bitsOf (j.dw 2) 7 0
def RJob.cSlot (j : RJob) : Nat := bitsOf (j.dw 2) 10 8
def RJob.cAes256 (j : RJob) : Bool := bitOf (j.dw 2) 11
def RJob.cAad (j : RJob) : Nat := bitsOf (j.dw 2) 31 16
def RJob.cOut (j : RJob) : Nat := j.dw 3
def RJob.cMaterial (j : RJob) : Nat := j.dw 4 + 2 ^ 64 * j.dw 5
def RJob.cIv (j : RJob) : Nat := j.dw 6 + 2 ^ 64 * j.dw 7

/-- What fails a cipher job before it runs (R239, R240). -/
def RJob.cipherCheck (j : RJob) : Option Nat :=
  let op := j.head.opcode
  let m := j.cMode
  let n := j.total - j.cAad
  let fits := if op = 0x20 ∨ op = 0x21 then decide (1 ≤ m ∧ m ≤ 6) else decide (m = modeCmac)
  if !fits ∨ (m = modeXts ∧ !j.cAes256) then some St.CIPHER_MODE_INVALID
  else if j.total < j.cAad ∨ 65520 < n ∨ (m = modeCbc ∧ n % 16 ≠ 0) ∨ (m = modeXts ∧ n < 16) ∨ (m = modeGcm ∧ op = 0x21 ∧ n < 16) then
    some St.CIPHER_LENGTH_INVALID
  else none

/-- The label of a ring cipher job: purpose 0x05, SCOPE the job's instance (R223). -/
def State.jobLabel (s : State) (j : RJob) : List Byte := contextLabel j.cMaterial 0 5 (s.srInst j.slice j.ring)

/-- The deadline of a ring job (R75). -/
def State.jobDeadline (s : State) (j : RJob) : Nat := s.deadlineOf (s.fld (F.SR_CFG_CLASS j.slice j.ring)) j.begun

/-- Is the dispatch queue of slice k full: 1,024 jobs (R247)? A unit that finds it so holds its job and retries. -/
def State.queueFull (s : State) (k : Nat) : Bool :=
  decide (1024 ≤ (s.cipher.jobs.filter (fun j => decide (j.slice = k) && j.pair.isNone)).length)

/-- The SOURCE of a job at the dispatch, for ties (R83): a ring job comes from the host side (24), a transform from the Catalogue lookup that leads to it,
by the parity of its Flow Handle (14 or 15) (DESIGN CHOICE, log entry 51). -/
def CipherJob.source (j : CipherJob) : Nat :=
  match j.src with
  | .ring _ _ => 24
  | .inline _ _ => 14 + leAt j.label 16 1 % 2

/-- Give a job to the dispatch queue of its slice (R247). -/
def State.queueCipher (s : State) (j : CipherJob) (deadline : Nat) : State :=
  { s with cipher.jobs := s.cipher.jobs ++ [j], cipher.nextJob := s.cipher.nextJob + 1,
           arb.waiting := s.arb.waiting ++ [{ point := .cipher, slice := j.slice, deadline := deadline, source := j.source, work := .job j.id }] }

/-- Why the complex of slice k takes no job now (R220, R245). -/
def State.cipherDown (s : State) (k : Nat) : Option Nat :=
  if s.rngState = rngFailed then some St.CIPHER_RNG_UNAVAILABLE
  else if s.pairsFailed k then some St.CIPHER_OFFLINE
  else none

/-- Does work for the pairs of slice k have to wait: no pair is ONLINE yet, or the generators have not passed their start-up test (R218, R245)? -/
def State.cipherWaits (s : State) (k : Nat) : Bool :=
  (s.cipherDown k).isNone && (decide (s.rngState ≠ rngOk) || (List.range 10).all (fun x => decide (s.pairState k x ≠ pairOnline)))

/-- The ring's oldest job of a cipher opcode takes its tag, reads its buffer, gets its key and joins the dispatch queue. -/
def State.cipherStart (s : State) (k q op : Nat) : State :=
  match s.jobFor k q op with
  | none => s
  | some j =>
    let i := s.srInst k q
    match j.cipherCheck, s.cipherDown k with
    | some st, _ => s.finish j st 0 false
    | none, some st => s.finish j st 0 false
    | none, none =>
      match s.dmaGather k i (s.jobOp 5 j) j.bufs with
      | (s1, .wait) => s1
      | (s1, .fail st) => s1.finish j st 0 false
      | (s1, .ok data) =>
        match s1.needKey k (2 * j.id + 1) j.cSlot (s1.jobLabel j) with
        | (_, .wait) => (s.needKey k (2 * j.id + 1) j.cSlot (s.jobLabel j)).1
        | (s2, .fail st) => s2.finish j st 0 false
        | (s2, .ready key) =>
          if j.cMode = modeXts ∧ key.take 32 = (key.drop 32).take 32 then s2.finish j St.CIPHER_KEY_WEAK 0 false
          else if s2.queueFull k then s
          else match s2.getTag k i (s2.jobDeadline j) j.id with
            | (_, false) => (s.getTag k i (s.jobDeadline j) j.id).1
            | (s3, true) =>
              let c : CipherJob := { id := s3.cipher.nextJob, slice := k, src := .ring q j.id, slot := j.cSlot, label := s1.jobLabel j,
                                     key := key, data := data, tag := true }
              (s3.setJob { j with taken := true }).queueCipher c (s3.jobDeadline j)

def execEncrypt (slice ring : Nat) (s : State) : Host.Outcome State Fault Refusal := whenSlices s <| .next (s.cipherStart slice ring 0x20)
def execDecrypt (slice ring : Nat) (s : State) : Host.Outcome State Fault Refusal := whenSlices s <| .next (s.cipherStart slice ring 0x21)
def execCmacGen (slice ring : Nat) (s : State) : Host.Outcome State Fault Refusal := whenSlices s <| .next (s.cipherStart slice ring 0x22)
def execCmacVerify (slice ring : Nat) (s : State) : Host.Outcome State Fault Refusal := whenSlices s <| .next (s.cipherStart slice ring 0x23)

/-- The output of a ring job, or the status of its failure (R238, R240, R243). -/
def cipherOutput (j : RJob) (key data : List Byte) : Except Nat (List Byte) :=
  let kk := if j.cAes256 then key.take 32 else key.take 16
  let iv := leBytes 16 j.cIv
  let iv12 := leBytes 12 j.cIv
  let aad := data.take j.cAad
  let p := data.drop j.cAad
  let bs := blocks16 p
  let enc := decide (j.head.opcode = 0x20)
  if j.head.opcode = 0x22 then .ok (cmac (key.take 32) p)
  else if j.head.opcode = 0x23 then if cmac (key.take 32) p = iv then .ok [] else .error St.CIPHER_AUTH_FAIL
  else match j.cMode with
    | 1 => .ok (if enc then cbcEnc kk iv bs else cbcDec kk iv bs)
    | 2 => .ok (if enc then cfbEnc kk iv bs else cfbDec kk iv bs)
    | 3 => .ok (ofb kk iv bs)
    | 4 => .ok (ctrMode 16 kk iv bs)
    | 5 =>
      if enc then let g := gcmEnc kk iv12 aad p; .ok (g.1 ++ g.2)
      else match gcmDec kk iv12 aad (p.take (p.length - 16)) (p.drop (p.length - 16)) with
        | some d => .ok d
        | none => .error St.CIPHER_AUTH_FAIL
    | _ => .ok (xts (!enc) (key.take 32) ((key.drop 32).take 32) j.cIv p)

/-! Bound keys and random fills (R227 to R229, R238). -/

/-- KEY_BIND's LABEL (R228). -/
def RJob.bindLabel (j : RJob) (nonce : List Byte) : List Byte :=
  leBytes 2 (bitsOf (j.dw 2) 31 16) ++ leBytes 1 (bitsOf (j.dw 2) 39 32) ++ leBytes 1 (b2n (bitOf (j.dw 2) 62)) ++ nonce

/-- The plaintext record of a key (R227). -/
def RJob.bindRecord (j : RJob) (buf : List Byte) : List Byte :=
  Machine.slice buf 0 44 ++ leBytes 1 (b2n j.cAes256 + 2 * b2n (bitOf (j.dw 2) 61)) ++ leBytes 17 0 ++ leBytes 2 0x5A5A

/-- Drop the cached bound keys of an index (R229). -/
def State.dropBound (s : State) (k index : Nat) : State :=
  s.setCache k ((s.kc k).filter (fun e => !(decide (labelPurpose e.label = 1 ∧ leAt e.label 0 2 = index % 65536))))

/-- The derivation of a mask that a KEY_BIND of slice k has asked for. -/
def State.maskReq? (s : State) (k op : Nat) : Option KeyReq := s.cipher.keyReqs.find? (fun r => decide (r.slice = k ∧ r.op = op) && r.mask)

def State.dropMask (s : State) (k op : Nat) : State :=
  { s with cipher.keyReqs := s.cipher.keyReqs.filter (fun r => !(decide (r.slice = k ∧ r.op = op) && r.mask)) }

/-- KEY_BIND (R229): nonce, LABEL and the derivation of the mask (steps 1 to 3), by a derivation unit; then the masked record at BOUND_INDEX, whose cached
keys go (step 4), and LABEL to OUT_ADDR (step 5). While the generator has not passed its start-up test, no nonce is drawn and the job waits. -/
def execKeyBind (slice ring : Nat) (s : State) : Host.Outcome State Fault Refusal := whenSlices s <|
  match s.jobFor slice ring 0x24 with
  | none => .next s
  | some j =>
    let i := s.srInst slice ring
    let index := bitsOf (j.dw 2) 31 16
    if j.total ≠ 44 then .next (s.finish j St.CIPHER_LENGTH_INVALID 0 false)
    else match s.cipherDown slice, s.keyRefused j.cSlot 1 with
      | some st, _ => .next (s.finish j st 0 false)
      | none, some st => .next (s.finish j st 0 false)
      | none, none =>
        match s.dmaGather slice i (s.jobOp 5 j) j.bufs with
        | (s1, .wait) => .next s1
        | (s1, .fail st) => .next (s1.finish j st 0 false)
        | (s1, .ok buf) =>
          let op := 2 * j.id + 1
          match s.maskReq? slice op with
          | none =>
            if s1.rngState ≠ rngOk then .next s
            else
              let r := s1.drbg slice 12
              let q : KeyReq := { slice := slice, op := op, slot := j.cSlot, gen := s1.fld (F.ROOT_SLOT_GEN j.cSlot),
                                  label := contextLabel (leNat (j.bindLabel r.2)) (bitsOf (j.dw 2) 60 40) 1 0, mask := true }
              .next { r.1 with cipher.keyReqs := r.1.cipher.keyReqs ++ [q] }
          | some q =>
            let label := q.label.take 16
            match q.result with
            | none => .next s
            | some (0, mask) =>
              let s2 := ((s1.hbmWrite (bktAddr slice index) (xorB mask (j.bindRecord buf))).hbmCount (bktAddr slice index) 64 0x07).dropBound slice index
              (match s2.dmaWrite slice i j.cOut (s.jobOp 5 j) label with
              | (_, .wait) => .next (s.dmaWrite slice i j.cOut (s.jobOp 5 j) label).1
              | (s3, .fail st) => .next ((s3.dropMask slice op).finish j st 0 false)
              | (s3, .ok _) => .next (((s3.dropMask slice op).incFld (F.BKT_BINDS slice)).finish j St.SUCCESS 16 false))
            | some (st, _) => .next ((s1.dropMask slice op).finish j st 0 false)

/-- KEY_UNBIND (R229): zeros at BOUND_INDEX. As every cipher job, it ends unexecuted while the complex takes no work (R220, R245). -/
def execKeyUnbind (slice ring : Nat) (s : State) : Host.Outcome State Fault Refusal := whenSlices s <|
  match s.jobFor slice ring 0x25 with
  | none => .next s
  | some j =>
    let index := bitsOf (j.dw 2) 31 16
    match s.cipherDown slice with
    | some st => .next (s.finish j st 0 false)
    | none => .next (((((s.hbmWrite (bktAddr slice index) (List.replicate 64 0)).hbmCount (bktAddr slice index) 64 0x07).dropBound slice index).incFld
        (F.BKT_UNBINDS slice)).finish j St.SUCCESS 0 false)

/-- RNG_FILL (R238): LENGTH bytes, at most 65,536, from the slice DRBG to OUT_ADDR. -/
def execRngFill (slice ring : Nat) (s : State) : Host.Outcome State Fault Refusal := whenSlices s <|
  match s.jobFor slice ring 0x26 with
  | none => .next s
  | some j =>
    let n := j.total
    if 65536 < n then .next (s.finish j St.CIPHER_LENGTH_INVALID 0 false)
    else if s.rngState = rngFailed then .next (s.finish j St.CIPHER_RNG_UNAVAILABLE 0 false)
    else if s.rngState ≠ rngOk then .next s
    else
      let r := s.drbg slice n
      match r.1.dmaWrite slice (s.srInst slice ring) j.cOut (s.jobOp 5 j) r.2 with
      | (_, .wait) => .next (s.dmaWrite slice (s.srInst slice ring) j.cOut (s.jobOp 5 j) r.2).1
      | (s1, .fail st) => .next (s1.finish j st 0 false)
      | (s1, .ok _) => .next (s1.finish j St.SUCCESS n false)

/-! Inline transforms (R230 to R234). -/

def xfEspOut : Nat := 1
def xfEspIn : Nat := 2
def xfTlsOut : Nat := 3
def xfTlsIn : Nat := 4

def entryXform (e : Nat) : Nat := bitsOf e 19 16
def entryLabel (e : Nat) : Nat := bitsOf e 383 256
def entryState (e : Nat) : Nat := bitsOf e 511 384
def entryHdr (e : Nat) : Nat := bitsOf e 279 272
def entryEsn (e : Nat) : Bool := bitOf e 280

/-- The state of a handle that a job uses (R194, R232): the in-flight table, else a write-back on its way, else the entry. -/
def State.flowState (s : State) (r : CatRead) : Nat :=
  let live := s.catEntry r.handle
  let gen := bitsOf r.entry 15 12
  if bitsOf live 15 12 ≠ gen then entryState r.entry
  else match (s.cat.writebacks.filter (fun w => decide (w.handle = r.handle ∧ w.gen = gen) && w.state.isSome)).getLast? with
    | some w => w.state.getD 0
    | none => entryState live

def State.flight? (s : State) (k h : Nat) : Option InFlight := s.cipher.inflight.find? (fun e => decide (e.slice = k ∧ e.handle = h))

/-- The in-flight entries of slice k in use. -/
def State.flights (s : State) (k : Nat) : Nat := (s.cipher.inflight.filter (fun e => decide (e.slice = k))).length

/-- The entry a new job of a handle uses: the table's, or a new one from the handle's state; none when the table of 256 is full. -/
def State.flightFor (s : State) (k : Nat) (r : CatRead) : Option InFlight :=
  match s.flight? k r.handle with
  | some e => some e
  | none =>
    if 256 ≤ s.flights k then none
    else some { slice := k, handle := r.handle, seq := bitsOf (s.flowState r) 63 0, window := bitsOf (s.flowState r) 127 64, jobs := 0 }

def State.putFlight (s : State) (e : InFlight) : State :=
  let rest := s.cipher.inflight.filter (fun x => !(decide (x.slice = e.slice ∧ x.handle = e.handle)))
  let s1 := { s with cipher.inflight := if e.jobs = 0 then rest else rest ++ [e] }
  s1.peakFld (F.INFLIGHT_PEAK e.slice) (s1.flights e.slice)

/-- The 64-bit ESP sequence number of a received header (RFC 4303, appendix A): with ESN, the one nearest the highest accepted. -/
def espSeq (esn : Bool) (high lo : Nat) : Nat :=
  if !esn then lo
  else
    let th := high / 2 ^ 32
    let tl := high % 2 ^ 32
    if 63 ≤ tl then (if tl - 63 ≤ lo then th else th + 1) * 2 ^ 32 + lo
    else if 2 ^ 32 + tl - 63 ≤ lo ∧ 0 < th then (th - 1) * 2 ^ 32 + lo
    else th * 2 ^ 32 + lo

/-- Is a sequence number a replay: at or below highest − 64, or marked (R231, R233)? -/
def espReplay (high window seq : Nat) : Bool :=
  if high < seq then false else decide (64 ≤ high - seq) || bitOf window (high - seq)

/-- The window after seq is accepted. -/
def espAccept (high window seq : Nat) : Nat × Nat :=
  if high < seq then (seq, (window * 2 ^ (seq - high) + 1) % 2 ^ 64)
  else (high, if bitOf window (high - seq) then window else window + 2 ^ (high - seq))

/-- The ESP layer's offset, if the frame has one. -/
def Frame.espOff (f : Frame) : Option Nat :=
  ((List.range 8).find? (fun i => decide (f.vec.layerProto.getD i 0 = 0x08))).map (fun i => f.vec.layerOff.getD i 255)

/-- Where the IP datagram of layer i ends in the frame. -/
def Frame.ipEnd (f : Frame) (i : Nat) : Nat :=
  let o := f.vec.layerOff.getD i 255
  let p := f.vec.layerProto.getD i 0
  if p = 0x02 then min f.data.length (o + beAt f.data (o + 2) 2)
  else if p = 0x03 then min f.data.length (o + 40 + beAt f.data (o + 4) 2)
  else f.data.length

/-- The TCP sequence number, and start and length of the TCP payload, of a received frame (R234). -/
def Frame.tcp? (f : Frame) : Option (Nat × Nat × Nat) :=
  let l4 := if f.vec.layerProto.getD 6 0 = 0x05 then some 6 else if f.vec.layerProto.getD 2 0 = 0x05 then some 2 else none
  match l4 with
  | none => none
  | some i =>
    let o := f.vec.layerOff.getD i 255
    let p := f.vec.layerOff.getD 7 255
    if p = 255 then none else some (beAt f.data (o + 4) 4, p, f.ipEnd (i - 1) - p)

/-- The material of a bound record: key, salt or IV. -/
def boundKey (m : List Byte) : List Byte := if bitOf (leAt m 44 1) 0 then m.take 32 else m.take 16

/-- The label of an inline transform: purpose 0x01, the entry's LABEL and handle (R223). -/
def inlineLabel (r : CatRead) : List Byte := contextLabel (entryLabel r.entry) r.handle 1 0

/-- A frame at its transform gets its key and joins the dispatch queue; a failure drops it (R220, R230, R245). -/
def State.inlineStart (s : State) (f : Frame) (r : CatRead) : State :=
  let k := f.slice
  match s.cipherDown k with
  | some st => s.dropFrame f st
  | none =>
    match s.needKey k (2 * f.id) (bitsOf r.entry 22 20) (inlineLabel r) with
    | (s1, .wait) => s1
    | (s1, .fail st) => s1.dropFrame f st
    | (s1, .ready key) =>
      if s1.cipher.jobs.any (fun j => decide (j.src = .inline f.id (entryXform r.entry))) then s
      else if s1.queueFull k then s
      else
        let j : CipherJob := { id := s1.cipher.nextJob, slice := k, src := .inline f.id (entryXform r.entry), slot := bitsOf r.entry 22 20,
                               label := inlineLabel r, key := key, tag := true }
        (match s1.getTag k noInst (s1.deadlineOf f.dlClass f.begun) (2 * f.id) with
        | (_, false) => (s.getTag k noInst (s.deadlineOf f.dlClass f.begun) (2 * f.id)).1
        | (s2, true) => s2.queueCipher j (s2.deadlineOf f.dlClass f.begun))

/-- A whole frame at its transform with this code; one whose job is queued already waits. -/
def State.inlineFrame (s : State) (id xform : Nat) : Option (Frame × CatRead) :=
  match s.frame? id with
  | none => none
  | some f =>
    match f.looked with
    | none => none
    | some r =>
      if f.stage = .transform ∧ f.whole = true ∧ entryXform r.entry = xform ∧
          s.cipher.jobs.any (fun j => decide (j.src = .inline id xform)) = false then some (f, r) else none

/-- The frame goes on from its transform. -/
def State.transformed (s : State) (f : Frame) : State :=
  let f1 := { f with stage := .steered }
  (s.setFrame f1).steer f1

/-- ESP_OUT (R230, R232, R233): an outbound ESP frame asks for its key and a pair; its number is assigned when it is dispatched. -/
def execEspOut (frame : Nat) (s : State) : Host.Outcome State Fault Refusal := whenSlices s <|
  match s.inlineFrame frame xfEspOut with
  | none => .next s
  | some (f, r) => .next (s.inlineStart f r)

/-- ESP_IN (R230 to R233): the replay window is checked before decryption; a replay, or a frame without an ESP layer, is dropped. -/
def execEspIn (frame : Nat) (s : State) : Host.Outcome State Fault Refusal := whenSlices s <|
  match s.inlineFrame frame xfEspIn with
  | none => .next s
  | some (f, r) =>
    match f.espOff, s.flightFor f.slice r with
    | none, _ => .next (s.dropFrame f 0)
    | some _, none => .next s
    | some o, some e =>
      let seq := espSeq (entryEsn r.entry) e.seq (beAt f.data (o + 4) 4)
      if espReplay e.seq e.window seq ∨ e.inbound.contains seq then .next ((s.incFld (F.CIPHER_REPLAY f.slice)).dropFrame f St.CIPHER_REPLAY)
      else .next (s.inlineStart f r)

/-- TLS_OUT (R230, R232, R234). -/
def execTlsOut (frame : Nat) (s : State) : Host.Outcome State Fault Refusal := whenSlices s <|
  match s.inlineFrame frame xfTlsOut with
  | none => .next s
  | some (f, r) => .next (s.inlineStart f r)

/-- Does a received frame hold exactly one whole TLS record, in sequence (R234)? Its start and length. -/
def State.tlsRecord (s : State) (f : Frame) (r : CatRead) : Option (Nat × Nat) :=
  match f.tcp?, s.flightFor f.slice r with
  | some (seq, p, n), some e =>
    if 5 ≤ n ∧ n = 5 + beAt f.data (p + 3) 2 ∧ 21 ≤ n ∧ seq = e.window % 2 ^ 32 then some (p, n) else none
  | _, _ => none

/-- TLS_IN (R232, R234): decrypts an in-sequence whole record; any other frame passes unchanged. A record waits for an earlier one of its handle, and for an
entry of a full in-flight table. -/
def execTlsIn (frame : Nat) (s : State) : Host.Outcome State Fault Refusal := whenSlices s <|
  match s.inlineFrame frame xfTlsIn with
  | none => .next s
  | some (f, r) =>
    if (s.flight? f.slice r.handle).isSome then .next s
    else if (s.flightFor f.slice r).isNone then .next s
    else if s.cipher.jobs.any (fun j => decide (j.slice = f.slice ∧ j.label = inlineLabel r)) then .next s
    else match s.tlsRecord f r with
      | none => .next ((s.incFld (F.CIPHER_TLS_PASSTHRU f.slice)).transformed f)
      | some _ => .next (s.inlineStart f r)

/-! Dispatch (R232, R245, R247). -/

/-- The pairs of slice k that are ONLINE and idle. -/
def State.freePairs (s : State) (k : Nat) : List Nat :=
  (List.range 10).filter (fun x => decide (s.pairState k x = pairOnline) && !s.cipher.jobs.any (fun j => decide (j.slice = k ∧ j.pair = some x)))

/-- Put a job on a pair. -/
def State.runOn (s : State) (j : CipherJob) (x : Nat) : State :=
  let j1 : CipherJob := { j with pair := some x }
  ({ s with cipher.jobs := s.cipher.jobs.map (fun y => if y.id = j.id then j1 else y),
            arb.waiting := s.arb.waiting.filter (fun r => decide (r.work ≠ QWork.job j.id)) } : State).pmuUnc j.slice 0x12 1 {}

/-- Does work of slice k wait for an entry of the full in-flight table (R232)? -/
def State.dispatchWaits (s : State) (k : Nat) : Bool :=
  decide (256 ≤ s.flights k) && s.eth.frames.any (fun e => decide (e.2.slice = k ∧ e.2.stage = .transform) && e.2.whole &&
    (match e.2.looked with
      | some r => decide (1 ≤ entryXform r.entry ∧ entryXform r.entry ≤ 4) && (s.flight? k r.handle).isNone
      | none => false))

/-- What stops an inline job at its dispatch: it waits for a table entry, its sequence is exhausted, or its number is already in flight. -/
inductive SeqStop where
  | wait | exhausted | replay
  deriving DecidableEq, Repr

/-- The number an inline job takes at dispatch and its updated in-flight entry, or what stops it (R232 to R234). -/
def State.takeSeq (s : State) (k xform : Nat) (f : Frame) (r : CatRead) : Except SeqStop (InFlight × Nat) :=
  match s.flightFor k r with
  | none => .error .wait
  | some e =>
    if xform = xfEspOut ∨ xform = xfTlsOut then
      let lim := if xform = xfEspOut ∧ !entryEsn r.entry then 2 ^ 32 - 1 else 2 ^ 64 - 1
      if lim ≤ e.seq then .error .exhausted else .ok ({ e with seq := e.seq + 1, jobs := e.jobs + 1 }, e.seq + 1)
    else if xform = xfEspIn then
      let seq := espSeq (entryEsn r.entry) e.seq (beAt f.data (f.espOff.getD 0 + 4) 4)
      if e.inbound.contains seq ∨ espReplay e.seq e.window seq then .error .replay
      else .ok ({ e with jobs := e.jobs + 1, inbound := e.inbound ++ [seq] }, seq)
    else .ok ({ e with jobs := e.jobs + 1 }, e.seq)

/-- Dispatch one job to a free pair of its slice. -/
def State.dispatchJob (s : State) (j : CipherJob) (x : Nat) : State :=
  match j.src with
  | .ring _ _ => s.runOn j x
  | .inline id xform =>
    match s.frame? id with
    | none => s.failCipher j 0
    | some f =>
      match f.looked with
      | none => s.failCipher j 0
      | some r =>
        match s.takeSeq j.slice xform f r with
        | .error .wait => s
        | .error .replay => (s.incFld (F.CIPHER_REPLAY j.slice)).failCipher j St.CIPHER_REPLAY
        | .error .exhausted => (s.incFld (F.CIPHER_SEQ_EXHAUSTED j.slice)).failCipher j St.CIPHER_SEQ_EXHAUSTED
        | .ok (e, seq) => (s.putFlight e).runOn { j with seq := seq } x

/-! The end of a job (R242, R243). -/

/-- The new bytes of a transformed frame, or the verdict that its tag fails (R233, R234). -/
def inlineOutput (xform : Nat) (f : Frame) (r : CatRead) (m : List Byte) (seq : Nat) (rec? : Option (Nat × Nat)) : Option (List Byte) :=
  let key := boundKey m
  let d := f.data
  if xform = xfEspOut then
    let o := entryHdr r.entry
    let hdr := slice d o 4 ++ beBytes 4 seq ++ beBytes 8 seq
    let aad := slice d o 4 ++ (if entryEsn r.entry then beBytes 8 seq else beBytes 4 seq)
    let g := gcmEnc key (slice m 32 4 ++ beBytes 8 seq) aad (slice d (o + 16) (d.length - 16 - (o + 16)))
    some (d.take o ++ hdr ++ g.1 ++ g.2)
  else if xform = xfEspIn then
    let o := f.espOff.getD 0
    let aad := slice d o 4 ++ (if entryEsn r.entry then beBytes 8 seq else slice d (o + 4) 4)
    (gcmDec key (slice m 32 4 ++ slice d (o + 8) 8) aad (slice d (o + 16) (d.length - 16 - (o + 16))) (d.drop (d.length - 16))).map
      (fun p => d.take (o + 16) ++ p)
  else
    let nonce := xorB (slice m 32 12) (beBytes 12 seq)
    if xform = xfTlsOut then
      let o := entryHdr r.entry
      let g := gcmEnc key nonce (slice d o 5) (slice d (o + 5) (d.length - 16 - (o + 5)))
      some (d.take (o + 5) ++ g.1 ++ g.2)
    else
      let p := (rec?.getD (0, 0)).1
      let n := (rec?.getD (0, 0)).2
      (gcmDec key nonce (slice d p 5) (slice d (p + 5) (n - 21)) (slice d (p + n - 16) 16)).map (fun t => splice d (p + 5) t)

/-- Payload bytes of a job, for CIPHER_BYTES. -/
def inlineBytes (xform : Nat) (f : Frame) (r : CatRead) (rec? : Option (Nat × Nat)) : Nat :=
  if xform = xfEspOut then f.data.length - 32 - entryHdr r.entry
  else if xform = xfEspIn then f.data.length - 32 - f.espOff.getD 0
  else if xform = xfTlsOut then f.data.length - 21 - entryHdr r.entry
  else (rec?.getD (0, 21)).2 - 21

/-- Take a job off the complex; its tag is free. -/
def State.endCipher (s : State) (j : CipherJob) : State :=
  State.cipherTag { s with cipher.jobs := s.cipher.jobs.filter (fun x => decide (x.id ≠ j.id)) } j

/-- Count a job that ended on a pair. -/
def State.countCipher (s : State) (k x n : Nat) : State :=
  ((s.incFld (F.CIPHER_JOBS k)).incFld (F.PAIR_JOBS k x)).addFld (F.CIPHER_BYTES k) n

/-- How a unit's own work on the pairs ends. -/
inductive PairRes where
  | ready (t : State)
  | wait
  | fail (status : Nat) (t : State)
  deriving DecidableEq, Repr

/-- A unit's own work on a pair of slice k (a storage block, a seal, a KRA payload, R226): it runs on one of the slice's ONLINE pairs, waits while none is,
and is refused while the complex takes no work (R218, R220, R245). Both cores compute it; a mismatch that PAIR_JOB_DONE has announced for the pair releases
nothing (R242, R244). -/
def State.unitCipher (s : State) (k n : Nat) : PairRes :=
  match s.cipherDown k with
  | some st => .fail st s
  | none =>
    if s.cipherWaits k then .wait
    else
      let l := (List.range 10).filter (fun x => decide (s.pairState k x = pairOnline))
      let x := s.pickPair l
      if s.cipher.unitBad.contains (k, x) then
        .fail St.CIPHER_CHECK_FAIL (State.pairMismatch { (s.draw).countCipher k x n with cipher.unitBad := s.cipher.unitBad.erase (k, x) } k x)
      else .ready ((s.draw).countCipher k x n)

/-- Release the output of a ring job (R238, R240, R242). -/
def State.ringCipherDone (s : State) (j : CipherJob) (x q id : Nat) : State :=
  let k := j.slice
  match s.jobById k q id with
  | none => s.endCipher j
  | some r =>
    let i := s.srInst k q
    let n := r.total - r.cAad
    match cipherOutput r j.key j.data with
    | .error st =>
      (((s.endCipher j).countCipher k x n).incFld (F.CIPHER_AUTH_FAIL k)).finish r st 0 false
    | .ok out =>
      match s.dmaWrite k i r.cOut (s.jobOp 5 r) out with
      | (s1, .wait) => s1
      | (s1, .fail st) => ((s1.endCipher j).countCipher k x n).finish r st 0 false
      | (s1, .ok _) => ((s1.endCipher j).countCipher k x n).finish r St.SUCCESS (out.length % 2 ^ 32) false

/-- Settle the in-flight entry of an inline job and write its STATE back (R194, R231, R232). -/
def State.flightDone (s : State) (k xform : Nat) (r : CatRead) (seq : Nat) (good : Bool) (recLen : Nat) : State :=
  match s.flight? k r.handle with
  | none => s
  | some e =>
    let e1 : InFlight := { e with jobs := e.jobs - 1, inbound := e.inbound.erase seq }
    let e2 : InFlight :=
      if xform = xfEspIn ∧ good then let w := espAccept e.seq e.window seq; { e1 with seq := w.1, window := w.2 }
      else if xform = xfTlsIn ∧ good then { e1 with seq := (e.seq + 1) % 2 ^ 64, window := (e.window + recLen) % 2 ^ 32 }
      else e1
    let st := e2.seq % 2 ^ 64 + 2 ^ 64 * (if xform = xfEspOut ∨ xform = xfTlsOut then 0 else e2.window)
    let wb : CatWb := { handle := r.handle, bytes := 0, gen := bitsOf r.entry 15 12, counts := false, state := some st }
    let s1 := s.putFlight e2
    { s1 with cat.writebacks := s1.cat.writebacks ++ [wb] }

/-- Release an inline job's frame: the second window check, the verdict, the new bytes (R233, R234, R242). -/
def State.inlineDone (s : State) (j : CipherJob) (x id xform : Nat) : State :=
  let k := j.slice
  match s.frame? id with
  | none => s.endCipher j
  | some f =>
    match f.looked with
    | none => s.endCipher j
    | some r =>
      let rec? := match f.tcp? with | some (_, p, n) => some (p, n) | none => none
      let s1 := (s.endCipher j).countCipher k x (inlineBytes xform f r rec?)
      let e := (s.flight? k r.handle).getD { slice := k, handle := r.handle, seq := 0, window := 0, jobs := 0 }
      match inlineOutput xform f r j.key j.seq rec? with
      | none =>
        ((s1.flightDone k xform r j.seq false 0).incFld (F.CIPHER_AUTH_FAIL k)).dropFrame f St.CIPHER_AUTH_FAIL
      | some d =>
        if xform = xfEspIn ∧ espReplay e.seq e.window j.seq then
          ((s1.flightDone k xform r j.seq false 0).incFld (F.CIPHER_REPLAY k)).dropFrame f St.CIPHER_REPLAY
        else (s1.flightDone k xform r j.seq true (rec?.getD (0, 0)).2).transformed { f with data := d, arrived := d.length }

/-- PAIR_JOB_DONE (R242 to R245): pair x of a slice ends its job; the cores' results are `equal` or not. A mismatch releases nothing: the
pair and the cache entry the job used are erased, and the job ends with CIPHER_CHECK_FAIL. Work of KRA, the storage front end and the seals runs within its
own command, so a mismatch at a pair that holds no queued job is that of the next such work on it (DESIGN CHOICE, log entry 51). -/
def execPairJobDone (slice pair : Nat) (equal : Bool) (s : State) : Host.Outcome State Fault Refusal := whenSlices s <|
  match s.cipher.jobs.find? (fun j => decide (j.slice = slice ∧ j.pair = some pair)) with
  | none =>
    .next (if equal ∨ 4 ≤ slice ∨ 10 ≤ pair ∨ s.cipher.unitBad.contains (slice, pair) ∨ s.pairState slice pair ≠ pairOnline then s
      else { s with cipher.unitBad := s.cipher.unitBad ++ [(slice, pair)] })
  | some j =>
    if equal then
      .next (match j.src with
        | .ring q id => s.ringCipherDone j pair q id
        | .inline id xform => s.inlineDone j pair id xform)
    else
      let s0 := match j.src with
        | .inline id xform => (match (s.frame? id).bind (fun f => f.looked) with
          | some r => s.flightDone slice xform r j.seq false 0
          | none => s)
        | _ => s
      let s1 := s0.failCipher j St.CIPHER_CHECK_FAIL
      let s2 := s1.setCache slice ((s1.kc slice).filter (fun e => !(decide (e.slot = j.slot ∧ e.label = j.label))))
      .next (s2.pairMismatch slice pair)

/-! Health tests, reseeds, tamper and self-tests (R218 to R220, R241, R244 to R246). -/

/-- RNG_STARTUP_TEST (R218, R220): 1,024 samples pass; every DRBG is seeded and dispatch resumes. -/
def execRngStartupTest (s : State) : Host.Outcome State Fault Refusal := whenSlices s <|
  if s.rngState = rngOk then .next s
  else .next ({ s with cipher.drbg := List.replicate 4 (0, s.time.mono) }.setFld F.RNG_STATUS_STATE rngOk |>.addFld F.RNG_RESEEDS 5)

/-- The frames of every slice that wait for a transform. -/
def State.transforming (s : State) : List Frame := (s.eth.frames.map (fun e => e.2)).filter (fun f => decide (f.stage = .transform))

/-- RNG_HEALTH_FAIL (R220): every DRBG stops; queued jobs end, running ones go on, inline work is dropped. -/
def execRngHealthFail (s : State) : Host.Outcome State Fault Refusal := whenSlices s <|
  let s1 := ((s.setFld F.RNG_STATUS_STATE rngFailed).satFld F.RNG_HEALTH_FAIL 1).raise F.ROOT_INT_STATUS_RNG_FAIL_SEEN R.ROOT_INT_ENABLE
  let s2 := s1.failCipherAll (fun j => j.pair.isNone) St.CIPHER_RNG_UNAVAILABLE
  .next ((s2.transforming.filter (fun f => !s2.cipher.jobs.any (fun j => match j.src with | .inline id _ => decide (id = f.id) | _ => false))).foldl
    (fun t f => t.dropFrame f St.CIPHER_RNG_UNAVAILABLE) s2)

/-- DRBG_RESEED (R219): after 2^20 requests or 1 s. -/
def execDrbgReseed (slice : Nat) (s : State) : Host.Outcome State Fault Refusal := whenSlices s <|
  let d := s.cipher.drbg.getD slice (0, 0)
  if 4 ≤ slice ∨ s.rngState ≠ rngOk ∨ (d.1 < 2 ^ 20 ∧ s.time.mono < d.2 + ticksPerSec) then .next s
  else .next ({ s with cipher.drbg := s.cipher.drbg.set slice (0, s.time.mono) }.incFld F.RNG_RESEEDS)

/-- MASK_RESEED (R241): a core's mask stream is reseeded from the slice DRBG every 65,536 fabric cycles. How many bytes a reseed draws is
not stated. -/
def execMaskReseed (slice pair core : Nat) (s : State) : Host.Outcome State Fault Refusal := whenSlices s <|
  let key := 32 * slice + 2 * pair + core
  let at' := Map.get (fun _ => 0) s.cipher.maskAt key
  if 4 ≤ slice ∨ 10 ≤ pair ∨ 2 ≤ core ∨ s.rngState ≠ rngOk ∨ s.time.mono < at' + 65536 then .next s
  else
    let r := s.drbg slice (Config.unstated s.freeCtr % 64)
    .next { r.1 with cipher.maskAt := Map.put (fun _ => 0) r.1.cipher.maskAt key s.time.mono }

/-- TAMPER (R244): detectors trip (bits as TAMPER_STATUS). The root key store, every cache, pair and derivation unit are erased, with every key that a job or a
result still held; an erase that was waiting is thereby over (R217). -/
def execTamper (detectors : Nat) (s : State) : Host.Outcome State Fault Refusal := whenSlices s <|
  if detectors % 16 = 0 then .next s
  else
    let s1 := s.setFld F.TAMPER_STATUS (s.fld F.TAMPER_STATUS ||| detectors % 16)
    let s2 := ((s1.satFld F.TAMPER_ERASES 1).raise F.ROOT_INT_STATUS_TAMPER_SEEN R.ROOT_INT_ENABLE).failCipherAll
      (fun _ => true) St.CIPHER_KEYS_ERASED
    let s3 := (List.range 8).foldl (fun t n =>
      match Map.find? t.cipher.keys n with
      | none => t
      | some key =>
        let u := ({ t with cipher.keys := Map.erase t.cipher.keys n }.setFld (F.ROOT_SLOT_STATE n) slotEmpty).incFld (F.ROOT_SLOT_GEN n)
        if key.eraseWaits then State.mgmtAnswer { u with cipher.nor := u.cipher.nor.filter (fun c => decide (c.slot ≠ n)) } 0x0214 (mkReply St.SUCCESS [] 0)
        else u) s2
    let s4 := ([0, 1, 2, 3] : List Nat).foldl (fun t k => (t.eraseSlice k St.CIPHER_KEYS_ERASED).alarmInfo k (t.fld (F.CIPHER_ALARM_INFO_PAIR k)) 4) s3
    .next { s4 with cipher.tamperAt := some s.time.mono, cipher.unitBad := [],
                    cipher.keyReqs := s4.cipher.keyReqs.map (fun r => { r with result := some (St.CIPHER_KEYS_ERASED, []) }) }

/-- The automatic reloads of the last 24 hours (R246). -/
def State.recentReloads (s : State) : List Nat := s.cipher.reloads.filter (fun t => decide (s.ftSec < t + 86400))

/-- TAMPER_RELOAD (R246): a second after the last detector was out of its window, slot 0 is reloaded and slots 1 to 7 restored (but those
in `bad`, whose sealed copy fails its tag), at most three times in 24 h. -/
def execTamperReload (bad : List Nat) (s : State) : Host.Outcome State Fault Refusal := whenSlices s <|
  match s.cipher.tamperAt with
  | none => .next s
  | some t0 =>
    let l := s.recentReloads
    if s.time.mono < t0 + ticksPerSec then .next s
    else if 3 ≤ l.length then .next (s.setFld F.ROOT_RELOADS (min 3 l.length))
    else
      let s1 := (s.loadDeviceRoot).restoreSlots bad
      .next ({ s1 with cipher.tamperAt := none, cipher.reloads := l ++ [s.ftSec] }.setFld F.ROOT_RELOADS (l.length + 1))

/-- PAIR_SELFTEST_DONE (R245). -/
def execPairSelftestDone (slice pair : Nat) (pass : Bool) (s : State) : Host.Outcome State Fault Refusal := whenSlices s <|
  if 4 ≤ slice ∨ 10 ≤ pair ∨ s.pairState slice pair ≠ pairSelftest then .next s
  else if pass then .next (s.setPair slice pair pairOnline)
  else
    let s1 := (s.setPair slice pair pairFailed).raise (F.CIPHER_INT_STATUS_PAIR_FAILED_SEEN slice) (R.CIPHER_INT_ENABLE slice)
    .next (s1.offline slice)

/-- CIPHER_SELFTEST (R245): a Keeper write; each bit x sets a FAILED pair to SELFTEST. -/
def execCipherSelftest (agent : Agent) (slice : Nat) (value : Word) (s : State) : Host.Outcome State Fault Refusal := whenSlices s <|
  if 4 ≤ slice ∨ agent ≠ .keeper then .next s
  else .next ((List.range 10).foldl (fun t x =>
    if bitOf value.toNat x ∧ t.pairState slice x = pairFailed then t.setPair slice x pairSelftest else t) s)

end Sys2Proof.Machine
end

