-- ==== Sys2Proof/Machine/Points.lean ====
section
/-!
DEFINITION. The points without back-off: packet buffer pool, operation tag pool, HBM scheduler and cipher dispatch (R34, R36 to R38, R73, R74,
R78, R83, R247, R460).
-/

namespace Sys2Proof.Machine

/-- The requests waiting at a point of slice k, the nearest deadline first, equal ones in arrival order (R74, R78, R83). -/
def State.rankedReqs (s : State) (p : QPoint) (k : Nat) : List QReq :=
  (s.arb.waiting.filter (fun r => decide (r.point = p ∧ r.slice = k))).foldl
    (fun l r => insertBy (fun x => relDeadline s.time.mono x.deadline) r l) []

/-- A request leaves its queue. -/
def State.unqueue (s : State) (r : QReq) : State :=
  match takeFirst (fun x => decide (x = r)) s.arb.waiting with
  | some (_, rest) => { s with arb.waiting := rest }
  | none => s

/-- A waiting cell request is granted. -/
def State.grantWaiting (s : State) (r : QReq) (k c : Nat) (f : Frame) : State :=
  ((s.unqueue r).grantCell k c { f with cellWait := f.cellWait - 1 }).countAdmit k f.id

/-- One cell request of the cycle (R36 to R38); `contends` says that its class could have a shared cell when the cycle began. -/
def State.decideCell (s : State) (contends : Nat → Bool) (r : QReq) : State :=
  match r.work with
  | .cell c id =>
    let k := r.slice
    if !s.arb.waiting.contains r then s
    else match s.frame? id with
      | none => s.unqueue r
      | some f =>
        match s.cellAnswer k c with
        | .refuse =>
          let s1 := if contends c ∧ s.sharedFree k = 0 then s.incFld (F.PB_SHARED_LOSS k) else s
          if c = 2 then s1 else s1.refuseFrame k c f
        | _ => s.grantWaiting r k c f
  | _ => s

/-- The packet buffer pool of slice k (R36, R37). -/
def State.decidePool (s : State) (k : Nat) : State :=
  let contends := fun c => decide (s.cellAnswer k c ≠ .refuse)
  (s.rankedReqs .pbPool k).foldl (fun t r => t.decideCell contends r) s

/-- May the operation that makes a request have a tag of slice k: its instance is below OPS_MAX (R460)? -/
def State.mayTag (s : State) (k : Nat) (r : QReq) : Bool :=
  match r.work with
  | .tag i _ => s.belowOps k i
  | _ => false

/-- The tag pool of slice k (R34, R73, R460): one free tag goes to the waiting operation with the nearest deadline; an instance at OPS_MAX waits. -/
def State.decideTags (s : State) (k : Nat) : State :=
  match (s.rankedReqs .tagPool k).find? (fun r => s.mayTag k r), decide (s.fld (F.TAG_INUSE k) < 16384) with
  | some r, true =>
    match r.work with
    | .tag i op =>
      let u := (s.unqueue r).takeTag k i
      { u with arb.tagGrants := u.arb.tagGrants ++ [(k, i, op)] }
    | _ => s
  | _, _ => s

/-- The tie pointer of the HBM scheduler of slice k (k) or of its cipher dispatch (4 + k) (R83). Before any tie has been decided it is 0, so that SOURCE 1
follows first, as at every arbiter (DESIGN CHOICE, log entry 1: the spec gives no first last tie-winner). -/
def State.tiePtr (s : State) (key : Nat) : Nat := Map.get (fun _ => 0) s.arb.ties key

/-- Accesses reach the HBM scheduler of stack k and wait there; a request's `stream` is the address it accesses. -/
def State.queueHbm (s : State) (k : Nat) (reqs : List ArbReq) : State :=
  { s with arb.waiting := s.arb.waiting ++ reqs.map (fun r =>
      ({ point := .hbm, slice := k, deadline := r.deadline, source := r.source, work := .access r.stream r.cls } : QReq)) }

/-- The address of an HBM access that waits. -/
def QReq.addr (r : QReq) : Nat :=
  match r.work with
  | .access a _ => a
  | _ => 0

/-- Its class. -/
def QReq.accessClass (r : QReq) : Option Nat :=
  match r.work with
  | .access _ c => some c
  | _ => none

/-- The HBM scheduler of stack k decides among the accesses that wait and that JESD238 timing permits: the nearest deadline, ties by the pointer rule over
SOURCE, is granted; a refresh that is due comes before every access (R74, R78, R83). -/
def State.decideHbm (s : State) (k : Nat) (timed : List Nat) (refresh : Bool) : State :=
  let l := (s.rankedReqs .hbm k).filter (fun r => timed.contains r.addr)
  match refresh, l with
  | false, b :: _ =>
    let tied := l.filter (fun r => decide (relDeadline s.time.mono r.deadline = relDeadline s.time.mono b.deadline))
    (match leastBy (fun r => (tieRank (s.tiePtr k) r.source : Int)) tied with
    | none => s
    | some w =>
      let s1 := s.unqueue w
      { s1 with arb.hbmGrants := s1.arb.hbmGrants ++ [w.addr],
                arb.ties := if 1 < tied.length then Map.put (fun _ => 0) s1.arb.ties k w.source else s1.arb.ties })
  | _, _ => s

/-- A cycle in which the access with the nearest deadline waits for its bank counts as HBM_BANK_BUSY (R546). -/
def State.bankBusy (s : State) (k : Nat) (timed : List Nat) (refresh : Bool) : State :=
  match refresh, s.rankedReqs .hbm k with
  | false, r :: _ =>
    if timed.contains r.addr then s else s.pmuUnc k 0x08 1 { cls := r.accessClass, master := some r.source }
  | _, _ => s

/-- Is a waiting request of the cipher queue not behind an earlier frame of its own Flow Handle (R232)? Frames number themselves as they arrive. -/
def State.firstOfHandle (s : State) (k : Nat) (r : QReq) : Bool :=
  match r.work with
  | .job id =>
    match s.cipher.jobs.find? (fun j => decide (j.id = id)) with
    | none => true
    | some j => match j.src with
      | .ring _ _ => true
      | .inline f _ => s.cipher.jobs.all (fun y => match y.src with
          | .inline g _ => !(decide (y.slice = k ∧ leAt y.label 16 3 = leAt j.label 16 3 ∧ g < f) && y.pair.isNone)
          | .ring _ _ => true)
  | _ => true

/-- The job of the cipher queue of slice k that is dispatched next: nearest deadline, ties by the pointer rule over SOURCE (R83). -/
def State.cipherWinner (s : State) (k : Nat) : Option (CipherJob × QReq × Bool) :=
  let l := (s.rankedReqs .cipher k).filter (fun r => s.firstOfHandle k r)
  match l with
  | [] => none
  | b :: _ =>
    let tied := l.filter (fun r => decide (relDeadline s.time.mono r.deadline = relDeadline s.time.mono b.deadline))
    match leastBy (fun r => (tieRank (s.tiePtr (4 + k)) r.source : Int)) tied with
    | none => none
    | some w =>
      match w.work with
      | .job id => (s.cipher.jobs.find? (fun j => decide (j.id = id))).map (fun j => (j, w, decide (1 < tied.length)))
      | _ => none

/-- The cipher dispatch of slice k (R220, R245, R247): one job goes to one free ONLINE pair, while the generators run. -/
def State.decideCipher (s : State) (k : Nat) : State :=
  match s.cipherWinner k, s.freePairs k with
  | some (j, w, tied), x :: xs =>
    if s.rngState ≠ rngOk then s
    else
      let free := x :: xs
      let s1 := if tied then { s with arb.ties := Map.put (fun _ => 0) s.arb.ties (4 + k) w.source } else s
      (s1.draw).dispatchJob j (s.pickPair free)
  | _, _ => s

/-- QUEUED_POINT_DECISION (R74): the decision of a point of slice k in this fabric cycle, which has one: 0 packet buffer pool, 1 tag pool, 2 HBM scheduler
(whose cycle the operand gives), 3 cipher dispatch. A
request that arises after it waits for the next cycle's. -/
def execQueuedPointDecision (slice point : Nat) (cycle : PointCycle) (s : State) :
    Host.Outcome State Fault Refusal := whenSlices s <|
  if 4 ≤ slice ∨ 4 ≤ point ∨ s.arb.decided.contains (slice, point) then .next s
  else
    let s1 : State := { s with arb.decided := (slice, point) :: s.arb.decided }
    .next (match point with
      | 0 => s1.decidePool slice
      | 1 => s1.decideTags slice
      | 2 => ((s1.queueHbm slice cycle.reqs).bankBusy slice cycle.timed cycle.refresh).decideHbm slice cycle.timed cycle.refresh
      | _ => s1.decideCipher slice)

/-- The scrubber's read of the location at `addr`: good (0), corrected (1) or uncorrectable (2); `last` marks the last location of a stack's pass (R43). -/
def State.scrubRead (s : State) (addr severity : Nat) (last : Bool) : State :=
  let k := addr / (24 * gib)
  let a := addr / 8 * 8
  let s0 := s.hbmCount addr 64 0x06
  let s1 := if severity = 1 then s0.satFld (F.HBM_CE k) 1
    else if severity = 2 then
      let t := (s0.satFld (F.HBM_UE k) 1).setFld (F.HBM_ERR_ADDR k) addr
      { t with poisoned := if t.poisoned.contains (0, a) then t.poisoned else t.poisoned ++ [(0, a)] }.raise
        (F.ORG_INT_STATUS_HBM_UE_HIT k) (R.ORG_INT_ENABLE k)
    else s0
  if last then s1.incFld (F.HBM_SCRUB_PASS k) else s1

/-- HBM_SCRUB (R43, R44, R74, R76): the scrubber reads a location. Its access is a request of class 7 at the stack's scheduler: it waits there behind
others, or in a cycle whose decision has been made, and is then made when the scheduler has granted it. -/
def execHbmScrub (addr severity : Nat) (last : Bool) (s : State) : Host.Outcome State Fault Refusal := whenSlices s <|
  let k := addr / (24 * gib)
  if hbmSize ≤ addr then .next s
  else if s.arb.hbmGrants.contains addr then .next ({ s with arb.hbmGrants := s.arb.hbmGrants.erase addr }.scrubRead addr severity last)
  else if s.arb.waiting.any (fun r => decide (r.point = .hbm ∧ r.slice = k)) || s.arb.decided.contains (k, 2) then
    .next (if s.arb.waiting.any (fun r => decide (r.point = .hbm ∧ r.slice = k ∧ r.work = .access addr 7)) then s
      else s.queueHbm k [{ source := 27, deadline := s.deadline 7, cls := 7, stream := addr }])
  else .next ({ s with arb.decided := (k, 2) :: s.arb.decided }.scrubRead addr severity last)

end Sys2Proof.Machine
end

