-- ==== Sys2Proof/Machine/KraBase.lean ====
section
/-!
DEFINITION. Queue pairs: contexts and their cache, packets as bytes, sending, and the end of jobs (chapter 09: R250 to R263, R267, R270, R271,
R289, R290; R235).
-/

namespace Sys2Proof.Machine

/-! The queue-pair context (R254). -/

def qpReset : Nat := 0
def qpInit : Nat := 1
def qpActive : Nat := 2
def qpDrain : Nat := 3
def qpErr : Nat := 4

def cxState (c : Nat) : Nat := bitsOf c 2 0
def cxRole (c : Nat) : Nat := bitsOf c 3 3
def cxTransport (c : Nat) : Nat := bitsOf c 5 4
def cxClass (c : Nat) : Nat := bitsOf c 11 8
def cxSlot (c : Nat) : Nat := bitsOf c 14 12
def cxRecvEn (c : Nat) : Bool := bitOf c 15
/-- Payload bytes of a packet. -/
def cxMtu (c : Nat) : Nat := 256 * 2 ^ min (bitsOf c 18 16) 5
def cxInst (c : Nat) : Nat := bitsOf c 31 19
def cxSendSr (c : Nat) : Nat := bitsOf c 44 32
def cxRecvSr (c : Nat) : Nat := bitsOf c 57 45
def cxDestFed (c : Nat) : Nat := bitsOf c 63 58
def cxHandle (c : Nat) : Nat := bitsOf c 84 64
def cxDestHandle (c : Nat) : Nat := bitsOf c 105 85
def cxDestQp (c : Nat) : Nat := bitsOf c 125 106
def cxRetryLimit (c : Nat) : Nat := bitsOf c 131 128
def cxRnrLimit (c : Nat) : Nat := bitsOf c 135 132
def cxRetryTimeout (c : Nat) : Nat := max 1 (bitsOf c 151 136)
def cxRnrTimer (c : Nat) : Nat := max 1 (bitsOf c 167 152)
def cxMaxOut (c : Nat) : Nat := min 1024 (max 1 (bitsOf c 178 168))
def cxAckCoalesce (c : Nat) : Nat := max 1 (bitsOf c 191 184)
def cxLabel (c : Nat) : Nat := bitsOf c 383 256
def cxSeqNext (c : Nat) : Nat := bitsOf c 415 384
def cxSeqUnacked (c : Nat) : Nat := bitsOf c 447 416
def cxSeqExpected (c : Nat) : Nat := bitsOf c 479 448
def cxRsnNext (c : Nat) : Nat := bitsOf c 511 480
def cxTxCount (c : Nat) : Nat := bitsOf c 575 512
def cxRetryCount (c : Nat) : Nat := bitsOf c 579 576
def cxRnrCount (c : Nat) : Nat := bitsOf c 583 580

def cxSetState (c v : Nat) : Nat := setBits c 2 0 v
def cxSetErr (c v : Nat) : Nat := setBits c 599 584 v
def cxSetCounts (c retry rnr : Nat) : Nat := setBits (setBits c 579 576 retry) 583 580 rnr

/-- Bits [1023:704], which the device keeps for itself: what they hold where software can see them is not stated. -/
def cxWork (c v : Nat) : Nat := setBits c 1023 704 v

/-- The signed difference of two sequence numbers (R267). -/
def seqDiff (a b : Nat) : Int := signed 32 (unsigned 32 ((a : Int) - (b : Int)))

/-- Is sequence number a before b? -/
def seqLt (a b : Nat) : Bool := decide (seqDiff a b < 0)

def seqAdd (a n : Nat) : Nat := (a + n) % 2 ^ 32

def State.qpx (s : State) (qp : Nat) : QpX := Map.get (fun _ => {}) s.kra.qps qp
def State.setQpx (s : State) (qp : Nat) (x : QpX) : State := { s with kra.qps := Map.put (fun _ => {}) s.kra.qps qp x }

/-! The context cache (R256, R257). -/

def State.ctxCache (s : State) (k : Nat) : List (Nat × Nat) := s.kra.cache.getD k []

def State.setCtxCache (s : State) (k : Nat) (l : List (Nat × Nat)) : State :=
  { s with kra.cache := s.kra.cache.set k l }.setFld (F.KRA_CTX_RESIDENT k) l.length

/-- The cached context of a queue pair. -/
def State.qpCtx (s : State) (k qp : Nat) : Option Nat := ((s.ctxCache k).find? (fun e => decide (e.1 = qp))).map (fun e => e.2)

/-- Change a cached context; it becomes the newest used. -/
def State.putCtx (s : State) (k qp c : Nat) : State :=
  match takeFirst (fun e => decide (e.1 = qp)) (s.ctxCache k) with
  | some (_, rest) => s.setCtxCache k ((qp, c) :: rest)
  | none => s

/-- Has a frame at the KRA receive stage this queue pair (its entry's TARGET, R251)? -/
def Frame.kraQp (f : Frame) : Nat := match f.looked with | some r => bitsOf r.entry 67 48 | none => 2 ^ 20

/-- Is the context of a queue pair pinned (R256)? -/
def State.ctxPinned (s : State) (qp : Nat) : Bool :=
  let x := s.qpx qp
  !x.out.isEmpty || !x.reads.isEmpty || s.kra.accesses.any (fun a => decide (a.qp = qp)) ||
  s.kra.order.any (fun id => match s.frame? id with | some f => decide (f.stage = .kra ∧ f.kraQp = qp) | none => false)

/-- Where the context of a queue pair stands in the backing store: LOCATION and address. -/
def State.ctxPlace (s : State) (qp : Nat) : Nat × Nat :=
  (s.fld (F.KRA_CTX_MAP_LOCATION (qp / 4096)), s.fld (F.KRA_CTX_MAP_BASE (qp / 4096)) * 2 ^ 20 + 256 * (qp % 4096))

/-- The operation number under which a queue pair's requester asks for its key or a tag. -/
def kraOp (qp : Nat) : Nat := 2 ^ 48 + qp

/-- Write an evicted context back, under a tag (R34); false when it finds none, or the host side cannot take it now. -/
def State.ctxWriteBack (s : State) (k qp c : Nat) : State × Bool :=
  let img := leBytes 256 (cxWork c (Config.unstated s.freeCtr))
  match s.ctxPlace qp with
  | (1, a) => match s.getTag k noInst (s.deadline (s.unitClass 23)) (kraOp qp) with
    | (s1, false) => (s1, false)
    | (s1, true) => ((((s1.draw).hbmWrite a img).hbmCount a 256 0x07).giveTag k noInst, true)
  | (2, a) => match (s.draw).dmaWrite k 0 a (s.classOp 2 (s.unitClass 23) s.time.mono) img with
    | (s1, .wait) => (s1, false)
    | (s1, _) => (s1, true)
  | _ => (s.draw, true)

/-- Make room for one more context: none when every cached one is pinned (R256). -/
def State.ctxRoom (s : State) (k : Nat) : Option State :=
  let l := s.ctxCache k
  if l.length < 16384 then some s
  else match takeFirst (fun (e : Nat × Nat) => !s.ctxPinned e.1) l.reverse with
    | none => none
    | some (e, rest) =>
      match s.ctxWriteBack k e.1 e.2 with
      | (s1, true) => some ((s1.setCtxCache k rest.reverse).incFld (F.KRA_CTX_EVICT k))
      | (_, false) => none

/-- Put a context in the cache of slice k, as the newest. -/
def State.ctxInsert (s : State) (k qp c : Nat) : Option State := (s.ctxRoom k).map (fun t => t.setCtxCache k ((qp, c) :: t.ctxCache k))

/-- Ask for the context of a queue pair to be fetched, once. -/
def State.ctxFetch (s : State) (k qp : Nat) : State :=
  if s.kra.fetch.contains (k, qp) then s
  else { s with kra.fetch := s.kra.fetch ++ [(k, qp)] }.incFld (F.KRA_CTX_MISSES k)

/-! Packets as bytes (R258 to R263). -/

def flagOrdered : Nat := 12
def flagAckReq : Nat := 13
def flagFirst : Nat := 14
def flagLast : Nat := 15
def flagRetry : Nat := 16
def flagEvent : Nat := 17

/-- The 32-byte base header (R260). -/
def kraHeader (c qp fed : Nat) (p : KraPkt) : List Byte :=
  leBytes 32 (p.op + 0x100 + p.flags + 2 ^ 32 * cxDestHandle c + 2 ^ 64 * cxDestQp c + 2 ^ 96 * p.seq + 2 ^ 128 * qp +
    2 ^ 148 * fed + 2 ^ 160 * p.payload.length + 2 ^ 192 * cxTxCount c)

/-- Bytes of the extension of an opcode, with its FIRST and LAST flags (R261, R262). -/
def extBytes (op : Nat) (first last : Bool) : Nat :=
  match op with
  | 1 => 16
  | 2 => if last then (if first then 24 else 8) else 16
  | 4 => 24
  | 5 => 8
  | 6 => 8
  | 7 => 8
  | _ => 0

/-- The GCM IV of R235: the salt XOR direction bit and count. -/
def kraIv (key : List Byte) (role tx : Nat) : List Byte := xorB (slice key 32 12) (leBytes 12 (tx + 2 ^ 64 * role))

/-- The label of a queue pair's key (R223, purpose 0x02). -/
def kraLabel (c : Nat) : List Byte := contextLabel (cxLabel c) 0 2 0

/-- A packet, encrypted and authenticated (R263). -/
def kraSeal (key : List Byte) (c qp fed : Nat) (p : KraPkt) : List Byte :=
  let aad := kraHeader c qp fed p ++ p.ext
  let g := gcmEnc (key.take 32) (kraIv key (cxRole c) (cxTxCount c)) aad p.payload
  aad ++ g.1 ++ g.2

/-- The IPv4 header checksum. -/
def ip4Checksum (h : List Byte) : Nat := 65535 - onesSum 0 h

/-- The Ethernet frame that carries a KRA packet over UDP (R258). The IPv4 identification and flags, and the IPv6 flow label, are not stated:
`free` supplies them. -/
def kraFrame (c free : Nat) (pkt : List Byte) : List Byte :=
  let udpLen := pkt.length + 8
  let tag := if bitOf c 1381 then beBytes 2 0x8100 ++ beBytes 2 (bitsOf c 1399 1384) else []
  let eth := leBytes 6 (bitsOf c 1327 1280) ++ leBytes 6 (bitsOf c 1375 1328) ++ tag
  let udp0 := beBytes 2 (bitsOf c 1415 1400) ++ beBytes 2 (bitsOf c 1431 1416) ++ beBytes 2 udpLen
  if cxTransport c = 1 then
    let src := leBytes 4 (bitsOf c 1151 1024)
    let dst := leBytes 4 (bitsOf c 1279 1152)
    let h := fun sum => beBytes 1 0x45 ++ beBytes 1 (bitsOf c 1439 1432) ++ beBytes 2 (udpLen + 20) ++ beBytes 2 (free % 65536) ++
      beBytes 2 (free / 65536 % 2 * 0x4000) ++ beBytes 1 (bitsOf c 1447 1440) ++ beBytes 1 17 ++ beBytes 2 sum ++ src ++ dst
    eth ++ beBytes 2 0x0800 ++ h (ip4Checksum (h 0)) ++ udp0 ++ [0, 0] ++ pkt
  else
    let src := leBytes 16 (bitsOf c 1151 1024)
    let dst := leBytes 16 (bitsOf c 1279 1152)
    let h := beBytes 4 (6 * 2 ^ 28 + bitsOf c 1439 1432 * 2 ^ 20 + free % 2 ^ 20) ++ beBytes 2 udpLen ++ beBytes 1 17 ++
      beBytes 1 (bitsOf c 1447 1440) ++ src ++ dst
    let sum := onesSum 0 (src ++ dst ++ beBytes 4 udpLen ++ beBytes 4 17 ++ udp0 ++ [0, 0] ++ pkt)
    let ck := if sum = 65535 then 65535 else 65535 - sum
    eth ++ beBytes 2 0x86DD ++ h ++ udp0 ++ beBytes 2 ck ++ pkt

/-- A frame that the device itself makes leaves on device port n; on a port the mode does not have it is lost. -/
def State.ownFrame (s : State) (k n pcp : Nat) (data : List Byte) : State :=
  match s.portAt n with
  | none => s
  | some (k', p) =>
    let f : Frame := { id := s.eth.nextFrame, origin := .self, slice := k, stage := .egress, data := data, arrived := data.length, whole := true,
                       begun := s.time.mono }
    let s1 := { s with eth.nextFrame := s.eth.nextFrame + 1 }.setFrame f
    (s1.spineCross k k').queueEgress { id := 0, frame := f.id, slice := k', port := p, data := data, pcp := pcp }

/-! The end of a queue pair's work (R287, R289). -/

/-- Return the tags of request packets. -/
def State.kraTags (s : State) (k i : Nat) (l : List KraOut) : State :=
  (l.filter (fun o => o.tag)).foldl (fun t _ => t.giveTag k i) s

/-- Forget the work of a queue pair: its timers stop and its tags return. -/
def State.kraStop (s : State) (k i qp : Nat) : State :=
  let x := s.qpx qp
  let s1 := ((s.kraTags k i x.out).twCancel k (.kraRetry qp)).twCancel k (.kraRnr qp)
  s1.setQpx qp { s1.qpx qp with jobs := [], out := [], reads := [], resend := none, rnr := false, rxJob := none }

/-- Finish the jobs of a queue pair: the one named with its status and result, every other with WR_FLUSHED. -/
def State.kraFlush (s : State) (k c qp : Nat) (fail : Option (Nat × Nat × Nat)) : State :=
  let x := s.qpx qp
  let one := fun (t : State) (q id : Nat) =>
    match t.jobById k q id with
    | none => t
    | some j => match fail with
      | some (f, st, r) => if f = id then t.finish j st r false else t.finish j St.WR_FLUSHED 0 false
      | none => t.finish j St.WR_FLUSHED 0 false
  let s1 := x.jobs.foldl (fun t j => one t (cxSendSr c) j.id) s
  match x.rxJob with
  | some (id, _) => one s1 (cxRecvSr c) id
  | none => s1

/-- The queue pair enters ERROR with syndrome `err` (R289). -/
def State.kraError (s : State) (k qp err : Nat) (fail : Option (Nat × Nat × Nat)) : State :=
  match s.qpCtx k qp with
  | none => s
  | some c =>
    let s1 := (s.kraFlush k c qp fail).kraStop k (cxInst c) qp
    s1.putCtx k qp (cxSetErr (cxSetState c qpErr) err)

/-- The first byte of a job that is not acknowledged (R287). -/
def QpX.ackedBytes (x : QpX) (job : Nat) : Nat :=
  match x.out.find? (fun o => decide (o.job = job)) with
  | some o => o.off
  | none => match x.jobs.find? (fun j => decide (j.id = job)) with
    | some j => j.sent
    | none => 0

/-- The job at the front of the unacknowledged ones. -/
def QpX.oldest (x : QpX) : Option Nat := match x.out with | o :: _ => some o.job | [] => x.jobs.head?.map (fun j => j.id)

/-- The queue pair fails its job `job` with a status and REASON, and enters ERROR (R287). -/
def State.kraFail (s : State) (k qp job status reason : Nat) : State :=
  let x := s.qpx qp
  let s1 := if status = St.RETRY_EXCEEDED ∨ status = St.RNR_RETRY_EXCEEDED then
      s.raise (F.KRA_INT_STATUS_RETRY_EXCEEDED_SEEN k) (R.KRA_INT_ENABLE k) else s
  s1.kraError k qp status (some (job, status, x.ackedBytes job % 2 ^ 32 + 2 ^ 32 * reason))

/-! Sending (R235, R258, R263, R285). -/

/-- Arm the retransmit timer after a transmission or progress, or stop it when nothing is unacknowledged (R285). -/
def State.kraArm (s : State) (k qp : Nat) : State :=
  match s.qpCtx k qp with
  | none => s
  | some c =>
    let s1 := s.twCancel k (.kraRetry qp)
    if (s1.qpx qp).out.isEmpty then s1
    else s1.twInsert k false (s.time.mono + cxRetryTimeout c * 2 ^ min (cxRetryCount c) 6 * ticksPerUs) (.kraRetry qp)

/-- Send one packet under the next TX_COUNT: over Korrum Link or as a UDP frame. A count that reaches 2^62 puts the queue pair in ERROR (R235).
While the cipher complex takes no work, the packet is dropped (R220, R245). -/
def State.kraEmit (s0 : State) (k qp c : Nat) (key : List Byte) (p : KraPkt) : State :=
  match s0.unitCipher k p.payload.length with
  | .fail _ t => t
  | .wait => s0
  | .ready s =>
  let local_ := decide (cxTransport c = 0)
  let bytes := kraSeal key c qp (if local_ then s.fedId else 0) p
  let tx := cxTxCount c + 1
  let s1 := ((s.putCtx k qp (setBits c 575 512 tx)).incFld (F.KRA_TX_PKTS k)).addFld (F.KRA_TX_BYTES k) p.payload.length
  let resp := decide (5 ≤ p.op ∧ p.op ≤ 7)
  let s2 := if local_ then
      s1.korrumSend { typ := 1, vc := if resp then 2 else 0, cls := cxClass c, dest := cxDestFed c, src := s1.fedId, handle := cxDestHandle c,
                      payload := bytes }
    else
      (s1.draw).ownFrame k (bitsOf c 1380 1376) (if bitOf c 1381 then bitsOf c 1399 1397 else 0) (kraFrame c (Config.unstated s1.freeCtr) bytes)
  if 2 ^ 62 ≤ tx then
    let x := s2.qpx qp
    let fail := x.oldest.map (fun j => (j, St.CIPHER_SEQ_EXHAUSTED, x.ackedBytes j % 2 ^ 32))
    (s2.incFld (F.CIPHER_SEQ_EXHAUSTED k)).kraError k qp St.CIPHER_SEQ_EXHAUSTED fail
  else s2

/-- Send a packet that answers (an ACK, a NAK, a READ_RESP), or keep it until its key has been derived. -/
def State.kraAnswer (s : State) (k qp : Nat) (p : KraPkt) : State :=
  match s.qpCtx k qp with
  | none => s
  | some c =>
    let x := s.qpx qp
    if !x.ctl.isEmpty ∨ s.cipherWaits k then s.setQpx qp { x with ctl := x.ctl ++ [p] }
    else match s.needKey k (kraOp qp) (cxSlot c) (kraLabel c) with
      | (s1, .ready key) => s1.kraEmit k qp c key p
      | (s1, .wait) => s1.setQpx qp { s1.qpx qp with ctl := [p] }
      | (s1, .fail _) => s1

/-- An ACK extension (R261). -/
def ackExt (seq syn reason : Nat) : List Byte := leBytes 8 (seq % 2 ^ 32 + 2 ^ 32 * syn + 2 ^ 40 * reason)

/-- Send a NAK (R287). SEQ of an ACK or NAK is not used, and what it holds is not stated. -/
def State.kraNak (s : State) (k qp seq syn reason : Nat) : State :=
  ((s.incFld (F.KRA_NAK_TX k)).draw).kraAnswer k qp { op := 7, seq := Config.unstated s.freeCtr % 2 ^ 32, ext := ackExt seq syn reason }

/-- The highest sequence number up to which every request has taken effect (R270). -/
def State.ackPoint (s : State) (qp c : Nat) : Nat :=
  let pend := (s.kra.accesses.filter (fun a => decide (a.qp = qp ∧ 2 ≤ a.stage) && !a.dup)).map (fun a => a.seq)
  seqAdd (pend.foldl (fun m q => if seqLt q m then q else m) (cxSeqExpected c)) (2 ^ 32 - 1)

/-- Send an ACK for what has taken effect (R270). -/
def State.kraAck (s : State) (k qp : Nat) : State :=
  match s.qpCtx k qp with
  | none => s
  | some c =>
    let pt := s.ackPoint qp c
    let x := s.qpx qp
    let due := match x.ackDue with | some q => if seqLt pt q then some q else none | none => none
    let left := x.effects.filter (fun e => seqLt pt e.1)
    let s1 := (s.setQpx qp { x with unacked := 0, effects := left, ackDue := due }).draw
    s1.kraAnswer k qp { op := 6, seq := Config.unstated s.freeCtr % 2 ^ 32, ext := ackExt pt 0 0 }

/-- A request has taken effect (R270): an ACK goes when one is due. -/
def State.kraEffect (s : State) (k qp seq : Nat) (ackReq : Bool) : State :=
  match s.qpCtx k qp with
  | none => s
  | some c =>
    let x := s.qpx qp
    let due := if ackReq then (match x.ackDue with | some q => if seqLt q seq then some seq else some q | none => some seq) else x.ackDue
    let x1 := { x with unacked := x.unacked + 1, effects := x.effects ++ [(seq, s.time.mono)], ackDue := due }
    let s1 := s.setQpx qp x1
    let covered : Bool := match due with | some q => !seqLt (s1.ackPoint qp c) q | none => false
    if covered ∨ cxAckCoalesce c ≤ x1.unacked then s1.kraAck k qp else s1

/-! Acknowledgement at the requester (R271, R284). -/

/-- Complete the jobs at the front whose last packet is acknowledged, in ring order. -/
def State.kraComplete (s : State) (k qp : Nat) : Nat → State
  | 0 => s
  | n + 1 =>
    let x := s.qpx qp
    match s.qpCtx k qp, x.jobs with
    | some c, j :: rest =>
      match j.endSeq with
      | some e =>
        if seqLt (cxSeqUnacked c) e then s
        else
          let s1 := s.setQpx qp { x with jobs := rest }
          let s2 := match s1.jobById k (cxSendSr c) j.id with
            | some r => s1.finish r St.SUCCESS (j.total % 2 ^ 32) false
            | none => s1
          s2.kraComplete k qp n
      | none => s
    | _, _ => s

/-- SEQ_UNACKED moves to the oldest request that is not acknowledged, or whose read lacks responses (R271, R284). -/
def State.kraAdvance (s : State) (k qp : Nat) : State :=
  match s.qpCtx k qp with
  | none => s
  | some c =>
    let x := s.qpx qp
    let una := match x.reads.find? (fun r => seqLt r.seq x.ackNext) with
      | some r => r.seq
      | none => x.ackNext
    if !seqLt (cxSeqUnacked c) una then s
    else
      let gone := x.out.filter (fun o => seqLt o.seq una)
      let left := x.out.filter (fun o => !seqLt o.seq una)
      let resend := match x.resend with
        | some p => if seqLt p una then left.head?.map (fun o => o.seq) else some p
        | none => none
      let s1 := (s.kraTags k (cxInst c) gone).setQpx qp { x with out := left, resend := resend }
      let s2 := s1.putCtx k qp (cxSetCounts (setBits c 447 416 una) 0 0)
      (s2.kraComplete k qp x.jobs.length).kraArm k qp

/-- Everything before sequence number n is acknowledged. -/
def State.kraAcked (s : State) (k qp n : Nat) : State :=
  let x := s.qpx qp
  if seqLt x.ackNext n then (s.setQpx qp { x with ackNext := n }).kraAdvance k qp else s

end Sys2Proof.Machine
end

