-- ==== Sys2Proof/Machine/Kra.lean ====
section
/-!
DEFINITION. KRA: the requester, the receive stage, and the states of queue pairs (chapter 09: R264 to R273, R280 to R290).
-/

namespace Sys2Proof.Machine

/-! Work requests (R264 to R266). -/

def RJob.kraQp (j : RJob) : Nat := bitsOf (j.dw 2) 19 0
def RJob.kraOrdered (j : RJob) : Bool := bitOf (j.dw 2) 20
def RJob.kraEvent (j : RJob) : Bool := bitOf (j.dw 2) 21
def RJob.kraKey (j : RJob) : Nat := bitsOf (j.dw 2) 63 32
def RJob.kraAddr (j : RJob) : Nat := j.dw 3
def RJob.kraImm (j : RJob) : Nat := bitsOf (j.dw 4) 31 0

/-- Is j the oldest work request of its ring that no command has taken up? Work requests are taken up in ring order (R265). -/
def State.nextRequest (s : State) (k q : Nat) (j : RJob) : Bool :=
  match (s.srx k q).started.find? (fun r => !r.taken && decide (0x10 ≤ r.head.opcode ∧ r.head.opcode ≤ 0x13)) with
  | some r => decide (r.id = j.id)
  | none => false

/-- The Catalogue lookup of a work request, under its queue pair's handle (R183, R184, R188, R189): what the entry drops is not taken up. -/
def State.catRequest (s : State) (h bytes : Nat) : State × Bool :=
  let k := homeOf h
  let s1 := (s.incFld (F.CAT_LOOKUPS k)).pmuUnc k 0x0A 1 {}
  if s.catPoisoned h then ((s1.incFld (F.CAT_FAULT_DROP k)).raise (F.CAT_INT_STATUS_FAULT_DROP_SEEN k) (R.CAT_INT_ENABLE k), false)
  else if !bitOf (s.catEntry h) 0 then (s1.incFld (F.CAT_INVALID_DROP k), false)
  else ({ s1 with cat.writebacks := s1.cat.writebacks ++ [{ handle := h, bytes := bytes, gen := bitsOf (s.catEntry h) 15 12 }] }, true)

/-- A work request of ring q is taken up (R183, R265): checked, then kept by its queue pair until it can be sent. One whose lookup drops it completes with a
status that the spec does not name. -/
def State.kraPost (s : State) (k q op : Nat) : State :=
  match s.jobFor k q op with
  | none => s
  | some j =>
    if !s.nextRequest k q j then s
    else
      let qp := j.kraQp
      let x := s.qpx qp
      if !x.live ∨ x.inst ≠ s.srInst k q ∨ x.slice ≠ k then s.finish j St.KRA_QP_INVALID 0 false
      else match s.qpCtx k qp with
        | none => s.ctxFetch k qp
        | some c =>
          if cxSendSr c ≠ q then s.finish j St.KRA_QP_INVALID 0 false
          else if 2 ^ 31 ≤ j.total then s.finish j St.KRA_LENGTH_INVALID 0 false
          else if cxState c = qpDrain ∨ cxState c = qpErr then s.finish j St.WR_FLUSHED 0 false
          else match s.catRequest (cxHandle c) j.total with
          | (s1, false) => (s1.draw).finish j (Config.unstated s1.freeCtr % 2 ^ 16) 0 false
          | (s1, true) =>
            let kj : KraJob := { id := j.id, op := op - 0x0F, total := j.total }
            let kj1 : KraJob := if op = 0x13 then { kj with op := 4 } else kj
            ((s1.setJob { j with taken := true }).setQpx qp { x with jobs := x.jobs ++ [kj1] }).incFld (F.KRA_CTX_HITS k)

/-- KRA_WRITE, KRA_WRITE_IMM, KRA_SEND, KRA_READ (R265): the ring's oldest such work request. -/
def execKraWrite (slice ring : Nat) (s : State) : Host.Outcome State Fault Refusal := whenSlices s <| .next (s.kraPost slice ring 0x10)
def execKraWriteImm (slice ring : Nat) (s : State) : Host.Outcome State Fault Refusal := whenSlices s <| .next (s.kraPost slice ring 0x11)
def execKraSend (slice ring : Nat) (s : State) : Host.Outcome State Fault Refusal := whenSlices s <| .next (s.kraPost slice ring 0x12)
def execKraRead (slice ring : Nat) (s : State) : Host.Outcome State Fault Refusal := whenSlices s <| .next (s.kraPost slice ring 0x13)

/-- KRA_RECV_POST (R266): the ring's oldest such job posts its receive buffer. -/
def execKraRecvPost (slice ring : Nat) (s : State) : Host.Outcome State Fault Refusal := whenSlices s <|
  match s.jobFor slice ring 0x14 with
  | none => .next s
  | some j =>
    let s1 := s.setJob { j with taken := true }
    let x := s1.srx slice ring
    .next (s1.setSrx slice ring { x with posted := x.posted ++ [j.id] })

/-! Request packets (R262, R267, R270, R281 to R286). -/

/-- The part of a chain of buffers from byte off on, n bytes. -/
def subBufs : List (Nat × Nat) → Nat → Nat → List (Nat × Nat)
  | [], _, _ => []
  | (a, l) :: bs, off, n =>
    if n = 0 then []
    else if l ≤ off then subBufs bs (off - l) n
    else (a + off, min n (l - off)) :: subBufs bs 0 (n - min n (l - off))

/-- The RDMA, READ and IMM extensions of a request packet (R261, R262). -/
def reqExt (j : RJob) (o : KraOut) (rsnBase : Nat) : List Byte :=
  let rdma := leBytes 8 (j.kraAddr + o.off) ++ leBytes 4 j.kraKey ++ leBytes 4 0
  let imm := leBytes 8 j.kraImm
  match o.op with
  | 1 => rdma
  | 2 => if o.last then (if o.first then rdma ++ imm else imm) else rdma
  | 4 => leBytes 8 j.kraAddr ++ leBytes 4 j.kraKey ++ leBytes 4 j.total ++ leBytes 4 rsnBase ++ leBytes 4 0
  | _ => []

/-- The flag bits of a request packet (R260, R270, R281). -/
def reqFlags (j : RJob) (o : KraOut) (ackReq retry : Bool) : Nat :=
  b2n (j.kraOrdered && decide (o.op ≠ 4)) * 2 ^ flagOrdered + b2n ackReq * 2 ^ flagAckReq + b2n o.first * 2 ^ flagFirst +
  b2n o.last * 2 ^ flagLast + b2n retry * 2 ^ flagRetry + b2n j.kraEvent * 2 ^ flagEvent

/-- Packets from SEQ_UNACKED onward, the response packets of reads counted (R267). -/
def QpX.window (x : QpX) : Nat := x.out.length + (x.reads.map (fun r => r.count)).sum

/-- Response packets of a read of n bytes (R284). -/
def readCount (mtu n : Nat) : Nat := max 1 ((n + mtu - 1) / mtu)

/-- What the requester sends next, as the request packet it forms; none when the window, ORDERED_FINAL or the states hold it back (R267,
R283, R289, R462). -/
def State.nextPacket (s : State) (k qp c : Nat) : Option (KraJob × KraOut) :=
  let x := s.qpx qp
  match x.jobs.find? (fun j => j.endSeq.isNone) with
  | none => none
  | some j =>
    let st := cxState c
    let may := if j.started then decide (st = qpActive ∨ st = qpDrain) else decide (st = qpActive) && s.instRuns (cxInst c)
    match s.jobById k (cxSendSr c) j.id with
    | none => none
    | some r =>
      let mtu := cxMtu c
      let n := if j.op = 4 then 0 else min mtu (j.total - j.sent)
      let o : KraOut := { seq := cxSeqNext c, job := j.id, op := j.op, off := j.sent, len := n, first := decide (j.sent = 0),
                          last := decide (j.op = 4) || decide (j.sent + n = j.total) }
      let room := if j.op = 4 then decide (x.out.isEmpty) || decide (x.window + 1 + readCount mtu j.total ≤ cxMaxOut c)
        else decide (x.window < cxMaxOut c)
      let held := r.kraOrdered && decide (j.op ≠ 4) && !x.reads.isEmpty
      if may && room && !held then some (j, o) else none

/-- Read the payload of a request packet, and give it to the link or the port. A read that fails ends the job (R44, R289). -/
def State.sendRequest (s : State) (k qp c : Nat) (r : RJob) (o : KraOut) (key : List Byte) (ackReq retry : Bool) : State × Bool :=
  match s.dmaGather k (cxInst c) (s.classOp 2 (cxClass c) r.begun) (subBufs r.bufs o.off o.len) with
  | (s1, .wait) => (s1, false)
  | (s1, .fail st) => (s1.kraFail k qp o.job st 0, false)
  | (s1, .ok data) =>
    let x := s1.qpx qp
    if o.op = 4 then
      let base := cxRsnNext c
      let cnt := readCount (cxMtu c) r.total
      let rd : KraRead := { seq := o.seq, job := o.job, base := base, count := cnt }
      let s2 := s1.setQpx qp { x with reads := x.reads.filter (fun y => decide (y.seq ≠ o.seq)) ++ [rd] }
      let c2 := setBits c 511 480 (seqAdd base cnt)
      let s3 := s2.putCtx k qp c2
      (s3.kraEmit k qp c2 key { op := 4, seq := o.seq, flags := reqFlags r o ackReq retry, ext := reqExt r o base }, true)
    else
      (s1.kraEmit k qp c key { op := o.op, seq := o.seq, flags := reqFlags r o ackReq retry, ext := reqExt r o 0, payload := data }, true)

/-- Send one packet again (R285); one with ORDERED_FINAL waits while a READ before it lacks any of its responses (R283). -/
def State.sendAgain (s : State) (k qp c seq : Nat) (key : List Byte) : State :=
  let x := s.qpx qp
  match x.out.find? (fun o => decide (o.seq = seq)) with
  | none => s.setQpx qp { x with resend := none }
  | some o =>
    match s.jobById k (cxSendSr c) o.job with
    | none => s
    | some r =>
      if r.kraOrdered ∧ o.op ≠ 4 ∧ x.reads.any (fun d => seqLt d.seq o.seq) then s else
      let res := s.sendRequest k qp c r o key o.last true
      if !res.2 then res.1
      else
        let y := res.1.qpx qp
        let nxt := y.out.find? (fun p => seqLt seq p.seq)
        (res.1.setQpx qp { y with resend := nxt.map (fun p => p.seq) }).kraArm k qp

/-- Form and send the next packet of a job; it holds a tag until it is acknowledged (R34, R267). -/
def State.sendNew (s : State) (k qp c : Nat) (j : KraJob) (o : KraOut) (key : List Byte) : State :=
  match s.jobById k (cxSendSr c) j.id with
  | none => s
  | some r =>
    let deadline := s.deadlineOf (cxClass c) r.begun
    match s.getTag k (cxInst c) deadline (kraOp qp) with
    | (s1, false) => s1
    | (s1, true) =>
      let half := decide ((s1.qpx qp).window + 1 = cxMaxOut c / 2)
      let res := s1.sendRequest k qp c r o key (o.last || half) false
      if !res.2 then (if (res.1.qpCtx k qp).map cxState = some qpErr then res.1.giveTag k (cxInst c)
        else { res.1 with arb.tagGrants := res.1.arb.tagGrants ++ [(k, cxInst c, kraOp qp)] })
      else
        let y := res.1.qpx qp
        let sent := o.off + (if o.op = 4 then j.total else o.len)
        let j1 : KraJob := { j with started := true, sent := sent, endSeq := if o.last then some (seqAdd o.seq 1) else none }
        let o1 : KraOut := { o with tag := true }
        let s2 := res.1.setQpx qp { y with jobs := y.jobs.map (fun z => if z.id = j.id then j1 else z), out := y.out ++ [o1] }
        match s2.qpCtx k qp with
        | none => s2
        | some c2 => if cxState c2 = qpErr then s2.kraStop k (cxInst c) qp
          else (s2.putCtx k qp (setBits c2 415 384 (seqAdd (cxSeqNext c) 1))).kraArm k qp

/-- KRA_PACKET_SEND (R267, R283, R285): the queue pair sends its next packet: an answer that waited for its key, a packet to be sent again, or
the next request within the window. -/
def execKraPacketSend (slice qp : Nat) (s : State) : Host.Outcome State Fault Refusal := whenSlices s <|
  let x := s.qpx qp
  if !x.live ∨ x.slice ≠ slice then .next s
  else match s.qpCtx slice qp with
    | none => .next (s.ctxFetch slice qp)
    | some c =>
      match s.needKey slice (kraOp qp) (cxSlot c) (kraLabel c) with
      | (s1, .wait) => .next s1
      | (s1, .fail st) => .next (match x.oldest with
        | some j => s1.kraFail slice qp j st 0
        | none => s1.setQpx qp { x with ctl := [] })
      | (s0, .ready key) =>
        if s0.cipherWaits slice then .next s0 else
        let s1 := s0.incFld (F.KRA_CTX_HITS slice)
        match x.ctl with
        | p :: rest => .next ((s1.setQpx qp { x with ctl := rest }).kraEmit slice qp c key p)
        | [] =>
          match x.resend with
          | some seq => .next (if x.rnr then s1 else s1.sendAgain slice qp c seq key)
          | none =>
            match s1.nextPacket slice qp c with
            | some (j, o) => .next (s1.sendNew slice qp c j o key)
            | none => .next s0

/-- Send every unacknowledged packet from `start` on again, from the oldest when none is given (R285, R286). -/
def State.kraResend (s : State) (k qp : Nat) (start : Option Nat) : State :=
  match s.qpCtx k qp with
  | none => s
  | some c =>
    let x := s.qpx qp
    let l : List KraOut := match start with
      | some q => x.out.filter (fun o => !seqLt o.seq q)
      | none => x.out
    let n := l.length
    let s1 := (s.setQpx qp { x with resend := l.head?.map (fun o => o.seq), rnr := false }).addFld (F.KRA_RETRANSMITS k) n
    s1.putCtx k qp (setBits c 671 640 (bitsOf c 671 640 + n))

/-- RETRY_COUNT rises: past RETRY_LIMIT the oldest job fails, else what is unacknowledged is sent again, from `start` on (R285). The field holds at most 15. -/
def State.kraRetry (s : State) (k qp : Nat) (start : Option Nat) : State :=
  match s.qpCtx k qp with
  | none => s
  | some c =>
    let n := cxRetryCount c + 1
    let s1 := s.putCtx k qp (cxSetCounts c (min n 15) (cxRnrCount c))
    if cxRetryLimit c < n then
      match (s.qpx qp).oldest with
      | some j => s1.kraFail k qp j St.RETRY_EXCEEDED 0
      | none => s1
    else (s1.kraResend k qp start).kraArm k qp

/-- RETRY_TIMEOUT (R285). -/
def execRetryTimeout (slice qp : Nat) (s : State) : Host.Outcome State Fault Refusal := whenSlices s <|
  if !s.twFired slice (.kraRetry qp) then .next s
  else
    let s1 := s.twTake slice (.kraRetry qp)
    if (s1.qpx qp).out.isEmpty then .next s1 else .next ((s1.incFld (F.KRA_TIMEOUTS slice)).kraRetry slice qp none)

/-- RNR_TIMER (R286): retransmission starts from the ACK_SEQ of the NAK. -/
def execRnrTimer (slice qp : Nat) (s : State) : Host.Outcome State Fault Refusal := whenSlices s <|
  if !s.twFired slice (.kraRnr qp) then .next s else .next ((s.twTake slice (.kraRnr qp)).kraResend slice qp (s.qpx qp).resend)

/-! The receive stage (R257, R268 to R273). -/

/-- Forget a frame at the receive stage. -/
def State.kraForget (s : State) (id : Nat) : State :=
  let s1 := { s with kra.order := s.kra.order.filter (fun x => decide (x ≠ id)), kra.resumed := s.kra.resumed.filter (fun x => decide (x ≠ id)),
                     kra.counted := s.kra.counted.filter (fun x => decide (x ≠ id)),
                     kra.miss := s.kra.miss.map (fun l => l.filter (fun x => decide (x ≠ id))) }
  ([0, 1, 2, 3] : List Nat).foldl (fun t k => t.setFld (F.KRA_MISS_DEPTH k) (t.kra.miss.getD k []).length) s1

/-- A packet is dropped at the receive stage. -/
def State.kraDrop (s : State) (f : Frame) : State := (s.kraForget f.id).dropFrame f 0

/-- A packet has been used up. -/
def State.kraDone (s : State) (f : Frame) : State := (s.kraForget f.id).eraseFrame f

/-- The KRA packet in a frame: the payload of a Korrum Link packet, or of the UDP datagram whose KRA header layer 7 marks (R258, R259). -/
def Frame.kraBytes (f : Frame) : List Byte :=
  match f.origin with
  | .eth _ _ =>
    let o := f.vec.layerOff.getD 7 255
    (f.data.drop o).take (beAt f.data (o - 4) 2 - 8)
  | _ => f.data

/-- A packet at the receive stage whose tag has verified. -/
structure KraRx where
  frame : Frame
  k : Nat
  qp : Nat
  c : Nat
  hdr : Nat
  ext : List Byte
  payload : List Byte
  deriving DecidableEq, Repr

def KraRx.op (r : KraRx) : Nat := bitsOf r.hdr 7 0
def KraRx.flag (r : KraRx) (i : Nat) : Bool := bitOf r.hdr i
def KraRx.seq (r : KraRx) : Nat := bitsOf r.hdr 127 96
def KraRx.fed (r : KraRx) : Nat := bitsOf r.hdr 153 148
def KraRx.len (r : KraRx) : Nat := bitsOf r.hdr 175 160

/-- The operation of a received packet: its queue pair's class, from the packet's begin instant (R75, R76). -/
def State.rxOp (s : State) (unit : Nat) (r : KraRx) : Op := s.classOp unit (cxClass r.c) r.frame.begun

/-- The operation of an access: that of the packet that asked for it. -/
def State.accessOp (s : State) (a : KraAccess) : Op :=
  s.classOp 3 (cxClass ((s.qpCtx a.slice a.qp).getD 0)) (((s.frame? a.frame).map (fun f => f.begun)).getD s.time.mono)

/-- Is the frame the first of its queue pair at the receive stage (R269)? -/
def State.kraFirst (s : State) (f : Frame) : Bool :=
  match s.kra.order.find? (fun id => match s.frame? id with
      | some g => decide (g.stage = .kra ∧ g.kraQp = f.kraQp) && !s.kra.accesses.any (fun a => decide (a.frame = id ∧ 2 ≤ a.stage))
      | none => false) with
  | some id => decide (id = f.id)
  | none => false

/-- A packet whose context is not cached joins the miss buffer, or is dropped when it is full (R257). -/
def State.kraMiss (s : State) (f : Frame) (qp : Nat) : State :=
  let k := f.slice
  let l := s.kra.miss.getD k []
  if 512 ≤ l.length then
    ((s.incFld (F.KRA_MISS_DROP k)).raise (F.KRA_INT_STATUS_MISS_DROP_SEEN k) (R.KRA_INT_ENABLE k)).kraDrop f
  else
    let s1 := { s with kra.miss := s.kra.miss.set k (l ++ [f.id]) }
    ((s1.setFld (F.KRA_MISS_DEPTH k) (l.length + 1)).peakFld (F.KRA_MISS_PEAK k) (l.length + 1)).ctxFetch k qp

/-- Decrypt a packet under its queue pair's key (R263). -/
def kraOpen (key : List Byte) (c : Nat) (p : List Byte) : Option (Nat × List Byte × List Byte) :=
  let hdr := leAt p 0 32
  let e := extBytes (bitsOf hdr 7 0) (bitOf hdr flagFirst) (bitOf hdr flagLast)
  let n := p.length - 16
  if p.length < 48 + e then none
  else (gcmDec (key.take 32) (kraIv key (1 - cxRole c) (bitsOf hdr 255 192)) (p.take (32 + e)) (slice p (32 + e) (n - (32 + e))) (p.drop n)).map
    (fun d => (hdr, slice p 32 e, d))

/-- Steps 1, 2 and 4 of the receive stage for a frame whose opcode is `op` (R272): the state, and the packet when it goes on. Packets of a queue pair go on in
order; while its context is fetched, every one of them joins the miss buffer (R257, R269). -/
def State.kraReceive (s : State) (id op : Nat) : State × Option KraRx :=
  match s.frame? id with
  | none => (s, none)
  | some f =>
    let k := f.slice
    let p := f.kraBytes
    let hop := leAt p 0 1
    let mine := decide (hop = op) || (decide (op = 1) && (decide (hop = 0) || decide (7 < hop)))
    if f.stage ≠ .kra ∨ !f.whole ∨ !mine ∨ (!s.kraFirst f && !s.kra.fetch.contains (k, f.kraQp)) ∨ s.kra.accesses.any (fun a => decide (a.frame = id)) ∨
        (s.kra.miss.getD k []).contains id then (s, none)
    else if bitsOf (leAt p 0 2) 11 8 ≠ 1 then ((s.incFld (F.KRA_RX_BAD_VERSION k)).kraDrop f, none)
    else if bitsOf (leAt p 8 4) 19 0 ≠ f.kraQp then ((s.incFld (F.KRA_RX_QP_MISMATCH k)).kraDrop f, none)
    else match (if s.kra.fetch.contains (k, f.kraQp) then none else s.qpCtx k f.kraQp) with
      | none => (s.kraMiss f f.kraQp, none)
      | some c =>
        let again := s.kra.counted.contains id
        let s0 := if s.kra.resumed.contains id || again then s else s.incFld (F.KRA_CTX_HITS k)
        if cxState c = qpReset ∨ !(s.qpx f.kraQp).live then ((s0.incFld (F.KRA_RX_NO_QP k)).kraDrop f, none)
        else match s.needKey k (2 * id) (cxSlot c) (kraLabel c) with
          | (s1, .wait) => (s1, none)
          | (s1, .fail _) => ((s1.incFld (F.KRA_RX_AUTH_FAIL k)).kraDrop f, none)
          | (_, .ready key) =>
            let s1 := (s0.needKey k (2 * id) (cxSlot c) (kraLabel c)).1
            match (if again then PairRes.ready s1 else s1.unitCipher k (p.length - 48)), kraOpen key c p with
            | .wait, _ => (s, none)
            | .fail _ s2, _ => (s2.kraDrop f, none)
            | .ready s2, none => ((s2.incFld (F.KRA_RX_AUTH_FAIL k)).kraDrop f, none)
            | .ready s2, some (hdr, ext, d) =>
              let s3 := if again then s2
                else ({ s2 with kra.counted := s2.kra.counted ++ [id] }.incFld (F.KRA_RX_PKTS k)).addFld (F.KRA_RX_BYTES k) d.length
              (s3.putCtx k f.kraQp c,
                some { frame := f, k := k, qp := f.kraQp, c := c, hdr := hdr, ext := ext, payload := d })

/-- Refuse a request with a NAK that names its sequence number; it is not executed (R287). -/
def State.kraRefuse (s : State) (r : KraRx) (seq syn reason : Nat) : State := (s.kraDone r.frame).kraNak r.k r.qp seq syn reason

def nakSeq : Nat := 0x01
def nakRnr : Nat := 0x02
def nakAccess : Nat := 0x10
def nakInvalid : Nat := 0x11
def nakOperation : Nat := 0x12
def nakQp : Nat := 0x13

/-- The states and the sequence classification that stand before every request (R268, R272, R462). What goes on: a request in sequence, or a
repeated READ_REQ (true). A reserved OPCODE goes on whatever its SEQ, and is refused (R262). -/
def State.kraClassify (s : State) (r : KraRx) : State × Option Bool :=
  let e := cxSeqExpected r.c
  if cxState r.c = qpErr then (s.kraRefuse r r.seq nakQp 0, none)
  else if cxState r.c = qpInit ∨ !s.instRuns (cxInst r.c) then (s.kraRefuse r e nakRnr 3, none)
  else if r.op = 0 ∨ 7 < r.op ∨ r.seq = e then (s, some false)
  else if seqLt e r.seq then
    let s1 := s.incFld (F.KRA_RX_OUT_OF_SEQ r.k)
    let x := s1.qpx r.qp
    if x.nakSent then (s1.kraDrop r.frame, none)
    else ((s1.setQpx r.qp { x with nakSent := true }).kraRefuse r e nakSeq 0, none)
  else
    let s1 := s.incFld (F.KRA_RX_DUPLICATE r.k)
    if r.op = 4 then (s1, some true) else ((s1.kraDone r.frame).kraAck r.k r.qp, none)

/-- SEQ_EXPECTED moves past an accepted request. -/
def State.kraAccept (s : State) (k qp : Nat) : State :=
  match s.qpCtx k qp with
  | none => s
  | some c => (s.putCtx k qp (setBits c 479 448 (seqAdd (cxSeqExpected c) 1))).setQpx qp { s.qpx qp with nakSent := false }

/-- A refusal that is fatal leaves SEQ_EXPECTED at the refused sequence number (R287). -/
def State.kraHoldSeq (s : State) (k qp seq : Nat) : State :=
  match s.qpCtx k qp with
  | none => s
  | some c => if seqLt seq (cxSeqExpected c) then s.putCtx k qp (setBits c 479 448 seq) else s

/-- What makes a request invalid (R287: REMOTE_INVALID_REQUEST reasons 1, 2 and 5). -/
def KraRx.invalid (r : KraRx) : Option Nat :=
  if r.op = 0 ∨ 7 < r.op then some 1
  else if cxMtu r.c < r.len ∨ r.payload.length < r.len then some 2
  else if r.op = 4 ∧ (leAt r.ext 12 4 = 0 ∨ 2 ^ 31 ≤ leAt r.ext 12 4) then some 5
  else none

/-- The address and key of a request (R261, R262). -/
def State.kraTarget (s : State) (r : KraRx) : Nat × Nat :=
  if r.op = 2 ∧ r.flag flagLast = true ∧ r.flag flagFirst = false then ((s.qpx r.qp).nextAddr, (s.qpx r.qp).nextKey)
  else (leAt r.ext 0 8, leAt r.ext 8 4)

/-- The access a WRITE, WRITE_IMM or READ_REQ makes. -/
def State.kraAccessOf (s : State) (r : KraRx) (dup credit : Bool) : KraAccess :=
  let t := s.kraTarget r
  { frame := r.frame.id, slice := r.k, qp := r.qp, inst := cxInst r.c, op := r.op, seq := r.seq, key := t.2, addr := t.1,
    len := if r.op = 4 then leAt r.ext 12 4 else r.len, data := r.payload.take r.len, flags := bitsOf r.hdr 17 12,
    imm := if r.op = 2 ∧ r.flag flagLast = true then some (if r.flag flagFirst then leAt r.ext 16 4 else leAt r.ext 0 4) else none,
    credit := credit, rsnBase := leAt r.ext 16 4, dup := dup, fed := r.fed }

/-- The completion ring of a queue pair's RECV_SR. -/
def State.recvCr (s : State) (k c : Nat) : Nat := s.fld (F.SR_CFG_CR k (cxRecvSr c))

/-- A request goes to its access key check. The last packet of a WRITE_IMM first takes a completion credit (R273). -/
def State.kraCheck (s : State) (r : KraRx) (dup : Bool) : State :=
  match r.invalid with
  | some n => s.kraRefuse r r.seq nakInvalid n
  | none =>
    if r.op = 2 ∧ r.flag flagLast = true then
      let cr := s.recvCr r.k r.c
      if !cxRecvEn r.c then s.kraRefuse r r.seq nakInvalid 4
      else if !s.credit r.k cr then s.kraRefuse r (cxSeqExpected r.c) nakRnr 2
      else
        let s1 := (s.setCrx r.k cr { s.crx r.k cr with o := (s.crx r.k cr).o + 1 }).crCheck r.k cr
        { s1 with kra.accesses := s1.kra.accesses ++ [s.kraAccessOf r dup true] }
    else { s with kra.accesses := s.kra.accesses ++ [s.kraAccessOf r dup false] }

/-- A received request that needs an access key check. -/
def State.kraRequest (s : State) (id op : Nat) : State :=
  match s.kraReceive id op with
  | (s1, none) => s1
  | (s1, some r) =>
    match s1.kraClassify r with
    | (s2, none) => s2
    | (s2, some dup) => s2.kraCheck r dup

/-- WRITE (R268, R272): a received WRITE packet; and one whose opcode is reserved (R262). -/
def execWrite (frame : Nat) (s : State) : Host.Outcome State Fault Refusal := whenSlices s <| .next (s.kraRequest frame 1)
/-- WRITE_IMM (R272, R273). -/
def execWriteImm (frame : Nat) (s : State) : Host.Outcome State Fault Refusal := whenSlices s <| .next (s.kraRequest frame 2)
/-- READ_REQ (R272, R284). -/
def execReadReq (frame : Nat) (s : State) : Host.Outcome State Fault Refusal := whenSlices s <| .next (s.kraRequest frame 4)

/-- The receive buffer that a SEND packet goes to: the one its message fills, or the next posted one, with the bytes already in it. -/
def State.sendBuffer (s : State) (r : KraRx) : State × Option (RJob × Nat) :=
  let q := cxRecvSr r.c
  let cur := if r.flag flagFirst then none else match (s.qpx r.qp).rxJob with
    | some (id, n) => (s.jobById r.k q id).map (fun j => (j, n))
    | none => none
  match cur with
  | some x => (s, some x)
  | none =>
    match s.takePosted r.k q 0x14 with
    | none => (s, none)
    | some (j, rest) => ((s.setSrx r.k q { s.srx r.k q with posted := rest }).setQpx r.qp { s.qpx r.qp with rxJob := some (j.id, 0) }, some (j, 0))

/-- A SEND packet in sequence (R266, R273, R280, R281). One that must wait for a translation leaves its buffer posted. -/
def State.sendPlace (s : State) (r : KraRx) : State :=
  let seq := cxSeqExpected r.c
  if r.flag flagOrdered ∧ s.kra.accesses.any (fun a => decide (a.qp = r.qp ∧ 2 ≤ a.stage)) then s
  else match r.invalid with
  | some n => s.kraRefuse r seq nakInvalid n
  | none =>
    if !cxRecvEn r.c then s.kraRefuse r seq nakInvalid 4
    else match s.sendBuffer r with
      | (_, none) => s.kraRefuse r seq nakRnr 1
      | (s1, some (j, got)) =>
        let data := r.payload.take r.len
        let n := min data.length (j.total - got)
        match s1.dmaScatter r.k (cxInst r.c) { s1.rxOp 3 r with rx := !r.flag flagOrdered } (subBufs j.bufs got n) (data.take n) with
        | (s2, .wait) => (s2.setSrx r.k (cxRecvSr r.c) (s.srx r.k (cxRecvSr r.c))).setQpx r.qp (s.qpx r.qp)
        | (s2, .fail _) => s2.kraRefuse r seq nakOperation 1
        | (s2, .ok _) =>
          let ev := r.flag flagEvent
          let done := fun (t : State) (st bytes : Nat) =>
            (t.finish { j with event := ev } st (bytes % 2 ^ 32 + 2 ^ 32 * r.qp) false).setQpx r.qp { t.qpx r.qp with rxJob := none }
          if n < data.length then (done s2 St.KRA_RECV_OVERFLOW (got + n)).kraRefuse r seq nakInvalid 3
          else
            let s3 := if r.flag flagLast then done s2 St.SUCCESS (got + n) else s2.setQpx r.qp { s2.qpx r.qp with rxJob := some (j.id, got + n) }
            ((s3.kraAccept r.k r.qp).kraDone r.frame).kraEffect r.k r.qp seq (r.flag flagAckReq)

/-- SEND (R266, R272): a received SEND packet fills the next receive buffer, or draws NAK RNR. -/
def execSend (frame : Nat) (s : State) : Host.Outcome State Fault Refusal := whenSlices s <|
  match s.kraReceive frame 3 with
  | (s1, none) => .next s1
  | (s1, some r) =>
    match s1.kraClassify r with
    | (s2, none) => .next s2
    | (s2, some _) => .next (s2.sendPlace r)

/-! Answers at the requester (R270, R271, R284 to R287). -/

/-- An ACK or NAK for a queue pair that can take it, with its ACK_SEQ; one in ERROR is discarded, one outside the window counts as a
duplicate (R270, R289). -/
def State.kraAnswered (s : State) (r : KraRx) : State × Option Nat :=
  let n := leAt r.ext 0 4
  let s1 := s.kraDone r.frame
  if cxState r.c = qpErr then (s1, none)
  else if seqLt n (seqAdd (cxSeqUnacked r.c) (2 ^ 32 - 1)) ∨ !seqLt n (cxSeqNext r.c) then (s1.incFld (F.KRA_RX_DUPLICATE r.k), none)
  else (s1, some n)

/-- ACK (R270, R271): every request up to ACK_SEQ has taken effect. -/
def execAck (frame : Nat) (s : State) : Host.Outcome State Fault Refusal := whenSlices s <|
  match s.kraReceive frame 6 with
  | (s1, none) => .next s1
  | (s1, some r) =>
    match s1.kraAnswered r with
    | (s2, none) => .next s2
    | (s2, some n) => .next (s2.kraAcked r.k r.qp (seqAdd n 1))

/-- The status a fatal NAK gives (R287). -/
def nakStatus (syn : Nat) : Nat :=
  if syn = nakAccess then St.ACCESS_VIOLATION
  else if syn = nakInvalid then St.REMOTE_INVALID_REQUEST
  else if syn = nakOperation then St.REMOTE_OPERATION_ERROR
  else St.REMOTE_QP_ERROR

/-- A NAK RNR for the request n (R286). -/
def State.kraRnr (s : State) (k qp n : Nat) : State :=
  match s.qpCtx k qp with
  | none => s
  | some c =>
    let m := cxRnrCount c + 1
    let x := s.qpx qp
    if cxRnrLimit c < m ∧ cxRnrLimit c ≠ 15 then
      match x.out.find? (fun o => decide (o.seq = n)) with
      | some o => s.kraFail k qp o.job St.RNR_RETRY_EXCEEDED 0
      | none => s
    else
      let s1 := (s.putCtx k qp (cxSetCounts c (cxRetryCount c) (min m 15))).setQpx qp { x with rnr := true, resend := some n }
      (s1.twCancel k (.kraRnr qp)).twInsert k false (s.time.mono + cxRnrTimer c * ticksPerUs) (.kraRnr qp)

/-- NAK (R271, R285 to R287): SEQ_ERROR and RNR acknowledge what is before ACK_SEQ; any other syndrome fails the job that holds the
refused request. -/
def execNak (frame : Nat) (s : State) : Host.Outcome State Fault Refusal := whenSlices s <|
  match s.kraReceive frame 7 with
  | (s1, none) => .next s1
  | (s1, some r) =>
    match (s1.incFld (F.KRA_NAK_RX r.k)).kraAnswered r with
    | (s2, none) => .next s2
    | (s2, some n) =>
      let syn := leAt r.ext 4 1
      let reason := leAt r.ext 5 1 % 16
      if syn = nakSeq then .next ((s2.kraAcked r.k r.qp n).kraRetry r.k r.qp (some n))
      else if syn = nakRnr then .next ((s2.kraAcked r.k r.qp n).kraRnr r.k r.qp n)
      else match (s2.qpx r.qp).out.find? (fun o => decide (o.seq = n)) with
        | some o => .next (s2.kraFail r.k r.qp o.job (nakStatus syn) reason)
        | none => .next s2

/-- A late response (R284). -/
def State.kraLate (s : State) (r : KraRx) : State :=
  ((s.kraDone r.frame).incFld (F.KRA_LATE_RESPONSE r.k)).putCtx r.k r.qp (setBits r.c 703 672 (bitsOf r.c 703 672 + 1))

/-- Place a response of a read (R284). -/
def State.kraPlace (s : State) (r : KraRx) (rd : KraRead) : State :=
  match s.jobById r.k (cxSendSr r.c) rd.job with
  | none => s.kraLate r
  | some j =>
    let i := (seqDiff r.seq rd.base).toNat
    let off := i * cxMtu r.c
    let data := (r.payload.take r.len).take (j.total - off)
    match s.dmaScatter r.k (cxInst r.c) (s.rxOp 2 r) (subBufs j.bufs off data.length) data with
    | (s1, .wait) => s1
    | (s1, .fail st) => (s1.kraDone r.frame).kraFail r.k r.qp rd.job st 0
    | (s1, .ok _) =>
      let s2 := s1.kraDone r.frame
      let x := s2.qpx r.qp
      let rd1 : KraRead := { rd with got := rd.got ++ [r.seq] }
      let reads := if rd1.got.length = rd.count then x.reads.filter (fun y => decide (y.seq ≠ rd.seq))
        else x.reads.map (fun y => if y.seq = rd.seq then rd1 else y)
      (s2.setQpx r.qp { x with reads := reads }).kraAdvance r.k r.qp

/-- READ_RESP (R284): placed when its RSN belongs to the current issue and has not been placed; else late, as every one that finds the queue pair in ERROR. -/
def execReadResp (frame : Nat) (s : State) : Host.Outcome State Fault Refusal := whenSlices s <|
  match s.kraReceive frame 5 with
  | (s1, none) => .next s1
  | (s1, some r) =>
    if cxState r.c = qpErr then .next (s1.kraLate r)
    else
      let req := leAt r.ext 0 4
      match (s1.qpx r.qp).reads.find? (fun d => decide (d.seq = req)) with
      | none => .next (s1.kraLate r)
      | some d =>
        let i := seqDiff r.seq d.base
        if i < 0 ∨ (d.count : Int) ≤ i ∨ d.got.contains r.seq then .next (s1.kraLate r) else .next (s1.kraPlace r d)

/-- KRA_ACK_DELAY (R270): the delay has passed since the oldest request that has taken effect without an ACK. -/
def execKraAckDelay (slice qp : Nat) (s : State) : Host.Outcome State Fault Refusal := whenSlices s <|
  let x := s.qpx qp
  if !x.live ∨ x.slice ≠ slice ∨ s.time.mono * 5 < ((x.effects.head?.map (fun e => e.2)).getD s.time.mono) * 5 + s.fld F.KRA_ACK_DELAY * 8 ∨ x.effects.isEmpty then
    .next s
  else .next (s.kraAck slice qp)

/-! Access keys (R274 to R278). -/

def keyVariant (key : Nat) : Nat := bitsOf key 11 0
def keyIndex (key : Nat) : Nat := bitsOf key 29 12
def keyHome (key : Nat) : Nat := bitsOf key 31 30

/-- The address of registration i of slice k: the 16 MiB below the Bound Key Table region. -/
def regAddr (k i : Nat) : Nat := 24 * gib * (k + 1) - 28 * mib + 64 * (i % 262144)

def State.regEntry (s : State) (key : Nat) : Nat := leNat (s.hbmRead (regAddr (keyHome key) (keyIndex key)) 64)

def rgBase (e : Nat) : Nat := bitsOf e 63 0
def rgLenM1 (e : Nat) : Nat := bitsOf e 103 64
def rgInst (e : Nat) : Nat := bitsOf e 116 104
def rgVariant (e : Nat) : Nat := bitsOf e 151 140
def rgCr (e : Nat) : Nat := bitsOf e 163 152

def regIx (key : Nat) : Nat := 262144 * keyHome key + keyIndex key
def State.regWord (s : State) (key : Nat) : RegWord := Map.get (fun _ => {}) s.kra.regs (regIx key)

def regFree : Nat := 0
def regValid : Nat := 1
def regDraining : Nat := 2

/-- Set a state word, and show how many registrations of its slice are VALID or DRAINING. -/
def State.setRegWord (s : State) (key : Nat) (w : RegWord) : State :=
  let old := s.regWord key
  let s1 := { s with kra.regs := Map.put (fun _ => {}) s.kra.regs (regIx key) w }
  if old.state = regFree ∧ w.state ≠ regFree then s1.addFld (F.KRA_MR_ACTIVE (keyHome key)) 1
  else if old.state ≠ regFree ∧ w.state = regFree then s1.subFld (F.KRA_MR_ACTIVE (keyHome key)) 1
  else s1

/-- The event that an access violation sends to the owner's event ring (R277, R278). It is written or held at once; where the write must wait for a host's
answer, it keeps its place under a credit (R144). -/
def State.kraEvent (s : State) (a : KraAccess) (reason : Nat) : State :=
  let e := s.regEntry a.key
  if !(bitOf e 164 && decide (rgVariant e = keyVariant a.key) && decide ((s.regWord a.key).state ≠ regFree)) then s
  else match s.findCr (rgInst e) (rgCr e) with
    | none => s.incFld (F.KRA_EVENT_DROP a.slice)
    | some (k, c) =>
      let room := (decide (0 < s.crFree k c) && (s.crx k c).held.isEmpty) || (s.credit k c && decide (s.fld (F.RING_POOL_FREE k) ≠ 0))
      if s.crState k c ≠ stActive ∨ !room then s.incFld (F.KRA_EVENT_DROP a.slice)
      else (s.setCrx k c { s.crx k c with o := (s.crx k c).o + 1 }).crUnit k c
        { status := St.KRA_EVENT_ACCESS_VIOLATION, tsValid := false, sr := 0, srHead := 0, tag := 0,
          result := a.key + 2 ^ 32 * a.qp + 2 ^ 52 * a.fed + 2 ^ 58 * reason, irq := false }

/-- An access leaves: its frame goes, and a completion credit it holds returns. -/
def State.accessGone (s : State) (a : KraAccess) : State :=
  let s1 := { s with kra.accesses := s.kra.accesses.filter (fun x => decide (x.frame ≠ a.frame)) }
  let s2 := match s1.frame? a.frame with
    | some f => s1.kraDone f
    | none => s1
  match s2.qpCtx a.slice a.qp with
  | some c => if a.credit then (s2.crLeave a.slice (s2.recvCr a.slice c)).crCheck a.slice (s2.recvCr a.slice c) else s2
  | none => s2

/-- An access fails its check, or is forced (R277, R279): counted, the owner told, and a NAK sent. -/
def State.kraViolate (s : State) (a : KraAccess) (reason : Nat) : State :=
  let s1 := ((s.incFld (F.KRA_ACCESS_VIOLATION a.slice)).raise (F.KRA_INT_STATUS_ACCESS_VIOLATION_SEEN a.slice) (R.KRA_INT_ENABLE a.slice)).kraEvent a reason
  (s1.kraHoldSeq a.slice a.qp a.seq).kraNak a.slice a.qp a.seq nakAccess reason

/-- Why the HBM entry refuses an access, if it does (R276, R277). -/
def State.entryRefuses (s : State) (a : KraAccess) : Option Nat :=
  let e := s.regEntry a.key
  if rgVariant e ≠ keyVariant a.key then some 1
  else if rgInst e ≠ a.inst then some 3
  else if bitOf e 119 ∧ bitsOf e 139 120 ≠ a.qp then some 4
  else if !(if a.op = 4 then bitOf e 117 else bitOf e 118) then some 5
  else if a.len ≠ 0 ∧ (a.addr < rgBase e ∨ rgBase e + rgLenM1 e < a.addr + a.len - 1) then some 6
  else none

def State.setAccess (s : State) (a : KraAccess) : State :=
  { s with kra.accesses := s.kra.accesses.map (fun x => if x.frame = a.frame then a else x) }

def State.lowerInflight (s : State) (key : Nat) : State :=
  let w := s.regWord key
  s.setRegWord key { w with inflight := w.inflight - 1 }

/-- Are all pieces of an access translatable: yes, refused (some), or not yet (none)? -/
def State.xlateAll (s : State) (k i unit : Nat) (write : Bool) : List (Nat × Nat) → State × Except (Option Nat) Unit
  | [] => (s, .ok ())
  | (a, _) :: ps =>
    match s.xlate k i a write unit with
    | (s1, .fault r) => (s1, .error (some r))
    | (s1, .wait) => (s1, .error none)
    | (s1, _) => s1.xlateAll k i unit write ps

/-- A checked access is translated (R272 step 5), and is then in flight; its request is accepted. -/
def State.accessTranslate (s : State) (a : KraAccess) : State :=
  let go := fun (t : State) =>
    let first := if bitOf a.flags (flagFirst - 12) then a.seq else (t.qpx a.qp).immFirst
    let t1 := t.setAccess { a with stage := 2, first := first }
    if a.dup then t1
    else
      let t2 := t1.kraAccept a.slice a.qp
      if a.op = 2 then t2.setQpx a.qp { t2.qpx a.qp with nextAddr := a.addr + a.len, nextKey := a.key, immFirst := first } else t2
  if (s.homeBinding a.inst).isSome then go s
  else
    match s.xlateAll a.slice a.inst 3 (decide (a.op ≠ 4)) (pieces 4096 a.addr a.len) with
    | (s1, .ok _) => go s1
    | (s1, .error none) => s1.setAccess { a with stage := 1 }
    | (s1, .error (some _)) =>
      ((s1.lowerInflight a.key).accessGone a).kraNak a.slice a.qp a.seq nakOperation 1

/-- ACCESS_KEY_CHECK (R276): the registration unit of the key's home slice checks the state word and the entry. -/
def execAccessKeyCheck (frame : Nat) (s : State) : Host.Outcome State Fault Refusal := whenSlices s <|
  match s.kra.accesses.find? (fun a => decide (a.frame = frame ∧ a.stage ≤ 1)) with
  | none => .next s
  | some a =>
    if a.stage = 1 then .next (s.accessTranslate a)
    else
      let home := keyHome a.key
      let w := s.regWord a.key
      if w.state = regValid ∧ 16383 ≤ w.inflight then .next s
      else
        let s1 := if home ≠ a.slice then s.incFld (F.KRA_REG_REMOTE_CHECKS home) else s
        if w.state ≠ regValid then .next ((s1.kraViolate a (if w.state = regFree then 1 else 2)).accessGone a)
        else if s1.hbmPoisoned (regAddr home (keyIndex a.key)) 64 then .next ((s1.accessGone a).kraNak a.slice a.qp a.seq nakOperation 2)
        else match s1.entryRefuses a with
          | some n => .next ((s1.kraViolate a n).accessGone a)
          | none => .next ((s1.setRegWord a.key { w with inflight := w.inflight + 1 }).accessTranslate a)

/-- The READ_RESP packets of a read's data (R284). -/
def State.kraRespond (s : State) (k qp mtu seq : Nat) : Nat → Nat → Nat → List Byte → State
  | 0, _, _, _ => s
  | n + 1, i, rsn, d =>
    let flags := b2n (decide (i = 0)) * 2 ^ flagFirst + b2n (decide (n = 0)) * 2 ^ flagLast
    (s.kraAnswer k qp { op := 5, seq := rsn, flags := flags, ext := leBytes 8 seq, payload := d.take mtu }).kraRespond k qp mtu seq n (i + 1)
      (seqAdd rsn 1) (d.drop mtu)

/-- The WRITE_IMM completion (R144, R273), under the credit the access holds, which returns with it. -/
def State.immComplete (s : State) (a : KraAccess) (c imm : Nat) : State :=
  let q := cxRecvSr c
  s.crUnit a.slice (s.recvCr a.slice c)
    { status := St.KRA_WRITE_IMM, tsValid := false, sr := s.fld (F.SR_CFG_LOCAL a.slice q), srHead := s.fld (F.SR_HEAD a.slice q), tag := 0,
      result := imm + 2 ^ 32 * a.qp, irq := bitOf a.flags (flagEvent - 12) }

/-- An access that has written or read its last byte retires and takes effect (R276, R280). -/
def State.accessEffect (s : State) (a : KraAccess) : State :=
  let s1 := (s.lowerInflight a.key).accessGone a
  if a.dup then s1 else s1.kraEffect a.slice a.qp a.seq (bitOf a.flags (flagAckReq - 12))

/-- An access fails after it was accepted (R287). -/
def State.accessFail (s : State) (a : KraAccess) (st : Nat) : State :=
  let reason := if st = St.TRANSLATION_FAULT then 1 else if st = St.HBM_UNCORRECTABLE ∨ st = St.SRAM_UNCORRECTABLE then 2 else 3
  (((s.lowerInflight a.key).accessGone a).kraHoldSeq a.slice a.qp a.seq).kraNak a.slice a.qp a.seq nakOperation reason

/-- The pieces of a read access that come from host memory: address and length. -/
def State.hostPieces (s : State) (a : KraAccess) : List (Nat × Nat) :=
  if a.op ≠ 4 then []
  else (pieces (s.mrrs a.inst) a.addr a.len).filterMap (fun p => match (s.translate a.slice a.inst p.1 false).2 with
    | .host _ h _ => some (h, p.2)
    | _ => none)

/-- Is a read of the access on its way whose data is only to be discarded? -/
def State.discarding (s : State) (a : KraAccess) : Bool :=
  let hosts := s.hostPieces a
  s.pcie.reads.any (fun r => decide (r.fn = a.inst) && r.discard && hosts.contains (r.addr, r.len))

/-- ACCESS_RETIRE (R276, R279 to R282, R284): an access in flight writes or reads its last byte. A flagged one waits for every earlier
request of its queue pair, and the last packet of a WRITE_IMM for the earlier ones of its message; a forced one only lowers INFLIGHT. -/
def execAccessRetire (frame : Nat) (s : State) : Host.Outcome State Fault Refusal := whenSlices s <|
  match s.kra.accesses.find? (fun a => decide (a.frame = frame ∧ 2 ≤ a.stage)) with
  | none => .next s
  | some a =>
    if a.stage = 3 then (if s.discarding a then .next s else .next ((s.lowerInflight a.key).accessGone a))
    else if bitOf a.flags 0 ∧ s.kra.accesses.any (fun b => decide (b.qp = a.qp ∧ b.stage = 2) && seqLt b.seq a.seq) then .next s
    else if a.imm.isSome ∧ s.kra.accesses.any (fun b => decide (b.qp = a.qp ∧ b.op = 2 ∧ b.stage = 2) && seqLt b.seq a.seq && !seqLt b.seq a.first) then .next s
    else if a.op = 4 then
      match s.dmaRead a.slice a.inst a.addr a.len (s.accessOp a) with
      | (s1, .wait) => .next s1
      | (s1, .fail st) => .next (s1.accessFail a st)
      | (s1, .ok d) =>
        let mtu := cxMtu ((s1.qpCtx a.slice a.qp).getD 0)
        .next ((s1.kraRespond a.slice a.qp mtu a.seq (readCount mtu a.len) 0 a.rsnBase d).accessEffect a)
    else
      match s.dmaWrite a.slice a.inst a.addr { s.accessOp a with rx := !bitOf a.flags 0 } a.data with
      | (s1, .wait) => .next s1
      | (s1, .fail st) => .next (s1.accessFail a st)
      | (s1, .ok _) =>
        match a.imm, s1.qpCtx a.slice a.qp with
        | some imm, some c => .next ((s1.immComplete a c imm).accessEffect { a with credit := false })
        | _, _ => .next (s1.accessEffect a)

/-! Registrations (R275, R279, R290). -/

/-- The first FREE index of slice k from i on, around. -/
def State.freeReg (s : State) (k i : Nat) : Nat → Option Nat
  | 0 => none
  | n + 1 => if (Map.get (fun _ => ({} : RegWord)) s.kra.regs (262144 * k + i % 262144)).state = regFree then some (i % 262144)
    else s.freeReg k (i + 1) n

/-- MR_REGISTER (R275, R460). -/
def execMrRegister (slice ring : Nat) (s : State) : Host.Outcome State Fault Refusal := whenSlices s <|
  match s.jobFor slice ring 0x18 with
  | none => .next s
  | some j =>
    let i := s.srInst slice ring
    let base := j.head.addr
    let w2 := j.dw 2
    let len := bitsOf w2 39 0
    if 2 ^ 64 ≤ base + len ∨ (bitOf w2 40 = false ∧ bitOf w2 41 = false) then .next (s.finish j St.MR_INVALID 0 false)
    else if s.fld (F.INST_QUOTA_B_MR_MAX i) ≤ s.fld (F.INST_USE_B_MR i) then
      .next ((s.finish j St.QUOTA_EXCEEDED 0 false).quotaRefused i 3)
    else if 262144 ≤ s.fld (F.KRA_MR_ACTIVE slice) then .next (s.finish j St.MR_TABLE_FULL 0 false)
    else match s.freeReg slice (Config.unstated s.freeCtr % 262144) 262144 with
      | none => .next (s.finish j St.MR_TABLE_FULL 0 false)
      | some ix =>
        let old := leNat (s.hbmRead (regAddr slice ix) 64)
        let v := (rgVariant old + 1) % 4096
        let e := base + 2 ^ 64 * len + 2 ^ 104 * i + 2 ^ 117 * bitsOf w2 42 40 + 2 ^ 120 * bitsOf w2 63 44 + 2 ^ 140 * v +
          2 ^ 152 * bitsOf (j.dw 3) 11 0 + 2 ^ 164 * bitsOf (j.dw 3) 12 12
        let key := v + 2 ^ 12 * ix + 2 ^ 30 * slice
        let s1 := ((s.draw).hbmWrite (regAddr slice ix) (leBytes 64 e)).hbmCount (regAddr slice ix) 64 0x07
        .next (((s1.setRegWord key { state := regValid, inflight := 0 }).incFld (F.INST_USE_B_MR i)).finish j St.SUCCESS key false)

/-- A registration becomes FREE. -/
def State.regGone (s : State) (key : Nat) : State :=
  (s.setRegWord key {}).subFld (F.INST_USE_B_MR (rgInst (s.regEntry key))) 1

/-- MR_REVOKE (R279): the state word moves to DRAINING. -/
def execMrRevoke (slice ring : Nat) (s : State) : Host.Outcome State Fault Refusal := whenSlices s <|
  match s.jobFor slice ring 0x19 with
  | none => .next s
  | some j =>
    let i := s.srInst slice ring
    let key := bitsOf (j.dw 2) 31 0
    let e := s.regEntry key
    let w := s.regWord key
    if (rgInst e ≠ i ∧ i ≠ 0) ∨ w.state ≠ regValid ∨ rgVariant e ≠ keyVariant key then .next (s.finish j St.MR_KEY_INVALID 0 false)
    else
      let s1 := (s.setRegWord key { w with state := regDraining }).incFld (F.KRA_REVOKES (keyHome key))
      let r : Revoke := { key := key, job := some (slice, ring, j.id), since := s.time.mono }
      .next ({ s1 with kra.revokes := s1.kra.revokes ++ [r] }.setJob { j with taken := true })

/-- Finish the job of a revocation. -/
def State.revokeDone (s : State) (r : Revoke) (st result : Nat) : State :=
  match r.job with
  | some (k, q, id) => match s.jobById k q id with
    | some j => s.finish j st result false
    | none => s
  | none => s

/-- REVOKE_DRAINED (R279): INFLIGHT of a DRAINING registration has reached zero. -/
def execRevokeDrained (key : Nat) (s : State) : Host.Outcome State Fault Refusal := whenSlices s <|
  match s.kra.revokes.find? (fun r => decide (r.key = key)) with
  | none => .next s
  | some r =>
    if (s.regWord key).inflight ≠ 0 then .next s
    else
      let s1 := { s with kra.revokes := s.kra.revokes.filter (fun x => decide (x.key ≠ key)) }.regGone key
      .next (if r.forced then s1 else s1.revokeDone r St.SUCCESS 0)

/-- The accesses under a key that are in flight, or checked and being translated. -/
def State.underKey (s : State) (key : Nat) : List KraAccess :=
  s.kra.accesses.filter (fun a => decide (a.key = key ∧ (a.stage = 1 ∨ a.stage = 2)))

/-- Every access in flight under a key fails with reason 7; nothing more is written and the data of its reads is discarded (R279). -/
def State.forceAccesses (s : State) (key : Nat) : State :=
  (s.underKey key).foldl (fun t a =>
    let hosts := t.hostPieces a
    let drop := fun (r : HostRead) => if r.fn = a.inst ∧ hosts.contains (r.addr, r.len) = true then { r with discard := true } else r
    let t1 : State := { t with pcie.reads := t.pcie.reads.map drop,
                               pcie.arrived := t.pcie.arrived.filter (fun e => !(decide (e.1 = a.inst) && hosts.contains (e.2.1, e.2.2.length))) }
    (t1.kraViolate a 7).setAccess { a with stage := 3 }) s

/-- A revocation is forced (R279). -/
def State.forceRevoke (s : State) (key : Nat) : State :=
  let k := keyHome key
  ((s.forceAccesses key).satFld (F.KRA_REVOKES_FORCED k) 1).raise (F.KRA_INT_STATUS_REVOKE_FORCED_SEEN k) (R.KRA_INT_ENABLE k) |>.instEvent
    (rgInst (s.regEntry key)) .revokeForced key

/-- KRA_DRAIN_LIMIT (R279). -/
def execKraDrainLimit (key : Nat) (s : State) : Host.Outcome State Fault Refusal := whenSlices s <|
  match s.kra.revokes.find? (fun r => decide (r.key = key) && !r.forced) with
  | none => .next s
  | some r =>
    let w := s.regWord key
    if w.inflight = 0 ∨ s.time.mono < r.since + max 1 (s.fld F.KRA_DRAIN_LIMIT) * ticksPerUs then .next s
    else
      let force := fun (x : Revoke) => if x.key = key then { x with forced := true } else x
      let s1 : State := { s with kra.revokes := s.kra.revokes.map force }
      .next ((s1.forceRevoke key).revokeDone r St.REVOKE_FORCED w.inflight)

/-- The keys of instance i that are VALID or DRAINING. -/
def State.keysOf (s : State) (i : Nat) : List Nat :=
  (s.kra.regs.map (fun e =>
    let k := e.1 / 262144
    let ix := e.1 % 262144
    rgVariant (leNat (s.hbmRead (regAddr k ix) 64)) + 2 ^ 12 * ix + 2 ^ 30 * k)).filter (fun key => decide (rgInst (s.regEntry key) = i))

/-- Every registration of instance i is revoked with a limit of zero and no completion (R290). The MR records of the loss report come
with it (R464). -/
def State.revokeAll (s : State) (i : Nat) : State × List LossRec :=
  (s.keysOf i).foldl (fun (acc : State × List LossRec) key =>
    let t := acc.1
    let w := t.regWord key
    let rest := t.kra.revokes.filter (fun x => decide (x.key ≠ key))
    let t1 := if w.state = regValid then t.incFld (F.KRA_REVOKES (keyHome key)) else t
    if w.inflight = 0 then ({ t1 with kra.revokes := rest }.regGone key, acc.2)
    else
      let n := (t1.underKey key).length
      let t2 := (t1.setRegWord key { w with state := regDraining }).forceRevoke key
      ({ t2 with kra.revokes := rest ++ [{ key := key, job := none, since := t2.time.mono, forced := true }] }, acc.2 ++ [⟨5, key, n, 0⟩])) (s, [])

/-! Contexts arrive (R257). -/

/-- The context of a queue pair from the backing store. -/
def State.readCtx (s : State) (k qp : Nat) : State × DmaRes :=
  match s.ctxPlace qp with
  | (1, a) => match s.getTag k noInst (s.deadline (s.unitClass 23)) (kraOp qp) with
    | (s1, false) => (s1, .wait)
    | (s1, true) =>
      let s2 := (s1.hbmCount a 256 0x06).giveTag k noInst
      (s2, if s2.hbmPoisoned a 256 then .fail St.HBM_UNCORRECTABLE else .ok (s2.hbmRead a 256))
  | (2, a) => s.dmaRead k 0 a 256 (s.classOp 2 (s.unitClass 23) s.time.mono)
  | _ => (s, .fail St.KRA_QP_INVALID)

/-- Apply what happened to a queue pair while its context was not cached. -/
def State.ctxArrived (s : State) (k qp : Nat) : State :=
  match (s.qpx qp).errPend with
  | none => s
  | some e => (s.kraError k qp e none).setQpx qp { (s.kraError k qp e none).qpx qp with errPend := none }

/-! Queue-pair commands (R289). -/

def State.qpResult (s : State) (k v : Nat) : State := s.setFld (F.KRA_QP_RESULT k) v

/-- The staged context of slice k. -/
def State.staged (s : State) (k : Nat) : Nat := natOfWords ((List.range 32).map (fun u => (s.rd (R.KRA_QP_STAGE k u)).toNat))

/-- Is a staged context valid in slice k (R252, R289, R460)? -/
def State.ctxValid (s : State) (k c : Nat) : Bool :=
  let i := cxInst c
  decide (homeOf (cxHandle c) = k) && decide (s.srInst k (cxSendSr c) = i) && (!cxRecvEn c || decide (s.srInst k (cxRecvSr c) = i)) &&
  decide (cxTransport c ≠ 3) && !(decide (cxTransport c = 0) && decide (5 ≤ bitsOf c 18 16)) && decide (bitsOf c 18 16 ≤ 5)

/-- CREATE (R289). While every cached context is pinned, it waits as a fetch does (R256). -/
def State.qpCreate (s : State) (k qp : Nat) : State :=
  let c0 := s.staged k
  let i := cxInst c0
  if (s.qpx qp).live then s.qpResult k 2
  else if (s.ctxPlace qp).1 ≠ 1 ∧ (s.ctxPlace qp).1 ≠ 2 then s.qpResult k 3
  else if !s.ctxValid k c0 then s.qpResult k 4
  else if s.fld (F.INST_QUOTA_B_QP_MAX i) ≤ s.fld (F.INST_USE_B_QP i) then (s.qpResult k 4).quotaRefused i 2
  else
    let c1 := setBits (setBits (cxSetErr (cxSetCounts (cxSetState c0 qpInit) 0 0) 0) 671 640 0) 703 672 0
    match s.ctxInsert k qp c1 with
    | none => { s with kra.cmds := s.kra.cmds ++ [(k, qp, 1)], kra.fetch := s.kra.fetch ++ [(k, qp)] }.qpResult k 0
    | some s1 =>
      let x : QpX := { live := true, inst := i, slice := k, ackNext := cxSeqUnacked c1 }
      ((s1.setQpx qp x).incFld (F.INST_USE_B_QP i)).qpResult k 1

/-- MODIFY's fields, from the stage (R289). -/
def modifyCtx (c st : Nat) : Nat :=
  let put := fun (x : Nat) (f : Nat × Nat) => setBits x f.1 f.2 (bitsOf st f.1 f.2)
  ([(11, 8), (131, 128), (135, 132), (151, 136), (167, 152), (178, 168), (191, 184), (1151, 1024), (1279, 1152), (1327, 1280), (1375, 1328),
    (1380, 1376), (1381, 1381), (1399, 1384), (1415, 1400), (1431, 1416), (1439, 1432), (1447, 1440)] : List (Nat × Nat)).foldl put c

/-- DRAIN (R289): jobs of which nothing has been sent end; the result waits. -/
def State.qpDrainNow (s : State) (k qp c : Nat) : State :=
  let x := s.qpx qp
  let s1 := (x.jobs.filter (fun j => !j.started)).foldl (fun t j => match t.jobById k (cxSendSr c) j.id with
    | some r => t.finish r St.WR_FLUSHED 0 false
    | none => t) s
  ((s1.setQpx qp { x with jobs := x.jobs.filter (fun j => j.started), drain := true }).putCtx k qp (cxSetState c qpDrain)).qpResult k 0

/-- RESET (R289): what is unfinished is flushed; the context and its cached copy go. -/
def State.qpResetNow (s : State) (k qp : Nat) : State :=
  let x := s.qpx qp
  let s1 := match s.qpCtx k qp with
    | some c => (s.kraFlush k c qp none).kraStop k (cxInst c) qp
    | none => s
  let s2 := s1.setCtxCache k ((s1.ctxCache k).filter (fun e => decide (e.1 ≠ qp)))
  let s3 := { s2 with kra.qps := Map.erase s2.kra.qps qp }
  if x.live then s3.subFld (F.INST_USE_B_QP x.inst) 1 else s3

/-- A command that needs the cached context c. -/
def State.qpCmdOn (s : State) (k qp op c : Nat) : State :=
  let st := cxState c
  match op with
  | 2 => if st = qpInit ∨ st = qpDrain then (s.putCtx k qp (cxSetState c qpActive)).qpResult k 1 else s.qpResult k 2
  | 3 => if st = qpInit ∨ st = qpActive then (s.putCtx k qp (modifyCtx c (s.staged k))).qpResult k 1 else s.qpResult k 2
  | 4 =>
    let img := cxWork c (Config.unstated s.freeCtr)
    ((List.range 32).foldl (fun t u => t.wr (R.KRA_QP_STAGE k u) (BitVec.ofNat 64 ((wordsOf 32 img).getD u 0))) s.draw).qpResult k 1
  | 5 => if st = qpActive then s.qpDrainNow k qp c else s.qpResult k 2
  | 7 => if st = qpActive ∨ st = qpDrain then
      ((s.draw).kraError k qp (Config.unstated s.freeCtr % 2 ^ 16) none).qpResult k 1
    else s.qpResult k 2
  | _ => s

/-- A KRA_QP_CMD write in slice k (R289). A command whose context is not cached waits for it. -/
def State.qpCmd (s : State) (k qp op : Nat) : State :=
  if s.fld (F.KRA_QP_RESULT k) = 0 then s
  else if op = 1 then s.qpCreate k qp
  else if op = 6 then (s.qpResetNow k qp).qpResult k 1
  else if op = 0 ∨ 7 < op then s
  else if !(s.qpx qp).live ∨ (s.qpx qp).slice ≠ k then (if op = 4 then s.qpResult k 1 else s.qpResult k 2)
  else match s.qpCtx k qp with
    | some c => s.qpCmdOn k qp op c
    | none => ({ s with kra.cmds := s.kra.cmds ++ [(k, qp, op)] }.qpResult k 0).ctxFetch k qp

/-- May this agent write KRA_QP_CMD of slice k? -/
def qpCmdOk (g : Agent) (k : Nat) : Bool := decide (k < 4) && accessOk (R.KRA_QP_CMD k) true g

def State.qpCmdBy (s : State) (g : Agent) (k qp op : Nat) : State := if qpCmdOk g k && decide (qp < 2 ^ 20) then s.qpCmd k qp op else s

def execQpCreate (agent : Agent) (slice qp : Nat) (s : State) : Host.Outcome State Fault Refusal := whenSlices s <| .next (s.qpCmdBy agent slice qp 1)
def execQpActivate (agent : Agent) (slice qp : Nat) (s : State) : Host.Outcome State Fault Refusal := whenSlices s <| .next (s.qpCmdBy agent slice qp 2)
def execQpModify (agent : Agent) (slice qp : Nat) (s : State) : Host.Outcome State Fault Refusal := whenSlices s <| .next (s.qpCmdBy agent slice qp 3)
def execQpQuery (agent : Agent) (slice qp : Nat) (s : State) : Host.Outcome State Fault Refusal := whenSlices s <| .next (s.qpCmdBy agent slice qp 4)
def execQpDrain (agent : Agent) (slice qp : Nat) (s : State) : Host.Outcome State Fault Refusal := whenSlices s <| .next (s.qpCmdBy agent slice qp 5)
def execQpReset (agent : Agent) (slice qp : Nat) (s : State) : Host.Outcome State Fault Refusal := whenSlices s <| .next (s.qpCmdBy agent slice qp 6)
def execQpError (agent : Agent) (slice qp : Nat) (s : State) : Host.Outcome State Fault Refusal := whenSlices s <| .next (s.qpCmdBy agent slice qp 7)

/-- QP_DRAIN_DONE (R289): no packet of a draining queue pair is unacknowledged. -/
def execQpDrainDone (slice qp : Nat) (s : State) : Host.Outcome State Fault Refusal := whenSlices s <|
  let x := s.qpx qp
  if !x.live ∨ x.slice ≠ slice ∨ !x.drain ∨ !x.out.isEmpty ∨ !x.jobs.isEmpty then .next s
  else .next ((s.setQpx qp { x with drain := false }).qpResult slice 1)

/-- KRA_CONTEXT_FETCH_DONE (R256, R257): a fetch of slice k completes: the waiting packets go on, or, when it fails, are dropped. -/
def execKraContextFetchDone (slice qp : Nat) (s : State) : Host.Outcome State Fault Refusal := whenSlices s <|
  if !s.kra.fetch.contains (slice, qp) then .next s
  else if s.kra.cmds.contains (slice, qp, 1) then
    .next (State.qpCreate { s with kra.fetch := s.kra.fetch.erase (slice, qp), kra.cmds := s.kra.cmds.erase (slice, qp, 1) } slice qp)
  else
    let waiting := (s.kra.miss.getD slice []).filter (fun id => match s.frame? id with | some f => decide (f.kraQp = qp) | none => true)
    match s.readCtx slice qp with
    | (s1, .wait) => .next s1
    | (s1, .fail _) =>
      let s2 := { s1 with kra.fetch := s1.kra.fetch.erase (slice, qp) }
      let s3 := waiting.foldl (fun t id => match t.frame? id with
        | some f => (t.incFld (F.KRA_RX_NO_QP slice)).kraDrop f
        | none => t.kraForget id) s2
      let cmds := s3.kra.cmds.filter (fun c => decide (c.1 = slice ∧ c.2.1 = qp))
      .next (if cmds.isEmpty then s3 else { s3 with kra.cmds := s3.kra.cmds.filter (fun c => !(decide (c.1 = slice ∧ c.2.1 = qp))) }.qpResult slice 3)
    | (s1, .ok img) =>
      let c0 := leNat img
      let c := if (s1.qpx qp).live then c0 else cxSetState c0 qpReset
      match s1.ctxInsert slice qp c with
      | none => .next s
      | some s2 =>
        let s3 := { s2 with kra.fetch := s2.kra.fetch.erase (slice, qp), kra.resumed := s2.kra.resumed ++ waiting,
                            kra.miss := s2.kra.miss.set slice ((s2.kra.miss.getD slice []).filter (fun id => !waiting.contains id)) }
        let s4 := (s3.setFld (F.KRA_MISS_DEPTH slice) (s3.kra.miss.getD slice []).length).ctxArrived slice qp
        match s4.kra.cmds.find? (fun x => decide (x.1 = slice ∧ x.2.1 = qp)), s4.qpCtx slice qp with
        | some (_, _, op), some c1 =>
          .next (({ s4 with kra.cmds := s4.kra.cmds.filter (fun x => !(decide (x.1 = slice ∧ x.2.1 = qp))) }).qpCmdOn slice qp op c1)
        | _, _ => .next s4

/-! Waits, counted by the cycle (R256, R276). -/

/-- Does a fetch of slice k wait because every cached context is pinned? -/
def State.pinWaits (s : State) (k : Nat) : Bool :=
  s.kra.fetch.any (fun e => decide (e.1 = k)) && decide (16384 ≤ (s.ctxCache k).length) && (s.ctxCache k).all (fun e => s.ctxPinned e.1)

/-- Does a check of a registration of slice k wait because its INFLIGHT is at 16,383? -/
def State.regWaits (s : State) (k : Nat) : Bool :=
  s.kra.accesses.any (fun a => decide (a.stage = 0 ∧ keyHome a.key = k ∧ (s.regWord a.key).state = regValid ∧ 16383 ≤ (s.regWord a.key).inflight))

/-! Function reset, Bus Master Enable and removal (R289, R290, R461, R464). -/

/-- The live queue pairs of instance i. -/
def State.qpsOf (s : State) (i : Nat) : List Nat := (s.kra.qps.filter (fun e => e.2.live && decide (e.2.inst = i))).map (fun e => e.1)

/-- The QP records of a loss report (R464). -/
def State.qpLoss (s : State) (i : Nat) : List LossRec :=
  (s.qpsOf i).filterMap (fun qp =>
    let x := s.qpx qp
    match s.qpCtx x.slice qp with
    | some c => if x.out.isEmpty then none else some ⟨3, qp, cxSeqUnacked c, cxSeqNext c⟩
    | none => none)

/-- Every queue pair of instance i enters ERROR, with no completion written (R289). -/
def State.qpsDown (s : State) (i err : Nat) : State :=
  (s.qpsOf i).foldl (fun t qp =>
    let x := t.qpx qp
    match t.qpCtx x.slice qp with
    | some c => (t.kraStop x.slice i qp).putCtx x.slice qp (cxSetErr (cxSetState c qpErr) err)
    | none => t.setQpx qp { x with errPend := some err }) s

/-- Every queue pair of instance i goes to RESET, and its registrations are freed (R461). -/
def State.kraDiscard (s : State) (i : Nat) : State :=
  let s1 := (s.qpsOf i).foldl (fun t qp => t.qpResetNow (t.qpx qp).slice qp) s
  (s1.revokeAll i).1

end Sys2Proof.Machine
end

