-- ==== Sys2Proof/Machine/Korrum.lean ====
section
/-!
DEFINITION. Korrum Link: ports and their states, link blocks, virtual channels and credits, retry, and the packets that arrive (chapter 10:
R292 to R307, R312, R314).
-/

namespace Sys2Proof.Machine

def klDisabled : Nat := 0
def klDetect : Nat := 1
def klEqualise : Nat := 2
def klAlign : Nat := 3
def klNegotiate : Nat := 4
def klActive : Nat := 5
def klRetrain : Nat := 6
def klRefused : Nat := 7

def State.klState (s : State) (p : Nat) : Nat := s.fld (F.KL_STATE_STATE p)

/-- A port enters a state. -/
def State.setKl (s : State) (p v : Nat) : State := (s.setFld (F.KL_STATE_STATE p) v).setLink p { s.link p with since := s.time.mono }

def fedAlone : Nat := 0
def fedJoining : Nat := 1
def fedMember : Nat := 2
def fedLeaving : Nat := 3

def State.fedState (s : State) : Nat := s.fld F.FED_STATE_STATE
def State.isMaster (s : State) : Bool := decide (s.fedState = fedMember) && s.on F.FED_MASTER_SELF
def State.ownEpoch (s : State) : Nat := s.fld F.FED_EPOCH_OWN
def State.fedEpoch (s : State) : Nat := s.fld F.FED_EPOCH_EPOCH

/-! Messages of the federation. The spec gives their meaning and not their bytes (R304, R308 to R310, R318, R320): `fedBytes` is those. -/

def msgJoinReq : Nat := 1
def msgJoinRefuse : Nat := 2
def msgLeaveReq : Nat := 3
def msgDissolve : Nat := 4
def msgMoveBegin : Nat := 5
def msgMoveReady : Nat := 6
def msgHeartbeat : Nat := 7
def msgHeartbeatAnswer : Nat := 8
def msgMasterClaim : Nat := 9
def msgEpochRaise : Nat := 10
def msgEpochAck : Nat := 11
def msgEpochAbort : Nat := 12
def msgRelay : Nat := 13
def msgRelayReply : Nat := 14
def msgEvent : Nat := 15
def msgTimeSync : Nat := 20
def msgTimeDelayReq : Nat := 21
def msgTimeDelayResp : Nat := 22

/-- Send a FED_MGMT message to a member; `reply` takes the response class (R304). -/
def State.fedSend (s : State) (dest kind : Nat) (fields : List Nat) (reply : Bool) : State :=
  s.korrumSend { typ := 11, vc := if reply then 2 else 0, cls := s.unitClass 29, dest := dest, src := s.fedId, payload := fedBytes kind fields }

/-! Negotiation (R301, R302). -/

/-- The buffer flits of VC v of port p (KL_VC_CREDITS). -/
def State.vcBuffer (s : State) (p v : Nat) : Nat := bitsOf (s.fld (F.KL_VC_CREDITS p)) (16 * v + 11) (16 * v)

/-- The 64 bytes of LINK_CAPS; the spec lists its fields and not their places: `fedBytes 0` is the message. -/
def State.linkCaps (s : State) (nonce : List Byte) : List Byte :=
  fedBytes 0 [1, s.fedId, b2n (s.on F.FED_ID_VALID), s.ownEpoch, s.fedEpoch, s.fld F.FED_MASTER_ID, leNat nonce]

/-- A port enters NEGOTIATE: it sends LINK_CAPS with a fresh nonce. -/
def State.negotiate (s : State) (p : Nat) : State :=
  let r := s.drbg 4 16
  let s1 := r.1.setKl p klNegotiate
  (s1.setLink p { s1.link p with nonce := r.2 }).emit (.linkMsg p (s1.linkCaps r.2))

/-- The proof of R302 by the end with ID `id`: a GCM tag over an empty plaintext. -/
def linkProof (key : List Byte) (mine theirs : List Byte) (id role : Nat) : List Byte :=
  gcmTag (key.take 32) (kraIv key role 0) (mine ++ theirs ++ leBytes 1 id) []

/-- The 64 bytes of material for link proofs, where FED_KEY_SLOT gives them. -/
def State.linkKey (s : State) : Option (List Byte) :=
  match s.keyRefused s.fed.keySlot 2 with
  | some _ => none
  | none => some (rennet (s.rootKey s.fed.keySlot) (contextLabel s.fed.fedLabel 0 2 0) 4)

/-- Epochs that a link would bring into one federation lie two or more apart (R321). -/
def State.epochGap (s : State) (c : PeerCaps) : Bool :=
  let here := s.ownEpoch :: (if s.fedState = fedMember then [s.fedEpoch] else [])
  let there := c.own :: (if c.member then [c.epoch] else [])
  here.any (fun a => there.any (fun b => decide (a + 2 ≤ b ∨ b + 2 ≤ a)))

/-- The IDs clash (R302, R308, R593): an end holds none, both hold one, or the peer's belongs to another member here. -/
def State.idClash (s : State) (c : PeerCaps) : Bool :=
  !s.on F.FED_ID_VALID || !c.valid || decide (c.fed = s.fedId) ||
  (decide (s.fedState = fedMember) && bitOf (s.fld F.FED_MEMBERS) c.fed && !(c.member && decide (c.master = s.fld F.FED_MASTER_ID)))

/-- Why the link refuses, if it does: the first failing check of R302's table. -/
def State.capsRefuse (s : State) (p : Nat) (c : PeerCaps) : Option Nat :=
  let authOk := match s.linkKey with
    | some key => decide (c.proof = linkProof key c.nonce (s.link p).nonce c.fed (if c.fed < s.fedId then 0 else 1))
    | none => false
  if c.version < 1 then some 1
  else if !authOk then some 2
  else if s.idClash c then some 3
  else if s.epochGap c then some 4
  else if c.fed ≠ klPeer s.fedId p then some 5
  else if 2048 < ((List.range 4).map (s.vcBuffer p)).sum then some 6
  else none

/-- The link becomes ACTIVE: block numbers and credit counts start at zero. -/
def State.linkUpNow (s : State) (p : Nat) (c : PeerCaps) : State :=
  let l := s.link p
  let l1 : KLink := { since := s.time.mono, nonce := l.nonce, ackAt := s.time.mono, adv := c.buffers, outQ := l.outQ, inbox := l.inbox,
                      peerMember := c.member, peerMaster := c.master }
  ((s.setLink p l1).setFld (F.KL_STATE_STATE p) klActive).setFld (F.KL_STATE_PEER_FED p) c.fed

/-- The master dissolves its federation (R310): DISSOLVE to every other member. -/
def State.dissolveAll (s : State) : State :=
  ((List.range 64).filter (fun f => bitOf (s.fld F.FED_MEMBERS) f && decide (f ≠ s.fedId))).foldl (fun t f => t.fedSend f msgDissolve [] false) s

/-! Link states (R301). -/

/-- The 64-byte flits a packet takes (R303). -/
def KPkt.flitCount (p : KPkt) : Nat := (16 + p.payload.length + 63) / 64

/-- What leaving ACTIVE loses: the flits of the blocks held for replay and of packets not complete (R301). -/
def KLink.lostFlits (l : KLink) : Nat :=
  (l.held.map (fun b => ((List.range 8).filter (bitOf (b.masks % 256))).length)).sum + (l.parts.map List.length).sum

/-- A port leaves ACTIVE (R301). -/
def State.linkExit (s : State) (p : Nat) : State :=
  let l := s.link p
  let s1 := (s.addFld (F.KL_LINK_LOSS p) l.lostFlits).incFld (F.KL_RETRAINS p)
  let s2 := s1.setLink p { l with held := [], replay := none, lastReplay := none, replays := 0, retry := false, parts := [[], [], [], []],
                                  leaving := [none, none, none, none] }
  let s3 := if l.peerMember then { s2 with fed.aloneSince := s.time.mono } else s2
  s3.raiseWith F.KL_INT_STATUS_LINK_DOWN_SEEN R.KL_INT_ENABLE p

def klPort (p : Nat) : Bool := decide (p < 6)

/-- A Keeper's write of KL_CTRL[p].ENABLE (R301, R322). -/
def State.klEnable (s : State) (p : Nat) (en : Bool) : State :=
  let s1 := s.setFld (F.KL_CTRL_ENABLE p) (b2n en)
  if en then (if s.klState p = klDisabled then s1.setKl p klDetect else s1)
  else
    let s2 := if s.klState p = klActive then s1.linkExit p else s1.setLink p { (s1.link p) with held := [], parts := [[], [], [], []] }
    s2.setKl p klDisabled

/-- May this agent write KL_CTRL? -/
def klCtrlOk (g : Agent) (p : Nat) : Bool := klPort p && accessOk (R.KL_CTRL p) true g

/-- KL_ENABLE (R301). -/
def execKlEnable (agent : Agent) (port : Nat) (s : State) : Host.Outcome State Fault Refusal := whenSlices s <|
  if klCtrlOk agent port then .next (s.klEnable port true) else .next s

/-- KL_DISABLE (R301). -/
def execKlDisable (agent : Agent) (port : Nat) (s : State) : Host.Outcome State Fault Refusal := whenSlices s <|
  if klCtrlOk agent port then .next (s.klEnable port false) else .next s

/-- KL_SIGNAL_DETECT (R301): signal on all four lanes. -/
def execKlSignalDetect (port : Nat) (s : State) : Host.Outcome State Fault Refusal := whenSlices s <|
  if klPort port && decide (s.klState port = klDetect) then .next (s.setKl port klEqualise) else .next s

/-- Have `ms` milliseconds passed since port p entered its state? -/
def State.klElapsed (s : State) (p ms : Nat) : Bool := decide ((s.link p).since + ms * ticksPerMs ≤ s.time.mono)

/-- KL_TRAINING_COMPLETE (R301): all lanes trained within 500 ms. -/
def execKlTrainingComplete (port : Nat) (s : State) : Host.Outcome State Fault Refusal := whenSlices s <|
  if klPort port && decide (s.klState port = klEqualise) && !s.klElapsed port 500 then .next (s.setKl port klAlign) else .next s

/-- KL_EQUALISE_TIMEOUT (R301). -/
def execKlEqualiseTimeout (port : Nat) (s : State) : Host.Outcome State Fault Refusal := whenSlices s <|
  if klPort port && decide (s.klState port = klEqualise) && s.klElapsed port 500 then .next ((s.satFld (F.KL_TRAIN_FAIL port) 1).setKl port klDetect)
  else .next s

/-- KL_ALIGN_LOCK (R301): FEC lock, deskew and block lock. -/
def execKlAlignLock (port : Nat) (s : State) : Host.Outcome State Fault Refusal := whenSlices s <|
  if klPort port && decide (s.klState port = klAlign) then .next (s.negotiate port) else .next s

/-- KL_LINK_FAULT (R299, R301): loss of lock or too many uncorrectable codewords (`lost`), or eight replays without an advance of ACK_SEQ,
move an ACTIVE port to RETRAIN. -/
def execKlLinkFault (port : Nat) (lost : Bool) (s : State) : Host.Outcome State Fault Refusal := whenSlices s <|
  if klPort port && decide (s.klState port = klActive) && (lost || decide (8 ≤ (s.link port).replays)) then
    .next (((s.linkExit port).setKl port klRetrain).raiseWith F.KL_INT_STATUS_RETRAIN_SEEN R.KL_INT_ENABLE port)
  else .next s

/-- KL_RETRAIN_LOCK (R301): lock within 10 ms. -/
def execKlRetrainLock (port : Nat) (s : State) : Host.Outcome State Fault Refusal := whenSlices s <|
  if klPort port && decide (s.klState port = klRetrain) && !s.klElapsed port 10 then .next (s.negotiate port) else .next s

/-- KL_RETRAIN_TIMEOUT (R301). -/
def execKlRetrainTimeout (port : Nat) (s : State) : Host.Outcome State Fault Refusal := whenSlices s <|
  if klPort port && decide (s.klState port = klRetrain) && s.klElapsed port 10 then .next (s.setKl port klDetect) else .next s

/-- KL_REFUSED_RETRY (R301): the exchange is repeated after 1 s. -/
def execKlRefusedRetry (port : Nat) (s : State) : Host.Outcome State Fault Refusal := whenSlices s <|
  if klPort port && decide (s.klState port = klRefused) && s.klElapsed port 1000 then .next (s.negotiate port) else .next s

/-! Flits and link blocks (R295 to R300). -/

/-- The 16-byte header of a packet (R303). -/
def KPkt.header (p : KPkt) : List Byte :=
  leBytes 16 (p.typ + 16 * p.vc + 2 ^ 8 * p.cls + 2 ^ 12 * p.dest + 2 ^ 18 * p.src + 2 ^ 24 * p.hops + 2 ^ 28 * b2n p.mayIgnore +
    2 ^ 32 * p.payload.length + 2 ^ 48 * p.handle)

/-- Cut bytes into n flits of 64 bytes, the last padded with zeros. -/
def flitsOf : Nat → List Byte → List (List Byte)
  | 0, _ => []
  | n + 1, d => slice d 0 64 :: flitsOf n (d.drop 64)

def KPkt.flits (p : KPkt) : List (List Byte) := flitsOf p.flitCount (p.header ++ p.payload)

/-- A packet from its flits. -/
def kpktOf (fl : List (List Byte)) : KPkt :=
  let d := fl.flatten
  let h := leAt d 0 16
  { typ := bitsOf h 3 0, vc := bitsOf h 5 4, cls := bitsOf h 11 8, dest := bitsOf h 17 12, src := bitsOf h 23 18, hops := bitsOf h 27 24,
    mayIgnore := bitOf h 28, handle := bitsOf h 68 48, payload := slice d 16 (bitsOf h 45 32) }

/-- The packet at the head of VC v. -/
def KLink.headOf (l : KLink) (v : Nat) : Option (KPkt × Bool) := l.outQ.find? (fun e => decide (e.1.vc = v))

/-- The next flit on VC v: of the open packet, or of the one at the head when the credit covers all of it (R298, R307). -/
def KLink.nextFlit (l : KLink) (v : Nat) : Option (KLink × List Byte × Bool × Bool × Nat) :=
  let give := fun (l1 : KLink) (o : OpenPkt) =>
    match o.flits with
    | [] => none
    | f :: rest =>
      let left := if rest.isEmpty then none else some { o with flits := rest, fresh := false }
      some ({ l1 with leaving := l1.leaving.set v left, sent := l1.sent.set v ((l1.sent.getD v 0 + 1) % 65536) }, f, o.fresh, o.transit, o.kind)
  match l.leaving.getD v none with
  | some o => give l o
  | none =>
    match takeFirst (fun (e : KPkt × Bool) => decide (e.1.vc = v)) l.outQ with
    | none => none
    | some ((p, tr), rest) =>
      if l.creditOn v < p.flitCount then none
      else give { l with outQ := rest } { flits := p.flits, fresh := true, transit := tr, kind := p.kind }

/-- What is put into a block as its slots fill. -/
structure Filling where
  link : KLink
  masks : Nat := 0
  slots : List (List Byte) := []
  transit : Nat := 0
  kinds : List Nat := []
  deriving DecidableEq, Repr

/-- Fill the slots of a block from the VCs that won arbitration, in order (R295, R300). -/
def fillSlots : List Nat → Filling → Filling
  | [], b => b
  | v :: vs, b =>
    let i := b.slots.length
    if 8 ≤ i then b
    else match b.link.nextFlit (v % 4) with
      | none => fillSlots vs { b with slots := b.slots ++ [List.replicate 64 0] }
      | some (l, f, start, tr, kind) =>
        fillSlots vs { link := l, masks := b.masks + 2 ^ i + b2n start * 2 ^ (8 + i) + (v % 4) * 2 ^ (16 + 2 * i), slots := b.slots ++ [f],
                       transit := b.transit + b2n tr, kinds := if start ∧ kind ≠ 0 then b.kinds ++ [kind] else b.kinds }

/-- The 544 bytes of a block, with ACK_SEQ, RETRY_REQ and CREDIT_COUNT as they are now (R295, R296). -/
def KLink.blockBytes (l : KLink) (b : LinkBlk) : List Byte :=
  let credits := ((List.range 4).map (fun v => l.freed.getD v 0 % 65536 * 2 ^ (16 * v))).sum
  let ctl := leBytes 28 (b.seq + 2 ^ 10 * ((l.rxSeq + 1023) % 1024) + 2 ^ 20 * b2n l.retry + 2 ^ 24 * b.masks + 2 ^ 64 * credits)
  let flits := (b.slots ++ List.replicate (8 - b.slots.length) (List.replicate 64 0)).flatten
  ctl ++ leBytes 4 (crc32c (flits ++ ctl)) ++ flits

/-- Note when the TIME packets of a block departed (R318). -/
def KLink.stampOut (l : KLink) (units : Nat) (kinds : List Nat) : KLink :=
  let l1 := if kinds.contains 1 then { l with t1 := units } else l
  if kinds.contains 2 then { l1 with t3 := units } else l1

/-- LINK_BLOCK_SEND (R295 to R299, R307): an ACTIVE port sends its next block: the next one to be replayed, else a new one with flits of the
VCs that `vcs` says won its slots; while 128 blocks are held, one with no flits. -/
def execLinkBlockSend (port : Nat) (vcs : List Nat) (s : State) : Host.Outcome State Fault Refusal := whenSlices s <|
  if !(klPort port && decide (s.klState port = klActive)) then .next s
  else
    let l := s.link port
    let s0 := s.incFld (F.KL_BLOCKS_TX port)
    let old := match l.replay with
      | some q => l.held.find? (fun (b : LinkBlk) => decide (b.seq = q))
      | none => none
    match old with
    | some b =>
      let nxt := (b.seq + 1) % 1024
      let more := l.held.any (fun (x : LinkBlk) => decide (x.seq = nxt))
      .next ((s0.setLink port { l with replay := if more then some nxt else none }).emit (.linkBlock port (l.blockBytes b)))
    | none =>
      let full := decide (128 ≤ l.held.length)
      let f := fillSlots (if full then [] else vcs) { link := l }
      let b : LinkBlk := ⟨l.txSeq, f.masks, f.slots⟩
      let l1 : KLink := { f.link.stampOut s.time.units f.kinds with txSeq := (l.txSeq + 1) % 1024, held := l.held ++ [b], replay := none }
      let l2 : KLink := if l.held.isEmpty then { l1 with ackAt := s.time.mono } else l1
      let s1 := if full then s0.incFld (F.KL_REPLAY_FULL port) else s0
      .next (((s1.setLink port l2).addFld (F.KL_TRANSIT_FLITS port) f.transit).emit (.linkBlock port (l.blockBytes b)))

/-- Take in the flits of a block accepted at `now`; a packet begins with its first flit and is complete with its last (R75, R303). -/
def takeFlits (now masks : Nat) (flits : List Byte) : Nat → Nat → KLink → KLink
  | 0, _, l => l
  | n + 1, i, l =>
    let l1 : KLink :=
      if !bitOf masks i then l
      else
        let v := bitsOf masks (17 + 2 * i) (16 + 2 * i)
        let f := slice flits (64 * i) 64
        let part := if bitOf masks (8 + i) then [f] else l.parts.getD v [] ++ [f]
        let at' := if bitOf masks (8 + i) then now else l.partAt.getD v 0
        let want := (16 + leAt (part.headD []) 4 2 % 2 ^ 14 + 63) / 64
        if want ≤ part.length then { l with parts := l.parts.set v [], inbox := l.inbox ++ [{ kpktOf part with begun := at' }] }
        else { l with parts := l.parts.set v part, partAt := l.partAt.set v at' }
    takeFlits now masks flits n (i + 1) l1

/-- Replay from the block after ACK_SEQ, once for each ACK_SEQ (R299). -/
def State.startReplay (s : State) (p ack : Nat) : State :=
  let l := s.link p
  if l.lastReplay = some ack ∨ l.held.isEmpty then s
  else (s.setLink p { l with lastReplay := some ack, replays := l.replays + 1, replay := some ((ack + 1) % 1024) }).incFld (F.KL_REPLAYS p)

/-- Apply the acknowledgement, the credits and the retry request of a block (R298, R299). -/
def State.applyAck (s : State) (p : Nat) (ctl : List Byte) : State :=
  let l := s.link p
  let ack := bitsOf (leAt ctl 0 4) 19 10
  let credit := (List.range 4).map (fun v => leAt ctl (8 + 2 * v) 2)
  let idx := l.held.findIdx? (fun (b : LinkBlk) => decide (b.seq = ack))
  let l1 : KLink := match idx with
    | some i => { l with held := l.held.drop (i + 1), acked := ack, ackAt := s.time.mono, replays := 0, credit := credit }
    | none => { l with credit := credit }
  let s1 := s.setLink p l1
  if bitOf (leAt ctl 0 4) 20 then s1.startReplay p ack else s1

/-- LINK_BLOCK_RECEIVE (R295 to R300): a block with a good CRC and the expected number is accepted; any other is discarded. -/
def execLinkBlockReceive (port : Nat) (block : List Byte) (s : State) : Host.Outcome State Fault Refusal := whenSlices s <|
  if !(klPort port && decide (s.klState port = klActive)) then .next s
  else
    let ctl := slice block 0 28
    let flits := slice block 32 512
    if crc32c (flits ++ ctl) ≠ leAt block 28 4 then
      .next ((s.incFld (F.KL_CRC_ERR port)).setLink port { s.link port with retry := true })
    else
      let s1 := s.applyAck port ctl
      let l := s1.link port
      if leAt ctl 0 2 % 1024 ≠ l.rxSeq then .next (s1.setLink port { l with retry := true })
      else
        let l1 := takeFlits s.time.mono (bitsOf (leAt ctl 0 8) 55 24) flits 8 0 { l with rxSeq := (l.rxSeq + 1) % 1024, retry := false }
        .next ((s1.incFld (F.KL_BLOCKS_RX port)).setLink port l1)

/-- REPLAY_TIMEOUT (R299): 4 µs with blocks held and no advance of ACK_SEQ. -/
def execReplayTimeout (port : Nat) (s : State) : Host.Outcome State Fault Refusal := whenSlices s <|
  let l := s.link port
  if !(klPort port && decide (s.klState port = klActive)) ∨ l.held.isEmpty ∨ s.time.mono < l.ackAt + 4 * ticksPerUs then .next s
  else .next (((s.setLink port { l with lastReplay := some l.acked, replays := l.replays + 1, replay := l.held.head?.map (fun b => b.seq),
                                        ackAt := s.time.mono }).incFld (F.KL_REPLAYS port)))

/-! Packets that arrive (R304, R305, R307, R312, R314). -/

/-- The buffer flits of a packet are freed. -/
def State.klFreed (s : State) (port : Nat) (p : KPkt) : State :=
  let l := s.link port
  s.setLink port { l with freed := l.freed.set p.vc ((l.freed.getD p.vc 0 + p.flitCount) % 65536) }

/-- A FRAME or KRA packet goes to the home slice of its handle: it takes cells of its kind's class and waits for its Catalogue lookup
(R183, R305). -/
def State.klFrame (s : State) (p : KPkt) : State :=
  let k := homeOf p.handle
  let f : Frame := { id := s.eth.nextFrame, origin := .korrum p.typ p.src, slice := k, stage := .handled, data := p.payload,
                     arrived := p.payload.length, whole := true, begun := p.begun, handle := some p.handle, dlClass := p.cls }
  let s1 := ({ s with eth.nextFrame := s.eth.nextFrame + 1 }.setFrame f).incFld (F.SPINE_IN k)
  (s1.askCells k (f.cellClass s) f.id (cellsFor p.payload.length)).countAdmit k f.id

/-- A provenance message goes to every slice (R205, R305). -/
def State.klProv (s : State) (p : KPkt) : State :=
  let m := provMsgOf p.payload
  ([0, 1, 2, 3] : List Nat).foldl (fun t k => t.provAccept k m) s

/-! The federated endpoint's packets are put in order (R312, R314). -/

def fePktInsts (p : KPkt) : Nat × Nat := (leAt p.payload 0 2 % 8192, leAt p.payload 2 2 % 8192)
def fePktGen (p : KPkt) : Nat := leAt p.payload 4 1
def fePktSeq (p : KPkt) : Nat := leAt p.payload 6 2
def fePktBody (p : KPkt) : List Byte := p.payload.drop 8
def feCtlOp (p : KPkt) : Nat := leAt p.payload 8 1

/-- Does a packet carry an FE_SEQ: the request class, but for UNBOUND, which needs no binding? -/
def feSequenced (p : KPkt) : Bool :=
  decide (p.typ = 3 ∨ p.typ = 4 ∨ p.typ = 6 ∨ p.typ = 7) ||
  (decide (p.typ = 8) && decide (feCtlOp p = 1 ∨ feCtlOp p = 2 ∨ feCtlOp p = 3 ∨ feCtlOp p = 6))

/-- The binding a packet names here (R312, R314): instance pair, peer and BIND_GEN. -/
def State.feBindingOf (s : State) (p : KPkt) : Option FeBinding :=
  let toAnchor := decide (p.typ = 4 ∨ p.typ = 6 ∨ p.typ = 7) || (decide (p.typ = 8) && decide (feCtlOp p = 4 ∨ feCtlOp p = 7))
  let toHome := decide (p.typ = 3 ∨ p.typ = 5) || (decide (p.typ = 8) && decide (feCtlOp p = 1 ∨ feCtlOp p = 2 ∨ feCtlOp p = 3 ∨ feCtlOp p = 6))
  s.fe.bindings.find? (fun b => decide (b.anchorInst = (fePktInsts p).1 ∧ b.homeInst = (fePktInsts p).2 ∧ b.peer = p.src ∧ b.gen = fePktGen p) &&
    (if toAnchor then b.anchor else if toHome then !b.anchor else true))

/-- Move held packets that have become the expected ones to the inbox. -/
def feRelease : Nat → FeBinding → List KPkt → FeBinding × List KPkt
  | 0, b, l => (b, l)
  | n + 1, b, l =>
    match takeFirst (fun (e : Nat × KPkt) => decide (e.1 = b.rxSeq)) b.held with
    | some ((_, p), rest) => feRelease n { b with held := rest, rxSeq := (b.rxSeq + 1) % 65536 } (l ++ [p])
    | none => ({ b with gapSince := if b.held.isEmpty then none else b.gapSince }, l)

/-- The body of an FE_CONTROL that reports a status, and the address of a write it concerns (R314, R315). R312 names no OP for it; the model
uses 0, with STATUS in bytes 2 to 3 and the address in bytes 8 to 15. -/
def feStatusBody (st addr : Nat) : List Byte := leBytes 2 0 ++ leBytes 2 st ++ leBytes 4 0 ++ leBytes 8 addr

/-- This end of a binding enters ERROR with FED_FE_LOSS; the home's rings and queue pairs do too (R314). -/
def State.feBroken (s : State) (b : FeBinding) : State :=
  let s1 := ((s.satFld F.FE_SEQ_LOSS 1).raise F.FE_INT_STATUS_FE_LOSS_SEEN R.FE_INT_ENABLE).setBinding { b with state := 3, held := [], gapSince := none }
  if b.anchor then s1 else (s1.errorRings b.homeInst St.FED_FE_LOSS).qpsDown b.homeInst St.FED_FE_LOSS

/-- A binding fails with FED_FE_LOSS, at this end and, as it is told, at the other (R314). -/
def State.feLoss (s : State) (b : FeBinding) : State := (s.feBroken b).feReply b 8 (feStatusBody St.FED_FE_LOSS 0)

/-- A status report of the other end (R314, R315): the binding is broken, or a write of the home was refused, and the completion ring it
was for enters ERROR (R149). -/
def State.feStatus (s : State) (b : FeBinding) (p : KPkt) : State :=
  let st := leAt p.payload 10 2
  let a := leAt p.payload 16 8
  if b.state ≠ 1 then s
  else if st = St.FED_FE_LOSS then s.feBroken b
  else if b.anchor then s
  else
    let holds := fun k c =>
      let base := s.fld (F.CR_BASE k c) * 4096
      decide (s.crInst k c = b.homeInst ∧ s.crState k c = stActive ∧ base ≤ a ∧ a < base + 16 * 2 ^ s.crLog k c)
    (s.crsWith holds).foldl (fun t e => t.crError e.1 e.2 st) s

/-- An FE packet arrives (R314): one that names no binding is dropped and answered with UNBOUND; one in order, or without FE_SEQ, is ready; one
ahead of the expected FE_SEQ is held. -/
def State.klFe (s : State) (p : KPkt) : State :=
  if p.typ = 8 ∧ feCtlOp p = 5 then { s with fe.inbox := s.fe.inbox ++ [p] }
  else match s.feBindingOf p with
    | none =>
      let b : FeBinding := { anchorInst := (fePktInsts p).1, homeInst := (fePktInsts p).2, peer := p.src, gen := fePktGen p, anchor := false }
      (s.incFld F.FE_BIND_MISMATCH).feReply b 8 (leBytes 8 5)
    | some b =>
      if p.typ = 8 ∧ feCtlOp p = 0 then s.feStatus b p
      else if !feSequenced p then { s with fe.inbox := s.fe.inbox ++ [p] }
      else
        let q := fePktSeq p
        if q = b.rxSeq then
          let r := feRelease 65 { b with rxSeq := (b.rxSeq + 1) % 65536 } [p]
          { s with fe.inbox := s.fe.inbox ++ r.2 }.setBinding r.1
        else if 32768 ≤ (q + 65536 - b.rxSeq) % 65536 then s
        else if 64 ≤ ((s.fe.bindings.filter (fun x => decide (x.peer = b.peer))).map (fun x => x.held.length)).sum then s.feLoss b
        else s.setBinding { b with held := b.held ++ [(q, p)], gapSince := some (b.gapSince.getD s.time.mono) }

/-- Deliver a packet addressed to this device (R304, R305). What TIME and FED_MGMT packets say comes with the commands of their own rows. -/
def State.klDeliver (s : State) (p : KPkt) : State :=
  if p.typ = 1 ∨ p.typ = 2 then s.klFrame p
  else if p.typ = 10 then s.klProv p
  else if 3 ≤ p.typ ∧ p.typ ≤ 8 then s.klFe p
  else s

/-- KORRUM_PACKET_RECEIVE (R304 to R307): the oldest complete packet of a port is dropped, delivered here or switched to its next port. Port
6 holds what the device sends to itself. -/
def execKorrumPacketReceive (port : Nat) (s : State) : Host.Outcome State Fault Refusal := whenSlices s <|
  if 7 ≤ port then .next s
  else
    let l := s.link port
    match l.inbox with
    | [] => .next s
    | p :: rest =>
      let s1 := (s.setLink port { l with inbox := rest }).klFreed port p
      if p.typ = 0 ∨ 12 ≤ p.typ then
        .next (if p.mayIgnore then s1.incFld F.KL_IGNORED
          else (s1.incFld F.KL_BAD_TYPE).raise F.KL_INT_STATUS_BAD_TYPE_SEEN R.KL_INT_ENABLE)
      else if port = 6 ∨ p.dest = s.fedId then .next (s1.klDeliver p)
      else
        let hops := p.hops + 1
        if 8 ≤ hops then .next (s1.incFld F.KL_HOP_DROP) else .next (s1.korrumRoute { p with hops := hops } (some port))

end Sys2Proof.Machine
end

