-- ==== Sys2Proof/Machine/Flash.lean ====
section
/-!
DEFINITION. The flash media and the Affinage engine: the map, the write buffer, programs and bands, reads and their recovery, collection, wear,
retirement, and the hold-up bank (chapter 12). Commands that also touch namespaces stand in Nvme.lean.
-/

namespace Sys2Proof.Machine

/-! Dies, channels and slices (R363 to R366). -/

def affOnline : Nat := 2
def affReadOnly : Nat := 3
def affNoMedia : Nat := 4

def dieOnline : Nat := 1
def dieRetiring : Nat := 2
def dieRetired : Nat := 3

def State.dieState (s : State) (k x : Nat) : Nat := s.fld (F.FL_DIE_STATE_STATE k x)

/-- The dies of slice k that are ONLINE. -/
def State.onlineDies (s : State) (k : Nat) : List Nat := (List.range 128).filter (fun x => decide (s.dieState k x = dieOnline))

/-- Does slice k hold data (R365)? -/
def State.holdsData (s : State) (k : Nat) : Bool := let a := s.fld (F.AFF_STATE k); decide (a = 1 ∨ a = affOnline ∨ a = affReadOnly)

/-- The slices that hold data, ascending (R372). -/
def State.dataSlices (s : State) : List Nat := (List.range 4).filter s.holdsData

/-- Is the subsystem READ_ONLY (R389)? -/
def State.mediaReadOnly (s : State) : Bool := (List.range 4).any (fun k => decide (s.fld (F.AFF_STATE k) = affReadOnly))

/-- The geometry code that the used dies share (R364, R365); 0 with none. -/
def State.geometry (s : State) : Nat :=
  ((((List.range 4).map (fun k => (s.onlineDies k).map (fun x => s.fld (F.FL_DIE_STATE_GEOMETRY k x)))).flatten).head?).getD 0

/-- Blocks in each plane of a die: 1,024 for geometry code 1, 2,048 for code 2. -/
def State.dieBlocks (s : State) : Nat := 1024 * s.geometry

/-- The number of dies that hold data. -/
def State.usableDies (s : State) : Nat := ((List.range 4).map (fun k => (s.onlineDies k).length)).sum

/-- The blocks at the top of a die that its two save sets take (R402): each holds the die's share of 4 GiB in SLC mode, plus one block. -/
def State.saveBlocks (s : State) : Nat :=
  let n := max 1 s.usableDies
  let slc := 2048 * 65536 / 3
  2 * ((4 * gib / n + slc - 1) / slc + 1)

def blkKey (k x b : Nat) : Nat := k * 2 ^ 18 + x * 2 ^ 11 + b

def State.blk (s : State) (k x b : Nat) : Blk := Map.get (fun _ => {}) s.flash.blks (blkKey k x b)
def State.setBlk (s : State) (k x b : Nat) (v : Blk) : State := { s with flash.blks := Map.put (fun _ => {}) s.flash.blks (blkKey k x b) v }

/-! Locations and map entries (R373, R375). -/

/-- A location: channel, die on the channel, plane, block, page, slot. -/
def mkLoc (ch die plane blk page slot : Nat) : Nat :=
  ch % 8 + 2 ^ 3 * (die % 16) + 2 ^ 7 * (plane % 4) + 2 ^ 9 * (blk % 2048) + 2 ^ 20 * (page % 2048) + 2 ^ 31 * (slot % 4)

/-- The die of a location: 16 × channel + die. -/
def locDie (l : Nat) : Nat := 16 * bitsOf l 2 0 + bitsOf l 6 3
def locBlk (l : Nat) : Nat := bitsOf l 19 9
def locPage (l : Nat) : Nat := bitsOf l 30 20

/-- Codeword j (0 to 15) of page p of block b of die x. -/
def memberLoc (x b p j : Nat) : Nat := mkLoc (x / 16) (x % 16) (j / 4) b p (j % 4)

def cellKey (k l : Nat) : Nat := k * 2 ^ 33 + l

def mapLostBit : Nat := 2 ^ 61
def mapZeroBit : Nat := 2 ^ 62
def mapMappedBit : Nat := 2 ^ 63

def unitKey (nsid u : Nat) : Nat := nsid * 2 ^ 40 + u

def State.ns? (s : State) (nsid : Nat) : Option NsState := Map.find? s.nv.ns nsid
def State.setNs (s : State) (nsid : Nat) (n : NsState) : State := { s with nv.ns := Map.insert s.nv.ns nsid n }

/-- Is the namespace zoned? -/
def State.zoned (s : State) (nsid : Nat) : Bool :=
  match s.ns? nsid with
  | some n => decide (n.csi = 2)
  | none => false

/-- The key under which a unit's map entry stands: for a zoned namespace, its segment's first unit. -/
def State.mapKey (s : State) (nsid u : Nat) : Nat := unitKey nsid (if s.zoned nsid then u / 16 * 16 else u)

def State.mapGet (s : State) (nsid u : Nat) : Nat := Map.get (fun _ => 0) s.flash.map (s.mapKey nsid u)
def State.mapPut (s : State) (nsid u e : Nat) : State := { s with flash.map := Map.put (fun _ => 0) s.flash.map (s.mapKey nsid u) e }

/-- The location that an entry gives unit u: a zoned segment's entry has plane and slot zero. -/
def State.entryLoc (s : State) (nsid u e : Nat) : Nat :=
  let l := e % 2 ^ 33
  if s.zoned nsid then memberLoc (locDie l) (locBlk l) (locPage l) (u % 16) else l

/-- Blocks in a zone, and its capacity (R332). -/
def zoneSize : Nat := 0x40000
def zoneCap : Nat := 0x3F000

/-- The zone record of a zoned namespace. -/
def NsState.zone (n : NsState) (z : Nat) : Zone := Map.get (fun _ => {}) n.zones z

/-- The slice where a unit of a namespace lives (R372). -/
def State.unitSlice (s : State) (nsid u : Nat) : Nat :=
  match s.ns? nsid with
  | some n =>
    if n.csi = 2 then (n.zone (u / zoneSize)).slice
    else let l := s.dataSlices; l.getD ((u / 512 + nsid) % max 1 l.length) 0
  | none => 0

/-! The map cache (R374, R375). -/

/-- The map page of a unit, or the index of its zone. -/
def State.mapPage (s : State) (nsid u : Nat) : Nat := nsid * 2 ^ 32 + (if s.zoned nsid then 2 ^ 31 + u / zoneSize else u / 512)

/-- Is the zone of a unit active, so that its index is resident (R375)? -/
def State.indexResident (s : State) (nsid u : Nat) : Bool :=
  match s.ns? nsid with
  | some n => decide (n.csi = 2) && (let z := (n.zone (u / zoneSize)).state; decide (z = 2 ∨ z = 3 ∨ z = 4))
  | none => false

/-- Use the map page of a unit in slice k: a page in the cache, or one that flash does not hold, is a hit; else a read of it is queued. -/
def State.touchMap (s : State) (k nsid u : Nat) : State × Bool :=
  let pg := s.mapPage nsid u
  let l := s.flash.mapCache.getD k []
  let cap := s.fld (F.AFF_MAP_CACHE_GIB k) * 2 ^ 18
  if s.indexResident nsid u then (s.incFld (F.AFF_MAP_HITS k), true)
  else if l.contains pg then ({ s with flash.mapCache := s.flash.mapCache.set k (pg :: l.erase pg) }.incFld (F.AFF_MAP_HITS k), true)
  else match Map.find? s.flash.mapDir pg with
    | none => ({ s with flash.mapCache := s.flash.mapCache.set k ((pg :: l).take cap) }.incFld (F.AFF_MAP_HITS k), true)
    | some loc =>
      if s.flash.reads.any (fun r => decide (r.slice = k ∧ r.loc = loc ∧ r.use = .mapPage)) then (s, false)
      else ({ s with flash.reads := s.flash.reads ++ [({ slice := k, loc := loc, nsid := nsid, unit := u, use := .mapPage } : FlashRead)] }.incFld
        (F.AFF_MAP_MISSES k), false)

/-- A map page has changed: it is written back to flash. -/
def State.dirtyMap (s : State) (nsid u : Nat) : State :=
  let pg := s.mapPage nsid u
  if s.flash.dirty.contains pg then s else { s with flash.dirty := s.flash.dirty ++ [pg] }

/-! The write buffer (R377 to R379). -/

def State.buf (s : State) (k : Nat) : List WUnit := s.flash.buf.getD k []
def State.setBuf (s : State) (k : Nat) (l : List WUnit) : State := { s with flash.buf := s.flash.buf.set k l }

/-- Bytes in the write buffer of slice k: accepted units and trim records, and admitted appends that are not placed. -/
def State.wbufBytes (s : State) (k : Nat) : Nat :=
  4096 * ((s.buf k).filter (fun u => u.reloc.isNone && decide (u.typ = 0 ∨ u.typ = 6))).length +
  4096 * ((s.nv.appends.filter (fun a => decide (a.slice = k) && a.admitted)).map (fun a => a.count)).sum

def State.showWbuf (s : State) (k : Nat) : State :=
  let n := s.wbufBytes k
  (s.setFld (F.AFF_WBUF_BYTES k) n).peakFld (F.AFF_WBUF_PEAK k) n

/-- The bytes of a piece. -/
def State.pieceBytes (s : State) (p : WPiece) : Nat :=
  if p.append then 4096 * ((s.nv.appends.find? (fun a => decide (a.piece = p.id))).map (fun a => a.count)).getD 0
  else match p.trim with
    | some _ => 4096
    | none => 4096 * p.units.length

/-- The next WRITE_SEQ of slice k. -/
def State.nextSeq (s : State) (k : Nat) : State × Nat :=
  let n := s.flash.seqs.getD k 0
  ({ s with flash.seqs := s.flash.seqs.set k (n + 1) }, n)

/-- Put codewords in the buffer of slice k, as one piece. -/
def State.bufferUnits (s : State) (k piece nsid typ : Nat) (us : List (Nat × Nat × List Byte)) : State :=
  let n := us.length
  ((List.range n).zip us).foldl (fun t e =>
    let r := t.nextSeq k
    let w : WUnit := { piece := piece, nsid := nsid, unit := e.2.1, typ := typ, count := e.2.2.1, seq := r.2, first := decide (e.1 = 0),
                       last := decide (e.1 + 1 = n), len := n, data := e.2.2.2 }
    r.1.setBuf k (r.1.buf k ++ [w])) s

/-- HOLDUP_STATE: 0 CHARGING, 1 READY, 2 TESTING, 3 FAILED, 4 SAVING. -/
def State.holdup (s : State) : Nat := s.fld F.HOLDUP_STATE

/-- Free bands of slice k, the reserve included. -/
def State.freeBands (s : State) (k : Nat) : Nat := s.fld (F.AFF_BANDS_FREE k)

/-- Is there a band for host data: an open one that is not of the reserve, or a free one above the reserve of 8 (R386)? -/
def State.hostRoom (s : State) (k : Nat) : Bool :=
  decide (8 < s.freeBands k) || s.flash.bands.any (fun b => decide (b.slice = k) && b.isOpen && !b.reserve)

/-- May a piece be admitted now (R377, R386, R400)? -/
def State.admits (s : State) (p : WPiece) : Bool :=
  let n := s.pieceBytes p
  let total := ((List.range 4).map s.wbufBytes).sum
  !s.flash.saving && decide (s.wbufBytes p.slice + n ≤ gib) &&
  (decide (s.holdup = 3) || decide (total + n ≤ s.fld F.HOLDUP_BUDGET)) &&
  s.hostRoom p.slice

/-- What a unit's newest committed data is (R379, R373, R404). -/
inductive UnitRes where
  | zero
  | data (d : List Byte)
  | fail (status : Nat)
  /-- it stands on flash at this location of this slice and has not been read -/
  | need (slice loc : Nat)
  deriving DecidableEq, Repr

/-- The newest buffered codeword that covers a unit. -/
def State.buffered (s : State) (k nsid u : Nat) : Option WUnit :=
  (s.buf k).reverse.find? (fun w => w.reloc.isNone && decide (w.nsid = nsid) && decide (w.typ = 0 ∨ w.typ = 6) && decide (w.unit ≤ u ∧ u < w.unit + w.count))

/-- The newest data of a unit: the buffer's, else what the map says. -/
def State.unitNow (s : State) (nsid u : Nat) : UnitRes :=
  let k := s.unitSlice nsid u
  match s.buffered k nsid u with
  | some w => if w.typ = 6 then .zero else .data w.data
  | none =>
    let e := s.mapGet nsid u
    if s.flash.mapLost.contains (unitKey nsid u) then .fail St.MEDIA_MAP_LOST
    else if bitOf e 61 then .fail St.MEDIA_WRITE_LOST
    else if !bitOf e 63 ∨ bitOf e 62 then .zero
    else
      let l := s.entryLoc nsid u e
      match s.flash.got.find? (fun g => decide (g.1 = k ∧ g.2.1 = l)) with
      | some (_, _, st) =>
        if st ≠ 0 then .fail st
        else match Map.find? s.flash.cells (cellKey k l) with
          | some c => if c.typ = 6 then .zero else .data c.data
          | none => .fail St.MEDIA_UNRECOVERED
      | none => .need k l

/-- Queue the read of a location for a host command, once (R381). -/
def State.queueRead (s : State) (k l nsid u : Nat) (use : ReadFor) : State :=
  if s.flash.reads.any (fun r => decide (r.slice = k ∧ r.loc = l ∧ r.use = use)) then s
  else { s with flash.reads := s.flash.reads ++ [({ slice := k, loc := l, nsid := nsid, unit := u, use := use } : FlashRead)] }

/-- What reading units gives: all of their data, or a first failure with its unit, or a wait for reads that are now queued. -/
inductive UnitsRes where
  | ok (units : List (Nat × Option (List Byte)))
  | fail (status unit : Nat)
  | wait
  deriving DecidableEq, Repr

/-- Read units of a namespace; `none` is a unit of zeros. -/
def State.readUnits (s : State) (nsid : Nat) : List Nat → State × UnitsRes
  | [] => (s, .ok [])
  | u :: us =>
    let m := s.touchMap (s.unitSlice nsid u) nsid u
    let rest := fun (t : State) => t.readUnits nsid us
    if !m.2 then
      match rest m.1 with
      | (t, .fail st x) => (t, .fail st x)
      | (t, _) => (t, .wait)
    else match m.1.unitNow nsid u with
      | .fail st => (m.1, .fail st u)
      | .need k l =>
        (match rest (m.1.queueRead k l nsid u .host) with
         | (t, .fail st x) => (t, .fail st x)
         | (t, _) => (t, .wait))
      | .zero =>
        (match rest m.1 with
         | (t, .ok l) => (t, .ok ((u, none) :: l))
         | r => r)
      | .data d =>
        (match rest m.1 with
         | (t, .ok l) => (t, .ok ((u, some d) :: l))
         | r => r)

/-- A command has taken what was read for it. -/
def State.dropGot (s : State) (nsid : Nat) (us : List Nat) : State :=
  let locs := us.map (fun u => (s.unitSlice nsid u, s.entryLoc nsid u (s.mapGet nsid u)))
  { s with flash.got := s.flash.got.filter (fun g => !locs.contains (g.1, g.2.1)) }

/-! Bands (R369 to R371, R386, R387). -/

/-- Blocks of die x of slice k that a new band may take. -/
def State.freeBlocks (s : State) (k x : Nat) : List Nat :=
  (List.range (s.dieBlocks - s.saveBlocks)).filter (fun b => let v := s.blk k x b; decide (v.bad = 0) && v.band.isNone)

/-- The members of a band of slice k: W = min(16, usable dies). -/
def State.bandWidth (s : State) (k : Nat) : Nat := min 16 (s.onlineDies k).length

/-- Show the number of free bands: what the free blocks of the slice's dies make up. -/
def State.showBands (s : State) (k : Nat) : State :=
  let w := max 1 (s.bandWidth k)
  s.setFld (F.AFF_BANDS_FREE k) (((s.onlineDies k).map (fun x => (s.freeBlocks k x).length)).sum / w)

/-- Show the highest, lowest and average P/E count of slice k (R387, R388). -/
def State.showPe (s : State) (k : Nat) : State :=
  let dies := s.onlineDies k
  let total := dies.length * s.dieBlocks
  let pes := (s.flash.blks.filter (fun e => decide (e.1 / 2 ^ 18 = k) && dies.contains (e.1 / 2 ^ 11 % 128))).map (fun e => e.2.pe)
  let low := if pes.length < total then 0 else (pes.foldl min (pes.headD 0))
  ((s.setFld (F.AFF_PE_AVG k) (pes.sum / max 1 total)).setFld (F.AFF_PE_MAX k) (pes.foldl max 0)).setFld (F.AFF_PE_MIN k) low

/-- The free block of die x with the lowest P/E count (R387). -/
def State.bestBlock (s : State) (k x : Nat) : Option Nat := leastBy (fun b => ((s.blk k x b).pe : Int)) (s.freeBlocks k x)

/-- Pick members die by die, no channel above its share (R369). -/
def State.pickMembers (s : State) (k limit : Nat) : List Nat → Nat → List (Nat × Nat) → List (Nat × Nat)
  | [], _, acc => acc
  | x :: xs, n, acc =>
    if n ≤ acc.length then acc
    else if limit ≤ (acc.filter (fun m => decide (m.1 / 16 = x / 16))).length then s.pickMembers k limit xs n acc
    else match s.bestBlock k x with
      | none => s.pickMembers k limit xs n acc
      | some b => s.pickMembers k limit xs n (acc ++ [(x, b)])

/-- Open a band in slice k; which dies it takes first is a free choice. -/
def State.openBand (s : State) (k : Nat) : State × Option Band :=
  let w := s.bandWidth k
  let dies := s.onlineDies k
  let r := Config.unstated s.freeCtr % max 1 dies.length
  let ms := s.pickMembers k ((w + 7) / 8) (dies.drop r ++ dies.take r) w []
  if ms.length < w ∨ w < 4 then (s, none)
  else
    let b : Band := { id := s.flash.nextBand, slice := k, members := ms, reserve := decide (s.freeBands k ≤ 8) }
    let s1 := ms.foldl (fun t m => t.setBlk k m.1 m.2 { t.blk k m.1 m.2 with band := some b.id }) s.draw
    ({ s1 with flash.bands := s1.flash.bands ++ [b], flash.nextBand := s1.flash.nextBand + 1 }.showBands k, some b)

def State.band? (s : State) (id : Nat) : Option Band := s.flash.bands.find? (fun b => decide (b.id = id))
def State.setBand (s : State) (b : Band) : State :=
  { s with flash.bands := s.flash.bands.map (fun x => if x.id = b.id then b else x) }

/-- The band that a block belongs to. -/
def State.bandOf (s : State) (k x b : Nat) : Option Band :=
  match (s.blk k x b).band with
  | some id => s.band? id
  | none => none

/-- The units whose map entry points into a block set: key and location. -/
def State.validIn (s : State) (k : Nat) (inSet : Nat → Bool) : List (Nat × Nat) :=
  (s.flash.map.filter (fun e => bitOf e.2 63 && inSet (e.2 % 2 ^ 33))).filterMap (fun e =>
    if s.unitSlice (e.1 / 2 ^ 40) (e.1 % 2 ^ 40) = k then some (e.1, e.2 % 2 ^ 33) else none)

/-- Valid entries of a band. -/
def State.bandValid (s : State) (b : Band) : List (Nat × Nat) := s.validIn b.slice (fun l => b.members.contains (locDie l, locBlk l))

/-- Queue the reads that relocate entries. -/
def State.queueMoves (s : State) (k : Nat) (l : List (Nat × Nat)) : State :=
  l.foldl (fun t e =>
    let nsid := e.1 / 2 ^ 40
    let u := e.1 % 2 ^ 40
    if t.zoned nsid then (List.range 16).foldl (fun v j => v.queueRead k (memberLoc (locDie e.2) (locBlk e.2) (locPage e.2) j) nsid (u + j) .move) t
    else t.queueRead k e.2 nsid u .move) s

/-- Start to move a band's valid data, for a reason. -/
def State.moveBand (s : State) (b : Band) (why : Nat) : State :=
  (s.setBand { b with moving := why, isOpen := false }).queueMoves b.slice (s.bandValid b)

/-- The subsystem becomes READ_ONLY (R389). -/
def State.goReadOnly (s : State) : State :=
  (s.dataSlices).foldl (fun t k => (t.setFld (F.AFF_STATE k) affReadOnly).raise (F.AFF_INT_STATUS_READ_ONLY_SEEN k) (R.AFF_INT_ENABLE k)) s

/-- Available Spare in percent (R388). -/
def State.availableSpare (s : State) (k : Nat) : Nat := 100 * s.fld (F.AFF_SPARE k) / max 1 (s.fld (F.AFF_SPARE_INIT k))

/-- n blocks of slice k are retired (R389, R394). -/
def State.loseSpare (s : State) (k n : Nat) : State :=
  let s1 := (s.subFld (F.AFF_SPARE k) n).addFld (F.AFF_GROWN_BAD k) n
  let s2 := s1.raise (F.AFF_INT_STATUS_BLOCK_RETIRED_SEEN k) (R.AFF_INT_ENABLE k)
  let s3 := if s2.availableSpare k ≤ 10 then s2.raise (F.AFF_INT_STATUS_SPARE_LOW_SEEN k) (R.AFF_INT_ENABLE k) else s2
  if s3.fld (F.AFF_SPARE k) = 0 then s3.goReadOnly else s3

/-- A block is retired (R394). -/
def State.retireBlock (s : State) (k x b : Nat) : State :=
  let v := s.blk k x b
  if v.bad ≠ 0 then s
  else
    let s1 := (s.setBlk k x b { v with bad := 2 }).incFld (F.FL_DIE_STATE_RETIRED k x)
    ({ s1 with flash.retired := s1.flash.retired ++ [(k, x, s1.time.mono)] }.loseSpare k 1).showBands k

/-! Programs (R369, R371, R378 to R380, R394). -/

/-- Count n 64-byte transfers on the channel of die x (R363, R546). -/
def State.flashBytes (s : State) (k x n : Nat) : State := (s.addFld (F.FL_CH_BYTES k (x / 16)) n).pmuUnc k 0x13 ((n + 63) / 64) {}

/-- Does a codeword take its place in a segment of a zone: data, or a single zeroed unit (R375, R377)? -/
def State.segUnit (s : State) (w : WUnit) : Bool := s.zoned w.nsid && decide (w.typ = 0 ∨ (w.typ = 6 ∧ w.count = 1))

/-- The codewords of the next member page: a complete segment of a zoned namespace, or up to sixteen other codewords of the buffer; the oldest
unprogrammed codeword decides, host data only where it has a band. `full z` says that a zone's last segment is written as it stands. -/
def State.nextPage (s : State) (k : Nat) (full : Nat → Nat → Bool) : List WUnit :=
  let l := (s.buf k).filter (fun w => w.loc.isNone && (w.reloc.isSome || s.hostRoom k))
  let seg := fun (w : WUnit) => l.filter (fun v => s.segUnit v && decide (v.nsid = w.nsid ∧ v.unit / 16 = w.unit / 16))
  let ready := fun (w : WUnit) => !s.segUnit w || decide (16 ≤ (seg w).length) || full w.nsid (w.unit / zoneSize)
  match l.find? ready with
  | none => []
  | some w => if s.segUnit w then seg w else (l.filter (fun v => !s.segUnit v)).take 16

/-- The data member of band b that is written next: row r holds parity in member r mod W (R369). -/
def Band.member (b : Band) : Nat × Nat :=
  let w := max 1 b.members.length
  let p := b.row % w
  b.members.getD (if b.col < p then b.col else b.col + 1) (0, 0)

/-- Place of a codeword in its page: a zoned unit by its place in the segment. -/
def State.pagePlace (s : State) (w : WUnit) (i : Nat) : Nat := if s.segUnit w then w.unit % 16 else i

/-- Write a page's codewords to flash and note where each stands. -/
def State.programPage (s : State) (b : Band) (page : List WUnit) : State :=
  let m := b.member
  let put := fun (t : State) (e : Nat × WUnit) =>
    let l := memberLoc m.1 m.2 b.row (t.pagePlace e.2 e.1)
    let c : Codeword := { data := e.2.data, tag := e.2.unit, nsid := e.2.nsid, seq := e.2.seq, typ := e.2.typ, first := e.2.first, last := e.2.last, len := e.2.len }
    let u := { t with flash.cells := Map.insert t.flash.cells (cellKey b.slice l) c }
    u.setBuf b.slice ((u.buf b.slice).map (fun (w : WUnit) => if w.seq = e.2.seq then { w with loc := some l } else w))
  ((List.range page.length).zip page).foldl put s

/-- A unit's row is complete: the map points at it, unless a newer write or a changed entry has overtaken it (R379, R380). -/
def State.mapUnit (s : State) (k : Nat) (w : WUnit) : State :=
  match w.loc with
  | none => s
  | some l =>
    let entry := mapMappedBit + (if s.zoned w.nsid then memberLoc (locDie l) (locBlk l) (locPage l) 0 else l)
    if w.typ = 1 ∨ w.typ = 2 then { s with flash.mapDir := Map.insert s.flash.mapDir w.unit l }
    else match w.reloc with
      | some old =>
        let e := s.mapGet w.nsid w.unit
        if bitOf e 63 ∧ s.entryLoc w.nsid w.unit e = old ∨ (s.zoned w.nsid ∧ bitOf e 63 ∧ s.entryLoc w.nsid w.unit e = l) then
          (s.mapPut w.nsid w.unit entry).dirtyMap w.nsid w.unit
        else s.incFld (F.AFF_RELOC_SUPERSEDED k)
      | none =>
        if w.typ = 6 ∧ !s.segUnit w then
          (List.range w.count).foldl (fun t i => (t.mapPut w.nsid (w.unit + i) mapZeroBit).dirtyMap w.nsid (w.unit + i)) s
        else { (s.mapPut w.nsid w.unit entry).dirtyMap w.nsid w.unit with
               flash.mapLost := s.flash.mapLost.filter (fun x => decide (x ≠ unitKey w.nsid w.unit)) }

/-- A row is complete, its parity programmed: its units are mapped and leave the buffer, and write-through commands see their pieces done. -/
def State.finishRow (s : State) (b : Band) : State :=
  let mine := fun (w : WUnit) => match w.loc with
    | some l => b.members.contains (locDie l, locBlk l) && decide (locPage l = b.row)
    | none => false
  let done := (s.buf b.slice).filter mine
  let s1 := done.foldl (fun t w => t.mapUnit b.slice w) s
  let s2 := s1.setBuf b.slice ((s1.buf b.slice).filter (fun w => !mine w))
  let left := fun (p : Nat) => (List.range 4).any (fun k => (s2.buf k).any (fun w => decide (w.piece = p)))
  let cmds := s2.nv.cmds.map (fun (c : NvCmd) => { c with unprog := c.unprog.filter left })
  let last := decide (b.row + 1 = 2048)
  let b1 : Band := { b with row := b.row + 1, col := 0, isOpen := !last, closedAt := if last then s.ftSec else b.closedAt }
  let parity := (s2.addFld (F.AFF_MEDIA_BYTES b.slice) 65536).flashBytes b.slice ((b.members.getD (b.row % max 1 b.members.length) (0, 0)).1) 74368
  ({ parity with nv.cmds := cmds }.setBand b1).showWbuf b.slice

/-- The dirty map pages and zone indexes of slice k, as codewords that fill a page up (R374). -/
def State.dirtyUnits (s : State) (k n : Nat) : State × List WUnit :=
  let mine := (s.flash.dirty.filter (fun pg => decide (s.unitSlice (pg / 2 ^ 32)
    (if bitOf pg 31 then pg % 2 ^ 31 * zoneSize else pg % 2 ^ 31 * 512) = k))).take n
  let s1 := { s with flash.dirty := s.flash.dirty.filter (fun pg => !mine.contains pg) }
  mine.foldl (fun (acc : State × List WUnit) pg =>
    let r := acc.1.nextSeq k
    let w : WUnit := { piece := 0, nsid := 0, unit := pg, typ := if bitOf pg 31 then 2 else 1, seq := r.2, first := true, last := true, len := 1, data := [] }
    (r.1.setBuf k (r.1.buf k ++ [w]), acc.2 ++ [w])) (s1, [])

/-- The open band of slice k, opening one where there is none. -/
def State.useBand (s : State) (k : Nat) : State × Option Band :=
  match s.flash.bands.find? (fun b => decide (b.slice = k) && b.isOpen) with
  | some b => (s, some b)
  | none => s.openBand k

/-- A member page is programmed with status ok. -/
def State.programmed (s : State) (k : Nat) (b : Band) (page : List WUnit) : State :=
  let room := if page.any s.segUnit then 0 else 16 - page.length
  let d := s.dirtyUnits k room
  let s1 := d.1.programPage b (page ++ d.2)
  let s2 := (s1.addFld (F.AFF_MEDIA_BYTES k) 65536).flashBytes k b.member.1 74368
  let b1 : Band := { b with col := b.col + 1 }
  if b1.members.length ≤ b1.col + 1 then s2.finishRow b1 else s2.setBand b1

/-- A program fails (R394): the band is closed at the row, what the row held is programmed again elsewhere, the block's other valid data is
moved, and the block is retired. -/
def State.programFailed (s : State) (k : Nat) (b : Band) : State :=
  let m := b.member
  let s1 := (s.satFld (F.AFF_PROG_FAIL k) 1).flashBytes k m.1 74368
  let again := (s1.buf k).map (fun (w : WUnit) => match w.loc with
    | some l => if b.members.contains (locDie l, locBlk l) ∧ locPage l = b.row then { w with loc := none } else w
    | none => w)
  let s2 := (s1.setBuf k again).setBand { b with isOpen := false, closedAt := s1.ftSec }
  let s3 := s2.queueMoves k (s2.validIn k (fun l => decide (locDie l = m.1 ∧ locBlk l = m.2)))
  s3.retireBlock k m.1 m.2

/-! Reads and the recovery ladder (R381, R383 to R385, R391). -/

/-- The stage at which a codeword decodes, as the die's state forces it (R383, R385, R395): a lost codeword stays lost; a die that is not ONLINE is read through parity, which
another such member in the row defeats. -/
def State.forcedStage (s : State) (k l : Nat) (stage : Option Nat) : Option Nat :=
  let bad := fun x => decide (s.dieState k x ≠ dieOnline)
  if (Map.find? s.flash.cells (cellKey k l)).isNone then none
  else if !bad (locDie l) then stage
  else match s.bandOf k (locDie l) (locBlk l) with
    | some b => if (b.members.filter (fun m => bad m.1)).length = 1 then some 11 else none
    | none => none

/-- Thirty days and twenty-four hours in ticks. -/
def ticks30d : Nat := 30 * 86400 * ticksPerSec
def ticks24h : Nat := 86400 * ticksPerSec

/-- Put the relocated copy of a unit in the buffer (R380, R384). -/
def State.relocate (s : State) (k nsid u l : Nat) : State :=
  match Map.find? s.flash.cells (cellKey k l) with
  | none => s
  | some c =>
    let r := s.nextSeq k
    let w : WUnit := { piece := 0, nsid := nsid, unit := u, seq := r.2, first := true, last := true, len := 1, data := c.data, reloc := some l }
    r.1.setBuf k (r.1.buf k ++ [w])

/-- What a successful stage does to the block (R384, R385). -/
def State.ladderDone (s : State) (k l stage bits : Nat) : State :=
  let x := locDie l
  let b := locBlk l
  let v := s.blk k x b
  let s0 := s.incFld (F.AFF_READ_STAGE k (min stage 11))
  let mark := decide (s.fld (F.AFF_REFRESH_STAGE k) ≤ stage) || (decide (stage = 0) && decide (s.fld (F.AFF_REFRESH_BITS k) < bits))
  let v1 : Blk := { v with offset := if 2 ≤ stage ∧ stage ≤ 9 then stage - 1 else v.offset, refresh := v.refresh || mark }
  let s1 := s0.setBlk k x b v1
  if stage ≠ 11 ∨ s.dieState k x ≠ dieOnline then s1
  else
    let again := match v.rebuilt with
      | some t => decide (s.time.mono < t + ticks30d)
      | none => false
    let s2 := s1.setBlk k x b { v1 with rebuilt := some s.time.mono, offset := 0 }
    let s3 := match s2.bandOf k x b with
      | some bd => if bd.isOpen ∨ bd.moving ≠ 0 then s2 else s2.moveBand bd 5
      | none => s2
    if again then s3.retireBlock k x b else s3

/-- A lost map page or zone index (R385): every unit it mapped reports MEDIA_MAP_LOST. -/
def State.losePage (s : State) (pg : Nat) : State :=
  let hit := fun (key : Nat) => decide (s.mapPage (key / 2 ^ 40) (key % 2 ^ 40) = pg)
  let lost := (s.flash.map.filter (fun e => hit e.1)).map (fun e => e.1)
  { s with flash.map := s.flash.map.filter (fun e => !hit e.1), flash.mapLost := s.flash.mapLost ++ lost,
           flash.mapDir := Map.erase s.flash.mapDir pg }

/-- Put a page in the map cache of slice k. -/
def State.cachePage (s : State) (k pg : Nat) : State :=
  let l := s.flash.mapCache.getD k []
  { s with flash.mapCache := s.flash.mapCache.set k ((pg :: l.erase pg).take (s.fld (F.AFF_MAP_CACHE_GIB k) * 2 ^ 18)) }

/-- A patrol read has finished; with the last codeword of a page, a page is counted, and with the last page the pass ends (R392). -/
def State.patrolDone (s : State) (k l : Nat) : State :=
  let rest := (s.flash.patrol.getD k []).erase l
  let s0 := { s with flash.patrol := s.flash.patrol.set k rest }
  let s1 := if rest.any (fun x => decide (x % 2 ^ 31 = l % 2 ^ 31)) then s0 else s0.incFld (F.AFF_PATROL_PAGES k)
  if rest.isEmpty then s1.setFld (F.AFF_PATROL_PASS k) s1.ftSec else s1

/-! Retirement of dies (R366, R395). -/

/-- A die begins to retire. -/
def State.retireDie (s : State) (k x : Nat) : State :=
  if s.dieState k x ≠ dieOnline then s
  else
    let s1 := { s.setFld (F.FL_DIE_STATE_STATE k x) dieRetiring with flash.degraded := true }
    let s2 := (s1.raise (F.AFF_INT_STATUS_DIE_RETIRED_SEEN k) (R.AFF_INT_ENABLE k)).showBands k
    if (s2.onlineDies k).length < 4 then s2.goReadOnly else s2

/-- Move what a retiring die's member of a band holds to a block of another die, and replace the member. Where another member's die has failed too, the rows that
both hold are lost (R395). -/
def State.replaceMember (s : State) (b : Band) (x : Nat) : State :=
  match b.members.find? (fun m => decide (m.1 = x)) with
  | none => s
  | some m =>
    let used := b.members.map (fun y => y.1)
    let spare := (s.onlineDies b.slice).filter (fun y => !used.contains y)
    let pick := ((if spare.isEmpty then s.onlineDies b.slice else spare).filterMap (fun y => (s.bestBlock b.slice y).map (fun c => (y, c)))).head?
    match pick with
    | none => s
    | some (y, c) =>
      let move := fun (l : Nat) => if locDie l = x ∧ locBlk l = m.2 then memberLoc y c (locPage l) (4 * bitsOf l 8 7 + bitsOf l 32 31) else l
      let k := b.slice
      let here := fun (key : Nat) => decide (s.unitSlice (key / 2 ^ 40) (key % 2 ^ 40) = k)
      let ents := s.flash.map.map (fun (e : Nat × Nat) => if bitOf e.2 63 ∧ here e.1 then (e.1, e.2 / 2 ^ 33 * 2 ^ 33 + move (e.2 % 2 ^ 33)) else e)
      let failed := b.members.filter (fun y => decide (y ≠ m ∧ s.dieState b.slice y.1 ≠ dieOnline))
      let lost := fun (l : Nat) => !failed.isEmpty && (m :: failed).contains (locDie l, locBlk l)
      let moved := s.flash.cells.filter (fun (e : Nat × Codeword) => decide (e.1 / 2 ^ 33 = k ∧ locDie (e.1 % 2 ^ 33) = x ∧ locBlk (e.1 % 2 ^ 33) = m.2) && !lost (e.1 % 2 ^ 33))
      let kept := s.flash.cells.filter (fun (e : Nat × Codeword) => !decide (e.1 / 2 ^ 33 = k ∧ (locDie (e.1 % 2 ^ 33) = x ∧ locBlk (e.1 % 2 ^ 33) = m.2 ∨ lost (e.1 % 2 ^ 33))))
      let s1 := { s with flash.map := ents,
                         flash.cells := moved.foldl (fun (t : Map Codeword) (e : Nat × Codeword) => Map.insert t (cellKey k (move (e.1 % 2 ^ 33))) e.2) kept,
                         flash.mapDir := s.flash.mapDir.map (fun (e : Nat × Nat) => (e.1, move e.2)) }
      let s2 := s1.setBlk k y c { s1.blk k y c with band := some b.id }
      (s2.setBlk k x m.2 { s2.blk k x m.2 with band := none }).setBand { b with members := b.members.map (fun z => if z = m then (y, c) else z) }

/-! The hold-up bank (R396 to R400). -/

def State.bankParam (s : State) (i : Nat) : Nat := s.flash.bank.getD i 0

/-- R_SAVE in units of 100 kB/s: min(N_ch × 2.974, N_die × 0.4096) GB/s (R398). -/
def State.saveRate (s : State) : Nat :=
  let ch := ((List.range 4).map (fun k => ((List.range 8).filter (fun c => decide (0 < s.fld (F.FL_CH_STATE_DIES k c)))).length)).sum
  min (ch * 29740) (s.usableDies * 4096)

/-- C_MEAS in µF, or C_NOM before the first test (R399). -/
def State.capacity (s : State) : Nat := if s.fld F.HOLDUP_CMEAS = 0 then s.bankParam 0 else s.fld F.HOLDUP_CMEAS

/-- B_max of R399 at bank voltage v in mV: with C in µF, EFF in percent and P in W, E / (1.25 P) − 5 ms is
(C (v² − V_MIN²) EFF − 1.25 × 10^12 P) / (2.5 × 10^14 P) seconds. -/
def State.bMax (s : State) (v : Nat) : Nat :=
  let c := s.capacity
  let p := s.bankParam 4
  let num : Int := (c : Int) * ((v : Int) ^ 2 - (s.bankParam 2 : Int) ^ 2) * (s.bankParam 3 : Int) - 1250000000000 * (p : Int)
  if p = 0 ∨ num ≤ 0 then 0 else min (4 * gib) (num.toNat * (s.saveRate * 100000) / (250000000000000 * p))

/-- Recompute HOLDUP_BUDGET; during a test with the voltage expected at its end (R399, R400). -/
def State.showBudget (s : State) : State :=
  let v := s.fld F.HOLDUP_MV
  let drop := if s.holdup = 2 then s.bankParam 5 * 100000 / max 1 s.capacity else 0
  s.setFld F.HOLDUP_BUDGET (s.bMax (v - drop))

/-- A piece that is not committed is dropped: a zone whose write pointer counts it takes it back. -/
def State.dropPiece (s : State) (p : WPiece) : State :=
  match p.units.head?, s.ns? p.nsid with
  | some (u, _), some n =>
    if n.csi ≠ 2 ∨ p.append then s
    else
      let z := u / zoneSize
      let v := n.zone z
      let w := min v.wp (u % zoneSize)
      s.setNs p.nsid { n with zones := Map.put (fun _ => {}) n.zones z { v with wp := w, state := if w < v.wp ∧ v.state = 14 then 4 else v.state } }
  | _, _ => s

/-- Work that is not in the power-fail-protected buffer is lost: pieces not committed and records not placed (R340, R401). -/
def State.dropUncommitted (s : State) : State :=
  let s1 := s.flash.waiting.foldl State.dropPiece s
  { s1 with flash.waiting := [], flash.reads := [], flash.got := [], nv.appends := [] }

/-- The hold-up save begins (R401): pieces that are not committed are discarded, and nothing else goes on. -/
def State.beginSave (s : State) : State :=
  if s.flash.saving then s
  else
    let late := s.nv.ctrls.any (fun e => decide (e.2.cc % 2 = 1) && !e.2.shutdown)
    let s1 := ((List.range 4).foldl State.wakeSlice (s.setFld F.HOLDUP_STATE 4)).dropUncommitted
    { s1 with flash.saving := true, flash.unsafeShutdowns := s.flash.unsafeShutdowns + b2n late,
              flash.shutAt := if s.ftState = 2 then some s.ftSec else none }

/-- What the buffers hold, and how much of it reached the save set: the first n codewords, or all of it with a SAVE_DONE record. What a restore has put back and
has not drained stands in the older set still (R402). -/
def State.noteSave (s : State) (n : Nat) (done : Bool) : State :=
  let us := ((List.range 4).map (fun k => (s.buf k).map (fun w => (k, w)))).flatten
  let old := fun (e : Nat × WUnit) => s.flash.restored.contains (e.1, e.2.seq)
  let sv : Save := { units := if done then us else us.take n ++ (us.drop n).filter old,
                     lost := if done then [] else (us.drop n).filter (fun e => !old e), time := s.ftSec, done := done }
  { s with flash.save := some sv }

/-- HOLDUP_SAMPLE (R397, R399, R401): the bank voltage in mV; below 90 % of V_FULL while READY it is a loss of power. READY follows CHARGING
at 95 % of V_FULL, the recharge level of R400. -/
def execHoldupSample (mv : Nat) (s : State) : Host.Outcome State Fault Refusal := whenUp s <|
  let full := s.bankParam 1
  let s2 := (s.setFld F.HOLDUP_MV mv).setFld F.HOLDUP_CHARGE_PCT (min 127 (100 * mv / max 1 full))
  if s2.holdup = 1 ∧ mv * 10 < full * 9 then .next s2.beginSave
  else
    let s3 := if s2.holdup = 0 ∧ 0 < full ∧ full * 95 ≤ mv * 100 then s2.setFld F.HOLDUP_STATE 1 else s2
    .next s3.showBudget

/-- HOLDUP_TEST (R400): every 24 h of Fabric Time, and 60 s after each start, the test load is switched in. -/
def execHoldupTest (s : State) : Host.Outcome State Fault Refusal := whenUp s <|
  let due : Bool := match s.flash.testAt with
    | none => decide (s.flash.startAt + 60 * ticksPerSec ≤ s.time.mono)
    | some t => decide (t + ticks24h ≤ s.time.mono)
  if due ∧ (s.holdup = 1 ∨ s.holdup = 3) then .next ((s.setFld F.HOLDUP_STATE 2).showBudget) else .next s

/-- HOLDUP_TEST_END (R400): the droop in mV gives C_MEAS; the bank is judged on it and on whether it recharged within 30 s. A droop of zero
gives no quotient: C_MEAS is then a free value. -/
def execHoldupTestEnd (droop : Nat) (recharged : Bool) (s : State) : Host.Outcome State Fault Refusal := whenUp s <|
  if s.holdup ≠ 2 then .next s
  else
    let c := if droop = 0 then Config.unstated s.freeCtr % 2 ^ 32 else s.bankParam 5 * 100000 / droop
    let s1 := ((s.draw).setFld F.HOLDUP_CMEAS c).setFld F.HOLDUP_LAST_TEST s.ftSec
    let bad := decide (c * 100 < 75 * s.bankParam 0) || !recharged
    let s2 := { s1.setFld F.HOLDUP_STATE (if bad then 3 else 1) with flash.testAt := some s1.time.mono }
    let s3 := if bad then s2.raise F.HOLDUP_INT_STATUS_TEST_FAIL_SEEN R.HOLDUP_INT_ENABLE else s2
    .next s3.showBudget

/-- PWRFAIL_N_FALL (R401): the hold-up save begins. -/
def execPwrfailNFall (s : State) : Host.Outcome State Fault Refusal := whenAny s <|
  let s1 := s.setFld F.PIN_STATUS_PWRFAIL 1
  if s.running then .next s1.beginSave else .next s1

/-! Commands of the media that touch no namespace. -/

/-- FLASH_CHANNEL_TIMEOUT (R366, R395): a Read Status takes longer than 100 ms: the channel FAILS and its dies retire. -/
def execFlashChannelTimeout (slice ch : Nat) (s : State) : Host.Outcome State Fault Refusal := whenSlices s <|
  if 4 ≤ slice ∨ 8 ≤ ch ∨ s.fld (F.FL_CH_STATE_STATE slice ch) ≠ 2 then .next s
  else
    let s1 := (s.satFld (F.FL_CH_TIMEOUTS slice ch) 1).setFld (F.FL_CH_STATE_STATE slice ch) 3
    .next ((List.range 16).foldl (fun t d => t.retireDie slice (16 * ch + d)) s1)

/-- DIE_RETIRE (R394, R395): a die that has retired 16 blocks within 24 h, or does not answer (`dead`), enters RETIRING; each further command
rebuilds its member of one band, and after the last the die is RETIRED. -/
def execDieRetire (slice die : Nat) (dead : Bool) (s : State) : Host.Outcome State Fault Refusal := whenSlices s <|
  if 4 ≤ slice ∨ 128 ≤ die then .next s
  else if s.dieState slice die = dieOnline then
    let n := (s.flash.retired.filter (fun r => decide (r.1 = slice ∧ r.2.1 = die ∧ s.time.mono < r.2.2 + ticks24h))).length
    if dead ∨ 16 ≤ n then .next (s.retireDie slice die) else .next s
  else if s.dieState slice die = dieRetiring then
    match s.flash.bands.find? (fun b => decide (b.slice = slice) && b.members.any (fun m => decide (m.1 = die))) with
    | some b => .next (s.replaceMember b die)
    | none =>
      let good := (List.range s.dieBlocks).filter (fun b => decide ((s.blk slice die b).bad = 0))
      .next (((s.setFld (F.FL_DIE_STATE_STATE slice die) dieRetired).incFld (F.AFF_DIE_RETIRED slice)).loseSpare slice good.length)
  else .next s

/-- GARBAGE_COLLECT (R386): with fewer free bands than AFF_GC_LOW, the closed band with the least valid data is collected, the older among
bands within 5 %. -/
def execGarbageCollect (slice : Nat) (s : State) : Host.Outcome State Fault Refusal := whenSlices s <|
  if 4 ≤ slice ∨ max 12 (s.fld (F.AFF_GC_LOW slice)) ≤ s.freeBands slice then .next s
  else
    let closed := s.flash.bands.filter (fun b => decide (b.slice = slice) && !b.isOpen && decide (b.moving = 0))
    match leastBy (fun (b : Band) => ((s.bandValid b).length : Int)) closed with
    | none => .next s
    | some b =>
      let least := (s.bandValid b).length
      let near := closed.filter (fun x => decide (100 * (s.bandValid x).length ≤ 105 * least))
      let pick := (leastBy (fun (x : Band) => (x.closedAt : Int)) near).getD b
      .next (s.moveBand pick 1)

/-- 2^64 × e^(n / d), by a Taylor series after halving the exponent 32 times (R390). -/
def expFix (n d : Int) : Nat :=
  let one : Int := 2 ^ 64
  let x := n * one / (d * 2 ^ 32)
  let t := one + x + x * x / one / 2 + x * x / one * x / one / 6
  let sq := fun (y : Int) (_ : Nat) => y * y / one
  ((List.range 32).foldl sq t).toNat

/-- The ageing factor at die temperature c (°C), scaled by 2^64: exp(12,765 × (1/313.15 − 1/T)) with T = c + 273.15 (R390). -/
def ageFactor (c : Int) : Nat :=
  let t := 100 * c + 27315
  expFix (12765 * 100 * (t - 31315)) (31315 * t)

/-- RETENTION_AGE_UPDATE (R390, R384): every 60 s; `temps` gives the die temperatures now reported, as slice, die, °C + 64. Bands that reach
AFF_RET_LIMIT, and blocks that are marked for refresh, are relocated. -/
def execRetentionAgeUpdate (temps : List (Nat × Nat × Nat)) (s : State) : Host.Outcome State Fault Refusal := whenSlices s <|
  if s.time.mono < s.flash.ageAt + 60 * ticksPerSec then .next s
  else
    let s1 := temps.foldl (fun t e => if e.1 < 4 ∧ e.2.1 < 128 then t.setFld (F.FL_DIE_STATE_TEMP e.1 e.2.1) e.2.2 else t) s
    let hot := fun (t : State) (b : Band) => (b.members.map (fun m => (t.fld (F.FL_DIE_STATE_TEMP b.slice m.1) : Int) - 64)).foldl max (-64)
    let older := s1.flash.bands.map (fun (b : Band) => if b.isOpen then b else { b with age := b.age + (s1.time.mono - s.flash.ageAt) * ageFactor (hot s1 b) / (2 ^ 32 * ticksPerSec) })
    let s2 := { s1 with flash.bands := older, flash.ageAt := s1.time.mono }
    let due := older.filter (fun (b : Band) => !b.isOpen && decide (b.moving = 0) && decide (s2.fld (F.AFF_RET_LIMIT b.slice) * 3600 * 2 ^ 32 ≤ b.age))
    let s3 := due.foldl (fun t b => (t.moveBand b 2).incFld (F.AFF_RET_REFRESH b.slice)) s2
    let marked := (s3.flash.blks.filter (fun e => e.2.refresh && decide (e.2.bad = 0)))
    .next (marked.foldl (fun t e =>
      let k := e.1 / 2 ^ 18
      let x := e.1 / 2 ^ 11 % 128
      let b := e.1 % 2 ^ 11
      ((t.queueMoves k (t.validIn k (fun l => decide (locDie l = x ∧ locBlk l = b)))).setBlk k x b { t.blk k x b with refresh := false })) s3)

/-- READ_DISTURB_LIMIT (R391): a block's read count has reached AFF_RD_LIMIT; its valid data is relocated. -/
def execReadDisturbLimit (slice die block : Nat) (s : State) : Host.Outcome State Fault Refusal := whenSlices s <|
  let v := s.blk slice die block
  let moves := s.validIn slice (fun l => decide (locDie l = die ∧ locBlk l = block))
  if 4 ≤ slice ∨ v.reads < s.fld (F.AFF_RD_LIMIT slice) ∨ moves.isEmpty ∨
      s.flash.reads.any (fun r => decide (r.slice = slice ∧ r.use = .move ∧ locDie r.loc = die ∧ locBlk r.loc = block)) then .next s
  else .next ((s.queueMoves slice moves).incFld (F.AFF_RD_REFRESH slice))

/-- Can a block of a band be erased: the band holds no valid data, is not open, and nothing of it is being read or written (R380)? -/
def State.erasable (s : State) (k : Nat) (b : Band) : Bool :=
  !(b.isOpen || !(s.bandValid b).isEmpty ||
    s.flash.reads.any (fun r => decide (r.slice = k) && b.members.contains (locDie r.loc, locBlk r.loc)) ||
    (s.buf k).any (fun w => match w.loc with | some l => b.members.contains (locDie l, locBlk l) | none => false))

/-- A block of band b is erased; a failed erase retires it (R385, R394). -/
def State.eraseDone (s : State) (slice die block : Nat) (b : Band) (ok : Bool) : State :=
  let left := b.members.filter (fun m => decide (m ≠ (die, block)))
  let s1 := { s with flash.bands := if left.isEmpty then s.flash.bands.filter (fun (x : Band) => decide (x.id ≠ b.id))
                                    else s.flash.bands.map (fun (x : Band) => if x.id = b.id then { b with members := left } else x) }
  if ok then
    let v := s1.blk slice die block
    let s2 := s1.setBlk slice die block { pe := v.pe + 1, bad := v.bad, rebuilt := v.rebuilt }
    let s3 := { s2 with flash.cells := s2.flash.cells.filter (fun (e : Nat × Codeword) =>
      !decide (e.1 / 2 ^ 33 = slice ∧ locDie (e.1 % 2 ^ 33) = die ∧ locBlk (e.1 % 2 ^ 33) = block)) }
    ((s3.incFld (F.AFF_ERASES slice)).showPe slice).showBands slice
  else ((s1.satFld (F.AFF_ERASE_FAIL slice) 1).setBlk slice die block { s1.blk slice die block with band := none }).retireBlock slice die block

/-- The numbers under which a slice's flash reads, programs and erases ask for their tags. -/
def flashReadOp : Nat := 2 ^ 52
def flashProgramOp : Nat := 2 ^ 52 + 1
def flashEraseOp : Nat := 2 ^ 52 + 2

/-- The operation on a die is over: what counts its suspensions starts again (R381). -/
def State.dieFree (s : State) (k x : Nat) : State :=
  { s with flash.suspended := s.flash.suspended.filter (fun e => !decide (e.1 = k ∧ e.2.1 = x)) }

/-- FLASH_ERASE_DONE (R34, R380, R385, R394): a block of a band that holds no valid data and is not being read is erased, under a tag; a failed erase
retires it. -/
def execFlashEraseDone (slice die block : Nat) (ok : Bool) (s : State) : Host.Outcome State Fault Refusal := whenSlices s <|
  if 4 ≤ slice then .next s
  else match s.bandOf slice die block with
    | none => .next s
    | some b =>
      if s.erasable slice b then .next (s.withTag slice flashEraseOp (s.unitClass 22) (fun t => (t.dieFree slice die).eraseDone slice die block b ok)) else .next s

end Sys2Proof.Machine
end

