-- ==== Sys2Proof/Machine/NvBase.lean ====
section
/-!
DEFINITION. The NVMe front end's base: controllers, queues, doorbells, command fetch, PRPs, asynchronous events, completions and controller
registers (chapter 11: R323 to R339, R343, R344). Formats that the spec takes from NVMe 2.0 are that specification's.
-/

namespace Sys2Proof.Machine

/-! Status codes of NVMe 2.0: SC + 256 × SCT. -/

def nvInvalidOpcode : Nat := 0x01
def nvInvalidField : Nat := 0x02
def nvTransferError : Nat := 0x04
def nvInternalError : Nat := 0x06
def nvAbortRequested : Nat := 0x07
def nvSqDeleted : Nat := 0x08
def nvInvalidNs : Nat := 0x0B
def nvSequenceError : Nat := 0x0C
def nvPrpOffset : Nat := 0x13
def nvDenied : Nat := 0x15
def nvLbaRange : Nat := 0x80
def nvCapacity : Nat := 0x81
def nvNsNotReady : Nat := 0x82
def nvCqInvalid : Nat := 0x100
def nvQueueId : Nat := 0x101
def nvQueueSize : Nat := 0x102
def nvAerLimit : Nat := 0x105
def nvBadVector : Nat := 0x108
def nvLogPage : Nat := 0x109
def nvFormat : Nat := 0x10A
def nvQueueDeletion : Nat := 0x10C
def nvNoCapacity : Nat := 0x115
def nvNsidUnavailable : Nat := 0x116
def nvAttached : Nat := 0x118
def nvNotAttached : Nat := 0x11A
def nvCtrlList : Nat := 0x11C
def nvTestRunning : Nat := 0x11D
def nvZoneBoundary : Nat := 0x1B8
def nvZoneFull : Nat := 0x1B9
def nvZoneReadOnly : Nat := 0x1BA
def nvZoneOffline : Nat := 0x1BB
def nvZoneInvalidWrite : Nat := 0x1BC
def nvTooManyActive : Nat := 0x1BD
def nvTooManyOpen : Nat := 0x1BE
def nvZoneTransition : Nat := 0x1BF

def nvOk : NvDone := { status := 0 }
def nvFail (st : Nat) : NvDone := { status := st }

/-- A device status as NVMe reports it (R343, R405); `write` says which of the media errors applies. -/
def nvOfDev (st : Nat) (write : Bool) (lba : Nat) : NvDone :=
  let media := if write then 0x280 else 0x281
  let d := fun (c : Nat) (r : Option Bool) => ({ status := c, dnr := r, dev := st, lba := lba } : NvDone)
  if st = St.HBM_UNCORRECTABLE ∨ st = St.SRAM_UNCORRECTABLE then d media (some false)
  else if st = St.CIPHER_CHECK_FAIL then d nvInternalError (some false)
  else if st = St.CIPHER_RNG_UNAVAILABLE ∨ st = St.CIPHER_OFFLINE then d nvNsNotReady (some false)
  else if st = St.CIPHER_KEY_EMPTY ∨ st = St.CIPHER_KEYS_ERASED then d 0x286 (some true)
  else if st = St.MEDIA_WRITE_FAULT then d media (some false)
  else if st / 256 = 0x40 ∧ st ≠ St.SEAL_CHAIN_BROKEN then d media (some true)
  else if st = St.SEAL_CHAIN_BROKEN then d 0x2C0 (some true)
  else if st = St.TRANSLATION_FAULT then d nvTransferError (some true)
  else d nvTransferError none

/-- An Accession refusal (R343, R350, R352). -/
def nvRefused : NvDone := { status := nvDenied, dnr := some true }

/-! Controllers and queues. -/

def State.nvc (s : State) (i : Nat) : NvCtrl := Map.get (fun _ => {}) s.nv.ctrls i
def State.setNvc (s : State) (i : Nat) (c : NvCtrl) : State := { s with nv.ctrls := Map.put (fun _ => {}) s.nv.ctrls i c }

def NvCtrl.en (c : NvCtrl) : Bool := bitOf c.cc 0
def NvCtrl.rdy (c : NvCtrl) : Bool := bitOf c.csts 0
/-- The memory page size that CC.MPS selects. -/
def NvCtrl.page (c : NvCtrl) : Nat := 2 ^ (12 + min 4 (bitsOf c.cc 10 7))
def NvCtrl.feat (c : NvCtrl) (id : Nat) : Nat := Map.get (fun _ => 0) c.feats id

/-- Does instance i present a controller (R323, R450)? -/
def State.isCtrl (s : State) (i : Nat) : Bool := decide (s.instType i = 4) && s.on (F.NVME_CTRL_CFG_ENABLE i)

def State.nvSq? (s : State) (i q : Nat) : Option NvSq := s.nv.sqs.find? (fun x => decide (x.inst = i ∧ x.qid = q))
def State.nvCq? (s : State) (i q : Nat) : Option NvCq := s.nv.cqs.find? (fun x => decide (x.inst = i ∧ x.qid = q))
def State.setSq (s : State) (q : NvSq) : State :=
  { s with nv.sqs := s.nv.sqs.map (fun x => if x.inst = q.inst ∧ x.qid = q.qid then q else x) }
def State.setCq (s : State) (q : NvCq) : State :=
  { s with nv.cqs := s.nv.cqs.map (fun x => if x.inst = q.inst ∧ x.qid = q.qid then q else x) }

/-- Show NVME_SQ_ACTIVE, NVME_CQ_ACTIVE and the NVMEQ field of INST_USE_A. -/
def State.showQueues (s : State) (i : Nat) : State :=
  let s1 := (List.range 4).foldl (fun (t : State) k =>
    (t.setFld (F.NVME_SQ_ACTIVE k) (s.nv.sqs.filter (fun q => decide (q.slice = k))).length).setFld (F.NVME_CQ_ACTIVE k)
      (s.nv.cqs.filter (fun q => decide (q.slice = k))).length) s
  let n := (s.nv.sqs.filter (fun q => decide (q.inst = i ∧ q.qid ≠ 0))).length + (s.nv.cqs.filter (fun q => decide (q.inst = i ∧ q.qid ≠ 0))).length
  s1.setFld ⟨R.INST_USE_A i, 32, 9⟩ n

def State.setCmd (s : State) (c : NvCmd) : State := { s with nv.cmds := s.nv.cmds.map (fun x => if x.id = c.id then c else x) }

/-- Free entries of a completion queue: one slot stays empty. -/
def NvCq.free (q : NvCq) : Nat := q.size - 1 - (q.tail + q.size - q.head) % q.size

/-- Commands fetched whose completion goes to a completion queue and is not posted. -/
def State.nvOutstanding (s : State) (i cq : Nat) : Nat :=
  (s.nv.cmds.filter (fun c => decide (c.inst = i) && (match s.nvSq? i c.sq with | some q => decide (q.cq = cq) | none => false))).length

/-- Has the completion queue of an SQ room for one more command (R337)? -/
def State.cqRoom (s : State) (q : NvSq) : Bool :=
  match s.nvCq? q.inst q.cq with
  | some c => decide (s.nvOutstanding q.inst q.cq < c.free)
  | none => false

/-! Dwords and fields of a submission queue entry. -/

def NvCmd.dw (c : NvCmd) (n : Nat) : Nat := leAt c.sqe (4 * n) 4
def NvCmd.opc (c : NvCmd) : Nat := bitsOf (c.dw 0) 7 0
def NvCmd.nsid (c : NvCmd) : Nat := c.dw 1
def NvCmd.prp1 (c : NvCmd) : Nat := leAt c.sqe 24 8
def NvCmd.prp2 (c : NvCmd) : Nat := leAt c.sqe 32 8
def NvCmd.mptr (c : NvCmd) : Nat := leAt c.sqe 16 8
def NvCmd.slba (c : NvCmd) : Nat := leAt c.sqe 40 8
/-- Number of logical blocks of an I/O command. -/
def NvCmd.nlb (c : NvCmd) : Nat := bitsOf (c.dw 12) 15 0 + 1

/-! Asynchronous events (R329, R336). -/

/-- Give waiting events to outstanding Asynchronous Event Requests, oldest first; a type that has been reported waits until its page is read. -/
def State.nvAers (s : State) (i : Nat) : Nat → State
  | 0 => s
  | n + 1 =>
    let c := s.nvc i
    match s.nv.cmds.find? (fun x => decide (x.inst = i ∧ x.sq = 0 ∧ x.opc = 0x0C) && x.issued && x.done.isNone),
          takeFirst (fun (e : Nat × Nat × Nat) => !c.masked.contains e.1) c.events with
    | some x, some ((ty, info, page), rest) =>
      ((s.setNvc i { c with events := rest, masked := c.masked ++ [ty] }).setCmd
        { x with done := some { status := 0, dw0 := ty + 256 * info + 65536 * page } }).nvAers i n
    | _, _ => s

/-- Report an event: its type, information and log page. -/
def State.nvEvent (s : State) (i ty info page : Nat) : State :=
  let c := s.nvc i
  let s1 := if c.events.contains (ty, info, page) then s else s.setNvc i { c with events := c.events ++ [(ty, info, page)] }
  s1.nvAers i 4

/-! Doorbells (R336, R313, R344). -/

/-- A doorbell is bad: counted, and reported as an error event. -/
def State.nvBadDb (s : State) (i k info : Nat) : State :=
  ((s.satFld (F.NVME_DB_ERR k) 1).raiseWith (F.NVME_INT_STATUS_DB_ERR_SEEN k) (R.NVME_INT_ENABLE k) i).nvEvent i 0 info 1

/-- The slice of the admin queues of a controller. -/
def State.adminSlice (s : State) (i : Nat) : Nat := s.fld (F.NVME_CTRL_CFG_ADMIN_SLICE i)

/-- A command is submitted to a controller in PS3 or PS4: it returns to its last operational state (R344); its idle timer starts anew. -/
def State.nvWake (s : State) (i : Nat) : State :=
  let c := s.nvc i
  let s1 := s.twCancel (s.adminSlice i) (.apst i)
  if 3 ≤ c.ps then s1.setNvc i { c with ps := c.lastOp } else s1

/-- An SQ tail doorbell at the queue's home (R336). -/
def State.nvSqBell (s : State) (i q v : Nat) : State :=
  match s.nvSq? i q with
  | none => s.nvBadDb i (s.adminSlice i) 0
  | some sq =>
    if sq.size ≤ v then s.nvBadDb i sq.slice 1
    else if v = sq.tail then s
    else
      let s1 := if s.awake sq.slice then s else s.incFld (F.NVME_PS_DELAYED sq.slice)
      ((s1.setSq { sq with tail := v, bells := sq.bells ++ [(v, s.time.mono)] }).nvWake i).wakeSlice sq.slice

/-- A CQ head doorbell at the queue's home (R336). -/
def State.nvCqBell (s : State) (i q v : Nat) : State :=
  match s.nvCq? i q with
  | none => s.nvBadDb i (s.adminSlice i) 0
  | some cq =>
    if cq.size ≤ v ∨ (cq.tail + cq.size - cq.head) % cq.size < (v + cq.size - cq.head) % cq.size then s.nvBadDb i cq.slice 1
    else (s.setCq { cq with head := v }).wakeSlice cq.slice

/-- A write of a function's NVMe register set goes to the home of a bound function as FE_DOORBELL (R323, R313). -/
def State.nvForward (s : State) (i off v : Nat) : Option State :=
  match s.anchorBinding i with
  | none => none
  | some b => some (if b.state = 1 then (s.incFld F.FE_DB_FWD).feSend b 3 (leBytes 4 off ++ leBytes 4 (v % 2 ^ 32)) else s.incFld F.FE_DB_DROP)

/-- NVME_SQ_DOORBELL (R336, R344). -/
def execNvmeSqDoorbell (inst qid value : Nat) (s : State) : Host.Outcome State Fault Refusal := whenSlices s <|
  match s.nvForward inst (0x1000 + 8 * qid) value with
  | some t => .next t
  | none => if s.isCtrl inst then .next ((s.linkBusy (s.instLink inst)).nvSqBell inst qid (value % 65536)) else .next s

/-- NVME_CQ_DOORBELL (R336, R337). -/
def execNvmeCqDoorbell (inst qid value : Nat) (s : State) : Host.Outcome State Fault Refusal := whenSlices s <|
  match s.nvForward inst (0x1004 + 8 * qid) value with
  | some t => .next t
  | none => if s.isCtrl inst then .next ((s.linkBusy (s.instLink inst)).nvCqBell inst qid (value % 65536)) else .next s

/-! Command fetch (R335, R337). -/

/-- The class of an SQ's commands (R335). -/
def State.nvClass (s : State) (q : NvSq) : Nat :=
  let wrr := decide (bitsOf (s.nvc q.inst).cc 13 11 = 1)
  if q.qid = 0 then s.fld (F.NVME_CTRL_CFG_ADMIN_CLASS q.inst)
  else if !wrr then s.fld (F.NVME_CTRL_CFG_MEDIUM_CLASS q.inst)
  else match q.prio with
    | 0 => s.fld (F.NVME_CTRL_CFG_URGENT_CLASS q.inst)
    | 1 => s.fld (F.NVME_CTRL_CFG_HIGH_CLASS q.inst)
    | 2 => s.fld (F.NVME_CTRL_CFG_MEDIUM_CLASS q.inst)
    | _ => s.fld (F.NVME_CTRL_CFG_LOW_CLASS q.inst)

/-- May an SQ fetch now? -/
def State.fetchable (s : State) (q : NvSq) : Bool :=
  decide (q.head ≠ q.tail) && (s.nvc q.inst).rdy && s.instRuns q.inst && q.deleting.isNone && s.cqRoom q &&
  ((s.homeBinding q.inst).isSome || s.busMaster q.inst)

/-- The first of l in rotation after queue `after`. -/
def rotateFrom (after : Nat) (l : List NvSq) : Option NvSq :=
  match leastBy (fun (q : NvSq) => (q.qid : Int)) (l.filter (fun q => decide (after < q.qid))) with
  | some q => some q
  | none => leastBy (fun (q : NvSq) => (q.qid : Int)) l

/-- The SQ of controller i that fetches next, of those in slice k (R335): round robin, or weighted round robin with the admin queue and urgent
queues first. -/
def State.nextSq (s : State) (i k : Nat) : Option NvSq :=
  let c := s.nvc i
  let l := s.nv.sqs.filter (fun q => decide (q.inst = i ∧ q.slice = k) && s.fetchable q)
  if bitsOf c.cc 13 11 ≠ 1 then rotateFrom c.rotate l
  else
    let pick := fun (p : NvSq → Bool) => rotateFrom c.rotate (l.filter p)
    match l.find? (fun q => decide (q.qid = 0)), pick (fun q => decide (q.prio = 0)) with
    | some q, _ => some q
    | none, some q => some q
    | none, none =>
      let has := fun (n : Nat) => decide (0 < c.credits.getD n 0)
      match pick (fun q => decide (1 ≤ q.prio) && has (q.prio - 1)) with
      | some q => (match [1, 2, 3].findSome? (fun n => if has (n - 1) then pick (fun x => decide (x.prio = n)) else none) with
        | some x => some x
        | none => some q)
      | none => pick (fun q => decide (1 ≤ q.prio))

/-- The deadline of an SQ's oldest unfetched command (R335). -/
def State.sqDeadline (s : State) (q : NvSq) : Nat := s.deadlineOf (s.nvClass q) (q.bells.headD (0, s.time.mono)).2

/-- The fetch of an SQ's oldest unfetched commands, part of their operations (R34, R75). -/
def State.sqOp (s : State) (q : NvSq) : Op := s.classOp 1 (s.nvClass q) (q.bells.headD (0, s.time.mono)).2

/-- A command's operation: its queue's class, from its doorbell on (R75, R76). -/
def State.cmdOp (s : State) (c : NvCmd) : Op := s.classOp 1 (((s.nvSq? c.inst c.sq).map s.nvClass).getD 0) c.begun

/-- The SQ that the fetch unit of slice k serves: the nearest deadline among the controllers' picks. -/
def State.fetchPick (s : State) (k : Nat) : Option NvSq :=
  let ctrls := s.nv.ctrls.map (fun e => e.1)
  leastBy (fun (q : NvSq) => relDeadline s.time.mono (s.sqDeadline q)) (ctrls.filterMap (fun i => s.nextSq i k))

def nvAdminOps : List Nat := [0x00, 0x01, 0x02, 0x04, 0x05, 0x06, 0x08, 0x09, 0x0A, 0x0C, 0x0D, 0x14, 0x15, 0x80]
def nvNvmOps : List Nat := [0x00, 0x01, 0x02, 0x08, 0x09, 0x0C]
def nvZnsOps : List Nat := [0x00, 0x01, 0x02, 0x08, 0x09, 0x0C, 0x79, 0x7A, 0x7D]

/-- Zone Send Actions and Zone Receive Actions of ZNS. -/
def zsaCodes : List Nat := [1, 2, 3, 4, 5, 0x10]
def zraCodes : List Nat := [0, 1]

/-- Is NSID attached to controller i? -/
def State.attachedTo (s : State) (i nsid : Nat) : Bool :=
  match s.ns? nsid with
  | some n => n.attached.contains i
  | none => false

/-- The operation codes that a namespace takes (R328, R350). -/
def State.nsOps (s : State) (nsid : Nat) : List Nat :=
  match s.ns? nsid with
  | some n => if n.csi = 2 then (if n.acc then nvZnsOps ++ [0x86] else nvZnsOps) else nvNvmOps
  | none => nvNvmOps

/-- What ends a command as soon as it is fetched (R326 to R328): an opcode that is not supported, a fused operation or an SGL, a namespace that is not there. -/
def State.fetchCheck (s : State) (c : NvCmd) : Option NvDone :=
  if c.sq = 0 then
    if !nvAdminOps.contains c.opc then some (nvFail nvInvalidOpcode)
    else if [0x0D, 0x14, 0x15, 0x80].contains c.opc ∧ !s.on (F.NVME_CTRL_CFG_NS_ADMIN c.inst) then some (nvFail nvInvalidOpcode)
    else if bitsOf (c.dw 0) 9 8 ≠ 0 ∨ bitsOf (c.dw 0) 15 14 ≠ 0 then some (nvFail nvInvalidField)
    else none
  else if bitsOf (c.dw 0) 9 8 ≠ 0 ∨ bitsOf (c.dw 0) 15 14 ≠ 0 then some (nvFail nvInvalidField)
  else if c.opc = 0x00 ∧ c.nsid = 0xFFFFFFFF then none
  else if !s.attachedTo c.inst c.nsid then (if nvZnsOps.contains c.opc ∨ c.opc = 0x86 then some (nvFail nvInvalidNs) else some (nvFail nvInvalidOpcode))
  else if !(s.nsOps c.nsid).contains c.opc then some (nvFail nvInvalidOpcode)
  else if (c.opc = 0x79 ∧ !zsaCodes.contains (bitsOf (c.dw 13) 7 0)) ∨ (c.opc = 0x7A ∧ !zraCodes.contains (bitsOf (c.dw 13) 7 0)) then
    some (nvFail nvInvalidField)
  else none

/-- Take in one fetched 64-byte command of an SQ. -/
def State.takeCommand (s : State) (i q : Nat) (sqe : List Byte) : State :=
  match s.nvSq? i q with
  | none => s
  | some sq =>
    let begun := (sq.bells.headD (sq.tail, s.time.mono)).2
    let c : NvCmd := { id := s.nv.nextCmd, inst := i, sq := q, cid := leAt sqe 2 2, slice := sq.slice, sqe := sqe, begun := begun }
    let head := (sq.head + 1) % sq.size
    let bells := match sq.bells with
      | (t, m) :: rest => if t = head then rest else (t, m) :: rest
      | [] => []
    let sq1 : NvSq := { sq with head := head, bells := bells, fetched := sq.fetched + 1, longest := max sq.longest (s.time.mono - begun) }
    let x := s.nvc i
    let aborted := x.aborts.contains (q, c.cid)
    let s0 := if aborted then s.setNvc i { x with aborts := x.aborts.erase (q, c.cid) } else s
    let s1 := { s0 with nv.cmds := s0.nv.cmds ++ [{ c with done := if aborted then some (nvFail nvAbortRequested) else s.fetchCheck c }],
                        nv.nextCmd := s0.nv.nextCmd + 1 }
    (s1.setSq sq1).incFld (F.NVME_CMDS sq.slice)

/-- How many commands a turn fetches from an SQ: up to 2^AB, up to the end of the queue, and within the room of its CQ (R335, R337). -/
def State.turnSize (s : State) (q : NvSq) : Nat :=
  let ab := bitsOf ((s.nvc q.inst).feat 0x01) 2 0
  let room := match s.nvCq? q.inst q.cq with
    | some c => c.free - s.nvOutstanding q.inst q.cq
    | none => 0
  let have_ := if q.head ≤ q.tail then q.tail - q.head else q.size - q.head
  min (min (if ab = 7 then have_ else 2 ^ ab) have_) room

/-- Weighted round robin: a turn of a priority uses its credit; when none is left, the Arbitration feature's weights fill them again (R335). -/
def State.spendTurn (s : State) (q : NvSq) : State :=
  let c := s.nvc q.inst
  let w := c.feat 0x01
  let fill := [bitsOf w 31 24 + 1, bitsOf w 23 16 + 1, bitsOf w 15 8 + 1]
  let cr := if q.qid = 0 ∨ q.prio = 0 then c.credits
    else
      let l := if c.credits.getD (q.prio - 1) 0 = 0 then fill else c.credits
      l.set (q.prio - 1) (l.getD (q.prio - 1) 0 - 1)
  s.setNvc q.inst { c with rotate := q.qid, credits := cr }

/-- CSTS.CFS is set: the controller needs a reset. -/
def State.nvFatal (s : State) (i : Nat) : State :=
  let c := s.nvc i
  s.setNvc i { c with csts := if bitOf c.csts 1 then c.csts else c.csts + 2 }

/-- NVME_COMMAND_FETCH (R335 to R337, R75): the fetch unit of a slice gives its next turn. A failed fetch is a fatal controller error. -/
def execNvmeCommandFetch (slice : Nat) (s : State) : Host.Outcome State Fault Refusal := whenSlices s <|
  if 4 ≤ slice ∨ s.flash.saving ∨ !s.awake slice then .next s
  else match s.fetchPick slice with
    | none => .next s
    | some q =>
      let n := s.turnSize q
      match s.dmaRead slice q.inst (q.base + 64 * q.head) (64 * n) (s.sqOp q) with
      | (s1, .wait) => .next s1
      | (s1, .fail _) => .next (s1.nvFatal q.inst)
      | (s1, .ok d) =>
        .next (((List.range n).foldl (fun t j => t.takeCommand q.inst q.qid (Machine.slice d (64 * j) 64)) s1).spendTurn q)

/-! PRPs (R328). -/

/-- What resolving a buffer gives. -/
inductive PrpRes where
  | ok (bufs : List (Nat × Nat))
  | wait
  | err (d : NvDone)
  deriving DecidableEq, Repr

/-- Pages of size p for n bytes from the entries of a list; an entry with an offset is refused. -/
def prpPages (p : Nat) : List Nat → Nat → Option (List (Nat × Nat))
  | _, 0 => some []
  | [], _ => some []
  | e :: es, n => if e % p ≠ 0 then none else (prpPages p es (n - min n p)).map (fun l => (e, min n p) :: l)

/-- Follow PRP lists from address a for n bytes: the last entry of a full list page points to the next list. -/
def State.prpList (s : State) (k i p : Nat) (o : Op) : Nat → Nat → Nat → State × PrpRes
  | 0, _, _ => (s, .err (nvFail nvInvalidField))
  | fuel + 1, a, n =>
    let want := (n + p - 1) / p
    let fit := (p - a % p) / 8
    let m := if want ≤ fit then want else fit
    match s.dmaRead k i a (8 * m) o with
    | (s1, .wait) => (s1, .wait)
    | (s1, .fail st) => (s1, .err (nvOfDev st false 0))
    | (s1, .ok d) =>
      let es := (List.range m).map (dwAt d)
      if want ≤ fit then
        match prpPages p es n with
        | some l => (s1, .ok l)
        | none => (s1, .err (nvFail nvPrpOffset))
      else match prpPages p (es.take (m - 1)) n with
        | none => (s1, .err (nvFail nvPrpOffset))
        | some l =>
          match s1.prpList k i p o fuel (es.getD (m - 1) 0) (n - (m - 1) * p) with
          | (s2, .ok l2) => (s2, .ok (l ++ l2))
          | r => r

/-- The buffer of n bytes that a command's PRPs name. -/
def State.prps (s : State) (c : NvCmd) (n : Nat) : State × PrpRes :=
  match c.bufs with
  | some l => (s, .ok l)
  | none =>
    let p := (s.nvc c.inst).page
    let first := min n (p - c.prp1 % p)
    let rest := n - first
    let r : State × PrpRes :=
      if c.prp1 % 4 ≠ 0 then (s, .err (nvFail nvPrpOffset))
      else if rest = 0 then (s, .ok [(c.prp1, n)])
      else if rest ≤ p then (if c.prp2 % p ≠ 0 then (s, .err (nvFail nvPrpOffset)) else (s, .ok [(c.prp1, first), (c.prp2, rest)]))
      else if c.prp2 % 8 ≠ 0 then (s, .err (nvFail nvPrpOffset))
      else match s.prpList c.slice c.inst p (s.cmdOp c) 64 c.prp2 rest with
        | (s1, .ok l) => (s1, .ok ((c.prp1, first) :: l))
        | x => x
    match r with
    | (s1, .ok l) => (s1.setCmd { c with bufs := some l }, .ok l)
    | x => x

/-- A command as it now stands. -/
def State.cmdNow (s : State) (c : NvCmd) : NvCmd := (s.nv.cmds.find? (fun x => decide (x.id = c.id))).getD c

/-! Running a command. -/

inductive NvRes where
  /-- it waits and is sent again -/
  | wait
  /-- it ends so -/
  | done (d : NvDone)
  deriving DecidableEq, Repr

/-- The command of a queue that has been fetched, has one of these opcodes, and waits to be carried out. -/
def State.nvPending (s : State) (i q cid : Nat) (ops : List Nat) : Option NvCmd :=
  s.nv.cmds.find? (fun c => decide (c.inst = i ∧ c.sq = q ∧ c.cid = cid) && ops.contains c.opc && !c.issued && c.done.isNone)

/-- A command ends: an Error Information entry follows every device status (R343). -/
def State.nvEnd (s : State) (id : Nat) (d : NvDone) : State :=
  match s.nv.cmds.find? (fun c => decide (c.id = id)) with
  | none => s
  | some c =>
    let s0 := s.setCmd { c with done := some d, issued := true }
    let s1 := if [St.MEDIA_UNRECOVERED, St.MEDIA_MAP_LOST, St.MEDIA_WRITE_LOST].contains d.dev then
      { s0 with flash.mediaErrors := s0.flash.mediaErrors + 1 } else s0
    if d.dev = 0 then s1
    else
      let x := s1.nvc c.inst
      let e : NvErr := ⟨x.errCount + 1, c.sq, c.cid, d.status, d.lba, c.nsid, d.dev⟩
      s1.setNvc c.inst { x with errs := (e :: x.errs).take 64, errCount := x.errCount + 1 }

/-- Carry out a pending command. -/
def State.nvRun (s : State) (i q cid : Nat) (ops : List Nat) (f : State → NvCmd → State × NvRes) : State :=
  if s.flash.saving then s
  else match s.nvPending i q cid ops with
    | none => s
    | some c =>
      match f s c with
      | (s1, .wait) => s1
      | (s1, .done d) => s1.nvEnd c.id d

/-- The packet buffer cells in which a command stages n bytes (class 2, R36 to R38): they are asked for once; the command waits until all are
granted. -/
def State.nvCells (s : State) (c : NvCmd) (n : Nat) : State × Bool :=
  match c.cells with
  | none =>
    let q := s.nvSq? c.inst c.sq
    let f : Frame := { id := s.eth.nextFrame, origin := .self, slice := c.slice, stage := .staging, data := [], arrived := 0, whole := true,
                       begun := c.begun, dlClass := (q.map s.nvClass).getD 0 }
    let s1 := (({ s with eth.nextFrame := s.eth.nextFrame + 1 }.setFrame f).askCells c.slice 2 f.id (cellsFor n)).countAdmit c.slice f.id
    let ok := match s1.frame? f.id with
      | some g => decide (g.cellWait = 0)
      | none => true
    (s1.setCmd { c with cells := some f.id }, ok)
  | some id =>
    match s.frame? id with
    | some g => (s, decide (g.cellWait = 0))
    | none => (s, true)

/-- Give staging cells back. -/
def State.nvFreeCells (s : State) (c : NvCmd) : State :=
  match c.cells with
  | none => s
  | some id =>
    match s.frame? id with
    | some g => s.eraseFrame g
    | none => s

/-- Send n bytes of a reply to a command's buffer. -/
def State.nvSend (s : State) (c : NvCmd) (bs : List Byte) (d : NvDone) : State × NvRes :=
  if bs.isEmpty then (s, .done d)
  else match s.prps c bs.length with
    | (s1, .wait) => (s1, .wait)
    | (s1, .err e) => (s1, .done e)
    | (s1, .ok bufs) =>
      match s1.dmaScatter c.slice c.inst (s.cmdOp c) bufs bs with
      | (s2, .ok _) => (s2, .done d)
      | (s2, .fail st) => (s2, .done (nvOfDev st false 0))
      | (s2, .wait) => (s2, .wait)

/-- Fetch n bytes of a command's buffer. -/
inductive NvData where
  | ok (d : List Byte)
  | wait
  | err (d : NvDone)
  deriving DecidableEq, Repr

def State.nvFetch (s : State) (c : NvCmd) (n : Nat) : State × NvData :=
  match c.data with
  | some d => (s, .ok d)
  | none =>
    match s.prps c n with
    | (s1, .wait) => (s1, .wait)
    | (s1, .err e) => (s1, .err e)
    | (s1, .ok bufs) =>
      match s1.dmaGather c.slice c.inst (s.cmdOp c) bufs with
      | (s2, .ok d) => (s2.setCmd { c with bufs := some bufs, data := some d }, .ok d)
      | (s2, .fail st) => (s2, .err (nvOfDev st true 0))
      | (s2, .wait) => (s2, .wait)

/-! Completions and interrupts (R337). -/

/-- Signal a vector, unless INTMS holds it back outside MSI-X. -/
def State.nvVector (s : State) (i v : Nat) : State :=
  let c := s.nvc i
  let s1 := s.setNvc i { c with unsignalled := Map.put (fun _ => 0) c.unsignalled v 0 }
  let s2 := s1.twCancel (s1.adminSlice i) (.nvmeCoalesce i v)
  if bitOf c.intms (v % 32) ∧ v < 32 ∧ !(s2.fnX i).msixEnable then
    let c2 := s2.nvc i
    if c2.intPend.contains v then s2 else s2.setNvc i { c2 with intPend := c2.intPend ++ [v] }
  else s2.signalVector i v

/-- A completion has been written to a queue: interrupt now, or count it for coalescing (R329, R337). -/
def State.nvInterrupt (s : State) (q : NvCq) : State :=
  if !q.ien then s
  else
    let c := s.nvc q.inst
    let thr := bitsOf (c.feat 0x08) 7 0
    let time := bitsOf (c.feat 0x08) 15 8
    let cd := bitOf (c.feat (0x09 + 256 * (q.vector + 1))) 16
    if q.qid = 0 ∨ cd ∨ thr = 0 ∨ time = 0 then s.nvVector q.inst q.vector
    else
      let n := Map.get (fun _ => 0) c.unsignalled q.vector + 1
      if thr < n then s.nvVector q.inst q.vector
      else
        let s1 := s.setNvc q.inst { c with unsignalled := Map.put (fun _ => 0) c.unsignalled q.vector n }
        if n = 1 then s1.twInsert (s1.adminSlice q.inst) false (s1.time.mono + time * 100 * ticksPerUs) (.nvmeCoalesce q.inst q.vector) else s1

/-- The 16 bytes of a completion. -/
def nvCqe (d : NvDone) (dnr : Bool) (sqHead sq cid : Nat) (phase : Bool) : List Byte :=
  leBytes 4 d.dw0 ++ leBytes 4 d.dw1 ++ leBytes 2 sqHead ++ leBytes 2 sq ++ leBytes 2 cid ++
  leBytes 2 (b2n phase + 2 * (d.status % 2 ^ 11) + 2 ^ 15 * b2n dnr)

/-- Is the controller idle: no command outstanding and none to fetch? -/
def State.nvIdle (s : State) (i : Nat) : Bool :=
  !s.nv.cmds.any (fun c => decide (c.inst = i) && !(decide (c.opc = 0x0C ∧ c.sq = 0))) &&
  !s.nv.sqs.any (fun q => decide (q.inst = i ∧ q.head ≠ q.tail))

/-- The Autonomous Power State Transition entry of a power state: transition target and idle time in milliseconds (R329, R533). -/
def NvCtrl.apstEntry (c : NvCtrl) (ps : Nat) : Nat × Nat := let e := leAt c.apst (8 * ps) 8; (bitsOf e 7 3, bitsOf e 31 8)

/-- An idle controller with APST enabled starts its idle timer (R533). -/
def State.nvArmApst (s : State) (i : Nat) : State :=
  let c := s.nvc i
  let e := c.apstEntry c.ps
  if bitOf (c.feat 0x0C) 0 ∧ e.2 ≠ 0 ∧ c.rdy ∧ s.nvIdle i then
    (s.twCancel (s.adminSlice i) (.apst i)).twInsert (s.adminSlice i) false (s.time.mono + e.2 * ticksPerMs) (.apst i)
  else s

/-- Delete an SQ. -/
def State.dropSq (s : State) (i q : Nat) : State :=
  { s with nv.sqs := s.nv.sqs.filter (fun x => !decide (x.inst = i ∧ x.qid = q)) }.showQueues i

/-- Delete I/O SQ ends once every command of the queue has completed (R338). -/
def State.sqDrained (s : State) (i q : Nat) : State :=
  match s.nvSq? i q with
  | none => s
  | some sq =>
    match sq.deleting with
    | none => s
    | some id => if s.nv.cmds.any (fun c => decide (c.inst = i ∧ c.sq = q)) then s else (s.dropSq i q).nvEnd id nvOk

/-- NVME_COMPLETION_POST (R132, R337, R343): the completion of a command that has ended is written, and its interrupt follows. -/
def execNvmeCompletionPost (inst sq cid : Nat) (s : State) : Host.Outcome State Fault Refusal := whenSlices s <|
  match s.nv.cmds.find? (fun c => decide (c.inst = inst ∧ c.sq = sq ∧ c.cid = cid) && c.done.isSome), s.nvSq? inst sq with
  | some c, some q =>
    (match c.done, s.nvCq? inst q.cq with
     | some d, some cq =>
       if cq.free = 0 ∨ c.pieces ≠ [] ∨ c.unprog ≠ [] then .next s
       else
         let free := decide (d.status ≠ 0) && d.dnr.isNone
         let dnr := if free then decide (Config.unstated s.freeCtr % 2 = 1) else d.dnr.getD false
         let s0 := if free then s.draw else s
         match s0.dmaWrite cq.slice inst (cq.base + 16 * cq.tail) (s.cmdOp c) (nvCqe d dnr q.head sq cid cq.phase) with
         | (s1, .wait) => .next s1
         | (s1, .fail _) => .next (s1.nvFatal inst)
         | (s1, .ok _) =>
           let tail := (cq.tail + 1) % cq.size
           let s2 := (s1.nvFreeCells c).setCq { cq with tail := tail, phase := if tail = 0 then !cq.phase else cq.phase }
           let s3 := { s2 with nv.cmds := s2.nv.cmds.filter (fun x => decide (x.id ≠ c.id)) }
           let s4 := if d.status ≠ 0 then s3.incFld (F.NVME_ERR_CPL cq.slice) else s3
           let s5 := if d.status = nvAbortRequested ∨ d.status = nvSqDeleted then s4.incFld (F.NVME_ABORTED cq.slice) else s4
           .next (((s5.nvInterrupt cq).sqDrained inst sq).nvArmApst inst)
     | _, _ => .next s)
  | _, _ => .next s

/-- NVME_COALESCE_TIMER (R337): the time limit of a vector has expired. -/
def execNvmeCoalesceTimer (inst vector : Nat) (s : State) : Host.Outcome State Fault Refusal := whenSlices s <|
  let k := s.adminSlice inst
  if s.twFired k (.nvmeCoalesce inst vector) then .next (s.nvVector inst vector) else .next s

/-! Controller registers (R334, R339, R403). -/

def nvCap : Nat := 0x004008200403FFFF

/-- A controller stops (R339): fetched commands are dropped; those issued complete to the media with their completions suppressed; all queues are
deleted and the admin queue registers cleared. -/
def State.nvStop (s : State) (i : Nat) : State :=
  let mine := s.nv.cmds.filter (fun c => decide (c.inst = i))
  let s1 := mine.foldl (fun t c =>
    let u := t.nvFreeCells c
    if c.issued ∧ !(decide (c.sq = 0 ∧ c.opc = 0x0C)) then u.incFld (F.NVME_SUPPRESSED c.slice) else u) s
  let s2 := { s1 with nv.cmds := s1.nv.cmds.filter (fun c => decide (c.inst ≠ i)), nv.sqs := s1.nv.sqs.filter (fun q => decide (q.inst ≠ i)),
                      nv.cqs := s1.nv.cqs.filter (fun q => decide (q.inst ≠ i)),
                      nv.appends := s1.nv.appends.map (fun (a : ZApp) => if (mine.any (fun c => decide (a.cmd = some c.id))) then { a with cmd := none } else a) }
  let c := s2.nvc i
  let s3 := s2.setNvc i { c with aqa := 0, asq := 0, acq := 0, unsignalled := [], intPend := [], events := [], masked := [], aborts := [] }
  ((s3.twCancel (s3.adminSlice i) (.apst i)).showQueues i)

/-- The loss records of a controller's commands (R464): MEDIA_DONE for a write in the protected buffer, DATA_PARTIAL for a read under way. -/
def State.nvLoss (s : State) (i : Nat) : List LossRec :=
  ((s.nv.cmds.filter (fun c => decide (c.inst = i))).filter (fun c => !decide (c.sq = 0 ∧ c.opc = 0x0C))).map (fun c =>
    let write := decide (c.sq ≠ 0) && [0x01, 0x08, 0x09, 0x7D].contains c.opc
    let media := write && c.issued && c.pieces.isEmpty
    let part := decide (c.sq ≠ 0 ∧ (c.opc = 0x02 ∨ c.opc = 0x86)) && c.bufs.isSome
    ⟨2, 65536 * c.sq + c.cid, c.opc, b2n media + 2 * b2n part⟩)

/-- CC.EN goes from 0 to 1 (R334): the admin queues are created, or CSTS.CFS is set. -/
def State.nvEnable (s : State) (i cc : Nat) : State :=
  let c := s.nvc i
  let k := s.adminSlice i
  let c1 : NvCtrl := { c with cc := cc, csts := 0, shutdown := false, feats := [], apst := [], ps := 0, lastOp := 0, rotate := 0, events := [], masked := [] }
  if bitsOf cc 6 4 ≠ 6 ∨ 4 < bitsOf cc 10 7 ∨ s.instState i = instDisabled then s.setNvc i { c1 with csts := 2 }
  else
    let sq : NvSq := { inst := i, qid := 0, slice := k, cq := 0, size := bitsOf c.aqa 11 0 + 1, base := c.asq }
    let cq : NvCq := { inst := i, qid := 0, slice := k, size := bitsOf c.aqa 27 16 + 1, base := c.acq, ien := true }
    ({ s.setNvc i { c1 with csts := 1 } with nv.sqs := s.nv.sqs ++ [sq], nv.cqs := s.nv.cqs ++ [cq] }).showQueues i

/-- CC_ENABLE (R334, R403): a write of CC whose EN goes from 0 to 1. -/
def execCcEnable (inst cc : Nat) (s : State) : Host.Outcome State Fault Refusal := whenSlices s <|
  match s.nvForward inst 0x14 cc with
  | some t => .next t
  | none => if s.isCtrl inst ∧ !(s.nvc inst).en ∧ bitOf cc 0 then .next (s.nvEnable inst (cc % 2 ^ 32)) else .next s

/-- Power On Hours. -/
def State.powerHours (s : State) : Nat := (s.nv.powerTicks + s.time.mono) / (3600 * ticksPerSec)

/-- A running short self-test that a Controller Level Reset aborts (R347). -/
def State.nvTestReset (s : State) (i : Nat) : State :=
  match s.nv.test with
  | some t =>
    if t.code = 1 ∧ t.inst = i then
      { (((s.setFld F.NVME_SELFTEST_KIND 0).setFld F.NVME_SELFTEST_PERCENT 0).setFld F.NVME_SELFTEST_SEGMENT 0) with
        nv.test := none, nv.tests := ((0x12, 0, t.nsid, s.powerHours) :: s.nv.tests).take 20 }
    else s
  | none => s

/-- Reopen a function's gate (R428): nothing resumes. -/
def State.openGate (s : State) (i : Nat) : State :=
  (((s.setFld (F.FN_GATE_CLOSED i) 0).setFld (F.FN_GATE_CAUSE i) 0).setFld (F.FN_STATUS_GATE_CLOSED i) 0).setFld (F.FN_STATUS_GATE_CAUSE i) 0

/-- CC.EN goes from 1 to 0 (R339, R347, R428). -/
def State.nvDisable (s : State) (i cc : Nat) : State :=
  let s1 := (s.nvStop i).nvTestReset i
  let c := s1.nvc i
  (s1.setNvc i { c with cc := cc, csts := 0 }).openGate i

/-- CC_DISABLE (R339, R428): a write of CC whose EN goes from 1 to 0. -/
def execCcDisable (inst cc : Nat) (s : State) : Host.Outcome State Fault Refusal := whenSlices s <|
  match s.nvForward inst 0x14 cc with
  | some t => .next t
  | none => if (s.nvc inst).en ∧ !bitOf cc 0 then .next (s.nvDisable inst (cc % 2 ^ 32)) else .next s

/-- A write of CC.SHN other than 0: the shutdown is complete at once, since every completed write is durable (R339, R340). -/
def State.nvShutdown (s : State) (i cc : Nat) : State :=
  let c := s.nvc i
  { s.setNvc i { c with cc := cc, csts := setBits c.csts 3 2 (if bitsOf cc 15 14 = 0 then 0 else 2), shutdown := c.shutdown || decide (bitsOf cc 15 14 ≠ 0) } with
    flash.shutAt := if s.ftState = 2 then some s.ftSec else none }

/-- CC_SHUTDOWN (R339). -/
def execCcShutdown (inst cc : Nat) (s : State) : Host.Outcome State Fault Refusal := whenSlices s <|
  match s.nvForward inst 0x14 cc with
  | some t => .next t
  | none => if s.isCtrl inst ∧ bitsOf cc 15 14 ≠ 0 ∧ (s.nvc inst).en = bitOf cc 0 then .next (s.nvShutdown inst (cc % 2 ^ 32)) else .next s

/-- APST_IDLE_TIMER (R344, R533): the idle timer has expired, and the controller moves to the state its table names. -/
def execApstIdleTimer (inst : Nat) (s : State) : Host.Outcome State Fault Refusal := whenSlices s <|
  let k := s.adminSlice inst
  if !s.twFired k (.apst inst) then .next s
  else
    let c := s.nvc inst
    let dest := (c.apstEntry c.ps).1
    let s1 := s.twCancel k (.apst inst)
    if 4 < dest then .next s1
    else .next ((s1.setNvc inst { c with ps := dest, lastOp := if c.ps < 3 then c.ps else c.lastOp }).nvArmApst inst)

end Sys2Proof.Machine
end

