-- ==== Sys2Proof/Machine/Zones.lean ====
section
/-!
DEFINITION. Namespaces and zones: trusted time, the Accession Log, zone states, encryption of namespace data, pieces and records (chapter 11:
R324, R325, R349 to R359; chapter 12: R372, R377 to R379), and the flash commands that touch namespaces.
-/

namespace Sys2Proof.Machine

/-! Trusted time (R353). -/

/-- Is Fabric Time trusted for retention? -/
def State.timeTrusted (s : State) : Bool :=
  let src := s.fld F.FT_STATUS_ACTIVE_SRC
  let m := s.fld F.FED_TIME_STATUS_FT_STATE
  decide (s.ftState = 2 ∨ s.ftState = 3) && (decide (src = 1 ∨ src = 2) || (decide (src = 3) && decide (m = 2 ∨ m = 3)))

/-- Show whether time is trusted; a trusted time raises ACC_TIME_FLOOR. -/
def State.seeTime (s : State) : State :=
  let s1 := s.setFld F.ACC_TIME_TRUSTED (b2n s.timeTrusted)
  if s.timeTrusted then s1.peakFld F.ACC_TIME_FLOOR s.ftSec else s1

/-- Has a retention time passed? No trusted time below ACC_TIME_FLOOR judges. -/
def State.retainPassed (s : State) (retain : Nat) : Bool :=
  s.timeTrusted && decide (s.fld F.ACC_TIME_FLOOR ≤ s.ftSec) && decide (retain ≤ s.ftSec)

/-- Fabric Time as 6 bytes of seconds and 6 bytes of fraction. -/
def ftBytes (v : Nat) : List Byte := leBytes 6 (v / 2 ^ 48) ++ leBytes 6 (v % 2 ^ 48)

/-! The Accession Log (R357). -/

def accOpen : Nat := 1
def accFinish : Nat := 2
def accReset : Nat := 3
def accRefused : Nat := 4
def accPass : Nat := 5
def accFail : Nat := 6
def accReadOnly : Nat := 7
def accOffline : Nat := 8

/-- Label of a namespace's XTS keys and of its seal key (R223). -/
def NsState.dataLabel (n : NsState) (nsid : Nat) : List Byte := contextLabel (leNat n.material) 0 3 nsid
def NsState.sealLabel (n : NsState) (nsid : Nat) : List Byte := contextLabel (leNat n.sealMaterial) 0 4 nsid

/-- The seal key as the log uses it; with the slot not LOADED no key can be derived, and the seal is left free. -/
def State.logKey (s : State) (nsid : Nat) (n : NsState) : List Byte :=
  if s.fld (F.ROOT_SLOT_STATE n.sealSlot) = slotLoaded then rennet (s.rootKey n.sealSlot) (n.sealLabel nsid) 2
  else (List.range 32).map (Config.random s.freeCtr)

/-- Add an entry to the Accession Log of a namespace. -/
def State.accAdd (s : State) (nsid z ev : Nat) : State :=
  match s.ns? nsid with
  | none => s
  | some n =>
    if !n.acc then s
    else
      let zn := n.zone z
      let body := leBytes 8 (ev + 2 ^ 8 * s.ftState + 2 ^ 16 * b2n s.timeTrusted) ++ leBytes 8 (z * zoneSize) ++ leBytes 4 zn.gen ++
        ftBytes s.ftNow ++ leBytes 6 zn.retain ++ leBytes 10 0
      let prev := match n.accLog.getLast? with
        | some e => slice e 48 16
        | none => List.replicate 16 0
      let entry := body ++ cmac (s.logKey nsid n) (prev ++ body)
      (s.draw).setNs nsid { n with accLog := n.accLog ++ [entry] }

/-! Zone states (ZNS). -/

def zEmpty : Nat := 1
def zImplicit : Nat := 2
def zExplicit : Nat := 3
def zClosed : Nat := 4
def zReadOnly : Nat := 13
def zFull : Nat := 14
def zOffline : Nat := 15

def zoneActive (st : Nat) : Bool := decide (st = zImplicit ∨ st = zExplicit ∨ st = zClosed)
def NsState.setZone (n : NsState) (z : Nat) (v : Zone) : NsState := { n with zones := Map.put (fun _ => {}) n.zones z v }
def State.putZone (s : State) (nsid z : Nat) (v : Zone) : State :=
  match s.ns? nsid with
  | some n => s.setNs nsid (n.setZone z v)
  | none => s
def State.zone (s : State) (nsid z : Nat) : Zone :=
  match s.ns? nsid with
  | some n => n.zone z
  | none => {}

def NsState.actives (n : NsState) : Nat := (n.zones.filter (fun e => zoneActive e.2.state)).length
def NsState.zoneCount (n : NsState) : Nat := n.nsze / zoneSize

/-- May one more zone of a namespace become active: 384 in a namespace, 4,096 in the subsystem (R332)? -/
def State.activeRoom (s : State) (n : NsState) : Bool :=
  decide (n.actives < 384) && decide ((s.nv.ns.map (fun e => e.2.actives)).sum < 4096)

/-- The slice of a zone that leaves Empty: the one with the most free bands, the lower on a tie (R372). -/
def State.pickSlice (s : State) : Nat := (leastBy (fun k => (65536 : Int) - s.freeBands k) s.dataSlices).getD 0

/-- The greatest retention: 20 years of 365.25 days (R349, R351). -/
def maxRetain : Nat := 631152000

/-- RETAIN_UNTIL of a zone that opens now (R351). -/
def State.retainOf (s : State) (n : NsState) (ext : Option (List Byte)) : Nat :=
  if !n.acc then 0
  else match ext with
    | some e => max s.ftSec (leAt e 0 6)
    | none => s.ftSec + n.retain

/-- A zone leaves Empty for state st (R351, R372). -/
def State.leaveEmpty (s : State) (nsid z st : Nat) (ext : Option (List Byte)) : State :=
  match s.ns? nsid with
  | none => s
  | some n =>
    let v : Zone := { n.zone z with state := st, wp := 0, ext := ext, openedAt := s.ftNow, retain := s.retainOf n ext, slice := s.pickSlice,
                                    seal0 := [], records := [] }
    (s.setNs nsid (n.setZone z v)).accAdd nsid z accOpen

/-- Why zone z takes no write now, if it takes none (ZNS). -/
def Zone.writeStop (v : Zone) : Option Nat :=
  if v.state = zFull then some nvZoneFull else if v.state = zReadOnly then some nvZoneReadOnly
  else if v.state = zOffline then some nvZoneOffline else none

/-- Blocks of records that are on their way into an Accession zone. -/
def State.pendingIn (s : State) (nsid z : Nat) : Nat :=
  ((s.nv.appends.filter (fun a => decide (a.nsid = nsid ∧ a.zone = z))).map (fun a => a.count)).sum

/-- Can count blocks go into zone z at its next position? The status that stops them otherwise. -/
def State.zoneTakes (s : State) (nsid z count : Nat) : Option Nat :=
  match s.ns? nsid with
  | none => some nvInvalidNs
  | some n =>
    let v := n.zone z
    match v.writeStop with
    | some st => some st
    | none =>
      if zoneCap < v.wp + s.pendingIn nsid z + count then some nvZoneBoundary
      else if v.state = zEmpty ∧ !s.activeRoom n then some nvTooManyActive
      else none

/-- Open a zone implicitly, if it is not open. -/
def State.implicitOpen (s : State) (nsid z : Nat) : State :=
  let v := s.zone nsid z
  if v.state = zEmpty then s.leaveEmpty nsid z zImplicit none
  else if v.state = zClosed then s.putZone nsid z { v with state := zImplicit }
  else s

/-- Move the write pointer; at the zone's capacity the zone is Full. -/
def State.advanceWp (s : State) (nsid z n : Nat) : State :=
  let v := s.zone nsid z
  s.putZone nsid z { v with wp := v.wp + n, state := if zoneCap ≤ v.wp + n then zFull else v.state }

/-- A zone's data goes: its map entries, buffered units and records (R342, R352). -/
def State.dropZoneData (s : State) (nsid z : Nat) : State :=
  let mine := fun (key : Nat) => decide (key / 2 ^ 40 = nsid ∧ key % 2 ^ 40 / zoneSize = z)
  { s with flash.map := s.flash.map.filter (fun e => !mine e.1), flash.mapLost := s.flash.mapLost.filter (fun e => !mine e),
           flash.mapDir := Map.erase s.flash.mapDir (nsid * 2 ^ 32 + 2 ^ 31 + z),
           flash.buf := s.flash.buf.map (fun l => l.filter (fun w => !decide (w.typ ≠ 1 ∧ w.typ ≠ 2 ∧ w.nsid = nsid ∧ w.unit / zoneSize = z))) }

/-- Reset a zone (R352): its generation advances. -/
def State.resetZone (s : State) (nsid z : Nat) : State :=
  let v := s.zone nsid z
  let s1 := (s.dropZoneData nsid z).putZone nsid z { gen := v.gen + 1 }
  (s1.accAdd nsid z accReset).showWbuf v.slice

/-- A zone leaves for Read Only or Offline because of its media (R357, R385): the controllers it is attached to learn of it. -/
def State.zoneFails (s : State) (nsid z st : Nat) : State :=
  let v := s.zone nsid z
  if v.state = st ∨ v.state = zOffline ∨ v.state = zEmpty then s
  else
    let s1 := (s.putZone nsid z { v with state := st }).accAdd nsid z (if st = zReadOnly then accReadOnly else accOffline)
    match s1.ns? nsid with
    | none => s1
    | some n => n.attached.foldl (fun t i =>
        let c := t.nvc i
        let t1 := t.setNvc i { c with changedZones := if c.changedZones.contains (nsid, z * zoneSize) then c.changedZones else c.changedZones ++ [(nsid, z * zoneSize)] }
        if bitOf (c.feat 0x0B) 27 then t1.nvEvent i 2 0xEF 0xBF else t1) s1

/-! Data of a namespace: encryption, units and pieces (R236, R373, R377, R378). -/

/-- Bytes of a logical block. -/
def NsState.bs (n : NsState) : Nat := if n.lbaf = 0 then 4096 else 512

/-- Encrypt or decrypt one 4 KiB unit: each logical block is a data unit numbered by its LBA (R236). -/
def NsState.xtsUnit (n : NsState) (dec : Bool) (key : List Byte) (u : Nat) (d : List Byte) : List Byte :=
  let k1 := key.take 32
  let k2 := slice key 32 32
  if n.lbaf = 0 then xts dec k1 k2 u d else ((List.range 8).map (fun i => xts dec k1 k2 (8 * u + i) (slice d (512 * i) 512))).flatten

/-- The first unit and the number of units that n bytes from byte b on touch. -/
def unitSpan (b n : Nat) : List Nat := (List.range ((b % 4096 + n + 4095) / 4096)).map (fun i => b / 4096 + i)

/-- Does a piece that is not yet committed hold part of a unit? -/
def State.pieceOn (s : State) (nsid u : Nat) : Bool :=
  s.flash.waiting.any (fun p => decide (p.nsid = nsid) && (p.units.any (fun e => decide (e.1 = u)) ||
    (match p.trim with | some (a, n) => decide (a ≤ u ∧ u < a + n) | none => false)))

/-- What making up whole units gives. -/
inductive MergeRes where
  | ok (units : List (Nat × List Byte))
  | wait
  | fail (status unit : Nat)
  deriving DecidableEq, Repr

/-- The ciphertext of the units that data from byte b on touches: a unit written in part is merged with the rest of it (R373). -/
def State.mergeUnits (s : State) (nsid : Nat) (n : NsState) (key : List Byte) (b : Nat) (data : List Byte) : List Nat → State × MergeRes
  | [] => (s, .ok [])
  | u :: us =>
    let lo := max b (4096 * u)
    let hi := min (b + data.length) (4096 * u + 4096)
    let part := slice data (lo - b) (hi - lo)
    let go := fun (t : State) (d : List Byte) =>
      match t.mergeUnits nsid n key b data us with
      | (t1, .ok l) => (t1, .ok ((u, d) :: l))
      | r => r
    if hi - lo = 4096 then go s (n.xtsUnit false key u part)
    else if s.pieceOn nsid u then (s, .wait)
    else
      let enc := n.xtsUnit false key u (splice (List.replicate 4096 0) (lo - 4096 * u) part)
      match s.readUnits nsid [u] with
      | (t, .wait) => (t, .wait)
      | (t, .fail st x) => (t, .fail st x)
      | (t, .ok l) =>
        match l with
        | [(_, some old)] => go (t.dropGot nsid [u]) (splice old (lo - 4096 * u) (slice enc (lo - 4096 * u) (hi - lo)))
        | _ => go t enc

/-- Cut units at the atomic boundaries of 256 KiB (R341). -/
def cutUnits (l : List (Nat × α)) : List (List (Nat × α)) :=
  match l.head?, l.getLast? with
  | some a, some z => ((List.range (z.1 / 64 - a.1 / 64 + 1)).map (fun i => l.filter (fun e => decide (e.1 / 64 = a.1 / 64 + i)))).filter (fun p => !p.isEmpty)
  | _, _ => []

/-- Give pieces to the write buffers' queue; the command, if one is named, waits for them (R377, R378). -/
def State.issuePieces (s : State) (cmd : Option Nat) (ps : List WPiece) : State :=
  ps.foldl (fun (t : State) p =>
    let id := t.nv.nextPiece
    let t1 : State := { t with nv.nextPiece := id + 1, flash.waiting := t.flash.waiting ++ [{ p with id := id }] }
    match cmd with
    | none => t1
    | some c => { t1 with nv.cmds := t1.nv.cmds.map (fun (x : NvCmd) => if x.id = c then { x with issued := true, pieces := x.pieces ++ [id] } else x) }) s

/-- Pieces of whole units, each in its slice. -/
def State.dataPieces (s : State) (nsid : Nat) (us : List (Nat × List Byte)) : List WPiece :=
  (cutUnits us).map (fun l => { id := 0, slice := s.unitSlice nsid ((l.headD (0, [])).1), nsid := nsid, units := l })

/-- Trim pieces over units a .. a + n - 1, cut at the atomic boundaries. -/
def State.trimPieces (s : State) (nsid a n : Nat) : List WPiece :=
  (cutUnits ((List.range n).map (fun i => (a + i, ())))).map (fun l =>
    let u := (l.headD (0, ())).1
    { id := 0, slice := s.unitSlice nsid u, nsid := nsid, trim := some (u, l.length) })

/-- Work for another slice than slice k crosses the spine (R372). -/
def State.spreadPieces (s : State) (k : Nat) (ps : List WPiece) : State := ps.foldl (fun t p => t.spineCross k p.slice) s

/-! Records of Accession zones, and captures (R354, R355, R359). -/

/-- The 64-byte header of a record (R354). -/
def State.recHeader (s : State) (a : ZApp) (first n : Nat) : List Byte :=
  leBytes 8 (a.zone * zoneSize) ++ leBytes 8 first ++ leBytes 4 a.count ++ leBytes 4 a.nsid ++ leBytes 8 n ++ ftBytes a.placedAt ++
  [BitVec.ofNat 8 a.ftState, BitVec.ofNat 8 (b2n a.capture.isSome), BitVec.ofNat 8 s.fedId] ++ leBytes 17 0

/-- The input of S_0 (R354). -/
def sealStart (nsid z : Nat) (v : Zone) : List Byte :=
  leBytes 8 (z * zoneSize) ++ leBytes 4 nsid ++ leBytes 4 v.gen ++ leBytes 6 v.retain ++ leBytes 6 0 ++ ftBytes v.openedAt ++ leBytes 24 0

/-- Take up a record for an Accession zone: it joins the records on their way, and its piece waits for admission. -/
def State.takeRecord (s : State) (k nsid z : Nat) (cmd capture frame : Option Nat) (key data : List Byte) : State :=
  let id := s.nv.nextPiece
  let v := s.zone nsid z
  let a : ZApp := { piece := id, nsid := nsid, zone := z, count := data.length / 4096, data := data, cmd := cmd, capture := capture,
                    slice := k, placedAt := s.ftNow, ftState := s.ftState, key := key }
  let p : WPiece := { id := id, slice := v.slice, nsid := nsid, append := true, frame := frame }
  ({ s with nv.nextPiece := id + 1, nv.appends := s.nv.appends ++ [a], flash.waiting := s.flash.waiting ++ [p] } : State).spineCross k v.slice

/-- A capture is dropped (R359): the handle's DROPS, NVME_CAPTURE_DROP and the event. -/
def State.captureDrop (s : State) (k h : Nat) : State :=
  ((s.catDrop h).incFld (F.NVME_CAPTURE_DROP k)).raise (F.NVME_INT_STATUS_CAPTURE_DROP_SEEN k) (R.NVME_INT_ENABLE k)

/-- The capture header (R358). -/
def State.captureHeader (s : State) (f : Frame) (h : Nat) : List Byte :=
  let ts := s.rxStamp f
  let m := match f.origin with
    | .eth k p => s.portNumber k p
    | _ => 0
  let kl := match f.origin with
    | .korrum _ _ => true
    | _ => false
  leBytes 16 (ts + 2 ^ 64 * (f.data.length % 2 ^ 14) + 2 ^ 78 * (m % 32) + 2 ^ 83 * b2n kl + 2 ^ 84 * b2n (decide (ts ≠ 0)) + 2 ^ 96 * (h % 2 ^ 21))

/-- A frame with STEER 4 becomes a record of the zone that its entry's TARGET names, or is dropped (R358, R359). The frame waits while the
namespace's key is derived. -/
def State.capture (s : State) (f : Frame) (r : CatRead) : State :=
  let target := bitsOf r.entry 79 48
  let nsid := bitsOf target 9 0 + 1
  let z := bitsOf target 29 13
  let d := (if bitOf target 11 then s.captureHeader f r.handle else []) ++ f.data
  let rcd := d ++ List.replicate ((4096 - d.length % 4096) % 4096) 0
  let count := rcd.length / 4096
  let k := f.slice
  let drop := fun (t : State) => ((t.incFld (F.NVME_CAPTURE_DROP k)).raise (F.NVME_INT_STATUS_CAPTURE_DROP_SEEN k) (R.NVME_INT_ENABLE k)).dropFrame f 0
  match s.ns? nsid with
  | none => drop s
  | some n =>
    if n.csi ≠ 2 ∨ n.zoneCount ≤ z ∨ s.mediaReadOnly then drop s
    else match s.zoneTakes nsid z count with
      | some _ => drop s
      | none =>
        match s.needKey k (2 ^ 42 + f.id) n.dataSlot (n.dataLabel nsid) with
        | (t, .wait) => t.setFrame { f with stage := .capture }
        | (t, .fail _) => drop t
        | (t, .ready key) =>
          match t.unitCipher k rcd.length with
          | .wait => t.setFrame { f with stage := .capture }
          | .fail _ t0 => drop t0
          | .ready t0 =>
            let t1 := (t0.implicitOpen nsid z).addFld (F.NVME_WRITE_BYTES k) rcd.length
            if n.acc then (t1.takeRecord k nsid z none (some r.handle) (some f.id) key rcd).setFrame { f with stage := .staging }
            else
              let v := t1.zone nsid z
              let u := z * zoneSize + v.wp
              let units := (List.range count).map (fun i => (u + i, n.xtsUnit false key (u + i) (slice rcd (4096 * i) 4096)))
              let ps := (t1.dataPieces nsid units).map (fun p => { p with frame := some f.id })
              ((((t1.spreadPieces k ps).issuePieces none ps).advanceWp nsid z count).incFld (F.NVME_CAPTURE_RECORDS k)).setFrame { f with stage := .staging }

/-- Give back the cells of a captured frame whose last piece has entered the buffer. -/
def State.freeCaptured (s : State) (p : WPiece) : State :=
  match p.frame with
  | none => s
  | some id =>
    if s.flash.waiting.any (fun q => decide (q.frame = some id)) then s
    else match s.frame? id with
      | some f => s.eraseFrame f
      | none => s

/-! Admission to the write buffer (R377, R378, R400). -/

/-- A piece that has entered the buffer is committed; under write-through its command waits for its program (R400). -/
def State.pieceIn (s : State) (p : WPiece) : State :=
  let through := decide (s.holdup = 3)
  { s with nv.cmds := s.nv.cmds.map (fun (c : NvCmd) =>
      if c.pieces.contains p.id then { c with pieces := c.pieces.erase p.id, unprog := if through then c.unprog ++ [p.id] else c.unprog } else c) }

/-- The codewords of an admitted piece. -/
def State.pieceUnits (s : State) (p : WPiece) : State :=
  match p.trim with
  | some (a, n) =>
    if s.zoned p.nsid ∧ !(a % 16 = 0 ∧ n % 16 = 0) then s.bufferUnits p.slice p.id p.nsid 6 ((List.range n).map (fun i => (a + i, 1, [])))
    else s.bufferUnits p.slice p.id p.nsid 6 [(a, n, [])]
  | none => s.bufferUnits p.slice p.id p.nsid 0 (p.units.map (fun e => (e.1, 1, e.2)))

/-- WRITE_BUFFER_ADMIT (R377, R378, R386, R400): the oldest waiting piece of a slice is admitted whole, if the limits allow it. -/
def execWriteBufferAdmit (slice : Nat) (s : State) : Host.Outcome State Fault Refusal := whenSlices s <|
  match takeFirst (fun (p : WPiece) => decide (p.slice = slice)) s.flash.waiting with
  | none => .next s
  | some (p, rest) =>
    if !s.admits p then .next s
    else
      let n := s.pieceBytes p
      let s1 : State := { s with flash.waiting := rest }
      let s2 : State :=
        if p.append then { s1 with nv.appends := s1.nv.appends.map (fun (a : ZApp) => if a.piece = p.id then { a with admitted := true } else a) }
        else (s1.pieceUnits p).pieceIn p
      .next (((s2.freeCaptured p).addFld (F.AFF_HOST_BYTES slice) (if p.trim.isSome then 0 else n)).showWbuf slice)

/-! Seals (R237, R354, R355). -/

/-- A record ends without being placed: its command fails with a device status, a capture is dropped. -/
def State.recordFails (s : State) (a : ZApp) (st : Nat) : State :=
  let s1 := ({ s with nv.appends := s.nv.appends.filter (fun (x : ZApp) => decide (x.piece ≠ a.piece)) } : State).showWbuf (s.zone a.nsid a.zone).slice
  match a.cmd, a.capture with
  | some id, _ => s1.nvEnd id (nvOfDev st true (a.zone * zoneSize))
  | none, some h => s1.captureDrop a.slice h
  | none, none => s1

/-- Place a sealed record at the write pointer: its units enter the buffer with it (R355). -/
def State.placeRecord (s : State) (a : ZApp) (sealKey : List Byte) : State :=
  match s.ns? a.nsid with
  | none => s.recordFails a St.SUCCESS
  | some n =>
    let v := n.zone a.zone
    let first := a.zone * zoneSize + v.wp
    let s0 := if v.seal0.isEmpty then cmac sealKey (sealStart a.nsid a.zone v) else v.seal0
    let prev := match v.records.getLast? with
      | some r => r.sealTag
      | none => s0
    let hdr := s.recHeader a first (v.records.length + 1)
    let tag := cmac sealKey (prev ++ hdr ++ a.data)
    let units := (List.range a.count).map (fun i => (first + i, 1, n.xtsUnit false a.key (first + i) (slice a.data (4096 * i) 4096)))
    let s1 := s.putZone a.nsid a.zone { v with seal0 := s0, records := v.records ++ [⟨first, a.count, hdr, tag⟩] }
    let s2 := (s1.bufferUnits v.slice a.piece a.nsid 0 units).advanceWp a.nsid a.zone a.count
    let s3 : State := { s2 with nv.appends := s2.nv.appends.filter (fun (x : ZApp) => decide (x.piece ≠ a.piece)) }
    let s4 := (s3.incFld F.ACC_SEALS).showWbuf v.slice
    match a.cmd with
    | none => if a.capture.isSome then s4.incFld (F.NVME_CAPTURE_RECORDS a.slice) else s4
    | some id =>
      let through := decide (s.holdup = 3)
      let s5 : State := { s4 with nv.cmds := s4.nv.cmds.map (fun (c : NvCmd) => if c.id = id ∧ through then { c with unprog := c.unprog ++ [a.piece] } else c) }
      s5.nvEnd id { status := 0, dw0 := first % 2 ^ 32, dw1 := first / 2 ^ 32 }

/-- SEAL_COMPUTE (R237, R354, R355, R362): the seal of the oldest record on its way into a zone is computed, its predecessor's being done; a
cipher alarm fails it. -/
def execSealCompute (nsid zone : Nat) (alarm : Bool) (s : State) : Host.Outcome State Fault Refusal := whenSlices s <|
  match s.nv.appends.find? (fun a => decide (a.nsid = nsid ∧ a.zone = zone)), s.ns? nsid with
  | some a, some n =>
    if !a.admitted then .next s
    else match s.needKey a.slice (2 ^ 41 + a.piece) n.sealSlot (n.sealLabel nsid) with
      | (t, .wait) => .next t
      | (t, .fail st) => .next (t.recordFails a st)
      | (t, .ready key) =>
        let l := (List.range 10).filter (fun x => decide (t.pairState a.slice x = pairOnline))
        if alarm then
          let t1 := (t.draw).pairMismatch a.slice (t.pickPair l)
          .next ((t1.raise (F.NVME_INT_STATUS_SEAL_FAIL_SEEN a.slice) (R.NVME_INT_ENABLE a.slice)).recordFails a St.CIPHER_CHECK_FAIL)
        else match t.unitCipher a.slice (80 + 4096 * a.count) with
          | .wait => .next t
          | .fail st t1 => .next (t1.recordFails a st)
          | .ready t1 => .next (t1.placeRecord a key)
  | _, _ => .next s

/-! Flash commands that touch namespaces (R369, R371, R383 to R385, R392, R394, R400). -/

/-- Does a zone's last segment go to flash as it stands: nothing more will be written to the zone? -/
def State.zoneDone (s : State) (nsid z : Nat) : Bool :=
  let st := (s.zone nsid z).state
  decide (st = zFull ∨ st = zReadOnly ∨ st = zOffline)

/-- Is an operation in progress on die x of slice k: the program that its open band writes next, or the erase of a block that may be erased (R381)? -/
def State.dieBusy (s : State) (k x : Nat) : Bool :=
  (match s.flash.bands.find? (fun b => decide (b.slice = k) && b.isOpen) with
   | some b => decide (b.member.1 = x) && !(s.nextPage k s.zoneDone).isEmpty
   | none => false) ||
  s.flash.bands.any (fun b => decide (b.slice = k) && b.members.any (fun m => decide (m.1 = x)) && s.erasable k b)

/-- Suspensions of the operation in progress on a die. -/
def State.suspends (s : State) (k x : Nat) : Nat :=
  ((s.flash.suspended.find? (fun e => decide (e.1 = k ∧ e.2.1 = x))).map (fun e => e.2.2)).getD 0

/-- Does patrol run in slice k: in a window, outside one when the pass has not finished by twice its period, and in the 24 hours after a start (R390,
R392)? -/
def State.patrolRuns (s : State) (k : Nat) : Bool :=
  decide (s.ftSec < s.flash.winUntil.getD k 0) ||
  decide (s.flash.patrolAt.getD k 0 + 2 * (max 1 (s.fld (F.AFF_PATROL_DAYS k)) * 86400) ≤ s.ftSec) ||
  decide (s.time.mono < s.flash.startAt + ticks24h)

/-- May a read run now: a host or map read unless its die's operation has been suspended 8 times, a patrol read in its time (R381, R392)? -/
def State.readRuns (s : State) (r : FlashRead) : Bool := match r.use with
  | .move => true
  | .patrol => s.patrolRuns r.slice
  | _ => !(decide (8 ≤ s.suspends r.slice (locDie r.loc)) && s.dieBusy r.slice (locDie r.loc))

/-- The read that slice k serves next: host and map reads before moves and patrol, the oldest first (R381). -/
def State.nextRead (s : State) (k : Nat) : Option (FlashRead × List FlashRead) :=
  match takeFirst (fun (r : FlashRead) => decide (r.slice = k) && decide (r.use = .host ∨ r.use = .mapPage) && s.readRuns r) s.flash.reads with
  | some r => some r
  | none => takeFirst (fun (r : FlashRead) => decide (r.slice = k) && s.readRuns r) s.flash.reads

/-- A host or map read suspends the operation that it finds on its die (R381). -/
def State.suspendFor (s : State) (r : FlashRead) : State :=
  let x := locDie r.loc
  if (r.use = .host ∨ r.use = .mapPage) ∧ s.dieBusy r.slice x then
    { s with flash.suspended := (r.slice, x, s.suspends r.slice x + 1) :: (s.dieFree r.slice x).flash.suspended }.incFld (F.AFF_SUSPENDS r.slice)
  else s

/-- A unit cannot be recovered (R385). -/
def State.unrecovered (s : State) (r : FlashRead) : State :=
  let k := r.slice
  let s1 := (s.incFld (F.AFF_UNRECOVERED k)).raise (F.AFF_INT_STATUS_UNRECOVERED_SEEN k) (R.AFF_INT_ENABLE k)
  let s2 : State := { s1 with flash.cells := Map.erase s1.flash.cells (cellKey k r.loc) }
  match r.use with
  | .mapPage =>
    let s3 := s2.losePage (s2.mapPage r.nsid r.unit)
    if s3.zoned r.nsid then s3.zoneFails r.nsid (r.unit / zoneSize) zOffline else s3
  | .host => { (if s2.zoned r.nsid then s2.zoneFails r.nsid (r.unit / zoneSize) zReadOnly else s2) with
               flash.got := s2.flash.got ++ [(k, r.loc, St.MEDIA_UNRECOVERED)] }
  | .move => if s2.zoned r.nsid then s2.zoneFails r.nsid (r.unit / zoneSize) zReadOnly else s2
  | .patrol =>
    let s3 := if s2.zoned r.nsid then s2.zoneFails r.nsid (r.unit / zoneSize) zReadOnly else s2
    s3.patrolDone k r.loc

/-- A read of flash completes: `stage` is the first stage of the ladder that succeeds, if one (R383 to R385). -/
def State.readDone (s : State) (k : Nat) (r : FlashRead) (rest : List FlashRead) (stage : Option Nat) (bits : Nat) : State :=
  let x := locDie r.loc
  let b := locBlk r.loc
  let s1 : State := { s.suspendFor r with flash.reads := rest }
  let s2 := (s1.flashBytes k x 4648).setBlk k x b { s1.blk k x b with reads := (s1.blk k x b).reads + 1 }
  match s2.forcedStage k r.loc stage with
  | none => s2.unrecovered r
  | some st =>
    let s3 := s2.ladderDone k r.loc st bits
    match r.use with
    | .host => { s3 with flash.got := s3.flash.got ++ [(k, r.loc, 0)] }
    | .mapPage => s3.cachePage k (s3.mapPage r.nsid r.unit)
    | .patrol => s3.patrolDone k r.loc
    | .move =>
      let gc := match s3.bandOf k x b with
        | some bd => decide (bd.moving = 1)
        | none => false
      let s4 := s3.relocate k r.nsid r.unit r.loc
      if gc then s4.addFld (F.AFF_GC_BYTES k) 4096 else s4

/-- FLASH_READ_DONE (R34, R368, R379, R383 to R385, R391): the read that its slice serves next completes; `stage` is the first stage of the ladder
that succeeds, and `bits` what a stage 0 decode corrected. The read holds a tag. -/
def execFlashReadDone (slice : Nat) (stage : Option Nat) (bits : Nat) (s : State) : Host.Outcome State Fault Refusal := whenSlices s <|
  match s.nextRead slice with
  | none => .next s
  | some (r, rest) =>
    if s.flash.saving then .next s
    else .next (s.withTag slice flashReadOp (s.unitClass 22) (fun t => t.readDone slice r rest stage bits))

/-- A member page of the open band b is programmed, with status ok or not (R379, R394). -/
def State.programDone (s : State) (slice : Nat) (b : Band) (page : List WUnit) (ok : Bool) : State :=
  if ok then s.programmed slice b page
  else
    let s2 := s.programFailed slice b
    if s2.holdup = 3 ∧ (s2.useBand slice).2.isNone then
      let ids := (s2.nv.cmds.filter (fun c => !c.unprog.isEmpty)).map (fun c => c.id)
      let s3 : State := { s2 with nv.cmds := s2.nv.cmds.map (fun (c : NvCmd) => { c with unprog := [] }) }
      ids.foldl (fun t id => t.nvEnd id (nvOfDev St.MEDIA_WRITE_FAULT true 0)) s3
    else s2

/-- FLASH_PROGRAM_DONE (R34, R369, R371, R379, R394, R400, R405): a member page of the open band is programmed, with status ok or not. When a
program fails under write-through and no band can take the data, the commands that wait for it fail. -/
def execFlashProgramDone (slice : Nat) (ok : Bool) (s : State) : Host.Outcome State Fault Refusal := whenSlices s <|
  let page := s.nextPage slice s.zoneDone
  if 4 ≤ slice ∨ s.flash.saving ∨ page.isEmpty then .next s
  else match s.useBand slice with
    | (_, none) => .next s
    | (s1, some b) => .next (s1.withTag slice flashProgramOp (s1.unitClass 22) (fun t => (t.dieFree slice b.member.1).programDone slice b page ok))

/-! Maintenance windows (R387, R392). -/

/-- Start a patrol pass of slice k: every written codeword is read. -/
def State.startPatrol (s : State) (k : Nat) : State :=
  let cells := s.flash.cells.filter (fun e => decide (e.1 / 2 ^ 33 = k))
  let locs := cells.map (fun e => e.1 % 2 ^ 33)
  let reads := cells.map (fun e => ({ slice := k, loc := e.1 % 2 ^ 33, nsid := e.2.nsid, unit := e.2.tag, use := .patrol } : FlashRead))
  let s1 : State := { s with flash.patrol := s.flash.patrol.set k locs, flash.patrolAt := s.flash.patrolAt.set k s.ftSec, flash.reads := s.flash.reads ++ reads }
  if locs.isEmpty then s1.setFld (F.AFF_PATROL_PASS k) s.ftSec else s1

/-- Wear levelling (R387): the data of the least worn block moves when the spread exceeds AFF_WL_DELTA. -/
def State.levelWear (s : State) (k : Nat) : State :=
  let used := s.flash.bands.filter (fun b => decide (b.slice = k) && !b.isOpen)
  let blks := (used.map (fun b => b.members)).flatten
  match leastBy (fun (m : Nat × Nat) => ((s.blk k m.1 m.2).pe : Int)) blks with
  | none => s
  | some m =>
    if s.fld (F.AFF_PE_MAX k) ≤ (s.blk k m.1 m.2).pe + s.fld (F.AFF_WL_DELTA k) then s
    else
      let mv := s.validIn k (fun l => decide (locDie l = m.1 ∧ locBlk l = m.2))
      if mv.isEmpty then s else (s.queueMoves k mv).incFld (F.AFF_WL_MOVES k)

/-- Arm the next maintenance window of slice k: AFF_WIN_START seconds after the next day boundary of Fabric Time (R392). -/
def State.armWindow (s : State) (k : Nat) : State :=
  let s1 := s.twCancel k .window
  if s.fld F.AFF_WIN_LEN = 0 then s1
  else
    let day := s.ftSec / 86400 * 86400 + s.fld F.AFF_WIN_START
    s1.twInsert k true ((if s.ftSec < day then day else day + 86400) * 2 ^ 48) .window

/-- MAINTENANCE_WINDOW (R382, R387, R392): the window's timer entry has expired: it is open for AFF_WIN_LEN seconds, a patrol pass begins when one is due, wear
is levelled, and the next window is armed. A pass that is overdue by its whole period begins without a window. -/
def execMaintenanceWindow (slice : Nat) (s : State) : Host.Outcome State Fault Refusal := whenSlices s <|
  let days := max 1 (s.fld (F.AFF_PATROL_DAYS slice))
  let idle := (s.flash.patrol.getD slice []).isEmpty
  if 4 ≤ slice then .next s
  else if !s.twFired slice .window then
    if idle ∧ s.flash.patrolAt.getD slice 0 + 2 * (days * 86400) ≤ s.ftSec then .next (s.startPatrol slice) else .next s
  else
    let s1 := s.armWindow slice
    let due := idle && decide (s1.flash.patrolAt.getD slice 0 + days * 86400 ≤ s1.ftSec ∨ s1.fld (F.AFF_PATROL_PASS slice) = 0)
    let s2 : State := { s1 with flash.winUntil := s1.flash.winUntil.set slice (s1.ftSec + s1.fld F.AFF_WIN_LEN) }
    .next ((if due then s2.startPatrol slice else s2).levelWear slice)

/-- ACC_TIME_FLOOR_WRITE (R353, R499): the durable copy of ACC_TIME_FLOOR is written, at most once every 3,600 s. -/
def execAccTimeFloorWrite (s : State) : Host.Outcome State Fault Refusal := whenSlices s <|
  let due : Bool := match s.boot.accWritten with
    | some t => decide (t + 3600 * ticksPerSec ≤ s.time.mono)
    | none => true
  let s1 := s.seeTime
  if due then .next { s1 with boot.accFloor := s1.fld F.ACC_TIME_FLOOR, boot.accWritten := some s1.time.mono } else .next s1

end Sys2Proof.Machine
end

