-- ==== Sys2Proof/Machine/NvIo.lean ====
section
/-!
DEFINITION. The NVMe I/O commands (chapter 11: R328, R340, R341, R344, R350 to R356; chapter 12: R372, R373, R377 to R379). A command that must wait
for host data, a key, staging cells or a flash read leaves the state as far as it came and goes on when it is sent again.
-/

namespace Sys2Proof.Machine

/-- MDTS: 512 KiB (R331); the Zone Append limit: 256 KiB (R332). -/
def mdtsBytes : Nat := 0x80000
def zaslBytes : Nat := 0x40000

/-- Run f once the command's staging cells for n bytes are granted. -/
def State.nvStaged (s : State) (c : NvCmd) (n : Nat) (f : State → NvCmd → State × NvRes) : State × NvRes :=
  match s.nvCells c n with
  | (t, true) => f t (t.cmdNow c)
  | (t, false) => (t, .wait)

/-- Run f with n bytes of the command's buffer. -/
def State.nvWithData (s : State) (c : NvCmd) (n : Nat) (f : State → NvCmd → List Byte → State × NvRes) : State × NvRes :=
  match s.nvFetch c n with
  | (t, .ok d) => f t (t.cmdNow c) d
  | (t, .wait) => (t, .wait)
  | (t, .err e) => (t, .done e)

/-- Run f with the XTS keys of a namespace. -/
def State.nvWithKey (s : State) (c : NvCmd) (n : NsState) (write : Bool) (f : State → List Byte → State × NvRes) : State × NvRes :=
  match s.needKey c.slice (2 ^ 40 + c.id) n.dataSlot (n.dataLabel c.nsid) with
  | (t, .ready key) => f t key
  | (t, .wait) => (t, .wait)
  | (t, .fail st) => (t, .done (nvOfDev st write c.slba))

/-- Count a command's data for SMART (R360). -/
def State.countHost (s : State) (i : Nat) (write : Bool) (n : Nat) : State :=
  let c := s.nvc i
  s.setNvc i (if write then { c with writeBlocks := c.writeBlocks + (n + 511) / 512, hostWrites := c.hostWrites + 1 }
              else { c with readBlocks := c.readBlocks + (n + 511) / 512, hostReads := c.hostReads + 1 })

/-- Read units; an attempt that must wait counts no map hit. -/
def State.readFor (s : State) (nsid : Nat) (us : List Nat) : State × UnitsRes :=
  match s.readUnits nsid us with
  | (t, .wait) => ((List.range 4).foldl (fun v k => v.setFld (F.AFF_MAP_HITS k) (s.fld (F.AFF_MAP_HITS k))) t, .wait)
  | r => r

/-- The plaintext of n bytes from byte b of a namespace, as its newest committed data (R379). -/
def State.nvPlain (s : State) (c : NvCmd) (n : NsState) (b len : Nat) (f : State → List Byte → State × NvRes) : State × NvRes :=
  let us := unitSpan b len
  match s.readFor c.nsid us with
  | (t, .wait) => (t, .wait)
  | (t, .fail st u) => (t.dropGot c.nsid us, .done (nvOfDev st false (max c.slba (u * 4096 / n.bs))))
  | (t, .ok l) =>
    let t1 := t.dropGot c.nsid us
    let give := fun (v : State) (key : List Byte) =>
      let d := (l.map (fun e => match e.2 with
        | some x => n.xtsUnit true key e.1 x
        | none => List.replicate 4096 0)).flatten
      f v (slice d (b % 4096) len)
    if l.any (fun e => e.2.isSome) then
      match t.needKey c.slice (2 ^ 40 + c.id) n.dataSlot (n.dataLabel c.nsid) with
      | (v, .ready key) =>
        (match v.unitCipher c.slice len with
         | .ready v1 => give (v1.dropGot c.nsid us) key
         | .wait => (v, .wait)
         | .fail st v1 => (v1.dropGot c.nsid us, .done (nvOfDev st false c.slba)))
      | (v, .wait) => (v, .wait)
      | (v, .fail st) => (v.dropGot c.nsid us, .done (nvOfDev st false c.slba))
    else give t1 []

/-- What stops a command on nlb blocks from slba for its range (R332, ZNS). -/
def NsState.rangeStop (n : NsState) (slba nlb : Nat) : Option Nat :=
  if n.nsze < slba + nlb then some nvLbaRange
  else if n.csi = 2 ∧ slba / zoneSize ≠ (slba + nlb - 1) / zoneSize then some nvZoneBoundary
  else none

/-- What stops a sequential write in a zone (ZNS). -/
def State.seqStop (s : State) (nsid slba nlb : Nat) : Option Nat :=
  let z := slba / zoneSize
  match (s.zone nsid z).writeStop with
  | some st => some st
  | none => if slba ≠ z * zoneSize + (s.zone nsid z).wp then some nvZoneInvalidWrite else s.zoneTakes nsid z nlb

/-- What stops any command that writes to media (R350, R389). -/
def State.mediaStop (s : State) (c : NvCmd) : Option NvDone :=
  if s.mediaReadOnly then some (nvOfDev St.MEDIA_READ_ONLY true c.slba) else none

/-- An I/O command on its namespace. -/
def State.nvIo (s : State) (i q cid : Nat) (op : Nat) (f : State → NvCmd → NsState → State × NvRes) : State :=
  s.nvRun i q cid [op] (fun t c => if q = 0 then (t, .wait) else match t.ns? c.nsid with
    | some n => f t c n
    | none => (t, .done (nvFail nvInvalidNs)))

/-- An Accession namespace refuses the command (R350). -/
def State.accDeny (s : State) (c : NvCmd) : State × NvRes := (s.incFld (F.ACC_DENIED c.slice), .done nvRefused)

/-- FLUSH (R340): every completed write is durable at once. -/
def execFlush (inst sq cid : Nat) (s : State) : Host.Outcome State Fault Refusal := whenSlices s <|
  .next (s.nvRun inst sq cid [0x00] (fun t _ => if sq = 0 then (t, .wait) else (t, .done nvOk)))

/-- Write (R324, R331, R340, R341, R373). -/
def State.nvWrite (s : State) (c : NvCmd) (n : NsState) : State × NvRes :=
  let len := c.nlb * n.bs
  let b := c.slba * n.bs
  if n.acc then s.accDeny c
  else match s.mediaStop c, n.rangeStop c.slba c.nlb with
    | some d, _ => (s, .done d)
    | none, some st => (s, .done (nvFail st))
    | none, none =>
      if mdtsBytes < len then (s, .done (nvFail nvInvalidField))
      else match (if n.csi = 2 then s.seqStop c.nsid c.slba c.nlb else none) with
        | some st => (s, .done (nvFail st))
        | none =>
          s.nvStaged c len (fun t1 c1 => t1.nvWithData c1 len (fun t2 c2 d => t2.nvWithKey c2 n true (fun t3 key =>
            match t3.mergeUnits c.nsid n key b d (unitSpan b len) with
            | (t4, .wait) => (t4, .wait)
            | (t4, .fail st u) => (t4, .done (nvOfDev st true (max c.slba (u * 4096 / n.bs))))
            | (t4, .ok us) =>
              match t4.unitCipher c.slice len with
              | .wait => (t4, .wait)
              | .fail st t5 => (t5, .done (nvOfDev st true c.slba))
              | .ready t5 =>
                let t6 := if n.csi = 2 then t5.implicitOpen c.nsid (c.slba / zoneSize) else t5
                let ps := t6.dataPieces c.nsid us
                let t7 := (t6.spreadPieces c.slice ps).issuePieces (some c.id) ps
                let t8 := if n.csi = 2 then t7.advanceWp c.nsid (c.slba / zoneSize) c.nlb else t7
                ((t8.addFld (F.NVME_WRITE_BYTES c.slice) len).countHost c.inst true len, .done nvOk))))

/-- NVME_WRITE (R340): the command's completion waits until its pieces are in the protected buffer. -/
def execNvmeWrite (inst sq cid : Nat) (s : State) : Host.Outcome State Fault Refusal := whenSlices s <| .next (s.nvIo inst sq cid 0x01 State.nvWrite)

/-- Read (R331, R379, R385, R405). -/
def State.nvRead (s : State) (c : NvCmd) (n : NsState) : State × NvRes :=
  let len := c.nlb * n.bs
  match n.rangeStop c.slba c.nlb with
  | some st => (s, .done (nvFail st))
  | none =>
    if mdtsBytes < len then (s, .done (nvFail nvInvalidField))
    else if n.csi = 2 ∧ (n.zone (c.slba / zoneSize)).state = zOffline then (s, .done (nvFail nvZoneOffline))
    else s.nvStaged c len (fun t1 c1 =>
      let send := fun (t : State) (d : List Byte) =>
        match t.nvSend (t.cmdNow c1) d nvOk with
        | (t2, .done e) => (if e.status = 0 then (t2.addFld (F.NVME_READ_BYTES c.slice) len).countHost c.inst false len else t2, .done e)
        | r => r
      match c1.data with
      | some d => send t1 d
      | none => t1.nvPlain c1 n (c.slba * n.bs) len (fun t2 d => send (t2.setCmd { t2.cmdNow c1 with data := some d }) d))

/-- NVME_READ (R379). -/
def execNvmeRead (inst sq cid : Nat) (s : State) : Host.Outcome State Fault Refusal := whenSlices s <| .next (s.nvIo inst sq cid 0x02 State.nvRead)

/-- Write Zeroes (R377): whole units enter the buffer as trim records; what is less is written as zeros. -/
def State.nvZeroes (s : State) (c : NvCmd) (n : NsState) : State × NvRes :=
  let b := c.slba * n.bs
  let e := (c.slba + c.nlb) * n.bs
  let first := (b + 4095) / 4096
  let last := e / 4096
  if n.acc then s.accDeny c
  else match s.mediaStop c, n.rangeStop c.slba c.nlb with
    | some d, _ => (s, .done d)
    | none, some st => (s, .done (nvFail st))
    | none, none =>
      match (if n.csi = 2 then s.seqStop c.nsid c.slba c.nlb else none) with
      | some st => (s, .done (nvFail st))
      | none =>
        let parts := if last < first then [(b, e - b)] else [(b, 4096 * first - b), (4096 * last, e - 4096 * last)].filter (fun x => decide (x.2 ≠ 0))
        let finish := fun (t : State) (extra : List WPiece) =>
          let t1 := if n.csi = 2 then t.implicitOpen c.nsid (c.slba / zoneSize) else t
          let ps := extra ++ (if first < last then t1.trimPieces c.nsid first (last - first) else [])
          let t2 := (t1.spreadPieces c.slice ps).issuePieces (some c.id) ps
          ((if n.csi = 2 then t2.advanceWp c.nsid (c.slba / zoneSize) c.nlb else t2).countHost c.inst true 0, NvRes.done nvOk)
        match parts with
        | [] => finish s []
        | _ => s.nvWithKey c n true (fun t key =>
            let r := parts.foldl (fun (acc : State × MergeRes) p =>
              match acc.2 with
              | .ok l => (match acc.1.mergeUnits c.nsid n key p.1 (List.replicate p.2 0) (unitSpan p.1 p.2) with
                | (v, .ok m) => (v, MergeRes.ok (l ++ m))
                | x => x)
              | _ => acc) (t, .ok [])
            match r with
            | (v, .wait) => (v, .wait)
            | (v, .fail st u) => (v, .done (nvOfDev st true (max c.slba (u * 4096 / n.bs))))
            | (v, .ok us) => finish v (us.map (fun x => { id := 0, slice := v.unitSlice c.nsid x.1, nsid := c.nsid, units := [x] })))

/-- WRITE_ZEROES (R340, R377). -/
def execWriteZeroes (inst sq cid : Nat) (s : State) : Host.Outcome State Fault Refusal := whenSlices s <| .next (s.nvIo inst sq cid 0x08 State.nvZeroes)

/-- The whole units of a range that can be deallocated: in a zoned namespace, whole segments that have been written (R375, R377). -/
def State.trimRange (s : State) (nsid : Nat) (n : NsState) (slba nlb : Nat) : List WPiece :=
  let first := (slba * n.bs + 4095) / 4096
  let last := (slba + nlb) * n.bs / 4096
  if n.csi ≠ 2 then (if first < last then s.trimPieces nsid first (last - first) else [])
  else ((List.range (last / 16 + 1 - first / 16)).map (fun i => first / 16 + i)).filterMap (fun g =>
    let u := 16 * g
    let v := n.zone (u / zoneSize)
    if first ≤ u ∧ u + 16 ≤ last ∧ u % zoneSize + 16 ≤ v.wp then
      some { id := 0, slice := s.unitSlice nsid u, nsid := nsid, trim := some (u, 16) }
    else none)

/-- Dataset Management (R328, R350, R377): deallocation, which other attributes do not ask for. -/
def State.nvDataset (s : State) (c : NvCmd) (n : NsState) : State × NvRes :=
  if n.acc then s.accDeny c
  else
    let nr := bitsOf (c.dw 10) 7 0 + 1
    s.nvWithData c (16 * nr) (fun t c1 d =>
      let rs := (List.range nr).map (fun i => (leAt d (16 * i + 8) 8, leAt d (16 * i + 4) 4))
      if rs.any (fun r => decide (n.nsze < r.1 + r.2)) then (t, .done (nvFail nvLbaRange))
      else if !bitOf (c1.dw 11) 2 then (t, .done nvOk)
      else
        let ps := (rs.map (fun r => t.trimRange c.nsid n r.1 r.2)).flatten
        ((t.spreadPieces c.slice ps).issuePieces (some c.id) ps, .done nvOk))

/-- DATASET_MANAGEMENT (R377). -/
def execDatasetManagement (inst sq cid : Nat) (s : State) : Host.Outcome State Fault Refusal := whenSlices s <| .next (s.nvIo inst sq cid 0x09 State.nvDataset)

/-! Verify and the seal chain (R356). -/

/-- Recompute the seals of a zone's records over plaintext `d` of the zone from its start; the first LBA of the first record whose seal differs. -/
def chainBreak (sealKey d : List Byte) (z : Nat) : List ZRec → List Byte → Option Nat
  | [], _ => none
  | r :: rs, prev =>
    let tag := cmac sealKey (prev ++ r.header ++ slice d (4096 * (r.first - z * zoneSize)) (4096 * r.count))
    if tag = r.sealTag then chainBreak sealKey d z rs tag else some r.first

/-- Recompute the chains of zones; the first break. Fails or waits as reading does. -/
def State.verifyZones (s : State) (c : NvCmd) (n : NsState) (sealKey : List Byte) : List Nat → State × NvRes
  | [] => (s.incFld F.ACC_VERIFY_PASS, .done nvOk)
  | z :: zs =>
    let v := n.zone z
    s.nvPlain c n (4096 * z * zoneSize) (4096 * v.wp) (fun t d =>
      match (if v.records.isEmpty then none else
              if v.seal0 ≠ cmac sealKey (sealStart c.nsid z v) then some (z * zoneSize) else chainBreak sealKey d z v.records v.seal0) with
      | some lba =>
        let t1 := ((t.satFld F.ACC_VERIFY_FAIL 1).raise F.NVME_HUB_INT_STATUS_VERIFY_FAIL_SEEN R.NVME_HUB_INT_ENABLE).accAdd c.nsid z accFail
        (t1, .done (nvOfDev St.SEAL_CHAIN_BROKEN false lba))
      | none =>
        match t.verifyZones c n sealKey zs with
        | (t1, .done e) => (if e.status = 0 then t1.accAdd c.nsid z accPass else t1, .done e)
        | r => r)

/-- Verify (R328, R356): the range is read and decoded; on an Accession namespace every chain it touches is recomputed. -/
def State.nvVerify (s : State) (c : NvCmd) (n : NsState) : State × NvRes :=
  match n.rangeStop c.slba c.nlb with
  | some st => (s, .done (nvFail st))
  | none =>
    s.nvPlain c n (c.slba * n.bs) (c.nlb * n.bs) (fun t _ =>
      if !n.acc then (t, .done nvOk)
      else match t.needKey c.slice (2 ^ 43 + c.id) n.sealSlot (n.sealLabel c.nsid) with
        | (t1, .wait) => (t1, .wait)
        | (t1, .fail st) => (t1, .done (nvOfDev st false c.slba))
        | (t1, .ready key) => t1.verifyZones c n key [c.slba / zoneSize])

/-- VERIFY (R356). -/
def execVerify (inst sq cid : Nat) (s : State) : Host.Outcome State Fault Refusal := whenSlices s <| .next (s.nvIo inst sq cid 0x0C State.nvVerify)

/-! Zone Append and Accession Read (R355). -/

/-- Zone Append (R332, R355). -/
def State.nvAppend (s : State) (c : NvCmd) (n : NsState) : State × NvRes :=
  let len := 4096 * c.nlb
  let z := c.slba / zoneSize
  match s.mediaStop c with
  | some d => (s, .done d)
  | none =>
    if n.nsze ≤ c.slba then (s, .done (nvFail nvLbaRange))
    else if c.slba % zoneSize ≠ 0 ∨ zaslBytes < len then (s, .done (nvFail nvInvalidField))
    else match s.zoneTakes c.nsid z c.nlb with
      | some st => (s, .done (nvFail st))
      | none =>
        s.nvStaged c len (fun t1 c1 => t1.nvWithData c1 len (fun t2 c2 d => t2.nvWithKey c2 n true (fun t3 key =>
          match t3.unitCipher c.slice len with
          | .wait => (t3, .wait)
          | .fail st t4 => (t4, .done (nvOfDev st true c.slba))
          | .ready t4 =>
            let t5 := ((t4.implicitOpen c.nsid z).addFld (F.NVME_WRITE_BYTES c.slice) len).countHost c.inst true len
            if n.acc then
              let t6 := t5.takeRecord c.slice c.nsid z (some c.id) none none key d
              (t6.setCmd { t6.cmdNow c2 with issued := true }, .wait)
            else
              let u := z * zoneSize + (t5.zone c.nsid z).wp
              let us := (List.range c.nlb).map (fun i => (u + i, n.xtsUnit false key (u + i) (slice d (4096 * i) 4096)))
              let ps := t5.dataPieces c.nsid us
              (((t5.spreadPieces c.slice ps).issuePieces (some c.id) ps).advanceWp c.nsid z c.nlb,
                .done { status := 0, dw0 := u % 2 ^ 32, dw1 := u / 2 ^ 32 }))))

/-- ZONE_APPEND (R354, R355). -/
def execZoneAppend (inst sq cid : Nat) (s : State) : Host.Outcome State Fault Refusal := whenSlices s <| .next (s.nvIo inst sq cid 0x7D State.nvAppend)

/-- Accession Read (R355): the record through the PRPs, and its 128-byte trailer through the metadata pointer. -/
def State.nvAccRead (s : State) (c : NvCmd) (n : NsState) : State × NvRes :=
  let z := c.slba / zoneSize
  let v := n.zone z
  match v.records.findIdx? (fun r => decide (r.first = c.slba ∧ r.count = c.nlb)) with
  | none => (s, .done (nvFail nvInvalidField))
  | some j =>
    let len := 4096 * c.nlb
    let r := v.records.getD j ⟨0, 0, [], []⟩
    let prev := if j = 0 then v.seal0 else (v.records.getD (j - 1) ⟨0, 0, [], []⟩).sealTag
    if v.state = zOffline then (s, .done (nvFail nvZoneOffline))
    else s.nvStaged c len (fun t1 c1 =>
      let send := fun (t : State) (d : List Byte) =>
        match t.nvSend (t.cmdNow c1) d nvOk with
        | (t2, .done e) =>
          if e.status ≠ 0 then (t2, NvRes.done e)
          else (match t2.dmaWrite c.slice c.inst c.mptr (s.cmdOp c) (r.header ++ r.sealTag ++ prev ++ List.replicate 32 0) with
            | (t3, .wait) => (t3, NvRes.wait)
            | (t3, .fail st) => (t3, NvRes.done (nvOfDev st false c.slba))
            | (t3, .ok _) => ((t3.addFld (F.NVME_READ_BYTES c.slice) len).countHost c.inst false len, NvRes.done nvOk))
        | x => x
      match c1.data with
      | some d => send t1 d
      | none => t1.nvPlain c1 n (4096 * c.slba) len (fun t2 d => send (t2.setCmd { t2.cmdNow c1 with data := some d }) d))

/-- ACCESSION_READ (R355). -/
def execAccessionRead (inst sq cid : Nat) (s : State) : Host.Outcome State Fault Refusal := whenSlices s <| .next (s.nvIo inst sq cid 0x86 State.nvAccRead)

/-! Zone Management Send (R328, R350 to R353, ZNS). -/

/-- Has a zone pieces or records that are not yet in the buffer? -/
def State.zoneBusy (s : State) (nsid z : Nat) : Bool :=
  s.flash.waiting.any (fun p => decide (p.nsid = nsid) && (p.units.any (fun e => decide (e.1 / zoneSize = z)) ||
    (match p.trim with | some (a, _) => decide (a / zoneSize = z) | none => false))) ||
  s.nv.appends.any (fun a => decide (a.nsid = nsid ∧ a.zone = z))

/-- An action on one zone: its new state, or the status that refuses it. -/
abbrev ZoneAct := State → Nat → NsState → Nat → State × NvDone

/-- Run a Zone Send Action: on one zone, or with Select All on every zone in one of the states `sel`; then `all` says how the command ends, given
how many were refused. -/
def State.zoneSend (s : State) (c : NvCmd) (n : NsState) (code : Nat) (sel : List Nat) (waits : Bool) (act : ZoneAct) (all : Nat → NvDone) : State × NvRes :=
  if bitsOf (c.dw 13) 7 0 ≠ code then (s, .wait)
  else if bitOf (c.dw 13) 8 then
    let zs := (n.zones.filter (fun e => sel.contains e.2.state)).map (fun e => e.1)
    if waits ∧ zs.any (fun z => s.zoneBusy c.nsid z) then (s, .wait)
    else
      let r := zs.foldl (fun (acc : State × Nat) z =>
        match acc.1.ns? c.nsid with
        | some m => let x := act acc.1 c.nsid m z; (x.1, acc.2 + b2n (decide (x.2.status ≠ 0)))
        | none => acc) (s, 0)
      (r.1, .done (all r.2))
  else if n.nsze ≤ c.slba then (s, .done (nvFail nvLbaRange))
  else if c.slba % zoneSize ≠ 0 then (s, .done (nvFail nvInvalidField))
  else if waits ∧ s.zoneBusy c.nsid (c.slba / zoneSize) then (s, .wait)
  else let x := act s c.nsid n (c.slba / zoneSize); (x.1, .done x.2)

def actOpen : ZoneAct := fun s nsid n z =>
  let v := n.zone z
  if v.state = zEmpty then (if s.activeRoom n then (s.leaveEmpty nsid z zExplicit none, nvOk) else (s, nvFail nvTooManyActive))
  else if v.state = zImplicit ∨ v.state = zClosed ∨ v.state = zExplicit then (s.putZone nsid z { v with state := zExplicit }, nvOk)
  else (s, nvFail nvZoneTransition)

def actClose : ZoneAct := fun s nsid n z =>
  let v := n.zone z
  if zoneActive v.state then (s.putZone nsid z { v with state := zClosed }, nvOk) else (s, nvFail nvZoneTransition)

def actFinish : ZoneAct := fun s nsid n z =>
  let v := n.zone z
  if v.state = zFull then (s, nvOk)
  else if v.state = zEmpty then ((s.leaveEmpty nsid z zFull none).accAdd nsid z accFinish, nvOk)
  else if zoneActive v.state then ((s.putZone nsid z { v with state := zFull }).accAdd nsid z accFinish, nvOk)
  else (s, nvFail nvZoneTransition)

/-- Reset (R352): refused on an Accession zone whose retention has not passed. -/
def actReset : ZoneAct := fun s0 nsid n z =>
  let s := s0.seeTime
  let v := n.zone z
  if v.state = zEmpty then (s, nvOk)
  else if v.state = zReadOnly ∨ v.state = zOffline then (s, nvFail nvZoneTransition)
  else if n.acc ∧ !s.retainPassed v.retain then ((s.incFld F.ACC_RESET_REFUSED).accAdd nsid z accRefused, nvRefused)
  else (s.resetZone nsid z, nvOk)

def actOffline : ZoneAct := fun s nsid n z =>
  let v := n.zone z
  if v.state = zOffline then (s, nvOk)
  else if v.state = zReadOnly then ((s.dropZoneData nsid z).putZone nsid z { v with state := zOffline }, nvOk)
  else (s, nvFail nvZoneTransition)

/-- ZONE_OPEN (R351). -/
def execZoneOpen (inst sq cid : Nat) (s : State) : Host.Outcome State Fault Refusal := whenSlices s <|
  .next (s.nvIo inst sq cid 0x79 (fun t c n => t.zoneSend c n 3 [zClosed] false actOpen (fun _ => nvOk)))

/-- ZONE_CLOSE (R328). -/
def execZoneClose (inst sq cid : Nat) (s : State) : Host.Outcome State Fault Refusal := whenSlices s <|
  .next (s.nvIo inst sq cid 0x79 (fun t c n => t.zoneSend c n 1 [zImplicit, zExplicit] false actClose (fun _ => nvOk)))

/-- ZONE_FINISH (R328). -/
def execZoneFinish (inst sq cid : Nat) (s : State) : Host.Outcome State Fault Refusal := whenSlices s <|
  .next (s.nvIo inst sq cid 0x79 (fun t c n => t.zoneSend c n 2 [zImplicit, zExplicit, zClosed] true actFinish (fun _ => nvOk)))

/-- ZONE_RESET (R352, R353): with Select All the eligible zones are reset, and Dword 0 counts the refused. -/
def execZoneReset (inst sq cid : Nat) (s : State) : Host.Outcome State Fault Refusal := whenSlices s <|
  .next (s.nvIo inst sq cid 0x79 (fun t c n => t.zoneSend c n 4 [zImplicit, zExplicit, zClosed, zFull] true actReset (fun k => { status := 0, dw0 := k })))

/-- ZONE_OFFLINE (R350). -/
def execZoneOffline (inst sq cid : Nat) (s : State) : Host.Outcome State Fault Refusal := whenSlices s <|
  .next (s.nvIo inst sq cid 0x79 (fun t c n =>
    if bitsOf (c.dw 13) 7 0 = 5 ∧ n.acc then t.accDeny c
    else t.zoneSend c n 5 [zReadOnly] false actOffline (fun _ => nvOk)))

/-- SET_ZONE_DESCRIPTOR_EXTENSION (R351): the zone leaves Empty for Closed, and on an Accession zone its retention is fixed. -/
def execSetZoneDescriptorExtension (inst sq cid : Nat) (s : State) : Host.Outcome State Fault Refusal := whenSlices s <|
  .next (s.nvIo inst sq cid 0x79 (fun t c n =>
    if bitsOf (c.dw 13) 7 0 ≠ 0x10 then (t, .wait)
    else
      let z := c.slba / zoneSize
      if n.nsze ≤ c.slba then (t, .done (nvFail nvLbaRange))
      else if c.slba % zoneSize ≠ 0 ∨ bitOf (c.dw 13) 8 then (t, .done (nvFail nvInvalidField))
      else if (n.zone z).state ≠ zEmpty then (t, .done (nvFail nvZoneTransition))
      else if !t.activeRoom n then (t, .done (nvFail nvTooManyActive))
      else t.nvWithData c 64 (fun t1 _ d =>
        if n.acc ∧ t1.ftSec + maxRetain < leAt d 0 6 then (t1, .done (nvFail nvInvalidField))
        else (t1.leaveEmpty c.nsid z zClosed (some d), .done nvOk))))

/-! Zone Management Receive (R328, R351, ZNS). -/

/-- The 64-byte descriptor of zone z; the write pointer of a zone that is Full, Read Only or Offline is not defined. -/
def zoneDesc (free : Nat) (n : NsState) (z : Nat) : List Byte :=
  let v := n.zone z
  let wp := if v.state = zFull ∨ v.state = zReadOnly ∨ v.state = zOffline then (List.range 8).map (Config.random free) else leBytes 8 (z * zoneSize + v.wp)
  let ext := v.ext.isSome || (n.acc && decide (v.state ≠ zEmpty))
  [2, BitVec.ofNat 8 (16 * v.state), BitVec.ofNat 8 (128 * b2n ext)] ++ leBytes 5 0 ++ leBytes 8 zoneCap ++ leBytes 8 (z * zoneSize) ++ wp ++ leBytes 32 0

/-- The extension of zone z; an Accession zone's begins with RETAIN_UNTIL (R351). -/
def zoneExt (n : NsState) (z : Nat) : List Byte :=
  let v := n.zone z
  let e := v.ext.getD (List.replicate 64 0)
  if n.acc ∧ v.state ≠ zEmpty then leBytes 6 v.retain ++ e.drop 6 else e

/-- Zones in a state that the filter ZRASF selects. -/
def zrasf (f st : Nat) : Bool :=
  match f with
  | 0 => true
  | 1 => decide (st = zEmpty)
  | 2 => decide (st = zImplicit)
  | 3 => decide (st = zExplicit)
  | 4 => decide (st = zClosed)
  | 5 => decide (st = zFull)
  | 6 => decide (st = zReadOnly)
  | _ => decide (st = zOffline)

/-- A report of zones, with or without their extensions. -/
def State.nvReport (s : State) (c : NvCmd) (n : NsState) (ext : Bool) : State × NvRes :=
  let f := bitsOf (c.dw 13) 15 8
  let len := 4 * (c.dw 12 + 1)
  if bitsOf (c.dw 13) 7 0 ≠ b2n ext then (s, .wait)
  else if n.nsze ≤ c.slba then (s, .done (nvFail nvLbaRange))
  else if 7 < f then (s, .done (nvFail nvInvalidField))
  else
    let zs := ((List.range n.zoneCount).drop (c.slba / zoneSize)).filter (fun z => zrasf f (n.zone z).state)
    let size := if ext then 128 else 64
    let fit := (len - 64) / size
    let nr := if bitOf (c.dw 13) 16 then min fit zs.length else zs.length
    let body := ((zs.take fit).map (fun z => zoneDesc s.freeCtr n z ++ (if ext then zoneExt n z else []))).flatten
    s.draw.nvSend c ((leBytes 8 nr ++ leBytes 56 0 ++ body ++ List.replicate (len - 64 - body.length) 0).take len) nvOk

/-- REPORT_ZONES (R328). -/
def execReportZones (inst sq cid : Nat) (s : State) : Host.Outcome State Fault Refusal := whenSlices s <|
  .next (s.nvIo inst sq cid 0x7A (fun t c n => t.nvReport c n false))

/-- EXTENDED_REPORT_ZONES (R351). -/
def execExtendedReportZones (inst sq cid : Nat) (s : State) : Host.Outcome State Fault Refusal := whenSlices s <|
  .next (s.nvIo inst sq cid 0x7A (fun t c n => t.nvReport c n true))

end Sys2Proof.Machine
end

