-- ==== Sys2Proof/Machine/NvAdmin.lean ====
section
/-!
DEFINITION. The NVMe admin commands (chapter 11: R323 to R335, R338, R342, R345 to R349, R352, R360, R361; chapter 12: R388, R406). Page and
structure formats that the spec takes from NVMe 2.0 are that specification's.
-/

namespace Sys2Proof.Machine

/-- Run an admin command of controller i. -/
def State.nvAdmin (s : State) (i cid op : Nat) (f : State → NvCmd → State × NvRes) : State := s.nvRun i 0 cid [op] f

/-! Queues (R329, R334, R338). -/

/-- The number of I/O SQs, and of I/O CQs, that a controller has been allocated (R329): 0's based halves of feature 0x07; before the feature is
set, the most it can be given. -/
def State.queueQuota (s : State) (i : Nat) : Nat := min (s.fld ⟨R.INST_QUOTA_A i, 32, 9⟩) 256
def State.allocated (s : State) (i : Nat) (cq : Bool) : Nat :=
  match Map.find? (s.nvc i).feats 0x07 with
  | some v => (if cq then bitsOf v 31 16 else bitsOf v 15 0) + 1
  | none => s.queueQuota i

/-- DELETE_IO_SQ (R338). -/
def State.nvDeleteSq (s : State) (c : NvCmd) : State × NvRes :=
  let q := bitsOf (c.dw 10) 15 0
  match (if q = 0 then none else s.nvSq? c.inst q) with
  | none => (s, .done (nvFail nvQueueId))
  | some sq =>
    let s1 : State := { s with nv.cmds := s.nv.cmds.map (fun (x : NvCmd) =>
      if x.inst = c.inst ∧ x.sq = q ∧ !x.issued ∧ x.done.isNone then { x with done := some (nvFail nvSqDeleted) } else x) }
    let s2 := (s1.setSq { sq with deleting := some c.id }).setCmd { c with issued := true }
    (s2.sqDrained c.inst q, .wait)

def execDeleteIoSq (inst cid : Nat) (s : State) : Host.Outcome State Fault Refusal := whenSlices s <| .next (s.nvAdmin inst cid 0x00 State.nvDeleteSq)

/-- DELETE_IO_CQ (R338). -/
def State.nvDeleteCq (s : State) (c : NvCmd) : State × NvRes :=
  let q := bitsOf (c.dw 10) 15 0
  match (if q = 0 then none else s.nvCq? c.inst q) with
  | none => (s, .done (nvFail nvQueueId))
  | some _ =>
    if s.nv.sqs.any (fun x => decide (x.inst = c.inst ∧ x.cq = q)) then (s, .done (nvFail nvQueueDeletion))
    else (({ s with nv.cqs := s.nv.cqs.filter (fun x => !decide (x.inst = c.inst ∧ x.qid = q)) } : State).showQueues c.inst, .done nvOk)

def execDeleteIoCq (inst cid : Nat) (s : State) : Host.Outcome State Fault Refusal := whenSlices s <| .next (s.nvAdmin inst cid 0x04 State.nvDeleteCq)

/-- CREATE_IO_CQ (R334): in slice NVME_CQ_SLICE entry q − 1. -/
def State.nvCreateCq (s : State) (c : NvCmd) : State × NvRes :=
  let q := bitsOf (c.dw 10) 15 0
  let size := bitsOf (c.dw 10) 31 16 + 1
  let v := bitsOf (c.dw 11) 31 16
  let k := bitsOf ((s.rd (R.NVME_CQ_SLICE c.inst ((q - 1) / 32))).toNat) (2 * ((q - 1) % 32) + 1) (2 * ((q - 1) % 32))
  if !bitOf (c.dw 11) 0 then (s, .done (nvFail nvInvalidField))
  else if q = 0 ∨ s.allocated c.inst true < q ∨ (s.nvCq? c.inst q).isSome then (s, .done (nvFail nvQueueId))
  else if size = 1 then (s, .done (nvFail nvQueueSize))
  else if c.prp1 % (s.nvc c.inst).page ≠ 0 then (s, .done (nvFail nvPrpOffset))
  else if vectorCount c.inst ≤ v then (s, .done (nvFail nvBadVector))
  else if 4096 ≤ (s.nv.cqs.filter (fun x => decide (x.slice = k ∧ x.qid ≠ 0))).length then (s, .done (nvFail nvQueueId))
  else
    let cq : NvCq := { inst := c.inst, qid := q, slice := k, size := size, base := c.prp1, ien := bitOf (c.dw 11) 1, vector := v }
    (({ s with nv.cqs := s.nv.cqs ++ [cq] } : State).showQueues c.inst, .done nvOk)

def execCreateIoCq (inst cid : Nat) (s : State) : Host.Outcome State Fault Refusal := whenSlices s <| .next (s.nvAdmin inst cid 0x05 State.nvCreateCq)

/-- CREATE_IO_SQ (R334): in the slice of the CQ it names. -/
def State.nvCreateSq (s : State) (c : NvCmd) : State × NvRes :=
  let q := bitsOf (c.dw 10) 15 0
  let size := bitsOf (c.dw 10) 31 16 + 1
  let cqid := bitsOf (c.dw 11) 31 16
  if !bitOf (c.dw 11) 0 then (s, .done (nvFail nvInvalidField))
  else if q = 0 ∨ s.allocated c.inst false < q ∨ (s.nvSq? c.inst q).isSome then (s, .done (nvFail nvQueueId))
  else if size = 1 then (s, .done (nvFail nvQueueSize))
  else if c.prp1 % (s.nvc c.inst).page ≠ 0 then (s, .done (nvFail nvPrpOffset))
  else match (if cqid = 0 then none else s.nvCq? c.inst cqid) with
    | none => (s, .done (nvFail nvCqInvalid))
    | some cq =>
      if 4096 ≤ (s.nv.sqs.filter (fun x => decide (x.slice = cq.slice ∧ x.qid ≠ 0))).length then (s, .done (nvFail nvQueueId))
      else
        let sq : NvSq := { inst := c.inst, qid := q, slice := cq.slice, cq := cqid, size := size, base := c.prp1, prio := bitsOf (c.dw 11) 2 1 }
        (({ s with nv.sqs := s.nv.sqs ++ [sq] } : State).showQueues c.inst, .done nvOk)

def execCreateIoSq (inst cid : Nat) (s : State) : Host.Outcome State Fault Refusal := whenSlices s <| .next (s.nvAdmin inst cid 0x01 State.nvCreateSq)

/-- Abort (R338): a command not yet issued to flash ends with Command Abort Requested; one not yet fetched does so when it is fetched. -/
def State.nvAbort (s : State) (c : NvCmd) : State × NvRes :=
  let q := bitsOf (c.dw 10) 15 0
  let cid := bitsOf (c.dw 10) 31 16
  match s.nv.cmds.find? (fun x => decide (x.inst = c.inst ∧ x.sq = q ∧ x.cid = cid ∧ x.id ≠ c.id)) with
  | some x =>
    if x.done.isNone ∧ (!x.issued ∨ (q = 0 ∧ x.opc = 0x0C)) then (s.nvEnd x.id (nvFail nvAbortRequested), .done { status := 0, dw0 := 0 })
    else (s, .done { status := 0, dw0 := 1 })
  | none =>
    match s.nvSq? c.inst q with
    | some sq =>
      if sq.head ≠ sq.tail then
        let x := s.nvc c.inst
        (s.setNvc c.inst { x with aborts := x.aborts ++ [(q, cid)] }, .done { status := 0, dw0 := 0 })
      else (s, .done { status := 0, dw0 := 1 })
    | none => (s, .done { status := 0, dw0 := 1 })

def execNvmeAbort (inst cid : Nat) (s : State) : Host.Outcome State Fault Refusal := whenSlices s <| .next (s.nvAdmin inst cid 0x08 State.nvAbort)

/-! Features (R329, R333, R344). -/

/-- Features that Set and Get Features know. -/
def featIds : List Nat := [0x01, 0x02, 0x04, 0x07, 0x08, 0x09, 0x0A, 0x0B, 0x0C, 0x0E]

/-- Timestamp in milliseconds (R333). -/
def State.nvTimestamp (s : State) : Nat := s.ftSec * 1000 + s.ftNow % 2 ^ 48 * 1000 / 2 ^ 48

/-- Set Features. -/
def State.nvSetFeatures (s : State) (c : NvCmd) : State × NvRes :=
  let fid := bitsOf (c.dw 10) 7 0
  let v := c.dw 11
  let x := s.nvc c.inst
  let keep := fun (t : State) (key val : Nat) => let y := t.nvc c.inst; t.setNvc c.inst { y with feats := Map.insert y.feats key val }
  if !featIds.contains fid ∨ bitOf (c.dw 10) 31 ∨ fid = 0x0E then (s, .done (nvFail nvInvalidField))
  else match fid with
    | 0x02 =>
      let ps := bitsOf v 4 0
      if 4 < ps then (s, .done (nvFail nvInvalidField))
      else (keep (s.setNvc c.inst { x with ps := ps, lastOp := if ps < 3 then ps else (if x.ps < 3 then x.ps else x.lastOp) }) 0x02 v, .done nvOk)
    | 0x04 =>
      let sel := bitsOf v 19 16
      if (sel ≠ 0 ∧ sel ≠ 15) ∨ 1 < bitsOf v 21 20 then (s, .done (nvFail nvInvalidField))
      else (keep s (0x04 + 256 * (1 + bitsOf v 21 20)) (bitsOf v 15 0), .done nvOk)
    | 0x07 =>
      if bitsOf v 15 0 = 0xFFFF ∨ bitsOf v 31 16 = 0xFFFF then (s, .done (nvFail nvInvalidField))
      else if s.nv.sqs.any (fun q => decide (q.inst = c.inst ∧ q.qid ≠ 0)) ∨ s.nv.cqs.any (fun q => decide (q.inst = c.inst ∧ q.qid ≠ 0)) then
        (s, .done (nvFail nvSequenceError))
      else
        let give := fun (r : Nat) => (min (r + 1) (s.queueQuota c.inst) + 65535) % 65536
        let w := give (bitsOf v 15 0) + 65536 * give (bitsOf v 31 16)
        (keep s 0x07 w, .done { status := 0, dw0 := w })
    | 0x09 =>
      if vectorCount c.inst ≤ bitsOf v 15 0 then (s, .done (nvFail nvInvalidField))
      else (keep s (0x09 + 256 * (bitsOf v 15 0 + 1)) (v % 2 ^ 17), .done nvOk)
    | 0x0C =>
      s.nvWithData c 256 (fun t _ d =>
        let t1 := keep t 0x0C (v % 2)
        let y := t1.nvc c.inst
        (t1.setNvc c.inst { y with apst := d }, .done nvOk))
    | _ => (keep s fid v, .done nvOk)

def execSetFeatures (inst cid : Nat) (s : State) : Host.Outcome State Fault Refusal := whenSlices s <| .next (s.nvAdmin inst cid 0x09 State.nvSetFeatures)

/-- A temperature threshold: over is WCTEMP and under 0 until set. -/
def NvCtrl.tempThresh (c : NvCtrl) (under : Bool) : Nat :=
  match Map.find? c.feats (0x04 + 256 * (1 + b2n under)) with
  | some v => v
  | none => if under then 0 else 373

/-- The bytes and Dword 0 of a feature (R329, R333); none for one that is not supported. -/
def State.featData (s : State) (i fid v : Nat) : Option (List Byte × Nat) :=
  let x := s.nvc i
  if !featIds.contains fid then none
  else match fid with
    | 0x02 => some ([], x.feat 0x02 / 32 * 32 + x.ps)
    | 0x04 => some ([], x.tempThresh (bitOf v 20))
    | 0x07 => let a := fun b => (s.allocated i b + 65535) % 65536; some ([], a false + 65536 * a true)
    | 0x09 => some ([], bitsOf v 15 0 + 65536 * bitsOf (x.feat (0x09 + 256 * (bitsOf v 15 0 + 1))) 16 16)
    | 0x0C => some (x.apst ++ List.replicate (256 - x.apst.length) 0, x.feat 0x0C)
    | 0x0E => some (leBytes 6 s.nvTimestamp ++ [BitVec.ofNat 8 (if s.ftState = 2 ∨ s.ftState = 3 then 2 else 0), 0], 0)
    | _ => some ([], x.feat fid)

/-- Get Features. -/
def State.nvGetFeatures (s : State) (c : NvCmd) : State × NvRes :=
  if bitsOf (c.dw 10) 10 8 ≠ 0 then (s, .done (nvFail nvInvalidField))
  else match s.featData c.inst (bitsOf (c.dw 10) 7 0) (c.dw 11) with
    | none => (s, .done (nvFail nvInvalidField))
    | some (bs, d) => s.nvSend c bs { status := 0, dw0 := d }

def execGetFeatures (inst cid : Nat) (s : State) : Host.Outcome State Fault Refusal := whenSlices s <| .next (s.nvAdmin inst cid 0x0A State.nvGetFeatures)

/-- ASYNC_EVENT_REQUEST (R336): at most four are outstanding. -/
def execAsyncEventRequest (inst cid : Nat) (s : State) : Host.Outcome State Fault Refusal := whenSlices s <|
  .next (s.nvAdmin inst cid 0x0C (fun t c =>
    if 4 ≤ (t.nv.cmds.filter (fun x => decide (x.inst = inst ∧ x.sq = 0 ∧ x.opc = 0x0C) && x.issued && x.done.isNone)).length then
      (t, .done (nvFail nvAerLimit))
    else ((t.setCmd { c with issued := true }).nvAers inst 4, .wait)))

/-! Capacity (R388). -/

/-- Blocks of slice k that hold bands: good blocks but the save blocks. -/
def State.bandBlocks (s : State) (k : Nat) : Nat :=
  ((s.onlineDies k).map (fun x => ((List.range (s.dieBlocks - s.saveBlocks)).filter (fun b => decide ((s.blk k x b).bad = 0))).length)).sum

/-- Over-provisioning in percent: fixed when the first namespace is created (R388). -/
def State.opPct (s : State) (k : Nat) : Nat := s.flash.opFixed.getD (min 50 (s.fld (F.AFF_OP_PCT k)))

/-- The capacity of slice k in bytes: what its bands hold beyond the spare blocks, the reserve bands and over-provisioning (R369, R388). -/
def State.sliceCapacity (s : State) (k : Nat) : Nat :=
  let w := s.bandWidth k
  let bands := (s.bandBlocks k - s.fld (F.AFF_SPARE_INIT k)) / max 1 w - 8
  bands * ((w - 1) * 128 * mib) * (100 - s.opPct k) / 100

def State.mediaCapacity (s : State) : Nat := (s.dataSlices.map s.sliceCapacity).sum
def NsState.bytes (n : NsState) : Nat := n.nsze * n.bs
def State.mediaUsed (s : State) : Nat := (s.nv.ns.map (fun e => e.2.bytes)).sum

/-! Identify (R327, R331, R332). -/

/-- ASCII text padded with spaces to n bytes. -/
def padText (n : Nat) (l : List Byte) : List Byte := (l ++ List.replicate n (0x20 : Byte)).take n
def asciiBytes (t : String) : List Byte := t.toList.map (fun ch => BitVec.ofNat 8 ch.toNat)

/-- A power state descriptor (R532): power in units of 0.01 W, NOPS, entry and exit latency in µs. -/
def psd (mp nops en ex : Nat) : List Byte := leBytes 2 mp ++ [0, BitVec.ofNat 8 (2 * nops)] ++ leBytes 4 en ++ leBytes 4 ex ++ leBytes 20 0

/-- Lay fields out in a structure of n bytes. -/
def layOut (n : Nat) (fs : List (Nat × List Byte)) : List Byte := fs.foldl (fun d f => splice d f.1 f.2) (List.replicate n 0)

/-- The VERSION word of a slot's package (R473). -/
def State.slotByte (s : State) (n a : Nat) : Byte := Map.get (fun _ => 0xFF) (s.boot.slots.getD n []) a
def State.slotRead (s : State) (n a len : Nat) : List Byte := (List.range len).map (fun i => s.slotByte n (a + i))
def State.slotVersion (s : State) (n : Nat) : Nat := leNat (s.slotRead n 8 4)

/-- Identify Controller (R331). -/
def State.idController (s : State) (i : Nat) : List Byte :=
  let admin := s.on (F.NVME_CTRL_CFG_NS_ADMIN i)
  let edstt := 20 + (s.usableDies + 7) / 8
  layOut 4096 [(0, leBytes 2 0x1D7C), (2, leBytes 2 0x1D7C), (4, padText 20 Config.serialText), (24, padText 40 (asciiBytes "Gwynniek SK6480")),
    (64, padText 8 (Config.versionText (s.slotVersion (s.fld F.BOOT_STATUS_BOOTED_SLOT)))), (72, [6]), (73, leBytes 3 Config.oui), (76, [7, 7]),
    (78, leBytes 2 i), (80, leBytes 4 0x20000), (84, leBytes 4 50000), (88, leBytes 4 100000), (92, leBytes 4 0x08000100), (111, [1]),
    (256, leBytes 2 (if admin then 0x1A else 0)), (258, [3, 3, 4, 6, 63, 4, 0, 1]), (266, leBytes 2 373), (268, leBytes 2 378),
    (280, leBytes 16 s.mediaCapacity), (296, leBytes 16 (s.mediaCapacity - s.mediaUsed)), (316, leBytes 2 edstt), (318, [1]),
    (512, [0x66, 0x44]), (516, leBytes 4 1024), (520, leBytes 2 0xCC), (524, [4, 0]), (526, leBytes 2 63), (528, leBytes 2 63),
    (768, asciiBytes "nqn.2019-06.com.gwynniek:sk6480:" ++ Config.serialText),
    (2048, psd 2500 0 0 0 ++ psd 1800 0 0 0 ++ psd 1200 0 0 0 ++ psd 500 1 50 50 ++ psd 200 1 1000 1200)]

/-- Identify Namespace (R332). -/
def idNamespace (n : NsState) : List Byte :=
  let a := if n.lbaf = 0 then 63 else 511
  layOut 4096 [(0, leBytes 8 n.nsze), (8, leBytes 8 n.ncap), (16, leBytes 8 n.ncap), (24, [2, 1, BitVec.ofNat 8 n.lbaf]), (30, [1]), (33, [1]),
    (34, leBytes 2 a), (36, leBytes 2 a), (40, leBytes 2 a), (44, leBytes 2 a), (48, leBytes 16 n.bytes),
    (128, leBytes 4 (12 * 65536)), (132, leBytes 4 (9 * 65536 + 2 * 2 ^ 24)),
    (3072, [BitVec.ofNat 8 (b2n n.acc), BitVec.ofNat 8 n.dataSlot]), (3076, [BitVec.ofNat 8 n.sealSlot]), (3080, leBytes 8 n.retain)]

/-- The ZNS I/O command set specific namespace structure (R332). -/
def idZns : List Byte := layOut 4096 [(4, leBytes 4 383), (8, leBytes 4 383), (2816, leBytes 8 zoneSize ++ [1])]

/-- A list of identifiers, ascending, of w bytes each. -/
def idList (w : Nat) (l : List Nat) : List Byte := layOut 4096 [(0, ((l.take (4096 / w)).map (leBytes w)).flatten)]

/-- Instances that present a controller whose home is this device (R323, R324). -/
def State.controllers (s : State) : List Nat := (List.range 4104).filter (fun i => s.isCtrl i && (s.anchorBinding i).isNone)

/-- A controller list from CNTID on: the count and the identifiers. -/
def ctrlList (l : List Nat) : List Byte := let m := l.take 2047; layOut 4096 [(0, leBytes 2 m.length ++ (m.map (leBytes 2)).flatten)]

/-- What Identify returns (R327): 4,096 bytes or a status. -/
def State.identify (s : State) (i cns nsid csi cntid : Nat) : Except Nat (List Byte) :=
  let nsIds := fun (p : NsState → Bool) => ((s.nv.ns.filter (fun e => decide (nsid < e.1) && p e.2)).map (fun e => e.1))
  let isAtt := fun (n : NsState) => n.attached.contains i
  let valid := decide (1 ≤ nsid ∧ nsid ≤ 1024)
  let zero := List.replicate 4096 (0 : Byte)
  match cns with
  | 0x00 =>
    if nsid = 0xFFFFFFFF ∧ s.on (F.NVME_CTRL_CFG_NS_ADMIN i) then .ok (idNamespace {})
    else if !valid then .error nvInvalidNs
    else .ok (match s.ns? nsid with | some n => if isAtt n then idNamespace n else zero | none => zero)
  | 0x01 => .ok (s.idController i)
  | 0x02 => if 0xFFFFFFFE ≤ nsid then .error nvInvalidNs else .ok (idList 4 (nsIds isAtt))
  | 0x03 => (match s.ns? nsid with
    | some n => .ok (layOut 4096 [(0, [2, 16, 0, 0] ++ (pageBytes 0x103 [nsid] ++ List.replicate 16 0).take 16 ++ [4, 1, 0, 0, BitVec.ofNat 8 n.csi])])
    | none => .error nvInvalidNs)
  | 0x05 => if csi ≠ 0 ∧ csi ≠ 2 then .error nvInvalidField else if !valid then .error nvInvalidNs else
    .ok (match s.ns? nsid with | some n => if isAtt n ∧ n.csi = csi ∧ csi = 2 then idZns else zero | none => zero)
  | 0x06 => if csi = 0 then .ok zero else if csi = 2 then .ok (layOut 4096 [(0, [6])]) else .error nvInvalidField
  | 0x07 => if csi ≠ 0 ∧ csi ≠ 2 then .error nvInvalidField else .ok (idList 4 (nsIds (fun n => isAtt n && decide (n.csi = csi))))
  | 0x08 => if !valid then .error nvInvalidNs else
    .ok (match s.ns? nsid with | some n => if isAtt n then layOut 4096 [(0, [0, 1]), (14, [1])] else zero | none => zero)
  | 0x10 => if 0xFFFFFFFE ≤ nsid then .error nvInvalidNs else .ok (idList 4 (nsIds (fun _ => true)))
  | 0x11 => if !valid then .error nvInvalidNs else .ok (match s.ns? nsid with | some n => idNamespace n | none => zero)
  | 0x12 => (match s.ns? nsid with | some n => .ok (ctrlList (n.attached.filter (fun x => decide (cntid ≤ x)))) | none => .error nvInvalidNs)
  | 0x13 => .ok (ctrlList (s.controllers.filter (fun x => decide (cntid ≤ x))))
  | 0x1C => .ok (layOut 4096 [(0, leBytes 8 5)])
  | _ => .error nvInvalidField

/-- NVME_IDENTIFY (R327, R331, R332). -/
def execNvmeIdentify (inst cid : Nat) (s : State) : Host.Outcome State Fault Refusal := whenSlices s <|
  .next (s.nvAdmin inst cid 0x06 (fun t c =>
    match t.identify inst (bitsOf (c.dw 10) 7 0) c.nsid (bitsOf (c.dw 11) 31 24) (bitsOf (c.dw 10) 31 16) with
    | .ok d => t.nvSend c d nvOk
    | .error st => (t, .done (nvFail st))))

/-! Log pages (R330, R348, R360, R361, R388, R406). -/

/-- The composite temperature in kelvin: TEMP_MAX, in units of 0.125 °C (R329, R538). -/
def State.compositeK (s : State) : Nat := ((signed 16 (s.fld F.TEMP_MAX) + 273 * 8) / 8).toNat

/-- Rated P/E cycles of both geometry codes (R364). -/
def ratedPe : Nat := 3000

def listMax (l : List Nat) : Nat := l.foldl max 0
def listMin (l : List Nat) : Nat := l.foldl min (l.headD 0)

/-- Available Spare of the subsystem: the lowest over slices (R388). -/
def State.spareNow (s : State) : Nat := listMin (s.dataSlices.map s.availableSpare)
def State.percentUsed (s : State) : Nat := min 255 (listMax (s.dataSlices.map (fun k => 100 * s.fld (F.AFF_PE_AVG k) / ratedPe)))

/-- Critical Warning (R360). -/
def State.criticalWarning (s : State) (i : Nat) : Nat :=
  let c := s.nvc i
  let t := s.compositeK
  b2n (decide (s.dataSlices ≠ [] ∧ s.spareNow ≤ 10)) + 2 * b2n (decide (c.tempThresh false ≤ t ∨ t ≤ c.tempThresh true)) + 4 * b2n s.flash.degraded +
  8 * b2n s.mediaReadOnly + 16 * b2n (decide (s.holdup = 3))

/-- SMART / Health Information. What NVMe counts and the spec gives no source for (busy time, minutes above thresholds) is left free. -/
def State.smartPage (s : State) (i : Nat) : List Byte :=
  let c := s.nvc i
  let free := fun (j : Nat) => Config.unstated (s.freeCtr + j)
  layOut 512 [(0, [BitVec.ofNat 8 (s.criticalWarning i)]), (1, leBytes 2 s.compositeK), (3, [BitVec.ofNat 8 s.spareNow, 10, BitVec.ofNat 8 s.percentUsed]),
    (32, leBytes 16 ((c.readBlocks + 999) / 1000)), (48, leBytes 16 ((c.writeBlocks + 999) / 1000)), (64, leBytes 16 c.hostReads), (80, leBytes 16 c.hostWrites),
    (96, leBytes 16 (free 0)), (112, leBytes 16 s.boot.count), (128, leBytes 16 s.powerHours), (144, leBytes 16 s.flash.unsafeShutdowns),
    (160, leBytes 16 s.flash.mediaErrors), (176, leBytes 16 c.errCount), (192, leBytes 4 (free 1)), (196, leBytes 4 (free 2))]

/-- An Error Information entry; the device status stands in bytes 42 and 43 (R343). -/
def errEntry (e : NvErr) : List Byte :=
  leBytes 8 e.count ++ leBytes 2 e.sq ++ leBytes 2 e.cid ++ leBytes 2 (2 * e.status) ++ leBytes 2 0xFFFF ++ leBytes 8 e.lba ++ leBytes 4 e.nsid ++
  leBytes 14 0 ++ leBytes 2 e.dev ++ leBytes 20 0

/-- Media Health (R406). -/
def State.mediaHealth (s : State) : List Byte :=
  let sum := fun (f : Nat → Fld) => ((List.range 4).map (fun k => s.fld (f k))).sum
  let stages := fun (l : List Nat) => (l.map (fun n => sum (fun k => F.AFF_READ_STAGE k n))).sum
  let ks := s.dataSlices
  let low := (leastBy (fun k => (s.fld (F.AFF_SPARE k) : Int)) ks).getD 0
  let st := if s.mediaReadOnly then affReadOnly else if ks.isEmpty then affNoMedia else listMin (ks.map (fun k => s.fld (F.AFF_STATE k)))
  layOut 512 [(0, leBytes 2 1), (2, leBytes 2 s.usableDies), (4, leBytes 2 ratedPe), (6, [BitVec.ofNat 8 s.geometry, BitVec.ofNat 8 st]),
    (8, leBytes 8 (sum F.AFF_HOST_BYTES)), (16, leBytes 8 (sum F.AFF_MEDIA_BYTES)), (24, leBytes 8 (sum F.AFF_ERASES)),
    (32, leBytes 4 (listMax (ks.map (fun k => s.fld (F.AFF_PE_AVG k))))), (36, leBytes 4 (listMax (ks.map (fun k => s.fld (F.AFF_PE_MAX k))))),
    (40, leBytes 4 (listMin (ks.map (fun k => s.fld (F.AFF_PE_MIN k))))), (44, leBytes 4 (sum F.AFF_FACTORY_BAD)), (48, leBytes 4 (sum F.AFF_GROWN_BAD)),
    (52, leBytes 4 (s.fld (F.AFF_SPARE low))), (56, leBytes 4 (s.fld (F.AFF_SPARE_INIT low))), (60, leBytes 2 (sum F.AFF_DIE_RETIRED)),
    (64, leBytes 8 (stages [1, 2, 3, 4, 5, 6, 7, 8, 9])), (72, leBytes 8 (stages [10])), (80, leBytes 8 (stages [11])), (88, leBytes 8 (sum F.AFF_UNRECOVERED)),
    (96, leBytes 8 (sum F.AFF_RD_REFRESH)), (104, leBytes 8 (sum F.AFF_RET_REFRESH)), (112, leBytes 8 (sum F.AFF_PATROL_PAGES)),
    (120, leBytes 8 (listMin (ks.map (fun k => s.fld (F.AFF_PATROL_PASS k))))), (128, leBytes 8 (sum F.AFF_MAP_MISSES)),
    (136, leBytes 8 (sum F.AFF_PROG_FAIL)), (144, leBytes 8 (sum F.AFF_ERASE_FAIL)), (152, leBytes 8 (sum F.AFF_WBUF_WAIT))]

/-- The Device Self-test log (R348). -/
def State.testPage (s : State) : List Byte :=
  let cur := s.fld F.NVME_SELFTEST_KIND
  let one := fun (t : Nat × Nat × Nat × Nat) =>
    [BitVec.ofNat 8 t.1, BitVec.ofNat 8 t.2.1, BitVec.ofNat 8 (b2n (decide (t.2.2.1 ≠ 0))), 0] ++ leBytes 8 t.2.2.2 ++ leBytes 4 t.2.2.1 ++ leBytes 12 0
  let rows := s.nv.tests.take 20
  layOut 564 [(0, [BitVec.ofNat 8 cur, BitVec.ofNat 8 (s.fld F.NVME_SELFTEST_PERCENT)]),
    (4, (rows.map one).flatten ++ (List.replicate (20 - rows.length) ([0x0F] ++ leBytes 27 0)).flatten)]

/-- Commands Supported and Effects: an entry per opcode; commands that change blocks, namespaces or capabilities say so. -/
def State.effectsPage (s : State) (i csi : Nat) : List Byte :=
  let adm := nvAdminOps.filter (fun o => s.on (F.NVME_CTRL_CFG_NS_ADMIN i) || decide (o ∉ [0x0D, 0x14, 0x15, 0x80]))
  let ops := if csi = 2 then nvZnsOps ++ [0x86] else nvNvmOps
  let e := fun (o : Nat) => 1 + 2 * b2n (o = 0x80) + 12 * b2n (decide (o = 0x0D ∨ o = 0x15))
  let d := fun (o : Nat) => 1 + 2 * b2n ([0x01, 0x08, 0x09, 0x7D].contains o || decide (o = 0x79))
  layOut 4096 (adm.map (fun o => (4 * o, leBytes 4 (e o))) ++ ops.map (fun o => (1024 + 4 * o, leBytes 4 (d o))))

/-- The content of a log page, or the status that refuses it. -/
def State.logPage (s : State) (i lid nsid csi : Nat) : Except Nat (List Byte) :=
  let c := s.nvc i
  match lid with
  | 0x01 => .ok ((c.errs.map errEntry).flatten ++ List.replicate (64 * (64 - c.errs.length)) 0)
  | 0x02 => .ok (s.smartPage i)
  | 0x03 =>
    let act := s.fld F.BOOT_STATUS_BOOTED_SLOT
    let next := match s.boot.flagA, s.boot.flagB with
      | some a, some b => if a.seq < b.seq then b.active else a.active
      | some a, none => a.active
      | none, some b => b.active
      | none, none => 0
    let rev := fun (n : Nat) => if ((s.boot.commits.getD n none).isSome : Bool) then padText 8 (Config.versionText (s.slotVersion n)) else leBytes 8 0
    .ok (layOut 512 [(0, [BitVec.ofNat 8 (act + 16 * (if next = act then 0 else next))]), (8, rev 1), (16, rev 2)])
  | 0x04 => .ok (idList 4 c.changedNs)
  | 0x05 => if csi = 0 ∨ csi = 2 then .ok (s.effectsPage i csi) else .error nvInvalidField
  | 0x06 => .ok s.testPage
  | 0xBF =>
    if !s.zoned nsid ∨ !s.attachedTo i nsid then .error nvInvalidNs
    else
      let zs := (c.changedZones.filter (fun e => decide (e.1 = nsid))).map (fun e => e.2)
      .ok (if 511 < zs.length then layOut 4096 [(0, leBytes 2 0xFFFF)] else layOut 4096 [(0, leBytes 2 zs.length), (8, (zs.map (leBytes 8)).flatten)])
  | 0xC0 => .ok s.mediaHealth
  | 0xC1 => .ok (pageBytes 0xC1 ([s.fld F.HOLDUP_SAVES, s.fld F.HOLDUP_LOST_BYTES] ++ (s.flash.saveLog.map (fun e => [e.1, e.2])).flatten))
  | 0xC2 => .ok (pageBytes 0xC2 (((s.nv.sqs.filter (fun q => decide (q.inst = i))).map (fun q => [q.qid, q.fetched, q.longest, q.blocked])).flatten))
  | 0xC3 =>
    (match s.ns? nsid with
     | some n => if n.acc then .ok (leBytes 8 n.accLog.length ++ leBytes 8 0 ++ n.accLog.flatten) else .error nvInvalidField
     | none => .error nvInvalidField)
  | _ => .error nvLogPage

/-- Reading a page, unless RAE says otherwise, lets its type of event be reported again (R336) and empties a list of changes. -/
def State.logRead (s : State) (i lid nsid : Nat) : State :=
  let c := s.nvc i
  let ty := if lid = 0x01 then some 0 else if lid = 0x02 then some 1 else if lid = 0x04 ∨ lid = 0xBF then some 2 else none
  let c1 : NvCtrl := match ty with
    | some t => { c with masked := c.masked.filter (fun x => decide (x ≠ t)) }
    | none => c
  let c2 : NvCtrl := if lid = 0x04 then { c1 with changedNs := [] } else if lid = 0xBF then { c1 with changedZones := c1.changedZones.filter (fun e => decide (e.1 ≠ nsid)) } else c1
  (s.setNvc i c2).nvAers i 4

/-- GET_LOG_PAGE (R330, R361). -/
def execGetLogPage (inst cid : Nat) (s : State) : Host.Outcome State Fault Refusal := whenSlices s <|
  .next (s.nvAdmin inst cid 0x02 (fun t c =>
    let lid := bitsOf (c.dw 10) 7 0
    let n := 4 * (bitsOf (c.dw 10) 31 16 + 65536 * bitsOf (c.dw 11) 15 0 + 1)
    let off := leAt c.sqe 48 8
    match t.logPage inst lid c.nsid (bitsOf (c.dw 14) 31 24) with
    | .error st => (t, .done (nvFail st))
    | .ok d =>
      if d.length < off ∨ (lid = 0xC3 ∧ off % 64 ≠ 0) then (t, .done (nvFail nvInvalidField))
      else match t.draw.nvSend c (slice d off n) nvOk with
        | (t1, .done e) => (if e.status = 0 ∧ !bitOf (c.dw 10) 15 then t1.logRead inst lid c.nsid else t1, .done e)
        | r => r))

/-! Namespaces (R324 to R326, R342, R347, R349, R352). -/

/-- The controllers that a namespace is attached to learn that it has changed. -/
def State.nsChanged (s : State) (nsid : Nat) (l : List Nat) : State :=
  l.foldl (fun t i =>
    let c := t.nvc i
    let t1 := t.setNvc i { c with changedNs := if c.changedNs.contains nsid then c.changedNs else c.changedNs ++ [nsid] }
    if bitOf (c.feat 0x0B) 8 then t1.nvEvent i 2 0 4 else t1) s

/-- Draw material whose derived keys are not weak (R325, R236). An attempt under way goes on with the material it has drawn. -/
def State.newMaterial (s : State) (k op slot nsid : Nat) : State × Option (Except Nat (List Byte)) :=
  let mat := match s.cipher.keyReqs.find? (fun r => decide (r.slice = k ∧ r.op = op)) with
    | some r => some (slice r.label 0 16)
    | none => none
  let r := match mat with
    | some m => (s, m)
    | none => s.drbg k 16
  if mat.isNone ∧ s.rngState = rngFailed then (s, some (.error St.CIPHER_RNG_UNAVAILABLE))
  else if mat.isNone ∧ s.rngState ≠ rngOk then (s, none)
  else match r.1.needKey k op slot (contextLabel (leNat r.2) 0 3 nsid) with
  | (t, .ready _) => (t, some (.ok r.2))
  | (t, .wait) => (t, none)
  | (t, .fail st) =>
    if st = St.CIPHER_KEY_WEAK then
      let d := t.drbg k 16
      ((d.1.needKey k op slot (contextLabel (leNat d.2) 0 3 nsid)).1, none)
    else (t, some (.error st))

/-- Show the number of namespaces. -/
def State.showNs (s : State) : State := s.setFld F.NVME_NS_COUNT s.nv.ns.length

/-- What a create asks for: command set and the host-specified structure. -/
structure NsReq where
  csi : Nat
  data : List Byte
  deriving DecidableEq, Repr

def NsReq.nsze (r : NsReq) : Nat := leAt r.data 0 8
def NsReq.lbaf (r : NsReq) : Nat := leAt r.data 26 1 % 16
def NsReq.acc (r : NsReq) : Bool := bitOf (leAt r.data 3072 1) 0
def NsReq.dataSlot (r : NsReq) : Nat := leAt r.data 3073 1 % 8
def NsReq.sealSlot (r : NsReq) : Nat := leAt r.data 3076 1 % 8
def NsReq.retain (r : NsReq) : Nat := leAt r.data 3080 8

/-- What refuses a create (R324, R325, R349). -/
def State.nsRefuse (s : State) (r : NsReq) : Option Nat :=
  if r.csi ≠ 0 ∧ r.csi ≠ 2 then some 0x129
  else if 1 < r.lbaf ∨ (r.csi = 2 ∧ r.lbaf ≠ 0) then some nvFormat
  else if leAt r.data 29 1 ≠ 0 ∨ r.nsze = 0 ∨ (r.csi = 2 ∧ r.nsze % zoneSize ≠ 0) then some nvInvalidField
  else if !bitOf (s.fld (F.ROOT_SLOT_USAGE r.dataSlot)) useStorage then some nvInvalidField
  else if r.acc ∧ (r.csi ≠ 2 ∨ !bitOf (s.fld (F.ROOT_SLOT_USAGE r.sealSlot)) useSeal ∨ maxRetain < r.retain) then some nvInvalidField
  else if r.csi = 0 ∧ leAt r.data 8 8 ≠ r.nsze then some 0x11B
  else if s.mediaCapacity - s.mediaUsed < r.nsze * (if r.lbaf = 0 then 4096 else 512) then some nvNoCapacity
  else if 1024 ≤ s.nv.ns.length then some nvNsidUnavailable
  else none

/-- Create a namespace; which free NSID it gets is left free. The result is its NSID or a failure; none is a wait. -/
def State.nsCreate (s : State) (k op : Nat) (r : NsReq) : State × Option (Except Nat Nat) :=
  match s.nsRefuse r with
  | some st => (s, some (.error st))
  | none =>
    let free := ((List.range 1024).map (· + 1)).filter (fun x => (s.ns? x).isNone)
    let nsid := match s.cipher.keyReqs.find? (fun q => decide (q.slice = k ∧ q.op = op)) with
      | some q => leAt q.label 20 4
      | none => free.getD (Config.unstated s.freeCtr % max 1 free.length) 0
    match s.draw.newMaterial k op r.dataSlot nsid with
    | (t, none) => (t, none)
    | (t, some (.error st)) => (t, some (.error (nvOfDev st true 0).status))
    | (t, some (.ok m)) =>
      let d := t.drbg k 16
      let n : NsState := { csi := r.csi, lbaf := r.lbaf, nsze := r.nsze, ncap := if r.csi = 2 then r.nsze / zoneSize * zoneCap else r.nsze,
                           dataSlot := r.dataSlot, material := m, acc := r.acc, sealSlot := r.sealSlot, retain := r.retain,
                           sealMaterial := if r.acc then d.2 else [] }
      let t1 := (if r.acc then d.1 else t).setNs nsid n
      let t2 : State := { t1 with flash.opFixed := some (t1.flash.opFixed.getD (min 50 (t1.fld (F.AFF_OP_PCT 0)))) }
      (t2.showNs, some (.ok nsid))

/-- May a namespace not yet be destroyed: one of its zones is not Empty and its retention has not passed (R352)? -/
def State.nsHeld (s : State) (n : NsState) : Bool := n.acc && n.zones.any (fun e => decide (e.2.state ≠ zEmpty) && !s.retainPassed e.2.retain)

/-- A self-test that covers a namespace ends with a result (R347, R348). -/
def State.nsEndsTest (s : State) (nsid result : Nat) : State :=
  match s.nv.test with
  | some t =>
    if t.nsid = nsid ∨ t.nsid = 0xFFFFFFFF then
      { (((s.setFld F.NVME_SELFTEST_KIND 0).setFld F.NVME_SELFTEST_PERCENT 0).setFld F.NVME_SELFTEST_SEGMENT 0) with
        nv.test := none, nv.tests := ((16 * t.code + result, 0, t.nsid, s.powerHours) :: s.nv.tests).take 20 }
    else s
  | none => s

/-- All data of a namespace goes: map, buffer, and pieces and records on their way; their commands end with Invalid Namespace. -/
def State.nsDropData (s : State) (nsid : Nat) : State :=
  let gone := (s.flash.waiting.filter (fun p => decide (p.nsid = nsid))).map (fun p => p.id)
  let apps := s.nv.appends.filter (fun a => decide (a.nsid = nsid))
  let mine := fun (key : Nat) => decide (key / 2 ^ 40 = nsid)
  let hit := fun (c : NvCmd) => c.pieces.any gone.contains
  let s1 := (s.flash.waiting.filter (fun p => decide (p.nsid = nsid))).foldl (fun t p => t.freeCaptured p)
    { s with flash.waiting := s.flash.waiting.filter (fun p => decide (p.nsid ≠ nsid)) }
  let s2 : State := { s1 with
    nv.appends := s1.nv.appends.filter (fun a => decide (a.nsid ≠ nsid)),
    nv.cmds := s1.nv.cmds.map (fun (c : NvCmd) =>
      if hit c then { c with pieces := [], unprog := [], done := some (nvFail nvInvalidNs) }
      else if apps.any (fun a => decide (a.cmd = some c.id)) then { c with done := some (nvFail nvInvalidNs) } else c),
    flash.map := s1.flash.map.filter (fun e => !mine e.1), flash.mapLost := s1.flash.mapLost.filter (fun x => !mine x),
    flash.mapDir := s1.flash.mapDir.filter (fun e => decide (e.1 / 2 ^ 32 ≠ nsid)), flash.dirty := s1.flash.dirty.filter (fun pg => decide (pg / 2 ^ 32 ≠ nsid)),
    flash.buf := s1.flash.buf.map (fun l => l.filter (fun w => decide (w.nsid ≠ nsid))) }
  (List.range 4).foldl (fun t k => t.showWbuf k) s2

/-- Delete a namespace (R352); a status that refuses it. -/
def State.nsDelete (s0 : State) (nsid : Nat) : State × Nat :=
  let s := s0.seeTime
  match s.ns? nsid with
  | none => (s, nvInvalidNs)
  | some n =>
    if s.nsHeld n then (s, nvDenied)
    else
      let s1 := ((s.nsDropData nsid).nsEndsTest nsid 3).nsChanged nsid n.attached
      (({ s1 with nv.ns := Map.erase s1.nv.ns nsid } : State).showNs, 0)

/-- Attach a namespace to controllers, or detach it (R324). -/
def State.nsAttach (s : State) (nsid : Nat) (attach : Bool) (l : List Nat) : State × Nat :=
  match s.ns? nsid with
  | none => (s, nvInvalidNs)
  | some n =>
    if l.any (fun i => !s.isCtrl i || (s.anchorBinding i).isSome) then (s, nvCtrlList)
    else if attach ∧ l.any n.attached.contains then (s, nvAttached)
    else if !attach ∧ l.any (fun i => !n.attached.contains i) then (s, nvNotAttached)
    else
      let m := if attach then (n.attached ++ l).mergeSort else n.attached.filter (fun i => !l.contains i)
      ((s.setNs nsid { n with attached := m }).nsChanged nsid l, 0)

/-- The controllers of a controller list. -/
def parseCtrlList (d : List Byte) : List Nat := (List.range (min 2047 (leAt d 0 2))).map (fun i => leAt d (2 + 2 * i) 2)

/-- Format a namespace (R342, R352): every setting leaves it reading zeros; settings 1 and 2 replace its material, and 1 has its blocks erased. None
is a wait. -/
def State.nsFormat (s0 : State) (k op nsid lbaf ses : Nat) : State × Option Nat :=
  let s := s0.seeTime
  match s.ns? nsid with
  | none => (s, some nvInvalidNs)
  | some n =>
    if 1 < lbaf ∨ (n.csi = 2 ∧ lbaf ≠ 0) then (s, some nvFormat)
    else if 2 < ses then (s, some nvInvalidField)
    else if s.nsHeld n then (s, some nvDenied)
    else
      let go := fun (t : State) (m : List Byte) =>
        let nsze := n.bytes / (if lbaf = 0 then 4096 else 512)
        let gens := n.zones.filterMap (fun e => if e.2.gen = 0 then none else some (e.1, ({ gen := e.2.gen } : Zone)))
        let t1 := ((t.nsDropData nsid).nsEndsTest nsid 4).setNs nsid
          { n with lbaf := lbaf, nsze := nsze, ncap := if n.csi = 2 then n.ncap else nsze, material := m, zones := gens }
        let t2 := if ses ≠ 1 then t1 else (t1.flash.bands.filter (fun b => !b.isOpen && t1.flash.cells.any (fun e =>
            decide (e.1 / 2 ^ 33 = b.slice ∧ e.2.nsid = nsid) && b.members.contains (locDie (e.1 % 2 ^ 33), locBlk (e.1 % 2 ^ 33))))).foldl
          (fun v b => v.moveBand b 6) t1
        t2.nsChanged nsid n.attached
      if ses = 0 then (go s n.material, some 0)
      else match s.newMaterial k op n.dataSlot nsid with
        | (t, none) => (t, none)
        | (t, some (.error st)) => (t, some (nvOfDev st true 0).status)
        | (t, some (.ok m)) => (go t m, some 0)

/-- NAMESPACE_MANAGEMENT (R325, R326, R349, R352): create or delete. -/
def execNamespaceManagement (inst cid : Nat) (s : State) : Host.Outcome State Fault Refusal := whenSlices s <|
  .next (s.nvAdmin inst cid 0x0D (fun t c =>
    match bitsOf (c.dw 10) 3 0 with
    | 0 => t.nvWithData c 4096 (fun t1 c1 d =>
        match t1.nsCreate c.slice (2 ^ 40 + c.id) ⟨bitsOf (c1.dw 11) 31 24, d⟩ with
        | (t2, none) => (t2, .wait)
        | (t2, some (.ok nsid)) => (t2, .done { status := 0, dw0 := nsid })
        | (t2, some (.error st)) => (t2, .done (nvFail st)))
    | 1 =>
      if c.nsid = 0xFFFFFFFF then
        let r := (t.nv.ns.map (fun e => e.1)).foldl (fun (acc : State × Nat) x => let y := acc.1.nsDelete x; (y.1, max acc.2 y.2)) (t, 0)
        (r.1, .done (if r.2 = nvDenied then nvRefused else nvFail r.2))
      else
        let r := t.nsDelete c.nsid
        (r.1, .done (if r.2 = nvDenied then nvRefused else nvFail r.2))
    | _ => (t, .done (nvFail nvInvalidField))))

/-- NAMESPACE_ATTACHMENT (R324, R326). -/
def execNamespaceAttachment (inst cid : Nat) (s : State) : Host.Outcome State Fault Refusal := whenSlices s <|
  .next (s.nvAdmin inst cid 0x15 (fun t c =>
    if 1 < bitsOf (c.dw 10) 3 0 then (t, .done (nvFail nvInvalidField))
    else t.nvWithData c 4096 (fun t1 _ d =>
      let r := t1.nsAttach c.nsid (decide (bitsOf (c.dw 10) 3 0 = 0)) (parseCtrlList d)
      (r.1, .done (nvFail r.2)))))

/-- FORMAT_NVM (R342, R352). -/
def execFormatNvm (inst cid : Nat) (s : State) : Host.Outcome State Fault Refusal := whenSlices s <|
  .next (s.nvAdmin inst cid 0x80 (fun t c =>
    let lbaf := bitsOf (c.dw 10) 3 0
    let ses := bitsOf (c.dw 10) 11 9
    let ids := if c.nsid = 0xFFFFFFFF then (t.nv.ns.filter (fun e => e.2.attached.contains inst)).map (fun e => e.1) else [c.nsid]
    if bitsOf (c.dw 10) 8 4 ≠ 0 then (t, .done (nvFail nvFormat))
    else if ids.any (fun x => (t.nv.cmds.any (fun y => decide (y.sq ≠ 0 ∧ y.nsid = x) && y.issued && y.done.isNone))) then (t, .wait)
    else
      let r := ids.foldl (fun (acc : State × Option Nat × List Nat) x =>
        match acc.2.1 with
        | some 0 => (match acc.1.nsFormat c.slice (2 ^ 40 + c.id * 2048 + x) x lbaf ses with
          | (v, r) => (v, r, acc.2.2 ++ [x]))
        | _ => acc) (t, some 0, [])
      match r.2.1 with
      | none => (r.1, .wait)
      | some 0 => (r.1, .done nvOk)
      | some st => (r.1, .done (if st = nvDenied then nvRefused else nvFail st))))

/-! Device self-test (R345 to R348). -/

/-- Start, or stop, a self-test. -/
def execDeviceSelfTest (inst cid : Nat) (s : State) : Host.Outcome State Fault Refusal := whenSlices s <|
  .next (s.nvAdmin inst cid 0x14 (fun t c =>
    let code := bitsOf (c.dw 10) 3 0
    match t.nv.test with
    | some x =>
      if code = 15 then
        ({ (((t.setFld F.NVME_SELFTEST_KIND 0).setFld F.NVME_SELFTEST_PERCENT 0).setFld F.NVME_SELFTEST_SEGMENT 0) with
           nv.test := none, nv.tests := ((16 * x.code + 1, 0, x.nsid, t.powerHours) :: t.nv.tests).take 20 }, .done nvOk)
      else if code = 1 ∨ code = 2 then (t, .done (nvFail nvTestRunning))
      else (t, .done (nvFail nvInvalidField))
    | none =>
      if code = 15 then (t, .done nvOk)
      else if code ≠ 1 ∧ code ≠ 2 then (t, .done (nvFail nvInvalidField))
      else if c.nsid ≠ 0 ∧ c.nsid ≠ 0xFFFFFFFF ∧ (t.ns? c.nsid).isNone then (t, .done (nvFail nvInvalidNs))
      else
        let x : SelfTest := { code := code, inst := inst, nsid := c.nsid, segment := 1, began := t.time.mono }
        (({ t with nv.test := some x }.setFld F.NVME_SELFTEST_KIND code).setFld F.NVME_SELFTEST_SEGMENT 1, .done nvOk)))

/-- Steps of a segment (R346): one for each ONLINE pair, one for each die, one otherwise. -/
def State.testSteps (s : State) (seg : Nat) : Nat :=
  if seg = 2 then ((List.range 40).filter (fun x => decide (s.pairState (x / 10) (x % 10) = pairOnline))).length
  else if seg = 4 then s.usableDies else 1

/-- Does a host command wait for the resource of the step (R347): a pair, or a die? -/
def State.testBlocked (s : State) (seg step : Nat) : Bool :=
  if seg = 2 then
    let k := ((List.range 40).filter (fun x => decide (s.pairState (x / 10) (x % 10) = pairOnline))).getD step 0 / 10
    s.arb.waiting.any (fun r => decide (r.point = .cipher ∧ r.slice = k))
  else if seg = 4 then
    let d := (((List.range 4).map (fun k => (s.onlineDies k).map (fun x => (k, x)))).flatten).getD step (0, 0)
    s.flash.reads.any (fun r => decide (r.slice = d.1 ∧ locDie r.loc = d.2 ∧ r.use = .host))
  else if seg = 6 then s.flash.reads.any (fun r => decide (r.use = .host))
  else false

/-- SELFTEST_STEP (R346 to R348): a step runs where no host command waits; `pass` is its check, and `waitNs` how long a host command that
arrived during it waited, if one did. The percentage shown is left free. -/
def execSelftestStep (pass : Bool) (waitNs : Option Nat) (s : State) : Host.Outcome State Fault Refusal := whenSlices s <|
  match s.nv.test with
  | none => .next s
  | some t =>
    if s.testBlocked t.segment t.step then .next s
    else
      let s1 := match waitNs with
        | some n => (s.incFld F.NVME_SELFTEST_YIELDS).peakFld F.NVME_SELFTEST_MAX_DELAY (min n 200000)
        | none => s
      let stop := fun (v : State) (result seg : Nat) =>
        { (((v.setFld F.NVME_SELFTEST_KIND 0).setFld F.NVME_SELFTEST_PERCENT 0).setFld F.NVME_SELFTEST_SEGMENT 0) with
          nv.test := none, nv.tests := ((16 * t.code + result, seg, t.nsid, v.powerHours) :: v.nv.tests).take 20 }
      if !pass then
        let s2 := stop s1 7 t.segment
        .next (if t.segment = 7 then s2.raise F.NVME_HUB_INT_STATUS_SELFTEST_FAIL_SEEN R.NVME_HUB_INT_ENABLE else s2)
      else
        let last := if t.code = 1 then 5 else 7
        if t.step + 1 < s1.testSteps t.segment then
          .next ((({ s1 with nv.test := some { t with step := t.step + 1 } } : State).draw).setFld F.NVME_SELFTEST_PERCENT (Config.unstated s1.freeCtr % 100))
        else if t.segment = last then .next (stop s1 0 0)
        else
          .next (((({ s1 with nv.test := some { t with segment := t.segment + 1, step := 0 } } : State).draw).setFld F.NVME_SELFTEST_SEGMENT (t.segment + 1)).setFld
            F.NVME_SELFTEST_PERCENT (Config.unstated s1.freeCtr % 100))

/-- Report Critical Warning bits that have newly been set (R336, R360): to every enabled controller whose Asynchronous Event Configuration asks for
them. -/
def State.warnHosts (s : State) : State :=
  let ctrls := (s.nv.ctrls.filter (fun e => e.2.rdy)).map (fun e => e.1)
  let now := ctrls.foldl (fun a i => a ||| s.criticalWarning i) 0
  let fresh := now - (now &&& s.nv.warned)
  let s1 : State := { s with nv.warned := now }
  if fresh = 0 then s1
  else ctrls.foldl (fun t i =>
    let w := fresh &&& s.criticalWarning i &&& ((t.nvc i).feat 0x0B % 256)
    let t1 := if w &&& 0x1C ≠ 0 then t.nvEvent i 1 0 2 else t
    let t2 := if w &&& 2 ≠ 0 then t1.nvEvent i 1 1 2 else t1
    if w &&& 1 ≠ 0 then t2.nvEvent i 1 2 2 else t2) s1

end Sys2Proof.Machine
end

