-- ==== Sys2Proof/Machine/Function.lean ====
section
/-!
DEFINITION. What stops and resets a PCIe function (R428 to R436) and what is written down about it (R464), shared by the commands of the PCIe
endpoint, the federated endpoint and the instances; and Advanced Error Reporting (R429 to R433).
-/

namespace Sys2Proof.Machine

/-! Loss reports (R464). -/

/-- The records of the work that a stop of instance i cuts short now. -/
def State.cutRecs (s : State) (i : Nat) : List LossRec := s.ringLoss i ++ s.qpLoss i ++ s.nvLoss i

/-- Write down a stop in the instance event log and, when it cut work short, build a loss report, of which the last four are kept (R464). -/
def State.lossReport (s : State) (i cause : Nat) (ev : InstEvent) (recs : List LossRec) : State :=
  if recs.isEmpty then s.instEvent i ev 0
  else
    let x := s.instX i
    let n := x.nextReport + 1
    let r : LossReport := { number := n, cause := cause, time := ts64 s.ftNow, records := recs }
    ((s.setInstX i { x with reports := (r :: x.reports).take 4, nextReport := n }).instEvent i ev n).raiseWith
      F.INST_INT_STATUS_LOSS_REPORT_SEEN R.INST_INT_ENABLE i

/-! Stopping a function (R434). -/

/-- The reads of function i bring no data any more: issued ones keep their PCIe tags and are discarded on arrival; their operations and those
that wait for a tag are over (R434, R435). -/
def State.stopReads (s : State) (i : Nat) (flr : Bool) : State :=
  let mine := s.pcie.reads.filter (fun r => decide (r.fn = i) && !r.discard)
  let grants := s.arb.tagGrants.filter (fun g => decide (g.2.1 = i))
  let s1 := mine.foldl (fun t r => t.giveTag r.slice i) s
  let s2 := grants.foldl (fun t g => t.giveTag g.1 i) s1
  let asks := fun (r : QReq) => match r.work with
    | .tag j _ => decide (j = i)
    | _ => false
  let off := fun (r : HostRead) => if r.fn = i then { r with discard := true, flr := r.flr || flr } else r
  { s2 with arb.tagGrants := s2.arb.tagGrants.filter (fun g => decide (g.2.1 ≠ i)), arb.waiting := s2.arb.waiting.filter (fun r => !asks r),
            pcie.reads := s2.pcie.reads.map off, pcie.arrived := s2.pcie.arrived.filter (fun e => decide (e.1 ≠ i)) }

/-- Everything that clearing Bus Master Enable does to an instance's work where the work is (R150, R289, R339, R434), with the record of it. -/
def State.haltWork (s : State) (i cause : Nat) (ev : InstEvent) : State :=
  let recs := s.cutRecs i
  let s1 := ((s.stopReads i false).stallRings i).qpsDown i St.BUS_MASTER_DISABLED
  let s2 := if s1.isCtrl i then s1.nvStop i else s1
  s2.lossReport i cause ev recs

/-- Send an FE_CONTROL request to the home of bound function i, when it is bound (R315). -/
def State.controlHome (s : State) (i op : Nat) : State :=
  match s.anchorBinding i with
  | some b => if b.state = 1 then s.feSend b 8 (leBytes 8 op) else s
  | none => s

/-- Close the bus-master gate of function i (R428); cause as GATE_CAUSE codes it. -/
def State.closeGate (s : State) (i cause : Nat) : State :=
  if s.on (F.FN_GATE_CLOSED i) then s
  else
    let s1 := (((s.setFld (F.FN_GATE_CLOSED i) 1).setFld (F.FN_GATE_CAUSE i) cause).setFld (F.FN_STATUS_GATE_CLOSED i) 1).setFld
      (F.FN_STATUS_GATE_CAUSE i) cause
    let s2 := (s1.haltWork i 3 .gateClosed).controlHome i 1
    let s3 := if s2.instType i = 4 then s2.setNvc i { s2.nvc i with csts := setBits (s2.nvc i).csts 1 1 1 } else s2
    s3.raiseWith F.PCIE_INT_STATUS_GATE_CLOSED_SEEN R.PCIE_INT_ENABLE i

/-! Pending messages (R422). -/

/-- Send what is pending of function i and no longer held back, each vector once. -/
def State.flushVectors (s : State) (i : Nat) : State :=
  let x := s.fnX i
  if !s.busMaster i then s
  else if x.msixEnable then
    if x.functionMask then s
    else
      let due := s.pcie.pba.filter (fun p => decide (p / 2048 = i) && !(s.msixEntry i (p % 2048)).mask)
      due.foldl (fun t p => t.sendMsix i (p % 2048)) { s with pcie.pba := s.pcie.pba.filter (fun p => !due.contains p) }
  else if x.msiEnable then
    let due := (List.range 32).filter (fun f => bitOf x.msiPending f && !bitOf x.msiMask f)
    due.foldl (fun t f => t.sendMsi i f) (s.setFnX i { x with msiPending := x.msiPending - (due.map (fun f => 2 ^ f)).sum })
  else s

/-! Advanced Error Reporting (R429 to R433). -/

def aerDataLink : Nat := 4
def aerPoisoned : Nat := 12
def aerFlowControl : Nat := 13
def aerTimeout : Nat := 14
def aerUnexpected : Nat := 16
def aerOverflow : Nat := 17
def aerMalformed : Nat := 18
def aerEcrc : Nat := 19
def aerUnsupported : Nat := 20
def aerInternal : Nat := 22

/-- Advisory Non-Fatal Error, of the correctable errors. -/
def aerAdvisory : Nat := 13

/-- Send an error message of function i, as the enables of its PF permit (R431). -/
def State.errMessage (s : State) (i severity : Nat) : State :=
  let p := s.fnX (s.pfOf i)
  let en := if severity = 0 then p.corEn else if severity = 1 then p.nonFatalEn || p.serr else p.fatalEn || p.serr
  if en then s.emit (.aerMsg (s.instLink i) i severity) else s

/-- Log a correctable error in function i, and report it when `report` (R429). -/
def State.aerCor (s : State) (i bit : Nat) (report : Bool) : State :=
  let x := s.fnX i
  let s1 := s.setFnX i { x with corStatus := setBits x.corStatus bit bit 1, devStatus := setBits x.devStatus 0 0 1 }
  if report && !bitOf (s.fnX (s.pfOf i)).corMask bit then s1.errMessage i 0 else s1

/-- Record the header of the first unmasked uncorrectable error (R430). -/
def FnX.noteHeader (x : FnX) (bit : Nat) (header : List Nat) : FnX :=
  match x.firstErr with
  | none => { x with firstErr := some (bit, header) }
  | some _ => x

/-- Log an uncorrectable error in function i: its status bit, the header of the first unmasked one and, when `report`, its message. One that R433
makes advisory is reported as a correctable error while its severity is non-fatal. -/
def State.aerUnc (s : State) (i bit : Nat) (header : List Nat) (advisory report : Bool) : State :=
  let p := s.fnX (s.pfOf i)
  let masked := bitOf p.uncMask bit
  let fatal := bitOf p.uncSev bit
  let x := s.fnX i
  let x1 := { x with uncStatus := setBits x.uncStatus bit bit 1, devStatus := if bit = aerUnsupported then setBits x.devStatus 3 3 1 else x.devStatus }
  if advisory && !fatal then
    let x2 := if !masked && !bitOf p.corMask aerAdvisory then x1.noteHeader bit header else x1
    (s.setFnX i x2).aerCor i aerAdvisory (report && !masked)
  else
    let dev := setBits x1.devStatus (if fatal then 2 else 1) (if fatal then 2 else 1) 1
    let s1 := s.setFnX i { (if masked then x1 else x1.noteHeader bit header) with devStatus := dev }
    let s2 := if fatal then s1.raiseWith F.PCIE_INT_STATUS_FATAL_SEEN R.PCIE_INT_ENABLE i else s1
    if report && !masked then s2.errMessage i (if fatal then 2 else 1) else s2

/-- The PFs that a link carries, in ascending order; the first is the link's function 0 (R412). -/
def State.linkPfs (s : State) (l : Nat) : List Nat := (List.range 8).filter (fun p => decide (s.pcie.pfLink.getD p 0 = l) && decide (s.instType p ≠ 0))

/-- An error of the link, logged in every PF of it and reported once by its function 0 (R429). -/
def State.linkError (s : State) (l : Nat) (f : State → Nat → Bool → State) : State :=
  let pfs := s.linkPfs l
  pfs.foldl (fun t p => f t p (decide (pfs.head? = some p))) s

/-! Function Level Reset (R435, R436, R447). -/

/-- The n bytes of register space from a return to their reset values. -/
def State.clearRegs (s : State) (a n : Nat) : State := { s with regs := Map.eraseIf (fun x _ => decide (a ≤ x ∧ x < a + n)) s.regs }

/-- Free the intake slot (R511, R512); MGMT_SLOT then shows no holder. -/
def State.freeIntake (s : State) : State := { s with mgmt.holder := none }.wr R.MGMT_SLOT 0

/-- The Annex is reset (R447): a waiting command is dropped, a running one will be discarded when it ends, a finished one frees the slot. -/
def State.annexReset (s0 : State) : State :=
  let s : State := { s0 with boot.rcv := {} }
  let done := decide (s.fld F.ANX_STATUS_STATE = 3)
  let s1 := s.clearRegs R.ANX_OPCODE 0x1000
  let s2 : State := { s1 with mgmt.queue := s1.mgmt.queue.filter (fun c => decide (c.route ≠ 2)) }
  match s2.mgmt.holder with
  | some h =>
    if h.cmd.route ≠ 2 then s2.updateInta 0
    else if done then State.updateInta { s2.freeIntake with pcie.annex := {} } 0
    else State.updateInta { s2 with pcie.annex.discarded := true } 0
  | none => s2.updateInta 0

/-- The VFs of PF p (R449). -/
def State.vfsOf (s : State) (p : Nat) : List Nat :=
  if 8 ≤ p then [] else (List.range (s.pcie.vfs.getD p 0)).map (fun v => 8 + (s.pcie.vfs.take p).sum + v)

/-- A function and, with a PF, its VFs. -/
def State.withVfs (s : State) (i : Nat) : List Nat := i :: s.vfsOf i

/-- A Controller Level Reset of an NVMe controller: its registers and features return to their reset values, its counts stay (R339, R347). -/
def State.nvReset (s : State) (i : Nat) : State :=
  let s1 := (s.nvStop i).nvTestReset i
  let c := s1.nvc i
  s1.setNvc i { errs := c.errs, errCount := c.errCount, changedNs := c.changedNs, changedZones := c.changedZones, readBlocks := c.readBlocks,
                writeBlocks := c.writeBlocks, hostReads := c.hostReads, hostWrites := c.hostWrites }

/-- What a reset does to an instance's objects where they are (R150, R289, R290, R339, R435), with the loss report. -/
def State.resetWork (s : State) (i cause : Nat) : State :=
  let recs := s.cutRecs i
  let s1 := ((s.stopReads i true).qpsDown i St.FUNCTION_RESET).resetRings i
  let rv := s1.revokeAll i
  let s2 := if rv.1.isCtrl i then rv.1.nvReset i else rv.1
  s2.lossReport i cause .flr (recs ++ rv.2)

/-- Send FLR to the home of a bound function, and wait 50 ms for FLR_DONE (R315). -/
def State.flrHome (s : State) (i : Nat) : State :=
  match s.anchorBinding i with
  | some b =>
    if b.state = 1 then
      let s1 := s.feSend b 8 (leBytes 8 3)
      match s1.anchorBinding i with
      | some b1 => s1.setBinding { b1 with flrSent := some s1.time.mono }
      | none => s1
    else s
  | none => s

/-- Reset one function (R435); cause 1 for Function Level Reset, 4 for a link reset. One that is being reset is left. -/
def State.resetOne (s : State) (cause i : Nat) : State :=
  if (s.fnX i).flrSince.isSome ∨ s.instType i = 0 then s
  else
    let s1 := s.setFnX i { s.fnX i with bme := false, intDisable := true, flrSince := some s.time.mono }
    ((s1.resetWork i cause).flrHome i).updateInta i

/-- Reset functions, with the VFs of the PFs among them (R436). -/
def State.resetFunctions (s : State) (cause : Nat) (l : List Nat) : State :=
  let s1 := (l.map s.withVfs).flatten.foldl (fun t i => t.resetOne cause i) s
  if l.contains 0 then s1.annexReset else s1

/-- A function's configuration space, MSI-X table, pending bits, function page and gate take their reset values (R435). -/
def State.functionFresh (s : State) (i : Nat) : State :=
  let s1 := { s with pcie.msix := Map.eraseIf (fun x _ => decide (x / 2048 = i)) s.pcie.msix, pcie.pba := s.pcie.pba.filter (fun p => decide (p / 2048 ≠ i)) }
  (((if i < 8 then s1.clearRegs (R.FN_STATUS i) 0x1000 else s1).setFnX i {}).openGate i).updateInta i

end Sys2Proof.Machine
end

