-- ==== Sys2Proof/Machine/Fed.lean ====
section
/-!
DEFINITION. The federation: membership, moves, heartbeats, the election of a master, Fabric Time distribution and the federation epoch
(chapter 10: R302, R306, R308 to R311, R314, R316 to R321).
-/

namespace Sys2Proof.Machine

/-! Routes (R306). -/

/-- The port of the dimension-ordered path from device d to f: ring hops, then X, then Y; a distance of 2 goes up, or in the positive
direction. -/
def orderedPort (d f : Nat) : Nat :=
  let dir := fun (p a b : Nat) => if (b + 4 - a) % 4 = 3 then p + 1 else p
  if fedShelf d ≠ fedShelf f then dir 4 (fedShelf d) (fedShelf f)
  else if fedX d ≠ fedX f then dir 0 (fedX d) (fedX f)
  else dir 2 (fedY d) (fedY f)

/-- Has device d a link on port p, by the link map? -/
def hasLink (links : List Nat) (d p : Nat) : Bool := bitOf (links.getD d 0) p

/-- Does every link of the dimension-ordered path from d to f exist? A path has at most 6 hops. -/
def orderedPath (links : List Nat) : Nat → Nat → Nat → Bool
  | 0, d, f => decide (d = f)
  | n + 1, d, f => if d = f then true else hasLink links d (orderedPort d f) && orderedPath links n (klPeer d (orderedPort d f)) f

/-- The route of device d to f (R306): LOCAL, the dimension-ordered port, or, when a link of that path is missing, a detour or UNREACHABLE, as
draw n chooses among the ports that have a link. -/
def routeOf (links : List Nat) (members d f n : Nat) : Nat :=
  if f = d then 6
  else if !bitOf members f then 7
  else if orderedPath links 6 d f then orderedPort d f
  else
    let l := 7 :: (List.range 6).filter (hasLink links d)
    l.getD (Config.unstated n % l.length) 7

/-- The KL_ROUTE table that device d computes for a move (R306, R309). -/
def routesOf (links : List Nat) (members d n : Nat) : List Nat := (List.range 64).map (fun f => routeOf links members d f (n + f))

/-- The ports of this device whose link is ACTIVE. -/
def State.ownLinks (s : State) : Nat := ((List.range 6).map (fun p => if s.klState p = klActive then 2 ^ p else 0)).sum

/-- Put a FED_MGMT message on a port, to a device that KL_ROUTE does not reach yet. -/
def State.fedSendBy (s : State) (port dest kind : Nat) (fields : List Nat) (reply : Bool) : State :=
  if 6 ≤ port then s
  else
    let p : KPkt := { typ := 11, vc := klVc s.fedId port none (if reply then 2 else 0), cls := s.unitClass 29, dest := dest, src := s.fedId,
                      payload := fedBytes kind fields }
    s.setLink port { s.link port with outQ := (s.link port).outQ ++ [(p, false)] }

/-- The IDs in a member set. -/
def idsOf (set : Nat) : List Nat := (List.range 64).filter (bitOf set)

/-- Send a message to every device of a set but this one. -/
def State.fedSendAll (s : State) (set kind : Nat) (fields : List Nat) : State :=
  ((idsOf set).filter (fun f => decide (f ≠ s.fedId))).foldl (fun t f => t.fedSend f kind fields false) s

/-! Bindings whose other end is lost (R314). -/

/-- The home of a binding is lost: the anchor's side goes to DETACHED, and what host reads still bring for it is discarded (R314). -/
def State.homeLost (s : State) (b : FeBinding) : State :=
  let s1 := s.setBinding { b with state := 2, held := [], gapSince := none, flrSent := none }
  let mine := fun (p : KPkt) => decide ((fePktInsts p).1 = b.anchorInst)
  let s2 := { s1 with fe.serving := s1.fe.serving.filter (fun p => !mine p), fe.inbox := s1.fe.inbox.filter (fun p => !mine p || decide (p.src ≠ b.peer)),
                      pcie.reads := s1.pcie.reads.map (fun (r : HostRead) => if r.fn = b.anchorInst then { r with discard := true } else r),
                      pcie.arrived := s1.pcie.arrived.filter (fun e => decide (e.1 ≠ b.anchorInst)) }
  (s2.instEvent b.anchorInst .homeLost b.peer).raiseWith F.FE_INT_STATUS_HOME_LOST_SEEN R.FE_INT_ENABLE b.anchorInst

/-- The anchor of a binding is lost: the home's rings and queue pairs enter ERROR, its storage commands end without completions, and a
loss report says what was cut short (R314, R464). -/
def State.anchorLost (s : State) (b : FeBinding) : State :=
  let recs := s.cutRecs b.homeInst
  let s1 := s.setBinding { b with state := 2, held := [], gapSince := none }
  let s2 := (s1.errorRings b.homeInst St.FED_ANCHOR_LOST).qpsDown b.homeInst St.FED_ANCHOR_LOST
  let s3 := if s2.isCtrl b.homeInst then s2.nvStop b.homeInst else s2
  (s3.lossReport b.homeInst 5 .anchorLost recs).raiseWith F.FE_INT_STATUS_ANCHOR_LOST_SEEN R.FE_INT_ENABLE b.homeInst

/-- The other end of a binding has left the federation or cannot be reached (R314). -/
def State.bindingLost (s : State) (b : FeBinding) : State :=
  if b.state ≠ 1 then s else if b.anchor then s.homeLost b else s.anchorLost b

/-- The bindings whose other end p holds of are lost. -/
def State.bindingsLost (s : State) (p : Nat → Bool) : State := (s.fe.bindings.filter (fun b => p b.peer)).foldl (fun t b => t.bindingLost b) s

/-- Reselect the time source when membership has changed which source is the primary (R316, R317). -/
def State.reselectFrom (s old : State) : State := if s.primKey = old.primKey then s else s.reselect

/-- The device returns to ALONE: every binding and route is dropped (R308). -/
def State.goAlone (s : State) : State :=
  let s1 := s.bindingsLost (fun _ => true)
  let s2 := (List.range 64).foldl (fun (t : State) f => t.setFld (F.KL_ROUTE f) 7) s1
  let s3 := (((((s2.setFld F.FED_STATE_STATE fedAlone).setFld F.FED_STATE_MOVING 0).setFld F.FED_MASTER_SELF 0).setFld F.FED_MASTER_ID 0).setFld
    F.FED_MEMBERS 0).setFld F.FED_EPOCH_EPOCH 0
  let s4 : State := { s3 with fe.bindings := [], fed.move := none, fed.raising := none, fed.roster := [], fed.gen := 0, fed.claim := none,
                              fed.aloneSince := s3.time.mono, fed.retryAt := none, fed.eligibleSet := 0, fed.linkMap := [] }
  (s4.setFld F.FE_BINDINGS 0).reselectFrom s

/-! Moves (R309). -/

/-- Cancel a pending raise of the epoch; the master that made it says so (R320). -/
def State.abortRaise (s : State) : State :=
  match s.fed.raising with
  | none => s
  | some r =>
    let s1 : State := { s with fed.raising := none }
    if r.mine then (s1.fedSendAll (s1.fld F.FED_MEMBERS) msgEpochAbort [r.epoch]).incFld F.FED_EPOCH_ABORTS else s1

/-- A move begins here, at the master or at a member. -/
def State.takeMove (s : State) (m : MoveMsg) (ready : List Nat) : State :=
  let s1 := s.abortRaise
  let routes := routesOf m.links m.members s1.fedId s1.freeCtr
  let mv : Move := { msg := m, ready := ready, routes := routes }
  let s2 : State := { s1 with fed.gen := m.gen, fed.move := some mv, freeCtr := s1.freeCtr + 64 }
  (s2.setFld F.FED_STATE_MOVING 1).raise F.FED_INT_STATUS_MOVING_SEEN R.FED_INT_ENABLE

/-- What MOVE_BEGIN carries. -/
def moveFields (m : MoveMsg) : List Nat := [m.gen, m.members, m.eligible, m.epoch, m.tSwitch, m.master] ++ m.links

/-- Send MOVE_BEGIN to a device: by KL_ROUTE, or by the route the move gives it. -/
def State.sendMove (s : State) (m : MoveMsg) (routes : List Nat) (f : Nat) : State :=
  if s.fld (F.KL_ROUTE f) ≠ 7 then s.fedSend f msgMoveBegin (moveFields m) false else s.fedSendBy (routes.getD f 7) f msgMoveBegin (moveFields m) false

/-- The members the master now plans with: those of the move in progress, else the federation's. -/
def State.plannedMembers (s : State) : Nat :=
  match s.fed.move with
  | some mv => mv.msg.members
  | none => s.fld F.FED_MEMBERS

/-- The roster's record of a member. -/
def State.member? (s : State) (f : Nat) : Option Member := s.fed.roster.find? (fun m => decide (m.id = f))

/-- The master starts a move to the member set given, from what its roster says (R309, R319, R321). -/
def State.startMove (s : State) (members : Nat) : State :=
  let rost := s.fed.roster.filter (fun m => bitOf members m.id)
  let links := (List.range 64).map (fun f => if f = s.fedId then s.ownLinks else ((rost.find? (fun m => decide (m.id = f))).map Member.links).getD 0)
  let elig := ((rost.filter (fun m => m.eligible)).map (fun m => 2 ^ m.id)).sum
  let epoch := (rost.map Member.own).foldl min s.fedEpoch
  let m : MoveMsg := ⟨(s.fed.gen + 1) % 2 ^ 32, members, links, elig, epoch, s.time.units + 10 * 8000000, s.fedId⟩
  let s1 := s.takeMove m [s.fedId]
  let routes := (s1.fed.move.map Move.routes).getD []
  ((List.range 64).filter (fun f => (bitOf members f || bitOf (s.fld F.FED_MEMBERS) f) && decide (f ≠ s.fedId))).foldl
    (fun t f => t.sendMove m routes f) s1

/-- The set without one ID. -/
def without (set f : Nat) : Nat := if bitOf set f then set - 2 ^ f else set

/-- The set with one ID more. -/
def withId (set f : Nat) : Nat := if bitOf set f then set else set + 2 ^ f

/-- Install a move at T_SWITCH (R309): the routes, the members, the master and the epoch; bindings to devices that are gone are lost. -/
def State.installMove (s : State) (mv : Move) : State :=
  let m := mv.msg
  if !bitOf m.members s.fedId then
    let s1 := if s.fedState = fedLeaving then (List.range 6).foldl (fun t p => t.klEnable p false) s else s
    s1.goAlone
  else
    let s1 := (List.range 64).foldl (fun (t : State) f => t.setFld (F.KL_ROUTE f) (mv.routes.getD f 7)) s
    let s2 := ((((s1.setFld F.FED_MEMBERS m.members).setFld F.FED_MASTER_ID m.master).setFld F.FED_MASTER_SELF (b2n (m.master = s.fedId))).setFld
      F.FED_EPOCH_EPOCH m.epoch).setFld F.FED_STATE_MOVING 0
    let s3 := (if s2.fedState = fedJoining then s2.setFld F.FED_STATE_STATE fedMember else s2).incFld F.FED_MOVES
    let up := mv.routes.getD m.master 7
    let changed := decide (up ≠ s.fld F.FED_TIME_STATUS_UPSTREAM ∨ m.master ≠ s.fld F.FED_MASTER_ID)
    let s4 := s3.setFld F.FED_TIME_STATUS_UPSTREAM up
    let s5 : State := { s4 with fed.move := none, fed.eligibleSet := m.eligible, fed.linkMap := m.links, fed.lastBeat := s4.time.mono,
                                fed.lastSync := if changed then s4.time.mono else s4.fed.lastSync,
                                fed.roster := s4.fed.roster.filter (fun x => bitOf m.members x.id) }
    (s5.bindingsLost (fun f => decide (mv.routes.getD f 7 = 7))).reselectFrom s

/-! Joining and leaving (R302, R308, R310, R321). -/

/-- Ask the master behind a link to be admitted. -/
def State.askJoin (s : State) (p : Nat) : State :=
  let l := s.link p
  ((s.fedSendBy p l.peerMaster msgJoinReq [s.fedId, s.ownEpoch, s.ownLinks, b2n s.fed.eligible] false).setFld F.FED_STATE_STATE fedJoining)

/-- LINK_CAPS (R301, R302, R308, R310): the peer's capabilities and proof arrive in NEGOTIATE; the link becomes ACTIVE or refuses. -/
def execLinkCaps (port : Nat) (caps : PeerCaps) (s : State) : Host.Outcome State Fault Refusal := whenSlices s <|
  if !(klPort port && decide (s.klState port = klNegotiate)) then .next s
  else
    let s0 := match s.linkKey with
      | some key => s.emit (.linkMsg port (linkProof key (s.link port).nonce caps.nonce s.fedId (if s.fedId < caps.fed then 0 else 1)))
      | none => s
    match s0.capsRefuse port caps with
    | some r => .next (((s0.setFld (F.KL_STATE_REFUSE port) r).setKl port klRefused).raiseWith F.KL_INT_STATUS_REFUSED_SEEN R.KL_INT_ENABLE port)
    | none =>
      let s1 := s0.linkUpNow port caps
      if s1.fedState = fedAlone ∧ caps.member ∧ s1.on F.FED_ID_VALID then .next (s1.askJoin port)
      else if s1.isMaster ∧ caps.member ∧ caps.master ≠ s1.fedId ∧ caps.master < s1.fedId then .next (s1.dissolveAll.goAlone)
      else .next s1

/-- JOIN_REQ (R308, R309, R321): the master admits the device by a move, or refuses it. -/
def execJoinReq (src own links : Nat) (eligible : Bool) (s : State) : Host.Outcome State Fault Refusal := whenSlices s <|
  if !s.isMaster ∨ 64 ≤ src then .next s
  else
    let lm := (s.fed.linkMap ++ List.replicate (64 - s.fed.linkMap.length) 0).set src links
    let back := routeOf lm (withId (s.fld F.FED_MEMBERS) src) s.fedId src s.freeCtr
    let refuse := fun (r : Nat) => Host.Outcome.next (s.draw.fedSendBy back src msgJoinRefuse [r] true)
    let epochs := s.ownEpoch :: (s.fed.roster.filter (fun m => bitOf s.plannedMembers m.id)).map Member.own
    if src = s.fedId ∨ bitOf (s.fld F.FED_MEMBERS) src then refuse 3
    else if epochs.any (fun e => decide (e + 2 ≤ own ∨ own + 2 ≤ e)) then refuse 4
    else
      let m : Member := { id := src, own := own, links := links, eligible := eligible }
      let s1 : State := { s with fed.roster := s.fed.roster.filter (fun x => decide (x.id ≠ src)) ++ [m] }
      .next (s1.startMove (withId s1.plannedMembers src))

/-- JOIN_REFUSE (R308). -/
def execJoinRefuse (_reason : Nat) (s : State) : Host.Outcome State Fault Refusal := whenSlices s <|
  if s.fedState ≠ fedJoining then .next s
  else
    let s1 := ((s.satFld F.FED_JOIN_REFUSED 1).raise F.FED_INT_STATUS_JOIN_REFUSED_SEEN R.FED_INT_ENABLE).setFld F.FED_STATE_STATE fedAlone
    .next { s1 with fed.retryAt := some (s1.time.mono + 10 * ticksPerSec), fed.aloneSince := s1.time.mono }

/-- A port whose link is ACTIVE with a member. -/
def State.memberPort (s : State) : Option Nat := (List.range 6).find? (fun p => decide (s.klState p = klActive) && (s.link p).peerMember)

/-- FED_ALONE_TIMEOUT (R308): an eligible device without a member's link becomes master of a federation of one. -/
def execFedAloneTimeout (s : State) : Host.Outcome State Fault Refusal := whenSlices s <|
  if s.fedState ≠ fedAlone ∨ !s.on F.FED_ID_VALID ∨ !s.fed.eligible ∨ s.memberPort.isSome ∨ s.time.mono < s.fed.aloneSince + 2 * ticksPerSec then .next s
  else
    let me : Member := { id := s.fedId, own := s.ownEpoch, links := s.ownLinks, eligible := true }
    let s1 := (((((s.setFld F.FED_STATE_STATE fedMember).setFld F.FED_MASTER_ID s.fedId).setFld F.FED_MASTER_SELF 1).setFld F.FED_MEMBERS
      (2 ^ s.fedId)).setFld F.FED_EPOCH_EPOCH s.ownEpoch).setFld (F.KL_ROUTE s.fedId) 6
    let s2 : State := { s1 with fed.roster := [me], fed.eligibleSet := 2 ^ s.fedId, fed.lastBeat := s1.time.mono,
                                fed.linkMap := (List.range 64).map (fun f => if f = s.fedId then s.ownLinks else 0) }
    .next (s2.reselectFrom s)

/-- FED_JOIN_RETRY (R308): 10 s after a refusal. -/
def execFedJoinRetry (s : State) : Host.Outcome State Fault Refusal := whenSlices s <|
  match s.fed.retryAt, s.memberPort with
  | some t, some p => if s.fedState = fedAlone ∧ t ≤ s.time.mono then .next ({ s with fed.retryAt := none }.askJoin p) else .next s
  | _, _ => .next s

/-- FED_LEAVE (R308): the LEAVE command. -/
def execFedLeave (s : State) : Host.Outcome State Fault Refusal := whenSlices s <|
  .next (s.mgmtRun 0x0601 (fun t _ =>
    if t.fedState ≠ fedMember then t.refuseOpen
    else ((t.fedSend (t.fld F.FED_MASTER_ID) msgLeaveReq [t.fedId] false).setFld F.FED_STATE_STATE fedLeaving, some (mkReply 0 [] 0))))

/-- LEAVE_REQ (R308, R309). -/
def execLeaveReq (src : Nat) (s : State) : Host.Outcome State Fault Refusal := whenSlices s <|
  if s.on F.FED_MASTER_SELF && decide (s.fedState = fedMember ∨ s.fedState = fedLeaving) && bitOf s.plannedMembers src then
    .next (s.startMove (without s.plannedMembers src))
  else .next s

/-- DISSOLVE (R308, R310): the master dissolves the federation. -/
def execDissolve (src : Nat) (s : State) : Host.Outcome State Fault Refusal := whenSlices s <|
  if s.fedState = fedMember ∧ src = s.fld F.FED_MASTER_ID ∧ src ≠ s.fedId then .next s.goAlone else .next s

/-- MOVE_BEGIN (R306, R309, R320): a member computes its routes and answers MOVE_READY; a lower generation is ignored. -/
def execMoveBegin (m : MoveMsg) (s : State) : Host.Outcome State Fault Refusal := whenSlices s <|
  if s.fedState = fedAlone ∨ s.isMaster ∨ m.gen < s.fed.gen then .next s
  else
    let s1 := s.takeMove m []
    let routes := (s1.fed.move.map Move.routes).getD []
    if s1.fld (F.KL_ROUTE m.master) ≠ 7 then .next (s1.fedSend m.master msgMoveReady [s1.fedId, m.gen] true)
    else .next (s1.fedSendBy (routes.getD m.master 7) m.master msgMoveReady [s1.fedId, m.gen] true)

/-- MOVE_READY (R309): the master notes a member's answer, when it comes by T_SWITCH − 1 ms. -/
def execMoveReady (src gen : Nat) (s : State) : Host.Outcome State Fault Refusal := whenSlices s <|
  match s.fed.move with
  | none => .next s
  | some mv =>
    if mv.msg.master ≠ s.fedId ∨ gen ≠ mv.msg.gen ∨ mv.msg.tSwitch < s.time.units + 8000000 ∨ mv.ready.contains src then .next s
    else .next { s with fed.move := some { mv with ready := mv.ready ++ [src] } }

/-- The members of a set are declared lost by the master (R309, R310). -/
def State.declareLost (s : State) (set : Nat) : State :=
  let s1 := s.raise F.FED_INT_STATUS_MEMBER_LOST_SEEN R.FED_INT_ENABLE
  s1.startMove ((idsOf set).foldl without s1.plannedMembers)

/-- MOVE_SWITCH (R309, R314, R316, R321): at T_SWITCH the routes are installed; the master with unready members at T_SWITCH − 1 ms starts a
new move without them. -/
def execMoveSwitch (s : State) : Host.Outcome State Fault Refusal := whenSlices s <|
  match s.fed.move with
  | none => .next s
  | some mv =>
    let late := (idsOf mv.msg.members).filter (fun f => !mv.ready.contains f)
    if mv.msg.master = s.fedId ∧ late ≠ [] then
      if mv.msg.tSwitch ≤ s.time.units + 8000000 then .next (s.declareLost ((late.map (fun f => 2 ^ f)).sum)) else .next s
    else if mv.msg.tSwitch ≤ s.time.units then .next (s.installMove mv) else .next s

/-! Heartbeats and the election (R310). -/

/-- HEARTBEAT_TIMER (R310): every 10 ms the master counts missed answers, declares lost a member that missed three, and sends HEARTBEAT; a
change of its own links is a move. -/
def execHeartbeatTimer (s : State) : Host.Outcome State Fault Refusal := whenSlices s <|
  if !(s.on F.FED_MASTER_SELF && decide (s.fedState = fedMember ∨ s.fedState = fedLeaving)) ∨ s.time.mono < s.fed.lastBeat + 10 * ticksPerMs then .next s
  else
    let here := fun (m : Member) => bitOf (s.fld F.FED_MEMBERS) m.id && decide (m.id ≠ s.fedId)
    let miss := s.fed.roster.map (fun (m : Member) => if here m && !m.answered then { m with missed := m.missed + 1 } else { m with missed := 0 })
    let lost := miss.filter (fun m => here m && decide (3 ≤ m.missed))
    let relinked := decide (((s.member? s.fedId).map Member.links).getD 0 ≠ s.ownLinks)
    let roster := miss.map (fun (m : Member) => if m.id = s.fedId then { m with links := s.ownLinks } else { m with answered := false })
    let s1 : State := { s with fed.roster := roster, fed.lastBeat := s.time.mono }
    let s2 := s1.satFld F.FED_HB_MISS lost.length
    let s3 := if lost ≠ [] then s2.declareLost ((lost.map (fun m => 2 ^ m.id)).sum)
      else if relinked then s2.startMove s2.plannedMembers else s2
    .next (s3.fedSendAll ((idsOf (s.fld F.FED_MEMBERS)).foldl (fun a f => if lost.any (fun m => decide (m.id = f)) then a else a + 2 ^ f) 0) msgHeartbeat [s.fedId])

/-- HEARTBEAT (R310): a member answers with its OWN_EPOCH and state. -/
def execHeartbeat (src : Nat) (s : State) : Host.Outcome State Fault Refusal := whenSlices s <|
  if (s.fedState = fedMember ∨ s.fedState = fedLeaving) ∧ src = s.fld F.FED_MASTER_ID ∧ src ≠ s.fedId then
    .next ({ s with fed.lastBeat := s.time.mono }.fedSend src msgHeartbeatAnswer
      [s.fedId, s.ownEpoch, s.fedState, (s.rd R.BOOT_STATUS).toNat, s.ownLinks, b2n s.fed.eligible] true)
  else .next s

/-- When every member reports OWN_EPOCH one above the federation epoch, the master begins to raise it (R320). -/
def State.maybeRaise (s : State) : State :=
  let e := s.fedEpoch + 1
  if s.fed.move.isSome ∨ s.fed.raising.isSome ∨ s.ownEpoch ≠ e ∨ s.fed.roster.any (fun m => decide (m.own ≠ e)) then s
  else
    let t := s.time.units + 100 * 8000000
    { s with fed.raising := some ⟨e, t, true, [s.fedId]⟩ }.fedSendAll (s.fld F.FED_MEMBERS) msgEpochRaise [e, t]

/-- HEARTBEAT_ANSWER (R309, R310, R320): the master notes a member's epoch and state; a change of its links is a move. -/
def execHeartbeatAnswer (src own boot links : Nat) (eligible : Bool) (s : State) : Host.Outcome State Fault Refusal := whenSlices s <|
  if !s.isMaster ∨ src = s.fedId then .next s
  else match s.member? src with
    | none => .next s
    | some old =>
      let new : Member := { id := src, own := own, boot := boot, links := links, eligible := eligible, answered := true, missed := 0 }
      let s1 : State := { s with fed.roster := s.fed.roster.map (fun (m : Member) => if m.id = src then new else m) }
      .next (if old.links ≠ links ∨ old.eligible ≠ eligible then s1.startMove s1.plannedMembers else s1.maybeRaise)

/-- The lowest of the claims seen within the window. -/
def State.noteClaim (s : State) (id : Nat) : State :=
  match s.fed.claim with
  | none => { s with fed.claim := some (id, s.time.mono) }
  | some (c, t) => { s with fed.claim := some (min c id, t) }

/-- MASTER_LOSS (R310): three heartbeats missed; the member claims for the lowest eligible member it can still reach. -/
def execMasterLoss (s : State) : Host.Outcome State Fault Refusal := whenSlices s <|
  if s.fedState ≠ fedMember ∨ s.isMaster ∨ s.time.mono < s.fed.lastBeat + 30 * ticksPerMs then .next s
  else
    let old := s.fld F.FED_MASTER_ID
    let s1 : State := { s with fed.lastBeat := s.time.mono }
    match (idsOf s.fed.eligibleSet).find? (fun f => decide (f ≠ old) && (decide (f = s.fedId) || decide (s.fld (F.KL_ROUTE f) ≠ 7))) with
    | none => .next s1
    | some id => .next ((s1.noteClaim id).fedSendAll (without (s.fld F.FED_MEMBERS) old) msgMasterClaim [id])

/-- MASTER_CLAIM (R310). -/
def execMasterClaim (id : Nat) (s : State) : Host.Outcome State Fault Refusal := whenSlices s <|
  if s.fedState = fedMember ∧ id < 64 then .next (s.noteClaim id) else .next s

/-- A member becomes master: its roster is what the last move named (R310). -/
def State.becomeMaster (s : State) (old : Nat) : State :=
  let rec_ := fun (f : Nat) => ({ id := f, own := if f = s.fedId then s.ownEpoch else s.fedEpoch, links := s.fed.linkMap.getD f 0,
                                  eligible := bitOf s.fed.eligibleSet f } : Member)
  let s1 : State := { s with fed.roster := (idsOf (s.fld F.FED_MEMBERS)).map rec_ }
  if old = s.fedId then s1
  else (s1.raise F.FED_INT_STATUS_MEMBER_LOST_SEEN R.FED_INT_ENABLE).startMove (without (s1.fld F.FED_MEMBERS) old)

/-- MASTER_CLAIM_WINDOW_END (R310): 20 ms after the first claim, the lowest is adopted, and the new master makes a move. -/
def execMasterClaimWindowEnd (s : State) : Host.Outcome State Fault Refusal := whenSlices s <|
  match s.fed.claim with
  | none => .next s
  | some (id, t) =>
    if s.time.mono < t + 20 * ticksPerMs then .next s
    else
      let old := s.fld F.FED_MASTER_ID
      let s1 : State := { s with fed.claim := none, fed.lastBeat := s.time.mono }
      let s2 := ((s1.setFld F.FED_MASTER_ID id).setFld F.FED_MASTER_SELF (b2n (id = s.fedId))).raise F.FED_INT_STATUS_MASTER_CHANGED R.FED_INT_ENABLE
      .next ((if id = s.fedId then s2.becomeMaster old else s2).reselectFrom s)

/-! The federation epoch (R319, R320). -/

/-- EPOCH_RAISE (R320): a member answers EPOCH_ACK. -/
def execEpochRaise (epoch tRaise : Nat) (s : State) : Host.Outcome State Fault Refusal := whenSlices s <|
  if s.fedState ≠ fedMember ∨ s.isMaster ∨ epoch ≠ s.fedEpoch + 1 then .next s
  else .next ({ s with fed.raising := some ⟨epoch, tRaise, false, []⟩ }.fedSend (s.fld F.FED_MASTER_ID) msgEpochAck [s.fedId, epoch] true)

/-- EPOCH_ACK (R320). -/
def execEpochAck (src epoch : Nat) (s : State) : Host.Outcome State Fault Refusal := whenSlices s <|
  match s.fed.raising with
  | none => .next s
  | some r =>
    if !r.mine ∨ r.epoch ≠ epoch ∨ r.tRaise < s.time.units + 10 * 8000000 ∨ r.acks.contains src then .next s
    else .next { s with fed.raising := some { r with acks := r.acks ++ [src] } }

/-- EPOCH_ABORT (R320): a member cancels the pending raise. -/
def execEpochAbort (s : State) : Host.Outcome State Fault Refusal := whenSlices s <|
  match s.fed.raising with
  | some r => if r.mine then .next s else .next { s with fed.raising := none }
  | none => .next s

/-- T_RAISE (R320): the raise takes effect, or the master aborts it when an EPOCH_ACK is missing at T_RAISE − 10 ms. -/
def execTRaise (s : State) : Host.Outcome State Fault Refusal := whenSlices s <|
  match s.fed.raising with
  | none => .next s
  | some r =>
    let missing := r.mine && (idsOf (s.fld F.FED_MEMBERS)).any (fun f => !r.acks.contains f)
    if missing then (if r.tRaise ≤ s.time.units + 10 * 8000000 then .next s.abortRaise else .next s)
    else if r.tRaise ≤ s.time.units then
      .next ((({ s with fed.raising := none }.setFld F.FED_EPOCH_EPOCH r.epoch).incFld F.FED_EPOCH_RAISES).raise
        F.FED_INT_STATUS_EPOCH_RAISED R.FED_INT_ENABLE)
    else .next s

/-! Fabric Time distribution (R316 to R318). -/

/-- Send a TIME packet on a port (R304, R318). -/
def State.timeSend (s : State) (port kind : Nat) (fields : List Nat) : State :=
  let p : KPkt := { typ := 9, vc := klVc s.fedId port none 0, cls := s.unitClass 29, dest := klPeer s.fedId port, src := s.fedId,
                    payload := fedBytes (19 + kind) fields, kind := kind }
  s.setLink port { s.link port with outQ := (s.link port).outQ ++ [(p, false)] }

/-- The port towards the master (R316). -/
def State.upstream (s : State) : Option Nat :=
  if s.fedState = fedMember ∧ !s.isMaster then
    (if s.fld (F.KL_ROUTE (s.fld F.FED_MASTER_ID)) < 6 then some (s.fld (F.KL_ROUTE (s.fld F.FED_MASTER_ID))) else none)
  else none

/-- TIME_SYNC_TIMER (R318): 64 times a second, that is every 25,000,000 ticks, a port whose peer takes time from this device sends TIME_SYNC. -/
def execTimeSyncTimer (port : Nat) (s : State) : Host.Outcome State Fault Refusal := whenSlices s <|
  if klPort port && decide (s.klState port = klActive) && decide (s.fedState = fedMember) && decide (s.upstream ≠ some port) &&
      decide ((s.link port).syncAt + 25000000 ≤ s.time.mono) then
    .next ((s.setLink port { s.link port with syncAt := s.time.mono }).timeSend port 1 [s.ftState])
  else .next s

/-- TIME_SYNC (R317, R318): it arrives on the upstream port, is stamped t2 and answered with TIME_DELAY_REQ. -/
def execTimeSync (port ftState : Nat) (s : State) : Host.Outcome State Fault Refusal := whenSlices s <|
  if klPort port && decide (s.upstream = some port) then
    let s1 : State := { s.setLink port { s.link port with t2 := s.time.units } with fed.lastSync := s.time.mono }
    .next ((s1.setFld F.FED_TIME_STATUS_FT_STATE ftState).timeSend port 2 [])
  else .next s

/-- TIME_DELAY_REQ (R318): stamped t4 and answered with t1 and t4. -/
def execTimeDelayReq (port : Nat) (s : State) : Host.Outcome State Fault Refusal := whenSlices s <|
  if klPort port && decide (s.klState port = klActive) then .next (s.timeSend port 3 [(s.link port).t1, s.time.units]) else .next s

/-- The offset and link delay of R318, in units of 0.125 ns. -/
def linkOffset (t1 t2 t3 t4 : Nat) : Int := (((t2 : Int) - t1) - ((t4 : Int) - t3)) / 2
def linkDelay (t1 t2 t3 t4 : Nat) : Int := (((t2 : Int) - t1) + ((t4 : Int) - t3)) / 2

/-- TIME_DELAY_RESP (R316, R318): the offset of R318 is Fabric Time minus the upstream time; R55 takes reference minus Fabric Time. -/
def execTimeDelayResp (port t1 t4 : Nat) (s : State) : Host.Outcome State Fault Refusal := whenSlices s <|
  if klPort port && decide (s.upstream = some port) then
    let l := s.link port
    let adj := signed 16 (s.fld (F.KL_TIME_ADJ port))
    let off := linkOffset t1 l.t2 l.t3 t4 + (if adj = 0 then 0 else Config.timeAdjust adj)
    let s1 := s.setFld F.FED_TIME_STATUS_LINK_DELAY (unsigned 16 (linkDelay t1 l.t2 l.t3 t4 / 8))
    .next (s1.srcMeasure (3, 0) (-off))
  else .next s

end Sys2Proof.Machine
end

