-- ==== Sys2Proof/Machine/Pcie.lean ====
section
/-!
DEFINITION. The commands of the PCIe endpoint: its links, Bus Master Enable, Function Level Reset, power states of functions, interrupts, read
completions and their errors, inbound requests and ATS (R408 to R436, R453, R456, R534, R569).
-/

namespace Sys2Proof.Machine

/-! Links (R408 to R410, R436, R569). -/

def lsDetect : Nat := 1
def lsL0 : Nat := 3
def lsHotReset : Nat := 6

/-- The state of a link. -/
def State.linkState (s : State) (l : Nat) : Nat := s.fld (F.PCIE_LINK_STATE_STATE l)

/-- Is a link trained: in L0, L1 or Recovery? -/
def State.linkTrained (s : State) (l : Nat) : Bool := decide (3 ≤ s.linkState l ∧ s.linkState l ≤ 5)

/-- The full width of a link (R408). -/
def State.linkWidth (s : State) (l : Nat) : Nat :=
  if s.on (if l / 2 = 0 then F.STRAP_STATUS_HA_BIFURCATE else F.STRAP_STATUS_HB_BIFURCATE) then 16 else 8

/-- PCIE_LINK_UP (R409, R424, R569): its PERST_N high and DEV_READY high, a link that carries a PF has trained: to a speed code, a width and Flit
Mode or not, after a number of entries into Recovery. -/
def execPcieLinkUp (link speed width : Nat) (flit : Bool) (recoveries : Nat) (s : State) : Host.Outcome State Fault Refusal := whenUp s <|
  if 4 ≤ link ∨ !s.on F.PIN_STATUS_DEV_READY ∨ s.linkState link = 0 ∨ speed = 0 ∨ 6 < speed ∨ width = 0 ∨ s.linkWidth link < width ∨
      (!flit ∧ speed = 6) then .next s
  else
    let s1 := ((s.setFld (F.PCIE_LINK_STATE_STATE link) lsL0).setFld (F.PCIE_LINK_STATE_SPEED link) speed).setFld (F.PCIE_LINK_STATE_WIDTH link) width
    let s2 := (s1.setFld (F.PCIE_LINK_STATE_FLIT link) (b2n flit)).addFld (F.PCIE_RECOVERIES link) recoveries
    .next { s2 with boot.perstHigh := if s2.boot.perstHigh.contains link then s2.boot.perstHigh else s2.boot.perstHigh ++ [link],
                    power.linkIdle := s2.power.linkIdle.set link s2.time.mono }

/-- A link goes down: every function on it is reset (R436). -/
def State.linkDown (s : State) (l st : Nat) : State :=
  let s1 := (((s.setFld (F.PCIE_LINK_STATE_STATE l) st).setFld (F.PCIE_LINK_STATE_SPEED l) 0).setFld (F.PCIE_LINK_STATE_WIDTH l) 0).setFld
    (F.PCIE_LINK_STATE_FLIT l) 0
  (s1.raiseWith F.PCIE_INT_STATUS_LINK_DOWN_SEEN R.PCIE_INT_ENABLE l).resetFunctions 4 (s1.linkPfs l)

/-- PCIE_LINK_DOWN (R436, R569): by a Hot Reset, by PERST_N falling, or for another reason. -/
def execPcieLinkDown (link : Nat) (hotReset perst : Bool) (s : State) : Host.Outcome State Fault Refusal := whenUp s <|
  if 4 ≤ link ∨ s.linkState link = 0 then .next s
  else
    let s1 : State := if perst then { s with boot.perstHigh := s.boot.perstHigh.filter (fun l => decide (l ≠ link)) } else s
    .next (s1.linkDown link (if hotReset then lsHotReset else lsDetect))

/-! Bus Master Enable, Function Level Reset and D3hot (R434 to R436, R534). -/

/-- Does the host see function i: its instance is present, its link is up and no reset of it is under way (R435)? -/
def State.fnReady (s : State) (i : Nat) : Bool := decide (s.instType i ≠ 0) && (s.fnX i).flrSince.isNone

/-- BUS_MASTER_ENABLE_CLEAR (R434, R315). -/
def execBusMasterEnableClear (inst : Nat) (s : State) : Host.Outcome State Fault Refusal := whenUp s <|
  let x := s.fnX inst
  if s.fnReady inst && x.bme then .next (((s.setFnX inst { x with bme := false }).haltWork inst 2 .bmeCleared).controlHome inst 1)
  else .next s

/-- BUS_MASTER_ENABLE_SET (R434, R422): pending messages are sent, and nothing else resumes. -/
def execBusMasterEnableSet (inst : Nat) (s : State) : Host.Outcome State Fault Refusal := whenUp s <|
  let x := s.fnX inst
  if s.fnReady inst && !x.bme then .next (((s.setFnX inst { x with bme := true }).flushVectors inst).controlHome inst 2)
  else .next s

/-- FUNCTION_LEVEL_RESET (R435, R436, R447). -/
def execFunctionLevelReset (inst : Nat) (s : State) : Host.Outcome State Fault Refusal := whenUp s <|
  if s.fnReady inst then .next (s.resetFunctions 1 [inst]) else .next s

/-- FLR_COMPLETE (R435): the function answers normally again, its link being up and its home's FLR_DONE not awaited any more. -/
def execFlrComplete (inst : Nat) (s : State) : Host.Outcome State Fault Refusal := whenUp s <|
  let waits := match s.anchorBinding inst with
    | some b => b.flrSent.isSome
    | none => false
  if (s.fnX inst).flrSince.isSome && !waits && s.linkTrained (s.instLink inst) then .next (s.functionFresh inst) else .next s

/-- D3HOT_ENTRY (R534): as clearing Bus Master Enable, whose bit stays. -/
def execD3hotEntry (inst : Nat) (s : State) : Host.Outcome State Fault Refusal := whenUp s <|
  let x := s.fnX inst
  if s.fnReady inst && !x.d3hot then .next (((s.setFnX inst { x with d3hot := true }).haltWork inst 2 .bmeCleared).controlHome inst 1)
  else .next s

/-- D3HOT_EXIT (R534): configuration space is kept; messages that were held are sent when Bus Master Enable is set. -/
def execD3hotExit (inst : Nat) (s : State) : Host.Outcome State Fault Refusal := whenUp s <|
  let x := s.fnX inst
  if s.fnReady inst && x.d3hot then
    let s1 := (s.setFnX inst { x with d3hot := false }).flushVectors inst
    .next (if x.bme then s1.controlHome inst 2 else s1)
  else .next s

/-! Interrupts (R421 to R423). -/

/-- INTERRUPT_MODE_WRITE (R422, R423): the host writes Interrupt Disable, MSI Enable and MSI-X Enable. -/
def execInterruptModeWrite (inst : Nat) (intDisable msiEnable msixEnable : Bool) (s : State) : Host.Outcome State Fault Refusal := whenUp s <|
  if s.fnReady inst then
    .next (((s.setFnX inst { s.fnX inst with intDisable := intDisable, msiEnable := msiEnable && decide (inst < 8), msixEnable := msixEnable }).updateInta
      inst).flushVectors inst)
  else .next s

/-- MSIX_UNMASK (R422): the host clears a mask: of MSI-X entry n (0), the function's (1) or of MSI vector n (2). -/
def execMsixUnmask (inst which n : Nat) (s : State) : Host.Outcome State Fault Refusal := whenUp s <|
  if !s.fnReady inst then .next s
  else
    let x := s.fnX inst
    match which with
    | 0 =>
      if vectorCount inst ≤ n then .next s
      else
        let e := s.msixEntry inst n
        let s1 : State := { s with pcie.msix := Map.put (fun _ => {}) s.pcie.msix (2048 * inst + n) { e with mask := false } }
        .next (s1.flushVectors inst)
    | 1 => .next ((s.setFnX inst { x with functionMask := false }).flushVectors inst)
    | _ => if 32 ≤ n then .next s else .next ((s.setFnX inst { x with msiMask := setBits x.msiMask n n 0 }).flushVectors inst)

/-- FN_INTX_PENDING_CLEAR (R418, R423): the host writes FN_INTX_PENDING[w]; ones clear, and INTA may fall. A VF's word reads zero. -/
def execFnIntxPendingClear (inst w : Nat) (value : Word) (s : State) : Host.Outcome State Fault Refusal := whenUp s <|
  if s.fnReady inst && decide (inst < 8 ∧ w < 32) then
    .next ((s.wr (R.FN_INTX_PENDING inst w) (s.rd (R.FN_INTX_PENDING inst w) &&& ~~~ value)).updateInta inst)
  else .next s

/-! Read completions (R424 to R428). -/

/-- Take a read off its link. -/
def State.takeRead (s : State) (r : HostRead) : State :=
  State.showTags { s with pcie.reads := s.pcie.reads.filter (fun x => !decide (x.link = r.link ∧ x.tag = r.tag)) } r.link

/-- Replace a read in the lists of those that an invalidation waits for; none where it has ended (R455, R456). -/
def State.readMoved (s : State) (old : Nat × Nat) (new : Option (Nat × Nat)) : State :=
  let f := fun (l : List (Nat × Nat)) => if l.contains old then l.erase old ++ new.toList else l
  let at1 := s.inst.atsInval.map (fun e => (e.1, e.2.1, f e.2.2))
  let s1 : State := { s with inst.inval := s.inst.inval.map (fun e => (f e.1, e.2)), inst.atsInval := at1.filter (fun e => !e.2.2.isEmpty) }
  (at1.filter (fun e => e.2.2.isEmpty)).foldl (fun t e => t.emit (.atsInvalDone e.1 e.2.1)) s1

/-- The tag that the next read of link l takes. -/
def State.freshTag (s : State) (l : Nat) : Option Nat := s.findTag l (s.pcie.nextTag.getD l 0) 16384

/-- A read that is off its link has failed, cause as GATE_CAUSE codes it (R427, R428): it is reissued whole, or, its reissues exhausted, closes
the function's gate. A discarded read does neither (R434). -/
def State.readFailed (s : State) (r : HostRead) (cause : Nat) : State :=
  if r.discard then s.readMoved (r.link, r.tag) none
  else if r.reissues < s.fld F.PCIE_REISSUE_LIMIT then
    let s1 := s.readMoved (r.link, r.tag) ((s.freshTag r.link).map (fun t => (r.link, t)))
    (s1.issueRead r.slice r.fn r.link r.addr r.len r.translated (r.reissues + 1)).incFld (F.PCIE_REISSUES r.link)
  else ((s.readMoved (r.link, r.tag) none).giveTag r.slice r.fn).closeGate r.fn cause

/-- What a completion of a read is. -/
def cplGood : Nat := 0
def cplUr : Nat := 1
def cplCa : Nat := 2

/-- PCIE_READ_COMPLETION (R424, R426, R427, R433, R435): the completion of tag `tag`, whose requester is `inst`, has arrived whole: status 0 with
its bytes, 1 Unsupported Request, 2 Completer Abort, 3 poisoned; with its header. -/
def execPcieReadCompletion (link tag inst status : Nat) (data : List Byte) (header : List Nat) (s : State) : Host.Outcome State Fault Refusal := whenUp s <|
  match s.pcie.reads.find? (fun r => decide (r.link = link ∧ r.tag = tag)) with
  | none =>
    if 4 ≤ link then .next s
    else .next ((s.incFld (F.PCIE_UNEXP_CPL link)).aerUnc inst aerUnexpected header true true)
  | some r =>
    if r.flr then .next (((s.takeRead r).incFld (F.PCIE_FLR_DISCARD link)).readMoved (link, tag) none)
    else if status = cplGood then
      if data.length ≠ r.len then .next s
      else
        let s1 := (s.takeRead r).readMoved (link, tag) none
        .next (if r.discard then s1
          else { s1.giveTag r.slice r.fn with pcie.arrived := s1.pcie.arrived ++ [(r.fn, r.addr, data)] })
    else
      let s1 := s.takeRead r
      if status = cplUr ∨ status = cplCa then .next ((s1.incFld (F.PCIE_CPL_ERRORS link)).readFailed r (if status = cplUr then 2 else 3))
      else .next (((s1.incFld (F.PCIE_POISON_RX link)).aerUnc r.fn aerPoisoned header false true).readFailed r 4)

/-- COMPLETION_TIMEOUT (R425, R426): the timer of a read has fired. -/
def execCompletionTimeout (link tag : Nat) (s : State) : Host.Outcome State Fault Refusal := whenUp s <|
  match s.pcie.reads.find? (fun r => decide (r.link = link ∧ r.tag = tag)) with
  | none => .next s
  | some r =>
    if s.time.mono < r.due then .next s
    else
      let till := s.time.mono + 4 * ctoTicks (s.fnX (s.pfOf r.fn)).cto
      let s1 : State := { s with pcie.quarantine := s.pcie.quarantine ++ [(link, tag, till)] }
      let s2 := ((s1.takeRead r).aerUnc r.fn aerTimeout [] false true).incFld (F.PCIE_CPL_TIMEOUTS link)
      .next (s2.readFailed r 1)

/-- TAG_QUARANTINE_END (R426): four times the timeout has passed. -/
def execTagQuarantineEnd (link tag : Nat) (s : State) : Host.Outcome State Fault Refusal := whenUp s <|
  let isOver := fun (q : Nat × Nat × Nat) => decide (q.1 = link ∧ q.2.1 = tag ∧ q.2.2 ≤ s.time.mono)
  if s.pcie.quarantine.any isOver then
    .next (State.showTags { s with pcie.quarantine := s.pcie.quarantine.filter (fun q => !isOver q) } link)
  else .next s

/-- PCIE_GATE_OPEN (R428): the manager or the Keeper writes the register; with GO set, the gate of the instance it names opens. -/
def execPcieGateOpen (agent : Agent) (value : Word) (s : State) : Host.Outcome State Fault Refusal := whenUp s <|
  let i := bitsOf value.toNat 12 0
  if accessOk R.PCIE_GATE_OPEN true agent && bitOf value.toNat 16 && decide (i < 4104) then .next (s.openGate i) else .next s

/-! Inbound requests (R429, R433, R435). -/

/-- Answer an inbound request that is non-posted: 0 successful, 1 Unsupported Request, 2 Request Retry. -/
def State.answerIn (s : State) (link status : Nat) (nonPosted : Bool) : State := if nonPosted then s.emit (.pcieCpl link status 0) else s

/-- Log an uncorrectable error in a function, or in every PF of the link when it names none (R429). -/
def State.inboundError (s : State) (link : Nat) (fn : Option Nat) (bit : Nat) (header : List Nat) (advisory : Bool) : State :=
  match fn with
  | some i => s.aerUnc i bit header advisory true
  | none => s.linkError link (fun t p report => t.aerUnc p bit header advisory report)

/-- An Unsupported Request (R433): advisory when non-posted. -/
def State.unsupported (s : State) (link : Nat) (fn : Option Nat) (header : List Nat) (nonPosted : Bool) : State :=
  (s.inboundError link fn aerUnsupported header nonPosted).answerIn link 1 nonPosted

/-- INBOUND_PCIE_REQUEST (R429, R433 to R435, R534): a host TLP, the function it names if it names one, and what the link found it to be. -/
def execInboundPcieRequest (link : Nat) (fn : Option Nat) (tlp : InboundTlp) (nonPosted : Bool) (header : List Nat) (s : State) :
    Host.Outcome State Fault Refusal := whenUp s <|
  if 4 ≤ link then .next s
  else
    let s := s.linkBusy link
    let resets := match fn with
      | some i => (s.fnX i).flrSince.isSome
      | none => false
    let asleep := match fn with
      | some i => (s.fnX i).d3hot
      | none => false
    let cor := fun bit => s.linkError link (fun t p report => t.aerCor p bit report)
    match tlp with
    | .noBar | .ioOrLocked | .typeOne => .next (if resets then s.answerIn link 1 nonPosted else s.unsupported link fn header nonPosted)
    | .memory =>
      .next (if resets then s.answerIn link 1 nonPosted else if asleep then s.unsupported link fn header nonPosted else s)
    | .config => .next (s.answerIn link (if resets then 2 else 0) nonPosted)
    | .poisonedWrite => .next ((s.inboundError link fn aerPoisoned header false).incFld (F.PCIE_POISON_RX link))
    | .malformed => .next (s.inboundError link none aerMalformed header false)
    | .ecrc => .next (s.inboundError link none aerEcrc header false)
    | .overflow => .next (s.inboundError link none aerOverflow header false)
    | .dataLink => .next (s.inboundError link none aerDataLink [] false)
    | .flowControl => .next (s.inboundError link none aerFlowControl [] false)
    | .receiver => .next (cor 0)
    | .badTlp => .next (cor 6)
    | .badDllp => .next (cor 7)
    | .replayRollover => .next (cor 8)
    | .replayTimer => .next (cor 12)
    | .correctedInternal => .next (cor 14)
    | .uncorrectableInternal => .next (s.inboundError link none aerInternal [] false)

/-! ATS (R453, R456). -/

/-- ATS_TRANSLATION_COMPLETION (R453): the host's answer for a 4 KiB page that function `inst` asked for through a slice: the translated page address
and what it grants. Every IOTLB entry that leads to the page caches it; operations that waited go on when they are sent again. -/
def execAtsTranslationCompletion (slice inst page translated : Nat) (read write : Bool) (s : State) : Host.Outcome State Fault Refusal := whenUp s <|
  let asked := fun (w : Nat × Nat × Nat × Nat) => decide (w.1 = slice ∧ w.2.1 = inst ∧ w.2.2.2 = page)
  let iaPages := (s.inst.atsWait.filter asked).map (fun w => w.2.2.1)
  if iaPages.isEmpty then .next s
  else
    let put := fun (e : Iotlb) =>
      if e.inst = inst then
        { e with ats := (iaPages.filter (fun p => e.covers inst (4096 * p))).map (fun p => (p, translated / 4096 * 4096, read, write)) ++ e.ats }
      else e
    let s1 : State := { s with inst.atsWait := s.inst.atsWait.filter (fun w => !asked w) }
    .next (s1.setIotlb slice ((s1.iotlb slice).map put))

/-- ATS_INVALIDATION (R456): the host invalidates n bytes from untranslated address `addr` of a function. Its completion is sent when every read
the function has issued is over, at once when there is none. -/
def execAtsInvalidation (link inst addr n : Nat) (s : State) : Host.Outcome State Fault Refusal := whenUp s <|
  let drop := fun (e : Iotlb) =>
    if e.inst = inst then
      { e with ats := e.ats.filter (fun t => let u := e.output (4096 * t.1); !decide (u < addr + n ∧ addr < u + 4096)) }
    else e
  let s1 := (List.range 4).foldl (fun (t : State) k => (t.setIotlb k ((t.iotlb k).map drop)).incFld (F.ITU_ATS_INVAL k)) s
  let users := (s.pcie.reads.filter (fun r => decide (r.fn = inst) && r.translated)).map (fun r => (r.link, r.tag))
  if 4 ≤ link then .next s
  else if users.isEmpty then .next (s1.emit (.atsInvalDone link inst))
  else .next { s1 with inst.atsInval := s1.inst.atsInval ++ [(link, inst, users)] }

end Sys2Proof.Machine
end

