-- ==== Sys2Proof/Machine/Sha.lean ====
section
/-!
DEFINITION. SHA-384 (FIPS 180-4) and the verification of ECDSA signatures over P-384 (FIPS 186-5), as chapter 15 uses them (R475, R479, R480,
R495).
-/

namespace Sys2Proof.Machine

/-! SHA-384. -/

/-- SHA-512 round constants 0 to 19 (FIPS 180-4, 4.2.3). -/
def shaK0 : List Nat :=
  [ 0x428A2F98D728AE22, 0x7137449123EF65CD, 0xB5C0FBCFEC4D3B2F, 0xE9B5DBA58189DBBC,
    0x3956C25BF348B538, 0x59F111F1B605D019, 0x923F82A4AF194F9B, 0xAB1C5ED5DA6D8118,
    0xD807AA98A3030242, 0x12835B0145706FBE, 0x243185BE4EE4B28C, 0x550C7DC3D5FFB4E2,
    0x72BE5D74F27B896F, 0x80DEB1FE3B1696B1, 0x9BDC06A725C71235, 0xC19BF174CF692694,
    0xE49B69C19EF14AD2, 0xEFBE4786384F25E3, 0x0FC19DC68B8CD5B5, 0x240CA1CC77AC9C65]

/-- SHA-512 round constants 20 to 39 (FIPS 180-4, 4.2.3). -/
def shaK1 : List Nat :=
  [ 0x2DE92C6F592B0275, 0x4A7484AA6EA6E483, 0x5CB0A9DCBD41FBD4, 0x76F988DA831153B5,
    0x983E5152EE66DFAB, 0xA831C66D2DB43210, 0xB00327C898FB213F, 0xBF597FC7BEEF0EE4,
    0xC6E00BF33DA88FC2, 0xD5A79147930AA725, 0x06CA6351E003826F, 0x142929670A0E6E70,
    0x27B70A8546D22FFC, 0x2E1B21385C26C926, 0x4D2C6DFC5AC42AED, 0x53380D139D95B3DF,
    0x650A73548BAF63DE, 0x766A0ABB3C77B2A8, 0x81C2C92E47EDAEE6, 0x92722C851482353B]

/-- SHA-512 round constants 40 to 59 (FIPS 180-4, 4.2.3). -/
def shaK2 : List Nat :=
  [ 0xA2BFE8A14CF10364, 0xA81A664BBC423001, 0xC24B8B70D0F89791, 0xC76C51A30654BE30,
    0xD192E819D6EF5218, 0xD69906245565A910, 0xF40E35855771202A, 0x106AA07032BBD1B8,
    0x19A4C116B8D2D0C8, 0x1E376C085141AB53, 0x2748774CDF8EEB99, 0x34B0BCB5E19B48A8,
    0x391C0CB3C5C95A63, 0x4ED8AA4AE3418ACB, 0x5B9CCA4F7763E373, 0x682E6FF3D6B2B8A3,
    0x748F82EE5DEFB2FC, 0x78A5636F43172F60, 0x84C87814A1F0AB72, 0x8CC702081A6439EC]

/-- SHA-512 round constants 60 to 79 (FIPS 180-4, 4.2.3). -/
def shaK3 : List Nat :=
  [ 0x90BEFFFA23631E28, 0xA4506CEBDE82BDE9, 0xBEF9A3F7B2C67915, 0xC67178F2E372532B,
    0xCA273ECEEA26619C, 0xD186B8C721C0C207, 0xEADA7DD6CDE0EB1E, 0xF57D4F7FEE6ED178,
    0x06F067AA72176FBA, 0x0A637DC5A2C898A6, 0x113F9804BEF90DAE, 0x1B710B35131C471B,
    0x28DB77F523047D84, 0x32CAAB7B40C72493, 0x3C9EBE0A15C9BEBC, 0x431D67C49C100D4C,
    0x4CC5D4BECB3E42B6, 0x597F299CFC657E2A, 0x5FCB6FAB3AD6FAEC, 0x6C44198C4A475817]

def shaK : List Nat := shaK0 ++ shaK1 ++ shaK2 ++ shaK3

/-- The initial hash value of SHA-384. -/
def shaInit : List Nat :=
  [ 0xCBBB9D5DC1059ED8, 0x629A292A367CD507, 0x9159015A3070DD17, 0x152FECD8F70E5939,
    0x67332667FFC00B31, 0x8EB44A8768581511, 0xDB0C2E0D64F98FA7, 0x47B5481DBEFA4FA4]

/-- A 64-bit word rotated right, and shifted right, by n. -/
def rotr64 (n x : Nat) : Nat := x / 2 ^ n + x % 2 ^ n * 2 ^ (64 - n)
def shr64 (n x : Nat) : Nat := x / 2 ^ n
def add64 (a b : Nat) : Nat := (a + b) % 2 ^ 64

/-- The message schedule: `w` holds the last sixteen words, newest first; n more are added. -/
def shaSchedule : Nat → List Nat → List Nat
  | 0, w => w
  | n + 1, w =>
    let w2 := w.getD 1 0
    let w15 := w.getD 14 0
    let s1 := (rotr64 19 w2 ^^^ rotr64 61 w2) ^^^ shr64 6 w2
    let s0 := (rotr64 1 w15 ^^^ rotr64 8 w15) ^^^ shr64 7 w15
    shaSchedule n (add64 (add64 s1 (w.getD 6 0)) (add64 s0 (w.getD 15 0)) :: w)

/-- One round with its constant and schedule word. -/
def shaRound (v : List Nat) (kw : Nat × Nat) : List Nat :=
  let a := v.getD 0 0
  let b := v.getD 1 0
  let c := v.getD 2 0
  let e := v.getD 4 0
  let f := v.getD 5 0
  let g := v.getD 6 0
  let s1 := (rotr64 14 e ^^^ rotr64 18 e) ^^^ rotr64 41 e
  let ch := (e &&& f) ^^^ ((2 ^ 64 - 1 - e) &&& g)
  let t1 := add64 (add64 (add64 (v.getD 7 0) s1) ch) (add64 kw.1 kw.2)
  let s0 := (rotr64 28 a ^^^ rotr64 34 a) ^^^ rotr64 39 a
  let maj := ((a &&& b) ^^^ (a &&& c)) ^^^ (b &&& c)
  [add64 t1 (add64 s0 maj), a, b, c, add64 (v.getD 3 0) t1, e, f, g]

/-- One block of 128 bytes. -/
def shaBlock (h : List Nat) (blk : List Byte) : List Nat :=
  let w := ((List.range 16).map (fun i => beAt blk (8 * i) 8)).reverse
  let ws := (shaSchedule 64 w).reverse
  let v := (shaK.zip ws).foldl shaRound h
  (h.zip v).map (fun p => add64 p.1 p.2)

/-- The padded message: a one bit, zeros, and the length in bits. -/
def shaPad (m : List Byte) : List Byte :=
  m ++ [0x80] ++ List.replicate ((111 + 128 - m.length % 128) % 128) 0 ++ beBytes 16 (8 * m.length)

/-- Fold n blocks. -/
def shaBlocks : Nat → List Nat → List Byte → List Nat
  | 0, h, _ => h
  | n + 1, h, m => shaBlocks n (shaBlock h (m.take 128)) (m.drop 128)

/-- SHA-384 of a message, as its 48 bytes (FIPS 180-4). -/
def sha384 (m : List Byte) : List Byte :=
  let p := shaPad m
  (((shaBlocks (p.length / 128) shaInit p).take 6).map (beBytes 8)).flatten

/-! P-384 (FIPS 186-5, with the curve of SP 800-186). -/

/-- The prime of the field, the order of the base point, the coefficient b, and the base point. -/
def p384P : Nat := 2 ^ 384 - 2 ^ 128 - 2 ^ 96 + 2 ^ 32 - 1
def p384N : Nat := 0xFFFFFFFFFFFFFFFFFFFFFFFFFFFFFFFFFFFFFFFFFFFFFFFFC7634D81F4372DDF581A0DB248B0A77AECEC196ACCC52973
def p384B : Nat := 0xB3312FA7E23EE7E4988E056BE3F82D19181D9C6EFE8141120314088F5013875AC656398D8A2ED19D2A85C8EDD3EC2AEF
def p384G : Nat × Nat :=
  (0xAA87CA22BE8B05378EB1C71EF320AD746E1D3B628BA79B9859F741E082542A385502F25DBF55296C3A545E3872760AB7,
   0x3617DE4A96262C6F5D9E98BF9292DC29F8F41DBD289A147CE9DA3113B5F0B8C00A60B1CE1D7E819D7A431D7C90EA0E5F)

/-- b ^ e mod m, over the low n bits of e. -/
def powMod (m : Nat) : Nat → Nat → Nat → Nat
  | 0, _, _ => 1 % m
  | n + 1, b, e => (if e % 2 = 1 then b else 1) * powMod m n (b * b % m) (e / 2) % m

/-- The inverse modulo a prime of at most 384 bits. -/
def invMod (m x : Nat) : Nat := powMod m 384 (x % m) (m - 2)

/-- a − b modulo m. -/
def subMod (m a b : Nat) : Nat := (a % m + m - b % m) % m

/-- A point of the curve; `none` is the point at infinity. -/
abbrev Point := Option (Nat × Nat)

/-- Addition of points, doubling included. -/
def pointAdd (a b : Point) : Point :=
  match a, b with
  | none, q => q
  | q, none => q
  | some (x1, y1), some (x2, y2) =>
    if x1 = x2 ∧ (y1 + y2) % p384P = 0 then none
    else
      let l := if x1 = x2 then subMod p384P (3 * x1 * x1) 3 * invMod p384P (2 * y1) % p384P
               else subMod p384P y2 y1 * invMod p384P (subMod p384P x2 x1) % p384P
      let x3 := subMod p384P (subMod p384P (l * l) x1) x2
      some (x3, subMod p384P (l * subMod p384P x1 x3) y1)

/-- k times a point, over the low n bits of k. -/
def pointMul : Nat → Nat → Point → Point
  | 0, _, _ => none
  | n + 1, k, q => pointAdd (if k % 2 = 1 then q else none) (pointMul n (k / 2) (pointAdd q q))

/-- Is (x, y) a point of the curve? -/
def onCurve (x y : Nat) : Bool :=
  decide (x < p384P) && decide (y < p384P) && decide (y * y % p384P = (subMod p384P (x * x * x) (3 * x) + p384B) % p384P)

/-- Does a signature (r then s) by a public key (X then Y), each 48 bytes little-endian (R473), verify over a SHA-384 digest? -/
def ecdsaVerify (key sig digest : List Byte) : Bool :=
  let x := leAt key 0 48
  let y := leAt key 48 48
  let r := leAt sig 0 48
  let t := leAt sig 48 48
  if r = 0 ∨ p384N ≤ r ∨ t = 0 ∨ p384N ≤ t ∨ !onCurve x y then false
  else
    let w := invMod p384N t
    match pointAdd (pointMul 384 (beNat digest * w % p384N) (some p384G)) (pointMul 384 (r * w % p384N) (some (x, y))) with
    | none => false
    | some (v, _) => decide (v % p384N = r)

end Sys2Proof.Machine
end

