-- ==== Sys2Proof/Machine/Boot.lean ====
section
/-!
DEFINITION. Device resets, Plinth ROM, and the start of the Keeper firmware: the choice and the checks of the package, the configuration, the
media that discovery finds and the save that is restored (R364 to R366, R401 to R404, R471 to R487, R496 to R499, R562 to R570).
-/

namespace Sys2Proof.Machine

/-! Packages (R473 to R476). -/

/-- The greatest length of a package, and the length of its header. -/
def pkgMax : Nat := 0x3FF0000
def pkgHead : Nat := 4096

def ascii4 (t : String) : List Byte := t.toList.map (fun c => BitVec.ofNat 8 c.toNat)

def pkgEpoch (p : List Byte) : Nat := leAt p 6 2
def pkgVersion (p : List Byte) : Nat := leAt p 8 4
def pkgLen (p : List Byte) : Nat := leAt p 12 4
def pkgKeySlot (p : List Byte) : Nat := leAt p 17 1
def pkgConfigVersion (p : List Byte) : Nat := leAt p 18 2
def pkgMinConfig (p : List Byte) : Nat := leAt p 20 2
def pkgGoldenAllowed (p : List Byte) : Bool := bitOf (leAt p 22 1) 0
def pkgPubkey (p : List Byte) : List Byte := slice p 448 96

/-- The signature digest (R475). -/
def pkgDigest (p : List Byte) : List Byte := sha384 (slice p 0 672)

/-- A component entry: TYPE, OFFSET, LENGTH and digest (R474). -/
def pkgEntry (p : List Byte) (i : Nat) : Nat × Nat × Nat × List Byte :=
  let o := 64 + 64 * i
  (leAt p o 2, leAt p (o + 8) 4, leAt p (o + 12) 4, slice p (o + 16) 48)

def pkgEntries (p : List Byte) : List (Nat × Nat × Nat × List Byte) := (List.range 6).map (pkgEntry p)

/-- The bytes of the component of a type. -/
def pkgComponent (p : List Byte) (typ : Nat) : List Byte :=
  match (pkgEntries p).find? (fun e => decide (e.1 = typ)) with
  | some e => slice p e.2.1 e.2.2.1
  | none => []

/-- Does the component table meet R474? -/
def manifestOk (p : List Byte) : Bool :=
  let es := pkgEntries p
  let one := fun (t : Nat) => decide ((es.filter (fun e => decide (e.1 = t + 1))).length = 1)
  let inside := fun (e : Nat × Nat × Nat × List Byte) => decide (e.2.1 % 4096 = 0 ∧ e.2.1 + e.2.2.1 ≤ pkgLen p) && (decide (e.1 ≠ 1) || decide (e.2.2.1 ≤ 0x100000))
  let apart := fun (i j : Nat) =>
    let a := pkgEntry p i
    let b := pkgEntry p j
    decide (i = j) || decide (a.2.1 + a.2.2.1 ≤ b.2.1) || decide (b.2.1 + b.2.2.1 ≤ a.2.1)
  (List.range 6).all one && es.all inside && (List.range 6).all (fun i => decide (leAt p (66 + 64 * i) 2 = 0) && (List.range 6).all (apart i))

/-- Is a key slot live: programmed, which the four slots are, and not revoked (R479)? -/
def State.keyLive (s : State) (k : Nat) : Bool := decide (k < 4) && decide (s.boot.revoked.getD k 0 = 0)

/-- The first check of R482, after the commit, that a package fails, by its reason; 1 when it verifies. `want` is the digest that a valid
record names for the slot. -/
def State.pkgFlaw (s : State) (p : List Byte) (want : Option (List Byte)) : Nat :=
  let k := pkgKeySlot p
  if slice p 0 4 ≠ ascii4 "SKFW" ∨ leAt p 4 2 ≠ 1 ∨ leAt p 16 1 ≠ 6 ∨ pkgLen p < pkgHead ∨ pkgMax < pkgLen p then 3
  else if 4 ≤ k then 4
  else if s.boot.revoked.getD k 0 ≠ 0 then 5
  else if sha384 (pkgPubkey p) ≠ Config.keyDigest k then 6
  else if !ecdsaVerify (pkgPubkey p) (slice p 576 96) (sha384 (slice p 0 576)) then 7
  else if !manifestOk p then 8
  else if (pkgEntries p).any (fun e => decide (sha384 (slice p e.2.1 e.2.2.1) ≠ e.2.2.2)) then 9
  else match want with
    | some d => if pkgDigest p = d then 1 else 10
    | none => 1

/-- The package that a slot holds, by its own PACKAGE_LEN. -/
def State.slotPkg (s : State) (n : Nat) : List Byte := s.slotRead n 0 (min pkgMax (max pkgHead (leNat (s.slotRead n 12 4))))

/-- Is slot n committed (R476)? -/
def State.committed (s : State) (n : Nat) : Bool :=
  match s.boot.commits.getD n none with
  | none => false
  | some c => decide (c.len ≤ pkgMax) && decide (leNat (s.slotRead n 12 4) = c.len) && decide (crc32c (s.slotRead n 0 c.len) = c.crc) &&
      decide (sha384 (s.slotRead n 0 672) = c.digest)

/-- Try slot n (R482). -/
def State.slotFlaw (s : State) (n : Nat) (want : Option (List Byte)) : Nat := if s.committed n then s.pkgFlaw (s.slotPkg n) want else 2

/-! The active flag (R477, R478). -/

/-- The ruling record, and whether copy A holds it. -/
def State.rulingCopy (s : State) : Option (FlagRec × Bool) :=
  match s.boot.flagA, s.boot.flagB with
  | some a, some b => if a.seq < b.seq then some (b, false) else some (a, true)
  | some a, none => some (a, true)
  | none, some b => some (b, false)
  | none, none => none

def State.ruling (s : State) : Option FlagRec := s.rulingCopy.map (fun r => r.1)

/-- Show the ruling record. -/
def State.showRuling (s : State) : State :=
  match s.ruling with
  | some r => (s.setFld F.BOOT_SEQ r.seq).setFld F.BOOT_STATUS_TRIAL_BOOTS r.boots
  | none => (s.setFld F.BOOT_SEQ 0).setFld F.BOOT_STATUS_TRIAL_BOOTS 0

/-- Write a record with the next SEQ into the other copy (R478). `ok` says whether it reads back right, the second attempt included; if not, that
copy is invalid and the old record rules. -/
def State.writeFlag (s : State) (r : FlagRec) (ok : Bool) : State :=
  let r1 := { r with seq := ((s.ruling.map (fun x => x.seq)).getD 0 + 1) % 2 ^ 32 }
  let v := if ok then some r1 else none
  let s1 : State := match s.rulingCopy with
    | some (_, true) => { s with boot.flagB := v }
    | _ => { s with boot.flagA := v }
  s1.showRuling

/-- The revert record of R484. -/
def FlagRec.reverted (r : FlagRec) : FlagRec :=
  { r with active := r.previous, previous := r.active, activeDigest := r.previousDigest, previousDigest := r.activeDigest, state := 0, boots := 0 }

/-! Device resets (R95, R563, R564, R567 to R570). -/

/-- Write down what the slices know of their media, for the next start (R365, R388, R395). -/
def State.keepMedia (s : State) : State :=
  let one := fun (k : Nat) =>
    let st := fun (x : Nat) => s.dieState k x
    let old := s.flash.kept.getD k {}
    if s.fld (F.AFF_STATE k) = 0 then old
    else
      let sp := if s.holdsData k then some (s.fld (F.AFF_SPARE k), s.fld (F.AFF_SPARE_INIT k)) else old.spare
      ({ used := (List.range 128).filter (fun x => decide (st x ≠ 0)), spare := sp,
         gone := ((List.range 128).filter (fun x => decide (2 ≤ st x))).map (fun x => (x, st x)) } : SliceMedia)
  { s with flash.kept := (List.range 4).map one }

/-- What a controller keeps over a reset: its counts and its error log. -/
def NvCtrl.kept (c : NvCtrl) : NvCtrl :=
  { errs := c.errs, errCount := c.errCount, readBlocks := c.readBlocks, writeBlocks := c.writeBlocks, hostReads := c.hostReads, hostWrites := c.hostWrites }

/-- A device reset begins: everything takes its reset value but what the boot NOR, the fuses, the flash and the power-fail-protected buffer hold,
the event log, the levels at the balls, and what the world outside has seen and still has to do. The device is held in reset. -/
def State.resetBegins (s : State) : State :=
  let t := s.keepMedia.dropUncommitted
  let nv : NvState := {
    ns := t.nv.ns, ctrls := t.nv.ctrls.map (fun e => (e.1, NvCtrl.kept e.2)), nextPiece := t.nv.nextPiece, nextCmd := t.nv.nextCmd,
    powerTicks := t.nv.powerTicks + t.time.mono, test := t.nv.test.filter (fun x => decide (x.code = 2)),
    tests := (match t.nv.test with
      | some x => if x.code = 2 then t.nv.tests else ((16 * x.code + 2, 0, x.nsid, t.powerHours) :: t.nv.tests).take 20
      | none => t.nv.tests) }
  let flash : FlashState := {
    blks := t.flash.blks, bands := t.flash.bands, nextBand := t.flash.nextBand, cells := t.flash.cells, map := t.flash.map,
    mapDir := t.flash.mapDir, dirty := t.flash.dirty, mapLost := t.flash.mapLost, buf := t.flash.buf, seqs := t.flash.seqs, opFixed := t.flash.opFixed,
    lastLost := t.flash.lastLost, save := t.flash.save, restored := t.flash.restored, kept := t.flash.kept, saveLog := t.flash.saveLog, degraded := t.flash.degraded,
    mediaErrors := t.flash.mediaErrors, unsafeShutdowns := t.flash.unsafeShutdowns, shutAt := t.flash.shutAt }
  let b := t.boot
  let boot : BootState := {
    flagA := b.flagA, flagB := b.flagB, slots := b.slots, commits := b.commits, bankX := b.bankX, bankY := b.bankY, revoked := b.revoked,
    rootProvision := b.rootProvision, custody := b.custody, accFloor := b.accFloor, saves := b.saves, lostBytes := b.lostBytes, count := b.count,
    held := true, tripped := b.tripped, resetLow := b.resetLow, powerSince := b.powerSince, straps := b.straps, gpioIn := b.gpioIn, perstHigh := b.perstHigh }
  let u : State := {
    eventLog := t.eventLog, eventSeq := t.eventSeq, out := t.out, freeCtr := t.freeCtr, pending := t.pending, nv := nv, flash := flash, boot := boot,
    cipher := { nor := t.cipher.nor }, time := { units := t.time.units, mono := t.time.mono } }
  ((u.wr R.STRAP_STATUS (t.rd R.STRAP_STATUS)).setFld F.PIN_STATUS_PWRFAIL (t.fld F.PIN_STATUS_PWRFAIL)).wr R.GPIO_IN (t.rd R.GPIO_IN)

/-- A device reset ends: the straps are latched as they stand (R563, R564), time starts from zero, hardware loads root key slot 0 from the fuses (R212), and
Plinth ROM is to run. -/
def State.resetEnds (s : State) (straps : Nat) : State :=
  State.loadDeviceRoot { s.wr R.STRAP_STATUS (BitVec.ofNat 64 (straps % 128)) with
    time := {}, boot.straps := straps % 128, boot.held := false, boot.internal := 0, boot.romPending := true }

/-- The power was away while RESET_N was low: a thermal trip is over, and buffered data that no save set holds is lost (R404, R571). -/
def State.powerLost (s : State) : State :=
  let s1 : State := { s with boot.tripped := false }
  if s1.flash.save.isSome ∨ ((List.range 4).all (fun k => (s1.buf k).isEmpty) : Bool) then s1 else s1.noteSave 0 false

/-- RESET_N_FALL (R567, R570): a device reset begins. A running save stops without SAVE_DONE; `saved` codewords had reached the save set. -/
def execResetNFall (saved : Nat) (s : State) : Host.Outcome State Fault Refusal := whenAny s <|
  if s.boot.held then .next { s with boot.resetLow := true }
  else
    let s1 := if s.flash.saving ∧ s.flash.save.isNone then s.noteSave saved false else s
    .next { s1.resetBegins with boot.resetLow := true }

/-- RESET_N_RISE (R563, R567): the straps are latched and the device reset ends, unless a thermal trip holds the device. `power` says that the
power was away while RESET_N was low. -/
def execResetNRise (straps : Nat) (power : Bool) (s : State) : Host.Outcome State Fault Refusal := whenAny s <|
  if !s.boot.resetLow then .next s
  else
    let s1 := if power then s.powerLost else s
    let s2 : State := { s1 with boot.resetLow := false }
    if s2.boot.tripped then .next s2 else .next (s2.resetEnds straps)

/-- INTERNAL_DEVICE_RESET (R520, R564, R570): a reset that the device itself began ends with the straps as they stand; a reset that a command asked
for is due 100 ms after its reply; and the restart after a save waits until power has held for 10 ms. -/
def execInternalDeviceReset (straps : Nat) (s : State) : Host.Outcome State Fault Refusal := whenAny s <|
  if s.boot.resetLow ∨ s.boot.tripped then .next s
  else if s.boot.held then
    if s.boot.internal = 0 then .next s
    else if s.boot.internal = 3 ∧ (s.on F.PIN_STATUS_PWRFAIL ∨ s.time.mono < s.boot.powerSince + 10 * ticksPerMs) then .next s
    else .next (s.resetEnds straps)
  else match s.mgmt.resetAt with
    | some t => if s.running ∧ t ≤ s.time.mono then .next ({ s with boot.accFloor := s.fld F.ACC_TIME_FLOOR }.resetBegins.resetEnds straps) else .next s
    | none => .next s

/-- TRIAL_WATCHDOG (R486): the trial package has not been confirmed in time. -/
def execTrialWatchdog (s : State) : Host.Outcome State Fault Refusal := whenUp s <|
  match s.boot.watchdog with
  | some t => if t ≤ s.time.mono then .next { s.resetBegins with boot.internal := 2 } else .next s
  | none => .next s

/-- PWRFAIL_N_RISE (R570). -/
def execPwrfailNRise (s : State) : Host.Outcome State Fault Refusal := whenAny s <|
  .next { s.setFld F.PIN_STATUS_PWRFAIL 0 with boot.powerSince := s.time.mono }

/-- SAVE_DONE (R401, R402, R404, R570): the save set is written; `ok` says whether its SAVE_DONE record is valid, and `saved` how many codewords
reached the set if not. The device then holds itself in reset. -/
def execSaveDone (ok : Bool) (saved : Nat) (s : State) : Host.Outcome State Fault Refusal := whenAny s <|
  if !s.flash.saving ∨ s.boot.held then .next s
  else .next { (s.noteSave saved ok).resetBegins with boot.internal := 3 }

/-! Configuration (R496 to R498, R521). -/

def State.item? (s : State) (n : Nat) : Option (List Byte) := (s.boot.items.find? (fun e => decide (e.1 = n))).map (fun e => e.2)

/-- A configuration item's value: what the configuration holds, else its default. -/
def State.item (s : State) (n : Nat) : List Byte := (s.item? n).getD (Config.itemDefault n)

/-- Field i of a configuration item that the configuration holds. -/
def State.itemFld (s : State) (n i dflt : Nat) : Nat := match s.item? n with
  | some v => Config.itemField n v i
  | none => dflt

/-- The valid banks. -/
def State.banks (s : State) : List Bank := [s.boot.bankX, s.boot.bankY].filterMap id

/-- The newest of some banks. -/
def newestBank (l : List Bank) : Option Bank := leastBy (fun b => (2 ^ 32 : Int) - (b.generation : Int)) l

/-- The bank in use: the newest that the running package owns (R496). -/
def State.ownBank (s : State) (owner : List Byte) : Option Bank := newestBank (s.banks.filter (fun b => decide (b.owner = owner)))

/-- Write a bank beside another: into the one that does not hold it, with the higher generation plus one. `ok` says whether it reads back. -/
def State.writeBank (s : State) (keep : Option Bank) (version : Nat) (owner : List Byte) (items : List (Nat × List Byte)) (ok : Bool) : State :=
  let g := (s.banks.map (fun b => b.generation)).foldl max 0 + 1
  let v : Option Bank := if ok then some { version := version, generation := g % 2 ^ 32, owner := owner, items := items } else none
  if keep.isSome ∧ s.boot.bankX = keep then { s with boot.bankY := v } else { s with boot.bankX := v }

/-- Choose the configuration that the booted package uses, migrating one where it owns none (R496, R497). -/
def State.chooseConfig (s : State) (pkg : List Byte) (ok : Bool) : State :=
  let own := pkgDigest pkg
  match s.ownBank own with
  | some b => { s with boot.items := b.items }
  | none =>
    let prev := s.ruling.bind (fun r => newestBank (s.banks.filter (fun b => decide (b.owner = r.previousDigest))))
    match prev.orElse (fun _ => newestBank s.banks) with
    | some b => { s.writeBank (some b) (pkgConfigVersion pkg) own b.items ok with boot.items := b.items }
    | none => s.raise F.BOOT_INT_STATUS_CONFIG_DEFAULTED_SEEN R.BOOT_INT_ENABLE

/-- Is link l present (R408)? -/
def State.linkPresent (s : State) (l : Nat) : Bool :=
  if l = 1 then !s.on F.STRAP_STATUS_HA_BIFURCATE else if l = 3 then !s.on F.STRAP_STATUS_HB_BIFURCATE else decide (l < 4)

/-- Give PF p its link, type and VFs (R411, R449). A PF whose link is absent is absent for this reset, which is logged. -/
def State.layPf (s : State) (p : Nat) : State :=
  let link := if p = 0 then 0 else s.itemFld 1 (3 * p) 0 % 4
  let code := s.itemFld 1 (3 * p + 1) 0
  let typ := if p = 0 then 1 else if 2 ≤ code ∧ code ≤ 4 then code else 0
  let n := if p = 0 ∧ (s.item? 1).isNone then 0 else s.itemFld 1 (3 * p + 2) 0
  let used := (s.pcie.vfs.take p).sum
  let vfs := if typ = 0 then 0 else min n (4096 - used)
  let s1 : State := { s with pcie.pfLink := s.pcie.pfLink.set p link, pcie.vfs := s.pcie.vfs.set p vfs }
  if typ = 0 then s1
  else if !s1.linkPresent link then s1.logEvent (R.PCIE_LINK_STATE link) 0 p
  else
    let put := fun (t : State) (i : Nat) => (t.setFld (F.INST_CFG_TYPE i) typ).setFld (F.INST_CFG_PF i) p
    ((p :: (List.range vfs).map (fun v => 8 + used + v)).foldl put s1).setFld (F.PCIE_LINK_STATE_STATE link) lsDetect

/-- Items that apply at once (R521), and at start. -/
def State.applyItem (s : State) (n : Nat) : State :=
  match s.item? n with
  | none => s
  | some v =>
    let f := Config.itemField n v
    if n = 3 then { s with flash.bank := (List.range 6).map f }
    else if n = 6 then (s.setFld F.BOOT_WATCHDOG (f 0)).setFld F.BOOT_HOLDUP_THRESH (f 1)
    else if n = 7 then
      let t := (List.range 4).foldl (fun (t : State) k =>
        ((t.setFld (F.AFF_MAP_CACHE_GIB k) (min 16 (max 2 (f 0)))).setFld (F.AFF_OP_PCT k) (min 50 (f 1)))) s
      (t.setFld F.AFF_WIN_START (f 2)).setFld F.AFF_WIN_LEN (f 3)
    else s

/-- Apply the configuration in use at a start (R22, R308, R411, R521). -/
def State.applyConfig (s : State) : State :=
  let s1 := (List.range 8).foldl State.layPf s
  let s2 := [3, 6, 7].foldl State.applyItem s1
  let s3 := (List.range 4).foldl (fun (t : State) k => t.setFld (F.ETH_PORT_MODE k) (s.itemFld 8 0 0)) s2
  match s.item? 2 with
  | none => s3
  | some v =>
    let f := Config.itemField 2 v
    { (s3.setFld F.FED_ID_ID (f 0)).setFld F.FED_ID_VALID 1 with fed.fedLabel := f 1 % 2 ^ 64, fed.keySlot := f 2 % 8, fed.eligible := bitOf (f 3) 0 }

/-! The media at a start (R364 to R366, R393, R403, R404). -/

/-- Put a die in use, with its factory bad blocks when it is new (R393). -/
def State.useDie (s : State) (g : Nat) (d : DieFound) : State :=
  let s1 := (s.setFld (F.FL_DIE_STATE_STATE d.slice d.die) dieOnline).setFld (F.FL_DIE_STATE_GEOMETRY d.slice d.die) g
  if (s.flash.kept.getD d.slice {}).used.contains d.die then s1
  else d.bad.foldl (fun t b => if b < 1024 * g then t.setBlk d.slice d.die b { t.blk d.slice d.die b with bad := 1 } else t) s1

/-- Blocks of a slice's dies that a kind of badness has taken. -/
def State.badBlocks (s : State) (k : Nat) (p : Nat → Bool) (kind : Nat) : Nat :=
  s.flash.blks.countIf (fun a v => decide (a / 2 ^ 18 = k) && p (a / 2 ^ 11 % 128) && decide (v.bad = kind))

/-- The spare of slice k at a start: the first time, what the spec's rule makes it, which is a free value; later what it was, with the good blocks of
new dies (R388, R389). -/
def State.startSpare (s : State) (k : Nat) : State :=
  let old := s.flash.kept.getD k {}
  let good := fun (x : Nat) => ((List.range s.dieBlocks).filter (fun b => decide ((s.blk k x b).bad = 0))).length
  match old.spare with
  | none =>
    let n := Config.unstated s.freeCtr % (((s.onlineDies k).map good).sum + 1)
    ((s.draw).setFld (F.AFF_SPARE k) n).setFld (F.AFF_SPARE_INIT k) n
  | some (sp, ini) =>
    let more := (((s.onlineDies k).filter (fun x => !old.used.contains x)).map good).sum
    (s.setFld (F.AFF_SPARE k) (sp + more)).setFld (F.AFF_SPARE_INIT k) ini

/-- Slice k after its dies are known (R365, R389, R393). -/
def State.startSlice (s : State) (k : Nat) : State :=
  let s1 := (List.range 128).foldl (fun (t : State) x => t.setFld (F.FL_DIE_STATE_RETIRED k x) (t.badBlocks k (fun y => decide (y = x)) 2)) s
  let s2 := ((s1.setFld (F.AFF_FACTORY_BAD k) (s1.badBlocks k (fun _ => true) 1)).setFld (F.AFF_GROWN_BAD k) (s1.badBlocks k (fun _ => true) 2)).setFld
    (F.AFF_DIE_RETIRED k) (((s.flash.kept.getD k {}).gone.filter (fun e => decide (e.2 = 3))).length)
  if (s2.onlineDies k).length < 4 then s2.setFld (F.AFF_STATE k) affNoMedia
  else
    let s3 := (((s2.setFld (F.AFF_STATE k) affOnline).showBands k).showPe k).startSpare k
    if s3.fld (F.AFF_SPARE k) = 0 then s3.goReadOnly else s3

/-- Train the channels and read the dies (R364 to R366). Dies that are gone stay gone; a die that was in use and no longer answers, or whose channel
has FAILED, retires. -/
def State.discover (s : State) (info : BootInfo) : State :=
  let train := fun (t : State) (c : Nat × Nat × Nat) =>
    if 4 ≤ c.1 ∨ 8 ≤ c.2.1 then t
    else (t.satFld (F.FL_CH_TRAIN_FAIL c.1 c.2.1) (min 3 c.2.2)).setFld (F.FL_CH_STATE_STATE c.1 c.2.1) (if 3 ≤ c.2.2 then 3 else 2)
  let s1 := info.channels.foldl train s
  let readable := fun (d : DieFound) => decide (d.slice < 4 ∧ d.die < 128) && decide (s1.fld (F.FL_CH_STATE_STATE d.slice (d.die / 16)) = 2)
  let order := fun (d : DieFound) => ((128 * d.slice + d.die : Nat) : Int)
  let known := fun (d : DieFound) => d.profile && decide (d.geometry = 1 ∨ d.geometry = 2)
  let dies := info.dies.filter readable
  let g := match leastBy order (dies.filter known) with
    | some d => d.geometry
    | none => 0
  let gone := fun (k x : Nat) => (s.flash.kept.getD k {}).gone.find? (fun e => decide (e.1 = x))
  let good := dies.filter (fun d => known d && decide (d.geometry = g) && (gone d.slice d.die).isNone)
  let s2 := good.foldl (fun t d => t.useDie g d) s1
  let s3 := (dies.filter (fun d => !(known d && decide (d.geometry = g)))).foldl (fun t d => t.incFld (F.FL_DIE_REJECT d.slice)) s2
  let s4 := (List.range 32).foldl (fun (t : State) c => t.setFld (F.FL_CH_STATE_DIES (c / 8) (c % 8)) ((good.filter (fun d => decide (8 * d.slice + d.die / 16 = c))).length)) s3
  let s5 := (List.range 4).foldl (fun (t : State) k => ((s.flash.kept.getD k {}).gone).foldl (fun (t : State) e => t.setFld (F.FL_DIE_STATE_STATE k e.1) e.2) t) s4
  let silent := fun (k : Nat) => ((s.flash.kept.getD k {}).used.filter (fun x => (gone k x).isNone && !good.any (fun d => decide (d.slice = k ∧ d.die = x))))
  let s6 := (List.range 4).foldl State.startSlice s5
  (List.range 4).foldl (fun (t : State) k => (silent k).foldl (fun (t : State) x => (t.setFld (F.FL_DIE_STATE_STATE k x) dieOnline).retireDie k x) t) s6

/-- The units that a lost codeword leaves lost: one for data, the range for a trim record. -/
def WUnit.lostUnits (w : WUnit) : List Nat := (List.range w.count).map (fun i => w.unit + i)

/-- Mark units LOST in the map (R404). -/
def State.markLost (s : State) (w : WUnit) : State :=
  w.lostUnits.foldl (fun t u => let e := t.mapGet w.nsid u; (t.mapPut w.nsid u (if bitOf e 61 then e else e + mapLostBit)).dirtyMap w.nsid u) s

/-- Restore the newest save (R403, R404): whole when its SAVE_DONE is valid, else the pieces that are all there; every other committed piece's units
are LOST. -/
def State.restoreSave (s : State) : State :=
  match s.flash.save with
  | none => s
  | some sv =>
    let host := fun (e : Nat × WUnit) => e.2.reloc.isNone && decide (e.2.typ = 0 ∨ e.2.typ = 6)
    let torn := (sv.lost.filter host).map (fun e => (e.1, e.2.piece))
    let hurt := fun (e : Nat × WUnit) => host e && torn.contains (e.1, e.2.piece)
    let keep := sv.units.filter (fun e => !hurt e)
    let gone := (sv.units ++ sv.lost).filter hurt
    let bytes := 4096 * (gone.map (fun e => e.2.lostUnits.length)).sum
    let s1 := (List.range 4).foldl (fun (t : State) k => (t.setBuf k ((keep.filter (fun e => decide (e.1 = k))).map (fun e => e.2))).showWbuf k) s
    let s2 := gone.foldl (fun t e => t.markLost e.2) s1
    let total := 4096 * sv.units.length
    let s3 : State := { s2 with flash.save := none, flash.restored := keep.map (fun e => (e.1, e.2.seq)), flash.lastLost := bytes, flash.degraded := s2.flash.degraded || !sv.done,
                                flash.saveLog := ((sv.time, total) :: s2.flash.saveLog).take 16, boot.saves := s2.boot.saves + 1, boot.lostBytes := s2.boot.lostBytes + bytes }
    let s4 := (s3.setFld F.HOLDUP_LAST_SAVE_BYTES total).raise F.HOLDUP_INT_STATUS_SAVE_RESTORED_SEEN R.HOLDUP_INT_ENABLE
    if bytes = 0 then s4 else s4.raise F.HOLDUP_INT_STATUS_WRITE_LOST_SEEN R.HOLDUP_INT_ENABLE

/-- The start of the media: discovery, the restore, and, Fabric Time not being LOCKED at a start, a patrol of every band (R390, R392). -/
def State.startMedia (s : State) (info : BootInfo) : State :=
  let s1 := (s.discover info).restoreSave
  let s2 := s1.dataSlices.foldl (fun t k => (t.showWbuf k).startPatrol k) s1
  let s3 := match s2.nv.test with
    | some t => (s2.setFld F.NVME_SELFTEST_KIND t.code).setFld F.NVME_SELFTEST_SEGMENT t.segment
    | none => s2
  (List.range 4).foldl (fun (t : State) k => t.armWindow k) s3

/-! Plinth ROM and stage 1 (R481 to R487). -/

/-- The candidates, in order (R481). -/
def romCandidates (forced : Bool) (r : Option FlagRec) : List Nat :=
  if forced then [0]
  else match r with
    | none => [1, 2, 0]
    | some f =>
      if f.state = 0 then [f.active, 3 - f.active, 0]
      else if f.boots < 3 then [f.active] ++ (if f.previous = 0 then [] else [f.previous]) ++ [0]
      else (if f.previous = 0 then [] else [f.previous]) ++ [0]

/-- The digest that the ruling record names for a slot (R482). -/
def FlagRec.digestOf (f : FlagRec) (n : Nat) : Option (List Byte) :=
  if n = f.active then some f.activeDigest else if n = f.previous ∧ n ≠ 0 then some f.previousDigest else none

/-- Try the candidates in turn (R481 to R483): the slot that boots, and whether it headed the list. A trial boot of ACTIVE_SLOT writes its
count first, and does not boot when that fails. -/
def State.romTry (s : State) (ok : Bool) (r : Option FlagRec) : List Nat → Bool → State × Option (Nat × Bool)
  | [], _ => (s, none)
  | n :: ns, head =>
    let why := s.slotFlaw n (r.bind (fun f => f.digestOf n))
    let s1 := s.setFld (F.BOOT_FAIL n) why
    let trial := match r with
      | some f => if head ∧ f.state = 1 ∧ f.boots < 3 ∧ n = f.active then some f else none
      | none => none
    if why ≠ 1 then s1.romTry ok r ns false
    else match trial with
      | some f => let s2 := s1.writeFlag { f with boots := f.boots + 1 } ok
                  if ok then (s2, some (n, head)) else s2.romTry ok r ns false
      | none => (s1, some (n, head))

/-- CAUSE of BOOT_STATUS. -/
def bootCause (forced : Bool) (r : Option FlagRec) (n : Nat) (head : Bool) : Nat :=
  if forced then 4
  else match r with
    | some f =>
      if f.state = 1 ∧ f.boots < 3 ∧ head then 1
      else if f.state = 1 ∧ 3 ≤ f.boots then (if n = f.previous ∧ n ≠ 0 then 2 else 3)
      else if head then 0 else 3
    | none => if head then 0 else 3

/-- The device enters Recovery (R487): only PF0 is presented, on link 0. -/
def State.enterRecovery (s : State) : State :=
  let f := fun (n : Nat) => s.fld (F.BOOT_FAIL n)
  let s1 := (s.setFld F.RCV_STATUS (f 0 + 16 * f 1 + 256 * f 2)).setFld (F.INST_CFG_TYPE 0) 1
  { (s1.setFld (F.PCIE_LINK_STATE_STATE 0) lsDetect).setFld F.PIN_STATUS_DEV_READY 1 with boot.recovery := true }

/-- Load the parse microcode into the inactive bank of every slice and switch to it (R159). -/
def State.loadParse (s : State) (words : List Byte) : State :=
  (List.range 4).foldl (fun (t : State) k =>
    let bank := 1 - t.fld (F.PARSE_BANK_ACTIVE k)
    let base := 4096 * k + 2048 * bank
    let clean := Map.eraseIf (fun a _ => decide (base ≤ a ∧ a < base + 2048)) t.eth.prog
    let prog := (List.range (min 2048 (words.length / 4))).foldl (fun (m : Map Nat) i => Map.put (fun _ => 0) m (base + i) (leAt words (4 * i) 4)) clean
    { t with eth.prog := prog }.setFld (F.PARSE_BANK_ACTIVE k) bank) s

/-- Show the durable part, the fuses and the lock (R479, R495, R499). -/
def State.showDurable (s : State) : State :=
  let rev := ((List.range 4).map (fun k => if s.boot.revoked.getD k 0 = 0 then 0 else 2 ^ k)).sum
  let s1 := ((s.setFld F.BOOT_KEYS_PROGRAMMED 15).setFld F.BOOT_KEYS_REVOKED rev).setFld F.BOOT_CUSTODY_LOCKED (b2n s.boot.custody.isSome)
  ((s1.setFld F.BOOT_COUNT s.boot.count).setFld F.ACC_TIME_FLOOR s.boot.accFloor).setFld F.HOLDUP_SAVES s.boot.saves |>.setFld F.HOLDUP_LOST_BYTES s.boot.lostBytes |>.setFld F.ROOT_PROVISION_CLOSED (b2n s.boot.rootProvision)

/-- Stage 1 and the Keeper firmware of the booted package start the device (R216, R484, R486, R493, R497). -/
def State.startFirmware (s : State) (n cause : Nat) (info : BootInfo) : State :=
  let pkg := s.slotPkg n
  let s1 := (((s.setFld F.BOOT_STATUS_BOOTED_SLOT n).setFld F.BOOT_STATUS_CAUSE cause).setFld F.BOOT_STATUS_IMAGE_STATE (b2n (decide (cause = 1)))).showRuling
  let s2 := match cause, s1.ruling with
    | 2, some r =>
      let t := s1.writeFlag r.reverted info.revertWrite
      if info.revertWrite then t.raise F.BOOT_INT_STATUS_REVERTED_SEEN R.BOOT_INT_ENABLE else t
    | _, _ => s1
  let s3 := if cause = 3 then s2.raise F.BOOT_INT_STATUS_FALLBACK_SEEN R.BOOT_INT_ENABLE else s2
  let s4 : State := { s3 with boot.count := s3.boot.count + 1, boot.owner := pkgDigest pkg, boot.confVersion := pkgConfigVersion pkg }
  let s5 := ((s4.chooseConfig pkg info.configWrite).applyConfig).setFld F.FED_EPOCH_OWN (pkgEpoch pkg)
  let s6 := if s5.committed 0 then s5 else s5.raise F.BOOT_INT_STATUS_GOLDEN_INVALID_SEEN R.BOOT_INT_ENABLE
  let s7 := (s6.restoreSlots info.badKeys).loadParse (pkgComponent pkg 4)
  let s8 := (s7.startMedia info).showDurable.setFld F.PIN_STATUS_DEV_READY 1
  let secs := s8.fld F.BOOT_WATCHDOG
  { s8 with boot.watchdog := if cause = 1 then some (s8.time.mono + (if secs = 0 then 60 else secs) * ticksPerSec) else none, flash.startAt := s8.time.mono }

/-- PLINTH_ROM_BOOT (R481 to R487): Plinth ROM runs once after each device reset. -/
def execPlinthRomBoot (info : BootInfo) (s : State) : Host.Outcome State Fault Refusal := whenUp s <|
  if !s.boot.romPending then .next s
  else
    let s0 : State := { s with boot.romPending := false }
    let g := s.on F.STRAP_STATUS_GOLDEN_N
    let v := s.on F.STRAP_STATUS_RECOVER_N
    let s1 := (s0.setFld F.BOOT_STATUS_GOLDEN (b2n !g)).setFld F.BOOT_STATUS_RECOVER (b2n !v)
    let forced := !g || !v
    let r := s1.ruling
    let used := if forced then none else r
    let s2 := match used with
      | some f => if f.state = 1 ∧ 3 ≤ f.boots then s1.setFld (F.BOOT_FAIL f.active) 11 else s1
      | none => s1
    match s2.romTry info.trialWrite used (romCandidates forced r) true with
    | (s3, none) => .next s3.enterRecovery
    | (s3, some (n, head)) => .next (s3.startFirmware n (bootCause forced r n head) info)

/-- RCV_CTRL_ENABLE (R487): both Recovery rings become ACTIVE with heads and tails zero. -/
def execRcvCtrlEnable (agent : Agent) (s : State) : Host.Outcome State Fault Refusal := whenUp s <|
  if s.boot.recovery ∧ accessOk R.RCV_CTRL true agent then .next { s.setFld F.RCV_CTRL_ENABLE 1 with boot.rcv := { active := true } } else .next s

end Sys2Proof.Machine
end

