-- ==== Sys2Proof/Machine/NvRegs.lean ====
section
/-!
DEFINITION. The NVMe controller register set of a function (R334, R337, R417; the layout of NVMe 2.0): what a read gives and what a write does, for
a host's own accesses and for those the anchor of a bound function forwards.
-/

namespace Sys2Proof.Machine

/-- The 32-bit word of a controller's register set at byte offset off. -/
def State.nvWord (s : State) (i off : Nat) : Nat :=
  let c := s.nvc i
  match off with
  | 0x00 => nvCap % 2 ^ 32
  | 0x04 => nvCap / 2 ^ 32
  | 0x08 => 0x00020000
  | 0x0C | 0x10 => c.intms
  | 0x14 => c.cc
  | 0x1C => c.csts
  | 0x24 => c.aqa
  | 0x28 => c.asq % 2 ^ 32
  | 0x2C => c.asq / 2 ^ 32
  | 0x30 => c.acq % 2 ^ 32
  | 0x34 => c.acq / 2 ^ 32
  | _ => 0

/-- A 64-bit read of the register set; a function that is no controller reads zero. -/
def State.nvRegRead (s : State) (i off : Nat) : Nat := if s.isCtrl i then s.nvWord i off + 2 ^ 32 * s.nvWord i (off + 4) else 0

/-- A write of CC (R334, R339). -/
def State.nvCc (s : State) (i v : Nat) : State :=
  let c := s.nvc i
  if !c.en && bitOf v 0 then s.nvEnable i v
  else if c.en && !bitOf v 0 then s.nvDisable i v
  else if bitsOf v 15 14 ≠ 0 then s.nvShutdown i v
  else s.setNvc i { c with cc := v }

/-- INTMC clears mask bits; vectors that INTMS held back and that are free now are signalled (R337). -/
def State.nvUnmask (s : State) (i v : Nat) : State :=
  let c := s.nvc i
  let m := c.intms &&& (2 ^ 32 - 1 - v % 2 ^ 32)
  let free := c.intPend.filter (fun x => !bitOf m (x % 32))
  free.foldl (fun t x => t.signalVector i x) (s.setNvc i { c with intms := m, intPend := c.intPend.filter (fun x => bitOf m (x % 32)) })

/-- Write the 32-bit word at byte offset off of a controller's register set. The admin queue registers are written while the controller is
disabled. -/
def State.nvRegWrite (s : State) (i off v : Nat) : State :=
  let c := s.nvc i
  if !s.isCtrl i then s
  else if 0x1000 ≤ off then
    if off % 8 = 0 then s.nvSqBell i ((off - 0x1000) / 8) (v % 65536) else s.nvCqBell i ((off - 0x1000) / 8) (v % 65536)
  else match off with
    | 0x0C => s.setNvc i { c with intms := c.intms ||| v }
    | 0x10 => s.nvUnmask i v
    | 0x14 => s.nvCc i v
    | 0x24 => if c.en then s else s.setNvc i { c with aqa := v &&& 0x0FFF0FFF }
    | 0x28 => if c.en then s else s.setNvc i { c with asq := c.asq / 2 ^ 32 * 2 ^ 32 + v / 4096 * 4096 }
    | 0x2C => if c.en then s else s.setNvc i { c with asq := c.asq % 2 ^ 32 + 2 ^ 32 * v }
    | 0x30 => if c.en then s else s.setNvc i { c with acq := c.acq / 2 ^ 32 * 2 ^ 32 + v / 4096 * 4096 }
    | 0x34 => if c.en then s else s.setNvc i { c with acq := c.acq % 2 ^ 32 + 2 ^ 32 * v }
    | _ => s

end Sys2Proof.Machine
end

