-- ==== Sys2Proof/Machine/Fw.lean ====
section
/-!
DEFINITION. The opcodes of firmware update, key revocation, the Custody Lock and the configuration (R480, R488 to R498, R521). The payload of an
opcode is laid out as log entry 12 says: each number takes four bytes, in the order the spec lists them, and byte strings follow.
-/

namespace Sys2Proof.Machine

/-- Number i of a payload (log entry 12). -/
def MgmtCmd.num (c : MgmtCmd) (i : Nat) : Nat := leAt c.payload (4 * i) 4

/-! Refusal states (R494, R498, R501). -/

/-- Which update opcode asks. -/
inductive FwOp where
  | start | chunk | close | activate
  deriving DecidableEq, Repr

/-- Is the booted package in TRIAL? -/
def State.inTrial (s : State) : Bool := s.on F.BOOT_STATUS_IMAGE_STATE

/-- HOLDUP_LOW (R494). -/
def State.holdupLow (s : State) : Bool :=
  decide (0 < s.bankParam 0) && (decide (s.holdup = 3) || decide (s.fld F.HOLDUP_CHARGE_PCT < s.fld F.BOOT_HOLDUP_THRESH))

/-- Another member reports a TRIAL boot (R501). -/
def State.othersInTrial (s : State) : Bool :=
  decide (s.fld F.FED_STATE_STATE ≠ 0) && s.fed.roster.any (fun m => decide (m.id ≠ s.fedId) && bitOf m.boot 8)

/-- The target's EPOCH differs by two or more from a member's OWN_EPOCH (R501). -/
def State.pkgEpochGap (s : State) (pkg : List Byte) : Bool :=
  decide (s.fld F.FED_STATE_STATE ≠ 0) && s.fed.roster.any (fun m => decide (m.own + 2 ≤ pkgEpoch pkg ∨ pkgEpoch pkg + 2 ≤ m.own))

/-- CONFIG_INCOMPATIBLE (R498). -/
def State.configMisfit (s : State) (pkg : List Byte) : Bool :=
  match s.ownBank (pkgDigest pkg), s.ownBank s.boot.owner with
  | none, some b => decide (b.version < pkgMinConfig pkg ∨ pkgConfigVersion pkg < b.version)
  | _, _ => false

/-- The first refusal state that holds (R494); the target package, for ACTIVATE. In Recovery only the first and the third apply (R488). -/
def State.updateRefusal (s : State) (op : FwOp) (pkg : List Byte) : Option Nat :=
  let run := !s.boot.recovery
  let act := decide (op = .activate)
  if s.boot.custody.isSome then some St.CUSTODY_LOCKED
  else if run && s.on F.FED_STATE_MOVING then some St.MEMBERSHIP_MOVING
  else if s.holdupLow then some St.HOLDUP_LOW
  else if run && decide (op = .start ∨ op = .activate) && s.inTrial then some St.TRIAL_PENDING
  else if run && act && s.othersInTrial then some St.UPDATE_IN_PROGRESS
  else if run && act && s.pkgEpochGap pkg then some St.EPOCH_GAP
  else if run && act && s.configMisfit pkg then some St.CONFIG_INCOMPATIBLE
  else none

/-- Answer, or refuse and count (R494). -/
def State.updateOp (s : State) (op : FwOp) (pkg : List Byte) (f : State → State × MgmtReply) : State × MgmtReply :=
  match s.updateRefusal op pkg with
  | some st => (s.satFld F.UPDATE_REFUSED 1, mkReply st [] 0)
  | none => f s

/-! Writing a package (R489, R490, R493). -/

/-- May a write session name slot n (R490, R493; in Recovery R488)? -/
def State.slotWritable (s : State) (n : Nat) : Bool :=
  let booted := s.fld F.BOOT_STATUS_BOOTED_SLOT
  if s.boot.recovery then decide (n = 1 ∨ n = 2)
  else match s.ruling with
    | none => decide (n = 1 ∨ n = 2)
    | some r =>
      if n = 0 then decide (r.state = 0 ∧ booted = r.active)
      else if n = 1 ∨ n = 2 then
        let plain := decide (n ≠ r.active) && !(decide (r.state = 1) && decide (n = r.previous))
        plain || (decide (booted = 0 ∧ r.state = 1) && decide (2 ≤ s.fld (F.BOOT_FAIL n) ∧ s.fld (F.BOOT_FAIL n) ≤ 11))
      else false

/-- The bytes a session writes: the slot's, or in Recovery the staging area. -/
def State.target (s : State) (n : Nat) : Map Byte := if s.boot.recovery then s.boot.staged else s.boot.slots.getD n []

def State.setTarget (s : State) (n : Nat) (m : Map Byte) : State :=
  if s.boot.recovery then { s with boot.staged := m } else { s with boot.slots := s.boot.slots.set n m }

/-- Erased flash reads all ones. -/
def norErased (_ : Nat) : Byte := 0xFF

/-- Write bytes at an offset: each 64 KiB sector is erased before its first byte is written (R489). -/
def norWrite (m : Map Byte) (off : Nat) (data : List Byte) : Map Byte :=
  let fresh := fun (a : Nat) => decide (off ≤ a / 65536 * 65536 ∧ a / 65536 * 65536 < off + data.length)
  let clean := Map.eraseIf (fun a _ => fresh a) m
  ((List.range data.length).zip data).foldl (fun t e => Map.put norErased t (off + e.1) e.2) clean

/-- The package of a session's slot as it stands. -/
def State.targetPkg (s : State) (n len : Nat) : List Byte := (List.range len).map (fun a => Map.get norErased (s.target n) a)

/-- FW_WRITE_BEGIN on slot n for a package of len bytes. -/
def State.fwBegin (s : State) (n len : Nat) (nor : Bool) : State × MgmtReply :=
  s.updateOp .start [] (fun s =>
    if !s.slotWritable n then (s, mkReply St.FW_SLOT_INVALID [] 0)
    else if len < pkgHead ∨ pkgMax < len then (s, mkReply St.FW_IMAGE_INVALID [] 3)
    else
      let ses : FwSession := { slot := n, len := len }
      if s.boot.recovery then ({ s with boot.session := some ses, boot.staged := [] }, mkReply St.SUCCESS [] 0)
      else
        let s1 : State := { s with boot.commits := s.boot.commits.set n none, boot.session := if nor then some ses else none }
        (s1, mkReply (if nor then St.SUCCESS else St.FW_NOR_ERROR) [] 0))

/-- FW_WRITE_CHUNK of data at an offset. The golden slot takes only a package that allows it (R493). -/
def State.fwChunk (s : State) (off : Nat) (data : List Byte) (nor : Bool) : State × MgmtReply :=
  s.updateOp .chunk [] (fun s =>
    match s.boot.session with
    | none => (s, mkReply St.FW_STATE_INVALID [] 0)
    | some ses =>
      if off ≠ ses.next then (s, mkReply St.FW_CHUNK_ORDER [] ses.next)
      else if ses.len < off + data.length then (s.draw, mkReply s.anyStatus [] 0)
      else if !nor && !s.boot.recovery then
        (s.draw.setTarget ses.slot (norWrite (s.target ses.slot) off ((List.range data.length).map (Config.random s.freeCtr))), mkReply St.FW_NOR_ERROR [] 0)
      else
        let m := norWrite (s.target ses.slot) off data
        let done : FwSession := { ses with next := off + data.length }
        if ses.slot = 0 ∧ ses.next < 23 ∧ 23 ≤ done.next ∧ !bitOf (Map.get norErased m 22).toNat 0 then (s, mkReply St.FW_SLOT_INVALID [] 0)
        else ({ s.setTarget ses.slot m with boot.session := some done }, mkReply St.SUCCESS [] 0))

/-- FW_WRITE_END: the package is read back and verified, and committed; in Recovery only a verified package reaches the slot. -/
def State.fwEnd (s : State) (nor : Bool) : State × MgmtReply :=
  s.updateOp .close [] (fun s =>
    match s.boot.session with
    | none => (s, mkReply St.FW_STATE_INVALID [] 0)
    | some ses =>
      let p := s.targetPkg ses.slot ses.len
      let why := if pkgLen p ≠ ses.len then 3 else s.pkgFlaw p none
      let s1 : State := { s with boot.session := none }
      if why ≠ 1 then (s1, mkReply St.FW_IMAGE_INVALID [] why)
      else
        let s2 : State := if s.boot.recovery then { s1 with boot.slots := s1.boot.slots.set ses.slot s1.boot.staged, boot.staged := [] } else s1
        let c : Commit := { len := ses.len, crc := crc32c p, digest := pkgDigest p }
        ({ s2 with boot.commits := s2.boot.commits.set ses.slot (if nor then some c else none) }, mkReply (if nor then St.SUCCESS else St.FW_NOR_ERROR) [] 0))

/-! Activation (R491, R484). -/

/-- A digest field that names nothing. -/
def noDigest : List Byte := List.replicate 48 0

/-- The signature digest of what slot n holds. -/
def State.slotDigest (s : State) (n : Nat) : List Byte := sha384 (s.slotRead n 0 672)

/-- The record that FW_ACTIVATE writes (R491). The spec does not say what PREVIOUS_SLOT is when the booted slot is named: it is a free value. -/
def State.activateRecord (s : State) (n : Nat) : FlagRec :=
  let booted := s.fld F.BOOT_STATUS_BOOTED_SLOT
  let dig := fun (m : Nat) => if m = 0 then noDigest else s.slotDigest m
  if n = booted ∧ !s.boot.recovery then
    let p := Config.unstated s.freeCtr % 3
    { seq := 0, active := n, previous := p, state := 0, boots := 0, activeDigest := dig n, previousDigest := dig p }
  else
    let p := if s.boot.recovery then 0 else booted
    { seq := 0, active := n, previous := p, state := 1, boots := 0, activeDigest := dig n, previousDigest := dig p }

/-- FW_ACTIVATE of slot n. -/
def State.fwActivate (s : State) (n : Nat) (now nor : Bool) : State × MgmtReply :=
  if n ≠ 1 ∧ n ≠ 2 then (s, mkReply St.FW_SLOT_INVALID [] 0)
  else
    let why := s.slotFlaw n none
    if why ≠ 1 then (s, mkReply St.FW_IMAGE_INVALID [] why)
    else s.updateOp .activate (s.slotPkg n) (fun s =>
      let s1 := s.draw.writeFlag (s.activateRecord n) nor
      if nor then (s1, { mkReply St.SUCCESS [] 0 with resets := now }) else (s1, mkReply St.FW_NOR_ERROR [] 0))

/-- FW_CONFIRM (R489). -/
def State.fwConfirm (s : State) (nor : Bool) : State × MgmtReply :=
  match s.inTrial, s.ruling with
  | true, some r =>
    let s1 := s.writeFlag { r with state := 0 } nor
    if nor then ({ s1.setFld F.BOOT_STATUS_IMAGE_STATE 0 with boot.watchdog := none }, mkReply St.SUCCESS [] 0) else (s1, mkReply St.FW_NOR_ERROR [] 0)
  | _, _ => (s, mkReply St.FW_STATE_INVALID [] 0)

/-- FW_REVERT (R484, R489); without a previous slot there is no revert record. -/
def State.fwRevert (s : State) (nor : Bool) : State × MgmtReply :=
  match s.inTrial, s.ruling with
  | true, some r =>
    if r.previous = 0 then (s, mkReply St.FW_STATE_INVALID [] 0)
    else (s.writeFlag r.reverted nor, mkReply (if nor then St.SUCCESS else St.FW_NOR_ERROR) [] 0)
  | _, _ => (s, mkReply St.FW_STATE_INVALID [] 0)

/-- What FW_QUERY reports (R489): of each slot, whether it is committed, VERSION, EPOCH, KEY_SLOT and signature digest; the ruling record;
BOOT_STATUS; in Recovery the boot fields of RCV_STATUS. -/
def State.fwQuery (s : State) : State × MgmtReply :=
  let one := fun (n : Nat) =>
    let p := s.slotRead n 0 672
    [b2n (s.committed n), pkgVersion p, pkgEpoch p, pkgKeySlot p, leNat (sha384 p)]
  let rul := match s.ruling with
    | some r => [1, r.seq, r.active, r.previous, r.state, r.boots, leNat r.activeDigest, leNat r.previousDigest]
    | none => [0]
  (s, mkReply St.SUCCESS (pageBytes 0x0306 (one 0 ++ one 1 ++ one 2 ++ rul ++ [(s.rd R.BOOT_STATUS).toNat, (s.rd R.RCV_STATUS).toNat])) 0)

/-- Give an opcode's function the holder's command. -/
def State.runReply (s : State) (op : Nat) (f : State → MgmtCmd → State × MgmtReply) : State :=
  s.mgmtRun op (fun t c => let r := f t c; (r.1, some r.2))

/-- FW_WRITE_BEGIN (R489, R490, R493, R494); `nor` says whether the boot NOR takes the write. -/
def execFwWriteBegin (nor : Bool) (s : State) : Host.Outcome State Fault Refusal := whenUp s <| .next (s.runReply 0x0300 (fun t c => t.fwBegin (c.num 0) (c.num 1) nor))

/-- FW_WRITE_CHUNK (R489, R517). -/
def execFwWriteChunk (nor : Bool) (s : State) : Host.Outcome State Fault Refusal := whenUp s <| .next (s.runReply 0x0301 (fun t c => t.fwChunk c.objOffset c.payload nor))

/-- FW_WRITE_END (R488, R489). -/
def execFwWriteEnd (nor : Bool) (s : State) : Host.Outcome State Fault Refusal := whenUp s <| .next (s.runReply 0x0302 (fun t _ => t.fwEnd nor))

/-- FW_ACTIVATE (R488, R491, R494): the payload's bit 0 is RESET_NOW, and its second number the slot. -/
def execFwActivate (nor : Bool) (s : State) : Host.Outcome State Fault Refusal := whenUp s <|
  .next (s.runReply 0x0303 (fun t c => t.fwActivate (c.num 1) (bitOf (c.num 0) 0) nor))

/-- FW_CONFIRM (R489). -/
def execFwConfirm (nor : Bool) (s : State) : Host.Outcome State Fault Refusal := whenUp s <| .next (s.runReply 0x0304 (fun t _ => t.fwConfirm nor))

/-- FW_REVERT (R484, R489). -/
def execFwRevert (nor : Bool) (s : State) : Host.Outcome State Fault Refusal := whenUp s <| .next (s.runReply 0x0305 (fun t _ => t.fwRevert nor))

/-- FW_QUERY (R489). -/
def execFwQuery (s : State) : Host.Outcome State Fault Refusal := whenUp s <| .next (s.runReply 0x0306 (fun t _ => t.fwQuery))

/-! Key slots (R479, R480). -/

/-- The slots whose packages verify under the live keys. -/
def State.bootable (s : State) : Nat := ((List.range 3).map (fun n => if s.slotFlaw n none = 1 then 2 ^ n else 0)).sum

/-- KEY_REVOKE (R480): the last live slot is refused before the statement is judged, which no signer could make. -/
def State.keyRevoke (s : State) (k : Nat) (key sig : List Byte) : State × MgmtReply :=
  let others := (List.range 4).filter (fun j => decide (j ≠ k) && s.keyLive j)
  let msg := [BitVec.ofNat 8 k] ++ List.replicate 7 0 ++ leBytes 8 Config.serialNumber
  if 4 ≤ k then (s, mkReply St.KEY_STATEMENT_INVALID [] 0)
  else if s.keyLive k ∧ others.isEmpty then (s, mkReply St.LAST_KEY [] 0)
  else if !(others.any (fun j => decide (Config.keyDigest j = sha384 key)) && ecdsaVerify key sig (sha384 msg)) then (s, mkReply St.KEY_STATEMENT_INVALID [] 0)
  else
    let s1 := State.showDurable { s with boot.revoked := s.boot.revoked.set k 7 }
    (s1, mkReply St.SUCCESS [] s1.bootable)

/-- KEY_REVOKE (R480). -/
def execKeyRevoke (s : State) : Host.Outcome State Fault Refusal := whenUp s <|
  .next (s.runReply 0x0310 (fun t c => t.keyRevoke (c.num 0) (slice c.payload 4 96) (slice c.payload 100 96)))

/-! The Custody Lock (R495). -/

/-- Store or drop the owner's key digest in the durable part. -/
def State.setCustody (s : State) (d : Option (List Byte)) : State := { s with boot.custody := d }.setFld F.BOOT_CUSTODY_LOCKED (b2n d.isSome)

/-- CUSTODY_SET (R495). -/
def execCustodySet (nor : Bool) (s : State) : Host.Outcome State Fault Refusal := whenUp s <|
  .next (s.runReply 0x0320 (fun t c =>
    if t.boot.custody.isSome then (t, mkReply St.CUSTODY_LOCKED [] 0)
    else if !nor then (t, mkReply St.FW_NOR_ERROR [] 0)
    else (t.setCustody (some (sha384 (slice c.payload 0 96))), mkReply St.SUCCESS [] 0)))

/-- CUSTODY_CHALLENGE (R495): a nonce of the hub DRBG. -/
def execCustodyChallenge (s : State) : Host.Outcome State Fault Refusal := whenUp s <|
  .next (s.runReply 0x0321 (fun t _ =>
    if t.rngState ≠ rngOk then (t, mkReply St.CIPHER_RNG_UNAVAILABLE [] 0)
    else
      let r := t.drbg 4 32
      ({ r.1 with boot.nonce := some (r.2, t.time.mono) }, mkReply St.SUCCESS r.2 0)))

/-- Does an owner's statement clear the lock: the nonce used once within 60 s, the key digest matching and the signature verifying (R495)? -/
def State.custodyProof (s : State) (key sig : List Byte) : Bool :=
  match s.boot.nonce with
  | none => false
  | some (n, at_) => decide (s.time.mono ≤ at_ + 60 * ticksPerSec) && decide (s.boot.custody = some (sha384 key)) &&
      ecdsaVerify key sig (sha384 (n ++ leBytes 8 Config.serialNumber ++ ascii4 "CCLR"))

/-- CUSTODY_CLEAR (R495). -/
def execCustodyClear (nor : Bool) (s : State) : Host.Outcome State Fault Refusal := whenUp s <|
  .next (s.runReply 0x0322 (fun t c =>
    let good := t.custodyProof (slice c.payload 0 96) (slice c.payload 96 96)
    let t1 : State := { t with boot.nonce := none }
    if !good then (t1, mkReply St.CUSTODY_AUTH_FAIL [] 0)
    else if !nor then (t1, mkReply St.FW_NOR_ERROR [] 0)
    else (t1.setCustody none, mkReply St.SUCCESS [] 0)))

/-! Configuration items (R496, R521). -/

/-- CONFIG_GET (R521). -/
def execConfigGet (s : State) : Host.Outcome State Fault Refusal := whenUp s <|
  .next (s.runReply 0x0200 (fun t c =>
    let n := c.num 0
    if 1 ≤ n ∧ n ≤ 8 then (t, mkReply St.SUCCESS (t.item n) 0) else (t.draw, mkReply t.anyStatus [] 0)))

/-- More than 4,096 VFs in all (R411)? -/
def tooManyVfs (v : List Byte) : Bool := decide (4096 < ((List.range 8).map (fun p => Config.itemField 1 v (3 * p + 2))).sum)

/-- CONFIG_SET (R411, R496, R521): the whole configuration goes into the other bank; items 3 to 7 apply when the reply is sent. -/
def execConfigSet (nor : Bool) (s : State) : Host.Outcome State Fault Refusal := whenUp s <|
  .next (s.runReply 0x0201 (fun t c =>
    let n := c.num 0
    let v := c.payload.drop 4
    if t.inTrial then (t, mkReply St.TRIAL_PENDING [] 0)
    else if n = 0 ∨ 8 < n ∨ (n = 1 ∧ tooManyVfs v) then (t.draw, mkReply t.anyStatus [] 0)
    else
      let items := insertBy (fun (e : Nat × List Byte) => (e.1 : Int)) (n, v) (t.boot.items.filter (fun e => decide (e.1 ≠ n)))
      let t1 := t.writeBank (t.ownBank t.boot.owner) t.boot.confVersion t.boot.owner items nor
      if nor then ({ t1 with boot.items := items }, { mkReply St.SUCCESS [] 0 with item := some n }) else (t1, mkReply St.FW_NOR_ERROR [] 0)))

end Sys2Proof.Machine
end

