-- ==== Sys2Proof/Machine/Inst.lean ====
section
/-!
DEFINITION. Instances: their states, the Instance Translation Unit's walks and invalidations, and the hub fault queue (R449 to R464).
-/

namespace Sys2Proof.Machine

/-! Instance states (R461, R462, R464). -/

/-- What is in flight for an instance (R462): started jobs without a completion, fetched NVMe commands that have not posted, and tags held. An
Asynchronous Event Request waits for an event and is not counted. -/
def State.inFlight (s : State) (i : Nat) : Nat :=
  let jobs := ((s.srsWith (fun k q => decide (s.srInst k q = i))).map (fun e => (s.srx e.1 e.2).started.length)).sum
  let cmds := (s.nv.cmds.filter (fun c => decide (c.inst = i) && !decide (c.sq = 0 ∧ c.opc = 0x0C))).length
  jobs + cmds + ((List.range 4).map (fun k => s.tagsOf k i)).sum

/-- May the manager or the Keeper configure instance i: it is present (R449)? -/
def State.instWritable (s : State) (a : Nat) (g : Agent) (i : Nat) : Bool := decide (i < 4104) && decide (s.instType i ≠ 0) && accessOk a true g

/-- DISCARD (R461): queue pairs to RESET, registrations freed, rings and queues deleted. -/
def State.discardInst (s : State) (i : Nat) : State :=
  let s1 := ((s.stopReads i false).resetRings i).kraDiscard i
  let s2 := if s1.isCtrl i then s1.nvReset i else s1
  s2.setFld (F.INST_CFG_STATE i) instDisabled

/-- A QUIESCE that waits for this instance is answered. -/
def State.quiesceReply (s : State) (i status detail : Nat) : State :=
  let x := s.instX i
  if x.quiesceWaits then (s.setInstX i { x with quiesceWaits := false }).mgmtAnswer 0x0500 (mkReply status [] detail) else s

/-- ENABLE is written 1 (R461). -/
def State.instEnable (s : State) (i : Nat) : State :=
  let s1 := s.setFld (F.INST_CFG_ENABLE i) 1
  if s.instState i = instDisabled then s1.setFld (F.INST_CFG_STATE i) instEnabled else s1

/-- ENABLE is written 0 (R461, R464): outside QUIESCED and FROZEN, with a loss report. -/
def State.instDisable (s : State) (i : Nat) : State :=
  let s1 := s.setFld (F.INST_CFG_ENABLE i) 0
  let st := s.instState i
  if st = instDisabled then s1
  else if st = instEnabled ∨ st = instQuiescing then
    let recs := s.cutRecs i
    let s2 := (s1.discardInst i).quiesceReply i St.INSTANCE_STATE_INVALID 0
    if recs.isEmpty then s2 else s2.lossReport i 6 .removed recs
  else s1.discardInst i

/-- INSTANCE_ENABLE (R461). -/
def execInstanceEnable (agent : Agent) (inst : Nat) (s : State) : Host.Outcome State Fault Refusal := whenSlices s <|
  if s.instWritable (R.INST_CFG inst) agent inst then .next (s.instEnable inst) else .next s

/-- INSTANCE_DISABLE (R461, R464). -/
def execInstanceDisable (agent : Agent) (inst : Nat) (s : State) : Host.Outcome State Fault Refusal := whenSlices s <|
  if s.instWritable (R.INST_CFG inst) agent inst then .next (s.instDisable inst) else .next s

/-- QUIESCE_DONE (R461): nothing is in flight any more. -/
def execQuiesceDone (inst : Nat) (s : State) : Host.Outcome State Fault Refusal := whenSlices s <|
  if s.instState inst = instQuiescing ∧ s.inFlight inst = 0 then
    .next (((s.setFld (F.INST_CFG_STATE inst) instQuiesced).instEvent inst .quiesced 0).quiesceReply inst St.SUCCESS 0)
  else .next s

/-- INST_QUIESCE_LIMIT (R461): the limit passes; the reply says how much is still in flight. -/
def execInstQuiesceLimit (inst : Nat) (s : State) : Host.Outcome State Fault Refusal := whenSlices s <|
  let x := s.instX inst
  if s.instState inst = instQuiescing ∧ x.quiesceWaits ∧ x.quiesceAt + s.fld F.INST_QUIESCE_LIMIT * ticksPerUs ≤ s.time.mono then
    .next (s.quiesceReply inst St.QUIESCE_TIMEOUT (s.inFlight inst))
  else .next s

/-! Table walks and invalidation (R451 to R457). -/

/-- TABLE_WALK (R451 to R459): a unit of a slice asks for the translation of an address; a miss walks the tables. -/
def execTableWalk (slice inst unit ia : Nat) (write : Bool) (s : State) : Host.Outcome State Fault Refusal := whenSlices s <|
  if 4 ≤ slice ∨ 4104 ≤ inst ∨ 7 ≤ unit then .next s else .next (s.xlate slice inst ia write unit).1

/-- A write of INST_INVAL_CMD (R455): every slice drops the entries that `p` holds of; BUSY is set until the accesses `mine` holds of that were
translated before have retired. One written while BUSY is ignored. -/
def State.invalidate (s : State) (p : Iotlb → Bool) (mine : Nat → Bool) : State :=
  if s.on F.INST_INVAL_STATUS_BUSY then s
  else
    let s1 := (List.range 4).foldl (fun (t : State) k => t.setIotlb k ((t.iotlb k).filter (fun e => !p e))) s
    let reads := (s1.pcie.reads.filter (fun r => mine r.fn)).map (fun r => (r.link, r.tag))
    let frames := (s1.kra.accesses.filter (fun a => mine a.inst && decide (a.stage = 2))).map (fun a => a.frame)
    { s1 with inst.inval := some (reads, frames) }.setFld F.INST_INVAL_STATUS_BUSY 1

/-- INVALIDATE_INSTANCE (R455): scope 0. -/
def execInvalidateInstance (agent : Agent) (inst : Nat) (s : State) : Host.Outcome State Fault Refusal := whenSlices s <|
  if accessOk R.INST_INVAL_CMD true agent then .next (s.invalidate (fun e => decide (e.inst = inst)) (fun i => decide (i = inst))) else .next s

/-- INVALIDATE_REGION (R455): scope 1, the 2 MiB that hold INST_INVAL_ADDR. -/
def execInvalidateRegion (agent : Agent) (inst : Nat) (s : State) : Host.Outcome State Fault Refusal := whenSlices s <|
  let region := s.fld F.INST_INVAL_ADDR / 512
  if accessOk R.INST_INVAL_CMD true agent then
    .next (s.invalidate (fun e => decide (e.inst = inst ∧ e.page / 512 = region)) (fun i => decide (i = inst)))
  else .next s

/-- INVALIDATE_ALL (R455): scope 2. -/
def execInvalidateAll (agent : Agent) (s : State) : Host.Outcome State Fault Refusal := whenSlices s <|
  if accessOk R.INST_INVAL_CMD true agent then .next (s.invalidate (fun _ => true) (fun _ => true)) else .next s

/-- INVALIDATION_DONE (R455): the accesses translated before have retired, and BUSY clears. -/
def execInvalidationDone (s : State) : Host.Outcome State Fault Refusal := whenSlices s <|
  match s.inst.inval with
  | none => .next s
  | some (reads, frames) =>
    if reads.isEmpty && frames.all (fun f => !s.kra.accesses.any (fun a => decide (a.frame = f ∧ a.stage = 2))) then
      .next ({ s with inst.inval := none }.setFld F.INST_INVAL_STATUS_BUSY 0)
    else .next s

/-! The hub fault queue (R459). -/

/-- The doublewords of a fault record. -/
def ItuFault.words (f : ItuFault) : List Nat :=
  [f.inst % 8192 + 2 ^ 16 * f.reason + 2 ^ 20 * f.access + 2 ^ 22 * f.slice + 2 ^ 24 * f.unit + 2 ^ 32 * f.count, f.ia, f.time, 0]

/-- INST_FAULT_POP (R459): the oldest record moves into INST_FAULT_REC. -/
def execInstFaultPop (agent : Agent) (s : State) : Host.Outcome State Fault Refusal := whenSlices s <|
  if !accessOk R.INST_FAULT_POP true agent then .next s
  else match s.inst.faults with
    | [] => .next s
    | f :: rest =>
      let s1 := (List.range 4).foldl (fun (t : State) u => t.wr (R.INST_FAULT_REC u) (BitVec.ofNat 64 (f.words.getD u 0))) s
      .next ({ s1 with inst.faults := rest }.setFld F.INST_FAULT_COUNT rest.length)

end Sys2Proof.Machine
end

