-- ==== Sys2Proof/Machine/Mgmt.lean ====
section
/-!
DEFINITION. Management command packets: their checks, their routes, the intake slot, the replies, relaying, and the Annex Mailbox (R437 to
R447, R504 to R516, R519, R522, R523); the MCTP control messages and NVMe-MI (R333, R509, R574); and the Keeper's event log (R45).
-/

namespace Sys2Proof.Machine

/-- The routes (R511). -/
def routeRing : Nat := 0
def routeMctp : Nat := 1
def routeAnnex : Nat := 2
def routeRelay : Nat := 3

/-- A command that reaches the Keeper once its firmware or the Recovery code runs (R486, R561). -/
def whenKeeper (s : State) (o : Host.Outcome State Fault Refusal) : Host.Outcome State Fault Refusal := 
  if s.running && !s.boot.romPending then settled s o else .next s

/-! Checks (R504, R506, R522). -/

/-- The opcode table (R520). -/
def mgmtOpcodes : List Nat :=
  [0x0100, 0x0101, 0x0200, 0x0201, 0x0210, 0x0211, 0x0212, 0x0213, 0x0214, 0x0215, 0x0216, 0x0220, 0x0221, 0x0222, 0x0223, 0x0224,
   0x0300, 0x0301, 0x0302, 0x0303, 0x0304, 0x0305, 0x0306, 0x0310, 0x0320, 0x0321, 0x0322, 0x0400, 0x0401, 0x0402, 0x0403,
   0x0500, 0x0501, 0x0502, 0x0503, 0x0504, 0x0505, 0x0506, 0x0510, 0x0511, 0x0600, 0x0601, 0x0602, 0x0700, 0x0701, 0x0702, 0x0703,
   0x0704, 0x0705, 0x0800, 0x0801]

/-- What Recovery accepts (R488, R522). -/
def recoveryOpcodes : List Nat := [0x0100, 0x0300, 0x0301, 0x0302, 0x0303, 0x0306, 0x0400, 0x0703]

/-- HDR_CRC matches and every zero field is zero (R504). -/
def mgmtHeaderOk (p : List Byte) : Bool :=
  decide (32 ≤ p.length) && decide (leAt p 28 4 = crc32c (p.take 28)) && decide (leAt p 4 4 / 2 ^ 17 = 0) && decide (leAt p 8 2 / 4 = 0) &&
  decide (leAt p 10 2 / 64 = 0) && decide (leAt p 20 8 = 0)

/-- RELAY and TARGET of a packet. -/
def packetRelay (p : List Byte) : Bool := bitOf (leAt p 8 1) 0
def packetTarget (p : List Byte) : Nat := leAt p 10 1 % 64

/-- The command that a packet carries (R504). -/
def mgmtParse (p : List Byte) : MgmtCmd :=
  { route := 0, opcode := leAt p 0 2, tag := leAt p 2 2, payload := p.drop 32, last := bitOf (leAt p 8 1) 1, objOffset := leAt p 12 4, timeoutMs := leAt p 16 4 }

/-- Is a packet to be executed by another device? A TARGET equal to this device's own ID counts as RELAY 0 (R515). -/
def State.goesOut (s : State) (p : List Byte) : Bool := packetRelay p && !decide (s.on F.FED_ID_VALID ∧ packetTarget p = s.fedId)

/-- The first check that fails, with its status (R506); `relayed` says that the packet is relayed to or from here. -/
def State.mgmtCheck (s : State) (route : Nat) (relayed : Bool) (p : List Byte) : Option Nat :=
  let c := mgmtParse p
  if !mgmtHeaderOk p then some St.MGMT_HEADER_INVALID
  else if 65536 < leAt p 4 4 % 2 ^ 17 ∨ leAt p 4 4 % 2 ^ 17 ≠ c.payload.length then some St.MGMT_LENGTH_INVALID
  else if !mgmtOpcodes.contains c.opcode then some St.MGMT_OPCODE_INVALID
  else if s.boot.recovery && !recoveryOpcodes.contains c.opcode then some St.RECOVERY_ACTIVE
  else if decide (c.opcode = 0x0212) && (decide (route ≠ routeMctp) || relayed) then some St.MGMT_ROUTE_DENIED
  else none

/-! Replies (R505, R508). -/

/-- The reply packet of a command (R505). -/
def State.replyPacket (s : State) (c : MgmtCmd) (r : MgmtReply) : List Byte :=
  let rel := r.relayed || decide (c.route = routeRelay)
  let src := r.source.getD (s.fld F.FED_ID_ID)
  let h := leBytes 2 c.opcode ++ leBytes 2 c.tag ++ leBytes 4 r.payload.length ++ leBytes 2 r.status ++
    leBytes 2 (src % 64 + 64 * b2n rel + 128 * b2n r.last) ++ leBytes 4 r.objOffset ++ leBytes 4 r.remaining ++ leBytes 4 r.detail ++ leBytes 4 0
  h ++ leBytes 4 (crc32c h) ++ r.payload

/-- STATUS and TAG of a reply packet. -/
def packetStatus (p : List Byte) : Nat := leAt p 8 2

/-- RESULT of the job of a ring command (R508). -/
def ringResult (p : List Byte) (room : Nat) : Nat :=
  let n := min (p.length - 32) (room - 32)
  n + 2 ^ 17 * b2n (decide (room - 32 < p.length - 32)) + 2 ^ 32 * leAt p 2 2

/-- Write bytes to host memory untranslated, on link 0 for PF0 (R487). -/
def State.rcvWrite (s : State) (a : Nat) (bs : List Byte) : State :=
  let ps := pieces (s.mpsOf 0) a bs.length
  s.writeTargets 0 false ps (ps.map (fun p => .host 0 p.1 false)) bs

/-- A completion on the Recovery ring (R131, R487), with the vector of RCV_CFG. -/
def State.rcvComplete (s : State) (job : Nat × Bool × Bool) (status result : Nat) : State :=
  let n := s.fld F.RCV_CFG_LOG_SIZE
  let r := s.boot.rcv
  if !r.active ∨ (status / 4096 = 0 ∧ job.2.2) then s
  else
    let e : Compl := { status := status, tsValid := false, sr := 0, srHead := r.srHead, tag := job.1, result := result, irq := job.2.1 }
    let s1 := s.rcvWrite (s.fld F.RCV_CR_BASE * 4096 + 16 * extSlot n r.crTail) (e.bytes false n r.crTail)
    State.signalLocal { s1 with boot.rcv := { r with crTail := extNext n r.crTail } } 0 (s.fld F.RCV_CFG_VECTOR)

/-- A reply goes to the ring command's job and buffer (R508). A reply whose job a reset has taken goes nowhere; one whose write is refused
fails the job with that status. -/
def State.replyRing (s : State) (c : MgmtCmd) (p : List Byte) : State × Bool :=
  match c.rcv, c.job with
  | some j, _ => (((s.rcvWrite c.replyAddr (p.take c.replyMax)).rcvComplete j (packetStatus p) (ringResult p c.replyMax)), true)
  | none, none => (s, true)
  | none, some (k, q, id) =>
    match s.jobById k q id with
    | none => (s, true)
    | some j =>
      if j.outcome.isSome then (s, true)
      else match s.dmaWrite k 0 c.replyAddr (s.jobOp 0 j) (p.take c.replyMax) with
        | (s1, .wait) => (s1, false)
        | (s1, .fail st) => (s1.finish j st 0 false, true)
        | (s1, .ok _) => (s1.finish j (packetStatus p) (ringResult p c.replyMax) false, true)

/-- A reply goes into the Annex window (R443): payload, ANX_LENGTH, RESULT and DONE. -/
def State.deliverAnnex (s : State) (p : List Byte) : State :=
  let d := (p.drop 32).take 3968
  let s1 := (List.range ((d.length + 3) / 4)).foldl (fun (t : State) w => t.setFld (F.ANX_PAYLOAD w) (leAt d (4 * w) 4)) s
  let s2 := ((s1.setFld F.ANX_LENGTH d.length).setFld F.ANX_STATUS_RESULT (packetStatus p)).setFld F.ANX_STATUS_STATE 3
  State.updateInta { s2 with pcie.annex := { s2.pcie.annex with doneAt := s.time.mono, logged := 0 } } 0

/-- Send a relayed reply to the origin (R515). -/
def State.deliverRelay (s : State) (c : MgmtCmd) (p : List Byte) : State :=
  s.fedSend c.origin msgRelayReply (c.originRef :: p.map (fun b => b.toNat)) true

/-- The header of a vendor-defined PCI message of the device (R509): message type 0x7E, vendor ID 0x1D7C. -/
def mctpVendor : List Byte := [0x7E, 0x1D, 0x7C]

/-- A reply packet goes out on its command's route; false where it must be tried again. At most four MCTP replies wait to be transmitted (R510). -/
def State.deliver (s : State) (c : MgmtCmd) (p : List Byte) : State × Bool :=
  if c.route = routeRing then s.replyRing c p
  else if c.route = routeMctp then
    if 4 ≤ s.mgmt.mctpOut.length then (s, false) else ({ s with mgmt.mctpOut := s.mgmt.mctpOut ++ [(c.bus, mctpVendor ++ p, 0)] }, true)
  else if c.route = routeAnnex then (s.deliverAnnex p, true)
  else (s.deliverRelay c p, true)

/-- Answer a command with a reply. -/
def State.answer (s : State) (c : MgmtCmd) (r : MgmtReply) : State × Bool := s.deliver c (s.replyPacket c r)

/-- Answer at once a command that is not executed, and do f to the state when the answer has gone. -/
def State.answerNow (s : State) (c : MgmtCmd) (status detail : Nat) (f : State → State) : State :=
  let r := s.answer c (mkReply status [] detail)
  if r.2 then f r.1 else r.1

/-! Receiving commands (R506, R510, R515). -/

/-- Put a command into the queue of its route: its clock starts (R513). -/
def State.enqueue (s : State) (c : MgmtCmd) : State :=
  { s with mgmt.queue := s.mgmt.queue ++ [{ c with passedAt := s.time.mono, annexAt := s.mgmt.annexTicks }] }

/-- Forward a command to the member it names (R515). -/
def State.relayOut (s : State) (c : MgmtCmd) (p : List Byte) : State :=
  let n := s.mgmt.nextRef
  let r : RelayOut := { ref := n, target := packetTarget p, cmd := { c with passedAt := s.time.mono, annexAt := s.mgmt.annexTicks } }
  let s1 : State := { s with mgmt.relays := s.mgmt.relays ++ [r], mgmt.nextRef := n + 1 }
  (s1.incFld F.MGMT_RELAYED_OUT).fedSend (packetTarget p) msgRelay ([n, c.route] ++ p.map (fun b => b.toNat)) false

/-- Can a command be relayed to device d (R515)? -/
def State.relayable (s : State) (d : Nat) : Bool :=
  decide (s.fedState ≠ fedAlone) && bitOf (s.fld F.FED_MEMBERS) d && decide (s.fld (F.KL_ROUTE d) ≠ 7)

/-- A packet has been received whole on the ring or MCTP: it is checked, then queued, relayed or answered. -/
def State.receive (s : State) (c : MgmtCmd) (p : List Byte) (queued : State → State) : State :=
  match s.mgmtCheck c.route (s.goesOut p) p with
  | some st => s.answerNow c st 0 (fun t => queued (t.incFld F.MGMT_REJECTS))
  | none =>
    if s.goesOut p then
      if s.relayable (packetTarget p) then (queued s).relayOut c p
      else s.answerNow c St.FED_UNREACHABLE 0 queued
    else if c.route = routeMctp ∧ 4 ≤ (s.mgmt.queue.filter (fun x => decide (x.route = routeMctp))).length then
      s.answerNow c St.MGMT_BUSY 0 (fun t => queued (t.satFld F.MGMT_MCTP_BUSY 1))
    else (queued s).enqueue c

/-- Read n bytes of host memory at a for PF0, untranslated (R487). -/
def State.rcvRead (s : State) (a n : Nat) : State × DmaRes :=
  match s.arrivedAt 0 a n with
  | some d => (s, .ok d)
  | none =>
    if s.pcie.reads.any (fun r => decide (r.fn = 0 ∧ r.addr = a ∧ r.len = n) && !r.discard) || !s.busMaster 0 then (s, .wait)
    else (s.issueRead 0 0 0 a n false 0, .wait)

/-- Read a list of pieces, all of them or a wait; the arrived data is used up when all is there. -/
def State.rcvGather (s : State) (ps : List (Nat × Nat)) : State × DmaRes :=
  let r := ps.foldl (fun (acc : State × Option (List Byte)) p =>
    match acc.1.rcvRead p.1 p.2, acc.2 with
    | (t, .ok d), some l => (t, some (l ++ d))
    | (t, _), _ => (t, none)) (s, some [])
  match r.2 with
  | some d => (ps.foldl (fun t p => t.dropArrived (0, p.1, p.2)) r.1, .ok d)
  | none => (r.1, .wait)

/-- Descriptors n of them from the head of the Recovery submission ring, as far as the doorbell has published them. -/
def State.rcvDescs (s : State) (n : Nat) : State × Option (List Desc) :=
  let lg := s.fld F.RCV_CFG_LOG_SIZE
  let x0 := s.boot.rcv.srHead
  let at_ := fun (i : Nat) => (x0 + i) % 2 ^ (lg + 1)
  match s.rcvGather ((List.range n).map (fun i => (s.fld F.RCV_SR_BASE * 4096 + 64 * extSlot lg (at_ i), 64))) with
  | (s1, .ok d) => (s1, some ((List.range n).map (fun i => { index := at_ i, dws := (List.range 8).map (dwAt (d.drop (64 * i))) })))
  | (s1, _) => (s1, none)

/-- The chain at the head of the Recovery ring: the descriptors up to the first with LAST, at most 64. -/
def chainOf : List Desc → List Desc
  | [] => []
  | d :: ds => if d.last then [d] else d :: chainOf ds

/-- MGMT_CMD on the Recovery ring (R487): the job at its head. All published descriptors, up to 64, are read; one with a wrong PHASE or a chain
without its ends stops the ring, and any opcode but MGMT_CMD and NOP is invalid there. -/
def State.rcvCommand (s : State) : State :=
  let lg := s.fld F.RCV_CFG_LOG_SIZE
  let r := s.boot.rcv
  let n := min 64 (extDiff lg r.srTail r.srHead)
  let busy := (s.mgmt.queue.filter (fun c => c.rcv.isSome)).length + b2n (match s.mgmt.holder with | some h => h.cmd.rcv.isSome && !h.delivered | none => false)
  if !r.active ∨ n = 0 ∨ 2 ^ lg ≤ extDiff lg r.crTail r.crHead + busy then s
  else match s.rcvDescs n with
    | (s1, none) => s1
    | (s1, some all) =>
      let ds := chainOf all
      let d := ds.headD emptyDesc
      let off : State := { s1 with boot.rcv := { r with active := false } }
      let job := (d.jobTag, d.irqNow, d.skip)
      let step := fun (t : State) => { t with boot.rcv := { t.boot.rcv with srHead := (r.srHead + ds.length) % 2 ^ (lg + 1) } }
      if ds.any (fun x => decide (x.phase = extWrap lg x.index)) then off
      else if !d.first ∨ !(ds.getLast?.getD emptyDesc).last then off
      else if d.opcode = 0 then (step s1).rcvComplete job St.SUCCESS 0
      else if d.opcode ≠ 0x30 then (step s1).rcvComplete job St.RING_OPCODE_INVALID 0
      else if leNat (leBytes 4 (d.dws.getD 3 0)) < 32 then (step s1).rcvComplete job St.MGMT_LENGTH_INVALID 0
      else match s1.rcvGather ((ds.map (fun x => pieces (s.mrrs 0) x.addr x.length)).flatten) with
        | (s2, .ok p) =>
          let c : MgmtCmd := { mgmtParse p with rcv := some job, replyAddr := d.dws.getD 2 0, replyMax := d.dws.getD 3 0 % 2 ^ 32 }
          s2.receive c p step
        | (s2, _) => s2

/-- MGMT_CMD (R504, R506, R507, R515, R522): the oldest MGMT_CMD job of a ring, once its buffer has been read, is checked and queued. -/
def execMgmtCmd (slice ring : Nat) (s : State) : Host.Outcome State Fault Refusal := whenKeeper s <|
  if s.boot.recovery then .next s.rcvCommand
  else match s.jobFor slice ring 0x30 with
    | none => .next s
    | some j =>
      let room := j.dw 3 % 2 ^ 32
      if room < 32 then .next (s.finish j St.MGMT_LENGTH_INVALID 0 false)
      else match s.dmaGather slice 0 (s.jobOp 0 j) j.bufs with
        | (s1, .wait) => .next s1
        | (s1, .fail st) => .next (s1.finish j st 0 false)
        | (s1, .ok p) =>
          let c : MgmtCmd := { mgmtParse p with job := some (slice, ring, j.id), replyAddr := j.dw 2, replyMax := room }
          .next (s1.receive c p (fun t => match t.jobById slice ring j.id with
            | some x => t.setJob { x with taken := true }
            | none => t))

/-- MCTP_COMMAND (R504, R506, R509, R510, R515, R522, R574): a management packet of at most 65,572 message bytes on SMBus or I3C. -/
def execMctpCommand (bus : Nat) (packet : List Byte) (s : State) : Host.Outcome State Fault Refusal := whenKeeper s <|
  if 2 ≤ bus ∨ 65569 < packet.length then .next s
  else
    let c : MgmtCmd := { mgmtParse packet with route := routeMctp, bus := bus }
    .next (s.receive c packet id)

/-- RELAY_COMMAND (R506, R515): a command that `origin` relays to this device, with the route on which the origin took it. -/
def execRelayCommand (origin ref route : Nat) (packet : List Byte) (s : State) : Host.Outcome State Fault Refusal := whenKeeper s <|
  if s.boot.recovery ∨ s.fedState = fedAlone then .next s
  else
    let c : MgmtCmd := { mgmtParse packet with route := routeRelay, origin := origin, originRef := ref }
    let s1 := s.incFld F.MGMT_RELAYED_IN
    match s1.mgmtCheck route true packet with
    | some st => .next (s1.answerNow c st 0 (fun t => t.incFld F.MGMT_REJECTS))
    | none => .next (s1.enqueue c)

/-- RELAY_REPLY (R515, R516): the target's reply packet arrives; one whose command has been answered is late. -/
def execRelayReply (ref : Nat) (packet : List Byte) (s : State) : Host.Outcome State Fault Refusal := whenKeeper s <|
  match takeFirst (fun (r : RelayOut) => decide (r.ref = ref)) s.mgmt.relays with
  | none => .next (s.satFld F.MGMT_LATE_REPLY 1)
  | some (r, rest) =>
    let d := s.deliver r.cmd packet
    if d.2 then .next { d.1 with mgmt.relays := rest } else .next d.1

/-! The intake slot (R511 to R514). -/

/-- The management opcode that an AD3120 opcode executes as (R523). -/
def annexOpcode (op : Nat) (first : Bool) : Nat :=
  if op = 0x01 then 0x0100 else if op = 0x02 ∨ op = 0x40 then 0x0101 else if op = 0x10 then 0x0400
  else if op = 0x20 then (if first then 0x0300 else 0x0301) else if op = 0x21 then 0x0302 else if op = 0x22 then 0x0303 else 0x0703

/-- OPCODE of a command as MGMT_SLOT shows it. -/
def MgmtCmd.shown (c : MgmtCmd) : Nat := if c.route = routeAnnex then annexOpcode (c.opcode - 0x10000) (decide (beAt c.payload 4 4 = 0)) else c.opcode

/-- A command claims the slot. -/
def State.claim (s : State) (c : MgmtCmd) : State :=
  let s1 := (s.incFld (F.MGMT_CMDS c.route)).peakFld (F.MGMT_WAIT_MAX c.route) ((s.time.mono - c.passedAt) / ticksPerUs)
  let s2 := ((s1.setFld F.MGMT_SLOT_ROUTE c.route).setFld F.MGMT_SLOT_HELD 1).setFld F.MGMT_SLOT_OPCODE c.shown
  let s3 : State := { s2 with mgmt.holder := some { cmd := c } }
  if c.route = routeAnnex then (s3.setFld F.ANX_STATUS_STATE 2).incFld F.ANX_CMDS
  else { s3 with mgmt.lastRoute := c.route }

/-- The rotation of the routes, beginning after the last holder (R511). -/
def rotation (last : Nat) : List Nat :=
  if last = routeRelay then [routeRing, routeMctp, routeRelay] else if last = routeRing then [routeMctp, routeRelay, routeRing] else [routeRelay, routeRing, routeMctp]

/-- The oldest waiting command of a route, and the others. -/
def oldestOf (q : List MgmtCmd) (r : Nat) : Option (MgmtCmd × List MgmtCmd) := takeFirst (fun c => decide (c.route = r)) q

/-- INTAKE_CLAIM (R443, R511): a Keeper cycle. A held slot turns a pending Annex command of another holder to BUSY. -/
def execIntakeClaim (s : State) : Host.Outcome State Fault Refusal := whenKeeper s <|
  match s.mgmt.holder with
  | some h =>
    (match oldestOf s.mgmt.queue routeAnnex with
     | some (_, rest) =>
       if h.cmd.route = routeAnnex then .next s
       else .next (({ s with mgmt.queue := rest }.setFld F.ANX_STATUS_STATE 4).incFld F.ANX_BUSY)
     | none => .next s)
  | none =>
    match (routeAnnex :: rotation s.mgmt.lastRoute).findSome? (oldestOf s.mgmt.queue) with
    | some (c, rest) => .next (State.claim { s with mgmt.queue := rest } c)
    | none => .next s

/-- What follows a reply that has been sent: a reset 100 ms later, a configuration item that applies (R489, R520, R521). -/
def State.afterReply (s : State) (r : MgmtReply) : State :=
  let s1 : State := if r.resets then { s with mgmt.resetAt := some (s.time.mono + 100 * ticksPerMs) } else s
  match r.item with
  | some n => if n = 3 ∨ n = 6 ∨ n = 7 then s1.applyItem n else s1
  | none => s1

/-- Is the job of a ring command still without its completion (R512)? -/
def State.jobOpen (s : State) (c : MgmtCmd) : Bool :=
  match c.job with
  | some (k, q, id) => (s.jobById k q id).isSome
  | none => false

/-- SLOT_RELEASE (R443, R512): the holder's reply goes out, and the slot is freed once its status has been consumed; the Annex's is consumed
by ANNEX_CONSUME, and the reply of a discarded Annex command goes nowhere (R447). -/
def execSlotRelease (s : State) : Host.Outcome State Fault Refusal := whenKeeper s <|
  match s.mgmt.holder with
  | none => .next s
  | some h =>
    match h.reply with
    | none => .next s
    | some r =>
      if h.delivered then
        if h.cmd.route = routeAnnex ∨ s.jobOpen h.cmd then .next s else .next s.freeIntake
      else if h.cmd.route = routeAnnex ∧ s.pcie.annex.discarded then .next ({ s.freeIntake with pcie.annex := {} }.afterReply r)
      else
        let d := s.answer h.cmd r
        if !d.2 then .next d.1
        else
          let s1 := d.1.afterReply r
          if h.cmd.route = routeAnnex ∨ s1.jobOpen h.cmd then .next { s1 with mgmt.holder := some { h with delivered := true } } else .next s1.freeIntake

/-! Timeouts (R513, R516). -/

/-- The clock of a waiting command, in ticks (R513). -/
def State.clockOf (s : State) (c : MgmtCmd) : Nat := (s.time.mono - c.passedAt) - (s.mgmt.annexTicks - c.annexAt)

/-- Its timeout in ticks; TIMEOUT_MS 0 means MGMT_DEFAULT_TIMEOUT (R504). -/
def State.timeoutOf (s : State) (c : MgmtCmd) : Nat :=
  (if c.timeoutMs = 0 then s.fld F.MGMT_DEFAULT_TIMEOUT else c.timeoutMs) * ticksPerMs

/-- MGMT_COMMAND_TIMEOUT (R513): the clock of the oldest waiting command of a route that has run out reaches its timeout. -/
def execMgmtCommandTimeout (route : Nat) (s : State) : Host.Outcome State Fault Refusal := whenKeeper s <|
  if route = routeAnnex then .next s
  else match takeFirst (fun c => decide (c.route = route ∧ s.timeoutOf c ≤ s.clockOf c)) s.mgmt.queue with
    | none => .next s
    | some (c, rest) =>
      .next (s.answerNow c St.MGMT_TIMEOUT 0 (fun t =>
        ({ t with mgmt.queue := rest }.satFld (F.MGMT_TIMEOUTS route) 1).raise F.MGMT_INT_STATUS_TIMEOUT_SEEN R.MGMT_INT_ENABLE))

/-- RELAY_TIMEOUT (R516): no reply has arrived when the origin clock is 10 ms past the timeout. -/
def execRelayTimeout (ref : Nat) (s : State) : Host.Outcome State Fault Refusal := whenKeeper s <|
  match takeFirst (fun (r : RelayOut) => decide (r.ref = ref)) s.mgmt.relays with
  | none => .next s
  | some (r, rest) =>
    if s.clockOf r.cmd < s.timeoutOf r.cmd + 10 * ticksPerMs then .next s
    else .next (s.answerNow r.cmd St.MGMT_TIMEOUT 1 (fun t => { t with mgmt.relays := rest }.satFld (F.MGMT_TIMEOUTS r.cmd.route) 1))

/-- MCTP_REPLY_RETRY (R510): the oldest reply is transmitted; after three failed attempts it is discarded. -/
def execMctpReplyRetry (ok : Bool) (s : State) : Host.Outcome State Fault Refusal := whenKeeper s <|
  match s.mgmt.mctpOut with
  | [] => .next s
  | (bus, m, n) :: rest =>
    if ok then .next ({ s with mgmt.mctpOut := rest }.emit (.mctp bus m))
    else if n < 2 then .next { s with mgmt.mctpOut := (bus, m, n + 1) :: rest }
    else .next ({ s with mgmt.mctpOut := rest }.satFld F.MGMT_REPLY_LOST 1)

/-! The bulk area (R518). -/

/-- Bytes of the bulk area in use. -/
def State.bulkUsed (s : State) : Nat := (s.mgmt.bulk.map (fun b => b.data.length)).sum

/-- Hold these objects, and show the free space. -/
def State.setBulk (s : State) (l : List BulkObj) : State :=
  let s1 : State := { s with mgmt.bulk := l }
  s1.setFld F.MGMT_BULK_FREE (0x20000000 - s1.bulkUsed)

/-- BULK_EXPIRE (R518): downloads that have not been read for 60 s are released. -/
def execBulkExpire (s : State) : Host.Outcome State Fault Refusal := whenKeeper s <|
  .next (s.setBulk (s.mgmt.bulk.filter (fun b => b.upload || decide (s.time.mono < b.lastRead + 60 * ticksPerSec))))

/-! MCTP control messages (R509, R574; DSP0236). -/

/-- Answer a control message: the request's instance ID, the command, the completion code and the data. -/
def State.mctpControl (s : State) (bus iid cmd code : Nat) (data : List Byte) : State :=
  s.emit (.mctp bus ([0x00, BitVec.ofNat 8 (iid % 32), BitVec.ofNat 8 cmd, BitVec.ofNat 8 code] ++ data))

/-- SET_ENDPOINT_ID (R509, R574): operations 0 and 1 assign the endpoint ID of the bus, 2 finds none to restore, 3 is for no endpoint of this kind. -/
def execSetEndpointId (bus iid op eid : Nat) (s : State) : Host.Outcome State Fault Refusal := whenKeeper s <|
  if 2 ≤ bus then .next s
  else if 2 ≤ op ∨ eid = 0 ∨ 255 ≤ eid then .next (s.mctpControl bus iid 0x01 0x02 [])
  else .next (State.mctpControl { s with mgmt.eids := s.mgmt.eids.set bus eid } bus iid 0x01 0x00 [0x00, BitVec.ofNat 8 eid, 0x00])

/-- GET_ENDPOINT_ID (R509, R574): a simple endpoint with a dynamic ID. -/
def execGetEndpointId (bus iid : Nat) (s : State) : Host.Outcome State Fault Refusal := whenKeeper s <|
  if 2 ≤ bus then .next s else .next (s.mctpControl bus iid 0x02 0x00 [BitVec.ofNat 8 (s.mgmt.eids.getD bus 0), 0x00, 0x00])

/-- GET_MCTP_VERSION_SUPPORT (R509): the versions of the base specification, of control messages and of the types the device supports. -/
def execGetMctpVersionSupport (bus iid typ : Nat) (s : State) : Host.Outcome State Fault Refusal := whenKeeper s <|
  if 2 ≤ bus then .next s
  else if typ = 0xFF ∨ typ = 0x00 ∨ typ = 0x04 ∨ typ = 0x7E then .next (s.mctpControl bus iid 0x04 0x00 (pageBytes 0x3040 [typ]))
  else .next (s.mctpControl bus iid 0x04 0x80 [])

/-- GET_MESSAGE_TYPE_SUPPORT (R509): NVMe-MI and vendor-defined PCI messages. -/
def execGetMessageTypeSupport (bus iid : Nat) (s : State) : Host.Outcome State Fault Refusal := whenKeeper s <|
  if 2 ≤ bus then .next s else .next (s.mctpControl bus iid 0x05 0x00 [0x02, 0x04, 0x7E])

/-- GET_VENDOR_DEFINED_MSG_SUPPORT (R509): one set, the PCI vendor ID 0x1D7C. -/
def execGetVendorDefinedMsgSupport (bus iid selector : Nat) (s : State) : Host.Outcome State Fault Refusal := whenKeeper s <|
  if 2 ≤ bus then .next s
  else if selector = 0 then .next (s.mctpControl bus iid 0x06 0x00 ([0xFF, 0x00, 0x1D, 0x7C] ++ pageBytes 0x3060 []))
  else .next (s.mctpControl bus iid 0x06 0x02 [])

/-! NVMe-MI (R333). -/

/-- An NVMe-MI command: Read NVMe-MI Data Structure, the two health polls, Configuration Get and Set, and the tunnelled admin commands. -/
def State.miReply (s : State) (kind inst arg value : Nat) (sqe : List Byte) : State × List Byte :=
  let dw := fun (n : Nat) => leAt sqe (4 * n) 4
  let tunnel := fun (r : Except Nat (List Byte)) => match r with
    | .ok d => pageBytes 0x3335 [0, 0] ++ d
    | .error st => pageBytes 0x3335 [st, 0]
  if kind = 0 then (s, pageBytes 0x3330 ([arg, inst, s.nv.ns.length] ++ s.controllers))
  else if kind = 1 then (s, pageBytes 0x3331 ([s.criticalWarning inst, s.compositeK, s.percentUsed] ++ s.controllers.map (fun i => (s.nvc i).csts)))
  else if kind = 2 then (s, pageBytes 0x3332 [inst, (s.nvc inst).csts, s.compositeK, s.percentUsed, s.spareNow, s.criticalWarning inst])
  else if kind = 3 then (s, pageBytes 0x3333 [arg, Map.get (fun _ => 0) s.mgmt.miConfig arg])
  else if kind = 4 then ({ s with mgmt.miConfig := Map.put (fun _ => 0) s.mgmt.miConfig arg value }, pageBytes 0x3334 [arg])
  else if kind = 5 then (s, tunnel (s.identify inst (bitsOf (dw 10) 7 0) (dw 1) (bitsOf (dw 11) 31 24) (bitsOf (dw 10) 31 16)))
  else if kind = 6 then (s.logRead inst (bitsOf (dw 10) 7 0) (dw 1), tunnel (s.logPage inst (bitsOf (dw 10) 7 0) (dw 1) (bitsOf (dw 14) 31 24)))
  else (match s.featData inst (bitsOf (dw 10) 7 0) (dw 11) with
    | some (d, v) => (s, pageBytes 0x3335 [0, v] ++ d)
    | none => (s, pageBytes 0x3335 [nvInvalidField, 0]))

/-- NVME_MI_COMMAND (R333): an NVMe-MI message is answered outside the intake slot, with message type 0x04. -/
def execNvmeMiCommand (bus kind inst arg value : Nat) (sqe : List Byte) (s : State) : Host.Outcome State Fault Refusal := whenKeeper s <|
  if 2 ≤ bus ∨ 8 ≤ kind ∨ s.boot.recovery then .next s
  else
    let r := s.miReply kind inst arg value sqe
    .next (r.1.emit (.mctp bus ((0x04 : Byte) :: r.2)))

/-! The Annex Mailbox (R437 to R447, R523). -/

/-- The AD3120 subset (R523). -/
def annexOpcodes : List Nat := [0x01, 0x02, 0x10, 0x20, 0x21, 0x22, 0x40, 0x50]

/-- The payload bytes that the Annex window holds. -/
def State.annexPayload (s : State) (n : Nat) : List Byte :=
  ((List.range ((n + 3) / 4)).map (fun w => leBytes 4 (s.fld (F.ANX_PAYLOAD w)))).flatten.take n

/-- A check of R442 fails: the command ends at once in DONE. -/
def State.annexFail (s : State) (st : Nat) : State := ((s.setFld F.ANX_STATUS_RESULT st).setFld F.ANX_STATUS_STATE 3).updateInta 0

/-- The host writes ANX_OPCODE (R440 to R442). -/
def State.annexLaunch (s : State) (op : Nat) : State :=
  let st := s.fld F.ANX_STATUS_STATE
  if st ≠ 0 ∧ st ≠ 4 then s.incFld F.ANX_IGNORED
  else
    let s1 := s.setFld F.ANX_OPCODE op
    let op' := op % 65536
    let n := s.fld F.ANX_LENGTH
    if 3968 < n then s1.annexFail St.ANNEX_LENGTH_INVALID
    else if !annexOpcodes.contains op' then s1.annexFail St.ANNEX_OPCODE_INVALID
    else if (0x20 ≤ op' ∧ op' ≤ 0x22) ∧ s.on F.BOOT_CUSTODY_LOCKED then s1.annexFail St.CUSTODY_LOCKED
    else (s1.setFld F.ANX_STATUS_STATE 1).enqueue { route := routeAnnex, opcode := 0x10000 + op', payload := s1.annexPayload n }

/-- ANNEX_LAUNCH (R440 to R442): a 32-bit write of ANX_OPCODE. -/
def execAnnexLaunch (agent : Agent) (opcode : Nat) (s : State) : Host.Outcome State Fault Refusal := whenSlices s <|
  if accessOk R.ANX_OPCODE true agent then .next (s.annexLaunch opcode) else .next s

/-- The host writes 0 to ANX_STATUS (R444): DONE is consumed, and the slot freed if the Annex holds it; BUSY returns to IDLE. -/
def State.annexConsume (s : State) : State :=
  let st := s.fld F.ANX_STATUS_STATE
  let held : Bool := match s.mgmt.holder with
    | some h => decide (h.cmd.route = routeAnnex) && h.delivered
    | none => false
  if st = 3 then
    let s1 := s.setFld F.ANX_STATUS_STATE 0
    State.updateInta (if held then { s1.freeIntake with pcie.annex := {} } else s1) 0
  else if st = 4 then s.setFld F.ANX_STATUS_STATE 0
  else s

/-- ANNEX_CONSUME (R444). -/
def execAnnexConsume (agent : Agent) (s : State) : Host.Outcome State Fault Refusal := whenSlices s <|
  if accessOk R.ANX_STATUS true agent then .next s.annexConsume else .next s

/-- ANNEX_HOLD (R446): a further second has passed beyond the first in which a DONE command holds the slot. -/
def execAnnexHold (s : State) : Host.Outcome State Fault Refusal := whenSlices s <|
  let x := s.pcie.annex
  let held : Bool := match s.mgmt.holder with
    | some h => decide (h.cmd.route = routeAnnex) && h.delivered
    | none => false
  if held ∧ s.fld F.ANX_STATUS_STATE = 3 ∧ x.doneAt + (x.logged + 1) * ticksPerSec < s.time.mono then
    .next (({ s with pcie.annex := { x with logged := x.logged + 1 } }.logEvent R.ANX_STATUS 3 (s.fld F.ANX_OPCODE)).raise
      F.PCIE_INT_STATUS_ANNEX_HOLD_SEEN R.PCIE_INT_ENABLE)
  else .next s

/-! The Keeper's event log and the event ring (R45, R519). -/

/-- The event code of a status bit (R519). -/
def eventCode (addr bit : Nat) : Option Nat :=
  ([(F.FT_INT_STATUS_STEPPED, 1), (F.FT_INT_STATUS_LOCK_LOST, 2), (F.FT_INT_STATUS_HOLDOVER_EXPIRED, 3),
    (F.FED_INT_STATUS_MEMBER_LOST_SEEN, 4), (F.FED_INT_STATUS_MASTER_CHANGED, 5), (F.FE_INT_STATUS_HOME_LOST_SEEN, 6),
    (F.FE_INT_STATUS_ANCHOR_LOST_SEEN, 7), (F.PCIE_INT_STATUS_GATE_CLOSED_SEEN, 8), (F.INST_INT_STATUS_FAULT_SEEN, 9),
    (F.BOOT_INT_STATUS_REVERTED_SEEN, 10), (F.BOOT_INT_STATUS_FALLBACK_SEEN, 11), (F.BOOT_INT_STATUS_GOLDEN_INVALID_SEEN, 12)].find?
      (fun e => decide (e.1.addr = addr ∧ e.1.lo = bit))).map (fun e => e.2)

/-- Write an event into the event ring of PF0 (R519): into a free slot, or held against a credit; else it is dropped and counted. -/
def State.putEvent (s : State) (code src seq : Nat) : State :=
  let e : Compl := { status := St.MGMT_EVENT, tsValid := false, sr := 0, srHead := 0, tag := 0, result := code + 2 ^ 16 * src + 2 ^ 32 * (seq % 2 ^ 32), irq := false }
  let drop := (s.satFld F.MGMT_EVENT_DROP 1).raise F.MGMT_INT_STATUS_EVENT_DROP_SEEN R.MGMT_INT_ENABLE
  if !s.on F.MGMT_EVENT_CFG_ENABLE then s
  else match s.findCr 0 (s.fld F.MGMT_EVENT_CFG_RING) with
    | none => drop
    | some (k, c) =>
      if s.crState k c ≠ stActive then drop
      else if 0 < s.crFree k c ∧ (s.crx k c).held.isEmpty then
        let r := s.crPut k c e false
        if r.2 then (r.1.incFld F.MGMT_EVENTS).crCheck k c else drop
      else if s.credit k c ∧ 0 < s.fld (F.RING_POOL_FREE k) then
        ((s.setHeld k c ((s.crx k c).held ++ [e])).incFld F.MGMT_EVENTS).crCheck k c
      else drop

/-- Report an event to the manager: on this device's ring, or to the federation's sink (R519). -/
def State.reportEvent (s : State) (code seq : Nat) : State :=
  let s1 := s.putEvent code s.fedId seq
  match s.mgmt.sink with
  | some d => if d ≠ s.fedId ∧ s.fedState ≠ fedAlone then s1.fedSend d msgEvent [code, s.fedId, seq] false else s1
  | none => s1

/-- The Keeper takes an interrupt: it logs it and forwards it where R519 says so. -/
def State.logInt (s : State) (e : KeeperInt) : State :=
  let s1 := s.logEvent e.addr e.bit e.detail
  match eventCode e.addr e.bit with
  | some c => s1.reportEvent c s.eventSeq
  | none => s1

/-- KEEPER_EVENT_LOG (R45, R519): the Keeper takes its oldest interrupt; those of R122 are taken by KEEPER_DEADLOCK_ACTION. -/
def execKeeperEventLog (s : State) : Host.Outcome State Fault Refusal := whenKeeper s <|
  match takeFirst (fun e => !isClusterInt e) s.keeperPend with
  | none => .next s
  | some (e, rest) => .next ({ s with keeperPend := rest }.logInt e)

end Sys2Proof.Machine
end

