-- ==== Sys2Proof/Machine/Opcodes.lean ====
section
/-!
DEFINITION. The opcodes of the opcode table that are not firmware update's nor the root key store's (R517 to R520), and the AD3120 subset (R523).
Payloads are laid out as log entry 12 says; a reply whose fields the spec names without their places is a page of pageBytes.
-/

namespace Sys2Proof.Machine

/-- A reply with status SUCCESS. -/
def okReply (payload : List Byte) : MgmtReply := mkReply St.SUCCESS payload 0

/-- n bytes of a page: what it holds, zeros after it. -/
def pageOf (n page : Nat) (fields : List Nat) : List Byte := (pageBytes page fields ++ List.replicate n 0).take n

/-! Identity and health (R5, R520). -/

/-- What IDENTIFY reports beside the silicon revision. -/
def State.identity (s : State) : List Nat :=
  [Config.serialNumber, s.slotVersion (s.fld F.BOOT_STATUS_BOOTED_SLOT), s.ownEpoch, s.fld F.FED_ID_ID, b2n s.boot.recovery, (s.rd R.BOOT_KEYS).toNat]

/-- The 256 bytes of IDENTIFY: among them, at a place that the spec does not give, the silicon revision 0xB1 (R5). -/
def State.identityPage (s : State) : List Byte := splice (pageOf 256 0x0100 s.identity) (Config.revisionAt % 256) [0xB1]

/-- IDENTIFY (R5, R488, R520): 256 bytes. -/
def execIdentify (s : State) : Host.Outcome State Fault Refusal := whenKeeper s <|
  .next (s.runReply 0x0100 (fun t _ => (t, okReply t.identityPage)))

/-- What HEALTH reports: junction temperatures, power, HOLDUP_STATE, AFF_STATE, FT_STATUS, FED_STATE. -/
def State.healthFields (s : State) : List Nat :=
  (List.range 9).map (fun j => s.fld (F.TEMP j)) ++ [s.fld F.PWR_NOW, s.fld F.PWR_AVG, s.fld F.HOLDUP_STATE] ++
  (List.range 4).map (fun k => s.fld (F.AFF_STATE k)) ++ [(s.rd R.FT_STATUS).toNat, (s.rd R.FED_STATE).toNat]

/-- HEALTH (R520). -/
def execHealth (s : State) : Host.Outcome State Fault Refusal := whenKeeper s <|
  .next (s.runReply 0x0101 (fun t _ => (t, okReply (pageBytes 0x0101 t.healthFields))))

/-! Namespaces (R324 to R326, R342, R352). -/

/-- The status of a namespace opcode that NVMe would report as st: SUCCESS, or a status the spec leaves open. -/
def State.nsReply (r : State × Nat) (detail : Nat) : State × Option MgmtReply :=
  if r.2 = 0 then (r.1, some (mkReply St.SUCCESS [] detail)) else r.1.refuseOpen

/-- Run an opcode whose work may wait for a key: while it waits, the holder has not begun, and the command goes on when it is sent again. -/
def State.mgmtTry (s : State) (op : Nat) (f : State → MgmtCmd → State × Option MgmtReply) : State :=
  match s.mgmt.holder with
  | none => s
  | some h =>
    if h.started ∨ h.cmd.opcode ≠ op then s
    else match f s h.cmd with
      | (t, none) => t
      | (t, some r) => { t with mgmt.holder := some { h with started := true, reply := some r } }

/-- NS_CREATE (R324, R325, R349): the NSID stands in DETAIL. -/
def execNsCreate (s : State) : Host.Outcome State Fault Refusal := whenSlices s <|
  .next (s.mgmtTry 0x0220 (fun t c =>
    match t.nsCreate 0 (2 ^ 50) ⟨c.num 0 % 256, c.payload.drop 4⟩ with
    | (u, none) => (u, none)
    | (u, some (.ok nsid)) => (u, some (mkReply St.SUCCESS [] nsid))
    | (u, some (.error _)) => u.refuseOpen))

/-- NS_DELETE (R352). -/
def execNsDelete (s : State) : Host.Outcome State Fault Refusal := whenSlices s <|
  .next (s.mgmtRun 0x0221 (fun t c => State.nsReply (t.nsDelete (c.num 0)) 0))

/-- NS_ATTACH (R324): an NSID and a controller list. -/
def execNsAttach (s : State) : Host.Outcome State Fault Refusal := whenSlices s <|
  .next (s.mgmtRun 0x0222 (fun t c => State.nsReply (t.nsAttach (c.num 0) true (parseCtrlList (c.payload.drop 4))) 0))

/-- NS_DETACH (R324). -/
def execNsDetach (s : State) : Host.Outcome State Fault Refusal := whenSlices s <|
  .next (s.mgmtRun 0x0223 (fun t c => State.nsReply (t.nsAttach (c.num 0) false (parseCtrlList (c.payload.drop 4))) 0))

/-- NS_FORMAT (R342, R352): NSID, LBA format, Secure Erase Setting. It waits for the namespace's issued commands. -/
def execNsFormat (s : State) : Host.Outcome State Fault Refusal := whenSlices s <|
  .next (s.mgmtTry 0x0224 (fun t c =>
    if t.nv.cmds.any (fun y => decide (y.sq ≠ 0 ∧ y.nsid = c.num 0) && y.issued && y.done.isNone) then (t, none)
    else match t.nsFormat 0 (2 ^ 51) (c.num 0) (c.num 1) (c.num 2) with
      | (u, none) => (u, none)
      | (u, some st) => State.nsReply (u, st) 0))

/-! Logs and bulk objects (R518, R519). -/

/-- An event of the instance event log as a number (R464: the order in which the events are listed). -/
def InstEvent.code : InstEvent → Nat
  | .flr => 0 | .bmeCleared => 1 | .gateClosed => 2 | .translationFault => 3 | .quiesced => 4 | .frozen => 5 | .saved => 6
  | .restored => 7 | .thawed => 8 | .homeLost => 9 | .anchorLost => 10 | .revokeForced => 11 | .cqLost => 12 | .quotaRefused => 13
  | .removed => 14

/-- The bytes of the device event log: 32 a record, which the page lays out (log entry 42). -/
def State.deviceLog (s : State) (page : Nat) : List Byte :=
  (s.eventLog.map (fun r => pageOf 32 page [r.seq, r.time, r.addr, r.bit, r.detail])).flatten

/-- The bytes of an instance event log: entries of 32 bytes (R464). -/
def State.instanceLog (s : State) (i : Nat) : List Byte :=
  ((s.instX i).log.map (fun e => pageOf 32 0x4002 [e.1.code, e.2.1, e.2.2])).flatten

/-- The bytes of a loss report (R464): a header of 32 bytes, whose places the spec does not give, and the records. -/
def LossReport.bytes (r : LossReport) : List Byte :=
  pageOf 32 0x4003 [r.number, r.cause, r.time, r.records.length] ++
  (r.records.map (fun x => leBytes 4 (x.kind % 65536) ++ leBytes 4 x.object ++ leBytes 8 x.arg0 ++ leBytes 8 x.arg1 ++ leBytes 8 0)).flatten

/-- The object that LOG_READ names (R520). -/
def State.logObject (s : State) (id a b : Nat) : Option (List Byte) :=
  match id with
  | 1 => some (s.deviceLog 0x4001)
  | 2 => if a < 4104 then some (s.instanceLog a) else none
  | 3 => ((s.instX a).reports.find? (fun r => decide (r.number = b))).map LossReport.bytes
  | 4 => (s.core.dumps.find? (fun d => decide (d.1 = clKey a b ∧ b < 4))).map
      (fun d => pageBytes 0x4004 ([d.1, d.2.1] ++ (d.2.2.map (fun e => [e.1, e.2])).flatten))
  | 5 => some (s.deviceLog 0x4005)
  | _ => none

/-- A download (R505, R518): at most max bytes of an object from off. An object larger than one reply is held in the bulk area until its last byte
has been read. -/
def State.download (s : State) (op : Nat) (sel : List Byte) (max off : Nat) (build : State → State × Option (List Byte)) : State × Option MgmtReply :=
  let mine := fun (b : BulkObj) => !b.upload && decide (b.opcode = op ∧ b.selector = sel)
  let got := match s.mgmt.bulk.find? mine with
    | some b => (s, some b.data, true)
    | none => let r := build s; (r.1, r.2, false)
  match got with
  | (t, none, _) => t.refuseOpen
  | (t, some d, isHeld) =>
    if d.length < off then (t, some (mkReply St.MGMT_OFFSET_INVALID [] 0))
    else
      let chunk := (d.drop off).take max
      let rest := d.length - off - chunk.length
      let reply : MgmtReply := { status := St.SUCCESS, payload := chunk, last := decide (rest = 0), objOffset := off, remaining := rest }
      if isHeld then
        (t.setBulk (if rest = 0 then t.mgmt.bulk.filter (fun b => !mine b) else updateIf mine (fun b => { b with lastRead := t.time.mono }) t.mgmt.bulk), some reply)
      else if rest = 0 then (t, some reply)
      else if 0x20000000 < t.bulkUsed + d.length then (t, some (mkReply St.MGMT_BULK_FULL [] 0))
      else
        let b : BulkObj := { upload := false, opcode := op, selector := sel, data := d, lastRead := t.time.mono }
        (t.setBulk (t.mgmt.bulk ++ [b]), some reply)

/-- MAX_LEN is from 1 to 65,536 (R518). -/
def maxLenOk (n : Nat) : Bool := decide (1 ≤ n ∧ n ≤ 65536)

/-- LOG_READ (R464, R488, R518, R520, R522): MAX_LEN, LOG_ID and the selector. In Recovery only the Recovery log is read. -/
def execLogRead (s : State) : Host.Outcome State Fault Refusal := whenKeeper s <|
  .next (s.mgmtRun 0x0400 (fun t c =>
    if t.boot.recovery ∧ c.num 1 ≠ 5 then (t, some (mkReply St.RECOVERY_ACTIVE [] 0))
    else if !maxLenOk (c.num 0) ∨ (c.num 1 = 5 ∧ !t.boot.recovery) then t.refuseOpen
    else t.download 0x0400 (c.payload.drop 4) (c.num 0) c.objOffset (fun u => (u, u.logObject (c.num 1) (c.num 2) (c.num 3)))))

/-- LOG_CLEAR (R520): LOG_ID 2 only. -/
def execLogClear (s : State) : Host.Outcome State Fault Refusal := whenSlices s <|
  .next (s.mgmtRun 0x0401 (fun t c =>
    if c.num 0 ≠ 2 ∨ 4104 ≤ c.num 1 then t.refuseOpen
    else (t.setInstX (c.num 1) { t.instX (c.num 1) with log := [] }, some (okReply []))))

/-- The message in which the master, or a member to it, names the federation's event sink (R519). -/
def msgSink : Nat := 17

/-- FED_SINK asks the master to name this device as the event sink (R519). -/
def State.askSink (s : State) (on : Bool) : State :=
  if !on then (if s.mgmt.sink = some s.fedId then { s with mgmt.sink := none } else s)
  else
    let s1 : State := { s with mgmt.sink := some s.fedId }
    if s.isMaster then s1.fedSendAll (s1.fld F.FED_MEMBERS) msgSink [s1.fedId]
    else if s.fedState = fedMember then s1.fedSend (s1.fld F.FED_MASTER_ID) msgSink [s1.fedId] false
    else s1

/-- EVENT_RING_SET (R519): a local completion ring of PF0, or 0xFFFF for none, and FED_SINK. -/
def execEventRingSet (s : State) : Host.Outcome State Fault Refusal := whenSlices s <|
  .next (s.mgmtRun 0x0402 (fun t c =>
    let r := c.num 0
    if 4096 ≤ r ∧ r ≠ 0xFFFF then t.refuseOpen
    else
      let t1 := (t.setFld F.MGMT_EVENT_CFG_ENABLE (b2n (decide (r ≠ 0xFFFF)))).setFld F.MGMT_EVENT_CFG_RING (if r = 0xFFFF then 0 else r)
      ((t1.setFld F.MGMT_EVENT_CFG_FED_SINK (c.num 1 % 2)).askSink (bitOf (c.num 1) 0), some (okReply []))))

/-- BULK_RELEASE (R518): an object that is not held leaves the status open. -/
def execBulkRelease (s : State) : Host.Outcome State Fault Refusal := whenSlices s <|
  .next (s.mgmtRun 0x0403 (fun t c =>
    let mine := fun (b : BulkObj) => decide (b.opcode = c.num 0 ∧ b.selector = c.payload.drop 4)
    if t.mgmt.bulk.any mine then (t.setBulk (t.mgmt.bulk.filter (fun b => !mine b)), some (okReply []))
    else (t.draw, some (mkReply (Config.unstated t.freeCtr % 65536) [] 0))))

/-! Instance states (R461, R462). -/

/-- Move an instance out of one of the listed states, or refuse (R461). -/
def State.instMove (s : State) (i : Nat) (sts : List Nat) (f : State → State) : State × Option MgmtReply :=
  if i < 4104 ∧ sts.contains (s.instState i) then (f s, some (okReply [])) else (s, some (mkReply St.INSTANCE_STATE_INVALID [] 0))

/-- INST_QUIESCE (R461, R462): the reply waits until nothing is in flight or INST_QUIESCE_LIMIT has passed. -/
def execInstQuiesce (s : State) : Host.Outcome State Fault Refusal := whenSlices s <|
  .next (s.mgmtRun 0x0500 (fun t c =>
    let i := c.num 0
    if i < 4104 ∧ (t.instState i = instEnabled ∨ t.instState i = instQuiescing) then
      ((t.setFld (F.INST_CFG_STATE i) instQuiescing).setInstX i { t.instX i with quiesceAt := t.time.mono, quiesceWaits := true }, none)
    else (t, some (mkReply St.INSTANCE_STATE_INVALID [] 0))))

/-- INST_RESUME (R461): fetching restarts from the recorded tails. -/
def execInstResume (s : State) : Host.Outcome State Fault Refusal := whenSlices s <|
  .next (s.mgmtRun 0x0501 (fun t c => t.instMove (c.num 0) [instQuiescing, instQuiesced] (fun u => u.setFld (F.INST_CFG_STATE (c.num 0)) instEnabled)))

/-- INST_FREEZE (R461). -/
def execInstFreeze (s : State) : Host.Outcome State Fault Refusal := whenSlices s <|
  .next (s.mgmtRun 0x0502 (fun t c => t.instMove (c.num 0) [instQuiesced] (fun u =>
    (u.setFld (F.INST_CFG_STATE (c.num 0)) instFrozen).instEvent (c.num 0) .frozen 0)))

/-- INST_THAW (R461). -/
def execInstThaw (s : State) : Host.Outcome State Fault Refusal := whenSlices s <|
  .next (s.mgmtRun 0x0505 (fun t c => t.instMove (c.num 0) [instFrozen] (fun u =>
    (u.setFld (F.INST_CFG_STATE (c.num 0)) instEnabled).instEvent (c.num 0) .thawed 0)))

/-- INST_DISCARD (R461). -/
def execInstDiscard (s : State) : Host.Outcome State Fault Refusal := whenSlices s <|
  .next (s.mgmtRun 0x0506 (fun t c => t.instMove (c.num 0) [instQuiesced, instFrozen] (fun u => u.discardInst (c.num 0))))

/-! Federated bindings (R309, R311, R312). -/

/-- The message in which an anchor tells a home of a binding. -/
def msgBind : Nat := 16

/-- One side of a binding between instances is made anew: BIND_GEN rises with each binding of the pair (R312). -/
def State.makeBinding (s : State) (b : FeBinding) : State :=
  let key := 2 ^ 27 * b.peer + 2 ^ 26 * b2n b.anchor + 2 ^ 13 * b.anchorInst + b.homeInst
  let g := Map.get (fun _ => 0) s.fe.gens key
  let same := fun (x : FeBinding) => decide (x.anchor = b.anchor) && (if b.anchor then decide (x.anchorInst = b.anchorInst) else decide (x.homeInst = b.homeInst))
  State.showBindings { s with fe.bindings := s.fe.bindings.filter (fun x => !same x) ++ [{ b with gen := g % 256 }], fe.gens := Map.put (fun _ => 0) s.fe.gens key (g + 1) }

/-- FE_BIND (R309, R311, R312): the anchor's side where HOME_FED is another member, which is told; the home's side where HOME_FED is this device and
the command was relayed by the anchor. -/
def execFeBind (s : State) : Host.Outcome State Fault Refusal := whenSlices s <|
  .next (s.mgmtRun 0x0510 (fun t c =>
    let a := c.num 0
    let h := c.num 1
    let i := c.num 2
    if t.on F.FED_STATE_MOVING then (t, some (mkReply St.MEMBERSHIP_MOVING [] 0))
    else if 4104 ≤ a ∨ 4104 ≤ i ∨ t.fedState ≠ fedMember then t.refuseOpen
    else if h = t.fedId then
      if c.route ≠ routeRelay ∨ t.instType i = 0 then t.refuseOpen
      else (t.makeBinding { anchorInst := a, homeInst := i, peer := c.origin, gen := 0, anchor := false }, some (okReply []))
    else if 64 ≤ h ∨ !bitOf (t.fld F.FED_MEMBERS) h ∨ t.instType a = 0 then t.refuseOpen
    else ((t.makeBinding { anchorInst := a, homeInst := i, peer := h, gen := 0, anchor := true }).fedSend h msgBind [a, i] false, some (okReply []))))

/-- FE_UNBIND (R309, R311): this device's side of the binding goes. -/
def execFeUnbind (s : State) : Host.Outcome State Fault Refusal := whenSlices s <|
  .next (s.mgmtRun 0x0511 (fun t c =>
    let mine := fun (b : FeBinding) => decide (b.anchorInst = c.num 0 ∧ b.homeInst = c.num 2) &&
      (if b.anchor then decide (b.peer = c.num 1) else decide (t.fedId = c.num 1))
    if t.on F.FED_STATE_MOVING then (t, some (mkReply St.MEMBERSHIP_MOVING [] 0))
    else if !t.fe.bindings.any mine then t.refuseOpen
    else (State.showBindings { t with fe.bindings := t.fe.bindings.filter (fun b => !mine b) }, some (okReply []))))

/-! Federation (R520). -/

/-- FED_STATUS (R520): the FED block, and each member's OWN_EPOCH and BOOT_STATUS. -/
def execFedStatus (s : State) : Host.Outcome State Fault Refusal := whenSlices s <|
  .next (s.runReply 0x0600 (fun t _ =>
    let regs := ([R.FED_ID, R.FED_STATE, R.FED_MASTER, R.FED_EPOCH, R.FED_MEMBERS, R.FED_MOVES, R.FED_JOIN_REFUSED, R.FED_HB_MISS, R.FED_TIME_STATUS,
      R.FED_EPOCH_RAISES, R.FED_EPOCH_ABORTS].map (fun a => (t.rd a).toNat))
    (t, okReply (pageBytes 0x0600 (regs ++ (t.fed.roster.map (fun m => [m.id, m.own, m.boot])).flatten)))))

/-- FED_LINK_MAP (R306, R520): ports and peer IDs of every member. -/
def execFedLinkMap (s : State) : Host.Outcome State Fault Refusal := whenSlices s <|
  .next (s.runReply 0x0602 (fun t _ =>
    let one := fun (d : Nat) => ((List.range 6).filter (hasLink t.fed.linkMap d)).map (fun p => [d, p, klPeer d p])
    (t, okReply (pageBytes 0x0602 (((idsOf (t.fld F.FED_MEMBERS)).map (fun d => (one d).flatten)).flatten)))))

/-! Clusters (R97, R122, R123). -/

/-- What a dump captures of a cluster (R122): each thread's state, PC and general registers, each channel's state and content, the fault queue and
the region registers, as (address, value); contents and faults follow under the addresses of their registers. -/
def State.dumpOf (s : State) (sl k : Nat) : List (Nat × Nat) :=
  let at_ := fun (a : Nat) => (a, (s.rd a).toNat)
  let thr := fun (i : Nat) => [at_ (R.THREAD_STATE sl k i), at_ (R.THREAD_PC sl k i)] ++ (List.range 32).map (fun r => at_ (R.THREAD_GPR sl k i r))
  let ch := fun (m : Nat) => at_ (R.CH_STATE sl k m) :: (s.chMsg sl k m).map (fun d => (R.CH_STATE sl k m, d))
  let flt := fun (f : FaultRec) => [f.thread, f.code, b2n f.clusterEvent, f.pc, f.tval, f.time].map (fun v => (R.FAULT_INFO sl k, v))
  ((List.range 32).map thr).flatten ++ ((List.range 64).map ch).flatten ++ ((s.clx sl k).faults.map flt).flatten ++
  ((List.range 16).map (fun j => [at_ (R.REGION_BASE sl k j), at_ (R.REGION_LIMIT sl k j), at_ (R.REGION_CFG sl k j)])).flatten

/-- Capture a dump of a cluster; one is kept of each. -/
def State.dumpCluster (s : State) (sl k : Nat) : State :=
  { s with core.dumps := (clKey sl k, s.time.mono, s.dumpOf sl k) :: s.core.dumps.filter (fun d => decide (d.1 ≠ clKey sl k)) }

/-- Run an opcode on the cluster s.k that its payload names. -/
def State.clusterOp (s : State) (op : Nat) (f : State → Nat → Nat → MgmtCmd → State) : State :=
  s.mgmtRun op (fun t c => if c.num 0 < 4 ∧ c.num 1 < 4 then (f t (c.num 0) (c.num 1) c, some (okReply [])) else t.refuseOpen)

/-- CLUSTER_DUMP (R122). -/
def execClusterDump (s : State) : Host.Outcome State Fault Refusal := whenSlices s <|
  .next (s.clusterOp 0x0700 (fun t a b _ => t.dumpCluster a b))

/-- CLUSTER_RESET (R123). -/
def execClusterReset (s : State) : Host.Outcome State Fault Refusal := whenSlices s <|
  .next (s.clusterOp 0x0701 (fun t a b _ => t.clusterReset a b))

/-- CLUSTER_START (R97): CURATOR_ENTRY, then CLUSTER_CTRL.GO. -/
def execClusterStart (s : State) : Host.Outcome State Fault Refusal := whenSlices s <|
  .next (s.clusterOp 0x0702 (fun t a b c => (t.wr (R.CURATOR_ENTRY a b) (BitVec.ofNat 64 (leAt c.payload 8 8))).clusterGo a b))

/-- DEVICE_RESET (R488, R520): the device resets 100 ms after the reply. -/
def execDeviceReset (s : State) : Host.Outcome State Fault Refusal := whenKeeper s <|
  .next (s.runReply 0x0703 (fun t _ => (t, { okReply [] with resets := true })))

/-! Time (R51, R520). -/

/-- TIME_PTP_CFG (R51): domain, delay mechanism, transport and log sync interval. -/
def execTimePtpCfg (s : State) : Host.Outcome State Fault Refusal := whenSlices s <|
  .next (s.runReply 0x0800 (fun t c =>
    ({ t with time.ptpDomain := c.num 0, time.ptpDelayMech := c.num 1, time.ptpTransport := c.num 2, time.ptpLogSync := c.num 3 }, okReply [])))

/-- TIME_STATUS (R520). -/
def execTimeStatus (s : State) : Host.Outcome State Fault Refusal := whenSlices s <|
  .next (s.runReply 0x0801 (fun t _ =>
    (t, okReply (pageBytes 0x0801 ([R.FT_STATUS, R.FT_OFFSET, R.FT_LAST_STEP, R.FED_TIME_STATUS].map (fun a => (t.rd a).toNat))))))

/-! The AD3120 subset (R523). Payloads are big-endian (R438). -/

/-- GET_VERSION (R523): IDENTIFY's reply bytes 0 to 63, converted. -/
def execGetVersion (s : State) : Host.Outcome State Fault Refusal := whenSlices s <|
  .next (s.runReply 0x10001 (fun t _ => (t, okReply (pageOf 64 0x10001 t.identity))))

/-- GET_STATUS (R523): HEALTH, converted. -/
def execGetStatus (s : State) : Host.Outcome State Fault Refusal := whenSlices s <|
  .next (s.runReply 0x10002 (fun t _ => (t, okReply (pageBytes 0x10002 t.healthFields))))

/-- READ_LOG (R523): the device event log from an offset, at most 3,968 bytes. -/
def execReadLog (s : State) : Host.Outcome State Fault Refusal := whenSlices s <|
  .next (s.mgmtRun 0x10010 (fun t c =>
    let n := beAt c.payload 4 4
    if n = 0 ∨ 3968 < n then t.refuseOpen
    else t.download 0x10010 [] n (beAt c.payload 0 4) (fun u => (u, some (u.deviceLog 0x14001)))))

/-- FW_DOWNLOAD (R489, R523): FW_WRITE_BEGIN at offset 0, and FW_WRITE_CHUNK. -/
def execFwDownload (nor : Bool) (s : State) : Host.Outcome State Fault Refusal := whenSlices s <|
  .next (s.runReply 0x10020 (fun t c =>
    let off := beAt c.payload 4 4
    let data := c.payload.drop 8
    if off ≠ 0 then t.fwChunk off data nor
    else
      let r := t.fwBegin (beAt c.payload 0 4 + 1) (leAt data 12 4) nor
      if r.2.status = St.SUCCESS then r.1.fwChunk 0 data nor else r))

/-- FW_COMMIT (R489, R523): FW_WRITE_END. -/
def execFwCommit (nor : Bool) (s : State) : Host.Outcome State Fault Refusal := whenSlices s <| .next (s.runReply 0x10021 (fun t _ => t.fwEnd nor))

/-- The AD3120's FW_ACTIVATE (R491, R523): RESET_NOW is 0. -/
def execAnnexFwActivate (nor : Bool) (s : State) : Host.Outcome State Fault Refusal := whenSlices s <|
  .next (s.runReply 0x10022 (fun t c => t.fwActivate (beAt c.payload 0 4 + 1) false nor))

/-- GET_TEMPERATURE (R523): the highest junction temperature in whole degrees; which way a fraction goes is left free. -/
def execGetTemperature (s : State) : Host.Outcome State Fault Refusal := whenSlices s <|
  .next (s.runReply 0x10040 (fun t _ =>
    let v := signed 16 (t.fld F.TEMP_MAX)
    let up : Int := if v % 8 = 0 then 0 else (Config.unstated t.freeCtr % 2 : Nat)
    (t.draw, okReply (beBytes 4 (unsigned 32 (v / 8 + up))))))

/-- The AD3120's RESET (R523): DEVICE_RESET. -/
def execAnnexReset (s : State) : Host.Outcome State Fault Refusal := whenSlices s <|
  .next (s.runReply 0x10050 (fun t _ => (t, { okReply [] with resets := true })))

end Sys2Proof.Machine
end

