-- ==== Sys2Proof/Machine/Power.lean ====
section
/-!
DEFINITION. Power states: the slices' idle states, ASPM and LTR of the PCIe links, boost, capping and thermal control of the core clock, its supply
voltage, freezes of the performance counters, and the hourly temperature record (R525 to R538, R551, R566, R581).
-/

namespace Sys2Proof.Machine

/-! Slice idle states (R525 to R530). -/

/-- Exit latency of an idle state, and its break-even time, in fabric ticks (R525). -/
def idleLatency : Nat → Nat
  | 1 => 2 * ticksPerUs
  | 2 => 40 * ticksPerUs
  | 3 => 1000 * ticksPerUs
  | _ => 80

def idleBreakEven : Nat → Nat
  | 1 => 5 * ticksPerUs
  | 2 => 200 * ticksPerUs
  | 3 => 10000 * ticksPerUs
  | _ => 0

/-- Does a thread let its slice idle: PARKED, HALTED or with its spinning mark set (R526)? -/
def State.threadQuiet (s : State) (k c i : Nat) : Bool :=
  !s.threadExists k c i || [thParked, thHalted].contains (s.thState k c i) || s.on (F.THREAD_STATE_SPINNING k c i)

/-- Is slice k idle (R526)? An outstanding Asynchronous Event Request is no command in flight, as in R462. A die is busy while a read waits at it, or an
erase of a free band's blocks is due. -/
def State.sliceIdle (s : State) (k : Nat) : Bool :=
  decide (s.fld (F.TAG_INUSE k) = 0) && !s.tagQueued k &&
  (s.eth.queues.getD k []).isEmpty && (s.addr.learnQ.getD k []).isEmpty && (s.addr.provIn.getD k []).isEmpty && (s.addr.provOut.getD k []).isEmpty &&
  !s.eth.frames.any (fun e => decide (e.2.stage ≠ .token) && e.2.cells.any (fun c => decide (c.1 = k))) &&
  (s.srsWith (fun k' q => decide (k' = k) && (!(s.srx k' q).bells.isEmpty || !(s.srx k' q).started.isEmpty))).isEmpty &&
  !s.nv.sqs.any (fun q => decide (q.slice = k) && !q.bells.isEmpty) &&
  !s.nv.cmds.any (fun c => decide (c.slice = k) && !decide (c.sq = 0 ∧ c.opc = 0x0C)) &&
  decide (s.fld (F.AFF_WBUF_BYTES k) = 0) && !s.flash.reads.any (fun r => decide (r.slice = k)) &&
  !s.flash.bands.any (fun b => decide (b.slice = k) && s.erasable k b) &&
  (s.wheel k).held.isEmpty && (s.wheel k).fired.isEmpty &&
  (List.range 4).all (fun c => (s.clx k c).faults.isEmpty && (List.range 32).all (fun i => s.threadQuiet k c i))

/-- The NVMe limit of a power state (R532). -/
def psLimit (ps : Nat) : Nat := if ps = 4 then 3 else if ps = 3 then 2 else 1

/-- The ceiling of slice k (R528, R533). -/
def State.idleCeiling (s : State) (k : Nat) : Nat :=
  let eth := if (List.range 8).any (fun p => s.linkUp k p) then 1 else 3
  let nv := (s.nv.sqs.filter (fun q => decide (q.slice = k))).foldl (fun m q => min m (psLimit (s.nvc q.inst).ps)) 3
  min (s.fld (F.PWR_SI_MAX k)) (min eth nv)

/-- Time left until the next known event of slice k: none where it is unbounded (R527). -/
def State.idleTime (s : State) (k : Nat) : Option Int :=
  if s.horizon k = 2 ^ 64 - 1 then none else some ((s.horizon k : Int) - (s.time.mono : Int))

/-- Does state n qualify (R527)? -/
def State.idleFits (s : State) (k n : Nat) : Bool :=
  decide (n ≤ s.idleCeiling k) && (match s.idleTime k with
    | none => true
    | some h => decide (((idleLatency n + idleBreakEven n : Nat) : Int) ≤ h))

/-- The deepest idle state that qualifies; 0 where none does (R527). -/
def State.idleChoice (s : State) (k : Nat) : Nat :=
  if s.idleFits k 3 then 3 else if s.idleFits k 2 then 2 else if s.idleFits k 1 then 1 else 0

/-- Has idleness held for PWR_IDLE_DWELL nanoseconds (R527)? -/
def State.dwelt (s : State) (k : Nat) : Bool :=
  match (s.idleX k).idleSince with
  | some t => decide (5 * t + 8 * s.fld (F.PWR_IDLE_DWELL k) ≤ 5 * s.time.mono)
  | none => false

/-- The idle controller takes note of whether slice k is idle. -/
def State.noteIdle (s : State) (k : Nat) : State :=
  let x := s.idleX k
  let since : Option Nat := if s.sliceIdle k then some (x.idleSince.getD s.time.mono) else none
  s.setIdleX k { x with idleSince := since }

/-- The slice begins to enter state n. -/
def State.beginEntry (s : State) (k n : Nat) : State := s.setIdleX k { s.idleX k with move := 1, target := n, moveAt := s.time.mono }

/-- The slice begins to leave the state it is in. -/
def State.beginExit (s : State) (k : Nat) : State :=
  s.setIdleX k { s.idleX k with move := 2, target := s.fld (F.PWR_SI_STATE_STATE k), moveAt := s.time.mono }

/-- IDLE_EVALUATE (R526 to R528): the idle controller evaluates a slice. It enters the deepest state that qualifies, and leaves one that no longer
lies within the ceiling. -/
def execIdleEvaluate (slice : Nat) (s : State) : Host.Outcome State Fault Refusal := whenSlices s <|
  if 4 ≤ slice then .next s
  else
    let s1 := (s.noteIdle slice).setFld (F.PWR_SI_STATE_CEILING slice) (s.idleCeiling slice)
    let now := s1.fld (F.PWR_SI_STATE_STATE slice)
    if (s1.idleX slice).move ≠ 0 then .next s1
    else if s1.idleCeiling slice < now then .next (s1.beginExit slice)
    else if s1.sliceIdle slice ∧ s1.dwelt slice ∧ now < s1.idleChoice slice then .next (s1.beginEntry slice (s1.idleChoice slice))
    else .next s1

/-- IDLE_ENTRY_DONE (R525): the entry under way completes. -/
def execIdleEntryDone (slice : Nat) (s : State) : Host.Outcome State Fault Refusal := whenSlices s <|
  let x := s.idleX slice
  if 4 ≤ slice ∨ x.move ≠ 1 then .next s
  else .next (((s.setFld (F.PWR_SI_STATE_STATE slice) x.target).incFld (F.PWR_SI_ENTRIES slice x.target)).setIdleX slice { x with move := 0 })

/-- IDLE_EXIT_TIMER (R527): the time left until the horizon is down to the exit latency of the state: the exit begins. Less time than that is left
only where a step, an insertion or a ceiling change has taken it: PWR_WAKE_LATE counts that. An entry under way ends likewise. -/
def execIdleExitTimer (slice : Nat) (s : State) : Host.Outcome State Fault Refusal := whenSlices s <|
  let x := s.idleX slice
  let st := if x.move = 1 then x.target else s.fld (F.PWR_SI_STATE_STATE slice)
  if 4 ≤ slice ∨ st = 0 ∨ x.move = 2 then .next s
  else match s.idleTime slice with
    | none => .next s
    | some h =>
      if (idleLatency st : Int) < h then .next s
      else
        let s1 := if h < (idleLatency st : Int) then s.satFld (F.PWR_WAKE_LATE slice) 1 else s
        .next (s1.setIdleX slice { x with move := 2, target := st, moveAt := s.time.mono })

/-- SLICE_WAKE (R529, R530): a wake event reaches a slice. -/
def execSliceWake (slice : Nat) (s : State) : Host.Outcome State Fault Refusal := whenSlices s <|
  if 4 ≤ slice then .next s else .next (s.wakeSlice slice)

/-- A frame leaves the wake buffer: it asks for the cells of what has arrived of it (R154, R529). -/
def State.frameAwake (s : State) (id : Nat) : State :=
  match s.frame? id with
  | none => s
  | some f => ((s.setFrame { f with cellWait := 0 }).askCells f.slice (f.cellClass s) id (cellsFor f.arrived)).countAdmit f.slice id

/-- IDLE_EXIT_DONE (R525, R530): the exit under way completes: the slice is in SI0, and the frames of the wake buffer go on. -/
def execIdleExitDone (slice : Nat) (s : State) : Host.Outcome State Fault Refusal := whenSlices s <|
  let x := s.idleX slice
  if 4 ≤ slice ∨ x.move ≠ 2 then .next s
  else .next (x.wakeFrames.foldl State.frameAwake ((s.setFld (F.PWR_SI_STATE_STATE slice) 0).setIdleX slice {}))

/-! Boost, capping and thermal control (R537, R538, R566, R571). -/

/-- The core clocks of R537, in MHz. -/
def coreMin : Nat := 1200
def coreBase : Nat := 2400
def coreMax : Nat := 2800

/-- Degrees in the units of TEMP_MAX. -/
def degrees (t : Nat) : Int := 8 * (t : Int)

/-- n / d, where the division leaves a remainder rounded up or down: the spec gives no rounding. -/
def State.roundDiv (s : State) (n d : Nat) : State × Nat :=
  if n % d = 0 then (s, n / d) else (s.draw, n / d + Config.unstated s.freeCtr % 2)

/-- The mean of the power samples taken since instant lo. -/
def State.powerMean (s : State) (lo : Nat) : State × Nat :=
  let l := (s.power.samples.filter (fun e => decide (lo ≤ e.1))).map (fun e => e.2)
  s.roundDiv l.sum (max 1 l.length)

/-- Set VDD_CPU_TARGET to 0.65 V + (f − 1.2 GHz) × 0.125 V/GHz, in millivolts (R566). -/
def State.targetVoltage (s : State) (f : Nat) : State :=
  let r := s.roundDiv (8 * 650 + (f - coreMin)) 8
  r.1.setFld F.VDD_CPU_TARGET r.2

/-- PWR_CAP as it acts (chapter 17). -/
def State.powerCap (s : State) : Nat := 1000 * max 200 (s.fld F.PWR_CAP)

/-- The core clock goes down at once, and the voltage is lowered after it (R566). -/
def State.clockDown (s : State) (f : Nat) : State :=
  if s.fld F.CORE_FREQ = f then s else { s.setFld F.CORE_FREQ f with power.avsStep := some f }

/-- The core clock is to go up: the voltage is raised first, and not while an AVS command has failed (R566). -/
def State.clockUp (s : State) (f : Nat) : State :=
  if s.on F.PIN_STATUS_AVS_FAIL ∨ s.power.avsStep.isSome then s else { s with power.avsStep := some f }

/-- F_max (R538), with the highest temperature t and the 1 ms average of power avg. -/
def State.fMax (s : State) (t : Int) (avg : Nat) : Nat :=
  if s.on F.BOOST_CTRL_BOOST_EN ∧ t < degrees 95 ∧ t < degrees (s.fld F.PWR_TEMP_WARN) ∧
      avg + 1000 * s.fld F.BOOST_CTRL_BOOST_MARGIN < s.powerCap then coreMax else coreBase

/-- Record a measurement: power and its averages, the domains and the sensors (R538). -/
def State.measurePower (s : State) (now : Nat) (domains : List Nat) (temps : List Int) : State :=
  let l := ((s.time.mono, now % 2 ^ 20) :: s.power.samples).filter (fun e => decide (s.time.mono < e.1 + ticksPerSec))
  let s1 := (({ s with power.samples := l, power.tickAt := s.time.mono }.setFld F.PWR_NOW now).peakFld F.PWR_PEAK now)
  let r := s1.powerMean 0
  let s2 := r.1.setFld F.PWR_AVG r.2
  let s3 := (List.range 8).foldl (fun t x => t.setFld (F.PWR_DOMAIN x) (domains.getD x 0)) s2
  let s4 := (List.range 9).foldl (fun t j => t.setFld (F.TEMP j) (unsigned 16 (temps.getD j 0))) s3
  let hot := (List.range 9).foldl (fun m j => max m (signed 16 (s4.fld (F.TEMP j)))) (signed 16 (s4.fld (F.TEMP 0)))
  s4.setFld F.TEMP_MAX (unsigned 16 hot)

/-- The thermal trip: THERMTRIP_N is driven low, and the device holds itself in reset until power is removed (R538, R571). -/
def State.thermalTrip (s : State) : State := { s.resetBegins with boot.tripped := true }

/-- The first row of R538's table that matches. -/
def State.clockStep (s : State) : State :=
  let t := signed 16 (s.fld F.TEMP_MAX)
  let f := s.fld F.CORE_FREQ
  let now := s.fld F.PWR_NOW
  let a := s.powerMean (s.time.mono + 1 - ticksPerMs)
  let s := a.1
  let fm := s.fMax t a.2
  if degrees 105 < t then s.thermalTrip
  else if degrees 103 ≤ t then (s.clockDown coreMin).raise F.PWR_INT_STATUS_THERMAL_SEEN R.PWR_INT_ENABLE
  else if s.powerCap < now then
    if f ≤ coreMin then s.raise F.PWR_INT_STATUS_CAP_UNREACHED_SEEN R.PWR_INT_ENABLE
    else (s.clockDown (f - 100)).raise F.PWR_INT_STATUS_CAP_SEEN R.PWR_INT_ENABLE
  else if fm < f then s.clockDown (f - 100)
  else if f < fm ∧ now + 1000 * s.fld F.BOOST_CTRL_BOOST_MARGIN < s.powerCap then s.clockUp (f + 100)
  else s

/-- POWER_CONTROL_TICK (R538): every 100 µs the power controller measures the device's power in mW, that of its eight domains, and its nine
sensors, in units of 0.125 °C, and steps the core clock. -/
def execPowerControlTick (power : Nat) (domains : List Nat) (temps : List Int) (s : State) : Host.Outcome State Fault Refusal := whenUp s <|
  if s.time.mono < s.power.tickAt + 100 * ticksPerUs then .next s
  else
    let s1 := s.measurePower power domains temps
    let s2 := if degrees (s1.fld F.PWR_TEMP_WARN) ≤ signed 16 (s1.fld F.TEMP_MAX) then s1.raise F.PWR_INT_STATUS_TEMP_WARN_SEEN R.PWR_INT_ENABLE else s1
    .next s2.clockStep.warnHosts

/-- AVS_COMMAND (R566): the regulator of VDD_CPU answers the AVSBus command that a clock step has sent: a step up is made once its voltage is
acknowledged; a failure is recorded, and no rise follows while it stands. -/
def execAvsCommand (ack : Bool) (s : State) : Host.Outcome State Fault Refusal := whenUp s <|
  match s.power.avsStep with
  | none => .next s
  | some f =>
    let s1 := { s with power.avsStep := none }
    if ack then .next (((s1.targetVoltage f).setFld F.CORE_FREQ (max f (s.fld F.CORE_FREQ))).setFld F.PIN_STATUS_AVS_FAIL 0)
    else .next ((s1.setFld F.PIN_STATUS_AVS_FAIL 1).logEvent R.PIN_STATUS 2 0)

/-! PCIe links (R535, R536). -/

/-- Has the host enabled ASPM L1 on link l: in every PF that it carries? -/
def State.aspmOn (s : State) (l : Nat) : Bool :=
  let pfs := s.linkPfs l
  !pfs.isEmpty && pfs.all (fun p => bitOf (s.fnX p).aspm 1)

/-- ASPM_L1_ENTRY (R535): a link that has been idle for PWR_ASPM_IDLE microseconds enters L1 where the host has enabled it. -/
def execAspmL1Entry (link : Nat) (s : State) : Host.Outcome State Fault Refusal := whenUp s <|
  if link < 4 ∧ s.linkState link = lsL0 ∧ s.aspmOn link ∧ (s.readsOn link).isEmpty ∧
      s.power.linkIdle.getD link 0 + s.fld F.PWR_ASPM_IDLE * ticksPerUs ≤ s.time.mono then
    .next (s.setFld (F.PCIE_LINK_STATE_STATE link) 4)
  else .next s

/-- Is a queue pair ACTIVE, by its context? One whose context lies in host memory counts as it was created. -/
def State.qpIsActive (s : State) (qp : Nat) : Bool :=
  let x := s.qpx qp
  x.live && (match s.qpCtx x.slice qp with
    | some c => decide (cxState c = qpActive)
    | none => match s.ctxPlace qp with
      | (1, a) => decide (cxState (leNat (s.hbmRead a 1)) = qpActive) && x.errPend.isNone
      | _ => x.errPend.isNone)

/-- Does link l have an active function: an ACTIVE ring, an enabled NVMe controller, or a queue pair in ACTIVE (R536)? -/
def State.linkActive (s : State) (l : Nat) : Bool :=
  !(s.srsWith (fun k q => decide (s.srState k q = stActive) && decide (s.instLink (s.srInst k q) = l))).isEmpty ||
  !(s.crsWith (fun k c => decide (s.crState k c = stActive) && decide (s.instLink (s.crInst k c) = l))).isEmpty ||
  s.nv.ctrls.any (fun e => e.2.en && decide (s.instLink e.1 = l)) ||
  s.kra.qps.any (fun e => decide (s.instLink e.2.inst = l) && s.qpIsActive e.1)

/-- The latency that an LTR message of link l reports, in microseconds (R536). -/
def State.ltrValue (s : State) (l : Nat) : Nat := if s.linkActive l then s.fld F.PWR_LTR_ACTIVE else s.fld F.PWR_LTR_IDLE

/-- LTR_MESSAGE (R536): while the link's function 0 has LTR enabled, a message goes out when the value differs from the last one sent. -/
def execLtrMessage (link : Nat) (s : State) : Host.Outcome State Fault Refusal := whenUp s <|
  match (s.linkPfs link).head? with
  | none => .next s
  | some p =>
    let v := s.ltrValue link
    if link < 4 ∧ s.linkTrained link ∧ (s.fnX p).ltrEnable ∧ s.power.ltrSent.getD link none ≠ some v then
      .next ({ s with power.ltrSent := s.power.ltrSent.set link (some v) }.emit (.ltr link v))
    else .next s

/-! Freezes of the performance counters (R551). -/

/-- PMU_FREEZE_GO (R551): a write of PMU_FREEZE; with GO it schedules a freeze or release of every counter 16 ticks later. -/
def execPmuFreezeGo (agent : Agent) (value : Word) (s : State) : Host.Outcome State Fault Refusal := whenUp s <|
  if !accessOk R.PMU_FREEZE true agent then .next s
  else
    let v := value.toNat
    let s1 := s.setFld F.PMU_FREEZE_ON_UNC_OVF (bitsOf v 1 1)
    if bitOf v 8 then .next ((s1.setFld F.PMU_FREEZE_FREEZE (bitsOf v 0 0)).scheduleFreeze (bitOf v 0)) else .next (s1.setFld F.PMU_FREEZE_FREEZE (bitsOf v 0 0))

/-- PMU_FREEZE_APPLY (R551): the scheduled instant has come. -/
def execPmuFreezeApply (s : State) : Host.Outcome State Fault Refusal := whenUp s <|
  match s.pmuPending with
  | [] => .next s
  | (b, t) :: rest =>
    if s.time.mono < t then .next s else .next ({ s with pmuFrozen := b, pmuPending := rest }.setFld F.PMU_FREEZE_AT t)

/-! The hourly record (R581). -/

/-- TEMP_LOG_HOURLY (R581): once an hour the Keeper records TEMP_MAX. -/
def execTempLogHourly (s : State) : Host.Outcome State Fault Refusal := whenKeeper s <|
  if s.time.mono < s.boot.tempLogAt + 3600 * ticksPerSec then .next s
  else .next { s.logEvent R.TEMP_MAX 0 (s.fld F.TEMP_MAX) with boot.tempLogAt := s.time.mono }

end Sys2Proof.Machine
end

