-- ==== Sys2Proof/Machine/RegAccess.lean ====
section
/-!
DEFINITION. Register accesses: the access rule, widths, the fields' access types, the registers whose writes and reads do more than store and show, a
function's BAR0 and its configuration space (R10 to R13, R45, R413 to R423, R437, R440, R487, R585, R587). Addresses below 2^40 are device-internal; a host's
BAR0 and configuration space stand at the places of log entry 3.
-/

namespace Sys2Proof.Machine

/-- The index of each dimension of a row that offset off names, outermost first. -/
def dimIdx : List (Nat × Nat) → Nat → List Nat
  | [], _ => []
  | (st, _) :: ds, off => off / st :: dimIdx ds (off % st)

/-- The indices of the register of row r at address a: slice, cluster and the block's own. -/
def RegRow.idx (r : RegRow) (a : Nat) : List Nat := dimIdx r.dims (a - r.base)

/-- The state that a command leaves; a stop changes nothing. -/
def runCmd (f : State → Host.Outcome State Fault Refusal) (s : State) : State :=
  match f s with
  | .next t => t
  | _ => s

/-! Interrupt enables (R45). -/

/-- The interrupt enable registers and the status registers they belong to. -/
def intPairs : List (Nat × Nat) :=
  [(R.ORG_INT_ENABLE 0, R.ORG_INT_STATUS 0), (R.FT_INT_ENABLE, R.FT_INT_STATUS), (R.ARB_INT_ENABLE 0, R.ARB_INT_STATUS 0),
   (R.ARB_HUB_INT_ENABLE, R.ARB_HUB_INT_STATUS), (R.RING_INT_ENABLE 0, R.RING_INT_STATUS 0), (R.PARSE_INT_ENABLE 0, R.PARSE_INT_STATUS 0),
   (R.CAT_INT_ENABLE 0, R.CAT_INT_STATUS 0), (R.ADDR_INT_ENABLE 0, R.ADDR_INT_STATUS 0), (R.CIPHER_INT_ENABLE 0, R.CIPHER_INT_STATUS 0),
   (R.ROOT_INT_ENABLE, R.ROOT_INT_STATUS), (R.KRA_INT_ENABLE 0, R.KRA_INT_STATUS 0), (R.KL_INT_ENABLE, R.KL_INT_STATUS),
   (R.FED_INT_ENABLE, R.FED_INT_STATUS), (R.FE_INT_ENABLE, R.FE_INT_STATUS), (R.NVME_INT_ENABLE 0, R.NVME_INT_STATUS 0),
   (R.NVME_HUB_INT_ENABLE, R.NVME_HUB_INT_STATUS)] ++
  [(R.AFF_INT_ENABLE 0, R.AFF_INT_STATUS 0), (R.HOLDUP_INT_ENABLE, R.HOLDUP_INT_STATUS), (R.PCIE_INT_ENABLE, R.PCIE_INT_STATUS),
   (R.INST_INT_ENABLE, R.INST_INT_STATUS), (R.BOOT_INT_ENABLE, R.BOOT_INT_STATUS), (R.MGMT_INT_ENABLE, R.MGMT_INT_STATUS),
   (R.PWR_INT_ENABLE, R.PWR_INT_STATUS), (R.PMU_INT_ENABLE 0, R.PMU_INT_STATUS 0)]

/-- Software has set enables: every status bit that already reads 1 and whose enable was 0 interrupts the Keeper (R45), with what
the event that raised the bit recorded (R88). -/
def State.enableRise (s : State) (status : Nat) (old new : Word) : State :=
  let fresh := (s.rd status &&& new &&& ~~~old).toNat
  ((List.range 16).filter (bitOf fresh)).foldl (fun t b => t.notify status b (s.riseDetail status b)) s

/-! Writes of device registers. -/

/-- The bits of register a that events have set in the present fabric cycle: a write of 1 does not clear them (R13). -/
def State.riseMask (s : State) (a : Nat) : Word :=
  s.rises.foldl (fun w e => if e.1 / 64 = a ∧ e.2.1 = s.time.mono then w ||| (1 <<< (e.1 % 64)) else w) 0

/-- Store a write: within the lanes of `mask`, RW fields take the value, RW1C bits outside `hold` clear and RW1S bits are set where a 1 is written; the
rest keeps its value (R11, R13, R587). -/
def storeFields (fields : List FieldAcc) (old mask val hold : Word) : Word :=
  fields.foldl (fun w f =>
    let m := fldMask f.lo f.width &&& mask
    match f.acc with
    | .rw => (w &&& ~~~m) ||| (val &&& m)
    | .rw1c => w &&& ~~~(val &&& m &&& ~~~hold)
    | .rw1s => w ||| (val &&& m)
    | _ => w) old

/-- The registers that start an action: a 64-bit write of them carries out their commands, and a 32-bit write is ignored (R587). By the address of the
row's first register: who writes, the indices, the value. -/
def startActions : List (Nat × (Agent → List Nat → Word → State → State)) :=
  let at0 := fun (ix : List Nat) (n : Nat) => ix.getD n 0
  [(R.PB_COMMIT 0, fun g ix v => if bitOf v.toNat 0 then runCmd (execPbCommit g (at0 ix 0)) else id),
   (R.FT_STEP, fun g _ v => runCmd (execFtStepWrite g v)),
   (R.TW_ARM_CTRL 0, fun g ix v => runCmd (execTwArm g (at0 ix 0) v)),
   (R.CLUSTER_CTRL 0 0, fun g ix v s =>
     let s1 := if bitOf v.toNat 1 then runCmd (execClusterCtrlReset g (at0 ix 0) (at0 ix 1)) s else s
     if bitOf v.toNat 0 then runCmd (execClusterCtrlGo g (at0 ix 0) (at0 ix 1)) s1 else s1),
   (R.THREAD_CTRL 0 0 0, fun g ix v s =>
     let i := at0 ix 2
     let s1 := if i = 0 then s else s.setFld (F.THREAD_CTRL_DOMAIN (at0 ix 0) (at0 ix 1) i) (wordFld v 8 1)
     match wordFld v 0 2 with
     | 1 => runCmd (execThreadResume g (at0 ix 0) (at0 ix 1) i) s1
     | 2 => runCmd (execThreadRestart g (at0 ix 0) (at0 ix 1) i) s1
     | 3 => runCmd (execThreadPark g (at0 ix 0) (at0 ix 1) i) s1
     | _ => s1),
   (R.FAULT_POP 0 0, fun g ix v => if bitOf v.toNat 0 then runCmd (execFaultPop g (at0 ix 0) (at0 ix 1)) else id),
   (R.CH_ABORT 0 0, fun g ix v => if bitOf v.toNat 8 then runCmd (execChAbort g (at0 ix 0) (at0 ix 1) (wordFld v 0 6)) else id),
   (R.PARSE_BANK 0, fun g ix v => if bitOf v.toNat 8 then runCmd (execParseBankSwitch g (at0 ix 0)) else id)] ++
  [(R.RULE_COMMIT 0 0, fun g ix v =>
     if bitOf v.toNat 16 then runCmd (execRuleCommit g (at0 ix 0) (at0 ix 1) v) else runCmd (execRuleInvalidate g (at0 ix 0) (at0 ix 1) v)),
   (R.CAT_COMMIT 0 0, fun g ix v =>
     if bitOf v.toNat 20 then runCmd (execCatInvalidate g (at0 ix 0) (at0 ix 1) v) else runCmd (execCatCommit g (at0 ix 0) (at0 ix 1) v)),
   (R.CAT_READ 0 0, fun g ix v => runCmd (execCatRead g (at0 ix 0) (at0 ix 1) v)),
   (R.DELIVER_CTRL 0, fun g ix v s => if deliverOk g (at0 ix 0) then s.deliverCtrl (at0 ix 0) v else s),
   (R.ADDR_CMD 0 0, fun g ix v =>
     match wordFld v 0 3 with
     | 1 => runCmd (execInsertStatic g (at0 ix 0) (at0 ix 1))
     | 2 => runCmd (execAddrDelete g (at0 ix 0) (at0 ix 1))
     | 3 => runCmd (execAddrCmdLookup g (at0 ix 0) (at0 ix 1))
     | 4 => runCmd (execFlushPort g (at0 ix 0) (at0 ix 1))
     | 5 => runCmd (execFlushBd g (at0 ix 0) (at0 ix 1))
     | 6 => runCmd (execFlushDynamic g (at0 ix 0) (at0 ix 1))
     | _ => id),
   (R.CIPHER_SELFTEST 0, fun g ix v => runCmd (execCipherSelftest g (at0 ix 0) v)),
   (R.KRA_QP_CMD 0, fun g ix v s => whileOp (wordFld v 20 4) (fun op => s.qpCmdBy g (at0 ix 0) (wordFld v 0 20) op) s),
   (R.PCIE_GATE_OPEN, fun g _ v => runCmd (execPcieGateOpen g v)),
   (R.INST_FAULT_POP, fun g _ v => if bitOf v.toNat 0 then runCmd (execInstFaultPop g) else id),
   (R.INST_INVAL_CMD, fun g _ v =>
     match wordFld v 16 2 with
     | 0 => runCmd (execInvalidateInstance g (wordFld v 0 13))
     | 1 => runCmd (execInvalidateRegion g (wordFld v 0 13))
     | 2 => runCmd (execInvalidateAll g)
     | _ => id),
   (R.PMU_FREEZE, fun g _ v => runCmd (execPmuFreezeGo g v))]
where
  /-- KRA_QP_CMD's operations are 1 to 7 (R289). -/
  whileOp (op : Nat) (f : Nat → State) (s : State) : State := if 1 ≤ op ∧ op ≤ 7 then f op else s

/-- Is a write honoured now, by the row's first register and the indices (R71, R96, R95, R114, R117, R126, R256, R325)? -/
def State.honoured (s : State) (base : Nat) (ix : List Nat) : Bool :=
  let x := ix.getD 0 0
  let y := ix.getD 1 0
  let z := ix.getD 2 0
  if base = R.THREAD_PC 0 0 0 then s.threadExists x y z && decide (s.thState x y z ≠ thRunning)
  else if base = R.THREAD_GPR 0 0 0 0 then s.threadExists x y z && decide (s.thState x y z ≠ thRunning) && decide (ix.getD 3 0 ≠ 0)
  else if base = R.THREAD_CTRL 0 0 0 then s.threadExists x y z
  else if base = R.THREAD_INSTRET 0 0 0 then s.threadExists x y z
  else if base = R.REGION_BASE 0 0 0 ∨ base = R.REGION_LIMIT 0 0 0 ∨ base = R.REGION_CFG 0 0 0 then !s.on (F.REGION_CFG_LOCK x y z)
  else if base = R.SR_BASE 0 0 ∨ base = R.SR_CFG 0 0 ∨ base = R.SR_HEAD 0 0 then decide (s.srState x y = stDisabled)
  else if base = R.CR_BASE 0 0 ∨ base = R.CR_CFG 0 0 ∨ base = R.CR_HEAD 0 0 ∨ base = R.CR_TAIL 0 0 then decide (s.crState x y = stDisabled)
  else if base = R.KRA_CTX_MAP 0 then !s.kra.qps.any (fun e => e.2.live && decide (e.1 / 4096 = x))
  else if base = R.NVME_CTRL_CFG 0 then !(s.nvc x).en
  else if base = R.FT_FREQ_ADJ then decide (s.fld F.FT_STATUS_ACTIVE_SRC = 4)
  else if base = R.INST_CFG 0 then decide (s.instType x ≠ 0)
  else true

/-- Registers that are written by a command of their own, with the register's new value as the write leaves it. -/
def ownWrites : List (Nat × (Agent → List Nat → Nat → Word → State → State)) :=
  let at0 := fun (ix : List Nat) (n : Nat) => ix.getD n 0
  [(R.FT_SRC_SEL, fun g _ b v => runCmd (execFtSrcReselect g b v)),
   (R.FT_CTRL, fun g _ b v s => runCmd (execHostLockWrite g (bitOf v.toNat 2)) (runCmd (execFtSrcReselect g b v) s)),
   (R.FT_FREQ_ADJ, fun _ _ _ v s => s.setFreq (signed 32 (v.toNat % 2 ^ 32))),
   (R.TW_LEAD 0, fun g ix _ v => runCmd (execTwLeadWrite g (at0 ix 0) (wordFld v 0 16))),
   (R.TW_ARM_TIME 0, fun g ix _ v s => s.setArmTime g (at0 ix 0) v.toNat),
   (R.ARB_DEADLINE 0, fun g _ b v => runCmd (execArbClassWrite g b (wordFld v 0 24))),
   (R.ARB_UNIT_CLASS 0, fun g _ b v => runCmd (execArbClassWrite g b (wordFld v 0 4))),
   (R.SR_CTRL 0 0, fun g ix _ v => if bitOf v.toNat 0 then runCmd (execSrEnable g (at0 ix 0) (at0 ix 1)) else runCmd (execSrDisable g (at0 ix 0) (at0 ix 1))),
   (R.CR_CTRL 0 0, fun g ix _ v => if bitOf v.toNat 0 then runCmd (execCrEnable g (at0 ix 0) (at0 ix 1)) else runCmd (execCrDisable g (at0 ix 0) (at0 ix 1))),
   (R.KL_CTRL 0, fun g ix _ v => if bitOf v.toNat 0 then runCmd (execKlEnable g (at0 ix 0)) else runCmd (execKlDisable g (at0 ix 0))),
   (R.INST_CFG 0, fun g ix b v s =>
     let i := at0 ix 0
     let s1 := s.wr b (setWordFld (s.rd b) 12 5 (wordFld v 12 5))
     let en := bitOf v.toNat 8
     if en = s.on (F.INST_CFG_ENABLE i) then s1 else if en then runCmd (execInstanceEnable g i) s1 else runCmd (execInstanceDisable g i) s1),
   (R.RCV_CTRL, fun g _ b v s =>
     if bitOf v.toNat 0 then runCmd (execRcvCtrlEnable g) s else { s.wr b 0 with boot.rcv := {} })] ++
  [(R.FN_INTX_PENDING 0 0, fun _ ix b v s => runCmd (execFnIntxPendingClear (at0 ix 0) (at0 ix 1) (s.rd b &&& ~~~v)) s),
   (R.PARSE_PROG 0 0, fun _ ix _ v s =>
     let k := at0 ix 0
     if s.on (F.PARSE_BANK_DRAINING k) then s
     else { s with eth.prog := Map.put (fun _ => 0) s.eth.prog (4096 * k + 2048 * (1 - s.fld (F.PARSE_BANK_ACTIVE k)) + at0 ix 1) (wordFld v 0 32) }),
   (R.KRA_UDP_PORT, fun _ _ b v s => (List.range 4).foldl (fun t k => t.setFld (F.PARSE_PARAM k 2) (wordFld v 0 16)) (s.wr b v)),
   (R.GPIO_DIR, fun _ _ b v s => s.wr b (if s.ppsSelected then setWordFld v 7 1 (wordFld (s.rd b) 7 1) else v)),
   (R.GPIO_OUT, fun _ _ b v s => s.wr b (if s.ppsSelected then setWordFld v 7 1 (wordFld (s.rd b) 7 1) else v)),
   (R.AFF_WIN_START, fun _ _ b v s => (List.range 4).foldl State.armWindow (s.wr b v)),
   (R.AFF_WIN_LEN, fun _ _ b v s => (List.range 4).foldl State.armWindow (s.wr b v)),
   (R.CORE_HPM_EVT 0 0 0, fun _ ix b v s =>
     let ovf := wordFld (s.rd b) 63 1 * wordFld v 63 1
     (s.wr b (setWordFld (v &&& ~~~(fldMask 14 47)) 63 1 ovf)).setFld ⟨R.CORE_OVF (at0 ix 0) (at0 ix 1), at0 ix 2, 1⟩ ovf),
   (R.UNC_EVT 0 0, fun _ ix b v s =>
     let ovf := wordFld (s.rd b) 63 1 * wordFld v 63 1
     (s.wr b (setWordFld (v &&& ~~~(fldMask 28 33)) 63 1 ovf)).setFld ⟨R.UNC_OVF (at0 ix 0), at0 ix 1, 1⟩ ovf),
   (R.CORE_OVF 0 0, fun _ ix b v s =>
     (List.range 48).foldl (fun (t : State) m => if bitOf v.toNat m then t else t.setFld ⟨R.CORE_HPM_EVT (at0 ix 0) (at0 ix 1) m, 63, 1⟩ 0) (s.wr b v)),
   (R.UNC_OVF 0, fun _ ix b v s =>
     (List.range 8).foldl (fun (t : State) m => if bitOf v.toNat m then t else t.setFld ⟨R.UNC_EVT (at0 ix 0) m, 63, 1⟩ 0) (s.wr b v)),
   (R.ANX_OPCODE, fun g _ _ v => runCmd (execAnnexLaunch g (wordFld v 0 16))),
   (R.ANX_STATUS, fun g _ _ v => if wordFld v 0 3 = 0 then runCmd (execAnnexConsume g) else id),
   (R.ANX_INT, fun _ _ b v s => (s.wr b v).updateInta 0)]

/-- Are writes of this Annex register honoured only in IDLE and BUSY (R440)? -/
def annexGuarded (base : Nat) : Bool := decide (base = R.ANX_LENGTH ∨ base = R.ANX_PAYLOAD 0)

/-- The entry of ownWrites that a register at b of row r has: the class registers stand in several rows (R79). -/
def ownBase (r : RegRow) (b : Nat) : Nat := if isClassReg b then (if b < R.ARB_UNIT_CLASS 0 then R.ARB_DEADLINE 0 else R.ARB_UNIT_CLASS 0) else r.base

/-- A permitted write of the register at b, of row r, in the lanes of `mask`, of which `wide` says that they are all 64. -/
def State.writeReg (s : State) (g : Agent) (r : RegRow) (b : Nat) (wide : Bool) (mask val : Word) : State :=
  let ix := r.idx b
  match startActions.find? (fun e => decide (e.1 = r.base)) with
  | some e => if wide && s.honoured r.base ix then e.2 g ix val s else s
  | none =>
    if annexGuarded r.base && decide (s.fld F.ANX_STATUS_STATE ≠ 0 ∧ s.fld F.ANX_STATUS_STATE ≠ 4) then s.incFld F.ANX_IGNORED
    else if !s.honoured r.base ix then s
    else
      let old := s.rd b
      let new := storeFields r.fields (if r.base = R.TW_ARM_TIME 0 then BitVec.ofNat 64 (s.armTimeOf g (ix.getD 0 0)) else old) mask val (s.riseMask b)
      match ownWrites.find? (fun e => decide (e.1 = ownBase r b)) with
      | some e => e.2 g ix b (if r.base = R.ANX_STATUS then val else new) s
      | none =>
        let s1 := s.wr b new
        match intPairs.find? (fun e => decide (e.1 = r.base)) with
        | some e => s1.enableRise (b - e.1 + e.2) old new
        | none => s1

/-! The access rule (R585, R587). -/

/-- The Annex window honours aligned 32-bit accesses alone (R437). -/
def inAnnex (a : Nat) : Bool := decide (R.ANX_OPCODE ≤ a ∧ a < R.ANX_OPCODE + 4096)

/-- In Recovery a host reaches the recovery page and the function page of PF0, and elsewhere the recovery page is absent; the Keeper's own accesses are
not limited so (R487). -/
def State.pageOpen (s : State) (a : Nat) (g : Agent) : Bool :=
  let rcv := decide (R.RCV_SR_BASE ≤ a ∧ a < R.RCV_SR_BASE + 4096)
  if s.boot.recovery then (match g with
    | .keeper | .debug => true
    | _ => rcv || decide (R.FN_STATUS 0 ≤ a ∧ a < R.FN_STATUS 0 + 4096))
  else !rcv

/-- Is the access permitted: an aligned 32-bit or 64-bit access of a register that is open to the agent (R585)? -/
def State.mayAccess (s : State) (g : Agent) (a size : Nat) (write : Bool) : Bool :=
  decide (size = 4 ∨ size = 8) && decide (a % size = 0) && accessOk a write g && s.pageOpen a g

/-- The slice whose crossbar port a device-internal register access reaches wakes it (R529). -/
def State.wakeFor (s : State) (a : Nat) : State := if 0x4000000 ≤ a ∧ a < 0x8000000 then s.wakeSlice (sliceOf a) else s

/-- A write of one register: of a 64-bit register whole or in half, or of a 32-bit one. -/
def State.writeOne (s : State) (g : Agent) (a size val : Nat) : State :=
  match findRow a with
  | none => s
  | some r =>
    if r.bytes = 4 then s.writeReg g r a true (fldMask 0 32) (BitVec.ofNat 64 (val % 2 ^ 32))
    else if size = 8 then s.writeReg g r a true (fldMask 0 64) (BitVec.ofNat 64 val)
    else
      let lo := a % 8 * 8
      s.writeReg g r (a - a % 8) false (fldMask lo 32) (BitVec.ofNat 64 (val % 2 ^ 32) <<< lo)

/-- A write of `size` bytes at a device register (R585, R587): a violating write is ignored. -/
def State.writeDev (s : State) (g : Agent) (a size val : Nat) : State :=
  if inAnnex a ∧ (size ≠ 4 ∨ a % 4 ≠ 0) then (if s.pageOpen a g then s.incFld F.ANX_IGNORED else s)
  else if !s.mayAccess g a size true then s
  else
    let s1 := s.wakeFor a
    match findRow a with
    | some r => if r.bytes = 4 ∧ size = 8 then (s1.writeOne g a 4 val).writeOne g (a + 4) 4 (val / 2 ^ 32) else s1.writeOne g a size val
    | none => s1

/-! Reads of device registers. -/

/-- The current level behind a level peak (R13): what the peak restarts from. -/
def State.levelOf (s : State) (base : Nat) (ix : List Nat) : Nat :=
  let k := ix.getD 0 0
  if base = R.PB_CLASS_PEAK 0 0 then s.fld (F.PB_CLASS_USE k (ix.getD 1 0))
  else if base = R.TAG_PEAK 0 then s.fld (F.TAG_INUSE k)
  else if base = R.TW_PEAK 0 then s.fld (F.TW_ENTRIES k)
  else if base = R.RING_POOL_PEAK 0 then 8192 - s.fld (F.RING_POOL_FREE k)
  else if base = R.PARSE_QUEUE_PEAK 0 then s.fld (F.PARSE_QUEUE_DEPTH k)
  else if base = R.INFLIGHT_PEAK 0 then (s.cipher.inflight.filter (fun e => decide (e.slice = k))).length
  else if base = R.KRA_MISS_PEAK 0 then s.fld (F.KRA_MISS_DEPTH k)
  else if base = R.AFF_WBUF_PEAK 0 then s.fld (F.AFF_WBUF_BYTES k)
  else if base = R.PWR_PEAK then s.fld F.PWR_NOW
  else 0

/-- Bring what a register shows up to date before it is read: Fabric Time, banked registers, levels that time alone changes, and bits that read as a
constant (R48, R49, R63, R65, R95, R114, R117, R159, R246, R353, R528, R591). Answers the state, since some reads latch, and the value. -/
def State.showReg (s : State) (g : Agent) (base b : Nat) (ix : List Nat) : State × Word :=
  let k := ix.getD 0 0
  let c := ix.getD 1 0
  let i := ix.getD 2 0
  let v := s.rd b
  if base = R.FT_NOW_SEC then
    ({ s with time.fracLatch := (g, s.ftNow % 2 ^ 48) :: s.time.fracLatch.filter (fun e => decide (e.1 ≠ g)) }, BitVec.ofNat 64 (s.ftSec % 2 ^ 48))
  else if base = R.FT_NOW_FRAC then (s, BitVec.ofNat 64 (((s.time.fracLatch.find? (fun e => decide (e.1 = g))).map (fun e => e.2)).getD 0))
  else if base = R.FT_MONO then (s, BitVec.ofNat 64 s.time.mono)
  else if base = R.GPIO_IN then
    let driven := if s.ppsSelected then setBits (s.rd R.GPIO_DIR).toNat 7 7 0 else (s.rd R.GPIO_DIR).toNat
    (s, BitVec.ofNat 64 (Nat.land (s.rd R.GPIO_OUT).toNat driven + Nat.land s.boot.gpioIn (255 - driven)))
  else if base = R.TW_ARM_TIME 0 then (s, BitVec.ofNat 64 (s.armTimeOf g k))
  else if base = R.TW_ARM_RESULT 0 then (s, BitVec.ofNat 64 (((s.time.armResult.find? (fun e => decide (e.1 = (g, k)))).map (fun e => e.2)).getD 0))
  else if base = R.EVENT_HORIZON 0 then (s, BitVec.ofNat 64 (s.horizon k))
  else if base = R.SLICE_CAPS 0 then (s, setWordFld v 0 3 s.threadsPerCore)
  else if base = R.PWR_SI_STATE 0 then (s, setWordFld v 4 2 (s.idleCeiling k))
  else if base = R.ROOT_RELOADS then (s, BitVec.ofNat 64 (min 3 s.recentReloads.length))
  else if base = R.ACC_TIME_TRUSTED ∨ base = R.ACC_TIME_FLOOR then let t := s.seeTime; (t, t.rd b)
  else if base = R.PARSE_PROG 0 0 then
    (s, BitVec.ofNat 64 (Map.get (fun _ => 0) s.eth.prog (4096 * k + 2048 * (1 - s.fld (F.PARSE_BANK_ACTIVE k)) + c)))
  else if base = R.THREAD_GPR 0 0 0 0 then (s, if s.threadExists k c i ∧ s.thState k c i ≠ thRunning ∧ ix.getD 3 0 ≠ 0 then v else 0)
  else if base = R.THREAD_PC 0 0 0 ∨ base = R.THREAD_CTRL 0 0 0 ∨ base = R.THREAD_STATE 0 0 0 ∨ base = R.THREAD_INSTRET 0 0 0 then
    (s, if s.threadExists k c i then v else 0)
  else if base = R.REGION_LIMIT 0 0 0 then (s, v ||| 0xFFF)
  else if base = R.UNC_ADDR_LIMIT 0 0 then (s, v ||| 0x3F)
  else (s, v)

/-- Restart the RC fields of a register that a read returns in the lanes of `mask` (R13, R587). -/
def State.restartRc (s : State) (r : RegRow) (b : Nat) (mask : Word) : State :=
  r.fields.foldl (fun (t : State) f =>
    if f.acc = .rc ∧ fldMask f.lo f.width &&& mask = fldMask f.lo f.width then t.setFld ⟨b, f.lo, f.width⟩ (t.levelOf r.base (r.idx b)) else t) s

/-- Bits that a read does not show: WO and reserved ones read zero (R11). -/
def readMask (r : RegRow) : Word :=
  let shown := r.fields.foldl (fun m f => match f.acc with | .wo | .rsv => m | _ => m ||| fldMask f.lo f.width) 0
  if r.base = R.REGION_LIMIT 0 0 0 ∨ r.base = R.UNC_ADDR_LIMIT 0 0 then fldMask 0 64 else shown

/-- A read of the register at b, of row r: the state after it and the whole value. -/
def State.readReg (s : State) (g : Agent) (r : RegRow) (b : Nat) (mask : Word) : State × Word :=
  let x := s.showReg g r.base b (r.idx b)
  (x.1.restartRc r b mask, x.2 &&& readMask r)

/-- A read of one register: of a 64-bit register whole or in half, or of a 32-bit one. -/
def State.readOne (s : State) (g : Agent) (a size : Nat) : State × Nat :=
  match findRow a with
  | none => (s, 0)
  | some r =>
    if r.bytes = 4 then let x := s.readReg g r a (fldMask 0 32); (x.1, wordFld x.2 0 32)
    else
      let lo := a % 8 * 8
      let x := s.readReg g r (a - a % 8) (if size = 8 then fldMask 0 64 else fldMask lo 32)
      (x.1, if size = 8 then x.2.toNat else wordFld x.2 lo 32)

/-- A read of `size` bytes of a device register (R585, R587): a violating read returns zero and has no effect. -/
def State.readDev (s : State) (g : Agent) (a size : Nat) : State × Nat :=
  if inAnnex a ∧ (size ≠ 4 ∨ a % 4 ≠ 0) then (if s.pageOpen a g then s.incFld F.ANX_IGNORED else s, 0)
  else if !s.mayAccess g a size false then (s, 0)
  else
    let s1 := s.wakeFor a
    match findRow a with
    | some r =>
      if r.bytes = 4 ∧ size = 8 then
        let x := s1.readOne g a 4
        let y := x.1.readOne g (a + 4) 4
        (y.1, x.2 + 2 ^ 32 * y.2)
      else s1.readOne g a size
    | none => (s1, 0)

/-! A function's BAR0 (R417 to R423). -/

/-- Where a host access of BAR0 offset `off` of function i finds a register page: the function page, the Annex Mailbox and the recovery page. -/
def barPage (i off : Nat) : Option Nat :=
  if 0x30000 ≤ off ∧ off < 0x31000 then some (R.FN_STATUS i + (off - 0x30000))
  else if i = 0 ∧ 0x31000 ≤ off ∧ off < 0x32000 then some (R.RCV_SR_BASE + (off - 0x31000))
  else if i = 0 ∧ 0x100000 ≤ off ∧ off < 0x101000 then some (R.ANX_OPCODE + (off - 0x100000))
  else none

/-- An entry of an MSI-X table after a 32-bit write of its word w (R421). -/
def MsixEntry.write (e : MsixEntry) (w v : Nat) : MsixEntry :=
  match w with
  | 0 => { e with addr := e.addr / 2 ^ 32 * 2 ^ 32 + v / 4 * 4 }
  | 1 => { e with addr := e.addr % 2 ^ 32 + 2 ^ 32 * v }
  | 2 => { e with data := v }
  | _ => { e with mask := bitOf v 0, tag := bitsOf v 31 16 }

/-- A 32-bit word of an MSI-X entry. -/
def MsixEntry.word (e : MsixEntry) (w : Nat) : Nat :=
  match w with
  | 0 => e.addr % 2 ^ 32
  | 1 => e.addr / 2 ^ 32
  | 2 => e.data
  | _ => b2n e.mask + 65536 * e.tag

/-- Write the 32-bit word at offset o of the MSI-X table of function i. -/
def State.msixWrite (s : State) (i o v : Nat) : State :=
  let n := o / 16
  if vectorCount i ≤ n then s
  else
    let t : State := { s with pcie.msix := Map.put (fun _ => {}) s.pcie.msix (2048 * i + n) ((s.msixEntry i n).write (o % 16 / 4) v) }
    t.flushVectors i

/-- Write a 32-bit word at an offset of BAR0 of function i that no register page holds. -/
def State.barWord (s : State) (i off v : Nat) : State :=
  if 0x20000 ≤ off ∧ off < 0x28000 then s.msixWrite i (off - 0x20000) v
  else if s.boot.recovery then (if i = 0 ∧ off = 0 then s.rcvDoorbell false v else if i = 0 ∧ off = 0x8000 then s.rcvDoorbell true v else s)
  else if s.instType i = 4 then
    if 0x2000 ≤ off then s
    else match s.nvForward i off v with
      | some t => t
      | none => s.nvRegWrite i off v
  else if off < 0x10000 ∧ off % 8 = 0 then s.doorbell i off v
  else s

/-- A host's write of `size` bytes to BAR0 of function i. -/
def State.barWrite (s : State) (g : Agent) (i off size v : Nat) : State :=
  let s := s.linkBusy (s.instLink i)
  match barPage i off with
  | some a => s.writeDev g a size v
  | none =>
    if (size ≠ 4 ∧ size ≠ 8) ∨ off % size ≠ 0 ∨ (s.boot.recovery ∧ i ≠ 0) then s
    else
      let s1 := s.barWord i off (v % 2 ^ 32)
      if size = 8 then s1.barWord i (off + 4) (v / 2 ^ 32 % 2 ^ 32) else s1

/-- A 32-bit word of BAR0 of function i that no register page holds. -/
def State.barReadWord (s : State) (i off : Nat) : Nat :=
  let half := fun (v : Nat) => if off % 8 = 4 then v / 2 ^ 32 else v % 2 ^ 32
  if 0x20000 ≤ off ∧ off < 0x28000 then
    let n := (off - 0x20000) / 16
    if vectorCount i ≤ n then 0 else (s.msixEntry i n).word (off % 16 / 4)
  else if 0x28000 ≤ off ∧ off < 0x28100 then
    ((List.range 32).map (fun b => let n := 8 * (off - 0x28000) + b
                                   if n < vectorCount i ∧ s.pcie.pba.contains (2048 * i + n) then 2 ^ b else 0)).sum
  else if s.boot.recovery then 0
  else if s.instType i = 4 then (if off < 0x1000 ∧ s.isCtrl i then s.nvWord i off else 0)
  else if 0x10000 ≤ off ∧ off < 0x20000 then half (s.ringStatus i (off - off % 8 - 0x10000))
  else 0

/-- A host's read of `size` bytes of BAR0 of function i. A bound function's window is read by BOUND_STATUS_WINDOW_READ (R313). -/
def State.barRead (s : State) (g : Agent) (i off size : Nat) : State × Nat :=
  let s := s.linkBusy (s.instLink i)
  match barPage i off with
  | some a => s.readDev g a size
  | none =>
    if (size ≠ 4 ∧ size ≠ 8) ∨ off % size ≠ 0 ∨ (s.boot.recovery ∧ i ≠ 0) then (s, 0)
    else (s, s.barReadWord i off + (if size = 8 then 2 ^ 32 * s.barReadWord i (off + 4) else 0))

/-! Configuration space (R413 to R416). -/

/-- A field of a doubleword after a write in the lanes of `mask`. -/
def cfgNew (old val mask lo width : Nat) : Nat :=
  let m := mask / 2 ^ lo % 2 ^ width
  Nat.land old (2 ^ width - 1 - m) + Nat.land (val / 2 ^ lo) m

/-- A one-bit field of a doubleword after a write. -/
def cfgBit (old : Bool) (val mask lo : Nat) : Bool := decide (cfgNew (b2n old) val mask lo 1 = 1)

/-- A write-1-to-clear field after a write. -/
def cfgClear (old val mask : Nat) : Nat := Nat.land old (2 ^ 32 - 1 - Nat.land val mask)

/-- The Command register: Bus Master Enable, SERR# Enable and Interrupt Disable (R416, R423, R434). -/
def State.cfgCommand (s : State) (i val mask : Nat) : State :=
  let x := s.fnX i
  let s1 := if i < 8 then
      (s.setFnX i { x with serr := cfgBit x.serr val mask 8, intDisable := cfgBit x.intDisable val mask 10 }).updateInta i
    else s
  let bme := cfgBit x.bme val mask 2
  if bme = x.bme then s1 else if bme then runCmd (execBusMasterEnableSet i) s1 else runCmd (execBusMasterEnableClear i) s1

/-- Device Control and Status: a write of Initiate Function Level Reset begins it (R415, R416, R435). -/
def State.cfgDevice (s : State) (i val mask : Nat) : State :=
  let x := s.fnX i
  let s1 := s.setFnX i (if i < 8 then
      { x with corEn := cfgBit x.corEn val mask 0, nonFatalEn := cfgBit x.nonFatalEn val mask 1, fatalEn := cfgBit x.fatalEn val mask 2,
               relaxed := cfgBit x.relaxed val mask 4, mps := cfgNew x.mps val mask 5 3, mrrs := cfgNew x.mrrs val mask 12 3,
               devStatus := cfgClear x.devStatus (val / 65536) (mask / 65536) }
    else { x with devStatus := cfgClear x.devStatus (val / 65536) (mask / 65536) })
  if bitOf val 15 && bitOf mask 15 then runCmd (execFunctionLevelReset i) s1 else s1

/-- Is function i there for the host: a PF, or a VF that its PF's VF Enable and NumVFs cover (R411, R414)? -/
def State.vfOn (s : State) (i : Nat) : Bool :=
  let p := s.fld (F.INST_CFG_PF i)
  decide (i < 8) || ((s.fnX p).vfEnable && decide (i - 8 - (s.pcie.vfs.take p).sum < (s.fnX p).numVfs))

/-- The PFs of link l, in the order of their function numbers (R412). -/
def State.pfsOn (s : State) (l : Nat) : List Nat := (List.range 8).filter (fun p => decide (s.instType p ≠ 0 ∧ s.instLink p = l))

/-- The function number of PF p on its link (R412). -/
def State.functionNumber (s : State) (p : Nat) : Nat := ((s.pfsOn (s.instLink p)).takeWhile (fun x => decide (x ≠ p))).length

/-- Is function i its link's function 0 (R412)? -/
def State.isFunction0 (s : State) (i : Nat) : Bool := decide ((s.pfsOn (s.instLink i)).head? = some i)

/-- Is function i a PF with VFs, which carries SR-IOV (R414)? -/
def State.hasVfs (s : State) (i : Nat) : Bool := decide (i < 8 ∧ 0 < s.pcie.vfs.getD i 0)

/-- First VF Offset of PF p (R412). -/
def State.firstVfOffset (s : State) (p : Nat) : Nat :=
  let l := s.pfsOn (s.instLink p)
  l.length - s.functionNumber p + ((l.filter (fun x => decide (x < p))).map (fun x => s.pcie.vfs.getD x 0)).sum

/-- The width of link l (R408). -/
def State.linkLanes (s : State) (l : Nat) : Nat :=
  if (l = 0 ∧ s.on F.STRAP_STATUS_HA_BIFURCATE) ∨ (l = 2 ∧ s.on F.STRAP_STATUS_HB_BIFURCATE) then 16 else 8

/-- The reset values of the host-written fields (log entry 35). -/
def cfgHostReset (dw : Nat) : Nat :=
  match dw with
  | 0x078 => 0x800
  | 0x0A0 => 6
  | 0x180 => 1
  | 0x1E4 => 2 ^ 31
  | _ => 0

/-- The bits of a doubleword that the host writes and the device only keeps: Memory Space Enable, Parity Error Response, Cache Line Size, the BARs, the
Interrupt Line, enables of options, and the controls of the capabilities (R413 to R415, R417, R419; log entry 35). -/
def State.cfgHostMask (s : State) (i dw : Nat) : Nat :=
  let pf := decide (i < 8)
  let f0 := s.isFunction0 i
  let sr := s.hasVfs i
  match dw with
  | 0x004 => if pf then 0x42 else 0
  | 0x00C => if pf then 0xFF else 0
  | 0x010 => if i = 0 then 0xFFE00000 else if pf then 0xFFFC0000 else 0
  | 0x014 => if pf then 0xFFFFFFFF else 0
  | 0x018 => if i = 0 then 0xF8000000 else 0
  | 0x01C => if i = 0 then 0xFFFFFFFF else 0
  | 0x03C => if pf then 0xFF else 0
  | 0x078 => if pf then 0x908 else 0
  | 0x080 => if pf then 0x2C8 else 0
  | 0x0A0 => if f0 then 0xF else 0
  | 0x118 => if pf then 0x140 else 0
  | 0x168 => if sr then 0x18 else 0
  | 0x180 => if sr then 0x11 else 0
  | 0x184 => if sr then 0xFFFC0000 else 0
  | 0x188 => if sr then 0xFFFFFFFF else 0
  | 0x1A4 => if pf then 0x1F0000 else 0
  | 0x1B8 => 0x307
  | 0x1D8 => if f0 then 0xE3FF000F else 0
  | 0x1DC => if f0 then 0xFB else 0
  | 0x1E4 => if f0 then 2 ^ 31 else 0
  | _ => 0

/-- What the host has written to a doubleword's kept fields. -/
def State.cfgHost (s : State) (i dw : Nat) : Nat := Map.get cfgHostReset (s.fnX i).cfg dw

/-- Keep the host-written fields of a doubleword after a write in the lanes of `mask`. -/
def State.cfgKeep (s : State) (i dw val mask : Nat) : State :=
  let m := Nat.land mask (s.cfgHostMask i dw)
  let old := s.cfgHost i dw
  if m = 0 then s
  else s.setFnX i { s.fnX i with cfg := Map.put cfgHostReset (s.fnX i).cfg dw (Nat.land old (2 ^ 32 - 1 - m) + Nat.land val m) }

/-- VF Enable: a clear resets every VF, as the base specification has it. -/
def State.cfgVfEnable (s : State) (i : Nat) (on : Bool) : State :=
  let x := s.fnX i
  let s1 := s.setFnX i { x with vfEnable := on }
  if x.vfEnable && !on then s1.resetFunctions 1 (s1.vfsOf i) else s1

/-- Write configuration doubleword `dw` of function i in the lanes of `mask`. -/
def State.cfgWrite (s : State) (i dw val mask : Nat) : State :=
  if !s.fnReady i || !s.vfOn i then s
  else
    let s := s.cfgKeep i dw val mask
    let x := s.fnX i
    let pf := decide (i < 8)
    match dw with
    | 0x004 => s.cfgCommand i val mask
    | 0x044 =>
      let p := cfgNew (if x.d3hot then 3 else 0) val mask 0 2
      if !pf then s else if p = 3 then runCmd (execD3hotEntry i) s else if p = 0 then runCmd (execD3hotExit i) s else s
    | 0x050 => if !pf then s else
        ((s.setFnX i { x with msiEnable := cfgBit x.msiEnable val mask 16, mme := min 5 (cfgNew x.mme val mask 20 3) }).updateInta i).flushVectors i
    | 0x054 => if pf then s.setFnX i { x with msiAddr := x.msiAddr / 2 ^ 32 * 2 ^ 32 + cfgNew (x.msiAddr % 2 ^ 32) val mask 0 32 / 4 * 4 } else s
    | 0x058 => if pf then s.setFnX i { x with msiAddr := x.msiAddr % 2 ^ 32 + 2 ^ 32 * cfgNew (x.msiAddr / 2 ^ 32) val mask 0 32 } else s
    | 0x05C => if pf then s.setFnX i { x with msiData := cfgNew x.msiData val mask 0 16 } else s
    | 0x060 => if pf then (s.setFnX i { x with msiMask := cfgNew x.msiMask val mask 0 32 }).flushVectors i else s
    | 0x078 => s.cfgDevice i val mask
    | 0x080 => if pf then s.setFnX i { x with aspm := cfgNew x.aspm val mask 0 2 } else s
    | 0x098 => if !pf then s else
        let ltr := cfgBit x.ltrEnable val mask 10
        let s1 := s.setFnX i { x with cto := cfgNew x.cto val mask 0 4, ltrEnable := ltr, tag10 := cfgBit x.tag10 val mask 12 }
        if ltr && !x.ltrEnable then { s1 with power.ltrSent := s1.power.ltrSent.set (s.instLink i) none } else s1
    | 0x0B0 => ((s.setFnX i { x with msixEnable := cfgBit x.msixEnable val mask 31, functionMask := cfgBit x.functionMask val mask 30 }).updateInta i).flushVectors i
    | 0x104 =>
      let st := cfgClear x.uncStatus val mask
      s.setFnX i { x with uncStatus := st, firstErr := x.firstErr.filter (fun e => bitOf st e.1) }
    | 0x108 => if pf then s.setFnX i { x with uncMask := cfgNew x.uncMask val mask 0 32 } else s
    | 0x10C => if pf then s.setFnX i { x with uncSev := cfgNew x.uncSev val mask 0 32 } else s
    | 0x110 => s.setFnX i { x with corStatus := cfgClear x.corStatus val mask }
    | 0x114 => if pf then s.setFnX i { x with corMask := cfgNew x.corMask val mask 0 32 } else s
    | 0x168 => if s.hasVfs i then s.cfgVfEnable i (cfgBit x.vfEnable val mask 0) else s
    | 0x170 => if pf && !x.vfEnable then s.setFnX i { x with numVfs := min (s.pcie.vfs.getD i 0) (cfgNew x.numVfs val mask 0 16) } else s
    | 0x1A4 => s.setFnX i { x with atsEnable := cfgBit x.atsEnable val mask 31 }
    | 0x1C4 => if s.isFunction0 i then s.setFnX i { x with ltrMax := cfgNew x.ltrMax val mask 0 32 } else s
    | _ => s

/-- Device ID by type (R413). -/
def deviceId (typ : Nat) : Nat := 0x647F + typ

/-- VF Device ID by type (R413). -/
def vfDeviceId (typ : Nat) : Nat := 0x648F + typ

/-- Class Code by type (R413). -/
def classCode (typ : Nat) : Nat := if typ = 4 then 0x010802 else if typ = 3 then 0x028000 else if typ = 2 then 0x020000 else 0x120000

/-- The extended capabilities: offset, ID, version, and who carries each, 0 PF, 1 PF and VF, 2 PFs with VFs, 3 the link's function 0 (R414; every version
but AER's is the base specification's). -/
def extCaps : List (Nat × Nat × Nat × Nat) :=
  [(0x100, 0x0001, 2, 1), (0x148, 0x000E, 1, 1), (0x150, 0x0003, 1, 0), (0x160, 0x0010, 1, 2), (0x1A0, 0x000F, 1, 1), (0x1B0, 0x0017, 1, 1),
   (0x1C0, 0x0018, 1, 3), (0x1D0, 0x001E, 1, 3), (0x1E0, 0x0025, 1, 3), (0x1F0, 0x0019, 1, 3), (0x220, 0x0026, 1, 3), (0x250, 0x002A, 1, 3),
   (0x280, 0x0031, 1, 3), (0x2B0, 0x0027, 1, 3)]

/-- Does function i carry a capability of this class (R414)? -/
def State.carries (s : State) (i cls : Nat) : Bool :=
  match cls with
  | 0 => decide (i < 8)
  | 1 => true
  | 2 => s.hasVfs i
  | _ => s.isFunction0 i

/-- The header of the extended capability at dw, linked to the next that the function carries (R414); zero where it carries none there. -/
def State.extHeader (s : State) (i dw : Nat) : Nat :=
  match (extCaps.filter (fun c => s.carries i c.2.2.2)).dropWhile (fun c => decide (c.1 ≠ dw)) with
  | [] => 0
  | c :: rest => c.2.1 + 2 ^ 16 * c.2.2.1 + 2 ^ 20 * (match rest with | [] => 0 | d :: _ => d.1)

/-- The fields of a doubleword of configuration space that the host does not keep (R412 to R415, R417, R419, R421, R535): zero where function i has nothing
there, and the free value where the spec names a register without a value (log entry 35). -/
def State.cfgFixed (s : State) (i dw : Nat) : Nat :=
  let x := s.fnX i
  let pf := decide (i < 8)
  let typ := s.instType i
  let l := s.instLink i
  let open_ := fun (m : Nat) => Nat.land (Config.cfgWord i dw) m
  let ifPf := fun (v : Nat) => if pf then v else 0
  let ifSr := fun (v : Nat) => if s.hasVfs i then v else 0
  let ifF0 := fun (v : Nat) => if s.isFunction0 i then v else 0
  match dw with
  | 0x000 => if pf then 0x1D7C + 65536 * deviceId typ else 2 ^ 32 - 1
  | 0x004 => 2 ^ 2 * b2n x.bme + 2 ^ 8 * b2n x.serr + 2 ^ 10 * b2n (x.intDisable && pf) + 2 ^ 19 * ifPf (s.fld (F.FN_STATUS_INTX_ASSERTED i)) + 2 ^ 20 +
      open_ 0xF9000000
  | 0x008 => 0xB1 + 256 * classCode typ
  | 0x00C => if pf && decide (1 < (s.pfsOn l).length) then 0x800000 else 0
  | 0x010 => ifPf 4
  | 0x018 => if i = 0 then 4 else 0
  | 0x02C => s.itemFld 5 0 0x1D7C % 65536 + 65536 * (s.itemFld 5 1 0 % 65536)
  | 0x034 => if pf then 0x40 else 0x70
  | 0x03C => ifPf 0x100
  | 0x040 => ifPf 0x00035001
  | 0x044 => ifPf (8 + (if x.d3hot then 3 else 0))
  | 0x050 => ifPf (0x018A7005 + 2 ^ 16 * b2n x.msiEnable + 2 ^ 20 * x.mme)
  | 0x054 => ifPf (x.msiAddr % 2 ^ 32)
  | 0x058 => ifPf (x.msiAddr / 2 ^ 32)
  | 0x05C => ifPf x.msiData
  | 0x060 => ifPf x.msiMask
  | 0x064 => ifPf x.msiPending
  | 0x070 => 0x0002B010
  | 0x074 => 0x10008022 + open_ 0xFC0
  | 0x078 => ifPf (b2n x.corEn + 2 * b2n x.nonFatalEn + 2 ^ 2 * b2n x.fatalEn + 2 ^ 4 * b2n x.relaxed + 2 ^ 5 * x.mps + 2 ^ 12 * x.mrrs) + 2 ^ 16 * x.devStatus
  | 0x07C => 6 + 2 ^ 4 * s.linkLanes l + 2 ^ 11 + 2 ^ 17 + open_ 0xFF407000
  | 0x080 => ifPf x.aspm + ifPf (2 ^ 16 * s.fld (F.PCIE_LINK_STATE_SPEED l) + 2 ^ 20 * s.fld (F.PCIE_LINK_STATE_WIDTH l) + open_ 0x10000000)
  | 0x094 => 0x3080F
  | 0x098 => ifPf (x.cto + 2 ^ 10 * b2n x.ltrEnable + 2 ^ 12 * b2n x.tag10)
  | 0x09C => 0x7E
  | 0x0A0 => ifPf (open_ 0xFFFF0000)
  | 0x0B0 => 0x11 + 2 ^ 16 * (vectorCount i - 1) + 2 ^ 30 * b2n x.functionMask + 2 ^ 31 * b2n x.msixEnable
  | 0x0B4 => 0x20000
  | 0x0B8 => 0x28000
  | 0x104 => x.uncStatus
  | 0x108 => ifPf x.uncMask
  | 0x10C => ifPf x.uncSev
  | 0x110 => x.corStatus
  | 0x114 => ifPf x.corMask
  | 0x118 => (match x.firstErr with | some e => e.1 % 32 | none => 0) + ifPf 0xA0
  | 0x11C => (match x.firstErr with | some e => e.2.getD 0 0 % 2 ^ 32 | none => 0)
  | 0x120 => (match x.firstErr with | some e => e.2.getD 1 0 % 2 ^ 32 | none => 0)
  | 0x124 => (match x.firstErr with | some e => e.2.getD 2 0 % 2 ^ 32 | none => 0)
  | 0x128 => (match x.firstErr with | some e => e.2.getD 3 0 % 2 ^ 32 | none => 0)
  | 0x14C => ifPf (if s.functionNumber i + 1 < (s.pfsOn l).length then 2 ^ 8 * (s.functionNumber i + 1) else 0)
  | 0x154 => ifPf (Config.serialNumber % 2 ^ 32)
  | 0x158 => ifPf (Config.serialNumber / 2 ^ 32 % 2 ^ 32)
  | 0x168 => ifSr (b2n x.vfEnable)
  | 0x16C => ifSr (s.pcie.vfs.getD i 0 * 0x10001)
  | 0x170 => ifSr (x.numVfs + 2 ^ 16 * s.functionNumber i)
  | 0x174 => ifSr (s.firstVfOffset i + 2 ^ 16)
  | 0x178 => ifSr (2 ^ 16 * vfDeviceId typ)
  | 0x17C => ifSr 0x11
  | 0x184 => ifSr 0xC
  | 0x1A4 => 0x20 + 2 ^ 31 * b2n x.atsEnable
  | 0x1B4 => 0x403 + 2 ^ 16 * (vectorCount i - 1)
  | 0x1C4 => ifF0 x.ltrMax
  | 0x1D4 => ifF0 (0x1F + 2 ^ 8 * 10 + 2 ^ 16 + 2 ^ 19 * 2)
  | 0x1E4 => ifF0 1
  | 0x1E8 => ifF0 (open_ 0xFFFFFFFF)
  | _ =>
    if extCaps.any (fun c => decide (c.1 = dw)) then s.extHeader i dw
    else if 0x1F0 ≤ dw ∧ dw < 0x2D0 then ifF0 (open_ 0xFFFFFFFF)
    else 0

/-- A doubleword of configuration space (R413 to R416): all ones where no function answers, or one that is being reset (R435; log entry 45). -/
def State.cfgRead (s : State) (i dw : Nat) : Nat :=
  if !s.fnReady i || !s.vfOn i then 2 ^ 32 - 1
  else
    let m := s.cfgHostMask i dw
    Nat.land (s.cfgFixed i dw) (2 ^ 32 - 1 - m) + Nat.land (s.cfgHost i dw) m

/-! Any access. -/

/-- Where the accesses of log entry 3 stand: BAR0 of the functions, and their configuration space. -/
def barSpace : Nat := 2 ^ 41
def cfgSpace : Nat := 2 ^ 42

/-- Does agent g issue the PCIe accesses of function i? The manager is the host's software on PF0. -/
def hostOf (g : Agent) (i : Nat) : Bool :=
  match g with
  | .host f => decide (f = i)
  | .manager => decide (i = 0)
  | _ => false

/-- Memory of the device-internal address space that the Keeper reaches (R582). -/
inductive KeeperMem where
  | rom (offset : Nat)
  | sram (offset : Nat)
  | window (slice token offset : Nat)
  | hbm (h : Nat)
  /-- the Address Table of a slice: byte offset in it (R196) -/
  | addr (slice offset : Nat)
  deriving DecidableEq, Repr

/-- Does device HBM address h stand in a Bound Key Table (R227)? -/
def inBoundTable (h : Nat) : Bool := decide (24 * gib - 12 * mib ≤ h % (24 * gib) ∧ h % (24 * gib) < 24 * gib - 8 * mib)

/-- The memory that an access of n bytes of the Keeper's at a reaches: the Address Tables and the Bound Key Tables too (R196, R227). The rest of the top of a
stack belongs to the units that own it; the bulk area is the Keeper's own (R453, R518). -/
def State.keeperPlace (s : State) (a n : Nat) : Option KeeperMem :=
  if a + n ≤ 0x40000 then some (.rom a)
  else if 0x1000000 ≤ a ∧ a + n ≤ 0x1200000 then some (.sram (a - 0x1000000))
  else if 0x10000000 ≤ a ∧ a < 0x14000000 ∧ a % 0x4000 + n ≤ 0x4000 then
    some (.window ((a - 0x10000000) / 0x1000000) (a % 0x1000000 / 0x4000) (a % 0x4000))
  else if 0x2000000000 ≤ a ∧ a + n ≤ 0x2000000000 + hbmSize ∧ (a < 0x2020000000 ∨ !s.hbmReserved (a - 0x2000000000) ∨ inBoundTable (a - 0x2000000000)) then
    some (.hbm (a - 0x2000000000))
  else if 0x2000000000 ≤ a ∧ a + n ≤ 0x2000000000 + hbmSize ∧ 24 * gib - 8 * mib ≤ (a - 0x2000000000) % (24 * gib) ∧ a % 32 + n ≤ 32 then
    some (.addr ((a - 0x2000000000) / (24 * gib)) ((a - 0x2000000000) % (24 * gib) - (24 * gib - 8 * mib)))
  else none

/-- The frame held under a token of slice sl (R190). -/
def State.tokenFrame (s : State) (sl t : Nat) : Option Frame := (Map.find? s.cat.tokens (1024 * sl + t)).bind s.frame?

/-- Write bytes of a delivery window: those beyond the frame's LENGTH are ignored (R190). -/
def State.windowWrite (s : State) (sl t o : Nat) (bs : List Byte) : State :=
  match s.tokenFrame sl t with
  | some f => s.setFrame { f with data := (splice f.data o bs).take f.data.length }
  | none => s

/-- Read n bytes of a delivery window: beyond LENGTH they are zero (R190). -/
def State.windowRead (s : State) (sl t o n : Nat) : Nat :=
  match s.tokenFrame sl t with
  | some f => leAt f.data o n
  | none => 0

/-- The 32 bytes of slot n of slice k's Address Table; an invalid entry reads zero. -/
def State.addrImage (s : State) (k n : Nat) : List Byte :=
  match s.slot? k n with
  | some e => leBytes 32 e.toNat
  | none => List.replicate 32 0

/-- Store bytes into the Address Table of slice k (R196). -/
def State.addrStore (s : State) (k off : Nat) (bs : List Byte) : State :=
  let n := off / 32
  let x := leNat ((splice (s.addrImage k n) (off % 32) bs).take 32)
  (if bitOf x 90 then ({ s with addr.slots := Map.insert s.addr.slots (slotKey k n) (addrEntryOf x) } : State)
   else { s with addr.slots := Map.erase s.addr.slots (slotKey k n) }).showAddr k

/-- A value that a read of poisoned memory gives the Keeper: it is never used as if it were good (R42), and the spec gives it no other. -/
def State.poisonedValue (s : State) (n : Nat) : Nat := Config.unstated s.freeCtr % 2 ^ (8 * n)

def State.keeperWrite (s : State) (p : KeeperMem) (n v : Nat) : State :=
  match p with
  | .rom _ => s
  | .sram o => { s.sramClean 4 o n with mem.keeperSram := memWrite s.mem.keeperSram o (leBytes n v) }
  | .window sl t o => s.windowWrite sl t o (leBytes n v)
  | .hbm h => s.hbmWrite h (leBytes n v)
  | .addr k o => s.addrStore k o (leBytes n v)

def State.keeperRead (s : State) (p : KeeperMem) (n : Nat) : Nat :=
  match p with
  | .rom o => leNat ((List.range n).map (fun i => Config.romByte (o + i)))
  | .sram o => if s.sramPoisoned 4 o n then s.poisonedValue n else leNat ((List.range n).map (fun i => Map.get (fun _ => 0) s.mem.keeperSram (o + i)))
  | .window sl t o => s.windowRead sl t o n
  | .hbm h => if s.hbmPoisoned h n then s.poisonedValue n else leNat (s.hbmRead h n)
  | .addr k o => leNat (slice (s.addrImage k (o / 32)) (o % 32) n)

/-- A write of `size` bytes by agent g. -/
def State.write (s : State) (g : Agent) (a size val : Nat) : State :=
  if cfgSpace ≤ a then
    let i := (a - cfgSpace) / 4096
    let off := a % 4096
    if !hostOf g i ∨ 4104 ≤ i ∨ 4 < off % 4 + size then s
    else s.cfgWrite i (off - off % 4) (val % 2 ^ (8 * size) * 2 ^ (8 * (off % 4))) ((2 ^ (8 * size) - 1) * 2 ^ (8 * (off % 4)))
  else if barSpace ≤ a then
    let i := (a - barSpace) / 2 ^ 22
    if !hostOf g i ∨ 4104 ≤ i then s
    else if !s.fnReady i ∨ !s.vfOn i ∨ (s.fnX i).d3hot then s
    else s.barWrite g i ((a - barSpace) % 2 ^ 22) size (val % 2 ^ (8 * size))
  else match (if g = .keeper then s.keeperPlace a size else none) with
    | some p => s.keeperWrite p size (val % 2 ^ (8 * size))
    | none => s.writeDev g a size (val % 2 ^ (8 * size))

/-- A read of `size` bytes by agent g. -/
def State.read (s : State) (g : Agent) (a size : Nat) : State × Nat :=
  if cfgSpace ≤ a then
    let i := (a - cfgSpace) / 4096
    let off := a % 4096
    if !hostOf g i ∨ 4104 ≤ i ∨ 4 < off % 4 + size then (s, 0)
    else (s, s.cfgRead i (off - off % 4) / 2 ^ (8 * (off % 4)) % 2 ^ (8 * size))
  else if barSpace ≤ a then
    let i := (a - barSpace) / 2 ^ 22
    if !hostOf g i ∨ 4104 ≤ i then (s, 0)
    else if !s.fnReady i ∨ !s.vfOn i ∨ (s.fnX i).d3hot then (s, 2 ^ (8 * size) - 1)
    else s.barRead g i ((a - barSpace) % 2 ^ 22) size
  else match (if g = .keeper then s.keeperPlace a size else none) with
    | some p => (s, s.keeperRead p size)
    | none => s.readDev g a size

/-- REGISTER_WRITE (R585, R587): a write of a register by an agent. A register with a command of its own is written as that command says. -/
def execRegisterWrite (agent : Agent) (addr size value : Nat) (s : State) : Host.Outcome State Fault Refusal := whenUp s <|
  .next (s.write agent addr size value)

/-- RC_REGISTER_READ (R13, R585, R587): a read of a register by an agent: the value goes out, and an RC register restarts. -/
def execRcRegisterRead (agent : Agent) (addr size : Nat) (s : State) : Host.Outcome State Fault Refusal := whenUp s <|
  let x := s.read agent addr size
  .next (x.1.emit (.readData agent addr x.2))

/-- The address of a REG_READ or REG_WRITE, where PF0's BAR2 reaches it (R420, R520). -/
def MgmtCmd.regAddr (c : MgmtCmd) : Option Nat :=
  let a := leAt c.payload 0 8
  if 0x4000000 ≤ a ∧ a < 0xC000000 then some a else none

/-- REG_READ (R520): a 64-bit read as the manager's. What answers an address beyond BAR2 is not stated. -/
def execRegRead (s : State) : Host.Outcome State Fault Refusal := whenKeeper s <|
  .next (s.mgmtTry 0x0704 (fun t c => match c.regAddr with
    | some a => let x := t.readDev .manager a 8; (x.1, okReply (leBytes 8 x.2))
    | none => (t.draw, some { status := Config.unstated t.freeCtr % 65536 })))

/-- REG_WRITE (R520): a 64-bit write as the manager's. -/
def execRegWrite (s : State) : Host.Outcome State Fault Refusal := whenKeeper s <|
  .next (s.mgmtTry 0x0705 (fun t c => match c.regAddr with
    | some a => (t.writeDev .manager a 8 (leAt c.payload 8 8), okReply [])
    | none => (t.draw, some { status := Config.unstated t.freeCtr % 65536 })))

end Sys2Proof.Machine
end

