-- ==== Sys2Proof/Machine/Rv64.lean ====
section
/-!
DEFINITION. The standard instructions of a core (R89): RV64I, M, A, C, Zicsr, Zifencei, Zba and Zbb, as pure functions. The
manual names the extensions and leaves their encodings and results to the RISC-V specifications (log entry 8).
-/

namespace Sys2Proof.Machine

/-- Operations on two 64-bit operands. -/
inductive AluOp where
  | add | sub | sll | slt | sltu | xor | srl | sra | or | and
  | addw | subw | sllw | srlw | sraw
  | mul | mulh | mulhsu | mulhu | div | divu | rem | remu
  | mulw | divw | divuw | remw | remuw
  | adduw | sh1add | sh2add | sh3add | sh1adduw | sh2adduw | sh3adduw | slliuw
  | andn | orn | xnor | max | maxu | min | minu | rol | ror | rolw | rorw
  | clz | ctz | cpop | clzw | ctzw | cpopw | sextb | sexth | zexth | orcb | rev8
  deriving DecidableEq, Repr

/-- Sign-extend the low w bits of x to 64 bits. -/
def sx (w x : Nat) : Word := BitVec.ofInt 64 (signed w x)

/-- Leading zeros of the low w bits of x. -/
def leadingZeros (w x : Nat) : Nat := ((List.range w).reverse.takeWhile (fun i => !bitOf x i)).length

/-- Trailing zeros of the low w bits of x. -/
def trailingZeros (w x : Nat) : Nat := ((List.range w).takeWhile (fun i => !bitOf x i)).length

/-- One bits among the low w bits of x. -/
def popCount (w x : Nat) : Nat := ((List.range w).filter (bitOf x)).length

/-- Rotate the low w bits of x left by n. -/
def rotl (w x n : Nat) : Nat := ((x % 2 ^ w) * 2 ^ (n % w) + (x % 2 ^ w) / 2 ^ (w - n % w)) % 2 ^ w

/-- Signed division as RISC-V gives it: by zero all ones, and the overflow case gives the dividend. -/
def sdiv (w a b : Nat) : Nat := if b % 2 ^ w = 0 then 2 ^ w - 1 else unsigned w ((signed w a).tdiv (signed w b))

/-- Signed remainder: by zero the dividend. -/
def srem (w a b : Nat) : Nat := if b % 2 ^ w = 0 then a % 2 ^ w else unsigned w ((signed w a).tmod (signed w b))

def udivR (w a b : Nat) : Nat := if b % 2 ^ w = 0 then 2 ^ w - 1 else (a % 2 ^ w) / (b % 2 ^ w)

def uremR (w a b : Nat) : Nat := if b % 2 ^ w = 0 then a % 2 ^ w else (a % 2 ^ w) % (b % 2 ^ w)

/-- Each byte becomes all ones where it is not zero. -/
def orcBytes (x : Nat) : Nat := leNat ((leBytes 8 x).map (fun b => if b = 0 then 0 else 255))

/-- The result of an operation. -/
def AluOp.eval (op : AluOp) (x y : Word) : Word :=
  let a := x.toNat
  let b := y.toNat
  match op with
  | .add => x + y
  | .sub => x - y
  | .sll => x <<< (b % 64)
  | .slt => BitVec.ofNat 64 (b2n (decide (x.toInt < y.toInt)))
  | .sltu => BitVec.ofNat 64 (b2n (decide (a < b)))
  | .xor => x ^^^ y
  | .srl => x >>> (b % 64)
  | .sra => x.sshiftRight (b % 64)
  | .or => x ||| y
  | .and => x &&& y
  | .addw => sx 32 (a + b)
  | .subw => sx 32 (x - y).toNat
  | .sllw => sx 32 (a * 2 ^ (b % 32))
  | .srlw => sx 32 (a % 2 ^ 32 / 2 ^ (b % 32))
  | .sraw => BitVec.ofInt 64 (signed 32 a / (2 ^ (b % 32) : Nat))
  | .mul => x * y
  | .mulh => BitVec.ofInt 64 (x.toInt * y.toInt / (2 ^ 64 : Nat))
  | .mulhsu => BitVec.ofInt 64 (x.toInt * (b : Int) / (2 ^ 64 : Nat))
  | .mulhu => BitVec.ofNat 64 (a * b / 2 ^ 64)
  | .div => BitVec.ofNat 64 (sdiv 64 a b)
  | .divu => BitVec.ofNat 64 (udivR 64 a b)
  | .rem => BitVec.ofNat 64 (srem 64 a b)
  | .remu => BitVec.ofNat 64 (uremR 64 a b)
  | .mulw => sx 32 (a * b)
  | .divw => sx 32 (sdiv 32 a b)
  | .divuw => sx 32 (udivR 32 a b)
  | .remw => sx 32 (srem 32 a b)
  | .remuw => sx 32 (uremR 32 a b)
  | .adduw => BitVec.ofNat 64 (a % 2 ^ 32 + b)
  | .sh1add => BitVec.ofNat 64 (2 * a + b)
  | .sh2add => BitVec.ofNat 64 (4 * a + b)
  | .sh3add => BitVec.ofNat 64 (8 * a + b)
  | .sh1adduw => BitVec.ofNat 64 (2 * (a % 2 ^ 32) + b)
  | .sh2adduw => BitVec.ofNat 64 (4 * (a % 2 ^ 32) + b)
  | .sh3adduw => BitVec.ofNat 64 (8 * (a % 2 ^ 32) + b)
  | .slliuw => BitVec.ofNat 64 (a % 2 ^ 32 * 2 ^ (b % 64))
  | .andn => x &&& ~~~y
  | .orn => x ||| ~~~y
  | .xnor => ~~~(x ^^^ y)
  | .max => if x.toInt < y.toInt then y else x
  | .maxu => if a < b then y else x
  | .min => if y.toInt < x.toInt then y else x
  | .minu => if b < a then y else x
  | .rol => BitVec.ofNat 64 (rotl 64 a (b % 64))
  | .ror => BitVec.ofNat 64 (rotl 64 a (64 - b % 64))
  | .rolw => sx 32 (rotl 32 a (b % 32))
  | .rorw => sx 32 (rotl 32 a (32 - b % 32))
  | .clz => BitVec.ofNat 64 (leadingZeros 64 a)
  | .ctz => BitVec.ofNat 64 (trailingZeros 64 a)
  | .cpop => BitVec.ofNat 64 (popCount 64 a)
  | .clzw => BitVec.ofNat 64 (leadingZeros 32 a)
  | .ctzw => BitVec.ofNat 64 (trailingZeros 32 a)
  | .cpopw => BitVec.ofNat 64 (popCount 32 a)
  | .sextb => sx 8 a
  | .sexth => sx 16 a
  | .zexth => BitVec.ofNat 64 (a % 2 ^ 16)
  | .orcb => BitVec.ofNat 64 (orcBytes a)
  | .rev8 => BitVec.ofNat 64 (beNat (leBytes 8 a))

/-- The atomic operations of the A extension. -/
inductive AmoOp where
  | swap | add | xor | and | or | min | max | minu | maxu
  deriving DecidableEq, Repr

/-- The value an AMO stores, in w bits, from the value in memory and the register operand. -/
def AmoOp.eval (op : AmoOp) (w m r : Nat) : Nat :=
  match op with
  | .swap => r % 2 ^ w
  | .add => (m + r) % 2 ^ w
  | .xor => (Nat.xor (m % 2 ^ w) (r % 2 ^ w))
  | .and => (Nat.land (m % 2 ^ w) (r % 2 ^ w))
  | .or => (Nat.lor (m % 2 ^ w) (r % 2 ^ w))
  | .min => if signed w r < signed w m then r % 2 ^ w else m % 2 ^ w
  | .max => if signed w m < signed w r then r % 2 ^ w else m % 2 ^ w
  | .minu => Nat.min (m % 2 ^ w) (r % 2 ^ w)
  | .maxu => Nat.max (m % 2 ^ w) (r % 2 ^ w)

/-- The conditions of the branches. -/
inductive BrOp where
  | eq | ne | lt | ge | ltu | geu
  deriving DecidableEq, Repr

def BrOp.holds (op : BrOp) (x y : Word) : Bool :=
  match op with
  | .eq => decide (x = y)
  | .ne => decide (x ≠ y)
  | .lt => decide (x.toInt < y.toInt)
  | .ge => decide (y.toInt ≤ x.toInt)
  | .ltu => decide (x.toNat < y.toNat)
  | .geu => decide (y.toNat ≤ x.toNat)

/-- A decoded instruction. `imm` operands are sign-extended; a load's or store's size is 2^lg bytes. -/
inductive Rv where
  | lui (rd : Nat) (imm : Word)
  | auipc (rd : Nat) (imm : Word)
  | jal (rd : Nat) (imm : Word)
  | jalr (rd rs1 : Nat) (imm : Word)
  | branch (op : BrOp) (rs1 rs2 : Nat) (imm : Word)
  | load (lg : Nat) (zext : Bool) (rd rs1 : Nat) (imm : Word)
  | store (lg : Nat) (rs1 rs2 : Nat) (imm : Word)
  | aluI (op : AluOp) (rd rs1 : Nat) (imm : Word)
  | alu (op : AluOp) (rd rs1 rs2 : Nat)
  | fence
  | fenceI
  | ecall
  | ebreak
  | mret
  | wfi
  | csr (f3 rd rs1 num : Nat)
  | lr (lg rd rs1 : Nat)
  | sc (lg rd rs1 rs2 : Nat)
  | amo (op : AmoOp) (lg rd rs1 rs2 : Nat)
  | custom (word : Nat)
  deriving DecidableEq, Repr

/-! Immediates of the base formats. -/

def immI (w : Nat) : Word := sx 12 (bitsOf w 31 20)
def immS (w : Nat) : Word := sx 12 (bitsOf w 31 25 * 32 + bitsOf w 11 7)
def immB (w : Nat) : Word := sx 13 (bitsOf w 31 31 * 4096 + bitsOf w 7 7 * 2048 + bitsOf w 30 25 * 32 + bitsOf w 11 8 * 2)
def immU (w : Nat) : Word := sx 32 (bitsOf w 31 12 * 4096)
def immJ (w : Nat) : Word :=
  sx 21 (bitsOf w 31 31 * 1048576 + bitsOf w 19 12 * 4096 + bitsOf w 20 20 * 2048 + bitsOf w 30 21 * 2)

/-- OP (opcode 0x33), by funct7 and funct3. -/
def aluOf (f7 f3 : Nat) : Option AluOp :=
  match f7, f3 with
  | 0, 0 => some .add | 0, 1 => some .sll | 0, 2 => some .slt | 0, 3 => some .sltu
  | 0, 4 => some .xor | 0, 5 => some .srl | 0, 6 => some .or | 0, 7 => some .and
  | 0x20, 0 => some .sub | 0x20, 5 => some .sra | 0x20, 4 => some .xnor | 0x20, 6 => some .orn | 0x20, 7 => some .andn
  | 1, 0 => some .mul | 1, 1 => some .mulh | 1, 2 => some .mulhsu | 1, 3 => some .mulhu
  | 1, 4 => some .div | 1, 5 => some .divu | 1, 6 => some .rem | 1, 7 => some .remu
  | 0x10, 2 => some .sh1add | 0x10, 4 => some .sh2add | 0x10, 6 => some .sh3add
  | 5, 4 => some .min | 5, 5 => some .minu | 5, 6 => some .max | 5, 7 => some .maxu
  | 0x30, 1 => some .rol | 0x30, 5 => some .ror
  | _, _ => none

/-- OP-32 (opcode 0x3B), by funct7, funct3 and rs2. -/
def alu32Of (f7 f3 rs2 : Nat) : Option AluOp :=
  match f7, f3 with
  | 0, 0 => some .addw | 0, 1 => some .sllw | 0, 5 => some .srlw
  | 0x20, 0 => some .subw | 0x20, 5 => some .sraw
  | 1, 0 => some .mulw | 1, 4 => some .divw | 1, 5 => some .divuw | 1, 6 => some .remw | 1, 7 => some .remuw
  | 4, 0 => some .adduw
  | 4, 4 => if rs2 = 0 then some .zexth else none
  | 0x10, 2 => some .sh1adduw | 0x10, 4 => some .sh2adduw | 0x10, 6 => some .sh3adduw
  | 0x30, 1 => some .rolw | 0x30, 5 => some .rorw
  | _, _ => none

/-- OP-IMM (opcode 0x13): the operation and its immediate operand. -/
def immOp (w : Nat) : Option (AluOp × Word) :=
  let top := bitsOf w 31 26
  let sh : Word := BitVec.ofNat 64 (bitsOf w 25 20)
  let low12 := bitsOf w 31 20
  match bitsOf w 14 12 with
  | 0 => some (.add, immI w)
  | 2 => some (.slt, immI w)
  | 3 => some (.sltu, immI w)
  | 4 => some (.xor, immI w)
  | 6 => some (.or, immI w)
  | 7 => some (.and, immI w)
  | 1 =>
    if top = 0 then some (.sll, sh)
    else if low12 = 0x600 then some (.clz, 0)
    else if low12 = 0x601 then some (.ctz, 0)
    else if low12 = 0x602 then some (.cpop, 0)
    else if low12 = 0x604 then some (.sextb, 0)
    else if low12 = 0x605 then some (.sexth, 0)
    else none
  | _ =>
    if top = 0 then some (.srl, sh)
    else if top = 0x10 then some (.sra, sh)
    else if top = 0x18 then some (.ror, sh)
    else if low12 = 0x287 then some (.orcb, 0)
    else if low12 = 0x6B8 then some (.rev8, 0)
    else none

/-- OP-IMM-32 (opcode 0x1B). -/
def imm32Op (w : Nat) : Option (AluOp × Word) :=
  let f7 := bitsOf w 31 25
  let sh : Word := BitVec.ofNat 64 (bitsOf w 24 20)
  let low12 := bitsOf w 31 20
  match bitsOf w 14 12 with
  | 0 => some (.addw, immI w)
  | 1 =>
    if f7 = 0 then some (.sllw, sh)
    else if bitsOf w 31 26 = 2 then some (.slliuw, BitVec.ofNat 64 (bitsOf w 25 20))
    else if low12 = 0x600 then some (.clzw, 0)
    else if low12 = 0x601 then some (.ctzw, 0)
    else if low12 = 0x602 then some (.cpopw, 0)
    else none
  | 5 =>
    if f7 = 0 then some (.srlw, sh)
    else if f7 = 0x20 then some (.sraw, sh)
    else if f7 = 0x30 then some (.rorw, sh)
    else none
  | _ => none

def brOf : Nat → Option BrOp
  | 0 => some .eq | 1 => some .ne | 4 => some .lt | 5 => some .ge | 6 => some .ltu | 7 => some .geu
  | _ => none

def amoOf : Nat → Option AmoOp
  | 0 => some .add | 1 => some .swap | 4 => some .xor | 8 => some .or | 12 => some .and
  | 16 => some .min | 20 => some .max | 24 => some .minu | 28 => some .maxu
  | _ => none

/-- SYSTEM (opcode 0x73). -/
def systemOf (w : Nat) : Option Rv :=
  if w = 0x00000073 then some .ecall
  else if w = 0x00100073 then some .ebreak
  else if w = 0x30200073 then some .mret
  else if w = 0x10500073 then some .wfi
  else
    let f3 := bitsOf w 14 12
    if f3 = 0 ∨ f3 = 4 then none else some (.csr f3 (bitsOf w 11 7) (bitsOf w 19 15) (bitsOf w 31 20))

/-- AMO (opcode 0x2F): 32-bit and 64-bit forms. -/
def atomicOf (w : Nat) : Option Rv :=
  let f3 := bitsOf w 14 12
  let f5 := bitsOf w 31 27
  let rd := bitsOf w 11 7
  let rs1 := bitsOf w 19 15
  let rs2 := bitsOf w 24 20
  if f3 = 2 ∨ f3 = 3 then
    if f5 = 2 then (if rs2 = 0 then some (.lr f3 rd rs1) else none)
    else if f5 = 3 then some (.sc f3 rd rs1 rs2)
    else (amoOf f5).map (fun op => .amo op f3 rd rs1 rs2)
  else none

/-- Decode a 32-bit instruction word; none is an illegal instruction (R89, R115). -/
def decode32 (w : Nat) : Option Rv :=
  let rd := bitsOf w 11 7
  let f3 := bitsOf w 14 12
  let rs1 := bitsOf w 19 15
  let rs2 := bitsOf w 24 20
  let f7 := bitsOf w 31 25
  match bitsOf w 6 0 with
  | 0x37 => some (.lui rd (immU w))
  | 0x17 => some (.auipc rd (immU w))
  | 0x6F => some (.jal rd (immJ w))
  | 0x67 => if f3 = 0 then some (.jalr rd rs1 (immI w)) else none
  | 0x63 => (brOf f3).map (fun op => .branch op rs1 rs2 (immB w))
  | 0x03 => if f3 = 7 then none else some (.load (f3 % 4) (decide (4 ≤ f3)) rd rs1 (immI w))
  | 0x23 => if f3 ≤ 3 then some (.store f3 rs1 rs2 (immS w)) else none
  | 0x13 => (immOp w).map (fun p => .aluI p.1 rd rs1 p.2)
  | 0x1B => (imm32Op w).map (fun p => .aluI p.1 rd rs1 p.2)
  | 0x33 => (aluOf f7 f3).map (fun op => .alu op rd rs1 rs2)
  | 0x3B => (alu32Of f7 f3 rs2).map (fun op => .alu op rd rs1 rs2)
  | 0x0F => if f3 = 0 then some .fence else if f3 = 1 then some .fenceI else none
  | 0x73 => systemOf w
  | 0x2F => atomicOf w
  | 0x0B => some (.custom w)
  | _ => none

/-! Compressed instructions (the C extension for RV64). -/

/-- The register x8 + r of a three-bit register field. -/
def creg (r : Nat) : Nat := 8 + r

def nzOr {α : Type} (n : Nat) (x : α) : Option α := if n = 0 then none else some x

/-- Quadrant 0. -/
def decodeC0 (h : Nat) : Option Rv :=
  let rdp := creg (bitsOf h 4 2)
  let rs1p := creg (bitsOf h 9 7)
  let uimmW := bitsOf h 12 10 * 8 + bitsOf h 6 6 * 4 + bitsOf h 5 5 * 64
  let uimmD := bitsOf h 12 10 * 8 + bitsOf h 6 5 * 64
  match bitsOf h 15 13 with
  | 0 =>
    let n := bitsOf h 12 11 * 16 + bitsOf h 10 7 * 64 + bitsOf h 6 6 * 4 + bitsOf h 5 5 * 8
    nzOr n (.aluI .add rdp 2 (BitVec.ofNat 64 n))
  | 2 => some (.load 2 false rdp rs1p (BitVec.ofNat 64 uimmW))
  | 3 => some (.load 3 false rdp rs1p (BitVec.ofNat 64 uimmD))
  | 6 => some (.store 2 rs1p rdp (BitVec.ofNat 64 uimmW))
  | 7 => some (.store 3 rs1p rdp (BitVec.ofNat 64 uimmD))
  | _ => none

/-- The jump offset of C.J. -/
def immCJ (h : Nat) : Word :=
  sx 12 (bitsOf h 12 12 * 2048 + bitsOf h 11 11 * 16 + bitsOf h 10 9 * 256 + bitsOf h 8 8 * 1024 + bitsOf h 7 7 * 64 +
    bitsOf h 6 6 * 128 + bitsOf h 5 3 * 2 + bitsOf h 2 2 * 32)

/-- The branch offset of C.BEQZ and C.BNEZ. -/
def immCB (h : Nat) : Word :=
  sx 9 (bitsOf h 12 12 * 256 + bitsOf h 11 10 * 8 + bitsOf h 6 5 * 64 + bitsOf h 4 3 * 2 + bitsOf h 2 2 * 32)

/-- Quadrant 1. -/
def decodeC1 (h : Nat) : Option Rv :=
  let rd := bitsOf h 11 7
  let rdp := creg (bitsOf h 9 7)
  let rs2p := creg (bitsOf h 4 2)
  let imm6 : Word := sx 6 (bitsOf h 12 12 * 32 + bitsOf h 6 2)
  let sh := bitsOf h 12 12 * 32 + bitsOf h 6 2
  match bitsOf h 15 13 with
  | 0 => some (.aluI .add rd rd imm6)
  | 1 => nzOr rd (.aluI .addw rd rd imm6)
  | 2 => some (.aluI .add rd 0 imm6)
  | 3 =>
    if rd = 2 then
      let n := bitsOf h 12 12 * 512 + bitsOf h 6 6 * 16 + bitsOf h 5 5 * 64 + bitsOf h 4 3 * 128 + bitsOf h 2 2 * 32
      nzOr n (.aluI .add 2 2 (sx 10 n))
    else nzOr sh (.lui rd (sx 18 (sh * 4096)))
  | 4 =>
    match bitsOf h 11 10 with
    | 0 => some (.aluI .srl rdp rdp (BitVec.ofNat 64 sh))
    | 1 => some (.aluI .sra rdp rdp (BitVec.ofNat 64 sh))
    | 2 => some (.aluI .and rdp rdp imm6)
    | _ =>
      match bitsOf h 12 12, bitsOf h 6 5 with
      | 0, 0 => some (.alu .sub rdp rdp rs2p)
      | 0, 1 => some (.alu .xor rdp rdp rs2p)
      | 0, 2 => some (.alu .or rdp rdp rs2p)
      | 0, 3 => some (.alu .and rdp rdp rs2p)
      | 1, 0 => some (.alu .subw rdp rdp rs2p)
      | 1, 1 => some (.alu .addw rdp rdp rs2p)
      | _, _ => none
  | 5 => some (.jal 0 (immCJ h))
  | 6 => some (.branch .eq rdp 0 (immCB h))
  | _ => some (.branch .ne rdp 0 (immCB h))

/-- Quadrant 2. -/
def decodeC2 (h : Nat) : Option Rv :=
  let rd := bitsOf h 11 7
  let rs2 := bitsOf h 6 2
  let sh := bitsOf h 12 12 * 32 + bitsOf h 6 2
  match bitsOf h 15 13 with
  | 0 => some (.aluI .sll rd rd (BitVec.ofNat 64 sh))
  | 2 => nzOr rd (.load 2 false rd 2 (BitVec.ofNat 64 (bitsOf h 12 12 * 32 + bitsOf h 6 4 * 4 + bitsOf h 3 2 * 64)))
  | 3 => nzOr rd (.load 3 false rd 2 (BitVec.ofNat 64 (bitsOf h 12 12 * 32 + bitsOf h 6 5 * 8 + bitsOf h 4 2 * 64)))
  | 4 =>
    if bitsOf h 12 12 = 0 then
      (if rs2 = 0 then nzOr rd (.jalr 0 rd 0) else some (.alu .add rd 0 rs2))
    else
      (if rs2 = 0 then (if rd = 0 then some .ebreak else some (.jalr 1 rd 0)) else some (.alu .add rd rd rs2))
  | 6 => some (.store 2 2 rs2 (BitVec.ofNat 64 (bitsOf h 12 9 * 4 + bitsOf h 8 7 * 64)))
  | 7 => some (.store 3 2 rs2 (BitVec.ofNat 64 (bitsOf h 12 10 * 8 + bitsOf h 9 7 * 64)))
  | _ => none

/-- Decode an instruction word: its length in bytes and the instruction. -/
def decodeRv (w : Nat) : Nat × Option Rv :=
  match w % 4 with
  | 0 => (2, decodeC0 (w % 65536))
  | 1 => (2, decodeC1 (w % 65536))
  | 2 => (2, decodeC2 (w % 65536))
  | _ => (4, decode32 (w % 4294967296))

end Sys2Proof.Machine
end

