-- ==== Sys2Proof/Machine/CoreInstr.lean ====
section
/-!
DEFINITION. The standard instructions of a core against the device (R89 to R94, R115, R117, R540, R544), and the Keeper's action on a deadlocked cluster
(R122). A thread is named by slice sl, cluster k and local index i. The instruction word is the one its fetch delivered (log entry 8): the
instruction cache need not agree with memory (R91).
-/

namespace Sys2Proof.Machine

/-! Memory protection regions (R117). -/

/-- What an access does: its bit of a region's permissions. -/
inductive RegionAcc where
  | r | w | x
  deriving DecidableEq, Repr

def RegionAcc.bit : RegionAcc → Nat
  | .r => 0
  | .w => 1
  | .x => 2

/-- Does region j of the cluster contain byte address a? -/
def State.regionHas (s : State) (sl k j a : Nat) : Bool :=
  decide ((s.rd (R.REGION_BASE sl k j)).toNat / 4096 ≤ a / 4096) && decide (a / 4096 ≤ (s.rd (R.REGION_LIMIT sl k j)).toNat / 4096)

/-- May thread i make the access at byte address a? A U-mode thread: as the lowest enabled region that contains it says, for the thread's domain; the
Curator: unless a locked region contains it, whose vendor bits then decide (R117). -/
def State.byteOk (s : State) (sl k i : Nat) (acc : RegionAcc) (a : Nat) : Bool :=
  if isCurator i then
    match (List.range 16).find? (fun j => s.on (F.REGION_CFG_LOCK sl k j) && s.regionHas sl k j a) with
    | some j => bitOf (s.fld (F.REGION_CFG_VENDOR sl k j)) acc.bit
    | none => true
  else
    match (List.range 16).find? (fun j => s.on (F.REGION_CFG_ENABLE sl k j) && s.regionHas sl k j a) with
    | some j =>
      if s.on (F.THREAD_CTRL_DOMAIN sl k i) then bitOf (s.fld (F.REGION_CFG_CUSTOMER sl k j)) acc.bit
      else bitOf (s.fld (F.REGION_CFG_VENDOR sl k j)) acc.bit
    | none => false

/-- May thread i make an access of n bytes at a? One that spans two regions must be permitted by both. -/
def State.regionOk (s : State) (sl k i : Nat) (acc : RegionAcc) (a n : Nat) : Bool := s.byteOk sl k i acc a && s.byteOk sl k i acc ((a + n - 1) % 2 ^ 64)

/-! The memory that a core reaches (R91, R582). -/

/-- Where an address leads a thread of slice sl. -/
inductive Place where
  /-- register space -/
  | reg
  /-- the delivery window of the thread's own slice: token and offset (R190) -/
  | window (token off : Nat)
  /-- HBM, by device HBM address -/
  | hbm (h : Nat)
  /-- nothing that a core reaches: it reads zero and ignores writes -/
  | none
  deriving DecidableEq, Repr

/-- The place of an access at a by a thread of slice sl. HBM that only its owner reaches is no place of a core's. -/
def State.place (s : State) (sl a : Nat) : Place :=
  if 0x4000000 ≤ a ∧ a < 0xC000000 then .reg
  else if 0x10000000 + 0x1000000 * sl ≤ a ∧ a < 0x11000000 + 0x1000000 * sl then
    .window ((a - (0x10000000 + 0x1000000 * sl)) / 0x4000) ((a - (0x10000000 + 0x1000000 * sl)) % 0x4000)
  else if 0x2000000000 ≤ a ∧ a < 0x2000000000 + hbmSize then
    (if s.hbmReserved (a - 0x2000000000) then .none else .hbm (a - 0x2000000000))
  else .none

/-- An uncached access to another slice's HBM counts (R91, R543, R546). -/
def State.remoteCount (s : State) (sl k i h ev : Nat) : State :=
  if h / (24 * gib) = sl then s else (s.pmuThread sl k i (isCurator i) 0x11 1).hbmCount h 1 ev

/-- Is the L2 line that holds HBM address h for cluster k of slice sl poisoned (R42, R44)? Which word of the L2 holds a line is the implementation's. -/
def State.l2Poisoned (s : State) (sl k h : Nat) : Bool :=
  s.sramPoisoned sl (l2Base + 2 * mib * k + Config.l2Word (h / 64) % (32 * 1024) * 64) 64

/-- Read n bytes at a: the state after it, and the value, none where it is poisoned (R44). -/
def State.coreRead (s : State) (sl k i a n : Nat) : State × Option Nat :=
  match s.place sl a with
  | .reg => let x := s.readDev (.hart sl k i) a n; (x.1, some x.2)
  | .window t o => (s, some (s.windowRead sl t o n))
  | .hbm h => (s.remoteCount sl k i h 0x06, if s.hbmPoisoned h n || s.l2Poisoned sl k h then none else some (leNat (s.hbmRead h n)))
  | .none => (s, some 0)

/-- Write the low n bytes of v at a; bytes of the delivery window beyond a frame's LENGTH are ignored. A store ends every reservation on its line (R92). -/
def State.coreWrite (s0 : State) (sl k i a n v : Nat) : State :=
  let s : State := { s0 with core.threads := breakLines (a / 64) ((a + n - 1) / 64) s0.core.threads }
  match s.place sl a with
  | .reg => s.writeDev (.hart sl k i) a n (v % 2 ^ (8 * n))
  | .window t o => s.windowWrite sl t o (leBytes n v)
  | .hbm h => (s.hbmWrite h (leBytes n v)).remoteCount sl k i h 0x07
  | .none => s

/-- Does an access of n bytes at a cross a 64-byte line (R92)? -/
def crossesLine (a n : Nat) : Bool := decide (64 < a % 64 + n)

/-! Control and status registers of the Curator (R93, R112, R124, R540, R544). -/

/-- misa: RV64 with A, C, I, M, U and non-standard extensions. -/
def misaValue : Word := BitVec.ofNat 64 (2 ^ 63 + (2 ^ 0 + 2 ^ 2 + 2 ^ 8 + 2 ^ 12 + 2 ^ 20 + 2 ^ 23))

/-- The register behind a counter CSR of the Curator (core 0, thread 0), at offset n from mcycle. -/
def counterReg (sl k n : Nat) : Option Nat :=
  if n = 0 then some (R.CORE_CYCLE sl k 0) else if n = 2 then some (R.THREAD_INSTRET sl k 0)
  else if 3 ≤ n ∧ n ≤ 8 then some (R.CORE_HPM sl k (n - 3)) else none

/-- tdata1 (j = 0) or tdata2 (j = 1) of trigger n of the core of thread i. -/
def State.trigger (s : State) (sl k i n j : Nat) : Word := Map.get (fun _ => 0) s.core.triggers (8 * (32 * sl + 8 * k + i / 4) + 2 * n + j)

def State.setTrigger (s : State) (sl k i n j : Nat) (v : Word) : State :=
  { s with core.triggers := Map.put (fun _ => 0) s.core.triggers (8 * (32 * sl + 8 * k + i / 4) + 2 * n + j) v }

/-- A CSR of the Curator: none where it has none of that number. Numbers without a place in State are WARL fields fixed at zero. -/
def State.csrRead (s : State) (sl k num : Nat) : Option Word :=
  let st := fun (d : Word) => some (s.csr sl k 0 num d)
  if 0xC00 ≤ num ∧ num ≤ 0xC1F then some (BitVec.ofNat 64 (s.counterRead sl k 0 num))
  else if 0xB00 ≤ num ∧ num ≤ 0xB1F ∧ num ≠ 0xB01 then some (match counterReg sl k (num - 0xB00) with
    | some a => s.rd a
    | none => 0)
  else if 0x323 ≤ num ∧ num ≤ 0x33F then some (if num ≤ 0x328 then s.rd (R.CORE_HPM_EVT sl k (num - 0x323)) else 0)
  else match num with
    | 0x300 => some (s.csr sl k 0 csrMstatus mstatusReset ||| BitVec.ofNat 64 (2 ^ 33))
    | 0x301 => some misaValue
    | 0x304 | 0x305 | 0x340 | 0x341 | 0x342 | 0x343 => st 0
    | 0x306 | 0x30A => some 0
    | 0x7A0 => st 0
    | 0x7A1 => some (s.trigger sl k 0 ((s.csr sl k 0 0x7A0 0).toNat % 4) 0 ||| BitVec.ofNat 64 (2 ^ 61))
    | 0x7A2 => some (s.trigger sl k 0 ((s.csr sl k 0 0x7A0 0).toNat % 4) 1)
    | 0x7A4 => some 4
    | 0x320 => some (s.rd (R.CORE_INHIBIT sl k 0))
    | 0x344 => some (BitVec.ofNat 64 (s.curatorMip sl k))
    | 0xF11 | 0xF12 | 0xF13 => some (Config.csrId num)
    | 0xF14 => some (BitVec.ofNat 64 (hartId sl k 0))
    | 0xF15 => some 0
    | _ => none

/-- Write a CSR of the Curator; bits that are fixed keep their value. Counters and their controls are the registers of R540. -/
def State.csrWrite (s : State) (sl k num : Nat) (v : Word) : State :=
  let reg := fun (a : Nat) => s.writeDev (.hart sl k 0) a 8 v.toNat
  if 0xB00 ≤ num ∧ num ≤ 0xB1F then (match counterReg sl k (num - 0xB00) with
    | some a => reg a
    | none => s)
  else if 0x323 ≤ num ∧ num ≤ 0x328 then reg (R.CORE_HPM_EVT sl k (num - 0x323))
  else match num with
    | 0x300 => s.setCsr sl k 0 csrMstatus mstatusReset (mstatusReset ||| (v &&& 0x88))
    | 0x304 => s.setCsr sl k 0 csrMie 0 (v &&& 0x30000)
    | 0x305 => s.setCsr sl k 0 csrMtvec 0 (v &&& ~~~2)
    | 0x320 => reg (R.CORE_INHIBIT sl k 0)
    | 0x340 | 0x342 | 0x343 => s.setCsr sl k 0 num 0 v
    | 0x341 => s.setCsr sl k 0 csrMepc 0 (v &&& ~~~1)
    | 0x7A0 => s.setCsr sl k 0 0x7A0 0 (v &&& 3)
    | 0x7A1 => s.setTrigger sl k 0 ((s.csr sl k 0 0x7A0 0).toNat % 4) 0 (v &&& 0x4F)
    | 0x7A2 => s.setTrigger sl k 0 ((s.csr sl k 0 0x7A0 0).toNat % 4) 1 v
    | _ => s

/-! Triggers (R115, R124): four of type mcontrol in each core, which match one address and raise a breakpoint. -/

/-- Does a trigger of the core match an access (load 0, store 1, execute 2) of thread i at address a, in its mode? -/
def State.trigHit (s : State) (sl k i acc a : Nat) : Bool :=
  (List.range 4).any (fun n =>
    let t := (s.trigger sl k i n 0).toNat
    bitOf t acc && bitOf t (if isCurator i then 6 else 3) && decide ((s.trigger sl k i n 1).toNat = a))

/-! Instructions. -/

/-- The thread's mode, for the counters of R543. -/
def State.countThread (s : State) (sl k i ev : Nat) : State := s.pmuThread sl k i (isCurator i) ev 1

/-- A load (or the read of LR): traps of R92, R117 and R44, or the value given to f. `bad` is the code of a misaligned one. -/
def State.coreLoad (s : State) (sl k i a n bad : Nat) (misaligned : Bool) (f : State → Nat → State) : State :=
  if s.trigHit sl k i 0 a then s.trap sl k i 3 a
  else if misaligned then s.trap sl k i bad a
  else if !s.regionOk sl k i .r a n then s.trap sl k i 5 a
  else match s.coreRead sl k i a n with
    | (t, some v) => f (t.countThread sl k i 0x0C) v
    | (t, none) => t.trap sl k i 28 a

/-- What a CSR instruction writes: none where it writes nothing. -/
def csrNew (f3 rs1 : Nat) (old src : Word) : Option Word :=
  match f3 % 4 with
  | 1 => some src
  | 2 => if rs1 = 0 then none else some (old ||| src)
  | _ => if rs1 = 0 then none else some (old &&& ~~~src)

/-- A CSR instruction: illegal where the CSR is not accessible in the mode, or is read-only and written (R115, R544). -/
def State.coreCsr (s : State) (sl k i word f3 rd rs1 num : Nat) : State :=
  let illegal := s.trap sl k i 2 (Config.trapTval 2 word)
  let old? := if isCurator i then s.csrRead sl k num
    else if 0xC00 ≤ num ∧ num ≤ 0xC1F then some (BitVec.ofNat 64 (s.counterRead sl k i num)) else none
  let src := if 4 ≤ f3 then BitVec.ofNat 64 rs1 else s.xreg sl k i rs1
  match old? with
  | none => illegal
  | some old =>
    match csrNew f3 rs1 old src with
    | none => s.retireRd sl k i rd old
    | some v => if 0xC00 ≤ num then illegal else (s.retireRd sl k i rd old).csrWrite sl k num v

/-- A custom-0 word (R98): a field that is not zero where zero is required, a funct3 of 6 or 7, or a selector above 2 is illegal. -/
def State.coreCustom (s : State) (sl k i w : Nat) : State :=
  let rd := bitsOf w 11 7
  let rs1 := bitsOf w 19 15
  let rs2 := bitsOf w 24 20
  let f7 := bitsOf w 31 25
  let illegal := s.trap sl k i 2 (Config.trapTval 2 w)
  match bitsOf w 14 12 with
  | 0 => if f7 = 0 ∧ rs2 = 0 ∧ rs1 = 0 ∧ rd = 0 then s.waitspin sl k i else illegal
  | 1 => if f7 = 0 ∧ rs2 = 0 then s.chopenI sl k i rd rs1 else illegal
  | 2 => if f7 = 0 ∧ rd = 0 then s.chputI sl k i rs1 rs2 else illegal
  | 3 => if f7 = 0 ∧ rs2 = 0 ∧ rd = 0 then s.chcloseI sl k i rs1 else illegal
  | 4 => if f7 = 0 ∧ rs2 = 0 then s.chgetI sl k i rd rs1 else illegal
  | 5 => if rs2 = 0 ∧ rs1 = 0 ∧ f7 ≤ 2 then s.ftread sl k i rd f7 else illegal
  | _ => illegal

/-- The value that a load of 2^lg bytes gives its register. -/
def loadValue (lg : Nat) (zext : Bool) (v : Nat) : Word := if zext then BitVec.ofNat 64 (v % 2 ^ (8 * 2 ^ lg)) else sx (8 * 2 ^ lg) v

/-- Execute a decoded instruction of `len` bytes. -/
def State.coreExec (s : State) (sl k i word len : Nat) (rv : Rv) : State :=
  let pc := s.pc sl k i
  let x := s.xreg sl k i
  let put := fun (rd : Nat) (v : Word) => (s.setXreg sl k i rd v).retireTo sl k i (pc + len)
  match rv with
  | .lui rd imm => put rd imm
  | .auipc rd imm => put rd (BitVec.ofNat 64 pc + imm)
  | .jal rd imm => (s.setXreg sl k i rd (BitVec.ofNat 64 (pc + len))).retireTo sl k i (BitVec.ofNat 64 pc + imm).toNat
  | .jalr rd rs1 imm => (s.setXreg sl k i rd (BitVec.ofNat 64 (pc + len))).retireTo sl k i ((x rs1 + imm).toNat / 2 * 2)
  | .branch op rs1 rs2 imm =>
    (s.countThread sl k i 0x0E).retireTo sl k i (if op.holds (x rs1) (x rs2) then (BitVec.ofNat 64 pc + imm).toNat else pc + len)
  | .load lg zext rd rs1 imm =>
    let a := (x rs1 + imm).toNat
    s.coreLoad sl k i a (2 ^ lg) 4 (crossesLine a (2 ^ lg)) (fun t v => (t.setXreg sl k i rd (loadValue lg zext v)).retireTo sl k i (pc + len))
  | .store lg rs1 rs2 imm =>
    let a := (x rs1 + imm).toNat
    if s.trigHit sl k i 1 a then s.trap sl k i 3 a
    else if crossesLine a (2 ^ lg) then s.trap sl k i 6 a
    else if !s.regionOk sl k i .w a (2 ^ lg) then s.trap sl k i 7 a
    else (((s.coreWrite sl k i a (2 ^ lg) (x rs2).toNat).setSpin sl k i 0).countThread sl k i 0x0D).retireTo sl k i (pc + len)
  | .aluI op rd rs1 imm => put rd (op.eval (x rs1) imm)
  | .alu op rd rs1 rs2 => put rd (op.eval (x rs1) (x rs2))
  | .fence | .fenceI => (s.countThread sl k i 0x15).retireTo sl k i (pc + len)
  | .ecall => s.trap sl k i (if isCurator i then 11 else 8) 0
  | .ebreak => s.trap sl k i 3 (Config.trapTval 3 word)
  | .mret => s.mret sl k i
  | .wfi => s.waitspin sl k i
  | .csr f3 rd rs1 num => s.coreCsr sl k i word f3 rd rs1 num
  | .lr lg rd rs1 =>
    let a := (x rs1).toNat
    s.coreLoad sl k i a (2 ^ lg) 6 (decide (a % 2 ^ lg ≠ 0)) (fun t v =>
      ((t.setThx sl k i { t.thx sl k i with reservation := some (a / 64) }).setXreg sl k i rd (sx (8 * 2 ^ lg) v)).retireTo sl k i (pc + len))
  | .sc lg rd rs1 rs2 =>
    let a := (x rs1).toNat
    let held := decide ((s.thx sl k i).reservation = some (a / 64))
    let drop := fun (t : State) => t.setThx sl k i { t.thx sl k i with reservation := none }
    let done := fun (t : State) (v : Word) =>
      ((((drop t).setSpin sl k i 0).countThread sl k i 0x0D).setXreg sl k i rd v).retireTo sl k i (pc + len)
    if s.trigHit sl k i 1 a then s.trap sl k i 3 a
    else if a % 2 ^ lg ≠ 0 then s.trap sl k i 6 a
    else if !s.regionOk sl k i .w a (2 ^ lg) then s.trap sl k i 7 a
    else if held then done (s.coreWrite sl k i a (2 ^ lg) (x rs2).toNat) 0
    else done (s.countThread sl k i 0x10) 1
  | .amo op lg rd rs1 rs2 =>
    let a := (x rs1).toNat
    let w := 8 * 2 ^ lg
    if s.trigHit sl k i 0 a || s.trigHit sl k i 1 a then s.trap sl k i 3 a
    else if a % 2 ^ lg ≠ 0 then s.trap sl k i 6 a
    else if !(s.regionOk sl k i .r a (2 ^ lg) && s.regionOk sl k i .w a (2 ^ lg)) then s.trap sl k i 7 a
    else match s.coreRead sl k i a (2 ^ lg) with
      | (t, none) => t.trap sl k i 28 a
      | (t, some v) =>
        let t1 := (t.coreWrite sl k i a (2 ^ lg) (op.eval w v (x rs2).toNat)).setSpin sl k i 0
        (((t1.countThread sl k i 0x0C).countThread sl k i 0x0D).setXreg sl k i rd (sx w v)).retireTo sl k i (pc + len)
  | .custom w => s.coreCustom sl k i w

/-- What stops the fetch of n bytes at the thread's PC: its code (R115). -/
def State.fetchStop (s : State) (sl k i n : Nat) : Option Nat :=
  let pc := s.pc sl k i
  if s.trigHit sl k i 2 pc then some 3
  else if pc % 2 ≠ 0 then some 0
  else if !s.regionOk sl k i .x pc n then some 1
  else match s.place sl pc with
    | .hbm h => if s.hbmPoisoned h n || s.l2Poisoned sl k h then some 28 else none
    | _ => none

/-- One instruction of a thread, of which the fetch delivered `word`. -/
def State.coreInstr (s : State) (sl k i word : Nat) : State :=
  let d := decodeRv word
  match s.fetchStop sl k i d.1 with
  | some code => s.trap sl k i code (s.pc sl k i)
  | none =>
    match d.2 with
    | none => s.trap sl k i 2 (Config.trapTval 2 word)
    | some rv => s.coreExec sl k i word d.1 rv

/-- CORE_INSTRUCTION (R89): a thread that can issue executes one instruction. -/
def execCoreInstruction (slice cluster thread word : Nat) (s : State) : Host.Outcome State Fault Refusal := whenSlices s <|
  if s.canIssue slice cluster thread then .next ((s.issueSlot slice cluster thread).coreInstr slice cluster thread word) else .next s

/-! The Keeper's deadlock action (R122). -/

/-- The configured deadlock action: 0 log only, 1 dump, else dump and reset, which is the default. -/
def State.deadlockAction (s : State) : Nat := s.itemFld 4 0 2

/-- KEEPER_DEADLOCK_ACTION (R122): the Keeper takes the oldest CLUSTER_DEADLOCK or CURATOR_FAULT of the cluster, logs it and acts. -/
def execKeeperDeadlockAction (slice cluster : Nat) (s : State) : Host.Outcome State Fault Refusal := whenKeeper s <|
  match takeFirst (isDeadlockInt slice cluster) s.keeperPend with
  | none => .next s
  | some (e, rest) =>
    let s1 := { s with keeperPend := rest }.logInt e
    .next (match s1.deadlockAction with
      | 0 => s1
      | 1 => s1.dumpCluster slice cluster
      | _ => (s1.dumpCluster slice cluster).clusterReset slice cluster)

end Sys2Proof.Machine
end

