-- ==== Sys2Proof/Machine/Fe.lean ====
section
/-!
DEFINITION. The federated endpoint (R311 to R315): the commands that act on FE packets which have been put in order, and its timeouts.
-/

namespace Sys2Proof.Machine

/-- The slice through whose Instance Translation Unit the anchor translates for the home; the spec leaves it open. -/
def feSlice : Nat := 0

/-- Is a packet an FE_CONTROL of this OP? -/
def isCtl (op : Nat) (p : KPkt) : Bool := decide (p.typ = 8) && decide (feCtlOp p = op)

/-- The first packet p holds of that no earlier packet of its stream must precede (R314), and the packets without it. -/
def feReady (p : KPkt → Bool) : List ((Nat × Nat) × Nat) → List KPkt → Option (KPkt × List KPkt)
  | _, [] => none
  | bl, x :: xs =>
    let key := (fePktInsts x, x.src)
    if p x && !(feSequenced x && bl.contains key) then some (x, xs)
    else (feReady p (if feSequenced x then key :: bl else bl) xs).map (fun r => (r.1, x :: r.2))

/-- Take the next packet p holds of and act on it under its binding, which must be BOUND. -/
def State.feRun (s : State) (p : KPkt → Bool) (f : State → FeBinding → KPkt → State) : State :=
  match feReady p [] s.fe.inbox with
  | none => s
  | some (x, rest) =>
    let t : State := { s with fe.inbox := rest }
    match t.feBindingOf x with
    | some b => if b.state = 1 then f t b x else t
    | none => t

/-! Doorbells and register accesses (R313). -/

/-- FE_DOORBELL (R313): the home checks a forwarded doorbell, or a write of the NVMe register set, as if it were local. -/
def execFeDoorbell (s : State) : Host.Outcome State Fault Refusal := whenSlices s <|
  .next (s.feRun (fun p => decide (p.typ = 3)) (fun t b p =>
    let off := leAt (fePktBody p) 0 2
    let v := leAt (fePktBody p) 4 4
    let t1 := t.incFld F.FE_DB_IN
    if t1.instType b.homeInst = 4 then t1.nvRegWrite b.homeInst off v else t1.doorbellHere b.homeInst off v))

/-- What an offset of a function's BAR0 reads, where its queues are: the ring status window, or the NVMe register set (R153, R313, R417). -/
def State.barStatus (s : State) (i off : Nat) : Nat :=
  if s.instType i = 4 then s.nvRegRead i off else s.ringStatus i (off - 0x10000)

/-- FE_MMIO_READ (R313): the home answers MMIO_CPL. -/
def execFeMmioRead (s : State) : Host.Outcome State Fault Refusal := whenSlices s <|
  .next (s.feRun (isCtl 6) (fun t b p =>
    t.feReply b 8 (leBytes 8 7 ++ leBytes 8 (t.barStatus b.homeInst (leAt (fePktBody p) 8 8)))))

/-- The oldest host read of a bound function that waits is over: it returns v. -/
def State.mmioDone (s : State) (i v : Nat) : State :=
  match takeFirst (fun (e : Nat × Nat × Nat) => decide (e.1 = i)) s.fe.mmio with
  | some (_, rest) => State.emit { s with fe.mmio := rest } (.pcieCpl (s.instLink i) 0 v)
  | none => s

/-- FE_MMIO_CPL (R313): the anchor completes the host read. -/
def execFeMmioCpl (s : State) : Host.Outcome State Fault Refusal := whenSlices s <|
  .next (s.feRun (isCtl 7) (fun t b p => t.mmioDone b.anchorInst (leAt (fePktBody p) 8 8)))

/-- FE_MMIO_TIMEOUT (R313): 1 ms has passed without MMIO_CPL; the read returns all ones. -/
def execFeMmioTimeout (inst : Nat) (s : State) : Host.Outcome State Fault Refusal := whenSlices s <|
  match s.fe.mmio.find? (fun e => decide (e.1 = inst)) with
  | some e =>
    if s.time.mono < e.2.2 then .next s
    else .next (((s.mmioDone inst (2 ^ 64 - 1)).satFld F.FE_MMIO_TIMEOUT 1).raiseWith F.FE_INT_STATUS_MMIO_TIMEOUT_SEEN R.FE_INT_ENABLE inst)
  | none => .next s

/-- What the ring status window of a function whose binding is not BOUND reads (R314): STATE ERROR with the syndrome. -/
def lostStatus (b : FeBinding) : Nat := stError + 2 ^ 48 * (if b.state = 3 then St.FED_FE_LOSS else St.FED_HOME_LOST)

/-- BOUND_STATUS_WINDOW_READ (R313, R314): a host read of the ring status window or the NVMe register set of a bound function. The spec gives no value
for a register set whose home is lost. -/
def execBoundStatusWindowRead (inst off : Nat) (s : State) : Host.Outcome State Fault Refusal := whenSlices s <|
  match s.anchorBinding inst with
  | none => .next s
  | some b =>
    let nvme := decide (s.instType inst = 4)
    if (if nvme then decide (0x2000 ≤ off) else decide (off < 0x10000 ∨ 0x20000 ≤ off)) then .next s
    else if b.state = 1 then
      .next ({ s with fe.mmio := s.fe.mmio ++ [(inst, off, s.time.mono + ticksPerMs)] }.feSend b 8 (leBytes 8 6 ++ leBytes 8 off))
    else if nvme then .next (s.draw.emit (.pcieCpl (s.instLink inst) 0 (Config.unstated s.freeCtr % 2 ^ 64)))
    else .next (s.emit (.pcieCpl (s.instLink inst) 0 (lostStatus b)))

/-! DMA (R313, R315). -/

/-- Answer an FE_READ. -/
def State.feReadDone (s : State) (b : FeBinding) (p : KPkt) (st : Nat) (data : List Byte) : State :=
  s.feReply b 5 (leBytes 2 (leAt (fePktBody p) 12 2) ++ leBytes 2 st ++ leBytes 4 0 ++ data)

/-- Serve one FE_READ: true when it has been answered. -/
def State.feServe (s : State) (p : KPkt) : State × Bool :=
  match s.feBindingOf p with
  | none => (s, true)
  | some b =>
    let i := b.anchorInst
    if b.state ≠ 1 then (s, true)
    else if !s.busMaster i then ((s.incFld F.FE_BME_DISCARD).feReadDone b p St.BUS_MASTER_DISABLED [], true)
    else match s.dmaRead feSlice i (leAt (fePktBody p) 0 8) (leAt (fePktBody p) 8 4) (s.classOp 4 p.cls p.begun) with
      | (t, .ok d) => (t.feReadDone b p 0 d, true)
      | (t, .wait) => (t, false)
      | (t, .fail st) => (t.feReadDone b p st [], true)

/-- Serve the FE_READ packets in turn; those whose host data is out stay. -/
def State.feServeAll (s : State) : List KPkt → State × List KPkt
  | [] => (s, [])
  | p :: ps =>
    let r := s.feServe p
    let q := r.1.feServeAll ps
    (q.1, if r.2 then q.2 else p :: q.2)

/-- FE_READ (R313, R315): the anchor takes up the next FE_READ, reads host memory for those it serves and answers those that are done. -/
def execFeRead (s : State) : Host.Outcome State Fault Refusal := whenSlices s <|
  let s1 := s.feRun (fun p => decide (p.typ = 4)) (fun t b p =>
    { (if t.busMaster b.anchorInst then t.incFld F.FE_READS else t) with fe.serving := t.fe.serving ++ [p] })
  let r := s1.feServeAll s1.fe.serving
  .next { r.1 with fe.serving := r.2 }

/-- Take a home read off the list; its tag returns (R34, R313). -/
def State.feReadOver (s : State) (r : FeRead) : State :=
  State.giveTag { s with fe.reads := s.fe.reads.filter (fun x => decide (x.rtag ≠ r.rtag)) } r.slice r.homeInst

/-- FE_READ_CPL (R313): the home's read retires with its data or a status; one that has retired is late. -/
def execFeReadCpl (s : State) : Host.Outcome State Fault Refusal := whenSlices s <|
  .next (s.feRun (fun p => decide (p.typ = 5)) (fun t b p =>
    match t.fe.reads.find? (fun r => decide (r.rtag = leAt (fePktBody p) 0 2 ∧ r.homeInst = b.homeInst)) with
    | none => t.incFld F.FE_LATE_CPL
    | some r =>
      let st := leAt (fePktBody p) 2 2
      let t1 := t.feReadOver r
      if st = 0 then { t1 with pcie.arrived := t1.pcie.arrived ++ [(r.homeInst, r.addr, (fePktBody p).drop 8)] }
      else { t1 with fe.failed := t1.fe.failed ++ [(r.homeInst, r.addr, r.len, st)] }))

/-- FE_READ_TIMEOUT (R313): the read retires with FED_ANCHOR_TIMEOUT. -/
def execFeReadTimeout (rtag : Nat) (s : State) : Host.Outcome State Fault Refusal := whenSlices s <|
  match s.fe.reads.find? (fun r => decide (r.rtag = rtag)) with
  | none => .next s
  | some r =>
    if s.time.mono < r.due then .next s
    else
      let s1 := s.feReadOver r
      .next { s1 with fe.failed := s1.fe.failed ++ [(r.homeInst, r.addr, r.len, St.FED_ANCHOR_TIMEOUT)] }

/-- FE_WRITE (R282, R313, R315): the anchor issues the next write to PCIe, discards it without Bus Master Enable, or reports its translation
fault to the home. -/
def execFeWrite (s : State) : Host.Outcome State Fault Refusal := whenSlices s <|
  match feReady (fun p => decide (p.typ = 6)) [] s.fe.inbox with
  | none => .next s
  | some (p, rest) =>
    let t : State := { s with fe.inbox := rest }
    match t.feBindingOf p with
    | none => .next t
    | some b =>
      let i := b.anchorInst
      let body := fePktBody p
      if b.state ≠ 1 then .next t
      else if !t.busMaster i then .next (t.incFld F.FE_BME_DISCARD)
      else match t.dmaWrite feSlice i (leAt body 0 8) { t.classOp 4 p.cls p.begun with rx := bitOf (leAt body 12 1) 0 } ((body.drop 16).take (leAt body 8 4)) with
        | (u, .ok _) => .next (u.incFld F.FE_WRITES)
        | (u, .wait) => .next { u with fe.inbox := s.fe.inbox }
        | (u, .fail st) => .next ((u.incFld F.FE_WRITES).feReply b 8 (feStatusBody st (leAt body 0 8)))

/-- FE_MSI (R313): the anchor signals the function's vector. -/
def execFeMsi (s : State) : Host.Outcome State Fault Refusal := whenSlices s <|
  .next (s.feRun (fun p => decide (p.typ = 7)) (fun t b p => t.signalLocal b.anchorInst (leAt (fePktBody p) 0 2)))

/-! Control (R314, R315). -/

/-- FE_BME_OFF (R315): the home applies the clearing of Bus Master Enable to the instance. -/
def execFeBmeOff (s : State) : Host.Outcome State Fault Refusal := whenSlices s <|
  .next (s.feRun (isCtl 1) (fun t b _ => (t.setBinding { b with bmeOff := true }).haltWork b.homeInst 2 .bmeCleared))

/-- FE_BME_ON (R312): nothing resumes by itself (R434). -/
def execFeBmeOn (s : State) : Host.Outcome State Fault Refusal := whenSlices s <|
  .next (s.feRun (isCtl 2) (fun t b _ => t.setBinding { b with bmeOff := false }))

/-- FE_FLR (R315): the home applies a local reset and answers FLR_DONE. -/
def execFeFlr (s : State) : Host.Outcome State Fault Refusal := whenSlices s <|
  .next (s.feRun (isCtl 3) (fun t b _ => ((t.setBinding { b with bmeOff := false }).resetWork b.homeInst 1).feReply b 8 (leBytes 8 4)))

/-- FE_FLR_DONE (R315). -/
def execFeFlrDone (s : State) : Host.Outcome State Fault Refusal := whenSlices s <|
  .next (s.feRun (isCtl 4) (fun t b _ => t.setBinding { b with flrSent := none }))

/-- FE_FLR_TIMEOUT (R315): 50 ms have passed since FLR was sent; the binding is handled as when the home is lost. -/
def execFeFlrTimeout (inst : Nat) (s : State) : Host.Outcome State Fault Refusal := whenSlices s <|
  match s.anchorBinding inst with
  | some b =>
    match b.flrSent with
    | some t0 => if t0 + 50 * ticksPerMs ≤ s.time.mono then .next (s.homeLost b) else .next s
    | none => .next s
  | none => .next s

/-- FE_UNBOUND (R314): this end of the binding moves to DETACHED. -/
def execFeUnbound (s : State) : Host.Outcome State Fault Refusal := whenSlices s <|
  .next (s.feRun (isCtl 5) (fun t b _ => t.setBinding { b with state := 2, held := [], gapSince := none }))

/-- FE_SEQ_GAP_TIMEOUT (R314): a gap in FE_SEQ has lasted 200 µs. -/
def execFeSeqGapTimeout (anchor : Bool) (inst : Nat) (s : State) : Host.Outcome State Fault Refusal := whenSlices s <|
  match (if anchor then s.anchorBinding inst else s.homeBinding inst) with
  | some b =>
    match b.gapSince with
    | some t0 => if b.state = 1 ∧ t0 + 200 * ticksPerUs ≤ s.time.mono then .next (s.feLoss b) else .next s
    | none => .next s
  | none => .next s

end Sys2Proof.Machine
end

