-- ==== Sys2Proof/Machine/Image.lean ====
section
/-!
DEFINITION. State images of instances: INST_SAVE and INST_RESTORE (R465 to R469). The spec gives each item's size and contents; where in an item a
field stands is the model's own layout, and every section has VERSION 1 (both in the assumption log).
-/

namespace Sys2Proof.Machine

/-- l cut or padded with zeros to n bytes. -/
def fit (n : Nat) (l : List Byte) : List Byte := (l ++ List.replicate n 0).take n

/-- l cut into pieces of n bytes, at most `fuel` of them. -/
def cutBytes (n : Nat) : Nat → List Byte → List (List Byte)
  | 0, _ => []
  | _, [] => []
  | fuel + 1, l => l.take n :: cutBytes n fuel (l.drop n)

/-! Sections (R466). -/

/-- A section: TYPE, VERSION, MAY_IGNORE, COUNT and its payload. -/
structure ImgSec where
  typ : Nat
  version : Nat := 1
  mayIgnore : Bool := false
  count : Nat
  body : List Byte
  deriving DecidableEq, Repr

def ImgSec.bytes (c : ImgSec) : List Byte :=
  leBytes 2 c.typ ++ leBytes 2 c.version ++ leBytes 1 (b2n c.mayIgnore) ++ leBytes 3 0 ++ leBytes 4 c.count ++ leBytes 4 c.body.length ++ c.body

/-- Bytes of the Pending Bit Array of function i, padded to 16. -/
def pbaBytes (i : Nat) : Nat := max 16 (vectorCount i / 8)

/-- The INSTANCE section: descriptor, MSI-X table, Pending Bit Array. -/
def State.imgInstance (s : State) (i : Nat) : ImgSec :=
  let desc := [s.instType i, (s.rd (R.INST_QUOTA_A i)).toNat, (s.rd (R.INST_QUOTA_B i)).toNat, (s.rd (R.INST_QUOTA_C i)).toNat,
    s.fld (F.INST_CFG_LOG2_SPACE i), s.instState i]
  let entry := fun (v : Nat) => let e := s.msixEntry i v; leBytes 8 e.addr ++ leBytes 4 e.data ++ leBytes 4 (b2n e.mask + 65536 * e.tag)
  let bits := fun (w : Nat) => ((List.range 8).map (fun b => if s.pcie.pba.contains (2048 * i + 8 * w + b) then 2 ^ b else 0)).sum
  { typ := 1, count := 1, body := fit 64 (dwsBytes desc) ++ ((List.range (vectorCount i)).map entry).flatten ++
      fit (pbaBytes i) ((List.range (vectorCount i / 8)).map (fun w => BitVec.ofNat 8 (bits w))) }

/-- The SUBMISSION_RINGS section: every ring configured for the instance. -/
def State.imgSrs (s : State) (i : Nat) : ImgSec :=
  let l := s.srsWith (fun k q => decide (s.srInst k q = i))
  let one := fun (e : Nat × Nat) => fit 64 (dwsBytes [s.fld (F.SR_CFG_LOCAL e.1 e.2), e.1, (s.rd (R.SR_CFG e.1 e.2)).toNat, (s.rd (R.SR_BASE e.1 e.2)).toNat,
    (s.rd (R.SR_STATE e.1 e.2)).toNat, s.fld (F.SR_HEAD e.1 e.2), s.fld (F.SR_TAIL e.1 e.2), e.2])
  { typ := 2, count := l.length, body := (l.map one).flatten }

/-- A held completion in 16 bytes, and back. -/
def Compl.held (e : Compl) : List Byte :=
  leBytes 8 (e.status + 65536 * b2n e.irq + 262144 * b2n e.tsValid + 2 ^ 19 * e.sr + 2 ^ 31 * e.srHead + 2 ^ 48 * e.tag) ++ leBytes 8 e.result

def complOfHeld (l : List Byte) : Compl :=
  let w := leAt l 0 8
  { status := bitsOf w 15 0, tsValid := bitOf w 18, sr := bitsOf w 30 19, srHead := bitsOf w 47 31, tag := bitsOf w 63 48, result := leAt l 8 8, irq := bitOf w 16 }

/-- The COMPLETION_RINGS section. -/
def State.imgCrs (s : State) (i : Nat) : ImgSec :=
  let l := s.crsWith (fun k c => decide (s.crInst k c = i))
  let one := fun (e : Nat × Nat) =>
    let h := (s.crx e.1 e.2).held
    fit 64 (dwsBytes [(s.rd (R.CR_CFG e.1 e.2)).toNat, (s.rd (R.CR_BASE e.1 e.2)).toNat, (s.rd (R.CR_INT_CFG e.1 e.2)).toNat, s.fld (F.CR_HEAD e.1 e.2),
      s.fld (F.CR_TAIL e.1 e.2), h.length, 4096 * e.1 + e.2, (s.rd (R.CR_STATE e.1 e.2)).toNat]) ++ (h.map Compl.held).flatten
  { typ := 3, count := l.length, body := (l.map one).flatten }

/-- The contexts of queue pairs, cached or from the backing store; none is a wait, and one that cannot be read fails with its status. -/
def State.imgContexts (s : State) : List Nat → State × Option (Except Nat (List Byte))
  | [] => (s, some (.ok []))
  | qp :: rest =>
    let k := (s.qpx qp).slice
    let head := leBytes 8 qp ++ leBytes 8 k
    let got : State × DmaRes := match s.qpCtx k qp with
      | some c => (s, .ok (leBytes 256 c))
      | none => s.readCtx k qp
    match got with
    | (t, .wait) => (t, none)
    | (t, .fail st) => (t, some (.error st))
    | (t, .ok c) =>
      match t.imgContexts rest with
      | (u, some (.ok l)) => (u, some (.ok (head ++ c ++ l)))
      | r => r

/-- The REGISTRATIONS section. -/
def State.imgRegs (s : State) (i : Nat) : ImgSec :=
  let l := s.keysOf i
  let one := fun (key : Nat) => leBytes 8 key ++ leBytes 8 (s.regWord key).state ++ leBytes 64 (s.regEntry key)
  { typ := 5, count := l.length, body := (l.map one).flatten }

/-- A queue in 32 bytes: qid and flags (1 completion queue, 2 phase, 4 interrupts, 8 × QPRIO, 32 × slice), size, base, head, tail, CQ binding, vector. -/
def NvSq.image (q : NvSq) : List Byte :=
  leBytes 2 q.qid ++ leBytes 2 (8 * q.prio + 32 * q.slice) ++ leBytes 4 q.size ++ leBytes 8 q.base ++ leBytes 4 q.head ++ leBytes 4 q.tail ++ leBytes 4 q.cq ++ leBytes 4 0

def NvCq.image (q : NvCq) : List Byte :=
  leBytes 2 q.qid ++ leBytes 2 (1 + 2 * b2n q.phase + 4 * b2n q.ien + 32 * q.slice) ++ leBytes 4 q.size ++ leBytes 8 q.base ++ leBytes 4 q.head ++
  leBytes 4 q.tail ++ leBytes 4 0 ++ leBytes 4 q.vector

def isCqImage (l : List Byte) : Bool := bitOf (leAt l 2 2) 0

def sqOfImage (i : Nat) (l : List Byte) : NvSq :=
  { inst := i, qid := leAt l 0 2, slice := bitsOf (leAt l 2 2) 6 5, cq := leAt l 24 4, size := leAt l 4 4, base := leAt l 8 8, prio := bitsOf (leAt l 2 2) 4 3,
    head := leAt l 16 4, tail := leAt l 20 4 }

def cqOfImage (i : Nat) (l : List Byte) : NvCq :=
  { inst := i, qid := leAt l 0 2, slice := bitsOf (leAt l 2 2) 6 5, size := leAt l 4 4, base := leAt l 8 8, head := leAt l 16 4, tail := leAt l 20 4,
    phase := bitOf (leAt l 2 2) 1, ien := bitOf (leAt l 2 2) 2, vector := leAt l 28 4 }

/-- The queues of controller i as images: the admin queues, or the others. -/
def State.queueImages (s : State) (i : Nat) (admin : Bool) : List (List Byte) :=
  ((s.nv.cqs.filter (fun q => decide (q.inst = i ∧ (q.qid = 0 ↔ admin)))).map NvCq.image) ++
  ((s.nv.sqs.filter (fun q => decide (q.inst = i ∧ (q.qid = 0 ↔ admin)))).map NvSq.image)

/-- The NVME_CONTROLLER section: 4,096 bytes of registers, power state, features, the APST table and the admin queues. -/
def State.imgCtrl (s : State) (i : Nat) : ImgSec :=
  let c := s.nvc i
  let words := [c.intms, c.cc, c.csts, c.aqa, c.asq, c.acq, c.ps, c.lastOp, b2n c.shutdown, c.feats.length, (s.queueImages i true).length]
  let feats := (c.feats.map (fun e => leBytes 8 e.1 ++ leBytes 8 e.2)).flatten
  { typ := 6, count := 1, body := fit 4096 (fit 128 (dwsBytes words) ++ fit 256 c.apst ++ fit 128 (s.queueImages i true).flatten ++ feats) }

/-- The NVME_QUEUES section. -/
def State.imgQueues (s : State) (i : Nat) : ImgSec :=
  let l := s.queueImages i false
  { typ := 7, count := l.length, body := l.flatten }

/-- The sections of instance i; none is a wait. -/
def State.imgSections (s : State) (i : Nat) : State × Option (Except Nat (List ImgSec)) :=
  let t := s.instType i
  if t = 4 then (s, some (.ok [s.imgInstance i, s.imgCtrl i, s.imgQueues i]))
  else if t = 2 then (s, some (.ok [s.imgInstance i, s.imgSrs i, s.imgCrs i]))
  else
    let qps := s.qpsOf i
    match s.imgContexts qps with
    | (u, none) => (u, none)
    | (u, some (.error st)) => (u, some (.error st))
    | (u, some (.ok b)) =>
      (u, some (.ok [u.imgInstance i, u.imgSrs i, u.imgCrs i, { typ := 4, count := qps.length, body := b }, u.imgRegs i]))

/-! Saving (R461, R465). -/

/-- The 64-byte header of an image (R465). -/
def State.imgHeader (s : State) (i count len wrap : Nat) (nonce : List Byte) : List Byte :=
  asciiBytes "SKIM" ++ leBytes 2 1 ++ leBytes 2 s.ownEpoch ++ leBytes 8 Config.serialNumber ++ leBytes 1 s.fedId ++ leBytes 1 (s.instType i) ++ leBytes 2 i ++
  leBytes 4 count ++ leBytes 8 len ++ nonce ++ leBytes 1 wrap ++ leBytes 15 0

/-- The image of an instance (R465): encrypted under WRAP_SLOT with a fresh nonce. -/
def State.makeImage (s : State) (i wrap : Nat) (secs : List ImgSec) : State × List Byte :=
  let body := (secs.map ImgSec.bytes).flatten
  let r := s.drbg 4 16
  let head := s.imgHeader i secs.length (64 + body.length + 16) wrap r.2
  let k := s.wrapKey wrap r.2
  let g := gcmEnc (k.take 32) (slice k 32 12) head body
  (r.1, head ++ g.1 ++ g.2)

/-- INST_SAVE (R461, R465, R518): MAX_LEN, instance and WRAP_SLOT; the image is a download. -/
def execInstSave (s : State) : Host.Outcome State Fault Refusal := whenSlices s <|
  .next (s.mgmtTry 0x0503 (fun t c =>
    let i := c.num 1
    let wrap := c.num 2
    let sel := c.payload.drop 4
    if 4104 ≤ i ∨ t.instState i ≠ instFrozen then (t, some (mkReply St.INSTANCE_STATE_INVALID [] 0))
    else if !maxLenOk (c.num 0) ∨ 8 ≤ wrap then t.refuseOpen
    else if t.mgmt.bulk.any (fun b => !b.upload && decide (b.opcode = 0x0503 ∧ b.selector = sel)) then
      t.download 0x0503 sel (c.num 0) c.objOffset (fun u => (u, none))
    else match t.keyRefused wrap 7 with
      | some st => (t, some (mkReply st [] 0))
      | none =>
        if t.rngState ≠ rngOk then (t, some (mkReply St.CIPHER_RNG_UNAVAILABLE [] 0))
        else match t.imgSections i with
          | (u, none) => (u, none)
          | (u, some (.error st)) => (u, some (mkReply st [] 0))
          | (u, some (.ok secs)) =>
            let m := u.makeImage i wrap secs
            (m.1.instEvent i .saved 0).download 0x0503 sel (c.num 0) c.objOffset (fun v => (v, some m.2))))

/-! Reading an image (R466 to R468). -/

/-- The sections that bytes hold: each with its header, and nothing left over. -/
def parseSecs : Nat → List Byte → Option (List ImgSec)
  | _, [] => some []
  | 0, _ => none
  | fuel + 1, l =>
    let n := leAt l 12 4
    if l.length < 16 + n then none
    else (parseSecs fuel (l.drop (16 + n))).map (fun r =>
      { typ := leAt l 0 2, version := leAt l 2 2, mayIgnore := bitOf (leAt l 4 1) 0, count := leAt l 8 4, body := (l.drop 16).take n } :: r)

/-- Completion rings with their held completions: 64 bytes and 16 for each. -/
def parseCrs : Nat → List Byte → Option (List (List Byte × List Compl))
  | _, [] => some []
  | 0, _ => none
  | fuel + 1, l =>
    let h := leAt l 40 8
    let n := 64 + 16 * h
    if 64 < h ∨ l.length < n then none
    else (parseCrs fuel (l.drop n)).map (fun r => (l.take 64, (cutBytes 16 h (l.drop 64)).map complOfHeld) :: r)

/-- The section of a type that is understood (R467). -/
def secOf (secs : List ImgSec) (typ : Nat) : Option ImgSec := secs.find? (fun c => decide (c.typ = typ ∧ c.version ≤ 1))

/-- The items of n bytes of a section; none of an absent one. -/
def itemsOf (secs : List ImgSec) (typ n : Nat) : List (List Byte) :=
  match secOf secs typ with
  | some c => cutBytes n c.count c.body
  | none => []

/-- Completion rings of an image. -/
def crItems (secs : List ImgSec) : List (List Byte × List Compl) :=
  match secOf secs 3 with
  | some c => (parseCrs c.count c.body).getD []
  | none => []

/-- A section's length agrees with its count, and its fields are in range (R468). -/
def secFits (inst : Nat) (c : ImgSec) : Bool :=
  if 1 < c.version then true
  else match c.typ with
    | 1 => decide (c.count = 1 ∧ c.body.length = 64 + 16 * vectorCount inst + pbaBytes inst)
    | 2 => decide (c.body.length = 64 * c.count) && (cutBytes 64 c.count c.body).all (fun l => decide (dwAt l 1 < 4 ∧ dwAt l 7 < 8192 ∧ dwAt l 0 < 4096))
    | 3 => (match parseCrs c.count c.body with
        | some l => decide (l.length = c.count) && l.all (fun e => decide (dwAt e.1 6 < 4 * 4096))
        | none => false)
    | 4 => decide (c.body.length = 272 * c.count) && (cutBytes 272 c.count c.body).all (fun l => decide (dwAt l 0 < 2 ^ 20 ∧ dwAt l 1 < 4))
    | 5 => decide (c.body.length = 80 * c.count) && (cutBytes 80 c.count c.body).all (fun l => decide (dwAt l 0 < 2 ^ 32 ∧ dwAt l 1 < 3))
    | 6 => decide (c.count = 1 ∧ c.body.length = 4096 ∧ dwAt c.body 9 ≤ 224 ∧ dwAt c.body 10 ≤ 4)
    | 7 => decide (c.body.length = 32 * c.count)
    | _ => true

/-- Is a section one that R467 refuses: of an unknown TYPE or a higher VERSION, without MAY_IGNORE? -/
def secRefused (c : ImgSec) : Bool := decide (c.typ = 0 ∨ 7 < c.typ ∨ 1 < c.version) && !c.mayIgnore

/-! Restoring (R468). -/

/-- A ring number for a restored ring: the one it had, if that is free, else the lowest free one. -/
def pickRing (n : Nat) (isFree : Nat → Bool) (want : Nat) (taken : List Nat) : Option Nat :=
  if isFree want && !taken.contains want then some want else (List.range n).find? (fun x => isFree x && !taken.contains x)

/-- Number the rings of an image in slice k for instance i: pairs of the old and the new number; none where the slice has too few. -/
def pickRings (n : Nat) (isFree : Nat → Nat → Bool) : List (Nat × Nat) → List ((Nat × Nat) × Nat) → Option (List ((Nat × Nat) × Nat))
  | [], acc => some acc
  | (k, q) :: rest, acc =>
    match pickRing n (isFree k) q ((acc.filter (fun e => decide (e.1.1 = k))).map (fun e => e.2)) with
    | some x => pickRings n isFree rest (acc ++ [((k, q), x)])
    | none => none

/-- The new number of a ring. -/
def ringAt (m : List ((Nat × Nat) × Nat)) (k q : Nat) : Nat := ((m.find? (fun e => decide (e.1 = (k, q)))).map (fun e => e.2)).getD q

def State.srFreeFor (s : State) (i k q : Nat) : Bool := decide (s.srState k q = stDisabled) && (!(s.listedSrs k).contains q || decide (s.srInst k q = i))
def State.crFreeFor (s : State) (i k c : Nat) : Bool := decide (s.crState k c = stDisabled) && (!(s.listedCrs k).contains c || decide (s.crInst k c = i))

/-- Do the objects of an image fit the target's quotas and the slices (R468)? -/
def State.imgFits (s : State) (i : Nat) (secs : List ImgSec) : Bool :=
  let live := fun (st : Nat) => decide (bitsOf st 2 0 ≠ stDisabled)
  let srs := (itemsOf secs 2 64).filter (fun l => live (dwAt l 4))
  let crs := (crItems secs).filter (fun e => live (dwAt e.1 7))
  let qps := itemsOf secs 4 272
  let regs := itemsOf secs 5 80
  let inSlice := fun (k : Nat) =>
    let mine := crs.filter (fun e => decide (dwAt e.1 6 / 4096 = k))
    decide ((mine.map (fun e => e.2.length)).sum ≤ s.fld (F.RING_POOL_FREE k)) &&
    (s.on (F.RING_SLICE_CFG_HOLD_OVERCOMMIT k) || decide (s.fld (F.RING_POOL_COMMIT k) + (mine.map (fun e => min 64 (bitsOf (dwAt e.1 0) 12 6))).sum ≤ 8192)) &&
    decide ((regs.filter (fun l => decide (keyHome (dwAt l 0) = k))).length + s.fld (F.KRA_MR_ACTIVE k) ≤ 262144)
  decide (s.fld (F.INST_USE_A_SR i) + srs.length ≤ s.fld (F.INST_QUOTA_A_SR_MAX i)) &&
  decide (s.fld (F.INST_USE_A_CR i) + crs.length ≤ s.fld (F.INST_QUOTA_A_CR_MAX i)) &&
  decide (s.fld (F.INST_USE_B_QP i) + qps.length ≤ s.fld (F.INST_QUOTA_B_QP_MAX i)) &&
  decide (s.fld (F.INST_USE_B_MR i) + regs.length ≤ s.fld (F.INST_QUOTA_B_MR_MAX i)) &&
  decide (s.fld ⟨R.INST_USE_A i, 32, 9⟩ + (itemsOf secs 7 32).length ≤ s.fld (F.INST_QUOTA_A_NVMEQ_MAX i)) &&
  (List.range 4).all inSlice

/-- A completion ring of an image. -/
def State.restoreCr (s : State) (i : Nat) (m : List ((Nat × Nat) × Nat)) (e : List Byte × List Compl) : State :=
  let k := dwAt e.1 6 / 4096
  let c := ringAt m k (dwAt e.1 6 % 4096)
  let w := fun (t : State) (a n : Nat) => t.wr a (BitVec.ofNat 64 (dwAt e.1 n))
  let s1 := (w (w (w (w s (R.CR_CFG k c) 0) (R.CR_BASE k c) 1) (R.CR_INT_CFG k c) 2) (R.CR_STATE k c) 7).setFld (F.CR_CFG_INSTANCE k c) i
  let s2 := ((s1.setFld (F.CR_HEAD k c) (dwAt e.1 3)).setFld (F.CR_TAIL k c) (dwAt e.1 4)).setFld (F.CR_STATE_H k c) 0
  let used := decide (s2.crState k c ≠ stDisabled)
  let s3 := ((s2.setFld (F.CR_CTRL_ENABLE k c) (b2n used)).setCrx k c { used := used }).setHeld k c e.2
  if used then (s3.addFld (F.RING_POOL_COMMIT k) (s3.holdLimit k c)).incFld (F.INST_USE_A_CR i) else s3

/-- A submission ring of an image, bound to the new number of its completion ring. -/
def State.restoreSr (s : State) (i : Nat) (ms mc : List ((Nat × Nat) × Nat)) (l : List Byte) : State :=
  let k := dwAt l 1
  let q := ringAt ms k (dwAt l 7)
  let w := fun (t : State) (a n : Nat) => t.wr a (BitVec.ofNat 64 (dwAt l n))
  let s1 := (w (w (w s (R.SR_CFG k q) 2) (R.SR_BASE k q) 3) (R.SR_STATE k q) 4).setFld (F.SR_CFG_INSTANCE k q) i
  let s2 := s1.setFld (F.SR_CFG_CR k q) (ringAt mc k (s1.fld (F.SR_CFG_CR k q)))
  let s3 := (s2.setFld (F.SR_HEAD k q) (dwAt l 5)).setFld (F.SR_TAIL k q) (dwAt l 6)
  let used := decide (s3.srState k q ≠ stDisabled)
  let s4 := (s3.setFld (F.SR_CTRL_ENABLE k q) (b2n used)).setSrx k q { fetch := dwAt l 5, used := used }
  if used then s4.incFld (F.INST_USE_A_SR i) else s4

/-- A queue pair of an image; its context names the target and the new ring numbers. None where the cache has no room now. -/
def State.restoreQp (s : State) (i : Nat) (ms : List ((Nat × Nat) × Nat)) (l : List Byte) : Option State :=
  let qp := dwAt l 0
  let k := dwAt l 1
  let c0 := leNat ((l.drop 16).take 256)
  let c := setBits (setBits (setBits c0 31 19 i) 44 32 (ringAt ms k (cxSendSr c0))) 57 45 (ringAt ms k (cxRecvSr c0))
  (s.ctxInsert k qp c).map (fun t =>
    let x : QpX := { live := true, inst := i, slice := k, ackNext := cxSeqUnacked c }
    (t.setQpx qp x).incFld (F.INST_USE_B_QP i))

/-- A registration of an image: at its own index when that is FREE, else under a new key, which is added to the list of remapped keys. -/
def State.restoreReg (s : State) (i : Nat) (l : List Byte) : State × List (Nat × Nat) :=
  let key := dwAt l 0
  let k := keyHome key
  let e0 := setBits (leNat ((l.drop 16).take 64)) 116 104 i
  let put := fun (t : State) (ix e nk : Nat) =>
    ((((t.hbmWrite (regAddr k ix) (leBytes 64 e)).hbmCount (regAddr k ix) 64 0x07).setRegWord nk { state := dwAt l 1, inflight := 0 }).incFld (F.INST_USE_B_MR i))
  if (s.regWord key).state = regFree then (put s (keyIndex key) e0 key, [])
  else match s.freeReg k (Config.unstated s.freeCtr % 262144) 262144 with
    | none => (s, [])
    | some ix =>
      let v := (rgVariant (leNat (s.hbmRead (regAddr k ix) 64)) + 1) % 4096
      let nk := v + 2 ^ 12 * ix + 2 ^ 30 * k
      (put s.draw ix (setBits e0 151 140 v) nk, [(key, nk)])

/-- The controller and the queues of an image. -/
def State.restoreNvme (s : State) (i : Nat) (secs : List ImgSec) : State :=
  match secOf secs 6 with
  | none => s
  | some sec =>
    let w := fun (n : Nat) => dwAt sec.body n
    let feats := (cutBytes 16 (w 9) (sec.body.drop 512)).map (fun l => (leAt l 0 8, leAt l 8 8))
    let c0 := s.nvc i
    let c : NvCtrl := { c0 with intms := w 0, cc := w 1, csts := w 2, aqa := w 3, asq := w 4, acq := w 5, ps := w 6, lastOp := w 7, shutdown := decide (w 8 = 1),
                                 feats := feats, apst := (sec.body.drop 128).take 256, idleSince := s.time.mono }
    let qs := cutBytes 32 (w 10) (sec.body.drop 384) ++ itemsOf secs 7 32
    let s1 := s.setNvc i c
    State.showQueues { s1 with nv.sqs := s1.nv.sqs ++ (qs.filter (fun l => !isCqImage l)).map (sqOfImage i),
                               nv.cqs := s1.nv.cqs ++ (qs.filter isCqImage).map (cqOfImage i) } i

/-- MSI-X table, Pending Bit Array and LOG2_SPACE of an image. -/
def State.restoreInst (s : State) (i : Nat) (secs : List ImgSec) : State :=
  match secOf secs 1 with
  | none => s
  | some c =>
    let n := vectorCount i
    let ents := cutBytes 16 n (c.body.drop 64)
    let tbl := ((List.range n).zip ents).foldl (fun (m : Map MsixEntry) e =>
      let x : MsixEntry := { addr := leAt e.2 0 8, data := leAt e.2 8 4, mask := bitOf (leAt e.2 12 4) 0, tag := bitsOf (leAt e.2 12 4) 31 16 }
      Map.put (fun _ => {}) m (2048 * i + e.1) x) s.pcie.msix
    let bits := c.body.drop (64 + 16 * n)
    let pend := (List.range n).filter (fun v => bitOf (leAt bits (v / 8) 1) (v % 8))
    { s with pcie.msix := tbl, pcie.pba := s.pcie.pba.filter (fun p => decide (p / 2048 ≠ i)) ++ pend.map (fun v => 2048 * i + v) }.setFld
      (F.INST_CFG_LOG2_SPACE i) (dwAt c.body 4)

/-- Create every object of an image (R468), or nothing: none where a context finds no room in its cache now. -/
def State.createAll (s : State) (i : Nat) (secs : List ImgSec) (ms mc : List ((Nat × Nat) × Nat)) : Option (State × List (Nat × Nat)) :=
  let s1 := (crItems secs).foldl (fun t e => t.restoreCr i mc e) (s.restoreInst i secs)
  let s2 := (itemsOf secs 2 64).foldl (fun t l => t.restoreSr i ms mc l) s1
  match (itemsOf secs 4 272).foldl (fun (acc : Option State) l => acc.bind (fun t => t.restoreQp i ms l)) (some s2) with
  | none => none
  | some s3 =>
    let r := (itemsOf secs 5 80).foldl (fun (acc : State × List (Nat × Nat)) l => let x := acc.1.restoreReg i l; (x.1, acc.2 ++ x.2)) (s3, [])
    some ((r.1.restoreNvme i secs), r.2)

/-- The check of queue pair numbers and key slots (R468). -/
def State.qpConflict (s : State) (l : List Byte) : Bool :=
  let qp := dwAt l 0
  let slot := cxSlot (leNat ((l.drop 16).take 256))
  (s.qpx qp).live || decide ((s.ctxPlace qp).1 ≠ 1 ∧ (s.ctxPlace qp).1 ≠ 2) || (s.keyRefused slot 2).isSome

/-- Restore an image into instance i (R467, R468): a status, with the remapped keys; none is a wait. -/
def State.restoreImage (s : State) (i : Nat) (img : List Byte) : State × Option MgmtReply :=
  let no := fun (st : Nat) => (s, some (mkReply st [] 0))
  let head := img.take 64
  let wrap := leAt head 48 1 % 8
  let body := (img.drop 64).take (img.length - 80)
  match s.keyRefused wrap 7 with
  | some st => no st
  | none =>
    let k := s.wrapKey wrap (slice head 32 16)
    match (if img.length < 80 then none else gcmDec (k.take 32) (slice k 32 12) head body (img.drop (img.length - 16))) with
    | none => no St.CIPHER_AUTH_FAIL
    | some plain =>
      match parseSecs (leAt head 20 4) plain with
      | none => no St.STATE_IMAGE_INVALID
      | some secs =>
        let good := decide (head.take 4 = asciiBytes "SKIM") && decide (leAt head 4 2 = 1) && decide (secs.length = leAt head 20 4) &&
          decide (leAt head 24 8 = img.length) && decide (leAt head 49 15 = 0) && decide (leAt head 48 1 < 8) && secs.all (secFits i)
        let epoch := leAt head 6 2
        if !good then no St.STATE_IMAGE_INVALID
        else if (epoch ≠ s.ownEpoch ∧ epoch + 1 ≠ s.ownEpoch) ∨ secs.any secRefused then no St.STATE_IMAGE_VERSION
        else if leAt head 17 1 ≠ s.instType i ∨ (s.instType i = 4 ∧ leAt head 8 8 ≠ Config.serialNumber) then no St.STATE_IMAGE_CONFLICT
        else if (itemsOf secs 4 272).any s.qpConflict then no St.STATE_IMAGE_CONFLICT
        else
          let ms := pickRings 8192 (s.srFreeFor i) ((itemsOf secs 2 64).map (fun l => (dwAt l 1, dwAt l 7))) []
          let mc := pickRings 4096 (s.crFreeFor i) ((crItems secs).map (fun e => (dwAt e.1 6 / 4096, dwAt e.1 6 % 4096))) []
          match s.imgFits i secs, ms, mc with
          | true, some a, some b =>
            (match s.createAll i secs a b with
             | none => (s, none)
             | some (t, keys) =>
               ((t.setFld (F.INST_CFG_STATE i) instFrozen).instEvent i .restored 0, some (okReply ((keys.map (fun p => leBytes 4 p.1 ++ leBytes 4 p.2)).flatten))))
          | _, _, _ => (if s.imgFits i secs then s else s.quotaRefused i 4, some (mkReply St.QUOTA_EXCEEDED [] 0))

/-- INST_RESTORE (R461, R467, R468, R517): the object uploaded is the instance in four bytes and the image; the chunk with LAST starts the restore. -/
def execInstRestore (s : State) : Host.Outcome State Fault Refusal := whenSlices s <|
  .next (s.mgmtTry 0x0504 (fun t c =>
    let mine := fun (b : BulkObj) => b.upload && decide (b.opcode = 0x0504)
    let others := t.mgmt.bulk.filter (fun b => !mine b)
    let have_ := match t.mgmt.bulk.find? mine with
      | some b => b.data
      | none => []
    if c.objOffset ≠ have_.length then (t, some (mkReply St.MGMT_OFFSET_INVALID [] have_.length))
    else
      let d := have_ ++ c.payload
      if !c.last then
        if 0x20000000 < t.bulkUsed + c.payload.length then (t, some (mkReply St.MGMT_BULK_FULL [] 0))
        else
          let b : BulkObj := { upload := true, opcode := 0x0504, selector := [], data := d, lastRead := t.time.mono }
          (t.setBulk (others ++ [b]), some (okReply []))
      else
        let i := leAt d 0 4
        if 4104 ≤ i ∨ t.instType i = 0 ∨ t.instState i ≠ instDisabled then (t.setBulk others, some (mkReply St.INSTANCE_STATE_INVALID [] 0))
        else match t.restoreImage i (d.drop 4) with
          | (u, none) => (u, none)
          | (u, some r) => (u.setBulk others, some r)))

end Sys2Proof.Machine
end

