-- ==== Sys2Proof/Machine/Steer.lean ====
section
/-!
DEFINITION. Catalogue lookup, address lookup and learning as whole commands: a frame that one of them leaves ready to be steered is steered, and one
steered to a zone is captured, in the same command (R186, R198, R201, R209, R358).
-/

namespace Sys2Proof.Machine

/-- A frame steered to a zone becomes a record there (R358). -/
def State.captureNow (s : State) (id : Nat) : State :=
  match s.frame? id with
  | some f =>
    (match f.stage, f.looked with
     | .capture, some r => s.capture f r
     | _, _ => s)
  | none => s

/-- A frame whose destination is resolved goes on (R209). -/
def State.goOn (s : State) (id : Nat) : State :=
  match s.frame? id with
  | some f => if f.stage = .steered then (s.steer f).captureNow id else s
  | none => s

/-- ADDR_LOOKUP (R198, R199, R202, R593): the destination lookup of an ACTION 3 frame resolves its handle, its Korrum Link destination, or its
drop, which waits for a learning verdict that may flood it. A prefetched result serves only a rule whose bridge domain is the port's default. -/
def execAddrLookup (frame : Nat) (s : State) : Host.Outcome State Fault Refusal := whenSlices s <|
  match s.frame? frame with
  | none => .next s
  | some f =>
    if f.stage ≠ .addrLookup then .next s
    else
      let k := f.slice
      let p := match f.origin with | .eth _ p => p | _ => 0
      let mac := macAt f.data 0
      let s0 := if f.prefetch ∧ f.bridge ≠ s.fld (F.PORT_L2_CFG_DEFAULT_BD k p) then s.incFld (F.ADDR_PREFETCH_MISS k) else s
      let s1 := (s0.scrubKey k f.bridge mac).incFld (F.ADDR_LOOKUPS k)
      match s1.findKey k f.bridge mac with
      | none => .next ((s1.setFrame { f with handle := some f.ruleHandle }.afterLookup).goOn frame)
      | some (_, e) =>
        let s2 := s1.incFld (F.ADDR_HITS k)
        if e.origin ≠ s.fedId then
          .next ((s2.setFrame { f with fed := some (e.origin, e.handle, f.dlClass), handle := none }.afterLookup).goOn frame)
        else if e.port = s.portNumber k p ∧ ¬ s.on (F.PORT_L2_CFG_HAIRPIN k p) then
          .next (if f.learnPending then s2.setFrame { f with samePort := true, handle := some f.ruleHandle }.afterLookup
            else (s2.incFld (F.ADDR_SAME_PORT_DROP k)).dropFrame f 0)
        else .next ((s2.setFrame { f with handle := some e.handle }.afterLookup).goOn frame)

/-- LEARN (R201 to R203): the learning unit of a slice takes its oldest request; its frame goes on, a flooded one to its ports. -/
def execLearn (slice : Nat) (s : State) : Host.Outcome State Fault Refusal := whenSlices s <|
  match s.addr.learnQ.getD slice [] with
  | [] => .next s
  | r :: rest => .next (({ s with addr.learnQ := s.addr.learnQ.set slice rest }.learnOne slice r).goOn r.frame)

/-- CATALOGUE_LOOKUP (R184 to R189, R358): a frame that holds a handle reads its entry in its home slice and is steered, sent to its transform,
captured or dropped. A frame already steered that waited (for its end, or for a host's answer or a key) goes on. -/
def execCatalogueLookup (frame : Nat) (s : State) : Host.Outcome State Fault Refusal := whenSlices s <|
  match s.frame? frame with
  | none => .next s
  | some f =>
    if !s.awake f.slice then .next s
    else if f.stage = .capture then .next (s.captureNow frame)
    else if f.stage = .steered then .next (s.goOn frame)
    else match f.handle with
      | none => .next s
      | some h =>
        if f.stage ≠ .handled ∨ f.slice ≠ homeOf h ∨ f.cellWait ≠ 0 ∨ !s.firstOfFlow f then .next s
        else .next ((s.catLookup f h).captureNow frame)

/-! Errors of SRAM (R42, R44). -/

/-- Poison in a word that a frame's cells hold: the frame is never sent as good (R44). Of an NVMe command's staged data, the command fails and media is not
written. -/
def State.poisonFrame (s : State) (f : Frame) : State :=
  let s1 := s.setFrame { f with poisoned := true }
  match s1.nv.cmds.find? (fun c => decide (c.cells = some f.id) && !c.issued) with
  | some c => s1.nvEnd c.id (nvOfDev St.SRAM_UNCORRECTABLE true 0)
  | none => s1

/-- The i-th of a list that is not empty, around. -/
def pickAt {α : Type} (l : List α) (i : Nat) : Option α := l[i % l.length]?

/-- What poison at byte a of slice k's SRAM reaches at once: a frame in the packet buffer, a cached context, a ring's descriptors. Poison in the Catalogue, the
rule table and an L2 stands in `poisoned`, where their reads meet it. Which frame, context or ring a word belongs to is the implementation's. -/
def State.poisonReach (s : State) (k a : Nat) : State :=
  let n := Config.cellOwner s.freeCtr
  if pbBase ≤ a ∧ a < ctxBase then
    match pickAt ((s.eth.frames.map (fun e => e.2)).filter (fun f => f.cells.any (fun c => decide (c.1 = k)))) n with
    | some f => s.draw.poisonFrame f
    | none => s
  else if ctxBase ≤ a ∧ a < l2Base then
    match pickAt (s.ctxCache k) n with
    | some e => s.draw.kraError k e.1 St.SRAM_UNCORRECTABLE none
    | none => s
  else if descBase ≤ a then
    match pickAt ((s.listedSrs k).filter (fun q => decide (s.srState k q = stActive) && !((s.srx k q).chain.isEmpty && (s.srx k q).ready.isEmpty))) n with
    | some q => s.draw.srError k q St.SRAM_UNCORRECTABLE
    | none => s
  else s

/-- SRAM_ERROR (R42, R44): a read of the SRAM of a slice, or of the Keeper's (4), finds a single-bit error, which is corrected, or a double-bit error, which
is poisoned; a slice counts it, and latches the address. `addr` is the byte offset. -/
def execSramError (slice addr : Nat) (double : Bool) (s : State) : Host.Outcome State Fault Refusal := whenSlices s <|
  if 5 ≤ slice then .next s
  else if double then
    let a := addr / 8 * 8
    let s1 := { s with poisoned := if s.poisoned.contains (1 + slice, a) then s.poisoned else s.poisoned ++ [(1 + slice, a)] }
    if slice = 4 then .next s1
    else
      let s2 := (s1.satFld (F.SRAM_UE slice) 1).setFld (F.SRAM_ERR_ADDR slice) addr
      .next ((s2.raise (F.ORG_INT_STATUS_SRAM_UE_HIT slice) (R.ORG_INT_ENABLE slice)).poisonReach slice a)
  else .next (if slice = 4 then s else s.satFld (F.SRAM_CE slice) 1)

end Sys2Proof.Machine
end

