-- ==== Sys2Proof/Machine/Dispatch.lean ====
section
/-!
DEFINITION. The commands' meanings, one arm for each constructor: each arm calls the one definition of its command.
-/

namespace Sys2Proof.Machine

def exec (i : Instr) (s : State) : Host.Outcome State Fault Refusal :=
  match i with
  | .resetNRise straps power => Sys2Proof.Machine.execResetNRise straps power s
  | .internalDeviceReset straps => Sys2Proof.Machine.execInternalDeviceReset straps s
  | .plinthRomBoot info => Sys2Proof.Machine.execPlinthRomBoot info s
  | .trialWatchdog => Sys2Proof.Machine.execTrialWatchdog s
  | .rcvCtrlEnable agent => Sys2Proof.Machine.execRcvCtrlEnable agent s
  | .registerWrite agent addr size value => Sys2Proof.Machine.execRegisterWrite agent addr size value s
  | .rcRegisterRead agent addr size => Sys2Proof.Machine.execRcRegisterRead agent addr size s
  | .keeperEventLog => Sys2Proof.Machine.execKeeperEventLog s
  | .ethLinkUp slice port => Sys2Proof.Machine.execEthLinkUp slice port s
  | .ethLinkDown slice port => Sys2Proof.Machine.execEthLinkDown slice port s
  | .frameReceive slice port data arrived fcsOk => Sys2Proof.Machine.execFrameReceive slice port data arrived fcsOk s
  | .parseEnqueue frame => Sys2Proof.Machine.execParseEnqueue frame s
  | .parseDispatch slice => Sys2Proof.Machine.execParseDispatch slice s
  | .parseNop slice engine context => Sys2Proof.Machine.execParseNop slice engine context s
  | .ldb slice engine context => Sys2Proof.Machine.execLdb slice engine context s
  | .ldh slice engine context => Sys2Proof.Machine.execLdh slice engine context s
  | .ldw slice engine context => Sys2Proof.Machine.execLdw slice engine context s
  | .ldp slice engine context => Sys2Proof.Machine.execLdp slice engine context s
  | .movi slice engine context => Sys2Proof.Machine.execMovi slice engine context s
  | .addi slice engine context => Sys2Proof.Machine.execAddi slice engine context s
  | .andi slice engine context => Sys2Proof.Machine.execAndi slice engine context s
  | .shi slice engine context => Sys2Proof.Machine.execShi slice engine context s
  | .add slice engine context => Sys2Proof.Machine.execAdd slice engine context s
  | .cmpi slice engine context => Sys2Proof.Machine.execCmpi slice engine context s
  | .cmp slice engine context => Sys2Proof.Machine.execCmp slice engine context s
  | .adv slice engine context => Sys2Proof.Machine.execAdv slice engine context s
  | .br slice engine context => Sys2Proof.Machine.execBr slice engine context s
  | .jtab slice engine context => Sys2Proof.Machine.execJtab slice engine context s
  | .call slice engine context => Sys2Proof.Machine.execCall slice engine context s
  | .ret slice engine context => Sys2Proof.Machine.execRet slice engine context s
  | .stv slice engine context => Sys2Proof.Machine.execStv slice engine context s
  | .cpyv slice engine context => Sys2Proof.Machine.execCpyv slice engine context s
  | .setl slice engine context => Sys2Proof.Machine.execSetl slice engine context s
  | .csum slice engine context => Sys2Proof.Machine.execCsum slice engine context s
  | .mal slice engine context => Sys2Proof.Machine.execMal slice engine context s
  | .cls slice engine context => Sys2Proof.Machine.execCls slice engine context s
  | .parseStepLimit slice engine context => Sys2Proof.Machine.execParseStepLimit slice engine context s
  | .parseProgramEnd slice engine context => Sys2Proof.Machine.execParseProgramEnd slice engine context s
  | .classificationLookup frame => Sys2Proof.Machine.execClassificationLookup frame s
  | .macLateVerdict frame => Sys2Proof.Machine.execMacLateVerdict frame s
  | .parseBankSwitch agent slice => Sys2Proof.Machine.execParseBankSwitch agent slice s
  | .parseBankDrained slice => Sys2Proof.Machine.execParseBankDrained slice s
  | .ruleCommit agent slice slot value => Sys2Proof.Machine.execRuleCommit agent slice slot value s
  | .ruleInvalidate agent slice slot value => Sys2Proof.Machine.execRuleInvalidate agent slice slot value s
  | .frameHandoff frame => Sys2Proof.Machine.execFrameHandoff frame s
  | .queuedPointDecision slice point cycle => Sys2Proof.Machine.execQueuedPointDecision slice point cycle s
  | .arbitrationCycle hub slice dest reqs ready => Sys2Proof.Machine.execArbitrationCycle hub slice dest reqs ready s
  | .backoffExpire hub slice dest source => Sys2Proof.Machine.execBackoffExpire hub slice dest source s
  | .arbClassWrite agent addr value => Sys2Proof.Machine.execArbClassWrite agent addr value s
  | .arbSyncDone => Sys2Proof.Machine.execArbSyncDone s
  | .pbCommit agent slice => Sys2Proof.Machine.execPbCommit agent slice s
  | .sramError slice addr double => Sys2Proof.Machine.execSramError slice addr double s
  | .hbmScrub addr severity last => Sys2Proof.Machine.execHbmScrub addr severity last s
  | .timePpsEdge edge => Sys2Proof.Machine.execTimePpsEdge edge s
  | .ptpMessageReceive port msg => Sys2Proof.Machine.execPtpMessageReceive port msg s
  | .refSourceLost code loss => Sys2Proof.Machine.execRefSourceLost code loss s
  | .holdoverExpire => Sys2Proof.Machine.execHoldoverExpire s
  | .primaryReturn => Sys2Proof.Machine.execPrimaryReturn s
  | .ftSrcReselect agent addr value => Sys2Proof.Machine.execFtSrcReselect agent addr value s
  | .hostLockWrite agent lock => Sys2Proof.Machine.execHostLockWrite agent lock s
  | .ftStepWrite agent value => Sys2Proof.Machine.execFtStepWrite agent value s
  | .ftNowSecRead agent => Sys2Proof.Machine.execFtNowSecRead agent s
  | .twArm agent slice ctrl => Sys2Proof.Machine.execTwArm agent slice ctrl s
  | .twLeadWrite agent slice value => Sys2Proof.Machine.execTwLeadWrite agent slice value s
  | .timerDeliver slice => Sys2Proof.Machine.execTimerDeliver slice s
  | .timerExpiry slice => Sys2Proof.Machine.execTimerExpiry slice s
  | .launchRelease slice egress => Sys2Proof.Machine.execLaunchRelease slice egress s
  | .ftread slice cluster thread rd sel => Sys2Proof.Machine.execFtread slice cluster thread rd sel s
  | .waitspin slice cluster thread => Sys2Proof.Machine.execWaitspin slice cluster thread s
  | .wfi slice cluster thread => Sys2Proof.Machine.execWfi slice cluster thread s
  | .waitspinPauseEnd slice cluster thread => Sys2Proof.Machine.execWaitspinPauseEnd slice cluster thread s
  | .spinWindowExpire slice cluster thread => Sys2Proof.Machine.execSpinWindowExpire slice cluster thread s
  | .chopen slice cluster thread rd rs1 => Sys2Proof.Machine.execChopen slice cluster thread rd rs1 s
  | .chput slice cluster thread rs1 rs2 => Sys2Proof.Machine.execChput slice cluster thread rs1 rs2 s
  | .chclose slice cluster thread rs1 => Sys2Proof.Machine.execChclose slice cluster thread rs1 s
  | .chget slice cluster thread rd rs1 => Sys2Proof.Machine.execChget slice cluster thread rd rs1 s
  | .coreInstruction slice cluster thread word => Sys2Proof.Machine.execCoreInstruction slice cluster thread word s
  | .counterCsrRead slice cluster thread rd csr => Sys2Proof.Machine.execCounterCsrRead slice cluster thread rd csr s
  | .threadTrap slice cluster thread code tval => Sys2Proof.Machine.execThreadTrap slice cluster thread code tval s
  | .curatorTrap slice cluster interrupt code tval => Sys2Proof.Machine.execCuratorTrap slice cluster interrupt code tval s
  | .mret slice cluster thread => Sys2Proof.Machine.execMret slice cluster thread s
  | .hwChannelDelivery slice cluster channel dws => Sys2Proof.Machine.execHwChannelDelivery slice cluster channel dws s
  | .deferredDeliveryRelease slice cluster channel => Sys2Proof.Machine.execDeferredDeliveryRelease slice cluster channel s
  | .chAbort agent slice cluster channel => Sys2Proof.Machine.execChAbort agent slice cluster channel s
  | .threadResume agent slice cluster thread => Sys2Proof.Machine.execThreadResume agent slice cluster thread s
  | .threadRestart agent slice cluster thread => Sys2Proof.Machine.execThreadRestart agent slice cluster thread s
  | .threadPark agent slice cluster thread => Sys2Proof.Machine.execThreadPark agent slice cluster thread s
  | .faultPop agent slice cluster => Sys2Proof.Machine.execFaultPop agent slice cluster s
  | .clusterCtrlGo agent slice cluster => Sys2Proof.Machine.execClusterCtrlGo agent slice cluster s
  | .clusterCtrlReset agent slice cluster => Sys2Proof.Machine.execClusterCtrlReset agent slice cluster s
  | .clusterResetDone slice cluster => Sys2Proof.Machine.execClusterResetDone slice cluster s
  | .clusterStall slice cluster => Sys2Proof.Machine.execClusterStall slice cluster s
  | .clusterDeadlock slice cluster => Sys2Proof.Machine.execClusterDeadlock slice cluster s
  | .keeperDeadlockAction slice cluster => Sys2Proof.Machine.execKeeperDeadlockAction slice cluster s
  | .debugHalt slice cluster thread cause => Sys2Proof.Machine.execDebugHalt slice cluster thread cause s
  | .debugResume slice cluster thread => Sys2Proof.Machine.execDebugResume slice cluster thread s
  | .sqDoorbell inst ring value => Sys2Proof.Machine.execSqDoorbell inst ring value s
  | .cqHeadDoorbell inst ring value => Sys2Proof.Machine.execCqHeadDoorbell inst ring value s
  | .descriptorFetch slice ring count => Sys2Proof.Machine.execDescriptorFetch slice ring count s
  | .jobStart slice ring => Sys2Proof.Machine.execJobStart slice ring s
  | .completionWrite slice ring => Sys2Proof.Machine.execCompletionWrite slice ring s
  | .ringModTimer slice ring => Sys2Proof.Machine.execRingModTimer slice ring s
  | .nop slice ring => Sys2Proof.Machine.execNop slice ring s
  | .txFrame slice ring => Sys2Proof.Machine.execTxFrame slice ring s
  | .frameTransmitted egress => Sys2Proof.Machine.execFrameTransmitted egress s
  | .rxPost slice ring => Sys2Proof.Machine.execRxPost slice ring s
  | .srEnable agent slice ring => Sys2Proof.Machine.execSrEnable agent slice ring s
  | .srDisable agent slice ring => Sys2Proof.Machine.execSrDisable agent slice ring s
  | .crEnable agent slice ring => Sys2Proof.Machine.execCrEnable agent slice ring s
  | .crDisable agent slice ring => Sys2Proof.Machine.execCrDisable agent slice ring s
  | .ringDrained slice ring => Sys2Proof.Machine.execRingDrained slice ring s
  | .catalogueLookup frame => Sys2Proof.Machine.execCatalogueLookup frame s
  | .catalogueWriteback slice => Sys2Proof.Machine.execCatalogueWriteback slice s
  | .deliverRelease agent slice value => Sys2Proof.Machine.execDeliverRelease agent slice value s
  | .deliverResubmit agent slice value => Sys2Proof.Machine.execDeliverResubmit agent slice value s
  | .catCommit agent slice slot value => Sys2Proof.Machine.execCatCommit agent slice slot value s
  | .catInvalidate agent slice slot value => Sys2Proof.Machine.execCatInvalidate agent slice slot value s
  | .catRead agent slice slot value => Sys2Proof.Machine.execCatRead agent slice slot value s
  | .addrLookup frame => Sys2Proof.Machine.execAddrLookup frame s
  | .insertStatic agent slice slot => Sys2Proof.Machine.execInsertStatic agent slice slot s
  | .addrDelete agent slice slot => Sys2Proof.Machine.execAddrDelete agent slice slot s
  | .addrCmdLookup agent slice slot => Sys2Proof.Machine.execAddrCmdLookup agent slice slot s
  | .flushPort agent slice slot => Sys2Proof.Machine.execFlushPort agent slice slot s
  | .flushBd agent slice slot => Sys2Proof.Machine.execFlushBd agent slice slot s
  | .flushDynamic agent slice slot => Sys2Proof.Machine.execFlushDynamic agent slice slot s
  | .learn slice => Sys2Proof.Machine.execLearn slice s
  | .provenanceLearn slice => Sys2Proof.Machine.execProvenanceLearn slice s
  | .provenanceRefresh slice => Sys2Proof.Machine.execProvenanceRefresh slice s
  | .provenanceWithdraw slice => Sys2Proof.Machine.execProvenanceWithdraw slice s
  | .addrAgeingVisit slice slot => Sys2Proof.Machine.execAddrAgeingVisit slice slot s
  | .rootKeyGenerate => Sys2Proof.Machine.execRootKeyGenerate s
  | .rootKeyImport => Sys2Proof.Machine.execRootKeyImport s
  | .rootKeyInstall => Sys2Proof.Machine.execRootKeyInstall s
  | .rootKeyExport => Sys2Proof.Machine.execRootKeyExport s
  | .rootKeyErase => Sys2Proof.Machine.execRootKeyErase s
  | .rootKeyEraseDone slot => Sys2Proof.Machine.execRootKeyEraseDone slot s
  | .rootKeyRestore => Sys2Proof.Machine.execRootKeyRestore s
  | .rootKeyStatus => Sys2Proof.Machine.execRootKeyStatus s
  | .rngStartupTest => Sys2Proof.Machine.execRngStartupTest s
  | .rngHealthFail => Sys2Proof.Machine.execRngHealthFail s
  | .drbgReseed slice => Sys2Proof.Machine.execDrbgReseed slice s
  | .maskReseed slice pair core => Sys2Proof.Machine.execMaskReseed slice pair core s
  | .rennetDerivation slice unit equal => Sys2Proof.Machine.execRennetDerivation slice unit equal s
  | .encrypt slice ring => Sys2Proof.Machine.execEncrypt slice ring s
  | .decrypt slice ring => Sys2Proof.Machine.execDecrypt slice ring s
  | .cmacGen slice ring => Sys2Proof.Machine.execCmacGen slice ring s
  | .cmacVerify slice ring => Sys2Proof.Machine.execCmacVerify slice ring s
  | .keyBind slice ring => Sys2Proof.Machine.execKeyBind slice ring s
  | .keyUnbind slice ring => Sys2Proof.Machine.execKeyUnbind slice ring s
  | .rngFill slice ring => Sys2Proof.Machine.execRngFill slice ring s
  | .espOut frame => Sys2Proof.Machine.execEspOut frame s
  | .espIn frame => Sys2Proof.Machine.execEspIn frame s
  | .tlsOut frame => Sys2Proof.Machine.execTlsOut frame s
  | .tlsIn frame => Sys2Proof.Machine.execTlsIn frame s
  | .pairJobDone slice pair equal => Sys2Proof.Machine.execPairJobDone slice pair equal s
  | .tamper detectors => Sys2Proof.Machine.execTamper detectors s
  | .tamperReload bad => Sys2Proof.Machine.execTamperReload bad s
  | .pairSelftestDone slice pair pass => Sys2Proof.Machine.execPairSelftestDone slice pair pass s
  | .cipherSelftest agent slice value => Sys2Proof.Machine.execCipherSelftest agent slice value s
  | .kraWrite slice ring => Sys2Proof.Machine.execKraWrite slice ring s
  | .kraWriteImm slice ring => Sys2Proof.Machine.execKraWriteImm slice ring s
  | .kraSend slice ring => Sys2Proof.Machine.execKraSend slice ring s
  | .kraRead slice ring => Sys2Proof.Machine.execKraRead slice ring s
  | .kraRecvPost slice ring => Sys2Proof.Machine.execKraRecvPost slice ring s
  | .mrRegister slice ring => Sys2Proof.Machine.execMrRegister slice ring s
  | .mrRevoke slice ring => Sys2Proof.Machine.execMrRevoke slice ring s
  | .revokeDrained key => Sys2Proof.Machine.execRevokeDrained key s
  | .kraDrainLimit key => Sys2Proof.Machine.execKraDrainLimit key s
  | .kraPacketSend slice qp => Sys2Proof.Machine.execKraPacketSend slice qp s
  | .kraContextFetchDone slice qp => Sys2Proof.Machine.execKraContextFetchDone slice qp s
  | .write frame => Sys2Proof.Machine.execWrite frame s
  | .writeImm frame => Sys2Proof.Machine.execWriteImm frame s
  | .send frame => Sys2Proof.Machine.execSend frame s
  | .readReq frame => Sys2Proof.Machine.execReadReq frame s
  | .readResp frame => Sys2Proof.Machine.execReadResp frame s
  | .ack frame => Sys2Proof.Machine.execAck frame s
  | .nak frame => Sys2Proof.Machine.execNak frame s
  | .accessKeyCheck frame => Sys2Proof.Machine.execAccessKeyCheck frame s
  | .accessRetire frame => Sys2Proof.Machine.execAccessRetire frame s
  | .kraAckDelay slice qp => Sys2Proof.Machine.execKraAckDelay slice qp s
  | .retryTimeout slice qp => Sys2Proof.Machine.execRetryTimeout slice qp s
  | .rnrTimer slice qp => Sys2Proof.Machine.execRnrTimer slice qp s
  | .qpCreate agent slice qp => Sys2Proof.Machine.execQpCreate agent slice qp s
  | .qpActivate agent slice qp => Sys2Proof.Machine.execQpActivate agent slice qp s
  | .qpModify agent slice qp => Sys2Proof.Machine.execQpModify agent slice qp s
  | .qpQuery agent slice qp => Sys2Proof.Machine.execQpQuery agent slice qp s
  | .qpDrain agent slice qp => Sys2Proof.Machine.execQpDrain agent slice qp s
  | .qpDrainDone slice qp => Sys2Proof.Machine.execQpDrainDone slice qp s
  | .qpReset agent slice qp => Sys2Proof.Machine.execQpReset agent slice qp s
  | .qpError agent slice qp => Sys2Proof.Machine.execQpError agent slice qp s
  | .klEnable agent port => Sys2Proof.Machine.execKlEnable agent port s
  | .klDisable agent port => Sys2Proof.Machine.execKlDisable agent port s
  | .klSignalDetect port => Sys2Proof.Machine.execKlSignalDetect port s
  | .klTrainingComplete port => Sys2Proof.Machine.execKlTrainingComplete port s
  | .klEqualiseTimeout port => Sys2Proof.Machine.execKlEqualiseTimeout port s
  | .klAlignLock port => Sys2Proof.Machine.execKlAlignLock port s
  | .linkCaps port caps => Sys2Proof.Machine.execLinkCaps port caps s
  | .klLinkFault port lost => Sys2Proof.Machine.execKlLinkFault port lost s
  | .klRetrainLock port => Sys2Proof.Machine.execKlRetrainLock port s
  | .klRetrainTimeout port => Sys2Proof.Machine.execKlRetrainTimeout port s
  | .klRefusedRetry port => Sys2Proof.Machine.execKlRefusedRetry port s
  | .linkBlockSend port vcs => Sys2Proof.Machine.execLinkBlockSend port vcs s
  | .linkBlockReceive port block => Sys2Proof.Machine.execLinkBlockReceive port block s
  | .replayTimeout port => Sys2Proof.Machine.execReplayTimeout port s
  | .korrumPacketReceive port => Sys2Proof.Machine.execKorrumPacketReceive port s
  | .joinReq src own links eligible => Sys2Proof.Machine.execJoinReq src own links eligible s
  | .joinRefuse reason => Sys2Proof.Machine.execJoinRefuse reason s
  | .fedAloneTimeout => Sys2Proof.Machine.execFedAloneTimeout s
  | .fedJoinRetry => Sys2Proof.Machine.execFedJoinRetry s
  | .fedLeave => Sys2Proof.Machine.execFedLeave s
  | .leaveReq src => Sys2Proof.Machine.execLeaveReq src s
  | .dissolve src => Sys2Proof.Machine.execDissolve src s
  | .moveBegin m => Sys2Proof.Machine.execMoveBegin m s
  | .moveReady src gen => Sys2Proof.Machine.execMoveReady src gen s
  | .moveSwitch => Sys2Proof.Machine.execMoveSwitch s
  | .heartbeatTimer => Sys2Proof.Machine.execHeartbeatTimer s
  | .heartbeat src => Sys2Proof.Machine.execHeartbeat src s
  | .heartbeatAnswer src own boot links eligible => Sys2Proof.Machine.execHeartbeatAnswer src own boot links eligible s
  | .masterLoss => Sys2Proof.Machine.execMasterLoss s
  | .masterClaim id => Sys2Proof.Machine.execMasterClaim id s
  | .feDoorbell => Sys2Proof.Machine.execFeDoorbell s
  | .feRead => Sys2Proof.Machine.execFeRead s
  | .feReadCpl => Sys2Proof.Machine.execFeReadCpl s
  | .feWrite => Sys2Proof.Machine.execFeWrite s
  | .feMsi => Sys2Proof.Machine.execFeMsi s
  | .feBmeOff => Sys2Proof.Machine.execFeBmeOff s
  | .feBmeOn => Sys2Proof.Machine.execFeBmeOn s
  | .feFlr => Sys2Proof.Machine.execFeFlr s
  | .feFlrDone => Sys2Proof.Machine.execFeFlrDone s
  | .feFlrTimeout inst => Sys2Proof.Machine.execFeFlrTimeout inst s
  | .feUnbound => Sys2Proof.Machine.execFeUnbound s
  | .feMmioRead => Sys2Proof.Machine.execFeMmioRead s
  | .feMmioCpl => Sys2Proof.Machine.execFeMmioCpl s
  | .feMmioTimeout inst => Sys2Proof.Machine.execFeMmioTimeout inst s
  | .feReadTimeout rtag => Sys2Proof.Machine.execFeReadTimeout rtag s
  | .feSeqGapTimeout anchor inst => Sys2Proof.Machine.execFeSeqGapTimeout anchor inst s
  | .timeSyncTimer port => Sys2Proof.Machine.execTimeSyncTimer port s
  | .timeSync port ftState => Sys2Proof.Machine.execTimeSync port ftState s
  | .timeDelayReq port => Sys2Proof.Machine.execTimeDelayReq port s
  | .timeDelayResp port t1 t4 => Sys2Proof.Machine.execTimeDelayResp port t1 t4 s
  | .epochRaise epoch tRaise => Sys2Proof.Machine.execEpochRaise epoch tRaise s
  | .epochAck src epoch => Sys2Proof.Machine.execEpochAck src epoch s
  | .epochAbort => Sys2Proof.Machine.execEpochAbort s
  | .tRaise => Sys2Proof.Machine.execTRaise s
  | .nvmeSqDoorbell inst qid value => Sys2Proof.Machine.execNvmeSqDoorbell inst qid value s
  | .nvmeCqDoorbell inst qid value => Sys2Proof.Machine.execNvmeCqDoorbell inst qid value s
  | .nvmeCommandFetch slice => Sys2Proof.Machine.execNvmeCommandFetch slice s
  | .nvmeCompletionPost inst sq cid => Sys2Proof.Machine.execNvmeCompletionPost inst sq cid s
  | .nvmeCoalesceTimer inst vector => Sys2Proof.Machine.execNvmeCoalesceTimer inst vector s
  | .deleteIoSq inst cid => Sys2Proof.Machine.execDeleteIoSq inst cid s
  | .deleteIoCq inst cid => Sys2Proof.Machine.execDeleteIoCq inst cid s
  | .createIoSq inst cid => Sys2Proof.Machine.execCreateIoSq inst cid s
  | .createIoCq inst cid => Sys2Proof.Machine.execCreateIoCq inst cid s
  | .getLogPage inst cid => Sys2Proof.Machine.execGetLogPage inst cid s
  | .nvmeIdentify inst cid => Sys2Proof.Machine.execNvmeIdentify inst cid s
  | .nvmeAbort inst cid => Sys2Proof.Machine.execNvmeAbort inst cid s
  | .setFeatures inst cid => Sys2Proof.Machine.execSetFeatures inst cid s
  | .getFeatures inst cid => Sys2Proof.Machine.execGetFeatures inst cid s
  | .asyncEventRequest inst cid => Sys2Proof.Machine.execAsyncEventRequest inst cid s
  | .namespaceManagement inst cid => Sys2Proof.Machine.execNamespaceManagement inst cid s
  | .namespaceAttachment inst cid => Sys2Proof.Machine.execNamespaceAttachment inst cid s
  | .deviceSelfTest inst cid => Sys2Proof.Machine.execDeviceSelfTest inst cid s
  | .selftestStep pass waitNs => Sys2Proof.Machine.execSelftestStep pass waitNs s
  | .formatNvm inst cid => Sys2Proof.Machine.execFormatNvm inst cid s
  | .flush inst sq cid => Sys2Proof.Machine.execFlush inst sq cid s
  | .nvmeWrite inst sq cid => Sys2Proof.Machine.execNvmeWrite inst sq cid s
  | .nvmeRead inst sq cid => Sys2Proof.Machine.execNvmeRead inst sq cid s
  | .writeZeroes inst sq cid => Sys2Proof.Machine.execWriteZeroes inst sq cid s
  | .datasetManagement inst sq cid => Sys2Proof.Machine.execDatasetManagement inst sq cid s
  | .verify inst sq cid => Sys2Proof.Machine.execVerify inst sq cid s
  | .zoneOpen inst sq cid => Sys2Proof.Machine.execZoneOpen inst sq cid s
  | .zoneClose inst sq cid => Sys2Proof.Machine.execZoneClose inst sq cid s
  | .zoneFinish inst sq cid => Sys2Proof.Machine.execZoneFinish inst sq cid s
  | .zoneReset inst sq cid => Sys2Proof.Machine.execZoneReset inst sq cid s
  | .zoneOffline inst sq cid => Sys2Proof.Machine.execZoneOffline inst sq cid s
  | .setZoneDescriptorExtension inst sq cid => Sys2Proof.Machine.execSetZoneDescriptorExtension inst sq cid s
  | .reportZones inst sq cid => Sys2Proof.Machine.execReportZones inst sq cid s
  | .extendedReportZones inst sq cid => Sys2Proof.Machine.execExtendedReportZones inst sq cid s
  | .zoneAppend inst sq cid => Sys2Proof.Machine.execZoneAppend inst sq cid s
  | .sealCompute nsid zone alarm => Sys2Proof.Machine.execSealCompute nsid zone alarm s
  | .accessionRead inst sq cid => Sys2Proof.Machine.execAccessionRead inst sq cid s
  | .ccEnable inst cc => Sys2Proof.Machine.execCcEnable inst cc s
  | .ccDisable inst cc => Sys2Proof.Machine.execCcDisable inst cc s
  | .ccShutdown inst cc => Sys2Proof.Machine.execCcShutdown inst cc s
  | .apstIdleTimer inst => Sys2Proof.Machine.execApstIdleTimer inst s
  | .writeBufferAdmit slice => Sys2Proof.Machine.execWriteBufferAdmit slice s
  | .flashReadDone slice stage bits => Sys2Proof.Machine.execFlashReadDone slice stage bits s
  | .flashProgramDone slice ok => Sys2Proof.Machine.execFlashProgramDone slice ok s
  | .flashEraseDone slice die block ok => Sys2Proof.Machine.execFlashEraseDone slice die block ok s
  | .flashChannelTimeout slice ch => Sys2Proof.Machine.execFlashChannelTimeout slice ch s
  | .dieRetire slice die dead => Sys2Proof.Machine.execDieRetire slice die dead s
  | .garbageCollect slice => Sys2Proof.Machine.execGarbageCollect slice s
  | .retentionAgeUpdate temps => Sys2Proof.Machine.execRetentionAgeUpdate temps s
  | .readDisturbLimit slice die block => Sys2Proof.Machine.execReadDisturbLimit slice die block s
  | .maintenanceWindow slice => Sys2Proof.Machine.execMaintenanceWindow slice s
  | .holdupSample mv => Sys2Proof.Machine.execHoldupSample mv s
  | .holdupTest => Sys2Proof.Machine.execHoldupTest s
  | .holdupTestEnd droop recharged => Sys2Proof.Machine.execHoldupTestEnd droop recharged s
  | .pwrfailNFall => Sys2Proof.Machine.execPwrfailNFall s
  | .saveDone ok saved => Sys2Proof.Machine.execSaveDone ok saved s
  | .pwrfailNRise => Sys2Proof.Machine.execPwrfailNRise s
  | .pcieLinkUp link speed width flit recoveries => Sys2Proof.Machine.execPcieLinkUp link speed width flit recoveries s
  | .pcieLinkDown link hotReset perst => Sys2Proof.Machine.execPcieLinkDown link hotReset perst s
  | .busMasterEnableClear inst => Sys2Proof.Machine.execBusMasterEnableClear inst s
  | .busMasterEnableSet inst => Sys2Proof.Machine.execBusMasterEnableSet inst s
  | .functionLevelReset inst => Sys2Proof.Machine.execFunctionLevelReset inst s
  | .flrComplete inst => Sys2Proof.Machine.execFlrComplete inst s
  | .d3hotEntry inst => Sys2Proof.Machine.execD3hotEntry inst s
  | .interruptModeWrite inst intDisable msiEnable msixEnable => Sys2Proof.Machine.execInterruptModeWrite inst intDisable msiEnable msixEnable s
  | .msixUnmask inst which n => Sys2Proof.Machine.execMsixUnmask inst which n s
  | .fnIntxPendingClear inst w value => Sys2Proof.Machine.execFnIntxPendingClear inst w value s
  | .pcieReadCompletion link tag inst status data header => Sys2Proof.Machine.execPcieReadCompletion link tag inst status data header s
  | .completionTimeout link tag => Sys2Proof.Machine.execCompletionTimeout link tag s
  | .tagQuarantineEnd link tag => Sys2Proof.Machine.execTagQuarantineEnd link tag s
  | .pcieGateOpen agent value => Sys2Proof.Machine.execPcieGateOpen agent value s
  | .inboundPcieRequest link fn tlp nonPosted header => Sys2Proof.Machine.execInboundPcieRequest link fn tlp nonPosted header s
  | .atsInvalidation link inst addr n => Sys2Proof.Machine.execAtsInvalidation link inst addr n s
  | .annexLaunch agent opcode => Sys2Proof.Machine.execAnnexLaunch agent opcode s
  | .annexConsume agent => Sys2Proof.Machine.execAnnexConsume agent s
  | .annexHold => Sys2Proof.Machine.execAnnexHold s
  | .instanceEnable agent inst => Sys2Proof.Machine.execInstanceEnable agent inst s
  | .instanceDisable agent inst => Sys2Proof.Machine.execInstanceDisable agent inst s
  | .quiesceDone inst => Sys2Proof.Machine.execQuiesceDone inst s
  | .instQuiesceLimit inst => Sys2Proof.Machine.execInstQuiesceLimit inst s
  | .tableWalk slice inst unit ia write => Sys2Proof.Machine.execTableWalk slice inst unit ia write s
  | .invalidateInstance agent inst => Sys2Proof.Machine.execInvalidateInstance agent inst s
  | .invalidateRegion agent inst => Sys2Proof.Machine.execInvalidateRegion agent inst s
  | .invalidateAll agent => Sys2Proof.Machine.execInvalidateAll agent s
  | .invalidationDone => Sys2Proof.Machine.execInvalidationDone s
  | .instFaultPop agent => Sys2Proof.Machine.execInstFaultPop agent s
  | .mgmtCmd slice ring => Sys2Proof.Machine.execMgmtCmd slice ring s
  | .mctpCommand bus packet => Sys2Proof.Machine.execMctpCommand bus packet s
  | .relayCommand origin ref route packet => Sys2Proof.Machine.execRelayCommand origin ref route packet s
  | .relayReply ref packet => Sys2Proof.Machine.execRelayReply ref packet s
  | .intakeClaim => Sys2Proof.Machine.execIntakeClaim s
  | .slotRelease => Sys2Proof.Machine.execSlotRelease s
  | .mgmtCommandTimeout route => Sys2Proof.Machine.execMgmtCommandTimeout route s
  | .relayTimeout ref => Sys2Proof.Machine.execRelayTimeout ref s
  | .mctpReplyRetry ok => Sys2Proof.Machine.execMctpReplyRetry ok s
  | .bulkExpire => Sys2Proof.Machine.execBulkExpire s
  | .setEndpointId bus iid op eid => Sys2Proof.Machine.execSetEndpointId bus iid op eid s
  | .getEndpointId bus iid => Sys2Proof.Machine.execGetEndpointId bus iid s
  | .getMctpVersionSupport bus iid typ => Sys2Proof.Machine.execGetMctpVersionSupport bus iid typ s
  | .getMessageTypeSupport bus iid => Sys2Proof.Machine.execGetMessageTypeSupport bus iid s
  | .getVendorDefinedMsgSupport bus iid selector => Sys2Proof.Machine.execGetVendorDefinedMsgSupport bus iid selector s
  | .nvmeMiCommand bus kind inst arg value sqe => Sys2Proof.Machine.execNvmeMiCommand bus kind inst arg value sqe s
  | .identify => Sys2Proof.Machine.execIdentify s
  | .health => Sys2Proof.Machine.execHealth s
  | .configGet => Sys2Proof.Machine.execConfigGet s
  | .configSet nor => Sys2Proof.Machine.execConfigSet nor s
  | .nsCreate => Sys2Proof.Machine.execNsCreate s
  | .nsDelete => Sys2Proof.Machine.execNsDelete s
  | .nsAttach => Sys2Proof.Machine.execNsAttach s
  | .nsDetach => Sys2Proof.Machine.execNsDetach s
  | .nsFormat => Sys2Proof.Machine.execNsFormat s
  | .fwWriteBegin nor => Sys2Proof.Machine.execFwWriteBegin nor s
  | .fwWriteChunk nor => Sys2Proof.Machine.execFwWriteChunk nor s
  | .fwWriteEnd nor => Sys2Proof.Machine.execFwWriteEnd nor s
  | .fwActivate nor => Sys2Proof.Machine.execFwActivate nor s
  | .fwConfirm nor => Sys2Proof.Machine.execFwConfirm nor s
  | .fwRevert nor => Sys2Proof.Machine.execFwRevert nor s
  | .fwQuery => Sys2Proof.Machine.execFwQuery s
  | .keyRevoke => Sys2Proof.Machine.execKeyRevoke s
  | .custodySet nor => Sys2Proof.Machine.execCustodySet nor s
  | .custodyChallenge => Sys2Proof.Machine.execCustodyChallenge s
  | .custodyClear nor => Sys2Proof.Machine.execCustodyClear nor s
  | .logRead => Sys2Proof.Machine.execLogRead s
  | .logClear => Sys2Proof.Machine.execLogClear s
  | .eventRingSet => Sys2Proof.Machine.execEventRingSet s
  | .bulkRelease => Sys2Proof.Machine.execBulkRelease s
  | .instQuiesce => Sys2Proof.Machine.execInstQuiesce s
  | .instResume => Sys2Proof.Machine.execInstResume s
  | .instFreeze => Sys2Proof.Machine.execInstFreeze s
  | .instSave => Sys2Proof.Machine.execInstSave s
  | .instRestore => Sys2Proof.Machine.execInstRestore s
  | .instThaw => Sys2Proof.Machine.execInstThaw s
  | .instDiscard => Sys2Proof.Machine.execInstDiscard s
  | .feBind => Sys2Proof.Machine.execFeBind s
  | .feUnbind => Sys2Proof.Machine.execFeUnbind s
  | .fedStatus => Sys2Proof.Machine.execFedStatus s
  | .fedLinkMap => Sys2Proof.Machine.execFedLinkMap s
  | .clusterDump => Sys2Proof.Machine.execClusterDump s
  | .clusterReset => Sys2Proof.Machine.execClusterReset s
  | .clusterStart => Sys2Proof.Machine.execClusterStart s
  | .deviceReset => Sys2Proof.Machine.execDeviceReset s
  | .regRead => Sys2Proof.Machine.execRegRead s
  | .regWrite => Sys2Proof.Machine.execRegWrite s
  | .timePtpCfg => Sys2Proof.Machine.execTimePtpCfg s
  | .timeStatus => Sys2Proof.Machine.execTimeStatus s
  | .getVersion => Sys2Proof.Machine.execGetVersion s
  | .getStatus => Sys2Proof.Machine.execGetStatus s
  | .readLog => Sys2Proof.Machine.execReadLog s
  | .fwDownload nor => Sys2Proof.Machine.execFwDownload nor s
  | .fwCommit nor => Sys2Proof.Machine.execFwCommit nor s
  | .annexFwActivate nor => Sys2Proof.Machine.execAnnexFwActivate nor s
  | .getTemperature => Sys2Proof.Machine.execGetTemperature s
  | .annexReset => Sys2Proof.Machine.execAnnexReset s
  | .idleEvaluate slice => Sys2Proof.Machine.execIdleEvaluate slice s
  | .idleExitTimer slice => Sys2Proof.Machine.execIdleExitTimer slice s
  | .sliceWake slice => Sys2Proof.Machine.execSliceWake slice s
  | .powerControlTick power domains temps => Sys2Proof.Machine.execPowerControlTick power domains temps s
  | .avsCommand ack => Sys2Proof.Machine.execAvsCommand ack s
  | .aspmL1Entry link => Sys2Proof.Machine.execAspmL1Entry link s
  | .ltrMessage link => Sys2Proof.Machine.execLtrMessage link s
  | .pmuFreezeGo agent value => Sys2Proof.Machine.execPmuFreezeGo agent value s
  | .pmuFreezeApply => Sys2Proof.Machine.execPmuFreezeApply s
  | .tempLogHourly => Sys2Proof.Machine.execTempLogHourly s
  | .resetNFall saved => Sys2Proof.Machine.execResetNFall saved s
  | .priorityPauseReceive slice port priority quanta => Sys2Proof.Machine.execPriorityPauseReceive slice port priority quanta s
  | .priorityPauseExpiry slice port priority => Sys2Proof.Machine.execPriorityPauseExpiry slice port priority s
  | .masterClaimWindowEnd => Sys2Proof.Machine.execMasterClaimWindowEnd s
  | .d3hotExit inst => Sys2Proof.Machine.execD3hotExit inst s
  | .atsTranslationCompletion slice inst page translated read write => Sys2Proof.Machine.execAtsTranslationCompletion slice inst page translated read write s
  | .boundStatusWindowRead inst off => Sys2Proof.Machine.execBoundStatusWindowRead inst off s
  | .idleEntryDone slice => Sys2Proof.Machine.execIdleEntryDone slice s
  | .idleExitDone slice => Sys2Proof.Machine.execIdleExitDone slice s
  | .accTimeFloorWrite => Sys2Proof.Machine.execAccTimeFloorWrite s

end Sys2Proof.Machine
end

