-- ==== Sys2Proof/Machine/Tick.lean ====
section
/-!
DEFINITION. One fabric tick: what time alone does (log entry 13). Time advances, the counters of cycles and of waiting count, the idle controllers take
note, and one provenance message leaves each slice. Everything else that a clock brings about has a command of its own.
-/

namespace Sys2Proof.Machine

/-- Fabric Time and FT_MONO advance by a tick of 5 units (R46 to R48), and every point without back-off has a decision to make again (R74). -/
def State.tickTime (s : State) : State := { s with time.mono := s.time.mono + 1, time.units := s.time.units + 5, arb.decided := [] }

/-- Core cycles that this tick completes, at CORE_FREQ megahertz against 1,600 ticks in a microsecond; and the remainder. -/
def State.coreCycles (s : State) : Nat × Nat :=
  let x := s.core.cycleRem + s.fld F.CORE_FREQ
  (x / 1600, x % 1600)

/-- Count n where the counter is not held by its own freeze or inhibit, nor by a device freeze (R545, R550, R551). -/
def State.countCycles (s : State) (f : Fld) (held : Bool) (n : Nat) : State := if held || s.deviceFrozen then s else s.addFld f n

/-- Is no thread of core c ready (R96)? -/
def State.coreIdle (s : State) (sl k c : Nat) : Bool := !(List.range 4).any (fun t => s.ready sl k (4 * c + t))

/-- n cycles of core c: CORE_CYCLE, and the events CYCLES, ISSUE_IDLE and WAITSPIN_PAUSE (R541, R543). -/
def State.tickCore (s : State) (sl k n c : Nat) : State :=
  let held := s.on (F.CLUSTER_FREEZE_FROZEN sl k) || bitOf (s.rd (R.CORE_INHIBIT sl k c)).toNat 0
  let s1 := (s.countCycles (F.CORE_CYCLE sl k c) held n).pmuCore sl k c 0x01 n
  let s2 := if s.coreIdle sl k c then s1.pmuCore sl k c 0x03 n else s1
  (List.range 4).foldl (fun t x => if (t.thx sl k (4 * c + x)).pauseUntil.isSome then t.pmuThread sl k (4 * c + x) (isCurator (4 * c + x)) 0x05 n else t) s2

/-- n core cycles of a cluster: its cores, and stall and deadlock detection (R119, R121). -/
def State.tickCluster (s : State) (sl n k : Nat) : State := ((List.range 8).foldl (fun t c => t.tickCore sl k n c) s).stallTick sl k n

/-- The operation tags that operations of slice k wait for: TAG_WAIT where the pool is empty, else the waiting instances' INST_OPS_WAIT (R34, R460). -/
def State.tickTags (s : State) (k : Nat) : State :=
  let insts := s.arb.waiting.filterMap (fun r => match r.work with
    | .tag i _ => if r.point = .tagPool ∧ r.slice = k then some i else none
    | _ => none)
  if insts.isEmpty then s
  else if 16384 ≤ s.fld (F.TAG_INUSE k) then (s.incFld (F.TAG_WAIT k)).pmuUnc k 0x0D 1 {}
  else (insts.eraseDups.filter (fun i => !s.belowOps k i)).foldl (fun t i => t.incFld (F.INST_OPS_WAIT i)) s

/-- Does the oldest piece that waits for slice k's write buffer find no room (R377)? -/
def State.wbufWaits (s : State) (k : Nat) : Bool :=
  match s.flash.waiting.find? (fun p => decide (p.slice = k)) with
  | some p => !s.admits p
  | none => false

/-- Does a command of SQ q wait only for its CQ (R337)? -/
def State.cqFull (s : State) (q : NvSq) : Bool :=
  decide (q.head ≠ q.tail) && (s.nvc q.inst).rdy && s.instRuns q.inst && q.deleting.isNone && !s.cqRoom q

/-- Appends of slice k that wait for their predecessor's seal (R354). -/
def State.sealsWaiting (s : State) (k : Nat) : Nat :=
  (s.nv.appends.filter (fun a => decide (a.slice = k) && a.admitted &&
    (match s.nv.appends.find? (fun b => decide (b.nsid = a.nsid ∧ b.zone = a.zone)) with
      | some b => decide (b.piece ≠ a.piece)
      | none => false))).length

/-- PB_WAIT counts the cycles in which a request of class 2 waits for a cell of slice k (R38). -/
def State.tickCells (s : State) (k : Nat) : State :=
  if s.arb.waiting.any (fun r => decide (r.point = .pbPool ∧ r.slice = k) && (match r.work with | .cell c _ => decide (c = 2) | _ => false)) then
    s.incFld (F.PB_WAIT k 2)
  else s

/-- CIPHER_DISPATCH_WAIT counts the cycles in which a job of slice k waits for an entry of the in-flight table (R232). -/
def State.tickDispatch (s : State) (k : Nat) : State := if s.dispatchWaits k then s.incFld (F.CIPHER_DISPATCH_WAIT k) else s

/-- KRA_CTX_PIN_WAIT and KRA_REG_WAIT count the cycles of their waits (R256, R276). -/
def State.tickKra (s : State) (k : Nat) : State :=
  let s1 := if s.pinWaits k then s.incFld (F.KRA_CTX_PIN_WAIT k) else s
  if s.regWaits k then s1.incFld (F.KRA_REG_WAIT k) else s1

/-- Storage waits of slice k (R337, R354, R377). -/
def State.tickStorage (s : State) (k : Nat) : State :=
  let s1 := if s.wbufWaits k then s.incFld (F.AFF_WBUF_WAIT k) else s
  let s2 := if s.nv.sqs.any (fun q => decide (q.slice = k) && s.cqFull q) then s1.incFld (F.NVME_CQ_FULL_WAIT k) else s1
  s2.addFld (F.NVME_SEAL_WAIT k) (s.sealsWaiting k)

/-- The oldest provenance message of slice k goes to the other slices and to the other members (R205, R304). -/
def State.tickProv (s : State) (k : Nat) : State :=
  match s.addr.provOut.getD k [] with
  | [] => s
  | m :: rest =>
    let others := (idsOf (s.fld F.FED_MEMBERS)).filter (fun d => decide (d ≠ s.fedId))
    let s0 : State := { s with addr.provOut := s.addr.provOut.set k rest }
    let s1 := if s.on (F.PROV_CTRL_SLICE_EN k) || (s.on (F.PROV_CTRL_FED_EN k) && !others.isEmpty) then s0.incFld (F.PROV_TX k) else s0
    let s2 := if s.on (F.PROV_CTRL_SLICE_EN k) then
        ([0, 1, 2, 3].filter (fun j => decide (j ≠ k))).foldl (fun t j => t.provAccept j m) s1
      else s1
    if s.on (F.PROV_CTRL_FED_EN k) then
      others.foldl (fun t d =>
        t.korrumSend { typ := 10, vc := 0, cls := s.unitClass 29, dest := d, src := s.fedId, payload := m.bytes }) s2
    else s2

/-- One tick of slice k. -/
def State.tickSlice (s : State) (n k : Nat) : State :=
  let st := s.fld (F.PWR_SI_STATE_STATE k)
  let s1 := (s.countCycles (F.UNC_CYCLE k) (s.on (F.UNC_FREEZE_FROZEN k)) 1).pmuUnc k 0x01 1 {}
  let s2 := s1.incFld (F.PWR_SI_TIME k st)
  let s3 := if st = 0 ∧ s.power.avsStep.isNone then
      (List.range 4).foldl (fun t c => t.tickCluster k n c) { s2 with core.cycles := s2.core.cycles.set k (s2.sliceCycles k + n) }
    else s2
  (((((s3.tickTags k).tickCells k).tickDispatch k).tickKra k).tickStorage k).tickProv k |>.noteIdle k

/-- SQs that wait for their CQ count it (log page 0xC2). -/
def State.tickBlocked (s : State) : State :=
  { s with nv.sqs := s.nv.sqs.map (fun q => if s.cqFull q then { q with blocked := q.blocked + 1 } else q) }

/-- Does a packet at the head of a VC of port p wait for credit (R298)? -/
def State.creditWaits (s : State) (p : Nat) : Bool :=
  let l := s.link p
  decide (s.klState p = klActive) && (List.range 4).any (fun v => (l.leaving.getD v none).isNone && (match l.headOf v with
    | some e => decide (l.creditOn v < e.1.flitCount)
    | none => false))

/-- The PCIe link that something the device has sent went over, if one. -/
def Emit.pcieLink (s : State) : Emit → Option Nat
  | .pcieRead l _ _ _ _ _ | .pcieWrite l _ _ _ _ _ | .atsRequest l _ _ | .msi l _ _ _ | .aerMsg l _ _ | .pcieCpl l _ _ | .atsInvalDone l _ | .ltr l _ => some l
  | .inta i _ => some (s.instLink i)
  | _ => none

/-- The links over which something has passed since the last tick, or a read is outstanding, are not idle (R535); PCIE_TAG_WAIT counts the ticks in
which a read of a link waits for a tag (R424). -/
def State.tickLinks (s : State) : State :=
  let sent := (s.out.drop s.power.outSeen).filterMap (Emit.pcieLink s)
  let busy := (List.range 4).filter (fun l => sent.contains l || !(s.readsOn l).isEmpty)
  let s1 := busy.foldl (fun t l => t.linkBusy l) s
  let wait := s1.pcie.tagWait.filter (fun l => decide (s1.tagLimit l ≤ (s1.readsOn l).length) || (s1.findTag l 0 16384).isNone)
  let s2 := wait.foldl (fun t l => t.incFld (F.PCIE_TAG_WAIT l)) s1
  { s2 with power.outSeen := s1.out.length, pcie.tagWait := wait }

/-- One tick of the hub: Korrum Link credit, the PCIe links, the core clock's microseconds, trusted time, warnings, and the Annex's hold of the intake
slot (R298, R336, R353, R513, R535, R537). -/
def State.tickHub (s : State) : State :=
  let s1 := (List.range 6).foldl (fun t p => if t.creditWaits p then t.incFld (F.KL_CREDIT_WAIT p) else t) s
  let f := s.fld F.CORE_FREQ
  let s2 := if s.time.mono % ticksPerUs ≠ 0 then s1
    else if 2400 < f then s1.incFld F.PWR_BOOST_TIME
    else if f < 2400 then s1.incFld F.PWR_THROTTLE_TIME
    else s1
  let annex := match s.mgmt.holder with
    | some h => decide (h.cmd.route = 2)
    | none => false
  let s3 : State := if annex then { s2 with mgmt.annexTicks := s2.mgmt.annexTicks + 1 } else s2
  s3.tickLinks.seeTime.warnHosts

/-- One fabric tick. Held in reset, or while a save runs, only time passes. -/
def State.tick (s : State) : State :=
  let s1 := s.tickTime
  s.settle (if !s1.running then s1
    else if !s1.slicesUp then s1.tickHub
    else
      let c := s1.coreCycles
      let s2 : State := { s1 with core.cycleRem := c.2 }
      ((List.range 4).foldl (fun t k => t.tickSlice c.1 k) s2).tickBlocked.tickHub)

end Sys2Proof.Machine
end

