-- ==== Sys2Proof/WellFormed.lean ====
section
/-!
DEFINITION. Well-formed commands: every operand that names a part of the device names one that it has. What a command does with an operand that is
not so named follows from its own meaning.
-/

namespace Sys2Proof

/-- A slice (R20). -/
def okSlice (n : Nat) : Bool := decide (n < 4)
/-- A cluster of a slice (R6). -/
def okCluster (n : Nat) : Bool := decide (n < 4)
/-- A thread's local index in its cluster (R96). -/
def okThread (n : Nat) : Bool := decide (n < 32)
/-- A register of a core. -/
def okReg (n : Nat) : Bool := decide (n < 32)
/-- A channel of a cluster (R102). -/
def okChannel (n : Nat) : Bool := decide (n < 64)
/-- A counter CSR: cycle to hpmcounter31 (R544). -/
def okCounterCsr (n : Nat) : Bool := decide (0xC00 ≤ n ∧ n ≤ 0xC1F)
/-- An instance: eight physical and 4,096 virtual functions (R411). -/
def okInst (n : Nat) : Bool := decide (n < 4104)
/-- A ring number in a slice (R126). -/
def okRing (n : Nat) : Bool := decide (n < 8192)
/-- An NVMe command identifier. -/
def okCid (n : Nat) : Bool := decide (n < 65536)
/-- A parse engine of a slice (R156). -/
def okEngine (n : Nat) : Bool := decide (n < 32)
/-- A context of a parse engine (R156). -/
def okContext (n : Nat) : Bool := decide (n < 4)
/-- An Ethernet port position of a slice (R22). -/
def okPosition (n : Nat) : Bool := decide (n < 8)
/-- A priority of Ethernet flow control. -/
def okPriority (n : Nat) : Bool := decide (n < 8)
/-- A Korrum Link port (R292). -/
def okKlPort (n : Nat) : Bool := decide (n < 6)
/-- A PCIe link (R408). -/
def okLink (n : Nat) : Bool := decide (n < 4)
/-- A cipher engine pair of a slice (R20). -/
def okPair (n : Nat) : Bool := decide (n < 10)
/-- A queue pair number (R250). -/
def okQp (n : Nat) : Bool := decide (n < 1048576)
/-- A flash channel of a slice (R363). -/
def okFlashCh (n : Nat) : Bool := decide (n < 8)
/-- A die of a slice: 16 on each of its 8 channels (R363). -/
def okDie (n : Nat) : Bool := decide (n < 128)
/-- A staging slot of the rule table and of the Catalogue (R178, R192). -/
def okStageSlot (n : Nat) : Bool := decide (n < 6)
/-- A staging slot of the Address Table (R200). -/
def okAddrSlot (n : Nat) : Bool := decide (n < 2)
/-- A slot of the root key store (R212). -/
def okRootSlot (n : Nat) : Bool := decide (n < 8)
/-- The size of an access of a PCIe configuration space, a register or a core: 1, 2, 4 or 8 bytes. -/
def okSize (n : Nat) : Bool := decide (n = 1 ∨ n = 2 ∨ n = 4 ∨ n = 8)
/-- An agent that the device has. -/
def okAgent : Agent → Bool
  | .manager | .keeper | .debug => true
  | .hart s k i => okSlice s && okCluster k && okThread i
  | .host f => okInst f

/-- Is the command well formed? -/
def Instr.wf : Instr → Bool
  | .resetNRise _ _ => true
  | .internalDeviceReset _ => true
  | .plinthRomBoot _ => true
  | .trialWatchdog => true
  | .rcvCtrlEnable agent => okAgent agent
  | .registerWrite agent _ size _ => okAgent agent && okSize size
  | .rcRegisterRead agent _ size => okAgent agent && okSize size
  | .keeperEventLog => true
  | .ethLinkUp slice port => okSlice slice && okPosition port
  | .ethLinkDown slice port => okSlice slice && okPosition port
  | .frameReceive slice port _ _ _ => okSlice slice && okPosition port
  | .parseEnqueue _ => true
  | .parseDispatch slice => okSlice slice
  | .parseNop slice engine context => okSlice slice && okEngine engine && okContext context
  | .ldb slice engine context => okSlice slice && okEngine engine && okContext context
  | .ldh slice engine context => okSlice slice && okEngine engine && okContext context
  | .ldw slice engine context => okSlice slice && okEngine engine && okContext context
  | .ldp slice engine context => okSlice slice && okEngine engine && okContext context
  | .movi slice engine context => okSlice slice && okEngine engine && okContext context
  | .addi slice engine context => okSlice slice && okEngine engine && okContext context
  | .andi slice engine context => okSlice slice && okEngine engine && okContext context
  | .shi slice engine context => okSlice slice && okEngine engine && okContext context
  | .add slice engine context => okSlice slice && okEngine engine && okContext context
  | .cmpi slice engine context => okSlice slice && okEngine engine && okContext context
  | .cmp slice engine context => okSlice slice && okEngine engine && okContext context
  | .adv slice engine context => okSlice slice && okEngine engine && okContext context
  | .br slice engine context => okSlice slice && okEngine engine && okContext context
  | .jtab slice engine context => okSlice slice && okEngine engine && okContext context
  | .call slice engine context => okSlice slice && okEngine engine && okContext context
  | .ret slice engine context => okSlice slice && okEngine engine && okContext context
  | .stv slice engine context => okSlice slice && okEngine engine && okContext context
  | .cpyv slice engine context => okSlice slice && okEngine engine && okContext context
  | .setl slice engine context => okSlice slice && okEngine engine && okContext context
  | .csum slice engine context => okSlice slice && okEngine engine && okContext context
  | .mal slice engine context => okSlice slice && okEngine engine && okContext context
  | .cls slice engine context => okSlice slice && okEngine engine && okContext context
  | .parseStepLimit slice engine context => okSlice slice && okEngine engine && okContext context
  | .parseProgramEnd slice engine context => okSlice slice && okEngine engine && okContext context
  | .classificationLookup _ => true
  | .macLateVerdict _ => true
  | .parseBankSwitch agent slice => okAgent agent && okSlice slice
  | .parseBankDrained slice => okSlice slice
  | .ruleCommit agent slice slot _ => okAgent agent && okSlice slice && okStageSlot slot
  | .ruleInvalidate agent slice slot _ => okAgent agent && okSlice slice && okStageSlot slot
  | .frameHandoff _ => true
  | .queuedPointDecision slice _ _ => okSlice slice
  | .arbitrationCycle _ slice _ _ _ => okSlice slice
  | .backoffExpire _ slice _ _ => okSlice slice
  | .arbClassWrite agent _ _ => okAgent agent
  | .arbSyncDone => true
  | .pbCommit agent slice => okAgent agent && okSlice slice
  | .sramError slice _ _ => decide (slice < 5)
  | .hbmScrub _ _ _ => true
  | .timePpsEdge _ => true
  | .ptpMessageReceive _ _ => true
  | .refSourceLost _ _ => true
  | .holdoverExpire => true
  | .primaryReturn => true
  | .ftSrcReselect agent _ _ => okAgent agent
  | .hostLockWrite agent _ => okAgent agent
  | .ftStepWrite agent _ => okAgent agent
  | .ftNowSecRead agent => okAgent agent
  | .twArm agent slice _ => okAgent agent && okSlice slice
  | .twLeadWrite agent slice _ => okAgent agent && okSlice slice
  | .timerDeliver slice => okSlice slice
  | .timerExpiry slice => okSlice slice
  | .launchRelease slice _ => okSlice slice
  | .ftread slice cluster thread rd _ => okSlice slice && okCluster cluster && okThread thread && okReg rd
  | .waitspin slice cluster thread => okSlice slice && okCluster cluster && okThread thread
  | .wfi slice cluster thread => okSlice slice && okCluster cluster && okThread thread
  | .waitspinPauseEnd slice cluster thread => okSlice slice && okCluster cluster && okThread thread
  | .spinWindowExpire slice cluster thread => okSlice slice && okCluster cluster && okThread thread
  | .chopen slice cluster thread rd rs1 => okSlice slice && okCluster cluster && okThread thread && okReg rd && okReg rs1
  | .chput slice cluster thread rs1 rs2 => okSlice slice && okCluster cluster && okThread thread && okReg rs1 && okReg rs2
  | .chclose slice cluster thread rs1 => okSlice slice && okCluster cluster && okThread thread && okReg rs1
  | .chget slice cluster thread rd rs1 => okSlice slice && okCluster cluster && okThread thread && okReg rd && okReg rs1
  | .coreInstruction slice cluster thread _ => okSlice slice && okCluster cluster && okThread thread
  | .counterCsrRead slice cluster thread rd csr => okSlice slice && okCluster cluster && okThread thread && okReg rd && okCounterCsr csr
  | .threadTrap slice cluster thread _ _ => okSlice slice && okCluster cluster && okThread thread
  | .curatorTrap slice cluster _ _ _ => okSlice slice && okCluster cluster
  | .mret slice cluster thread => okSlice slice && okCluster cluster && okThread thread
  | .hwChannelDelivery slice cluster channel _ => okSlice slice && okCluster cluster && okChannel channel
  | .deferredDeliveryRelease slice cluster channel => okSlice slice && okCluster cluster && okChannel channel
  | .chAbort agent slice cluster channel => okAgent agent && okSlice slice && okCluster cluster && okChannel channel
  | .threadResume agent slice cluster thread => okAgent agent && okSlice slice && okCluster cluster && okThread thread
  | .threadRestart agent slice cluster thread => okAgent agent && okSlice slice && okCluster cluster && okThread thread
  | .threadPark agent slice cluster thread => okAgent agent && okSlice slice && okCluster cluster && okThread thread
  | .faultPop agent slice cluster => okAgent agent && okSlice slice && okCluster cluster
  | .clusterCtrlGo agent slice cluster => okAgent agent && okSlice slice && okCluster cluster
  | .clusterCtrlReset agent slice cluster => okAgent agent && okSlice slice && okCluster cluster
  | .clusterResetDone slice cluster => okSlice slice && okCluster cluster
  | .clusterStall slice cluster => okSlice slice && okCluster cluster
  | .clusterDeadlock slice cluster => okSlice slice && okCluster cluster
  | .keeperDeadlockAction slice cluster => okSlice slice && okCluster cluster
  | .debugHalt slice cluster thread _ => okSlice slice && okCluster cluster && okThread thread
  | .debugResume slice cluster thread => okSlice slice && okCluster cluster && okThread thread
  | .sqDoorbell inst ring _ => okInst inst && okRing ring
  | .cqHeadDoorbell inst ring _ => okInst inst && okRing ring
  | .descriptorFetch slice ring _ => okSlice slice && okRing ring
  | .jobStart slice ring => okSlice slice && okRing ring
  | .completionWrite slice ring => okSlice slice && okRing ring
  | .ringModTimer slice ring => okSlice slice && okRing ring
  | .nop slice ring => okSlice slice && okRing ring
  | .txFrame slice ring => okSlice slice && okRing ring
  | .frameTransmitted _ => true
  | .rxPost slice ring => okSlice slice && okRing ring
  | .srEnable agent slice ring => okAgent agent && okSlice slice && okRing ring
  | .srDisable agent slice ring => okAgent agent && okSlice slice && okRing ring
  | .crEnable agent slice ring => okAgent agent && okSlice slice && okRing ring
  | .crDisable agent slice ring => okAgent agent && okSlice slice && okRing ring
  | .ringDrained slice ring => okSlice slice && okRing ring
  | .catalogueLookup _ => true
  | .catalogueWriteback slice => okSlice slice
  | .deliverRelease agent slice _ => okAgent agent && okSlice slice
  | .deliverResubmit agent slice _ => okAgent agent && okSlice slice
  | .catCommit agent slice slot _ => okAgent agent && okSlice slice && okStageSlot slot
  | .catInvalidate agent slice slot _ => okAgent agent && okSlice slice && okStageSlot slot
  | .catRead agent slice slot _ => okAgent agent && okSlice slice && okStageSlot slot
  | .addrLookup _ => true
  | .insertStatic agent slice slot => okAgent agent && okSlice slice && okAddrSlot slot
  | .addrDelete agent slice slot => okAgent agent && okSlice slice && okAddrSlot slot
  | .addrCmdLookup agent slice slot => okAgent agent && okSlice slice && okAddrSlot slot
  | .flushPort agent slice slot => okAgent agent && okSlice slice && okAddrSlot slot
  | .flushBd agent slice slot => okAgent agent && okSlice slice && okAddrSlot slot
  | .flushDynamic agent slice slot => okAgent agent && okSlice slice && okAddrSlot slot
  | .learn slice => okSlice slice
  | .provenanceLearn slice => okSlice slice
  | .provenanceRefresh slice => okSlice slice
  | .provenanceWithdraw slice => okSlice slice
  | .addrAgeingVisit slice _ => okSlice slice
  | .rootKeyGenerate => true
  | .rootKeyImport => true
  | .rootKeyInstall => true
  | .rootKeyExport => true
  | .rootKeyErase => true
  | .rootKeyEraseDone slot => okRootSlot slot
  | .rootKeyRestore => true
  | .rootKeyStatus => true
  | .rngStartupTest => true
  | .rngHealthFail => true
  | .drbgReseed slice => okSlice slice
  | .maskReseed slice pair _ => okSlice slice && okPair pair
  | .rennetDerivation slice _ _ => okSlice slice
  | .encrypt slice ring => okSlice slice && okRing ring
  | .decrypt slice ring => okSlice slice && okRing ring
  | .cmacGen slice ring => okSlice slice && okRing ring
  | .cmacVerify slice ring => okSlice slice && okRing ring
  | .keyBind slice ring => okSlice slice && okRing ring
  | .keyUnbind slice ring => okSlice slice && okRing ring
  | .rngFill slice ring => okSlice slice && okRing ring
  | .espOut _ => true
  | .espIn _ => true
  | .tlsOut _ => true
  | .tlsIn _ => true
  | .pairJobDone slice pair _ => okSlice slice && okPair pair
  | .tamper _ => true
  | .tamperReload _ => true
  | .pairSelftestDone slice pair _ => okSlice slice && okPair pair
  | .cipherSelftest agent slice _ => okAgent agent && okSlice slice
  | .kraWrite slice ring => okSlice slice && okRing ring
  | .kraWriteImm slice ring => okSlice slice && okRing ring
  | .kraSend slice ring => okSlice slice && okRing ring
  | .kraRead slice ring => okSlice slice && okRing ring
  | .kraRecvPost slice ring => okSlice slice && okRing ring
  | .mrRegister slice ring => okSlice slice && okRing ring
  | .mrRevoke slice ring => okSlice slice && okRing ring
  | .revokeDrained _ => true
  | .kraDrainLimit _ => true
  | .kraPacketSend slice qp => okSlice slice && okQp qp
  | .kraContextFetchDone slice qp => okSlice slice && okQp qp
  | .write _ => true
  | .writeImm _ => true
  | .send _ => true
  | .readReq _ => true
  | .readResp _ => true
  | .ack _ => true
  | .nak _ => true
  | .accessKeyCheck _ => true
  | .accessRetire _ => true
  | .kraAckDelay slice qp => okSlice slice && okQp qp
  | .retryTimeout slice qp => okSlice slice && okQp qp
  | .rnrTimer slice qp => okSlice slice && okQp qp
  | .qpCreate agent slice qp => okAgent agent && okSlice slice && okQp qp
  | .qpActivate agent slice qp => okAgent agent && okSlice slice && okQp qp
  | .qpModify agent slice qp => okAgent agent && okSlice slice && okQp qp
  | .qpQuery agent slice qp => okAgent agent && okSlice slice && okQp qp
  | .qpDrain agent slice qp => okAgent agent && okSlice slice && okQp qp
  | .qpDrainDone slice qp => okSlice slice && okQp qp
  | .qpReset agent slice qp => okAgent agent && okSlice slice && okQp qp
  | .qpError agent slice qp => okAgent agent && okSlice slice && okQp qp
  | .klEnable agent port => okAgent agent && okKlPort port
  | .klDisable agent port => okAgent agent && okKlPort port
  | .klSignalDetect port => okKlPort port
  | .klTrainingComplete port => okKlPort port
  | .klEqualiseTimeout port => okKlPort port
  | .klAlignLock port => okKlPort port
  | .linkCaps port _ => okKlPort port
  | .klLinkFault port _ => okKlPort port
  | .klRetrainLock port => okKlPort port
  | .klRetrainTimeout port => okKlPort port
  | .klRefusedRetry port => okKlPort port
  | .linkBlockSend port _ => okKlPort port
  | .linkBlockReceive port _ => okKlPort port
  | .replayTimeout port => okKlPort port
  | .korrumPacketReceive port => okKlPort port
  | .joinReq _ _ _ _ => true
  | .joinRefuse _ => true
  | .fedAloneTimeout => true
  | .fedJoinRetry => true
  | .fedLeave => true
  | .leaveReq _ => true
  | .dissolve _ => true
  | .moveBegin _ => true
  | .moveReady _ _ => true
  | .moveSwitch => true
  | .heartbeatTimer => true
  | .heartbeat _ => true
  | .heartbeatAnswer _ _ _ _ _ => true
  | .masterLoss => true
  | .masterClaim _ => true
  | .feDoorbell => true
  | .feRead => true
  | .feReadCpl => true
  | .feWrite => true
  | .feMsi => true
  | .feBmeOff => true
  | .feBmeOn => true
  | .feFlr => true
  | .feFlrDone => true
  | .feFlrTimeout inst => okInst inst
  | .feUnbound => true
  | .feMmioRead => true
  | .feMmioCpl => true
  | .feMmioTimeout inst => okInst inst
  | .feReadTimeout _ => true
  | .feSeqGapTimeout _ inst => okInst inst
  | .timeSyncTimer port => okKlPort port
  | .timeSync port _ => okKlPort port
  | .timeDelayReq port => okKlPort port
  | .timeDelayResp port _ _ => okKlPort port
  | .epochRaise _ _ => true
  | .epochAck _ _ => true
  | .epochAbort => true
  | .tRaise => true
  | .nvmeSqDoorbell inst _ _ => okInst inst
  | .nvmeCqDoorbell inst _ _ => okInst inst
  | .nvmeCommandFetch slice => okSlice slice
  | .nvmeCompletionPost inst _ cid => okInst inst && okCid cid
  | .nvmeCoalesceTimer inst _ => okInst inst
  | .deleteIoSq inst cid => okInst inst && okCid cid
  | .deleteIoCq inst cid => okInst inst && okCid cid
  | .createIoSq inst cid => okInst inst && okCid cid
  | .createIoCq inst cid => okInst inst && okCid cid
  | .getLogPage inst cid => okInst inst && okCid cid
  | .nvmeIdentify inst cid => okInst inst && okCid cid
  | .nvmeAbort inst cid => okInst inst && okCid cid
  | .setFeatures inst cid => okInst inst && okCid cid
  | .getFeatures inst cid => okInst inst && okCid cid
  | .asyncEventRequest inst cid => okInst inst && okCid cid
  | .namespaceManagement inst cid => okInst inst && okCid cid
  | .namespaceAttachment inst cid => okInst inst && okCid cid
  | .deviceSelfTest inst cid => okInst inst && okCid cid
  | .selftestStep _ _ => true
  | .formatNvm inst cid => okInst inst && okCid cid
  | .flush inst _ cid => okInst inst && okCid cid
  | .nvmeWrite inst _ cid => okInst inst && okCid cid
  | .nvmeRead inst _ cid => okInst inst && okCid cid
  | .writeZeroes inst _ cid => okInst inst && okCid cid
  | .datasetManagement inst _ cid => okInst inst && okCid cid
  | .verify inst _ cid => okInst inst && okCid cid
  | .zoneOpen inst _ cid => okInst inst && okCid cid
  | .zoneClose inst _ cid => okInst inst && okCid cid
  | .zoneFinish inst _ cid => okInst inst && okCid cid
  | .zoneReset inst _ cid => okInst inst && okCid cid
  | .zoneOffline inst _ cid => okInst inst && okCid cid
  | .setZoneDescriptorExtension inst _ cid => okInst inst && okCid cid
  | .reportZones inst _ cid => okInst inst && okCid cid
  | .extendedReportZones inst _ cid => okInst inst && okCid cid
  | .zoneAppend inst _ cid => okInst inst && okCid cid
  | .sealCompute _ _ _ => true
  | .accessionRead inst _ cid => okInst inst && okCid cid
  | .ccEnable inst _ => okInst inst
  | .ccDisable inst _ => okInst inst
  | .ccShutdown inst _ => okInst inst
  | .apstIdleTimer inst => okInst inst
  | .writeBufferAdmit slice => okSlice slice
  | .flashReadDone slice _ _ => okSlice slice
  | .flashProgramDone slice _ => okSlice slice
  | .flashEraseDone slice die _ _ => okSlice slice && okDie die
  | .flashChannelTimeout slice ch => okSlice slice && okFlashCh ch
  | .dieRetire slice die _ => okSlice slice && okDie die
  | .garbageCollect slice => okSlice slice
  | .retentionAgeUpdate _ => true
  | .readDisturbLimit slice die _ => okSlice slice && okDie die
  | .maintenanceWindow slice => okSlice slice
  | .holdupSample _ => true
  | .holdupTest => true
  | .holdupTestEnd _ _ => true
  | .pwrfailNFall => true
  | .saveDone _ _ => true
  | .pwrfailNRise => true
  | .pcieLinkUp link _ _ _ _ => okLink link
  | .pcieLinkDown link _ _ => okLink link
  | .busMasterEnableClear inst => okInst inst
  | .busMasterEnableSet inst => okInst inst
  | .functionLevelReset inst => okInst inst
  | .flrComplete inst => okInst inst
  | .d3hotEntry inst => okInst inst
  | .interruptModeWrite inst _ _ _ => okInst inst
  | .msixUnmask inst _ _ => okInst inst
  | .fnIntxPendingClear inst _ _ => okInst inst
  | .pcieReadCompletion link _ inst _ _ _ => okLink link && okInst inst
  | .completionTimeout link _ => okLink link
  | .tagQuarantineEnd link _ => okLink link
  | .pcieGateOpen agent _ => okAgent agent
  | .inboundPcieRequest link _ _ _ _ => okLink link
  | .atsInvalidation link inst _ _ => okLink link && okInst inst
  | .annexLaunch agent _ => okAgent agent
  | .annexConsume agent => okAgent agent
  | .annexHold => true
  | .instanceEnable agent inst => okAgent agent && okInst inst
  | .instanceDisable agent inst => okAgent agent && okInst inst
  | .quiesceDone inst => okInst inst
  | .instQuiesceLimit inst => okInst inst
  | .tableWalk slice inst _ _ _ => okSlice slice && okInst inst
  | .invalidateInstance agent inst => okAgent agent && okInst inst
  | .invalidateRegion agent inst => okAgent agent && okInst inst
  | .invalidateAll agent => okAgent agent
  | .invalidationDone => true
  | .instFaultPop agent => okAgent agent
  | .mgmtCmd slice ring => okSlice slice && okRing ring
  | .mctpCommand _ _ => true
  | .relayCommand _ _ _ _ => true
  | .relayReply _ _ => true
  | .intakeClaim => true
  | .slotRelease => true
  | .mgmtCommandTimeout _ => true
  | .relayTimeout _ => true
  | .mctpReplyRetry _ => true
  | .bulkExpire => true
  | .setEndpointId _ _ _ _ => true
  | .getEndpointId _ _ => true
  | .getMctpVersionSupport _ _ _ => true
  | .getMessageTypeSupport _ _ => true
  | .getVendorDefinedMsgSupport _ _ _ => true
  | .nvmeMiCommand _ _ inst _ _ _ => okInst inst
  | .identify => true
  | .health => true
  | .configGet => true
  | .configSet _ => true
  | .nsCreate => true
  | .nsDelete => true
  | .nsAttach => true
  | .nsDetach => true
  | .nsFormat => true
  | .fwWriteBegin _ => true
  | .fwWriteChunk _ => true
  | .fwWriteEnd _ => true
  | .fwActivate _ => true
  | .fwConfirm _ => true
  | .fwRevert _ => true
  | .fwQuery => true
  | .keyRevoke => true
  | .custodySet _ => true
  | .custodyChallenge => true
  | .custodyClear _ => true
  | .logRead => true
  | .logClear => true
  | .eventRingSet => true
  | .bulkRelease => true
  | .instQuiesce => true
  | .instResume => true
  | .instFreeze => true
  | .instSave => true
  | .instRestore => true
  | .instThaw => true
  | .instDiscard => true
  | .feBind => true
  | .feUnbind => true
  | .fedStatus => true
  | .fedLinkMap => true
  | .clusterDump => true
  | .clusterReset => true
  | .clusterStart => true
  | .deviceReset => true
  | .regRead => true
  | .regWrite => true
  | .timePtpCfg => true
  | .timeStatus => true
  | .getVersion => true
  | .getStatus => true
  | .readLog => true
  | .fwDownload _ => true
  | .fwCommit _ => true
  | .annexFwActivate _ => true
  | .getTemperature => true
  | .annexReset => true
  | .idleEvaluate slice => okSlice slice
  | .idleExitTimer slice => okSlice slice
  | .sliceWake slice => okSlice slice
  | .powerControlTick _ _ _ => true
  | .avsCommand _ => true
  | .aspmL1Entry link => okLink link
  | .ltrMessage link => okLink link
  | .pmuFreezeGo agent _ => okAgent agent
  | .pmuFreezeApply => true
  | .tempLogHourly => true
  | .resetNFall _ => true
  | .priorityPauseReceive slice port priority _ => okSlice slice && okPosition port && okPriority priority
  | .priorityPauseExpiry slice port priority => okSlice slice && okPosition port && okPriority priority
  | .masterClaimWindowEnd => true
  | .d3hotExit inst => okInst inst
  | .atsTranslationCompletion slice inst _ _ _ _ => okSlice slice && okInst inst
  | .boundStatusWindowRead inst _ => okInst inst
  | .idleEntryDone slice => okSlice slice
  | .idleExitDone slice => okSlice slice
  | .accTimeFloorWrite => true

end Sys2Proof
end

