-- ==== Sys2Proof/Safety.lean ====
section
/-!
DEFINITION. The terms that claims about the machine use: the invariant that every step keeps, and what a command leaves unchanged.
-/

namespace Sys2Proof

/-- The commands that reach a device that is held in reset, or saving. -/
def Instr.reachesHeld : Instr → Bool
  | .resetNFall _ | .resetNRise _ _ | .internalDeviceReset _ | .pwrfailNFall | .pwrfailNRise | .saveDone _ _ => true
  | .sqDoorbell _ _ _ | .cqHeadDoorbell _ _ _ => true
  | _ => false

end Sys2Proof

namespace Sys2Proof.Machine

/-- mip of every Curator shows what it stands for: CFIP (bit 16) while the cluster's fault queue is not empty (R113), CPOIP (bit 17) while a core counter
of the cluster has OVF and IRQ_EN both set (R549). -/
def State.mipAgrees (s : State) : Prop :=
  ∀ sl k, sl < 4 → k < 4 →
    (bitOf (s.curatorMip sl k) 16 = true ↔ (s.clx sl k).faults ≠ []) ∧
    (bitOf (s.curatorMip sl k) 17 = true ↔
      ∃ m, m < 48 ∧ bitOf (s.rd (R.CORE_HPM_EVT sl k m)).toNat 63 = true ∧ bitOf (s.rd (R.CORE_HPM_EVT sl k m)).toNat 62 = true)

/-- The parts of the state. Two of the model's own are not among them: the queue of waiting commands, and the draw counter of the free values. mip stands
for other parts (State.mipAgrees), and is not one itself. -/
inductive Part where
  | regs | keeperPend | eventLog | poisoned | time | arb | threads | clusters | chans | csrs | coreClock | dumps | issue | mem | rings | pcie | inst | fe | eth | cat | addr | cipher | kra | flash | nv | mgmt | boot
  | power | links | fed | pmu | out
  deriving DecidableEq, Repr

/-- A part is the same in t as in s. -/
def Part.same (p : Part) (s t : State) : Prop :=
  match p with
  | .regs => t.regs = s.regs ∧ t.rises = s.rises
  | .keeperPend => t.keeperPend = s.keeperPend
  | .eventLog => t.eventLog = s.eventLog ∧ t.eventSeq = s.eventSeq
  | .poisoned => t.poisoned = s.poisoned
  | .time => t.time = s.time
  | .arb => t.arb = s.arb
  | .threads => t.core.threads = s.core.threads
  | .clusters => t.core.clusters = s.core.clusters
  | .chans => t.core.chData = s.core.chData
  | .csrs => t.core.csrs = s.core.csrs ∧ t.core.triggers = s.core.triggers
  | .coreClock => t.core.cycles = s.core.cycles ∧ t.core.cycleRem = s.core.cycleRem
  | .dumps => t.core.dumps = s.core.dumps
  | .issue => t.core.issued = s.core.issued
  | .mem => t.mem = s.mem
  | .rings => t.rings = s.rings
  | .pcie => t.pcie = s.pcie
  | .inst => t.inst = s.inst
  | .fe => t.fe = s.fe
  | .eth => t.eth = s.eth
  | .cat => t.cat = s.cat
  | .addr => t.addr = s.addr
  | .cipher => t.cipher = s.cipher
  | .kra => t.kra = s.kra
  | .flash => t.flash = s.flash
  | .nv => t.nv = s.nv
  | .mgmt => t.mgmt = s.mgmt
  | .boot => t.boot = s.boot
  | .power => t.power = s.power
  | .links => t.links = s.links
  | .fed => t.fed = s.fed
  | .pmu => t.pmuFrozen = s.pmuFrozen ∧ t.pmuPending = s.pmuPending
  | .out => t.out = s.out

/-- Nothing but the parts named has changed from s to t. -/
def SameBut (ps : List Part) (s t : State) : Prop := ∀ p : Part, p ∉ ps → p.same s t

/-- From s to t no bit of a register has changed but those of the fields named. -/
def FldsBut (fs : List Fld) (s t : State) : Prop :=
  ∀ a i, (∀ f ∈ fs, f.addr = a → i < f.lo ∨ f.lo + f.width ≤ i) → (t.rd a).getLsbD i = (s.rd a).getLsbD i

/-- From s to t no event has set a status bit but those of the fields named (State.rises, R13). -/
def RisesBut (fs : List Fld) (s t : State) : Prop :=
  ∀ k, (∀ f ∈ fs, k ≠ riseKey f.addr f.lo) → Map.find? t.rises k = Map.find? s.rises k

/-- From s to t nothing has changed but the parts ps and, in the registers, the fields fs. -/
def Only (ps : List Part) (fs : List Fld) (s t : State) : Prop := SameBut (.regs :: ps) s t ∧ FldsBut fs s t ∧ RisesBut fs s t

/-- The fields that counting core events of cluster k of slice sl may change: its 48 counters with their OVF bits, and the inhibits that a freeze sets
(R548, R550). -/
def coreCounterFlds (sl k : Nat) : List Fld :=
  ((List.range 48).map (fun m => [F.CORE_HPM sl k m, ⟨R.CORE_HPM_EVT sl k m, 63, 1⟩, ⟨R.CORE_OVF sl k, m, 1⟩])).flatten ++
  (List.range 8).map (fun c => F.CORE_INHIBIT sl k c)

/-- The fields that an instruction of a thread may change as it retires with a result for rd: the register, the PC, the instruction count and the
counters of core events. -/
def retireFlds (sl k i rd : Nat) : List Fld :=
  [⟨R.THREAD_GPR sl k i rd, 0, 64⟩, ⟨R.THREAD_PC sl k i, 0, 64⟩, F.THREAD_INSTRET sl k i] ++ coreCounterFlds sl k

/-- A thread's spinning mark, and the bitmap that shows it (R99). -/
def spinFlds (sl k i : Nat) : List Fld := [F.THREAD_STATE_SPINNING sl k i, ⟨R.SPINNING sl k, i, 1⟩]

/-- A thread's state, and the bitmaps that show it (R96). -/
def thStateFlds (sl k i : Nat) : List Fld := [F.THREAD_STATE_STATE sl k i, ⟨R.HALTED sl k, i, 1⟩, ⟨R.FAULTED sl k, i, 1⟩]

/-- The fields that say what a channel holds. -/
def chFlds (sl k m : Nat) : List Fld :=
  [F.CH_STATE_STATE sl k m, F.CH_STATE_COUNT sl k m, F.CH_STATE_WRITER sl k m, F.CH_STATE_HW sl k m]

/-- The fields that say which channel a thread holds open. -/
def holdFlds (sl k i : Nat) : List Fld := [F.THREAD_STATE_HOLDS_OPEN sl k i, F.THREAD_STATE_CHANNEL sl k i]

/-- The fields that counting uncore events of slice k may change (R548 to R551). -/
def uncCounterFlds (k : Nat) : List Fld :=
  ((List.range 8).map (fun n => [F.UNC_CTR k n, ⟨R.UNC_EVT k n, 63, 1⟩, ⟨R.UNC_OVF k, n, 1⟩])).flatten ++
  [F.UNC_FREEZE_FROZEN k, F.PMU_INT_STATUS_OVF_SEEN k]

/-- Command c completes at s: exec answers a next state, and P holds of it. -/
def Completes (s : State) (c : Instr) (P : State → Prop) : Prop := ∃ t, exec c s = .next t ∧ P t

/-- Field f counts n up from s to t, at its width. -/
def Counts (s t : State) (f : Fld) (n : Nat) : Prop := t.fld f = (s.fld f + n) % 2 ^ f.width

/-- From s to t thread i has taken a trap with a code and a value. A thread other than the Curator stops in FAULTED, keeps its PC, registers and channel,
and one record enters the fault queue (R113). The Curator goes to mtvec under the standard rules; where IN_TRAP is set it stops in HALTED and the Keeper
is told (R112, R116). Beside that, and the issue slot, only the fields fs have changed. -/
def Traps (s t : State) (sl k i code tval : Nat) (fs : List Fld) : Prop :=
  (∀ r, t.xreg sl k i r = s.xreg sl k i r) ∧ t.on (F.THREAD_STATE_SPINNING sl k i) = false ∧
  (t.thx sl k i).pauseUntil = none ∧
  if i ≠ 0 then
    t.thState sl k i = thFaulted ∧ t.pc sl k i = s.pc sl k i ∧ (t.clx sl k).faults = (s.clx sl k).faults ++ [⟨i, code, false, s.pc sl k i, tval, s.time.mono⟩] ∧
    (∀ n, n ≠ thKey sl k i → Map.find? t.core.threads n = Map.find? s.core.threads n) ∧
    (∀ n, n ≠ clKey sl k → Map.find? t.core.clusters n = Map.find? s.core.clusters n) ∧
    Only [.threads, .clusters, .issue] (thStateFlds sl k i ++ spinFlds sl k i ++ coreCounterFlds sl k ++ F.FAULT_COUNT sl k :: fs) s t
  else if s.on (F.CURATOR_STATUS_IN_TRAP sl k) = true then
    t.thState sl k 0 = thHalted ∧ t.pc sl k 0 = s.pc sl k 0 ∧ t.fld (F.CURATOR_STATUS_NESTED sl k) = 1 ∧
    t.keeperPend = s.keeperPend ++ [⟨R.CURATOR_STATUS sl k, 1, code⟩] ∧
    Only [.threads, .issue, .keeperPend] (thStateFlds sl k 0 ++ spinFlds sl k 0 ++ coreCounterFlds sl k ++ F.CURATOR_STATUS_NESTED sl k :: fs) s t
  else
    t.on (F.CURATOR_STATUS_IN_TRAP sl k) = true ∧ t.csr sl k 0 csrMepc 0 = BitVec.ofNat 64 (s.pc sl k 0) ∧
    t.csr sl k 0 csrMcause 0 = BitVec.ofNat 64 code ∧ t.csr sl k 0 csrMtval 0 = BitVec.ofNat 64 tval ∧
    t.pc sl k 0 = (s.csr sl k 0 csrMtvec 0).toNat / 4 * 4 ∧ wordFld (t.csr sl k 0 csrMstatus mstatusReset) 3 1 = 0 ∧
    wordFld (t.csr sl k 0 csrMstatus mstatusReset) 7 1 = wordFld (s.csr sl k 0 csrMstatus mstatusReset) 3 1 ∧
    Only [.threads, .csrs, .issue] ([F.CURATOR_STATUS_IN_TRAP sl k, ⟨R.THREAD_PC sl k 0, 0, 64⟩] ++ spinFlds sl k 0 ++ coreCounterFlds sl k ++ fs) s t

/-- What a device reset leaves from s: every register but the latched straps, the pins and root slot 0 (which is loaded as the reset ends, R212) at its reset value; the boot NOR, the fuses, the flash cells and
the event log as they were. -/
def ResetKeeps (s t : State) : Prop :=
  (∀ a, a ∉ [R.STRAP_STATUS, R.PIN_STATUS, R.GPIO_IN, R.ROOT_SLOT 0] → t.rd a = resetAt a) ∧
  t.boot.flagA = s.boot.flagA ∧ t.boot.flagB = s.boot.flagB ∧ t.boot.slots = s.boot.slots ∧ t.boot.commits = s.boot.commits ∧
  t.boot.revoked = s.boot.revoked ∧ t.boot.rootProvision = s.boot.rootProvision ∧ t.boot.custody = s.boot.custody ∧
  t.flash.cells = s.flash.cells ∧ t.eventLog = s.eventLog

/-- A device reset has ended: the straps are latched, time starts at zero, root slot 0 is loaded from the fuses (R212), and Plinth ROM is to run. -/
def StartsOver (straps : Nat) (t : State) : Prop :=
  t.boot.held = false ∧ t.boot.internal = 0 ∧ t.boot.romPending = true ∧ t.boot.straps = straps % 128 ∧
  t.rd R.STRAP_STATUS = BitVec.ofNat 64 (straps % 128) ∧ t.fld (F.ROOT_SLOT_STATE 0) = 1 ∧ t.time = {}

/-- A register whose writes only store: it starts no action, no command of its own writes it, and it enables no interrupt. -/
def RegRow.plain (r : RegRow) : Bool :=
  (startActions.find? (fun e => decide (e.1 = r.base))).isNone && (ownWrites.find? (fun e => decide (e.1 = r.base))).isNone &&
  (intPairs.find? (fun e => decide (e.1 = r.base))).isNone && !annexGuarded r.base && decide (r.base ≠ R.TW_ARM_TIME 0)

/-- Context x of engine e of slice k holds c, which runs and has steps left, and the word w at its PC is a well-formed one of OP op. -/
def State.Issues (s : State) (k e x op : Nat) (c : ParseCtx) (w : Nat) : Prop :=
  k < 4 ∧ e < 32 ∧ x < 4 ∧ s.ctx? (ctxKey k e x) = some c ∧ c.ended = false ∧ c.steps < s.stepLimit k ∧ s.progWord k c.bank c.pc = w ∧
  opOf w = op ∧ w &&& opNamed op = w ∧ c.pc < 2048

/-- From s to t the context alone has changed, to c. -/
def ParseStep (s t : State) (k e x : Nat) (c : ParseCtx) : Prop :=
  t.ctx? (ctxKey k e x) = some c ∧ (∀ i, i ≠ ctxKey k e x → t.ctx? i = s.ctx? i) ∧ t.eth = { s.eth with ctxs := t.eth.ctxs } ∧ Only [.eth] [] s t

/-- From s to t the program of the context has ended by PROGRAM_FAULT with a reason, at PC pc: the latch, the status bit and the Keeper's interrupt
apart, the context alone has changed, to c. -/
def ParseFaults (s t : State) (k e x : Nat) (c : ParseCtx) (reason pc : Nat) : Prop :=
  t.ctx? (ctxKey k e x) = some c ∧ (∀ i, i ≠ ctxKey k e x → t.ctx? i = s.ctx? i) ∧ t.eth = { s.eth with ctxs := t.eth.ctxs } ∧
  t.fld (F.PARSE_FAULT_INFO_PC k) = pc % 2048 ∧ t.fld (F.PARSE_FAULT_INFO_REASON k) = reason ∧
  t.fld (F.PARSE_FAULT_INFO_ENGINE k) = e ∧ t.fld (F.PARSE_FAULT_INFO_CONTEXT k) = x ∧ t.fld (F.PARSE_INT_STATUS_PROGRAM_FAULT_SEEN k) = 1 ∧
  Only [.eth, .keeperPend] [F.PARSE_FAULT_INFO_PC k, F.PARSE_FAULT_INFO_REASON k, F.PARSE_FAULT_INFO_ENGINE k, F.PARSE_FAULT_INFO_CONTEXT k,
    F.PARSE_INT_STATUS_PROGRAM_FAULT_SEEN k] s t

/-- From s to t the program of the context, which stands as c, has gone on to word n; where the bank has no word n, it has ended by PROGRAM_FAULT 5 (R163). -/
def ParseGoesTo (s t : State) (k e x : Nat) (c : ParseCtx) (n : Nat) : Prop :=
  if n ≤ 2047 then ParseStep s t k e x { c with pc := n }
  else ParseFaults s t k e x { c with ended := true, mal := raiseMal c.mal 12 } 5 2047

/-- The program has gone on to the next word. -/
def ParseGoes (s t : State) (k e x : Nat) (c : ParseCtx) : Prop := ParseGoesTo s t k e x c (c.pc + 1)

/-- The program has ended by a window overrun: malformed class 11, and no latch (R155, R163). -/
def ParseOverruns (s t : State) (k e x : Nat) (c : ParseCtx) : Prop := ParseStep s t k e x { c with ended := true, mal := raiseMal c.mal 11 }

/-- From s to t the started job j of a ring has come to its end, with a status, a result and TS_VALID; beside the ring's record of it nothing has changed
but the parts ps and the fields fs. -/
def JobEnds (s t : State) (j : RJob) (status result : Nat) (ts : Bool) (ps : List Part) (fs : List Fld) : Prop :=
  t.rings = (s.finish j status result ts).rings ∧ Only (.rings :: ps) fs s t

/-- The intake slot's holder h carries opcode op and has not begun (R511, R512). -/
def State.Holds (s : State) (op : Nat) (h : Holder) : Prop := s.mgmt.holder = some h ∧ h.started = false ∧ h.cmd.opcode = op

/-- From s to t the holder's opcode has run and has left the reply r, or has none yet; nothing else has changed but the parts ps and the fields fs. -/
def MgmtAnswers (s t : State) (h : Holder) (r : Option MgmtReply) (ps : List Part) (fs : List Fld) : Prop :=
  t.mgmt = { s.mgmt with holder := some { h with started := true, reply := r } } ∧ Only (.mgmt :: ps) fs s t

/-- From s to t the holder's opcode has run and is refused with a status that the spec does not name. -/
def MgmtRefuses (s t : State) (h : Holder) : Prop := ∃ r : MgmtReply, t.mgmt = { s.mgmt with holder := some { h with started := true, reply := some r } } ∧
  r.status ≠ St.SUCCESS ∧ r.payload = [] ∧ Only [.mgmt] [] s t

/-- Command c runs for a holder of opcode op that has not begun, and does nothing else. -/
def RunsFor (c : Instr) (op : Nat) : Prop := ∀ s : State, s.slicesUp = true → (s.mgmt.holder.any fun h => !h.started && decide (h.cmd.opcode = op)) = false →
  Completes s c fun t => Only [] [] s t

/-- Every command that waits is well formed. -/
def State.queueWf (s : State) : Prop := ∀ c ∈ s.pending, c.wf = true

end Sys2Proof.Machine
end

