-- ==== Sys2Proof/Certificates/Slice0/Obligations.lean ====
section
/-!
DEFINITION. The statements about this model: what each command does, what every step keeps, and what holds at reset.
A statement whose basis is 'derived' rests on the sections it cites, and on the log entries its docstring names.
-/

section

open Sys2Proof Sys2Proof.Machine

/-- A step runs the command at the front of the queue. Step at a state with command c at the front of its queue is exec of c on that state with the queue's rest. -/
def Obligations.StepRunsFrontCommand : Prop :=
  ∀ (c : Instr) (s : State), step { s with pending := c :: s.pending } = exec c s

/-- A step takes exactly the front of the queue. When a step answers a next state, the queue there is the queue before without its front: no command adds, drops or reorders waiting commands, and a step on the empty queue leaves it empty. -/
def Obligations.StepTakesOneCommand : Prop :=
  ∀ (s t : State), step s = .next t → t.pending = s.pending.tail

/-- Every command answers a next state in every state. For every command, with any operands, and every state, reached or not, exec answers a next state: no command of this model ends in a fault or a refusal. -/
def Obligations.EveryCommandAnswersNext : Prop :=
  ∀ (c : Instr) (s : State), ∃ t, exec c s = .next t

/-- Every step leaves mip in agreement with what it stands for. If mip of every Curator agrees with its cluster's fault queue (CFIP) and with the OVF and IRQ_EN bits of its core counters (CPOIP) before a step, it does after the step, whatever command ran. -/
def Obligations.EveryStepKeepsMip : Prop :=
  ∀ (s t : State), s.mipAgrees → step s = .next t → t.mipAgrees

/-- What reset leaves. At reset mip agrees, the queue of commands is empty, every register that a map names reads its reset value, the parse program store and the parse queues are empty, no interrupt waits for the Keeper, and FT_MONO is 0. That Plinth ROM has still to run is the model's own entry point (log entry 14). -/
def Obligations.ResetIsClean : Prop :=
  State.reset.mipAgrees ∧ State.reset.pending = [] ∧ (∀ a r, findRow a = some r → State.reset.rd a = BitVec.ofNat 64 r.reset) ∧
  (∀ k b a, State.reset.progWord k b a = 0) ∧ (∀ k, State.reset.eth.queues.getD k [] = []) ∧ State.reset.keeperPend = [] ∧
  State.reset.time.mono = 0 ∧ State.reset.time.units = 0 ∧ State.reset.boot.romPending = true ∧ State.reset.boot.held = false

/-- A device held in reset, or saving, ignores every command but a few. While the device is held in reset or a hold-up save runs, a command leaves the state as it is, but for the commands that reach the device all the same: the edges of RESET_N and PWRFAIL_N, the end of an internal reset and of a save, and the ring doorbells, which see for themselves that no ring is there. That the other commands have no effect is the model's choice (log entry 15). -/
def Obligations.HeldDeviceIgnoresCommands : Prop :=
  ∀ (c : Instr) (s : State), s.running = false → c.reachesHeld = false → exec c s = .next s

/-- A step on the empty queue lets one fabric tick pass. With no command waiting, FT_MONO advances by one tick and Fabric Time by 5 units of 0.125 ns; a device held in reset changes in nothing else but what settling shows. That a step on the empty queue is a tick is the model's choice (log entry 13). -/
def Obligations.EmptyQueueTick : Prop :=
  ∀ (s : State), s.pending = [] → s.running = false →
    ∃ t, step s = .next t ∧ t.time = { s.time with mono := s.time.mono + 1, units := s.time.units + 5 } ∧ Only [.time] [] s t

/-- Device resets begin and end. RESET_N falling, a finished save and the trial watchdog each begin a device reset: the device is held, every register but the latched straps and the pins takes its reset value, and the boot NOR's flags, slots and commits, the fuses, the flash cells and the event log stay. RESET_N rising, and the end of an internal reset, latch the straps, start time at zero, load root slot 0 from the fuses and leave Plinth ROM to run. A DEVICE_RESET that is due does both. PWRFAIL_N is shown in PIN_STATUS. Which state a reset keeps beyond the spec's words is the model's choice (log entry 14). -/
def Obligations.DeviceResetsBeginAndEnd : Prop :=
  (∀ (s : State) (saved : Nat), s.boot.held = false → Completes s (.resetNFall saved) fun t =>
    t.boot.held = true ∧ t.boot.resetLow = true ∧ t.rd (R.ROOT_SLOT 0) = resetAt (R.ROOT_SLOT 0) ∧ ResetKeeps s t) ∧
  (∀ (s : State) (ok : Bool) (saved : Nat), s.boot.held = false → s.flash.saving = true → Completes s (.saveDone ok saved) fun t =>
    t.boot.held = true ∧ t.boot.internal = 3 ∧ t.rd (R.ROOT_SLOT 0) = resetAt (R.ROOT_SLOT 0) ∧ ResetKeeps s t) ∧
  (∀ (s : State) (at' : Nat), s.running = true → s.boot.watchdog = some at' → at' ≤ s.time.mono → Completes s .trialWatchdog fun t =>
    t.boot.held = true ∧ t.boot.internal = 2 ∧ t.rd (R.ROOT_SLOT 0) = resetAt (R.ROOT_SLOT 0) ∧ ResetKeeps s t) ∧
  (∀ (s : State) (straps : Nat), s.boot.resetLow = true → s.boot.tripped = false → Completes s (.resetNRise straps false) fun t =>
    StartsOver straps t ∧ t.boot.resetLow = false ∧ Only [.time, .boot, .cipher] [⟨R.STRAP_STATUS, 0, 64⟩, ⟨R.ROOT_SLOT 0, 0, 64⟩] s t) ∧
  (∀ (s : State) (straps : Nat), s.boot.resetLow = false → s.boot.tripped = false → s.boot.held = true → (s.boot.internal = 1 ∨ s.boot.internal = 2) →
    Completes s (.internalDeviceReset straps) fun t => StartsOver straps t ∧ Only [.time, .boot, .cipher] [⟨R.STRAP_STATUS, 0, 64⟩, ⟨R.ROOT_SLOT 0, 0, 64⟩] s t) ∧
  (∀ (s : State) (straps at' : Nat), s.boot.resetLow = false → s.boot.tripped = false → s.running = true → s.mgmt.resetAt = some at' → at' ≤ s.time.mono →
    Completes s (.internalDeviceReset straps) fun t => StartsOver straps t ∧ ResetKeeps s t ∧ t.boot.accFloor = s.fld F.ACC_TIME_FLOOR) ∧
  (∀ (s : State), Completes s .pwrfailNRise fun t =>
    t.fld F.PIN_STATUS_PWRFAIL = 0 ∧ t.boot = { s.boot with powerSince := s.time.mono } ∧ Only [.boot] [F.PIN_STATUS_PWRFAIL] s t)

/-- Plinth ROM with nothing that boots enters Recovery, and boots a slot that verifies. With no active flag and no committed slot, and the strap inputs high, Plinth ROM tries slots 1, 2 and 0 in turn, finds reason 2 in each, and enters Recovery: only PF0 is presented, on link 0, whose link goes to Detect, RCV_STATUS shows the reasons and DEV_READY rises. With no active flag, slot 1 boots when it verifies. In Recovery RCV_CTRL.ENABLE makes both Recovery rings active with heads and tails zero. Outside Recovery, and to an agent the page is not open to, it does nothing. -/
def Obligations.PlinthRomChoosesAndRecovers : Prop :=
  (∀ (s : State) (info : BootInfo), s.running = true → s.boot.romPending = true → s.boot.flagA = none → s.boot.flagB = none →
    s.boot.commits = [none, none, none] → s.on F.STRAP_STATUS_GOLDEN_N = true → s.on F.STRAP_STATUS_RECOVER_N = true →
    Completes s (.plinthRomBoot info) fun t =>
      t.boot = { s.boot with romPending := false, recovery := true } ∧ t.fld (F.BOOT_FAIL 0) = 2 ∧ t.fld (F.BOOT_FAIL 1) = 2 ∧ t.fld (F.BOOT_FAIL 2) = 2 ∧
      t.fld F.RCV_STATUS = 0x222 ∧ t.fld (F.INST_CFG_TYPE 0) = 1 ∧ t.fld F.PIN_STATUS_DEV_READY = 1 ∧ t.fld (F.PCIE_LINK_STATE_STATE 0) = lsDetect ∧
      Only [.boot] [F.BOOT_STATUS_GOLDEN, F.BOOT_STATUS_RECOVER, F.BOOT_FAIL 0, F.BOOT_FAIL 1, F.BOOT_FAIL 2, F.RCV_STATUS, F.INST_CFG_TYPE 0,
        F.PCIE_LINK_STATE_STATE 0, F.PIN_STATUS_DEV_READY] s t) ∧
  (∀ (s : State) (info : BootInfo), s.running = true → s.boot.romPending = true → s.boot.flagA = none → s.boot.flagB = none →
    s.on F.STRAP_STATUS_GOLDEN_N = true → s.on F.STRAP_STATUS_RECOVER_N = true → s.slotFlaw 1 none = 1 →
    exec (.plinthRomBoot info) s = .next (s.settle (((((({ s with boot.romPending := false } : State).setFld F.BOOT_STATUS_GOLDEN 0).setFld
      F.BOOT_STATUS_RECOVER 0).setFld (F.BOOT_FAIL 1) 1).startFirmware 1 0 info)))) ∧
  (∀ (s : State) (g : Agent), s.running = true → s.boot.recovery = true → accessOk R.RCV_CTRL true g = true → Completes s (.rcvCtrlEnable g) fun t =>
    t.fld F.RCV_CTRL_ENABLE = 1 ∧ t.boot = { s.boot with rcv := { active := true } } ∧ Only [.boot] [F.RCV_CTRL_ENABLE] s t) ∧
  (∀ (s : State) (g : Agent), s.running = true → (s.boot.recovery = false ∨ accessOk R.RCV_CTRL true g = false) →
    Completes s (.rcvCtrlEnable g) fun t => Only [] [] s t)

/-- A violating register access does nothing and reads zero. An access below BAR space, by an agent that the address is not open to, or not a naturally aligned 32-bit or 64-bit one, or of an address that no map names, outside the Annex window and (for the Keeper) outside its memories: a write leaves the whole state as it is, and a read answers zero and leaves everything else as it is. -/
def Obligations.RegisterViolationsAreIgnored : Prop :=
  ∀ (s : State) (g : Agent) (a size v : Nat), s.running = true → a < barSpace → (g = .keeper → s.keeperPlace a size = none) → inAnnex a = false →
    (s.mayAccess g a size true = false → Completes s (.registerWrite g a size v) fun t => Only [] [] s t) ∧
    (s.mayAccess g a size false = false → Completes s (.rcRegisterRead g a size) fun t =>
      t.out = s.out ++ [.readData g a 0] ∧ Only [.out] [] s t) ∧
    (findRow a = none → s.mayAccess g a size true = false ∧ s.mayAccess g a size false = false) ∧
    ((size ≠ 4 ∧ size ≠ 8) ∨ a % size ≠ 0 → s.mayAccess g a size true = false ∧ s.mayAccess g a size false = false)

/-- A permitted write stores by access type; a read of a peak restarts it. A permitted 64-bit write of a plain register (one with no action, no command and no enables of its own) stores what the access types of its fields let it, a status bit that an event set in this very fabric cycle staying set under a write of 1, and changes nothing else but what the access itself wakes. A write that the register's own rule does not honour now changes no register. A manager's read of the level peak TAG_PEAK answers the peak and restarts it from the level; a read of the longest duration NVME_SELFTEST_MAX_DELAY answers it and restarts it from zero. -/
def Obligations.RegisterAccessesStoreAndRestart : Prop :=
  (∀ (s : State) (g : Agent) (a v : Nat) (r : RegRow), s.running = true → a < barSpace → (g = .keeper → s.keeperPlace a 8 = none) → inAnnex a = false →
    s.mayAccess g a 8 true = true → findRow a = some r → r.bytes = 8 → r.plain = true → (s.wakeFor a).honoured r.base (r.idx a) = true →
    Completes s (.registerWrite g a 8 v) fun t =>
      t.rd a = storeFields r.fields ((s.wakeFor a).rd a) (fldMask 0 64) (BitVec.ofNat 64 (v % 2 ^ 64)) ((s.wakeFor a).riseMask a) ∧
      Only [] [⟨a, 0, 64⟩] (s.wakeFor a) t) ∧
  (∀ (s : State) (g : Agent) (a v : Nat) (r : RegRow), s.running = true → a < barSpace → (g = .keeper → s.keeperPlace a 8 = none) → inAnnex a = false →
    s.mayAccess g a 8 true = true → findRow a = some r → r.bytes = 8 → r.plain = true → (s.wakeFor a).honoured r.base (r.idx a) = false →
    Completes s (.registerWrite g a 8 v) fun t => Only [] [] (s.wakeFor a) t) ∧
  (∀ (s : State) (a : Nat) (i : Nat), i < 64 → (∃ e ∈ s.rises, e.1 = riseKey a i ∧ e.2.1 = s.time.mono) → (s.riseMask a).getLsbD i = true) ∧
  (∀ (old val hold : Word) (i : Nat), i < 64 → old.getLsbD i = true →
    (storeFields [⟨i, 1, .rw1c⟩] old (fldMask 0 64) val hold).getLsbD i = (!val.getLsbD i || hold.getLsbD i)) ∧
  (∀ (s : State) (k : Nat), s.running = true → s.boot.recovery = false → k < 4 → (s.idleX k).move = 0 → s.fld (F.PWR_SI_STATE_STATE k) = 0 →
    Completes s (.rcRegisterRead .manager (R.TAG_PEAK k) 8) fun t =>
      t.out = s.out ++ [.readData .manager (R.TAG_PEAK k) (s.fld (F.TAG_PEAK k))] ∧ t.fld (F.TAG_PEAK k) = s.fld (F.TAG_INUSE k) ∧
      Only [.out, .power] [F.TAG_PEAK k] s t) ∧
  (∀ (s : State), s.running = true → s.boot.recovery = false → Completes s (.rcRegisterRead .manager R.NVME_SELFTEST_MAX_DELAY 8) fun t =>
      t.out = s.out ++ [.readData .manager R.NVME_SELFTEST_MAX_DELAY (s.fld F.NVME_SELFTEST_MAX_DELAY)] ∧ t.fld F.NVME_SELFTEST_MAX_DELAY = 0 ∧
      Only [.out] [F.NVME_SELFTEST_MAX_DELAY] s t)

/-- Port links, reception, the parse queue and dispatch. A port of the mode in force comes up, and no other; when it goes down its bit clears, ETH_LINK_DOWN counts, and what is queued on it and has not begun is dropped with TX_LINK_DOWN. A frame of one cell that begins to arrive on a port that is up, its bytes cut to MAX_FRAME, takes a cell of its port's class, waits for one of the shared pool, or is dropped whole. A frame for an idle slice enters the wake buffer, or is dropped where that is full; one on a port that is down, and a MAC control frame, leave no trace. A frame whose window is in the buffer enters the parse queue at its end, or is dropped and counted when the queue holds 1,024. Dispatch gives the oldest queued frame the lowest free context, at word 0 of the active bank with everything zero. The Keeper logs its oldest interrupt, the one it does not handle as a deadlock, once. -/
def Obligations.PortsAndFramesArrive : Prop :=
  (∀ (s : State) (k p : Nat), s.slicesUp = true → s.portHere k p = true → Completes s (.ethLinkUp k p) fun t =>
    t.fld ⟨R.ETH_LINK_STATUS k, p, 1⟩ = 1 ∧ Only [] [⟨R.ETH_LINK_STATUS k, p, 1⟩] s t) ∧
  (∀ (s : State) (k p : Nat), s.slicesUp = true → s.portHere k p = false → Completes s (.ethLinkUp k p) fun t => Only [] [] s t) ∧
  (∀ (s : State) (k p : Nat), s.slicesUp = true → p < 64 → s.linkUp k p = true → s.portEgress k p = [] → Completes s (.ethLinkDown k p) fun t =>
    t.fld ⟨R.ETH_LINK_STATUS k, p, 1⟩ = 0 ∧ t.fld (F.ETH_LINK_DOWN k p) = min (s.fld (F.ETH_LINK_DOWN k p) + 1) 0xFFFFFFFF ∧
    Only [] [⟨R.ETH_LINK_STATUS k, p, 1⟩, F.ETH_LINK_DOWN k p] s t) ∧
  (∀ (s : State) (k p : Nat) (e : Egress), s.slicesUp = true → s.linkUp k p = true → s.portEgress k p = [e] → e.begun = false →
    exec (.ethLinkDown k p) s = .next (s.settle (((s.setFld ⟨R.ETH_LINK_STATUS k, p, 1⟩ 0).satFld (F.ETH_LINK_DOWN k p) 1).dropEgress e St.TX_LINK_DOWN))) ∧
  (∀ (s : State) (k p : Nat), s.slicesUp = true → s.linkUp k p = false → Completes s (.ethLinkDown k p) fun t => Only [] [] s t) ∧
  (∀ (s : State) (k p : Nat) (data : List Byte) (n : Nat) (ok : Bool), s.slicesUp = true → (s.linkUp k p = false ∨ beAt data 12 2 = 0x8808) →
    Completes s (.frameReceive k p data n ok) fun t => Only [] [] s t) ∧
  (∀ (s : State) (k p : Nat) (data : List Byte) (n : Nat) (ok : Bool), s.slicesUp = true → k < 4 → s.linkUp k p = true → beAt data 12 2 ≠ 0x8808 →
    s.power.slices.length = 4 → (s.idleX k).move = 2 → (s.idleX k).wakeBytes + (data.take (s.fld (F.PARSE_PORT_CFG_MAX_FRAME k p))).length ≤ 262144 →
    Completes s (.frameReceive k p data n ok) fun t =>
      (∃ f, t.frame? s.eth.nextFrame = some f ∧ f.origin = .eth k p ∧ f.stage = .arriving ∧ f.data = data.take (s.fld (F.PARSE_PORT_CFG_MAX_FRAME k p)) ∧
        f.arrived = min n f.data.length ∧ f.cellWait = cellsFor f.arrived ∧ f.begun = s.time.mono) ∧
      (t.idleX k).wakeFrames = (s.idleX k).wakeFrames ++ [s.eth.nextFrame] ∧ Only [.eth, .power] [] s t) ∧
  (∀ (s : State) (k p : Nat) (data : List Byte) (n : Nat) (ok : Bool), s.slicesUp = true → k < 4 → s.linkUp k p = true → beAt data 12 2 ≠ 0x8808 →
    s.power.slices.length = 4 → (s.idleX k).move = 2 → 262144 < (s.idleX k).wakeBytes + (data.take (s.fld (F.PARSE_PORT_CFG_MAX_FRAME k p))).length →
    Completes s (.frameReceive k p data n ok) fun t =>
      t.fld (F.PWR_WAKE_DROP k) = (s.fld (F.PWR_WAKE_DROP k) + 1) % 2 ^ (F.PWR_WAKE_DROP k).width ∧ Only [.power] [F.PWR_WAKE_DROP k] s t) ∧
  (∀ (s : State) (k p : Nat) (data kept : List Byte) (n c : Nat) (ok : Bool), s.slicesUp = true → k < 4 → s.linkUp k p = true → beAt data 12 2 ≠ 0x8808 →
    s.awake k = true → kept = data.take (s.fld (F.PARSE_PORT_CFG_MAX_FRAME k p)) → 0 < min n kept.length → min n kept.length ≤ 256 →
    c = s.fld (F.PARSE_PORT_CFG_PB_CLASS k p) →
    (s.cellAnswer k c = .grant → Completes s (.frameReceive k p data n ok) fun t =>
      (∃ f, t.frame? s.eth.nextFrame = some f ∧ f.origin = .eth k p ∧ f.stage = .arriving ∧ f.data = kept ∧ f.arrived = min n kept.length ∧
        f.cells = [(k, c, 1)] ∧ f.cellWait = 0 ∧ f.begun = s.time.mono) ∧
      t.fld (F.PB_CLASS_USE k c) = (s.pbUse k c + 1) % 2 ^ 17 ∧ t.eth = { s.eth with frames := t.eth.frames, nextFrame := s.eth.nextFrame + 1 } ∧
      Only [.eth, .power, .pmu, .keeperPend] ([F.PB_CLASS_USE k c, F.PB_CLASS_PEAK k c, F.PB_SHARED_FREE k, F.PB_ADMIT k c] ++ uncCounterFlds k) s t) ∧
    ((s.cellAnswer k c = .contend ∨ (s.cellAnswer k c = .refuse ∧ c = 2)) → Completes s (.frameReceive k p data n ok) fun t =>
      (∃ f, t.frame? s.eth.nextFrame = some f ∧ f.origin = .eth k p ∧ f.data = kept ∧ f.arrived = min n kept.length ∧ f.cells = [] ∧ f.cellWait = 1 ∧
        f.begun = s.time.mono) ∧
      t.arb = { s.arb with waiting := s.arb.waiting ++ [⟨.pbPool, k, s.deadlineOf (s.unitClass 0) s.time.mono, 0, .cell c s.eth.nextFrame⟩] } ∧ Only [.eth, .power, .arb] [] s t) ∧
    (s.cellAnswer k c = .refuse → c ≠ 2 → s.eth.egress = [] → Completes s (.frameReceive k p data n ok) fun t =>
      t.frame? s.eth.nextFrame = none ∧ t.fld (F.PB_DROP k c) = (s.fld (F.PB_DROP k c) + 1) % 2 ^ (F.PB_DROP k c).width ∧
      Only [.eth, .cat, .power, .arb] [F.PB_DROP k c] s t)) ∧
  (∀ (s : State) (id : Nat) (f : Frame), s.slicesUp = true → s.frame? id = some f → f.stage = .arriving → min 256 f.data.length ≤ f.arrived → f.cellWait = 0 →
    f.id = id → (s.eth.queues.getD f.slice []).length < 1024 → f.slice < s.eth.queues.length → Completes s (.parseEnqueue id) fun t =>
      t.eth.queues.getD f.slice [] = s.eth.queues.getD f.slice [] ++ [id] ∧ t.frame? id = some { f with stage := .queued } ∧
      Only [.eth] [F.PARSE_QUEUE_DEPTH f.slice, F.PARSE_QUEUE_PEAK f.slice] s t) ∧
  (∀ (s : State) (id : Nat) (f : Frame), s.slicesUp = true → s.frame? id = some f → f.stage = .arriving → min 256 f.data.length ≤ f.arrived → f.cellWait = 0 →
    1024 ≤ (s.eth.queues.getD f.slice []).length → exec (.parseEnqueue id) s = .next (s.settle
      (((s.incFld (F.PARSE_QUEUE_DROP f.slice)).raise (F.PARSE_INT_STATUS_QUEUE_DROP_SEEN f.slice) (R.PARSE_INT_ENABLE f.slice)).dropFrame f 0))) ∧
  (∀ (s : State) (k : Nat), s.slicesUp = true → (s.awake k = false ∨ s.eth.queues.getD k [] = [] ∨ s.freeCtx k = none) → Completes s (.parseDispatch k) fun t => Only [] [] s t) ∧
  (∀ (s : State) (k id i : Nat) (rest : List Nat) (f : Frame), s.slicesUp = true → s.awake k = true → s.eth.queues.getD k [] = id :: rest →
    s.freeCtx k = some i → s.frame? id = some f → f.id = id → k < s.eth.queues.length → Completes s (.parseDispatch k) fun t =>
      (∃ c, t.ctx? (128 * k + i) = some c ∧ c.frame = id ∧ c.bank = s.fld (F.PARSE_BANK_ACTIVE k) ∧ c.window = f.data.take 256 ∧ c.inWindow = min 256 f.data.length ∧ c.len = (if f.whole then f.data.length else 0) ∧ c.vec = { lenKnown := f.whole } ∧ (∀ sl p, f.origin = .eth sl p → c.port = p) ∧ c.pc = 0 ∧ c.steps = 0 ∧
        c.g = [0, 0, 0, 0, 0, 0, 0, 0] ∧ c.cur = 0 ∧ c.z = false ∧ c.c = false ∧ c.t = false ∧ c.stack = []) ∧
      t.eth.queues.getD k [] = rest ∧ t.frame? id = some { f with stage := .parsing } ∧ Only [.eth] [F.PARSE_QUEUE_DEPTH k, F.PARSE_QUEUE_PEAK k] s t) ∧
  (∀ (s : State) (e : KeeperInt) (rest : List KeeperInt), s.running = true → s.boot.romPending = false →
    takeFirst (fun x => !isClusterInt x) s.keeperPend = some (e, rest) → eventCode e.addr e.bit = none → Completes s .keeperEventLog fun t =>
      t.keeperPend = rest ∧ t.eventLog = s.eventLog ++ [⟨s.eventSeq, s.time.mono, e.addr, e.bit, e.detail⟩] ∧ Only [.keeperPend, .eventLog] [] s t)

/-- The parse instructions that load, move, add and compare. For a context that runs and whose word at the PC is a well-formed one of the instruction's OP: NOP only goes on; LDB, LDH and LDW load 1, 2 or 4 window bytes, the first the most significant, from CUR + OFF plus the low byte of GI when IDX is set, and set T when a byte lies beyond the frame; LDP loads a parameter, the length of a frame that was whole at dispatch, or the port's position; MOVI, ADDI, ANDI, SHI and ADD write GD with the flags the table gives; CMPI and CMP set Z and C alone. Each is one step and one slot, goes on with the next word (from word 2,047 it ends by PROGRAM_FAULT 5, its own effect done), and changes nothing but its context. A load past window byte 255 ends the program with class 11 and loads nothing. -/
def Obligations.ParseLoadsAndArithmetic : Prop :=
  ∀ (s : State) (k e x w : Nat) (c : ParseCtx), s.slicesUp = true →
    let gd := bitsOf w 26 24
    let gs := c.reg (bitsOf w 23 21)
    let gt := c.reg (bitsOf w 20 18)
    let imm := bitsOf w 15 0
    let a := c.cur + bitsOf w 7 0 + (if bitOf w 20 then gs % 256 else 0)
    let c1 := c.counted w
    (s.Issues k e x 0x00 c w → Completes s (.parseNop k e x) fun t => ParseGoes s t k e x c1) ∧
    (s.Issues k e x 0x01 c w → a + 1 ≤ 256 → Completes s (.ldb k e x) fun t =>
      ParseGoes s t k e x ({ c1 with t := c.t || decide (c.inWindow < a + 1) }.setReg gd (beNat (slice c.window a 1)))) ∧
    (s.Issues k e x 0x02 c w → a + 2 ≤ 256 → Completes s (.ldh k e x) fun t =>
      ParseGoes s t k e x ({ c1 with t := c.t || decide (c.inWindow < a + 2) }.setReg gd (beNat (slice c.window a 2)))) ∧
    (s.Issues k e x 0x03 c w → a + 4 ≤ 256 → Completes s (.ldw k e x) fun t =>
      ParseGoes s t k e x ({ c1 with t := c.t || decide (c.inWindow < a + 4) }.setReg gd (beNat (slice c.window a 4)))) ∧
    (s.Issues k e x 0x01 c w → 256 < a + 1 → Completes s (.ldb k e x) fun t => ParseOverruns s t k e x c1) ∧
    (s.Issues k e x 0x02 c w → 256 < a + 2 → Completes s (.ldh k e x) fun t => ParseOverruns s t k e x c1) ∧
    (s.Issues k e x 0x03 c w → 256 < a + 4 → Completes s (.ldw k e x) fun t => ParseOverruns s t k e x c1) ∧
    (s.Issues k e x 0x04 c w → bitsOf w 3 0 < 14 → Completes s (.ldp k e x) fun t =>
      ParseGoes s t k e x (c1.setReg gd (s.fld (F.PARSE_PARAM k (bitsOf w 3 0))))) ∧
    (s.Issues k e x 0x04 c w → bitsOf w 3 0 = 14 → Completes s (.ldp k e x) fun t => ParseGoes s t k e x (c1.setReg gd c.len)) ∧
    (s.Issues k e x 0x04 c w → bitsOf w 3 0 = 15 → Completes s (.ldp k e x) fun t => ParseGoes s t k e x (c1.setReg gd c.port)) ∧
    (s.Issues k e x 0x05 c w → Completes s (.movi k e x) fun t => ParseGoes s t k e x (c1.setReg gd imm)) ∧
    (s.Issues k e x 0x06 c w → Completes s (.addi k e x) fun t =>
      ParseGoes s t k e x ({ c1 with z := decide ((gs + imm) % 2 ^ 32 = 0), c := decide (2 ^ 32 ≤ gs + imm) }.setReg gd (gs + imm))) ∧
    (s.Issues k e x 0x07 c w → Completes s (.andi k e x) fun t =>
      ParseGoes s t k e x ({ c1 with z := decide (gs &&& imm = 0), c := false }.setReg gd (gs &&& imm))) ∧
    (s.Issues k e x 0x08 c w → Completes s (.shi k e x) fun t =>
      ParseGoes s t k e x (c1.setReg gd (if bitOf w 20 then gs * 2 ^ bitsOf w 4 0 else gs / 2 ^ bitsOf w 4 0))) ∧
    (s.Issues k e x 0x09 c w → Completes s (.add k e x) fun t =>
      ParseGoes s t k e x ({ c1 with z := decide ((gs + gt) % 2 ^ 32 = 0), c := decide (2 ^ 32 ≤ gs + gt) }.setReg gd (gs + gt))) ∧
    (s.Issues k e x 0x0A c w → Completes s (.cmpi k e x) fun t =>
      ParseGoes s t k e x { c1 with z := decide (gs = imm), c := decide (gs < imm) }) ∧
    (s.Issues k e x 0x0B c w → Completes s (.cmp k e x) fun t => ParseGoes s t k e x { c1 with z := decide (gs = gt), c := decide (gs < gt) })

/-- The parse instructions that move the cursor, branch, and write the vector. For a context that runs and whose word at the PC is a well-formed one of the instruction's OP: ADV moves the cursor; BR and JTAB go to their target or on; CALL pushes the next PC and RET pops it; STV stores a register little-endian and CPYV copies window bytes in wire order, both inside vector bytes 40 to 127; SETL notes a layer; CSUM sets Z for a ones-complement sum of 0xFFFF and costs two slots; MAL raises a class and CLS writes the class, and both end the program when END is set. Each is one step and, CSUM apart, one slot, and changes nothing but its context. Where a program goes on to a word beyond 2,047 it ends by PROGRAM_FAULT 5; ADV past 255, and CPYV and CSUM over bytes past 255, end it with class 11. -/
def Obligations.ParseFlowAndVector : Prop :=
  ∀ (s : State) (k e x w : Nat) (c : ParseCtx), s.slicesUp = true →
    let gs := c.reg (bitsOf w 23 21)
    let c0 := c.counted w
    let adv := c.cur + (if bitOf w 20 then gs * 2 ^ bitsOf w 19 16 else 0) + bitsOf w 7 0
    (s.Issues k e x 0x0C c w → adv ≤ 255 → Completes s (.adv k e x) fun t => ParseGoes s t k e x { c0 with cur := adv }) ∧
    (s.Issues k e x 0x0C c w → 255 < adv → Completes s (.adv k e x) fun t => ParseOverruns s t k e x c0) ∧
    (s.Issues k e x 0x0D c w → bitsOf w 26 24 < 7 → Completes s (.br k e x) fun t =>
      ParseGoesTo s t k e x c0 (if c.cond (bitsOf w 26 24) then bitsOf w 10 0 else c.pc + 1)) ∧
    (s.Issues k e x 0x0E c w → Completes s (.jtab k e x) fun t =>
      ParseGoesTo s t k e x c0 (if gs ≤ bitsOf w 20 16 then bitsOf w 10 0 + gs else c.pc + 1)) ∧
    (s.Issues k e x 0x0F c w → c.stack.length < 4 → Completes s (.call k e x) fun t =>
      ParseGoesTo s t k e x { c0 with stack := (c.pc + 1) :: c.stack } (bitsOf w 10 0)) ∧
    (∀ (a : Nat) (rest : List Nat), s.Issues k e x 0x10 c w → c.stack = a :: rest → Completes s (.ret k e x) fun t =>
      ParseGoesTo s t k e x { c0 with stack := rest } a) ∧
    (s.Issues k e x 0x11 c w → bitsOf w 20 19 < 3 → 40 ≤ bitsOf w 6 0 → bitsOf w 6 0 + 2 ^ bitsOf w 20 19 ≤ 128 → Completes s (.stv k e x) fun t =>
      ParseGoes s t k e x { c0 with vec := { c.vec with area := splice c.vec.area (bitsOf w 6 0 - 40) (leBytes (2 ^ bitsOf w 20 19) gs) } }) ∧
    (s.Issues k e x 0x12 c w → 40 ≤ bitsOf w 21 15 → bitsOf w 21 15 + (bitsOf w 26 22 + 1) ≤ 128 → c.cur + bitsOf w 7 0 + (bitsOf w 26 22 + 1) ≤ 256 →
      Completes s (.cpyv k e x) fun t => ParseGoes s t k e x
        { c0 with t := c.t || decide (c.inWindow < c.cur + bitsOf w 7 0 + (bitsOf w 26 22 + 1)),
                  vec := { c.vec with area := splice c.vec.area (bitsOf w 21 15 - 40) (slice c.window (c.cur + bitsOf w 7 0) (bitsOf w 26 22 + 1)) } }) ∧
    (s.Issues k e x 0x12 c w → 40 ≤ bitsOf w 21 15 → bitsOf w 21 15 + (bitsOf w 26 22 + 1) ≤ 128 → 256 < c.cur + bitsOf w 7 0 + (bitsOf w 26 22 + 1) →
      Completes s (.cpyv k e x) fun t => ParseOverruns s t k e x c0) ∧
    (s.Issues k e x 0x13 c w → Completes s (.setl k e x) fun t => ParseGoes s t k e x
      { c0 with vec := { c.vec with layerOff := c.vec.layerOff.set (bitsOf w 26 24) c.cur, layerProto := c.vec.layerProto.set (bitsOf w 26 24) (bitsOf w 15 8) } }) ∧
    (s.Issues k e x 0x14 c w → 2 ≤ gs → gs ≤ 60 → gs % 2 = 0 → c.cur + gs ≤ 256 → Completes s (.csum k e x) fun t => ParseGoes s t k e x
      { c0 with t := c.t || decide (c.inWindow < c.cur + gs), z := decide (onesSum 0 (slice c.window c.cur gs) = 0xFFFF) }) ∧
    (s.Issues k e x 0x14 c w → 2 ≤ gs → gs ≤ 60 → gs % 2 = 0 → 256 < c.cur + gs → Completes s (.csum k e x) fun t => ParseOverruns s t k e x c0) ∧
    (s.Issues k e x 0x15 c w → 1 ≤ bitsOf w 3 0 → bitsOf w 3 0 ≤ 12 → Completes s (.mal k e x) fun t =>
      let v := { c0 with mal := raiseMal c.mal (bitsOf w 3 0) }
      if bitOf w 5 then ParseStep s t k e x { v with ended := true } else ParseGoes s t k e x v) ∧
    (s.Issues k e x 0x16 c w → Completes s (.cls k e x) fun t =>
      let v := { c0 with vec := if bitOf w 9 then c.vec else { c.vec with cls := bitsOf w 7 0 } }
      if bitOf w 8 then ParseStep s t k e x { v with ended := true } else ParseGoes s t k e x v) ∧
    (s.Issues k e x 0x14 c w → c0.slots = c.slots + 2 ∧ c0.steps = c.steps + 1) ∧
    (opOf w ≠ 0x14 → c0.slots = c.slots + 1 ∧ c0.steps = c.steps + 1)

/-- What ends a parse program before its CLS or MAL. In a running context: a reserved OP, and a set bit that the encoding of any of the 23 does not name, BR with COND 7, STV with W 3 and MAL with class 0 or above 12 are reason 1; STV and CPYV outside vector bytes 40 to 127 are reason 3; a fifth CALL and a RET with an empty stack are reason 4; CSUM of zero, odd or more than 60 bytes is reason 6. Each ends the program, raises malformed class 12 and latches PC, reason, engine and context; the vector keeps what the program wrote before. A context whose steps have reached the limit ends with reason 2, and its step count stays. Reason 5 and window overruns are stated with the instructions. -/
def Obligations.ParseProgramFaults : Prop :=
  ∀ (s : State) (k e x w : Nat) (c : ParseCtx), s.slicesUp = true → k < 4 → e < 32 → x < 4 → s.ctx? (ctxKey k e x) = some c → c.ended = false →
    c.pc < 2048 →
    let dead := fun (c' : ParseCtx) => { c' with ended := true, mal := raiseMal c.mal 12 }
    (s.stepLimit k ≤ c.steps → Completes s (.parseStepLimit k e x) fun t => ParseFaults s t k e x (dead c) 2 c.pc) ∧
    (c.steps < s.stepLimit k → s.progWord k c.bank c.pc = w →
      (∀ oi ∈ ([(0x00, .parseNop k e x), (0x01, .ldb k e x), (0x02, .ldh k e x), (0x03, .ldw k e x), (0x04, .ldp k e x), (0x05, .movi k e x),
          (0x06, .addi k e x), (0x07, .andi k e x), (0x08, .shi k e x), (0x09, .add k e x), (0x0A, .cmpi k e x), (0x0B, .cmp k e x), (0x0C, .adv k e x),
          (0x0D, .br k e x), (0x0E, .jtab k e x), (0x0F, .call k e x), (0x10, .ret k e x), (0x11, .stv k e x), (0x12, .cpyv k e x), (0x13, .setl k e x),
          (0x14, .csum k e x), (0x15, .mal k e x), (0x16, .cls k e x)] : List (Nat × Instr)),
        (0x16 < opOf w ∨ (opOf w = oi.1 ∧ w &&& opNamed oi.1 ≠ w)) →
          Completes s oi.2 fun t => ParseFaults s t k e x (dead (c.counted w)) 1 c.pc) ∧
      (opOf w = 0x0D → bitsOf w 26 24 = 7 → Completes s (.br k e x) fun t => ParseFaults s t k e x (dead (c.counted w)) 1 c.pc) ∧
      (opOf w = 0x11 → bitsOf w 20 19 = 3 → Completes s (.stv k e x) fun t => ParseFaults s t k e x (dead (c.counted w)) 1 c.pc) ∧
      (opOf w = 0x15 → bitsOf w 3 0 = 0 ∨ 12 < bitsOf w 3 0 → Completes s (.mal k e x) fun t => ParseFaults s t k e x (dead (c.counted w)) 1 c.pc) ∧
      (s.Issues k e x 0x11 c w → bitsOf w 20 19 < 3 → bitsOf w 6 0 < 40 ∨ 128 < bitsOf w 6 0 + 2 ^ bitsOf w 20 19 →
        Completes s (.stv k e x) fun t => ParseFaults s t k e x (dead (c.counted w)) 3 c.pc) ∧
      (s.Issues k e x 0x12 c w → bitsOf w 21 15 < 40 ∨ 128 < bitsOf w 21 15 + (bitsOf w 26 22 + 1) →
        Completes s (.cpyv k e x) fun t => ParseFaults s t k e x (dead (c.counted w)) 3 c.pc) ∧
      (s.Issues k e x 0x0F c w → 4 ≤ c.stack.length → Completes s (.call k e x) fun t => ParseFaults s t k e x (dead (c.counted w)) 4 c.pc) ∧
      (s.Issues k e x 0x10 c w → c.stack = [] → Completes s (.ret k e x) fun t => ParseFaults s t k e x (dead (c.counted w)) 4 c.pc) ∧
      (s.Issues k e x 0x14 c w → c.reg (bitsOf w 23 21) = 0 ∨ c.reg (bitsOf w 23 21) % 2 = 1 ∨ 60 < c.reg (bitsOf w 23 21) →
        Completes s (.csum k e x) fun t => ParseFaults s t k e x (dead (c.counted w)) 6 c.pc))

/-- At the step limit no instruction issues, and the latch shows the PC that would have run next. In a context that has executed PARSE_STEP_LIMIT steps (or 16, where the register reads less) without an end, no parse instruction issues: each of the 23 leaves the state as it is. The step limit command ends the program with reason 2; the context's step count, and the latched PC, are those it had. -/
def Obligations.StepLimitLatchesNextPc : Prop :=
  ∀ (s : State) (k e x : Nat) (c : ParseCtx), s.slicesUp = true → k < 4 → e < 32 → x < 4 → s.ctx? (ctxKey k e x) = some c → c.ended = false →
    c.steps = s.stepLimit k → c.pc < 2048 →
    (∀ i ∈ ([.parseNop k e x, .ldb k e x, .ldh k e x, .ldw k e x, .ldp k e x, .movi k e x, .addi k e x, .andi k e x, .shi k e x, .add k e x, .cmpi k e x,
        .cmp k e x, .adv k e x, .br k e x, .jtab k e x, .call k e x, .ret k e x, .stv k e x, .cpyv k e x, .setl k e x, .csum k e x, .mal k e x,
        .cls k e x] : List Instr), Completes s i fun t => Only [] [] s t) ∧
    Completes s (.parseStepLimit k e x) fun t =>
      ParseFaults s t k e x { c with ended := true, mal := raiseMal c.mal 12 } 2 c.pc

/-- The end of a program, the rule lookup, the banks and the rules. A program that has ended frees its context, counts PARSE_FRAMES and PARSE_SLOTS, and, without a malformed class, its frame is parsed with FLOW_HASH computed; the lowest malformed class that the program or the MAC raised counts and its MAL_ACTION is applied, under which PASS leaves the frame parsed. A parsed frame, first of its port, takes the lowest-numbered valid rule that matches, or, where none does, the miss action, and counts a lookup and a hit or a miss. A late MAC verdict completes a frame whose cells have been asked for, counting it admitted once all are there; of a port whose link is down, what has arrived is the frame, with a bad FCS; of a dropped frame it only counts the class. The Keeper's switch makes the other bank active and shows whether the old one drains, and drained clears that once no context runs the old bank. A commit with VALID 1 by the slot's owner copies the 16 staged doublewords into the rule, VALID set and hits zero, and one with VALID 0 clears VALID; both count. -/
def Obligations.ParseEndsAndClassifies : Prop :=
  (∀ (s : State) (k e x : Nat) (c : ParseCtx) (f : Frame), s.slicesUp = true → k < 4 → e < 32 → x < 4 → s.ctx? (ctxKey k e x) = some c → c.ended = true →
    s.frame? c.frame = some f → f.id = c.frame → c.mal = 0 → f.whole = false → Completes s (.parseProgramEnd k e x) fun t =>
      t.eth.ctxs = Map.erase s.eth.ctxs (ctxKey k e x) ∧ t.fld (F.PARSE_FRAMES k) = (s.fld (F.PARSE_FRAMES k) + 1) % 2 ^ 64 ∧
      t.fld (F.PARSE_SLOTS k) = (s.fld (F.PARSE_SLOTS k) + c.slots) % 2 ^ 64 ∧
      t.frame? c.frame = some { f with stage := .parsed, mal := 0, badFcs := false, vec := { c.vec with flowHash := crc32c (c.vec.area.take 40), steps := c.steps, trunc := c.t } } ∧
      Only [.eth] [F.PARSE_FRAMES k, F.PARSE_SLOTS k] s t) ∧
  (∀ (s : State) (k e x m : Nat) (c : ParseCtx) (f : Frame), s.slicesUp = true → k < 4 → e < 32 → x < 4 → s.ctx? (ctxKey k e x) = some c → c.ended = true →
    s.frame? c.frame = some f → f.id = c.frame → m = lowestMal c.mal (if f.whole then f.macMal else []) → 0 < m → m < 16 →
    s.fld (F.MAL_ACTION k m) = 1 → f.origin = .eth k 0 → Completes s (.parseProgramEnd k e x) fun t =>
      t.eth.ctxs = Map.erase s.eth.ctxs (ctxKey k e x) ∧ t.fld (F.MAL_COUNT k m) = (s.fld (F.MAL_COUNT k m) + 1) % 2 ^ (F.MAL_COUNT k m).width ∧
      t.frame? c.frame = some { f with stage := .parsed, mal := m, badFcs := f.whole && f.macMal.contains 2, vec := { c.vec with flowHash := crc32c (c.vec.area.take 40), steps := c.steps, trunc := c.t } } ∧
      Only [.eth] [F.PARSE_FRAMES k, F.PARSE_SLOTS k, F.MAL_COUNT k m] s t) ∧
  (∀ (s : State) (k e x : Nat) (c : ParseCtx) (f : Frame), s.slicesUp = true → k < 4 → e < 32 → x < 4 → s.ctx? (ctxKey k e x) = some c → c.ended = true →
    s.frame? c.frame = some f →
    let m := lowestMal c.mal (if f.whole then f.macMal else [])
    m ≠ 0 → exec (.parseProgramEnd k e x) s = .next (s.settle ((((({ s with eth.ctxs := Map.erase s.eth.ctxs (ctxKey k e x) } : State).incFld
      (F.PARSE_FRAMES k)).addFld (F.PARSE_SLOTS k) c.slots).incFld (F.MAL_COUNT k m)).malAction
      { f with vec := { c.vec with flowHash := crc32c (c.vec.area.take 40), steps := c.steps, trunc := c.t }, mal := m,
               badFcs := f.whole && f.macMal.contains 2 } m .parsed))) ∧
  (∀ (s : State) (k e x : Nat) (c : ParseCtx), s.slicesUp = true → s.ctx? (ctxKey k e x) = some c → c.ended = false →
    Completes s (.parseProgramEnd k e x) fun t => Only [] [] s t) ∧
  (∀ (s : State) (id k p : Nat) (f : Frame), s.slicesUp = true → s.frame? id = some f → f.origin = .eth k p → f.stage = .parsed → s.firstOfPort f = true →
    f.exception = false → s.sramPoisoned k ruleBase 0x200000 = false → s.validRules k = [] →
    exec (.classificationLookup id) s = .next (s.settle (((s.incFld (F.CLS_LOOKUPS k)).incFld (F.RULE_MISS k)).applyRule k p f (s.missAct k)))) ∧
  (∀ (s : State) (id k p i : Nat) (f : Frame), s.slicesUp = true → s.frame? id = some f → f.origin = .eth k p → f.stage = .parsed → s.firstOfPort f = true →
    f.exception = false → s.sramPoisoned k ruleBase 0x200000 = false →
    (s.validRules k).find? (fun i => ruleMatches (s.ruleEntry k i) (s.ruleKey k (s.vector f) f.vec.cls) f.vec.cls p) = some i →
    exec (.classificationLookup id) s = .next (s.settle (((s.incFld (F.CLS_LOOKUPS k)).incFld (F.RULE_HITS k i)).applyRule k p f (ruleActOf (s.ruleEntry k i))))) ∧
  (∀ (s : State) (id p : Nat) (f : Frame), s.slicesUp = true → s.frame? id = some f → f.id = id → f.whole = false → (s.idleX f.slice).wakeFrames = [] →
    f.origin = .eth f.slice p → f.stage = .queued →
    (s.linkUp f.slice p = true → cellsFor f.arrived = cellsFor f.data.length → 0 < f.cellWait → Completes s (.macLateVerdict id) fun t =>
      t.frame? id = some { f with whole := true, arrived := f.data.length } ∧ Only [.eth] [] s t) ∧
    (s.linkUp f.slice p = true → cellsFor f.arrived = cellsFor f.data.length → f.cellWait = 0 → Completes s (.macLateVerdict id) fun t =>
      t.frame? id = some { f with whole := true, arrived := f.data.length } ∧
      t.fld (F.PB_ADMIT f.slice (f.cellClass s)) = (s.fld (F.PB_ADMIT f.slice (f.cellClass s)) + 1) % 2 ^ 64 ∧
      Only [.eth] [F.PB_ADMIT f.slice (f.cellClass s)] s t) ∧
    (s.linkUp f.slice p = false → 0 < f.cellWait → Completes s (.macLateVerdict id) fun t =>
      t.frame? id = some { f with whole := true, data := f.data.take f.arrived, arrived := (f.data.take f.arrived).length, macMal := (if f.arrived + 4 < 64 then [1] else []) ++ [2] } ∧ Only [.eth] [] s t)) ∧
  (∀ (s : State) (id k m : Nat) (l : List Nat) (rest : List (Nat × Nat × List Nat)), s.slicesUp = true → s.frame? id = none →
    s.eth.ghosts = (id, k, l) :: rest → m = lowestMal 0 l → Completes s (.macLateVerdict id) fun t =>
      t.eth = { s.eth with ghosts := rest } ∧ (m ≠ 0 → t.fld (F.MAL_COUNT k m) = (s.fld (F.MAL_COUNT k m) + 1) % 2 ^ (F.MAL_COUNT k m).width) ∧
      Only [.eth] (if m = 0 then [] else [F.MAL_COUNT k m]) s t) ∧
  (∀ (s : State) (k : Nat), s.slicesUp = true → k < 4 → s.on (F.PARSE_BANK_DRAINING k) = false → Completes s (.parseBankSwitch .keeper k) fun t =>
      t.fld (F.PARSE_BANK_ACTIVE k) = 1 - s.fld (F.PARSE_BANK_ACTIVE k) ∧
      t.fld (F.PARSE_BANK_DRAINING k) = b2n (s.eth.ctxs.any (fun e => decide (e.1 / 128 = k ∧ e.2.bank = s.fld (F.PARSE_BANK_ACTIVE k)))) ∧
      Only [] [F.PARSE_BANK_ACTIVE k, F.PARSE_BANK_DRAINING k] s t) ∧
  (∀ (s : State) (g : Agent) (k : Nat), s.slicesUp = true → (g ≠ .keeper ∨ s.on (F.PARSE_BANK_DRAINING k) = true) →
      Completes s (.parseBankSwitch g k) fun t => Only [] [] s t) ∧
  (∀ (s : State) (k : Nat), s.slicesUp = true → k < 4 → s.eth.ctxs.all (fun e => decide (e.1 / 128 ≠ k) || decide (e.2.bank = s.fld (F.PARSE_BANK_ACTIVE k))) = true →
    Completes s (.parseBankDrained k) fun t => t.fld (F.PARSE_BANK_DRAINING k) = 0 ∧ Only [] [F.PARSE_BANK_DRAINING k] s t) ∧
  (∀ (s : State) (k : Nat), s.slicesUp = true → s.eth.ctxs.any (fun e => decide (e.1 / 128 = k) && decide (e.2.bank ≠ s.fld (F.PARSE_BANK_ACTIVE k))) = true →
    Completes s (.parseBankDrained k) fun t => Only [] [] s t) ∧
  (∀ (s : State) (g : Agent) (k w : Nat) (v : Word), s.slicesUp = true → ruleSlotOk g k w = true → wordFld v 16 1 = 0 →
    Completes s (.ruleInvalidate g k w v) fun t =>
      t.fld ⟨R.RULE_ENTRY k (wordFld v 0 14) 15, 63, 1⟩ = 0 ∧ t.fld (F.RULE_COMMITS k) = (s.fld (F.RULE_COMMITS k) + 1) % 2 ^ 64 ∧
      Only [] [⟨R.RULE_ENTRY k (wordFld v 0 14) 15, 63, 1⟩, F.RULE_COMMITS k] s t) ∧
  (∀ (s : State) (g : Agent) (k w : Nat) (v : Word), s.slicesUp = true → ruleSlotOk g k w = true → wordFld v 16 1 = 1 →
    Completes s (.ruleCommit g k w v) fun t =>
      (∀ u, u < 15 → t.rd (R.RULE_ENTRY k (wordFld v 0 14) u) = s.rd (R.RULE_STAGE k w u)) ∧
      t.rd (R.RULE_ENTRY k (wordFld v 0 14) 15) = BitVec.ofNat 64 (setBits (s.rd (R.RULE_STAGE k w 15)).toNat 63 63 1) ∧
      t.fld (F.RULE_HITS k (wordFld v 0 14)) = 0 ∧ t.fld (F.RULE_COMMITS k) = (s.fld (F.RULE_COMMITS k) + 1) % 2 ^ 64 ∧
      t.sramPoisoned k (ruleBase + 0x80 * wordFld v 0 14) 0x80 = false ∧
      Only [.poisoned] ((List.range 16).map (fun u => ⟨R.RULE_ENTRY k (wordFld v 0 14) u, 0, 64⟩) ++ [F.RULE_HITS k (wordFld v 0 14), F.RULE_COMMITS k]) s t) ∧
  (∀ (s : State) (g : Agent) (k w : Nat) (v : Word), s.slicesUp = true → ruleSlotOk g k w = false →
    (Completes s (.ruleCommit g k w v) fun t => Only [] [] s t) ∧ (Completes s (.ruleInvalidate g k w v) fun t => Only [] [] s t))

/-- How one cell request is decided. A cell request of class n is granted from the reservation while use is below the minimum; else it contends for a shared cell while use is below the maximum and shared cells are free; else it is refused. The shared pool that a commit shows in PB_SHARED_SIZE is 98,304 minus the four minimums. -/
def Obligations.CellAdmissionDecision : Prop :=
  ∀ (s : State) (k n : Nat),
    (s.pbUse k n < s.pbMin k n → s.cellAnswer k n = .grant) ∧
    (s.pbMin k n ≤ s.pbUse k n → s.pbUse k n < s.pbMax k n → 0 < s.sharedFree k → s.cellAnswer k n = .contend) ∧
    (s.pbMin k n ≤ s.pbUse k n → s.pbMax k n ≤ s.pbUse k n ∨ s.sharedFree k = 0 → s.cellAnswer k n = .refuse) ∧
    (∀ (g : Agent), s.slicesUp = true → k < 4 → accessOk (R.PB_COMMIT k) true g = true → s.pbCommitOk k = true →
      Completes s (.pbCommit g k) fun t =>
        t.fld (F.PB_SHARED_SIZE k) = 98304 - ((s.fld (F.PB_CLASS_MIN k 0)) + (s.fld (F.PB_CLASS_MIN k 1)) + (s.fld (F.PB_CLASS_MIN k 2)) + (s.fld (F.PB_CLASS_MIN k 3))))

/-- Arbitration cycles, back-off, class registers, handoff, commits and the points without back-off. A destination arbitrates at most once in a fabric cycle, over the requests that its interleave serves, its lanes take and no back-off silences. Where there are any it grants a nearest deadline, the losers back off by R85, a decided tie moves the tie pointer, and the counters count; with none present nothing is granted; one that is not ready only notes who waits. A back-off that ran out in an earlier cycle lets its requester present again. A class write takes effect, is pending until the sync, leaves what began before as it was, and lets what begins meanwhile use the old value or one written. A good packet buffer commit replaces the four minimums and maximums in one step and counts a generation; a bad one sets COMMIT_ERR and changes nothing else. A point without back-off decides once in a fabric cycle: the pool grants, refuses or keeps waiting a cell request, the tag pool gives one free tag to the nearest deadline whose instance is below its quota, the HBM scheduler grants the nearest deadline whose timing permits, unless a refresh is due. A frame whose home is another slice, with its cells there granted, moves there. A priority pause holds for its quanta, zero quanta release it, and its expiry ends it. -/
def Obligations.ArbitrationAndSharedPoints : Prop :=
  (∀ (s : State) (hub : Bool) (k d : Nat) (asserted : List ArbReq) (w : ArbReq) (tied : Bool), s.slicesUp = true → arbExists hub k d = true →
    let a := s.arbiter (arbKey hub k d)
    let present := presentReqs a s.time.mono ((asserted.filter (fun r => arbReaches hub d r.target)).filter (fun r => s.laneOpen hub k d r.lane))
    let losers := present.filter (fun r => decide (r.source ≠ w.source))
    a.last ≠ some s.time.mono → arbWinner a s.time.mono present = some (w, tied) →
    Completes s (.arbitrationCycle hub k d asserted true) fun t =>
      let b := t.arbiter (arbKey hub k d)
      b = a.decide s.time.mono w tied losers ∧ b.granted = some (s.time.mono, w.source, w.cls) ∧ b.tie = (if tied then w.source else a.tie) ∧
      (∀ r ∈ present, relDeadline s.time.mono w.deadline ≤ relDeadline s.time.mono r.deadline) ∧
      (∀ r ∈ losers, (b.requester r.source).silentUntil = some (s.time.mono + min (2 ^ (a.requester r.source).losses) 1024)) ∧
      t.fld (arbGrants hub k d) = (s.fld (arbGrants hub k d) + 1) % 2 ^ (arbGrants hub k d).width ∧
      t.fld (arbLosses hub k d) = (s.fld (arbLosses hub k d) + losers.length) % 2 ^ (arbLosses hub k d).width ∧
      Only [.arb, .pmu, .keeperPend] ([arbArbs hub k d, arbGrants hub k d, arbClassGrants hub k w.cls, arbLosses hub k d, arbBackoff hub k d, arbCapped hub k d,
        arbWaitMax hub k d, arbClassWaitMax hub k w.cls, arbLate hub k d, arbClassLate hub k w.cls, arbLateSeen hub k, arbCappedSeen hub k] ++
        uncCounterFlds (if hub then d / 2 else k)) s t) ∧
  (∀ (s : State) (hub : Bool) (k d : Nat) (asserted : List ArbReq), s.slicesUp = true → arbExists hub k d = true →
    let a := s.arbiter (arbKey hub k d)
    let reqs := asserted.filter (fun r => arbReaches hub d r.target)
    a.last ≠ some s.time.mono → presentReqs a s.time.mono (reqs.filter (fun r => s.laneOpen hub k d r.lane)) = [] →
    (reqs = [] ∨ reqs.any (fun r => s.laneOpen hub k d r.lane) = true) →
    Completes s (.arbitrationCycle hub k d asserted true) fun t =>
      t.arbiter (arbKey hub k d) = a.idle s.time.mono ∧ (t.arbiter (arbKey hub k d)).granted = none ∧ Only [.arb, .pmu, .keeperPend] (uncCounterFlds k) s t) ∧
  (∀ (s : State) (hub ready : Bool) (k d : Nat) (asserted : List ArbReq), s.slicesUp = true → arbExists hub k d = true →
    let a := s.arbiter (arbKey hub k d)
    let reqs := asserted.filter (fun r => arbReaches hub d r.target)
    a.last ≠ some s.time.mono → (ready = false ∨ (reqs ≠ [] ∧ ∀ r ∈ reqs, s.laneOpen hub k d r.lane = false)) →
    exec (.arbitrationCycle hub k d asserted ready) s = .next (s.settle (s.setArbiter (arbKey hub k d) (a.hold s.time.mono
      (presentReqs a s.time.mono reqs))))) ∧
  (∀ (s : State) (hub ready : Bool) (k d : Nat) (asserted : List ArbReq), s.slicesUp = true →
    (arbExists hub k d = false ∨ (s.arbiter (arbKey hub k d)).last = some s.time.mono) →
    Completes s (.arbitrationCycle hub k d asserted ready) fun t => Only [] [] s t) ∧
  (∀ (s : State) (hub : Bool) (k d src at' : Nat), s.slicesUp = true → ((s.arbiter (arbKey hub k d)).requester src).silentUntil = some at' →
    (at' < s.time.mono → Completes s (.backoffExpire hub k d src) fun t => t = s.settle (s.setArbiter (arbKey hub k d) ((s.arbiter (arbKey hub k d)).setRequester
      { (s.arbiter (arbKey hub k d)).requester src with silentUntil := none })) ∧ Only [.arb] [] s t) ∧
    (s.time.mono ≤ at' → Completes s (.backoffExpire hub k d src) fun t => Only [] [] s t)) ∧
  (∀ (s : State) (g : Agent) (n v : Nat), s.slicesUp = true → n < 16 → accessOk (R.ARB_DEADLINE n) true g = true → Completes s (.arbClassWrite g (R.ARB_DEADLINE n) v) fun t =>
      t.fld (F.ARB_DEADLINE n) = v % 2 ^ 24 ∧ t.fld F.ARB_SYNC_PENDING = 1 ∧
      (∃ l older, t.arb.classLog = (s.time.mono, R.ARB_DEADLINE n, l) :: older ∧ v % 2 ^ 24 ∈ l ∧ t.classVal (F.ARB_DEADLINE n) ∈ l) ∧
      (∀ t0, t0 < s.time.mono → t.classValAt (F.ARB_DEADLINE n) t0 = s.classValAt (F.ARB_DEADLINE n) t0) ∧
      Only [.arb] [F.ARB_DEADLINE n, F.ARB_SYNC_PENDING] s t) ∧
  (∀ (s : State) (g : Agent) (u v : Nat), s.slicesUp = true → u < 31 → accessOk (R.ARB_UNIT_CLASS u) true g = true → Completes s (.arbClassWrite g (R.ARB_UNIT_CLASS u) v) fun t =>
      t.fld (F.ARB_UNIT_CLASS u) = v % 2 ^ 4 ∧ t.fld F.ARB_SYNC_PENDING = 1 ∧
      (∃ l older, t.arb.classLog = (s.time.mono, R.ARB_UNIT_CLASS u, l) :: older ∧ v % 2 ^ 4 ∈ l ∧ t.classVal (F.ARB_UNIT_CLASS u) ∈ l) ∧
      Only [.arb] [F.ARB_UNIT_CLASS u, F.ARB_SYNC_PENDING] s t) ∧
  (∀ (s : State) (g : Agent) (a v : Nat), s.slicesUp = true → (accessOk a true g && isClassReg a) = false → Completes s (.arbClassWrite g a v) fun t => Only [] [] s t) ∧
  (∀ (s : State), s.slicesUp = true → Completes s .arbSyncDone fun t =>
      t.fld F.ARB_SYNC_PENDING = 0 ∧
      t.arb = { s.arb with classLog := (s.arb.classLog.map (fun e => e.2.1)).eraseDups.map (fun a => (s.time.mono, a, [(s.rd a).toNat])) ++ s.arb.classLog } ∧
      Only [.arb] [F.ARB_SYNC_PENDING] s t) ∧
  (∀ (s : State) (g : Agent) (k : Nat), s.slicesUp = true → k < 4 → accessOk (R.PB_COMMIT k) true g = true →
    (s.pbCommitOk k = true → Completes s (.pbCommit g k) fun t =>
      t.fld (F.PB_STATUS_GEN k) = (s.fld (F.PB_STATUS_GEN k) + 1) % 2 ^ 16 ∧ t.fld (F.PB_STATUS_COMMIT_ERR k) = 0 ∧
      t.eth = { s.eth with pbMin := setFour s.eth.pbMin k (s.pbStaged k).1, pbMax := setFour s.eth.pbMax k (s.pbStaged k).2 } ∧
      Only [.eth] [F.PB_STATUS_GEN k, F.PB_STATUS_COMMIT_ERR k, F.PB_SHARED_SIZE k, F.PB_SHARED_FREE k] s t) ∧
    (s.pbCommitOk k = false → Completes s (.pbCommit g k) fun t => t.fld (F.PB_STATUS_COMMIT_ERR k) = 1 ∧ Only [] [F.PB_STATUS_COMMIT_ERR k] s t)) ∧
  (∀ (s : State) (k p : Nat) (reqs : List ArbReq) (timed : List Nat) (refresh : Bool), s.slicesUp = true →
    (4 ≤ k ∨ 4 ≤ p ∨ s.arb.decided.contains (k, p) = true) → Completes s (.queuedPointDecision k p ⟨reqs, timed, refresh⟩) fun t => Only [] [] s t) ∧
  (∀ (s : State) (k p : Nat) (timed : List Nat) (refresh : Bool), s.slicesUp = true → k < 4 → p < 4 → s.arb.decided.contains (k, p) = false → s.arb.waiting = [] →
    Completes s (.queuedPointDecision k p ⟨[], timed, refresh⟩) fun t => t.arb = { s.arb with decided := (k, p) :: s.arb.decided } ∧ Only [.arb] [] s t) ∧
  (∀ (s : State) (k c id dl src : Nat) (reqs : List ArbReq) (timed : List Nat) (refresh : Bool) (f : Frame), s.slicesUp = true → k < 4 →
    s.arb.decided.contains (k, 0) = false → s.arb.waiting = [⟨.pbPool, k, dl, src, .cell c id⟩] → s.frame? id = some f → f.id = id →
    (s.cellAnswer k c ≠ .refuse → exec (.queuedPointDecision k 0 ⟨reqs, timed, refresh⟩) s = .next (s.settle
      (({ s with arb := { s.arb with decided := (k, 0) :: s.arb.decided, waiting := [] } }.grantCell k c { f with cellWait := f.cellWait - 1 }).countAdmit k id))) ∧
    (s.cellAnswer k c = .refuse → c = 2 → Completes s (.queuedPointDecision k 0 ⟨reqs, timed, refresh⟩) fun t =>
      t.arb = { s.arb with decided := (k, 0) :: s.arb.decided } ∧ Only [.arb] [] s t) ∧
    (s.cellAnswer k c = .refuse → c ≠ 2 → exec (.queuedPointDecision k 0 ⟨reqs, timed, refresh⟩) s = .next (s.settle
      ({ s with arb.decided := (k, 0) :: s.arb.decided }.refuseFrame k c f)))) ∧
  (∀ (s : State) (k i op : Nat) (reqs : List ArbReq) (timed : List Nat) (refresh : Bool) (r : QReq), s.slicesUp = true → k < 4 → s.arb.decided.contains (k, 1) = false →
    (s.rankedReqs .tagPool k).find? (fun r => s.mayTag k r) = some r → r.work = .tag i op → s.fld (F.TAG_INUSE k) < 16384 →
    Completes s (.queuedPointDecision k 1 ⟨reqs, timed, refresh⟩) fun t =>
      t.fld (F.TAG_INUSE k) = s.fld (F.TAG_INUSE k) + 1 ∧ t.tagsOf k i = s.tagsOf k i + 1 ∧
      t.arb = { s.arb with decided := (k, 1) :: s.arb.decided, waiting := s.arb.waiting.erase r, tagGrants := s.arb.tagGrants ++ [(k, i, op)] } ∧
      Only [.arb, .inst, .pmu, .keeperPend] ([F.TAG_INUSE k, F.TAG_PEAK k] ++ uncCounterFlds k) s t) ∧
  (∀ (s : State) (k : Nat) (reqs : List ArbReq) (timed : List Nat) (w : ArbReq) (tied : Bool), s.slicesUp = true → k < 4 → s.arb.decided.contains (k, 2) = false →
    s.arb.waiting = [] → (∀ r ∈ reqs, timed.contains r.stream = true) →
    arbWinner { tie := s.tiePtr k } s.time.mono reqs = some (w, tied) → (∀ a b, a ∈ reqs → b ∈ reqs → a.source = b.source → a = b) →
    Completes s (.queuedPointDecision k 2 ⟨reqs, timed, false⟩) fun t =>
      t.arb.hbmGrants = s.arb.hbmGrants ++ [w.stream] ∧ (tied = true → t.tiePtr k = w.source) ∧ (tied = false → t.tiePtr k = s.tiePtr k) ∧ Only [.arb] [] s t) ∧
  (∀ (s : State) (k : Nat) (reqs : List ArbReq) (timed : List Nat), s.slicesUp = true → k < 4 → s.arb.decided.contains (k, 2) = false →
    Completes s (.queuedPointDecision k 2 ⟨reqs, timed, true⟩) fun t => t.arb.hbmGrants = s.arb.hbmGrants ∧ t.tiePtr k = s.tiePtr k ∧ Only [.arb] [] s t) ∧
  (∀ (s : State) (id h : Nat) (f : Frame), s.slicesUp = true → s.frame? id = some f → f.id = id → f.handle = some h → f.stage = .handled → f.slice ≠ homeOf h →
    s.handoffAsked f (homeOf h) = true → f.cellWait = 0 → exec (.frameHandoff id) s = .next (s.settle (s.handoffDone f (homeOf h)))) ∧
  (∀ (s : State) (id h : Nat) (f : Frame), s.slicesUp = true → s.frame? id = some f → f.id = id → f.handle = some h → f.stage = .handled → f.slice ≠ homeOf h →
    s.handoffAsked f (homeOf h) = true → 0 < f.cellWait → Completes s (.frameHandoff id) fun t => Only [] [] s t) ∧
  (∀ (s : State) (k p pr q : Nat), s.slicesUp = true → 0 < q → Completes s (.priorityPauseReceive k p pr q) fun t =>
      t.isPaused k p pr = true ∧ t.arb.paused = ((k, p, pr), s.time.mono + pauseTicks (s.fld (F.ETH_PORT_MODE k)) q) :: s.arb.paused.filter (fun e => decide (e.1 ≠ (k, p, pr))) ∧
      Only [.arb] [] s t) ∧
  (∀ (s : State) (k p pr : Nat), s.slicesUp = true → Completes s (.priorityPauseReceive k p pr 0) fun t => t.isPaused k p pr = false ∧ Only [.arb] [] s t) ∧
  (∀ (s : State) (k p pr : Nat), s.slicesUp = true → (∀ e ∈ s.arb.paused, e.1 = (k, p, pr) → e.2 ≤ s.time.mono) → Completes s (.priorityPauseExpiry k p pr) fun t =>
      t.isPaused k p pr = false ∧ Only [.arb] [] s t) ∧
  (∀ (s : State) (k p pr : Nat), s.slicesUp = true → (∀ e ∈ s.arb.paused, e.1 = (k, p, pr) → s.time.mono < e.2) → Completes s (.priorityPauseExpiry k p pr) fun t =>
      Only [] [] s t)

/-- Memory errors count, latch and poison. A single-bit error of slice SRAM counts in SRAM_CE and changes nothing else; a double-bit error counts in SRAM_UE, latches its address, poisons its word, sets SRAM_UE_HIT, and interrupts the Keeper when the bit rises and is enabled; in a word of the one frame of the packet buffer it poisons that frame, in the one cached context it puts its queue pair into ERROR, and in the one active ring's descriptors the ring, with SRAM_UNCORRECTABLE. The Keeper's SRAM has no counters: a double-bit error there only poisons. Where the parts of an SRAM stand is the model's choice (log entry 20). The scrubber's read, when the scheduler of its stack is free, counts a corrected HBM location in HBM_CE, and an uncorrectable one in HBM_UE, latching and poisoning it; the last location of a pass counts it. Otherwise the read waits at the scheduler as a request of class 7. -/
def Obligations.MemoryErrors : Prop :=
  (∀ (s : State) (k a : Nat), s.slicesUp = true → k < 4 → Completes s (.sramError k a false) fun t =>
    t.fld (F.SRAM_CE k) = min (s.fld (F.SRAM_CE k) + 1) (2 ^ (F.SRAM_CE k).width - 1) ∧ Only [] [F.SRAM_CE k] s t) ∧
  (∀ (s : State) (k a : Nat), s.slicesUp = true → k < 4 → (a / 8 * 8 < pbBase ∨ (l2Base ≤ a / 8 * 8 ∧ a / 8 * 8 < descBase)) → Completes s (.sramError k a true) fun t =>
    t.fld (F.SRAM_UE k) = min (s.fld (F.SRAM_UE k) + 1) (2 ^ (F.SRAM_UE k).width - 1) ∧ t.fld (F.SRAM_ERR_ADDR k) = a % 2 ^ (F.SRAM_ERR_ADDR k).width ∧
    (1 + k, a / 8 * 8) ∈ t.poisoned ∧ t.fld (F.ORG_INT_STATUS_SRAM_UE_HIT k) = 1 ∧
    (s.on (F.ORG_INT_STATUS_SRAM_UE_HIT k) = false → wordFld (s.rd (R.ORG_INT_ENABLE k)) (F.ORG_INT_STATUS_SRAM_UE_HIT k).lo 1 = 1 →
      t.keeperPend = s.keeperPend ++ [⟨R.ORG_INT_STATUS k, (F.ORG_INT_STATUS_SRAM_UE_HIT k).lo, 0⟩]) ∧
    (s.on (F.ORG_INT_STATUS_SRAM_UE_HIT k) = true → t.keeperPend = s.keeperPend) ∧
    Only [.poisoned, .keeperPend] [F.SRAM_UE k, F.SRAM_ERR_ADDR k, F.ORG_INT_STATUS_SRAM_UE_HIT k] s t) ∧
  (∀ (s : State) (k a : Nat) (f : Frame), s.slicesUp = true → k < 4 → pbBase ≤ a / 8 * 8 → a / 8 * 8 < ctxBase →
    (s.eth.frames.map (fun e => e.2)).filter (fun f => f.cells.any (fun c => decide (c.1 = k))) = [f] → s.nv.cmds = [] → Completes s (.sramError k a true) fun t =>
      t.frame? f.id = some { f with poisoned := true } ∧ (1 + k, a / 8 * 8) ∈ t.poisoned ∧ t.fld (F.ORG_INT_STATUS_SRAM_UE_HIT k) = 1 ∧
      t.fld (F.SRAM_UE k) = min (s.fld (F.SRAM_UE k) + 1) (2 ^ (F.SRAM_UE k).width - 1) ∧ t.fld (F.SRAM_ERR_ADDR k) = a % 2 ^ (F.SRAM_ERR_ADDR k).width ∧
      Only [.eth, .poisoned, .keeperPend] [F.SRAM_UE k, F.SRAM_ERR_ADDR k, F.ORG_INT_STATUS_SRAM_UE_HIT k] s t) ∧
  (∀ (s : State) (k a : Nat), s.slicesUp = true → k < 4 →
    let s2 := ((({ s with poisoned := if s.poisoned.contains (1 + k, a / 8 * 8) then s.poisoned else s.poisoned ++ [(1 + k, a / 8 * 8)] } : State).satFld
      (F.SRAM_UE k) 1).setFld (F.SRAM_ERR_ADDR k) a).raise (F.ORG_INT_STATUS_SRAM_UE_HIT k) (R.ORG_INT_ENABLE k)
    (∀ (q b : Nat), ctxBase ≤ a / 8 * 8 → a / 8 * 8 < l2Base → s2.ctxCache k = [(q, b)] →
      exec (.sramError k a true) s = .next (s.settle (s2.draw.kraError k q St.SRAM_UNCORRECTABLE none))) ∧
    (∀ (q : Nat), descBase ≤ a / 8 * 8 → (s2.listedSrs k).filter (fun q => decide (s2.srState k q = stActive) &&
        !((s2.srx k q).chain.isEmpty && (s2.srx k q).ready.isEmpty)) = [q] →
      exec (.sramError k a true) s = .next (s.settle (s2.draw.srError k q St.SRAM_UNCORRECTABLE)))) ∧
  (∀ (s : State) (a : Nat), s.slicesUp = true → Completes s (.sramError 4 a true) fun t => (5, a / 8 * 8) ∈ t.poisoned ∧ Only [.poisoned] [] s t) ∧
  (∀ (s : State) (a : Nat), s.slicesUp = true → Completes s (.sramError 4 a false) fun t => Only [] [] s t) ∧
  (∀ (s : State) (k a sev : Nat) (last : Bool), s.slicesUp = true → a < hbmSize → k = a / (24 * gib) → s.arb.hbmGrants.contains a = false → s.arb.waiting = [] →
    s.arb.decided.contains (k, 2) = false → Completes s (.hbmScrub a sev last) fun t =>
      t.arb = { s.arb with decided := (k, 2) :: s.arb.decided } ∧
      t.fld (F.HBM_CE k) = min (s.fld (F.HBM_CE k) + (if sev = 1 then 1 else 0)) (2 ^ (F.HBM_CE k).width - 1) ∧
      (sev = 2 → t.fld (F.HBM_UE k) = min (s.fld (F.HBM_UE k) + 1) (2 ^ (F.HBM_UE k).width - 1) ∧ (0, a / 8 * 8) ∈ t.poisoned ∧
        t.fld (F.HBM_ERR_ADDR k) = a % 2 ^ (F.HBM_ERR_ADDR k).width ∧ t.fld (F.ORG_INT_STATUS_HBM_UE_HIT k) = 1) ∧
      t.fld (F.HBM_SCRUB_PASS k) = (s.fld (F.HBM_SCRUB_PASS k) + b2n last) % 2 ^ (F.HBM_SCRUB_PASS k).width ∧
      Only [.arb, .pmu, .keeperPend, .poisoned] ((if sev = 1 then [F.HBM_CE k] else if sev = 2 then [F.HBM_UE k, F.HBM_ERR_ADDR k, F.ORG_INT_STATUS_HBM_UE_HIT k] else []) ++
        (if last then [F.HBM_SCRUB_PASS k] else []) ++ uncCounterFlds k) s t) ∧
  (∀ (s : State) (k a sev : Nat) (last : Bool), s.slicesUp = true → a < hbmSize → k = a / (24 * gib) → s.arb.hbmGrants.contains a = false →
    s.arb.waiting = [] → s.arb.decided.contains (k, 2) = true → Completes s (.hbmScrub a sev last) fun t =>
      t.arb = { s.arb with waiting := [{ point := .hbm, slice := k, deadline := s.deadline 7, source := 27, work := .access a 7 }] } ∧ Only [.arb] [] s t) ∧
  (∀ (s : State) (a sev : Nat) (last : Bool), s.slicesUp = true → a < hbmSize → s.arb.hbmGrants.contains a = true →
    exec (.hbmScrub a sev last) s = .next (s.settle ({ s with arb.hbmGrants := s.arb.hbmGrants.erase a }.scrubRead a sev last))) ∧
  (∀ (s : State) (a sev : Nat) (last : Bool), s.slicesUp = true → hbmSize ≤ a → Completes s (.hbmScrub a sev last) fun t => Only [] [] s t)

/-- Time sources, their measurements, their loss, and steps. GPIO_IN shows the level of TIME_PPS. With source 2 configured a rising edge starts a spacing; one whose spacing is out of range, and in LOCKED one more than 10 us off, is rejected and counted; an accepted one counts towards qualification, the second makes the source valid. A Sync of the client's domain and transport on a configured PTP port is timed at once or by its Follow_Up; each starts a delay request, and with the path delay known measures the offset, which makes that source valid; Delay_Resp, and under the peer-to-peer mechanism Pdelay_Resp with its Follow_Up, give the delay; a Pdelay_Req is answered. A source is lost after what R54 and R317 name: three sync intervals or the Announce timeout, 1.1 s without an edge or no TIME_10M, 50 ms without TIME_SYNC. Lost in ACQUIRE with no backup, the state is FREERUN and REF_LOST and FT_LOSS say so; lost in LOCKED it is HOLDOVER; with a valid backup the backup is acquired. Holdover that has lasted its limit ends in FREERUN. On the backup, a primary that has been valid for 60 s is returned to. A measurement in LOCKED beyond FT_UNLOCK_THRESH loses the lock; in ACQUIRE a 16th small one in a row locks, and one beyond FT_STEP_THRESH steps, or, with STEP_EN 0, slews at FT_SLEW_MAX towards the reference. A permitted change of FT_SRC_SEL or of BACKUP_EN stores and reselects; a write that changes none of the five fields reselects nothing. FT_STEP moves Fabric Time by its nanoseconds in FREERUN or under source 4. The client's message codes, the rounding of nanoseconds, and the Announce timeout of 6 s are the model's choices (log entry 48). -/
def Obligations.TimeSourcesAndDiscipline : Prop :=
  (∀ (s : State) (up : Bool) (n : Nat), s.running = true → (up = false ∨ s.ppsSelected = false) → Completes s (.timePpsEdge ⟨up, n⟩) fun t =>
    t.boot = { s.boot with gpioIn := setBits s.boot.gpioIn 7 7 (b2n up) } ∧ Only [.boot] [] s t) ∧
  (∀ (s : State) (n : Nat), s.running = true → s.ppsSelected = true →
    let b := { s.boot with gpioIn := setBits s.boot.gpioIn 7 7 1 }
    (s.time.ppsSeen = false → Completes s (.timePpsEdge ⟨true, n⟩) fun t =>
      t.boot = b ∧ t.time = { s.time with ppsSeen := true, ppsRun := 0 } ∧ Only [.time, .boot] [] s t) ∧
    (s.time.ppsSeen = true → (n < 9999900 ∨ 10000100 < n ∨ (s.ftState = 2 ∧ 80000 < Int.natAbs s.ppsBoundary.2)) → Completes s (.timePpsEdge ⟨true, n⟩) fun t =>
      t.boot = b ∧ t.time = { s.time with ppsSeen := false, ppsRun := 0 } ∧ t.fld F.FT_PPS_GLITCH = (s.fld F.FT_PPS_GLITCH + 1) % 2 ^ (F.FT_PPS_GLITCH).width ∧
      Only [.time, .boot] [F.FT_PPS_GLITCH] s t) ∧
    (s.time.ppsSeen = true → 9999900 ≤ n → n ≤ 10000100 → ¬ (s.ftState = 2 ∧ 80000 < Int.natAbs s.ppsBoundary.2) → s.on F.FT_PPS_NEXT_SEC_VALID = false →
      s.srcInUse.1 ≠ 2 → s.backKey.1 ≠ 2 ∨ s.ftState = 1 ∨ s.ftState = 2 → s.primKey.1 ≠ 2 ∨ s.ftState = 1 ∨ s.ftState = 2 →
      Completes s (.timePpsEdge ⟨true, n⟩) fun t =>
        t.time = { s.time with ppsRun := s.time.ppsRun + 1, ppsAt := s.time.mono, valid := if 1 ≤ s.time.ppsRun ∧ s.srcValid (2, 0) = false
          then s.time.valid ++ [((2, 0), s.time.mono)] else s.time.valid } ∧ Only [.time, .boot] [] s t) ∧
    (s.time.ppsSeen = true → 9999900 ≤ n → n ≤ 10000100 → ¬ (s.ftState = 2 ∧ 80000 < Int.natAbs s.ppsBoundary.2) → s.on F.FT_PPS_NEXT_SEC_VALID = false →
      s.srcInUse = (2, 0) → (s.ftState = 1 ∨ s.ftState = 2) → s.srcValid (2, 0) = true → exec (.timePpsEdge ⟨true, n⟩) s = .next (s.settle
        ({ s with boot := b, time := { s.time with ppsRun := s.time.ppsRun + 1, ppsAt := s.time.mono } }.ftMeasure s.ppsBoundary.2)))) ∧
  (∀ (s : State) (p : Nat) (m : PtpMsg), s.running = true →
    (¬ (s.primKey = (1, p) ∨ s.backKey = (1, p)) ∨ m.domain ≠ s.time.ptpDomain ∨ m.transport ≠ s.time.ptpTransport) →
    Completes s (.ptpMessageReceive p m) fun t => Only [] [] s t) ∧
  (∀ (s : State) (p : Nat) (m : PtpMsg), s.running = true → (s.primKey = (1, p) ∨ s.backKey = (1, p)) → m.domain = s.time.ptpDomain →
    m.transport = s.time.ptpTransport →
    let x := s.ptpOf p
    let now : Int := s.time.units
    (m.kind = 0xB → Completes s (.ptpMessageReceive p m) fun t => t.time = (s.setPtp { x with announceAt := s.time.mono }).time ∧ Only [.time] [] s t) ∧
    (m.kind = 0 → m.twoStep = true → Completes s (.ptpMessageReceive p m) fun t =>
      t.time = (s.setPtp { x with syncAt := s.time.mono, syncSeq := m.seq, syncRx := s.time.units, syncCorr := m.corr, wait := true }).time ∧ Only [.time] [] s t) ∧
    (m.kind = 0 → m.twoStep = false → exec (.ptpMessageReceive p m) s = .next (s.settle
      (s.ptpSynced { x with syncAt := s.time.mono, syncSeq := m.seq, syncRx := s.time.units, syncCorr := m.corr, wait := false } (m.stamp + m.corr)))) ∧
    (m.kind = 8 → x.wait = true → m.seq = x.syncSeq → exec (.ptpMessageReceive p m) s = .next (s.settle (s.ptpSynced x (m.stamp + x.syncCorr + m.corr)))) ∧
    (m.kind = 9 → s.time.ptpDelayMech ≠ 2 → m.seq = x.reqSeq → Completes s (.ptpMessageReceive p m) fun t =>
      t.time = (s.setPtp { x with delay := some (((x.syncRx - x.sentAt) + (m.stamp - m.corr - x.reqTx)) / 2) }).time ∧ Only [.time] [] s t) ∧
    (m.kind = 3 → s.time.ptpDelayMech = 2 → m.seq = x.reqSeq → Completes s (.ptpMessageReceive p m) fun t =>
      t.time = (s.setPtp (if m.twoStep then { x with peerRx := some (m.stamp + m.corr), respRx := s.time.units }
        else { x with delay := some ((now - x.reqTx - m.corr) / 2) })).time ∧ Only [.time] [] s t) ∧
    (∀ (t2 : Int), m.kind = 0xA → s.time.ptpDelayMech = 2 → m.seq = x.reqSeq → x.peerRx = some t2 → Completes s (.ptpMessageReceive p m) fun t =>
      t.time = (s.setPtp { x with peerRx := none, delay := some (((x.respRx : Int) - x.reqTx - (m.stamp + m.corr - t2)) / 2) }).time ∧ Only [.time] [] s t) ∧
    (m.kind = 2 → s.time.ptpDelayMech = 2 → Completes s (.ptpMessageReceive p m) fun t =>
      t.out = s.out ++ [.ptp p 3 m.seq s.time.units, .ptp p 0xA m.seq s.time.units] ∧ Only [.out] [] s t)) ∧
  (∀ (s : State) (x : PtpPort) (sentAt : Int) (y : PtpPort), y = { x with wait := false, sentAt := sentAt, reqSeq := (x.reqSeq + 1) % 65536, reqTx := s.time.units, peerRx := none } →
    let s1 := (s.setPtp y).emit (.ptp x.port (if s.time.ptpDelayMech = 2 then 2 else 1) y.reqSeq s.time.units)
    (x.delay = none → s.ptpSynced x sentAt = s1) ∧ (∀ d, x.delay = some d → s.ptpSynced x sentAt = s1.srcMeasure (1, x.port) (sentAt + d - x.syncRx))) ∧
  (∀ (s : State) (c p : Nat) (no10M : Bool), s.running = true → 1 ≤ c → c ≤ 3 →
    let key := (c, if c = 1 then p else 0)
    (c = 1 → (s.srcSilent c p no10M = true ↔ (s.ptpOf p).syncAt + 3 * ptpInterval (signed 8 s.time.ptpLogSync) ≤ s.time.mono ∨
      (s.ptpOf p).announceAt + 6 * ticksPerSec ≤ s.time.mono)) ∧
    (c = 2 → (s.srcSilent c p no10M = true ↔ no10M = true ∨ s.time.ppsAt + ticksPerSec * 11 / 10 ≤ s.time.mono)) ∧
    (c = 3 → (s.srcSilent c p no10M = true ↔ s.fed.lastSync + 50 * ticksPerMs ≤ s.time.mono)) ∧
    ((s.time.valid.any (fun e => decide (e.1 = key)) = false ∨ s.srcSilent c p no10M = false) →
      Completes s (.refSourceLost c ⟨p, no10M⟩) fun t => Only [] [] s t) ∧
    (s.time.valid.any (fun e => decide (e.1 = key)) = true → s.srcSilent c p no10M = true → s.srcInUse = key → (s.primKey = key ∨ s.backKey = key) →
      let other := if s.time.onBackup then s.primKey else s.backKey
      (s.ftState = 1 → other.1 = 0 → Completes s (.refSourceLost c ⟨p, no10M⟩) fun t =>
        t.ftState = 0 ∧ t.fld F.FT_STATUS_ACTIVE_SRC = 0 ∧ t.fld F.FT_INT_STATUS_REF_LOST = 1 ∧ t.fld F.FT_LOSS = (s.fld F.FT_LOSS + 1) % 2 ^ (F.FT_LOSS).width ∧
        t.srcValid key = false ∧ Only [.time, .keeperPend] [F.FT_STATUS_STATE, F.FT_STATUS_ACTIVE_SRC, F.FT_INT_STATUS_REF_LOST, F.FT_LOSS] s t) ∧
      (s.ftState = 2 → other.1 = 0 → Completes s (.refSourceLost c ⟨p, no10M⟩) fun t =>
        t.ftState = 3 ∧ t.time.holdSince = s.time.mono ∧ t.fld F.FT_INT_STATUS_REF_LOST = 1 ∧ t.fld F.FT_LOSS = (s.fld F.FT_LOSS + 1) % 2 ^ (F.FT_LOSS).width ∧
        t.srcValid key = false ∧ Only [.time, .keeperPend] [F.FT_STATUS_STATE, F.FT_INT_STATUS_REF_LOST, F.FT_LOSS, F.FT_FREQ_ADJ] s t) ∧
      ((s.ftState = 1 ∨ s.ftState = 2) → other.1 ≠ 4 → other ≠ key → s.srcValid other = true → Completes s (.refSourceLost c ⟨p, no10M⟩) fun t =>
        t.ftState = 1 ∧ t.time.onBackup = (!s.time.onBackup) ∧ t.fld F.FT_STATUS_ACTIVE_SRC = other.1 % 2 ^ (F.FT_STATUS_ACTIVE_SRC).width ∧
        t.fld F.FT_INT_STATUS_SRC_SWITCHED = 1 ∧ t.fld F.FT_INT_STATUS_REF_LOST = 1 ∧ t.srcValid key = false ∧
        Only [.time, .keeperPend] [F.FT_STATUS_STATE, F.FT_STATUS_ACTIVE_SRC, F.FT_INT_STATUS_REF_LOST, F.FT_INT_STATUS_SRC_SWITCHED, F.FT_LOSS] s t))) ∧
  (∀ (s : State) (off : Int),
    (s.ftState = 2 → 8 * s.fld F.FT_UNLOCK_THRESH < Int.natAbs off → (s.ftMeasure off).ftState = 1 ∧ (s.ftMeasure off).fld F.FT_INT_STATUS_LOCK_LOST = 1) ∧
    (s.ftState = 2 → Int.natAbs off ≤ 8 * s.fld F.FT_UNLOCK_THRESH → (s.ftMeasure off).ftState = 2) ∧
    (s.ftState = 1 → Int.natAbs off ≤ 8 * s.fld F.FT_LOCK_THRESH → 15 ≤ s.time.smallRun →
      (s.ftMeasure off).ftState = 2 ∧ (s.ftMeasure off).fld F.FT_INT_STATUS_LOCKED_ENTER = 1) ∧
    (s.ftState = 1 → Int.natAbs off ≤ 8 * s.fld F.FT_LOCK_THRESH → s.time.smallRun < 15 →
      (s.ftMeasure off).ftState = 1 ∧ (s.ftMeasure off).time.smallRun = s.time.smallRun + 1) ∧
    (s.ftState = 1 → 8 * s.fld F.FT_LOCK_THRESH < Int.natAbs off → (s.ftMeasure off).ftState = 1 ∧ (s.ftMeasure off).time.smallRun = 0) ∧
    (s.ftState = 1 → 8 * s.fld F.FT_STEP_THRESH < Int.natAbs off → s.on F.FT_CTRL_STEP_EN = true → (s.ftMeasure off).time.units = ((s.time.units : Int) + off).toNat) ∧
    (8 * s.fld F.FT_STEP_THRESH < Int.natAbs off → s.on F.FT_CTRL_STEP_EN = false →
      s.slew off = s.setFreq (if 0 ≤ off then s.slewMax else -s.slewMax))) ∧
  (∀ (s : State), s.running = true → s.ftState = 3 → s.time.holdSince + s.fld F.FT_HOLDOVER_LIMIT * ticksPerSec ≤ s.time.mono → Completes s .holdoverExpire fun t =>
      t.ftState = 0 ∧ t.fld F.FT_STATUS_ACTIVE_SRC = 0 ∧ t.fld F.FT_INT_STATUS_HOLDOVER_EXPIRED = 1 ∧
      Only [.time, .keeperPend] [F.FT_STATUS_STATE, F.FT_STATUS_ACTIVE_SRC, F.FT_INT_STATUS_HOLDOVER_EXPIRED] s t) ∧
  (∀ (s : State), s.running = true → (s.ftState ≠ 3 ∨ s.time.mono < s.time.holdSince + s.fld F.FT_HOLDOVER_LIMIT * ticksPerSec) →
    Completes s .holdoverExpire fun t => Only [] [] s t) ∧
  (∀ (s : State) (since : Nat), s.running = true → s.time.onBackup = true → (s.ftState = 1 ∨ s.ftState = 2) → s.primKey.1 ≠ 4 → s.srcValid s.primKey = true →
    (s.time.valid.find? (fun e => decide (e.1 = s.primKey))) = some (s.primKey, since) → since + 60 * ticksPerSec ≤ s.time.mono → Completes s .primaryReturn fun t =>
      t.ftState = 1 ∧ t.time.onBackup = false ∧ t.fld F.FT_STATUS_ACTIVE_SRC = s.primKey.1 % 2 ^ (F.FT_STATUS_ACTIVE_SRC).width ∧ t.fld F.FT_INT_STATUS_SRC_SWITCHED = 1 ∧
      Only [.time, .keeperPend] [F.FT_STATUS_STATE, F.FT_STATUS_ACTIVE_SRC, F.FT_INT_STATUS_SRC_SWITCHED] s t) ∧
  (∀ (s : State) (g : Agent) (v : Word), s.running = true → accessOk R.FT_SRC_SEL true g = true →
    let s1 := (((s.setFld F.FT_SRC_SEL_PRIMARY (wordFld v 0 3)).setFld F.FT_SRC_SEL_BACKUP (wordFld v 4 3)).setFld F.FT_SRC_SEL_PTP_PORT (wordFld v 8 5)).setFld
      F.FT_SRC_SEL_BACKUP_PTP_PORT (wordFld v 16 5)
    (s1.rd R.FT_SRC_SEL ≠ s.rd R.FT_SRC_SEL → exec (.ftSrcReselect g R.FT_SRC_SEL v) s = .next (s.settle s1.reselect)) ∧
    (s1.rd R.FT_SRC_SEL = s.rd R.FT_SRC_SEL → Completes s (.ftSrcReselect g R.FT_SRC_SEL v) fun t => Only [] [] s t)) ∧
  (∀ (s : State) (g : Agent) (v : Word), s.running = true → accessOk R.FT_CTRL true g = true →
    let s1 := (s.setFld F.FT_CTRL_STEP_EN (wordFld v 0 1)).setFld F.FT_CTRL_BACKUP_EN (wordFld v 1 1)
    (wordFld v 1 1 ≠ s.fld F.FT_CTRL_BACKUP_EN → exec (.ftSrcReselect g R.FT_CTRL v) s = .next (s.settle s1.reselect)) ∧
    (wordFld v 1 1 = s.fld F.FT_CTRL_BACKUP_EN → Completes s (.ftSrcReselect g R.FT_CTRL v) fun t =>
      t.fld F.FT_CTRL_STEP_EN = wordFld v 0 1 ∧ Only [] [F.FT_CTRL_STEP_EN] s t)) ∧
  (∀ (s : State) (g : Agent) (a : Nat) (v : Word), s.running = true → (accessOk a true g = false ∨ (a ≠ R.FT_SRC_SEL ∧ a ≠ R.FT_CTRL)) →
    Completes s (.ftSrcReselect g a v) fun t => Only [] [] s t) ∧
  (∀ (s : State) (g : Agent) (v : Word), s.running = true → accessOk R.FT_STEP true g = true → (s.ftState = 0 ∨ s.fld F.FT_STATUS_ACTIVE_SRC = 4) → Completes s (.ftStepWrite g v) fun t =>
      t = s.settle (s.ftStep (8 * signed 64 v.toNat)) ∧ t.time.units = ((s.time.units : Int) + 8 * signed 64 v.toNat).toNat ∧
      t.fld F.FT_STEPS = (s.fld F.FT_STEPS + 1) % 2 ^ (F.FT_STEPS).width ∧ t.fld F.FT_INT_STATUS_STEPPED = 1 ∧ t.time.mono = s.time.mono) ∧
  (∀ (s : State) (g : Agent) (v : Word), s.running = true → (accessOk R.FT_STEP true g = false ∨ (s.ftState ≠ 0 ∧ s.fld F.FT_STATUS_ACTIVE_SRC ≠ 4)) → Completes s (.ftStepWrite g v) fun t => Only [] [] s t)

/-- Host discipline and the Fabric Time registers. While source 4 is in use and the state is ACQUIRE or LOCKED, a change of HOST_LOCK to 1 enters LOCKED and sets LOCKED_ENTER, and a change to 0 enters ACQUIRE and sets LOCK_LOST; any other permitted write of it only stores the bit, and a write that is not permitted does nothing. A permitted read of FT_NOW_SEC answers the seconds and latches the fraction of the same instant for its agent; one that is not permitted answers zero. -/
def Obligations.HostLockMovesTheState : Prop :=
  (∀ (s : State) (g : Agent), s.running = true → accessOk R.FT_CTRL true g = true → s.srcInUse.1 = 4 → (s.ftState = 1 ∨ s.ftState = 2) → s.on F.FT_CTRL_HOST_LOCK = false →
    Completes s (.hostLockWrite g true) fun t => t.ftState = 2 ∧ t.fld F.FT_CTRL_HOST_LOCK = 1 ∧ t.fld F.FT_INT_STATUS_LOCKED_ENTER = 1 ∧
      Only [.keeperPend] [F.FT_STATUS_STATE, F.FT_CTRL_HOST_LOCK, F.FT_INT_STATUS_LOCKED_ENTER] s t) ∧
  (∀ (s : State) (g : Agent), s.running = true → accessOk R.FT_CTRL true g = true → s.srcInUse.1 = 4 → (s.ftState = 1 ∨ s.ftState = 2) → s.on F.FT_CTRL_HOST_LOCK = true →
    Completes s (.hostLockWrite g false) fun t => t.ftState = 1 ∧ t.fld F.FT_CTRL_HOST_LOCK = 0 ∧ t.fld F.FT_INT_STATUS_LOCK_LOST = 1 ∧
      Only [.keeperPend] [F.FT_STATUS_STATE, F.FT_CTRL_HOST_LOCK, F.FT_INT_STATUS_LOCK_LOST] s t) ∧
  (∀ (s : State) (g : Agent) (b : Bool), s.running = true → accessOk R.FT_CTRL true g = true →
    (s.srcInUse.1 ≠ 4 ∨ (s.ftState ≠ 1 ∧ s.ftState ≠ 2) ∨ s.on F.FT_CTRL_HOST_LOCK = b) →
    Completes s (.hostLockWrite g b) fun t => t.fld F.FT_CTRL_HOST_LOCK = b2n b ∧ Only [] [F.FT_CTRL_HOST_LOCK] s t) ∧
  (∀ (s : State) (g : Agent) (b : Bool), s.running = true → accessOk R.FT_CTRL true g = false → Completes s (.hostLockWrite g b) fun t => Only [] [] s t) ∧
  (∀ (s : State) (g : Agent), s.running = true → accessOk R.FT_NOW_SEC false g = false → Completes s (.ftNowSecRead g) fun t =>
      t.out = s.out ++ [.readData g R.FT_NOW_SEC 0] ∧ Only [.out] [] s t) ∧
  (∀ (s : State) (g : Agent), s.running = true → accessOk R.FT_NOW_SEC false g = true → Completes s (.ftNowSecRead g) fun t =>
      t.out = s.out ++ [.readData g R.FT_NOW_SEC (s.ftSec % 2 ^ 48)] ∧
      t.time = { s.time with fracLatch := (g, s.ftNow % 2 ^ 48) :: s.time.fracLatch.filter (fun e => decide (e.1 ≠ g)) } ∧ Only [.out, .time] [] s t)

/-- The timer wheel and launches. A permitted TW_ARM inserts a firmware timer at its agent's TW_ARM_TIME and answers 1, or answers 2 and counts TW_FULL when the share is full. A new TW_LEAD applies to the pending entries. The entry that is due first is delivered to its consumer, counted and shown. A held firmware timer that has expired delivers its three doublewords; another held entry lets its consumer's command act. A launch whose entry is held and whose instant has come, on a port that is up, not busy and not paused, less than 2 ns after its time and with no earlier launch of its port waiting late, begins to leave; otherwise it is late, and LATE_ACTION keeps or drops it; without the lock that REQUIRE_LOCK asks for, or on a port that is down, it is dropped with TIME_NOT_LOCKED or TX_LINK_DOWN; an earlier launch of the port that is not yet released comes first. Accesses that are not permitted, and commands with nothing due, do nothing. -/
def Obligations.TimerWheel : Prop :=
  (∀ (s : State) (g : Agent) (k : Nat) (c : Word), s.running = true → accessOk (R.TW_ARM_CTRL k) true g = true → s.twShareFull k = true → Completes s (.twArm g k c) fun t =>
    t.time.armResult = ((g, k), 2) :: s.time.armResult.filter (fun e => decide (e.1 ≠ (g, k))) ∧ t.fld (F.TW_FULL k) = (s.fld (F.TW_FULL k) + 1) % 2 ^ (F.TW_FULL k).width ∧
    Only [.time] [F.TW_FULL k] s t) ∧
  (∀ (s : State) (g : Agent) (k : Nat) (c : Word), s.running = true → k < s.time.wheels.length → accessOk (R.TW_ARM_CTRL k) true g = true → s.twShareFull k = false →
    Completes s (.twArm g k c) fun t =>
    let e := if wordFld c 0 1 = 0 then completeTs s.ftNow (s.armTimeOf g k) else s.armTimeOf g k
    (t.wheel k).pending = (s.wheel k).pending ++ [⟨decide (wordFld c 0 1 = 0), e, .firmware (wordFld c 1 2) (wordFld c 8 6) (wordFld c 32 32), (s.wheel k).seq⟩] ∧
    t.time.armResult = ((g, k), 1) :: s.time.armResult.filter (fun e => decide (e.1 ≠ (g, k))) ∧
    Only [.time] [F.EVENT_HORIZON k, F.TW_ENTRIES k, F.TW_PEAK k] s t) ∧
  (∀ (s : State) (g : Agent) (k v : Nat), s.running = true → accessOk (R.TW_LEAD k) true g = true → Completes s (.twLeadWrite g k v) fun t =>
    t.fld (F.TW_LEAD k) = v % 2 ^ (F.TW_LEAD k).width ∧ t.time = s.time ∧ Only [] [F.TW_LEAD k, F.EVENT_HORIZON k, F.TW_ENTRIES k, F.TW_PEAK k] s t) ∧
  (∀ (s : State) (k : Nat) (e : TwEntry), s.running = true → s.awake k = true → k < s.time.wheels.length → s.twDue k = some e → Completes s (.timerDeliver k) fun t =>
    (t.wheel k).held = (s.wheel k).held ++ [e] ∧ (t.wheel k).pending = (s.wheel k).pending.filter (fun x => decide (x.seq ≠ e.seq)) ∧
    t.fld (F.TW_FIRED k) = (s.fld (F.TW_FIRED k) + 1) % 2 ^ (F.TW_FIRED k).width ∧
    Only [.time] [F.TW_FIRED k, F.EVENT_HORIZON k, F.TW_ENTRIES k, F.TW_PEAK k] s t) ∧
  (∀ (s : State) (k c ch cookie : Nat) (e : TwEntry), s.slicesUp = true → s.twExpired k = some e → e.consumer = .firmware c ch cookie →
    exec (.timerExpiry k) s = .next (s.settle ((s.twRelease k e).hwDeliver k c ch [cookie, ts64 e.expiry, s.time.mono] .timer))) ∧
  (∀ (s : State) (k : Nat) (c : TwConsumer) (e : TwEntry), s.slicesUp = true → k < s.time.wheels.length → s.twExpired k = some e → e.consumer = c → (∀ a b d, c ≠ .firmware a b d) →
    Completes s (.timerExpiry k) fun t => t.twFired k c = true ∧ (t.wheel k).held = (s.wheel k).held.filter (fun x => decide (x.seq ≠ e.seq)) ∧ Only [.time] [] s t) ∧
  (∀ (s : State) (g : Agent) (k v : Nat) (c : Word), s.running = true →
    (accessOk (R.TW_ARM_CTRL k) true g = false → Completes s (.twArm g k c) fun t => Only [] [] s t) ∧
    (accessOk (R.TW_LEAD k) true g = false → Completes s (.twLeadWrite g k v) fun t => Only [] [] s t) ∧
    ((s.awake k = false ∨ s.twDue k = none) → Completes s (.timerDeliver k) fun t => Only [] [] s t)) ∧
  (∀ (s : State) (k : Nat), s.slicesUp = true → s.twExpired k = none → Completes s (.timerExpiry k) fun t => Only [] [] s t) ∧
  (∀ (s : State) (k id : Nat) (e : Egress), s.slicesUp = true → s.egress? id = some e → e.slice = k → e.released = false → s.launchDue e = true →
    (s.wheel k).held.any (fun w => decide (w.consumer = .launch id)) = true →
    let others := (s.portEgress k e.port).filter (fun x => decide (x.id ≠ e.id) && x.leadsLaunch e && !x.begun)
    let locked := s.on (F.TX_LAUNCH_CTRL_REQUIRE_LOCK k e.port) = false ∨ s.timeLocked = true
    let late := (e.launch.getD 0) * unitsPerSec + 16 * 2 ^ 48 ≤ s.time.units * 2 ^ 48 ∨ s.portBusy k e.port = true ∨ others.any (fun x => x.late) = true ∨
      s.isPaused k e.port e.pcp = true
    (others.any (fun x => !x.released) = true → Completes s (.launchRelease k id) fun t => Only [] [] s t) ∧
    (others.any (fun x => !x.released) = false → ¬ locked → exec (.launchRelease k id) s = .next (s.settle ((s.twCancel k (.launch id)).dropEgress e St.TIME_NOT_LOCKED))) ∧
    (others.any (fun x => !x.released) = false → locked → s.linkUp k e.port = false →
      exec (.launchRelease k id) s = .next (s.settle ((s.twCancel k (.launch id)).dropEgress e St.TX_LINK_DOWN))) ∧
    (others.any (fun x => !x.released) = false → locked → s.linkUp k e.port = true → late →
      exec (.launchRelease k id) s = .next (s.settle ((s.twCancel k (.launch id)).lateLaunch e))) ∧
    (others.any (fun x => !x.released) = false → locked → s.linkUp k e.port = true → ¬ late →
      exec (.launchRelease k id) s = .next (s.settle ((s.twCancel k (.launch id)).beginEgress e)))) ∧
  (∀ (s : State) (k id : Nat) (e : Egress), s.slicesUp = true → s.egress? id = some e →
    (e.slice ≠ k ∨ e.released = true ∨ s.launchDue e = false ∨ (s.wheel k).held.any (fun w => decide (w.consumer = .launch id)) = false) →
    Completes s (.launchRelease k id) fun t => Only [] [] s t)

/-- WFI executes exactly as WAITSPIN. For every thread and every state WFI and WAITSPIN answer the same, and a thread that runs is still RUNNING after it and goes on at the next instruction: it never sleeps. -/
def Obligations.WfiIsWaitspin : Prop :=
  ∀ (s : State) (sl k i : Nat), exec (.wfi sl k i) s = exec (.waitspin sl k i) s ∧
    (s.slicesUp = true → s.canIssue sl k i = true → Completes s (.wfi sl k i) fun t => t.thState sl k i = thRunning ∧ t.pc sl k i = (s.pc sl k i + 4) % 2 ^ 64)

/-- FTREAD returns Fabric Time and FT_MONO. By a thread that can issue, FTREAD with selector 0 writes the seconds, zero-extended from 48 bits, and latches the fraction for the thread alone; selector 1 writes the latched fraction; selector 2 writes FT_MONO. A write of x0 is discarded. A selector 0 read followed by a selector 1 read by the same thread returns both parts of one instant, whatever other threads read in between, since the latch is the thread's own. A selector above 2 is an illegal instruction. A thread that cannot issue executes nothing. -/
def Obligations.FtreadReturnsTime : Prop :=
  ∀ (s : State) (sl k i rd : Nat), s.slicesUp = true → rd < 32 →
    (s.canIssue sl k i = true →
    (Completes s (.ftread sl k i rd 0) fun t =>
      t.xreg sl k i rd = (if rd = 0 then 0 else BitVec.ofNat 64 (s.ftSec % 2 ^ 48)) ∧ (t.thx sl k i).ftLatch = s.ftNow % 2 ^ 48 ∧
      (∀ n, n ≠ thKey sl k i → Map.find? t.core.threads n = Map.find? s.core.threads n)) ∧
    (Completes s (.ftread sl k i rd 1) fun t => t.xreg sl k i rd = (if rd = 0 then 0 else BitVec.ofNat 64 (s.thx sl k i).ftLatch) ∧ t.core.threads = s.core.threads) ∧
    (Completes s (.ftread sl k i rd 2) fun t => t.xreg sl k i rd = (if rd = 0 then 0 else BitVec.ofNat 64 s.time.mono) ∧ t.core.threads = s.core.threads) ∧
    (∀ j, j < 3 → Completes s (.ftread sl k i rd j) fun t =>
      t.pc sl k i = (s.pc sl k i + 4) % 2 ^ 64 ∧ Only [.threads, .issue] (retireFlds sl k i rd) s t) ∧
    (∀ j, 3 ≤ j → Completes s (.ftread sl k i rd j) fun t => Traps s t sl k i 2 (Config.trapTval 2 (0x500B + 128 * rd + 2 ^ 25 * j)) [])) ∧
    (∀ j, s.canIssue sl k i = false → Completes s (.ftread sl k i rd j) fun t => Only [] [] s t)

/-- WAITSPIN pauses and marks; stalls and deadlocks are found. WAITSPIN by a thread that can issue sets its spinning mark and pauses it for WAITSPIN_PAUSE core cycles of its slice, in which it cannot issue; a thread that cannot issue executes nothing. The pause ends once those cycles have passed, and the mark once SPIN_WINDOW cycles (0 acts as 1, the model's choice, log entry 39) have passed since the last WAITSPIN; before that the two events do nothing. While the stall condition holds, SPIN_COUNT at the limit raises the stall once in an episode: it counts, and queues a record unless one waits. DEADLOCK_COUNT at the limit counts, shows DEADLOCKED and tells the Keeper, once. Below the limits, or raised already, nothing happens. -/
def Obligations.SpinningAndPauses : Prop :=
  (∀ (s : State) (sl k i : Nat), s.slicesUp = true → s.canIssue sl k i = true → Completes s (.waitspin sl k i) fun t =>
    t.on (F.THREAD_STATE_SPINNING sl k i) = true ∧ t.pc sl k i = (s.pc sl k i + 4) % 2 ^ 64 ∧ t.canIssue sl k i = false ∧
    t.thx sl k i = { s.thx sl k i with pauseUntil := some (s.sliceCycles sl + s.fld (F.WAITSPIN_PAUSE sl k)), lastSpin := s.sliceCycles sl } ∧
    (∀ n, n ≠ thKey sl k i → Map.find? t.core.threads n = Map.find? s.core.threads n) ∧
    Only [.threads, .issue] (spinFlds sl k i ++ [⟨R.THREAD_PC sl k i, 0, 64⟩, F.THREAD_INSTRET sl k i] ++ coreCounterFlds sl k) s t) ∧
  (∀ (s : State) (sl k i : Nat), s.slicesUp = true → s.canIssue sl k i = false → Completes s (.waitspin sl k i) fun t => Only [] [] s t) ∧
  (∀ (s : State) (sl k i : Nat), s.slicesUp = true → (∀ c, (s.thx sl k i).pauseUntil = some c →
    (c ≤ s.sliceCycles sl → Completes s (.waitspinPauseEnd sl k i) fun t =>
      t.thx sl k i = { s.thx sl k i with pauseUntil := none } ∧ (∀ n, n ≠ thKey sl k i → Map.find? t.core.threads n = Map.find? s.core.threads n) ∧
      Only [.threads] [] s t) ∧
    (s.sliceCycles sl < c → Completes s (.waitspinPauseEnd sl k i) fun t => Only [] [] s t)) ∧
    ((s.thx sl k i).pauseUntil = none → Completes s (.waitspinPauseEnd sl k i) fun t => Only [] [] s t)) ∧
  (∀ (s : State) (sl k i : Nat), s.slicesUp = true →
    ((s.thx sl k i).lastSpin + max 1 (s.fld (F.SPIN_WINDOW sl k)) ≤ s.sliceCycles sl → Completes s (.spinWindowExpire sl k i) fun t =>
      t.on (F.THREAD_STATE_SPINNING sl k i) = false ∧ Only [.clusters] (spinFlds sl k i) s t) ∧
    (s.sliceCycles sl < (s.thx sl k i).lastSpin + max 1 (s.fld (F.SPIN_WINDOW sl k)) → Completes s (.spinWindowExpire sl k i) fun t => Only [] [] s t)) ∧
  (∀ (s : State) (sl k : Nat), s.slicesUp = true →
    (s.stallHolds sl k = true → s.spinLimit sl k ≤ s.fld (F.SPIN_COUNT sl k) → (s.clx sl k).stallRaised = false → (s.clx sl k).broken = false →
      ((s.clx sl k).faults.any (fun r => decide (r.code = 48)) = false → Completes s (.clusterStall sl k) fun t =>
        t.clx sl k = { s.clx sl k with stallRaised := true, faults := (s.clx sl k).faults ++ [⟨0, 48, true, 0, 0, s.time.mono⟩] } ∧
        Counts s t (F.STALL_EVENTS sl k) 1 ∧ t.fld (F.FAULT_COUNT sl k) = ((s.clx sl k).faults.length + 1) % 2 ^ (F.FAULT_COUNT sl k).width ∧
        (∀ n, n ≠ clKey sl k → Map.find? t.core.clusters n = Map.find? s.core.clusters n) ∧
        Only [.clusters] [F.STALL_EVENTS sl k, F.FAULT_COUNT sl k] s t) ∧
      ((s.clx sl k).faults.any (fun r => decide (r.code = 48)) = true → Completes s (.clusterStall sl k) fun t =>
        t.clx sl k = { s.clx sl k with stallRaised := true } ∧ Counts s t (F.STALL_EVENTS sl k) 1 ∧ Only [.clusters] [F.STALL_EVENTS sl k] s t)) ∧
    (s.stallHolds sl k = false ∨ s.fld (F.SPIN_COUNT sl k) < s.spinLimit sl k ∨ (s.clx sl k).stallRaised = true ∨ (s.clx sl k).broken = true →
      Completes s (.clusterStall sl k) fun t => Only [] [] s t)) ∧
  (∀ (s : State) (sl k : Nat), s.slicesUp = true →
    (s.spinLimit sl k ≤ s.fld (F.DEADLOCK_COUNT sl k) → (s.clx sl k).deadlockRaised = false → Completes s (.clusterDeadlock sl k) fun t =>
      t.fld (F.CLUSTER_STATE sl k) = 3 ∧ Counts s t (F.DEADLOCK_EVENTS sl k) 1 ∧ t.clx sl k = { s.clx sl k with deadlockRaised := true } ∧
      t.keeperPend = s.keeperPend ++ [⟨R.CLUSTER_STATE sl k, 0, clKey sl k⟩] ∧
      Only [.clusters, .keeperPend] [F.CLUSTER_STATE sl k, F.DEADLOCK_EVENTS sl k] s t) ∧
    (s.fld (F.DEADLOCK_COUNT sl k) < s.spinLimit sl k ∨ (s.clx sl k).deadlockRaised = true → Completes s (.clusterDeadlock sl k) fun t => Only [] [] s t)) ∧
  (∀ (s : State) (sl k : Nat), s.spinLimit sl k = max 0x400 (s.fld (F.SPIN_LIMIT sl k)) ∧
    (s.stallHolds sl k = true ↔ (∃ i, 0 < i ∧ i < 32 ∧ s.thState sl k i = thRunning) ∧
      (∀ i, 0 < i → i < 32 → s.thState sl k i = thParked ∨ (s.thState sl k i = thRunning ∧ s.on (F.THREAD_STATE_SPINNING sl k i) = true))))

/-- The channel instructions, hardware delivery and aborts. CHOPEN writes its result: DENIED to a thread whose domain may not write, else ALREADY_WRITING to one that holds another channel open, else BUSY where the channel is not FREE, which counts, else it opens the channel, empty, for the thread. CHPUT by the holder appends a doubleword to a message of fewer than eight, and CHCLOSE makes it READY. CHGET traps for a thread that is not the reader; else mode 0 returns the status word, modes 1 and 2 the doubleword, modes 2 and 3 free a READY channel. A hardware message makes a FREE channel READY at once, waits where the channel is not FREE or one waits already, and is lost and counted where hardware may not write or the queue is full; a waiting one is delivered, or lost, once the channel is FREE. CH_ABORT by an agent that may write it frees an OPEN or READY channel, counts, and flags the writer of an OPEN one; of a FREE channel, or by anyone else, it does nothing. A thread that cannot issue executes none of these. -/
def Obligations.ChannelInstructions : Prop :=
  (∀ (s : State) (sl k i rd rs1 : Nat), s.slicesUp = true → s.canIssue sl k i = true → rd < 32 → Completes s (.chopen sl k i rd rs1) fun t =>
    let m := (s.xreg sl k i rs1).toNat % 64
    let may := if i ≠ 0 ∧ s.on (F.THREAD_CTRL_DOMAIN sl k i) = true then s.on (F.CH_BIND_CUSTOMER_WRITE sl k m) else s.on (F.CH_BIND_VENDOR_WRITE sl k m)
    let other := s.on (F.THREAD_STATE_HOLDS_OPEN sl k i) && decide (s.fld (F.THREAD_STATE_CHANNEL sl k i) ≠ m)
    t.pc sl k i = (s.pc sl k i + 4) % 2 ^ 64 ∧
    (may = false → t.xreg sl k i rd = (if rd = 0 then 0 else 2) ∧ Only [.issue] (retireFlds sl k i rd) s t) ∧
    (may = true → other = true → t.xreg sl k i rd = (if rd = 0 then 0 else 3) ∧ Only [.issue] (retireFlds sl k i rd) s t) ∧
    (may = true → other = false → s.chState sl k m ≠ 0 → t.xreg sl k i rd = (if rd = 0 then 0 else 1) ∧ Counts s t (F.CH_OPEN_BUSY sl k) 1 ∧
      Only [.issue] (F.CH_OPEN_BUSY sl k :: retireFlds sl k i rd) s t) ∧
    (may = true → other = false → s.chState sl k m = 0 → t.xreg sl k i rd = 0 ∧ t.chState sl k m = 1 ∧ t.fld (F.CH_STATE_WRITER sl k m) = i ∧
      t.chMsg sl k m = [] ∧ t.holdsOpen sl k i m = true ∧ t.on (F.THREAD_STATE_SPINNING sl k i) = false ∧
      (∀ n, n ≠ 64 * clKey sl k + m → Map.find? t.core.chData n = Map.find? s.core.chData n) ∧
      Only [.clusters, .chans, .issue] (chFlds sl k m ++ holdFlds sl k i ++ spinFlds sl k i ++ retireFlds sl k i rd) s t)) ∧
  (∀ (s : State) (sl k i rs1 rs2 : Nat), s.slicesUp = true → s.canIssue sl k i = true → s.on (F.THREAD_STATE_ABORTED sl k i) = false →
    let m := (s.xreg sl k i rs1).toNat % 64
    s.holdsOpen sl k i m = true →
    ((s.chMsg sl k m).length < 8 → Completes s (.chput sl k i rs1 rs2) fun t =>
      t.chMsg sl k m = s.chMsg sl k m ++ [(s.xreg sl k i rs2).toNat] ∧ t.fld (F.CH_STATE_COUNT sl k m) = (s.chMsg sl k m).length + 1 ∧
      t.pc sl k i = (s.pc sl k i + 4) % 2 ^ 64 ∧ t.on (F.THREAD_STATE_SPINNING sl k i) = false ∧
      (∀ n, n ≠ 64 * clKey sl k + m → Map.find? t.core.chData n = Map.find? s.core.chData n) ∧
      Only [.clusters, .chans, .issue] (F.CH_STATE_COUNT sl k m :: spinFlds sl k i ++ retireFlds sl k i 0) s t) ∧
    (Completes s (.chclose sl k i rs1) fun t =>
      t.chState sl k m = 2 ∧ t.chMsg sl k m = s.chMsg sl k m ∧ t.on (F.THREAD_STATE_HOLDS_OPEN sl k i) = false ∧ Counts s t (F.CH_MSGS sl k) 1 ∧
      t.pc sl k i = (s.pc sl k i + 4) % 2 ^ 64 ∧ t.on (F.THREAD_STATE_SPINNING sl k i) = false ∧
      Only [.clusters, .issue] (F.CH_STATE_STATE sl k m :: F.CH_MSGS sl k :: holdFlds sl k i ++ spinFlds sl k i ++ retireFlds sl k i 0) s t)) ∧
  (∀ (s : State) (sl k i rd rs1 : Nat), s.slicesUp = true → s.canIssue sl k i = true → rd < 32 →
    let op := (s.xreg sl k i rs1).toNat
    let m := op % 64
    let ready := decide (s.chState sl k m = 2)
    let word := if ready = true ∧ bitsOf op 10 8 < (s.chMsg sl k m).length then (s.chMsg sl k m).getD (bitsOf op 10 8) 0 else 0
    let hw := s.on (F.CH_STATE_HW sl k m)
    let status := b2n ready + 2 * (if ready = true then (s.chMsg sl k m).length else 0) + 256 * (if hw = true then 0 else s.fld (F.CH_STATE_WRITER sl k m)) + 8192 * b2n hw
    (s.fld (F.CH_BIND_READER sl k m) ≠ i → Completes s (.chget sl k i rd rs1) fun t => Traps s t sl k i 27 0 []) ∧
    (s.fld (F.CH_BIND_READER sl k m) = i → bitsOf op 13 12 = 0 → Completes s (.chget sl k i rd rs1) fun t =>
      t.xreg sl k i rd = (if rd = 0 then 0 else BitVec.ofNat 64 status) ∧ t.pc sl k i = (s.pc sl k i + 4) % 2 ^ 64 ∧ Only [.issue] (retireFlds sl k i rd) s t) ∧
    (s.fld (F.CH_BIND_READER sl k m) = i → bitsOf op 13 12 = 1 ∨ ready = false ∧ 1 ≤ bitsOf op 13 12 → Completes s (.chget sl k i rd rs1) fun t =>
      t.xreg sl k i rd = (if rd = 0 ∨ bitsOf op 13 12 = 3 then 0 else BitVec.ofNat 64 word) ∧ t.pc sl k i = (s.pc sl k i + 4) % 2 ^ 64 ∧
      t.on (F.THREAD_STATE_SPINNING sl k i) = false ∧ Only [.clusters, .issue] (spinFlds sl k i ++ retireFlds sl k i rd) s t) ∧
    (s.fld (F.CH_BIND_READER sl k m) = i → 2 ≤ bitsOf op 13 12 → ready = true → Completes s (.chget sl k i rd rs1) fun t =>
      t.xreg sl k i rd = (if rd = 0 ∨ bitsOf op 13 12 = 3 then 0 else BitVec.ofNat 64 word) ∧ t.pc sl k i = (s.pc sl k i + 4) % 2 ^ 64 ∧
      t.chState sl k m = 0 ∧ t.chMsg sl k m = [] ∧ t.on (F.THREAD_STATE_SPINNING sl k i) = false ∧
      (∀ n, n ≠ 64 * clKey sl k + m → Map.find? t.core.chData n = Map.find? s.core.chData n) ∧
      Only [.clusters, .chans, .issue] (chFlds sl k m ++ spinFlds sl k i ++ retireFlds sl k i rd) s t)) ∧
  (∀ (s : State) (sl k i rd rs1 rs2 : Nat), s.slicesUp = true → s.canIssue sl k i = false →
    (Completes s (.chopen sl k i rd rs1) fun t => Only [] [] s t) ∧ (Completes s (.chput sl k i rs1 rs2) fun t => Only [] [] s t) ∧
    (Completes s (.chclose sl k i rs1) fun t => Only [] [] s t) ∧ (Completes s (.chget sl k i rd rs1) fun t => Only [] [] s t)) ∧
  (∀ (s : State) (sl k m : Nat) (l : List Nat), s.slicesUp = true → m < 64 → l.length ≤ 8 →
    let waits := (s.clx sl k).deferred.any (fun e => decide (e.1 = m))
    (s.on (F.CH_BIND_HW_WRITE sl k m) = true → s.chState sl k m = 0 → waits = false → Completes s (.hwChannelDelivery sl k m l) fun t =>
      t.chState sl k m = 2 ∧ t.chMsg sl k m = l ∧ t.on (F.CH_STATE_HW sl k m) = true ∧ t.fld (F.CH_STATE_COUNT sl k m) = l.length ∧
      Counts s t (F.CH_MSGS sl k) 1 ∧ (∀ n, n ≠ 64 * clKey sl k + m → Map.find? t.core.chData n = Map.find? s.core.chData n) ∧
      Only [.chans] [F.CH_STATE_STATE sl k m, F.CH_STATE_COUNT sl k m, F.CH_STATE_HW sl k m, F.CH_MSGS sl k] s t) ∧
    (s.on (F.CH_BIND_HW_WRITE sl k m) = true → (s.chState sl k m ≠ 0 ∨ waits = true) → (s.clx sl k).deferred.length < 32 →
      Completes s (.hwChannelDelivery sl k m l) fun t =>
      t.clx sl k = { s.clx sl k with deferred := (s.clx sl k).deferred ++ [(m, l, .plain)] } ∧ Counts s t (F.CH_HW_DEFER sl k) 1 ∧
      (∀ n, n ≠ clKey sl k → Map.find? t.core.clusters n = Map.find? s.core.clusters n) ∧ Only [.clusters] [F.CH_HW_DEFER sl k] s t) ∧
    (s.on (F.CH_BIND_HW_WRITE sl k m) = false ∨ (s.chState sl k m ≠ 0 ∨ waits = true) ∧ 32 ≤ (s.clx sl k).deferred.length →
      Completes s (.hwChannelDelivery sl k m l) fun t => Counts s t (F.CH_HW_DROP sl k) 1 ∧
      (if (s.clx sl k).faults.any (fun r => decide (r.code = 49)) = true then Only [] [F.CH_HW_DROP sl k] s t
        else (t.clx sl k).faults = (s.clx sl k).faults ++ [⟨0, 49, true, 0, m, s.time.mono⟩] ∧ (t.clx sl k).deferred = (s.clx sl k).deferred ∧
          Only [.clusters] [F.CH_HW_DROP sl k, F.FAULT_COUNT sl k] s t))) ∧
  (∀ (s : State) (sl k m : Nat), s.slicesUp = true → sl < 4 → k < 4 → m < 64 →
    (∀ (l : List Nat) (h : HwMsg) (rest : List (Nat × List Nat × HwMsg)), s.chState sl k m = 0 → takeFirst (fun e => decide (e.1 = m)) (s.clx sl k).deferred = some ((m, l, h), rest) →
      (s.on (F.CH_BIND_HW_WRITE sl k m) = true → Completes s (.deferredDeliveryRelease sl k m) fun t =>
        t.chState sl k m = 2 ∧ t.chMsg sl k m = h.stamped s.time.mono l ∧ t.on (F.CH_STATE_HW sl k m) = true ∧ t.clx sl k = { s.clx sl k with deferred := rest } ∧
        Counts s t (F.CH_MSGS sl k) 1 ∧ (∀ n, n ≠ 64 * clKey sl k + m → Map.find? t.core.chData n = Map.find? s.core.chData n) ∧
        Only [.clusters, .chans] [F.CH_STATE_STATE sl k m, F.CH_STATE_COUNT sl k m, F.CH_STATE_HW sl k m, F.CH_MSGS sl k] s t) ∧
      (s.on (F.CH_BIND_HW_WRITE sl k m) = false → h = .plain → Completes s (.deferredDeliveryRelease sl k m) fun t =>
        (t.clx sl k).deferred = rest ∧ Counts s t (F.CH_HW_DROP sl k) 1 ∧
        ((s.clx sl k).faults.any (fun r => decide (r.code = 49)) = false → (t.clx sl k).faults = (s.clx sl k).faults ++ [⟨0, 49, true, 0, m, s.time.mono⟩]) ∧
        Only [.clusters] [F.CH_HW_DROP sl k, F.FAULT_COUNT sl k] s t)) ∧
    (s.chState sl k m ≠ 0 ∨ (s.clx sl k).deferred.all (fun e => decide (e.1 ≠ m)) = true → Completes s (.deferredDeliveryRelease sl k m) fun t => Only [] [] s t)) ∧
  (∀ (now : Nat) (l : List Nat), (HwMsg.stamped .plain now l = l) ∧ (HwMsg.stamped .timer now l = l.set 2 now) ∧ (∀ x, HwMsg.stamped (.token x) now l = l.set 3 now)) ∧
  (∀ (s : State) (g : Agent) (sl k m : Nat), s.slicesUp = true → sl < 4 → k < 4 → m < 64 →
    (accessOk (R.CH_ABORT sl k) true g = true → s.chState sl k m = 1 → Completes s (.chAbort g sl k m) fun t =>
      t.chState sl k m = 0 ∧ t.chMsg sl k m = [] ∧ Counts s t (F.CH_ABORTS sl k) 1 ∧ t.on (F.THREAD_STATE_ABORTED sl k (s.fld (F.CH_STATE_WRITER sl k m))) = true ∧
      t.on (F.THREAD_STATE_HOLDS_OPEN sl k (s.fld (F.CH_STATE_WRITER sl k m))) = false ∧
      (∀ n, n ≠ 64 * clKey sl k + m → Map.find? t.core.chData n = Map.find? s.core.chData n) ∧
      Only [.chans] (F.CH_ABORTS sl k :: F.THREAD_STATE_ABORTED sl k (s.fld (F.CH_STATE_WRITER sl k m)) :: chFlds sl k m ++ holdFlds sl k (s.fld (F.CH_STATE_WRITER sl k m))) s t) ∧
    (accessOk (R.CH_ABORT sl k) true g = true → s.chState sl k m = 2 → Completes s (.chAbort g sl k m) fun t =>
      t.chState sl k m = 0 ∧ t.chMsg sl k m = [] ∧ Counts s t (F.CH_ABORTS sl k) 1 ∧ (∀ n, n ≠ 64 * clKey sl k + m → Map.find? t.core.chData n = Map.find? s.core.chData n) ∧
      Only [.chans] (F.CH_ABORTS sl k :: chFlds sl k m) s t) ∧
    (accessOk (R.CH_ABORT sl k) true g = false ∨ s.chState sl k m = 0 → Completes s (.chAbort g sl k m) fun t => Only [] [] s t) ∧
    (accessOk (R.CH_ABORT sl k) true g = true ↔ g = .keeper ∨ g = .debug))

/-- What CHPUT and CHCLOSE check, in order. For every thread that can issue, the Curator too: with the ABORTED flag set, CHPUT and CHCLOSE trap CHANNEL_ABORTED and clear the flag; else, not holding the named channel open, they trap CHANNEL_NOT_OWNER; else a ninth CHPUT traps CHANNEL_OVERFLOW and leaves the message; else they go on: a message may have from 0 to 8 doublewords, and CHCLOSE of one with none sends an empty message. These traps' value is 0, which is the model's choice (log entry 8). -/
def Obligations.ChannelWriteChecksInOrder : Prop :=
  ∀ (s : State) (sl k i rs1 rs2 : Nat), s.slicesUp = true → s.canIssue sl k i = true →
    let m := (s.xreg sl k i rs1).toNat % 64
    (s.on (F.THREAD_STATE_ABORTED sl k i) = true →
      (Completes s (.chput sl k i rs1 rs2) fun t => t.on (F.THREAD_STATE_ABORTED sl k i) = false ∧ Traps s t sl k i 26 0 [F.THREAD_STATE_ABORTED sl k i]) ∧
      (Completes s (.chclose sl k i rs1) fun t => t.on (F.THREAD_STATE_ABORTED sl k i) = false ∧ Traps s t sl k i 26 0 [F.THREAD_STATE_ABORTED sl k i])) ∧
    (s.on (F.THREAD_STATE_ABORTED sl k i) = false → s.holdsOpen sl k i m = false →
      (Completes s (.chput sl k i rs1 rs2) fun t => Traps s t sl k i 24 0 []) ∧ (Completes s (.chclose sl k i rs1) fun t => Traps s t sl k i 24 0 [])) ∧
    (s.on (F.THREAD_STATE_ABORTED sl k i) = false → s.holdsOpen sl k i m = true → 8 ≤ (s.chMsg sl k m).length → Completes s (.chput sl k i rs1 rs2) fun t => Traps s t sl k i 25 0 []) ∧
    (s.on (F.THREAD_STATE_ABORTED sl k i) = false → s.holdsOpen sl k i m = true →
      (Completes s (.chclose sl k i rs1) fun t => t.chState sl k m = 2 ∧ t.chMsg sl k m = s.chMsg sl k m ∧ t.thState sl k i = thRunning) ∧
      ((s.chMsg sl k m).length < 8 → Completes s (.chput sl k i rs1 rs2) fun t => t.chMsg sl k m = s.chMsg sl k m ++ [(s.xreg sl k i rs2).toNat] ∧ t.thState sl k i = thRunning)) ∧
    (s.holdsOpen sl k i m = true ↔ s.on (F.THREAD_STATE_HOLDS_OPEN sl k i) = true ∧ s.fld (F.THREAD_STATE_CHANNEL sl k i) = m)

/-- Core instructions, counter reads, traps and returns. A thread that can issue, where nothing stops its fetch, executes the instruction it fetched: an arithmetic one writes rd and moves the PC on, JAL and JALR link and jump, a branch goes to its target or on; a load from HBM that no trigger, line crossing, region or poison stops writes rd, and such a store writes its bytes and no other of HBM, each of them trapping with the code of what stops it. A fetch that is stopped traps with its code, an encoding without a meaning traps 2, ECALL 11 for the Curator and 8 for another thread, EBREAK 3. A counter read answers the counter to the Curator, and to another thread where CTR_UREAD lets its domain read it, else zero. A trap faults a running thread, keeps its PC and queues one record; a trap of the Curator saves PC, cause and value and goes to mtvec, vectored for an interrupt where mtvec says so, and while IN_TRAP is set it halts the Curator instead; an interrupt that is not pending and enabled is not taken. MRET of the Curator restores MIE, clears IN_TRAP and returns; of another thread it is illegal. A thread that cannot issue executes nothing. -/
def Obligations.CoreInstructionsRun : Prop :=
  (∀ (s : State) (sl k i w n rd rs1 rs2 : Nat) (imm : Word), s.slicesUp = true → s.canIssue sl k i = true → s.fetchStop sl k i n = none → rd < 32 →
    (∀ op, decodeRv w = (n, some (.aluI op rd rs1 imm)) → Completes s (.coreInstruction sl k i w) fun t =>
      t.xreg sl k i rd = (if rd = 0 then 0 else op.eval (s.xreg sl k i rs1) imm) ∧ t.pc sl k i = (s.pc sl k i + n) % 2 ^ 64 ∧ Only [.issue] (retireFlds sl k i rd) s t) ∧
    (∀ op, decodeRv w = (n, some (.alu op rd rs1 rs2)) → Completes s (.coreInstruction sl k i w) fun t =>
      t.xreg sl k i rd = (if rd = 0 then 0 else op.eval (s.xreg sl k i rs1) (s.xreg sl k i rs2)) ∧ t.pc sl k i = (s.pc sl k i + n) % 2 ^ 64 ∧
      Only [.issue] (retireFlds sl k i rd) s t) ∧
    (decodeRv w = (n, some (.jal rd imm)) → Completes s (.coreInstruction sl k i w) fun t =>
      t.xreg sl k i rd = (if rd = 0 then 0 else BitVec.ofNat 64 (s.pc sl k i + n)) ∧ t.pc sl k i = (BitVec.ofNat 64 (s.pc sl k i) + imm).toNat ∧
      Only [.issue] (retireFlds sl k i rd) s t) ∧
    (decodeRv w = (n, some (.jalr rd rs1 imm)) → Completes s (.coreInstruction sl k i w) fun t =>
      t.xreg sl k i rd = (if rd = 0 then 0 else BitVec.ofNat 64 (s.pc sl k i + n)) ∧ t.pc sl k i = (s.xreg sl k i rs1 + imm).toNat / 2 * 2 ∧
      Only [.issue] (retireFlds sl k i rd) s t) ∧
    (∀ op : BrOp, decodeRv w = (n, some (.branch op rs1 rs2 imm)) → Completes s (.coreInstruction sl k i w) fun t =>
      t.pc sl k i = (if op.holds (s.xreg sl k i rs1) (s.xreg sl k i rs2) then (BitVec.ofNat 64 (s.pc sl k i) + imm).toNat else (s.pc sl k i + n) % 2 ^ 64) ∧
      Only [.issue] (retireFlds sl k i 0) s t) ∧
    (∀ (lg h : Nat) (z : Bool), decodeRv w = (n, some (.load lg z rd rs1 imm)) →
      let a := (s.xreg sl k i rs1 + imm).toNat
      (s.trigHit sl k i 0 a = true → Completes s (.coreInstruction sl k i w) fun t => Traps s t sl k i 3 a []) ∧
      (s.trigHit sl k i 0 a = false → 64 < a % 64 + 2 ^ lg → Completes s (.coreInstruction sl k i w) fun t => Traps s t sl k i 4 a []) ∧
      (s.trigHit sl k i 0 a = false → a % 64 + 2 ^ lg ≤ 64 → s.regionOk sl k i .r a (2 ^ lg) = false → Completes s (.coreInstruction sl k i w) fun t => Traps s t sl k i 5 a []) ∧
      (s.trigHit sl k i 0 a = false → a % 64 + 2 ^ lg ≤ 64 → s.regionOk sl k i .r a (2 ^ lg) = true → s.place sl a = .hbm h → h / (24 * gib) = sl →
        ((s.hbmPoisoned h (2 ^ lg) || s.l2Poisoned sl k h) = false → Completes s (.coreInstruction sl k i w) fun t =>
          t.xreg sl k i rd = (if rd = 0 then 0 else loadValue lg z (leNat (s.hbmRead h (2 ^ lg)))) ∧ t.pc sl k i = (s.pc sl k i + n) % 2 ^ 64 ∧
          Only [.issue] (retireFlds sl k i rd) s t) ∧
        ((s.hbmPoisoned h (2 ^ lg) || s.l2Poisoned sl k h) = true → Completes s (.coreInstruction sl k i w) fun t => Traps s t sl k i 28 a []))) ∧
    (∀ (lg h : Nat), decodeRv w = (n, some (.store lg rs1 rs2 imm)) →
      let a := (s.xreg sl k i rs1 + imm).toNat
      (s.trigHit sl k i 1 a = true → Completes s (.coreInstruction sl k i w) fun t => Traps s t sl k i 3 a []) ∧
      (s.trigHit sl k i 1 a = false → 64 < a % 64 + 2 ^ lg → Completes s (.coreInstruction sl k i w) fun t => Traps s t sl k i 6 a []) ∧
      (s.trigHit sl k i 1 a = false → a % 64 + 2 ^ lg ≤ 64 → s.regionOk sl k i .w a (2 ^ lg) = false → Completes s (.coreInstruction sl k i w) fun t => Traps s t sl k i 7 a []) ∧
      (s.trigHit sl k i 1 a = false → a % 64 + 2 ^ lg ≤ 64 → s.regionOk sl k i .w a (2 ^ lg) = true → s.place sl a = .hbm h → h / (24 * gib) = sl →
        Completes s (.coreInstruction sl k i w) fun t =>
          (∀ j, j < 2 ^ lg → (t.hbmRead (h + j) 1) = [BitVec.ofNat 8 ((s.xreg sl k i rs2).toNat / 256 ^ j)]) ∧ (∀ x, x < h ∨ h + 2 ^ lg ≤ x → t.hbmRead x 1 = s.hbmRead x 1) ∧
          t.pc sl k i = (s.pc sl k i + n) % 2 ^ 64 ∧ t.on (F.THREAD_STATE_SPINNING sl k i) = false ∧
          Only [.mem, .poisoned, .threads, .clusters, .issue] (spinFlds sl k i ++ retireFlds sl k i 0) s t)) ∧
    (decodeRv w = (n, none) → Completes s (.coreInstruction sl k i w) fun t => Traps s t sl k i 2 (Config.trapTval 2 w) []) ∧
    (decodeRv w = (n, some .ecall) → Completes s (.coreInstruction sl k i w) fun t => Traps s t sl k i (if i = 0 then 11 else 8) 0 []) ∧
    (decodeRv w = (n, some .ebreak) → Completes s (.coreInstruction sl k i w) fun t => Traps s t sl k i 3 (Config.trapTval 3 w) [])) ∧
  (∀ (s : State) (sl k i w code : Nat), s.slicesUp = true → s.canIssue sl k i = true → s.fetchStop sl k i (decodeRv w).1 = some code →
    Completes s (.coreInstruction sl k i w) fun t => Traps s t sl k i code (s.pc sl k i) []) ∧
  (∀ (s : State) (sl k i n h : Nat), (s.trigHit sl k i 2 (s.pc sl k i) = true → s.fetchStop sl k i n = some 3) ∧
    (s.trigHit sl k i 2 (s.pc sl k i) = false → s.pc sl k i % 2 = 1 → s.fetchStop sl k i n = some 0) ∧
    (s.trigHit sl k i 2 (s.pc sl k i) = false → s.pc sl k i % 2 = 0 → s.regionOk sl k i .x (s.pc sl k i) n = false → s.fetchStop sl k i n = some 1) ∧
    (s.trigHit sl k i 2 (s.pc sl k i) = false → s.pc sl k i % 2 = 0 → s.regionOk sl k i .x (s.pc sl k i) n = true → s.place sl (s.pc sl k i) = .hbm h →
      s.fetchStop sl k i n = if (s.hbmPoisoned h n || s.l2Poisoned sl k h) = true then some 28 else none)) ∧
  (∀ (s : State) (sl k i w rd csr : Nat), s.slicesUp = true → s.canIssue sl k i = false →
    (Completes s (.coreInstruction sl k i w) fun t => Only [] [] s t) ∧ (Completes s (.counterCsrRead sl k i rd csr) fun t => Only [] [] s t) ∧
    (Completes s (.mret sl k i) fun t => Only [] [] s t)) ∧
  (∀ (s : State) (sl k i rd n : Nat), s.slicesUp = true → s.canIssue sl k i = true → rd < 32 → n < 32 → Completes s (.counterCsrRead sl k i rd (0xC00 + n)) fun t =>
    let bits := if s.on (F.THREAD_CTRL_DOMAIN sl k i) = true then s.fld (F.CTR_UREAD_CUSTOMER sl k) else s.fld (F.CTR_UREAD_VENDOR sl k)
    let v := if i ≠ 0 ∧ (8 < n ∨ bitOf bits n = false) then 0 else if n = 0 then s.fld (F.CORE_CYCLE sl k (i / 4)) else if n = 1 then s.time.mono
      else if n = 2 then s.fld (F.THREAD_INSTRET sl k i) else if n ≤ 8 then s.fld (F.CORE_HPM sl k (6 * (i / 4) + (n - 3))) else 0
    t.xreg sl k i rd = (if rd = 0 then 0 else BitVec.ofNat 64 v) ∧ t.pc sl k i = (s.pc sl k i + 4) % 2 ^ 64 ∧ Only [.issue] (retireFlds sl k i rd) s t) ∧
  (∀ (s : State) (sl k i code tval : Nat), s.slicesUp = true →
    (s.threadExists sl k i = true → i ≠ 0 → s.thState sl k i = thRunning → Completes s (.threadTrap sl k i code tval) fun t => Traps s t sl k i code tval []) ∧
    (s.threadExists sl k i = false ∨ i = 0 ∨ s.thState sl k i ≠ thRunning → Completes s (.threadTrap sl k i code tval) fun t => Only [] [] s t)) ∧
  (∀ (s : State) (sl k code tval : Nat), s.slicesUp = true → sl < 4 → k < 4 →
    (s.thState sl k 0 = thRunning → Completes s (.curatorTrap sl k false code tval) fun t => Traps s t sl k 0 code tval []) ∧
    (∀ b : Bool, s.thState sl k 0 ≠ thRunning → Completes s (.curatorTrap sl k b code tval) fun t => Only [] [] s t) ∧
    (bitOf (s.curatorMip sl k) code = false ∨ bitOf (s.csr sl k 0 csrMie 0).toNat code = false ∨ bitOf (s.csr sl k 0 csrMstatus mstatusReset).toNat 3 = false →
      Completes s (.curatorTrap sl k true code tval) fun t => Only [] [] s t) ∧
    (s.thState sl k 0 = thRunning → bitOf (s.curatorMip sl k) code = true → bitOf (s.csr sl k 0 csrMie 0).toNat code = true →
      bitOf (s.csr sl k 0 csrMstatus mstatusReset).toNat 3 = true → s.on (F.CURATOR_STATUS_IN_TRAP sl k) = false → Completes s (.curatorTrap sl k true code tval) fun t =>
      t.on (F.CURATOR_STATUS_IN_TRAP sl k) = true ∧ t.csr sl k 0 csrMepc 0 = BitVec.ofNat 64 (s.pc sl k 0) ∧ t.csr sl k 0 csrMcause 0 = BitVec.ofNat 64 (2 ^ 63 + code) ∧
      (let mt := (s.csr sl k 0 csrMtvec 0).toNat
       t.pc sl k 0 = (mt / 4 * 4 + (if mt % 4 = 1 then 4 * code else 0)) % 2 ^ 64) ∧
      wordFld (t.csr sl k 0 csrMstatus mstatusReset) 3 1 = 0 ∧ wordFld (t.csr sl k 0 csrMstatus mstatusReset) 7 1 = 1 ∧
      Only [.threads, .csrs] ([F.CURATOR_STATUS_IN_TRAP sl k, ⟨R.THREAD_PC sl k 0, 0, 64⟩] ++ spinFlds sl k 0 ++ coreCounterFlds sl k) s t)) ∧
  (∀ (s : State) (sl k i : Nat), s.slicesUp = true → s.canIssue sl k i = true →
    (i = 0 → Completes s (.mret sl k i) fun t =>
      t.on (F.CURATOR_STATUS_IN_TRAP sl k) = false ∧ t.pc sl k 0 = (s.csr sl k 0 csrMepc 0).toNat / 2 * 2 ∧
      wordFld (t.csr sl k 0 csrMstatus mstatusReset) 3 1 = wordFld (s.csr sl k 0 csrMstatus mstatusReset) 7 1 ∧ wordFld (t.csr sl k 0 csrMstatus mstatusReset) 7 1 = 1 ∧
      Only [.csrs, .issue] (F.CURATOR_STATUS_IN_TRAP sl k :: retireFlds sl k 0 0) s t) ∧
    (i ≠ 0 → Completes s (.mret sl k i) fun t => Traps s t sl k i 2 (Config.trapTval 2 0x30200073) []))

/-- Thread and cluster commands, fault records and debug. A permitted RESUME, RESTART or PARK of a FAULTED or PARKED thread other than the Curator, outside a cluster reset, makes it RUNNING or PARKED: RESUME keeps an open channel, RESTART clears ABORTED, and RESTART and PARK abort the channel it holds, which counts, without the flag. A command to a HALTED thread waits for the debugger; one to a RUNNING thread, or by an agent that may not write it, or during a cluster reset, or a RESUME or RESTART of the Curator, does nothing. A permitted pop moves the oldest fault record into its registers, or shows that there is none. GO starts the Curator of a PARKED cluster at CURATOR_ENTRY (and does nothing in another, the model's choice, log entry 8); RESET frees every channel, empties the queues, counts the waiting messages lost, returns every register of the block but the counters to its reset value, parks every thread and reads RESETTING, and its end PARKED. The Keeper takes a deadlock once and logs it; by default it keeps a dump and resets the cluster, with action 1 it keeps the dump, and with action 0 it only logs. The debugger halts a thread, which keeps an open channel and loses its spinning mark, and lets it go on as it was or as the command that waits says. -/
def Obligations.ThreadAndClusterCommands : Prop :=
  (∀ (s : State) (g : Agent) (sl k i : Nat), s.slicesUp = true →
    let hold := s.fld (F.THREAD_STATE_CHANNEL sl k i)
    (accessOk (R.THREAD_CTRL sl k i) true g = true → s.threadExists sl k i = true → s.fld (F.CLUSTER_STATE sl k) ≠ 2 →
      (s.thState sl k i = thFaulted ∨ s.thState sl k i = thParked → i ≠ 0 →
        (Completes s (.threadResume g sl k i) fun t => t.thState sl k i = thRunning ∧ Only [.clusters] (thStateFlds sl k i) s t) ∧
        (s.on (F.THREAD_STATE_HOLDS_OPEN sl k i) = false →
          (Completes s (.threadRestart g sl k i) fun t => t.thState sl k i = thRunning ∧ t.on (F.THREAD_STATE_ABORTED sl k i) = false ∧
            Only [.clusters] (F.THREAD_STATE_ABORTED sl k i :: thStateFlds sl k i) s t) ∧
          (Completes s (.threadPark g sl k i) fun t => t.thState sl k i = thParked ∧ t.on (F.THREAD_STATE_SPINNING sl k i) = false ∧
            Only [.clusters] (thStateFlds sl k i ++ spinFlds sl k i) s t)) ∧
        (s.on (F.THREAD_STATE_HOLDS_OPEN sl k i) = true → s.chState sl k hold = 1 → s.fld (F.CH_STATE_WRITER sl k hold) = i →
          (Completes s (.threadRestart g sl k i) fun t => t.thState sl k i = thRunning ∧ t.on (F.THREAD_STATE_ABORTED sl k i) = false ∧ t.chState sl k hold = 0 ∧
            t.chMsg sl k hold = [] ∧ t.on (F.THREAD_STATE_HOLDS_OPEN sl k i) = false ∧ Counts s t (F.CH_ABORTS sl k) 1 ∧
            Only [.clusters, .chans] (F.CH_ABORTS sl k :: F.THREAD_STATE_ABORTED sl k i :: thStateFlds sl k i ++ chFlds sl k hold ++ holdFlds sl k i) s t) ∧
          (Completes s (.threadPark g sl k i) fun t => t.thState sl k i = thParked ∧ t.chState sl k hold = 0 ∧ t.chMsg sl k hold = [] ∧
            t.on (F.THREAD_STATE_ABORTED sl k i) = s.on (F.THREAD_STATE_ABORTED sl k i) ∧ t.on (F.THREAD_STATE_HOLDS_OPEN sl k i) = false ∧ Counts s t (F.CH_ABORTS sl k) 1 ∧
            Only [.clusters, .chans] (F.CH_ABORTS sl k :: thStateFlds sl k i ++ spinFlds sl k i ++ chFlds sl k hold ++ holdFlds sl k i) s t))) ∧
      (s.thState sl k i = thHalted →
        (i ≠ 0 → Completes s (.threadResume g sl k i) fun t => t.thx sl k i = { s.thx sl k i with pendingCmd := 1 } ∧ Only [.threads] [] s t) ∧
        (i ≠ 0 → Completes s (.threadRestart g sl k i) fun t => t.thx sl k i = { s.thx sl k i with pendingCmd := 2 } ∧ Only [.threads] [] s t) ∧
        (Completes s (.threadPark g sl k i) fun t => t.thx sl k i = { s.thx sl k i with pendingCmd := 3 } ∧ Only [.threads] [] s t))) ∧
    (accessOk (R.THREAD_CTRL sl k i) true g = false ∨ s.threadExists sl k i = false ∨ s.fld (F.CLUSTER_STATE sl k) = 2 ∨ s.thState sl k i = thRunning →
      (Completes s (.threadResume g sl k i) fun t => Only [] [] s t) ∧ (Completes s (.threadRestart g sl k i) fun t => Only [] [] s t) ∧
      (Completes s (.threadPark g sl k i) fun t => Only [] [] s t)) ∧
    (i = 0 → (Completes s (.threadResume g sl k i) fun t => Only [] [] s t) ∧ (Completes s (.threadRestart g sl k i) fun t => Only [] [] s t))) ∧
  (∀ (s : State) (g : Agent) (sl k : Nat), s.slicesUp = true →
    (∀ (r : FaultRec) (rest : List FaultRec), accessOk (R.FAULT_POP sl k) true g = true → (s.clx sl k).faults = r :: rest → Completes s (.faultPop g sl k) fun t =>
      t.clx sl k = { s.clx sl k with faults := rest } ∧ t.rd (R.FAULT_INFO sl k) = BitVec.ofNat 64 (r.thread + 256 * r.code + 65536 + 131072 * b2n r.clusterEvent) ∧
      t.rd (R.FAULT_PC sl k) = BitVec.ofNat 64 r.pc ∧ t.rd (R.FAULT_TVAL sl k) = BitVec.ofNat 64 r.tval ∧ t.rd (R.FAULT_TIME sl k) = BitVec.ofNat 64 r.time ∧
      t.fld (F.FAULT_COUNT sl k) = rest.length % 2 ^ (F.FAULT_COUNT sl k).width ∧
      Only [.clusters] [⟨R.FAULT_INFO sl k, 0, 64⟩, ⟨R.FAULT_PC sl k, 0, 64⟩, ⟨R.FAULT_TVAL sl k, 0, 64⟩, ⟨R.FAULT_TIME sl k, 0, 64⟩, F.FAULT_COUNT sl k] s t) ∧
    (accessOk (R.FAULT_POP sl k) true g = true → (s.clx sl k).faults = [] → Completes s (.faultPop g sl k) fun t =>
      t.fld (F.FAULT_INFO_VALID sl k) = 0 ∧ Only [] [F.FAULT_INFO_VALID sl k] s t) ∧
    (accessOk (R.FAULT_POP sl k) true g = false → Completes s (.faultPop g sl k) fun t => Only [] [] s t)) ∧
  (∀ (s : State) (g : Agent) (sl k : Nat), s.slicesUp = true →
    (accessOk (R.CLUSTER_CTRL sl k) true g = true → s.fld (F.CLUSTER_STATE sl k) = 0 → Completes s (.clusterCtrlGo g sl k) fun t =>
      t.thState sl k 0 = thRunning ∧ t.rd (R.THREAD_PC sl k 0) = s.rd (R.CURATOR_ENTRY sl k) ∧ t.fld (F.CLUSTER_STATE sl k) = 1 ∧
      Only [] (⟨R.THREAD_PC sl k 0, 0, 64⟩ :: F.CLUSTER_STATE sl k :: thStateFlds sl k 0) s t) ∧
    (accessOk (R.CLUSTER_CTRL sl k) true g = false ∨ s.fld (F.CLUSTER_STATE sl k) ≠ 0 → Completes s (.clusterCtrlGo g sl k) fun t => Only [] [] s t) ∧
    (accessOk (R.CLUSTER_CTRL sl k) true g = false → Completes s (.clusterCtrlReset g sl k) fun t => Only [] [] s t) ∧
    (sl < 4 → k < 4 → accessOk (R.CLUSTER_CTRL sl k) true g = true → (s.clx sl k).deferred.all (fun e => decide (e.2.2 = .plain)) = true → Completes s (.clusterCtrlReset g sl k) fun t =>
      t.fld (F.CLUSTER_STATE sl k) = 2 ∧ (∀ i, i < 32 → t.thState sl k i = thParked ∧ t.thx sl k i = {}) ∧ (∀ m, m < 64 → t.chState sl k m = 0 ∧ t.chMsg sl k m = []) ∧
      t.clx sl k = {} ∧ Counts s t (F.CH_HW_DROP sl k) (s.clx sl k).deferred.length ∧
      (∀ a, inCluster sl k a = true → isClusterCounter sl k a = false → a ≠ R.CLUSTER_STATE sl k → t.rd a = resetAt a) ∧
      (∀ a, inCluster sl k a = false ∨ isClusterCounter sl k a = true ∧ a ≠ R.CH_HW_DROP sl k → t.rd a = s.rd a) ∧
      (∀ sl' k', sl' < 4 → k' < 4 → (sl', k') ≠ (sl, k) → t.clx sl' k' = s.clx sl' k' ∧ ∀ i m, i < 32 → m < 64 → t.thx sl' k' i = s.thx sl' k' i ∧ t.chMsg sl' k' m = s.chMsg sl' k' m) ∧
      SameBut [.regs, .threads, .clusters, .chans, .csrs] s t)) ∧
  (∀ (s : State) (sl k : Nat), s.slicesUp = true →
    (s.fld (F.CLUSTER_STATE sl k) = 2 → Completes s (.clusterResetDone sl k) fun t => t.fld (F.CLUSTER_STATE sl k) = 0 ∧ Only [] [F.CLUSTER_STATE sl k] s t) ∧
    (s.fld (F.CLUSTER_STATE sl k) ≠ 2 → Completes s (.clusterResetDone sl k) fun t => Only [] [] s t)) ∧
  (∀ (s : State) (sl k : Nat), s.running = true → s.boot.romPending = false → sl < 4 → k < 4 →
    (∀ (e : KeeperInt) (rest : List KeeperInt), takeFirst (isDeadlockInt sl k) s.keeperPend = some (e, rest) → Completes s (.keeperDeadlockAction sl k) fun t =>
      t.keeperPend = rest ∧ t.eventLog = s.eventLog ++ [⟨s.eventSeq, s.time.mono, e.addr, e.bit, e.detail⟩] ∧
      (s.item? 4 = none ∨ 2 ≤ s.itemFld 4 0 2 → t.fld (F.CLUSTER_STATE sl k) = 2 ∧ t.core.dumps.head? = some (clKey sl k, s.time.mono, s.dumpOf sl k)) ∧
      (s.itemFld 4 0 2 = 1 → t.core.dumps.head? = some (clKey sl k, s.time.mono, s.dumpOf sl k) ∧ Only [.keeperPend, .eventLog, .dumps] [] s t) ∧
      (s.itemFld 4 0 2 = 0 → Only [.keeperPend, .eventLog] [] s t)) ∧
    (s.keeperPend.all (fun e => !isDeadlockInt sl k e) = true → Completes s (.keeperDeadlockAction sl k) fun t => Only [] [] s t)) ∧
  (∀ (s : State) (sl k i cause : Nat), s.slicesUp = true →
    (s.threadExists sl k i = true → s.thState sl k i ≠ thHalted → Completes s (.debugHalt sl k i cause) fun t =>
      t.thState sl k i = thHalted ∧ t.thx sl k i = { s.thx sl k i with preHalt := s.thState sl k i, pauseUntil := none, pendingCmd := 0 } ∧
      t.on (F.THREAD_STATE_SPINNING sl k i) = false ∧ t.csr sl k i 0x7B0 0 = BitVec.ofNat 64 (64 * cause) ∧ t.csr sl k i 0x7B1 0 = BitVec.ofNat 64 (s.pc sl k i) ∧
      (∀ n, n ≠ thKey sl k i → Map.find? t.core.threads n = Map.find? s.core.threads n) ∧
      Only [.threads, .clusters, .csrs] (thStateFlds sl k i ++ spinFlds sl k i) s t) ∧
    (s.threadExists sl k i = false ∨ s.thState sl k i = thHalted → Completes s (.debugHalt sl k i cause) fun t => Only [] [] s t)) ∧
  (∀ (s : State) (sl k i : Nat), s.slicesUp = true →
    (s.thState sl k i = thHalted → s.on (F.THREAD_STATE_HOLDS_OPEN sl k i) = false → Completes s (.debugResume sl k i) fun t =>
      let c := (s.thx sl k i).pendingCmd
      t.thState sl k i = (if c = 1 ∨ c = 2 then thRunning else if c = 3 then thParked else (s.thx sl k i).preHalt % 4) ∧
      (c = 2 → t.on (F.THREAD_STATE_ABORTED sl k i) = false) ∧ t.thx sl k i = { s.thx sl k i with pendingCmd := 0 } ∧
      Only [.threads, .clusters] (thStateFlds sl k i ++ spinFlds sl k i ++ (if c = 2 then [F.THREAD_STATE_ABORTED sl k i] else [])) s t) ∧
    (s.thState sl k i = thHalted → s.on (F.THREAD_STATE_HOLDS_OPEN sl k i) = true → (s.thx sl k i).pendingCmd ≤ 1 → Completes s (.debugResume sl k i) fun t =>
      t.thState sl k i = (if (s.thx sl k i).pendingCmd = 1 then thRunning else (s.thx sl k i).preHalt % 4) ∧ Only [.threads, .clusters] (thStateFlds sl k i) s t) ∧
    (s.thState sl k i ≠ thHalted → Completes s (.debugResume sl k i) fun t => Only [] [] s t))

/-- Doorbells are accepted or counted by the checks of their ring. A doorbell of a function that no remote home serves reaches the ring of its local index. At an ACTIVE submission ring a tail that lies past the tail accepted last, and at most a ring's size past the head, becomes the tail, and the tail accepted last changes nothing; one further on is ignored and counted in OVERRUN, one behind in STALE; at a ring that is not ACTIVE it is counted in INACTIVE. A completion head past the tail, and one at a ring that is not ACTIVE, is counted and ignored; the present head changes nothing; another one between the old head and the tail becomes the head, and at a ring that holds nothing back, and has no submission ring, it frees its slots and clears CQ_OVERFLOW_PENDING; where one completion is held back and can be written, it is written. A local index without a ring, one past the last, and one of a function of type 4, changes no ring. The doorbell of a function whose home is remote is counted: forwarded while the binding is ACTIVE, dropped else. In Recovery the doorbells of ring 0 of PF0 move the Recovery rings alone. -/
def Obligations.DoorbellsAreChecked : Prop :=
  (∀ (s : State) (inst ring value k q : Nat), s.slicesUp = true → s.inRecovery inst ring = false → ring < 4096 → s.instType inst ≠ 4 → s.anchorBinding inst = none →
    s.findSr inst ring = some (k, q) → k < 4 → q < 8192 →
    let n := s.srLog k q
    let head := s.fld (F.SR_HEAD k q)
    let tail := value % 2 ^ (n + 1)
    let wakes := [⟨R.PCIE_LINK_STATE (s.instLink inst), 0, 64⟩, F.PWR_SI_ABORTS k]
    (s.srState k q ≠ stActive → Completes s (.sqDoorbell inst ring value) fun t =>
      t.fld (F.SR_DB_ERR_INACTIVE k q) = min (s.fld (F.SR_DB_ERR_INACTIVE k q) + 1) (2 ^ (F.SR_DB_ERR_INACTIVE k q).width - 1) ∧
      Only [.power] (F.SR_DB_ERR_INACTIVE k q :: wakes) s t) ∧
    (s.srState k q = stActive → 2 ^ n < extDiff n tail head → Completes s (.sqDoorbell inst ring value) fun t =>
      t.fld (F.SR_DB_ERR_OVERRUN k q) = min (s.fld (F.SR_DB_ERR_OVERRUN k q) + 1) (2 ^ (F.SR_DB_ERR_OVERRUN k q).width - 1) ∧ (t.srx k q).overrunSeen = true ∧
      Only [.power, .rings, .keeperPend, .eventLog] (F.SR_DB_ERR_OVERRUN k q :: F.RING_INT_STATUS_OVERRUN_SEEN k :: wakes) s t) ∧
    (s.srState k q = stActive → extDiff n tail head ≤ 2 ^ n → extDiff n tail head < extDiff n (s.fld (F.SR_TAIL k q)) head → Completes s (.sqDoorbell inst ring value) fun t =>
      t.fld (F.SR_DB_ERR_STALE k q) = min (s.fld (F.SR_DB_ERR_STALE k q) + 1) (2 ^ (F.SR_DB_ERR_STALE k q).width - 1) ∧ Only [.power] (F.SR_DB_ERR_STALE k q :: wakes) s t) ∧
    (s.srState k q = stActive → extDiff n tail head ≤ 2 ^ n → extDiff n tail head = extDiff n (s.fld (F.SR_TAIL k q)) head → Completes s (.sqDoorbell inst ring value) fun t =>
      Only [.power] wakes s t) ∧
    (s.srState k q = stActive → n ≤ 16 → extDiff n tail head ≤ 2 ^ n → extDiff n (s.fld (F.SR_TAIL k q)) head < extDiff n tail head → Completes s (.sqDoorbell inst ring value) fun t =>
      t.fld (F.SR_TAIL k q) = tail ∧ t.srx k q = { s.srx k q with bells := (s.srx k q).bells ++ [(tail, s.time.mono)] } ∧ Only [.power, .rings] (F.SR_TAIL k q :: wakes) s t)) ∧
  (∀ (s : State) (inst ring value k c : Nat), s.slicesUp = true → s.inRecovery inst ring = false → ring < 4096 → s.instType inst ≠ 4 → s.anchorBinding inst = none →
    s.findCr inst ring = some (k, c) → k < 4 → c < 4096 →
    let n := s.crLog k c
    let tail := s.fld (F.CR_TAIL k c)
    let old := s.fld (F.CR_HEAD k c)
    let head := value % 2 ^ (n + 1)
    let wakes := [⟨R.PCIE_LINK_STATE (s.instLink inst), 0, 64⟩, F.PWR_SI_ABORTS k]
    ((s.crState k c ≠ stActive ∨ extDiff n tail old < extDiff n tail head) → Completes s (.cqHeadDoorbell inst ring value) fun t =>
      t.fld (F.CR_DB_ERR k c) = min (s.fld (F.CR_DB_ERR k c) + 1) (2 ^ (F.CR_DB_ERR k c).width - 1) ∧ Only [.power] (F.CR_DB_ERR k c :: wakes) s t) ∧
    (s.crState k c = stActive → head = old → Completes s (.cqHeadDoorbell inst ring value) fun t => Only [.power] wakes s t) ∧
    (s.crState k c = stActive → n ≤ 16 → head ≠ old → extDiff n tail head ≤ extDiff n tail old → (s.crx k c).held = [] → s.boundSrs k c = [] →
      extDiff n tail head < 2 ^ n → Completes s (.cqHeadDoorbell inst ring value) fun t => t.fld (F.CR_HEAD k c) = head ∧ t.crFree k c = 2 ^ n - extDiff n tail head ∧
      t.fld (F.CR_STATE_CQ_OVERFLOW_PENDING k c) = 0 ∧ Only [.power] (F.CR_HEAD k c :: F.CR_STATE_CQ_OVERFLOW_PENDING k c :: wakes) s t) ∧
    (∀ (e : Compl) (s1 s2 : State) (a : List Byte), s.crState k c = stActive → n ≤ 16 → head ≠ old → extDiff n tail head ≤ extDiff n tail old → extDiff n tail head < 2 ^ n → (s.crx k c).held = [e] →
      s1 = ((s.linkBusy (s.instLink inst)).wakeSlice k).setFld (F.CR_HEAD k c) head →
      s1.dmaWrite k (s.crInst k c) (s.fld (F.CR_BASE k c) * 4096 + 16 * extSlot n tail) (s1.classOp 0 e.cls e.begun) (e.bytes true n tail) = (s2, .ok a) →
      Completes s (.cqHeadDoorbell inst ring value) fun t => t.fld (F.CR_HEAD k c) = head ∧ t.fld (F.CR_TAIL k c) = extNext n tail ∧ (t.crx k c).held = [] ∧
        t.fld (F.CR_STATE_H k c) = 0)) ∧
  (∀ (s : State) (inst ring value : Nat), s.slicesUp = true → s.inRecovery inst ring = false →
    (4096 ≤ ring ∨ s.instType inst = 4 →
      (Completes s (.sqDoorbell inst ring value) fun t => Only [] [] s t) ∧ (Completes s (.cqHeadDoorbell inst ring value) fun t => Only [] [] s t)) ∧
    (ring < 4096 → s.instType inst ≠ 4 → s.anchorBinding inst = none →
      (s.findSr inst ring = none → Completes s (.sqDoorbell inst ring value) fun t => Only [.power] [⟨R.PCIE_LINK_STATE (s.instLink inst), 0, 64⟩] s t) ∧
      (s.findCr inst ring = none → Completes s (.cqHeadDoorbell inst ring value) fun t => Only [.power] [⟨R.PCIE_LINK_STATE (s.instLink inst), 0, 64⟩] s t)) ∧
    (∀ b : FeBinding, ring < 4096 → s.instType inst ≠ 4 → s.anchorBinding inst = some b →
      (b.state ≠ 1 → (Completes s (.sqDoorbell inst ring value) fun t => Counts s t F.FE_DB_DROP 1 ∧ Only [.power] [F.FE_DB_DROP, ⟨R.PCIE_LINK_STATE (s.instLink inst), 0, 64⟩] s t) ∧
        (Completes s (.cqHeadDoorbell inst ring value) fun t => Counts s t F.FE_DB_DROP 1 ∧ Only [.power] [F.FE_DB_DROP, ⟨R.PCIE_LINK_STATE (s.instLink inst), 0, 64⟩] s t)) ∧
      (b.state = 1 → (Completes s (.sqDoorbell inst ring value) fun t => Counts s t F.FE_DB_FWD 1) ∧ (Completes s (.cqHeadDoorbell inst ring value) fun t => Counts s t F.FE_DB_FWD 1)))) ∧
  (∀ (s : State) (value : Nat), s.running = true → s.boot.recovery = true →
    let v := value % 2 ^ (s.fld F.RCV_CFG_LOG_SIZE + 1)
    let r := s.boot.rcv
    let n := s.fld F.RCV_CFG_LOG_SIZE
    (Completes s (.sqDoorbell 0 0 value) fun t => Only [.boot] [] s t ∧
      t.boot = { s.boot with rcv := if r.active = false ∨ 2 ^ n < extDiff n v r.srHead ∨ extDiff n v r.srHead ≤ extDiff n r.srTail r.srHead then r else { r with srTail := v } }) ∧
    (Completes s (.cqHeadDoorbell 0 0 value) fun t => Only [.boot] [] s t ∧
      t.boot = { s.boot with rcv := if r.active = true ∧ extDiff n r.crTail v ≤ extDiff n r.crTail r.crHead then { r with crHead := v } else r }))

/-- Descriptors are fetched, jobs start by credit, and completions are written or held. An ACTIVE ring of an enabled instance, with credit and a descriptor waiting, fetches it: one that is not read ends the ring in ERROR with the read's syndrome, one whose PHASE shows it unwritten puts the ring in ERROR with DESC_PHASE_MISMATCH, and both start nothing; a good one that is FIRST and LAST becomes a job, and one that is FIRST alone opens a chain. A ring that may not fetch fetches nothing. A fetched job starts when o + h < F + L: it moves the published head past its LAST descriptor and counts in o; one whose opcode its instance does not have starts and ends with RING_OPCODE_INVALID; without credit its ring shows CQ_BLOCKED and nothing starts. NOP ends with SUCCESS, RX_POST posts its buffer, and a ring with no such job is left as it is. The oldest job, when done, leaves: silently when it succeeded with COMPL_SKIP; written at the tail while a slot is free and none is held; into the holding area while its completion ring has no free slot; counted lost at a completion ring that is not ACTIVE. One that is not done stays. The moderation timer signals the ring whose completions wait, by a channel message or the function's vector, and nobody without INT_EN. -/
def Obligations.JobsStartAndComplete : Prop :=
  (∀ (s s1 : State) (k q : Nat) (bs : List Byte), s.slicesUp = true → srExists k q = true → s.awake k = true → s.mayFetch k q = true →
    s.dmaRead k (s.srInst k q) (s.fld (F.SR_BASE k q) * 4096 + 64 * extSlot (s.srLog k q) (s.srx k q).fetch) 64 (s.ringOp 0 k q (s.descRung k q)) = (s1, .ok bs) →
    (bitsOf (dwAt bs 0) 8 8 = extWrap (s.srLog k q) (s.srx k q).fetch → Completes s (.descriptorFetch k q 1) fun t =>
      t.srState k q = stError ∧ t.fld (F.SR_STATE_ERR k q) = St.DESC_PHASE_MISMATCH ∧ (t.srx k q).ready = [] ∧ (t.srx k q).started = (s1.srx k q).started ∧
      Only [.rings, .keeperPend] [F.SR_STATE_STATE k q, F.SR_STATE_ERR k q, F.RING_INT_STATUS_RING_ERROR_SEEN k] s1 t) ∧
    (bitsOf (dwAt bs 0) 8 8 ≠ extWrap (s.srLog k q) (s.srx k q).fetch → bitsOf (dwAt bs 0) 10 9 = 3 → (s1.srx k q).chain = [] → (s1.srx k q).skip = 0 →
      Completes s (.descriptorFetch k q 1) fun t => (t.srx k q).fetch = extNext (s.srLog k q) (s.srx k q).fetch ∧ (t.srx k q).started = (s1.srx k q).started ∧
      (∃ j : RJob, (t.srx k q).ready = (s1.srx k q).ready ++ [j] ∧ j.preset = none ∧ (∃ d : Desc, j.descs = [d] ∧ d.index = (s.srx k q).fetch ∧ d.dws = (List.range 8).map (dwAt bs))) ∧
      Only [.rings] [] s1 t) ∧
    (bitsOf (dwAt bs 0) 8 8 ≠ extWrap (s.srLog k q) (s.srx k q).fetch → bitsOf (dwAt bs 0) 10 9 = 1 → (s1.srx k q).chain = [] → (s1.srx k q).skip = 0 →
      Completes s (.descriptorFetch k q 1) fun t => (t.srx k q).fetch = extNext (s.srLog k q) (s.srx k q).fetch ∧ (t.srx k q).ready = (s1.srx k q).ready ∧
      (∃ d : Desc, (t.srx k q).chain = [d] ∧ d.index = (s.srx k q).fetch ∧ d.dws = (List.range 8).map (dwAt bs)) ∧ Only [.rings] [] s1 t)) ∧
  (∀ (s s1 : State) (k q st : Nat), s.slicesUp = true → srExists k q = true → s.awake k = true → s.mayFetch k q = true →
    s.dmaRead k (s.srInst k q) (s.fld (F.SR_BASE k q) * 4096 + 64 * extSlot (s.srLog k q) (s.srx k q).fetch) 64 (s.ringOp 0 k q (s.descRung k q)) = (s1, .fail st) →
    Completes s (.descriptorFetch k q 1) fun t => t.srState k q = stError ∧ t.fld (F.SR_STATE_ERR k q) = st % 2 ^ (F.SR_STATE_ERR k q).width ∧ (t.srx k q).ready = [] ∧
      Only [.rings, .keeperPend] [F.SR_STATE_STATE k q, F.SR_STATE_ERR k q, F.RING_INT_STATUS_RING_ERROR_SEEN k] s1 t) ∧
  (∀ (s : State) (k q n : Nat), s.slicesUp = true → (srExists k q = false ∨ s.awake k = false ∨ s.mayFetch k q = false) → Completes s (.descriptorFetch k q n) fun t => Only [] [] s t) ∧
  (∀ (s : State) (k q : Nat) (j : RJob) (rest : List RJob), s.slicesUp = true → srExists k q = true → s.srState k q = stActive → s.instRuns (s.srInst k q) = true →
    (s.srx k q).ready = j :: rest → j.preset = none →
    let c := s.fld (F.SR_CFG_CR k q)
    let ok := opcodeValid (s.instType (s.srInst k q)) (s.srInst k q) (s.fld (F.SR_CFG_LOCAL k q)) j.head.opcode
    s.srLog k q ≤ 16 → s.credit k c = true → 0 < s.crFree k c → s.boundSrs k c = [q] → (Completes s (.jobStart k q) fun t =>
      (t.srx k q).started = (s.srx k q).started ++ [{ j with outcome := if ok = true then none else some (St.RING_OPCODE_INVALID, 0, false), taken := !ok }] ∧
      (t.srx k q).ready = rest ∧ t.fld (F.SR_HEAD k q) = extNext (s.srLog k q) ((j.descs.getLast?.getD emptyDesc).index) ∧ Counts s t (F.SR_JOBS k q) 1 ∧
      (t.crx k c).o = (s.crx k c).o + 1 ∧ Only [.rings] [F.SR_HEAD k q, F.SR_JOBS k q, F.SR_STATE_CQ_BLOCKED k q] s t)) ∧
  (∀ (s : State) (k q : Nat), s.slicesUp = true →
    (srExists k q = true → s.credit k (s.fld (F.SR_CFG_CR k q)) = false → s.boundSrs k (s.fld (F.SR_CFG_CR k q)) = [q] →
      Completes s (.jobStart k q) fun t => t.on (F.SR_STATE_CQ_BLOCKED k q) = true ∧ Only [] [F.SR_STATE_CQ_BLOCKED k q] s t) ∧
    (srExists k q = false → Completes s (.jobStart k q) fun t => Only [] [] s t) ∧
    (srExists k q = true → s.srState k q = stActive → s.instRuns (s.srInst k q) = true → s.credit k (s.fld (F.SR_CFG_CR k q)) = true → (s.srx k q).ready = [] →
      Completes s (.jobStart k q) fun t => Only [] [] s t)) ∧
  (∀ (s : State) (k q : Nat), s.slicesUp = true →
    (∀ j : RJob, s.jobFor k q 0x00 = some j → Completes s (.nop k q) fun t => JobEnds s t j St.SUCCESS 0 false [] []) ∧
    (∀ j : RJob, s.jobFor k q 0x02 = some j → j.slice = k → j.ring = q → Completes s (.rxPost k q) fun t =>
      (t.srx k q).posted = (s.srx k q).posted ++ [j.id] ∧ (t.srx k q).started.length = (s.srx k q).started.length ∧ Only [.rings] [] s t) ∧
    (s.jobFor k q 0x00 = none → Completes s (.nop k q) fun t => Only [] [] s t) ∧ (s.jobFor k q 0x02 = none → Completes s (.rxPost k q) fun t => Only [] [] s t)) ∧
  (∀ (s : State) (k q : Nat) (j : RJob) (rest : List RJob), s.slicesUp = true → srExists k q = true → s.srState k q = stActive → (s.srx k q).started = j :: rest →
    let c := s.fld (F.SR_CFG_CR k q)
    (s.crx k c).late = [] →
    (j.outcome = none → Completes s (.completionWrite k q) fun t => Only [] [] s t) ∧
    (∀ o : Nat × Nat × Bool, j.outcome = some o → s.boundSrs k c = [q] →
      (s.crState k c = stActive → o.1 / 4096 = 0 → j.head.skip = true → 0 < s.crFree k c → Completes s (.completionWrite k q) fun t =>
        (t.srx k q).started = rest ∧ (t.crx k c).o = (s.crx k c).o - 1 ∧ (t.crx k c).held = (s.crx k c).held ∧ Only [.rings] [F.SR_STATE_CQ_BLOCKED k q] s t) ∧
      (∀ (s1 : State) (a : List Byte), s.crState k c = stActive → j.head.first = true → ¬ (o.1 / 4096 = 0 ∧ j.head.skip = true) → 0 < s.crFree k c → (s.crx k c).held = [] →
        s.dmaWrite k (s.crInst k c) (s.fld (F.CR_BASE k c) * 4096 + 16 * extSlot (s.crLog k c) (s.fld (F.CR_TAIL k c)))
          (s.classOp 0 (s.complOf j o).cls (s.complOf j o).begun) ((s.complOf j o).bytes false (s.crLog k c) (s.fld (F.CR_TAIL k c))) = (s1, .ok a) →
        s.crLog k c ≤ 16 → Completes s (.completionWrite k q) fun t => (t.srx k q).started = rest ∧ t.fld (F.CR_TAIL k c) = extNext (s.crLog k c) (s.fld (F.CR_TAIL k c)) ∧
          (t.crx k c).o = (s.crx k c).o - 1 ∧ (t.crx k c).held = [] ∧ Counts s t (F.CR_WRITTEN k c) 1) ∧
      (s.crState k c = stActive → j.head.first = true → o.1 / 4096 ≠ 0 → s.crFree k c = 0 → 0 < s.fld (F.RING_POOL_FREE k) → s.on (F.CR_STATE_CQ_OVERFLOW_PENDING k c) = true →
        Completes s (.completionWrite k q) fun t => (t.srx k q).started = rest ∧ (t.crx k c).held = (s.crx k c).held ++ [s.complOf j o] ∧
        (t.crx k c).o = (s.crx k c).o - 1 ∧ t.fld (F.CR_TAIL k c) = s.fld (F.CR_TAIL k c) ∧
        Only [.rings] [F.CR_STATE_H k c, F.RING_POOL_FREE k, F.RING_POOL_PEAK k, F.SR_STATE_CQ_BLOCKED k q] s t) ∧
      (s.crState k c ≠ stActive → j.head.first = true → ¬ (o.1 / 4096 = 0 ∧ j.head.skip = true) → Completes s (.completionWrite k q) fun t =>
        (t.srx k q).started = rest ∧ (t.crx k c).o = (s.crx k c).o - 1 ∧ t.fld (F.CR_LOST k c) = min (s.fld (F.CR_LOST k c) + 1) (2 ^ (F.CR_LOST k c).width - 1) ∧
        Only [.rings] [F.CR_LOST k c, F.SR_STATE_CQ_BLOCKED k q] s t))) ∧
  (∀ (s : State) (k q : Nat), s.slicesUp = true → (srExists k q = false ∨ s.srState k q = stStalled ∨ s.srState k q = stDisabled) → Completes s (.completionWrite k q) fun t => Only [] [] s t) ∧
  (∀ (s : State) (k c : Nat), s.slicesUp = true →
    (crExists k c = true → s.twFired k (.ringMod c) = true →
      (s.on (F.CR_INT_CFG_INT_EN k c) = false →
        Completes s (.ringModTimer k c) fun t => t.twFired k (.ringMod c) = false ∧ t.crx k c = { s.crx k c with unsignalled := 0 } ∧ Only [.rings, .time] [F.EVENT_HORIZON k, F.TW_ENTRIES k, F.TW_PEAK k] s t) ∧
      (s.on (F.CR_INT_CFG_INT_EN k c) = true → s.on (F.CR_INT_CFG_TARGET k c) = false →
        exec (.ringModTimer k c) s = .next (s.settle ((((s.twTake k (.ringMod c)).setCrx k c { s.crx k c with unsignalled := 0 }).twCancel k (.ringMod c)).signalVector
          (s.crInst k c) (s.fld (F.CR_INT_CFG_VECTOR k c))))) ∧
      (∀ cl ch, s.on (F.CR_INT_CFG_INT_EN k c) = true → s.on (F.CR_INT_CFG_TARGET k c) = true → cl = s.fld (F.CR_INT_CFG_CLUSTER k c) → ch = s.fld (F.CR_INT_CFG_CHANNEL k c) → cl < 4 →
        s.on (F.CH_BIND_HW_WRITE k cl ch) = true → s.chState k cl ch = 0 → (s.clx k cl).deferred = [] → Completes s (.ringModTimer k c) fun t =>
        (t.crx k c).unsignalled = 0 ∧ t.twFired k (.ringMod c) = false ∧ t.chState k cl ch = 2 ∧ t.chMsg k cl ch = [c + 65536 * s.fld (F.CR_TAIL k c)])) ∧
    (crExists k c = false ∨ s.twFired k (.ringMod c) = false → Completes s (.ringModTimer k c) fun t => Only [] [] s t))

/-- Rings are enabled, disabled and drained by their state machine. Enabling a DISABLED submission ring whose configuration is valid, within its instance's quota, sets its tail to its head and makes it ACTIVE; an invalid one enters ERROR with RING_CONFIG_INVALID, and one past the quota with QUOTA_EXCEEDED; of a ring that is not DISABLED only the ENABLE bit is set. Disabling an ACTIVE ring discards what was fetched and not started and makes it STOPPING while a started job remains, else DISABLED; once a STOPPING or ERROR ring's last started job has retired, with ENABLE = 0 written, the ring is DISABLED and its head stands, and before that nothing happens. Enabling a valid completion ring within quota makes it ACTIVE, empty, and adds its HOLD_LIMIT to the commit; an invalid one, or one past the quota, enters ERROR. Disabling it is ignored while a submission ring bound to it is not DISABLED, else it becomes DISABLED, counts its discarded entries and leaves the commit if it was ACTIVE. An agent that may not write the control register changes nothing. -/
def Obligations.RingStatesMove : Prop :=
  (∀ (s : State) (g : Agent) (k q : Nat), s.slicesUp = true → srExists k q = true → accessOk (R.SR_CTRL k q) true g = true → s.srInst k q < 4096 →
    (s.srState k q = stDisabled → s.srValid k q = true → s.fld (F.INST_USE_A_SR (s.srInst k q)) < s.fld (F.INST_QUOTA_A_SR_MAX (s.srInst k q)) → Completes s (.srEnable g k q) fun t =>
      t.srState k q = stActive ∧ t.fld (F.SR_TAIL k q) = s.fld (F.SR_HEAD k q) ∧ t.fld (F.SR_HEAD k q) = s.fld (F.SR_HEAD k q) ∧ t.on (F.SR_CTRL_ENABLE k q) = true ∧
      (t.srx k q).started = [] ∧ (t.srx k q).ready = [] ∧ (t.srx k q).fetch = s.fld (F.SR_HEAD k q) ∧ Counts s t (F.INST_USE_A_SR (s.srInst k q)) 1 ∧
      Only [.rings] [F.SR_CTRL_ENABLE k q, F.SR_TAIL k q, F.SR_STATE_STATE k q, F.SR_STATE_CQ_BLOCKED k q, F.INST_USE_A_SR (s.srInst k q)] s t) ∧
    (s.srState k q = stDisabled → s.srValid k q = false → Completes s (.srEnable g k q) fun t =>
      t.srState k q = stError ∧ t.fld (F.SR_STATE_ERR k q) = St.RING_CONFIG_INVALID ∧
      Only [.rings, .keeperPend] [F.SR_CTRL_ENABLE k q, F.SR_STATE_STATE k q, F.SR_STATE_ERR k q, F.RING_INT_STATUS_RING_ERROR_SEEN k] s t) ∧
    (s.srState k q = stDisabled → s.srValid k q = true → s.fld (F.INST_QUOTA_A_SR_MAX (s.srInst k q)) ≤ s.fld (F.INST_USE_A_SR (s.srInst k q)) → Completes s (.srEnable g k q) fun t =>
      t.srState k q = stError ∧ t.fld (F.SR_STATE_ERR k q) = St.QUOTA_EXCEEDED) ∧
    (s.srState k q ≠ stDisabled → Completes s (.srEnable g k q) fun t => t.on (F.SR_CTRL_ENABLE k q) = true ∧ Only [] [F.SR_CTRL_ENABLE k q] s t)) ∧
  (∀ (s : State) (g : Agent) (k q : Nat), s.slicesUp = true → srExists k q = true → accessOk (R.SR_CTRL k q) true g = true →
    (s.srState k q = stActive → (s.srx k q).started ≠ [] →
      Completes s (.srDisable g k q) fun t => t.srState k q = stStopping ∧ (t.srx k q).ready = [] ∧ (t.srx k q).started = (s.srx k q).started ∧ t.on (F.SR_CTRL_ENABLE k q) = false ∧
      Only [.rings] [F.SR_CTRL_ENABLE k q, F.SR_STATE_STATE k q] s t) ∧
    (s.srState k q = stActive ∨ s.srState k q = stError → (s.srx k q).started = [] →
      Completes s (.srDisable g k q) fun t => t.srState k q = stDisabled ∧ (t.srx k q).ready = [] ∧ t.on (F.SR_CTRL_ENABLE k q) = false ∧ t.fld (F.SR_HEAD k q) = s.fld (F.SR_HEAD k q) ∧
      Only [.rings] [F.SR_CTRL_ENABLE k q, F.SR_STATE_STATE k q, F.SR_STATE_CQ_BLOCKED k q, F.INST_USE_A_SR (s.srInst k q)] s t) ∧
    (s.srState k q = stStopping ∨ s.srState k q = stDisabled ∨ s.srState k q = stError ∧ (s.srx k q).started ≠ [] →
      Completes s (.srDisable g k q) fun t => t.on (F.SR_CTRL_ENABLE k q) = false ∧ (t.srx k q).offWritten = decide (s.srState k q ≠ stDisabled) ∧ Only [.rings] [F.SR_CTRL_ENABLE k q] s t)) ∧
  (∀ (s : State) (g : Agent) (k q : Nat), s.slicesUp = true → (srExists k q = false ∨ accessOk (R.SR_CTRL k q) true g = false) →
    (Completes s (.srEnable g k q) fun t => Only [] [] s t) ∧ (Completes s (.srDisable g k q) fun t => Only [] [] s t)) ∧
  (∀ (s : State) (k q : Nat), s.slicesUp = true → srExists k q = true → (s.srState k q = stStopping ∨ s.srState k q = stError) →
    ((s.srx k q).started = [] → (s.srx k q).offWritten = true → Completes s (.ringDrained k q) fun t => t.srState k q = stDisabled ∧ t.fld (F.SR_HEAD k q) = s.fld (F.SR_HEAD k q) ∧
      Only [.rings] [F.SR_STATE_STATE k q, F.SR_STATE_CQ_BLOCKED k q, F.INST_USE_A_SR (s.srInst k q)] s t) ∧
    ((s.srx k q).started ≠ [] ∨ (s.srx k q).offWritten = false → Completes s (.ringDrained k q) fun t => Only [] [] s t)) ∧
  (∀ (s : State) (g : Agent) (k c : Nat), s.slicesUp = true → crExists k c = true → accessOk (R.CR_CTRL k c) true g = true → s.crInst k c < 4096 →
    (s.crState k c = stDisabled → s.crValid k c = true → s.fld (F.INST_USE_A_CR (s.crInst k c)) < s.fld (F.INST_QUOTA_A_CR_MAX (s.crInst k c)) → Completes s (.crEnable g k c) fun t =>
      t.crState k c = stActive ∧ t.fld (F.CR_TAIL k c) = s.fld (F.CR_HEAD k c) ∧ (t.crx k c).held = [] ∧ (t.crx k c).o = 0 ∧ t.on (F.CR_CTRL_ENABLE k c) = true ∧
      Counts s t (F.RING_POOL_COMMIT k) (s.holdLimit k c) ∧ Counts s t (F.INST_USE_A_CR (s.crInst k c)) 1 ∧
      Only [.rings] [F.CR_CTRL_ENABLE k c, F.CR_TAIL k c, F.CR_STATE_STATE k c, F.CR_STATE_CQ_OVERFLOW_PENDING k c, F.CR_STATE_CQ_OVERFLOW_LOST k c, F.RING_POOL_COMMIT k,
        F.INST_USE_A_CR (s.crInst k c)] s t) ∧
    (s.crState k c = stDisabled → s.crValid k c = false → Completes s (.crEnable g k c) fun t => t.crState k c = stError ∧ t.fld (F.CR_STATE_ERR k c) = St.RING_CONFIG_INVALID) ∧
    (s.crState k c = stDisabled → s.crValid k c = true → s.fld (F.INST_QUOTA_A_CR_MAX (s.crInst k c)) ≤ s.fld (F.INST_USE_A_CR (s.crInst k c)) → Completes s (.crEnable g k c) fun t =>
      t.crState k c = stError ∧ t.fld (F.CR_STATE_ERR k c) = St.QUOTA_EXCEEDED) ∧
    (s.crState k c ≠ stDisabled → Completes s (.crEnable g k c) fun t => t.on (F.CR_CTRL_ENABLE k c) = true ∧ Only [] [F.CR_CTRL_ENABLE k c] s t)) ∧
  (∀ (s : State) (g : Agent) (k c : Nat), s.slicesUp = true →
    (crExists k c = true → accessOk (R.CR_CTRL k c) true g = true → s.boundSrs k c ≠ [] → Completes s (.crDisable g k c) fun t => Only [] [] s t) ∧
    (crExists k c = true → accessOk (R.CR_CTRL k c) true g = true → s.boundSrs k c = [] → s.crState k c = stDisabled → Completes s (.crDisable g k c) fun t =>
      t.on (F.CR_CTRL_ENABLE k c) = false ∧ Only [] [F.CR_CTRL_ENABLE k c] s t) ∧
    (crExists k c = true → accessOk (R.CR_CTRL k c) true g = true → s.boundSrs k c = [] → s.crState k c ≠ stDisabled → Completes s (.crDisable g k c) fun t =>
      t.crState k c = stDisabled ∧ t.crx k c = {} ∧ t.on (F.CR_CTRL_ENABLE k c) = false ∧
      t.fld (F.CR_LOST k c) = min (s.fld (F.CR_LOST k c) + (s.crx k c).held.length) (2 ^ (F.CR_LOST k c).width - 1) ∧
      Only [.rings, .time] [F.CR_CTRL_ENABLE k c, F.CR_STATE_STATE k c, F.CR_LOST k c, F.CR_STATE_H k c, F.RING_POOL_FREE k, F.RING_POOL_PEAK k, F.RING_POOL_COMMIT k, F.EVENT_HORIZON k, F.TW_ENTRIES k, F.TW_PEAK k,
        F.CR_STATE_CQ_OVERFLOW_PENDING k c, F.INST_USE_A_CR (s.crInst k c)] s t ∧
      (s.crState k c = stActive → s.holdLimit k c ≤ s.fld (F.RING_POOL_COMMIT k) → t.fld (F.RING_POOL_COMMIT k) = s.fld (F.RING_POOL_COMMIT k) - s.holdLimit k c)) ∧
    (crExists k c = false ∨ accessOk (R.CR_CTRL k c) true g = false →
      (Completes s (.crEnable g k c) fun t => Only [] [] s t) ∧ (Completes s (.crDisable g k c) fun t => Only [] [] s t)))

/-- TX_FRAME checks and queues, and a frame leaves its port. A TX_FRAME of fewer than 14 or more than 9,724 bytes ends with TX_FRAME_TOO_LONG; one on a port that the mode does not have, with TX_PORT_INVALID; a one-step request without room for its header, with TX_PTP_OFFSET_INVALID; one whose buffers cannot be read, with the read's status; one whose reads wait stays. One whose buffers have been read, without a launch time and without a handle, stands on its port's egress, and one with a handle stands for its lookup. A frame that stands on a port and has not begun is dropped while the port's link is down, and its job ends with TX_LINK_DOWN; it is dropped with SRAM_UNCORRECTABLE where a word of it is poisoned; one whose priority is paused, one whose launch instant has not come, and one that another frame precedes, stays; a whole one that may start leaves, with its own bytes where TS_MODE is not 1 and with a good FCS unless it carries a bad one; a cut-through frame that may start and is still arriving begins. One that has begun leaves once it is whole. -/
def Obligations.FramesFromRings : Prop :=
  (∀ (s : State) (k q : Nat), s.slicesUp = true →
    (s.jobFor k q 0x01 = none → Completes s (.txFrame k q) fun t => Only [] [] s t) ∧
    (∀ j : RJob, s.jobFor k q 0x01 = some j →
    ((j.total < 14 ∨ 9724 < j.total) → Completes s (.txFrame k q) fun t => JobEnds s t j St.TX_FRAME_TOO_LONG 0 false [] []) ∧
    (14 ≤ j.total → j.total ≤ 9724 → s.portAt (bitsOf (j.dw 3) 4 0) = none → Completes s (.txFrame k q) fun t => JobEnds s t j St.TX_PORT_INVALID 0 false [] []) ∧
    (∀ kp, 14 ≤ j.total → j.total ≤ 9724 → s.portAt (bitsOf (j.dw 3) 4 0) = some kp → bitsOf (j.dw 3) 7 6 = 1 → j.total < bitsOf (j.dw 3) 25 16 + 44 →
      Completes s (.txFrame k q) fun t => JobEnds s t j St.TX_PTP_OFFSET_INVALID 0 false [] []) ∧
    (∀ (kp : Nat × Nat) (s1 : State) (st : Nat), 14 ≤ j.total → j.total ≤ 9724 → s.portAt (bitsOf (j.dw 3) 4 0) = some kp → ¬ (bitsOf (j.dw 3) 7 6 = 1 ∧ j.total < bitsOf (j.dw 3) 25 16 + 44) →
      (s.dmaGather k (s.srInst k q) (s.jobOp 0 j) j.bufs = (s1, .fail st) → Completes s (.txFrame k q) fun t => JobEnds s1 t j st 0 false [] []) ∧
      (s.dmaGather k (s.srInst k q) (s.jobOp 0 j) j.bufs = (s1, .wait) → Completes s (.txFrame k q) fun t => Only [] [] s1 t)) ∧
    (∀ (k' p : Nat) (s1 : State) (data : List Byte), 14 ≤ j.total → j.total ≤ 9724 → s.portAt (bitsOf (j.dw 3) 4 0) = some (k', p) → ¬ (bitsOf (j.dw 3) 7 6 = 1 ∧ j.total < bitsOf (j.dw 3) 25 16 + 44) →
      s.dmaGather k (s.srInst k q) (s.jobOp 0 j) j.bufs = (s1, .ok data) →
      (bitOf (j.dw 3) 53 = false → bitOf (j.dw 3) 5 = false → Completes s (.txFrame k q) fun t =>
        t.eth.egress = s1.eth.egress ++ [{ txEgress s1 j k' p s1.eth.nextFrame data with id := s1.eth.nextEgress }] ∧
        t.frame? s1.eth.nextFrame = some (txFrame s1 j data none) ∧ t.eth.nextFrame = s1.eth.nextFrame + 1 ∧
        Only [.rings, .eth] (if k = k' then [] else [F.SPINE_OUT k, F.SPINE_IN k']) s1 t) ∧
      (bitOf (j.dw 3) 53 = true → Completes s (.txFrame k q) fun t =>
        t.frame? s1.eth.nextFrame = some (txFrame s1 j data (some (bitsOf (j.dw 3) 52 32))) ∧ t.eth.egress = s1.eth.egress ∧ t.eth.nextFrame = s1.eth.nextFrame + 1 ∧
        Only [.rings, .eth] [] s1 t)))) ∧
  (∀ (s : State) (n : Nat), s.slicesUp = true → s.egress? n = none → Completes s (.frameTransmitted n) fun t => Only [] [] s t) ∧
  (∀ (s : State) (n : Nat) (e : Egress), s.slicesUp = true → s.egress? n = some e → e.id = n → e.begun = false →
    let may := s.linkUp e.slice e.port = true ∧ s.isPaused e.slice e.port e.pcp = false ∧ s.egressPoisoned e = false
    let arriving := ∃ f : Frame, s.frame? e.frame = some f ∧ f.whole = false
    (s.egressPoisoned e = true → exec (.frameTransmitted n) s = .next (s.settle (s.dropEgress e St.SRAM_UNCORRECTABLE))) ∧
    (s.egressPoisoned e = false → s.linkUp e.slice e.port = false → exec (.frameTransmitted n) s = .next (s.settle (s.dropEgress e St.TX_LINK_DOWN))) ∧
    (s.egressPoisoned e = false → s.linkUp e.slice e.port = true → s.isPaused e.slice e.port e.pcp = true → Completes s (.frameTransmitted n) fun t => Only [] [] s t) ∧
    (may → (e.late = false ∧ (e.launch.isSome = true ∨ s.mayStart e = false) ∨ e.late = true ∧ s.mayStartLate e = false) → Completes s (.frameTransmitted n) fun t => Only [] [] s t) ∧
    (may → e.late = false → e.launch = none → s.mayStart e = true → arriving → Completes s (.frameTransmitted n) fun t =>
      t.egress? n = some { e with released := true, begun := true, begunAt := s.time.units } ∧ t.out = s.out ∧ SameBut [.regs, .eth] s t) ∧
    (may → (e.late = true ∧ s.mayStartLate e = true ∨ e.late = false ∧ e.launch = none ∧ s.mayStart e = true ∧ ¬ arriving) → Completes s (.frameTransmitted n) fun t =>
      t.egress? n = none ∧ t.out = s.out ++ [.frame e.slice e.port (if e.tsMode = 1 then oneStep e.data e.ptpOffset (s.txStamp e) else e.data) e.badFcs])) ∧
  (∀ (s : State) (n : Nat) (e : Egress), s.slicesUp = true → s.egress? n = some e → e.id = n → e.begun = true →
    ((∃ f : Frame, s.frame? e.frame = some f ∧ f.whole = false) → Completes s (.frameTransmitted n) fun t => Only [] [] s t) ∧
    (¬ (∃ f : Frame, s.frame? e.frame = some f ∧ f.whole = false) → Completes s (.frameTransmitted n) fun t => t.egress? n = none ∧
      t.out = s.out ++ [.frame e.slice e.port (if e.tsMode = 1 then oneStep e.data e.ptpOffset (s.txStamp e) else e.data) (e.badFcs || s.egressPoisoned e)])) ∧
  (∀ (s : State) (n : Nat) (e : Egress) (f : Frame) (k q : Nat) (j : RJob), s.slicesUp = true → s.egress? n = some e → e.id = n → e.begun = false → s.frame? e.frame = some f → f.id = e.frame →
    f.origin = .tx k q j.id → s.jobById k q j.id = some j → f.whole = true → f.poisoned = false → (s.eth.egress.filter fun x => decide (x.frame = e.frame)) = [e] →
    (s.linkUp e.slice e.port = false → e.entry = none → Completes s (.frameTransmitted n) fun t => t.egress? n = none ∧ t.out = s.out ∧ t.rings = (s.finish j St.TX_LINK_DOWN 0 false).rings) ∧
    (s.linkUp e.slice e.port = true → s.isPaused e.slice e.port e.pcp = false → e.late = false → e.launch = none → s.mayStart e = true →
      (e.tsMode < 2 → Completes s (.frameTransmitted n) fun t => t.rings = (s.finish j St.SUCCESS ((e.data.length + 4) % 2 ^ 32) false).rings) ∧
      (e.tsMode = 2 → Completes s (.frameTransmitted n) fun t => t.rings = (s.finish j St.SUCCESS (ts64 (s.txStamp e)) true).rings)))

/-- A frame takes its entry's action, and entries are counted, written and read. A whole received frame at its handle's home, with nothing of its flow before it, is looked up and counted in CAT_LOOKUPS: a poisoned entry drops it and counts; an invalid entry drops it and counts; STEER 0 drops it and adds one to the entry's DROPS; STEER 1 stands it, with the entry's VLAN operation, on the egress of its port, or drops it where the port's link is down; STEER 3 hands it to the KRA stage; STEER 5 hands it to the entry's channel under a token, or drops it and counts where no token is free; a valid entry's lookup queues a write-back. A frame that waits for its cells or for an earlier frame of its flow, or whose slice sleeps, waits. A write-back sets HIT and adds to the entry's PKTS and BYTES as they stand, and changes no other entry; one whose GEN is no longer the entry's leaves STATE and is counted. RELEASE frees the token and its frame, RESUBMIT gives the frame back with the new handle and, where LENGTH is not 0, its first LENGTH bytes (its class is then ARB_UNIT_CLASS[0], the model's choice, log entry 23); a token that is not in use is counted. A commit writes the staged entry with HIT clear and GEN one on; with KEEP_COUNTS and KEEP_STATE it keeps them, and GEN; an invalidation clears VALID alone and moves GEN on; a read copies the entry into the snapshot and clears what it is asked to. An agent that does not own the slot or the register changes nothing. -/
def Obligations.CatalogueLooksUpAndCounts : Prop :=
  (∀ (s : State) (n h : Nat) (f : Frame) (k0 p0 : Nat), s.slicesUp = true → s.frame? n = some f → f.id = n → f.origin = .eth k0 p0 → f.handle = some h → f.stage = .handled →
    f.slice = homeOf h → f.cellWait = 0 → f.whole = true → s.firstOfFlow f = true → s.awake f.slice = true → f.floodTo = none → f.fed = none → f.cells = [] →
    (s.eth.egress.any fun e => decide (e.frame = n)) = false →
    (s.catPoisoned h = true → f.looked = none → Completes s (.catalogueLookup n) fun t => t.frame? n = none ∧ t.cat.entries = s.cat.entries ∧ Counts s t (F.CAT_LOOKUPS f.slice) 1 ∧
      Counts s t (F.CAT_FAULT_DROP f.slice) 1 ∧ t.on (F.CAT_INT_STATUS_FAULT_DROP_SEEN f.slice) = true) ∧
    (s.catPoisoned h = false →
    (bitOf (s.catEntry h) 0 = false → f.looked = none → Completes s (.catalogueLookup n) fun t => t.frame? n = none ∧ t.cat.entries = s.cat.entries ∧ t.cat.writebacks = s.cat.writebacks ∧
      Counts s t (F.CAT_LOOKUPS f.slice) 1 ∧
      Counts s t (F.CAT_INVALID_DROP f.slice) 1) ∧
    (bitOf (s.catEntry h) 0 = true → bitsOf (s.catEntry h) 19 16 = 0 → bitsOf (s.catEntry h) 3 1 = 0 → Completes s (.catalogueLookup n) fun t => t.frame? n = none ∧
      t.catEntry h = setBits (s.catEntry h) 247 216 (bitsOf (s.catEntry h) 247 216 + 1) ∧
      t.cat.writebacks = s.cat.writebacks ++ [{ handle := h, bytes := f.data.length, gen := bitsOf (s.catEntry h) 15 12 }] ∧
      Counts s t (F.CAT_LOOKUPS f.slice) 1) ∧
    (bitOf (s.catEntry h) 0 = true → bitsOf (s.catEntry h) 19 16 = 0 → bitsOf (s.catEntry h) 3 1 = 3 → Completes s (.catalogueLookup n) fun t => t.kra = { s.kra with order := s.kra.order ++ [n] } ∧
      t.frame? n = some { f with looked := some ⟨h, s.catEntry h⟩, pbClass := bitsOf (s.catEntry h) 9 8, dlClass := bitsOf (s.catEntry h) 7 4, stage := .kra } ∧
      t.cat.entries = s.cat.entries ∧ Only [.cat, .kra, .eth, .pmu, .keeperPend] (F.CAT_LOOKUPS f.slice :: uncCounterFlds f.slice) s t) ∧
    (∀ k p, bitOf (s.catEntry h) 0 = true → bitsOf (s.catEntry h) 19 16 = 0 → bitsOf (s.catEntry h) 3 1 = 1 → s.portAt (bitsOf (s.catEntry h) 52 48) = some (k, p) →
      (s.linkUp k p = true → Completes s (.catalogueLookup n) fun t => (∃ g : Frame, t.frame? n = some g ∧ g.stage = .egress) ∧ Counts s t (F.CAT_LOOKUPS f.slice) 1 ∧
        (∃ e : Egress, t.eth.egress = s.eth.egress ++ [e] ∧ e.id = s.eth.nextEgress ∧ e.frame = n ∧ e.slice = k ∧ e.port = p ∧ e.entry = some h ∧ e.launch = none ∧
          e.data = vlanOp (bitsOf (s.catEntry h) 26 24) (bitsOf (s.catEntry h) 47 32) f.data)) ∧
      (s.linkUp k p = false → Completes s (.catalogueLookup n) fun t => t.frame? n = none ∧ t.eth.egress = s.eth.egress ∧
        t.catEntry h = setBits (s.catEntry h) 247 216 (bitsOf (s.catEntry h) 247 216 + 1))) ∧
    (bitOf (s.catEntry h) 0 = true → bitsOf (s.catEntry h) 19 16 = 0 → bitsOf (s.catEntry h) 3 1 = 5 → f.poisoned = false →
      (∀ tok, s.freeToken f.slice = some tok → s.on (F.CH_BIND_HW_WRITE f.slice (bitsOf (s.catEntry h) 49 48) (bitsOf (s.catEntry h) 55 50)) = true →
        s.chState f.slice (bitsOf (s.catEntry h) 49 48) (bitsOf (s.catEntry h) 55 50) = 0 → (s.clx f.slice (bitsOf (s.catEntry h) 49 48)).deferred = [] →
        Completes s (.catalogueLookup n) fun t => (∃ g : Frame, t.frame? n = some g ∧ g.stage = .token) ∧ Map.find? t.cat.tokens (1024 * f.slice + tok) = some n ∧
          t.chState f.slice (bitsOf (s.catEntry h) 49 48) (bitsOf (s.catEntry h) 55 50) = 2 ∧
          t.chMsg f.slice (bitsOf (s.catEntry h) 49 48) (bitsOf (s.catEntry h) 55 50) = s.tokenMsg f h (s.catEntry h) tok ∧ Counts s t (F.DELIVERED f.slice) 1) ∧
      (s.freeToken f.slice = none → Completes s (.catalogueLookup n) fun t => t.frame? n = none ∧ Counts s t (F.DELIVER_NO_TOKEN f.slice) 1 ∧
        t.catEntry h = setBits (s.catEntry h) 247 216 (bitsOf (s.catEntry h) 247 216 + 1))))) ∧
  (∀ (s : State) (n h : Nat) (f : Frame), s.slicesUp = true → s.frame? n = some f → f.handle = some h → f.stage = .handled →
    (s.awake f.slice = false ∨ f.slice ≠ homeOf h ∨ f.cellWait ≠ 0 ∨ s.firstOfFlow f = false) → Completes s (.catalogueLookup n) fun t => Only [] [] s t) ∧
  (∀ (s : State) (k : Nat) (w : CatWb) (rest : List CatWb), s.slicesUp = true → takeFirst (fun (x : CatWb) => decide (homeOf x.handle = k)) s.cat.writebacks = some (w, rest) →
    (w.counts = true → w.state = none → Completes s (.catalogueWriteback k) fun t =>
      let e := s.catEntry w.handle
      t.catEntry w.handle = setBits (setBits (setBits e 10 10 1) 167 128 (bitsOf e 167 128 + 1)) 215 168 (bitsOf e 215 168 + w.bytes) ∧
      (∀ h, h ≠ w.handle → t.catEntry h = s.catEntry h) ∧ t.cat = { s.cat with entries := t.cat.entries, writebacks := rest } ∧ Only [.cat] [] s t) ∧
    (∀ st, w.counts = false → w.state = some st → bitsOf (s.catEntry w.handle) 15 12 ≠ w.gen → Completes s (.catalogueWriteback k) fun t =>
      (∀ h, t.catEntry h = s.catEntry h) ∧ Counts s t (F.CAT_STATE_STALE k) 1 ∧
      Only [.cat] [F.CAT_STATE_STALE k] s t) ∧
    (∀ st, w.counts = false → w.state = some st → bitsOf (s.catEntry w.handle) 15 12 = w.gen → Completes s (.catalogueWriteback k) fun t =>
      t.catEntry w.handle = setBits (s.catEntry w.handle) 511 384 st ∧ (∀ h, h ≠ w.handle → t.catEntry h = s.catEntry h) ∧ Only [.cat] [] s t)) ∧
  (∀ (s : State) (k : Nat), s.slicesUp = true → s.cat.writebacks.all (fun x => decide (homeOf x.handle ≠ k)) = true → Completes s (.catalogueWriteback k) fun t => Only [] [] s t) ∧
  (∀ (s : State) (g : Agent) (k n : Nat) (v : Word) (f : Frame), s.slicesUp = true → deliverOk g k = true → Map.find? s.cat.tokens (1024 * k + wordFld v 0 10) = some n →
    s.frame? n = some f → f.id = n →
    (wordFld v 10 2 = 1 → f.cells = [] → Completes s (.deliverRelease g k v) fun t => t.frame? n = none ∧ Map.find? t.cat.tokens (1024 * k + wordFld v 0 10) = none ∧ t.out = s.out) ∧
    (wordFld v 10 2 = 2 → Completes s (.deliverResubmit g k v) fun t => Map.find? t.cat.tokens (1024 * k + wordFld v 0 10) = none ∧
      let data := if wordFld v 14 14 = 0 then f.data else f.data.take (wordFld v 14 14)
      t.frame? n = some { f with stage := .handled, data := data, arrived := data.length, begun := s.time.mono, handle := some (wordFld v 32 21), looked := none, dlClass := s.unitClass 0 } ∧
      Only [.cat, .eth] [F.DELIVER_INUSE k] s t)) ∧
  (∀ (s : State) (g : Agent) (k : Nat) (v : Word), s.slicesUp = true → deliverOk g k = true → Map.find? s.cat.tokens (1024 * k + wordFld v 0 10) = none →
    (wordFld v 10 2 = 1 → Completes s (.deliverRelease g k v) fun t => t.fld (F.DELIVER_BAD k) = min (s.fld (F.DELIVER_BAD k) + 1) (2 ^ (F.DELIVER_BAD k).width - 1) ∧ Only [] [F.DELIVER_BAD k] s t) ∧
    (wordFld v 10 2 = 2 → Completes s (.deliverResubmit g k v) fun t => t.fld (F.DELIVER_BAD k) = min (s.fld (F.DELIVER_BAD k) + 1) (2 ^ (F.DELIVER_BAD k).width - 1) ∧ Only [] [F.DELIVER_BAD k] s t)) ∧
  (∀ (s : State) (g : Agent) (k w : Nat) (v : Word), s.slicesUp = true →
    (deliverOk g k = false → (Completes s (.deliverRelease g k v) fun t => Only [] [] s t) ∧ (Completes s (.deliverResubmit g k v) fun t => Only [] [] s t)) ∧
    (catSlotOk g k w = false → (Completes s (.catCommit g k w v) fun t => Only [] [] s t) ∧ (Completes s (.catInvalidate g k w v) fun t => Only [] [] s t) ∧
      (Completes s (.catRead g k w v) fun t => Only [] [] s t))) ∧
  (∀ (s : State) (g : Agent) (k w : Nat) (v : Word), s.slicesUp = true → catSlotOk g k w = true →
    let h := 2 ^ 19 * k + wordFld v 0 19
    (wordFld v 20 1 = 0 → wordFld v 24 1 = 0 → wordFld v 25 1 = 0 → Completes s (.catCommit g k w v) fun t =>
      t.catEntry h = setBits (setBits (s.catStaged k w) 10 10 0) 15 12 (bitsOf (s.catEntry h) 15 12 + 1) ∧ (∀ h', h' ≠ h → t.catEntry h' = s.catEntry h') ∧ Counts s t (F.CAT_COMMITS k) 1 ∧
      Only [.cat, .poisoned] [F.CAT_COMMITS k] s t) ∧
    (wordFld v 20 1 = 0 → wordFld v 24 1 = 1 → wordFld v 25 1 = 1 → s.catPoisoned h = false → Completes s (.catCommit g k w v) fun t =>
      bitsOf (t.catEntry h) 511 384 = bitsOf (s.catEntry h) 511 384 ∧ bitsOf (t.catEntry h) 247 128 = bitsOf (s.catEntry h) 247 128 ∧
      bitsOf (t.catEntry h) 15 12 = bitsOf (s.catEntry h) 15 12 ∧ bitsOf (t.catEntry h) 127 16 = bitsOf (s.catStaged k w) 127 16 ∧ bitsOf (t.catEntry h) 11 0 = bitsOf (setBits (s.catStaged k w) 10 10 0) 11 0 ∧
      (∀ h', h' ≠ h → t.catEntry h' = s.catEntry h') ∧ Only [.cat, .poisoned] [F.CAT_COMMITS k] s t) ∧
    (wordFld v 20 1 = 1 → Completes s (.catInvalidate g k w v) fun t =>
      t.catEntry h = setBits (setBits (s.catEntry h) 0 0 0) 15 12 (bitsOf (s.catEntry h) 15 12 + 1) ∧ (∀ h', h' ≠ h → t.catEntry h' = s.catEntry h') ∧ Counts s t (F.CAT_COMMITS k) 1 ∧
      Only [.cat] [F.CAT_COMMITS k] s t) ∧
    (s.catPoisoned h = false → Completes s (.catRead g k w v) fun t => (∀ u, u < 8 → t.rd (R.CAT_SNAP k w u) = BitVec.ofNat 64 (s.catEntry h / 2 ^ (64 * u))) ∧
      t.catEntry h = (let e1 := if wordFld v 20 1 = 1 then setBits (s.catEntry h) 247 128 0 else s.catEntry h; if wordFld v 21 1 = 1 then setBits e1 10 10 0 else e1) ∧
      (∀ h', h' ≠ h → t.catEntry h' = s.catEntry h') ∧ Only [.cat] ((List.range 8).map fun u => ⟨R.CAT_SNAP k w u, 0, 64⟩) s t) ∧
    (s.catPoisoned h = true → Completes s (.catRead g k w v) fun t => (∀ h', t.catEntry h' = s.catEntry h') ∧ Only [] ((List.range 8).map fun u => ⟨R.CAT_SNAP k w u, 0, 64⟩) s t))

/-- Destination lookup, table commands, learning, provenance and ageing. A destination lookup counts, and gives the frame the rule's handle where no entry is found, the entry's where it is this device's, sends it to the entry's member where it is another's, or drops it where it would leave by its ingress port; a prefetched result for another bridge domain counts as a miss first. INSERT_STATIC overwrites the key's entry, or puts the staged one in its first free slot, or reports 3; DELETE empties the key's slot, withdraws a local entry, or reports 2; LOOKUP copies the entry into the stage, or reports 2; the flushes remove the non-static entries they name and no static one; an agent that does not own the slot changes nothing. Learning a new address within the limit takes a free slot, a known one renews LAST_SEEN, a moved one replaces the entry, a static entry stands, one at the limit is not learned and counted, and one without a slot is a collision; an empty queue is left. A provenance LEARN fills a free slot, one without a slot is a collision, a later one replaces, an older one is stale, a static entry refuses it and counts, a REFRESH of the same announcement renews LAST_SEEN, a WITHDRAW of it removes it, and one of none is stale. Ageing removes an entry not seen for ADDR_AGE_TIME, and no other. The tables' buckets hold no poison. -/
def Obligations.AddressTableIsKept : Prop :=
  (∀ (s : State) (n : Nat) (f : Frame) (k p : Nat), s.slicesUp = true → s.frame? n = some f → f.id = n → f.origin = .eth k p → f.slice = k → f.stage = .addrLookup → (f.prefetch = true → f.bridge = s.fld (F.PORT_L2_CFG_DEFAULT_BD k p)) →
    f.learnPending = false → f.fed = none → f.floodTo = none → s.poisoned = [] →
    (s.findKey k f.bridge (macAt f.data 0) = none → Completes s (.addrLookup n) fun t =>
      t.frame? n = some { f with handle := some f.ruleHandle, stage := .handled } ∧ Only [.eth] [F.ADDR_LOOKUPS k] s t) ∧
    (∀ m e, s.findKey k f.bridge (macAt f.data 0) = some (m, e) → e.origin = s.fedId → (e.port ≠ s.portNumber k p ∨ s.on (F.PORT_L2_CFG_HAIRPIN k p) = true) →
      Completes s (.addrLookup n) fun t => t.frame? n = some { f with handle := some e.handle, stage := .handled } ∧ Only [.eth] [F.ADDR_LOOKUPS k, F.ADDR_HITS k] s t) ∧
    (∀ m e, s.findKey k f.bridge (macAt f.data 0) = some (m, e) → e.origin ≠ s.fedId → f.whole = false → Completes s (.addrLookup n) fun t =>
      t.frame? n = some { f with fed := some (e.origin, e.handle, f.dlClass), handle := none, stage := .steered } ∧ Counts s t (F.ADDR_LOOKUPS k) 1 ∧
      Only [.eth] [F.ADDR_LOOKUPS k, F.ADDR_HITS k] s t) ∧
    (∀ m e, s.findKey k f.bridge (macAt f.data 0) = some (m, e) → e.origin ≠ s.fedId → f.whole = true → s.fld (F.KL_ROUTE e.origin) = 7 → f.looked = none → f.cells = [] →
      (s.eth.egress.any fun x => decide (x.frame = n)) = false → Completes s (.addrLookup n) fun t => t.frame? n = none ∧ Counts s t F.KL_UNREACH_DROP 1) ∧
    (∀ m e, s.findKey k f.bridge (macAt f.data 0) = some (m, e) → e.origin = s.fedId → e.port = s.portNumber k p → s.on (F.PORT_L2_CFG_HAIRPIN k p) = false → k < 4 →
      f.looked = none → f.cells = [] → (s.eth.egress.any fun x => decide (x.frame = n)) = false → Completes s (.addrLookup n) fun t => t.frame? n = none ∧ t.cat.entries = s.cat.entries ∧
        Counts s t (F.ADDR_SAME_PORT_DROP k) 1)) ∧
  (∀ (s : State) (n : Nat) (f : Frame) (k p : Nat), s.slicesUp = true → s.frame? n = some f → f.id = n → f.origin = .eth k p → f.slice = k → f.stage = .addrLookup →
    f.fed = none → f.floodTo = none → s.poisoned = [] → f.prefetch = true → f.bridge ≠ s.fld (F.PORT_L2_CFG_DEFAULT_BD k p) → f.learnPending = false →
    s.findKey k f.bridge (macAt f.data 0) = none → Completes s (.addrLookup n) fun t =>
      t.frame? n = some { f with handle := some f.ruleHandle, stage := .handled } ∧ Counts s t (F.ADDR_PREFETCH_MISS k) 1 ∧ Only [.eth] [F.ADDR_LOOKUPS k, F.ADDR_PREFETCH_MISS k] s t) ∧
  (∀ (s : State) (n : Nat), s.slicesUp = true → (∀ f, s.frame? n = some f → f.stage ≠ .addrLookup) → Completes s (.addrLookup n) fun t => Only [] [] s t) ∧
  (∀ (s : State) (g : Agent) (k w : Nat), s.slicesUp = true → addrCmdOk g k w = true → s.poisoned = [] →
    let e := s.addrStaged k w
    (∀ n, s.findKey k e.bd e.mac = none → s.freeSlot k e.bd e.mac = some n → Completes s (.insertStatic g k w) fun t => t.slot? k n = some { e with isStatic := true } ∧
      (∀ m, m ≠ n → t.slot? k m = s.slot? k m) ∧ t.fld (F.ADDR_RESULT k w) = 1 ∧ Only [.addr] [F.ADDR_ENTRIES k, F.ADDR_RESULT k w] s t) ∧
    (∀ n x, s.findKey k e.bd e.mac = some (n, x) → Completes s (.insertStatic g k w) fun t => t.slot? k n = some { e with isStatic := true } ∧
      (∀ m, m ≠ n → t.slot? k m = s.slot? k m) ∧ t.fld (F.ADDR_RESULT k w) = 1) ∧
    (s.findKey k e.bd e.mac = none → s.freeSlot k e.bd e.mac = none → Completes s (.insertStatic g k w) fun t =>
      t.fld (F.ADDR_RESULT k w) = 3 ∧ Only [] [F.ADDR_RESULT k w] s t) ∧
    (s.findKey k e.bd e.mac = none → (Completes s (.addrDelete g k w) fun t => t.fld (F.ADDR_RESULT k w) = 2 ∧ Only [] [F.ADDR_RESULT k w] s t) ∧
      (Completes s (.addrCmdLookup g k w) fun t => t.fld (F.ADDR_RESULT k w) = 2 ∧ Only [] [F.ADDR_RESULT k w] s t)) ∧
    (∀ n x, s.findKey k e.bd e.mac = some (n, x) →
      (Completes s (.addrDelete g k w) fun t => t.slot? k n = none ∧ (∀ m, m ≠ n → t.slot? k m = s.slot? k m) ∧ t.fld (F.ADDR_RESULT k w) = 1) ∧
      (s.isLocal k x = true → s.on (F.PROV_CTRL_SLICE_EN k) = true → k < s.addr.provOut.length → (s.addr.provOut.getD k []).length < 1024 → Completes s (.addrDelete g k w) fun t =>
        t.addr.provOut.getD k [] = s.addr.provOut.getD k [] ++ [{ typ := 2, origin := x.origin, originSlice := x.originSlice, bd := x.bd, mac := x.mac, handle := x.handle, port := x.port, stamp := x.stamp }]) ∧
      (Completes s (.addrCmdLookup g k w) fun t => t.fld (F.ADDR_RESULT k w) = 1 ∧ (∀ u, u < 4 → t.rd (R.ADDR_STAGE k w u) = BitVec.ofNat 64 (x.toNat / 2 ^ (64 * u))) ∧
        Only [] (F.ADDR_RESULT k w :: (List.range 4).map fun u => ⟨R.ADDR_STAGE k w u, 0, 64⟩) s t)) ∧
    (Map.sorted s.addr.slots = true →
      (Completes s (.flushPort g k w) fun t => t.fld (F.ADDR_RESULT k w) = 1 ∧ ∀ n x, n < 262144 → s.slot? k n = some x →
        t.slot? k n = (if x.isStatic = false ∧ s.isLocal k x = true ∧ x.port = e.port then none else some x)) ∧
      (Completes s (.flushBd g k w) fun t => t.fld (F.ADDR_RESULT k w) = 1 ∧ ∀ n x, n < 262144 → s.slot? k n = some x →
        t.slot? k n = (if x.isStatic = false ∧ x.bd = e.bd then none else some x)) ∧
      (Completes s (.flushDynamic g k w) fun t => t.fld (F.ADDR_RESULT k w) = 1 ∧ ∀ n x, n < 262144 → s.slot? k n = some x →
        t.slot? k n = (if x.isStatic = false then none else some x)))) ∧
  (∀ (s : State) (g : Agent) (k w : Nat), s.slicesUp = true → addrCmdOk g k w = false →
    (Completes s (.insertStatic g k w) fun t => Only [] [] s t) ∧ (Completes s (.addrDelete g k w) fun t => Only [] [] s t) ∧ (Completes s (.addrCmdLookup g k w) fun t => Only [] [] s t) ∧
    (Completes s (.flushPort g k w) fun t => Only [] [] s t) ∧ (Completes s (.flushBd g k w) fun t => Only [] [] s t) ∧ (Completes s (.flushDynamic g k w) fun t => Only [] [] s t)) ∧
  (∀ (s : State) (k : Nat), s.slicesUp = true → (s.addr.learnQ.getD k [] = [] → Completes s (.learn k) fun t => Only [] [] s t) ∧
    (s.addr.provIn.getD k [] = [] → (Completes s (.provenanceLearn k) fun t => Only [] [] s t) ∧ (Completes s (.provenanceRefresh k) fun t => Only [] [] s t) ∧
      (Completes s (.provenanceWithdraw k) fun t => Only [] [] s t))) ∧
  (∀ (s : State) (k : Nat) (r : LearnReq) (rest : List LearnReq), s.slicesUp = true → k < 4 → s.addr.learnQ.length = 4 → s.addr.learnQ.getD k [] = r :: rest → s.frame? r.frame = none → r.port < 8 → s.poisoned = [] →
    (∀ n, s.findKey k r.bd r.mac = none → s.fld (F.PORT_LEARN_COUNT k r.port) < s.fld (F.PORT_LEARN_LIMIT k r.port) → s.freeSlot k r.bd r.mac = some n → Completes s (.learn k) fun t =>
      t.slot? k n = some (s.localEntry k r.bd r.mac r.port (ts64 s.ftNow)) ∧ (∀ m, m ≠ n → t.slot? k m = s.slot? k m) ∧ t.addr.learnQ.getD k [] = rest ∧
      Counts s t (F.ADDR_LEARNED k) 1) ∧
    (∀ n x, s.findKey k r.bd r.mac = some (n, x) → x.isStatic = true → Completes s (.learn k) fun t => t.addr.slots = s.addr.slots ∧ t.addr.learnQ.getD k [] = rest ∧
      Counts s t (F.ADDR_STATIC_HIT k) 1 ∧ Only [.addr] [F.ADDR_STATIC_HIT k] s t) ∧
    (∀ n x, s.findKey k r.bd r.mac = some (n, x) → x.isStatic = false → s.sameLearn k r.port x = true →
      let due := decide (((s.ageTime k / 2 : Nat) : Int) ≤ signed 32 (unsigned 32 ((s.sec32 : Int) - (x.announced : Int))))
      Completes s (.learn k) fun t => t.slot? k n = some { x with lastSeen := s.sec32, announced := if due = true then s.sec32 else x.announced } ∧
        (∀ m, m ≠ n → t.slot? k m = s.slot? k m) ∧ t.addr.learnQ.getD k [] = rest ∧ (due = false → t.addr.provOut = s.addr.provOut)) ∧
    (∀ n x, s.findKey k r.bd r.mac = some (n, x) → x.isStatic = false → s.sameLearn k r.port x = false → s.fld (F.PORT_LEARN_COUNT k r.port) < s.fld (F.PORT_LEARN_LIMIT k r.port) →
      Completes s (.learn k) fun t => t.slot? k n = some (s.localEntry k r.bd r.mac r.port (learnStamp (ts64 s.ftNow) x.stamp)) ∧ (∀ m, m ≠ n → t.slot? k m = s.slot? k m) ∧
        t.addr.learnQ.getD k [] = rest ∧ Counts s t (F.ADDR_MOVES k) 1) ∧
    (s.findKey k r.bd r.mac = none → s.fld (F.PORT_LEARN_COUNT k r.port) < s.fld (F.PORT_LEARN_LIMIT k r.port) → s.freeSlot k r.bd r.mac = none → Completes s (.learn k) fun t =>
      t.addr.slots = s.addr.slots ∧ Counts s t (F.ADDR_COLLIDE k) 1 ∧ t.on (F.ADDR_INT_STATUS_COLLIDE_SEEN k) = true ∧
      Only [.addr, .keeperPend] [F.ADDR_COLLIDE k, F.ADDR_INT_STATUS_COLLIDE_SEEN k] s t) ∧
    (s.findKey k r.bd r.mac = none → s.fld (F.PORT_LEARN_LIMIT k r.port) ≤ s.fld (F.PORT_LEARN_COUNT k r.port) → Completes s (.learn k) fun t => t.addr.slots = s.addr.slots ∧
      Counts s t (F.ADDR_OVER_LIMIT k r.port) 1 ∧ t.on (F.ADDR_INT_STATUS_OVER_LIMIT_SEEN k) = true ∧
      Only [.addr, .keeperPend] [F.ADDR_OVER_LIMIT k r.port, F.ADDR_INT_STATUS_OVER_LIMIT_SEEN k] s t)) ∧
  (∀ (s : State) (k : Nat) (m : ProvMsg) (rest : List ProvMsg), s.slicesUp = true → k < 4 → s.addr.provIn.getD k [] = m :: rest → s.poisoned = [] →
    (∀ n, m.typ = 1 → s.findKey k m.bd m.mac = none → s.freeSlot k m.bd m.mac = some n → Completes s (.provenanceLearn k) fun t =>
      t.slot? k n = some (s.remoteEntry m) ∧ (∀ i, i ≠ n → t.slot? k i = s.slot? k i) ∧ Only [.addr] [F.ADDR_ENTRIES k] s t) ∧
    (∀ n x, m.typ = 1 → s.findKey k m.bd m.mac = some (n, x) → x.isStatic = false → laterStamp m.stamp x.stamp = false → m.stamp ≠ x.stamp → Completes s (.provenanceLearn k) fun t =>
      t.addr.slots = s.addr.slots ∧ Counts s t (F.PROV_STALE k) 1 ∧ Only [.addr] [F.PROV_STALE k] s t) ∧
    (∀ n x, m.typ = 1 → s.findKey k m.bd m.mac = some (n, x) → x.isStatic = false → laterStamp m.stamp x.stamp = true → m.stamp ≠ x.stamp → Completes s (.provenanceLearn k) fun t =>
      t.slot? k n = some (s.remoteEntry m) ∧ (∀ i, i ≠ n → t.slot? k i = s.slot? k i) ∧ Counts s t (F.ADDR_MOVES k) 1) ∧
    (∀ n x, s.findKey k m.bd m.mac = some (n, x) → x.isStatic = true →
      (m.typ = 1 → Completes s (.provenanceLearn k) fun t => t.addr.slots = s.addr.slots ∧ Counts s t (F.ADDR_STATIC_HIT k) 1 ∧ Only [.addr] [F.ADDR_STATIC_HIT k] s t) ∧
      (m.typ = 3 → Completes s (.provenanceRefresh k) fun t => t.addr.slots = s.addr.slots ∧ Counts s t (F.ADDR_STATIC_HIT k) 1 ∧ Only [.addr] [F.ADDR_STATIC_HIT k] s t) ∧
      (m.typ = 2 → Completes s (.provenanceWithdraw k) fun t => t.addr.slots = s.addr.slots ∧ Counts s t (F.ADDR_STATIC_HIT k) 1 ∧ Only [.addr] [F.ADDR_STATIC_HIT k] s t)) ∧
    (m.typ = 1 → s.findKey k m.bd m.mac = none → s.freeSlot k m.bd m.mac = none → Completes s (.provenanceLearn k) fun t =>
      t.addr.slots = s.addr.slots ∧ Counts s t (F.ADDR_COLLIDE k) 1 ∧ t.on (F.ADDR_INT_STATUS_COLLIDE_SEEN k) = true ∧
      Only [.addr, .keeperPend] [F.ADDR_COLLIDE k, F.ADDR_INT_STATUS_COLLIDE_SEEN k] s t) ∧
    (∀ n x, m.typ = 3 → s.findKey k m.bd m.mac = some (n, x) → x.isStatic = false → x.origin = m.origin → x.originSlice = m.originSlice → x.stamp = m.stamp → Completes s (.provenanceRefresh k) fun t =>
      t.slot? k n = some { x with lastSeen := s.sec32 } ∧ (∀ i, i ≠ n → t.slot? k i = s.slot? k i) ∧ Only [.addr] [] s t) ∧
    (∀ n x, m.typ = 2 → s.findKey k m.bd m.mac = some (n, x) → x.isStatic = false → x.origin = m.origin → x.originSlice = m.originSlice → x.stamp = m.stamp → Completes s (.provenanceWithdraw k) fun t =>
      t.slot? k n = none ∧ (∀ i, i ≠ n → t.slot? k i = s.slot? k i)) ∧
    (m.typ = 2 → s.findKey k m.bd m.mac = none → Completes s (.provenanceWithdraw k) fun t =>
      Counts s t (F.PROV_STALE k) 1 ∧ Only [.addr] [F.PROV_STALE k] s t)) ∧
  (∀ (s : State) (k n : Nat) (e : AddrEntry), s.slicesUp = true → k < 4 → n < 262144 → s.slot? k n = some e → s.poisoned = [] →
    let old := (s.sec32 + 2 ^ 32 - e.lastSeen) % 2 ^ 32
    (e.isStatic = false → 0 < s.ageTime k → s.ageTime k ≤ old → old < 2 ^ 31 → Completes s (.addrAgeingVisit k n) fun t =>
      t.slot? k n = none ∧ (∀ m, m ≠ n → t.slot? k m = s.slot? k m) ∧ Counts s t (F.ADDR_AGED k) 1) ∧
    ((e.isStatic = true ∨ s.ageTime k = 0 ∨ old < s.ageTime k ∨ 2 ^ 31 ≤ old) → Completes s (.addrAgeingVisit k n) fun t => Only [] [] s t)) ∧
  (∀ (s : State) (k n : Nat), s.slicesUp = true → n < 262144 → s.slot? k n = none → s.poisoned = [] → Completes s (.addrAgeingVisit k n) fun t => Only [] [] s t)

/-- The root key opcodes load, export, restore, show and erase slots. Into an EMPTY slot from 1 to 7, while the generators are OK, GENERATE loads 256 bits from the hub generator, IMPORT the key its blob holds when the tag verifies, INSTALL over MCTP the key of its payload while provisioning is open: the slot becomes LOADED with its usage, GEN moves on, and while slot 0 is loaded a sealed copy of it is kept. Loading slot 0, or one that is not EMPTY, answers CIPHER_SLOT_BUSY and changes nothing; while the generators are not OK it answers CIPHER_RNG_UNAVAILABLE; an IMPORT whose wrapping slot does not serve answers that status and one whose tag fails CIPHER_AUTH_FAIL; an INSTALL by another route answers MGMT_ROUTE_DENIED and one after provisioning is closed or its fuse burnt is refused. EXPORT of an exportable slot answers the header, nonce, encrypted key and tag, and erases nothing; of an EMPTY one CIPHER_KEY_EMPTY; one of slot 0 or not exportable is refused. ERASE moves a loaded slot to ERASING and drops its cached keys, and has no reply yet; of an EMPTY one it answers CIPHER_KEY_EMPTY, and slot 0's is refused; when no job or result holds a key of it, the slot is EMPTY, its copy is gone and the reply is SUCCESS; before that nothing happens. RESTORE loads slot 0 from the fuses and the EMPTY slots from their sealed copies, and one whose tag fails stays EMPTY and is logged. STATUS answers the eight ROOT_SLOT words. Each runs for its own opcode alone. -/
def Obligations.RootKeysAreLoadedAndErased : Prop :=
  (∀ (s : State) (h : Holder), s.slicesUp = true →
    let n := keySlot h.cmd
    let loads := [F.ROOT_SLOT_STATE n, F.ROOT_SLOT_USAGE n, F.ROOT_SLOT_EXPORTABLE n, F.ROOT_SLOT_ORIGIN n, F.ROOT_SLOT_GEN n, F.RNG_BYTES, F.RNG_RESEEDS]
    let loaded := fun (t : State) (usage : Nat) (key : List Byte) => t.fld (F.ROOT_SLOT_STATE n) = slotLoaded ∧ t.fld (F.ROOT_SLOT_USAGE n) = usage ∧ t.rootKey n = key ∧
      Counts s t (F.ROOT_SLOT_GEN n) 1 ∧ (∀ m, m ≠ n → Map.find? t.cipher.keys m = Map.find? s.cipher.keys m) ∧ t.cipher.cache = s.cipher.cache ∧
      (if s.fld (F.ROOT_SLOT_STATE 0) = slotLoaded then (t.cipher.nor.any fun c => decide (c.slot = n)) = true else t.cipher.nor = s.cipher.nor)
    (n ≠ 0 → s.fld (F.ROOT_SLOT_STATE n) = slotEmpty →
      (s.Holds 0x0210 h → s.rngState = rngOk → Completes s .rootKeyGenerate fun t => MgmtAnswers s t h (some (mkReply St.SUCCESS [] 0)) [.cipher] loads ∧
        loaded t (keyUsage h.cmd) ((List.range 32).map (Config.random s.freeCtr))) ∧
      (s.Holds 0x0210 h → s.rngState ≠ rngOk → Completes s .rootKeyGenerate fun t => MgmtAnswers s t h (some (mkReply St.CIPHER_RNG_UNAVAILABLE [] 0)) [] []) ∧
      (∀ st, s.Holds 0x0211 h → s.keyRefused (keyWrap h.cmd) 7 = some st → Completes s .rootKeyImport fun t => MgmtAnswers s t h (some (mkReply st [] 0)) [] []) ∧
      (s.Holds 0x0211 h → s.keyRefused (keyWrap h.cmd) 7 = none →
        let blob := slice h.cmd.payload 16 80
        let k := s.wrapKey (keyWrap h.cmd) (slice blob 16 16)
        let key := gcmDec (k.take 32) (slice k 32 12) (blob.take 16) (slice blob 32 32) (slice blob 64 16)
        (∀ x, s.rngState = rngOk → key = some x → Completes s .rootKeyImport fun t => MgmtAnswers s t h (some (mkReply St.SUCCESS [] 0)) [.cipher] loads ∧ loaded t (leAt blob 1 1 % 16) x) ∧
        (s.rngState = rngOk → key = none → Completes s .rootKeyImport fun t => MgmtAnswers s t h (some (mkReply St.CIPHER_AUTH_FAIL [] 0)) [] []) ∧
        (s.rngState ≠ rngOk → Completes s .rootKeyImport fun t => MgmtAnswers s t h (some (mkReply St.CIPHER_RNG_UNAVAILABLE [] 0)) [] [])) ∧
      (s.Holds 0x0212 h → h.cmd.route = 1 → s.on F.ROOT_PROVISION_CLOSED = false → s.boot.rootProvision = false →
        (s.rngState = rngOk → Completes s .rootKeyInstall fun t => MgmtAnswers s t h (some (mkReply St.SUCCESS [] 0)) [.cipher] loads ∧ loaded t (keyUsage h.cmd) (slice h.cmd.payload 16 32)) ∧
        (s.rngState ≠ rngOk → Completes s .rootKeyInstall fun t => MgmtAnswers s t h (some (mkReply St.CIPHER_RNG_UNAVAILABLE [] 0)) [] []))) ∧
    (n = 0 ∨ s.fld (F.ROOT_SLOT_STATE n) ≠ slotEmpty →
      (s.Holds 0x0210 h → Completes s .rootKeyGenerate fun t => MgmtAnswers s t h (some (mkReply St.CIPHER_SLOT_BUSY [] 0)) [] []) ∧
      (s.Holds 0x0211 h → Completes s .rootKeyImport fun t => MgmtAnswers s t h (some (mkReply St.CIPHER_SLOT_BUSY [] 0)) [] []) ∧
      (s.Holds 0x0212 h → h.cmd.route = 1 → s.on F.ROOT_PROVISION_CLOSED = false → s.boot.rootProvision = false → Completes s .rootKeyInstall fun t =>
        MgmtAnswers s t h (some (mkReply St.CIPHER_SLOT_BUSY [] 0)) [] [])) ∧
    (s.Holds 0x0212 h → h.cmd.route ≠ 1 → Completes s .rootKeyInstall fun t => MgmtAnswers s t h (some (mkReply St.MGMT_ROUTE_DENIED [] 0)) [] []) ∧
    (s.Holds 0x0212 h → h.cmd.route = 1 → (s.on F.ROOT_PROVISION_CLOSED = true ∨ s.boot.rootProvision = true) → Completes s .rootKeyInstall fun t => MgmtRefuses s t h) ∧
    (s.Holds 0x0213 h → s.fld (F.ROOT_SLOT_STATE n) ≠ slotLoaded → Completes s .rootKeyExport fun t => MgmtAnswers s t h (some (mkReply St.CIPHER_KEY_EMPTY [] 0)) [] []) ∧
    (s.Holds 0x0213 h → s.fld (F.ROOT_SLOT_STATE n) = slotLoaded → (n = 0 ∨ s.on (F.ROOT_SLOT_EXPORTABLE n) = false) → Completes s .rootKeyExport fun t => MgmtRefuses s t h) ∧
    (s.Holds 0x0213 h → n ≠ 0 → s.fld (F.ROOT_SLOT_STATE n) = slotLoaded → s.on (F.ROOT_SLOT_EXPORTABLE n) = true →
      let nonce := (List.range 16).map (Config.random s.freeCtr)
      let k := s.wrapKey (keyWrap h.cmd) nonce
      let head := leBytes 1 1 ++ leBytes 1 (s.fld (F.ROOT_SLOT_USAGE n)) ++ leBytes 1 1 ++ leBytes 13 0
      let g := gcmEnc (k.take 32) (slice k 32 12) head (s.rootKey n)
      (∀ st, s.keyRefused (keyWrap h.cmd) 7 = some st → Completes s .rootKeyExport fun t => MgmtAnswers s t h (some (mkReply st [] 0)) [] []) ∧
      (s.keyRefused (keyWrap h.cmd) 7 = none → s.rngState ≠ rngOk → Completes s .rootKeyExport fun t => MgmtAnswers s t h (some (mkReply St.CIPHER_RNG_UNAVAILABLE [] 0)) [] []) ∧
      (s.keyRefused (keyWrap h.cmd) 7 = none → s.rngState = rngOk → Completes s .rootKeyExport fun t =>
        MgmtAnswers s t h (some (mkReply St.SUCCESS (head ++ nonce ++ g.1 ++ g.2) 0)) [] [F.RNG_BYTES, F.RNG_RESEEDS])) ∧
    (s.Holds 0x0214 h → n = 0 → Completes s .rootKeyErase fun t => MgmtRefuses s t h) ∧
    (s.Holds 0x0214 h → n ≠ 0 → Map.find? s.cipher.keys n = none → Completes s .rootKeyErase fun t => MgmtAnswers s t h (some (mkReply St.CIPHER_KEY_EMPTY [] 0)) [] []) ∧
    (∀ key, s.Holds 0x0214 h → n ≠ 0 → Map.find? s.cipher.keys n = some key → s.cipher.cache.length = 4 → Completes s .rootKeyErase fun t =>
      MgmtAnswers s t h none [.cipher] ([F.ROOT_SLOT_STATE n, F.ROOT_SLOT_GEN n] ++ (List.range 4).map fun k => F.KC_ENTRIES k) ∧ t.fld (F.ROOT_SLOT_STATE n) = slotErasing ∧
      Counts s t (F.ROOT_SLOT_GEN n) 1 ∧ ∀ k, k < 4 → t.kc k = (s.kc k).filter (fun e => !decide (e.slot = n)))) ∧
  (∀ (s : State) (n : Nat), s.slicesUp = true → n < 8 →
    (∀ (h : Holder) (key : RootKey), Map.find? s.cipher.keys n = some key → key.eraseWaits = true → s.keyHeld n = false →
      s.mgmt.holder = some h → h.started = true → h.reply = none → h.cmd.opcode = 0x0214 → Completes s (.rootKeyEraseDone n) fun t =>
      t.fld (F.ROOT_SLOT_STATE n) = slotEmpty ∧ Map.find? t.cipher.keys n = none ∧ t.mgmt = { s.mgmt with holder := some { h with reply := some (mkReply St.SUCCESS [] 0) } } ∧
      (t.cipher.nor.any fun c => decide (c.slot = n)) = false ∧ Only [.cipher, .mgmt] [F.ROOT_SLOT_STATE n] s t) ∧
    (∀ key, Map.find? s.cipher.keys n = some key → key.eraseWaits = true → s.keyHeld n = false → s.mgmt.holder = none → Completes s (.rootKeyEraseDone n) fun t =>
      t.fld (F.ROOT_SLOT_STATE n) = slotEmpty ∧ Map.find? t.cipher.keys n = none ∧ (t.cipher.nor.any fun c => decide (c.slot = n)) = false ∧ Only [.cipher] [F.ROOT_SLOT_STATE n] s t) ∧
    ((Map.find? s.cipher.keys n = none ∨ (Map.find? s.cipher.keys n).all (fun key => !key.eraseWaits) = true ∨ s.keyHeld n = true) → Completes s (.rootKeyEraseDone n) fun t => Only [] [] s t) ∧
    ((s.cipher.jobs.any fun j => decide (j.slot = n)) = true → s.keyHeld n = true)) ∧
  (∀ (s : State) (h : Holder), s.slicesUp = true → s.Holds 0x0215 h →
    let loads := fun m => [F.ROOT_SLOT_STATE m, F.ROOT_SLOT_USAGE m, F.ROOT_SLOT_EXPORTABLE m, F.ROOT_SLOT_ORIGIN m, F.ROOT_SLOT_GEN m]
    (s.fld (F.ROOT_SLOT_STATE 0) ≠ slotLoaded → s.cipher.nor = [] → Completes s .rootKeyRestore fun t => MgmtAnswers s t h (some (mkReply St.SUCCESS [] 0)) [.cipher] (loads 0) ∧
      t.fld (F.ROOT_SLOT_STATE 0) = slotLoaded ∧ t.rootKey 0 = leBytes 32 Config.deviceSecret ∧ t.cipher.tamperAt = none) ∧
    (s.fld (F.ROOT_SLOT_STATE 0) = slotLoaded → s.cipher.nor = [] → Completes s .rootKeyRestore fun t => MgmtAnswers s t h (some (mkReply St.SUCCESS [] 0)) [.cipher] [] ∧
      t.cipher = { s.cipher with tamperAt := none }) ∧
    (∀ c : NorKey, s.fld (F.ROOT_SLOT_STATE 0) = slotLoaded → s.cipher.nor = [c] → 0 < c.slot → c.slot < 8 → s.fld (F.ROOT_SLOT_STATE c.slot) = slotEmpty →
      (∀ key, s.unseal c = some key → Completes s .rootKeyRestore fun t => MgmtAnswers s t h (some (mkReply St.SUCCESS [] 0)) [.cipher] (loads c.slot) ∧
        t.fld (F.ROOT_SLOT_STATE c.slot) = slotLoaded ∧ t.rootKey c.slot = key ∧ t.fld (F.ROOT_SLOT_USAGE c.slot) = c.usage % 16) ∧
      (s.unseal c = none → Completes s .rootKeyRestore fun t => t.fld (F.ROOT_SLOT_STATE c.slot) = slotEmpty ∧ t.cipher.keys = s.cipher.keys ∧
        t.on F.ROOT_INT_STATUS_RESTORE_FAIL_SEEN = true ∧ t.eventLog = s.eventLog ++ [⟨s.eventSeq, s.time.mono, R.ROOT_SLOT c.slot, 0, c.slot⟩] ∧
        MgmtAnswers s t h (some (mkReply St.SUCCESS [] 0)) [.cipher, .keeperPend, .eventLog] [F.ROOT_INT_STATUS_RESTORE_FAIL_SEEN]))) ∧
  (∀ (s : State) (h : Holder), s.slicesUp = true → s.Holds 0x0216 h → Completes s .rootKeyStatus fun t =>
    MgmtAnswers s t h (some (mkReply St.SUCCESS (dwsBytes ((List.range 8).map fun n => (s.rd (R.ROOT_SLOT n)).toNat)) 0)) [] []) ∧
  RunsFor .rootKeyGenerate 0x0210 ∧ RunsFor .rootKeyImport 0x0211 ∧ RunsFor .rootKeyInstall 0x0212 ∧ RunsFor .rootKeyExport 0x0213 ∧ RunsFor .rootKeyErase 0x0214 ∧
  RunsFor .rootKeyRestore 0x0215 ∧ RunsFor .rootKeyStatus 0x0216

/-- Random generators, derivations, tamper and self-tests. The start-up test makes the generators OK and reseeds them, and does nothing while they are OK; a health failure makes them FAILED, counts, and ends a queued ring job with CIPHER_RNG_UNAVAILABLE. A slice generator reseeds when it is due and not before; a mask stream is reseeded every 65,536 fabric cycles and not before; neither while the generators are not OK. A derivation whose paths agree answers the Rennet output of its loaded slot, or CIPHER_KEY_EMPTY where the slot is not loaded under that generation; one whose paths differ raises an alarm, sends the unit to a self-test of 20 µs in which it ends nothing, and is tried once more, on the other unit, then fails with CIPHER_CHECK_FAIL. TAMPER erases every root key, cache and pair, with the keys that results held, and sends every pair to its self-test; no detector, no TAMPER. The reload, a second later, loads slot 0 and restores an EMPTY slot from its sealed copy, at most three times in 24 hours; before that second, or with no TAMPER, nothing. A pair that passes its self-test is ONLINE, one that fails is FAILED; a pair that is in none is left; and the Keeper alone has FAILED pairs tested again. -/
def Obligations.GeneratorsAndAlarms : Prop :=
  (∀ (s : State), s.slicesUp = true →
    (s.rngState ≠ rngOk → Completes s .rngStartupTest fun t => t.rngState = rngOk ∧ t.cipher = { s.cipher with drbg := List.replicate 4 (0, s.time.mono) } ∧
      Counts s t F.RNG_RESEEDS 5 ∧ Only [.cipher] [F.RNG_STATUS_STATE, F.RNG_RESEEDS] s t) ∧
    (s.rngState = rngOk → Completes s .rngStartupTest fun t => Only [] [] s t)) ∧
  (∀ (s : State), s.slicesUp = true → s.transforming = [] →
    (s.cipher.jobs = [] → Completes s .rngHealthFail fun t => t.rngState = rngFailed ∧ t.fld F.RNG_HEALTH_FAIL = min (s.fld F.RNG_HEALTH_FAIL + 1) (2 ^ F.RNG_HEALTH_FAIL.width - 1) ∧
      t.on F.ROOT_INT_STATUS_RNG_FAIL_SEEN = true ∧ Only [.keeperPend] [F.RNG_STATUS_STATE, F.RNG_HEALTH_FAIL, F.ROOT_INT_STATUS_RNG_FAIL_SEEN] s t) ∧
    (∀ j q id r, s.cipher.jobs = [j] → j.src = .ring q id → s.jobById j.slice q id = some r →
      (j.pair = none → Completes s .rngHealthFail fun t => t.rngState = rngFailed ∧ t.cipher.jobs = [] ∧ t.rings = (s.finish r St.CIPHER_RNG_UNAVAILABLE 0 false).rings) ∧
      (∀ x, j.pair = some x → Completes s .rngHealthFail fun t => t.rngState = rngFailed ∧ t.cipher = s.cipher ∧ t.rings = s.rings))) ∧
  (∀ (s : State) (k : Nat), s.slicesUp = true →
    let d := s.cipher.drbg.getD k (0, 0)
    (k < 4 → s.rngState = rngOk → k < s.cipher.drbg.length → (2 ^ 20 ≤ d.1 ∨ d.2 + ticksPerSec ≤ s.time.mono) → Completes s (.drbgReseed k) fun t =>
      t.cipher = { s.cipher with drbg := s.cipher.drbg.set k (0, s.time.mono) } ∧ t.cipher.drbg.getD k (0, 0) = (0, s.time.mono) ∧
      Counts s t F.RNG_RESEEDS 1 ∧ Only [.cipher] [F.RNG_RESEEDS] s t) ∧
    (4 ≤ k ∨ s.rngState ≠ rngOk ∨ d.1 < 2 ^ 20 ∧ s.time.mono < d.2 + ticksPerSec → Completes s (.drbgReseed k) fun t => Only [] [] s t)) ∧
  (∀ (s : State) (k x c : Nat), s.slicesUp = true → k < 4 → x < 10 → c < 2 →
    let last := Map.get (fun _ => 0) s.cipher.maskAt (32 * k + 2 * x + c)
    (s.rngState = rngOk → last + 65536 ≤ s.time.mono → Completes s (.maskReseed k x c) fun t => Map.get (fun _ => 0) t.cipher.maskAt (32 * k + 2 * x + c) = s.time.mono ∧
      (∀ n, n ≠ 32 * k + 2 * x + c → Map.find? t.cipher.maskAt n = Map.find? s.cipher.maskAt n) ∧ Only [.cipher] [F.RNG_BYTES, F.RNG_RESEEDS] s t) ∧
    (s.rngState ≠ rngOk ∨ s.time.mono < last + 65536 → Completes s (.maskReseed k x c) fun t => Only [] [] s t)) ∧
  (∀ (s : State) (k u : Nat) (r : KeyReq), s.slicesUp = true → s.kdfTesting k u = false →
    s.cipher.keyReqs.find? (fun r => decide (r.slice = k ∧ r.failedOn ≠ some (u % 2)) && r.result.isNone) = some r →
    let put := fun (r' : KeyReq) => s.cipher.keyReqs.map (fun x => if x = r then r' else x)
    (k < 4 → s.fld (F.ROOT_SLOT_STATE r.slot) = slotLoaded → s.fld (F.ROOT_SLOT_GEN r.slot) = r.gen → r.mask = false → labelPurpose r.label = 5 → Completes s (.rennetDerivation k u true) fun t =>
      t.cipher.keyReqs = put { r with result := some (0, rennet (s.rootKey r.slot) r.label 4) } ∧
      Counts s t (F.KDF_DERIVES k) 1 ∧ Only [.cipher] [F.KDF_DERIVES k, F.KC_ENTRIES k, F.KC_EVICT k] s t) ∧
    (k < 4 → s.fld (F.ROOT_SLOT_STATE r.slot) = slotLoaded → s.fld (F.ROOT_SLOT_GEN r.slot) = r.gen → r.mask = true → Completes s (.rennetDerivation k u true) fun t =>
      t.cipher = { s.cipher with keyReqs := put { r with result := some (0, rennet (s.rootKey r.slot) r.label (purposeBlocks (labelPurpose r.label))) } } ∧
      Counts s t (F.KDF_DERIVES k) 1 ∧ Only [.cipher] [F.KDF_DERIVES k] s t) ∧
    (s.fld (F.ROOT_SLOT_STATE r.slot) ≠ slotLoaded ∨ s.fld (F.ROOT_SLOT_GEN r.slot) ≠ r.gen → Completes s (.rennetDerivation k u true) fun t =>
      t.cipher = { s.cipher with keyReqs := put { r with result := some (St.CIPHER_KEY_EMPTY, []) } } ∧ Only [.cipher] [] s t) ∧
    (Completes s (.rennetDerivation k u false) fun t =>
      t.cipher.keyReqs = put (if r.failedOn.isSome then { r with result := some (St.CIPHER_CHECK_FAIL, []) } else { r with failedOn := some (u % 2) }) ∧
      t.cipher.cache = s.cipher.cache ∧ Map.get (fun _ => 0) t.cipher.kdfUntil (2 * k + u % 2) = s.time.mono + 20 * ticksPerUs ∧ t.fld (F.CIPHER_ALARM_INFO_ALARM k) = 2 ∧
      t.fld (F.CIPHER_ALARMS k) = min (s.fld (F.CIPHER_ALARMS k) + 1) (2 ^ (F.CIPHER_ALARMS k).width - 1) ∧
      Only [.cipher] [F.CIPHER_ALARMS k, F.CIPHER_ALARM_INFO_PAIR k, F.CIPHER_ALARM_INFO_ALARM k, F.CIPHER_ALARM_INFO_TIME k] s t)) ∧
  (∀ (s : State) (k u : Nat) (b : Bool), s.slicesUp = true →
    (s.kdfTesting k u = true ∨ s.cipher.keyReqs.find? (fun r => decide (r.slice = k ∧ r.failedOn ≠ some (u % 2)) && r.result.isNone) = none) →
    Completes s (.rennetDerivation k u b) fun t => Only [] [] s t) ∧
  (∀ (s : State) (d : Nat), s.slicesUp = true →
    (d % 16 ≠ 0 → s.cipher.jobs = [] → s.cipher.cache.length = 4 → (List.range 8).all (fun n => (Map.find? s.cipher.keys n).all (fun key => !key.eraseWaits)) = true → Completes s (.tamper d) fun t =>
    (∀ n, n < 8 → Map.find? t.cipher.keys n = none) ∧ (∀ n, n < 8 → (Map.find? s.cipher.keys n).isSome = true → t.fld (F.ROOT_SLOT_STATE n) = slotEmpty) ∧
    (∀ k, k < 4 → t.kc k = []) ∧ (∀ k x, k < 4 → x < 10 → t.pairState k x = pairSelftest) ∧ t.cipher.tamperAt = some s.time.mono ∧ t.cipher.nor = s.cipher.nor ∧
    (∀ r ∈ t.cipher.keyReqs, r.result = some (St.CIPHER_KEYS_ERASED, [])) ∧ t.fld F.TAMPER_STATUS = s.fld F.TAMPER_STATUS ||| d % 16 ∧
    t.on F.ROOT_INT_STATUS_TAMPER_SEEN = true) ∧
    (d % 16 = 0 → Completes s (.tamper d) fun t => Only [] [] s t)) ∧
  (∀ (s : State) (bad : List Nat), s.slicesUp = true →
    (∀ t0, s.cipher.tamperAt = some t0 → t0 + ticksPerSec ≤ s.time.mono →
      (s.recentReloads.length < 3 → (s.cipher.nor = [] ∨ ∃ c : NorKey, s.cipher.nor = [c] ∧ bad.contains c.slot = true ∧ 0 < c.slot ∧ c.slot < 8 ∧ s.fld (F.ROOT_SLOT_STATE c.slot) = slotEmpty) →
        Completes s (.tamperReload bad) fun t => t.fld (F.ROOT_SLOT_STATE 0) = slotLoaded ∧ t.rootKey 0 = leBytes 32 Config.deviceSecret ∧
        t.cipher.tamperAt = none ∧ t.cipher.reloads = s.recentReloads ++ [s.ftSec] ∧ t.fld F.ROOT_RELOADS = s.recentReloads.length + 1 ∧
        (∀ c, s.cipher.nor = [c] → t.fld (F.ROOT_SLOT_STATE c.slot) = slotEmpty ∧ t.on F.ROOT_INT_STATUS_RESTORE_FAIL_SEEN = true)) ∧
      (∀ (c : NorKey) (key : List Byte), s.recentReloads.length < 3 → s.cipher.nor = [c] → bad = [] → 0 < c.slot → c.slot < 8 → s.fld (F.ROOT_SLOT_STATE c.slot) = slotEmpty →
        s.loadDeviceRoot.unseal c = some key → Completes s (.tamperReload bad) fun t => t.fld (F.ROOT_SLOT_STATE 0) = slotLoaded ∧
        t.fld (F.ROOT_SLOT_STATE c.slot) = slotLoaded ∧ t.rootKey c.slot = key ∧ t.cipher.tamperAt = none) ∧
      (3 ≤ s.recentReloads.length → Completes s (.tamperReload bad) fun t => t.fld F.ROOT_RELOADS = 3 ∧ Only [] [F.ROOT_RELOADS] s t)) ∧
    ((s.cipher.tamperAt = none ∨ ∃ t0, s.cipher.tamperAt = some t0 ∧ s.time.mono < t0 + ticksPerSec) → Completes s (.tamperReload bad) fun t => Only [] [] s t)) ∧
  (∀ (s : State) (k x : Nat), s.slicesUp = true →
    (k < 4 → x < 10 → s.pairState k x = pairSelftest →
      (Completes s (.pairSelftestDone k x true) fun t => t.pairState k x = pairOnline ∧ Only [] [pairFld k x] s t) ∧
      (s.cipher.jobs = [] → Completes s (.pairSelftestDone k x false) fun t => t.pairState k x = pairFailed ∧ t.on (F.CIPHER_INT_STATUS_PAIR_FAILED_SEEN k) = true ∧
        Only [.keeperPend] [pairFld k x, F.CIPHER_INT_STATUS_PAIR_FAILED_SEEN k] s t)) ∧
    (∀ b : Bool, (4 ≤ k ∨ 10 ≤ x ∨ s.pairState k x ≠ pairSelftest) → Completes s (.pairSelftestDone k x b) fun t => Only [] [] s t)) ∧
  (∀ (s : State) (g : Agent) (k : Nat) (v : Word), s.slicesUp = true →
    (k < 4 → Completes s (.cipherSelftest .keeper k v) fun t =>
      (∀ x, x < 10 → t.pairState k x = (if bitOf v.toNat x = true ∧ s.pairState k x = pairFailed then pairSelftest else s.pairState k x)) ∧
      Only [] ((List.range 10).map fun x => pairFld k x) s t) ∧
    (g ≠ .keeper ∨ 4 ≤ k → Completes s (.cipherSelftest g k v) fun t => Only [] [] s t))

/-- Ring cipher jobs, bound keys, random fills and inline transforms. ENCRYPT, DECRYPT, CMAC_GEN and CMAC_VERIFY whose descriptor fails its checks, or that find the complex down, or whose key is refused, end with that status; with data, key and tag they join the dispatch queue while it has room. KEY_BIND of a wrong length, or whose slot does not serve, is refused; else it draws a nonce and asks for the mask of its LABEL; with the mask the masked record stands at its index and the label goes to the host, also where the host refuses the label, which fails the job. KEY_UNBIND leaves zeros there, unless the complex is down. RNG_FILL past 65,536 bytes, or with failed generators, is refused; else it writes the generator's bytes. A ring without such a job is left. ESP_OUT, ESP_IN and TLS_OUT frames, and TLS_IN records in sequence, with their key and a tag join the dispatch queue; where the complex is down they are dropped; an ESP replay is dropped and counted, a frame without an ESP layer dropped; a frame that is no whole TLS record passes on as it is, and one whose handle is in flight waits. A frame that is not at that transform is left. A pair whose cores agree releases the output, or the verdict that a tag fails; one whose cores differ releases nothing, ends its job with CIPHER_CHECK_FAIL and goes to its self-test; a pair that holds no job releases nothing. -/
def Obligations.CipherWorkStartsAndEnds : Prop :=
  (∀ (s : State) (k q : Nat),
    let runs := fun (c : Instr) (op : Nat) => s.slicesUp = true → (s.jobFor k q op = none → Completes s c fun t => Only [] [] s t) ∧ ∀ j, s.jobFor k q op = some j →
      (∀ st, j.cipherCheck = some st → Completes s c fun t => JobEnds s t j st 0 false [] []) ∧
      (∀ st, j.cipherCheck = none → s.cipherDown k = some st → Completes s c fun t => JobEnds s t j st 0 false [] []) ∧
      (∀ s1 s2 data st, j.cipherCheck = none → s.cipherDown k = none → s.dmaGather k (s.srInst k q) (s.jobOp 5 j) j.bufs = (s1, .ok data) →
        s1.needKey k (2 * j.id + 1) j.cSlot (s1.jobLabel j) = (s2, .fail st) → Completes s c fun t => JobEnds s2 t j st 0 false [] []) ∧
      (∀ s1 s2 s3 data key, j.cipherCheck = none → s.cipherDown k = none → s.dmaGather k (s.srInst k q) (s.jobOp 5 j) j.bufs = (s1, .ok data) →
        s1.needKey k (2 * j.id + 1) j.cSlot (s1.jobLabel j) = (s2, .ready key) → (j.cMode = modeXts → key.take 32 ≠ (key.drop 32).take 32) → s2.queueFull k = false →
        s2.getTag k (s.srInst k q) (s2.jobDeadline j) j.id = (s3, true) → Completes s c fun t =>
        t.cipher.jobs = s3.cipher.jobs ++ [{ id := s3.cipher.nextJob, slice := k, src := .ring q j.id, slot := j.cSlot, label := s1.jobLabel j, key := key, data := data, tag := true }] ∧
        t.arb.waiting = s3.arb.waiting ++ [{ point := .cipher, slice := k, deadline := s3.jobDeadline j, source := 24, work := .job s3.cipher.nextJob }] ∧
        Only [.cipher, .arb, .rings] [] s3 t)
    runs (.encrypt k q) 0x20 ∧ runs (.decrypt k q) 0x21 ∧ runs (.cmacGen k q) 0x22 ∧ runs (.cmacVerify k q) 0x23) ∧
  (∀ (s : State) (k q : Nat), s.slicesUp = true →
    (s.jobFor k q 0x24 = none → Completes s (.keyBind k q) fun t => Only [] [] s t) ∧ (s.jobFor k q 0x25 = none → Completes s (.keyUnbind k q) fun t => Only [] [] s t) ∧
    (s.jobFor k q 0x26 = none → Completes s (.rngFill k q) fun t => Only [] [] s t)) ∧
  (∀ (s : State) (k q : Nat) (j : RJob), s.slicesUp = true → s.jobFor k q 0x24 = some j →
    let index := bitsOf (j.dw 2) 31 16
    (j.total ≠ 44 → Completes s (.keyBind k q) fun t => JobEnds s t j St.CIPHER_LENGTH_INVALID 0 false [] []) ∧
    (∀ st, j.total = 44 → s.cipherDown k = some st → Completes s (.keyBind k q) fun t => JobEnds s t j st 0 false [] []) ∧
    (∀ st, j.total = 44 → s.cipherDown k = none → s.keyRefused j.cSlot 1 = some st → Completes s (.keyBind k q) fun t => JobEnds s t j st 0 false [] []) ∧
    (∀ s1 buf, j.total = 44 → s.cipherDown k = none → s.keyRefused j.cSlot 1 = none → s.dmaGather k (s.srInst k q) (s.jobOp 5 j) j.bufs = (s1, .ok buf) →
      (s.maskReq? k (2 * j.id + 1) = none → s1.rngState = rngOk → Completes s (.keyBind k q) fun t =>
        t.cipher.keyReqs = s1.cipher.keyReqs ++ [{ slice := k, op := 2 * j.id + 1, slot := j.cSlot, gen := s1.fld (F.ROOT_SLOT_GEN j.cSlot), label := contextLabel (leNat (j.bindLabel ((List.range 12).map (Config.random s1.freeCtr)))) (bitsOf (j.dw 2) 60 40) 1 0, mask := true }] ∧
        t.rings = s1.rings ∧ Only [.cipher] [F.RNG_BYTES, F.RNG_RESEEDS] s1 t) ∧
      (∀ (r : KeyReq) (mask : List Byte) (s2 : State), s.maskReq? k (2 * j.id + 1) = some r → r.result = some (0, mask) →
        s2 = ((s1.hbmWrite (bktAddr k index) (xorB mask (j.bindRecord buf))).hbmCount (bktAddr k index) 64 0x07).dropBound k index →
        (∀ s3 w, s2.dmaWrite k (s.srInst k q) j.cOut (s.jobOp 5 j) (r.label.take 16) = (s3, .ok w) → Completes s (.keyBind k q) fun t =>
          t.mem.hbm = s3.mem.hbm ∧ t.rings = (s3.finish j St.SUCCESS 16 false).rings ∧ t.maskReq? k (2 * j.id + 1) = none ∧ Counts s3 t (F.BKT_BINDS k) 1 ∧
          Only [.rings, .cipher] [F.BKT_BINDS k] s3 t) ∧
        (∀ s3 st, s2.dmaWrite k (s.srInst k q) j.cOut (s.jobOp 5 j) (r.label.take 16) = (s3, .fail st) → Completes s (.keyBind k q) fun t =>
          t.mem.hbm = s3.mem.hbm ∧ t.rings = (s3.finish j st 0 false).rings ∧ Only [.rings, .cipher] [] s3 t)))) ∧
  (∀ (s : State) (k i : Nat) (l : List Byte), k < 4 → l.length = 64 → (s.hbmWrite (bktAddr k i) l).mem.hbm = memWrite s.mem.hbm (bktAddr k i) l) ∧
  (∀ (s : State) (k q : Nat) (j : RJob), s.slicesUp = true → s.jobFor k q 0x25 = some j →
    (s.cipherDown k = none → Completes s (.keyUnbind k q) fun t =>
      t.hbmRead (bktAddr k (bitsOf (j.dw 2) 31 16)) 64 = List.replicate 64 0 ∧ Counts s t (F.BKT_UNBINDS k) 1 ∧
      (∀ e ∈ t.kc k, ¬ (labelPurpose e.label = 1 ∧ leAt e.label 0 2 = bitsOf (j.dw 2) 31 16)) ∧ t.rings = (s.finish j St.SUCCESS 0 false).rings) ∧
    (∀ st, s.cipherDown k = some st → Completes s (.keyUnbind k q) fun t => JobEnds s t j st 0 false [] [])) ∧
  (∀ (s : State) (k q : Nat) (j : RJob), s.slicesUp = true → s.jobFor k q 0x26 = some j →
    (65536 < j.total → Completes s (.rngFill k q) fun t => JobEnds s t j St.CIPHER_LENGTH_INVALID 0 false [] []) ∧
    (j.total ≤ 65536 → s.rngState = rngFailed → Completes s (.rngFill k q) fun t => JobEnds s t j St.CIPHER_RNG_UNAVAILABLE 0 false [] []) ∧
    (j.total ≤ 65536 → s.rngState = rngStartup → Completes s (.rngFill k q) fun t => Only [] [] s t) ∧
    (j.total ≤ 65536 → s.rngState = rngOk →
      (∀ s1 w, (s.drbg k j.total).1.dmaWrite k (s.srInst k q) j.cOut (s.jobOp 5 j) ((List.range j.total).map (Config.random s.freeCtr)) = (s1, .ok w) → Completes s (.rngFill k q) fun t =>
        t.rings = (s1.finish j St.SUCCESS j.total false).rings ∧ Only [.rings] [] s1 t) ∧
      (∀ s1 st, (s.drbg k j.total).1.dmaWrite k (s.srInst k q) j.cOut (s.jobOp 5 j) ((List.range j.total).map (Config.random s.freeCtr)) = (s1, .fail st) → Completes s (.rngFill k q) fun t =>
        t.rings = (s1.finish j st 0 false).rings ∧ Only [.rings] [] s1 t))) ∧
  (∀ (s s1 s2 : State) (n : Nat) (f : Frame) (r : CatRead) (key : List Byte), s.slicesUp = true → s.cipherDown f.slice = none →
    s.needKey f.slice (2 * f.id) (bitsOf r.entry 22 20) (inlineLabel r) = (s1, .ready key) → (s1.cipher.jobs.any fun j => decide (j.src = .inline f.id (entryXform r.entry))) = false →
    s1.queueFull f.slice = false → s1.getTag f.slice noInst (s1.deadlineOf f.dlClass f.begun) (2 * f.id) = (s2, true) →
    let queued := fun (t : State) =>
      t.cipher.jobs = s2.cipher.jobs ++ [{ id := s1.cipher.nextJob, slice := f.slice, src := .inline f.id (entryXform r.entry), slot := bitsOf r.entry 22 20, label := inlineLabel r, key := key, tag := true }] ∧
      (∃ w : QReq, t.arb.waiting = s2.arb.waiting ++ [w] ∧ w.point = .cipher ∧ w.slice = f.slice ∧ w.deadline = s2.deadlineOf f.dlClass f.begun ∧ w.work = .job s1.cipher.nextJob) ∧
      t.eth = s2.eth ∧ Only [.cipher, .arb] [] s2 t
    (s.inlineFrame n xfEspOut = some (f, r) → Completes s (.espOut n) queued) ∧ (s.inlineFrame n xfTlsOut = some (f, r) → Completes s (.tlsOut n) queued) ∧
    (∀ o e, s.inlineFrame n xfEspIn = some (f, r) → f.espOff = some o → s.flightFor f.slice r = some e → espReplay e.seq e.window (espSeq (entryEsn r.entry) e.seq (beAt f.data (o + 4) 4)) = false →
      e.inbound.contains (espSeq (entryEsn r.entry) e.seq (beAt f.data (o + 4) 4)) = false → Completes s (.espIn n) queued) ∧
    (∀ pn, s.inlineFrame n xfTlsIn = some (f, r) → s.flight? f.slice r.handle = none → (s.cipher.jobs.any fun j => decide (j.slice = f.slice ∧ j.label = inlineLabel r)) = false →
      s.tlsRecord f r = some pn → Completes s (.tlsIn n) queued)) ∧
  (∀ (s : State) (n : Nat), s.slicesUp = true →
    (s.inlineFrame n xfEspOut = none → Completes s (.espOut n) fun t => Only [] [] s t) ∧ (s.inlineFrame n xfEspIn = none → Completes s (.espIn n) fun t => Only [] [] s t) ∧
    (s.inlineFrame n xfTlsOut = none → Completes s (.tlsOut n) fun t => Only [] [] s t) ∧ (s.inlineFrame n xfTlsIn = none → Completes s (.tlsIn n) fun t => Only [] [] s t) ∧
    (∀ f r, s.inlineFrame n xfTlsIn = some (f, r) → ((s.flight? f.slice r.handle).isSome = true ∨ s.flightFor f.slice r = none) → Completes s (.tlsIn n) fun t => Only [] [] s t)) ∧
  (∀ (s : State) (n st : Nat) (f : Frame) (r : CatRead), s.slicesUp = true → f.id = n → f.cells = [] → f.slice < 4 → (s.eth.egress.any fun x => decide (x.frame = n)) = false → s.cipherDown f.slice = some st →
    (s.inlineFrame n xfEspOut = some (f, r) → Completes s (.espOut n) fun t => t.frame? n = none ∧ t.cipher = s.cipher) ∧
    (s.inlineFrame n xfTlsOut = some (f, r) → Completes s (.tlsOut n) fun t => t.frame? n = none ∧ t.cipher = s.cipher)) ∧
  (∀ (s : State) (n : Nat) (f : Frame) (r : CatRead), s.slicesUp = true → s.inlineFrame n xfEspIn = some (f, r) → f.id = n → f.slice < 4 → f.cells = [] →
    (s.eth.egress.any fun x => decide (x.frame = n)) = false →
    (f.espOff = none → Completes s (.espIn n) fun t => t.frame? n = none ∧ t.cipher = s.cipher) ∧
    (∀ o e, f.espOff = some o → s.flightFor f.slice r = some e → (espReplay e.seq e.window (espSeq (entryEsn r.entry) e.seq (beAt f.data (o + 4) 4)) = true ∨
      e.inbound.contains (espSeq (entryEsn r.entry) e.seq (beAt f.data (o + 4) 4)) = true) → Completes s (.espIn n) fun t =>
      t.frame? n = none ∧ t.cipher = s.cipher ∧ Counts s t (F.CIPHER_REPLAY f.slice) 1)) ∧
  (∀ (s : State) (n k p : Nat) (f : Frame) (r : CatRead), s.slicesUp = true → s.inlineFrame n xfTlsIn = some (f, r) → f.id = n → f.origin = .eth k p → f.looked = some r → f.floodTo = none → f.fed = none →
    bitsOf r.entry 3 1 = 3 → f.poisoned = false → s.flight? f.slice r.handle = none → (s.flightFor f.slice r).isSome = true →
    (s.cipher.jobs.any fun j => decide (j.slice = f.slice ∧ j.label = inlineLabel r)) = false → s.tlsRecord f r = none → f.whole = true →
    Completes s (.tlsIn n) fun t => t.frame? n = some { f with stage := .kra } ∧ t.kra = { s.kra with order := s.kra.order ++ [n] } ∧
      Counts s t (F.CIPHER_TLS_PASSTHRU f.slice) 1 ∧ Only [.eth, .kra] [F.CIPHER_TLS_PASSTHRU f.slice] s t) ∧
  (∀ (s : State) (k x q id : Nat) (j : CipherJob) (r : RJob), s.slicesUp = true → k < 4 → x < 10 → s.cipher.jobs.find? (fun j => decide (j.slice = k ∧ j.pair = some x)) = some j → j.src = .ring q id →
    s.jobById k q id = some r →
    (∀ out s1 w, cipherOutput r j.key j.data = .ok out → s.dmaWrite k (s.srInst k q) r.cOut (s.jobOp 5 r) out = (s1, .ok w) → Completes s (.pairJobDone k x true) fun t =>
      t.rings = (s1.finish r St.SUCCESS (out.length % 2 ^ 32) false).rings ∧ t.cipher = { s1.cipher with jobs := s1.cipher.jobs.filter (fun y => decide (y.id ≠ j.id)) } ∧
      Counts s1 t (F.CIPHER_JOBS k) 1 ∧ Only [.rings, .cipher, .inst] [F.CIPHER_JOBS k, F.PAIR_JOBS k x, F.CIPHER_BYTES k, F.TAG_INUSE k] s1 t) ∧
    (∀ out s1 st, cipherOutput r j.key j.data = .ok out → s.dmaWrite k (s.srInst k q) r.cOut (s.jobOp 5 r) out = (s1, .fail st) → Completes s (.pairJobDone k x true) fun t =>
      t.rings = (s1.finish r st 0 false).rings ∧ t.cipher = { s1.cipher with jobs := s1.cipher.jobs.filter (fun y => decide (y.id ≠ j.id)) }) ∧
    (∀ st, cipherOutput r j.key j.data = .error st → Completes s (.pairJobDone k x true) fun t =>
      JobEnds s t r st 0 false [.cipher, .inst] [F.CIPHER_JOBS k, F.PAIR_JOBS k x, F.CIPHER_BYTES k, F.CIPHER_AUTH_FAIL k, F.TAG_INUSE k]) ∧
    (s.cipher.alarms = [] → Completes s (.pairJobDone k x false) fun t => t.rings = (s.finish r St.CIPHER_CHECK_FAIL 0 false).rings ∧ t.pairState k x = pairSelftest ∧ t.out = s.out ∧
      t.fld (F.PAIR_ALARMS k x) = min (s.fld (F.PAIR_ALARMS k x) + 1) (2 ^ (F.PAIR_ALARMS k x).width - 1) ∧ t.cipher.jobs = s.cipher.jobs.filter (fun y => decide (y.id ≠ j.id)) ∧
      (∀ e ∈ t.kc k, ¬ (e.slot = j.slot ∧ e.label = j.label)))) ∧
  (∀ (s : State) (k x : Nat), s.slicesUp = true → s.cipher.jobs.find? (fun j => decide (j.slice = k ∧ j.pair = some x)) = none →
    (Completes s (.pairJobDone k x true) fun t => Only [] [] s t) ∧
    (Completes s (.pairJobDone k x false) fun t => t.cipher = { s.cipher with unitBad := t.cipher.unitBad } ∧ Only [.cipher] [] s t))

/-- Work requests, packets sent, acknowledgements and retries. A KRA_WRITE, KRA_WRITE_IMM, KRA_SEND or KRA_READ whose ring has no such work request next in order does nothing; it asks for its queue pair's context where that is not cached; it ends with KRA_QP_INVALID when its queue pair does not exist, is another instance's or is bound to another ring, with KRA_LENGTH_INVALID when it is too long, with WR_FLUSHED when the queue pair drains or is in ERROR, with a status that the spec does not name when its Catalogue lookup drops it (log entry 27); else its queue pair keeps it. The lookup of a work request counts, drops under a poisoned or an invalid entry, and else leaves the handle's counters to be written back. A receive buffer is posted, and without such a job nothing happens. A queue pair that does not live in the slice sends nothing, one whose context is not cached asks for it, one that waits for its key or the cipher complex sends nothing; a refused key ends its oldest job and puts it in ERROR, or discards its answers; else it sends the answer that waits, the packet to be sent again, or its next packet, under the next TX_COUNT, a new one under a tag and the next SEQ_NEXT; or nothing when there is none, none may be sent before the RNR timer, or no tag is free. An ACK, NAK or packet that is not there does nothing. An ACK outside the window, or of nothing new, changes no queue pair; one that covers the last packet of a job completes it and clears the retry counts. A NAK SEQ_ERROR raises RETRY_COUNT and sends again from its ACK_SEQ; a NAK RNR within the limit holds the queue pair for its timer, past the limit it puts it in ERROR, as a fatal NAK does. A retransmit timeout within the limit sends everything again, past it the queue pair enters ERROR; the RNR timer sends again from the packet that the NAK named; an ACK goes when the delay of the oldest effect not acknowledged has passed, and not before; a timer that has not fired does nothing. -/
def Obligations.KraRequestersWork : Prop :=
  (∀ (s : State) (k q : Nat),
    let runs := fun (i : Instr) (op kop : Nat) => s.slicesUp = true →
      (s.jobFor k q op = none → Completes s i fun t => Only [] [] s t) ∧
      (∀ j, s.jobFor k q op = some j → s.nextRequest k q j = false → Completes s i fun t => Only [] [] s t) ∧
      (∀ j, s.jobFor k q op = some j → s.nextRequest k q j = true →
      let x := s.qpx j.kraQp
      ((x.live = false ∨ x.inst ≠ s.srInst k q ∨ x.slice ≠ k) → Completes s i fun t => JobEnds s t j St.KRA_QP_INVALID 0 false [] []) ∧
      (x.live = true → x.inst = s.srInst k q → x.slice = k → s.qpCtx k j.kraQp = none →
        (s.kra.fetch.contains (k, j.kraQp) = true → Completes s i fun t => Only [] [] s t) ∧
        (s.kra.fetch.contains (k, j.kraQp) = false → Completes s i fun t => t.kra.fetch = s.kra.fetch ++ [(k, j.kraQp)] ∧ Counts s t (F.KRA_CTX_MISSES k) 1 ∧
          Only [.kra] [F.KRA_CTX_MISSES k] s t)) ∧
      (∀ c, x.live = true → x.inst = s.srInst k q → x.slice = k → s.qpCtx k j.kraQp = some c →
        (cxSendSr c ≠ q → Completes s i fun t => JobEnds s t j St.KRA_QP_INVALID 0 false [] []) ∧
        (cxSendSr c = q → 2 ^ 31 ≤ j.total → Completes s i fun t => JobEnds s t j St.KRA_LENGTH_INVALID 0 false [] []) ∧
        (cxSendSr c = q → j.total < 2 ^ 31 → (cxState c = qpDrain ∨ cxState c = qpErr) → Completes s i fun t => JobEnds s t j St.WR_FLUSHED 0 false [] []) ∧
        (∀ s1, cxSendSr c = q → j.total < 2 ^ 31 → cxState c ≠ qpDrain → cxState c ≠ qpErr → s.catRequest (cxHandle c) j.total = (s1, false) → Completes s i fun t =>
          ∃ st, st < 2 ^ 16 ∧ JobEnds s1 t j st 0 false [] []) ∧
        (∀ s1, cxSendSr c = q → j.total < 2 ^ 31 → cxState c ≠ qpDrain → cxState c ≠ qpErr → s.catRequest (cxHandle c) j.total = (s1, true) → Completes s i fun t =>
          t.qpx j.kraQp = { x with jobs := x.jobs ++ [{ id := j.id, op := kop, total := j.total }] } ∧ (∀ p, p ≠ j.kraQp → t.qpx p = s.qpx p) ∧
          t.rings = (s1.setJob { j with taken := true }).rings ∧ Counts s1 t (F.KRA_CTX_HITS k) 1 ∧ Only [.rings, .kra] [F.KRA_CTX_HITS k] s1 t)))
    runs (.kraWrite k q) 0x10 1 ∧ runs (.kraWriteImm k q) 0x11 2 ∧ runs (.kraSend k q) 0x12 3 ∧ runs (.kraRead k q) 0x13 4) ∧
  (∀ (s : State) (h n : Nat),
    let r := s.catRequest h n
    let k := homeOf h
    Counts s r.1 (F.CAT_LOOKUPS k) 1 ∧ r.1.kra = s.kra ∧ r.1.rings = s.rings ∧
    (s.catPoisoned h = true → r.2 = false ∧ Counts s r.1 (F.CAT_FAULT_DROP k) 1 ∧ r.1.on (F.CAT_INT_STATUS_FAULT_DROP_SEEN k) = true ∧ r.1.cat = s.cat) ∧
    (s.catPoisoned h = false → bitOf (s.catEntry h) 0 = false → r.2 = false ∧ Counts s r.1 (F.CAT_INVALID_DROP k) 1 ∧ r.1.cat = s.cat) ∧
    (s.catPoisoned h = false → bitOf (s.catEntry h) 0 = true → r.2 = true ∧
      r.1.cat = { s.cat with writebacks := s.cat.writebacks ++ [{ handle := h, bytes := n, gen := bitsOf (s.catEntry h) 15 12 }] })) ∧
  (∀ (s : State) (k q : Nat), s.slicesUp = true →
    (s.jobFor k q 0x14 = none → Completes s (.kraRecvPost k q) fun t => Only [] [] s t) ∧
    (∀ j, s.jobFor k q 0x14 = some j → j.slice = k → j.ring = q → Completes s (.kraRecvPost k q) fun t =>
      (t.srx k q).posted = (s.srx k q).posted ++ [j.id] ∧ Only [.rings] [] s t)) ∧
  (∀ (s : State) (k qp : Nat), s.slicesUp = true →
    let x := s.qpx qp
    ((x.live = false ∨ x.slice ≠ k) → Completes s (.kraPacketSend k qp) fun t => Only [] [] s t) ∧
    (x.live = true → x.slice = k → s.qpCtx k qp = none → s.kra.fetch.contains (k, qp) = false → Completes s (.kraPacketSend k qp) fun t =>
      t.kra.fetch = s.kra.fetch ++ [(k, qp)] ∧ Counts s t (F.KRA_CTX_MISSES k) 1 ∧ Only [.kra] [F.KRA_CTX_MISSES k] s t) ∧
    (∀ c s1, x.live = true → x.slice = k → s.qpCtx k qp = some c →
      (s.needKey k (kraOp qp) (cxSlot c) (kraLabel c) = (s1, .wait) → Completes s (.kraPacketSend k qp) fun t => Only [] [] s1 t) ∧
      (∀ st, s.needKey k (kraOp qp) (cxSlot c) (kraLabel c) = (s1, .fail st) →
        (x.oldest = none → Completes s (.kraPacketSend k qp) fun t => t.qpx qp = { x with ctl := [] } ∧ Only [.kra] [] s1 t) ∧
        (∀ j, x.oldest = some j → Completes s (.kraPacketSend k qp) fun t => t.qpCtx k qp = some (cxSetErr (cxSetState c qpErr) st) ∧ (t.qpx qp).jobs = [] ∧ (t.qpx qp).out = [])) ∧
      (∀ key, s.needKey k (kraOp qp) (cxSlot c) (kraLabel c) = (s1, .ready key) →
        let s2 := s1.incFld (F.KRA_CTX_HITS k)
        (s1.cipherWaits k = true → Completes s (.kraPacketSend k qp) fun t => Only [] [] s1 t) ∧
        (∀ p rest, x.ctl = p :: rest → s1.cipherWaits k = false → s1.cipherDown k = none → (∀ u, s1.cipher.unitBad.contains (k, u) = false) → cxTxCount c + 1 < 2 ^ 62 →
          Completes s (.kraPacketSend k qp) fun t => (t.qpx qp).ctl = rest ∧ t.qpCtx k qp = some (setBits c 575 512 (cxTxCount c + 1))) ∧
        (∀ n, x.ctl = [] → x.resend = some n → x.rnr = true → s1.cipherWaits k = false → Completes s (.kraPacketSend k qp) fun t => Only [] [] s2 t) ∧
        (∀ n o r s3 data, x.ctl = [] → x.resend = some n → x.rnr = false → x.out.find? (fun o => decide (o.seq = n)) = some o → s2.jobById k (cxSendSr c) o.job = some r →
          r.kraOrdered = false → o.op ≠ 4 → s2.dmaGather k (cxInst c) (s2.classOp 2 (cxClass c) r.begun) (subBufs r.bufs o.off o.len) = (s3, .ok data) →
          s3.qpCtx k qp = some c → s3.qpx qp = x → s1.cipherWaits k = false → s3.cipherWaits k = false → s3.cipherDown k = none → (∀ u, s3.cipher.unitBad.contains (k, u) = false) →
          cxTxCount c + 1 < 2 ^ 62 → Completes s (.kraPacketSend k qp) fun t =>
          t.qpx qp = { x with resend := (x.out.find? (fun p => seqLt n p.seq)).map (fun p => p.seq) } ∧ t.qpCtx k qp = some (setBits c 575 512 (cxTxCount c + 1))) ∧
        (x.ctl = [] → x.resend = none → s1.cipherWaits k = false → s2.nextPacket k qp c = none → Completes s (.kraPacketSend k qp) fun t => Only [] [] s1 t) ∧
        (∀ j o r, x.ctl = [] → x.resend = none → s1.cipherWaits k = false → s2.nextPacket k qp c = some (j, o) → s2.jobById k (cxSendSr c) j.id = some r →
          (∀ s3, s2.getTag k (cxInst c) (s2.deadlineOf (cxClass c) r.begun) (kraOp qp) = (s3, false) → Completes s (.kraPacketSend k qp) fun t => Only [] [] s3 t) ∧
          (∀ s3 s4 data, s2.getTag k (cxInst c) (s2.deadlineOf (cxClass c) r.begun) (kraOp qp) = (s3, true) → o.op ≠ 4 →
            s3.dmaGather k (cxInst c) (s3.classOp 2 (cxClass c) r.begun) (subBufs r.bufs o.off o.len) = (s4, .ok data) → s4.qpCtx k qp = some c → s4.qpx qp = x →
            s4.cipherWaits k = false → s4.cipherDown k = none → (∀ u, s4.cipher.unitBad.contains (k, u) = false) → cxTxCount c + 1 < 2 ^ 62 → Completes s (.kraPacketSend k qp) fun t =>
            (t.qpx qp).out = x.out ++ [{ o with tag := true }] ∧ t.qpCtx k qp = some (setBits (setBits c 575 512 (cxTxCount c + 1)) 415 384 (seqAdd (cxSeqNext c) 1))))))) ∧
  (∀ (s s1 : State) (n : Nat), s.slicesUp = true →
    (s.frame? n = none → (Completes s (.ack n) fun t => Only [] [] s t) ∧ (Completes s (.nak n) fun t => Only [] [] s t)) ∧
    (s.kraReceive n 6 = (s1, none) → Completes s (.ack n) fun t => Only [] [] s1 t) ∧ (s.kraReceive n 7 = (s1, none) → Completes s (.nak n) fun t => Only [] [] s1 t)) ∧
  (∀ (s s1 : State) (n : Nat) (r : KraRx), s.slicesUp = true → s.kraReceive n 6 = (s1, some r) → s1.qpCtx r.k r.qp = some r.c →
    let a := leAt r.ext 0 4
    let una := cxSeqUnacked r.c
    (cxState r.c = qpErr → Completes s (.ack n) fun t => t.kra.qps = s1.kra.qps ∧ t.rings = s1.rings ∧ t.frame? r.frame.id = none) ∧
    (cxState r.c ≠ qpErr → (seqLt a (seqAdd una (2 ^ 32 - 1)) = true ∨ seqLt a (cxSeqNext r.c) = false) → Completes s (.ack n) fun t =>
      Counts s1 t (F.KRA_RX_DUPLICATE r.k) 1 ∧ t.kra.qps = s1.kra.qps ∧ t.rings = s1.rings ∧ t.frame? r.frame.id = none) ∧
    (cxState r.c ≠ qpErr → seqLt a (seqAdd una (2 ^ 32 - 1)) = false → seqLt a (cxSeqNext r.c) = true → seqLt (s1.qpx r.qp).ackNext (seqAdd a 1) = false → Completes s (.ack n) fun t =>
      t.kra.qps = s1.kra.qps ∧ t.rings = s1.rings ∧ t.frame? r.frame.id = none) ∧
    (∀ j e rj, cxState r.c ≠ qpErr → seqLt a (seqAdd una (2 ^ 32 - 1)) = false → seqLt a (cxSeqNext r.c) = true → (s1.qpx r.qp).reads = [] → seqLt (s1.qpx r.qp).ackNext (seqAdd a 1) = true →
      seqLt una (seqAdd a 1) = true → (s1.qpx r.qp).jobs = [j] → j.endSeq = some e → seqLt (seqAdd a 1) e = false → s1.jobById r.k (cxSendSr r.c) j.id = some rj → Completes s (.ack n) fun t =>
      t.rings = (s1.finish rj St.SUCCESS (j.total % 2 ^ 32) false).rings ∧ (t.qpx r.qp).jobs = [] ∧ (t.qpx r.qp).out = (s1.qpx r.qp).out.filter (fun o => !seqLt o.seq (seqAdd a 1)) ∧
      ∃ c', t.qpCtx r.k r.qp = some c' ∧ cxSeqUnacked c' = seqAdd a 1 ∧ cxRetryCount c' = 0 ∧ cxRnrCount c' = 0)) ∧
  (∀ (s s1 : State) (n : Nat) (r : KraRx), s.slicesUp = true → s.kraReceive n 7 = (s1, some r) → s1.qpCtx r.k r.qp = some r.c → cxState r.c ≠ qpErr →
    let a := leAt r.ext 0 4
    let syn := leAt r.ext 4 1
    let x := s1.qpx r.qp
    seqLt a (seqAdd (cxSeqUnacked r.c) (2 ^ 32 - 1)) = false → seqLt a (cxSeqNext r.c) = true →
    (∀ o, syn ≠ nakSeq → syn ≠ nakRnr → x.out.find? (fun o => decide (o.seq = a)) = some o → Completes s (.nak n) fun t =>
      (∃ c', t.qpCtx r.k r.qp = some c' ∧ cxState c' = qpErr) ∧ (t.qpx r.qp).jobs = [] ∧ (t.qpx r.qp).out = []) ∧
    (syn = nakSeq → seqLt x.ackNext a = false → cxRetryCount r.c + 1 ≤ cxRetryLimit r.c → Completes s (.nak n) fun t =>
      t.qpx r.qp = { x with resend := (x.out.filter (fun o => !seqLt o.seq a)).head?.map (fun o => o.seq), rnr := false } ∧ t.rings = s1.rings ∧
      ∃ c', t.qpCtx r.k r.qp = some c' ∧ cxRetryCount c' = cxRetryCount r.c + 1 ∧ cxState c' = cxState r.c) ∧
    (syn = nakRnr → seqLt x.ackNext a = false → (cxRnrCount r.c + 1 ≤ cxRnrLimit r.c ∨ cxRnrLimit r.c = 15) → Completes s (.nak n) fun t =>
      t.qpx r.qp = { x with resend := some a, rnr := true } ∧ t.rings = s1.rings ∧ ∃ c', t.qpCtx r.k r.qp = some c' ∧ cxRnrCount c' = min (cxRnrCount r.c + 1) 15 ∧ cxState c' = cxState r.c) ∧
    (∀ o, syn = nakRnr → seqLt x.ackNext a = false → cxRnrLimit r.c < cxRnrCount r.c + 1 → cxRnrLimit r.c ≠ 15 → x.out.find? (fun o => decide (o.seq = a)) = some o →
      Completes s (.nak n) fun t => (∃ c', t.qpCtx r.k r.qp = some c' ∧ cxState c' = qpErr) ∧ (t.qpx r.qp).jobs = [] ∧ (t.qpx r.qp).out = [])) ∧
  (∀ (s : State) (k qp : Nat), s.slicesUp = true →
    (s.twFired k (.kraRetry qp) = false → Completes s (.retryTimeout k qp) fun t => Only [] [] s t) ∧
    (s.twFired k (.kraRnr qp) = false → Completes s (.rnrTimer k qp) fun t => Only [] [] s t) ∧
    (((s.qpx qp).live = false ∨ (s.qpx qp).slice ≠ k ∨ (s.qpx qp).effects = []) → Completes s (.kraAckDelay k qp) fun t => Only [] [] s t)) ∧
  (∀ (s : State) (k qp c : Nat), s.slicesUp = true → s.qpCtx k qp = some c →
    let x := s.qpx qp
    (s.twFired k (.kraRetry qp) = true →
      (x.out = [] → Completes s (.retryTimeout k qp) fun t => Only [.time] [] s t) ∧
      (∀ o os, x.out = o :: os → cxRetryCount c + 1 ≤ cxRetryLimit c → Completes s (.retryTimeout k qp) fun t =>
        t.qpx qp = { x with resend := some o.seq, rnr := false } ∧ Counts s t (F.KRA_TIMEOUTS k) 1 ∧ ∃ c', t.qpCtx k qp = some c' ∧ cxRetryCount c' = cxRetryCount c + 1 ∧ cxState c' = cxState c) ∧
      (∀ o os, x.out = o :: os → cxRetryLimit c < cxRetryCount c + 1 → Completes s (.retryTimeout k qp) fun t =>
        (t.qpx qp).out = [] ∧ (t.qpx qp).jobs = [] ∧ Counts s t (F.KRA_TIMEOUTS k) 1 ∧ ∃ c', t.qpCtx k qp = some c' ∧ cxState c' = qpErr)) ∧
    (∀ n, s.twFired k (.kraRnr qp) = true → x.resend = some n → Completes s (.rnrTimer k qp) fun t =>
      t.qpx qp = { x with resend := (x.out.filter (fun o => !seqLt o.seq n)).head?.map (fun o => o.seq), rnr := false } ∧
      Only [.time, .kra] [F.KRA_RETRANSMITS k, F.KRA_CTX_RESIDENT k] s t) ∧
    (∀ e es, x.live = true → x.slice = k → x.effects = e :: es →
      (e.2 * 5 + s.fld F.KRA_ACK_DELAY * 8 ≤ s.time.mono * 5 → x.ctl ≠ [] → Completes s (.kraAckDelay k qp) fun t => (t.qpx qp).unacked = 0 ∧
        (t.qpx qp).effects = x.effects.filter (fun e => seqLt (s.ackPoint qp c) e.1) ∧
        (∃ p, (t.qpx qp).ctl = x.ctl ++ [p] ∧ p.op = 6 ∧ p.ext = ackExt (s.ackPoint qp c) 0 0) ∧ Only [.kra] [] s t) ∧
      (s.time.mono * 5 < e.2 * 5 + s.fld F.KRA_ACK_DELAY * 8 → Completes s (.kraAckDelay k qp) fun t => Only [] [] s t)))

/-- Requests are classified, checked under their registration, placed and retired. A request that is not there does nothing; one that finds its queue pair in ERROR or INIT, or its instance stopped, or that is invalid, draws a NAK and makes no access, and leaves SEQ_EXPECTED; one of a number already accepted is counted, and only a READ_REQ goes on; one past the expected number, after a NAK, is dropped and counted. A request in sequence whose opcode and lengths are valid waits for its access key check; the last packet of a WRITE_IMM does so under a completion credit, and draws a NAK without one or where its queue pair receives nothing. A SEND in sequence that is its message's last packet fills the posted buffer and ends its job, one too long for it ends it with KRA_RECV_OVERFLOW; without a buffer, or where the queue pair receives nothing, it draws a NAK; one that waits for a translation leaves its buffer posted. A response of the current read issue is placed and noted, the last one ends the issue; any other is late and is counted, as every one in ERROR. A check that is not there does nothing; under a VALID key it raises INFLIGHT and accepts the request, or waits for the translation; under a key that is not VALID, or an entry that refuses it, it fails, is counted and nothing is in flight; under a poisoned entry it fails; it waits while INFLIGHT is at its limit. An access that is not there does nothing; a flagged one waits for the earlier ones of its queue pair, the last packet of a WRITE_IMM for the earlier ones of its message; one that has written or read its last byte, or is forced and has no read on its way, lowers INFLIGHT and is gone; one whose write waits stays. MR_REGISTER writes the entry, makes the word VALID and answers the key, or fails; MR_REVOKE moves the word to DRAINING, or fails; once nothing is in flight the job ends with SUCCESS, unless it was forced, and the index is FREE; past the limit it ends with REVOKE_FORCED, and not before. -/
def Obligations.RegistrationsGuardMemory : Prop :=
  (∀ (s : State) (n : Nat),
    let runs := fun (i : Instr) (op : Nat) => s.slicesUp = true →
      (s.frame? n = none → Completes s i fun t => Only [] [] s t) ∧
      (∀ s1, s.kraReceive n op = (s1, none) → Completes s i fun t => Only [] [] s1 t) ∧
      (∀ s1 r, s.kraReceive n op = (s1, some r) →
        let refused := fun (t : State) => t.kra.accesses = s1.kra.accesses ∧ Counts s1 t (F.KRA_NAK_TX r.k) 1 ∧
          (t.qpCtx r.k r.qp).map cxSeqExpected = (s1.qpCtx r.k r.qp).map cxSeqExpected
        ((cxState r.c = qpErr ∨ cxState r.c = qpInit ∨ s1.instRuns (cxInst r.c) = false) → Completes s i refused) ∧
        (cxState r.c = qpActive → s1.instRuns (cxInst r.c) = true →
          (∀ m, r.seq = cxSeqExpected r.c → r.invalid = some m → Completes s i refused) ∧
          ((0 < r.op ∧ r.op ≤ 7) → seqLt (cxSeqExpected r.c) r.seq = true → r.seq ≠ cxSeqExpected r.c → (s1.qpx r.qp).nakSent = true →
            (s1.eth.egress.any fun e => decide (e.frame = r.frame.id)) = false → Completes s i fun t =>
            t.frame? r.frame.id = none ∧ t.kra.accesses = s1.kra.accesses ∧ t.kra.qps = s1.kra.qps ∧ Counts s1 t (F.KRA_RX_OUT_OF_SEQ r.k) 1))) ∧
      (∀ s1 s2 r dup, s.kraReceive n op = (s1, some r) → s1.kraClassify r = (s2, some dup) → r.invalid = none →
        ((r.op = 2 → r.flag flagLast = false) → Completes s i fun t => t.kra.accesses = s2.kra.accesses ++ [s2.kraAccessOf r dup false] ∧ Only [.kra] [] s2 t))
    runs (.write n) 1 ∧ runs (.writeImm n) 2 ∧ runs (.readReq n) 4) ∧
  (∀ (s : State) (n : Nat),
    let old := fun (i : Instr) (op : Nat) => ∀ s1 r, s.slicesUp = true → s.kraReceive n op = (s1, some r) → cxState r.c = qpActive → s1.instRuns (cxInst r.c) = true →
      (r.op = 1 ∨ r.op = 2) → seqLt (cxSeqExpected r.c) r.seq = false → r.seq ≠ cxSeqExpected r.c → Completes s i fun t =>
        t.kra.accesses = s1.kra.accesses ∧ Counts s1 t (F.KRA_RX_DUPLICATE r.k) 1
    old (.write n) 1 ∧ old (.writeImm n) 2) ∧
  (∀ (s s1 s2 : State) (n : Nat) (r : KraRx) (dup : Bool), s.slicesUp = true → s.kraReceive n 2 = (s1, some r) → s1.kraClassify r = (s2, some dup) → r.invalid = none →
    r.flag flagLast = true →
    ((cxRecvEn r.c = false ∨ s2.credit r.k (s2.recvCr r.k r.c) = false) → Completes s (.writeImm n) fun t => t.kra.accesses = s2.kra.accesses ∧ Counts s2 t (F.KRA_NAK_TX r.k) 1) ∧
    (cxRecvEn r.c = true → s2.credit r.k (s2.recvCr r.k r.c) = true → Completes s (.writeImm n) fun t => t.kra.accesses = s2.kra.accesses ++ [s2.kraAccessOf r dup true])) ∧
  (∀ (s s1 : State) (n : Nat), s.slicesUp = true →
    (s.frame? n = none → (Completes s (.send n) fun t => Only [] [] s t) ∧ (Completes s (.readResp n) fun t => Only [] [] s t)) ∧
    (s.kraReceive n 3 = (s1, none) → Completes s (.send n) fun t => Only [] [] s1 t) ∧ (s.kraReceive n 5 = (s1, none) → Completes s (.readResp n) fun t => Only [] [] s1 t)) ∧
  (∀ (s s1 s2 : State) (n : Nat) (r : KraRx) (dup : Bool), s.slicesUp = true → s.kraReceive n 3 = (s1, some r) → s1.kraClassify r = (s2, some dup) → r.flag flagOrdered = false →
    let refused := fun (t : State) => (t.srx r.k (cxRecvSr r.c)).posted = (s2.srx r.k (cxRecvSr r.c)).posted ∧ Counts s2 t (F.KRA_NAK_TX r.k) 1
    (∀ m, r.invalid = some m → Completes s (.send n) refused) ∧
    (r.invalid = none → cxRecvEn r.c = false → Completes s (.send n) refused) ∧
    (∀ s3, r.invalid = none → cxRecvEn r.c = true → s2.sendBuffer r = (s3, none) → Completes s (.send n) refused) ∧
    (∀ s3 s4 got j w, r.invalid = none → cxRecvEn r.c = true → s2.sendBuffer r = (s3, some (j, got)) →
      let data := r.payload.take r.len
      let op : Op := { s3.rxOp 3 r with rx := true }
      let m := min data.length (j.total - got)
      (s3.dmaScatter r.k (cxInst r.c) op (subBufs j.bufs got m) (data.take m) = (s4, .wait) → Completes s (.send n) fun t =>
        t.srx r.k (cxRecvSr r.c) = s2.srx r.k (cxRecvSr r.c) ∧ t.qpx r.qp = s2.qpx r.qp) ∧
      (s3.dmaScatter r.k (cxInst r.c) op (subBufs j.bufs got m) (data.take m) = (s4, .ok w) → m < data.length → Completes s (.send n) fun t => (t.qpx r.qp).rxJob = none ∧ Counts s4 t (F.KRA_NAK_TX r.k) 1 ∧ ((s4.qpx r.qp).ctl ≠ [] →
        t.rings = (s4.finish { j with event := r.flag flagEvent } St.KRA_RECV_OVERFLOW ((got + m) % 2 ^ 32 + 2 ^ 32 * r.qp) false).rings)) ∧
      (s3.dmaScatter r.k (cxInst r.c) op (subBufs j.bufs got m) (data.take m) = (s4, .ok w) → m = data.length → r.flag flagLast = true → r.flag flagAckReq = false →
        (s4.qpx r.qp).ackDue = none → (s4.qpx r.qp).unacked + 1 < cxAckCoalesce r.c → s4.qpCtx r.k r.qp = some r.c → Completes s (.send n) fun t =>
        t.rings = (s4.finish { j with event := r.flag flagEvent } St.SUCCESS ((got + data.length) % 2 ^ 32 + 2 ^ 32 * r.qp) false).rings ∧ (t.qpx r.qp).rxJob = none ∧
        (t.qpx r.qp).effects = (s4.qpx r.qp).effects ++ [(cxSeqExpected r.c, s4.time.mono)] ∧ ∃ c', t.qpCtx r.k r.qp = some c' ∧ cxSeqExpected c' = seqAdd (cxSeqExpected r.c) 1))) ∧
  (∀ (s s1 : State) (n : Nat) (r : KraRx), s.slicesUp = true → s.kraReceive n 5 = (s1, some r) →
    let late := fun (t : State) => t.kra.qps = s1.kra.qps ∧ t.rings = s1.rings ∧ t.frame? r.frame.id = none ∧ t.mem = s1.mem ∧ Counts s1 t (F.KRA_LATE_RESPONSE r.k) 1
    (cxState r.c = qpErr → Completes s (.readResp n) late) ∧
    (cxState r.c ≠ qpErr → (s1.qpx r.qp).reads.find? (fun d => decide (d.seq = leAt r.ext 0 4)) = none → Completes s (.readResp n) late) ∧
    (∀ d, cxState r.c ≠ qpErr → (s1.qpx r.qp).reads.find? (fun d => decide (d.seq = leAt r.ext 0 4)) = some d →
      (seqDiff r.seq d.base < 0 ∨ (d.count : Int) ≤ seqDiff r.seq d.base ∨ d.got.contains r.seq = true) → Completes s (.readResp n) late) ∧
    (∀ d j s2 w c0, cxState r.c ≠ qpErr → (s1.qpx r.qp).reads = [d] → d.seq = leAt r.ext 0 4 → 0 ≤ seqDiff r.seq d.base → seqDiff r.seq d.base < (d.count : Int) → d.got.contains r.seq = false →
      s1.jobById r.k (cxSendSr r.c) d.job = some j →
      (let off := (seqDiff r.seq d.base).toNat * cxMtu r.c
       let data := (r.payload.take r.len).take (j.total - off)
       s1.dmaScatter r.k (cxInst r.c) (s1.rxOp 2 r) (subBufs j.bufs off data.length) data = (s2, .ok w)) → s2.kra.qps = s1.kra.qps →
      (d.got.length + 1 ≠ d.count → seqLt d.seq (s1.qpx r.qp).ackNext = true → s2.qpCtx r.k r.qp = some c0 → seqLt (cxSeqUnacked c0) d.seq = false →
        Completes s (.readResp n) fun t => t.qpx r.qp = { s1.qpx r.qp with reads := [{ d with got := d.got ++ [r.seq] }] } ∧ t.frame? r.frame.id = none) ∧
      (d.got.length + 1 = d.count → Completes s (.readResp n) fun t => (t.qpx r.qp).reads = [] ∧ t.frame? r.frame.id = none))) ∧
  (∀ (s : State) (n : Nat), s.slicesUp = true →
    (s.kra.accesses.find? (fun a => decide (a.frame = n ∧ a.stage ≤ 1)) = none → Completes s (.accessKeyCheck n) fun t => Only [] [] s t) ∧
    (s.kra.accesses.find? (fun a => decide (a.frame = n ∧ 2 ≤ a.stage)) = none → Completes s (.accessRetire n) fun t => Only [] [] s t)) ∧
  (∀ (s : State) (n : Nat) (a : KraAccess), s.slicesUp = true → s.kra.accesses.find? (fun a => decide (a.frame = n ∧ a.stage ≤ 1)) = some a →
    let w := s.regWord a.key
    let home := keyHome a.key
    let s1 := if home ≠ a.slice then s.incFld (F.KRA_REG_REMOTE_CHECKS home) else s
    let gone := fun (t : State) => t.kra.regs = s.kra.regs ∧ t.kra.accesses = s.kra.accesses.filter (fun x => decide (x.frame ≠ a.frame))
    let checked := fun (s2 t : State) (c : Nat) => t.kra.regs = s2.kra.regs ∧
      t.kra.accesses = s2.kra.accesses.map (fun x => if x.frame = a.frame then { a with stage := 2, first := if bitOf a.flags (flagFirst - 12) then a.seq else (s2.qpx a.qp).immFirst } else x) ∧
      ∃ c', t.qpCtx a.slice a.qp = some c' ∧ cxSeqExpected c' = seqAdd (cxSeqExpected c) 1
    (a.stage = 0 → w.state = regValid → 16383 ≤ w.inflight → Completes s (.accessKeyCheck n) fun t => Only [] [] s t) ∧
    (a.stage = 0 → w.state = regValid → w.inflight < 16383 → s1.hbmPoisoned (regAddr home (keyIndex a.key)) 64 = true → Completes s (.accessKeyCheck n) gone) ∧
    (∀ m, a.stage = 0 → w.state = regValid → w.inflight < 16383 → s1.hbmPoisoned (regAddr home (keyIndex a.key)) 64 = false → s1.entryRefuses a = some m →
      Completes s (.accessKeyCheck n) fun t => gone t ∧ Counts s t (F.KRA_ACCESS_VIOLATION a.slice) 1) ∧
    (∀ s2 c, a.stage = 0 → w.state = regValid → w.inflight < 16383 → s1.hbmPoisoned (regAddr home (keyIndex a.key)) 64 = false → s1.entryRefuses a = none → s1.homeBinding a.inst = none →
      let raised := s1.setRegWord a.key { w with inflight := w.inflight + 1 }
      (raised.xlateAll a.slice a.inst 3 (decide (a.op ≠ 4)) (pieces 4096 a.addr a.len) = (s2, .ok ()) → a.dup = false → s2.qpCtx a.slice a.qp = some c →
        Completes s (.accessKeyCheck n) fun t => checked s2 t c) ∧
      (raised.xlateAll a.slice a.inst 3 (decide (a.op ≠ 4)) (pieces 4096 a.addr a.len) = (s2, .error none) → Completes s (.accessKeyCheck n) fun t =>
        t.kra.accesses = s2.kra.accesses.map (fun x => if x.frame = a.frame then { a with stage := 1 } else x) ∧ t.kra.regs = s2.kra.regs)) ∧
    (∀ s2 c, a.stage = 1 → s.homeBinding a.inst = none → s.xlateAll a.slice a.inst 3 (decide (a.op ≠ 4)) (pieces 4096 a.addr a.len) = (s2, .ok ()) → a.dup = false →
      s2.qpCtx a.slice a.qp = some c → Completes s (.accessKeyCheck n) fun t => checked s2 t c) ∧
    (a.stage = 0 → w.state ≠ regValid → Completes s (.accessKeyCheck n) fun t => gone t ∧ Counts s t (F.KRA_ACCESS_VIOLATION a.slice) 1)) ∧
  (∀ (s s1 : State) (n : Nat) (a : KraAccess), s.slicesUp = true → s.kra.accesses.find? (fun a => decide (a.frame = n ∧ 2 ≤ a.stage)) = some a →
    let lowered := fun (s1 t : State) => t.regWord a.key = { s1.regWord a.key with inflight := (s1.regWord a.key).inflight - 1 } ∧
      t.kra.accesses = s1.kra.accesses.filter (fun x => decide (x.frame ≠ a.frame))
    let earlier := s.kra.accesses.any (fun b => decide (b.qp = a.qp ∧ b.stage = 2) && seqLt b.seq a.seq)
    (a.stage = 3 → s.discarding a = true → Completes s (.accessRetire n) fun t => Only [] [] s t) ∧
    (a.stage = 3 → s.discarding a = false → Completes s (.accessRetire n) fun t => lowered s t) ∧
    (a.stage = 2 → bitOf a.flags 0 = true → earlier = true → Completes s (.accessRetire n) fun t => Only [] [] s t) ∧
    (a.stage = 2 → a.imm.isSome = true → s.kra.accesses.any (fun b => decide (b.qp = a.qp ∧ b.op = 2 ∧ b.stage = 2) && seqLt b.seq a.seq && !seqLt b.seq a.first) = true →
      Completes s (.accessRetire n) fun t => Only [] [] s t) ∧
    (∀ w, a.stage = 2 → (bitOf a.flags 0 = true → earlier = false) → a.op ≠ 4 → a.imm = none → s.dmaWrite a.slice a.inst a.addr { s.accessOp a with rx := !bitOf a.flags 0 } a.data = (s1, .ok w) →
      Completes s (.accessRetire n) fun t => lowered s1 t) ∧
    (a.stage = 2 → (bitOf a.flags 0 = true → earlier = false) → a.op ≠ 4 → a.imm = none → s.dmaWrite a.slice a.inst a.addr { s.accessOp a with rx := !bitOf a.flags 0 } a.data = (s1, .wait) →
      Completes s (.accessRetire n) fun t => Only [] [] s1 t) ∧
    (∀ d, a.stage = 2 → (bitOf a.flags 0 = true → earlier = false) → a.op = 4 → a.imm = none → s.dmaRead a.slice a.inst a.addr a.len (s.accessOp a) = (s1, .ok d) →
      Completes s (.accessRetire n) fun t => lowered s1 t)) ∧
  (∀ (s : State) (k q : Nat), s.slicesUp = true →
    (s.jobFor k q 0x18 = none → Completes s (.mrRegister k q) fun t => Only [] [] s t) ∧ (s.jobFor k q 0x19 = none → Completes s (.mrRevoke k q) fun t => Only [] [] s t)) ∧
  (∀ (s : State) (k q : Nat) (j : RJob), s.slicesUp = true → k < 4 → s.jobFor k q 0x18 = some j →
    let i := s.srInst k q
    let len := bitsOf (j.dw 2) 39 0
    ((2 ^ 64 ≤ j.head.addr + len ∨ bitsOf (j.dw 2) 41 40 = 0) → Completes s (.mrRegister k q) fun t => JobEnds s t j St.MR_INVALID 0 false [] []) ∧
    (j.head.addr + len < 2 ^ 64 → bitsOf (j.dw 2) 41 40 ≠ 0 →
      (s.fld (F.INST_QUOTA_B_MR_MAX i) ≤ s.fld (F.INST_USE_B_MR i) → Completes s (.mrRegister k q) fun t =>
        t.rings = (s.finish j St.QUOTA_EXCEEDED 0 false).rings ∧ t.kra = s.kra ∧ t.mem = s.mem) ∧
      (s.fld (F.INST_USE_B_MR i) < s.fld (F.INST_QUOTA_B_MR_MAX i) → 262144 ≤ s.fld (F.KRA_MR_ACTIVE k) → Completes s (.mrRegister k q) fun t =>
        JobEnds s t j St.MR_TABLE_FULL 0 false [] []) ∧
      (∀ ix, s.fld (F.INST_USE_B_MR i) < s.fld (F.INST_QUOTA_B_MR_MAX i) → s.fld (F.KRA_MR_ACTIVE k) < 262144 →
        s.freeReg k (Config.unstated s.freeCtr % 262144) 262144 = some ix → Completes s (.mrRegister k q) fun t =>
        let v := (rgVariant (leNat (s.hbmRead (regAddr k ix) 64)) + 1) % 4096
        let e := j.head.addr + 2 ^ 64 * len + 2 ^ 104 * i + 2 ^ 117 * bitsOf (j.dw 2) 42 40 + 2 ^ 120 * bitsOf (j.dw 2) 63 44 + 2 ^ 140 * v + 2 ^ 152 * bitsOf (j.dw 3) 11 0 + 2 ^ 164 * bitsOf (j.dw 3) 12 12
        let key := v + 2 ^ 12 * ix + 2 ^ 30 * k
        t.rings = (s.finish j St.SUCCESS key false).rings ∧ t.regWord key = { state := regValid, inflight := 0 } ∧ t.mem.hbm = memWrite s.mem.hbm (regAddr k ix) (leBytes 64 e)))) ∧
  (∀ (s : State) (k q : Nat) (j : RJob), s.slicesUp = true → s.jobFor k q 0x19 = some j →
    let key := bitsOf (j.dw 2) 31 0
    (((s.regWord key).state ≠ regValid ∨ (rgInst (s.regEntry key) ≠ s.srInst k q ∧ s.srInst k q ≠ 0) ∨ rgVariant (s.regEntry key) ≠ keyVariant key) →
      Completes s (.mrRevoke k q) fun t => JobEnds s t j St.MR_KEY_INVALID 0 false [] []) ∧
    ((s.regWord key).state = regValid → (rgInst (s.regEntry key) = s.srInst k q ∨ s.srInst k q = 0) → rgVariant (s.regEntry key) = keyVariant key → Completes s (.mrRevoke k q) fun t =>
      t.regWord key = { s.regWord key with state := regDraining } ∧ t.kra.revokes = s.kra.revokes ++ [{ key := key, job := some (k, q, j.id), since := s.time.mono }] ∧
      Only [.kra, .rings] [F.KRA_REVOKES (keyHome key)] s t)) ∧
  (∀ (s : State) (key : Nat), s.slicesUp = true →
    (s.kra.revokes.find? (fun r => decide (r.key = key)) = none → Completes s (.revokeDrained key) fun t => Only [] [] s t) ∧
    (s.kra.revokes.find? (fun r => decide (r.key = key) && !r.forced) = none → Completes s (.kraDrainLimit key) fun t => Only [] [] s t)) ∧
  (∀ (s : State) (key : Nat) (r : Revoke), s.slicesUp = true → s.kra.revokes.find? (fun r => decide (r.key = key)) = some r →
    ((s.regWord key).inflight ≠ 0 → Completes s (.revokeDrained key) fun t => Only [] [] s t) ∧
    (r.forced = true → (s.regWord key).inflight = 0 → Completes s (.revokeDrained key) fun t => t.regWord key = {} ∧ t.kra.revokes = s.kra.revokes.filter (fun x => decide (x.key ≠ key)) ∧
      Only [.kra] [F.KRA_MR_ACTIVE (keyHome key), F.INST_USE_B_MR (rgInst (s.regEntry key))] s t) ∧
    (∀ k q id j, r.forced = false → r.job = some (k, q, id) → s.jobById k q id = some j → (s.regWord key).inflight = 0 → Completes s (.revokeDrained key) fun t =>
      t.rings = (s.finish j St.SUCCESS 0 false).rings ∧ t.regWord key = {} ∧ t.kra.revokes = s.kra.revokes.filter (fun x => decide (x.key ≠ key)) ∧
      Only [.kra, .rings] [F.KRA_MR_ACTIVE (keyHome key), F.INST_USE_B_MR (rgInst (s.regEntry key))] s t)) ∧
  (∀ (s : State) (key : Nat) (r : Revoke), s.slicesUp = true → s.kra.revokes.find? (fun r => decide (r.key = key) && !r.forced) = some r →
    (((s.regWord key).inflight = 0 ∨ s.time.mono < r.since + max 1 (s.fld F.KRA_DRAIN_LIMIT) * ticksPerUs) → Completes s (.kraDrainLimit key) fun t => Only [] [] s t) ∧
    (∀ k q id j, r.job = some (k, q, id) → s.jobById k q id = some j → j.slice = k → j.ring = q → (s.regWord key).inflight ≠ 0 → r.since + max 1 (s.fld F.KRA_DRAIN_LIMIT) * ticksPerUs ≤ s.time.mono →
      s.underKey key = [] → Completes s (.kraDrainLimit key) fun t =>
      t.kra.revokes = s.kra.revokes.map (fun x => if x.key = key then { x with forced := true } else x) ∧ (t.jobById k q id).map (fun x => x.outcome) = some (some (St.REVOKE_FORCED, (s.regWord key).inflight, false)) ∧
      t.kra.regs = s.kra.regs))

/-- Queue pairs move by the state machine of their commands. An agent that may not write KRA_QP_CMD, or a number no queue pair has, changes nothing, as does a command while KRA_QP_RESULT reads 0. Else: CREATE of a queue pair that does not exist, in a mapped group, with a valid context and within quota, makes it live in INIT and reports 1; of one that exists, 2; unmapped, 3; invalid or over quota, 4. ACTIVATE in INIT or SQ_DRAIN makes it ACTIVE, MODIFY in INIT or ACTIVE changes its fields, DRAIN in ACTIVE makes it SQ_DRAIN with result 0 until it is done, ERROR in ACTIVE or SQ_DRAIN makes it ERROR; in another state, or of a queue pair that does not exist in the slice, they report 2 and change nothing. QUERY copies the context, and reports 1. RESET releases it. A command whose context is not cached waits for its fetch; a fetch that is done puts the context in the cache, one that fails leaves none, one that waits for a tag or an answer goes on, and where none is under way nothing happens. A DRAIN ends once nothing is left to send or unacknowledged, and not before. -/
def Obligations.QueuePairsMove : Prop :=
  (∀ (s : State) (g : Agent) (k qp : Nat), s.slicesUp = true → (qpCmdOk g k = false ∨ 2 ^ 20 ≤ qp ∨ s.fld (F.KRA_QP_RESULT k) = 0) →
    (Completes s (.qpCreate g k qp) fun t => Only [] [] s t) ∧ (Completes s (.qpActivate g k qp) fun t => Only [] [] s t) ∧ (Completes s (.qpModify g k qp) fun t => Only [] [] s t) ∧
    (Completes s (.qpQuery g k qp) fun t => Only [] [] s t) ∧ (Completes s (.qpDrain g k qp) fun t => Only [] [] s t) ∧ (Completes s (.qpReset g k qp) fun t => Only [] [] s t) ∧
    (Completes s (.qpError g k qp) fun t => Only [] [] s t)) ∧
  (∀ (s : State) (g : Agent) (k qp : Nat), s.slicesUp = true → qpCmdOk g k = true → qp < 2 ^ 20 → s.fld (F.KRA_QP_RESULT k) ≠ 0 →
    let mapped := (s.ctxPlace qp).1 = 1 ∨ (s.ctxPlace qp).1 = 2
    let i := cxInst (s.staged k)
    let refused := fun (t : State) => t.fld (F.KRA_QP_RESULT k) = 2 ∧ Only [] [F.KRA_QP_RESULT k] s t
    ((s.qpx qp).live = true → Completes s (.qpCreate g k qp) refused) ∧
    ((s.qpx qp).live = false → ¬ mapped → Completes s (.qpCreate g k qp) fun t => t.fld (F.KRA_QP_RESULT k) = 3 ∧ Only [] [F.KRA_QP_RESULT k] s t) ∧
    ((s.qpx qp).live = false → mapped → s.ctxValid k (s.staged k) = false → Completes s (.qpCreate g k qp) fun t =>
      t.fld (F.KRA_QP_RESULT k) = 4 ∧ Only [] [F.KRA_QP_RESULT k] s t) ∧
    ((s.qpx qp).live = false → mapped → s.ctxValid k (s.staged k) = true → s.fld (F.INST_QUOTA_B_QP_MAX i) ≤ s.fld (F.INST_USE_B_QP i) → Completes s (.qpCreate g k qp) fun t =>
      t.fld (F.KRA_QP_RESULT k) = 4 ∧ t.kra = s.kra) ∧
    ((s.qpx qp).live = false → mapped → s.ctxValid k (s.staged k) = true → k < s.kra.cache.length → (s.ctxCache k).length < 16384 →
      s.fld (F.INST_USE_B_QP i) < s.fld (F.INST_QUOTA_B_QP_MAX i) → Completes s (.qpCreate g k qp) fun t =>
      (t.qpx qp).live = true ∧ (t.qpx qp).inst = i ∧ (t.qpx qp).slice = k ∧ (t.qpx qp).jobs = [] ∧ t.fld (F.KRA_QP_RESULT k) = 1 ∧
      (∃ c, t.qpCtx k qp = some c ∧ cxState c = qpInit ∧ cxRetryCount c = 0 ∧ cxRnrCount c = 0 ∧ cxSendSr c = cxSendSr (s.staged k)) ∧
      Only [.kra] [F.KRA_QP_RESULT k, F.KRA_CTX_RESIDENT k, F.INST_USE_B_QP i] s t) ∧
    (Completes s (.qpReset g k qp) fun t => t.qpx qp = {} ∧ t.qpCtx k qp = none ∧ t.fld (F.KRA_QP_RESULT k) = 1) ∧
    (((s.qpx qp).live = false ∨ (s.qpx qp).slice ≠ k) → Completes s (.qpActivate g k qp) refused ∧ Completes s (.qpModify g k qp) refused ∧ Completes s (.qpDrain g k qp) refused ∧
      Completes s (.qpError g k qp) refused ∧ Completes s (.qpQuery g k qp) fun t => t.fld (F.KRA_QP_RESULT k) = 1 ∧ Only [] [F.KRA_QP_RESULT k] s t) ∧
    ((s.qpx qp).live = true → (s.qpx qp).slice = k → s.qpCtx k qp = none → s.kra.fetch.contains (k, qp) = false →
      let waits := fun (i : Instr) (op : Nat) => Completes s i fun t => t.kra.cmds = s.kra.cmds ++ [(k, qp, op)] ∧ t.kra.fetch = s.kra.fetch ++ [(k, qp)] ∧ t.fld (F.KRA_QP_RESULT k) = 0 ∧
        Only [.kra] [F.KRA_QP_RESULT k, F.KRA_CTX_MISSES k] s t
      waits (.qpActivate g k qp) 2 ∧ waits (.qpModify g k qp) 3 ∧ waits (.qpQuery g k qp) 4 ∧ waits (.qpDrain g k qp) 5 ∧ waits (.qpError g k qp) 7)) ∧
  (∀ (s : State) (g : Agent) (k qp c : Nat), s.slicesUp = true → qpCmdOk g k = true → qp < 2 ^ 20 → s.fld (F.KRA_QP_RESULT k) ≠ 0 → (s.qpx qp).live = true → (s.qpx qp).slice = k → s.qpCtx k qp = some c →
    let refused := fun (t : State) => t.fld (F.KRA_QP_RESULT k) = 2 ∧ Only [] [F.KRA_QP_RESULT k] s t
    ((cxState c = qpInit ∨ cxState c = qpDrain) → Completes s (.qpActivate g k qp) fun t => t.qpCtx k qp = some (cxSetState c qpActive) ∧ t.fld (F.KRA_QP_RESULT k) = 1 ∧
      Only [.kra] [F.KRA_QP_RESULT k, F.KRA_CTX_RESIDENT k] s t) ∧
    (cxState c ≠ qpInit → cxState c ≠ qpDrain → Completes s (.qpActivate g k qp) refused) ∧
    ((cxState c = qpInit ∨ cxState c = qpActive) → Completes s (.qpModify g k qp) fun t => t.qpCtx k qp = some (modifyCtx c (s.staged k)) ∧ t.fld (F.KRA_QP_RESULT k) = 1 ∧
      Only [.kra] [F.KRA_QP_RESULT k, F.KRA_CTX_RESIDENT k] s t) ∧
    (cxState c ≠ qpInit → cxState c ≠ qpActive → Completes s (.qpModify g k qp) refused) ∧
    (Completes s (.qpQuery g k qp) fun t => (∀ u, u < 11 → t.rd (R.KRA_QP_STAGE k u) = BitVec.ofNat 64 (c / 2 ^ (64 * u))) ∧ t.fld (F.KRA_QP_RESULT k) = 1 ∧
      Only [] (F.KRA_QP_RESULT k :: (List.range 32).map fun u => ⟨R.KRA_QP_STAGE k u, 0, 64⟩) s t) ∧
    (cxState c = qpActive → (s.qpx qp).jobs = [] → Completes s (.qpDrain g k qp) fun t => t.qpCtx k qp = some (cxSetState c qpDrain) ∧ (t.qpx qp).drain = true ∧ t.fld (F.KRA_QP_RESULT k) = 0 ∧
      Only [.kra] [F.KRA_QP_RESULT k, F.KRA_CTX_RESIDENT k] s t) ∧
    (cxState c ≠ qpActive → Completes s (.qpDrain g k qp) refused) ∧
    ((cxState c = qpActive ∨ cxState c = qpDrain) → Completes s (.qpError g k qp) fun t => (∃ c', t.qpCtx k qp = some c' ∧ cxState c' = qpErr) ∧ (t.qpx qp).jobs = [] ∧ (t.qpx qp).out = [] ∧
      t.fld (F.KRA_QP_RESULT k) = 1) ∧
    (cxState c ≠ qpActive → cxState c ≠ qpDrain → Completes s (.qpError g k qp) refused)) ∧
  (∀ (s : State) (k qp : Nat), s.slicesUp = true →
    (((s.qpx qp).live = false ∨ (s.qpx qp).slice ≠ k ∨ (s.qpx qp).drain = false ∨ (s.qpx qp).out ≠ [] ∨ (s.qpx qp).jobs ≠ []) → Completes s (.qpDrainDone k qp) fun t => Only [] [] s t) ∧
    ((s.qpx qp).live = true → (s.qpx qp).slice = k → (s.qpx qp).drain = true → (s.qpx qp).out = [] → (s.qpx qp).jobs = [] → Completes s (.qpDrainDone k qp) fun t =>
      t.fld (F.KRA_QP_RESULT k) = 1 ∧ t.qpx qp = { s.qpx qp with drain := false } ∧ Only [.kra] [F.KRA_QP_RESULT k] s t)) ∧
  (∀ (s s1 : State) (k qp : Nat) (img : List Byte), s.slicesUp = true →
    (s.kra.fetch.contains (k, qp) = false → Completes s (.kraContextFetchDone k qp) fun t => Only [] [] s t) ∧
    (s.kra.fetch.contains (k, qp) = true → s.kra.miss.getD k [] = [] → s.kra.cmds = [] →
      (s.readCtx k qp = (s1, .wait) → Completes s (.kraContextFetchDone k qp) fun t => Only [] [] s1 t) ∧
      (s.readCtx k qp = (s1, .ok img) → s1.kra.miss.getD k [] = [] → (s1.qpx qp).live = true → (s1.qpx qp).errPend = none → s1.kra.cmds = [] → k < s1.kra.cache.length → (s1.ctxCache k).length < 16384 →
        Completes s (.kraContextFetchDone k qp) fun t => t.qpCtx k qp = some (leNat img) ∧ t.kra.fetch = s1.kra.fetch.erase (k, qp) ∧
          Only [.kra] [F.KRA_CTX_RESIDENT k, F.KRA_MISS_DEPTH k] s1 t) ∧
      ((s.ctxPlace qp).1 = 0 → Completes s (.kraContextFetchDone k qp) fun t => t.kra.fetch = s.kra.fetch.erase (k, qp) ∧ Only [.kra] [] s t)))

/-- Korrum ports follow their state machine, and blocks are numbered, held and replayed. For each of the six ports: ENABLE by a permitted agent takes DISABLED to DETECT, and without it any state to DISABLED, with the exit of ACTIVE counted. Signal, training within 500 ms, its timeout, lock, a fault of an ACTIVE link, lock within 10 ms, its timeout and the retry after 1 s move the port as the table says; entering NEGOTIATE sends LINK_CAPS with 16 fresh bytes. The proof goes out and the first failing check refuses the link; with none failing it is ACTIVE with its counts at zero. A block sent is counted, held and sent under the next BLOCK_SEQ, or one is replayed. A block with a bad CRC asks for a retry and changes nothing else; one out of order asks for a retry; one with the expected number is counted. 4 us without an acknowledgement replays from the oldest block held. A packet that arrives leaves its port's list and frees its flits: a type that is not known is counted, with may-ignore as ignored, else with BAD_TYPE_SEEN; one for another device is dropped at its eighth hop, else given to the port of its route. An agent that may not write KL_CTRL, a command for another state of the port or before its time, a block for a port that is not ACTIVE, and an empty list change nothing. A packet for this device is delivered: a TIME or FED_MGMT packet leaves nothing more, a frame or KRA packet becomes a frame at its handle's home slice, an UNBOUND waits in the inbox of the federated endpoint. The draw of the nonce and LINK_CAPS's layout are free (log entry 12). -/
def Obligations.KorrumPortsTrainAndRetry : Prop :=
  (∀ (s : State) (g : Agent) (p : Nat), s.slicesUp = true → klCtrlOk g p = false → (Completes s (.klEnable g p) fun t => Only [] [] s t) ∧ (Completes s (.klDisable g p) fun t => Only [] [] s t)) ∧
  (∀ (s : State) (p : Nat), s.slicesUp = true →
    let idle := fun (i : Instr) => Completes s i fun t => Only [] [] s t
    ((6 ≤ p ∨ s.klState p ≠ klDetect) → idle (.klSignalDetect p)) ∧
    ((6 ≤ p ∨ s.klState p ≠ klEqualise ∨ s.klElapsed p 500 = true) → idle (.klTrainingComplete p)) ∧
    ((6 ≤ p ∨ s.klState p ≠ klEqualise ∨ s.klElapsed p 500 = false) → idle (.klEqualiseTimeout p)) ∧
    ((6 ≤ p ∨ s.klState p ≠ klAlign) → idle (.klAlignLock p)) ∧
    ((6 ≤ p ∨ s.klState p ≠ klRetrain ∨ s.klElapsed p 10 = true) → idle (.klRetrainLock p)) ∧
    ((6 ≤ p ∨ s.klState p ≠ klRetrain ∨ s.klElapsed p 10 = false) → idle (.klRetrainTimeout p)) ∧
    ((6 ≤ p ∨ s.klState p ≠ klRefused ∨ s.klElapsed p 1000 = false) → idle (.klRefusedRetry p)) ∧
    (∀ lost, (6 ≤ p ∨ s.klState p ≠ klActive ∨ (lost = false ∧ (s.link p).replays < 8)) → idle (.klLinkFault p lost)) ∧
    (∀ caps, (6 ≤ p ∨ s.klState p ≠ klNegotiate) → idle (.linkCaps p caps)) ∧
    (∀ vcs block, (6 ≤ p ∨ s.klState p ≠ klActive) → idle (.linkBlockSend p vcs) ∧ idle (.linkBlockReceive p block)) ∧
    ((6 ≤ p ∨ s.klState p ≠ klActive ∨ (s.link p).held = [] ∨ s.time.mono < (s.link p).ackAt + 4 * ticksPerUs) → idle (.replayTimeout p)) ∧
    ((7 ≤ p ∨ (s.link p).inbox = []) → idle (.korrumPacketReceive p))) ∧
  (∀ (s : State) (g : Agent) (p : Nat), s.slicesUp = true → klCtrlOk g p = true →
    (s.klState p = klDisabled → Completes s (.klEnable g p) fun t => t.on (F.KL_CTRL_ENABLE p) = true ∧ t.klState p = klDetect ∧ Only [.links] [F.KL_CTRL_ENABLE p, F.KL_STATE_STATE p] s t) ∧
    (s.klState p ≠ klDisabled → Completes s (.klEnable g p) fun t => t.on (F.KL_CTRL_ENABLE p) = true ∧ Only [] [F.KL_CTRL_ENABLE p] s t) ∧
    (s.klState p ≠ klActive → Completes s (.klDisable g p) fun t => t.on (F.KL_CTRL_ENABLE p) = false ∧ t.klState p = klDisabled ∧ Only [.links] [F.KL_CTRL_ENABLE p, F.KL_STATE_STATE p] s t) ∧
    (s.klState p = klActive → Completes s (.klDisable g p) fun t => t.on (F.KL_CTRL_ENABLE p) = false ∧ t.klState p = klDisabled ∧
      t.fld (F.KL_RETRAINS p) = (s.fld (F.KL_RETRAINS p) + 1) % 2 ^ 32 ∧ t.fld (F.KL_LINK_LOSS p) = (s.fld (F.KL_LINK_LOSS p) + (s.link p).lostFlits) % 2 ^ 64 ∧ t.on F.KL_INT_STATUS_LINK_DOWN_SEEN = true ∧
      Only [.links, .fed, .keeperPend] [F.KL_CTRL_ENABLE p, F.KL_STATE_STATE p, F.KL_RETRAINS p, F.KL_LINK_LOSS p, F.KL_INT_STATUS_LINK_DOWN_SEEN] s t)) ∧
  (∀ (s : State) (p : Nat), s.slicesUp = true → p < 6 → p < s.links.length →
    let moves := fun (i : Instr) (v : Nat) => Completes s i fun t => t.klState p = v ∧ t.link p = { s.link p with since := s.time.mono } ∧ Only [.links] [F.KL_STATE_STATE p] s t
    let negotiates := fun (i : Instr) => Completes s i fun t => t.klState p = klNegotiate ∧ (t.link p).nonce = (List.range 16).map (Config.random s.freeCtr) ∧
      t.out = s.out ++ [.linkMsg p (t.linkCaps (t.link p).nonce)] ∧ Only [.links, .out] [F.KL_STATE_STATE p, F.RNG_BYTES, F.RNG_RESEEDS] s t
    (s.klState p = klDetect → moves (.klSignalDetect p) klEqualise) ∧
    (s.klState p = klEqualise → s.klElapsed p 500 = false → moves (.klTrainingComplete p) klAlign) ∧
    (s.klState p = klEqualise → s.klElapsed p 500 = true → Completes s (.klEqualiseTimeout p) fun t => t.klState p = klDetect ∧
      t.fld (F.KL_TRAIN_FAIL p) = min (s.fld (F.KL_TRAIN_FAIL p) + 1) (2 ^ 32 - 1) ∧ Only [.links] [F.KL_STATE_STATE p, F.KL_TRAIN_FAIL p] s t) ∧
    (s.klState p = klAlign → negotiates (.klAlignLock p)) ∧
    (s.klState p = klRetrain → s.klElapsed p 10 = false → negotiates (.klRetrainLock p)) ∧
    (s.klState p = klRetrain → s.klElapsed p 10 = true → moves (.klRetrainTimeout p) klDetect) ∧
    (s.klState p = klRefused → s.klElapsed p 1000 = true → negotiates (.klRefusedRetry p)) ∧
    (∀ lost, s.klState p = klActive → (lost = true ∨ 8 ≤ (s.link p).replays) → Completes s (.klLinkFault p lost) fun t => t.klState p = klRetrain ∧
      (t.link p).held = [] ∧ (t.link p).parts = [[], [], [], []] ∧ t.fld (F.KL_RETRAINS p) = (s.fld (F.KL_RETRAINS p) + 1) % 2 ^ 32 ∧
      t.fld (F.KL_LINK_LOSS p) = (s.fld (F.KL_LINK_LOSS p) + (s.link p).lostFlits) % 2 ^ 64 ∧ t.on F.KL_INT_STATUS_LINK_DOWN_SEEN = true ∧ t.on F.KL_INT_STATUS_RETRAIN_SEEN = true) ∧
    (∀ caps, s.klState p = klNegotiate →
      (∀ r, s.linkKey = none → s.capsRefuse p caps = some r → Completes s (.linkCaps p caps) fun t => t.klState p = klRefused ∧ t.fld (F.KL_STATE_REFUSE p) = r ∧ t.on F.KL_INT_STATUS_REFUSED_SEEN = true ∧
        Only [.links, .keeperPend] [F.KL_STATE_STATE p, F.KL_STATE_REFUSE p, F.KL_INT_STATUS_REFUSED_SEEN] s t) ∧
      (∀ key, s.linkKey = some key → s.capsRefuse p caps = none → caps.member = false → caps.fed < 64 → Completes s (.linkCaps p caps) fun t => t.klState p = klActive ∧ t.fld (F.KL_STATE_PEER_FED p) = caps.fed ∧
        (t.link p).txSeq = 0 ∧ (t.link p).rxSeq = 0 ∧ (t.link p).sent = [0, 0, 0, 0] ∧ (t.link p).freed = [0, 0, 0, 0] ∧ (t.link p).adv = caps.buffers ∧ (t.link p).outQ = (s.link p).outQ ∧
        t.out = s.out ++ [.linkMsg p (linkProof key (s.link p).nonce caps.nonce s.fedId (if s.fedId < caps.fed then 0 else 1))] ∧
        Only [.links, .out] [F.KL_STATE_STATE p, F.KL_STATE_PEER_FED p] s t) ∧
      (s.capsRefuse p caps = none → caps.member = true → caps.fed < 64 → s.fedState = fedAlone → s.on F.FED_ID_VALID = true → Completes s (.linkCaps p caps) fun t =>
        t.klState p = klActive ∧ t.fedState = fedJoining ∧ (t.link p).peerMember = true ∧ (t.link p).peerMaster = caps.master) ∧
      (s.capsRefuse p caps = none → caps.member = true → caps.fed < 64 → s.isMaster = true → caps.master < s.fedId → Completes s (.linkCaps p caps) fun t =>
        t.klState p = klActive ∧ t.fedState = fedAlone ∧ t.fld F.FED_MEMBERS = 0))) ∧
  (∀ (s : State) (p : Nat), s.slicesUp = true → p < 6 → p < s.links.length → s.klState p = klActive →
    (∀ q b vcs, (s.link p).replay = some q → (s.link p).held.find? (fun (b : LinkBlk) => decide (b.seq = q)) = some b → Completes s (.linkBlockSend p vcs) fun t =>
      t.out = s.out ++ [.linkBlock p ((s.link p).blockBytes b)] ∧ (t.link p).held = (s.link p).held ∧ (t.link p).txSeq = (s.link p).txSeq ∧
      t.fld (F.KL_BLOCKS_TX p) = (s.fld (F.KL_BLOCKS_TX p) + 1) % 2 ^ 64 ∧ Only [.links, .out] [F.KL_BLOCKS_TX p] s t) ∧
    (∀ vcs, ((s.link p).replay.bind fun q => (s.link p).held.find? fun (b : LinkBlk) => decide (b.seq = q)) = none → (s.link p).held.length < 128 → Completes s (.linkBlockSend p vcs) fun t =>
      let f := fillSlots vcs { link := s.link p }
      t.out = s.out ++ [.linkBlock p ((s.link p).blockBytes ⟨(s.link p).txSeq, f.masks, f.slots⟩)] ∧ (t.link p).held = (s.link p).held ++ [⟨(s.link p).txSeq, f.masks, f.slots⟩] ∧
      (t.link p).txSeq = ((s.link p).txSeq + 1) % 1024 ∧ (t.link p).outQ = f.link.outQ ∧ Only [.links, .out] [F.KL_BLOCKS_TX p, F.KL_TRANSIT_FLITS p] s t) ∧
    (∀ vcs, ((s.link p).replay.bind fun q => (s.link p).held.find? fun (b : LinkBlk) => decide (b.seq = q)) = none → 128 ≤ (s.link p).held.length → Completes s (.linkBlockSend p vcs) fun t =>
      (t.link p).outQ = (s.link p).outQ ∧ t.fld (F.KL_REPLAY_FULL p) = (s.fld (F.KL_REPLAY_FULL p) + 1) % 2 ^ 64 ∧ Only [.links, .out] [F.KL_BLOCKS_TX p, F.KL_REPLAY_FULL p] s t) ∧
    (∀ block, crc32c (slice block 32 512 ++ slice block 0 28) ≠ leAt block 28 4 → Completes s (.linkBlockReceive p block) fun t =>
      t.link p = { s.link p with retry := true } ∧ t.fld (F.KL_CRC_ERR p) = (s.fld (F.KL_CRC_ERR p) + 1) % 2 ^ 64 ∧ Only [.links] [F.KL_CRC_ERR p] s t) ∧
    (∀ block, crc32c (slice block 32 512 ++ slice block 0 28) = leAt block 28 4 → leAt block 0 2 % 1024 ≠ (s.link p).rxSeq → Completes s (.linkBlockReceive p block) fun t =>
      (t.link p).retry = true ∧ (t.link p).rxSeq = (s.link p).rxSeq ∧ (t.link p).inbox = (s.link p).inbox ∧ (t.link p).parts = (s.link p).parts ∧ Only [.links] [F.KL_REPLAYS p] s t) ∧
    (∀ block, crc32c (slice block 32 512 ++ slice block 0 28) = leAt block 28 4 → leAt block 0 2 % 1024 = (s.link p).rxSeq → Completes s (.linkBlockReceive p block) fun t =>
      (t.link p).retry = false ∧ (t.link p).rxSeq = ((s.link p).rxSeq + 1) % 1024 ∧ t.fld (F.KL_BLOCKS_RX p) = (s.fld (F.KL_BLOCKS_RX p) + 1) % 2 ^ 64 ∧
      (t.link p).credit = (List.range 4).map (fun v => leAt block (8 + 2 * v) 2) ∧
      (leAt block 3 1 = 0 → (t.link p).inbox = (s.link p).inbox ∧ (t.link p).parts = (s.link p).parts) ∧
      (let l := takeFlits s.time.mono (bitsOf (leAt (slice block 0 28) 0 8) 55 24) (slice block 32 512) 8 0 (s.link p)
       (t.link p).inbox = l.inbox ∧ (t.link p).parts = l.parts) ∧ Only [.links] [F.KL_REPLAYS p, F.KL_BLOCKS_RX p] s t) ∧
    (∀ b rest, (s.link p).held = b :: rest → (s.link p).ackAt + 4 * ticksPerUs ≤ s.time.mono → Completes s (.replayTimeout p) fun t =>
      (t.link p).replay = some b.seq ∧ (t.link p).held = b :: rest ∧ t.fld (F.KL_REPLAYS p) = (s.fld (F.KL_REPLAYS p) + 1) % 2 ^ 64 ∧ Only [.links] [F.KL_REPLAYS p] s t)) ∧
  (∀ (s : State) (p : Nat) (x : KPkt) (rest : List KPkt), s.slicesUp = true → p < 6 → p < s.links.length → (s.link p).inbox = x :: rest → x.vc < (s.link p).freed.length →
    let freed := (s.link p).freed.set x.vc (((s.link p).freed.getD x.vc 0 + x.flitCount) % 65536)
    ((x.typ = 0 ∨ 12 ≤ x.typ) → x.mayIgnore = true → Completes s (.korrumPacketReceive p) fun t => t.link p = { s.link p with inbox := rest, freed := freed } ∧
      t.fld F.KL_IGNORED = (s.fld F.KL_IGNORED + 1) % 2 ^ 64 ∧ Only [.links] [F.KL_IGNORED] s t) ∧
    ((x.typ = 0 ∨ 12 ≤ x.typ) → x.mayIgnore = false → Completes s (.korrumPacketReceive p) fun t => t.link p = { s.link p with inbox := rest, freed := freed } ∧
      t.fld F.KL_BAD_TYPE = (s.fld F.KL_BAD_TYPE + 1) % 2 ^ 64 ∧ t.on F.KL_INT_STATUS_BAD_TYPE_SEEN = true ∧ Only [.links, .keeperPend] [F.KL_BAD_TYPE, F.KL_INT_STATUS_BAD_TYPE_SEEN] s t) ∧
    (x.typ ≠ 0 → x.typ < 12 → x.dest ≠ s.fedId → 8 ≤ x.hops + 1 → Completes s (.korrumPacketReceive p) fun t => t.link p = { s.link p with inbox := rest, freed := freed } ∧
      t.fld F.KL_HOP_DROP = (s.fld F.KL_HOP_DROP + 1) % 2 ^ 64 ∧ Only [.links] [F.KL_HOP_DROP] s t) ∧
    (x.typ ≠ 0 → x.typ < 12 → x.dest ≠ s.fedId → x.hops + 1 < 8 → s.fld (F.KL_ROUTE x.dest) < 6 → s.fld (F.KL_ROUTE x.dest) ≠ p → s.fld (F.KL_ROUTE x.dest) < s.links.length →
      Completes s (.korrumPacketReceive p) fun t =>
      let r := s.fld (F.KL_ROUTE x.dest)
      (t.link r).outQ = (s.link r).outQ ++ [({ x with hops := x.hops + 1, vc := klVc s.fedId r (some p) x.vc }, true)] ∧ (t.link p).inbox = rest ∧ Only [.links] [] s t) ∧
    (x.dest = s.fedId →
      ((x.typ = 9 ∨ x.typ = 11) → Completes s (.korrumPacketReceive p) fun t => t.link p = { s.link p with inbox := rest, freed := freed } ∧ Only [.links] [] s t) ∧
      ((x.typ = 1 ∨ x.typ = 2) → Completes s (.korrumPacketReceive p) fun t => t.link p = { s.link p with inbox := rest, freed := freed } ∧ t.eth.nextFrame = s.eth.nextFrame + 1 ∧
        Counts s t (F.SPINE_IN (homeOf x.handle)) 1) ∧
      (x.typ = 8 → feCtlOp x = 5 → Completes s (.korrumPacketReceive p) fun t => t.link p = { s.link p with inbox := rest, freed := freed } ∧ t.fe = { s.fe with inbox := s.fe.inbox ++ [x] } ∧
        Only [.links, .fe] [] s t) ∧
      (3 ≤ x.typ → x.typ ≤ 8 → (x.typ = 8 → feCtlOp x ≠ 5) → s.feBindingOf x = none → Completes s (.korrumPacketReceive p) fun t => Counts s t F.FE_BIND_MISMATCH 1 ∧ t.fe = s.fe ∧ (t.link p).inbox = rest)))

/-- Joining, moves, heartbeats, the election, time distribution and the epoch. JOIN_REQ at the master is refused where the device is a member or its epoch lies apart, else starts a move that takes it in. A refusal, the wait to ask again and the timer that makes an eligible device master of a federation of one act as the table says. LEAVE is for a member and sends LEAVE_REQ, else it fails; LEAVE_REQ of a planned member at the master starts a move without it. DISSOLVE by the master, and the move that takes a device out, leave it ALONE with no binding and no route. MOVE_BEGIN with a generation not lower is kept, sets MOVING, cancels a raise of the epoch and is answered; MOVE_READY in time is noted; at T_SWITCH the routes and members are installed, MOVING clears and the move counts; a master that lacks an answer 1 ms before declares the members lost. The master's timer after 10 ms sends HEARTBEAT, and counts and drops a member that missed three; a member answers it; the master notes an answer, and starts a move where links have changed. After 30 ms a member claims, or waits on without a candidate; a claim of a lower ID is kept; 20 ms after the first the claim is adopted, by the device it names as master. TIME_SYNC goes 64 times a second, is stamped and answered, as is TIME_DELAY_REQ; TIME_DELAY_RESP gives the link's delay. A raise of the epoch by one is kept and acknowledged, the acknowledgement noted, and cancelled by its abort; at T_RAISE the epoch is raised, or the master aborts it when an acknowledgement is missing 10 ms before. A command for another state, from another device or before its time changes nothing. What FED_MGMT and TIME packets carry in bytes is free beside its order (log entry 12). -/
def Obligations.FederationMovesAndRaises : Prop :=
  (∀ (s : State) (src own links : Nat) (eligible : Bool), s.slicesUp = true →
    let epochs := s.ownEpoch :: (s.fed.roster.filter (fun m => bitOf s.plannedMembers m.id)).map Member.own
    let apart := epochs.any (fun e => decide (e + 2 ≤ own ∨ own + 2 ≤ e))
    ((s.isMaster = false ∨ 64 ≤ src) → Completes s (.joinReq src own links eligible) fun t => Only [] [] s t) ∧
    (s.isMaster = true → src < 64 → (src = s.fedId ∨ bitOf (s.fld F.FED_MEMBERS) src = true ∨ apart = true) → Completes s (.joinReq src own links eligible) fun t => t.fed = s.fed ∧ Only [.links] [] s t) ∧
    (s.isMaster = true → src < 64 → src ≠ s.fedId → bitOf (s.fld F.FED_MEMBERS) src = false → apart = false → Completes s (.joinReq src own links eligible) fun t =>
      (∃ mv, t.fed.move = some mv ∧ mv.msg.members = withId s.plannedMembers src ∧ mv.msg.gen = (s.fed.gen + 1) % 2 ^ 32 ∧ mv.msg.tSwitch = s.time.units + 80000000 ∧ mv.ready = [s.fedId]) ∧
      t.fed.roster = s.fed.roster.filter (fun x => decide (x.id ≠ src)) ++ [{ id := src, own := own, links := links, eligible := eligible }] ∧ t.on F.FED_STATE_MOVING = true)) ∧
  (∀ (s : State) (reason : Nat), s.slicesUp = true → (s.fedState ≠ fedJoining → Completes s (.joinRefuse reason) fun t => Only [] [] s t) ∧ (s.fedState = fedJoining → Completes s (.joinRefuse reason) fun t =>
    t.fedState = fedAlone ∧ t.fed.retryAt = some (s.time.mono + 10 * ticksPerSec) ∧ t.fld F.FED_JOIN_REFUSED = min (s.fld F.FED_JOIN_REFUSED + 1) (2 ^ 32 - 1) ∧ t.on F.FED_INT_STATUS_JOIN_REFUSED_SEEN = true ∧
    Only [.fed, .keeperPend] [F.FED_STATE_STATE, F.FED_JOIN_REFUSED, F.FED_INT_STATUS_JOIN_REFUSED_SEEN] s t)) ∧
  (∀ (s : State), s.slicesUp = true →
    let due := s.fedState = fedAlone ∧ s.on F.FED_ID_VALID = true ∧ s.fed.eligible = true ∧ s.memberPort = none ∧ s.fed.aloneSince + 2 * ticksPerSec ≤ s.time.mono
    (due → Completes s .fedAloneTimeout fun t => t.isMaster = true ∧ t.fld F.FED_MASTER_ID = s.fedId ∧ t.fld F.FED_MEMBERS = 2 ^ s.fedId ∧ t.fld F.FED_EPOCH_EPOCH = s.ownEpoch ∧ t.fld (F.KL_ROUTE s.fedId) = 6) ∧
    (¬ due → Completes s .fedAloneTimeout fun t => Only [] [] s t)) ∧
  (∀ (s : State), s.slicesUp = true → ((s.fed.retryAt = none ∨ s.memberPort = none ∨ s.fedState ≠ fedAlone) → Completes s .fedJoinRetry fun t => Only [] [] s t) ∧
    (∀ t0 p, s.fed.retryAt = some t0 → s.memberPort = some p → s.fedState = fedAlone →
      (s.time.mono < t0 → Completes s .fedJoinRetry fun t => Only [] [] s t) ∧
      (t0 ≤ s.time.mono → Completes s .fedJoinRetry fun t => t.fedState = fedJoining ∧ t.fed.retryAt = none ∧ Only [.links, .fed] [F.FED_STATE_STATE] s t))) ∧
  RunsFor .fedLeave 0x0601 ∧
  (∀ (s : State) (h : Holder), s.slicesUp = true → s.Holds 0x0601 h → (s.fedState ≠ fedMember → Completes s .fedLeave fun t => MgmtRefuses s t h) ∧
    (s.fedState = fedMember → Completes s .fedLeave fun t => t.fedState = fedLeaving ∧ MgmtAnswers s t h (some (mkReply 0 [] 0)) [.links] [F.FED_STATE_STATE, F.KL_UNREACH_DROP])) ∧
  (∀ (s : State) (src : Nat), s.slicesUp = true →
    let mine := s.on F.FED_MASTER_SELF = true ∧ (s.fedState = fedMember ∨ s.fedState = fedLeaving) ∧ bitOf s.plannedMembers src = true
    (¬ mine → Completes s (.leaveReq src) fun t => Only [] [] s t) ∧
    (mine → Completes s (.leaveReq src) fun t => (∃ mv, t.fed.move = some mv ∧ mv.msg.members = without s.plannedMembers src ∧ mv.msg.gen = (s.fed.gen + 1) % 2 ^ 32 ∧
      mv.msg.tSwitch = s.time.units + 80000000) ∧ t.on F.FED_STATE_MOVING = true)) ∧
  (∀ (s : State) (src : Nat), s.slicesUp = true →
    let his := s.fedState = fedMember ∧ src = s.fld F.FED_MASTER_ID ∧ src ≠ s.fedId
    (¬ his → Completes s (.dissolve src) fun t => Only [] [] s t) ∧
    (his → Completes s (.dissolve src) fun t => t.fedState = fedAlone ∧ t.fld F.FED_MEMBERS = 0 ∧ t.fe.bindings = [] ∧ (∀ f, f < 64 → t.fld (F.KL_ROUTE f) = 7) ∧ t.fed.move = none)) ∧
  (∀ (s : State) (m : MoveMsg), s.slicesUp = true →
    ((s.fedState = fedAlone ∨ s.isMaster = true ∨ m.gen < s.fed.gen) → Completes s (.moveBegin m) fun t => Only [] [] s t) ∧
    (s.fedState ≠ fedAlone → s.isMaster = false → s.fed.gen ≤ m.gen → (∀ r, s.fed.raising = some r → r.mine = false) → Completes s (.moveBegin m) fun t =>
      t.fed = { s.fed with raising := none, gen := m.gen, move := some { msg := m, ready := [], routes := routesOf m.links m.members s.fedId s.freeCtr } } ∧ t.on F.FED_STATE_MOVING = true ∧
      t.on F.FED_INT_STATUS_MOVING_SEEN = true ∧ (∀ f, t.fld (F.KL_ROUTE f) = s.fld (F.KL_ROUTE f)) ∧
      Only [.fed, .links, .keeperPend] [F.FED_STATE_MOVING, F.FED_INT_STATUS_MOVING_SEEN, F.KL_UNREACH_DROP] s t)) ∧
  (∀ (s : State) (src gen : Nat), s.slicesUp = true → (s.fed.move = none → Completes s (.moveReady src gen) fun t => Only [] [] s t) ∧
    (∀ mv, s.fed.move = some mv → (mv.msg.master ≠ s.fedId ∨ gen ≠ mv.msg.gen ∨ mv.msg.tSwitch < s.time.units + 8000000 ∨ mv.ready.contains src = true) → Completes s (.moveReady src gen) fun t => Only [] [] s t) ∧
    (∀ mv, s.fed.move = some mv → mv.msg.master = s.fedId → gen = mv.msg.gen → s.time.units + 8000000 ≤ mv.msg.tSwitch → mv.ready.contains src = false →
      Completes s (.moveReady src gen) fun t => t.fed = { s.fed with move := some { mv with ready := mv.ready ++ [src] } } ∧ Only [.fed] [] s t)) ∧
  (∀ (s : State), s.slicesUp = true → (s.fed.move = none → Completes s .moveSwitch fun t => Only [] [] s t) ∧
    (∀ mv, s.fed.move = some mv →
      let late := (idsOf mv.msg.members).filter (fun f => !mv.ready.contains f)
      let waits := mv.msg.master = s.fedId ∧ late ≠ []
      (waits → s.time.units + 8000000 < mv.msg.tSwitch → Completes s .moveSwitch fun t => Only [] [] s t) ∧
      (waits → mv.msg.tSwitch ≤ s.time.units + 8000000 → Completes s .moveSwitch fun t => t.on F.FED_INT_STATUS_MEMBER_LOST_SEEN = true ∧ t.on F.FED_STATE_MOVING = true ∧
        ∃ mv', t.fed.move = some mv' ∧ mv'.msg.gen = (s.fed.gen + 1) % 2 ^ 32) ∧
      (¬ waits → s.time.units < mv.msg.tSwitch → Completes s .moveSwitch fun t => Only [] [] s t) ∧
      (¬ waits → mv.msg.tSwitch ≤ s.time.units → bitOf mv.msg.members s.fedId = true → mv.msg.members < 2 ^ 64 → mv.msg.master < 64 →
        mv.msg.epoch < 2 ^ 16 → (∀ f, f < 64 → mv.routes.getD f 7 < 8) → Completes s .moveSwitch fun t =>
        (∀ f, f < 64 → t.fld (F.KL_ROUTE f) = mv.routes.getD f 7) ∧ t.fld F.FED_MEMBERS = mv.msg.members ∧ t.fld F.FED_MASTER_ID = mv.msg.master ∧ t.on F.FED_MASTER_SELF = decide (mv.msg.master = s.fedId) ∧
        t.fedEpoch = mv.msg.epoch ∧ t.on F.FED_STATE_MOVING = false ∧ t.fed.move = none ∧ Counts s t F.FED_MOVES 1 ∧ (s.fedState = fedJoining → t.fedState = fedMember)) ∧
      (¬ waits → mv.msg.tSwitch ≤ s.time.units → bitOf mv.msg.members s.fedId = false → Completes s .moveSwitch fun t => t.fedState = fedAlone ∧ t.fld F.FED_MEMBERS = 0 ∧ t.fe.bindings = [] ∧ t.fed.move = none))) ∧
  (∀ (s : State), s.slicesUp = true →
    let due := s.on F.FED_MASTER_SELF = true ∧ (s.fedState = fedMember ∨ s.fedState = fedLeaving) ∧ s.fed.lastBeat + 10 * ticksPerMs ≤ s.time.mono
    let relinked := ((s.member? s.fedId).map Member.links).getD 0 ≠ s.ownLinks
    (¬ due → Completes s .heartbeatTimer fun t => Only [] [] s t) ∧
    (due → ¬ relinked → (∀ m ∈ s.fed.roster, m.answered = true) → Completes s .heartbeatTimer fun t =>
      t.fed = { s.fed with lastBeat := s.time.mono, roster := s.fed.roster.map fun m => if m.id = s.fedId then { m with missed := 0, links := s.ownLinks } else { m with missed := 0, answered := false } } ∧
      Only [.fed, .links] [F.KL_UNREACH_DROP] s t) ∧
    (∀ m, due → s.fed.roster = [m] → bitOf (s.fld F.FED_MEMBERS) m.id = true → m.id ≠ s.fedId → m.answered = false → 2 ≤ m.missed → Completes s .heartbeatTimer fun t =>
      t.fld F.FED_HB_MISS = min (s.fld F.FED_HB_MISS + 1) (2 ^ 32 - 1) ∧ t.on F.FED_INT_STATUS_MEMBER_LOST_SEEN = true ∧ ∃ mv, t.fed.move = some mv ∧ mv.msg.members = without s.plannedMembers m.id)) ∧
  (∀ (s : State) (src : Nat), s.slicesUp = true →
    let his := (s.fedState = fedMember ∨ s.fedState = fedLeaving) ∧ src = s.fld F.FED_MASTER_ID ∧ src ≠ s.fedId
    (¬ his → Completes s (.heartbeat src) fun t => Only [] [] s t) ∧
    (his → Completes s (.heartbeat src) fun t => t.fed = { s.fed with lastBeat := s.time.mono } ∧ Only [.fed, .links] [F.KL_UNREACH_DROP] s t)) ∧
  (∀ (s : State) (src own boot links : Nat) (eligible : Bool), s.slicesUp = true →
    ((s.isMaster = false ∨ src = s.fedId ∨ s.member? src = none) → Completes s (.heartbeatAnswer src own boot links eligible) fun t => Only [] [] s t) ∧
    (∀ old, s.isMaster = true → src ≠ s.fedId → s.member? src = some old →
      let new : Member := { id := src, own := own, boot := boot, links := links, eligible := eligible, answered := true, missed := 0 }
      let roster := s.fed.roster.map fun (m : Member) => if m.id = src then new else m
      (old.links = links → old.eligible = eligible → own ≠ s.fedEpoch + 1 → Completes s (.heartbeatAnswer src own boot links eligible) fun t => t.fed = { s.fed with roster := roster } ∧ Only [.fed] [] s t) ∧
      ((old.links ≠ links ∨ old.eligible ≠ eligible) → Completes s (.heartbeatAnswer src own boot links eligible) fun t => t.fed.roster = roster ∧ ∃ mv, t.fed.move = some mv ∧
        mv.msg.members = s.plannedMembers ∧ mv.msg.gen = (s.fed.gen + 1) % 2 ^ 32))) ∧
  (∀ (s : State), s.slicesUp = true →
    let due := s.fedState = fedMember ∧ s.isMaster = false ∧ s.fed.lastBeat + 30 * ticksPerMs ≤ s.time.mono
    let cand := (idsOf s.fed.eligibleSet).find? (fun f => decide (f ≠ s.fld F.FED_MASTER_ID) && (decide (f = s.fedId) || decide (s.fld (F.KL_ROUTE f) ≠ 7)))
    (¬ due → Completes s .masterLoss fun t => Only [] [] s t) ∧
    (due → cand = none → Completes s .masterLoss fun t => t.fed = { s.fed with lastBeat := s.time.mono } ∧ Only [.fed] [] s t) ∧
    (∀ id, due → s.fed.claim = none → cand = some id → Completes s .masterLoss fun t =>
      t.fed = { s.fed with lastBeat := s.time.mono, claim := some (id, s.time.mono) } ∧ Only [.fed, .links] [F.KL_UNREACH_DROP] s t) ∧
    (∀ id c t0, due → s.fed.claim = some (c, t0) → cand = some id → Completes s .masterLoss fun t =>
      t.fed = { s.fed with lastBeat := s.time.mono, claim := some (min c id, t0) } ∧ Only [.fed, .links] [F.KL_UNREACH_DROP] s t)) ∧
  (∀ (s : State) (id : Nat), s.slicesUp = true → ((s.fedState ≠ fedMember ∨ 64 ≤ id) → Completes s (.masterClaim id) fun t => Only [] [] s t) ∧
    (s.fedState = fedMember → id < 64 → s.fed.claim = none → Completes s (.masterClaim id) fun t => t.fed = { s.fed with claim := some (id, s.time.mono) } ∧ Only [.fed] [] s t) ∧
    (∀ c t0, s.fedState = fedMember → id < 64 → s.fed.claim = some (c, t0) → Completes s (.masterClaim id) fun t => t.fed = { s.fed with claim := some (min c id, t0) } ∧ Only [.fed] [] s t)) ∧
  (∀ (s : State), s.slicesUp = true → (s.fed.claim = none → Completes s .masterClaimWindowEnd fun t => Only [] [] s t) ∧
    (∀ id t0, s.fed.claim = some (id, t0) → s.time.mono < t0 + 20 * ticksPerMs → Completes s .masterClaimWindowEnd fun t => Only [] [] s t) ∧
    (∀ id t0, s.fed.claim = some (id, t0) → t0 + 20 * ticksPerMs ≤ s.time.mono → id < 64 → Completes s .masterClaimWindowEnd fun t =>
      t.fed.claim = none ∧ t.fld F.FED_MASTER_ID = id ∧ t.on F.FED_MASTER_SELF = decide (id = s.fedId) ∧ t.on F.FED_INT_STATUS_MASTER_CHANGED = true ∧
      (id = s.fedId → s.fld F.FED_MASTER_ID ≠ s.fedId → ∃ mv, t.fed.move = some mv ∧ mv.msg.members = without (s.fld F.FED_MEMBERS) (s.fld F.FED_MASTER_ID)))) ∧
  (∀ (s : State) (p : Nat), s.slicesUp = true →
    ((6 ≤ p ∨ s.klState p ≠ klActive ∨ s.fedState ≠ fedMember ∨ s.upstream = some p ∨ s.time.mono < (s.link p).syncAt + 25000000) → Completes s (.timeSyncTimer p) fun t => Only [] [] s t) ∧
    ((6 ≤ p ∨ s.klState p ≠ klActive) → Completes s (.timeDelayReq p) fun t => Only [] [] s t) ∧
    (∀ st t1 t4, (6 ≤ p ∨ s.upstream ≠ some p) → (Completes s (.timeSync p st) fun t => Only [] [] s t) ∧ (Completes s (.timeDelayResp p t1 t4) fun t => Only [] [] s t))) ∧
  (∀ (s : State) (p : Nat), s.slicesUp = true → p < 6 → p < s.links.length →
    (s.klState p = klActive → s.fedState = fedMember → s.upstream ≠ some p → (s.link p).syncAt + 25000000 ≤ s.time.mono → Completes s (.timeSyncTimer p) fun t => (t.link p).syncAt = s.time.mono ∧
      (∃ x, (t.link p).outQ = (s.link p).outQ ++ [(x, false)] ∧ x.typ = 9 ∧ x.kind = 1 ∧ x.dest = klPeer s.fedId p) ∧ Only [.links] [] s t) ∧
    (∀ st, s.upstream = some p → st < 4 → Completes s (.timeSync p st) fun t => (t.link p).t2 = s.time.units ∧ t.fed = { s.fed with lastSync := s.time.mono } ∧ t.fld F.FED_TIME_STATUS_FT_STATE = st ∧
      (∃ x, (t.link p).outQ = (s.link p).outQ ++ [(x, false)] ∧ x.typ = 9 ∧ x.kind = 2 ∧ x.dest = klPeer s.fedId p) ∧ Only [.links, .fed] [F.FED_TIME_STATUS_FT_STATE] s t) ∧
    (s.klState p = klActive → Completes s (.timeDelayReq p) fun t =>
      (∃ x, (t.link p).outQ = (s.link p).outQ ++ [(x, false)] ∧ x.typ = 9 ∧ x.payload = fedBytes 22 [(s.link p).t1, s.time.units]) ∧ Only [.links] [] s t) ∧
    (∀ t1 t4, s.upstream = some p → s.fld (F.KL_TIME_ADJ p) = 0 → s.srcInUse ≠ (3, 0) → s.srcValid (3, 0) = true → Completes s (.timeDelayResp p t1 t4) fun t =>
      t.fld F.FED_TIME_STATUS_LINK_DELAY = unsigned 16 ((((s.link p).t2 : Int) - t1 + ((t4 : Int) - (s.link p).t3)) / 2 / 8) ∧ t.time.units = s.time.units)) ∧
  (∀ (s : State) (epoch tRaise : Nat), s.slicesUp = true →
    let his := s.fedState = fedMember ∧ s.isMaster = false ∧ epoch = s.fedEpoch + 1
    (¬ his → Completes s (.epochRaise epoch tRaise) fun t => Only [] [] s t) ∧
    (his → Completes s (.epochRaise epoch tRaise) fun t => t.fed = { s.fed with raising := some ⟨epoch, tRaise, false, []⟩ } ∧ t.fedEpoch = s.fedEpoch ∧ Only [.fed, .links] [F.KL_UNREACH_DROP] s t)) ∧
  (∀ (s : State) (src e : Nat), s.slicesUp = true → s.fed.raising = none → (Completes s (.epochAck src e) fun t => Only [] [] s t) ∧ (Completes s .epochAbort fun t => Only [] [] s t) ∧
    (Completes s .tRaise fun t => Only [] [] s t)) ∧
  (∀ (s : State) (r : EpochRaise), s.slicesUp = true → s.fed.raising = some r →
    let missing := r.mine = true ∧ (idsOf (s.fld F.FED_MEMBERS)).any (fun f => !r.acks.contains f) = true
    (∀ src e, (r.mine = false ∨ e ≠ r.epoch ∨ r.tRaise < s.time.units + 80000000 ∨ r.acks.contains src = true) → Completes s (.epochAck src e) fun t => Only [] [] s t) ∧
    (∀ src, r.mine = true → s.time.units + 80000000 ≤ r.tRaise → r.acks.contains src = false → Completes s (.epochAck src r.epoch) fun t =>
      t.fed = { s.fed with raising := some { r with acks := r.acks ++ [src] } } ∧ Only [.fed] [] s t) ∧
    (r.mine = true → Completes s .epochAbort fun t => Only [] [] s t) ∧
    (r.mine = false → Completes s .epochAbort fun t => t.fed = { s.fed with raising := none } ∧ Only [.fed] [] s t) ∧
    (¬ missing → s.time.units < r.tRaise → Completes s .tRaise fun t => Only [] [] s t) ∧
    (missing → s.time.units + 80000000 < r.tRaise → Completes s .tRaise fun t => Only [] [] s t) ∧
    (¬ missing → r.tRaise ≤ s.time.units → r.epoch < 2 ^ 16 → Completes s .tRaise fun t => t.fed = { s.fed with raising := none } ∧ t.fedEpoch = r.epoch ∧
      Counts s t F.FED_EPOCH_RAISES 1 ∧ t.on F.FED_INT_STATUS_EPOCH_RAISED = true ∧ Only [.fed, .keeperPend] [F.FED_EPOCH_EPOCH, F.FED_EPOCH_RAISES, F.FED_INT_STATUS_EPOCH_RAISED] s t) ∧
    (missing → r.tRaise ≤ s.time.units + 80000000 → Completes s .tRaise fun t => t.fed = { s.fed with raising := none } ∧
      t.fedEpoch = s.fedEpoch ∧ Counts s t F.FED_EPOCH_ABORTS 1 ∧ Only [.fed, .links] [F.FED_EPOCH_ABORTS, F.KL_UNREACH_DROP] s t))

/-- Federated-endpoint packets have their effect under their binding. The next packet of each kind under a BOUND binding leaves the inbox and acts: FE_DOORBELL counts in FE_DB_IN; MMIO_READ is answered with MMIO_CPL, which completes the oldest host read of the function; a read that waits 1 ms returns all ones and is counted. FE_READ of a function without Bus Master Enable is answered BUS_MASTER_DISABLED and counted in FE_BME_DISCARD, as FE_WRITE is, which issues nothing; a write that is issued counts in FE_WRITES. FE_READ_CPL retires its read with its data or status, a late one is counted; FE_READ_TIMEOUT retires it with FED_ANCHOR_TIMEOUT. FE_MSI signals the function's vector. BME_ON clears what BME_OFF set; FLR_DONE ends the wait for it, and its timeout after 50 ms makes the anchor's side DETACHED, as UNBOUND does. A gap of 200 us puts the binding in ERROR with FE_SEQ_LOSS and FE_LOSS_SEEN. A host read of the status window or of the NVMe register set asks the home; with the binding lost the window reads ERROR with the syndrome, and what a register set reads is free (the model's, log entry 29). Where no such packet is ready, nothing happens; one whose binding is not BOUND leaves the inbox and does nothing more; a read or write that waits for a translation or for host data stays; a timeout that is not due, an unknown tag, function or offset changes nothing. -/
def Obligations.FederatedEndpointForwards : Prop :=
  (∀ (s : State), s.slicesUp = true →
    let idle := fun (i : Instr) (p : KPkt → Bool) => (feReady p [] s.fe.inbox = none → Completes s i fun t => Only [] [] s t) ∧
      (∀ x rest, feReady p [] s.fe.inbox = some (x, rest) → (s.feBindingOf x).all (fun b => decide (b.state ≠ 1)) = true → Completes s i fun t => t.fe = { s.fe with inbox := rest } ∧ Only [.fe] [] s t)
    idle .feDoorbell (fun p => decide (p.typ = 3)) ∧ idle .feMmioRead (isCtl 6) ∧ idle .feMmioCpl (isCtl 7) ∧ (s.fe.serving = [] → idle .feRead (fun p => decide (p.typ = 4))) ∧
    idle .feReadCpl (fun p => decide (p.typ = 5)) ∧ idle .feWrite (fun p => decide (p.typ = 6)) ∧ idle .feMsi (fun p => decide (p.typ = 7)) ∧ idle .feBmeOff (isCtl 1) ∧ idle .feBmeOn (isCtl 2) ∧
    idle .feFlr (isCtl 3) ∧ idle .feFlrDone (isCtl 4) ∧ idle .feUnbound (isCtl 5)) ∧
  (∀ (s : State) (x : KPkt) (rest : List KPkt) (b : FeBinding), s.slicesUp = true → s.feBindingOf x = some b → b.state = 1 →
    let t0 : State := { s with fe.inbox := rest }
    let next := fun (p : KPkt → Bool) => feReady p [] s.fe.inbox = some (x, rest)
    (next (fun p => decide (p.typ = 3)) → s.instType b.homeInst = 4 → Completes s .feDoorbell fun t =>
      Only [] [] ((t0.incFld F.FE_DB_IN).nvRegWrite b.homeInst (leAt (fePktBody x) 0 2) (leAt (fePktBody x) 4 4)) t) ∧
    (next (fun p => decide (p.typ = 3)) → s.instType b.homeInst ≠ 4 → Completes s .feDoorbell fun t =>
      Only [] [] ((t0.incFld F.FE_DB_IN).doorbellHere b.homeInst (leAt (fePktBody x) 0 2) (leAt (fePktBody x) 4 4)) t) ∧
    (next (isCtl 6) → Completes s .feMmioRead fun t =>
      Only [] [] (t0.feReply b 8 (leBytes 8 7 ++ leBytes 8 (t0.barStatus b.homeInst (leAt (fePktBody x) 8 8)))) t) ∧
    (∀ e es, next (isCtl 7) → takeFirst (fun (e : Nat × Nat × Nat) => decide (e.1 = b.anchorInst)) s.fe.mmio = some (e, es) → Completes s .feMmioCpl fun t =>
      t.fe = { t0.fe with mmio := es } ∧ t.out = s.out ++ [.pcieCpl (s.instLink b.anchorInst) 0 (leAt (fePktBody x) 8 8)] ∧ Only [.fe, .out] [] s t) ∧
    (next (isCtl 7) → takeFirst (fun (e : Nat × Nat × Nat) => decide (e.1 = b.anchorInst)) s.fe.mmio = none → Completes s .feMmioCpl fun t => t.fe = t0.fe ∧ Only [.fe] [] s t) ∧
    (next (fun p => decide (p.typ = 4)) → s.busMaster b.anchorInst = true → s.fe.serving = [] →
      let s1 : State := { t0.incFld F.FE_READS with fe.serving := [x] }
      let read := s1.dmaRead feSlice b.anchorInst (leAt (fePktBody x) 0 8) (leAt (fePktBody x) 8 4) (s1.classOp 4 x.cls x.begun)
      (∀ u d, read = (u, .ok d) → Completes s .feRead fun t => t.fe.serving = [] ∧ Counts u t F.FE_READS 0 ∧ Only [] [] { u.feReadDone b x 0 d with fe.serving := [] } t) ∧
      (∀ u st, read = (u, .fail st) → Completes s .feRead fun t => t.fe.serving = [] ∧ Only [] [] { u.feReadDone b x st [] with fe.serving := [] } t) ∧
      (∀ u, read = (u, .wait) → Completes s .feRead fun t => t.fe.serving = [x] ∧ Only [] [] { u with fe.serving := [x] } t)) ∧
    (next (fun p => decide (p.typ = 4)) → s.busMaster b.anchorInst = false → s.fe.serving = [] → Completes s .feRead fun t =>
      Only [] [] ((t0.incFld F.FE_BME_DISCARD).feReadDone b x St.BUS_MASTER_DISABLED []) t) ∧
    (∀ r, next (fun p => decide (p.typ = 5)) → s.fe.reads.find? (fun r => decide (r.rtag = leAt (fePktBody x) 0 2 ∧ r.homeInst = b.homeInst)) = some r →
      (leAt (fePktBody x) 2 2 = 0 → Completes s .feReadCpl fun t => t.pcie.arrived = s.pcie.arrived ++ [(r.homeInst, r.addr, (fePktBody x).drop 8)] ∧
        t.fe.reads = s.fe.reads.filter (fun y => decide (y.rtag ≠ r.rtag)) ∧ t.fe.failed = s.fe.failed) ∧
      (leAt (fePktBody x) 2 2 ≠ 0 → Completes s .feReadCpl fun t => t.fe.failed = s.fe.failed ++ [(r.homeInst, r.addr, r.len, leAt (fePktBody x) 2 2)] ∧ t.pcie.arrived = s.pcie.arrived)) ∧
    (next (fun p => decide (p.typ = 5)) → s.fe.reads.find? (fun r => decide (r.rtag = leAt (fePktBody x) 0 2 ∧ r.homeInst = b.homeInst)) = none → Completes s .feReadCpl fun t =>
      t.fld F.FE_LATE_CPL = (s.fld F.FE_LATE_CPL + 1) % 2 ^ 64 ∧ t.fe = t0.fe ∧ Only [.fe] [F.FE_LATE_CPL] s t) ∧
    (next (fun p => decide (p.typ = 6)) → s.busMaster b.anchorInst = false → Completes s .feWrite fun t => t.fld F.FE_BME_DISCARD = (s.fld F.FE_BME_DISCARD + 1) % 2 ^ 64 ∧ t.fe = t0.fe ∧
      Only [.fe] [F.FE_BME_DISCARD] s t) ∧
    (next (fun p => decide (p.typ = 6)) → s.busMaster b.anchorInst = true →
      let wr := t0.dmaWrite feSlice b.anchorInst (leAt (fePktBody x) 0 8) { t0.classOp 4 x.cls x.begun with rx := bitOf (leAt (fePktBody x) 12 1) 0 } (((fePktBody x).drop 16).take (leAt (fePktBody x) 8 4))
      (∀ u w, wr = (u, .ok w) → Completes s .feWrite fun t => Counts u t F.FE_WRITES 1 ∧ Only [] [F.FE_WRITES] u t) ∧
      (∀ u, wr = (u, .wait) → Completes s .feWrite fun t => t.fe.inbox = s.fe.inbox ∧ Only [.fe] [] u t) ∧
      (∀ u st, wr = (u, .fail st) → Completes s .feWrite fun t => Counts u t F.FE_WRITES 1 ∧ Only [] [] ((u.incFld F.FE_WRITES).feReply b 8 (feStatusBody st (leAt (fePktBody x) 0 8))) t)) ∧
    (next (fun p => decide (p.typ = 7)) → Completes s .feMsi fun t => Only [] [] (t0.signalLocal b.anchorInst (leAt (fePktBody x) 0 2)) t) ∧
    (next (isCtl 1) → Completes s .feBmeOff fun t => Only [] [] ((t0.setBinding { b with bmeOff := true }).haltWork b.homeInst 2 .bmeCleared) t) ∧
    (next (isCtl 2) → Completes s .feBmeOn fun t => Only [] [] (t0.setBinding { b with bmeOff := false }) t) ∧
    (next (isCtl 3) → Completes s .feFlr fun t => Only [] [] (((t0.setBinding { b with bmeOff := false }).resetWork b.homeInst 1).feReply b 8 (leBytes 8 4)) t) ∧
    (next (isCtl 4) → Completes s .feFlrDone fun t => Only [] [] (t0.setBinding { b with flrSent := none }) t) ∧
    (next (isCtl 5) → Completes s .feUnbound fun t => Only [] [] (t0.setBinding { b with state := 2, held := [], gapSince := none }) t)) ∧
  (∀ (s : State) (inst : Nat), s.slicesUp = true →
    (takeFirst (fun (e : Nat × Nat × Nat) => decide (e.1 = inst)) s.fe.mmio = none → Completes s (.feMmioTimeout inst) fun t => Only [] [] s t) ∧
    (∀ e rest, takeFirst (fun (e : Nat × Nat × Nat) => decide (e.1 = inst)) s.fe.mmio = some (e, rest) →
      (s.time.mono < e.2.2 → Completes s (.feMmioTimeout inst) fun t => Only [] [] s t) ∧
      (e.2.2 ≤ s.time.mono → Completes s (.feMmioTimeout inst) fun t => t.fe = { s.fe with mmio := rest } ∧ t.out = s.out ++ [.pcieCpl (s.instLink inst) 0 (2 ^ 64 - 1)] ∧
        t.fld F.FE_MMIO_TIMEOUT = min (s.fld F.FE_MMIO_TIMEOUT + 1) (2 ^ 32 - 1) ∧ t.on F.FE_INT_STATUS_MMIO_TIMEOUT_SEEN = true ∧
        Only [.fe, .out, .keeperPend] [F.FE_MMIO_TIMEOUT, F.FE_INT_STATUS_MMIO_TIMEOUT_SEEN] s t))) ∧
  (∀ (s : State) (rtag : Nat), s.slicesUp = true →
    (s.fe.reads.find? (fun r => decide (r.rtag = rtag)) = none → Completes s (.feReadTimeout rtag) fun t => Only [] [] s t) ∧
    (∀ r, s.fe.reads.find? (fun r => decide (r.rtag = rtag)) = some r →
      (s.time.mono < r.due → Completes s (.feReadTimeout rtag) fun t => Only [] [] s t) ∧
      (r.due ≤ s.time.mono → Completes s (.feReadTimeout rtag) fun t =>
        t.fe.failed = s.fe.failed ++ [(r.homeInst, r.addr, r.len, St.FED_ANCHOR_TIMEOUT)] ∧ t.fe.reads = s.fe.reads.filter (fun y => decide (y.rtag ≠ rtag))))) ∧
  (∀ (s : State) (inst off : Nat), s.slicesUp = true →
    (s.anchorBinding inst = none → (Completes s (.feFlrTimeout inst) fun t => Only [] [] s t) ∧ (Completes s (.feSeqGapTimeout true inst) fun t => Only [] [] s t) ∧
      (Completes s (.boundStatusWindowRead inst off) fun t => Only [] [] s t)) ∧
    (s.homeBinding inst = none → Completes s (.feSeqGapTimeout false inst) fun t => Only [] [] s t) ∧
    (∀ (anchor : Bool) b, (if anchor then s.anchorBinding inst else s.homeBinding inst) = some b →
      (b.gapSince = none ∨ b.state ≠ 1 ∨ s.time.mono < b.gapSince.getD 0 + 200 * ticksPerUs) → Completes s (.feSeqGapTimeout anchor inst) fun t => Only [] [] s t) ∧
    (∀ b t0, s.homeBinding inst = some b → b.gapSince = some t0 → b.state = 1 → t0 + 200 * ticksPerUs ≤ s.time.mono → Completes s (.feSeqGapTimeout false inst) fun t =>
      (∃ b', t.homeBinding inst = some b' ∧ b'.state = 3 ∧ b'.held = []) ∧ t.fld F.FE_SEQ_LOSS = min (s.fld F.FE_SEQ_LOSS + 1) (2 ^ 32 - 1) ∧ t.on F.FE_INT_STATUS_FE_LOSS_SEEN = true)) ∧
  (∀ (s : State) (inst : Nat) (b : FeBinding), s.slicesUp = true → s.anchorBinding inst = some b →
    ((b.flrSent = none ∨ s.time.mono < b.flrSent.getD 0 + 50 * ticksPerMs) → Completes s (.feFlrTimeout inst) fun t => Only [] [] s t) ∧
    (∀ t0, b.flrSent = some t0 → t0 + 50 * ticksPerMs ≤ s.time.mono → Completes s (.feFlrTimeout inst) fun t =>
      (∃ b', t.anchorBinding inst = some b' ∧ b'.state = 2 ∧ b'.flrSent = none) ∧ t.on F.FE_INT_STATUS_HOME_LOST_SEEN = true) ∧
    (∀ t0, b.gapSince = some t0 → b.state = 1 → t0 + 200 * ticksPerUs ≤ s.time.mono → Completes s (.feSeqGapTimeout true inst) fun t =>
      (∃ b', t.anchorBinding inst = some b' ∧ b'.state = 3 ∧ b'.held = []) ∧ t.fld F.FE_SEQ_LOSS = min (s.fld F.FE_SEQ_LOSS + 1) (2 ^ 32 - 1) ∧ t.on F.FE_INT_STATUS_FE_LOSS_SEEN = true) ∧
    (∀ off,
      let nvme := s.instType inst = 4
      let inside := if nvme then off < 0x2000 else 0x10000 ≤ off ∧ off < 0x20000
      (¬ inside → Completes s (.boundStatusWindowRead inst off) fun t => Only [] [] s t) ∧
      (inside → b.state = 1 → Completes s (.boundStatusWindowRead inst off) fun t =>
        Only [] [] (State.feSend { s with fe.mmio := s.fe.mmio ++ [(inst, off, s.time.mono + ticksPerMs)] } b 8 (leBytes 8 6 ++ leBytes 8 off)) t) ∧
      (inside → ¬ nvme → b.state ≠ 1 → Completes s (.boundStatusWindowRead inst off) fun t =>
        t.out = s.out ++ [.pcieCpl (s.instLink inst) 0 (stError + 2 ^ 48 * (if b.state = 3 then St.FED_FE_LOSS else St.FED_HOME_LOST))] ∧ Only [.out] [] s t) ∧
      (inside → nvme → b.state ≠ 1 → Completes s (.boundStatusWindowRead inst off) fun t => (∃ v, t.out = s.out ++ [.pcieCpl (s.instLink inst) 0 v]) ∧ Only [.out] [] s t)))

/-- NVMe doorbells, fetch, completions, queues and the controller's enable. A doorbell of a queue that does not exist, or with a value outside it, is counted in NVME_DB_ERR, with DB_ERR_SEEN; a good tail or head is taken. A fetch that reads its turn's commands takes them in; one that fails sets CFS. A completion whose queue has no room, or whose command waits for pieces, is not posted; else its entry is written with the phase, the tail advances, and the command is gone. The coalescing timer of a vector signals it. Create and Delete of I/O queues do what they say or end with the status NVMe gives. EN from 0 to 1 creates the admin queues and sets RDY, or sets CFS when CC asks for what is not supported; from 1 to 0 deletes every queue and clears CSTS; SHN completes at once. The idle timer moves the controller to the state its table names. A doorbell or a CC write of a bound function goes to its home while the binding is BOUND, and is dropped and counted else. What no such queue, command, controller or timer is there for, a doorbell that repeats its value, and a CC write of another kind change nothing; a fetch or a completion that waits for a translation or for host data goes on later, and one whose write fails sets CFS. -/
def Obligations.NvmeQueuesWork : Prop :=
  (∀ (s : State) (i q v cc : Nat), s.slicesUp = true →
    let idle := fun (c : Instr) => Completes s c fun t => Only [] [] s t
    (s.anchorBinding i = none → s.isCtrl i = false → idle (.nvmeSqDoorbell i q v) ∧ idle (.nvmeCqDoorbell i q v) ∧ idle (.ccEnable i cc) ∧ idle (.ccShutdown i cc)) ∧
    (s.anchorBinding i = none → ((s.nvc i).en = true ∨ bitOf cc 0 = false) → idle (.ccEnable i cc)) ∧
    (s.anchorBinding i = none → ((s.nvc i).en = false ∨ bitOf cc 0 = true) → idle (.ccDisable i cc)) ∧
    (s.anchorBinding i = none → (bitsOf cc 15 14 = 0 ∨ (s.nvc i).en ≠ bitOf cc 0) → idle (.ccShutdown i cc)) ∧
    (∀ b, s.anchorBinding i = some b → b.state ≠ 1 →
      let dropped := fun (c : Instr) => Completes s c fun t => Counts s t F.FE_DB_DROP 1 ∧ Only [] [F.FE_DB_DROP] s t
      dropped (.nvmeSqDoorbell i q v) ∧ dropped (.nvmeCqDoorbell i q v) ∧ dropped (.ccEnable i cc) ∧ dropped (.ccDisable i cc) ∧ dropped (.ccShutdown i cc)) ∧
    (∀ b, s.anchorBinding i = some b → b.state = 1 →
      let sent := fun (c : Instr) (off w : Nat) => Completes s c fun t => Only [] [] ((s.incFld F.FE_DB_FWD).feSend b 3 (leBytes 4 off ++ leBytes 4 (w % 2 ^ 32))) t
      sent (.nvmeSqDoorbell i q v) (0x1000 + 8 * q) v ∧ sent (.nvmeCqDoorbell i q v) (0x1004 + 8 * q) v ∧ sent (.ccEnable i cc) 0x14 cc ∧ sent (.ccDisable i cc) 0x14 cc ∧
      sent (.ccShutdown i cc) 0x14 cc) ∧
    (∀ cid, s.nv.cmds.find? (fun c => decide (c.inst = i ∧ c.sq = q ∧ c.cid = cid) && c.done.isSome) = none → idle (.nvmeCompletionPost i q cid)) ∧
    (s.twFired (s.adminSlice i) (.nvmeCoalesce i v) = false → idle (.nvmeCoalesceTimer i v)) ∧
    (s.twFired (s.adminSlice i) (.apst i) = false → idle (.apstIdleTimer i)) ∧
    (∀ k, (4 ≤ k ∨ s.awake k = false ∨ s.fetchPick k = none) → idle (.nvmeCommandFetch k)) ∧
    (∀ cid, (s.nvPending i 0 cid [0x00] = none → idle (.deleteIoSq i cid)) ∧ (s.nvPending i 0 cid [0x04] = none → idle (.deleteIoCq i cid)) ∧
      (s.nvPending i 0 cid [0x05] = none → idle (.createIoCq i cid)) ∧ (s.nvPending i 0 cid [0x01] = none → idle (.createIoSq i cid)))) ∧
  (∀ (s : State) (i q v : Nat), s.slicesUp = true → s.anchorBinding i = none → s.isCtrl i = true → v < 65536 →
    let s0 := s.linkBusy (s.instLink i)
    (s.nvSq? i q = none → Completes s (.nvmeSqDoorbell i q v) fun t => Only [] [] (s0.nvBadDb i (s.adminSlice i) 0) t) ∧
    (s.nvCq? i q = none → Completes s (.nvmeCqDoorbell i q v) fun t => Only [] [] (s0.nvBadDb i (s.adminSlice i) 0) t) ∧
    (∀ sq, s.nvSq? i q = some sq → sq.slice < 4 → sq.size ≤ v → Completes s (.nvmeSqDoorbell i q v) fun t => t.nv.sqs = s.nv.sqs ∧ t.on (F.NVME_INT_STATUS_DB_ERR_SEEN sq.slice) = true ∧
      t.fld (F.NVME_DB_ERR sq.slice) = min (s.fld (F.NVME_DB_ERR sq.slice) + 1) (2 ^ (F.NVME_DB_ERR sq.slice).width - 1)) ∧
    (∀ sq, s.nvSq? i q = some sq → v < sq.size → v ≠ sq.tail → Completes s (.nvmeSqDoorbell i q v) fun t =>
      t.nvSq? i q = some { sq with tail := v, bells := sq.bells ++ [(v, s.time.mono)] }) ∧
    (∀ sq, s.nvSq? i q = some sq → v < sq.size → v = sq.tail → Completes s (.nvmeSqDoorbell i q v) fun t => Only [] [] s0 t) ∧
    (∀ cq, s.nvCq? i q = some cq → (cq.size ≤ v ∨ (cq.tail + cq.size - cq.head) % cq.size < (v + cq.size - cq.head) % cq.size) → Completes s (.nvmeCqDoorbell i q v) fun t =>
      Only [] [] (s0.nvBadDb i cq.slice 1) t) ∧
    (∀ cq, s.nvCq? i q = some cq → v < cq.size → (v + cq.size - cq.head) % cq.size ≤ (cq.tail + cq.size - cq.head) % cq.size → Completes s (.nvmeCqDoorbell i q v) fun t =>
      t.nvCq? i q = some { cq with head := v } ∧ t.nv.sqs = s.nv.sqs)) ∧
  (∀ (s s1 : State) (k : Nat) (q : NvSq), s.slicesUp = true → k < 4 → s.awake k = true → s.fetchPick k = some q →
    (s.dmaRead k q.inst (q.base + 64 * q.head) (64 * s.turnSize q) (s.sqOp q) = (s1, .wait) → Completes s (.nvmeCommandFetch k) fun t => Only [] [] s1 t) ∧
    (∀ d, s.dmaRead k q.inst (q.base + 64 * q.head) (64 * s.turnSize q) (s.sqOp q) = (s1, .ok d) → Completes s (.nvmeCommandFetch k) fun t =>
      Only [] [] (((List.range (s.turnSize q)).foldl (fun t j => t.takeCommand q.inst q.qid (slice d (64 * j) 64)) s1).spendTurn q) t) ∧
    (∀ st, s.dmaRead k q.inst (q.base + 64 * q.head) (64 * s.turnSize q) (s.sqOp q) = (s1, .fail st) → Completes s (.nvmeCommandFetch k) fun t =>
      bitOf (t.nvc q.inst).csts 1 = true ∧ t.nv.cmds = s1.nv.cmds ∧ Only [.nv] [] s1 t)) ∧
  (∀ (s s1 : State) (i sq cid : Nat) (c : NvCmd) (q : NvSq) (cq : NvCq) (d : NvDone), s.slicesUp = true →
    s.nv.cmds.find? (fun c => decide (c.inst = i ∧ c.sq = sq ∧ c.cid = cid) && c.done.isSome) = some c → c.done = some d → s.nvSq? i sq = some q → s.nvCq? i q.cq = some cq →
    ((cq.free = 0 ∨ c.pieces ≠ [] ∨ c.unprog ≠ []) → Completes s (.nvmeCompletionPost i sq cid) fun t => Only [] [] s t) ∧
    (cq.free ≠ 0 → c.pieces = [] → c.unprog = [] → (d.status = 0 ∨ d.dnr.isSome = true) →
      (s.dmaWrite cq.slice i (cq.base + 16 * cq.tail) (s.cmdOp c) (nvCqe d (d.dnr.getD false) q.head sq cid cq.phase) = (s1, .wait) → Completes s (.nvmeCompletionPost i sq cid) fun t => Only [] [] s1 t) ∧
      (∀ st, s.dmaWrite cq.slice i (cq.base + 16 * cq.tail) (s.cmdOp c) (nvCqe d (d.dnr.getD false) q.head sq cid cq.phase) = (s1, .fail st) → Completes s (.nvmeCompletionPost i sq cid) fun t =>
        bitOf (t.nvc i).csts 1 = true ∧ t.nv.cmds = s1.nv.cmds ∧ Only [.nv] [] s1 t)) ∧
    (∀ w dnr, cq.free ≠ 0 → c.pieces = [] → c.unprog = [] → d.status ≠ 0 → d.dnr = none → q.deleting = none → dnr = decide (Config.unstated s.freeCtr % 2 = 1) →
      s.draw.dmaWrite cq.slice i (cq.base + 16 * cq.tail) (s.cmdOp c) (nvCqe d dnr q.head sq cid cq.phase) = (s1, .ok w) → s1.nv = s.nv → Completes s (.nvmeCompletionPost i sq cid) fun t =>
      t.nvCq? i q.cq = some { cq with tail := (cq.tail + 1) % cq.size, phase := if (cq.tail + 1) % cq.size = 0 then !cq.phase else cq.phase } ∧
      t.nv.cmds = s.nv.cmds.filter (fun x => decide (x.id ≠ c.id)) ∧ t.mem = s1.mem) ∧
    (∀ w, cq.free ≠ 0 → c.pieces = [] → c.unprog = [] → (d.status = 0 ∨ d.dnr.isSome = true) → q.deleting = none → s.dmaWrite cq.slice i (cq.base + 16 * cq.tail) (s.cmdOp c)
        (nvCqe d (d.dnr.getD false) q.head sq cid cq.phase) = (s1, .ok w) → s1.nv = s.nv → Completes s (.nvmeCompletionPost i sq cid) fun t =>
      t.nvCq? i q.cq = some { cq with tail := (cq.tail + 1) % cq.size, phase := if (cq.tail + 1) % cq.size = 0 then !cq.phase else cq.phase } ∧
      t.nv.cmds = s.nv.cmds.filter (fun x => decide (x.id ≠ c.id)) ∧ t.mem = s1.mem)) ∧
  (∀ (s : State) (i v : Nat), s.slicesUp = true → s.twFired (s.adminSlice i) (.nvmeCoalesce i v) = true → Completes s (.nvmeCoalesceTimer i v) fun t => Only [] [] (s.nvVector i v) t) ∧
  (∀ (s : State) (i cid : Nat) (c : NvCmd), s.slicesUp = true → c.inst = i →
    let q := bitsOf (c.dw 10) 15 0
    let size := bitsOf (c.dw 10) 31 16 + 1
    (s.nvPending i 0 cid [0x00] = some c → q = 0 → Completes s (.deleteIoSq i cid) fun t => Only [] [] (s.nvEnd c.id (nvFail nvQueueId)) t) ∧
    (∀ sq, s.nvPending i 0 cid [0x00] = some c → q ≠ 0 → s.nvSq? i q = some sq → s.nv.cmds = [c] → c.sq = 0 → Completes s (.deleteIoSq i cid) fun t => t.nvSq? i q = none ∧
      t.nv.cmds = [{ c with issued := true, done := some nvOk }]) ∧
    (s.nvPending i 0 cid [0x04] = some c → (q = 0 ∨ s.nvCq? i q = none) → Completes s (.deleteIoCq i cid) fun t => Only [] [] (s.nvEnd c.id (nvFail nvQueueId)) t) ∧
    (∀ cq, s.nvPending i 0 cid [0x04] = some c → q ≠ 0 → s.nvCq? i q = some cq → s.nv.sqs.any (fun x => decide (x.inst = i ∧ x.cq = q)) = false → Completes s (.deleteIoCq i cid) fun t => t.nvCq? i q = none ∧
      t.nv.cmds = (s.nvEnd c.id nvOk).nv.cmds ∧ t.nv.sqs = s.nv.sqs) ∧
    (s.nvPending i 0 cid [0x04] = some c → q ≠ 0 → (s.nvCq? i q).isSome = true → s.nv.sqs.any (fun x => decide (x.inst = i ∧ x.cq = q)) = true → Completes s (.deleteIoCq i cid) fun t =>
      Only [] [] (s.nvEnd c.id (nvFail nvQueueDeletion)) t) ∧
    (bitOf (c.dw 11) 0 = false → (s.nvPending i 0 cid [0x05] = some c → Completes s (.createIoCq i cid) fun t => Only [] [] (s.nvEnd c.id (nvFail nvInvalidField)) t) ∧
      (s.nvPending i 0 cid [0x01] = some c → Completes s (.createIoSq i cid) fun t => Only [] [] (s.nvEnd c.id (nvFail nvInvalidField)) t)) ∧
    (s.nvPending i 0 cid [0x05] = some c → bitOf (c.dw 11) 0 = true → q ≠ 0 → q ≤ s.allocated i true → s.nvCq? i q = none →
      (size = 1 → Completes s (.createIoCq i cid) fun t => Only [] [] (s.nvEnd c.id (nvFail nvQueueSize)) t) ∧
      (size ≠ 1 → c.prp1 % (s.nvc i).page ≠ 0 → Completes s (.createIoCq i cid) fun t => Only [] [] (s.nvEnd c.id (nvFail nvPrpOffset)) t) ∧
      (size ≠ 1 → c.prp1 % (s.nvc i).page = 0 → vectorCount i ≤ bitsOf (c.dw 11) 31 16 → Completes s (.createIoCq i cid) fun t => Only [] [] (s.nvEnd c.id (nvFail nvBadVector)) t)) ∧
    (s.nvPending i 0 cid [0x01] = some c → bitOf (c.dw 11) 0 = true → (q = 0 ∨ s.allocated i false < q ∨ (s.nvSq? i q).isSome = true) → Completes s (.createIoSq i cid) fun t =>
      Only [] [] (s.nvEnd c.id (nvFail nvQueueId)) t) ∧
    (s.nvPending i 0 cid [0x01] = some c → bitOf (c.dw 11) 0 = true → q ≠ 0 → q ≤ s.allocated i false → s.nvSq? i q = none →
      (size = 1 → Completes s (.createIoSq i cid) fun t => Only [] [] (s.nvEnd c.id (nvFail nvQueueSize)) t) ∧
      (size ≠ 1 → c.prp1 % (s.nvc i).page ≠ 0 → Completes s (.createIoSq i cid) fun t => Only [] [] (s.nvEnd c.id (nvFail nvPrpOffset)) t)) ∧
    (s.nvPending i 0 cid [0x05] = some c → bitOf (c.dw 11) 0 = true → (q = 0 ∨ s.allocated i true < q ∨ (s.nvCq? i q).isSome = true) → Completes s (.createIoCq i cid) fun t =>
      Only [] [] (s.nvEnd c.id (nvFail nvQueueId)) t) ∧
    (s.nvPending i 0 cid [0x05] = some c → bitOf (c.dw 11) 0 = true → q ≠ 0 → q ≤ s.allocated i true → s.nvCq? i q = none → size ≠ 1 → c.prp1 % (s.nvc i).page = 0 →
      bitsOf (c.dw 11) 31 16 < vectorCount i → s.nv.cqs.length < 4096 → Completes s (.createIoCq i cid) fun t =>
      (∃ x, t.nvCq? i q = some x ∧ x.size = size ∧ x.base = c.prp1 ∧ x.vector = bitsOf (c.dw 11) 31 16 ∧ x.ien = bitOf (c.dw 11) 1 ∧ x.head = 0 ∧ x.tail = 0) ∧ t.nv.cmds = (s.nvEnd c.id nvOk).nv.cmds) ∧
    (∀ cq, s.nvPending i 0 cid [0x01] = some c → bitOf (c.dw 11) 0 = true → q ≠ 0 → q ≤ s.allocated i false → s.nvSq? i q = none → size ≠ 1 → c.prp1 % (s.nvc i).page = 0 → bitsOf (c.dw 11) 31 16 ≠ 0 →
      s.nvCq? i (bitsOf (c.dw 11) 31 16) = some cq → s.nv.sqs.length < 4096 → Completes s (.createIoSq i cid) fun t =>
      (∃ x, t.nvSq? i q = some x ∧ x.size = size ∧ x.base = c.prp1 ∧ x.cq = bitsOf (c.dw 11) 31 16 ∧ x.slice = cq.slice ∧ x.head = 0 ∧ x.tail = 0) ∧ t.nv.cmds = (s.nvEnd c.id nvOk).nv.cmds) ∧
    (s.nvPending i 0 cid [0x01] = some c → bitOf (c.dw 11) 0 = true → q ≠ 0 → q ≤ s.allocated i false → s.nvSq? i q = none → size ≠ 1 → c.prp1 % (s.nvc i).page = 0 → (bitsOf (c.dw 11) 31 16 = 0 ∨ s.nvCq? i (bitsOf (c.dw 11) 31 16) = none) →
      Completes s (.createIoSq i cid) fun t => Only [] [] (s.nvEnd c.id (nvFail nvCqInvalid)) t)) ∧
  (∀ (s : State) (i cc : Nat), s.slicesUp = true → s.anchorBinding i = none → s.isCtrl i = true → cc < 2 ^ 32 →
    ((s.nvc i).en = false → bitOf cc 0 = true → bitsOf cc 6 4 = 6 → bitsOf cc 10 7 ≤ 4 → s.instState i ≠ instDisabled → Completes s (.ccEnable i cc) fun t => (t.nvc i).cc = cc ∧ (t.nvc i).csts = 1 ∧
      t.nv.sqs = s.nv.sqs ++ [{ inst := i, qid := 0, slice := s.adminSlice i, cq := 0, size := bitsOf (s.nvc i).aqa 11 0 + 1, base := (s.nvc i).asq }] ∧
      t.nv.cqs = s.nv.cqs ++ [{ inst := i, qid := 0, slice := s.adminSlice i, size := bitsOf (s.nvc i).aqa 27 16 + 1, base := (s.nvc i).acq, ien := true }]) ∧
    ((s.nvc i).en = false → bitOf cc 0 = true → (bitsOf cc 6 4 ≠ 6 ∨ 4 < bitsOf cc 10 7 ∨ s.instState i = instDisabled) → Completes s (.ccEnable i cc) fun t => (t.nvc i).cc = cc ∧ (t.nvc i).csts = 2 ∧ t.nv.sqs = s.nv.sqs ∧ t.nv.cqs = s.nv.cqs ∧ Only [.nv] [] s t) ∧
    ((s.nvc i).en = true → bitOf cc 0 = false → Completes s (.ccDisable i cc) fun t => (t.nvc i).cc = cc ∧ (t.nvc i).csts = 0 ∧ t.nv.sqs = s.nv.sqs.filter (fun q => decide (q.inst ≠ i)) ∧
      t.nv.cqs = s.nv.cqs.filter (fun q => decide (q.inst ≠ i)) ∧ t.nv.cmds = s.nv.cmds.filter (fun c => decide (c.inst ≠ i)) ∧ (t.nvc i).aqa = 0 ∧ (t.nvc i).asq = 0 ∧ (t.nvc i).acq = 0 ∧
      t.on (F.FN_GATE_CLOSED i) = false) ∧
    (bitsOf cc 15 14 ≠ 0 → (s.nvc i).en = bitOf cc 0 → Completes s (.ccShutdown i cc) fun t => (t.nvc i).cc = cc ∧ bitsOf (t.nvc i).csts 3 2 = 2 ∧ t.nv.cmds = s.nv.cmds ∧ Only [.nv, .flash] [] s t)) ∧
  (∀ (s : State) (i : Nat), s.slicesUp = true → s.twFired (s.adminSlice i) (.apst i) = true → 4 < ((s.nvc i).apstEntry (s.nvc i).ps).1 → Completes s (.apstIdleTimer i) fun t => t.nv = s.nv ∧ t.twFired (s.adminSlice i) (.apst i) = false) ∧
  (∀ (s : State) (i : Nat), s.slicesUp = true → s.twFired (s.adminSlice i) (.apst i) = true → ((s.nvc i).apstEntry (s.nvc i).ps).1 ≤ 4 → Completes s (.apstIdleTimer i) fun t =>
    (t.nvc i).ps = ((s.nvc i).apstEntry (s.nvc i).ps).1 ∧ (t.nvc i).lastOp = (if (s.nvc i).ps < 3 then (s.nvc i).ps else (s.nvc i).lastOp) ∧ t.nv.cmds = s.nv.cmds)

/-- NVMe admin commands and the self-test. Each admin command that is fetched and waits ends as the rules say: a log page or an Identify structure goes to its buffer or is refused with its status; Abort ends a command that is not issued, or reports that it did not; a feature is kept and read back, or refused with Invalid Field; an Asynchronous Event Request waits, the fifth is refused; a namespace is created, deleted, attached, detached and formatted, or what stops it is reported; a self-test starts, a second is refused, and a step that fails ends it with its segment, one that passes leads to the next segment or step, or ends the test; without a test, or while a host command waits for its resource, nothing happens. A command that is not there, or has begun, does nothing; one that waits for host data, keys or a translation goes on later. -/
def Obligations.NvmeAdminCommands : Prop :=
  (∀ (s : State) (i cid : Nat), s.slicesUp = true →
    let idle := fun (op : Nat) (c : Instr) => s.nvPending i 0 cid [op] = none → Completes s c fun t => Only [] [] s t
    idle 0x02 (.getLogPage i cid) ∧ idle 0x06 (.nvmeIdentify i cid) ∧ idle 0x08 (.nvmeAbort i cid) ∧ idle 0x09 (.setFeatures i cid) ∧ idle 0x0A (.getFeatures i cid) ∧
    idle 0x0C (.asyncEventRequest i cid) ∧ idle 0x0D (.namespaceManagement i cid) ∧ idle 0x15 (.namespaceAttachment i cid) ∧ idle 0x80 (.formatNvm i cid) ∧ idle 0x14 (.deviceSelfTest i cid)) ∧
  (∀ (s : State) (i cid : Nat) (c : NvCmd), s.slicesUp = true → c.inst = i →
    let ends := fun (d : NvDone) (t : State) => Only [] [] (s.nvEnd c.id d) t
    let csi := bitsOf (c.dw 14) 31 24
    (∀ st, s.nvPending i 0 cid [0x02] = some c → s.logPage i (bitsOf (c.dw 10) 7 0) c.nsid csi = .error st → Completes s (.getLogPage i cid) (ends (nvFail st))) ∧
    (∀ d s1, s.nvPending i 0 cid [0x02] = some c → s.logPage i (bitsOf (c.dw 10) 7 0) c.nsid csi = .ok d → leAt c.sqe 48 8 ≤ d.length → bitsOf (c.dw 10) 7 0 ≠ 0xC3 → bitOf (c.dw 10) 15 = true →
      s.draw.nvSend c (slice d (leAt c.sqe 48 8) (4 * (bitsOf (c.dw 10) 31 16 + 65536 * bitsOf (c.dw 11) 15 0 + 1))) nvOk = (s1, .done nvOk) → Completes s (.getLogPage i cid) fun t => Only [] [] (s1.nvEnd c.id nvOk) t) ∧
    (∀ d s1 e, s.nvPending i 0 cid [0x02] = some c → s.logPage i (bitsOf (c.dw 10) 7 0) c.nsid csi = .ok d → leAt c.sqe 48 8 ≤ d.length → bitsOf (c.dw 10) 7 0 ≠ 0xC3 →
      s.draw.nvSend c (slice d (leAt c.sqe 48 8) (4 * (bitsOf (c.dw 10) 31 16 + 65536 * bitsOf (c.dw 11) 15 0 + 1))) nvOk = (s1, .done e) → Completes s (.getLogPage i cid) fun t =>
      Only [] [] ((if e.status = 0 ∧ bitOf (c.dw 10) 15 = false then s1.logRead i (bitsOf (c.dw 10) 7 0) c.nsid else s1).nvEnd c.id e) t) ∧
    (∀ d, s.nvPending i 0 cid [0x02] = some c → s.logPage i (bitsOf (c.dw 10) 7 0) c.nsid csi = .ok d → d.length < leAt c.sqe 48 8 → Completes s (.getLogPage i cid) (ends (nvFail nvInvalidField))) ∧
    (∀ st, s.nvPending i 0 cid [0x06] = some c → s.identify i (bitsOf (c.dw 10) 7 0) c.nsid (bitsOf (c.dw 11) 31 24) (bitsOf (c.dw 10) 31 16) = .error st → Completes s (.nvmeIdentify i cid) (ends (nvFail st))) ∧
    (∀ d s1 e, s.nvPending i 0 cid [0x06] = some c → s.identify i (bitsOf (c.dw 10) 7 0) c.nsid (bitsOf (c.dw 11) 31 24) (bitsOf (c.dw 10) 31 16) = .ok d → s.nvSend c d nvOk = (s1, .done e) →
      Completes s (.nvmeIdentify i cid) fun t => Only [] [] (s1.nvEnd c.id e) t) ∧
    (∀ x, s.nvPending i 0 cid [0x08] = some c → s.nv.cmds.find? (fun x => decide (x.inst = i ∧ x.sq = bitsOf (c.dw 10) 15 0 ∧ x.cid = bitsOf (c.dw 10) 31 16 ∧ x.id ≠ c.id)) = some x → x.done = none →
      (x.issued = false → Completes s (.nvmeAbort i cid) fun t => Only [] [] ((s.nvEnd x.id (nvFail nvAbortRequested)).nvEnd c.id { status := 0, dw0 := 0 }) t) ∧
      (x.issued = true → x.sq ≠ 0 → Completes s (.nvmeAbort i cid) (ends { status := 0, dw0 := 1 }))) ∧
    (s.nvPending i 0 cid [0x08] = some c → s.nv.cmds.find? (fun x => decide (x.inst = i ∧ x.sq = bitsOf (c.dw 10) 15 0 ∧ x.cid = bitsOf (c.dw 10) 31 16 ∧ x.id ≠ c.id)) = none →
      (s.nvSq? i (bitsOf (c.dw 10) 15 0) = none → Completes s (.nvmeAbort i cid) (ends { status := 0, dw0 := 1 })) ∧
      (∀ sq, s.nvSq? i (bitsOf (c.dw 10) 15 0) = some sq → sq.head ≠ sq.tail → Completes s (.nvmeAbort i cid) fun t =>
        (t.nvc i).aborts = (s.nvc i).aborts ++ [(bitsOf (c.dw 10) 15 0, bitsOf (c.dw 10) 31 16)] ∧ t.nv.cmds = (s.nvEnd c.id { status := 0, dw0 := 0 }).nv.cmds)) ∧
    (s.nvPending i 0 cid [0x09] = some c → (featIds.contains (bitsOf (c.dw 10) 7 0) = false ∨ bitOf (c.dw 10) 31 = true ∨ bitsOf (c.dw 10) 7 0 = 0x0E) → Completes s (.setFeatures i cid) (ends (nvFail nvInvalidField))) ∧
    (∀ fid, s.nvPending i 0 cid [0x09] = some c → bitsOf (c.dw 10) 7 0 = fid → (fid = 0x01 ∨ fid = 0x08 ∨ fid = 0x0A ∨ fid = 0x0B) → bitOf (c.dw 10) 31 = false → Completes s (.setFeatures i cid) fun t =>
      (t.nvc i).feat fid = c.dw 11 ∧ (∀ f, f ≠ fid → (t.nvc i).feat f = (s.nvc i).feat f) ∧ t.nv.cmds = (s.nvEnd c.id nvOk).nv.cmds ∧ Only [.nv] [] s t) ∧
    (s.nvPending i 0 cid [0x09] = some c → bitsOf (c.dw 10) 7 0 = 0x02 → bitOf (c.dw 10) 31 = false → bitsOf (c.dw 11) 4 0 ≤ 4 → Completes s (.setFeatures i cid) fun t =>
      (t.nvc i).ps = bitsOf (c.dw 11) 4 0 ∧ t.nv.cmds = (s.nvEnd c.id nvOk).nv.cmds ∧ Only [.nv] [] s t) ∧
    (s.nvPending i 0 cid [0x0A] = some c → bitsOf (c.dw 10) 10 8 ≠ 0 → Completes s (.getFeatures i cid) (ends (nvFail nvInvalidField))) ∧
    (s.nvPending i 0 cid [0x0A] = some c → bitsOf (c.dw 10) 10 8 = 0 → s.featData i (bitsOf (c.dw 10) 7 0) (c.dw 11) = none → Completes s (.getFeatures i cid) (ends (nvFail nvInvalidField))) ∧
    (∀ bs d s1 e, s.nvPending i 0 cid [0x0A] = some c → bitsOf (c.dw 10) 10 8 = 0 → s.featData i (bitsOf (c.dw 10) 7 0) (c.dw 11) = some (bs, d) → s.nvSend c bs { status := 0, dw0 := d } = (s1, .done e) →
      Completes s (.getFeatures i cid) fun t => Only [] [] (s1.nvEnd c.id e) t) ∧
    (s.nvPending i 0 cid [0x0A] = some c → bitsOf (c.dw 10) 10 8 = 0 → bitsOf (c.dw 10) 7 0 = 0x0B → Completes s (.getFeatures i cid) (ends { status := 0, dw0 := (s.nvc i).feat 0x0B })) ∧
    (s.nvPending i 0 cid [0x0C] = some c → 4 ≤ (s.nv.cmds.filter (fun x => decide (x.inst = i ∧ x.sq = 0 ∧ x.opc = 0x0C) && x.issued && x.done.isNone)).length → Completes s (.asyncEventRequest i cid) (ends (nvFail nvAerLimit))) ∧
    (s.nvPending i 0 cid [0x0C] = some c → (s.nv.cmds.filter (fun x => decide (x.inst = i ∧ x.sq = 0 ∧ x.opc = 0x0C) && x.issued && x.done.isNone)).length < 4 → (s.nvc i).events = [] → Completes s (.asyncEventRequest i cid) fun t =>
      t.nv.cmds = s.nv.cmds.map (fun x => if x.id = c.id then { c with issued := true } else x) ∧ Only [.nv] [] s t) ∧
    (s.nvPending i 0 cid [0x0D] = some c → bitsOf (c.dw 10) 3 0 = 1 → c.nsid ≠ 0xFFFFFFFF → Completes s (.namespaceManagement i cid) fun t =>
      Only [] [] ((s.nsDelete c.nsid).1.nvEnd c.id (if (s.nsDelete c.nsid).2 = nvDenied then nvRefused else nvFail (s.nsDelete c.nsid).2)) t) ∧
    (∀ d s1 s2 r, s.nvPending i 0 cid [0x0D] = some c → bitsOf (c.dw 10) 3 0 = 0 → s.nvFetch c 4096 = (s1, .ok d) → s1.nsCreate c.slice (2 ^ 40 + c.id) ⟨bitsOf (c.dw 11) 31 24, d⟩ = (s2, some r) →
      (s1.cmdNow c).sqe = c.sqe → Completes s (.namespaceManagement i cid) fun t => Only [] [] (s2.nvEnd c.id (match r with | .ok nsid => { status := 0, dw0 := nsid } | .error st => nvFail st)) t) ∧
    (s.nvPending i 0 cid [0x0D] = some c → 1 < bitsOf (c.dw 10) 3 0 → Completes s (.namespaceManagement i cid) (ends (nvFail nvInvalidField))) ∧
    (s.nvPending i 0 cid [0x15] = some c → 1 < bitsOf (c.dw 10) 3 0 → Completes s (.namespaceAttachment i cid) (ends (nvFail nvInvalidField))) ∧
    (∀ d s1, s.nvPending i 0 cid [0x15] = some c → bitsOf (c.dw 10) 3 0 ≤ 1 → s.nvFetch c 4096 = (s1, .ok d) → Completes s (.namespaceAttachment i cid) fun t =>
      let r := s1.nsAttach c.nsid (decide (bitsOf (c.dw 10) 3 0 = 0)) (parseCtrlList d)
      Only [] [] (r.1.nvEnd c.id (nvFail r.2)) t) ∧
    (s.nvPending i 0 cid [0x80] = some c → bitsOf (c.dw 10) 8 4 ≠ 0 → Completes s (.formatNvm i cid) (ends (nvFail nvFormat))) ∧
    (s.nvPending i 0 cid [0x80] = some c → bitsOf (c.dw 10) 8 4 = 0 → c.nsid ≠ 0xFFFFFFFF → s.nv.cmds.any (fun y => decide (y.sq ≠ 0 ∧ y.nsid = c.nsid) && y.issued && y.done.isNone) = true →
      Completes s (.formatNvm i cid) fun t => Only [] [] s t) ∧
    (∀ s1 st, s.nvPending i 0 cid [0x80] = some c → bitsOf (c.dw 10) 8 4 = 0 → c.nsid ≠ 0xFFFFFFFF → s.nv.cmds.any (fun y => decide (y.sq ≠ 0 ∧ y.nsid = c.nsid) && y.issued && y.done.isNone) = false →
      s.nsFormat c.slice (2 ^ 40 + c.id * 2048 + c.nsid) c.nsid (bitsOf (c.dw 10) 3 0) (bitsOf (c.dw 10) 11 9) = (s1, some st) → Completes s (.formatNvm i cid) fun t =>
      Only [] [] (s1.nvEnd c.id (if st = nvDenied then nvRefused else nvFail st)) t) ∧
    (∀ x, s.nvPending i 0 cid [0x14] = some c → s.nv.test = some x → (bitsOf (c.dw 10) 3 0 = 1 ∨ bitsOf (c.dw 10) 3 0 = 2) → Completes s (.deviceSelfTest i cid) (ends (nvFail nvTestRunning))) ∧
    (∀ x, s.nvPending i 0 cid [0x14] = some c → s.nv.test = some x → bitsOf (c.dw 10) 3 0 = 15 → Completes s (.deviceSelfTest i cid) fun t => t.nv.test = none ∧
      t.nv.tests = ((16 * x.code + 1, 0, x.nsid, s.powerHours) :: s.nv.tests).take 20 ∧ t.nv.cmds = (s.nvEnd c.id nvOk).nv.cmds) ∧
    (s.nvPending i 0 cid [0x14] = some c → bitsOf (c.dw 10) 3 0 ≠ 1 → bitsOf (c.dw 10) 3 0 ≠ 2 → bitsOf (c.dw 10) 3 0 ≠ 15 → Completes s (.deviceSelfTest i cid) (ends (nvFail nvInvalidField))) ∧
    (s.nvPending i 0 cid [0x14] = some c → s.nv.test = none → bitsOf (c.dw 10) 3 0 = 15 → Completes s (.deviceSelfTest i cid) (ends nvOk)) ∧
    (∀ code, s.nvPending i 0 cid [0x14] = some c → s.nv.test = none → bitsOf (c.dw 10) 3 0 = code → (code = 1 ∨ code = 2) → c.nsid ≠ 0 → c.nsid ≠ 0xFFFFFFFF → s.ns? c.nsid = none →
      Completes s (.deviceSelfTest i cid) (ends (nvFail nvInvalidNs))) ∧
    (∀ code, s.nvPending i 0 cid [0x14] = some c → s.nv.test = none → bitsOf (c.dw 10) 3 0 = code → (code = 1 ∨ code = 2) → (c.nsid = 0 ∨ c.nsid = 0xFFFFFFFF ∨ (s.ns? c.nsid).isSome = true) →
      Completes s (.deviceSelfTest i cid) fun t =>
      t.nv.test = some { code := code, inst := i, nsid := c.nsid, segment := 1, began := s.time.mono } ∧ t.fld F.NVME_SELFTEST_KIND = code ∧ t.fld F.NVME_SELFTEST_SEGMENT = 1 ∧
      t.nv.cmds = (s.nvEnd c.id nvOk).nv.cmds ∧ Only [.nv] [F.NVME_SELFTEST_KIND, F.NVME_SELFTEST_SEGMENT] s t)) ∧
  (∀ (s : State) (pass : Bool) (waitNs : Option Nat), s.slicesUp = true →
    (s.nv.test = none → Completes s (.selftestStep pass waitNs) fun t => Only [] [] s t) ∧
    (∀ x, s.nv.test = some x → s.testBlocked x.segment x.step = true → Completes s (.selftestStep pass waitNs) fun t => Only [] [] s t) ∧
    (∀ x n, s.nv.test = some x → s.testBlocked x.segment x.step = false → waitNs = some n → Completes s (.selftestStep pass waitNs) fun t => Counts s t F.NVME_SELFTEST_YIELDS 1)) ∧
  (∀ (s : State) (x : SelfTest), s.slicesUp = true → s.nv.test = some x → s.testBlocked x.segment x.step = false →
    (x.segment ≠ 7 → Completes s (.selftestStep false none) fun t => t.nv.test = none ∧ t.nv.tests = ((16 * x.code + 7, x.segment, x.nsid, s.powerHours) :: s.nv.tests).take 20 ∧
      Only [.nv] [F.NVME_SELFTEST_KIND, F.NVME_SELFTEST_PERCENT, F.NVME_SELFTEST_SEGMENT] s t) ∧
    (x.segment = 7 → Completes s (.selftestStep false none) fun t => t.nv.test = none ∧ t.nv.tests = ((16 * x.code + 7, 7, x.nsid, s.powerHours) :: s.nv.tests).take 20 ∧
      t.on F.NVME_HUB_INT_STATUS_SELFTEST_FAIL_SEEN = true) ∧
    (x.step + 1 < s.testSteps x.segment → Completes s (.selftestStep true none) fun t => t.nv.test = some { x with step := x.step + 1 } ∧ Only [.nv] [F.NVME_SELFTEST_PERCENT] s t) ∧
    (s.testSteps x.segment ≤ x.step + 1 → x.segment = (if x.code = 1 then 5 else 7) → Completes s (.selftestStep true none) fun t => t.nv.test = none ∧
      t.nv.tests = ((16 * x.code, 0, x.nsid, s.powerHours) :: s.nv.tests).take 20 ∧ Only [.nv] [F.NVME_SELFTEST_KIND, F.NVME_SELFTEST_PERCENT, F.NVME_SELFTEST_SEGMENT] s t) ∧
    (s.testSteps x.segment ≤ x.step + 1 → x.segment ≠ (if x.code = 1 then 5 else 7) → Completes s (.selftestStep true none) fun t => t.nv.test = some { x with segment := x.segment + 1, step := 0 } ∧
      Only [.nv] [F.NVME_SELFTEST_PERCENT, F.NVME_SELFTEST_SEGMENT] s t))

/-- NVMe I/O commands on namespaces. Flush completes at once. Write and Write Zeroes to an Accession namespace are refused and counted in ACC_DENIED; a range past the namespace ends with LBA Out of Range. A write whose data, keys and units are at hand issues its pieces in their slices, counts its bytes and completes; a read decodes its units and sends them. Dataset Management without deallocation, and Verify of a namespace that is not an Accession one, complete with no change. Zone Append to an Accession zone takes up a record, and its completion waits for the record's seal; to another zone it writes at the write pointer and reports its LBA. A seal that is computed places the oldest admitted record; a cipher alarm fails it. Accession Read of what is no record ends with Invalid Field; of a record it sends the data and the trailer. A command that is not there, or has begun, does nothing; one of a namespace that is not there ends with Invalid Namespace; a write while the media are read only ends with that status; a range longer than MDTS or the append limit ends with Invalid Field. -/
def Obligations.NvmeReadsWritesAndAppends : Prop :=
  (∀ (s : State) (i q cid : Nat), s.slicesUp = true →
    let idle := fun (op : Nat) (c : Instr) => (s.nvPending i q cid [op] = none ∨ q = 0) → Completes s c fun t => Only [] [] s t
    let lost := fun (op : Nat) (x : Instr) => ∀ c, s.nvPending i q cid [op] = some c → q ≠ 0 → s.ns? c.nsid = none → Completes s x fun t => Only [] [] (s.nvEnd c.id (nvFail nvInvalidNs)) t
    idle 0x00 (.flush i q cid) ∧ idle 0x01 (.nvmeWrite i q cid) ∧ idle 0x02 (.nvmeRead i q cid) ∧ idle 0x08 (.writeZeroes i q cid) ∧ idle 0x09 (.datasetManagement i q cid) ∧
    idle 0x0C (.verify i q cid) ∧ idle 0x7D (.zoneAppend i q cid) ∧ idle 0x86 (.accessionRead i q cid) ∧
    lost 0x01 (.nvmeWrite i q cid) ∧ lost 0x02 (.nvmeRead i q cid) ∧ lost 0x08 (.writeZeroes i q cid) ∧ lost 0x09 (.datasetManagement i q cid) ∧ lost 0x0C (.verify i q cid) ∧
    lost 0x7D (.zoneAppend i q cid) ∧ lost 0x86 (.accessionRead i q cid)) ∧
  (∀ (s : State) (nsid z : Nat) (alarm : Bool), s.slicesUp = true → (s.nv.appends.find? (fun a => decide (a.nsid = nsid ∧ a.zone = z)) = none ∨ s.ns? nsid = none) →
    Completes s (.sealCompute nsid z alarm) fun t => Only [] [] s t) ∧
  (∀ (s : State) (i q cid : Nat) (c : NvCmd) (n : NsState), s.slicesUp = true → q ≠ 0 → s.ns? c.nsid = some n →
    let len := c.nlb * n.bs
    let ends := fun (d : NvDone) (t : State) => Only [] [] (s.nvEnd c.id d) t
    let denied := fun (t : State) => Only [] [] ((s.incFld (F.ACC_DENIED c.slice)).nvEnd c.id nvRefused) t
    (s.nvPending i q cid [0x00] = some c → Completes s (.flush i q cid) (ends nvOk)) ∧
    (s.nvPending i q cid [0x01] = some c → n.acc = true → Completes s (.nvmeWrite i q cid) denied) ∧
    (s.nvPending i q cid [0x08] = some c → n.acc = true → Completes s (.writeZeroes i q cid) denied) ∧
    (s.nvPending i q cid [0x09] = some c → n.acc = true → Completes s (.datasetManagement i q cid) denied) ∧
    (s.nvPending i q cid [0x01] = some c → n.acc = false → s.mediaReadOnly = false → n.nsze < c.slba + c.nlb → Completes s (.nvmeWrite i q cid) (ends (nvFail nvLbaRange))) ∧
    (s.mediaReadOnly = true → n.acc = false → (s.nvPending i q cid [0x01] = some c → Completes s (.nvmeWrite i q cid) (ends (nvOfDev St.MEDIA_READ_ONLY true c.slba))) ∧
      (s.nvPending i q cid [0x08] = some c → Completes s (.writeZeroes i q cid) (ends (nvOfDev St.MEDIA_READ_ONLY true c.slba)))) ∧
    (s.mediaReadOnly = true → s.nvPending i q cid [0x7D] = some c → Completes s (.zoneAppend i q cid) (ends (nvOfDev St.MEDIA_READ_ONLY true c.slba))) ∧
    (c.slba + c.nlb ≤ n.nsze → n.csi ≠ 2 → mdtsBytes < len → (s.nvPending i q cid [0x02] = some c → Completes s (.nvmeRead i q cid) (ends (nvFail nvInvalidField))) ∧
      (s.nvPending i q cid [0x01] = some c → n.acc = false → s.mediaReadOnly = false → Completes s (.nvmeWrite i q cid) (ends (nvFail nvInvalidField)))) ∧
    (s.nvPending i q cid [0x0C] = some c → n.nsze < c.slba + c.nlb → Completes s (.verify i q cid) (ends (nvFail nvLbaRange))) ∧
    (s.nvPending i q cid [0x08] = some c → n.acc = false → s.mediaReadOnly = false → n.nsze < c.slba + c.nlb → Completes s (.writeZeroes i q cid) (ends (nvFail nvLbaRange))) ∧
    (s.nvPending i q cid [0x7D] = some c → s.mediaReadOnly = false → n.nsze ≤ c.slba → Completes s (.zoneAppend i q cid) (ends (nvFail nvLbaRange))) ∧
    (∀ s1, s.nvPending i q cid [0x02] = some c → c.slba + c.nlb ≤ n.nsze → n.csi ≠ 2 → len ≤ mdtsBytes → s.nvCells c len = (s1, false) → Completes s (.nvmeRead i q cid) fun t => Only [] [] s1 t) ∧
    (s.nvPending i q cid [0x02] = some c → n.nsze < c.slba + c.nlb → Completes s (.nvmeRead i q cid) (ends (nvFail nvLbaRange))) ∧
    (∀ s1 s2 s3 s4 s5 c1 c2 d key us, s.nvPending i q cid [0x01] = some c → n.acc = false → n.csi ≠ 2 → s.mediaReadOnly = false → c.slba + c.nlb ≤ n.nsze → len ≤ mdtsBytes →
      s.nvCells c len = (s1, true) → s1.cmdNow c = c1 → s1.nvFetch c1 len = (s2, .ok d) → s2.cmdNow c1 = c2 → s2.needKey c2.slice (2 ^ 40 + c2.id) n.dataSlot (n.dataLabel c2.nsid) = (s3, .ready key) →
      s3.mergeUnits c.nsid n key (c.slba * n.bs) d (unitSpan (c.slba * n.bs) len) = (s4, .ok us) → s4.unitCipher c.slice len = .ready s5 → Completes s (.nvmeWrite i q cid) fun t =>
      let ps := s5.dataPieces c.nsid us
      Only [] [] (((((s5.spreadPieces c.slice ps).issuePieces (some c.id) ps).addFld (F.NVME_WRITE_BYTES c.slice) len).countHost c.inst true len).nvEnd c.id nvOk) t) ∧
    (∀ s1 s2 d e c1, s.nvPending i q cid [0x02] = some c → c.slba + c.nlb ≤ n.nsze → n.csi ≠ 2 → len ≤ mdtsBytes → s.nvCells c len = (s1, true) → s1.cmdNow c = c1 → c1.data = some d →
      s1.nvSend c1 d nvOk = (s2, .done e) → e.status = 0 → Completes s (.nvmeRead i q cid) fun t =>
      Only [] [] (((s2.addFld (F.NVME_READ_BYTES c.slice) len).countHost c.inst false len).nvEnd c.id e) t) ∧
    (s.nvPending i q cid [0x08] = some c → n.acc = false → n.csi ≠ 2 → s.mediaReadOnly = false → c.slba + c.nlb ≤ n.nsze → n.lbaf = 0 → Completes s (.writeZeroes i q cid) fun t =>
      let ps := s.trimPieces c.nsid c.slba c.nlb
      Only [] [] ((((s.spreadPieces c.slice ps).issuePieces (some c.id) ps).countHost c.inst true 0).nvEnd c.id nvOk) t) ∧
    (∀ s1 d, s.nvPending i q cid [0x09] = some c → n.acc = false → s.nvFetch c (16 * (bitsOf (c.dw 10) 7 0 + 1)) = (s1, .ok d) → (s1.cmdNow c).sqe = c.sqe → bitOf (c.dw 11) 2 = false →
      (∀ j, j ≤ bitsOf (c.dw 10) 7 0 → leAt d (16 * j + 8) 8 + leAt d (16 * j + 4) 4 ≤ n.nsze) → Completes s (.datasetManagement i q cid) fun t => Only [] [] (s1.nvEnd c.id nvOk) t) ∧
    (∀ s1, s.nvPending i q cid [0x0C] = some c → n.csi ≠ 2 → n.acc = false → c.slba + c.nlb ≤ n.nsze →
      s.nvPlain c n (c.slba * n.bs) len (fun t _ => (t, .done nvOk)) = (s1, .done nvOk) → Completes s (.verify i q cid) fun t => Only [] [] (s1.nvEnd c.id nvOk) t) ∧
    (s.nvPending i q cid [0x7D] = some c → s.mediaReadOnly = false → c.slba < n.nsze → c.slba % zoneSize ≠ 0 → Completes s (.zoneAppend i q cid) (ends (nvFail nvInvalidField))) ∧
    (∀ s1 s2 s3 s4 c1 c2 d key, s.nvPending i q cid [0x7D] = some c → s.mediaReadOnly = false → c.slba < n.nsze → c.slba % zoneSize = 0 → 4096 * c.nlb ≤ zaslBytes →
      s.zoneTakes c.nsid (c.slba / zoneSize) c.nlb = none → s.nvCells c (4096 * c.nlb) = (s1, true) → s1.cmdNow c = c1 → s1.nvFetch c1 (4096 * c.nlb) = (s2, .ok d) → s2.cmdNow c1 = c2 →
      s2.needKey c2.slice (2 ^ 40 + c2.id) n.dataSlot (n.dataLabel c2.nsid) = (s3, .ready key) → s3.unitCipher c.slice (4096 * c.nlb) = .ready s4 → n.acc = true → Completes s (.zoneAppend i q cid) fun t =>
      let z := c.slba / zoneSize
      let s5 := ((s4.implicitOpen c.nsid z).addFld (F.NVME_WRITE_BYTES c.slice) (4096 * c.nlb)).countHost c.inst true (4096 * c.nlb)
      t.nv.appends = (s5.takeRecord c.slice c.nsid z (some c.id) none none key d).nv.appends ∧ t.nv.ns = s5.nv.ns) ∧
    (s.nvPending i q cid [0x86] = some c → (n.zone (c.slba / zoneSize)).records.findIdx? (fun r => decide (r.first = c.slba ∧ r.count = c.nlb)) = none → Completes s (.accessionRead i q cid) (ends (nvFail nvInvalidField))) ∧
    (∀ j s1 s2 s3 c1 d w, s.nvPending i q cid [0x86] = some c → (n.zone (c.slba / zoneSize)).records.findIdx? (fun r => decide (r.first = c.slba ∧ r.count = c.nlb)) = some j → j ≠ 0 →
      (n.zone (c.slba / zoneSize)).state ≠ zOffline → s.nvCells c (4096 * c.nlb) = (s1, true) → s1.cmdNow c = c1 → c1.data = some d → s1.nvSend c1 d nvOk = (s2, .done nvOk) →
      (let r := (n.zone (c.slba / zoneSize)).records.getD j ⟨0, 0, [], []⟩
       s2.dmaWrite c.slice c.inst c.mptr (s.cmdOp c) (r.header ++ r.sealTag ++ ((n.zone (c.slba / zoneSize)).records.getD (j - 1) ⟨0, 0, [], []⟩).sealTag ++ List.replicate 32 0) = (s3, .ok w)) →
      Completes s (.accessionRead i q cid) fun t =>
      Only [] [] (((s3.addFld (F.NVME_READ_BYTES c.slice) (4096 * c.nlb)).countHost c.inst false (4096 * c.nlb)).nvEnd c.id nvOk) t)) ∧
  (∀ (s s1 s2 : State) (nsid z : Nat) (a : ZApp) (n : NsState) (key : List Byte), s.slicesUp = true → s.nv.appends.find? (fun a => decide (a.nsid = nsid ∧ a.zone = z)) = some a → s.ns? nsid = some n →
    (∀ alarm, a.admitted = false → Completes s (.sealCompute nsid z alarm) fun t => Only [] [] s t) ∧
    (∀ alarm, a.admitted = true → s.needKey a.slice (2 ^ 41 + a.piece) n.sealSlot (n.sealLabel nsid) = (s1, .wait) → Completes s (.sealCompute nsid z alarm) fun t => Only [] [] s1 t) ∧
    (∀ alarm st, a.admitted = true → s.needKey a.slice (2 ^ 41 + a.piece) n.sealSlot (n.sealLabel nsid) = (s1, .fail st) → Completes s (.sealCompute nsid z alarm) fun t =>
      t.nv.appends = s.nv.appends.filter (fun (x : ZApp) => decide (x.piece ≠ a.piece)))  ∧
    (a.admitted = true → s.needKey a.slice (2 ^ 41 + a.piece) n.sealSlot (n.sealLabel nsid) = (s1, .ready key) → s1.unitCipher a.slice (80 + 4096 * a.count) = .ready s2 → Completes s (.sealCompute nsid z false) fun t =>
      Only [] [] (s2.placeRecord a key) t) ∧
    (a.admitted = true → s.needKey a.slice (2 ^ 41 + a.piece) n.sealSlot (n.sealLabel nsid) = (s1, .ready key) → Completes s (.sealCompute nsid z true) fun t =>
      t.nv.appends = s.nv.appends.filter (fun (x : ZApp) => decide (x.piece ≠ a.piece)) ∧ t.on (F.NVME_INT_STATUS_SEAL_FAIL_SEEN a.slice) = true))

/-- Zone Management Send and Receive. On one zone: Open takes Empty, Implicitly Open, Closed and Explicitly Open to Explicitly Open; Close takes an active zone to Closed; Finish takes an active zone to Full, and leaves a Full one; Reset of an Accession zone whose retention has not passed is refused and counted in ACC_RESET_REFUSED, else it empties the zone and its generation advances; Offline takes Read Only to Offline, and an Accession namespace refuses it; Set Zone Descriptor Extension takes Empty to Closed with the extension. From any other state each ends with Invalid Zone State Transition, and for an LBA past the namespace with LBA Out of Range. A report is for a zone of the namespace, in the filters that exist. A command with another action waits for its own row, and one that is not there does nothing. -/
def Obligations.ZonesFollowTheirStates : Prop :=
  (∀ (s : State) (i q cid : Nat), s.slicesUp = true →
    let idle := fun (op : Nat) (c : Instr) => (s.nvPending i q cid [op] = none ∨ q = 0) → Completes s c fun t => Only [] [] s t
    idle 0x79 (.zoneOpen i q cid) ∧ idle 0x79 (.zoneClose i q cid) ∧ idle 0x79 (.zoneFinish i q cid) ∧ idle 0x79 (.zoneReset i q cid) ∧ idle 0x79 (.zoneOffline i q cid) ∧
    idle 0x79 (.setZoneDescriptorExtension i q cid) ∧ idle 0x7A (.reportZones i q cid) ∧ idle 0x7A (.extendedReportZones i q cid)) ∧
  ∀ (s : State) (i q cid : Nat) (c : NvCmd) (n : NsState), s.slicesUp = true → q ≠ 0 → s.ns? c.nsid = some n →
    let z := c.slba / zoneSize
    let v := n.zone z
    let act := bitsOf (c.dw 13) 7 0
    let ends := fun (d : NvDone) (t : State) => Only [] [] (s.nvEnd c.id d) t
    let sets := fun (x : Zone) (t : State) => Only [] [] ((s.putZone c.nsid z x).nvEnd c.id nvOk) t
    let send := s.nvPending i q cid [0x79] = some c ∧ bitOf (c.dw 13) 8 = false
    let here := c.slba < n.nsze ∧ c.slba % zoneSize = 0
    (send → act = 3 → n.nsze ≤ c.slba → Completes s (.zoneOpen i q cid) (ends (nvFail nvLbaRange))) ∧
    (send → act = 3 → here → (v.state = zImplicit ∨ v.state = zClosed ∨ v.state = zExplicit) → Completes s (.zoneOpen i q cid) (sets { v with state := zExplicit })) ∧
    (send → act = 3 → here → v.state = zEmpty → s.activeRoom n = true → Completes s (.zoneOpen i q cid) fun t => Only [] [] ((s.leaveEmpty c.nsid z zExplicit none).nvEnd c.id nvOk) t) ∧
    (send → act = 3 → here → v.state = zEmpty → s.activeRoom n = false → Completes s (.zoneOpen i q cid) (ends (nvFail nvTooManyActive))) ∧
    (send → act = 3 → here → (v.state = zFull ∨ v.state = zReadOnly ∨ v.state = zOffline) → Completes s (.zoneOpen i q cid) (ends (nvFail nvZoneTransition))) ∧
    (send → act = 1 → here → zoneActive v.state = true → Completes s (.zoneClose i q cid) (sets { v with state := zClosed })) ∧
    (send → act = 1 → here → zoneActive v.state = false → Completes s (.zoneClose i q cid) (ends (nvFail nvZoneTransition))) ∧
    (send → act = 2 → here → s.zoneBusy c.nsid z = false → zoneActive v.state = true → Completes s (.zoneFinish i q cid) fun t =>
      Only [] [] (((s.putZone c.nsid z { v with state := zFull }).accAdd c.nsid z accFinish).nvEnd c.id nvOk) t) ∧
    (send → act = 2 → here → s.zoneBusy c.nsid z = false → v.state = zFull → Completes s (.zoneFinish i q cid) (ends nvOk)) ∧
    (send → act = 2 → here → s.zoneBusy c.nsid z = true → Completes s (.zoneFinish i q cid) fun t => Only [] [] s t) ∧
    (send → act = 4 → here → s.zoneBusy c.nsid z = false → zoneActive v.state = true → n.acc = true → s.seeTime.retainPassed v.retain = false → Completes s (.zoneReset i q cid) fun t =>
      Only [] [] (((s.seeTime.incFld F.ACC_RESET_REFUSED).accAdd c.nsid z accRefused).nvEnd c.id nvRefused) t) ∧
    (send → act = 4 → here → s.zoneBusy c.nsid z = false → (zoneActive v.state = true ∨ v.state = zFull) → (n.acc = false ∨ s.seeTime.retainPassed v.retain = true) → Completes s (.zoneReset i q cid) fun t =>
      t.zone c.nsid z = { gen := v.gen + 1 } ∧ Only [] [] ((s.seeTime.resetZone c.nsid z).nvEnd c.id nvOk) t) ∧
    (send → act = 4 → here → s.zoneBusy c.nsid z = false → (v.state = zReadOnly ∨ v.state = zOffline) → Completes s (.zoneReset i q cid) fun t => Only [] [] (s.seeTime.nvEnd c.id (nvFail nvZoneTransition)) t) ∧
    (send → act = 5 → n.acc = true → Completes s (.zoneOffline i q cid) fun t => Only [] [] ((s.incFld (F.ACC_DENIED c.slice)).nvEnd c.id nvRefused) t) ∧
    (send → act = 5 → n.acc = false → here → v.state = zReadOnly → Completes s (.zoneOffline i q cid) fun t =>
      Only [] [] (((s.dropZoneData c.nsid z).putZone c.nsid z { v with state := zOffline }).nvEnd c.id nvOk) t) ∧
    (send → act = 5 → n.acc = false → here → v.state ≠ zReadOnly → v.state ≠ zOffline → Completes s (.zoneOffline i q cid) (ends (nvFail nvZoneTransition))) ∧
    (∀ s1 d, send → act = 0x10 → here → v.state = zEmpty → s.activeRoom n = true → n.acc = false → s.nvFetch c 64 = (s1, .ok d) → Completes s (.setZoneDescriptorExtension i q cid) fun t =>
      Only [] [] ((s1.leaveEmpty c.nsid z zClosed (some d)).nvEnd c.id nvOk) t) ∧
    (send → act = 0x10 → here → v.state ≠ zEmpty → Completes s (.setZoneDescriptorExtension i q cid) (ends (nvFail nvZoneTransition))) ∧
    (send → act ≠ 3 → Completes s (.zoneOpen i q cid) fun t => Only [] [] s t) ∧
    (send → act ≠ 1 → Completes s (.zoneClose i q cid) fun t => Only [] [] s t) ∧ (send → act ≠ 2 → Completes s (.zoneFinish i q cid) fun t => Only [] [] s t) ∧
    (send → act ≠ 4 → Completes s (.zoneReset i q cid) fun t => Only [] [] s t) ∧ (send → act ≠ 5 → Completes s (.zoneOffline i q cid) fun t => Only [] [] s t) ∧
    (send → act ≠ 0x10 → Completes s (.setZoneDescriptorExtension i q cid) fun t => Only [] [] s t) ∧
    (s.nvPending i q cid [0x7A] = some c → act ≠ 0 → Completes s (.reportZones i q cid) fun t => Only [] [] s t) ∧ (s.nvPending i q cid [0x7A] = some c → act ≠ 1 → Completes s (.extendedReportZones i q cid) fun t => Only [] [] s t) ∧
    (send → n.nsze ≤ c.slba → (act = 1 → Completes s (.zoneClose i q cid) (ends (nvFail nvLbaRange))) ∧ (act = 2 → Completes s (.zoneFinish i q cid) (ends (nvFail nvLbaRange))) ∧
      (act = 4 → Completes s (.zoneReset i q cid) (ends (nvFail nvLbaRange))) ∧ (act = 5 → n.acc = false → Completes s (.zoneOffline i q cid) (ends (nvFail nvLbaRange))) ∧
      (act = 0x10 → Completes s (.setZoneDescriptorExtension i q cid) (ends (nvFail nvLbaRange)))) ∧
    (send → act = 2 → here → s.zoneBusy c.nsid z = false → (v.state = zReadOnly ∨ v.state = zOffline) → Completes s (.zoneFinish i q cid) (ends (nvFail nvZoneTransition))) ∧
    (send → act = 2 → here → s.zoneBusy c.nsid z = false → v.state = zEmpty → Completes s (.zoneFinish i q cid) fun t =>
      Only [] [] (((s.leaveEmpty c.nsid z zFull none).accAdd c.nsid z accFinish).nvEnd c.id nvOk) t) ∧
    (send → act = 4 → here → s.zoneBusy c.nsid z = true → Completes s (.zoneReset i q cid) fun t => Only [] [] s t) ∧
    (send → act = 4 → here → s.zoneBusy c.nsid z = false → v.state = zEmpty → Completes s (.zoneReset i q cid) fun t => Only [] [] (s.seeTime.nvEnd c.id nvOk) t) ∧
    (send → act = 5 → n.acc = false → here → v.state = zOffline → Completes s (.zoneOffline i q cid) (ends nvOk)) ∧
    (send → act = 0x10 → here → v.state = zEmpty → s.activeRoom n = false → Completes s (.setZoneDescriptorExtension i q cid) (ends (nvFail nvTooManyActive))) ∧
    (∀ s1 d, send → act = 0x10 → here → v.state = zEmpty → s.activeRoom n = true → n.acc = true → s.nvFetch c 64 = (s1, .ok d) → Completes s (.setZoneDescriptorExtension i q cid) fun t =>
      Only [] [] (if s1.ftSec + maxRetain < leAt d 0 6 then s1.nvEnd c.id (nvFail nvInvalidField) else (s1.leaveEmpty c.nsid z zClosed (some d)).nvEnd c.id nvOk) t) ∧
    (∀ (ext : Bool) s1 e, s.nvPending i q cid [0x7A] = some c → act = b2n ext → c.slba < n.nsze → s.nvReport c n ext = (s1, .done e) →
      Completes s (if ext then .extendedReportZones i q cid else .reportZones i q cid) fun t => Only [] [] (s1.nvEnd c.id e) t) ∧
    (s.nvPending i q cid [0x7A] = some c → act = 0 → n.nsze ≤ c.slba → Completes s (.reportZones i q cid) (ends (nvFail nvLbaRange))) ∧
    (s.nvPending i q cid [0x7A] = some c → act = 1 → n.nsze ≤ c.slba → Completes s (.extendedReportZones i q cid) (ends (nvFail nvLbaRange))) ∧
    (s.nvPending i q cid [0x7A] = some c → act = 0 → c.slba < n.nsze → 7 < bitsOf (c.dw 13) 15 8 → Completes s (.reportZones i q cid) (ends (nvFail nvInvalidField))) ∧
    (∀ s1 e bs, s.nvPending i q cid [0x7A] = some c → act = 0 → c.slba < n.nsze → bitsOf (c.dw 13) 15 8 = 5 → bitOf (c.dw 13) 16 = false → c.dw 12 = 15 → c.slba < zoneSize →
      (leBytes 8 ((List.range n.zoneCount).filter (fun z => decide ((n.zone z).state = zFull))).length ++ leBytes 56 0) = bs → s.draw.nvSend c bs nvOk = (s1, .done e) → Completes s (.reportZones i q cid) fun t =>
      Only [] [] (s1.nvEnd c.id e) t) ∧
    (∀ s1 e bs, s.nvPending i q cid [0x7A] = some c → act = 1 → c.slba < n.nsze → bitsOf (c.dw 13) 15 8 = 5 → bitOf (c.dw 13) 16 = false → c.dw 12 = 15 → c.slba < zoneSize →
      (leBytes 8 ((List.range n.zoneCount).filter (fun z => decide ((n.zone z).state = zFull))).length ++ leBytes 56 0) = bs → s.draw.nvSend c bs nvOk = (s1, .done e) → Completes s (.extendedReportZones i q cid) fun t =>
      Only [] [] (s1.nvEnd c.id e) t)

/-- The write buffer, flash reads, programs and erases, collection and retirement. The oldest waiting piece of a slice enters the buffer whole when the limits allow it, and with its last piece its command may complete; else nothing changes. A read, a program and an erase each take a tag first, and wait for it. The read that its slice serves is done: the stage that decoded is counted, or UNRECOVERED and its latch are, and a host unit is delivered with its status. A member page is programmed with status ok, or the failure is counted and its block retired. A block of a band with no valid data, no reader and no writer is erased: its count of erases and P/E count rise and its codewords go; a failed erase is counted and the block retired; no other block is erased. A channel that times out FAILS. A die with 16 blocks retired in 24 h, or that does not answer, is RETIRING; each further command rebuilds one band's member, and then it is RETIRED. A slice with enough free bands collects nothing; with fewer it moves a closed band. A block at AFF_RD_LIMIT queues its valid data once and is counted. Every 60 s the bands age, and those at AFF_RET_LIMIT move. The maintenance window acts only when its timer has expired, or a patrol pass is overdue by its whole period. ACC_TIME_FLOOR is made durable at most once an hour. A slice, channel, die or block that is not there changes nothing. The numbers under which flash operations ask for tags are the model's own (log entry 33). -/
def Obligations.FlashKeepsItsPromises : Prop :=
  (∀ (s : State) (k : Nat), s.slicesUp = true →
    (takeFirst (fun (p : WPiece) => decide (p.slice = k)) s.flash.waiting = none → Completes s (.writeBufferAdmit k) fun t => Only [] [] s t) ∧
    (∀ p rest, takeFirst (fun (p : WPiece) => decide (p.slice = k)) s.flash.waiting = some (p, rest) →
      (s.admits p = false → Completes s (.writeBufferAdmit k) fun t => Only [] [] s t) ∧
      (s.admits p = true → p.append = false → Completes s (.writeBufferAdmit k) fun t => t.flash.waiting = rest ∧ t.nv.appends = s.nv.appends ∧
        t.nv.cmds = s.nv.cmds.map (fun (c : NvCmd) => if c.pieces.contains p.id then { c with pieces := c.pieces.erase p.id, unprog := if s.holdup = 3 then c.unprog ++ [p.id] else c.unprog } else c)) ∧
      (s.admits p = true → p.append = false → p.frame = none → Completes s (.writeBufferAdmit k) fun t => Only [.flash, .nv] [F.AFF_HOST_BYTES k, F.AFF_WBUF_BYTES k, F.AFF_WBUF_PEAK k] s t) ∧
      (s.admits p = true → p.append = true → Completes s (.writeBufferAdmit k) fun t => t.flash.waiting = rest ∧
        t.nv.appends = s.nv.appends.map (fun (a : ZApp) => if a.piece = p.id then { a with admitted := true } else a) ∧ t.nv.cmds = s.nv.cmds ∧ t.flash.buf = s.flash.buf))) ∧
  (∀ (s : State) (k bits : Nat) (stage : Option Nat), s.slicesUp = true →
    let tag := s.getTag k noInst (s.deadline (s.unitClass 22)) flashReadOp
    (s.nextRead k = none → Completes s (.flashReadDone k stage bits) fun t => Only [] [] s t) ∧
    (∀ r rest, s.nextRead k = some (r, rest) →
      (tag.2 = false → Completes s (.flashReadDone k stage bits) fun t => Only [] [] tag.1 t ∧ t.flash = s.flash) ∧
      (tag.2 = true → Completes s (.flashReadDone k stage bits) fun t => Only [] [] ((tag.1.readDone k r rest stage bits).giveTag k noInst) t) ∧
      (∀ cw st, tag.2 = true → k < 4 → r.slice = k → r.use = .host → Map.find? s.flash.cells (cellKey k r.loc) = some cw → s.dieState k (locDie r.loc) = dieOnline → stage = some st → st < 11 →
        Completes s (.flashReadDone k stage bits) fun t => t.flash.reads = rest ∧ t.flash.got = s.flash.got ++ [(k, r.loc, 0)] ∧ t.flash.cells = s.flash.cells ∧ t.flash.map = s.flash.map ∧
        t.fld (F.AFF_READ_STAGE k st) = (s.fld (F.AFF_READ_STAGE k st) + 1) % 2 ^ 64 ∧ (t.blk k (locDie r.loc) (locBlk r.loc)).reads = (s.blk k (locDie r.loc) (locBlk r.loc)).reads + 1) ∧
      (tag.2 = true → k < 4 → r.slice = k → r.use = .host → s.dieState k (locDie r.loc) = dieOnline → stage = none → Completes s (.flashReadDone k stage bits) fun t =>
        t.flash.reads = rest ∧ t.flash.got = s.flash.got ++ [(k, r.loc, St.MEDIA_UNRECOVERED)] ∧ t.flash.map = s.flash.map ∧
        t.fld (F.AFF_UNRECOVERED k) = (s.fld (F.AFF_UNRECOVERED k) + 1) % 2 ^ 64 ∧ t.on (F.AFF_INT_STATUS_UNRECOVERED_SEEN k) = true))) ∧
  (∀ (s : State) (k : Nat) (ok : Bool), s.slicesUp = true →
    let page := s.nextPage k s.zoneDone
    ((4 ≤ k ∨ page = []) → Completes s (.flashProgramDone k ok) fun t => Only [] [] s t) ∧
    (k < 4 → page ≠ [] → (s.useBand k).2 = none → Completes s (.flashProgramDone k ok) fun t => Only [] [] s t) ∧
    (∀ s1 b, k < 4 → page ≠ [] → s.useBand k = (s1, some b) →
      let tag := s1.getTag k noInst (s1.deadline (s1.unitClass 22)) flashProgramOp
      (tag.2 = false → Completes s (.flashProgramDone k ok) fun t => Only [] [] tag.1 t ∧ t.flash = s1.flash) ∧
      (tag.2 = true → ok = true → Completes s (.flashProgramDone k ok) fun t => Only [] [] ((tag.1.programmed k b page).giveTag k noInst) t) ∧
      (tag.2 = true → ok = false → (tag.1.programFailed k b).holdup = 3 → Completes s (.flashProgramDone k ok) fun t => Only [] [] ((tag.1.programDone k b page false).giveTag k noInst) t) ∧
      (tag.2 = true → ok = false → b.member.1 < 128 → (tag.1.programFailed k b).holdup ≠ 3 → Completes s (.flashProgramDone k ok) fun t =>
        t.fld (F.AFF_PROG_FAIL k) = min (s1.fld (F.AFF_PROG_FAIL k) + 1) (2 ^ 32 - 1) ∧ t.flash.cells = s1.flash.cells ∧
        (∀ x, x ∈ t.flash.bands → x.id = b.id → x.isOpen = false) ∧ ((s1.blk k b.member.1 b.member.2).bad = 0 → (t.blk k b.member.1 b.member.2).bad = 2)))) ∧
  (∀ (s : State) (k x b : Nat) (ok : Bool), s.slicesUp = true →
    ((4 ≤ k ∨ s.bandOf k x b = none) → Completes s (.flashEraseDone k x b ok) fun t => Only [] [] s t) ∧
    (∀ bd, k < 4 → s.bandOf k x b = some bd →
      let tag := s.getTag k noInst (s.deadline (s.unitClass 22)) flashEraseOp
      let used := [F.TAG_INUSE k, F.TAG_PEAK k] ++ uncCounterFlds k
      (s.erasable k bd = false → Completes s (.flashEraseDone k x b ok) fun t => Only [] [] s t) ∧
      (s.erasable k bd = true → tag.2 = false → Completes s (.flashEraseDone k x b ok) fun t => Only [] [] tag.1 t ∧ t.flash = s.flash) ∧
      (s.erasable k bd = true → tag.2 = true → ok = true → Completes s (.flashEraseDone k x b ok) fun t => t.fld (F.AFF_ERASES k) = (s.fld (F.AFF_ERASES k) + 1) % 2 ^ 64 ∧
        (t.blk k x b).pe = (s.blk k x b).pe + 1 ∧ (t.blk k x b).band = none ∧
        t.flash.cells = s.flash.cells.filter (fun e => !decide (e.1 / 2 ^ 33 = k ∧ locDie (e.1 % 2 ^ 33) = x ∧ locBlk (e.1 % 2 ^ 33) = b)) ∧ t.flash.map = s.flash.map ∧
        Only [.flash, .arb, .inst] ([F.AFF_ERASES k, F.AFF_PE_AVG k, F.AFF_PE_MAX k, F.AFF_PE_MIN k, F.AFF_BANDS_FREE k] ++ used) s t) ∧
      (s.erasable k bd = true → tag.2 = true → ok = false → (s.blk k x b).bad = 0 → x < 128 → Completes s (.flashEraseDone k x b ok) fun t => t.fld (F.AFF_ERASE_FAIL k) = min (s.fld (F.AFF_ERASE_FAIL k) + 1) (2 ^ 32 - 1) ∧
        (t.blk k x b).bad = 2 ∧ t.fld (F.AFF_GROWN_BAD k) = (s.fld (F.AFF_GROWN_BAD k) + 1) % 2 ^ 32 ∧ t.fld (F.AFF_SPARE k) = s.fld (F.AFF_SPARE k) - 1 ∧ t.on (F.AFF_INT_STATUS_BLOCK_RETIRED_SEEN k) = true ∧
        t.flash.cells = s.flash.cells))) ∧
  (∀ (s : State) (k ch : Nat), s.slicesUp = true →
    ((4 ≤ k ∨ 8 ≤ ch ∨ s.fld (F.FL_CH_STATE_STATE k ch) ≠ 2) → Completes s (.flashChannelTimeout k ch) fun t => Only [] [] s t) ∧
    (k < 4 → ch < 8 → s.fld (F.FL_CH_STATE_STATE k ch) = 2 → Completes s (.flashChannelTimeout k ch) fun t => t.fld (F.FL_CH_STATE_STATE k ch) = 3 ∧
      t.fld (F.FL_CH_TIMEOUTS k ch) = min (s.fld (F.FL_CH_TIMEOUTS k ch) + 1) (2 ^ 32 - 1) ∧ (∀ d, d < 16 → t.dieState k (16 * ch + d) ≠ dieOnline))) ∧
  (∀ (s : State) (k x : Nat) (dead : Bool), s.slicesUp = true →
    let fresh := (s.flash.retired.filter (fun r => decide (r.1 = k ∧ r.2.1 = x ∧ s.time.mono < r.2.2 + ticks24h))).length
    ((4 ≤ k ∨ 128 ≤ x ∨ (s.dieState k x ≠ dieOnline ∧ s.dieState k x ≠ dieRetiring)) → Completes s (.dieRetire k x dead) fun t => Only [] [] s t) ∧
    (k < 4 → x < 128 → s.dieState k x = dieOnline → (dead = true ∨ 16 ≤ fresh) → Completes s (.dieRetire k x dead) fun t =>
      t.dieState k x = dieRetiring ∧ t.flash.degraded = true ∧ t.on (F.AFF_INT_STATUS_DIE_RETIRED_SEEN k) = true ∧ t.flash.cells = s.flash.cells ∧ (∀ y, y < 128 → y ≠ x → t.dieState k y = s.dieState k y)) ∧
    (k < 4 → x < 128 → s.dieState k x = dieOnline → dead = false → fresh < 16 → Completes s (.dieRetire k x dead) fun t => Only [] [] s t) ∧
    (∀ b, k < 4 → x < 128 → s.dieState k x = dieRetiring → s.flash.bands.find? (fun b => decide (b.slice = k) && b.members.any (fun m => decide (m.1 = x))) = some b →
      Completes s (.dieRetire k x dead) fun t => Only [] [] (s.replaceMember b x) t ∧ t.dieState k x = dieRetiring) ∧
    (k < 4 → x < 128 → s.dieState k x = dieRetiring → s.flash.bands.find? (fun b => decide (b.slice = k) && b.members.any (fun m => decide (m.1 = x))) = none →
      Completes s (.dieRetire k x dead) fun t => t.dieState k x = dieRetired ∧ t.fld (F.AFF_DIE_RETIRED k) = (s.fld (F.AFF_DIE_RETIRED k) + 1) % 2 ^ 8)) ∧
  (∀ (s : State) (k : Nat), s.slicesUp = true →
    let closed := s.flash.bands.filter (fun b => decide (b.slice = k) && !b.isOpen && decide (b.moving = 0))
    ((4 ≤ k ∨ max 12 (s.fld (F.AFF_GC_LOW k)) ≤ s.freeBands k ∨ closed = []) → Completes s (.garbageCollect k) fun t => Only [] [] s t) ∧
    (k < 4 → s.freeBands k < max 12 (s.fld (F.AFF_GC_LOW k)) → closed ≠ [] → Completes s (.garbageCollect k) fun t => ∃ b, b ∈ closed ∧ Only [] [] (s.moveBand b 1) t) ∧
    (∀ b, k < 4 → s.freeBands k < max 12 (s.fld (F.AFF_GC_LOW k)) → s.flash.bands = [b] → closed = [b] → Completes s (.garbageCollect k) fun t =>
      t.flash.bands = [{ b with moving := 1 }] ∧ t.flash.map = s.flash.map ∧ t.flash.cells = s.flash.cells ∧ (∀ r, r ∈ s.flash.reads → r ∈ t.flash.reads) ∧
      (∀ e, e ∈ s.bandValid b → s.zoned (e.1 / 2 ^ 40) = false → ∃ r, r ∈ t.flash.reads ∧ r.slice = k ∧ r.loc = e.2 ∧ r.use = .move) ∧ Only [.flash] [] s t)) ∧
  (∀ (s : State) (k x b : Nat), s.slicesUp = true →
    let moves := s.validIn k (fun l => decide (locDie l = x ∧ locBlk l = b))
    let moving := s.flash.reads.any (fun r => decide (r.slice = k ∧ r.use = .move ∧ locDie r.loc = x ∧ locBlk r.loc = b))
    ((4 ≤ k ∨ (s.blk k x b).reads < s.fld (F.AFF_RD_LIMIT k) ∨ moves = [] ∨ moving = true) → Completes s (.readDisturbLimit k x b) fun t => Only [] [] s t) ∧
    (k < 4 → s.fld (F.AFF_RD_LIMIT k) ≤ (s.blk k x b).reads → moves ≠ [] → moving = false → Completes s (.readDisturbLimit k x b) fun t => t.fld (F.AFF_RD_REFRESH k) = (s.fld (F.AFF_RD_REFRESH k) + 1) % 2 ^ 64 ∧
      t.flash.reads = (s.queueMoves k moves).flash.reads ∧ Only [.flash] [F.AFF_RD_REFRESH k] s t)) ∧
  (∀ (s : State) (temps : List (Nat × Nat × Nat)), s.slicesUp = true →
    (s.time.mono < s.flash.ageAt + 60 * ticksPerSec → Completes s (.retentionAgeUpdate temps) fun t => Only [] [] s t) ∧
    (s.flash.ageAt + 60 * ticksPerSec ≤ s.time.mono → Completes s (.retentionAgeUpdate temps) fun t => t.flash.ageAt = s.time.mono ∧ t.flash.cells = s.flash.cells ∧ t.flash.map = s.flash.map ∧
      (∀ r, r ∈ s.flash.reads → r ∈ t.flash.reads) ∧
      Only [.flash] ((temps.map (fun e => F.FL_DIE_STATE_TEMP e.1 e.2.1)) ++ [F.AFF_RET_REFRESH 0, F.AFF_RET_REFRESH 1, F.AFF_RET_REFRESH 2, F.AFF_RET_REFRESH 3]) s t) ∧
    (∀ b, s.flash.ageAt + 60 * ticksPerSec ≤ s.time.mono → temps = [] → s.flash.bands = [b] → s.flash.blks = [] → b.isOpen = false → b.moving ≠ 0 → Completes s (.retentionAgeUpdate temps) fun t =>
      t.flash = { s.flash with ageAt := s.time.mono, bands := [{ b with age := b.age + (s.time.mono - s.flash.ageAt) * ageFactor ((b.members.map (fun m => (s.fld (F.FL_DIE_STATE_TEMP b.slice m.1) : Int) - 64)).foldl max (-64)) / (2 ^ 32 * ticksPerSec) }] } ∧ Only [.flash] [] s t)) ∧
  (∀ (s : State) (k : Nat), s.slicesUp = true →
    let days := max 1 (s.fld (F.AFF_PATROL_DAYS k))
    let idle := (s.flash.patrol.getD k []).isEmpty
    let overdue := s.flash.patrolAt.getD k 0 + 2 * (days * 86400) ≤ s.ftSec
    ((4 ≤ k ∨ (s.twFired k .window = false ∧ (idle = false ∨ ¬ overdue))) → Completes s (.maintenanceWindow k) fun t => Only [] [] s t) ∧
    (k < 4 → s.twFired k .window = false → idle = true → overdue → Completes s (.maintenanceWindow k) fun t => Only [] [] (s.startPatrol k) t) ∧
    (k < 4 → s.twFired k .window = true →
      let s1 := s.armWindow k
      let s2 := { s1 with flash.winUntil := s1.flash.winUntil.set k (s1.ftSec + s1.fld F.AFF_WIN_LEN) }
      let due := idle && decide (s1.flash.patrolAt.getD k 0 + days * 86400 ≤ s1.ftSec ∨ s1.fld (F.AFF_PATROL_PASS k) = 0)
      (due = false → Completes s (.maintenanceWindow k) fun t => Only [] [] (s2.levelWear k) t) ∧
      (due = true → Completes s (.maintenanceWindow k) fun t => Only [] [] ((s2.startPatrol k).levelWear k) t) ∧
      (s.fld F.AFF_WIN_LEN = 0 → due = false → s.flash.bands = [] → Completes s (.maintenanceWindow k) fun t => t.twFired k .window = false ∧
        t.flash = { s.flash with winUntil := s.flash.winUntil.set k s.ftSec }))) ∧
  (∀ (s : State), s.slicesUp = true →
    (s.boot.accWritten = none → Completes s .accTimeFloorWrite fun t => t.boot.accFloor = t.fld F.ACC_TIME_FLOOR ∧ t.boot.accWritten = some s.time.mono ∧
      s.fld F.ACC_TIME_FLOOR ≤ t.fld F.ACC_TIME_FLOOR ∧ Only [.boot] [F.ACC_TIME_FLOOR, F.ACC_TIME_TRUSTED] s t) ∧
    (∀ t0, s.boot.accWritten = some t0 → t0 + 3600 * ticksPerSec ≤ s.time.mono → Completes s .accTimeFloorWrite fun t => t.boot.accFloor = t.fld F.ACC_TIME_FLOOR ∧ t.boot.accWritten = some s.time.mono ∧
      s.fld F.ACC_TIME_FLOOR ≤ t.fld F.ACC_TIME_FLOOR ∧ Only [.boot] [F.ACC_TIME_FLOOR, F.ACC_TIME_TRUSTED] s t) ∧
    (∀ t0, s.boot.accWritten = some t0 → s.time.mono < t0 + 3600 * ticksPerSec → Completes s .accTimeFloorWrite fun t => t.boot = s.boot ∧ Only [] [F.ACC_TIME_FLOOR, F.ACC_TIME_TRUSTED] s t))

/-- The hold-up bank: samples, tests, and the save that a loss of power begins. A sample below 90 % of V_FULL while READY begins the save; any other is shown in HOLDUP_MV and HOLDUP_CHARGE_PCT, with the budget computed from it, and READY follows CHARGING at 95 %. A test begins 60 s after the start and then every 24 h, while READY or FAILED, and at no other time. Its end gives C_MEAS from the droop and the time of the test, and judges the bank: READY, or FAILED with TEST_FAIL_SEEN when C_MEAS is below 75 % of C_NOM or the bank did not recharge; without a test it changes nothing. PWRFAIL_N falling shows in PIN_STATUS and, while the device runs, begins the save; what is not committed is gone, and the device saves. The recharge level that makes the bank READY is the model's reading (log entry 40); a droop of zero gives no quotient, and C_MEAS is then a free value (log entry 19). -/
def Obligations.HoldupBankIsTested : Prop :=
  (∀ (s : State) (mv : Nat), s.running = true → mv < 2 ^ 16 →
    let full := s.bankParam 1
    let charged := s.holdup = 0 ∧ 0 < full ∧ full * 95 ≤ mv * 100
    (s.holdup = 1 → mv * 10 < full * 9 → Completes s (.holdupSample mv) fun t => t.flash.saving = true ∧ t.holdup = 4 ∧ t.flash.waiting = [] ∧ t.nv.appends = [] ∧ t.flash.buf = s.flash.buf) ∧
    ((s.holdup ≠ 1 ∨ full * 9 ≤ mv * 10) → ¬ charged → Completes s (.holdupSample mv) fun t => t.fld F.HOLDUP_MV = mv ∧ t.holdup = s.holdup ∧ t.fld F.HOLDUP_CHARGE_PCT = min 127 (100 * mv / max 1 full) ∧
      t.fld F.HOLDUP_BUDGET = s.bMax (mv - (if s.holdup = 2 then s.bankParam 5 * 100000 / max 1 s.capacity else 0)) ∧ Only [] [F.HOLDUP_MV, F.HOLDUP_CHARGE_PCT, F.HOLDUP_BUDGET] s t) ∧
    (charged → Completes s (.holdupSample mv) fun t => t.fld F.HOLDUP_MV = mv ∧ t.holdup = 1 ∧ t.fld F.HOLDUP_CHARGE_PCT = min 127 (100 * mv / max 1 full) ∧ t.fld F.HOLDUP_BUDGET = s.bMax mv ∧
      Only [] [F.HOLDUP_MV, F.HOLDUP_CHARGE_PCT, F.HOLDUP_BUDGET, F.HOLDUP_STATE] s t)) ∧
  (∀ (s : State), s.running = true →
    (s.holdup ≠ 1 → s.holdup ≠ 3 → Completes s .holdupTest fun t => Only [] [] s t) ∧
    ((s.holdup = 1 ∨ s.holdup = 3) →
      (s.flash.testAt = none → s.flash.startAt + 60 * ticksPerSec ≤ s.time.mono → Completes s .holdupTest fun t => t.holdup = 2 ∧ Only [] [F.HOLDUP_STATE, F.HOLDUP_BUDGET] s t) ∧
      (s.flash.testAt = none → s.time.mono < s.flash.startAt + 60 * ticksPerSec → Completes s .holdupTest fun t => Only [] [] s t) ∧
      (∀ t0, s.flash.testAt = some t0 → t0 + ticks24h ≤ s.time.mono → Completes s .holdupTest fun t => t.holdup = 2 ∧ Only [] [F.HOLDUP_STATE, F.HOLDUP_BUDGET] s t) ∧
      (∀ t0, s.flash.testAt = some t0 → s.time.mono < t0 + ticks24h → Completes s .holdupTest fun t => Only [] [] s t))) ∧
  (∀ (s : State) (droop : Nat) (recharged : Bool), s.running = true →
    let c := s.bankParam 5 * 100000 / droop
    let ends := [F.HOLDUP_STATE, F.HOLDUP_CMEAS, F.HOLDUP_LAST_TEST, F.HOLDUP_BUDGET]
    (s.holdup ≠ 2 → Completes s (.holdupTestEnd droop recharged) fun t => Only [] [] s t) ∧
    (s.holdup = 2 → droop = 0 → Completes s (.holdupTestEnd droop recharged) fun t => (t.holdup = 1 ∨ t.holdup = 3) ∧ (recharged = false → t.holdup = 3) ∧ t.flash = { s.flash with testAt := some s.time.mono } ∧
      Only [.flash, .keeperPend] (ends ++ [F.HOLDUP_INT_STATUS_TEST_FAIL_SEEN]) s t) ∧
    (s.holdup = 2 → droop ≠ 0 → c < 2 ^ 32 → recharged = false → Completes s (.holdupTestEnd droop recharged) fun t => t.holdup = 3 ∧ t.fld F.HOLDUP_CMEAS = c ∧
      t.on F.HOLDUP_INT_STATUS_TEST_FAIL_SEEN = true ∧ t.flash = { s.flash with testAt := some s.time.mono } ∧ Only [.flash, .keeperPend] (ends ++ [F.HOLDUP_INT_STATUS_TEST_FAIL_SEEN]) s t) ∧
    (s.holdup = 2 → droop ≠ 0 → c < 2 ^ 32 → recharged = true → 75 * s.bankParam 0 ≤ c * 100 → Completes s (.holdupTestEnd droop recharged) fun t => t.holdup = 1 ∧ t.fld F.HOLDUP_CMEAS = c ∧
      t.flash = { s.flash with testAt := some s.time.mono } ∧ Only [.flash] ends s t) ∧
    (s.holdup = 2 → droop ≠ 0 → c < 2 ^ 32 → recharged = true → c * 100 < 75 * s.bankParam 0 → Completes s (.holdupTestEnd droop recharged) fun t => t.holdup = 3 ∧ t.on F.HOLDUP_INT_STATUS_TEST_FAIL_SEEN = true)) ∧
  (∀ (s : State), (s.running = true → Completes s .pwrfailNFall fun t => t.on F.PIN_STATUS_PWRFAIL = true ∧ t.flash.saving = true ∧ t.holdup = 4 ∧ t.flash.waiting = [] ∧ t.nv.appends = [] ∧ t.flash.buf = s.flash.buf ∧
      t.flash.cells = s.flash.cells) ∧
    (s.running = false → Completes s .pwrfailNFall fun t => t.on F.PIN_STATUS_PWRFAIL = true ∧ Only [] [F.PIN_STATUS_PWRFAIL] s t))

/-- PCIe links, Bus Master Enable, resets, interrupts, read completions, gates and inbound requests. A link that trains, with DEV_READY high, shows L0, its speed, its width and its mode; one that cannot train so changes nothing. One that goes down shows Detect, or Hot Reset, and the functions on it are reset. Clearing Bus Master Enable, and entering D3hot, halt the function's work and tell its home; setting it, and leaving D3hot, send what is pending and tell the home again. A Function Level Reset begins with the time, with Bus Master Enable clear and INTx disabled, and ends with a fresh function whose gate is open, once its home has answered. A mask or a mode that the host writes takes effect, and pending messages go. A function that is absent or in reset takes none of these. A completion whose tag is free is counted as unexpected; one for a function that was reset is discarded; a good one brings its bytes, or none when its read was discarded; a refused or poisoned one has its read reissued or, its reissues exhausted, closes the gate with its cause. A read whose timer fires is counted, and its tag is quarantined; the quarantine ends when its time is over. PCIE_GATE_OPEN opens the gate of the instance it names. A configuration request to a function in reset is answered with Request Retry, one outside it is answered; a poisoned write is counted; a request to no BAR, or to memory of a sleeping function, is Unsupported, and in reset is only answered so; an error of the link is logged in every PF that the link carries. -/
def Obligations.PcieFunctionsAreGuarded : Prop :=
  (∀ (s : State) (l speed width rec : Nat) (flit : Bool), s.running = true →
    let trains := l < 4 ∧ s.on F.PIN_STATUS_DEV_READY = true ∧ s.linkState l ≠ 0 ∧ speed ≠ 0 ∧ speed ≤ 6 ∧ width ≠ 0 ∧ width ≤ s.linkWidth l ∧ (flit = true ∨ speed ≠ 6)
    (trains → Completes s (.pcieLinkUp l speed width flit rec) fun t =>
      t.linkState l = 3 ∧ t.fld (F.PCIE_LINK_STATE_SPEED l) = speed ∧ t.fld (F.PCIE_LINK_STATE_WIDTH l) = width ∧ t.on (F.PCIE_LINK_STATE_FLIT l) = flit ∧
      t.fld (F.PCIE_RECOVERIES l) = (s.fld (F.PCIE_RECOVERIES l) + rec) % 2 ^ (F.PCIE_RECOVERIES l).width ∧ t.boot.perstHigh.contains l = true ∧
      Only [.boot, .power] [F.PCIE_LINK_STATE_STATE l, F.PCIE_LINK_STATE_SPEED l, F.PCIE_LINK_STATE_WIDTH l, F.PCIE_LINK_STATE_FLIT l, F.PCIE_RECOVERIES l] s t) ∧
    (¬ trains → Completes s (.pcieLinkUp l speed width flit rec) fun t => Only [] [] s t)) ∧
  (∀ (s : State) (l : Nat) (hot perst : Bool), s.running = true →
    ((4 ≤ l ∨ s.linkState l = 0) → Completes s (.pcieLinkDown l hot perst) fun t => Only [] [] s t) ∧
    (l < 4 → s.linkState l ≠ 0 → Completes s (.pcieLinkDown l hot perst) fun t => t.linkState l = (if hot then 6 else 1) ∧ t.fld (F.PCIE_LINK_STATE_WIDTH l) = 0 ∧ t.fld (F.PCIE_LINK_STATE_SPEED l) = 0 ∧
      t.on F.PCIE_INT_STATUS_LINK_DOWN_SEEN = true ∧ (∀ i, i ∈ s.linkPfs l → (t.fnX i).flrSince = some s.time.mono)) ∧
    (l < 4 → s.linkState l ≠ 0 → s.linkPfs l = [] → Completes s (.pcieLinkDown l hot perst) fun t => (t.boot.perstHigh.contains l = true ↔ (s.boot.perstHigh.contains l = true ∧ perst = false)) ∧
      Only [.boot, .keeperPend] [F.PCIE_LINK_STATE_STATE l, F.PCIE_LINK_STATE_SPEED l, F.PCIE_LINK_STATE_WIDTH l, F.PCIE_LINK_STATE_FLIT l, F.PCIE_INT_STATUS_LINK_DOWN_SEEN] s t)) ∧
  (∀ (s : State) (i : Nat), s.running = true →
    let x := s.fnX i
    let off := s.fnReady i = false
    let ready := s.fnReady i = true
    let idle := fun (c : Instr) => Completes s c fun t => Only [] [] s t
    (off → idle (.busMasterEnableClear i) ∧ idle (.busMasterEnableSet i) ∧ idle (.d3hotEntry i) ∧ idle (.d3hotExit i) ∧ idle (.functionLevelReset i) ∧ (∀ d m mx, idle (.interruptModeWrite i d m mx)) ∧
      (∀ w n, idle (.msixUnmask i w n)) ∧ (∀ w v, idle (.fnIntxPendingClear i w v))) ∧
    (x.bme = false → idle (.busMasterEnableClear i)) ∧ (x.bme = true → idle (.busMasterEnableSet i)) ∧ (x.d3hot = true → idle (.d3hotEntry i)) ∧ (x.d3hot = false → idle (.d3hotExit i)) ∧
    (∀ n, vectorCount i ≤ n → idle (.msixUnmask i 0 n)) ∧ (∀ w n, 2 ≤ w → 32 ≤ n → idle (.msixUnmask i w n)) ∧ (∀ w v, 8 ≤ i ∨ 32 ≤ w → idle (.fnIntxPendingClear i w v)) ∧
    (ready → x.bme = true → Completes s (.busMasterEnableClear i) fun t => t.busMaster i = false ∧ (∀ r, r ∈ t.pcie.reads → r.fn = i → r.discard = true) ∧ (∀ e, e ∈ t.pcie.arrived → e.1 ≠ i) ∧
      Only [] [] (((s.setFnX i { x with bme := false }).haltWork i 2 .bmeCleared).controlHome i 1) t) ∧
    (ready → x.bme = false → Completes s (.busMasterEnableSet i) fun t => (t.fnX i).bme = true ∧ Only [] [] (((s.setFnX i { x with bme := true }).flushVectors i).controlHome i 2) t) ∧
    (ready → x.d3hot = false → Completes s (.d3hotEntry i) fun t => t.busMaster i = false ∧ (t.fnX i).bme = x.bme ∧ (∀ r, r ∈ t.pcie.reads → r.fn = i → r.discard = true) ∧
      Only [] [] (((s.setFnX i { x with d3hot := true }).haltWork i 2 .bmeCleared).controlHome i 1) t) ∧
    (ready → x.d3hot = true → x.bme = false → Completes s (.d3hotExit i) fun t => t.fnX i = { x with d3hot := false } ∧ Only [.pcie] [] s t) ∧
    (ready → x.d3hot = true → x.bme = true → Completes s (.d3hotExit i) fun t => (t.fnX i).d3hot = false ∧ Only [] [] (((s.setFnX i { x with d3hot := false }).flushVectors i).controlHome i 2) t) ∧
    (ready → Completes s (.functionLevelReset i) fun t => (t.fnX i).flrSince = some s.time.mono ∧ (t.fnX i).bme = false ∧ (t.fnX i).intDisable = true ∧ (∀ r, r ∈ t.pcie.reads → r.fn = i → r.discard = true ∧ r.flr = true) ∧
      Only [] [] (s.resetFunctions 1 [i]) t) ∧
    (ready → ∀ d m mx, Completes s (.interruptModeWrite i d m mx) fun t => (t.fnX i).intDisable = d ∧ (t.fnX i).msixEnable = mx ∧ (t.fnX i).msiEnable = (m && decide (i < 8)) ∧ (t.fnX i).bme = x.bme ∧
      Only [.pcie, .out] [F.FN_STATUS_INTX_ASSERTED i] s t) ∧
    (ready → ∀ n, n < vectorCount i → Completes s (.msixUnmask i 0 n) fun t => (t.msixEntry i n).mask = false ∧ (∀ m, m < 2048 → m ≠ n → t.msixEntry i m = s.msixEntry i m) ∧
      (t.pcie.pba.contains (2048 * i + n) = true → s.busMaster i = false ∨ x.msixEnable = false ∨ x.functionMask = true) ∧ Only [.pcie, .out] [] s t) ∧
    (ready → ∀ n, Completes s (.msixUnmask i 1 n) fun t => (t.fnX i).functionMask = false ∧ (t.fnX i).msixEnable = x.msixEnable ∧ Only [.pcie, .out] [] s t) ∧
    (ready → ∀ w n, 2 ≤ w → n < 32 → Completes s (.msixUnmask i w n) fun t => bitOf (t.fnX i).msiMask n = false ∧ (∀ m, m < 32 → m ≠ n → bitOf (t.fnX i).msiMask m = bitOf x.msiMask m) ∧ Only [.pcie, .out] [] s t) ∧
    (ready → ∀ w v, i < 8 → w < 32 → Completes s (.fnIntxPendingClear i w v) fun t => t.rd (R.FN_INTX_PENDING i w) = (s.rd (R.FN_INTX_PENDING i w) &&& ~~~v) ∧
      Only [.out] [F.FN_INTX_PENDING i w, F.FN_STATUS_INTX_ASSERTED i] s t)) ∧
  (∀ (s : State) (i : Nat), s.running = true →
    let waits := (s.anchorBinding i).any fun b => b.flrSent.isSome
    ((s.fnX i).flrSince = none ∨ waits = true ∨ s.linkTrained (s.instLink i) = false → Completes s (.flrComplete i) fun t => Only [] [] s t) ∧
    (i < 4104 → (s.fnX i).flrSince.isSome = true → waits = false → s.linkTrained (s.instLink i) = true → Completes s (.flrComplete i) fun t =>
      t.fnX i = {} ∧ t.on (F.FN_GATE_CLOSED i) = false ∧ (∀ v, v < 2048 → t.msixEntry i v = {}) ∧ (∀ j, j ≠ i → t.fnX j = s.fnX j) ∧ t.rings = s.rings)) ∧
  (∀ (s : State) (l tag i st : Nat) (d : List Byte) (h : List Nat), s.running = true →
    let found := s.pcie.reads.find? (fun r => decide (r.link = l ∧ r.tag = tag))
    (found = none → 4 ≤ l → Completes s (.pcieReadCompletion l tag i st d h) fun t => Only [] [] s t) ∧
    (found = none → l < 4 → Completes s (.pcieReadCompletion l tag i st d h) fun t => t.fld (F.PCIE_UNEXP_CPL l) = (s.fld (F.PCIE_UNEXP_CPL l) + 1) % 2 ^ (F.PCIE_UNEXP_CPL l).width ∧
      bitOf (t.fnX i).uncStatus aerUnexpected = true ∧ t.pcie.arrived = s.pcie.arrived ∧ t.pcie.reads = s.pcie.reads) ∧
    (found = none → Completes s (.completionTimeout l tag) fun t => Only [] [] s t) ∧
    (∀ r, found = some r →
      (r.flr = true → Completes s (.pcieReadCompletion l tag i st d h) fun t => t.fld (F.PCIE_FLR_DISCARD l) = (s.fld (F.PCIE_FLR_DISCARD l) + 1) % 2 ^ (F.PCIE_FLR_DISCARD l).width ∧
        t.pcie.arrived = s.pcie.arrived ∧ t.pcie.reads = s.pcie.reads.filter (fun x => !decide (x.link = r.link ∧ x.tag = r.tag))) ∧
      (r.flr = false → d.length ≠ r.len → Completes s (.pcieReadCompletion l tag i 0 d h) fun t => Only [] [] s t) ∧
      (r.flr = false → r.discard = true → d.length = r.len → Completes s (.pcieReadCompletion l tag i 0 d h) fun t => t.pcie.arrived = s.pcie.arrived ∧
        t.pcie.reads = s.pcie.reads.filter (fun x => !decide (x.link = r.link ∧ x.tag = r.tag)) ∧ t.mem = s.mem) ∧
      (r.flr = false → r.discard = false → d.length = r.len → Completes s (.pcieReadCompletion l tag i 0 d h) fun t => t.pcie.arrived = s.pcie.arrived ++ [(r.fn, r.addr, d)] ∧
        t.pcie.reads = s.pcie.reads.filter (fun x => !decide (x.link = r.link ∧ x.tag = r.tag)) ∧ t.mem = s.mem) ∧
      (r.flr = false → (st = 1 ∨ st = 2) → Completes s (.pcieReadCompletion l tag i st d h) fun t => Only [] [] (((s.takeRead r).incFld (F.PCIE_CPL_ERRORS l)).readFailed r (st + 1)) t) ∧
      (r.flr = false → 3 ≤ st → Completes s (.pcieReadCompletion l tag i st d h) fun t => Only [] [] ((((s.takeRead r).incFld (F.PCIE_POISON_RX l)).aerUnc r.fn aerPoisoned h false true).readFailed r 4) t) ∧
      (l < 4 → r.flr = false → r.discard = false → s.pcie.reads = [r] → r.slice < 4 → r.fn < 4104 → s.fld F.PCIE_REISSUE_LIMIT ≤ r.reissues → s.on (F.FN_GATE_CLOSED r.fn) = false → s.arb.tagGrants = [] → s.kra.qps = [] → s.isCtrl r.fn = false →
        s.srsWith (fun k q => decide (s.srInst k q = r.fn)) = [] → s.crsWith (fun k q => decide (s.crInst k q = r.fn)) = [] → s.anchorBinding r.fn = none → (st = 1 ∨ st = 2) → Completes s (.pcieReadCompletion l tag i st d h) fun t =>
        t.on (F.FN_GATE_CLOSED r.fn) = true ∧ t.fld (F.FN_GATE_CAUSE r.fn) = st + 1 ∧ t.busMaster r.fn = false ∧ t.on F.PCIE_INT_STATUS_GATE_CLOSED_SEEN = true ∧ t.pcie.reads = []) ∧
      (s.time.mono < r.due → Completes s (.completionTimeout l tag) fun t => Only [] [] s t) ∧
      (r.due ≤ s.time.mono →
        let till := s.time.mono + 4 * ctoTicks (s.fnX (s.pfOf r.fn)).cto
        let s1 : State := { s with pcie.quarantine := s.pcie.quarantine ++ [(l, tag, till)] }
        Completes s (.completionTimeout l tag) fun t => Only [] [] ((((s1.takeRead r).aerUnc r.fn aerTimeout [] false true).incFld (F.PCIE_CPL_TIMEOUTS l)).readFailed r 1) t) ∧
      (l < 4 → r.due ≤ s.time.mono → r.discard = true → Completes s (.completionTimeout l tag) fun t => t.pcie.quarantine = s.pcie.quarantine ++ [(l, tag, s.time.mono + 4 * ctoTicks (s.fnX (s.pfOf r.fn)).cto)] ∧
        t.fld (F.PCIE_CPL_TIMEOUTS l) = (s.fld (F.PCIE_CPL_TIMEOUTS l) + 1) % 2 ^ (F.PCIE_CPL_TIMEOUTS l).width ∧ t.pcie.reads = s.pcie.reads.filter (fun x => !decide (x.link = r.link ∧ x.tag = r.tag)))) ∧
    ((∀ n, n ≤ s.time.mono → (l, tag, n) ∉ s.pcie.quarantine) → Completes s (.tagQuarantineEnd l tag) fun t => Only [] [] s t) ∧
    ((∃ n, n ≤ s.time.mono ∧ (l, tag, n) ∈ s.pcie.quarantine) → Completes s (.tagQuarantineEnd l tag) fun t => (∀ n, n ≤ s.time.mono → (l, tag, n) ∉ t.pcie.quarantine) ∧
      (∀ q, q ∈ t.pcie.quarantine → q ∈ s.pcie.quarantine) ∧ Only [.pcie] [F.PCIE_TAGS_INUSE l, F.PCIE_TAGS_QUARANTINED l] s t)) ∧
  (∀ (s : State) (g : Agent) (v : Word), s.running = true →
    let n := bitsOf v.toNat 12 0
    ((accessOk R.PCIE_GATE_OPEN true g = false ∨ bitOf v.toNat 16 = false ∨ 4104 ≤ n) → Completes s (.pcieGateOpen g v) fun t => Only [] [] s t) ∧
    (accessOk R.PCIE_GATE_OPEN true g = true → bitOf v.toNat 16 = true → n < 4104 → Completes s (.pcieGateOpen g v) fun t => t.on (F.FN_GATE_CLOSED n) = false ∧ t.fld (F.FN_GATE_CAUSE n) = 0 ∧
      Only [] [F.FN_GATE_CLOSED n, F.FN_GATE_CAUSE n, F.FN_STATUS_GATE_CLOSED n, F.FN_STATUS_GATE_CAUSE n] s t)) ∧
  (∀ (s : State) (l i : Nat) (np : Bool) (h : List Nat), s.running = true →
    let resets := (s.fnX i).flrSince.isSome
    let answered := fun (st : Nat) (t : State) => t.out = s.out ++ (if np then [.pcieCpl l st 0] else []) ∧ Only [.power, .out] [F.PCIE_LINK_STATE_STATE l] s t
    (4 ≤ l → ∀ f tlp, Completes s (.inboundPcieRequest l f tlp np h) fun t => Only [] [] s t) ∧
    (l < 4 →
      Completes s (.inboundPcieRequest l (some i) .config np h) (answered (if resets then 2 else 0)) ∧
      (resets = true → Completes s (.inboundPcieRequest l (some i) .memory np h) (answered 1) ∧ Completes s (.inboundPcieRequest l (some i) .noBar np h) (answered 1)) ∧
      (resets = false → (s.fnX i).d3hot = false → Completes s (.inboundPcieRequest l (some i) .memory np h) fun t => t.out = s.out ∧ Only [.power] [F.PCIE_LINK_STATE_STATE l] s t) ∧
      Completes s (.inboundPcieRequest l (some i) .poisonedWrite np h) (fun t => t.fld (F.PCIE_POISON_RX l) = (s.fld (F.PCIE_POISON_RX l) + 1) % 2 ^ (F.PCIE_POISON_RX l).width ∧
        bitOf (t.fnX i).uncStatus aerPoisoned = true ∧ t.mem = s.mem ∧ t.rings = s.rings) ∧
      (resets = false → Completes s (.inboundPcieRequest l (some i) .noBar true h) fun t => bitOf (t.fnX i).uncStatus aerUnsupported = true ∧ (∃ o, t.out = o ++ [.pcieCpl l 1 0])) ∧
      (resets = false → (s.fnX i).d3hot = true → Completes s (.inboundPcieRequest l (some i) .memory true h) fun t => bitOf (t.fnX i).uncStatus aerUnsupported = true ∧ (∃ o, t.out = o ++ [.pcieCpl l 1 0])) ∧
      (∀ f p, p ∈ s.linkPfs l →
        Completes s (.inboundPcieRequest l f .malformed np h) (fun t => bitOf (t.fnX p).uncStatus aerMalformed = true ∧ t.mem = s.mem ∧ t.rings = s.rings) ∧
        Completes s (.inboundPcieRequest l f .ecrc np h) (fun t => bitOf (t.fnX p).uncStatus aerEcrc = true ∧ t.mem = s.mem) ∧
        Completes s (.inboundPcieRequest l f .dataLink np h) (fun t => bitOf (t.fnX p).uncStatus aerDataLink = true ∧ t.mem = s.mem) ∧
        Completes s (.inboundPcieRequest l f .badTlp np h) (fun t => bitOf (t.fnX p).corStatus 6 = true ∧ t.mem = s.mem) ∧
        Completes s (.inboundPcieRequest l f .replayTimer np h) (fun t => bitOf (t.fnX p).corStatus 12 = true ∧ t.mem = s.mem))))

/-- Instance states, translation, invalidation and the fault queue. ENABLE written 1 makes a disabled instance ENABLED; 0 discards its work, and it is DISABLED, with a loss report where work was cut. With nothing in flight a quiescing instance is QUIESCED; past the limit its command is answered with what is still in flight. A walk answers as translation says and changes neither memory nor rings; a leaf that is cached and allows the access counts ITU_HITS. An invalidation drops exactly its entries from every slice and sets BUSY; one written while BUSY is ignored; it is done when the accesses translated before it have retired. The host's ATS answer is cached in the entries that lead to its page. An ATS invalidation drops the cached answers, counts in every slice and is completed when the function's translated reads are over. A pop moves the oldest fault record into INST_FAULT_REC. A write that the register does not take changes nothing. -/
def Obligations.InstancesAndTranslation : Prop :=
  (∀ (s : State) (g : Agent) (i : Nat), s.slicesUp = true →
    let takes := s.instWritable (R.INST_CFG i) g i
    let cut := (s.setFld (F.INST_CFG_ENABLE i) 0).discardInst i
    let quiet := cut.quiesceReply i St.INSTANCE_STATE_INVALID 0
    (takes = false → Completes s (.instanceEnable g i) (fun t => Only [] [] s t) ∧ Completes s (.instanceDisable g i) (fun t => Only [] [] s t)) ∧
    (takes = true →
      (s.instState i = instDisabled → Completes s (.instanceEnable g i) fun t => t.instState i = instEnabled ∧ t.on (F.INST_CFG_ENABLE i) = true ∧ Only [] [F.INST_CFG_ENABLE i, F.INST_CFG_STATE i] s t) ∧
      (s.instState i ≠ instDisabled → Completes s (.instanceEnable g i) fun t => t.instState i = s.instState i ∧ t.on (F.INST_CFG_ENABLE i) = true ∧ Only [] [F.INST_CFG_ENABLE i] s t) ∧
      (s.instState i = instDisabled → Completes s (.instanceDisable g i) fun t => t.on (F.INST_CFG_ENABLE i) = false ∧ Only [] [F.INST_CFG_ENABLE i] s t) ∧
      ((s.instState i = instEnabled ∨ s.instState i = instQuiescing) → s.cutRecs i = [] → Completes s (.instanceDisable g i) fun t => t.instState i = instDisabled ∧ Only [] [] quiet t) ∧
      ((s.instState i = instEnabled ∨ s.instState i = instQuiescing) → s.cutRecs i ≠ [] → Completes s (.instanceDisable g i) fun t => t.instState i = instDisabled ∧ Only [] [] (quiet.lossReport i 6 .removed (s.cutRecs i)) t) ∧
      (s.instState i ≠ instDisabled → s.instState i ≠ instEnabled → s.instState i ≠ instQuiescing → Completes s (.instanceDisable g i) fun t => t.instState i = instDisabled ∧ Only [] [] cut t))) ∧
  (∀ (s : State) (i : Nat), s.slicesUp = true →
    let due := (s.instX i).quiesceAt + s.fld F.INST_QUIESCE_LIMIT * ticksPerUs
    (s.instState i ≠ instQuiescing ∨ s.inFlight i ≠ 0 → Completes s (.quiesceDone i) fun t => Only [] [] s t) ∧
    (i < 4104 → s.instState i = instQuiescing → s.inFlight i = 0 → Completes s (.quiesceDone i) fun t => t.instState i = instQuiesced ∧ (t.instX i).quiesceWaits = false) ∧
    (i < 4104 → s.instState i = instQuiescing → s.inFlight i = 0 → (s.instX i).quiesceWaits = false → Completes s (.quiesceDone i) fun t => Only [.inst] [F.INST_CFG_STATE i] s t) ∧
    (i < 4104 → s.instState i = instQuiescing → (s.instX i).quiesceWaits = true → due ≤ s.time.mono → Completes s (.instQuiesceLimit i) fun t => t.instState i = instQuiescing ∧
      (t.instX i).quiesceWaits = false ∧ Only [] [] (s.quiesceReply i St.QUIESCE_TIMEOUT (s.inFlight i)) t) ∧
    (s.instState i ≠ instQuiescing ∨ (s.instX i).quiesceWaits = false ∨ s.time.mono < due → Completes s (.instQuiesceLimit i) fun t => Only [] [] s t)) ∧
  (∀ (s : State) (k i u ia : Nat) (w : Bool), s.slicesUp = true →
    (4 ≤ k ∨ 4104 ≤ i ∨ 7 ≤ u → Completes s (.tableWalk k i u ia w) fun t => Only [] [] s t) ∧
    (k < 4 → i < 4104 → u < 7 → Completes s (.tableWalk k i u ia w) fun t => Only [] [] (s.xlate k i ia w u).1 t ∧ t.mem = s.mem ∧ t.rings = s.rings) ∧
    (∀ e, k < 4 → i < 4104 → u < 7 → s.iotlb k = [e] → e.covers i ia = true → e.target = 0 → (if w then e.write else e.read) = true → s.instState i ≠ instDisabled → ia < 2 ^ s.log2Space i → Completes s (.tableWalk k i u ia w) fun t =>
      t.fld (F.ITU_HITS k) = (s.fld (F.ITU_HITS k) + 1) % 2 ^ (F.ITU_HITS k).width ∧ t.iotlb k = [e] ∧ Only [.inst] [F.ITU_HITS k, F.ITU_ENTRIES k] s t)) ∧
  (∀ (s : State) (g : Agent), s.slicesUp = true →
    let busy := s.on F.INST_INVAL_STATUS_BUSY
    let takes := accessOk R.INST_INVAL_CMD true g
    let after := fun (p : Iotlb → Bool) (t : State) => t.on F.INST_INVAL_STATUS_BUSY = true ∧ (∀ k, k < 4 → t.iotlb k = (s.iotlb k).filter (fun e => !p e)) ∧
      Only [.inst] [F.INST_INVAL_STATUS_BUSY, F.ITU_ENTRIES 0, F.ITU_ENTRIES 1, F.ITU_ENTRIES 2, F.ITU_ENTRIES 3] s t
    (busy = true ∨ takes = false → (∀ i, Completes s (.invalidateInstance g i) (fun t => Only [] [] s t) ∧ Completes s (.invalidateRegion g i) (fun t => Only [] [] s t)) ∧
      Completes s (.invalidateAll g) (fun t => Only [] [] s t)) ∧
    (busy = false → takes = true →
      (∀ i, Completes s (.invalidateInstance g i) (after (fun e => decide (e.inst = i)))) ∧
      (∀ i, Completes s (.invalidateRegion g i) (after (fun e => decide (e.inst = i ∧ e.page / 512 = s.fld F.INST_INVAL_ADDR / 512)))) ∧
      Completes s (.invalidateAll g) (after (fun _ => true)))) ∧
  (∀ (s : State), s.slicesUp = true →
    (s.inst.inval = none → Completes s .invalidationDone fun t => Only [] [] s t) ∧
    (∀ frames, s.inst.inval = some ([], frames) → (∀ f a, f ∈ frames → a ∈ s.kra.accesses → a.frame = f → a.stage ≠ 2) → Completes s .invalidationDone fun t =>
      t.inst = { s.inst with inval := none } ∧ t.on F.INST_INVAL_STATUS_BUSY = false ∧ Only [.inst] [F.INST_INVAL_STATUS_BUSY] s t) ∧
    (∀ frames a, s.inst.inval = some ([], frames) → a ∈ s.kra.accesses → a.frame ∈ frames → a.stage = 2 → Completes s .invalidationDone fun t => Only [] [] s t) ∧
    (∀ r rs frames, s.inst.inval = some (r :: rs, frames) → Completes s .invalidationDone fun t => Only [] [] s t)) ∧
  (∀ (s : State) (k i page tr : Nat) (rd wr : Bool), s.running = true →
    let asked := fun (w : Nat × Nat × Nat × Nat) => decide (w.1 = k ∧ w.2.1 = i ∧ w.2.2.2 = page)
    (s.inst.atsWait.filter asked = [] → Completes s (.atsTranslationCompletion k i page tr rd wr) fun t => Only [] [] s t) ∧
    (k < 4 → s.inst.atsWait.filter asked ≠ [] → Completes s (.atsTranslationCompletion k i page tr rd wr) fun t => t.inst.atsWait = s.inst.atsWait.filter (fun w => !asked w) ∧
      (∀ j, j < 4 → j ≠ k → t.iotlb j = s.iotlb j) ∧ (t.iotlb k).length = (s.iotlb k).length ∧ Only [.inst] [F.ITU_ENTRIES k] s t) ∧
    (∀ e ia, k < 4 → s.inst.atsWait = [(k, i, ia, page)] → s.iotlb k = [e] → e.covers i (4096 * ia) = true → Completes s (.atsTranslationCompletion k i page tr rd wr) fun t => t.inst.atsWait = [] ∧
      t.iotlb k = [{ e with ats := (ia, tr / 4096 * 4096, rd, wr) :: e.ats }] ∧ Only [.inst] [F.ITU_ENTRIES k] s t)) ∧
  (∀ (s : State) (l i a n : Nat), s.running = true → s.inst.iotlb.length = 4 →
    let users := (s.pcie.reads.filter (fun r => decide (r.fn = i) && r.translated)).map (fun r => (r.link, r.tag))
    let dropped := fun (t : State) => (∀ k e x, k < 4 → e ∈ t.iotlb k → e.inst = i → x ∈ e.ats → a + n ≤ e.output (4096 * x.1) ∨ e.output (4096 * x.1) + 4096 ≤ a) ∧
      (∀ k, k < 4 → t.fld (F.ITU_ATS_INVAL k) = (s.fld (F.ITU_ATS_INVAL k) + 1) % 2 ^ (F.ITU_ATS_INVAL k).width)
    (4 ≤ l → Completes s (.atsInvalidation l i a n) fun t => Only [] [] s t) ∧
    (l < 4 → users = [] → Completes s (.atsInvalidation l i a n) fun t => t.out = s.out ++ [.atsInvalDone l i] ∧ dropped t) ∧
    (l < 4 → users ≠ [] → Completes s (.atsInvalidation l i a n) fun t => t.out = s.out ∧ t.inst.atsInval = s.inst.atsInval ++ [(l, i, users)] ∧ dropped t)) ∧
  (∀ (s : State) (g : Agent), s.slicesUp = true →
    (accessOk R.INST_FAULT_POP true g = false ∨ s.inst.faults = [] → Completes s (.instFaultPop g) fun t => Only [] [] s t) ∧
    (∀ f rest, accessOk R.INST_FAULT_POP true g = true → s.inst.faults = f :: rest → rest.length < 2 ^ (F.INST_FAULT_COUNT).width →
      Completes s (.instFaultPop g) fun t => t.inst = { s.inst with faults := rest } ∧ t.fld F.INST_FAULT_COUNT = rest.length ∧ (∀ u, u < 4 → t.rd (R.INST_FAULT_REC u) = BitVec.ofNat 64 (f.words.getD u 0)) ∧
      Only [.inst] [F.INST_FAULT_REC 0, F.INST_FAULT_REC 1, F.INST_FAULT_REC 2, F.INST_FAULT_REC 3, F.INST_FAULT_COUNT] s t))

/-- Management commands are checked, queued, claimed, answered and timed out. A MGMT_CMD job with less than 32 bytes for its reply ends with MGMT_LENGTH_INVALID; one whose buffer cannot be read ends with that status; one that fails a check of R506 is answered with it, one for another member is relayed, and one that passes and stays here is queued, with its clock started; in Recovery the Recovery ring's head is taken instead. While four MCTP replies wait, no other is made. An MCTP command is queued, or answered with the check that fails, with MGMT_BUSY when four wait, with FED_UNREACHABLE when its target cannot be reached; one for another member is relayed. A relayed command is queued. A relayed reply goes where its command came from, or is late. With no holder the Annex claims first; a waiting Annex command of another holder's slot becomes BUSY. The holder's reply leaves, and the slot is free. A command whose clock has run out is answered with MGMT_TIMEOUT. The oldest MCTP reply is sent, tried again, or lost after three failures. Downloads unread for 60 s are released. -/
def Obligations.ManagementCommandsAreRouted : Prop :=
  (∀ (s : State) (k q : Nat), s.running = true → s.boot.romPending = false →
    (s.boot.recovery = true → Completes s (.mgmtCmd k q) fun t => Only [] [] s.rcvCommand t) ∧
    (s.boot.recovery = false → s.jobFor k q 0x30 = none → Completes s (.mgmtCmd k q) fun t => Only [] [] s t)) ∧
  (∀ (s : State) (k q : Nat) (j : RJob), s.running = true → s.boot.romPending = false → s.boot.recovery = false → s.jobFor k q 0x30 = some j →
    (j.dw 3 % 2 ^ 32 < 32 → Completes s (.mgmtCmd k q) fun t => JobEnds s t j St.MGMT_LENGTH_INVALID 0 false [] []) ∧
    (∀ s1 st, 32 ≤ j.dw 3 % 2 ^ 32 → s.dmaGather k 0 (s.jobOp 0 j) j.bufs = (s1, .fail st) → Completes s (.mgmtCmd k q) fun t => JobEnds s1 t j st 0 false [] []) ∧
    (∀ s1, 32 ≤ j.dw 3 % 2 ^ 32 → s.dmaGather k 0 (s.jobOp 0 j) j.bufs = (s1, .wait) → Completes s (.mgmtCmd k q) fun t => Only [] [] s1 t) ∧
    (∀ s1 p, 32 ≤ j.dw 3 % 2 ^ 32 → s.dmaGather k 0 (s.jobOp 0 j) j.bufs = (s1, .ok p) →
      let c : MgmtCmd := { mgmtParse p with job := some (k, q, j.id), replyAddr := j.dw 2, replyMax := j.dw 3 % 2 ^ 32 }
      let taken := fun (t : State) => (t.jobById k q j.id).elim t (fun x => t.setJob { x with taken := true })
      (∀ st, s1.mgmtCheck 0 (s1.goesOut p) p = some st → Completes s (.mgmtCmd k q) fun t => Only [] [] (s1.answerNow c st 0 (fun u => taken (u.incFld F.MGMT_REJECTS))) t) ∧
      (s1.mgmtCheck 0 (s1.goesOut p) p = none → s1.goesOut p = true → s1.relayable (packetTarget p) = true → Completes s (.mgmtCmd k q) fun t => Only [] [] ((taken s1).relayOut c p) t) ∧
      (s1.mgmtCheck 0 (s1.goesOut p) p = none → s1.goesOut p = true → s1.relayable (packetTarget p) = false → Completes s (.mgmtCmd k q) fun t => Only [] [] (s1.answerNow c St.FED_UNREACHABLE 0 taken) t)) ∧
    (∀ s1 p, 32 ≤ j.dw 3 % 2 ^ 32 → s.dmaGather k 0 (s.jobOp 0 j) j.bufs = (s1, .ok p) → s1.mgmtCheck 0 (s1.goesOut p) p = none → s1.goesOut p = false → Completes s (.mgmtCmd k q) fun t =>
      t.mgmt.queue = s1.mgmt.queue ++ [{ mgmtParse p with job := some (k, q, j.id), replyAddr := j.dw 2, replyMax := j.dw 3 % 2 ^ 32, passedAt := s1.time.mono, annexAt := s1.mgmt.annexTicks }] ∧
      t.mgmt.holder = s1.mgmt.holder ∧ (∀ x, s1.jobById k q j.id = some x → t.rings = (s1.setJob { x with taken := true }).rings) ∧ Only [.mgmt, .rings] [] s1 t)) ∧
  (∀ (s : State) (bus : Nat) (p : List Byte), s.running = true → s.boot.romPending = false → (2 ≤ bus ∨ 65569 < p.length) → Completes s (.mctpCommand bus p) fun t => Only [] [] s t) ∧
  (∀ (s : State) (bus : Nat) (p : List Byte), s.running = true → s.boot.romPending = false → bus < 2 → p.length ≤ 65569 →
    let c : MgmtCmd := { mgmtParse p with route := routeMctp, bus := bus }
    let c1 : MgmtCmd := { c with passedAt := s.time.mono, annexAt := s.mgmt.annexTicks }
    let reply := fun (st : Nat) => (bus, mctpVendor ++ s.replyPacket c (mkReply st [] 0), 0)
    (∀ st, s.mgmtCheck 1 (s.goesOut p) p = some st → s.mgmt.mctpOut.length < 4 → Completes s (.mctpCommand bus p) fun t => t.mgmt = { s.mgmt with mctpOut := s.mgmt.mctpOut ++ [reply st] } ∧
      t.fld F.MGMT_REJECTS = (s.fld F.MGMT_REJECTS + 1) % 2 ^ (F.MGMT_REJECTS).width ∧ Only [.mgmt] [F.MGMT_REJECTS] s t) ∧
    (4 ≤ s.mgmt.mctpOut.length →
      (∀ st, s.mgmtCheck 1 (s.goesOut p) p = some st → Completes s (.mctpCommand bus p) fun t => Only [] [] s t) ∧
      (s.mgmtCheck 1 (s.goesOut p) p = none → s.goesOut p = false → 4 ≤ (s.mgmt.queue.filter (fun x => decide (x.route = 1))).length → Completes s (.mctpCommand bus p) fun t => Only [] [] s t) ∧
      (s.mgmtCheck 1 (s.goesOut p) p = none → s.goesOut p = true → s.relayable (packetTarget p) = false → Completes s (.mctpCommand bus p) fun t => Only [] [] s t)) ∧
    (s.mgmtCheck 1 (s.goesOut p) p = none →
      (s.goesOut p = false → (s.mgmt.queue.filter (fun x => decide (x.route = 1))).length < 4 → Completes s (.mctpCommand bus p) fun t => t.mgmt = { s.mgmt with queue := s.mgmt.queue ++ [c1] } ∧ Only [.mgmt] [] s t) ∧
      (s.goesOut p = false → 4 ≤ (s.mgmt.queue.filter (fun x => decide (x.route = 1))).length → s.mgmt.mctpOut.length < 4 → Completes s (.mctpCommand bus p) fun t =>
        t.mgmt = { s.mgmt with mctpOut := s.mgmt.mctpOut ++ [reply St.MGMT_BUSY] } ∧ t.fld F.MGMT_MCTP_BUSY = min (s.fld F.MGMT_MCTP_BUSY + 1) (2 ^ (F.MGMT_MCTP_BUSY).width - 1) ∧ Only [.mgmt] [F.MGMT_MCTP_BUSY] s t) ∧
      (s.goesOut p = true → s.relayable (packetTarget p) = false → s.mgmt.mctpOut.length < 4 → Completes s (.mctpCommand bus p) fun t =>
        t.mgmt = { s.mgmt with mctpOut := s.mgmt.mctpOut ++ [reply St.FED_UNREACHABLE] } ∧ Only [.mgmt] [] s t) ∧
      (s.goesOut p = true → s.relayable (packetTarget p) = true → Completes s (.mctpCommand bus p) fun t => t.mgmt.queue = s.mgmt.queue ∧ t.mgmt.mctpOut = s.mgmt.mctpOut ∧
        t.mgmt.relays = s.mgmt.relays ++ [{ ref := s.mgmt.nextRef, target := packetTarget p, cmd := c1 }]))) ∧
  (∀ (s : State) (o ref route : Nat) (p : List Byte), s.running = true → s.boot.romPending = false →
    (s.boot.recovery = true ∨ s.fedState = fedAlone → Completes s (.relayCommand o ref route p) fun t => Only [] [] s t) ∧
    (∀ st, s.boot.recovery = false → s.fedState ≠ fedAlone → s.mgmtCheck route true p = some st → Completes s (.relayCommand o ref route p) fun t =>
      Only [] [] ((s.incFld F.MGMT_RELAYED_IN).answerNow { mgmtParse p with route := routeRelay, origin := o, originRef := ref } st 0 (fun u => u.incFld F.MGMT_REJECTS)) t) ∧
    (s.boot.recovery = false → s.fedState ≠ fedAlone → s.mgmtCheck route true p = none → Completes s (.relayCommand o ref route p) fun t => t.mgmt = { s.mgmt with queue := s.mgmt.queue ++ [{ mgmtParse p with route := routeRelay, origin := o, originRef := ref, passedAt := s.time.mono, annexAt := s.mgmt.annexTicks }] } ∧
      t.fld F.MGMT_RELAYED_IN = (s.fld F.MGMT_RELAYED_IN + 1) % 2 ^ (F.MGMT_RELAYED_IN).width ∧ Only [.mgmt] [F.MGMT_RELAYED_IN] s t)) ∧
  (∀ (s : State) (ref : Nat) (p : List Byte), s.running = true → s.boot.romPending = false →
    (takeFirst (fun (r : RelayOut) => decide (r.ref = ref)) s.mgmt.relays = none → Completes s (.relayReply ref p) fun t => t.mgmt = s.mgmt ∧
      t.fld F.MGMT_LATE_REPLY = min (s.fld F.MGMT_LATE_REPLY + 1) (2 ^ (F.MGMT_LATE_REPLY).width - 1) ∧ Only [] [F.MGMT_LATE_REPLY] s t) ∧
    (∀ r rest s1, takeFirst (fun (r : RelayOut) => decide (r.ref = ref)) s.mgmt.relays = some (r, rest) → s.deliver r.cmd p = (s1, true) → Completes s (.relayReply ref p) fun t =>
      t.mgmt = { s1.mgmt with relays := rest } ∧ Only [.mgmt] [] s1 t) ∧
    (∀ r rest s1, takeFirst (fun (r : RelayOut) => decide (r.ref = ref)) s.mgmt.relays = some (r, rest) → s.deliver r.cmd p = (s1, false) → Completes s (.relayReply ref p) fun t => Only [] [] s1 t) ∧
    (takeFirst (fun (r : RelayOut) => decide (r.ref = ref)) s.mgmt.relays = none → Completes s (.relayTimeout ref) fun t => Only [] [] s t) ∧
    (∀ r rest, takeFirst (fun (r : RelayOut) => decide (r.ref = ref)) s.mgmt.relays = some (r, rest) → s.timeoutOf r.cmd + 10 * ticksPerMs ≤ s.clockOf r.cmd → Completes s (.relayTimeout ref) fun t =>
      Only [] [] (s.answerNow r.cmd St.MGMT_TIMEOUT 1 (fun u => State.satFld { u with mgmt.relays := rest } (F.MGMT_TIMEOUTS r.cmd.route) 1)) t) ∧
    (∀ r rest, takeFirst (fun (r : RelayOut) => decide (r.ref = ref)) s.mgmt.relays = some (r, rest) → s.clockOf r.cmd < s.timeoutOf r.cmd + 10 * ticksPerMs → Completes s (.relayTimeout ref) fun t => Only [] [] s t) ∧
    (∀ r rest, takeFirst (fun (r : RelayOut) => decide (r.ref = ref)) s.mgmt.relays = some (r, rest) → s.timeoutOf r.cmd + 10 * ticksPerMs ≤ s.clockOf r.cmd → r.cmd.route = 1 → s.mgmt.mctpOut.length < 4 →
      Completes s (.relayTimeout ref) fun t => t.mgmt = { s.mgmt with relays := rest, mctpOut := s.mgmt.mctpOut ++ [(r.cmd.bus, mctpVendor ++ s.replyPacket r.cmd (mkReply St.MGMT_TIMEOUT [] 1), 0)] } ∧
      Only [.mgmt] [F.MGMT_TIMEOUTS 1] s t)) ∧
  (∀ (s : State), s.running = true → s.boot.romPending = false →
    (s.mgmt.holder = none →
      (∀ c rest, oldestOf s.mgmt.queue 2 = some (c, rest) → Completes s .intakeClaim fun t => t.mgmt = { s.mgmt with queue := rest, holder := some { cmd := c } } ∧ t.fld F.ANX_STATUS_STATE = 2 ∧
        t.fld F.MGMT_SLOT_HELD = 1 ∧ t.fld F.MGMT_SLOT_ROUTE = 2 ∧
        Only [.mgmt] [F.MGMT_CMDS 2, F.MGMT_WAIT_MAX 2, F.MGMT_SLOT_ROUTE, F.MGMT_SLOT_HELD, F.MGMT_SLOT_OPCODE, F.ANX_STATUS_STATE, F.ANX_CMDS] s t) ∧
      (∀ c rest, oldestOf s.mgmt.queue 2 = none → (rotation s.mgmt.lastRoute).findSome? (oldestOf s.mgmt.queue) = some (c, rest) → Completes s .intakeClaim fun t =>
        t.mgmt = { s.mgmt with queue := rest, holder := some { cmd := c }, lastRoute := c.route } ∧ t.fld F.MGMT_SLOT_HELD = 1 ∧ t.fld F.MGMT_SLOT_ROUTE = c.route ∧
        Only [.mgmt] [F.MGMT_CMDS c.route, F.MGMT_WAIT_MAX c.route, F.MGMT_SLOT_ROUTE, F.MGMT_SLOT_HELD, F.MGMT_SLOT_OPCODE] s t) ∧
      ((2 :: rotation s.mgmt.lastRoute).findSome? (oldestOf s.mgmt.queue) = none → Completes s .intakeClaim fun t => Only [] [] s t) ∧ Completes s .slotRelease (fun t => Only [] [] s t)) ∧
    (∀ h, s.mgmt.holder = some h → (h.cmd.route = 2 ∨ oldestOf s.mgmt.queue 2 = none) → Completes s .intakeClaim fun t => Only [] [] s t) ∧
    (∀ h r, s.mgmt.holder = some h → h.reply = some r →
      let drops := h.cmd.route = 2 ∧ s.pcie.annex.discarded = true
      (h.delivered = true → (h.cmd.route = 2 ∨ s.jobOpen h.cmd = true) → Completes s .slotRelease fun t => Only [] [] s t) ∧
      (h.delivered = false → drops → Completes s .slotRelease fun t => Only [] [] (State.afterReply { s.freeIntake with pcie.annex := {} } r) t ∧ t.mgmt.holder = none) ∧
      (∀ s1, h.delivered = false → ¬ drops → s.answer h.cmd r = (s1, false) → Completes s .slotRelease fun t => Only [] [] s1 t) ∧
      (∀ s1, h.delivered = false → ¬ drops → s.answer h.cmd r = (s1, true) → (h.cmd.route = 2 ∨ (s1.afterReply r).jobOpen h.cmd = true) → Completes s .slotRelease fun t =>
        Only [] [] { s1.afterReply r with mgmt.holder := some { h with delivered := true } } t) ∧
      (∀ s1, h.delivered = false → ¬ drops → s.answer h.cmd r = (s1, true) → h.cmd.route ≠ 2 → (s1.afterReply r).jobOpen h.cmd = false → Completes s .slotRelease fun t =>
        Only [] [] (s1.afterReply r).freeIntake t ∧ t.mgmt.holder = none)) ∧
    (∀ h c rest, s.mgmt.holder = some h → h.cmd.route ≠ 2 → oldestOf s.mgmt.queue 2 = some (c, rest) → Completes s .intakeClaim fun t => t.mgmt = { s.mgmt with queue := rest } ∧ t.fld F.ANX_STATUS_STATE = 4 ∧
      Only [.mgmt] [F.ANX_STATUS_STATE, F.ANX_BUSY] s t) ∧
    (∀ h, s.mgmt.holder = some h → h.reply = none → Completes s .slotRelease fun t => Only [] [] s t) ∧
    (∀ h r, s.mgmt.holder = some h → h.reply = some r → h.delivered = false → h.cmd.route = 1 → h.cmd.job = none → r.resets = false → r.item = none → s.mgmt.mctpOut.length < 4 → Completes s .slotRelease fun t =>
      t.mgmt = { s.mgmt with holder := none, mctpOut := s.mgmt.mctpOut ++ [(h.cmd.bus, mctpVendor ++ s.replyPacket h.cmd r, 0)] } ∧ t.rd R.MGMT_SLOT = 0 ∧ Only [.mgmt] [⟨R.MGMT_SLOT, 0, 64⟩] s t) ∧
    (∀ h r, s.mgmt.holder = some h → h.reply = some r → h.delivered = true → h.cmd.route ≠ 2 → s.jobOpen h.cmd = false → Completes s .slotRelease fun t =>
      t.mgmt = { s.mgmt with holder := none } ∧ t.rd R.MGMT_SLOT = 0 ∧ Only [.mgmt] [⟨R.MGMT_SLOT, 0, 64⟩] s t) ∧
    Completes s (.mgmtCommandTimeout 2) (fun t => Only [] [] s t) ∧
    (∀ n, n ≠ 2 → takeFirst (fun c => decide (c.route = n ∧ s.timeoutOf c ≤ s.clockOf c)) s.mgmt.queue = none → Completes s (.mgmtCommandTimeout n) fun t => Only [] [] s t) ∧
    (∀ n c rest, n ≠ 2 → takeFirst (fun c => decide (c.route = n ∧ s.timeoutOf c ≤ s.clockOf c)) s.mgmt.queue = some (c, rest) → Completes s (.mgmtCommandTimeout n) fun t =>
      Only [] [] (s.answerNow c St.MGMT_TIMEOUT 0 (fun u => State.raise (State.satFld { u with mgmt.queue := rest } (F.MGMT_TIMEOUTS n) 1) F.MGMT_INT_STATUS_TIMEOUT_SEEN R.MGMT_INT_ENABLE)) t) ∧
    (∀ ok, s.mgmt.mctpOut = [] → Completes s (.mctpReplyRetry ok) fun t => Only [] [] s t) ∧
    (∀ c rest, takeFirst (fun c => decide (c.route = 1 ∧ s.timeoutOf c ≤ s.clockOf c)) s.mgmt.queue = some (c, rest) → s.mgmt.mctpOut.length < 4 → Completes s (.mgmtCommandTimeout 1) fun t =>
      t.mgmt = { s.mgmt with queue := rest, mctpOut := s.mgmt.mctpOut ++ [(c.bus, mctpVendor ++ s.replyPacket c (mkReply St.MGMT_TIMEOUT [] 0), 0)] } ∧
      t.fld (F.MGMT_TIMEOUTS 1) = min (s.fld (F.MGMT_TIMEOUTS 1) + 1) (2 ^ (F.MGMT_TIMEOUTS 1).width - 1) ∧ t.on F.MGMT_INT_STATUS_TIMEOUT_SEEN = true ∧
      Only [.mgmt, .keeperPend] [F.MGMT_TIMEOUTS 1, F.MGMT_INT_STATUS_TIMEOUT_SEEN] s t) ∧
    (∀ bus m n rest, s.mgmt.mctpOut = (bus, m, n) :: rest →
      Completes s (.mctpReplyRetry true) (fun t => t.mgmt = { s.mgmt with mctpOut := rest } ∧ t.out = s.out ++ [.mctp bus m] ∧ Only [.mgmt, .out] [] s t) ∧
      (n < 2 → Completes s (.mctpReplyRetry false) fun t => t.mgmt = { s.mgmt with mctpOut := (bus, m, n + 1) :: rest } ∧ Only [.mgmt] [] s t) ∧
      (2 ≤ n → Completes s (.mctpReplyRetry false) fun t => t.mgmt = { s.mgmt with mctpOut := rest } ∧ t.fld F.MGMT_REPLY_LOST = min (s.fld F.MGMT_REPLY_LOST + 1) (2 ^ (F.MGMT_REPLY_LOST).width - 1) ∧
        Only [.mgmt] [F.MGMT_REPLY_LOST] s t)) ∧
    Completes s .bulkExpire (fun t => t.mgmt = { s.mgmt with bulk := s.mgmt.bulk.filter (fun b => b.upload || decide (s.time.mono < b.lastRead + 60 * ticksPerSec)) } ∧
      t.fld F.MGMT_BULK_FREE = 0x20000000 - t.bulkUsed ∧ Only [.mgmt] [F.MGMT_BULK_FREE] s t))

/-- The Annex Mailbox, the MCTP control messages and NVMe-MI. A launch in IDLE or BUSY whose length and opcode are right waits for the slot, in PENDING; one that fails a check ends in DONE with the check's RESULT; any other is ignored and counted. Consuming DONE frees the slot that the Annex holds, and the mailbox is IDLE; consuming BUSY returns to IDLE. A DONE that has held the slot for another second is logged. Each MCTP control message is answered on its bus with its instance ID, its command, a completion code and the data; Set Endpoint ID keeps the ID of the bus, and no other. An NVMe-MI message is answered outside the slot; Configuration Set changes the value it names, Get Log Page what reading the log changes, and no other anything. A message on no bus, or in Recovery for NVMe-MI, changes nothing. The contents of NVMe-MI replies are free values of the model (log entry 41). -/
def Obligations.AnnexAndControlMessages : Prop :=
  (∀ (s : State) (g : Agent), s.slicesUp = true →
    (accessOk R.ANX_OPCODE true g = false → ∀ op, Completes s (.annexLaunch g op) fun t => Only [] [] s t) ∧
    (accessOk R.ANX_STATUS true g = false → Completes s (.annexConsume g) fun t => Only [] [] s t)) ∧
  (∀ (s : State) (g : Agent) (op : Nat), s.slicesUp = true → accessOk R.ANX_OPCODE true g = true → op < 65536 →
    (s.fld F.ANX_STATUS_STATE ≠ 0 → s.fld F.ANX_STATUS_STATE ≠ 4 → Completes s (.annexLaunch g op) fun t => t.mgmt = s.mgmt ∧ t.fld F.ANX_IGNORED = (s.fld F.ANX_IGNORED + 1) % 2 ^ (F.ANX_IGNORED).width ∧ Only [] [F.ANX_IGNORED] s t) ∧
    ((s.fld F.ANX_STATUS_STATE = 0 ∨ s.fld F.ANX_STATUS_STATE = 4) →
      (3968 < s.fld F.ANX_LENGTH → Completes s (.annexLaunch g op) fun t => t.fld F.ANX_STATUS_STATE = 3 ∧ t.fld F.ANX_STATUS_RESULT = St.ANNEX_LENGTH_INVALID ∧ t.mgmt = s.mgmt) ∧
      (s.fld F.ANX_LENGTH ≤ 3968 → annexOpcodes.contains op = false → Completes s (.annexLaunch g op) fun t => t.fld F.ANX_STATUS_STATE = 3 ∧ t.fld F.ANX_STATUS_RESULT = St.ANNEX_OPCODE_INVALID ∧ t.mgmt = s.mgmt) ∧
      (s.fld F.ANX_LENGTH ≤ 3968 → annexOpcodes.contains op = true → (op < 0x20 ∨ 0x22 < op ∨ s.on F.BOOT_CUSTODY_LOCKED = false) → Completes s (.annexLaunch g op) fun t => t.fld F.ANX_STATUS_STATE = 1 ∧ t.fld F.ANX_OPCODE = op ∧
        t.mgmt = { s.mgmt with queue := s.mgmt.queue ++ [{ route := 2, opcode := 0x10000 + op, payload := s.annexPayload (s.fld F.ANX_LENGTH), passedAt := s.time.mono, annexAt := s.mgmt.annexTicks }] } ∧
        Only [.mgmt] [F.ANX_OPCODE, F.ANX_STATUS_STATE] s t) ∧
      (s.fld F.ANX_LENGTH ≤ 3968 → 0x20 ≤ op → op ≤ 0x22 → s.on F.BOOT_CUSTODY_LOCKED = true → Completes s (.annexLaunch g op) fun t => t.fld F.ANX_STATUS_STATE = 3 ∧ t.fld F.ANX_STATUS_RESULT = St.CUSTODY_LOCKED))) ∧
  (∀ (s : State) (g : Agent), s.slicesUp = true → accessOk R.ANX_STATUS true g = true →
    (∀ h, s.mgmt.holder = some h → h.cmd.route = 2 → h.delivered = true → s.fld F.ANX_STATUS_STATE = 3 → Completes s (.annexConsume g) fun t => t.fld F.ANX_STATUS_STATE = 0 ∧ t.mgmt = { s.mgmt with holder := none } ∧
      t.rd R.MGMT_SLOT = 0 ∧ t.pcie.annex = {}) ∧
    ((∀ h, s.mgmt.holder = some h → h.cmd.route ≠ 2 ∨ h.delivered = false) → s.fld F.ANX_STATUS_STATE = 3 → Completes s (.annexConsume g) fun t => t.fld F.ANX_STATUS_STATE = 0 ∧ Only [.out] [F.ANX_STATUS_STATE, F.FN_STATUS_INTX_ASSERTED 0] s t) ∧
    (s.fld F.ANX_STATUS_STATE = 4 → Completes s (.annexConsume g) fun t => t.fld F.ANX_STATUS_STATE = 0 ∧ Only [] [F.ANX_STATUS_STATE] s t) ∧
    (s.fld F.ANX_STATUS_STATE ≠ 3 → s.fld F.ANX_STATUS_STATE ≠ 4 → Completes s (.annexConsume g) fun t => Only [] [] s t)) ∧
  (∀ (s : State), s.slicesUp = true → (s.fld F.ANX_STATUS_STATE ≠ 3 ∨ (∀ h, s.mgmt.holder = some h → h.cmd.route ≠ 2 ∨ h.delivered = false)) → Completes s .annexHold fun t => Only [] [] s t) ∧
  (∀ (s : State) (h : Holder), s.slicesUp = true → s.mgmt.holder = some h → h.cmd.route = 2 → h.delivered = true → s.fld F.ANX_STATUS_STATE = 3 →
    let due := s.pcie.annex.doneAt + (s.pcie.annex.logged + 1) * ticksPerSec
    (due < s.time.mono → Completes s .annexHold fun t => t.pcie = { s.pcie with annex := { s.pcie.annex with logged := s.pcie.annex.logged + 1 } } ∧
      t.eventLog = s.eventLog ++ [⟨s.eventSeq, s.time.mono, R.ANX_STATUS, 3, s.fld F.ANX_OPCODE⟩] ∧ t.on F.PCIE_INT_STATUS_ANNEX_HOLD_SEEN = true ∧
      Only [.pcie, .eventLog, .keeperPend] [F.PCIE_INT_STATUS_ANNEX_HOLD_SEEN] s t) ∧
    (s.time.mono ≤ due → Completes s .annexHold fun t => Only [] [] s t)) ∧
  (∀ (s : State) (bus iid n eid kind i arg value : Nat) (sqe : List Byte), s.running = true → s.boot.romPending = false →
    let idle := fun (c : Instr) => Completes s c fun t => Only [] [] s t
    (2 ≤ bus → idle (.setEndpointId bus iid n eid) ∧ idle (.getEndpointId bus iid) ∧ idle (.getMctpVersionSupport bus iid n) ∧ idle (.getMessageTypeSupport bus iid) ∧ idle (.getVendorDefinedMsgSupport bus iid n)) ∧
    (2 ≤ bus ∨ 8 ≤ kind ∨ s.boot.recovery = true → idle (.nvmeMiCommand bus kind i arg value sqe))) ∧
  (∀ (s : State) (bus iid n eid : Nat), s.running = true → s.boot.romPending = false → bus < 2 →
    let tells := fun (cmd code : Nat) (data : List Byte) (t : State) => t.out = s.out ++ [.mctp bus ([0x00, BitVec.ofNat 8 (iid % 32), BitVec.ofNat 8 cmd, BitVec.ofNat 8 code] ++ data)]
    (n < 2 → eid ≠ 0 → eid < 255 → Completes s (.setEndpointId bus iid n eid) fun t => tells 1 0 [0x00, BitVec.ofNat 8 eid, 0x00] t ∧ t.mgmt = { s.mgmt with eids := s.mgmt.eids.set bus eid } ∧ Only [.mgmt, .out] [] s t) ∧
    ((2 ≤ n ∨ eid = 0 ∨ 255 ≤ eid) → Completes s (.setEndpointId bus iid n eid) fun t => tells 1 2 [] t ∧ Only [.out] [] s t) ∧
    Completes s (.getEndpointId bus iid) (fun t => tells 2 0 [BitVec.ofNat 8 (s.mgmt.eids.getD bus 0), 0x00, 0x00] t ∧ Only [.out] [] s t) ∧
    ((n = 0xFF ∨ n = 0x00 ∨ n = 0x04 ∨ n = 0x7E) → Completes s (.getMctpVersionSupport bus iid n) fun t => (∃ d, tells 4 0 d t) ∧ Only [.out] [] s t) ∧
    (n ≠ 0xFF → n ≠ 0x00 → n ≠ 0x04 → n ≠ 0x7E → Completes s (.getMctpVersionSupport bus iid n) fun t => tells 4 0x80 [] t ∧ Only [.out] [] s t) ∧
    Completes s (.getMessageTypeSupport bus iid) (fun t => tells 5 0 [0x02, 0x04, 0x7E] t ∧ Only [.out] [] s t) ∧
    Completes s (.getVendorDefinedMsgSupport bus iid 0) (fun t => (∃ d, tells 6 0 ([0xFF, 0x00, 0x1D, 0x7C] ++ d) t) ∧ Only [.out] [] s t) ∧
    (n ≠ 0 → Completes s (.getVendorDefinedMsgSupport bus iid n) fun t => tells 6 2 [] t ∧ Only [.out] [] s t)) ∧
  (∀ (s : State) (bus kind i arg value : Nat) (sqe : List Byte), s.running = true → s.boot.romPending = false → s.boot.recovery = false → bus < 2 →
    (kind < 6 → kind ≠ 4 → Completes s (.nvmeMiCommand bus kind i arg value sqe) fun t => (∃ d, t.out = s.out ++ [.mctp bus ((0x04 : Byte) :: d)]) ∧ Only [.out] [] s t) ∧
    Completes s (.nvmeMiCommand bus 6 i arg value sqe) (fun t => ∃ d, Only [] [] ((s.logRead i (bitsOf (leAt sqe 40 4) 7 0) (leAt sqe 4 4)).emit (.mctp bus ((0x04 : Byte) :: d))) t) ∧
    (kind = 7 → Completes s (.nvmeMiCommand bus kind i arg value sqe) fun t => (∃ d, t.out = s.out ++ [.mctp bus ((0x04 : Byte) :: d)]) ∧ Only [.out] [] s t) ∧
    Completes s (.nvmeMiCommand bus 4 i arg value sqe) (fun t => (∃ d, t.out = s.out ++ [.mctp bus ((0x04 : Byte) :: d)]) ∧ Map.get (fun _ => 0) t.mgmt.miConfig arg = value ∧
      (∀ x, x ≠ arg → Map.get (fun _ => 0) t.mgmt.miConfig x = Map.get (fun _ => 0) s.mgmt.miConfig x) ∧ Only [.mgmt, .out] [] s t))

/-- The opcodes of firmware update, key revocation, custody and configuration. What R494 refuses is refused with its status and counted. FW_WRITE_BEGIN opens a session on a slot that may be written, for a package of a right length, and the slot is not committed. A chunk at the session's next offset is written, one at another is answered with FW_CHUNK_ORDER and the offset expected. FW_WRITE_END closes the session, with the reason when the package fails, with a commit record when it verifies. FW_ACTIVATE writes its record when slot 1 or 2 verifies. FW_CONFIRM and FW_REVERT are refused outside TRIAL; FW_CONFIRM ends it. KEY_REVOKE burns the slot it names when another live slot's key signs the statement, and never the last. CUSTODY_SET locks once; a challenge gives a nonce, used once; CUSTODY_CLEAR with its proof unlocks. CONFIG_GET returns the item; CONFIG_SET keeps it, but not in TRIAL; an item there is not, or one that the rules forbid, is refused. What the boot NOR does not take is answered with FW_NOR_ERROR; in Recovery a package is staged first. A command whose opcode the holder does not carry does nothing. The AD3120's three firmware opcodes do what R523 maps them to. Payload places are the model's (log entry 12). -/
def Obligations.UpdateKeysCustodyAndConfiguration : Prop :=
  (∀ nor : Bool, RunsFor (.fwWriteBegin nor) 0x0300 ∧ RunsFor (.fwWriteChunk nor) 0x0301 ∧ RunsFor (.fwWriteEnd nor) 0x0302 ∧ RunsFor (.fwActivate nor) 0x0303 ∧ RunsFor (.fwConfirm nor) 0x0304 ∧
    RunsFor (.fwRevert nor) 0x0305 ∧ RunsFor .fwQuery 0x0306 ∧ RunsFor .keyRevoke 0x0310 ∧ RunsFor (.custodySet nor) 0x0320 ∧ RunsFor .custodyChallenge 0x0321 ∧ RunsFor (.custodyClear nor) 0x0322 ∧
    RunsFor .configGet 0x0200 ∧ RunsFor (.configSet nor) 0x0201 ∧ RunsFor (.fwDownload nor) 0x10020 ∧ RunsFor (.fwCommit nor) 0x10021 ∧ RunsFor (.annexFwActivate nor) 0x10022) ∧
  (∀ (s : State) (h : Holder) (nor : Bool), s.running = true →
    let n := h.cmd.num 0
    let len := h.cmd.num 1
    let tells := fun (st detail : Nat) (t : State) => MgmtAnswers s t h (some (mkReply st [] detail)) [] []
    let refuses := fun (st : Nat) (t : State) => MgmtAnswers s t h (some (mkReply st [] 0)) [] [F.UPDATE_REFUSED] ∧ t.fld F.UPDATE_REFUSED = min (s.fld F.UPDATE_REFUSED + 1) (2 ^ (F.UPDATE_REFUSED).width - 1)
    (s.Holds 0x0300 h →
      (∀ st, s.updateRefusal .start [] = some st → Completes s (.fwWriteBegin nor) (refuses st)) ∧
      (s.updateRefusal .start [] = none →
        (s.slotWritable n = false → Completes s (.fwWriteBegin nor) (tells St.FW_SLOT_INVALID 0)) ∧
        (s.slotWritable n = true → (len < pkgHead ∨ pkgMax < len) → Completes s (.fwWriteBegin nor) (tells St.FW_IMAGE_INVALID 3)) ∧
        (s.slotWritable n = true → pkgHead ≤ len → len ≤ pkgMax → s.boot.recovery = false → Completes s (.fwWriteBegin nor) fun t =>
          t.boot = { s.boot with commits := s.boot.commits.set n none, session := if nor then some { slot := n, len := len } else none } ∧
          MgmtAnswers s t h (some (mkReply (if nor then St.SUCCESS else St.FW_NOR_ERROR) [] 0)) [.boot] []) ∧
        (s.slotWritable n = true → pkgHead ≤ len → len ≤ pkgMax → s.boot.recovery = true → Completes s (.fwWriteBegin nor) fun t =>
          t.boot = { s.boot with staged := [], session := some { slot := n, len := len } } ∧ MgmtAnswers s t h (some (mkReply St.SUCCESS [] 0)) [.boot] []))) ∧
    (s.Holds 0x0301 h → ∀ st, s.updateRefusal .chunk [] = some st → Completes s (.fwWriteChunk nor) (refuses st)) ∧
    (s.Holds 0x0301 h → s.updateRefusal .chunk [] = none →
      (s.boot.session = none → Completes s (.fwWriteChunk nor) (tells St.FW_STATE_INVALID 0)) ∧
      (∀ ses, s.boot.session = some ses → h.cmd.objOffset ≠ ses.next → Completes s (.fwWriteChunk nor) (tells St.FW_CHUNK_ORDER ses.next)) ∧
      (∀ ses, s.boot.session = some ses → h.cmd.objOffset = ses.next → ses.len < ses.next + h.cmd.payload.length → Completes s (.fwWriteChunk nor) (MgmtRefuses s · h)) ∧
      (∀ ses, s.boot.session = some ses → h.cmd.objOffset = ses.next → ses.next + h.cmd.payload.length ≤ ses.len → s.boot.recovery = false → Completes s (.fwWriteChunk false) fun t => t.boot.session = s.boot.session ∧
        MgmtAnswers s t h (some (mkReply St.FW_NOR_ERROR [] 0)) [.boot] []) ∧
      (∀ ses, s.boot.session = some ses → h.cmd.objOffset = ses.next → ses.next + h.cmd.payload.length ≤ ses.len → ses.slot = 0 → ses.next < 23 → 23 ≤ ses.next + h.cmd.payload.length →
        bitOf (Map.get norErased (norWrite (s.target 0) ses.next h.cmd.payload) 22).toNat 0 = false → Completes s (.fwWriteChunk true) (tells St.FW_SLOT_INVALID 0)) ∧
      (∀ ses, s.boot.session = some ses → h.cmd.objOffset = ses.next → ses.next + h.cmd.payload.length ≤ ses.len → s.boot.recovery = true → (ses.slot ≠ 0 ∨ 23 ≤ ses.next) → Completes s (.fwWriteChunk nor) fun t =>
        t.boot = { s.boot with staged := norWrite s.boot.staged ses.next h.cmd.payload, session := some { ses with next := ses.next + h.cmd.payload.length } } ∧ MgmtAnswers s t h (some (mkReply St.SUCCESS [] 0)) [.boot] []) ∧
      (∀ ses, s.boot.session = some ses → h.cmd.objOffset = ses.next → ses.next + h.cmd.payload.length ≤ ses.len → s.boot.recovery = false →
        (ses.slot ≠ 0 ∨ 23 ≤ ses.next ∨ ses.next + h.cmd.payload.length < 23 ∨ bitOf (Map.get norErased (norWrite (s.target 0) ses.next h.cmd.payload) 22).toNat 0 = true) → Completes s (.fwWriteChunk true) fun t =>
        t.boot = { s.boot with slots := s.boot.slots.set ses.slot (norWrite (s.boot.slots.getD ses.slot []) ses.next h.cmd.payload), session := some { ses with next := ses.next + h.cmd.payload.length } } ∧
        MgmtAnswers s t h (some (mkReply St.SUCCESS [] 0)) [.boot] [])) ∧
    (s.Holds 0x0302 h → ∀ st, s.updateRefusal .close [] = some st → Completes s (.fwWriteEnd nor) (refuses st)) ∧
    (s.Holds 0x0302 h → s.updateRefusal .close [] = none → s.boot.session = none → Completes s (.fwWriteEnd nor) (tells St.FW_STATE_INVALID 0)) ∧
    (s.Holds 0x0302 h → s.updateRefusal .close [] = none → ∀ ses, s.boot.session = some ses →
      (pkgLen (s.targetPkg ses.slot ses.len) = ses.len → s.pkgFlaw (s.targetPkg ses.slot ses.len) none ≠ 1 → Completes s (.fwWriteEnd nor) fun t => t.boot = { s.boot with session := none } ∧
        MgmtAnswers s t h (some (mkReply St.FW_IMAGE_INVALID [] (s.pkgFlaw (s.targetPkg ses.slot ses.len) none))) [.boot] []) ∧
      (pkgLen (s.targetPkg ses.slot ses.len) = ses.len → s.pkgFlaw (s.targetPkg ses.slot ses.len) none = 1 → s.boot.recovery = false → Completes s (.fwWriteEnd false) fun t =>
        t.boot = { s.boot with session := none, commits := s.boot.commits.set ses.slot none } ∧ MgmtAnswers s t h (some (mkReply St.FW_NOR_ERROR [] 0)) [.boot] []) ∧
      (pkgLen (s.targetPkg ses.slot ses.len) = ses.len → s.pkgFlaw (s.targetPkg ses.slot ses.len) none = 1 → s.boot.recovery = true → Completes s (.fwWriteEnd true) fun t =>
        t.boot.slots = s.boot.slots.set ses.slot s.boot.staged ∧ t.boot.staged = [] ∧ t.boot.session = none ∧ MgmtAnswers s t h (some (mkReply St.SUCCESS [] 0)) [.boot] []) ∧
      (pkgLen (s.targetPkg ses.slot ses.len) ≠ ses.len → Completes s (.fwWriteEnd nor) fun t => t.boot = { s.boot with session := none } ∧ MgmtAnswers s t h (some (mkReply St.FW_IMAGE_INVALID [] 3)) [.boot] []) ∧
      (pkgLen (s.targetPkg ses.slot ses.len) = ses.len → s.pkgFlaw (s.targetPkg ses.slot ses.len) none = 1 → s.boot.recovery = false → Completes s (.fwWriteEnd true) fun t =>
        t.boot = { s.boot with session := none, commits := s.boot.commits.set ses.slot (some { len := ses.len, crc := crc32c (s.targetPkg ses.slot ses.len), digest := pkgDigest (s.targetPkg ses.slot ses.len) }) } ∧
        MgmtAnswers s t h (some (mkReply St.SUCCESS [] 0)) [.boot] [])) ∧
    (s.Holds 0x0303 h →
      (len ≠ 1 → len ≠ 2 → Completes s (.fwActivate nor) (tells St.FW_SLOT_INVALID 0)) ∧
      (len = 1 ∨ len = 2 → s.slotFlaw len none ≠ 1 → Completes s (.fwActivate nor) (tells St.FW_IMAGE_INVALID (s.slotFlaw len none))) ∧
      (len = 1 ∨ len = 2 → s.slotFlaw len none = 1 → s.updateRefusal .activate (s.slotPkg len) = none → Completes s (.fwActivate true) fun t =>
        MgmtAnswers (s.draw.writeFlag (s.activateRecord len) true) t h (some { mkReply St.SUCCESS [] 0 with resets := bitOf n 0 }) [] []) ∧
      (len = 1 ∨ len = 2 → s.slotFlaw len none = 1 → s.updateRefusal .activate (s.slotPkg len) = none → Completes s (.fwActivate false) fun t =>
        MgmtAnswers (s.draw.writeFlag (s.activateRecord len) false) t h (some (mkReply St.FW_NOR_ERROR [] 0)) [] []) ∧
      (∀ st, len = 1 ∨ len = 2 → s.slotFlaw len none = 1 → s.updateRefusal .activate (s.slotPkg len) = some st → Completes s (.fwActivate nor) (refuses st))) ∧
    (s.Holds 0x0304 h →
      (s.inTrial = false ∨ s.ruling = none → Completes s (.fwConfirm nor) (tells St.FW_STATE_INVALID 0)) ∧
      (∀ r, s.inTrial = true → s.ruling = some r → Completes s (.fwConfirm false) fun t => MgmtAnswers (s.writeFlag { r with state := 0 } false) t h (some (mkReply St.FW_NOR_ERROR [] 0)) [] []) ∧
      (∀ r, s.inTrial = true → s.ruling = some r → Completes s (.fwConfirm true) fun t => t.on F.BOOT_STATUS_IMAGE_STATE = false ∧ t.boot.watchdog = none ∧
        MgmtAnswers (s.writeFlag { r with state := 0 } true) t h (some (mkReply St.SUCCESS [] 0)) [.boot] [F.BOOT_STATUS_IMAGE_STATE])) ∧
    (s.Holds 0x0305 h →
      (s.inTrial = false ∨ s.ruling = none → Completes s (.fwRevert nor) (tells St.FW_STATE_INVALID 0)) ∧
      (∀ r, s.inTrial = true → s.ruling = some r → r.previous = 0 → Completes s (.fwRevert nor) (tells St.FW_STATE_INVALID 0)) ∧
      (∀ r, s.inTrial = true → s.ruling = some r → r.previous ≠ 0 → Completes s (.fwRevert nor) fun t =>
        MgmtAnswers (s.writeFlag r.reverted nor) t h (some (mkReply (if nor then St.SUCCESS else St.FW_NOR_ERROR) [] 0)) [] [])) ∧
    (s.Holds 0x0306 h → Completes s .fwQuery fun t => MgmtAnswers s t h (some s.fwQuery.2) [] []) ∧
    (s.Holds 0x0310 h →
      let others := (List.range 4).filter (fun j => decide (j ≠ n) && s.keyLive j)
      let key := slice h.cmd.payload 4 96
      let msg := [BitVec.ofNat 8 n] ++ List.replicate 7 0 ++ leBytes 8 Config.serialNumber
      let signed := others.any (fun j => decide (Config.keyDigest j = sha384 key)) && ecdsaVerify key (slice h.cmd.payload 100 96) (sha384 msg)
      (4 ≤ n → Completes s .keyRevoke (tells St.KEY_STATEMENT_INVALID 0)) ∧ (n < 4 → s.keyLive n = true → others = [] → Completes s .keyRevoke (tells St.LAST_KEY 0)) ∧
      (n < 4 → (s.keyLive n = false ∨ others ≠ []) → signed = false → Completes s .keyRevoke (tells St.KEY_STATEMENT_INVALID 0)) ∧
      (n < 4 → others ≠ [] → signed = true → Completes s .keyRevoke fun t => t.boot = { s.boot with revoked := s.boot.revoked.set n 7 } ∧ (∃ d, t.mgmt.holder = some { h with started := true, reply := some (mkReply St.SUCCESS [] d) }))) ∧
    (s.Holds 0x0320 h →
      (s.boot.custody.isSome = true → Completes s (.custodySet nor) (tells St.CUSTODY_LOCKED 0)) ∧
      (s.boot.custody = none → Completes s (.custodySet false) (tells St.FW_NOR_ERROR 0)) ∧
      (s.boot.custody = none → Completes s (.custodySet true) fun t => t.boot = { s.boot with custody := some (sha384 (slice h.cmd.payload 0 96)) } ∧ t.on F.BOOT_CUSTODY_LOCKED = true ∧
        MgmtAnswers s t h (some (mkReply St.SUCCESS [] 0)) [.boot] [F.BOOT_CUSTODY_LOCKED])) ∧
    (s.Holds 0x0321 h →
      (s.rngState ≠ rngOk → Completes s .custodyChallenge (tells St.CIPHER_RNG_UNAVAILABLE 0)) ∧
      (∀ s1 bytes, s.rngState = rngOk → s.drbg 4 32 = (s1, bytes) → Completes s .custodyChallenge fun t => t.boot = { s1.boot with nonce := some (bytes, s.time.mono) } ∧
        MgmtAnswers s1 t h (some (mkReply St.SUCCESS bytes 0)) [.boot] [])) ∧
    (s.Holds 0x0322 h →
      let proof := s.custodyProof (slice h.cmd.payload 0 96) (slice h.cmd.payload 96 96)
      (proof = false → Completes s (.custodyClear nor) fun t => t.boot = { s.boot with nonce := none } ∧ MgmtAnswers s t h (some (mkReply St.CUSTODY_AUTH_FAIL [] 0)) [.boot] []) ∧
      (proof = true → Completes s (.custodyClear false) fun t => t.boot = { s.boot with nonce := none } ∧ MgmtAnswers s t h (some (mkReply St.FW_NOR_ERROR [] 0)) [.boot] []) ∧
      (proof = true → Completes s (.custodyClear true) fun t => t.boot = { s.boot with nonce := none, custody := none } ∧ t.on F.BOOT_CUSTODY_LOCKED = false ∧
        MgmtAnswers s t h (some (mkReply St.SUCCESS [] 0)) [.boot] [F.BOOT_CUSTODY_LOCKED])) ∧
    (s.Holds 0x0200 h → (n = 0 ∨ 8 < n) → Completes s .configGet (MgmtRefuses s · h)) ∧
    (s.Holds 0x0200 h → 1 ≤ n → n ≤ 8 → Completes s .configGet fun t => MgmtAnswers s t h (some (mkReply St.SUCCESS (s.item n) 0)) [] []) ∧
    (s.Holds 0x0201 h →
      (s.inTrial = true → Completes s (.configSet nor) (tells St.TRIAL_PENDING 0)) ∧
      (s.inTrial = false → (n = 0 ∨ 8 < n ∨ (n = 1 ∧ tooManyVfs (h.cmd.payload.drop 4) = true)) → Completes s (.configSet nor) (MgmtRefuses s · h)) ∧
      (s.inTrial = false → 1 ≤ n → n ≤ 8 → (n ≠ 1 ∨ tooManyVfs (h.cmd.payload.drop 4) = false) → Completes s (.configSet false) fun t => t.boot.items = s.boot.items ∧ MgmtAnswers s t h (some (mkReply St.FW_NOR_ERROR [] 0)) [.boot] []) ∧
      (s.inTrial = false → 1 ≤ n → n ≤ 8 → (n ≠ 1 ∨ tooManyVfs (h.cmd.payload.drop 4) = false) → Completes s (.configSet true) fun t => (n, h.cmd.payload.drop 4) ∈ t.boot.items ∧ (∀ e, e ∈ s.boot.items → e.1 ≠ n → e ∈ t.boot.items) ∧ t.boot.custody = s.boot.custody ∧
        MgmtAnswers s t h (some { mkReply St.SUCCESS [] 0 with item := some n }) [.boot] []))) ∧
  (∀ (s s1 : State) (h : Holder) (r : MgmtReply) (nor : Bool), s.slicesUp = true →
    (s.Holds 0x10020 h → beAt h.cmd.payload 4 4 ≠ 0 → s.fwChunk (beAt h.cmd.payload 4 4) (h.cmd.payload.drop 8) nor = (s1, r) → Completes s (.fwDownload nor) fun t => MgmtAnswers s1 t h (some r) [] []) ∧
    (s.Holds 0x10020 h → beAt h.cmd.payload 4 4 = 0 → s.fwBegin (beAt h.cmd.payload 0 4 + 1) (leAt (h.cmd.payload.drop 8) 12 4) nor = (s1, r) → r.status ≠ St.SUCCESS →
      Completes s (.fwDownload nor) fun t => MgmtAnswers s1 t h (some r) [] []) ∧
    (∀ s2 r2, s.Holds 0x10020 h → beAt h.cmd.payload 4 4 = 0 → s.fwBegin (beAt h.cmd.payload 0 4 + 1) (leAt (h.cmd.payload.drop 8) 12 4) nor = (s1, r) → r.status = St.SUCCESS →
      s1.fwChunk 0 (h.cmd.payload.drop 8) nor = (s2, r2) → Completes s (.fwDownload nor) fun t => MgmtAnswers s2 t h (some r2) [] []) ∧
    (s.Holds 0x10021 h → s.fwEnd nor = (s1, r) → Completes s (.fwCommit nor) fun t => MgmtAnswers s1 t h (some r) [] []) ∧
    (s.Holds 0x10022 h → s.fwActivate (beAt h.cmd.payload 0 4 + 1) false nor = (s1, r) → Completes s (.annexFwActivate nor) fun t => MgmtAnswers s1 t h (some r) [] []))

/-- The opcodes of namespaces, instance states and federated bindings. A namespace opcode that succeeds answers SUCCESS, NS_CREATE with the NSID; one that fails answers another status; NS_FORMAT waits for the namespace's issued commands. INST_QUIESCE makes an ENABLED instance QUIESCING and answers later; RESUME, FREEZE, THAW and DISCARD move an instance out of the states R461 names, and refuse any other with INSTANCE_STATE_INVALID. INST_SAVE refuses an instance that is not FROZEN, and a key that may not wrap; an image already built is read on. INST_RESTORE takes its object in order, refuses one out of order with the offset expected, and restores with the last chunk. FE_BIND and FE_UNBIND are refused while membership moves; FE_BIND makes the binding, FE_UNBIND removes it; each refuses what it cannot bind or unbind. A command whose opcode the holder does not carry does nothing. Which other status a failed opcode gives is a free value of the model (log entry 42); payload places are log entry 12's. -/
def Obligations.InstanceAndNamespaceOpcodes : Prop :=
  (RunsFor .nsCreate 0x0220 ∧ RunsFor .nsDelete 0x0221 ∧ RunsFor .nsAttach 0x0222 ∧ RunsFor .nsDetach 0x0223 ∧ RunsFor .nsFormat 0x0224 ∧ RunsFor .instQuiesce 0x0500 ∧ RunsFor .instResume 0x0501 ∧
    RunsFor .instFreeze 0x0502 ∧ RunsFor .instSave 0x0503 ∧ RunsFor .instRestore 0x0504 ∧ RunsFor .instThaw 0x0505 ∧ RunsFor .instDiscard 0x0506 ∧ RunsFor .feBind 0x0510 ∧ RunsFor .feUnbind 0x0511) ∧
  (∀ (s : State) (h : Holder), s.slicesUp = true →
    let c := h.cmd
    let n := c.num 0
    let ends := fun (u : State) (st detail : Nat) (t : State) => if st = 0 then MgmtAnswers u t h (some (mkReply St.SUCCESS [] detail)) [] [] else ∃ x, x ≠ 0 ∧ MgmtAnswers u t h (some (mkReply x [] 0)) [] []
    let tells := fun (st detail : Nat) (t : State) => MgmtAnswers s t h (some (mkReply st [] detail)) [] []
    let runs := fun (i : Instr) (op ev : Nat) (sts : List Nat) (dst : Nat) => s.Holds op h →
      ((4104 ≤ n ∨ sts.contains (s.instState n) = false) → Completes s i (tells St.INSTANCE_STATE_INVALID 0)) ∧
      (n < 4104 → sts.contains (s.instState n) = true → Completes s i fun t => t.instState n = dst ∧ MgmtAnswers s t h (some (mkReply St.SUCCESS [] 0)) (if ev = 0 then [] else [.inst]) [F.INST_CFG_STATE n])
    (s.Holds 0x0220 h →
      (∀ u id, s.nsCreate 0 (2 ^ 50) ⟨n % 256, c.payload.drop 4⟩ = (u, some (.ok id)) → Completes s .nsCreate (ends u 0 id)) ∧
      (∀ u st, s.nsCreate 0 (2 ^ 50) ⟨n % 256, c.payload.drop 4⟩ = (u, some (.error st)) → Completes s .nsCreate (ends u 1 0)) ∧
      (∀ u, s.nsCreate 0 (2 ^ 50) ⟨n % 256, c.payload.drop 4⟩ = (u, none) → Completes s .nsCreate fun t => Only [] [] u t)) ∧
    (∀ u st, s.Holds 0x0221 h → s.nsDelete n = (u, st) → Completes s .nsDelete (ends u st 0)) ∧
    (∀ u st, s.Holds 0x0222 h → s.nsAttach n true (parseCtrlList (c.payload.drop 4)) = (u, st) → Completes s .nsAttach (ends u st 0)) ∧
    (∀ u st, s.Holds 0x0223 h → s.nsAttach n false (parseCtrlList (c.payload.drop 4)) = (u, st) → Completes s .nsDetach (ends u st 0)) ∧
    (s.Holds 0x0224 h →
      let busy := s.nv.cmds.any (fun y => decide (y.sq ≠ 0 ∧ y.nsid = n) && y.issued && y.done.isNone)
      (busy = true → Completes s .nsFormat fun t => Only [] [] s t) ∧
      (∀ u, busy = false → s.nsFormat 0 (2 ^ 51) n (c.num 1) (c.num 2) = (u, none) → Completes s .nsFormat fun t => Only [] [] u t) ∧
      (∀ u st, busy = false → s.nsFormat 0 (2 ^ 51) n (c.num 1) (c.num 2) = (u, some st) → Completes s .nsFormat (ends u st 0))) ∧
    (s.Holds 0x0500 h →
      (n < 4104 → (s.instState n = instEnabled ∨ s.instState n = instQuiescing) → Completes s .instQuiesce fun t => t.instState n = instQuiescing ∧ (t.instX n).quiesceWaits = true ∧ (t.instX n).quiesceAt = s.time.mono ∧
        MgmtAnswers s t h none [.inst] [F.INST_CFG_STATE n]) ∧
      ((4104 ≤ n ∨ (s.instState n ≠ instEnabled ∧ s.instState n ≠ instQuiescing)) → Completes s .instQuiesce (tells St.INSTANCE_STATE_INVALID 0))) ∧
    runs .instResume 0x0501 0 [instQuiescing, instQuiesced] instEnabled ∧ runs .instFreeze 0x0502 1 [instQuiesced] instFrozen ∧ runs .instThaw 0x0505 1 [instFrozen] instEnabled ∧
    (s.Holds 0x0506 h → (n < 4104 → (s.instState n = instQuiesced ∨ s.instState n = instFrozen) → Completes s .instDiscard fun t => t.instState n = instDisabled ∧ MgmtAnswers (s.discardInst n) t h (some (mkReply St.SUCCESS [] 0)) [] []) ∧
      ((4104 ≤ n ∨ (s.instState n ≠ instQuiesced ∧ s.instState n ≠ instFrozen)) → Completes s .instDiscard (tells St.INSTANCE_STATE_INVALID 0))) ∧
    (s.Holds 0x0503 h →
      ((4104 ≤ c.num 1 ∨ s.instState (c.num 1) ≠ instFrozen) → Completes s .instSave (tells St.INSTANCE_STATE_INVALID 0)) ∧
      (c.num 1 < 4104 → s.instState (c.num 1) = instFrozen → (maxLenOk n = false ∨ 8 ≤ c.num 2) → Completes s .instSave (MgmtRefuses s · h)) ∧
      (c.num 1 < 4104 → s.instState (c.num 1) = instFrozen → maxLenOk n = true → c.num 2 < 8 → s.mgmt.bulk = [] → s.keyRefused (c.num 2) 7 = none → s.rngState ≠ rngOk → Completes s .instSave (tells St.CIPHER_RNG_UNAVAILABLE 0)) ∧
      (∀ u, c.num 1 < 4104 → s.instState (c.num 1) = instFrozen → maxLenOk n = true → c.num 2 < 8 → s.mgmt.bulk = [] → s.keyRefused (c.num 2) 7 = none → s.rngState = rngOk → s.imgSections (c.num 1) = (u, none) → Completes s .instSave fun t => Only [] [] u t) ∧
      (∀ u st, c.num 1 < 4104 → s.instState (c.num 1) = instFrozen → maxLenOk n = true → c.num 2 < 8 → s.mgmt.bulk = [] → s.keyRefused (c.num 2) 7 = none → s.rngState = rngOk → s.imgSections (c.num 1) = (u, some (.error st)) →
        Completes s .instSave fun t => MgmtAnswers u t h (some (mkReply st [] 0)) [] []) ∧
      (∀ b, c.num 1 < 4104 → s.instState (c.num 1) = instFrozen → maxLenOk n = true → c.num 2 < 8 → s.mgmt.bulk = [b] → b.upload = false → b.opcode = 0x0503 → b.selector = c.payload.drop 4 → c.objOffset ≤ b.data.length → n < b.data.length - c.objOffset →
        Completes s .instSave fun t => t.mgmt = { s.mgmt with bulk := [{ b with lastRead := s.time.mono }], holder := some { h with started := true, reply := some { status := St.SUCCESS, payload := (b.data.drop c.objOffset).take n, last := false, objOffset := c.objOffset, remaining := b.data.length - c.objOffset - n } } } ∧
        Only [.mgmt] [F.MGMT_BULK_FREE] s t) ∧
      (∀ st, c.num 1 < 4104 → s.instState (c.num 1) = instFrozen → maxLenOk n = true → c.num 2 < 8 → s.mgmt.bulk = [] → s.keyRefused (c.num 2) 7 = some st → Completes s .instSave (tells st 0)) ∧
      (∀ u secs, c.num 1 < 4104 → s.instState (c.num 1) = instFrozen → maxLenOk n = true → c.num 2 < 8 → s.mgmt.bulk = [] → s.keyRefused (c.num 2) 7 = none → s.rngState = rngOk → s.imgSections (c.num 1) = (u, some (.ok secs)) →
        u.mgmt.bulk = [] → c.objOffset = 0 → (u.makeImage (c.num 1) (c.num 2) secs).2.length ≤ n → Completes s .instSave fun t =>
        t.mgmt.holder = some { h with started := true, reply := some { status := St.SUCCESS, payload := (u.makeImage (c.num 1) (c.num 2) secs).2, last := true } })) ∧
    (s.Holds 0x0504 h → s.mgmt.bulk = [] →
      (c.objOffset ≠ 0 → Completes s .instRestore (tells St.MGMT_OFFSET_INVALID 0)) ∧
      (c.objOffset = 0 → c.last = false → c.payload.length ≤ 0x20000000 → Completes s .instRestore fun t => t.mgmt = { s.mgmt with holder := some { h with started := true, reply := some (mkReply St.SUCCESS [] 0) }, bulk := [{ upload := true, opcode := 0x0504, selector := [], data := c.payload, lastRead := s.time.mono }] } ∧
        Only [.mgmt] [F.MGMT_BULK_FREE] s t) ∧
      (c.objOffset = 0 → c.last = true → (4104 ≤ leAt c.payload 0 4 ∨ s.instType (leAt c.payload 0 4) = 0 ∨ s.instState (leAt c.payload 0 4) ≠ instDisabled) → Completes s .instRestore fun t =>
        MgmtAnswers (s.setBulk []) t h (some (mkReply St.INSTANCE_STATE_INVALID [] 0)) [] []) ∧
      (∀ u, c.objOffset = 0 → c.last = true → leAt c.payload 0 4 < 4104 → s.instType (leAt c.payload 0 4) ≠ 0 → s.instState (leAt c.payload 0 4) = instDisabled → s.restoreImage (leAt c.payload 0 4) (c.payload.drop 4) = (u, none) →
        Completes s .instRestore fun t => Only [] [] u t) ∧
      (∀ u r, c.objOffset = 0 → c.last = true → leAt c.payload 0 4 < 4104 → s.instType (leAt c.payload 0 4) ≠ 0 → s.instState (leAt c.payload 0 4) = instDisabled → s.restoreImage (leAt c.payload 0 4) (c.payload.drop 4) = (u, some r) →
        Completes s .instRestore fun t => MgmtAnswers (u.setBulk []) t h (some r) [] [])) ∧
    (∀ b, s.Holds 0x0504 h → s.mgmt.bulk = [b] → b.upload = true → b.opcode = 0x0504 →
      (c.objOffset ≠ b.data.length → Completes s .instRestore (tells St.MGMT_OFFSET_INVALID b.data.length)) ∧
      (c.objOffset = b.data.length → c.last = false → b.data.length + c.payload.length ≤ 0x20000000 → Completes s .instRestore fun t =>
        t.mgmt = { s.mgmt with holder := some { h with started := true, reply := some (mkReply St.SUCCESS [] 0) }, bulk := [{ upload := true, opcode := 0x0504, selector := [], data := b.data ++ c.payload, lastRead := s.time.mono }] } ∧ Only [.mgmt] [F.MGMT_BULK_FREE] s t) ∧
      (c.objOffset = b.data.length → c.last = false → 0x20000000 < b.data.length + c.payload.length → Completes s .instRestore (tells St.MGMT_BULK_FULL 0))) ∧
    (s.Holds 0x0510 h →
      (s.on F.FED_STATE_MOVING = true → Completes s .feBind (tells St.MEMBERSHIP_MOVING 0)) ∧
      (s.on F.FED_STATE_MOVING = false → (4104 ≤ n ∨ 4104 ≤ c.num 2 ∨ s.fedState ≠ fedMember) → Completes s .feBind (MgmtRefuses s · h)) ∧
      (s.on F.FED_STATE_MOVING = false → c.num 1 = s.fedId → (c.route ≠ routeRelay ∨ s.instType (c.num 2) = 0) → Completes s .feBind (MgmtRefuses s · h)) ∧
      (s.on F.FED_STATE_MOVING = false → c.num 1 ≠ s.fedId → (64 ≤ c.num 1 ∨ bitOf (s.fld F.FED_MEMBERS) (c.num 1) = false ∨ s.instType n = 0) → Completes s .feBind (MgmtRefuses s · h)) ∧
      (s.on F.FED_STATE_MOVING = false → n < 4104 → c.num 2 < 4104 → s.fedState = fedMember → c.num 1 ≠ s.fedId → c.num 1 < 64 → bitOf (s.fld F.FED_MEMBERS) (c.num 1) = true → s.instType n ≠ 0 → Completes s .feBind fun t =>
        (∃ b, b ∈ t.fe.bindings ∧ b.anchor = true ∧ b.anchorInst = n ∧ b.homeInst = c.num 2 ∧ b.peer = c.num 1 ∧ b.state = 1) ∧ t.mgmt.holder = some { h with started := true, reply := some (mkReply St.SUCCESS [] 0) }) ∧
      (s.on F.FED_STATE_MOVING = false → n < 4104 → c.num 2 < 4104 → s.fedState = fedMember → c.num 1 = s.fedId → c.route = routeRelay → s.instType (c.num 2) ≠ 0 → Completes s .feBind fun t =>
        (∃ b, b ∈ t.fe.bindings ∧ b.anchor = false ∧ b.anchorInst = n ∧ b.homeInst = c.num 2 ∧ b.peer = c.origin) ∧ t.mgmt.holder = some { h with started := true, reply := some (mkReply St.SUCCESS [] 0) })) ∧
    (s.Holds 0x0511 h →
      (s.on F.FED_STATE_MOVING = true → Completes s .feUnbind (tells St.MEMBERSHIP_MOVING 0)) ∧
      (let mine := fun (b : FeBinding) => decide (b.anchorInst = n ∧ b.homeInst = c.num 2) && (if b.anchor then decide (b.peer = c.num 1) else decide (s.fedId = c.num 1))
      (s.on F.FED_STATE_MOVING = false → s.fe.bindings.any mine = false → Completes s .feUnbind (MgmtRefuses s · h)) ∧
      (s.on F.FED_STATE_MOVING = false → s.fe.bindings.any mine = true → Completes s .feUnbind fun t => t.fe.bindings = s.fe.bindings.filter (fun b => !mine b) ∧
        t.mgmt.holder = some { h with started := true, reply := some (mkReply St.SUCCESS [] 0) }))))

/-- The opcodes that report, and those that control clusters, logs, registers, events and time. IDENTIFY answers 256 bytes and HEALTH its fields. LOG_READ answers the object's bytes from the offset asked for, at most MAX_LEN of them, says whether more remain, and holds the object while they do, until its last byte is read, or answers MGMT_BULK_FULL; past the end it answers MGMT_OFFSET_INVALID; a log there is not is refused. LOG_CLEAR empties an instance's event log, and clears no other. EVENT_RING_SET sets or clears the event ring, and with FED_SINK names this device as the federation's sink. BULK_RELEASE drops the object it names. A dump captures the cluster; a reset and a start of a cluster do what CLUSTER_CTRL does. a cluster there is not is refused. DEVICE_RESET answers, and the device resets after the reply. IDENTIFY holds the silicon revision 0xB1. REG_READ and REG_WRITE access the register as the manager. TIME_PTP_CFG keeps its four numbers. Federation, time, version and status reports change nothing. READ_LOG reads the device event log, GET_TEMPERATURE answers four bytes, the AD3120's RESET resets. A command whose opcode the holder does not carry does nothing. The layouts of the reports are free values of the model (log entries 12 and 42). -/
def Obligations.ReportAndControlOpcodes : Prop :=
  (RunsFor .identify 0x0100 ∧ RunsFor .health 0x0101 ∧ RunsFor .logRead 0x0400 ∧ RunsFor .logClear 0x0401 ∧ RunsFor .eventRingSet 0x0402 ∧ RunsFor .bulkRelease 0x0403 ∧ RunsFor .fedStatus 0x0600 ∧
    RunsFor .fedLinkMap 0x0602 ∧ RunsFor .clusterDump 0x0700 ∧ RunsFor .clusterReset 0x0701 ∧ RunsFor .clusterStart 0x0702 ∧ RunsFor .deviceReset 0x0703 ∧ RunsFor .regRead 0x0704 ∧ RunsFor .regWrite 0x0705 ∧
    RunsFor .timePtpCfg 0x0800 ∧ RunsFor .timeStatus 0x0801 ∧ RunsFor .getVersion 0x10001 ∧ RunsFor .getStatus 0x10002 ∧ RunsFor .readLog 0x10010 ∧ RunsFor .getTemperature 0x10040 ∧ RunsFor .annexReset 0x10050) ∧
  (∀ (s : State) (h : Holder), s.running = true → s.boot.romPending = false →
    let c := h.cmd
    let reads := fun (i : Instr) (d : List Byte) (off max : Nat) (op : Nat) (sel : List Byte) => ((∀ b, b ∈ s.mgmt.bulk → b.upload = false → b.opcode = op → b.selector ≠ sel) →
      (d.length < off → Completes s i fun t => MgmtAnswers s t h (some (mkReply St.MGMT_OFFSET_INVALID [] 0)) [] []) ∧
      (off ≤ d.length → d.length - off ≤ max → Completes s i fun t => MgmtAnswers s t h (some { status := St.SUCCESS, payload := d.drop off, last := true, objOffset := off }) [] []) ∧
      (off + max < d.length → 0x20000000 < s.bulkUsed + d.length → Completes s i fun t => MgmtAnswers s t h (some (mkReply St.MGMT_BULK_FULL [] 0)) [] []) ∧
      (off + max < d.length → s.bulkUsed + d.length ≤ 0x20000000 → Completes s i fun t =>
        t.mgmt = { s.mgmt with bulk := s.mgmt.bulk ++ [{ upload := false, opcode := op, selector := sel, data := d, lastRead := s.time.mono }], holder := some { h with started := true, reply := some { status := St.SUCCESS, payload := (d.drop off).take max, last := false, objOffset := off, remaining := d.length - off - max } } } ∧
        Only [.mgmt] [F.MGMT_BULK_FREE] s t)) ∧
      (∀ b, s.mgmt.bulk = [b] → b.upload = false → b.opcode = op → b.selector = sel → off ≤ b.data.length → b.data.length - off ≤ max → Completes s i fun t =>
        t.mgmt = { s.mgmt with bulk := [], holder := some { h with started := true, reply := some { status := St.SUCCESS, payload := b.data.drop off, last := true, objOffset := off } } } ∧ Only [.mgmt] [F.MGMT_BULK_FREE] s t)
    (s.Holds 0x0100 h → Completes s .identify fun t => ∃ d : List Byte, d.length = 256 ∧ d.getD (Config.revisionAt % 256) 0 = 0xB1 ∧ MgmtAnswers s t h (some (mkReply St.SUCCESS d 0)) [] []) ∧
    (s.Holds 0x0101 h → Completes s .health fun t => MgmtAnswers s t h (some (mkReply St.SUCCESS (pageBytes 0x0101 s.healthFields) 0)) [] []) ∧
    (s.Holds 0x0400 h → maxLenOk (c.num 0) = false → (s.boot.recovery = false ∨ c.num 1 = 5) → Completes s .logRead (MgmtRefuses s · h)) ∧
    (s.Holds 0x0400 h → maxLenOk (c.num 0) = true →
      (s.boot.recovery = true → c.num 1 ≠ 5 → Completes s .logRead fun t => MgmtAnswers s t h (some (mkReply St.RECOVERY_ACTIVE [] 0)) [] []) ∧
      (s.boot.recovery = false → (c.num 1 = 5 ∨ (s.mgmt.bulk = [] ∧ s.logObject (c.num 1) (c.num 2) (c.num 3) = none)) → Completes s .logRead (MgmtRefuses s · h)) ∧
      (∀ d, c.num 1 = (if s.boot.recovery then 5 else c.num 1) → (s.boot.recovery = true ∨ c.num 1 ≠ 5) → s.logObject (c.num 1) (c.num 2) (c.num 3) = some d → reads .logRead d c.objOffset (c.num 0) 0x0400 (c.payload.drop 4))) ∧
    (s.Holds 0x0703 h → Completes s .deviceReset fun t => MgmtAnswers s t h (some { mkReply St.SUCCESS [] 0 with resets := true }) [] []) ∧
    (∀ a, s.Holds 0x0704 h → c.regAddr = some a → Completes s .regRead fun t => MgmtAnswers (s.readDev .manager a 8).1 t h (some (mkReply St.SUCCESS (leBytes 8 (s.readDev .manager a 8).2) 0)) [] []) ∧
    (∀ a, s.Holds 0x0705 h → c.regAddr = some a → Completes s .regWrite fun t => MgmtAnswers (s.writeDev .manager a 8 (leAt c.payload 8 8)) t h (some (mkReply St.SUCCESS [] 0)) [] []) ∧
    (s.Holds 0x0704 h → c.regAddr = none → Completes s .regRead fun t => ∃ x, x < 65536 ∧ MgmtAnswers s t h (some { status := x }) [] []) ∧
    (s.Holds 0x0705 h → c.regAddr = none → Completes s .regWrite fun t => ∃ x, x < 65536 ∧ MgmtAnswers s t h (some { status := x }) [] []) ∧
    (s.slicesUp = true →
      let tells := fun (bytes : List Byte) (t : State) => MgmtAnswers s t h (some (mkReply St.SUCCESS bytes 0)) [] []
      (s.Holds 0x0401 h → c.num 0 = 2 → c.num 1 < 4104 → Completes s .logClear fun t => t.instX (c.num 1) = { s.instX (c.num 1) with log := [] } ∧ (∀ i, i ≠ c.num 1 → t.instX i = s.instX i) ∧ MgmtAnswers s t h (some (mkReply St.SUCCESS [] 0)) [.inst] []) ∧
      (s.Holds 0x0401 h → (c.num 0 ≠ 2 ∨ 4104 ≤ c.num 1) → Completes s .logClear (MgmtRefuses s · h)) ∧
      (s.Holds 0x0402 h → 4096 ≤ c.num 0 → c.num 0 ≠ 0xFFFF → Completes s .eventRingSet (MgmtRefuses s · h)) ∧
      (s.Holds 0x0402 h → (c.num 0 < 4096 ∨ c.num 0 = 0xFFFF) → bitOf (c.num 1) 0 = true → Completes s .eventRingSet fun t => t.on F.MGMT_EVENT_CFG_FED_SINK = true ∧ t.mgmt.sink = some s.fedId ∧
        t.on F.MGMT_EVENT_CFG_ENABLE = decide (c.num 0 ≠ 0xFFFF)) ∧
      (s.Holds 0x0402 h → (c.num 0 < 4096 ∨ c.num 0 = 0xFFFF) → bitOf (c.num 1) 0 = false → s.mgmt.sink = some s.fedId → Completes s .eventRingSet fun t => t.on F.MGMT_EVENT_CFG_FED_SINK = false ∧ t.mgmt.sink = none) ∧
      (s.Holds 0x0402 h → bitOf (c.num 1) 0 = false → s.mgmt.sink ≠ some s.fedId →
        (c.num 0 < 4096 → Completes s .eventRingSet fun t => t.on F.MGMT_EVENT_CFG_ENABLE = true ∧ t.fld F.MGMT_EVENT_CFG_RING = c.num 0 ∧
          MgmtAnswers s t h (some (mkReply St.SUCCESS [] 0)) [] [F.MGMT_EVENT_CFG_ENABLE, F.MGMT_EVENT_CFG_RING, F.MGMT_EVENT_CFG_FED_SINK]) ∧
        (c.num 0 = 0xFFFF → Completes s .eventRingSet fun t => t.on F.MGMT_EVENT_CFG_ENABLE = false ∧
          MgmtAnswers s t h (some (mkReply St.SUCCESS [] 0)) [] [F.MGMT_EVENT_CFG_ENABLE, F.MGMT_EVENT_CFG_RING, F.MGMT_EVENT_CFG_FED_SINK])) ∧
      (s.Holds 0x0403 h → s.mgmt.bulk = [] → Completes s .bulkRelease fun t => ∃ x, MgmtAnswers s t h (some (mkReply x [] 0)) [] []) ∧
      (∀ b, s.Holds 0x0403 h → s.mgmt.bulk = [b] → b.opcode = c.num 0 → b.selector = c.payload.drop 4 → Completes s .bulkRelease fun t =>
        t.mgmt = { s.mgmt with bulk := [], holder := some { h with started := true, reply := some (mkReply St.SUCCESS [] 0) } } ∧ t.fld F.MGMT_BULK_FREE = 0x20000000 ∧ Only [.mgmt] [F.MGMT_BULK_FREE] s t) ∧
      (s.Holds 0x0600 h → Completes s .fedStatus fun t => ∃ d, tells d t) ∧ (s.Holds 0x0602 h → Completes s .fedLinkMap fun t => ∃ d, tells d t) ∧
      (s.Holds 0x0801 h → Completes s .timeStatus fun t => ∃ d, tells d t) ∧ (s.Holds 0x10001 h → Completes s .getVersion fun t => ∃ d, d.length = 64 ∧ tells d t) ∧
      (s.Holds 0x10002 h → Completes s .getStatus (tells (pageBytes 0x10002 s.healthFields))) ∧ (s.Holds 0x10040 h → Completes s .getTemperature fun t => ∃ d, d.length = 4 ∧ tells d t) ∧
      (s.Holds 0x10050 h → Completes s .annexReset fun t => MgmtAnswers s t h (some { mkReply St.SUCCESS [] 0 with resets := true }) [] []) ∧
      (s.Holds 0x10010 h → (beAt c.payload 4 4 = 0 ∨ 3968 < beAt c.payload 4 4) → Completes s .readLog (MgmtRefuses s · h)) ∧
      (s.Holds 0x10010 h → beAt c.payload 4 4 ≠ 0 → beAt c.payload 4 4 ≤ 3968 → reads .readLog (s.deviceLog 0x14001) (beAt c.payload 0 4) (beAt c.payload 4 4) 0x10010 []) ∧
      (s.Holds 0x0800 h → Completes s .timePtpCfg fun t => t.time = { s.time with ptpDomain := c.num 0, ptpDelayMech := c.num 1, ptpTransport := c.num 2, ptpLogSync := c.num 3 } ∧ MgmtAnswers s t h (some (mkReply St.SUCCESS [] 0)) [.time] []) ∧
      ((4 ≤ c.num 0 ∨ 4 ≤ c.num 1) → (s.Holds 0x0700 h → Completes s .clusterDump (MgmtRefuses s · h)) ∧ (s.Holds 0x0701 h → Completes s .clusterReset (MgmtRefuses s · h)) ∧
        (s.Holds 0x0702 h → Completes s .clusterStart (MgmtRefuses s · h))) ∧
      (c.num 0 < 4 → c.num 1 < 4 →
        (s.Holds 0x0700 h → Completes s .clusterDump fun t => t.core.dumps.head? = some (clKey (c.num 0) (c.num 1), s.time.mono, s.dumpOf (c.num 0) (c.num 1)) ∧ MgmtAnswers s t h (some (mkReply St.SUCCESS [] 0)) [.dumps] []) ∧
        (s.Holds 0x0701 h → Completes s .clusterReset fun t => MgmtAnswers (s.clusterReset (c.num 0) (c.num 1)) t h (some (mkReply St.SUCCESS [] 0)) [] []) ∧
        (s.Holds 0x0702 h → Completes s .clusterStart fun t => MgmtAnswers ((s.wr (R.CURATOR_ENTRY (c.num 0) (c.num 1)) (BitVec.ofNat 64 (leAt c.payload 8 8))).clusterGo (c.num 0) (c.num 1)) t h (some (mkReply St.SUCCESS [] 0)) [] []))))

/-- Idle states of the slices, power control, link power states, counter freezes and the temperature record. The idle controller shows the ceiling, leaves a state above it, and begins to enter the deepest state that qualifies once the slice has been idle for the dwell; an entry that completes is counted; an exit begins when the horizon is down to the exit latency, and one later than that is counted; a wake event reverses an entry, and begins an exit; an exit that completes leaves the slice in SI0, and the frames that waited for it go on; with nothing to do, nothing changes. A power sample above 105 °C trips; from 103 °C the clock is at its least; over the cap it goes down by 100 MHz, or the cap cannot be reached; under the cap it asks for a rise, which its regulator's acknowledgment makes. An idle link whose host allows it enters L1. An LTR message goes out when its value has changed. PMU_FREEZE with GO schedules a freeze 16 ticks ahead, which then holds. TEMP_MAX is recorded once an hour. Where the rises wait for the acknowledgment, and that a ceiling below the state begins an exit, is the model's reading (log entry 38). -/
def Obligations.PowerStatesAndFreezes : Prop :=
  (∀ (s : State) (k : Nat), s.slicesUp = true → 4 ≤ k → Completes s (.idleEvaluate k) (fun t => Only [] [] s t) ∧ Completes s (.idleEntryDone k) (fun t => Only [] [] s t) ∧
    Completes s (.idleExitTimer k) (fun t => Only [] [] s t) ∧ Completes s (.sliceWake k) (fun t => Only [] [] s t) ∧ Completes s (.idleExitDone k) (fun t => Only [] [] s t)) ∧
  (∀ (s : State) (k : Nat), s.slicesUp = true → k < 4 → s.power.slices.length = 4 →
    let x := s.idleX k
    let st := s.fld (F.PWR_SI_STATE_STATE k)
    (x.move ≠ 0 → Completes s (.idleEvaluate k) fun t => t.fld (F.PWR_SI_STATE_CEILING k) = s.idleCeiling k ∧ (t.idleX k).move = x.move ∧ Only [.power] [F.PWR_SI_STATE_CEILING k] s t) ∧
    (x.move = 0 → s.idleCeiling k < st → Completes s (.idleEvaluate k) fun t => (t.idleX k).move = 2 ∧ (t.idleX k).target = st ∧ (t.idleX k).moveAt = s.time.mono ∧ Only [.power] [F.PWR_SI_STATE_CEILING k] s t) ∧
    (∀ t0, x.move = 0 → st ≤ s.idleCeiling k → s.sliceIdle k = true → x.idleSince = some t0 → 5 * t0 + 8 * s.fld (F.PWR_IDLE_DWELL k) ≤ 5 * s.time.mono → st < s.idleChoice k → Completes s (.idleEvaluate k) fun t =>
      (t.idleX k).move = 1 ∧ (t.idleX k).target = s.idleChoice k ∧ (t.idleX k).moveAt = s.time.mono ∧ Only [.power] [F.PWR_SI_STATE_CEILING k] s t) ∧
    (x.move = 0 → st ≤ s.idleCeiling k → s.sliceIdle k = true → x.idleSince = none → 0 < s.fld (F.PWR_IDLE_DWELL k) → Completes s (.idleEvaluate k) fun t => (t.idleX k).move = 0 ∧ (t.idleX k).idleSince = some s.time.mono ∧
      Only [.power] [F.PWR_SI_STATE_CEILING k] s t) ∧
    (∀ t0, x.move = 0 → st ≤ s.idleCeiling k → s.sliceIdle k = true → x.idleSince = some t0 → (5 * s.time.mono < 5 * t0 + 8 * s.fld (F.PWR_IDLE_DWELL k) ∨ s.idleChoice k ≤ st) → Completes s (.idleEvaluate k) fun t =>
      t.idleX k = x ∧ Only [.power] [F.PWR_SI_STATE_CEILING k] s t) ∧
    (x.move = 0 → st ≤ s.idleCeiling k → s.sliceIdle k = false → Completes s (.idleEvaluate k) fun t => (t.idleX k).move = 0 ∧ (t.idleX k).idleSince = none ∧ Only [.power] [F.PWR_SI_STATE_CEILING k] s t) ∧
    (x.move = 1 → x.target < 4 → Completes s (.idleEntryDone k) fun t => t.fld (F.PWR_SI_STATE_STATE k) = x.target ∧ t.idleX k = { x with move := 0 } ∧
      t.fld (F.PWR_SI_ENTRIES k x.target) = (s.fld (F.PWR_SI_ENTRIES k x.target) + 1) % 2 ^ 64 ∧ Only [.power] [F.PWR_SI_STATE_STATE k, F.PWR_SI_ENTRIES k x.target] s t) ∧
    (x.move ≠ 1 → Completes s (.idleEntryDone k) fun t => Only [] [] s t) ∧
    (x.move = 2 ∨ (x.move = 0 ∧ st = 0) ∨ s.idleTime k = none → Completes s (.idleExitTimer k) fun t => Only [] [] s t) ∧
    (∀ h, x.move = 1 → x.target ≠ 0 → s.idleTime k = some h →
      ((idleLatency x.target : Int) < h → Completes s (.idleExitTimer k) fun t => Only [] [] s t) ∧
      (h ≤ (idleLatency x.target : Int) → Completes s (.idleExitTimer k) fun t => t.idleX k = { x with move := 2, moveAt := s.time.mono } ∧ Only [.power] [F.PWR_WAKE_LATE k] s t)) ∧
    (∀ h, x.move = 0 → st ≠ 0 → s.idleTime k = some h →
      ((idleLatency st : Int) < h → Completes s (.idleExitTimer k) fun t => Only [] [] s t) ∧
      (h = (idleLatency st : Int) → Completes s (.idleExitTimer k) fun t => t.idleX k = { x with move := 2, target := st, moveAt := s.time.mono } ∧ Only [.power] [] s t) ∧
      (h < (idleLatency st : Int) → Completes s (.idleExitTimer k) fun t => t.idleX k = { x with move := 2, target := st, moveAt := s.time.mono } ∧
        t.fld (F.PWR_WAKE_LATE k) = min (s.fld (F.PWR_WAKE_LATE k) + 1) (2 ^ 32 - 1) ∧ Only [.power] [F.PWR_WAKE_LATE k] s t)) ∧
    (x.move = 1 → Completes s (.sliceWake k) fun t => (t.idleX k).move = 2 ∧ (t.idleX k).moveAt = s.time.mono ∧ t.fld (F.PWR_SI_ABORTS k) = (s.fld (F.PWR_SI_ABORTS k) + 1) % 2 ^ (F.PWR_SI_ABORTS k).width ∧ Only [.power] [F.PWR_SI_ABORTS k] s t) ∧
    (x.move = 0 → st ≠ 0 → Completes s (.sliceWake k) fun t => (t.idleX k).move = 2 ∧ (t.idleX k).target = st ∧ Only [.power] [] s t) ∧
    (x.move = 0 → st = 0 → Completes s (.sliceWake k) fun t => t.idleX k = { x with idleSince := none } ∧ Only [.power] [] s t) ∧
    (x.move = 2 → Completes s (.sliceWake k) fun t => Only [] [] (s.wakeSlice k) t ∧ (t.idleX k).move = 2) ∧
    (x.move ≠ 2 → Completes s (.idleExitDone k) fun t => Only [] [] s t) ∧
    (x.move = 2 → Completes s (.idleExitDone k) fun t => Only [] [] (x.wakeFrames.foldl State.frameAwake ((s.setFld (F.PWR_SI_STATE_STATE k) 0).setIdleX k {})) t) ∧
    (x.move = 2 → x.wakeFrames = [] → Completes s (.idleExitDone k) fun t => t.awake k = true ∧ t.idleX k = {} ∧ Only [.power] [F.PWR_SI_STATE_STATE k] s t)) ∧
  (∀ (s : State) (p : Nat) (d : List Nat) (ts : List Int), s.running = true →
    let m := s.measurePower p d ts
    let deg := signed 16 (m.fld F.TEMP_MAX)
    let f := m.fld F.CORE_FREQ
    let last := s.power.tickAt + 100 * ticksPerUs
    (s.time.mono < last → Completes s (.powerControlTick p d ts) fun t => Only [] [] s t) ∧
    (last ≤ s.time.mono → p < 2 ^ 20 →
      (degrees 105 < deg → Completes s (.powerControlTick p d ts) fun t => t.boot.tripped = true) ∧
      (degrees 103 ≤ deg → deg ≤ degrees 105 → Completes s (.powerControlTick p d ts) fun t => t.fld F.CORE_FREQ = coreMin ∧ t.on F.PWR_INT_STATUS_THERMAL_SEEN = true ∧ t.fld F.PWR_NOW = p) ∧
      (deg < degrees 103 → m.powerCap < p → coreMin < f → Completes s (.powerControlTick p d ts) fun t => t.fld F.CORE_FREQ = f - 100 ∧ t.on F.PWR_INT_STATUS_CAP_SEEN = true) ∧
      (deg < degrees 103 → m.powerCap < p → f ≤ coreMin → Completes s (.powerControlTick p d ts) fun t => t.fld F.CORE_FREQ = f ∧ t.on F.PWR_INT_STATUS_CAP_UNREACHED_SEEN = true) ∧
      (deg < degrees 103 → p ≤ m.powerCap → s.on F.BOOST_CTRL_BOOST_EN = false → coreBase < f → Completes s (.powerControlTick p d ts) fun t => t.fld F.CORE_FREQ = f - 100) ∧
      (deg < degrees 103 → p ≤ m.powerCap → s.on F.BOOST_CTRL_BOOST_EN = false → (f = coreBase ∨ (f < coreBase ∧ m.powerCap ≤ p + 1000 * s.fld F.BOOST_CTRL_BOOST_MARGIN)) → Completes s (.powerControlTick p d ts) fun t =>
        t.fld F.CORE_FREQ = f ∧ t.power.avsStep = s.power.avsStep) ∧
      (deg < degrees 103 → p + 1000 * s.fld F.BOOST_CTRL_BOOST_MARGIN < m.powerCap → s.on F.BOOST_CTRL_BOOST_EN = false → f < coreBase → (s.on F.PIN_STATUS_AVS_FAIL = true ∨ s.power.avsStep.isSome = true) → Completes s (.powerControlTick p d ts) fun t =>
        t.fld F.CORE_FREQ = f ∧ t.power.avsStep = s.power.avsStep) ∧
      (deg < degrees 103 → p + 1000 * s.fld F.BOOST_CTRL_BOOST_MARGIN < m.powerCap → s.on F.BOOST_CTRL_BOOST_EN = false → f < coreBase → s.on F.PIN_STATUS_AVS_FAIL = false → s.power.avsStep = none →
        Completes s (.powerControlTick p d ts) fun t => t.fld F.CORE_FREQ = f ∧ t.power.avsStep = some (f + 100)))) ∧
  (∀ (s : State) (f : Nat), s.running = true → f < 2 ^ 12 →
    (s.power.avsStep = none → ∀ ack, Completes s (.avsCommand ack) fun t => Only [] [] s t) ∧
    (s.power.avsStep = some f →
      Completes s (.avsCommand true) (fun t => t.power = { s.power with avsStep := none } ∧ t.fld F.CORE_FREQ = max f (s.fld F.CORE_FREQ) ∧ t.on F.PIN_STATUS_AVS_FAIL = false ∧
        Only [.power] [F.CORE_FREQ, F.VDD_CPU_TARGET, F.PIN_STATUS_AVS_FAIL] s t) ∧
      Completes s (.avsCommand false) (fun t => t.power = { s.power with avsStep := none } ∧ t.on F.PIN_STATUS_AVS_FAIL = true ∧ t.eventLog = s.eventLog ++ [⟨s.eventSeq, s.time.mono, R.PIN_STATUS, 2, 0⟩] ∧
        Only [.power, .eventLog] [F.PIN_STATUS_AVS_FAIL] s t))) ∧
  (∀ (s : State) (l : Nat), s.running = true →
    (4 ≤ l → Completes s (.aspmL1Entry l) fun t => Only [] [] s t) ∧
    ((4 ≤ l ∨ s.linkPfs l = [] ∨ s.linkTrained l = false) → Completes s (.ltrMessage l) fun t => Only [] [] s t) ∧
    (∀ p ps, s.linkPfs l = p :: ps → (s.fnX p).ltrEnable = false → Completes s (.ltrMessage l) fun t => Only [] [] s t)) ∧
  (∀ (s : State) (l : Nat), s.running = true → l < 4 →
    (s.linkState l = 3 → s.aspmOn l = true → s.readsOn l = [] → s.power.linkIdle.getD l 0 + s.fld F.PWR_ASPM_IDLE * ticksPerUs ≤ s.time.mono → Completes s (.aspmL1Entry l) fun t => t.linkState l = 4 ∧ Only [] [F.PCIE_LINK_STATE_STATE l] s t) ∧
    ((s.linkState l ≠ 3 ∨ s.aspmOn l = false ∨ s.readsOn l ≠ [] ∨ s.time.mono < s.power.linkIdle.getD l 0 + s.fld F.PWR_ASPM_IDLE * ticksPerUs) → Completes s (.aspmL1Entry l) fun t => Only [] [] s t) ∧
    (∀ p ps, s.linkPfs l = p :: ps → s.linkTrained l = true → (s.fnX p).ltrEnable = true →
      (s.power.ltrSent.getD l none ≠ some (s.ltrValue l) → Completes s (.ltrMessage l) fun t => t.out = s.out ++ [.ltr l (s.ltrValue l)] ∧ t.power = { s.power with ltrSent := s.power.ltrSent.set l (some (s.ltrValue l)) } ∧ Only [.power, .out] [] s t) ∧
      (s.power.ltrSent.getD l none = some (s.ltrValue l) → Completes s (.ltrMessage l) fun t => Only [] [] s t))) ∧
  (∀ (s : State), s.running = true →
    (∀ g v, accessOk R.PMU_FREEZE true g = false → Completes s (.pmuFreezeGo g v) fun t => Only [] [] s t) ∧
    (s.pmuPending = [] → Completes s .pmuFreezeApply fun t => Only [] [] s t) ∧
    (∀ g v, accessOk R.PMU_FREEZE true g = true →
      (bitOf v.toNat 8 = true → Completes s (.pmuFreezeGo g v) fun t => t.pmuPending = s.pmuPending ++ [(bitOf v.toNat 0, s.time.mono + 16)] ∧ t.pmuFrozen = s.pmuFrozen ∧ t.on F.PMU_FREEZE_ON_UNC_OVF = bitOf v.toNat 1 ∧ t.on F.PMU_FREEZE_FREEZE = bitOf v.toNat 0 ∧
        Only [.pmu] [F.PMU_FREEZE_ON_UNC_OVF, F.PMU_FREEZE_FREEZE] s t) ∧
      (bitOf v.toNat 8 = false → Completes s (.pmuFreezeGo g v) fun t => Only [] [F.PMU_FREEZE_ON_UNC_OVF, F.PMU_FREEZE_FREEZE] s t)) ∧
    (∀ b at_ rest, s.pmuPending = (b, at_) :: rest →
      (at_ ≤ s.time.mono → at_ < 2 ^ 64 → Completes s .pmuFreezeApply fun t => t.pmuFrozen = b ∧ t.pmuPending = rest ∧ t.fld F.PMU_FREEZE_AT = at_ ∧ Only [.pmu] [F.PMU_FREEZE_AT] s t) ∧
      (s.time.mono < at_ → Completes s .pmuFreezeApply fun t => Only [] [] s t)) ∧
    (s.boot.romPending = false →
      (s.boot.tempLogAt + 3600 * ticksPerSec ≤ s.time.mono → Completes s .tempLogHourly fun t => t.eventLog = s.eventLog ++ [⟨s.eventSeq, s.time.mono, R.TEMP_MAX, 0, s.fld F.TEMP_MAX⟩] ∧
        t.boot = { s.boot with tempLogAt := s.time.mono } ∧ Only [.eventLog, .boot] [] s t) ∧
      (s.time.mono < s.boot.tempLogAt + 3600 * ticksPerSec → Completes s .tempLogHourly fun t => Only [] [] s t)))

/-- HBM reads back what was written, and a memory has one form. After bytes are written to HBM from an address, reading as many from there gives them, and every byte at another address reads as before. A write in canonical form that changes no byte changes nothing, and two memories in canonical form that read alike at every address are equal. What a byte that nothing has written reads as is the model's choice (log entry 16). -/
def Obligations.MemoryReadsWhatWasWritten : Prop :=
  (∀ (s : State) (a : Nat) (bs : List Byte), (s.hbmWrite a bs).hbmRead a bs.length = bs ∧ (∀ x, (x < a ∨ a + bs.length ≤ x) → (s.hbmWrite a bs).hbmByte x = s.hbmByte x) ∧
    (s.hbmWrite a bs).mem.keeperSram = s.mem.keeperSram ∧ (s.hbmWrite a bs).regs = s.regs) ∧
  (∀ (s : State) (a n : Nat), Memory.wf s.mem.hbm = true → (s.hbmWrite a (s.hbmRead a n)).mem = s.mem) ∧
  (∀ (s t : State), Memory.wf s.mem.hbm = true → Memory.wf t.mem.hbm = true → (∀ x, s.hbmByte x = t.hbmByte x) → s.mem.hbm = t.mem.hbm)

end
end

