-- ==== Sys2Proof/Laws/Maps.lean ====
section
/-!
SUPPORT. Sparse tables: what a read finds after a write, and that the canonical form is kept.
-/

namespace Sys2Proof.Machine

variable {α : Type}

@[simp] theorem Map.find?_nil (a : Nat) : Map.find? ([] : Map α) a = none := rfl

theorem Map.find?_insert_same (m : Map α) (a : Nat) (v : α) : Map.find? (Map.insert m a v) a = some v := by
  induction m with
  | nil => simp [Map.insert, Map.find?]
  | cons e m ih =>
    obtain ⟨k, w⟩ := e
    simp only [Map.insert]
    by_cases h1 : a < k
    · simp [h1, Map.find?]
    · by_cases h2 : a = k
      · simp [h2, Map.find?]
      · simp [h1, h2, Map.find?, ih]

theorem Map.find?_insert_ne (m : Map α) {a b : Nat} (v : α) (h : b ≠ a) : Map.find? (Map.insert m a v) b = Map.find? m b := by
  induction m with
  | nil => simp [Map.insert, Map.find?, h]
  | cons e m ih =>
    obtain ⟨k, w⟩ := e
    simp only [Map.insert]
    by_cases h1 : a < k
    · simp [h1, Map.find?, h]
    · by_cases h2 : a = k
      · subst h2; simp [Map.find?, h]
      · simp [h1, h2, Map.find?, ih]

theorem Map.find?_erase_same (m : Map α) (a : Nat) : Map.find? (Map.erase m a) a = none := by
  induction m with
  | nil => rfl
  | cons e m ih =>
    obtain ⟨k, w⟩ := e
    by_cases h : a = k <;> simp [Map.erase, Map.find?, h]
    · simpa [h] using ih
    · simpa [Map.find?, h] using ih

theorem Map.find?_erase_ne (m : Map α) {a b : Nat} (h : b ≠ a) : Map.find? (Map.erase m a) b = Map.find? m b := by
  induction m with
  | nil => rfl
  | cons e m ih =>
    obtain ⟨k, w⟩ := e
    by_cases h1 : a = k
    · subst h1; simp [Map.erase, Map.find?, h, ih]
    · simp [Map.erase, Map.find?, h1, ih]

/-- A read after a write of the same key gives the value written. -/
@[simp] theorem Map.get_put_same [DecidableEq α] (d : Nat → α) (m : Map α) (a : Nat) (v : α) : Map.get d (Map.put d m a v) a = v := by
  unfold Map.put Map.get
  split
  · rename_i h; simp [Map.find?_erase_same, h]
  · simp [Map.find?_insert_same]

/-- A write leaves every other key as it was. -/
theorem Map.get_put_ne [DecidableEq α] (d : Nat → α) (m : Map α) {a b : Nat} (v : α) (h : b ≠ a) :
    Map.get d (Map.put d m a v) b = Map.get d m b := by
  unfold Map.put Map.get
  split
  · simp [Map.find?_erase_ne _ h]
  · simp [Map.find?_insert_ne _ _ h]

theorem Map.above_mono {lo lo' : Nat} (m : Map α) (h : lo' ≤ lo) (hm : Map.above lo m = true) : Map.above lo' m = true := by
  induction m with
  | nil => rfl
  | cons e m ih =>
    obtain ⟨k, w⟩ := e
    simp only [Map.above, Bool.and_eq_true, decide_eq_true_eq] at hm ⊢
    exact ⟨by omega, ih hm.2⟩

theorem Map.above_insert {lo : Nat} (m : Map α) (a : Nat) (v : α) (ha : lo < a) (hm : Map.above lo m = true) :
    Map.above lo (Map.insert m a v) = true := by
  induction m with
  | nil => simp [Map.insert, Map.above, ha]
  | cons e m ih =>
    obtain ⟨k, w⟩ := e
    simp only [Map.above, Bool.and_eq_true, decide_eq_true_eq] at hm
    simp only [Map.insert]
    split
    · simp [Map.above, ha, hm.1, hm.2]
    · split
      · simp [Map.above, ha, hm.2]
      · simp [Map.above, hm.1, ih hm.2]

theorem Map.above_erase {lo : Nat} (m : Map α) (a : Nat) (hm : Map.above lo m = true) : Map.above lo (Map.erase m a) = true := by
  induction m with
  | nil => rfl
  | cons e m ih =>
    obtain ⟨k, w⟩ := e
    simp only [Map.above, Bool.and_eq_true, decide_eq_true_eq] at hm
    simp only [Map.erase]
    split
    · exact ih hm.2
    · simp [Map.above, hm.1, ih hm.2]

theorem Map.sorted_insert (m : Map α) (a : Nat) (v : α) (hm : Map.sorted m = true) : Map.sorted (Map.insert m a v) = true := by
  induction m with
  | nil => rfl
  | cons e m ih =>
    obtain ⟨k, w⟩ := e
    simp only [Map.sorted, Bool.and_eq_true] at hm
    simp only [Map.insert]
    split
    · rename_i h
      simp [Map.sorted, Map.above, h, hm.1, hm.2, Map.above_mono m (Nat.le_of_lt h) hm.1]
    · split
      · rename_i h1 h2; subst h2; simp [Map.sorted, hm.1, hm.2]
      · rename_i h1 h2
        have h3 : k < a := by omega
        simp [Map.sorted, ih hm.2, Map.above_insert m a v h3 hm.1]

theorem Map.sorted_erase (m : Map α) (a : Nat) (hm : Map.sorted m = true) : Map.sorted (Map.erase m a) = true := by
  induction m with
  | nil => rfl
  | cons e m ih =>
    obtain ⟨k, w⟩ := e
    simp only [Map.sorted, Bool.and_eq_true] at hm
    simp only [Map.erase]
    split
    · exact ih hm.2
    · simp [Map.sorted, ih hm.2, Map.above_erase m a hm.1]

theorem Map.all_insert (p : Nat × α → Bool) (m : Map α) (a : Nat) (v : α) (hv : p (a, v) = true) (hm : m.all p = true) :
    (Map.insert m a v).all p = true := by
  induction m with
  | nil => simp [Map.insert, hv]
  | cons e m ih =>
    obtain ⟨k, w⟩ := e
    simp only [List.all_cons, Bool.and_eq_true] at hm
    simp only [Map.insert]
    split
    · simp [hv, hm.1, hm.2]
    · split
      · simp [hv, hm.2]
      · simp [hm.1, ih hm.2]

theorem Map.all_erase (p : Nat × α → Bool) (m : Map α) (a : Nat) (hm : m.all p = true) : (Map.erase m a).all p = true := by
  induction m with
  | nil => rfl
  | cons e m ih =>
    obtain ⟨k, w⟩ := e
    simp only [List.all_cons, Bool.and_eq_true] at hm
    simp only [Map.erase]
    split
    · exact ih hm.2
    · simp [hm.1, ih hm.2]

/-- A write keeps the canonical form. -/
theorem Map.wf_put [DecidableEq α] (d : Nat → α) (m : Map α) (a : Nat) (v : α) (hm : Map.wf d m = true) : Map.wf d (Map.put d m a v) = true := by
  simp only [Map.wf, Bool.and_eq_true] at hm ⊢
  unfold Map.put
  split
  · exact ⟨Map.sorted_erase m a hm.1, Map.all_erase _ m a hm.2⟩
  · rename_i h
    exact ⟨Map.sorted_insert m a v hm.1, Map.all_insert _ m a v (by simpa using h) hm.2⟩

/-- Dropping entries keeps the canonical form. -/
theorem Map.above_filter {lo : Nat} (p : Nat × α → Bool) (m : Map α) (hm : Map.above lo m = true) : Map.above lo (m.filter p) = true := by
  induction m with
  | nil => rfl
  | cons e m ih =>
    obtain ⟨k, w⟩ := e
    simp only [Map.above, Bool.and_eq_true, decide_eq_true_eq] at hm
    by_cases h : p (k, w) = true
    · simp [List.filter, h, Map.above, hm.1, ih hm.2]
    · simp [List.filter, h, ih hm.2]

theorem Map.wf_eraseIf [DecidableEq α] (d : Nat → α) (p : Nat → α → Bool) (m : Map α) (hm : Map.wf d m = true) :
    Map.wf d (Map.eraseIf p m) = true := by
  simp only [Map.wf, Bool.and_eq_true] at hm ⊢
  refine ⟨?_, ?_⟩
  · have h := hm.1
    clear hm
    unfold Map.eraseIf
    induction m with
    | nil => rfl
    | cons e m ih =>
      obtain ⟨k, w⟩ := e
      simp only [Map.sorted, Bool.and_eq_true] at h
      by_cases hp : p k w = true
      · simpa [List.filter, hp] using ih h.2
      · simp [List.filter, hp, Map.sorted, ih h.2, Map.above_filter _ m h.1]
  · have h2 := hm.2
    rw [List.all_eq_true] at h2 ⊢
    intro e he
    exact h2 e ((List.mem_filter.mp he).1)

end Sys2Proof.Machine
end

