-- ==== Sys2Proof/Laws/Regs.lean ====
section
/-!
SUPPORT. The register file: a field read after a write of it, of another field of its register, or of another register.
-/

namespace Sys2Proof.Machine

/-! Fields of a word. -/

theorem wordFld_eq (w : Word) (lo width : Nat) : wordFld w lo width = w.toNat / 2 ^ lo % 2 ^ width := by
  simp [wordFld, BitVec.toNat_ushiftRight, Nat.shiftRight_eq_div_pow]

theorem fldMask_getLsbD (lo width i : Nat) : (fldMask lo width).getLsbD i = (decide (i < 64) && decide (lo ≤ i) && decide (i < lo + width)) := by
  unfold fldMask
  rw [BitVec.getLsbD_shiftLeft, BitVec.getLsbD_ofNat, Nat.testBit_two_pow_sub_one, Bool.eq_iff_iff]
  simp only [Bool.and_eq_true, Bool.not_eq_true', decide_eq_true_eq, decide_eq_false_iff_not]
  omega

theorem wordFld_testBit (w : Word) (lo width i : Nat) : (wordFld w lo width).testBit i = (decide (i < width) && w.getLsbD (lo + i)) := by
  unfold wordFld
  rw [Nat.testBit_mod_two_pow]
  simp [BitVec.getLsbD, Nat.testBit_shiftRight, BitVec.toNat_ushiftRight]

theorem setWordFld_getLsbD (w : Word) (lo width v i : Nat) : (setWordFld w lo width v).getLsbD i =
    if i < 64 ∧ lo ≤ i ∧ i < lo + width then v.testBit (i - lo) else w.getLsbD i := by
  unfold setWordFld
  rw [BitVec.getLsbD_or, BitVec.getLsbD_and, BitVec.getLsbD_not, BitVec.getLsbD_and, BitVec.getLsbD_shiftLeft, BitVec.getLsbD_ofNat, fldMask_getLsbD]
  by_cases h : i < 64 ∧ lo ≤ i ∧ i < lo + width
  · have h1 : ¬ i < lo := by omega
    have h2 : i - lo < 64 := by omega
    rw [if_pos h]
    generalize w.getLsbD i = b
    simp [h.1, h.2.1, h.2.2, h1, h2]
  · rw [if_neg h]
    by_cases h64 : i < 64
    · generalize w.getLsbD i = b
      by_cases h3 : lo ≤ i
      · have h4 : ¬ i < lo + width := by omega
        simp [h64, h3, h4]
      · simp [h64, h3]
    · rw [BitVec.getLsbD_of_ge _ _ (by omega)]
      simp [h64]

/-- A field holds what was written to it, cut to its width. -/
theorem wordFld_setWordFld_same (w : Word) (lo width v : Nat) (h : lo + width ≤ 64) :
    wordFld (setWordFld w lo width v) lo width = v % 2 ^ width := by
  apply Nat.eq_of_testBit_eq
  intro i
  rw [wordFld_testBit, Nat.testBit_mod_two_pow, setWordFld_getLsbD]
  by_cases hi : i < width
  · rw [if_pos (by omega)]
    simp
  · simp [hi]

/-- A field that does not meet the one written keeps its value. -/
theorem wordFld_setWordFld_disjoint (w : Word) (lo width v lo' width' : Nat) (h : lo + width ≤ lo' ∨ lo' + width' ≤ lo) :
    wordFld (setWordFld w lo width v) lo' width' = wordFld w lo' width' := by
  apply Nat.eq_of_testBit_eq
  intro i
  rw [wordFld_testBit, wordFld_testBit, setWordFld_getLsbD]
  by_cases hi : i < width'
  · rw [if_neg (by omega)]
  · simp [hi]

theorem wordFld_lt (w : Word) (lo width : Nat) : wordFld w lo width < 2 ^ width := Nat.mod_lt _ (Nat.two_pow_pos _)

/-! Registers. -/

@[simp] theorem State.rd_wr_same (s : State) (a : Nat) (v : Word) : (s.wr a v).rd a = v := by simp [State.rd, State.wr]

theorem State.rd_wr_ne (s : State) {a b : Nat} (v : Word) (h : b ≠ a) : (s.wr a v).rd b = s.rd b := by
  simp [State.rd, State.wr, Map.get_put_ne _ _ _ h]

theorem State.fld_wr_same (s : State) (f : Fld) (v : Word) : (s.wr f.addr v).fld f = wordFld v f.lo f.width := by simp [State.fld]

theorem State.fld_wr_ne (s : State) {a : Nat} {f : Fld} (v : Word) (h : f.addr ≠ a) : (s.wr a v).fld f = s.fld f := by
  simp [State.fld, State.rd_wr_ne _ _ h]

/-- A field reads what was written to it, cut to its width. -/
theorem State.fld_setFld_same (s : State) (f : Fld) (v : Nat) (h : f.lo + f.width ≤ 64) : (s.setFld f v).fld f = v % 2 ^ f.width := by
  simp [State.fld, State.setFld, wordFld_setWordFld_same _ _ _ _ h]

/-- Writing a field leaves every other register as it was. -/
theorem State.rd_setFld_ne (s : State) (f : Fld) (v : Nat) {a : Nat} (h : a ≠ f.addr) : (s.setFld f v).rd a = s.rd a := by
  simp [State.setFld, State.rd_wr_ne _ _ h]

theorem State.fld_setFld_ne (s : State) (f g : Fld) (v : Nat) (h : g.addr ≠ f.addr) : (s.setFld f v).fld g = s.fld g := by
  simp [State.fld, State.rd_setFld_ne _ _ _ h]

/-- Writing a field leaves the register's other fields as they were. -/
theorem State.fld_setFld_disjoint (s : State) (f g : Fld) (v : Nat) (h : f.lo + f.width ≤ g.lo ∨ g.lo + g.width ≤ f.lo) :
    (s.setFld f v).fld g = s.fld g := by
  by_cases ha : g.addr = f.addr
  · simp [State.fld, State.setFld, ha, wordFld_setWordFld_disjoint _ _ _ _ _ _ h]
  · exact State.fld_setFld_ne s f g v ha

theorem State.fld_lt (s : State) (f : Fld) : s.fld f < 2 ^ f.width := wordFld_lt _ _ _

theorem State.fld_addFld_same (s : State) (f : Fld) (n : Nat) (h : f.lo + f.width ≤ 64) : (s.addFld f n).fld f = (s.fld f + n) % 2 ^ f.width := by
  simp [State.addFld, State.fld_setFld_same _ _ _ h]

theorem State.fld_incFld_same (s : State) (f : Fld) (h : f.lo + f.width ≤ 64) : (s.incFld f).fld f = (s.fld f + 1) % 2 ^ f.width :=
  State.fld_addFld_same s f 1 h

theorem State.rd_addFld_ne (s : State) (f : Fld) (n : Nat) {a : Nat} (h : a ≠ f.addr) : (s.addFld f n).rd a = s.rd a :=
  State.rd_setFld_ne s f _ h

theorem State.fld_addFld_ne (s : State) (f g : Fld) (n : Nat) (h : g.addr ≠ f.addr) : (s.addFld f n).fld g = s.fld g :=
  State.fld_setFld_ne s f g _ h

theorem State.fld_satFld_same (s : State) (f : Fld) (n : Nat) (h : f.lo + f.width ≤ 64) :
    (s.satFld f n).fld f = min (s.fld f + n) (2 ^ f.width - 1) := by
  have hp : 0 < 2 ^ f.width := Nat.two_pow_pos _
  have : min (s.fld f + n) (2 ^ f.width - 1) < 2 ^ f.width := by omega
  simp [State.satFld, State.fld_setFld_same _ _ _ h, Nat.mod_eq_of_lt this]

theorem State.fld_satFld_ne (s : State) (f g : Fld) (n : Nat) (h : g.addr ≠ f.addr) : (s.satFld f n).fld g = s.fld g :=
  State.fld_setFld_ne s f g _ h

/-- A register write keeps the register file in its canonical form. -/
theorem State.wr_wf (s : State) (a : Nat) (v : Word) (h : Map.wf resetAt s.regs = true) : Map.wf resetAt (s.wr a v).regs = true :=
  Map.wf_put _ _ _ _ h

theorem State.setFld_wf (s : State) (f : Fld) (v : Nat) (h : Map.wf resetAt s.regs = true) : Map.wf resetAt (s.setFld f v).regs = true :=
  State.wr_wf _ _ _ h

/-! Status bits (R45). -/

@[simp] theorem State.noteRise_regs (s : State) (f : Fld) (d : Nat) : (s.noteRise f d).regs = s.regs := rfl
@[simp] theorem State.noteRise_fld (s : State) (f g : Fld) (d : Nat) : (s.noteRise f d).fld g = s.fld g := rfl
@[simp] theorem State.noteRise_rd (s : State) (f : Fld) (d a : Nat) : (s.noteRise f d).rd a = s.rd a := rfl

/-- A raised status bit reads 1. -/
theorem State.raiseWith_on (s : State) (f : Fld) (en d : Nat) (h1 : f.lo + f.width ≤ 64) (h2 : f.width = 1) :
    (s.raiseWith f en d).fld f = 1 := by
  unfold State.raiseWith
  split
  · rename_i h; simpa [State.on, State.noteRise_fld] using h
  · have : (s.setFld f 1).fld f = 1 := (State.fld_setFld_same _ _ _ h1).trans (by simp [h2])
    split
    · exact this
    · exact this

end Sys2Proof.Machine
end

