-- ==== Sys2Proof/Laws/Step.lean ====
section
/-!
SUPPORT. What every command has in common: when it has an effect, how it ends, and what holds of mip after it.
-/

namespace Sys2Proof.Machine

/-! The end of a command. -/

@[simp] theorem State.settle_regs (s t : State) : (s.settle t).regs = t.regs := rfl
@[simp] theorem State.settle_pending (s t : State) : (s.settle t).pending = s.pending := rfl
@[simp] theorem State.settle_rd (s t : State) (a : Nat) : (s.settle t).rd a = t.rd a := rfl
@[simp] theorem State.settle_fld (s t : State) (f : Fld) : (s.settle t).fld f = t.fld f := rfl
@[simp] theorem State.settle_on (s t : State) (f : Fld) : (s.settle t).on f = t.on f := rfl
@[simp] theorem State.settle_clx (s t : State) (sl k : Nat) : (s.settle t).clx sl k = t.clx sl k := rfl

/-- Settling changes no part of the state. -/
theorem State.settle_same (s t : State) (p : Part) : p.same t (s.settle t) := by
  cases p <;> first | rfl | exact ⟨rfl, rfl⟩ | exact ⟨rfl, rfl, rfl, rfl, rfl, rfl, rfl⟩

theorem SameBut.settle {ps : List Part} {s t : State} (u : State) (h : SameBut ps s t) : SameBut ps s (u.settle t) := by
  intro p hp
  have := h p hp
  cases p <;> exact this

theorem b2n_bit (b : Bool) : bitOf (b2n b) 0 = b := by cases b <;> rfl

theorem getD_range_map (f : Nat → Bool) {n i : Nat} (h : i < n) : ((List.range n).map f).getD i false = f i := by
  simp [List.getD, h]

/-- mip agrees with what it stands for in every settled state. -/
theorem State.settle_mipAgrees (s t : State) : (s.settle t).mipAgrees := by
  intro sl k hs hk
  have hn : clKey sl k < 16 := by unfold clKey; omega
  have h4 : clKey sl k / 4 = sl := by unfold clKey; omega
  have h5 : clKey sl k % 4 = k := by unfold clKey; omega
  have e1 : (s.settle t).core.cfip.getD (clKey sl k) false = t.hasFaults (clKey sl k) := getD_range_map _ hn
  have e2 : (s.settle t).core.cpoip.getD (clKey sl k) false = t.hasOverflow (clKey sl k) := getD_range_map _ hn
  unfold State.curatorMip
  rw [e1, e2]
  constructor
  · have : bitOf (65536 * b2n (t.hasFaults (clKey sl k)) + 131072 * b2n (t.hasOverflow (clKey sl k))) 16 = t.hasFaults (clKey sl k) := by
      cases t.hasFaults (clKey sl k) <;> cases t.hasOverflow (clKey sl k) <;> rfl
    rw [this]
    simp [State.hasFaults, State.clx]
    exact Iff.rfl
  · have : bitOf (65536 * b2n (t.hasFaults (clKey sl k)) + 131072 * b2n (t.hasOverflow (clKey sl k))) 17 = t.hasOverflow (clKey sl k) := by
      cases t.hasFaults (clKey sl k) <;> cases t.hasOverflow (clKey sl k) <;> rfl
    rw [this]
    simp only [State.hasOverflow, h4, h5, List.any_eq_true, List.mem_range, Bool.and_eq_true, State.settle_rd]

/-! What a command that is let through answers. -/

@[simp] theorem settled_next (s t : State) : settled s (.next t) = .next (s.settle t) := rfl

theorem whenUp_of_up {s : State} {o : Host.Outcome State Fault Refusal} (h : s.running = true) : whenUp s o = settled s o := by simp [whenUp, h]

theorem whenSlices_of_up {s : State} {o : Host.Outcome State Fault Refusal} (h : s.slicesUp = true) : whenSlices s o = settled s o := by
  simp [whenSlices, h]

theorem whenKeeper_of_up {s : State} {o : Host.Outcome State Fault Refusal} (h : s.running = true) (h2 : s.boot.romPending = false) :
    whenKeeper s o = settled s o := by simp [whenKeeper, h, h2]

theorem whenUp_of_down {s : State} {o : Host.Outcome State Fault Refusal} (h : s.running = false) : whenUp s o = .next s := by simp [whenUp, h]

theorem whenSlices_of_down {s : State} {o : Host.Outcome State Fault Refusal} (h : s.slicesUp = false) : whenSlices s o = .next s := by
  simp [whenSlices, h]

theorem whenKeeper_of_down {s : State} {o : Host.Outcome State Fault Refusal} (h : s.running = false) : whenKeeper s o = .next s := by
  simp [whenKeeper, h]

theorem slicesUp_running {s : State} (h : s.slicesUp = true) : s.running = true := by
  unfold State.slicesUp at h; simp at h; exact h.1

/-- A next state of a gated command is the state itself or a settled one. -/
theorem settled_next_cases {s t : State} {o : Host.Outcome State Fault Refusal} (h : settled s o = .next t) : ∃ u, t = s.settle u := by
  cases o with
  | next u => exact ⟨u, by simpa [settled] using h.symm⟩
  | fault f => simp [settled] at h
  | refused r => simp [settled] at h

theorem whenAny_cases {s t : State} {o : Host.Outcome State Fault Refusal} (h : whenAny s o = .next t) : ∃ u, t = s.settle u := settled_next_cases h

theorem whenUp_cases {s t : State} {o : Host.Outcome State Fault Refusal} (h : whenUp s o = .next t) : t = s ∨ ∃ u, t = s.settle u := by
  unfold whenUp at h
  split at h
  · exact .inr (settled_next_cases h)
  · left; cases h; rfl

theorem whenSlices_cases {s t : State} {o : Host.Outcome State Fault Refusal} (h : whenSlices s o = .next t) : t = s ∨ ∃ u, t = s.settle u := by
  unfold whenSlices at h
  split at h
  · exact .inr (settled_next_cases h)
  · left; cases h; rfl

theorem whenKeeper_cases {s t : State} {o : Host.Outcome State Fault Refusal} (h : whenKeeper s o = .next t) : t = s ∨ ∃ u, t = s.settle u := by
  unfold whenKeeper at h
  split at h
  · exact .inr (settled_next_cases h)
  · left; cases h; rfl

end Sys2Proof.Machine
end

