-- ==== Sys2Proof/Laws/Frame.lean ====
section
/-!
SUPPORT. What the shared operations leave as it was: Only is kept by each of them, so that the frame of a command follows its definition.
-/

namespace Sys2Proof.Machine

variable {ps : List Part} {fs : List Fld} {s t u : State}

theorem Part.same_refl (p : Part) (s : State) : p.same s s := by cases p <;> simp [Part.same]

theorem Part.same_trans {p : Part} {s t u : State} (h1 : p.same s t) (h2 : p.same t u) : p.same s u := by
  cases p <;> simp only [Part.same] at * <;> simp_all

theorem SameBut.trans (h1 : SameBut ps s t) (h2 : SameBut ps t u) : SameBut ps s u := fun p hp => Part.same_trans (h1 p hp) (h2 p hp)

theorem FldsBut.trans (h1 : FldsBut fs s t) (h2 : FldsBut fs t u) : FldsBut fs s u := fun a i h => (h2 a i h).trans (h1 a i h)

theorem RisesBut.trans (h1 : RisesBut fs s t) (h2 : RisesBut fs t u) : RisesBut fs s u := fun k h => (h2 k h).trans (h1 k h)

theorem Only.trans (h1 : Only ps fs s t) (h2 : Only ps fs t u) : Only ps fs s u := ⟨h1.1.trans h2.1, h1.2.1.trans h2.2.1, h1.2.2.trans h2.2.2⟩

theorem Only.refl : Only ps fs s s := ⟨fun p _ => p.same_refl s, fun _ _ _ => rfl, fun _ _ => rfl⟩

theorem Only.mono {qs : List Part} {gs : List Fld} (h : Only ps fs s t) (hp : ∀ p ∈ ps, p ∈ qs) (hf : ∀ f ∈ fs, f ∈ gs) : Only qs gs s t := by
  refine ⟨fun p hp' => h.1 p ?_, fun a i hg => h.2.1 a i fun f hf' => hg f (hf f hf'), fun k hk => h.2.2 k fun f hf' => hk f (hf f hf')⟩
  intro hm
  rcases List.mem_cons.1 hm with rfl | hm
  · exact hp' (List.mem_cons_self ..)
  · exact hp' (List.mem_cons_of_mem _ (hp p hm))

/-- Settling changes nothing that Only speaks of. -/
theorem Only.settle (v : State) (h : Only ps fs s t) : Only ps fs s (v.settle t) := ⟨SameBut.settle v h.1, h.2⟩

/-- A change of the parts ps that leaves the registers. -/
theorem Only.parts (h : Only ps fs s t) (hr : u.regs = t.regs) (hs : SameBut (.regs :: ps) t u) (hq : u.rises = t.rises := by rfl) : Only ps fs s u :=
  ⟨h.1.trans hs, fun a i hg => by have : u.rd a = t.rd a := by simp [State.rd, hr]
                                  rw [this]; exact h.2.1 a i hg, fun k hk => by rw [hq]; exact h.2.2 k hk⟩

theorem wr_parts (s : State) (a : Nat) (v : Word) : SameBut (.regs :: ps) s (s.wr a v) := by
  intro p hp
  cases p <;> first | exact absurd (List.mem_cons_self ..) hp | simp [Part.same, State.wr]

theorem Only.wr {a : Nat} (v : Word) (h : Only ps fs s t) (hf : ⟨a, 0, 64⟩ ∈ fs) : Only ps fs s (t.wr a v) := by
  refine ⟨h.1.trans (wr_parts _ _ _), fun b i hg => ?_, h.2.2⟩
  by_cases hb : b = a
  · subst hb
    have := hg _ hf rfl
    have hi : 64 ≤ i := by simpa using this
    simp [BitVec.getLsbD_of_ge _ _ hi]
  · rw [State.rd_wr_ne _ _ hb]; exact h.2.1 b i hg

theorem Only.setFld {f : Fld} (v : Nat) (h : Only ps fs s t) (hf : f ∈ fs) : Only ps fs s (t.setFld f v) := by
  refine ⟨h.1.trans (wr_parts _ _ _), fun b i hg => ?_, h.2.2⟩
  by_cases hb : b = f.addr
  · subst hb
    have := hg _ hf rfl
    rw [State.setFld, State.rd_wr_same, setWordFld_getLsbD]
    rw [← h.2.1 _ i hg]
    by_cases hi : i < 64
    · rw [if_neg (by omega)]
    · rw [BitVec.getLsbD_of_ge _ _ (by omega)]
      split <;> simp_all
  · rw [State.setFld, State.rd_wr_ne _ _ hb]; exact h.2.1 b i hg

theorem Only.addFld {f : Fld} (n : Nat) (h : Only ps fs s t) (hf : f ∈ fs) : Only ps fs s (t.addFld f n) := h.setFld _ hf
theorem Only.incFld {f : Fld} (h : Only ps fs s t) (hf : f ∈ fs) : Only ps fs s (t.incFld f) := h.setFld _ hf
theorem Only.satFld {f : Fld} (n : Nat) (h : Only ps fs s t) (hf : f ∈ fs) : Only ps fs s (t.satFld f n) := h.setFld _ hf
theorem Only.subFld {f : Fld} (n : Nat) (h : Only ps fs s t) (hf : f ∈ fs) : Only ps fs s (t.subFld f n) := h.setFld _ hf
theorem Only.peakFld {f : Fld} (n : Nat) (h : Only ps fs s t) (hf : f ∈ fs) : Only ps fs s (t.peakFld f n) := h.setFld _ hf

theorem Only.notify (a b d : Nat) (h : Only ps fs s t) (hp : Part.keeperPend ∈ ps) : Only ps fs s (t.notify a b d) := by
  refine h.parts rfl fun p hp' => ?_
  cases p <;> first | exact absurd (List.mem_cons_of_mem _ hp) hp' | simp [Part.same, State.notify]

theorem noteRise_parts (s : State) (f : Fld) (d : Nat) : SameBut (.regs :: ps) s (s.noteRise f d) := by
  intro p hp
  cases p <;> first | exact absurd (List.mem_cons_self ..) hp | simp [Part.same, State.noteRise]

/-- Noting that an event set a status bit is a change of that bit alone. -/
theorem Only.noteRise {f : Fld} (d : Nat) (h : Only ps fs s t) (hf : f ∈ fs) : Only ps fs s (t.noteRise f d) :=
  ⟨h.1.trans (noteRise_parts _ _ _), h.2.1, fun k hk => (Map.find?_insert_ne _ _ (hk f hf)).trans (h.2.2 k hk)⟩

theorem Only.raiseWith {f : Fld} (en d : Nat) (h : Only ps fs s t) (hf : f ∈ fs) (hp : Part.keeperPend ∈ ps) :
    Only ps fs s (t.raiseWith f en d) := by
  unfold State.raiseWith
  split
  · exact h.noteRise _ hf
  · have h1 := (h.setFld 1 hf).noteRise d hf
    split
    · exact h1.notify _ _ _ hp
    · exact h1

theorem Only.raise {f : Fld} (en : Nat) (h : Only ps fs s t) (hf : f ∈ fs) (hp : Part.keeperPend ∈ ps) : Only ps fs s (t.raise f en) :=
  h.raiseWith en 0 hf hp

theorem Only.emit (e : Emit) (h : Only ps fs s t) (hp : Part.out ∈ ps) : Only ps fs s (t.emit e) := by
  refine h.parts rfl fun p hp' => ?_
  cases p <;> first | exact absurd (List.mem_cons_of_mem _ hp) hp' | simp [Part.same, State.emit]

theorem Only.logEvent (a b d : Nat) (h : Only ps fs s t) (hp : Part.eventLog ∈ ps) : Only ps fs s (t.logEvent a b d) := by
  refine h.parts rfl fun p hp' => ?_
  cases p <;> first | exact absurd (List.mem_cons_of_mem _ hp) hp' | simp [Part.same, State.logEvent]

theorem Only.draw (h : Only ps fs s t) : Only ps fs s t.draw := by
  refine h.parts rfl fun p hp' => ?_
  cases p <;> first | exact absurd (List.mem_cons_self ..) hp' | simp [Part.same, State.draw]

/-! What a field reads after operations that Only describes. -/

/-- A field that meets none of the fields that have changed reads what it read. -/
theorem FldsBut.fld (h : FldsBut fs s t) (g : Fld) (hg : ∀ f ∈ fs, f.addr = g.addr → g.lo + g.width ≤ f.lo ∨ f.lo + f.width ≤ g.lo) : t.fld g = s.fld g := by
  unfold State.fld
  apply Nat.eq_of_testBit_eq
  intro i
  rw [wordFld_testBit, wordFld_testBit]
  by_cases hi : i < g.width
  · rw [h g.addr (g.lo + i) fun f hf ha => by rcases hg f hf ha with h | h <;> omega]
  · simp [hi]

/-- A register that none of the changed fields belongs to reads what it read. -/
theorem FldsBut.rd (h : FldsBut fs s t) {a : Nat} (ha : ∀ f ∈ fs, f.addr ≠ a) : t.rd a = s.rd a :=
  BitVec.eq_of_getLsbD_eq fun i _ => h a i fun f hf e => absurd e (ha f hf)

theorem Only.ite {c : Prop} [Decidable c] {u : State} (h1 : Only ps fs s t) (h2 : Only ps fs s u) : Only ps fs s (if c then t else u) := by
  split
  · exact h1
  · exact h2

/-! Counting events. -/

theorem mem_coreCounterFlds {sl k m : Nat} (h : m < 48) :
    F.CORE_HPM sl k m ∈ coreCounterFlds sl k ∧ (⟨R.CORE_HPM_EVT sl k m, 63, 1⟩ : Fld) ∈ coreCounterFlds sl k ∧
    (⟨R.CORE_OVF sl k, m, 1⟩ : Fld) ∈ coreCounterFlds sl k ∧ F.CORE_INHIBIT sl k (m / 6) ∈ coreCounterFlds sl k := by
  have h6 : m / 6 < 8 := by omega
  refine ⟨?_, ?_, ?_, ?_⟩
  · exact List.mem_append_left _ (List.mem_flatten.2 ⟨_, List.mem_map.2 ⟨m, List.mem_range.2 h, rfl⟩, by simp⟩)
  · exact List.mem_append_left _ (List.mem_flatten.2 ⟨_, List.mem_map.2 ⟨m, List.mem_range.2 h, rfl⟩, by simp⟩)
  · exact List.mem_append_left _ (List.mem_flatten.2 ⟨_, List.mem_map.2 ⟨m, List.mem_range.2 h, rfl⟩, by simp⟩)
  · exact List.mem_append_right _ (List.mem_map.2 ⟨m / 6, List.mem_range.2 h6, rfl⟩)

theorem Only.coreAdd {sl k m : Nat} (n : Nat) (h : Only ps fs s t) (hm : m < 48) (hf : ∀ f ∈ coreCounterFlds sl k, f ∈ fs) :
    Only ps fs s (t.coreAdd sl k m n) := by
  obtain ⟨h1, h2, h3, h4⟩ := mem_coreCounterFlds (sl := sl) (k := k) hm
  have hh := h.addFld n (hf _ h1)
  simp only [State.coreAdd]
  split
  · exact hh
  · have h5 := (hh.setFld 1 (hf _ h2)).setFld 1 (hf _ h3)
    split
    · exact h5.setFld _ (hf _ h4)
    · exact h5

theorem Only.foldl {α : Type} (f : State → α → State) (l : List α) (hf : ∀ (u : State) (x : α), x ∈ l → Only ps fs s u → Only ps fs s (f u x)) :
    ∀ (u : State), Only ps fs s u → Only ps fs s (l.foldl f u) := by
  induction l with
  | nil => exact fun _ h => h
  | cons a l ih => exact fun u h => ih (fun v x hx => hf v x (List.mem_cons_of_mem _ hx)) _ (hf u a (List.mem_cons_self ..) h)

/-- Counting a thread event changes the cluster's core counters alone. -/
theorem Only.pmuThread {sl k i : Nat} (m : Bool) (ev n : Nat) (h : Only ps fs s t) (hi : i < 32) (hf : ∀ f ∈ coreCounterFlds sl k, f ∈ fs) :
    Only ps fs s (t.pmuThread sl k i m ev n) := by
  unfold State.pmuThread
  dsimp only
  split
  · exact h
  · refine Only.foldl _ _ (fun u j hj hu => ?_) _ h
    have : j < 6 := List.mem_range.1 hj
    exact Only.ite (hu.coreAdd n (by omega) hf) hu

/-- Counting a core event changes the cluster's core counters alone. -/
theorem Only.pmuCore {sl k c : Nat} (ev n : Nat) (h : Only ps fs s t) (hc : c < 8) (hf : ∀ f ∈ coreCounterFlds sl k, f ∈ fs) :
    Only ps fs s (t.pmuCore sl k c ev n) := by
  unfold State.pmuCore
  split
  · exact h
  · refine Only.foldl _ _ (fun u j hj hu => ?_) _ h
    have : j < 6 := List.mem_range.1 hj
    exact Only.ite (hu.coreAdd n (by omega) hf) hu

theorem Only.scheduleFreeze (fz : Bool) (h : Only ps fs s t) (hp : Part.pmu ∈ ps) : Only ps fs s (t.scheduleFreeze fz) := by
  refine h.parts rfl fun p hp' => ?_
  cases p <;> first | exact absurd (List.mem_cons_of_mem _ hp) hp' | simp [Part.same, State.scheduleFreeze]

theorem Only.uncAdd {k m : Nat} (n : Nat) (h : Only ps fs s t) (hm : m < 8) (hf : ∀ f ∈ uncCounterFlds k, f ∈ fs) (hp : Part.pmu ∈ ps)
    (hq : Part.keeperPend ∈ ps) : Only ps fs s (t.uncAdd k m n) := by
  have mem : ∀ f ∈ [F.UNC_CTR k m, (⟨R.UNC_EVT k m, 63, 1⟩ : Fld), ⟨R.UNC_OVF k, m, 1⟩], f ∈ fs := fun f hf' =>
    hf f (List.mem_append_left _ (List.mem_flatten.2 ⟨_, List.mem_map.2 ⟨m, List.mem_range.2 hm, rfl⟩, hf'⟩))
  have hfr : F.UNC_FREEZE_FROZEN k ∈ fs := hf _ (List.mem_append_right _ (by simp))
  have hov : F.PMU_INT_STATUS_OVF_SEEN k ∈ fs := hf _ (List.mem_append_right _ (by simp))
  have hh := h.addFld n (mem (F.UNC_CTR k m) (by simp))
  simp only [State.uncAdd]
  split
  · exact hh
  · have h2 := (hh.setFld 1 (mem (⟨R.UNC_EVT k m, 63, 1⟩ : Fld) (by simp))).setFld 1 (mem (⟨R.UNC_OVF k, m, 1⟩ : Fld) (by simp))
    have h3 := fun (b : Bool) => Only.ite (c := b = true) (h2.setFld 1 hfr) h2
    have h4 := fun (b c : Bool) => Only.ite (c := c = true) ((h3 b).raise (R.PMU_INT_ENABLE k) hov hq) (h3 b)
    exact Only.ite ((h4 _ _).scheduleFreeze _ hp) (h4 _ _)

/-- Counting an uncore event changes the slice's uncore counters, their status bit, and a freeze they ask for. -/
theorem Only.pmuUnc {k : Nat} (ev n : Nat) (c : UncCtx) (h : Only ps fs s t) (hf : ∀ f ∈ uncCounterFlds k, f ∈ fs) (hp : Part.pmu ∈ ps)
    (hq : Part.keeperPend ∈ ps) : Only ps fs s (t.pmuUnc k ev n c) := by
  unfold State.pmuUnc
  split
  · exact h
  · refine Only.foldl _ _ (fun u j hj hu => ?_) _ h
    have : j < 8 := List.mem_range.1 hj
    exact Only.ite (hu.uncAdd n this hf hp hq) hu

end Sys2Proof.Machine
end

