-- ==== Sys2Proof/Laws/State.lean ====
section
/-!
SUPPORT. What each named update does to each field of State: one lemma a field, so that no proof unfolds a record update.
-/

namespace Sys2Proof.Machine

variable (s : State)

/-! wr -/

@[simp] theorem State.wr_regs (a : Nat) (v : Word) : (s.wr a v).regs = Map.put resetAt s.regs a v := rfl
@[simp] theorem State.wr_keeperPend (a : Nat) (v : Word) : (s.wr a v).keeperPend = s.keeperPend := rfl
@[simp] theorem State.wr_eventLog (a : Nat) (v : Word) : (s.wr a v).eventLog = s.eventLog := rfl
@[simp] theorem State.wr_eventSeq (a : Nat) (v : Word) : (s.wr a v).eventSeq = s.eventSeq := rfl
@[simp] theorem State.wr_poisoned (a : Nat) (v : Word) : (s.wr a v).poisoned = s.poisoned := rfl
@[simp] theorem State.wr_rises (a : Nat) (v : Word) : (s.wr a v).rises = s.rises := rfl
@[simp] theorem State.wr_time (a : Nat) (v : Word) : (s.wr a v).time = s.time := rfl
@[simp] theorem State.wr_arb (a : Nat) (v : Word) : (s.wr a v).arb = s.arb := rfl
@[simp] theorem State.wr_core (a : Nat) (v : Word) : (s.wr a v).core = s.core := rfl
@[simp] theorem State.wr_mem (a : Nat) (v : Word) : (s.wr a v).mem = s.mem := rfl
@[simp] theorem State.wr_rings (a : Nat) (v : Word) : (s.wr a v).rings = s.rings := rfl
@[simp] theorem State.wr_pcie (a : Nat) (v : Word) : (s.wr a v).pcie = s.pcie := rfl
@[simp] theorem State.wr_inst (a : Nat) (v : Word) : (s.wr a v).inst = s.inst := rfl
@[simp] theorem State.wr_fe (a : Nat) (v : Word) : (s.wr a v).fe = s.fe := rfl
@[simp] theorem State.wr_eth (a : Nat) (v : Word) : (s.wr a v).eth = s.eth := rfl
@[simp] theorem State.wr_cat (a : Nat) (v : Word) : (s.wr a v).cat = s.cat := rfl
@[simp] theorem State.wr_addr (a : Nat) (v : Word) : (s.wr a v).addr = s.addr := rfl
@[simp] theorem State.wr_cipher (a : Nat) (v : Word) : (s.wr a v).cipher = s.cipher := rfl
@[simp] theorem State.wr_kra (a : Nat) (v : Word) : (s.wr a v).kra = s.kra := rfl
@[simp] theorem State.wr_flash (a : Nat) (v : Word) : (s.wr a v).flash = s.flash := rfl
@[simp] theorem State.wr_nv (a : Nat) (v : Word) : (s.wr a v).nv = s.nv := rfl
@[simp] theorem State.wr_mgmt (a : Nat) (v : Word) : (s.wr a v).mgmt = s.mgmt := rfl
@[simp] theorem State.wr_boot (a : Nat) (v : Word) : (s.wr a v).boot = s.boot := rfl
@[simp] theorem State.wr_power (a : Nat) (v : Word) : (s.wr a v).power = s.power := rfl
@[simp] theorem State.wr_links (a : Nat) (v : Word) : (s.wr a v).links = s.links := rfl
@[simp] theorem State.wr_fed (a : Nat) (v : Word) : (s.wr a v).fed = s.fed := rfl
@[simp] theorem State.wr_pmuFrozen (a : Nat) (v : Word) : (s.wr a v).pmuFrozen = s.pmuFrozen := rfl
@[simp] theorem State.wr_pmuPending (a : Nat) (v : Word) : (s.wr a v).pmuPending = s.pmuPending := rfl
@[simp] theorem State.wr_out (a : Nat) (v : Word) : (s.wr a v).out = s.out := rfl
@[simp] theorem State.wr_freeCtr (a : Nat) (v : Word) : (s.wr a v).freeCtr = s.freeCtr := rfl
@[simp] theorem State.wr_pending (a : Nat) (v : Word) : (s.wr a v).pending = s.pending := rfl

/-! setFld -/

@[simp] theorem State.setFld_keeperPend (f : Fld) (v : Nat) : (s.setFld f v).keeperPend = s.keeperPend := rfl
@[simp] theorem State.setFld_eventLog (f : Fld) (v : Nat) : (s.setFld f v).eventLog = s.eventLog := rfl
@[simp] theorem State.setFld_eventSeq (f : Fld) (v : Nat) : (s.setFld f v).eventSeq = s.eventSeq := rfl
@[simp] theorem State.setFld_poisoned (f : Fld) (v : Nat) : (s.setFld f v).poisoned = s.poisoned := rfl
@[simp] theorem State.setFld_rises (f : Fld) (v : Nat) : (s.setFld f v).rises = s.rises := rfl
@[simp] theorem State.setFld_time (f : Fld) (v : Nat) : (s.setFld f v).time = s.time := rfl
@[simp] theorem State.setFld_arb (f : Fld) (v : Nat) : (s.setFld f v).arb = s.arb := rfl
@[simp] theorem State.setFld_core (f : Fld) (v : Nat) : (s.setFld f v).core = s.core := rfl
@[simp] theorem State.setFld_mem (f : Fld) (v : Nat) : (s.setFld f v).mem = s.mem := rfl
@[simp] theorem State.setFld_rings (f : Fld) (v : Nat) : (s.setFld f v).rings = s.rings := rfl
@[simp] theorem State.setFld_pcie (f : Fld) (v : Nat) : (s.setFld f v).pcie = s.pcie := rfl
@[simp] theorem State.setFld_inst (f : Fld) (v : Nat) : (s.setFld f v).inst = s.inst := rfl
@[simp] theorem State.setFld_fe (f : Fld) (v : Nat) : (s.setFld f v).fe = s.fe := rfl
@[simp] theorem State.setFld_eth (f : Fld) (v : Nat) : (s.setFld f v).eth = s.eth := rfl
@[simp] theorem State.setFld_cat (f : Fld) (v : Nat) : (s.setFld f v).cat = s.cat := rfl
@[simp] theorem State.setFld_addr (f : Fld) (v : Nat) : (s.setFld f v).addr = s.addr := rfl
@[simp] theorem State.setFld_cipher (f : Fld) (v : Nat) : (s.setFld f v).cipher = s.cipher := rfl
@[simp] theorem State.setFld_kra (f : Fld) (v : Nat) : (s.setFld f v).kra = s.kra := rfl
@[simp] theorem State.setFld_flash (f : Fld) (v : Nat) : (s.setFld f v).flash = s.flash := rfl
@[simp] theorem State.setFld_nv (f : Fld) (v : Nat) : (s.setFld f v).nv = s.nv := rfl
@[simp] theorem State.setFld_mgmt (f : Fld) (v : Nat) : (s.setFld f v).mgmt = s.mgmt := rfl
@[simp] theorem State.setFld_boot (f : Fld) (v : Nat) : (s.setFld f v).boot = s.boot := rfl
@[simp] theorem State.setFld_power (f : Fld) (v : Nat) : (s.setFld f v).power = s.power := rfl
@[simp] theorem State.setFld_links (f : Fld) (v : Nat) : (s.setFld f v).links = s.links := rfl
@[simp] theorem State.setFld_fed (f : Fld) (v : Nat) : (s.setFld f v).fed = s.fed := rfl
@[simp] theorem State.setFld_pmuFrozen (f : Fld) (v : Nat) : (s.setFld f v).pmuFrozen = s.pmuFrozen := rfl
@[simp] theorem State.setFld_pmuPending (f : Fld) (v : Nat) : (s.setFld f v).pmuPending = s.pmuPending := rfl
@[simp] theorem State.setFld_out (f : Fld) (v : Nat) : (s.setFld f v).out = s.out := rfl
@[simp] theorem State.setFld_freeCtr (f : Fld) (v : Nat) : (s.setFld f v).freeCtr = s.freeCtr := rfl
@[simp] theorem State.setFld_pending (f : Fld) (v : Nat) : (s.setFld f v).pending = s.pending := rfl

/-! addFld -/

@[simp] theorem State.addFld_keeperPend (f : Fld) (v : Nat) : (s.addFld f v).keeperPend = s.keeperPend := rfl
@[simp] theorem State.addFld_eventLog (f : Fld) (v : Nat) : (s.addFld f v).eventLog = s.eventLog := rfl
@[simp] theorem State.addFld_eventSeq (f : Fld) (v : Nat) : (s.addFld f v).eventSeq = s.eventSeq := rfl
@[simp] theorem State.addFld_poisoned (f : Fld) (v : Nat) : (s.addFld f v).poisoned = s.poisoned := rfl
@[simp] theorem State.addFld_rises (f : Fld) (v : Nat) : (s.addFld f v).rises = s.rises := rfl
@[simp] theorem State.addFld_time (f : Fld) (v : Nat) : (s.addFld f v).time = s.time := rfl
@[simp] theorem State.addFld_arb (f : Fld) (v : Nat) : (s.addFld f v).arb = s.arb := rfl
@[simp] theorem State.addFld_core (f : Fld) (v : Nat) : (s.addFld f v).core = s.core := rfl
@[simp] theorem State.addFld_mem (f : Fld) (v : Nat) : (s.addFld f v).mem = s.mem := rfl
@[simp] theorem State.addFld_rings (f : Fld) (v : Nat) : (s.addFld f v).rings = s.rings := rfl
@[simp] theorem State.addFld_pcie (f : Fld) (v : Nat) : (s.addFld f v).pcie = s.pcie := rfl
@[simp] theorem State.addFld_inst (f : Fld) (v : Nat) : (s.addFld f v).inst = s.inst := rfl
@[simp] theorem State.addFld_fe (f : Fld) (v : Nat) : (s.addFld f v).fe = s.fe := rfl
@[simp] theorem State.addFld_eth (f : Fld) (v : Nat) : (s.addFld f v).eth = s.eth := rfl
@[simp] theorem State.addFld_cat (f : Fld) (v : Nat) : (s.addFld f v).cat = s.cat := rfl
@[simp] theorem State.addFld_addr (f : Fld) (v : Nat) : (s.addFld f v).addr = s.addr := rfl
@[simp] theorem State.addFld_cipher (f : Fld) (v : Nat) : (s.addFld f v).cipher = s.cipher := rfl
@[simp] theorem State.addFld_kra (f : Fld) (v : Nat) : (s.addFld f v).kra = s.kra := rfl
@[simp] theorem State.addFld_flash (f : Fld) (v : Nat) : (s.addFld f v).flash = s.flash := rfl
@[simp] theorem State.addFld_nv (f : Fld) (v : Nat) : (s.addFld f v).nv = s.nv := rfl
@[simp] theorem State.addFld_mgmt (f : Fld) (v : Nat) : (s.addFld f v).mgmt = s.mgmt := rfl
@[simp] theorem State.addFld_boot (f : Fld) (v : Nat) : (s.addFld f v).boot = s.boot := rfl
@[simp] theorem State.addFld_power (f : Fld) (v : Nat) : (s.addFld f v).power = s.power := rfl
@[simp] theorem State.addFld_links (f : Fld) (v : Nat) : (s.addFld f v).links = s.links := rfl
@[simp] theorem State.addFld_fed (f : Fld) (v : Nat) : (s.addFld f v).fed = s.fed := rfl
@[simp] theorem State.addFld_pmuFrozen (f : Fld) (v : Nat) : (s.addFld f v).pmuFrozen = s.pmuFrozen := rfl
@[simp] theorem State.addFld_pmuPending (f : Fld) (v : Nat) : (s.addFld f v).pmuPending = s.pmuPending := rfl
@[simp] theorem State.addFld_out (f : Fld) (v : Nat) : (s.addFld f v).out = s.out := rfl
@[simp] theorem State.addFld_freeCtr (f : Fld) (v : Nat) : (s.addFld f v).freeCtr = s.freeCtr := rfl
@[simp] theorem State.addFld_pending (f : Fld) (v : Nat) : (s.addFld f v).pending = s.pending := rfl

/-! incFld -/

@[simp] theorem State.incFld_keeperPend (f : Fld) : (s.incFld f).keeperPend = s.keeperPend := rfl
@[simp] theorem State.incFld_eventLog (f : Fld) : (s.incFld f).eventLog = s.eventLog := rfl
@[simp] theorem State.incFld_eventSeq (f : Fld) : (s.incFld f).eventSeq = s.eventSeq := rfl
@[simp] theorem State.incFld_poisoned (f : Fld) : (s.incFld f).poisoned = s.poisoned := rfl
@[simp] theorem State.incFld_rises (f : Fld) : (s.incFld f).rises = s.rises := rfl
@[simp] theorem State.incFld_time (f : Fld) : (s.incFld f).time = s.time := rfl
@[simp] theorem State.incFld_arb (f : Fld) : (s.incFld f).arb = s.arb := rfl
@[simp] theorem State.incFld_core (f : Fld) : (s.incFld f).core = s.core := rfl
@[simp] theorem State.incFld_mem (f : Fld) : (s.incFld f).mem = s.mem := rfl
@[simp] theorem State.incFld_rings (f : Fld) : (s.incFld f).rings = s.rings := rfl
@[simp] theorem State.incFld_pcie (f : Fld) : (s.incFld f).pcie = s.pcie := rfl
@[simp] theorem State.incFld_inst (f : Fld) : (s.incFld f).inst = s.inst := rfl
@[simp] theorem State.incFld_fe (f : Fld) : (s.incFld f).fe = s.fe := rfl
@[simp] theorem State.incFld_eth (f : Fld) : (s.incFld f).eth = s.eth := rfl
@[simp] theorem State.incFld_cat (f : Fld) : (s.incFld f).cat = s.cat := rfl
@[simp] theorem State.incFld_addr (f : Fld) : (s.incFld f).addr = s.addr := rfl
@[simp] theorem State.incFld_cipher (f : Fld) : (s.incFld f).cipher = s.cipher := rfl
@[simp] theorem State.incFld_kra (f : Fld) : (s.incFld f).kra = s.kra := rfl
@[simp] theorem State.incFld_flash (f : Fld) : (s.incFld f).flash = s.flash := rfl
@[simp] theorem State.incFld_nv (f : Fld) : (s.incFld f).nv = s.nv := rfl
@[simp] theorem State.incFld_mgmt (f : Fld) : (s.incFld f).mgmt = s.mgmt := rfl
@[simp] theorem State.incFld_boot (f : Fld) : (s.incFld f).boot = s.boot := rfl
@[simp] theorem State.incFld_power (f : Fld) : (s.incFld f).power = s.power := rfl
@[simp] theorem State.incFld_links (f : Fld) : (s.incFld f).links = s.links := rfl
@[simp] theorem State.incFld_fed (f : Fld) : (s.incFld f).fed = s.fed := rfl
@[simp] theorem State.incFld_pmuFrozen (f : Fld) : (s.incFld f).pmuFrozen = s.pmuFrozen := rfl
@[simp] theorem State.incFld_pmuPending (f : Fld) : (s.incFld f).pmuPending = s.pmuPending := rfl
@[simp] theorem State.incFld_out (f : Fld) : (s.incFld f).out = s.out := rfl
@[simp] theorem State.incFld_freeCtr (f : Fld) : (s.incFld f).freeCtr = s.freeCtr := rfl
@[simp] theorem State.incFld_pending (f : Fld) : (s.incFld f).pending = s.pending := rfl

/-! satFld -/

@[simp] theorem State.satFld_keeperPend (f : Fld) (v : Nat) : (s.satFld f v).keeperPend = s.keeperPend := rfl
@[simp] theorem State.satFld_eventLog (f : Fld) (v : Nat) : (s.satFld f v).eventLog = s.eventLog := rfl
@[simp] theorem State.satFld_eventSeq (f : Fld) (v : Nat) : (s.satFld f v).eventSeq = s.eventSeq := rfl
@[simp] theorem State.satFld_poisoned (f : Fld) (v : Nat) : (s.satFld f v).poisoned = s.poisoned := rfl
@[simp] theorem State.satFld_rises (f : Fld) (v : Nat) : (s.satFld f v).rises = s.rises := rfl
@[simp] theorem State.satFld_time (f : Fld) (v : Nat) : (s.satFld f v).time = s.time := rfl
@[simp] theorem State.satFld_arb (f : Fld) (v : Nat) : (s.satFld f v).arb = s.arb := rfl
@[simp] theorem State.satFld_core (f : Fld) (v : Nat) : (s.satFld f v).core = s.core := rfl
@[simp] theorem State.satFld_mem (f : Fld) (v : Nat) : (s.satFld f v).mem = s.mem := rfl
@[simp] theorem State.satFld_rings (f : Fld) (v : Nat) : (s.satFld f v).rings = s.rings := rfl
@[simp] theorem State.satFld_pcie (f : Fld) (v : Nat) : (s.satFld f v).pcie = s.pcie := rfl
@[simp] theorem State.satFld_inst (f : Fld) (v : Nat) : (s.satFld f v).inst = s.inst := rfl
@[simp] theorem State.satFld_fe (f : Fld) (v : Nat) : (s.satFld f v).fe = s.fe := rfl
@[simp] theorem State.satFld_eth (f : Fld) (v : Nat) : (s.satFld f v).eth = s.eth := rfl
@[simp] theorem State.satFld_cat (f : Fld) (v : Nat) : (s.satFld f v).cat = s.cat := rfl
@[simp] theorem State.satFld_addr (f : Fld) (v : Nat) : (s.satFld f v).addr = s.addr := rfl
@[simp] theorem State.satFld_cipher (f : Fld) (v : Nat) : (s.satFld f v).cipher = s.cipher := rfl
@[simp] theorem State.satFld_kra (f : Fld) (v : Nat) : (s.satFld f v).kra = s.kra := rfl
@[simp] theorem State.satFld_flash (f : Fld) (v : Nat) : (s.satFld f v).flash = s.flash := rfl
@[simp] theorem State.satFld_nv (f : Fld) (v : Nat) : (s.satFld f v).nv = s.nv := rfl
@[simp] theorem State.satFld_mgmt (f : Fld) (v : Nat) : (s.satFld f v).mgmt = s.mgmt := rfl
@[simp] theorem State.satFld_boot (f : Fld) (v : Nat) : (s.satFld f v).boot = s.boot := rfl
@[simp] theorem State.satFld_power (f : Fld) (v : Nat) : (s.satFld f v).power = s.power := rfl
@[simp] theorem State.satFld_links (f : Fld) (v : Nat) : (s.satFld f v).links = s.links := rfl
@[simp] theorem State.satFld_fed (f : Fld) (v : Nat) : (s.satFld f v).fed = s.fed := rfl
@[simp] theorem State.satFld_pmuFrozen (f : Fld) (v : Nat) : (s.satFld f v).pmuFrozen = s.pmuFrozen := rfl
@[simp] theorem State.satFld_pmuPending (f : Fld) (v : Nat) : (s.satFld f v).pmuPending = s.pmuPending := rfl
@[simp] theorem State.satFld_out (f : Fld) (v : Nat) : (s.satFld f v).out = s.out := rfl
@[simp] theorem State.satFld_freeCtr (f : Fld) (v : Nat) : (s.satFld f v).freeCtr = s.freeCtr := rfl
@[simp] theorem State.satFld_pending (f : Fld) (v : Nat) : (s.satFld f v).pending = s.pending := rfl

/-! subFld -/

@[simp] theorem State.subFld_keeperPend (f : Fld) (v : Nat) : (s.subFld f v).keeperPend = s.keeperPend := rfl
@[simp] theorem State.subFld_eventLog (f : Fld) (v : Nat) : (s.subFld f v).eventLog = s.eventLog := rfl
@[simp] theorem State.subFld_eventSeq (f : Fld) (v : Nat) : (s.subFld f v).eventSeq = s.eventSeq := rfl
@[simp] theorem State.subFld_poisoned (f : Fld) (v : Nat) : (s.subFld f v).poisoned = s.poisoned := rfl
@[simp] theorem State.subFld_rises (f : Fld) (v : Nat) : (s.subFld f v).rises = s.rises := rfl
@[simp] theorem State.subFld_time (f : Fld) (v : Nat) : (s.subFld f v).time = s.time := rfl
@[simp] theorem State.subFld_arb (f : Fld) (v : Nat) : (s.subFld f v).arb = s.arb := rfl
@[simp] theorem State.subFld_core (f : Fld) (v : Nat) : (s.subFld f v).core = s.core := rfl
@[simp] theorem State.subFld_mem (f : Fld) (v : Nat) : (s.subFld f v).mem = s.mem := rfl
@[simp] theorem State.subFld_rings (f : Fld) (v : Nat) : (s.subFld f v).rings = s.rings := rfl
@[simp] theorem State.subFld_pcie (f : Fld) (v : Nat) : (s.subFld f v).pcie = s.pcie := rfl
@[simp] theorem State.subFld_inst (f : Fld) (v : Nat) : (s.subFld f v).inst = s.inst := rfl
@[simp] theorem State.subFld_fe (f : Fld) (v : Nat) : (s.subFld f v).fe = s.fe := rfl
@[simp] theorem State.subFld_eth (f : Fld) (v : Nat) : (s.subFld f v).eth = s.eth := rfl
@[simp] theorem State.subFld_cat (f : Fld) (v : Nat) : (s.subFld f v).cat = s.cat := rfl
@[simp] theorem State.subFld_addr (f : Fld) (v : Nat) : (s.subFld f v).addr = s.addr := rfl
@[simp] theorem State.subFld_cipher (f : Fld) (v : Nat) : (s.subFld f v).cipher = s.cipher := rfl
@[simp] theorem State.subFld_kra (f : Fld) (v : Nat) : (s.subFld f v).kra = s.kra := rfl
@[simp] theorem State.subFld_flash (f : Fld) (v : Nat) : (s.subFld f v).flash = s.flash := rfl
@[simp] theorem State.subFld_nv (f : Fld) (v : Nat) : (s.subFld f v).nv = s.nv := rfl
@[simp] theorem State.subFld_mgmt (f : Fld) (v : Nat) : (s.subFld f v).mgmt = s.mgmt := rfl
@[simp] theorem State.subFld_boot (f : Fld) (v : Nat) : (s.subFld f v).boot = s.boot := rfl
@[simp] theorem State.subFld_power (f : Fld) (v : Nat) : (s.subFld f v).power = s.power := rfl
@[simp] theorem State.subFld_links (f : Fld) (v : Nat) : (s.subFld f v).links = s.links := rfl
@[simp] theorem State.subFld_fed (f : Fld) (v : Nat) : (s.subFld f v).fed = s.fed := rfl
@[simp] theorem State.subFld_pmuFrozen (f : Fld) (v : Nat) : (s.subFld f v).pmuFrozen = s.pmuFrozen := rfl
@[simp] theorem State.subFld_pmuPending (f : Fld) (v : Nat) : (s.subFld f v).pmuPending = s.pmuPending := rfl
@[simp] theorem State.subFld_out (f : Fld) (v : Nat) : (s.subFld f v).out = s.out := rfl
@[simp] theorem State.subFld_freeCtr (f : Fld) (v : Nat) : (s.subFld f v).freeCtr = s.freeCtr := rfl
@[simp] theorem State.subFld_pending (f : Fld) (v : Nat) : (s.subFld f v).pending = s.pending := rfl

/-! peakFld -/

@[simp] theorem State.peakFld_keeperPend (f : Fld) (v : Nat) : (s.peakFld f v).keeperPend = s.keeperPend := rfl
@[simp] theorem State.peakFld_eventLog (f : Fld) (v : Nat) : (s.peakFld f v).eventLog = s.eventLog := rfl
@[simp] theorem State.peakFld_eventSeq (f : Fld) (v : Nat) : (s.peakFld f v).eventSeq = s.eventSeq := rfl
@[simp] theorem State.peakFld_poisoned (f : Fld) (v : Nat) : (s.peakFld f v).poisoned = s.poisoned := rfl
@[simp] theorem State.peakFld_rises (f : Fld) (v : Nat) : (s.peakFld f v).rises = s.rises := rfl
@[simp] theorem State.peakFld_time (f : Fld) (v : Nat) : (s.peakFld f v).time = s.time := rfl
@[simp] theorem State.peakFld_arb (f : Fld) (v : Nat) : (s.peakFld f v).arb = s.arb := rfl
@[simp] theorem State.peakFld_core (f : Fld) (v : Nat) : (s.peakFld f v).core = s.core := rfl
@[simp] theorem State.peakFld_mem (f : Fld) (v : Nat) : (s.peakFld f v).mem = s.mem := rfl
@[simp] theorem State.peakFld_rings (f : Fld) (v : Nat) : (s.peakFld f v).rings = s.rings := rfl
@[simp] theorem State.peakFld_pcie (f : Fld) (v : Nat) : (s.peakFld f v).pcie = s.pcie := rfl
@[simp] theorem State.peakFld_inst (f : Fld) (v : Nat) : (s.peakFld f v).inst = s.inst := rfl
@[simp] theorem State.peakFld_fe (f : Fld) (v : Nat) : (s.peakFld f v).fe = s.fe := rfl
@[simp] theorem State.peakFld_eth (f : Fld) (v : Nat) : (s.peakFld f v).eth = s.eth := rfl
@[simp] theorem State.peakFld_cat (f : Fld) (v : Nat) : (s.peakFld f v).cat = s.cat := rfl
@[simp] theorem State.peakFld_addr (f : Fld) (v : Nat) : (s.peakFld f v).addr = s.addr := rfl
@[simp] theorem State.peakFld_cipher (f : Fld) (v : Nat) : (s.peakFld f v).cipher = s.cipher := rfl
@[simp] theorem State.peakFld_kra (f : Fld) (v : Nat) : (s.peakFld f v).kra = s.kra := rfl
@[simp] theorem State.peakFld_flash (f : Fld) (v : Nat) : (s.peakFld f v).flash = s.flash := rfl
@[simp] theorem State.peakFld_nv (f : Fld) (v : Nat) : (s.peakFld f v).nv = s.nv := rfl
@[simp] theorem State.peakFld_mgmt (f : Fld) (v : Nat) : (s.peakFld f v).mgmt = s.mgmt := rfl
@[simp] theorem State.peakFld_boot (f : Fld) (v : Nat) : (s.peakFld f v).boot = s.boot := rfl
@[simp] theorem State.peakFld_power (f : Fld) (v : Nat) : (s.peakFld f v).power = s.power := rfl
@[simp] theorem State.peakFld_links (f : Fld) (v : Nat) : (s.peakFld f v).links = s.links := rfl
@[simp] theorem State.peakFld_fed (f : Fld) (v : Nat) : (s.peakFld f v).fed = s.fed := rfl
@[simp] theorem State.peakFld_pmuFrozen (f : Fld) (v : Nat) : (s.peakFld f v).pmuFrozen = s.pmuFrozen := rfl
@[simp] theorem State.peakFld_pmuPending (f : Fld) (v : Nat) : (s.peakFld f v).pmuPending = s.pmuPending := rfl
@[simp] theorem State.peakFld_out (f : Fld) (v : Nat) : (s.peakFld f v).out = s.out := rfl
@[simp] theorem State.peakFld_freeCtr (f : Fld) (v : Nat) : (s.peakFld f v).freeCtr = s.freeCtr := rfl
@[simp] theorem State.peakFld_pending (f : Fld) (v : Nat) : (s.peakFld f v).pending = s.pending := rfl

/-! notify -/

@[simp] theorem State.notify_regs (a b d : Nat) : (s.notify a b d).regs = s.regs := rfl
@[simp] theorem State.notify_keeperPend (a b d : Nat) : (s.notify a b d).keeperPend = s.keeperPend ++ [⟨a, b, d⟩] := rfl
@[simp] theorem State.notify_eventLog (a b d : Nat) : (s.notify a b d).eventLog = s.eventLog := rfl
@[simp] theorem State.notify_eventSeq (a b d : Nat) : (s.notify a b d).eventSeq = s.eventSeq := rfl
@[simp] theorem State.notify_poisoned (a b d : Nat) : (s.notify a b d).poisoned = s.poisoned := rfl
@[simp] theorem State.notify_rises (a b d : Nat) : (s.notify a b d).rises = s.rises := rfl
@[simp] theorem State.notify_time (a b d : Nat) : (s.notify a b d).time = s.time := rfl
@[simp] theorem State.notify_arb (a b d : Nat) : (s.notify a b d).arb = s.arb := rfl
@[simp] theorem State.notify_core (a b d : Nat) : (s.notify a b d).core = s.core := rfl
@[simp] theorem State.notify_mem (a b d : Nat) : (s.notify a b d).mem = s.mem := rfl
@[simp] theorem State.notify_rings (a b d : Nat) : (s.notify a b d).rings = s.rings := rfl
@[simp] theorem State.notify_pcie (a b d : Nat) : (s.notify a b d).pcie = s.pcie := rfl
@[simp] theorem State.notify_inst (a b d : Nat) : (s.notify a b d).inst = s.inst := rfl
@[simp] theorem State.notify_fe (a b d : Nat) : (s.notify a b d).fe = s.fe := rfl
@[simp] theorem State.notify_eth (a b d : Nat) : (s.notify a b d).eth = s.eth := rfl
@[simp] theorem State.notify_cat (a b d : Nat) : (s.notify a b d).cat = s.cat := rfl
@[simp] theorem State.notify_addr (a b d : Nat) : (s.notify a b d).addr = s.addr := rfl
@[simp] theorem State.notify_cipher (a b d : Nat) : (s.notify a b d).cipher = s.cipher := rfl
@[simp] theorem State.notify_kra (a b d : Nat) : (s.notify a b d).kra = s.kra := rfl
@[simp] theorem State.notify_flash (a b d : Nat) : (s.notify a b d).flash = s.flash := rfl
@[simp] theorem State.notify_nv (a b d : Nat) : (s.notify a b d).nv = s.nv := rfl
@[simp] theorem State.notify_mgmt (a b d : Nat) : (s.notify a b d).mgmt = s.mgmt := rfl
@[simp] theorem State.notify_boot (a b d : Nat) : (s.notify a b d).boot = s.boot := rfl
@[simp] theorem State.notify_power (a b d : Nat) : (s.notify a b d).power = s.power := rfl
@[simp] theorem State.notify_links (a b d : Nat) : (s.notify a b d).links = s.links := rfl
@[simp] theorem State.notify_fed (a b d : Nat) : (s.notify a b d).fed = s.fed := rfl
@[simp] theorem State.notify_pmuFrozen (a b d : Nat) : (s.notify a b d).pmuFrozen = s.pmuFrozen := rfl
@[simp] theorem State.notify_pmuPending (a b d : Nat) : (s.notify a b d).pmuPending = s.pmuPending := rfl
@[simp] theorem State.notify_out (a b d : Nat) : (s.notify a b d).out = s.out := rfl
@[simp] theorem State.notify_freeCtr (a b d : Nat) : (s.notify a b d).freeCtr = s.freeCtr := rfl
@[simp] theorem State.notify_pending (a b d : Nat) : (s.notify a b d).pending = s.pending := rfl
@[simp] theorem State.notify_rd (a b d : Nat) (adr : Nat) : (s.notify a b d).rd adr = s.rd adr := rfl
@[simp] theorem State.notify_fld (a b d : Nat) (g : Fld) : (s.notify a b d).fld g = s.fld g := rfl
@[simp] theorem State.notify_on (a b d : Nat) (g : Fld) : (s.notify a b d).on g = s.on g := rfl

/-! emit -/

@[simp] theorem State.emit_regs (e : Emit) : (s.emit e).regs = s.regs := rfl
@[simp] theorem State.emit_keeperPend (e : Emit) : (s.emit e).keeperPend = s.keeperPend := rfl
@[simp] theorem State.emit_eventLog (e : Emit) : (s.emit e).eventLog = s.eventLog := rfl
@[simp] theorem State.emit_eventSeq (e : Emit) : (s.emit e).eventSeq = s.eventSeq := rfl
@[simp] theorem State.emit_poisoned (e : Emit) : (s.emit e).poisoned = s.poisoned := rfl
@[simp] theorem State.emit_rises (e : Emit) : (s.emit e).rises = s.rises := rfl
@[simp] theorem State.emit_time (e : Emit) : (s.emit e).time = s.time := rfl
@[simp] theorem State.emit_arb (e : Emit) : (s.emit e).arb = s.arb := rfl
@[simp] theorem State.emit_core (e : Emit) : (s.emit e).core = s.core := rfl
@[simp] theorem State.emit_mem (e : Emit) : (s.emit e).mem = s.mem := rfl
@[simp] theorem State.emit_rings (e : Emit) : (s.emit e).rings = s.rings := rfl
@[simp] theorem State.emit_pcie (e : Emit) : (s.emit e).pcie = s.pcie := rfl
@[simp] theorem State.emit_inst (e : Emit) : (s.emit e).inst = s.inst := rfl
@[simp] theorem State.emit_fe (e : Emit) : (s.emit e).fe = s.fe := rfl
@[simp] theorem State.emit_eth (e : Emit) : (s.emit e).eth = s.eth := rfl
@[simp] theorem State.emit_cat (e : Emit) : (s.emit e).cat = s.cat := rfl
@[simp] theorem State.emit_addr (e : Emit) : (s.emit e).addr = s.addr := rfl
@[simp] theorem State.emit_cipher (e : Emit) : (s.emit e).cipher = s.cipher := rfl
@[simp] theorem State.emit_kra (e : Emit) : (s.emit e).kra = s.kra := rfl
@[simp] theorem State.emit_flash (e : Emit) : (s.emit e).flash = s.flash := rfl
@[simp] theorem State.emit_nv (e : Emit) : (s.emit e).nv = s.nv := rfl
@[simp] theorem State.emit_mgmt (e : Emit) : (s.emit e).mgmt = s.mgmt := rfl
@[simp] theorem State.emit_boot (e : Emit) : (s.emit e).boot = s.boot := rfl
@[simp] theorem State.emit_power (e : Emit) : (s.emit e).power = s.power := rfl
@[simp] theorem State.emit_links (e : Emit) : (s.emit e).links = s.links := rfl
@[simp] theorem State.emit_fed (e : Emit) : (s.emit e).fed = s.fed := rfl
@[simp] theorem State.emit_pmuFrozen (e : Emit) : (s.emit e).pmuFrozen = s.pmuFrozen := rfl
@[simp] theorem State.emit_pmuPending (e : Emit) : (s.emit e).pmuPending = s.pmuPending := rfl
@[simp] theorem State.emit_out (e : Emit) : (s.emit e).out = s.out ++ [e] := rfl
@[simp] theorem State.emit_freeCtr (e : Emit) : (s.emit e).freeCtr = s.freeCtr := rfl
@[simp] theorem State.emit_pending (e : Emit) : (s.emit e).pending = s.pending := rfl
@[simp] theorem State.emit_rd (e : Emit) (adr : Nat) : (s.emit e).rd adr = s.rd adr := rfl
@[simp] theorem State.emit_fld (e : Emit) (g : Fld) : (s.emit e).fld g = s.fld g := rfl
@[simp] theorem State.emit_on (e : Emit) (g : Fld) : (s.emit e).on g = s.on g := rfl

/-! logEvent -/

@[simp] theorem State.logEvent_regs (a b d : Nat) : (s.logEvent a b d).regs = s.regs := rfl
@[simp] theorem State.logEvent_keeperPend (a b d : Nat) : (s.logEvent a b d).keeperPend = s.keeperPend := rfl
@[simp] theorem State.logEvent_eventLog (a b d : Nat) : (s.logEvent a b d).eventLog = s.eventLog ++ [⟨s.eventSeq, s.time.mono, a, b, d⟩] := rfl
@[simp] theorem State.logEvent_eventSeq (a b d : Nat) : (s.logEvent a b d).eventSeq = s.eventSeq + 1 := rfl
@[simp] theorem State.logEvent_poisoned (a b d : Nat) : (s.logEvent a b d).poisoned = s.poisoned := rfl
@[simp] theorem State.logEvent_rises (a b d : Nat) : (s.logEvent a b d).rises = s.rises := rfl
@[simp] theorem State.logEvent_time (a b d : Nat) : (s.logEvent a b d).time = s.time := rfl
@[simp] theorem State.logEvent_arb (a b d : Nat) : (s.logEvent a b d).arb = s.arb := rfl
@[simp] theorem State.logEvent_core (a b d : Nat) : (s.logEvent a b d).core = s.core := rfl
@[simp] theorem State.logEvent_mem (a b d : Nat) : (s.logEvent a b d).mem = s.mem := rfl
@[simp] theorem State.logEvent_rings (a b d : Nat) : (s.logEvent a b d).rings = s.rings := rfl
@[simp] theorem State.logEvent_pcie (a b d : Nat) : (s.logEvent a b d).pcie = s.pcie := rfl
@[simp] theorem State.logEvent_inst (a b d : Nat) : (s.logEvent a b d).inst = s.inst := rfl
@[simp] theorem State.logEvent_fe (a b d : Nat) : (s.logEvent a b d).fe = s.fe := rfl
@[simp] theorem State.logEvent_eth (a b d : Nat) : (s.logEvent a b d).eth = s.eth := rfl
@[simp] theorem State.logEvent_cat (a b d : Nat) : (s.logEvent a b d).cat = s.cat := rfl
@[simp] theorem State.logEvent_addr (a b d : Nat) : (s.logEvent a b d).addr = s.addr := rfl
@[simp] theorem State.logEvent_cipher (a b d : Nat) : (s.logEvent a b d).cipher = s.cipher := rfl
@[simp] theorem State.logEvent_kra (a b d : Nat) : (s.logEvent a b d).kra = s.kra := rfl
@[simp] theorem State.logEvent_flash (a b d : Nat) : (s.logEvent a b d).flash = s.flash := rfl
@[simp] theorem State.logEvent_nv (a b d : Nat) : (s.logEvent a b d).nv = s.nv := rfl
@[simp] theorem State.logEvent_mgmt (a b d : Nat) : (s.logEvent a b d).mgmt = s.mgmt := rfl
@[simp] theorem State.logEvent_boot (a b d : Nat) : (s.logEvent a b d).boot = s.boot := rfl
@[simp] theorem State.logEvent_power (a b d : Nat) : (s.logEvent a b d).power = s.power := rfl
@[simp] theorem State.logEvent_links (a b d : Nat) : (s.logEvent a b d).links = s.links := rfl
@[simp] theorem State.logEvent_fed (a b d : Nat) : (s.logEvent a b d).fed = s.fed := rfl
@[simp] theorem State.logEvent_pmuFrozen (a b d : Nat) : (s.logEvent a b d).pmuFrozen = s.pmuFrozen := rfl
@[simp] theorem State.logEvent_pmuPending (a b d : Nat) : (s.logEvent a b d).pmuPending = s.pmuPending := rfl
@[simp] theorem State.logEvent_out (a b d : Nat) : (s.logEvent a b d).out = s.out := rfl
@[simp] theorem State.logEvent_freeCtr (a b d : Nat) : (s.logEvent a b d).freeCtr = s.freeCtr := rfl
@[simp] theorem State.logEvent_pending (a b d : Nat) : (s.logEvent a b d).pending = s.pending := rfl
@[simp] theorem State.logEvent_rd (a b d : Nat) (adr : Nat) : (s.logEvent a b d).rd adr = s.rd adr := rfl
@[simp] theorem State.logEvent_fld (a b d : Nat) (g : Fld) : (s.logEvent a b d).fld g = s.fld g := rfl
@[simp] theorem State.logEvent_on (a b d : Nat) (g : Fld) : (s.logEvent a b d).on g = s.on g := rfl

/-! draw -/

@[simp] theorem State.draw_regs  : s.draw.regs = s.regs := rfl
@[simp] theorem State.draw_keeperPend  : s.draw.keeperPend = s.keeperPend := rfl
@[simp] theorem State.draw_eventLog  : s.draw.eventLog = s.eventLog := rfl
@[simp] theorem State.draw_eventSeq  : s.draw.eventSeq = s.eventSeq := rfl
@[simp] theorem State.draw_poisoned  : s.draw.poisoned = s.poisoned := rfl
@[simp] theorem State.draw_rises  : s.draw.rises = s.rises := rfl
@[simp] theorem State.draw_time  : s.draw.time = s.time := rfl
@[simp] theorem State.draw_arb  : s.draw.arb = s.arb := rfl
@[simp] theorem State.draw_core  : s.draw.core = s.core := rfl
@[simp] theorem State.draw_mem  : s.draw.mem = s.mem := rfl
@[simp] theorem State.draw_rings  : s.draw.rings = s.rings := rfl
@[simp] theorem State.draw_pcie  : s.draw.pcie = s.pcie := rfl
@[simp] theorem State.draw_inst  : s.draw.inst = s.inst := rfl
@[simp] theorem State.draw_fe  : s.draw.fe = s.fe := rfl
@[simp] theorem State.draw_eth  : s.draw.eth = s.eth := rfl
@[simp] theorem State.draw_cat  : s.draw.cat = s.cat := rfl
@[simp] theorem State.draw_addr  : s.draw.addr = s.addr := rfl
@[simp] theorem State.draw_cipher  : s.draw.cipher = s.cipher := rfl
@[simp] theorem State.draw_kra  : s.draw.kra = s.kra := rfl
@[simp] theorem State.draw_flash  : s.draw.flash = s.flash := rfl
@[simp] theorem State.draw_nv  : s.draw.nv = s.nv := rfl
@[simp] theorem State.draw_mgmt  : s.draw.mgmt = s.mgmt := rfl
@[simp] theorem State.draw_boot  : s.draw.boot = s.boot := rfl
@[simp] theorem State.draw_power  : s.draw.power = s.power := rfl
@[simp] theorem State.draw_links  : s.draw.links = s.links := rfl
@[simp] theorem State.draw_fed  : s.draw.fed = s.fed := rfl
@[simp] theorem State.draw_pmuFrozen  : s.draw.pmuFrozen = s.pmuFrozen := rfl
@[simp] theorem State.draw_pmuPending  : s.draw.pmuPending = s.pmuPending := rfl
@[simp] theorem State.draw_out  : s.draw.out = s.out := rfl
@[simp] theorem State.draw_freeCtr  : s.draw.freeCtr = s.freeCtr + 1 := rfl
@[simp] theorem State.draw_pending  : s.draw.pending = s.pending := rfl
@[simp] theorem State.draw_rd  (adr : Nat) : s.draw.rd adr = s.rd adr := rfl
@[simp] theorem State.draw_fld  (g : Fld) : s.draw.fld g = s.fld g := rfl
@[simp] theorem State.draw_on  (g : Fld) : s.draw.on g = s.on g := rfl

/-! tickTime -/

@[simp] theorem State.tickTime_regs  : s.tickTime.regs = s.regs := rfl
@[simp] theorem State.tickTime_keeperPend  : s.tickTime.keeperPend = s.keeperPend := rfl
@[simp] theorem State.tickTime_eventLog  : s.tickTime.eventLog = s.eventLog := rfl
@[simp] theorem State.tickTime_eventSeq  : s.tickTime.eventSeq = s.eventSeq := rfl
@[simp] theorem State.tickTime_poisoned  : s.tickTime.poisoned = s.poisoned := rfl
@[simp] theorem State.tickTime_rises  : s.tickTime.rises = s.rises := rfl
@[simp] theorem State.tickTime_time  : s.tickTime.time = { s.time with mono := s.time.mono + 1, units := s.time.units + 5 } := rfl
@[simp] theorem State.tickTime_arb  : s.tickTime.arb = { s.arb with decided := [] } := rfl
@[simp] theorem State.tickTime_core  : s.tickTime.core = s.core := rfl
@[simp] theorem State.tickTime_mem  : s.tickTime.mem = s.mem := rfl
@[simp] theorem State.tickTime_rings  : s.tickTime.rings = s.rings := rfl
@[simp] theorem State.tickTime_pcie  : s.tickTime.pcie = s.pcie := rfl
@[simp] theorem State.tickTime_inst  : s.tickTime.inst = s.inst := rfl
@[simp] theorem State.tickTime_fe  : s.tickTime.fe = s.fe := rfl
@[simp] theorem State.tickTime_eth  : s.tickTime.eth = s.eth := rfl
@[simp] theorem State.tickTime_cat  : s.tickTime.cat = s.cat := rfl
@[simp] theorem State.tickTime_addr  : s.tickTime.addr = s.addr := rfl
@[simp] theorem State.tickTime_cipher  : s.tickTime.cipher = s.cipher := rfl
@[simp] theorem State.tickTime_kra  : s.tickTime.kra = s.kra := rfl
@[simp] theorem State.tickTime_flash  : s.tickTime.flash = s.flash := rfl
@[simp] theorem State.tickTime_nv  : s.tickTime.nv = s.nv := rfl
@[simp] theorem State.tickTime_mgmt  : s.tickTime.mgmt = s.mgmt := rfl
@[simp] theorem State.tickTime_boot  : s.tickTime.boot = s.boot := rfl
@[simp] theorem State.tickTime_power  : s.tickTime.power = s.power := rfl
@[simp] theorem State.tickTime_links  : s.tickTime.links = s.links := rfl
@[simp] theorem State.tickTime_fed  : s.tickTime.fed = s.fed := rfl
@[simp] theorem State.tickTime_pmuFrozen  : s.tickTime.pmuFrozen = s.pmuFrozen := rfl
@[simp] theorem State.tickTime_pmuPending  : s.tickTime.pmuPending = s.pmuPending := rfl
@[simp] theorem State.tickTime_out  : s.tickTime.out = s.out := rfl
@[simp] theorem State.tickTime_freeCtr  : s.tickTime.freeCtr = s.freeCtr := rfl
@[simp] theorem State.tickTime_pending  : s.tickTime.pending = s.pending := rfl
@[simp] theorem State.tickTime_rd  (adr : Nat) : s.tickTime.rd adr = s.rd adr := rfl
@[simp] theorem State.tickTime_fld  (g : Fld) : s.tickTime.fld g = s.fld g := rfl
@[simp] theorem State.tickTime_on  (g : Fld) : s.tickTime.on g = s.on g := rfl
theorem Only.tickTime {ps : List Part} {fs : List Fld} {s t : State}  (h : Only ps fs s t) (hp : Part.time ∈ ps) (hp1 : Part.arb ∈ ps) : Only ps fs s (t.tickTime) := by
  refine h.parts rfl fun p hp' => ?_
  cases p <;> first | exact absurd (List.mem_cons_of_mem _ hp) hp' | exact absurd (List.mem_cons_of_mem _ hp1) hp' | rfl | exact ⟨rfl, rfl⟩ | exact ⟨rfl, rfl, rfl, rfl, rfl, rfl, rfl⟩

/-! setIdleX -/

@[simp] theorem State.setIdleX_regs (k : Nat) (x : SliceIdle) : (s.setIdleX k x).regs = s.regs := rfl
@[simp] theorem State.setIdleX_keeperPend (k : Nat) (x : SliceIdle) : (s.setIdleX k x).keeperPend = s.keeperPend := rfl
@[simp] theorem State.setIdleX_eventLog (k : Nat) (x : SliceIdle) : (s.setIdleX k x).eventLog = s.eventLog := rfl
@[simp] theorem State.setIdleX_eventSeq (k : Nat) (x : SliceIdle) : (s.setIdleX k x).eventSeq = s.eventSeq := rfl
@[simp] theorem State.setIdleX_poisoned (k : Nat) (x : SliceIdle) : (s.setIdleX k x).poisoned = s.poisoned := rfl
@[simp] theorem State.setIdleX_rises (k : Nat) (x : SliceIdle) : (s.setIdleX k x).rises = s.rises := rfl
@[simp] theorem State.setIdleX_time (k : Nat) (x : SliceIdle) : (s.setIdleX k x).time = s.time := rfl
@[simp] theorem State.setIdleX_arb (k : Nat) (x : SliceIdle) : (s.setIdleX k x).arb = s.arb := rfl
@[simp] theorem State.setIdleX_core (k : Nat) (x : SliceIdle) : (s.setIdleX k x).core = s.core := rfl
@[simp] theorem State.setIdleX_mem (k : Nat) (x : SliceIdle) : (s.setIdleX k x).mem = s.mem := rfl
@[simp] theorem State.setIdleX_rings (k : Nat) (x : SliceIdle) : (s.setIdleX k x).rings = s.rings := rfl
@[simp] theorem State.setIdleX_pcie (k : Nat) (x : SliceIdle) : (s.setIdleX k x).pcie = s.pcie := rfl
@[simp] theorem State.setIdleX_inst (k : Nat) (x : SliceIdle) : (s.setIdleX k x).inst = s.inst := rfl
@[simp] theorem State.setIdleX_fe (k : Nat) (x : SliceIdle) : (s.setIdleX k x).fe = s.fe := rfl
@[simp] theorem State.setIdleX_eth (k : Nat) (x : SliceIdle) : (s.setIdleX k x).eth = s.eth := rfl
@[simp] theorem State.setIdleX_cat (k : Nat) (x : SliceIdle) : (s.setIdleX k x).cat = s.cat := rfl
@[simp] theorem State.setIdleX_addr (k : Nat) (x : SliceIdle) : (s.setIdleX k x).addr = s.addr := rfl
@[simp] theorem State.setIdleX_cipher (k : Nat) (x : SliceIdle) : (s.setIdleX k x).cipher = s.cipher := rfl
@[simp] theorem State.setIdleX_kra (k : Nat) (x : SliceIdle) : (s.setIdleX k x).kra = s.kra := rfl
@[simp] theorem State.setIdleX_flash (k : Nat) (x : SliceIdle) : (s.setIdleX k x).flash = s.flash := rfl
@[simp] theorem State.setIdleX_nv (k : Nat) (x : SliceIdle) : (s.setIdleX k x).nv = s.nv := rfl
@[simp] theorem State.setIdleX_mgmt (k : Nat) (x : SliceIdle) : (s.setIdleX k x).mgmt = s.mgmt := rfl
@[simp] theorem State.setIdleX_boot (k : Nat) (x : SliceIdle) : (s.setIdleX k x).boot = s.boot := rfl
@[simp] theorem State.setIdleX_power (k : Nat) (x : SliceIdle) : (s.setIdleX k x).power = { s.power with slices := s.power.slices.set k x } := rfl
@[simp] theorem State.setIdleX_links (k : Nat) (x : SliceIdle) : (s.setIdleX k x).links = s.links := rfl
@[simp] theorem State.setIdleX_fed (k : Nat) (x : SliceIdle) : (s.setIdleX k x).fed = s.fed := rfl
@[simp] theorem State.setIdleX_pmuFrozen (k : Nat) (x : SliceIdle) : (s.setIdleX k x).pmuFrozen = s.pmuFrozen := rfl
@[simp] theorem State.setIdleX_pmuPending (k : Nat) (x : SliceIdle) : (s.setIdleX k x).pmuPending = s.pmuPending := rfl
@[simp] theorem State.setIdleX_out (k : Nat) (x : SliceIdle) : (s.setIdleX k x).out = s.out := rfl
@[simp] theorem State.setIdleX_freeCtr (k : Nat) (x : SliceIdle) : (s.setIdleX k x).freeCtr = s.freeCtr := rfl
@[simp] theorem State.setIdleX_pending (k : Nat) (x : SliceIdle) : (s.setIdleX k x).pending = s.pending := rfl
@[simp] theorem State.setIdleX_rd (k : Nat) (x : SliceIdle) (adr : Nat) : (s.setIdleX k x).rd adr = s.rd adr := rfl
@[simp] theorem State.setIdleX_fld (k : Nat) (x : SliceIdle) (g : Fld) : (s.setIdleX k x).fld g = s.fld g := rfl
@[simp] theorem State.setIdleX_on (k : Nat) (x : SliceIdle) (g : Fld) : (s.setIdleX k x).on g = s.on g := rfl
theorem Only.setIdleX {ps : List Part} {fs : List Fld} {s t : State} (k : Nat) (x : SliceIdle) (h : Only ps fs s t) (hp : Part.power ∈ ps) : Only ps fs s (t.setIdleX k x) := by
  refine h.parts rfl fun p hp' => ?_
  cases p <;> first | exact absurd (List.mem_cons_of_mem _ hp) hp' | rfl | exact ⟨rfl, rfl⟩ | exact ⟨rfl, rfl, rfl, rfl, rfl, rfl, rfl⟩

/-! setFrame -/

@[simp] theorem State.setFrame_regs (f : Frame) : (s.setFrame f).regs = s.regs := rfl
@[simp] theorem State.setFrame_keeperPend (f : Frame) : (s.setFrame f).keeperPend = s.keeperPend := rfl
@[simp] theorem State.setFrame_eventLog (f : Frame) : (s.setFrame f).eventLog = s.eventLog := rfl
@[simp] theorem State.setFrame_eventSeq (f : Frame) : (s.setFrame f).eventSeq = s.eventSeq := rfl
@[simp] theorem State.setFrame_poisoned (f : Frame) : (s.setFrame f).poisoned = s.poisoned := rfl
@[simp] theorem State.setFrame_rises (f : Frame) : (s.setFrame f).rises = s.rises := rfl
@[simp] theorem State.setFrame_time (f : Frame) : (s.setFrame f).time = s.time := rfl
@[simp] theorem State.setFrame_arb (f : Frame) : (s.setFrame f).arb = s.arb := rfl
@[simp] theorem State.setFrame_core (f : Frame) : (s.setFrame f).core = s.core := rfl
@[simp] theorem State.setFrame_mem (f : Frame) : (s.setFrame f).mem = s.mem := rfl
@[simp] theorem State.setFrame_rings (f : Frame) : (s.setFrame f).rings = s.rings := rfl
@[simp] theorem State.setFrame_pcie (f : Frame) : (s.setFrame f).pcie = s.pcie := rfl
@[simp] theorem State.setFrame_inst (f : Frame) : (s.setFrame f).inst = s.inst := rfl
@[simp] theorem State.setFrame_fe (f : Frame) : (s.setFrame f).fe = s.fe := rfl
@[simp] theorem State.setFrame_eth (f : Frame) : (s.setFrame f).eth = { s.eth with frames := Map.insert s.eth.frames f.id f } := rfl
@[simp] theorem State.setFrame_cat (f : Frame) : (s.setFrame f).cat = s.cat := rfl
@[simp] theorem State.setFrame_addr (f : Frame) : (s.setFrame f).addr = s.addr := rfl
@[simp] theorem State.setFrame_cipher (f : Frame) : (s.setFrame f).cipher = s.cipher := rfl
@[simp] theorem State.setFrame_kra (f : Frame) : (s.setFrame f).kra = s.kra := rfl
@[simp] theorem State.setFrame_flash (f : Frame) : (s.setFrame f).flash = s.flash := rfl
@[simp] theorem State.setFrame_nv (f : Frame) : (s.setFrame f).nv = s.nv := rfl
@[simp] theorem State.setFrame_mgmt (f : Frame) : (s.setFrame f).mgmt = s.mgmt := rfl
@[simp] theorem State.setFrame_boot (f : Frame) : (s.setFrame f).boot = s.boot := rfl
@[simp] theorem State.setFrame_power (f : Frame) : (s.setFrame f).power = s.power := rfl
@[simp] theorem State.setFrame_links (f : Frame) : (s.setFrame f).links = s.links := rfl
@[simp] theorem State.setFrame_fed (f : Frame) : (s.setFrame f).fed = s.fed := rfl
@[simp] theorem State.setFrame_pmuFrozen (f : Frame) : (s.setFrame f).pmuFrozen = s.pmuFrozen := rfl
@[simp] theorem State.setFrame_pmuPending (f : Frame) : (s.setFrame f).pmuPending = s.pmuPending := rfl
@[simp] theorem State.setFrame_out (f : Frame) : (s.setFrame f).out = s.out := rfl
@[simp] theorem State.setFrame_freeCtr (f : Frame) : (s.setFrame f).freeCtr = s.freeCtr := rfl
@[simp] theorem State.setFrame_pending (f : Frame) : (s.setFrame f).pending = s.pending := rfl
@[simp] theorem State.setFrame_rd (f : Frame) (adr : Nat) : (s.setFrame f).rd adr = s.rd adr := rfl
@[simp] theorem State.setFrame_fld (f : Frame) (g : Fld) : (s.setFrame f).fld g = s.fld g := rfl
@[simp] theorem State.setFrame_on (f : Frame) (g : Fld) : (s.setFrame f).on g = s.on g := rfl
theorem Only.setFrame {ps : List Part} {fs : List Fld} {s t : State} (f : Frame) (h : Only ps fs s t) (hp : Part.eth ∈ ps) : Only ps fs s (t.setFrame f) := by
  refine h.parts rfl fun p hp' => ?_
  cases p <;> first | exact absurd (List.mem_cons_of_mem _ hp) hp' | rfl | exact ⟨rfl, rfl⟩ | exact ⟨rfl, rfl, rfl, rfl, rfl, rfl, rfl⟩

/-! setCtx -/

@[simp] theorem State.setCtx_regs (k : Nat) (c : ParseCtx) : (s.setCtx k c).regs = s.regs := rfl
@[simp] theorem State.setCtx_keeperPend (k : Nat) (c : ParseCtx) : (s.setCtx k c).keeperPend = s.keeperPend := rfl
@[simp] theorem State.setCtx_eventLog (k : Nat) (c : ParseCtx) : (s.setCtx k c).eventLog = s.eventLog := rfl
@[simp] theorem State.setCtx_eventSeq (k : Nat) (c : ParseCtx) : (s.setCtx k c).eventSeq = s.eventSeq := rfl
@[simp] theorem State.setCtx_poisoned (k : Nat) (c : ParseCtx) : (s.setCtx k c).poisoned = s.poisoned := rfl
@[simp] theorem State.setCtx_rises (k : Nat) (c : ParseCtx) : (s.setCtx k c).rises = s.rises := rfl
@[simp] theorem State.setCtx_time (k : Nat) (c : ParseCtx) : (s.setCtx k c).time = s.time := rfl
@[simp] theorem State.setCtx_arb (k : Nat) (c : ParseCtx) : (s.setCtx k c).arb = s.arb := rfl
@[simp] theorem State.setCtx_core (k : Nat) (c : ParseCtx) : (s.setCtx k c).core = s.core := rfl
@[simp] theorem State.setCtx_mem (k : Nat) (c : ParseCtx) : (s.setCtx k c).mem = s.mem := rfl
@[simp] theorem State.setCtx_rings (k : Nat) (c : ParseCtx) : (s.setCtx k c).rings = s.rings := rfl
@[simp] theorem State.setCtx_pcie (k : Nat) (c : ParseCtx) : (s.setCtx k c).pcie = s.pcie := rfl
@[simp] theorem State.setCtx_inst (k : Nat) (c : ParseCtx) : (s.setCtx k c).inst = s.inst := rfl
@[simp] theorem State.setCtx_fe (k : Nat) (c : ParseCtx) : (s.setCtx k c).fe = s.fe := rfl
@[simp] theorem State.setCtx_eth (k : Nat) (c : ParseCtx) : (s.setCtx k c).eth = { s.eth with ctxs := Map.insert s.eth.ctxs k c } := rfl
@[simp] theorem State.setCtx_cat (k : Nat) (c : ParseCtx) : (s.setCtx k c).cat = s.cat := rfl
@[simp] theorem State.setCtx_addr (k : Nat) (c : ParseCtx) : (s.setCtx k c).addr = s.addr := rfl
@[simp] theorem State.setCtx_cipher (k : Nat) (c : ParseCtx) : (s.setCtx k c).cipher = s.cipher := rfl
@[simp] theorem State.setCtx_kra (k : Nat) (c : ParseCtx) : (s.setCtx k c).kra = s.kra := rfl
@[simp] theorem State.setCtx_flash (k : Nat) (c : ParseCtx) : (s.setCtx k c).flash = s.flash := rfl
@[simp] theorem State.setCtx_nv (k : Nat) (c : ParseCtx) : (s.setCtx k c).nv = s.nv := rfl
@[simp] theorem State.setCtx_mgmt (k : Nat) (c : ParseCtx) : (s.setCtx k c).mgmt = s.mgmt := rfl
@[simp] theorem State.setCtx_boot (k : Nat) (c : ParseCtx) : (s.setCtx k c).boot = s.boot := rfl
@[simp] theorem State.setCtx_power (k : Nat) (c : ParseCtx) : (s.setCtx k c).power = s.power := rfl
@[simp] theorem State.setCtx_links (k : Nat) (c : ParseCtx) : (s.setCtx k c).links = s.links := rfl
@[simp] theorem State.setCtx_fed (k : Nat) (c : ParseCtx) : (s.setCtx k c).fed = s.fed := rfl
@[simp] theorem State.setCtx_pmuFrozen (k : Nat) (c : ParseCtx) : (s.setCtx k c).pmuFrozen = s.pmuFrozen := rfl
@[simp] theorem State.setCtx_pmuPending (k : Nat) (c : ParseCtx) : (s.setCtx k c).pmuPending = s.pmuPending := rfl
@[simp] theorem State.setCtx_out (k : Nat) (c : ParseCtx) : (s.setCtx k c).out = s.out := rfl
@[simp] theorem State.setCtx_freeCtr (k : Nat) (c : ParseCtx) : (s.setCtx k c).freeCtr = s.freeCtr := rfl
@[simp] theorem State.setCtx_pending (k : Nat) (c : ParseCtx) : (s.setCtx k c).pending = s.pending := rfl
@[simp] theorem State.setCtx_rd (k : Nat) (c : ParseCtx) (adr : Nat) : (s.setCtx k c).rd adr = s.rd adr := rfl
@[simp] theorem State.setCtx_fld (k : Nat) (c : ParseCtx) (g : Fld) : (s.setCtx k c).fld g = s.fld g := rfl
@[simp] theorem State.setCtx_on (k : Nat) (c : ParseCtx) (g : Fld) : (s.setCtx k c).on g = s.on g := rfl
theorem Only.setCtx {ps : List Part} {fs : List Fld} {s t : State} (k : Nat) (c : ParseCtx) (h : Only ps fs s t) (hp : Part.eth ∈ ps) : Only ps fs s (t.setCtx k c) := by
  refine h.parts rfl fun p hp' => ?_
  cases p <;> first | exact absurd (List.mem_cons_of_mem _ hp) hp' | rfl | exact ⟨rfl, rfl⟩ | exact ⟨rfl, rfl, rfl, rfl, rfl, rfl, rfl⟩

/-! setArbiter -/

@[simp] theorem State.setArbiter_regs (k : Nat) (a : Arbiter) : (s.setArbiter k a).regs = s.regs := rfl
@[simp] theorem State.setArbiter_keeperPend (k : Nat) (a : Arbiter) : (s.setArbiter k a).keeperPend = s.keeperPend := rfl
@[simp] theorem State.setArbiter_eventLog (k : Nat) (a : Arbiter) : (s.setArbiter k a).eventLog = s.eventLog := rfl
@[simp] theorem State.setArbiter_eventSeq (k : Nat) (a : Arbiter) : (s.setArbiter k a).eventSeq = s.eventSeq := rfl
@[simp] theorem State.setArbiter_poisoned (k : Nat) (a : Arbiter) : (s.setArbiter k a).poisoned = s.poisoned := rfl
@[simp] theorem State.setArbiter_rises (k : Nat) (a : Arbiter) : (s.setArbiter k a).rises = s.rises := rfl
@[simp] theorem State.setArbiter_time (k : Nat) (a : Arbiter) : (s.setArbiter k a).time = s.time := rfl
@[simp] theorem State.setArbiter_core (k : Nat) (a : Arbiter) : (s.setArbiter k a).core = s.core := rfl
@[simp] theorem State.setArbiter_mem (k : Nat) (a : Arbiter) : (s.setArbiter k a).mem = s.mem := rfl
@[simp] theorem State.setArbiter_rings (k : Nat) (a : Arbiter) : (s.setArbiter k a).rings = s.rings := rfl
@[simp] theorem State.setArbiter_pcie (k : Nat) (a : Arbiter) : (s.setArbiter k a).pcie = s.pcie := rfl
@[simp] theorem State.setArbiter_inst (k : Nat) (a : Arbiter) : (s.setArbiter k a).inst = s.inst := rfl
@[simp] theorem State.setArbiter_fe (k : Nat) (a : Arbiter) : (s.setArbiter k a).fe = s.fe := rfl
@[simp] theorem State.setArbiter_eth (k : Nat) (a : Arbiter) : (s.setArbiter k a).eth = s.eth := rfl
@[simp] theorem State.setArbiter_cat (k : Nat) (a : Arbiter) : (s.setArbiter k a).cat = s.cat := rfl
@[simp] theorem State.setArbiter_addr (k : Nat) (a : Arbiter) : (s.setArbiter k a).addr = s.addr := rfl
@[simp] theorem State.setArbiter_cipher (k : Nat) (a : Arbiter) : (s.setArbiter k a).cipher = s.cipher := rfl
@[simp] theorem State.setArbiter_kra (k : Nat) (a : Arbiter) : (s.setArbiter k a).kra = s.kra := rfl
@[simp] theorem State.setArbiter_flash (k : Nat) (a : Arbiter) : (s.setArbiter k a).flash = s.flash := rfl
@[simp] theorem State.setArbiter_nv (k : Nat) (a : Arbiter) : (s.setArbiter k a).nv = s.nv := rfl
@[simp] theorem State.setArbiter_mgmt (k : Nat) (a : Arbiter) : (s.setArbiter k a).mgmt = s.mgmt := rfl
@[simp] theorem State.setArbiter_boot (k : Nat) (a : Arbiter) : (s.setArbiter k a).boot = s.boot := rfl
@[simp] theorem State.setArbiter_power (k : Nat) (a : Arbiter) : (s.setArbiter k a).power = s.power := rfl
@[simp] theorem State.setArbiter_links (k : Nat) (a : Arbiter) : (s.setArbiter k a).links = s.links := rfl
@[simp] theorem State.setArbiter_fed (k : Nat) (a : Arbiter) : (s.setArbiter k a).fed = s.fed := rfl
@[simp] theorem State.setArbiter_pmuFrozen (k : Nat) (a : Arbiter) : (s.setArbiter k a).pmuFrozen = s.pmuFrozen := rfl
@[simp] theorem State.setArbiter_pmuPending (k : Nat) (a : Arbiter) : (s.setArbiter k a).pmuPending = s.pmuPending := rfl
@[simp] theorem State.setArbiter_out (k : Nat) (a : Arbiter) : (s.setArbiter k a).out = s.out := rfl
@[simp] theorem State.setArbiter_freeCtr (k : Nat) (a : Arbiter) : (s.setArbiter k a).freeCtr = s.freeCtr := rfl
@[simp] theorem State.setArbiter_pending (k : Nat) (a : Arbiter) : (s.setArbiter k a).pending = s.pending := rfl
@[simp] theorem State.setArbiter_rd (k : Nat) (a : Arbiter) (adr : Nat) : (s.setArbiter k a).rd adr = s.rd adr := rfl
@[simp] theorem State.setArbiter_fld (k : Nat) (a : Arbiter) (g : Fld) : (s.setArbiter k a).fld g = s.fld g := rfl
@[simp] theorem State.setArbiter_on (k : Nat) (a : Arbiter) (g : Fld) : (s.setArbiter k a).on g = s.on g := rfl
theorem Only.setArbiter {ps : List Part} {fs : List Fld} {s t : State} (k : Nat) (a : Arbiter) (h : Only ps fs s t) (hp : Part.arb ∈ ps) : Only ps fs s (t.setArbiter k a) := by
  refine h.parts rfl fun p hp' => ?_
  cases p <;> first | exact absurd (List.mem_cons_of_mem _ hp) hp' | rfl | exact ⟨rfl, rfl⟩ | exact ⟨rfl, rfl, rfl, rfl, rfl, rfl, rfl⟩

/-! setWheel -/

@[simp] theorem State.setWheel_regs (k : Nat) (w : Wheel) : (s.setWheel k w).regs = s.regs := rfl
@[simp] theorem State.setWheel_keeperPend (k : Nat) (w : Wheel) : (s.setWheel k w).keeperPend = s.keeperPend := rfl
@[simp] theorem State.setWheel_eventLog (k : Nat) (w : Wheel) : (s.setWheel k w).eventLog = s.eventLog := rfl
@[simp] theorem State.setWheel_eventSeq (k : Nat) (w : Wheel) : (s.setWheel k w).eventSeq = s.eventSeq := rfl
@[simp] theorem State.setWheel_poisoned (k : Nat) (w : Wheel) : (s.setWheel k w).poisoned = s.poisoned := rfl
@[simp] theorem State.setWheel_rises (k : Nat) (w : Wheel) : (s.setWheel k w).rises = s.rises := rfl
@[simp] theorem State.setWheel_arb (k : Nat) (w : Wheel) : (s.setWheel k w).arb = s.arb := rfl
@[simp] theorem State.setWheel_core (k : Nat) (w : Wheel) : (s.setWheel k w).core = s.core := rfl
@[simp] theorem State.setWheel_mem (k : Nat) (w : Wheel) : (s.setWheel k w).mem = s.mem := rfl
@[simp] theorem State.setWheel_rings (k : Nat) (w : Wheel) : (s.setWheel k w).rings = s.rings := rfl
@[simp] theorem State.setWheel_pcie (k : Nat) (w : Wheel) : (s.setWheel k w).pcie = s.pcie := rfl
@[simp] theorem State.setWheel_inst (k : Nat) (w : Wheel) : (s.setWheel k w).inst = s.inst := rfl
@[simp] theorem State.setWheel_fe (k : Nat) (w : Wheel) : (s.setWheel k w).fe = s.fe := rfl
@[simp] theorem State.setWheel_eth (k : Nat) (w : Wheel) : (s.setWheel k w).eth = s.eth := rfl
@[simp] theorem State.setWheel_cat (k : Nat) (w : Wheel) : (s.setWheel k w).cat = s.cat := rfl
@[simp] theorem State.setWheel_addr (k : Nat) (w : Wheel) : (s.setWheel k w).addr = s.addr := rfl
@[simp] theorem State.setWheel_cipher (k : Nat) (w : Wheel) : (s.setWheel k w).cipher = s.cipher := rfl
@[simp] theorem State.setWheel_kra (k : Nat) (w : Wheel) : (s.setWheel k w).kra = s.kra := rfl
@[simp] theorem State.setWheel_flash (k : Nat) (w : Wheel) : (s.setWheel k w).flash = s.flash := rfl
@[simp] theorem State.setWheel_nv (k : Nat) (w : Wheel) : (s.setWheel k w).nv = s.nv := rfl
@[simp] theorem State.setWheel_mgmt (k : Nat) (w : Wheel) : (s.setWheel k w).mgmt = s.mgmt := rfl
@[simp] theorem State.setWheel_boot (k : Nat) (w : Wheel) : (s.setWheel k w).boot = s.boot := rfl
@[simp] theorem State.setWheel_power (k : Nat) (w : Wheel) : (s.setWheel k w).power = s.power := rfl
@[simp] theorem State.setWheel_links (k : Nat) (w : Wheel) : (s.setWheel k w).links = s.links := rfl
@[simp] theorem State.setWheel_fed (k : Nat) (w : Wheel) : (s.setWheel k w).fed = s.fed := rfl
@[simp] theorem State.setWheel_pmuFrozen (k : Nat) (w : Wheel) : (s.setWheel k w).pmuFrozen = s.pmuFrozen := rfl
@[simp] theorem State.setWheel_pmuPending (k : Nat) (w : Wheel) : (s.setWheel k w).pmuPending = s.pmuPending := rfl
@[simp] theorem State.setWheel_out (k : Nat) (w : Wheel) : (s.setWheel k w).out = s.out := rfl
@[simp] theorem State.setWheel_freeCtr (k : Nat) (w : Wheel) : (s.setWheel k w).freeCtr = s.freeCtr := rfl
@[simp] theorem State.setWheel_pending (k : Nat) (w : Wheel) : (s.setWheel k w).pending = s.pending := rfl
@[simp] theorem State.setWheel_rd (k : Nat) (w : Wheel) (adr : Nat) : (s.setWheel k w).rd adr = s.rd adr := rfl
@[simp] theorem State.setWheel_fld (k : Nat) (w : Wheel) (g : Fld) : (s.setWheel k w).fld g = s.fld g := rfl
@[simp] theorem State.setWheel_on (k : Nat) (w : Wheel) (g : Fld) : (s.setWheel k w).on g = s.on g := rfl
theorem Only.setWheel {ps : List Part} {fs : List Fld} {s t : State} (k : Nat) (w : Wheel) (h : Only ps fs s t) (hp : Part.time ∈ ps) : Only ps fs s (t.setWheel k w) := by
  refine h.parts rfl fun p hp' => ?_
  cases p <;> first | exact absurd (List.mem_cons_of_mem _ hp) hp' | rfl | exact ⟨rfl, rfl⟩ | exact ⟨rfl, rfl, rfl, rfl, rfl, rfl, rfl⟩

/-! setThx -/

@[simp] theorem State.setThx_regs (sl k i : Nat) (th : ThreadX) : (s.setThx sl k i th).regs = s.regs := rfl
@[simp] theorem State.setThx_keeperPend (sl k i : Nat) (th : ThreadX) : (s.setThx sl k i th).keeperPend = s.keeperPend := rfl
@[simp] theorem State.setThx_eventLog (sl k i : Nat) (th : ThreadX) : (s.setThx sl k i th).eventLog = s.eventLog := rfl
@[simp] theorem State.setThx_eventSeq (sl k i : Nat) (th : ThreadX) : (s.setThx sl k i th).eventSeq = s.eventSeq := rfl
@[simp] theorem State.setThx_poisoned (sl k i : Nat) (th : ThreadX) : (s.setThx sl k i th).poisoned = s.poisoned := rfl
@[simp] theorem State.setThx_rises (sl k i : Nat) (th : ThreadX) : (s.setThx sl k i th).rises = s.rises := rfl
@[simp] theorem State.setThx_time (sl k i : Nat) (th : ThreadX) : (s.setThx sl k i th).time = s.time := rfl
@[simp] theorem State.setThx_arb (sl k i : Nat) (th : ThreadX) : (s.setThx sl k i th).arb = s.arb := rfl
@[simp] theorem State.setThx_mem (sl k i : Nat) (th : ThreadX) : (s.setThx sl k i th).mem = s.mem := rfl
@[simp] theorem State.setThx_rings (sl k i : Nat) (th : ThreadX) : (s.setThx sl k i th).rings = s.rings := rfl
@[simp] theorem State.setThx_pcie (sl k i : Nat) (th : ThreadX) : (s.setThx sl k i th).pcie = s.pcie := rfl
@[simp] theorem State.setThx_inst (sl k i : Nat) (th : ThreadX) : (s.setThx sl k i th).inst = s.inst := rfl
@[simp] theorem State.setThx_fe (sl k i : Nat) (th : ThreadX) : (s.setThx sl k i th).fe = s.fe := rfl
@[simp] theorem State.setThx_eth (sl k i : Nat) (th : ThreadX) : (s.setThx sl k i th).eth = s.eth := rfl
@[simp] theorem State.setThx_cat (sl k i : Nat) (th : ThreadX) : (s.setThx sl k i th).cat = s.cat := rfl
@[simp] theorem State.setThx_addr (sl k i : Nat) (th : ThreadX) : (s.setThx sl k i th).addr = s.addr := rfl
@[simp] theorem State.setThx_cipher (sl k i : Nat) (th : ThreadX) : (s.setThx sl k i th).cipher = s.cipher := rfl
@[simp] theorem State.setThx_kra (sl k i : Nat) (th : ThreadX) : (s.setThx sl k i th).kra = s.kra := rfl
@[simp] theorem State.setThx_flash (sl k i : Nat) (th : ThreadX) : (s.setThx sl k i th).flash = s.flash := rfl
@[simp] theorem State.setThx_nv (sl k i : Nat) (th : ThreadX) : (s.setThx sl k i th).nv = s.nv := rfl
@[simp] theorem State.setThx_mgmt (sl k i : Nat) (th : ThreadX) : (s.setThx sl k i th).mgmt = s.mgmt := rfl
@[simp] theorem State.setThx_boot (sl k i : Nat) (th : ThreadX) : (s.setThx sl k i th).boot = s.boot := rfl
@[simp] theorem State.setThx_power (sl k i : Nat) (th : ThreadX) : (s.setThx sl k i th).power = s.power := rfl
@[simp] theorem State.setThx_links (sl k i : Nat) (th : ThreadX) : (s.setThx sl k i th).links = s.links := rfl
@[simp] theorem State.setThx_fed (sl k i : Nat) (th : ThreadX) : (s.setThx sl k i th).fed = s.fed := rfl
@[simp] theorem State.setThx_pmuFrozen (sl k i : Nat) (th : ThreadX) : (s.setThx sl k i th).pmuFrozen = s.pmuFrozen := rfl
@[simp] theorem State.setThx_pmuPending (sl k i : Nat) (th : ThreadX) : (s.setThx sl k i th).pmuPending = s.pmuPending := rfl
@[simp] theorem State.setThx_out (sl k i : Nat) (th : ThreadX) : (s.setThx sl k i th).out = s.out := rfl
@[simp] theorem State.setThx_freeCtr (sl k i : Nat) (th : ThreadX) : (s.setThx sl k i th).freeCtr = s.freeCtr := rfl
@[simp] theorem State.setThx_pending (sl k i : Nat) (th : ThreadX) : (s.setThx sl k i th).pending = s.pending := rfl
@[simp] theorem State.setThx_rd (sl k i : Nat) (th : ThreadX) (adr : Nat) : (s.setThx sl k i th).rd adr = s.rd adr := rfl
@[simp] theorem State.setThx_fld (sl k i : Nat) (th : ThreadX) (g : Fld) : (s.setThx sl k i th).fld g = s.fld g := rfl
@[simp] theorem State.setThx_on (sl k i : Nat) (th : ThreadX) (g : Fld) : (s.setThx sl k i th).on g = s.on g := rfl
theorem Only.setThx {ps : List Part} {fs : List Fld} {s t : State} (sl k i : Nat) (th : ThreadX) (h : Only ps fs s t) (hp : Part.threads ∈ ps) : Only ps fs s (t.setThx sl k i th) := by
  refine h.parts rfl fun p hp' => ?_
  cases p <;> first | exact absurd (List.mem_cons_of_mem _ hp) hp' | rfl | exact ⟨rfl, rfl⟩ | exact ⟨rfl, rfl, rfl, rfl, rfl, rfl, rfl⟩

/-! setClx -/

@[simp] theorem State.setClx_regs (sl k : Nat) (c : ClusterX) : (s.setClx sl k c).regs = s.regs := rfl
@[simp] theorem State.setClx_keeperPend (sl k : Nat) (c : ClusterX) : (s.setClx sl k c).keeperPend = s.keeperPend := rfl
@[simp] theorem State.setClx_eventLog (sl k : Nat) (c : ClusterX) : (s.setClx sl k c).eventLog = s.eventLog := rfl
@[simp] theorem State.setClx_eventSeq (sl k : Nat) (c : ClusterX) : (s.setClx sl k c).eventSeq = s.eventSeq := rfl
@[simp] theorem State.setClx_poisoned (sl k : Nat) (c : ClusterX) : (s.setClx sl k c).poisoned = s.poisoned := rfl
@[simp] theorem State.setClx_rises (sl k : Nat) (c : ClusterX) : (s.setClx sl k c).rises = s.rises := rfl
@[simp] theorem State.setClx_time (sl k : Nat) (c : ClusterX) : (s.setClx sl k c).time = s.time := rfl
@[simp] theorem State.setClx_arb (sl k : Nat) (c : ClusterX) : (s.setClx sl k c).arb = s.arb := rfl
@[simp] theorem State.setClx_mem (sl k : Nat) (c : ClusterX) : (s.setClx sl k c).mem = s.mem := rfl
@[simp] theorem State.setClx_rings (sl k : Nat) (c : ClusterX) : (s.setClx sl k c).rings = s.rings := rfl
@[simp] theorem State.setClx_pcie (sl k : Nat) (c : ClusterX) : (s.setClx sl k c).pcie = s.pcie := rfl
@[simp] theorem State.setClx_inst (sl k : Nat) (c : ClusterX) : (s.setClx sl k c).inst = s.inst := rfl
@[simp] theorem State.setClx_fe (sl k : Nat) (c : ClusterX) : (s.setClx sl k c).fe = s.fe := rfl
@[simp] theorem State.setClx_eth (sl k : Nat) (c : ClusterX) : (s.setClx sl k c).eth = s.eth := rfl
@[simp] theorem State.setClx_cat (sl k : Nat) (c : ClusterX) : (s.setClx sl k c).cat = s.cat := rfl
@[simp] theorem State.setClx_addr (sl k : Nat) (c : ClusterX) : (s.setClx sl k c).addr = s.addr := rfl
@[simp] theorem State.setClx_cipher (sl k : Nat) (c : ClusterX) : (s.setClx sl k c).cipher = s.cipher := rfl
@[simp] theorem State.setClx_kra (sl k : Nat) (c : ClusterX) : (s.setClx sl k c).kra = s.kra := rfl
@[simp] theorem State.setClx_flash (sl k : Nat) (c : ClusterX) : (s.setClx sl k c).flash = s.flash := rfl
@[simp] theorem State.setClx_nv (sl k : Nat) (c : ClusterX) : (s.setClx sl k c).nv = s.nv := rfl
@[simp] theorem State.setClx_mgmt (sl k : Nat) (c : ClusterX) : (s.setClx sl k c).mgmt = s.mgmt := rfl
@[simp] theorem State.setClx_boot (sl k : Nat) (c : ClusterX) : (s.setClx sl k c).boot = s.boot := rfl
@[simp] theorem State.setClx_power (sl k : Nat) (c : ClusterX) : (s.setClx sl k c).power = s.power := rfl
@[simp] theorem State.setClx_links (sl k : Nat) (c : ClusterX) : (s.setClx sl k c).links = s.links := rfl
@[simp] theorem State.setClx_fed (sl k : Nat) (c : ClusterX) : (s.setClx sl k c).fed = s.fed := rfl
@[simp] theorem State.setClx_pmuFrozen (sl k : Nat) (c : ClusterX) : (s.setClx sl k c).pmuFrozen = s.pmuFrozen := rfl
@[simp] theorem State.setClx_pmuPending (sl k : Nat) (c : ClusterX) : (s.setClx sl k c).pmuPending = s.pmuPending := rfl
@[simp] theorem State.setClx_out (sl k : Nat) (c : ClusterX) : (s.setClx sl k c).out = s.out := rfl
@[simp] theorem State.setClx_freeCtr (sl k : Nat) (c : ClusterX) : (s.setClx sl k c).freeCtr = s.freeCtr := rfl
@[simp] theorem State.setClx_pending (sl k : Nat) (c : ClusterX) : (s.setClx sl k c).pending = s.pending := rfl
@[simp] theorem State.setClx_rd (sl k : Nat) (c : ClusterX) (adr : Nat) : (s.setClx sl k c).rd adr = s.rd adr := rfl
@[simp] theorem State.setClx_fld (sl k : Nat) (c : ClusterX) (g : Fld) : (s.setClx sl k c).fld g = s.fld g := rfl
@[simp] theorem State.setClx_on (sl k : Nat) (c : ClusterX) (g : Fld) : (s.setClx sl k c).on g = s.on g := rfl
theorem Only.setClx {ps : List Part} {fs : List Fld} {s t : State} (sl k : Nat) (c : ClusterX) (h : Only ps fs s t) (hp : Part.clusters ∈ ps) : Only ps fs s (t.setClx sl k c) := by
  refine h.parts rfl fun p hp' => ?_
  cases p <;> first | exact absurd (List.mem_cons_of_mem _ hp) hp' | rfl | exact ⟨rfl, rfl⟩ | exact ⟨rfl, rfl, rfl, rfl, rfl, rfl, rfl⟩

/-! setPc -/

@[simp] theorem State.setPc_keeperPend (sl k i v : Nat) : (s.setPc sl k i v).keeperPend = s.keeperPend := rfl
@[simp] theorem State.setPc_eventLog (sl k i v : Nat) : (s.setPc sl k i v).eventLog = s.eventLog := rfl
@[simp] theorem State.setPc_eventSeq (sl k i v : Nat) : (s.setPc sl k i v).eventSeq = s.eventSeq := rfl
@[simp] theorem State.setPc_poisoned (sl k i v : Nat) : (s.setPc sl k i v).poisoned = s.poisoned := rfl
@[simp] theorem State.setPc_rises (sl k i v : Nat) : (s.setPc sl k i v).rises = s.rises := rfl
@[simp] theorem State.setPc_time (sl k i v : Nat) : (s.setPc sl k i v).time = s.time := rfl
@[simp] theorem State.setPc_arb (sl k i v : Nat) : (s.setPc sl k i v).arb = s.arb := rfl
@[simp] theorem State.setPc_core (sl k i v : Nat) : (s.setPc sl k i v).core = s.core := rfl
@[simp] theorem State.setPc_mem (sl k i v : Nat) : (s.setPc sl k i v).mem = s.mem := rfl
@[simp] theorem State.setPc_rings (sl k i v : Nat) : (s.setPc sl k i v).rings = s.rings := rfl
@[simp] theorem State.setPc_pcie (sl k i v : Nat) : (s.setPc sl k i v).pcie = s.pcie := rfl
@[simp] theorem State.setPc_inst (sl k i v : Nat) : (s.setPc sl k i v).inst = s.inst := rfl
@[simp] theorem State.setPc_fe (sl k i v : Nat) : (s.setPc sl k i v).fe = s.fe := rfl
@[simp] theorem State.setPc_eth (sl k i v : Nat) : (s.setPc sl k i v).eth = s.eth := rfl
@[simp] theorem State.setPc_cat (sl k i v : Nat) : (s.setPc sl k i v).cat = s.cat := rfl
@[simp] theorem State.setPc_addr (sl k i v : Nat) : (s.setPc sl k i v).addr = s.addr := rfl
@[simp] theorem State.setPc_cipher (sl k i v : Nat) : (s.setPc sl k i v).cipher = s.cipher := rfl
@[simp] theorem State.setPc_kra (sl k i v : Nat) : (s.setPc sl k i v).kra = s.kra := rfl
@[simp] theorem State.setPc_flash (sl k i v : Nat) : (s.setPc sl k i v).flash = s.flash := rfl
@[simp] theorem State.setPc_nv (sl k i v : Nat) : (s.setPc sl k i v).nv = s.nv := rfl
@[simp] theorem State.setPc_mgmt (sl k i v : Nat) : (s.setPc sl k i v).mgmt = s.mgmt := rfl
@[simp] theorem State.setPc_boot (sl k i v : Nat) : (s.setPc sl k i v).boot = s.boot := rfl
@[simp] theorem State.setPc_power (sl k i v : Nat) : (s.setPc sl k i v).power = s.power := rfl
@[simp] theorem State.setPc_links (sl k i v : Nat) : (s.setPc sl k i v).links = s.links := rfl
@[simp] theorem State.setPc_fed (sl k i v : Nat) : (s.setPc sl k i v).fed = s.fed := rfl
@[simp] theorem State.setPc_pmuFrozen (sl k i v : Nat) : (s.setPc sl k i v).pmuFrozen = s.pmuFrozen := rfl
@[simp] theorem State.setPc_pmuPending (sl k i v : Nat) : (s.setPc sl k i v).pmuPending = s.pmuPending := rfl
@[simp] theorem State.setPc_out (sl k i v : Nat) : (s.setPc sl k i v).out = s.out := rfl
@[simp] theorem State.setPc_freeCtr (sl k i v : Nat) : (s.setPc sl k i v).freeCtr = s.freeCtr := rfl
@[simp] theorem State.setPc_pending (sl k i v : Nat) : (s.setPc sl k i v).pending = s.pending := rfl

/-! setCat -/

@[simp] theorem State.setCat_regs (n e : Nat) : (s.setCat n e).regs = s.regs := rfl
@[simp] theorem State.setCat_keeperPend (n e : Nat) : (s.setCat n e).keeperPend = s.keeperPend := rfl
@[simp] theorem State.setCat_eventLog (n e : Nat) : (s.setCat n e).eventLog = s.eventLog := rfl
@[simp] theorem State.setCat_eventSeq (n e : Nat) : (s.setCat n e).eventSeq = s.eventSeq := rfl
@[simp] theorem State.setCat_poisoned (n e : Nat) : (s.setCat n e).poisoned = s.poisoned := rfl
@[simp] theorem State.setCat_rises (n e : Nat) : (s.setCat n e).rises = s.rises := rfl
@[simp] theorem State.setCat_time (n e : Nat) : (s.setCat n e).time = s.time := rfl
@[simp] theorem State.setCat_arb (n e : Nat) : (s.setCat n e).arb = s.arb := rfl
@[simp] theorem State.setCat_core (n e : Nat) : (s.setCat n e).core = s.core := rfl
@[simp] theorem State.setCat_mem (n e : Nat) : (s.setCat n e).mem = s.mem := rfl
@[simp] theorem State.setCat_rings (n e : Nat) : (s.setCat n e).rings = s.rings := rfl
@[simp] theorem State.setCat_pcie (n e : Nat) : (s.setCat n e).pcie = s.pcie := rfl
@[simp] theorem State.setCat_inst (n e : Nat) : (s.setCat n e).inst = s.inst := rfl
@[simp] theorem State.setCat_fe (n e : Nat) : (s.setCat n e).fe = s.fe := rfl
@[simp] theorem State.setCat_eth (n e : Nat) : (s.setCat n e).eth = s.eth := rfl
@[simp] theorem State.setCat_addr (n e : Nat) : (s.setCat n e).addr = s.addr := rfl
@[simp] theorem State.setCat_cipher (n e : Nat) : (s.setCat n e).cipher = s.cipher := rfl
@[simp] theorem State.setCat_kra (n e : Nat) : (s.setCat n e).kra = s.kra := rfl
@[simp] theorem State.setCat_flash (n e : Nat) : (s.setCat n e).flash = s.flash := rfl
@[simp] theorem State.setCat_nv (n e : Nat) : (s.setCat n e).nv = s.nv := rfl
@[simp] theorem State.setCat_mgmt (n e : Nat) : (s.setCat n e).mgmt = s.mgmt := rfl
@[simp] theorem State.setCat_boot (n e : Nat) : (s.setCat n e).boot = s.boot := rfl
@[simp] theorem State.setCat_power (n e : Nat) : (s.setCat n e).power = s.power := rfl
@[simp] theorem State.setCat_links (n e : Nat) : (s.setCat n e).links = s.links := rfl
@[simp] theorem State.setCat_fed (n e : Nat) : (s.setCat n e).fed = s.fed := rfl
@[simp] theorem State.setCat_pmuFrozen (n e : Nat) : (s.setCat n e).pmuFrozen = s.pmuFrozen := rfl
@[simp] theorem State.setCat_pmuPending (n e : Nat) : (s.setCat n e).pmuPending = s.pmuPending := rfl
@[simp] theorem State.setCat_out (n e : Nat) : (s.setCat n e).out = s.out := rfl
@[simp] theorem State.setCat_freeCtr (n e : Nat) : (s.setCat n e).freeCtr = s.freeCtr := rfl
@[simp] theorem State.setCat_pending (n e : Nat) : (s.setCat n e).pending = s.pending := rfl
@[simp] theorem State.setCat_rd (n e : Nat) (adr : Nat) : (s.setCat n e).rd adr = s.rd adr := rfl
@[simp] theorem State.setCat_fld (n e : Nat) (g : Fld) : (s.setCat n e).fld g = s.fld g := rfl
@[simp] theorem State.setCat_on (n e : Nat) (g : Fld) : (s.setCat n e).on g = s.on g := rfl
theorem Only.setCat {ps : List Part} {fs : List Fld} {s t : State} (n e : Nat) (h : Only ps fs s t) (hp : Part.cat ∈ ps) : Only ps fs s (t.setCat n e) := by
  refine h.parts rfl fun p hp' => ?_
  cases p <;> first | exact absurd (List.mem_cons_of_mem _ hp) hp' | rfl | exact ⟨rfl, rfl⟩ | exact ⟨rfl, rfl, rfl, rfl, rfl, rfl, rfl⟩

/-! setFnX -/

@[simp] theorem State.setFnX_regs (i : Nat) (x : FnX) : (s.setFnX i x).regs = s.regs := rfl
@[simp] theorem State.setFnX_keeperPend (i : Nat) (x : FnX) : (s.setFnX i x).keeperPend = s.keeperPend := rfl
@[simp] theorem State.setFnX_eventLog (i : Nat) (x : FnX) : (s.setFnX i x).eventLog = s.eventLog := rfl
@[simp] theorem State.setFnX_eventSeq (i : Nat) (x : FnX) : (s.setFnX i x).eventSeq = s.eventSeq := rfl
@[simp] theorem State.setFnX_poisoned (i : Nat) (x : FnX) : (s.setFnX i x).poisoned = s.poisoned := rfl
@[simp] theorem State.setFnX_rises (i : Nat) (x : FnX) : (s.setFnX i x).rises = s.rises := rfl
@[simp] theorem State.setFnX_time (i : Nat) (x : FnX) : (s.setFnX i x).time = s.time := rfl
@[simp] theorem State.setFnX_arb (i : Nat) (x : FnX) : (s.setFnX i x).arb = s.arb := rfl
@[simp] theorem State.setFnX_core (i : Nat) (x : FnX) : (s.setFnX i x).core = s.core := rfl
@[simp] theorem State.setFnX_mem (i : Nat) (x : FnX) : (s.setFnX i x).mem = s.mem := rfl
@[simp] theorem State.setFnX_rings (i : Nat) (x : FnX) : (s.setFnX i x).rings = s.rings := rfl
@[simp] theorem State.setFnX_inst (i : Nat) (x : FnX) : (s.setFnX i x).inst = s.inst := rfl
@[simp] theorem State.setFnX_fe (i : Nat) (x : FnX) : (s.setFnX i x).fe = s.fe := rfl
@[simp] theorem State.setFnX_eth (i : Nat) (x : FnX) : (s.setFnX i x).eth = s.eth := rfl
@[simp] theorem State.setFnX_cat (i : Nat) (x : FnX) : (s.setFnX i x).cat = s.cat := rfl
@[simp] theorem State.setFnX_addr (i : Nat) (x : FnX) : (s.setFnX i x).addr = s.addr := rfl
@[simp] theorem State.setFnX_cipher (i : Nat) (x : FnX) : (s.setFnX i x).cipher = s.cipher := rfl
@[simp] theorem State.setFnX_kra (i : Nat) (x : FnX) : (s.setFnX i x).kra = s.kra := rfl
@[simp] theorem State.setFnX_flash (i : Nat) (x : FnX) : (s.setFnX i x).flash = s.flash := rfl
@[simp] theorem State.setFnX_nv (i : Nat) (x : FnX) : (s.setFnX i x).nv = s.nv := rfl
@[simp] theorem State.setFnX_mgmt (i : Nat) (x : FnX) : (s.setFnX i x).mgmt = s.mgmt := rfl
@[simp] theorem State.setFnX_boot (i : Nat) (x : FnX) : (s.setFnX i x).boot = s.boot := rfl
@[simp] theorem State.setFnX_power (i : Nat) (x : FnX) : (s.setFnX i x).power = s.power := rfl
@[simp] theorem State.setFnX_links (i : Nat) (x : FnX) : (s.setFnX i x).links = s.links := rfl
@[simp] theorem State.setFnX_fed (i : Nat) (x : FnX) : (s.setFnX i x).fed = s.fed := rfl
@[simp] theorem State.setFnX_pmuFrozen (i : Nat) (x : FnX) : (s.setFnX i x).pmuFrozen = s.pmuFrozen := rfl
@[simp] theorem State.setFnX_pmuPending (i : Nat) (x : FnX) : (s.setFnX i x).pmuPending = s.pmuPending := rfl
@[simp] theorem State.setFnX_out (i : Nat) (x : FnX) : (s.setFnX i x).out = s.out := rfl
@[simp] theorem State.setFnX_freeCtr (i : Nat) (x : FnX) : (s.setFnX i x).freeCtr = s.freeCtr := rfl
@[simp] theorem State.setFnX_pending (i : Nat) (x : FnX) : (s.setFnX i x).pending = s.pending := rfl
@[simp] theorem State.setFnX_rd (i : Nat) (x : FnX) (adr : Nat) : (s.setFnX i x).rd adr = s.rd adr := rfl
@[simp] theorem State.setFnX_fld (i : Nat) (x : FnX) (g : Fld) : (s.setFnX i x).fld g = s.fld g := rfl
@[simp] theorem State.setFnX_on (i : Nat) (x : FnX) (g : Fld) : (s.setFnX i x).on g = s.on g := rfl
theorem Only.setFnX {ps : List Part} {fs : List Fld} {s t : State} (i : Nat) (x : FnX) (h : Only ps fs s t) (hp : Part.pcie ∈ ps) : Only ps fs s (t.setFnX i x) := by
  refine h.parts rfl fun p hp' => ?_
  cases p <;> first | exact absurd (List.mem_cons_of_mem _ hp) hp' | rfl | exact ⟨rfl, rfl⟩ | exact ⟨rfl, rfl, rfl, rfl, rfl, rfl, rfl⟩

/-! setInstX -/

@[simp] theorem State.setInstX_regs (i : Nat) (x : InstX) : (s.setInstX i x).regs = s.regs := rfl
@[simp] theorem State.setInstX_keeperPend (i : Nat) (x : InstX) : (s.setInstX i x).keeperPend = s.keeperPend := rfl
@[simp] theorem State.setInstX_eventLog (i : Nat) (x : InstX) : (s.setInstX i x).eventLog = s.eventLog := rfl
@[simp] theorem State.setInstX_eventSeq (i : Nat) (x : InstX) : (s.setInstX i x).eventSeq = s.eventSeq := rfl
@[simp] theorem State.setInstX_poisoned (i : Nat) (x : InstX) : (s.setInstX i x).poisoned = s.poisoned := rfl
@[simp] theorem State.setInstX_rises (i : Nat) (x : InstX) : (s.setInstX i x).rises = s.rises := rfl
@[simp] theorem State.setInstX_time (i : Nat) (x : InstX) : (s.setInstX i x).time = s.time := rfl
@[simp] theorem State.setInstX_arb (i : Nat) (x : InstX) : (s.setInstX i x).arb = s.arb := rfl
@[simp] theorem State.setInstX_core (i : Nat) (x : InstX) : (s.setInstX i x).core = s.core := rfl
@[simp] theorem State.setInstX_mem (i : Nat) (x : InstX) : (s.setInstX i x).mem = s.mem := rfl
@[simp] theorem State.setInstX_rings (i : Nat) (x : InstX) : (s.setInstX i x).rings = s.rings := rfl
@[simp] theorem State.setInstX_pcie (i : Nat) (x : InstX) : (s.setInstX i x).pcie = s.pcie := rfl
@[simp] theorem State.setInstX_fe (i : Nat) (x : InstX) : (s.setInstX i x).fe = s.fe := rfl
@[simp] theorem State.setInstX_eth (i : Nat) (x : InstX) : (s.setInstX i x).eth = s.eth := rfl
@[simp] theorem State.setInstX_cat (i : Nat) (x : InstX) : (s.setInstX i x).cat = s.cat := rfl
@[simp] theorem State.setInstX_addr (i : Nat) (x : InstX) : (s.setInstX i x).addr = s.addr := rfl
@[simp] theorem State.setInstX_cipher (i : Nat) (x : InstX) : (s.setInstX i x).cipher = s.cipher := rfl
@[simp] theorem State.setInstX_kra (i : Nat) (x : InstX) : (s.setInstX i x).kra = s.kra := rfl
@[simp] theorem State.setInstX_flash (i : Nat) (x : InstX) : (s.setInstX i x).flash = s.flash := rfl
@[simp] theorem State.setInstX_nv (i : Nat) (x : InstX) : (s.setInstX i x).nv = s.nv := rfl
@[simp] theorem State.setInstX_mgmt (i : Nat) (x : InstX) : (s.setInstX i x).mgmt = s.mgmt := rfl
@[simp] theorem State.setInstX_boot (i : Nat) (x : InstX) : (s.setInstX i x).boot = s.boot := rfl
@[simp] theorem State.setInstX_power (i : Nat) (x : InstX) : (s.setInstX i x).power = s.power := rfl
@[simp] theorem State.setInstX_links (i : Nat) (x : InstX) : (s.setInstX i x).links = s.links := rfl
@[simp] theorem State.setInstX_fed (i : Nat) (x : InstX) : (s.setInstX i x).fed = s.fed := rfl
@[simp] theorem State.setInstX_pmuFrozen (i : Nat) (x : InstX) : (s.setInstX i x).pmuFrozen = s.pmuFrozen := rfl
@[simp] theorem State.setInstX_pmuPending (i : Nat) (x : InstX) : (s.setInstX i x).pmuPending = s.pmuPending := rfl
@[simp] theorem State.setInstX_out (i : Nat) (x : InstX) : (s.setInstX i x).out = s.out := rfl
@[simp] theorem State.setInstX_freeCtr (i : Nat) (x : InstX) : (s.setInstX i x).freeCtr = s.freeCtr := rfl
@[simp] theorem State.setInstX_pending (i : Nat) (x : InstX) : (s.setInstX i x).pending = s.pending := rfl
@[simp] theorem State.setInstX_rd (i : Nat) (x : InstX) (adr : Nat) : (s.setInstX i x).rd adr = s.rd adr := rfl
@[simp] theorem State.setInstX_fld (i : Nat) (x : InstX) (g : Fld) : (s.setInstX i x).fld g = s.fld g := rfl
@[simp] theorem State.setInstX_on (i : Nat) (x : InstX) (g : Fld) : (s.setInstX i x).on g = s.on g := rfl
theorem Only.setInstX {ps : List Part} {fs : List Fld} {s t : State} (i : Nat) (x : InstX) (h : Only ps fs s t) (hp : Part.inst ∈ ps) : Only ps fs s (t.setInstX i x) := by
  refine h.parts rfl fun p hp' => ?_
  cases p <;> first | exact absurd (List.mem_cons_of_mem _ hp) hp' | rfl | exact ⟨rfl, rfl⟩ | exact ⟨rfl, rfl, rfl, rfl, rfl, rfl, rfl⟩

/-! setLink -/

@[simp] theorem State.setLink_regs (p : Nat) (l : KLink) : (s.setLink p l).regs = s.regs := rfl
@[simp] theorem State.setLink_keeperPend (p : Nat) (l : KLink) : (s.setLink p l).keeperPend = s.keeperPend := rfl
@[simp] theorem State.setLink_eventLog (p : Nat) (l : KLink) : (s.setLink p l).eventLog = s.eventLog := rfl
@[simp] theorem State.setLink_eventSeq (p : Nat) (l : KLink) : (s.setLink p l).eventSeq = s.eventSeq := rfl
@[simp] theorem State.setLink_poisoned (p : Nat) (l : KLink) : (s.setLink p l).poisoned = s.poisoned := rfl
@[simp] theorem State.setLink_rises (p : Nat) (l : KLink) : (s.setLink p l).rises = s.rises := rfl
@[simp] theorem State.setLink_time (p : Nat) (l : KLink) : (s.setLink p l).time = s.time := rfl
@[simp] theorem State.setLink_arb (p : Nat) (l : KLink) : (s.setLink p l).arb = s.arb := rfl
@[simp] theorem State.setLink_core (p : Nat) (l : KLink) : (s.setLink p l).core = s.core := rfl
@[simp] theorem State.setLink_mem (p : Nat) (l : KLink) : (s.setLink p l).mem = s.mem := rfl
@[simp] theorem State.setLink_rings (p : Nat) (l : KLink) : (s.setLink p l).rings = s.rings := rfl
@[simp] theorem State.setLink_pcie (p : Nat) (l : KLink) : (s.setLink p l).pcie = s.pcie := rfl
@[simp] theorem State.setLink_inst (p : Nat) (l : KLink) : (s.setLink p l).inst = s.inst := rfl
@[simp] theorem State.setLink_fe (p : Nat) (l : KLink) : (s.setLink p l).fe = s.fe := rfl
@[simp] theorem State.setLink_eth (p : Nat) (l : KLink) : (s.setLink p l).eth = s.eth := rfl
@[simp] theorem State.setLink_cat (p : Nat) (l : KLink) : (s.setLink p l).cat = s.cat := rfl
@[simp] theorem State.setLink_addr (p : Nat) (l : KLink) : (s.setLink p l).addr = s.addr := rfl
@[simp] theorem State.setLink_cipher (p : Nat) (l : KLink) : (s.setLink p l).cipher = s.cipher := rfl
@[simp] theorem State.setLink_kra (p : Nat) (l : KLink) : (s.setLink p l).kra = s.kra := rfl
@[simp] theorem State.setLink_flash (p : Nat) (l : KLink) : (s.setLink p l).flash = s.flash := rfl
@[simp] theorem State.setLink_nv (p : Nat) (l : KLink) : (s.setLink p l).nv = s.nv := rfl
@[simp] theorem State.setLink_mgmt (p : Nat) (l : KLink) : (s.setLink p l).mgmt = s.mgmt := rfl
@[simp] theorem State.setLink_boot (p : Nat) (l : KLink) : (s.setLink p l).boot = s.boot := rfl
@[simp] theorem State.setLink_power (p : Nat) (l : KLink) : (s.setLink p l).power = s.power := rfl
@[simp] theorem State.setLink_fed (p : Nat) (l : KLink) : (s.setLink p l).fed = s.fed := rfl
@[simp] theorem State.setLink_pmuFrozen (p : Nat) (l : KLink) : (s.setLink p l).pmuFrozen = s.pmuFrozen := rfl
@[simp] theorem State.setLink_pmuPending (p : Nat) (l : KLink) : (s.setLink p l).pmuPending = s.pmuPending := rfl
@[simp] theorem State.setLink_out (p : Nat) (l : KLink) : (s.setLink p l).out = s.out := rfl
@[simp] theorem State.setLink_freeCtr (p : Nat) (l : KLink) : (s.setLink p l).freeCtr = s.freeCtr := rfl
@[simp] theorem State.setLink_pending (p : Nat) (l : KLink) : (s.setLink p l).pending = s.pending := rfl
@[simp] theorem State.setLink_rd (p : Nat) (l : KLink) (adr : Nat) : (s.setLink p l).rd adr = s.rd adr := rfl
@[simp] theorem State.setLink_fld (p : Nat) (l : KLink) (g : Fld) : (s.setLink p l).fld g = s.fld g := rfl
@[simp] theorem State.setLink_on (p : Nat) (l : KLink) (g : Fld) : (s.setLink p l).on g = s.on g := rfl
theorem Only.setLink {ps : List Part} {fs : List Fld} {s t : State} (p : Nat) (l : KLink) (h : Only ps fs s t) (hp : Part.links ∈ ps) : Only ps fs s (t.setLink p l) := by
  refine h.parts rfl fun p hp' => ?_
  cases p <;> first | exact absurd (List.mem_cons_of_mem _ hp) hp' | rfl | exact ⟨rfl, rfl⟩ | exact ⟨rfl, rfl, rfl, rfl, rfl, rfl, rfl⟩

/-! setNs -/

@[simp] theorem State.setNs_regs (n : Nat) (x : NsState) : (s.setNs n x).regs = s.regs := rfl
@[simp] theorem State.setNs_keeperPend (n : Nat) (x : NsState) : (s.setNs n x).keeperPend = s.keeperPend := rfl
@[simp] theorem State.setNs_eventLog (n : Nat) (x : NsState) : (s.setNs n x).eventLog = s.eventLog := rfl
@[simp] theorem State.setNs_eventSeq (n : Nat) (x : NsState) : (s.setNs n x).eventSeq = s.eventSeq := rfl
@[simp] theorem State.setNs_poisoned (n : Nat) (x : NsState) : (s.setNs n x).poisoned = s.poisoned := rfl
@[simp] theorem State.setNs_rises (n : Nat) (x : NsState) : (s.setNs n x).rises = s.rises := rfl
@[simp] theorem State.setNs_time (n : Nat) (x : NsState) : (s.setNs n x).time = s.time := rfl
@[simp] theorem State.setNs_arb (n : Nat) (x : NsState) : (s.setNs n x).arb = s.arb := rfl
@[simp] theorem State.setNs_core (n : Nat) (x : NsState) : (s.setNs n x).core = s.core := rfl
@[simp] theorem State.setNs_mem (n : Nat) (x : NsState) : (s.setNs n x).mem = s.mem := rfl
@[simp] theorem State.setNs_rings (n : Nat) (x : NsState) : (s.setNs n x).rings = s.rings := rfl
@[simp] theorem State.setNs_pcie (n : Nat) (x : NsState) : (s.setNs n x).pcie = s.pcie := rfl
@[simp] theorem State.setNs_inst (n : Nat) (x : NsState) : (s.setNs n x).inst = s.inst := rfl
@[simp] theorem State.setNs_fe (n : Nat) (x : NsState) : (s.setNs n x).fe = s.fe := rfl
@[simp] theorem State.setNs_eth (n : Nat) (x : NsState) : (s.setNs n x).eth = s.eth := rfl
@[simp] theorem State.setNs_cat (n : Nat) (x : NsState) : (s.setNs n x).cat = s.cat := rfl
@[simp] theorem State.setNs_addr (n : Nat) (x : NsState) : (s.setNs n x).addr = s.addr := rfl
@[simp] theorem State.setNs_cipher (n : Nat) (x : NsState) : (s.setNs n x).cipher = s.cipher := rfl
@[simp] theorem State.setNs_kra (n : Nat) (x : NsState) : (s.setNs n x).kra = s.kra := rfl
@[simp] theorem State.setNs_flash (n : Nat) (x : NsState) : (s.setNs n x).flash = s.flash := rfl
@[simp] theorem State.setNs_mgmt (n : Nat) (x : NsState) : (s.setNs n x).mgmt = s.mgmt := rfl
@[simp] theorem State.setNs_boot (n : Nat) (x : NsState) : (s.setNs n x).boot = s.boot := rfl
@[simp] theorem State.setNs_power (n : Nat) (x : NsState) : (s.setNs n x).power = s.power := rfl
@[simp] theorem State.setNs_links (n : Nat) (x : NsState) : (s.setNs n x).links = s.links := rfl
@[simp] theorem State.setNs_fed (n : Nat) (x : NsState) : (s.setNs n x).fed = s.fed := rfl
@[simp] theorem State.setNs_pmuFrozen (n : Nat) (x : NsState) : (s.setNs n x).pmuFrozen = s.pmuFrozen := rfl
@[simp] theorem State.setNs_pmuPending (n : Nat) (x : NsState) : (s.setNs n x).pmuPending = s.pmuPending := rfl
@[simp] theorem State.setNs_out (n : Nat) (x : NsState) : (s.setNs n x).out = s.out := rfl
@[simp] theorem State.setNs_freeCtr (n : Nat) (x : NsState) : (s.setNs n x).freeCtr = s.freeCtr := rfl
@[simp] theorem State.setNs_pending (n : Nat) (x : NsState) : (s.setNs n x).pending = s.pending := rfl
@[simp] theorem State.setNs_rd (n : Nat) (x : NsState) (adr : Nat) : (s.setNs n x).rd adr = s.rd adr := rfl
@[simp] theorem State.setNs_fld (n : Nat) (x : NsState) (g : Fld) : (s.setNs n x).fld g = s.fld g := rfl
@[simp] theorem State.setNs_on (n : Nat) (x : NsState) (g : Fld) : (s.setNs n x).on g = s.on g := rfl
theorem Only.setNs {ps : List Part} {fs : List Fld} {s t : State} (n : Nat) (x : NsState) (h : Only ps fs s t) (hp : Part.nv ∈ ps) : Only ps fs s (t.setNs n x) := by
  refine h.parts rfl fun p hp' => ?_
  cases p <;> first | exact absurd (List.mem_cons_of_mem _ hp) hp' | rfl | exact ⟨rfl, rfl⟩ | exact ⟨rfl, rfl, rfl, rfl, rfl, rfl, rfl⟩

/-! setNvc -/

@[simp] theorem State.setNvc_regs (i : Nat) (c : NvCtrl) : (s.setNvc i c).regs = s.regs := rfl
@[simp] theorem State.setNvc_keeperPend (i : Nat) (c : NvCtrl) : (s.setNvc i c).keeperPend = s.keeperPend := rfl
@[simp] theorem State.setNvc_eventLog (i : Nat) (c : NvCtrl) : (s.setNvc i c).eventLog = s.eventLog := rfl
@[simp] theorem State.setNvc_eventSeq (i : Nat) (c : NvCtrl) : (s.setNvc i c).eventSeq = s.eventSeq := rfl
@[simp] theorem State.setNvc_poisoned (i : Nat) (c : NvCtrl) : (s.setNvc i c).poisoned = s.poisoned := rfl
@[simp] theorem State.setNvc_rises (i : Nat) (c : NvCtrl) : (s.setNvc i c).rises = s.rises := rfl
@[simp] theorem State.setNvc_time (i : Nat) (c : NvCtrl) : (s.setNvc i c).time = s.time := rfl
@[simp] theorem State.setNvc_arb (i : Nat) (c : NvCtrl) : (s.setNvc i c).arb = s.arb := rfl
@[simp] theorem State.setNvc_core (i : Nat) (c : NvCtrl) : (s.setNvc i c).core = s.core := rfl
@[simp] theorem State.setNvc_mem (i : Nat) (c : NvCtrl) : (s.setNvc i c).mem = s.mem := rfl
@[simp] theorem State.setNvc_rings (i : Nat) (c : NvCtrl) : (s.setNvc i c).rings = s.rings := rfl
@[simp] theorem State.setNvc_pcie (i : Nat) (c : NvCtrl) : (s.setNvc i c).pcie = s.pcie := rfl
@[simp] theorem State.setNvc_inst (i : Nat) (c : NvCtrl) : (s.setNvc i c).inst = s.inst := rfl
@[simp] theorem State.setNvc_fe (i : Nat) (c : NvCtrl) : (s.setNvc i c).fe = s.fe := rfl
@[simp] theorem State.setNvc_eth (i : Nat) (c : NvCtrl) : (s.setNvc i c).eth = s.eth := rfl
@[simp] theorem State.setNvc_cat (i : Nat) (c : NvCtrl) : (s.setNvc i c).cat = s.cat := rfl
@[simp] theorem State.setNvc_addr (i : Nat) (c : NvCtrl) : (s.setNvc i c).addr = s.addr := rfl
@[simp] theorem State.setNvc_cipher (i : Nat) (c : NvCtrl) : (s.setNvc i c).cipher = s.cipher := rfl
@[simp] theorem State.setNvc_kra (i : Nat) (c : NvCtrl) : (s.setNvc i c).kra = s.kra := rfl
@[simp] theorem State.setNvc_flash (i : Nat) (c : NvCtrl) : (s.setNvc i c).flash = s.flash := rfl
@[simp] theorem State.setNvc_mgmt (i : Nat) (c : NvCtrl) : (s.setNvc i c).mgmt = s.mgmt := rfl
@[simp] theorem State.setNvc_boot (i : Nat) (c : NvCtrl) : (s.setNvc i c).boot = s.boot := rfl
@[simp] theorem State.setNvc_power (i : Nat) (c : NvCtrl) : (s.setNvc i c).power = s.power := rfl
@[simp] theorem State.setNvc_links (i : Nat) (c : NvCtrl) : (s.setNvc i c).links = s.links := rfl
@[simp] theorem State.setNvc_fed (i : Nat) (c : NvCtrl) : (s.setNvc i c).fed = s.fed := rfl
@[simp] theorem State.setNvc_pmuFrozen (i : Nat) (c : NvCtrl) : (s.setNvc i c).pmuFrozen = s.pmuFrozen := rfl
@[simp] theorem State.setNvc_pmuPending (i : Nat) (c : NvCtrl) : (s.setNvc i c).pmuPending = s.pmuPending := rfl
@[simp] theorem State.setNvc_out (i : Nat) (c : NvCtrl) : (s.setNvc i c).out = s.out := rfl
@[simp] theorem State.setNvc_freeCtr (i : Nat) (c : NvCtrl) : (s.setNvc i c).freeCtr = s.freeCtr := rfl
@[simp] theorem State.setNvc_pending (i : Nat) (c : NvCtrl) : (s.setNvc i c).pending = s.pending := rfl
@[simp] theorem State.setNvc_rd (i : Nat) (c : NvCtrl) (adr : Nat) : (s.setNvc i c).rd adr = s.rd adr := rfl
@[simp] theorem State.setNvc_fld (i : Nat) (c : NvCtrl) (g : Fld) : (s.setNvc i c).fld g = s.fld g := rfl
@[simp] theorem State.setNvc_on (i : Nat) (c : NvCtrl) (g : Fld) : (s.setNvc i c).on g = s.on g := rfl
theorem Only.setNvc {ps : List Part} {fs : List Fld} {s t : State} (i : Nat) (c : NvCtrl) (h : Only ps fs s t) (hp : Part.nv ∈ ps) : Only ps fs s (t.setNvc i c) := by
  refine h.parts rfl fun p hp' => ?_
  cases p <;> first | exact absurd (List.mem_cons_of_mem _ hp) hp' | rfl | exact ⟨rfl, rfl⟩ | exact ⟨rfl, rfl, rfl, rfl, rfl, rfl, rfl⟩

/-! setQpx -/

@[simp] theorem State.setQpx_regs (q : Nat) (x : QpX) : (s.setQpx q x).regs = s.regs := rfl
@[simp] theorem State.setQpx_keeperPend (q : Nat) (x : QpX) : (s.setQpx q x).keeperPend = s.keeperPend := rfl
@[simp] theorem State.setQpx_eventLog (q : Nat) (x : QpX) : (s.setQpx q x).eventLog = s.eventLog := rfl
@[simp] theorem State.setQpx_eventSeq (q : Nat) (x : QpX) : (s.setQpx q x).eventSeq = s.eventSeq := rfl
@[simp] theorem State.setQpx_poisoned (q : Nat) (x : QpX) : (s.setQpx q x).poisoned = s.poisoned := rfl
@[simp] theorem State.setQpx_rises (q : Nat) (x : QpX) : (s.setQpx q x).rises = s.rises := rfl
@[simp] theorem State.setQpx_time (q : Nat) (x : QpX) : (s.setQpx q x).time = s.time := rfl
@[simp] theorem State.setQpx_arb (q : Nat) (x : QpX) : (s.setQpx q x).arb = s.arb := rfl
@[simp] theorem State.setQpx_core (q : Nat) (x : QpX) : (s.setQpx q x).core = s.core := rfl
@[simp] theorem State.setQpx_mem (q : Nat) (x : QpX) : (s.setQpx q x).mem = s.mem := rfl
@[simp] theorem State.setQpx_rings (q : Nat) (x : QpX) : (s.setQpx q x).rings = s.rings := rfl
@[simp] theorem State.setQpx_pcie (q : Nat) (x : QpX) : (s.setQpx q x).pcie = s.pcie := rfl
@[simp] theorem State.setQpx_inst (q : Nat) (x : QpX) : (s.setQpx q x).inst = s.inst := rfl
@[simp] theorem State.setQpx_fe (q : Nat) (x : QpX) : (s.setQpx q x).fe = s.fe := rfl
@[simp] theorem State.setQpx_eth (q : Nat) (x : QpX) : (s.setQpx q x).eth = s.eth := rfl
@[simp] theorem State.setQpx_cat (q : Nat) (x : QpX) : (s.setQpx q x).cat = s.cat := rfl
@[simp] theorem State.setQpx_addr (q : Nat) (x : QpX) : (s.setQpx q x).addr = s.addr := rfl
@[simp] theorem State.setQpx_cipher (q : Nat) (x : QpX) : (s.setQpx q x).cipher = s.cipher := rfl
@[simp] theorem State.setQpx_flash (q : Nat) (x : QpX) : (s.setQpx q x).flash = s.flash := rfl
@[simp] theorem State.setQpx_nv (q : Nat) (x : QpX) : (s.setQpx q x).nv = s.nv := rfl
@[simp] theorem State.setQpx_mgmt (q : Nat) (x : QpX) : (s.setQpx q x).mgmt = s.mgmt := rfl
@[simp] theorem State.setQpx_boot (q : Nat) (x : QpX) : (s.setQpx q x).boot = s.boot := rfl
@[simp] theorem State.setQpx_power (q : Nat) (x : QpX) : (s.setQpx q x).power = s.power := rfl
@[simp] theorem State.setQpx_links (q : Nat) (x : QpX) : (s.setQpx q x).links = s.links := rfl
@[simp] theorem State.setQpx_fed (q : Nat) (x : QpX) : (s.setQpx q x).fed = s.fed := rfl
@[simp] theorem State.setQpx_pmuFrozen (q : Nat) (x : QpX) : (s.setQpx q x).pmuFrozen = s.pmuFrozen := rfl
@[simp] theorem State.setQpx_pmuPending (q : Nat) (x : QpX) : (s.setQpx q x).pmuPending = s.pmuPending := rfl
@[simp] theorem State.setQpx_out (q : Nat) (x : QpX) : (s.setQpx q x).out = s.out := rfl
@[simp] theorem State.setQpx_freeCtr (q : Nat) (x : QpX) : (s.setQpx q x).freeCtr = s.freeCtr := rfl
@[simp] theorem State.setQpx_pending (q : Nat) (x : QpX) : (s.setQpx q x).pending = s.pending := rfl
@[simp] theorem State.setQpx_rd (q : Nat) (x : QpX) (adr : Nat) : (s.setQpx q x).rd adr = s.rd adr := rfl
@[simp] theorem State.setQpx_fld (q : Nat) (x : QpX) (g : Fld) : (s.setQpx q x).fld g = s.fld g := rfl
@[simp] theorem State.setQpx_on (q : Nat) (x : QpX) (g : Fld) : (s.setQpx q x).on g = s.on g := rfl
theorem Only.setQpx {ps : List Part} {fs : List Fld} {s t : State} (q : Nat) (x : QpX) (h : Only ps fs s t) (hp : Part.kra ∈ ps) : Only ps fs s (t.setQpx q x) := by
  refine h.parts rfl fun p hp' => ?_
  cases p <;> first | exact absurd (List.mem_cons_of_mem _ hp) hp' | rfl | exact ⟨rfl, rfl⟩ | exact ⟨rfl, rfl, rfl, rfl, rfl, rfl, rfl⟩

/-! setBlk -/

@[simp] theorem State.setBlk_regs (k x b : Nat) (v : Blk) : (s.setBlk k x b v).regs = s.regs := rfl
@[simp] theorem State.setBlk_keeperPend (k x b : Nat) (v : Blk) : (s.setBlk k x b v).keeperPend = s.keeperPend := rfl
@[simp] theorem State.setBlk_eventLog (k x b : Nat) (v : Blk) : (s.setBlk k x b v).eventLog = s.eventLog := rfl
@[simp] theorem State.setBlk_eventSeq (k x b : Nat) (v : Blk) : (s.setBlk k x b v).eventSeq = s.eventSeq := rfl
@[simp] theorem State.setBlk_poisoned (k x b : Nat) (v : Blk) : (s.setBlk k x b v).poisoned = s.poisoned := rfl
@[simp] theorem State.setBlk_rises (k x b : Nat) (v : Blk) : (s.setBlk k x b v).rises = s.rises := rfl
@[simp] theorem State.setBlk_time (k x b : Nat) (v : Blk) : (s.setBlk k x b v).time = s.time := rfl
@[simp] theorem State.setBlk_arb (k x b : Nat) (v : Blk) : (s.setBlk k x b v).arb = s.arb := rfl
@[simp] theorem State.setBlk_core (k x b : Nat) (v : Blk) : (s.setBlk k x b v).core = s.core := rfl
@[simp] theorem State.setBlk_mem (k x b : Nat) (v : Blk) : (s.setBlk k x b v).mem = s.mem := rfl
@[simp] theorem State.setBlk_rings (k x b : Nat) (v : Blk) : (s.setBlk k x b v).rings = s.rings := rfl
@[simp] theorem State.setBlk_pcie (k x b : Nat) (v : Blk) : (s.setBlk k x b v).pcie = s.pcie := rfl
@[simp] theorem State.setBlk_inst (k x b : Nat) (v : Blk) : (s.setBlk k x b v).inst = s.inst := rfl
@[simp] theorem State.setBlk_fe (k x b : Nat) (v : Blk) : (s.setBlk k x b v).fe = s.fe := rfl
@[simp] theorem State.setBlk_eth (k x b : Nat) (v : Blk) : (s.setBlk k x b v).eth = s.eth := rfl
@[simp] theorem State.setBlk_cat (k x b : Nat) (v : Blk) : (s.setBlk k x b v).cat = s.cat := rfl
@[simp] theorem State.setBlk_addr (k x b : Nat) (v : Blk) : (s.setBlk k x b v).addr = s.addr := rfl
@[simp] theorem State.setBlk_cipher (k x b : Nat) (v : Blk) : (s.setBlk k x b v).cipher = s.cipher := rfl
@[simp] theorem State.setBlk_kra (k x b : Nat) (v : Blk) : (s.setBlk k x b v).kra = s.kra := rfl
@[simp] theorem State.setBlk_nv (k x b : Nat) (v : Blk) : (s.setBlk k x b v).nv = s.nv := rfl
@[simp] theorem State.setBlk_mgmt (k x b : Nat) (v : Blk) : (s.setBlk k x b v).mgmt = s.mgmt := rfl
@[simp] theorem State.setBlk_boot (k x b : Nat) (v : Blk) : (s.setBlk k x b v).boot = s.boot := rfl
@[simp] theorem State.setBlk_power (k x b : Nat) (v : Blk) : (s.setBlk k x b v).power = s.power := rfl
@[simp] theorem State.setBlk_links (k x b : Nat) (v : Blk) : (s.setBlk k x b v).links = s.links := rfl
@[simp] theorem State.setBlk_fed (k x b : Nat) (v : Blk) : (s.setBlk k x b v).fed = s.fed := rfl
@[simp] theorem State.setBlk_pmuFrozen (k x b : Nat) (v : Blk) : (s.setBlk k x b v).pmuFrozen = s.pmuFrozen := rfl
@[simp] theorem State.setBlk_pmuPending (k x b : Nat) (v : Blk) : (s.setBlk k x b v).pmuPending = s.pmuPending := rfl
@[simp] theorem State.setBlk_out (k x b : Nat) (v : Blk) : (s.setBlk k x b v).out = s.out := rfl
@[simp] theorem State.setBlk_freeCtr (k x b : Nat) (v : Blk) : (s.setBlk k x b v).freeCtr = s.freeCtr := rfl
@[simp] theorem State.setBlk_pending (k x b : Nat) (v : Blk) : (s.setBlk k x b v).pending = s.pending := rfl
@[simp] theorem State.setBlk_rd (k x b : Nat) (v : Blk) (adr : Nat) : (s.setBlk k x b v).rd adr = s.rd adr := rfl
@[simp] theorem State.setBlk_fld (k x b : Nat) (v : Blk) (g : Fld) : (s.setBlk k x b v).fld g = s.fld g := rfl
@[simp] theorem State.setBlk_on (k x b : Nat) (v : Blk) (g : Fld) : (s.setBlk k x b v).on g = s.on g := rfl
theorem Only.setBlk {ps : List Part} {fs : List Fld} {s t : State} (k x b : Nat) (v : Blk) (h : Only ps fs s t) (hp : Part.flash ∈ ps) : Only ps fs s (t.setBlk k x b v) := by
  refine h.parts rfl fun p hp' => ?_
  cases p <;> first | exact absurd (List.mem_cons_of_mem _ hp) hp' | rfl | exact ⟨rfl, rfl⟩ | exact ⟨rfl, rfl, rfl, rfl, rfl, rfl, rfl⟩

/-! setBuf -/

@[simp] theorem State.setBuf_regs (k : Nat) (l : List WUnit) : (s.setBuf k l).regs = s.regs := rfl
@[simp] theorem State.setBuf_keeperPend (k : Nat) (l : List WUnit) : (s.setBuf k l).keeperPend = s.keeperPend := rfl
@[simp] theorem State.setBuf_eventLog (k : Nat) (l : List WUnit) : (s.setBuf k l).eventLog = s.eventLog := rfl
@[simp] theorem State.setBuf_eventSeq (k : Nat) (l : List WUnit) : (s.setBuf k l).eventSeq = s.eventSeq := rfl
@[simp] theorem State.setBuf_poisoned (k : Nat) (l : List WUnit) : (s.setBuf k l).poisoned = s.poisoned := rfl
@[simp] theorem State.setBuf_rises (k : Nat) (l : List WUnit) : (s.setBuf k l).rises = s.rises := rfl
@[simp] theorem State.setBuf_time (k : Nat) (l : List WUnit) : (s.setBuf k l).time = s.time := rfl
@[simp] theorem State.setBuf_arb (k : Nat) (l : List WUnit) : (s.setBuf k l).arb = s.arb := rfl
@[simp] theorem State.setBuf_core (k : Nat) (l : List WUnit) : (s.setBuf k l).core = s.core := rfl
@[simp] theorem State.setBuf_mem (k : Nat) (l : List WUnit) : (s.setBuf k l).mem = s.mem := rfl
@[simp] theorem State.setBuf_rings (k : Nat) (l : List WUnit) : (s.setBuf k l).rings = s.rings := rfl
@[simp] theorem State.setBuf_pcie (k : Nat) (l : List WUnit) : (s.setBuf k l).pcie = s.pcie := rfl
@[simp] theorem State.setBuf_inst (k : Nat) (l : List WUnit) : (s.setBuf k l).inst = s.inst := rfl
@[simp] theorem State.setBuf_fe (k : Nat) (l : List WUnit) : (s.setBuf k l).fe = s.fe := rfl
@[simp] theorem State.setBuf_eth (k : Nat) (l : List WUnit) : (s.setBuf k l).eth = s.eth := rfl
@[simp] theorem State.setBuf_cat (k : Nat) (l : List WUnit) : (s.setBuf k l).cat = s.cat := rfl
@[simp] theorem State.setBuf_addr (k : Nat) (l : List WUnit) : (s.setBuf k l).addr = s.addr := rfl
@[simp] theorem State.setBuf_cipher (k : Nat) (l : List WUnit) : (s.setBuf k l).cipher = s.cipher := rfl
@[simp] theorem State.setBuf_kra (k : Nat) (l : List WUnit) : (s.setBuf k l).kra = s.kra := rfl
@[simp] theorem State.setBuf_nv (k : Nat) (l : List WUnit) : (s.setBuf k l).nv = s.nv := rfl
@[simp] theorem State.setBuf_mgmt (k : Nat) (l : List WUnit) : (s.setBuf k l).mgmt = s.mgmt := rfl
@[simp] theorem State.setBuf_boot (k : Nat) (l : List WUnit) : (s.setBuf k l).boot = s.boot := rfl
@[simp] theorem State.setBuf_power (k : Nat) (l : List WUnit) : (s.setBuf k l).power = s.power := rfl
@[simp] theorem State.setBuf_links (k : Nat) (l : List WUnit) : (s.setBuf k l).links = s.links := rfl
@[simp] theorem State.setBuf_fed (k : Nat) (l : List WUnit) : (s.setBuf k l).fed = s.fed := rfl
@[simp] theorem State.setBuf_pmuFrozen (k : Nat) (l : List WUnit) : (s.setBuf k l).pmuFrozen = s.pmuFrozen := rfl
@[simp] theorem State.setBuf_pmuPending (k : Nat) (l : List WUnit) : (s.setBuf k l).pmuPending = s.pmuPending := rfl
@[simp] theorem State.setBuf_out (k : Nat) (l : List WUnit) : (s.setBuf k l).out = s.out := rfl
@[simp] theorem State.setBuf_freeCtr (k : Nat) (l : List WUnit) : (s.setBuf k l).freeCtr = s.freeCtr := rfl
@[simp] theorem State.setBuf_pending (k : Nat) (l : List WUnit) : (s.setBuf k l).pending = s.pending := rfl
@[simp] theorem State.setBuf_rd (k : Nat) (l : List WUnit) (adr : Nat) : (s.setBuf k l).rd adr = s.rd adr := rfl
@[simp] theorem State.setBuf_fld (k : Nat) (l : List WUnit) (g : Fld) : (s.setBuf k l).fld g = s.fld g := rfl
@[simp] theorem State.setBuf_on (k : Nat) (l : List WUnit) (g : Fld) : (s.setBuf k l).on g = s.on g := rfl
theorem Only.setBuf {ps : List Part} {fs : List Fld} {s t : State} (k : Nat) (l : List WUnit) (h : Only ps fs s t) (hp : Part.flash ∈ ps) : Only ps fs s (t.setBuf k l) := by
  refine h.parts rfl fun p hp' => ?_
  cases p <;> first | exact absurd (List.mem_cons_of_mem _ hp) hp' | rfl | exact ⟨rfl, rfl⟩ | exact ⟨rfl, rfl, rfl, rfl, rfl, rfl, rfl⟩

/-! setCmd -/

@[simp] theorem State.setCmd_regs (c : NvCmd) : (s.setCmd c).regs = s.regs := rfl
@[simp] theorem State.setCmd_keeperPend (c : NvCmd) : (s.setCmd c).keeperPend = s.keeperPend := rfl
@[simp] theorem State.setCmd_eventLog (c : NvCmd) : (s.setCmd c).eventLog = s.eventLog := rfl
@[simp] theorem State.setCmd_eventSeq (c : NvCmd) : (s.setCmd c).eventSeq = s.eventSeq := rfl
@[simp] theorem State.setCmd_poisoned (c : NvCmd) : (s.setCmd c).poisoned = s.poisoned := rfl
@[simp] theorem State.setCmd_rises (c : NvCmd) : (s.setCmd c).rises = s.rises := rfl
@[simp] theorem State.setCmd_time (c : NvCmd) : (s.setCmd c).time = s.time := rfl
@[simp] theorem State.setCmd_arb (c : NvCmd) : (s.setCmd c).arb = s.arb := rfl
@[simp] theorem State.setCmd_core (c : NvCmd) : (s.setCmd c).core = s.core := rfl
@[simp] theorem State.setCmd_mem (c : NvCmd) : (s.setCmd c).mem = s.mem := rfl
@[simp] theorem State.setCmd_rings (c : NvCmd) : (s.setCmd c).rings = s.rings := rfl
@[simp] theorem State.setCmd_pcie (c : NvCmd) : (s.setCmd c).pcie = s.pcie := rfl
@[simp] theorem State.setCmd_inst (c : NvCmd) : (s.setCmd c).inst = s.inst := rfl
@[simp] theorem State.setCmd_fe (c : NvCmd) : (s.setCmd c).fe = s.fe := rfl
@[simp] theorem State.setCmd_eth (c : NvCmd) : (s.setCmd c).eth = s.eth := rfl
@[simp] theorem State.setCmd_cat (c : NvCmd) : (s.setCmd c).cat = s.cat := rfl
@[simp] theorem State.setCmd_addr (c : NvCmd) : (s.setCmd c).addr = s.addr := rfl
@[simp] theorem State.setCmd_cipher (c : NvCmd) : (s.setCmd c).cipher = s.cipher := rfl
@[simp] theorem State.setCmd_kra (c : NvCmd) : (s.setCmd c).kra = s.kra := rfl
@[simp] theorem State.setCmd_flash (c : NvCmd) : (s.setCmd c).flash = s.flash := rfl
@[simp] theorem State.setCmd_mgmt (c : NvCmd) : (s.setCmd c).mgmt = s.mgmt := rfl
@[simp] theorem State.setCmd_boot (c : NvCmd) : (s.setCmd c).boot = s.boot := rfl
@[simp] theorem State.setCmd_power (c : NvCmd) : (s.setCmd c).power = s.power := rfl
@[simp] theorem State.setCmd_links (c : NvCmd) : (s.setCmd c).links = s.links := rfl
@[simp] theorem State.setCmd_fed (c : NvCmd) : (s.setCmd c).fed = s.fed := rfl
@[simp] theorem State.setCmd_pmuFrozen (c : NvCmd) : (s.setCmd c).pmuFrozen = s.pmuFrozen := rfl
@[simp] theorem State.setCmd_pmuPending (c : NvCmd) : (s.setCmd c).pmuPending = s.pmuPending := rfl
@[simp] theorem State.setCmd_out (c : NvCmd) : (s.setCmd c).out = s.out := rfl
@[simp] theorem State.setCmd_freeCtr (c : NvCmd) : (s.setCmd c).freeCtr = s.freeCtr := rfl
@[simp] theorem State.setCmd_pending (c : NvCmd) : (s.setCmd c).pending = s.pending := rfl
@[simp] theorem State.setCmd_rd (c : NvCmd) (adr : Nat) : (s.setCmd c).rd adr = s.rd adr := rfl
@[simp] theorem State.setCmd_fld (c : NvCmd) (g : Fld) : (s.setCmd c).fld g = s.fld g := rfl
@[simp] theorem State.setCmd_on (c : NvCmd) (g : Fld) : (s.setCmd c).on g = s.on g := rfl
theorem Only.setCmd {ps : List Part} {fs : List Fld} {s t : State} (c : NvCmd) (h : Only ps fs s t) (hp : Part.nv ∈ ps) : Only ps fs s (t.setCmd c) := by
  refine h.parts rfl fun p hp' => ?_
  cases p <;> first | exact absurd (List.mem_cons_of_mem _ hp) hp' | rfl | exact ⟨rfl, rfl⟩ | exact ⟨rfl, rfl, rfl, rfl, rfl, rfl, rfl⟩

/-! settle -/

@[simp] theorem State.settle_keeperPend (t : State) : (s.settle t).keeperPend = t.keeperPend := rfl
@[simp] theorem State.settle_eventLog (t : State) : (s.settle t).eventLog = t.eventLog := rfl
@[simp] theorem State.settle_eventSeq (t : State) : (s.settle t).eventSeq = t.eventSeq := rfl
@[simp] theorem State.settle_poisoned (t : State) : (s.settle t).poisoned = t.poisoned := rfl
@[simp] theorem State.settle_rises (t : State) : (s.settle t).rises = t.rises := rfl
@[simp] theorem State.settle_time (t : State) : (s.settle t).time = t.time := rfl
@[simp] theorem State.settle_arb (t : State) : (s.settle t).arb = t.arb := rfl
@[simp] theorem State.settle_mem (t : State) : (s.settle t).mem = t.mem := rfl
@[simp] theorem State.settle_rings (t : State) : (s.settle t).rings = t.rings := rfl
@[simp] theorem State.settle_pcie (t : State) : (s.settle t).pcie = t.pcie := rfl
@[simp] theorem State.settle_inst (t : State) : (s.settle t).inst = t.inst := rfl
@[simp] theorem State.settle_fe (t : State) : (s.settle t).fe = t.fe := rfl
@[simp] theorem State.settle_eth (t : State) : (s.settle t).eth = t.eth := rfl
@[simp] theorem State.settle_cat (t : State) : (s.settle t).cat = t.cat := rfl
@[simp] theorem State.settle_addr (t : State) : (s.settle t).addr = t.addr := rfl
@[simp] theorem State.settle_cipher (t : State) : (s.settle t).cipher = t.cipher := rfl
@[simp] theorem State.settle_kra (t : State) : (s.settle t).kra = t.kra := rfl
@[simp] theorem State.settle_flash (t : State) : (s.settle t).flash = t.flash := rfl
@[simp] theorem State.settle_nv (t : State) : (s.settle t).nv = t.nv := rfl
@[simp] theorem State.settle_mgmt (t : State) : (s.settle t).mgmt = t.mgmt := rfl
@[simp] theorem State.settle_boot (t : State) : (s.settle t).boot = t.boot := rfl
@[simp] theorem State.settle_power (t : State) : (s.settle t).power = t.power := rfl
@[simp] theorem State.settle_links (t : State) : (s.settle t).links = t.links := rfl
@[simp] theorem State.settle_fed (t : State) : (s.settle t).fed = t.fed := rfl
@[simp] theorem State.settle_pmuFrozen (t : State) : (s.settle t).pmuFrozen = t.pmuFrozen := rfl
@[simp] theorem State.settle_pmuPending (t : State) : (s.settle t).pmuPending = t.pmuPending := rfl
@[simp] theorem State.settle_out (t : State) : (s.settle t).out = t.out := rfl
@[simp] theorem State.settle_freeCtr (t : State) : (s.settle t).freeCtr = t.freeCtr := rfl

/-! raiseWith and raise -/

@[simp] theorem State.raiseWith_eventLog (g : Fld) (en d : Nat) : (s.raiseWith g en d).eventLog = s.eventLog := by
  unfold State.raiseWith; split
  · rfl
  · split <;> rfl
@[simp] theorem State.raise_eventLog (g : Fld) (en : Nat) : (s.raise g en).eventLog = s.eventLog := State.raiseWith_eventLog ..
@[simp] theorem State.raiseWith_eventSeq (g : Fld) (en d : Nat) : (s.raiseWith g en d).eventSeq = s.eventSeq := by
  unfold State.raiseWith; split
  · rfl
  · split <;> rfl
@[simp] theorem State.raise_eventSeq (g : Fld) (en : Nat) : (s.raise g en).eventSeq = s.eventSeq := State.raiseWith_eventSeq ..
@[simp] theorem State.raiseWith_poisoned (g : Fld) (en d : Nat) : (s.raiseWith g en d).poisoned = s.poisoned := by
  unfold State.raiseWith; split
  · rfl
  · split <;> rfl
@[simp] theorem State.raise_poisoned (g : Fld) (en : Nat) : (s.raise g en).poisoned = s.poisoned := State.raiseWith_poisoned ..
@[simp] theorem State.raiseWith_time (g : Fld) (en d : Nat) : (s.raiseWith g en d).time = s.time := by
  unfold State.raiseWith; split
  · rfl
  · split <;> rfl
@[simp] theorem State.raise_time (g : Fld) (en : Nat) : (s.raise g en).time = s.time := State.raiseWith_time ..
@[simp] theorem State.raiseWith_arb (g : Fld) (en d : Nat) : (s.raiseWith g en d).arb = s.arb := by
  unfold State.raiseWith; split
  · rfl
  · split <;> rfl
@[simp] theorem State.raise_arb (g : Fld) (en : Nat) : (s.raise g en).arb = s.arb := State.raiseWith_arb ..
@[simp] theorem State.raiseWith_core (g : Fld) (en d : Nat) : (s.raiseWith g en d).core = s.core := by
  unfold State.raiseWith; split
  · rfl
  · split <;> rfl
@[simp] theorem State.raise_core (g : Fld) (en : Nat) : (s.raise g en).core = s.core := State.raiseWith_core ..
@[simp] theorem State.raiseWith_mem (g : Fld) (en d : Nat) : (s.raiseWith g en d).mem = s.mem := by
  unfold State.raiseWith; split
  · rfl
  · split <;> rfl
@[simp] theorem State.raise_mem (g : Fld) (en : Nat) : (s.raise g en).mem = s.mem := State.raiseWith_mem ..
@[simp] theorem State.raiseWith_rings (g : Fld) (en d : Nat) : (s.raiseWith g en d).rings = s.rings := by
  unfold State.raiseWith; split
  · rfl
  · split <;> rfl
@[simp] theorem State.raise_rings (g : Fld) (en : Nat) : (s.raise g en).rings = s.rings := State.raiseWith_rings ..
@[simp] theorem State.raiseWith_pcie (g : Fld) (en d : Nat) : (s.raiseWith g en d).pcie = s.pcie := by
  unfold State.raiseWith; split
  · rfl
  · split <;> rfl
@[simp] theorem State.raise_pcie (g : Fld) (en : Nat) : (s.raise g en).pcie = s.pcie := State.raiseWith_pcie ..
@[simp] theorem State.raiseWith_inst (g : Fld) (en d : Nat) : (s.raiseWith g en d).inst = s.inst := by
  unfold State.raiseWith; split
  · rfl
  · split <;> rfl
@[simp] theorem State.raise_inst (g : Fld) (en : Nat) : (s.raise g en).inst = s.inst := State.raiseWith_inst ..
@[simp] theorem State.raiseWith_fe (g : Fld) (en d : Nat) : (s.raiseWith g en d).fe = s.fe := by
  unfold State.raiseWith; split
  · rfl
  · split <;> rfl
@[simp] theorem State.raise_fe (g : Fld) (en : Nat) : (s.raise g en).fe = s.fe := State.raiseWith_fe ..
@[simp] theorem State.raiseWith_eth (g : Fld) (en d : Nat) : (s.raiseWith g en d).eth = s.eth := by
  unfold State.raiseWith; split
  · rfl
  · split <;> rfl
@[simp] theorem State.raise_eth (g : Fld) (en : Nat) : (s.raise g en).eth = s.eth := State.raiseWith_eth ..
@[simp] theorem State.raiseWith_cat (g : Fld) (en d : Nat) : (s.raiseWith g en d).cat = s.cat := by
  unfold State.raiseWith; split
  · rfl
  · split <;> rfl
@[simp] theorem State.raise_cat (g : Fld) (en : Nat) : (s.raise g en).cat = s.cat := State.raiseWith_cat ..
@[simp] theorem State.raiseWith_addr (g : Fld) (en d : Nat) : (s.raiseWith g en d).addr = s.addr := by
  unfold State.raiseWith; split
  · rfl
  · split <;> rfl
@[simp] theorem State.raise_addr (g : Fld) (en : Nat) : (s.raise g en).addr = s.addr := State.raiseWith_addr ..
@[simp] theorem State.raiseWith_cipher (g : Fld) (en d : Nat) : (s.raiseWith g en d).cipher = s.cipher := by
  unfold State.raiseWith; split
  · rfl
  · split <;> rfl
@[simp] theorem State.raise_cipher (g : Fld) (en : Nat) : (s.raise g en).cipher = s.cipher := State.raiseWith_cipher ..
@[simp] theorem State.raiseWith_kra (g : Fld) (en d : Nat) : (s.raiseWith g en d).kra = s.kra := by
  unfold State.raiseWith; split
  · rfl
  · split <;> rfl
@[simp] theorem State.raise_kra (g : Fld) (en : Nat) : (s.raise g en).kra = s.kra := State.raiseWith_kra ..
@[simp] theorem State.raiseWith_flash (g : Fld) (en d : Nat) : (s.raiseWith g en d).flash = s.flash := by
  unfold State.raiseWith; split
  · rfl
  · split <;> rfl
@[simp] theorem State.raise_flash (g : Fld) (en : Nat) : (s.raise g en).flash = s.flash := State.raiseWith_flash ..
@[simp] theorem State.raiseWith_nv (g : Fld) (en d : Nat) : (s.raiseWith g en d).nv = s.nv := by
  unfold State.raiseWith; split
  · rfl
  · split <;> rfl
@[simp] theorem State.raise_nv (g : Fld) (en : Nat) : (s.raise g en).nv = s.nv := State.raiseWith_nv ..
@[simp] theorem State.raiseWith_mgmt (g : Fld) (en d : Nat) : (s.raiseWith g en d).mgmt = s.mgmt := by
  unfold State.raiseWith; split
  · rfl
  · split <;> rfl
@[simp] theorem State.raise_mgmt (g : Fld) (en : Nat) : (s.raise g en).mgmt = s.mgmt := State.raiseWith_mgmt ..
@[simp] theorem State.raiseWith_boot (g : Fld) (en d : Nat) : (s.raiseWith g en d).boot = s.boot := by
  unfold State.raiseWith; split
  · rfl
  · split <;> rfl
@[simp] theorem State.raise_boot (g : Fld) (en : Nat) : (s.raise g en).boot = s.boot := State.raiseWith_boot ..
@[simp] theorem State.raiseWith_power (g : Fld) (en d : Nat) : (s.raiseWith g en d).power = s.power := by
  unfold State.raiseWith; split
  · rfl
  · split <;> rfl
@[simp] theorem State.raise_power (g : Fld) (en : Nat) : (s.raise g en).power = s.power := State.raiseWith_power ..
@[simp] theorem State.raiseWith_links (g : Fld) (en d : Nat) : (s.raiseWith g en d).links = s.links := by
  unfold State.raiseWith; split
  · rfl
  · split <;> rfl
@[simp] theorem State.raise_links (g : Fld) (en : Nat) : (s.raise g en).links = s.links := State.raiseWith_links ..
@[simp] theorem State.raiseWith_fed (g : Fld) (en d : Nat) : (s.raiseWith g en d).fed = s.fed := by
  unfold State.raiseWith; split
  · rfl
  · split <;> rfl
@[simp] theorem State.raise_fed (g : Fld) (en : Nat) : (s.raise g en).fed = s.fed := State.raiseWith_fed ..
@[simp] theorem State.raiseWith_pmuFrozen (g : Fld) (en d : Nat) : (s.raiseWith g en d).pmuFrozen = s.pmuFrozen := by
  unfold State.raiseWith; split
  · rfl
  · split <;> rfl
@[simp] theorem State.raise_pmuFrozen (g : Fld) (en : Nat) : (s.raise g en).pmuFrozen = s.pmuFrozen := State.raiseWith_pmuFrozen ..
@[simp] theorem State.raiseWith_pmuPending (g : Fld) (en d : Nat) : (s.raiseWith g en d).pmuPending = s.pmuPending := by
  unfold State.raiseWith; split
  · rfl
  · split <;> rfl
@[simp] theorem State.raise_pmuPending (g : Fld) (en : Nat) : (s.raise g en).pmuPending = s.pmuPending := State.raiseWith_pmuPending ..
@[simp] theorem State.raiseWith_out (g : Fld) (en d : Nat) : (s.raiseWith g en d).out = s.out := by
  unfold State.raiseWith; split
  · rfl
  · split <;> rfl
@[simp] theorem State.raise_out (g : Fld) (en : Nat) : (s.raise g en).out = s.out := State.raiseWith_out ..
@[simp] theorem State.raiseWith_freeCtr (g : Fld) (en d : Nat) : (s.raiseWith g en d).freeCtr = s.freeCtr := by
  unfold State.raiseWith; split
  · rfl
  · split <;> rfl
@[simp] theorem State.raise_freeCtr (g : Fld) (en : Nat) : (s.raise g en).freeCtr = s.freeCtr := State.raiseWith_freeCtr ..
@[simp] theorem State.raiseWith_pending (g : Fld) (en d : Nat) : (s.raiseWith g en d).pending = s.pending := by
  unfold State.raiseWith; split
  · rfl
  · split <;> rfl
@[simp] theorem State.raise_pending (g : Fld) (en : Nat) : (s.raise g en).pending = s.pending := State.raiseWith_pending ..

/-- A raise leaves every other register. -/
theorem State.rd_raiseWith_ne (f : Fld) (en d : Nat) {a : Nat} (h : a ≠ f.addr) : (s.raiseWith f en d).rd a = s.rd a := by
  unfold State.raiseWith
  split
  · rfl
  · split
    · exact State.rd_setFld_ne s f 1 h
    · exact State.rd_setFld_ne s f 1 h

theorem State.rd_raise_ne (f : Fld) (en : Nat) {a : Nat} (h : a ≠ f.addr) : (s.raise f en).rd a = s.rd a := State.rd_raiseWith_ne s f en 0 h

theorem State.fld_raise_ne (f g : Fld) (en : Nat) (h : g.addr ≠ f.addr) : (s.raise f en).fld g = s.fld g := by
  simp only [State.fld, State.rd_raise_ne s f en h]

theorem State.fld_raise_same (f : Fld) (en : Nat) (h1 : f.lo + f.width ≤ 64) (h2 : f.width = 1) : (s.raise f en).fld f = 1 :=
  State.raiseWith_on s f en 0 h1 h2

end Sys2Proof.Machine
end

