-- ==== Sys2Proof/Tests/States.lean ====
section
/-!
SUPPORT. The states that the witness theorems name: small states, each a change of the state after boot.
-/

namespace Sys2Proof.Tests
open Sys2Proof.Machine

/-- The state that a command leaves. -/
def nx (o : Host.Outcome State Fault Refusal) : State := match o with
  | .next t => t
  | _ => State.reset
/-- Up, with Keeper firmware running. -/
def wUp : State := { State.reset with boot.romPending := false }
/-- In Recovery. -/
def wRec : State := { wUp with boot.recovery := true }
/-- Port 0 of slice 0 has its link. -/
def wEth : State := wUp.setFld ⟨R.ETH_LINK_STATUS 0, 0, 1⟩ 1
/-- A frame of slice 0 that waits in the parse queue. -/
def wFrame : Frame := { emptyFrame with id := 1, origin := .eth 0 0, data := List.replicate 64 0, arrived := 64, whole := true }
/-- A parse context of frame 1. -/
def wCtx : ParseCtx := { frame := 1, bank := 0, window := (List.range 64).map (BitVec.ofNat 8), inWindow := 64, len := 64 }
/-- Context 0 of engine 0 of slice 0 at the word w. -/
def wParse (w : Nat) (c : ParseCtx) : State := { wUp with eth.prog := [(c.pc, w)], eth.ctxs := [(0, c)], eth.frames := [(1, { wFrame with stage := .parsing })] }
/-- Threads 0 and 1 of cluster 0 of slice 0 run; region 0 lets everyone do everything. -/
def wTh0 : State := (((wUp.setThState 0 0 1 1).setThState 0 0 0 1).wr (R.REGION_LIMIT 0 0 0) 0xFFFFFFFFFFFFF000).wr (R.REGION_CFG 0 0 0) 0x177
/-- Thread 0 issued last, so that the slot is thread 1's. -/
def wTh : State := { wTh0 with core.issued := [(0, (0, 0))] }
/-- The field set. -/
def w1 (s : State) (f : Fld) (v : Nat := 1) : State := s.setFld f v
/-- Thread 1 holds channel 2 open with the message l. -/
def wHold (l : List Nat) : State := ({ w1 (w1 (w1 (w1 wTh (F.THREAD_STATE_HOLDS_OPEN 0 0 1)) (F.THREAD_STATE_CHANNEL 0 0 1) 2) (F.CH_STATE_STATE 0 0 2)) (F.CH_STATE_WRITER 0 0 2) with core := { wTh.core with chData := [(2, l)] } }).wr (R.THREAD_GPR 0 0 1 5) 2
/-- Several fields set. -/
def wF (s : State) (l : List (Fld × Nat)) : State := l.foldl (fun t e => t.setFld e.1 e.2) s
/-- Instance i is an enabled instance of type t whose first 2 MiB are the 2 MiB of HBM from 1 GiB. -/
def wInst (s : State) (i t : Nat) : State :=
  (List.range 4).foldl (fun u k => u.setIotlb k ({ inst := i, large := true, page := 0, read := true, write := true, target := 2, out := 2 ^ 30 } :: u.iotlb k))
    (wF s [(F.INST_CFG_TYPE i, t), (F.INST_CFG_STATE i, 1), (F.INST_CFG_ENABLE i, 1)])
/-- PF0 is enabled; ring 0 and completion ring 0 of slice 0, both of 64 slots, are its rings 0 and ACTIVE. -/
def wRing : State := wF (wInst wUp 0 1) [(F.CR_CFG_LOG_SIZE 0 0, 6), (F.CR_CFG_HOLD_LIMIT 0 0, 8), (F.CR_STATE_STATE 0 0, 1), (F.CR_CTRL_ENABLE 0 0, 1),
  (F.CR_BASE 0 0, 8), (F.SR_CFG_LOG_SIZE 0 0, 6), (F.SR_STATE_STATE 0 0, 1), (F.SR_CTRL_ENABLE 0 0, 1), (F.SR_BASE 0 0, 4)]
/-- A job of ring 0 of slice 0: opcode, length, address, and doublewords 2 to 7 of its one descriptor. -/
def wJob (op len addr : Nat) (d : List Nat := []) : RJob :=
  { id := 1, slice := 0, ring := 0, descs := [{ index := 0, dws := [op + 0x700 + 0x50000 + 2 ^ 32 * len, addr] ++ d }] }
/-- The job is the oldest started job of its ring. -/
def wStart (s : State) (j : RJob) : State :=
  (s.setSrx j.slice j.ring { s.srx j.slice j.ring with started := [j], fetch := 1 }).setCrx j.slice 0 { s.crx j.slice 0 with o := 1 }
/-- The consumer's timer of slice k has fired. -/
def wFire (s : State) (k : Nat) (c : TwConsumer) : State := s.setWheel k { s.wheel k with fired := [c] }
/-- A frame of 64 bytes that stands on the egress of port 0 of slice 0. -/
def wEg : Egress := { id := 1, frame := 7, slice := 0, port := 0, data := List.replicate 64 5 }
/-- Port 0 of slice 0 has its link, and its priority 0 is paused. -/
def wPaused : State := { wEth with arb.paused := [((0, 0, 0), 100)] }
/-- The only egress entry of the frame of a started TX_FRAME job. -/
def wEgF (s : State) : State :=
  { wStart (wF (wInst s 0 1) [(F.CR_CFG_LOG_SIZE 0 0, 6), (F.CR_STATE_STATE 0 0, 1), (F.SR_CFG_LOG_SIZE 0 0, 6), (F.SR_STATE_STATE 0 0, 1)]) { wJob 1 64 0 with taken := true } with
    eth.egress := [{ wEg with job := some 1 }],
    eth.frames := [(7, { emptyFrame with id := 7, origin := .tx 0 0 1, data := List.replicate 64 5, whole := true })] }
/-- A received frame of 64 bytes with handle 5, whose Catalogue lookup is next; the entry is e. -/
def wCat (e : Nat) : State := { wUp with
  cat.entries := if e = 0 then [] else [(5, e)]
  eth.frames := [(1, { wFrame with stage := .handled, handle := some 5 })] }
/-- A write-back of handle 5 waits. -/
def wWb (e : Nat) (w : CatWb) : State := { wCat e with cat.writebacks := [w], eth.frames := [] }
/-- Frame 1 of slice 0 is held under token 3. -/
def wTok : State := { wCat 0 with cat.tokens := [(3, 1)], eth.frames := [(1, { wFrame with stage := .token })] }
/-- The stage of address command slot 0 of slice 0 holds this entry. -/
def wStage (s : State) (e : AddrEntry) : State := s.addrToStage 0 0 e
/-- A dynamic local entry, seen at 0. -/
def wAe : AddrEntry := { mac := 0x050403020100, bd := 7, handle := 5, port := 0, isStatic := false, remote := false, origin := 0, originSlice := 0, stamp := 9, lastSeen := 0, announced := 0 }
/-- The entry stands in its first slot of slice 0, and the stage names its key. -/
def wAddr (e : AddrEntry) : State := wStage { wUp with addr.slots := ((candidates e.bd e.mac).take 1).map fun n => (n, e) } e
/-- A frame from port 0 of slice 0 to the entry's address, which waits for its destination lookup. -/
def wDest (s : State) : State := { s with eth.frames := [(1, { wFrame with stage := .addrLookup, bridge := 7, ruleHandle := 9, data := [0, 1, 2, 3, 4, 5] ++ List.replicate 58 0 })] }
/-- Slots 1 (traffic, exportable) and 2 (wrap) hold keys, and the generators run. -/
def wKeys : State := { wF wUp [(pairFld 0 0, 0), (F.RNG_STATUS_STATE, 1), (F.ROOT_SLOT_STATE 1, 1), (F.ROOT_SLOT_USAGE 1, 7), (F.ROOT_SLOT_EXPORTABLE 1, 1), (F.ROOT_SLOT_STATE 2, 1),
    (F.ROOT_SLOT_USAGE 2, 8)] with
  cipher.keys := [(1, { key := List.replicate 32 0x11 }), (2, { key := List.replicate 32 0x22 })] }
/-- A command of a route that holds the intake slot and has not begun. -/
def wHolder (op : Nat) (payload : List Byte) (route : Nat := 0) : Holder := { cmd := { route := route, opcode := op, payload := payload } }
def wMg (s : State) (h : Holder) : State := { s with mgmt.holder := some h }
/-- Payload of a ROOT_KEY opcode. -/
def wKeyPay (slot usage exportable wrap : Nat) (blob : List Byte) : List Byte := leBytes 4 slot ++ leBytes 4 usage ++ leBytes 4 exportable ++ leBytes 4 wrap ++ blob
/-- A blob of a key wrapped under slot 2. -/
def wBlob (key : List Byte) : List Byte :=
  let nonce := List.replicate 16 3
  let k := wKeys.wrapKey 2 nonce
  let head := leBytes 1 1 ++ leBytes 1 1 ++ leBytes 1 1 ++ leBytes 13 0
  let g := gcmEnc (k.take 32) (slice k 32 12) head key
  head ++ nonce ++ g.1 ++ g.2
/-- A derivation for slot n waits. -/
def wDer (n : Nat) : State := { wKeys with cipher.keyReqs := [{ slice := 0, op := 3, slot := n, gen := wKeys.fld (F.ROOT_SLOT_GEN n), label := contextLabel 5 0 5 0 }] }
/-- A started cipher job of ring 0 with 48 bytes, AAD 16, mode m, and its key there. -/
def wCipherJob (op mode : Nat) : RJob := wJob op 48 0 [mode + 2048 + 1 * 256 + 16 * 65536, 0x1000, 7, 0, 1, 0]
def wCj (op mode : Nat) : State :=
  let s := wStart { wRing with cipher.keys := wKeys.cipher.keys } (wCipherJob op mode)
  { s with cipher.keyReqs := [{ slice := 0, op := 3, slot := 1, gen := 0, label := s.jobLabel (wCipherJob op mode), result := some (0, List.replicate 64 4) }] }
/-- wRing with the keys of wKeys. -/
def wRingK : State := { wF wRing [(pairFld 0 0, 0), (F.RNG_STATUS_STATE, 1), (F.ROOT_SLOT_STATE 1, 1), (F.ROOT_SLOT_USAGE 1, 7)] with cipher.keys := wKeys.cipher.keys }
/-- Frame 1 of slice 0 at an inline transform, its key there: XFORM x, STEER st; the frame has these bytes and this vector. -/
def wXfF (x st : Nat) (d : List Byte) (v : HVec) : Frame := { wFrame with stage := .transform, data := d, vec := v, looked := some ⟨5, 1 + 2 * st + 65536 * x + 1048576⟩ }
def wXf (x st : Nat) (d : List Byte := List.replicate 100 0) (v : HVec := {}) : State := { wUp with
  eth.frames := [(1, wXfF x st d v)]
  cipher.keyReqs := [{ slice := 0, op := 2, slot := 1, gen := 0, label := inlineLabel ⟨5, 1 + 2 * st + 65536 * x + 1048576⟩, result := some (0, List.replicate 64 4) }] }
/-- An ESP layer at offset 34; TCP at 34 with its payload at 54. -/
def wEsp : HVec := { layerOff := [0, 255, 14, 34, 255, 255, 255, 255], layerProto := [1, 0, 2, 8, 0, 0, 0, 0] }
def wTcp : HVec := { layerOff := [0, 14, 34, 255, 255, 255, 255, 54], layerProto := [1, 2, 5, 0, 0, 0, 0, 0] }
/-- An IPv4 datagram of 66 bytes that holds a TLS record of 26. -/
def wTlsD : List Byte := List.replicate 14 0 ++ [0x45, 0, 0, 66] ++ List.replicate 36 0 ++ [23, 3, 3, 0, 21] ++ List.replicate 30 1
/-- A pair runs a job of ring 0. -/
def wPair (j : RJob) (d : List Byte) : State := { wStart wRingK { j with taken := true } with
  cipher.jobs := [{ id := 1, slice := 0, src := .ring 0 1, slot := 1, label := [], key := List.replicate 64 4, data := d, pair := some 0 }] }
/-- A queue pair context: its state, slot 1, rings 0, an acknowledgement every two, three retries. -/
def wQc (st : Nat) : Nat := st + 2 ^ 12 + 2 ^ 15 + 9 * 2 ^ 106 + 3 * 2 ^ 128 + 3 * 2 ^ 132 + 5 * 2 ^ 136 + 5 * 2 ^ 152 + 8 * 2 ^ 168 + 2 * 2 ^ 184
/-- The key of queue pair 9 for an operation of slice 0. -/
def wQk (op : Nat) : KeyReq := { slice := 0, op := op, slot := 1, gen := 0, label := kraLabel (wQc 2), result := some (0, List.replicate 64 4) }
/-- Queue pair 9 is live in slice 0 with the context c and the working state x. -/
def wQ (s : State) (c : Nat) (x : QpX := {}) : State := { s with
  kra.cache := [[(9, c)], [], [], []]
  kra.qps := [(9, { x with live := true })]
  cipher.keyReqs := [wQk 2, wQk (kraOp 9)] }
/-- The packet, sealed by the peer of queue pair 9, stands at the receive stage as frame 1. -/
def wRxF (p : KraPkt) : Frame := { emptyFrame with id := 1, stage := .kra, data := kraSeal (List.replicate 64 4) (setBits (wQc 2) 3 3 1) 4 0 p, whole := true, looked := some ⟨5, 9 * 2 ^ 48⟩ }
def wRx (s : State) (c : Nat) (x : QpX) (p : KraPkt) : State := { wQ s c x with
  eth.frames := [(1, wRxF p)]
  kra.order := [1] }
/-- wRing whose ring 0 has this job started, and the keys of wRingK. -/
def wRj (j : RJob) : State := wStart wRingK j
/-- A checked access of frame 1 under key 0x1003. -/
def wAcc (op stage : Nat) : KraAccess := { frame := 1, slice := 0, qp := 9, inst := 0, op := op, seq := 0, key := 0x1003, addr := 0x100, len := 8, data := List.replicate 8 7, flags := 0, fed := 0, stage := stage }
/-- Registration 0x1003 of 4,096 bytes at 0, for reads and writes, with this word. -/
def wReg (w : RegWord) (l : List KraAccess) : State := { (wQ wRingK (wQc 2)).hbmWrite (regAddr 0 1) (leBytes 64 (2 ^ 64 * 4095 + 3 * 2 ^ 117 + 3 * 2 ^ 140)) with
  kra.regs := [(1, w)]
  kra.accesses := l
  eth.frames := [(1, wRxF { op := 1, seq := 0 })] }
/-- Port 0 stands in a state, with this link record. -/
def wKl (s : State) (st : Nat) (l : KLink := {}) : State := { w1 s (F.KL_STATE_STATE 0) st with links := s.links.set 0 l }
/-- A block held for replay. -/
def wBlk : LinkBlk := ⟨4, 1, [List.replicate 64 7]⟩
def wPk (typ : Nat) : KPkt := { typ := typ, vc := 0, cls := 0, dest := 9, src := 3, payload := List.replicate 48 1 }
/-- A wellformed received block under number n without flits. -/
def wRecv (n : Nat) : List Byte :=
  let h := leBytes 28 (n + 2 ^ 128 * 7)
  h ++ leBytes 4 (crc32c (List.replicate 512 0 ++ h)) ++ List.replicate 512 0
/-- A peer with ID 1 whose proof under slot 1 of wKeys holds. -/
def wCaps : PeerCaps :=
  let key := rennet (List.replicate 32 0x11) (contextLabel 0 0 2 0) 4
  { version := 1, fed := 1, valid := true, own := 0, epoch := 0, master := 0, member := false, nonce := List.replicate 16 6,
    proof := linkProof key (List.replicate 16 6) (List.replicate 16 8) 1 1, buffers := [9, 9, 9, 9] }
/-- This device, ID 3, is a member under the master 2, which port 0 reaches. -/
def wMem : State := wF (wKl wUp 5) [(F.FED_ID_VALID, 1), (F.FED_ID_ID, 3), (F.FED_STATE_STATE, 2), (F.FED_MASTER_ID, 2), (F.FED_MEMBERS, 12), (F.KL_ROUTE 2, 0), (F.KL_ROUTE 3, 6)]
/-- This device, ID 3, is the master of 2 and 3. -/
def wMas : State := wF wMem [(F.FED_MASTER_ID, 3), (F.FED_MASTER_SELF, 1)]
def wMove : MoveMsg := { gen := 1, members := 12, links := [], eligible := 12, epoch := 7, tSwitch := 80000000, master := 2 }
/-- The binding of anchor instance 2 with home instance 1; the other device is 3. -/
def wBind (anchor : Bool) : FeBinding := { anchorInst := 2, homeInst := 1, peer := 3, gen := 0, anchor := anchor }
/-- A packet under it. -/
def wFe (typ : Nat) (body : List Byte) : KPkt := { typ := typ, vc := 0, cls := 0, dest := 0, src := 3, payload := leBytes 2 2 ++ leBytes 2 1 ++ leBytes 4 0 ++ body }
def wFeS (anchor : Bool) (x : KPkt) : State := { wInst (wInst wUp 2 1) 1 1 with fe.bindings := [wBind anchor], fe.inbox := [x] }
/-- A submission entry: opcode, NSID, and Dwords 10 to 15; PRP1 at 4 KiB, PRP2 a page list at 8 KiB of zeros. -/
def wSqe (opc nsid : Nat) (d : List Nat) : List Byte :=
  (([opc, nsid, 0, 0, 0x3000, 0, 0x1000, 0, 0x2000, 0] ++ d ++ List.replicate 6 0).take 16).flatMap (leBytes 4)
def wNc (sq opc nsid : Nat) (d : List Nat) : NvCmd := { id := 1, inst := 1, sq := sq, cid := 0, slice := 0, sqe := wSqe opc nsid d, begun := 0 }
/-- Instance 1 is an enabled controller with the admin queues and the I/O queues 1 of 64 entries. -/
def wNv : State := let s := w1 (wInst wKeys 1 4) (F.NVME_CTRL_CFG_ENABLE 1); { s.setFnX 1 { s.fnX 1 with bme := true } with
  nv.ctrls := [(1, { cc := 0x61, csts := 1 })]
  nv.sqs := [{ inst := 1, qid := 0, slice := 0, cq := 0, size := 64, base := 0x10000 }, { inst := 1, qid := 1, slice := 0, cq := 1, size := 64, base := 0x11000 }]
  nv.cqs := [{ inst := 1, qid := 0, slice := 0, size := 64, base := 0x20000, ien := true }, { inst := 1, qid := 1, slice := 0, size := 64, base := 0x21000 }] }
/-- One fetched command. -/
def wNw (s : State) (c : NvCmd) : State := { s with nv.cmds := [c], nv.nextCmd := 2 }
/-- wNv with namespace 1: 4,096-byte blocks, data slot 1, attached to controller 1. -/
def wNs (n : NsState) : State := { wNv with nv.ns := [(1, n)] }
def wN1 : NsState := { nsze := 1024, ncap := 1024, dataSlot := 1, material := List.replicate 16 3, attached := [1] }
/-- A zoned namespace of two zones, the first as given. -/
def wZn (z : Zone) (acc : Bool := false) : NsState := { csi := 2, nsze := 2 * zoneSize, ncap := 2 * zoneCap, dataSlot := 1, material := List.replicate 16 3, acc := acc, sealSlot := 1, sealMaterial := List.replicate 16 5, attached := [1], zones := [(0, z)] }
/-- The data key of command 1 in namespace n is there. -/
def wNk (s : State) (n : NsState) : State := { s with cipher.keyReqs := [{ slice := 0, op := 2 ^ 40 + 1, slot := 1, gen := 0, label := n.dataLabel 1, result := some (0, List.replicate 64 4) }] }
/-- A record of one block for zone 0 of namespace 1. -/
def wApp (admitted : Bool) : ZApp := { piece := 5, nsid := 1, zone := 0, count := 1, data := List.replicate 4096 9, cmd := none, slice := 0, placedAt := 0, ftState := 0, key := List.replicate 64 4, admitted := admitted }
/-- Its seal key is there. -/
def wSealK (s : State) : State := { s with cipher.keyReqs := [{ slice := 0, op := 2 ^ 41 + 5, slot := 1, gen := 0, label := (wZn {} true).sealLabel 1, result := some (0, List.replicate 64 4) }] }
/-- A band of four blocks of slice 0, of dies 0 to 3. -/
def wBand : Band := { id := 1, slice := 0, members := [(0, 5), (1, 5), (2, 5), (3, 5)] }
def wCw : Codeword := { data := List.replicate 4096 7, tag := 7, nsid := 1, seq := 0, typ := 0, first := true, last := true, len := 1 }
def wUnit : WUnit := { piece := 3, nsid := 1, unit := 7, seq := 0, first := true, last := true, len := 1, data := List.replicate 4096 7 }
/-- Slice 0 holds data on dies 0 to 3 with one open band; the bank is READY. -/
def wFl : State := let s := wF (wNs wN1) [(F.AFF_STATE 0, 2), (F.HOLDUP_STATE, 1), (F.HOLDUP_BUDGET, 1000000), (F.FL_DIE_STATE_STATE 0 0, 1), (F.FL_DIE_STATE_STATE 0 1, 1),
    (F.FL_DIE_STATE_STATE 0 2, 1), (F.FL_DIE_STATE_STATE 0 3, 1), (F.AFF_BANDS_FREE 0, 40), (F.AFF_SPARE 0, 9), (F.FL_CH_STATE_STATE 0 0, 2)]
  { (wBand.members.foldl (fun t m => t.setBlk 0 m.1 m.2 { band := some 1 }) s) with flash.bands := [wBand], flash.nextBand := 2 }
/-- A read of location l of slice 0 waits. -/
def wRd (l : Nat) : State := { wFl with flash.reads := [{ slice := 0, loc := l, nsid := 1, unit := 7, use := .host }], flash.cells := [(l, wCw)] }
/-- Instance 8, a VF of PF0, behind link 0 which is trained. -/
def wFn : State := wF (wInst wUp 8 1) [(F.PCIE_LINK_STATE_STATE 0, 3), (F.PCIE_LINK_STATE_WIDTH 0, 8), (F.PIN_STATUS_DEV_READY, 1)]
def wHr : HostRead := { link := 0, tag := 5, fn := 8, slice := 0, addr := 0x1000, len := 8, due := 100 }
def wIo : Iotlb := { inst := 8, large := false, page := 3, read := true, write := true, target := 1, out := 0x7000 }
/-- A management command packet: opcode, flags, target, payload. -/
def wMgPkt (op flags target : Nat) (pay : List Byte := []) : List Byte :=
  let h := leBytes 2 op ++ leBytes 2 9 ++ leBytes 4 pay.length ++ leBytes 2 flags ++ leBytes 2 target ++ leBytes 4 0 ++ leBytes 4 0 ++ leBytes 8 0
  h ++ leBytes 4 (crc32c h) ++ pay
/-- A started MGMT_CMD job of ring 0 of slice 0 whose packet p is at address 0. -/
def wMgJob (p : List Byte) (room : Nat := 4096) : State := (wStart wRing (wJob 0x30 p.length 0 [0x1000, room])).hbmWrite (2 ^ 30) p
/-- Commands wait for the slot. -/
def wMgQ (s : State) (q : List MgmtCmd) : State := { s with mgmt.queue := q }
/-- A Keeper opcode holds the slot, with a payload of numbers and bytes. -/
def wOp (s : State) (op : Nat) (nums : List Nat := []) (more : List Byte := []) (route : Nat := 0) : State := wMg s (wHolder op (nums.flatMap (leBytes 4) ++ more) route)
/-- The booted package of slot n is confirmed (0) or in TRIAL (1), with the other slot before it. -/
def wRul (state n : Nat) : State :=
  { wF wUp [(F.BOOT_STATUS_BOOTED_SLOT, n), (F.BOOT_STATUS_IMAGE_STATE, state)] with boot.flagA := some { seq := 5, active := n, previous := 3 - n, state := state, boots := 0, activeDigest := noDigest, previousDigest := noDigest } }
def wSes (s : State) (n len next : Nat) : State := { s with boot.session := some { slot := n, len := len, next := next } }
/-- The NS_CREATE payload of a namespace of `blocks` blocks of 4,096 bytes under data slot 1, with the command set csi. -/
def wNsPay (csi blocks : Nat) : List Byte := leBytes 4 csi ++ leBytes 8 blocks ++ leBytes 8 blocks ++ List.replicate 3057 0 ++ [1] ++ List.replicate 1022 0
/-- Data storage with root slot 1 for it. -/
def wNsRoom : State := { wF wFl [(F.FL_DIE_STATE_GEOMETRY 0 0, 1), (F.FL_DIE_STATE_STATE 0 2, 0), (F.FL_DIE_STATE_STATE 0 3, 0)] with
    cipher.keyReqs := [{ slice := 0, op := 2 ^ 50, slot := 1, gen := 0, label := contextLabel 9 0 3 5, result := some (0, List.replicate 64 4) }] }
/-- Slice 0's idle controller. -/
def wIdle (s : State) (x : SliceIdle) : State := { s with power.slices := [x, {}, {}, {}] }
/-- 100 ms after reset. -/
def wLater : State := { wUp with time.mono := 160000000 }
/-- The core clock at f MHz, the power cap 300 W, and the last power control tick long ago. -/
def wPow (f : Nat) : State := wF wLater [(F.CORE_FREQ, f), (F.PWR_CAP, 300), (F.BOOST_CTRL_BOOST_EN, 0)]
/-- Link 0, with ASPM L1 and LTR enabled in PF0. -/
def wLink : State := let s := wF (wInst wLater 0 1) [(F.PCIE_LINK_STATE_STATE 0, 3)]; s.setFnX 0 { s.fnX 0 with aspm := 2, ltrEnable := true }



/-- The word at address a of instance 0's memory is poisoned. -/
def wPoi (s : State) (a : Nat) : State := { s with poisoned := [(0, 2 ^ 30 + a)] }
/-- Instance i's first 2 MiB are host memory. -/
def wHostM (s : State) (i : Nat) : State :=
  (List.range 4).foldl (fun u k => u.setIotlb k [{ inst := i, large := true, page := 0, read := true, write := true, target := 1, out := 2 ^ 30 }]) s
/-- The frame with these changes stands in wCat e. -/
def wCatF (e : Nat) (f : Frame) : State := { wCat e with eth.frames := [(1, f)] }
def wHf : Frame := { wFrame with stage := .handled, handle := some 5 }
/-- All slots of a key are taken by other keys. -/
def wFull : State := { wUp with addr.slots := (candidates 7 0x050403020100).foldl (fun m n => Map.put (fun _ => wAe) m n { wAe with mac := 3 }) [] }
def wLq (s : State) : State := { s with addr.learnQ := [[⟨9, 7, 0x050403020100, 0⟩], [], [], []] }
def wPv (s : State) (typ stamp : Nat) : State := { s with addr.provIn := [[{ typ := typ, origin := 2, originSlice := 1, bd := 7, mac := 0x050403020100, handle := 5, port := 2, stamp := stamp }], [], [], []] }

/-- Instance i's first 2 MiB are host memory whose addresses ATS translates: a write waits for its translation. -/
def wAts (s : State) (i : Nat) : State := let t := wHostM s i; t.setFnX i { t.fnX i with atsEnable := true }
/-- A request packet: opcode, sequence number, flags, extension bytes and payload bytes. -/
def wRq (op seq flags ext len : Nat) : KraPkt := { op := op, seq := seq, flags := flags, ext := List.replicate ext 0, payload := List.replicate len 7 }

/-! Finding the parts of an answer: a witness is checked by evaluating each answer once. -/

theorem chk {p : Prop} (d : Decidable p) (h : d.decide = true) : p := of_decide_eq_true h
def dA {p q : Prop} (_ : Decidable p) (_ : Decidable q) : Decidable (p ∧ q) := inferInstance
def dVar {α : Type} {e : α} {P : α → Prop} (d : ∀ x, Decidable (P x)) : Decidable (∃ x, e = x ∧ P x) :=
  match d e with
  | isTrue h => isTrue ⟨e, rfl, h⟩
  | isFalse h => isFalse (fun ⟨_, k, p⟩ => h (k ▸ p))
def dSome {α : Type} {e : Option α} {P : α → Prop} (d : ∀ x, Decidable (P x)) : Decidable (∃ x, e = some x ∧ P x) :=
  match e with
  | some x => (match d x with
    | isTrue h => isTrue ⟨x, rfl, h⟩
    | isFalse h => isFalse (fun ⟨_, k, p⟩ => h (by cases k; exact p)))
  | none => isFalse (fun ⟨_, k, _⟩ => by cases k)
def dSome2 {α β : Type} {e : Option (α × β)} {P : α → β → Prop} (d : ∀ x y, Decidable (P x y)) : Decidable (∃ x y, e = some (x, y) ∧ P x y) :=
  match e with
  | some (x, y) => (match d x y with
    | isTrue h => isTrue ⟨x, y, rfl, h⟩
    | isFalse h => isFalse (fun ⟨_, _, k, p⟩ => h (by cases k; exact p)))
  | none => isFalse (fun ⟨_, _, k, _⟩ => by cases k)
def dSome3 {α β γ : Type} {e : Option (α × β × γ)} {P : α → β → γ → Prop} (d : ∀ x y z, Decidable (P x y z)) : Decidable (∃ x y z, e = some (x, y, z) ∧ P x y z) :=
  match e with
  | some (x, y, z) => (match d x y z with
    | isTrue h => isTrue ⟨x, y, z, rfl, h⟩
    | isFalse h => isFalse (fun ⟨_, _, _, k, p⟩ => h (by cases k; exact p)))
  | none => isFalse (fun ⟨_, _, _, k, _⟩ => by cases k)
def dOkD {α : Type} {e : α × DmaRes} {P : α → List Byte → Prop} (d : ∀ x y, Decidable (P x y)) : Decidable (∃ x y, e = (x, .ok y) ∧ P x y) :=
  match e with
  | (x, .ok y) => (match d x y with
    | isTrue h => isTrue ⟨x, y, rfl, h⟩
    | isFalse h => isFalse (fun ⟨_, _, k, p⟩ => h (by cases k; exact p)))
  | (_, .fail _) => isFalse (fun ⟨_, _, k, _⟩ => by cases k)
  | (_, .wait) => isFalse (fun ⟨_, _, k, _⟩ => by cases k)
def dCons {α : Type} {e : List α} {P : α → List α → Prop} (d : ∀ x y, Decidable (P x y)) : Decidable (∃ x y, e = x :: y ∧ P x y) :=
  match e with
  | x :: y => (match d x y with
    | isTrue h => isTrue ⟨x, y, rfl, h⟩
    | isFalse h => isFalse (fun ⟨_, _, k, p⟩ => h (by cases k; exact p)))
  | [] => isFalse (fun ⟨_, _, k, _⟩ => by cases k)
def dPS {α β : Type} {e : α × Option β} {P : α → β → Prop} (d : ∀ x y, Decidable (P x y)) : Decidable (∃ x y, e = (x, some y) ∧ P x y) :=
  match e with
  | (x, some y) => (match d x y with
    | isTrue h => isTrue ⟨x, y, rfl, h⟩
    | isFalse h => isFalse (fun ⟨_, _, k, p⟩ => h (by cases k; exact p)))
  | (_, none) => isFalse (fun ⟨_, _, k, _⟩ => by cases k)
def dPR {α : Type} {e : α × KeyRes} {P : α → List Byte → Prop} (d : ∀ x y, Decidable (P x y)) : Decidable (∃ x y, e = (x, .ready y) ∧ P x y) :=
  match e with
  | (x, .ready y) => (match d x y with
    | isTrue h => isTrue ⟨x, y, rfl, h⟩
    | isFalse h => isFalse (fun ⟨_, _, k, p⟩ => h (by cases k; exact p)))
  | (_, .fail _) => isFalse (fun ⟨_, _, k, _⟩ => by cases k)
  | (_, .wait) => isFalse (fun ⟨_, _, k, _⟩ => by cases k)
def dPair {α β : Type} {e : α × β} {P : α → β → Prop} (d : ∀ x y, Decidable (P x y)) : Decidable (∃ x y, e = (x, y) ∧ P x y) :=
  match e with
  | (x, y) => (match d x y with
    | isTrue h => isTrue ⟨x, y, rfl, h⟩
    | isFalse h => isFalse (fun ⟨_, _, k, p⟩ => h (by cases k; exact p)))
def dEok {ε α : Type} {e : Except ε α} {P : α → Prop} (d : ∀ x, Decidable (P x)) : Decidable (∃ x, e = .ok x ∧ P x) :=
  match e with
  | .ok x => (match d x with
    | isTrue h => isTrue ⟨x, rfl, h⟩
    | isFalse h => isFalse (fun ⟨_, k, p⟩ => h (by cases k; exact p)))
  | .error _ => isFalse (fun ⟨_, k, _⟩ => by cases k)
def dEer {ε α : Type} {e : Except ε α} {P : ε → Prop} (d : ∀ x, Decidable (P x)) : Decidable (∃ x, e = .error x ∧ P x) :=
  match e with
  | .error x => (match d x with
    | isTrue h => isTrue ⟨x, rfl, h⟩
    | isFalse h => isFalse (fun ⟨_, k, p⟩ => h (by cases k; exact p)))
  | .ok _ => isFalse (fun ⟨_, k, _⟩ => by cases k)
def dPSok {α ε β : Type} {e : α × Option (Except ε β)} {P : α → β → Prop} (d : ∀ x y, Decidable (P x y)) : Decidable (∃ x y, e = (x, some (.ok y)) ∧ P x y) :=
  match e with
  | (x, some (.ok y)) => (match d x y with
    | isTrue h => isTrue ⟨x, y, rfl, h⟩
    | isFalse h => isFalse (fun ⟨_, _, k, p⟩ => h (by cases k; exact p)))
  | (_, none) => isFalse (fun ⟨_, _, k, _⟩ => by cases k)
  | (_, some (.error _)) => isFalse (fun ⟨_, _, k, _⟩ => by cases k)
def dPSer {α ε β : Type} {e : α × Option (Except ε β)} {P : α → ε → Prop} (d : ∀ x y, Decidable (P x y)) : Decidable (∃ x y, e = (x, some (.error y)) ∧ P x y) :=
  match e with
  | (x, some (.error y)) => (match d x y with
    | isTrue h => isTrue ⟨x, y, rfl, h⟩
    | isFalse h => isFalse (fun ⟨_, _, k, p⟩ => h (by cases k; exact p)))
  | (_, none) => isFalse (fun ⟨_, _, k, _⟩ => by cases k)
  | (_, some (.ok _)) => isFalse (fun ⟨_, _, k, _⟩ => by cases k)
def dFailD {α : Type} {e : α × DmaRes} {P : α → Nat → Prop} (d : ∀ x y, Decidable (P x y)) : Decidable (∃ x y, e = (x, .fail y) ∧ P x y) :=
  match e with
  | (x, .fail y) => (match d x y with
    | isTrue h => isTrue ⟨x, y, rfl, h⟩
    | isFalse h => isFalse (fun ⟨_, _, k, p⟩ => h (by cases k; exact p)))
  | (_, .ok _) => isFalse (fun ⟨_, _, k, _⟩ => by cases k)
  | (_, .wait) => isFalse (fun ⟨_, _, k, _⟩ => by cases k)
def dPD {α : Type} {e : α × NvRes} {P : α → NvDone → Prop} (d : ∀ x y, Decidable (P x y)) : Decidable (∃ x y, e = (x, .done y) ∧ P x y) :=
  match e with
  | (x, .done y) => (match d x y with
    | isTrue h => isTrue ⟨x, y, rfl, h⟩
    | isFalse h => isFalse (fun ⟨_, _, k, p⟩ => h (by cases k; exact p)))
  | (_, .wait) => isFalse (fun ⟨_, _, k, _⟩ => by cases k)
def dND {α : Type} {e : α × NvData} {P : α → List Byte → Prop} (d : ∀ x y, Decidable (P x y)) : Decidable (∃ x y, e = (x, .ok y) ∧ P x y) :=
  match e with
  | (x, .ok y) => (match d x y with
    | isTrue h => isTrue ⟨x, y, rfl, h⟩
    | isFalse h => isFalse (fun ⟨_, _, k, p⟩ => h (by cases k; exact p)))
  | (_, .wait) => isFalse (fun ⟨_, _, k, _⟩ => by cases k)
  | (_, .err _) => isFalse (fun ⟨_, _, k, _⟩ => by cases k)
def dPN {α β : Type} {e : α × Option β} {P : α → Prop} (d : ∀ x, Decidable (P x)) : Decidable (∃ x, e = (x, none) ∧ P x) :=
  match e with
  | (x, none) => (match d x with
    | isTrue h => isTrue ⟨x, rfl, h⟩
    | isFalse h => isFalse (fun ⟨_, k, p⟩ => h (by cases k; exact p)))
  | (_, some _) => isFalse (fun ⟨_, k, _⟩ => by cases k)
def dPready {e : PairRes} {P : State → Prop} (d : ∀ x, Decidable (P x)) : Decidable (∃ x, e = .ready x ∧ P x) :=
  match e with
  | .ready x => (match d x with
    | isTrue h => isTrue ⟨x, rfl, h⟩
    | isFalse h => isFalse (fun ⟨_, k, p⟩ => h (by cases k; exact p)))
  | .wait => isFalse (fun ⟨_, k, _⟩ => by cases k)
  | .fail _ _ => isFalse (fun ⟨_, k, _⟩ => by cases k)
def dPM {α : Type} {e : α × MergeRes} {P : α → List (Nat × List Byte) → Prop} (d : ∀ x y, Decidable (P x y)) : Decidable (∃ x y, e = (x, .ok y) ∧ P x y) :=
  match e with
  | (x, .ok y) => (match d x y with
    | isTrue h => isTrue ⟨x, y, rfl, h⟩
    | isFalse h => isFalse (fun ⟨_, _, k, p⟩ => h (by cases k; exact p)))
  | (_, .wait) => isFalse (fun ⟨_, _, k, _⟩ => by cases k)
  | (_, .fail _ _) => isFalse (fun ⟨_, _, k, _⟩ => by cases k)
def dPS2 {α β γ : Type} {e : α × Option (β × γ)} {P : α → β → γ → Prop} (d : ∀ x y z, Decidable (P x y z)) : Decidable (∃ x y z, e = (x, some (y, z)) ∧ P x y z) :=
  match e with
  | (x, some (y, z)) => (match d x y z with
    | isTrue h => isTrue ⟨x, y, z, rfl, h⟩
    | isFalse h => isFalse (fun ⟨_, _, _, k, p⟩ => h (by cases k; exact p)))
  | (_, none) => isFalse (fun ⟨_, _, _, k, _⟩ => by cases k)
def dPE {α ε β : Type} [DecidableEq β] {e : α × Except ε β} {c : β} {P : α → Prop} (d : ∀ x, Decidable (P x)) : Decidable (∃ x, e = (x, .ok c) ∧ P x) :=
  match e with
  | (_, .error _) => isFalse (fun ⟨_, k, _⟩ => by cases k)
  | (x, .ok y) => if g : y = c then
      match d x with
      | isTrue h => isTrue ⟨x, by rw [g], h⟩
      | isFalse h => isFalse (fun ⟨_, k, p⟩ => h (by cases k; exact p))
    else isFalse (fun ⟨_, k, _⟩ => g (by cases k; rfl))
def dPC {α β : Type} [DecidableEq β] {e : α × β} {c : β} {P : α → Prop} (d : ∀ x, Decidable (P x)) : Decidable (∃ x, e = (x, c) ∧ P x) :=
  if g : e.2 = c then
    match d e.1 with
    | isTrue h => isTrue ⟨e.1, by rw [← g], h⟩
    | isFalse h => isFalse (fun ⟨_, k, p⟩ => h (by rw [k]; exact p))
  else isFalse (fun ⟨_, k, _⟩ => g (by rw [k]))
def dCC {α : Type} [DecidableEq α] {e c : List α} {P : α → Prop} (d : ∀ x, Decidable (P x)) : Decidable (∃ x, e = x :: c ∧ P x) :=
  match e with
  | [] => isFalse (fun ⟨_, k, _⟩ => by cases k)
  | x :: l => if g : l = c then
      match d x with
      | isTrue h => isTrue ⟨x, by rw [g], h⟩
      | isFalse h => isFalse (fun ⟨_, k, p⟩ => h (by cases k; exact p))
    else isFalse (fun ⟨_, k, _⟩ => g (by cases k; rfl))

def dOk : DmaRes → Option (List Byte)
  | .ok x => some x
  | _ => none
def nData : NvData → Option (List Byte)
  | .ok x => some x
  | _ => none
def nDone : NvRes → Option NvDone
  | .done x => some x
  | _ => none
def ex {ε α : Type} : Except ε α → Option α
  | .ok x => some x
  | _ => none
def got {α : Type} (o : Option α) (h : o.isSome = true) : α := o.get h
def hd {α : Type} : (l : List α) → l.isEmpty = false → α
  | x :: _, _ => x

/-- A pair by its second component. -/
theorem pairIs {α β : Type} {e : α × β} {p : β} (h : e.2 = p) : e = (e.1, p) := by rw [← h]

/-- An option by what it holds. -/
theorem someOf {α : Type} {e : Option α} (h : e.isSome = true) {x : α} (k : got e h = x) : e = some x := by rw [← k]; exact (Option.some_get h).symm

end Sys2Proof.Tests
end

