-- ==== Sys2Proof/Tests/Slice0.lean ====
section
/-!
SUPPORT. The model's own small tests. The smoke test of WellFormed has one ill-formed command for each check; the rest take their expected results
from the spec's worked examples, or from the published test vectors of the algorithms that the spec names.
-/

set_option Elab.async false
set_option maxRecDepth 100000

namespace Sys2Proof.Tests
open Sys2Proof.Machine

/-! Well-formedness: each check refuses a term. -/

theorem test_wf_slice : (Instr.ethLinkUp 4 0).wf = false := by decide
theorem test_wf_cluster : (Instr.rcvCtrlEnable (.hart 0 4 0)).wf = false := by decide
theorem test_wf_thread : (Instr.waitspin 0 0 32).wf = false := by decide
theorem test_wf_reg : (Instr.ftread 0 0 0 32 0).wf = false := by decide
theorem test_wf_channel : (Instr.hwChannelDelivery 0 0 64 []).wf = false := by decide
theorem test_wf_counter_csr : (Instr.counterCsrRead 0 0 0 0 0xC20).wf = false := by decide
theorem test_wf_instance : (Instr.sqDoorbell 4104 0 0).wf = false := by decide
theorem test_wf_agent : (Instr.rcvCtrlEnable (.host 4104)).wf = false := by decide
theorem test_wf_ring : (Instr.mgmtCmd 0 8192).wf = false := by decide
theorem test_wf_cid : (Instr.nvmeCompletionPost 0 0 65536).wf = false := by decide
theorem test_wf_engine : (Instr.parseNop 0 32 0).wf = false := by decide
theorem test_wf_context : (Instr.parseNop 0 0 4).wf = false := by decide
theorem test_wf_position : (Instr.ethLinkUp 0 8).wf = false := by decide
theorem test_wf_priority : (Instr.priorityPauseReceive 0 0 8 0).wf = false := by decide
theorem test_wf_korrum_port : (Instr.klEnable .manager 6).wf = false := by decide
theorem test_wf_link : (Instr.pcieLinkUp 4 0 0 false 0).wf = false := by decide
theorem test_wf_pair : (Instr.maskReseed 0 10 1).wf = false := by decide
theorem test_wf_qp : (Instr.kraPacketSend 0 1048576).wf = false := by decide
theorem test_wf_flash_channel : (Instr.flashChannelTimeout 0 8).wf = false := by decide
theorem test_wf_die : (Instr.flashEraseDone 0 128 0 true).wf = false := by decide
theorem test_wf_stage_slot : (Instr.ruleCommit .manager 0 6 0).wf = false := by decide
theorem test_wf_addr_slot : (Instr.insertStatic .manager 0 2).wf = false := by decide
theorem test_wf_root_slot : (Instr.rootKeyEraseDone 8).wf = false := by decide
theorem test_wf_size : (Instr.registerWrite .manager 0 3 0).wf = false := by decide

/-! Device organisation: the hart IDs of R7's worked example, thread 2.3.5.1 and the Curator of cluster 2.3. -/

theorem test_hart_id : hartId 2 3 (4 * 5 + 1) = 373 ∧ hartId 2 3 0 = 352 := by decide

/-! The address map (chapter 20's and chapter 18's worked examples). -/

theorem test_register_addresses : R.KRA_RETRANSMITS 2 = 0x060A0120 ∧ R.INST_CFG 612 = 0x08511320 := by decide
theorem test_pmu_core_addresses : R.CORE_HPM_EVT 1 2 18 = 0x05102490 ∧ R.CORE_HPM_EVT 1 2 20 = 0x051024A0 ∧ R.CORE_HPM 1 2 20 = 0x051022A0 ∧
    R.CORE_CYCLE 1 2 3 = 0x05102018 := by decide

/-! The packet buffer: the commit of R40's worked example, and the one that it refuses. -/

/-- The minimums and maximums of the worked example are staged in slice 0, with m the minimum of class 0. -/
def pbStage (m : Nat) : State := wF wUp [(F.PB_CLASS_MIN 0 0, m), (F.PB_CLASS_MIN 0 1, 0x4000), (F.PB_CLASS_MIN 0 2, 0x2000),
  (F.PB_CLASS_MIN 0 3, 0x1000), (F.PB_CLASS_MAX 0 1, 0xC000)]

theorem test_pb_commit : let t := nx (execPbCommit .manager 0 (pbStage 0x6000))
    t.fld (F.PB_SHARED_SIZE 0) = 0xB000 ∧ t.fld (F.PB_STATUS_GEN 0) = wUp.fld (F.PB_STATUS_GEN 0) + 1 := by decide +kernel
theorem test_pb_commit_refused : let t := nx (execPbCommit .manager 0 (pbStage 65536))
    t.fld (F.PB_STATUS_COMMIT_ERR 0) = 1 ∧ t.eth.pbMin = wUp.eth.pbMin := by decide +kernel

/-! Rings: the indices of the worked examples of chapter 05, on rings of 64 slots. -/

theorem test_ring_distances : extDiff 6 70 60 = 10 ∧ extDiff 6 6 70 = 64 ∧ extDiff 6 7 70 = 65 ∧ extDiff 6 5 70 = 63 ∧
    extDiff 6 0x40 0x14 = 44 := by decide
theorem test_ring_slots : extSlot 6 70 = 6 ∧ extWrap 6 70 = 1 ∧ extSlot 6 0x3C = 60 ∧ extWrap 6 0x3C = 0 := by decide

/-- Ring 0 of slice 0 as the worked example's step 4 finds it: its head is 70 and its accepted tail is 6. -/
def ringFull : State :=
  let s := wF wRing [(F.SR_HEAD 0 0, 70), (F.SR_TAIL 0 0, 6)]
  s.setSrx 0 0 { s.srx 0 0 with fetch := 70 }

theorem test_doorbell_overrun : (nx (execSqDoorbell 0 0 7 ringFull)).fld (F.SR_DB_ERR_OVERRUN 0 0) = 1 := by decide +kernel
theorem test_doorbell_stale : (nx (execSqDoorbell 0 0 5 ringFull)).fld (F.SR_DB_ERR_STALE 0 0) = 1 := by decide +kernel

/-- The worked example of completion ring 12, here ring 0: the head is 0 and the tail is 0x40. -/
def crFull : State := wF wRing [(F.CR_TAIL 0 0, 0x40)]

theorem test_completion_head : let t := nx (execCqHeadDoorbell 0 0 0x14 crFull)
    crFull.crFree 0 0 = 0 ∧ t.crFree 0 0 = 20 := by decide +kernel

/-! The Catalogue: the home slice and the quarter offset of handle 0x0D_1234 (R182). -/

theorem test_catalogue_home : homeOf 0x0D1234 = 1 ∧ 0x0D1234 % 2 ^ 19 * 0x40 = 0x1448D00 := by decide

/-! The Federation: the route from 0:5 to 2:10 and the flits of its packet (chapter 10's worked example). -/

theorem test_route : orderedPort 0x05 0x2A = 4 ∧ klPeer 0x05 4 = 0x15 ∧ orderedPort 0x15 0x2A = 4 ∧ klPeer 0x15 4 = 0x25 ∧
    orderedPort 0x25 0x2A = 0 ∧ klPeer 0x25 0 = 0x26 ∧ orderedPort 0x26 0x2A = 2 ∧ klPeer 0x26 2 = 0x2A := by decide
theorem test_packet_flits : KPkt.flitCount { typ := 0, vc := 0, cls := 0, dest := 0x2A, src := 5, payload := List.replicate 320 0 } = 6 := by decide

/-! Flash: the location and the slice of chapter 12's worked example. -/

theorem test_location : mkLoc 5 9 2 1000 1500 3 = 0x1DDC7D14D ∧ 0x80000001DDC7D14D % 2 ^ 33 = 0x1DDC7D14D ∧ locDie 0x1DDC7D14D = 16 * 5 + 9 ∧
    locBlk 0x1DDC7D14D = 1000 ∧ locPage 0x1DDC7D14D = 1500 := by decide

/-- One channel of 16 dies, and the bank of the worked example of R399 (22 mF, 36 V, 12 V, 90 %, 136 W). -/
def shelf : State :=
  let s := wF wUp ((F.FL_CH_STATE_DIES 0 0, 16) :: (List.range 16).map fun d => (F.FL_DIE_STATE_STATE 0 d, 1))
  { s with flash := { s.flash with bank := [22000, 36000, 12000, 90, 136, 0] } }

/-- One channel moves 2.974 GB/s, less than its 16 dies' 16 times 0.4096, in units of 100 kB/s (R398). -/
theorem test_save_rate : shelf.saveRate = 29740 := by decide +kernel
/-- 11.4048 J carry 1.25 times 136 W for 67.087 ms, so that 62.087 ms are left at 2.974 GB/s (R399). -/
theorem test_hold_up_budget : shelf.bMax 36000 = 184646912 := by decide +kernel

/-! Translation: the walk of chapter 14's worked example. -/

/-- The level-1 table of PF0 lies at 1 GiB of HBM and its level-2 table at 2 GiB. -/
def walked : State := ((wF (wInst wUp 0 1) [(F.INST_CFG_LOG2_SPACE 0, 36), (F.INST_TABLE 0, 2 ^ 18)]).hbmWrite (2 ^ 30 + 0x1308) (leBytes 8 (2 ^ 31 + 1))).hbmWrite
  (2 ^ 31 + 0x1A8) (leBytes 8 (0x127C400000 + 5))

theorem test_walk : (ex (walked.walk 0 0x4C235A10)).map (fun e => (e.output 0x4C235A10, e.target, e.read)) = some (0x127C400A10, 0, true) := by
  decide +kernel

/-! Key binding: the context label of chapter 08's worked example. -/

theorem test_bind_label :
    let j := wJob 0x24 44 0 [0x700000 + 0]
    let l := RJob.bindLabel { j with descs := [{ index := 0, dws := [0, 0, 0x0123 * 2 ^ 16 + 0x22 * 2 ^ 32 + 2 ^ 62] }] }
      (leBytes 12 0x1F2E3D4C5B6A798897A6B5C4)
    contextLabel (leNat l) 0x1000A3 1 0 =
      [0x23, 0x01, 0x22, 0x01, 0xC4, 0xB5, 0xA6, 0x97, 0x88, 0x79, 0x6A, 0x5B, 0x4C, 0x3D, 0x2E, 0x1F, 0xA3, 0x00, 0x10, 0x01,
       0, 0, 0, 0, 0, 0, 0, 0, 0, 0, 0, 1] := by decide +kernel

/-! The algorithms that the spec names, on published vectors: CRC-32C's check value (RFC 3720), AES-256 (FIPS 197, C.3), SHA-384 (FIPS 180-4). -/

theorem test_crc32c : crc32c ((List.range 9).map fun i => BitVec.ofNat 8 (0x31 + i)) = 0xE3069283 := by decide +kernel
theorem test_aes256 : aesEnc ((List.range 32).map (BitVec.ofNat 8)) ((List.range 16).map fun i => BitVec.ofNat 8 (0x11 * i)) =
    (leBytes 16 0x8EA2B7CA516745BFEAFC49904B496089).reverse := by decide +kernel
theorem test_sha384 : sha384 [0x61, 0x62, 0x63] =
    (leBytes 48 0xCB00753F45A35E8BB5A03D699AC65007272C32AB0EDED1631A8B605A43FF5BED8086072BA1E7CC2358BAECA134C825A7).reverse := by decide +kernel

/-! The step: the command at the front of the queue runs with the queue's rest. -/

theorem test_step_runs_front : (nx (Machine.step { wUp with pending := [.trialWatchdog, .holdoverExpire] })).pending = [.holdoverExpire] := by
  decide +kernel

end Sys2Proof.Tests
end

