-- ==== Sys2Proof/Tests/WitnessCipher.lean ====
section
/-!
SUPPORT. Witnesses: a state and operands that meet the hypotheses of each clause of the statements named, together.
-/

set_option linter.unusedVariables false
set_option Elab.async false
set_option maxRecDepth 100000

namespace Sys2Proof.Tests
open Sys2Proof.Machine

def rootKeysAreLoadedAndErased_0_s : State :=
  wMg wKeys (wHolder 0x0210 (wKeyPay 3 1 1 2 []))

def rootKeysAreLoadedAndErased_1_s : State :=
  wMg wUp (wHolder 528 (wKeyPay 1 1 0 0 []))

def rootKeysAreLoadedAndErased_2_s : State :=
  wMg wKeys (wHolder 529 (wKeyPay 3 1 0 5 (List.replicate 80 0)))

def rootKeysAreLoadedAndErased_5_s : State :=
  wMg (w1 wKeys F.RNG_STATUS_STATE 0) (wHolder 529 (wKeyPay 3 1 0 2 (List.replicate 80 0)))

def rootKeysAreLoadedAndErased_6_s : State :=
  wMg wKeys (wHolder 0x0212 (wKeyPay 3 1 1 2 (List.replicate 32 9)) 1)

def rootKeysAreLoadedAndErased_7_s : State :=
  wMg wUp (wHolder 530 (wKeyPay 1 1 0 0 (List.replicate 32 0)) 1)

def rootKeysAreLoadedAndErased_8_s : State :=
  wMg wKeys (wHolder 0x0210 (wKeyPay 1 1 1 2 []))

def rootKeysAreLoadedAndErased_9_s : State :=
  wMg wKeys (wHolder 0x0211 (wKeyPay 1 1 1 2 (List.replicate 80 0)))

def rootKeysAreLoadedAndErased_10_s : State :=
  wMg wKeys (wHolder 530 (wKeyPay 1 1 0 0 (List.replicate 32 0)) 1)

def rootKeysAreLoadedAndErased_11_s : State :=
  wMg wKeys (wHolder 0x0212 (wKeyPay 3 1 1 2 []))

def rootKeysAreLoadedAndErased_12_s : State :=
  wMg (w1 wUp F.ROOT_PROVISION_CLOSED) (wHolder 530 (wKeyPay 1 1 0 0 (List.replicate 32 0)) 1)

def rootKeysAreLoadedAndErased_13_s : State :=
  wMg wKeys (wHolder 0x0213 (wKeyPay 3 1 1 2 []))

def rootKeysAreLoadedAndErased_14_s : State :=
  wMg wKeys (wHolder 531 (wKeyPay 2 0 0 2 []))

def rootKeysAreLoadedAndErased_15_s : State :=
  wMg wKeys (wHolder 531 (wKeyPay 1 0 0 5 []))

def rootKeysAreLoadedAndErased_16_s : State :=
  wMg (w1 wKeys F.RNG_STATUS_STATE 0) (wHolder 531 (wKeyPay 1 0 0 2 []))

def rootKeysAreLoadedAndErased_17_s : State :=
  wMg wKeys (wHolder 0x0213 (wKeyPay 1 1 1 2 []))

def rootKeysAreLoadedAndErased_18_s : State :=
  wMg wKeys (wHolder 532 (wKeyPay 0 0 0 0 []))

def rootKeysAreLoadedAndErased_19_s : State :=
  wMg wKeys (wHolder 0x0214 (wKeyPay 3 1 1 2 []))

def rootKeysAreLoadedAndErased_20_s : State :=
  wMg wKeys (wHolder 0x0214 (wKeyPay 1 1 1 2 []))

def rootKeysAreLoadedAndErased_21_s : State :=
  { wMg wKeys { wHolder 0x0214 (wKeyPay 1 1 1 2 []) with started := true } with cipher.keys := [(1, { key := List.replicate 32 0x11, eraseWaits := true })] }

def rootKeysAreLoadedAndErased_22_s : State :=
  { wKeys with cipher.keys := [(1, { key := List.replicate 32 0, eraseWaits := true })] }

def rootKeysAreLoadedAndErased_25_s : State :=
  wMg (w1 wKeys (F.ROOT_SLOT_STATE 0) 0) (wHolder 0x0215 [])

def rootKeysAreLoadedAndErased_26_s : State :=
  wMg (w1 wKeys (F.ROOT_SLOT_STATE 0)) (wHolder 533 [])

def rootKeysAreLoadedAndErased_29_s : State :=
  wMg wKeys (wHolder 0x0216 [])

/-- The root key opcodes load, export, restore, show and erase slots: clauses 0, 1, 2, 5, 6, 7, 8, 9, 10, 11. -/
theorem witness_RootKeysAreLoadedAndErased_a :
    (∃ (s : State), s.slicesUp = true ∧ s.rngState = rngOk ∧ ∃ (h : Holder), s.mgmt.holder = some h ∧ keySlot h.cmd ≠ 0 ∧ s.fld (F.ROOT_SLOT_STATE (keySlot h.cmd)) = slotEmpty ∧ h.started = false ∧ h.cmd.opcode = 528) ∧
    (∃ (s : State), s.slicesUp = true ∧ s.rngState ≠ rngOk ∧ ∃ (h : Holder), s.mgmt.holder = some h ∧ keySlot h.cmd ≠ 0 ∧ s.fld (F.ROOT_SLOT_STATE (keySlot h.cmd)) = slotEmpty ∧ h.started = false ∧ h.cmd.opcode = 528) ∧
    (∃ (s : State), s.slicesUp = true ∧ ∃ (h : Holder), s.mgmt.holder = some h ∧ keySlot h.cmd ≠ 0 ∧ s.fld (F.ROOT_SLOT_STATE (keySlot h.cmd)) = slotEmpty ∧ h.started = false ∧ h.cmd.opcode = 529 ∧ ∃ (st : Nat), s.keyRefused (keyWrap h.cmd) 7 = some st ∧ True) ∧
    (∃ (s : State), s.slicesUp = true ∧ s.rngState ≠ rngOk ∧ ∃ (h : Holder), s.mgmt.holder = some h ∧ keySlot h.cmd ≠ 0 ∧ s.fld (F.ROOT_SLOT_STATE (keySlot h.cmd)) = slotEmpty ∧ h.started = false ∧ h.cmd.opcode = 529 ∧ s.keyRefused (keyWrap h.cmd) 7 = none) ∧
    (∃ (s : State), s.slicesUp = true ∧ s.on F.ROOT_PROVISION_CLOSED = false ∧ s.boot.rootProvision = false ∧ s.rngState = rngOk ∧ ∃ (h : Holder), s.mgmt.holder = some h ∧ keySlot h.cmd ≠ 0 ∧ s.fld (F.ROOT_SLOT_STATE (keySlot h.cmd)) = slotEmpty ∧ h.started = false ∧ h.cmd.opcode = 530 ∧ h.cmd.route = 1) ∧
    (∃ (s : State), s.slicesUp = true ∧ s.on F.ROOT_PROVISION_CLOSED = false ∧ s.boot.rootProvision = false ∧ s.rngState ≠ rngOk ∧ ∃ (h : Holder), s.mgmt.holder = some h ∧ keySlot h.cmd ≠ 0 ∧ s.fld (F.ROOT_SLOT_STATE (keySlot h.cmd)) = slotEmpty ∧ h.started = false ∧ h.cmd.opcode = 530 ∧ h.cmd.route = 1) ∧
    (∃ (s : State), s.slicesUp = true ∧ ∃ (h : Holder), s.mgmt.holder = some h ∧ (keySlot h.cmd = 0 ∨ s.fld (F.ROOT_SLOT_STATE (keySlot h.cmd)) ≠ slotEmpty) ∧ h.started = false ∧ h.cmd.opcode = 528) ∧
    (∃ (s : State), s.slicesUp = true ∧ ∃ (h : Holder), s.mgmt.holder = some h ∧ (keySlot h.cmd = 0 ∨ s.fld (F.ROOT_SLOT_STATE (keySlot h.cmd)) ≠ slotEmpty) ∧ h.started = false ∧ h.cmd.opcode = 529) ∧
    (∃ (s : State), s.slicesUp = true ∧ s.on F.ROOT_PROVISION_CLOSED = false ∧ s.boot.rootProvision = false ∧ ∃ (h : Holder), s.mgmt.holder = some h ∧ (keySlot h.cmd = 0 ∨ s.fld (F.ROOT_SLOT_STATE (keySlot h.cmd)) ≠ slotEmpty) ∧ h.started = false ∧ h.cmd.opcode = 530 ∧ h.cmd.route = 1) ∧
    (∃ (s : State), s.slicesUp = true ∧ ∃ (h : Holder), s.mgmt.holder = some h ∧ h.started = false ∧ h.cmd.opcode = 530 ∧ h.cmd.route ≠ 1) :=
  ⟨⟨rootKeysAreLoadedAndErased_0_s, chk (dA inferInstance (dA inferInstance (dSome fun _ => inferInstance))) (by decide +kernel)⟩,
   ⟨rootKeysAreLoadedAndErased_1_s, chk (dA inferInstance (dA inferInstance (dSome fun _ => inferInstance))) (by decide +kernel)⟩,
   ⟨rootKeysAreLoadedAndErased_2_s, chk (dA inferInstance (dSome fun _ => (dA inferInstance (dA inferInstance (dA inferInstance (dA inferInstance (dSome fun _ => inferInstance))))))) (by decide +kernel)⟩,
   ⟨rootKeysAreLoadedAndErased_5_s, chk (dA inferInstance (dA inferInstance (dSome fun _ => inferInstance))) (by decide +kernel)⟩,
   ⟨rootKeysAreLoadedAndErased_6_s, chk (dA inferInstance (dA inferInstance (dA inferInstance (dA inferInstance (dSome fun _ => inferInstance))))) (by decide +kernel)⟩,
   ⟨rootKeysAreLoadedAndErased_7_s, chk (dA inferInstance (dA inferInstance (dA inferInstance (dA inferInstance (dSome fun _ => inferInstance))))) (by decide +kernel)⟩,
   ⟨rootKeysAreLoadedAndErased_8_s, chk (dA inferInstance (dSome fun _ => inferInstance)) (by decide +kernel)⟩,
   ⟨rootKeysAreLoadedAndErased_9_s, chk (dA inferInstance (dSome fun _ => inferInstance)) (by decide +kernel)⟩,
   ⟨rootKeysAreLoadedAndErased_10_s, chk (dA inferInstance (dA inferInstance (dA inferInstance (dSome fun _ => inferInstance)))) (by decide +kernel)⟩,
   ⟨rootKeysAreLoadedAndErased_11_s, chk (dA inferInstance (dSome fun _ => inferInstance)) (by decide +kernel)⟩⟩

/-- The root key opcodes load, export, restore, show and erase slots: clauses 12, 13, 14, 15, 16, 17, 18, 19, 20, 21. -/
theorem witness_RootKeysAreLoadedAndErased_b :
    (∃ (s : State), s.slicesUp = true ∧ (s.on F.ROOT_PROVISION_CLOSED = true ∨ s.boot.rootProvision = true) ∧ ∃ (h : Holder), s.mgmt.holder = some h ∧ h.started = false ∧ h.cmd.opcode = 530 ∧ h.cmd.route = 1) ∧
    (∃ (s : State), s.slicesUp = true ∧ ∃ (h : Holder), s.mgmt.holder = some h ∧ h.started = false ∧ h.cmd.opcode = 531 ∧ s.fld (F.ROOT_SLOT_STATE (keySlot h.cmd)) ≠ slotLoaded) ∧
    (∃ (s : State), s.slicesUp = true ∧ ∃ (h : Holder), s.mgmt.holder = some h ∧ h.started = false ∧ h.cmd.opcode = 531 ∧ s.fld (F.ROOT_SLOT_STATE (keySlot h.cmd)) = slotLoaded ∧ (keySlot h.cmd = 0 ∨ s.on (F.ROOT_SLOT_EXPORTABLE (keySlot h.cmd)) = false)) ∧
    (∃ (s : State), s.slicesUp = true ∧ ∃ (h : Holder), s.mgmt.holder = some h ∧ h.started = false ∧ h.cmd.opcode = 531 ∧ keySlot h.cmd ≠ 0 ∧ s.fld (F.ROOT_SLOT_STATE (keySlot h.cmd)) = slotLoaded ∧ s.on (F.ROOT_SLOT_EXPORTABLE (keySlot h.cmd)) = true ∧ ∃ (st : Nat), s.keyRefused (keyWrap h.cmd) 7 = some st ∧ True) ∧
    (∃ (s : State), s.slicesUp = true ∧ s.rngState ≠ rngOk ∧ ∃ (h : Holder), s.mgmt.holder = some h ∧ h.started = false ∧ h.cmd.opcode = 531 ∧ keySlot h.cmd ≠ 0 ∧ s.fld (F.ROOT_SLOT_STATE (keySlot h.cmd)) = slotLoaded ∧ s.on (F.ROOT_SLOT_EXPORTABLE (keySlot h.cmd)) = true ∧ s.keyRefused (keyWrap h.cmd) 7 = none) ∧
    (∃ (s : State), s.slicesUp = true ∧ s.rngState = rngOk ∧ ∃ (h : Holder), s.mgmt.holder = some h ∧ h.started = false ∧ h.cmd.opcode = 531 ∧ keySlot h.cmd ≠ 0 ∧ s.fld (F.ROOT_SLOT_STATE (keySlot h.cmd)) = slotLoaded ∧ s.on (F.ROOT_SLOT_EXPORTABLE (keySlot h.cmd)) = true ∧ s.keyRefused (keyWrap h.cmd) 7 = none) ∧
    (∃ (s : State), s.slicesUp = true ∧ ∃ (h : Holder), s.mgmt.holder = some h ∧ h.started = false ∧ h.cmd.opcode = 532 ∧ keySlot h.cmd = 0) ∧
    (∃ (s : State), s.slicesUp = true ∧ ∃ (h : Holder), s.mgmt.holder = some h ∧ h.started = false ∧ h.cmd.opcode = 532 ∧ keySlot h.cmd ≠ 0 ∧ s.cipher.keys.find? (keySlot h.cmd) = none) ∧
    (∃ (s : State), s.slicesUp = true ∧ s.cipher.cache.length = 4 ∧ ∃ (h : Holder), s.mgmt.holder = some h ∧ h.started = false ∧ h.cmd.opcode = 532 ∧ keySlot h.cmd ≠ 0 ∧ ∃ (key : RootKey), s.cipher.keys.find? (keySlot h.cmd) = some key ∧ True) ∧
    (∃ (s : State), ∃ (n : Nat), s.slicesUp = true ∧ n < 8 ∧ s.keyHeld n = false ∧ ∃ (key : RootKey), s.cipher.keys.find? n = some key ∧ key.eraseWaits = true ∧ ∃ (h : Holder), s.mgmt.holder = some h ∧ h.started = true ∧ h.reply = none ∧ h.cmd.opcode = 532) :=
  ⟨⟨rootKeysAreLoadedAndErased_12_s, chk (dA inferInstance (dA inferInstance (dSome fun _ => inferInstance))) (by decide +kernel)⟩,
   ⟨rootKeysAreLoadedAndErased_13_s, chk (dA inferInstance (dSome fun _ => inferInstance)) (by decide +kernel)⟩,
   ⟨rootKeysAreLoadedAndErased_14_s, chk (dA inferInstance (dSome fun _ => inferInstance)) (by decide +kernel)⟩,
   ⟨rootKeysAreLoadedAndErased_15_s, chk (dA inferInstance (dSome fun _ => (dA inferInstance (dA inferInstance (dA inferInstance (dA inferInstance (dA inferInstance (dSome fun _ => inferInstance)))))))) (by decide +kernel)⟩,
   ⟨rootKeysAreLoadedAndErased_16_s, chk (dA inferInstance (dA inferInstance (dSome fun _ => inferInstance))) (by decide +kernel)⟩,
   ⟨rootKeysAreLoadedAndErased_17_s, chk (dA inferInstance (dA inferInstance (dSome fun _ => inferInstance))) (by decide +kernel)⟩,
   ⟨rootKeysAreLoadedAndErased_18_s, chk (dA inferInstance (dSome fun _ => inferInstance)) (by decide +kernel)⟩,
   ⟨rootKeysAreLoadedAndErased_19_s, chk (dA inferInstance (dSome fun _ => inferInstance)) (by decide +kernel)⟩,
   ⟨rootKeysAreLoadedAndErased_20_s, chk (dA inferInstance (dA inferInstance (dSome fun _ => (dA inferInstance (dA inferInstance (dA inferInstance (dSome fun _ => inferInstance))))))) (by decide +kernel)⟩,
   ⟨rootKeysAreLoadedAndErased_21_s, 1, chk (dA inferInstance (dA inferInstance (dA inferInstance (dSome fun _ => (dA inferInstance (dSome fun _ => inferInstance)))))) (by decide +kernel)⟩⟩

/-- The root key opcodes load, export, restore, show and erase slots: clauses 22, 23, 24, 25, 26, 29, 30, 31, 32, 33. -/
theorem witness_RootKeysAreLoadedAndErased_c :
    (∃ (s : State), ∃ (n : Nat), s.slicesUp = true ∧ n < 8 ∧ s.keyHeld n = false ∧ s.mgmt.holder = none ∧ ∃ (key : RootKey), s.cipher.keys.find? n = some key ∧ key.eraseWaits = true) ∧
    (∃ (s : State), ∃ (n : Nat), s.slicesUp = true ∧ n < 8 ∧ (s.cipher.keys.find? n = none ∨ Option.all (fun (key : RootKey) => !key.eraseWaits) (s.cipher.keys.find? n) = true ∨ s.keyHeld n = true)) ∧
    (∃ (s : State), ∃ (n : Nat), s.slicesUp = true ∧ n < 8 ∧ (s.cipher.jobs.any fun (j : CipherJob) => decide (j.slot = n)) = true) ∧
    (∃ (s : State), s.slicesUp = true ∧ s.fld (F.ROOT_SLOT_STATE 0) ≠ slotLoaded ∧ s.cipher.nor = [] ∧ ∃ (h : Holder), s.mgmt.holder = some h ∧ h.started = false ∧ h.cmd.opcode = 533) ∧
    (∃ (s : State), s.slicesUp = true ∧ s.fld (F.ROOT_SLOT_STATE 0) = slotLoaded ∧ s.cipher.nor = [] ∧ ∃ (h : Holder), s.mgmt.holder = some h ∧ h.started = false ∧ h.cmd.opcode = 533) ∧
    (∃ (s : State), s.slicesUp = true ∧ ∃ (h : Holder), s.mgmt.holder = some h ∧ h.started = false ∧ h.cmd.opcode = 534) ∧
    (∃ (s : State), s.slicesUp = true ∧ Option.any (fun (h : Holder) => !h.started && decide (h.cmd.opcode = 528)) s.mgmt.holder = false) ∧
    (∃ (s : State), s.slicesUp = true ∧ Option.any (fun (h : Holder) => !h.started && decide (h.cmd.opcode = 529)) s.mgmt.holder = false) ∧
    (∃ (s : State), s.slicesUp = true ∧ Option.any (fun (h : Holder) => !h.started && decide (h.cmd.opcode = 530)) s.mgmt.holder = false) ∧
    (∃ (s : State), s.slicesUp = true ∧ Option.any (fun (h : Holder) => !h.started && decide (h.cmd.opcode = 531)) s.mgmt.holder = false) :=
  ⟨⟨rootKeysAreLoadedAndErased_22_s, 1, chk (dA inferInstance (dA inferInstance (dA inferInstance (dA inferInstance (dSome fun _ => inferInstance))))) (by decide +kernel)⟩,
   ⟨wMg wKeys (wHolder 0x0210 (wKeyPay 3 1 1 2 [])), 1, by decide +kernel⟩,
   ⟨wPair (wJob 32 64 0) [], 1, by decide +kernel⟩,
   ⟨rootKeysAreLoadedAndErased_25_s, chk (dA inferInstance (dA inferInstance (dA inferInstance (dSome fun _ => inferInstance)))) (by decide +kernel)⟩,
   ⟨rootKeysAreLoadedAndErased_26_s, chk (dA inferInstance (dA inferInstance (dA inferInstance (dSome fun _ => inferInstance)))) (by decide +kernel)⟩,
   ⟨rootKeysAreLoadedAndErased_29_s, chk (dA inferInstance (dSome fun _ => inferInstance)) (by decide +kernel)⟩,
   ⟨wMg wKeys (wHolder 0x0211 (wKeyPay 3 1 1 2 (wBlob (List.replicate 32 9)))), by decide +kernel⟩,
   ⟨wMg wKeys (wHolder 0x0210 (wKeyPay 3 1 1 2 [])), by decide +kernel⟩,
   ⟨wMg wKeys (wHolder 0x0210 (wKeyPay 3 1 1 2 [])), by decide +kernel⟩,
   ⟨wMg wKeys (wHolder 0x0210 (wKeyPay 3 1 1 2 [])), by decide +kernel⟩⟩

/-- The root key opcodes load, export, restore, show and erase slots: clauses 34, 35, 36. -/
theorem witness_RootKeysAreLoadedAndErased_d :
    (∃ (s : State), s.slicesUp = true ∧ Option.any (fun (h : Holder) => !h.started && decide (h.cmd.opcode = 532)) s.mgmt.holder = false) ∧
    (∃ (s : State), s.slicesUp = true ∧ Option.any (fun (h : Holder) => !h.started && decide (h.cmd.opcode = 533)) s.mgmt.holder = false) ∧
    (∃ (s : State), s.slicesUp = true ∧ Option.any (fun (h : Holder) => !h.started && decide (h.cmd.opcode = 534)) s.mgmt.holder = false) :=
  ⟨⟨wMg wKeys (wHolder 0x0210 (wKeyPay 3 1 1 2 [])), by decide +kernel⟩,
   ⟨wMg wKeys (wHolder 0x0210 (wKeyPay 3 1 1 2 [])), by decide +kernel⟩,
   ⟨wMg wKeys (wHolder 0x0210 (wKeyPay 3 1 1 2 [])), by decide +kernel⟩⟩

def generatorsAndAlarms_3_s : State :=
  { wStart wRing { wJob 0x20 64 0 with taken := true } with cipher.jobs := [{ id := 1, slice := 0, src := .ring 0 1, slot := 1, label := [], key := [] }] }

def generatorsAndAlarms_4_s : State :=
  wPair (wJob 32 64 0) (List.replicate 16 0)

def generatorsAndAlarms_10_s : State :=
  { wKeys with cipher.keyReqs := [{ slice := 0, op := 3, slot := 1, gen := wKeys.fld (F.ROOT_SLOT_GEN 1), label := contextLabel 5 0 5 0, mask := true }] }

def generatorsAndAlarms_18_s : State :=
  { wKeys with time.mono := 3000000000000, cipher.tamperAt := some 0, cipher.reloads := [0, 0, 0] }

/-- Random generators, derivations, tamper and self-tests: clauses 0, 1, 2, 3, 4, 5, 6, 7, 8, 9. -/
theorem witness_GeneratorsAndAlarms_a :
    (∃ (s : State), s.slicesUp = true ∧ s.rngState ≠ rngOk) ∧
    (∃ (s : State), s.slicesUp = true ∧ s.rngState = rngOk) ∧
    (∃ (s : State), s.slicesUp = true ∧ s.transforming = [] ∧ s.cipher.jobs = []) ∧
    (∃ (s : State), ∃ (q : Nat), ∃ (id : Nat), s.slicesUp = true ∧ s.transforming = [] ∧ ∃ (j : CipherJob), s.cipher.jobs = [j] ∧ j.src = CipherSrc.ring q id ∧ j.pair = none ∧ ∃ (r : RJob), s.jobById j.slice q id = some r ∧ True) ∧
    (∃ (s : State), ∃ (q : Nat), ∃ (id : Nat), s.slicesUp = true ∧ s.transforming = [] ∧ ∃ (j : CipherJob), s.cipher.jobs = [j] ∧ j.src = CipherSrc.ring q id ∧ ∃ (r : RJob), s.jobById j.slice q id = some r ∧ ∃ (x : Nat), j.pair = some x ∧ True) ∧
    (∃ (s : State), ∃ (k : Nat), s.slicesUp = true ∧ k < 4 ∧ s.rngState = rngOk ∧ k < s.cipher.drbg.length ∧ (2 ^ 20 ≤ (s.cipher.drbg.getD k (0, 0)).fst ∨ (s.cipher.drbg.getD k (0, 0)).snd + ticksPerSec ≤ s.time.mono)) ∧
    (∃ (s : State), ∃ (k : Nat), s.slicesUp = true ∧ (4 ≤ k ∨ s.rngState ≠ rngOk ∨ (s.cipher.drbg.getD k (0, 0)).fst < 2 ^ 20 ∧ s.time.mono < (s.cipher.drbg.getD k (0, 0)).snd + ticksPerSec)) ∧
    (∃ (s : State), ∃ (k : Nat), ∃ (x : Nat), ∃ (c : Nat), s.slicesUp = true ∧ k < 4 ∧ x < 10 ∧ c < 2 ∧ s.rngState = rngOk ∧ Map.get (fun (x : Nat) => 0) s.cipher.maskAt (32 * k + 2 * x + c) + 65536 ≤ s.time.mono) ∧
    (∃ (s : State), ∃ (k : Nat), ∃ (x : Nat), ∃ (c : Nat), s.slicesUp = true ∧ k < 4 ∧ x < 10 ∧ c < 2 ∧ (s.rngState ≠ rngOk ∨ s.time.mono < Map.get (fun (x : Nat) => 0) s.cipher.maskAt (32 * k + 2 * x + c) + 65536)) ∧
    (∃ (s : State), ∃ (k : Nat), ∃ (u : Nat), s.slicesUp = true ∧ s.kdfTesting k u = false ∧ k < 4 ∧ ∃ (r : KeyReq), List.find? (fun (r : KeyReq) => decide (r.slice = k ∧ r.failedOn ≠ some (u % 2)) && r.result.isNone) s.cipher.keyReqs = some r ∧ s.fld (F.ROOT_SLOT_STATE r.slot) = slotLoaded ∧ s.fld (F.ROOT_SLOT_GEN r.slot) = r.gen ∧ r.mask = false ∧ labelPurpose r.label = 5) :=
  ⟨⟨wUp, by decide +kernel⟩,
   (by refine ⟨{ wKeys with time.units := 8000000000 * 2, time.mono := 3000000000000 }, ?_⟩; decide +kernel),
   ⟨wUp, by decide +kernel⟩,
   ⟨generatorsAndAlarms_3_s, 0, 1, chk (dA inferInstance (dA inferInstance (dCC fun _ => (dA inferInstance (dA inferInstance (dSome fun _ => inferInstance)))))) (by decide +kernel)⟩,
   ⟨generatorsAndAlarms_4_s, 0, 1, chk (dA inferInstance (dA inferInstance (dCC fun _ => (dA inferInstance (dSome fun _ => (dSome fun _ => inferInstance)))))) (by decide +kernel)⟩,
   (by refine ⟨{ wKeys with time.units := 8000000000 * 2, time.mono := 3000000000000 }, 0, ?_⟩; decide +kernel),
   ⟨wUp, 0, by decide +kernel⟩,
   (by refine ⟨{ wKeys with time.units := 8000000000 * 2, time.mono := 3000000000000 }, 0, 0, 0, ?_⟩; decide +kernel),
   ⟨wUp, 0, 0, 0, by decide +kernel⟩,
   ⟨wDer 1, 0, 0, chk (dA inferInstance (dA inferInstance (dA inferInstance (dSome fun _ => inferInstance)))) (by decide +kernel)⟩⟩

/-- Random generators, derivations, tamper and self-tests: clauses 10, 11, 12, 13, 14, 15, 18, 19, 20, 21. -/
theorem witness_GeneratorsAndAlarms_b :
    (∃ (s : State), ∃ (k : Nat), ∃ (u : Nat), s.slicesUp = true ∧ s.kdfTesting k u = false ∧ k < 4 ∧ ∃ (r : KeyReq), List.find? (fun (r : KeyReq) => decide (r.slice = k ∧ r.failedOn ≠ some (u % 2)) && r.result.isNone) s.cipher.keyReqs = some r ∧ s.fld (F.ROOT_SLOT_STATE r.slot) = slotLoaded ∧ s.fld (F.ROOT_SLOT_GEN r.slot) = r.gen ∧ r.mask = true) ∧
    (∃ (s : State), ∃ (k : Nat), ∃ (u : Nat), s.slicesUp = true ∧ s.kdfTesting k u = false ∧ ∃ (r : KeyReq), List.find? (fun (r : KeyReq) => decide (r.slice = k ∧ r.failedOn ≠ some (u % 2)) && r.result.isNone) s.cipher.keyReqs = some r ∧ (s.fld (F.ROOT_SLOT_STATE r.slot) ≠ slotLoaded ∨ s.fld (F.ROOT_SLOT_GEN r.slot) ≠ r.gen)) ∧
    (∃ (s : State), ∃ (k : Nat), ∃ (u : Nat), s.slicesUp = true ∧ s.kdfTesting k u = false ∧ ∃ (r : KeyReq), List.find? (fun (r : KeyReq) => decide (r.slice = k ∧ r.failedOn ≠ some (u % 2)) && r.result.isNone) s.cipher.keyReqs = some r ∧ True) ∧
    (∃ (s : State), ∃ (k : Nat), ∃ (u : Nat), ∃ (b : Bool), s.slicesUp = true ∧ (s.kdfTesting k u = true ∨ List.find? (fun (r : KeyReq) => decide (r.slice = k ∧ r.failedOn ≠ some (u % 2)) && r.result.isNone) s.cipher.keyReqs = none)) ∧
    (∃ (s : State), ∃ (d : Nat), s.slicesUp = true ∧ d % 16 ≠ 0 ∧ s.cipher.jobs = [] ∧ s.cipher.cache.length = 4 ∧ ((List.range 8).all fun (n : Nat) => Option.all (fun (key : RootKey) => !key.eraseWaits) (s.cipher.keys.find? n)) = true) ∧
    (∃ (s : State), ∃ (d : Nat), s.slicesUp = true ∧ d % 16 = 0) ∧
    (∃ (s : State), ∃ (bad : List Nat), s.slicesUp = true ∧ 3 ≤ s.recentReloads.length ∧ ∃ (t0 : Nat), s.cipher.tamperAt = some t0 ∧ t0 + ticksPerSec ≤ s.time.mono) ∧
    (∃ (s : State), ∃ (bad : List Nat), s.slicesUp = true ∧ (s.cipher.tamperAt = none ∨ ∃ (t0 : Nat), s.cipher.tamperAt = some t0 ∧ s.time.mono < t0 + ticksPerSec)) ∧
    (∃ (s : State), ∃ (k : Nat), ∃ (x : Nat), s.slicesUp = true ∧ k < 4 ∧ x < 10 ∧ s.pairState k x = pairSelftest) ∧
    (∃ (s : State), ∃ (k : Nat), ∃ (x : Nat), s.slicesUp = true ∧ k < 4 ∧ x < 10 ∧ s.pairState k x = pairSelftest ∧ s.cipher.jobs = []) :=
  ⟨⟨generatorsAndAlarms_10_s, 0, 0, chk (dA inferInstance (dA inferInstance (dA inferInstance (dSome fun _ => inferInstance)))) (by decide +kernel)⟩,
   ⟨wDer 4, 0, 0, chk (dA inferInstance (dA inferInstance (dSome fun _ => inferInstance))) (by decide +kernel)⟩,
   ⟨wDer 1, 0, 0, chk (dA inferInstance (dA inferInstance (dSome fun _ => inferInstance))) (by decide +kernel)⟩,
   ⟨wUp, 0, 0, false, by decide +kernel⟩,
   ⟨wUp, 1, by decide +kernel⟩,
   ⟨wUp, 0, by decide +kernel⟩,
   ⟨generatorsAndAlarms_18_s, [], chk (dA inferInstance (dA inferInstance (dSome fun _ => inferInstance))) (by decide +kernel)⟩,
   ⟨wUp, [], by decide +kernel⟩,
   ⟨wUp, 0, 0, by decide +kernel⟩,
   ⟨wUp, 0, 0, by decide +kernel⟩⟩

/-- Random generators, derivations, tamper and self-tests: clauses 22, 23, 24. -/
theorem witness_GeneratorsAndAlarms_c :
    (∃ (s : State), ∃ (k : Nat), ∃ (x : Nat), ∃ (b : Bool), s.slicesUp = true ∧ (4 ≤ k ∨ 10 ≤ x ∨ s.pairState k x ≠ pairSelftest)) ∧
    (∃ (s : State), ∃ (g : Agent), ∃ (k : Nat), ∃ (v : Word), s.slicesUp = true ∧ k < 4) ∧
    (∃ (s : State), ∃ (g : Agent), ∃ (k : Nat), ∃ (v : Word), s.slicesUp = true ∧ (g ≠ Agent.keeper ∨ 4 ≤ k)) :=
  ⟨⟨wUp, 0, 16, false, by decide +kernel⟩,
   ⟨wUp, .keeper, 0, 0, by decide +kernel⟩,
   ⟨wUp, .keeper, 5, 0, by decide +kernel⟩⟩

def cipherWorkStartsAndEnds_2_s : State :=
  w1 (wCj 0x20 1) F.RNG_STATUS_STATE 2

def cipherWorkStartsAndEnds_7_s : State :=
  w1 (wCj 0x21 1) F.RNG_STATUS_STATE 2

def cipherWorkStartsAndEnds_12_s : State :=
  w1 (wCj 0x22 7) F.RNG_STATUS_STATE 2

def cipherWorkStartsAndEnds_17_s : State :=
  w1 (wCj 0x23 7) F.RNG_STATUS_STATE 2

def cipherWorkStartsAndEnds_23_s : State :=
  wStart wRing (wJob 0x24 43 0)

def cipherWorkStartsAndEnds_24_s : State :=
  w1 (wStart wRingK (wJob 0x24 44 0)) F.RNG_STATUS_STATE 2

def cipherWorkStartsAndEnds_25_s : State :=
  wStart wRing (wJob 0x24 44 0)

def cipherWorkStartsAndEnds_26_s : State :=
  wStart wRingK (wJob 0x24 44 0 [0x100 + 65536 * 9, 0x1000])

def cipherWorkStartsAndEnds_30_s : State :=
  wStart wRingK (wJob 0x25 0 0 [65536 * 9])

def cipherWorkStartsAndEnds_31_s : State :=
  w1 (wStart wRingK (wJob 0x25 0 0 [65536 * 9])) F.RNG_STATUS_STATE 2

def cipherWorkStartsAndEnds_32_s : State :=
  wStart wRingK (wJob 0x26 65537 0)

def cipherWorkStartsAndEnds_33_s : State :=
  w1 (wStart wRingK (wJob 0x26 32 0)) F.RNG_STATUS_STATE 2

def cipherWorkStartsAndEnds_34_s : State :=
  w1 (wStart wRingK (wJob 0x26 32 0)) F.RNG_STATUS_STATE 0

def cipherWorkStartsAndEnds_35_s : State :=
  wStart wRingK (wJob 0x26 32 0 [0, 0x1000])

def cipherWorkStartsAndEnds_36_s : State :=
  wStart wRingK (wJob 0x26 32 0 [0, 2 ^ 62])

def cipherWorkStartsAndEnds_39_s : State :=
  wXf 2 0 (List.replicate 34 0 ++ [0,0,0,1,0,0,0,9] ++ List.replicate 40 0) wEsp

def cipherWorkStartsAndEnds_40_s : State :=
  { wXf 4 3 wTlsD wTcp with cat.entries := [(5, 0)] }

def cipherWorkStartsAndEnds_45_s : State :=
  { wXf 4 3 wTlsD wTcp with cat.entries := [(5, 0)], cipher.inflight := [{ slice := 0, handle := 5, seq := 0, window := 0, jobs := 1 }] }

def cipherWorkStartsAndEnds_46_s : State :=
  w1 (wXf 1 0) F.RNG_STATUS_STATE 2

def cipherWorkStartsAndEnds_47_s : State :=
  w1 (wXf 3 0) F.RNG_STATUS_STATE 2

def cipherWorkStartsAndEnds_49_s : State :=
  { wXf 2 0 (List.replicate 100 0) wEsp with cipher.inflight := [{ slice := 0, handle := 5, seq := 100, window := 1, jobs := 1 }] }

def cipherWorkStartsAndEnds_51_s : State :=
  wPair (wCipherJob 0x20 1) (List.replicate 48 1)

def cipherWorkStartsAndEnds_52_s : State :=
  { wStart wRingK { wJob 0x20 48 0 [1 + 2048 + 256 + 16 * 65536, 2 ^ 62, 7, 0, 1, 0] with taken := true } with cipher.jobs := [{ id := 1, slice := 0, src := .ring 0 1, slot := 1, label := [], key := List.replicate 64 4, data := List.replicate 48 1, pair := some 0 }] }

def cipherWorkStartsAndEnds_53_s : State :=
  wPair (wCipherJob 0x23 7) (List.replicate 48 1)

def cipherWorkStartsAndEnds_54_s : State :=
  wPair (wCipherJob 0x20 1) (List.replicate 48 1)

/-- Ring cipher jobs, bound keys, random fills and inline transforms: clauses 0, 1, 2, 4, 5, 6, 7, 9, 10, 11. -/
theorem witness_CipherWorkStartsAndEnds_a :
    (∃ (s : State), ∃ (k : Nat), ∃ (q : Nat), s.slicesUp = true ∧ s.jobFor k q 32 = none) ∧
    (∃ (s : State), ∃ (k : Nat), ∃ (q : Nat), s.slicesUp = true ∧ ∃ (j : RJob), s.jobFor k q 32 = some j ∧ ∃ (st : Nat), j.cipherCheck = some st ∧ True) ∧
    (∃ (s : State), ∃ (k : Nat), ∃ (q : Nat), s.slicesUp = true ∧ ∃ (j : RJob), s.jobFor k q 32 = some j ∧ j.cipherCheck = none ∧ ∃ (st : Nat), s.cipherDown k = some st ∧ True) ∧
    (∃ (s : State), ∃ (k : Nat), ∃ (q : Nat), s.slicesUp = true ∧ s.cipherDown k = none ∧ ∃ (j : RJob), s.jobFor k q 32 = some j ∧ j.cipherCheck = none ∧ ∃ (s1 : State), ∃ (data : List Byte), s.dmaGather k (s.srInst k q) (s.jobOp 5 j) j.bufs = (s1, DmaRes.ok data) ∧ ∃ (s2 : State), ∃ (key : List Byte), s1.needKey k (2 * j.id + 1) j.cSlot (s1.jobLabel j) = (s2, KeyRes.ready key) ∧ (j.cMode = modeXts → List.take 32 key ≠ List.take 32 (List.drop 32 key)) ∧ s2.queueFull k = false ∧ ∃ (s3 : State), s2.getTag k (s.srInst k q) (s2.jobDeadline j) j.id = (s3, true) ∧ True) ∧
    (∃ (s : State), ∃ (k : Nat), ∃ (q : Nat), s.slicesUp = true ∧ s.jobFor k q 33 = none) ∧
    (∃ (s : State), ∃ (k : Nat), ∃ (q : Nat), s.slicesUp = true ∧ ∃ (j : RJob), s.jobFor k q 33 = some j ∧ ∃ (st : Nat), j.cipherCheck = some st ∧ True) ∧
    (∃ (s : State), ∃ (k : Nat), ∃ (q : Nat), s.slicesUp = true ∧ ∃ (j : RJob), s.jobFor k q 33 = some j ∧ j.cipherCheck = none ∧ ∃ (st : Nat), s.cipherDown k = some st ∧ True) ∧
    (∃ (s : State), ∃ (k : Nat), ∃ (q : Nat), s.slicesUp = true ∧ s.cipherDown k = none ∧ ∃ (j : RJob), s.jobFor k q 33 = some j ∧ j.cipherCheck = none ∧ ∃ (s1 : State), ∃ (data : List Byte), s.dmaGather k (s.srInst k q) (s.jobOp 5 j) j.bufs = (s1, DmaRes.ok data) ∧ ∃ (s2 : State), ∃ (key : List Byte), s1.needKey k (2 * j.id + 1) j.cSlot (s1.jobLabel j) = (s2, KeyRes.ready key) ∧ (j.cMode = modeXts → List.take 32 key ≠ List.take 32 (List.drop 32 key)) ∧ s2.queueFull k = false ∧ ∃ (s3 : State), s2.getTag k (s.srInst k q) (s2.jobDeadline j) j.id = (s3, true) ∧ True) ∧
    (∃ (s : State), ∃ (k : Nat), ∃ (q : Nat), s.slicesUp = true ∧ s.jobFor k q 34 = none) ∧
    (∃ (s : State), ∃ (k : Nat), ∃ (q : Nat), s.slicesUp = true ∧ ∃ (j : RJob), s.jobFor k q 34 = some j ∧ ∃ (st : Nat), j.cipherCheck = some st ∧ True) :=
  ⟨⟨wCj 0x20 0, 0, 1, by decide +kernel⟩,
   ⟨wCj 0x20 0, 0, 0, chk (dA inferInstance (dSome fun _ => (dSome fun _ => inferInstance))) (by decide +kernel)⟩,
   ⟨cipherWorkStartsAndEnds_2_s, 0, 0, chk (dA inferInstance (dSome fun _ => (dA inferInstance (dSome fun _ => inferInstance)))) (by decide +kernel)⟩,
   ⟨wCj 0x20 1, 0, 0, chk (dA inferInstance (dA inferInstance (dSome fun _ => (dA inferInstance (dOkD fun _ _ => (dPR fun _ _ => (dA inferInstance (dA inferInstance (dPC fun _ => inferInstance))))))))) (by decide +kernel)⟩,
   ⟨wCj 0x20 0, 0, 0, by decide +kernel⟩,
   ⟨wCj 0x21 0, 0, 0, chk (dA inferInstance (dSome fun _ => (dSome fun _ => inferInstance))) (by decide +kernel)⟩,
   ⟨cipherWorkStartsAndEnds_7_s, 0, 0, chk (dA inferInstance (dSome fun _ => (dA inferInstance (dSome fun _ => inferInstance)))) (by decide +kernel)⟩,
   ⟨wCj 0x21 1, 0, 0, chk (dA inferInstance (dA inferInstance (dSome fun _ => (dA inferInstance (dOkD fun _ _ => (dPR fun _ _ => (dA inferInstance (dA inferInstance (dPC fun _ => inferInstance))))))))) (by decide +kernel)⟩,
   ⟨wCj 0x20 0, 0, 0, by decide +kernel⟩,
   ⟨wCj 0x22 1, 0, 0, chk (dA inferInstance (dSome fun _ => (dSome fun _ => inferInstance))) (by decide +kernel)⟩⟩

/-- Ring cipher jobs, bound keys, random fills and inline transforms: clauses 12, 14, 15, 16, 17, 19, 20, 21, 22, 23. -/
theorem witness_CipherWorkStartsAndEnds_b :
    (∃ (s : State), ∃ (k : Nat), ∃ (q : Nat), s.slicesUp = true ∧ ∃ (j : RJob), s.jobFor k q 34 = some j ∧ j.cipherCheck = none ∧ ∃ (st : Nat), s.cipherDown k = some st ∧ True) ∧
    (∃ (s : State), ∃ (k : Nat), ∃ (q : Nat), s.slicesUp = true ∧ s.cipherDown k = none ∧ ∃ (j : RJob), s.jobFor k q 34 = some j ∧ j.cipherCheck = none ∧ ∃ (s1 : State), ∃ (data : List Byte), s.dmaGather k (s.srInst k q) (s.jobOp 5 j) j.bufs = (s1, DmaRes.ok data) ∧ ∃ (s2 : State), ∃ (key : List Byte), s1.needKey k (2 * j.id + 1) j.cSlot (s1.jobLabel j) = (s2, KeyRes.ready key) ∧ (j.cMode = modeXts → List.take 32 key ≠ List.take 32 (List.drop 32 key)) ∧ s2.queueFull k = false ∧ ∃ (s3 : State), s2.getTag k (s.srInst k q) (s2.jobDeadline j) j.id = (s3, true) ∧ True) ∧
    (∃ (s : State), ∃ (k : Nat), ∃ (q : Nat), s.slicesUp = true ∧ s.jobFor k q 35 = none) ∧
    (∃ (s : State), ∃ (k : Nat), ∃ (q : Nat), s.slicesUp = true ∧ ∃ (j : RJob), s.jobFor k q 35 = some j ∧ ∃ (st : Nat), j.cipherCheck = some st ∧ True) ∧
    (∃ (s : State), ∃ (k : Nat), ∃ (q : Nat), s.slicesUp = true ∧ ∃ (j : RJob), s.jobFor k q 35 = some j ∧ j.cipherCheck = none ∧ ∃ (st : Nat), s.cipherDown k = some st ∧ True) ∧
    (∃ (s : State), ∃ (k : Nat), ∃ (q : Nat), s.slicesUp = true ∧ s.cipherDown k = none ∧ ∃ (j : RJob), s.jobFor k q 35 = some j ∧ j.cipherCheck = none ∧ ∃ (s1 : State), ∃ (data : List Byte), s.dmaGather k (s.srInst k q) (s.jobOp 5 j) j.bufs = (s1, DmaRes.ok data) ∧ ∃ (s2 : State), ∃ (key : List Byte), s1.needKey k (2 * j.id + 1) j.cSlot (s1.jobLabel j) = (s2, KeyRes.ready key) ∧ (j.cMode = modeXts → List.take 32 key ≠ List.take 32 (List.drop 32 key)) ∧ s2.queueFull k = false ∧ ∃ (s3 : State), s2.getTag k (s.srInst k q) (s2.jobDeadline j) j.id = (s3, true) ∧ True) ∧
    (∃ (s : State), ∃ (k : Nat), ∃ (q : Nat), s.slicesUp = true ∧ s.jobFor k q 36 = none) ∧
    (∃ (s : State), ∃ (k : Nat), ∃ (q : Nat), s.slicesUp = true ∧ s.jobFor k q 37 = none) ∧
    (∃ (s : State), ∃ (k : Nat), ∃ (q : Nat), s.slicesUp = true ∧ s.jobFor k q 38 = none) ∧
    (∃ (s : State), ∃ (k : Nat), ∃ (q : Nat), s.slicesUp = true ∧ ∃ (j : RJob), s.jobFor k q 36 = some j ∧ j.total ≠ 44) :=
  ⟨⟨cipherWorkStartsAndEnds_12_s, 0, 0, chk (dA inferInstance (dSome fun _ => (dA inferInstance (dSome fun _ => inferInstance)))) (by decide +kernel)⟩,
   ⟨wCj 0x22 7, 0, 0, chk (dA inferInstance (dA inferInstance (dSome fun _ => (dA inferInstance (dOkD fun _ _ => (dPR fun _ _ => (dA inferInstance (dA inferInstance (dPC fun _ => inferInstance))))))))) (by decide +kernel)⟩,
   ⟨wCj 0x20 0, 0, 0, by decide +kernel⟩,
   ⟨wCj 0x23 1, 0, 0, chk (dA inferInstance (dSome fun _ => (dSome fun _ => inferInstance))) (by decide +kernel)⟩,
   ⟨cipherWorkStartsAndEnds_17_s, 0, 0, chk (dA inferInstance (dSome fun _ => (dA inferInstance (dSome fun _ => inferInstance)))) (by decide +kernel)⟩,
   ⟨wCj 0x23 7, 0, 0, chk (dA inferInstance (dA inferInstance (dSome fun _ => (dA inferInstance (dOkD fun _ _ => (dPR fun _ _ => (dA inferInstance (dA inferInstance (dPC fun _ => inferInstance))))))))) (by decide +kernel)⟩,
   ⟨wCj 0x20 0, 0, 0, by decide +kernel⟩,
   ⟨wCj 0x20 0, 0, 0, by decide +kernel⟩,
   ⟨wCj 0x20 0, 0, 0, by decide +kernel⟩,
   ⟨cipherWorkStartsAndEnds_23_s, 0, 0, chk (dA inferInstance (dSome fun _ => inferInstance)) (by decide +kernel)⟩⟩

/-- Ring cipher jobs, bound keys, random fills and inline transforms: clauses 24, 25, 26, 29, 30, 31, 32, 33, 34, 35. -/
theorem witness_CipherWorkStartsAndEnds_c :
    (∃ (s : State), ∃ (k : Nat), ∃ (q : Nat), s.slicesUp = true ∧ ∃ (j : RJob), s.jobFor k q 36 = some j ∧ j.total = 44 ∧ ∃ (st : Nat), s.cipherDown k = some st ∧ True) ∧
    (∃ (s : State), ∃ (k : Nat), ∃ (q : Nat), s.slicesUp = true ∧ s.cipherDown k = none ∧ ∃ (j : RJob), s.jobFor k q 36 = some j ∧ j.total = 44 ∧ ∃ (st : Nat), s.keyRefused j.cSlot 1 = some st ∧ True) ∧
    (∃ (s : State), ∃ (k : Nat), ∃ (q : Nat), s.slicesUp = true ∧ s.cipherDown k = none ∧ ∃ (j : RJob), s.jobFor k q 36 = some j ∧ j.total = 44 ∧ s.keyRefused j.cSlot 1 = none ∧ s.maskReq? k (2 * j.id + 1) = none ∧ ∃ (s1 : State), ∃ (buf : List Byte), s.dmaGather k (s.srInst k q) (s.jobOp 5 j) j.bufs = (s1, DmaRes.ok buf) ∧ s1.rngState = rngOk) ∧
    (∃ (s : State), ∃ (k : Nat), ∃ (i : Nat), ∃ (l : List Byte), k < 4 ∧ l.length = 64) ∧
    (∃ (s : State), ∃ (k : Nat), ∃ (q : Nat), s.slicesUp = true ∧ s.cipherDown k = none ∧ ∃ (j : RJob), s.jobFor k q 37 = some j ∧ True) ∧
    (∃ (s : State), ∃ (k : Nat), ∃ (q : Nat), s.slicesUp = true ∧ ∃ (j : RJob), s.jobFor k q 37 = some j ∧ ∃ (st : Nat), s.cipherDown k = some st ∧ True) ∧
    (∃ (s : State), ∃ (k : Nat), ∃ (q : Nat), s.slicesUp = true ∧ ∃ (j : RJob), s.jobFor k q 38 = some j ∧ 65536 < j.total) ∧
    (∃ (s : State), ∃ (k : Nat), ∃ (q : Nat), s.slicesUp = true ∧ s.rngState = rngFailed ∧ ∃ (j : RJob), s.jobFor k q 38 = some j ∧ j.total ≤ 65536) ∧
    (∃ (s : State), ∃ (k : Nat), ∃ (q : Nat), s.slicesUp = true ∧ s.rngState = rngStartup ∧ ∃ (j : RJob), s.jobFor k q 38 = some j ∧ j.total ≤ 65536) ∧
    (∃ (s : State), ∃ (k : Nat), ∃ (q : Nat), s.slicesUp = true ∧ s.rngState = rngOk ∧ ∃ (j : RJob), s.jobFor k q 38 = some j ∧ j.total ≤ 65536 ∧ ∃ (s1 : State), ∃ (w : List Byte), (s.drbg k j.total).fst.dmaWrite k (s.srInst k q) j.cOut (s.jobOp 5 j) (List.map (Config.random s.freeCtr) (List.range j.total)) = (s1, DmaRes.ok w) ∧ True) :=
  ⟨⟨cipherWorkStartsAndEnds_24_s, 0, 0, chk (dA inferInstance (dSome fun _ => (dA inferInstance (dSome fun _ => inferInstance)))) (by decide +kernel)⟩,
   ⟨cipherWorkStartsAndEnds_25_s, 0, 0, chk (dA inferInstance (dA inferInstance (dSome fun _ => (dA inferInstance (dSome fun _ => inferInstance))))) (by decide +kernel)⟩,
   ⟨cipherWorkStartsAndEnds_26_s, 0, 0, chk (dA inferInstance (dA inferInstance (dSome fun _ => (dA inferInstance (dA inferInstance (dA inferInstance (dOkD fun _ _ => inferInstance))))))) (by decide +kernel)⟩,
   ⟨wCj 0x20 0, 0, 0, List.replicate 64 1, by decide +kernel⟩,
   ⟨cipherWorkStartsAndEnds_30_s, 0, 0, chk (dA inferInstance (dA inferInstance (dSome fun _ => inferInstance))) (by decide +kernel)⟩,
   ⟨cipherWorkStartsAndEnds_31_s, 0, 0, chk (dA inferInstance (dSome fun _ => (dSome fun _ => inferInstance))) (by decide +kernel)⟩,
   ⟨cipherWorkStartsAndEnds_32_s, 0, 0, chk (dA inferInstance (dSome fun _ => inferInstance)) (by decide +kernel)⟩,
   ⟨cipherWorkStartsAndEnds_33_s, 0, 0, chk (dA inferInstance (dA inferInstance (dSome fun _ => inferInstance))) (by decide +kernel)⟩,
   ⟨cipherWorkStartsAndEnds_34_s, 0, 0, chk (dA inferInstance (dA inferInstance (dSome fun _ => inferInstance))) (by decide +kernel)⟩,
   ⟨cipherWorkStartsAndEnds_35_s, 0, 0, chk (dA inferInstance (dA inferInstance (dSome fun _ => (dA inferInstance (dOkD fun _ _ => inferInstance))))) (by decide +kernel)⟩⟩

/-- Ring cipher jobs, bound keys, random fills and inline transforms: clauses 36, 37, 38, 39, 40, 41, 42, 43, 44, 45. -/
theorem witness_CipherWorkStartsAndEnds_d :
    (∃ (s : State), ∃ (k : Nat), ∃ (q : Nat), s.slicesUp = true ∧ s.rngState = rngOk ∧ ∃ (j : RJob), s.jobFor k q 38 = some j ∧ j.total ≤ 65536 ∧ ∃ (s1 : State), ∃ (st : Nat), (s.drbg k j.total).fst.dmaWrite k (s.srInst k q) j.cOut (s.jobOp 5 j) (List.map (Config.random s.freeCtr) (List.range j.total)) = (s1, DmaRes.fail st) ∧ True) ∧
    (∃ (s : State), ∃ (n : Nat), s.slicesUp = true ∧ ∃ (f : Frame), ∃ (r : CatRead), s.inlineFrame n xfEspOut = some (f, r) ∧ s.cipherDown f.slice = none ∧ ∃ (s1 : State), ∃ (key : List Byte), s.needKey f.slice (2 * f.id) (bitsOf r.entry 22 20) (inlineLabel r) = (s1, KeyRes.ready key) ∧ (s1.cipher.jobs.any fun (j : CipherJob) => decide (j.src = CipherSrc.inline f.id (entryXform r.entry))) = false ∧ s1.queueFull f.slice = false ∧ ∃ (s2 : State), s1.getTag f.slice noInst (s1.deadlineOf f.dlClass f.begun) (2 * f.id) = (s2, true) ∧ True) ∧
    (∃ (s : State), ∃ (n : Nat), s.slicesUp = true ∧ ∃ (f : Frame), ∃ (r : CatRead), s.inlineFrame n xfTlsOut = some (f, r) ∧ s.cipherDown f.slice = none ∧ ∃ (s1 : State), ∃ (key : List Byte), s.needKey f.slice (2 * f.id) (bitsOf r.entry 22 20) (inlineLabel r) = (s1, KeyRes.ready key) ∧ (s1.cipher.jobs.any fun (j : CipherJob) => decide (j.src = CipherSrc.inline f.id (entryXform r.entry))) = false ∧ s1.queueFull f.slice = false ∧ ∃ (s2 : State), s1.getTag f.slice noInst (s1.deadlineOf f.dlClass f.begun) (2 * f.id) = (s2, true) ∧ True) ∧
    (∃ (s : State), ∃ (n : Nat), s.slicesUp = true ∧ ∃ (f : Frame), ∃ (r : CatRead), s.inlineFrame n xfEspIn = some (f, r) ∧ s.cipherDown f.slice = none ∧ ∃ (s1 : State), ∃ (key : List Byte), s.needKey f.slice (2 * f.id) (bitsOf r.entry 22 20) (inlineLabel r) = (s1, KeyRes.ready key) ∧ (s1.cipher.jobs.any fun (j : CipherJob) => decide (j.src = CipherSrc.inline f.id (entryXform r.entry))) = false ∧ s1.queueFull f.slice = false ∧ ∃ (s2 : State), s1.getTag f.slice noInst (s1.deadlineOf f.dlClass f.begun) (2 * f.id) = (s2, true) ∧ ∃ (o : Nat), f.espOff = some o ∧ ∃ (e : InFlight), s.flightFor f.slice r = some e ∧ espReplay e.seq e.window (espSeq (entryEsn r.entry) e.seq (beAt f.data (o + 4) 4)) = false ∧ e.inbound.contains (espSeq (entryEsn r.entry) e.seq (beAt f.data (o + 4) 4)) = false) ∧
    (∃ (s : State), ∃ (n : Nat), s.slicesUp = true ∧ ∃ (f : Frame), ∃ (r : CatRead), s.inlineFrame n xfTlsIn = some (f, r) ∧ s.cipherDown f.slice = none ∧ s.flight? f.slice r.handle = none ∧ (s.cipher.jobs.any fun (j : CipherJob) => decide (j.slice = f.slice ∧ j.label = inlineLabel r)) = false ∧ ∃ (s1 : State), ∃ (key : List Byte), s.needKey f.slice (2 * f.id) (bitsOf r.entry 22 20) (inlineLabel r) = (s1, KeyRes.ready key) ∧ (s1.cipher.jobs.any fun (j : CipherJob) => decide (j.src = CipherSrc.inline f.id (entryXform r.entry))) = false ∧ s1.queueFull f.slice = false ∧ ∃ (s2 : State), s1.getTag f.slice noInst (s1.deadlineOf f.dlClass f.begun) (2 * f.id) = (s2, true) ∧ ∃ (pn : Nat × Nat), s.tlsRecord f r = some pn ∧ True) ∧
    (∃ (s : State), ∃ (n : Nat), s.slicesUp = true ∧ s.inlineFrame n xfEspOut = none) ∧
    (∃ (s : State), ∃ (n : Nat), s.slicesUp = true ∧ s.inlineFrame n xfEspIn = none) ∧
    (∃ (s : State), ∃ (n : Nat), s.slicesUp = true ∧ s.inlineFrame n xfTlsOut = none) ∧
    (∃ (s : State), ∃ (n : Nat), s.slicesUp = true ∧ s.inlineFrame n xfTlsIn = none) ∧
    (∃ (s : State), ∃ (n : Nat), s.slicesUp = true ∧ ∃ (f : Frame), ∃ (r : CatRead), s.inlineFrame n xfTlsIn = some (f, r) ∧ ((s.flight? f.slice r.handle).isSome = true ∨ s.flightFor f.slice r = none)) :=
  ⟨⟨cipherWorkStartsAndEnds_36_s, 0, 0, chk (dA inferInstance (dA inferInstance (dSome fun _ => (dA inferInstance (dFailD fun _ _ => inferInstance))))) (by decide +kernel)⟩,
   ⟨wXf 1 0, 1, chk (dA inferInstance (dSome2 fun _ _ => (dA inferInstance (dPR fun _ _ => (dA inferInstance (dA inferInstance (dPC fun _ => inferInstance))))))) (by decide +kernel)⟩,
   ⟨wXf 3 0, 1, chk (dA inferInstance (dSome2 fun _ _ => (dA inferInstance (dPR fun _ _ => (dA inferInstance (dA inferInstance (dPC fun _ => inferInstance))))))) (by decide +kernel)⟩,
   ⟨cipherWorkStartsAndEnds_39_s, 1, chk (dA inferInstance (dSome2 fun _ _ => (dA inferInstance (dPR fun _ _ => (dA inferInstance (dA inferInstance (dPC fun _ => (dSome fun _ => (dSome fun _ => inferInstance))))))))) (by decide +kernel)⟩,
   ⟨cipherWorkStartsAndEnds_40_s, 1, chk (dA inferInstance (dSome2 fun _ _ => (dA inferInstance (dA inferInstance (dA inferInstance (dPR fun _ _ => (dA inferInstance (dA inferInstance (dPC fun _ => (dSome fun _ => inferInstance)))))))))) (by decide +kernel)⟩,
   ⟨wCj 0x20 0, 1, by decide +kernel⟩,
   ⟨wCj 0x20 0, 1, by decide +kernel⟩,
   ⟨wCj 0x20 0, 1, by decide +kernel⟩,
   ⟨wCj 0x20 0, 1, by decide +kernel⟩,
   ⟨cipherWorkStartsAndEnds_45_s, 1, chk (dA inferInstance (dSome2 fun _ _ => inferInstance)) (by decide +kernel)⟩⟩

/-- Ring cipher jobs, bound keys, random fills and inline transforms: clauses 46, 47, 48, 49, 50, 51, 52, 53, 54, 55. -/
theorem witness_CipherWorkStartsAndEnds_e :
    (∃ (s : State), ∃ (n : Nat), s.slicesUp = true ∧ (s.eth.egress.any fun (x : Egress) => decide (x.frame = n)) = false ∧ ∃ (f : Frame), ∃ (r : CatRead), s.inlineFrame n xfEspOut = some (f, r) ∧ f.id = n ∧ f.cells = [] ∧ f.slice < 4 ∧ ∃ (st : Nat), s.cipherDown f.slice = some st ∧ True) ∧
    (∃ (s : State), ∃ (n : Nat), s.slicesUp = true ∧ (s.eth.egress.any fun (x : Egress) => decide (x.frame = n)) = false ∧ ∃ (f : Frame), ∃ (r : CatRead), s.inlineFrame n xfTlsOut = some (f, r) ∧ f.id = n ∧ f.cells = [] ∧ f.slice < 4 ∧ ∃ (st : Nat), s.cipherDown f.slice = some st ∧ True) ∧
    (∃ (s : State), ∃ (n : Nat), s.slicesUp = true ∧ (s.eth.egress.any fun (x : Egress) => decide (x.frame = n)) = false ∧ ∃ (f : Frame), ∃ (r : CatRead), s.inlineFrame n xfEspIn = some (f, r) ∧ f.id = n ∧ f.slice < 4 ∧ f.cells = [] ∧ f.espOff = none) ∧
    (∃ (s : State), ∃ (n : Nat), s.slicesUp = true ∧ (s.eth.egress.any fun (x : Egress) => decide (x.frame = n)) = false ∧ ∃ (f : Frame), ∃ (r : CatRead), s.inlineFrame n xfEspIn = some (f, r) ∧ f.id = n ∧ f.slice < 4 ∧ f.cells = [] ∧ ∃ (o : Nat), f.espOff = some o ∧ ∃ (e : InFlight), s.flightFor f.slice r = some e ∧ (espReplay e.seq e.window (espSeq (entryEsn r.entry) e.seq (beAt f.data (o + 4) 4)) = true ∨ e.inbound.contains (espSeq (entryEsn r.entry) e.seq (beAt f.data (o + 4) 4)) = true)) ∧
    (∃ (s : State), ∃ (n : Nat), ∃ (k : Nat), ∃ (p : Nat), s.slicesUp = true ∧ ∃ (f : Frame), ∃ (r : CatRead), s.inlineFrame n xfTlsIn = some (f, r) ∧ f.id = n ∧ f.origin = Origin.eth k p ∧ f.looked = some r ∧ f.floodTo = none ∧ f.fed = none ∧ bitsOf r.entry 3 1 = 3 ∧ f.poisoned = false ∧ s.flight? f.slice r.handle = none ∧ (s.flightFor f.slice r).isSome = true ∧ (s.cipher.jobs.any fun (j : CipherJob) => decide (j.slice = f.slice ∧ j.label = inlineLabel r)) = false ∧ s.tlsRecord f r = none ∧ f.whole = true) ∧
    (∃ (s : State), ∃ (k : Nat), ∃ (x : Nat), ∃ (q : Nat), ∃ (id : Nat), s.slicesUp = true ∧ k < 4 ∧ x < 10 ∧ ∃ (j : CipherJob), List.find? (fun (j : CipherJob) => decide (j.slice = k ∧ j.pair = some x)) s.cipher.jobs = some j ∧ j.src = CipherSrc.ring q id ∧ ∃ (r : RJob), s.jobById k q id = some r ∧ ∃ (out : List Byte), cipherOutput r j.key j.data = Except.ok out ∧ ∃ (s1 : State), ∃ (w : List Byte), s.dmaWrite k (s.srInst k q) r.cOut (s.jobOp 5 r) out = (s1, DmaRes.ok w) ∧ True) ∧
    (∃ (s : State), ∃ (k : Nat), ∃ (x : Nat), ∃ (q : Nat), ∃ (id : Nat), s.slicesUp = true ∧ k < 4 ∧ x < 10 ∧ ∃ (j : CipherJob), List.find? (fun (j : CipherJob) => decide (j.slice = k ∧ j.pair = some x)) s.cipher.jobs = some j ∧ j.src = CipherSrc.ring q id ∧ ∃ (r : RJob), s.jobById k q id = some r ∧ ∃ (out : List Byte), cipherOutput r j.key j.data = Except.ok out ∧ ∃ (s1 : State), ∃ (st : Nat), s.dmaWrite k (s.srInst k q) r.cOut (s.jobOp 5 r) out = (s1, DmaRes.fail st) ∧ True) ∧
    (∃ (s : State), ∃ (k : Nat), ∃ (x : Nat), ∃ (q : Nat), ∃ (id : Nat), s.slicesUp = true ∧ k < 4 ∧ x < 10 ∧ ∃ (j : CipherJob), List.find? (fun (j : CipherJob) => decide (j.slice = k ∧ j.pair = some x)) s.cipher.jobs = some j ∧ j.src = CipherSrc.ring q id ∧ ∃ (r : RJob), s.jobById k q id = some r ∧ ∃ (st : Nat), cipherOutput r j.key j.data = Except.error st ∧ True) ∧
    (∃ (s : State), ∃ (k : Nat), ∃ (x : Nat), ∃ (q : Nat), ∃ (id : Nat), s.slicesUp = true ∧ k < 4 ∧ x < 10 ∧ s.cipher.alarms = [] ∧ ∃ (j : CipherJob), List.find? (fun (j : CipherJob) => decide (j.slice = k ∧ j.pair = some x)) s.cipher.jobs = some j ∧ j.src = CipherSrc.ring q id ∧ ∃ (r : RJob), s.jobById k q id = some r ∧ True) ∧
    (∃ (s : State), ∃ (k : Nat), ∃ (x : Nat), s.slicesUp = true ∧ List.find? (fun (j : CipherJob) => decide (j.slice = k ∧ j.pair = some x)) s.cipher.jobs = none) :=
  ⟨⟨cipherWorkStartsAndEnds_46_s, 1, chk (dA inferInstance (dA inferInstance (dSome2 fun _ _ => (dA inferInstance (dA inferInstance (dA inferInstance (dSome fun _ => inferInstance))))))) (by decide +kernel)⟩,
   ⟨cipherWorkStartsAndEnds_47_s, 1, chk (dA inferInstance (dA inferInstance (dSome2 fun _ _ => (dA inferInstance (dA inferInstance (dA inferInstance (dSome fun _ => inferInstance))))))) (by decide +kernel)⟩,
   ⟨wXf 2 0, 1, chk (dA inferInstance (dA inferInstance (dSome2 fun _ _ => inferInstance))) (by decide +kernel)⟩,
   ⟨cipherWorkStartsAndEnds_49_s, 1, chk (dA inferInstance (dA inferInstance (dSome2 fun _ _ => (dA inferInstance (dA inferInstance (dA inferInstance (dSome fun _ => (dSome fun _ => inferInstance)))))))) (by decide +kernel)⟩,
   ⟨wXf 4 3, 1, 0, 0, chk (dA inferInstance (dSome2 fun _ _ => inferInstance)) (by decide +kernel)⟩,
   ⟨cipherWorkStartsAndEnds_51_s, 0, 0, 0, 1, chk (dA inferInstance (dA inferInstance (dA inferInstance (dSome fun _ => (dA inferInstance (dSome fun _ => (dEok fun _ => (dOkD fun _ _ => inferInstance)))))))) (by decide +kernel)⟩,
   ⟨cipherWorkStartsAndEnds_52_s, 0, 0, 0, 1, chk (dA inferInstance (dA inferInstance (dA inferInstance (dSome fun _ => (dA inferInstance (dSome fun _ => (dEok fun _ => (dFailD fun _ _ => inferInstance)))))))) (by decide +kernel)⟩,
   ⟨cipherWorkStartsAndEnds_53_s, 0, 0, 0, 1, chk (dA inferInstance (dA inferInstance (dA inferInstance (dSome fun _ => (dA inferInstance (dSome fun _ => (dEer fun _ => inferInstance))))))) (by decide +kernel)⟩,
   ⟨cipherWorkStartsAndEnds_54_s, 0, 0, 0, 1, chk (dA inferInstance (dA inferInstance (dA inferInstance (dA inferInstance (dSome fun _ => (dA inferInstance (dSome fun _ => inferInstance))))))) (by decide +kernel)⟩,
   ⟨wCj 0x20 0, 0, 0, by decide +kernel⟩⟩

/-- Ring cipher jobs, bound keys, random fills and inline transforms: clauses 56. -/
theorem witness_CipherWorkStartsAndEnds_f :
    ∃ (s : State), ∃ (k : Nat), ∃ (x : Nat), s.slicesUp = true ∧ List.find? (fun (j : CipherJob) => decide (j.slice = k ∧ j.pair = some x)) s.cipher.jobs = none :=
  ⟨wCj 0x20 0, 0, 0, by decide +kernel⟩

end Sys2Proof.Tests
end

