-- ==== Sys2Proof/Tests/WitnessCores.lean ====
section
/-!
SUPPORT. Witnesses: a state and operands that meet the hypotheses of each clause of the statements named, together.
-/

set_option linter.unusedVariables false
set_option Elab.async false
set_option maxRecDepth 100000

namespace Sys2Proof.Tests
open Sys2Proof.Machine

def timeSourcesAndDiscipline_12_s : State :=
  { wF wUp [(F.FT_SRC_SEL_PRIMARY, 1)] with time.ptpDelayMech := 2, time.ptp := [{ port := 0, peerRx := some 7 }] }

def timeSourcesAndDiscipline_12_m : PtpMsg :=
  { kind := 10, domain := 0, transport := 0, seq := 0 }

def timeSourcesAndDiscipline_14_s : State :=
  wUp.setFld F.FT_SRC_SEL_PRIMARY 2

def timeSourcesAndDiscipline_14_x : PtpPort :=
  { port := 0 }

def timeSourcesAndDiscipline_15_s : State :=
  wUp.setFld F.FT_SRC_SEL_PRIMARY 2

def timeSourcesAndDiscipline_15_x : PtpPort :=
  { port := 0, delay := some 9 }

def timeSourcesAndDiscipline_16_s : State :=
  wUp.setFld F.FT_SRC_SEL_PRIMARY 2

def timeSourcesAndDiscipline_17_s : State :=
  wUp.setFld F.FT_SRC_SEL_PRIMARY 2

def timeSourcesAndDiscipline_18_s : State :=
  wUp.setFld F.FT_SRC_SEL_PRIMARY 2

def timeSourcesAndDiscipline_36_s : State :=
  (({ wUp with time.valid := [((2, 0), 0)], time.onBackup := true, time.mono := 96000000000 }.setFld F.FT_SRC_SEL_PRIMARY 2).setFld F.FT_STATUS_STATE 2)

/-- Time sources, their measurements, their loss, and steps: clauses 0, 1, 2, 3, 4, 5, 6, 7, 8, 9. -/
theorem witness_TimeSourcesAndDiscipline_a :
    (∃ (s : State), ∃ (up : Bool), ∃ (n : Nat), s.running = true ∧ (up = false ∨ s.ppsSelected = false)) ∧
    (∃ (s : State), ∃ (n : Nat), s.running = true ∧ s.ppsSelected = true ∧ s.time.ppsSeen = false) ∧
    (∃ (s : State), ∃ (n : Nat), s.running = true ∧ s.ppsSelected = true ∧ s.time.ppsSeen = true ∧ (n < 9999900 ∨ 10000100 < n ∨ s.ftState = 2 ∧ 80000 < s.ppsBoundary.snd.natAbs)) ∧
    (∃ (s : State), ∃ (n : Nat), s.running = true ∧ s.ppsSelected = true ∧ s.time.ppsSeen = true ∧ 9999900 ≤ n ∧ n ≤ 10000100 ∧ ¬(s.ftState = 2 ∧ 80000 < s.ppsBoundary.snd.natAbs) ∧ s.on F.FT_PPS_NEXT_SEC_VALID = false ∧ s.srcInUse.fst ≠ 2 ∧ (s.backKey.fst ≠ 2 ∨ s.ftState = 1 ∨ s.ftState = 2) ∧ (s.primKey.fst ≠ 2 ∨ s.ftState = 1 ∨ s.ftState = 2)) ∧
    (∃ (s : State), ∃ (n : Nat), s.running = true ∧ s.ppsSelected = true ∧ s.time.ppsSeen = true ∧ 9999900 ≤ n ∧ n ≤ 10000100 ∧ ¬(s.ftState = 2 ∧ 80000 < s.ppsBoundary.snd.natAbs) ∧ s.on F.FT_PPS_NEXT_SEC_VALID = false ∧ s.srcInUse = (2, 0) ∧ (s.ftState = 1 ∨ s.ftState = 2) ∧ s.srcValid (2, 0) = true) ∧
    (∃ (s : State), ∃ (p : Nat), ∃ (m : PtpMsg), s.running = true ∧ (¬(s.primKey = (1, p) ∨ s.backKey = (1, p)) ∨ m.domain ≠ s.time.ptpDomain ∨ m.transport ≠ s.time.ptpTransport)) ∧
    (∃ (s : State), ∃ (p : Nat), ∃ (m : PtpMsg), s.running = true ∧ (s.primKey = (1, p) ∨ s.backKey = (1, p)) ∧ m.domain = s.time.ptpDomain ∧ m.transport = s.time.ptpTransport ∧ m.kind = 11) ∧
    (∃ (s : State), ∃ (p : Nat), ∃ (m : PtpMsg), s.running = true ∧ (s.primKey = (1, p) ∨ s.backKey = (1, p)) ∧ m.domain = s.time.ptpDomain ∧ m.transport = s.time.ptpTransport ∧ m.kind = 0 ∧ m.twoStep = true) ∧
    (∃ (s : State), ∃ (p : Nat), ∃ (m : PtpMsg), s.running = true ∧ (s.primKey = (1, p) ∨ s.backKey = (1, p)) ∧ m.domain = s.time.ptpDomain ∧ m.transport = s.time.ptpTransport ∧ m.kind = 0 ∧ m.twoStep = false) ∧
    (∃ (s : State), ∃ (p : Nat), ∃ (m : PtpMsg), s.running = true ∧ (s.primKey = (1, p) ∨ s.backKey = (1, p)) ∧ m.domain = s.time.ptpDomain ∧ m.transport = s.time.ptpTransport ∧ m.kind = 8 ∧ (s.ptpOf p).wait = true ∧ m.seq = (s.ptpOf p).syncSeq) :=
  ⟨⟨wUp.setFld F.FT_SRC_SEL_PRIMARY 2, false, 9999899, by decide +kernel⟩,
   ⟨wUp.setFld F.FT_SRC_SEL_PRIMARY 2, 9999899, by decide +kernel⟩,
   (by refine ⟨{ wUp with time.ppsSeen := true }.setFld F.FT_SRC_SEL_PRIMARY 2, 9999899, ?_⟩; decide +kernel),
   (by refine ⟨{ wF wUp [(F.FT_SRC_SEL_PRIMARY, 2), (F.FT_STATUS_STATE, 1)] with time.ppsSeen := true, time.valid := [((2, 0), 0), ((4, 0), 0)], time.onBackup := true }, 10000000, ?_⟩; decide +kernel),
   (by refine ⟨{ wF wUp [(F.FT_SRC_SEL_PRIMARY, 2), (F.FT_STATUS_STATE, 1)] with time.ppsSeen := true, time.valid := [((2, 0), 0)] }, 10000000, ?_⟩; decide +kernel),
   (by refine ⟨wUp.setFld F.FT_SRC_SEL_PRIMARY 2, 0, { kind := 0, domain := 0, transport := 0, seq := 0, twoStep := true }, ?_⟩; decide +kernel),
   (by refine ⟨wUp.setFld F.FT_SRC_SEL_PRIMARY 1, 0, { kind := 11, domain := 0, transport := 0, seq := 0 }, ?_⟩; decide +kernel),
   (by refine ⟨wUp.setFld F.FT_SRC_SEL_PRIMARY 1, 0, { kind := 0, domain := 0, transport := 0, seq := 0, twoStep := true }, ?_⟩; decide +kernel),
   (by refine ⟨wUp.setFld F.FT_SRC_SEL_PRIMARY 1, 0, { kind := 0, domain := 0, transport := 0, seq := 0 }, ?_⟩; decide +kernel),
   (by refine ⟨{ wF wUp [(F.FT_SRC_SEL_PRIMARY, 1)] with time.ptp := [{ port := 0, wait := true }] }, 0, { kind := 8, domain := 0, transport := 0, seq := 0 }, ?_⟩; decide +kernel)⟩

/-- Time sources, their measurements, their loss, and steps: clauses 10, 11, 12, 13, 14, 15, 16, 17, 18, 19. -/
theorem witness_TimeSourcesAndDiscipline_b :
    (∃ (s : State), ∃ (p : Nat), ∃ (m : PtpMsg), s.running = true ∧ (s.primKey = (1, p) ∨ s.backKey = (1, p)) ∧ m.domain = s.time.ptpDomain ∧ m.transport = s.time.ptpTransport ∧ m.kind = 9 ∧ s.time.ptpDelayMech ≠ 2 ∧ m.seq = (s.ptpOf p).reqSeq) ∧
    (∃ (s : State), ∃ (p : Nat), ∃ (m : PtpMsg), s.running = true ∧ (s.primKey = (1, p) ∨ s.backKey = (1, p)) ∧ m.domain = s.time.ptpDomain ∧ m.transport = s.time.ptpTransport ∧ m.kind = 3 ∧ s.time.ptpDelayMech = 2 ∧ m.seq = (s.ptpOf p).reqSeq) ∧
    (∃ (s : State), ∃ (p : Nat), ∃ (m : PtpMsg), s.running = true ∧ (s.primKey = (1, p) ∨ s.backKey = (1, p)) ∧ m.domain = s.time.ptpDomain ∧ m.transport = s.time.ptpTransport ∧ m.kind = 10 ∧ s.time.ptpDelayMech = 2 ∧ m.seq = (s.ptpOf p).reqSeq ∧ ∃ (t2 : Int), (s.ptpOf p).peerRx = some t2 ∧ True) ∧
    (∃ (s : State), ∃ (p : Nat), ∃ (m : PtpMsg), s.running = true ∧ (s.primKey = (1, p) ∨ s.backKey = (1, p)) ∧ m.domain = s.time.ptpDomain ∧ m.transport = s.time.ptpTransport ∧ m.kind = 2 ∧ s.time.ptpDelayMech = 2) ∧
    (∃ (s : State), ∃ (x : PtpPort), ∃ (sentAt : Int), x.delay = none ∧ ∃ (y : PtpPort), { port := x.port, syncAt := x.syncAt, announceAt := x.announceAt, syncSeq := x.syncSeq, syncRx := x.syncRx, syncCorr := x.syncCorr, sentAt := sentAt, reqSeq := (x.reqSeq + 1) % 65536, reqTx := s.time.units, respRx := x.respRx, delay := x.delay } = y ∧ True) ∧
    (∃ (s : State), ∃ (x : PtpPort), ∃ (sentAt : Int), ∃ (y : PtpPort), { port := x.port, syncAt := x.syncAt, announceAt := x.announceAt, syncSeq := x.syncSeq, syncRx := x.syncRx, syncCorr := x.syncCorr, sentAt := sentAt, reqSeq := (x.reqSeq + 1) % 65536, reqTx := s.time.units, respRx := x.respRx, delay := x.delay } = y ∧ ∃ (d : Int), x.delay = some d ∧ True) ∧
    (∃ (s : State), ∃ (p : Nat), ∃ (no10M : Bool), s.running = true ∧ ∃ (c : Nat), 1 = c ∧ 1 ≤ c ∧ c ≤ 3) ∧
    (∃ (s : State), ∃ (p : Nat), ∃ (no10M : Bool), s.running = true ∧ ∃ (c : Nat), 2 = c ∧ 1 ≤ c ∧ c ≤ 3) ∧
    (∃ (s : State), ∃ (p : Nat), ∃ (no10M : Bool), s.running = true ∧ ∃ (c : Nat), 3 = c ∧ 1 ≤ c ∧ c ≤ 3) ∧
    (∃ (s : State), ∃ (c : Nat), ∃ (p : Nat), ∃ (no10M : Bool), s.running = true ∧ 1 ≤ c ∧ c ≤ 3 ∧ ((s.time.valid.any fun (e : (Nat × Nat) × Nat) => decide (e.fst = (c, if c = 1 then p else 0))) = false ∨ s.srcSilent c p no10M = false)) :=
  ⟨(by refine ⟨wUp.setFld F.FT_SRC_SEL_PRIMARY 1, 0, { kind := 9, domain := 0, transport := 0, seq := 0 }, ?_⟩; decide +kernel),
   (by refine ⟨{ wF wUp [(F.FT_SRC_SEL_PRIMARY, 1)] with time.ptpDelayMech := 2, time.ptp := [{ port := 0, peerRx := some 7 }] }, 0, { kind := 3, domain := 0, transport := 0, seq := 0 }, ?_⟩; decide +kernel),
   ⟨timeSourcesAndDiscipline_12_s, 0, timeSourcesAndDiscipline_12_m, chk (dA inferInstance (dA inferInstance (dA inferInstance (dA inferInstance (dA inferInstance (dA inferInstance (dA inferInstance (dSome fun _ => inferInstance)))))))) (by decide +kernel)⟩,
   (by refine ⟨{ wF wUp [(F.FT_SRC_SEL_PRIMARY, 1)] with time.ptpDelayMech := 2, time.ptp := [{ port := 0, peerRx := some 7 }] }, 0, { kind := 2, domain := 0, transport := 0, seq := 0 }, ?_⟩; decide +kernel),
   ⟨timeSourcesAndDiscipline_14_s, timeSourcesAndDiscipline_14_x, 0, chk (dA inferInstance (dVar fun _ => inferInstance)) (by decide +kernel)⟩,
   ⟨timeSourcesAndDiscipline_15_s, timeSourcesAndDiscipline_15_x, 0, chk (dVar fun _ => (dSome fun _ => inferInstance)) (by decide +kernel)⟩,
   ⟨timeSourcesAndDiscipline_16_s, 0, true, chk (dA inferInstance (dVar fun _ => inferInstance)) (by decide +kernel)⟩,
   ⟨timeSourcesAndDiscipline_17_s, 0, true, chk (dA inferInstance (dVar fun _ => inferInstance)) (by decide +kernel)⟩,
   ⟨timeSourcesAndDiscipline_18_s, 0, true, chk (dA inferInstance (dVar fun _ => inferInstance)) (by decide +kernel)⟩,
   ⟨wUp.setFld F.FT_SRC_SEL_PRIMARY 2, 1, 0, true, by decide +kernel⟩⟩

/-- Time sources, their measurements, their loss, and steps: clauses 20, 21, 22, 23, 24, 25, 26, 27, 28, 29. -/
theorem witness_TimeSourcesAndDiscipline_c :
    (∃ (s : State), ∃ (c : Nat), ∃ (p : Nat), ∃ (no10M : Bool), s.running = true ∧ 1 ≤ c ∧ c ≤ 3 ∧ (s.time.valid.any fun (e : (Nat × Nat) × Nat) => decide (e.fst = (c, if c = 1 then p else 0))) = true ∧ s.srcSilent c p no10M = true ∧ s.srcInUse = (c, if c = 1 then p else 0) ∧ (s.primKey = (c, if c = 1 then p else 0) ∨ s.backKey = (c, if c = 1 then p else 0)) ∧ s.ftState = 1 ∧ (if s.time.onBackup = true then s.primKey else s.backKey).fst = 0) ∧
    (∃ (s : State), ∃ (c : Nat), ∃ (p : Nat), ∃ (no10M : Bool), s.running = true ∧ 1 ≤ c ∧ c ≤ 3 ∧ (s.time.valid.any fun (e : (Nat × Nat) × Nat) => decide (e.fst = (c, if c = 1 then p else 0))) = true ∧ s.srcSilent c p no10M = true ∧ s.srcInUse = (c, if c = 1 then p else 0) ∧ (s.primKey = (c, if c = 1 then p else 0) ∨ s.backKey = (c, if c = 1 then p else 0)) ∧ s.ftState = 2 ∧ (if s.time.onBackup = true then s.primKey else s.backKey).fst = 0) ∧
    (∃ (s : State), ∃ (c : Nat), ∃ (p : Nat), ∃ (no10M : Bool), s.running = true ∧ 1 ≤ c ∧ c ≤ 3 ∧ (s.time.valid.any fun (e : (Nat × Nat) × Nat) => decide (e.fst = (c, if c = 1 then p else 0))) = true ∧ s.srcSilent c p no10M = true ∧ s.srcInUse = (c, if c = 1 then p else 0) ∧ (s.primKey = (c, if c = 1 then p else 0) ∨ s.backKey = (c, if c = 1 then p else 0)) ∧ (s.ftState = 1 ∨ s.ftState = 2) ∧ (if s.time.onBackup = true then s.primKey else s.backKey).fst ≠ 4 ∧ (if s.time.onBackup = true then s.primKey else s.backKey) ≠ (c, if c = 1 then p else 0) ∧ s.srcValid (if s.time.onBackup = true then s.primKey else s.backKey) = true) ∧
    (∃ (s : State), ∃ (off : Int), s.ftState = 2 ∧ 8 * s.fld F.FT_UNLOCK_THRESH < off.natAbs) ∧
    (∃ (s : State), ∃ (off : Int), s.ftState = 2 ∧ 8 * s.fld F.FT_UNLOCK_THRESH < off.natAbs) ∧
    (∃ (s : State), ∃ (off : Int), s.ftState = 2 ∧ off.natAbs ≤ 8 * s.fld F.FT_UNLOCK_THRESH) ∧
    (∃ (s : State), ∃ (off : Int), s.ftState = 1 ∧ off.natAbs ≤ 8 * s.fld F.FT_LOCK_THRESH ∧ 15 ≤ s.time.smallRun) ∧
    (∃ (s : State), ∃ (off : Int), s.ftState = 1 ∧ off.natAbs ≤ 8 * s.fld F.FT_LOCK_THRESH ∧ 15 ≤ s.time.smallRun) ∧
    (∃ (s : State), ∃ (off : Int), s.ftState = 1 ∧ off.natAbs ≤ 8 * s.fld F.FT_LOCK_THRESH ∧ s.time.smallRun < 15) ∧
    (∃ (s : State), ∃ (off : Int), s.ftState = 1 ∧ off.natAbs ≤ 8 * s.fld F.FT_LOCK_THRESH ∧ s.time.smallRun < 15) :=
  ⟨(by refine ⟨({ wUp with time.valid := [((3, 0), 0)], time.mono := 80000000 }.setFld F.FT_SRC_SEL_PRIMARY 3).setFld F.FT_STATUS_STATE 1, 3, 0, true, ?_⟩; decide +kernel),
   (by refine ⟨{ wF wUp [(F.FT_SRC_SEL_PRIMARY, 1), (F.FT_STATUS_STATE, 2)] with time.valid := [((1, 0), 0)], time.mono := 96000000000 }, 1, 0, true, ?_⟩; decide +kernel),
   (by refine ⟨{ wF wUp [(F.FT_SRC_SEL_PRIMARY, 3), (F.FT_SRC_SEL_BACKUP, 2), (F.FT_CTRL_BACKUP_EN, 1), (F.FT_STATUS_STATE, 2)] with time.valid := [((3, 0), 0), ((2, 0), 0)], time.mono := 96000000000 }, 3, 0, false, ?_⟩; decide +kernel),
   (by refine ⟨(({ wUp with time.valid := [((2, 0), 0)], time.onBackup := true, time.mono := 96000000000 }.setFld F.FT_SRC_SEL_PRIMARY 2).setFld F.FT_STATUS_STATE 2), 20000, ?_⟩; decide +kernel),
   (by refine ⟨(({ wUp with time.valid := [((2, 0), 0)], time.onBackup := true, time.mono := 96000000000 }.setFld F.FT_SRC_SEL_PRIMARY 2).setFld F.FT_STATUS_STATE 2), 20000, ?_⟩; decide +kernel),
   (by refine ⟨(({ wUp with time.valid := [((2, 0), 0)], time.onBackup := true, time.mono := 96000000000 }.setFld F.FT_SRC_SEL_PRIMARY 2).setFld F.FT_STATUS_STATE 2), 1, ?_⟩; decide +kernel),
   (by refine ⟨{ wF wUp [(F.FT_STATUS_STATE, 1), (F.FT_LOCK_THRESH, 10), (F.FT_STEP_THRESH, 1000)] with time.smallRun := 15 }, 1, ?_⟩; decide +kernel),
   (by refine ⟨{ wF wUp [(F.FT_STATUS_STATE, 1), (F.FT_LOCK_THRESH, 10), (F.FT_STEP_THRESH, 1000)] with time.smallRun := 15 }, 1, ?_⟩; decide +kernel),
   (by refine ⟨({ wUp with time.valid := [((3, 0), 0)], time.mono := 80000000 }.setFld F.FT_SRC_SEL_PRIMARY 3).setFld F.FT_STATUS_STATE 1, 1, ?_⟩; decide +kernel),
   (by refine ⟨({ wUp with time.valid := [((3, 0), 0)], time.mono := 80000000 }.setFld F.FT_SRC_SEL_PRIMARY 3).setFld F.FT_STATUS_STATE 1, 1, ?_⟩; decide +kernel)⟩

/-- Time sources, their measurements, their loss, and steps: clauses 30, 31, 32, 33, 34, 35, 36, 37, 38, 39. -/
theorem witness_TimeSourcesAndDiscipline_d :
    (∃ (s : State), ∃ (off : Int), s.ftState = 1 ∧ 8 * s.fld F.FT_LOCK_THRESH < off.natAbs) ∧
    (∃ (s : State), ∃ (off : Int), s.ftState = 1 ∧ 8 * s.fld F.FT_LOCK_THRESH < off.natAbs) ∧
    (∃ (s : State), ∃ (off : Int), s.ftState = 1 ∧ 8 * s.fld F.FT_STEP_THRESH < off.natAbs ∧ s.on F.FT_CTRL_STEP_EN = true) ∧
    (∃ (s : State), ∃ (off : Int), 8 * s.fld F.FT_STEP_THRESH < off.natAbs ∧ s.on F.FT_CTRL_STEP_EN = false) ∧
    (∃ (s : State), s.running = true ∧ s.ftState = 3 ∧ s.time.holdSince + s.fld F.FT_HOLDOVER_LIMIT * ticksPerSec ≤ s.time.mono) ∧
    (∃ (s : State), s.running = true ∧ (s.ftState ≠ 3 ∨ s.time.mono < s.time.holdSince + s.fld F.FT_HOLDOVER_LIMIT * ticksPerSec)) ∧
    (∃ (s : State), ∃ (since : Nat), s.running = true ∧ s.time.onBackup = true ∧ (s.ftState = 1 ∨ s.ftState = 2) ∧ s.primKey.fst ≠ 4 ∧ s.srcValid s.primKey = true ∧ List.find? (fun (e : (Nat × Nat) × Nat) => decide (e.fst = s.primKey)) s.time.valid = some (s.primKey, since) ∧ since + 60 * ticksPerSec ≤ s.time.mono) ∧
    (∃ (s : State), ∃ (g : Agent), ∃ (v : Word), s.running = true ∧ accessOk R.FT_SRC_SEL true g = true ∧ ((((s.setFld F.FT_SRC_SEL_PRIMARY (wordFld v 0 3)).setFld F.FT_SRC_SEL_BACKUP (wordFld v 4 3)).setFld F.FT_SRC_SEL_PTP_PORT (wordFld v 8 5)).setFld F.FT_SRC_SEL_BACKUP_PTP_PORT (wordFld v 16 5)).rd R.FT_SRC_SEL ≠ s.rd R.FT_SRC_SEL) ∧
    (∃ (s : State), ∃ (g : Agent), ∃ (v : Word), s.running = true ∧ accessOk R.FT_SRC_SEL true g = true ∧ ((((s.setFld F.FT_SRC_SEL_PRIMARY (wordFld v 0 3)).setFld F.FT_SRC_SEL_BACKUP (wordFld v 4 3)).setFld F.FT_SRC_SEL_PTP_PORT (wordFld v 8 5)).setFld F.FT_SRC_SEL_BACKUP_PTP_PORT (wordFld v 16 5)).rd R.FT_SRC_SEL = s.rd R.FT_SRC_SEL) ∧
    (∃ (s : State), ∃ (g : Agent), ∃ (v : Word), s.running = true ∧ accessOk R.FT_CTRL true g = true ∧ wordFld v 1 1 ≠ s.fld F.FT_CTRL_BACKUP_EN) :=
  ⟨(by refine ⟨({ wUp with time.valid := [((3, 0), 0)], time.mono := 80000000 }.setFld F.FT_SRC_SEL_PRIMARY 3).setFld F.FT_STATUS_STATE 1, 20000, ?_⟩; decide +kernel),
   (by refine ⟨({ wUp with time.valid := [((3, 0), 0)], time.mono := 80000000 }.setFld F.FT_SRC_SEL_PRIMARY 3).setFld F.FT_STATUS_STATE 1, 20000, ?_⟩; decide +kernel),
   (by refine ⟨({ wUp with time.valid := [((3, 0), 0)], time.mono := 80000000 }.setFld F.FT_SRC_SEL_PRIMARY 3).setFld F.FT_STATUS_STATE 1, 800000000, ?_⟩; decide +kernel),
   (by refine ⟨{ wF wUp [(F.FT_SRC_SEL_PRIMARY, 1), (F.FT_STATUS_STATE, 1), (F.FT_CTRL_STEP_EN, 0)] with time.valid := [((1, 0), 0)], time.mono := 96000000000 }, 800000000, ?_⟩; decide +kernel),
   (by refine ⟨({ wUp with time.mono := 10000000000000 }).setFld F.FT_STATUS_STATE 3, ?_⟩; decide +kernel),
   ⟨wUp.setFld F.FT_SRC_SEL_PRIMARY 2, by decide +kernel⟩,
   (by refine ⟨timeSourcesAndDiscipline_36_s, (got (List.find? (fun (e : (Nat × Nat) × Nat) => decide (e.fst = timeSourcesAndDiscipline_36_s.primKey)) timeSourcesAndDiscipline_36_s.time.valid) (by decide +kernel)).snd, ?_⟩; decide +kernel),
   ⟨wUp.setFld F.FT_SRC_SEL_PRIMARY 2, .keeper, 1, by decide +kernel⟩,
   ⟨wUp.setFld F.FT_SRC_SEL_PRIMARY 1, .keeper, 1, by decide +kernel⟩,
   ⟨wUp.setFld F.FT_SRC_SEL_PRIMARY 2, .keeper, 0xFFFFFFFFFFFFFFFF, by decide +kernel⟩⟩

/-- Time sources, their measurements, their loss, and steps: clauses 40, 41, 42, 43. -/
theorem witness_TimeSourcesAndDiscipline_e :
    (∃ (s : State), ∃ (g : Agent), ∃ (v : Word), s.running = true ∧ accessOk R.FT_CTRL true g = true ∧ wordFld v 1 1 = s.fld F.FT_CTRL_BACKUP_EN) ∧
    (∃ (s : State), ∃ (g : Agent), ∃ (a : Nat), ∃ (v : Word), s.running = true ∧ (accessOk a true g = false ∨ a ≠ R.FT_SRC_SEL ∧ a ≠ R.FT_CTRL)) ∧
    (∃ (s : State), ∃ (g : Agent), ∃ (v : Word), s.running = true ∧ accessOk R.FT_STEP true g = true ∧ (s.ftState = 0 ∨ s.fld F.FT_STATUS_ACTIVE_SRC = 4)) ∧
    (∃ (s : State), ∃ (g : Agent), ∃ (v : Word), s.running = true ∧ (accessOk R.FT_STEP true g = false ∨ s.ftState ≠ 0 ∧ s.fld F.FT_STATUS_ACTIVE_SRC ≠ 4)) :=
  ⟨⟨wUp.setFld F.FT_SRC_SEL_PRIMARY 2, .keeper, 1, by decide +kernel⟩,
   ⟨wUp.setFld F.FT_SRC_SEL_PRIMARY 2, .keeper, 0, 1, by decide +kernel⟩,
   ⟨wUp.setFld F.FT_SRC_SEL_PRIMARY 2, .keeper, 1, by decide +kernel⟩,
   ⟨wUp.setFld F.FT_SRC_SEL_PRIMARY 2, .debug, 1, by decide +kernel⟩⟩

/-- Host discipline and the Fabric Time registers: clauses 0, 1, 2, 3, 4, 5. -/
theorem witness_HostLockMovesTheState :
    (∃ (s : State), ∃ (g : Agent), s.running = true ∧ accessOk R.FT_CTRL true g = true ∧ s.srcInUse.fst = 4 ∧ (s.ftState = 1 ∨ s.ftState = 2) ∧ s.on F.FT_CTRL_HOST_LOCK = false) ∧
    (∃ (s : State), ∃ (g : Agent), s.running = true ∧ accessOk R.FT_CTRL true g = true ∧ s.srcInUse.fst = 4 ∧ (s.ftState = 1 ∨ s.ftState = 2) ∧ s.on F.FT_CTRL_HOST_LOCK = true) ∧
    (∃ (s : State), ∃ (g : Agent), ∃ (b : Bool), s.running = true ∧ accessOk R.FT_CTRL true g = true ∧ (s.srcInUse.fst ≠ 4 ∨ s.ftState ≠ 1 ∧ s.ftState ≠ 2 ∨ s.on F.FT_CTRL_HOST_LOCK = b)) ∧
    (∃ (s : State), ∃ (g : Agent), ∃ (b : Bool), s.running = true ∧ accessOk R.FT_CTRL true g = false) ∧
    (∃ (s : State), ∃ (g : Agent), s.running = true ∧ accessOk R.FT_NOW_SEC false g = false) ∧
    (∃ (s : State), ∃ (g : Agent), s.running = true ∧ accessOk R.FT_NOW_SEC false g = true) :=
  ⟨⟨(wUp.setFld F.FT_SRC_SEL_PRIMARY 4).setFld F.FT_STATUS_STATE 1, .keeper, by decide +kernel⟩,
   ⟨((wUp.setFld F.FT_SRC_SEL_PRIMARY 4).setFld F.FT_STATUS_STATE 2).setFld F.FT_CTRL_HOST_LOCK 1, .keeper, by decide +kernel⟩,
   ⟨(wUp.setFld F.FT_SRC_SEL_PRIMARY 4).setFld F.FT_STATUS_STATE 1, .keeper, false, by decide +kernel⟩,
   ⟨(wUp.setFld F.FT_SRC_SEL_PRIMARY 4).setFld F.FT_STATUS_STATE 1, .debug, false, by decide +kernel⟩,
   ⟨(wUp.setFld F.FT_SRC_SEL_PRIMARY 4).setFld F.FT_STATUS_STATE 1, .debug, by decide +kernel⟩,
   ⟨(wUp.setFld F.FT_SRC_SEL_PRIMARY 4).setFld F.FT_STATUS_STATE 1, .keeper, by decide +kernel⟩⟩

def timerWheel_4_s : State :=
  { wUp with time.wheels := [{ held := [⟨false, 0, .firmware 1 2 3, 0⟩], seq := 2 }, {}, {}, {}] }

def timerWheel_10_s : State :=
  { wEth with eth.egress := [{ wEg with launch := some 5 }, { wEg with id := 2, launch := some 0 }], time.units := 100000, time.wheels := [{ held := [⟨true, 5, .launch 1, 0⟩] }, {}, {}, {}] }.setFrame { wFrame with id := 7 }

def timerWheel_11_s : State :=
  { (w1 wEth (F.TX_LAUNCH_CTRL_REQUIRE_LOCK 0 0)) with eth.egress := [{ wEg with launch := some 0 }], time.wheels := [{ held := [⟨true, 0, .launch 1, 0⟩] }, {}, {}, {}] }.setFrame { wFrame with id := 7 }

def timerWheel_12_s : State :=
  { wUp with eth.egress := [{ wEg with launch := some 0 }], time.wheels := [{ held := [⟨true, 0, .launch 1, 0⟩] }, {}, {}, {}] }

def timerWheel_13_s : State :=
  { wEth with eth.egress := [{ wEg with launch := some 5 }], time.wheels := [{ held := [⟨true, 5, .launch 1, 0⟩] }, {}, {}, {}], time.units := 100 }

def timerWheel_14_s : State :=
  { wEth with eth.egress := [{ wEg with launch := some 0 }], time.wheels := [{ held := [⟨true, 0, .launch 1, 0⟩] }, {}, {}, {}] }.setFrame { wFrame with id := 7 }

def timerWheel_15_s : State :=
  { wEth with eth.egress := [{ id := 1, frame := 1, slice := 0, port := 0, data := List.replicate 64 0, launch := some 0 }] }.setFrame wFrame

/-- The timer wheel and launches: clauses 1, 2, 4, 6, 7, 8, 9, 10, 11, 12. -/
theorem witness_TimerWheel_a :
    (∃ (s : State), ∃ (g : Agent), ∃ (k : Nat), ∃ (c : Word), s.running = true ∧ k < s.time.wheels.length ∧ accessOk (R.TW_ARM_CTRL k) true g = true ∧ s.twShareFull k = false) ∧
    (∃ (s : State), ∃ (g : Agent), ∃ (k : Nat), ∃ (v : Nat), s.running = true ∧ accessOk (R.TW_LEAD k) true g = true) ∧
    (∃ (s : State), ∃ (k : Nat), ∃ (c : Nat), ∃ (ch : Nat), ∃ (cookie : Nat), s.slicesUp = true ∧ ∃ (e : TwEntry), s.twExpired k = some e ∧ e.consumer = TwConsumer.firmware c ch cookie) ∧
    (∃ (s : State), ∃ (g : Agent), ∃ (k : Nat), ∃ (v : Nat), ∃ (c : Word), s.running = true ∧ accessOk (R.TW_ARM_CTRL k) true g = false) ∧
    (∃ (s : State), ∃ (g : Agent), ∃ (k : Nat), ∃ (v : Nat), ∃ (c : Word), s.running = true ∧ accessOk (R.TW_LEAD k) true g = false) ∧
    (∃ (s : State), ∃ (g : Agent), ∃ (k : Nat), ∃ (v : Nat), ∃ (c : Word), s.running = true ∧ (s.awake k = false ∨ s.twDue k = none)) ∧
    (∃ (s : State), ∃ (k : Nat), s.slicesUp = true ∧ s.twExpired k = none) ∧
    (∃ (s : State), ∃ (id : Nat), s.slicesUp = true ∧ ∃ (e : Egress), s.egress? id = some e ∧ e.released = false ∧ s.launchDue e = true ∧ ∃ (k : Nat), e.slice = k ∧ ((s.wheel k).held.any fun (w : TwEntry) => decide (w.consumer = TwConsumer.launch id)) = true ∧ ((List.filter (fun (x : Egress) => decide (x.id ≠ e.id) && x.leadsLaunch e && !x.begun) (s.portEgress k e.port)).any fun (x : Egress) => !x.released) = true) ∧
    (∃ (s : State), ∃ (id : Nat), s.slicesUp = true ∧ ∃ (e : Egress), s.egress? id = some e ∧ e.released = false ∧ s.launchDue e = true ∧ ∃ (k : Nat), e.slice = k ∧ ((s.wheel k).held.any fun (w : TwEntry) => decide (w.consumer = TwConsumer.launch id)) = true ∧ ((List.filter (fun (x : Egress) => decide (x.id ≠ e.id) && x.leadsLaunch e && !x.begun) (s.portEgress k e.port)).any fun (x : Egress) => !x.released) = false ∧ ¬(s.on (F.TX_LAUNCH_CTRL_REQUIRE_LOCK k e.port) = false ∨ s.timeLocked = true)) ∧
    (∃ (s : State), ∃ (id : Nat), s.slicesUp = true ∧ ∃ (e : Egress), s.egress? id = some e ∧ e.released = false ∧ s.launchDue e = true ∧ ∃ (k : Nat), e.slice = k ∧ ((s.wheel k).held.any fun (w : TwEntry) => decide (w.consumer = TwConsumer.launch id)) = true ∧ ((List.filter (fun (x : Egress) => decide (x.id ≠ e.id) && x.leadsLaunch e && !x.begun) (s.portEgress k e.port)).any fun (x : Egress) => !x.released) = false ∧ (s.on (F.TX_LAUNCH_CTRL_REQUIRE_LOCK k e.port) = false ∨ s.timeLocked = true) ∧ s.linkUp k e.port = false) :=
  ⟨(by refine ⟨{ wUp with time.wheels := [{ pending := List.replicate 32768 ⟨false, 5, .firmware 0 0 0, 0⟩ }, {}, {}, {}] }, .keeper, 3, 0, ?_⟩; decide +kernel),
   (by refine ⟨{ wUp with time.wheels := [{ pending := List.replicate 32768 ⟨false, 5, .firmware 0 0 0, 0⟩ }, {}, {}, {}] }, .keeper, 0, 0, ?_⟩; decide +kernel),
   ⟨timerWheel_4_s, 0, 1, 2, 3, chk (dA inferInstance (dSome fun _ => inferInstance)) (by decide +kernel)⟩,
   (by refine ⟨{ wUp with time.wheels := [{ pending := List.replicate 32768 ⟨false, 5, .firmware 0 0 0, 0⟩ }, {}, {}, {}] }, .keeper, 5, 0, 0, ?_⟩; decide +kernel),
   (by refine ⟨{ wUp with time.wheels := [{ pending := List.replicate 32768 ⟨false, 5, .firmware 0 0 0, 0⟩ }, {}, {}, {}] }, .keeper, 5, 0, 0, ?_⟩; decide +kernel),
   (by refine ⟨{ wUp with time.wheels := [{ pending := List.replicate 32768 ⟨false, 5, .firmware 0 0 0, 0⟩ }, {}, {}, {}] }, .keeper, 3, 0, 0, ?_⟩; decide +kernel),
   (by refine ⟨{ wUp with time.wheels := [{ pending := List.replicate 32768 ⟨false, 5, .firmware 0 0 0, 0⟩ }, {}, {}, {}] }, 0, ?_⟩; decide +kernel),
   ⟨timerWheel_10_s, 1, chk (dA inferInstance (dSome fun _ => (dA inferInstance (dA inferInstance (dVar fun _ => inferInstance))))) (by decide +kernel)⟩,
   ⟨timerWheel_11_s, 1, chk (dA inferInstance (dSome fun _ => (dA inferInstance (dA inferInstance (dVar fun _ => inferInstance))))) (by decide +kernel)⟩,
   ⟨timerWheel_12_s, 1, chk (dA inferInstance (dSome fun _ => (dA inferInstance (dA inferInstance (dVar fun _ => inferInstance))))) (by decide +kernel)⟩⟩

/-- The timer wheel and launches: clauses 13, 14, 15. -/
theorem witness_TimerWheel_b :
    (∃ (s : State), ∃ (id : Nat), s.slicesUp = true ∧ ∃ (e : Egress), s.egress? id = some e ∧ e.released = false ∧ s.launchDue e = true ∧ ∃ (k : Nat), e.slice = k ∧ ((s.wheel k).held.any fun (w : TwEntry) => decide (w.consumer = TwConsumer.launch id)) = true ∧ ((List.filter (fun (x : Egress) => decide (x.id ≠ e.id) && x.leadsLaunch e && !x.begun) (s.portEgress k e.port)).any fun (x : Egress) => !x.released) = false ∧ (s.on (F.TX_LAUNCH_CTRL_REQUIRE_LOCK k e.port) = false ∨ s.timeLocked = true) ∧ s.linkUp k e.port = true ∧ (e.launch.getD 0 * unitsPerSec + 16 * 2 ^ 48 ≤ s.time.units * 2 ^ 48 ∨ s.portBusy k e.port = true ∨ ((List.filter (fun (x : Egress) => decide (x.id ≠ e.id) && x.leadsLaunch e && !x.begun) (s.portEgress k e.port)).any fun (x : Egress) => x.late) = true ∨ s.isPaused k e.port e.pcp = true)) ∧
    (∃ (s : State), ∃ (id : Nat), s.slicesUp = true ∧ ∃ (e : Egress), s.egress? id = some e ∧ e.released = false ∧ s.launchDue e = true ∧ ∃ (k : Nat), e.slice = k ∧ ((s.wheel k).held.any fun (w : TwEntry) => decide (w.consumer = TwConsumer.launch id)) = true ∧ ((List.filter (fun (x : Egress) => decide (x.id ≠ e.id) && x.leadsLaunch e && !x.begun) (s.portEgress k e.port)).any fun (x : Egress) => !x.released) = false ∧ (s.on (F.TX_LAUNCH_CTRL_REQUIRE_LOCK k e.port) = false ∨ s.timeLocked = true) ∧ s.linkUp k e.port = true ∧ ¬(e.launch.getD 0 * unitsPerSec + 16 * 2 ^ 48 ≤ s.time.units * 2 ^ 48 ∨ s.portBusy k e.port = true ∨ ((List.filter (fun (x : Egress) => decide (x.id ≠ e.id) && x.leadsLaunch e && !x.begun) (s.portEgress k e.port)).any fun (x : Egress) => x.late) = true ∨ s.isPaused k e.port e.pcp = true)) ∧
    (∃ (s : State), ∃ (k : Nat), ∃ (id : Nat), s.slicesUp = true ∧ ∃ (e : Egress), s.egress? id = some e ∧ (e.slice ≠ k ∨ e.released = true ∨ s.launchDue e = false ∨ ((s.wheel k).held.any fun (w : TwEntry) => decide (w.consumer = TwConsumer.launch id)) = false)) :=
  ⟨⟨timerWheel_13_s, 1, chk (dA inferInstance (dSome fun _ => (dA inferInstance (dA inferInstance (dVar fun _ => inferInstance))))) (by decide +kernel)⟩,
   ⟨timerWheel_14_s, 1, chk (dA inferInstance (dSome fun _ => (dA inferInstance (dA inferInstance (dVar fun _ => inferInstance))))) (by decide +kernel)⟩,
   ⟨timerWheel_15_s, 0, 1, chk (dA inferInstance (dSome fun _ => inferInstance)) (by decide +kernel)⟩⟩

/-- WFI executes exactly as WAITSPIN: clauses 1. -/
theorem witness_WfiIsWaitspin :
    ∃ (s : State), ∃ (sl : Nat), ∃ (k : Nat), ∃ (i : Nat), s.slicesUp = true ∧ s.canIssue sl k i = true :=
  ⟨wTh, 0, 0, 1, by decide +kernel⟩

/-- FTREAD returns Fabric Time and FT_MONO: clauses 0, 1, 2, 3, 4, 5. -/
theorem witness_FtreadReturnsTime :
    (∃ (s : State), ∃ (sl : Nat), ∃ (k : Nat), ∃ (i : Nat), ∃ (rd : Nat), s.slicesUp = true ∧ rd < 32 ∧ s.canIssue sl k i = true) ∧
    (∃ (s : State), ∃ (sl : Nat), ∃ (k : Nat), ∃ (i : Nat), ∃ (rd : Nat), s.slicesUp = true ∧ rd < 32 ∧ s.canIssue sl k i = true) ∧
    (∃ (s : State), ∃ (sl : Nat), ∃ (k : Nat), ∃ (i : Nat), ∃ (rd : Nat), s.slicesUp = true ∧ rd < 32 ∧ s.canIssue sl k i = true) ∧
    (∃ (s : State), ∃ (sl : Nat), ∃ (k : Nat), ∃ (i : Nat), ∃ (rd : Nat), ∃ (j : Nat), s.slicesUp = true ∧ rd < 32 ∧ s.canIssue sl k i = true ∧ j < 3) ∧
    (∃ (s : State), ∃ (sl : Nat), ∃ (k : Nat), ∃ (i : Nat), ∃ (rd : Nat), ∃ (j : Nat), s.slicesUp = true ∧ rd < 32 ∧ s.canIssue sl k i = true ∧ 3 ≤ j) ∧
    (∃ (s : State), ∃ (sl : Nat), ∃ (k : Nat), ∃ (i : Nat), ∃ (rd : Nat), ∃ (j : Nat), s.slicesUp = true ∧ rd < 32 ∧ s.canIssue sl k i = false) :=
  ⟨⟨wTh, 0, 0, 1, 0, by decide +kernel⟩,
   ⟨wTh, 0, 0, 1, 0, by decide +kernel⟩,
   ⟨wTh, 0, 0, 1, 0, by decide +kernel⟩,
   ⟨wTh, 0, 0, 1, 0, 0, by decide +kernel⟩,
   ⟨wTh, 0, 0, 1, 0, 3, by decide +kernel⟩,
   ⟨wTh, 0, 0, 0, 0, 0, by decide +kernel⟩⟩

def spinningAndPauses_2_s : State :=
  wTh.setThx 0 0 1 { wTh.thx 0 0 1 with pauseUntil := some 0 }

def spinningAndPauses_3_s : State :=
  wTh.setThx 0 0 1 { wTh.thx 0 0 1 with pauseUntil := some 9 }

/-- WAITSPIN pauses and marks; stalls and deadlocks are found: clauses 0, 1, 2, 3, 4, 5, 6, 7, 8, 9. -/
theorem witness_SpinningAndPauses_a :
    (∃ (s : State), ∃ (sl : Nat), ∃ (k : Nat), ∃ (i : Nat), s.slicesUp = true ∧ s.canIssue sl k i = true) ∧
    (∃ (s : State), ∃ (sl : Nat), ∃ (k : Nat), ∃ (i : Nat), s.slicesUp = true ∧ s.canIssue sl k i = false) ∧
    (∃ (s : State), ∃ (sl : Nat), ∃ (k : Nat), ∃ (i : Nat), s.slicesUp = true ∧ ∃ (c : Nat), (s.thx sl k i).pauseUntil = some c ∧ c ≤ s.sliceCycles sl) ∧
    (∃ (s : State), ∃ (sl : Nat), ∃ (k : Nat), ∃ (i : Nat), s.slicesUp = true ∧ ∃ (c : Nat), (s.thx sl k i).pauseUntil = some c ∧ s.sliceCycles sl < c) ∧
    (∃ (s : State), ∃ (sl : Nat), ∃ (k : Nat), ∃ (i : Nat), s.slicesUp = true ∧ (s.thx sl k i).pauseUntil = none) ∧
    (∃ (s : State), ∃ (sl : Nat), ∃ (k : Nat), ∃ (i : Nat), s.slicesUp = true ∧ (s.thx sl k i).lastSpin + max 1 (s.fld (F.SPIN_WINDOW sl k)) ≤ s.sliceCycles sl) ∧
    (∃ (s : State), ∃ (sl : Nat), ∃ (k : Nat), ∃ (i : Nat), s.slicesUp = true ∧ s.sliceCycles sl < (s.thx sl k i).lastSpin + max 1 (s.fld (F.SPIN_WINDOW sl k))) ∧
    (∃ (s : State), ∃ (sl : Nat), ∃ (k : Nat), s.slicesUp = true ∧ s.stallHolds sl k = true ∧ s.spinLimit sl k ≤ s.fld (F.SPIN_COUNT sl k) ∧ (s.clx sl k).stallRaised = false ∧ (s.clx sl k).broken = false ∧ ((s.clx sl k).faults.any fun (r : FaultRec) => decide (r.code = 48)) = false) ∧
    (∃ (s : State), ∃ (sl : Nat), ∃ (k : Nat), s.slicesUp = true ∧ s.stallHolds sl k = true ∧ s.spinLimit sl k ≤ s.fld (F.SPIN_COUNT sl k) ∧ (s.clx sl k).stallRaised = false ∧ (s.clx sl k).broken = false ∧ ((s.clx sl k).faults.any fun (r : FaultRec) => decide (r.code = 48)) = true) ∧
    (∃ (s : State), ∃ (sl : Nat), ∃ (k : Nat), s.slicesUp = true ∧ (s.stallHolds sl k = false ∨ s.fld (F.SPIN_COUNT sl k) < s.spinLimit sl k ∨ (s.clx sl k).stallRaised = true ∨ (s.clx sl k).broken = true)) :=
  ⟨⟨wTh, 0, 0, 1, by decide +kernel⟩,
   ⟨wTh, 0, 0, 0, by decide +kernel⟩,
   ⟨spinningAndPauses_2_s, 0, 0, 1, chk (dA inferInstance (dSome fun _ => inferInstance)) (by decide +kernel)⟩,
   ⟨spinningAndPauses_3_s, 0, 0, 1, chk (dA inferInstance (dSome fun _ => inferInstance)) (by decide +kernel)⟩,
   ⟨wTh, 0, 0, 0, by decide +kernel⟩,
   (by refine ⟨{ wTh with core.cycles := [2 ^ 24, 2 ^ 24, 0, 0] }, 0, 0, 0, ?_⟩; decide +kernel),
   ⟨wTh, 0, 0, 0, by decide +kernel⟩,
   (by refine ⟨(w1 (w1 wTh (F.THREAD_STATE_SPINNING 0 0 1)) (F.SPIN_COUNT 0 0) (2^31)).setClx 0 0 {}, 0, 0, ?_⟩; decide +kernel),
   (by refine ⟨(w1 (w1 wTh (F.THREAD_STATE_SPINNING 0 0 1)) (F.SPIN_COUNT 0 0) (2 ^ 20)).setClx 0 0 { faults := [⟨3, 48, true, 0, 0, 0⟩] }, 0, 0, ?_⟩; decide +kernel),
   ⟨wTh, 0, 0, by decide +kernel⟩⟩

/-- WAITSPIN pauses and marks; stalls and deadlocks are found: clauses 10, 11. -/
theorem witness_SpinningAndPauses_b :
    (∃ (s : State), ∃ (sl : Nat), ∃ (k : Nat), s.slicesUp = true ∧ s.spinLimit sl k ≤ s.fld (F.DEADLOCK_COUNT sl k) ∧ (s.clx sl k).deadlockRaised = false) ∧
    (∃ (s : State), ∃ (sl : Nat), ∃ (k : Nat), s.slicesUp = true ∧ (s.fld (F.DEADLOCK_COUNT sl k) < s.spinLimit sl k ∨ (s.clx sl k).deadlockRaised = true)) :=
  ⟨⟨w1 wTh (F.DEADLOCK_COUNT 0 0) (2^20), 0, 0, by decide +kernel⟩,
   ⟨wTh, 0, 0, by decide +kernel⟩⟩

def channelInstructions_14_s : State :=
  wTh.setClx 0 0 { wTh.clx 0 0 with deferred := [(1, [5], .plain), (2, [6,7], .plain)] }

def channelInstructions_15_s : State :=
  (wTh.setClx 0 0 { wTh.clx 0 0 with deferred := [(2, [6,7], .plain)] }).setFld (F.CH_BIND_HW_WRITE 0 0 2) 0

/-- The channel instructions, hardware delivery and aborts: clauses 0, 1, 2, 3, 4, 5, 6, 7, 8, 9. -/
theorem witness_ChannelInstructions_a :
    (∃ (s : State), ∃ (sl : Nat), ∃ (k : Nat), ∃ (i : Nat), ∃ (rd : Nat), ∃ (rs1 : Nat), s.slicesUp = true ∧ s.canIssue sl k i = true ∧ rd < 32) ∧
    (∃ (s : State), ∃ (sl : Nat), ∃ (k : Nat), ∃ (i : Nat), ∃ (rs1 : Nat), ∃ (rs2 : Nat), s.slicesUp = true ∧ s.canIssue sl k i = true ∧ s.on (F.THREAD_STATE_ABORTED sl k i) = false ∧ s.holdsOpen sl k i (BitVec.toNat (s.xreg sl k i rs1) % 64) = true ∧ (s.chMsg sl k (BitVec.toNat (s.xreg sl k i rs1) % 64)).length < 8) ∧
    (∃ (s : State), ∃ (sl : Nat), ∃ (k : Nat), ∃ (i : Nat), ∃ (rs1 : Nat), ∃ (rs2 : Nat), s.slicesUp = true ∧ s.canIssue sl k i = true ∧ s.on (F.THREAD_STATE_ABORTED sl k i) = false ∧ s.holdsOpen sl k i (BitVec.toNat (s.xreg sl k i rs1) % 64) = true) ∧
    (∃ (s : State), ∃ (sl : Nat), ∃ (k : Nat), ∃ (i : Nat), ∃ (rd : Nat), ∃ (rs1 : Nat), s.slicesUp = true ∧ s.canIssue sl k i = true ∧ rd < 32 ∧ s.fld (F.CH_BIND_READER sl k (BitVec.toNat (s.xreg sl k i rs1) % 64)) ≠ i) ∧
    (∃ (s : State), ∃ (sl : Nat), ∃ (k : Nat), ∃ (i : Nat), ∃ (rd : Nat), ∃ (rs1 : Nat), s.slicesUp = true ∧ s.canIssue sl k i = true ∧ rd < 32 ∧ s.fld (F.CH_BIND_READER sl k (BitVec.toNat (s.xreg sl k i rs1) % 64)) = i ∧ bitsOf (BitVec.toNat (s.xreg sl k i rs1)) 13 12 = 0) ∧
    (∃ (s : State), ∃ (sl : Nat), ∃ (k : Nat), ∃ (i : Nat), ∃ (rd : Nat), ∃ (rs1 : Nat), s.slicesUp = true ∧ s.canIssue sl k i = true ∧ rd < 32 ∧ s.fld (F.CH_BIND_READER sl k (BitVec.toNat (s.xreg sl k i rs1) % 64)) = i ∧ (bitsOf (BitVec.toNat (s.xreg sl k i rs1)) 13 12 = 1 ∨ decide (s.chState sl k (BitVec.toNat (s.xreg sl k i rs1) % 64) = 2) = false ∧ 1 ≤ bitsOf (BitVec.toNat (s.xreg sl k i rs1)) 13 12)) ∧
    (∃ (s : State), ∃ (sl : Nat), ∃ (k : Nat), ∃ (i : Nat), ∃ (rd : Nat), ∃ (rs1 : Nat), s.slicesUp = true ∧ s.canIssue sl k i = true ∧ rd < 32 ∧ s.fld (F.CH_BIND_READER sl k (BitVec.toNat (s.xreg sl k i rs1) % 64)) = i ∧ 2 ≤ bitsOf (BitVec.toNat (s.xreg sl k i rs1)) 13 12 ∧ decide (s.chState sl k (BitVec.toNat (s.xreg sl k i rs1) % 64) = 2) = true) ∧
    (∃ (s : State), ∃ (sl : Nat), ∃ (k : Nat), ∃ (i : Nat), ∃ (rd : Nat), ∃ (rs1 : Nat), ∃ (rs2 : Nat), s.slicesUp = true ∧ s.canIssue sl k i = false) ∧
    (∃ (s : State), ∃ (sl : Nat), ∃ (k : Nat), ∃ (i : Nat), ∃ (rd : Nat), ∃ (rs1 : Nat), ∃ (rs2 : Nat), s.slicesUp = true ∧ s.canIssue sl k i = false) ∧
    (∃ (s : State), ∃ (sl : Nat), ∃ (k : Nat), ∃ (i : Nat), ∃ (rd : Nat), ∃ (rs1 : Nat), ∃ (rs2 : Nat), s.slicesUp = true ∧ s.canIssue sl k i = false) :=
  ⟨⟨w1 wTh (F.CH_BIND_VENDOR_WRITE 0 0 0), 0, 0, 1, 0, 0, by decide +kernel⟩,
   ⟨wHold [], 0, 0, 1, 5, 0, by decide +kernel⟩,
   ⟨wHold [], 0, 0, 1, 5, 0, by decide +kernel⟩,
   ⟨w1 wTh (F.CH_BIND_VENDOR_WRITE 0 0 0), 0, 0, 1, 0, 0, by decide +kernel⟩,
   ⟨w1 (w1 wTh (F.CH_BIND_READER 0 0 0) 1) (F.CH_STATE_STATE 0 0 0) 2, 0, 0, 1, 0, 0, by decide +kernel⟩,
   ⟨w1 (w1 (wTh.wr (R.THREAD_GPR 0 0 1 5) 0x1002) (F.CH_BIND_READER 0 0 2) 1) (F.CH_STATE_STATE 0 0 2) 2, 0, 0, 1, 0, 5, by decide +kernel⟩,
   ⟨w1 (w1 (wTh.wr (R.THREAD_GPR 0 0 1 5) 0x2002) (F.CH_BIND_READER 0 0 2) 1) (F.CH_STATE_STATE 0 0 2) 2, 0, 0, 1, 0, 5, by decide +kernel⟩,
   ⟨w1 wTh (F.CH_BIND_VENDOR_WRITE 0 0 0), 0, 0, 0, 0, 0, 0, by decide +kernel⟩,
   ⟨w1 wTh (F.CH_BIND_VENDOR_WRITE 0 0 0), 0, 0, 0, 0, 0, 0, by decide +kernel⟩,
   ⟨w1 wTh (F.CH_BIND_VENDOR_WRITE 0 0 0), 0, 0, 0, 0, 0, 0, by decide +kernel⟩⟩

/-- The channel instructions, hardware delivery and aborts: clauses 10, 11, 12, 13, 14, 15, 16, 20, 21, 22. -/
theorem witness_ChannelInstructions_b :
    (∃ (s : State), ∃ (sl : Nat), ∃ (k : Nat), ∃ (i : Nat), ∃ (rd : Nat), ∃ (rs1 : Nat), ∃ (rs2 : Nat), s.slicesUp = true ∧ s.canIssue sl k i = false) ∧
    (∃ (s : State), ∃ (sl : Nat), ∃ (k : Nat), ∃ (m : Nat), ∃ (l : List Nat), s.slicesUp = true ∧ m < 64 ∧ l.length ≤ 8 ∧ s.on (F.CH_BIND_HW_WRITE sl k m) = true ∧ s.chState sl k m = 0 ∧ ((s.clx sl k).deferred.any fun (e : Nat × List Nat × HwMsg) => decide (e.fst = m)) = false) ∧
    (∃ (s : State), ∃ (sl : Nat), ∃ (k : Nat), ∃ (m : Nat), ∃ (l : List Nat), s.slicesUp = true ∧ m < 64 ∧ l.length ≤ 8 ∧ s.on (F.CH_BIND_HW_WRITE sl k m) = true ∧ (s.chState sl k m ≠ 0 ∨ ((s.clx sl k).deferred.any fun (e : Nat × List Nat × HwMsg) => decide (e.fst = m)) = true) ∧ (s.clx sl k).deferred.length < 32) ∧
    (∃ (s : State), ∃ (sl : Nat), ∃ (k : Nat), ∃ (m : Nat), ∃ (l : List Nat), s.slicesUp = true ∧ m < 64 ∧ l.length ≤ 8 ∧ (s.on (F.CH_BIND_HW_WRITE sl k m) = false ∨ (s.chState sl k m ≠ 0 ∨ ((s.clx sl k).deferred.any fun (e : Nat × List Nat × HwMsg) => decide (e.fst = m)) = true) ∧ 32 ≤ (s.clx sl k).deferred.length)) ∧
    (∃ (s : State), ∃ (sl : Nat), ∃ (k : Nat), ∃ (m : Nat), ∃ (l : List Nat), ∃ (h : HwMsg), ∃ (rest : List (Nat × List Nat × HwMsg)), s.slicesUp = true ∧ sl < 4 ∧ k < 4 ∧ m < 64 ∧ s.chState sl k m = 0 ∧ takeFirst (fun (e : Nat × List Nat × HwMsg) => decide (e.fst = m)) (s.clx sl k).deferred = some ((m, l, h), rest) ∧ s.on (F.CH_BIND_HW_WRITE sl k m) = true) ∧
    (∃ (s : State), ∃ (sl : Nat), ∃ (k : Nat), ∃ (m : Nat), ∃ (l : List Nat), ∃ (h : HwMsg), ∃ (rest : List (Nat × List Nat × HwMsg)), s.slicesUp = true ∧ sl < 4 ∧ k < 4 ∧ m < 64 ∧ s.chState sl k m = 0 ∧ takeFirst (fun (e : Nat × List Nat × HwMsg) => decide (e.fst = m)) (s.clx sl k).deferred = some ((m, l, h), rest) ∧ s.on (F.CH_BIND_HW_WRITE sl k m) = false ∧ h = HwMsg.plain) ∧
    (∃ (s : State), ∃ (sl : Nat), ∃ (k : Nat), ∃ (m : Nat), s.slicesUp = true ∧ sl < 4 ∧ k < 4 ∧ m < 64 ∧ (s.chState sl k m ≠ 0 ∨ ((s.clx sl k).deferred.all fun (e : Nat × List Nat × HwMsg) => decide (e.fst ≠ m)) = true)) ∧
    (∃ (s : State), ∃ (g : Agent), ∃ (sl : Nat), ∃ (k : Nat), ∃ (m : Nat), s.slicesUp = true ∧ sl < 4 ∧ k < 4 ∧ m < 64 ∧ accessOk (R.CH_ABORT sl k) true g = true ∧ s.chState sl k m = 1) ∧
    (∃ (s : State), ∃ (g : Agent), ∃ (sl : Nat), ∃ (k : Nat), ∃ (m : Nat), s.slicesUp = true ∧ sl < 4 ∧ k < 4 ∧ m < 64 ∧ accessOk (R.CH_ABORT sl k) true g = true ∧ s.chState sl k m = 2) ∧
    (∃ (s : State), ∃ (g : Agent), ∃ (sl : Nat), ∃ (k : Nat), ∃ (m : Nat), s.slicesUp = true ∧ sl < 4 ∧ k < 4 ∧ m < 64 ∧ (accessOk (R.CH_ABORT sl k) true g = false ∨ s.chState sl k m = 0)) :=
  ⟨⟨w1 wTh (F.CH_BIND_VENDOR_WRITE 0 0 0), 0, 0, 0, 0, 0, 0, by decide +kernel⟩,
   ⟨w1 wTh (F.CH_BIND_VENDOR_WRITE 0 0 0), 0, 0, 0, [], by decide +kernel⟩,
   ⟨wHold [], 0, 0, 2, [], by decide +kernel⟩,
   ⟨w1 wTh (F.CH_BIND_VENDOR_WRITE 0 0 0), 0, 5, 0, [], by decide +kernel⟩,
   (by refine ⟨channelInstructions_14_s, 0, 0, 1, (got (takeFirst (fun (e : Nat × List Nat × HwMsg) => decide (e.fst = 1)) (channelInstructions_14_s.clx 0 0).deferred) (by decide +kernel)).fst.snd.fst, (got (takeFirst (fun (e : Nat × List Nat × HwMsg) => decide (e.fst = 1)) (channelInstructions_14_s.clx 0 0).deferred) (by decide +kernel)).fst.snd.snd, (got (takeFirst (fun (e : Nat × List Nat × HwMsg) => decide (e.fst = 1)) (channelInstructions_14_s.clx 0 0).deferred) (by decide +kernel)).snd, ?_⟩; decide +kernel),
   (by refine ⟨channelInstructions_15_s, 0, 0, 2, (got (takeFirst (fun (e : Nat × List Nat × HwMsg) => decide (e.fst = 2)) (channelInstructions_15_s.clx 0 0).deferred) (by decide +kernel)).fst.snd.fst, (got (takeFirst (fun (e : Nat × List Nat × HwMsg) => decide (e.fst = 2)) (channelInstructions_15_s.clx 0 0).deferred) (by decide +kernel)).fst.snd.snd, (got (takeFirst (fun (e : Nat × List Nat × HwMsg) => decide (e.fst = 2)) (channelInstructions_15_s.clx 0 0).deferred) (by decide +kernel)).snd, ?_⟩; decide +kernel),
   ⟨w1 wTh (F.CH_BIND_VENDOR_WRITE 0 0 0), 0, 0, 0, by decide +kernel⟩,
   ⟨wHold [], .keeper, 0, 0, 2, by decide +kernel⟩,
   ⟨w1 (w1 wTh (F.CH_BIND_READER 0 0 0) 1) (F.CH_STATE_STATE 0 0 0) 2, .keeper, 0, 0, 0, by decide +kernel⟩,
   ⟨w1 wTh (F.CH_BIND_VENDOR_WRITE 0 0 0), .keeper, 0, 0, 0, by decide +kernel⟩⟩

/-- The channel instructions, hardware delivery and aborts: clauses 23. -/
theorem witness_ChannelInstructions_c :
    ∃ (s : State), ∃ (g : Agent), ∃ (sl : Nat), ∃ (k : Nat), ∃ (m : Nat), s.slicesUp = true ∧ sl < 4 ∧ k < 4 ∧ m < 64 :=
  ⟨w1 wTh (F.CH_BIND_VENDOR_WRITE 0 0 0), .keeper, 0, 0, 0, by decide +kernel⟩

/-- What CHPUT and CHCLOSE check, in order: clauses 0, 1, 2, 3, 4, 5, 6, 7. -/
theorem witness_ChannelWriteChecksInOrder :
    (∃ (s : State), ∃ (sl : Nat), ∃ (k : Nat), ∃ (i : Nat), ∃ (rs1 : Nat), ∃ (rs2 : Nat), s.slicesUp = true ∧ s.canIssue sl k i = true ∧ s.on (F.THREAD_STATE_ABORTED sl k i) = true) ∧
    (∃ (s : State), ∃ (sl : Nat), ∃ (k : Nat), ∃ (i : Nat), ∃ (rs1 : Nat), ∃ (rs2 : Nat), s.slicesUp = true ∧ s.canIssue sl k i = true ∧ s.on (F.THREAD_STATE_ABORTED sl k i) = true) ∧
    (∃ (s : State), ∃ (sl : Nat), ∃ (k : Nat), ∃ (i : Nat), ∃ (rs1 : Nat), ∃ (rs2 : Nat), s.slicesUp = true ∧ s.canIssue sl k i = true ∧ s.on (F.THREAD_STATE_ABORTED sl k i) = false ∧ s.holdsOpen sl k i (BitVec.toNat (s.xreg sl k i rs1) % 64) = false) ∧
    (∃ (s : State), ∃ (sl : Nat), ∃ (k : Nat), ∃ (i : Nat), ∃ (rs1 : Nat), ∃ (rs2 : Nat), s.slicesUp = true ∧ s.canIssue sl k i = true ∧ s.on (F.THREAD_STATE_ABORTED sl k i) = false ∧ s.holdsOpen sl k i (BitVec.toNat (s.xreg sl k i rs1) % 64) = false) ∧
    (∃ (s : State), ∃ (sl : Nat), ∃ (k : Nat), ∃ (i : Nat), ∃ (rs1 : Nat), ∃ (rs2 : Nat), s.slicesUp = true ∧ s.canIssue sl k i = true ∧ s.on (F.THREAD_STATE_ABORTED sl k i) = false ∧ s.holdsOpen sl k i (BitVec.toNat (s.xreg sl k i rs1) % 64) = true ∧ 8 ≤ (s.chMsg sl k (BitVec.toNat (s.xreg sl k i rs1) % 64)).length) ∧
    (∃ (s : State), ∃ (sl : Nat), ∃ (k : Nat), ∃ (i : Nat), ∃ (rs1 : Nat), ∃ (rs2 : Nat), s.slicesUp = true ∧ s.canIssue sl k i = true ∧ s.on (F.THREAD_STATE_ABORTED sl k i) = false ∧ s.holdsOpen sl k i (BitVec.toNat (s.xreg sl k i rs1) % 64) = true) ∧
    (∃ (s : State), ∃ (sl : Nat), ∃ (k : Nat), ∃ (i : Nat), ∃ (rs1 : Nat), ∃ (rs2 : Nat), s.slicesUp = true ∧ s.canIssue sl k i = true ∧ s.on (F.THREAD_STATE_ABORTED sl k i) = false ∧ s.holdsOpen sl k i (BitVec.toNat (s.xreg sl k i rs1) % 64) = true ∧ (s.chMsg sl k (BitVec.toNat (s.xreg sl k i rs1) % 64)).length < 8) ∧
    (∃ (s : State), ∃ (sl : Nat), ∃ (k : Nat), ∃ (i : Nat), ∃ (rs1 : Nat), ∃ (rs2 : Nat), s.slicesUp = true ∧ s.canIssue sl k i = true) :=
  ⟨⟨w1 wTh (F.THREAD_STATE_ABORTED 0 0 1), 0, 0, 1, 0, 0, by decide +kernel⟩,
   ⟨w1 wTh (F.THREAD_STATE_ABORTED 0 0 1), 0, 0, 1, 0, 0, by decide +kernel⟩,
   ⟨wTh, 0, 0, 1, 0, 0, by decide +kernel⟩,
   ⟨wTh, 0, 0, 1, 0, 0, by decide +kernel⟩,
   ⟨wHold [1,2,3,4,5,6,7,8], 0, 0, 1, 5, 0, by decide +kernel⟩,
   ⟨wHold [1,2,3,4,5,6,7,8], 0, 0, 1, 5, 0, by decide +kernel⟩,
   ⟨wHold [], 0, 0, 1, 5, 0, by decide +kernel⟩,
   ⟨w1 wTh (F.THREAD_STATE_ABORTED 0 0 1), 0, 0, 1, 0, 0, by decide +kernel⟩⟩

def coreInstructionsRun_8_s : State :=
  wTh.wr (R.THREAD_GPR 0 0 1 2) 0x2020000000

def coreInstructionsRun_9_s : State :=
  { wTh.wr (R.THREAD_GPR 0 0 1 2) 0x2020000000 with poisoned := [(0, 0x20000000)] }

def coreInstructionsRun_13_s : State :=
  wTh.wr (R.THREAD_GPR 0 0 1 2) 0x2020000000

def coreInstructionsRun_17_s : State :=
  wTh.wr (R.REGION_CFG 0 0 0) 0x111

/-- Core instructions, counter reads, traps and returns: clauses 0, 2, 3, 4, 5, 6, 7, 8, 9, 10. -/
theorem witness_CoreInstructionsRun_a :
    (∃ (s : State), ∃ (sl : Nat), ∃ (k : Nat), ∃ (i : Nat), ∃ (w : Nat), ∃ (n : Nat), ∃ (rd : Nat), ∃ (rs1 : Nat), ∃ (rs2 : Nat), ∃ (imm : Word), ∃ (op : AluOp), s.slicesUp = true ∧ s.canIssue sl k i = true ∧ s.fetchStop sl k i n = none ∧ rd < 32 ∧ decodeRv w = (n, some (Rv.aluI op rd rs1 imm))) ∧
    (∃ (s : State), ∃ (sl : Nat), ∃ (k : Nat), ∃ (i : Nat), ∃ (w : Nat), ∃ (n : Nat), ∃ (rd : Nat), ∃ (rs1 : Nat), ∃ (rs2 : Nat), ∃ (imm : Word), s.slicesUp = true ∧ s.canIssue sl k i = true ∧ s.fetchStop sl k i n = none ∧ rd < 32 ∧ decodeRv w = (n, some (Rv.jal rd imm))) ∧
    (∃ (s : State), ∃ (sl : Nat), ∃ (k : Nat), ∃ (i : Nat), ∃ (w : Nat), ∃ (n : Nat), ∃ (rd : Nat), ∃ (rs1 : Nat), ∃ (rs2 : Nat), ∃ (imm : Word), s.slicesUp = true ∧ s.canIssue sl k i = true ∧ s.fetchStop sl k i n = none ∧ rd < 32 ∧ decodeRv w = (n, some (Rv.jalr rd rs1 imm))) ∧
    (∃ (s : State), ∃ (sl : Nat), ∃ (k : Nat), ∃ (i : Nat), ∃ (w : Nat), ∃ (n : Nat), ∃ (rd : Nat), ∃ (rs1 : Nat), ∃ (rs2 : Nat), ∃ (imm : Word), ∃ (op : BrOp), s.slicesUp = true ∧ s.canIssue sl k i = true ∧ s.fetchStop sl k i n = none ∧ rd < 32 ∧ decodeRv w = (n, some (Rv.branch op rs1 rs2 imm))) ∧
    (∃ (s : State), ∃ (sl : Nat), ∃ (k : Nat), ∃ (i : Nat), ∃ (w : Nat), ∃ (n : Nat), ∃ (rd : Nat), ∃ (rs1 : Nat), ∃ (rs2 : Nat), ∃ (imm : Word), ∃ (lg : Nat), ∃ (h : Nat), ∃ (z : Bool), s.slicesUp = true ∧ s.canIssue sl k i = true ∧ s.fetchStop sl k i n = none ∧ rd < 32 ∧ decodeRv w = (n, some (Rv.load lg z rd rs1 imm)) ∧ s.trigHit sl k i 0 (BitVec.toNat (s.xreg sl k i rs1 + imm)) = true) ∧
    (∃ (s : State), ∃ (sl : Nat), ∃ (k : Nat), ∃ (i : Nat), ∃ (w : Nat), ∃ (n : Nat), ∃ (rd : Nat), ∃ (rs1 : Nat), ∃ (rs2 : Nat), ∃ (imm : Word), ∃ (lg : Nat), ∃ (h : Nat), ∃ (z : Bool), s.slicesUp = true ∧ s.canIssue sl k i = true ∧ s.fetchStop sl k i n = none ∧ rd < 32 ∧ decodeRv w = (n, some (Rv.load lg z rd rs1 imm)) ∧ s.trigHit sl k i 0 (BitVec.toNat (s.xreg sl k i rs1 + imm)) = false ∧ 64 < BitVec.toNat (s.xreg sl k i rs1 + imm) % 64 + 2 ^ lg) ∧
    (∃ (s : State), ∃ (sl : Nat), ∃ (k : Nat), ∃ (i : Nat), ∃ (w : Nat), ∃ (n : Nat), ∃ (rd : Nat), ∃ (rs1 : Nat), ∃ (rs2 : Nat), ∃ (imm : Word), ∃ (lg : Nat), ∃ (h : Nat), ∃ (z : Bool), s.slicesUp = true ∧ s.canIssue sl k i = true ∧ s.fetchStop sl k i n = none ∧ rd < 32 ∧ decodeRv w = (n, some (Rv.load lg z rd rs1 imm)) ∧ s.trigHit sl k i 0 (BitVec.toNat (s.xreg sl k i rs1 + imm)) = false ∧ BitVec.toNat (s.xreg sl k i rs1 + imm) % 64 + 2 ^ lg ≤ 64 ∧ s.regionOk sl k i RegionAcc.r (BitVec.toNat (s.xreg sl k i rs1 + imm)) (2 ^ lg) = false) ∧
    (∃ (s : State), ∃ (k : Nat), ∃ (i : Nat), ∃ (w : Nat), ∃ (n : Nat), ∃ (rd : Nat), ∃ (rs1 : Nat), ∃ (rs2 : Nat), ∃ (imm : Word), ∃ (lg : Nat), ∃ (h : Nat), ∃ (z : Bool), s.slicesUp = true ∧ rd < 32 ∧ decodeRv w = (n, some (Rv.load lg z rd rs1 imm)) ∧ ∃ (sl : Nat), h / (24 * gib) = sl ∧ s.canIssue sl k i = true ∧ s.fetchStop sl k i n = none ∧ s.trigHit sl k i 0 (BitVec.toNat (s.xreg sl k i rs1 + imm)) = false ∧ BitVec.toNat (s.xreg sl k i rs1 + imm) % 64 + 2 ^ lg ≤ 64 ∧ s.regionOk sl k i RegionAcc.r (BitVec.toNat (s.xreg sl k i rs1 + imm)) (2 ^ lg) = true ∧ s.place sl (BitVec.toNat (s.xreg sl k i rs1 + imm)) = Place.hbm h ∧ (s.hbmPoisoned h (2 ^ lg) || s.l2Poisoned sl k h) = false) ∧
    (∃ (s : State), ∃ (k : Nat), ∃ (i : Nat), ∃ (w : Nat), ∃ (n : Nat), ∃ (rd : Nat), ∃ (rs1 : Nat), ∃ (rs2 : Nat), ∃ (imm : Word), ∃ (lg : Nat), ∃ (h : Nat), ∃ (z : Bool), s.slicesUp = true ∧ rd < 32 ∧ decodeRv w = (n, some (Rv.load lg z rd rs1 imm)) ∧ ∃ (sl : Nat), h / (24 * gib) = sl ∧ s.canIssue sl k i = true ∧ s.fetchStop sl k i n = none ∧ s.trigHit sl k i 0 (BitVec.toNat (s.xreg sl k i rs1 + imm)) = false ∧ BitVec.toNat (s.xreg sl k i rs1 + imm) % 64 + 2 ^ lg ≤ 64 ∧ s.regionOk sl k i RegionAcc.r (BitVec.toNat (s.xreg sl k i rs1 + imm)) (2 ^ lg) = true ∧ s.place sl (BitVec.toNat (s.xreg sl k i rs1 + imm)) = Place.hbm h ∧ (s.hbmPoisoned h (2 ^ lg) || s.l2Poisoned sl k h) = true) ∧
    (∃ (s : State), ∃ (sl : Nat), ∃ (k : Nat), ∃ (i : Nat), ∃ (w : Nat), ∃ (n : Nat), ∃ (rd : Nat), ∃ (rs1 : Nat), ∃ (rs2 : Nat), ∃ (imm : Word), ∃ (lg : Nat), ∃ (h : Nat), s.slicesUp = true ∧ s.canIssue sl k i = true ∧ s.fetchStop sl k i n = none ∧ rd < 32 ∧ decodeRv w = (n, some (Rv.store lg rs1 rs2 imm)) ∧ s.trigHit sl k i 1 (BitVec.toNat (s.xreg sl k i rs1 + imm)) = true) :=
  ⟨⟨wTh, 0, 0, 1, 0x00500093, 4, 1, 0, 1, 5#64, .add, by decide +kernel⟩,
   ⟨wTh, 0, 0, 1, 0x008000ef, 4, 1, 0, 1, 8#64, by decide +kernel⟩,
   ⟨wTh, 0, 0, 1, 0x000080e7, 4, 1, 1, 1, 0#64, by decide +kernel⟩,
   ⟨wTh, 0, 0, 1, 0x00000463, 4, 1, 0, 0, 8#64, .eq, by decide +kernel⟩,
   (by refine ⟨{ wTh with core.triggers := [(0, 9#64), (1, 0#64)] }, 0, 0, 1, 0x00012283, 4, 5, 2, 1, 0#64, 2, 0x20000000, false, ?_⟩; decide +kernel),
   ⟨wTh.wr (R.THREAD_GPR 0 0 1 2) 62, 0, 0, 1, 0x00012283, 4, 5, 2, 1, 0#64, 2, 0x20000000, false, by decide +kernel⟩,
   ⟨(wTh.wr (R.REGION_CFG 0 0 0) 0x166).wr (R.REGION_CFG 0 0 0) 0x144, 0, 0, 1, 0x00012283, 4, 5, 2, 1, 0#64, 2, 0x20000000, false, by decide +kernel⟩,
   ⟨coreInstructionsRun_8_s, 0, 1, 0x00012283, 4, 5, 2, 1, 0#64, 2, 0x20000000, false, chk (dA inferInstance (dA inferInstance (dA inferInstance (dVar fun _ => inferInstance)))) (by decide +kernel)⟩,
   ⟨coreInstructionsRun_9_s, 0, 1, 0x00012283, 4, 5, 2, 1, 0#64, 2, 0x20000000, false, chk (dA inferInstance (dA inferInstance (dA inferInstance (dVar fun _ => inferInstance)))) (by decide +kernel)⟩,
   (by refine ⟨{ wTh with core.triggers := [(0, 10#64)] }, 0, 0, 1, 0x00112023, 4, 5, 2, 1, 0#64, 2, 0x20000000, ?_⟩; decide +kernel)⟩

/-- Core instructions, counter reads, traps and returns: clauses 11, 12, 13, 14, 15, 16, 17, 18, 19, 20. -/
theorem witness_CoreInstructionsRun_b :
    (∃ (s : State), ∃ (sl : Nat), ∃ (k : Nat), ∃ (i : Nat), ∃ (w : Nat), ∃ (n : Nat), ∃ (rd : Nat), ∃ (rs1 : Nat), ∃ (rs2 : Nat), ∃ (imm : Word), ∃ (lg : Nat), ∃ (h : Nat), s.slicesUp = true ∧ s.canIssue sl k i = true ∧ s.fetchStop sl k i n = none ∧ rd < 32 ∧ decodeRv w = (n, some (Rv.store lg rs1 rs2 imm)) ∧ s.trigHit sl k i 1 (BitVec.toNat (s.xreg sl k i rs1 + imm)) = false ∧ 64 < BitVec.toNat (s.xreg sl k i rs1 + imm) % 64 + 2 ^ lg) ∧
    (∃ (s : State), ∃ (sl : Nat), ∃ (k : Nat), ∃ (i : Nat), ∃ (w : Nat), ∃ (n : Nat), ∃ (rd : Nat), ∃ (rs1 : Nat), ∃ (rs2 : Nat), ∃ (imm : Word), ∃ (lg : Nat), ∃ (h : Nat), s.slicesUp = true ∧ s.canIssue sl k i = true ∧ s.fetchStop sl k i n = none ∧ rd < 32 ∧ decodeRv w = (n, some (Rv.store lg rs1 rs2 imm)) ∧ s.trigHit sl k i 1 (BitVec.toNat (s.xreg sl k i rs1 + imm)) = false ∧ BitVec.toNat (s.xreg sl k i rs1 + imm) % 64 + 2 ^ lg ≤ 64 ∧ s.regionOk sl k i RegionAcc.w (BitVec.toNat (s.xreg sl k i rs1 + imm)) (2 ^ lg) = false) ∧
    (∃ (s : State), ∃ (k : Nat), ∃ (i : Nat), ∃ (w : Nat), ∃ (n : Nat), ∃ (rd : Nat), ∃ (rs1 : Nat), ∃ (rs2 : Nat), ∃ (imm : Word), ∃ (lg : Nat), ∃ (h : Nat), s.slicesUp = true ∧ rd < 32 ∧ decodeRv w = (n, some (Rv.store lg rs1 rs2 imm)) ∧ ∃ (sl : Nat), h / (24 * gib) = sl ∧ s.canIssue sl k i = true ∧ s.fetchStop sl k i n = none ∧ s.trigHit sl k i 1 (BitVec.toNat (s.xreg sl k i rs1 + imm)) = false ∧ BitVec.toNat (s.xreg sl k i rs1 + imm) % 64 + 2 ^ lg ≤ 64 ∧ s.regionOk sl k i RegionAcc.w (BitVec.toNat (s.xreg sl k i rs1 + imm)) (2 ^ lg) = true ∧ s.place sl (BitVec.toNat (s.xreg sl k i rs1 + imm)) = Place.hbm h) ∧
    (∃ (s : State), ∃ (sl : Nat), ∃ (k : Nat), ∃ (i : Nat), ∃ (w : Nat), ∃ (rd : Nat), ∃ (rs1 : Nat), ∃ (rs2 : Nat), ∃ (imm : Word), s.slicesUp = true ∧ s.canIssue sl k i = true ∧ rd < 32 ∧ ∃ (n : Nat), decodeRv w = (n, none) ∧ s.fetchStop sl k i n = none) ∧
    (∃ (s : State), ∃ (sl : Nat), ∃ (k : Nat), ∃ (i : Nat), ∃ (w : Nat), ∃ (rd : Nat), ∃ (rs1 : Nat), ∃ (rs2 : Nat), ∃ (imm : Word), s.slicesUp = true ∧ s.canIssue sl k i = true ∧ rd < 32 ∧ ∃ (n : Nat), decodeRv w = (n, some Rv.ecall) ∧ s.fetchStop sl k i n = none) ∧
    (∃ (s : State), ∃ (sl : Nat), ∃ (k : Nat), ∃ (i : Nat), ∃ (w : Nat), ∃ (rd : Nat), ∃ (rs1 : Nat), ∃ (rs2 : Nat), ∃ (imm : Word), s.slicesUp = true ∧ s.canIssue sl k i = true ∧ rd < 32 ∧ ∃ (n : Nat), decodeRv w = (n, some Rv.ebreak) ∧ s.fetchStop sl k i n = none) ∧
    (∃ (s : State), ∃ (sl : Nat), ∃ (k : Nat), ∃ (i : Nat), ∃ (w : Nat), s.slicesUp = true ∧ s.canIssue sl k i = true ∧ ∃ (code : Nat), s.fetchStop sl k i (decodeRv w).fst = some code ∧ True) ∧
    (∃ (s : State), ∃ (sl : Nat), ∃ (k : Nat), ∃ (i : Nat), ∃ (n : Nat), ∃ (h : Nat), s.trigHit sl k i 2 (s.pc sl k i) = true) ∧
    (∃ (s : State), ∃ (sl : Nat), ∃ (k : Nat), ∃ (i : Nat), ∃ (n : Nat), ∃ (h : Nat), s.trigHit sl k i 2 (s.pc sl k i) = false ∧ s.pc sl k i % 2 = 1) ∧
    (∃ (s : State), ∃ (sl : Nat), ∃ (k : Nat), ∃ (i : Nat), ∃ (n : Nat), ∃ (h : Nat), s.trigHit sl k i 2 (s.pc sl k i) = false ∧ s.pc sl k i % 2 = 0 ∧ s.regionOk sl k i RegionAcc.x (s.pc sl k i) n = false) :=
  ⟨⟨wTh.wr (R.THREAD_GPR 0 0 1 2) 62, 0, 0, 1, 0x00112023, 4, 5, 2, 1, 0#64, 2, 0x20000000, by decide +kernel⟩,
   ⟨wTh.wr (R.REGION_CFG 0 0 0) 0x155, 0, 0, 1, 0x00112023, 4, 5, 2, 1, 0#64, 2, 0x20000000, by decide +kernel⟩,
   ⟨coreInstructionsRun_13_s, 0, 1, 0x00112023, 4, 5, 2, 1, 0#64, 2, 0x20000000, chk (dA inferInstance (dA inferInstance (dA inferInstance (dVar fun _ => inferInstance)))) (by decide +kernel)⟩,
   ⟨wTh, 0, 0, 1, 0, 1, 0, 1, 5#64, chk (dA inferInstance (dA inferInstance (dA inferInstance (dPN fun _ => inferInstance)))) (by decide +kernel)⟩,
   ⟨wTh, 0, 0, 1, 0x73, 1, 0, 1, 5#64, chk (dA inferInstance (dA inferInstance (dA inferInstance (dPC fun _ => inferInstance)))) (by decide +kernel)⟩,
   ⟨wTh, 0, 0, 1, 0x100073, 1, 0, 1, 5#64, chk (dA inferInstance (dA inferInstance (dA inferInstance (dPC fun _ => inferInstance)))) (by decide +kernel)⟩,
   ⟨coreInstructionsRun_17_s, 0, 0, 1, 0x73, chk (dA inferInstance (dA inferInstance (dSome fun _ => inferInstance))) (by decide +kernel)⟩,
   (by refine ⟨{ wTh with core.triggers := [(0, 12#64)] }, 0, 0, 1, 4, 0x20000000, ?_⟩; decide +kernel),
   ⟨wTh, 0, 0, 32, 4, 0x20000000, by decide +kernel⟩,
   ⟨wTh, 0, 1, 1, 4, 0x20000000, by decide +kernel⟩⟩

/-- Core instructions, counter reads, traps and returns: clauses 21, 22, 23, 24, 25, 26, 27, 28, 29, 30. -/
theorem witness_CoreInstructionsRun_c :
    (∃ (s : State), ∃ (sl : Nat), ∃ (k : Nat), ∃ (i : Nat), ∃ (n : Nat), ∃ (h : Nat), s.trigHit sl k i 2 (s.pc sl k i) = false ∧ s.pc sl k i % 2 = 0 ∧ s.regionOk sl k i RegionAcc.x (s.pc sl k i) n = true ∧ s.place sl (s.pc sl k i) = Place.hbm h) ∧
    (∃ (s : State), ∃ (sl : Nat), ∃ (k : Nat), ∃ (i : Nat), ∃ (w : Nat), ∃ (rd : Nat), ∃ (csr : Nat), s.slicesUp = true ∧ s.canIssue sl k i = false) ∧
    (∃ (s : State), ∃ (sl : Nat), ∃ (k : Nat), ∃ (i : Nat), ∃ (w : Nat), ∃ (rd : Nat), ∃ (csr : Nat), s.slicesUp = true ∧ s.canIssue sl k i = false) ∧
    (∃ (s : State), ∃ (sl : Nat), ∃ (k : Nat), ∃ (i : Nat), ∃ (w : Nat), ∃ (rd : Nat), ∃ (csr : Nat), s.slicesUp = true ∧ s.canIssue sl k i = false) ∧
    (∃ (s : State), ∃ (sl : Nat), ∃ (k : Nat), ∃ (i : Nat), ∃ (rd : Nat), ∃ (n : Nat), s.slicesUp = true ∧ s.canIssue sl k i = true ∧ rd < 32 ∧ n < 32) ∧
    (∃ (s : State), ∃ (sl : Nat), ∃ (k : Nat), ∃ (i : Nat), ∃ (code : Nat), ∃ (tval : Nat), s.slicesUp = true ∧ s.threadExists sl k i = true ∧ i ≠ 0 ∧ s.thState sl k i = thRunning) ∧
    (∃ (s : State), ∃ (sl : Nat), ∃ (k : Nat), ∃ (i : Nat), ∃ (code : Nat), ∃ (tval : Nat), s.slicesUp = true ∧ (s.threadExists sl k i = false ∨ i = 0 ∨ s.thState sl k i ≠ thRunning)) ∧
    (∃ (s : State), ∃ (sl : Nat), ∃ (k : Nat), ∃ (code : Nat), ∃ (tval : Nat), s.slicesUp = true ∧ sl < 4 ∧ k < 4 ∧ s.thState sl k 0 = thRunning) ∧
    (∃ (s : State), ∃ (sl : Nat), ∃ (k : Nat), ∃ (code : Nat), ∃ (tval : Nat), ∃ (b : Bool), s.slicesUp = true ∧ sl < 4 ∧ k < 4 ∧ s.thState sl k 0 ≠ thRunning) ∧
    (∃ (s : State), ∃ (sl : Nat), ∃ (k : Nat), ∃ (code : Nat), ∃ (tval : Nat), s.slicesUp = true ∧ sl < 4 ∧ k < 4 ∧ (bitOf (s.curatorMip sl k) code = false ∨ bitOf (BitVec.toNat (s.csr sl k 0 csrMie 0)) code = false ∨ bitOf (BitVec.toNat (s.csr sl k 0 csrMstatus mstatusReset)) 3 = false)) :=
  ⟨⟨wTh.wr (R.THREAD_PC 0 0 1) 0x2020000000, 0, 0, 1, 4, 0x20000000, by decide +kernel⟩,
   ⟨wTh, 0, 0, 0, 0x00500093, 1, 0, by decide +kernel⟩,
   ⟨wTh, 0, 0, 0, 0x00500093, 1, 0, by decide +kernel⟩,
   ⟨wTh, 0, 0, 0, 0x00500093, 1, 0, by decide +kernel⟩,
   ⟨wTh, 0, 0, 1, 1, 4, by decide +kernel⟩,
   ⟨wTh, 0, 0, 1, 1, 0, by decide +kernel⟩,
   ⟨wTh, 0, 0, 0, 1, 0, by decide +kernel⟩,
   ⟨wTh, 0, 0, 1, 0, by decide +kernel⟩,
   ⟨wTh, 0, 1, 1, 0, false, by decide +kernel⟩,
   ⟨wTh, 0, 0, 1, 0, by decide +kernel⟩⟩

/-- Core instructions, counter reads, traps and returns: clauses 31, 32, 33. -/
theorem witness_CoreInstructionsRun_d :
    (∃ (s : State), ∃ (sl : Nat), ∃ (k : Nat), ∃ (code : Nat), ∃ (tval : Nat), s.slicesUp = true ∧ sl < 4 ∧ k < 4 ∧ s.thState sl k 0 = thRunning ∧ bitOf (s.curatorMip sl k) code = true ∧ bitOf (BitVec.toNat (s.csr sl k 0 csrMie 0)) code = true ∧ bitOf (BitVec.toNat (s.csr sl k 0 csrMstatus mstatusReset)) 3 = true ∧ s.on (F.CURATOR_STATUS_IN_TRAP sl k) = false) ∧
    (∃ (s : State), ∃ (sl : Nat), ∃ (k : Nat), s.slicesUp = true ∧ ∃ (i : Nat), 0 = i ∧ s.canIssue sl k i = true) ∧
    (∃ (s : State), ∃ (sl : Nat), ∃ (k : Nat), ∃ (i : Nat), s.slicesUp = true ∧ s.canIssue sl k i = true ∧ i ≠ 0) :=
  ⟨(by refine ⟨{ wTh0 with core.cfip := List.replicate 16 true, core.csrs := [(0x300, 8#64), (0x304, 65536#64)] }, 0, 0, 16, 0, ?_⟩; decide +kernel),
   ⟨wTh0, 0, 0, chk (dA inferInstance (dVar fun _ => inferInstance)) (by decide +kernel)⟩,
   ⟨wTh, 0, 0, 1, by decide +kernel⟩⟩

def threadAndClusterCommands_13_s : State :=
  wTh.queueFault 0 0 ⟨1, 2, false, 0, 0, 0⟩

def threadAndClusterCommands_22_s : State :=
  { (w1 wTh (F.CLUSTER_STATE 0 0) 3) with keeperPend := [⟨R.CLUSTER_STATE 0 0, 0, 0⟩] }

/-- Thread and cluster commands, fault records and debug: clauses 0, 1, 2, 5, 6, 7, 8, 9, 10, 11. -/
theorem witness_ThreadAndClusterCommands_a :
    (∃ (s : State), ∃ (g : Agent), ∃ (sl : Nat), ∃ (k : Nat), ∃ (i : Nat), s.slicesUp = true ∧ accessOk (R.THREAD_CTRL sl k i) true g = true ∧ s.threadExists sl k i = true ∧ s.fld (F.CLUSTER_STATE sl k) ≠ 2 ∧ (s.thState sl k i = thFaulted ∨ s.thState sl k i = thParked) ∧ i ≠ 0) ∧
    (∃ (s : State), ∃ (g : Agent), ∃ (sl : Nat), ∃ (k : Nat), ∃ (i : Nat), s.slicesUp = true ∧ accessOk (R.THREAD_CTRL sl k i) true g = true ∧ s.threadExists sl k i = true ∧ s.fld (F.CLUSTER_STATE sl k) ≠ 2 ∧ (s.thState sl k i = thFaulted ∨ s.thState sl k i = thParked) ∧ i ≠ 0 ∧ s.on (F.THREAD_STATE_HOLDS_OPEN sl k i) = false) ∧
    (∃ (s : State), ∃ (g : Agent), ∃ (sl : Nat), ∃ (k : Nat), ∃ (i : Nat), s.slicesUp = true ∧ accessOk (R.THREAD_CTRL sl k i) true g = true ∧ s.threadExists sl k i = true ∧ s.fld (F.CLUSTER_STATE sl k) ≠ 2 ∧ (s.thState sl k i = thFaulted ∨ s.thState sl k i = thParked) ∧ i ≠ 0 ∧ s.on (F.THREAD_STATE_HOLDS_OPEN sl k i) = false) ∧
    (∃ (s : State), ∃ (g : Agent), ∃ (sl : Nat), ∃ (k : Nat), ∃ (i : Nat), s.slicesUp = true ∧ accessOk (R.THREAD_CTRL sl k i) true g = true ∧ s.threadExists sl k i = true ∧ s.fld (F.CLUSTER_STATE sl k) ≠ 2 ∧ s.thState sl k i = thHalted ∧ i ≠ 0) ∧
    (∃ (s : State), ∃ (g : Agent), ∃ (sl : Nat), ∃ (k : Nat), ∃ (i : Nat), s.slicesUp = true ∧ accessOk (R.THREAD_CTRL sl k i) true g = true ∧ s.threadExists sl k i = true ∧ s.fld (F.CLUSTER_STATE sl k) ≠ 2 ∧ s.thState sl k i = thHalted ∧ i ≠ 0) ∧
    (∃ (s : State), ∃ (g : Agent), ∃ (sl : Nat), ∃ (k : Nat), ∃ (i : Nat), s.slicesUp = true ∧ accessOk (R.THREAD_CTRL sl k i) true g = true ∧ s.threadExists sl k i = true ∧ s.fld (F.CLUSTER_STATE sl k) ≠ 2 ∧ s.thState sl k i = thHalted) ∧
    (∃ (s : State), ∃ (g : Agent), ∃ (sl : Nat), ∃ (k : Nat), ∃ (i : Nat), s.slicesUp = true ∧ (accessOk (R.THREAD_CTRL sl k i) true g = false ∨ s.threadExists sl k i = false ∨ s.fld (F.CLUSTER_STATE sl k) = 2 ∨ s.thState sl k i = thRunning)) ∧
    (∃ (s : State), ∃ (g : Agent), ∃ (sl : Nat), ∃ (k : Nat), ∃ (i : Nat), s.slicesUp = true ∧ (accessOk (R.THREAD_CTRL sl k i) true g = false ∨ s.threadExists sl k i = false ∨ s.fld (F.CLUSTER_STATE sl k) = 2 ∨ s.thState sl k i = thRunning)) ∧
    (∃ (s : State), ∃ (g : Agent), ∃ (sl : Nat), ∃ (k : Nat), ∃ (i : Nat), s.slicesUp = true ∧ (accessOk (R.THREAD_CTRL sl k i) true g = false ∨ s.threadExists sl k i = false ∨ s.fld (F.CLUSTER_STATE sl k) = 2 ∨ s.thState sl k i = thRunning)) ∧
    (∃ (s : State), ∃ (g : Agent), ∃ (sl : Nat), ∃ (k : Nat), s.slicesUp = true ∧ ∃ (i : Nat), 0 = i ∧ True) :=
  ⟨⟨wTh.setThState 0 0 1 2, .hart 0 0 0, 0, 0, 1, by decide +kernel⟩,
   ⟨wTh.setThState 0 0 1 2, .hart 0 0 0, 0, 0, 1, by decide +kernel⟩,
   ⟨wTh.setThState 0 0 1 2, .hart 0 0 0, 0, 0, 1, by decide +kernel⟩,
   ⟨wTh.setThState 0 0 1 3, .hart 0 0 0, 0, 0, 1, by decide +kernel⟩,
   ⟨wTh.setThState 0 0 1 3, .hart 0 0 0, 0, 0, 1, by decide +kernel⟩,
   ⟨wTh.setThState 0 0 1 3, .hart 0 0 0, 0, 0, 1, by decide +kernel⟩,
   ⟨wTh.setThState 0 0 1 2, .hart 0 0 0, 0, 0, 0, by decide +kernel⟩,
   ⟨wTh.setThState 0 0 1 2, .hart 0 0 0, 0, 0, 0, by decide +kernel⟩,
   ⟨wTh.setThState 0 0 1 2, .hart 0 0 0, 0, 0, 0, by decide +kernel⟩,
   ⟨wTh.setThState 0 0 1 2, .hart 0 0 0, 0, 0, chk (dA inferInstance (dVar fun _ => inferInstance)) (by decide +kernel)⟩⟩

/-- Thread and cluster commands, fault records and debug: clauses 12, 13, 14, 15, 16, 17, 18, 19, 20, 21. -/
theorem witness_ThreadAndClusterCommands_b :
    (∃ (s : State), ∃ (g : Agent), ∃ (sl : Nat), ∃ (k : Nat), s.slicesUp = true ∧ ∃ (i : Nat), 0 = i ∧ True) ∧
    (∃ (s : State), ∃ (g : Agent), ∃ (sl : Nat), ∃ (k : Nat), s.slicesUp = true ∧ accessOk (R.FAULT_POP sl k) true g = true ∧ ∃ (r : FaultRec), ∃ (rest : List FaultRec), (s.clx sl k).faults = r :: rest ∧ True) ∧
    (∃ (s : State), ∃ (g : Agent), ∃ (sl : Nat), ∃ (k : Nat), s.slicesUp = true ∧ accessOk (R.FAULT_POP sl k) true g = true ∧ (s.clx sl k).faults = []) ∧
    (∃ (s : State), ∃ (g : Agent), ∃ (sl : Nat), ∃ (k : Nat), s.slicesUp = true ∧ accessOk (R.FAULT_POP sl k) true g = false) ∧
    (∃ (s : State), ∃ (g : Agent), ∃ (sl : Nat), ∃ (k : Nat), s.slicesUp = true ∧ accessOk (R.CLUSTER_CTRL sl k) true g = true ∧ s.fld (F.CLUSTER_STATE sl k) = 0) ∧
    (∃ (s : State), ∃ (g : Agent), ∃ (sl : Nat), ∃ (k : Nat), s.slicesUp = true ∧ (accessOk (R.CLUSTER_CTRL sl k) true g = false ∨ s.fld (F.CLUSTER_STATE sl k) ≠ 0)) ∧
    (∃ (s : State), ∃ (g : Agent), ∃ (sl : Nat), ∃ (k : Nat), s.slicesUp = true ∧ accessOk (R.CLUSTER_CTRL sl k) true g = false) ∧
    (∃ (s : State), ∃ (g : Agent), ∃ (sl : Nat), ∃ (k : Nat), s.slicesUp = true ∧ sl < 4 ∧ k < 4 ∧ accessOk (R.CLUSTER_CTRL sl k) true g = true ∧ ((s.clx sl k).deferred.all fun (e : Nat × List Nat × HwMsg) => decide (e.snd.snd = HwMsg.plain)) = true) ∧
    (∃ (s : State), ∃ (sl : Nat), ∃ (k : Nat), s.slicesUp = true ∧ s.fld (F.CLUSTER_STATE sl k) = 2) ∧
    (∃ (s : State), ∃ (sl : Nat), ∃ (k : Nat), s.slicesUp = true ∧ s.fld (F.CLUSTER_STATE sl k) ≠ 2) :=
  ⟨⟨wTh.setThState 0 0 1 2, .hart 0 0 0, 0, 0, chk (dA inferInstance (dVar fun _ => inferInstance)) (by decide +kernel)⟩,
   ⟨threadAndClusterCommands_13_s, .hart 0 0 0, 0, 0, chk (dA inferInstance (dA inferInstance (dCons fun _ _ => inferInstance))) (by decide +kernel)⟩,
   ⟨wTh.setThState 0 0 1 2, .hart 0 0 0, 0, 0, by decide +kernel⟩,
   ⟨wTh.setThState 0 0 1 2, .hart 0 0 0, 0, 1, by decide +kernel⟩,
   ⟨wTh.setThState 0 0 1 2, .keeper, 0, 0, by decide +kernel⟩,
   ⟨wTh.setThState 0 0 1 2, .hart 0 0 0, 0, 0, by decide +kernel⟩,
   ⟨wTh.setThState 0 0 1 2, .hart 0 0 0, 0, 0, by decide +kernel⟩,
   ⟨wTh.setThState 0 0 1 2, .keeper, 0, 0, by decide +kernel⟩,
   ⟨w1 wTh (F.CLUSTER_STATE 0 0) 2, 0, 0, by decide +kernel⟩,
   ⟨wTh.setThState 0 0 1 2, 0, 0, by decide +kernel⟩⟩

/-- Thread and cluster commands, fault records and debug: clauses 22, 23, 24, 25, 26, 27, 28. -/
theorem witness_ThreadAndClusterCommands_c :
    (∃ (s : State), ∃ (sl : Nat), ∃ (k : Nat), s.running = true ∧ s.boot.romPending = false ∧ sl < 4 ∧ k < 4 ∧ ∃ (e : KeeperInt), ∃ (rest : List KeeperInt), takeFirst (isDeadlockInt sl k) s.keeperPend = some (e, rest) ∧ True) ∧
    (∃ (s : State), ∃ (sl : Nat), ∃ (k : Nat), s.running = true ∧ s.boot.romPending = false ∧ sl < 4 ∧ k < 4 ∧ (s.keeperPend.all fun (e : KeeperInt) => !isDeadlockInt sl k e) = true) ∧
    (∃ (s : State), ∃ (sl : Nat), ∃ (k : Nat), ∃ (i : Nat), ∃ (cause : Nat), s.slicesUp = true ∧ s.threadExists sl k i = true ∧ s.thState sl k i ≠ thHalted) ∧
    (∃ (s : State), ∃ (sl : Nat), ∃ (k : Nat), ∃ (i : Nat), ∃ (cause : Nat), s.slicesUp = true ∧ (s.threadExists sl k i = false ∨ s.thState sl k i = thHalted)) ∧
    (∃ (s : State), ∃ (sl : Nat), ∃ (k : Nat), ∃ (i : Nat), s.slicesUp = true ∧ s.thState sl k i = thHalted ∧ s.on (F.THREAD_STATE_HOLDS_OPEN sl k i) = false) ∧
    (∃ (s : State), ∃ (sl : Nat), ∃ (k : Nat), ∃ (i : Nat), s.slicesUp = true ∧ s.thState sl k i = thHalted ∧ s.on (F.THREAD_STATE_HOLDS_OPEN sl k i) = true ∧ (s.thx sl k i).pendingCmd ≤ 1) ∧
    (∃ (s : State), ∃ (sl : Nat), ∃ (k : Nat), ∃ (i : Nat), s.slicesUp = true ∧ s.thState sl k i ≠ thHalted) :=
  ⟨⟨threadAndClusterCommands_22_s, 0, 0, chk (dA inferInstance (dA inferInstance (dA inferInstance (dA inferInstance (dSome2 fun _ _ => inferInstance))))) (by decide +kernel)⟩,
   ⟨wTh.setThState 0 0 1 2, 0, 0, by decide +kernel⟩,
   ⟨wTh.setThState 0 0 1 2, 0, 0, 0, 0, by decide +kernel⟩,
   ⟨wTh.setThState 0 0 1 2, 0, 0, 32, 0, by decide +kernel⟩,
   ⟨wTh.setThState 0 0 1 3, 0, 0, 1, by decide +kernel⟩,
   ⟨(wHold [1]).setThState 0 0 1 3, 0, 0, 1, by decide +kernel⟩,
   ⟨wTh.setThState 0 0 1 2, 0, 0, 0, by decide +kernel⟩⟩

end Sys2Proof.Tests
end

