-- ==== Sys2Proof/Tests/WitnessGeneral.lean ====
section
/-!
SUPPORT. Witnesses: a state and operands that meet the hypotheses of each clause of the statements named, together.
-/

set_option linter.unusedVariables false
set_option Elab.async false
set_option maxRecDepth 100000

namespace Sys2Proof.Tests
open Sys2Proof.Machine

/-- What reset leaves: clauses 2. -/
theorem witness_ResetIsClean :
    ∃ (a : Nat), ∃ (r : RegRow), findRow a = some r ∧ True :=
  ⟨R.ANX_VERSION, chk (dSome fun _ => inferInstance) (by decide +kernel)⟩

/-- A device held in reset, or saving, ignores every command but a few: clauses 0. -/
theorem witness_HeldDeviceIgnoresCommands :
    ∃ (c : Instr), ∃ (s : State), s.running = false ∧ c.reachesHeld = false :=
  (by refine ⟨.ethLinkUp 0 0, { State.reset with boot.held := true }, ?_⟩; decide +kernel)

/-- A step on the empty queue lets one fabric tick pass: clauses 0. -/
theorem witness_EmptyQueueTick :
    ∃ (s : State), s.pending = [] ∧ s.running = false :=
  (by refine ⟨{ State.reset with boot.held := true }, ?_⟩; decide +kernel)

def deviceResetsBeginAndEnd_2_s : State :=
  { wUp with boot.watchdog := some 0 }

def deviceResetsBeginAndEnd_5_s : State :=
  { wUp with mgmt.resetAt := some 0 }

/-- Device resets begin and end: clauses 0, 1, 2, 3, 4, 5. -/
theorem witness_DeviceResetsBeginAndEnd :
    (∃ (s : State), ∃ (saved : Nat), s.boot.held = false) ∧
    (∃ (s : State), ∃ (ok : Bool), ∃ (saved : Nat), s.boot.held = false ∧ s.flash.saving = true) ∧
    (∃ (s : State), s.running = true ∧ ∃ (at' : Nat), s.boot.watchdog = some at' ∧ at' ≤ s.time.mono) ∧
    (∃ (s : State), ∃ (straps : Nat), s.boot.resetLow = true ∧ s.boot.tripped = false) ∧
    (∃ (s : State), ∃ (straps : Nat), s.boot.resetLow = false ∧ s.boot.tripped = false ∧ s.boot.held = true ∧ (s.boot.internal = 1 ∨ s.boot.internal = 2)) ∧
    (∃ (s : State), ∃ (straps : Nat), s.boot.resetLow = false ∧ s.boot.tripped = false ∧ s.running = true ∧ ∃ (at' : Nat), s.mgmt.resetAt = some at' ∧ at' ≤ s.time.mono) :=
  ⟨(by refine ⟨{ wUp with flash.saving := true }, 0, ?_⟩; decide +kernel),
   (by refine ⟨{ wUp with flash.saving := true }, false, 0, ?_⟩; decide +kernel),
   ⟨deviceResetsBeginAndEnd_2_s, chk (dA inferInstance (dSome fun _ => inferInstance)) (by decide +kernel)⟩,
   (by refine ⟨{ wUp with boot.held := true, boot.resetLow := true }, 0, ?_⟩; decide +kernel),
   (by refine ⟨{ wUp with boot.held := true, boot.internal := 1 }, 0, ?_⟩; decide +kernel),
   ⟨deviceResetsBeginAndEnd_5_s, 0, chk (dA inferInstance (dA inferInstance (dA inferInstance (dSome fun _ => inferInstance)))) (by decide +kernel)⟩⟩

/-- Plinth ROM with nothing that boots enters Recovery, and boots a slot that verifies: clauses 0, 2, 3. -/
theorem witness_PlinthRomChoosesAndRecovers :
    (∃ (s : State), ∃ (info : BootInfo), s.running = true ∧ s.boot.romPending = true ∧ s.boot.flagA = none ∧ s.boot.flagB = none ∧ s.boot.commits = [none, none, none] ∧ s.on F.STRAP_STATUS_GOLDEN_N = true ∧ s.on F.STRAP_STATUS_RECOVER_N = true) ∧
    (∃ (s : State), ∃ (g : Agent), s.running = true ∧ s.boot.recovery = true ∧ accessOk R.RCV_CTRL true g = true) ∧
    (∃ (s : State), ∃ (g : Agent), s.running = true ∧ (s.boot.recovery = false ∨ accessOk R.RCV_CTRL true g = false)) :=
  ⟨⟨State.reset, ⟨true, true, true, [], [], []⟩, by decide +kernel⟩,
   ⟨wRec, .manager, by decide +kernel⟩,
   ⟨wUp, .keeper, by decide +kernel⟩⟩

/-- A violating register access does nothing and reads zero: clauses 0, 1, 2, 3, 4, 5. -/
theorem witness_RegisterViolationsAreIgnored :
    (∃ (s : State), ∃ (g : Agent), ∃ (a : Nat), ∃ (size : Nat), ∃ (v : Nat), s.running = true ∧ a < barSpace ∧ (g = Agent.keeper → s.keeperPlace a size = none) ∧ inAnnex a = false ∧ s.mayAccess g a size true = false) ∧
    (∃ (s : State), ∃ (g : Agent), ∃ (a : Nat), ∃ (size : Nat), ∃ (v : Nat), s.running = true ∧ a < barSpace ∧ (g = Agent.keeper → s.keeperPlace a size = none) ∧ inAnnex a = false ∧ s.mayAccess g a size false = false) ∧
    (∃ (s : State), ∃ (g : Agent), ∃ (a : Nat), ∃ (size : Nat), ∃ (v : Nat), s.running = true ∧ a < barSpace ∧ (g = Agent.keeper → s.keeperPlace a size = none) ∧ inAnnex a = false ∧ findRow a = none) ∧
    (∃ (s : State), ∃ (g : Agent), ∃ (a : Nat), ∃ (size : Nat), ∃ (v : Nat), s.running = true ∧ a < barSpace ∧ (g = Agent.keeper → s.keeperPlace a size = none) ∧ inAnnex a = false ∧ findRow a = none) ∧
    (∃ (s : State), ∃ (g : Agent), ∃ (a : Nat), ∃ (size : Nat), ∃ (v : Nat), s.running = true ∧ a < barSpace ∧ (g = Agent.keeper → s.keeperPlace a size = none) ∧ inAnnex a = false ∧ (size ≠ 4 ∧ size ≠ 8 ∨ a % size ≠ 0)) ∧
    (∃ (s : State), ∃ (g : Agent), ∃ (a : Nat), ∃ (size : Nat), ∃ (v : Nat), s.running = true ∧ a < barSpace ∧ (g = Agent.keeper → s.keeperPlace a size = none) ∧ inAnnex a = false ∧ (size ≠ 4 ∧ size ≠ 8 ∨ a % size ≠ 0)) :=
  ⟨⟨wUp, .manager, 0, 0, 0, by decide +kernel⟩,
   ⟨wUp, .manager, 0, 0, 0, by decide +kernel⟩,
   ⟨wUp, .manager, 0, 0, 0, by decide +kernel⟩,
   ⟨wUp, .manager, 0, 0, 0, by decide +kernel⟩,
   ⟨wUp, .manager, 0, 0, 0, by decide +kernel⟩,
   ⟨wUp, .manager, 0, 0, 0, by decide +kernel⟩⟩

def registerAccessesStoreAndRestart_0_s : State :=
  { wUp with rises := [(64 * 5 + 3, (0, 0))] }

def registerAccessesStoreAndRestart_1_s : State :=
  wF wUp [(F.SR_STATE_STATE 0 0, 1)]

/-- A permitted write stores by access type; a read of a peak restarts it: clauses 0, 1, 2, 3, 4, 5. -/
theorem witness_RegisterAccessesStoreAndRestart :
    (∃ (s : State), ∃ (g : Agent), ∃ (a : Nat), ∃ (v : Nat), s.running = true ∧ a < barSpace ∧ (g = Agent.keeper → s.keeperPlace a 8 = none) ∧ inAnnex a = false ∧ s.mayAccess g a 8 true = true ∧ ∃ (r : RegRow), findRow a = some r ∧ r.bytes = 8 ∧ r.plain = true ∧ (s.wakeFor a).honoured r.base (r.idx a) = true) ∧
    (∃ (s : State), ∃ (g : Agent), ∃ (a : Nat), ∃ (v : Nat), s.running = true ∧ a < barSpace ∧ (g = Agent.keeper → s.keeperPlace a 8 = none) ∧ inAnnex a = false ∧ s.mayAccess g a 8 true = true ∧ ∃ (r : RegRow), findRow a = some r ∧ r.bytes = 8 ∧ r.plain = true ∧ (s.wakeFor a).honoured r.base (r.idx a) = false) ∧
    (∃ (s : State), ∃ (a : Nat), ∃ (i : Nat), i < 64 ∧ ∃ (e : Nat × Nat × Nat), e ∈ s.rises ∧ e.fst = riseKey a i ∧ e.snd.fst = s.time.mono) ∧
    (∃ (old : Word), ∃ (val : Word), ∃ (hold : Word), ∃ (i : Nat), i < 64 ∧ BitVec.getLsbD old i = true) ∧
    (∃ (s : State), ∃ (k : Nat), s.running = true ∧ s.boot.recovery = false ∧ k < 4 ∧ (s.idleX k).move = 0 ∧ s.fld (F.PWR_SI_STATE_STATE k) = 0) ∧
    (∃ (s : State), s.running = true ∧ s.boot.recovery = false) :=
  ⟨⟨registerAccessesStoreAndRestart_0_s, .keeper, R.PWR_CAP, 0, chk (dA inferInstance (dA inferInstance (dA inferInstance (dA inferInstance (dA inferInstance (dSome fun _ => inferInstance)))))) (by decide +kernel)⟩,
   ⟨registerAccessesStoreAndRestart_1_s, .keeper, R.SR_BASE 0 0, 0, chk (dA inferInstance (dA inferInstance (dA inferInstance (dA inferInstance (dA inferInstance (dSome fun _ => inferInstance)))))) (by decide +kernel)⟩,
   (by refine ⟨{ wUp with rises := [(64 * 5 + 3, (0, 0))] }, 5, 3, ?_⟩; decide +kernel),
   ⟨1, 0, 0, 0, by decide +kernel⟩,
   (by refine ⟨{ wUp with rises := [(64 * 5 + 3, (0, 0))] }, 0, ?_⟩; decide +kernel),
   (by refine ⟨{ wUp with rises := [(64 * 5 + 3, (0, 0))] }, ?_⟩; decide +kernel)⟩

def portsAndFramesArrive_3_s : State :=
  { wEth with eth.egress := [wEg] }

def portsAndFramesArrive_9_s : State :=
  wEth.setFld (F.PB_CLASS_USE 0 0) 0x4000

def portsAndFramesArrive_10_s : State :=
  wEth.setFld (F.PB_CLASS_USE 0 0) 0x18000

def portsAndFramesArrive_11_s : State :=
  ({ wEth with eth.queues := [[], [], [], []] } : State).setFrame wFrame

def portsAndFramesArrive_12_s : State :=
  ({ wEth with eth.queues := [List.replicate 1024 1, [], [], []] } : State).setFrame wFrame

def portsAndFramesArrive_14_s : State :=
  ({ wEth with eth.queues := [List.replicate 1024 1, [], [], []] } : State).setFrame wFrame

def portsAndFramesArrive_15_s : State :=
  { wUp with keeperPend := [⟨R.PWR_INT_STATUS, 0, 0⟩] }

/-- Port links, reception, the parse queue and dispatch: clauses 0, 1, 2, 3, 4, 5, 6, 7, 8, 9. -/
theorem witness_PortsAndFramesArrive_a :
    (∃ (s : State), ∃ (k : Nat), ∃ (p : Nat), s.slicesUp = true ∧ s.portHere k p = true) ∧
    (∃ (s : State), ∃ (k : Nat), ∃ (p : Nat), s.slicesUp = true ∧ s.portHere k p = false) ∧
    (∃ (s : State), ∃ (k : Nat), ∃ (p : Nat), s.slicesUp = true ∧ p < 64 ∧ s.linkUp k p = true ∧ s.portEgress k p = []) ∧
    (∃ (s : State), ∃ (k : Nat), ∃ (p : Nat), s.slicesUp = true ∧ s.linkUp k p = true ∧ ∃ (e : Egress), s.portEgress k p = [e] ∧ e.begun = false) ∧
    (∃ (s : State), ∃ (k : Nat), ∃ (p : Nat), s.slicesUp = true ∧ s.linkUp k p = false) ∧
    (∃ (s : State), ∃ (k : Nat), ∃ (p : Nat), ∃ (data : List Byte), ∃ (n : Nat), ∃ (ok : Bool), s.slicesUp = true ∧ (s.linkUp k p = false ∨ beAt data 12 2 = 34824)) ∧
    (∃ (s : State), ∃ (k : Nat), ∃ (p : Nat), ∃ (data : List Byte), ∃ (n : Nat), ∃ (ok : Bool), s.slicesUp = true ∧ k < 4 ∧ s.linkUp k p = true ∧ beAt data 12 2 ≠ 34824 ∧ s.power.slices.length = 4 ∧ (s.idleX k).move = 2 ∧ (s.idleX k).wakeBytes + (List.take (s.fld (F.PARSE_PORT_CFG_MAX_FRAME k p)) data).length ≤ 262144) ∧
    (∃ (s : State), ∃ (k : Nat), ∃ (p : Nat), ∃ (data : List Byte), ∃ (n : Nat), ∃ (ok : Bool), s.slicesUp = true ∧ k < 4 ∧ s.linkUp k p = true ∧ beAt data 12 2 ≠ 34824 ∧ s.power.slices.length = 4 ∧ (s.idleX k).move = 2 ∧ 262144 < (s.idleX k).wakeBytes + (List.take (s.fld (F.PARSE_PORT_CFG_MAX_FRAME k p)) data).length) ∧
    (∃ (s : State), ∃ (k : Nat), ∃ (p : Nat), ∃ (data : List Byte), ∃ (n : Nat), ∃ (ok : Bool), s.slicesUp = true ∧ k < 4 ∧ s.linkUp k p = true ∧ beAt data 12 2 ≠ 34824 ∧ s.awake k = true ∧ ∃ (kept : List Byte), List.take (s.fld (F.PARSE_PORT_CFG_MAX_FRAME k p)) data = kept ∧ 0 < min n kept.length ∧ min n kept.length ≤ 256 ∧ ∃ (c : Nat), s.fld (F.PARSE_PORT_CFG_PB_CLASS k p) = c ∧ s.cellAnswer k c = CellAnswer.grant) ∧
    (∃ (s : State), ∃ (k : Nat), ∃ (p : Nat), ∃ (data : List Byte), ∃ (n : Nat), ∃ (ok : Bool), s.slicesUp = true ∧ k < 4 ∧ s.linkUp k p = true ∧ beAt data 12 2 ≠ 34824 ∧ s.awake k = true ∧ ∃ (kept : List Byte), List.take (s.fld (F.PARSE_PORT_CFG_MAX_FRAME k p)) data = kept ∧ 0 < min n kept.length ∧ min n kept.length ≤ 256 ∧ ∃ (c : Nat), s.fld (F.PARSE_PORT_CFG_PB_CLASS k p) = c ∧ (s.cellAnswer k c = CellAnswer.contend ∨ s.cellAnswer k c = CellAnswer.refuse ∧ c = 2)) :=
  ⟨⟨wEth, 0, 0, by decide +kernel⟩,
   ⟨wEth, 0, 1, by decide +kernel⟩,
   ⟨wEth, 0, 0, by decide +kernel⟩,
   ⟨portsAndFramesArrive_3_s, 0, 0, chk (dA inferInstance (dA inferInstance (dCC fun _ => inferInstance))) (by decide +kernel)⟩,
   ⟨wEth, 0, 1, by decide +kernel⟩,
   ⟨wEth, 0, 1, [], 64, false, by decide +kernel⟩,
   (by refine ⟨{ wEth with power.slices := [{ move := 2 }, {}, {}, {}] }, 0, 0, [], 64, false, ?_⟩; decide +kernel),
   (by refine ⟨{ wEth with power.slices := [{ move := 2, wakeBytes := 262144 }, {}, {}, {}] }, 0, 0, List.replicate 8 0, 64, false, ?_⟩; decide +kernel),
   ⟨wEth, 0, 0, List.replicate 8 0, 64, false, chk (dA inferInstance (dA inferInstance (dA inferInstance (dA inferInstance (dA inferInstance (dVar fun _ => (dA inferInstance (dA inferInstance (dVar fun _ => inferInstance))))))))) (by decide +kernel)⟩,
   ⟨portsAndFramesArrive_9_s, 0, 0, List.replicate 8 0, 64, false, chk (dA inferInstance (dA inferInstance (dA inferInstance (dA inferInstance (dA inferInstance (dVar fun _ => (dA inferInstance (dA inferInstance (dVar fun _ => inferInstance))))))))) (by decide +kernel)⟩⟩

/-- Port links, reception, the parse queue and dispatch: clauses 10, 11, 12, 13, 14, 15. -/
theorem witness_PortsAndFramesArrive_b :
    (∃ (s : State), ∃ (k : Nat), ∃ (p : Nat), ∃ (data : List Byte), ∃ (n : Nat), ∃ (ok : Bool), s.slicesUp = true ∧ k < 4 ∧ s.linkUp k p = true ∧ beAt data 12 2 ≠ 34824 ∧ s.awake k = true ∧ s.eth.egress = [] ∧ ∃ (kept : List Byte), List.take (s.fld (F.PARSE_PORT_CFG_MAX_FRAME k p)) data = kept ∧ 0 < min n kept.length ∧ min n kept.length ≤ 256 ∧ ∃ (c : Nat), s.fld (F.PARSE_PORT_CFG_PB_CLASS k p) = c ∧ s.cellAnswer k c = CellAnswer.refuse ∧ c ≠ 2) ∧
    (∃ (s : State), ∃ (id : Nat), s.slicesUp = true ∧ ∃ (f : Frame), s.frame? id = some f ∧ f.stage = FStage.arriving ∧ min 256 f.data.length ≤ f.arrived ∧ f.cellWait = 0 ∧ f.id = id ∧ (s.eth.queues.getD f.slice []).length < 1024 ∧ f.slice < s.eth.queues.length) ∧
    (∃ (s : State), ∃ (id : Nat), s.slicesUp = true ∧ ∃ (f : Frame), s.frame? id = some f ∧ f.stage = FStage.arriving ∧ min 256 f.data.length ≤ f.arrived ∧ f.cellWait = 0 ∧ 1024 ≤ (s.eth.queues.getD f.slice []).length) ∧
    (∃ (s : State), ∃ (k : Nat), s.slicesUp = true ∧ (s.awake k = false ∨ s.eth.queues.getD k [] = [] ∨ s.freeCtx k = none)) ∧
    (∃ (s : State), ∃ (k : Nat), s.slicesUp = true ∧ s.awake k = true ∧ k < s.eth.queues.length ∧ ∃ (id : Nat), ∃ (rest : List Nat), s.eth.queues.getD k [] = id :: rest ∧ ∃ (i : Nat), s.freeCtx k = some i ∧ ∃ (f : Frame), s.frame? id = some f ∧ f.id = id) ∧
    (∃ (s : State), s.running = true ∧ s.boot.romPending = false ∧ ∃ (e : KeeperInt), ∃ (rest : List KeeperInt), takeFirst (fun (x : KeeperInt) => !isClusterInt x) s.keeperPend = some (e, rest) ∧ eventCode e.addr e.bit = none) :=
  ⟨⟨portsAndFramesArrive_10_s, 0, 0, List.replicate 8 0, 64, false, chk (dA inferInstance (dA inferInstance (dA inferInstance (dA inferInstance (dA inferInstance (dA inferInstance (dVar fun _ => (dA inferInstance (dA inferInstance (dVar fun _ => inferInstance)))))))))) (by decide +kernel)⟩,
   ⟨portsAndFramesArrive_11_s, 1, chk (dA inferInstance (dSome fun _ => inferInstance)) (by decide +kernel)⟩,
   ⟨portsAndFramesArrive_12_s, 1, chk (dA inferInstance (dSome fun _ => inferInstance)) (by decide +kernel)⟩,
   ⟨wEth, 0, by decide +kernel⟩,
   ⟨portsAndFramesArrive_14_s, 0, chk (dA inferInstance (dA inferInstance (dA inferInstance (dCons fun _ _ => (dSome fun _ => (dSome fun _ => inferInstance)))))) (by decide +kernel)⟩,
   ⟨portsAndFramesArrive_15_s, chk (dA inferInstance (dA inferInstance (dSome2 fun _ _ => inferInstance))) (by decide +kernel)⟩⟩

/-- A step takes the command at the front, and keeps what mip shows: both can be met. -/
theorem witness_EveryStepKeepsMip : ∃ (s t : State), s.mipAgrees ∧ step s = .next t :=
  ⟨State.reset.settle State.reset, _, State.settle_mipAgrees _ _, rfl⟩

/-- HBM reads back what was written: clause 5. -/
theorem witness_MemoryReadsWhatWasWritten_alike : ∃ (s : State), ∃ (t : State), Memory.wf s.mem.hbm = true ∧ Memory.wf t.mem.hbm = true ∧ ∀ (x : Nat), s.hbmByte x = t.hbmByte x :=
  ⟨wUp, wUp, by decide +kernel, by decide +kernel, fun _ => rfl⟩

end Sys2Proof.Tests
end

