-- ==== Sys2Proof/Tests/WitnessKorrum.lean ====
section
/-!
SUPPORT. Witnesses: a state and operands that meet the hypotheses of each clause of the statements named, together.
-/

set_option linter.unusedVariables false
set_option Elab.async false
set_option maxRecDepth 100000

namespace Sys2Proof.Tests
open Sys2Proof.Machine

def korrumPortsTrainAndRetry_31_s : State :=
  wKl wUp 5 { held := [wBlk], replay := some 4 }

def korrumPortsTrainAndRetry_37_s : State :=
  { wKl wUp 5 { held := [wBlk] } with time.mono := 6400 }

def korrumPortsTrainAndRetry_38_s : State :=
  wKl wUp 5 { inbox := [{ wPk 12 with mayIgnore := true }] }

def korrumPortsTrainAndRetry_39_s : State :=
  wKl wUp 5 { inbox := [wPk 12] }

def korrumPortsTrainAndRetry_40_s : State :=
  wKl wUp 5 { inbox := [{ wPk 1 with hops := 7 }] }

def korrumPortsTrainAndRetry_41_s : State :=
  w1 (wKl wUp 5 { inbox := [wPk 11] }) (F.KL_ROUTE 9) 2

def korrumPortsTrainAndRetry_42_s : State :=
  wF (wKl wUp 5 { inbox := [wPk 9] }) [(F.FED_ID_VALID, 1), (F.FED_ID_ID, 9)]

def korrumPortsTrainAndRetry_43_s : State :=
  wF (wKl wUp 5 { inbox := [wPk 1] }) [(F.FED_ID_VALID, 1), (F.FED_ID_ID, 9)]

def korrumPortsTrainAndRetry_44_s : State :=
  wF (wKl wUp 5 { inbox := [{ wPk 8 with payload := leBytes 8 0 ++ leBytes 8 5 ++ List.replicate 32 0 }] }) [(F.FED_ID_VALID, 1), (F.FED_ID_ID, 9)]

def korrumPortsTrainAndRetry_45_s : State :=
  wF (wKl wUp 5 { inbox := [wPk 3] }) [(F.FED_ID_VALID, 1), (F.FED_ID_ID, 9)]

/-- Korrum ports follow their state machine, and blocks are numbered, held and replayed: clauses 0, 1, 2, 3, 4, 5, 6, 7, 8, 9. -/
theorem witness_KorrumPortsTrainAndRetry_a :
    (∃ (s : State), ∃ (g : Agent), ∃ (p : Nat), s.slicesUp = true ∧ klCtrlOk g p = false) ∧
    (∃ (s : State), ∃ (g : Agent), ∃ (p : Nat), s.slicesUp = true ∧ klCtrlOk g p = false) ∧
    (∃ (s : State), ∃ (p : Nat), s.slicesUp = true ∧ (6 ≤ p ∨ s.klState p ≠ klDetect)) ∧
    (∃ (s : State), ∃ (p : Nat), s.slicesUp = true ∧ (6 ≤ p ∨ s.klState p ≠ klEqualise ∨ s.klElapsed p 500 = true)) ∧
    (∃ (s : State), ∃ (p : Nat), s.slicesUp = true ∧ (6 ≤ p ∨ s.klState p ≠ klEqualise ∨ s.klElapsed p 500 = false)) ∧
    (∃ (s : State), ∃ (p : Nat), s.slicesUp = true ∧ (6 ≤ p ∨ s.klState p ≠ klAlign)) ∧
    (∃ (s : State), ∃ (p : Nat), s.slicesUp = true ∧ (6 ≤ p ∨ s.klState p ≠ klRetrain ∨ s.klElapsed p 10 = true)) ∧
    (∃ (s : State), ∃ (p : Nat), s.slicesUp = true ∧ (6 ≤ p ∨ s.klState p ≠ klRetrain ∨ s.klElapsed p 10 = false)) ∧
    (∃ (s : State), ∃ (p : Nat), s.slicesUp = true ∧ (6 ≤ p ∨ s.klState p ≠ klRefused ∨ s.klElapsed p 1000 = false)) ∧
    (∃ (s : State), ∃ (p : Nat), ∃ (lost : Bool), s.slicesUp = true ∧ (6 ≤ p ∨ s.klState p ≠ klActive ∨ lost = false ∧ (s.link p).replays < 8)) :=
  ⟨⟨wKl wUp 0, .keeper, 8, by decide +kernel⟩,
   ⟨wKl wUp 0, .keeper, 8, by decide +kernel⟩,
   ⟨wKl wUp 0, 0, by decide +kernel⟩,
   ⟨wKl wUp 0, 0, by decide +kernel⟩,
   ⟨wKl wUp 0, 0, by decide +kernel⟩,
   ⟨wKl wUp 0, 0, by decide +kernel⟩,
   ⟨wKl wUp 0, 0, by decide +kernel⟩,
   ⟨wKl wUp 0, 0, by decide +kernel⟩,
   ⟨wKl wUp 0, 0, by decide +kernel⟩,
   ⟨wKl wUp 0, 0, false, by decide +kernel⟩⟩

/-- Korrum ports follow their state machine, and blocks are numbered, held and replayed: clauses 10, 11, 12, 13, 14, 15, 16, 17, 18, 19. -/
theorem witness_KorrumPortsTrainAndRetry_b :
    (∃ (s : State), ∃ (p : Nat), ∃ (caps : PeerCaps), s.slicesUp = true ∧ (6 ≤ p ∨ s.klState p ≠ klNegotiate)) ∧
    (∃ (s : State), ∃ (p : Nat), ∃ (vcs : List Nat), ∃ (block : List Byte), s.slicesUp = true ∧ (6 ≤ p ∨ s.klState p ≠ klActive)) ∧
    (∃ (s : State), ∃ (p : Nat), ∃ (vcs : List Nat), ∃ (block : List Byte), s.slicesUp = true ∧ (6 ≤ p ∨ s.klState p ≠ klActive)) ∧
    (∃ (s : State), ∃ (p : Nat), s.slicesUp = true ∧ (6 ≤ p ∨ s.klState p ≠ klActive ∨ (s.link p).held = [] ∨ s.time.mono < (s.link p).ackAt + 4 * ticksPerUs)) ∧
    (∃ (s : State), ∃ (p : Nat), s.slicesUp = true ∧ (7 ≤ p ∨ (s.link p).inbox = [])) ∧
    (∃ (s : State), ∃ (g : Agent), ∃ (p : Nat), s.slicesUp = true ∧ klCtrlOk g p = true ∧ s.klState p = klDisabled) ∧
    (∃ (s : State), ∃ (g : Agent), ∃ (p : Nat), s.slicesUp = true ∧ klCtrlOk g p = true ∧ s.klState p ≠ klDisabled) ∧
    (∃ (s : State), ∃ (g : Agent), ∃ (p : Nat), s.slicesUp = true ∧ klCtrlOk g p = true ∧ s.klState p ≠ klActive) ∧
    (∃ (s : State), ∃ (g : Agent), ∃ (p : Nat), s.slicesUp = true ∧ klCtrlOk g p = true ∧ s.klState p = klActive) ∧
    (∃ (s : State), ∃ (p : Nat), s.slicesUp = true ∧ p < 6 ∧ p < s.links.length ∧ s.klState p = klDetect) :=
  ⟨⟨wKl wUp 0, 0, wCaps, by decide +kernel⟩,
   ⟨wKl wUp 0, 0, [0, 0, 1, 2, 3, 0, 0, 0], List.replicate 28 0 ++ [1, 0, 0, 0], by decide +kernel⟩,
   ⟨wKl wUp 0, 0, [0, 0, 1, 2, 3, 0, 0, 0], List.replicate 28 0 ++ [1, 0, 0, 0], by decide +kernel⟩,
   ⟨wKl wUp 0, 0, by decide +kernel⟩,
   ⟨wKl wUp 0, 0, by decide +kernel⟩,
   ⟨wKl wUp 0, .keeper, 0, by decide +kernel⟩,
   ⟨wKl wUp 3, .keeper, 0, by decide +kernel⟩,
   ⟨wKl wUp 0, .keeper, 0, by decide +kernel⟩,
   (by refine ⟨wKl wUp 5 { held := [wBlk] }, .keeper, 0, ?_⟩; decide +kernel),
   ⟨wKl wUp 1, 0, by decide +kernel⟩⟩

/-- Korrum ports follow their state machine, and blocks are numbered, held and replayed: clauses 20, 21, 22, 23, 24, 25, 26, 27, 31, 32. -/
theorem witness_KorrumPortsTrainAndRetry_c :
    (∃ (s : State), ∃ (p : Nat), s.slicesUp = true ∧ p < 6 ∧ p < s.links.length ∧ s.klState p = klEqualise ∧ s.klElapsed p 500 = false) ∧
    (∃ (s : State), ∃ (p : Nat), s.slicesUp = true ∧ p < 6 ∧ p < s.links.length ∧ s.klState p = klEqualise ∧ s.klElapsed p 500 = true) ∧
    (∃ (s : State), ∃ (p : Nat), s.slicesUp = true ∧ p < 6 ∧ p < s.links.length ∧ s.klState p = klAlign) ∧
    (∃ (s : State), ∃ (p : Nat), s.slicesUp = true ∧ p < 6 ∧ p < s.links.length ∧ s.klState p = klRetrain ∧ s.klElapsed p 10 = false) ∧
    (∃ (s : State), ∃ (p : Nat), s.slicesUp = true ∧ p < 6 ∧ p < s.links.length ∧ s.klState p = klRetrain ∧ s.klElapsed p 10 = true) ∧
    (∃ (s : State), ∃ (p : Nat), s.slicesUp = true ∧ p < 6 ∧ p < s.links.length ∧ s.klState p = klRefused ∧ s.klElapsed p 1000 = true) ∧
    (∃ (s : State), ∃ (p : Nat), ∃ (lost : Bool), s.slicesUp = true ∧ p < 6 ∧ p < s.links.length ∧ s.klState p = klActive ∧ (lost = true ∨ 8 ≤ (s.link p).replays)) ∧
    (∃ (s : State), ∃ (p : Nat), ∃ (caps : PeerCaps), s.slicesUp = true ∧ p < 6 ∧ p < s.links.length ∧ s.klState p = klNegotiate ∧ s.linkKey = none ∧ ∃ (r : Nat), s.capsRefuse p caps = some r ∧ True) ∧
    (∃ (s : State), ∃ (p : Nat), ∃ (vcs : List Nat), s.slicesUp = true ∧ p < 6 ∧ p < s.links.length ∧ s.klState p = klActive ∧ ∃ (q : Nat), (s.link p).replay = some q ∧ ∃ (b : LinkBlk), List.find? (fun (b : LinkBlk) => decide (b.seq = q)) (s.link p).held = some b ∧ True) ∧
    (∃ (s : State), ∃ (p : Nat), ∃ (vcs : List Nat), s.slicesUp = true ∧ p < 6 ∧ p < s.links.length ∧ s.klState p = klActive ∧ ((s.link p).replay.bind fun (q : Nat) => List.find? (fun (b : LinkBlk) => decide (b.seq = q)) (s.link p).held) = none ∧ (s.link p).held.length < 128) :=
  ⟨⟨wKl wUp 2, 0, by decide +kernel⟩,
   (by refine ⟨{ wKl wUp 2 with time.mono := 900000000 }, 0, ?_⟩; decide +kernel),
   ⟨wKl wUp 3, 0, by decide +kernel⟩,
   ⟨wKl wUp 6, 0, by decide +kernel⟩,
   (by refine ⟨{ wKl wUp 6 with time.mono := 900000000 }, 0, ?_⟩; decide +kernel),
   (by refine ⟨{ wKl wUp 7 with time.mono := 1600000000 }, 0, ?_⟩; decide +kernel),
   (by refine ⟨wKl wUp 5 { held := [wBlk] }, 0, true, ?_⟩; decide +kernel),
   ⟨wKl wUp 4, 0, wCaps, chk (dA inferInstance (dA inferInstance (dA inferInstance (dA inferInstance (dA inferInstance (dSome fun _ => inferInstance)))))) (by decide +kernel)⟩,
   ⟨korrumPortsTrainAndRetry_31_s, 0, [0, 0, 1, 2, 3, 0, 0, 0], chk (dA inferInstance (dA inferInstance (dA inferInstance (dA inferInstance (dSome fun _ => (dSome fun _ => inferInstance)))))) (by decide +kernel)⟩,
   (by refine ⟨wKl wUp 5 { held := [wBlk] }, 0, [0, 0, 1, 2, 3, 0, 0, 0], ?_⟩; decide +kernel)⟩

/-- Korrum ports follow their state machine, and blocks are numbered, held and replayed: clauses 33, 34, 37, 38, 39, 40, 41, 42, 43, 44. -/
theorem witness_KorrumPortsTrainAndRetry_d :
    (∃ (s : State), ∃ (p : Nat), ∃ (vcs : List Nat), s.slicesUp = true ∧ p < 6 ∧ p < s.links.length ∧ s.klState p = klActive ∧ ((s.link p).replay.bind fun (q : Nat) => List.find? (fun (b : LinkBlk) => decide (b.seq = q)) (s.link p).held) = none ∧ 128 ≤ (s.link p).held.length) ∧
    (∃ (s : State), ∃ (p : Nat), ∃ (block : List Byte), s.slicesUp = true ∧ p < 6 ∧ p < s.links.length ∧ s.klState p = klActive ∧ crc32c (slice block 32 512 ++ slice block 0 28) ≠ leAt block 28 4) ∧
    (∃ (s : State), ∃ (p : Nat), s.slicesUp = true ∧ p < 6 ∧ p < s.links.length ∧ s.klState p = klActive ∧ (s.link p).ackAt + 4 * ticksPerUs ≤ s.time.mono ∧ ∃ (b : LinkBlk), ∃ (rest : List LinkBlk), (s.link p).held = b :: rest ∧ True) ∧
    (∃ (s : State), ∃ (p : Nat), s.slicesUp = true ∧ p < 6 ∧ p < s.links.length ∧ ∃ (x : KPkt), ∃ (rest : List KPkt), (s.link p).inbox = x :: rest ∧ x.vc < (s.link p).freed.length ∧ (x.typ = 0 ∨ 12 ≤ x.typ) ∧ x.mayIgnore = true) ∧
    (∃ (s : State), ∃ (p : Nat), s.slicesUp = true ∧ p < 6 ∧ p < s.links.length ∧ ∃ (x : KPkt), ∃ (rest : List KPkt), (s.link p).inbox = x :: rest ∧ x.vc < (s.link p).freed.length ∧ (x.typ = 0 ∨ 12 ≤ x.typ) ∧ x.mayIgnore = false) ∧
    (∃ (s : State), ∃ (p : Nat), s.slicesUp = true ∧ p < 6 ∧ p < s.links.length ∧ ∃ (x : KPkt), ∃ (rest : List KPkt), (s.link p).inbox = x :: rest ∧ x.vc < (s.link p).freed.length ∧ x.typ ≠ 0 ∧ x.typ < 12 ∧ x.dest ≠ s.fedId ∧ 8 ≤ x.hops + 1) ∧
    (∃ (s : State), ∃ (p : Nat), s.slicesUp = true ∧ p < 6 ∧ p < s.links.length ∧ ∃ (x : KPkt), ∃ (rest : List KPkt), (s.link p).inbox = x :: rest ∧ x.vc < (s.link p).freed.length ∧ x.typ ≠ 0 ∧ x.typ < 12 ∧ x.dest ≠ s.fedId ∧ x.hops + 1 < 8 ∧ s.fld (F.KL_ROUTE x.dest) < 6 ∧ s.fld (F.KL_ROUTE x.dest) ≠ p ∧ s.fld (F.KL_ROUTE x.dest) < s.links.length) ∧
    (∃ (s : State), ∃ (p : Nat), s.slicesUp = true ∧ p < 6 ∧ p < s.links.length ∧ ∃ (x : KPkt), ∃ (rest : List KPkt), (s.link p).inbox = x :: rest ∧ x.vc < (s.link p).freed.length ∧ x.dest = s.fedId ∧ (x.typ = 9 ∨ x.typ = 11)) ∧
    (∃ (s : State), ∃ (p : Nat), s.slicesUp = true ∧ p < 6 ∧ p < s.links.length ∧ ∃ (x : KPkt), ∃ (rest : List KPkt), (s.link p).inbox = x :: rest ∧ x.vc < (s.link p).freed.length ∧ x.dest = s.fedId ∧ (x.typ = 1 ∨ x.typ = 2)) ∧
    (∃ (s : State), ∃ (p : Nat), s.slicesUp = true ∧ p < 6 ∧ p < s.links.length ∧ ∃ (x : KPkt), ∃ (rest : List KPkt), (s.link p).inbox = x :: rest ∧ x.vc < (s.link p).freed.length ∧ x.dest = s.fedId ∧ x.typ = 8 ∧ feCtlOp x = 5) :=
  ⟨(by refine ⟨wKl wUp 5 { held := List.replicate 128 wBlk }, 0, [0, 0, 1, 2, 3, 0, 0, 0], ?_⟩; decide +kernel),
   (by refine ⟨wKl wUp 5 { held := [wBlk] }, 0, List.replicate 28 0 ++ [1, 0, 0, 0], ?_⟩; decide +kernel),
   ⟨korrumPortsTrainAndRetry_37_s, 0, chk (dA inferInstance (dA inferInstance (dA inferInstance (dA inferInstance (dA inferInstance (dCons fun _ _ => inferInstance)))))) (by decide +kernel)⟩,
   ⟨korrumPortsTrainAndRetry_38_s, 0, chk (dA inferInstance (dA inferInstance (dA inferInstance (dCons fun _ _ => inferInstance)))) (by decide +kernel)⟩,
   ⟨korrumPortsTrainAndRetry_39_s, 0, chk (dA inferInstance (dA inferInstance (dA inferInstance (dCons fun _ _ => inferInstance)))) (by decide +kernel)⟩,
   ⟨korrumPortsTrainAndRetry_40_s, 0, chk (dA inferInstance (dA inferInstance (dA inferInstance (dCons fun _ _ => inferInstance)))) (by decide +kernel)⟩,
   ⟨korrumPortsTrainAndRetry_41_s, 0, chk (dA inferInstance (dA inferInstance (dA inferInstance (dCons fun _ _ => inferInstance)))) (by decide +kernel)⟩,
   ⟨korrumPortsTrainAndRetry_42_s, 0, chk (dA inferInstance (dA inferInstance (dA inferInstance (dCons fun _ _ => inferInstance)))) (by decide +kernel)⟩,
   ⟨korrumPortsTrainAndRetry_43_s, 0, chk (dA inferInstance (dA inferInstance (dA inferInstance (dCons fun _ _ => inferInstance)))) (by decide +kernel)⟩,
   ⟨korrumPortsTrainAndRetry_44_s, 0, chk (dA inferInstance (dA inferInstance (dA inferInstance (dCons fun _ _ => inferInstance)))) (by decide +kernel)⟩⟩

/-- Korrum ports follow their state machine, and blocks are numbered, held and replayed: clauses 45. -/
theorem witness_KorrumPortsTrainAndRetry_e :
    ∃ (s : State), ∃ (p : Nat), s.slicesUp = true ∧ p < 6 ∧ p < s.links.length ∧ ∃ (x : KPkt), ∃ (rest : List KPkt), (s.link p).inbox = x :: rest ∧ x.vc < (s.link p).freed.length ∧ x.dest = s.fedId ∧ 3 ≤ x.typ ∧ x.typ ≤ 8 ∧ (x.typ = 8 → feCtlOp x ≠ 5) ∧ s.feBindingOf x = none :=
  ⟨korrumPortsTrainAndRetry_45_s, 0, chk (dA inferInstance (dA inferInstance (dA inferInstance (dCons fun _ _ => inferInstance)))) (by decide +kernel)⟩

def federationMovesAndRaises_8_s : State :=
  { wKl wUp 5 { peerMember := true } with fed.retryAt := some 10 }

def federationMovesAndRaises_9_s : State :=
  { wKl wUp 5 { peerMember := true } with fed.retryAt := some 0 }

def federationMovesAndRaises_11_s : State :=
  wMg wUp (wHolder 0x0601 [])

def federationMovesAndRaises_12_s : State :=
  wMg wMem (wHolder 0x0601 [])

def federationMovesAndRaises_16_s : State :=
  wMg wMem (wHolder 0x0601 [])

def federationMovesAndRaises_20_s : State :=
  { wMas with fed.move := some { msg := { wMove with master := 3 } } }

def federationMovesAndRaises_21_s : State :=
  { wMas with fed.move := some { msg := { wMove with master := 3 } } }

def federationMovesAndRaises_23_s : State :=
  { wMas with fed.move := some { msg := { wMove with master := 3 } } }

def federationMovesAndRaises_24_s : State :=
  { wMas with fed.move := some { msg := { wMove with master := 3 } }, time.units := 80000000 }

def federationMovesAndRaises_25_s : State :=
  { wMem with fed.move := some { msg := wMove } }

def federationMovesAndRaises_26_s : State :=
  { wMem with fed.move := some { msg := wMove, routes := List.replicate 64 0 }, time.units := 80000000 }

def federationMovesAndRaises_27_s : State :=
  { wMem with fed.move := some { msg := { wMove with members := 4 } }, time.units := 80000000 }

def federationMovesAndRaises_30_s : State :=
  { wMas with fed.roster := [{ id := 2, own := 0, links := 0, eligible := false, answered := false, missed := 2 }], time.mono := 16000000 }

def federationMovesAndRaises_32_s : State :=
  wMg wMem (wHolder 0x0601 [])

def federationMovesAndRaises_34_s : State :=
  { wMas with fed.roster := [{ id := 2, own := 0, links := 0, eligible := false }] }

def federationMovesAndRaises_35_s : State :=
  { wMas with fed.roster := [{ id := 2, own := 0, links := 0, eligible := false }] }

def federationMovesAndRaises_38_s : State :=
  { wMem with time.mono := 48000000, fed.eligibleSet := 12 }

def federationMovesAndRaises_39_s : State :=
  { wMem with time.mono := 48000000, fed.claim := some (9, 0), fed.eligibleSet := 12 }

def federationMovesAndRaises_42_s : State :=
  { wMem with fed.claim := some (9, 0) }

def federationMovesAndRaises_44_s : State :=
  { wMem with fed.claim := some (9, 0) }

def federationMovesAndRaises_45_s : State :=
  { wMem with time.mono := 48000000, fed.claim := some (2, 0) }

def federationMovesAndRaises_51_s : State :=
  wMg wMem (wHolder 0x0601 [])

def federationMovesAndRaises_53_s : State :=
  { wMem with time.valid := [((3, 0), 0)], time.onBackup := true }

def federationMovesAndRaises_55_s : State :=
  wMg wMem (wHolder 0x0601 [])

def federationMovesAndRaises_59_s : State :=
  { wMas with fed.raising := some ⟨1, 90000000, true, []⟩ }

def federationMovesAndRaises_60_s : State :=
  { wMas with fed.raising := some ⟨1, 90000000, true, []⟩ }

def federationMovesAndRaises_61_s : State :=
  { wMas with fed.raising := some ⟨1, 90000000, true, []⟩ }

def federationMovesAndRaises_62_s : State :=
  { wMem with fed.raising := some ⟨1, 90000000, false, []⟩ }

def federationMovesAndRaises_63_s : State :=
  { wMem with fed.raising := some ⟨1, 90000000, false, []⟩ }

def federationMovesAndRaises_64_s : State :=
  { wMas with fed.raising := some ⟨1, 90000000, true, []⟩ }

def federationMovesAndRaises_65_s : State :=
  { wMem with fed.raising := some ⟨1, 90000000, false, []⟩, time.units := 90000000 }

def federationMovesAndRaises_66_s : State :=
  { wMas with fed.raising := some ⟨1, 90000000, true, []⟩, time.units := 90000000 }

/-- Joining, moves, heartbeats, the election, time distribution and the epoch: clauses 0, 1, 2, 3, 4, 5, 6, 7, 8, 9. -/
theorem witness_FederationMovesAndRaises_a :
    (∃ (s : State), ∃ (src : Nat), ∃ (own : Nat), ∃ (links : Nat), ∃ (eligible : Bool), s.slicesUp = true ∧ (s.isMaster = false ∨ 64 ≤ src)) ∧
    (∃ (s : State), ∃ (src : Nat), ∃ (own : Nat), ∃ (links : Nat), ∃ (eligible : Bool), s.slicesUp = true ∧ s.isMaster = true ∧ src < 64 ∧ (src = s.fedId ∨ bitOf (s.fld F.FED_MEMBERS) src = true ∨ ((s.ownEpoch :: List.map Member.own (List.filter (fun (m : Member) => bitOf s.plannedMembers m.id) s.fed.roster)).any fun (e : Nat) => decide (e + 2 ≤ own ∨ own + 2 ≤ e)) = true)) ∧
    (∃ (s : State), ∃ (src : Nat), ∃ (own : Nat), ∃ (links : Nat), ∃ (eligible : Bool), s.slicesUp = true ∧ s.isMaster = true ∧ src < 64 ∧ src ≠ s.fedId ∧ bitOf (s.fld F.FED_MEMBERS) src = false ∧ ((s.ownEpoch :: List.map Member.own (List.filter (fun (m : Member) => bitOf s.plannedMembers m.id) s.fed.roster)).any fun (e : Nat) => decide (e + 2 ≤ own ∨ own + 2 ≤ e)) = false) ∧
    (∃ (s : State), ∃ (reason : Nat), s.slicesUp = true ∧ s.fedState ≠ fedJoining) ∧
    (∃ (s : State), ∃ (reason : Nat), s.slicesUp = true ∧ s.fedState = fedJoining) ∧
    (∃ (s : State), s.slicesUp = true ∧ s.fedState = fedAlone ∧ s.on F.FED_ID_VALID = true ∧ s.fed.eligible = true ∧ s.memberPort = none ∧ s.fed.aloneSince + 2 * ticksPerSec ≤ s.time.mono) ∧
    (∃ (s : State), s.slicesUp = true ∧ ¬(s.fedState = fedAlone ∧ s.on F.FED_ID_VALID = true ∧ s.fed.eligible = true ∧ s.memberPort = none ∧ s.fed.aloneSince + 2 * ticksPerSec ≤ s.time.mono)) ∧
    (∃ (s : State), s.slicesUp = true ∧ (s.fed.retryAt = none ∨ s.memberPort = none ∨ s.fedState ≠ fedAlone)) ∧
    (∃ (s : State), s.slicesUp = true ∧ s.fedState = fedAlone ∧ ∃ (t0 : Nat), s.fed.retryAt = some t0 ∧ s.time.mono < t0 ∧ ∃ (p : Nat), s.memberPort = some p ∧ True) ∧
    (∃ (s : State), s.slicesUp = true ∧ s.fedState = fedAlone ∧ ∃ (t0 : Nat), s.fed.retryAt = some t0 ∧ t0 ≤ s.time.mono ∧ ∃ (p : Nat), s.memberPort = some p ∧ True) :=
  ⟨⟨wMas, 64, 0, 0, false, by decide +kernel⟩,
   ⟨wMas, 2, 0, 0, false, by decide +kernel⟩,
   ⟨wMas, 0, 0, 0, false, by decide +kernel⟩,
   ⟨wMas, 0, by decide +kernel⟩,
   ⟨w1 wUp F.FED_STATE_STATE 1, 0, by decide +kernel⟩,
   (by refine ⟨{ wF wUp [(F.FED_ID_VALID, 1), (F.FED_ID_ID, 3)] with fed.eligible := true, time.mono := 3200000000 }, ?_⟩; decide +kernel),
   ⟨wMas, by decide +kernel⟩,
   ⟨wMas, by decide +kernel⟩,
   ⟨federationMovesAndRaises_8_s, chk (dA inferInstance (dA inferInstance (dSome fun _ => (dA inferInstance (dSome fun _ => inferInstance))))) (by decide +kernel)⟩,
   ⟨federationMovesAndRaises_9_s, chk (dA inferInstance (dA inferInstance (dSome fun _ => (dA inferInstance (dSome fun _ => inferInstance))))) (by decide +kernel)⟩⟩

/-- Joining, moves, heartbeats, the election, time distribution and the epoch: clauses 10, 11, 12, 13, 14, 15, 16, 17, 18, 19. -/
theorem witness_FederationMovesAndRaises_b :
    (∃ (s : State), s.slicesUp = true ∧ Option.any (fun (h : Holder) => !h.started && decide (h.cmd.opcode = 1537)) s.mgmt.holder = false) ∧
    (∃ (s : State), s.slicesUp = true ∧ s.fedState ≠ fedMember ∧ ∃ (h : Holder), s.mgmt.holder = some h ∧ h.started = false ∧ h.cmd.opcode = 1537) ∧
    (∃ (s : State), s.slicesUp = true ∧ s.fedState = fedMember ∧ ∃ (h : Holder), s.mgmt.holder = some h ∧ h.started = false ∧ h.cmd.opcode = 1537) ∧
    (∃ (s : State), ∃ (src : Nat), s.slicesUp = true ∧ ¬(s.on F.FED_MASTER_SELF = true ∧ (s.fedState = fedMember ∨ s.fedState = fedLeaving) ∧ bitOf s.plannedMembers src = true)) ∧
    (∃ (s : State), ∃ (src : Nat), s.slicesUp = true ∧ s.on F.FED_MASTER_SELF = true ∧ (s.fedState = fedMember ∨ s.fedState = fedLeaving) ∧ bitOf s.plannedMembers src = true) ∧
    (∃ (s : State), ∃ (src : Nat), s.slicesUp = true ∧ ¬(s.fedState = fedMember ∧ src = s.fld F.FED_MASTER_ID ∧ src ≠ s.fedId)) ∧
    (∃ (s : State), s.slicesUp = true ∧ s.fedState = fedMember ∧ ∃ (src : Nat), s.fld F.FED_MASTER_ID = src ∧ src ≠ s.fedId) ∧
    (∃ (s : State), ∃ (m : MoveMsg), s.slicesUp = true ∧ (s.fedState = fedAlone ∨ s.isMaster = true ∨ m.gen < s.fed.gen)) ∧
    (∃ (s : State), ∃ (m : MoveMsg), s.slicesUp = true ∧ s.fedState ≠ fedAlone ∧ s.isMaster = false ∧ s.fed.gen ≤ m.gen ∧ ∀ (r : EpochRaise), s.fed.raising = some r → r.mine = false) ∧
    (∃ (s : State), ∃ (src : Nat), ∃ (gen : Nat), s.slicesUp = true ∧ s.fed.move = none) :=
  ⟨⟨wMas, by decide +kernel⟩,
   ⟨federationMovesAndRaises_11_s, chk (dA inferInstance (dA inferInstance (dSome fun _ => inferInstance))) (by decide +kernel)⟩,
   ⟨federationMovesAndRaises_12_s, chk (dA inferInstance (dA inferInstance (dSome fun _ => inferInstance))) (by decide +kernel)⟩,
   ⟨wMas, 0, by decide +kernel⟩,
   ⟨wMas, 2, by decide +kernel⟩,
   ⟨wMas, 2, by decide +kernel⟩,
   ⟨federationMovesAndRaises_16_s, chk (dA inferInstance (dA inferInstance (dVar fun _ => inferInstance))) (by decide +kernel)⟩,
   ⟨wMas, wMove, by decide +kernel⟩,
   ⟨w1 wUp F.FED_STATE_STATE 1, wMove, by decide +kernel⟩,
   ⟨wMas, 2, 0, by decide +kernel⟩⟩

/-- Joining, moves, heartbeats, the election, time distribution and the epoch: clauses 20, 21, 22, 23, 24, 25, 26, 27, 28, 29. -/
theorem witness_FederationMovesAndRaises_c :
    (∃ (s : State), ∃ (src : Nat), ∃ (gen : Nat), s.slicesUp = true ∧ ∃ (mv : Move), s.fed.move = some mv ∧ (mv.msg.master ≠ s.fedId ∨ gen ≠ mv.msg.gen ∨ mv.msg.tSwitch < s.time.units + 8000000 ∨ mv.ready.contains src = true)) ∧
    (∃ (s : State), ∃ (src : Nat), s.slicesUp = true ∧ ∃ (mv : Move), s.fed.move = some mv ∧ mv.msg.master = s.fedId ∧ s.time.units + 8000000 ≤ mv.msg.tSwitch ∧ mv.ready.contains src = false ∧ ∃ (gen : Nat), mv.msg.gen = gen ∧ True) ∧
    (∃ (s : State), s.slicesUp = true ∧ s.fed.move = none) ∧
    (∃ (s : State), s.slicesUp = true ∧ ∃ (mv : Move), s.fed.move = some mv ∧ mv.msg.master = s.fedId ∧ List.filter (fun (f : Nat) => !mv.ready.contains f) (idsOf mv.msg.members) ≠ [] ∧ s.time.units + 8000000 < mv.msg.tSwitch) ∧
    (∃ (s : State), s.slicesUp = true ∧ ∃ (mv : Move), s.fed.move = some mv ∧ mv.msg.master = s.fedId ∧ List.filter (fun (f : Nat) => !mv.ready.contains f) (idsOf mv.msg.members) ≠ [] ∧ mv.msg.tSwitch ≤ s.time.units + 8000000) ∧
    (∃ (s : State), s.slicesUp = true ∧ ∃ (mv : Move), s.fed.move = some mv ∧ ¬(mv.msg.master = s.fedId ∧ List.filter (fun (f : Nat) => !mv.ready.contains f) (idsOf mv.msg.members) ≠ []) ∧ s.time.units < mv.msg.tSwitch) ∧
    (∃ (s : State), s.slicesUp = true ∧ ∃ (mv : Move), s.fed.move = some mv ∧ ¬(mv.msg.master = s.fedId ∧ List.filter (fun (f : Nat) => !mv.ready.contains f) (idsOf mv.msg.members) ≠ []) ∧ mv.msg.tSwitch ≤ s.time.units ∧ bitOf mv.msg.members s.fedId = true ∧ mv.msg.members < 2 ^ 64 ∧ mv.msg.master < 64 ∧ mv.msg.epoch < 2 ^ 16 ∧ ∀ (f : Nat), f < 64 → mv.routes.getD f 7 < 8) ∧
    (∃ (s : State), s.slicesUp = true ∧ ∃ (mv : Move), s.fed.move = some mv ∧ ¬(mv.msg.master = s.fedId ∧ List.filter (fun (f : Nat) => !mv.ready.contains f) (idsOf mv.msg.members) ≠ []) ∧ mv.msg.tSwitch ≤ s.time.units ∧ bitOf mv.msg.members s.fedId = false) ∧
    (∃ (s : State), s.slicesUp = true ∧ ¬(s.on F.FED_MASTER_SELF = true ∧ (s.fedState = fedMember ∨ s.fedState = fedLeaving) ∧ s.fed.lastBeat + 10 * ticksPerMs ≤ s.time.mono)) ∧
    (∃ (s : State), s.slicesUp = true ∧ s.on F.FED_MASTER_SELF = true ∧ (s.fedState = fedMember ∨ s.fedState = fedLeaving) ∧ s.fed.lastBeat + 10 * ticksPerMs ≤ s.time.mono ∧ ¬(Option.map Member.links (s.member? s.fedId)).getD 0 ≠ s.ownLinks ∧ ∀ (m : Member), m ∈ s.fed.roster → m.answered = true) :=
  ⟨⟨federationMovesAndRaises_20_s, 2, 0, chk (dA inferInstance (dSome fun _ => inferInstance)) (by decide +kernel)⟩,
   ⟨federationMovesAndRaises_21_s, 2, chk (dA inferInstance (dSome fun _ => (dA inferInstance (dA inferInstance (dA inferInstance (dVar fun _ => inferInstance)))))) (by decide +kernel)⟩,
   ⟨wMas, by decide +kernel⟩,
   ⟨federationMovesAndRaises_23_s, chk (dA inferInstance (dSome fun _ => inferInstance)) (by decide +kernel)⟩,
   ⟨federationMovesAndRaises_24_s, chk (dA inferInstance (dSome fun _ => inferInstance)) (by decide +kernel)⟩,
   ⟨federationMovesAndRaises_25_s, chk (dA inferInstance (dSome fun _ => inferInstance)) (by decide +kernel)⟩,
   ⟨federationMovesAndRaises_26_s, chk (dA inferInstance (dSome fun _ => inferInstance)) (by decide +kernel)⟩,
   ⟨federationMovesAndRaises_27_s, chk (dA inferInstance (dSome fun _ => inferInstance)) (by decide +kernel)⟩,
   ⟨wMas, by decide +kernel⟩,
   (by refine ⟨{ wF wUp [(F.FED_ID_VALID, 1), (F.FED_ID_ID, 3), (F.FED_STATE_STATE, 2), (F.FED_MASTER_ID, 3), (F.FED_MASTER_SELF, 1), (F.FED_MEMBERS, 8)] with time.mono := 16000000 }, ?_⟩; decide +kernel)⟩

/-- Joining, moves, heartbeats, the election, time distribution and the epoch: clauses 30, 31, 32, 33, 34, 35, 36, 37, 38, 39. -/
theorem witness_FederationMovesAndRaises_d :
    (∃ (s : State), s.slicesUp = true ∧ s.on F.FED_MASTER_SELF = true ∧ (s.fedState = fedMember ∨ s.fedState = fedLeaving) ∧ s.fed.lastBeat + 10 * ticksPerMs ≤ s.time.mono ∧ ∃ (m : Member), s.fed.roster = [m] ∧ bitOf (s.fld F.FED_MEMBERS) m.id = true ∧ m.id ≠ s.fedId ∧ m.answered = false ∧ 2 ≤ m.missed) ∧
    (∃ (s : State), ∃ (src : Nat), s.slicesUp = true ∧ ¬((s.fedState = fedMember ∨ s.fedState = fedLeaving) ∧ src = s.fld F.FED_MASTER_ID ∧ src ≠ s.fedId)) ∧
    (∃ (s : State), s.slicesUp = true ∧ (s.fedState = fedMember ∨ s.fedState = fedLeaving) ∧ ∃ (src : Nat), s.fld F.FED_MASTER_ID = src ∧ src ≠ s.fedId) ∧
    (∃ (s : State), ∃ (src : Nat), ∃ (own : Nat), ∃ (boot : Nat), ∃ (links : Nat), ∃ (eligible : Bool), s.slicesUp = true ∧ (s.isMaster = false ∨ src = s.fedId ∨ s.member? src = none)) ∧
    (∃ (s : State), ∃ (src : Nat), ∃ (own : Nat), ∃ (boot : Nat), s.slicesUp = true ∧ s.isMaster = true ∧ src ≠ s.fedId ∧ own ≠ s.fedEpoch + 1 ∧ ∃ (old : Member), s.member? src = some old ∧ ∃ (links : Nat), old.links = links ∧ ∃ (eligible : Bool), old.eligible = eligible ∧ True) ∧
    (∃ (s : State), ∃ (src : Nat), ∃ (own : Nat), ∃ (boot : Nat), ∃ (links : Nat), ∃ (eligible : Bool), s.slicesUp = true ∧ s.isMaster = true ∧ src ≠ s.fedId ∧ ∃ (old : Member), s.member? src = some old ∧ (old.links ≠ links ∨ old.eligible ≠ eligible)) ∧
    (∃ (s : State), s.slicesUp = true ∧ ¬(s.fedState = fedMember ∧ s.isMaster = false ∧ s.fed.lastBeat + 30 * ticksPerMs ≤ s.time.mono)) ∧
    (∃ (s : State), s.slicesUp = true ∧ s.fedState = fedMember ∧ s.isMaster = false ∧ s.fed.lastBeat + 30 * ticksPerMs ≤ s.time.mono ∧ List.find? (fun (f : Nat) => decide (f ≠ s.fld F.FED_MASTER_ID) && (decide (f = s.fedId) || decide (s.fld (F.KL_ROUTE f) ≠ 7))) (idsOf s.fed.eligibleSet) = none) ∧
    (∃ (s : State), s.slicesUp = true ∧ s.fedState = fedMember ∧ s.isMaster = false ∧ s.fed.lastBeat + 30 * ticksPerMs ≤ s.time.mono ∧ s.fed.claim = none ∧ ∃ (id : Nat), List.find? (fun (f : Nat) => decide (f ≠ s.fld F.FED_MASTER_ID) && (decide (f = s.fedId) || decide (s.fld (F.KL_ROUTE f) ≠ 7))) (idsOf s.fed.eligibleSet) = some id ∧ True) ∧
    (∃ (s : State), s.slicesUp = true ∧ s.fedState = fedMember ∧ s.isMaster = false ∧ s.fed.lastBeat + 30 * ticksPerMs ≤ s.time.mono ∧ ∃ (c : Nat), ∃ (t0 : Nat), s.fed.claim = some (c, t0) ∧ ∃ (id : Nat), List.find? (fun (f : Nat) => decide (f ≠ s.fld F.FED_MASTER_ID) && (decide (f = s.fedId) || decide (s.fld (F.KL_ROUTE f) ≠ 7))) (idsOf s.fed.eligibleSet) = some id ∧ True) :=
  ⟨⟨federationMovesAndRaises_30_s, chk (dA inferInstance (dA inferInstance (dA inferInstance (dA inferInstance (dCC fun _ => inferInstance))))) (by decide +kernel)⟩,
   ⟨wMas, 2, by decide +kernel⟩,
   ⟨federationMovesAndRaises_32_s, chk (dA inferInstance (dA inferInstance (dVar fun _ => inferInstance))) (by decide +kernel)⟩,
   ⟨wMas, 2, 0, 0, 0, false, by decide +kernel⟩,
   ⟨federationMovesAndRaises_34_s, 2, 0, 0, chk (dA inferInstance (dA inferInstance (dA inferInstance (dA inferInstance (dSome fun _ => (dVar fun _ => (dVar fun _ => inferInstance))))))) (by decide +kernel)⟩,
   ⟨federationMovesAndRaises_35_s, 2, 0, 0, 0, true, chk (dA inferInstance (dA inferInstance (dA inferInstance (dSome fun _ => inferInstance)))) (by decide +kernel)⟩,
   ⟨wMas, by decide +kernel⟩,
   (by refine ⟨{ wMem with time.mono := 48000000, fed.claim := some (2, 0) }, ?_⟩; decide +kernel),
   ⟨federationMovesAndRaises_38_s, chk (dA inferInstance (dA inferInstance (dA inferInstance (dA inferInstance (dA inferInstance (dSome fun _ => inferInstance)))))) (by decide +kernel)⟩,
   ⟨federationMovesAndRaises_39_s, chk (dA inferInstance (dA inferInstance (dA inferInstance (dA inferInstance (dSome2 fun _ _ => (dSome fun _ => inferInstance)))))) (by decide +kernel)⟩⟩

/-- Joining, moves, heartbeats, the election, time distribution and the epoch: clauses 40, 41, 42, 43, 44, 45, 46, 47, 48, 49. -/
theorem witness_FederationMovesAndRaises_e :
    (∃ (s : State), ∃ (id : Nat), s.slicesUp = true ∧ (s.fedState ≠ fedMember ∨ 64 ≤ id)) ∧
    (∃ (s : State), ∃ (id : Nat), s.slicesUp = true ∧ s.fedState = fedMember ∧ id < 64 ∧ s.fed.claim = none) ∧
    (∃ (s : State), ∃ (id : Nat), s.slicesUp = true ∧ s.fedState = fedMember ∧ id < 64 ∧ ∃ (c : Nat), ∃ (t0 : Nat), s.fed.claim = some (c, t0) ∧ True) ∧
    (∃ (s : State), s.slicesUp = true ∧ s.fed.claim = none) ∧
    (∃ (s : State), s.slicesUp = true ∧ ∃ (id : Nat), ∃ (t0 : Nat), s.fed.claim = some (id, t0) ∧ s.time.mono < t0 + 20 * ticksPerMs) ∧
    (∃ (s : State), s.slicesUp = true ∧ ∃ (id : Nat), ∃ (t0 : Nat), s.fed.claim = some (id, t0) ∧ t0 + 20 * ticksPerMs ≤ s.time.mono ∧ id < 64) ∧
    (∃ (s : State), ∃ (p : Nat), s.slicesUp = true ∧ (6 ≤ p ∨ s.klState p ≠ klActive ∨ s.fedState ≠ fedMember ∨ s.upstream = some p ∨ s.time.mono < (s.link p).syncAt + 25000000)) ∧
    (∃ (s : State), ∃ (p : Nat), s.slicesUp = true ∧ (6 ≤ p ∨ s.klState p ≠ klActive)) ∧
    (∃ (s : State), ∃ (p : Nat), ∃ (st : Nat), ∃ (t1 : Nat), ∃ (t4 : Nat), s.slicesUp = true ∧ (6 ≤ p ∨ s.upstream ≠ some p)) ∧
    (∃ (s : State), ∃ (p : Nat), ∃ (st : Nat), ∃ (t1 : Nat), ∃ (t4 : Nat), s.slicesUp = true ∧ (6 ≤ p ∨ s.upstream ≠ some p)) :=
  ⟨⟨wMas, 64, by decide +kernel⟩,
   ⟨wMas, 0, by decide +kernel⟩,
   ⟨federationMovesAndRaises_42_s, 0, chk (dA inferInstance (dA inferInstance (dA inferInstance (dSome2 fun _ _ => inferInstance)))) (by decide +kernel)⟩,
   ⟨wMas, by decide +kernel⟩,
   ⟨federationMovesAndRaises_44_s, chk (dA inferInstance (dSome2 fun _ _ => inferInstance)) (by decide +kernel)⟩,
   ⟨federationMovesAndRaises_45_s, chk (dA inferInstance (dSome2 fun _ _ => inferInstance)) (by decide +kernel)⟩,
   ⟨wMas, 0, by decide +kernel⟩,
   ⟨wMas, 1, by decide +kernel⟩,
   ⟨wMas, 0, 0, 0, 0, by decide +kernel⟩,
   ⟨wMas, 0, 0, 0, 0, by decide +kernel⟩⟩

/-- Joining, moves, heartbeats, the election, time distribution and the epoch: clauses 50, 51, 52, 53, 54, 55, 56, 57, 58, 59. -/
theorem witness_FederationMovesAndRaises_f :
    (∃ (s : State), ∃ (p : Nat), s.slicesUp = true ∧ p < 6 ∧ p < s.links.length ∧ s.klState p = klActive ∧ s.fedState = fedMember ∧ s.upstream ≠ some p ∧ (s.link p).syncAt + 25000000 ≤ s.time.mono) ∧
    (∃ (s : State), ∃ (st : Nat), s.slicesUp = true ∧ st < 4 ∧ ∃ (p : Nat), s.upstream = some p ∧ p < 6 ∧ p < s.links.length) ∧
    (∃ (s : State), ∃ (p : Nat), s.slicesUp = true ∧ p < 6 ∧ p < s.links.length ∧ s.klState p = klActive) ∧
    (∃ (s : State), ∃ (t1 : Nat), ∃ (t4 : Nat), s.slicesUp = true ∧ s.srcInUse ≠ (3, 0) ∧ s.srcValid (3, 0) = true ∧ ∃ (p : Nat), s.upstream = some p ∧ p < 6 ∧ p < s.links.length ∧ s.fld (F.KL_TIME_ADJ p) = 0) ∧
    (∃ (s : State), ∃ (epoch : Nat), ∃ (tRaise : Nat), s.slicesUp = true ∧ ¬(s.fedState = fedMember ∧ s.isMaster = false ∧ epoch = s.fedEpoch + 1)) ∧
    (∃ (s : State), ∃ (tRaise : Nat), s.slicesUp = true ∧ s.fedState = fedMember ∧ s.isMaster = false ∧ ∃ (epoch : Nat), s.fedEpoch + 1 = epoch ∧ True) ∧
    (∃ (s : State), ∃ (src : Nat), ∃ (e : Nat), s.slicesUp = true ∧ s.fed.raising = none) ∧
    (∃ (s : State), ∃ (src : Nat), ∃ (e : Nat), s.slicesUp = true ∧ s.fed.raising = none) ∧
    (∃ (s : State), ∃ (src : Nat), ∃ (e : Nat), s.slicesUp = true ∧ s.fed.raising = none) ∧
    (∃ (s : State), ∃ (src : Nat), ∃ (e : Nat), s.slicesUp = true ∧ ∃ (r : EpochRaise), s.fed.raising = some r ∧ (r.mine = false ∨ e ≠ r.epoch ∨ r.tRaise < s.time.units + 80000000 ∨ r.acks.contains src = true)) :=
  ⟨(by refine ⟨{ wMas with time.mono := 25000000 }, 0, ?_⟩; decide +kernel),
   ⟨federationMovesAndRaises_51_s, 0, chk (dA inferInstance (dA inferInstance (dSome fun _ => inferInstance))) (by decide +kernel)⟩,
   ⟨wMas, 0, by decide +kernel⟩,
   ⟨federationMovesAndRaises_53_s, 0, 0, chk (dA inferInstance (dA inferInstance (dA inferInstance (dSome fun _ => inferInstance)))) (by decide +kernel)⟩,
   ⟨wMas, 0, 0, by decide +kernel⟩,
   ⟨federationMovesAndRaises_55_s, 0, chk (dA inferInstance (dA inferInstance (dA inferInstance (dVar fun _ => inferInstance)))) (by decide +kernel)⟩,
   ⟨wMas, 2, 0, by decide +kernel⟩,
   ⟨wMas, 2, 0, by decide +kernel⟩,
   ⟨wMas, 2, 0, by decide +kernel⟩,
   ⟨federationMovesAndRaises_59_s, 2, 0, chk (dA inferInstance (dSome fun _ => inferInstance)) (by decide +kernel)⟩⟩

/-- Joining, moves, heartbeats, the election, time distribution and the epoch: clauses 60, 61, 62, 63, 64, 65, 66. -/
theorem witness_FederationMovesAndRaises_g :
    (∃ (s : State), ∃ (src : Nat), s.slicesUp = true ∧ ∃ (r : EpochRaise), s.fed.raising = some r ∧ r.mine = true ∧ s.time.units + 80000000 ≤ r.tRaise ∧ r.acks.contains src = false) ∧
    (∃ (s : State), s.slicesUp = true ∧ ∃ (r : EpochRaise), s.fed.raising = some r ∧ r.mine = true) ∧
    (∃ (s : State), s.slicesUp = true ∧ ∃ (r : EpochRaise), s.fed.raising = some r ∧ r.mine = false) ∧
    (∃ (s : State), s.slicesUp = true ∧ ∃ (r : EpochRaise), s.fed.raising = some r ∧ ¬(r.mine = true ∧ ((idsOf (s.fld F.FED_MEMBERS)).any fun (f : Nat) => !r.acks.contains f) = true) ∧ s.time.units < r.tRaise) ∧
    (∃ (s : State), s.slicesUp = true ∧ ∃ (r : EpochRaise), s.fed.raising = some r ∧ r.mine = true ∧ ((idsOf (s.fld F.FED_MEMBERS)).any fun (f : Nat) => !r.acks.contains f) = true ∧ s.time.units + 80000000 < r.tRaise) ∧
    (∃ (s : State), s.slicesUp = true ∧ ∃ (r : EpochRaise), s.fed.raising = some r ∧ ¬(r.mine = true ∧ ((idsOf (s.fld F.FED_MEMBERS)).any fun (f : Nat) => !r.acks.contains f) = true) ∧ r.tRaise ≤ s.time.units ∧ r.epoch < 2 ^ 16) ∧
    (∃ (s : State), s.slicesUp = true ∧ ∃ (r : EpochRaise), s.fed.raising = some r ∧ r.mine = true ∧ ((idsOf (s.fld F.FED_MEMBERS)).any fun (f : Nat) => !r.acks.contains f) = true ∧ r.tRaise ≤ s.time.units + 80000000) :=
  ⟨⟨federationMovesAndRaises_60_s, 2, chk (dA inferInstance (dSome fun _ => inferInstance)) (by decide +kernel)⟩,
   ⟨federationMovesAndRaises_61_s, chk (dA inferInstance (dSome fun _ => inferInstance)) (by decide +kernel)⟩,
   ⟨federationMovesAndRaises_62_s, chk (dA inferInstance (dSome fun _ => inferInstance)) (by decide +kernel)⟩,
   ⟨federationMovesAndRaises_63_s, chk (dA inferInstance (dSome fun _ => inferInstance)) (by decide +kernel)⟩,
   ⟨federationMovesAndRaises_64_s, chk (dA inferInstance (dSome fun _ => inferInstance)) (by decide +kernel)⟩,
   ⟨federationMovesAndRaises_65_s, chk (dA inferInstance (dSome fun _ => inferInstance)) (by decide +kernel)⟩,
   ⟨federationMovesAndRaises_66_s, chk (dA inferInstance (dSome fun _ => inferInstance)) (by decide +kernel)⟩⟩

def federatedEndpointForwards_1_s : State :=
  { wFeS false (wFe 3 (leBytes 8 0)) with fe.bindings := [] }

def federatedEndpointForwards_3_s : State :=
  { wFeS false (wFe 8 (leBytes 8 6 ++ leBytes 8 0)) with fe.bindings := [] }

def federatedEndpointForwards_5_s : State :=
  { wFeS true (wFe 8 (leBytes 8 7 ++ leBytes 8 99)) with fe.bindings := [] }

def federatedEndpointForwards_7_s : State :=
  { wFeS true (wFe 4 (leBytes 24 0)) with fe.bindings := [] }

def federatedEndpointForwards_9_s : State :=
  { wFeS false (wFe 5 (leBytes 24 0)) with fe.bindings := [] }

def federatedEndpointForwards_11_s : State :=
  { wFeS true (wFe 6 (leBytes 24 0)) with fe.bindings := [] }

def federatedEndpointForwards_13_s : State :=
  { wFeS true (wFe 7 (leBytes 24 0)) with fe.bindings := [] }

def federatedEndpointForwards_15_s : State :=
  { wFeS false (wFe 8 (leBytes 8 1)) with fe.bindings := [] }

def federatedEndpointForwards_17_s : State :=
  { wFeS false (wFe 8 (leBytes 8 2)) with fe.bindings := [] }

def federatedEndpointForwards_19_s : State :=
  { wFeS false (wFe 8 (leBytes 8 3)) with fe.bindings := [] }

def federatedEndpointForwards_21_s : State :=
  { wFeS true (wFe 8 (leBytes 8 4)) with fe.bindings := [] }

def federatedEndpointForwards_23_s : State :=
  { wFeS true (wFe 8 (leBytes 8 5)) with fe.bindings := [] }

def federatedEndpointForwards_24_s : State :=
  { wInst (wInst wUp 2 1) 1 4 with fe.bindings := [wBind false], fe.inbox := [wFe 3 (leBytes 8 0)] }

def federatedEndpointForwards_25_s : State :=
  wFeS false (wFe 3 (leBytes 8 0))

def federatedEndpointForwards_26_s : State :=
  wFeS false (wFe 8 (leBytes 8 6 ++ leBytes 8 0x10000))

def federatedEndpointForwards_27_s : State :=
  { wFeS true (wFe 8 (leBytes 8 7 ++ leBytes 8 99)) with fe.mmio := [(2, 0x10000, 9)] }

def federatedEndpointForwards_28_s : State :=
  wFeS true (wFe 8 (leBytes 8 7 ++ leBytes 8 99))

def federatedEndpointForwards_32_s : State :=
  wFeS true (wFe 4 (leBytes 24 0))

def federatedEndpointForwards_33_s : State :=
  { wFeS false (wFe 5 (leBytes 8 0 ++ leBytes 8 99)) with fe.reads := [{ rtag := 0, homeInst := 1, slice := 0, addr := 0, len := 8, due := 9 }] }

def federatedEndpointForwards_34_s : State :=
  { wFeS false (wFe 5 (leBytes 8 0x10000 ++ leBytes 8 99)) with fe.reads := [{ rtag := 0, homeInst := 1, slice := 0, addr := 0, len := 8, due := 9 }] }

def federatedEndpointForwards_35_s : State :=
  wFeS false (wFe 5 (leBytes 8 0 ++ leBytes 8 99))

def federatedEndpointForwards_36_s : State :=
  wFeS true (wFe 6 (leBytes 16 (2 ^ 64 * 8) ++ leBytes 8 99))

def federatedEndpointForwards_40_s : State :=
  wFeS true (wFe 7 (leBytes 8 0))

def federatedEndpointForwards_41_s : State :=
  wFeS false (wFe 8 (leBytes 8 1))

def federatedEndpointForwards_42_s : State :=
  wFeS false (wFe 8 (leBytes 8 2))

def federatedEndpointForwards_43_s : State :=
  wFeS false (wFe 8 (leBytes 8 3))

def federatedEndpointForwards_44_s : State :=
  wFeS true (wFe 8 (leBytes 8 4))

def federatedEndpointForwards_45_s : State :=
  wFeS true (wFe 8 (leBytes 8 5))

def federatedEndpointForwards_47_s : State :=
  { wFeS true (wFe 8 (leBytes 8 7 ++ leBytes 8 99)) with fe.mmio := [(2, 0x10000, 9)] }

def federatedEndpointForwards_48_s : State :=
  { wFeS true (wFe 9 []) with fe.mmio := [(2, 0x10000, 0)] }

def federatedEndpointForwards_50_s : State :=
  { wFeS false (wFe 5 (leBytes 8 0 ++ leBytes 8 99)) with fe.reads := [{ rtag := 0, homeInst := 1, slice := 0, addr := 0, len := 8, due := 9 }] }

def federatedEndpointForwards_51_s : State :=
  { wFeS false (wFe 9 []) with fe.reads := [{ rtag := 0, homeInst := 1, slice := 0, addr := 0, len := 8, due := 0 }] }

def federatedEndpointForwards_56_s : State :=
  wFeS false (wFe 3 (leBytes 8 0))

def federatedEndpointForwards_57_s : State :=
  { wInst wUp 1 1 with fe.bindings := [{ wBind false with gapSince := some 0 }], time.mono := 80000000 }

def federatedEndpointForwards_58_s : State :=
  { wFeS true (wFe 8 (leBytes 8 7 ++ leBytes 8 99)) with fe.mmio := [(2, 0x10000, 9)] }

def federatedEndpointForwards_59_s : State :=
  { wInst wUp 2 1 with fe.bindings := [{ wBind true with flrSent := some 0 }], time.mono := 80000000 }

def federatedEndpointForwards_60_s : State :=
  { wInst wUp 2 1 with fe.bindings := [{ wBind true with gapSince := some 0 }], time.mono := 80000000 }

def federatedEndpointForwards_61_s : State :=
  { wFeS true (wFe 8 (leBytes 8 7 ++ leBytes 8 99)) with fe.mmio := [(2, 0x10000, 9)] }

def federatedEndpointForwards_62_s : State :=
  { wFeS true (wFe 8 (leBytes 8 7 ++ leBytes 8 99)) with fe.mmio := [(2, 0x10000, 9)] }

def federatedEndpointForwards_63_s : State :=
  { wInst wUp 2 1 with fe.bindings := [{ wBind true with state := 2 }] }

def federatedEndpointForwards_64_s : State :=
  { wInst wUp 2 4 with fe.bindings := [{ wBind true with state := 2 }] }

/-- Federated-endpoint packets have their effect under their binding: clauses 0, 1, 2, 3, 4, 5, 6, 7, 8, 9. -/
theorem witness_FederatedEndpointForwards_a :
    (∃ (s : State), s.slicesUp = true ∧ feReady (fun (p : KPkt) => decide (p.typ = 3)) [] s.fe.inbox = none) ∧
    (∃ (s : State), s.slicesUp = true ∧ ∃ (x : KPkt), ∃ (rest : List KPkt), feReady (fun (p : KPkt) => decide (p.typ = 3)) [] s.fe.inbox = some (x, rest) ∧ Option.all (fun (b : FeBinding) => decide (b.state ≠ 1)) (s.feBindingOf x) = true) ∧
    (∃ (s : State), s.slicesUp = true ∧ feReady (isCtl 6) [] s.fe.inbox = none) ∧
    (∃ (s : State), s.slicesUp = true ∧ ∃ (x : KPkt), ∃ (rest : List KPkt), feReady (isCtl 6) [] s.fe.inbox = some (x, rest) ∧ Option.all (fun (b : FeBinding) => decide (b.state ≠ 1)) (s.feBindingOf x) = true) ∧
    (∃ (s : State), s.slicesUp = true ∧ feReady (isCtl 7) [] s.fe.inbox = none) ∧
    (∃ (s : State), s.slicesUp = true ∧ ∃ (x : KPkt), ∃ (rest : List KPkt), feReady (isCtl 7) [] s.fe.inbox = some (x, rest) ∧ Option.all (fun (b : FeBinding) => decide (b.state ≠ 1)) (s.feBindingOf x) = true) ∧
    (∃ (s : State), s.slicesUp = true ∧ s.fe.serving = [] ∧ feReady (fun (p : KPkt) => decide (p.typ = 4)) [] s.fe.inbox = none) ∧
    (∃ (s : State), s.slicesUp = true ∧ s.fe.serving = [] ∧ ∃ (x : KPkt), ∃ (rest : List KPkt), feReady (fun (p : KPkt) => decide (p.typ = 4)) [] s.fe.inbox = some (x, rest) ∧ Option.all (fun (b : FeBinding) => decide (b.state ≠ 1)) (s.feBindingOf x) = true) ∧
    (∃ (s : State), s.slicesUp = true ∧ feReady (fun (p : KPkt) => decide (p.typ = 5)) [] s.fe.inbox = none) ∧
    (∃ (s : State), s.slicesUp = true ∧ ∃ (x : KPkt), ∃ (rest : List KPkt), feReady (fun (p : KPkt) => decide (p.typ = 5)) [] s.fe.inbox = some (x, rest) ∧ Option.all (fun (b : FeBinding) => decide (b.state ≠ 1)) (s.feBindingOf x) = true) :=
  ⟨⟨wFeS false (wFe 8 (leBytes 8 6 ++ leBytes 8 0x10000)), by decide +kernel⟩,
   ⟨federatedEndpointForwards_1_s, chk (dA inferInstance (dSome2 fun _ _ => inferInstance)) (by decide +kernel)⟩,
   ⟨wFeS false (wFe 3 (leBytes 8 0)), by decide +kernel⟩,
   ⟨federatedEndpointForwards_3_s, chk (dA inferInstance (dSome2 fun _ _ => inferInstance)) (by decide +kernel)⟩,
   ⟨wFeS false (wFe 3 (leBytes 8 0)), by decide +kernel⟩,
   ⟨federatedEndpointForwards_5_s, chk (dA inferInstance (dSome2 fun _ _ => inferInstance)) (by decide +kernel)⟩,
   ⟨wFeS false (wFe 3 (leBytes 8 0)), by decide +kernel⟩,
   ⟨federatedEndpointForwards_7_s, chk (dA inferInstance (dA inferInstance (dSome2 fun _ _ => inferInstance))) (by decide +kernel)⟩,
   ⟨wFeS false (wFe 3 (leBytes 8 0)), by decide +kernel⟩,
   ⟨federatedEndpointForwards_9_s, chk (dA inferInstance (dSome2 fun _ _ => inferInstance)) (by decide +kernel)⟩⟩

/-- Federated-endpoint packets have their effect under their binding: clauses 10, 11, 12, 13, 14, 15, 16, 17, 18, 19. -/
theorem witness_FederatedEndpointForwards_b :
    (∃ (s : State), s.slicesUp = true ∧ feReady (fun (p : KPkt) => decide (p.typ = 6)) [] s.fe.inbox = none) ∧
    (∃ (s : State), s.slicesUp = true ∧ ∃ (x : KPkt), ∃ (rest : List KPkt), feReady (fun (p : KPkt) => decide (p.typ = 6)) [] s.fe.inbox = some (x, rest) ∧ Option.all (fun (b : FeBinding) => decide (b.state ≠ 1)) (s.feBindingOf x) = true) ∧
    (∃ (s : State), s.slicesUp = true ∧ feReady (fun (p : KPkt) => decide (p.typ = 7)) [] s.fe.inbox = none) ∧
    (∃ (s : State), s.slicesUp = true ∧ ∃ (x : KPkt), ∃ (rest : List KPkt), feReady (fun (p : KPkt) => decide (p.typ = 7)) [] s.fe.inbox = some (x, rest) ∧ Option.all (fun (b : FeBinding) => decide (b.state ≠ 1)) (s.feBindingOf x) = true) ∧
    (∃ (s : State), s.slicesUp = true ∧ feReady (isCtl 1) [] s.fe.inbox = none) ∧
    (∃ (s : State), s.slicesUp = true ∧ ∃ (x : KPkt), ∃ (rest : List KPkt), feReady (isCtl 1) [] s.fe.inbox = some (x, rest) ∧ Option.all (fun (b : FeBinding) => decide (b.state ≠ 1)) (s.feBindingOf x) = true) ∧
    (∃ (s : State), s.slicesUp = true ∧ feReady (isCtl 2) [] s.fe.inbox = none) ∧
    (∃ (s : State), s.slicesUp = true ∧ ∃ (x : KPkt), ∃ (rest : List KPkt), feReady (isCtl 2) [] s.fe.inbox = some (x, rest) ∧ Option.all (fun (b : FeBinding) => decide (b.state ≠ 1)) (s.feBindingOf x) = true) ∧
    (∃ (s : State), s.slicesUp = true ∧ feReady (isCtl 3) [] s.fe.inbox = none) ∧
    (∃ (s : State), s.slicesUp = true ∧ ∃ (x : KPkt), ∃ (rest : List KPkt), feReady (isCtl 3) [] s.fe.inbox = some (x, rest) ∧ Option.all (fun (b : FeBinding) => decide (b.state ≠ 1)) (s.feBindingOf x) = true) :=
  ⟨⟨wFeS false (wFe 3 (leBytes 8 0)), by decide +kernel⟩,
   ⟨federatedEndpointForwards_11_s, chk (dA inferInstance (dSome2 fun _ _ => inferInstance)) (by decide +kernel)⟩,
   ⟨wFeS false (wFe 3 (leBytes 8 0)), by decide +kernel⟩,
   ⟨federatedEndpointForwards_13_s, chk (dA inferInstance (dSome2 fun _ _ => inferInstance)) (by decide +kernel)⟩,
   ⟨wFeS false (wFe 3 (leBytes 8 0)), by decide +kernel⟩,
   ⟨federatedEndpointForwards_15_s, chk (dA inferInstance (dSome2 fun _ _ => inferInstance)) (by decide +kernel)⟩,
   ⟨wFeS false (wFe 3 (leBytes 8 0)), by decide +kernel⟩,
   ⟨federatedEndpointForwards_17_s, chk (dA inferInstance (dSome2 fun _ _ => inferInstance)) (by decide +kernel)⟩,
   ⟨wFeS false (wFe 3 (leBytes 8 0)), by decide +kernel⟩,
   ⟨federatedEndpointForwards_19_s, chk (dA inferInstance (dSome2 fun _ _ => inferInstance)) (by decide +kernel)⟩⟩

/-- Federated-endpoint packets have their effect under their binding: clauses 20, 21, 22, 23, 24, 25, 26, 27, 28, 32. -/
theorem witness_FederatedEndpointForwards_c :
    (∃ (s : State), s.slicesUp = true ∧ feReady (isCtl 4) [] s.fe.inbox = none) ∧
    (∃ (s : State), s.slicesUp = true ∧ ∃ (x : KPkt), ∃ (rest : List KPkt), feReady (isCtl 4) [] s.fe.inbox = some (x, rest) ∧ Option.all (fun (b : FeBinding) => decide (b.state ≠ 1)) (s.feBindingOf x) = true) ∧
    (∃ (s : State), s.slicesUp = true ∧ feReady (isCtl 5) [] s.fe.inbox = none) ∧
    (∃ (s : State), s.slicesUp = true ∧ ∃ (x : KPkt), ∃ (rest : List KPkt), feReady (isCtl 5) [] s.fe.inbox = some (x, rest) ∧ Option.all (fun (b : FeBinding) => decide (b.state ≠ 1)) (s.feBindingOf x) = true) ∧
    (∃ (s : State), s.slicesUp = true ∧ ∃ (x : KPkt), ∃ (rest : List KPkt), feReady (fun (p : KPkt) => decide (p.typ = 3)) [] s.fe.inbox = some (x, rest) ∧ ∃ (b : FeBinding), s.feBindingOf x = some b ∧ b.state = 1 ∧ s.instType b.homeInst = 4) ∧
    (∃ (s : State), s.slicesUp = true ∧ ∃ (x : KPkt), ∃ (rest : List KPkt), feReady (fun (p : KPkt) => decide (p.typ = 3)) [] s.fe.inbox = some (x, rest) ∧ ∃ (b : FeBinding), s.feBindingOf x = some b ∧ b.state = 1 ∧ s.instType b.homeInst ≠ 4) ∧
    (∃ (s : State), s.slicesUp = true ∧ ∃ (x : KPkt), ∃ (rest : List KPkt), feReady (isCtl 6) [] s.fe.inbox = some (x, rest) ∧ ∃ (b : FeBinding), s.feBindingOf x = some b ∧ b.state = 1) ∧
    (∃ (s : State), s.slicesUp = true ∧ ∃ (x : KPkt), ∃ (rest : List KPkt), feReady (isCtl 7) [] s.fe.inbox = some (x, rest) ∧ ∃ (b : FeBinding), s.feBindingOf x = some b ∧ b.state = 1 ∧ ∃ (e : Nat × Nat × Nat), ∃ (es : List (Nat × Nat × Nat)), takeFirst (fun (e : Nat × Nat × Nat) => decide (e.fst = b.anchorInst)) s.fe.mmio = some (e, es) ∧ True) ∧
    (∃ (s : State), s.slicesUp = true ∧ ∃ (x : KPkt), ∃ (rest : List KPkt), feReady (isCtl 7) [] s.fe.inbox = some (x, rest) ∧ ∃ (b : FeBinding), s.feBindingOf x = some b ∧ b.state = 1 ∧ takeFirst (fun (e : Nat × Nat × Nat) => decide (e.fst = b.anchorInst)) s.fe.mmio = none) ∧
    (∃ (s : State), s.slicesUp = true ∧ s.fe.serving = [] ∧ ∃ (x : KPkt), ∃ (rest : List KPkt), feReady (fun (p : KPkt) => decide (p.typ = 4)) [] s.fe.inbox = some (x, rest) ∧ ∃ (b : FeBinding), s.feBindingOf x = some b ∧ b.state = 1 ∧ s.busMaster b.anchorInst = false) :=
  ⟨⟨wFeS false (wFe 3 (leBytes 8 0)), by decide +kernel⟩,
   ⟨federatedEndpointForwards_21_s, chk (dA inferInstance (dSome2 fun _ _ => inferInstance)) (by decide +kernel)⟩,
   ⟨wFeS false (wFe 3 (leBytes 8 0)), by decide +kernel⟩,
   ⟨federatedEndpointForwards_23_s, chk (dA inferInstance (dSome2 fun _ _ => inferInstance)) (by decide +kernel)⟩,
   ⟨federatedEndpointForwards_24_s, chk (dA inferInstance (dSome2 fun _ _ => (dSome fun _ => inferInstance))) (by decide +kernel)⟩,
   ⟨federatedEndpointForwards_25_s, chk (dA inferInstance (dSome2 fun _ _ => (dSome fun _ => inferInstance))) (by decide +kernel)⟩,
   ⟨federatedEndpointForwards_26_s, chk (dA inferInstance (dSome2 fun _ _ => (dSome fun _ => inferInstance))) (by decide +kernel)⟩,
   ⟨federatedEndpointForwards_27_s, chk (dA inferInstance (dSome2 fun _ _ => (dSome fun _ => (dA inferInstance (dSome2 fun _ _ => inferInstance))))) (by decide +kernel)⟩,
   ⟨federatedEndpointForwards_28_s, chk (dA inferInstance (dSome2 fun _ _ => (dSome fun _ => inferInstance))) (by decide +kernel)⟩,
   ⟨federatedEndpointForwards_32_s, chk (dA inferInstance (dA inferInstance (dSome2 fun _ _ => (dSome fun _ => inferInstance)))) (by decide +kernel)⟩⟩

/-- Federated-endpoint packets have their effect under their binding: clauses 33, 34, 35, 36, 40, 41, 42, 43, 44, 45. -/
theorem witness_FederatedEndpointForwards_d :
    (∃ (s : State), s.slicesUp = true ∧ ∃ (x : KPkt), ∃ (rest : List KPkt), feReady (fun (p : KPkt) => decide (p.typ = 5)) [] s.fe.inbox = some (x, rest) ∧ leAt (fePktBody x) 2 2 = 0 ∧ ∃ (b : FeBinding), s.feBindingOf x = some b ∧ b.state = 1 ∧ ∃ (r : FeRead), List.find? (fun (r : FeRead) => decide (r.rtag = leAt (fePktBody x) 0 2 ∧ r.homeInst = b.homeInst)) s.fe.reads = some r ∧ True) ∧
    (∃ (s : State), s.slicesUp = true ∧ ∃ (x : KPkt), ∃ (rest : List KPkt), feReady (fun (p : KPkt) => decide (p.typ = 5)) [] s.fe.inbox = some (x, rest) ∧ leAt (fePktBody x) 2 2 ≠ 0 ∧ ∃ (b : FeBinding), s.feBindingOf x = some b ∧ b.state = 1 ∧ ∃ (r : FeRead), List.find? (fun (r : FeRead) => decide (r.rtag = leAt (fePktBody x) 0 2 ∧ r.homeInst = b.homeInst)) s.fe.reads = some r ∧ True) ∧
    (∃ (s : State), s.slicesUp = true ∧ ∃ (x : KPkt), ∃ (rest : List KPkt), feReady (fun (p : KPkt) => decide (p.typ = 5)) [] s.fe.inbox = some (x, rest) ∧ ∃ (b : FeBinding), s.feBindingOf x = some b ∧ b.state = 1 ∧ List.find? (fun (r : FeRead) => decide (r.rtag = leAt (fePktBody x) 0 2 ∧ r.homeInst = b.homeInst)) s.fe.reads = none) ∧
    (∃ (s : State), s.slicesUp = true ∧ ∃ (x : KPkt), ∃ (rest : List KPkt), feReady (fun (p : KPkt) => decide (p.typ = 6)) [] s.fe.inbox = some (x, rest) ∧ ∃ (b : FeBinding), s.feBindingOf x = some b ∧ b.state = 1 ∧ s.busMaster b.anchorInst = false) ∧
    (∃ (s : State), s.slicesUp = true ∧ ∃ (x : KPkt), ∃ (rest : List KPkt), feReady (fun (p : KPkt) => decide (p.typ = 7)) [] s.fe.inbox = some (x, rest) ∧ ∃ (b : FeBinding), s.feBindingOf x = some b ∧ b.state = 1) ∧
    (∃ (s : State), s.slicesUp = true ∧ ∃ (x : KPkt), ∃ (rest : List KPkt), feReady (isCtl 1) [] s.fe.inbox = some (x, rest) ∧ ∃ (b : FeBinding), s.feBindingOf x = some b ∧ b.state = 1) ∧
    (∃ (s : State), s.slicesUp = true ∧ ∃ (x : KPkt), ∃ (rest : List KPkt), feReady (isCtl 2) [] s.fe.inbox = some (x, rest) ∧ ∃ (b : FeBinding), s.feBindingOf x = some b ∧ b.state = 1) ∧
    (∃ (s : State), s.slicesUp = true ∧ ∃ (x : KPkt), ∃ (rest : List KPkt), feReady (isCtl 3) [] s.fe.inbox = some (x, rest) ∧ ∃ (b : FeBinding), s.feBindingOf x = some b ∧ b.state = 1) ∧
    (∃ (s : State), s.slicesUp = true ∧ ∃ (x : KPkt), ∃ (rest : List KPkt), feReady (isCtl 4) [] s.fe.inbox = some (x, rest) ∧ ∃ (b : FeBinding), s.feBindingOf x = some b ∧ b.state = 1) ∧
    (∃ (s : State), s.slicesUp = true ∧ ∃ (x : KPkt), ∃ (rest : List KPkt), feReady (isCtl 5) [] s.fe.inbox = some (x, rest) ∧ ∃ (b : FeBinding), s.feBindingOf x = some b ∧ b.state = 1) :=
  ⟨⟨federatedEndpointForwards_33_s, chk (dA inferInstance (dSome2 fun _ _ => (dA inferInstance (dSome fun _ => (dA inferInstance (dSome fun _ => inferInstance)))))) (by decide +kernel)⟩,
   ⟨federatedEndpointForwards_34_s, chk (dA inferInstance (dSome2 fun _ _ => (dA inferInstance (dSome fun _ => (dA inferInstance (dSome fun _ => inferInstance)))))) (by decide +kernel)⟩,
   ⟨federatedEndpointForwards_35_s, chk (dA inferInstance (dSome2 fun _ _ => (dSome fun _ => inferInstance))) (by decide +kernel)⟩,
   ⟨federatedEndpointForwards_36_s, chk (dA inferInstance (dSome2 fun _ _ => (dSome fun _ => inferInstance))) (by decide +kernel)⟩,
   ⟨federatedEndpointForwards_40_s, chk (dA inferInstance (dSome2 fun _ _ => (dSome fun _ => inferInstance))) (by decide +kernel)⟩,
   ⟨federatedEndpointForwards_41_s, chk (dA inferInstance (dSome2 fun _ _ => (dSome fun _ => inferInstance))) (by decide +kernel)⟩,
   ⟨federatedEndpointForwards_42_s, chk (dA inferInstance (dSome2 fun _ _ => (dSome fun _ => inferInstance))) (by decide +kernel)⟩,
   ⟨federatedEndpointForwards_43_s, chk (dA inferInstance (dSome2 fun _ _ => (dSome fun _ => inferInstance))) (by decide +kernel)⟩,
   ⟨federatedEndpointForwards_44_s, chk (dA inferInstance (dSome2 fun _ _ => (dSome fun _ => inferInstance))) (by decide +kernel)⟩,
   ⟨federatedEndpointForwards_45_s, chk (dA inferInstance (dSome2 fun _ _ => (dSome fun _ => inferInstance))) (by decide +kernel)⟩⟩

/-- Federated-endpoint packets have their effect under their binding: clauses 46, 47, 48, 49, 50, 51, 52, 53, 54, 55. -/
theorem witness_FederatedEndpointForwards_e :
    (∃ (s : State), ∃ (inst : Nat), s.slicesUp = true ∧ takeFirst (fun (e : Nat × Nat × Nat) => decide (e.fst = inst)) s.fe.mmio = none) ∧
    (∃ (s : State), ∃ (inst : Nat), s.slicesUp = true ∧ ∃ (e : Nat × Nat × Nat), ∃ (rest : List (Nat × Nat × Nat)), takeFirst (fun (e : Nat × Nat × Nat) => decide (e.fst = inst)) s.fe.mmio = some (e, rest) ∧ s.time.mono < e.snd.snd) ∧
    (∃ (s : State), ∃ (inst : Nat), s.slicesUp = true ∧ ∃ (e : Nat × Nat × Nat), ∃ (rest : List (Nat × Nat × Nat)), takeFirst (fun (e : Nat × Nat × Nat) => decide (e.fst = inst)) s.fe.mmio = some (e, rest) ∧ e.snd.snd ≤ s.time.mono) ∧
    (∃ (s : State), ∃ (rtag : Nat), s.slicesUp = true ∧ List.find? (fun (r : FeRead) => decide (r.rtag = rtag)) s.fe.reads = none) ∧
    (∃ (s : State), ∃ (rtag : Nat), s.slicesUp = true ∧ ∃ (r : FeRead), List.find? (fun (r : FeRead) => decide (r.rtag = rtag)) s.fe.reads = some r ∧ s.time.mono < r.due) ∧
    (∃ (s : State), ∃ (rtag : Nat), s.slicesUp = true ∧ ∃ (r : FeRead), List.find? (fun (r : FeRead) => decide (r.rtag = rtag)) s.fe.reads = some r ∧ r.due ≤ s.time.mono) ∧
    (∃ (s : State), ∃ (inst : Nat), ∃ (off : Nat), s.slicesUp = true ∧ s.anchorBinding inst = none) ∧
    (∃ (s : State), ∃ (inst : Nat), ∃ (off : Nat), s.slicesUp = true ∧ s.anchorBinding inst = none) ∧
    (∃ (s : State), ∃ (inst : Nat), ∃ (off : Nat), s.slicesUp = true ∧ s.anchorBinding inst = none) ∧
    (∃ (s : State), ∃ (inst : Nat), ∃ (off : Nat), s.slicesUp = true ∧ s.homeBinding inst = none) :=
  ⟨⟨wFeS false (wFe 3 (leBytes 8 0)), 2, by decide +kernel⟩,
   ⟨federatedEndpointForwards_47_s, 2, chk (dA inferInstance (dSome2 fun _ _ => inferInstance)) (by decide +kernel)⟩,
   ⟨federatedEndpointForwards_48_s, 2, chk (dA inferInstance (dSome2 fun _ _ => inferInstance)) (by decide +kernel)⟩,
   ⟨wFeS false (wFe 3 (leBytes 8 0)), 0, by decide +kernel⟩,
   ⟨federatedEndpointForwards_50_s, 0, chk (dA inferInstance (dSome fun _ => inferInstance)) (by decide +kernel)⟩,
   ⟨federatedEndpointForwards_51_s, 0, chk (dA inferInstance (dSome fun _ => inferInstance)) (by decide +kernel)⟩,
   ⟨wFeS false (wFe 3 (leBytes 8 0)), 2, 0x10000, by decide +kernel⟩,
   ⟨wFeS false (wFe 3 (leBytes 8 0)), 2, 0x10000, by decide +kernel⟩,
   ⟨wFeS false (wFe 3 (leBytes 8 0)), 2, 0x10000, by decide +kernel⟩,
   ⟨wFeS false (wFe 3 (leBytes 8 0)), 2, 0x10000, by decide +kernel⟩⟩

/-- Federated-endpoint packets have their effect under their binding: clauses 56, 57, 58, 59, 60, 61, 62, 63, 64. -/
theorem witness_FederatedEndpointForwards_f :
    (∃ (s : State), ∃ (inst : Nat), ∃ (off : Nat), ∃ (anchor : Bool), s.slicesUp = true ∧ ∃ (b : FeBinding), (if anchor = true then s.anchorBinding inst else s.homeBinding inst) = some b ∧ (b.gapSince = none ∨ b.state ≠ 1 ∨ s.time.mono < b.gapSince.getD 0 + 200 * ticksPerUs)) ∧
    (∃ (s : State), ∃ (inst : Nat), ∃ (off : Nat), s.slicesUp = true ∧ ∃ (b : FeBinding), s.homeBinding inst = some b ∧ b.state = 1 ∧ ∃ (t0 : Nat), b.gapSince = some t0 ∧ t0 + 200 * ticksPerUs ≤ s.time.mono) ∧
    (∃ (s : State), ∃ (inst : Nat), s.slicesUp = true ∧ ∃ (b : FeBinding), s.anchorBinding inst = some b ∧ (b.flrSent = none ∨ s.time.mono < b.flrSent.getD 0 + 50 * ticksPerMs)) ∧
    (∃ (s : State), ∃ (inst : Nat), s.slicesUp = true ∧ ∃ (b : FeBinding), s.anchorBinding inst = some b ∧ ∃ (t0 : Nat), b.flrSent = some t0 ∧ t0 + 50 * ticksPerMs ≤ s.time.mono) ∧
    (∃ (s : State), ∃ (inst : Nat), s.slicesUp = true ∧ ∃ (b : FeBinding), s.anchorBinding inst = some b ∧ b.state = 1 ∧ ∃ (t0 : Nat), b.gapSince = some t0 ∧ t0 + 200 * ticksPerUs ≤ s.time.mono) ∧
    (∃ (s : State), ∃ (inst : Nat), ∃ (off : Nat), s.slicesUp = true ∧ (¬if s.instType inst = 4 then off < 8192 else 65536 ≤ off ∧ off < 131072) ∧ ∃ (b : FeBinding), s.anchorBinding inst = some b ∧ True) ∧
    (∃ (s : State), ∃ (inst : Nat), ∃ (off : Nat), s.slicesUp = true ∧ (if s.instType inst = 4 then off < 8192 else 65536 ≤ off ∧ off < 131072) ∧ ∃ (b : FeBinding), s.anchorBinding inst = some b ∧ b.state = 1) ∧
    (∃ (s : State), ∃ (inst : Nat), ∃ (off : Nat), s.slicesUp = true ∧ (if s.instType inst = 4 then off < 8192 else 65536 ≤ off ∧ off < 131072) ∧ ¬s.instType inst = 4 ∧ ∃ (b : FeBinding), s.anchorBinding inst = some b ∧ b.state ≠ 1) ∧
    (∃ (s : State), ∃ (inst : Nat), ∃ (off : Nat), s.slicesUp = true ∧ (if s.instType inst = 4 then off < 8192 else 65536 ≤ off ∧ off < 131072) ∧ s.instType inst = 4 ∧ ∃ (b : FeBinding), s.anchorBinding inst = some b ∧ b.state ≠ 1) :=
  ⟨⟨federatedEndpointForwards_56_s, 1, 0x10000, false, chk (dA inferInstance (dSome fun _ => inferInstance)) (by decide +kernel)⟩,
   ⟨federatedEndpointForwards_57_s, 1, 0x10000, chk (dA inferInstance (dSome fun _ => (dA inferInstance (dSome fun _ => inferInstance)))) (by decide +kernel)⟩,
   ⟨federatedEndpointForwards_58_s, 2, chk (dA inferInstance (dSome fun _ => inferInstance)) (by decide +kernel)⟩,
   ⟨federatedEndpointForwards_59_s, 2, chk (dA inferInstance (dSome fun _ => (dSome fun _ => inferInstance))) (by decide +kernel)⟩,
   ⟨federatedEndpointForwards_60_s, 2, chk (dA inferInstance (dSome fun _ => (dA inferInstance (dSome fun _ => inferInstance)))) (by decide +kernel)⟩,
   ⟨federatedEndpointForwards_61_s, 2, 0, chk (dA inferInstance (dA inferInstance (dSome fun _ => inferInstance))) (by decide +kernel)⟩,
   ⟨federatedEndpointForwards_62_s, 2, 0x10000, chk (dA inferInstance (dA inferInstance (dSome fun _ => inferInstance))) (by decide +kernel)⟩,
   ⟨federatedEndpointForwards_63_s, 2, 0x10000, chk (dA inferInstance (dA inferInstance (dA inferInstance (dSome fun _ => inferInstance)))) (by decide +kernel)⟩,
   ⟨federatedEndpointForwards_64_s, 2, 0, chk (dA inferInstance (dA inferInstance (dA inferInstance (dSome fun _ => inferInstance)))) (by decide +kernel)⟩⟩

end Sys2Proof.Tests
end

