-- ==== Sys2Proof/Tests/WitnessKra.lean ====
section
/-!
SUPPORT. Witnesses: a state and operands that meet the hypotheses of each clause of the statements named, together.
-/

set_option linter.unusedVariables false
set_option Elab.async false
set_option maxRecDepth 100000

namespace Sys2Proof.Tests
open Sys2Proof.Machine

def kraRequestersWork_1_s : State :=
  (wRj (wJob 16 64 0 [9])).setSrx 0 0 { (wRj (wJob 16 64 0 [9])).srx 0 0 with started := [{ wJob 17 64 0 [9] with id := 2 }, wJob 16 64 0 [9]] }

def kraRequestersWork_3_s : State :=
  { wQ (wRj (wJob 16 64 0 [9])) (wQc 2) with kra.cache := [[], [], [], []], kra.fetch := [(0, 9)] }

def kraRequestersWork_4_s : State :=
  { wQ (wRj (wJob 16 64 0 [9])) (wQc 2) with kra.cache := [[], [], [], []] }

def kraRequestersWork_5_s : State :=
  wQ (wRj (wJob 0x10 64 0 [9])) (wQc 2 + 2 ^ 32)

def kraRequestersWork_6_s : State :=
  wQ (wRj (wJob 0x10 (2 ^ 31) 0 [9])) (wQc 2)

def kraRequestersWork_7_s : State :=
  wQ (wRj (wJob 0x10 64 0 [9])) (wQc 4)

def kraRequestersWork_8_s : State :=
  wQ (wRj (wJob 0x10 64 0 [9])) (wQc 2)

def kraRequestersWork_9_s : State :=
  { wQ (wRj (wJob 16 64 0 [9])) (wQc 2) with cat.entries := [(0, 1)] }

def kraRequestersWork_11_s : State :=
  (wRj (wJob 17 64 0 [9])).setSrx 0 0 { (wRj (wJob 17 64 0 [9])).srx 0 0 with started := [{ wJob 16 64 0 [9] with id := 2 }, wJob 17 64 0 [9]] }

def kraRequestersWork_13_s : State :=
  { wQ (wRj (wJob 17 64 0 [9])) (wQc 2) with kra.cache := [[], [], [], []], kra.fetch := [(0, 9)] }

def kraRequestersWork_14_s : State :=
  { wQ (wRj (wJob 17 64 0 [9])) (wQc 2) with kra.cache := [[], [], [], []] }

def kraRequestersWork_15_s : State :=
  wQ (wRj (wJob 0x11 64 0 [9])) (wQc 2 + 2 ^ 32)

def kraRequestersWork_16_s : State :=
  wQ (wRj (wJob 0x11 (2 ^ 31) 0 [9])) (wQc 2)

def kraRequestersWork_17_s : State :=
  wQ (wRj (wJob 0x11 64 0 [9])) (wQc 4)

def kraRequestersWork_18_s : State :=
  wQ (wRj (wJob 0x11 64 0 [9])) (wQc 2)

def kraRequestersWork_19_s : State :=
  { wQ (wRj (wJob 17 64 0 [9])) (wQc 2) with cat.entries := [(0, 1)] }

def kraRequestersWork_21_s : State :=
  (wRj (wJob 18 64 0 [9])).setSrx 0 0 { (wRj (wJob 18 64 0 [9])).srx 0 0 with started := [{ wJob 16 64 0 [9] with id := 2 }, wJob 18 64 0 [9]] }

def kraRequestersWork_23_s : State :=
  { wQ (wRj (wJob 18 64 0 [9])) (wQc 2) with kra.cache := [[], [], [], []], kra.fetch := [(0, 9)] }

def kraRequestersWork_24_s : State :=
  { wQ (wRj (wJob 18 64 0 [9])) (wQc 2) with kra.cache := [[], [], [], []] }

def kraRequestersWork_25_s : State :=
  wQ (wRj (wJob 0x12 64 0 [9])) (wQc 2 + 2 ^ 32)

def kraRequestersWork_26_s : State :=
  wQ (wRj (wJob 0x12 (2 ^ 31) 0 [9])) (wQc 2)

def kraRequestersWork_27_s : State :=
  wQ (wRj (wJob 0x12 64 0 [9])) (wQc 4)

def kraRequestersWork_28_s : State :=
  wQ (wRj (wJob 0x12 64 0 [9])) (wQc 2)

def kraRequestersWork_29_s : State :=
  { wQ (wRj (wJob 18 64 0 [9])) (wQc 2) with cat.entries := [(0, 1)] }

def kraRequestersWork_31_s : State :=
  (wRj (wJob 19 64 0 [9])).setSrx 0 0 { (wRj (wJob 19 64 0 [9])).srx 0 0 with started := [{ wJob 16 64 0 [9] with id := 2 }, wJob 19 64 0 [9]] }

def kraRequestersWork_33_s : State :=
  { wQ (wRj (wJob 19 64 0 [9])) (wQc 2) with kra.cache := [[], [], [], []], kra.fetch := [(0, 9)] }

def kraRequestersWork_34_s : State :=
  { wQ (wRj (wJob 19 64 0 [9])) (wQc 2) with kra.cache := [[], [], [], []] }

def kraRequestersWork_35_s : State :=
  wQ (wRj (wJob 0x13 64 0 [9])) (wQc 2 + 2 ^ 32)

def kraRequestersWork_36_s : State :=
  wQ (wRj (wJob 0x13 (2 ^ 31) 0 [9])) (wQc 2)

def kraRequestersWork_37_s : State :=
  wQ (wRj (wJob 0x13 64 0 [9])) (wQc 4)

def kraRequestersWork_38_s : State :=
  wQ (wRj (wJob 0x13 64 0 [9])) (wQc 2)

def kraRequestersWork_39_s : State :=
  { wQ (wRj (wJob 19 64 0 [9])) (wQc 2) with cat.entries := [(0, 1)] }

def kraRequestersWork_55_s : State :=
  { wQ wRingK (wQc 2) with kra.cache := [[], [], [], []] }

def kraRequestersWork_56_s : State :=
  { wQ wRingK (wQc 2) with cipher.keyReqs := [] }

def kraRequestersWork_59_s : State :=
  wF (wQ wRingK (wQc 2)) [(F.RNG_STATUS_STATE, 0)]

def kraRequestersWork_61_s : State :=
  wQ (wStart wRingK { wJob 0x10 64 0 [9] with taken := true }) (wQc 2) { jobs := [{ id := 1, op := 1, total := 64, sent := 64, started := true, endSeq := some 1 }], out := [{ seq := 0, job := 1, op := 1, off := 0, len := 64, first := true, last := true }], resend := some 0, rnr := true }

def kraRequestersWork_63_s : State :=
  wQ (wRj (wJob 0x10 64 0 [9])) (wQc 2 + 2 ^ 32)

def kraRequestersWork_64_s : State :=
  w1 (wQ (wStart wRingK { wJob 0x10 64 0 [9] with taken := true }) (wQc 2) { jobs := [{ id := 1, op := 1, total := 64 }] }) (F.INST_QUOTA_C_OPS_MAX 0) 0

def kraRequestersWork_70_s : State :=
  wRx wRingK (wQc 4) {} { op := 6, seq := 0, ext := ackExt 0 0 0 }

def kraRequestersWork_71_s : State :=
  wRx wRingK (wQc 2) {} { op := 6, seq := 0, ext := ackExt 5 0 0 }

def kraRequestersWork_72_s : State :=
  wRx (wStart wRingK { wJob 0x10 64 0 [9] with taken := true }) (wQc 2 + 2 ^ 384) { jobs := [{ id := 1, op := 1, total := 64, sent := 64, started := true, endSeq := some 1 }], out := [{ seq := 0, job := 1, op := 1, off := 0, len := 64, first := true, last := true }], ackNext := 1 } { op := 6, seq := 0, ext := ackExt 0 0 0 }

def kraRequestersWork_73_s : State :=
  wRx (wStart wRingK { wJob 0x10 64 0 [9] with taken := true }) (wQc 2 + 2 ^ 384) { jobs := [{ id := 1, op := 1, total := 64, sent := 64, started := true, endSeq := some 1 }], out := [{ seq := 0, job := 1, op := 1, off := 0, len := 64, first := true, last := true }] } { op := 6, seq := 0, ext := ackExt 0 0 0 }

def kraRequestersWork_74_s : State :=
  wRx (wStart wRingK { wJob 0x10 64 0 [9] with taken := true }) (wQc 2 + 2 ^ 384) { jobs := [{ id := 1, op := 1, total := 64, sent := 64, started := true, endSeq := some 1 }], out := [{ seq := 0, job := 1, op := 1, off := 0, len := 64, first := true, last := true }] } { op := 7, seq := 0, ext := ackExt 0 0x10 0 }

def kraRequestersWork_75_s : State :=
  wRx (wStart wRingK { wJob 0x10 64 0 [9] with taken := true }) (wQc 2 + 2 ^ 384) { jobs := [{ id := 1, op := 1, total := 64, sent := 64, started := true, endSeq := some 1 }], out := [{ seq := 0, job := 1, op := 1, off := 0, len := 64, first := true, last := true }] } { op := 7, seq := 0, ext := ackExt 0 1 0 }

def kraRequestersWork_76_s : State :=
  wRx (wStart wRingK { wJob 0x10 64 0 [9] with taken := true }) (wQc 2 + 2 ^ 384) { jobs := [{ id := 1, op := 1, total := 64, sent := 64, started := true, endSeq := some 1 }], out := [{ seq := 0, job := 1, op := 1, off := 0, len := 64, first := true, last := true }] } { op := 7, seq := 0, ext := ackExt 0 2 0 }

def kraRequestersWork_77_s : State :=
  wRx (wStart wRingK { wJob 0x10 64 0 [9] with taken := true }) (wQc 2 + 2 ^ 384 + 3 * 2 ^ 580) { jobs := [{ id := 1, op := 1, total := 64, sent := 64, started := true, endSeq := some 1 }], out := [{ seq := 0, job := 1, op := 1, off := 0, len := 64, first := true, last := true }] } { op := 7, seq := 0, ext := ackExt 0 2 0 }

/-- Work requests, packets sent, acknowledgements and retries: clauses 0, 1, 2, 3, 4, 5, 6, 7, 8, 9. -/
theorem witness_KraRequestersWork_a :
    (∃ (s : State), ∃ (k : Nat), ∃ (q : Nat), s.slicesUp = true ∧ s.jobFor k q 16 = none) ∧
    (∃ (s : State), ∃ (k : Nat), ∃ (q : Nat), s.slicesUp = true ∧ ∃ (j : RJob), s.jobFor k q 16 = some j ∧ s.nextRequest k q j = false) ∧
    (∃ (s : State), ∃ (k : Nat), ∃ (q : Nat), s.slicesUp = true ∧ ∃ (j : RJob), s.jobFor k q 16 = some j ∧ s.nextRequest k q j = true ∧ ((s.qpx j.kraQp).live = false ∨ (s.qpx j.kraQp).inst ≠ s.srInst k q ∨ (s.qpx j.kraQp).slice ≠ k)) ∧
    (∃ (s : State), ∃ (k : Nat), ∃ (q : Nat), s.slicesUp = true ∧ ∃ (j : RJob), s.jobFor k q 16 = some j ∧ s.nextRequest k q j = true ∧ (s.qpx j.kraQp).live = true ∧ (s.qpx j.kraQp).inst = s.srInst k q ∧ (s.qpx j.kraQp).slice = k ∧ s.qpCtx k j.kraQp = none ∧ s.kra.fetch.contains (k, j.kraQp) = true) ∧
    (∃ (s : State), ∃ (k : Nat), ∃ (q : Nat), s.slicesUp = true ∧ ∃ (j : RJob), s.jobFor k q 16 = some j ∧ s.nextRequest k q j = true ∧ (s.qpx j.kraQp).live = true ∧ (s.qpx j.kraQp).inst = s.srInst k q ∧ (s.qpx j.kraQp).slice = k ∧ s.qpCtx k j.kraQp = none ∧ s.kra.fetch.contains (k, j.kraQp) = false) ∧
    (∃ (s : State), ∃ (k : Nat), ∃ (q : Nat), s.slicesUp = true ∧ ∃ (j : RJob), s.jobFor k q 16 = some j ∧ s.nextRequest k q j = true ∧ (s.qpx j.kraQp).live = true ∧ (s.qpx j.kraQp).inst = s.srInst k q ∧ (s.qpx j.kraQp).slice = k ∧ ∃ (c : Nat), s.qpCtx k j.kraQp = some c ∧ cxSendSr c ≠ q) ∧
    (∃ (s : State), ∃ (k : Nat), ∃ (q : Nat), s.slicesUp = true ∧ ∃ (j : RJob), s.jobFor k q 16 = some j ∧ s.nextRequest k q j = true ∧ (s.qpx j.kraQp).live = true ∧ (s.qpx j.kraQp).inst = s.srInst k q ∧ (s.qpx j.kraQp).slice = k ∧ 2 ^ 31 ≤ j.total ∧ ∃ (c : Nat), s.qpCtx k j.kraQp = some c ∧ cxSendSr c = q) ∧
    (∃ (s : State), ∃ (k : Nat), ∃ (q : Nat), s.slicesUp = true ∧ ∃ (j : RJob), s.jobFor k q 16 = some j ∧ s.nextRequest k q j = true ∧ (s.qpx j.kraQp).live = true ∧ (s.qpx j.kraQp).inst = s.srInst k q ∧ (s.qpx j.kraQp).slice = k ∧ j.total < 2 ^ 31 ∧ ∃ (c : Nat), s.qpCtx k j.kraQp = some c ∧ cxSendSr c = q ∧ (cxState c = qpDrain ∨ cxState c = qpErr)) ∧
    (∃ (s : State), ∃ (k : Nat), ∃ (q : Nat), s.slicesUp = true ∧ ∃ (j : RJob), s.jobFor k q 16 = some j ∧ s.nextRequest k q j = true ∧ (s.qpx j.kraQp).live = true ∧ (s.qpx j.kraQp).inst = s.srInst k q ∧ (s.qpx j.kraQp).slice = k ∧ j.total < 2 ^ 31 ∧ ∃ (c : Nat), s.qpCtx k j.kraQp = some c ∧ cxSendSr c = q ∧ cxState c ≠ qpDrain ∧ cxState c ≠ qpErr ∧ ∃ (s1 : State), s.catRequest (cxHandle c) j.total = (s1, false) ∧ True) ∧
    (∃ (s : State), ∃ (k : Nat), ∃ (q : Nat), s.slicesUp = true ∧ ∃ (j : RJob), s.jobFor k q 16 = some j ∧ s.nextRequest k q j = true ∧ (s.qpx j.kraQp).live = true ∧ (s.qpx j.kraQp).inst = s.srInst k q ∧ (s.qpx j.kraQp).slice = k ∧ j.total < 2 ^ 31 ∧ ∃ (c : Nat), s.qpCtx k j.kraQp = some c ∧ cxSendSr c = q ∧ cxState c ≠ qpDrain ∧ cxState c ≠ qpErr ∧ ∃ (s1 : State), s.catRequest (cxHandle c) j.total = (s1, true) ∧ True) :=
  ⟨⟨wRj (wJob 0x10 64 0 [9]), 0, 1, by decide +kernel⟩,
   ⟨kraRequestersWork_1_s, 0, 0, chk (dA inferInstance (dSome fun _ => inferInstance)) (by decide +kernel)⟩,
   ⟨wRj (wJob 0x10 64 0 [9]), 0, 0, chk (dA inferInstance (dSome fun _ => inferInstance)) (by decide +kernel)⟩,
   ⟨kraRequestersWork_3_s, 0, 0, chk (dA inferInstance (dSome fun _ => inferInstance)) (by decide +kernel)⟩,
   ⟨kraRequestersWork_4_s, 0, 0, chk (dA inferInstance (dSome fun _ => inferInstance)) (by decide +kernel)⟩,
   ⟨kraRequestersWork_5_s, 0, 0, chk (dA inferInstance (dSome fun _ => (dA inferInstance (dA inferInstance (dA inferInstance (dA inferInstance (dSome fun _ => inferInstance))))))) (by decide +kernel)⟩,
   ⟨kraRequestersWork_6_s, 0, 0, chk (dA inferInstance (dSome fun _ => (dA inferInstance (dA inferInstance (dA inferInstance (dA inferInstance (dA inferInstance (dSome fun _ => inferInstance)))))))) (by decide +kernel)⟩,
   ⟨kraRequestersWork_7_s, 0, 0, chk (dA inferInstance (dSome fun _ => (dA inferInstance (dA inferInstance (dA inferInstance (dA inferInstance (dA inferInstance (dSome fun _ => inferInstance)))))))) (by decide +kernel)⟩,
   ⟨kraRequestersWork_8_s, 0, 0, chk (dA inferInstance (dSome fun _ => (dA inferInstance (dA inferInstance (dA inferInstance (dA inferInstance (dA inferInstance (dSome fun _ => (dA inferInstance (dA inferInstance (dA inferInstance (dPC fun _ => inferInstance)))))))))))) (by decide +kernel)⟩,
   ⟨kraRequestersWork_9_s, 0, 0, chk (dA inferInstance (dSome fun _ => (dA inferInstance (dA inferInstance (dA inferInstance (dA inferInstance (dA inferInstance (dSome fun _ => (dA inferInstance (dA inferInstance (dA inferInstance (dPC fun _ => inferInstance)))))))))))) (by decide +kernel)⟩⟩

/-- Work requests, packets sent, acknowledgements and retries: clauses 10, 11, 12, 13, 14, 15, 16, 17, 18, 19. -/
theorem witness_KraRequestersWork_b :
    (∃ (s : State), ∃ (k : Nat), ∃ (q : Nat), s.slicesUp = true ∧ s.jobFor k q 17 = none) ∧
    (∃ (s : State), ∃ (k : Nat), ∃ (q : Nat), s.slicesUp = true ∧ ∃ (j : RJob), s.jobFor k q 17 = some j ∧ s.nextRequest k q j = false) ∧
    (∃ (s : State), ∃ (k : Nat), ∃ (q : Nat), s.slicesUp = true ∧ ∃ (j : RJob), s.jobFor k q 17 = some j ∧ s.nextRequest k q j = true ∧ ((s.qpx j.kraQp).live = false ∨ (s.qpx j.kraQp).inst ≠ s.srInst k q ∨ (s.qpx j.kraQp).slice ≠ k)) ∧
    (∃ (s : State), ∃ (k : Nat), ∃ (q : Nat), s.slicesUp = true ∧ ∃ (j : RJob), s.jobFor k q 17 = some j ∧ s.nextRequest k q j = true ∧ (s.qpx j.kraQp).live = true ∧ (s.qpx j.kraQp).inst = s.srInst k q ∧ (s.qpx j.kraQp).slice = k ∧ s.qpCtx k j.kraQp = none ∧ s.kra.fetch.contains (k, j.kraQp) = true) ∧
    (∃ (s : State), ∃ (k : Nat), ∃ (q : Nat), s.slicesUp = true ∧ ∃ (j : RJob), s.jobFor k q 17 = some j ∧ s.nextRequest k q j = true ∧ (s.qpx j.kraQp).live = true ∧ (s.qpx j.kraQp).inst = s.srInst k q ∧ (s.qpx j.kraQp).slice = k ∧ s.qpCtx k j.kraQp = none ∧ s.kra.fetch.contains (k, j.kraQp) = false) ∧
    (∃ (s : State), ∃ (k : Nat), ∃ (q : Nat), s.slicesUp = true ∧ ∃ (j : RJob), s.jobFor k q 17 = some j ∧ s.nextRequest k q j = true ∧ (s.qpx j.kraQp).live = true ∧ (s.qpx j.kraQp).inst = s.srInst k q ∧ (s.qpx j.kraQp).slice = k ∧ ∃ (c : Nat), s.qpCtx k j.kraQp = some c ∧ cxSendSr c ≠ q) ∧
    (∃ (s : State), ∃ (k : Nat), ∃ (q : Nat), s.slicesUp = true ∧ ∃ (j : RJob), s.jobFor k q 17 = some j ∧ s.nextRequest k q j = true ∧ (s.qpx j.kraQp).live = true ∧ (s.qpx j.kraQp).inst = s.srInst k q ∧ (s.qpx j.kraQp).slice = k ∧ 2 ^ 31 ≤ j.total ∧ ∃ (c : Nat), s.qpCtx k j.kraQp = some c ∧ cxSendSr c = q) ∧
    (∃ (s : State), ∃ (k : Nat), ∃ (q : Nat), s.slicesUp = true ∧ ∃ (j : RJob), s.jobFor k q 17 = some j ∧ s.nextRequest k q j = true ∧ (s.qpx j.kraQp).live = true ∧ (s.qpx j.kraQp).inst = s.srInst k q ∧ (s.qpx j.kraQp).slice = k ∧ j.total < 2 ^ 31 ∧ ∃ (c : Nat), s.qpCtx k j.kraQp = some c ∧ cxSendSr c = q ∧ (cxState c = qpDrain ∨ cxState c = qpErr)) ∧
    (∃ (s : State), ∃ (k : Nat), ∃ (q : Nat), s.slicesUp = true ∧ ∃ (j : RJob), s.jobFor k q 17 = some j ∧ s.nextRequest k q j = true ∧ (s.qpx j.kraQp).live = true ∧ (s.qpx j.kraQp).inst = s.srInst k q ∧ (s.qpx j.kraQp).slice = k ∧ j.total < 2 ^ 31 ∧ ∃ (c : Nat), s.qpCtx k j.kraQp = some c ∧ cxSendSr c = q ∧ cxState c ≠ qpDrain ∧ cxState c ≠ qpErr ∧ ∃ (s1 : State), s.catRequest (cxHandle c) j.total = (s1, false) ∧ True) ∧
    (∃ (s : State), ∃ (k : Nat), ∃ (q : Nat), s.slicesUp = true ∧ ∃ (j : RJob), s.jobFor k q 17 = some j ∧ s.nextRequest k q j = true ∧ (s.qpx j.kraQp).live = true ∧ (s.qpx j.kraQp).inst = s.srInst k q ∧ (s.qpx j.kraQp).slice = k ∧ j.total < 2 ^ 31 ∧ ∃ (c : Nat), s.qpCtx k j.kraQp = some c ∧ cxSendSr c = q ∧ cxState c ≠ qpDrain ∧ cxState c ≠ qpErr ∧ ∃ (s1 : State), s.catRequest (cxHandle c) j.total = (s1, true) ∧ True) :=
  ⟨⟨wRj (wJob 0x10 64 0 [9]), 0, 0, by decide +kernel⟩,
   ⟨kraRequestersWork_11_s, 0, 0, chk (dA inferInstance (dSome fun _ => inferInstance)) (by decide +kernel)⟩,
   ⟨wRj (wJob 0x11 64 0 [9]), 0, 0, chk (dA inferInstance (dSome fun _ => inferInstance)) (by decide +kernel)⟩,
   ⟨kraRequestersWork_13_s, 0, 0, chk (dA inferInstance (dSome fun _ => inferInstance)) (by decide +kernel)⟩,
   ⟨kraRequestersWork_14_s, 0, 0, chk (dA inferInstance (dSome fun _ => inferInstance)) (by decide +kernel)⟩,
   ⟨kraRequestersWork_15_s, 0, 0, chk (dA inferInstance (dSome fun _ => (dA inferInstance (dA inferInstance (dA inferInstance (dA inferInstance (dSome fun _ => inferInstance))))))) (by decide +kernel)⟩,
   ⟨kraRequestersWork_16_s, 0, 0, chk (dA inferInstance (dSome fun _ => (dA inferInstance (dA inferInstance (dA inferInstance (dA inferInstance (dA inferInstance (dSome fun _ => inferInstance)))))))) (by decide +kernel)⟩,
   ⟨kraRequestersWork_17_s, 0, 0, chk (dA inferInstance (dSome fun _ => (dA inferInstance (dA inferInstance (dA inferInstance (dA inferInstance (dA inferInstance (dSome fun _ => inferInstance)))))))) (by decide +kernel)⟩,
   ⟨kraRequestersWork_18_s, 0, 0, chk (dA inferInstance (dSome fun _ => (dA inferInstance (dA inferInstance (dA inferInstance (dA inferInstance (dA inferInstance (dSome fun _ => (dA inferInstance (dA inferInstance (dA inferInstance (dPC fun _ => inferInstance)))))))))))) (by decide +kernel)⟩,
   ⟨kraRequestersWork_19_s, 0, 0, chk (dA inferInstance (dSome fun _ => (dA inferInstance (dA inferInstance (dA inferInstance (dA inferInstance (dA inferInstance (dSome fun _ => (dA inferInstance (dA inferInstance (dA inferInstance (dPC fun _ => inferInstance)))))))))))) (by decide +kernel)⟩⟩

/-- Work requests, packets sent, acknowledgements and retries: clauses 20, 21, 22, 23, 24, 25, 26, 27, 28, 29. -/
theorem witness_KraRequestersWork_c :
    (∃ (s : State), ∃ (k : Nat), ∃ (q : Nat), s.slicesUp = true ∧ s.jobFor k q 18 = none) ∧
    (∃ (s : State), ∃ (k : Nat), ∃ (q : Nat), s.slicesUp = true ∧ ∃ (j : RJob), s.jobFor k q 18 = some j ∧ s.nextRequest k q j = false) ∧
    (∃ (s : State), ∃ (k : Nat), ∃ (q : Nat), s.slicesUp = true ∧ ∃ (j : RJob), s.jobFor k q 18 = some j ∧ s.nextRequest k q j = true ∧ ((s.qpx j.kraQp).live = false ∨ (s.qpx j.kraQp).inst ≠ s.srInst k q ∨ (s.qpx j.kraQp).slice ≠ k)) ∧
    (∃ (s : State), ∃ (k : Nat), ∃ (q : Nat), s.slicesUp = true ∧ ∃ (j : RJob), s.jobFor k q 18 = some j ∧ s.nextRequest k q j = true ∧ (s.qpx j.kraQp).live = true ∧ (s.qpx j.kraQp).inst = s.srInst k q ∧ (s.qpx j.kraQp).slice = k ∧ s.qpCtx k j.kraQp = none ∧ s.kra.fetch.contains (k, j.kraQp) = true) ∧
    (∃ (s : State), ∃ (k : Nat), ∃ (q : Nat), s.slicesUp = true ∧ ∃ (j : RJob), s.jobFor k q 18 = some j ∧ s.nextRequest k q j = true ∧ (s.qpx j.kraQp).live = true ∧ (s.qpx j.kraQp).inst = s.srInst k q ∧ (s.qpx j.kraQp).slice = k ∧ s.qpCtx k j.kraQp = none ∧ s.kra.fetch.contains (k, j.kraQp) = false) ∧
    (∃ (s : State), ∃ (k : Nat), ∃ (q : Nat), s.slicesUp = true ∧ ∃ (j : RJob), s.jobFor k q 18 = some j ∧ s.nextRequest k q j = true ∧ (s.qpx j.kraQp).live = true ∧ (s.qpx j.kraQp).inst = s.srInst k q ∧ (s.qpx j.kraQp).slice = k ∧ ∃ (c : Nat), s.qpCtx k j.kraQp = some c ∧ cxSendSr c ≠ q) ∧
    (∃ (s : State), ∃ (k : Nat), ∃ (q : Nat), s.slicesUp = true ∧ ∃ (j : RJob), s.jobFor k q 18 = some j ∧ s.nextRequest k q j = true ∧ (s.qpx j.kraQp).live = true ∧ (s.qpx j.kraQp).inst = s.srInst k q ∧ (s.qpx j.kraQp).slice = k ∧ 2 ^ 31 ≤ j.total ∧ ∃ (c : Nat), s.qpCtx k j.kraQp = some c ∧ cxSendSr c = q) ∧
    (∃ (s : State), ∃ (k : Nat), ∃ (q : Nat), s.slicesUp = true ∧ ∃ (j : RJob), s.jobFor k q 18 = some j ∧ s.nextRequest k q j = true ∧ (s.qpx j.kraQp).live = true ∧ (s.qpx j.kraQp).inst = s.srInst k q ∧ (s.qpx j.kraQp).slice = k ∧ j.total < 2 ^ 31 ∧ ∃ (c : Nat), s.qpCtx k j.kraQp = some c ∧ cxSendSr c = q ∧ (cxState c = qpDrain ∨ cxState c = qpErr)) ∧
    (∃ (s : State), ∃ (k : Nat), ∃ (q : Nat), s.slicesUp = true ∧ ∃ (j : RJob), s.jobFor k q 18 = some j ∧ s.nextRequest k q j = true ∧ (s.qpx j.kraQp).live = true ∧ (s.qpx j.kraQp).inst = s.srInst k q ∧ (s.qpx j.kraQp).slice = k ∧ j.total < 2 ^ 31 ∧ ∃ (c : Nat), s.qpCtx k j.kraQp = some c ∧ cxSendSr c = q ∧ cxState c ≠ qpDrain ∧ cxState c ≠ qpErr ∧ ∃ (s1 : State), s.catRequest (cxHandle c) j.total = (s1, false) ∧ True) ∧
    (∃ (s : State), ∃ (k : Nat), ∃ (q : Nat), s.slicesUp = true ∧ ∃ (j : RJob), s.jobFor k q 18 = some j ∧ s.nextRequest k q j = true ∧ (s.qpx j.kraQp).live = true ∧ (s.qpx j.kraQp).inst = s.srInst k q ∧ (s.qpx j.kraQp).slice = k ∧ j.total < 2 ^ 31 ∧ ∃ (c : Nat), s.qpCtx k j.kraQp = some c ∧ cxSendSr c = q ∧ cxState c ≠ qpDrain ∧ cxState c ≠ qpErr ∧ ∃ (s1 : State), s.catRequest (cxHandle c) j.total = (s1, true) ∧ True) :=
  ⟨⟨wRj (wJob 0x10 64 0 [9]), 0, 0, by decide +kernel⟩,
   ⟨kraRequestersWork_21_s, 0, 0, chk (dA inferInstance (dSome fun _ => inferInstance)) (by decide +kernel)⟩,
   ⟨wRj (wJob 0x12 64 0 [9]), 0, 0, chk (dA inferInstance (dSome fun _ => inferInstance)) (by decide +kernel)⟩,
   ⟨kraRequestersWork_23_s, 0, 0, chk (dA inferInstance (dSome fun _ => inferInstance)) (by decide +kernel)⟩,
   ⟨kraRequestersWork_24_s, 0, 0, chk (dA inferInstance (dSome fun _ => inferInstance)) (by decide +kernel)⟩,
   ⟨kraRequestersWork_25_s, 0, 0, chk (dA inferInstance (dSome fun _ => (dA inferInstance (dA inferInstance (dA inferInstance (dA inferInstance (dSome fun _ => inferInstance))))))) (by decide +kernel)⟩,
   ⟨kraRequestersWork_26_s, 0, 0, chk (dA inferInstance (dSome fun _ => (dA inferInstance (dA inferInstance (dA inferInstance (dA inferInstance (dA inferInstance (dSome fun _ => inferInstance)))))))) (by decide +kernel)⟩,
   ⟨kraRequestersWork_27_s, 0, 0, chk (dA inferInstance (dSome fun _ => (dA inferInstance (dA inferInstance (dA inferInstance (dA inferInstance (dA inferInstance (dSome fun _ => inferInstance)))))))) (by decide +kernel)⟩,
   ⟨kraRequestersWork_28_s, 0, 0, chk (dA inferInstance (dSome fun _ => (dA inferInstance (dA inferInstance (dA inferInstance (dA inferInstance (dA inferInstance (dSome fun _ => (dA inferInstance (dA inferInstance (dA inferInstance (dPC fun _ => inferInstance)))))))))))) (by decide +kernel)⟩,
   ⟨kraRequestersWork_29_s, 0, 0, chk (dA inferInstance (dSome fun _ => (dA inferInstance (dA inferInstance (dA inferInstance (dA inferInstance (dA inferInstance (dSome fun _ => (dA inferInstance (dA inferInstance (dA inferInstance (dPC fun _ => inferInstance)))))))))))) (by decide +kernel)⟩⟩

/-- Work requests, packets sent, acknowledgements and retries: clauses 30, 31, 32, 33, 34, 35, 36, 37, 38, 39. -/
theorem witness_KraRequestersWork_d :
    (∃ (s : State), ∃ (k : Nat), ∃ (q : Nat), s.slicesUp = true ∧ s.jobFor k q 19 = none) ∧
    (∃ (s : State), ∃ (k : Nat), ∃ (q : Nat), s.slicesUp = true ∧ ∃ (j : RJob), s.jobFor k q 19 = some j ∧ s.nextRequest k q j = false) ∧
    (∃ (s : State), ∃ (k : Nat), ∃ (q : Nat), s.slicesUp = true ∧ ∃ (j : RJob), s.jobFor k q 19 = some j ∧ s.nextRequest k q j = true ∧ ((s.qpx j.kraQp).live = false ∨ (s.qpx j.kraQp).inst ≠ s.srInst k q ∨ (s.qpx j.kraQp).slice ≠ k)) ∧
    (∃ (s : State), ∃ (k : Nat), ∃ (q : Nat), s.slicesUp = true ∧ ∃ (j : RJob), s.jobFor k q 19 = some j ∧ s.nextRequest k q j = true ∧ (s.qpx j.kraQp).live = true ∧ (s.qpx j.kraQp).inst = s.srInst k q ∧ (s.qpx j.kraQp).slice = k ∧ s.qpCtx k j.kraQp = none ∧ s.kra.fetch.contains (k, j.kraQp) = true) ∧
    (∃ (s : State), ∃ (k : Nat), ∃ (q : Nat), s.slicesUp = true ∧ ∃ (j : RJob), s.jobFor k q 19 = some j ∧ s.nextRequest k q j = true ∧ (s.qpx j.kraQp).live = true ∧ (s.qpx j.kraQp).inst = s.srInst k q ∧ (s.qpx j.kraQp).slice = k ∧ s.qpCtx k j.kraQp = none ∧ s.kra.fetch.contains (k, j.kraQp) = false) ∧
    (∃ (s : State), ∃ (k : Nat), ∃ (q : Nat), s.slicesUp = true ∧ ∃ (j : RJob), s.jobFor k q 19 = some j ∧ s.nextRequest k q j = true ∧ (s.qpx j.kraQp).live = true ∧ (s.qpx j.kraQp).inst = s.srInst k q ∧ (s.qpx j.kraQp).slice = k ∧ ∃ (c : Nat), s.qpCtx k j.kraQp = some c ∧ cxSendSr c ≠ q) ∧
    (∃ (s : State), ∃ (k : Nat), ∃ (q : Nat), s.slicesUp = true ∧ ∃ (j : RJob), s.jobFor k q 19 = some j ∧ s.nextRequest k q j = true ∧ (s.qpx j.kraQp).live = true ∧ (s.qpx j.kraQp).inst = s.srInst k q ∧ (s.qpx j.kraQp).slice = k ∧ 2 ^ 31 ≤ j.total ∧ ∃ (c : Nat), s.qpCtx k j.kraQp = some c ∧ cxSendSr c = q) ∧
    (∃ (s : State), ∃ (k : Nat), ∃ (q : Nat), s.slicesUp = true ∧ ∃ (j : RJob), s.jobFor k q 19 = some j ∧ s.nextRequest k q j = true ∧ (s.qpx j.kraQp).live = true ∧ (s.qpx j.kraQp).inst = s.srInst k q ∧ (s.qpx j.kraQp).slice = k ∧ j.total < 2 ^ 31 ∧ ∃ (c : Nat), s.qpCtx k j.kraQp = some c ∧ cxSendSr c = q ∧ (cxState c = qpDrain ∨ cxState c = qpErr)) ∧
    (∃ (s : State), ∃ (k : Nat), ∃ (q : Nat), s.slicesUp = true ∧ ∃ (j : RJob), s.jobFor k q 19 = some j ∧ s.nextRequest k q j = true ∧ (s.qpx j.kraQp).live = true ∧ (s.qpx j.kraQp).inst = s.srInst k q ∧ (s.qpx j.kraQp).slice = k ∧ j.total < 2 ^ 31 ∧ ∃ (c : Nat), s.qpCtx k j.kraQp = some c ∧ cxSendSr c = q ∧ cxState c ≠ qpDrain ∧ cxState c ≠ qpErr ∧ ∃ (s1 : State), s.catRequest (cxHandle c) j.total = (s1, false) ∧ True) ∧
    (∃ (s : State), ∃ (k : Nat), ∃ (q : Nat), s.slicesUp = true ∧ ∃ (j : RJob), s.jobFor k q 19 = some j ∧ s.nextRequest k q j = true ∧ (s.qpx j.kraQp).live = true ∧ (s.qpx j.kraQp).inst = s.srInst k q ∧ (s.qpx j.kraQp).slice = k ∧ j.total < 2 ^ 31 ∧ ∃ (c : Nat), s.qpCtx k j.kraQp = some c ∧ cxSendSr c = q ∧ cxState c ≠ qpDrain ∧ cxState c ≠ qpErr ∧ ∃ (s1 : State), s.catRequest (cxHandle c) j.total = (s1, true) ∧ True) :=
  ⟨⟨wRj (wJob 0x10 64 0 [9]), 0, 0, by decide +kernel⟩,
   ⟨kraRequestersWork_31_s, 0, 0, chk (dA inferInstance (dSome fun _ => inferInstance)) (by decide +kernel)⟩,
   ⟨wRj (wJob 0x13 64 0 [9]), 0, 0, chk (dA inferInstance (dSome fun _ => inferInstance)) (by decide +kernel)⟩,
   ⟨kraRequestersWork_33_s, 0, 0, chk (dA inferInstance (dSome fun _ => inferInstance)) (by decide +kernel)⟩,
   ⟨kraRequestersWork_34_s, 0, 0, chk (dA inferInstance (dSome fun _ => inferInstance)) (by decide +kernel)⟩,
   ⟨kraRequestersWork_35_s, 0, 0, chk (dA inferInstance (dSome fun _ => (dA inferInstance (dA inferInstance (dA inferInstance (dA inferInstance (dSome fun _ => inferInstance))))))) (by decide +kernel)⟩,
   ⟨kraRequestersWork_36_s, 0, 0, chk (dA inferInstance (dSome fun _ => (dA inferInstance (dA inferInstance (dA inferInstance (dA inferInstance (dA inferInstance (dSome fun _ => inferInstance)))))))) (by decide +kernel)⟩,
   ⟨kraRequestersWork_37_s, 0, 0, chk (dA inferInstance (dSome fun _ => (dA inferInstance (dA inferInstance (dA inferInstance (dA inferInstance (dA inferInstance (dSome fun _ => inferInstance)))))))) (by decide +kernel)⟩,
   ⟨kraRequestersWork_38_s, 0, 0, chk (dA inferInstance (dSome fun _ => (dA inferInstance (dA inferInstance (dA inferInstance (dA inferInstance (dA inferInstance (dSome fun _ => (dA inferInstance (dA inferInstance (dA inferInstance (dPC fun _ => inferInstance)))))))))))) (by decide +kernel)⟩,
   ⟨kraRequestersWork_39_s, 0, 0, chk (dA inferInstance (dSome fun _ => (dA inferInstance (dA inferInstance (dA inferInstance (dA inferInstance (dA inferInstance (dSome fun _ => (dA inferInstance (dA inferInstance (dA inferInstance (dPC fun _ => inferInstance)))))))))))) (by decide +kernel)⟩⟩

/-- Work requests, packets sent, acknowledgements and retries: clauses 43, 44, 45, 46, 47, 48, 49, 50, 51, 52. -/
theorem witness_KraRequestersWork_e :
    (∃ (s : State), ∃ (h : Nat), ∃ (n : Nat), s.catPoisoned h = true) ∧
    (∃ (s : State), ∃ (h : Nat), ∃ (n : Nat), s.catPoisoned h = true) ∧
    (∃ (s : State), ∃ (h : Nat), ∃ (n : Nat), s.catPoisoned h = true) ∧
    (∃ (s : State), ∃ (h : Nat), ∃ (n : Nat), s.catPoisoned h = true) ∧
    (∃ (s : State), ∃ (h : Nat), ∃ (n : Nat), s.catPoisoned h = false ∧ bitOf (s.catEntry h) 0 = false) ∧
    (∃ (s : State), ∃ (h : Nat), ∃ (n : Nat), s.catPoisoned h = false ∧ bitOf (s.catEntry h) 0 = false) ∧
    (∃ (s : State), ∃ (h : Nat), ∃ (n : Nat), s.catPoisoned h = false ∧ bitOf (s.catEntry h) 0 = false) ∧
    (∃ (s : State), ∃ (h : Nat), ∃ (n : Nat), s.catPoisoned h = false ∧ bitOf (s.catEntry h) 0 = true) ∧
    (∃ (s : State), ∃ (h : Nat), ∃ (n : Nat), s.catPoisoned h = false ∧ bitOf (s.catEntry h) 0 = true) ∧
    (∃ (s : State), ∃ (k : Nat), ∃ (q : Nat), s.slicesUp = true ∧ s.jobFor k q 20 = none) :=
  ⟨(by refine ⟨{ wUp with poisoned := [(1, 40), (1, 80), (1, 160), (1, 320)] }, 5, 64, ?_⟩; decide +kernel),
   (by refine ⟨{ wUp with poisoned := [(1, 40), (1, 80), (1, 160), (1, 320)] }, 5, 64, ?_⟩; decide +kernel),
   (by refine ⟨{ wUp with poisoned := [(1, 40), (1, 80), (1, 160), (1, 320)] }, 5, 64, ?_⟩; decide +kernel),
   (by refine ⟨{ wUp with poisoned := [(1, 40), (1, 80), (1, 160), (1, 320)] }, 5, 64, ?_⟩; decide +kernel),
   ⟨wRj (wJob 0x10 64 0 [9]), 5, 1, by decide +kernel⟩,
   ⟨wRj (wJob 0x10 64 0 [9]), 5, 1, by decide +kernel⟩,
   ⟨wRj (wJob 0x10 64 0 [9]), 5, 1, by decide +kernel⟩,
   ⟨wCat 1, 5, 64, by decide +kernel⟩,
   ⟨wCat 1, 5, 64, by decide +kernel⟩,
   ⟨wRj (wJob 0x10 64 0 [9]), 0, 0, by decide +kernel⟩⟩

/-- Work requests, packets sent, acknowledgements and retries: clauses 53, 54, 55, 56, 59, 61, 63, 64, 66, 67. -/
theorem witness_KraRequestersWork_f :
    (∃ (s : State), ∃ (k : Nat), ∃ (q : Nat), s.slicesUp = true ∧ ∃ (j : RJob), s.jobFor k q 20 = some j ∧ j.slice = k ∧ j.ring = q) ∧
    (∃ (s : State), ∃ (k : Nat), ∃ (qp : Nat), s.slicesUp = true ∧ ((s.qpx qp).live = false ∨ (s.qpx qp).slice ≠ k)) ∧
    (∃ (s : State), ∃ (qp : Nat), s.slicesUp = true ∧ (s.qpx qp).live = true ∧ ∃ (k : Nat), (s.qpx qp).slice = k ∧ s.qpCtx k qp = none ∧ s.kra.fetch.contains (k, qp) = false) ∧
    (∃ (s : State), ∃ (qp : Nat), s.slicesUp = true ∧ (s.qpx qp).live = true ∧ ∃ (k : Nat), (s.qpx qp).slice = k ∧ ∃ (c : Nat), s.qpCtx k qp = some c ∧ ∃ (s1 : State), s.needKey k (kraOp qp) (cxSlot c) (kraLabel c) = (s1, KeyRes.wait) ∧ True) ∧
    (∃ (s : State), ∃ (qp : Nat), s.slicesUp = true ∧ (s.qpx qp).live = true ∧ ∃ (k : Nat), (s.qpx qp).slice = k ∧ ∃ (c : Nat), s.qpCtx k qp = some c ∧ ∃ (s1 : State), ∃ (key : List Byte), s.needKey k (kraOp qp) (cxSlot c) (kraLabel c) = (s1, KeyRes.ready key) ∧ s1.cipherWaits k = true) ∧
    (∃ (s : State), ∃ (qp : Nat), s.slicesUp = true ∧ (s.qpx qp).live = true ∧ (s.qpx qp).ctl = [] ∧ (s.qpx qp).rnr = true ∧ ∃ (k : Nat), (s.qpx qp).slice = k ∧ ∃ (c : Nat), s.qpCtx k qp = some c ∧ ∃ (s1 : State), ∃ (key : List Byte), s.needKey k (kraOp qp) (cxSlot c) (kraLabel c) = (s1, KeyRes.ready key) ∧ s1.cipherWaits k = false ∧ ∃ (n : Nat), (s.qpx qp).resend = some n ∧ True) ∧
    (∃ (s : State), ∃ (qp : Nat), s.slicesUp = true ∧ (s.qpx qp).live = true ∧ (s.qpx qp).ctl = [] ∧ (s.qpx qp).resend = none ∧ ∃ (k : Nat), (s.qpx qp).slice = k ∧ ∃ (c : Nat), s.qpCtx k qp = some c ∧ ∃ (s1 : State), ∃ (key : List Byte), s.needKey k (kraOp qp) (cxSlot c) (kraLabel c) = (s1, KeyRes.ready key) ∧ s1.cipherWaits k = false ∧ (s1.incFld (F.KRA_CTX_HITS k)).nextPacket k qp c = none) ∧
    (∃ (s : State), ∃ (qp : Nat), s.slicesUp = true ∧ (s.qpx qp).live = true ∧ (s.qpx qp).ctl = [] ∧ (s.qpx qp).resend = none ∧ ∃ (k : Nat), (s.qpx qp).slice = k ∧ ∃ (c : Nat), s.qpCtx k qp = some c ∧ ∃ (s1 : State), ∃ (key : List Byte), s.needKey k (kraOp qp) (cxSlot c) (kraLabel c) = (s1, KeyRes.ready key) ∧ s1.cipherWaits k = false ∧ ∃ (j : KraJob), ∃ (o : KraOut), (s1.incFld (F.KRA_CTX_HITS k)).nextPacket k qp c = some (j, o) ∧ ∃ (r : RJob), (s1.incFld (F.KRA_CTX_HITS k)).jobById k (cxSendSr c) j.id = some r ∧ ∃ (s3 : State), (s1.incFld (F.KRA_CTX_HITS k)).getTag k (cxInst c) ((s1.incFld (F.KRA_CTX_HITS k)).deadlineOf (cxClass c) r.begun) (kraOp qp) = (s3, false) ∧ True) ∧
    (∃ (s : State), ∃ (s1 : State), ∃ (n : Nat), s.slicesUp = true ∧ s.frame? n = none) ∧
    (∃ (s : State), ∃ (s1 : State), ∃ (n : Nat), s.slicesUp = true ∧ s.frame? n = none) :=
  ⟨⟨wRj (wJob 0x14 64 0), 0, 0, chk (dA inferInstance (dSome fun _ => inferInstance)) (by decide +kernel)⟩,
   ⟨wRj (wJob 0x10 64 0 [9]), 0, 9, by decide +kernel⟩,
   ⟨kraRequestersWork_55_s, 9, chk (dA inferInstance (dA inferInstance (dVar fun _ => inferInstance))) (by decide +kernel)⟩,
   ⟨kraRequestersWork_56_s, 9, chk (dA inferInstance (dA inferInstance (dVar fun _ => (dSome fun _ => (dPC fun _ => inferInstance))))) (by decide +kernel)⟩,
   ⟨kraRequestersWork_59_s, 9, chk (dA inferInstance (dA inferInstance (dVar fun _ => (dSome fun _ => (dPR fun _ _ => inferInstance))))) (by decide +kernel)⟩,
   ⟨kraRequestersWork_61_s, 9, chk (dA inferInstance (dA inferInstance (dA inferInstance (dA inferInstance (dVar fun _ => (dSome fun _ => (dPR fun _ _ => (dA inferInstance (dSome fun _ => inferInstance))))))))) (by decide +kernel)⟩,
   ⟨kraRequestersWork_63_s, 9, chk (dA inferInstance (dA inferInstance (dA inferInstance (dA inferInstance (dVar fun _ => (dSome fun _ => (dPR fun _ _ => inferInstance))))))) (by decide +kernel)⟩,
   ⟨kraRequestersWork_64_s, 9, chk (dA inferInstance (dA inferInstance (dA inferInstance (dA inferInstance (dVar fun _ => (dSome fun _ => (dPR fun _ _ => (dA inferInstance (dSome2 fun _ _ => (dSome fun _ => (dPC fun _ => inferInstance))))))))))) (by decide +kernel)⟩,
   ⟨wRj (wJob 0x10 64 0 [9]), wUp, 1, by decide +kernel⟩,
   ⟨wRj (wJob 0x10 64 0 [9]), wUp, 1, by decide +kernel⟩⟩

/-- Work requests, packets sent, acknowledgements and retries: clauses 68, 69, 70, 71, 72, 73, 74, 75, 76, 77. -/
theorem witness_KraRequestersWork_g :
    (∃ (s : State), ∃ (n : Nat), s.slicesUp = true ∧ ∃ (s1 : State), s.kraReceive n 6 = (s1, none) ∧ True) ∧
    (∃ (s : State), ∃ (n : Nat), s.slicesUp = true ∧ ∃ (s1 : State), s.kraReceive n 7 = (s1, none) ∧ True) ∧
    (∃ (s : State), ∃ (n : Nat), s.slicesUp = true ∧ ∃ (s1 : State), ∃ (r : KraRx), s.kraReceive n 6 = (s1, some r) ∧ s1.qpCtx r.k r.qp = some r.c ∧ cxState r.c = qpErr) ∧
    (∃ (s : State), ∃ (n : Nat), s.slicesUp = true ∧ ∃ (s1 : State), ∃ (r : KraRx), s.kraReceive n 6 = (s1, some r) ∧ s1.qpCtx r.k r.qp = some r.c ∧ cxState r.c ≠ qpErr ∧ (seqLt (leAt r.ext 0 4) (seqAdd (cxSeqUnacked r.c) (2 ^ 32 - 1)) = true ∨ seqLt (leAt r.ext 0 4) (cxSeqNext r.c) = false)) ∧
    (∃ (s : State), ∃ (n : Nat), s.slicesUp = true ∧ ∃ (s1 : State), ∃ (r : KraRx), s.kraReceive n 6 = (s1, some r) ∧ s1.qpCtx r.k r.qp = some r.c ∧ cxState r.c ≠ qpErr ∧ seqLt (leAt r.ext 0 4) (seqAdd (cxSeqUnacked r.c) (2 ^ 32 - 1)) = false ∧ seqLt (leAt r.ext 0 4) (cxSeqNext r.c) = true ∧ seqLt (s1.qpx r.qp).ackNext (seqAdd (leAt r.ext 0 4) 1) = false) ∧
    (∃ (s : State), ∃ (n : Nat), s.slicesUp = true ∧ ∃ (s1 : State), ∃ (r : KraRx), s.kraReceive n 6 = (s1, some r) ∧ s1.qpCtx r.k r.qp = some r.c ∧ cxState r.c ≠ qpErr ∧ seqLt (leAt r.ext 0 4) (seqAdd (cxSeqUnacked r.c) (2 ^ 32 - 1)) = false ∧ seqLt (leAt r.ext 0 4) (cxSeqNext r.c) = true ∧ (s1.qpx r.qp).reads = [] ∧ seqLt (s1.qpx r.qp).ackNext (seqAdd (leAt r.ext 0 4) 1) = true ∧ seqLt (cxSeqUnacked r.c) (seqAdd (leAt r.ext 0 4) 1) = true ∧ ∃ (j : KraJob), (s1.qpx r.qp).jobs = [j] ∧ ∃ (e : Nat), j.endSeq = some e ∧ seqLt (seqAdd (leAt r.ext 0 4) 1) e = false ∧ ∃ (rj : RJob), s1.jobById r.k (cxSendSr r.c) j.id = some rj ∧ True) ∧
    (∃ (s : State), ∃ (n : Nat), s.slicesUp = true ∧ ∃ (s1 : State), ∃ (r : KraRx), s.kraReceive n 7 = (s1, some r) ∧ s1.qpCtx r.k r.qp = some r.c ∧ cxState r.c ≠ qpErr ∧ seqLt (leAt r.ext 0 4) (seqAdd (cxSeqUnacked r.c) (2 ^ 32 - 1)) = false ∧ seqLt (leAt r.ext 0 4) (cxSeqNext r.c) = true ∧ leAt r.ext 4 1 ≠ nakSeq ∧ leAt r.ext 4 1 ≠ nakRnr ∧ ∃ (o : KraOut), List.find? (fun (o : KraOut) => decide (o.seq = leAt r.ext 0 4)) (s1.qpx r.qp).out = some o ∧ True) ∧
    (∃ (s : State), ∃ (n : Nat), s.slicesUp = true ∧ ∃ (s1 : State), ∃ (r : KraRx), s.kraReceive n 7 = (s1, some r) ∧ s1.qpCtx r.k r.qp = some r.c ∧ cxState r.c ≠ qpErr ∧ seqLt (leAt r.ext 0 4) (seqAdd (cxSeqUnacked r.c) (2 ^ 32 - 1)) = false ∧ seqLt (leAt r.ext 0 4) (cxSeqNext r.c) = true ∧ leAt r.ext 4 1 = nakSeq ∧ seqLt (s1.qpx r.qp).ackNext (leAt r.ext 0 4) = false ∧ cxRetryCount r.c + 1 ≤ cxRetryLimit r.c) ∧
    (∃ (s : State), ∃ (n : Nat), s.slicesUp = true ∧ ∃ (s1 : State), ∃ (r : KraRx), s.kraReceive n 7 = (s1, some r) ∧ s1.qpCtx r.k r.qp = some r.c ∧ cxState r.c ≠ qpErr ∧ seqLt (leAt r.ext 0 4) (seqAdd (cxSeqUnacked r.c) (2 ^ 32 - 1)) = false ∧ seqLt (leAt r.ext 0 4) (cxSeqNext r.c) = true ∧ leAt r.ext 4 1 = nakRnr ∧ seqLt (s1.qpx r.qp).ackNext (leAt r.ext 0 4) = false ∧ (cxRnrCount r.c + 1 ≤ cxRnrLimit r.c ∨ cxRnrLimit r.c = 15)) ∧
    (∃ (s : State), ∃ (n : Nat), s.slicesUp = true ∧ ∃ (s1 : State), ∃ (r : KraRx), s.kraReceive n 7 = (s1, some r) ∧ s1.qpCtx r.k r.qp = some r.c ∧ cxState r.c ≠ qpErr ∧ seqLt (leAt r.ext 0 4) (seqAdd (cxSeqUnacked r.c) (2 ^ 32 - 1)) = false ∧ seqLt (leAt r.ext 0 4) (cxSeqNext r.c) = true ∧ leAt r.ext 4 1 = nakRnr ∧ seqLt (s1.qpx r.qp).ackNext (leAt r.ext 0 4) = false ∧ cxRnrLimit r.c < cxRnrCount r.c + 1 ∧ cxRnrLimit r.c ≠ 15 ∧ ∃ (o : KraOut), List.find? (fun (o : KraOut) => decide (o.seq = leAt r.ext 0 4)) (s1.qpx r.qp).out = some o ∧ True) :=
  ⟨⟨wRj (wJob 0x10 64 0 [9]), 1, chk (dA inferInstance (dPN fun _ => inferInstance)) (by decide +kernel)⟩,
   ⟨wRj (wJob 0x10 64 0 [9]), 1, chk (dA inferInstance (dPN fun _ => inferInstance)) (by decide +kernel)⟩,
   ⟨kraRequestersWork_70_s, 1, chk (dA inferInstance (dPS fun _ _ => inferInstance)) (by decide +kernel)⟩,
   ⟨kraRequestersWork_71_s, 1, chk (dA inferInstance (dPS fun _ _ => inferInstance)) (by decide +kernel)⟩,
   ⟨kraRequestersWork_72_s, 1, chk (dA inferInstance (dPS fun _ _ => inferInstance)) (by decide +kernel)⟩,
   ⟨kraRequestersWork_73_s, 1, chk (dA inferInstance (dPS fun _ _ => (dA inferInstance (dA inferInstance (dA inferInstance (dA inferInstance (dA inferInstance (dA inferInstance (dA inferInstance (dCC fun _ => (dSome fun _ => (dA inferInstance (dSome fun _ => inferInstance))))))))))))) (by decide +kernel)⟩,
   ⟨kraRequestersWork_74_s, 1, chk (dA inferInstance (dPS fun _ _ => (dA inferInstance (dA inferInstance (dA inferInstance (dA inferInstance (dA inferInstance (dA inferInstance (dSome fun _ => inferInstance))))))))) (by decide +kernel)⟩,
   ⟨kraRequestersWork_75_s, 1, chk (dA inferInstance (dPS fun _ _ => inferInstance)) (by decide +kernel)⟩,
   ⟨kraRequestersWork_76_s, 1, chk (dA inferInstance (dPS fun _ _ => inferInstance)) (by decide +kernel)⟩,
   ⟨kraRequestersWork_77_s, 1, chk (dA inferInstance (dPS fun _ _ => (dA inferInstance (dA inferInstance (dA inferInstance (dA inferInstance (dA inferInstance (dA inferInstance (dA inferInstance (dA inferInstance (dSome fun _ => inferInstance))))))))))) (by decide +kernel)⟩⟩

/-- Work requests, packets sent, acknowledgements and retries: clauses 78. -/
theorem witness_KraRequestersWork_h :
    ∃ (s : State), ∃ (k : Nat), ∃ (qp : Nat), s.slicesUp = true ∧ s.twFired k (TwConsumer.kraRetry qp) = false :=
  ⟨wRj (wJob 0x10 64 0 [9]), 0, 9, by decide +kernel⟩

def registrationsGuardMemory_2_s : State :=
  wRx (wRingK) (wQc 4) {} (wRq 1 0 49152 16 8)

def registrationsGuardMemory_4_s : State :=
  wRx wRingK (wQc 2) { nakSent := true } { op := 1, seq := 5, flags := 2 ^ 14 + 2 ^ 15, ext := List.replicate 16 0, payload := List.replicate 8 7 }

def registrationsGuardMemory_5_s : State :=
  wRx wRingK (wQc 2) {} { op := 1, seq := 0, flags := 2 ^ 14 + 2 ^ 15, ext := List.replicate 16 0, payload := List.replicate 8 7 }

def registrationsGuardMemory_8_s : State :=
  wRx (wRingK) (wQc 4) {} (wRq 2 0 16384 16 8)

def registrationsGuardMemory_10_s : State :=
  wRx wRingK (wQc 2) { nakSent := true } { op := 2, seq := 5, flags := 2 ^ 14, ext := List.replicate 16 0, payload := List.replicate 8 7 }

def registrationsGuardMemory_11_s : State :=
  wRx wRingK (wQc 2) {} { op := 2, seq := 0, flags := 2 ^ 14, ext := List.replicate 16 0, payload := List.replicate 8 7 }

def registrationsGuardMemory_14_s : State :=
  wRx (wRingK) (wQc 4) {} (wRq 4 0 49152 24 0)

def registrationsGuardMemory_15_s : State :=
  wRx (wRingK) (wQc 2) {} (wRq 4 0 49152 24 0)

def registrationsGuardMemory_16_s : State :=
  wRx wRingK (wQc 2) { nakSent := true } { op := 4, seq := 5, flags := 2 ^ 14 + 2 ^ 15, ext := List.replicate 24 0 }

def registrationsGuardMemory_17_s : State :=
  wRx wRingK (wQc 2) {} { op := 4, seq := 0, flags := 2 ^ 14 + 2 ^ 15, ext := List.replicate 24 1 }

def registrationsGuardMemory_18_s : State :=
  wRx (wRingK) (wQc 2 + 5 * 2 ^ 448) {} (wRq 1 0 49152 16 8)

def registrationsGuardMemory_19_s : State :=
  wRx (wRingK) (wQc 2 + 5 * 2 ^ 448) {} (wRq 2 0 16384 16 8)

def registrationsGuardMemory_20_s : State :=
  wRx (wRingK) (wQc 2 - 2 ^ 15) {} (wRq 2 0 49152 24 8)

def registrationsGuardMemory_21_s : State :=
  wRx (wRingK) (wQc 2) {} (wRq 2 0 49152 24 8)

def registrationsGuardMemory_27_s : State :=
  wRx (wRingK) (wQc 2 - 2 ^ 15) {} (wRq 3 0 49152 0 8)

def registrationsGuardMemory_28_s : State :=
  wRx (wRingK) (wQc 2) {} (wRq 3 0 49152 0 8)

def registrationsGuardMemory_29_s : State :=
  wRx (wAts (wRingK.setSrx 0 0 { posted := [1], started := [{ wJob 0x14 64 0 with taken := true }] }) 0) (wQc 2) {} (wRq 3 0 49152 0 8)

def registrationsGuardMemory_30_s : State :=
  wRx (wRingK.setSrx 0 0 { posted := [1], started := [{ wJob 0x14 4 0 with taken := true }] }) (wQc 2) {} (wRq 3 0 49152 0 8)

def registrationsGuardMemory_31_s : State :=
  wRx (wRingK.setSrx 0 0 { posted := [1], started := [{ wJob 0x14 64 0 with taken := true }] }) (wQc 2) {} { op := 3, seq := 0, flags := 2 ^ 14 + 2 ^ 15, payload := List.replicate 8 7 }

def registrationsGuardMemory_32_s : State :=
  wRx (wRingK) (wQc 4) {} (wRq 5 0 0 8 8)

def registrationsGuardMemory_33_s : State :=
  wRx wRingK (wQc 2) {} { op := 5, seq := 0, ext := List.replicate 8 0 }

def registrationsGuardMemory_34_s : State :=
  wRx (wStart wRingK { wJob 0x13 512 0 [9] with taken := true }) (wQc 2 + 2 ^ 384) { ackNext := 1, reads := [{ seq := 0, job := 1, base := 0, count := 2 }] } (wRq 5 5 0 8 8)

def registrationsGuardMemory_39_s : State :=
  wReg { state := 1, inflight := 16383 } [wAcc 1 0]

def registrationsGuardMemory_40_s : State :=
  { wReg { state := 1, inflight := 3 } [wAcc 1 0] with poisoned := [(0, regAddr 0 1)] }

def registrationsGuardMemory_41_s : State :=
  wReg { state := 1, inflight := 3 } [{ wAcc 1 0 with addr := 0x2000 }]

def registrationsGuardMemory_42_s : State :=
  wReg { state := 1, inflight := 3 } [wAcc 1 0]

def registrationsGuardMemory_44_s : State :=
  wReg { state := 1, inflight := 3 } [wAcc 1 1]

def registrationsGuardMemory_45_s : State :=
  wReg { state := 2, inflight := 3 } [wAcc 1 0]

def registrationsGuardMemory_46_s : State :=
  { wHostM (wReg { state := 1, inflight := 3 } [wAcc 4 3]) 0 with pcie.reads := [{ link := 0, tag := 5, fn := 0, slice := 0, addr := 2 ^ 30 + 0x100, len := 8, due := 100, discard := true }] }

def registrationsGuardMemory_47_s : State :=
  wReg { state := 1, inflight := 3 } [wAcc 4 3]

def registrationsGuardMemory_48_s : State :=
  wReg { state := 1, inflight := 3 } [{ wAcc 1 2 with flags := 1, seq := 1 }, { wAcc 1 2 with frame := 2 }]

def registrationsGuardMemory_49_s : State :=
  wReg { state := 1, inflight := 3 } [{ wAcc 2 2 with imm := some 5, seq := 1 }, { wAcc 2 2 with frame := 2 }]

def registrationsGuardMemory_50_s : State :=
  wReg { state := 1, inflight := 3 } [wAcc 1 2]

def registrationsGuardMemory_51_s : State :=
  wAts (wReg { state := 1, inflight := 3 } [wAcc 1 2]) 0

def registrationsGuardMemory_52_s : State :=
  wReg { state := 1, inflight := 3 } [wAcc 4 2]

def registrationsGuardMemory_55_s : State :=
  wRj (wJob 0x18 0 0x1000 [100])

def registrationsGuardMemory_56_s : State :=
  wF (wRj (wJob 0x18 0 0x1000 [100 + 3 * 2 ^ 40, 0])) [(F.INST_QUOTA_B_MR_MAX 0, 0)]

def registrationsGuardMemory_57_s : State :=
  wF (wRj (wJob 0x18 0 0x1000 [100 + 3 * 2 ^ 40, 0])) [(F.KRA_MR_ACTIVE 0, 262144), (F.INST_QUOTA_B_MR_MAX 0, 99)]

def registrationsGuardMemory_58_s : State :=
  wF (wRj (wJob 0x18 0 0x1000 [100 + 3 * 2 ^ 40, 0])) [(F.INST_QUOTA_B_MR_MAX 0, 99)]

def registrationsGuardMemory_59_s : State :=
  wRj (wJob 0x19 0 0 [0x1003])

def registrationsGuardMemory_60_s : State :=
  { (wStart (wReg { state := 1, inflight := 3 } []) (wJob 0x19 0 0 [0x1003])) with eth.frames := [] }

def registrationsGuardMemory_63_s : State :=
  { wStart (wReg { state := 2, inflight := 1 } []) { wJob 0x19 0 0 [0x1003] with taken := true } with kra.revokes := [{ key := 0x1003, job := some (0, 0, 1), since := 0 }] }

def registrationsGuardMemory_64_s : State :=
  { wStart (wReg { state := 2, inflight := 0 } []) { wJob 0x19 0 0 [0x1003] with taken := true } with kra.revokes := [{ key := 0x1003, job := some (0, 0, 1), since := 0, forced := true }] }

def registrationsGuardMemory_65_s : State :=
  { wStart (wReg { state := 2, inflight := 0 } []) { wJob 0x19 0 0 [0x1003] with taken := true } with kra.revokes := [{ key := 0x1003, job := some (0, 0, 1), since := 0 }] }

def registrationsGuardMemory_66_s : State :=
  { wStart (wReg { state := 2, inflight := 0 } []) { wJob 0x19 0 0 [0x1003] with taken := true } with kra.revokes := [{ key := 0x1003, job := some (0, 0, 1), since := 0 }] }

def registrationsGuardMemory_67_s : State :=
  { wStart (wReg { state := 2, inflight := 1 } []) { wJob 0x19 0 0 [0x1003] with taken := true } with kra.revokes := [{ key := 0x1003, job := some (0, 0, 1), since := 0 }], time.mono := 4000000000 }

/-- Requests are classified, checked under their registration, placed and retired: clauses 0, 1, 2, 4, 5, 6, 7, 8, 10, 11. -/
theorem witness_RegistrationsGuardMemory_a :
    (∃ (s : State), ∃ (n : Nat), s.slicesUp = true ∧ s.frame? n = none) ∧
    (∃ (s : State), ∃ (n : Nat), s.slicesUp = true ∧ ∃ (s1 : State), s.kraReceive n 1 = (s1, none) ∧ True) ∧
    (∃ (s : State), ∃ (n : Nat), s.slicesUp = true ∧ ∃ (s1 : State), ∃ (r : KraRx), s.kraReceive n 1 = (s1, some r) ∧ (cxState r.c = qpErr ∨ cxState r.c = qpInit ∨ s1.instRuns (cxInst r.c) = false)) ∧
    (∃ (s : State), ∃ (n : Nat), s.slicesUp = true ∧ ∃ (s1 : State), ∃ (r : KraRx), s.kraReceive n 1 = (s1, some r) ∧ cxState r.c = qpActive ∧ s1.instRuns (cxInst r.c) = true ∧ 0 < r.op ∧ r.op ≤ 7 ∧ seqLt (cxSeqExpected r.c) r.seq = true ∧ r.seq ≠ cxSeqExpected r.c ∧ (s1.qpx r.qp).nakSent = true ∧ (s1.eth.egress.any fun (e : Egress) => decide (e.frame = r.frame.id)) = false) ∧
    (∃ (s : State), ∃ (n : Nat), s.slicesUp = true ∧ ∃ (s1 : State), ∃ (r : KraRx), s.kraReceive n 1 = (s1, some r) ∧ r.invalid = none ∧ (r.op = 2 → r.flag flagLast = false) ∧ ∃ (s2 : State), ∃ (dup : Bool), s1.kraClassify r = (s2, some dup) ∧ True) ∧
    (∃ (s : State), ∃ (n : Nat), s.slicesUp = true ∧ s.frame? n = none) ∧
    (∃ (s : State), ∃ (n : Nat), s.slicesUp = true ∧ ∃ (s1 : State), s.kraReceive n 2 = (s1, none) ∧ True) ∧
    (∃ (s : State), ∃ (n : Nat), s.slicesUp = true ∧ ∃ (s1 : State), ∃ (r : KraRx), s.kraReceive n 2 = (s1, some r) ∧ (cxState r.c = qpErr ∨ cxState r.c = qpInit ∨ s1.instRuns (cxInst r.c) = false)) ∧
    (∃ (s : State), ∃ (n : Nat), s.slicesUp = true ∧ ∃ (s1 : State), ∃ (r : KraRx), s.kraReceive n 2 = (s1, some r) ∧ cxState r.c = qpActive ∧ s1.instRuns (cxInst r.c) = true ∧ 0 < r.op ∧ r.op ≤ 7 ∧ seqLt (cxSeqExpected r.c) r.seq = true ∧ r.seq ≠ cxSeqExpected r.c ∧ (s1.qpx r.qp).nakSent = true ∧ (s1.eth.egress.any fun (e : Egress) => decide (e.frame = r.frame.id)) = false) ∧
    (∃ (s : State), ∃ (n : Nat), s.slicesUp = true ∧ ∃ (s1 : State), ∃ (r : KraRx), s.kraReceive n 2 = (s1, some r) ∧ r.invalid = none ∧ (r.op = 2 → r.flag flagLast = false) ∧ ∃ (s2 : State), ∃ (dup : Bool), s1.kraClassify r = (s2, some dup) ∧ True) :=
  ⟨⟨wUp, 1, by decide +kernel⟩,
   ⟨wUp, 1, chk (dA inferInstance (dPN fun _ => inferInstance)) (by decide +kernel)⟩,
   ⟨registrationsGuardMemory_2_s, 1, chk (dA inferInstance (dPS fun _ _ => inferInstance)) (by decide +kernel)⟩,
   ⟨registrationsGuardMemory_4_s, 1, chk (dA inferInstance (dPS fun _ _ => inferInstance)) (by decide +kernel)⟩,
   ⟨registrationsGuardMemory_5_s, 1, chk (dA inferInstance (dPS fun _ _ => (dA inferInstance (dA inferInstance (dPS fun _ _ => inferInstance))))) (by decide +kernel)⟩,
   ⟨wUp, 1, by decide +kernel⟩,
   ⟨wUp, 1, chk (dA inferInstance (dPN fun _ => inferInstance)) (by decide +kernel)⟩,
   ⟨registrationsGuardMemory_8_s, 1, chk (dA inferInstance (dPS fun _ _ => inferInstance)) (by decide +kernel)⟩,
   ⟨registrationsGuardMemory_10_s, 1, chk (dA inferInstance (dPS fun _ _ => inferInstance)) (by decide +kernel)⟩,
   ⟨registrationsGuardMemory_11_s, 1, chk (dA inferInstance (dPS fun _ _ => (dA inferInstance (dA inferInstance (dPS fun _ _ => inferInstance))))) (by decide +kernel)⟩⟩

/-- Requests are classified, checked under their registration, placed and retired: clauses 12, 13, 14, 15, 16, 17, 18, 19, 20, 21. -/
theorem witness_RegistrationsGuardMemory_b :
    (∃ (s : State), ∃ (n : Nat), s.slicesUp = true ∧ s.frame? n = none) ∧
    (∃ (s : State), ∃ (n : Nat), s.slicesUp = true ∧ ∃ (s1 : State), s.kraReceive n 4 = (s1, none) ∧ True) ∧
    (∃ (s : State), ∃ (n : Nat), s.slicesUp = true ∧ ∃ (s1 : State), ∃ (r : KraRx), s.kraReceive n 4 = (s1, some r) ∧ (cxState r.c = qpErr ∨ cxState r.c = qpInit ∨ s1.instRuns (cxInst r.c) = false)) ∧
    (∃ (s : State), ∃ (n : Nat), s.slicesUp = true ∧ ∃ (s1 : State), ∃ (r : KraRx), s.kraReceive n 4 = (s1, some r) ∧ cxState r.c = qpActive ∧ s1.instRuns (cxInst r.c) = true ∧ r.seq = cxSeqExpected r.c ∧ ∃ (m : Nat), r.invalid = some m ∧ True) ∧
    (∃ (s : State), ∃ (n : Nat), s.slicesUp = true ∧ ∃ (s1 : State), ∃ (r : KraRx), s.kraReceive n 4 = (s1, some r) ∧ cxState r.c = qpActive ∧ s1.instRuns (cxInst r.c) = true ∧ 0 < r.op ∧ r.op ≤ 7 ∧ seqLt (cxSeqExpected r.c) r.seq = true ∧ r.seq ≠ cxSeqExpected r.c ∧ (s1.qpx r.qp).nakSent = true ∧ (s1.eth.egress.any fun (e : Egress) => decide (e.frame = r.frame.id)) = false) ∧
    (∃ (s : State), ∃ (n : Nat), s.slicesUp = true ∧ ∃ (s1 : State), ∃ (r : KraRx), s.kraReceive n 4 = (s1, some r) ∧ r.invalid = none ∧ (r.op = 2 → r.flag flagLast = false) ∧ ∃ (s2 : State), ∃ (dup : Bool), s1.kraClassify r = (s2, some dup) ∧ True) ∧
    (∃ (s : State), ∃ (n : Nat), s.slicesUp = true ∧ ∃ (s1 : State), ∃ (r : KraRx), s.kraReceive n 1 = (s1, some r) ∧ cxState r.c = qpActive ∧ s1.instRuns (cxInst r.c) = true ∧ (r.op = 1 ∨ r.op = 2) ∧ seqLt (cxSeqExpected r.c) r.seq = false ∧ r.seq ≠ cxSeqExpected r.c) ∧
    (∃ (s : State), ∃ (n : Nat), s.slicesUp = true ∧ ∃ (s1 : State), ∃ (r : KraRx), s.kraReceive n 2 = (s1, some r) ∧ cxState r.c = qpActive ∧ s1.instRuns (cxInst r.c) = true ∧ (r.op = 1 ∨ r.op = 2) ∧ seqLt (cxSeqExpected r.c) r.seq = false ∧ r.seq ≠ cxSeqExpected r.c) ∧
    (∃ (s : State), ∃ (n : Nat), s.slicesUp = true ∧ ∃ (s1 : State), ∃ (r : KraRx), s.kraReceive n 2 = (s1, some r) ∧ r.invalid = none ∧ r.flag flagLast = true ∧ ∃ (s2 : State), ∃ (dup : Bool), s1.kraClassify r = (s2, some dup) ∧ (cxRecvEn r.c = false ∨ s2.credit r.k (s2.recvCr r.k r.c) = false)) ∧
    (∃ (s : State), ∃ (n : Nat), s.slicesUp = true ∧ ∃ (s1 : State), ∃ (r : KraRx), s.kraReceive n 2 = (s1, some r) ∧ r.invalid = none ∧ r.flag flagLast = true ∧ cxRecvEn r.c = true ∧ ∃ (s2 : State), ∃ (dup : Bool), s1.kraClassify r = (s2, some dup) ∧ s2.credit r.k (s2.recvCr r.k r.c) = true) :=
  ⟨⟨wUp, 1, by decide +kernel⟩,
   ⟨wUp, 1, chk (dA inferInstance (dPN fun _ => inferInstance)) (by decide +kernel)⟩,
   ⟨registrationsGuardMemory_14_s, 1, chk (dA inferInstance (dPS fun _ _ => inferInstance)) (by decide +kernel)⟩,
   ⟨registrationsGuardMemory_15_s, 1, chk (dA inferInstance (dPS fun _ _ => (dA inferInstance (dA inferInstance (dA inferInstance (dSome fun _ => inferInstance)))))) (by decide +kernel)⟩,
   ⟨registrationsGuardMemory_16_s, 1, chk (dA inferInstance (dPS fun _ _ => inferInstance)) (by decide +kernel)⟩,
   ⟨registrationsGuardMemory_17_s, 1, chk (dA inferInstance (dPS fun _ _ => (dA inferInstance (dA inferInstance (dPS fun _ _ => inferInstance))))) (by decide +kernel)⟩,
   ⟨registrationsGuardMemory_18_s, 1, chk (dA inferInstance (dPS fun _ _ => inferInstance)) (by decide +kernel)⟩,
   ⟨registrationsGuardMemory_19_s, 1, chk (dA inferInstance (dPS fun _ _ => inferInstance)) (by decide +kernel)⟩,
   ⟨registrationsGuardMemory_20_s, 1, chk (dA inferInstance (dPS fun _ _ => (dA inferInstance (dA inferInstance (dPS fun _ _ => inferInstance))))) (by decide +kernel)⟩,
   ⟨registrationsGuardMemory_21_s, 1, chk (dA inferInstance (dPS fun _ _ => (dA inferInstance (dA inferInstance (dA inferInstance (dPS fun _ _ => inferInstance)))))) (by decide +kernel)⟩⟩

/-- Requests are classified, checked under their registration, placed and retired: clauses 22, 23, 24, 25, 27, 28, 29, 30, 31, 32. -/
theorem witness_RegistrationsGuardMemory_c :
    (∃ (s : State), ∃ (s1 : State), ∃ (n : Nat), s.slicesUp = true ∧ s.frame? n = none) ∧
    (∃ (s : State), ∃ (s1 : State), ∃ (n : Nat), s.slicesUp = true ∧ s.frame? n = none) ∧
    (∃ (s : State), ∃ (n : Nat), s.slicesUp = true ∧ ∃ (s1 : State), s.kraReceive n 3 = (s1, none) ∧ True) ∧
    (∃ (s : State), ∃ (n : Nat), s.slicesUp = true ∧ ∃ (s1 : State), s.kraReceive n 5 = (s1, none) ∧ True) ∧
    (∃ (s : State), ∃ (n : Nat), s.slicesUp = true ∧ ∃ (s1 : State), ∃ (r : KraRx), s.kraReceive n 3 = (s1, some r) ∧ r.flag flagOrdered = false ∧ r.invalid = none ∧ cxRecvEn r.c = false ∧ ∃ (s2 : State), ∃ (dup : Bool), s1.kraClassify r = (s2, some dup) ∧ True) ∧
    (∃ (s : State), ∃ (n : Nat), s.slicesUp = true ∧ ∃ (s1 : State), ∃ (r : KraRx), s.kraReceive n 3 = (s1, some r) ∧ r.flag flagOrdered = false ∧ r.invalid = none ∧ cxRecvEn r.c = true ∧ ∃ (s2 : State), ∃ (dup : Bool), s1.kraClassify r = (s2, some dup) ∧ ∃ (s3 : State), s2.sendBuffer r = (s3, none) ∧ True) ∧
    (∃ (s : State), ∃ (n : Nat), ∃ (w : List Byte), s.slicesUp = true ∧ ∃ (s1 : State), ∃ (r : KraRx), s.kraReceive n 3 = (s1, some r) ∧ r.flag flagOrdered = false ∧ r.invalid = none ∧ cxRecvEn r.c = true ∧ ∃ (s2 : State), ∃ (dup : Bool), s1.kraClassify r = (s2, some dup) ∧ ∃ (s3 : State), ∃ (j : RJob), ∃ (got : Nat), s2.sendBuffer r = (s3, some (j, got)) ∧ ∃ (s4 : State), s3.dmaScatter r.k (cxInst r.c) (have __src := s3.rxOp 3 r; { unit := __src.unit, deadline := __src.deadline, cls := __src.cls, rx := true }) (subBufs j.bufs got (min (List.take r.len r.payload).length (j.total - got))) (List.take (min (List.take r.len r.payload).length (j.total - got)) (List.take r.len r.payload)) = (s4, DmaRes.wait) ∧ True) ∧
    (∃ (s : State), ∃ (n : Nat), s.slicesUp = true ∧ ∃ (s1 : State), ∃ (r : KraRx), s.kraReceive n 3 = (s1, some r) ∧ r.flag flagOrdered = false ∧ r.invalid = none ∧ cxRecvEn r.c = true ∧ ∃ (s2 : State), ∃ (dup : Bool), s1.kraClassify r = (s2, some dup) ∧ ∃ (s3 : State), ∃ (j : RJob), ∃ (got : Nat), s2.sendBuffer r = (s3, some (j, got)) ∧ min (List.take r.len r.payload).length (j.total - got) < (List.take r.len r.payload).length ∧ ∃ (s4 : State), ∃ (w : List Byte), s3.dmaScatter r.k (cxInst r.c) (have __src := s3.rxOp 3 r; { unit := __src.unit, deadline := __src.deadline, cls := __src.cls, rx := true }) (subBufs j.bufs got (min (List.take r.len r.payload).length (j.total - got))) (List.take (min (List.take r.len r.payload).length (j.total - got)) (List.take r.len r.payload)) = (s4, DmaRes.ok w) ∧ True) ∧
    (∃ (s : State), ∃ (n : Nat), s.slicesUp = true ∧ ∃ (s1 : State), ∃ (r : KraRx), s.kraReceive n 3 = (s1, some r) ∧ r.flag flagOrdered = false ∧ r.invalid = none ∧ cxRecvEn r.c = true ∧ r.flag flagLast = true ∧ r.flag flagAckReq = false ∧ ∃ (s2 : State), ∃ (dup : Bool), s1.kraClassify r = (s2, some dup) ∧ ∃ (s3 : State), ∃ (j : RJob), ∃ (got : Nat), s2.sendBuffer r = (s3, some (j, got)) ∧ min (List.take r.len r.payload).length (j.total - got) = (List.take r.len r.payload).length ∧ ∃ (s4 : State), ∃ (w : List Byte), s3.dmaScatter r.k (cxInst r.c) (have __src := s3.rxOp 3 r; { unit := __src.unit, deadline := __src.deadline, cls := __src.cls, rx := true }) (subBufs j.bufs got (min (List.take r.len r.payload).length (j.total - got))) (List.take (min (List.take r.len r.payload).length (j.total - got)) (List.take r.len r.payload)) = (s4, DmaRes.ok w) ∧ (s4.qpx r.qp).ackDue = none ∧ (s4.qpx r.qp).unacked + 1 < cxAckCoalesce r.c ∧ s4.qpCtx r.k r.qp = some r.c) ∧
    (∃ (s : State), ∃ (n : Nat), s.slicesUp = true ∧ ∃ (s1 : State), ∃ (r : KraRx), s.kraReceive n 5 = (s1, some r) ∧ cxState r.c = qpErr) :=
  ⟨⟨wUp, wUp, 1, by decide +kernel⟩,
   ⟨wUp, wUp, 1, by decide +kernel⟩,
   ⟨wUp, 1, chk (dA inferInstance (dPN fun _ => inferInstance)) (by decide +kernel)⟩,
   ⟨wUp, 1, chk (dA inferInstance (dPN fun _ => inferInstance)) (by decide +kernel)⟩,
   ⟨registrationsGuardMemory_27_s, 1, chk (dA inferInstance (dPS fun _ _ => (dA inferInstance (dA inferInstance (dA inferInstance (dPS fun _ _ => inferInstance)))))) (by decide +kernel)⟩,
   ⟨registrationsGuardMemory_28_s, 1, chk (dA inferInstance (dPS fun _ _ => (dA inferInstance (dA inferInstance (dA inferInstance (dPS fun _ _ => (dPN fun _ => inferInstance))))))) (by decide +kernel)⟩,
   ⟨registrationsGuardMemory_29_s, 1, [], chk (dA inferInstance (dPS fun _ _ => (dA inferInstance (dA inferInstance (dA inferInstance (dPS fun _ _ => (dPS2 fun _ _ _ => (dPC fun _ => inferInstance)))))))) (by decide +kernel)⟩,
   ⟨registrationsGuardMemory_30_s, 1, chk (dA inferInstance (dPS fun _ _ => (dA inferInstance (dA inferInstance (dA inferInstance (dPS fun _ _ => (dPS2 fun _ _ _ => (dA inferInstance (dOkD fun _ _ => inferInstance))))))))) (by decide +kernel)⟩,
   ⟨registrationsGuardMemory_31_s, 1, chk (dA inferInstance (dPS fun _ _ => (dA inferInstance (dA inferInstance (dA inferInstance (dA inferInstance (dA inferInstance (dPS fun _ _ => (dPS2 fun _ _ _ => (dA inferInstance (dOkD fun _ _ => inferInstance))))))))))) (by decide +kernel)⟩,
   ⟨registrationsGuardMemory_32_s, 1, chk (dA inferInstance (dPS fun _ _ => inferInstance)) (by decide +kernel)⟩⟩

/-- Requests are classified, checked under their registration, placed and retired: clauses 33, 34, 37, 38, 39, 40, 41, 42, 44, 45. -/
theorem witness_RegistrationsGuardMemory_d :
    (∃ (s : State), ∃ (n : Nat), s.slicesUp = true ∧ ∃ (s1 : State), ∃ (r : KraRx), s.kraReceive n 5 = (s1, some r) ∧ cxState r.c ≠ qpErr ∧ List.find? (fun (d : KraRead) => decide (d.seq = leAt r.ext 0 4)) (s1.qpx r.qp).reads = none) ∧
    (∃ (s : State), ∃ (n : Nat), s.slicesUp = true ∧ ∃ (s1 : State), ∃ (r : KraRx), s.kraReceive n 5 = (s1, some r) ∧ cxState r.c ≠ qpErr ∧ ∃ (d : KraRead), List.find? (fun (d : KraRead) => decide (d.seq = leAt r.ext 0 4)) (s1.qpx r.qp).reads = some d ∧ (seqDiff r.seq d.base < 0 ∨ ↑d.count ≤ seqDiff r.seq d.base ∨ d.got.contains r.seq = true)) ∧
    (∃ (s : State), ∃ (n : Nat), s.slicesUp = true ∧ List.find? (fun (a : KraAccess) => decide (a.frame = n ∧ a.stage ≤ 1)) s.kra.accesses = none) ∧
    (∃ (s : State), ∃ (n : Nat), s.slicesUp = true ∧ List.find? (fun (a : KraAccess) => decide (a.frame = n ∧ 2 ≤ a.stage)) s.kra.accesses = none) ∧
    (∃ (s : State), ∃ (n : Nat), s.slicesUp = true ∧ ∃ (a : KraAccess), List.find? (fun (a : KraAccess) => decide (a.frame = n ∧ a.stage ≤ 1)) s.kra.accesses = some a ∧ a.stage = 0 ∧ (s.regWord a.key).state = regValid ∧ 16383 ≤ (s.regWord a.key).inflight) ∧
    (∃ (s : State), ∃ (n : Nat), s.slicesUp = true ∧ ∃ (a : KraAccess), List.find? (fun (a : KraAccess) => decide (a.frame = n ∧ a.stage ≤ 1)) s.kra.accesses = some a ∧ a.stage = 0 ∧ (s.regWord a.key).state = regValid ∧ (s.regWord a.key).inflight < 16383 ∧ (if keyHome a.key ≠ a.slice then s.incFld (F.KRA_REG_REMOTE_CHECKS (keyHome a.key)) else s).hbmPoisoned (regAddr (keyHome a.key) (keyIndex a.key)) 64 = true) ∧
    (∃ (s : State), ∃ (n : Nat), s.slicesUp = true ∧ ∃ (a : KraAccess), List.find? (fun (a : KraAccess) => decide (a.frame = n ∧ a.stage ≤ 1)) s.kra.accesses = some a ∧ a.stage = 0 ∧ (s.regWord a.key).state = regValid ∧ (s.regWord a.key).inflight < 16383 ∧ (if keyHome a.key ≠ a.slice then s.incFld (F.KRA_REG_REMOTE_CHECKS (keyHome a.key)) else s).hbmPoisoned (regAddr (keyHome a.key) (keyIndex a.key)) 64 = false ∧ ∃ (m : Nat), (if keyHome a.key ≠ a.slice then s.incFld (F.KRA_REG_REMOTE_CHECKS (keyHome a.key)) else s).entryRefuses a = some m ∧ True) ∧
    (∃ (s : State), ∃ (n : Nat), s.slicesUp = true ∧ ∃ (a : KraAccess), List.find? (fun (a : KraAccess) => decide (a.frame = n ∧ a.stage ≤ 1)) s.kra.accesses = some a ∧ a.stage = 0 ∧ (s.regWord a.key).state = regValid ∧ (s.regWord a.key).inflight < 16383 ∧ (if keyHome a.key ≠ a.slice then s.incFld (F.KRA_REG_REMOTE_CHECKS (keyHome a.key)) else s).hbmPoisoned (regAddr (keyHome a.key) (keyIndex a.key)) 64 = false ∧ (if keyHome a.key ≠ a.slice then s.incFld (F.KRA_REG_REMOTE_CHECKS (keyHome a.key)) else s).entryRefuses a = none ∧ (if keyHome a.key ≠ a.slice then s.incFld (F.KRA_REG_REMOTE_CHECKS (keyHome a.key)) else s).homeBinding a.inst = none ∧ a.dup = false ∧ ∃ (s2 : State), ((if keyHome a.key ≠ a.slice then s.incFld (F.KRA_REG_REMOTE_CHECKS (keyHome a.key)) else s).setRegWord a.key { state := (s.regWord a.key).state, inflight := (s.regWord a.key).inflight + 1 }).xlateAll a.slice a.inst 3 (decide (a.op ≠ 4)) (pieces 4096 a.addr a.len) = (s2, Except.ok ()) ∧ ∃ (c : Nat), s2.qpCtx a.slice a.qp = some c ∧ True) ∧
    (∃ (s : State), ∃ (n : Nat), s.slicesUp = true ∧ ∃ (a : KraAccess), List.find? (fun (a : KraAccess) => decide (a.frame = n ∧ a.stage ≤ 1)) s.kra.accesses = some a ∧ a.stage = 1 ∧ s.homeBinding a.inst = none ∧ a.dup = false ∧ ∃ (s2 : State), s.xlateAll a.slice a.inst 3 (decide (a.op ≠ 4)) (pieces 4096 a.addr a.len) = (s2, Except.ok ()) ∧ ∃ (c : Nat), s2.qpCtx a.slice a.qp = some c ∧ True) ∧
    (∃ (s : State), ∃ (n : Nat), s.slicesUp = true ∧ ∃ (a : KraAccess), List.find? (fun (a : KraAccess) => decide (a.frame = n ∧ a.stage ≤ 1)) s.kra.accesses = some a ∧ a.stage = 0 ∧ (s.regWord a.key).state ≠ regValid) :=
  ⟨⟨registrationsGuardMemory_33_s, 1, chk (dA inferInstance (dPS fun _ _ => inferInstance)) (by decide +kernel)⟩,
   ⟨registrationsGuardMemory_34_s, 1, chk (dA inferInstance (dPS fun _ _ => (dA inferInstance (dSome fun _ => inferInstance)))) (by decide +kernel)⟩,
   ⟨wUp, 1, by decide +kernel⟩,
   ⟨wUp, 1, by decide +kernel⟩,
   ⟨registrationsGuardMemory_39_s, 1, chk (dA inferInstance (dSome fun _ => inferInstance)) (by decide +kernel)⟩,
   ⟨registrationsGuardMemory_40_s, 1, chk (dA inferInstance (dSome fun _ => inferInstance)) (by decide +kernel)⟩,
   ⟨registrationsGuardMemory_41_s, 1, chk (dA inferInstance (dSome fun _ => (dA inferInstance (dA inferInstance (dA inferInstance (dA inferInstance (dSome fun _ => inferInstance))))))) (by decide +kernel)⟩,
   ⟨registrationsGuardMemory_42_s, 1, chk (dA inferInstance (dSome fun _ => (dA inferInstance (dA inferInstance (dA inferInstance (dA inferInstance (dA inferInstance (dA inferInstance (dA inferInstance (dPE fun _ => (dSome fun _ => inferInstance))))))))))) (by decide +kernel)⟩,
   ⟨registrationsGuardMemory_44_s, 1, chk (dA inferInstance (dSome fun _ => (dA inferInstance (dA inferInstance (dA inferInstance (dPE fun _ => (dSome fun _ => inferInstance))))))) (by decide +kernel)⟩,
   ⟨registrationsGuardMemory_45_s, 1, chk (dA inferInstance (dSome fun _ => inferInstance)) (by decide +kernel)⟩⟩

/-- Requests are classified, checked under their registration, placed and retired: clauses 46, 47, 48, 49, 50, 51, 52, 53, 54, 55. -/
theorem witness_RegistrationsGuardMemory_e :
    (∃ (s : State), ∃ (s1 : State), ∃ (n : Nat), s.slicesUp = true ∧ ∃ (a : KraAccess), List.find? (fun (a : KraAccess) => decide (a.frame = n ∧ 2 ≤ a.stage)) s.kra.accesses = some a ∧ a.stage = 3 ∧ s.discarding a = true) ∧
    (∃ (s : State), ∃ (s1 : State), ∃ (n : Nat), s.slicesUp = true ∧ ∃ (a : KraAccess), List.find? (fun (a : KraAccess) => decide (a.frame = n ∧ 2 ≤ a.stage)) s.kra.accesses = some a ∧ a.stage = 3 ∧ s.discarding a = false) ∧
    (∃ (s : State), ∃ (s1 : State), ∃ (n : Nat), s.slicesUp = true ∧ ∃ (a : KraAccess), List.find? (fun (a : KraAccess) => decide (a.frame = n ∧ 2 ≤ a.stage)) s.kra.accesses = some a ∧ a.stage = 2 ∧ bitOf a.flags 0 = true ∧ (s.kra.accesses.any fun (b : KraAccess) => decide (b.qp = a.qp ∧ b.stage = 2) && seqLt b.seq a.seq) = true) ∧
    (∃ (s : State), ∃ (s1 : State), ∃ (n : Nat), s.slicesUp = true ∧ ∃ (a : KraAccess), List.find? (fun (a : KraAccess) => decide (a.frame = n ∧ 2 ≤ a.stage)) s.kra.accesses = some a ∧ a.stage = 2 ∧ a.imm.isSome = true ∧ (s.kra.accesses.any fun (b : KraAccess) => decide (b.qp = a.qp ∧ b.op = 2 ∧ b.stage = 2) && seqLt b.seq a.seq && !seqLt b.seq a.first) = true) ∧
    (∃ (s : State), ∃ (n : Nat), s.slicesUp = true ∧ ∃ (a : KraAccess), List.find? (fun (a : KraAccess) => decide (a.frame = n ∧ 2 ≤ a.stage)) s.kra.accesses = some a ∧ a.stage = 2 ∧ (bitOf a.flags 0 = true → (s.kra.accesses.any fun (b : KraAccess) => decide (b.qp = a.qp ∧ b.stage = 2) && seqLt b.seq a.seq) = false) ∧ a.op ≠ 4 ∧ a.imm = none ∧ ∃ (s1 : State), ∃ (w : List Byte), s.dmaWrite a.slice a.inst a.addr (have __src := s.accessOp a; { unit := __src.unit, deadline := __src.deadline, cls := __src.cls, rx := !bitOf a.flags 0 }) a.data = (s1, DmaRes.ok w) ∧ True) ∧
    (∃ (s : State), ∃ (n : Nat), s.slicesUp = true ∧ ∃ (a : KraAccess), List.find? (fun (a : KraAccess) => decide (a.frame = n ∧ 2 ≤ a.stage)) s.kra.accesses = some a ∧ a.stage = 2 ∧ (bitOf a.flags 0 = true → (s.kra.accesses.any fun (b : KraAccess) => decide (b.qp = a.qp ∧ b.stage = 2) && seqLt b.seq a.seq) = false) ∧ a.op ≠ 4 ∧ a.imm = none ∧ ∃ (s1 : State), s.dmaWrite a.slice a.inst a.addr (have __src := s.accessOp a; { unit := __src.unit, deadline := __src.deadline, cls := __src.cls, rx := !bitOf a.flags 0 }) a.data = (s1, DmaRes.wait) ∧ True) ∧
    (∃ (s : State), ∃ (n : Nat), s.slicesUp = true ∧ ∃ (a : KraAccess), List.find? (fun (a : KraAccess) => decide (a.frame = n ∧ 2 ≤ a.stage)) s.kra.accesses = some a ∧ a.stage = 2 ∧ (bitOf a.flags 0 = true → (s.kra.accesses.any fun (b : KraAccess) => decide (b.qp = a.qp ∧ b.stage = 2) && seqLt b.seq a.seq) = false) ∧ a.op = 4 ∧ a.imm = none ∧ ∃ (s1 : State), ∃ (d : List Byte), s.dmaRead a.slice a.inst a.addr a.len (s.accessOp a) = (s1, DmaRes.ok d) ∧ True) ∧
    (∃ (s : State), ∃ (k : Nat), ∃ (q : Nat), s.slicesUp = true ∧ s.jobFor k q 24 = none) ∧
    (∃ (s : State), ∃ (k : Nat), ∃ (q : Nat), s.slicesUp = true ∧ s.jobFor k q 25 = none) ∧
    (∃ (s : State), ∃ (k : Nat), ∃ (q : Nat), s.slicesUp = true ∧ k < 4 ∧ ∃ (j : RJob), s.jobFor k q 24 = some j ∧ (2 ^ 64 ≤ j.head.addr + bitsOf (j.dw 2) 39 0 ∨ bitsOf (j.dw 2) 41 40 = 0)) :=
  ⟨⟨registrationsGuardMemory_46_s, wUp, 1, chk (dA inferInstance (dSome fun _ => inferInstance)) (by decide +kernel)⟩,
   ⟨registrationsGuardMemory_47_s, wUp, 1, chk (dA inferInstance (dSome fun _ => inferInstance)) (by decide +kernel)⟩,
   ⟨registrationsGuardMemory_48_s, wUp, 1, chk (dA inferInstance (dSome fun _ => inferInstance)) (by decide +kernel)⟩,
   ⟨registrationsGuardMemory_49_s, wUp, 1, chk (dA inferInstance (dSome fun _ => inferInstance)) (by decide +kernel)⟩,
   ⟨registrationsGuardMemory_50_s, 1, chk (dA inferInstance (dSome fun _ => (dA inferInstance (dA inferInstance (dA inferInstance (dA inferInstance (dOkD fun _ _ => inferInstance))))))) (by decide +kernel)⟩,
   ⟨registrationsGuardMemory_51_s, 1, chk (dA inferInstance (dSome fun _ => (dA inferInstance (dA inferInstance (dA inferInstance (dA inferInstance (dPC fun _ => inferInstance))))))) (by decide +kernel)⟩,
   ⟨registrationsGuardMemory_52_s, 1, chk (dA inferInstance (dSome fun _ => (dA inferInstance (dA inferInstance (dA inferInstance (dA inferInstance (dOkD fun _ _ => inferInstance))))))) (by decide +kernel)⟩,
   ⟨wUp, 0, 0, by decide +kernel⟩,
   ⟨wUp, 0, 0, by decide +kernel⟩,
   ⟨registrationsGuardMemory_55_s, 0, 0, chk (dA inferInstance (dA inferInstance (dSome fun _ => inferInstance))) (by decide +kernel)⟩⟩

/-- Requests are classified, checked under their registration, placed and retired: clauses 56, 57, 58, 59, 60, 61, 62, 63, 64, 65. -/
theorem witness_RegistrationsGuardMemory_f :
    (∃ (s : State), ∃ (k : Nat), ∃ (q : Nat), s.slicesUp = true ∧ k < 4 ∧ s.fld (F.INST_QUOTA_B_MR_MAX (s.srInst k q)) ≤ s.fld (F.INST_USE_B_MR (s.srInst k q)) ∧ ∃ (j : RJob), s.jobFor k q 24 = some j ∧ j.head.addr + bitsOf (j.dw 2) 39 0 < 2 ^ 64 ∧ bitsOf (j.dw 2) 41 40 ≠ 0) ∧
    (∃ (s : State), ∃ (k : Nat), ∃ (q : Nat), s.slicesUp = true ∧ k < 4 ∧ s.fld (F.INST_USE_B_MR (s.srInst k q)) < s.fld (F.INST_QUOTA_B_MR_MAX (s.srInst k q)) ∧ 262144 ≤ s.fld (F.KRA_MR_ACTIVE k) ∧ ∃ (j : RJob), s.jobFor k q 24 = some j ∧ j.head.addr + bitsOf (j.dw 2) 39 0 < 2 ^ 64 ∧ bitsOf (j.dw 2) 41 40 ≠ 0) ∧
    (∃ (s : State), ∃ (k : Nat), ∃ (q : Nat), s.slicesUp = true ∧ k < 4 ∧ s.fld (F.INST_USE_B_MR (s.srInst k q)) < s.fld (F.INST_QUOTA_B_MR_MAX (s.srInst k q)) ∧ s.fld (F.KRA_MR_ACTIVE k) < 262144 ∧ ∃ (j : RJob), s.jobFor k q 24 = some j ∧ j.head.addr + bitsOf (j.dw 2) 39 0 < 2 ^ 64 ∧ bitsOf (j.dw 2) 41 40 ≠ 0 ∧ ∃ (ix : Nat), s.freeReg k (Config.unstated s.freeCtr % 262144) 262144 = some ix ∧ True) ∧
    (∃ (s : State), ∃ (k : Nat), ∃ (q : Nat), s.slicesUp = true ∧ ∃ (j : RJob), s.jobFor k q 25 = some j ∧ ((s.regWord (bitsOf (j.dw 2) 31 0)).state ≠ regValid ∨ rgInst (s.regEntry (bitsOf (j.dw 2) 31 0)) ≠ s.srInst k q ∧ s.srInst k q ≠ 0 ∨ rgVariant (s.regEntry (bitsOf (j.dw 2) 31 0)) ≠ keyVariant (bitsOf (j.dw 2) 31 0))) ∧
    (∃ (s : State), ∃ (k : Nat), ∃ (q : Nat), s.slicesUp = true ∧ ∃ (j : RJob), s.jobFor k q 25 = some j ∧ (s.regWord (bitsOf (j.dw 2) 31 0)).state = regValid ∧ (rgInst (s.regEntry (bitsOf (j.dw 2) 31 0)) = s.srInst k q ∨ s.srInst k q = 0) ∧ rgVariant (s.regEntry (bitsOf (j.dw 2) 31 0)) = keyVariant (bitsOf (j.dw 2) 31 0)) ∧
    (∃ (s : State), ∃ (key : Nat), s.slicesUp = true ∧ List.find? (fun (r : Revoke) => decide (r.key = key)) s.kra.revokes = none) ∧
    (∃ (s : State), ∃ (key : Nat), s.slicesUp = true ∧ List.find? (fun (r : Revoke) => decide (r.key = key) && !r.forced) s.kra.revokes = none) ∧
    (∃ (s : State), ∃ (key : Nat), s.slicesUp = true ∧ (s.regWord key).inflight ≠ 0 ∧ ∃ (r : Revoke), List.find? (fun (r : Revoke) => decide (r.key = key)) s.kra.revokes = some r ∧ True) ∧
    (∃ (s : State), ∃ (key : Nat), s.slicesUp = true ∧ (s.regWord key).inflight = 0 ∧ ∃ (r : Revoke), List.find? (fun (r : Revoke) => decide (r.key = key)) s.kra.revokes = some r ∧ r.forced = true) ∧
    (∃ (s : State), ∃ (key : Nat), s.slicesUp = true ∧ (s.regWord key).inflight = 0 ∧ ∃ (r : Revoke), List.find? (fun (r : Revoke) => decide (r.key = key)) s.kra.revokes = some r ∧ r.forced = false ∧ ∃ (k : Nat), ∃ (q : Nat), ∃ (id : Nat), r.job = some (k, q, id) ∧ ∃ (j : RJob), s.jobById k q id = some j ∧ True) :=
  ⟨⟨registrationsGuardMemory_56_s, 0, 0, chk (dA inferInstance (dA inferInstance (dA inferInstance (dSome fun _ => inferInstance)))) (by decide +kernel)⟩,
   ⟨registrationsGuardMemory_57_s, 0, 0, chk (dA inferInstance (dA inferInstance (dA inferInstance (dA inferInstance (dSome fun _ => inferInstance))))) (by decide +kernel)⟩,
   ⟨registrationsGuardMemory_58_s, 0, 0, chk (dA inferInstance (dA inferInstance (dA inferInstance (dA inferInstance (dSome fun _ => (dA inferInstance (dA inferInstance (dSome fun _ => inferInstance)))))))) (by decide +kernel)⟩,
   ⟨registrationsGuardMemory_59_s, 0, 0, chk (dA inferInstance (dSome fun _ => inferInstance)) (by decide +kernel)⟩,
   ⟨registrationsGuardMemory_60_s, 0, 0, chk (dA inferInstance (dSome fun _ => inferInstance)) (by decide +kernel)⟩,
   ⟨wUp, 0x1003, by decide +kernel⟩,
   ⟨wUp, 0x1003, by decide +kernel⟩,
   ⟨registrationsGuardMemory_63_s, 0x1003, chk (dA inferInstance (dA inferInstance (dSome fun _ => inferInstance))) (by decide +kernel)⟩,
   ⟨registrationsGuardMemory_64_s, 0x1003, chk (dA inferInstance (dA inferInstance (dSome fun _ => inferInstance))) (by decide +kernel)⟩,
   ⟨registrationsGuardMemory_65_s, 0x1003, chk (dA inferInstance (dA inferInstance (dSome fun _ => (dA inferInstance (dSome3 fun _ _ _ => (dSome fun _ => inferInstance)))))) (by decide +kernel)⟩⟩

/-- Requests are classified, checked under their registration, placed and retired: clauses 66, 67. -/
theorem witness_RegistrationsGuardMemory_g :
    (∃ (s : State), ∃ (key : Nat), s.slicesUp = true ∧ ∃ (r : Revoke), List.find? (fun (r : Revoke) => decide (r.key = key) && !r.forced) s.kra.revokes = some r ∧ ((s.regWord key).inflight = 0 ∨ s.time.mono < r.since + max 1 (s.fld F.KRA_DRAIN_LIMIT) * ticksPerUs)) ∧
    (∃ (s : State), ∃ (key : Nat), s.slicesUp = true ∧ (s.regWord key).inflight ≠ 0 ∧ s.underKey key = [] ∧ ∃ (r : Revoke), List.find? (fun (r : Revoke) => decide (r.key = key) && !r.forced) s.kra.revokes = some r ∧ r.since + max 1 (s.fld F.KRA_DRAIN_LIMIT) * ticksPerUs ≤ s.time.mono ∧ ∃ (k : Nat), ∃ (q : Nat), ∃ (id : Nat), r.job = some (k, q, id) ∧ ∃ (j : RJob), s.jobById k q id = some j ∧ j.slice = k ∧ j.ring = q) :=
  ⟨⟨registrationsGuardMemory_66_s, 0x1003, chk (dA inferInstance (dSome fun _ => inferInstance)) (by decide +kernel)⟩,
   ⟨registrationsGuardMemory_67_s, 0x1003, chk (dA inferInstance (dA inferInstance (dA inferInstance (dSome fun _ => (dA inferInstance (dSome3 fun _ _ _ => (dSome fun _ => inferInstance))))))) (by decide +kernel)⟩⟩

def queuePairsMove_18_s : State :=
  { wQ wRingK (wQc 2) with kra.cache := [[], [], [], []] }

def queuePairsMove_19_s : State :=
  { wQ wRingK (wQc 2) with kra.cache := [[], [], [], []] }

def queuePairsMove_20_s : State :=
  { wQ wRingK (wQc 2) with kra.cache := [[], [], [], []] }

def queuePairsMove_21_s : State :=
  { wQ wRingK (wQc 2) with kra.cache := [[], [], [], []] }

def queuePairsMove_22_s : State :=
  { wQ wRingK (wQc 2) with kra.cache := [[], [], [], []] }

def queuePairsMove_33_s : State :=
  w1 (wQ wRingK (wQc 3) { drain := true }) (F.KRA_QP_RESULT 0) 0

def queuePairsMove_36_s : State :=
  { (wF (wQ wRingK (wQc 2)) [(F.KRA_CTX_MAP_LOCATION 0, 1), (F.KRA_CTX_MAP_BASE 0, 2048)]) with kra.cache := [[], [], [], []], kra.fetch := [(0, 9)] }

/-- Queue pairs move by the state machine of their commands: clauses 0, 1, 2, 3, 4, 5, 6, 7, 8, 9. -/
theorem witness_QueuePairsMove_a :
    (∃ (s : State), ∃ (g : Agent), ∃ (k : Nat), ∃ (qp : Nat), s.slicesUp = true ∧ (qpCmdOk g k = false ∨ 2 ^ 20 ≤ qp ∨ s.fld (F.KRA_QP_RESULT k) = 0)) ∧
    (∃ (s : State), ∃ (g : Agent), ∃ (k : Nat), ∃ (qp : Nat), s.slicesUp = true ∧ (qpCmdOk g k = false ∨ 2 ^ 20 ≤ qp ∨ s.fld (F.KRA_QP_RESULT k) = 0)) ∧
    (∃ (s : State), ∃ (g : Agent), ∃ (k : Nat), ∃ (qp : Nat), s.slicesUp = true ∧ (qpCmdOk g k = false ∨ 2 ^ 20 ≤ qp ∨ s.fld (F.KRA_QP_RESULT k) = 0)) ∧
    (∃ (s : State), ∃ (g : Agent), ∃ (k : Nat), ∃ (qp : Nat), s.slicesUp = true ∧ (qpCmdOk g k = false ∨ 2 ^ 20 ≤ qp ∨ s.fld (F.KRA_QP_RESULT k) = 0)) ∧
    (∃ (s : State), ∃ (g : Agent), ∃ (k : Nat), ∃ (qp : Nat), s.slicesUp = true ∧ (qpCmdOk g k = false ∨ 2 ^ 20 ≤ qp ∨ s.fld (F.KRA_QP_RESULT k) = 0)) ∧
    (∃ (s : State), ∃ (g : Agent), ∃ (k : Nat), ∃ (qp : Nat), s.slicesUp = true ∧ (qpCmdOk g k = false ∨ 2 ^ 20 ≤ qp ∨ s.fld (F.KRA_QP_RESULT k) = 0)) ∧
    (∃ (s : State), ∃ (g : Agent), ∃ (k : Nat), ∃ (qp : Nat), s.slicesUp = true ∧ (qpCmdOk g k = false ∨ 2 ^ 20 ≤ qp ∨ s.fld (F.KRA_QP_RESULT k) = 0)) ∧
    (∃ (s : State), ∃ (g : Agent), ∃ (k : Nat), ∃ (qp : Nat), s.slicesUp = true ∧ qpCmdOk g k = true ∧ qp < 2 ^ 20 ∧ s.fld (F.KRA_QP_RESULT k) ≠ 0 ∧ (s.qpx qp).live = true) ∧
    (∃ (s : State), ∃ (g : Agent), ∃ (k : Nat), ∃ (qp : Nat), s.slicesUp = true ∧ qpCmdOk g k = true ∧ qp < 2 ^ 20 ∧ s.fld (F.KRA_QP_RESULT k) ≠ 0 ∧ (s.qpx qp).live = false ∧ ¬((s.ctxPlace qp).fst = 1 ∨ (s.ctxPlace qp).fst = 2)) ∧
    (∃ (s : State), ∃ (g : Agent), ∃ (k : Nat), ∃ (qp : Nat), s.slicesUp = true ∧ qpCmdOk g k = true ∧ qp < 2 ^ 20 ∧ s.fld (F.KRA_QP_RESULT k) ≠ 0 ∧ (s.qpx qp).live = false ∧ ((s.ctxPlace qp).fst = 1 ∨ (s.ctxPlace qp).fst = 2) ∧ s.ctxValid k (s.staged k) = false) :=
  ⟨⟨wQ wRingK (wQc 2), .keeper, 5, 9, by decide +kernel⟩,
   ⟨wQ wRingK (wQc 2), .keeper, 5, 9, by decide +kernel⟩,
   ⟨wQ wRingK (wQc 2), .keeper, 5, 9, by decide +kernel⟩,
   ⟨wQ wRingK (wQc 2), .keeper, 5, 9, by decide +kernel⟩,
   ⟨wQ wRingK (wQc 2), .keeper, 5, 9, by decide +kernel⟩,
   ⟨wQ wRingK (wQc 2), .keeper, 5, 9, by decide +kernel⟩,
   ⟨wQ wRingK (wQc 2), .keeper, 5, 9, by decide +kernel⟩,
   ⟨wQ wRingK (wQc 2), .keeper, 0, 9, by decide +kernel⟩,
   ⟨wQ wRingK (wQc 2), .keeper, 0, 0, by decide +kernel⟩,
   ⟨wF wRingK [(F.KRA_CTX_MAP_LOCATION 0, 1), (F.KRA_CTX_MAP_BASE 0, 2048), (⟨R.KRA_QP_STAGE 0 0, 0, 64⟩, 2 ^ 19 + 2 ^ 32)], .keeper, 0, 9, by decide +kernel⟩⟩

/-- Queue pairs move by the state machine of their commands: clauses 10, 11, 12, 13, 14, 15, 16, 17, 18, 19. -/
theorem witness_QueuePairsMove_b :
    (∃ (s : State), ∃ (g : Agent), ∃ (k : Nat), ∃ (qp : Nat), s.slicesUp = true ∧ qpCmdOk g k = true ∧ qp < 2 ^ 20 ∧ s.fld (F.KRA_QP_RESULT k) ≠ 0 ∧ (s.qpx qp).live = false ∧ ((s.ctxPlace qp).fst = 1 ∨ (s.ctxPlace qp).fst = 2) ∧ s.ctxValid k (s.staged k) = true ∧ s.fld (F.INST_QUOTA_B_QP_MAX (cxInst (s.staged k))) ≤ s.fld (F.INST_USE_B_QP (cxInst (s.staged k)))) ∧
    (∃ (s : State), ∃ (g : Agent), ∃ (k : Nat), ∃ (qp : Nat), s.slicesUp = true ∧ qpCmdOk g k = true ∧ qp < 2 ^ 20 ∧ s.fld (F.KRA_QP_RESULT k) ≠ 0 ∧ (s.qpx qp).live = false ∧ ((s.ctxPlace qp).fst = 1 ∨ (s.ctxPlace qp).fst = 2) ∧ s.ctxValid k (s.staged k) = true ∧ k < s.kra.cache.length ∧ (s.ctxCache k).length < 16384 ∧ s.fld (F.INST_USE_B_QP (cxInst (s.staged k))) < s.fld (F.INST_QUOTA_B_QP_MAX (cxInst (s.staged k)))) ∧
    (∃ (s : State), ∃ (g : Agent), ∃ (k : Nat), ∃ (qp : Nat), s.slicesUp = true ∧ qpCmdOk g k = true ∧ qp < 2 ^ 20 ∧ s.fld (F.KRA_QP_RESULT k) ≠ 0) ∧
    (∃ (s : State), ∃ (g : Agent), ∃ (k : Nat), ∃ (qp : Nat), s.slicesUp = true ∧ qpCmdOk g k = true ∧ qp < 2 ^ 20 ∧ s.fld (F.KRA_QP_RESULT k) ≠ 0 ∧ ((s.qpx qp).live = false ∨ (s.qpx qp).slice ≠ k)) ∧
    (∃ (s : State), ∃ (g : Agent), ∃ (k : Nat), ∃ (qp : Nat), s.slicesUp = true ∧ qpCmdOk g k = true ∧ qp < 2 ^ 20 ∧ s.fld (F.KRA_QP_RESULT k) ≠ 0 ∧ ((s.qpx qp).live = false ∨ (s.qpx qp).slice ≠ k)) ∧
    (∃ (s : State), ∃ (g : Agent), ∃ (k : Nat), ∃ (qp : Nat), s.slicesUp = true ∧ qpCmdOk g k = true ∧ qp < 2 ^ 20 ∧ s.fld (F.KRA_QP_RESULT k) ≠ 0 ∧ ((s.qpx qp).live = false ∨ (s.qpx qp).slice ≠ k)) ∧
    (∃ (s : State), ∃ (g : Agent), ∃ (k : Nat), ∃ (qp : Nat), s.slicesUp = true ∧ qpCmdOk g k = true ∧ qp < 2 ^ 20 ∧ s.fld (F.KRA_QP_RESULT k) ≠ 0 ∧ ((s.qpx qp).live = false ∨ (s.qpx qp).slice ≠ k)) ∧
    (∃ (s : State), ∃ (g : Agent), ∃ (k : Nat), ∃ (qp : Nat), s.slicesUp = true ∧ qpCmdOk g k = true ∧ qp < 2 ^ 20 ∧ s.fld (F.KRA_QP_RESULT k) ≠ 0 ∧ ((s.qpx qp).live = false ∨ (s.qpx qp).slice ≠ k)) ∧
    (∃ (s : State), ∃ (g : Agent), ∃ (qp : Nat), s.slicesUp = true ∧ qp < 2 ^ 20 ∧ (s.qpx qp).live = true ∧ ∃ (k : Nat), (s.qpx qp).slice = k ∧ qpCmdOk g k = true ∧ s.fld (F.KRA_QP_RESULT k) ≠ 0 ∧ s.qpCtx k qp = none ∧ s.kra.fetch.contains (k, qp) = false) ∧
    (∃ (s : State), ∃ (g : Agent), ∃ (qp : Nat), s.slicesUp = true ∧ qp < 2 ^ 20 ∧ (s.qpx qp).live = true ∧ ∃ (k : Nat), (s.qpx qp).slice = k ∧ qpCmdOk g k = true ∧ s.fld (F.KRA_QP_RESULT k) ≠ 0 ∧ s.qpCtx k qp = none ∧ s.kra.fetch.contains (k, qp) = false) :=
  ⟨⟨wF wRingK [(F.INST_QUOTA_B_QP_MAX 0, 0), (F.KRA_CTX_MAP_LOCATION 0, 1), (F.KRA_CTX_MAP_BASE 0, 2048), (⟨R.KRA_QP_STAGE 0 0, 0, 64⟩, 2 ^ 12)], .keeper, 0, 9, by decide +kernel⟩,
   ⟨wF wRingK [(F.INST_QUOTA_B_QP_MAX 0, 99), (F.KRA_CTX_MAP_LOCATION 0, 1), (F.KRA_CTX_MAP_BASE 0, 2048), (⟨R.KRA_QP_STAGE 0 0, 0, 64⟩, 2 ^ 12)], .keeper, 0, 9, by decide +kernel⟩,
   ⟨wQ wRingK (wQc 2), .keeper, 0, 9, by decide +kernel⟩,
   ⟨wQ wRingK (wQc 2), .keeper, 0, 0, by decide +kernel⟩,
   ⟨wQ wRingK (wQc 2), .keeper, 0, 0, by decide +kernel⟩,
   ⟨wQ wRingK (wQc 2), .keeper, 0, 0, by decide +kernel⟩,
   ⟨wQ wRingK (wQc 2), .keeper, 0, 0, by decide +kernel⟩,
   ⟨wQ wRingK (wQc 2), .keeper, 0, 0, by decide +kernel⟩,
   ⟨queuePairsMove_18_s, .keeper, 9, chk (dA inferInstance (dA inferInstance (dA inferInstance (dVar fun _ => inferInstance)))) (by decide +kernel)⟩,
   ⟨queuePairsMove_19_s, .keeper, 9, chk (dA inferInstance (dA inferInstance (dA inferInstance (dVar fun _ => inferInstance)))) (by decide +kernel)⟩⟩

/-- Queue pairs move by the state machine of their commands: clauses 20, 21, 22, 23, 24, 25, 26, 27, 28, 29. -/
theorem witness_QueuePairsMove_c :
    (∃ (s : State), ∃ (g : Agent), ∃ (qp : Nat), s.slicesUp = true ∧ qp < 2 ^ 20 ∧ (s.qpx qp).live = true ∧ ∃ (k : Nat), (s.qpx qp).slice = k ∧ qpCmdOk g k = true ∧ s.fld (F.KRA_QP_RESULT k) ≠ 0 ∧ s.qpCtx k qp = none ∧ s.kra.fetch.contains (k, qp) = false) ∧
    (∃ (s : State), ∃ (g : Agent), ∃ (qp : Nat), s.slicesUp = true ∧ qp < 2 ^ 20 ∧ (s.qpx qp).live = true ∧ ∃ (k : Nat), (s.qpx qp).slice = k ∧ qpCmdOk g k = true ∧ s.fld (F.KRA_QP_RESULT k) ≠ 0 ∧ s.qpCtx k qp = none ∧ s.kra.fetch.contains (k, qp) = false) ∧
    (∃ (s : State), ∃ (g : Agent), ∃ (qp : Nat), s.slicesUp = true ∧ qp < 2 ^ 20 ∧ (s.qpx qp).live = true ∧ ∃ (k : Nat), (s.qpx qp).slice = k ∧ qpCmdOk g k = true ∧ s.fld (F.KRA_QP_RESULT k) ≠ 0 ∧ s.qpCtx k qp = none ∧ s.kra.fetch.contains (k, qp) = false) ∧
    (∃ (s : State), ∃ (g : Agent), ∃ (qp : Nat), s.slicesUp = true ∧ qp < 2 ^ 20 ∧ (s.qpx qp).live = true ∧ ∃ (k : Nat), (s.qpx qp).slice = k ∧ qpCmdOk g k = true ∧ s.fld (F.KRA_QP_RESULT k) ≠ 0 ∧ ∃ (c : Nat), s.qpCtx k qp = some c ∧ (cxState c = qpInit ∨ cxState c = qpDrain)) ∧
    (∃ (s : State), ∃ (g : Agent), ∃ (qp : Nat), s.slicesUp = true ∧ qp < 2 ^ 20 ∧ (s.qpx qp).live = true ∧ ∃ (k : Nat), (s.qpx qp).slice = k ∧ qpCmdOk g k = true ∧ s.fld (F.KRA_QP_RESULT k) ≠ 0 ∧ ∃ (c : Nat), s.qpCtx k qp = some c ∧ cxState c ≠ qpInit ∧ cxState c ≠ qpDrain) ∧
    (∃ (s : State), ∃ (g : Agent), ∃ (qp : Nat), s.slicesUp = true ∧ qp < 2 ^ 20 ∧ (s.qpx qp).live = true ∧ ∃ (k : Nat), (s.qpx qp).slice = k ∧ qpCmdOk g k = true ∧ s.fld (F.KRA_QP_RESULT k) ≠ 0 ∧ ∃ (c : Nat), s.qpCtx k qp = some c ∧ (cxState c = qpInit ∨ cxState c = qpActive)) ∧
    (∃ (s : State), ∃ (g : Agent), ∃ (qp : Nat), s.slicesUp = true ∧ qp < 2 ^ 20 ∧ (s.qpx qp).live = true ∧ ∃ (k : Nat), (s.qpx qp).slice = k ∧ qpCmdOk g k = true ∧ s.fld (F.KRA_QP_RESULT k) ≠ 0 ∧ ∃ (c : Nat), s.qpCtx k qp = some c ∧ cxState c ≠ qpInit ∧ cxState c ≠ qpActive) ∧
    (∃ (s : State), ∃ (g : Agent), ∃ (qp : Nat), s.slicesUp = true ∧ qp < 2 ^ 20 ∧ (s.qpx qp).live = true ∧ ∃ (k : Nat), (s.qpx qp).slice = k ∧ qpCmdOk g k = true ∧ s.fld (F.KRA_QP_RESULT k) ≠ 0 ∧ ∃ (c : Nat), s.qpCtx k qp = some c ∧ True) ∧
    (∃ (s : State), ∃ (g : Agent), ∃ (qp : Nat), s.slicesUp = true ∧ qp < 2 ^ 20 ∧ (s.qpx qp).live = true ∧ (s.qpx qp).jobs = [] ∧ ∃ (k : Nat), (s.qpx qp).slice = k ∧ qpCmdOk g k = true ∧ s.fld (F.KRA_QP_RESULT k) ≠ 0 ∧ ∃ (c : Nat), s.qpCtx k qp = some c ∧ cxState c = qpActive) ∧
    (∃ (s : State), ∃ (g : Agent), ∃ (qp : Nat), s.slicesUp = true ∧ qp < 2 ^ 20 ∧ (s.qpx qp).live = true ∧ ∃ (k : Nat), (s.qpx qp).slice = k ∧ qpCmdOk g k = true ∧ s.fld (F.KRA_QP_RESULT k) ≠ 0 ∧ ∃ (c : Nat), s.qpCtx k qp = some c ∧ cxState c ≠ qpActive) :=
  ⟨⟨queuePairsMove_20_s, .keeper, 9, chk (dA inferInstance (dA inferInstance (dA inferInstance (dVar fun _ => inferInstance)))) (by decide +kernel)⟩,
   ⟨queuePairsMove_21_s, .keeper, 9, chk (dA inferInstance (dA inferInstance (dA inferInstance (dVar fun _ => inferInstance)))) (by decide +kernel)⟩,
   ⟨queuePairsMove_22_s, .keeper, 9, chk (dA inferInstance (dA inferInstance (dA inferInstance (dVar fun _ => inferInstance)))) (by decide +kernel)⟩,
   ⟨wQ wRingK (wQc 1), .keeper, 9, chk (dA inferInstance (dA inferInstance (dA inferInstance (dVar fun _ => (dA inferInstance (dA inferInstance (dSome fun _ => inferInstance))))))) (by decide +kernel)⟩,
   ⟨wQ wRingK (wQc 2), .keeper, 9, chk (dA inferInstance (dA inferInstance (dA inferInstance (dVar fun _ => (dA inferInstance (dA inferInstance (dSome fun _ => inferInstance))))))) (by decide +kernel)⟩,
   ⟨wQ wRingK (wQc 2), .keeper, 9, chk (dA inferInstance (dA inferInstance (dA inferInstance (dVar fun _ => (dA inferInstance (dA inferInstance (dSome fun _ => inferInstance))))))) (by decide +kernel)⟩,
   ⟨wQ wRingK (wQc 3), .keeper, 9, chk (dA inferInstance (dA inferInstance (dA inferInstance (dVar fun _ => (dA inferInstance (dA inferInstance (dSome fun _ => inferInstance))))))) (by decide +kernel)⟩,
   ⟨wQ wRingK (wQc 2), .keeper, 9, chk (dA inferInstance (dA inferInstance (dA inferInstance (dVar fun _ => (dA inferInstance (dA inferInstance (dSome fun _ => inferInstance))))))) (by decide +kernel)⟩,
   ⟨wQ wRingK (wQc 2), .keeper, 9, chk (dA inferInstance (dA inferInstance (dA inferInstance (dA inferInstance (dVar fun _ => (dA inferInstance (dA inferInstance (dSome fun _ => inferInstance)))))))) (by decide +kernel)⟩,
   ⟨wQ wRingK (wQc 1), .keeper, 9, chk (dA inferInstance (dA inferInstance (dA inferInstance (dVar fun _ => (dA inferInstance (dA inferInstance (dSome fun _ => inferInstance))))))) (by decide +kernel)⟩⟩

/-- Queue pairs move by the state machine of their commands: clauses 30, 31, 32, 33, 34, 36, 37. -/
theorem witness_QueuePairsMove_d :
    (∃ (s : State), ∃ (g : Agent), ∃ (qp : Nat), s.slicesUp = true ∧ qp < 2 ^ 20 ∧ (s.qpx qp).live = true ∧ ∃ (k : Nat), (s.qpx qp).slice = k ∧ qpCmdOk g k = true ∧ s.fld (F.KRA_QP_RESULT k) ≠ 0 ∧ ∃ (c : Nat), s.qpCtx k qp = some c ∧ (cxState c = qpActive ∨ cxState c = qpDrain)) ∧
    (∃ (s : State), ∃ (g : Agent), ∃ (qp : Nat), s.slicesUp = true ∧ qp < 2 ^ 20 ∧ (s.qpx qp).live = true ∧ ∃ (k : Nat), (s.qpx qp).slice = k ∧ qpCmdOk g k = true ∧ s.fld (F.KRA_QP_RESULT k) ≠ 0 ∧ ∃ (c : Nat), s.qpCtx k qp = some c ∧ cxState c ≠ qpActive ∧ cxState c ≠ qpDrain) ∧
    (∃ (s : State), ∃ (k : Nat), ∃ (qp : Nat), s.slicesUp = true ∧ ((s.qpx qp).live = false ∨ (s.qpx qp).slice ≠ k ∨ (s.qpx qp).drain = false ∨ (s.qpx qp).out ≠ [] ∨ (s.qpx qp).jobs ≠ [])) ∧
    (∃ (s : State), ∃ (qp : Nat), s.slicesUp = true ∧ (s.qpx qp).live = true ∧ (s.qpx qp).drain = true ∧ (s.qpx qp).out = [] ∧ (s.qpx qp).jobs = [] ∧ ∃ (k : Nat), (s.qpx qp).slice = k ∧ True) ∧
    (∃ (s : State), ∃ (s1 : State), ∃ (k : Nat), ∃ (qp : Nat), ∃ (img : List Byte), s.slicesUp = true ∧ s.kra.fetch.contains (k, qp) = false) ∧
    (∃ (s : State), ∃ (k : Nat), ∃ (qp : Nat), s.slicesUp = true ∧ s.kra.fetch.contains (k, qp) = true ∧ s.kra.miss.getD k [] = [] ∧ s.kra.cmds = [] ∧ ∃ (s1 : State), ∃ (img : List Byte), s.readCtx k qp = (s1, DmaRes.ok img) ∧ s1.kra.miss.getD k [] = [] ∧ (s1.qpx qp).live = true ∧ (s1.qpx qp).errPend = none ∧ s1.kra.cmds = [] ∧ k < s1.kra.cache.length ∧ (s1.ctxCache k).length < 16384) ∧
    (∃ (s : State), ∃ (s1 : State), ∃ (k : Nat), ∃ (qp : Nat), ∃ (img : List Byte), s.slicesUp = true ∧ s.kra.fetch.contains (k, qp) = true ∧ s.kra.miss.getD k [] = [] ∧ s.kra.cmds = [] ∧ (s.ctxPlace qp).fst = 0) :=
  ⟨⟨wQ wRingK (wQc 2), .keeper, 9, chk (dA inferInstance (dA inferInstance (dA inferInstance (dVar fun _ => (dA inferInstance (dA inferInstance (dSome fun _ => inferInstance))))))) (by decide +kernel)⟩,
   ⟨wQ wRingK (wQc 1), .keeper, 9, chk (dA inferInstance (dA inferInstance (dA inferInstance (dVar fun _ => (dA inferInstance (dA inferInstance (dSome fun _ => inferInstance))))))) (by decide +kernel)⟩,
   ⟨wQ wRingK (wQc 2), 0, 9, by decide +kernel⟩,
   ⟨queuePairsMove_33_s, 9, chk (dA inferInstance (dA inferInstance (dA inferInstance (dA inferInstance (dA inferInstance (dVar fun _ => inferInstance)))))) (by decide +kernel)⟩,
   ⟨wQ wRingK (wQc 2), wUp, 0, 9, [], by decide +kernel⟩,
   ⟨queuePairsMove_36_s, 0, 9, chk (dA inferInstance (dA inferInstance (dA inferInstance (dA inferInstance (dOkD fun _ _ => inferInstance))))) (by decide +kernel)⟩,
   (by refine ⟨{ wQ wRingK (wQc 2) with kra.fetch := [(0, 9)] }, wUp, 0, 9, [], ?_⟩; decide +kernel)⟩

end Sys2Proof.Tests
end

