-- ==== Sys2Proof/Tests/WitnessManagement.lean ====
section
/-!
SUPPORT. Witnesses: a state and operands that meet the hypotheses of each clause of the statements named, together.
-/

set_option linter.unusedVariables false
set_option Elab.async false
set_option maxRecDepth 100000

namespace Sys2Proof.Tests
open Sys2Proof.Machine

def managementCommandsAreRouted_3_s : State :=
  let s := wMgJob (wMgPkt 0x0703 0 0); s.setIotlb 0 [{ inst := 0, large := true, page := 0, read := false, write := true, target := 2, out := 2 ^ 30 }]

def managementCommandsAreRouted_4_s : State :=
  wHostM (wMgJob (wMgPkt 0x0703 0 0)) 0

def managementCommandsAreRouted_5_s : State :=
  wMgJob (List.replicate 32 0)

def managementCommandsAreRouted_6_s : State :=
  wF (wMgJob (wMgPkt 0x0703 1 2)) [(F.FED_ID_VALID, 1), (F.FED_ID_ID, 3), (F.FED_STATE_STATE, 2), (F.FED_MASTER_ID, 2), (F.FED_MEMBERS, 12), (F.KL_ROUTE 2, 0), (F.KL_ROUTE 3, 6)]

def managementCommandsAreRouted_7_s : State :=
  wMgJob (wMgPkt 0x0703 1 2)

def managementCommandsAreRouted_8_s : State :=
  wMgJob (wMgPkt 0x0703 0 0)

def managementCommandsAreRouted_11_s : State :=
  { wUp with mgmt.mctpOut := List.replicate 4 (1, [], 0) }

def managementCommandsAreRouted_22_s : State :=
  { wMem with mgmt.relays := [{ ref := 1, target := 2, cmd := { route := 1, opcode := 0x0703 } }] }

def managementCommandsAreRouted_23_s : State :=
  { wMem with mgmt.relays := [{ ref := 1, target := 2, cmd := { route := 1, opcode := 0x0703 } }], mgmt.mctpOut := List.replicate 4 (1, [], 0) }

def managementCommandsAreRouted_25_s : State :=
  { wMem with mgmt.relays := [{ ref := 1, target := 2, cmd := { route := 1, opcode := 0x0703, timeoutMs := 5 } }], time.mono := 100000000 }

def managementCommandsAreRouted_26_s : State :=
  { wMem with mgmt.relays := [{ ref := 1, target := 2, cmd := { route := 1, opcode := 0x0703 } }] }

def managementCommandsAreRouted_27_s : State :=
  { wMem with mgmt.relays := [{ ref := 1, target := 2, cmd := { route := 1, opcode := 0x0703, timeoutMs := 5 } }], time.mono := 100000000 }

def managementCommandsAreRouted_28_s : State :=
  w1 (wMgQ wUp [{ route := 1, opcode := 0x0703 }, { route := 2, opcode := 0x10001 }]) F.ANX_STATUS_STATE 1

def managementCommandsAreRouted_29_s : State :=
  wMgQ wUp (List.replicate 4 { route := 1, opcode := 0x0703 })

def managementCommandsAreRouted_32_s : State :=
  wMg wUp (wHolder 0x0703 [])

def managementCommandsAreRouted_33_s : State :=
  wMg wUp { wHolder 0x0703 [] 2 with started := true, reply := some { status := 0, payload := [1, 2] }, delivered := true }

def managementCommandsAreRouted_34_s : State :=
  { wMg wUp { wHolder 0x0703 [] 2 with started := true, reply := some { status := 0, payload := [1, 2] } } with pcie.annex.discarded := true }

def managementCommandsAreRouted_35_s : State :=
  { wMg wUp { wHolder 0x0703 [] 1 with started := true, reply := some { status := 0, payload := [1, 2] } } with mgmt.mctpOut := List.replicate 4 (1, [], 0) }

def managementCommandsAreRouted_36_s : State :=
  wMg wUp { wHolder 0x0703 [] 2 with started := true, reply := some { status := 0, payload := [1, 2] } }

def managementCommandsAreRouted_37_s : State :=
  wMg wUp { wHolder 0x0703 [] 1 with started := true, reply := some { status := 0, payload := [1, 2] } }

def managementCommandsAreRouted_38_s : State :=
  w1 (wMgQ (wMg wUp (wHolder 0x0703 [])) [{ route := 1, opcode := 0x0703 }, { route := 2, opcode := 0x10001 }]) F.ANX_STATUS_STATE 1

def managementCommandsAreRouted_39_s : State :=
  w1 (wMgQ (wMg wUp (wHolder 0x0703 [])) [{ route := 1, opcode := 0x0703 }, { route := 2, opcode := 0x10001 }]) F.ANX_STATUS_STATE 1

def managementCommandsAreRouted_40_s : State :=
  wMg wUp { wHolder 0x0703 [] 1 with started := true, reply := some { status := 0, payload := [1, 2] } }

def managementCommandsAreRouted_41_s : State :=
  wMg wUp { wHolder 0x0703 [] 1 with started := true, reply := some { status := 0, payload := [1, 2] }, delivered := true }

def managementCommandsAreRouted_44_s : State :=
  { wMgQ wUp [{ route := 1, opcode := 0x0703, timeoutMs := 5 }] with time.mono := 100000000 }

def managementCommandsAreRouted_46_s : State :=
  { wMgQ wUp [{ route := 1, opcode := 0x0703, timeoutMs := 5 }] with time.mono := 100000000 }

def managementCommandsAreRouted_47_s : State :=
  { wUp with mgmt.mctpOut := [(1, [0x7E, 0x1D], 0)] }

def managementCommandsAreRouted_48_s : State :=
  { wUp with mgmt.mctpOut := [(1, [0x7E, 0x1D], 0)] }

def managementCommandsAreRouted_49_s : State :=
  { wUp with mgmt.mctpOut := [(1, [0x7E, 0x1D], 2)] }

/-- Management commands are checked, queued, claimed, answered and timed out: clauses 0, 1, 2, 3, 4, 5, 6, 7, 8, 9. -/
theorem witness_ManagementCommandsAreRouted_a :
    (∃ (s : State), ∃ (k : Nat), ∃ (q : Nat), s.running = true ∧ s.boot.romPending = false ∧ s.boot.recovery = true) ∧
    (∃ (s : State), ∃ (k : Nat), ∃ (q : Nat), s.running = true ∧ s.boot.romPending = false ∧ s.boot.recovery = false ∧ s.jobFor k q 48 = none) ∧
    (∃ (s : State), ∃ (k : Nat), ∃ (q : Nat), s.running = true ∧ s.boot.romPending = false ∧ s.boot.recovery = false ∧ ∃ (j : RJob), s.jobFor k q 48 = some j ∧ j.dw 3 % 2 ^ 32 < 32) ∧
    (∃ (s : State), ∃ (k : Nat), ∃ (q : Nat), s.running = true ∧ s.boot.romPending = false ∧ s.boot.recovery = false ∧ ∃ (j : RJob), s.jobFor k q 48 = some j ∧ 32 ≤ j.dw 3 % 2 ^ 32 ∧ ∃ (s1 : State), ∃ (st : Nat), s.dmaGather k 0 (s.jobOp 0 j) j.bufs = (s1, DmaRes.fail st) ∧ True) ∧
    (∃ (s : State), ∃ (k : Nat), ∃ (q : Nat), s.running = true ∧ s.boot.romPending = false ∧ s.boot.recovery = false ∧ ∃ (j : RJob), s.jobFor k q 48 = some j ∧ 32 ≤ j.dw 3 % 2 ^ 32 ∧ ∃ (s1 : State), s.dmaGather k 0 (s.jobOp 0 j) j.bufs = (s1, DmaRes.wait) ∧ True) ∧
    (∃ (s : State), ∃ (k : Nat), ∃ (q : Nat), s.running = true ∧ s.boot.romPending = false ∧ s.boot.recovery = false ∧ ∃ (j : RJob), s.jobFor k q 48 = some j ∧ 32 ≤ j.dw 3 % 2 ^ 32 ∧ ∃ (s1 : State), ∃ (p : List Byte), s.dmaGather k 0 (s.jobOp 0 j) j.bufs = (s1, DmaRes.ok p) ∧ ∃ (st : Nat), s1.mgmtCheck 0 (s1.goesOut p) p = some st ∧ True) ∧
    (∃ (s : State), ∃ (k : Nat), ∃ (q : Nat), s.running = true ∧ s.boot.romPending = false ∧ s.boot.recovery = false ∧ ∃ (j : RJob), s.jobFor k q 48 = some j ∧ 32 ≤ j.dw 3 % 2 ^ 32 ∧ ∃ (s1 : State), ∃ (p : List Byte), s.dmaGather k 0 (s.jobOp 0 j) j.bufs = (s1, DmaRes.ok p) ∧ s1.mgmtCheck 0 (s1.goesOut p) p = none ∧ s1.goesOut p = true ∧ s1.relayable (packetTarget p) = true) ∧
    (∃ (s : State), ∃ (k : Nat), ∃ (q : Nat), s.running = true ∧ s.boot.romPending = false ∧ s.boot.recovery = false ∧ ∃ (j : RJob), s.jobFor k q 48 = some j ∧ 32 ≤ j.dw 3 % 2 ^ 32 ∧ ∃ (s1 : State), ∃ (p : List Byte), s.dmaGather k 0 (s.jobOp 0 j) j.bufs = (s1, DmaRes.ok p) ∧ s1.mgmtCheck 0 (s1.goesOut p) p = none ∧ s1.goesOut p = true ∧ s1.relayable (packetTarget p) = false) ∧
    (∃ (s : State), ∃ (k : Nat), ∃ (q : Nat), s.running = true ∧ s.boot.romPending = false ∧ s.boot.recovery = false ∧ ∃ (j : RJob), s.jobFor k q 48 = some j ∧ 32 ≤ j.dw 3 % 2 ^ 32 ∧ ∃ (s1 : State), ∃ (p : List Byte), s.dmaGather k 0 (s.jobOp 0 j) j.bufs = (s1, DmaRes.ok p) ∧ s1.mgmtCheck 0 (s1.goesOut p) p = none ∧ s1.goesOut p = false) ∧
    (∃ (s : State), ∃ (bus : Nat), ∃ (p : List Byte), s.running = true ∧ s.boot.romPending = false ∧ (2 ≤ bus ∨ 65569 < p.length)) :=
  ⟨⟨wRec, 0, 0, by decide +kernel⟩,
   ⟨wMgJob [] 8, 0, 1, by decide +kernel⟩,
   ⟨wMgJob [] 8, 0, 0, chk (dA inferInstance (dA inferInstance (dA inferInstance (dSome fun _ => inferInstance)))) (by decide +kernel)⟩,
   ⟨managementCommandsAreRouted_3_s, 0, 0, chk (dA inferInstance (dA inferInstance (dA inferInstance (dSome fun _ => (dA inferInstance (dFailD fun _ _ => inferInstance)))))) (by decide +kernel)⟩,
   ⟨managementCommandsAreRouted_4_s, 0, 0, chk (dA inferInstance (dA inferInstance (dA inferInstance (dSome fun _ => (dA inferInstance (dPC fun _ => inferInstance)))))) (by decide +kernel)⟩,
   ⟨managementCommandsAreRouted_5_s, 0, 0, chk (dA inferInstance (dA inferInstance (dA inferInstance (dSome fun _ => (dA inferInstance (dOkD fun _ _ => (dSome fun _ => inferInstance))))))) (by decide +kernel)⟩,
   ⟨managementCommandsAreRouted_6_s, 0, 0, chk (dA inferInstance (dA inferInstance (dA inferInstance (dSome fun _ => (dA inferInstance (dOkD fun _ _ => inferInstance)))))) (by decide +kernel)⟩,
   ⟨managementCommandsAreRouted_7_s, 0, 0, chk (dA inferInstance (dA inferInstance (dA inferInstance (dSome fun _ => (dA inferInstance (dOkD fun _ _ => inferInstance)))))) (by decide +kernel)⟩,
   ⟨managementCommandsAreRouted_8_s, 0, 0, chk (dA inferInstance (dA inferInstance (dA inferInstance (dSome fun _ => (dA inferInstance (dOkD fun _ _ => inferInstance)))))) (by decide +kernel)⟩,
   ⟨wMgJob [] 8, 2, [], by decide +kernel⟩⟩

/-- Management commands are checked, queued, claimed, answered and timed out: clauses 10, 11, 12, 13, 14, 15, 16, 17, 18, 19. -/
theorem witness_ManagementCommandsAreRouted_b :
    (∃ (s : State), ∃ (bus : Nat), ∃ (p : List Byte), s.running = true ∧ s.boot.romPending = false ∧ bus < 2 ∧ p.length ≤ 65569 ∧ s.mgmt.mctpOut.length < 4 ∧ ∃ (st : Nat), s.mgmtCheck 1 (s.goesOut p) p = some st ∧ True) ∧
    (∃ (s : State), ∃ (bus : Nat), ∃ (p : List Byte), s.running = true ∧ s.boot.romPending = false ∧ bus < 2 ∧ p.length ≤ 65569 ∧ 4 ≤ s.mgmt.mctpOut.length ∧ ∃ (st : Nat), s.mgmtCheck 1 (s.goesOut p) p = some st ∧ True) ∧
    (∃ (s : State), ∃ (bus : Nat), ∃ (p : List Byte), s.running = true ∧ s.boot.romPending = false ∧ bus < 2 ∧ p.length ≤ 65569 ∧ 4 ≤ s.mgmt.mctpOut.length ∧ s.mgmtCheck 1 (s.goesOut p) p = none ∧ s.goesOut p = false ∧ 4 ≤ (List.filter (fun (x : MgmtCmd) => decide (x.route = 1)) s.mgmt.queue).length) ∧
    (∃ (s : State), ∃ (bus : Nat), ∃ (p : List Byte), s.running = true ∧ s.boot.romPending = false ∧ bus < 2 ∧ p.length ≤ 65569 ∧ 4 ≤ s.mgmt.mctpOut.length ∧ s.mgmtCheck 1 (s.goesOut p) p = none ∧ s.goesOut p = true ∧ s.relayable (packetTarget p) = false) ∧
    (∃ (s : State), ∃ (bus : Nat), ∃ (p : List Byte), s.running = true ∧ s.boot.romPending = false ∧ bus < 2 ∧ p.length ≤ 65569 ∧ s.mgmtCheck 1 (s.goesOut p) p = none ∧ s.goesOut p = false ∧ (List.filter (fun (x : MgmtCmd) => decide (x.route = 1)) s.mgmt.queue).length < 4) ∧
    (∃ (s : State), ∃ (bus : Nat), ∃ (p : List Byte), s.running = true ∧ s.boot.romPending = false ∧ bus < 2 ∧ p.length ≤ 65569 ∧ s.mgmtCheck 1 (s.goesOut p) p = none ∧ s.goesOut p = false ∧ 4 ≤ (List.filter (fun (x : MgmtCmd) => decide (x.route = 1)) s.mgmt.queue).length ∧ s.mgmt.mctpOut.length < 4) ∧
    (∃ (s : State), ∃ (bus : Nat), ∃ (p : List Byte), s.running = true ∧ s.boot.romPending = false ∧ bus < 2 ∧ p.length ≤ 65569 ∧ s.mgmtCheck 1 (s.goesOut p) p = none ∧ s.goesOut p = true ∧ s.relayable (packetTarget p) = false ∧ s.mgmt.mctpOut.length < 4) ∧
    (∃ (s : State), ∃ (bus : Nat), ∃ (p : List Byte), s.running = true ∧ s.boot.romPending = false ∧ bus < 2 ∧ p.length ≤ 65569 ∧ s.mgmtCheck 1 (s.goesOut p) p = none ∧ s.goesOut p = true ∧ s.relayable (packetTarget p) = true) ∧
    (∃ (s : State), ∃ (o : Nat), ∃ (ref : Nat), ∃ (route : Nat), ∃ (p : List Byte), s.running = true ∧ s.boot.romPending = false ∧ (s.boot.recovery = true ∨ s.fedState = fedAlone)) ∧
    (∃ (s : State), ∃ (o : Nat), ∃ (ref : Nat), ∃ (route : Nat), ∃ (p : List Byte), s.running = true ∧ s.boot.romPending = false ∧ s.boot.recovery = false ∧ s.fedState ≠ fedAlone ∧ ∃ (st : Nat), s.mgmtCheck route true p = some st ∧ True) :=
  ⟨⟨wMgJob [] 8, 0, [], chk (dA inferInstance (dA inferInstance (dA inferInstance (dA inferInstance (dA inferInstance (dSome fun _ => inferInstance)))))) (by decide +kernel)⟩,
   ⟨managementCommandsAreRouted_11_s, 0, List.replicate 32 0, chk (dA inferInstance (dA inferInstance (dA inferInstance (dA inferInstance (dA inferInstance (dSome fun _ => inferInstance)))))) (by decide +kernel)⟩,
   (by refine ⟨{ wMgQ wUp (List.replicate 4 { route := 1, opcode := 0x0703 }) with mgmt.mctpOut := List.replicate 4 (1, [], 0) }, 0, wMgPkt 0x0703 0 0, ?_⟩; decide +kernel),
   (by refine ⟨{ wUp with mgmt.mctpOut := List.replicate 4 (1, [], 0) }, 0, wMgPkt 0x0703 1 2, ?_⟩; decide +kernel),
   ⟨wMgJob [] 8, 0, wMgPkt 0x0703 0 0, by decide +kernel⟩,
   (by refine ⟨wMgQ wUp (List.replicate 4 { route := 1, opcode := 0x0703 }), 0, wMgPkt 0x0703 0 0, ?_⟩; decide +kernel),
   ⟨wMgJob [] 8, 0, wMgPkt 0x0703 1 2, by decide +kernel⟩,
   ⟨wMem, 0, wMgPkt 0x0703 1 2, by decide +kernel⟩,
   ⟨wMgJob [] 8, 0, 1, 0, [], by decide +kernel⟩,
   ⟨wMem, 0, 1, 0, [], chk (dA inferInstance (dA inferInstance (dA inferInstance (dA inferInstance (dSome fun _ => inferInstance))))) (by decide +kernel)⟩⟩

/-- Management commands are checked, queued, claimed, answered and timed out: clauses 20, 21, 22, 23, 24, 25, 26, 27, 28, 29. -/
theorem witness_ManagementCommandsAreRouted_c :
    (∃ (s : State), ∃ (o : Nat), ∃ (ref : Nat), ∃ (route : Nat), ∃ (p : List Byte), s.running = true ∧ s.boot.romPending = false ∧ s.boot.recovery = false ∧ s.fedState ≠ fedAlone ∧ s.mgmtCheck route true p = none) ∧
    (∃ (s : State), ∃ (ref : Nat), ∃ (p : List Byte), s.running = true ∧ s.boot.romPending = false ∧ takeFirst (fun (r : RelayOut) => decide (r.ref = ref)) s.mgmt.relays = none) ∧
    (∃ (s : State), ∃ (ref : Nat), ∃ (p : List Byte), s.running = true ∧ s.boot.romPending = false ∧ ∃ (r : RelayOut), ∃ (rest : List RelayOut), takeFirst (fun (r : RelayOut) => decide (r.ref = ref)) s.mgmt.relays = some (r, rest) ∧ ∃ (s1 : State), s.deliver r.cmd p = (s1, true) ∧ True) ∧
    (∃ (s : State), ∃ (ref : Nat), ∃ (p : List Byte), s.running = true ∧ s.boot.romPending = false ∧ ∃ (r : RelayOut), ∃ (rest : List RelayOut), takeFirst (fun (r : RelayOut) => decide (r.ref = ref)) s.mgmt.relays = some (r, rest) ∧ ∃ (s1 : State), s.deliver r.cmd p = (s1, false) ∧ True) ∧
    (∃ (s : State), ∃ (ref : Nat), ∃ (p : List Byte), s.running = true ∧ s.boot.romPending = false ∧ takeFirst (fun (r : RelayOut) => decide (r.ref = ref)) s.mgmt.relays = none) ∧
    (∃ (s : State), ∃ (ref : Nat), ∃ (p : List Byte), s.running = true ∧ s.boot.romPending = false ∧ ∃ (r : RelayOut), ∃ (rest : List RelayOut), takeFirst (fun (r : RelayOut) => decide (r.ref = ref)) s.mgmt.relays = some (r, rest) ∧ s.timeoutOf r.cmd + 10 * ticksPerMs ≤ s.clockOf r.cmd) ∧
    (∃ (s : State), ∃ (ref : Nat), ∃ (p : List Byte), s.running = true ∧ s.boot.romPending = false ∧ ∃ (r : RelayOut), ∃ (rest : List RelayOut), takeFirst (fun (r : RelayOut) => decide (r.ref = ref)) s.mgmt.relays = some (r, rest) ∧ s.clockOf r.cmd < s.timeoutOf r.cmd + 10 * ticksPerMs) ∧
    (∃ (s : State), ∃ (ref : Nat), ∃ (p : List Byte), s.running = true ∧ s.boot.romPending = false ∧ s.mgmt.mctpOut.length < 4 ∧ ∃ (r : RelayOut), ∃ (rest : List RelayOut), takeFirst (fun (r : RelayOut) => decide (r.ref = ref)) s.mgmt.relays = some (r, rest) ∧ s.timeoutOf r.cmd + 10 * ticksPerMs ≤ s.clockOf r.cmd ∧ r.cmd.route = 1) ∧
    (∃ (s : State), s.running = true ∧ s.boot.romPending = false ∧ s.mgmt.holder = none ∧ ∃ (c : MgmtCmd), ∃ (rest : List MgmtCmd), oldestOf s.mgmt.queue 2 = some (c, rest) ∧ True) ∧
    (∃ (s : State), s.running = true ∧ s.boot.romPending = false ∧ s.mgmt.holder = none ∧ oldestOf s.mgmt.queue 2 = none ∧ ∃ (c : MgmtCmd), ∃ (rest : List MgmtCmd), List.findSome? (oldestOf s.mgmt.queue) (rotation s.mgmt.lastRoute) = some (c, rest) ∧ True) :=
  ⟨⟨wMem, 0, 1, 0, wMgPkt 0x0703 0 0, by decide +kernel⟩,
   ⟨wMgJob [] 8, 1, [], by decide +kernel⟩,
   ⟨managementCommandsAreRouted_22_s, 1, [], chk (dA inferInstance (dA inferInstance (dSome2 fun _ _ => (dPC fun _ => inferInstance)))) (by decide +kernel)⟩,
   ⟨managementCommandsAreRouted_23_s, 1, wMgPkt 0x0703 0 0, chk (dA inferInstance (dA inferInstance (dSome2 fun _ _ => (dPC fun _ => inferInstance)))) (by decide +kernel)⟩,
   ⟨wMgJob [] 8, 1, [], by decide +kernel⟩,
   ⟨managementCommandsAreRouted_25_s, 1, [], chk (dA inferInstance (dA inferInstance (dSome2 fun _ _ => inferInstance))) (by decide +kernel)⟩,
   ⟨managementCommandsAreRouted_26_s, 1, [], chk (dA inferInstance (dA inferInstance (dSome2 fun _ _ => inferInstance))) (by decide +kernel)⟩,
   ⟨managementCommandsAreRouted_27_s, 1, [], chk (dA inferInstance (dA inferInstance (dA inferInstance (dSome2 fun _ _ => inferInstance)))) (by decide +kernel)⟩,
   ⟨managementCommandsAreRouted_28_s, chk (dA inferInstance (dA inferInstance (dA inferInstance (dSome2 fun _ _ => inferInstance)))) (by decide +kernel)⟩,
   ⟨managementCommandsAreRouted_29_s, chk (dA inferInstance (dA inferInstance (dA inferInstance (dA inferInstance (dSome2 fun _ _ => inferInstance))))) (by decide +kernel)⟩⟩

/-- Management commands are checked, queued, claimed, answered and timed out: clauses 30, 31, 32, 33, 34, 35, 36, 37, 38, 39. -/
theorem witness_ManagementCommandsAreRouted_d :
    (∃ (s : State), s.running = true ∧ s.boot.romPending = false ∧ s.mgmt.holder = none ∧ List.findSome? (oldestOf s.mgmt.queue) (2 :: rotation s.mgmt.lastRoute) = none) ∧
    (∃ (s : State), s.running = true ∧ s.boot.romPending = false ∧ s.mgmt.holder = none) ∧
    (∃ (s : State), s.running = true ∧ s.boot.romPending = false ∧ ∃ (h : Holder), s.mgmt.holder = some h ∧ (h.cmd.route = 2 ∨ oldestOf s.mgmt.queue 2 = none)) ∧
    (∃ (s : State), s.running = true ∧ s.boot.romPending = false ∧ ∃ (h : Holder), s.mgmt.holder = some h ∧ h.delivered = true ∧ (h.cmd.route = 2 ∨ s.jobOpen h.cmd = true) ∧ ∃ (r : MgmtReply), h.reply = some r ∧ True) ∧
    (∃ (s : State), s.running = true ∧ s.boot.romPending = false ∧ s.pcie.annex.discarded = true ∧ ∃ (h : Holder), s.mgmt.holder = some h ∧ h.delivered = false ∧ h.cmd.route = 2 ∧ ∃ (r : MgmtReply), h.reply = some r ∧ True) ∧
    (∃ (s : State), s.running = true ∧ s.boot.romPending = false ∧ ∃ (h : Holder), s.mgmt.holder = some h ∧ h.delivered = false ∧ ¬(h.cmd.route = 2 ∧ s.pcie.annex.discarded = true) ∧ ∃ (r : MgmtReply), h.reply = some r ∧ ∃ (s1 : State), s.answer h.cmd r = (s1, false) ∧ True) ∧
    (∃ (s : State), s.running = true ∧ s.boot.romPending = false ∧ ∃ (h : Holder), s.mgmt.holder = some h ∧ h.delivered = false ∧ ¬(h.cmd.route = 2 ∧ s.pcie.annex.discarded = true) ∧ ∃ (r : MgmtReply), h.reply = some r ∧ ∃ (s1 : State), s.answer h.cmd r = (s1, true) ∧ (h.cmd.route = 2 ∨ (s1.afterReply r).jobOpen h.cmd = true)) ∧
    (∃ (s : State), s.running = true ∧ s.boot.romPending = false ∧ ∃ (h : Holder), s.mgmt.holder = some h ∧ h.delivered = false ∧ ¬(h.cmd.route = 2 ∧ s.pcie.annex.discarded = true) ∧ h.cmd.route ≠ 2 ∧ ∃ (r : MgmtReply), h.reply = some r ∧ ∃ (s1 : State), s.answer h.cmd r = (s1, true) ∧ (s1.afterReply r).jobOpen h.cmd = false) ∧
    (∃ (s : State), s.running = true ∧ s.boot.romPending = false ∧ ∃ (h : Holder), s.mgmt.holder = some h ∧ h.cmd.route ≠ 2 ∧ ∃ (c : MgmtCmd), ∃ (rest : List MgmtCmd), oldestOf s.mgmt.queue 2 = some (c, rest) ∧ True) ∧
    (∃ (s : State), s.running = true ∧ s.boot.romPending = false ∧ ∃ (h : Holder), s.mgmt.holder = some h ∧ h.reply = none) :=
  ⟨⟨wMgJob [] 8, by decide +kernel⟩,
   ⟨wMgJob [] 8, by decide +kernel⟩,
   ⟨managementCommandsAreRouted_32_s, chk (dA inferInstance (dA inferInstance (dSome fun _ => inferInstance))) (by decide +kernel)⟩,
   ⟨managementCommandsAreRouted_33_s, chk (dA inferInstance (dA inferInstance (dSome fun _ => (dA inferInstance (dA inferInstance (dSome fun _ => inferInstance)))))) (by decide +kernel)⟩,
   ⟨managementCommandsAreRouted_34_s, chk (dA inferInstance (dA inferInstance (dA inferInstance (dSome fun _ => (dA inferInstance (dA inferInstance (dSome fun _ => inferInstance))))))) (by decide +kernel)⟩,
   ⟨managementCommandsAreRouted_35_s, chk (dA inferInstance (dA inferInstance (dSome fun _ => (dA inferInstance (dA inferInstance (dSome fun _ => (dPC fun _ => inferInstance))))))) (by decide +kernel)⟩,
   ⟨managementCommandsAreRouted_36_s, chk (dA inferInstance (dA inferInstance (dSome fun _ => (dA inferInstance (dA inferInstance (dSome fun _ => (dPC fun _ => inferInstance))))))) (by decide +kernel)⟩,
   ⟨managementCommandsAreRouted_37_s, chk (dA inferInstance (dA inferInstance (dSome fun _ => (dA inferInstance (dA inferInstance (dA inferInstance (dSome fun _ => (dPC fun _ => inferInstance)))))))) (by decide +kernel)⟩,
   ⟨managementCommandsAreRouted_38_s, chk (dA inferInstance (dA inferInstance (dSome fun _ => (dA inferInstance (dSome2 fun _ _ => inferInstance))))) (by decide +kernel)⟩,
   ⟨managementCommandsAreRouted_39_s, chk (dA inferInstance (dA inferInstance (dSome fun _ => inferInstance))) (by decide +kernel)⟩⟩

/-- Management commands are checked, queued, claimed, answered and timed out: clauses 40, 41, 42, 43, 44, 45, 46, 47, 48, 49. -/
theorem witness_ManagementCommandsAreRouted_e :
    (∃ (s : State), s.running = true ∧ s.boot.romPending = false ∧ s.mgmt.mctpOut.length < 4 ∧ ∃ (h : Holder), s.mgmt.holder = some h ∧ h.delivered = false ∧ h.cmd.route = 1 ∧ h.cmd.job = none ∧ ∃ (r : MgmtReply), h.reply = some r ∧ r.resets = false ∧ r.item = none) ∧
    (∃ (s : State), s.running = true ∧ s.boot.romPending = false ∧ ∃ (h : Holder), s.mgmt.holder = some h ∧ h.delivered = true ∧ h.cmd.route ≠ 2 ∧ s.jobOpen h.cmd = false ∧ ∃ (r : MgmtReply), h.reply = some r ∧ True) ∧
    (∃ (s : State), s.running = true ∧ s.boot.romPending = false) ∧
    (∃ (s : State), ∃ (n : Nat), s.running = true ∧ s.boot.romPending = false ∧ n ≠ 2 ∧ takeFirst (fun (c : MgmtCmd) => decide (c.route = n ∧ s.timeoutOf c ≤ s.clockOf c)) s.mgmt.queue = none) ∧
    (∃ (s : State), ∃ (n : Nat), s.running = true ∧ s.boot.romPending = false ∧ n ≠ 2 ∧ ∃ (c : MgmtCmd), ∃ (rest : List MgmtCmd), takeFirst (fun (c : MgmtCmd) => decide (c.route = n ∧ s.timeoutOf c ≤ s.clockOf c)) s.mgmt.queue = some (c, rest) ∧ True) ∧
    (∃ (s : State), ∃ (ok : Bool), s.running = true ∧ s.boot.romPending = false ∧ s.mgmt.mctpOut = []) ∧
    (∃ (s : State), s.running = true ∧ s.boot.romPending = false ∧ s.mgmt.mctpOut.length < 4 ∧ ∃ (c : MgmtCmd), ∃ (rest : List MgmtCmd), takeFirst (fun (c : MgmtCmd) => decide (c.route = 1 ∧ s.timeoutOf c ≤ s.clockOf c)) s.mgmt.queue = some (c, rest) ∧ True) ∧
    (∃ (s : State), ∃ (bus : Nat), ∃ (m : List Byte), ∃ (n : Nat), ∃ (rest : List (Nat × List Byte × Nat)), s.running = true ∧ s.boot.romPending = false ∧ s.mgmt.mctpOut = (bus, m, n) :: rest) ∧
    (∃ (s : State), ∃ (bus : Nat), ∃ (m : List Byte), ∃ (n : Nat), ∃ (rest : List (Nat × List Byte × Nat)), s.running = true ∧ s.boot.romPending = false ∧ s.mgmt.mctpOut = (bus, m, n) :: rest ∧ n < 2) ∧
    (∃ (s : State), ∃ (bus : Nat), ∃ (m : List Byte), ∃ (n : Nat), ∃ (rest : List (Nat × List Byte × Nat)), s.running = true ∧ s.boot.romPending = false ∧ s.mgmt.mctpOut = (bus, m, n) :: rest ∧ 2 ≤ n) :=
  ⟨⟨managementCommandsAreRouted_40_s, chk (dA inferInstance (dA inferInstance (dA inferInstance (dSome fun _ => (dA inferInstance (dA inferInstance (dA inferInstance (dSome fun _ => inferInstance)))))))) (by decide +kernel)⟩,
   ⟨managementCommandsAreRouted_41_s, chk (dA inferInstance (dA inferInstance (dSome fun _ => (dA inferInstance (dA inferInstance (dA inferInstance (dSome fun _ => inferInstance))))))) (by decide +kernel)⟩,
   ⟨wMgJob [] 8, by decide +kernel⟩,
   ⟨wMgJob [] 8, 0, by decide +kernel⟩,
   ⟨managementCommandsAreRouted_44_s, 1, chk (dA inferInstance (dA inferInstance (dA inferInstance (dSome2 fun _ _ => inferInstance)))) (by decide +kernel)⟩,
   ⟨wMgJob [] 8, false, by decide +kernel⟩,
   ⟨managementCommandsAreRouted_46_s, chk (dA inferInstance (dA inferInstance (dA inferInstance (dSome2 fun _ _ => inferInstance)))) (by decide +kernel)⟩,
   (by refine ⟨managementCommandsAreRouted_47_s, (hd managementCommandsAreRouted_47_s.mgmt.mctpOut (by decide +kernel)).fst, (hd managementCommandsAreRouted_47_s.mgmt.mctpOut (by decide +kernel)).snd.fst, (hd managementCommandsAreRouted_47_s.mgmt.mctpOut (by decide +kernel)).snd.snd, managementCommandsAreRouted_47_s.mgmt.mctpOut.tail, ?_⟩; decide +kernel),
   (by refine ⟨managementCommandsAreRouted_48_s, (hd managementCommandsAreRouted_48_s.mgmt.mctpOut (by decide +kernel)).fst, (hd managementCommandsAreRouted_48_s.mgmt.mctpOut (by decide +kernel)).snd.fst, (hd managementCommandsAreRouted_48_s.mgmt.mctpOut (by decide +kernel)).snd.snd, managementCommandsAreRouted_48_s.mgmt.mctpOut.tail, ?_⟩; decide +kernel),
   (by refine ⟨managementCommandsAreRouted_49_s, (hd managementCommandsAreRouted_49_s.mgmt.mctpOut (by decide +kernel)).fst, (hd managementCommandsAreRouted_49_s.mgmt.mctpOut (by decide +kernel)).snd.fst, (hd managementCommandsAreRouted_49_s.mgmt.mctpOut (by decide +kernel)).snd.snd, managementCommandsAreRouted_49_s.mgmt.mctpOut.tail, ?_⟩; decide +kernel)⟩

/-- Management commands are checked, queued, claimed, answered and timed out: clauses 50. -/
theorem witness_ManagementCommandsAreRouted_f :
    ∃ (s : State), s.running = true ∧ s.boot.romPending = false :=
  ⟨wMgJob [] 8, by decide +kernel⟩

def annexAndControlMessages_7_s : State :=
  wF (wMg wUp { wHolder 0x10001 [] 2 with started := true, reply := some { status := 0 }, delivered := true }) [(F.ANX_STATUS_STATE, 3)]

def annexAndControlMessages_12_s : State :=
  { wF (wMg wUp { wHolder 0x10001 [] 2 with started := true, reply := some { status := 0 }, delivered := true }) [(F.ANX_STATUS_STATE, 3)] with time.mono := 20000000000 }

def annexAndControlMessages_13_s : State :=
  wF (wMg wUp { wHolder 0x10001 [] 2 with started := true, reply := some { status := 0 }, delivered := true }) [(F.ANX_STATUS_STATE, 3)]

def annexAndControlMessages_30_s : State :=
  w1 wUp F.ANX_STATUS_STATE 1

/-- The Annex Mailbox, the MCTP control messages and NVMe-MI: clauses 0, 1, 2, 3, 4, 5, 6, 7, 8, 9. -/
theorem witness_AnnexAndControlMessages_a :
    (∃ (s : State), ∃ (g : Agent), ∃ (op : Nat), s.slicesUp = true ∧ accessOk R.ANX_OPCODE true g = false) ∧
    (∃ (s : State), ∃ (g : Agent), s.slicesUp = true ∧ accessOk R.ANX_STATUS true g = false) ∧
    (∃ (s : State), ∃ (g : Agent), ∃ (op : Nat), s.slicesUp = true ∧ accessOk R.ANX_OPCODE true g = true ∧ op < 65536 ∧ s.fld F.ANX_STATUS_STATE ≠ 0 ∧ s.fld F.ANX_STATUS_STATE ≠ 4) ∧
    (∃ (s : State), ∃ (g : Agent), ∃ (op : Nat), s.slicesUp = true ∧ accessOk R.ANX_OPCODE true g = true ∧ op < 65536 ∧ (s.fld F.ANX_STATUS_STATE = 0 ∨ s.fld F.ANX_STATUS_STATE = 4) ∧ 3968 < s.fld F.ANX_LENGTH) ∧
    (∃ (s : State), ∃ (g : Agent), ∃ (op : Nat), s.slicesUp = true ∧ accessOk R.ANX_OPCODE true g = true ∧ op < 65536 ∧ (s.fld F.ANX_STATUS_STATE = 0 ∨ s.fld F.ANX_STATUS_STATE = 4) ∧ s.fld F.ANX_LENGTH ≤ 3968 ∧ annexOpcodes.contains op = false) ∧
    (∃ (s : State), ∃ (g : Agent), ∃ (op : Nat), s.slicesUp = true ∧ accessOk R.ANX_OPCODE true g = true ∧ op < 65536 ∧ (s.fld F.ANX_STATUS_STATE = 0 ∨ s.fld F.ANX_STATUS_STATE = 4) ∧ s.fld F.ANX_LENGTH ≤ 3968 ∧ annexOpcodes.contains op = true ∧ (op < 32 ∨ 34 < op ∨ s.on F.BOOT_CUSTODY_LOCKED = false)) ∧
    (∃ (s : State), ∃ (g : Agent), ∃ (op : Nat), s.slicesUp = true ∧ accessOk R.ANX_OPCODE true g = true ∧ op < 65536 ∧ (s.fld F.ANX_STATUS_STATE = 0 ∨ s.fld F.ANX_STATUS_STATE = 4) ∧ s.fld F.ANX_LENGTH ≤ 3968 ∧ 32 ≤ op ∧ op ≤ 34 ∧ s.on F.BOOT_CUSTODY_LOCKED = true) ∧
    (∃ (s : State), ∃ (g : Agent), s.slicesUp = true ∧ accessOk R.ANX_STATUS true g = true ∧ s.fld F.ANX_STATUS_STATE = 3 ∧ ∃ (h : Holder), s.mgmt.holder = some h ∧ h.cmd.route = 2 ∧ h.delivered = true) ∧
    (∃ (s : State), ∃ (g : Agent), s.slicesUp = true ∧ accessOk R.ANX_STATUS true g = true ∧ (∀ (h : Holder), s.mgmt.holder = some h → h.cmd.route ≠ 2 ∨ h.delivered = false) ∧ s.fld F.ANX_STATUS_STATE = 3) ∧
    (∃ (s : State), ∃ (g : Agent), s.slicesUp = true ∧ accessOk R.ANX_STATUS true g = true ∧ s.fld F.ANX_STATUS_STATE = 4) :=
  ⟨⟨w1 wUp F.ANX_STATUS_STATE 1, .keeper, 0x20, by decide +kernel⟩,
   ⟨w1 wUp F.ANX_STATUS_STATE 1, .keeper, by decide +kernel⟩,
   ⟨w1 wUp F.ANX_STATUS_STATE 1, .manager, 0x20, by decide +kernel⟩,
   ⟨w1 wUp F.ANX_LENGTH 4000, .manager, 0x20, by decide +kernel⟩,
   ⟨w1 wUp F.BOOT_CUSTODY_LOCKED 1, .manager, 0, by decide +kernel⟩,
   ⟨w1 wUp F.BOOT_CUSTODY_LOCKED 1, .manager, 1, by decide +kernel⟩,
   ⟨w1 wUp F.BOOT_CUSTODY_LOCKED 1, .manager, 0x20, by decide +kernel⟩,
   ⟨annexAndControlMessages_7_s, .manager, chk (dA inferInstance (dA inferInstance (dA inferInstance (dSome fun _ => inferInstance)))) (by decide +kernel)⟩,
   ⟨w1 wUp F.ANX_STATUS_STATE 3, .manager, by decide +kernel⟩,
   ⟨w1 wUp F.ANX_STATUS_STATE 4, .manager, by decide +kernel⟩⟩

/-- The Annex Mailbox, the MCTP control messages and NVMe-MI: clauses 10, 11, 12, 13, 14, 15, 16, 17, 18, 19. -/
theorem witness_AnnexAndControlMessages_b :
    (∃ (s : State), ∃ (g : Agent), s.slicesUp = true ∧ accessOk R.ANX_STATUS true g = true ∧ s.fld F.ANX_STATUS_STATE ≠ 3 ∧ s.fld F.ANX_STATUS_STATE ≠ 4) ∧
    (∃ (s : State), s.slicesUp = true ∧ (s.fld F.ANX_STATUS_STATE ≠ 3 ∨ ∀ (h : Holder), s.mgmt.holder = some h → h.cmd.route ≠ 2 ∨ h.delivered = false)) ∧
    (∃ (s : State), s.slicesUp = true ∧ s.fld F.ANX_STATUS_STATE = 3 ∧ s.pcie.annex.doneAt + (s.pcie.annex.logged + 1) * ticksPerSec < s.time.mono ∧ ∃ (h : Holder), s.mgmt.holder = some h ∧ h.cmd.route = 2 ∧ h.delivered = true) ∧
    (∃ (s : State), s.slicesUp = true ∧ s.fld F.ANX_STATUS_STATE = 3 ∧ s.time.mono ≤ s.pcie.annex.doneAt + (s.pcie.annex.logged + 1) * ticksPerSec ∧ ∃ (h : Holder), s.mgmt.holder = some h ∧ h.cmd.route = 2 ∧ h.delivered = true) ∧
    (∃ (s : State), ∃ (bus : Nat), ∃ (iid : Nat), ∃ (n : Nat), ∃ (eid : Nat), ∃ (kind : Nat), ∃ (i : Nat), ∃ (arg : Nat), ∃ (value : Nat), ∃ (sqe : List Byte), s.running = true ∧ s.boot.romPending = false ∧ 2 ≤ bus) ∧
    (∃ (s : State), ∃ (bus : Nat), ∃ (iid : Nat), ∃ (n : Nat), ∃ (eid : Nat), ∃ (kind : Nat), ∃ (i : Nat), ∃ (arg : Nat), ∃ (value : Nat), ∃ (sqe : List Byte), s.running = true ∧ s.boot.romPending = false ∧ 2 ≤ bus) ∧
    (∃ (s : State), ∃ (bus : Nat), ∃ (iid : Nat), ∃ (n : Nat), ∃ (eid : Nat), ∃ (kind : Nat), ∃ (i : Nat), ∃ (arg : Nat), ∃ (value : Nat), ∃ (sqe : List Byte), s.running = true ∧ s.boot.romPending = false ∧ 2 ≤ bus) ∧
    (∃ (s : State), ∃ (bus : Nat), ∃ (iid : Nat), ∃ (n : Nat), ∃ (eid : Nat), ∃ (kind : Nat), ∃ (i : Nat), ∃ (arg : Nat), ∃ (value : Nat), ∃ (sqe : List Byte), s.running = true ∧ s.boot.romPending = false ∧ 2 ≤ bus) ∧
    (∃ (s : State), ∃ (bus : Nat), ∃ (iid : Nat), ∃ (n : Nat), ∃ (eid : Nat), ∃ (kind : Nat), ∃ (i : Nat), ∃ (arg : Nat), ∃ (value : Nat), ∃ (sqe : List Byte), s.running = true ∧ s.boot.romPending = false ∧ 2 ≤ bus) ∧
    (∃ (s : State), ∃ (bus : Nat), ∃ (iid : Nat), ∃ (n : Nat), ∃ (eid : Nat), ∃ (kind : Nat), ∃ (i : Nat), ∃ (arg : Nat), ∃ (value : Nat), ∃ (sqe : List Byte), s.running = true ∧ s.boot.romPending = false ∧ (2 ≤ bus ∨ 8 ≤ kind ∨ s.boot.recovery = true)) :=
  ⟨⟨w1 wUp F.ANX_STATUS_STATE 1, .manager, by decide +kernel⟩,
   ⟨w1 wUp F.ANX_STATUS_STATE 1, by decide +kernel⟩,
   ⟨annexAndControlMessages_12_s, chk (dA inferInstance (dA inferInstance (dA inferInstance (dSome fun _ => inferInstance)))) (by decide +kernel)⟩,
   ⟨annexAndControlMessages_13_s, chk (dA inferInstance (dA inferInstance (dA inferInstance (dSome fun _ => inferInstance)))) (by decide +kernel)⟩,
   ⟨w1 wUp F.ANX_STATUS_STATE 1, 2, 0, 0, 0, 0, 0, 0, 0, [], by decide +kernel⟩,
   ⟨w1 wUp F.ANX_STATUS_STATE 1, 2, 0, 0, 0, 0, 0, 0, 0, [], by decide +kernel⟩,
   ⟨w1 wUp F.ANX_STATUS_STATE 1, 2, 0, 0, 0, 0, 0, 0, 0, [], by decide +kernel⟩,
   ⟨w1 wUp F.ANX_STATUS_STATE 1, 2, 0, 0, 0, 0, 0, 0, 0, [], by decide +kernel⟩,
   ⟨w1 wUp F.ANX_STATUS_STATE 1, 2, 0, 0, 0, 0, 0, 0, 0, [], by decide +kernel⟩,
   ⟨w1 wUp F.ANX_STATUS_STATE 1, 0, 0, 0, 0, 8, 0, 0, 0, [], by decide +kernel⟩⟩

/-- The Annex Mailbox, the MCTP control messages and NVMe-MI: clauses 20, 21, 22, 23, 24, 25, 26, 27, 28, 29. -/
theorem witness_AnnexAndControlMessages_c :
    (∃ (s : State), ∃ (bus : Nat), ∃ (iid : Nat), ∃ (n : Nat), ∃ (eid : Nat), s.running = true ∧ s.boot.romPending = false ∧ bus < 2 ∧ n < 2 ∧ eid ≠ 0 ∧ eid < 255) ∧
    (∃ (s : State), ∃ (bus : Nat), ∃ (iid : Nat), ∃ (n : Nat), ∃ (eid : Nat), s.running = true ∧ s.boot.romPending = false ∧ bus < 2 ∧ (2 ≤ n ∨ eid = 0 ∨ 255 ≤ eid)) ∧
    (∃ (s : State), ∃ (bus : Nat), ∃ (iid : Nat), ∃ (n : Nat), ∃ (eid : Nat), s.running = true ∧ s.boot.romPending = false ∧ bus < 2) ∧
    (∃ (s : State), ∃ (bus : Nat), ∃ (iid : Nat), ∃ (n : Nat), ∃ (eid : Nat), s.running = true ∧ s.boot.romPending = false ∧ bus < 2 ∧ (n = 255 ∨ n = 0 ∨ n = 4 ∨ n = 126)) ∧
    (∃ (s : State), ∃ (bus : Nat), ∃ (iid : Nat), ∃ (n : Nat), ∃ (eid : Nat), s.running = true ∧ s.boot.romPending = false ∧ bus < 2 ∧ n ≠ 255 ∧ n ≠ 0 ∧ n ≠ 4 ∧ n ≠ 126) ∧
    (∃ (s : State), ∃ (bus : Nat), ∃ (iid : Nat), ∃ (n : Nat), ∃ (eid : Nat), s.running = true ∧ s.boot.romPending = false ∧ bus < 2) ∧
    (∃ (s : State), ∃ (bus : Nat), ∃ (iid : Nat), ∃ (n : Nat), ∃ (eid : Nat), s.running = true ∧ s.boot.romPending = false ∧ bus < 2) ∧
    (∃ (s : State), ∃ (bus : Nat), ∃ (iid : Nat), ∃ (n : Nat), ∃ (eid : Nat), s.running = true ∧ s.boot.romPending = false ∧ bus < 2 ∧ n ≠ 0) ∧
    (∃ (s : State), ∃ (bus : Nat), ∃ (kind : Nat), ∃ (i : Nat), ∃ (arg : Nat), ∃ (value : Nat), ∃ (sqe : List Byte), s.running = true ∧ s.boot.romPending = false ∧ s.boot.recovery = false ∧ bus < 2 ∧ kind < 6 ∧ kind ≠ 4) ∧
    (∃ (s : State), ∃ (bus : Nat), ∃ (kind : Nat), ∃ (i : Nat), ∃ (arg : Nat), ∃ (value : Nat), ∃ (sqe : List Byte), s.running = true ∧ s.boot.romPending = false ∧ s.boot.recovery = false ∧ bus < 2) :=
  ⟨⟨w1 wUp F.ANX_STATUS_STATE 1, 0, 0, 0, 1, by decide +kernel⟩,
   ⟨w1 wUp F.ANX_STATUS_STATE 1, 0, 0, 0, 0, by decide +kernel⟩,
   ⟨w1 wUp F.ANX_STATUS_STATE 1, 0, 0, 0, 0, by decide +kernel⟩,
   ⟨w1 wUp F.ANX_STATUS_STATE 1, 0, 0, 0, 0, by decide +kernel⟩,
   ⟨w1 wUp F.ANX_STATUS_STATE 1, 0, 0, 1, 0, by decide +kernel⟩,
   ⟨w1 wUp F.ANX_STATUS_STATE 1, 0, 0, 0, 0, by decide +kernel⟩,
   ⟨w1 wUp F.ANX_STATUS_STATE 1, 0, 0, 0, 0, by decide +kernel⟩,
   ⟨w1 wUp F.ANX_STATUS_STATE 1, 0, 0, 1, 0, by decide +kernel⟩,
   ⟨w1 wUp F.ANX_STATUS_STATE 1, 0, 0, 0, 0, 0, [], by decide +kernel⟩,
   ⟨w1 wUp F.ANX_STATUS_STATE 1, 0, 0, 0, 0, 0, [], by decide +kernel⟩⟩

/-- The Annex Mailbox, the MCTP control messages and NVMe-MI: clauses 30, 31. -/
theorem witness_AnnexAndControlMessages_d :
    (∃ (s : State), ∃ (bus : Nat), ∃ (i : Nat), ∃ (arg : Nat), ∃ (value : Nat), ∃ (sqe : List Byte), s.running = true ∧ s.boot.romPending = false ∧ s.boot.recovery = false ∧ bus < 2 ∧ ∃ (kind : Nat), 7 = kind ∧ True) ∧
    (∃ (s : State), ∃ (bus : Nat), ∃ (kind : Nat), ∃ (i : Nat), ∃ (arg : Nat), ∃ (value : Nat), ∃ (sqe : List Byte), s.running = true ∧ s.boot.romPending = false ∧ s.boot.recovery = false ∧ bus < 2) :=
  ⟨⟨annexAndControlMessages_30_s, 0, 0, 0, 0, [], chk (dA inferInstance (dA inferInstance (dA inferInstance (dA inferInstance (dVar fun _ => inferInstance))))) (by decide +kernel)⟩,
   ⟨w1 wUp F.ANX_STATUS_STATE 1, 0, 0, 0, 0, 0, [], by decide +kernel⟩⟩

def updateKeysCustodyAndConfiguration_16_s : State :=
  wOp (wRul 1 1) 0x0300 [2, 4096]

def updateKeysCustodyAndConfiguration_17_s : State :=
  wOp (wRul 0 1) 0x0300 [1, 4096]

def updateKeysCustodyAndConfiguration_18_s : State :=
  wOp (wRul 0 1) 0x0300 [2, 4095]

def updateKeysCustodyAndConfiguration_19_s : State :=
  wOp (wRul 0 1) 0x0300 [2, 4096]

def updateKeysCustodyAndConfiguration_20_s : State :=
  wOp { wRul 0 1 with boot.recovery := true } 0x0300 [2, 4096]

def updateKeysCustodyAndConfiguration_21_s : State :=
  { wOp (wSes (wRul 0 1) 2 4096 0) 0x0301 [] [1] with boot.custody := some [] }

def updateKeysCustodyAndConfiguration_22_s : State :=
  wOp (wRul 0 1) 0x0301 [] [1, 2, 3]

def updateKeysCustodyAndConfiguration_23_s : State :=
  wOp (wSes (wRul 0 1) 2 4096 8) 0x0301 [] [1, 2, 3]

def updateKeysCustodyAndConfiguration_24_s : State :=
  wMg (wSes (wRul 0 1) 2 4096 4095) { cmd := { route := 0, opcode := 0x0301, objOffset := 4095, payload := [1, 2, 3] } }

def updateKeysCustodyAndConfiguration_25_s : State :=
  wOp (wSes (wRul 0 1) 2 4096 0) 0x0301 [] [1, 2, 3]

def updateKeysCustodyAndConfiguration_26_s : State :=
  wMg (wSes (wRul 0 1) 0 4096 20) { cmd := { route := 0, opcode := 0x0301, objOffset := 20, payload := [0, 0, 0, 0] } }

def updateKeysCustodyAndConfiguration_27_s : State :=
  wOp (wSes { wRul 0 1 with boot.recovery := true } 2 4096 0) 0x0301 [] [1, 2, 3]

def updateKeysCustodyAndConfiguration_28_s : State :=
  wOp (wSes (wRul 0 1) 2 4096 0) 0x0301 [] [1, 2, 3]

def updateKeysCustodyAndConfiguration_29_s : State :=
  { wOp (wSes (wRul 0 1) 2 4096 4096) 0x0302 with boot.custody := some [] }

def updateKeysCustodyAndConfiguration_34_s : State :=
  wOp (wSes (wRul 0 1) 2 4096 4096) 0x0302

def updateKeysCustodyAndConfiguration_36_s : State :=
  wOp (wRul 0 1) 0x0303 [0, 3]

def updateKeysCustodyAndConfiguration_37_s : State :=
  wOp (wRul 0 1) 0x0303 [0, 2]

def updateKeysCustodyAndConfiguration_45_s : State :=
  wOp { wRul 1 1 with boot.flagA := some { seq := 5, active := 1, previous := 0, state := 1, boots := 0, activeDigest := noDigest, previousDigest := noDigest } } 0x0305

def updateKeysCustodyAndConfiguration_49_s : State :=
  { wOp wUp 0x0310 [3] with boot.revoked := [1, 2, 7, 0] }

def updateKeysCustodyAndConfiguration_52_s : State :=
  { wOp wUp 0x0320 [] (List.replicate 96 1) with boot.custody := some [] }

def updateKeysCustodyAndConfiguration_53_s : State :=
  wOp wUp 0x0320 [] (List.replicate 96 1)

def updateKeysCustodyAndConfiguration_54_s : State :=
  wOp wUp 0x0320 [] (List.replicate 96 1)

def updateKeysCustodyAndConfiguration_55_s : State :=
  wOp (w1 wUp F.RNG_STATUS_STATE 2) 0x0321

def updateKeysCustodyAndConfiguration_56_s : State :=
  wOp (w1 wUp F.RNG_STATUS_STATE 1) 0x0321

def updateKeysCustodyAndConfiguration_57_s : State :=
  wOp wUp 0x0322 [] (List.replicate 192 0)

def updateKeysCustodyAndConfiguration_62_s : State :=
  wOp (wRul 1 1) 0x0201 [2, 7]

def updateKeysCustodyAndConfiguration_63_s : State :=
  wOp (wRul 0 1) 0x0201 [9, 7]

def updateKeysCustodyAndConfiguration_64_s : State :=
  wOp (wRul 0 1) 0x0201 [2, 7]

def updateKeysCustodyAndConfiguration_65_s : State :=
  wOp (wRul 0 1) 0x0201 [2, 7]

def updateKeysCustodyAndConfiguration_66_s : State :=
  wOp (wSes (wRul 0 1) 2 4096 0) 0x10020 [0, 0x01000000] [1, 2, 3]

def updateKeysCustodyAndConfiguration_67_s : State :=
  wOp (wRul 0 1) 0x10020 [0x01000000, 0] ((List.range 12).map (fun _ => 0) ++ leBytes 4 4096)

def updateKeysCustodyAndConfiguration_68_s : State :=
  wOp (wRul 0 1) 0x10020 [0x01000000, 0] ((List.range 12).map (fun _ => 0) ++ leBytes 4 4096)

def updateKeysCustodyAndConfiguration_69_s : State :=
  wOp (wSes (wRul 0 1) 2 4096 4096) 0x10021

def updateKeysCustodyAndConfiguration_70_s : State :=
  wOp (wRul 0 1) 0x10022 [0]

/-- The opcodes of firmware update, key revocation, custody and configuration: clauses 0, 1, 2, 3, 4, 5, 6, 7, 8, 9. -/
theorem witness_UpdateKeysCustodyAndConfiguration_a :
    (∃ (nor : Bool), ∃ (s : State), s.slicesUp = true ∧ Option.any (fun (h : Holder) => !h.started && decide (h.cmd.opcode = 768)) s.mgmt.holder = false) ∧
    (∃ (nor : Bool), ∃ (s : State), s.slicesUp = true ∧ Option.any (fun (h : Holder) => !h.started && decide (h.cmd.opcode = 769)) s.mgmt.holder = false) ∧
    (∃ (nor : Bool), ∃ (s : State), s.slicesUp = true ∧ Option.any (fun (h : Holder) => !h.started && decide (h.cmd.opcode = 770)) s.mgmt.holder = false) ∧
    (∃ (nor : Bool), ∃ (s : State), s.slicesUp = true ∧ Option.any (fun (h : Holder) => !h.started && decide (h.cmd.opcode = 771)) s.mgmt.holder = false) ∧
    (∃ (nor : Bool), ∃ (s : State), s.slicesUp = true ∧ Option.any (fun (h : Holder) => !h.started && decide (h.cmd.opcode = 772)) s.mgmt.holder = false) ∧
    (∃ (nor : Bool), ∃ (s : State), s.slicesUp = true ∧ Option.any (fun (h : Holder) => !h.started && decide (h.cmd.opcode = 773)) s.mgmt.holder = false) ∧
    (∃ (nor : Bool), ∃ (s : State), s.slicesUp = true ∧ Option.any (fun (h : Holder) => !h.started && decide (h.cmd.opcode = 774)) s.mgmt.holder = false) ∧
    (∃ (nor : Bool), ∃ (s : State), s.slicesUp = true ∧ Option.any (fun (h : Holder) => !h.started && decide (h.cmd.opcode = 784)) s.mgmt.holder = false) ∧
    (∃ (nor : Bool), ∃ (s : State), s.slicesUp = true ∧ Option.any (fun (h : Holder) => !h.started && decide (h.cmd.opcode = 800)) s.mgmt.holder = false) ∧
    (∃ (nor : Bool), ∃ (s : State), s.slicesUp = true ∧ Option.any (fun (h : Holder) => !h.started && decide (h.cmd.opcode = 801)) s.mgmt.holder = false) :=
  ⟨⟨false, wOp (wRul 0 1) 0x0301 [] [1, 2, 3], by decide +kernel⟩,
   ⟨false, wOp (wRul 1 1) 0x0300 [2, 4096], by decide +kernel⟩,
   ⟨false, wOp (wRul 1 1) 0x0300 [2, 4096], by decide +kernel⟩,
   ⟨false, wOp (wRul 1 1) 0x0300 [2, 4096], by decide +kernel⟩,
   ⟨false, wOp (wRul 1 1) 0x0300 [2, 4096], by decide +kernel⟩,
   ⟨false, wOp (wRul 1 1) 0x0300 [2, 4096], by decide +kernel⟩,
   ⟨false, wOp (wRul 1 1) 0x0300 [2, 4096], by decide +kernel⟩,
   ⟨false, wOp (wRul 1 1) 0x0300 [2, 4096], by decide +kernel⟩,
   ⟨false, wOp (wRul 1 1) 0x0300 [2, 4096], by decide +kernel⟩,
   ⟨false, wOp (wRul 1 1) 0x0300 [2, 4096], by decide +kernel⟩⟩

/-- The opcodes of firmware update, key revocation, custody and configuration: clauses 10, 11, 12, 13, 14, 15, 16, 17, 18, 19. -/
theorem witness_UpdateKeysCustodyAndConfiguration_b :
    (∃ (nor : Bool), ∃ (s : State), s.slicesUp = true ∧ Option.any (fun (h : Holder) => !h.started && decide (h.cmd.opcode = 802)) s.mgmt.holder = false) ∧
    (∃ (nor : Bool), ∃ (s : State), s.slicesUp = true ∧ Option.any (fun (h : Holder) => !h.started && decide (h.cmd.opcode = 512)) s.mgmt.holder = false) ∧
    (∃ (nor : Bool), ∃ (s : State), s.slicesUp = true ∧ Option.any (fun (h : Holder) => !h.started && decide (h.cmd.opcode = 513)) s.mgmt.holder = false) ∧
    (∃ (nor : Bool), ∃ (s : State), s.slicesUp = true ∧ Option.any (fun (h : Holder) => !h.started && decide (h.cmd.opcode = 65568)) s.mgmt.holder = false) ∧
    (∃ (nor : Bool), ∃ (s : State), s.slicesUp = true ∧ Option.any (fun (h : Holder) => !h.started && decide (h.cmd.opcode = 65569)) s.mgmt.holder = false) ∧
    (∃ (nor : Bool), ∃ (s : State), s.slicesUp = true ∧ Option.any (fun (h : Holder) => !h.started && decide (h.cmd.opcode = 65570)) s.mgmt.holder = false) ∧
    (∃ (s : State), ∃ (nor : Bool), s.running = true ∧ ∃ (h : Holder), s.mgmt.holder = some h ∧ h.started = false ∧ h.cmd.opcode = 768 ∧ ∃ (st : Nat), s.updateRefusal FwOp.start [] = some st ∧ True) ∧
    (∃ (s : State), ∃ (nor : Bool), s.running = true ∧ s.updateRefusal FwOp.start [] = none ∧ ∃ (h : Holder), s.mgmt.holder = some h ∧ h.started = false ∧ h.cmd.opcode = 768 ∧ s.slotWritable (h.cmd.num 0) = false) ∧
    (∃ (s : State), ∃ (nor : Bool), s.running = true ∧ s.updateRefusal FwOp.start [] = none ∧ ∃ (h : Holder), s.mgmt.holder = some h ∧ h.started = false ∧ h.cmd.opcode = 768 ∧ s.slotWritable (h.cmd.num 0) = true ∧ (h.cmd.num 1 < pkgHead ∨ pkgMax < h.cmd.num 1)) ∧
    (∃ (s : State), ∃ (nor : Bool), s.running = true ∧ s.updateRefusal FwOp.start [] = none ∧ s.boot.recovery = false ∧ ∃ (h : Holder), s.mgmt.holder = some h ∧ h.started = false ∧ h.cmd.opcode = 768 ∧ s.slotWritable (h.cmd.num 0) = true ∧ pkgHead ≤ h.cmd.num 1 ∧ h.cmd.num 1 ≤ pkgMax) :=
  ⟨⟨false, wOp (wRul 1 1) 0x0300 [2, 4096], by decide +kernel⟩,
   ⟨false, wOp (wRul 1 1) 0x0300 [2, 4096], by decide +kernel⟩,
   ⟨false, wOp (wRul 1 1) 0x0300 [2, 4096], by decide +kernel⟩,
   ⟨false, wOp (wRul 1 1) 0x0300 [2, 4096], by decide +kernel⟩,
   ⟨false, wOp (wRul 1 1) 0x0300 [2, 4096], by decide +kernel⟩,
   ⟨false, wOp (wRul 1 1) 0x0300 [2, 4096], by decide +kernel⟩,
   ⟨updateKeysCustodyAndConfiguration_16_s, false, chk (dA inferInstance (dSome fun _ => (dA inferInstance (dA inferInstance (dSome fun _ => inferInstance))))) (by decide +kernel)⟩,
   ⟨updateKeysCustodyAndConfiguration_17_s, false, chk (dA inferInstance (dA inferInstance (dSome fun _ => inferInstance))) (by decide +kernel)⟩,
   ⟨updateKeysCustodyAndConfiguration_18_s, false, chk (dA inferInstance (dA inferInstance (dSome fun _ => inferInstance))) (by decide +kernel)⟩,
   ⟨updateKeysCustodyAndConfiguration_19_s, false, chk (dA inferInstance (dA inferInstance (dA inferInstance (dSome fun _ => inferInstance)))) (by decide +kernel)⟩⟩

/-- The opcodes of firmware update, key revocation, custody and configuration: clauses 20, 21, 22, 23, 24, 25, 26, 27, 28, 29. -/
theorem witness_UpdateKeysCustodyAndConfiguration_c :
    (∃ (s : State), ∃ (nor : Bool), s.running = true ∧ s.updateRefusal FwOp.start [] = none ∧ s.boot.recovery = true ∧ ∃ (h : Holder), s.mgmt.holder = some h ∧ h.started = false ∧ h.cmd.opcode = 768 ∧ s.slotWritable (h.cmd.num 0) = true ∧ pkgHead ≤ h.cmd.num 1 ∧ h.cmd.num 1 ≤ pkgMax) ∧
    (∃ (s : State), ∃ (nor : Bool), s.running = true ∧ ∃ (h : Holder), s.mgmt.holder = some h ∧ h.started = false ∧ h.cmd.opcode = 769 ∧ ∃ (st : Nat), s.updateRefusal FwOp.chunk [] = some st ∧ True) ∧
    (∃ (s : State), ∃ (nor : Bool), s.running = true ∧ s.updateRefusal FwOp.chunk [] = none ∧ s.boot.session = none ∧ ∃ (h : Holder), s.mgmt.holder = some h ∧ h.started = false ∧ h.cmd.opcode = 769) ∧
    (∃ (s : State), ∃ (nor : Bool), s.running = true ∧ s.updateRefusal FwOp.chunk [] = none ∧ ∃ (h : Holder), s.mgmt.holder = some h ∧ h.started = false ∧ h.cmd.opcode = 769 ∧ ∃ (ses : FwSession), s.boot.session = some ses ∧ h.cmd.objOffset ≠ ses.next) ∧
    (∃ (s : State), ∃ (nor : Bool), s.running = true ∧ s.updateRefusal FwOp.chunk [] = none ∧ ∃ (h : Holder), s.mgmt.holder = some h ∧ h.started = false ∧ h.cmd.opcode = 769 ∧ ∃ (ses : FwSession), s.boot.session = some ses ∧ h.cmd.objOffset = ses.next ∧ ses.len < ses.next + h.cmd.payload.length) ∧
    (∃ (s : State), ∃ (nor : Bool), s.running = true ∧ s.updateRefusal FwOp.chunk [] = none ∧ s.boot.recovery = false ∧ ∃ (h : Holder), s.mgmt.holder = some h ∧ h.started = false ∧ h.cmd.opcode = 769 ∧ ∃ (ses : FwSession), s.boot.session = some ses ∧ h.cmd.objOffset = ses.next ∧ ses.next + h.cmd.payload.length ≤ ses.len) ∧
    (∃ (s : State), ∃ (nor : Bool), s.running = true ∧ s.updateRefusal FwOp.chunk [] = none ∧ ∃ (h : Holder), s.mgmt.holder = some h ∧ h.started = false ∧ h.cmd.opcode = 769 ∧ ∃ (ses : FwSession), s.boot.session = some ses ∧ h.cmd.objOffset = ses.next ∧ ses.next + h.cmd.payload.length ≤ ses.len ∧ ses.slot = 0 ∧ ses.next < 23 ∧ 23 ≤ ses.next + h.cmd.payload.length ∧ bitOf (BitVec.toNat (Map.get norErased (norWrite (s.target 0) ses.next h.cmd.payload) 22)) 0 = false) ∧
    (∃ (s : State), ∃ (nor : Bool), s.running = true ∧ s.updateRefusal FwOp.chunk [] = none ∧ s.boot.recovery = true ∧ ∃ (h : Holder), s.mgmt.holder = some h ∧ h.started = false ∧ h.cmd.opcode = 769 ∧ ∃ (ses : FwSession), s.boot.session = some ses ∧ h.cmd.objOffset = ses.next ∧ ses.next + h.cmd.payload.length ≤ ses.len ∧ (ses.slot ≠ 0 ∨ 23 ≤ ses.next)) ∧
    (∃ (s : State), ∃ (nor : Bool), s.running = true ∧ s.updateRefusal FwOp.chunk [] = none ∧ s.boot.recovery = false ∧ ∃ (h : Holder), s.mgmt.holder = some h ∧ h.started = false ∧ h.cmd.opcode = 769 ∧ ∃ (ses : FwSession), s.boot.session = some ses ∧ h.cmd.objOffset = ses.next ∧ ses.next + h.cmd.payload.length ≤ ses.len ∧ (ses.slot ≠ 0 ∨ 23 ≤ ses.next ∨ ses.next + h.cmd.payload.length < 23 ∨ bitOf (BitVec.toNat (Map.get norErased (norWrite (s.target 0) ses.next h.cmd.payload) 22)) 0 = true)) ∧
    (∃ (s : State), ∃ (nor : Bool), s.running = true ∧ ∃ (h : Holder), s.mgmt.holder = some h ∧ h.started = false ∧ h.cmd.opcode = 770 ∧ ∃ (st : Nat), s.updateRefusal FwOp.close [] = some st ∧ True) :=
  ⟨⟨updateKeysCustodyAndConfiguration_20_s, false, chk (dA inferInstance (dA inferInstance (dA inferInstance (dSome fun _ => inferInstance)))) (by decide +kernel)⟩,
   ⟨updateKeysCustodyAndConfiguration_21_s, false, chk (dA inferInstance (dSome fun _ => (dA inferInstance (dA inferInstance (dSome fun _ => inferInstance))))) (by decide +kernel)⟩,
   ⟨updateKeysCustodyAndConfiguration_22_s, false, chk (dA inferInstance (dA inferInstance (dA inferInstance (dSome fun _ => inferInstance)))) (by decide +kernel)⟩,
   ⟨updateKeysCustodyAndConfiguration_23_s, false, chk (dA inferInstance (dA inferInstance (dSome fun _ => (dA inferInstance (dA inferInstance (dSome fun _ => inferInstance)))))) (by decide +kernel)⟩,
   ⟨updateKeysCustodyAndConfiguration_24_s, false, chk (dA inferInstance (dA inferInstance (dSome fun _ => (dA inferInstance (dA inferInstance (dSome fun _ => inferInstance)))))) (by decide +kernel)⟩,
   ⟨updateKeysCustodyAndConfiguration_25_s, false, chk (dA inferInstance (dA inferInstance (dA inferInstance (dSome fun _ => (dA inferInstance (dA inferInstance (dSome fun _ => inferInstance))))))) (by decide +kernel)⟩,
   ⟨updateKeysCustodyAndConfiguration_26_s, false, chk (dA inferInstance (dA inferInstance (dSome fun _ => (dA inferInstance (dA inferInstance (dSome fun _ => inferInstance)))))) (by decide +kernel)⟩,
   ⟨updateKeysCustodyAndConfiguration_27_s, false, chk (dA inferInstance (dA inferInstance (dA inferInstance (dSome fun _ => (dA inferInstance (dA inferInstance (dSome fun _ => inferInstance))))))) (by decide +kernel)⟩,
   ⟨updateKeysCustodyAndConfiguration_28_s, false, chk (dA inferInstance (dA inferInstance (dA inferInstance (dSome fun _ => (dA inferInstance (dA inferInstance (dSome fun _ => inferInstance))))))) (by decide +kernel)⟩,
   ⟨updateKeysCustodyAndConfiguration_29_s, false, chk (dA inferInstance (dSome fun _ => (dA inferInstance (dA inferInstance (dSome fun _ => inferInstance))))) (by decide +kernel)⟩⟩

/-- The opcodes of firmware update, key revocation, custody and configuration: clauses 30, 34, 36, 37, 41, 42, 43, 44, 45, 46. -/
theorem witness_UpdateKeysCustodyAndConfiguration_d :
    (∃ (s : State), ∃ (nor : Bool), s.running = true ∧ s.updateRefusal FwOp.close [] = none ∧ s.boot.session = none ∧ ∃ (h : Holder), s.mgmt.holder = some h ∧ h.started = false ∧ h.cmd.opcode = 770) ∧
    (∃ (s : State), ∃ (nor : Bool), s.running = true ∧ s.updateRefusal FwOp.close [] = none ∧ ∃ (h : Holder), s.mgmt.holder = some h ∧ h.started = false ∧ h.cmd.opcode = 770 ∧ ∃ (ses : FwSession), s.boot.session = some ses ∧ pkgLen (s.targetPkg ses.slot ses.len) ≠ ses.len) ∧
    (∃ (s : State), ∃ (nor : Bool), s.running = true ∧ ∃ (h : Holder), s.mgmt.holder = some h ∧ h.started = false ∧ h.cmd.opcode = 771 ∧ h.cmd.num 1 ≠ 1 ∧ h.cmd.num 1 ≠ 2) ∧
    (∃ (s : State), ∃ (nor : Bool), s.running = true ∧ ∃ (h : Holder), s.mgmt.holder = some h ∧ h.started = false ∧ h.cmd.opcode = 771 ∧ (h.cmd.num 1 = 1 ∨ h.cmd.num 1 = 2) ∧ s.slotFlaw (h.cmd.num 1) none ≠ 1) ∧
    (∃ (s : State), ∃ (nor : Bool), s.running = true ∧ (s.inTrial = false ∨ s.ruling = none) ∧ ∃ (h : Holder), s.mgmt.holder = some h ∧ h.started = false ∧ h.cmd.opcode = 772) ∧
    (∃ (s : State), ∃ (nor : Bool), s.running = true ∧ s.inTrial = true ∧ ∃ (h : Holder), s.mgmt.holder = some h ∧ h.started = false ∧ h.cmd.opcode = 772 ∧ ∃ (r : FlagRec), s.ruling = some r ∧ True) ∧
    (∃ (s : State), ∃ (nor : Bool), s.running = true ∧ s.inTrial = true ∧ ∃ (h : Holder), s.mgmt.holder = some h ∧ h.started = false ∧ h.cmd.opcode = 772 ∧ ∃ (r : FlagRec), s.ruling = some r ∧ True) ∧
    (∃ (s : State), ∃ (nor : Bool), s.running = true ∧ (s.inTrial = false ∨ s.ruling = none) ∧ ∃ (h : Holder), s.mgmt.holder = some h ∧ h.started = false ∧ h.cmd.opcode = 773) ∧
    (∃ (s : State), ∃ (nor : Bool), s.running = true ∧ s.inTrial = true ∧ ∃ (h : Holder), s.mgmt.holder = some h ∧ h.started = false ∧ h.cmd.opcode = 773 ∧ ∃ (r : FlagRec), s.ruling = some r ∧ r.previous = 0) ∧
    (∃ (s : State), ∃ (nor : Bool), s.running = true ∧ s.inTrial = true ∧ ∃ (h : Holder), s.mgmt.holder = some h ∧ h.started = false ∧ h.cmd.opcode = 773 ∧ ∃ (r : FlagRec), s.ruling = some r ∧ r.previous ≠ 0) :=
  ⟨⟨wOp (wRul 0 1) 0x0302, false, chk (dA inferInstance (dA inferInstance (dA inferInstance (dSome fun _ => inferInstance)))) (by decide +kernel)⟩,
   ⟨updateKeysCustodyAndConfiguration_34_s, false, chk (dA inferInstance (dA inferInstance (dSome fun _ => (dA inferInstance (dA inferInstance (dSome fun _ => inferInstance)))))) (by decide +kernel)⟩,
   ⟨updateKeysCustodyAndConfiguration_36_s, false, chk (dA inferInstance (dSome fun _ => inferInstance)) (by decide +kernel)⟩,
   ⟨updateKeysCustodyAndConfiguration_37_s, false, chk (dA inferInstance (dSome fun _ => inferInstance)) (by decide +kernel)⟩,
   ⟨wOp (wRul 0 1) 0x0304, false, chk (dA inferInstance (dA inferInstance (dSome fun _ => inferInstance))) (by decide +kernel)⟩,
   ⟨wOp (wRul 1 1) 0x0304, false, chk (dA inferInstance (dA inferInstance (dSome fun _ => (dA inferInstance (dA inferInstance (dSome fun _ => inferInstance)))))) (by decide +kernel)⟩,
   ⟨wOp (wRul 1 1) 0x0304, false, chk (dA inferInstance (dA inferInstance (dSome fun _ => (dA inferInstance (dA inferInstance (dSome fun _ => inferInstance)))))) (by decide +kernel)⟩,
   ⟨wOp (wRul 0 1) 0x0305, false, chk (dA inferInstance (dA inferInstance (dSome fun _ => inferInstance))) (by decide +kernel)⟩,
   ⟨updateKeysCustodyAndConfiguration_45_s, false, chk (dA inferInstance (dA inferInstance (dSome fun _ => (dA inferInstance (dA inferInstance (dSome fun _ => inferInstance)))))) (by decide +kernel)⟩,
   ⟨wOp (wRul 1 1) 0x0305, false, chk (dA inferInstance (dA inferInstance (dSome fun _ => (dA inferInstance (dA inferInstance (dSome fun _ => inferInstance)))))) (by decide +kernel)⟩⟩

/-- The opcodes of firmware update, key revocation, custody and configuration: clauses 47, 48, 49, 52, 53, 54, 55, 56, 57, 60. -/
theorem witness_UpdateKeysCustodyAndConfiguration_e :
    (∃ (s : State), ∃ (nor : Bool), s.running = true ∧ ∃ (h : Holder), s.mgmt.holder = some h ∧ h.started = false ∧ h.cmd.opcode = 774) ∧
    (∃ (s : State), ∃ (nor : Bool), s.running = true ∧ ∃ (h : Holder), s.mgmt.holder = some h ∧ h.started = false ∧ h.cmd.opcode = 784 ∧ 4 ≤ h.cmd.num 0) ∧
    (∃ (s : State), ∃ (nor : Bool), s.running = true ∧ ∃ (h : Holder), s.mgmt.holder = some h ∧ h.started = false ∧ h.cmd.opcode = 784 ∧ h.cmd.num 0 < 4 ∧ s.keyLive (h.cmd.num 0) = true ∧ List.filter (fun (j : Nat) => decide (j ≠ h.cmd.num 0) && s.keyLive j) (List.range 4) = []) ∧
    (∃ (s : State), ∃ (nor : Bool), s.running = true ∧ s.boot.custody.isSome = true ∧ ∃ (h : Holder), s.mgmt.holder = some h ∧ h.started = false ∧ h.cmd.opcode = 800) ∧
    (∃ (s : State), ∃ (nor : Bool), s.running = true ∧ s.boot.custody = none ∧ ∃ (h : Holder), s.mgmt.holder = some h ∧ h.started = false ∧ h.cmd.opcode = 800) ∧
    (∃ (s : State), ∃ (nor : Bool), s.running = true ∧ s.boot.custody = none ∧ ∃ (h : Holder), s.mgmt.holder = some h ∧ h.started = false ∧ h.cmd.opcode = 800) ∧
    (∃ (s : State), ∃ (nor : Bool), s.running = true ∧ s.rngState ≠ rngOk ∧ ∃ (h : Holder), s.mgmt.holder = some h ∧ h.started = false ∧ h.cmd.opcode = 801) ∧
    (∃ (s : State), ∃ (nor : Bool), s.running = true ∧ s.rngState = rngOk ∧ ∃ (h : Holder), s.mgmt.holder = some h ∧ h.started = false ∧ h.cmd.opcode = 801 ∧ ∃ (s1 : State), ∃ (bytes : List Byte), s.drbg 4 32 = (s1, bytes) ∧ True) ∧
    (∃ (s : State), ∃ (nor : Bool), s.running = true ∧ ∃ (h : Holder), s.mgmt.holder = some h ∧ h.started = false ∧ h.cmd.opcode = 802 ∧ s.custodyProof (slice h.cmd.payload 0 96) (slice h.cmd.payload 96 96) = false) ∧
    (∃ (s : State), ∃ (nor : Bool), s.running = true ∧ ∃ (h : Holder), s.mgmt.holder = some h ∧ h.started = false ∧ h.cmd.opcode = 512 ∧ (h.cmd.num 0 = 0 ∨ 8 < h.cmd.num 0)) :=
  ⟨⟨wOp (wRul 0 1) 0x0306, false, chk (dA inferInstance (dSome fun _ => inferInstance)) (by decide +kernel)⟩,
   ⟨wOp wUp 0x0310 [4], false, chk (dA inferInstance (dSome fun _ => inferInstance)) (by decide +kernel)⟩,
   ⟨updateKeysCustodyAndConfiguration_49_s, false, chk (dA inferInstance (dSome fun _ => inferInstance)) (by decide +kernel)⟩,
   ⟨updateKeysCustodyAndConfiguration_52_s, false, chk (dA inferInstance (dA inferInstance (dSome fun _ => inferInstance))) (by decide +kernel)⟩,
   ⟨updateKeysCustodyAndConfiguration_53_s, false, chk (dA inferInstance (dA inferInstance (dSome fun _ => inferInstance))) (by decide +kernel)⟩,
   ⟨updateKeysCustodyAndConfiguration_54_s, false, chk (dA inferInstance (dA inferInstance (dSome fun _ => inferInstance))) (by decide +kernel)⟩,
   ⟨updateKeysCustodyAndConfiguration_55_s, false, chk (dA inferInstance (dA inferInstance (dSome fun _ => inferInstance))) (by decide +kernel)⟩,
   ⟨updateKeysCustodyAndConfiguration_56_s, false, chk (dA inferInstance (dA inferInstance (dSome fun _ => (dA inferInstance (dA inferInstance (dPair fun _ _ => inferInstance)))))) (by decide +kernel)⟩,
   ⟨updateKeysCustodyAndConfiguration_57_s, false, chk (dA inferInstance (dSome fun _ => inferInstance)) (by decide +kernel)⟩,
   ⟨wOp wUp 0x0200 [0], false, chk (dA inferInstance (dSome fun _ => inferInstance)) (by decide +kernel)⟩⟩

/-- The opcodes of firmware update, key revocation, custody and configuration: clauses 61, 62, 63, 64, 65, 66, 67, 68, 69, 70. -/
theorem witness_UpdateKeysCustodyAndConfiguration_f :
    (∃ (s : State), ∃ (nor : Bool), s.running = true ∧ ∃ (h : Holder), s.mgmt.holder = some h ∧ h.started = false ∧ h.cmd.opcode = 512 ∧ 1 ≤ h.cmd.num 0 ∧ h.cmd.num 0 ≤ 8) ∧
    (∃ (s : State), ∃ (nor : Bool), s.running = true ∧ s.inTrial = true ∧ ∃ (h : Holder), s.mgmt.holder = some h ∧ h.started = false ∧ h.cmd.opcode = 513) ∧
    (∃ (s : State), ∃ (nor : Bool), s.running = true ∧ s.inTrial = false ∧ ∃ (h : Holder), s.mgmt.holder = some h ∧ h.started = false ∧ h.cmd.opcode = 513 ∧ (h.cmd.num 0 = 0 ∨ 8 < h.cmd.num 0 ∨ h.cmd.num 0 = 1 ∧ tooManyVfs (List.drop 4 h.cmd.payload) = true)) ∧
    (∃ (s : State), ∃ (nor : Bool), s.running = true ∧ s.inTrial = false ∧ ∃ (h : Holder), s.mgmt.holder = some h ∧ h.started = false ∧ h.cmd.opcode = 513 ∧ 1 ≤ h.cmd.num 0 ∧ h.cmd.num 0 ≤ 8 ∧ (h.cmd.num 0 ≠ 1 ∨ tooManyVfs (List.drop 4 h.cmd.payload) = false)) ∧
    (∃ (s : State), ∃ (nor : Bool), s.running = true ∧ s.inTrial = false ∧ ∃ (h : Holder), s.mgmt.holder = some h ∧ h.started = false ∧ h.cmd.opcode = 513 ∧ 1 ≤ h.cmd.num 0 ∧ h.cmd.num 0 ≤ 8 ∧ (h.cmd.num 0 ≠ 1 ∨ tooManyVfs (List.drop 4 h.cmd.payload) = false)) ∧
    (∃ (s : State), ∃ (nor : Bool), s.slicesUp = true ∧ ∃ (h : Holder), s.mgmt.holder = some h ∧ h.started = false ∧ h.cmd.opcode = 65568 ∧ beAt h.cmd.payload 4 4 ≠ 0 ∧ ∃ (s1 : State), ∃ (r : MgmtReply), s.fwChunk (beAt h.cmd.payload 4 4) (List.drop 8 h.cmd.payload) nor = (s1, r) ∧ True) ∧
    (∃ (s : State), ∃ (nor : Bool), s.slicesUp = true ∧ ∃ (h : Holder), s.mgmt.holder = some h ∧ h.started = false ∧ h.cmd.opcode = 65568 ∧ beAt h.cmd.payload 4 4 = 0 ∧ ∃ (s1 : State), ∃ (r : MgmtReply), s.fwBegin (beAt h.cmd.payload 0 4 + 1) (leAt (List.drop 8 h.cmd.payload) 12 4) nor = (s1, r) ∧ r.status ≠ St.SUCCESS) ∧
    (∃ (s : State), ∃ (nor : Bool), s.slicesUp = true ∧ ∃ (h : Holder), s.mgmt.holder = some h ∧ h.started = false ∧ h.cmd.opcode = 65568 ∧ beAt h.cmd.payload 4 4 = 0 ∧ ∃ (s1 : State), ∃ (r : MgmtReply), s.fwBegin (beAt h.cmd.payload 0 4 + 1) (leAt (List.drop 8 h.cmd.payload) 12 4) nor = (s1, r) ∧ r.status = St.SUCCESS ∧ ∃ (s2 : State), ∃ (r2 : MgmtReply), s1.fwChunk 0 (List.drop 8 h.cmd.payload) nor = (s2, r2) ∧ True) ∧
    (∃ (s : State), ∃ (nor : Bool), s.slicesUp = true ∧ ∃ (h : Holder), s.mgmt.holder = some h ∧ h.started = false ∧ h.cmd.opcode = 65569 ∧ ∃ (s1 : State), ∃ (r : MgmtReply), s.fwEnd nor = (s1, r) ∧ True) ∧
    (∃ (s : State), ∃ (nor : Bool), s.slicesUp = true ∧ ∃ (h : Holder), s.mgmt.holder = some h ∧ h.started = false ∧ h.cmd.opcode = 65570 ∧ ∃ (s1 : State), ∃ (r : MgmtReply), s.fwActivate (beAt h.cmd.payload 0 4 + 1) false nor = (s1, r) ∧ True) :=
  ⟨⟨wOp wUp 0x0200 [8], false, chk (dA inferInstance (dSome fun _ => inferInstance)) (by decide +kernel)⟩,
   ⟨updateKeysCustodyAndConfiguration_62_s, false, chk (dA inferInstance (dA inferInstance (dSome fun _ => inferInstance))) (by decide +kernel)⟩,
   ⟨updateKeysCustodyAndConfiguration_63_s, false, chk (dA inferInstance (dA inferInstance (dSome fun _ => inferInstance))) (by decide +kernel)⟩,
   ⟨updateKeysCustodyAndConfiguration_64_s, false, chk (dA inferInstance (dA inferInstance (dSome fun _ => inferInstance))) (by decide +kernel)⟩,
   ⟨updateKeysCustodyAndConfiguration_65_s, false, chk (dA inferInstance (dA inferInstance (dSome fun _ => inferInstance))) (by decide +kernel)⟩,
   ⟨updateKeysCustodyAndConfiguration_66_s, false, chk (dA inferInstance (dSome fun _ => (dA inferInstance (dA inferInstance (dA inferInstance (dPair fun _ _ => inferInstance)))))) (by decide +kernel)⟩,
   ⟨updateKeysCustodyAndConfiguration_67_s, false, chk (dA inferInstance (dSome fun _ => (dA inferInstance (dA inferInstance (dA inferInstance (dPair fun _ _ => inferInstance)))))) (by decide +kernel)⟩,
   ⟨updateKeysCustodyAndConfiguration_68_s, true, chk (dA inferInstance (dSome fun _ => (dA inferInstance (dA inferInstance (dA inferInstance (dPair fun _ _ => (dA inferInstance (dPair fun _ _ => inferInstance)))))))) (by decide +kernel)⟩,
   ⟨updateKeysCustodyAndConfiguration_69_s, false, chk (dA inferInstance (dSome fun _ => (dA inferInstance (dA inferInstance (dPair fun _ _ => inferInstance))))) (by decide +kernel)⟩,
   ⟨updateKeysCustodyAndConfiguration_70_s, false, chk (dA inferInstance (dSome fun _ => (dA inferInstance (dA inferInstance (dPair fun _ _ => inferInstance))))) (by decide +kernel)⟩⟩

def instanceAndNamespaceOpcodes_15_s : State :=
  wOp wNsRoom 0x0220 [] (wNsPay 1 8)

def instanceAndNamespaceOpcodes_18_s : State :=
  wOp (wNs wN1) 0x0222 [1] [1, 0, 1, 0]

def instanceAndNamespaceOpcodes_19_s : State :=
  wOp (wNs wN1) 0x0223 [1] [1, 0, 1, 0]

def instanceAndNamespaceOpcodes_20_s : State :=
  wOp (wNw (wNs wN1) { wNc 1 2 1 [] with issued := true }) 0x0224 [1, 0, 0]

def instanceAndNamespaceOpcodes_21_s : State :=
  wOp (w1 (wNs wN1) F.RNG_STATUS_STATE 0) 0x0224 [1, 0, 1]

def instanceAndNamespaceOpcodes_22_s : State :=
  wOp (wNs wN1) 0x0224 [1, 0, 0]

def instanceAndNamespaceOpcodes_24_s : State :=
  wOp (w1 wFn (F.INST_CFG_STATE 8) 3) 0x0500 [8]

def instanceAndNamespaceOpcodes_26_s : State :=
  wOp (w1 wFn (F.INST_CFG_STATE 8) 2) 0x0501 [8]

def instanceAndNamespaceOpcodes_28_s : State :=
  wOp (w1 wFn (F.INST_CFG_STATE 8) 3) 0x0502 [8]

def instanceAndNamespaceOpcodes_30_s : State :=
  wOp (w1 wFn (F.INST_CFG_STATE 8) 4) 0x0505 [8]

def instanceAndNamespaceOpcodes_31_s : State :=
  wOp (w1 wFn (F.INST_CFG_STATE 8) 4) 0x0506 [8]

def instanceAndNamespaceOpcodes_33_s : State :=
  wOp wFn 0x0503 [4096, 8, 2]

def instanceAndNamespaceOpcodes_34_s : State :=
  wOp (w1 wFn (F.INST_CFG_STATE 8) 4) 0x0503 [0, 8, 2]

def instanceAndNamespaceOpcodes_35_s : State :=
  wOp (w1 (wF wKeys [(F.INST_CFG_TYPE 8, 2), (F.INST_CFG_STATE 8, 4)]) F.RNG_STATUS_STATE 0) 0x0503 [4096, 8, 2]

def instanceAndNamespaceOpcodes_38_s : State :=
  { wOp (w1 wFn (F.INST_CFG_STATE 8) 4) 0x0503 [4096, 8, 2] with mgmt.bulk := [⟨false, 0x0503, leBytes 4 8 ++ leBytes 4 2, List.replicate 5000 0, 0⟩] }

def instanceAndNamespaceOpcodes_39_s : State :=
  wOp (w1 wFn (F.INST_CFG_STATE 8) 4) 0x0503 [4096, 8, 2]

def instanceAndNamespaceOpcodes_40_s : State :=
  wOp (wF { wKeys with } [(F.INST_CFG_TYPE 8, 2), (F.INST_CFG_STATE 8, 4)]) 0x0503 [4096, 8, 2]

def instanceAndNamespaceOpcodes_41_s : State :=
  wMg wFn { cmd := { route := 0, opcode := 0x0504, objOffset := 5 } }

def instanceAndNamespaceOpcodes_43_s : State :=
  wMg wFn { cmd := { route := 0, opcode := 0x0504, payload := leBytes 4 8, last := true } }

def instanceAndNamespaceOpcodes_45_s : State :=
  wMg (w1 wFn (F.INST_CFG_STATE 8) 0) { cmd := { route := 0, opcode := 0x0504, payload := leBytes 4 8, last := true } }

def instanceAndNamespaceOpcodes_46_s : State :=
  { wMg wFn { cmd := { route := 0, opcode := 0x0504, payload := [1], objOffset := 5 } } with mgmt.bulk := [⟨true, 0x0504, [], [1, 2], 0⟩] }

def instanceAndNamespaceOpcodes_47_s : State :=
  { wMg wFn { cmd := { route := 0, opcode := 0x0504, payload := [1], objOffset := 2 } } with mgmt.bulk := [⟨true, 0x0504, [], [1, 2], 0⟩] }

def instanceAndNamespaceOpcodes_49_s : State :=
  wOp (w1 wMem F.FED_STATE_MOVING 1) 0x0510 [1, 2, 1]

def instanceAndNamespaceOpcodes_50_s : State :=
  wOp wMem 0x0510 [5000, 2, 1]

def instanceAndNamespaceOpcodes_53_s : State :=
  wOp (w1 wMem (F.INST_CFG_TYPE 1) 2) 0x0510 [1, 2, 1]

def instanceAndNamespaceOpcodes_54_s : State :=
  wMg (w1 wMem (F.INST_CFG_TYPE 1) 2) { cmd := { route := 3, origin := 2, opcode := 0x0510, payload := [7, 3, 1].flatMap (leBytes 4) } }

def instanceAndNamespaceOpcodes_55_s : State :=
  wOp (w1 wMem F.FED_STATE_MOVING 1) 0x0511 [1, 2, 1]

def instanceAndNamespaceOpcodes_57_s : State :=
  wOp { wMem with fe.bindings := [wBind true] } 0x0511 [2, 3, 1]

/-- The opcodes of namespaces, instance states and federated bindings: clauses 0, 1, 2, 3, 4, 5, 6, 7, 8, 9. -/
theorem witness_InstanceAndNamespaceOpcodes_a :
    (∃ (s : State), s.slicesUp = true ∧ Option.any (fun (h : Holder) => !h.started && decide (h.cmd.opcode = 544)) s.mgmt.holder = false) ∧
    (∃ (s : State), s.slicesUp = true ∧ Option.any (fun (h : Holder) => !h.started && decide (h.cmd.opcode = 545)) s.mgmt.holder = false) ∧
    (∃ (s : State), s.slicesUp = true ∧ Option.any (fun (h : Holder) => !h.started && decide (h.cmd.opcode = 546)) s.mgmt.holder = false) ∧
    (∃ (s : State), s.slicesUp = true ∧ Option.any (fun (h : Holder) => !h.started && decide (h.cmd.opcode = 547)) s.mgmt.holder = false) ∧
    (∃ (s : State), s.slicesUp = true ∧ Option.any (fun (h : Holder) => !h.started && decide (h.cmd.opcode = 548)) s.mgmt.holder = false) ∧
    (∃ (s : State), s.slicesUp = true ∧ Option.any (fun (h : Holder) => !h.started && decide (h.cmd.opcode = 1280)) s.mgmt.holder = false) ∧
    (∃ (s : State), s.slicesUp = true ∧ Option.any (fun (h : Holder) => !h.started && decide (h.cmd.opcode = 1281)) s.mgmt.holder = false) ∧
    (∃ (s : State), s.slicesUp = true ∧ Option.any (fun (h : Holder) => !h.started && decide (h.cmd.opcode = 1282)) s.mgmt.holder = false) ∧
    (∃ (s : State), s.slicesUp = true ∧ Option.any (fun (h : Holder) => !h.started && decide (h.cmd.opcode = 1283)) s.mgmt.holder = false) ∧
    (∃ (s : State), s.slicesUp = true ∧ Option.any (fun (h : Holder) => !h.started && decide (h.cmd.opcode = 1284)) s.mgmt.holder = false) :=
  ⟨⟨wOp (wNs wN1) 0x0221 [1], by decide +kernel⟩,
   ⟨wOp wNsRoom 0x0220 [] (wNsPay 0 8), by decide +kernel⟩,
   ⟨wOp wNsRoom 0x0220 [] (wNsPay 0 8), by decide +kernel⟩,
   ⟨wOp wNsRoom 0x0220 [] (wNsPay 0 8), by decide +kernel⟩,
   ⟨wOp wNsRoom 0x0220 [] (wNsPay 0 8), by decide +kernel⟩,
   ⟨wOp wNsRoom 0x0220 [] (wNsPay 0 8), by decide +kernel⟩,
   ⟨wOp wNsRoom 0x0220 [] (wNsPay 0 8), by decide +kernel⟩,
   ⟨wOp wNsRoom 0x0220 [] (wNsPay 0 8), by decide +kernel⟩,
   ⟨wOp wNsRoom 0x0220 [] (wNsPay 0 8), by decide +kernel⟩,
   ⟨wOp wNsRoom 0x0220 [] (wNsPay 0 8), by decide +kernel⟩⟩

/-- The opcodes of namespaces, instance states and federated bindings: clauses 10, 11, 12, 13, 15, 17, 18, 19, 20, 21. -/
theorem witness_InstanceAndNamespaceOpcodes_b :
    (∃ (s : State), s.slicesUp = true ∧ Option.any (fun (h : Holder) => !h.started && decide (h.cmd.opcode = 1285)) s.mgmt.holder = false) ∧
    (∃ (s : State), s.slicesUp = true ∧ Option.any (fun (h : Holder) => !h.started && decide (h.cmd.opcode = 1286)) s.mgmt.holder = false) ∧
    (∃ (s : State), s.slicesUp = true ∧ Option.any (fun (h : Holder) => !h.started && decide (h.cmd.opcode = 1296)) s.mgmt.holder = false) ∧
    (∃ (s : State), s.slicesUp = true ∧ Option.any (fun (h : Holder) => !h.started && decide (h.cmd.opcode = 1297)) s.mgmt.holder = false) ∧
    (∃ (s : State), s.slicesUp = true ∧ ∃ (h : Holder), s.mgmt.holder = some h ∧ h.started = false ∧ h.cmd.opcode = 544 ∧ ∃ (u : State), ∃ (st : Nat), s.nsCreate 0 (2 ^ 50) { csi := h.cmd.num 0 % 256, data := List.drop 4 h.cmd.payload } = (u, some (Except.error st)) ∧ True) ∧
    (∃ (s : State), s.slicesUp = true ∧ ∃ (h : Holder), s.mgmt.holder = some h ∧ h.started = false ∧ h.cmd.opcode = 545 ∧ ∃ (u : State), ∃ (st : Nat), s.nsDelete (h.cmd.num 0) = (u, st) ∧ True) ∧
    (∃ (s : State), s.slicesUp = true ∧ ∃ (h : Holder), s.mgmt.holder = some h ∧ h.started = false ∧ h.cmd.opcode = 546 ∧ ∃ (u : State), ∃ (st : Nat), s.nsAttach (h.cmd.num 0) true (parseCtrlList (List.drop 4 h.cmd.payload)) = (u, st) ∧ True) ∧
    (∃ (s : State), s.slicesUp = true ∧ ∃ (h : Holder), s.mgmt.holder = some h ∧ h.started = false ∧ h.cmd.opcode = 547 ∧ ∃ (u : State), ∃ (st : Nat), s.nsAttach (h.cmd.num 0) false (parseCtrlList (List.drop 4 h.cmd.payload)) = (u, st) ∧ True) ∧
    (∃ (s : State), s.slicesUp = true ∧ ∃ (h : Holder), s.mgmt.holder = some h ∧ h.started = false ∧ h.cmd.opcode = 548 ∧ (s.nv.cmds.any fun (y : NvCmd) => decide (y.sq ≠ 0 ∧ y.nsid = h.cmd.num 0) && y.issued && y.done.isNone) = true) ∧
    (∃ (s : State), s.slicesUp = true ∧ ∃ (h : Holder), s.mgmt.holder = some h ∧ h.started = false ∧ h.cmd.opcode = 548 ∧ (s.nv.cmds.any fun (y : NvCmd) => decide (y.sq ≠ 0 ∧ y.nsid = h.cmd.num 0) && y.issued && y.done.isNone) = false ∧ ∃ (u : State), s.nsFormat 0 (2 ^ 51) (h.cmd.num 0) (h.cmd.num 1) (h.cmd.num 2) = (u, none) ∧ True) :=
  ⟨⟨wOp wNsRoom 0x0220 [] (wNsPay 0 8), by decide +kernel⟩,
   ⟨wOp wNsRoom 0x0220 [] (wNsPay 0 8), by decide +kernel⟩,
   ⟨wOp wNsRoom 0x0220 [] (wNsPay 0 8), by decide +kernel⟩,
   ⟨wOp wNsRoom 0x0220 [] (wNsPay 0 8), by decide +kernel⟩,
   ⟨instanceAndNamespaceOpcodes_15_s, chk (dA inferInstance (dSome fun _ => (dA inferInstance (dA inferInstance (dPSer fun _ _ => inferInstance))))) (by decide +kernel)⟩,
   ⟨wOp (wNs wN1) 0x0221 [1], chk (dA inferInstance (dSome fun _ => (dA inferInstance (dA inferInstance (dPair fun _ _ => inferInstance))))) (by decide +kernel)⟩,
   ⟨instanceAndNamespaceOpcodes_18_s, chk (dA inferInstance (dSome fun _ => (dA inferInstance (dA inferInstance (dPair fun _ _ => inferInstance))))) (by decide +kernel)⟩,
   ⟨instanceAndNamespaceOpcodes_19_s, chk (dA inferInstance (dSome fun _ => (dA inferInstance (dA inferInstance (dPair fun _ _ => inferInstance))))) (by decide +kernel)⟩,
   ⟨instanceAndNamespaceOpcodes_20_s, chk (dA inferInstance (dSome fun _ => inferInstance)) (by decide +kernel)⟩,
   ⟨instanceAndNamespaceOpcodes_21_s, chk (dA inferInstance (dSome fun _ => (dA inferInstance (dA inferInstance (dA inferInstance (dPN fun _ => inferInstance)))))) (by decide +kernel)⟩⟩

/-- The opcodes of namespaces, instance states and federated bindings: clauses 22, 23, 24, 25, 26, 27, 28, 29, 30, 31. -/
theorem witness_InstanceAndNamespaceOpcodes_c :
    (∃ (s : State), s.slicesUp = true ∧ ∃ (h : Holder), s.mgmt.holder = some h ∧ h.started = false ∧ h.cmd.opcode = 548 ∧ (s.nv.cmds.any fun (y : NvCmd) => decide (y.sq ≠ 0 ∧ y.nsid = h.cmd.num 0) && y.issued && y.done.isNone) = false ∧ ∃ (u : State), ∃ (st : Nat), s.nsFormat 0 (2 ^ 51) (h.cmd.num 0) (h.cmd.num 1) (h.cmd.num 2) = (u, some st) ∧ True) ∧
    (∃ (s : State), s.slicesUp = true ∧ ∃ (h : Holder), s.mgmt.holder = some h ∧ h.started = false ∧ h.cmd.opcode = 1280 ∧ h.cmd.num 0 < 4104 ∧ (s.instState (h.cmd.num 0) = instEnabled ∨ s.instState (h.cmd.num 0) = instQuiescing)) ∧
    (∃ (s : State), s.slicesUp = true ∧ ∃ (h : Holder), s.mgmt.holder = some h ∧ h.started = false ∧ h.cmd.opcode = 1280 ∧ (4104 ≤ h.cmd.num 0 ∨ s.instState (h.cmd.num 0) ≠ instEnabled ∧ s.instState (h.cmd.num 0) ≠ instQuiescing)) ∧
    (∃ (s : State), s.slicesUp = true ∧ ∃ (h : Holder), s.mgmt.holder = some h ∧ h.started = false ∧ h.cmd.opcode = 1281 ∧ (4104 ≤ h.cmd.num 0 ∨ [instQuiescing, instQuiesced].contains (s.instState (h.cmd.num 0)) = false)) ∧
    (∃ (s : State), s.slicesUp = true ∧ ∃ (h : Holder), s.mgmt.holder = some h ∧ h.started = false ∧ h.cmd.opcode = 1281 ∧ h.cmd.num 0 < 4104 ∧ [instQuiescing, instQuiesced].contains (s.instState (h.cmd.num 0)) = true) ∧
    (∃ (s : State), s.slicesUp = true ∧ ∃ (h : Holder), s.mgmt.holder = some h ∧ h.started = false ∧ h.cmd.opcode = 1282 ∧ (4104 ≤ h.cmd.num 0 ∨ [instQuiesced].contains (s.instState (h.cmd.num 0)) = false)) ∧
    (∃ (s : State), s.slicesUp = true ∧ ∃ (h : Holder), s.mgmt.holder = some h ∧ h.started = false ∧ h.cmd.opcode = 1282 ∧ h.cmd.num 0 < 4104 ∧ [instQuiesced].contains (s.instState (h.cmd.num 0)) = true) ∧
    (∃ (s : State), s.slicesUp = true ∧ ∃ (h : Holder), s.mgmt.holder = some h ∧ h.started = false ∧ h.cmd.opcode = 1285 ∧ (4104 ≤ h.cmd.num 0 ∨ [instFrozen].contains (s.instState (h.cmd.num 0)) = false)) ∧
    (∃ (s : State), s.slicesUp = true ∧ ∃ (h : Holder), s.mgmt.holder = some h ∧ h.started = false ∧ h.cmd.opcode = 1285 ∧ h.cmd.num 0 < 4104 ∧ [instFrozen].contains (s.instState (h.cmd.num 0)) = true) ∧
    (∃ (s : State), s.slicesUp = true ∧ ∃ (h : Holder), s.mgmt.holder = some h ∧ h.started = false ∧ h.cmd.opcode = 1286 ∧ h.cmd.num 0 < 4104 ∧ (s.instState (h.cmd.num 0) = instQuiesced ∨ s.instState (h.cmd.num 0) = instFrozen)) :=
  ⟨⟨instanceAndNamespaceOpcodes_22_s, chk (dA inferInstance (dSome fun _ => (dA inferInstance (dA inferInstance (dA inferInstance (dPS fun _ _ => inferInstance)))))) (by decide +kernel)⟩,
   ⟨wOp wFn 0x0500 [8], chk (dA inferInstance (dSome fun _ => inferInstance)) (by decide +kernel)⟩,
   ⟨instanceAndNamespaceOpcodes_24_s, chk (dA inferInstance (dSome fun _ => inferInstance)) (by decide +kernel)⟩,
   ⟨wOp wFn 0x0501 [8], chk (dA inferInstance (dSome fun _ => inferInstance)) (by decide +kernel)⟩,
   ⟨instanceAndNamespaceOpcodes_26_s, chk (dA inferInstance (dSome fun _ => inferInstance)) (by decide +kernel)⟩,
   ⟨wOp wFn 0x0502 [8], chk (dA inferInstance (dSome fun _ => inferInstance)) (by decide +kernel)⟩,
   ⟨instanceAndNamespaceOpcodes_28_s, chk (dA inferInstance (dSome fun _ => inferInstance)) (by decide +kernel)⟩,
   ⟨wOp wFn 0x0505 [8], chk (dA inferInstance (dSome fun _ => inferInstance)) (by decide +kernel)⟩,
   ⟨instanceAndNamespaceOpcodes_30_s, chk (dA inferInstance (dSome fun _ => inferInstance)) (by decide +kernel)⟩,
   ⟨instanceAndNamespaceOpcodes_31_s, chk (dA inferInstance (dSome fun _ => inferInstance)) (by decide +kernel)⟩⟩

/-- The opcodes of namespaces, instance states and federated bindings: clauses 32, 33, 34, 35, 38, 39, 40, 41, 42, 43. -/
theorem witness_InstanceAndNamespaceOpcodes_d :
    (∃ (s : State), s.slicesUp = true ∧ ∃ (h : Holder), s.mgmt.holder = some h ∧ h.started = false ∧ h.cmd.opcode = 1286 ∧ (4104 ≤ h.cmd.num 0 ∨ s.instState (h.cmd.num 0) ≠ instQuiesced ∧ s.instState (h.cmd.num 0) ≠ instFrozen)) ∧
    (∃ (s : State), s.slicesUp = true ∧ ∃ (h : Holder), s.mgmt.holder = some h ∧ h.started = false ∧ h.cmd.opcode = 1283 ∧ (4104 ≤ h.cmd.num 1 ∨ s.instState (h.cmd.num 1) ≠ instFrozen)) ∧
    (∃ (s : State), s.slicesUp = true ∧ ∃ (h : Holder), s.mgmt.holder = some h ∧ h.started = false ∧ h.cmd.opcode = 1283 ∧ h.cmd.num 1 < 4104 ∧ s.instState (h.cmd.num 1) = instFrozen ∧ (maxLenOk (h.cmd.num 0) = false ∨ 8 ≤ h.cmd.num 2)) ∧
    (∃ (s : State), s.slicesUp = true ∧ s.mgmt.bulk = [] ∧ s.rngState ≠ rngOk ∧ ∃ (h : Holder), s.mgmt.holder = some h ∧ h.started = false ∧ h.cmd.opcode = 1283 ∧ h.cmd.num 1 < 4104 ∧ s.instState (h.cmd.num 1) = instFrozen ∧ maxLenOk (h.cmd.num 0) = true ∧ h.cmd.num 2 < 8 ∧ s.keyRefused (h.cmd.num 2) 7 = none) ∧
    (∃ (s : State), s.slicesUp = true ∧ ∃ (h : Holder), s.mgmt.holder = some h ∧ h.started = false ∧ h.cmd.opcode = 1283 ∧ h.cmd.num 1 < 4104 ∧ s.instState (h.cmd.num 1) = instFrozen ∧ maxLenOk (h.cmd.num 0) = true ∧ h.cmd.num 2 < 8 ∧ ∃ (b : BulkObj), s.mgmt.bulk = [b] ∧ b.upload = false ∧ b.opcode = 1283 ∧ b.selector = List.drop 4 h.cmd.payload ∧ h.cmd.objOffset ≤ b.data.length ∧ h.cmd.num 0 < b.data.length - h.cmd.objOffset) ∧
    (∃ (s : State), s.slicesUp = true ∧ s.mgmt.bulk = [] ∧ ∃ (h : Holder), s.mgmt.holder = some h ∧ h.started = false ∧ h.cmd.opcode = 1283 ∧ h.cmd.num 1 < 4104 ∧ s.instState (h.cmd.num 1) = instFrozen ∧ maxLenOk (h.cmd.num 0) = true ∧ h.cmd.num 2 < 8 ∧ ∃ (st : Nat), s.keyRefused (h.cmd.num 2) 7 = some st ∧ True) ∧
    (∃ (s : State), s.slicesUp = true ∧ s.mgmt.bulk = [] ∧ s.rngState = rngOk ∧ ∃ (h : Holder), s.mgmt.holder = some h ∧ h.started = false ∧ h.cmd.opcode = 1283 ∧ h.cmd.num 1 < 4104 ∧ s.instState (h.cmd.num 1) = instFrozen ∧ maxLenOk (h.cmd.num 0) = true ∧ h.cmd.num 2 < 8 ∧ s.keyRefused (h.cmd.num 2) 7 = none ∧ h.cmd.objOffset = 0 ∧ ∃ (u : State), ∃ (secs : List ImgSec), s.imgSections (h.cmd.num 1) = (u, some (Except.ok secs)) ∧ u.mgmt.bulk = [] ∧ (u.makeImage (h.cmd.num 1) (h.cmd.num 2) secs).snd.length ≤ h.cmd.num 0) ∧
    (∃ (s : State), s.slicesUp = true ∧ s.mgmt.bulk = [] ∧ ∃ (h : Holder), s.mgmt.holder = some h ∧ h.started = false ∧ h.cmd.opcode = 1284 ∧ h.cmd.objOffset ≠ 0) ∧
    (∃ (s : State), s.slicesUp = true ∧ s.mgmt.bulk = [] ∧ ∃ (h : Holder), s.mgmt.holder = some h ∧ h.started = false ∧ h.cmd.opcode = 1284 ∧ h.cmd.objOffset = 0 ∧ h.cmd.last = false ∧ h.cmd.payload.length ≤ 536870912) ∧
    (∃ (s : State), s.slicesUp = true ∧ s.mgmt.bulk = [] ∧ ∃ (h : Holder), s.mgmt.holder = some h ∧ h.started = false ∧ h.cmd.opcode = 1284 ∧ h.cmd.objOffset = 0 ∧ h.cmd.last = true ∧ (4104 ≤ leAt h.cmd.payload 0 4 ∨ s.instType (leAt h.cmd.payload 0 4) = 0 ∨ s.instState (leAt h.cmd.payload 0 4) ≠ instDisabled)) :=
  ⟨⟨wOp wFn 0x0506 [8], chk (dA inferInstance (dSome fun _ => inferInstance)) (by decide +kernel)⟩,
   ⟨instanceAndNamespaceOpcodes_33_s, chk (dA inferInstance (dSome fun _ => inferInstance)) (by decide +kernel)⟩,
   ⟨instanceAndNamespaceOpcodes_34_s, chk (dA inferInstance (dSome fun _ => inferInstance)) (by decide +kernel)⟩,
   ⟨instanceAndNamespaceOpcodes_35_s, chk (dA inferInstance (dA inferInstance (dA inferInstance (dSome fun _ => inferInstance)))) (by decide +kernel)⟩,
   ⟨instanceAndNamespaceOpcodes_38_s, chk (dA inferInstance (dSome fun _ => (dA inferInstance (dA inferInstance (dA inferInstance (dA inferInstance (dA inferInstance (dA inferInstance (dCC fun _ => inferInstance))))))))) (by decide +kernel)⟩,
   ⟨instanceAndNamespaceOpcodes_39_s, chk (dA inferInstance (dA inferInstance (dSome fun _ => (dA inferInstance (dA inferInstance (dA inferInstance (dA inferInstance (dA inferInstance (dA inferInstance (dSome fun _ => inferInstance)))))))))) (by decide +kernel)⟩,
   ⟨instanceAndNamespaceOpcodes_40_s, chk (dA inferInstance (dA inferInstance (dA inferInstance (dSome fun _ => (dA inferInstance (dA inferInstance (dA inferInstance (dA inferInstance (dA inferInstance (dA inferInstance (dA inferInstance (dA inferInstance (dPSok fun _ _ => inferInstance))))))))))))) (by decide +kernel)⟩,
   ⟨instanceAndNamespaceOpcodes_41_s, chk (dA inferInstance (dA inferInstance (dSome fun _ => inferInstance))) (by decide +kernel)⟩,
   ⟨wOp wFn 0x0504 [8], chk (dA inferInstance (dA inferInstance (dSome fun _ => inferInstance))) (by decide +kernel)⟩,
   ⟨instanceAndNamespaceOpcodes_43_s, chk (dA inferInstance (dA inferInstance (dSome fun _ => inferInstance))) (by decide +kernel)⟩⟩

/-- The opcodes of namespaces, instance states and federated bindings: clauses 45, 46, 47, 49, 50, 51, 52, 53, 54, 55. -/
theorem witness_InstanceAndNamespaceOpcodes_e :
    (∃ (s : State), s.slicesUp = true ∧ s.mgmt.bulk = [] ∧ ∃ (h : Holder), s.mgmt.holder = some h ∧ h.started = false ∧ h.cmd.opcode = 1284 ∧ h.cmd.objOffset = 0 ∧ h.cmd.last = true ∧ leAt h.cmd.payload 0 4 < 4104 ∧ s.instType (leAt h.cmd.payload 0 4) ≠ 0 ∧ s.instState (leAt h.cmd.payload 0 4) = instDisabled ∧ ∃ (u : State), ∃ (r : MgmtReply), s.restoreImage (leAt h.cmd.payload 0 4) (List.drop 4 h.cmd.payload) = (u, some r) ∧ True) ∧
    (∃ (s : State), s.slicesUp = true ∧ ∃ (h : Holder), s.mgmt.holder = some h ∧ h.started = false ∧ h.cmd.opcode = 1284 ∧ ∃ (b : BulkObj), s.mgmt.bulk = [b] ∧ b.upload = true ∧ b.opcode = 1284 ∧ h.cmd.objOffset ≠ b.data.length) ∧
    (∃ (s : State), s.slicesUp = true ∧ ∃ (h : Holder), s.mgmt.holder = some h ∧ h.started = false ∧ h.cmd.opcode = 1284 ∧ h.cmd.last = false ∧ ∃ (b : BulkObj), s.mgmt.bulk = [b] ∧ b.upload = true ∧ b.opcode = 1284 ∧ h.cmd.objOffset = b.data.length ∧ b.data.length + h.cmd.payload.length ≤ 536870912) ∧
    (∃ (s : State), s.slicesUp = true ∧ s.on F.FED_STATE_MOVING = true ∧ ∃ (h : Holder), s.mgmt.holder = some h ∧ h.started = false ∧ h.cmd.opcode = 1296) ∧
    (∃ (s : State), s.slicesUp = true ∧ s.on F.FED_STATE_MOVING = false ∧ ∃ (h : Holder), s.mgmt.holder = some h ∧ h.started = false ∧ h.cmd.opcode = 1296 ∧ (4104 ≤ h.cmd.num 0 ∨ 4104 ≤ h.cmd.num 2 ∨ s.fedState ≠ fedMember)) ∧
    (∃ (s : State), s.slicesUp = true ∧ s.on F.FED_STATE_MOVING = false ∧ ∃ (h : Holder), s.mgmt.holder = some h ∧ h.started = false ∧ h.cmd.opcode = 1296 ∧ h.cmd.num 1 = s.fedId ∧ (h.cmd.route ≠ routeRelay ∨ s.instType (h.cmd.num 2) = 0)) ∧
    (∃ (s : State), s.slicesUp = true ∧ s.on F.FED_STATE_MOVING = false ∧ ∃ (h : Holder), s.mgmt.holder = some h ∧ h.started = false ∧ h.cmd.opcode = 1296 ∧ h.cmd.num 1 ≠ s.fedId ∧ (64 ≤ h.cmd.num 1 ∨ bitOf (s.fld F.FED_MEMBERS) (h.cmd.num 1) = false ∨ s.instType (h.cmd.num 0) = 0)) ∧
    (∃ (s : State), s.slicesUp = true ∧ s.on F.FED_STATE_MOVING = false ∧ s.fedState = fedMember ∧ ∃ (h : Holder), s.mgmt.holder = some h ∧ h.started = false ∧ h.cmd.opcode = 1296 ∧ h.cmd.num 0 < 4104 ∧ h.cmd.num 2 < 4104 ∧ h.cmd.num 1 ≠ s.fedId ∧ h.cmd.num 1 < 64 ∧ bitOf (s.fld F.FED_MEMBERS) (h.cmd.num 1) = true ∧ s.instType (h.cmd.num 0) ≠ 0) ∧
    (∃ (s : State), s.slicesUp = true ∧ s.on F.FED_STATE_MOVING = false ∧ s.fedState = fedMember ∧ ∃ (h : Holder), s.mgmt.holder = some h ∧ h.started = false ∧ h.cmd.opcode = 1296 ∧ h.cmd.num 0 < 4104 ∧ h.cmd.num 2 < 4104 ∧ h.cmd.num 1 = s.fedId ∧ h.cmd.route = routeRelay ∧ s.instType (h.cmd.num 2) ≠ 0) ∧
    (∃ (s : State), s.slicesUp = true ∧ s.on F.FED_STATE_MOVING = true ∧ ∃ (h : Holder), s.mgmt.holder = some h ∧ h.started = false ∧ h.cmd.opcode = 1297) :=
  ⟨⟨instanceAndNamespaceOpcodes_45_s, chk (dA inferInstance (dA inferInstance (dSome fun _ => (dA inferInstance (dA inferInstance (dA inferInstance (dA inferInstance (dA inferInstance (dA inferInstance (dA inferInstance (dPS fun _ _ => inferInstance))))))))))) (by decide +kernel)⟩,
   ⟨instanceAndNamespaceOpcodes_46_s, chk (dA inferInstance (dSome fun _ => (dA inferInstance (dA inferInstance (dCC fun _ => inferInstance))))) (by decide +kernel)⟩,
   ⟨instanceAndNamespaceOpcodes_47_s, chk (dA inferInstance (dSome fun _ => (dA inferInstance (dA inferInstance (dA inferInstance (dCC fun _ => inferInstance)))))) (by decide +kernel)⟩,
   ⟨instanceAndNamespaceOpcodes_49_s, chk (dA inferInstance (dA inferInstance (dSome fun _ => inferInstance))) (by decide +kernel)⟩,
   ⟨instanceAndNamespaceOpcodes_50_s, chk (dA inferInstance (dA inferInstance (dSome fun _ => inferInstance))) (by decide +kernel)⟩,
   ⟨wOp wMem 0x0510 [1, 3, 1], chk (dA inferInstance (dA inferInstance (dSome fun _ => inferInstance))) (by decide +kernel)⟩,
   ⟨wOp wMem 0x0510 [1, 9, 1], chk (dA inferInstance (dA inferInstance (dSome fun _ => inferInstance))) (by decide +kernel)⟩,
   ⟨instanceAndNamespaceOpcodes_53_s, chk (dA inferInstance (dA inferInstance (dA inferInstance (dSome fun _ => inferInstance)))) (by decide +kernel)⟩,
   ⟨instanceAndNamespaceOpcodes_54_s, chk (dA inferInstance (dA inferInstance (dA inferInstance (dSome fun _ => inferInstance)))) (by decide +kernel)⟩,
   ⟨instanceAndNamespaceOpcodes_55_s, chk (dA inferInstance (dA inferInstance (dSome fun _ => inferInstance))) (by decide +kernel)⟩⟩

/-- The opcodes of namespaces, instance states and federated bindings: clauses 56, 57. -/
theorem witness_InstanceAndNamespaceOpcodes_f :
    (∃ (s : State), s.slicesUp = true ∧ s.on F.FED_STATE_MOVING = false ∧ ∃ (h : Holder), s.mgmt.holder = some h ∧ h.started = false ∧ h.cmd.opcode = 1297 ∧ (s.fe.bindings.any fun (b : FeBinding) => decide (b.anchorInst = h.cmd.num 0 ∧ b.homeInst = h.cmd.num 2) && if b.anchor = true then decide (b.peer = h.cmd.num 1) else decide (s.fedId = h.cmd.num 1)) = false) ∧
    (∃ (s : State), s.slicesUp = true ∧ s.on F.FED_STATE_MOVING = false ∧ ∃ (h : Holder), s.mgmt.holder = some h ∧ h.started = false ∧ h.cmd.opcode = 1297 ∧ (s.fe.bindings.any fun (b : FeBinding) => decide (b.anchorInst = h.cmd.num 0 ∧ b.homeInst = h.cmd.num 2) && if b.anchor = true then decide (b.peer = h.cmd.num 1) else decide (s.fedId = h.cmd.num 1)) = true) :=
  ⟨⟨wOp wMem 0x0511 [1, 2, 1], chk (dA inferInstance (dA inferInstance (dSome fun _ => inferInstance))) (by decide +kernel)⟩,
   ⟨instanceAndNamespaceOpcodes_57_s, chk (dA inferInstance (dA inferInstance (dSome fun _ => inferInstance))) (by decide +kernel)⟩⟩

def reportAndControlOpcodes_24_s : State :=
  { wOp wUp 0x0400 [1, 1] with boot.recovery := true }

def reportAndControlOpcodes_25_s : State :=
  wMg (wInst wUp 8 1) { cmd := { route := 0, opcode := 0x0400, objOffset := 10 ^ 9, payload := [64, 4, 0].flatMap (leBytes 4) } }

def reportAndControlOpcodes_26_s : State :=
  wMg { wFn with core := { wUp.core with dumps := [] } } { cmd := { route := 0, opcode := 0x0400, objOffset := 10 ^ 9, payload := [64, 2, 8].flatMap (leBytes 4) } }

def reportAndControlOpcodes_27_s : State :=
  wOp wFn 0x0400 [65536, 2, 8]

def reportAndControlOpcodes_30_s : State :=
  { wOp wFn 0x0400 [4096, 2, 8] with mgmt.bulk := [⟨false, 0x0400, leBytes 4 2 ++ leBytes 4 8, [1, 2, 3], 0⟩] }

def reportAndControlOpcodes_32_s : State :=
  wOp wUp 0x0704 [0x4000000]

def reportAndControlOpcodes_33_s : State :=
  wOp wUp 0x0705 [0x4000000]

def reportAndControlOpcodes_40_s : State :=
  { wOp wFn 0x0402 [5, 0] with mgmt.sink := some 0 }

def reportAndControlOpcodes_42_s : State :=
  wOp wFn 0x0402 [0xFFFF, 0]

def reportAndControlOpcodes_43_s : State :=
  wOp wUp 0x0403 [0x0400] [1]

def reportAndControlOpcodes_44_s : State :=
  wOp { wFn with mgmt.bulk := [⟨false, 0x0400, [1], [2], 0⟩] } 0x0403 [0x0400] [1]

def reportAndControlOpcodes_53_s : State :=
  wMg wUp { cmd := { route := 2, opcode := 0x10010, payload := [0, 0, 15, 0x42, 0, 0, 0, 8] } }

def reportAndControlOpcodes_54_s : State :=
  wOp wUp 0x10010 [0, 0x00040000]

def reportAndControlOpcodes_57_s : State :=
  { wOp wUp 0x10010 [0, 0x08000000] with mgmt.bulk := [⟨false, 0x10010, [], [1, 2, 3], 0⟩] }

def reportAndControlOpcodes_58_s : State :=
  wOp wUp 0x0800 [1, 2, 3, 4]

def reportAndControlOpcodes_64_s : State :=
  wOp wUp 0x0702 [3, 3, 0, 1]

/-- The opcodes that report, and those that control clusters, logs, registers, events and time: clauses 0, 1, 2, 3, 4, 5, 6, 7, 8, 9. -/
theorem witness_ReportAndControlOpcodes_a :
    (∃ (s : State), s.slicesUp = true ∧ Option.any (fun (h : Holder) => !h.started && decide (h.cmd.opcode = 256)) s.mgmt.holder = false) ∧
    (∃ (s : State), s.slicesUp = true ∧ Option.any (fun (h : Holder) => !h.started && decide (h.cmd.opcode = 257)) s.mgmt.holder = false) ∧
    (∃ (s : State), s.slicesUp = true ∧ Option.any (fun (h : Holder) => !h.started && decide (h.cmd.opcode = 1024)) s.mgmt.holder = false) ∧
    (∃ (s : State), s.slicesUp = true ∧ Option.any (fun (h : Holder) => !h.started && decide (h.cmd.opcode = 1025)) s.mgmt.holder = false) ∧
    (∃ (s : State), s.slicesUp = true ∧ Option.any (fun (h : Holder) => !h.started && decide (h.cmd.opcode = 1026)) s.mgmt.holder = false) ∧
    (∃ (s : State), s.slicesUp = true ∧ Option.any (fun (h : Holder) => !h.started && decide (h.cmd.opcode = 1027)) s.mgmt.holder = false) ∧
    (∃ (s : State), s.slicesUp = true ∧ Option.any (fun (h : Holder) => !h.started && decide (h.cmd.opcode = 1536)) s.mgmt.holder = false) ∧
    (∃ (s : State), s.slicesUp = true ∧ Option.any (fun (h : Holder) => !h.started && decide (h.cmd.opcode = 1538)) s.mgmt.holder = false) ∧
    (∃ (s : State), s.slicesUp = true ∧ Option.any (fun (h : Holder) => !h.started && decide (h.cmd.opcode = 1792)) s.mgmt.holder = false) ∧
    (∃ (s : State), s.slicesUp = true ∧ Option.any (fun (h : Holder) => !h.started && decide (h.cmd.opcode = 1793)) s.mgmt.holder = false) :=
  ⟨⟨wOp wUp 0x0101, by decide +kernel⟩,
   ⟨wOp wUp 0x0100, by decide +kernel⟩,
   ⟨wOp wUp 0x0100, by decide +kernel⟩,
   ⟨wOp wUp 0x0100, by decide +kernel⟩,
   ⟨wOp wUp 0x0100, by decide +kernel⟩,
   ⟨wOp wUp 0x0100, by decide +kernel⟩,
   ⟨wOp wUp 0x0100, by decide +kernel⟩,
   ⟨wOp wUp 0x0100, by decide +kernel⟩,
   ⟨wOp wUp 0x0100, by decide +kernel⟩,
   ⟨wOp wUp 0x0100, by decide +kernel⟩⟩

/-- The opcodes that report, and those that control clusters, logs, registers, events and time: clauses 10, 11, 12, 13, 14, 15, 16, 17, 18, 19. -/
theorem witness_ReportAndControlOpcodes_b :
    (∃ (s : State), s.slicesUp = true ∧ Option.any (fun (h : Holder) => !h.started && decide (h.cmd.opcode = 1794)) s.mgmt.holder = false) ∧
    (∃ (s : State), s.slicesUp = true ∧ Option.any (fun (h : Holder) => !h.started && decide (h.cmd.opcode = 1795)) s.mgmt.holder = false) ∧
    (∃ (s : State), s.slicesUp = true ∧ Option.any (fun (h : Holder) => !h.started && decide (h.cmd.opcode = 1796)) s.mgmt.holder = false) ∧
    (∃ (s : State), s.slicesUp = true ∧ Option.any (fun (h : Holder) => !h.started && decide (h.cmd.opcode = 1797)) s.mgmt.holder = false) ∧
    (∃ (s : State), s.slicesUp = true ∧ Option.any (fun (h : Holder) => !h.started && decide (h.cmd.opcode = 2048)) s.mgmt.holder = false) ∧
    (∃ (s : State), s.slicesUp = true ∧ Option.any (fun (h : Holder) => !h.started && decide (h.cmd.opcode = 2049)) s.mgmt.holder = false) ∧
    (∃ (s : State), s.slicesUp = true ∧ Option.any (fun (h : Holder) => !h.started && decide (h.cmd.opcode = 65537)) s.mgmt.holder = false) ∧
    (∃ (s : State), s.slicesUp = true ∧ Option.any (fun (h : Holder) => !h.started && decide (h.cmd.opcode = 65538)) s.mgmt.holder = false) ∧
    (∃ (s : State), s.slicesUp = true ∧ Option.any (fun (h : Holder) => !h.started && decide (h.cmd.opcode = 65552)) s.mgmt.holder = false) ∧
    (∃ (s : State), s.slicesUp = true ∧ Option.any (fun (h : Holder) => !h.started && decide (h.cmd.opcode = 65600)) s.mgmt.holder = false) :=
  ⟨⟨wOp wUp 0x0100, by decide +kernel⟩,
   ⟨wOp wUp 0x0100, by decide +kernel⟩,
   ⟨wOp wUp 0x0100, by decide +kernel⟩,
   ⟨wOp wUp 0x0100, by decide +kernel⟩,
   ⟨wOp wUp 0x0100, by decide +kernel⟩,
   ⟨wOp wUp 0x0100, by decide +kernel⟩,
   ⟨wOp wUp 0x0100, by decide +kernel⟩,
   ⟨wOp wUp 0x0100, by decide +kernel⟩,
   ⟨wOp wUp 0x0100, by decide +kernel⟩,
   ⟨wOp wUp 0x0100, by decide +kernel⟩⟩

/-- The opcodes that report, and those that control clusters, logs, registers, events and time: clauses 20, 21, 22, 23, 24, 25, 26, 27, 30, 31. -/
theorem witness_ReportAndControlOpcodes_c :
    (∃ (s : State), s.slicesUp = true ∧ Option.any (fun (h : Holder) => !h.started && decide (h.cmd.opcode = 65616)) s.mgmt.holder = false) ∧
    (∃ (s : State), s.running = true ∧ s.boot.romPending = false ∧ ∃ (h : Holder), s.mgmt.holder = some h ∧ h.started = false ∧ h.cmd.opcode = 256) ∧
    (∃ (s : State), s.running = true ∧ s.boot.romPending = false ∧ ∃ (h : Holder), s.mgmt.holder = some h ∧ h.started = false ∧ h.cmd.opcode = 257) ∧
    (∃ (s : State), s.running = true ∧ s.boot.romPending = false ∧ ∃ (h : Holder), s.mgmt.holder = some h ∧ h.started = false ∧ h.cmd.opcode = 1024 ∧ maxLenOk (h.cmd.num 0) = false ∧ (s.boot.recovery = false ∨ h.cmd.num 1 = 5)) ∧
    (∃ (s : State), s.running = true ∧ s.boot.romPending = false ∧ s.boot.recovery = true ∧ ∃ (h : Holder), s.mgmt.holder = some h ∧ h.started = false ∧ h.cmd.opcode = 1024 ∧ maxLenOk (h.cmd.num 0) = true ∧ h.cmd.num 1 ≠ 5) ∧
    (∃ (s : State), s.running = true ∧ s.boot.romPending = false ∧ s.boot.recovery = false ∧ ∃ (h : Holder), s.mgmt.holder = some h ∧ h.started = false ∧ h.cmd.opcode = 1024 ∧ maxLenOk (h.cmd.num 0) = true ∧ (h.cmd.num 1 = 5 ∨ s.mgmt.bulk = [] ∧ s.logObject (h.cmd.num 1) (h.cmd.num 2) (h.cmd.num 3) = none)) ∧
    (∃ (s : State), s.running = true ∧ s.boot.romPending = false ∧ ∃ (h : Holder), s.mgmt.holder = some h ∧ h.started = false ∧ h.cmd.opcode = 1024 ∧ maxLenOk (h.cmd.num 0) = true ∧ (h.cmd.num 1 = if s.boot.recovery = true then 5 else h.cmd.num 1) ∧ (s.boot.recovery = true ∨ h.cmd.num 1 ≠ 5) ∧ (∀ (b : BulkObj), b ∈ s.mgmt.bulk → b.upload = false → b.opcode = 1024 → b.selector ≠ List.drop 4 h.cmd.payload) ∧ ∃ (d : List Byte), s.logObject (h.cmd.num 1) (h.cmd.num 2) (h.cmd.num 3) = some d ∧ d.length < h.cmd.objOffset) ∧
    (∃ (s : State), s.running = true ∧ s.boot.romPending = false ∧ ∃ (h : Holder), s.mgmt.holder = some h ∧ h.started = false ∧ h.cmd.opcode = 1024 ∧ maxLenOk (h.cmd.num 0) = true ∧ (h.cmd.num 1 = if s.boot.recovery = true then 5 else h.cmd.num 1) ∧ (s.boot.recovery = true ∨ h.cmd.num 1 ≠ 5) ∧ (∀ (b : BulkObj), b ∈ s.mgmt.bulk → b.upload = false → b.opcode = 1024 → b.selector ≠ List.drop 4 h.cmd.payload) ∧ ∃ (d : List Byte), s.logObject (h.cmd.num 1) (h.cmd.num 2) (h.cmd.num 3) = some d ∧ h.cmd.objOffset ≤ d.length ∧ d.length - h.cmd.objOffset ≤ h.cmd.num 0) ∧
    (∃ (s : State), s.running = true ∧ s.boot.romPending = false ∧ ∃ (h : Holder), s.mgmt.holder = some h ∧ h.started = false ∧ h.cmd.opcode = 1024 ∧ maxLenOk (h.cmd.num 0) = true ∧ (h.cmd.num 1 = if s.boot.recovery = true then 5 else h.cmd.num 1) ∧ (s.boot.recovery = true ∨ h.cmd.num 1 ≠ 5) ∧ ∃ (d : List Byte), s.logObject (h.cmd.num 1) (h.cmd.num 2) (h.cmd.num 3) = some d ∧ ∃ (b : BulkObj), s.mgmt.bulk = [b] ∧ b.upload = false ∧ b.opcode = 1024 ∧ b.selector = List.drop 4 h.cmd.payload ∧ h.cmd.objOffset ≤ b.data.length ∧ b.data.length - h.cmd.objOffset ≤ h.cmd.num 0) ∧
    (∃ (s : State), s.running = true ∧ s.boot.romPending = false ∧ ∃ (h : Holder), s.mgmt.holder = some h ∧ h.started = false ∧ h.cmd.opcode = 1795) :=
  ⟨⟨wOp wUp 0x0100, by decide +kernel⟩,
   ⟨wOp wUp 0x0100, chk (dA inferInstance (dA inferInstance (dSome fun _ => inferInstance))) (by decide +kernel)⟩,
   ⟨wOp wUp 0x0101, chk (dA inferInstance (dA inferInstance (dSome fun _ => inferInstance))) (by decide +kernel)⟩,
   ⟨wOp wUp 0x0400 [0, 1], chk (dA inferInstance (dA inferInstance (dSome fun _ => inferInstance))) (by decide +kernel)⟩,
   ⟨reportAndControlOpcodes_24_s, chk (dA inferInstance (dA inferInstance (dA inferInstance (dSome fun _ => inferInstance)))) (by decide +kernel)⟩,
   ⟨reportAndControlOpcodes_25_s, chk (dA inferInstance (dA inferInstance (dA inferInstance (dSome fun _ => inferInstance)))) (by decide +kernel)⟩,
   ⟨reportAndControlOpcodes_26_s, chk (dA inferInstance (dA inferInstance (dSome fun _ => (dA inferInstance (dA inferInstance (dA inferInstance (dA inferInstance (dA inferInstance (dA inferInstance (dSome fun _ => inferInstance)))))))))) (by decide +kernel)⟩,
   ⟨reportAndControlOpcodes_27_s, chk (dA inferInstance (dA inferInstance (dSome fun _ => (dA inferInstance (dA inferInstance (dA inferInstance (dA inferInstance (dA inferInstance (dA inferInstance (dSome fun _ => inferInstance)))))))))) (by decide +kernel)⟩,
   ⟨reportAndControlOpcodes_30_s, chk (dA inferInstance (dA inferInstance (dSome fun _ => (dA inferInstance (dA inferInstance (dA inferInstance (dA inferInstance (dA inferInstance (dSome fun _ => (dCC fun _ => inferInstance)))))))))) (by decide +kernel)⟩,
   ⟨wOp wUp 0x0703, chk (dA inferInstance (dA inferInstance (dSome fun _ => inferInstance))) (by decide +kernel)⟩⟩

/-- The opcodes that report, and those that control clusters, logs, registers, events and time: clauses 32, 33, 34, 35, 36, 37, 38, 39, 40, 41. -/
theorem witness_ReportAndControlOpcodes_d :
    (∃ (s : State), s.running = true ∧ s.boot.romPending = false ∧ ∃ (h : Holder), s.mgmt.holder = some h ∧ h.started = false ∧ h.cmd.opcode = 1796 ∧ ∃ (a : Nat), h.cmd.regAddr = some a ∧ True) ∧
    (∃ (s : State), s.running = true ∧ s.boot.romPending = false ∧ ∃ (h : Holder), s.mgmt.holder = some h ∧ h.started = false ∧ h.cmd.opcode = 1797 ∧ ∃ (a : Nat), h.cmd.regAddr = some a ∧ True) ∧
    (∃ (s : State), s.running = true ∧ s.boot.romPending = false ∧ ∃ (h : Holder), s.mgmt.holder = some h ∧ h.started = false ∧ h.cmd.opcode = 1796 ∧ h.cmd.regAddr = none) ∧
    (∃ (s : State), s.running = true ∧ s.boot.romPending = false ∧ ∃ (h : Holder), s.mgmt.holder = some h ∧ h.started = false ∧ h.cmd.opcode = 1797 ∧ h.cmd.regAddr = none) ∧
    (∃ (s : State), s.running = true ∧ s.boot.romPending = false ∧ s.slicesUp = true ∧ ∃ (h : Holder), s.mgmt.holder = some h ∧ h.started = false ∧ h.cmd.opcode = 1025 ∧ h.cmd.num 0 = 2 ∧ h.cmd.num 1 < 4104) ∧
    (∃ (s : State), s.running = true ∧ s.boot.romPending = false ∧ s.slicesUp = true ∧ ∃ (h : Holder), s.mgmt.holder = some h ∧ h.started = false ∧ h.cmd.opcode = 1025 ∧ (h.cmd.num 0 ≠ 2 ∨ 4104 ≤ h.cmd.num 1)) ∧
    (∃ (s : State), s.running = true ∧ s.boot.romPending = false ∧ s.slicesUp = true ∧ ∃ (h : Holder), s.mgmt.holder = some h ∧ h.started = false ∧ h.cmd.opcode = 1026 ∧ 4096 ≤ h.cmd.num 0 ∧ h.cmd.num 0 ≠ 65535) ∧
    (∃ (s : State), s.running = true ∧ s.boot.romPending = false ∧ s.slicesUp = true ∧ ∃ (h : Holder), s.mgmt.holder = some h ∧ h.started = false ∧ h.cmd.opcode = 1026 ∧ (h.cmd.num 0 < 4096 ∨ h.cmd.num 0 = 65535) ∧ bitOf (h.cmd.num 1) 0 = true) ∧
    (∃ (s : State), s.running = true ∧ s.boot.romPending = false ∧ s.slicesUp = true ∧ s.mgmt.sink = some s.fedId ∧ ∃ (h : Holder), s.mgmt.holder = some h ∧ h.started = false ∧ h.cmd.opcode = 1026 ∧ (h.cmd.num 0 < 4096 ∨ h.cmd.num 0 = 65535) ∧ bitOf (h.cmd.num 1) 0 = false) ∧
    (∃ (s : State), s.running = true ∧ s.boot.romPending = false ∧ s.slicesUp = true ∧ s.mgmt.sink ≠ some s.fedId ∧ ∃ (h : Holder), s.mgmt.holder = some h ∧ h.started = false ∧ h.cmd.opcode = 1026 ∧ bitOf (h.cmd.num 1) 0 = false ∧ h.cmd.num 0 < 4096) :=
  ⟨⟨reportAndControlOpcodes_32_s, chk (dA inferInstance (dA inferInstance (dSome fun _ => (dA inferInstance (dA inferInstance (dSome fun _ => inferInstance)))))) (by decide +kernel)⟩,
   ⟨reportAndControlOpcodes_33_s, chk (dA inferInstance (dA inferInstance (dSome fun _ => (dA inferInstance (dA inferInstance (dSome fun _ => inferInstance)))))) (by decide +kernel)⟩,
   ⟨wOp wUp 0x0704, chk (dA inferInstance (dA inferInstance (dSome fun _ => inferInstance))) (by decide +kernel)⟩,
   ⟨wOp wUp 0x0705, chk (dA inferInstance (dA inferInstance (dSome fun _ => inferInstance))) (by decide +kernel)⟩,
   ⟨wOp wFn 0x0401 [2, 8], chk (dA inferInstance (dA inferInstance (dA inferInstance (dSome fun _ => inferInstance)))) (by decide +kernel)⟩,
   ⟨wOp wFn 0x0401 [1, 8], chk (dA inferInstance (dA inferInstance (dA inferInstance (dSome fun _ => inferInstance)))) (by decide +kernel)⟩,
   ⟨wOp wFn 0x0402 [5000, 0], chk (dA inferInstance (dA inferInstance (dA inferInstance (dSome fun _ => inferInstance)))) (by decide +kernel)⟩,
   ⟨wOp wFn 0x0402 [5, 1], chk (dA inferInstance (dA inferInstance (dA inferInstance (dSome fun _ => inferInstance)))) (by decide +kernel)⟩,
   ⟨reportAndControlOpcodes_40_s, chk (dA inferInstance (dA inferInstance (dA inferInstance (dA inferInstance (dSome fun _ => inferInstance))))) (by decide +kernel)⟩,
   ⟨wOp wFn 0x0402 [4095, 0], chk (dA inferInstance (dA inferInstance (dA inferInstance (dA inferInstance (dSome fun _ => inferInstance))))) (by decide +kernel)⟩⟩

/-- The opcodes that report, and those that control clusters, logs, registers, events and time: clauses 42, 43, 44, 45, 46, 47, 48, 49, 50, 51. -/
theorem witness_ReportAndControlOpcodes_e :
    (∃ (s : State), s.running = true ∧ s.boot.romPending = false ∧ s.slicesUp = true ∧ s.mgmt.sink ≠ some s.fedId ∧ ∃ (h : Holder), s.mgmt.holder = some h ∧ h.started = false ∧ h.cmd.opcode = 1026 ∧ bitOf (h.cmd.num 1) 0 = false ∧ h.cmd.num 0 = 65535) ∧
    (∃ (s : State), s.running = true ∧ s.boot.romPending = false ∧ s.slicesUp = true ∧ s.mgmt.bulk = [] ∧ ∃ (h : Holder), s.mgmt.holder = some h ∧ h.started = false ∧ h.cmd.opcode = 1027) ∧
    (∃ (s : State), s.running = true ∧ s.boot.romPending = false ∧ s.slicesUp = true ∧ ∃ (h : Holder), s.mgmt.holder = some h ∧ h.started = false ∧ h.cmd.opcode = 1027 ∧ ∃ (b : BulkObj), s.mgmt.bulk = [b] ∧ b.opcode = h.cmd.num 0 ∧ b.selector = List.drop 4 h.cmd.payload) ∧
    (∃ (s : State), s.running = true ∧ s.boot.romPending = false ∧ s.slicesUp = true ∧ ∃ (h : Holder), s.mgmt.holder = some h ∧ h.started = false ∧ h.cmd.opcode = 1536) ∧
    (∃ (s : State), s.running = true ∧ s.boot.romPending = false ∧ s.slicesUp = true ∧ ∃ (h : Holder), s.mgmt.holder = some h ∧ h.started = false ∧ h.cmd.opcode = 1538) ∧
    (∃ (s : State), s.running = true ∧ s.boot.romPending = false ∧ s.slicesUp = true ∧ ∃ (h : Holder), s.mgmt.holder = some h ∧ h.started = false ∧ h.cmd.opcode = 2049) ∧
    (∃ (s : State), s.running = true ∧ s.boot.romPending = false ∧ s.slicesUp = true ∧ ∃ (h : Holder), s.mgmt.holder = some h ∧ h.started = false ∧ h.cmd.opcode = 65537) ∧
    (∃ (s : State), s.running = true ∧ s.boot.romPending = false ∧ s.slicesUp = true ∧ ∃ (h : Holder), s.mgmt.holder = some h ∧ h.started = false ∧ h.cmd.opcode = 65538) ∧
    (∃ (s : State), s.running = true ∧ s.boot.romPending = false ∧ s.slicesUp = true ∧ ∃ (h : Holder), s.mgmt.holder = some h ∧ h.started = false ∧ h.cmd.opcode = 65600) ∧
    (∃ (s : State), s.running = true ∧ s.boot.romPending = false ∧ s.slicesUp = true ∧ ∃ (h : Holder), s.mgmt.holder = some h ∧ h.started = false ∧ h.cmd.opcode = 65616) :=
  ⟨⟨reportAndControlOpcodes_42_s, chk (dA inferInstance (dA inferInstance (dA inferInstance (dA inferInstance (dSome fun _ => inferInstance))))) (by decide +kernel)⟩,
   ⟨reportAndControlOpcodes_43_s, chk (dA inferInstance (dA inferInstance (dA inferInstance (dA inferInstance (dSome fun _ => inferInstance))))) (by decide +kernel)⟩,
   ⟨reportAndControlOpcodes_44_s, chk (dA inferInstance (dA inferInstance (dA inferInstance (dSome fun _ => (dA inferInstance (dA inferInstance (dCC fun _ => inferInstance))))))) (by decide +kernel)⟩,
   ⟨wOp wUp 0x0600, chk (dA inferInstance (dA inferInstance (dA inferInstance (dSome fun _ => inferInstance)))) (by decide +kernel)⟩,
   ⟨wOp wUp 0x0602, chk (dA inferInstance (dA inferInstance (dA inferInstance (dSome fun _ => inferInstance)))) (by decide +kernel)⟩,
   ⟨wOp wUp 0x0801, chk (dA inferInstance (dA inferInstance (dA inferInstance (dSome fun _ => inferInstance)))) (by decide +kernel)⟩,
   ⟨wOp wUp 0x10001, chk (dA inferInstance (dA inferInstance (dA inferInstance (dSome fun _ => inferInstance)))) (by decide +kernel)⟩,
   ⟨wOp wUp 0x10002, chk (dA inferInstance (dA inferInstance (dA inferInstance (dSome fun _ => inferInstance)))) (by decide +kernel)⟩,
   ⟨wOp wUp 0x10040, chk (dA inferInstance (dA inferInstance (dA inferInstance (dSome fun _ => inferInstance)))) (by decide +kernel)⟩,
   ⟨wOp wUp 0x10050, chk (dA inferInstance (dA inferInstance (dA inferInstance (dSome fun _ => inferInstance)))) (by decide +kernel)⟩⟩

/-- The opcodes that report, and those that control clusters, logs, registers, events and time: clauses 52, 53, 54, 57, 58, 59, 60, 61, 62, 63. -/
theorem witness_ReportAndControlOpcodes_f :
    (∃ (s : State), s.running = true ∧ s.boot.romPending = false ∧ s.slicesUp = true ∧ ∃ (h : Holder), s.mgmt.holder = some h ∧ h.started = false ∧ h.cmd.opcode = 65552 ∧ (beAt h.cmd.payload 4 4 = 0 ∨ 3968 < beAt h.cmd.payload 4 4)) ∧
    (∃ (s : State), s.running = true ∧ s.boot.romPending = false ∧ s.slicesUp = true ∧ (∀ (b : BulkObj), b ∈ s.mgmt.bulk → b.upload = false → b.opcode = 65552 → b.selector ≠ []) ∧ ∃ (h : Holder), s.mgmt.holder = some h ∧ h.started = false ∧ h.cmd.opcode = 65552 ∧ beAt h.cmd.payload 4 4 ≠ 0 ∧ beAt h.cmd.payload 4 4 ≤ 3968 ∧ (s.deviceLog 81921).length < beAt h.cmd.payload 0 4) ∧
    (∃ (s : State), s.running = true ∧ s.boot.romPending = false ∧ s.slicesUp = true ∧ (∀ (b : BulkObj), b ∈ s.mgmt.bulk → b.upload = false → b.opcode = 65552 → b.selector ≠ []) ∧ ∃ (h : Holder), s.mgmt.holder = some h ∧ h.started = false ∧ h.cmd.opcode = 65552 ∧ beAt h.cmd.payload 4 4 ≠ 0 ∧ beAt h.cmd.payload 4 4 ≤ 3968 ∧ beAt h.cmd.payload 0 4 ≤ (s.deviceLog 81921).length ∧ (s.deviceLog 81921).length - beAt h.cmd.payload 0 4 ≤ beAt h.cmd.payload 4 4) ∧
    (∃ (s : State), s.running = true ∧ s.boot.romPending = false ∧ s.slicesUp = true ∧ ∃ (h : Holder), s.mgmt.holder = some h ∧ h.started = false ∧ h.cmd.opcode = 65552 ∧ beAt h.cmd.payload 4 4 ≠ 0 ∧ beAt h.cmd.payload 4 4 ≤ 3968 ∧ ∃ (b : BulkObj), s.mgmt.bulk = [b] ∧ b.upload = false ∧ b.opcode = 65552 ∧ b.selector = [] ∧ beAt h.cmd.payload 0 4 ≤ b.data.length ∧ b.data.length - beAt h.cmd.payload 0 4 ≤ beAt h.cmd.payload 4 4) ∧
    (∃ (s : State), s.running = true ∧ s.boot.romPending = false ∧ s.slicesUp = true ∧ ∃ (h : Holder), s.mgmt.holder = some h ∧ h.started = false ∧ h.cmd.opcode = 2048) ∧
    (∃ (s : State), s.running = true ∧ s.boot.romPending = false ∧ s.slicesUp = true ∧ ∃ (h : Holder), s.mgmt.holder = some h ∧ (4 ≤ h.cmd.num 0 ∨ 4 ≤ h.cmd.num 1) ∧ h.started = false ∧ h.cmd.opcode = 1792) ∧
    (∃ (s : State), s.running = true ∧ s.boot.romPending = false ∧ s.slicesUp = true ∧ ∃ (h : Holder), s.mgmt.holder = some h ∧ (4 ≤ h.cmd.num 0 ∨ 4 ≤ h.cmd.num 1) ∧ h.started = false ∧ h.cmd.opcode = 1793) ∧
    (∃ (s : State), s.running = true ∧ s.boot.romPending = false ∧ s.slicesUp = true ∧ ∃ (h : Holder), s.mgmt.holder = some h ∧ (4 ≤ h.cmd.num 0 ∨ 4 ≤ h.cmd.num 1) ∧ h.started = false ∧ h.cmd.opcode = 1794) ∧
    (∃ (s : State), s.running = true ∧ s.boot.romPending = false ∧ s.slicesUp = true ∧ ∃ (h : Holder), s.mgmt.holder = some h ∧ h.cmd.num 0 < 4 ∧ h.cmd.num 1 < 4 ∧ h.started = false ∧ h.cmd.opcode = 1792) ∧
    (∃ (s : State), s.running = true ∧ s.boot.romPending = false ∧ s.slicesUp = true ∧ ∃ (h : Holder), s.mgmt.holder = some h ∧ h.cmd.num 0 < 4 ∧ h.cmd.num 1 < 4 ∧ h.started = false ∧ h.cmd.opcode = 1793) :=
  ⟨⟨wOp wUp 0x10010 [0, 0], chk (dA inferInstance (dA inferInstance (dA inferInstance (dSome fun _ => inferInstance)))) (by decide +kernel)⟩,
   ⟨reportAndControlOpcodes_53_s, chk (dA inferInstance (dA inferInstance (dA inferInstance (dA inferInstance (dSome fun _ => inferInstance))))) (by decide +kernel)⟩,
   ⟨reportAndControlOpcodes_54_s, chk (dA inferInstance (dA inferInstance (dA inferInstance (dA inferInstance (dSome fun _ => inferInstance))))) (by decide +kernel)⟩,
   ⟨reportAndControlOpcodes_57_s, chk (dA inferInstance (dA inferInstance (dA inferInstance (dSome fun _ => (dA inferInstance (dA inferInstance (dA inferInstance (dA inferInstance (dCC fun _ => inferInstance))))))))) (by decide +kernel)⟩,
   ⟨reportAndControlOpcodes_58_s, chk (dA inferInstance (dA inferInstance (dA inferInstance (dSome fun _ => inferInstance)))) (by decide +kernel)⟩,
   ⟨wOp wUp 0x0700 [4, 0], chk (dA inferInstance (dA inferInstance (dA inferInstance (dSome fun _ => inferInstance)))) (by decide +kernel)⟩,
   ⟨wOp wUp 0x0701 [4, 0], chk (dA inferInstance (dA inferInstance (dA inferInstance (dSome fun _ => inferInstance)))) (by decide +kernel)⟩,
   ⟨wOp wUp 0x0702 [4, 0], chk (dA inferInstance (dA inferInstance (dA inferInstance (dSome fun _ => inferInstance)))) (by decide +kernel)⟩,
   ⟨wOp wUp 0x0700 [3, 3], chk (dA inferInstance (dA inferInstance (dA inferInstance (dSome fun _ => inferInstance)))) (by decide +kernel)⟩,
   ⟨wOp wUp 0x0701 [3, 3], chk (dA inferInstance (dA inferInstance (dA inferInstance (dSome fun _ => inferInstance)))) (by decide +kernel)⟩⟩

/-- The opcodes that report, and those that control clusters, logs, registers, events and time: clauses 64. -/
theorem witness_ReportAndControlOpcodes_g :
    ∃ (s : State), s.running = true ∧ s.boot.romPending = false ∧ s.slicesUp = true ∧ ∃ (h : Holder), s.mgmt.holder = some h ∧ h.cmd.num 0 < 4 ∧ h.cmd.num 1 < 4 ∧ h.started = false ∧ h.cmd.opcode = 1794 :=
  ⟨reportAndControlOpcodes_64_s, chk (dA inferInstance (dA inferInstance (dA inferInstance (dSome fun _ => inferInstance)))) (by decide +kernel)⟩

def powerStatesAndFreezes_7_s : State :=
  wIdle (wF wLater [(F.PWR_SI_MAX 0, 3)]) { idleSince := some 0 }

def powerStatesAndFreezes_9_s : State :=
  wIdle (wF wUp [(F.PWR_SI_MAX 0, 3)]) { idleSince := some 0 }

def powerStatesAndFreezes_14_s : State :=
  { wIdle wUp { move := 1, target := 2 } with time.wheels := [{ pending := [⟨false, 10000000000, .window, 1⟩] }, {}, {}, {}] }

def powerStatesAndFreezes_15_s : State :=
  { wIdle wUp { move := 1, target := 2 } with time.wheels := [{ pending := [⟨false, 10, .window, 1⟩] }, {}, {}, {}] }

def powerStatesAndFreezes_16_s : State :=
  { wF wUp [(F.PWR_SI_STATE_STATE 0, 1)] with time.wheels := [{ pending := [⟨false, 16000, .window, 1⟩] }, {}, {}, {}] }

def powerStatesAndFreezes_17_s : State :=
  { wF wUp [(F.PWR_SI_STATE_STATE 0, 1)] with time.wheels := [{ pending := [⟨false, 3200 + wUp.fld (F.TW_LEAD 0) + wUp.time.mono, .window, 1⟩] }, {}, {}, {}] }

def powerStatesAndFreezes_18_s : State :=
  { wF wUp [(F.PWR_SI_STATE_STATE 0, 1)] with time.wheels := [{ pending := [⟨false, 3201, .window, 1⟩] }, {}, {}, {}] }

def powerStatesAndFreezes_36_s : State :=
  { wPow 2000 with power.avsStep := some 2100 }

def powerStatesAndFreezes_37_s : State :=
  { wPow 2000 with power.avsStep := some 2100 }

def powerStatesAndFreezes_44_s : State :=
  { wLink with power.ltrSent := [some (wLink.ltrValue 0), none, none, none] }

def powerStatesAndFreezes_49_s : State :=
  { wUp with pmuPending := [(true, 0)] }

def powerStatesAndFreezes_50_s : State :=
  { wUp with pmuPending := [(true, 16)] }

/-- Idle states of the slices, power control, link power states, counter freezes and the temperature record: clauses 0, 1, 2, 3, 4, 5, 6, 7, 8, 9. -/
theorem witness_PowerStatesAndFreezes_a :
    (∃ (s : State), ∃ (k : Nat), s.slicesUp = true ∧ 4 ≤ k) ∧
    (∃ (s : State), ∃ (k : Nat), s.slicesUp = true ∧ 4 ≤ k) ∧
    (∃ (s : State), ∃ (k : Nat), s.slicesUp = true ∧ 4 ≤ k) ∧
    (∃ (s : State), ∃ (k : Nat), s.slicesUp = true ∧ 4 ≤ k) ∧
    (∃ (s : State), ∃ (k : Nat), s.slicesUp = true ∧ 4 ≤ k) ∧
    (∃ (s : State), ∃ (k : Nat), s.slicesUp = true ∧ k < 4 ∧ s.power.slices.length = 4 ∧ (s.idleX k).move ≠ 0) ∧
    (∃ (s : State), ∃ (k : Nat), s.slicesUp = true ∧ k < 4 ∧ s.power.slices.length = 4 ∧ (s.idleX k).move = 0 ∧ s.idleCeiling k < s.fld (F.PWR_SI_STATE_STATE k)) ∧
    (∃ (s : State), ∃ (k : Nat), s.slicesUp = true ∧ k < 4 ∧ s.power.slices.length = 4 ∧ (s.idleX k).move = 0 ∧ s.fld (F.PWR_SI_STATE_STATE k) ≤ s.idleCeiling k ∧ s.sliceIdle k = true ∧ s.fld (F.PWR_SI_STATE_STATE k) < s.idleChoice k ∧ ∃ (t0 : Nat), (s.idleX k).idleSince = some t0 ∧ 5 * t0 + 8 * s.fld (F.PWR_IDLE_DWELL k) ≤ 5 * s.time.mono) ∧
    (∃ (s : State), ∃ (k : Nat), s.slicesUp = true ∧ k < 4 ∧ s.power.slices.length = 4 ∧ (s.idleX k).move = 0 ∧ s.fld (F.PWR_SI_STATE_STATE k) ≤ s.idleCeiling k ∧ s.sliceIdle k = true ∧ (s.idleX k).idleSince = none ∧ 0 < s.fld (F.PWR_IDLE_DWELL k)) ∧
    (∃ (s : State), ∃ (k : Nat), s.slicesUp = true ∧ k < 4 ∧ s.power.slices.length = 4 ∧ (s.idleX k).move = 0 ∧ s.fld (F.PWR_SI_STATE_STATE k) ≤ s.idleCeiling k ∧ s.sliceIdle k = true ∧ ∃ (t0 : Nat), (s.idleX k).idleSince = some t0 ∧ (5 * s.time.mono < 5 * t0 + 8 * s.fld (F.PWR_IDLE_DWELL k) ∨ s.idleChoice k ≤ s.fld (F.PWR_SI_STATE_STATE k))) :=
  ⟨(by refine ⟨wIdle wUp { move := 1, target := 2 }, 5, ?_⟩; decide +kernel),
   (by refine ⟨wIdle wUp { move := 1, target := 2 }, 5, ?_⟩; decide +kernel),
   (by refine ⟨wIdle wUp { move := 1, target := 2 }, 5, ?_⟩; decide +kernel),
   (by refine ⟨wIdle wUp { move := 1, target := 2 }, 5, ?_⟩; decide +kernel),
   (by refine ⟨wIdle wUp { move := 1, target := 2 }, 5, ?_⟩; decide +kernel),
   (by refine ⟨wIdle wUp { move := 1, target := 2 }, 0, ?_⟩; decide +kernel),
   ⟨w1 wEth (F.PWR_SI_STATE_STATE 0) 3, 0, by decide +kernel⟩,
   ⟨powerStatesAndFreezes_7_s, 0, chk (dA inferInstance (dA inferInstance (dA inferInstance (dA inferInstance (dA inferInstance (dA inferInstance (dA inferInstance (dSome fun _ => inferInstance)))))))) (by decide +kernel)⟩,
   (by refine ⟨wIdle wUp { move := 1, target := 2 }, 1, ?_⟩; decide +kernel),
   ⟨powerStatesAndFreezes_9_s, 0, chk (dA inferInstance (dA inferInstance (dA inferInstance (dA inferInstance (dA inferInstance (dA inferInstance (dSome fun _ => inferInstance))))))) (by decide +kernel)⟩⟩

/-- Idle states of the slices, power control, link power states, counter freezes and the temperature record: clauses 10, 11, 12, 13, 14, 15, 16, 17, 18, 19. -/
theorem witness_PowerStatesAndFreezes_b :
    (∃ (s : State), ∃ (k : Nat), s.slicesUp = true ∧ k < 4 ∧ s.power.slices.length = 4 ∧ (s.idleX k).move = 0 ∧ s.fld (F.PWR_SI_STATE_STATE k) ≤ s.idleCeiling k ∧ s.sliceIdle k = false) ∧
    (∃ (s : State), ∃ (k : Nat), s.slicesUp = true ∧ k < 4 ∧ s.power.slices.length = 4 ∧ (s.idleX k).move = 1 ∧ (s.idleX k).target < 4) ∧
    (∃ (s : State), ∃ (k : Nat), s.slicesUp = true ∧ k < 4 ∧ s.power.slices.length = 4 ∧ (s.idleX k).move ≠ 1) ∧
    (∃ (s : State), ∃ (k : Nat), s.slicesUp = true ∧ k < 4 ∧ s.power.slices.length = 4 ∧ ((s.idleX k).move = 2 ∨ (s.idleX k).move = 0 ∧ s.fld (F.PWR_SI_STATE_STATE k) = 0 ∨ s.idleTime k = none)) ∧
    (∃ (s : State), ∃ (k : Nat), s.slicesUp = true ∧ k < 4 ∧ s.power.slices.length = 4 ∧ (s.idleX k).move = 1 ∧ (s.idleX k).target ≠ 0 ∧ ∃ (h : Int), s.idleTime k = some h ∧ ↑(idleLatency (s.idleX k).target) < h) ∧
    (∃ (s : State), ∃ (k : Nat), s.slicesUp = true ∧ k < 4 ∧ s.power.slices.length = 4 ∧ (s.idleX k).move = 1 ∧ (s.idleX k).target ≠ 0 ∧ ∃ (h : Int), s.idleTime k = some h ∧ h ≤ ↑(idleLatency (s.idleX k).target)) ∧
    (∃ (s : State), ∃ (k : Nat), s.slicesUp = true ∧ k < 4 ∧ s.power.slices.length = 4 ∧ (s.idleX k).move = 0 ∧ s.fld (F.PWR_SI_STATE_STATE k) ≠ 0 ∧ ∃ (h : Int), s.idleTime k = some h ∧ ↑(idleLatency (s.fld (F.PWR_SI_STATE_STATE k))) < h) ∧
    (∃ (s : State), ∃ (k : Nat), s.slicesUp = true ∧ k < 4 ∧ s.power.slices.length = 4 ∧ (s.idleX k).move = 0 ∧ s.fld (F.PWR_SI_STATE_STATE k) ≠ 0 ∧ ∃ (h : Int), s.idleTime k = some h ∧ h = ↑(idleLatency (s.fld (F.PWR_SI_STATE_STATE k)))) ∧
    (∃ (s : State), ∃ (k : Nat), s.slicesUp = true ∧ k < 4 ∧ s.power.slices.length = 4 ∧ (s.idleX k).move = 0 ∧ s.fld (F.PWR_SI_STATE_STATE k) ≠ 0 ∧ ∃ (h : Int), s.idleTime k = some h ∧ h < ↑(idleLatency (s.fld (F.PWR_SI_STATE_STATE k)))) ∧
    (∃ (s : State), ∃ (k : Nat), s.slicesUp = true ∧ k < 4 ∧ s.power.slices.length = 4 ∧ (s.idleX k).move = 1) :=
  ⟨(by refine ⟨{ wUp with time.wheels := [{ fired := [.firmware 0 0 0] }, {}, {}, {}] }, 0, ?_⟩; decide +kernel),
   (by refine ⟨wIdle wUp { move := 1, target := 2 }, 0, ?_⟩; decide +kernel),
   (by refine ⟨wIdle wUp { move := 1, target := 2 }, 1, ?_⟩; decide +kernel),
   (by refine ⟨wIdle wUp { move := 1, target := 2 }, 0, ?_⟩; decide +kernel),
   ⟨powerStatesAndFreezes_14_s, 0, chk (dA inferInstance (dA inferInstance (dA inferInstance (dA inferInstance (dA inferInstance (dSome fun _ => inferInstance)))))) (by decide +kernel)⟩,
   ⟨powerStatesAndFreezes_15_s, 0, chk (dA inferInstance (dA inferInstance (dA inferInstance (dA inferInstance (dA inferInstance (dSome fun _ => inferInstance)))))) (by decide +kernel)⟩,
   ⟨powerStatesAndFreezes_16_s, 0, chk (dA inferInstance (dA inferInstance (dA inferInstance (dA inferInstance (dA inferInstance (dSome fun _ => inferInstance)))))) (by decide +kernel)⟩,
   ⟨powerStatesAndFreezes_17_s, 0, chk (dA inferInstance (dA inferInstance (dA inferInstance (dA inferInstance (dA inferInstance (dSome fun _ => inferInstance)))))) (by decide +kernel)⟩,
   ⟨powerStatesAndFreezes_18_s, 0, chk (dA inferInstance (dA inferInstance (dA inferInstance (dA inferInstance (dA inferInstance (dSome fun _ => inferInstance)))))) (by decide +kernel)⟩,
   (by refine ⟨wIdle wUp { move := 1, target := 2 }, 0, ?_⟩; decide +kernel)⟩

/-- Idle states of the slices, power control, link power states, counter freezes and the temperature record: clauses 20, 21, 22, 23, 24, 25, 26, 27, 28, 29. -/
theorem witness_PowerStatesAndFreezes_c :
    (∃ (s : State), ∃ (k : Nat), s.slicesUp = true ∧ k < 4 ∧ s.power.slices.length = 4 ∧ (s.idleX k).move = 0 ∧ s.fld (F.PWR_SI_STATE_STATE k) ≠ 0) ∧
    (∃ (s : State), ∃ (k : Nat), s.slicesUp = true ∧ k < 4 ∧ s.power.slices.length = 4 ∧ (s.idleX k).move = 0 ∧ s.fld (F.PWR_SI_STATE_STATE k) = 0) ∧
    (∃ (s : State), ∃ (k : Nat), s.slicesUp = true ∧ k < 4 ∧ s.power.slices.length = 4 ∧ (s.idleX k).move = 2) ∧
    (∃ (s : State), ∃ (k : Nat), s.slicesUp = true ∧ k < 4 ∧ s.power.slices.length = 4 ∧ (s.idleX k).move ≠ 2) ∧
    (∃ (s : State), ∃ (k : Nat), s.slicesUp = true ∧ k < 4 ∧ s.power.slices.length = 4 ∧ (s.idleX k).move = 2) ∧
    (∃ (s : State), ∃ (k : Nat), s.slicesUp = true ∧ k < 4 ∧ s.power.slices.length = 4 ∧ (s.idleX k).move = 2 ∧ (s.idleX k).wakeFrames = []) ∧
    (∃ (s : State), ∃ (p : Nat), ∃ (d : List Nat), ∃ (ts : List Int), s.running = true ∧ s.time.mono < s.power.tickAt + 100 * ticksPerUs) ∧
    (∃ (s : State), ∃ (p : Nat), ∃ (d : List Nat), ∃ (ts : List Int), s.running = true ∧ s.power.tickAt + 100 * ticksPerUs ≤ s.time.mono ∧ p < 2 ^ 20 ∧ degrees 105 < signed 16 ((s.measurePower p d ts).fld F.TEMP_MAX)) ∧
    (∃ (s : State), ∃ (p : Nat), ∃ (d : List Nat), ∃ (ts : List Int), s.running = true ∧ s.power.tickAt + 100 * ticksPerUs ≤ s.time.mono ∧ p < 2 ^ 20 ∧ degrees 103 ≤ signed 16 ((s.measurePower p d ts).fld F.TEMP_MAX) ∧ signed 16 ((s.measurePower p d ts).fld F.TEMP_MAX) ≤ degrees 105) ∧
    (∃ (s : State), ∃ (p : Nat), ∃ (d : List Nat), ∃ (ts : List Int), s.running = true ∧ s.power.tickAt + 100 * ticksPerUs ≤ s.time.mono ∧ p < 2 ^ 20 ∧ signed 16 ((s.measurePower p d ts).fld F.TEMP_MAX) < degrees 103 ∧ (s.measurePower p d ts).powerCap < p ∧ coreMin < (s.measurePower p d ts).fld F.CORE_FREQ) :=
  ⟨⟨w1 wEth (F.PWR_SI_STATE_STATE 0) 3, 0, by decide +kernel⟩,
   (by refine ⟨wIdle wUp { move := 1, target := 2 }, 1, ?_⟩; decide +kernel),
   (by refine ⟨wIdle (w1 wUp (F.PWR_SI_STATE_STATE 0) 3) { move := 2, target := 3 }, 0, ?_⟩; decide +kernel),
   (by refine ⟨wIdle wUp { move := 1, target := 2 }, 0, ?_⟩; decide +kernel),
   (by refine ⟨wIdle (w1 wUp (F.PWR_SI_STATE_STATE 0) 3) { move := 2, target := 3 }, 0, ?_⟩; decide +kernel),
   (by refine ⟨wIdle (w1 wUp (F.PWR_SI_STATE_STATE 0) 3) { move := 2, target := 3 }, 0, ?_⟩; decide +kernel),
   (by refine ⟨wIdle wUp { move := 1, target := 2 }, 300001, [], List.replicate 8 400 ++ [841], ?_⟩; decide +kernel),
   (by refine ⟨wIdle (wF wLater [(F.PWR_SI_MAX 0, 3)]) { idleSince := some 0 }, 300001, [], List.replicate 8 400 ++ [841], ?_⟩; decide +kernel),
   (by refine ⟨wIdle (wF wLater [(F.PWR_SI_MAX 0, 3)]) { idleSince := some 0 }, 300001, [], List.replicate 8 400 ++ [840], ?_⟩; decide +kernel),
   ⟨wPow 2600, 300001, [], List.replicate 9 400, by decide +kernel⟩⟩

/-- Idle states of the slices, power control, link power states, counter freezes and the temperature record: clauses 30, 31, 32, 33, 34, 35, 36, 37, 38, 39. -/
theorem witness_PowerStatesAndFreezes_d :
    (∃ (s : State), ∃ (p : Nat), ∃ (d : List Nat), ∃ (ts : List Int), s.running = true ∧ s.power.tickAt + 100 * ticksPerUs ≤ s.time.mono ∧ p < 2 ^ 20 ∧ signed 16 ((s.measurePower p d ts).fld F.TEMP_MAX) < degrees 103 ∧ (s.measurePower p d ts).powerCap < p ∧ (s.measurePower p d ts).fld F.CORE_FREQ ≤ coreMin) ∧
    (∃ (s : State), ∃ (p : Nat), ∃ (d : List Nat), ∃ (ts : List Int), s.running = true ∧ s.power.tickAt + 100 * ticksPerUs ≤ s.time.mono ∧ p < 2 ^ 20 ∧ signed 16 ((s.measurePower p d ts).fld F.TEMP_MAX) < degrees 103 ∧ p ≤ (s.measurePower p d ts).powerCap ∧ s.on F.BOOST_CTRL_BOOST_EN = false ∧ coreBase < (s.measurePower p d ts).fld F.CORE_FREQ) ∧
    (∃ (s : State), ∃ (p : Nat), ∃ (d : List Nat), ∃ (ts : List Int), s.running = true ∧ s.power.tickAt + 100 * ticksPerUs ≤ s.time.mono ∧ p < 2 ^ 20 ∧ signed 16 ((s.measurePower p d ts).fld F.TEMP_MAX) < degrees 103 ∧ p ≤ (s.measurePower p d ts).powerCap ∧ s.on F.BOOST_CTRL_BOOST_EN = false ∧ ((s.measurePower p d ts).fld F.CORE_FREQ = coreBase ∨ (s.measurePower p d ts).fld F.CORE_FREQ < coreBase ∧ (s.measurePower p d ts).powerCap ≤ p + 1000 * s.fld F.BOOST_CTRL_BOOST_MARGIN)) ∧
    (∃ (s : State), ∃ (p : Nat), ∃ (d : List Nat), ∃ (ts : List Int), s.running = true ∧ s.power.tickAt + 100 * ticksPerUs ≤ s.time.mono ∧ p < 2 ^ 20 ∧ signed 16 ((s.measurePower p d ts).fld F.TEMP_MAX) < degrees 103 ∧ p + 1000 * s.fld F.BOOST_CTRL_BOOST_MARGIN < (s.measurePower p d ts).powerCap ∧ s.on F.BOOST_CTRL_BOOST_EN = false ∧ (s.measurePower p d ts).fld F.CORE_FREQ < coreBase ∧ (s.on F.PIN_STATUS_AVS_FAIL = true ∨ s.power.avsStep.isSome = true)) ∧
    (∃ (s : State), ∃ (p : Nat), ∃ (d : List Nat), ∃ (ts : List Int), s.running = true ∧ s.power.tickAt + 100 * ticksPerUs ≤ s.time.mono ∧ p < 2 ^ 20 ∧ signed 16 ((s.measurePower p d ts).fld F.TEMP_MAX) < degrees 103 ∧ p + 1000 * s.fld F.BOOST_CTRL_BOOST_MARGIN < (s.measurePower p d ts).powerCap ∧ s.on F.BOOST_CTRL_BOOST_EN = false ∧ (s.measurePower p d ts).fld F.CORE_FREQ < coreBase ∧ s.on F.PIN_STATUS_AVS_FAIL = false ∧ s.power.avsStep = none) ∧
    (∃ (s : State), ∃ (f : Nat), ∃ (ack : Bool), s.running = true ∧ f < 2 ^ 12 ∧ s.power.avsStep = none) ∧
    (∃ (s : State), s.running = true ∧ ∃ (f : Nat), s.power.avsStep = some f ∧ f < 2 ^ 12) ∧
    (∃ (s : State), s.running = true ∧ ∃ (f : Nat), s.power.avsStep = some f ∧ f < 2 ^ 12) ∧
    (∃ (s : State), ∃ (l : Nat), s.running = true ∧ 4 ≤ l) ∧
    (∃ (s : State), ∃ (l : Nat), s.running = true ∧ (4 ≤ l ∨ s.linkPfs l = [] ∨ s.linkTrained l = false)) :=
  ⟨⟨wPow 1200, 300001, [], List.replicate 9 400, by decide +kernel⟩,
   ⟨wPow 2600, 100000, [], List.replicate 9 400, by decide +kernel⟩,
   ⟨wPow coreBase, 100000, [], List.replicate 9 400, by decide +kernel⟩,
   (by refine ⟨{ wPow 2000 with power.avsStep := some 2100 }, 100000, [], List.replicate 9 400, ?_⟩; decide +kernel),
   ⟨wPow 1200, 100000, [], List.replicate 9 400, by decide +kernel⟩,
   (by refine ⟨wIdle wUp { move := 1, target := 2 }, 2100, false, ?_⟩; decide +kernel),
   ⟨powerStatesAndFreezes_36_s, chk (dA inferInstance (dSome fun _ => inferInstance)) (by decide +kernel)⟩,
   ⟨powerStatesAndFreezes_37_s, chk (dA inferInstance (dSome fun _ => inferInstance)) (by decide +kernel)⟩,
   (by refine ⟨wIdle wUp { move := 1, target := 2 }, 5, ?_⟩; decide +kernel),
   (by refine ⟨wIdle wUp { move := 1, target := 2 }, 0, ?_⟩; decide +kernel)⟩

/-- Idle states of the slices, power control, link power states, counter freezes and the temperature record: clauses 40, 41, 42, 43, 44, 45, 46, 47, 48, 49. -/
theorem witness_PowerStatesAndFreezes_e :
    (∃ (s : State), ∃ (l : Nat), s.running = true ∧ ∃ (p : Nat), ∃ (ps : List Nat), s.linkPfs l = p :: ps ∧ (s.fnX p).ltrEnable = false) ∧
    (∃ (s : State), ∃ (l : Nat), s.running = true ∧ l < 4 ∧ s.linkState l = 3 ∧ s.aspmOn l = true ∧ s.readsOn l = [] ∧ s.power.linkIdle.getD l 0 + s.fld F.PWR_ASPM_IDLE * ticksPerUs ≤ s.time.mono) ∧
    (∃ (s : State), ∃ (l : Nat), s.running = true ∧ l < 4 ∧ (s.linkState l ≠ 3 ∨ s.aspmOn l = false ∨ s.readsOn l ≠ [] ∨ s.time.mono < s.power.linkIdle.getD l 0 + s.fld F.PWR_ASPM_IDLE * ticksPerUs)) ∧
    (∃ (s : State), ∃ (l : Nat), s.running = true ∧ l < 4 ∧ s.linkTrained l = true ∧ s.power.ltrSent.getD l none ≠ some (s.ltrValue l) ∧ ∃ (p : Nat), ∃ (ps : List Nat), s.linkPfs l = p :: ps ∧ (s.fnX p).ltrEnable = true) ∧
    (∃ (s : State), ∃ (l : Nat), s.running = true ∧ l < 4 ∧ s.linkTrained l = true ∧ s.power.ltrSent.getD l none = some (s.ltrValue l) ∧ ∃ (p : Nat), ∃ (ps : List Nat), s.linkPfs l = p :: ps ∧ (s.fnX p).ltrEnable = true) ∧
    (∃ (s : State), ∃ (g : Agent), ∃ (v : Word), s.running = true ∧ accessOk R.PMU_FREEZE true g = false) ∧
    (∃ (s : State), s.running = true ∧ s.pmuPending = []) ∧
    (∃ (s : State), ∃ (g : Agent), ∃ (v : Word), s.running = true ∧ accessOk R.PMU_FREEZE true g = true ∧ bitOf (BitVec.toNat v) 8 = true) ∧
    (∃ (s : State), ∃ (g : Agent), ∃ (v : Word), s.running = true ∧ accessOk R.PMU_FREEZE true g = true ∧ bitOf (BitVec.toNat v) 8 = false) ∧
    (∃ (s : State), ∃ (b : Bool), ∃ (at_ : Nat), ∃ (rest : List (Bool × Nat)), s.running = true ∧ s.pmuPending = (b, at_) :: rest ∧ at_ ≤ s.time.mono ∧ at_ < 2 ^ 64) :=
  ⟨⟨wInst wUp 0 1, 0, chk (dA inferInstance (dCons fun _ _ => inferInstance)) (by decide +kernel)⟩,
   ⟨wLink, 0, by decide +kernel⟩,
   (by refine ⟨wIdle wUp { move := 1, target := 2 }, 0, ?_⟩; decide +kernel),
   ⟨wLink, 0, chk (dA inferInstance (dA inferInstance (dA inferInstance (dA inferInstance (dCons fun _ _ => inferInstance))))) (by decide +kernel)⟩,
   ⟨powerStatesAndFreezes_44_s, 0, chk (dA inferInstance (dA inferInstance (dA inferInstance (dA inferInstance (dCons fun _ _ => inferInstance))))) (by decide +kernel)⟩,
   (by refine ⟨wIdle wUp { move := 1, target := 2 }, .debug, 0, ?_⟩; decide +kernel),
   (by refine ⟨wIdle wUp { move := 1, target := 2 }, ?_⟩; decide +kernel),
   (by refine ⟨wIdle wUp { move := 1, target := 2 }, .keeper, 0x100, ?_⟩; decide +kernel),
   (by refine ⟨wIdle wUp { move := 1, target := 2 }, .keeper, 0, ?_⟩; decide +kernel),
   (by refine ⟨powerStatesAndFreezes_49_s, (hd powerStatesAndFreezes_49_s.pmuPending (by decide +kernel)).fst, (hd powerStatesAndFreezes_49_s.pmuPending (by decide +kernel)).snd, powerStatesAndFreezes_49_s.pmuPending.tail, ?_⟩; decide +kernel)⟩

/-- Idle states of the slices, power control, link power states, counter freezes and the temperature record: clauses 50, 51, 52. -/
theorem witness_PowerStatesAndFreezes_f :
    (∃ (s : State), ∃ (b : Bool), ∃ (at_ : Nat), ∃ (rest : List (Bool × Nat)), s.running = true ∧ s.pmuPending = (b, at_) :: rest ∧ s.time.mono < at_) ∧
    (∃ (s : State), s.running = true ∧ s.boot.romPending = false ∧ s.boot.tempLogAt + 3600 * ticksPerSec ≤ s.time.mono) ∧
    (∃ (s : State), s.running = true ∧ s.boot.romPending = false ∧ s.time.mono < s.boot.tempLogAt + 3600 * ticksPerSec) :=
  ⟨(by refine ⟨powerStatesAndFreezes_50_s, (hd powerStatesAndFreezes_50_s.pmuPending (by decide +kernel)).fst, (hd powerStatesAndFreezes_50_s.pmuPending (by decide +kernel)).snd, powerStatesAndFreezes_50_s.pmuPending.tail, ?_⟩; decide +kernel),
   (by refine ⟨{ wUp with time.mono := 10000000000000 }, ?_⟩; decide +kernel),
   (by refine ⟨wIdle wUp { move := 1, target := 2 }, ?_⟩; decide +kernel)⟩

/-- HBM reads back what was written, and a memory has one form: clauses 1, 4. -/
theorem witness_MemoryReadsWhatWasWritten :
    (∃ (s : State), ∃ (a : Nat), ∃ (bs : List Byte), ∃ (x : Nat), x < a ∨ a + bs.length ≤ x) ∧
    (∃ (s : State), ∃ (a : Nat), ∃ (n : Nat), Memory.wf s.mem.hbm = true) :=
  ⟨⟨wUp, 0, [], 0, by decide +kernel⟩,
   ⟨wUp, 0, 0, by decide +kernel⟩⟩

theorem pageOf_length (n p : Nat) (f : List Nat) : (pageOf n p f).length = n := by simp [pageOf]

def reportAndControlOpcodes_5_s : State := wOp (wFn.setInstX 8 { wFn.instX 8 with log := [(.restored, 2, 0)] }) 0x0400 [1, 2, 8]

/-- The opcodes that report: clause 5. -/
theorem witness_ReportAndControlOpcodes_logRead : ∃ (s : State), s.running = true ∧ s.boot.romPending = false ∧ s.boot.recovery = false ∧ ∃ (h : Holder), s.mgmt.holder = some h ∧ h.started = false ∧ h.cmd.opcode = 1024 ∧ maxLenOk (h.cmd.num 0) = true ∧ h.cmd.num 1 ≠ 5 ∧ (∀ (b : BulkObj), b ∈ s.mgmt.bulk → b.upload = false → b.opcode = 1024 → b.selector ≠ List.drop 4 h.cmd.payload) ∧ ∃ (d : List Byte), s.logObject (h.cmd.num 1) (h.cmd.num 2) (h.cmd.num 3) = some d ∧ h.cmd.objOffset + h.cmd.num 0 < d.length ∧ s.bulkUsed + d.length ≤ 536870912 := by
  have hl : (reportAndControlOpcodes_5_s.instanceLog 8).length = 32 := by
    unfold State.instanceLog
    rw [show (reportAndControlOpcodes_5_s.instX 8).log = [(.restored, 2, 0)] from by decide +kernel]
    simp [pageOf_length]
  refine ⟨reportAndControlOpcodes_5_s, by decide +kernel, by decide +kernel, by decide +kernel, wHolder 0x0400 ([1, 2, 8].flatMap (leBytes 4)), by decide +kernel, by decide +kernel, by decide +kernel, by decide +kernel, by decide +kernel, by decide +kernel, _, rfl, ?_, ?_⟩
  · rw [show (wHolder 0x0400 ([1, 2, 8].flatMap (leBytes 4))).cmd.num 2 = 8 from by decide +kernel, hl]; decide +kernel
  · rw [show (wHolder 0x0400 ([1, 2, 8].flatMap (leBytes 4))).cmd.num 2 = 8 from by decide +kernel, hl]; decide +kernel

def reportAndControlOpcodes_22_s : State := wOp { wUp with eventLog := [⟨1, 2, 3, 4, 5⟩] } 0x10010 [0, 0x01000000]

/-- The opcodes that report: clause 22. -/
theorem witness_ReportAndControlOpcodes_readLog : ∃ (s : State), s.running = true ∧ s.boot.romPending = false ∧ s.slicesUp = true ∧ (∀ (b : BulkObj), b ∈ s.mgmt.bulk → b.upload = false → b.opcode = 65552 → b.selector ≠ []) ∧ s.bulkUsed + (s.deviceLog 81921).length ≤ 536870912 ∧ ∃ (h : Holder), s.mgmt.holder = some h ∧ h.started = false ∧ h.cmd.opcode = 65552 ∧ beAt h.cmd.payload 4 4 ≠ 0 ∧ beAt h.cmd.payload 4 4 ≤ 3968 ∧ beAt h.cmd.payload 0 4 + beAt h.cmd.payload 4 4 < (s.deviceLog 81921).length := by
  have hl : (reportAndControlOpcodes_22_s.deviceLog 81921).length = 32 := by
    unfold State.deviceLog
    rw [show reportAndControlOpcodes_22_s.eventLog = [⟨1, 2, 3, 4, 5⟩] from rfl]
    simp [pageOf_length]
  refine ⟨reportAndControlOpcodes_22_s, by decide +kernel, by decide +kernel, by decide +kernel, by decide +kernel, ?_, wHolder 0x10010 ([0, 0x01000000].flatMap (leBytes 4)), by decide +kernel, by decide +kernel, by decide +kernel, by decide +kernel, by decide +kernel, ?_⟩
  · rw [hl]; decide +kernel
  · rw [hl]; decide +kernel

end Sys2Proof.Tests
end

