-- ==== Sys2Proof/Tests/WitnessParse.lean ====
section
/-!
SUPPORT. Witnesses: a state and operands that meet the hypotheses of each clause of the statements named, together.
-/

set_option linter.unusedVariables false
set_option Elab.async false
set_option maxRecDepth 100000

namespace Sys2Proof.Tests
open Sys2Proof.Machine

def parseLoadsAndArithmetic_4_s : State :=
  wParse 0x090000FF { wCtx with stack := [5], z := true, cur := 250 }

/-- The parse instructions that load, move, add and compare: clauses 0, 1, 2, 3, 4, 5, 6, 7, 8, 9. -/
theorem witness_ParseLoadsAndArithmetic_a :
    (∃ (s : State), ∃ (k : Nat), ∃ (e : Nat), ∃ (x : Nat), s.slicesUp = true ∧ k < 4 ∧ e < 32 ∧ x < 4 ∧ ∃ (c : ParseCtx), s.ctx? (ctxKey k e x) = some c ∧ c.ended = false ∧ c.steps < s.stepLimit k ∧ c.pc < 2048 ∧ ∃ (w : Nat), s.progWord k c.bank c.pc = w ∧ opOf w = 0 ∧ w &&& opNamed 0 = w) ∧
    (∃ (s : State), ∃ (k : Nat), ∃ (e : Nat), ∃ (x : Nat), s.slicesUp = true ∧ k < 4 ∧ e < 32 ∧ x < 4 ∧ ∃ (c : ParseCtx), s.ctx? (ctxKey k e x) = some c ∧ c.ended = false ∧ c.steps < s.stepLimit k ∧ c.pc < 2048 ∧ ∃ (w : Nat), s.progWord k c.bank c.pc = w ∧ opOf w = 1 ∧ w &&& opNamed 1 = w ∧ (c.cur + bitsOf w 7 0 + if bitOf w 20 = true then c.reg (bitsOf w 23 21) % 256 else 0) + 1 ≤ 256) ∧
    (∃ (s : State), ∃ (k : Nat), ∃ (e : Nat), ∃ (x : Nat), s.slicesUp = true ∧ k < 4 ∧ e < 32 ∧ x < 4 ∧ ∃ (c : ParseCtx), s.ctx? (ctxKey k e x) = some c ∧ c.ended = false ∧ c.steps < s.stepLimit k ∧ c.pc < 2048 ∧ ∃ (w : Nat), s.progWord k c.bank c.pc = w ∧ opOf w = 2 ∧ w &&& opNamed 2 = w ∧ (c.cur + bitsOf w 7 0 + if bitOf w 20 = true then c.reg (bitsOf w 23 21) % 256 else 0) + 2 ≤ 256) ∧
    (∃ (s : State), ∃ (k : Nat), ∃ (e : Nat), ∃ (x : Nat), s.slicesUp = true ∧ k < 4 ∧ e < 32 ∧ x < 4 ∧ ∃ (c : ParseCtx), s.ctx? (ctxKey k e x) = some c ∧ c.ended = false ∧ c.steps < s.stepLimit k ∧ c.pc < 2048 ∧ ∃ (w : Nat), s.progWord k c.bank c.pc = w ∧ opOf w = 3 ∧ w &&& opNamed 3 = w ∧ (c.cur + bitsOf w 7 0 + if bitOf w 20 = true then c.reg (bitsOf w 23 21) % 256 else 0) + 4 ≤ 256) ∧
    (∃ (s : State), ∃ (k : Nat), ∃ (e : Nat), ∃ (x : Nat), s.slicesUp = true ∧ k < 4 ∧ e < 32 ∧ x < 4 ∧ ∃ (c : ParseCtx), s.ctx? (ctxKey k e x) = some c ∧ c.ended = false ∧ c.steps < s.stepLimit k ∧ c.pc < 2048 ∧ ∃ (w : Nat), s.progWord k c.bank c.pc = w ∧ opOf w = 1 ∧ w &&& opNamed 1 = w ∧ 256 < (c.cur + bitsOf w 7 0 + if bitOf w 20 = true then c.reg (bitsOf w 23 21) % 256 else 0) + 1) ∧
    (∃ (s : State), ∃ (k : Nat), ∃ (e : Nat), ∃ (x : Nat), s.slicesUp = true ∧ k < 4 ∧ e < 32 ∧ x < 4 ∧ ∃ (c : ParseCtx), s.ctx? (ctxKey k e x) = some c ∧ c.ended = false ∧ c.steps < s.stepLimit k ∧ c.pc < 2048 ∧ ∃ (w : Nat), s.progWord k c.bank c.pc = w ∧ opOf w = 2 ∧ w &&& opNamed 2 = w ∧ 256 < (c.cur + bitsOf w 7 0 + if bitOf w 20 = true then c.reg (bitsOf w 23 21) % 256 else 0) + 2) ∧
    (∃ (s : State), ∃ (k : Nat), ∃ (e : Nat), ∃ (x : Nat), s.slicesUp = true ∧ k < 4 ∧ e < 32 ∧ x < 4 ∧ ∃ (c : ParseCtx), s.ctx? (ctxKey k e x) = some c ∧ c.ended = false ∧ c.steps < s.stepLimit k ∧ c.pc < 2048 ∧ ∃ (w : Nat), s.progWord k c.bank c.pc = w ∧ opOf w = 3 ∧ w &&& opNamed 3 = w ∧ 256 < (c.cur + bitsOf w 7 0 + if bitOf w 20 = true then c.reg (bitsOf w 23 21) % 256 else 0) + 4) ∧
    (∃ (s : State), ∃ (k : Nat), ∃ (e : Nat), ∃ (x : Nat), s.slicesUp = true ∧ k < 4 ∧ e < 32 ∧ x < 4 ∧ ∃ (c : ParseCtx), s.ctx? (ctxKey k e x) = some c ∧ c.ended = false ∧ c.steps < s.stepLimit k ∧ c.pc < 2048 ∧ ∃ (w : Nat), s.progWord k c.bank c.pc = w ∧ opOf w = 4 ∧ w &&& opNamed 4 = w ∧ bitsOf w 3 0 < 14) ∧
    (∃ (s : State), ∃ (k : Nat), ∃ (e : Nat), ∃ (x : Nat), s.slicesUp = true ∧ k < 4 ∧ e < 32 ∧ x < 4 ∧ ∃ (c : ParseCtx), s.ctx? (ctxKey k e x) = some c ∧ c.ended = false ∧ c.steps < s.stepLimit k ∧ c.pc < 2048 ∧ ∃ (w : Nat), s.progWord k c.bank c.pc = w ∧ opOf w = 4 ∧ w &&& opNamed 4 = w ∧ bitsOf w 3 0 = 14) ∧
    (∃ (s : State), ∃ (k : Nat), ∃ (e : Nat), ∃ (x : Nat), s.slicesUp = true ∧ k < 4 ∧ e < 32 ∧ x < 4 ∧ ∃ (c : ParseCtx), s.ctx? (ctxKey k e x) = some c ∧ c.ended = false ∧ c.steps < s.stepLimit k ∧ c.pc < 2048 ∧ ∃ (w : Nat), s.progWord k c.bank c.pc = w ∧ opOf w = 4 ∧ w &&& opNamed 4 = w ∧ bitsOf w 3 0 = 15) :=
  ⟨⟨wParse 0x00000000 wCtx, 0, 0, 0, chk (dA inferInstance (dA inferInstance (dA inferInstance (dA inferInstance (dSome fun _ => (dA inferInstance (dA inferInstance (dA inferInstance (dVar fun _ => inferInstance))))))))) (by decide +kernel)⟩,
   ⟨wParse 0x090000FF wCtx, 0, 0, 0, chk (dA inferInstance (dA inferInstance (dA inferInstance (dA inferInstance (dSome fun _ => (dA inferInstance (dA inferInstance (dA inferInstance (dVar fun _ => inferInstance))))))))) (by decide +kernel)⟩,
   ⟨wParse 0x1100003F wCtx, 0, 0, 0, chk (dA inferInstance (dA inferInstance (dA inferInstance (dA inferInstance (dSome fun _ => (dA inferInstance (dA inferInstance (dA inferInstance (dVar fun _ => inferInstance))))))))) (by decide +kernel)⟩,
   ⟨wParse 0x1900003E wCtx, 0, 0, 0, chk (dA inferInstance (dA inferInstance (dA inferInstance (dA inferInstance (dSome fun _ => (dA inferInstance (dA inferInstance (dA inferInstance (dVar fun _ => inferInstance))))))))) (by decide +kernel)⟩,
   ⟨parseLoadsAndArithmetic_4_s, 0, 0, 0, chk (dA inferInstance (dA inferInstance (dA inferInstance (dA inferInstance (dSome fun _ => (dA inferInstance (dA inferInstance (dA inferInstance (dVar fun _ => inferInstance))))))))) (by decide +kernel)⟩,
   ⟨wParse 0x110000FF wCtx, 0, 0, 0, chk (dA inferInstance (dA inferInstance (dA inferInstance (dA inferInstance (dSome fun _ => (dA inferInstance (dA inferInstance (dA inferInstance (dVar fun _ => inferInstance))))))))) (by decide +kernel)⟩,
   ⟨wParse 0x190000FD wCtx, 0, 0, 0, chk (dA inferInstance (dA inferInstance (dA inferInstance (dA inferInstance (dSome fun _ => (dA inferInstance (dA inferInstance (dA inferInstance (dVar fun _ => inferInstance))))))))) (by decide +kernel)⟩,
   ⟨wParse 0x23000000 wCtx, 0, 0, 0, chk (dA inferInstance (dA inferInstance (dA inferInstance (dA inferInstance (dSome fun _ => (dA inferInstance (dA inferInstance (dA inferInstance (dVar fun _ => inferInstance))))))))) (by decide +kernel)⟩,
   ⟨wParse 0x2300000E wCtx, 0, 0, 0, chk (dA inferInstance (dA inferInstance (dA inferInstance (dA inferInstance (dSome fun _ => (dA inferInstance (dA inferInstance (dA inferInstance (dVar fun _ => inferInstance))))))))) (by decide +kernel)⟩,
   ⟨wParse 0x2300000F wCtx, 0, 0, 0, chk (dA inferInstance (dA inferInstance (dA inferInstance (dA inferInstance (dSome fun _ => (dA inferInstance (dA inferInstance (dA inferInstance (dVar fun _ => inferInstance))))))))) (by decide +kernel)⟩⟩

/-- The parse instructions that load, move, add and compare: clauses 10, 11, 12, 13, 14, 15, 16. -/
theorem witness_ParseLoadsAndArithmetic_b :
    (∃ (s : State), ∃ (k : Nat), ∃ (e : Nat), ∃ (x : Nat), s.slicesUp = true ∧ k < 4 ∧ e < 32 ∧ x < 4 ∧ ∃ (c : ParseCtx), s.ctx? (ctxKey k e x) = some c ∧ c.ended = false ∧ c.steps < s.stepLimit k ∧ c.pc < 2048 ∧ ∃ (w : Nat), s.progWord k c.bank c.pc = w ∧ opOf w = 5 ∧ w &&& opNamed 5 = w) ∧
    (∃ (s : State), ∃ (k : Nat), ∃ (e : Nat), ∃ (x : Nat), s.slicesUp = true ∧ k < 4 ∧ e < 32 ∧ x < 4 ∧ ∃ (c : ParseCtx), s.ctx? (ctxKey k e x) = some c ∧ c.ended = false ∧ c.steps < s.stepLimit k ∧ c.pc < 2048 ∧ ∃ (w : Nat), s.progWord k c.bank c.pc = w ∧ opOf w = 6 ∧ w &&& opNamed 6 = w) ∧
    (∃ (s : State), ∃ (k : Nat), ∃ (e : Nat), ∃ (x : Nat), s.slicesUp = true ∧ k < 4 ∧ e < 32 ∧ x < 4 ∧ ∃ (c : ParseCtx), s.ctx? (ctxKey k e x) = some c ∧ c.ended = false ∧ c.steps < s.stepLimit k ∧ c.pc < 2048 ∧ ∃ (w : Nat), s.progWord k c.bank c.pc = w ∧ opOf w = 7 ∧ w &&& opNamed 7 = w) ∧
    (∃ (s : State), ∃ (k : Nat), ∃ (e : Nat), ∃ (x : Nat), s.slicesUp = true ∧ k < 4 ∧ e < 32 ∧ x < 4 ∧ ∃ (c : ParseCtx), s.ctx? (ctxKey k e x) = some c ∧ c.ended = false ∧ c.steps < s.stepLimit k ∧ c.pc < 2048 ∧ ∃ (w : Nat), s.progWord k c.bank c.pc = w ∧ opOf w = 8 ∧ w &&& opNamed 8 = w) ∧
    (∃ (s : State), ∃ (k : Nat), ∃ (e : Nat), ∃ (x : Nat), s.slicesUp = true ∧ k < 4 ∧ e < 32 ∧ x < 4 ∧ ∃ (c : ParseCtx), s.ctx? (ctxKey k e x) = some c ∧ c.ended = false ∧ c.steps < s.stepLimit k ∧ c.pc < 2048 ∧ ∃ (w : Nat), s.progWord k c.bank c.pc = w ∧ opOf w = 9 ∧ w &&& opNamed 9 = w) ∧
    (∃ (s : State), ∃ (k : Nat), ∃ (e : Nat), ∃ (x : Nat), s.slicesUp = true ∧ k < 4 ∧ e < 32 ∧ x < 4 ∧ ∃ (c : ParseCtx), s.ctx? (ctxKey k e x) = some c ∧ c.ended = false ∧ c.steps < s.stepLimit k ∧ c.pc < 2048 ∧ ∃ (w : Nat), s.progWord k c.bank c.pc = w ∧ opOf w = 10 ∧ w &&& opNamed 10 = w) ∧
    (∃ (s : State), ∃ (k : Nat), ∃ (e : Nat), ∃ (x : Nat), s.slicesUp = true ∧ k < 4 ∧ e < 32 ∧ x < 4 ∧ ∃ (c : ParseCtx), s.ctx? (ctxKey k e x) = some c ∧ c.ended = false ∧ c.steps < s.stepLimit k ∧ c.pc < 2048 ∧ ∃ (w : Nat), s.progWord k c.bank c.pc = w ∧ opOf w = 11 ∧ w &&& opNamed 11 = w) :=
  ⟨⟨wParse 0x2F00FFFF wCtx, 0, 0, 0, chk (dA inferInstance (dA inferInstance (dA inferInstance (dA inferInstance (dSome fun _ => (dA inferInstance (dA inferInstance (dA inferInstance (dVar fun _ => inferInstance))))))))) (by decide +kernel)⟩,
   ⟨wParse 0x31200001 wCtx, 0, 0, 0, chk (dA inferInstance (dA inferInstance (dA inferInstance (dA inferInstance (dSome fun _ => (dA inferInstance (dA inferInstance (dA inferInstance (dVar fun _ => inferInstance))))))))) (by decide +kernel)⟩,
   ⟨wParse 0x3920FFFF wCtx, 0, 0, 0, chk (dA inferInstance (dA inferInstance (dA inferInstance (dA inferInstance (dSome fun _ => (dA inferInstance (dA inferInstance (dA inferInstance (dVar fun _ => inferInstance))))))))) (by decide +kernel)⟩,
   ⟨wParse 0x4120001F wCtx, 0, 0, 0, chk (dA inferInstance (dA inferInstance (dA inferInstance (dA inferInstance (dSome fun _ => (dA inferInstance (dA inferInstance (dA inferInstance (dVar fun _ => inferInstance))))))))) (by decide +kernel)⟩,
   ⟨wParse 0x49240000 wCtx, 0, 0, 0, chk (dA inferInstance (dA inferInstance (dA inferInstance (dA inferInstance (dSome fun _ => (dA inferInstance (dA inferInstance (dA inferInstance (dVar fun _ => inferInstance))))))))) (by decide +kernel)⟩,
   ⟨wParse 0x50000003 wCtx, 0, 0, 0, chk (dA inferInstance (dA inferInstance (dA inferInstance (dA inferInstance (dSome fun _ => (dA inferInstance (dA inferInstance (dA inferInstance (dVar fun _ => inferInstance))))))))) (by decide +kernel)⟩,
   ⟨wParse 0x58280000 wCtx, 0, 0, 0, chk (dA inferInstance (dA inferInstance (dA inferInstance (dA inferInstance (dSome fun _ => (dA inferInstance (dA inferInstance (dA inferInstance (dVar fun _ => inferInstance))))))))) (by decide +kernel)⟩⟩

def parseFlowAndVector_1_s : State :=
  wParse 0x600000FF { wCtx with stack := [5], z := true, cur := 250 }

def parseFlowAndVector_5_s : State :=
  wParse 0x80000000 { wCtx with stack := [5], z := true, cur := 250 }

def parseFlowAndVector_10_s : State :=
  wParse 0xA0000000 { wCtx with pc := 2047, stack := [1, 2, 3, 4], g := [60, 2, 1, 3, 62, 0, 2047, 8], cur := 196 }

def parseFlowAndVector_11_s : State :=
  wParse 0xA0000000 { wCtx with cur := 250, g := [8, 8, 8, 8, 8, 8, 8, 8] }

/-- The parse instructions that move the cursor, branch, and write the vector: clauses 0, 1, 2, 3, 4, 5, 6, 7, 8, 9. -/
theorem witness_ParseFlowAndVector_a :
    (∃ (s : State), ∃ (k : Nat), ∃ (e : Nat), ∃ (x : Nat), s.slicesUp = true ∧ k < 4 ∧ e < 32 ∧ x < 4 ∧ ∃ (c : ParseCtx), s.ctx? (ctxKey k e x) = some c ∧ c.ended = false ∧ c.steps < s.stepLimit k ∧ c.pc < 2048 ∧ ∃ (w : Nat), s.progWord k c.bank c.pc = w ∧ opOf w = 12 ∧ w &&& opNamed 12 = w ∧ (c.cur + if bitOf w 20 = true then c.reg (bitsOf w 23 21) * 2 ^ bitsOf w 19 16 else 0) + bitsOf w 7 0 ≤ 255) ∧
    (∃ (s : State), ∃ (k : Nat), ∃ (e : Nat), ∃ (x : Nat), s.slicesUp = true ∧ k < 4 ∧ e < 32 ∧ x < 4 ∧ ∃ (c : ParseCtx), s.ctx? (ctxKey k e x) = some c ∧ c.ended = false ∧ c.steps < s.stepLimit k ∧ c.pc < 2048 ∧ ∃ (w : Nat), s.progWord k c.bank c.pc = w ∧ opOf w = 12 ∧ w &&& opNamed 12 = w ∧ 255 < (c.cur + if bitOf w 20 = true then c.reg (bitsOf w 23 21) * 2 ^ bitsOf w 19 16 else 0) + bitsOf w 7 0) ∧
    (∃ (s : State), ∃ (k : Nat), ∃ (e : Nat), ∃ (x : Nat), s.slicesUp = true ∧ k < 4 ∧ e < 32 ∧ x < 4 ∧ ∃ (c : ParseCtx), s.ctx? (ctxKey k e x) = some c ∧ c.ended = false ∧ c.steps < s.stepLimit k ∧ c.pc < 2048 ∧ ∃ (w : Nat), s.progWord k c.bank c.pc = w ∧ opOf w = 13 ∧ w &&& opNamed 13 = w ∧ bitsOf w 26 24 < 7) ∧
    (∃ (s : State), ∃ (k : Nat), ∃ (e : Nat), ∃ (x : Nat), s.slicesUp = true ∧ k < 4 ∧ e < 32 ∧ x < 4 ∧ ∃ (c : ParseCtx), s.ctx? (ctxKey k e x) = some c ∧ c.ended = false ∧ c.steps < s.stepLimit k ∧ c.pc < 2048 ∧ ∃ (w : Nat), s.progWord k c.bank c.pc = w ∧ opOf w = 14 ∧ w &&& opNamed 14 = w) ∧
    (∃ (s : State), ∃ (k : Nat), ∃ (e : Nat), ∃ (x : Nat), s.slicesUp = true ∧ k < 4 ∧ e < 32 ∧ x < 4 ∧ ∃ (c : ParseCtx), s.ctx? (ctxKey k e x) = some c ∧ c.ended = false ∧ c.steps < s.stepLimit k ∧ c.pc < 2048 ∧ c.stack.length < 4 ∧ ∃ (w : Nat), s.progWord k c.bank c.pc = w ∧ opOf w = 15 ∧ w &&& opNamed 15 = w) ∧
    (∃ (s : State), ∃ (k : Nat), ∃ (e : Nat), ∃ (x : Nat), s.slicesUp = true ∧ k < 4 ∧ e < 32 ∧ x < 4 ∧ ∃ (c : ParseCtx), s.ctx? (ctxKey k e x) = some c ∧ c.ended = false ∧ c.steps < s.stepLimit k ∧ c.pc < 2048 ∧ ∃ (w : Nat), s.progWord k c.bank c.pc = w ∧ opOf w = 16 ∧ w &&& opNamed 16 = w ∧ ∃ (a : Nat), ∃ (rest : List Nat), c.stack = a :: rest ∧ True) ∧
    (∃ (s : State), ∃ (k : Nat), ∃ (e : Nat), ∃ (x : Nat), s.slicesUp = true ∧ k < 4 ∧ e < 32 ∧ x < 4 ∧ ∃ (c : ParseCtx), s.ctx? (ctxKey k e x) = some c ∧ c.ended = false ∧ c.steps < s.stepLimit k ∧ c.pc < 2048 ∧ ∃ (w : Nat), s.progWord k c.bank c.pc = w ∧ opOf w = 17 ∧ w &&& opNamed 17 = w ∧ bitsOf w 20 19 < 3 ∧ 40 ≤ bitsOf w 6 0 ∧ bitsOf w 6 0 + 2 ^ bitsOf w 20 19 ≤ 128) ∧
    (∃ (s : State), ∃ (k : Nat), ∃ (e : Nat), ∃ (x : Nat), s.slicesUp = true ∧ k < 4 ∧ e < 32 ∧ x < 4 ∧ ∃ (c : ParseCtx), s.ctx? (ctxKey k e x) = some c ∧ c.ended = false ∧ c.steps < s.stepLimit k ∧ c.pc < 2048 ∧ ∃ (w : Nat), s.progWord k c.bank c.pc = w ∧ opOf w = 18 ∧ w &&& opNamed 18 = w ∧ 40 ≤ bitsOf w 21 15 ∧ bitsOf w 21 15 + (bitsOf w 26 22 + 1) ≤ 128 ∧ c.cur + bitsOf w 7 0 + (bitsOf w 26 22 + 1) ≤ 256) ∧
    (∃ (s : State), ∃ (k : Nat), ∃ (e : Nat), ∃ (x : Nat), s.slicesUp = true ∧ k < 4 ∧ e < 32 ∧ x < 4 ∧ ∃ (c : ParseCtx), s.ctx? (ctxKey k e x) = some c ∧ c.ended = false ∧ c.steps < s.stepLimit k ∧ c.pc < 2048 ∧ ∃ (w : Nat), s.progWord k c.bank c.pc = w ∧ opOf w = 18 ∧ w &&& opNamed 18 = w ∧ 40 ≤ bitsOf w 21 15 ∧ bitsOf w 21 15 + (bitsOf w 26 22 + 1) ≤ 128 ∧ 256 < c.cur + bitsOf w 7 0 + (bitsOf w 26 22 + 1)) ∧
    (∃ (s : State), ∃ (k : Nat), ∃ (e : Nat), ∃ (x : Nat), s.slicesUp = true ∧ k < 4 ∧ e < 32 ∧ x < 4 ∧ ∃ (c : ParseCtx), s.ctx? (ctxKey k e x) = some c ∧ c.ended = false ∧ c.steps < s.stepLimit k ∧ c.pc < 2048 ∧ ∃ (w : Nat), s.progWord k c.bank c.pc = w ∧ opOf w = 19 ∧ w &&& opNamed 19 = w) :=
  ⟨⟨wParse 0x60000000 wCtx, 0, 0, 0, chk (dA inferInstance (dA inferInstance (dA inferInstance (dA inferInstance (dSome fun _ => (dA inferInstance (dA inferInstance (dA inferInstance (dVar fun _ => inferInstance))))))))) (by decide +kernel)⟩,
   ⟨parseFlowAndVector_1_s, 0, 0, 0, chk (dA inferInstance (dA inferInstance (dA inferInstance (dA inferInstance (dSome fun _ => (dA inferInstance (dA inferInstance (dA inferInstance (dVar fun _ => inferInstance))))))))) (by decide +kernel)⟩,
   ⟨wParse 0x680007FF wCtx, 0, 0, 0, chk (dA inferInstance (dA inferInstance (dA inferInstance (dA inferInstance (dSome fun _ => (dA inferInstance (dA inferInstance (dA inferInstance (dVar fun _ => inferInstance))))))))) (by decide +kernel)⟩,
   ⟨wParse 0x701F07FD wCtx, 0, 0, 0, chk (dA inferInstance (dA inferInstance (dA inferInstance (dA inferInstance (dSome fun _ => (dA inferInstance (dA inferInstance (dA inferInstance (dVar fun _ => inferInstance))))))))) (by decide +kernel)⟩,
   ⟨wParse 0x780007FF wCtx, 0, 0, 0, chk (dA inferInstance (dA inferInstance (dA inferInstance (dA inferInstance (dSome fun _ => (dA inferInstance (dA inferInstance (dA inferInstance (dA inferInstance (dVar fun _ => inferInstance)))))))))) (by decide +kernel)⟩,
   ⟨parseFlowAndVector_5_s, 0, 0, 0, chk (dA inferInstance (dA inferInstance (dA inferInstance (dA inferInstance (dSome fun _ => (dA inferInstance (dA inferInstance (dA inferInstance (dVar fun _ => (dA inferInstance (dA inferInstance (dCons fun _ _ => inferInstance)))))))))))) (by decide +kernel)⟩,
   ⟨wParse 0x8830007C wCtx, 0, 0, 0, chk (dA inferInstance (dA inferInstance (dA inferInstance (dA inferInstance (dSome fun _ => (dA inferInstance (dA inferInstance (dA inferInstance (dVar fun _ => inferInstance))))))))) (by decide +kernel)⟩,
   ⟨wParse 0x97F00000 wCtx, 0, 0, 0, chk (dA inferInstance (dA inferInstance (dA inferInstance (dA inferInstance (dSome fun _ => (dA inferInstance (dA inferInstance (dA inferInstance (dVar fun _ => inferInstance))))))))) (by decide +kernel)⟩,
   ⟨wParse 0x97D400FF wCtx, 0, 0, 0, chk (dA inferInstance (dA inferInstance (dA inferInstance (dA inferInstance (dSome fun _ => (dA inferInstance (dA inferInstance (dA inferInstance (dVar fun _ => inferInstance))))))))) (by decide +kernel)⟩,
   ⟨wParse 0x9F00FF00 wCtx, 0, 0, 0, chk (dA inferInstance (dA inferInstance (dA inferInstance (dA inferInstance (dSome fun _ => (dA inferInstance (dA inferInstance (dA inferInstance (dVar fun _ => inferInstance))))))))) (by decide +kernel)⟩⟩

/-- The parse instructions that move the cursor, branch, and write the vector: clauses 10, 11, 12, 13, 14, 15, 16, 17. -/
theorem witness_ParseFlowAndVector_b :
    (∃ (s : State), ∃ (k : Nat), ∃ (e : Nat), ∃ (x : Nat), s.slicesUp = true ∧ k < 4 ∧ e < 32 ∧ x < 4 ∧ ∃ (c : ParseCtx), s.ctx? (ctxKey k e x) = some c ∧ c.ended = false ∧ c.steps < s.stepLimit k ∧ c.pc < 2048 ∧ ∃ (w : Nat), s.progWord k c.bank c.pc = w ∧ opOf w = 20 ∧ w &&& opNamed 20 = w ∧ 2 ≤ c.reg (bitsOf w 23 21) ∧ c.reg (bitsOf w 23 21) ≤ 60 ∧ c.reg (bitsOf w 23 21) % 2 = 0 ∧ c.cur + c.reg (bitsOf w 23 21) ≤ 256) ∧
    (∃ (s : State), ∃ (k : Nat), ∃ (e : Nat), ∃ (x : Nat), s.slicesUp = true ∧ k < 4 ∧ e < 32 ∧ x < 4 ∧ ∃ (c : ParseCtx), s.ctx? (ctxKey k e x) = some c ∧ c.ended = false ∧ c.steps < s.stepLimit k ∧ c.pc < 2048 ∧ ∃ (w : Nat), s.progWord k c.bank c.pc = w ∧ opOf w = 20 ∧ w &&& opNamed 20 = w ∧ 2 ≤ c.reg (bitsOf w 23 21) ∧ c.reg (bitsOf w 23 21) ≤ 60 ∧ c.reg (bitsOf w 23 21) % 2 = 0 ∧ 256 < c.cur + c.reg (bitsOf w 23 21)) ∧
    (∃ (s : State), ∃ (k : Nat), ∃ (e : Nat), ∃ (x : Nat), s.slicesUp = true ∧ k < 4 ∧ e < 32 ∧ x < 4 ∧ ∃ (c : ParseCtx), s.ctx? (ctxKey k e x) = some c ∧ c.ended = false ∧ c.steps < s.stepLimit k ∧ c.pc < 2048 ∧ ∃ (w : Nat), s.progWord k c.bank c.pc = w ∧ opOf w = 21 ∧ w &&& opNamed 21 = w ∧ 1 ≤ bitsOf w 3 0 ∧ bitsOf w 3 0 ≤ 12) ∧
    (∃ (s : State), ∃ (k : Nat), ∃ (e : Nat), ∃ (x : Nat), s.slicesUp = true ∧ k < 4 ∧ e < 32 ∧ x < 4 ∧ ∃ (c : ParseCtx), s.ctx? (ctxKey k e x) = some c ∧ c.ended = false ∧ c.steps < s.stepLimit k ∧ c.pc < 2048 ∧ ∃ (w : Nat), s.progWord k c.bank c.pc = w ∧ opOf w = 22 ∧ w &&& opNamed 22 = w) ∧
    (∃ (s : State), ∃ (k : Nat), ∃ (e : Nat), ∃ (x : Nat), s.slicesUp = true ∧ k < 4 ∧ e < 32 ∧ x < 4 ∧ ∃ (c : ParseCtx), s.ctx? (ctxKey k e x) = some c ∧ c.ended = false ∧ c.steps < s.stepLimit k ∧ c.pc < 2048 ∧ ∃ (w : Nat), s.progWord k c.bank c.pc = w ∧ opOf w = 20 ∧ w &&& opNamed 20 = w) ∧
    (∃ (s : State), ∃ (k : Nat), ∃ (e : Nat), ∃ (x : Nat), s.slicesUp = true ∧ k < 4 ∧ e < 32 ∧ x < 4 ∧ ∃ (c : ParseCtx), s.ctx? (ctxKey k e x) = some c ∧ c.ended = false ∧ c.steps < s.stepLimit k ∧ c.pc < 2048 ∧ ∃ (w : Nat), s.progWord k c.bank c.pc = w ∧ opOf w = 20 ∧ w &&& opNamed 20 = w) ∧
    (∃ (s : State), ∃ (k : Nat), ∃ (e : Nat), ∃ (x : Nat), ∃ (w : Nat), ∃ (c : ParseCtx), s.slicesUp = true ∧ opOf w ≠ 20) ∧
    (∃ (s : State), ∃ (k : Nat), ∃ (e : Nat), ∃ (x : Nat), ∃ (w : Nat), ∃ (c : ParseCtx), s.slicesUp = true ∧ opOf w ≠ 20) :=
  ⟨⟨parseFlowAndVector_10_s, 0, 0, 0, chk (dA inferInstance (dA inferInstance (dA inferInstance (dA inferInstance (dSome fun _ => (dA inferInstance (dA inferInstance (dA inferInstance (dVar fun _ => inferInstance))))))))) (by decide +kernel)⟩,
   ⟨parseFlowAndVector_11_s, 0, 0, 0, chk (dA inferInstance (dA inferInstance (dA inferInstance (dA inferInstance (dSome fun _ => (dA inferInstance (dA inferInstance (dA inferInstance (dVar fun _ => inferInstance))))))))) (by decide +kernel)⟩,
   ⟨wParse 0xA8000001 wCtx, 0, 0, 0, chk (dA inferInstance (dA inferInstance (dA inferInstance (dA inferInstance (dSome fun _ => (dA inferInstance (dA inferInstance (dA inferInstance (dVar fun _ => inferInstance))))))))) (by decide +kernel)⟩,
   ⟨wParse 0xB00003FF wCtx, 0, 0, 0, chk (dA inferInstance (dA inferInstance (dA inferInstance (dA inferInstance (dSome fun _ => (dA inferInstance (dA inferInstance (dA inferInstance (dVar fun _ => inferInstance))))))))) (by decide +kernel)⟩,
   ⟨wParse 0xA0200000 wCtx, 0, 0, 0, chk (dA inferInstance (dA inferInstance (dA inferInstance (dA inferInstance (dSome fun _ => (dA inferInstance (dA inferInstance (dA inferInstance (dVar fun _ => inferInstance))))))))) (by decide +kernel)⟩,
   ⟨wParse 0xA0200000 wCtx, 0, 0, 0, chk (dA inferInstance (dA inferInstance (dA inferInstance (dA inferInstance (dSome fun _ => (dA inferInstance (dA inferInstance (dA inferInstance (dVar fun _ => inferInstance))))))))) (by decide +kernel)⟩,
   ⟨wParse 0x60000000 wCtx, 0, 0, 0, 0, wCtx, by decide +kernel⟩,
   ⟨wParse 0x60000000 wCtx, 0, 0, 0, 0, wCtx, by decide +kernel⟩⟩

def parseProgramFaults_0_s : State :=
  wParse 0 { wCtx with steps := 65536 }

def parseProgramFaults_7_s : State :=
  wParse 0x78000009 { wCtx with pc := 2047, stack := [1, 2, 3, 4], g := [60, 2, 1, 3, 62, 0, 2047, 8], cur := 196 }

/-- What ends a parse program before its CLS or MAL: clauses 0, 1, 2, 3, 4, 5, 6, 7, 8, 9. -/
theorem witness_ParseProgramFaults :
    (∃ (s : State), ∃ (k : Nat), ∃ (e : Nat), ∃ (x : Nat), ∃ (w : Nat), s.slicesUp = true ∧ k < 4 ∧ e < 32 ∧ x < 4 ∧ ∃ (c : ParseCtx), s.ctx? (ctxKey k e x) = some c ∧ c.ended = false ∧ c.pc < 2048 ∧ s.stepLimit k ≤ c.steps) ∧
    (∃ (s : State), ∃ (k : Nat), ∃ (e : Nat), ∃ (x : Nat), ∃ (oi : Nat × Instr), s.slicesUp = true ∧ k < 4 ∧ e < 32 ∧ x < 4 ∧ oi ∈ [(0, Instr.parseNop k e x), (1, Instr.ldb k e x), (2, Instr.ldh k e x), (3, Instr.ldw k e x), (4, Instr.ldp k e x), (5, Instr.movi k e x), (6, Instr.addi k e x), (7, Instr.andi k e x), (8, Instr.shi k e x), (9, Instr.add k e x), (10, Instr.cmpi k e x), (11, Instr.cmp k e x), (12, Instr.adv k e x), (13, Instr.br k e x), (14, Instr.jtab k e x), (15, Instr.call k e x), (16, Instr.ret k e x), (17, Instr.stv k e x), (18, Instr.cpyv k e x), (19, Instr.setl k e x), (20, Instr.csum k e x), (21, Instr.mal k e x), (22, Instr.cls k e x)] ∧ ∃ (c : ParseCtx), s.ctx? (ctxKey k e x) = some c ∧ c.ended = false ∧ c.pc < 2048 ∧ c.steps < s.stepLimit k ∧ ∃ (w : Nat), s.progWord k c.bank c.pc = w ∧ (22 < opOf w ∨ opOf w = oi.fst ∧ w &&& opNamed oi.fst ≠ w)) ∧
    (∃ (s : State), ∃ (k : Nat), ∃ (e : Nat), ∃ (x : Nat), s.slicesUp = true ∧ k < 4 ∧ e < 32 ∧ x < 4 ∧ ∃ (c : ParseCtx), s.ctx? (ctxKey k e x) = some c ∧ c.ended = false ∧ c.pc < 2048 ∧ c.steps < s.stepLimit k ∧ ∃ (w : Nat), s.progWord k c.bank c.pc = w ∧ opOf w = 13 ∧ bitsOf w 26 24 = 7) ∧
    (∃ (s : State), ∃ (k : Nat), ∃ (e : Nat), ∃ (x : Nat), s.slicesUp = true ∧ k < 4 ∧ e < 32 ∧ x < 4 ∧ ∃ (c : ParseCtx), s.ctx? (ctxKey k e x) = some c ∧ c.ended = false ∧ c.pc < 2048 ∧ c.steps < s.stepLimit k ∧ ∃ (w : Nat), s.progWord k c.bank c.pc = w ∧ opOf w = 17 ∧ bitsOf w 20 19 = 3) ∧
    (∃ (s : State), ∃ (k : Nat), ∃ (e : Nat), ∃ (x : Nat), s.slicesUp = true ∧ k < 4 ∧ e < 32 ∧ x < 4 ∧ ∃ (c : ParseCtx), s.ctx? (ctxKey k e x) = some c ∧ c.ended = false ∧ c.pc < 2048 ∧ c.steps < s.stepLimit k ∧ ∃ (w : Nat), s.progWord k c.bank c.pc = w ∧ opOf w = 21 ∧ (bitsOf w 3 0 = 0 ∨ 12 < bitsOf w 3 0)) ∧
    (∃ (s : State), ∃ (k : Nat), ∃ (e : Nat), ∃ (x : Nat), s.slicesUp = true ∧ k < 4 ∧ e < 32 ∧ x < 4 ∧ k < 4 ∧ e < 32 ∧ x < 4 ∧ ∃ (c : ParseCtx), s.ctx? (ctxKey k e x) = some c ∧ c.ended = false ∧ c.pc < 2048 ∧ c.steps < s.stepLimit k ∧ c.ended = false ∧ c.steps < s.stepLimit k ∧ c.pc < 2048 ∧ ∃ (w : Nat), s.progWord k c.bank c.pc = w ∧ opOf w = 17 ∧ w &&& opNamed 17 = w ∧ bitsOf w 20 19 < 3 ∧ (bitsOf w 6 0 < 40 ∨ 128 < bitsOf w 6 0 + 2 ^ bitsOf w 20 19)) ∧
    (∃ (s : State), ∃ (k : Nat), ∃ (e : Nat), ∃ (x : Nat), s.slicesUp = true ∧ k < 4 ∧ e < 32 ∧ x < 4 ∧ k < 4 ∧ e < 32 ∧ x < 4 ∧ ∃ (c : ParseCtx), s.ctx? (ctxKey k e x) = some c ∧ c.ended = false ∧ c.pc < 2048 ∧ c.steps < s.stepLimit k ∧ c.ended = false ∧ c.steps < s.stepLimit k ∧ c.pc < 2048 ∧ ∃ (w : Nat), s.progWord k c.bank c.pc = w ∧ opOf w = 18 ∧ w &&& opNamed 18 = w ∧ (bitsOf w 21 15 < 40 ∨ 128 < bitsOf w 21 15 + (bitsOf w 26 22 + 1))) ∧
    (∃ (s : State), ∃ (k : Nat), ∃ (e : Nat), ∃ (x : Nat), s.slicesUp = true ∧ k < 4 ∧ e < 32 ∧ x < 4 ∧ k < 4 ∧ e < 32 ∧ x < 4 ∧ ∃ (c : ParseCtx), s.ctx? (ctxKey k e x) = some c ∧ c.ended = false ∧ c.pc < 2048 ∧ c.steps < s.stepLimit k ∧ c.ended = false ∧ c.steps < s.stepLimit k ∧ c.pc < 2048 ∧ 4 ≤ c.stack.length ∧ ∃ (w : Nat), s.progWord k c.bank c.pc = w ∧ opOf w = 15 ∧ w &&& opNamed 15 = w) ∧
    (∃ (s : State), ∃ (k : Nat), ∃ (e : Nat), ∃ (x : Nat), s.slicesUp = true ∧ k < 4 ∧ e < 32 ∧ x < 4 ∧ k < 4 ∧ e < 32 ∧ x < 4 ∧ ∃ (c : ParseCtx), s.ctx? (ctxKey k e x) = some c ∧ c.ended = false ∧ c.pc < 2048 ∧ c.steps < s.stepLimit k ∧ c.ended = false ∧ c.steps < s.stepLimit k ∧ c.pc < 2048 ∧ c.stack = [] ∧ ∃ (w : Nat), s.progWord k c.bank c.pc = w ∧ opOf w = 16 ∧ w &&& opNamed 16 = w) ∧
    (∃ (s : State), ∃ (k : Nat), ∃ (e : Nat), ∃ (x : Nat), s.slicesUp = true ∧ k < 4 ∧ e < 32 ∧ x < 4 ∧ k < 4 ∧ e < 32 ∧ x < 4 ∧ ∃ (c : ParseCtx), s.ctx? (ctxKey k e x) = some c ∧ c.ended = false ∧ c.pc < 2048 ∧ c.steps < s.stepLimit k ∧ c.ended = false ∧ c.steps < s.stepLimit k ∧ c.pc < 2048 ∧ ∃ (w : Nat), s.progWord k c.bank c.pc = w ∧ opOf w = 20 ∧ w &&& opNamed 20 = w ∧ (c.reg (bitsOf w 23 21) = 0 ∨ c.reg (bitsOf w 23 21) % 2 = 1 ∨ 60 < c.reg (bitsOf w 23 21))) :=
  ⟨⟨parseProgramFaults_0_s, 0, 0, 0, 0, chk (dA inferInstance (dA inferInstance (dA inferInstance (dA inferInstance (dSome fun _ => inferInstance))))) (by decide +kernel)⟩,
   ⟨wParse 0xF8000000 wCtx, 0, 0, 0, (0, .parseNop 0 0 0), chk (dA inferInstance (dA inferInstance (dA inferInstance (dA inferInstance (dA inferInstance (dSome fun _ => (dA inferInstance (dA inferInstance (dA inferInstance (dVar fun _ => inferInstance)))))))))) (by decide +kernel)⟩,
   ⟨wParse 0x6F000000 wCtx, 0, 0, 0, chk (dA inferInstance (dA inferInstance (dA inferInstance (dA inferInstance (dSome fun _ => (dA inferInstance (dA inferInstance (dA inferInstance (dVar fun _ => inferInstance))))))))) (by decide +kernel)⟩,
   ⟨wParse 0x88180032 wCtx, 0, 0, 0, chk (dA inferInstance (dA inferInstance (dA inferInstance (dA inferInstance (dSome fun _ => (dA inferInstance (dA inferInstance (dA inferInstance (dVar fun _ => inferInstance))))))))) (by decide +kernel)⟩,
   ⟨wParse 0xA8000000 wCtx, 0, 0, 0, chk (dA inferInstance (dA inferInstance (dA inferInstance (dA inferInstance (dSome fun _ => (dA inferInstance (dA inferInstance (dA inferInstance (dVar fun _ => inferInstance))))))))) (by decide +kernel)⟩,
   ⟨wParse 0x88000027 wCtx, 0, 0, 0, chk (dA inferInstance (dA inferInstance (dA inferInstance (dA inferInstance (dA inferInstance (dA inferInstance (dA inferInstance (dSome fun _ => (dA inferInstance (dA inferInstance (dA inferInstance (dA inferInstance (dA inferInstance (dA inferInstance (dVar fun _ => inferInstance))))))))))))))) (by decide +kernel)⟩,
   ⟨wParse 0x90138000 wCtx, 0, 0, 0, chk (dA inferInstance (dA inferInstance (dA inferInstance (dA inferInstance (dA inferInstance (dA inferInstance (dA inferInstance (dSome fun _ => (dA inferInstance (dA inferInstance (dA inferInstance (dA inferInstance (dA inferInstance (dA inferInstance (dVar fun _ => inferInstance))))))))))))))) (by decide +kernel)⟩,
   ⟨parseProgramFaults_7_s, 0, 0, 0, chk (dA inferInstance (dA inferInstance (dA inferInstance (dA inferInstance (dA inferInstance (dA inferInstance (dA inferInstance (dSome fun _ => (dA inferInstance (dA inferInstance (dA inferInstance (dA inferInstance (dA inferInstance (dA inferInstance (dA inferInstance (dVar fun _ => inferInstance)))))))))))))))) (by decide +kernel)⟩,
   ⟨wParse 0x80000000 wCtx, 0, 0, 0, chk (dA inferInstance (dA inferInstance (dA inferInstance (dA inferInstance (dA inferInstance (dA inferInstance (dA inferInstance (dSome fun _ => (dA inferInstance (dA inferInstance (dA inferInstance (dA inferInstance (dA inferInstance (dA inferInstance (dA inferInstance (dVar fun _ => inferInstance)))))))))))))))) (by decide +kernel)⟩,
   ⟨wParse 0xA0600000 wCtx, 0, 0, 0, chk (dA inferInstance (dA inferInstance (dA inferInstance (dA inferInstance (dA inferInstance (dA inferInstance (dA inferInstance (dSome fun _ => (dA inferInstance (dA inferInstance (dA inferInstance (dA inferInstance (dA inferInstance (dA inferInstance (dVar fun _ => inferInstance))))))))))))))) (by decide +kernel)⟩⟩

def stepLimitLatchesNextPc_0_s : State :=
  wParse 0 { wCtx with steps := wUp.stepLimit 0, pc := 2047 }

def stepLimitLatchesNextPc_1_s : State :=
  wParse 0 { wCtx with steps := wUp.stepLimit 0, pc := 2047 }

/-- At the step limit no instruction issues, and the latch shows the PC that would have run next: clauses 0, 1. -/
theorem witness_StepLimitLatchesNextPc :
    (∃ (s : State), ∃ (k : Nat), ∃ (e : Nat), ∃ (x : Nat), ∃ (i : Instr), s.slicesUp = true ∧ k < 4 ∧ e < 32 ∧ x < 4 ∧ i ∈ [Instr.parseNop k e x, Instr.ldb k e x, Instr.ldh k e x, Instr.ldw k e x, Instr.ldp k e x, Instr.movi k e x, Instr.addi k e x, Instr.andi k e x, Instr.shi k e x, Instr.add k e x, Instr.cmpi k e x, Instr.cmp k e x, Instr.adv k e x, Instr.br k e x, Instr.jtab k e x, Instr.call k e x, Instr.ret k e x, Instr.stv k e x, Instr.cpyv k e x, Instr.setl k e x, Instr.csum k e x, Instr.mal k e x, Instr.cls k e x] ∧ ∃ (c : ParseCtx), s.ctx? (ctxKey k e x) = some c ∧ c.ended = false ∧ c.steps = s.stepLimit k ∧ c.pc < 2048) ∧
    (∃ (s : State), ∃ (k : Nat), ∃ (e : Nat), ∃ (x : Nat), s.slicesUp = true ∧ k < 4 ∧ e < 32 ∧ x < 4 ∧ ∃ (c : ParseCtx), s.ctx? (ctxKey k e x) = some c ∧ c.ended = false ∧ c.steps = s.stepLimit k ∧ c.pc < 2048) :=
  ⟨⟨stepLimitLatchesNextPc_0_s, 0, 0, 0, .parseNop 0 0 0, chk (dA inferInstance (dA inferInstance (dA inferInstance (dA inferInstance (dA inferInstance (dSome fun _ => inferInstance)))))) (by decide +kernel)⟩,
   ⟨stepLimitLatchesNextPc_1_s, 0, 0, 0, chk (dA inferInstance (dA inferInstance (dA inferInstance (dA inferInstance (dSome fun _ => inferInstance))))) (by decide +kernel)⟩⟩

def parseEndsAndClassifies_0_s : State :=
  (wParse 0 { wCtx with ended := true, frame := 1 }).setFrame { wFrame with stage := .parsing, whole := false }

def parseEndsAndClassifies_1_s : State :=
  ((wParse 0 { wCtx with ended := true, mal := 12 }).setFrame { wFrame with stage := .parsing, origin := .eth 0 0 }).setFld (F.MAL_ACTION 0 12) 1

def parseEndsAndClassifies_2_s : State :=
  (wParse 0 { wCtx with ended := true, mal := 2 }).setFrame { wFrame with stage := .parsing, origin := .eth 0 0 }

def parseEndsAndClassifies_4_s : State :=
  wEth.setFrame { wFrame with stage := .parsed }

def parseEndsAndClassifies_5_s : State :=
  (((wEth.setFrame { wFrame with stage := .parsed }).wr (R.RULE_ENTRY 0 5 15) 0x8000000000000000).wr (R.RULE_ENTRY 0 5 12) 0xFF0000)

def parseEndsAndClassifies_6_s : State :=
  wEth.setFrame { wFrame with stage := .queued, whole := false, cellWait := 1 }

def parseEndsAndClassifies_7_s : State :=
  wEth.setFrame { wFrame with stage := .queued, whole := false }

def parseEndsAndClassifies_8_s : State :=
  wUp.setFrame { wFrame with stage := .queued, whole := false, cellWait := 1 }

def parseEndsAndClassifies_9_s : State :=
  { wUp with eth.ghosts := [(7, 0, [3])] }

/-- The end of a program, the rule lookup, the banks and the rules: clauses 0, 1, 2, 3, 4, 5, 6, 7, 8, 9. -/
theorem witness_ParseEndsAndClassifies_a :
    (∃ (s : State), ∃ (k : Nat), ∃ (e : Nat), ∃ (x : Nat), s.slicesUp = true ∧ k < 4 ∧ e < 32 ∧ x < 4 ∧ ∃ (c : ParseCtx), s.ctx? (ctxKey k e x) = some c ∧ c.ended = true ∧ c.mal = 0 ∧ ∃ (f : Frame), s.frame? c.frame = some f ∧ f.id = c.frame ∧ f.whole = false) ∧
    (∃ (s : State), ∃ (k : Nat), ∃ (e : Nat), ∃ (x : Nat), s.slicesUp = true ∧ k < 4 ∧ e < 32 ∧ x < 4 ∧ ∃ (c : ParseCtx), s.ctx? (ctxKey k e x) = some c ∧ c.ended = true ∧ ∃ (f : Frame), s.frame? c.frame = some f ∧ f.id = c.frame ∧ f.origin = Origin.eth k 0 ∧ ∃ (m : Nat), lowestMal c.mal (if f.whole = true then f.macMal else []) = m ∧ 0 < m ∧ m < 16 ∧ s.fld (F.MAL_ACTION k m) = 1) ∧
    (∃ (s : State), ∃ (k : Nat), ∃ (e : Nat), ∃ (x : Nat), s.slicesUp = true ∧ k < 4 ∧ e < 32 ∧ x < 4 ∧ ∃ (c : ParseCtx), s.ctx? (ctxKey k e x) = some c ∧ c.ended = true ∧ ∃ (f : Frame), s.frame? c.frame = some f ∧ lowestMal c.mal (if f.whole = true then f.macMal else []) ≠ 0) ∧
    (∃ (s : State), ∃ (k : Nat), ∃ (e : Nat), ∃ (x : Nat), s.slicesUp = true ∧ ∃ (c : ParseCtx), s.ctx? (ctxKey k e x) = some c ∧ c.ended = false) ∧
    (∃ (s : State), ∃ (id : Nat), ∃ (k : Nat), ∃ (p : Nat), s.slicesUp = true ∧ s.sramPoisoned k ruleBase 2097152 = false ∧ s.validRules k = [] ∧ ∃ (f : Frame), s.frame? id = some f ∧ f.origin = Origin.eth k p ∧ f.stage = FStage.parsed ∧ s.firstOfPort f = true ∧ f.exception = false) ∧
    (∃ (s : State), ∃ (id : Nat), ∃ (k : Nat), ∃ (p : Nat), s.slicesUp = true ∧ s.sramPoisoned k ruleBase 2097152 = false ∧ ∃ (f : Frame), s.frame? id = some f ∧ f.origin = Origin.eth k p ∧ f.stage = FStage.parsed ∧ s.firstOfPort f = true ∧ f.exception = false ∧ ∃ (i : Nat), List.find? (fun (i : Nat) => ruleMatches (s.ruleEntry k i) (s.ruleKey k (s.vector f) f.vec.cls) f.vec.cls p) (s.validRules k) = some i ∧ True) ∧
    (∃ (s : State), ∃ (id : Nat), ∃ (p : Nat), s.slicesUp = true ∧ ∃ (f : Frame), s.frame? id = some f ∧ f.id = id ∧ f.whole = false ∧ (s.idleX f.slice).wakeFrames = [] ∧ f.origin = Origin.eth f.slice p ∧ f.stage = FStage.queued ∧ s.linkUp f.slice p = true ∧ cellsFor f.arrived = cellsFor f.data.length ∧ 0 < f.cellWait) ∧
    (∃ (s : State), ∃ (id : Nat), ∃ (p : Nat), s.slicesUp = true ∧ ∃ (f : Frame), s.frame? id = some f ∧ f.id = id ∧ f.whole = false ∧ (s.idleX f.slice).wakeFrames = [] ∧ f.origin = Origin.eth f.slice p ∧ f.stage = FStage.queued ∧ s.linkUp f.slice p = true ∧ cellsFor f.arrived = cellsFor f.data.length ∧ f.cellWait = 0) ∧
    (∃ (s : State), ∃ (id : Nat), ∃ (p : Nat), s.slicesUp = true ∧ ∃ (f : Frame), s.frame? id = some f ∧ f.id = id ∧ f.whole = false ∧ (s.idleX f.slice).wakeFrames = [] ∧ f.origin = Origin.eth f.slice p ∧ f.stage = FStage.queued ∧ s.linkUp f.slice p = false ∧ 0 < f.cellWait) ∧
    (∃ (s : State), ∃ (id : Nat), ∃ (k : Nat), ∃ (m : Nat), ∃ (l : List Nat), ∃ (rest : List (Nat × Nat × List Nat)), s.slicesUp = true ∧ s.frame? id = none ∧ s.eth.ghosts = (id, k, l) :: rest ∧ m = lowestMal 0 l) :=
  ⟨⟨parseEndsAndClassifies_0_s, 0, 0, 0, chk (dA inferInstance (dA inferInstance (dA inferInstance (dA inferInstance (dSome fun _ => (dA inferInstance (dA inferInstance (dSome fun _ => inferInstance)))))))) (by decide +kernel)⟩,
   ⟨parseEndsAndClassifies_1_s, 0, 0, 0, chk (dA inferInstance (dA inferInstance (dA inferInstance (dA inferInstance (dSome fun _ => (dA inferInstance (dSome fun _ => (dA inferInstance (dA inferInstance (dVar fun _ => inferInstance)))))))))) (by decide +kernel)⟩,
   ⟨parseEndsAndClassifies_2_s, 0, 0, 0, chk (dA inferInstance (dA inferInstance (dA inferInstance (dA inferInstance (dSome fun _ => (dA inferInstance (dSome fun _ => inferInstance))))))) (by decide +kernel)⟩,
   ⟨wParse 0 wCtx, 0, 0, 0, chk (dA inferInstance (dSome fun _ => inferInstance)) (by decide +kernel)⟩,
   ⟨parseEndsAndClassifies_4_s, 1, 0, 0, chk (dA inferInstance (dA inferInstance (dA inferInstance (dSome fun _ => inferInstance)))) (by decide +kernel)⟩,
   ⟨parseEndsAndClassifies_5_s, 1, 0, 0, chk (dA inferInstance (dA inferInstance (dSome fun _ => (dA inferInstance (dA inferInstance (dA inferInstance (dA inferInstance (dSome fun _ => inferInstance)))))))) (by decide +kernel)⟩,
   ⟨parseEndsAndClassifies_6_s, 1, 0, chk (dA inferInstance (dSome fun _ => inferInstance)) (by decide +kernel)⟩,
   ⟨parseEndsAndClassifies_7_s, 1, 0, chk (dA inferInstance (dSome fun _ => inferInstance)) (by decide +kernel)⟩,
   ⟨parseEndsAndClassifies_8_s, 1, 0, chk (dA inferInstance (dSome fun _ => inferInstance)) (by decide +kernel)⟩,
   (by refine ⟨parseEndsAndClassifies_9_s, (hd parseEndsAndClassifies_9_s.eth.ghosts (by decide +kernel)).fst, (hd parseEndsAndClassifies_9_s.eth.ghosts (by decide +kernel)).snd.fst, lowestMal 0 (hd parseEndsAndClassifies_9_s.eth.ghosts (by decide +kernel)).snd.snd, (hd parseEndsAndClassifies_9_s.eth.ghosts (by decide +kernel)).snd.snd, parseEndsAndClassifies_9_s.eth.ghosts.tail, ?_⟩; decide +kernel)⟩

/-- The end of a program, the rule lookup, the banks and the rules: clauses 10, 11, 12, 13, 14, 15, 16, 17. -/
theorem witness_ParseEndsAndClassifies_b :
    (∃ (s : State), ∃ (k : Nat), s.slicesUp = true ∧ k < 4 ∧ s.on (F.PARSE_BANK_DRAINING k) = false) ∧
    (∃ (s : State), ∃ (g : Agent), ∃ (k : Nat), s.slicesUp = true ∧ (g ≠ Agent.keeper ∨ s.on (F.PARSE_BANK_DRAINING k) = true)) ∧
    (∃ (s : State), ∃ (k : Nat), s.slicesUp = true ∧ k < 4 ∧ (List.all s.eth.ctxs fun (e : Nat × ParseCtx) => decide (e.fst / 128 ≠ k) || decide (e.snd.bank = s.fld (F.PARSE_BANK_ACTIVE k))) = true) ∧
    (∃ (s : State), ∃ (k : Nat), s.slicesUp = true ∧ (List.any s.eth.ctxs fun (e : Nat × ParseCtx) => decide (e.fst / 128 = k) && decide (e.snd.bank ≠ s.fld (F.PARSE_BANK_ACTIVE k))) = true) ∧
    (∃ (s : State), ∃ (g : Agent), ∃ (k : Nat), ∃ (w : Nat), ∃ (v : Word), s.slicesUp = true ∧ ruleSlotOk g k w = true ∧ wordFld v 16 1 = 0) ∧
    (∃ (s : State), ∃ (g : Agent), ∃ (k : Nat), ∃ (w : Nat), ∃ (v : Word), s.slicesUp = true ∧ ruleSlotOk g k w = true ∧ wordFld v 16 1 = 1) ∧
    (∃ (s : State), ∃ (g : Agent), ∃ (k : Nat), ∃ (w : Nat), ∃ (v : Word), s.slicesUp = true ∧ ruleSlotOk g k w = false) ∧
    (∃ (s : State), ∃ (g : Agent), ∃ (k : Nat), ∃ (w : Nat), ∃ (v : Word), s.slicesUp = true ∧ ruleSlotOk g k w = false) :=
  ⟨(by refine ⟨(wParse 0 { wCtx with ended := true, frame := 1 }).setFrame { wFrame with stage := .parsing, whole := false }, 0, ?_⟩; decide +kernel),
   (by refine ⟨(wParse 0 { wCtx with ended := true, frame := 1 }).setFrame { wFrame with stage := .parsing, whole := false }, .manager, 0, ?_⟩; decide +kernel),
   (by refine ⟨(wParse 0 { wCtx with ended := true, frame := 1 }).setFrame { wFrame with stage := .parsing, whole := false }, 0, ?_⟩; decide +kernel),
   (by refine ⟨{ wParse 0 { wCtx with bank := 1 } with keeperPend := [] }, 0, ?_⟩; decide +kernel),
   (by refine ⟨(wParse 0 { wCtx with ended := true, frame := 1 }).setFrame { wFrame with stage := .parsing, whole := false }, .keeper, 0, 1, 0, ?_⟩; decide +kernel),
   (by refine ⟨(wParse 0 { wCtx with ended := true, frame := 1 }).setFrame { wFrame with stage := .parsing, whole := false }, .keeper, 0, 1, 0x10000, ?_⟩; decide +kernel),
   (by refine ⟨(wParse 0 { wCtx with ended := true, frame := 1 }).setFrame { wFrame with stage := .parsing, whole := false }, .keeper, 0, 0, 0x10000, ?_⟩; decide +kernel),
   (by refine ⟨(wParse 0 { wCtx with ended := true, frame := 1 }).setFrame { wFrame with stage := .parsing, whole := false }, .keeper, 0, 0, 0x10000, ?_⟩; decide +kernel)⟩

/-- How one cell request is decided: clauses 0, 1, 2, 3. -/
theorem witness_CellAdmissionDecision :
    (∃ (s : State), ∃ (k : Nat), ∃ (n : Nat), s.pbUse k n < s.pbMin k n) ∧
    (∃ (s : State), ∃ (k : Nat), ∃ (n : Nat), s.pbMin k n ≤ s.pbUse k n ∧ s.pbUse k n < s.pbMax k n ∧ 0 < s.sharedFree k) ∧
    (∃ (s : State), ∃ (k : Nat), ∃ (n : Nat), s.pbMin k n ≤ s.pbUse k n ∧ (s.pbMax k n ≤ s.pbUse k n ∨ s.sharedFree k = 0)) ∧
    (∃ (s : State), ∃ (k : Nat), ∃ (n : Nat), ∃ (g : Agent), s.slicesUp = true ∧ k < 4 ∧ accessOk (R.PB_COMMIT k) true g = true ∧ s.pbCommitOk k = true) :=
  ⟨⟨wUp.setFld (F.PB_CLASS_USE 0 0) 0x4000, 0, 3, by decide +kernel⟩,
   ⟨wUp.setFld (F.PB_CLASS_USE 0 0) 0x4000, 0, 0, by decide +kernel⟩,
   ⟨wUp.setFld (F.PB_CLASS_USE 0 0) 0x4000, 0, 16, by decide +kernel⟩,
   ⟨wUp.setFld (F.PB_CLASS_USE 0 0) 0x4000, 0, 0, .keeper, by decide +kernel⟩⟩

def arbitrationAndSharedPoints_0_s : State :=
  wUp.setArbiter 0 { requesters := [{ source := 3, losses := 2, silentUntil := some 0 }] }

def arbitrationAndSharedPoints_0_asserted : List ArbReq :=
  [{ source := 3, deadline := 5, cls := 0 }, { source := 7, deadline := 5, cls := 1 }, { source := 1, deadline := 9, cls := 2 }]

def arbitrationAndSharedPoints_4_s : State :=
  { (wUp.setArbiter 0 { requesters := [{ source := 3, losses := 2, silentUntil := some 0 }] }) with time.mono := 5 }

def arbitrationAndSharedPoints_5_s : State :=
  wUp.setArbiter 0 { requesters := [{ source := 3, losses := 2, silentUntil := some 0 }] }

def arbitrationAndSharedPoints_14_s : State :=
  { wUp with eth.frames := [(1, wFrame)],  arb.waiting := [{ point := .pbPool, slice := 0, deadline := 0, source := 1, work := .cell 1 1 }] }

def arbitrationAndSharedPoints_15_s : State :=
  { ((wEth.setFrame { wFrame with cellWait := 1 }).setFld (F.PB_CLASS_USE 0 2) 0x18000) with arb.waiting := [{ point := .pbPool, slice := 0, deadline := 5, source := 3, work := .cell 2 1 }] }

def arbitrationAndSharedPoints_15_reqs : List ArbReq :=
  [{ source := 3, deadline := 5, cls := 0 }, { source := 7, deadline := 5, cls := 1 }]

def arbitrationAndSharedPoints_16_s : State :=
  { wUp with eth.frames := [(1, wFrame)], eth.pbMin := [], eth.pbMax := [], arb.waiting := [{ point := .pbPool, slice := 0, deadline := 0, source := 1, work := .cell 1 1 }] }

def arbitrationAndSharedPoints_17_s : State :=
  { wUp with arb.waiting := [{ point := .tagPool, slice := 0, deadline := 5, source := 3, work := .tag 3 7 }] }

def arbitrationAndSharedPoints_17_reqs : List ArbReq :=
  [{ source := 3, deadline := 5, cls := 0 }, { source := 7, deadline := 5, cls := 1 }]

def arbitrationAndSharedPoints_20_s : State :=
  wEth.setFrame { wFrame with stage := .handled, handle := some 0x80000, cells := [(0, 0, 1), (1, 0, 1)] }

def arbitrationAndSharedPoints_21_s : State :=
  wEth.setFrame { wFrame with stage := .handled, handle := some 0x80000, cells := [(0, 0, 1), (homeOf 0x80000, 0, 1)], cellWait := 1 }

/-- Arbitration cycles, back-off, class registers, handoff, commits and the points without back-off: clauses 0, 1, 2, 3, 4, 5, 6, 7, 8, 9. -/
theorem witness_ArbitrationAndSharedPoints_a :
    (∃ (s : State), ∃ (hub : Bool), ∃ (k : Nat), ∃ (d : Nat), ∃ (asserted : List ArbReq), s.slicesUp = true ∧ arbExists hub k d = true ∧ (s.arbiter (arbKey hub k d)).last ≠ some s.time.mono ∧ ∃ (w : ArbReq), ∃ (tied : Bool), arbWinner (s.arbiter (arbKey hub k d)) s.time.mono (presentReqs (s.arbiter (arbKey hub k d)) s.time.mono (List.filter (fun (r : ArbReq) => s.laneOpen hub k d r.lane) (List.filter (fun (r : ArbReq) => arbReaches hub d r.target) asserted))) = some (w, tied) ∧ True) ∧
    (∃ (s : State), ∃ (hub : Bool), ∃ (k : Nat), ∃ (d : Nat), ∃ (asserted : List ArbReq), s.slicesUp = true ∧ arbExists hub k d = true ∧ (s.arbiter (arbKey hub k d)).last ≠ some s.time.mono ∧ presentReqs (s.arbiter (arbKey hub k d)) s.time.mono (List.filter (fun (r : ArbReq) => s.laneOpen hub k d r.lane) (List.filter (fun (r : ArbReq) => arbReaches hub d r.target) asserted)) = [] ∧ (List.filter (fun (r : ArbReq) => arbReaches hub d r.target) asserted = [] ∨ ((List.filter (fun (r : ArbReq) => arbReaches hub d r.target) asserted).any fun (r : ArbReq) => s.laneOpen hub k d r.lane) = true)) ∧
    (∃ (s : State), ∃ (hub : Bool), ∃ (ready : Bool), ∃ (k : Nat), ∃ (d : Nat), ∃ (asserted : List ArbReq), s.slicesUp = true ∧ arbExists hub k d = true ∧ (s.arbiter (arbKey hub k d)).last ≠ some s.time.mono ∧ (ready = false ∨ List.filter (fun (r : ArbReq) => arbReaches hub d r.target) asserted ≠ [] ∧ ∀ (r : ArbReq), r ∈ List.filter (fun (r : ArbReq) => arbReaches hub d r.target) asserted → s.laneOpen hub k d r.lane = false)) ∧
    (∃ (s : State), ∃ (hub : Bool), ∃ (ready : Bool), ∃ (k : Nat), ∃ (d : Nat), ∃ (asserted : List ArbReq), s.slicesUp = true ∧ (arbExists hub k d = false ∨ (s.arbiter (arbKey hub k d)).last = some s.time.mono)) ∧
    (∃ (s : State), ∃ (hub : Bool), ∃ (k : Nat), ∃ (d : Nat), ∃ (src : Nat), s.slicesUp = true ∧ ∃ (at' : Nat), ((s.arbiter (arbKey hub k d)).requester src).silentUntil = some at' ∧ at' < s.time.mono) ∧
    (∃ (s : State), ∃ (hub : Bool), ∃ (k : Nat), ∃ (d : Nat), ∃ (src : Nat), s.slicesUp = true ∧ ∃ (at' : Nat), ((s.arbiter (arbKey hub k d)).requester src).silentUntil = some at' ∧ s.time.mono ≤ at') ∧
    (∃ (s : State), ∃ (g : Agent), ∃ (n : Nat), ∃ (v : Nat), s.slicesUp = true ∧ n < 16 ∧ accessOk (R.ARB_DEADLINE n) true g = true) ∧
    (∃ (s : State), ∃ (g : Agent), ∃ (u : Nat), ∃ (v : Nat), s.slicesUp = true ∧ u < 31 ∧ accessOk (R.ARB_UNIT_CLASS u) true g = true) ∧
    (∃ (s : State), ∃ (g : Agent), ∃ (a : Nat), ∃ (v : Nat), s.slicesUp = true ∧ (accessOk a true g && isClassReg a) = false) ∧
    (∃ (s : State), s.slicesUp = true) :=
  ⟨⟨arbitrationAndSharedPoints_0_s, false, 0, 1, arbitrationAndSharedPoints_0_asserted, chk (dA inferInstance (dA inferInstance (dA inferInstance (dSome2 fun _ _ => inferInstance)))) (by decide +kernel)⟩,
   (by refine ⟨wUp.setArbiter 0 { requesters := [{ source := 3, losses := 2, silentUntil := some 0 }] }, false, 0, 0, [], ?_⟩; decide +kernel),
   (by refine ⟨wUp.setArbiter 0 { requesters := [{ source := 3, losses := 2, silentUntil := some 0 }] }, false, false, 0, 0, [], ?_⟩; decide +kernel),
   (by refine ⟨wUp.setArbiter 0 { requesters := [{ source := 3, losses := 2, silentUntil := some 0 }] }, false, false, 0, 32, [], ?_⟩; decide +kernel),
   ⟨arbitrationAndSharedPoints_4_s, false, 0, 0, 3, chk (dA inferInstance (dSome fun _ => inferInstance)) (by decide +kernel)⟩,
   ⟨arbitrationAndSharedPoints_5_s, false, 0, 0, 3, chk (dA inferInstance (dSome fun _ => inferInstance)) (by decide +kernel)⟩,
   (by refine ⟨wUp.setArbiter 0 { requesters := [{ source := 3, losses := 2, silentUntil := some 0 }] }, .keeper, 0, 0, ?_⟩; decide +kernel),
   (by refine ⟨wUp.setArbiter 0 { requesters := [{ source := 3, losses := 2, silentUntil := some 0 }] }, .keeper, 0, 0, ?_⟩; decide +kernel),
   (by refine ⟨wUp.setArbiter 0 { requesters := [{ source := 3, losses := 2, silentUntil := some 0 }] }, .keeper, 0, 0, ?_⟩; decide +kernel),
   (by refine ⟨wUp.setArbiter 0 { requesters := [{ source := 3, losses := 2, silentUntil := some 0 }] }, ?_⟩; decide +kernel)⟩

/-- Arbitration cycles, back-off, class registers, handoff, commits and the points without back-off: clauses 10, 11, 12, 13, 14, 15, 16, 17, 19, 20. -/
theorem witness_ArbitrationAndSharedPoints_b :
    (∃ (s : State), ∃ (g : Agent), ∃ (k : Nat), s.slicesUp = true ∧ k < 4 ∧ accessOk (R.PB_COMMIT k) true g = true ∧ s.pbCommitOk k = true) ∧
    (∃ (s : State), ∃ (g : Agent), ∃ (k : Nat), s.slicesUp = true ∧ k < 4 ∧ accessOk (R.PB_COMMIT k) true g = true ∧ s.pbCommitOk k = false) ∧
    (∃ (s : State), ∃ (k : Nat), ∃ (p : Nat), ∃ (reqs : List ArbReq), ∃ (timed : List Nat), ∃ (refresh : Bool), s.slicesUp = true ∧ (4 ≤ k ∨ 4 ≤ p ∨ s.arb.decided.contains (k, p) = true)) ∧
    (∃ (s : State), ∃ (k : Nat), ∃ (p : Nat), ∃ (timed : List Nat), ∃ (refresh : Bool), s.slicesUp = true ∧ k < 4 ∧ p < 4 ∧ s.arb.decided.contains (k, p) = false ∧ s.arb.waiting = []) ∧
    (∃ (s : State), ∃ (k : Nat), ∃ (c : Nat), ∃ (id : Nat), ∃ (dl : Nat), ∃ (src : Nat), ∃ (reqs : List ArbReq), ∃ (timed : List Nat), ∃ (refresh : Bool), s.slicesUp = true ∧ k < 4 ∧ s.arb.decided.contains (k, 0) = false ∧ s.arb.waiting = [{ point := QPoint.pbPool, slice := k, deadline := dl, source := src, work := QWork.cell c id }] ∧ s.cellAnswer k c ≠ CellAnswer.refuse ∧ ∃ (f : Frame), s.frame? id = some f ∧ f.id = id) ∧
    (∃ (s : State), ∃ (k : Nat), ∃ (id : Nat), ∃ (dl : Nat), ∃ (src : Nat), ∃ (reqs : List ArbReq), ∃ (timed : List Nat), ∃ (refresh : Bool), s.slicesUp = true ∧ k < 4 ∧ s.arb.decided.contains (k, 0) = false ∧ ∃ (f : Frame), s.frame? id = some f ∧ f.id = id ∧ ∃ (c : Nat), 2 = c ∧ s.arb.waiting = [{ point := QPoint.pbPool, slice := k, deadline := dl, source := src, work := QWork.cell c id }] ∧ s.cellAnswer k c = CellAnswer.refuse) ∧
    (∃ (s : State), ∃ (k : Nat), ∃ (c : Nat), ∃ (id : Nat), ∃ (dl : Nat), ∃ (src : Nat), ∃ (reqs : List ArbReq), ∃ (timed : List Nat), ∃ (refresh : Bool), s.slicesUp = true ∧ k < 4 ∧ s.arb.decided.contains (k, 0) = false ∧ s.arb.waiting = [{ point := QPoint.pbPool, slice := k, deadline := dl, source := src, work := QWork.cell c id }] ∧ s.cellAnswer k c = CellAnswer.refuse ∧ c ≠ 2 ∧ ∃ (f : Frame), s.frame? id = some f ∧ f.id = id) ∧
    (∃ (s : State), ∃ (k : Nat), ∃ (i : Nat), ∃ (op : Nat), ∃ (reqs : List ArbReq), ∃ (timed : List Nat), ∃ (refresh : Bool), s.slicesUp = true ∧ k < 4 ∧ s.arb.decided.contains (k, 1) = false ∧ s.fld (F.TAG_INUSE k) < 16384 ∧ ∃ (r : QReq), List.find? (fun (r : QReq) => s.mayTag k r) (s.rankedReqs QPoint.tagPool k) = some r ∧ r.work = QWork.tag i op) ∧
    (∃ (s : State), ∃ (k : Nat), ∃ (reqs : List ArbReq), ∃ (timed : List Nat), s.slicesUp = true ∧ k < 4 ∧ s.arb.decided.contains (k, 2) = false) ∧
    (∃ (s : State), ∃ (id : Nat), s.slicesUp = true ∧ ∃ (f : Frame), s.frame? id = some f ∧ f.id = id ∧ f.stage = FStage.handled ∧ f.cellWait = 0 ∧ ∃ (h : Nat), f.handle = some h ∧ f.slice ≠ homeOf h ∧ s.handoffAsked f (homeOf h) = true) :=
  ⟨(by refine ⟨wUp.setArbiter 0 { requesters := [{ source := 3, losses := 2, silentUntil := some 0 }] }, .keeper, 0, ?_⟩; decide +kernel),
   ⟨wUp.setFld (F.PB_CLASS_MIN 0 0) 0x1FFFF, .keeper, 0, by decide +kernel⟩,
   (by refine ⟨wUp.setArbiter 0 { requesters := [{ source := 3, losses := 2, silentUntil := some 0 }] }, 0, 5, [{ source := 3, deadline := 5, cls := 0 }, { source := 7, deadline := 5, cls := 1 }], [], false, ?_⟩; decide +kernel),
   (by refine ⟨wUp.setArbiter 0 { requesters := [{ source := 3, losses := 2, silentUntil := some 0 }] }, 0, 0, [], false, ?_⟩; decide +kernel),
   ⟨arbitrationAndSharedPoints_14_s, 0, 1, 1, 0, 1, [], [], false, chk (dA inferInstance (dA inferInstance (dA inferInstance (dA inferInstance (dA inferInstance (dSome fun _ => inferInstance)))))) (by decide +kernel)⟩,
   ⟨arbitrationAndSharedPoints_15_s, 0, 1, 5, 3, arbitrationAndSharedPoints_15_reqs, [], false, chk (dA inferInstance (dA inferInstance (dA inferInstance (dSome fun _ => (dA inferInstance (dVar fun _ => inferInstance)))))) (by decide +kernel)⟩,
   ⟨arbitrationAndSharedPoints_16_s, 0, 1, 1, 0, 1, [], [], false, chk (dA inferInstance (dA inferInstance (dA inferInstance (dA inferInstance (dA inferInstance (dA inferInstance (dSome fun _ => inferInstance))))))) (by decide +kernel)⟩,
   ⟨arbitrationAndSharedPoints_17_s, 0, 3, 7, arbitrationAndSharedPoints_17_reqs, [], false, chk (dA inferInstance (dA inferInstance (dA inferInstance (dA inferInstance (dSome fun _ => inferInstance))))) (by decide +kernel)⟩,
   (by refine ⟨wUp.setArbiter 0 { requesters := [{ source := 3, losses := 2, silentUntil := some 0 }] }, 0, [{ source := 3, deadline := 5, cls := 0 }, { source := 7, deadline := 5, cls := 1 }], [], ?_⟩; decide +kernel),
   ⟨arbitrationAndSharedPoints_20_s, 1, chk (dA inferInstance (dSome fun _ => (dA inferInstance (dA inferInstance (dA inferInstance (dSome fun _ => inferInstance)))))) (by decide +kernel)⟩⟩

/-- Arbitration cycles, back-off, class registers, handoff, commits and the points without back-off: clauses 21, 22, 23, 24, 25. -/
theorem witness_ArbitrationAndSharedPoints_c :
    (∃ (s : State), ∃ (id : Nat), s.slicesUp = true ∧ ∃ (f : Frame), s.frame? id = some f ∧ f.id = id ∧ f.stage = FStage.handled ∧ 0 < f.cellWait ∧ ∃ (h : Nat), f.handle = some h ∧ f.slice ≠ homeOf h ∧ s.handoffAsked f (homeOf h) = true) ∧
    (∃ (s : State), ∃ (k : Nat), ∃ (p : Nat), ∃ (pr : Nat), ∃ (q : Nat), s.slicesUp = true ∧ 0 < q) ∧
    (∃ (s : State), ∃ (k : Nat), ∃ (p : Nat), ∃ (pr : Nat), s.slicesUp = true) ∧
    (∃ (s : State), ∃ (k : Nat), ∃ (p : Nat), ∃ (pr : Nat), s.slicesUp = true ∧ ∀ (e : (Nat × Nat × Nat) × Nat), e ∈ s.arb.paused → e.fst = (k, p, pr) → e.snd ≤ s.time.mono) ∧
    (∃ (s : State), ∃ (k : Nat), ∃ (p : Nat), ∃ (pr : Nat), s.slicesUp = true ∧ ∀ (e : (Nat × Nat × Nat) × Nat), e ∈ s.arb.paused → e.fst = (k, p, pr) → s.time.mono < e.snd) :=
  ⟨⟨arbitrationAndSharedPoints_21_s, 1, chk (dA inferInstance (dSome fun _ => (dA inferInstance (dA inferInstance (dA inferInstance (dSome fun _ => inferInstance)))))) (by decide +kernel)⟩,
   (by refine ⟨wUp.setArbiter 0 { requesters := [{ source := 3, losses := 2, silentUntil := some 0 }] }, 0, 0, 0, 1, ?_⟩; decide +kernel),
   (by refine ⟨wUp.setArbiter 0 { requesters := [{ source := 3, losses := 2, silentUntil := some 0 }] }, 0, 0, 0, ?_⟩; decide +kernel),
   (by refine ⟨wUp.setArbiter 0 { requesters := [{ source := 3, losses := 2, silentUntil := some 0 }] }, 0, 0, 0, ?_⟩; decide +kernel),
   (by refine ⟨wUp.setArbiter 0 { requesters := [{ source := 3, losses := 2, silentUntil := some 0 }] }, 0, 0, 0, ?_⟩; decide +kernel)⟩

def memoryErrors_2_s : State :=
  wEth.setFrame { wFrame with cells := [(0, 0, 1)] }

/-- Memory errors count, latch and poison: clauses 0, 1, 2, 5, 6, 7, 8, 9, 10. -/
theorem witness_MemoryErrors :
    (∃ (s : State), ∃ (k : Nat), ∃ (a : Nat), s.slicesUp = true ∧ k < 4) ∧
    (∃ (s : State), ∃ (k : Nat), ∃ (a : Nat), s.slicesUp = true ∧ k < 4 ∧ (a / 8 * 8 < pbBase ∨ l2Base ≤ a / 8 * 8 ∧ a / 8 * 8 < descBase)) ∧
    (∃ (s : State), ∃ (k : Nat), ∃ (a : Nat), s.slicesUp = true ∧ k < 4 ∧ pbBase ≤ a / 8 * 8 ∧ a / 8 * 8 < ctxBase ∧ s.nv.cmds = [] ∧ ∃ (f : Frame), List.filter (fun (f : Frame) => f.cells.any fun (c : Nat × Nat × Nat) => decide (c.fst = k)) (List.map (fun (e : Nat × Frame) => e.snd) s.eth.frames) = [f] ∧ True) ∧
    (∃ (s : State), ∃ (a : Nat), s.slicesUp = true) ∧
    (∃ (s : State), ∃ (a : Nat), s.slicesUp = true) ∧
    (∃ (s : State), ∃ (k : Nat), ∃ (a : Nat), ∃ (sev : Nat), ∃ (last : Bool), s.slicesUp = true ∧ a < hbmSize ∧ k = a / (24 * gib) ∧ s.arb.hbmGrants.contains a = false ∧ s.arb.waiting = [] ∧ s.arb.decided.contains (k, 2) = false) ∧
    (∃ (s : State), ∃ (k : Nat), ∃ (a : Nat), ∃ (sev : Nat), ∃ (last : Bool), s.slicesUp = true ∧ a < hbmSize ∧ k = a / (24 * gib) ∧ s.arb.hbmGrants.contains a = false ∧ s.arb.waiting = [] ∧ s.arb.decided.contains (k, 2) = true) ∧
    (∃ (s : State), ∃ (a : Nat), ∃ (sev : Nat), ∃ (last : Bool), s.slicesUp = true ∧ a < hbmSize ∧ s.arb.hbmGrants.contains a = true) ∧
    (∃ (s : State), ∃ (a : Nat), ∃ (sev : Nat), ∃ (last : Bool), s.slicesUp = true ∧ hbmSize ≤ a) :=
  ⟨(by refine ⟨wEth.setFrame { wFrame with cells := [(0, 0, 1)] }, 0, hbmSize, ?_⟩; decide +kernel),
   (by refine ⟨wEth.setFrame { wFrame with cells := [(0, 0, 1)] }, 0, l2Base, ?_⟩; decide +kernel),
   ⟨memoryErrors_2_s, 0, pbBase, chk (dA inferInstance (dA inferInstance (dA inferInstance (dA inferInstance (dA inferInstance (dCC fun _ => inferInstance)))))) (by decide +kernel)⟩,
   (by refine ⟨wEth.setFrame { wFrame with cells := [(0, 0, 1)] }, hbmSize, ?_⟩; decide +kernel),
   (by refine ⟨wEth.setFrame { wFrame with cells := [(0, 0, 1)] }, hbmSize, ?_⟩; decide +kernel),
   (by refine ⟨wEth.setFrame { wFrame with cells := [(0, 0, 1)] }, 0, pbBase, 0, false, ?_⟩; decide +kernel),
   (by refine ⟨{ wUp with arb.decided := [(0, 2)] }, 0, pbBase, 0, false, ?_⟩; decide +kernel),
   (by refine ⟨{ wUp with arb.hbmGrants := [64] }, 64, 0, false, ?_⟩; decide +kernel),
   (by refine ⟨wEth.setFrame { wFrame with cells := [(0, 0, 1)] }, hbmSize, 0, false, ?_⟩; decide +kernel)⟩

end Sys2Proof.Tests
end

