-- ==== Sys2Proof/Tests/WitnessPcie.lean ====
section
/-!
SUPPORT. Witnesses: a state and operands that meet the hypotheses of each clause of the statements named, together.
-/

set_option linter.unusedVariables false
set_option Elab.async false
set_option maxRecDepth 100000

namespace Sys2Proof.Tests
open Sys2Proof.Machine

def pcieFunctionsAreGuarded_36_s : State :=
  { wFn with pcie.reads := [{ wHr with flr := true }] }

def pcieFunctionsAreGuarded_37_s : State :=
  let s := wFn.setFnX 8 { bme := true }; { s with pcie.reads := [wHr], pcie.arrived := [(8, 0, [1]), (9, 0, [2])] }

def pcieFunctionsAreGuarded_38_s : State :=
  { wFn with pcie.reads := [{ wHr with discard := true, due := 0 }] }

def pcieFunctionsAreGuarded_39_s : State :=
  let s := wFn.setFnX 8 { bme := true }; { s with pcie.reads := [wHr], pcie.arrived := [(8, 0, [1]), (9, 0, [2])] }

def pcieFunctionsAreGuarded_40_s : State :=
  let s := wFn.setFnX 8 { bme := true }; { s with pcie.reads := [wHr], pcie.arrived := [(8, 0, [1]), (9, 0, [2])] }

def pcieFunctionsAreGuarded_41_s : State :=
  let s := wFn.setFnX 8 { bme := true }; { s with pcie.reads := [wHr], pcie.arrived := [(8, 0, [1]), (9, 0, [2])] }

def pcieFunctionsAreGuarded_42_s : State :=
  { wFn with pcie.reads := [{ wHr with reissues := 99 }] }

def pcieFunctionsAreGuarded_43_s : State :=
  let s := wFn.setFnX 8 { bme := true }; { s with pcie.reads := [wHr], pcie.arrived := [(8, 0, [1]), (9, 0, [2])] }

def pcieFunctionsAreGuarded_44_s : State :=
  { wFn with pcie.reads := [{ wHr with discard := true, due := 0 }] }

def pcieFunctionsAreGuarded_45_s : State :=
  { wFn with pcie.reads := [{ wHr with discard := true, due := 0 }] }

/-- PCIe links, Bus Master Enable, resets, interrupts, read completions, gates and inbound requests: clauses 0, 1, 2, 3, 4, 5, 6, 7, 8, 9. -/
theorem witness_PcieFunctionsAreGuarded_a :
    (∃ (s : State), ∃ (l : Nat), ∃ (speed : Nat), ∃ (width : Nat), ∃ (rec : Nat), ∃ (flit : Bool), s.running = true ∧ l < 4 ∧ s.on F.PIN_STATUS_DEV_READY = true ∧ s.linkState l ≠ 0 ∧ speed ≠ 0 ∧ speed ≤ 6 ∧ width ≠ 0 ∧ width ≤ s.linkWidth l ∧ (flit = true ∨ speed ≠ 6)) ∧
    (∃ (s : State), ∃ (l : Nat), ∃ (speed : Nat), ∃ (width : Nat), ∃ (rec : Nat), ∃ (flit : Bool), s.running = true ∧ ¬(l < 4 ∧ s.on F.PIN_STATUS_DEV_READY = true ∧ s.linkState l ≠ 0 ∧ speed ≠ 0 ∧ speed ≤ 6 ∧ width ≠ 0 ∧ width ≤ s.linkWidth l ∧ (flit = true ∨ speed ≠ 6))) ∧
    (∃ (s : State), ∃ (l : Nat), ∃ (hot : Bool), ∃ (perst : Bool), s.running = true ∧ (4 ≤ l ∨ s.linkState l = 0)) ∧
    (∃ (s : State), ∃ (l : Nat), ∃ (hot : Bool), ∃ (perst : Bool), s.running = true ∧ l < 4 ∧ s.linkState l ≠ 0) ∧
    (∃ (s : State), ∃ (l : Nat), ∃ (hot : Bool), ∃ (perst : Bool), s.running = true ∧ l < 4 ∧ s.linkState l ≠ 0 ∧ s.linkPfs l = []) ∧
    (∃ (s : State), ∃ (i : Nat), s.running = true ∧ s.fnReady i = false) ∧
    (∃ (s : State), ∃ (i : Nat), s.running = true ∧ s.fnReady i = false) ∧
    (∃ (s : State), ∃ (i : Nat), s.running = true ∧ s.fnReady i = false) ∧
    (∃ (s : State), ∃ (i : Nat), s.running = true ∧ s.fnReady i = false) ∧
    (∃ (s : State), ∃ (i : Nat), s.running = true ∧ s.fnReady i = false) :=
  ⟨⟨w1 wFn (F.PCIE_LINK_STATE_STATE 0) 1, 0, 1, 1, 0, false, by decide +kernel⟩,
   ⟨w1 wFn (F.PCIE_LINK_STATE_STATE 0) 1, 0, 0, 0, 0, false, by decide +kernel⟩,
   ⟨w1 wFn (F.PCIE_LINK_STATE_STATE 0) 1, 1, false, false, by decide +kernel⟩,
   ⟨w1 wFn (F.PCIE_LINK_STATE_STATE 0) 1, 0, false, false, by decide +kernel⟩,
   ⟨w1 wFn (F.PCIE_LINK_STATE_STATE 0) 1, 0, false, false, by decide +kernel⟩,
   ⟨w1 wFn (F.PCIE_LINK_STATE_STATE 0) 1, 0, by decide +kernel⟩,
   ⟨w1 wFn (F.PCIE_LINK_STATE_STATE 0) 1, 0, by decide +kernel⟩,
   ⟨w1 wFn (F.PCIE_LINK_STATE_STATE 0) 1, 0, by decide +kernel⟩,
   ⟨w1 wFn (F.PCIE_LINK_STATE_STATE 0) 1, 0, by decide +kernel⟩,
   ⟨w1 wFn (F.PCIE_LINK_STATE_STATE 0) 1, 0, by decide +kernel⟩⟩

/-- PCIe links, Bus Master Enable, resets, interrupts, read completions, gates and inbound requests: clauses 10, 11, 12, 13, 14, 15, 16, 17, 18, 19. -/
theorem witness_PcieFunctionsAreGuarded_b :
    (∃ (s : State), ∃ (i : Nat), ∃ (d : Bool), ∃ (m : Bool), ∃ (mx : Bool), s.running = true ∧ s.fnReady i = false) ∧
    (∃ (s : State), ∃ (i : Nat), ∃ (w : Nat), ∃ (n : Nat), s.running = true ∧ s.fnReady i = false) ∧
    (∃ (s : State), ∃ (i : Nat), ∃ (w : Nat), ∃ (v : Word), s.running = true ∧ s.fnReady i = false) ∧
    (∃ (s : State), ∃ (i : Nat), s.running = true ∧ (s.fnX i).bme = false) ∧
    (∃ (s : State), ∃ (i : Nat), s.running = true ∧ (s.fnX i).bme = true) ∧
    (∃ (s : State), ∃ (i : Nat), s.running = true ∧ (s.fnX i).d3hot = true) ∧
    (∃ (s : State), ∃ (i : Nat), s.running = true ∧ (s.fnX i).d3hot = false) ∧
    (∃ (s : State), ∃ (i : Nat), ∃ (n : Nat), s.running = true ∧ vectorCount i ≤ n) ∧
    (∃ (s : State), ∃ (i : Nat), ∃ (w : Nat), ∃ (n : Nat), s.running = true ∧ 2 ≤ w ∧ 32 ≤ n) ∧
    (∃ (s : State), ∃ (i : Nat), ∃ (w : Nat), ∃ (v : Word), s.running = true ∧ (8 ≤ i ∨ 32 ≤ w)) :=
  ⟨⟨w1 wFn (F.PCIE_LINK_STATE_STATE 0) 1, 0, true, false, false, by decide +kernel⟩,
   ⟨w1 wFn (F.PCIE_LINK_STATE_STATE 0) 1, 0, 0, 1, by decide +kernel⟩,
   ⟨w1 wFn (F.PCIE_LINK_STATE_STATE 0) 1, 0, 0, 0x10008#64, by decide +kernel⟩,
   ⟨w1 wFn (F.PCIE_LINK_STATE_STATE 0) 1, 0, by decide +kernel⟩,
   (by refine ⟨let s := wFn.setFnX 8 { bme := true }; { s with pcie.reads := [wHr], pcie.arrived := [(8, 0, [1]), (9, 0, [2])] }, 8, ?_⟩; decide +kernel),
   (by refine ⟨wFn.setFnX 8 { d3hot := true }, 8, ?_⟩; decide +kernel),
   ⟨w1 wFn (F.PCIE_LINK_STATE_STATE 0) 1, 0, by decide +kernel⟩,
   ⟨w1 wFn (F.PCIE_LINK_STATE_STATE 0) 1, 8, 64, by decide +kernel⟩,
   ⟨w1 wFn (F.PCIE_LINK_STATE_STATE 0) 1, 0, 2, 32, by decide +kernel⟩,
   ⟨w1 wFn (F.PCIE_LINK_STATE_STATE 0) 1, 0, 32, 0x10008#64, by decide +kernel⟩⟩

/-- PCIe links, Bus Master Enable, resets, interrupts, read completions, gates and inbound requests: clauses 20, 21, 22, 23, 24, 25, 26, 27, 28, 29. -/
theorem witness_PcieFunctionsAreGuarded_c :
    (∃ (s : State), ∃ (i : Nat), s.running = true ∧ s.fnReady i = true ∧ (s.fnX i).bme = true) ∧
    (∃ (s : State), ∃ (i : Nat), s.running = true ∧ s.fnReady i = true ∧ (s.fnX i).bme = false) ∧
    (∃ (s : State), ∃ (i : Nat), s.running = true ∧ s.fnReady i = true ∧ (s.fnX i).d3hot = false) ∧
    (∃ (s : State), ∃ (i : Nat), s.running = true ∧ s.fnReady i = true ∧ (s.fnX i).d3hot = true ∧ (s.fnX i).bme = false) ∧
    (∃ (s : State), ∃ (i : Nat), s.running = true ∧ s.fnReady i = true ∧ (s.fnX i).d3hot = true ∧ (s.fnX i).bme = true) ∧
    (∃ (s : State), ∃ (i : Nat), s.running = true ∧ s.fnReady i = true) ∧
    (∃ (s : State), ∃ (i : Nat), ∃ (d : Bool), ∃ (m : Bool), ∃ (mx : Bool), s.running = true ∧ s.fnReady i = true) ∧
    (∃ (s : State), ∃ (i : Nat), ∃ (n : Nat), s.running = true ∧ s.fnReady i = true ∧ n < vectorCount i) ∧
    (∃ (s : State), ∃ (i : Nat), ∃ (n : Nat), s.running = true ∧ s.fnReady i = true) ∧
    (∃ (s : State), ∃ (i : Nat), ∃ (w : Nat), ∃ (n : Nat), s.running = true ∧ s.fnReady i = true ∧ 2 ≤ w ∧ n < 32) :=
  ⟨(by refine ⟨let s := wFn.setFnX 8 { bme := true }; { s with pcie.reads := [wHr], pcie.arrived := [(8, 0, [1]), (9, 0, [2])] }, 8, ?_⟩; decide +kernel),
   ⟨w1 wFn (F.PCIE_LINK_STATE_STATE 0) 1, 8, by decide +kernel⟩,
   ⟨w1 wFn (F.PCIE_LINK_STATE_STATE 0) 1, 8, by decide +kernel⟩,
   (by refine ⟨wFn.setFnX 8 { d3hot := true }, 8, ?_⟩; decide +kernel),
   (by refine ⟨wFn.setFnX 8 { d3hot := true, bme := true }, 8, ?_⟩; decide +kernel),
   ⟨w1 wFn (F.PCIE_LINK_STATE_STATE 0) 1, 8, by decide +kernel⟩,
   ⟨w1 wFn (F.PCIE_LINK_STATE_STATE 0) 1, 8, true, false, false, by decide +kernel⟩,
   ⟨w1 wFn (F.PCIE_LINK_STATE_STATE 0) 1, 8, 1, by decide +kernel⟩,
   ⟨w1 wFn (F.PCIE_LINK_STATE_STATE 0) 1, 8, 1, by decide +kernel⟩,
   ⟨w1 wFn (F.PCIE_LINK_STATE_STATE 0) 1, 8, 2, 1, by decide +kernel⟩⟩

/-- PCIe links, Bus Master Enable, resets, interrupts, read completions, gates and inbound requests: clauses 30, 31, 32, 33, 34, 35, 36, 37, 38, 39. -/
theorem witness_PcieFunctionsAreGuarded_d :
    (∃ (s : State), ∃ (i : Nat), ∃ (w : Nat), ∃ (v : Word), s.running = true ∧ s.fnReady i = true ∧ i < 8 ∧ w < 32) ∧
    (∃ (s : State), ∃ (i : Nat), s.running = true ∧ ((s.fnX i).flrSince = none ∨ Option.any (fun (b : FeBinding) => b.flrSent.isSome) (s.anchorBinding i) = true ∨ s.linkTrained (s.instLink i) = false)) ∧
    (∃ (s : State), ∃ (i : Nat), s.running = true ∧ i < 4104 ∧ (s.fnX i).flrSince.isSome = true ∧ Option.any (fun (b : FeBinding) => b.flrSent.isSome) (s.anchorBinding i) = false ∧ s.linkTrained (s.instLink i) = true) ∧
    (∃ (s : State), ∃ (l : Nat), ∃ (tag : Nat), ∃ (i : Nat), ∃ (st : Nat), ∃ (d : List Byte), ∃ (h : List Nat), s.running = true ∧ List.find? (fun (r : HostRead) => decide (r.link = l ∧ r.tag = tag)) s.pcie.reads = none ∧ 4 ≤ l) ∧
    (∃ (s : State), ∃ (l : Nat), ∃ (tag : Nat), ∃ (i : Nat), ∃ (st : Nat), ∃ (d : List Byte), ∃ (h : List Nat), s.running = true ∧ List.find? (fun (r : HostRead) => decide (r.link = l ∧ r.tag = tag)) s.pcie.reads = none ∧ l < 4) ∧
    (∃ (s : State), ∃ (l : Nat), ∃ (tag : Nat), ∃ (i : Nat), ∃ (st : Nat), ∃ (d : List Byte), ∃ (h : List Nat), s.running = true ∧ List.find? (fun (r : HostRead) => decide (r.link = l ∧ r.tag = tag)) s.pcie.reads = none) ∧
    (∃ (s : State), ∃ (l : Nat), ∃ (tag : Nat), ∃ (i : Nat), ∃ (st : Nat), ∃ (d : List Byte), ∃ (h : List Nat), s.running = true ∧ ∃ (r : HostRead), List.find? (fun (r : HostRead) => decide (r.link = l ∧ r.tag = tag)) s.pcie.reads = some r ∧ r.flr = true) ∧
    (∃ (s : State), ∃ (l : Nat), ∃ (tag : Nat), ∃ (i : Nat), ∃ (st : Nat), ∃ (d : List Byte), ∃ (h : List Nat), s.running = true ∧ ∃ (r : HostRead), List.find? (fun (r : HostRead) => decide (r.link = l ∧ r.tag = tag)) s.pcie.reads = some r ∧ r.flr = false ∧ d.length ≠ r.len) ∧
    (∃ (s : State), ∃ (l : Nat), ∃ (tag : Nat), ∃ (i : Nat), ∃ (st : Nat), ∃ (d : List Byte), ∃ (h : List Nat), s.running = true ∧ ∃ (r : HostRead), List.find? (fun (r : HostRead) => decide (r.link = l ∧ r.tag = tag)) s.pcie.reads = some r ∧ r.flr = false ∧ r.discard = true ∧ d.length = r.len) ∧
    (∃ (s : State), ∃ (l : Nat), ∃ (tag : Nat), ∃ (i : Nat), ∃ (st : Nat), ∃ (d : List Byte), ∃ (h : List Nat), s.running = true ∧ ∃ (r : HostRead), List.find? (fun (r : HostRead) => decide (r.link = l ∧ r.tag = tag)) s.pcie.reads = some r ∧ r.flr = false ∧ r.discard = false ∧ d.length = r.len) :=
  ⟨⟨(wInst wFn 0 1).wr (R.FN_INTX_PENDING 0 0) 7, 0, 0, 0x10008#64, by decide +kernel⟩,
   ⟨w1 wFn (F.PCIE_LINK_STATE_STATE 0) 1, 0, by decide +kernel⟩,
   (by refine ⟨wFn.setFnX 8 { flrSince := some 0 }, 8, ?_⟩; decide +kernel),
   ⟨w1 wFn (F.PCIE_LINK_STATE_STATE 0) 1, 5, 5, 0, 0, List.replicate 8 3, [], by decide +kernel⟩,
   ⟨w1 wFn (F.PCIE_LINK_STATE_STATE 0) 1, 0, 5, 0, 0, List.replicate 8 3, [], by decide +kernel⟩,
   ⟨w1 wFn (F.PCIE_LINK_STATE_STATE 0) 1, 0, 5, 0, 0, List.replicate 8 3, [], by decide +kernel⟩,
   ⟨pcieFunctionsAreGuarded_36_s, 0, 5, 0, 0, List.replicate 8 3, [], chk (dA inferInstance (dSome fun _ => inferInstance)) (by decide +kernel)⟩,
   ⟨pcieFunctionsAreGuarded_37_s, 0, 5, 0, 0, [], [], chk (dA inferInstance (dSome fun _ => inferInstance)) (by decide +kernel)⟩,
   ⟨pcieFunctionsAreGuarded_38_s, 0, 5, 0, 0, List.replicate 8 3, [], chk (dA inferInstance (dSome fun _ => inferInstance)) (by decide +kernel)⟩,
   ⟨pcieFunctionsAreGuarded_39_s, 0, 5, 0, 0, List.replicate 8 3, [], chk (dA inferInstance (dSome fun _ => inferInstance)) (by decide +kernel)⟩⟩

/-- PCIe links, Bus Master Enable, resets, interrupts, read completions, gates and inbound requests: clauses 40, 41, 42, 43, 44, 45, 46, 47, 48, 49. -/
theorem witness_PcieFunctionsAreGuarded_e :
    (∃ (s : State), ∃ (l : Nat), ∃ (tag : Nat), ∃ (i : Nat), ∃ (st : Nat), ∃ (d : List Byte), ∃ (h : List Nat), s.running = true ∧ (st = 1 ∨ st = 2) ∧ ∃ (r : HostRead), List.find? (fun (r : HostRead) => decide (r.link = l ∧ r.tag = tag)) s.pcie.reads = some r ∧ r.flr = false) ∧
    (∃ (s : State), ∃ (l : Nat), ∃ (tag : Nat), ∃ (i : Nat), ∃ (st : Nat), ∃ (d : List Byte), ∃ (h : List Nat), s.running = true ∧ 3 ≤ st ∧ ∃ (r : HostRead), List.find? (fun (r : HostRead) => decide (r.link = l ∧ r.tag = tag)) s.pcie.reads = some r ∧ r.flr = false) ∧
    (∃ (s : State), ∃ (l : Nat), ∃ (tag : Nat), ∃ (i : Nat), ∃ (st : Nat), ∃ (d : List Byte), ∃ (h : List Nat), s.running = true ∧ l < 4 ∧ s.arb.tagGrants = [] ∧ s.kra.qps = [] ∧ (st = 1 ∨ st = 2) ∧ ∃ (r : HostRead), List.find? (fun (r : HostRead) => decide (r.link = l ∧ r.tag = tag)) s.pcie.reads = some r ∧ r.flr = false ∧ r.discard = false ∧ s.pcie.reads = [r] ∧ r.slice < 4 ∧ r.fn < 4104 ∧ s.fld F.PCIE_REISSUE_LIMIT ≤ r.reissues ∧ s.on (F.FN_GATE_CLOSED r.fn) = false ∧ s.isCtrl r.fn = false ∧ (s.srsWith fun (k q : Nat) => decide (s.srInst k q = r.fn)) = [] ∧ (s.crsWith fun (k q : Nat) => decide (s.crInst k q = r.fn)) = [] ∧ s.anchorBinding r.fn = none) ∧
    (∃ (s : State), ∃ (l : Nat), ∃ (tag : Nat), ∃ (i : Nat), ∃ (st : Nat), ∃ (d : List Byte), ∃ (h : List Nat), s.running = true ∧ ∃ (r : HostRead), List.find? (fun (r : HostRead) => decide (r.link = l ∧ r.tag = tag)) s.pcie.reads = some r ∧ s.time.mono < r.due) ∧
    (∃ (s : State), ∃ (l : Nat), ∃ (tag : Nat), ∃ (i : Nat), ∃ (st : Nat), ∃ (d : List Byte), ∃ (h : List Nat), s.running = true ∧ ∃ (r : HostRead), List.find? (fun (r : HostRead) => decide (r.link = l ∧ r.tag = tag)) s.pcie.reads = some r ∧ r.due ≤ s.time.mono) ∧
    (∃ (s : State), ∃ (l : Nat), ∃ (tag : Nat), ∃ (i : Nat), ∃ (st : Nat), ∃ (d : List Byte), ∃ (h : List Nat), s.running = true ∧ l < 4 ∧ ∃ (r : HostRead), List.find? (fun (r : HostRead) => decide (r.link = l ∧ r.tag = tag)) s.pcie.reads = some r ∧ r.due ≤ s.time.mono ∧ r.discard = true) ∧
    (∃ (s : State), ∃ (l : Nat), ∃ (tag : Nat), ∃ (i : Nat), ∃ (st : Nat), ∃ (d : List Byte), ∃ (h : List Nat), s.running = true ∧ ∀ (n : Nat), n ≤ s.time.mono → ¬(l, tag, n) ∈ s.pcie.quarantine) ∧
    (∃ (s : State), ∃ (l : Nat), ∃ (tag : Nat), ∃ (i : Nat), ∃ (st : Nat), ∃ (d : List Byte), ∃ (h : List Nat), s.running = true ∧ ∃ (n : Nat), n ≤ s.time.mono ∧ (l, tag, n) ∈ s.pcie.quarantine) ∧
    (∃ (s : State), ∃ (g : Agent), ∃ (v : Word), s.running = true ∧ (accessOk R.PCIE_GATE_OPEN true g = false ∨ bitOf (BitVec.toNat v) 16 = false ∨ 4104 ≤ bitsOf (BitVec.toNat v) 12 0)) ∧
    (∃ (s : State), ∃ (g : Agent), ∃ (v : Word), s.running = true ∧ accessOk R.PCIE_GATE_OPEN true g = true ∧ bitOf (BitVec.toNat v) 16 = true ∧ bitsOf (BitVec.toNat v) 12 0 < 4104) :=
  ⟨⟨pcieFunctionsAreGuarded_40_s, 0, 5, 0, 1, List.replicate 8 3, [], chk (dA inferInstance (dA inferInstance (dSome fun _ => inferInstance))) (by decide +kernel)⟩,
   ⟨pcieFunctionsAreGuarded_41_s, 0, 5, 0, 3, List.replicate 8 3, [], chk (dA inferInstance (dA inferInstance (dSome fun _ => inferInstance))) (by decide +kernel)⟩,
   ⟨pcieFunctionsAreGuarded_42_s, 0, 5, 0, 1, List.replicate 8 3, [], chk (dA inferInstance (dA inferInstance (dA inferInstance (dA inferInstance (dA inferInstance (dSome fun _ => inferInstance)))))) (by decide +kernel)⟩,
   ⟨pcieFunctionsAreGuarded_43_s, 0, 5, 0, 0, List.replicate 8 3, [], chk (dA inferInstance (dSome fun _ => inferInstance)) (by decide +kernel)⟩,
   ⟨pcieFunctionsAreGuarded_44_s, 0, 5, 0, 0, List.replicate 8 3, [], chk (dA inferInstance (dSome fun _ => inferInstance)) (by decide +kernel)⟩,
   ⟨pcieFunctionsAreGuarded_45_s, 0, 5, 0, 0, List.replicate 8 3, [], chk (dA inferInstance (dA inferInstance (dSome fun _ => inferInstance))) (by decide +kernel)⟩,
   ⟨w1 wFn (F.PCIE_LINK_STATE_STATE 0) 1, 0, 5, 0, 0, List.replicate 8 3, [], by decide +kernel⟩,
   (by refine ⟨{ wFn with pcie.quarantine := [(0, 5, 0), (0, 6, 0), (1, 5, 0)] }, 0, 5, 0, 0, List.replicate 8 3, [], ?_⟩; decide +kernel),
   ⟨w1 wFn (F.PCIE_LINK_STATE_STATE 0) 1, .keeper, 0, by decide +kernel⟩,
   ⟨w1 wFn (F.PCIE_LINK_STATE_STATE 0) 1, .keeper, 0x10008#64, by decide +kernel⟩⟩

/-- PCIe links, Bus Master Enable, resets, interrupts, read completions, gates and inbound requests: clauses 50, 51, 52, 53, 54, 55, 56, 57, 58, 59. -/
theorem witness_PcieFunctionsAreGuarded_f :
    (∃ (s : State), ∃ (l : Nat), ∃ (i : Nat), ∃ (np : Bool), ∃ (h : List Nat), ∃ (f : Option Nat), ∃ (tlp : InboundTlp), s.running = true ∧ 4 ≤ l) ∧
    (∃ (s : State), ∃ (l : Nat), ∃ (i : Nat), ∃ (np : Bool), ∃ (h : List Nat), s.running = true ∧ l < 4) ∧
    (∃ (s : State), ∃ (l : Nat), ∃ (i : Nat), ∃ (np : Bool), ∃ (h : List Nat), s.running = true ∧ l < 4 ∧ (s.fnX i).flrSince.isSome = true) ∧
    (∃ (s : State), ∃ (l : Nat), ∃ (i : Nat), ∃ (np : Bool), ∃ (h : List Nat), s.running = true ∧ l < 4 ∧ (s.fnX i).flrSince.isSome = true) ∧
    (∃ (s : State), ∃ (l : Nat), ∃ (i : Nat), ∃ (np : Bool), ∃ (h : List Nat), s.running = true ∧ l < 4 ∧ (s.fnX i).flrSince.isSome = false ∧ (s.fnX i).d3hot = false) ∧
    (∃ (s : State), ∃ (l : Nat), ∃ (i : Nat), ∃ (np : Bool), ∃ (h : List Nat), s.running = true ∧ l < 4) ∧
    (∃ (s : State), ∃ (l : Nat), ∃ (i : Nat), ∃ (np : Bool), ∃ (h : List Nat), s.running = true ∧ l < 4 ∧ (s.fnX i).flrSince.isSome = false) ∧
    (∃ (s : State), ∃ (l : Nat), ∃ (i : Nat), ∃ (np : Bool), ∃ (h : List Nat), s.running = true ∧ l < 4 ∧ (s.fnX i).flrSince.isSome = false ∧ (s.fnX i).d3hot = true) ∧
    (∃ (s : State), ∃ (l : Nat), ∃ (i : Nat), ∃ (np : Bool), ∃ (h : List Nat), ∃ (f : Option Nat), ∃ (p : Nat), s.running = true ∧ l < 4 ∧ p ∈ s.linkPfs l) ∧
    (∃ (s : State), ∃ (l : Nat), ∃ (i : Nat), ∃ (np : Bool), ∃ (h : List Nat), ∃ (f : Option Nat), ∃ (p : Nat), s.running = true ∧ l < 4 ∧ p ∈ s.linkPfs l) :=
  ⟨⟨w1 wFn (F.PCIE_LINK_STATE_STATE 0) 1, 5, 0, false, [], none, .memory, by decide +kernel⟩,
   ⟨w1 wFn (F.PCIE_LINK_STATE_STATE 0) 1, 0, 0, false, [], by decide +kernel⟩,
   (by refine ⟨wFn.setFnX 8 { flrSince := some 0 }, 0, 8, false, [], ?_⟩; decide +kernel),
   (by refine ⟨wFn.setFnX 8 { flrSince := some 0 }, 0, 8, false, [], ?_⟩; decide +kernel),
   ⟨w1 wFn (F.PCIE_LINK_STATE_STATE 0) 1, 0, 0, false, [], by decide +kernel⟩,
   ⟨w1 wFn (F.PCIE_LINK_STATE_STATE 0) 1, 0, 0, false, [], by decide +kernel⟩,
   ⟨w1 wFn (F.PCIE_LINK_STATE_STATE 0) 1, 0, 0, false, [], by decide +kernel⟩,
   (by refine ⟨wFn.setFnX 8 { d3hot := true }, 0, 8, false, [], ?_⟩; decide +kernel),
   ⟨wInst wUp 0 1, 0, 0, false, [], none, 0, by decide +kernel⟩,
   ⟨wInst wUp 0 1, 0, 0, false, [], none, 0, by decide +kernel⟩⟩

/-- PCIe links, Bus Master Enable, resets, interrupts, read completions, gates and inbound requests: clauses 60, 61, 62. -/
theorem witness_PcieFunctionsAreGuarded_g :
    (∃ (s : State), ∃ (l : Nat), ∃ (i : Nat), ∃ (np : Bool), ∃ (h : List Nat), ∃ (f : Option Nat), ∃ (p : Nat), s.running = true ∧ l < 4 ∧ p ∈ s.linkPfs l) ∧
    (∃ (s : State), ∃ (l : Nat), ∃ (i : Nat), ∃ (np : Bool), ∃ (h : List Nat), ∃ (f : Option Nat), ∃ (p : Nat), s.running = true ∧ l < 4 ∧ p ∈ s.linkPfs l) ∧
    (∃ (s : State), ∃ (l : Nat), ∃ (i : Nat), ∃ (np : Bool), ∃ (h : List Nat), ∃ (f : Option Nat), ∃ (p : Nat), s.running = true ∧ l < 4 ∧ p ∈ s.linkPfs l) :=
  ⟨⟨wInst wUp 0 1, 0, 0, false, [], none, 0, by decide +kernel⟩,
   ⟨wInst wUp 0 1, 0, 0, false, [], none, 0, by decide +kernel⟩,
   ⟨wInst wUp 0 1, 0, 0, false, [], none, 0, by decide +kernel⟩⟩

def instancesAndTranslation_15_s : State :=
  (wInst wUp 8 1).setIotlb 0 [{ wIo with target := 0 }]

def instancesAndTranslation_24_s : State :=
  { wReg { state := 1, inflight := 3 } [wAcc 1 2] with inst.inval := some ([], [1]) }

def instancesAndTranslation_25_s : State :=
  { wFn with inst.inval := some ([(0, 5)], [7]), pcie.reads := [wHr] }

def instancesAndTranslation_28_s : State :=
  { wFn with inst.atsWait := [(0, 8, 3, 0x7000)], inst.iotlb := [[wIo], [], [], []] }

def instancesAndTranslation_33_s : State :=
  { wFn with inst.faults := [⟨8, 3, 1, 0, 2, 1, 0x5000, 7⟩] }

/-- Instance states, translation, invalidation and the fault queue: clauses 0, 1, 2, 3, 4, 5, 6, 7, 8, 9. -/
theorem witness_InstancesAndTranslation_a :
    (∃ (s : State), ∃ (g : Agent), ∃ (i : Nat), s.slicesUp = true ∧ s.instWritable (R.INST_CFG i) g i = false) ∧
    (∃ (s : State), ∃ (g : Agent), ∃ (i : Nat), s.slicesUp = true ∧ s.instWritable (R.INST_CFG i) g i = false) ∧
    (∃ (s : State), ∃ (g : Agent), ∃ (i : Nat), s.slicesUp = true ∧ s.instWritable (R.INST_CFG i) g i = true ∧ s.instState i = instDisabled) ∧
    (∃ (s : State), ∃ (g : Agent), ∃ (i : Nat), s.slicesUp = true ∧ s.instWritable (R.INST_CFG i) g i = true ∧ s.instState i ≠ instDisabled) ∧
    (∃ (s : State), ∃ (g : Agent), ∃ (i : Nat), s.slicesUp = true ∧ s.instWritable (R.INST_CFG i) g i = true ∧ s.instState i = instDisabled) ∧
    (∃ (s : State), ∃ (g : Agent), ∃ (i : Nat), s.slicesUp = true ∧ s.instWritable (R.INST_CFG i) g i = true ∧ (s.instState i = instEnabled ∨ s.instState i = instQuiescing) ∧ s.cutRecs i = []) ∧
    (∃ (s : State), ∃ (g : Agent), ∃ (i : Nat), s.slicesUp = true ∧ s.instWritable (R.INST_CFG i) g i = true ∧ (s.instState i = instEnabled ∨ s.instState i = instQuiescing) ∧ s.cutRecs i ≠ []) ∧
    (∃ (s : State), ∃ (g : Agent), ∃ (i : Nat), s.slicesUp = true ∧ s.instWritable (R.INST_CFG i) g i = true ∧ s.instState i ≠ instDisabled ∧ s.instState i ≠ instEnabled ∧ s.instState i ≠ instQuiescing) ∧
    (∃ (s : State), ∃ (i : Nat), s.slicesUp = true ∧ (s.instState i ≠ instQuiescing ∨ s.inFlight i ≠ 0)) ∧
    (∃ (s : State), ∃ (i : Nat), s.slicesUp = true ∧ i < 4104 ∧ s.instState i = instQuiescing ∧ s.inFlight i = 0) :=
  ⟨⟨w1 wFn (F.INST_CFG_STATE 8) 0, .keeper, 0, by decide +kernel⟩,
   ⟨w1 wFn (F.INST_CFG_STATE 8) 0, .keeper, 0, by decide +kernel⟩,
   ⟨w1 wFn (F.INST_CFG_STATE 8) 0, .keeper, 8, by decide +kernel⟩,
   ⟨wFn, .keeper, 8, by decide +kernel⟩,
   ⟨w1 wFn (F.INST_CFG_STATE 8) 0, .keeper, 8, by decide +kernel⟩,
   ⟨wFn, .keeper, 8, by decide +kernel⟩,
   ⟨w1 (wStart wRing (wJob 1 64 0)) (F.INST_CFG_STATE 0) 2, .keeper, 0, by decide +kernel⟩,
   ⟨w1 (wInst wUp 0 1) (F.INST_CFG_STATE 0) 3, .keeper, 0, by decide +kernel⟩,
   ⟨w1 wFn (F.INST_CFG_STATE 8) 0, 0, by decide +kernel⟩,
   ⟨w1 wFn (F.INST_CFG_STATE 8) 2, 8, by decide +kernel⟩⟩

/-- Instance states, translation, invalidation and the fault queue: clauses 10, 11, 12, 13, 14, 15, 16, 17, 18, 19. -/
theorem witness_InstancesAndTranslation_b :
    (∃ (s : State), ∃ (i : Nat), s.slicesUp = true ∧ i < 4104 ∧ s.instState i = instQuiescing ∧ s.inFlight i = 0 ∧ (s.instX i).quiesceWaits = false) ∧
    (∃ (s : State), ∃ (i : Nat), s.slicesUp = true ∧ i < 4104 ∧ s.instState i = instQuiescing ∧ (s.instX i).quiesceWaits = true ∧ (s.instX i).quiesceAt + s.fld F.INST_QUIESCE_LIMIT * ticksPerUs ≤ s.time.mono) ∧
    (∃ (s : State), ∃ (i : Nat), s.slicesUp = true ∧ (s.instState i ≠ instQuiescing ∨ (s.instX i).quiesceWaits = false ∨ s.time.mono < (s.instX i).quiesceAt + s.fld F.INST_QUIESCE_LIMIT * ticksPerUs)) ∧
    (∃ (s : State), ∃ (k : Nat), ∃ (i : Nat), ∃ (u : Nat), ∃ (ia : Nat), ∃ (w : Bool), s.slicesUp = true ∧ (4 ≤ k ∨ 4104 ≤ i ∨ 7 ≤ u)) ∧
    (∃ (s : State), ∃ (k : Nat), ∃ (i : Nat), ∃ (u : Nat), ∃ (ia : Nat), ∃ (w : Bool), s.slicesUp = true ∧ k < 4 ∧ i < 4104 ∧ u < 7) ∧
    (∃ (s : State), ∃ (k : Nat), ∃ (i : Nat), ∃ (u : Nat), ∃ (ia : Nat), ∃ (w : Bool), s.slicesUp = true ∧ k < 4 ∧ i < 4104 ∧ u < 7 ∧ s.instState i ≠ instDisabled ∧ ia < 2 ^ s.log2Space i ∧ ∃ (e : Iotlb), s.iotlb k = [e] ∧ e.covers i ia = true ∧ e.target = 0 ∧ (if w = true then e.write else e.read) = true) ∧
    (∃ (s : State), ∃ (g : Agent), ∃ (i : Nat), s.slicesUp = true ∧ (s.on F.INST_INVAL_STATUS_BUSY = true ∨ accessOk R.INST_INVAL_CMD true g = false)) ∧
    (∃ (s : State), ∃ (g : Agent), ∃ (i : Nat), s.slicesUp = true ∧ (s.on F.INST_INVAL_STATUS_BUSY = true ∨ accessOk R.INST_INVAL_CMD true g = false)) ∧
    (∃ (s : State), ∃ (g : Agent), s.slicesUp = true ∧ (s.on F.INST_INVAL_STATUS_BUSY = true ∨ accessOk R.INST_INVAL_CMD true g = false)) ∧
    (∃ (s : State), ∃ (g : Agent), ∃ (i : Nat), s.slicesUp = true ∧ s.on F.INST_INVAL_STATUS_BUSY = false ∧ accessOk R.INST_INVAL_CMD true g = true) :=
  ⟨⟨w1 wFn (F.INST_CFG_STATE 8) 2, 8, by decide +kernel⟩,
   (by refine ⟨let s := (w1 wFn (F.INST_CFG_STATE 8) 2).setInstX 8 { quiesceWaits := true }; { s with time.mono := 160000000000 }, 8, ?_⟩; decide +kernel),
   ⟨w1 wFn (F.INST_CFG_STATE 8) 0, 0, by decide +kernel⟩,
   ⟨w1 wFn (F.INST_CFG_STATE 8) 0, 0, 0, 8, 0x1000, false, by decide +kernel⟩,
   ⟨w1 wFn (F.INST_CFG_STATE 8) 0, 0, 0, 0, 0x1000, false, by decide +kernel⟩,
   ⟨instancesAndTranslation_15_s, 0, 8, 0, 0x3000, false, chk (dA inferInstance (dA inferInstance (dA inferInstance (dA inferInstance (dA inferInstance (dA inferInstance (dCC fun _ => inferInstance))))))) (by decide +kernel)⟩,
   ⟨w1 wFn (F.INST_CFG_STATE 8) 0, .debug, 0, by decide +kernel⟩,
   ⟨w1 wFn (F.INST_CFG_STATE 8) 0, .debug, 0, by decide +kernel⟩,
   ⟨w1 wFn (F.INST_CFG_STATE 8) 0, .debug, by decide +kernel⟩,
   ⟨w1 wFn (F.INST_CFG_STATE 8) 0, .keeper, 0, by decide +kernel⟩⟩

/-- Instance states, translation, invalidation and the fault queue: clauses 20, 21, 22, 24, 25, 26, 27, 28, 29, 30. -/
theorem witness_InstancesAndTranslation_c :
    (∃ (s : State), ∃ (g : Agent), ∃ (i : Nat), s.slicesUp = true ∧ s.on F.INST_INVAL_STATUS_BUSY = false ∧ accessOk R.INST_INVAL_CMD true g = true) ∧
    (∃ (s : State), ∃ (g : Agent), s.slicesUp = true ∧ s.on F.INST_INVAL_STATUS_BUSY = false ∧ accessOk R.INST_INVAL_CMD true g = true) ∧
    (∃ (s : State), s.slicesUp = true ∧ s.inst.inval = none) ∧
    (∃ (s : State), ∃ (frames : List Nat), ∃ (a : KraAccess), s.slicesUp = true ∧ s.inst.inval = some ([], frames) ∧ a ∈ s.kra.accesses ∧ a.frame ∈ frames ∧ a.stage = 2) ∧
    (∃ (s : State), ∃ (r : Nat × Nat), ∃ (rs : List (Nat × Nat)), ∃ (frames : List Nat), s.slicesUp = true ∧ s.inst.inval = some (r :: rs, frames)) ∧
    (∃ (s : State), ∃ (k : Nat), ∃ (i : Nat), ∃ (page : Nat), ∃ (tr : Nat), ∃ (rd : Bool), ∃ (wr : Bool), s.running = true ∧ List.filter (fun (w : Nat × Nat × Nat × Nat) => decide (w.fst = k ∧ w.snd.fst = i ∧ w.snd.snd.snd = page)) s.inst.atsWait = []) ∧
    (∃ (s : State), ∃ (k : Nat), ∃ (i : Nat), ∃ (page : Nat), ∃ (tr : Nat), ∃ (rd : Bool), ∃ (wr : Bool), s.running = true ∧ k < 4 ∧ List.filter (fun (w : Nat × Nat × Nat × Nat) => decide (w.fst = k ∧ w.snd.fst = i ∧ w.snd.snd.snd = page)) s.inst.atsWait ≠ []) ∧
    (∃ (s : State), ∃ (k : Nat), ∃ (i : Nat), ∃ (page : Nat), ∃ (tr : Nat), ∃ (rd : Bool), ∃ (wr : Bool), ∃ (e : Iotlb), ∃ (ia : Nat), s.running = true ∧ k < 4 ∧ s.inst.atsWait = [(k, i, ia, page)] ∧ s.iotlb k = [e] ∧ e.covers i (4096 * ia) = true) ∧
    (∃ (s : State), ∃ (l : Nat), ∃ (i : Nat), ∃ (a : Nat), ∃ (n : Nat), s.running = true ∧ s.inst.iotlb.length = 4 ∧ 4 ≤ l) ∧
    (∃ (s : State), ∃ (l : Nat), ∃ (i : Nat), ∃ (a : Nat), ∃ (n : Nat), s.running = true ∧ s.inst.iotlb.length = 4 ∧ l < 4 ∧ List.map (fun (r : HostRead) => (r.link, r.tag)) (List.filter (fun (r : HostRead) => decide (r.fn = i) && r.translated) s.pcie.reads) = []) :=
  ⟨⟨w1 wFn (F.INST_CFG_STATE 8) 0, .keeper, 0, by decide +kernel⟩,
   ⟨w1 wFn (F.INST_CFG_STATE 8) 0, .keeper, by decide +kernel⟩,
   ⟨w1 wFn (F.INST_CFG_STATE 8) 0, by decide +kernel⟩,
   (by refine ⟨instancesAndTranslation_24_s, (got instancesAndTranslation_24_s.inst.inval (by decide +kernel)).snd, wAcc 1 2, ?_⟩; decide +kernel),
   (by refine ⟨instancesAndTranslation_25_s, hd (got instancesAndTranslation_25_s.inst.inval (by decide +kernel)).fst (by decide +kernel), (got instancesAndTranslation_25_s.inst.inval (by decide +kernel)).fst.tail, (got instancesAndTranslation_25_s.inst.inval (by decide +kernel)).snd, ?_⟩; decide +kernel),
   ⟨w1 wFn (F.INST_CFG_STATE 8) 0, 0, 0, 0x7000, 0x9123, false, false, by decide +kernel⟩,
   (by refine ⟨{ wInst wUp 8 1 with inst.atsWait := [(0, 8, 3, 0x7000)] }, 0, 8, 0x7000, 0x9123, false, false, ?_⟩; decide +kernel),
   (by refine ⟨instancesAndTranslation_28_s, (hd instancesAndTranslation_28_s.inst.atsWait (by decide +kernel)).fst, (hd instancesAndTranslation_28_s.inst.atsWait (by decide +kernel)).snd.fst, (hd instancesAndTranslation_28_s.inst.atsWait (by decide +kernel)).snd.snd.snd, 0x9123, false, false, hd (instancesAndTranslation_28_s.iotlb (hd instancesAndTranslation_28_s.inst.atsWait (by decide +kernel)).fst) (by decide +kernel), (hd instancesAndTranslation_28_s.inst.atsWait (by decide +kernel)).snd.snd.fst, ?_⟩; decide +kernel),
   ⟨w1 wFn (F.INST_CFG_STATE 8) 0, 5, 0, 0, 0, by decide +kernel⟩,
   ⟨w1 wFn (F.INST_CFG_STATE 8) 0, 0, 0, 0, 0, by decide +kernel⟩⟩

/-- Instance states, translation, invalidation and the fault queue: clauses 31, 32, 33. -/
theorem witness_InstancesAndTranslation_d :
    (∃ (s : State), ∃ (l : Nat), ∃ (i : Nat), ∃ (a : Nat), ∃ (n : Nat), s.running = true ∧ s.inst.iotlb.length = 4 ∧ l < 4 ∧ List.map (fun (r : HostRead) => (r.link, r.tag)) (List.filter (fun (r : HostRead) => decide (r.fn = i) && r.translated) s.pcie.reads) ≠ []) ∧
    (∃ (s : State), ∃ (g : Agent), s.slicesUp = true ∧ (accessOk R.INST_FAULT_POP true g = false ∨ s.inst.faults = [])) ∧
    (∃ (s : State), ∃ (g : Agent), s.slicesUp = true ∧ accessOk R.INST_FAULT_POP true g = true ∧ ∃ (f : ItuFault), ∃ (rest : List ItuFault), s.inst.faults = f :: rest ∧ rest.length < 2 ^ F.INST_FAULT_COUNT.width) :=
  ⟨(by refine ⟨{ wFn with inst.iotlb := [[], [], [], []], pcie.reads := [{ wHr with translated := true }] }, 0, 8, 0, 0, ?_⟩; decide +kernel),
   ⟨w1 wFn (F.INST_CFG_STATE 8) 0, .keeper, by decide +kernel⟩,
   ⟨instancesAndTranslation_33_s, .keeper, chk (dA inferInstance (dA inferInstance (dCons fun _ _ => inferInstance))) (by decide +kernel)⟩⟩

def instancesAndTranslation_frames_s : State := { wFn with inst.inval := some ([], [7]) }

/-- Instances, and their translation: clause 15. -/
theorem witness_InstancesAndTranslation_frames : ∃ (s : State), ∃ (frames : List Nat), s.slicesUp = true ∧ s.inst.inval = some ([], frames) ∧ ∀ (f : Nat) (a : KraAccess), f ∈ frames → a ∈ s.kra.accesses → a.frame = f → a.stage ≠ 2 :=
  ⟨instancesAndTranslation_frames_s, [7], by decide +kernel, by decide +kernel, fun _ a _ h => absurd h (by rw [show instancesAndTranslation_frames_s.kra.accesses = [] from by decide +kernel]; exact List.not_mem_nil)⟩

end Sys2Proof.Tests
end

