-- ==== Sys2Proof/Tests/WitnessRings.lean ====
section
/-!
SUPPORT. Witnesses: a state and operands that meet the hypotheses of each clause of the statements named, together.
-/

set_option linter.unusedVariables false
set_option Elab.async false
set_option maxRecDepth 100000

namespace Sys2Proof.Tests
open Sys2Proof.Machine

def doorbellsAreChecked_0_s : State :=
  w1 wRing (F.SR_STATE_STATE 0 0) 2

def doorbellsAreChecked_2_s : State :=
  w1 (w1 wRing (F.SR_TAIL 0 0) 5) (F.SR_HEAD 0 0) 2

def doorbellsAreChecked_5_s : State :=
  w1 wRing (F.SR_STATE_STATE 0 0) 2

def doorbellsAreChecked_6_s : State :=
  w1 wRing (F.SR_STATE_STATE 0 0) 2

def doorbellsAreChecked_7_s : State :=
  w1 (w1 (w1 wRing (F.SR_STATE_STATE 0 0) 0) (F.CR_TAIL 0 0) 5) (F.CR_HEAD 0 0) 2

def doorbellsAreChecked_8_s : State :=
  (wF wRing [(F.CR_TAIL 0 0, 64), (F.CR_HEAD 0 0, 0)]).setCrx 0 0 { held := [{ status := 1, tsValid := false, sr := 0, srHead := 0, tag := 0, result := 0, irq := false }] }

def doorbellsAreChecked_13_s : State :=
  { wInst wUp 2 1 with fe.bindings := [{ wBind true with state := 0 }] }

def doorbellsAreChecked_14_s : State :=
  { wInst wUp 2 1 with fe.bindings := [{ wBind true with state := 0 }] }

def doorbellsAreChecked_15_s : State :=
  { wInst wUp 2 1 with fe.bindings := [{ wBind true with state := 1 }] }

def doorbellsAreChecked_16_s : State :=
  { wInst wUp 2 1 with fe.bindings := [{ wBind true with state := 1 }] }

/-- Doorbells are accepted or counted by the checks of their ring: clauses 0, 1, 2, 3, 4, 5, 6, 7, 8, 9. -/
theorem witness_DoorbellsAreChecked_a :
    (∃ (s : State), ∃ (inst : Nat), ∃ (ring : Nat), ∃ (value : Nat), s.slicesUp = true ∧ s.inRecovery inst ring = false ∧ ring < 4096 ∧ s.instType inst ≠ 4 ∧ s.anchorBinding inst = none ∧ ∃ (k : Nat), ∃ (q : Nat), s.findSr inst ring = some (k, q) ∧ k < 4 ∧ q < 8192 ∧ s.srState k q ≠ stActive) ∧
    (∃ (s : State), ∃ (inst : Nat), ∃ (ring : Nat), ∃ (value : Nat), s.slicesUp = true ∧ s.inRecovery inst ring = false ∧ ring < 4096 ∧ s.instType inst ≠ 4 ∧ s.anchorBinding inst = none ∧ ∃ (k : Nat), ∃ (q : Nat), s.findSr inst ring = some (k, q) ∧ k < 4 ∧ q < 8192 ∧ s.srState k q = stActive ∧ 2 ^ s.srLog k q < extDiff (s.srLog k q) (value % 2 ^ (s.srLog k q + 1)) (s.fld (F.SR_HEAD k q))) ∧
    (∃ (s : State), ∃ (inst : Nat), ∃ (ring : Nat), ∃ (value : Nat), s.slicesUp = true ∧ s.inRecovery inst ring = false ∧ ring < 4096 ∧ s.instType inst ≠ 4 ∧ s.anchorBinding inst = none ∧ ∃ (k : Nat), ∃ (q : Nat), s.findSr inst ring = some (k, q) ∧ k < 4 ∧ q < 8192 ∧ s.srState k q = stActive ∧ extDiff (s.srLog k q) (value % 2 ^ (s.srLog k q + 1)) (s.fld (F.SR_HEAD k q)) ≤ 2 ^ s.srLog k q ∧ extDiff (s.srLog k q) (value % 2 ^ (s.srLog k q + 1)) (s.fld (F.SR_HEAD k q)) < extDiff (s.srLog k q) (s.fld (F.SR_TAIL k q)) (s.fld (F.SR_HEAD k q))) ∧
    (∃ (s : State), ∃ (inst : Nat), ∃ (ring : Nat), ∃ (value : Nat), s.slicesUp = true ∧ s.inRecovery inst ring = false ∧ ring < 4096 ∧ s.instType inst ≠ 4 ∧ s.anchorBinding inst = none ∧ ∃ (k : Nat), ∃ (q : Nat), s.findSr inst ring = some (k, q) ∧ k < 4 ∧ q < 8192 ∧ s.srState k q = stActive ∧ extDiff (s.srLog k q) (value % 2 ^ (s.srLog k q + 1)) (s.fld (F.SR_HEAD k q)) ≤ 2 ^ s.srLog k q ∧ extDiff (s.srLog k q) (value % 2 ^ (s.srLog k q + 1)) (s.fld (F.SR_HEAD k q)) = extDiff (s.srLog k q) (s.fld (F.SR_TAIL k q)) (s.fld (F.SR_HEAD k q))) ∧
    (∃ (s : State), ∃ (inst : Nat), ∃ (ring : Nat), ∃ (value : Nat), s.slicesUp = true ∧ s.inRecovery inst ring = false ∧ ring < 4096 ∧ s.instType inst ≠ 4 ∧ s.anchorBinding inst = none ∧ ∃ (k : Nat), ∃ (q : Nat), s.findSr inst ring = some (k, q) ∧ k < 4 ∧ q < 8192 ∧ s.srState k q = stActive ∧ s.srLog k q ≤ 16 ∧ extDiff (s.srLog k q) (value % 2 ^ (s.srLog k q + 1)) (s.fld (F.SR_HEAD k q)) ≤ 2 ^ s.srLog k q ∧ extDiff (s.srLog k q) (s.fld (F.SR_TAIL k q)) (s.fld (F.SR_HEAD k q)) < extDiff (s.srLog k q) (value % 2 ^ (s.srLog k q + 1)) (s.fld (F.SR_HEAD k q))) ∧
    (∃ (s : State), ∃ (inst : Nat), ∃ (ring : Nat), ∃ (value : Nat), s.slicesUp = true ∧ s.inRecovery inst ring = false ∧ ring < 4096 ∧ s.instType inst ≠ 4 ∧ s.anchorBinding inst = none ∧ ∃ (k : Nat), ∃ (c : Nat), s.findCr inst ring = some (k, c) ∧ k < 4 ∧ c < 4096 ∧ (s.crState k c ≠ stActive ∨ extDiff (s.crLog k c) (s.fld (F.CR_TAIL k c)) (s.fld (F.CR_HEAD k c)) < extDiff (s.crLog k c) (s.fld (F.CR_TAIL k c)) (value % 2 ^ (s.crLog k c + 1)))) ∧
    (∃ (s : State), ∃ (inst : Nat), ∃ (ring : Nat), ∃ (value : Nat), s.slicesUp = true ∧ s.inRecovery inst ring = false ∧ ring < 4096 ∧ s.instType inst ≠ 4 ∧ s.anchorBinding inst = none ∧ ∃ (k : Nat), ∃ (c : Nat), s.findCr inst ring = some (k, c) ∧ k < 4 ∧ c < 4096 ∧ s.crState k c = stActive ∧ value % 2 ^ (s.crLog k c + 1) = s.fld (F.CR_HEAD k c)) ∧
    (∃ (s : State), ∃ (inst : Nat), ∃ (ring : Nat), ∃ (value : Nat), s.slicesUp = true ∧ s.inRecovery inst ring = false ∧ ring < 4096 ∧ s.instType inst ≠ 4 ∧ s.anchorBinding inst = none ∧ ∃ (k : Nat), ∃ (c : Nat), s.findCr inst ring = some (k, c) ∧ k < 4 ∧ c < 4096 ∧ s.crState k c = stActive ∧ s.crLog k c ≤ 16 ∧ value % 2 ^ (s.crLog k c + 1) ≠ s.fld (F.CR_HEAD k c) ∧ extDiff (s.crLog k c) (s.fld (F.CR_TAIL k c)) (value % 2 ^ (s.crLog k c + 1)) ≤ extDiff (s.crLog k c) (s.fld (F.CR_TAIL k c)) (s.fld (F.CR_HEAD k c)) ∧ (s.crx k c).held = [] ∧ s.boundSrs k c = [] ∧ extDiff (s.crLog k c) (s.fld (F.CR_TAIL k c)) (value % 2 ^ (s.crLog k c + 1)) < 2 ^ s.crLog k c) ∧
    (∃ (s : State), ∃ (inst : Nat), ∃ (ring : Nat), ∃ (value : Nat), s.slicesUp = true ∧ s.inRecovery inst ring = false ∧ ring < 4096 ∧ s.instType inst ≠ 4 ∧ s.anchorBinding inst = none ∧ ∃ (k : Nat), ∃ (c : Nat), s.findCr inst ring = some (k, c) ∧ k < 4 ∧ c < 4096 ∧ s.crState k c = stActive ∧ s.crLog k c ≤ 16 ∧ value % 2 ^ (s.crLog k c + 1) ≠ s.fld (F.CR_HEAD k c) ∧ extDiff (s.crLog k c) (s.fld (F.CR_TAIL k c)) (value % 2 ^ (s.crLog k c + 1)) ≤ extDiff (s.crLog k c) (s.fld (F.CR_TAIL k c)) (s.fld (F.CR_HEAD k c)) ∧ extDiff (s.crLog k c) (s.fld (F.CR_TAIL k c)) (value % 2 ^ (s.crLog k c + 1)) < 2 ^ s.crLog k c ∧ ∃ (e : Compl), (s.crx k c).held = [e] ∧ ∃ (s1 : State), ((s.linkBusy (s.instLink inst)).wakeSlice k).setFld (F.CR_HEAD k c) (value % 2 ^ (s.crLog k c + 1)) = s1 ∧ ∃ (s2 : State), ∃ (a : List Byte), s1.dmaWrite k (s.crInst k c) (s.fld (F.CR_BASE k c) * 4096 + 16 * extSlot (s.crLog k c) (s.fld (F.CR_TAIL k c))) (s1.classOp 0 e.cls e.begun) (e.bytes true (s.crLog k c) (s.fld (F.CR_TAIL k c))) = (s2, DmaRes.ok a) ∧ True) ∧
    (∃ (s : State), ∃ (inst : Nat), ∃ (ring : Nat), ∃ (value : Nat), s.slicesUp = true ∧ s.inRecovery inst ring = false ∧ (4096 ≤ ring ∨ s.instType inst = 4)) :=
  ⟨⟨doorbellsAreChecked_0_s, 0, 0, 0, chk (dA inferInstance (dA inferInstance (dA inferInstance (dA inferInstance (dA inferInstance (dSome2 fun _ _ => inferInstance)))))) (by decide +kernel)⟩,
   ⟨wRing, 0, 0, 66, chk (dA inferInstance (dA inferInstance (dA inferInstance (dA inferInstance (dA inferInstance (dSome2 fun _ _ => inferInstance)))))) (by decide +kernel)⟩,
   ⟨doorbellsAreChecked_2_s, 0, 0, 3, chk (dA inferInstance (dA inferInstance (dA inferInstance (dA inferInstance (dA inferInstance (dSome2 fun _ _ => inferInstance)))))) (by decide +kernel)⟩,
   ⟨wRing, 0, 0, 0, chk (dA inferInstance (dA inferInstance (dA inferInstance (dA inferInstance (dA inferInstance (dSome2 fun _ _ => inferInstance)))))) (by decide +kernel)⟩,
   ⟨wRing, 0, 0, 1, chk (dA inferInstance (dA inferInstance (dA inferInstance (dA inferInstance (dA inferInstance (dSome2 fun _ _ => inferInstance)))))) (by decide +kernel)⟩,
   ⟨doorbellsAreChecked_5_s, 0, 0, 1, chk (dA inferInstance (dA inferInstance (dA inferInstance (dA inferInstance (dA inferInstance (dSome2 fun _ _ => inferInstance)))))) (by decide +kernel)⟩,
   ⟨doorbellsAreChecked_6_s, 0, 0, 0, chk (dA inferInstance (dA inferInstance (dA inferInstance (dA inferInstance (dA inferInstance (dSome2 fun _ _ => inferInstance)))))) (by decide +kernel)⟩,
   ⟨doorbellsAreChecked_7_s, 0, 0, 3, chk (dA inferInstance (dA inferInstance (dA inferInstance (dA inferInstance (dA inferInstance (dSome2 fun _ _ => inferInstance)))))) (by decide +kernel)⟩,
   ⟨doorbellsAreChecked_8_s, 0, 0, 4, chk (dA inferInstance (dA inferInstance (dA inferInstance (dA inferInstance (dA inferInstance (dSome2 fun _ _ => (dA inferInstance (dA inferInstance (dA inferInstance (dA inferInstance (dA inferInstance (dA inferInstance (dA inferInstance (dCC fun _ => (dVar fun _ => (dOkD fun _ _ => inferInstance)))))))))))))))) (by decide +kernel)⟩,
   ⟨w1 wRing (F.SR_STATE_STATE 0 0) 2, 0, 4096, 0, by decide +kernel⟩⟩

/-- Doorbells are accepted or counted by the checks of their ring: clauses 10, 11, 12, 13, 14, 15, 16, 17, 18. -/
theorem witness_DoorbellsAreChecked_b :
    (∃ (s : State), ∃ (inst : Nat), ∃ (ring : Nat), ∃ (value : Nat), s.slicesUp = true ∧ s.inRecovery inst ring = false ∧ (4096 ≤ ring ∨ s.instType inst = 4)) ∧
    (∃ (s : State), ∃ (inst : Nat), ∃ (ring : Nat), ∃ (value : Nat), s.slicesUp = true ∧ s.inRecovery inst ring = false ∧ ring < 4096 ∧ s.instType inst ≠ 4 ∧ s.anchorBinding inst = none ∧ s.findSr inst ring = none) ∧
    (∃ (s : State), ∃ (inst : Nat), ∃ (ring : Nat), ∃ (value : Nat), s.slicesUp = true ∧ s.inRecovery inst ring = false ∧ ring < 4096 ∧ s.instType inst ≠ 4 ∧ s.anchorBinding inst = none ∧ s.findCr inst ring = none) ∧
    (∃ (s : State), ∃ (inst : Nat), ∃ (ring : Nat), ∃ (value : Nat), s.slicesUp = true ∧ s.inRecovery inst ring = false ∧ ring < 4096 ∧ s.instType inst ≠ 4 ∧ ∃ (b : FeBinding), s.anchorBinding inst = some b ∧ b.state ≠ 1) ∧
    (∃ (s : State), ∃ (inst : Nat), ∃ (ring : Nat), ∃ (value : Nat), s.slicesUp = true ∧ s.inRecovery inst ring = false ∧ ring < 4096 ∧ s.instType inst ≠ 4 ∧ ∃ (b : FeBinding), s.anchorBinding inst = some b ∧ b.state ≠ 1) ∧
    (∃ (s : State), ∃ (inst : Nat), ∃ (ring : Nat), ∃ (value : Nat), s.slicesUp = true ∧ s.inRecovery inst ring = false ∧ ring < 4096 ∧ s.instType inst ≠ 4 ∧ ∃ (b : FeBinding), s.anchorBinding inst = some b ∧ b.state = 1) ∧
    (∃ (s : State), ∃ (inst : Nat), ∃ (ring : Nat), ∃ (value : Nat), s.slicesUp = true ∧ s.inRecovery inst ring = false ∧ ring < 4096 ∧ s.instType inst ≠ 4 ∧ ∃ (b : FeBinding), s.anchorBinding inst = some b ∧ b.state = 1) ∧
    (∃ (s : State), ∃ (value : Nat), s.running = true ∧ s.boot.recovery = true) ∧
    (∃ (s : State), ∃ (value : Nat), s.running = true ∧ s.boot.recovery = true) :=
  ⟨⟨w1 wRing (F.SR_STATE_STATE 0 0) 2, 0, 4096, 0, by decide +kernel⟩,
   ⟨w1 wRing (F.SR_STATE_STATE 0 0) 2, 0, 1, 0, by decide +kernel⟩,
   ⟨w1 wRing (F.SR_STATE_STATE 0 0) 2, 0, 1, 0, by decide +kernel⟩,
   ⟨doorbellsAreChecked_13_s, 2, 0, 0, chk (dA inferInstance (dA inferInstance (dA inferInstance (dA inferInstance (dSome fun _ => inferInstance))))) (by decide +kernel)⟩,
   ⟨doorbellsAreChecked_14_s, 2, 0, 0, chk (dA inferInstance (dA inferInstance (dA inferInstance (dA inferInstance (dSome fun _ => inferInstance))))) (by decide +kernel)⟩,
   ⟨doorbellsAreChecked_15_s, 2, 0, 0, chk (dA inferInstance (dA inferInstance (dA inferInstance (dA inferInstance (dSome fun _ => inferInstance))))) (by decide +kernel)⟩,
   ⟨doorbellsAreChecked_16_s, 2, 0, 0, chk (dA inferInstance (dA inferInstance (dA inferInstance (dA inferInstance (dSome fun _ => inferInstance))))) (by decide +kernel)⟩,
   ⟨wRec, 0, by decide +kernel⟩,
   ⟨wRec, 0, by decide +kernel⟩⟩

def jobsStartAndComplete_0_s : State :=
  w1 wRing (F.SR_TAIL 0 0) 3

def jobsStartAndComplete_1_s : State :=
  (w1 wRing (F.SR_TAIL 0 0) 3).hbmWrite 0x40004000 [0, 7]

def jobsStartAndComplete_2_s : State :=
  (w1 wRing (F.SR_TAIL 0 0) 3).hbmWrite 0x40004000 [0, 3]

def jobsStartAndComplete_3_s : State :=
  wPoi (w1 wRing (F.SR_TAIL 0 0) 3) 0x4000

def jobsStartAndComplete_5_s : State :=
  wRing.setSrx 0 0 { ready := [wJob 0 0 0] }

def jobsStartAndComplete_10_s : State :=
  wStart wRing (wJob 2 64 0)

def jobsStartAndComplete_14_s : State :=
  wStart wRing { (wJob 0x800 64 0) with outcome := some (0, 0, false) }

def jobsStartAndComplete_15_s : State :=
  wStart wRing { (wJob 2 64 0) with outcome := some (0, 0, false) }

def jobsStartAndComplete_16_s : State :=
  w1 (w1 (wStart wRing { (wJob 0x800 64 0) with outcome := some (0x1001, 0, false) }) (F.CR_TAIL 0 0) 64) (F.CR_STATE_CQ_OVERFLOW_PENDING 0 0) 1

def jobsStartAndComplete_17_s : State :=
  w1 (wStart wRing { (wJob 2 64 0) with outcome := some (0, 0, false) }) (F.CR_STATE_STATE 0 0) 0

def jobsStartAndComplete_21_s : State :=
  wFire (wF wRing [(F.CR_INT_CFG_INT_EN 0 0, 1), (F.CR_INT_CFG_TARGET 0 0, 1), (F.CR_INT_CFG_CHANNEL 0 0, 7), (F.CH_BIND_HW_WRITE 0 0 7, 1)]) 0 (.ringMod 0)

/-- Descriptors are fetched, jobs start by credit, and completions are written or held: clauses 0, 1, 2, 3, 4, 5, 6, 7, 8, 9. -/
theorem witness_JobsStartAndComplete_a :
    (∃ (s : State), ∃ (k : Nat), ∃ (q : Nat), s.slicesUp = true ∧ srExists k q = true ∧ s.awake k = true ∧ s.mayFetch k q = true ∧ ∃ (s1 : State), ∃ (bs : List Byte), s.dmaRead k (s.srInst k q) (s.fld (F.SR_BASE k q) * 4096 + 64 * extSlot (s.srLog k q) (s.srx k q).fetch) 64 (s.ringOp 0 k q (s.descRung k q)) = (s1, DmaRes.ok bs) ∧ bitsOf (dwAt bs 0) 8 8 = extWrap (s.srLog k q) (s.srx k q).fetch) ∧
    (∃ (s : State), ∃ (k : Nat), ∃ (q : Nat), s.slicesUp = true ∧ srExists k q = true ∧ s.awake k = true ∧ s.mayFetch k q = true ∧ ∃ (s1 : State), ∃ (bs : List Byte), s.dmaRead k (s.srInst k q) (s.fld (F.SR_BASE k q) * 4096 + 64 * extSlot (s.srLog k q) (s.srx k q).fetch) 64 (s.ringOp 0 k q (s.descRung k q)) = (s1, DmaRes.ok bs) ∧ bitsOf (dwAt bs 0) 8 8 ≠ extWrap (s.srLog k q) (s.srx k q).fetch ∧ bitsOf (dwAt bs 0) 10 9 = 3 ∧ (s1.srx k q).chain = [] ∧ (s1.srx k q).skip = 0) ∧
    (∃ (s : State), ∃ (k : Nat), ∃ (q : Nat), s.slicesUp = true ∧ srExists k q = true ∧ s.awake k = true ∧ s.mayFetch k q = true ∧ ∃ (s1 : State), ∃ (bs : List Byte), s.dmaRead k (s.srInst k q) (s.fld (F.SR_BASE k q) * 4096 + 64 * extSlot (s.srLog k q) (s.srx k q).fetch) 64 (s.ringOp 0 k q (s.descRung k q)) = (s1, DmaRes.ok bs) ∧ bitsOf (dwAt bs 0) 8 8 ≠ extWrap (s.srLog k q) (s.srx k q).fetch ∧ bitsOf (dwAt bs 0) 10 9 = 1 ∧ (s1.srx k q).chain = [] ∧ (s1.srx k q).skip = 0) ∧
    (∃ (s : State), ∃ (k : Nat), ∃ (q : Nat), s.slicesUp = true ∧ srExists k q = true ∧ s.awake k = true ∧ s.mayFetch k q = true ∧ ∃ (s1 : State), ∃ (st : Nat), s.dmaRead k (s.srInst k q) (s.fld (F.SR_BASE k q) * 4096 + 64 * extSlot (s.srLog k q) (s.srx k q).fetch) 64 (s.ringOp 0 k q (s.descRung k q)) = (s1, DmaRes.fail st) ∧ True) ∧
    (∃ (s : State), ∃ (k : Nat), ∃ (q : Nat), ∃ (n : Nat), s.slicesUp = true ∧ (srExists k q = false ∨ s.awake k = false ∨ s.mayFetch k q = false)) ∧
    (∃ (s : State), ∃ (k : Nat), ∃ (q : Nat), s.slicesUp = true ∧ srExists k q = true ∧ s.srState k q = stActive ∧ s.instRuns (s.srInst k q) = true ∧ s.srLog k q ≤ 16 ∧ s.credit k (s.fld (F.SR_CFG_CR k q)) = true ∧ 0 < s.crFree k (s.fld (F.SR_CFG_CR k q)) ∧ s.boundSrs k (s.fld (F.SR_CFG_CR k q)) = [q] ∧ ∃ (j : RJob), ∃ (rest : List RJob), (s.srx k q).ready = j :: rest ∧ j.preset = none) ∧
    (∃ (s : State), ∃ (k : Nat), ∃ (q : Nat), s.slicesUp = true ∧ srExists k q = true ∧ s.credit k (s.fld (F.SR_CFG_CR k q)) = false ∧ s.boundSrs k (s.fld (F.SR_CFG_CR k q)) = [q]) ∧
    (∃ (s : State), ∃ (k : Nat), ∃ (q : Nat), s.slicesUp = true ∧ srExists k q = false) ∧
    (∃ (s : State), ∃ (k : Nat), ∃ (q : Nat), s.slicesUp = true ∧ srExists k q = true ∧ s.srState k q = stActive ∧ s.instRuns (s.srInst k q) = true ∧ s.credit k (s.fld (F.SR_CFG_CR k q)) = true ∧ (s.srx k q).ready = []) ∧
    (∃ (s : State), ∃ (k : Nat), ∃ (q : Nat), s.slicesUp = true ∧ ∃ (j : RJob), s.jobFor k q 0 = some j ∧ True) :=
  ⟨⟨jobsStartAndComplete_0_s, 0, 0, chk (dA inferInstance (dA inferInstance (dA inferInstance (dA inferInstance (dOkD fun _ _ => inferInstance))))) (by decide +kernel)⟩,
   ⟨jobsStartAndComplete_1_s, 0, 0, chk (dA inferInstance (dA inferInstance (dA inferInstance (dA inferInstance (dOkD fun _ _ => inferInstance))))) (by decide +kernel)⟩,
   ⟨jobsStartAndComplete_2_s, 0, 0, chk (dA inferInstance (dA inferInstance (dA inferInstance (dA inferInstance (dOkD fun _ _ => inferInstance))))) (by decide +kernel)⟩,
   ⟨jobsStartAndComplete_3_s, 0, 0, chk (dA inferInstance (dA inferInstance (dA inferInstance (dA inferInstance (dFailD fun _ _ => inferInstance))))) (by decide +kernel)⟩,
   ⟨w1 wRing (F.SR_TAIL 0 0) 3, 0, 1, 0, by decide +kernel⟩,
   ⟨jobsStartAndComplete_5_s, 0, 0, chk (dA inferInstance (dA inferInstance (dA inferInstance (dA inferInstance (dA inferInstance (dA inferInstance (dA inferInstance (dA inferInstance (dCons fun _ _ => inferInstance))))))))) (by decide +kernel)⟩,
   (by refine ⟨(w1 wRing (F.CR_CFG_HOLD_LIMIT 0 0) 0).setCrx 0 0 { o := 64 }, 0, 0, ?_⟩; decide +kernel),
   ⟨w1 wRing (F.SR_TAIL 0 0) 3, 5, 0, by decide +kernel⟩,
   ⟨w1 wRing (F.SR_TAIL 0 0) 3, 0, 0, by decide +kernel⟩,
   ⟨wStart wRing (wJob 0 0 0), 0, 0, chk (dA inferInstance (dSome fun _ => inferInstance)) (by decide +kernel)⟩⟩

/-- Descriptors are fetched, jobs start by credit, and completions are written or held: clauses 10, 11, 12, 13, 14, 15, 16, 17, 18, 19. -/
theorem witness_JobsStartAndComplete_b :
    (∃ (s : State), ∃ (k : Nat), ∃ (q : Nat), s.slicesUp = true ∧ ∃ (j : RJob), s.jobFor k q 2 = some j ∧ j.slice = k ∧ j.ring = q) ∧
    (∃ (s : State), ∃ (k : Nat), ∃ (q : Nat), s.slicesUp = true ∧ s.jobFor k q 0 = none) ∧
    (∃ (s : State), ∃ (k : Nat), ∃ (q : Nat), s.slicesUp = true ∧ s.jobFor k q 2 = none) ∧
    (∃ (s : State), ∃ (k : Nat), ∃ (q : Nat), s.slicesUp = true ∧ srExists k q = true ∧ s.srState k q = stActive ∧ (s.crx k (s.fld (F.SR_CFG_CR k q))).late = [] ∧ ∃ (j : RJob), ∃ (rest : List RJob), (s.srx k q).started = j :: rest ∧ j.outcome = none) ∧
    (∃ (s : State), ∃ (k : Nat), ∃ (q : Nat), s.slicesUp = true ∧ srExists k q = true ∧ s.srState k q = stActive ∧ (s.crx k (s.fld (F.SR_CFG_CR k q))).late = [] ∧ s.boundSrs k (s.fld (F.SR_CFG_CR k q)) = [q] ∧ s.crState k (s.fld (F.SR_CFG_CR k q)) = stActive ∧ 0 < s.crFree k (s.fld (F.SR_CFG_CR k q)) ∧ ∃ (j : RJob), ∃ (rest : List RJob), (s.srx k q).started = j :: rest ∧ j.head.skip = true ∧ ∃ (o : Nat × Nat × Bool), j.outcome = some o ∧ o.fst / 4096 = 0) ∧
    (∃ (s : State), ∃ (k : Nat), ∃ (q : Nat), s.slicesUp = true ∧ srExists k q = true ∧ s.srState k q = stActive ∧ (s.crx k (s.fld (F.SR_CFG_CR k q))).late = [] ∧ s.boundSrs k (s.fld (F.SR_CFG_CR k q)) = [q] ∧ s.crState k (s.fld (F.SR_CFG_CR k q)) = stActive ∧ 0 < s.crFree k (s.fld (F.SR_CFG_CR k q)) ∧ (s.crx k (s.fld (F.SR_CFG_CR k q))).held = [] ∧ s.crLog k (s.fld (F.SR_CFG_CR k q)) ≤ 16 ∧ ∃ (j : RJob), ∃ (rest : List RJob), (s.srx k q).started = j :: rest ∧ j.head.first = true ∧ ∃ (o : Nat × Nat × Bool), j.outcome = some o ∧ ¬(o.fst / 4096 = 0 ∧ j.head.skip = true) ∧ ∃ (s1 : State), ∃ (a : List Byte), s.dmaWrite k (s.crInst k (s.fld (F.SR_CFG_CR k q))) (s.fld (F.CR_BASE k (s.fld (F.SR_CFG_CR k q))) * 4096 + 16 * extSlot (s.crLog k (s.fld (F.SR_CFG_CR k q))) (s.fld (F.CR_TAIL k (s.fld (F.SR_CFG_CR k q))))) (s.classOp 0 (s.complOf j o).cls (s.complOf j o).begun) ((s.complOf j o).bytes false (s.crLog k (s.fld (F.SR_CFG_CR k q))) (s.fld (F.CR_TAIL k (s.fld (F.SR_CFG_CR k q))))) = (s1, DmaRes.ok a) ∧ True) ∧
    (∃ (s : State), ∃ (k : Nat), ∃ (q : Nat), s.slicesUp = true ∧ srExists k q = true ∧ s.srState k q = stActive ∧ (s.crx k (s.fld (F.SR_CFG_CR k q))).late = [] ∧ s.boundSrs k (s.fld (F.SR_CFG_CR k q)) = [q] ∧ s.crState k (s.fld (F.SR_CFG_CR k q)) = stActive ∧ s.crFree k (s.fld (F.SR_CFG_CR k q)) = 0 ∧ 0 < s.fld (F.RING_POOL_FREE k) ∧ s.on (F.CR_STATE_CQ_OVERFLOW_PENDING k (s.fld (F.SR_CFG_CR k q))) = true ∧ ∃ (j : RJob), ∃ (rest : List RJob), (s.srx k q).started = j :: rest ∧ j.head.first = true ∧ ∃ (o : Nat × Nat × Bool), j.outcome = some o ∧ o.fst / 4096 ≠ 0) ∧
    (∃ (s : State), ∃ (k : Nat), ∃ (q : Nat), s.slicesUp = true ∧ srExists k q = true ∧ s.srState k q = stActive ∧ (s.crx k (s.fld (F.SR_CFG_CR k q))).late = [] ∧ s.boundSrs k (s.fld (F.SR_CFG_CR k q)) = [q] ∧ s.crState k (s.fld (F.SR_CFG_CR k q)) ≠ stActive ∧ ∃ (j : RJob), ∃ (rest : List RJob), (s.srx k q).started = j :: rest ∧ j.head.first = true ∧ ∃ (o : Nat × Nat × Bool), j.outcome = some o ∧ ¬(o.fst / 4096 = 0 ∧ j.head.skip = true)) ∧
    (∃ (s : State), ∃ (k : Nat), ∃ (q : Nat), s.slicesUp = true ∧ (srExists k q = false ∨ s.srState k q = stStalled ∨ s.srState k q = stDisabled)) ∧
    (∃ (s : State), ∃ (k : Nat), ∃ (c : Nat), s.slicesUp = true ∧ crExists k c = true ∧ s.twFired k (TwConsumer.ringMod c) = true ∧ s.on (F.CR_INT_CFG_INT_EN k c) = false) :=
  ⟨⟨jobsStartAndComplete_10_s, 0, 0, chk (dA inferInstance (dSome fun _ => inferInstance)) (by decide +kernel)⟩,
   ⟨w1 wRing (F.SR_TAIL 0 0) 3, 0, 0, by decide +kernel⟩,
   ⟨w1 wRing (F.SR_TAIL 0 0) 3, 0, 0, by decide +kernel⟩,
   ⟨wStart wRing (wJob 0 0 0), 0, 0, chk (dA inferInstance (dA inferInstance (dA inferInstance (dA inferInstance (dCons fun _ _ => inferInstance))))) (by decide +kernel)⟩,
   ⟨jobsStartAndComplete_14_s, 0, 0, chk (dA inferInstance (dA inferInstance (dA inferInstance (dA inferInstance (dA inferInstance (dA inferInstance (dA inferInstance (dCons fun _ _ => (dA inferInstance (dSome fun _ => inferInstance)))))))))) (by decide +kernel)⟩,
   ⟨jobsStartAndComplete_15_s, 0, 0, chk (dA inferInstance (dA inferInstance (dA inferInstance (dA inferInstance (dA inferInstance (dA inferInstance (dA inferInstance (dA inferInstance (dA inferInstance (dCons fun _ _ => (dA inferInstance (dSome fun _ => (dA inferInstance (dOkD fun _ _ => inferInstance)))))))))))))) (by decide +kernel)⟩,
   ⟨jobsStartAndComplete_16_s, 0, 0, chk (dA inferInstance (dA inferInstance (dA inferInstance (dA inferInstance (dA inferInstance (dA inferInstance (dA inferInstance (dA inferInstance (dA inferInstance (dCons fun _ _ => (dA inferInstance (dSome fun _ => inferInstance)))))))))))) (by decide +kernel)⟩,
   ⟨jobsStartAndComplete_17_s, 0, 0, chk (dA inferInstance (dA inferInstance (dA inferInstance (dA inferInstance (dA inferInstance (dA inferInstance (dCons fun _ _ => (dA inferInstance (dSome fun _ => inferInstance))))))))) (by decide +kernel)⟩,
   ⟨w1 wRing (F.SR_TAIL 0 0) 3, 0, 1, by decide +kernel⟩,
   (by refine ⟨wFire (wRing.setCrx 0 0 { unsignalled := 3 }) 0 (.ringMod 0), 0, 0, ?_⟩; decide +kernel)⟩

/-- Descriptors are fetched, jobs start by credit, and completions are written or held: clauses 20, 21, 22. -/
theorem witness_JobsStartAndComplete_c :
    (∃ (s : State), ∃ (k : Nat), ∃ (c : Nat), s.slicesUp = true ∧ crExists k c = true ∧ s.twFired k (TwConsumer.ringMod c) = true ∧ s.on (F.CR_INT_CFG_INT_EN k c) = true ∧ s.on (F.CR_INT_CFG_TARGET k c) = false) ∧
    (∃ (s : State), ∃ (k : Nat), ∃ (c : Nat), s.slicesUp = true ∧ crExists k c = true ∧ s.twFired k (TwConsumer.ringMod c) = true ∧ s.on (F.CR_INT_CFG_INT_EN k c) = true ∧ s.on (F.CR_INT_CFG_TARGET k c) = true ∧ ∃ (cl : Nat), s.fld (F.CR_INT_CFG_CLUSTER k c) = cl ∧ cl < 4 ∧ (s.clx k cl).deferred = [] ∧ ∃ (ch : Nat), s.fld (F.CR_INT_CFG_CHANNEL k c) = ch ∧ s.on (F.CH_BIND_HW_WRITE k cl ch) = true ∧ s.chState k cl ch = 0) ∧
    (∃ (s : State), ∃ (k : Nat), ∃ (c : Nat), s.slicesUp = true ∧ (crExists k c = false ∨ s.twFired k (TwConsumer.ringMod c) = false)) :=
  ⟨⟨wFire (w1 wRing (F.CR_INT_CFG_INT_EN 0 0)) 0 (.ringMod 0), 0, 0, by decide +kernel⟩,
   ⟨jobsStartAndComplete_21_s, 0, 0, chk (dA inferInstance (dA inferInstance (dA inferInstance (dA inferInstance (dA inferInstance (dVar fun _ => (dA inferInstance (dA inferInstance (dVar fun _ => inferInstance))))))))) (by decide +kernel)⟩,
   ⟨w1 wRing (F.SR_TAIL 0 0) 3, 0, 0, by decide +kernel⟩⟩

/-- Rings are enabled, disabled and drained by their state machine: clauses 0, 1, 2, 3, 4, 5, 6, 7, 8, 9. -/
theorem witness_RingStatesMove_a :
    (∃ (s : State), ∃ (g : Agent), ∃ (k : Nat), ∃ (q : Nat), s.slicesUp = true ∧ srExists k q = true ∧ accessOk (R.SR_CTRL k q) true g = true ∧ s.srInst k q < 4096 ∧ s.srState k q = stDisabled ∧ s.srValid k q = true ∧ s.fld (F.INST_USE_A_SR (s.srInst k q)) < s.fld (F.INST_QUOTA_A_SR_MAX (s.srInst k q))) ∧
    (∃ (s : State), ∃ (g : Agent), ∃ (k : Nat), ∃ (q : Nat), s.slicesUp = true ∧ srExists k q = true ∧ accessOk (R.SR_CTRL k q) true g = true ∧ s.srInst k q < 4096 ∧ s.srState k q = stDisabled ∧ s.srValid k q = false) ∧
    (∃ (s : State), ∃ (g : Agent), ∃ (k : Nat), ∃ (q : Nat), s.slicesUp = true ∧ srExists k q = true ∧ accessOk (R.SR_CTRL k q) true g = true ∧ s.srInst k q < 4096 ∧ s.srState k q = stDisabled ∧ s.srValid k q = true ∧ s.fld (F.INST_QUOTA_A_SR_MAX (s.srInst k q)) ≤ s.fld (F.INST_USE_A_SR (s.srInst k q))) ∧
    (∃ (s : State), ∃ (g : Agent), ∃ (k : Nat), ∃ (q : Nat), s.slicesUp = true ∧ srExists k q = true ∧ accessOk (R.SR_CTRL k q) true g = true ∧ s.srInst k q < 4096 ∧ s.srState k q ≠ stDisabled) ∧
    (∃ (s : State), ∃ (g : Agent), ∃ (k : Nat), ∃ (q : Nat), s.slicesUp = true ∧ srExists k q = true ∧ accessOk (R.SR_CTRL k q) true g = true ∧ s.srState k q = stActive ∧ (s.srx k q).started ≠ []) ∧
    (∃ (s : State), ∃ (g : Agent), ∃ (k : Nat), ∃ (q : Nat), s.slicesUp = true ∧ srExists k q = true ∧ accessOk (R.SR_CTRL k q) true g = true ∧ (s.srState k q = stActive ∨ s.srState k q = stError) ∧ (s.srx k q).started = []) ∧
    (∃ (s : State), ∃ (g : Agent), ∃ (k : Nat), ∃ (q : Nat), s.slicesUp = true ∧ srExists k q = true ∧ accessOk (R.SR_CTRL k q) true g = true ∧ (s.srState k q = stStopping ∨ s.srState k q = stDisabled ∨ s.srState k q = stError ∧ (s.srx k q).started ≠ [])) ∧
    (∃ (s : State), ∃ (g : Agent), ∃ (k : Nat), ∃ (q : Nat), s.slicesUp = true ∧ (srExists k q = false ∨ accessOk (R.SR_CTRL k q) true g = false)) ∧
    (∃ (s : State), ∃ (g : Agent), ∃ (k : Nat), ∃ (q : Nat), s.slicesUp = true ∧ (srExists k q = false ∨ accessOk (R.SR_CTRL k q) true g = false)) ∧
    (∃ (s : State), ∃ (k : Nat), ∃ (q : Nat), s.slicesUp = true ∧ srExists k q = true ∧ (s.srState k q = stStopping ∨ s.srState k q = stError) ∧ (s.srx k q).started = [] ∧ (s.srx k q).offWritten = true) :=
  ⟨⟨w1 wRing (F.SR_STATE_STATE 0 0) 0, .keeper, 0, 0, by decide +kernel⟩,
   ⟨w1 wRing (F.SR_STATE_STATE 0 0) 0, .keeper, 1, 0, by decide +kernel⟩,
   ⟨w1 (w1 wRing (F.SR_STATE_STATE 0 0) 0) (F.INST_QUOTA_A_SR_MAX 0) 0, .keeper, 0, 0, by decide +kernel⟩,
   ⟨wStart wRing (wJob 2 64 0), .keeper, 0, 0, by decide +kernel⟩,
   ⟨wStart wRing (wJob 2 64 0), .keeper, 0, 0, by decide +kernel⟩,
   (by refine ⟨(w1 wRing (F.SR_STATE_STATE 0 0) 4).setSrx 0 0 { offWritten := true }, .keeper, 0, 0, ?_⟩; decide +kernel),
   ⟨w1 wRing (F.SR_STATE_STATE 0 0) 0, .keeper, 0, 0, by decide +kernel⟩,
   ⟨w1 wRing (F.SR_STATE_STATE 0 0) 0, .keeper, 5, 0, by decide +kernel⟩,
   ⟨w1 wRing (F.SR_STATE_STATE 0 0) 0, .keeper, 5, 0, by decide +kernel⟩,
   (by refine ⟨(w1 wRing (F.SR_STATE_STATE 0 0) 2).setSrx 0 0 { offWritten := true }, 0, 0, ?_⟩; decide +kernel)⟩

/-- Rings are enabled, disabled and drained by their state machine: clauses 10, 11, 12, 13, 14, 15, 16, 17, 18, 19. -/
theorem witness_RingStatesMove_b :
    (∃ (s : State), ∃ (k : Nat), ∃ (q : Nat), s.slicesUp = true ∧ srExists k q = true ∧ (s.srState k q = stStopping ∨ s.srState k q = stError) ∧ ((s.srx k q).started ≠ [] ∨ (s.srx k q).offWritten = false)) ∧
    (∃ (s : State), ∃ (g : Agent), ∃ (k : Nat), ∃ (c : Nat), s.slicesUp = true ∧ crExists k c = true ∧ accessOk (R.CR_CTRL k c) true g = true ∧ s.crInst k c < 4096 ∧ s.crState k c = stDisabled ∧ s.crValid k c = true ∧ s.fld (F.INST_USE_A_CR (s.crInst k c)) < s.fld (F.INST_QUOTA_A_CR_MAX (s.crInst k c))) ∧
    (∃ (s : State), ∃ (g : Agent), ∃ (k : Nat), ∃ (c : Nat), s.slicesUp = true ∧ crExists k c = true ∧ accessOk (R.CR_CTRL k c) true g = true ∧ s.crInst k c < 4096 ∧ s.crState k c = stDisabled ∧ s.crValid k c = false) ∧
    (∃ (s : State), ∃ (g : Agent), ∃ (k : Nat), ∃ (c : Nat), s.slicesUp = true ∧ crExists k c = true ∧ accessOk (R.CR_CTRL k c) true g = true ∧ s.crInst k c < 4096 ∧ s.crState k c = stDisabled ∧ s.crValid k c = true ∧ s.fld (F.INST_QUOTA_A_CR_MAX (s.crInst k c)) ≤ s.fld (F.INST_USE_A_CR (s.crInst k c))) ∧
    (∃ (s : State), ∃ (g : Agent), ∃ (k : Nat), ∃ (c : Nat), s.slicesUp = true ∧ crExists k c = true ∧ accessOk (R.CR_CTRL k c) true g = true ∧ s.crInst k c < 4096 ∧ s.crState k c ≠ stDisabled) ∧
    (∃ (s : State), ∃ (g : Agent), ∃ (k : Nat), ∃ (c : Nat), s.slicesUp = true ∧ crExists k c = true ∧ accessOk (R.CR_CTRL k c) true g = true ∧ s.boundSrs k c ≠ []) ∧
    (∃ (s : State), ∃ (g : Agent), ∃ (k : Nat), ∃ (c : Nat), s.slicesUp = true ∧ crExists k c = true ∧ accessOk (R.CR_CTRL k c) true g = true ∧ s.boundSrs k c = [] ∧ s.crState k c = stDisabled) ∧
    (∃ (s : State), ∃ (g : Agent), ∃ (k : Nat), ∃ (c : Nat), s.slicesUp = true ∧ crExists k c = true ∧ accessOk (R.CR_CTRL k c) true g = true ∧ s.boundSrs k c = [] ∧ s.crState k c ≠ stDisabled) ∧
    (∃ (s : State), ∃ (g : Agent), ∃ (k : Nat), ∃ (c : Nat), s.slicesUp = true ∧ (crExists k c = false ∨ accessOk (R.CR_CTRL k c) true g = false)) ∧
    (∃ (s : State), ∃ (g : Agent), ∃ (k : Nat), ∃ (c : Nat), s.slicesUp = true ∧ (crExists k c = false ∨ accessOk (R.CR_CTRL k c) true g = false)) :=
  ⟨⟨w1 (wStart wRing (wJob 2 64 0)) (F.SR_STATE_STATE 0 0) 2, 0, 0, by decide +kernel⟩,
   ⟨w1 (w1 wRing (F.SR_STATE_STATE 0 0) 0) (F.CR_STATE_STATE 0 0) 0, .keeper, 0, 0, by decide +kernel⟩,
   ⟨w1 wRing (F.SR_STATE_STATE 0 0) 0, .keeper, 0, 1, by decide +kernel⟩,
   ⟨w1 (w1 (w1 wRing (F.SR_STATE_STATE 0 0) 0) (F.CR_STATE_STATE 0 0) 0) (F.INST_QUOTA_A_CR_MAX 0) 0, .keeper, 0, 0, by decide +kernel⟩,
   ⟨w1 wRing (F.SR_STATE_STATE 0 0) 0, .keeper, 0, 0, by decide +kernel⟩,
   ⟨wStart wRing (wJob 2 64 0), .keeper, 0, 0, by decide +kernel⟩,
   ⟨w1 wRing (F.SR_STATE_STATE 0 0) 0, .keeper, 0, 1, by decide +kernel⟩,
   ⟨w1 wRing (F.SR_STATE_STATE 0 0) 0, .keeper, 0, 0, by decide +kernel⟩,
   ⟨w1 wRing (F.SR_STATE_STATE 0 0) 0, .keeper, 5, 0, by decide +kernel⟩,
   ⟨w1 wRing (F.SR_STATE_STATE 0 0) 0, .keeper, 5, 0, by decide +kernel⟩⟩

def framesFromRings_1_s : State :=
  wStart wRing (wJob 1 13 0)

def framesFromRings_2_s : State :=
  wStart wRing (wJob 1 64 0 [0, 31])

def framesFromRings_3_s : State :=
  wStart wRing (wJob 1 64 0 [0, 0x40 + 30 * 65536])

def framesFromRings_4_s : State :=
  wPoi (wStart wRing (wJob 1 64 0 [0, 0])) 0

def framesFromRings_5_s : State :=
  wHostM (wStart wRing (wJob 1 64 0 [0, 0])) 0

def framesFromRings_6_s : State :=
  wStart wRing (wJob 1 64 0 [0, 0])

def framesFromRings_7_s : State :=
  wStart wRing (wJob 1 64 0 [0, 2 ^ 53])

def framesFromRings_9_s : State :=
  { wEth with eth.egress := [wEg], eth.frames := [(7, { wFrame with id := 7, poisoned := true })] }

def framesFromRings_10_s : State :=
  { wUp with eth.egress := [wEg] }

def framesFromRings_11_s : State :=
  { wPaused with eth.egress := [wEg] }

def framesFromRings_12_s : State :=
  { wEth with eth.egress := [{ wEg with launch := some 5 }] }

def framesFromRings_13_s : State :=
  { wEth with eth.egress := [wEg], eth.frames := [(7, { wFrame with id := 7, whole := false })] }

def framesFromRings_14_s : State :=
  { wEth with eth.egress := [wEg] }

def framesFromRings_15_s : State :=
  { wEth with eth.egress := [{ wEg with begun := true }], eth.frames := [(7, { wFrame with id := 7, whole := false })] }

def framesFromRings_16_s : State :=
  { wEth with eth.egress := [{ wEg with begun := true }] }

def framesFromRings_17_j : RJob :=
  { wJob 1 64 0 with taken := true }

def framesFromRings_18_j : RJob :=
  { wJob 1 64 0 with taken := true }

def framesFromRings_19_s : State :=
  let s := wEgF wEth; { s with eth.egress := s.eth.egress.map fun e => { e with tsMode := 2 } }

def framesFromRings_19_j : RJob :=
  { wJob 1 64 0 with taken := true }

/-- TX_FRAME checks and queues, and a frame leaves its port: clauses 0, 1, 2, 3, 4, 5, 6, 7, 8, 9. -/
theorem witness_FramesFromRings_a :
    (∃ (s : State), ∃ (k : Nat), ∃ (q : Nat), s.slicesUp = true ∧ s.jobFor k q 1 = none) ∧
    (∃ (s : State), ∃ (k : Nat), ∃ (q : Nat), s.slicesUp = true ∧ ∃ (j : RJob), s.jobFor k q 1 = some j ∧ (j.total < 14 ∨ 9724 < j.total)) ∧
    (∃ (s : State), ∃ (k : Nat), ∃ (q : Nat), s.slicesUp = true ∧ ∃ (j : RJob), s.jobFor k q 1 = some j ∧ 14 ≤ j.total ∧ j.total ≤ 9724 ∧ s.portAt (bitsOf (j.dw 3) 4 0) = none) ∧
    (∃ (s : State), ∃ (k : Nat), ∃ (q : Nat), s.slicesUp = true ∧ ∃ (j : RJob), s.jobFor k q 1 = some j ∧ 14 ≤ j.total ∧ j.total ≤ 9724 ∧ bitsOf (j.dw 3) 7 6 = 1 ∧ j.total < bitsOf (j.dw 3) 25 16 + 44 ∧ ∃ (kp : Nat × Nat), s.portAt (bitsOf (j.dw 3) 4 0) = some kp ∧ True) ∧
    (∃ (s : State), ∃ (k : Nat), ∃ (q : Nat), s.slicesUp = true ∧ ∃ (j : RJob), s.jobFor k q 1 = some j ∧ 14 ≤ j.total ∧ j.total ≤ 9724 ∧ ¬(bitsOf (j.dw 3) 7 6 = 1 ∧ j.total < bitsOf (j.dw 3) 25 16 + 44) ∧ ∃ (kp : Nat × Nat), s.portAt (bitsOf (j.dw 3) 4 0) = some kp ∧ ∃ (s1 : State), ∃ (st : Nat), s.dmaGather k (s.srInst k q) (s.jobOp 0 j) j.bufs = (s1, DmaRes.fail st) ∧ True) ∧
    (∃ (s : State), ∃ (k : Nat), ∃ (q : Nat), ∃ (st : Nat), s.slicesUp = true ∧ ∃ (j : RJob), s.jobFor k q 1 = some j ∧ 14 ≤ j.total ∧ j.total ≤ 9724 ∧ ¬(bitsOf (j.dw 3) 7 6 = 1 ∧ j.total < bitsOf (j.dw 3) 25 16 + 44) ∧ ∃ (kp : Nat × Nat), s.portAt (bitsOf (j.dw 3) 4 0) = some kp ∧ ∃ (s1 : State), s.dmaGather k (s.srInst k q) (s.jobOp 0 j) j.bufs = (s1, DmaRes.wait) ∧ True) ∧
    (∃ (s : State), ∃ (k : Nat), ∃ (q : Nat), s.slicesUp = true ∧ ∃ (j : RJob), s.jobFor k q 1 = some j ∧ 14 ≤ j.total ∧ j.total ≤ 9724 ∧ ¬(bitsOf (j.dw 3) 7 6 = 1 ∧ j.total < bitsOf (j.dw 3) 25 16 + 44) ∧ bitOf (j.dw 3) 53 = false ∧ bitOf (j.dw 3) 5 = false ∧ ∃ (k' : Nat), ∃ (p : Nat), s.portAt (bitsOf (j.dw 3) 4 0) = some (k', p) ∧ ∃ (s1 : State), ∃ (data : List Byte), s.dmaGather k (s.srInst k q) (s.jobOp 0 j) j.bufs = (s1, DmaRes.ok data) ∧ True) ∧
    (∃ (s : State), ∃ (k : Nat), ∃ (q : Nat), s.slicesUp = true ∧ ∃ (j : RJob), s.jobFor k q 1 = some j ∧ 14 ≤ j.total ∧ j.total ≤ 9724 ∧ ¬(bitsOf (j.dw 3) 7 6 = 1 ∧ j.total < bitsOf (j.dw 3) 25 16 + 44) ∧ bitOf (j.dw 3) 53 = true ∧ ∃ (k' : Nat), ∃ (p : Nat), s.portAt (bitsOf (j.dw 3) 4 0) = some (k', p) ∧ ∃ (s1 : State), ∃ (data : List Byte), s.dmaGather k (s.srInst k q) (s.jobOp 0 j) j.bufs = (s1, DmaRes.ok data) ∧ True) ∧
    (∃ (s : State), ∃ (n : Nat), s.slicesUp = true ∧ s.egress? n = none) ∧
    (∃ (s : State), ∃ (n : Nat), s.slicesUp = true ∧ ∃ (e : Egress), s.egress? n = some e ∧ e.id = n ∧ e.begun = false ∧ s.egressPoisoned e = true) :=
  ⟨⟨wStart wRing (wJob 1 13 0), 0, 1, by decide +kernel⟩,
   ⟨framesFromRings_1_s, 0, 0, chk (dA inferInstance (dSome fun _ => inferInstance)) (by decide +kernel)⟩,
   ⟨framesFromRings_2_s, 0, 0, chk (dA inferInstance (dSome fun _ => inferInstance)) (by decide +kernel)⟩,
   ⟨framesFromRings_3_s, 0, 0, chk (dA inferInstance (dSome fun _ => (dA inferInstance (dA inferInstance (dA inferInstance (dA inferInstance (dSome fun _ => inferInstance))))))) (by decide +kernel)⟩,
   ⟨framesFromRings_4_s, 0, 0, chk (dA inferInstance (dSome fun _ => (dA inferInstance (dA inferInstance (dA inferInstance (dSome fun _ => (dFailD fun _ _ => inferInstance))))))) (by decide +kernel)⟩,
   ⟨framesFromRings_5_s, 0, 0, 0, chk (dA inferInstance (dSome fun _ => (dA inferInstance (dA inferInstance (dA inferInstance (dSome fun _ => (dPC fun _ => inferInstance))))))) (by decide +kernel)⟩,
   ⟨framesFromRings_6_s, 0, 0, chk (dA inferInstance (dSome fun _ => (dA inferInstance (dA inferInstance (dA inferInstance (dA inferInstance (dA inferInstance (dSome2 fun _ _ => (dOkD fun _ _ => inferInstance))))))))) (by decide +kernel)⟩,
   ⟨framesFromRings_7_s, 0, 0, chk (dA inferInstance (dSome fun _ => (dA inferInstance (dA inferInstance (dA inferInstance (dA inferInstance (dSome2 fun _ _ => (dOkD fun _ _ => inferInstance)))))))) (by decide +kernel)⟩,
   ⟨wStart wRing (wJob 1 13 0), 0, by decide +kernel⟩,
   ⟨framesFromRings_9_s, 1, chk (dA inferInstance (dSome fun _ => inferInstance)) (by decide +kernel)⟩⟩

/-- TX_FRAME checks and queues, and a frame leaves its port: clauses 10, 11, 12, 13, 14, 15, 16, 17, 18, 19. -/
theorem witness_FramesFromRings_b :
    (∃ (s : State), ∃ (n : Nat), s.slicesUp = true ∧ ∃ (e : Egress), s.egress? n = some e ∧ e.id = n ∧ e.begun = false ∧ s.egressPoisoned e = false ∧ s.linkUp e.slice e.port = false) ∧
    (∃ (s : State), ∃ (n : Nat), s.slicesUp = true ∧ ∃ (e : Egress), s.egress? n = some e ∧ e.id = n ∧ e.begun = false ∧ s.egressPoisoned e = false ∧ s.linkUp e.slice e.port = true ∧ s.isPaused e.slice e.port e.pcp = true) ∧
    (∃ (s : State), ∃ (n : Nat), s.slicesUp = true ∧ ∃ (e : Egress), s.egress? n = some e ∧ e.id = n ∧ e.begun = false ∧ s.linkUp e.slice e.port = true ∧ s.isPaused e.slice e.port e.pcp = false ∧ s.egressPoisoned e = false ∧ (e.late = false ∧ (e.launch.isSome = true ∨ s.mayStart e = false) ∨ e.late = true ∧ s.mayStartLate e = false)) ∧
    (∃ (s : State), ∃ (n : Nat), s.slicesUp = true ∧ ∃ (e : Egress), s.egress? n = some e ∧ e.id = n ∧ e.begun = false ∧ s.linkUp e.slice e.port = true ∧ s.isPaused e.slice e.port e.pcp = false ∧ s.egressPoisoned e = false ∧ e.late = false ∧ e.launch = none ∧ s.mayStart e = true ∧ ∃ (f : Frame), s.frame? e.frame = some f ∧ f.whole = false) ∧
    (∃ (s : State), ∃ (n : Nat), s.slicesUp = true ∧ ∃ (e : Egress), s.egress? n = some e ∧ e.id = n ∧ e.begun = false ∧ s.linkUp e.slice e.port = true ∧ s.isPaused e.slice e.port e.pcp = false ∧ s.egressPoisoned e = false ∧ (e.late = true ∧ s.mayStartLate e = true ∨ e.late = false ∧ e.launch = none ∧ s.mayStart e = true ∧ ¬∃ (f : Frame), s.frame? e.frame = some f ∧ f.whole = false)) ∧
    (∃ (s : State), ∃ (n : Nat), s.slicesUp = true ∧ ∃ (e : Egress), s.egress? n = some e ∧ e.id = n ∧ e.begun = true ∧ ∃ (f : Frame), s.frame? e.frame = some f ∧ f.whole = false) ∧
    (∃ (s : State), ∃ (n : Nat), s.slicesUp = true ∧ ∃ (e : Egress), s.egress? n = some e ∧ e.id = n ∧ e.begun = true ∧ ¬∃ (f : Frame), s.frame? e.frame = some f ∧ f.whole = false) ∧
    (∃ (s : State), ∃ (n : Nat), ∃ (k : Nat), ∃ (q : Nat), ∃ (j : RJob), s.slicesUp = true ∧ s.jobById k q j.id = some j ∧ ∃ (e : Egress), s.egress? n = some e ∧ e.id = n ∧ e.begun = false ∧ List.filter (fun (x : Egress) => decide (x.frame = e.frame)) s.eth.egress = [e] ∧ s.linkUp e.slice e.port = false ∧ e.entry = none ∧ ∃ (f : Frame), s.frame? e.frame = some f ∧ f.id = e.frame ∧ f.origin = Origin.tx k q j.id ∧ f.whole = true ∧ f.poisoned = false) ∧
    (∃ (s : State), ∃ (n : Nat), ∃ (k : Nat), ∃ (q : Nat), ∃ (j : RJob), s.slicesUp = true ∧ s.jobById k q j.id = some j ∧ ∃ (e : Egress), s.egress? n = some e ∧ e.id = n ∧ e.begun = false ∧ List.filter (fun (x : Egress) => decide (x.frame = e.frame)) s.eth.egress = [e] ∧ s.linkUp e.slice e.port = true ∧ s.isPaused e.slice e.port e.pcp = false ∧ e.late = false ∧ e.launch = none ∧ s.mayStart e = true ∧ e.tsMode < 2 ∧ ∃ (f : Frame), s.frame? e.frame = some f ∧ f.id = e.frame ∧ f.origin = Origin.tx k q j.id ∧ f.whole = true ∧ f.poisoned = false) ∧
    (∃ (s : State), ∃ (n : Nat), ∃ (k : Nat), ∃ (q : Nat), ∃ (j : RJob), s.slicesUp = true ∧ s.jobById k q j.id = some j ∧ ∃ (e : Egress), s.egress? n = some e ∧ e.id = n ∧ e.begun = false ∧ List.filter (fun (x : Egress) => decide (x.frame = e.frame)) s.eth.egress = [e] ∧ s.linkUp e.slice e.port = true ∧ s.isPaused e.slice e.port e.pcp = false ∧ e.late = false ∧ e.launch = none ∧ s.mayStart e = true ∧ e.tsMode = 2 ∧ ∃ (f : Frame), s.frame? e.frame = some f ∧ f.id = e.frame ∧ f.origin = Origin.tx k q j.id ∧ f.whole = true ∧ f.poisoned = false) :=
  ⟨⟨framesFromRings_10_s, 1, chk (dA inferInstance (dSome fun _ => inferInstance)) (by decide +kernel)⟩,
   ⟨framesFromRings_11_s, 1, chk (dA inferInstance (dSome fun _ => inferInstance)) (by decide +kernel)⟩,
   ⟨framesFromRings_12_s, 1, chk (dA inferInstance (dSome fun _ => inferInstance)) (by decide +kernel)⟩,
   ⟨framesFromRings_13_s, 1, chk (dA inferInstance (dSome fun _ => inferInstance)) (by decide +kernel)⟩,
   ⟨framesFromRings_14_s, 1, chk (dA inferInstance (dSome fun _ => inferInstance)) (by decide +kernel)⟩,
   ⟨framesFromRings_15_s, 1, chk (dA inferInstance (dSome fun _ => inferInstance)) (by decide +kernel)⟩,
   ⟨framesFromRings_16_s, 1, chk (dA inferInstance (dSome fun _ => inferInstance)) (by decide +kernel)⟩,
   ⟨wEgF wUp, 1, 0, 0, framesFromRings_17_j, chk (dA inferInstance (dA inferInstance (dSome fun _ => (dA inferInstance (dA inferInstance (dA inferInstance (dA inferInstance (dA inferInstance (dSome fun _ => inferInstance))))))))) (by decide +kernel)⟩,
   ⟨wEgF wEth, 1, 0, 0, framesFromRings_18_j, chk (dA inferInstance (dA inferInstance (dSome fun _ => (dA inferInstance (dA inferInstance (dA inferInstance (dA inferInstance (dA inferInstance (dA inferInstance (dA inferInstance (dA inferInstance (dA inferInstance (dSome fun _ => inferInstance))))))))))))) (by decide +kernel)⟩,
   ⟨framesFromRings_19_s, 1, 0, 0, framesFromRings_19_j, chk (dA inferInstance (dA inferInstance (dSome fun _ => (dA inferInstance (dA inferInstance (dA inferInstance (dA inferInstance (dA inferInstance (dA inferInstance (dA inferInstance (dA inferInstance (dA inferInstance (dSome fun _ => inferInstance))))))))))))) (by decide +kernel)⟩⟩

def catalogueLooksUpAndCounts_0_s : State :=
  { wCatF 3 wHf with poisoned := [(1, 40), (1, 80), (1, 160), (1, 320)] }

def catalogueLooksUpAndCounts_4_s : State :=
  (wCatF 3 wHf).setFld ⟨R.ETH_LINK_STATUS 0, 0, 1⟩ 1

def catalogueLooksUpAndCounts_6_s : State :=
  w1 (wCatF 11 wHf) (F.CH_BIND_HW_WRITE 0 0 0)

def catalogueLooksUpAndCounts_8_s : State :=
  wCatF 3 { wHf with cellWait := 1 }

def catalogueLooksUpAndCounts_9_s : State :=
  wWb 1 { handle := 5, bytes := 64, gen := 0 }

def catalogueLooksUpAndCounts_10_s : State :=
  wWb 0x1001 { handle := 5, bytes := 64, gen := 0, counts := false, state := some 77 }

def catalogueLooksUpAndCounts_11_s : State :=
  wWb 0x1001 { handle := 5, bytes := 64, gen := 1, counts := false, state := some 77 }

def catalogueLooksUpAndCounts_14_v : Word :=
  3#64 + 2048#64 + 0x800000000#64

/-- A frame takes its entry's action, and entries are counted, written and read: clauses 0, 1, 2, 3, 4, 5, 6, 8, 9, 10. -/
theorem witness_CatalogueLooksUpAndCounts_a :
    (∃ (s : State), ∃ (n : Nat), ∃ (k0 : Nat), ∃ (p0 : Nat), s.slicesUp = true ∧ (s.eth.egress.any fun (e : Egress) => decide (e.frame = n)) = false ∧ ∃ (f : Frame), s.frame? n = some f ∧ f.id = n ∧ f.origin = Origin.eth k0 p0 ∧ f.stage = FStage.handled ∧ f.cellWait = 0 ∧ f.whole = true ∧ s.firstOfFlow f = true ∧ s.awake f.slice = true ∧ f.floodTo = none ∧ f.fed = none ∧ f.cells = [] ∧ f.looked = none ∧ ∃ (h : Nat), f.handle = some h ∧ f.slice = homeOf h ∧ s.catPoisoned h = true) ∧
    (∃ (s : State), ∃ (n : Nat), ∃ (k0 : Nat), ∃ (p0 : Nat), s.slicesUp = true ∧ (s.eth.egress.any fun (e : Egress) => decide (e.frame = n)) = false ∧ ∃ (f : Frame), s.frame? n = some f ∧ f.id = n ∧ f.origin = Origin.eth k0 p0 ∧ f.stage = FStage.handled ∧ f.cellWait = 0 ∧ f.whole = true ∧ s.firstOfFlow f = true ∧ s.awake f.slice = true ∧ f.floodTo = none ∧ f.fed = none ∧ f.cells = [] ∧ f.looked = none ∧ ∃ (h : Nat), f.handle = some h ∧ f.slice = homeOf h ∧ s.catPoisoned h = false ∧ bitOf (s.catEntry h) 0 = false) ∧
    (∃ (s : State), ∃ (n : Nat), ∃ (k0 : Nat), ∃ (p0 : Nat), s.slicesUp = true ∧ (s.eth.egress.any fun (e : Egress) => decide (e.frame = n)) = false ∧ ∃ (f : Frame), s.frame? n = some f ∧ f.id = n ∧ f.origin = Origin.eth k0 p0 ∧ f.stage = FStage.handled ∧ f.cellWait = 0 ∧ f.whole = true ∧ s.firstOfFlow f = true ∧ s.awake f.slice = true ∧ f.floodTo = none ∧ f.fed = none ∧ f.cells = [] ∧ ∃ (h : Nat), f.handle = some h ∧ f.slice = homeOf h ∧ s.catPoisoned h = false ∧ bitOf (s.catEntry h) 0 = true ∧ bitsOf (s.catEntry h) 19 16 = 0 ∧ bitsOf (s.catEntry h) 3 1 = 0) ∧
    (∃ (s : State), ∃ (n : Nat), ∃ (k0 : Nat), ∃ (p0 : Nat), s.slicesUp = true ∧ (s.eth.egress.any fun (e : Egress) => decide (e.frame = n)) = false ∧ ∃ (f : Frame), s.frame? n = some f ∧ f.id = n ∧ f.origin = Origin.eth k0 p0 ∧ f.stage = FStage.handled ∧ f.cellWait = 0 ∧ f.whole = true ∧ s.firstOfFlow f = true ∧ s.awake f.slice = true ∧ f.floodTo = none ∧ f.fed = none ∧ f.cells = [] ∧ ∃ (h : Nat), f.handle = some h ∧ f.slice = homeOf h ∧ s.catPoisoned h = false ∧ bitOf (s.catEntry h) 0 = true ∧ bitsOf (s.catEntry h) 19 16 = 0 ∧ bitsOf (s.catEntry h) 3 1 = 3) ∧
    (∃ (s : State), ∃ (n : Nat), ∃ (k0 : Nat), ∃ (p0 : Nat), s.slicesUp = true ∧ (s.eth.egress.any fun (e : Egress) => decide (e.frame = n)) = false ∧ ∃ (f : Frame), s.frame? n = some f ∧ f.id = n ∧ f.origin = Origin.eth k0 p0 ∧ f.stage = FStage.handled ∧ f.cellWait = 0 ∧ f.whole = true ∧ s.firstOfFlow f = true ∧ s.awake f.slice = true ∧ f.floodTo = none ∧ f.fed = none ∧ f.cells = [] ∧ ∃ (h : Nat), f.handle = some h ∧ f.slice = homeOf h ∧ s.catPoisoned h = false ∧ bitOf (s.catEntry h) 0 = true ∧ bitsOf (s.catEntry h) 19 16 = 0 ∧ bitsOf (s.catEntry h) 3 1 = 1 ∧ ∃ (k : Nat), ∃ (p : Nat), s.portAt (bitsOf (s.catEntry h) 52 48) = some (k, p) ∧ s.linkUp k p = true) ∧
    (∃ (s : State), ∃ (n : Nat), ∃ (k0 : Nat), ∃ (p0 : Nat), s.slicesUp = true ∧ (s.eth.egress.any fun (e : Egress) => decide (e.frame = n)) = false ∧ ∃ (f : Frame), s.frame? n = some f ∧ f.id = n ∧ f.origin = Origin.eth k0 p0 ∧ f.stage = FStage.handled ∧ f.cellWait = 0 ∧ f.whole = true ∧ s.firstOfFlow f = true ∧ s.awake f.slice = true ∧ f.floodTo = none ∧ f.fed = none ∧ f.cells = [] ∧ ∃ (h : Nat), f.handle = some h ∧ f.slice = homeOf h ∧ s.catPoisoned h = false ∧ bitOf (s.catEntry h) 0 = true ∧ bitsOf (s.catEntry h) 19 16 = 0 ∧ bitsOf (s.catEntry h) 3 1 = 1 ∧ ∃ (k : Nat), ∃ (p : Nat), s.portAt (bitsOf (s.catEntry h) 52 48) = some (k, p) ∧ s.linkUp k p = false) ∧
    (∃ (s : State), ∃ (n : Nat), ∃ (k0 : Nat), ∃ (p0 : Nat), s.slicesUp = true ∧ (s.eth.egress.any fun (e : Egress) => decide (e.frame = n)) = false ∧ ∃ (f : Frame), s.frame? n = some f ∧ f.id = n ∧ f.origin = Origin.eth k0 p0 ∧ f.stage = FStage.handled ∧ f.cellWait = 0 ∧ f.whole = true ∧ s.firstOfFlow f = true ∧ s.awake f.slice = true ∧ f.floodTo = none ∧ f.fed = none ∧ f.cells = [] ∧ f.poisoned = false ∧ ∃ (h : Nat), f.handle = some h ∧ f.slice = homeOf h ∧ s.catPoisoned h = false ∧ bitOf (s.catEntry h) 0 = true ∧ bitsOf (s.catEntry h) 19 16 = 0 ∧ bitsOf (s.catEntry h) 3 1 = 5 ∧ s.on (F.CH_BIND_HW_WRITE f.slice (bitsOf (s.catEntry h) 49 48) (bitsOf (s.catEntry h) 55 50)) = true ∧ s.chState f.slice (bitsOf (s.catEntry h) 49 48) (bitsOf (s.catEntry h) 55 50) = 0 ∧ (s.clx f.slice (bitsOf (s.catEntry h) 49 48)).deferred = [] ∧ ∃ (tok : Nat), s.freeToken f.slice = some tok ∧ True) ∧
    (∃ (s : State), ∃ (n : Nat), s.slicesUp = true ∧ ∃ (f : Frame), s.frame? n = some f ∧ f.stage = FStage.handled ∧ ∃ (h : Nat), f.handle = some h ∧ (s.awake f.slice = false ∨ f.slice ≠ homeOf h ∨ f.cellWait ≠ 0 ∨ s.firstOfFlow f = false)) ∧
    (∃ (s : State), ∃ (k : Nat), s.slicesUp = true ∧ ∃ (w : CatWb), ∃ (rest : List CatWb), takeFirst (fun (x : CatWb) => decide (homeOf x.handle = k)) s.cat.writebacks = some (w, rest) ∧ w.counts = true ∧ w.state = none) ∧
    (∃ (s : State), ∃ (k : Nat), s.slicesUp = true ∧ ∃ (w : CatWb), ∃ (rest : List CatWb), takeFirst (fun (x : CatWb) => decide (homeOf x.handle = k)) s.cat.writebacks = some (w, rest) ∧ w.counts = false ∧ bitsOf (s.catEntry w.handle) 15 12 ≠ w.gen ∧ ∃ (st : Nat), w.state = some st ∧ True) :=
  ⟨⟨catalogueLooksUpAndCounts_0_s, 1, 0, 0, chk (dA inferInstance (dA inferInstance (dSome fun _ => (dA inferInstance (dA inferInstance (dA inferInstance (dA inferInstance (dA inferInstance (dA inferInstance (dA inferInstance (dA inferInstance (dA inferInstance (dA inferInstance (dA inferInstance (dSome fun _ => inferInstance))))))))))))))) (by decide +kernel)⟩,
   ⟨wCat 0, 1, 0, 0, chk (dA inferInstance (dA inferInstance (dSome fun _ => (dA inferInstance (dA inferInstance (dA inferInstance (dA inferInstance (dA inferInstance (dA inferInstance (dA inferInstance (dA inferInstance (dA inferInstance (dA inferInstance (dA inferInstance (dSome fun _ => inferInstance))))))))))))))) (by decide +kernel)⟩,
   ⟨wCat 1, 1, 0, 0, chk (dA inferInstance (dA inferInstance (dSome fun _ => (dA inferInstance (dA inferInstance (dA inferInstance (dA inferInstance (dA inferInstance (dA inferInstance (dA inferInstance (dA inferInstance (dA inferInstance (dA inferInstance (dSome fun _ => inferInstance)))))))))))))) (by decide +kernel)⟩,
   ⟨wCat 7, 1, 0, 0, chk (dA inferInstance (dA inferInstance (dSome fun _ => (dA inferInstance (dA inferInstance (dA inferInstance (dA inferInstance (dA inferInstance (dA inferInstance (dA inferInstance (dA inferInstance (dA inferInstance (dA inferInstance (dSome fun _ => inferInstance)))))))))))))) (by decide +kernel)⟩,
   ⟨catalogueLooksUpAndCounts_4_s, 1, 0, 0, chk (dA inferInstance (dA inferInstance (dSome fun _ => (dA inferInstance (dA inferInstance (dA inferInstance (dA inferInstance (dA inferInstance (dA inferInstance (dA inferInstance (dA inferInstance (dA inferInstance (dA inferInstance (dSome fun _ => (dA inferInstance (dA inferInstance (dA inferInstance (dA inferInstance (dA inferInstance (dSome2 fun _ _ => inferInstance)))))))))))))))))))) (by decide +kernel)⟩,
   ⟨wCatF 3 wHf, 1, 0, 0, chk (dA inferInstance (dA inferInstance (dSome fun _ => (dA inferInstance (dA inferInstance (dA inferInstance (dA inferInstance (dA inferInstance (dA inferInstance (dA inferInstance (dA inferInstance (dA inferInstance (dA inferInstance (dSome fun _ => (dA inferInstance (dA inferInstance (dA inferInstance (dA inferInstance (dA inferInstance (dSome2 fun _ _ => inferInstance)))))))))))))))))))) (by decide +kernel)⟩,
   ⟨catalogueLooksUpAndCounts_6_s, 1, 0, 0, chk (dA inferInstance (dA inferInstance (dSome fun _ => (dA inferInstance (dA inferInstance (dA inferInstance (dA inferInstance (dA inferInstance (dA inferInstance (dA inferInstance (dA inferInstance (dA inferInstance (dA inferInstance (dA inferInstance (dSome fun _ => (dA inferInstance (dA inferInstance (dA inferInstance (dA inferInstance (dA inferInstance (dA inferInstance (dA inferInstance (dA inferInstance (dSome fun _ => inferInstance)))))))))))))))))))))))) (by decide +kernel)⟩,
   ⟨catalogueLooksUpAndCounts_8_s, 1, chk (dA inferInstance (dSome fun _ => (dA inferInstance (dSome fun _ => inferInstance)))) (by decide +kernel)⟩,
   ⟨catalogueLooksUpAndCounts_9_s, 0, chk (dA inferInstance (dSome2 fun _ _ => inferInstance)) (by decide +kernel)⟩,
   ⟨catalogueLooksUpAndCounts_10_s, 0, chk (dA inferInstance (dSome2 fun _ _ => (dA inferInstance (dA inferInstance (dSome fun _ => inferInstance))))) (by decide +kernel)⟩⟩

/-- A frame takes its entry's action, and entries are counted, written and read: clauses 11, 12, 13, 14, 15, 16, 17, 18, 19, 20. -/
theorem witness_CatalogueLooksUpAndCounts_b :
    (∃ (s : State), ∃ (k : Nat), s.slicesUp = true ∧ ∃ (w : CatWb), ∃ (rest : List CatWb), takeFirst (fun (x : CatWb) => decide (homeOf x.handle = k)) s.cat.writebacks = some (w, rest) ∧ w.counts = false ∧ bitsOf (s.catEntry w.handle) 15 12 = w.gen ∧ ∃ (st : Nat), w.state = some st ∧ True) ∧
    (∃ (s : State), ∃ (k : Nat), s.slicesUp = true ∧ (s.cat.writebacks.all fun (x : CatWb) => decide (homeOf x.handle ≠ k)) = true) ∧
    (∃ (s : State), ∃ (g : Agent), ∃ (k : Nat), ∃ (v : Word), s.slicesUp = true ∧ deliverOk g k = true ∧ wordFld v 10 2 = 1 ∧ ∃ (n : Nat), s.cat.tokens.find? (1024 * k + wordFld v 0 10) = some n ∧ ∃ (f : Frame), s.frame? n = some f ∧ f.id = n ∧ f.cells = []) ∧
    (∃ (s : State), ∃ (g : Agent), ∃ (k : Nat), ∃ (v : Word), s.slicesUp = true ∧ deliverOk g k = true ∧ wordFld v 10 2 = 2 ∧ ∃ (n : Nat), s.cat.tokens.find? (1024 * k + wordFld v 0 10) = some n ∧ ∃ (f : Frame), s.frame? n = some f ∧ f.id = n) ∧
    (∃ (s : State), ∃ (g : Agent), ∃ (k : Nat), ∃ (v : Word), s.slicesUp = true ∧ deliverOk g k = true ∧ s.cat.tokens.find? (1024 * k + wordFld v 0 10) = none ∧ wordFld v 10 2 = 1) ∧
    (∃ (s : State), ∃ (g : Agent), ∃ (k : Nat), ∃ (v : Word), s.slicesUp = true ∧ deliverOk g k = true ∧ s.cat.tokens.find? (1024 * k + wordFld v 0 10) = none ∧ wordFld v 10 2 = 2) ∧
    (∃ (s : State), ∃ (g : Agent), ∃ (k : Nat), ∃ (w : Nat), ∃ (v : Word), s.slicesUp = true ∧ deliverOk g k = false) ∧
    (∃ (s : State), ∃ (g : Agent), ∃ (k : Nat), ∃ (w : Nat), ∃ (v : Word), s.slicesUp = true ∧ deliverOk g k = false) ∧
    (∃ (s : State), ∃ (g : Agent), ∃ (k : Nat), ∃ (w : Nat), ∃ (v : Word), s.slicesUp = true ∧ catSlotOk g k w = false) ∧
    (∃ (s : State), ∃ (g : Agent), ∃ (k : Nat), ∃ (w : Nat), ∃ (v : Word), s.slicesUp = true ∧ catSlotOk g k w = false) :=
  ⟨⟨catalogueLooksUpAndCounts_11_s, 0, chk (dA inferInstance (dSome2 fun _ _ => (dA inferInstance (dA inferInstance (dSome fun _ => inferInstance))))) (by decide +kernel)⟩,
   ⟨wCat 0, 0, by decide +kernel⟩,
   ⟨wTok, .keeper, 0, 3#64 + 1024#64, chk (dA inferInstance (dA inferInstance (dA inferInstance (dSome fun _ => (dSome fun _ => inferInstance))))) (by decide +kernel)⟩,
   ⟨wTok, .keeper, 0, catalogueLooksUpAndCounts_14_v, chk (dA inferInstance (dA inferInstance (dA inferInstance (dSome fun _ => (dSome fun _ => inferInstance))))) (by decide +kernel)⟩,
   ⟨wCat 0, .keeper, 0, 3#64 + 1024#64, by decide +kernel⟩,
   ⟨wCat 0, .keeper, 0, 3#64 + 2048#64 + 0x800000000#64, by decide +kernel⟩,
   ⟨wCat 0, .keeper, 5, 0, 3#64 + 1024#64, by decide +kernel⟩,
   ⟨wCat 0, .keeper, 5, 0, 3#64 + 1024#64, by decide +kernel⟩,
   ⟨wCat 0, .keeper, 0, 0, 3#64 + 1024#64, by decide +kernel⟩,
   ⟨wCat 0, .keeper, 0, 0, 3#64 + 1024#64, by decide +kernel⟩⟩

/-- A frame takes its entry's action, and entries are counted, written and read: clauses 21, 22, 23, 24, 25, 26. -/
theorem witness_CatalogueLooksUpAndCounts_c :
    (∃ (s : State), ∃ (g : Agent), ∃ (k : Nat), ∃ (w : Nat), ∃ (v : Word), s.slicesUp = true ∧ catSlotOk g k w = false) ∧
    (∃ (s : State), ∃ (g : Agent), ∃ (k : Nat), ∃ (w : Nat), ∃ (v : Word), s.slicesUp = true ∧ catSlotOk g k w = true ∧ wordFld v 20 1 = 0 ∧ wordFld v 24 1 = 0 ∧ wordFld v 25 1 = 0) ∧
    (∃ (s : State), ∃ (g : Agent), ∃ (k : Nat), ∃ (w : Nat), ∃ (v : Word), s.slicesUp = true ∧ catSlotOk g k w = true ∧ wordFld v 20 1 = 0 ∧ wordFld v 24 1 = 1 ∧ wordFld v 25 1 = 1 ∧ s.catPoisoned (2 ^ 19 * k + wordFld v 0 19) = false) ∧
    (∃ (s : State), ∃ (g : Agent), ∃ (k : Nat), ∃ (w : Nat), ∃ (v : Word), s.slicesUp = true ∧ catSlotOk g k w = true ∧ wordFld v 20 1 = 1) ∧
    (∃ (s : State), ∃ (g : Agent), ∃ (k : Nat), ∃ (w : Nat), ∃ (v : Word), s.slicesUp = true ∧ catSlotOk g k w = true ∧ s.catPoisoned (2 ^ 19 * k + wordFld v 0 19) = false) ∧
    (∃ (s : State), ∃ (g : Agent), ∃ (k : Nat), ∃ (w : Nat), ∃ (v : Word), s.slicesUp = true ∧ catSlotOk g k w = true ∧ s.catPoisoned (2 ^ 19 * k + wordFld v 0 19) = true) :=
  ⟨⟨wCat 0, .keeper, 0, 0, 3#64 + 1024#64, by decide +kernel⟩,
   ⟨wCat 0, .keeper, 0, 1, 3#64 + 1024#64, by decide +kernel⟩,
   ⟨wCat 0, .keeper, 0, 1, 5#64 + 0x3000000#64, by decide +kernel⟩,
   ⟨wCat 0, .keeper, 0, 1, 5#64 + 0x100000#64, by decide +kernel⟩,
   ⟨wCat 0, .keeper, 0, 1, 3#64 + 1024#64, by decide +kernel⟩,
   (by refine ⟨{ wUp with poisoned := [(1, 40), (1, 80), (1, 160), (1, 320)] }, .keeper, 0, 1, 5, ?_⟩; decide +kernel)⟩

def addressTableIsKept_1_s : State :=
  wDest (wAddr { wAe with port := 1 })

def addressTableIsKept_2_s : State :=
  w1 { wAddr { wAe with origin := 2, remote := true } with eth.frames := [(1, { wFrame with stage := .addrLookup, bridge := 7, prefetch := true, whole := false, ruleHandle := 9, data := [0, 1, 2, 3, 4, 5] ++ List.replicate 58 0 })] } (F.PORT_L2_CFG_DEFAULT_BD 0 0) 7

def addressTableIsKept_3_s : State :=
  wF { wAddr { wAe with origin := 2, remote := true } with eth.frames := [(1, { wFrame with stage := .addrLookup, bridge := 7, prefetch := true, ruleHandle := 9, data := [0, 1, 2, 3, 4, 5] ++ List.replicate 58 0 })] } [(F.PORT_L2_CFG_DEFAULT_BD 0 0, 7), (F.KL_ROUTE 2, 7)]

def addressTableIsKept_5_s : State :=
  { wUp with eth.frames := [(1, { wFrame with stage := .addrLookup, bridge := 7, prefetch := true, ruleHandle := 9, data := [0, 1, 2, 3, 4, 5] ++ List.replicate 58 0 })] }

def addressTableIsKept_8_s : State :=
  wDest (wAddr { wAe with port := 1 })

def addressTableIsKept_12_s : State :=
  wDest (wAddr { wAe with port := 1 })

def addressTableIsKept_13_s : State :=
  wDest (wAddr { wAe with port := 1 })

def addressTableIsKept_14_s : State :=
  wDest (wAddr { wAe with port := 1 })

def addressTableIsKept_28_s : State :=
  { w1 wUp (F.PORT_LEARN_LIMIT 0 0) 5 with addr.learnQ := [[⟨9, 7, 0x050403020100, 0⟩], [], [], []] }

def addressTableIsKept_29_s : State :=
  { wAddr { wAe with isStatic := true } with addr.learnQ := [[⟨9, 7, 0x050403020100, 0⟩], [], [], []] }

def addressTableIsKept_30_s : State :=
  wLq (wAddr { wAe with handle := 0 })

def addressTableIsKept_32_s : State :=
  w1 (wLq wFull) (F.PORT_LEARN_LIMIT 0 0) 5

def addressTableIsKept_33_s : State :=
  { w1 wUp (F.PORT_LEARN_LIMIT 0 0) 0 with addr.learnQ := [[⟨9, 7, 0x050403020100, 0⟩], [], [], []] }

def addressTableIsKept_34_s : State :=
  { wUp with addr.provIn := [[{ typ := 1, origin := 2, originSlice := 1, bd := 7, mac := 0x050403020100, handle := 5, port := 2, stamp := 9 }], [], [], []] }

def addressTableIsKept_35_s : State :=
  { wAddr wAe with addr.provIn := [[{ typ := 1, origin := 2, originSlice := 1, bd := 7, mac := 0x050403020100, handle := 5, port := 2, stamp := 8 }], [], [], []] }

def addressTableIsKept_37_s : State :=
  wPv (wAddr { wAe with isStatic := true }) 1 10

def addressTableIsKept_38_s : State :=
  wPv (wAddr { wAe with isStatic := true }) 3 10

def addressTableIsKept_39_s : State :=
  wPv (wAddr { wAe with isStatic := true }) 2 10

def addressTableIsKept_41_s : State :=
  { wAddr wAe with addr.provIn := [[{ typ := 3, origin := 0, originSlice := 0, bd := 7, mac := 0x050403020100, handle := 5, port := 2, stamp := 9 }], [], [], []] }

def addressTableIsKept_42_s : State :=
  { wAddr wAe with addr.provIn := [[{ typ := 2, origin := 0, originSlice := 0, bd := 7, mac := 0x050403020100, handle := 5, port := 2, stamp := 9 }], [], [], []] }

def addressTableIsKept_43_s : State :=
  { wUp with addr.provIn := [[{ typ := 2, origin := 0, originSlice := 0, bd := 7, mac := 0x050403020100, handle := 5, port := 2, stamp := 9 }], [], [], []] }

def addressTableIsKept_44_s : State :=
  { w1 (wAddr wAe) (F.ADDR_AGE_TIME 0) 10 with time.units := 8000000000 * 20 }

def addressTableIsKept_44_n : Nat :=
  (candidates 7 0x050403020100).getD 0 0

def addressTableIsKept_45_s : State :=
  wDest (wAddr { wAe with port := 1 })

def addressTableIsKept_45_n : Nat :=
  (candidates 7 0x050403020100).getD 0 0

/-- Destination lookup, table commands, learning, provenance and ageing: clauses 0, 1, 2, 3, 4, 5, 6, 7, 8, 9. -/
theorem witness_AddressTableIsKept_a :
    (∃ (s : State), ∃ (n : Nat), ∃ (p : Nat), s.slicesUp = true ∧ s.poisoned = [] ∧ ∃ (f : Frame), s.frame? n = some f ∧ f.id = n ∧ f.stage = FStage.addrLookup ∧ f.learnPending = false ∧ f.fed = none ∧ f.floodTo = none ∧ ∃ (k : Nat), f.slice = k ∧ f.origin = Origin.eth k p ∧ (f.prefetch = true → f.bridge = s.fld (F.PORT_L2_CFG_DEFAULT_BD k p)) ∧ s.findKey k f.bridge (macAt f.data 0) = none) ∧
    (∃ (s : State), ∃ (n : Nat), ∃ (p : Nat), s.slicesUp = true ∧ s.poisoned = [] ∧ ∃ (f : Frame), s.frame? n = some f ∧ f.id = n ∧ f.stage = FStage.addrLookup ∧ f.learnPending = false ∧ f.fed = none ∧ f.floodTo = none ∧ ∃ (k : Nat), f.slice = k ∧ f.origin = Origin.eth k p ∧ (f.prefetch = true → f.bridge = s.fld (F.PORT_L2_CFG_DEFAULT_BD k p)) ∧ ∃ (m : Nat), ∃ (e : AddrEntry), s.findKey k f.bridge (macAt f.data 0) = some (m, e) ∧ e.origin = s.fedId ∧ (e.port ≠ s.portNumber k p ∨ s.on (F.PORT_L2_CFG_HAIRPIN k p) = true)) ∧
    (∃ (s : State), ∃ (n : Nat), ∃ (p : Nat), s.slicesUp = true ∧ s.poisoned = [] ∧ ∃ (f : Frame), s.frame? n = some f ∧ f.id = n ∧ f.stage = FStage.addrLookup ∧ f.learnPending = false ∧ f.fed = none ∧ f.floodTo = none ∧ f.whole = false ∧ ∃ (k : Nat), f.slice = k ∧ f.origin = Origin.eth k p ∧ (f.prefetch = true → f.bridge = s.fld (F.PORT_L2_CFG_DEFAULT_BD k p)) ∧ ∃ (m : Nat), ∃ (e : AddrEntry), s.findKey k f.bridge (macAt f.data 0) = some (m, e) ∧ e.origin ≠ s.fedId) ∧
    (∃ (s : State), ∃ (n : Nat), ∃ (p : Nat), s.slicesUp = true ∧ s.poisoned = [] ∧ (s.eth.egress.any fun (x : Egress) => decide (x.frame = n)) = false ∧ ∃ (f : Frame), s.frame? n = some f ∧ f.id = n ∧ f.stage = FStage.addrLookup ∧ f.learnPending = false ∧ f.fed = none ∧ f.floodTo = none ∧ f.whole = true ∧ f.looked = none ∧ f.cells = [] ∧ ∃ (k : Nat), f.slice = k ∧ f.origin = Origin.eth k p ∧ (f.prefetch = true → f.bridge = s.fld (F.PORT_L2_CFG_DEFAULT_BD k p)) ∧ ∃ (m : Nat), ∃ (e : AddrEntry), s.findKey k f.bridge (macAt f.data 0) = some (m, e) ∧ e.origin ≠ s.fedId ∧ s.fld (F.KL_ROUTE e.origin) = 7) ∧
    (∃ (s : State), ∃ (n : Nat), ∃ (p : Nat), s.slicesUp = true ∧ s.poisoned = [] ∧ (s.eth.egress.any fun (x : Egress) => decide (x.frame = n)) = false ∧ ∃ (f : Frame), s.frame? n = some f ∧ f.id = n ∧ f.stage = FStage.addrLookup ∧ f.learnPending = false ∧ f.fed = none ∧ f.floodTo = none ∧ f.looked = none ∧ f.cells = [] ∧ ∃ (k : Nat), f.slice = k ∧ f.origin = Origin.eth k p ∧ (f.prefetch = true → f.bridge = s.fld (F.PORT_L2_CFG_DEFAULT_BD k p)) ∧ s.on (F.PORT_L2_CFG_HAIRPIN k p) = false ∧ k < 4 ∧ ∃ (m : Nat), ∃ (e : AddrEntry), s.findKey k f.bridge (macAt f.data 0) = some (m, e) ∧ e.origin = s.fedId ∧ e.port = s.portNumber k p) ∧
    (∃ (s : State), ∃ (n : Nat), ∃ (p : Nat), s.slicesUp = true ∧ s.poisoned = [] ∧ ∃ (f : Frame), s.frame? n = some f ∧ f.id = n ∧ f.stage = FStage.addrLookup ∧ f.fed = none ∧ f.floodTo = none ∧ f.prefetch = true ∧ f.learnPending = false ∧ ∃ (k : Nat), f.slice = k ∧ f.origin = Origin.eth k p ∧ f.bridge ≠ s.fld (F.PORT_L2_CFG_DEFAULT_BD k p) ∧ s.findKey k f.bridge (macAt f.data 0) = none) ∧
    (∃ (s : State), ∃ (n : Nat), s.slicesUp = true ∧ ∀ (f : Frame), s.frame? n = some f → f.stage ≠ FStage.addrLookup) ∧
    (∃ (s : State), ∃ (g : Agent), ∃ (k : Nat), ∃ (w : Nat), s.slicesUp = true ∧ addrCmdOk g k w = true ∧ s.poisoned = [] ∧ s.findKey k (s.addrStaged k w).bd (s.addrStaged k w).mac = none ∧ ∃ (n : Nat), s.freeSlot k (s.addrStaged k w).bd (s.addrStaged k w).mac = some n ∧ True) ∧
    (∃ (s : State), ∃ (g : Agent), ∃ (k : Nat), ∃ (w : Nat), s.slicesUp = true ∧ addrCmdOk g k w = true ∧ s.poisoned = [] ∧ ∃ (n : Nat), ∃ (x : AddrEntry), s.findKey k (s.addrStaged k w).bd (s.addrStaged k w).mac = some (n, x) ∧ True) ∧
    (∃ (s : State), ∃ (g : Agent), ∃ (k : Nat), ∃ (w : Nat), s.slicesUp = true ∧ addrCmdOk g k w = true ∧ s.poisoned = [] ∧ s.findKey k (s.addrStaged k w).bd (s.addrStaged k w).mac = none ∧ s.freeSlot k (s.addrStaged k w).bd (s.addrStaged k w).mac = none) :=
  ⟨⟨wDest wUp, 1, 0, chk (dA inferInstance (dA inferInstance (dSome fun _ => (dA inferInstance (dA inferInstance (dA inferInstance (dA inferInstance (dA inferInstance (dVar fun _ => inferInstance))))))))) (by decide +kernel)⟩,
   ⟨addressTableIsKept_1_s, 1, 0, chk (dA inferInstance (dA inferInstance (dSome fun _ => (dA inferInstance (dA inferInstance (dA inferInstance (dA inferInstance (dA inferInstance (dVar fun _ => (dA inferInstance (dA inferInstance (dSome2 fun _ _ => inferInstance)))))))))))) (by decide +kernel)⟩,
   ⟨addressTableIsKept_2_s, 1, 0, chk (dA inferInstance (dA inferInstance (dSome fun _ => (dA inferInstance (dA inferInstance (dA inferInstance (dA inferInstance (dA inferInstance (dA inferInstance (dVar fun _ => (dA inferInstance (dA inferInstance (dSome2 fun _ _ => inferInstance))))))))))))) (by decide +kernel)⟩,
   ⟨addressTableIsKept_3_s, 1, 0, chk (dA inferInstance (dA inferInstance (dA inferInstance (dSome fun _ => (dA inferInstance (dA inferInstance (dA inferInstance (dA inferInstance (dA inferInstance (dA inferInstance (dA inferInstance (dA inferInstance (dVar fun _ => (dA inferInstance (dA inferInstance (dSome2 fun _ _ => inferInstance)))))))))))))))) (by decide +kernel)⟩,
   ⟨wDest (wAddr wAe), 1, 0, chk (dA inferInstance (dA inferInstance (dA inferInstance (dSome fun _ => (dA inferInstance (dA inferInstance (dA inferInstance (dA inferInstance (dA inferInstance (dA inferInstance (dA inferInstance (dVar fun _ => (dA inferInstance (dA inferInstance (dA inferInstance (dA inferInstance (dSome2 fun _ _ => inferInstance))))))))))))))))) (by decide +kernel)⟩,
   ⟨addressTableIsKept_5_s, 1, 0, chk (dA inferInstance (dA inferInstance (dSome fun _ => (dA inferInstance (dA inferInstance (dA inferInstance (dA inferInstance (dA inferInstance (dA inferInstance (dVar fun _ => inferInstance)))))))))) (by decide +kernel)⟩,
   ⟨wDest wUp, (candidates 7 0x050403020100).getD 0 0, by decide +kernel⟩,
   ⟨wDest wUp, .keeper, 0, 1, chk (dA inferInstance (dA inferInstance (dA inferInstance (dA inferInstance (dSome fun _ => inferInstance))))) (by decide +kernel)⟩,
   ⟨addressTableIsKept_8_s, .manager, 0, 0, chk (dA inferInstance (dA inferInstance (dA inferInstance (dSome2 fun _ _ => inferInstance)))) (by decide +kernel)⟩,
   (by refine ⟨wStage { wUp with addr.slots := (candidates 7 0x050403020100).foldl (fun m n => Map.put (fun _ => wAe) m n { wAe with mac := 3 }) [] } wAe, .manager, 0, 0, ?_⟩; decide +kernel)⟩

/-- Destination lookup, table commands, learning, provenance and ageing: clauses 10, 11, 12, 13, 14, 15, 16, 17, 18, 19. -/
theorem witness_AddressTableIsKept_b :
    (∃ (s : State), ∃ (g : Agent), ∃ (k : Nat), ∃ (w : Nat), s.slicesUp = true ∧ addrCmdOk g k w = true ∧ s.poisoned = [] ∧ s.findKey k (s.addrStaged k w).bd (s.addrStaged k w).mac = none) ∧
    (∃ (s : State), ∃ (g : Agent), ∃ (k : Nat), ∃ (w : Nat), s.slicesUp = true ∧ addrCmdOk g k w = true ∧ s.poisoned = [] ∧ s.findKey k (s.addrStaged k w).bd (s.addrStaged k w).mac = none) ∧
    (∃ (s : State), ∃ (g : Agent), ∃ (k : Nat), ∃ (w : Nat), s.slicesUp = true ∧ addrCmdOk g k w = true ∧ s.poisoned = [] ∧ ∃ (n : Nat), ∃ (x : AddrEntry), s.findKey k (s.addrStaged k w).bd (s.addrStaged k w).mac = some (n, x) ∧ True) ∧
    (∃ (s : State), ∃ (g : Agent), ∃ (k : Nat), ∃ (w : Nat), s.slicesUp = true ∧ addrCmdOk g k w = true ∧ s.poisoned = [] ∧ s.on (F.PROV_CTRL_SLICE_EN k) = true ∧ k < s.addr.provOut.length ∧ (s.addr.provOut.getD k []).length < 1024 ∧ ∃ (n : Nat), ∃ (x : AddrEntry), s.findKey k (s.addrStaged k w).bd (s.addrStaged k w).mac = some (n, x) ∧ s.isLocal k x = true) ∧
    (∃ (s : State), ∃ (g : Agent), ∃ (k : Nat), ∃ (w : Nat), s.slicesUp = true ∧ addrCmdOk g k w = true ∧ s.poisoned = [] ∧ ∃ (n : Nat), ∃ (x : AddrEntry), s.findKey k (s.addrStaged k w).bd (s.addrStaged k w).mac = some (n, x) ∧ True) ∧
    (∃ (s : State), ∃ (g : Agent), ∃ (k : Nat), ∃ (w : Nat), s.slicesUp = true ∧ addrCmdOk g k w = true ∧ s.poisoned = [] ∧ s.addr.slots.sorted = true) ∧
    (∃ (s : State), ∃ (g : Agent), ∃ (k : Nat), ∃ (w : Nat), s.slicesUp = true ∧ addrCmdOk g k w = true ∧ s.poisoned = [] ∧ s.addr.slots.sorted = true) ∧
    (∃ (s : State), ∃ (g : Agent), ∃ (k : Nat), ∃ (w : Nat), s.slicesUp = true ∧ addrCmdOk g k w = true ∧ s.poisoned = [] ∧ s.addr.slots.sorted = true) ∧
    (∃ (s : State), ∃ (g : Agent), ∃ (k : Nat), ∃ (w : Nat), s.slicesUp = true ∧ addrCmdOk g k w = false) ∧
    (∃ (s : State), ∃ (g : Agent), ∃ (k : Nat), ∃ (w : Nat), s.slicesUp = true ∧ addrCmdOk g k w = false) :=
  ⟨⟨wDest wUp, .keeper, 0, 1, by decide +kernel⟩,
   ⟨wDest wUp, .keeper, 0, 1, by decide +kernel⟩,
   ⟨addressTableIsKept_12_s, .manager, 0, 0, chk (dA inferInstance (dA inferInstance (dA inferInstance (dSome2 fun _ _ => inferInstance)))) (by decide +kernel)⟩,
   ⟨addressTableIsKept_13_s, .manager, 0, 0, chk (dA inferInstance (dA inferInstance (dA inferInstance (dA inferInstance (dA inferInstance (dA inferInstance (dSome2 fun _ _ => inferInstance))))))) (by decide +kernel)⟩,
   ⟨addressTableIsKept_14_s, .manager, 0, 0, chk (dA inferInstance (dA inferInstance (dA inferInstance (dSome2 fun _ _ => inferInstance)))) (by decide +kernel)⟩,
   ⟨wDest wUp, .keeper, 0, 1, by decide +kernel⟩,
   ⟨wDest wUp, .keeper, 0, 1, by decide +kernel⟩,
   ⟨wDest wUp, .keeper, 0, 1, by decide +kernel⟩,
   ⟨wDest wUp, .keeper, 0, 0, by decide +kernel⟩,
   ⟨wDest wUp, .keeper, 0, 0, by decide +kernel⟩⟩

/-- Destination lookup, table commands, learning, provenance and ageing: clauses 20, 21, 22, 23, 24, 25, 26, 27, 28, 29. -/
theorem witness_AddressTableIsKept_c :
    (∃ (s : State), ∃ (g : Agent), ∃ (k : Nat), ∃ (w : Nat), s.slicesUp = true ∧ addrCmdOk g k w = false) ∧
    (∃ (s : State), ∃ (g : Agent), ∃ (k : Nat), ∃ (w : Nat), s.slicesUp = true ∧ addrCmdOk g k w = false) ∧
    (∃ (s : State), ∃ (g : Agent), ∃ (k : Nat), ∃ (w : Nat), s.slicesUp = true ∧ addrCmdOk g k w = false) ∧
    (∃ (s : State), ∃ (g : Agent), ∃ (k : Nat), ∃ (w : Nat), s.slicesUp = true ∧ addrCmdOk g k w = false) ∧
    (∃ (s : State), ∃ (k : Nat), s.slicesUp = true ∧ s.addr.learnQ.getD k [] = []) ∧
    (∃ (s : State), ∃ (k : Nat), s.slicesUp = true ∧ s.addr.provIn.getD k [] = []) ∧
    (∃ (s : State), ∃ (k : Nat), s.slicesUp = true ∧ s.addr.provIn.getD k [] = []) ∧
    (∃ (s : State), ∃ (k : Nat), s.slicesUp = true ∧ s.addr.provIn.getD k [] = []) ∧
    (∃ (s : State), ∃ (k : Nat), s.slicesUp = true ∧ k < 4 ∧ s.addr.learnQ.length = 4 ∧ s.poisoned = [] ∧ ∃ (r : LearnReq), ∃ (rest : List LearnReq), s.addr.learnQ.getD k [] = r :: rest ∧ s.frame? r.frame = none ∧ r.port < 8 ∧ s.findKey k r.bd r.mac = none ∧ s.fld (F.PORT_LEARN_COUNT k r.port) < s.fld (F.PORT_LEARN_LIMIT k r.port) ∧ ∃ (n : Nat), s.freeSlot k r.bd r.mac = some n ∧ True) ∧
    (∃ (s : State), ∃ (k : Nat), s.slicesUp = true ∧ k < 4 ∧ s.addr.learnQ.length = 4 ∧ s.poisoned = [] ∧ ∃ (r : LearnReq), ∃ (rest : List LearnReq), s.addr.learnQ.getD k [] = r :: rest ∧ s.frame? r.frame = none ∧ r.port < 8 ∧ ∃ (n : Nat), ∃ (x : AddrEntry), s.findKey k r.bd r.mac = some (n, x) ∧ x.isStatic = true) :=
  ⟨⟨wDest wUp, .keeper, 0, 0, by decide +kernel⟩,
   ⟨wDest wUp, .keeper, 0, 0, by decide +kernel⟩,
   ⟨wDest wUp, .keeper, 0, 0, by decide +kernel⟩,
   ⟨wDest wUp, .keeper, 0, 0, by decide +kernel⟩,
   ⟨wDest wUp, 0, by decide +kernel⟩,
   ⟨wDest wUp, 0, by decide +kernel⟩,
   ⟨wDest wUp, 0, by decide +kernel⟩,
   ⟨wDest wUp, 0, by decide +kernel⟩,
   ⟨addressTableIsKept_28_s, 0, chk (dA inferInstance (dA inferInstance (dA inferInstance (dA inferInstance (dCons fun _ _ => (dA inferInstance (dA inferInstance (dA inferInstance (dA inferInstance (dSome fun _ => inferInstance)))))))))) (by decide +kernel)⟩,
   ⟨addressTableIsKept_29_s, 0, chk (dA inferInstance (dA inferInstance (dA inferInstance (dA inferInstance (dCons fun _ _ => (dA inferInstance (dA inferInstance (dSome2 fun _ _ => inferInstance)))))))) (by decide +kernel)⟩⟩

/-- Destination lookup, table commands, learning, provenance and ageing: clauses 30, 31, 32, 33, 34, 35, 36, 37, 38, 39. -/
theorem witness_AddressTableIsKept_d :
    (∃ (s : State), ∃ (k : Nat), s.slicesUp = true ∧ k < 4 ∧ s.addr.learnQ.length = 4 ∧ s.poisoned = [] ∧ ∃ (r : LearnReq), ∃ (rest : List LearnReq), s.addr.learnQ.getD k [] = r :: rest ∧ s.frame? r.frame = none ∧ r.port < 8 ∧ ∃ (n : Nat), ∃ (x : AddrEntry), s.findKey k r.bd r.mac = some (n, x) ∧ x.isStatic = false ∧ s.sameLearn k r.port x = true) ∧
    (∃ (s : State), ∃ (k : Nat), s.slicesUp = true ∧ k < 4 ∧ s.addr.learnQ.length = 4 ∧ s.poisoned = [] ∧ ∃ (r : LearnReq), ∃ (rest : List LearnReq), s.addr.learnQ.getD k [] = r :: rest ∧ s.frame? r.frame = none ∧ r.port < 8 ∧ s.fld (F.PORT_LEARN_COUNT k r.port) < s.fld (F.PORT_LEARN_LIMIT k r.port) ∧ ∃ (n : Nat), ∃ (x : AddrEntry), s.findKey k r.bd r.mac = some (n, x) ∧ x.isStatic = false ∧ s.sameLearn k r.port x = false) ∧
    (∃ (s : State), ∃ (k : Nat), s.slicesUp = true ∧ k < 4 ∧ s.addr.learnQ.length = 4 ∧ s.poisoned = [] ∧ ∃ (r : LearnReq), ∃ (rest : List LearnReq), s.addr.learnQ.getD k [] = r :: rest ∧ s.frame? r.frame = none ∧ r.port < 8 ∧ s.findKey k r.bd r.mac = none ∧ s.fld (F.PORT_LEARN_COUNT k r.port) < s.fld (F.PORT_LEARN_LIMIT k r.port) ∧ s.freeSlot k r.bd r.mac = none) ∧
    (∃ (s : State), ∃ (k : Nat), s.slicesUp = true ∧ k < 4 ∧ s.addr.learnQ.length = 4 ∧ s.poisoned = [] ∧ ∃ (r : LearnReq), ∃ (rest : List LearnReq), s.addr.learnQ.getD k [] = r :: rest ∧ s.frame? r.frame = none ∧ r.port < 8 ∧ s.findKey k r.bd r.mac = none ∧ s.fld (F.PORT_LEARN_LIMIT k r.port) ≤ s.fld (F.PORT_LEARN_COUNT k r.port)) ∧
    (∃ (s : State), ∃ (k : Nat), s.slicesUp = true ∧ k < 4 ∧ s.poisoned = [] ∧ ∃ (m : ProvMsg), ∃ (rest : List ProvMsg), s.addr.provIn.getD k [] = m :: rest ∧ m.typ = 1 ∧ s.findKey k m.bd m.mac = none ∧ ∃ (n : Nat), s.freeSlot k m.bd m.mac = some n ∧ True) ∧
    (∃ (s : State), ∃ (k : Nat), s.slicesUp = true ∧ k < 4 ∧ s.poisoned = [] ∧ ∃ (m : ProvMsg), ∃ (rest : List ProvMsg), s.addr.provIn.getD k [] = m :: rest ∧ m.typ = 1 ∧ ∃ (n : Nat), ∃ (x : AddrEntry), s.findKey k m.bd m.mac = some (n, x) ∧ x.isStatic = false ∧ laterStamp m.stamp x.stamp = false ∧ m.stamp ≠ x.stamp) ∧
    (∃ (s : State), ∃ (k : Nat), s.slicesUp = true ∧ k < 4 ∧ s.poisoned = [] ∧ ∃ (m : ProvMsg), ∃ (rest : List ProvMsg), s.addr.provIn.getD k [] = m :: rest ∧ m.typ = 1 ∧ ∃ (n : Nat), ∃ (x : AddrEntry), s.findKey k m.bd m.mac = some (n, x) ∧ x.isStatic = false ∧ laterStamp m.stamp x.stamp = true ∧ m.stamp ≠ x.stamp) ∧
    (∃ (s : State), ∃ (k : Nat), s.slicesUp = true ∧ k < 4 ∧ s.poisoned = [] ∧ ∃ (m : ProvMsg), ∃ (rest : List ProvMsg), s.addr.provIn.getD k [] = m :: rest ∧ m.typ = 1 ∧ ∃ (n : Nat), ∃ (x : AddrEntry), s.findKey k m.bd m.mac = some (n, x) ∧ x.isStatic = true) ∧
    (∃ (s : State), ∃ (k : Nat), s.slicesUp = true ∧ k < 4 ∧ s.poisoned = [] ∧ ∃ (m : ProvMsg), ∃ (rest : List ProvMsg), s.addr.provIn.getD k [] = m :: rest ∧ m.typ = 3 ∧ ∃ (n : Nat), ∃ (x : AddrEntry), s.findKey k m.bd m.mac = some (n, x) ∧ x.isStatic = true) ∧
    (∃ (s : State), ∃ (k : Nat), s.slicesUp = true ∧ k < 4 ∧ s.poisoned = [] ∧ ∃ (m : ProvMsg), ∃ (rest : List ProvMsg), s.addr.provIn.getD k [] = m :: rest ∧ m.typ = 2 ∧ ∃ (n : Nat), ∃ (x : AddrEntry), s.findKey k m.bd m.mac = some (n, x) ∧ x.isStatic = true) :=
  ⟨⟨addressTableIsKept_30_s, 0, chk (dA inferInstance (dA inferInstance (dA inferInstance (dA inferInstance (dCons fun _ _ => (dA inferInstance (dA inferInstance (dSome2 fun _ _ => inferInstance)))))))) (by decide +kernel)⟩,
   ⟨wLq (wAddr wAe), 0, chk (dA inferInstance (dA inferInstance (dA inferInstance (dA inferInstance (dCons fun _ _ => (dA inferInstance (dA inferInstance (dA inferInstance (dSome2 fun _ _ => inferInstance))))))))) (by decide +kernel)⟩,
   ⟨addressTableIsKept_32_s, 0, chk (dA inferInstance (dA inferInstance (dA inferInstance (dA inferInstance (dCons fun _ _ => inferInstance))))) (by decide +kernel)⟩,
   ⟨addressTableIsKept_33_s, 0, chk (dA inferInstance (dA inferInstance (dA inferInstance (dA inferInstance (dCons fun _ _ => inferInstance))))) (by decide +kernel)⟩,
   ⟨addressTableIsKept_34_s, 0, chk (dA inferInstance (dA inferInstance (dA inferInstance (dCons fun _ _ => (dA inferInstance (dA inferInstance (dSome fun _ => inferInstance))))))) (by decide +kernel)⟩,
   ⟨addressTableIsKept_35_s, 0, chk (dA inferInstance (dA inferInstance (dA inferInstance (dCons fun _ _ => (dA inferInstance (dSome2 fun _ _ => inferInstance)))))) (by decide +kernel)⟩,
   ⟨wPv (wAddr wAe) 1 10, 0, chk (dA inferInstance (dA inferInstance (dA inferInstance (dCons fun _ _ => (dA inferInstance (dSome2 fun _ _ => inferInstance)))))) (by decide +kernel)⟩,
   ⟨addressTableIsKept_37_s, 0, chk (dA inferInstance (dA inferInstance (dA inferInstance (dCons fun _ _ => (dA inferInstance (dSome2 fun _ _ => inferInstance)))))) (by decide +kernel)⟩,
   ⟨addressTableIsKept_38_s, 0, chk (dA inferInstance (dA inferInstance (dA inferInstance (dCons fun _ _ => (dA inferInstance (dSome2 fun _ _ => inferInstance)))))) (by decide +kernel)⟩,
   ⟨addressTableIsKept_39_s, 0, chk (dA inferInstance (dA inferInstance (dA inferInstance (dCons fun _ _ => (dA inferInstance (dSome2 fun _ _ => inferInstance)))))) (by decide +kernel)⟩⟩

/-- Destination lookup, table commands, learning, provenance and ageing: clauses 40, 41, 42, 43, 44, 45, 46. -/
theorem witness_AddressTableIsKept_e :
    (∃ (s : State), ∃ (k : Nat), s.slicesUp = true ∧ k < 4 ∧ s.poisoned = [] ∧ ∃ (m : ProvMsg), ∃ (rest : List ProvMsg), s.addr.provIn.getD k [] = m :: rest ∧ m.typ = 1 ∧ s.findKey k m.bd m.mac = none ∧ s.freeSlot k m.bd m.mac = none) ∧
    (∃ (s : State), ∃ (k : Nat), s.slicesUp = true ∧ k < 4 ∧ s.poisoned = [] ∧ ∃ (m : ProvMsg), ∃ (rest : List ProvMsg), s.addr.provIn.getD k [] = m :: rest ∧ m.typ = 3 ∧ ∃ (n : Nat), ∃ (x : AddrEntry), s.findKey k m.bd m.mac = some (n, x) ∧ x.isStatic = false ∧ x.origin = m.origin ∧ x.originSlice = m.originSlice ∧ x.stamp = m.stamp) ∧
    (∃ (s : State), ∃ (k : Nat), s.slicesUp = true ∧ k < 4 ∧ s.poisoned = [] ∧ ∃ (m : ProvMsg), ∃ (rest : List ProvMsg), s.addr.provIn.getD k [] = m :: rest ∧ m.typ = 2 ∧ ∃ (n : Nat), ∃ (x : AddrEntry), s.findKey k m.bd m.mac = some (n, x) ∧ x.isStatic = false ∧ x.origin = m.origin ∧ x.originSlice = m.originSlice ∧ x.stamp = m.stamp) ∧
    (∃ (s : State), ∃ (k : Nat), s.slicesUp = true ∧ k < 4 ∧ s.poisoned = [] ∧ ∃ (m : ProvMsg), ∃ (rest : List ProvMsg), s.addr.provIn.getD k [] = m :: rest ∧ m.typ = 2 ∧ s.findKey k m.bd m.mac = none) ∧
    (∃ (s : State), ∃ (k : Nat), ∃ (n : Nat), s.slicesUp = true ∧ k < 4 ∧ n < 262144 ∧ s.poisoned = [] ∧ 0 < s.ageTime k ∧ ∃ (e : AddrEntry), s.slot? k n = some e ∧ e.isStatic = false ∧ s.ageTime k ≤ (s.sec32 + 2 ^ 32 - e.lastSeen) % 2 ^ 32 ∧ (s.sec32 + 2 ^ 32 - e.lastSeen) % 2 ^ 32 < 2 ^ 31) ∧
    (∃ (s : State), ∃ (k : Nat), ∃ (n : Nat), s.slicesUp = true ∧ k < 4 ∧ n < 262144 ∧ s.poisoned = [] ∧ ∃ (e : AddrEntry), s.slot? k n = some e ∧ (e.isStatic = true ∨ s.ageTime k = 0 ∨ (s.sec32 + 2 ^ 32 - e.lastSeen) % 2 ^ 32 < s.ageTime k ∨ 2 ^ 31 ≤ (s.sec32 + 2 ^ 32 - e.lastSeen) % 2 ^ 32)) ∧
    (∃ (s : State), ∃ (k : Nat), ∃ (n : Nat), s.slicesUp = true ∧ n < 262144 ∧ s.slot? k n = none ∧ s.poisoned = []) :=
  ⟨⟨wPv wFull 1 10, 0, chk (dA inferInstance (dA inferInstance (dA inferInstance (dCons fun _ _ => inferInstance)))) (by decide +kernel)⟩,
   ⟨addressTableIsKept_41_s, 0, chk (dA inferInstance (dA inferInstance (dA inferInstance (dCons fun _ _ => (dA inferInstance (dSome2 fun _ _ => inferInstance)))))) (by decide +kernel)⟩,
   ⟨addressTableIsKept_42_s, 0, chk (dA inferInstance (dA inferInstance (dA inferInstance (dCons fun _ _ => (dA inferInstance (dSome2 fun _ _ => inferInstance)))))) (by decide +kernel)⟩,
   ⟨addressTableIsKept_43_s, 0, chk (dA inferInstance (dA inferInstance (dA inferInstance (dCons fun _ _ => inferInstance)))) (by decide +kernel)⟩,
   ⟨addressTableIsKept_44_s, 0, addressTableIsKept_44_n, chk (dA inferInstance (dA inferInstance (dA inferInstance (dA inferInstance (dA inferInstance (dSome fun _ => inferInstance)))))) (by decide +kernel)⟩,
   ⟨addressTableIsKept_45_s, 0, addressTableIsKept_45_n, chk (dA inferInstance (dA inferInstance (dA inferInstance (dA inferInstance (dSome fun _ => inferInstance))))) (by decide +kernel)⟩,
   ⟨wDest wUp, 0, 1, by decide +kernel⟩⟩

end Sys2Proof.Tests
end

