-- ==== Sys2Proof/Tests/WitnessStorage.lean ====
section
/-!
SUPPORT. Witnesses: a state and operands that meet the hypotheses of each clause of the statements named, together.
-/

set_option linter.unusedVariables false
set_option Elab.async false
set_option maxRecDepth 100000

namespace Sys2Proof.Tests
open Sys2Proof.Machine

def nvmeQueuesWork_7_s : State :=
  { wInst wUp 2 4 with fe.bindings := [{ wBind true with state := 2 }] }

def nvmeQueuesWork_8_s : State :=
  { wInst wUp 2 4 with fe.bindings := [{ wBind true with state := 2 }] }

def nvmeQueuesWork_9_s : State :=
  { wInst wUp 2 4 with fe.bindings := [{ wBind true with state := 2 }] }

def nvmeQueuesWork_10_s : State :=
  { wInst wUp 2 4 with fe.bindings := [{ wBind true with state := 2 }] }

def nvmeQueuesWork_11_s : State :=
  { wInst wUp 2 4 with fe.bindings := [{ wBind true with state := 2 }] }

def nvmeQueuesWork_12_s : State :=
  { wInst wUp 2 4 with fe.bindings := [{ wBind true with state := 1 }] }

def nvmeQueuesWork_13_s : State :=
  { wInst wUp 2 4 with fe.bindings := [{ wBind true with state := 1 }] }

def nvmeQueuesWork_14_s : State :=
  { wInst wUp 2 4 with fe.bindings := [{ wBind true with state := 1 }] }

def nvmeQueuesWork_15_s : State :=
  { wInst wUp 2 4 with fe.bindings := [{ wBind true with state := 1 }] }

def nvmeQueuesWork_16_s : State :=
  { wInst wUp 2 4 with fe.bindings := [{ wBind true with state := 1 }] }

def nvmeQueuesWork_32_s : State :=
  { wHostM wNv 1 with nv.sqs := [{ inst := 1, qid := 1, slice := 0, cq := 1, size := 64, base := 0x11000, tail := 2, bells := [(2, 0)] }] }

def nvmeQueuesWork_33_s : State :=
  { wNv with nv.sqs := [{ inst := 1, qid := 1, slice := 0, cq := 1, size := 64, base := 0x11000, tail := 2, bells := [(2, 0)] }] }

def nvmeQueuesWork_34_s : State :=
  { wNv with nv.sqs := [{ inst := 1, qid := 1, slice := 0, cq := 1, size := 64, base := 0x400000000000, tail := 2, bells := [(2, 0)] }] }

def nvmeQueuesWork_35_s : State :=
  wNw wNv { wNc 1 0 1 [] with done := some nvOk, pieces := [4] }

def nvmeQueuesWork_36_s : State :=
  wAts (wNw wNv { wNc 1 0 1 [] with done := some nvOk }) 1

def nvmeQueuesWork_37_s : State :=
  { wNw wNv { wNc 1 0 1 [] with done := some nvOk } with nv.cqs := [{ inst := 1, qid := 1, slice := 0, size := 64, base := 2 ^ 46 }] }

def nvmeQueuesWork_38_s : State :=
  wNw wNv { wNc 1 0 1 [] with done := some { nvOk with status := 5, dnr := none } }

def nvmeQueuesWork_39_s : State :=
  wNw wNv { wNc 1 0 1 [] with done := some nvOk }

def nvmeQueuesWork_44_s : State :=
  let s := wNw wNv (wNc 0 4 0 [1]); { s with nv.sqs := [] }

def nvmeQueuesWork_46_s : State :=
  wNw (w1 wNv ⟨R.INST_QUOTA_A 1, 32, 9⟩ 8) (wNc 0 5 0 [0x3F0002, 0])

def nvmeQueuesWork_47_s : State :=
  wNw (w1 wNv ⟨R.INST_QUOTA_A 1, 32, 9⟩ 8) (wNc 0 1 0 [0x3F0002, 0x10000])

def nvmeQueuesWork_48_s : State :=
  wNw (w1 wNv ⟨R.INST_QUOTA_A 1, 32, 9⟩ 8) (wNc 0 5 0 [0x2, 1])

def nvmeQueuesWork_49_s : State :=
  wNw (w1 wNv ⟨R.INST_QUOTA_A 1, 32, 9⟩ 8) (let c := wNc 0 5 0 [0x3F0002, 1]; { c with sqe := c.sqe.set 24 1 })

def nvmeQueuesWork_50_s : State :=
  wNw (w1 wNv ⟨R.INST_QUOTA_A 1, 32, 9⟩ 8) (wNc 0 5 0 [0x3F0002, 0xFFFF0001])

def nvmeQueuesWork_51_s : State :=
  wNw (w1 wNv ⟨R.INST_QUOTA_A 1, 32, 9⟩ 8) (wNc 0 1 0 [0x3F0000, 0x10001])

def nvmeQueuesWork_52_s : State :=
  wNw (w1 wNv ⟨R.INST_QUOTA_A 1, 32, 9⟩ 8) (wNc 0 1 0 [0x2, 0x10001])

def nvmeQueuesWork_53_s : State :=
  wNw (w1 wNv ⟨R.INST_QUOTA_A 1, 32, 9⟩ 8) (let c := wNc 0 1 0 [0x3F0002, 0x10001]; { c with sqe := c.sqe.set 24 1 })

def nvmeQueuesWork_54_s : State :=
  wNw wNv (wNc 0 5 0 [0, 1])

def nvmeQueuesWork_55_s : State :=
  wNw (w1 wNv ⟨R.INST_QUOTA_A 1, 32, 9⟩ 8) (wNc 0 5 0 [0x3F0002, 0x30003])

def nvmeQueuesWork_56_s : State :=
  wNw (w1 wNv ⟨R.INST_QUOTA_A 1, 32, 9⟩ 8) (wNc 0 1 0 [0x3F0002, 0x10001])

def nvmeQueuesWork_57_s : State :=
  wNw (w1 wNv ⟨R.INST_QUOTA_A 1, 32, 9⟩ 8) (wNc 0 1 0 [0x3F0002, 0x1])

/-- NVMe doorbells, fetch, completions, queues and the controller's enable: clauses 0, 1, 2, 3, 4, 5, 6, 7, 8, 9. -/
theorem witness_NvmeQueuesWork_a :
    (∃ (s : State), ∃ (i : Nat), ∃ (q : Nat), ∃ (v : Nat), ∃ (cc : Nat), s.slicesUp = true ∧ s.anchorBinding i = none ∧ s.isCtrl i = false) ∧
    (∃ (s : State), ∃ (i : Nat), ∃ (q : Nat), ∃ (v : Nat), ∃ (cc : Nat), s.slicesUp = true ∧ s.anchorBinding i = none ∧ s.isCtrl i = false) ∧
    (∃ (s : State), ∃ (i : Nat), ∃ (q : Nat), ∃ (v : Nat), ∃ (cc : Nat), s.slicesUp = true ∧ s.anchorBinding i = none ∧ s.isCtrl i = false) ∧
    (∃ (s : State), ∃ (i : Nat), ∃ (q : Nat), ∃ (v : Nat), ∃ (cc : Nat), s.slicesUp = true ∧ s.anchorBinding i = none ∧ s.isCtrl i = false) ∧
    (∃ (s : State), ∃ (i : Nat), ∃ (q : Nat), ∃ (v : Nat), ∃ (cc : Nat), s.slicesUp = true ∧ s.anchorBinding i = none ∧ ((s.nvc i).en = true ∨ bitOf cc 0 = false)) ∧
    (∃ (s : State), ∃ (i : Nat), ∃ (q : Nat), ∃ (v : Nat), ∃ (cc : Nat), s.slicesUp = true ∧ s.anchorBinding i = none ∧ ((s.nvc i).en = false ∨ bitOf cc 0 = true)) ∧
    (∃ (s : State), ∃ (i : Nat), ∃ (q : Nat), ∃ (v : Nat), ∃ (cc : Nat), s.slicesUp = true ∧ s.anchorBinding i = none ∧ (bitsOf cc 15 14 = 0 ∨ (s.nvc i).en ≠ bitOf cc 0)) ∧
    (∃ (s : State), ∃ (i : Nat), ∃ (q : Nat), ∃ (v : Nat), ∃ (cc : Nat), s.slicesUp = true ∧ ∃ (b : FeBinding), s.anchorBinding i = some b ∧ b.state ≠ 1) ∧
    (∃ (s : State), ∃ (i : Nat), ∃ (q : Nat), ∃ (v : Nat), ∃ (cc : Nat), s.slicesUp = true ∧ ∃ (b : FeBinding), s.anchorBinding i = some b ∧ b.state ≠ 1) ∧
    (∃ (s : State), ∃ (i : Nat), ∃ (q : Nat), ∃ (v : Nat), ∃ (cc : Nat), s.slicesUp = true ∧ ∃ (b : FeBinding), s.anchorBinding i = some b ∧ b.state ≠ 1) :=
  ⟨⟨wNv, 2, 0, 0, 0x61, by decide +kernel⟩,
   ⟨wNv, 2, 0, 0, 0x61, by decide +kernel⟩,
   ⟨wNv, 2, 0, 0, 0x61, by decide +kernel⟩,
   ⟨wNv, 2, 0, 0, 0x61, by decide +kernel⟩,
   ⟨wNv, 1, 0, 0, 0x61, by decide +kernel⟩,
   ⟨wNv, 1, 0, 0, 0x61, by decide +kernel⟩,
   ⟨wNv, 1, 0, 0, 0x61, by decide +kernel⟩,
   ⟨nvmeQueuesWork_7_s, 2, 0, 0, 0x61, chk (dA inferInstance (dSome fun _ => inferInstance)) (by decide +kernel)⟩,
   ⟨nvmeQueuesWork_8_s, 2, 0, 0, 0x61, chk (dA inferInstance (dSome fun _ => inferInstance)) (by decide +kernel)⟩,
   ⟨nvmeQueuesWork_9_s, 2, 0, 0, 0x61, chk (dA inferInstance (dSome fun _ => inferInstance)) (by decide +kernel)⟩⟩

/-- NVMe doorbells, fetch, completions, queues and the controller's enable: clauses 10, 11, 12, 13, 14, 15, 16, 17, 18, 19. -/
theorem witness_NvmeQueuesWork_b :
    (∃ (s : State), ∃ (i : Nat), ∃ (q : Nat), ∃ (v : Nat), ∃ (cc : Nat), s.slicesUp = true ∧ ∃ (b : FeBinding), s.anchorBinding i = some b ∧ b.state ≠ 1) ∧
    (∃ (s : State), ∃ (i : Nat), ∃ (q : Nat), ∃ (v : Nat), ∃ (cc : Nat), s.slicesUp = true ∧ ∃ (b : FeBinding), s.anchorBinding i = some b ∧ b.state ≠ 1) ∧
    (∃ (s : State), ∃ (i : Nat), ∃ (q : Nat), ∃ (v : Nat), ∃ (cc : Nat), s.slicesUp = true ∧ ∃ (b : FeBinding), s.anchorBinding i = some b ∧ b.state = 1) ∧
    (∃ (s : State), ∃ (i : Nat), ∃ (q : Nat), ∃ (v : Nat), ∃ (cc : Nat), s.slicesUp = true ∧ ∃ (b : FeBinding), s.anchorBinding i = some b ∧ b.state = 1) ∧
    (∃ (s : State), ∃ (i : Nat), ∃ (q : Nat), ∃ (v : Nat), ∃ (cc : Nat), s.slicesUp = true ∧ ∃ (b : FeBinding), s.anchorBinding i = some b ∧ b.state = 1) ∧
    (∃ (s : State), ∃ (i : Nat), ∃ (q : Nat), ∃ (v : Nat), ∃ (cc : Nat), s.slicesUp = true ∧ ∃ (b : FeBinding), s.anchorBinding i = some b ∧ b.state = 1) ∧
    (∃ (s : State), ∃ (i : Nat), ∃ (q : Nat), ∃ (v : Nat), ∃ (cc : Nat), s.slicesUp = true ∧ ∃ (b : FeBinding), s.anchorBinding i = some b ∧ b.state = 1) ∧
    (∃ (s : State), ∃ (i : Nat), ∃ (q : Nat), ∃ (v : Nat), ∃ (cc : Nat), ∃ (cid : Nat), s.slicesUp = true ∧ List.find? (fun (c : NvCmd) => decide (c.inst = i ∧ c.sq = q ∧ c.cid = cid) && c.done.isSome) s.nv.cmds = none) ∧
    (∃ (s : State), ∃ (i : Nat), ∃ (q : Nat), ∃ (v : Nat), ∃ (cc : Nat), s.slicesUp = true ∧ s.twFired (s.adminSlice i) (TwConsumer.nvmeCoalesce i v) = false) ∧
    (∃ (s : State), ∃ (i : Nat), ∃ (q : Nat), ∃ (v : Nat), ∃ (cc : Nat), s.slicesUp = true ∧ s.twFired (s.adminSlice i) (TwConsumer.apst i) = false) :=
  ⟨⟨nvmeQueuesWork_10_s, 2, 0, 0, 0x61, chk (dA inferInstance (dSome fun _ => inferInstance)) (by decide +kernel)⟩,
   ⟨nvmeQueuesWork_11_s, 2, 0, 0, 0x61, chk (dA inferInstance (dSome fun _ => inferInstance)) (by decide +kernel)⟩,
   ⟨nvmeQueuesWork_12_s, 2, 0, 0, 0x61, chk (dA inferInstance (dSome fun _ => inferInstance)) (by decide +kernel)⟩,
   ⟨nvmeQueuesWork_13_s, 2, 0, 0, 0x61, chk (dA inferInstance (dSome fun _ => inferInstance)) (by decide +kernel)⟩,
   ⟨nvmeQueuesWork_14_s, 2, 0, 0, 0x61, chk (dA inferInstance (dSome fun _ => inferInstance)) (by decide +kernel)⟩,
   ⟨nvmeQueuesWork_15_s, 2, 0, 0, 0x61, chk (dA inferInstance (dSome fun _ => inferInstance)) (by decide +kernel)⟩,
   ⟨nvmeQueuesWork_16_s, 2, 0, 0, 0x61, chk (dA inferInstance (dSome fun _ => inferInstance)) (by decide +kernel)⟩,
   ⟨wNv, 1, 0, 0, 0x61, 0, by decide +kernel⟩,
   ⟨wNv, 1, 0, 0, 0x61, by decide +kernel⟩,
   ⟨wNv, 1, 0, 0, 0x61, by decide +kernel⟩⟩

/-- NVMe doorbells, fetch, completions, queues and the controller's enable: clauses 20, 21, 22, 23, 24, 25, 26, 27, 28, 29. -/
theorem witness_NvmeQueuesWork_c :
    (∃ (s : State), ∃ (i : Nat), ∃ (q : Nat), ∃ (v : Nat), ∃ (cc : Nat), ∃ (k : Nat), s.slicesUp = true ∧ (4 ≤ k ∨ s.awake k = false ∨ s.fetchPick k = none)) ∧
    (∃ (s : State), ∃ (i : Nat), ∃ (q : Nat), ∃ (v : Nat), ∃ (cc : Nat), ∃ (cid : Nat), s.slicesUp = true ∧ s.nvPending i 0 cid [0] = none) ∧
    (∃ (s : State), ∃ (i : Nat), ∃ (q : Nat), ∃ (v : Nat), ∃ (cc : Nat), ∃ (cid : Nat), s.slicesUp = true ∧ s.nvPending i 0 cid [4] = none) ∧
    (∃ (s : State), ∃ (i : Nat), ∃ (q : Nat), ∃ (v : Nat), ∃ (cc : Nat), ∃ (cid : Nat), s.slicesUp = true ∧ s.nvPending i 0 cid [5] = none) ∧
    (∃ (s : State), ∃ (i : Nat), ∃ (q : Nat), ∃ (v : Nat), ∃ (cc : Nat), ∃ (cid : Nat), s.slicesUp = true ∧ s.nvPending i 0 cid [1] = none) ∧
    (∃ (s : State), ∃ (i : Nat), ∃ (q : Nat), ∃ (v : Nat), s.slicesUp = true ∧ s.anchorBinding i = none ∧ s.isCtrl i = true ∧ v < 65536 ∧ s.nvSq? i q = none) ∧
    (∃ (s : State), ∃ (i : Nat), ∃ (q : Nat), ∃ (v : Nat), s.slicesUp = true ∧ s.anchorBinding i = none ∧ s.isCtrl i = true ∧ v < 65536 ∧ s.nvCq? i q = none) ∧
    (∃ (s : State), ∃ (i : Nat), ∃ (q : Nat), ∃ (v : Nat), s.slicesUp = true ∧ s.anchorBinding i = none ∧ s.isCtrl i = true ∧ v < 65536 ∧ ∃ (sq : NvSq), s.nvSq? i q = some sq ∧ sq.slice < 4 ∧ sq.size ≤ v) ∧
    (∃ (s : State), ∃ (i : Nat), ∃ (q : Nat), ∃ (v : Nat), s.slicesUp = true ∧ s.anchorBinding i = none ∧ s.isCtrl i = true ∧ v < 65536 ∧ ∃ (sq : NvSq), s.nvSq? i q = some sq ∧ v < sq.size ∧ v ≠ sq.tail) ∧
    (∃ (s : State), ∃ (i : Nat), ∃ (q : Nat), s.slicesUp = true ∧ s.anchorBinding i = none ∧ s.isCtrl i = true ∧ ∃ (sq : NvSq), s.nvSq? i q = some sq ∧ ∃ (v : Nat), sq.tail = v ∧ v < 65536 ∧ v < sq.size) :=
  ⟨⟨wNv, 1, 0, 0, 0x61, 0, by decide +kernel⟩,
   ⟨wNv, 1, 0, 0, 0x61, 0, by decide +kernel⟩,
   ⟨wNv, 1, 0, 0, 0x61, 0, by decide +kernel⟩,
   ⟨wNv, 1, 0, 0, 0x61, 0, by decide +kernel⟩,
   ⟨wNv, 1, 0, 0, 0x61, 0, by decide +kernel⟩,
   ⟨wNv, 1, 5, 0, by decide +kernel⟩,
   ⟨wNv, 1, 5, 0, by decide +kernel⟩,
   ⟨wNv, 1, 0, 64, chk (dA inferInstance (dA inferInstance (dA inferInstance (dA inferInstance (dSome fun _ => inferInstance))))) (by decide +kernel)⟩,
   ⟨wNv, 1, 0, 1, chk (dA inferInstance (dA inferInstance (dA inferInstance (dA inferInstance (dSome fun _ => inferInstance))))) (by decide +kernel)⟩,
   ⟨wNv, 1, 0, chk (dA inferInstance (dA inferInstance (dA inferInstance (dSome fun _ => (dVar fun _ => inferInstance))))) (by decide +kernel)⟩⟩

/-- NVMe doorbells, fetch, completions, queues and the controller's enable: clauses 30, 31, 32, 33, 34, 35, 36, 37, 38, 39. -/
theorem witness_NvmeQueuesWork_d :
    (∃ (s : State), ∃ (i : Nat), ∃ (q : Nat), ∃ (v : Nat), s.slicesUp = true ∧ s.anchorBinding i = none ∧ s.isCtrl i = true ∧ v < 65536 ∧ ∃ (cq : NvCq), s.nvCq? i q = some cq ∧ (cq.size ≤ v ∨ (cq.tail + cq.size - cq.head) % cq.size < (v + cq.size - cq.head) % cq.size)) ∧
    (∃ (s : State), ∃ (i : Nat), ∃ (q : Nat), ∃ (v : Nat), s.slicesUp = true ∧ s.anchorBinding i = none ∧ s.isCtrl i = true ∧ v < 65536 ∧ ∃ (cq : NvCq), s.nvCq? i q = some cq ∧ v < cq.size ∧ (v + cq.size - cq.head) % cq.size ≤ (cq.tail + cq.size - cq.head) % cq.size) ∧
    (∃ (s : State), ∃ (k : Nat), s.slicesUp = true ∧ k < 4 ∧ s.awake k = true ∧ ∃ (q : NvSq), s.fetchPick k = some q ∧ ∃ (s1 : State), s.dmaRead k q.inst (q.base + 64 * q.head) (64 * s.turnSize q) (s.sqOp q) = (s1, DmaRes.wait) ∧ True) ∧
    (∃ (s : State), ∃ (k : Nat), s.slicesUp = true ∧ k < 4 ∧ s.awake k = true ∧ ∃ (q : NvSq), s.fetchPick k = some q ∧ ∃ (s1 : State), ∃ (d : List Byte), s.dmaRead k q.inst (q.base + 64 * q.head) (64 * s.turnSize q) (s.sqOp q) = (s1, DmaRes.ok d) ∧ True) ∧
    (∃ (s : State), ∃ (k : Nat), s.slicesUp = true ∧ k < 4 ∧ s.awake k = true ∧ ∃ (q : NvSq), s.fetchPick k = some q ∧ ∃ (s1 : State), ∃ (st : Nat), s.dmaRead k q.inst (q.base + 64 * q.head) (64 * s.turnSize q) (s.sqOp q) = (s1, DmaRes.fail st) ∧ True) ∧
    (∃ (s : State), ∃ (s1 : State), ∃ (i : Nat), ∃ (sq : Nat), ∃ (cid : Nat), s.slicesUp = true ∧ ∃ (c : NvCmd), List.find? (fun (c : NvCmd) => decide (c.inst = i ∧ c.sq = sq ∧ c.cid = cid) && c.done.isSome) s.nv.cmds = some c ∧ ∃ (d : NvDone), c.done = some d ∧ ∃ (q : NvSq), s.nvSq? i sq = some q ∧ ∃ (cq : NvCq), s.nvCq? i q.cq = some cq ∧ (cq.free = 0 ∨ c.pieces ≠ [] ∨ c.unprog ≠ [])) ∧
    (∃ (s : State), ∃ (i : Nat), ∃ (sq : Nat), ∃ (cid : Nat), s.slicesUp = true ∧ ∃ (c : NvCmd), List.find? (fun (c : NvCmd) => decide (c.inst = i ∧ c.sq = sq ∧ c.cid = cid) && c.done.isSome) s.nv.cmds = some c ∧ c.pieces = [] ∧ c.unprog = [] ∧ ∃ (d : NvDone), c.done = some d ∧ (d.status = 0 ∨ d.dnr.isSome = true) ∧ ∃ (q : NvSq), s.nvSq? i sq = some q ∧ ∃ (cq : NvCq), s.nvCq? i q.cq = some cq ∧ cq.free ≠ 0 ∧ ∃ (s1 : State), s.dmaWrite cq.slice i (cq.base + 16 * cq.tail) (s.cmdOp c) (nvCqe d (d.dnr.getD false) q.head sq cid cq.phase) = (s1, DmaRes.wait) ∧ True) ∧
    (∃ (s : State), ∃ (i : Nat), ∃ (sq : Nat), ∃ (cid : Nat), s.slicesUp = true ∧ ∃ (c : NvCmd), List.find? (fun (c : NvCmd) => decide (c.inst = i ∧ c.sq = sq ∧ c.cid = cid) && c.done.isSome) s.nv.cmds = some c ∧ c.pieces = [] ∧ c.unprog = [] ∧ ∃ (d : NvDone), c.done = some d ∧ (d.status = 0 ∨ d.dnr.isSome = true) ∧ ∃ (q : NvSq), s.nvSq? i sq = some q ∧ ∃ (cq : NvCq), s.nvCq? i q.cq = some cq ∧ cq.free ≠ 0 ∧ ∃ (s1 : State), ∃ (st : Nat), s.dmaWrite cq.slice i (cq.base + 16 * cq.tail) (s.cmdOp c) (nvCqe d (d.dnr.getD false) q.head sq cid cq.phase) = (s1, DmaRes.fail st) ∧ True) ∧
    (∃ (s : State), ∃ (i : Nat), ∃ (sq : Nat), ∃ (cid : Nat), s.slicesUp = true ∧ ∃ (c : NvCmd), List.find? (fun (c : NvCmd) => decide (c.inst = i ∧ c.sq = sq ∧ c.cid = cid) && c.done.isSome) s.nv.cmds = some c ∧ c.pieces = [] ∧ c.unprog = [] ∧ ∃ (d : NvDone), c.done = some d ∧ d.status ≠ 0 ∧ d.dnr = none ∧ ∃ (q : NvSq), s.nvSq? i sq = some q ∧ q.deleting = none ∧ ∃ (cq : NvCq), s.nvCq? i q.cq = some cq ∧ cq.free ≠ 0 ∧ ∃ (dnr : Bool), decide (Config.unstated s.freeCtr % 2 = 1) = dnr ∧ ∃ (s1 : State), ∃ (w : List Byte), s.draw.dmaWrite cq.slice i (cq.base + 16 * cq.tail) (s.cmdOp c) (nvCqe d dnr q.head sq cid cq.phase) = (s1, DmaRes.ok w) ∧ s1.nv = s.nv) ∧
    (∃ (s : State), ∃ (i : Nat), ∃ (sq : Nat), ∃ (cid : Nat), s.slicesUp = true ∧ ∃ (c : NvCmd), List.find? (fun (c : NvCmd) => decide (c.inst = i ∧ c.sq = sq ∧ c.cid = cid) && c.done.isSome) s.nv.cmds = some c ∧ c.pieces = [] ∧ c.unprog = [] ∧ ∃ (d : NvDone), c.done = some d ∧ (d.status = 0 ∨ d.dnr.isSome = true) ∧ ∃ (q : NvSq), s.nvSq? i sq = some q ∧ q.deleting = none ∧ ∃ (cq : NvCq), s.nvCq? i q.cq = some cq ∧ cq.free ≠ 0 ∧ ∃ (s1 : State), ∃ (w : List Byte), s.dmaWrite cq.slice i (cq.base + 16 * cq.tail) (s.cmdOp c) (nvCqe d (d.dnr.getD false) q.head sq cid cq.phase) = (s1, DmaRes.ok w) ∧ s1.nv = s.nv) :=
  ⟨⟨wNv, 1, 0, 1, chk (dA inferInstance (dA inferInstance (dA inferInstance (dA inferInstance (dSome fun _ => inferInstance))))) (by decide +kernel)⟩,
   ⟨wNv, 1, 0, 0, chk (dA inferInstance (dA inferInstance (dA inferInstance (dA inferInstance (dSome fun _ => inferInstance))))) (by decide +kernel)⟩,
   ⟨nvmeQueuesWork_32_s, 0, chk (dA inferInstance (dA inferInstance (dA inferInstance (dSome fun _ => (dPC fun _ => inferInstance))))) (by decide +kernel)⟩,
   ⟨nvmeQueuesWork_33_s, 0, chk (dA inferInstance (dA inferInstance (dA inferInstance (dSome fun _ => (dOkD fun _ _ => inferInstance))))) (by decide +kernel)⟩,
   ⟨nvmeQueuesWork_34_s, 0, chk (dA inferInstance (dA inferInstance (dA inferInstance (dSome fun _ => (dFailD fun _ _ => inferInstance))))) (by decide +kernel)⟩,
   ⟨nvmeQueuesWork_35_s, wUp, 1, 1, 0, chk (dA inferInstance (dSome fun _ => (dSome fun _ => (dSome fun _ => (dSome fun _ => inferInstance))))) (by decide +kernel)⟩,
   ⟨nvmeQueuesWork_36_s, 1, 1, 0, chk (dA inferInstance (dSome fun _ => (dA inferInstance (dA inferInstance (dSome fun _ => (dA inferInstance (dSome fun _ => (dSome fun _ => (dA inferInstance (dPC fun _ => inferInstance)))))))))) (by decide +kernel)⟩,
   ⟨nvmeQueuesWork_37_s, 1, 1, 0, chk (dA inferInstance (dSome fun _ => (dA inferInstance (dA inferInstance (dSome fun _ => (dA inferInstance (dSome fun _ => (dSome fun _ => (dA inferInstance (dFailD fun _ _ => inferInstance)))))))))) (by decide +kernel)⟩,
   ⟨nvmeQueuesWork_38_s, 1, 1, 0, chk (dA inferInstance (dSome fun _ => (dA inferInstance (dA inferInstance (dSome fun _ => (dA inferInstance (dA inferInstance (dSome fun _ => (dA inferInstance (dSome fun _ => (dA inferInstance (dVar fun _ => (dOkD fun _ _ => inferInstance))))))))))))) (by decide +kernel)⟩,
   ⟨nvmeQueuesWork_39_s, 1, 1, 0, chk (dA inferInstance (dSome fun _ => (dA inferInstance (dA inferInstance (dSome fun _ => (dA inferInstance (dSome fun _ => (dA inferInstance (dSome fun _ => (dA inferInstance (dOkD fun _ _ => inferInstance))))))))))) (by decide +kernel)⟩⟩

/-- NVMe doorbells, fetch, completions, queues and the controller's enable: clauses 40, 41, 42, 43, 44, 45, 46, 47, 48, 49. -/
theorem witness_NvmeQueuesWork_e :
    (∃ (s : State), ∃ (i : Nat), ∃ (v : Nat), s.slicesUp = true ∧ s.twFired (s.adminSlice i) (TwConsumer.nvmeCoalesce i v) = true) ∧
    (∃ (s : State), ∃ (i : Nat), ∃ (cid : Nat), s.slicesUp = true ∧ ∃ (c : NvCmd), s.nvPending i 0 cid [0] = some c ∧ c.inst = i ∧ bitsOf (c.dw 10) 15 0 = 0) ∧
    (∃ (s : State), ∃ (cid : Nat), s.slicesUp = true ∧ ∃ (c : NvCmd), s.nv.cmds = [c] ∧ bitsOf (c.dw 10) 15 0 ≠ 0 ∧ c.sq = 0 ∧ ∃ (i : Nat), c.inst = i ∧ s.nvPending i 0 cid [0] = some c ∧ ∃ (sq : NvSq), s.nvSq? i (bitsOf (c.dw 10) 15 0) = some sq ∧ True) ∧
    (∃ (s : State), ∃ (i : Nat), ∃ (cid : Nat), s.slicesUp = true ∧ ∃ (c : NvCmd), s.nvPending i 0 cid [4] = some c ∧ c.inst = i ∧ (bitsOf (c.dw 10) 15 0 = 0 ∨ s.nvCq? i (bitsOf (c.dw 10) 15 0) = none)) ∧
    (∃ (s : State), ∃ (i : Nat), ∃ (cid : Nat), s.slicesUp = true ∧ ∃ (c : NvCmd), s.nvPending i 0 cid [4] = some c ∧ c.inst = i ∧ bitsOf (c.dw 10) 15 0 ≠ 0 ∧ (s.nv.sqs.any fun (x : NvSq) => decide (x.inst = i ∧ x.cq = bitsOf (c.dw 10) 15 0)) = false ∧ ∃ (cq : NvCq), s.nvCq? i (bitsOf (c.dw 10) 15 0) = some cq ∧ True) ∧
    (∃ (s : State), ∃ (i : Nat), ∃ (cid : Nat), s.slicesUp = true ∧ ∃ (c : NvCmd), s.nvPending i 0 cid [4] = some c ∧ c.inst = i ∧ bitsOf (c.dw 10) 15 0 ≠ 0 ∧ (s.nvCq? i (bitsOf (c.dw 10) 15 0)).isSome = true ∧ (s.nv.sqs.any fun (x : NvSq) => decide (x.inst = i ∧ x.cq = bitsOf (c.dw 10) 15 0)) = true) ∧
    (∃ (s : State), ∃ (i : Nat), ∃ (cid : Nat), s.slicesUp = true ∧ ∃ (c : NvCmd), s.nvPending i 0 cid [5] = some c ∧ c.inst = i ∧ bitOf (c.dw 11) 0 = false) ∧
    (∃ (s : State), ∃ (i : Nat), ∃ (cid : Nat), s.slicesUp = true ∧ ∃ (c : NvCmd), s.nvPending i 0 cid [1] = some c ∧ c.inst = i ∧ bitOf (c.dw 11) 0 = false) ∧
    (∃ (s : State), ∃ (i : Nat), ∃ (cid : Nat), s.slicesUp = true ∧ ∃ (c : NvCmd), s.nvPending i 0 cid [5] = some c ∧ c.inst = i ∧ bitOf (c.dw 11) 0 = true ∧ bitsOf (c.dw 10) 15 0 ≠ 0 ∧ bitsOf (c.dw 10) 15 0 ≤ s.allocated i true ∧ s.nvCq? i (bitsOf (c.dw 10) 15 0) = none ∧ bitsOf (c.dw 10) 31 16 + 1 = 1) ∧
    (∃ (s : State), ∃ (i : Nat), ∃ (cid : Nat), s.slicesUp = true ∧ ∃ (c : NvCmd), s.nvPending i 0 cid [5] = some c ∧ c.inst = i ∧ bitOf (c.dw 11) 0 = true ∧ bitsOf (c.dw 10) 15 0 ≠ 0 ∧ bitsOf (c.dw 10) 15 0 ≤ s.allocated i true ∧ s.nvCq? i (bitsOf (c.dw 10) 15 0) = none ∧ bitsOf (c.dw 10) 31 16 + 1 ≠ 1 ∧ c.prp1 % (s.nvc i).page ≠ 0) :=
  ⟨⟨wFire wNv 0 (.nvmeCoalesce 1 3), 1, 3, by decide +kernel⟩,
   ⟨wNw wNv (wNc 0 0 0 []), 1, 0, chk (dA inferInstance (dSome fun _ => inferInstance)) (by decide +kernel)⟩,
   ⟨wNw wNv (wNc 0 0 0 [1]), 0, chk (dA inferInstance (dCC fun _ => (dA inferInstance (dA inferInstance (dVar fun _ => (dA inferInstance (dSome fun _ => inferInstance))))))) (by decide +kernel)⟩,
   ⟨wNw wNv (wNc 0 4 0 []), 1, 0, chk (dA inferInstance (dSome fun _ => inferInstance)) (by decide +kernel)⟩,
   ⟨nvmeQueuesWork_44_s, 1, 0, chk (dA inferInstance (dSome fun _ => (dA inferInstance (dA inferInstance (dA inferInstance (dSome fun _ => inferInstance)))))) (by decide +kernel)⟩,
   ⟨wNw wNv (wNc 0 4 0 [1]), 1, 0, chk (dA inferInstance (dSome fun _ => inferInstance)) (by decide +kernel)⟩,
   ⟨nvmeQueuesWork_46_s, 1, 0, chk (dA inferInstance (dSome fun _ => inferInstance)) (by decide +kernel)⟩,
   ⟨nvmeQueuesWork_47_s, 1, 0, chk (dA inferInstance (dSome fun _ => inferInstance)) (by decide +kernel)⟩,
   ⟨nvmeQueuesWork_48_s, 1, 0, chk (dA inferInstance (dSome fun _ => inferInstance)) (by decide +kernel)⟩,
   ⟨nvmeQueuesWork_49_s, 1, 0, chk (dA inferInstance (dSome fun _ => inferInstance)) (by decide +kernel)⟩⟩

/-- NVMe doorbells, fetch, completions, queues and the controller's enable: clauses 50, 51, 52, 53, 54, 55, 56, 57, 58, 59. -/
theorem witness_NvmeQueuesWork_f :
    (∃ (s : State), ∃ (i : Nat), ∃ (cid : Nat), s.slicesUp = true ∧ ∃ (c : NvCmd), s.nvPending i 0 cid [5] = some c ∧ c.inst = i ∧ bitOf (c.dw 11) 0 = true ∧ bitsOf (c.dw 10) 15 0 ≠ 0 ∧ bitsOf (c.dw 10) 15 0 ≤ s.allocated i true ∧ s.nvCq? i (bitsOf (c.dw 10) 15 0) = none ∧ bitsOf (c.dw 10) 31 16 + 1 ≠ 1 ∧ c.prp1 % (s.nvc i).page = 0 ∧ vectorCount i ≤ bitsOf (c.dw 11) 31 16) ∧
    (∃ (s : State), ∃ (i : Nat), ∃ (cid : Nat), s.slicesUp = true ∧ ∃ (c : NvCmd), s.nvPending i 0 cid [1] = some c ∧ c.inst = i ∧ bitOf (c.dw 11) 0 = true ∧ (bitsOf (c.dw 10) 15 0 = 0 ∨ s.allocated i false < bitsOf (c.dw 10) 15 0 ∨ (s.nvSq? i (bitsOf (c.dw 10) 15 0)).isSome = true)) ∧
    (∃ (s : State), ∃ (i : Nat), ∃ (cid : Nat), s.slicesUp = true ∧ ∃ (c : NvCmd), s.nvPending i 0 cid [1] = some c ∧ c.inst = i ∧ bitOf (c.dw 11) 0 = true ∧ bitsOf (c.dw 10) 15 0 ≠ 0 ∧ bitsOf (c.dw 10) 15 0 ≤ s.allocated i false ∧ s.nvSq? i (bitsOf (c.dw 10) 15 0) = none ∧ bitsOf (c.dw 10) 31 16 + 1 = 1) ∧
    (∃ (s : State), ∃ (i : Nat), ∃ (cid : Nat), s.slicesUp = true ∧ ∃ (c : NvCmd), s.nvPending i 0 cid [1] = some c ∧ c.inst = i ∧ bitOf (c.dw 11) 0 = true ∧ bitsOf (c.dw 10) 15 0 ≠ 0 ∧ bitsOf (c.dw 10) 15 0 ≤ s.allocated i false ∧ s.nvSq? i (bitsOf (c.dw 10) 15 0) = none ∧ bitsOf (c.dw 10) 31 16 + 1 ≠ 1 ∧ c.prp1 % (s.nvc i).page ≠ 0) ∧
    (∃ (s : State), ∃ (i : Nat), ∃ (cid : Nat), s.slicesUp = true ∧ ∃ (c : NvCmd), s.nvPending i 0 cid [5] = some c ∧ c.inst = i ∧ bitOf (c.dw 11) 0 = true ∧ (bitsOf (c.dw 10) 15 0 = 0 ∨ s.allocated i true < bitsOf (c.dw 10) 15 0 ∨ (s.nvCq? i (bitsOf (c.dw 10) 15 0)).isSome = true)) ∧
    (∃ (s : State), ∃ (i : Nat), ∃ (cid : Nat), s.slicesUp = true ∧ s.nv.cqs.length < 4096 ∧ ∃ (c : NvCmd), s.nvPending i 0 cid [5] = some c ∧ c.inst = i ∧ bitOf (c.dw 11) 0 = true ∧ bitsOf (c.dw 10) 15 0 ≠ 0 ∧ bitsOf (c.dw 10) 15 0 ≤ s.allocated i true ∧ s.nvCq? i (bitsOf (c.dw 10) 15 0) = none ∧ bitsOf (c.dw 10) 31 16 + 1 ≠ 1 ∧ c.prp1 % (s.nvc i).page = 0 ∧ bitsOf (c.dw 11) 31 16 < vectorCount i) ∧
    (∃ (s : State), ∃ (i : Nat), ∃ (cid : Nat), s.slicesUp = true ∧ s.nv.sqs.length < 4096 ∧ ∃ (c : NvCmd), s.nvPending i 0 cid [1] = some c ∧ c.inst = i ∧ bitOf (c.dw 11) 0 = true ∧ bitsOf (c.dw 10) 15 0 ≠ 0 ∧ bitsOf (c.dw 10) 15 0 ≤ s.allocated i false ∧ s.nvSq? i (bitsOf (c.dw 10) 15 0) = none ∧ bitsOf (c.dw 10) 31 16 + 1 ≠ 1 ∧ c.prp1 % (s.nvc i).page = 0 ∧ bitsOf (c.dw 11) 31 16 ≠ 0 ∧ ∃ (cq : NvCq), s.nvCq? i (bitsOf (c.dw 11) 31 16) = some cq ∧ True) ∧
    (∃ (s : State), ∃ (i : Nat), ∃ (cid : Nat), s.slicesUp = true ∧ ∃ (c : NvCmd), s.nvPending i 0 cid [1] = some c ∧ c.inst = i ∧ bitOf (c.dw 11) 0 = true ∧ bitsOf (c.dw 10) 15 0 ≠ 0 ∧ bitsOf (c.dw 10) 15 0 ≤ s.allocated i false ∧ s.nvSq? i (bitsOf (c.dw 10) 15 0) = none ∧ bitsOf (c.dw 10) 31 16 + 1 ≠ 1 ∧ c.prp1 % (s.nvc i).page = 0 ∧ (bitsOf (c.dw 11) 31 16 = 0 ∨ s.nvCq? i (bitsOf (c.dw 11) 31 16) = none)) ∧
    (∃ (s : State), ∃ (i : Nat), ∃ (cc : Nat), s.slicesUp = true ∧ s.anchorBinding i = none ∧ s.isCtrl i = true ∧ cc < 2 ^ 32 ∧ (s.nvc i).en = false ∧ bitOf cc 0 = true ∧ bitsOf cc 6 4 = 6 ∧ bitsOf cc 10 7 ≤ 4 ∧ s.instState i ≠ instDisabled) ∧
    (∃ (s : State), ∃ (i : Nat), ∃ (cc : Nat), s.slicesUp = true ∧ s.anchorBinding i = none ∧ s.isCtrl i = true ∧ cc < 2 ^ 32 ∧ (s.nvc i).en = false ∧ bitOf cc 0 = true ∧ (bitsOf cc 6 4 ≠ 6 ∨ 4 < bitsOf cc 10 7 ∨ s.instState i = instDisabled)) :=
  ⟨⟨nvmeQueuesWork_50_s, 1, 0, chk (dA inferInstance (dSome fun _ => inferInstance)) (by decide +kernel)⟩,
   ⟨nvmeQueuesWork_51_s, 1, 0, chk (dA inferInstance (dSome fun _ => inferInstance)) (by decide +kernel)⟩,
   ⟨nvmeQueuesWork_52_s, 1, 0, chk (dA inferInstance (dSome fun _ => inferInstance)) (by decide +kernel)⟩,
   ⟨nvmeQueuesWork_53_s, 1, 0, chk (dA inferInstance (dSome fun _ => inferInstance)) (by decide +kernel)⟩,
   ⟨nvmeQueuesWork_54_s, 1, 0, chk (dA inferInstance (dSome fun _ => inferInstance)) (by decide +kernel)⟩,
   ⟨nvmeQueuesWork_55_s, 1, 0, chk (dA inferInstance (dA inferInstance (dSome fun _ => inferInstance))) (by decide +kernel)⟩,
   ⟨nvmeQueuesWork_56_s, 1, 0, chk (dA inferInstance (dA inferInstance (dSome fun _ => (dA inferInstance (dA inferInstance (dA inferInstance (dA inferInstance (dA inferInstance (dA inferInstance (dA inferInstance (dA inferInstance (dSome fun _ => inferInstance)))))))))))) (by decide +kernel)⟩,
   ⟨nvmeQueuesWork_57_s, 1, 0, chk (dA inferInstance (dSome fun _ => inferInstance)) (by decide +kernel)⟩,
   (by refine ⟨{ wNv with nv.ctrls := [(1, { aqa := 0x1F001F, asq := 0x10000, acq := 0x20000 })], nv.sqs := [], nv.cqs := [] }, 1, 0x61, ?_⟩; decide +kernel),
   (by refine ⟨{ wNv with nv.ctrls := [(1, { aqa := 0x1F001F, asq := 0x10000, acq := 0x20000 })], nv.sqs := [], nv.cqs := [] }, 1, 0x401, ?_⟩; decide +kernel)⟩

/-- NVMe doorbells, fetch, completions, queues and the controller's enable: clauses 60, 61, 62, 63. -/
theorem witness_NvmeQueuesWork_g :
    (∃ (s : State), ∃ (i : Nat), ∃ (cc : Nat), s.slicesUp = true ∧ s.anchorBinding i = none ∧ s.isCtrl i = true ∧ cc < 2 ^ 32 ∧ (s.nvc i).en = true ∧ bitOf cc 0 = false) ∧
    (∃ (s : State), ∃ (i : Nat), ∃ (cc : Nat), s.slicesUp = true ∧ s.anchorBinding i = none ∧ s.isCtrl i = true ∧ cc < 2 ^ 32 ∧ bitsOf cc 15 14 ≠ 0 ∧ (s.nvc i).en = bitOf cc 0) ∧
    (∃ (s : State), ∃ (i : Nat), s.slicesUp = true ∧ s.twFired (s.adminSlice i) (TwConsumer.apst i) = true ∧ 4 < ((s.nvc i).apstEntry (s.nvc i).ps).fst) ∧
    (∃ (s : State), ∃ (i : Nat), s.slicesUp = true ∧ s.twFired (s.adminSlice i) (TwConsumer.apst i) = true ∧ ((s.nvc i).apstEntry (s.nvc i).ps).fst ≤ 4) :=
  ⟨⟨wNv, 1, 0x60, by decide +kernel⟩,
   ⟨wNv, 1, 0x4061, by decide +kernel⟩,
   (by refine ⟨wFire { wNv with nv.ctrls := [(1, { cc := 0x61, csts := 1, apst := List.replicate 8 0x28 ++ List.replicate 24 0 })] } 0 (.apst 1), 1, ?_⟩; decide +kernel),
   (by refine ⟨wFire { wNv with nv.ctrls := [(1, { cc := 0x61, csts := 1, apst := List.replicate 8 0x18 ++ List.replicate 24 0 })] } 0 (.apst 1), 1, ?_⟩; decide +kernel)⟩

def nvmeAdminCommands_10_s : State :=
  wNw wNv (wNc 0 2 0 [0x77])

def nvmeAdminCommands_11_s : State :=
  wNw wNv (wNc 0 2 0 [0x3F8001])

def nvmeAdminCommands_12_s : State :=
  wNw wNv (wNc 0 2 0 [0x3F8001])

def nvmeAdminCommands_13_s : State :=
  wNw wNv (wNc 0 2 0 [0x3F0001, 0, 100000])

def nvmeAdminCommands_14_s : State :=
  wNw wNv (wNc 0 6 0 [0x77])

def nvmeAdminCommands_16_s : State :=
  { wNv with nv.cmds := [wNc 0 8 0 [0x70001], { wNc 1 2 1 [] with id := 2, cid := 7 }] }

def nvmeAdminCommands_17_s : State :=
  { wNv with nv.cmds := [wNc 0 8 0 [0x70001], { wNc 1 2 1 [] with id := 2, cid := 7, issued := true }] }

def nvmeAdminCommands_18_s : State :=
  wNw wNv (wNc 0 8 0 [0x70009])

def nvmeAdminCommands_19_s : State :=
  { wNw wNv (wNc 0 8 0 [0x70001]) with nv.sqs := [{ inst := 1, qid := 0, slice := 0, cq := 0, size := 64, base := 0x10000 }, { inst := 1, qid := 1, slice := 0, cq := 1, size := 64, base := 0x11000, tail := 2 }] }

def nvmeAdminCommands_20_s : State :=
  wNw wNv (wNc 0 9 0 [0x77])

def nvmeAdminCommands_21_s : State :=
  wNw wNv (wNc 0 9 0 [0xB, 0x155])

def nvmeAdminCommands_22_s : State :=
  wNw wNv (wNc 0 9 0 [2, 3])

def nvmeAdminCommands_23_s : State :=
  wNw wNv (wNc 0 10 0 [0x102])

def nvmeAdminCommands_24_s : State :=
  wNw wNv (wNc 0 10 0 [0x77])

def nvmeAdminCommands_25_s : State :=
  wNw wNv (wNc 0 10 0 [0xB])

def nvmeAdminCommands_26_s : State :=
  wNw wNv (wNc 0 10 0 [0xB])

def nvmeAdminCommands_27_s : State :=
  { wNv with nv.cmds := wNc 0 12 0 [] :: (List.range 4).map fun i => { wNc 0 12 0 [] with id := i + 2, cid := i + 2, issued := true } }

def nvmeAdminCommands_29_s : State :=
  wNw (wNs wN1) (wNc 0 13 1 [1])

def nvmeAdminCommands_31_s : State :=
  wNw (wNs wN1) (wNc 0 13 1 [2])

def nvmeAdminCommands_32_s : State :=
  wNw (wNs wN1) (wNc 0 0x15 1 [2])

def nvmeAdminCommands_33_s : State :=
  wNw (wNs wN1) (wNc 0 0x15 1 [0])

def nvmeAdminCommands_34_s : State :=
  wNw (wNs wN1) (wNc 0 0x80 1 [0x10])

def nvmeAdminCommands_35_s : State :=
  { wNs wN1 with nv.cmds := [wNc 0 0x80 1 [0], { wNc 1 2 1 [] with id := 2, cid := 7, issued := true }] }

def nvmeAdminCommands_36_s : State :=
  wNw (wNs wN1) (wNc 0 0x80 1 [0])

def nvmeAdminCommands_37_s : State :=
  { wNw wNv (wNc 0 0x14 0 [1]) with nv.test := some { code := 1, inst := 1, nsid := 0, segment := 1, began := 0 } }

def nvmeAdminCommands_38_s : State :=
  { wNw wNv (wNc 0 0x14 0 [15]) with nv.test := some { code := 1, inst := 1, nsid := 0, segment := 1, began := 0 } }

def nvmeAdminCommands_39_s : State :=
  wNw wNv (wNc 0 0x14 0 [5])

def nvmeAdminCommands_40_s : State :=
  wNw wNv (wNc 0 0x14 0 [15])

def nvmeAdminCommands_41_s : State :=
  wNw wNv (wNc 0 0x14 9 [1])

def nvmeAdminCommands_42_s : State :=
  wNw wNv (wNc 0 0x14 0 [1])

def nvmeAdminCommands_44_s : State :=
  { wNv with nv.test := some { code := 1, inst := 1, nsid := 0, segment := 2, began := 0 }, arb.waiting := [{ point := .cipher, slice := 0, deadline := 0, source := 1, work := .job 7 }] }

def nvmeAdminCommands_45_s : State :=
  { wNw wNv (wNc 0 0x14 0 [1]) with nv.test := some { code := 1, inst := 1, nsid := 0, segment := 1, began := 0 } }

def nvmeAdminCommands_46_s : State :=
  { wNw wNv (wNc 0 0x14 0 [1]) with nv.test := some { code := 1, inst := 1, nsid := 0, segment := 1, began := 0 } }

def nvmeAdminCommands_47_s : State :=
  { wNv with nv.test := some { code := 1, inst := 1, nsid := 0, segment := 7, began := 0 } }

def nvmeAdminCommands_48_s : State :=
  { (wNv.setPair 0 1 pairOnline).setPair 0 2 pairOnline with nv.test := some { code := 1, inst := 1, nsid := 0, segment := 2, began := 0 } }

def nvmeAdminCommands_49_s : State :=
  { wNv with nv.test := some { code := 1, inst := 1, nsid := 0, segment := 5, began := 0 } }

def nvmeAdminCommands_50_s : State :=
  { wNw wNv (wNc 0 0x14 0 [1]) with nv.test := some { code := 1, inst := 1, nsid := 0, segment := 1, began := 0 } }

/-- NVMe admin commands and the self-test: clauses 0, 1, 2, 3, 4, 5, 6, 7, 8, 9. -/
theorem witness_NvmeAdminCommands_a :
    (∃ (s : State), ∃ (i : Nat), ∃ (cid : Nat), s.slicesUp = true ∧ s.nvPending i 0 cid [2] = none) ∧
    (∃ (s : State), ∃ (i : Nat), ∃ (cid : Nat), s.slicesUp = true ∧ s.nvPending i 0 cid [6] = none) ∧
    (∃ (s : State), ∃ (i : Nat), ∃ (cid : Nat), s.slicesUp = true ∧ s.nvPending i 0 cid [8] = none) ∧
    (∃ (s : State), ∃ (i : Nat), ∃ (cid : Nat), s.slicesUp = true ∧ s.nvPending i 0 cid [9] = none) ∧
    (∃ (s : State), ∃ (i : Nat), ∃ (cid : Nat), s.slicesUp = true ∧ s.nvPending i 0 cid [10] = none) ∧
    (∃ (s : State), ∃ (i : Nat), ∃ (cid : Nat), s.slicesUp = true ∧ s.nvPending i 0 cid [12] = none) ∧
    (∃ (s : State), ∃ (i : Nat), ∃ (cid : Nat), s.slicesUp = true ∧ s.nvPending i 0 cid [13] = none) ∧
    (∃ (s : State), ∃ (i : Nat), ∃ (cid : Nat), s.slicesUp = true ∧ s.nvPending i 0 cid [21] = none) ∧
    (∃ (s : State), ∃ (i : Nat), ∃ (cid : Nat), s.slicesUp = true ∧ s.nvPending i 0 cid [128] = none) ∧
    (∃ (s : State), ∃ (i : Nat), ∃ (cid : Nat), s.slicesUp = true ∧ s.nvPending i 0 cid [20] = none) :=
  ⟨⟨wNw wNv (wNc 0 2 0 [0x77]), 1, 1, by decide +kernel⟩,
   ⟨wNw wNv (wNc 0 2 0 [0x77]), 1, 0, by decide +kernel⟩,
   ⟨wNw wNv (wNc 0 2 0 [0x77]), 1, 0, by decide +kernel⟩,
   ⟨wNw wNv (wNc 0 2 0 [0x77]), 1, 0, by decide +kernel⟩,
   ⟨wNw wNv (wNc 0 2 0 [0x77]), 1, 0, by decide +kernel⟩,
   ⟨wNw wNv (wNc 0 2 0 [0x77]), 1, 0, by decide +kernel⟩,
   ⟨wNw wNv (wNc 0 2 0 [0x77]), 1, 0, by decide +kernel⟩,
   ⟨wNw wNv (wNc 0 2 0 [0x77]), 1, 0, by decide +kernel⟩,
   ⟨wNw wNv (wNc 0 2 0 [0x77]), 1, 0, by decide +kernel⟩,
   ⟨wNw wNv (wNc 0 2 0 [0x77]), 1, 0, by decide +kernel⟩⟩

/-- NVMe admin commands and the self-test: clauses 10, 11, 12, 13, 14, 16, 17, 18, 19, 20. -/
theorem witness_NvmeAdminCommands_b :
    (∃ (s : State), ∃ (i : Nat), ∃ (cid : Nat), s.slicesUp = true ∧ ∃ (c : NvCmd), s.nvPending i 0 cid [2] = some c ∧ c.inst = i ∧ ∃ (st : Nat), s.logPage i (bitsOf (c.dw 10) 7 0) c.nsid (bitsOf (c.dw 14) 31 24) = Except.error st ∧ True) ∧
    (∃ (s : State), ∃ (i : Nat), ∃ (cid : Nat), s.slicesUp = true ∧ ∃ (c : NvCmd), s.nvPending i 0 cid [2] = some c ∧ c.inst = i ∧ bitsOf (c.dw 10) 7 0 ≠ 195 ∧ bitOf (c.dw 10) 15 = true ∧ ∃ (d : List Byte), s.logPage i (bitsOf (c.dw 10) 7 0) c.nsid (bitsOf (c.dw 14) 31 24) = Except.ok d ∧ leAt c.sqe 48 8 ≤ d.length ∧ ∃ (s1 : State), s.draw.nvSend c (slice d (leAt c.sqe 48 8) (4 * (bitsOf (c.dw 10) 31 16 + 65536 * bitsOf (c.dw 11) 15 0 + 1))) nvOk = (s1, NvRes.done nvOk) ∧ True) ∧
    (∃ (s : State), ∃ (i : Nat), ∃ (cid : Nat), s.slicesUp = true ∧ ∃ (c : NvCmd), s.nvPending i 0 cid [2] = some c ∧ c.inst = i ∧ bitsOf (c.dw 10) 7 0 ≠ 195 ∧ ∃ (d : List Byte), s.logPage i (bitsOf (c.dw 10) 7 0) c.nsid (bitsOf (c.dw 14) 31 24) = Except.ok d ∧ leAt c.sqe 48 8 ≤ d.length ∧ ∃ (s1 : State), ∃ (e : NvDone), s.draw.nvSend c (slice d (leAt c.sqe 48 8) (4 * (bitsOf (c.dw 10) 31 16 + 65536 * bitsOf (c.dw 11) 15 0 + 1))) nvOk = (s1, NvRes.done e) ∧ True) ∧
    (∃ (s : State), ∃ (i : Nat), ∃ (cid : Nat), s.slicesUp = true ∧ ∃ (c : NvCmd), s.nvPending i 0 cid [2] = some c ∧ c.inst = i ∧ ∃ (d : List Byte), s.logPage i (bitsOf (c.dw 10) 7 0) c.nsid (bitsOf (c.dw 14) 31 24) = Except.ok d ∧ d.length < leAt c.sqe 48 8) ∧
    (∃ (s : State), ∃ (i : Nat), ∃ (cid : Nat), s.slicesUp = true ∧ ∃ (c : NvCmd), s.nvPending i 0 cid [6] = some c ∧ c.inst = i ∧ ∃ (st : Nat), s.identify i (bitsOf (c.dw 10) 7 0) c.nsid (bitsOf (c.dw 11) 31 24) (bitsOf (c.dw 10) 31 16) = Except.error st ∧ True) ∧
    (∃ (s : State), ∃ (i : Nat), ∃ (cid : Nat), s.slicesUp = true ∧ ∃ (c : NvCmd), s.nvPending i 0 cid [8] = some c ∧ c.inst = i ∧ ∃ (x : NvCmd), List.find? (fun (x : NvCmd) => decide (x.inst = i ∧ x.sq = bitsOf (c.dw 10) 15 0 ∧ x.cid = bitsOf (c.dw 10) 31 16 ∧ x.id ≠ c.id)) s.nv.cmds = some x ∧ x.done = none ∧ x.issued = false) ∧
    (∃ (s : State), ∃ (i : Nat), ∃ (cid : Nat), s.slicesUp = true ∧ ∃ (c : NvCmd), s.nvPending i 0 cid [8] = some c ∧ c.inst = i ∧ ∃ (x : NvCmd), List.find? (fun (x : NvCmd) => decide (x.inst = i ∧ x.sq = bitsOf (c.dw 10) 15 0 ∧ x.cid = bitsOf (c.dw 10) 31 16 ∧ x.id ≠ c.id)) s.nv.cmds = some x ∧ x.done = none ∧ x.issued = true ∧ x.sq ≠ 0) ∧
    (∃ (s : State), ∃ (i : Nat), ∃ (cid : Nat), s.slicesUp = true ∧ ∃ (c : NvCmd), s.nvPending i 0 cid [8] = some c ∧ c.inst = i ∧ List.find? (fun (x : NvCmd) => decide (x.inst = i ∧ x.sq = bitsOf (c.dw 10) 15 0 ∧ x.cid = bitsOf (c.dw 10) 31 16 ∧ x.id ≠ c.id)) s.nv.cmds = none ∧ s.nvSq? i (bitsOf (c.dw 10) 15 0) = none) ∧
    (∃ (s : State), ∃ (i : Nat), ∃ (cid : Nat), s.slicesUp = true ∧ ∃ (c : NvCmd), s.nvPending i 0 cid [8] = some c ∧ c.inst = i ∧ List.find? (fun (x : NvCmd) => decide (x.inst = i ∧ x.sq = bitsOf (c.dw 10) 15 0 ∧ x.cid = bitsOf (c.dw 10) 31 16 ∧ x.id ≠ c.id)) s.nv.cmds = none ∧ ∃ (sq : NvSq), s.nvSq? i (bitsOf (c.dw 10) 15 0) = some sq ∧ sq.head ≠ sq.tail) ∧
    (∃ (s : State), ∃ (i : Nat), ∃ (cid : Nat), s.slicesUp = true ∧ ∃ (c : NvCmd), s.nvPending i 0 cid [9] = some c ∧ c.inst = i ∧ (featIds.contains (bitsOf (c.dw 10) 7 0) = false ∨ bitOf (c.dw 10) 31 = true ∨ bitsOf (c.dw 10) 7 0 = 14)) :=
  ⟨⟨nvmeAdminCommands_10_s, 1, 0, chk (dA inferInstance (dSome fun _ => (dA inferInstance (dEer fun _ => inferInstance)))) (by decide +kernel)⟩,
   ⟨nvmeAdminCommands_11_s, 1, 0, chk (dA inferInstance (dSome fun _ => (dA inferInstance (dA inferInstance (dA inferInstance (dEok fun _ => (dA inferInstance (dPC fun _ => inferInstance)))))))) (by decide +kernel)⟩,
   ⟨nvmeAdminCommands_12_s, 1, 0, chk (dA inferInstance (dSome fun _ => (dA inferInstance (dA inferInstance (dEok fun _ => (dA inferInstance (dPD fun _ _ => inferInstance))))))) (by decide +kernel)⟩,
   ⟨nvmeAdminCommands_13_s, 1, 0, chk (dA inferInstance (dSome fun _ => (dA inferInstance (dEok fun _ => inferInstance)))) (by decide +kernel)⟩,
   ⟨nvmeAdminCommands_14_s, 1, 0, chk (dA inferInstance (dSome fun _ => (dA inferInstance (dEer fun _ => inferInstance)))) (by decide +kernel)⟩,
   ⟨nvmeAdminCommands_16_s, 1, 0, chk (dA inferInstance (dSome fun _ => (dA inferInstance (dSome fun _ => inferInstance)))) (by decide +kernel)⟩,
   ⟨nvmeAdminCommands_17_s, 1, 0, chk (dA inferInstance (dSome fun _ => (dA inferInstance (dSome fun _ => inferInstance)))) (by decide +kernel)⟩,
   ⟨nvmeAdminCommands_18_s, 1, 0, chk (dA inferInstance (dSome fun _ => inferInstance)) (by decide +kernel)⟩,
   ⟨nvmeAdminCommands_19_s, 1, 0, chk (dA inferInstance (dSome fun _ => (dA inferInstance (dA inferInstance (dSome fun _ => inferInstance))))) (by decide +kernel)⟩,
   ⟨nvmeAdminCommands_20_s, 1, 0, chk (dA inferInstance (dSome fun _ => inferInstance)) (by decide +kernel)⟩⟩

/-- NVMe admin commands and the self-test: clauses 21, 22, 23, 24, 25, 26, 27, 28, 29, 30. -/
theorem witness_NvmeAdminCommands_c :
    (∃ (s : State), ∃ (i : Nat), ∃ (cid : Nat), s.slicesUp = true ∧ ∃ (c : NvCmd), s.nvPending i 0 cid [9] = some c ∧ c.inst = i ∧ bitOf (c.dw 10) 31 = false ∧ ∃ (fid : Nat), bitsOf (c.dw 10) 7 0 = fid ∧ (fid = 1 ∨ fid = 8 ∨ fid = 10 ∨ fid = 11)) ∧
    (∃ (s : State), ∃ (i : Nat), ∃ (cid : Nat), s.slicesUp = true ∧ ∃ (c : NvCmd), s.nvPending i 0 cid [9] = some c ∧ c.inst = i ∧ bitsOf (c.dw 10) 7 0 = 2 ∧ bitOf (c.dw 10) 31 = false ∧ bitsOf (c.dw 11) 4 0 ≤ 4) ∧
    (∃ (s : State), ∃ (i : Nat), ∃ (cid : Nat), s.slicesUp = true ∧ ∃ (c : NvCmd), s.nvPending i 0 cid [10] = some c ∧ c.inst = i ∧ bitsOf (c.dw 10) 10 8 ≠ 0) ∧
    (∃ (s : State), ∃ (i : Nat), ∃ (cid : Nat), s.slicesUp = true ∧ ∃ (c : NvCmd), s.nvPending i 0 cid [10] = some c ∧ c.inst = i ∧ bitsOf (c.dw 10) 10 8 = 0 ∧ s.featData i (bitsOf (c.dw 10) 7 0) (c.dw 11) = none) ∧
    (∃ (s : State), ∃ (i : Nat), ∃ (cid : Nat), s.slicesUp = true ∧ ∃ (c : NvCmd), s.nvPending i 0 cid [10] = some c ∧ c.inst = i ∧ bitsOf (c.dw 10) 10 8 = 0 ∧ ∃ (bs : List Byte), ∃ (d : Nat), s.featData i (bitsOf (c.dw 10) 7 0) (c.dw 11) = some (bs, d) ∧ ∃ (s1 : State), ∃ (e : NvDone), s.nvSend c bs { status := 0, dw0 := d } = (s1, NvRes.done e) ∧ True) ∧
    (∃ (s : State), ∃ (i : Nat), ∃ (cid : Nat), s.slicesUp = true ∧ ∃ (c : NvCmd), s.nvPending i 0 cid [10] = some c ∧ c.inst = i ∧ bitsOf (c.dw 10) 10 8 = 0 ∧ bitsOf (c.dw 10) 7 0 = 11) ∧
    (∃ (s : State), ∃ (i : Nat), ∃ (cid : Nat), s.slicesUp = true ∧ 4 ≤ (List.filter (fun (x : NvCmd) => decide (x.inst = i ∧ x.sq = 0 ∧ x.opc = 12) && x.issued && x.done.isNone) s.nv.cmds).length ∧ ∃ (c : NvCmd), s.nvPending i 0 cid [12] = some c ∧ c.inst = i) ∧
    (∃ (s : State), ∃ (i : Nat), ∃ (cid : Nat), s.slicesUp = true ∧ (List.filter (fun (x : NvCmd) => decide (x.inst = i ∧ x.sq = 0 ∧ x.opc = 12) && x.issued && x.done.isNone) s.nv.cmds).length < 4 ∧ (s.nvc i).events = [] ∧ ∃ (c : NvCmd), s.nvPending i 0 cid [12] = some c ∧ c.inst = i) ∧
    (∃ (s : State), ∃ (i : Nat), ∃ (cid : Nat), s.slicesUp = true ∧ ∃ (c : NvCmd), s.nvPending i 0 cid [13] = some c ∧ c.inst = i ∧ bitsOf (c.dw 10) 3 0 = 1 ∧ c.nsid ≠ 4294967295) ∧
    (∃ (s : State), ∃ (i : Nat), ∃ (cid : Nat), s.slicesUp = true ∧ ∃ (c : NvCmd), s.nvPending i 0 cid [13] = some c ∧ c.inst = i ∧ bitsOf (c.dw 10) 3 0 = 0 ∧ ∃ (s1 : State), ∃ (d : List Byte), s.nvFetch c 4096 = (s1, NvData.ok d) ∧ (s1.cmdNow c).sqe = c.sqe ∧ ∃ (s2 : State), ∃ (r : Except Nat Nat), s1.nsCreate c.slice (2 ^ 40 + c.id) { csi := bitsOf (c.dw 11) 31 24, data := d } = (s2, some r) ∧ True) :=
  ⟨⟨nvmeAdminCommands_21_s, 1, 0, chk (dA inferInstance (dSome fun _ => (dA inferInstance (dA inferInstance (dVar fun _ => inferInstance))))) (by decide +kernel)⟩,
   ⟨nvmeAdminCommands_22_s, 1, 0, chk (dA inferInstance (dSome fun _ => inferInstance)) (by decide +kernel)⟩,
   ⟨nvmeAdminCommands_23_s, 1, 0, chk (dA inferInstance (dSome fun _ => inferInstance)) (by decide +kernel)⟩,
   ⟨nvmeAdminCommands_24_s, 1, 0, chk (dA inferInstance (dSome fun _ => inferInstance)) (by decide +kernel)⟩,
   ⟨nvmeAdminCommands_25_s, 1, 0, chk (dA inferInstance (dSome fun _ => (dA inferInstance (dA inferInstance (dSome2 fun _ _ => (dPD fun _ _ => inferInstance)))))) (by decide +kernel)⟩,
   ⟨nvmeAdminCommands_26_s, 1, 0, chk (dA inferInstance (dSome fun _ => inferInstance)) (by decide +kernel)⟩,
   ⟨nvmeAdminCommands_27_s, 1, 0, chk (dA inferInstance (dA inferInstance (dSome fun _ => inferInstance))) (by decide +kernel)⟩,
   ⟨wNw wNv (wNc 0 12 0 []), 1, 0, chk (dA inferInstance (dA inferInstance (dA inferInstance (dSome fun _ => inferInstance)))) (by decide +kernel)⟩,
   ⟨nvmeAdminCommands_29_s, 1, 0, chk (dA inferInstance (dSome fun _ => inferInstance)) (by decide +kernel)⟩,
   ⟨wNw wNv (wNc 0 13 0 [0]), 1, 0, chk (dA inferInstance (dSome fun _ => (dA inferInstance (dA inferInstance (dND fun _ _ => (dA inferInstance (dPS fun _ _ => inferInstance))))))) (by decide +kernel)⟩⟩

/-- NVMe admin commands and the self-test: clauses 31, 32, 33, 34, 35, 36, 37, 38, 39, 40. -/
theorem witness_NvmeAdminCommands_d :
    (∃ (s : State), ∃ (i : Nat), ∃ (cid : Nat), s.slicesUp = true ∧ ∃ (c : NvCmd), s.nvPending i 0 cid [13] = some c ∧ c.inst = i ∧ 1 < bitsOf (c.dw 10) 3 0) ∧
    (∃ (s : State), ∃ (i : Nat), ∃ (cid : Nat), s.slicesUp = true ∧ ∃ (c : NvCmd), s.nvPending i 0 cid [21] = some c ∧ c.inst = i ∧ 1 < bitsOf (c.dw 10) 3 0) ∧
    (∃ (s : State), ∃ (i : Nat), ∃ (cid : Nat), s.slicesUp = true ∧ ∃ (c : NvCmd), s.nvPending i 0 cid [21] = some c ∧ c.inst = i ∧ bitsOf (c.dw 10) 3 0 ≤ 1 ∧ ∃ (s1 : State), ∃ (d : List Byte), s.nvFetch c 4096 = (s1, NvData.ok d) ∧ True) ∧
    (∃ (s : State), ∃ (i : Nat), ∃ (cid : Nat), s.slicesUp = true ∧ ∃ (c : NvCmd), s.nvPending i 0 cid [128] = some c ∧ c.inst = i ∧ bitsOf (c.dw 10) 8 4 ≠ 0) ∧
    (∃ (s : State), ∃ (i : Nat), ∃ (cid : Nat), s.slicesUp = true ∧ ∃ (c : NvCmd), s.nvPending i 0 cid [128] = some c ∧ c.inst = i ∧ bitsOf (c.dw 10) 8 4 = 0 ∧ c.nsid ≠ 4294967295 ∧ (s.nv.cmds.any fun (y : NvCmd) => decide (y.sq ≠ 0 ∧ y.nsid = c.nsid) && y.issued && y.done.isNone) = true) ∧
    (∃ (s : State), ∃ (i : Nat), ∃ (cid : Nat), s.slicesUp = true ∧ ∃ (c : NvCmd), s.nvPending i 0 cid [128] = some c ∧ c.inst = i ∧ bitsOf (c.dw 10) 8 4 = 0 ∧ c.nsid ≠ 4294967295 ∧ (s.nv.cmds.any fun (y : NvCmd) => decide (y.sq ≠ 0 ∧ y.nsid = c.nsid) && y.issued && y.done.isNone) = false ∧ ∃ (s1 : State), ∃ (st : Nat), s.nsFormat c.slice (2 ^ 40 + c.id * 2048 + c.nsid) c.nsid (bitsOf (c.dw 10) 3 0) (bitsOf (c.dw 10) 11 9) = (s1, some st) ∧ True) ∧
    (∃ (s : State), ∃ (i : Nat), ∃ (cid : Nat), s.slicesUp = true ∧ ∃ (c : NvCmd), s.nvPending i 0 cid [20] = some c ∧ c.inst = i ∧ (bitsOf (c.dw 10) 3 0 = 1 ∨ bitsOf (c.dw 10) 3 0 = 2) ∧ ∃ (x : SelfTest), s.nv.test = some x ∧ True) ∧
    (∃ (s : State), ∃ (i : Nat), ∃ (cid : Nat), s.slicesUp = true ∧ ∃ (c : NvCmd), s.nvPending i 0 cid [20] = some c ∧ c.inst = i ∧ bitsOf (c.dw 10) 3 0 = 15 ∧ ∃ (x : SelfTest), s.nv.test = some x ∧ True) ∧
    (∃ (s : State), ∃ (i : Nat), ∃ (cid : Nat), s.slicesUp = true ∧ ∃ (c : NvCmd), s.nvPending i 0 cid [20] = some c ∧ c.inst = i ∧ bitsOf (c.dw 10) 3 0 ≠ 1 ∧ bitsOf (c.dw 10) 3 0 ≠ 2 ∧ bitsOf (c.dw 10) 3 0 ≠ 15) ∧
    (∃ (s : State), ∃ (i : Nat), ∃ (cid : Nat), s.slicesUp = true ∧ s.nv.test = none ∧ ∃ (c : NvCmd), s.nvPending i 0 cid [20] = some c ∧ c.inst = i ∧ bitsOf (c.dw 10) 3 0 = 15) :=
  ⟨⟨nvmeAdminCommands_31_s, 1, 0, chk (dA inferInstance (dSome fun _ => inferInstance)) (by decide +kernel)⟩,
   ⟨nvmeAdminCommands_32_s, 1, 0, chk (dA inferInstance (dSome fun _ => inferInstance)) (by decide +kernel)⟩,
   ⟨nvmeAdminCommands_33_s, 1, 0, chk (dA inferInstance (dSome fun _ => (dA inferInstance (dA inferInstance (dND fun _ _ => inferInstance))))) (by decide +kernel)⟩,
   ⟨nvmeAdminCommands_34_s, 1, 0, chk (dA inferInstance (dSome fun _ => inferInstance)) (by decide +kernel)⟩,
   ⟨nvmeAdminCommands_35_s, 1, 0, chk (dA inferInstance (dSome fun _ => inferInstance)) (by decide +kernel)⟩,
   ⟨nvmeAdminCommands_36_s, 1, 0, chk (dA inferInstance (dSome fun _ => (dA inferInstance (dA inferInstance (dA inferInstance (dA inferInstance (dPS fun _ _ => inferInstance))))))) (by decide +kernel)⟩,
   ⟨nvmeAdminCommands_37_s, 1, 0, chk (dA inferInstance (dSome fun _ => (dA inferInstance (dA inferInstance (dSome fun _ => inferInstance))))) (by decide +kernel)⟩,
   ⟨nvmeAdminCommands_38_s, 1, 0, chk (dA inferInstance (dSome fun _ => (dA inferInstance (dA inferInstance (dSome fun _ => inferInstance))))) (by decide +kernel)⟩,
   ⟨nvmeAdminCommands_39_s, 1, 0, chk (dA inferInstance (dSome fun _ => inferInstance)) (by decide +kernel)⟩,
   ⟨nvmeAdminCommands_40_s, 1, 0, chk (dA inferInstance (dA inferInstance (dSome fun _ => inferInstance))) (by decide +kernel)⟩⟩

/-- NVMe admin commands and the self-test: clauses 41, 42, 43, 44, 45, 46, 47, 48, 49, 50. -/
theorem witness_NvmeAdminCommands_e :
    (∃ (s : State), ∃ (i : Nat), ∃ (cid : Nat), s.slicesUp = true ∧ s.nv.test = none ∧ ∃ (c : NvCmd), s.nvPending i 0 cid [20] = some c ∧ c.inst = i ∧ c.nsid ≠ 0 ∧ c.nsid ≠ 4294967295 ∧ s.ns? c.nsid = none ∧ ∃ (code : Nat), bitsOf (c.dw 10) 3 0 = code ∧ (code = 1 ∨ code = 2)) ∧
    (∃ (s : State), ∃ (i : Nat), ∃ (cid : Nat), s.slicesUp = true ∧ s.nv.test = none ∧ ∃ (c : NvCmd), s.nvPending i 0 cid [20] = some c ∧ c.inst = i ∧ (c.nsid = 0 ∨ c.nsid = 4294967295 ∨ (s.ns? c.nsid).isSome = true) ∧ ∃ (code : Nat), bitsOf (c.dw 10) 3 0 = code ∧ (code = 1 ∨ code = 2)) ∧
    (∃ (s : State), ∃ (pass : Bool), ∃ (waitNs : Option Nat), s.slicesUp = true ∧ s.nv.test = none) ∧
    (∃ (s : State), ∃ (pass : Bool), ∃ (waitNs : Option Nat), s.slicesUp = true ∧ ∃ (x : SelfTest), s.nv.test = some x ∧ s.testBlocked x.segment x.step = true) ∧
    (∃ (s : State), ∃ (pass : Bool), ∃ (waitNs : Option Nat), s.slicesUp = true ∧ ∃ (x : SelfTest), s.nv.test = some x ∧ s.testBlocked x.segment x.step = false ∧ ∃ (n : Nat), waitNs = some n ∧ True) ∧
    (∃ (s : State), s.slicesUp = true ∧ ∃ (x : SelfTest), s.nv.test = some x ∧ s.testBlocked x.segment x.step = false ∧ x.segment ≠ 7) ∧
    (∃ (s : State), s.slicesUp = true ∧ ∃ (x : SelfTest), s.nv.test = some x ∧ s.testBlocked x.segment x.step = false ∧ x.segment = 7) ∧
    (∃ (s : State), s.slicesUp = true ∧ ∃ (x : SelfTest), s.nv.test = some x ∧ s.testBlocked x.segment x.step = false ∧ x.step + 1 < s.testSteps x.segment) ∧
    (∃ (s : State), s.slicesUp = true ∧ ∃ (x : SelfTest), s.nv.test = some x ∧ s.testBlocked x.segment x.step = false ∧ s.testSteps x.segment ≤ x.step + 1 ∧ x.segment = if x.code = 1 then 5 else 7) ∧
    (∃ (s : State), s.slicesUp = true ∧ ∃ (x : SelfTest), s.nv.test = some x ∧ s.testBlocked x.segment x.step = false ∧ s.testSteps x.segment ≤ x.step + 1 ∧ x.segment ≠ if x.code = 1 then 5 else 7) :=
  ⟨⟨nvmeAdminCommands_41_s, 1, 0, chk (dA inferInstance (dA inferInstance (dSome fun _ => (dA inferInstance (dA inferInstance (dA inferInstance (dA inferInstance (dVar fun _ => inferInstance)))))))) (by decide +kernel)⟩,
   ⟨nvmeAdminCommands_42_s, 1, 0, chk (dA inferInstance (dA inferInstance (dSome fun _ => (dA inferInstance (dA inferInstance (dVar fun _ => inferInstance)))))) (by decide +kernel)⟩,
   ⟨wNw wNv (wNc 0 2 0 [0x77]), false, none, by decide +kernel⟩,
   ⟨nvmeAdminCommands_44_s, false, none, chk (dA inferInstance (dSome fun _ => inferInstance)) (by decide +kernel)⟩,
   ⟨nvmeAdminCommands_45_s, false, some 0, chk (dA inferInstance (dSome fun _ => (dA inferInstance (dSome fun _ => inferInstance)))) (by decide +kernel)⟩,
   ⟨nvmeAdminCommands_46_s, chk (dA inferInstance (dSome fun _ => inferInstance)) (by decide +kernel)⟩,
   ⟨nvmeAdminCommands_47_s, chk (dA inferInstance (dSome fun _ => inferInstance)) (by decide +kernel)⟩,
   ⟨nvmeAdminCommands_48_s, chk (dA inferInstance (dSome fun _ => inferInstance)) (by decide +kernel)⟩,
   ⟨nvmeAdminCommands_49_s, chk (dA inferInstance (dSome fun _ => inferInstance)) (by decide +kernel)⟩,
   ⟨nvmeAdminCommands_50_s, chk (dA inferInstance (dSome fun _ => inferInstance)) (by decide +kernel)⟩⟩

def nvmeReadsWritesAndAppends_16_s : State :=
  wNw (wNs wN1) (wNc 1 0 1 [])

def nvmeReadsWritesAndAppends_17_s : State :=
  wNw (wNs (wZn {} true)) (wNc 1 1 1 [])

def nvmeReadsWritesAndAppends_18_s : State :=
  wNw (wNs (wZn {} true)) (wNc 1 8 1 [])

def nvmeReadsWritesAndAppends_19_s : State :=
  wNw (wNs (wZn {} true)) (wNc 1 9 1 [])

def nvmeReadsWritesAndAppends_20_s : State :=
  wNw (wNs wN1) (wNc 1 1 1 [1024])

def nvmeReadsWritesAndAppends_21_s : State :=
  w1 (wNw (wNs wN1) (wNc 1 1 1 [7, 0, 0])) (F.AFF_STATE 0) affReadOnly

def nvmeReadsWritesAndAppends_22_s : State :=
  w1 (wNw (wNs wN1) (wNc 1 8 1 [7, 0, 0])) (F.AFF_STATE 0) affReadOnly

def nvmeReadsWritesAndAppends_23_s : State :=
  w1 (wNw (wNs (wZn {} true)) (wNc 1 0x7D 1 [0, 0, 0])) (F.AFF_STATE 0) affReadOnly

def nvmeReadsWritesAndAppends_24_s : State :=
  wNw (wNs { wN1 with nsze := 100000 }) (wNc 1 2 1 [0, 0, 0xFFFF])

def nvmeReadsWritesAndAppends_25_s : State :=
  wNw (wNs { wN1 with nsze := 100000 }) (wNc 1 1 1 [0, 0, 0xFFFF])

def nvmeReadsWritesAndAppends_26_s : State :=
  wNw (wNs wN1) (wNc 1 12 1 [1024])

def nvmeReadsWritesAndAppends_27_s : State :=
  wNw (wNs wN1) (wNc 1 8 1 [1024])

def nvmeReadsWritesAndAppends_28_s : State :=
  wNw (wNs (wZn {} true)) (wNc 1 0x7D 1 [2 * zoneSize, 0, 0])

def nvmeReadsWritesAndAppends_29_s : State :=
  { wNw (wNs wN1) (wNc 1 2 1 [7, 0, 0]) with eth.pbMin := [], eth.pbMax := [] }

def nvmeReadsWritesAndAppends_30_s : State :=
  wNw (wNs wN1) (wNc 1 2 1 [1024])

def nvmeReadsWritesAndAppends_31_s : State :=
  wNk (wNw (wNs wN1) { wNc 1 1 1 [7, 0, 0] with data := some (List.replicate 4096 9) }) wN1

def nvmeReadsWritesAndAppends_32_s : State :=
  wNw (wNs wN1) { wNc 1 2 1 [7, 0, 0] with data := some (List.replicate 4096 9) }

def nvmeReadsWritesAndAppends_33_s : State :=
  wNw (wNs wN1) (wNc 1 8 1 [7, 0, 3])

def nvmeReadsWritesAndAppends_34_s : State :=
  wNw (wNs wN1) { wNc 1 9 1 [0, 0] with data := some (List.replicate 16 0) }

def nvmeReadsWritesAndAppends_35_s : State :=
  wNw (wNs wN1) (wNc 1 12 1 [7, 0, 3])

def nvmeReadsWritesAndAppends_36_s : State :=
  wNw (wNs (wZn {} true)) (wNc 1 0x7D 1 [1, 0, 0])

def nvmeReadsWritesAndAppends_37_s : State :=
  wNk (wNw (wNs (wZn {} true)) { wNc 1 0x7D 1 [0, 0, 0] with data := some (List.replicate 4096 9) }) (wZn {} true)

def nvmeReadsWritesAndAppends_38_s : State :=
  wNw (wNs (wZn {} true)) (wNc 1 0x86 1 [0, 0, 0])

def nvmeReadsWritesAndAppends_40_s : State :=
  { wNs (wZn {} true) with nv.appends := [wApp false] }

def nvmeReadsWritesAndAppends_41_s : State :=
  { wNs (wZn {} true) with nv.appends := [wApp true] }

def nvmeReadsWritesAndAppends_43_s : State :=
  wSealK { wNs (wZn {} true) with nv.appends := [wApp true] }

def nvmeReadsWritesAndAppends_44_s : State :=
  wSealK { wNs (wZn {} true) with nv.appends := [wApp true] }

/-- NVMe I/O commands on namespaces: clauses 0, 1, 2, 3, 4, 5, 6, 7, 8, 9. -/
theorem witness_NvmeReadsWritesAndAppends_a :
    (∃ (s : State), ∃ (i : Nat), ∃ (q : Nat), ∃ (cid : Nat), s.slicesUp = true ∧ (s.nvPending i q cid [0] = none ∨ q = 0)) ∧
    (∃ (s : State), ∃ (i : Nat), ∃ (q : Nat), ∃ (cid : Nat), s.slicesUp = true ∧ (s.nvPending i q cid [1] = none ∨ q = 0)) ∧
    (∃ (s : State), ∃ (i : Nat), ∃ (q : Nat), ∃ (cid : Nat), s.slicesUp = true ∧ (s.nvPending i q cid [2] = none ∨ q = 0)) ∧
    (∃ (s : State), ∃ (i : Nat), ∃ (q : Nat), ∃ (cid : Nat), s.slicesUp = true ∧ (s.nvPending i q cid [8] = none ∨ q = 0)) ∧
    (∃ (s : State), ∃ (i : Nat), ∃ (q : Nat), ∃ (cid : Nat), s.slicesUp = true ∧ (s.nvPending i q cid [9] = none ∨ q = 0)) ∧
    (∃ (s : State), ∃ (i : Nat), ∃ (q : Nat), ∃ (cid : Nat), s.slicesUp = true ∧ (s.nvPending i q cid [12] = none ∨ q = 0)) ∧
    (∃ (s : State), ∃ (i : Nat), ∃ (q : Nat), ∃ (cid : Nat), s.slicesUp = true ∧ (s.nvPending i q cid [125] = none ∨ q = 0)) ∧
    (∃ (s : State), ∃ (i : Nat), ∃ (q : Nat), ∃ (cid : Nat), s.slicesUp = true ∧ (s.nvPending i q cid [134] = none ∨ q = 0)) ∧
    (∃ (s : State), ∃ (i : Nat), ∃ (q : Nat), ∃ (cid : Nat), s.slicesUp = true ∧ q ≠ 0 ∧ ∃ (c : NvCmd), s.nvPending i q cid [1] = some c ∧ s.ns? c.nsid = none) ∧
    (∃ (s : State), ∃ (i : Nat), ∃ (q : Nat), ∃ (cid : Nat), s.slicesUp = true ∧ q ≠ 0 ∧ ∃ (c : NvCmd), s.nvPending i q cid [2] = some c ∧ s.ns? c.nsid = none) :=
  ⟨⟨wNw (wNs wN1) (wNc 1 0 1 []), 1, 1, 1, by decide +kernel⟩,
   ⟨wNw (wNs wN1) (wNc 1 0 1 []), 1, 1, 0, by decide +kernel⟩,
   ⟨wNw (wNs wN1) (wNc 1 0 1 []), 1, 1, 0, by decide +kernel⟩,
   ⟨wNw (wNs wN1) (wNc 1 0 1 []), 1, 1, 0, by decide +kernel⟩,
   ⟨wNw (wNs wN1) (wNc 1 0 1 []), 1, 1, 0, by decide +kernel⟩,
   ⟨wNw (wNs wN1) (wNc 1 0 1 []), 1, 1, 0, by decide +kernel⟩,
   ⟨wNw (wNs wN1) (wNc 1 0 1 []), 1, 1, 0, by decide +kernel⟩,
   ⟨wNw (wNs wN1) (wNc 1 0 1 []), 1, 1, 0, by decide +kernel⟩,
   ⟨wNw wNv (wNc 1 1 9 []), 1, 1, 0, chk (dA inferInstance (dA inferInstance (dSome fun _ => inferInstance))) (by decide +kernel)⟩,
   ⟨wNw wNv (wNc 1 2 9 []), 1, 1, 0, chk (dA inferInstance (dA inferInstance (dSome fun _ => inferInstance))) (by decide +kernel)⟩⟩

/-- NVMe I/O commands on namespaces: clauses 10, 11, 12, 13, 14, 15, 16, 17, 18, 19. -/
theorem witness_NvmeReadsWritesAndAppends_b :
    (∃ (s : State), ∃ (i : Nat), ∃ (q : Nat), ∃ (cid : Nat), s.slicesUp = true ∧ q ≠ 0 ∧ ∃ (c : NvCmd), s.nvPending i q cid [8] = some c ∧ s.ns? c.nsid = none) ∧
    (∃ (s : State), ∃ (i : Nat), ∃ (q : Nat), ∃ (cid : Nat), s.slicesUp = true ∧ q ≠ 0 ∧ ∃ (c : NvCmd), s.nvPending i q cid [9] = some c ∧ s.ns? c.nsid = none) ∧
    (∃ (s : State), ∃ (i : Nat), ∃ (q : Nat), ∃ (cid : Nat), s.slicesUp = true ∧ q ≠ 0 ∧ ∃ (c : NvCmd), s.nvPending i q cid [12] = some c ∧ s.ns? c.nsid = none) ∧
    (∃ (s : State), ∃ (i : Nat), ∃ (q : Nat), ∃ (cid : Nat), s.slicesUp = true ∧ q ≠ 0 ∧ ∃ (c : NvCmd), s.nvPending i q cid [125] = some c ∧ s.ns? c.nsid = none) ∧
    (∃ (s : State), ∃ (i : Nat), ∃ (q : Nat), ∃ (cid : Nat), s.slicesUp = true ∧ q ≠ 0 ∧ ∃ (c : NvCmd), s.nvPending i q cid [134] = some c ∧ s.ns? c.nsid = none) ∧
    (∃ (s : State), ∃ (nsid : Nat), ∃ (z : Nat), ∃ (alarm : Bool), s.slicesUp = true ∧ (List.find? (fun (a : ZApp) => decide (a.nsid = nsid ∧ a.zone = z)) s.nv.appends = none ∨ s.ns? nsid = none)) ∧
    (∃ (s : State), ∃ (i : Nat), ∃ (q : Nat), ∃ (cid : Nat), s.slicesUp = true ∧ q ≠ 0 ∧ ∃ (c : NvCmd), s.nvPending i q cid [0] = some c ∧ ∃ (n : NsState), s.ns? c.nsid = some n ∧ True) ∧
    (∃ (s : State), ∃ (i : Nat), ∃ (q : Nat), ∃ (cid : Nat), s.slicesUp = true ∧ q ≠ 0 ∧ ∃ (c : NvCmd), s.nvPending i q cid [1] = some c ∧ ∃ (n : NsState), s.ns? c.nsid = some n ∧ n.acc = true) ∧
    (∃ (s : State), ∃ (i : Nat), ∃ (q : Nat), ∃ (cid : Nat), s.slicesUp = true ∧ q ≠ 0 ∧ ∃ (c : NvCmd), s.nvPending i q cid [8] = some c ∧ ∃ (n : NsState), s.ns? c.nsid = some n ∧ n.acc = true) ∧
    (∃ (s : State), ∃ (i : Nat), ∃ (q : Nat), ∃ (cid : Nat), s.slicesUp = true ∧ q ≠ 0 ∧ ∃ (c : NvCmd), s.nvPending i q cid [9] = some c ∧ ∃ (n : NsState), s.ns? c.nsid = some n ∧ n.acc = true) :=
  ⟨⟨wNw wNv (wNc 1 8 9 []), 1, 1, 0, chk (dA inferInstance (dA inferInstance (dSome fun _ => inferInstance))) (by decide +kernel)⟩,
   ⟨wNw wNv (wNc 1 9 9 []), 1, 1, 0, chk (dA inferInstance (dA inferInstance (dSome fun _ => inferInstance))) (by decide +kernel)⟩,
   ⟨wNw wNv (wNc 1 12 9 []), 1, 1, 0, chk (dA inferInstance (dA inferInstance (dSome fun _ => inferInstance))) (by decide +kernel)⟩,
   ⟨wNw wNv (wNc 1 125 9 []), 1, 1, 0, chk (dA inferInstance (dA inferInstance (dSome fun _ => inferInstance))) (by decide +kernel)⟩,
   ⟨wNw wNv (wNc 1 134 9 []), 1, 1, 0, chk (dA inferInstance (dA inferInstance (dSome fun _ => inferInstance))) (by decide +kernel)⟩,
   ⟨wNw (wNs wN1) (wNc 1 0 1 []), 1, 0, false, by decide +kernel⟩,
   ⟨nvmeReadsWritesAndAppends_16_s, 1, 1, 0, chk (dA inferInstance (dA inferInstance (dSome fun _ => (dSome fun _ => inferInstance)))) (by decide +kernel)⟩,
   ⟨nvmeReadsWritesAndAppends_17_s, 1, 1, 0, chk (dA inferInstance (dA inferInstance (dSome fun _ => (dSome fun _ => inferInstance)))) (by decide +kernel)⟩,
   ⟨nvmeReadsWritesAndAppends_18_s, 1, 1, 0, chk (dA inferInstance (dA inferInstance (dSome fun _ => (dSome fun _ => inferInstance)))) (by decide +kernel)⟩,
   ⟨nvmeReadsWritesAndAppends_19_s, 1, 1, 0, chk (dA inferInstance (dA inferInstance (dSome fun _ => (dSome fun _ => inferInstance)))) (by decide +kernel)⟩⟩

/-- NVMe I/O commands on namespaces: clauses 20, 21, 22, 23, 24, 25, 26, 27, 28, 29. -/
theorem witness_NvmeReadsWritesAndAppends_c :
    (∃ (s : State), ∃ (i : Nat), ∃ (q : Nat), ∃ (cid : Nat), s.slicesUp = true ∧ q ≠ 0 ∧ s.mediaReadOnly = false ∧ ∃ (c : NvCmd), s.nvPending i q cid [1] = some c ∧ ∃ (n : NsState), s.ns? c.nsid = some n ∧ n.acc = false ∧ n.nsze < c.slba + c.nlb) ∧
    (∃ (s : State), ∃ (i : Nat), ∃ (q : Nat), ∃ (cid : Nat), s.slicesUp = true ∧ q ≠ 0 ∧ s.mediaReadOnly = true ∧ ∃ (c : NvCmd), s.nvPending i q cid [1] = some c ∧ ∃ (n : NsState), s.ns? c.nsid = some n ∧ n.acc = false) ∧
    (∃ (s : State), ∃ (i : Nat), ∃ (q : Nat), ∃ (cid : Nat), s.slicesUp = true ∧ q ≠ 0 ∧ s.mediaReadOnly = true ∧ ∃ (c : NvCmd), s.nvPending i q cid [8] = some c ∧ ∃ (n : NsState), s.ns? c.nsid = some n ∧ n.acc = false) ∧
    (∃ (s : State), ∃ (i : Nat), ∃ (q : Nat), ∃ (cid : Nat), s.slicesUp = true ∧ q ≠ 0 ∧ s.mediaReadOnly = true ∧ ∃ (c : NvCmd), s.nvPending i q cid [125] = some c ∧ ∃ (n : NsState), s.ns? c.nsid = some n ∧ True) ∧
    (∃ (s : State), ∃ (i : Nat), ∃ (q : Nat), ∃ (cid : Nat), s.slicesUp = true ∧ q ≠ 0 ∧ ∃ (c : NvCmd), s.nvPending i q cid [2] = some c ∧ ∃ (n : NsState), s.ns? c.nsid = some n ∧ c.slba + c.nlb ≤ n.nsze ∧ n.csi ≠ 2 ∧ mdtsBytes < c.nlb * n.bs) ∧
    (∃ (s : State), ∃ (i : Nat), ∃ (q : Nat), ∃ (cid : Nat), s.slicesUp = true ∧ q ≠ 0 ∧ s.mediaReadOnly = false ∧ ∃ (c : NvCmd), s.nvPending i q cid [1] = some c ∧ ∃ (n : NsState), s.ns? c.nsid = some n ∧ c.slba + c.nlb ≤ n.nsze ∧ n.csi ≠ 2 ∧ mdtsBytes < c.nlb * n.bs ∧ n.acc = false) ∧
    (∃ (s : State), ∃ (i : Nat), ∃ (q : Nat), ∃ (cid : Nat), s.slicesUp = true ∧ q ≠ 0 ∧ ∃ (c : NvCmd), s.nvPending i q cid [12] = some c ∧ ∃ (n : NsState), s.ns? c.nsid = some n ∧ n.nsze < c.slba + c.nlb) ∧
    (∃ (s : State), ∃ (i : Nat), ∃ (q : Nat), ∃ (cid : Nat), s.slicesUp = true ∧ q ≠ 0 ∧ s.mediaReadOnly = false ∧ ∃ (c : NvCmd), s.nvPending i q cid [8] = some c ∧ ∃ (n : NsState), s.ns? c.nsid = some n ∧ n.acc = false ∧ n.nsze < c.slba + c.nlb) ∧
    (∃ (s : State), ∃ (i : Nat), ∃ (q : Nat), ∃ (cid : Nat), s.slicesUp = true ∧ q ≠ 0 ∧ s.mediaReadOnly = false ∧ ∃ (c : NvCmd), s.nvPending i q cid [125] = some c ∧ ∃ (n : NsState), s.ns? c.nsid = some n ∧ n.nsze ≤ c.slba) ∧
    (∃ (s : State), ∃ (i : Nat), ∃ (q : Nat), ∃ (cid : Nat), s.slicesUp = true ∧ q ≠ 0 ∧ ∃ (c : NvCmd), s.nvPending i q cid [2] = some c ∧ ∃ (n : NsState), s.ns? c.nsid = some n ∧ c.slba + c.nlb ≤ n.nsze ∧ n.csi ≠ 2 ∧ c.nlb * n.bs ≤ mdtsBytes ∧ ∃ (s1 : State), s.nvCells c (c.nlb * n.bs) = (s1, false) ∧ True) :=
  ⟨⟨nvmeReadsWritesAndAppends_20_s, 1, 1, 0, chk (dA inferInstance (dA inferInstance (dA inferInstance (dSome fun _ => (dSome fun _ => inferInstance))))) (by decide +kernel)⟩,
   ⟨nvmeReadsWritesAndAppends_21_s, 1, 1, 0, chk (dA inferInstance (dA inferInstance (dA inferInstance (dSome fun _ => (dSome fun _ => inferInstance))))) (by decide +kernel)⟩,
   ⟨nvmeReadsWritesAndAppends_22_s, 1, 1, 0, chk (dA inferInstance (dA inferInstance (dA inferInstance (dSome fun _ => (dSome fun _ => inferInstance))))) (by decide +kernel)⟩,
   ⟨nvmeReadsWritesAndAppends_23_s, 1, 1, 0, chk (dA inferInstance (dA inferInstance (dA inferInstance (dSome fun _ => (dSome fun _ => inferInstance))))) (by decide +kernel)⟩,
   ⟨nvmeReadsWritesAndAppends_24_s, 1, 1, 0, chk (dA inferInstance (dA inferInstance (dSome fun _ => (dSome fun _ => inferInstance)))) (by decide +kernel)⟩,
   ⟨nvmeReadsWritesAndAppends_25_s, 1, 1, 0, chk (dA inferInstance (dA inferInstance (dA inferInstance (dSome fun _ => (dSome fun _ => inferInstance))))) (by decide +kernel)⟩,
   ⟨nvmeReadsWritesAndAppends_26_s, 1, 1, 0, chk (dA inferInstance (dA inferInstance (dSome fun _ => (dSome fun _ => inferInstance)))) (by decide +kernel)⟩,
   ⟨nvmeReadsWritesAndAppends_27_s, 1, 1, 0, chk (dA inferInstance (dA inferInstance (dA inferInstance (dSome fun _ => (dSome fun _ => inferInstance))))) (by decide +kernel)⟩,
   ⟨nvmeReadsWritesAndAppends_28_s, 1, 1, 0, chk (dA inferInstance (dA inferInstance (dA inferInstance (dSome fun _ => (dSome fun _ => inferInstance))))) (by decide +kernel)⟩,
   ⟨nvmeReadsWritesAndAppends_29_s, 1, 1, 0, chk (dA inferInstance (dA inferInstance (dSome fun _ => (dSome fun _ => (dA inferInstance (dA inferInstance (dA inferInstance (dPC fun _ => inferInstance)))))))) (by decide +kernel)⟩⟩

/-- NVMe I/O commands on namespaces: clauses 30, 31, 32, 33, 34, 35, 36, 37, 38, 40. -/
theorem witness_NvmeReadsWritesAndAppends_d :
    (∃ (s : State), ∃ (i : Nat), ∃ (q : Nat), ∃ (cid : Nat), s.slicesUp = true ∧ q ≠ 0 ∧ ∃ (c : NvCmd), s.nvPending i q cid [2] = some c ∧ ∃ (n : NsState), s.ns? c.nsid = some n ∧ n.nsze < c.slba + c.nlb) ∧
    (∃ (s : State), ∃ (i : Nat), ∃ (q : Nat), ∃ (cid : Nat), s.slicesUp = true ∧ q ≠ 0 ∧ s.mediaReadOnly = false ∧ ∃ (c : NvCmd), s.nvPending i q cid [1] = some c ∧ ∃ (n : NsState), s.ns? c.nsid = some n ∧ n.acc = false ∧ n.csi ≠ 2 ∧ c.slba + c.nlb ≤ n.nsze ∧ c.nlb * n.bs ≤ mdtsBytes ∧ ∃ (s1 : State), s.nvCells c (c.nlb * n.bs) = (s1, true) ∧ ∃ (c1 : NvCmd), s1.cmdNow c = c1 ∧ ∃ (s2 : State), ∃ (d : List Byte), s1.nvFetch c1 (c.nlb * n.bs) = (s2, NvData.ok d) ∧ ∃ (c2 : NvCmd), s2.cmdNow c1 = c2 ∧ ∃ (s3 : State), ∃ (key : List Byte), s2.needKey c2.slice (2 ^ 40 + c2.id) n.dataSlot (n.dataLabel c2.nsid) = (s3, KeyRes.ready key) ∧ ∃ (s4 : State), ∃ (us : List (Nat × List Byte)), s3.mergeUnits c.nsid n key (c.slba * n.bs) d (unitSpan (c.slba * n.bs) (c.nlb * n.bs)) = (s4, MergeRes.ok us) ∧ ∃ (s5 : State), s4.unitCipher c.slice (c.nlb * n.bs) = PairRes.ready s5 ∧ True) ∧
    (∃ (s : State), ∃ (i : Nat), ∃ (q : Nat), ∃ (cid : Nat), s.slicesUp = true ∧ q ≠ 0 ∧ ∃ (c : NvCmd), s.nvPending i q cid [2] = some c ∧ ∃ (n : NsState), s.ns? c.nsid = some n ∧ c.slba + c.nlb ≤ n.nsze ∧ n.csi ≠ 2 ∧ c.nlb * n.bs ≤ mdtsBytes ∧ ∃ (s1 : State), s.nvCells c (c.nlb * n.bs) = (s1, true) ∧ ∃ (c1 : NvCmd), s1.cmdNow c = c1 ∧ ∃ (d : List Byte), c1.data = some d ∧ ∃ (s2 : State), ∃ (e : NvDone), s1.nvSend c1 d nvOk = (s2, NvRes.done e) ∧ e.status = 0) ∧
    (∃ (s : State), ∃ (i : Nat), ∃ (q : Nat), ∃ (cid : Nat), s.slicesUp = true ∧ q ≠ 0 ∧ s.mediaReadOnly = false ∧ ∃ (c : NvCmd), s.nvPending i q cid [8] = some c ∧ ∃ (n : NsState), s.ns? c.nsid = some n ∧ n.acc = false ∧ n.csi ≠ 2 ∧ c.slba + c.nlb ≤ n.nsze ∧ n.lbaf = 0) ∧
    (∃ (s : State), ∃ (i : Nat), ∃ (q : Nat), ∃ (cid : Nat), s.slicesUp = true ∧ q ≠ 0 ∧ ∃ (c : NvCmd), s.nvPending i q cid [9] = some c ∧ bitOf (c.dw 11) 2 = false ∧ ∃ (n : NsState), s.ns? c.nsid = some n ∧ n.acc = false ∧ ∃ (s1 : State), ∃ (d : List Byte), s.nvFetch c (16 * (bitsOf (c.dw 10) 7 0 + 1)) = (s1, NvData.ok d) ∧ (s1.cmdNow c).sqe = c.sqe ∧ ∀ (j : Nat), j ≤ bitsOf (c.dw 10) 7 0 → leAt d (16 * j + 8) 8 + leAt d (16 * j + 4) 4 ≤ n.nsze) ∧
    (∃ (s : State), ∃ (i : Nat), ∃ (q : Nat), ∃ (cid : Nat), s.slicesUp = true ∧ q ≠ 0 ∧ ∃ (c : NvCmd), s.nvPending i q cid [12] = some c ∧ ∃ (n : NsState), s.ns? c.nsid = some n ∧ n.csi ≠ 2 ∧ n.acc = false ∧ c.slba + c.nlb ≤ n.nsze ∧ ∃ (s1 : State), (s.nvPlain c n (c.slba * n.bs) (c.nlb * n.bs) fun (t : State) (x : List Byte) => (t, NvRes.done nvOk)) = (s1, NvRes.done nvOk) ∧ True) ∧
    (∃ (s : State), ∃ (i : Nat), ∃ (q : Nat), ∃ (cid : Nat), s.slicesUp = true ∧ q ≠ 0 ∧ s.mediaReadOnly = false ∧ ∃ (c : NvCmd), s.nvPending i q cid [125] = some c ∧ c.slba % zoneSize ≠ 0 ∧ ∃ (n : NsState), s.ns? c.nsid = some n ∧ c.slba < n.nsze) ∧
    (∃ (s : State), ∃ (i : Nat), ∃ (q : Nat), ∃ (cid : Nat), s.slicesUp = true ∧ q ≠ 0 ∧ s.mediaReadOnly = false ∧ ∃ (c : NvCmd), s.nvPending i q cid [125] = some c ∧ c.slba % zoneSize = 0 ∧ 4096 * c.nlb ≤ zaslBytes ∧ s.zoneTakes c.nsid (c.slba / zoneSize) c.nlb = none ∧ ∃ (n : NsState), s.ns? c.nsid = some n ∧ c.slba < n.nsze ∧ n.acc = true ∧ ∃ (s1 : State), s.nvCells c (4096 * c.nlb) = (s1, true) ∧ ∃ (c1 : NvCmd), s1.cmdNow c = c1 ∧ ∃ (s2 : State), ∃ (d : List Byte), s1.nvFetch c1 (4096 * c.nlb) = (s2, NvData.ok d) ∧ ∃ (c2 : NvCmd), s2.cmdNow c1 = c2 ∧ ∃ (s3 : State), ∃ (key : List Byte), s2.needKey c2.slice (2 ^ 40 + c2.id) n.dataSlot (n.dataLabel c2.nsid) = (s3, KeyRes.ready key) ∧ ∃ (s4 : State), s3.unitCipher c.slice (4096 * c.nlb) = PairRes.ready s4 ∧ True) ∧
    (∃ (s : State), ∃ (i : Nat), ∃ (q : Nat), ∃ (cid : Nat), s.slicesUp = true ∧ q ≠ 0 ∧ ∃ (c : NvCmd), s.nvPending i q cid [134] = some c ∧ ∃ (n : NsState), s.ns? c.nsid = some n ∧ List.findIdx? (fun (r : ZRec) => decide (r.first = c.slba ∧ r.count = c.nlb)) (n.zone (c.slba / zoneSize)).records = none) ∧
    (∃ (s : State), ∃ (s1 : State), ∃ (s2 : State), ∃ (nsid : Nat), ∃ (z : Nat), ∃ (key : List Byte), ∃ (alarm : Bool), s.slicesUp = true ∧ ∃ (a : ZApp), List.find? (fun (a : ZApp) => decide (a.nsid = nsid ∧ a.zone = z)) s.nv.appends = some a ∧ a.admitted = false ∧ ∃ (n : NsState), s.ns? nsid = some n ∧ True) :=
  ⟨⟨nvmeReadsWritesAndAppends_30_s, 1, 1, 0, chk (dA inferInstance (dA inferInstance (dSome fun _ => (dSome fun _ => inferInstance)))) (by decide +kernel)⟩,
   ⟨nvmeReadsWritesAndAppends_31_s, 1, 1, 0, chk (dA inferInstance (dA inferInstance (dA inferInstance (dSome fun _ => (dSome fun _ => (dA inferInstance (dA inferInstance (dA inferInstance (dA inferInstance (dPC fun _ => (dVar fun _ => (dND fun _ _ => (dVar fun _ => (dPR fun _ _ => (dPM fun _ _ => (dPready fun _ => inferInstance)))))))))))))))) (by decide +kernel)⟩,
   ⟨nvmeReadsWritesAndAppends_32_s, 1, 1, 0, chk (dA inferInstance (dA inferInstance (dSome fun _ => (dSome fun _ => (dA inferInstance (dA inferInstance (dA inferInstance (dPC fun _ => (dVar fun _ => (dSome fun _ => (dPD fun _ _ => inferInstance))))))))))) (by decide +kernel)⟩,
   ⟨nvmeReadsWritesAndAppends_33_s, 1, 1, 0, chk (dA inferInstance (dA inferInstance (dA inferInstance (dSome fun _ => (dSome fun _ => inferInstance))))) (by decide +kernel)⟩,
   ⟨nvmeReadsWritesAndAppends_34_s, 1, 1, 0, chk (dA inferInstance (dA inferInstance (dSome fun _ => (dA inferInstance (dSome fun _ => (dA inferInstance (dND fun _ _ => inferInstance))))))) (by decide +kernel)⟩,
   ⟨nvmeReadsWritesAndAppends_35_s, 1, 1, 0, chk (dA inferInstance (dA inferInstance (dSome fun _ => (dSome fun _ => (dA inferInstance (dA inferInstance (dA inferInstance (dPC fun _ => inferInstance)))))))) (by decide +kernel)⟩,
   ⟨nvmeReadsWritesAndAppends_36_s, 1, 1, 0, chk (dA inferInstance (dA inferInstance (dA inferInstance (dSome fun _ => (dA inferInstance (dSome fun _ => inferInstance)))))) (by decide +kernel)⟩,
   ⟨nvmeReadsWritesAndAppends_37_s, 1, 1, 0, chk (dA inferInstance (dA inferInstance (dA inferInstance (dSome fun _ => (dA inferInstance (dA inferInstance (dA inferInstance (dSome fun _ => (dA inferInstance (dA inferInstance (dPC fun _ => (dVar fun _ => (dND fun _ _ => (dVar fun _ => (dPR fun _ _ => (dPready fun _ => inferInstance)))))))))))))))) (by decide +kernel)⟩,
   ⟨nvmeReadsWritesAndAppends_38_s, 1, 1, 0, chk (dA inferInstance (dA inferInstance (dSome fun _ => (dSome fun _ => inferInstance)))) (by decide +kernel)⟩,
   ⟨nvmeReadsWritesAndAppends_40_s, wUp, wUp, 1, 0, [], false, chk (dA inferInstance (dSome fun _ => (dA inferInstance (dSome fun _ => inferInstance)))) (by decide +kernel)⟩⟩

/-- NVMe I/O commands on namespaces: clauses 41, 43, 44. -/
theorem witness_NvmeReadsWritesAndAppends_e :
    (∃ (s : State), ∃ (s2 : State), ∃ (nsid : Nat), ∃ (z : Nat), ∃ (key : List Byte), ∃ (alarm : Bool), s.slicesUp = true ∧ ∃ (a : ZApp), List.find? (fun (a : ZApp) => decide (a.nsid = nsid ∧ a.zone = z)) s.nv.appends = some a ∧ a.admitted = true ∧ ∃ (n : NsState), s.ns? nsid = some n ∧ ∃ (s1 : State), s.needKey a.slice (2 ^ 41 + a.piece) n.sealSlot (n.sealLabel nsid) = (s1, KeyRes.wait) ∧ True) ∧
    (∃ (s : State), ∃ (nsid : Nat), ∃ (z : Nat), s.slicesUp = true ∧ ∃ (a : ZApp), List.find? (fun (a : ZApp) => decide (a.nsid = nsid ∧ a.zone = z)) s.nv.appends = some a ∧ a.admitted = true ∧ ∃ (n : NsState), s.ns? nsid = some n ∧ ∃ (s1 : State), ∃ (key : List Byte), s.needKey a.slice (2 ^ 41 + a.piece) n.sealSlot (n.sealLabel nsid) = (s1, KeyRes.ready key) ∧ ∃ (s2 : State), s1.unitCipher a.slice (80 + 4096 * a.count) = PairRes.ready s2 ∧ True) ∧
    (∃ (s : State), ∃ (s2 : State), ∃ (nsid : Nat), ∃ (z : Nat), s.slicesUp = true ∧ ∃ (a : ZApp), List.find? (fun (a : ZApp) => decide (a.nsid = nsid ∧ a.zone = z)) s.nv.appends = some a ∧ a.admitted = true ∧ ∃ (n : NsState), s.ns? nsid = some n ∧ ∃ (s1 : State), ∃ (key : List Byte), s.needKey a.slice (2 ^ 41 + a.piece) n.sealSlot (n.sealLabel nsid) = (s1, KeyRes.ready key) ∧ True) :=
  ⟨⟨nvmeReadsWritesAndAppends_41_s, wUp, 1, 0, [], false, chk (dA inferInstance (dSome fun _ => (dA inferInstance (dSome fun _ => (dPC fun _ => inferInstance))))) (by decide +kernel)⟩,
   ⟨nvmeReadsWritesAndAppends_43_s, 1, 0, chk (dA inferInstance (dSome fun _ => (dA inferInstance (dSome fun _ => (dPR fun _ _ => (dPready fun _ => inferInstance)))))) (by decide +kernel)⟩,
   ⟨nvmeReadsWritesAndAppends_44_s, wUp, 1, 0, chk (dA inferInstance (dSome fun _ => (dA inferInstance (dSome fun _ => (dPR fun _ _ => inferInstance))))) (by decide +kernel)⟩⟩

def zonesFollowTheirStates_8_s : State :=
  wNw (wNs (wZn {} false)) (wNc 1 0x79 1 [2 * zoneSize, 0, 0, 3+0])

def zonesFollowTheirStates_9_s : State :=
  wNw (wNs (wZn { state := 2 } false)) (wNc 1 0x79 1 [0, 0, 0, 3+0])

def zonesFollowTheirStates_10_s : State :=
  wNw (wNs (wZn {} false)) (wNc 1 0x79 1 [0, 0, 0, 3+0])

def zonesFollowTheirStates_11_s : State :=
  let n := { wZn {} with zones := (List.range 400).map fun i => (i + 1, ({ state := 3 } : Zone)) }; wNw (wNs n) (wNc 1 0x79 1 [0, 0, 0, 3+0])

def zonesFollowTheirStates_12_s : State :=
  wNw (wNs (wZn { state := 13 } false)) (wNc 1 0x79 1 [0, 0, 0, 3+0])

def zonesFollowTheirStates_13_s : State :=
  wNw (wNs (wZn { state := 2 } false)) (wNc 1 0x79 1 [0, 0, 0, 1+0])

def zonesFollowTheirStates_14_s : State :=
  wNw (wNs (wZn { state := 1 } false)) (wNc 1 0x79 1 [0, 0, 0, 1+0])

def zonesFollowTheirStates_15_s : State :=
  wNw (wNs (wZn { state := 2 } false)) (wNc 1 0x79 1 [0, 0, 0, 2+0])

def zonesFollowTheirStates_16_s : State :=
  wNw (wNs (wZn { state := 14 } false)) (wNc 1 0x79 1 [0, 0, 0, 2+0])

def zonesFollowTheirStates_17_s : State :=
  let s := wNw (wNs (wZn { state := 2 } false)) (wNc 1 0x79 1 [0, 0, 0, 2+0]); { s with nv.appends := [wApp true] }

def zonesFollowTheirStates_18_s : State :=
  wNw (wNs (wZn { state := 3, retain := 5 } true)) (wNc 1 0x79 1 [0, 0, 0, 4+0])

def zonesFollowTheirStates_19_s : State :=
  wNw (wNs (wZn { state := 3, wp := 5 } false)) (wNc 1 0x79 1 [0, 0, 0, 4+0])

def zonesFollowTheirStates_20_s : State :=
  wNw (wNs (wZn { state := 13 } false)) (wNc 1 0x79 1 [0, 0, 0, 4+0])

def zonesFollowTheirStates_21_s : State :=
  wNw (wNs (wZn { state := 13 } true)) (wNc 1 0x79 1 [0, 0, 0, 5+0])

def zonesFollowTheirStates_22_s : State :=
  wNw (wNs (wZn { state := 13 } false)) (wNc 1 0x79 1 [0, 0, 0, 5+0])

def zonesFollowTheirStates_23_s : State :=
  wNw (wNs (wZn { state := 1 } false)) (wNc 1 0x79 1 [0, 0, 0, 5+0])

def zonesFollowTheirStates_24_s : State :=
  wNw (wNs (wZn {})) { (wNc 1 0x79 1 [0, 0, 0, 16+0]) with data := some (List.replicate 64 9) }

def zonesFollowTheirStates_25_s : State :=
  wNw (wNs (wZn { state := 2 } false)) (wNc 1 0x79 1 [0, 0, 0, 16+0])

def zonesFollowTheirStates_26_s : State :=
  wNw (wNs (wZn { state := 2 } false)) (wNc 1 0x79 1 [0, 0, 0, 1+0])

def zonesFollowTheirStates_27_s : State :=
  wNw (wNs (wZn {} false)) (wNc 1 0x79 1 [2 * zoneSize, 0, 0, 3+0])

def zonesFollowTheirStates_28_s : State :=
  wNw (wNs (wZn {} false)) (wNc 1 0x79 1 [2 * zoneSize, 0, 0, 3+0])

def zonesFollowTheirStates_29_s : State :=
  wNw (wNs (wZn {} false)) (wNc 1 0x79 1 [2 * zoneSize, 0, 0, 3+0])

def zonesFollowTheirStates_30_s : State :=
  wNw (wNs (wZn {} false)) (wNc 1 0x79 1 [2 * zoneSize, 0, 0, 3+0])

def zonesFollowTheirStates_31_s : State :=
  wNw (wNs (wZn {} false)) (wNc 1 0x79 1 [2 * zoneSize, 0, 0, 3+0])

def zonesFollowTheirStates_32_s : State :=
  wNw (wNs (wZn {} false)) (wNc 1 0x7A 1 [2 * zoneSize, 0, 0, 1+0])

def zonesFollowTheirStates_33_s : State :=
  wNw (wNs (wZn {} false)) (wNc 1 0x7A 1 [2 * zoneSize, 0, 0, 0+0])

def zonesFollowTheirStates_34_s : State :=
  wNw (wNs (wZn { state := 1 } false)) (wNc 1 0x79 1 [2 * zoneSize, 0, 0, 1])

def zonesFollowTheirStates_35_s : State :=
  wNw (wNs (wZn { state := 1 } false)) (wNc 1 0x79 1 [2 * zoneSize, 0, 0, 2])

def zonesFollowTheirStates_36_s : State :=
  wNw (wNs (wZn { state := 1 } false)) (wNc 1 0x79 1 [2 * zoneSize, 0, 0, 4])

def zonesFollowTheirStates_37_s : State :=
  wNw (wNs (wZn { state := 1 } false)) (wNc 1 0x79 1 [2 * zoneSize, 0, 0, 5])

def zonesFollowTheirStates_38_s : State :=
  wNw (wNs (wZn { state := 1 } false)) (wNc 1 0x79 1 [2 * zoneSize, 0, 0, 16])

def zonesFollowTheirStates_39_s : State :=
  wNw (wNs (wZn { state := 13 } false)) (wNc 1 0x79 1 [0, 0, 0, 2])

def zonesFollowTheirStates_40_s : State :=
  wNw (wNs (wZn { state := 1 } false)) (wNc 1 0x79 1 [0, 0, 0, 2])

def zonesFollowTheirStates_41_s : State :=
  { wNw (wNs (wZn { state := 2 } false)) (wNc 1 0x79 1 [0, 0, 0, 4]) with nv.appends := [wApp true] }

def zonesFollowTheirStates_42_s : State :=
  wNw (wNs (wZn { state := 1 } false)) (wNc 1 0x79 1 [0, 0, 0, 4])

def zonesFollowTheirStates_43_s : State :=
  wNw (wNs (wZn { state := 15 } false)) (wNc 1 0x79 1 [0, 0, 0, 5])

def zonesFollowTheirStates_44_s : State :=
  let n := { wZn {} with zones := (List.range 400).map fun i => (i + 1, ({ state := 3 } : Zone)) }; wNw (wNs n) (wNc 1 0x79 1 [0, 0, 0, 16])

def zonesFollowTheirStates_45_s : State :=
  wNw (wNs (wZn {} true)) { wNc 1 0x79 1 [0, 0, 0, 16] with data := some (List.replicate 64 9) }

def zonesFollowTheirStates_47_s : State :=
  wNw (wNs (wZn {} false)) (wNc 1 0x7A 1 [2 * zoneSize, 0, 0, 0+0])

def zonesFollowTheirStates_48_s : State :=
  wNw (wNs (wZn {} false)) (wNc 1 0x7A 1 [2 * zoneSize, 0, 0, 1+0])

def zonesFollowTheirStates_49_s : State :=
  wNw (wNs (wZn {} false)) (wNc 1 0x7A 1 [0, 0, 0, 0+8 * 256])

def zonesFollowTheirStates_50_s : State :=
  wNw (wNs (wZn {} false)) (wNc 1 0x7A 1 [0, 0, 15, 0+5 * 256])

def zonesFollowTheirStates_51_s : State :=
  wNw (wNs (wZn {} false)) (wNc 1 0x7A 1 [0, 0, 15, 1+5 * 256])

/-- Zone Management Send and Receive: clauses 0, 1, 2, 3, 4, 5, 6, 7, 8, 9. -/
theorem witness_ZonesFollowTheirStates_a :
    (∃ (s : State), ∃ (i : Nat), ∃ (q : Nat), ∃ (cid : Nat), s.slicesUp = true ∧ (s.nvPending i q cid [121] = none ∨ q = 0)) ∧
    (∃ (s : State), ∃ (i : Nat), ∃ (q : Nat), ∃ (cid : Nat), s.slicesUp = true ∧ (s.nvPending i q cid [121] = none ∨ q = 0)) ∧
    (∃ (s : State), ∃ (i : Nat), ∃ (q : Nat), ∃ (cid : Nat), s.slicesUp = true ∧ (s.nvPending i q cid [121] = none ∨ q = 0)) ∧
    (∃ (s : State), ∃ (i : Nat), ∃ (q : Nat), ∃ (cid : Nat), s.slicesUp = true ∧ (s.nvPending i q cid [121] = none ∨ q = 0)) ∧
    (∃ (s : State), ∃ (i : Nat), ∃ (q : Nat), ∃ (cid : Nat), s.slicesUp = true ∧ (s.nvPending i q cid [121] = none ∨ q = 0)) ∧
    (∃ (s : State), ∃ (i : Nat), ∃ (q : Nat), ∃ (cid : Nat), s.slicesUp = true ∧ (s.nvPending i q cid [121] = none ∨ q = 0)) ∧
    (∃ (s : State), ∃ (i : Nat), ∃ (q : Nat), ∃ (cid : Nat), s.slicesUp = true ∧ (s.nvPending i q cid [122] = none ∨ q = 0)) ∧
    (∃ (s : State), ∃ (i : Nat), ∃ (q : Nat), ∃ (cid : Nat), s.slicesUp = true ∧ (s.nvPending i q cid [122] = none ∨ q = 0)) ∧
    (∃ (s : State), ∃ (i : Nat), ∃ (q : Nat), ∃ (cid : Nat), s.slicesUp = true ∧ q ≠ 0 ∧ ∃ (c : NvCmd), s.nvPending i q cid [121] = some c ∧ bitOf (c.dw 13) 8 = false ∧ bitsOf (c.dw 13) 7 0 = 3 ∧ ∃ (n : NsState), s.ns? c.nsid = some n ∧ n.nsze ≤ c.slba) ∧
    (∃ (s : State), ∃ (i : Nat), ∃ (q : Nat), ∃ (cid : Nat), s.slicesUp = true ∧ q ≠ 0 ∧ ∃ (c : NvCmd), s.nvPending i q cid [121] = some c ∧ bitOf (c.dw 13) 8 = false ∧ bitsOf (c.dw 13) 7 0 = 3 ∧ c.slba % zoneSize = 0 ∧ ∃ (n : NsState), s.ns? c.nsid = some n ∧ c.slba < n.nsze ∧ ((n.zone (c.slba / zoneSize)).state = zImplicit ∨ (n.zone (c.slba / zoneSize)).state = zClosed ∨ (n.zone (c.slba / zoneSize)).state = zExplicit)) :=
  ⟨(by refine ⟨wNw (wNs (wZn {} false)) (wNc 1 0x79 1 [2 * zoneSize, 0, 0, 3+0]), 1, 1, 1, ?_⟩; decide +kernel),
   (by refine ⟨wNw (wNs (wZn {} false)) (wNc 1 0x79 1 [2 * zoneSize, 0, 0, 3+0]), 1, 1, 1, ?_⟩; decide +kernel),
   (by refine ⟨wNw (wNs (wZn {} false)) (wNc 1 0x79 1 [2 * zoneSize, 0, 0, 3+0]), 1, 1, 1, ?_⟩; decide +kernel),
   (by refine ⟨wNw (wNs (wZn {} false)) (wNc 1 0x79 1 [2 * zoneSize, 0, 0, 3+0]), 1, 1, 1, ?_⟩; decide +kernel),
   (by refine ⟨wNw (wNs (wZn {} false)) (wNc 1 0x79 1 [2 * zoneSize, 0, 0, 3+0]), 1, 1, 1, ?_⟩; decide +kernel),
   (by refine ⟨wNw (wNs (wZn {} false)) (wNc 1 0x79 1 [2 * zoneSize, 0, 0, 3+0]), 1, 1, 1, ?_⟩; decide +kernel),
   (by refine ⟨wNw (wNs (wZn {} false)) (wNc 1 0x79 1 [2 * zoneSize, 0, 0, 3+0]), 1, 1, 0, ?_⟩; decide +kernel),
   (by refine ⟨wNw (wNs (wZn {} false)) (wNc 1 0x79 1 [2 * zoneSize, 0, 0, 3+0]), 1, 1, 0, ?_⟩; decide +kernel),
   ⟨zonesFollowTheirStates_8_s, 1, 1, 0, chk (dA inferInstance (dA inferInstance (dSome fun _ => (dA inferInstance (dA inferInstance (dSome fun _ => inferInstance)))))) (by decide +kernel)⟩,
   ⟨zonesFollowTheirStates_9_s, 1, 1, 0, chk (dA inferInstance (dA inferInstance (dSome fun _ => (dA inferInstance (dA inferInstance (dA inferInstance (dSome fun _ => inferInstance))))))) (by decide +kernel)⟩⟩

/-- Zone Management Send and Receive: clauses 10, 11, 12, 13, 14, 15, 16, 17, 18, 19. -/
theorem witness_ZonesFollowTheirStates_b :
    (∃ (s : State), ∃ (i : Nat), ∃ (q : Nat), ∃ (cid : Nat), s.slicesUp = true ∧ q ≠ 0 ∧ ∃ (c : NvCmd), s.nvPending i q cid [121] = some c ∧ bitOf (c.dw 13) 8 = false ∧ bitsOf (c.dw 13) 7 0 = 3 ∧ c.slba % zoneSize = 0 ∧ ∃ (n : NsState), s.ns? c.nsid = some n ∧ c.slba < n.nsze ∧ (n.zone (c.slba / zoneSize)).state = zEmpty ∧ s.activeRoom n = true) ∧
    (∃ (s : State), ∃ (i : Nat), ∃ (q : Nat), ∃ (cid : Nat), s.slicesUp = true ∧ q ≠ 0 ∧ ∃ (c : NvCmd), s.nvPending i q cid [121] = some c ∧ bitOf (c.dw 13) 8 = false ∧ bitsOf (c.dw 13) 7 0 = 3 ∧ c.slba % zoneSize = 0 ∧ ∃ (n : NsState), s.ns? c.nsid = some n ∧ c.slba < n.nsze ∧ (n.zone (c.slba / zoneSize)).state = zEmpty ∧ s.activeRoom n = false) ∧
    (∃ (s : State), ∃ (i : Nat), ∃ (q : Nat), ∃ (cid : Nat), s.slicesUp = true ∧ q ≠ 0 ∧ ∃ (c : NvCmd), s.nvPending i q cid [121] = some c ∧ bitOf (c.dw 13) 8 = false ∧ bitsOf (c.dw 13) 7 0 = 3 ∧ c.slba % zoneSize = 0 ∧ ∃ (n : NsState), s.ns? c.nsid = some n ∧ c.slba < n.nsze ∧ ((n.zone (c.slba / zoneSize)).state = zFull ∨ (n.zone (c.slba / zoneSize)).state = zReadOnly ∨ (n.zone (c.slba / zoneSize)).state = zOffline)) ∧
    (∃ (s : State), ∃ (i : Nat), ∃ (q : Nat), ∃ (cid : Nat), s.slicesUp = true ∧ q ≠ 0 ∧ ∃ (c : NvCmd), s.nvPending i q cid [121] = some c ∧ bitOf (c.dw 13) 8 = false ∧ bitsOf (c.dw 13) 7 0 = 1 ∧ c.slba % zoneSize = 0 ∧ ∃ (n : NsState), s.ns? c.nsid = some n ∧ c.slba < n.nsze ∧ zoneActive (n.zone (c.slba / zoneSize)).state = true) ∧
    (∃ (s : State), ∃ (i : Nat), ∃ (q : Nat), ∃ (cid : Nat), s.slicesUp = true ∧ q ≠ 0 ∧ ∃ (c : NvCmd), s.nvPending i q cid [121] = some c ∧ bitOf (c.dw 13) 8 = false ∧ bitsOf (c.dw 13) 7 0 = 1 ∧ c.slba % zoneSize = 0 ∧ ∃ (n : NsState), s.ns? c.nsid = some n ∧ c.slba < n.nsze ∧ zoneActive (n.zone (c.slba / zoneSize)).state = false) ∧
    (∃ (s : State), ∃ (i : Nat), ∃ (q : Nat), ∃ (cid : Nat), s.slicesUp = true ∧ q ≠ 0 ∧ ∃ (c : NvCmd), s.nvPending i q cid [121] = some c ∧ bitOf (c.dw 13) 8 = false ∧ bitsOf (c.dw 13) 7 0 = 2 ∧ c.slba % zoneSize = 0 ∧ s.zoneBusy c.nsid (c.slba / zoneSize) = false ∧ ∃ (n : NsState), s.ns? c.nsid = some n ∧ c.slba < n.nsze ∧ zoneActive (n.zone (c.slba / zoneSize)).state = true) ∧
    (∃ (s : State), ∃ (i : Nat), ∃ (q : Nat), ∃ (cid : Nat), s.slicesUp = true ∧ q ≠ 0 ∧ ∃ (c : NvCmd), s.nvPending i q cid [121] = some c ∧ bitOf (c.dw 13) 8 = false ∧ bitsOf (c.dw 13) 7 0 = 2 ∧ c.slba % zoneSize = 0 ∧ s.zoneBusy c.nsid (c.slba / zoneSize) = false ∧ ∃ (n : NsState), s.ns? c.nsid = some n ∧ c.slba < n.nsze ∧ (n.zone (c.slba / zoneSize)).state = zFull) ∧
    (∃ (s : State), ∃ (i : Nat), ∃ (q : Nat), ∃ (cid : Nat), s.slicesUp = true ∧ q ≠ 0 ∧ ∃ (c : NvCmd), s.nvPending i q cid [121] = some c ∧ bitOf (c.dw 13) 8 = false ∧ bitsOf (c.dw 13) 7 0 = 2 ∧ c.slba % zoneSize = 0 ∧ s.zoneBusy c.nsid (c.slba / zoneSize) = true ∧ ∃ (n : NsState), s.ns? c.nsid = some n ∧ c.slba < n.nsze) ∧
    (∃ (s : State), ∃ (i : Nat), ∃ (q : Nat), ∃ (cid : Nat), s.slicesUp = true ∧ q ≠ 0 ∧ ∃ (c : NvCmd), s.nvPending i q cid [121] = some c ∧ bitOf (c.dw 13) 8 = false ∧ bitsOf (c.dw 13) 7 0 = 4 ∧ c.slba % zoneSize = 0 ∧ s.zoneBusy c.nsid (c.slba / zoneSize) = false ∧ ∃ (n : NsState), s.ns? c.nsid = some n ∧ c.slba < n.nsze ∧ zoneActive (n.zone (c.slba / zoneSize)).state = true ∧ n.acc = true ∧ s.seeTime.retainPassed (n.zone (c.slba / zoneSize)).retain = false) ∧
    (∃ (s : State), ∃ (i : Nat), ∃ (q : Nat), ∃ (cid : Nat), s.slicesUp = true ∧ q ≠ 0 ∧ ∃ (c : NvCmd), s.nvPending i q cid [121] = some c ∧ bitOf (c.dw 13) 8 = false ∧ bitsOf (c.dw 13) 7 0 = 4 ∧ c.slba % zoneSize = 0 ∧ s.zoneBusy c.nsid (c.slba / zoneSize) = false ∧ ∃ (n : NsState), s.ns? c.nsid = some n ∧ c.slba < n.nsze ∧ (zoneActive (n.zone (c.slba / zoneSize)).state = true ∨ (n.zone (c.slba / zoneSize)).state = zFull) ∧ (n.acc = false ∨ s.seeTime.retainPassed (n.zone (c.slba / zoneSize)).retain = true)) :=
  ⟨⟨zonesFollowTheirStates_10_s, 1, 1, 0, chk (dA inferInstance (dA inferInstance (dSome fun _ => (dA inferInstance (dA inferInstance (dA inferInstance (dSome fun _ => inferInstance))))))) (by decide +kernel)⟩,
   ⟨zonesFollowTheirStates_11_s, 1, 1, 0, chk (dA inferInstance (dA inferInstance (dSome fun _ => (dA inferInstance (dA inferInstance (dA inferInstance (dSome fun _ => inferInstance))))))) (by decide +kernel)⟩,
   ⟨zonesFollowTheirStates_12_s, 1, 1, 0, chk (dA inferInstance (dA inferInstance (dSome fun _ => (dA inferInstance (dA inferInstance (dA inferInstance (dSome fun _ => inferInstance))))))) (by decide +kernel)⟩,
   ⟨zonesFollowTheirStates_13_s, 1, 1, 0, chk (dA inferInstance (dA inferInstance (dSome fun _ => (dA inferInstance (dA inferInstance (dA inferInstance (dSome fun _ => inferInstance))))))) (by decide +kernel)⟩,
   ⟨zonesFollowTheirStates_14_s, 1, 1, 0, chk (dA inferInstance (dA inferInstance (dSome fun _ => (dA inferInstance (dA inferInstance (dA inferInstance (dSome fun _ => inferInstance))))))) (by decide +kernel)⟩,
   ⟨zonesFollowTheirStates_15_s, 1, 1, 0, chk (dA inferInstance (dA inferInstance (dSome fun _ => (dA inferInstance (dA inferInstance (dA inferInstance (dA inferInstance (dSome fun _ => inferInstance)))))))) (by decide +kernel)⟩,
   ⟨zonesFollowTheirStates_16_s, 1, 1, 0, chk (dA inferInstance (dA inferInstance (dSome fun _ => (dA inferInstance (dA inferInstance (dA inferInstance (dA inferInstance (dSome fun _ => inferInstance)))))))) (by decide +kernel)⟩,
   ⟨zonesFollowTheirStates_17_s, 1, 1, 0, chk (dA inferInstance (dA inferInstance (dSome fun _ => (dA inferInstance (dA inferInstance (dA inferInstance (dA inferInstance (dSome fun _ => inferInstance)))))))) (by decide +kernel)⟩,
   ⟨zonesFollowTheirStates_18_s, 1, 1, 0, chk (dA inferInstance (dA inferInstance (dSome fun _ => (dA inferInstance (dA inferInstance (dA inferInstance (dA inferInstance (dSome fun _ => inferInstance)))))))) (by decide +kernel)⟩,
   ⟨zonesFollowTheirStates_19_s, 1, 1, 0, chk (dA inferInstance (dA inferInstance (dSome fun _ => (dA inferInstance (dA inferInstance (dA inferInstance (dA inferInstance (dSome fun _ => inferInstance)))))))) (by decide +kernel)⟩⟩

/-- Zone Management Send and Receive: clauses 20, 21, 22, 23, 24, 25, 26, 27, 28, 29. -/
theorem witness_ZonesFollowTheirStates_c :
    (∃ (s : State), ∃ (i : Nat), ∃ (q : Nat), ∃ (cid : Nat), s.slicesUp = true ∧ q ≠ 0 ∧ ∃ (c : NvCmd), s.nvPending i q cid [121] = some c ∧ bitOf (c.dw 13) 8 = false ∧ bitsOf (c.dw 13) 7 0 = 4 ∧ c.slba % zoneSize = 0 ∧ s.zoneBusy c.nsid (c.slba / zoneSize) = false ∧ ∃ (n : NsState), s.ns? c.nsid = some n ∧ c.slba < n.nsze ∧ ((n.zone (c.slba / zoneSize)).state = zReadOnly ∨ (n.zone (c.slba / zoneSize)).state = zOffline)) ∧
    (∃ (s : State), ∃ (i : Nat), ∃ (q : Nat), ∃ (cid : Nat), s.slicesUp = true ∧ q ≠ 0 ∧ ∃ (c : NvCmd), s.nvPending i q cid [121] = some c ∧ bitOf (c.dw 13) 8 = false ∧ bitsOf (c.dw 13) 7 0 = 5 ∧ ∃ (n : NsState), s.ns? c.nsid = some n ∧ n.acc = true) ∧
    (∃ (s : State), ∃ (i : Nat), ∃ (q : Nat), ∃ (cid : Nat), s.slicesUp = true ∧ q ≠ 0 ∧ ∃ (c : NvCmd), s.nvPending i q cid [121] = some c ∧ bitOf (c.dw 13) 8 = false ∧ bitsOf (c.dw 13) 7 0 = 5 ∧ c.slba % zoneSize = 0 ∧ ∃ (n : NsState), s.ns? c.nsid = some n ∧ n.acc = false ∧ c.slba < n.nsze ∧ (n.zone (c.slba / zoneSize)).state = zReadOnly) ∧
    (∃ (s : State), ∃ (i : Nat), ∃ (q : Nat), ∃ (cid : Nat), s.slicesUp = true ∧ q ≠ 0 ∧ ∃ (c : NvCmd), s.nvPending i q cid [121] = some c ∧ bitOf (c.dw 13) 8 = false ∧ bitsOf (c.dw 13) 7 0 = 5 ∧ c.slba % zoneSize = 0 ∧ ∃ (n : NsState), s.ns? c.nsid = some n ∧ n.acc = false ∧ c.slba < n.nsze ∧ (n.zone (c.slba / zoneSize)).state ≠ zReadOnly ∧ (n.zone (c.slba / zoneSize)).state ≠ zOffline) ∧
    (∃ (s : State), ∃ (i : Nat), ∃ (q : Nat), ∃ (cid : Nat), s.slicesUp = true ∧ q ≠ 0 ∧ ∃ (c : NvCmd), s.nvPending i q cid [121] = some c ∧ bitOf (c.dw 13) 8 = false ∧ bitsOf (c.dw 13) 7 0 = 16 ∧ c.slba % zoneSize = 0 ∧ ∃ (n : NsState), s.ns? c.nsid = some n ∧ c.slba < n.nsze ∧ (n.zone (c.slba / zoneSize)).state = zEmpty ∧ s.activeRoom n = true ∧ n.acc = false ∧ ∃ (s1 : State), ∃ (d : List Byte), s.nvFetch c 64 = (s1, NvData.ok d) ∧ True) ∧
    (∃ (s : State), ∃ (i : Nat), ∃ (q : Nat), ∃ (cid : Nat), s.slicesUp = true ∧ q ≠ 0 ∧ ∃ (c : NvCmd), s.nvPending i q cid [121] = some c ∧ bitOf (c.dw 13) 8 = false ∧ bitsOf (c.dw 13) 7 0 = 16 ∧ c.slba % zoneSize = 0 ∧ ∃ (n : NsState), s.ns? c.nsid = some n ∧ c.slba < n.nsze ∧ (n.zone (c.slba / zoneSize)).state ≠ zEmpty) ∧
    (∃ (s : State), ∃ (i : Nat), ∃ (q : Nat), ∃ (cid : Nat), s.slicesUp = true ∧ q ≠ 0 ∧ ∃ (c : NvCmd), s.nvPending i q cid [121] = some c ∧ bitOf (c.dw 13) 8 = false ∧ bitsOf (c.dw 13) 7 0 ≠ 3 ∧ ∃ (n : NsState), s.ns? c.nsid = some n ∧ True) ∧
    (∃ (s : State), ∃ (i : Nat), ∃ (q : Nat), ∃ (cid : Nat), s.slicesUp = true ∧ q ≠ 0 ∧ ∃ (c : NvCmd), s.nvPending i q cid [121] = some c ∧ bitOf (c.dw 13) 8 = false ∧ bitsOf (c.dw 13) 7 0 ≠ 1 ∧ ∃ (n : NsState), s.ns? c.nsid = some n ∧ True) ∧
    (∃ (s : State), ∃ (i : Nat), ∃ (q : Nat), ∃ (cid : Nat), s.slicesUp = true ∧ q ≠ 0 ∧ ∃ (c : NvCmd), s.nvPending i q cid [121] = some c ∧ bitOf (c.dw 13) 8 = false ∧ bitsOf (c.dw 13) 7 0 ≠ 2 ∧ ∃ (n : NsState), s.ns? c.nsid = some n ∧ True) ∧
    (∃ (s : State), ∃ (i : Nat), ∃ (q : Nat), ∃ (cid : Nat), s.slicesUp = true ∧ q ≠ 0 ∧ ∃ (c : NvCmd), s.nvPending i q cid [121] = some c ∧ bitOf (c.dw 13) 8 = false ∧ bitsOf (c.dw 13) 7 0 ≠ 4 ∧ ∃ (n : NsState), s.ns? c.nsid = some n ∧ True) :=
  ⟨⟨zonesFollowTheirStates_20_s, 1, 1, 0, chk (dA inferInstance (dA inferInstance (dSome fun _ => (dA inferInstance (dA inferInstance (dA inferInstance (dA inferInstance (dSome fun _ => inferInstance)))))))) (by decide +kernel)⟩,
   ⟨zonesFollowTheirStates_21_s, 1, 1, 0, chk (dA inferInstance (dA inferInstance (dSome fun _ => (dA inferInstance (dA inferInstance (dSome fun _ => inferInstance)))))) (by decide +kernel)⟩,
   ⟨zonesFollowTheirStates_22_s, 1, 1, 0, chk (dA inferInstance (dA inferInstance (dSome fun _ => (dA inferInstance (dA inferInstance (dA inferInstance (dSome fun _ => inferInstance))))))) (by decide +kernel)⟩,
   ⟨zonesFollowTheirStates_23_s, 1, 1, 0, chk (dA inferInstance (dA inferInstance (dSome fun _ => (dA inferInstance (dA inferInstance (dA inferInstance (dSome fun _ => inferInstance))))))) (by decide +kernel)⟩,
   ⟨zonesFollowTheirStates_24_s, 1, 1, 0, chk (dA inferInstance (dA inferInstance (dSome fun _ => (dA inferInstance (dA inferInstance (dA inferInstance (dSome fun _ => (dA inferInstance (dA inferInstance (dA inferInstance (dA inferInstance (dND fun _ _ => inferInstance)))))))))))) (by decide +kernel)⟩,
   ⟨zonesFollowTheirStates_25_s, 1, 1, 0, chk (dA inferInstance (dA inferInstance (dSome fun _ => (dA inferInstance (dA inferInstance (dA inferInstance (dSome fun _ => inferInstance))))))) (by decide +kernel)⟩,
   ⟨zonesFollowTheirStates_26_s, 1, 1, 0, chk (dA inferInstance (dA inferInstance (dSome fun _ => (dA inferInstance (dA inferInstance (dSome fun _ => inferInstance)))))) (by decide +kernel)⟩,
   ⟨zonesFollowTheirStates_27_s, 1, 1, 0, chk (dA inferInstance (dA inferInstance (dSome fun _ => (dA inferInstance (dA inferInstance (dSome fun _ => inferInstance)))))) (by decide +kernel)⟩,
   ⟨zonesFollowTheirStates_28_s, 1, 1, 0, chk (dA inferInstance (dA inferInstance (dSome fun _ => (dA inferInstance (dA inferInstance (dSome fun _ => inferInstance)))))) (by decide +kernel)⟩,
   ⟨zonesFollowTheirStates_29_s, 1, 1, 0, chk (dA inferInstance (dA inferInstance (dSome fun _ => (dA inferInstance (dA inferInstance (dSome fun _ => inferInstance)))))) (by decide +kernel)⟩⟩

/-- Zone Management Send and Receive: clauses 30, 31, 32, 33, 34, 35, 36, 37, 38, 39. -/
theorem witness_ZonesFollowTheirStates_d :
    (∃ (s : State), ∃ (i : Nat), ∃ (q : Nat), ∃ (cid : Nat), s.slicesUp = true ∧ q ≠ 0 ∧ ∃ (c : NvCmd), s.nvPending i q cid [121] = some c ∧ bitOf (c.dw 13) 8 = false ∧ bitsOf (c.dw 13) 7 0 ≠ 5 ∧ ∃ (n : NsState), s.ns? c.nsid = some n ∧ True) ∧
    (∃ (s : State), ∃ (i : Nat), ∃ (q : Nat), ∃ (cid : Nat), s.slicesUp = true ∧ q ≠ 0 ∧ ∃ (c : NvCmd), s.nvPending i q cid [121] = some c ∧ bitOf (c.dw 13) 8 = false ∧ bitsOf (c.dw 13) 7 0 ≠ 16 ∧ ∃ (n : NsState), s.ns? c.nsid = some n ∧ True) ∧
    (∃ (s : State), ∃ (i : Nat), ∃ (q : Nat), ∃ (cid : Nat), s.slicesUp = true ∧ q ≠ 0 ∧ ∃ (c : NvCmd), s.nvPending i q cid [122] = some c ∧ bitsOf (c.dw 13) 7 0 ≠ 0 ∧ ∃ (n : NsState), s.ns? c.nsid = some n ∧ True) ∧
    (∃ (s : State), ∃ (i : Nat), ∃ (q : Nat), ∃ (cid : Nat), s.slicesUp = true ∧ q ≠ 0 ∧ ∃ (c : NvCmd), s.nvPending i q cid [122] = some c ∧ bitsOf (c.dw 13) 7 0 ≠ 1 ∧ ∃ (n : NsState), s.ns? c.nsid = some n ∧ True) ∧
    (∃ (s : State), ∃ (i : Nat), ∃ (q : Nat), ∃ (cid : Nat), s.slicesUp = true ∧ q ≠ 0 ∧ ∃ (c : NvCmd), s.nvPending i q cid [121] = some c ∧ bitOf (c.dw 13) 8 = false ∧ bitsOf (c.dw 13) 7 0 = 1 ∧ ∃ (n : NsState), s.ns? c.nsid = some n ∧ n.nsze ≤ c.slba) ∧
    (∃ (s : State), ∃ (i : Nat), ∃ (q : Nat), ∃ (cid : Nat), s.slicesUp = true ∧ q ≠ 0 ∧ ∃ (c : NvCmd), s.nvPending i q cid [121] = some c ∧ bitOf (c.dw 13) 8 = false ∧ bitsOf (c.dw 13) 7 0 = 2 ∧ ∃ (n : NsState), s.ns? c.nsid = some n ∧ n.nsze ≤ c.slba) ∧
    (∃ (s : State), ∃ (i : Nat), ∃ (q : Nat), ∃ (cid : Nat), s.slicesUp = true ∧ q ≠ 0 ∧ ∃ (c : NvCmd), s.nvPending i q cid [121] = some c ∧ bitOf (c.dw 13) 8 = false ∧ bitsOf (c.dw 13) 7 0 = 4 ∧ ∃ (n : NsState), s.ns? c.nsid = some n ∧ n.nsze ≤ c.slba) ∧
    (∃ (s : State), ∃ (i : Nat), ∃ (q : Nat), ∃ (cid : Nat), s.slicesUp = true ∧ q ≠ 0 ∧ ∃ (c : NvCmd), s.nvPending i q cid [121] = some c ∧ bitOf (c.dw 13) 8 = false ∧ bitsOf (c.dw 13) 7 0 = 5 ∧ ∃ (n : NsState), s.ns? c.nsid = some n ∧ n.nsze ≤ c.slba ∧ n.acc = false) ∧
    (∃ (s : State), ∃ (i : Nat), ∃ (q : Nat), ∃ (cid : Nat), s.slicesUp = true ∧ q ≠ 0 ∧ ∃ (c : NvCmd), s.nvPending i q cid [121] = some c ∧ bitOf (c.dw 13) 8 = false ∧ bitsOf (c.dw 13) 7 0 = 16 ∧ ∃ (n : NsState), s.ns? c.nsid = some n ∧ n.nsze ≤ c.slba) ∧
    (∃ (s : State), ∃ (i : Nat), ∃ (q : Nat), ∃ (cid : Nat), s.slicesUp = true ∧ q ≠ 0 ∧ ∃ (c : NvCmd), s.nvPending i q cid [121] = some c ∧ bitOf (c.dw 13) 8 = false ∧ bitsOf (c.dw 13) 7 0 = 2 ∧ c.slba % zoneSize = 0 ∧ s.zoneBusy c.nsid (c.slba / zoneSize) = false ∧ ∃ (n : NsState), s.ns? c.nsid = some n ∧ c.slba < n.nsze ∧ ((n.zone (c.slba / zoneSize)).state = zReadOnly ∨ (n.zone (c.slba / zoneSize)).state = zOffline)) :=
  ⟨⟨zonesFollowTheirStates_30_s, 1, 1, 0, chk (dA inferInstance (dA inferInstance (dSome fun _ => (dA inferInstance (dA inferInstance (dSome fun _ => inferInstance)))))) (by decide +kernel)⟩,
   ⟨zonesFollowTheirStates_31_s, 1, 1, 0, chk (dA inferInstance (dA inferInstance (dSome fun _ => (dA inferInstance (dA inferInstance (dSome fun _ => inferInstance)))))) (by decide +kernel)⟩,
   ⟨zonesFollowTheirStates_32_s, 1, 1, 0, chk (dA inferInstance (dA inferInstance (dSome fun _ => (dA inferInstance (dSome fun _ => inferInstance))))) (by decide +kernel)⟩,
   ⟨zonesFollowTheirStates_33_s, 1, 1, 0, chk (dA inferInstance (dA inferInstance (dSome fun _ => (dA inferInstance (dSome fun _ => inferInstance))))) (by decide +kernel)⟩,
   ⟨zonesFollowTheirStates_34_s, 1, 1, 0, chk (dA inferInstance (dA inferInstance (dSome fun _ => (dA inferInstance (dA inferInstance (dSome fun _ => inferInstance)))))) (by decide +kernel)⟩,
   ⟨zonesFollowTheirStates_35_s, 1, 1, 0, chk (dA inferInstance (dA inferInstance (dSome fun _ => (dA inferInstance (dA inferInstance (dSome fun _ => inferInstance)))))) (by decide +kernel)⟩,
   ⟨zonesFollowTheirStates_36_s, 1, 1, 0, chk (dA inferInstance (dA inferInstance (dSome fun _ => (dA inferInstance (dA inferInstance (dSome fun _ => inferInstance)))))) (by decide +kernel)⟩,
   ⟨zonesFollowTheirStates_37_s, 1, 1, 0, chk (dA inferInstance (dA inferInstance (dSome fun _ => (dA inferInstance (dA inferInstance (dSome fun _ => inferInstance)))))) (by decide +kernel)⟩,
   ⟨zonesFollowTheirStates_38_s, 1, 1, 0, chk (dA inferInstance (dA inferInstance (dSome fun _ => (dA inferInstance (dA inferInstance (dSome fun _ => inferInstance)))))) (by decide +kernel)⟩,
   ⟨zonesFollowTheirStates_39_s, 1, 1, 0, chk (dA inferInstance (dA inferInstance (dSome fun _ => (dA inferInstance (dA inferInstance (dA inferInstance (dA inferInstance (dSome fun _ => inferInstance)))))))) (by decide +kernel)⟩⟩

/-- Zone Management Send and Receive: clauses 40, 41, 42, 43, 44, 45, 47, 48, 49, 50. -/
theorem witness_ZonesFollowTheirStates_e :
    (∃ (s : State), ∃ (i : Nat), ∃ (q : Nat), ∃ (cid : Nat), s.slicesUp = true ∧ q ≠ 0 ∧ ∃ (c : NvCmd), s.nvPending i q cid [121] = some c ∧ bitOf (c.dw 13) 8 = false ∧ bitsOf (c.dw 13) 7 0 = 2 ∧ c.slba % zoneSize = 0 ∧ s.zoneBusy c.nsid (c.slba / zoneSize) = false ∧ ∃ (n : NsState), s.ns? c.nsid = some n ∧ c.slba < n.nsze ∧ (n.zone (c.slba / zoneSize)).state = zEmpty) ∧
    (∃ (s : State), ∃ (i : Nat), ∃ (q : Nat), ∃ (cid : Nat), s.slicesUp = true ∧ q ≠ 0 ∧ ∃ (c : NvCmd), s.nvPending i q cid [121] = some c ∧ bitOf (c.dw 13) 8 = false ∧ bitsOf (c.dw 13) 7 0 = 4 ∧ c.slba % zoneSize = 0 ∧ s.zoneBusy c.nsid (c.slba / zoneSize) = true ∧ ∃ (n : NsState), s.ns? c.nsid = some n ∧ c.slba < n.nsze) ∧
    (∃ (s : State), ∃ (i : Nat), ∃ (q : Nat), ∃ (cid : Nat), s.slicesUp = true ∧ q ≠ 0 ∧ ∃ (c : NvCmd), s.nvPending i q cid [121] = some c ∧ bitOf (c.dw 13) 8 = false ∧ bitsOf (c.dw 13) 7 0 = 4 ∧ c.slba % zoneSize = 0 ∧ s.zoneBusy c.nsid (c.slba / zoneSize) = false ∧ ∃ (n : NsState), s.ns? c.nsid = some n ∧ c.slba < n.nsze ∧ (n.zone (c.slba / zoneSize)).state = zEmpty) ∧
    (∃ (s : State), ∃ (i : Nat), ∃ (q : Nat), ∃ (cid : Nat), s.slicesUp = true ∧ q ≠ 0 ∧ ∃ (c : NvCmd), s.nvPending i q cid [121] = some c ∧ bitOf (c.dw 13) 8 = false ∧ bitsOf (c.dw 13) 7 0 = 5 ∧ c.slba % zoneSize = 0 ∧ ∃ (n : NsState), s.ns? c.nsid = some n ∧ n.acc = false ∧ c.slba < n.nsze ∧ (n.zone (c.slba / zoneSize)).state = zOffline) ∧
    (∃ (s : State), ∃ (i : Nat), ∃ (q : Nat), ∃ (cid : Nat), s.slicesUp = true ∧ q ≠ 0 ∧ ∃ (c : NvCmd), s.nvPending i q cid [121] = some c ∧ bitOf (c.dw 13) 8 = false ∧ bitsOf (c.dw 13) 7 0 = 16 ∧ c.slba % zoneSize = 0 ∧ ∃ (n : NsState), s.ns? c.nsid = some n ∧ c.slba < n.nsze ∧ (n.zone (c.slba / zoneSize)).state = zEmpty ∧ s.activeRoom n = false) ∧
    (∃ (s : State), ∃ (i : Nat), ∃ (q : Nat), ∃ (cid : Nat), s.slicesUp = true ∧ q ≠ 0 ∧ ∃ (c : NvCmd), s.nvPending i q cid [121] = some c ∧ bitOf (c.dw 13) 8 = false ∧ bitsOf (c.dw 13) 7 0 = 16 ∧ c.slba % zoneSize = 0 ∧ ∃ (n : NsState), s.ns? c.nsid = some n ∧ c.slba < n.nsze ∧ (n.zone (c.slba / zoneSize)).state = zEmpty ∧ s.activeRoom n = true ∧ n.acc = true ∧ ∃ (s1 : State), ∃ (d : List Byte), s.nvFetch c 64 = (s1, NvData.ok d) ∧ True) ∧
    (∃ (s : State), ∃ (i : Nat), ∃ (q : Nat), ∃ (cid : Nat), s.slicesUp = true ∧ q ≠ 0 ∧ ∃ (c : NvCmd), s.nvPending i q cid [122] = some c ∧ bitsOf (c.dw 13) 7 0 = 0 ∧ ∃ (n : NsState), s.ns? c.nsid = some n ∧ n.nsze ≤ c.slba) ∧
    (∃ (s : State), ∃ (i : Nat), ∃ (q : Nat), ∃ (cid : Nat), s.slicesUp = true ∧ q ≠ 0 ∧ ∃ (c : NvCmd), s.nvPending i q cid [122] = some c ∧ bitsOf (c.dw 13) 7 0 = 1 ∧ ∃ (n : NsState), s.ns? c.nsid = some n ∧ n.nsze ≤ c.slba) ∧
    (∃ (s : State), ∃ (i : Nat), ∃ (q : Nat), ∃ (cid : Nat), s.slicesUp = true ∧ q ≠ 0 ∧ ∃ (c : NvCmd), s.nvPending i q cid [122] = some c ∧ bitsOf (c.dw 13) 7 0 = 0 ∧ 7 < bitsOf (c.dw 13) 15 8 ∧ ∃ (n : NsState), s.ns? c.nsid = some n ∧ c.slba < n.nsze) ∧
    (∃ (s : State), ∃ (i : Nat), ∃ (q : Nat), ∃ (cid : Nat), s.slicesUp = true ∧ q ≠ 0 ∧ ∃ (c : NvCmd), s.nvPending i q cid [122] = some c ∧ bitsOf (c.dw 13) 7 0 = 0 ∧ bitsOf (c.dw 13) 15 8 = 5 ∧ bitOf (c.dw 13) 16 = false ∧ c.dw 12 = 15 ∧ c.slba < zoneSize ∧ ∃ (n : NsState), s.ns? c.nsid = some n ∧ c.slba < n.nsze ∧ ∃ (bs : List Byte), leBytes 8 (List.filter (fun (z : Nat) => decide ((n.zone z).state = zFull)) (List.range n.zoneCount)).length ++ leBytes 56 0 = bs ∧ ∃ (s1 : State), ∃ (e : NvDone), s.draw.nvSend c bs nvOk = (s1, NvRes.done e) ∧ True) :=
  ⟨⟨zonesFollowTheirStates_40_s, 1, 1, 0, chk (dA inferInstance (dA inferInstance (dSome fun _ => (dA inferInstance (dA inferInstance (dA inferInstance (dA inferInstance (dSome fun _ => inferInstance)))))))) (by decide +kernel)⟩,
   ⟨zonesFollowTheirStates_41_s, 1, 1, 0, chk (dA inferInstance (dA inferInstance (dSome fun _ => (dA inferInstance (dA inferInstance (dA inferInstance (dA inferInstance (dSome fun _ => inferInstance)))))))) (by decide +kernel)⟩,
   ⟨zonesFollowTheirStates_42_s, 1, 1, 0, chk (dA inferInstance (dA inferInstance (dSome fun _ => (dA inferInstance (dA inferInstance (dA inferInstance (dA inferInstance (dSome fun _ => inferInstance)))))))) (by decide +kernel)⟩,
   ⟨zonesFollowTheirStates_43_s, 1, 1, 0, chk (dA inferInstance (dA inferInstance (dSome fun _ => (dA inferInstance (dA inferInstance (dA inferInstance (dSome fun _ => inferInstance))))))) (by decide +kernel)⟩,
   ⟨zonesFollowTheirStates_44_s, 1, 1, 0, chk (dA inferInstance (dA inferInstance (dSome fun _ => (dA inferInstance (dA inferInstance (dA inferInstance (dSome fun _ => inferInstance))))))) (by decide +kernel)⟩,
   ⟨zonesFollowTheirStates_45_s, 1, 1, 0, chk (dA inferInstance (dA inferInstance (dSome fun _ => (dA inferInstance (dA inferInstance (dA inferInstance (dSome fun _ => (dA inferInstance (dA inferInstance (dA inferInstance (dA inferInstance (dND fun _ _ => inferInstance)))))))))))) (by decide +kernel)⟩,
   ⟨zonesFollowTheirStates_47_s, 1, 1, 0, chk (dA inferInstance (dA inferInstance (dSome fun _ => (dA inferInstance (dSome fun _ => inferInstance))))) (by decide +kernel)⟩,
   ⟨zonesFollowTheirStates_48_s, 1, 1, 0, chk (dA inferInstance (dA inferInstance (dSome fun _ => (dA inferInstance (dSome fun _ => inferInstance))))) (by decide +kernel)⟩,
   ⟨zonesFollowTheirStates_49_s, 1, 1, 0, chk (dA inferInstance (dA inferInstance (dSome fun _ => (dA inferInstance (dA inferInstance (dSome fun _ => inferInstance)))))) (by decide +kernel)⟩,
   ⟨zonesFollowTheirStates_50_s, 1, 1, 0, chk (dA inferInstance (dA inferInstance (dSome fun _ => (dA inferInstance (dA inferInstance (dA inferInstance (dA inferInstance (dA inferInstance (dSome fun _ => (dA inferInstance (dVar fun _ => (dPD fun _ _ => inferInstance)))))))))))) (by decide +kernel)⟩⟩

/-- Zone Management Send and Receive: clauses 51. -/
theorem witness_ZonesFollowTheirStates_f :
    ∃ (s : State), ∃ (i : Nat), ∃ (q : Nat), ∃ (cid : Nat), s.slicesUp = true ∧ q ≠ 0 ∧ ∃ (c : NvCmd), s.nvPending i q cid [122] = some c ∧ bitsOf (c.dw 13) 7 0 = 1 ∧ bitsOf (c.dw 13) 15 8 = 5 ∧ bitOf (c.dw 13) 16 = false ∧ c.dw 12 = 15 ∧ c.slba < zoneSize ∧ ∃ (n : NsState), s.ns? c.nsid = some n ∧ c.slba < n.nsze ∧ ∃ (bs : List Byte), leBytes 8 (List.filter (fun (z : Nat) => decide ((n.zone z).state = zFull)) (List.range n.zoneCount)).length ++ leBytes 56 0 = bs ∧ ∃ (s1 : State), ∃ (e : NvDone), s.draw.nvSend c bs nvOk = (s1, NvRes.done e) ∧ True :=
  ⟨zonesFollowTheirStates_51_s, 1, 1, 0, chk (dA inferInstance (dA inferInstance (dSome fun _ => (dA inferInstance (dA inferInstance (dA inferInstance (dA inferInstance (dA inferInstance (dSome fun _ => (dA inferInstance (dVar fun _ => (dPD fun _ _ => inferInstance)))))))))))) (by decide +kernel)⟩

def flashKeepsItsPromises_1_s : State :=
  { (w1 wFl F.HOLDUP_BUDGET 0) with flash.waiting := [{ id := 3, slice := 0, nsid := 1, units := [(7, List.replicate 4096 7)] }] }

def flashKeepsItsPromises_2_s : State :=
  { wFl with flash.waiting := [{ id := 3, slice := 0, nsid := 1, units := [(7, List.replicate 4096 7)] }], nv.cmds := [{ wNc 1 1 1 [] with issued := true, pieces := [3] }] }

def flashKeepsItsPromises_3_s : State :=
  { wFl with flash.waiting := [{ id := 3, slice := 0, nsid := 1, units := [(7, List.replicate 4096 7)] }], nv.cmds := [{ wNc 1 1 1 [] with issued := true, pieces := [3] }] }

def flashKeepsItsPromises_4_s : State :=
  { wFl with flash.waiting := [{ id := 5, slice := 0, nsid := 1, append := true }], nv.appends := [wApp false], nv.ns := [(1, wZn { state := 2 } true)] }

def flashKeepsItsPromises_6_s : State :=
  w1 (wRd 2560) (F.TAG_INUSE 0) 16384

def flashKeepsItsPromises_12_s : State :=
  w1 { wFl with flash.buf := [[wUnit], [], [], []] } (F.TAG_INUSE 0) 16384

def flashKeepsItsPromises_13_s : State :=
  { wFl with flash.buf := [[wUnit], [], [], []] }

def flashKeepsItsPromises_17_s : State :=
  { (w1 wFl F.HOLDUP_BUDGET 0) with flash.waiting := [{ id := 3, slice := 0, nsid := 1, units := [(7, List.replicate 4096 7)] }] }

def flashKeepsItsPromises_18_s : State :=
  w1 { wFl with flash.bands := [{ wBand with isOpen := false }] } (F.TAG_INUSE 0) 16384

def flashKeepsItsPromises_19_s : State :=
  { wFl with flash.bands := [{ wBand with isOpen := false }], flash.cells := [(2560, wCw)] }

def flashKeepsItsPromises_20_s : State :=
  { wFl with flash.bands := [{ wBand with isOpen := false }], flash.cells := [(2560, wCw)] }

def flashKeepsItsPromises_25_s : State :=
  { (w1 wFl F.HOLDUP_BUDGET 0) with flash.waiting := [{ id := 3, slice := 0, nsid := 1, units := [(7, List.replicate 4096 7)] }] }

def flashKeepsItsPromises_26_s : State :=
  w1 wFl (F.FL_DIE_STATE_STATE 0 0) 2

def flashKeepsItsPromises_30_s : State :=
  { wF wFl [(F.AFF_BANDS_FREE 0, 3), (F.AFF_GC_LOW 0, 20)] with flash.bands := [{ wBand with isOpen := false }], flash.cells := [(2560, wCw)], flash.map := [(2 ^ 40 + 7, 2 ^ 63 + 2560)] }

def flashKeepsItsPromises_35_s : State :=
  { wUp with time.mono := 96000000000, flash.bands := [{ wBand with isOpen := false, moving := 1 }] }

def flashKeepsItsPromises_42_s : State :=
  { wFl with boot.accWritten := some 0, time.mono := 6000000000000 }

def flashKeepsItsPromises_43_s : State :=
  { wFl with boot.accWritten := some 0 }

/-- The write buffer, flash reads, programs and erases, collection and retirement: clauses 0, 1, 2, 3, 4, 5, 6, 7, 8, 9. -/
theorem witness_FlashKeepsItsPromises_a :
    (∃ (s : State), ∃ (k : Nat), s.slicesUp = true ∧ takeFirst (fun (p : WPiece) => decide (p.slice = k)) s.flash.waiting = none) ∧
    (∃ (s : State), ∃ (k : Nat), s.slicesUp = true ∧ ∃ (p : WPiece), ∃ (rest : List WPiece), takeFirst (fun (p : WPiece) => decide (p.slice = k)) s.flash.waiting = some (p, rest) ∧ s.admits p = false) ∧
    (∃ (s : State), ∃ (k : Nat), s.slicesUp = true ∧ ∃ (p : WPiece), ∃ (rest : List WPiece), takeFirst (fun (p : WPiece) => decide (p.slice = k)) s.flash.waiting = some (p, rest) ∧ s.admits p = true ∧ p.append = false) ∧
    (∃ (s : State), ∃ (k : Nat), s.slicesUp = true ∧ ∃ (p : WPiece), ∃ (rest : List WPiece), takeFirst (fun (p : WPiece) => decide (p.slice = k)) s.flash.waiting = some (p, rest) ∧ s.admits p = true ∧ p.append = false ∧ p.frame = none) ∧
    (∃ (s : State), ∃ (k : Nat), s.slicesUp = true ∧ ∃ (p : WPiece), ∃ (rest : List WPiece), takeFirst (fun (p : WPiece) => decide (p.slice = k)) s.flash.waiting = some (p, rest) ∧ s.admits p = true ∧ p.append = true) ∧
    (∃ (s : State), ∃ (k : Nat), ∃ (bits : Nat), ∃ (stage : Option Nat), s.slicesUp = true ∧ s.nextRead k = none) ∧
    (∃ (s : State), ∃ (k : Nat), ∃ (bits : Nat), ∃ (stage : Option Nat), s.slicesUp = true ∧ (s.getTag k noInst (s.deadline (s.unitClass 22)) flashReadOp).snd = false ∧ ∃ (r : FlashRead), ∃ (rest : List FlashRead), s.nextRead k = some (r, rest) ∧ True) ∧
    (∃ (s : State), ∃ (k : Nat), ∃ (bits : Nat), ∃ (stage : Option Nat), s.slicesUp = true ∧ (s.getTag k noInst (s.deadline (s.unitClass 22)) flashReadOp).snd = true ∧ ∃ (r : FlashRead), ∃ (rest : List FlashRead), s.nextRead k = some (r, rest) ∧ True) ∧
    (∃ (s : State), ∃ (k : Nat), ∃ (bits : Nat), ∃ (stage : Option Nat), s.slicesUp = true ∧ (s.getTag k noInst (s.deadline (s.unitClass 22)) flashReadOp).snd = true ∧ k < 4 ∧ ∃ (r : FlashRead), ∃ (rest : List FlashRead), s.nextRead k = some (r, rest) ∧ r.slice = k ∧ r.use = ReadFor.host ∧ s.dieState k (locDie r.loc) = dieOnline ∧ ∃ (cw : Codeword), s.flash.cells.find? (cellKey k r.loc) = some cw ∧ ∃ (st : Nat), stage = some st ∧ st < 11) ∧
    (∃ (s : State), ∃ (k : Nat), ∃ (bits : Nat), s.slicesUp = true ∧ (s.getTag k noInst (s.deadline (s.unitClass 22)) flashReadOp).snd = true ∧ k < 4 ∧ ∃ (r : FlashRead), ∃ (rest : List FlashRead), s.nextRead k = some (r, rest) ∧ r.slice = k ∧ r.use = ReadFor.host ∧ s.dieState k (locDie r.loc) = dieOnline ∧ ∃ (stage : Option Nat), none = stage ∧ True) :=
  ⟨(by refine ⟨{ (w1 wFl F.HOLDUP_BUDGET 0) with flash.waiting := [{ id := 3, slice := 0, nsid := 1, units := [(7, List.replicate 4096 7)] }] }, 1, ?_⟩; decide +kernel),
   ⟨flashKeepsItsPromises_1_s, 0, chk (dA inferInstance (dSome2 fun _ _ => inferInstance)) (by decide +kernel)⟩,
   ⟨flashKeepsItsPromises_2_s, 0, chk (dA inferInstance (dSome2 fun _ _ => inferInstance)) (by decide +kernel)⟩,
   ⟨flashKeepsItsPromises_3_s, 0, chk (dA inferInstance (dSome2 fun _ _ => inferInstance)) (by decide +kernel)⟩,
   ⟨flashKeepsItsPromises_4_s, 0, chk (dA inferInstance (dSome2 fun _ _ => inferInstance)) (by decide +kernel)⟩,
   (by refine ⟨{ (w1 wFl F.HOLDUP_BUDGET 0) with flash.waiting := [{ id := 3, slice := 0, nsid := 1, units := [(7, List.replicate 4096 7)] }] }, 0, 0, none, ?_⟩; decide +kernel),
   ⟨flashKeepsItsPromises_6_s, 0, 0, none, chk (dA inferInstance (dA inferInstance (dSome2 fun _ _ => inferInstance))) (by decide +kernel)⟩,
   ⟨wRd 2560, 0, 0, none, chk (dA inferInstance (dA inferInstance (dSome2 fun _ _ => inferInstance))) (by decide +kernel)⟩,
   ⟨wRd 2560, 0, 0, some 0, chk (dA inferInstance (dA inferInstance (dA inferInstance (dSome2 fun _ _ => (dA inferInstance (dA inferInstance (dA inferInstance (dSome fun _ => (dSome fun _ => inferInstance))))))))) (by decide +kernel)⟩,
   ⟨wRd 2560, 0, 0, chk (dA inferInstance (dA inferInstance (dA inferInstance (dSome2 fun _ _ => (dA inferInstance (dA inferInstance (dA inferInstance (dVar fun _ => inferInstance)))))))) (by decide +kernel)⟩⟩

/-- The write buffer, flash reads, programs and erases, collection and retirement: clauses 10, 11, 12, 13, 16, 17, 18, 19, 20, 21. -/
theorem witness_FlashKeepsItsPromises_b :
    (∃ (s : State), ∃ (k : Nat), ∃ (ok : Bool), s.slicesUp = true ∧ (4 ≤ k ∨ s.nextPage k s.zoneDone = [])) ∧
    (∃ (s : State), ∃ (k : Nat), ∃ (ok : Bool), s.slicesUp = true ∧ k < 4 ∧ s.nextPage k s.zoneDone ≠ [] ∧ (s.useBand k).snd = none) ∧
    (∃ (s : State), ∃ (k : Nat), ∃ (ok : Bool), s.slicesUp = true ∧ k < 4 ∧ s.nextPage k s.zoneDone ≠ [] ∧ ∃ (s1 : State), ∃ (b : Band), s.useBand k = (s1, some b) ∧ (s1.getTag k noInst (s1.deadline (s1.unitClass 22)) flashProgramOp).snd = false) ∧
    (∃ (s : State), ∃ (k : Nat), s.slicesUp = true ∧ k < 4 ∧ s.nextPage k s.zoneDone ≠ [] ∧ ∃ (s1 : State), ∃ (b : Band), s.useBand k = (s1, some b) ∧ (s1.getTag k noInst (s1.deadline (s1.unitClass 22)) flashProgramOp).snd = true ∧ ∃ (ok : Bool), true = ok ∧ True) ∧
    (∃ (s : State), ∃ (k : Nat), ∃ (x : Nat), ∃ (b : Nat), ∃ (ok : Bool), s.slicesUp = true ∧ (4 ≤ k ∨ s.bandOf k x b = none)) ∧
    (∃ (s : State), ∃ (k : Nat), ∃ (x : Nat), ∃ (b : Nat), ∃ (ok : Bool), s.slicesUp = true ∧ k < 4 ∧ ∃ (bd : Band), s.bandOf k x b = some bd ∧ s.erasable k bd = false) ∧
    (∃ (s : State), ∃ (k : Nat), ∃ (x : Nat), ∃ (b : Nat), ∃ (ok : Bool), s.slicesUp = true ∧ k < 4 ∧ (s.getTag k noInst (s.deadline (s.unitClass 22)) flashEraseOp).snd = false ∧ ∃ (bd : Band), s.bandOf k x b = some bd ∧ s.erasable k bd = true) ∧
    (∃ (s : State), ∃ (k : Nat), ∃ (x : Nat), ∃ (b : Nat), s.slicesUp = true ∧ k < 4 ∧ (s.getTag k noInst (s.deadline (s.unitClass 22)) flashEraseOp).snd = true ∧ ∃ (bd : Band), s.bandOf k x b = some bd ∧ s.erasable k bd = true ∧ ∃ (ok : Bool), true = ok ∧ True) ∧
    (∃ (s : State), ∃ (k : Nat), ∃ (x : Nat), ∃ (b : Nat), s.slicesUp = true ∧ k < 4 ∧ (s.getTag k noInst (s.deadline (s.unitClass 22)) flashEraseOp).snd = true ∧ (s.blk k x b).bad = 0 ∧ x < 128 ∧ ∃ (bd : Band), s.bandOf k x b = some bd ∧ s.erasable k bd = true ∧ ∃ (ok : Bool), false = ok ∧ True) ∧
    (∃ (s : State), ∃ (k : Nat), ∃ (ch : Nat), s.slicesUp = true ∧ (4 ≤ k ∨ 8 ≤ ch ∨ s.fld (F.FL_CH_STATE_STATE k ch) ≠ 2)) :=
  ⟨(by refine ⟨{ (w1 wFl F.HOLDUP_BUDGET 0) with flash.waiting := [{ id := 3, slice := 0, nsid := 1, units := [(7, List.replicate 4096 7)] }] }, 0, false, ?_⟩; decide +kernel),
   (by refine ⟨{ wF wFl [(F.FL_DIE_STATE_STATE 0 0, 0), (F.FL_DIE_STATE_STATE 0 1, 0), (F.FL_DIE_STATE_STATE 0 2, 0), (F.FL_DIE_STATE_STATE 0 3, 0)] with flash.buf := [[wUnit], [], [], []], flash.bands := [] }, 0, false, ?_⟩; decide +kernel),
   ⟨flashKeepsItsPromises_12_s, 0, false, chk (dA inferInstance (dA inferInstance (dA inferInstance (dPS fun _ _ => inferInstance)))) (by decide +kernel)⟩,
   ⟨flashKeepsItsPromises_13_s, 0, chk (dA inferInstance (dA inferInstance (dA inferInstance (dPS fun _ _ => (dA inferInstance (dVar fun _ => inferInstance)))))) (by decide +kernel)⟩,
   (by refine ⟨{ (w1 wFl F.HOLDUP_BUDGET 0) with flash.waiting := [{ id := 3, slice := 0, nsid := 1, units := [(7, List.replicate 4096 7)] }] }, 0, 0, 0, false, ?_⟩; decide +kernel),
   ⟨flashKeepsItsPromises_17_s, 0, 0, 5, false, chk (dA inferInstance (dA inferInstance (dSome fun _ => inferInstance))) (by decide +kernel)⟩,
   ⟨flashKeepsItsPromises_18_s, 0, 0, 5, false, chk (dA inferInstance (dA inferInstance (dA inferInstance (dSome fun _ => inferInstance)))) (by decide +kernel)⟩,
   ⟨flashKeepsItsPromises_19_s, 0, 0, 5, chk (dA inferInstance (dA inferInstance (dA inferInstance (dSome fun _ => (dA inferInstance (dVar fun _ => inferInstance)))))) (by decide +kernel)⟩,
   ⟨flashKeepsItsPromises_20_s, 0, 0, 5, chk (dA inferInstance (dA inferInstance (dA inferInstance (dA inferInstance (dA inferInstance (dSome fun _ => (dA inferInstance (dVar fun _ => inferInstance)))))))) (by decide +kernel)⟩,
   (by refine ⟨{ (w1 wFl F.HOLDUP_BUDGET 0) with flash.waiting := [{ id := 3, slice := 0, nsid := 1, units := [(7, List.replicate 4096 7)] }] }, 0, 1, ?_⟩; decide +kernel)⟩

/-- The write buffer, flash reads, programs and erases, collection and retirement: clauses 22, 23, 24, 25, 26, 27, 28, 29, 30, 31. -/
theorem witness_FlashKeepsItsPromises_c :
    (∃ (s : State), ∃ (k : Nat), ∃ (ch : Nat), s.slicesUp = true ∧ k < 4 ∧ ch < 8 ∧ s.fld (F.FL_CH_STATE_STATE k ch) = 2) ∧
    (∃ (s : State), ∃ (k : Nat), ∃ (x : Nat), ∃ (dead : Bool), s.slicesUp = true ∧ (4 ≤ k ∨ 128 ≤ x ∨ s.dieState k x ≠ dieOnline ∧ s.dieState k x ≠ dieRetiring)) ∧
    (∃ (s : State), ∃ (k : Nat), ∃ (x : Nat), ∃ (dead : Bool), s.slicesUp = true ∧ k < 4 ∧ x < 128 ∧ s.dieState k x = dieOnline ∧ (dead = true ∨ 16 ≤ (List.filter (fun (r : Nat × Nat × Nat) => decide (r.fst = k ∧ r.snd.fst = x ∧ s.time.mono < r.snd.snd + ticks24h)) s.flash.retired).length)) ∧
    (∃ (s : State), ∃ (k : Nat), ∃ (x : Nat), s.slicesUp = true ∧ k < 4 ∧ x < 128 ∧ s.dieState k x = dieOnline ∧ (List.filter (fun (r : Nat × Nat × Nat) => decide (r.fst = k ∧ r.snd.fst = x ∧ s.time.mono < r.snd.snd + ticks24h)) s.flash.retired).length < 16 ∧ ∃ (dead : Bool), false = dead ∧ True) ∧
    (∃ (s : State), ∃ (k : Nat), ∃ (x : Nat), ∃ (dead : Bool), s.slicesUp = true ∧ k < 4 ∧ x < 128 ∧ s.dieState k x = dieRetiring ∧ ∃ (b : Band), List.find? (fun (b : Band) => decide (b.slice = k) && b.members.any fun (m : Nat × Nat) => decide (m.fst = x)) s.flash.bands = some b ∧ True) ∧
    (∃ (s : State), ∃ (k : Nat), ∃ (x : Nat), ∃ (dead : Bool), s.slicesUp = true ∧ k < 4 ∧ x < 128 ∧ s.dieState k x = dieRetiring ∧ List.find? (fun (b : Band) => decide (b.slice = k) && b.members.any fun (m : Nat × Nat) => decide (m.fst = x)) s.flash.bands = none) ∧
    (∃ (s : State), ∃ (k : Nat), s.slicesUp = true ∧ (4 ≤ k ∨ max 12 (s.fld (F.AFF_GC_LOW k)) ≤ s.freeBands k ∨ List.filter (fun (b : Band) => decide (b.slice = k) && !b.isOpen && decide (b.moving = 0)) s.flash.bands = [])) ∧
    (∃ (s : State), ∃ (k : Nat), s.slicesUp = true ∧ k < 4 ∧ s.freeBands k < max 12 (s.fld (F.AFF_GC_LOW k)) ∧ List.filter (fun (b : Band) => decide (b.slice = k) && !b.isOpen && decide (b.moving = 0)) s.flash.bands ≠ []) ∧
    (∃ (s : State), ∃ (k : Nat), s.slicesUp = true ∧ k < 4 ∧ s.freeBands k < max 12 (s.fld (F.AFF_GC_LOW k)) ∧ ∃ (b : Band), s.flash.bands = [b] ∧ List.filter (fun (b : Band) => decide (b.slice = k) && !b.isOpen && decide (b.moving = 0)) s.flash.bands = [b]) ∧
    (∃ (s : State), ∃ (k : Nat), ∃ (x : Nat), ∃ (b : Nat), s.slicesUp = true ∧ (4 ≤ k ∨ (s.blk k x b).reads < s.fld (F.AFF_RD_LIMIT k) ∨ (s.validIn k fun (l : Nat) => decide (locDie l = x ∧ locBlk l = b)) = [] ∨ (s.flash.reads.any fun (r : FlashRead) => decide (r.slice = k ∧ r.use = ReadFor.move ∧ locDie r.loc = x ∧ locBlk r.loc = b)) = true)) :=
  ⟨(by refine ⟨{ (w1 wFl F.HOLDUP_BUDGET 0) with flash.waiting := [{ id := 3, slice := 0, nsid := 1, units := [(7, List.replicate 4096 7)] }] }, 0, 0, ?_⟩; decide +kernel),
   (by refine ⟨{ (w1 wFl F.HOLDUP_BUDGET 0) with flash.waiting := [{ id := 3, slice := 0, nsid := 1, units := [(7, List.replicate 4096 7)] }] }, 0, 5, false, ?_⟩; decide +kernel),
   (by refine ⟨{ (w1 wFl F.HOLDUP_BUDGET 0) with flash.waiting := [{ id := 3, slice := 0, nsid := 1, units := [(7, List.replicate 4096 7)] }] }, 0, 0, true, ?_⟩; decide +kernel),
   ⟨flashKeepsItsPromises_25_s, 0, 0, chk (dA inferInstance (dA inferInstance (dA inferInstance (dA inferInstance (dA inferInstance (dVar fun _ => inferInstance)))))) (by decide +kernel)⟩,
   ⟨flashKeepsItsPromises_26_s, 0, 0, false, chk (dA inferInstance (dA inferInstance (dA inferInstance (dA inferInstance (dSome fun _ => inferInstance))))) (by decide +kernel)⟩,
   (by refine ⟨{ (w1 wFl (F.FL_DIE_STATE_STATE 0 0) 2) with flash.bands := [] }, 0, 0, false, ?_⟩; decide +kernel),
   (by refine ⟨{ (w1 wFl F.HOLDUP_BUDGET 0) with flash.waiting := [{ id := 3, slice := 0, nsid := 1, units := [(7, List.replicate 4096 7)] }] }, 0, ?_⟩; decide +kernel),
   (by refine ⟨{ wF wFl [(F.AFF_BANDS_FREE 0, 3), (F.AFF_GC_LOW 0, 20)] with flash.bands := [{ wBand with isOpen := false }], flash.cells := [(2560, wCw)], flash.map := [(2 ^ 40 + 7, 2 ^ 63 + 2560)] }, 0, ?_⟩; decide +kernel),
   ⟨flashKeepsItsPromises_30_s, 0, chk (dA inferInstance (dA inferInstance (dA inferInstance (dCC fun _ => inferInstance)))) (by decide +kernel)⟩,
   (by refine ⟨{ (w1 wFl F.HOLDUP_BUDGET 0) with flash.waiting := [{ id := 3, slice := 0, nsid := 1, units := [(7, List.replicate 4096 7)] }] }, 0, 0, 5, ?_⟩; decide +kernel)⟩

/-- The write buffer, flash reads, programs and erases, collection and retirement: clauses 32, 33, 34, 35, 36, 37, 38, 39, 40, 41. -/
theorem witness_FlashKeepsItsPromises_d :
    (∃ (s : State), ∃ (k : Nat), ∃ (x : Nat), ∃ (b : Nat), s.slicesUp = true ∧ k < 4 ∧ s.fld (F.AFF_RD_LIMIT k) ≤ (s.blk k x b).reads ∧ (s.validIn k fun (l : Nat) => decide (locDie l = x ∧ locBlk l = b)) ≠ [] ∧ (s.flash.reads.any fun (r : FlashRead) => decide (r.slice = k ∧ r.use = ReadFor.move ∧ locDie r.loc = x ∧ locBlk r.loc = b)) = false) ∧
    (∃ (s : State), ∃ (temps : List (Nat × Nat × Nat)), s.slicesUp = true ∧ s.time.mono < s.flash.ageAt + 60 * ticksPerSec) ∧
    (∃ (s : State), ∃ (temps : List (Nat × Nat × Nat)), s.slicesUp = true ∧ s.flash.ageAt + 60 * ticksPerSec ≤ s.time.mono) ∧
    (∃ (s : State), s.slicesUp = true ∧ s.flash.ageAt + 60 * ticksPerSec ≤ s.time.mono ∧ s.flash.blks = [] ∧ ∃ (temps : List (Nat × Nat × Nat)), [] = temps ∧ ∃ (b : Band), s.flash.bands = [b] ∧ b.isOpen = false ∧ b.moving ≠ 0) ∧
    (∃ (s : State), ∃ (k : Nat), s.slicesUp = true ∧ (4 ≤ k ∨ s.twFired k TwConsumer.window = false ∧ ((s.flash.patrol.getD k []).isEmpty = false ∨ ¬s.flash.patrolAt.getD k 0 + 2 * (max 1 (s.fld (F.AFF_PATROL_DAYS k)) * 86400) ≤ s.ftSec))) ∧
    (∃ (s : State), ∃ (k : Nat), s.slicesUp = true ∧ k < 4 ∧ s.twFired k TwConsumer.window = false ∧ (s.flash.patrol.getD k []).isEmpty = true ∧ s.flash.patrolAt.getD k 0 + 2 * (max 1 (s.fld (F.AFF_PATROL_DAYS k)) * 86400) ≤ s.ftSec) ∧
    (∃ (s : State), ∃ (k : Nat), s.slicesUp = true ∧ k < 4 ∧ s.twFired k TwConsumer.window = true ∧ ((s.flash.patrol.getD k []).isEmpty && decide ((s.armWindow k).flash.patrolAt.getD k 0 + max 1 (s.fld (F.AFF_PATROL_DAYS k)) * 86400 ≤ (s.armWindow k).ftSec ∨ (s.armWindow k).fld (F.AFF_PATROL_PASS k) = 0)) = false) ∧
    (∃ (s : State), ∃ (k : Nat), s.slicesUp = true ∧ k < 4 ∧ s.twFired k TwConsumer.window = true ∧ ((s.flash.patrol.getD k []).isEmpty && decide ((s.armWindow k).flash.patrolAt.getD k 0 + max 1 (s.fld (F.AFF_PATROL_DAYS k)) * 86400 ≤ (s.armWindow k).ftSec ∨ (s.armWindow k).fld (F.AFF_PATROL_PASS k) = 0)) = true) ∧
    (∃ (s : State), ∃ (k : Nat), s.slicesUp = true ∧ k < 4 ∧ s.twFired k TwConsumer.window = true ∧ s.fld F.AFF_WIN_LEN = 0 ∧ ((s.flash.patrol.getD k []).isEmpty && decide ((s.armWindow k).flash.patrolAt.getD k 0 + max 1 (s.fld (F.AFF_PATROL_DAYS k)) * 86400 ≤ (s.armWindow k).ftSec ∨ (s.armWindow k).fld (F.AFF_PATROL_PASS k) = 0)) = false ∧ s.flash.bands = []) ∧
    (∃ (s : State), s.slicesUp = true ∧ s.boot.accWritten = none) :=
  ⟨(by refine ⟨{ (wFl.setBlk 0 0 5 { reads := 9, band := some 1 }) with regs := (w1 wFl (F.AFF_RD_LIMIT 0) 5).regs, flash.cells := [(2560, wCw)], flash.map := [(2 ^ 40 + 7, 2 ^ 63 + 2560)] }, 0, 0, 5, ?_⟩; decide +kernel),
   (by refine ⟨{ (w1 wFl F.HOLDUP_BUDGET 0) with flash.waiting := [{ id := 3, slice := 0, nsid := 1, units := [(7, List.replicate 4096 7)] }] }, [], ?_⟩; decide +kernel),
   (by refine ⟨{ wUp with time.mono := 96000000000 }, [], ?_⟩; decide +kernel),
   ⟨flashKeepsItsPromises_35_s, chk (dA inferInstance (dA inferInstance (dA inferInstance (dVar fun _ => (dCC fun _ => inferInstance))))) (by decide +kernel)⟩,
   (by refine ⟨{ (w1 wFl F.HOLDUP_BUDGET 0) with flash.waiting := [{ id := 3, slice := 0, nsid := 1, units := [(7, List.replicate 4096 7)] }] }, 0, ?_⟩; decide +kernel),
   (by refine ⟨{ wFl with time.units := 10 ^ 17 }, 0, ?_⟩; decide +kernel),
   (by refine ⟨wFire { wFl with flash.patrol := [[2560], [], [], []] } 0 .window, 0, ?_⟩; decide +kernel),
   ⟨wFire wFl 0 .window, 0, by decide +kernel⟩,
   (by refine ⟨{ wFire (w1 wFl F.AFF_WIN_LEN 0) 0 .window with flash.bands := [], flash.patrol := [[2560], [], [], []] }, 0, ?_⟩; decide +kernel),
   ⟨wFl, by decide +kernel⟩⟩

/-- The write buffer, flash reads, programs and erases, collection and retirement: clauses 42, 43. -/
theorem witness_FlashKeepsItsPromises_e :
    (∃ (s : State), s.slicesUp = true ∧ ∃ (t0 : Nat), s.boot.accWritten = some t0 ∧ t0 + 3600 * ticksPerSec ≤ s.time.mono) ∧
    (∃ (s : State), s.slicesUp = true ∧ ∃ (t0 : Nat), s.boot.accWritten = some t0 ∧ s.time.mono < t0 + 3600 * ticksPerSec) :=
  ⟨⟨flashKeepsItsPromises_42_s, chk (dA inferInstance (dSome fun _ => inferInstance)) (by decide +kernel)⟩,
   ⟨flashKeepsItsPromises_43_s, chk (dA inferInstance (dSome fun _ => inferInstance)) (by decide +kernel)⟩⟩

def holdupBankIsTested_6_s : State :=
  { (w1 wFl F.HOLDUP_STATE 3) with time.mono := 138240000000000, flash.testAt := some 0 }

def holdupBankIsTested_7_s : State :=
  { (w1 wFl F.HOLDUP_STATE 3) with time.mono := 3, flash.testAt := some 0 }

def holdupBankIsTested_9_s : State :=
  { (w1 wFl F.HOLDUP_STATE 2) with flash.bank := [100, 50000, 20000, 80, 9, 7] }

def holdupBankIsTested_10_s : State :=
  { (w1 wFl F.HOLDUP_STATE 2) with flash.bank := [100, 50000, 20000, 80, 9, 7] }

def holdupBankIsTested_11_s : State :=
  { (w1 wFl F.HOLDUP_STATE 2) with flash.bank := [100, 50000, 20000, 80, 9, 7] }

def holdupBankIsTested_12_s : State :=
  { (w1 wFl F.HOLDUP_STATE 2) with flash.bank := [100, 50000, 20000, 80, 9, 7] }

/-- The hold-up bank: samples, tests, and the save that a loss of power begins: clauses 0, 1, 2, 3, 4, 5, 6, 7, 8, 9. -/
theorem witness_HoldupBankIsTested_a :
    (∃ (s : State), ∃ (mv : Nat), s.running = true ∧ mv < 2 ^ 16 ∧ s.holdup = 1 ∧ mv * 10 < s.bankParam 1 * 9) ∧
    (∃ (s : State), ∃ (mv : Nat), s.running = true ∧ mv < 2 ^ 16 ∧ (s.holdup ≠ 1 ∨ s.bankParam 1 * 9 ≤ mv * 10) ∧ ¬(s.holdup = 0 ∧ 0 < s.bankParam 1 ∧ s.bankParam 1 * 95 ≤ mv * 100)) ∧
    (∃ (s : State), ∃ (mv : Nat), s.running = true ∧ mv < 2 ^ 16 ∧ s.holdup = 0 ∧ 0 < s.bankParam 1 ∧ s.bankParam 1 * 95 ≤ mv * 100) ∧
    (∃ (s : State), s.running = true ∧ s.holdup ≠ 1 ∧ s.holdup ≠ 3) ∧
    (∃ (s : State), s.running = true ∧ (s.holdup = 1 ∨ s.holdup = 3) ∧ s.flash.testAt = none ∧ s.flash.startAt + 60 * ticksPerSec ≤ s.time.mono) ∧
    (∃ (s : State), s.running = true ∧ (s.holdup = 1 ∨ s.holdup = 3) ∧ s.flash.testAt = none ∧ s.time.mono < s.flash.startAt + 60 * ticksPerSec) ∧
    (∃ (s : State), s.running = true ∧ (s.holdup = 1 ∨ s.holdup = 3) ∧ ∃ (t0 : Nat), s.flash.testAt = some t0 ∧ t0 + ticks24h ≤ s.time.mono) ∧
    (∃ (s : State), s.running = true ∧ (s.holdup = 1 ∨ s.holdup = 3) ∧ ∃ (t0 : Nat), s.flash.testAt = some t0 ∧ s.time.mono < t0 + ticks24h) ∧
    (∃ (s : State), ∃ (droop : Nat), ∃ (recharged : Bool), s.running = true ∧ s.holdup ≠ 2) ∧
    (∃ (s : State), ∃ (recharged : Bool), s.running = true ∧ s.holdup = 2 ∧ ∃ (droop : Nat), 0 = droop ∧ True) :=
  ⟨(by refine ⟨{ (w1 wFl F.HOLDUP_STATE 1) with flash.bank := [100, 50000, 20000, 80, 9, 7], flash.buf := [[wUnit], [], [], []] }, 40000, ?_⟩; decide +kernel),
   (by refine ⟨{ (w1 wFl F.HOLDUP_STATE 1) with flash.bank := [100, 50000, 20000, 80, 9, 7], flash.buf := [[wUnit], [], [], []] }, 45000, ?_⟩; decide +kernel),
   (by refine ⟨{ (w1 wFl F.HOLDUP_STATE 0) with flash.bank := [100, 50000, 20000, 80, 9, 7] }, 47500, ?_⟩; decide +kernel),
   (by refine ⟨{ (w1 wFl F.HOLDUP_STATE 0) with flash.bank := [100, 50000, 20000, 80, 9, 7] }, ?_⟩; decide +kernel),
   (by refine ⟨{ (w1 wFl F.HOLDUP_STATE 1) with time.mono := 96000000000 }, ?_⟩; decide +kernel),
   (by refine ⟨{ (w1 wFl F.HOLDUP_STATE 1) with flash.bank := [100, 50000, 20000, 80, 9, 7], flash.buf := [[wUnit], [], [], []] }, ?_⟩; decide +kernel),
   ⟨holdupBankIsTested_6_s, chk (dA inferInstance (dA inferInstance (dSome fun _ => inferInstance))) (by decide +kernel)⟩,
   ⟨holdupBankIsTested_7_s, chk (dA inferInstance (dA inferInstance (dSome fun _ => inferInstance))) (by decide +kernel)⟩,
   (by refine ⟨{ (w1 wFl F.HOLDUP_STATE 1) with flash.bank := [100, 50000, 20000, 80, 9, 7], flash.buf := [[wUnit], [], [], []] }, 1, false, ?_⟩; decide +kernel),
   ⟨holdupBankIsTested_9_s, false, chk (dA inferInstance (dA inferInstance (dVar fun _ => inferInstance))) (by decide +kernel)⟩⟩

/-- The hold-up bank: samples, tests, and the save that a loss of power begins: clauses 10, 11, 12, 13, 14. -/
theorem witness_HoldupBankIsTested_b :
    (∃ (s : State), ∃ (droop : Nat), s.running = true ∧ s.holdup = 2 ∧ droop ≠ 0 ∧ s.bankParam 5 * 100000 / droop < 2 ^ 32 ∧ ∃ (recharged : Bool), false = recharged ∧ True) ∧
    (∃ (s : State), ∃ (droop : Nat), s.running = true ∧ s.holdup = 2 ∧ droop ≠ 0 ∧ s.bankParam 5 * 100000 / droop < 2 ^ 32 ∧ 75 * s.bankParam 0 ≤ s.bankParam 5 * 100000 / droop * 100 ∧ ∃ (recharged : Bool), true = recharged ∧ True) ∧
    (∃ (s : State), ∃ (droop : Nat), s.running = true ∧ s.holdup = 2 ∧ droop ≠ 0 ∧ s.bankParam 5 * 100000 / droop < 2 ^ 32 ∧ s.bankParam 5 * 100000 / droop * 100 < 75 * s.bankParam 0 ∧ ∃ (recharged : Bool), true = recharged ∧ True) ∧
    (∃ (s : State), s.running = true) ∧
    (∃ (s : State), s.running = false) :=
  ⟨⟨holdupBankIsTested_10_s, 1, chk (dA inferInstance (dA inferInstance (dA inferInstance (dA inferInstance (dVar fun _ => inferInstance))))) (by decide +kernel)⟩,
   ⟨holdupBankIsTested_11_s, 1, chk (dA inferInstance (dA inferInstance (dA inferInstance (dA inferInstance (dA inferInstance (dVar fun _ => inferInstance)))))) (by decide +kernel)⟩,
   ⟨holdupBankIsTested_12_s, 9400, chk (dA inferInstance (dA inferInstance (dA inferInstance (dA inferInstance (dA inferInstance (dVar fun _ => inferInstance)))))) (by decide +kernel)⟩,
   (by refine ⟨{ (w1 wFl F.HOLDUP_STATE 1) with flash.bank := [100, 50000, 20000, 80, 9, 7], flash.buf := [[wUnit], [], [], []] }, ?_⟩; decide +kernel),
   (by refine ⟨{ wFl with flash.saving := true }, ?_⟩; decide +kernel)⟩

end Sys2Proof.Tests
end

section
/-!
PROOFS. Obligations O5, O11 and O58: the reset state, plain register writes, and the management opcodes that report and control.
-/

namespace Sys2Proof.Machine

/-! The reset state (R11, R113, R549). -/

/-- The row of the event registers of the core counters (R544, R549). -/
def coreHpmEvtRow : RegRow := ⟨"CORE_HPM_EVT", 0x4100400, [(0x1000000, 4), (0x1000, 4), (0x8, 48)], 8, [⟨0, 64, .rw⟩], 0x0, .pmuCore⟩

theorem findRow_coreHpmEvt {sl k m : Nat} (hs : sl < 4) (hk : k < 4) (hm : m < 48) :
    findRow (R.CORE_HPM_EVT sl k m) = some coreHpmEvtRow := by
  have hplace : slicePlace (R.CORE_HPM_EVT sl k m) = 0x4100400 + 0x1000 * k + 8 * m := by
    unfold slicePlace R.CORE_HPM_EVT; split <;> omega
  have hbefore : ∀ b ∈ regBanks.take 13, b.1 ≤ 0x4100400 := by decide +kernel
  have hbank : regBanks.find? (fun b => decide (slicePlace (R.CORE_HPM_EVT sl k m) < b.1)) = some (0x4200030, regRows13) := by
    rw [hplace]
    refine List.find?_eq_some_iff_append.2 ⟨by simp; omega, regBanks.take 13, regBanks.drop 14, rfl, fun b hb => ?_⟩
    have := hbefore b hb
    simp; omega
  have hmiss : ∀ r ∈ regRows13.take 3, r.covers (R.CORE_HPM_EVT sl k m) = false := by
    simp [regRows13, RegRow.covers, dimsMatch, R.CORE_HPM_EVT]
    omega
  have hhit : coreHpmEvtRow.covers (R.CORE_HPM_EVT sl k m) = true := by
    dsimp only [coreHpmEvtRow, RegRow.covers, R.CORE_HPM_EVT]
    simp [dimsMatch]
    omega
  rw [findRow, hbank]
  exact List.find?_eq_some_iff_append.2 ⟨hhit, regRows13.take 3, regRows13.drop 4, rfl, fun r hr => by simp [hmiss r hr]⟩

theorem resetAt_of_findRow {a : Nat} {r : RegRow} (h : findRow a = some r) : resetAt a = BitVec.ofNat 64 r.reset := by
  simp [resetAt, h]

theorem State.reset_rd (a : Nat) : State.reset.rd a = resetAt a := rfl

theorem State.reset_hasOverflow {n : Nat} (hn : n < 16) : State.reset.hasOverflow n = false := by
  simp only [State.hasOverflow, List.any_eq_false, List.mem_range, State.reset_rd]
  intro m hm
  rw [resetAt_of_findRow (findRow_coreHpmEvt (by omega) (by omega) hm)]
  decide

/-- Settling the reset state changes nothing: every interrupt-pending bit already shows what it stands for. -/
theorem State.reset_settled : State.reset.settle State.reset = State.reset := by
  have h : (List.range 16).map State.reset.hasOverflow = List.replicate 16 false := by
    rw [List.eq_replicate_iff]
    simpa using fun n hn => State.reset_hasOverflow hn
  unfold State.settle
  rw [h]
  rfl

theorem State.reset_mipAgrees : State.reset.mipAgrees := State.reset_settled ▸ State.settle_mipAgrees _ _

theorem State.reset_queues (k : Nat) : State.reset.eth.queues.getD k [] = [] := by
  rcases k with _ | _ | _ | _ | k <;> rfl

/-- Settles O5: the reset state is settled already, so mip agrees in it; its registers read their reset values and its tables are empty. -/
theorem resetIsClean : Obligations.ResetIsClean :=
  ⟨State.reset_mipAgrees, rfl, fun a _ h => (State.reset_rd a).trans (resetAt_of_findRow h), fun _ _ _ => rfl, State.reset_queues,
    rfl, rfl, rfl, rfl, rfl⟩

/-! A class register that is not plain (R79, R587). -/

/-- The row of ARB_DEADLINE[1]: it is a row of its own, beside that of ARB_DEADLINE[0], whose base `ownWrites` names. -/
def arbDeadline1Row : RegRow := ⟨"ARB_DEADLINE", 0x8110008, [], 8, [⟨0, 24, .rw⟩, ⟨24, 40, .rsv⟩], 0x320, .managerKeeper⟩

theorem findRow_arbDeadline1 : findRow (R.ARB_DEADLINE 1) = some arbDeadline1Row := by decide +kernel

/-- By its base the row starts nothing and has no command of its own. -/
theorem arbDeadline1Row_plain : arbDeadline1Row.plain = true := by decide +kernel

/-- The manager's write of ARB_DEADLINE[1] at reset is ARB_CLASS_WRITE (R79) all the same: it raises ARB_SYNC.PENDING. -/
theorem arbDeadline1_write_sets_pending :
    (State.reset.write .manager (R.ARB_DEADLINE 1) 8 0).fld F.ARB_SYNC_PENDING = 1 := by decide +kernel

/-- Refutes O11: a class register that is not the first of its kind (ARB_DEADLINE[1]) counts as plain, because `RegRow.plain` looks for its own base among
the rows that have a command, while the write goes by `ownBase`; the manager's write of it at reset is ARB_CLASS_WRITE, which sets ARB_SYNC.PENDING
(R79), a field outside the register written. -/
theorem not_registerAccessesStoreAndRestart : ¬ Obligations.RegisterAccessesStoreAndRestart := by
  unfold Obligations.RegisterAccessesStoreAndRestart
  rintro ⟨hplain, -⟩
  obtain ⟨t, hrun, -, -, hflds, -⟩ := hplain State.reset .manager (R.ARB_DEADLINE 1) 0 arbDeadline1Row rfl (by decide) nofun (by decide)
    (by decide +kernel) findRow_arbDeadline1 rfl arbDeadline1Row_plain (by decide +kernel)
  obtain rfl : State.reset.settle (State.reset.write .manager (R.ARB_DEADLINE 1) 8 0) = t := Host.Outcome.next.inj hrun
  have hkept := hflds.fld F.ARB_SYNC_PENDING (by decide)
  rw [State.settle_fld, arbDeadline1_write_sets_pending] at hkept
  exact absurd hkept (by decide +kernel)

/-! The holder after its opcode has run. -/

/-- The holder h has begun, with the reply r, or with none yet. -/
def State.leaveReply (s : State) (h : Holder) (r : Option MgmtReply) : State :=
  { s with mgmt.holder := some { h with started := true, reply := r } }

section
variable (s : State) (h : Holder) (r : Option MgmtReply)

@[simp] theorem State.leaveReply_mgmt : (s.leaveReply h r).mgmt = { s.mgmt with holder := some { h with started := true, reply := r } } := rfl
@[simp] theorem State.leaveReply_fld (f : Fld) : (s.leaveReply h r).fld f = s.fld f := rfl
@[simp] theorem State.leaveReply_on (f : Fld) : (s.leaveReply h r).on f = s.on f := rfl
@[simp] theorem State.leaveReply_instX (i : Nat) : (s.leaveReply h r).instX i = s.instX i := rfl
@[simp] theorem State.settle_instX (v : State) (i : Nat) : (v.settle s).instX i = s.instX i := rfl

end

/-- A change of the management state alone. -/
theorem Only.mgmtState {ps : List Part} {fs : List Fld} {s t : State} (m : MgmtState) (h : Only ps fs s t) (hp : Part.mgmt ∈ ps) :
    Only ps fs s { t with mgmt := m } := by
  refine h.parts rfl fun p hp' => ?_
  cases p <;> simp_all [Part.same]

/-- A change of the time state alone. -/
theorem Only.timeState {ps : List Part} {fs : List Fld} {s t : State} (x : TimeState) (h : Only ps fs s t) (hp : Part.time ∈ ps) :
    Only ps fs s { t with time := x } := by
  refine h.parts rfl fun p hp' => ?_
  cases p <;> simp_all [Part.same]

/-- The end of an opcode's run changes the management state alone. -/
theorem Only.ended {ps : List Part} {fs : List Fld} {s t : State} (v : State) (h : Holder) (r : Option MgmtReply) (ho : Only ps fs s t)
    (hp : Part.mgmt ∈ ps) : Only ps fs s (v.settle (t.leaveReply h r)) := (ho.mgmtState _ hp).settle v

/-- An opcode that leaves the management state to its end leaves the holder with its reply. -/
theorem MgmtAnswers.of_only {ps : List Part} {fs : List Fld} {s u : State} (v : State) (h : Holder) (r : Option MgmtReply) (hm : u.mgmt = s.mgmt)
    (ho : Only (.mgmt :: ps) fs s u) : MgmtAnswers s (v.settle (u.leaveReply h r)) h r ps fs :=
  ⟨by simp [hm], ho.ended v h r (List.mem_cons_self ..)⟩

theorem MgmtAnswers.self (s v : State) (h : Holder) (r : Option MgmtReply) : MgmtAnswers s (v.settle (s.leaveReply h r)) h r [] [] :=
  .of_only v h r rfl .refl

/-- A status that the spec leaves open refuses the command. -/
theorem MgmtRefuses.refuseOpen (s v : State) (h : Holder) : MgmtRefuses s (v.settle (s.refuseOpen.1.leaveReply h s.refuseOpen.2)) h :=
  ⟨_, rfl, Nat.succ_ne_zero _, rfl, Only.refl.draw.ended v h _ (List.mem_cons_self ..)⟩

/-! Running an opcode. -/

theorem State.mgmtRun_holds {s : State} {op : Nat} {h : Holder} (hh : s.Holds op h) (f : State → MgmtCmd → State × Option MgmtReply) :
    s.mgmtRun op f = (f s h.cmd).1.leaveReply h (f s h.cmd).2 := by
  obtain ⟨hs, hb, ho⟩ := hh
  simp [State.mgmtRun, State.leaveReply, hs, hb, ho]

/-- An opcode that need not wait ends as under `mgmtRun`. -/
theorem State.mgmtTry_holds {s u : State} {op : Nat} {h : Holder} {r : MgmtReply} (hh : s.Holds op h) {f : State → MgmtCmd → State × Option MgmtReply}
    (hf : f s h.cmd = (u, some r)) : s.mgmtTry op f = u.leaveReply h (some r) := by
  obtain ⟨hs, hb, ho⟩ := hh
  simp [State.mgmtTry, State.leaveReply, hs, hb, ho, hf]

/-- No holder of opcode op waits to begin. -/
def State.NoneToBegin (s : State) (op : Nat) : Prop := (s.mgmt.holder.any fun h => !h.started && decide (h.cmd.opcode = op)) = false

theorem State.NoneToBegin.skips {s : State} {op : Nat} {h : Holder} (hi : s.NoneToBegin op) (hs : s.mgmt.holder = some h) : h.started = true ∨ h.cmd.opcode ≠ op := by
  simpa [State.NoneToBegin, hs, Classical.or_iff_not_imp_left] using hi

theorem State.mgmtRun_idle {s : State} {op : Nat} (hi : s.NoneToBegin op) (f : State → MgmtCmd → State × Option MgmtReply) : s.mgmtRun op f = s := by
  unfold State.mgmtRun
  split
  · rfl
  · next h hs => exact if_pos (hi.skips hs)

theorem State.mgmtTry_idle {s : State} {op : Nat} (hi : s.NoneToBegin op) (f : State → MgmtCmd → State × Option MgmtReply) : s.mgmtTry op f = s := by
  unfold State.mgmtTry
  split
  · rfl
  · next h hs => exact if_pos (hi.skips hs)

section
variable {i : Instr} {s : State} {op : Nat} {h : Holder} {f : State → MgmtCmd → State × Option MgmtReply}

theorem exec_run (he : exec i s = settled s (.next (s.mgmtRun op f))) (hh : s.Holds op h) :
    exec i s = .next (s.settle ((f s h.cmd).1.leaveReply h (f s h.cmd).2)) := by
  rw [he, State.mgmtRun_holds hh, settled_next]

theorem exec_try {u : State} {r : MgmtReply} (he : exec i s = settled s (.next (s.mgmtTry op f))) (hh : s.Holds op h)
    (hf : f s h.cmd = (u, some r)) : exec i s = .next (s.settle (u.leaveReply h (some r))) := by
  rw [he, State.mgmtTry_holds hh hf, settled_next]

/-! A command whose opcode the holder does not carry. -/

theorem runsFor_slices (he : ∀ s, exec i s = whenSlices s (.next (s.mgmtRun op f))) : RunsFor i op := fun s hu hi =>
  ⟨_, by rw [he, whenSlices_of_up hu, State.mgmtRun_idle hi, settled_next], Only.refl.settle _⟩

/-- A command that the Keeper runs does nothing where the Keeper runs nothing for it, as before the ROM has run. -/
theorem runsFor_keeper (he : ∀ s, s.NoneToBegin op → exec i s = whenKeeper s (.next s)) : RunsFor i op := fun s hu hi => by
  cases hb : s.boot.romPending
  · exact ⟨_, by rw [he s hi, whenKeeper_of_up (slicesUp_running hu) hb, settled_next], Only.refl.settle _⟩
  · exact ⟨s, by rw [he s hi]; simp [whenKeeper, hb], Only.refl⟩

theorem runsFor_keeperRun (he : ∀ s, exec i s = whenKeeper s (.next (s.mgmtRun op f))) : RunsFor i op :=
  runsFor_keeper fun s hi => by rw [he, State.mgmtRun_idle hi]

theorem runsFor_keeperTry (he : ∀ s, exec i s = whenKeeper s (.next (s.mgmtTry op f))) : RunsFor i op :=
  runsFor_keeper fun s hi => by rw [he, State.mgmtTry_idle hi]

end

/-! Pages. -/

@[simp] theorem length_pageOf (n page : Nat) (fields : List Nat) : (pageOf n page fields).length = n := by simp [pageOf]

theorem splice_length {l bs : List Byte} {o : Nat} (h : o + bs.length ≤ l.length) : (splice l o bs).length = l.length := by
  simp [splice]; omega

theorem splice_getD_first {l bs : List Byte} {o : Nat} {b d : Byte} (h : o ≤ l.length) : (splice l o (b :: bs)).getD o d = b := by
  have hpad : o - l.length = 0 := by omega
  simp [splice, hpad, List.getD, h]

theorem beBytes_length (n x : Nat) : (beBytes n x).length = n := by
  have hle : ∀ n x, (leBytes n x).length = n := by
    intro n
    induction n with
    | zero => intro x; rfl
    | succ n ih => intro x; simp [leBytes, ih]
  simp [beBytes, hle]

theorem State.identityPage_length (s : State) : s.identityPage.length = 256 := by
  rw [State.identityPage, splice_length] <;> rw [length_pageOf]
  have := Nat.mod_lt Config.revisionAt (y := 256) (by decide)
  simp; omega

theorem State.identityPage_revision (s : State) : s.identityPage.getD (Config.revisionAt % 256) 0 = 0xB1 :=
  splice_getD_first (by rw [length_pageOf]; exact Nat.le_of_lt (Nat.mod_lt _ (by decide)))

/-! Downloads (R518). -/

section
variable {i : Instr} {s : State} {h : Holder} {op max off : Nat} {sel d : List Byte} {build : State → State × Option (List Byte)}

/-- No download of this opcode and selector is held. -/
theorem find?_download_eq_none (hn : ∀ b, b ∈ s.mgmt.bulk → b.upload = false → b.opcode = op → b.selector ≠ sel) :
    s.mgmt.bulk.find? (fun b => !b.upload && decide (b.opcode = op ∧ b.selector = sel)) = none := by
  simpa using hn

theorem download_missing (hb : build s = (s, none)) (hn : s.mgmt.bulk = []) : s.download op sel max off build = s.refuseOpen := by
  simp [State.download, hn, hb]

/-- A download of an object that is not held: past its end; whole; and, larger than the reply, with and without room to hold it. -/
theorem download_fresh (hb : build s = (s, some d)) (hn : ∀ b, b ∈ s.mgmt.bulk → b.upload = false → b.opcode = op → b.selector ≠ sel) :
    s.download op sel max off build =
      if d.length < off then (s, some (mkReply St.MGMT_OFFSET_INVALID [] 0))
      else if d.length - off ≤ max then (s, some { status := St.SUCCESS, payload := d.drop off, last := true, objOffset := off })
      else if 0x20000000 < s.bulkUsed + d.length then (s, some (mkReply St.MGMT_BULK_FULL [] 0))
      else (s.setBulk (s.mgmt.bulk ++ [{ upload := false, opcode := op, selector := sel, data := d, lastRead := s.time.mono }]),
        some { status := St.SUCCESS, payload := (d.drop off).take max, last := false, objOffset := off, remaining := d.length - off - max }) := by
  unfold State.download
  simp only [find?_download_eq_none hn, hb]
  by_cases hend : d.length < off
  · simp [hend]
  · by_cases hfit : d.length - off ≤ max
    · have htake : (d.drop off).take max = d.drop off := List.take_of_length_le (by simpa using hfit)
      simp [hend, hfit, htake]
    · have hrest : d.length - off - min max (d.length - off) = d.length - off - max := by omega
      have hmore : ¬ d.length - off - max = 0 := by omega
      simp [hend, hfit, hrest, hmore]

/-- The one object held, read to its last byte, is dropped. -/
theorem download_last {b : BulkObj} (hl : s.mgmt.bulk = [b]) (hu : b.upload = false) (ho : b.opcode = op) (hs : b.selector = sel)
    (hend : off ≤ b.data.length) (hfit : b.data.length - off ≤ max) :
    s.download op sel max off build =
      (s.setBulk [], some { status := St.SUCCESS, payload := b.data.drop off, last := true, objOffset := off }) := by
  have htake : (b.data.drop off).take max = b.data.drop off := List.take_of_length_le (by simpa using hfit)
  simp [State.download, hl, hu, ho, hs, Nat.not_lt.2 hend, htake]

@[simp] theorem State.setBulk_mgmt (s : State) (l : List BulkObj) : (s.setBulk l).mgmt = { s.mgmt with bulk := l } := rfl

theorem Only.setBulk {ps : List Part} {fs : List Fld} {s t : State} (l : List BulkObj) (ho : Only ps fs s t) (hp : Part.mgmt ∈ ps)
    (hf : F.MGMT_BULK_FREE ∈ fs) : Only ps fs s (t.setBulk l) := (ho.mgmtState _ hp).setFld _ hf

/-- A command that downloads an object which is not held. -/
theorem completes_download_fresh
    (he : exec i s = .next (s.settle ((s.download op sel max off build).1.leaveReply h (s.download op sel max off build).2)))
    (hb : build s = (s, some d)) (hn : ∀ b, b ∈ s.mgmt.bulk → b.upload = false → b.opcode = op → b.selector ≠ sel) :
    (d.length < off → Completes s i fun t => MgmtAnswers s t h (some (mkReply St.MGMT_OFFSET_INVALID [] 0)) [] []) ∧
    (off ≤ d.length → d.length - off ≤ max → Completes s i fun t =>
      MgmtAnswers s t h (some { status := St.SUCCESS, payload := d.drop off, last := true, objOffset := off }) [] []) ∧
    (off + max < d.length → 0x20000000 < s.bulkUsed + d.length → Completes s i fun t => MgmtAnswers s t h (some (mkReply St.MGMT_BULK_FULL [] 0)) [] []) ∧
    (off + max < d.length → s.bulkUsed + d.length ≤ 0x20000000 → Completes s i fun t =>
      t.mgmt = { s.mgmt with bulk := s.mgmt.bulk ++ [{ upload := false, opcode := op, selector := sel, data := d, lastRead := s.time.mono }], holder := some { h with started := true, reply := some { status := St.SUCCESS, payload := (d.drop off).take max, last := false, objOffset := off, remaining := d.length - off - max } } } ∧
      Only [.mgmt] [F.MGMT_BULK_FREE] s t) := by
  rw [download_fresh hb hn] at he
  refine ⟨fun hend => ?_, fun hend hfit => ?_, fun hmore hfull => ?_, fun hmore hroom => ?_⟩
  · rw [if_pos hend] at he
    exact ⟨_, he, .self ..⟩
  · rw [if_neg (by omega), if_pos hfit] at he
    exact ⟨_, he, .self ..⟩
  · rw [if_neg (by omega), if_neg (by omega), if_pos hfull] at he
    exact ⟨_, he, .self ..⟩
  · rw [if_neg (by omega), if_neg (by omega), if_neg (by omega)] at he
    exact ⟨_, he, rfl, (Only.refl.setBulk _ (by simp) (by simp)).ended _ _ _ (by simp)⟩

/-- A command that downloads to its last byte the one object held. -/
theorem completes_download_last
    (he : exec i s = .next (s.settle ((s.download op sel max off build).1.leaveReply h (s.download op sel max off build).2)))
    (b : BulkObj) (hl : s.mgmt.bulk = [b]) (hu : b.upload = false) (ho : b.opcode = op) (hs : b.selector = sel)
    (hend : off ≤ b.data.length) (hfit : b.data.length - off ≤ max) :
    Completes s i fun t =>
      t.mgmt = { s.mgmt with bulk := [], holder := some { h with started := true, reply := some { status := St.SUCCESS, payload := b.data.drop off, last := true, objOffset := off } } } ∧
      Only [.mgmt] [F.MGMT_BULK_FREE] s t := by
  rw [download_last hl hu ho hs hend hfit] at he
  exact ⟨_, he, rfl, (Only.refl.setBulk _ (by simp) (by simp)).ended _ _ _ (by simp)⟩

end

/-! The reports (R5, R488, R520, R523). -/

section
variable {s : State} {h : Holder} {i : Instr} {op : Nat}

/-- An opcode whose function refuses the command. -/
theorem completes_refused {f : State → MgmtCmd → State × Option MgmtReply} (he : exec i s = settled s (.next (s.mgmtRun op f))) (hh : s.Holds op h)
    (hf : f s h.cmd = s.refuseOpen) : Completes s i (MgmtRefuses s · h) :=
  ⟨_, exec_run he hh, by rw [hf]; exact .refuseOpen ..⟩

theorem completes_identify (hr : s.running = true) (hb : s.boot.romPending = false) (hh : s.Holds 0x0100 h) :
    Completes s .identify fun t => ∃ d : List Byte, d.length = 256 ∧ d.getD (Config.revisionAt % 256) 0 = 0xB1 ∧
      MgmtAnswers s t h (some (mkReply St.SUCCESS d 0)) [] [] :=
  ⟨_, exec_run (whenKeeper_of_up hr hb) hh, _, s.identityPage_length, s.identityPage_revision, .self ..⟩

theorem completes_getVersion (hu : s.slicesUp = true) (hh : s.Holds 0x10001 h) :
    Completes s .getVersion fun t => ∃ d : List Byte, d.length = 64 ∧ MgmtAnswers s t h (some (mkReply St.SUCCESS d 0)) [] [] :=
  ⟨_, exec_run (whenSlices_of_up hu) hh, _, length_pageOf .., .self ..⟩

theorem completes_getTemperature (hu : s.slicesUp = true) (hh : s.Holds 0x10040 h) :
    Completes s .getTemperature fun t => ∃ d : List Byte, d.length = 4 ∧ MgmtAnswers s t h (some (mkReply St.SUCCESS d 0)) [] [] :=
  ⟨_, exec_run (whenSlices_of_up hu) hh, _, beBytes_length .., .of_only _ _ _ rfl Only.refl.draw⟩

end

/-! LOG_READ, READ_LOG, LOG_CLEAR and BULK_RELEASE (R464, R488, R518, R520, R523). -/

section
variable {s : State} {h : Holder} {c : MgmtCmd}

/-- What LOG_READ does with a command. -/
def State.logReadRun (s : State) (c : MgmtCmd) : State × Option MgmtReply :=
  if s.boot.recovery ∧ c.num 1 ≠ 5 then (s, some (mkReply St.RECOVERY_ACTIVE [] 0))
  else if !maxLenOk (c.num 0) ∨ (c.num 1 = 5 ∧ !s.boot.recovery) then s.refuseOpen
  else s.download 0x0400 (c.payload.drop 4) (c.num 0) c.objOffset (fun u => (u, u.logObject (c.num 1) (c.num 2) (c.num 3)))

theorem exec_logRead (hr : s.running = true) (hb : s.boot.romPending = false) (hh : s.Holds 0x0400 h) :
    exec .logRead s = .next (s.settle ((s.logReadRun h.cmd).1.leaveReply h (s.logReadRun h.cmd).2)) :=
  exec_run (f := State.logReadRun) (whenKeeper_of_up hr hb) hh

theorem completes_logRead_refused (hr : s.running = true) (hb : s.boot.romPending = false) (hh : s.Holds 0x0400 h)
    (hf : s.logReadRun h.cmd = s.refuseOpen) : Completes s .logRead (MgmtRefuses s · h) :=
  completes_refused (f := State.logReadRun) (whenKeeper_of_up hr hb) hh hf

/-- In Recovery the Recovery log alone is read. -/
theorem logReadRun_recovery (hr : s.boot.recovery = true) (h5 : c.num 1 ≠ 5) : s.logReadRun c = (s, some (mkReply St.RECOVERY_ACTIVE [] 0)) :=
  if_pos ⟨hr, h5⟩

theorem logReadRun_refused (h5 : s.boot.recovery = false ∨ c.num 1 = 5) (hc : maxLenOk (c.num 0) = false ∨ (c.num 1 = 5 ∧ s.boot.recovery = false)) :
    s.logReadRun c = s.refuseOpen := by
  have hnot : ¬ (s.boot.recovery = true ∧ c.num 1 ≠ 5) := by rcases h5 with h5 | h5 <;> simp [h5]
  rw [State.logReadRun, if_neg hnot, if_pos (by simpa using hc)]

/-- The log of Recovery in Recovery, and any other outside it, is a download. -/
theorem logReadRun_download (hl : maxLenOk (c.num 0) = true) (h5 : s.boot.recovery = decide (c.num 1 = 5)) :
    s.logReadRun c = s.download 0x0400 (c.payload.drop 4) (c.num 0) c.objOffset (fun u => (u, u.logObject (c.num 1) (c.num 2) (c.num 3))) := by
  unfold State.logReadRun
  by_cases hn : c.num 1 = 5 <;> simp [hl, h5, hn]

theorem exec_logRead_download (hr : s.running = true) (hb : s.boot.romPending = false) (hh : s.Holds 0x0400 h) (hl : maxLenOk (h.cmd.num 0) = true)
    (hin : h.cmd.num 1 = if s.boot.recovery then 5 else h.cmd.num 1) (hout : s.boot.recovery = true ∨ h.cmd.num 1 ≠ 5) :
    let r := s.download 0x0400 (h.cmd.payload.drop 4) (h.cmd.num 0) h.cmd.objOffset (fun u => (u, u.logObject (h.cmd.num 1) (h.cmd.num 2) (h.cmd.num 3)))
    exec .logRead s = .next (s.settle (r.1.leaveReply h r.2)) := by
  have h5 : s.boot.recovery = decide (h.cmd.num 1 = 5) := by
    cases hrec : s.boot.recovery
    · simpa [hrec] using hout
    · simpa [hrec] using hin
  exact logReadRun_download hl h5 ▸ exec_logRead hr hb hh

theorem completes_logRead_noObject (hr : s.running = true) (hb : s.boot.romPending = false) (hh : s.Holds 0x0400 h) (hl : maxLenOk (h.cmd.num 0) = true)
    (hrec : s.boot.recovery = false)
    (ho : h.cmd.num 1 = 5 ∨ (s.mgmt.bulk = [] ∧ s.logObject (h.cmd.num 1) (h.cmd.num 2) (h.cmd.num 3) = none)) :
    Completes s .logRead (MgmtRefuses s · h) := by
  refine completes_logRead_refused hr hb hh ?_
  by_cases h5 : h.cmd.num 1 = 5
  · exact logReadRun_refused (.inl hrec) (.inr ⟨h5, hrec⟩)
  · obtain ⟨hnone, ho⟩ := ho.resolve_left h5
    rw [logReadRun_download hl (by simp [hrec, h5]), download_missing (by rw [ho]) hnone]

/-- What READ_LOG does with a command (R523). -/
def State.readLogRun (s : State) (c : MgmtCmd) : State × Option MgmtReply :=
  if beAt c.payload 4 4 = 0 ∨ 3968 < beAt c.payload 4 4 then s.refuseOpen
  else s.download 0x10010 [] (beAt c.payload 4 4) (beAt c.payload 0 4) (fun u => (u, some (u.deviceLog 0x14001)))

theorem exec_readLog (hu : s.slicesUp = true) (hh : s.Holds 0x10010 h) (h0 : beAt h.cmd.payload 4 4 ≠ 0) (hmax : beAt h.cmd.payload 4 4 ≤ 3968) :
    let r := s.download 0x10010 [] (beAt h.cmd.payload 4 4) (beAt h.cmd.payload 0 4) (fun u => (u, some (u.deviceLog 0x14001)))
    exec .readLog s = .next (s.settle (r.1.leaveReply h r.2)) := by
  have hrun : s.readLogRun h.cmd = _ := if_neg (by omega)
  exact hrun ▸ exec_run (f := State.readLogRun) (whenSlices_of_up hu) hh

theorem State.instX_setInstX_same (s : State) (i : Nat) (x : InstX) : (s.setInstX i x).instX i = x := Map.get_put_same ..

theorem State.instX_setInstX_ne (s : State) {i j : Nat} (x : InstX) (hj : j ≠ i) : (s.setInstX i x).instX j = s.instX j := Map.get_put_ne _ _ _ hj

theorem completes_logClear (hu : s.slicesUp = true) (hh : s.Holds 0x0401 h) (h2 : h.cmd.num 0 = 2) (hi : h.cmd.num 1 < 4104) :
    Completes s .logClear fun t => t.instX (h.cmd.num 1) = { s.instX (h.cmd.num 1) with log := [] } ∧
      (∀ i, i ≠ h.cmd.num 1 → t.instX i = s.instX i) ∧ MgmtAnswers s t h (some (mkReply St.SUCCESS [] 0)) [.inst] [] := by
  refine ⟨_, exec_run (whenSlices_of_up hu) hh, ?_⟩
  rw [if_neg (by omega)]
  refine ⟨?_, fun i hne => ?_, .of_only _ _ _ rfl (Only.refl.setInstX _ _ (by simp))⟩
  · simp [State.instX_setInstX_same]
  · simp [State.instX_setInstX_ne _ _ hne]

theorem completes_bulkRelease_none (hu : s.slicesUp = true) (hh : s.Holds 0x0403 h) (hl : s.mgmt.bulk = []) :
    Completes s .bulkRelease fun t => ∃ x, MgmtAnswers s t h (some (mkReply x [] 0)) [] [] := by
  refine ⟨_, exec_run (whenSlices_of_up hu) hh, ?_⟩
  rw [if_neg (by simp [hl])]
  exact ⟨_, .of_only _ _ _ rfl Only.refl.draw⟩

/-- The one object held is dropped, and the whole area is free. -/
theorem completes_bulkRelease_one {b : BulkObj} (hu : s.slicesUp = true) (hh : s.Holds 0x0403 h) (hl : s.mgmt.bulk = [b]) (ho : b.opcode = h.cmd.num 0)
    (hs : b.selector = h.cmd.payload.drop 4) : Completes s .bulkRelease fun t =>
      t.mgmt = { s.mgmt with bulk := [], holder := some { h with started := true, reply := some (mkReply St.SUCCESS [] 0) } } ∧
      t.fld F.MGMT_BULK_FREE = 0x20000000 ∧ Only [.mgmt] [F.MGMT_BULK_FREE] s t := by
  refine ⟨_, exec_run (whenSlices_of_up hu) hh, ?_⟩
  rw [if_pos (by simp [hl, ho, hs]), show s.mgmt.bulk.filter _ = [] by simp [hl, ho, hs]]
  refine ⟨rfl, ?_, (Only.refl.setBulk _ (by simp) (by simp)).ended _ _ _ (by simp)⟩
  rw [State.settle_fld, State.leaveReply_fld, State.setBulk, State.fld_setFld_same _ _ _ (by decide)]
  simp [State.bulkUsed]

end

/-! EVENT_RING_SET (R519). -/

@[simp] theorem State.korrumSend_mgmt (s : State) (p : KPkt) : (s.korrumSend p).mgmt = s.mgmt := by
  unfold State.korrumSend State.korrumRoute
  dsimp only
  split
  · rfl
  · split <;> rfl

section
variable {ps : List Part} {fs : List Fld} {s t : State}

/-- A packet of the device changes the links, or is counted as unreachable (R306, R307). -/
theorem Only.korrumSend (p : KPkt) (h : Only ps fs s t) (hp : Part.links ∈ ps) (hf : F.KL_UNREACH_DROP ∈ fs) : Only ps fs s (t.korrumSend p) := by
  unfold State.korrumSend State.korrumRoute
  dsimp only
  split
  · exact h.incFld hf
  · split
    · exact h.setLink _ _ hp
    · exact h.setLink _ _ hp

theorem Only.fedSendAll (set kind : Nat) (l : List Nat) (h : Only ps fs s t) (hp : Part.links ∈ ps) (hf : F.KL_UNREACH_DROP ∈ fs) :
    Only ps fs s (t.fedSendAll set kind l) :=
  Only.foldl _ _ (fun _ _ _ hu => hu.korrumSend _ hp hf) _ h

end

@[simp] theorem State.fedSendAll_mgmt (s : State) (set kind : Nat) (l : List Nat) : (s.fedSendAll set kind l).mgmt = s.mgmt := by
  unfold State.fedSendAll
  generalize (idsOf set).filter _ = dests
  induction dests generalizing s with
  | nil => rfl
  | cons d dests ih => exact (ih _).trans (State.korrumSend_mgmt ..)

section
variable {s : State} {h : Holder}

theorem State.askSink_on_sink (s : State) : (s.askSink true).mgmt.sink = some s.fedId := by
  simp only [State.askSink, Bool.not_true, Bool.false_eq_true, if_false]
  split
  · simp
  · split
    · simp [State.fedSend]
    · rfl

theorem State.askSink_off (s : State) : s.askSink false = if s.mgmt.sink = some s.fedId then { s with mgmt.sink := none } else s := rfl

theorem Only.askSink_on {ps : List Part} {fs : List Fld} {s t : State} (h : Only ps fs s t) (hm : Part.mgmt ∈ ps) (hp : Part.links ∈ ps)
    (hf : F.KL_UNREACH_DROP ∈ fs) : Only ps fs s (t.askSink true) := by
  have hs : Only ps fs s { t with mgmt.sink := some t.fedId } := h.mgmtState _ hm
  simp only [State.askSink, Bool.not_true, Bool.false_eq_true, if_false]
  split
  · exact hs.fedSendAll _ _ _ hp hf
  · split
    · exact hs.korrumSend _ hp hf
    · exact hs

/-- MGMT_EVENT_CFG as EVENT_RING_SET sets it: ring r, 0xFFFF for none, and FED_SINK. -/
def State.setEventCfg (s : State) (r sink : Nat) : State :=
  ((s.setFld F.MGMT_EVENT_CFG_ENABLE (b2n (decide (r ≠ 0xFFFF)))).setFld F.MGMT_EVENT_CFG_RING (if r = 0xFFFF then 0 else r)).setFld F.MGMT_EVENT_CFG_FED_SINK (sink % 2)

theorem State.setEventCfg_enable (s : State) (r sink : Nat) : (s.setEventCfg r sink).on F.MGMT_EVENT_CFG_ENABLE = decide (r ≠ 0xFFFF) := by
  have hfld : (s.setEventCfg r sink).fld F.MGMT_EVENT_CFG_ENABLE = b2n (decide (r ≠ 0xFFFF)) % 2 := by
    rw [State.setEventCfg, State.fld_setFld_disjoint _ _ _ _ (by decide), State.fld_setFld_disjoint _ _ _ _ (by decide), State.fld_setFld_same _ _ _ (by decide)]
    rfl
  rw [State.on, hfld]
  by_cases hr : r = 0xFFFF <;> simp [hr, b2n]

theorem State.setEventCfg_ring (s : State) {r : Nat} (sink : Nat) (hr : r < 4096) : (s.setEventCfg r sink).fld F.MGMT_EVENT_CFG_RING = r := by
  rw [State.setEventCfg, State.fld_setFld_disjoint _ _ _ _ (by decide), State.fld_setFld_same _ _ _ (by decide), if_neg (by omega)]
  exact Nat.mod_eq_of_lt hr

theorem State.setEventCfg_sink (s : State) (r sink : Nat) : (s.setEventCfg r sink).on F.MGMT_EVENT_CFG_FED_SINK = bitOf sink 0 := by
  rw [State.on, State.setEventCfg, State.fld_setFld_same _ _ _ (by decide)]
  simp [bitOf]

theorem State.setEventCfg_fedId (s : State) (r sink : Nat) : (s.setEventCfg r sink).fedId = s.fedId := by
  have hrd : (s.setEventCfg r sink).rd R.FED_ID = s.rd R.FED_ID := by
    simp only [State.setEventCfg]
    rw [State.rd_setFld_ne _ _ _ (by decide), State.rd_setFld_ne _ _ _ (by decide), State.rd_setFld_ne _ _ _ (by decide)]
  have hfld : ∀ f : Fld, f.addr = R.FED_ID → (s.setEventCfg r sink).fld f = s.fld f := fun f hf => by rw [State.fld, hf, hrd, ← hf, State.fld]
  unfold State.fedId State.on
  rw [hfld _ rfl, hfld _ rfl]

theorem Only.setEventCfg (s : State) (r sink : Nat) :
    Only [.mgmt] [F.MGMT_EVENT_CFG_ENABLE, F.MGMT_EVENT_CFG_RING, F.MGMT_EVENT_CFG_FED_SINK] s (s.setEventCfg r sink) :=
  ((Only.refl.setFld _ (by simp)).setFld _ (by simp)).setFld _ (by simp)

/-- What EVENT_RING_SET does with a command. -/
def State.eventRingRun (s : State) (c : MgmtCmd) : State × Option MgmtReply :=
  if 4096 ≤ c.num 0 ∧ c.num 0 ≠ 0xFFFF then s.refuseOpen
  else ((s.setEventCfg (c.num 0) (c.num 1)).askSink (bitOf (c.num 1) 0), some (okReply []))

theorem exec_eventRingSet (hu : s.slicesUp = true) (hh : s.Holds 0x0402 h) (hr : h.cmd.num 0 < 4096 ∨ h.cmd.num 0 = 0xFFFF) :
    exec .eventRingSet s = .next (s.settle (((s.setEventCfg (h.cmd.num 0) (h.cmd.num 1)).askSink (bitOf (h.cmd.num 1) 0)).leaveReply h (some (okReply [])))) := by
  have hrun : s.eventRingRun h.cmd = _ := if_neg (by omega)
  have he := exec_run (f := State.eventRingRun) (whenSlices_of_up hu) hh (i := .eventRingSet)
  rwa [hrun] at he

/-- FED_SINK set: this device is the sink, and asks the federation for it (R519). -/
theorem completes_eventRingSet_sink (hu : s.slicesUp = true) (hh : s.Holds 0x0402 h) (hr : h.cmd.num 0 < 4096 ∨ h.cmd.num 0 = 0xFFFF)
    (hk : bitOf (h.cmd.num 1) 0 = true) : Completes s .eventRingSet fun t =>
      t.on F.MGMT_EVENT_CFG_FED_SINK = true ∧ t.mgmt.sink = some s.fedId ∧ t.on F.MGMT_EVENT_CFG_ENABLE = decide (h.cmd.num 0 ≠ 0xFFFF) := by
  have he := exec_eventRingSet hu hh hr
  rw [hk] at he
  refine ⟨_, he, ?_⟩
  obtain ⟨-, hflds, -⟩ := (Only.refl (ps := [.mgmt, .links]) (fs := [F.KL_UNREACH_DROP]) (s := s.setEventCfg (h.cmd.num 0) (h.cmd.num 1))).askSink_on
    (by simp) (by simp) (by simp)
  simp only [State.settle_on, State.leaveReply_on, State.settle_mgmt, State.leaveReply_mgmt, State.askSink_on_sink, State.setEventCfg_fedId]
  refine ⟨?_, trivial, ?_⟩
  · rw [State.on, hflds.fld _ (by decide)]
    exact (State.setEventCfg_sink ..).trans hk
  · rw [State.on, hflds.fld _ (by decide)]
    exact State.setEventCfg_enable ..

/-- FED_SINK clear, where this device was the sink: there is none. -/
theorem completes_eventRingSet_unsink (hu : s.slicesUp = true) (hh : s.Holds 0x0402 h) (hr : h.cmd.num 0 < 4096 ∨ h.cmd.num 0 = 0xFFFF)
    (hk : bitOf (h.cmd.num 1) 0 = false) (hs : s.mgmt.sink = some s.fedId) : Completes s .eventRingSet fun t =>
      t.on F.MGMT_EVENT_CFG_FED_SINK = false ∧ t.mgmt.sink = none := by
  have hask : (s.setEventCfg (h.cmd.num 0) (h.cmd.num 1)).askSink false =
      { s.setEventCfg (h.cmd.num 0) (h.cmd.num 1) with mgmt.sink := none } := by
    rw [State.askSink_off, if_pos]; exact hs.trans (by rw [State.setEventCfg_fedId])
  have he := exec_eventRingSet hu hh hr
  rw [hk, hask] at he
  exact ⟨_, he, (State.setEventCfg_sink ..).trans hk, rfl⟩

/-- FED_SINK clear, where this device was not the sink: MGMT_EVENT_CFG alone changes. -/
theorem exec_eventRingSet_plain (hu : s.slicesUp = true) (hh : s.Holds 0x0402 h) (hr : h.cmd.num 0 < 4096 ∨ h.cmd.num 0 = 0xFFFF)
    (hk : bitOf (h.cmd.num 1) 0 = false) (hs : s.mgmt.sink ≠ some s.fedId) :
    exec .eventRingSet s = .next (s.settle ((s.setEventCfg (h.cmd.num 0) (h.cmd.num 1)).leaveReply h (some (okReply [])))) := by
  have hask : (s.setEventCfg (h.cmd.num 0) (h.cmd.num 1)).askSink false = s.setEventCfg (h.cmd.num 0) (h.cmd.num 1) := by
    rw [State.askSink_off, if_neg]; rw [State.setEventCfg_fedId]; exact hs
  have he := exec_eventRingSet hu hh hr
  rwa [hk, hask] at he

theorem completes_eventRingSet_ring (hu : s.slicesUp = true) (hh : s.Holds 0x0402 h) (hk : bitOf (h.cmd.num 1) 0 = false)
    (hs : s.mgmt.sink ≠ some s.fedId) (hr : h.cmd.num 0 < 4096) : Completes s .eventRingSet fun t =>
      t.on F.MGMT_EVENT_CFG_ENABLE = true ∧ t.fld F.MGMT_EVENT_CFG_RING = h.cmd.num 0 ∧
      MgmtAnswers s t h (some (mkReply St.SUCCESS [] 0)) [] [F.MGMT_EVENT_CFG_ENABLE, F.MGMT_EVENT_CFG_RING, F.MGMT_EVENT_CFG_FED_SINK] :=
  ⟨_, exec_eventRingSet_plain hu hh (.inl hr) hk hs, (State.setEventCfg_enable ..).trans (by simp; omega), State.setEventCfg_ring s _ hr,
    .of_only _ _ _ rfl (Only.setEventCfg ..)⟩

theorem completes_eventRingSet_noRing (hu : s.slicesUp = true) (hh : s.Holds 0x0402 h) (hk : bitOf (h.cmd.num 1) 0 = false)
    (hs : s.mgmt.sink ≠ some s.fedId) (hr : h.cmd.num 0 = 0xFFFF) : Completes s .eventRingSet fun t =>
      t.on F.MGMT_EVENT_CFG_ENABLE = false ∧
      MgmtAnswers s t h (some (mkReply St.SUCCESS [] 0)) [] [F.MGMT_EVENT_CFG_ENABLE, F.MGMT_EVENT_CFG_RING, F.MGMT_EVENT_CFG_FED_SINK] :=
  ⟨_, exec_eventRingSet_plain hu hh (.inr hr) hk hs, (State.setEventCfg_enable ..).trans (by simp [hr]), .of_only _ _ _ rfl (Only.setEventCfg ..)⟩

end

/-! Registers, time and clusters (R51, R97, R122, R123, R520). -/

section
variable {s : State} {h : Holder} {i : Instr} {op : Nat}

theorem completes_regRead {a : Nat} (hr : s.running = true) (hb : s.boot.romPending = false) (hh : s.Holds 0x0704 h) (ha : h.cmd.regAddr = some a) :
    Completes s .regRead fun t =>
      MgmtAnswers (s.readDev .manager a 8).1 t h (some (mkReply St.SUCCESS (leBytes 8 (s.readDev .manager a 8).2) 0)) [] [] :=
  ⟨_, exec_try (whenKeeper_of_up hr hb) hh (by rw [ha]; rfl), .self ..⟩

theorem completes_regWrite {a : Nat} (hr : s.running = true) (hb : s.boot.romPending = false) (hh : s.Holds 0x0705 h) (ha : h.cmd.regAddr = some a) :
    Completes s .regWrite fun t => MgmtAnswers (s.writeDev .manager a 8 (leAt h.cmd.payload 8 8)) t h (some (mkReply St.SUCCESS [] 0)) [] [] :=
  ⟨_, exec_try (whenKeeper_of_up hr hb) hh (by rw [ha]; rfl), .self ..⟩

/-- A register access of no address that BAR2 reaches answers some status of 16 bits. -/
theorem completes_noRegister {f : State → MgmtCmd → State × Option MgmtReply} (he : exec i s = settled s (.next (s.mgmtTry op f))) (hh : s.Holds op h)
    (hf : f s h.cmd = (s.draw, some { status := Config.unstated s.freeCtr % 65536 })) :
    Completes s i fun t => ∃ x, x < 65536 ∧ MgmtAnswers s t h (some { status := x }) [] [] :=
  ⟨_, exec_try he hh hf, _, Nat.mod_lt _ (by decide), .of_only _ _ _ rfl Only.refl.draw⟩

theorem completes_timePtpCfg (hu : s.slicesUp = true) (hh : s.Holds 0x0800 h) : Completes s .timePtpCfg fun t =>
    t.time = { s.time with ptpDomain := h.cmd.num 0, ptpDelayMech := h.cmd.num 1, ptpTransport := h.cmd.num 2, ptpLogSync := h.cmd.num 3 } ∧
    MgmtAnswers s t h (some (mkReply St.SUCCESS [] 0)) [.time] [] :=
  ⟨_, exec_run (whenSlices_of_up hu) hh, rfl, .of_only _ _ _ rfl (Only.refl.timeState _ (by simp))⟩

/-- An opcode on a cluster there is not. -/
theorem completes_noCluster {f : State → Nat → Nat → MgmtCmd → State} (he : exec i s = settled s (.next (s.clusterOp op f))) (hh : s.Holds op h)
    (hc : 4 ≤ h.cmd.num 0 ∨ 4 ≤ h.cmd.num 1) : Completes s i (MgmtRefuses s · h) :=
  completes_refused he hh (if_neg (by omega))

/-- An opcode on a cluster there is ends with what f does to it. -/
theorem exec_clusterOp {f : State → Nat → Nat → MgmtCmd → State} (he : exec i s = settled s (.next (s.clusterOp op f))) (hh : s.Holds op h)
    (h0 : h.cmd.num 0 < 4) (h1 : h.cmd.num 1 < 4) :
    exec i s = .next (s.settle ((f s (h.cmd.num 0) (h.cmd.num 1) h.cmd).leaveReply h (some (okReply [])))) := by
  have hrun := exec_run he hh
  rwa [if_pos ⟨h0, h1⟩] at hrun

theorem Only.dumpCluster {ps : List Part} {fs : List Fld} {t : State} (sl k : Nat) (ho : Only ps fs s t) (hp : Part.dumps ∈ ps) :
    Only ps fs s (t.dumpCluster sl k) := by
  refine ho.parts rfl fun p hp' => ?_
  cases p <;> simp_all [Part.same, State.dumpCluster]

theorem completes_clusterDump (hu : s.slicesUp = true) (hh : s.Holds 0x0700 h) (h0 : h.cmd.num 0 < 4) (h1 : h.cmd.num 1 < 4) :
    Completes s .clusterDump fun t =>
      t.core.dumps.head? = some (clKey (h.cmd.num 0) (h.cmd.num 1), s.time.mono, s.dumpOf (h.cmd.num 0) (h.cmd.num 1)) ∧
      MgmtAnswers s t h (some (mkReply St.SUCCESS [] 0)) [.dumps] [] :=
  ⟨_, exec_clusterOp (whenSlices_of_up hu) hh h0 h1, rfl, .of_only _ _ _ rfl (Only.refl.dumpCluster _ _ (by simp))⟩

end

/-- Settles O58: each opcode's clauses by its lemma above. -/
theorem reportAndControlOpcodes : Obligations.ReportAndControlOpcodes := by
  unfold Obligations.ReportAndControlOpcodes
  -- first the commands whose opcode the holder does not carry
  refine ⟨⟨runsFor_keeperRun fun _ => rfl, runsFor_keeperRun fun _ => rfl, runsFor_keeperRun fun _ => rfl, runsFor_slices fun _ => rfl,
    runsFor_slices fun _ => rfl, runsFor_slices fun _ => rfl, runsFor_slices fun _ => rfl, runsFor_slices fun _ => rfl, runsFor_slices fun _ => rfl,
    runsFor_slices fun _ => rfl, runsFor_slices fun _ => rfl, runsFor_keeperRun fun _ => rfl, runsFor_keeperTry fun _ => rfl,
    runsFor_keeperTry fun _ => rfl, runsFor_slices fun _ => rfl, runsFor_slices fun _ => rfl, runsFor_slices fun _ => rfl, runsFor_slices fun _ => rfl,
    runsFor_slices fun _ => rfl, runsFor_slices fun _ => rfl, runsFor_slices fun _ => rfl⟩, fun s h hr hb => ?_⟩
  -- the opcodes that the Keeper runs in Recovery too, and the register accesses
  have keeperUp : ∀ {o}, whenKeeper s o = settled s o := whenKeeper_of_up hr hb
  refine ⟨completes_identify hr hb, fun hh => ⟨_, exec_run keeperUp hh, .self ..⟩,
    fun hh hl h5 => completes_logRead_refused hr hb hh (logReadRun_refused h5 (.inl hl)),
    fun hh hl => ⟨fun hrec h5 => ⟨_, exec_logRead hr hb hh, by rw [logReadRun_recovery hrec h5]; exact .self ..⟩, completes_logRead_noObject hr hb hh hl,
      fun d hin hout hd => ⟨completes_download_fresh (exec_logRead_download hr hb hh hl hin hout) (congrArg (Prod.mk s) hd),
        completes_download_last (exec_logRead_download hr hb hh hl hin hout)⟩⟩,
    fun hh => ⟨_, exec_run keeperUp hh, .self ..⟩, fun a => completes_regRead hr hb, fun a => completes_regWrite hr hb,
    fun hh ha => completes_noRegister keeperUp hh (by rw [ha]), fun hh ha => completes_noRegister keeperUp hh (by rw [ha]), fun hu => ?_⟩
  -- the opcodes that need the slices
  have slicesUp : ∀ {o}, whenSlices s o = settled s o := whenSlices_of_up hu
  exact ⟨completes_logClear hu, fun hh hc => completes_refused slicesUp hh (if_pos (by omega)),
    fun hh h1 h2 => completes_refused slicesUp hh (if_pos ⟨h1, h2⟩), completes_eventRingSet_sink hu, completes_eventRingSet_unsink hu,
    fun hh hk hs => ⟨completes_eventRingSet_ring hu hh hk hs, completes_eventRingSet_noRing hu hh hk hs⟩, completes_bulkRelease_none hu,
    fun b hh hl => completes_bulkRelease_one hu hh hl,
    fun hh => ⟨_, exec_run slicesUp hh, _, .self ..⟩, fun hh => ⟨_, exec_run slicesUp hh, _, .self ..⟩, fun hh => ⟨_, exec_run slicesUp hh, _, .self ..⟩,
    completes_getVersion hu, fun hh => ⟨_, exec_run slicesUp hh, .self ..⟩, completes_getTemperature hu, fun hh => ⟨_, exec_run slicesUp hh, .self ..⟩,
    fun hh hn => completes_refused slicesUp hh (if_pos hn),
    fun hh h0 hmax => ⟨completes_download_fresh (exec_readLog hu hh h0 hmax) rfl, completes_download_last (exec_readLog hu hh h0 hmax)⟩,
    completes_timePtpCfg hu,
    fun hc => ⟨fun hh => completes_noCluster slicesUp hh hc, fun hh => completes_noCluster slicesUp hh hc, fun hh => completes_noCluster slicesUp hh hc⟩,
    fun h0 h1 => ⟨fun hh => completes_clusterDump hu hh h0 h1, fun hh => ⟨_, exec_clusterOp slicesUp hh h0 h1, .self ..⟩,
      fun hh => ⟨_, exec_clusterOp slicesUp hh h0 h1, .self ..⟩⟩⟩

end Sys2Proof.Machine
end

section
/-!
PROOFS. Obligations O36 and O40: destination lookup, and acknowledgements at a requester. Each has an operand that no premise bounds, and two registers
coincide past its range.
-/

namespace Sys2Proof.Machine

/-- The value of field f in the next state an outcome gives. -/
def fldAfter (f : Fld) : Host.Outcome State Fault Refusal → Option Nat
  | .next t => some (t.fld f)
  | _ => none

theorem fldAfter_exec_of_counts {s s1 : State} {i : Instr} {f : Fld} {P : State → Prop} {n : Nat} (h : Completes s i P) (hP : ∀ t, P t → Counts s1 t f n) :
    fldAfter f (exec i s) = some ((s1.fld f + n) % 2 ^ f.width) := by
  obtain ⟨t, hrun, ht⟩ := h
  rw [hrun]
  exact congrArg some (hP t ht)

/-! A destination lookup whose member has no route (R206). -/

/-- An entry of a member past the federation's last: KL_ROUTE of this origin would be the register ADDR_LOOKUPS[5]. -/
def farEntry : AddrEntry :=
  { mac := 0, bd := 0, handle := 0, port := 0, isStatic := false, remote := true, origin := 1990530, originSlice := 0, stamp := 0, lastSeen := 0, announced := 0 }

/-- A whole frame before its destination lookup, in a slice past the last of the four. -/
def farFrame : Frame := { id := 1, origin := .eth 5 0, slice := 5, stage := .addrLookup, data := [], arrived := 0, whole := true }

/-- The frame and, in its key's first slot, the entry of that member, whose route is 7 (unreachable). -/
def farRouteState : State :=
  ({ State.reset with boot.romPending := false, eth.frames := [(1, farFrame)], addr.slots := [(slotKey 5 91412, farEntry)] } : State).setFld
    (F.KL_ROUTE 1990530) 7

theorem farRouteState_findKey : farRouteState.findKey 5 0 0 = some (91412, farEntry) := by decide +kernel

/-- Counting the lookup has made the route 8: the frame is sent, and no drop is counted. -/
theorem farRouteState_unreach_drop : fldAfter F.KL_UNREACH_DROP (exec (.addrLookup 1) farRouteState) = some 0 := by decide +kernel

/-- Refutes O36: the clause on a member without a route bounds neither the slice nor the entry's origin. With slice 5 (of four) and origin 1990530 the
registers KL_ROUTE[origin] and ADDR_LOOKUPS[5] coincide, so counting the lookup turns the route 7 into 8, whose port is 0: the frame is sent, and
KL_UNREACH_DROP stays 0 where the clause has it count 1. -/
theorem not_addressTableIsKept : ¬ Obligations.AddressTableIsKept := by
  unfold Obligations.AddressTableIsKept
  rintro ⟨hlookup, -⟩
  obtain ⟨-, -, -, hunreach, -⟩ := hlookup farRouteState 1 farFrame 5 0 (by decide +kernel) rfl rfl rfl rfl rfl nofun rfl rfl rfl rfl
  have hdrop := hunreach 91412 farEntry farRouteState_findKey (by decide +kernel) rfl (by decide +kernel) rfl rfl rfl
  have hcount := fldAfter_exec_of_counts hdrop fun _ h => h.2
  rw [farRouteState_unreach_drop] at hcount
  exact absurd hcount (by decide +kernel)

/-! An ACK outside the window (R270). -/

/-- The key of the queue pair, all zero. -/
def ackKey : List Byte := List.replicate 44 0

/-- An ACK of packet 5, which has not been sent. -/
def ackPkt : KraPkt := { op := 6, seq := 0, ext := ackExt 5 0 0 }

/-- The frame of that ACK. It holds one cell of a class past the last: the register PB_CLASS_USE of this class would be KRA_RX_DUPLICATE of slice 0. -/
def ackFrame : Frame :=
  { id := 1, origin := .korrum 0 0, slice := 0, stage := .kra, data := kraSeal ackKey 10 0 0 ackPkt, arrived := 64, whole := true,
    cells := [(0, 73730, 1)], looked := some { handle := 0, entry := 0 } }

/-- The frame is first of queue pair 0, which lives, whose context (state 2, nothing sent) is cached and whose key has come; one duplicate was counted. -/
def farCellState : State :=
  ({ State.reset with
      boot.romPending := false
      eth.frames := [(1, ackFrame)]
      kra := { order := [1], counted := [1], cache := [[(0, 2)], [], [], []], qps := [(0, { live := true })] }
      cipher.keyReqs := [{ slice := 0, op := 2, slot := 0, gen := 0, label := kraLabel 2, result := some (0, ackKey) }] } : State).setFld
    (F.KRA_RX_DUPLICATE 0) 1

/-- The ACK as the queue pair receives it. -/
def ackRx : KraRx := { frame := ackFrame, k := 0, qp := 0, c := 2, hdr := leAt (kraHeader 10 0 0 ackPkt) 0 32, ext := ackPkt.ext, payload := [] }

theorem farCellState_kraReceive : (farCellState.kraReceive 1 6).2 = some ackRx ∧ (farCellState.kraReceive 1 6).1.qpCtx 0 0 = some 2 ∧
    (farCellState.kraReceive 1 6).1.fld (F.KRA_RX_DUPLICATE 0) = 1 := by decide +kernel

/-- Freeing the cell has taken the duplicate counted before away: the count stays at 1. -/
theorem farCellState_rx_duplicate : fldAfter (F.KRA_RX_DUPLICATE 0) (exec (.ack 1) farCellState) = some 1 := by decide +kernel

/-- Refutes O40: the clause on an ACK outside the window does not bound the classes of the frame's cells. For a cell of class 73730 (of four) the
registers PB_CLASS_USE and KRA_RX_DUPLICATE of slice 0 coincide, so freeing the frame's cell takes 1 from KRA_RX_DUPLICATE before the ACK adds 1: it stays
at 1 where the clause has it count 1 up. -/
theorem not_kraRequestersWork : ¬ Obligations.KraRequestersWork := by
  unfold Obligations.KraRequestersWork
  rintro ⟨-, -, -, -, -, hack, -⟩
  obtain ⟨hsome, hctx, hbefore⟩ := farCellState_kraReceive
  have hrx : farCellState.kraReceive 1 6 = ((farCellState.kraReceive 1 6).1, some ackRx) := by rw [← hsome]
  obtain ⟨-, houtside, -⟩ := hack farCellState _ 1 ackRx (by decide +kernel) hrx hctx
  have hdup := houtside (by decide +kernel) (.inr (by decide +kernel))
  have hcount := fldAfter_exec_of_counts hdup fun _ h => h.1
  rw [show ackRx.k = 0 from rfl, farCellState_rx_duplicate, hbefore] at hcount
  exact absurd hcount (by decide)

end Sys2Proof.Machine
end
